-- ==== Sys2Proof/Word.lean ====
section
/-! DEFINITION. The word types of the DG1 and the plainest arithmetic on them (00_scope R8: little-endian, bit 0 least significant). -/

namespace Sys2Proof

/-- A byte of any memory. -/
abbrev Byte := BitVec 8

/-- A scalar register, a token, an instruction word (03 R95, R98; 01 R32). -/
abbrev Word := BitVec 64

/-- A vector register: 64 lanes of 32 bits (03 R98). -/
abbrev VWord := BitVec 2048

/-- A mask register (03 R98). -/
abbrev MWord := BitVec 512

end Sys2Proof
end

