-- ==== Sys2Proof/Syntax.lean ====
section
/-! DEFINITION. The commands of the DG1: one constructor for each row of spec/opcode_table.json, with the operands
that the row's rule gives it.  A core instruction carries the fields of its word (03 R95) but CLASS and OP, which its
constructor fixes; an event names the unit it happens at; a frame is its header,
payload and CRC as bytes (11 R385), and `lam` beside it is the place where it arrives, 8 × port + wavelength (11 R378). -/

namespace Sys2Proof

/-- The fields of an instruction word but CLASS and OP (03 R95). -/
structure Fields where
  dst : BitVec 6
  srca : BitVec 6
  srcb : BitVec 6
  srcc : BitVec 6
  mask : BitVec 4
  type : BitVec 4
  mod : BitVec 4
  imm : BitVec 16
deriving DecidableEq, Repr

/-- Where a control write or read goes (01 R32, 03 R117): the token names the unit, its VALUE the data's low bits;
the hub's control writes name the place in full. -/
inductive CtlTarget where
  /-- A register of BAR0 of PF0, with the bytes written (4 or 8). -/
  | reg (addr : Nat) (size : Nat) (value : BitVec 64)
  /-- A byte range of a core's descriptor window (03 R118). -/
  | descriptor (core : Fin 800) (offset : Nat) (bytes : List Byte)
  /-- Words of a core's program memory (03, Task extents and launch). -/
  | program (core : Fin 800) (word : Nat) (words : List Word)
deriving DecidableEq, Repr

/-- How a message between hubs reaches the device: in a frame that arrives at a place (8 × port +
wavelength, 11 R378), or from the device itself. -/
inductive Via where
  | lambda (lam : Fin 256) (frame : List Byte)
  | own
deriving DecidableEq, Repr

/-- A codeword error that appears in a stack: the symbols of the codeword at a stack address that go bad
(08 R279, R280). -/
structure SymErr where
  addr : Nat
  symbols : List Nat
deriving DecidableEq, Repr

/-- The instruction that meets an error as it issues: its thread, CLASS and OP, and its fields. -/
structure Reading where
  thread : Fin 16
  cls : BitVec 4
  op : BitVec 8
  fields : Fields
deriving DecidableEq, Repr

/-- Where a new uncorrectable or correctable SRAM error appears (18 R585): in a core memory with the core of the cluster whose
instruction meets it, in a plane of a matrix core, in shared memory with the core that meets it if an instruction does. -/
inductive SramLoc where
  | program (core : Fin 800) (offset : Nat)
  | own (core : Fin 800) (offset : Nat) (reader : Fin 20) (by_ : Reading)
  | acc (core : Fin 800) (offset : Nat) (reader : Fin 20) (by_ : Reading)
  | plane (core : Fin 800) (plane : Fin 2) (offset : Nat)
  | shared (cluster : Fin 40) (offset : Nat) (reader : Option (Fin 20 × Reading))
  | cache (cluster : Fin 40) (offset : Nat)
  | portGroup (group : Fin 8) (offset : Nat)
  | baseGroup (stack : Fin 8) (offset : Nat)
  | hub (offset : Nat)
  | unit (n offset : Nat)
deriving DecidableEq, Repr

/-- An error that the SECDED code of an SRAM has corrected (18 R585): the KIND and INDEX of its unit, the offset. -/
structure SramFix where
  kind : Fin 3
  index : BitVec 12
  offset : Nat
deriving DecidableEq, Repr

/-- Which enables of the laser modules drop: that of a detached module, or both in the laser shutdown (11 R408, 18 R594). -/
inductive LaserDrop where
  | a
  | b
  | both
deriving DecidableEq, Repr

/-- How the host answers the accesses of one command of a ring: as asked, or with a completion error to the fetch of the packet, to the
write of the reply (17 R573), or to an access of the command's data (17 R579). -/
inductive HostErr where
  | none
  | fetch
  | reply
  | data
deriving DecidableEq, Repr

/-- The fetch of a ring's next command, and the host completion error that it or its reply's write meets. -/
structure RingFetch where
  ring : Fin 64
  err : HostErr
deriving DecidableEq, Repr

/-- A lambda at the end of its training, with the sequence number that its peer gives (11 R383, R394). -/
structure LamSeq where
  lam : Fin 256
  seq : BitVec 12
deriving DecidableEq, Repr

/-- A frame as it arrives behind the FEC: its bytes, its codewords corrected and not correctable (11 R393). -/
structure FecFrame where
  bytes : List Byte
  ce : BitVec 8
  ue : BitVec 8
deriving DecidableEq, Repr

/-- Who asks with a memory request of the host: the function that it goes to, and whether it travels on that function's IDE stream (16
R551). -/
structure Requester where
  fn : Fin 9
  ide : Bool
deriving DecidableEq, Repr

/-- What a write of a function's space that has no row of its own names: bytes of BAR0 (20 R638), or the MSI-X enable of its
configuration space (17 R562). -/
inductive WriteTo where
  | bar (offset size : Nat)
  | msixEnable
deriving DecidableEq, Repr

/-- What a debug token's holder asks for (16 R553): a fence of a partition; task state and registers of a thread of a core; a burst of
stack memory; a byte of an SRAM, by section and key, or of the hub's; a halt or a resume of a core's task. -/
inductive DebugAct where
  | fence (p : Fin 8)
  | regs (core : Fin 800) (t : Fin 16) (r : Fin 64)
  | mem (burst : Nat)
  | sram (sec : Fin 8) (key : Nat)
  | hub (offset : Nat)
  | halt (core : Fin 800)
  | resume (core : Fin 800)
deriving DecidableEq, Repr

/-- VDD_AON falls, or rises with the levels of the straps FEED_ID and SMB_ADDR (19 R629, 21 R665). -/
inductive AonSupply where
  | fall
  | rise (feed : BitVec 3) (smb : BitVec 2)
deriving DecidableEq, Repr

/-- A Write Byte transaction on SMBus: target address, data byte, and the PEC byte where the host appends one (21 R666). -/
structure SmbWrite where
  addr : BitVec 7
  data : BitVec 8
  pec : Option (BitVec 8)
deriving DecidableEq, Repr

/-- A read transaction on SMBus: target address, and whether the host acknowledges the last data byte and so takes a PEC (21 R666). -/
structure SmbRead where
  addr : BitVec 7
  pec : Bool
deriving DecidableEq, Repr

/-- The address of a transaction on SMBus, and the command code that follows it where no other row carries the transaction: one that is
not listed (21 R667). -/
structure SmbMatch where
  addr : BitVec 7
  code : Option (BitVec 8)
deriving DecidableEq, Repr

/-- A host command as it stands in its ring (17 R574), with the function and the ring it was fetched from. -/
structure HostCmd where
  fn : Fin 9
  ring : Fin 64
  packet : BitVec 512
deriving DecidableEq, Repr

/-- The commands. -/
inductive Instr where
  /-- NOP: Class 0 instruction that does nothing (R108). -/
  | nop (c : Fin 800) (t : Fin 16) (f : Fields)
  /-- ADD: Scalar addition modulo 2^64, optionally with an immediate operand (R108). -/
  | add (c : Fin 800) (t : Fin 16) (f : Fields)
  /-- SUB: Scalar subtraction modulo 2^64 (R108). -/
  | sub (c : Fin 800) (t : Fin 16) (f : Fields)
  /-- AND: Scalar bitwise AND (R108). -/
  | and_ (c : Fin 800) (t : Fin 16) (f : Fields)
  /-- OR: Scalar bitwise OR (R108). -/
  | or_ (c : Fin 800) (t : Fin 16) (f : Fields)
  /-- XOR: Scalar bitwise XOR (R108). -/
  | xor (c : Fin 800) (t : Fin 16) (f : Fields)
  /-- SHL: Scalar left shift by b mod 64 (R108). -/
  | shl (c : Fin 800) (t : Fin 16) (f : Fields)
  /-- SHR: Scalar logical right shift with zero fill (R108). -/
  | shr (c : Fin 800) (t : Fin 16) (f : Fields)
  /-- SRA: Scalar arithmetic right shift with sign fill (R108). -/
  | sra (c : Fin 800) (t : Fin 16) (f : Fields)
  /-- MUL: Low 64 bits of a scalar product (R108). -/
  | mul (c : Fin 800) (t : Fin 16) (f : Fields)
  /-- MULHU: High 64 bits of an unsigned scalar product (R108). -/
  | mulhu (c : Fin 800) (t : Fin 16) (f : Fields)
  /-- MIN: Signed scalar minimum (R108). -/
  | min (c : Fin 800) (t : Fin 16) (f : Fields)
  /-- MAX: Signed scalar maximum (R108). -/
  | max (c : Fin 800) (t : Fin 16) (f : Fields)
  /-- MINU: Unsigned scalar minimum (R108). -/
  | minu (c : Fin 800) (t : Fin 16) (f : Fields)
  /-- MAXU: Unsigned scalar maximum (R108). -/
  | maxu (c : Fin 800) (t : Fin 16) (f : Fields)
  /-- SLT: Signed set-less-than (R108). -/
  | slt (c : Fin 800) (t : Fin 16) (f : Fields)
  /-- SLTU: Unsigned set-less-than (R108). -/
  | sltu (c : Fin 800) (t : Fin 16) (f : Fields)
  /-- SEQ: Set-equal (R108). -/
  | seq (c : Fin 800) (t : Fin 16) (f : Fields)
  /-- LI: Loads the sign-extended immediate into a scalar register (R108). -/
  | li (c : Fin 800) (t : Fin 16) (f : Fields)
  /-- LIP: Writes the immediate into one 16-bit part of a scalar register (R108). -/
  | lip (c : Fin 800) (t : Fin 16) (f : Fields)
  /-- BEQ: Branches if the operands are equal (R108). -/
  | beq (c : Fin 800) (t : Fin 16) (f : Fields)
  /-- BNE: Branches if the operands differ (R108). -/
  | bne (c : Fin 800) (t : Fin 16) (f : Fields)
  /-- BLT: Branches on signed less-than (R108). -/
  | blt (c : Fin 800) (t : Fin 16) (f : Fields)
  /-- BGE: Branches on signed greater-or-equal (R108). -/
  | bge (c : Fin 800) (t : Fin 16) (f : Fields)
  /-- BLTU: Branches on unsigned less-than (R108). -/
  | bltu (c : Fin 800) (t : Fin 16) (f : Fields)
  /-- BGEU: Branches on unsigned greater-or-equal (R108). -/
  | bgeu (c : Fin 800) (t : Fin 16) (f : Fields)
  /-- DBNZ: Decrements a register and branches if the result is non-zero (R108). -/
  | dbnz (c : Fin 800) (t : Fin 16) (f : Fields)
  /-- JAL: Jumps relative and links the return address (R108). -/
  | jal (c : Fin 800) (t : Fin 16) (f : Fields)
  /-- JR: Jumps to a register address and links (R108). -/
  | jr (c : Fin 800) (t : Fin 16) (f : Fields)
  /-- END: Ends the thread; when all threads have ended the task ends (R121). -/
  | end_ (c : Fin 800) (t : Fin 16) (f : Fields)
  /-- CSRR: Reads a core status item selected by the immediate (R109). -/
  | csrr (c : Fin 800) (t : Fin 16) (f : Fields)
  /-- FLCLR: Clears the thread's sticky flags (R108). -/
  | flclr (c : Fin 800) (t : Fin 16) (f : Fields)
  /-- MAND: Mask AND (R108). -/
  | mand (c : Fin 800) (t : Fin 16) (f : Fields)
  /-- MOR: Mask OR (R108). -/
  | mor (c : Fin 800) (t : Fin 16) (f : Fields)
  /-- MXOR: Mask XOR (R108). -/
  | mxor (c : Fin 800) (t : Fin 16) (f : Fields)
  /-- MANDN: Mask AND-NOT (R108). -/
  | mandn (c : Fin 800) (t : Fin 16) (f : Fields)
  /-- MNOT: Mask complement (R108). -/
  | mnot (c : Fin 800) (t : Fin 16) (f : Fields)
  /-- MPOP: Counts set bits among the first n mask bits (R108). -/
  | mpop (c : Fin 800) (t : Fin 16) (f : Fields)
  /-- MFIRST: Finds the lowest set mask bit or -1 (R108). -/
  | mfirst (c : Fin 800) (t : Fin 16) (f : Fields)
  /-- MFROM: Writes a scalar into one 64-bit word of a mask (R108). -/
  | mfrom (c : Fin 800) (t : Fin 16) (f : Fields)
  /-- MTO: Reads one 64-bit word of a mask into a scalar (R108). -/
  | mto (c : Fin 800) (t : Fin 16) (f : Fields)
  /-- LD: Scalar load from own, shared or stack memory after alignment, extent and translation checks (R113). -/
  | ld (c : Fin 800) (t : Fin 16) (f : Fields)
  /-- ST: Scalar store, allowed only inside a writable extent (R113). -/
  | st (c : Fin 800) (t : Fin 16) (f : Fields)
  /-- TSET: Sets a tile handle after handle checks (R115). -/
  | tset (c : Fin 800) (t : Fin 16) (f : Fields)
  /-- TGET: Copies a tile handle into a scalar register (R113). -/
  | tget (c : Fin 800) (t : Fin 16) (f : Fields)
  /-- SOPEN: Opens a stream from a descriptor and reserves its sluice depth (R126). -/
  | sopen (c : Fin 800) (t : Fin 16) (f : Fields)
  /-- SCLOSE: Stops fetching, settles in-flight transfers and frees the stream (R126). -/
  | sclose (c : Fin 800) (t : Fin 16) (f : Fields)
  /-- SRD: Consumes the next chunk of a read stream into a vector register (R129). -/
  | srd (c : Fin 800) (t : Fin 16) (f : Fields)
  /-- SWR: Appends a vector as the next chunk of a write stream after checking every element (R128). -/
  | swr (c : Fin 800) (t : Fin 16) (f : Fields)
  /-- STREAM_FETCH: A read stream requests its next chunk once a credit is free and the chunk lies within the extents (R127). -/
  | streamFetch (c : Fin 800) (q : Fin 16)
  /-- CHUNK_LAND: A fetched chunk lands in the stream buffer, with failed elements marked faulted (R129). -/
  | chunkLand (c : Fin 800) (q : Fin 16)
  /-- VLD: Contiguous vector load of active elements (R190). -/
  | vld (c : Fin 800) (t : Fin 16) (f : Fields)
  /-- VLDS: Strided vector load; a zero stride broadcasts one element (R190). -/
  | vlds (c : Fin 800) (t : Fin 16) (f : Fields)
  /-- VST: Contiguous vector store of active elements (R190). -/
  | vst (c : Fin 800) (t : Fin 16) (f : Fields)
  /-- VSTS: Strided vector store with overlap check (R190). -/
  | vsts (c : Fin 800) (t : Fin 16) (f : Fields)
  /-- VLDT: Loads one part of one tile row into a vector register (R190). -/
  | vldt (c : Fin 800) (t : Fin 16) (f : Fields)
  /-- VSTT: Stores a vector into one part of one row of an own tile (R190). -/
  | vstt (c : Fin 800) (t : Fin 16) (f : Fields)
  /-- SIG: Sends a signal token with release order after earlier stores are accepted (R36). -/
  | sig (c : Fin 800) (t : Fin 16) (f : Fields)
  /-- CRET: Sends a credit-return token without release wait (R131). -/
  | cret (c : Fin 800) (t : Fin 16) (f : Fields)
  /-- WAITC: Waits until a counter reaches a value, then subtracts it indivisibly (R132). -/
  | waitc (c : Fin 800) (t : Fin 16) (f : Fields)
  /-- BARV: Sends a barrier-arrive token (R131). -/
  | barv (c : Fin 800) (t : Fin 16) (f : Fields)
  /-- BWAIT: Waits for a barrier release of the named or a later generation (R134). -/
  | bwait (c : Fin 800) (t : Fin 16) (f : Fields)
  /-- FENCE: Waits until every earlier store and stream write of the thread is accepted (R131). -/
  | fence (c : Fin 800) (t : Fin 16) (f : Fields)
  /-- MXM: Issues a block product into one to four accumulator tiles (R145). -/
  | mxm (c : Fin 800) (t : Fin 16) (f : Fields)
  /-- MXM_START: An issued MXM starts once its plane, operands, granules and credits are ready and its first stream row enters the array (R173). -/
  | mxmStart (c : Fin 800)
  /-- BARGE_POST: A closed tile is converted to the output format, its status completed and its barge posted (R169). -/
  | bargePost (c : Fin 800)
  /-- ARRAY_FAULT: A stream or SRAM fault found after issue stops the task and discards the affected tiles and queued instructions (R176). -/
  | arrayFault (c : Fin 800)
  /-- MLDP: Loads a plane from a tile or the next 256 rows of a stream (R147). -/
  | mldp (c : Fin 800) (t : Fin 16) (f : Fields)
  /-- PLANE_READY: A plane load completes and the plane becomes usable by waiting MXMs (R175). -/
  | planeReady (c : Fin 800) (plane : Fin 2)
  /-- MDROP: Discards an OPEN tile without a barge and frees its granules (R147). -/
  | mdrop (c : Fin 800) (t : Fin 16) (f : Fields)
  /-- MDRAIN: Waits until every earlier MXM and MLDP has finished and every barge is posted (R147). -/
  | mdrain (c : Fin 800) (t : Fin 16) (f : Fields)
  /-- MBCNT: Reads the number of free barge credits (R147). -/
  | mbcnt (c : Fin 800) (t : Fin 16) (f : Fields)
  /-- VMOV: Copies a vector bit for bit (R183). -/
  | vmov (c : Fin 800) (t : Fin 16) (f : Fields)
  /-- VIOTA: Writes each element's index (R183). -/
  | viota (c : Fin 800) (t : Fin 16) (f : Fields)
  /-- VAND: Element-wise AND (R183). -/
  | vand (c : Fin 800) (t : Fin 16) (f : Fields)
  /-- VOR: Element-wise OR (R183). -/
  | vor (c : Fin 800) (t : Fin 16) (f : Fields)
  /-- VXOR: Element-wise XOR (R183). -/
  | vxor (c : Fin 800) (t : Fin 16) (f : Fields)
  /-- VNOT: Element-wise complement (R183). -/
  | vnot (c : Fin 800) (t : Fin 16) (f : Fields)
  /-- VSHL: Element-wise left shift (R183). -/
  | vshl (c : Fin 800) (t : Fin 16) (f : Fields)
  /-- VSHR: Element-wise logical right shift (R183). -/
  | vshr (c : Fin 800) (t : Fin 16) (f : Fields)
  /-- VSRA: Element-wise arithmetic right shift (R189). -/
  | vsra (c : Fin 800) (t : Fin 16) (f : Fields)
  /-- VADD: Element-wise addition (R185). -/
  | vadd (c : Fin 800) (t : Fin 16) (f : Fields)
  /-- VSUB: Element-wise subtraction (R185). -/
  | vsub (c : Fin 800) (t : Fin 16) (f : Fields)
  /-- VMUL: Element-wise multiplication (R185). -/
  | vmul (c : Fin 800) (t : Fin 16) (f : Fields)
  /-- VFMA: Fused multiply-add with one rounding (R185). -/
  | vfma (c : Fin 800) (t : Fin 16) (f : Fields)
  /-- VFNMA: Fused negated multiply-add with one rounding (R185). -/
  | vfnma (c : Fin 800) (t : Fin 16) (f : Fields)
  /-- VDIV: Correctly rounded division (R185). -/
  | vdiv (c : Fin 800) (t : Fin 16) (f : Fields)
  /-- VSQRT: Correctly rounded square root (R185). -/
  | vsqrt (c : Fin 800) (t : Fin 16) (f : Fields)
  /-- VRSQRT: Correctly rounded reciprocal square root (R185). -/
  | vrsqrt (c : Fin 800) (t : Fin 16) (f : Fields)
  /-- VEXP: Correctly rounded exponential (R185). -/
  | vexp (c : Fin 800) (t : Fin 16) (f : Fields)
  /-- VLOG: Correctly rounded natural logarithm (R185). -/
  | vlog (c : Fin 800) (t : Fin 16) (f : Fields)
  /-- VMAX: Element-wise maximum (R187). -/
  | vmax (c : Fin 800) (t : Fin 16) (f : Fields)
  /-- VMIN: Element-wise minimum (R187). -/
  | vmin (c : Fin 800) (t : Fin 16) (f : Fields)
  /-- VABS: Element-wise absolute value (R183). -/
  | vabs (c : Fin 800) (t : Fin 16) (f : Fields)
  /-- VNEG: Element-wise negation (R183). -/
  | vneg (c : Fin 800) (t : Fin 16) (f : Fields)
  /-- VSIGN: Element-wise sign (R186). -/
  | vsign (c : Fin 800) (t : Fin 16) (f : Fields)
  /-- VCLAMP: Element-wise clamp between two bounds (R187). -/
  | vclamp (c : Fin 800) (t : Fin 16) (f : Fields)
  /-- VCMPEQ: Compares for equality into a mask (R188). -/
  | vcmpeq (c : Fin 800) (t : Fin 16) (f : Fields)
  /-- VCMPNE: Compares for inequality into a mask (R188). -/
  | vcmpne (c : Fin 800) (t : Fin 16) (f : Fields)
  /-- VCMPLT: Compares less-than into a mask (R188). -/
  | vcmplt (c : Fin 800) (t : Fin 16) (f : Fields)
  /-- VCMPLE: Compares less-or-equal into a mask (R188). -/
  | vcmple (c : Fin 800) (t : Fin 16) (f : Fields)
  /-- VSEL: Selects elements by a mask (R183). -/
  | vsel (c : Fin 800) (t : Fin 16) (f : Fields)
  /-- VNF: Marks NaN or infinite elements in a mask (R183). -/
  | vnf (c : Fin 800) (t : Fin 16) (f : Fields)
  /-- VPERM: Lane permute by an index vector (R191). -/
  | vperm (c : Fin 800) (t : Fin 16) (f : Fields)
  /-- VPERMB: Byte permute by an index vector (R191). -/
  | vpermb (c : Fin 800) (t : Fin 16) (f : Fields)
  /-- VSHUF: Applies a fixed shuffle pattern (R192). -/
  | vshuf (c : Fin 800) (t : Fin 16) (f : Fields)
  /-- VPACK: Narrows two registers into one, truncating or saturating (R193). -/
  | vpack (c : Fin 800) (t : Fin 16) (f : Fields)
  /-- VUNPK: Widens half a register (R193). -/
  | vunpk (c : Fin 800) (t : Fin 16) (f : Fields)
  /-- VCVT: Converts between formats, with block scales and stochastic rounding (R195). -/
  | vcvt (c : Fin 800) (t : Fin 16) (f : Fields)
  /-- VRSUM: Sum reduction in the fixed tree (R200). -/
  | vrsum (c : Fin 800) (t : Fin 16) (f : Fields)
  /-- VRSSQ: Sum-of-squares reduction (R199). -/
  | vrssq (c : Fin 800) (t : Fin 16) (f : Fields)
  /-- VRMV: Count, mean and M2 reduction (R201). -/
  | vrmv (c : Fin 800) (t : Fin 16) (f : Fields)
  /-- VMVM: Merges two count-mean-M2 triples (R201). -/
  | vmvm (c : Fin 800) (t : Fin 16) (f : Fields)
  /-- VRMAX: Maximum reduction (R199). -/
  | vrmax (c : Fin 800) (t : Fin 16) (f : Fields)
  /-- VRMIN: Minimum reduction (R199). -/
  | vrmin (c : Fin 800) (t : Fin 16) (f : Fields)
  /-- VRAMAX: Maximum reduction with the index of the lowest maximum (R199). -/
  | vramax (c : Fin 800) (t : Fin 16) (f : Fields)
  /-- VTAKE: Takes the oldest posted barge of a matrix core, or polls (R203). -/
  | vtake (c : Fin 800) (t : Fin 16) (f : Fields)
  /-- VREL: Releases a taken barge, freeing its tile and credit (R205). -/
  | vrel (c : Fin 800) (t : Fin 16) (f : Fields)
  /-- SDEG: Returns a node's degree (R250). -/
  | sdeg (c : Fin 800) (t : Fin 16) (f : Fields)
  /-- SNBR: Copies a range of a node's neighbour list (R255). -/
  | snbr (c : Fin 800) (t : Fin 16) (f : Fields)
  /-- SUNI: Samples K neighbours uniformly without replacement (R256). -/
  | suni (c : Fin 800) (t : Fin 16) (f : Fields)
  /-- SALIAS: Samples K neighbours by alias table with replacement (R257). -/
  | salias (c : Fin 800) (t : Fin 16) (f : Fields)
  /-- STOPK: Takes the K neighbours of largest weight (R258). -/
  | stopk (c : Fin 800) (t : Fin 16) (f : Fields)
  /-- SWALK: Runs a random walk with restart (R259). -/
  | swalk (c : Fin 800) (t : Fin 16) (f : Fields)
  /-- SLAYR: Layer-wise sample over a candidate list (R260). -/
  | slayr (c : Fin 800) (t : Fin 16) (f : Fields)
  /-- GATHL: Gathers rows by an index list into memory or a stream (R311). -/
  | gathl (c : Fin 800) (t : Fin 16) (f : Fields)
  /-- VGATH: Gathers one element per active lane (R315). -/
  | vgath (c : Fin 800) (t : Fin 16) (f : Fields)
  /-- VSCAT: Scatters one element per active lane (R316). -/
  | vscat (c : Fin 800) (t : Fin 16) (f : Fields)
  /-- BCMD: Sends a base-engine command (R321). -/
  | bcmd (c : Fin 800) (t : Fin 16) (f : Fields)
  /-- BSPLIT: Splits records into key-range buckets (R336). -/
  | bsplit (c : Fin 800) (t : Fin 16) (f : Fields)
  /-- BSORT: Stably sorts edge records into a weighted-sum pool payload (R337). -/
  | bsort (c : Fin 800) (t : Fin 16) (f : Fields)
  /-- ERES: Resolves table rows into lookup or serve entries (R354). -/
  | eres (c : Fin 800) (t : Fin 16) (f : Fields)
  /-- ESORT: Stably sorts lookup or serve entries by a key (R358). -/
  | esort (c : Fin 800) (t : Fin 16) (f : Fields)
  /-- FEEDER_CREDIT_RETURN: A matrix core returns consumed-chunk credit to the feeders of a gather-fed stream (R330). -/
  | feederCreditReturn (c : Fin 800) (q : Fin 16)
  /-- POOL_GROUP_ISSUE: A pooling-fed stream sends the next group's POOL once its chunks have credit (R333). -/
  | poolGroupIssue (c : Fin 800) (q : Fin 16)
  /-- GATHER: Base-engine command that copies rows bit for bit to the destination (R301). -/
  | gather (st : Fin 8) (id : Nat)
  /-- POOL: Base-engine command that pools segments of rows (R301). -/
  | pool (st : Fin 8) (id : Nat)
  /-- SCATTER_ADD: Base-engine command that adds gradient rows into table rows (R301). -/
  | scatterAdd (st : Fin 8) (id : Nat)
  /-- ROW_UPDATE: Base-engine command that runs an update program on each row with journaling (R460). -/
  | rowUpdate (st : Fin 8) (id : Nat)
  /-- COMMAND_COMPLETION: Once results are accepted, the completion word is written and a signal token sent (R306). -/
  | commandCompletion (st : Fin 8) (id : Nat)
  /-- TOKEN_CREDIT_RETURN: A credit-return token arrives and adds its value to the counter (R35). -/
  | tokenCreditReturn (tok : Word)
  /-- TOKEN_SIGNAL: A signal token arrives and adds its value to the counter (R35). -/
  | tokenSignal (tok : Word)
  /-- BARRIER_ARRIVE: A barrier-arrive token reaches its destination (R32). -/
  | barrierArrive (tok : Word)
  /-- BARRIER_RELEASE: A barrier-release token records its generation at the channel (R134). -/
  | barrierRelease (tok : Word)
  /-- CONTROL_WRITE: A control-write token takes effect between instructions or commands (R39). -/
  | controlWrite (tok : Word) (target : CtlTarget)
  /-- CONTROL_READ: A control-read token requests a register value (R32). -/
  | controlRead (tok : Word) (target : CtlTarget)
  /-- READ_REPLY: A read-reply token returns data (R32). -/
  | readReply (tok : Word)
  /-- FAULT_RECORD_NOTICE: A fault-record notice reaches the hub, which files a TASK_FAULT report (R139). -/
  | faultRecordNotice (tok : Word)
  /-- CONTRIBUTION_DOORBELL: A doorbell on channel 1 makes the port engine group copy and check a contribution descriptor and free its ring slot (R412). -/
  | contributionDoorbell (tok : Word)
  /-- EXCHANGE_DOORBELL: A doorbell on channel 2 starts an all-to-all exchange (R435). -/
  | exchangeDoorbell (tok : Word)
  /-- TASK_START: Writing CL_TASK_STATE.START launches a task from the descriptor (R119). -/
  | taskStart (c : Fin 800)
  /-- TASK_HALT: Writing CL_TASK_STATE.HALT stops the running task between instructions (R122). -/
  | taskHalt (c : Fin 800)
  /-- TOKEN_CHANNEL_OPEN: Writing CL_TOK_LIMIT sets the channel's limit and zeroes its count and generation (R652). -/
  | tokenChannelOpen (c : Fin 800) (ch : Fin 64) (value : Word)
  /-- ARB_COMMIT: Writing ARB_COMMIT.GO copies the shadow slot table and priorities into force (R290). -/
  | arbCommit (inst : Fin 1824)
  /-- ARBITER_ROUND: An arbiter round grants at most one eligible requester and updates ages (R288). -/
  | arbiterRound (inst : Fin 1824) (errs : List SymErr)
  /-- BANK_REFRESH: The stack controller refreshes a bank when its refresh interval expires (R273). -/
  | bankRefresh (st : Fin 8) (pc : Fin 64) (bank : Fin 32)
  /-- ROW_CLOSE: A bank's open row closes after 64 base cycles without access (R275). -/
  | rowClose (st : Fin 8) (pc : Fin 64) (bank : Fin 32)
  /-- PATROL_SCRUB: The patrol scrub reads a codeword and writes back any correction (R283). -/
  | patrolScrub (st : Fin 8) (addr : BitVec 36) (errs : List SymErr)
  /-- SWEEP_REWRITE: The key-rotation sweep rewrites a burst under the current key (R529). -/
  | sweepRewrite (st : Fin 8)
  /-- IDLE: An IDLE frame carries returned credits and acknowledgements (R389). -/
  | idleFrame (lam : Fin 256) (frame : List Byte)
  /-- CREDIT_IDLE_SEND: Credits or an acknowledgement that have waited 64 port cycles are sent in an IDLE frame (R389). -/
  | creditIdleSend (lam : Fin 256)
  /-- TOKEN: A TOKEN frame passes its checks and enters the towpath (R387). -/
  | tokenFrame (lam : Fin 256) (frame : List Byte)
  /-- COLLECTIVE_LEAF: A KIND 0 leaf frame arrives at a stage-1 node and sibling pairs combine (R419). -/
  | collectiveLeaf (lam : Fin 256) (frame : List Byte)
  /-- COLLECTIVE_PARTIAL: A KIND 1 partial arrives at a stage-2 node and combines (R414). -/
  | collectivePartial (lam : Fin 256) (frame : List Byte)
  /-- SPAN_UPDATE: A port engine group updates a span once its final reduced values exist (R456). -/
  | spanUpdate (g : Fin 8) (p : Fin 8) (slot bucket span : Nat)
  /-- HUB_SPAN_UPDATE: Hub cores update a span from the basin when the dense site is the hub (R457). -/
  | hubSpanUpdate (p : Fin 8) (slot bucket span : Nat)
  /-- LATE_MARKER: A LATE marker stands in for an absent input at a stage (R429). -/
  | lateMarker (lam : Fin 256) (frame : List Byte)
  /-- GATHER_FLIGHT: A KIND 2 all-gather frame delivers an updated chunk along the flight (R421). -/
  | gatherFlight (lam : Fin 256) (frame : List Byte)
  /-- GATHER_REACH: A KIND 3 all-gather frame delivers updated chunks along the reach (R421). -/
  | gatherReach (lam : Fin 256) (frame : List Byte)
  /-- COACH_SEGMENT: A COACH frame's stream bytes are placed and complete coaches parsed into the yard (R437). -/
  | coachSegment (lam : Fin 256) (frame : List Byte)
  /-- SNAPSHOT_DATA: A snapshot part segment arrives at the buddy and is checked (R509). -/
  | snapshotData (lam : Fin 256) (frame : List Byte)
  /-- SNAPSHOT_ACK: An acknowledgement of a snapshot part arrives at the drainer (R509). -/
  | snapshotAck (via : Via)
  /-- SNAPSHOT_REFUSAL: A buddy refusal makes the drainer send its parts to the next candidate (R510). -/
  | snapshotRefusal (via : Via)
  /-- HELLO: A HELLO frame reports a peer's position, nonce, feed and build (R382). -/
  | hello (lam : Fin 256) (frame : List Byte)
  /-- LINKSTATE: A LINKSTATE frame updates the peer's lambda usability bits (R398). -/
  | linkstate (lam : Fin 256) (frame : List Byte)
  /-- LINKSTATE_SEND: A device sends LINKSTATE after a lambda change or every 10 ms (R398). -/
  | linkstateSend
  /-- LINKQUERY: A LINKQUERY closes the receive side of a lambda and prompts a LINKREPLY (R395). -/
  | linkquery (lam : Fin 256) (frame : List Byte)
  /-- LINKREPLY: A LINKREPLY resolves a dead lambda's replay buffer (R395). -/
  | linkreply (lam : Fin 256) (frame : List Byte)
  /-- FRAME_FORWARD: An intermediate forwards, bounces or discards a frame not addressed to it (R397). -/
  | frameForward (lam : Fin 256) (frame : List Byte)
  /-- BOUNCE_RESEND: A source that receives a bounced frame resends the same bytes by another route (R397). -/
  | bounceResend (lam : Fin 256) (frame : List Byte)
  /-- RETRANSMIT: A NAK causes retransmission from ACK + 1 in order (R393). -/
  | retransmit (lam : Fin 256)
  /-- LAMBDA_RETRAIN: A lambda with no valid codeword for 2 us or 16 NAKs enters RETRAIN (R394). -/
  | lambdaRetrain (lam : Fin 256)
  /-- LAMBDA_DOWN: A lambda that fails retraining goes DOWN and its replay buffer is resolved (R395). -/
  | lambdaDown (lam : Fin 256)
  /-- LAMBDA_UP: A lambda finishes training and becomes UP (R383). -/
  | lambdaUp (lam : LamSeq)
  /-- UNREACHABLE: A destination without a route for FAB_UNREACH.TIMEOUT is reported unreachable (R399). -/
  | unreachable (dst : Nat)
  /-- FABRIC_BRING_UP: Writing FAB_CTRL.START checks lasers, finds position, trains lambdas and sets RUN (R383). -/
  | fabricBringUp (light : BitVec 256) (lasers : BitVec 128)
  /-- USE_A: Writing OP_LASER.USE_A returns an optical engine to input A (R405). -/
  | useA (e : Fin 8) (aOk : Bool)
  /-- LASER_SWITCH: An optical engine losing a wavelength on input A switches to B (R405). -/
  | laserSwitch (e : Fin 8) (bOk : Bool)
  /-- LASER_SUPPLY: With neither input complete, the engine's lambdas go DOWN and a fault is reported (R406). -/
  | laserSupply (e : Fin 8) (missA : BitVec 8) (missB : BitVec 8)
  /-- PORT_SHUTTER: A port with no receive light for 2 us shutters its modulators (R407). -/
  | portShutter (n : Fin 32)
  /-- SHUTTER_PROBE: A shuttered port emits a 1 us probe every 100 ms (R407). -/
  | shutterProbe (n : Fin 32)
  /-- PORT_OPEN: Light returned for 1 ms reopens a shuttered port, which retrains (R407). -/
  | portOpen (n : Fin 32)
  /-- LASER_ENABLE_DROP: A detached laser input deasserts that module's enable within 1 ms (R408). -/
  | laserEnableDrop (d : LaserDrop)
  /-- STRAGGLER_WINDOW_CLOSE: When the straggler window expires, unposted pairs are late and LATE markers sent (R429). -/
  | stragglerWindowClose (p : Fin 8)
  /-- VOTE_SEND: A device votes once its stage-2 results and row updates are complete (R425). -/
  | voteSend (p : Fin 8)
  /-- VOTE: A slot vote arrives at its group host and is combined (R425). -/
  | vote (via : Via)
  /-- GROUP_VOTE: A group vote arrives at the host of slot 0 and is combined (R425). -/
  | groupVote (via : Via)
  /-- VERDICT: A verdict arrives; FINITE starts all-gathers, SKIP restores from the journal (R426). -/
  | verdict (via : Via)
  /-- APPLIED_SEND: A device sends APPLIED once the verdict, updates, deltas and digests are complete (R473). -/
  | appliedSend (p : Fin 8)
  /-- APPLIED: A slot APPLIED arrives at the group host (R475). -/
  | applied (via : Via)
  /-- GROUP_APPLIED: A group APPLIED arrives at the coordinator, which commits after all 128 (R476). -/
  | groupApplied (via : Via)
  /-- COMMIT: COMMIT is processed: journals discarded, record appended, state updated and boundary actions done (R477). -/
  | commit (via : Via)
  /-- ROLLBACK: ROLLBACK restores journals, abandons migrations and discards the step's decisions (R482). -/
  | rollback (via : Via)
  /-- ABORT: An ABORT makes the coordinator send ROLLBACK with its cause (R479). -/
  | abort (via : Via)
  /-- RESOLVE: RESOLVE asks a survivor to reply with its STATE for the step (R481). -/
  | resolve (via : Via)
  /-- STATE: A STATE reply lets the coordinator commit or roll back the step (R481). -/
  | stateMsg (via : Via)
  /-- HOLD_ENTER: COMMIT_TMO expiry or a loss report puts the device in HOLD (R480). -/
  | holdEnter (p : Fin 8)
  /-- PHASE_START: A step phase starts when the previous phase has ended on the device (R467). -/
  | phaseStart (p : Fin 8)
  /-- SERVE_HEAD_TIMER: In serving mode, 1 s with records unsigned triggers a signed head (R491). -/
  | serveHeadTimer (p : Fin 8)
  /-- RISK_EVAL: Every 100 ms the health monitor computes the risk score and may request a drain (R502). -/
  | riskEval (tj : Nat) (sramCe : List SramFix)
  /-- DRAIN_START: A requested drain starts after the current step or a held-back absorption ends (R509). -/
  | drainStart
  /-- PART_CREATE: Creates a partition with fresh keys and zeroed memory (R520). -/
  | partCreate (cmd : HostCmd)
  /-- PART_FENCE: Fences a partition for good (R522). -/
  | partFence (cmd : HostCmd)
  /-- PART_TEARDOWN: Zeroizes a partition's keys and releases its sections (R524). -/
  | partTeardown (cmd : HostCmd)
  /-- PART_QUERY: Returns PART_STATUS and PART_CFG (R577). -/
  | partQuery (cmd : HostCmd)
  /-- PART_START: Writing PART_CTRL.START moves a BUILDING partition to STARTED and locks RWL fields (R521). -/
  | partStart (q : Requester) (p : Fin 8)
  /-- MEM_WRITE: Writes host data into partition stack memory (R577). -/
  | memWrite (cmd : HostCmd)
  /-- MEM_READ: Reads partition stack memory into a host buffer (R577). -/
  | memRead (cmd : HostCmd)
  /-- MEM_FILL: Fills partition memory with a pattern (R577). -/
  | memFill (cmd : HostCmd)
  /-- PT_SET: Sets the page-table root at a boundary and invalidates translation caches (R49). -/
  | ptSet (cmd : HostCmd)
  /-- APERTURE_SET: Sets the aperture's virtual base (R577). -/
  | apertureSet (cmd : HostCmd)
  /-- DEGREE_BIN: Bins row IDs by count in the hub cores (R222). -/
  | degreeBin (cmd : HostCmd)
  /-- JOB_LOAD: Applies a job manifest and starts the partition (R580). -/
  | jobLoad (cmd : HostCmd)
  /-- JOB_STOP: Stops the job at a boundary with cause HOST_STOP (R577). -/
  | jobStop (cmd : HostCmd)
  /-- JOB_RESUME: Resumes a job stopped by the host (R577). -/
  | jobResume (cmd : HostCmd)
  /-- STEP_RUN: Sets the highest step the controller may start (R577). -/
  | stepRun (cmd : HostCmd)
  /-- SERVE_BATCH: Runs a serving batch and writes reply, receipt and ledger record (R492). -/
  | serveBatch (cmd : HostCmd)
  /-- LEDGER_READ: Copies ledger entries to the host (R577). -/
  | ledgerRead (cmd : HostCmd)
  /-- TABLE_REPLACE: Installs a new table version at a boundary (R375). -/
  | tableReplace (cmd : HostCmd)
  /-- HOT_REFRESH: Refreshes the hot-row set at a boundary (R368). -/
  | hotRefresh (cmd : HostCmd)
  /-- CKPT_BUFFERS: Supplies host buffers for checkpoint or co-fed snapshot parts (R581). -/
  | ckptBuffers (cmd : HostCmd)
  /-- CKPT_RESTORE: Restores a checkpoint and validates it by chain check and replay (R516). -/
  | ckptRestore (cmd : HostCmd)
  /-- DRAIN: Operator request for a drain (R503). -/
  | drain (cmd : HostCmd)
  /-- REDISTRIBUTE: Moves lost devices' slots to survivors and absorbs their state (R514). -/
  | redistribute (cmd : HostCmd)
  /-- QUOTE: Returns a signed quote of a partition (R546). -/
  | quote (cmd : HostCmd)
  /-- KEM_READ: Returns the partition's ML-KEM encapsulation key (R547). -/
  | kemRead (cmd : HostCmd)
  /-- KEM_REFRESH: Generates a new ML-KEM key pair (R547). -/
  | kemRefresh (cmd : HostCmd)
  /-- KEY_OPEN: Decapsulates a ciphertext and derives the transport key (R548). -/
  | keyOpen (cmd : HostCmd)
  /-- KEY_INSTALL: Installs a fabric, checkpoint or IDE key from a key blob (R549). -/
  | keyInstall (cmd : HostCmd)
  /-- KEY_ROTATE: Rotates the memory key and starts the sweep (R528). -/
  | keyRotate (cmd : HostCmd)
  /-- IDENT_READ: Returns the top public key and its certificate (R542). -/
  | identRead (cmd : HostCmd)
  /-- SVN_COMMIT: Raises the OTP security version to the running image's SVN (R535). -/
  | svnCommit (cmd : HostCmd)
  /-- OTP_PROGRAM: Burns and marks a new OTP generation (R537). -/
  | otpProgram (cmd : HostCmd)
  /-- DEBUG_ATTACH: Accepts a debug token and records it in every partition's chain (R554). -/
  | debugAttach (cmd : HostCmd)
  /-- DEBUG_DETACH: Detaches a debug token and records it (R554). -/
  | debugDetach (cmd : HostCmd)
  /-- IDE_KM_PF0: Applies an operator-signed IDE_KM object for PF0 (R551). -/
  | ideKmPf0 (cmd : HostCmd)
  /-- ERR_RING: Sets up the host mirror of the error log (R590). -/
  | errRing (cmd : HostCmd)
  /-- DUMP_READ: Copies the newest complete fatal dump to the host (R599). -/
  | dumpRead (cmd : HostCmd)
  /-- SELF_TEST: Runs the self-tests of a mask (R601). -/
  | selfTest (cmd : HostCmd)
  /-- ECHO: Returns its parameter at once (R577). -/
  | echo (cmd : HostCmd)
  /-- OP_POINT: Selects the operating point and target clock (R632). -/
  | opPoint (cmd : HostCmd)
  /-- IDLE_CFG: Writes the Stand and Moor timers (R632). -/
  | idleCfg (cmd : HostCmd)
  /-- MOOR_ENABLE: Enables or disables Moor (R632). -/
  | moorEnable (cmd : HostCmd)
  /-- POWER_OFF: Fences every partition and enters Off (R632). -/
  | powerOff (cmd : HostCmd)
  /-- COMMAND_DOORBELL: A write of the command doorbell posts new commands or stops the ring on a bad tail (R566). -/
  | commandDoorbell (q : Requester) (ring : Fin 64) (value : BitVec 16)
  /-- COMPLETION_DOORBELL: A write of the completion doorbell returns completion entries (R567). -/
  | completionDoorbell (q : Requester) (ring : Fin 64) (value : BitVec 16)
  /-- COMMAND_FETCH: The hub reserves a completion entry and fetches a command in fetch order (R569). -/
  | commandFetch (fn : Fin 9) (ring : RingFetch)
  /-- COAL_TIMER_EXPIRE: A ring's vector fires when enough replies are pending or the oldest has waited COAL_US (R572). -/
  | coalTimerExpire (fn : Fin 9) (ring : Fin 64)
  /-- RING_ENABLE: Setting HUB_RING_CTRL.EN resets the ring pair's heads, tails and phase (R565). -/
  | ringEnable (q : Requester) (ring : Fin 64) (ctrl : Word)
  /-- RING_DISABLE: Clearing EN stops fetching; started commands complete (R565). -/
  | ringDisable (q : Requester) (ring : Fin 64)
  /-- FUNCTION_LEVEL_RESET: An FLR disables the function's rings and resets its MSI-X, IDE and aperture (R564). -/
  | functionLevelReset (fn : Fin 9)
  /-- APERTURE_READ: A BAR2 read is translated and returned from partition memory (R560). -/
  | apertureRead (q : Requester) (offset : BitVec 28) (len : Nat)
  /-- APERTURE_WRITE: A BAR2 write is applied in whole bursts or discarded and logged (R560). -/
  | apertureWrite (q : Requester) (offset : BitVec 28) (data : List Byte)
  /-- BOOT_WINDOW_WRITE: A write into the boot window is accepted or counted as discarded (R561). -/
  | bootWindowWrite (offset : Nat) (data : List Byte)
  /-- BOOT_GO: Writing SEC_BOOT_CTRL.GO verifies the firmware image and releases the hub cores (R533). -/
  | bootGo (value : Word)
  /-- FIRMWARE_READY: The firmware finishes initialising and sets HUB_FW_STATUS.READY (R562). -/
  | firmwareReady
  /-- WORKING_TREE_BUILD: At boot or exhaustion the security controller builds and certifies a new working tree (R544). -/
  | workingTreeBuild
  /-- LEDGER_DRAINED_ACK: Writing STEP_LEDGER_ACK.DRAINED frees ledger space (R489). -/
  | ledgerDrainedAck (q : Requester) (p : Fin 8) (value : Word)
  /-- MIRROR_HEAD_WRITE: Writing ERR_MIRROR_HEAD frees mirror entries so copying resumes (R590). -/
  | mirrorHeadWrite (value : BitVec 16)
  /-- MIRROR_COPY: A final log entry is copied to the host mirror and the tail advanced (R590). -/
  | mirrorCopy
  /-- REPORT_LOG: The log logic merges or records one report from the intake queue (R587). -/
  | reportLog
  /-- LOG_WINDOW_CLOSE: A log entry's window closes 1,000 us after its TIME and the entry becomes final (R587). -/
  | logWindowClose (index : Nat)
  /-- CLEAR_LOST: Writing ERR_CTRL.CLEAR_LOST zeroes ERR_LOST (R600). -/
  | clearLost
  /-- CNT_FREEZE: Writing 1 to CNT_FREEZE stops every counter (R600). -/
  | cntFreeze
  /-- CNT_UNFREEZE: Writing 0 to CNT_FREEZE restarts every counter (R600). -/
  | cntUnfreeze
  /-- CNT_CLEAR: Writing CNT_CLEAR zeroes every counter (R600). -/
  | cntClear
  /-- FATAL_LATCH_CLEAR: Writing 1 to ERR_FATAL VALID clears a fatal latch and MULTI (R591). -/
  | fatalLatchClear (i : Fin 16)
  /-- THERMAL_WARN: A junction above 95 degrees C files a notice (R585). -/
  | thermalWarn (die : Nat) (tj : Nat)
  /-- THERMAL_TRIP: A junction at 105 degrees C triggers the fail-safe state (R594). -/
  | thermalTrip (die : Nat) (tj : Nat)
  /-- RAIL_FAULT: A main rail out of regulation for 5 us is a fatal report (R664). -/
  | railFault (rail : Fin 7) (permille : Nat)
  /-- UNDERVOLTAGE_WARNING: A rail below 96 percent for 1 us counts one warning (R664). -/
  | undervoltageWarning (rail : Fin 7) (permille : Nat)
  /-- REFCLK_LOSS: No reference edge for 1 us is a fatal report (R585). -/
  | refclkLoss
  /-- HUB_WATCHDOG: Hub firmware silent for 250 ms is a fatal report (R585). -/
  | hubWatchdog
  /-- HUB_FW_FAULT: The hub firmware declares itself faulty (R585). -/
  | hubFwFault (code : Word)
  /-- SEC_FAULT: The security controller's self-check fails (R585). -/
  | secFault (code : Word)
  /-- LINK_UE: An uncorrectable die-to-die transfer is a fatal report (R585). -/
  | linkUe (link : Nat)
  /-- SRAM_UE: An uncorrectable SRAM error is contained by the class its location gives (R585). -/
  | sramUe (loc : SramLoc)
  /-- DUMP_WATCHDOG: The dump watchdog stops the dump at 100 ms and marks it truncated (R596). -/
  | dumpWatchdog
  /-- THROTTLE_EVAL: Every 1 ms the cluster clock is lowered, raised or kept by temperature and power (R608). -/
  | throttleEval (tj : Nat) (watts : Nat)
  /-- CLOCK_CHANGE: Every cluster island stops, relocks and restarts at a new frequency once no MXM is in array time (R605). -/
  | clockChange
  /-- ISLAND_GATE: An island idle for 10 us gates its clock (R611). -/
  | islandGate (island : Fin 58)
  /-- ISLAND_UNGATE: An arrival at a boundary FIFO restarts a gated island's clock (R611). -/
  | islandUngate (island : Fin 58)
  /-- STAND_ENTRY: When the Stand idle count expires the device enters Stand (R613). -/
  | standEntry
  /-- STAND_EXIT: A wake event brings the device out of Stand (R613). -/
  | standExit
  /-- MOOR_ENTRY: When the Moor timer expires the device enters Moor (R616). -/
  | moorEntry
  /-- MOOR_EXIT: A wake event resets everything but AON out of Moor (R617). -/
  | moorExit
  /-- PCIE_INBAND_WAKE: A PCIe request needing a gated block wakes the device from Stand (R618). -/
  | pcieInbandWake
  /-- SMBUS_ADDRESS_MATCH: A match of the SMBus address wakes the device from Moor (R618). -/
  | smbusAddressMatch (x : SmbMatch)
  /-- WAKE_TIMER_EXPIRE: PM_WAKE_TIMER expiry wakes the device from Stand (R618). -/
  | wakeTimerExpire
  /-- PERST_N: PERST_N assertion resets the device at once, even during an entry (R620). -/
  | perstN (asserted : Bool)
  /-- RESET_RELEASE: The hub leaves reset, the boot ROM starts and link training begins (R629). -/
  | resetRelease
  /-- AON_POWER_ON: VDD_AON power-on resets AON, latches straps and asserts PWR_REQ (R629). -/
  | aonPowerOn (supply : AonSupply)
  /-- BROWNOUT_AON: An AON overload in low-power mode resets the device (R625). -/
  | brownoutAon
  /-- MAIN_LOSS: PWR_GOOD deassertion holds the device in reset (R631). -/
  | mainLoss
  /-- PAD_RELEASE: Writing PM_PAD_RELEASE.GO releases the pads held across Moor (R622). -/
  | padRelease
  /-- AUX0_EDGE: A rising edge on AUX0 records its TIME in PM_PPS (R637). -/
  | aux0Edge
  /-- SMB_ARM: SMBus ARM enables the next action transaction (R668). -/
  | smbArm (x : SmbWrite)
  /-- SMB_FENCE: SMBus FENCE drives the device into the fail-safe state (R669). -/
  | smbFence (x : SmbWrite)
  /-- SMB_POWER_OFF: SMBus POWER_OFF fences, then deasserts PWR_REQ and enters Off (R669). -/
  | smbPowerOff (x : SmbWrite)
  /-- SMB_POWER_UP: SMBus POWER_UP asserts PWR_REQ and starts up from Off (R669). -/
  | smbPowerUp (x : SmbWrite)
  /-- SMB_FAILSAFE: SMBus read of ERR_FAILSAFE (R667). -/
  | smbFailsafe (x : SmbRead)
  /-- SMB_FATAL: SMBus read of the fatal latch VALID bits (R667). -/
  | smbFatal (x : SmbRead)
  /-- SMB_TJ: SMBus read of the hottest junction temperature (R667). -/
  | smbTj (x : SmbRead)
  /-- SMB_CAUSE: SMBus read of HUB_RESET_CAUSE (R667). -/
  | smbCause (x : SmbRead)
  /-- SMB_WAKE: SMBus read of HUB_LAST_WAKE (R667). -/
  | smbWake (x : SmbRead)
  /-- SMB_STATE: SMBus read of power state, PWR_GOOD and PWR_REQ (R667). -/
  | smbState (x : SmbRead)
  /-- SMB_ID: SMBus read of HUB_ID (R667). -/
  | smbId (x : SmbRead)
  /-- REGISTER_WRITE: A write to a register without a row of its own acts by its access code, held to a boundary where R643 says (R640). -/
  | registerWrite (q : Requester) (place : WriteTo) (value : Word)
  /-- BERTH_RETURN: A stack read reply lands or a stack write is accepted, returning its berth, waking a bank-wait thread and satisfying release, fence and write-stream credit waits (R293). -/
  | berthReturn (c : Fin 800) (id : Nat)
  /-- MXM_FINISH: An MXM without CLOSE writes its last promotion at offset 544 and is finished (R173). -/
  | mxmFinish (c : Fin 800)
  /-- PLANE_FREE: A plane becomes free once the last stream row of the last MXM reading it has entered the array, or its OS totals have drained or been dropped, and a waiting MLDP begins to load (R148). -/
  | planeFree (c : Fin 800) (plane : Fin 2)
  /-- FRAME_CRC_ERROR: A receiver that finds an FEC failure or CRC error discards the frame and every later frame and sends NAK with the last accepted sequence number (R393). -/
  | frameCrcError (lam : Fin 256) (frame : FecFrame)
  /-- MIGRATION_RECORD: A BULK frame carrying migrated row records, a migration delta or a hot-row refresh copy arrives over class 3 and is written into arrival rows or the hot region (R372). -/
  | migrationRecord (lam : Fin 256) (frame : List Byte)
  /-- PWR_GOOD_ASSERT: The board asserts PWR_GOOD once the main rails are in tolerance; the hub PLL locks and REFCLK monitoring begins, leading toward reset release (R629). -/
  | pwrGoodAssert
  /-- DEBUG_FENCE: A debug FENCE under a valid token with the FENCE capability fences the partition with cause DEBUG (R553). -/
  | debugFence (act : DebugAct)
deriving DecidableEq, Repr

end Sys2Proof
end

