-- ==== Sys2Proof/Config.lean ====
section
/-! DEFINITION. What one device fixes and the model does not know: the free values.  None has a body, so a statement
about one holds whatever it is. -/

namespace Sys2Proof.Config

/-- The n-th value that the spec leaves free: a random draw of the security controller, a value it does not state
(assumption 2).  Cut to the width its place has. -/
opaque freeValue : Nat → Nat

/-- The tensor ID and the element index of a result of the matrix array, which an MXM does not name (02 R69, 04 R145;
assumption 23): by TASK_ID and pc of the closing MXM, and for the index by row and column of the array's output. -/
opaque arrayTensor : Nat → Nat → Nat
opaque arrayElement : Nat → Nat → Nat → Nat → Nat

/-- The limit with which a channel of a unit that is no core is opened, by 2^13 node + 2^8 unit + channel (01 R37; assumption
48). -/
opaque unitLimit : Nat → Nat

/-- Bytes of stash that a micro-batch of a slot takes, by partition and slot (14 R469, assumption 111). -/
opaque stashBytes : Nat → Nat → Nat

/-- Bytes of the basins of a section's pound (12 R416), by the bucket list of the job and the slots whose stages run there; the spec
names the region and gives it no size (assumption 26). -/
opaque basinBytes : List (Nat × Nat) → List Nat → Nat

/-- The virtual address that a journal entry of a base engine gives a record of a partition, by its key (13 R462; assumption 62). -/
opaque recordVa : Nat → Nat → Nat

/-- The virtual address of the weight replica of a tensor in a section of a partition (12 R421; assumption 24): partition,
section, tensor ID. -/
opaque replicaVa : Nat → Nat → Nat → Nat

/-- The virtual address of the loss cell, an FP32, that the plan names for a slot and micro-batch of a partition (14 R470), and of
the gradient of that loss, which the step controller scales (02 R89): partition, slot, m.  No item of the manifest holds either
(assumption 30). -/
opaque lossCell : Nat → Nat → Nat → Nat
opaque lossGradient : Nat → Nat → Nat → Nat

/-- The HSS public key of 60 bytes that comes with a request signed by the vendor or the operator: message, signature (16 R536, R538, R551,
R552).  The OTP holds only its SHA-256, and the spec does not state how the key itself comes. -/
opaque authKey : List Byte → List Byte → List Byte

/-- The 32-byte randomizer of a signature: identifier and seed of the tree, leaf (RFC 8554, 4.5), which the spec leaves to the device. -/
opaque randomizer : List Byte → List Byte → Nat → List Byte

/-- An OTP programming request (16 R538), whose layout the spec does not state: item (0 root hash, 1 operator key hash,
2 settings, modulo 3), value, signed message, signature. -/
opaque otpRequest : List Byte → Nat × List Byte × List Byte × List Byte

/-- A signed IDE_KM object for PF0 (16 R551): the object and its signature. -/
opaque ideRequest : List Byte → List Byte × List Byte

/-- Label and context of the derivation of the top tree's identifier and seed from DEVICE_SECRET (16 R542), which the
spec does not state. -/
opaque identLabel : List Byte × List Byte

/-- Label and context of the derivation of the dump area's key (18 R595), which the spec does not state. -/
opaque dumpLabel : List Byte × List Byte

/-- The IV under which a checkpoint part with a given header is sealed (15 R500), 12 bytes, which the spec does not
state. -/
opaque partIv : List Byte → List Byte

/-- Whether some survivor that a new slot map gives a slot lacks memory for it (15 R513): a survivor sees only its own. -/
opaque noRoom : List Nat → Bool

/-- Whether a lost device lacks a complete snapshot of a step (15 R512), as far as a device cannot see that holds no part of it: the spec gives
no message that tells it (assumption 165): step, device. -/
opaque snapMissing : Nat → Nat → Bool

/-- The certificate of the top public key, which the vendor makes (16 R542; assumption 10). -/
opaque vendorCert : List Byte → List Byte

end Sys2Proof.Config
end

