-- ==== Sys2Proof/Machine/Bits.lean ====
section
/-! DEFINITION. Bit fields of numbers, sign extension, byte order, and the sparse tables in which State holds
every array of registers and every memory (one canonical form: keys rising, no entry at the default value). -/

namespace Sys2Proof.Machine

/-- Bits `lo + len - 1` down to `lo` of `n`. -/
def bits (n lo len : Nat) : Nat := (n >>> lo) % 2 ^ len

/-- Bit `i` of `n`. -/
def bit (n i : Nat) : Bool := n.testBit i

/-- `n` with the field of `len` bits at `lo` replaced by `v`. -/
def setBits (n lo len v : Nat) : Nat :=
  n - bits n lo len * 2 ^ lo + v % 2 ^ len * 2 ^ lo

/-- The value of the low `w` bits of `n` read in two's complement. -/
def signed (w n : Nat) : Int :=
  let m := n % 2 ^ w
  if m < 2 ^ (w - 1) then Int.ofNat m else Int.ofNat m - Int.ofNat (2 ^ w)

/-- An integer reduced to `w` bits of two's complement. -/
def wrapInt (w : Nat) (i : Int) : Nat := (i % Int.ofNat (2 ^ w)).toNat

/-- The number of bits `n` needs: 0 for 0 (so `bitLen n - 1` is floor log2). -/
def bitLen (n : Nat) : Nat := if n = 0 then 0 else Nat.log2 n + 1

/-- 1 for true, 0 for false: a flag as a bit of a field. -/
def b2n (b : Bool) : Nat := if b then 1 else 0

/-- `n` rounded up to a multiple of `k`. -/
def roundUp (n k : Nat) : Nat := (n + k - 1) / k * k

/-- ⌈log2 n⌉. -/
def clog2 (n : Nat) : Nat := if n ≤ 1 then 0 else Nat.log2 (n - 1) + 1

/-- A little-endian number from its bytes, the first the least significant (R8). -/
def leNat : List Byte → Nat
  | [] => 0
  | b :: r => b.toNat + 256 * leNat r

/-- The `n` bytes of a number, little-endian (R8). -/
def leBytes : Nat → Nat → List Byte
  | 0, _ => []
  | n + 1, v => BitVec.ofNat 8 v :: leBytes n (v / 256)

/-- The number whose digits in base `2 ^ w` are the given values, the first the lowest. -/
def packElems (w : Nat) : List Nat → Nat
  | [] => 0
  | x :: r => x % 2 ^ w + 2 ^ w * packElems w r

/-! ### Sparse tables -/

/-- A sparse table from numbers to values: an entry that is not listed holds the table's default. -/
abbrev Tab (α : Type) := List (Nat × α)

/-- The value at `k`, `d` where nothing is listed. -/
def Tab.get {α : Type} (t : Tab α) (d : α) (k : Nat) : α :=
  match t with
  | [] => d
  | e :: r => if e.1 = k then e.2 else Tab.get r d k

/-- The table without its entries at `k`. -/
def Tab.del {α : Type} (t : Tab α) (k : Nat) : Tab α :=
  match t with
  | [] => []
  | e :: r => if e.1 = k then Tab.del r k else e :: Tab.del r k

/-- An entry put before the first entry of a higher key. -/
def Tab.ins {α : Type} (t : Tab α) (k : Nat) (v : α) : Tab α :=
  match t with
  | [] => [(k, v)]
  | e :: r => if k < e.1 then (k, v) :: e :: r else e :: Tab.ins r k v

/-- The table with the value `v` at `k`; the default value is never listed. -/
def Tab.put {α : Type} [DecidableEq α] (t : Tab α) (d : α) (k : Nat) (v : α) : Tab α :=
  if v = d then t.del k else (t.del k).ins k v

/-- The canonical form: keys strictly rising, no entry at the default. -/
def Tab.wf {α : Type} [DecidableEq α] (t : Tab α) (d : α) : Bool :=
  match t with
  | [] => true
  | [e] => decide (e.2 ≠ d)
  | e :: f :: r => decide (e.2 ≠ d) && decide (e.1 < f.1) && Tab.wf (f :: r) d

/-- The entries of the table at the keys that `p` holds for removed. -/
def Tab.drop {α : Type} (t : Tab α) (p : Nat → Bool) : Tab α :=
  t.filter (fun e => !p e.1)

/-! ### Memory -/

/-- A memory: bytes by address. What an unlisted address reads as is the byte 0 (assumption 4). -/
abbrev Mem := Tab Byte

/-- What a byte of memory that nothing has written reads as (assumption 4; 16 R520 for stack memory that a
partition owns). -/
def memDefault : Byte := 0

/-- The canonical form of memory. -/
def Mem.wf (m : Mem) : Bool := Tab.wf m memDefault

/-- One byte read. -/
def Mem.rd (m : Mem) (a : Nat) : Byte := Tab.get m memDefault a

/-- One byte written. -/
def Mem.wr (m : Mem) (a : Nat) (b : Byte) : Mem := Tab.put m memDefault a b

/-- `n` bytes read from `a` upward. -/
def Mem.rdBytes (m : Mem) (a : Nat) : Nat → List Byte
  | 0 => []
  | n + 1 => m.rd a :: Mem.rdBytes m (a + 1) n

/-- Bytes written from `a` upward. -/
def Mem.wrBytes (m : Mem) (a : Nat) : List Byte → Mem
  | [] => m
  | b :: r => Mem.wrBytes (m.wr a b) (a + 1) r

/-- A little-endian number of `n` bytes read at `a` (R8). -/
def Mem.rdLE (m : Mem) (a n : Nat) : Nat := leNat (m.rdBytes a n)

/-- A little-endian number of `n` bytes written at `a` (R8). -/
def Mem.wrLE (m : Mem) (a n v : Nat) : Mem := m.wrBytes a (leBytes n v)

/-- `n` bytes from `a` upward set to the value that unlisted bytes read as. -/
def Mem.clear (m : Mem) (a n : Nat) : Mem :=
  Tab.drop m (fun k => decide (a ≤ k) && decide (k < a + n))

/-- A list with its `i`-th element replaced. -/
def setNth {α : Type} : List α → Nat → α → List α
  | [], _, _ => []
  | _ :: r, 0, v => v :: r
  | x :: r, n + 1, v => x :: setNth r n v

/-- The list without the first element that `p` holds for. -/
def dropFirst {α : Type} (p : α → Bool) : List α → List α
  | [] => []
  | x :: r => if p x then r else x :: dropFirst p r

/-- A number in `w` bits that stops at its largest value. -/
def satAdd (w a b : Nat) : Nat := min (a + b) (2 ^ w - 1)

/-- The bytes of pieces by offset, from an offset to `n`: none where some have not come. -/
def joinPieces (l : List (Nat × List Byte)) (n : Nat) : Nat → Nat → Option (List Byte)
  | 0, _ => none
  | fuel + 1, at_ =>
    if at_ = n then some []
    else
      match l.find? (fun e => e.1 == at_ && !e.2.isEmpty) with
      | none => none
      | some e => (joinPieces l n fuel (at_ + e.2.length)).map (e.2 ++ ·)

end Sys2Proof.Machine
end

