-- ==== Sys2Proof/Machine/Crypto.lean ====
section
/-! DEFINITION. The standards that the spec cites and this model computes: AES (FIPS 197), SHA-256 (FIPS 180-4),
AES-256-GCM (NIST SP 800-38D), XTS-AES-256 (IEEE 1619), HMAC and HKDF with SHA-256 (RFC 2104, RFC 5869), and the keyed generator of
07 R245 to R247.  Bytes are numbers below 256 here. -/

namespace Sys2Proof.Machine

/-! ### AES -/

/-- Multiplication by x in AES's field. -/
def aesX (a : Nat) : Nat := if a < 128 then 2 * a else (2 * a - 256) ^^^ 0x1B

/-- Multiplication in AES's field, over the bits of `b` from the lowest. -/
def aesMul : Nat → Nat → Nat → Nat
  | 0, _, _ => 0
  | n + 1, a, b => (if b % 2 = 1 then a else 0) ^^^ aesMul n (aesX a) (b / 2)

def aesM (a b : Nat) : Nat := aesMul 8 a b

/-- The inverse, a^254; 0 for 0. -/
def aesInv (a : Nat) : Nat :=
  let a2 := aesM a a; let a4 := aesM a2 a2; let a8 := aesM a4 a4; let a16 := aesM a8 a8
  let a32 := aesM a16 a16; let a64 := aesM a32 a32; let a128 := aesM a64 a64
  aesM a2 (aesM a4 (aesM a8 (aesM a16 (aesM a32 (aesM a64 a128)))))

def rotl8 (a k : Nat) : Nat := (a <<< k) % 256 ||| a >>> (8 - k)

/-- The S-box of FIPS 197 5.1.1. -/
def aesSbox (a : Nat) : Nat :=
  let b := aesInv a
  b ^^^ rotl8 b 1 ^^^ rotl8 b 2 ^^^ rotl8 b 3 ^^^ rotl8 b 4 ^^^ 0x63

def nthD (l : List Nat) (i : Nat) : Nat := l.getD i 0

def xorL (a b : List Nat) : List Nat := List.zipWith (· ^^^ ·) a b

/-- ShiftRows of a column-ordered state of 16 bytes. -/
def aesShift (st : List Nat) : List Nat :=
  (List.range 16).map (fun i => nthD st ((i + 4 * (i % 4)) % 16))

def aesMixCol (a b c d : Nat) : List Nat :=
  [aesX a ^^^ (aesX b ^^^ b) ^^^ c ^^^ d, a ^^^ aesX b ^^^ (aesX c ^^^ c) ^^^ d,
   a ^^^ b ^^^ aesX c ^^^ (aesX d ^^^ d), (aesX a ^^^ a) ^^^ b ^^^ c ^^^ aesX d]

def aesMix : List Nat → List Nat
  | a :: b :: c :: d :: r => aesMixCol a b c d ++ aesMix r
  | r => r

/-- The next words of the key schedule, `n` of them; `w` holds the words so far, the last first. -/
def aesExpand (nk : Nat) : Nat → Nat → Nat → List (List Nat) → List (List Nat)
  | 0, _, _, w => w
  | n + 1, i, rcon, w =>
    let prev := w.headD []
    let t :=
      if i % nk = 0 then
        xorL ((prev.drop 1 ++ prev.take 1).map aesSbox) [rcon, 0, 0, 0]
      else if 6 < nk ∧ i % nk = 4 then prev.map aesSbox
      else prev
    let nw := xorL (w.getD (nk - 1) []) t
    aesExpand nk n (i + 1) (if i % nk = 0 then aesX rcon else rcon) (nw :: w)

def chunk4 : List Nat → List (List Nat)
  | a :: b :: c :: d :: r => [a, b, c, d] :: chunk4 r
  | _ => []

/-- The round keys as bytes, for a key of 16 or 32 bytes. -/
def aesKeys (key : List Nat) : List Nat :=
  let nk := key.length / 4
  let total := 4 * (nk + 7)
  (aesExpand nk (total - nk) nk 1 (chunk4 key).reverse).reverse.flatten

def aesRounds : Nat → List Nat → List Nat → List Nat
  | 0, rk, st => xorL (aesShift (st.map aesSbox)) rk
  | n + 1, rk, st =>
    aesRounds n (rk.drop 16) (xorL (aesMix (aesShift (st.map aesSbox))) (rk.take 16))

/-- One block of 16 bytes encrypted. -/
def aesEnc (key blk : List Nat) : List Nat :=
  let rk := aesKeys key
  aesRounds (key.length / 4 + 5) (rk.drop 16) (xorL blk (rk.take 16))

/-! ### Byte lists -/

def natBytes : Nat → Nat → List Nat
  | 0, _ => []
  | n + 1, v => v % 256 :: natBytes n (v / 256)

def bytesNat : List Nat → Nat
  | [] => 0
  | b :: r => b + 256 * bytesNat r

def natBytesBE (n v : Nat) : List Nat := (natBytes n v).reverse
def bytesNatBE (l : List Nat) : Nat := bytesNat l.reverse

def toNats (l : List Byte) : List Nat := l.map BitVec.toNat
def ofNats (l : List Nat) : List Byte := l.map (BitVec.ofNat 8)

def splitAt16 : Nat → List Nat → List (List Nat)
  | 0, _ => []
  | n + 1, l => l.take 16 :: splitAt16 n (l.drop 16)

/-- A list cut into blocks of 16, the last filled with zeros. -/
def blocks16 (l : List Nat) : List (List Nat) :=
  (splitAt16 ((l.length + 15) / 16) l).map (fun b => b ++ List.replicate (16 - b.length) 0)

/-! ### AES-GCM with a 96-bit IV -/

/-- Multiplication in GHASH's field; the first bit is the highest. -/
def ghMul : Nat → Nat → Nat → Nat → Nat
  | 0, z, _, _ => z
  | n + 1, z, v, x =>
    let z := if x.testBit n then z ^^^ v else z
    let v := if v % 2 = 1 then v / 2 ^^^ 0xE1000000000000000000000000000000 else v / 2
    ghMul n z v x

def ghash (h : Nat) (bs : List (List Nat)) : Nat :=
  bs.foldl (fun y b => ghMul 128 0 h (y ^^^ bytesNatBE b)) 0

/-- The key stream applied from counter block `ctr` (its low 32 bits count). -/
def gcmCtr (key iv : List Nat) : Nat → List (List Nat) → List Nat
  | _, [] => []
  | c, b :: r => xorL b (aesEnc key (iv ++ natBytesBE 4 c)) ++ gcmCtr key iv (c + 1) r

def gcmTag (key iv aad ct : List Nat) : List Nat :=
  let h := bytesNatBE (aesEnc key (List.replicate 16 0))
  let s := ghash h (blocks16 aad ++ blocks16 ct ++ [natBytesBE 8 (8 * aad.length) ++ natBytesBE 8 (8 * ct.length)])
  xorL (natBytesBE 16 s) (aesEnc key (iv ++ [0, 0, 0, 1]))

/-- Ciphertext and tag. -/
def gcmSeal (key iv aad pt : List Nat) : List Nat × List Nat :=
  let ct := (gcmCtr key iv 2 (blocks16 pt)).take pt.length
  (ct, gcmTag key iv aad ct)

/-- The plaintext, where the tag verifies. -/
def gcmOpen (key iv aad ct tag : List Nat) : Option (List Nat) :=
  if gcmTag key iv aad ct = tag then some ((gcmCtr key iv 2 (blocks16 ct)).take ct.length) else none

/-! ### XTS-AES-256 (IEEE 1619) without ciphertext stealing -/

/-- The tweak of the next block: times alpha, little-endian. -/
def xtsNext (t : Nat) : Nat := if t < 2 ^ 127 then 2 * t else (2 * t - 2 ^ 128) ^^^ 0x87

/-- Blocks encrypted under a data key from a tweak on. -/
def xtsBlocks (key : List Nat) : Nat → List (List Nat) → List Nat
  | _, [] => []
  | t, b :: r => xorL (aesEnc key (xorL b (natBytes 16 t))) (natBytes 16 t) ++ xtsBlocks key (xtsNext t) r

/-- A data unit encrypted under a 64-byte key: the key of the data, then that of the tweak. -/
def xtsSeal (key : List Nat) (unit : Nat) (data : List Nat) : List Nat :=
  xtsBlocks (key.take 32) (bytesNat (aesEnc (key.drop 32) (natBytes 16 unit))) (blocks16 data)

/-! ### SHA-256 -/

/-- The primes below 312, of which FIPS 180-4 takes the first 64 (all of them) and the first 8. A composite below 18²
has a divisor below 18. -/
def shaPrimes : List Nat :=
  (List.range 312).filter (fun n => 2 ≤ n && (List.range' 2 16).all (fun d => n = d || n % d != 0))

/-- The largest `r` above `acc`, in steps of the bits below `n`, whose `k`-th power does not pass `x`. -/
def rootFrom (k x : Nat) : Nat → Nat → Nat
  | 0, acc => acc
  | n + 1, acc => rootFrom k x n (if (acc + 2 ^ n) ^ k ≤ x then acc + 2 ^ n else acc)

/-- The first 32 bits of the fraction of the `k`-th root of a prime below 2^9 (FIPS 180-4 4.2.2, 5.3.3). -/
def rootFraction (k p : Nat) : Nat := rootFrom k (p * 2 ^ (32 * k)) 37 0 % 2 ^ 32

/-- The round constants: cube roots of the first 64 primes. -/
def shaK : List Nat := shaPrimes.map (rootFraction 3)

/-- The initial hash: square roots of the first 8 primes. -/
def shaH0 : List Nat := (shaPrimes.take 8).map (rootFraction 2)

def rotr32 (a k : Nat) : Nat := a >>> k ||| (a <<< (32 - k)) % 4294967296

/-- The message schedule, the last word first. -/
def shaSched : Nat → List Nat → List Nat
  | 0, w => w
  | n + 1, w =>
    let a := nthD w 14
    let b := nthD w 1
    let s0 := rotr32 a 7 ^^^ rotr32 a 18 ^^^ a >>> 3
    let s1 := rotr32 b 17 ^^^ rotr32 b 19 ^^^ b >>> 10
    shaSched n ((nthD w 15 + s0 + nthD w 6 + s1) % 4294967296 :: w)

def shaRound (v : List Nat) (kw : Nat) : List Nat :=
  match v with
  | [a, b, c, d, e, f, g, h] =>
    let s1 := rotr32 e 6 ^^^ rotr32 e 11 ^^^ rotr32 e 25
    let ch := (e &&& f) ^^^ ((4294967295 - e) &&& g)
    let t1 := h + s1 + ch + kw
    let s0 := rotr32 a 2 ^^^ rotr32 a 13 ^^^ rotr32 a 22
    let mj := (a &&& b) ^^^ (a &&& c) ^^^ (b &&& c)
    [(t1 + s0 + mj) % 4294967296, a, b, c, (d + t1) % 4294967296, e, f, g]
  | v => v

def shaWords : Nat → List Nat → List Nat
  | 0, _ => []
  | n + 1, l => bytesNatBE (l.take 4) :: shaWords n (l.drop 4)

def shaBlock (h blk : List Nat) : List Nat :=
  let w := (shaSched 48 (shaWords 16 blk).reverse).reverse
  let v := (List.zipWith (· + ·) shaK w).foldl shaRound h
  List.zipWith (fun a b => (a + b) % 4294967296) h v

def shaBlocks : Nat → List Nat → List Nat → List Nat
  | 0, h, _ => h
  | n + 1, h, l => shaBlocks n (shaBlock h (l.take 64)) (l.drop 64)

/-- SHA-256 of a byte string, as 32 bytes. -/
def sha256 (m : List Nat) : List Nat :=
  let pad := (119 - m.length % 64) % 64
  let l := m ++ [0x80] ++ List.replicate pad 0 ++ natBytesBE 8 (8 * m.length)
  (shaBlocks (l.length / 64) shaH0 l).flatMap (natBytesBE 4)

/-- HMAC with SHA-256. -/
def hmac256 (key m : List Nat) : List Nat :=
  let k := if 64 < key.length then sha256 key else key
  let k := k ++ List.replicate (64 - k.length) 0
  sha256 (k.map (· ^^^ 0x5C) ++ sha256 (k.map (· ^^^ 0x36) ++ m))

def hkdfBlocks (prk info : List Nat) : Nat → Nat → List Nat → List Nat
  | 0, _, _ => []
  | n + 1, i, t =>
    let t := hmac256 prk (t ++ info ++ [i])
    t ++ hkdfBlocks prk info n (i + 1) t

/-- HKDF with SHA-256: `n` bytes. -/
def hkdf256 (salt ikm info : List Nat) (n : Nat) : List Nat :=
  (hkdfBlocks (hmac256 salt ikm) info ((n + 31) / 32) 1 []).take n

/-- The counter-mode KDF of NIST SP 800-108 with HMAC-SHA-256 (32-bit counter first, length in bits last). -/
def kdfBlocks (key fixed : List Nat) : Nat → Nat → List Nat
  | 0, _ => []
  | n + 1, i => hmac256 key (natBytesBE 4 i ++ fixed) ++ kdfBlocks key fixed n (i + 1)

def kdf108 (key label context : List Nat) (n : Nat) : List Nat :=
  (kdfBlocks key (label ++ [0] ++ context ++ natBytesBE 4 (8 * n)) ((n + 31) / 32) 1).take n

/-- SHA-256 of bytes of memory. -/
def shaBytes (m : List Byte) : List Byte := ofNats (sha256 (toNats m))

/-- The Merkle root of digests in order, each node SHA-256(left ‖ right); the length is a power of two (14 R485). -/
def merkle : Nat → List (List Nat) → List Nat
  | 0, l => l.headD []
  | n + 1, l => sha256 (merkle n (l.take (2 ^ n)) ++ merkle n (l.drop (2 ^ n)))

/-! ### The keyed generator (07 R245 to R247) -/

/-- The draw of a counter block under the key of a job seed and a step number (R245). -/
def keyedDraw (seed step ctr : Nat) : Nat :=
  bytesNat (aesEnc (natBytes 16 (seed % 2 ^ 64 * 2 ^ 64 + step % 2 ^ 64)) (natBytes 16 ctr))

/-- The counter block of a sampling draw (R246). -/
def samplingCtr (vslot hop node idx : Nat) : Nat :=
  1 * 2 ^ 124 + vslot % 2 ^ 16 * 2 ^ 108 + hop % 256 * 2 ^ 100 + node % 2 ^ 48 * 2 ^ 48 + idx % 2 ^ 32

/-- The counter block of a rounding draw (R246, R69). -/
def roundingCtr (vslot tensor elem : Nat) : Nat :=
  2 * 2 ^ 124 + vslot % 2 ^ 16 * 2 ^ 108 + tensor % 2 ^ 32 * 2 ^ 64 + elem % 2 ^ 64

/-- The counter block of an audit draw (R246, R231). -/
def auditCtr (vslot tensor elem : Nat) : Nat :=
  3 * 2 ^ 124 + vslot % 2 ^ 16 * 2 ^ 108 + tensor % 2 ^ 32 * 2 ^ 64 + elem % 2 ^ 64

/-- An integer uniform on [0, m) from a draw (R247). -/
def drawU (x m : Nat) : Nat := bits x 0 64 * m / 2 ^ 64

end Sys2Proof.Machine
end

