-- ==== Sys2Proof/Machine/RegMap.lean ====
section
/-! DEFINITION. The register map (20_register_map R644 to R654, and the register tables of the chapters): one
definition for each field, and the table by which a BAR0 address finds its register.  A field is held under the
PF0 BAR0 address of its register and its lowest bit; the ring registers of PF1 to PF8 (R559) are held above 2^28. -/

namespace Sys2Proof.Machine

/-- How a field answers software (00 and 20 R640). -/
inductive Acc where
  | rw | ro | w1c | wo | rws | rwl | roq
deriving DecidableEq, Repr

/-- A register field: where it is held, its width, its reset value. -/
structure Fld where
  key : Nat
  len : Nat
  rst : Nat
deriving DecidableEq, Repr

/-- The field of `len` bits at bit `lo` of the register at address `a`. -/
def Fld.at (a lo len rst : Nat) : Fld := ⟨(a + lo / 64 * 8) * 64 + lo % 64, len, rst⟩

def MC_ZR_TREGS_ZR (c k : Nat) : Fld := Fld.at (0x8010900 + c * 0x100000 + k * 0x4000) (0) 32 0x0
def MC_MASK_LAYER_LAYER (c k m : Nat) : Fld := Fld.at (0x8010908 + c * 0x100000 + k * 0x4000) (8*m-8) 6 0x0
def MC_MASK_LAYER_BOUND (c k m : Nat) : Fld := Fld.at (0x8010908 + c * 0x100000 + k * 0x4000) (8*m-1) 1 0x0
def STEP_PRED_CFG_THRESH (p l : Nat) : Fld := Fld.at (0xB000400 + p * 0x100000 + l * 0x8) (0) 32 0x0
def STEP_PRED_CFG_MISS_LIMIT (p l : Nat) : Fld := Fld.at (0xB000400 + p * 0x100000 + l * 0x8) (32) 16 0x148
def STEP_PRED_CFG_AUDIT_LOG2 (p l : Nat) : Fld := Fld.at (0xB000400 + p * 0x100000 + l * 0x8) (48) 4 0x6
def STEP_PRED_CFG_DENSE (p l : Nat) : Fld := Fld.at (0xB000400 + p * 0x100000 + l * 0x8) (52) 1 0x0
def STEP_PRED_MISS_PRED_MISS (p l : Nat) : Fld := Fld.at (0xB000600 + p * 0x100000 + l * 0x8) (0) 32 0x0
def STEP_PRED_MISS_PRED_AUD (p l : Nat) : Fld := Fld.at (0xB000600 + p * 0x100000 + l * 0x8) (32) 32 0x0
def CL_GRAPH_DIR_VALID (c g : Nat) : Fld := Fld.at (0x8000000 + c * 0x100000 + g * 0x8) (0) 1 0x0
def CL_GRAPH_DIR_DIR (c g : Nat) : Fld := Fld.at (0x8000000 + c * 0x100000 + g * 0x8) (3) 45 0x0
def CL_GRAPH_DIR_RESTART (c g : Nat) : Fld := Fld.at (0x8000000 + c * 0x100000 + g * 0x8) (48) 16 0x0
def CL_JOB_SEED_SEED (c : Nat) : Fld := Fld.at (0x8000080 + c * 0x100000) (0) 64 0x0
def ARB_SLOT_OWNER (i j : Nat) : Fld := Fld.at (0x6000000 + i * 0x100) (8*j) 4 0x0
def ARB_SLOT_VALID (i j : Nat) : Fld := Fld.at (0x6000000 + i * 0x100) (8*j+4) 1 0x0
def ARB_PRIO_PRIO (i r : Nat) : Fld := Fld.at (0x6000040 + i * 0x100) (4*r) 4 0x0
def ARB_PRIO_SH_PRIO_SH (i r : Nat) : Fld := Fld.at (0x6000048 + i * 0x100) (4*r) 4 0x0
def ARB_COMMIT_GO (i : Nat) : Fld := Fld.at (0x6000050 + i * 0x100) (0) 1 0x0
def ARB_HOLD_MAX_ROUNDS (i : Nat) : Fld := Fld.at (0x6000050 + i * 0x100) (32) 8 0x10
def ARB_PENALTY_ROUNDS (i : Nat) : Fld := Fld.at (0x6000058 + i * 0x100) (0) 16 0x100
def ARB_OVERHOLD_REQ (i : Nat) : Fld := Fld.at (0x6000058 + i * 0x100) (32) 16 0x0
def ARB_OVERHOLD_COUNT (i : Nat) : Fld := Fld.at (0x6000058 + i * 0x100) (48) 16 0x0
def SB_TABLE_VALID (s t : Nat) : Fld := Fld.at (0x5001000 + s * 0x100000 + t * 0x20) (0) 1 0x0
def SB_TABLE_PART (s t : Nat) : Fld := Fld.at (0x5001000 + s * 0x100000 + t * 0x20) (1) 3 0x0
def SB_TABLE_VEC_TYPE (s t : Nat) : Fld := Fld.at (0x5001000 + s * 0x100000 + t * 0x20) (4) 4 0x0
def SB_TABLE_VEC_ELEMS (s t : Nat) : Fld := Fld.at (0x5001000 + s * 0x100000 + t * 0x20) (8) 13 0x0
def SB_TABLE_REC_UNITS (s t : Nat) : Fld := Fld.at (0x5001000 + s * 0x100000 + t * 0x20) (32) 12 0x0
def SB_TABLE_VEC_OFF (s t : Nat) : Fld := Fld.at (0x5001000 + s * 0x100000 + t * 0x20) (44) 12 0x0
def SB_TABLE_BASE (s t : Nat) : Fld := Fld.at (0x5001000 + s * 0x100000 + t * 0x20) (64) 36 0x0
def SB_TABLE_ROWS (s t : Nat) : Fld := Fld.at (0x5001000 + s * 0x100000 + t * 0x20) (128) 32 0x0
def SB_TABLE_VER_OFF (s t : Nat) : Fld := Fld.at (0x5001000 + s * 0x100000 + t * 0x20) (160) 12 0x0
def SB_JOB_SEED_SEED (s k : Nat) : Fld := Fld.at (0x5001800 + s * 0x100000 + k * 0x8) (0) 64 0x0
def STK_CE_COUNT_CE (s q : Nat) : Fld := Fld.at (0x5000000 + s * 0x100000 + q * 0x8) (0) 32 0x0
def STK_UE_ADDR_ADDR (s : Nat) : Fld := Fld.at (0x5000200 + s * 0x100000) (0) 36 0x0
def STK_UE_ADDR_VALID (s : Nat) : Fld := Fld.at (0x5000200 + s * 0x100000) (63) 1 0x0
def STK_SLOW_BANK_STALL (s : Nat) : Fld := Fld.at (0x5000208 + s * 0x100000) (0) 32 0x0
def STK_STAGE_CFG_THRESH (s : Nat) : Fld := Fld.at (0x5000210 + s * 0x100000) (0) 8 0x8
def STK_STAGE_CFG_WINDOW (s : Nat) : Fld := Fld.at (0x5000210 + s * 0x100000) (8) 24 0x10000
def STK_SCRUB_CFG_PERIOD (s : Nat) : Fld := Fld.at (0x5000218 + s * 0x100000) (0) 8 0x18
def TC_BANK_WAIT_PARKS (c k : Nat) : Fld := Fld.at (0x8010818 + c * 0x100000 + k * 0x4000) (0) 32 0x0
def CL_TABLE_VALID (c t : Nat) : Fld := Fld.at (0x8001000 + c * 0x100000 + t * 0x10) (0) 1 0x0
def CL_TABLE_DESC (c t : Nat) : Fld := Fld.at (0x8001000 + c * 0x100000 + t * 0x10) (6) 42 0x0
def CL_TABLE_PVALID (c t : Nat) : Fld := Fld.at (0x8001000 + c * 0x100000 + t * 0x10) (64) 1 0x0
def CL_TABLE_PREV_DESC (c t : Nat) : Fld := Fld.at (0x8001000 + c * 0x100000 + t * 0x10) (70) 42 0x0
def SB_LOAD_EN (s t : Nat) : Fld := Fld.at (0x5002000 + s * 0x100000 + t * 0x8) (0) 1 0x0
def SB_LOAD_SAMPLE_LOG2 (s t : Nat) : Fld := Fld.at (0x5002000 + s * 0x100000 + t * 0x8) (1) 4 0x8
def SB_LOAD_LOAD_BASE (s t : Nat) : Fld := Fld.at (0x5002000 + s * 0x100000 + t * 0x8) (6) 30 0x0
def TBL_INVALID_IDX_COUNT (s t : Nat) : Fld := Fld.at (0x5002200 + s * 0x100000 + t * 0x8) (0) 32 0x0
def TBL_INVALID_POS_POS (s t : Nat) : Fld := Fld.at (0x5002400 + s * 0x100000 + t * 0x8) (0) 14 0x0
def TBL_INVALID_POS_TENSOR_ID (s t : Nat) : Fld := Fld.at (0x5002400 + s * 0x100000 + t * 0x8) (16) 32 0x0
def TBL_INVALID_POS_FIRST_VALID (s t : Nat) : Fld := Fld.at (0x5002400 + s * 0x100000 + t * 0x8) (63) 1 0x0
def TBL_LATE_DROP_DROP (c : Nat) : Fld := Fld.at (0x8000108 + c * 0x100000) (0) 32 0x0
def TBL_LATE_DROP_FORWARD (c : Nat) : Fld := Fld.at (0x8000108 + c * 0x100000) (32) 32 0x0
def FAB_CTRL_START : Fld := Fld.at (0x4800000) (0) 1 0x0
def FAB_CTRL_RUN : Fld := Fld.at (0x4800000) (1) 1 0x0
def FAB_POS_FLIGHT : Fld := Fld.at (0x4800008) (0) 7 0x0
def FAB_POS_REACH : Fld := Fld.at (0x4800008) (7) 7 0x0
def FAB_POS_VALID : Fld := Fld.at (0x4800008) (14) 1 0x0
def FAB_UNREACH_TIMEOUT : Fld := Fld.at (0x4800010) (0) 16 0x3E8
def FAB_DROP_TAG : Fld := Fld.at (0x4800018) (0) 16 0x0
def FAB_DROP_ROUTE : Fld := Fld.at (0x4800018) (16) 16 0x0
def FAB_DROP_BOUNCE_LOST : Fld := Fld.at (0x4800018) (32) 16 0x0
def FAB_PART_PTAG (p : Nat) : Fld := Fld.at (0x4800100 + p * 0x8) (0) 16 0x0
def FAB_PART_SHARE (p : Nat) : Fld := Fld.at (0x4800100 + p * 0x8) (16) 6 0x0
def FAB_PDROP_AUTH (p : Nat) : Fld := Fld.at (0x4800200 + p * 0x8) (0) 16 0x0
def FAB_PDROP_WIN (p : Nat) : Fld := Fld.at (0x4800200 + p * 0x8) (16) 16 0x0
def OP_LSTATE_STATE (n j : Nat) : Fld := Fld.at (0x4000000 + n * 0x40000) (3*j) 3 0x0
def OP_FEC_CE (n : Nat) : Fld := Fld.at (0x4000008 + n * 0x40000) (0) 32 0x0
def OP_FEC_UE (n : Nat) : Fld := Fld.at (0x4000008 + n * 0x40000) (32) 32 0x0
def OP_LINK_REPLAYS (n : Nat) : Fld := Fld.at (0x4000010 + n * 0x40000) (0) 32 0x0
def OP_LINK_RETRAINS (n : Nat) : Fld := Fld.at (0x4000010 + n * 0x40000) (32) 16 0x0
def OP_LASER_SRC (n : Nat) : Fld := Fld.at (0x4000018 + n * 0x40000) (0) 1 0x0
def OP_LASER_A_OK (n : Nat) : Fld := Fld.at (0x4000018 + n * 0x40000) (1) 1 0x0
def OP_LASER_B_OK (n : Nat) : Fld := Fld.at (0x4000018 + n * 0x40000) (2) 1 0x0
def OP_LASER_USE_A (n : Nat) : Fld := Fld.at (0x4000018 + n * 0x40000) (3) 1 0x0
def OP_LASER_SHUT (n : Nat) : Fld := Fld.at (0x4000018 + n * 0x40000) (4) 1 0x0
def STEP_COLL_CFG_ORDER (p : Nat) : Fld := Fld.at (0xB000240 + p * 0x100000) (0) 1 0x0
def STEP_COLL_CFG_PARTIAL (p : Nat) : Fld := Fld.at (0xB000240 + p * 0x100000) (1) 1 0x0
def STEP_COLL_CFG_RND (p : Nat) : Fld := Fld.at (0xB000240 + p * 0x100000) (2) 3 0x0
def STEP_COLL_CFG_STRAG_POLICY (p : Nat) : Fld := Fld.at (0xB000240 + p * 0x100000) (5) 1 0x0
def STEP_COLL_CFG_STRAG_US (p : Nat) : Fld := Fld.at (0xB000240 + p * 0x100000) (32) 32 0x3E8
def STEP_VOTE_VALID (p : Nat) : Fld := Fld.at (0xB000248 + p * 0x100000) (0) 1 0x0
def STEP_VOTE_SKIP (p : Nat) : Fld := Fld.at (0xB000248 + p * 0x100000) (1) 1 0x0
def STEP_VOTE_LOCAL_NF (p : Nat) : Fld := Fld.at (0xB000248 + p * 0x100000) (2) 1 0x0
def STEP_VOTE_LOSS (p : Nat) : Fld := Fld.at (0xB000248 + p * 0x100000) (32) 32 0x0
def STEP_LATE_DEFERRED (p : Nat) : Fld := Fld.at (0xB000250 + p * 0x100000) (0) 16 0x0
def STEP_LATE_DROPPED (p : Nat) : Fld := Fld.at (0xB000250 + p * 0x100000) (16) 16 0x0
def STEP_UPD_CFG_DENSE_SITE (p : Nat) : Fld := Fld.at (0xB000258 + p * 0x100000) (0) 1 0x0
def STEP_UPD_CFG_NPROG (p : Nat) : Fld := Fld.at (0xB000258 + p * 0x100000) (8) 7 0x0
def STEP_UPD_CFG_NGROUP (p : Nat) : Fld := Fld.at (0xB000258 + p * 0x100000) (15) 9 0x0
def STEP_UPD_CFG_NMAP (p : Nat) : Fld := Fld.at (0xB000258 + p * 0x100000) (32) 17 0x0
def STEP_UPD_TABLES_PROGS (p : Nat) : Fld := Fld.at (0xB000260 + p * 0x100000) (0) 48 0x0
def STEP_UPD_TABLES_GROUPS (p : Nat) : Fld := Fld.at (0xB000260 + p * 0x100000) (64) 48 0x0
def STEP_UPD_TABLES_MAP (p : Nat) : Fld := Fld.at (0xB000260 + p * 0x100000) (128) 48 0x0
def STEP_UPD_SHARD_BASE (p g : Nat) : Fld := Fld.at (0xB000280 + p * 0x100000 + g * 0x8) (0) 48 0x0
def STEP_UPD_SHARD_NSLOT (p g : Nat) : Fld := Fld.at (0xB000280 + p * 0x100000 + g * 0x8) (48) 16 0x0
def STEP_JNL_CFG_ROW_BUDGET (p : Nat) : Fld := Fld.at (0xB0002C0 + p * 0x100000) (0) 16 0x100
def STEP_UPD_STATUS_NF_WRITES (p : Nat) : Fld := Fld.at (0xB0002C8 + p * 0x100000) (0) 32 0x0
def STEP_UPD_STATUS_JNL_REJECT (p : Nat) : Fld := Fld.at (0xB0002C8 + p * 0x100000) (32) 16 0x0
def STEP_CFG_MICRO (p : Nat) : Fld := Fld.at (0xB000200 + p * 0x100000) (0) 9 0x1
def STEP_CFG_SERVE (p : Nat) : Fld := Fld.at (0xB000200 + p * 0x100000) (9) 1 0x0
def STEP_CFG_SIGN_EVERY (p : Nat) : Fld := Fld.at (0xB000200 + p * 0x100000) (16) 16 0x40
def STEP_CFG_COMMIT_TMO (p : Nat) : Fld := Fld.at (0xB000200 + p * 0x100000) (32) 32 0x2710
def STEP_STATUS_STATE (p : Nat) : Fld := Fld.at (0xB000208 + p * 0x100000) (0) 4 0x0
def STEP_STATUS_CAUSE (p : Nat) : Fld := Fld.at (0xB000208 + p * 0x100000) (4) 8 0x0
def STEP_NUM_STEP (p : Nat) : Fld := Fld.at (0xB000210 + p * 0x100000) (0) 64 0x0
def STEP_JOB_ID_JOB_ID (p : Nat) : Fld := Fld.at (0xB000218 + p * 0x100000) (0) 64 0x0
def STEP_LEDGER_BASE (p : Nat) : Fld := Fld.at (0xB000220 + p * 0x100000) (0) 48 0x0
def STEP_LEDGER_SIZE (p : Nat) : Fld := Fld.at (0xB000220 + p * 0x100000) (64) 16 0x100
def STEP_LEDGER_IDX_NEXT (p : Nat) : Fld := Fld.at (0xB000230 + p * 0x100000) (0) 64 0x0
def STEP_LEDGER_ACK_DRAINED (p : Nat) : Fld := Fld.at (0xB000238 + p * 0x100000) (0) 64 0x0
def HUB_RISK_SCORE : Fld := Fld.at (0x20) (0) 8 0x0
def HUB_RISK_THRESH : Fld := Fld.at (0x20) (8) 8 0xA0
def HUB_RISK_DWELL : Fld := Fld.at (0x20) (16) 4 0x3
def HUB_RISK_DRAIN_REQ : Fld := Fld.at (0x20) (20) 1 0x0
def HUB_RISK_DRAINED : Fld := Fld.at (0x20) (21) 1 0x0
def HUB_RISK_DEFERRED : Fld := Fld.at (0x20) (22) 1 0x0
def HUB_RISK_TERMS_STK_CE : Fld := Fld.at (0x28) (0) 8 0x0
def HUB_RISK_TERMS_SRAM_CE : Fld := Fld.at (0x28) (8) 8 0x0
def HUB_RISK_TERMS_SLOW : Fld := Fld.at (0x28) (16) 8 0x0
def HUB_RISK_TERMS_TEMP : Fld := Fld.at (0x28) (24) 8 0x0
def HUB_RISK_TERMS_OPTIC : Fld := Fld.at (0x28) (32) 8 0x0
def HUB_RISK_TERMS_FEED : Fld := Fld.at (0x28) (40) 8 0x0
def HUB_RISK_TERMS_BROWNOUT : Fld := Fld.at (0x28) (48) 8 0x0
def HUB_FEED_OWN : Fld := Fld.at (0x30) (0) 3 0x0
def HUB_FEED_CO_FED : Fld := Fld.at (0x30) (3) 1 0x0
def HUB_FEED_BUDDY : Fld := Fld.at (0x30) (4) 14 0x0
def HUB_FEED_BUDDY_VALID : Fld := Fld.at (0x30) (18) 1 0x0
def HUB_SNAP_DEVICE : Fld := Fld.at (0x38) (0) 14 0x0
def HUB_SNAP_HOLDING : Fld := Fld.at (0x38) (14) 1 0x0
def HUB_SNAP_COMPLETE : Fld := Fld.at (0x38) (15) 1 0x0
def HUB_SNAP_STEP : Fld := Fld.at (0x38) (16) 48 0x0
def HUB_SNAP_CFG_BASE (p : Nat) : Fld := Fld.at (0xB0002E0 + p * 0x100000) (0) 48 0x0
def HUB_SNAP_CFG_SIZE (p : Nat) : Fld := Fld.at (0xB0002E0 + p * 0x100000) (64) 16 0x0
def STEP_CKPT_CFG_EVERY (p : Nat) : Fld := Fld.at (0xB0002D0 + p * 0x100000) (0) 32 0x3840
def STEP_CKPT_CFG_TRUST_OK (p : Nat) : Fld := Fld.at (0xB0002D0 + p * 0x100000) (32) 1 0x0
def STEP_RESTORE_STATE (p : Nat) : Fld := Fld.at (0xB0002D8 + p * 0x100000) (0) 4 0x0
def STEP_RESTORE_RESULT (p : Nat) : Fld := Fld.at (0xB0002D8 + p * 0x100000) (4) 8 0x0
def STEP_RESTORE_STEP (p : Nat) : Fld := Fld.at (0xB0002D8 + p * 0x100000) (16) 48 0x0
def PART_CFG_SECTIONS (p : Nat) : Fld := Fld.at (0xB000000 + p * 0x100000) (0) 8 0x0
def PART_CFG_OPVIS (p : Nat) : Fld := Fld.at (0xB000000 + p * 0x100000) (8) 1 0x0
def PART_CFG_IDE_REQUIRED (p : Nat) : Fld := Fld.at (0xB000000 + p * 0x100000) (9) 1 0x0
def PART_CTRL_START (p : Nat) : Fld := Fld.at (0xB000008 + p * 0x100000) (0) 1 0x0
def PART_STATUS_STATE (p : Nat) : Fld := Fld.at (0xB000010 + p * 0x100000) (0) 2 0x0
def PART_STATUS_CAUSE (p : Nat) : Fld := Fld.at (0xB000010 + p * 0x100000) (2) 8 0x0
def PART_PT_ROOT_ROOT (p : Nat) : Fld := Fld.at (0xB000018 + p * 0x100000) (12) 28 0x0
def PART_KEY_EPOCH (p : Nat) : Fld := Fld.at (0xB000020 + p * 0x100000) (0) 32 0x0
def PART_KEY_CUR (p : Nat) : Fld := Fld.at (0xB000020 + p * 0x100000) (32) 1 0x0
def PART_KEY_SWEEP (p : Nat) : Fld := Fld.at (0xB000020 + p * 0x100000) (33) 1 0x0
def PART_DBG_COUNT (p : Nat) : Fld := Fld.at (0xB000028 + p * 0x100000) (0) 32 0x0
def SEC_BOOT_STATE : Fld := Fld.at (0x2000000) (0) 4 0x0
def SEC_BOOT_REASON : Fld := Fld.at (0x2000000) (4) 8 0x0
def SEC_BOOT_IDENT_READY : Fld := Fld.at (0x2000000) (12) 1 0x0
def SEC_BOOT_IDENT_EXHAUSTED : Fld := Fld.at (0x2000000) (13) 1 0x0
def SEC_OTP_GEN_ROOT : Fld := Fld.at (0x2000010) (0) 3 0x0
def SEC_OTP_GEN_SET : Fld := Fld.at (0x2000010) (3) 3 0x7
def SEC_OTP_GEN_OPK : Fld := Fld.at (0x2000010) (6) 3 0x7
def SEC_OTP_GEN_SVN : Fld := Fld.at (0x2000010) (16) 7 0x0
def SEC_OTP_GEN_LEAVES : Fld := Fld.at (0x2000010) (32) 16 0x0
def SEC_BOOT_NONCE_NONCE : Fld := Fld.at (0x2000018) (0) 64 0x0
/-- The registers of ring pair `r` of function `fn` (17 R558, R559, Registers). -/
def ringBase (fn r : Nat) : Nat :=
  if fn = 0 then 0x100000 + r * 0x40 else fn * 0x10000000 + 0x1000000 + r * 0x40

def HUB_RING_CMD_ADDR (fn r : Nat) : Fld := Fld.at (ringBase fn r + 0x0) (12) 52 0x0
def HUB_RING_CPL_ADDR (fn r : Nat) : Fld := Fld.at (ringBase fn r + 0x8) (12) 52 0x0
def HUB_RING_CTRL_EN (fn r : Nat) : Fld := Fld.at (ringBase fn r + 0x10) (0) 1 0x0
def HUB_RING_CTRL_LOG2N (fn r : Nat) : Fld := Fld.at (ringBase fn r + 0x10) (1) 5 0x4
def HUB_RING_CTRL_VECTOR (fn r : Nat) : Fld := Fld.at (ringBase fn r + 0x10) (6) 11 0x0
def HUB_RING_CTRL_IRQ_EN (fn r : Nat) : Fld := Fld.at (ringBase fn r + 0x10) (17) 1 0x0
def HUB_RING_CTRL_COAL_COUNT (fn r : Nat) : Fld := Fld.at (ringBase fn r + 0x10) (18) 8 0x0
def HUB_RING_CTRL_COAL_US (fn r : Nat) : Fld := Fld.at (ringBase fn r + 0x10) (32) 16 0x0
def HUB_RING_STAT_HEAD (fn r : Nat) : Fld := Fld.at (ringBase fn r + 0x18) (0) 16 0x0
def HUB_RING_STAT_CTAIL (fn r : Nat) : Fld := Fld.at (ringBase fn r + 0x18) (16) 16 0x0
def HUB_RING_STAT_IDLE (fn r : Nat) : Fld := Fld.at (ringBase fn r + 0x18) (32) 1 0x1
def HUB_RING_STAT_ERROR (fn r : Nat) : Fld := Fld.at (ringBase fn r + 0x18) (33) 1 0x0
def HUB_RING_STAT_CAUSE (fn r : Nat) : Fld := Fld.at (ringBase fn r + 0x18) (34) 3 0x0
def HUB_FW_STATUS_READY : Fld := Fld.at (0x8) (0) 1 0x0
def HUB_FW_STATUS_WIN_DISCARD : Fld := Fld.at (0x8) (32) 32 0x0
def SEC_BOOT_CTRL_GO : Fld := Fld.at (0x2000008) (0) 1 0x0
def SEC_BOOT_CTRL_LENGTH : Fld := Fld.at (0x2000008) (32) 32 0x0
def PART_APERTURE_EN (p : Nat) : Fld := Fld.at (0xB000030 + p * 0x100000) (0) 1 0x0
def PART_APERTURE_BASE (p : Nat) : Fld := Fld.at (0xB000030 + p * 0x100000) (28) 20 0x0
def ERR_LOG_STAT_NEXT : Fld := Fld.at (0x3000000) (0) 12 0x0
def ERR_LOG_STAT_FREE : Fld := Fld.at (0x3000000) (16) 13 0x1000
def ERR_LOG_STAT_SEQ : Fld := Fld.at (0x3000000) (32) 32 0x0
def ERR_LOST_LOW : Fld := Fld.at (0x3000008) (0) 32 0x0
def ERR_LOST_HIGH : Fld := Fld.at (0x3000008) (32) 32 0x0
def ERR_MIRROR_BASE_ADDR : Fld := Fld.at (0x3000010) (6) 58 0x0
def ERR_MIRROR_CFG_EN : Fld := Fld.at (0x3000018) (0) 1 0x0
def ERR_MIRROR_CFG_LOG2N : Fld := Fld.at (0x3000018) (1) 5 0x0
def ERR_MIRROR_TAIL_TAIL : Fld := Fld.at (0x3000020) (0) 16 0x0
def ERR_MIRROR_HEAD_HEAD : Fld := Fld.at (0x3000028) (0) 16 0x0
def ERR_CTRL_CLEAR_LOST : Fld := Fld.at (0x3000030) (0) 1 0x0
def ERR_CTRL_CNT_FREEZE : Fld := Fld.at (0x3000030) (1) 1 0x0
def ERR_CTRL_CNT_CLEAR : Fld := Fld.at (0x3000030) (2) 1 0x0
def ERR_FAILSAFE_ACTIVE : Fld := Fld.at (0x3000040) (0) 1 0x0
def ERR_FAILSAFE_LAST_TRIGGER : Fld := Fld.at (0x3000040) (1) 4 0x0
def ERR_FAILSAFE_DUMP_STATE : Fld := Fld.at (0x3000040) (5) 2 0x0
def ERR_FAILSAFE_DUMP_SLOT : Fld := Fld.at (0x3000040) (7) 1 0x0
def ERR_FATAL_VALID (i : Nat) : Fld := Fld.at (0x3000100 + i * 0x20) (0) 1 0x0
def ERR_FATAL_MULTI (i : Nat) : Fld := Fld.at (0x3000100 + i * 0x20) (1) 1 0x0
def ERR_FATAL_DETAIL (i : Nat) : Fld := Fld.at (0x3000100 + i * 0x20) (16) 16 0x0
def ERR_FATAL_TIME (i : Nat) : Fld := Fld.at (0x3000100 + i * 0x20) (32) 64 0x0
def ERR_FATAL_ARG (i : Nat) : Fld := Fld.at (0x3000100 + i * 0x20) (96) 64 0x0
def MC_BUSY_CYCLES (c k : Nat) : Fld := Fld.at (0x8010800 + c * 0x100000 + k * 0x4000) (0) 64 0x0
def MC_STALL_STREAM_CYCLES (c k : Nat) : Fld := Fld.at (0x8010808 + c * 0x100000 + k * 0x4000) (0) 64 0x0
def MC_STALL_ACC_CYCLES (c k : Nat) : Fld := Fld.at (0x8010810 + c * 0x100000 + k * 0x4000) (0) 64 0x0
def MC_STALL_CRED_CYCLES (c k : Nat) : Fld := Fld.at (0x8010818 + c * 0x100000 + k * 0x4000) (0) 64 0x0
def MC_STALL_PLANE_CYCLES (c k : Nat) : Fld := Fld.at (0x8010820 + c * 0x100000 + k * 0x4000) (0) 64 0x0
def TC_ISSUED_COUNT (c k : Nat) : Fld := Fld.at (0x8010800 + c * 0x100000 + k * 0x4000) (0) 64 0x0
def TC_NOREADY_CYCLES (c k : Nat) : Fld := Fld.at (0x8010808 + c * 0x100000 + k * 0x4000) (0) 64 0x0
def TC_BERTH_FULL_CYCLES (c k : Nat) : Fld := Fld.at (0x8010810 + c * 0x100000 + k * 0x4000) (0) 64 0x0
def CL_XBAR_WAIT_ROUNDS (c : Nat) : Fld := Fld.at (0x8000100 + c * 0x100000) (0) 64 0x0
def PM_OP_CUR : Fld := Fld.at (0x1000000) (0) 2 0x1
def PM_OP_THROT : Fld := Fld.at (0x1000000) (2) 3 0x0
def PM_OP_CLUSTER_MHZ : Fld := Fld.at (0x1000000) (5) 11 0x5DC
def PM_THROT_T_HI : Fld := Fld.at (0x1000008) (0) 8 0x5F
def PM_THROT_T_LO : Fld := Fld.at (0x1000008) (8) 8 0x5A
def PM_THROT_PCAP : Fld := Fld.at (0x1000008) (16) 16 0x0
def PM_POWER_PKG_W : Fld := Fld.at (0x1000010) (0) 16 0x0
def PM_POWER_TJ_MAX : Fld := Fld.at (0x1000010) (16) 8 0x0
def PM_CTRL_SLACK_EN : Fld := Fld.at (0x1000018) (0) 1 0x1
def PM_CTRL_MOOR_EN : Fld := Fld.at (0x1000018) (1) 1 0x0
def PM_CTRL_STATE : Fld := Fld.at (0x1000018) (2) 3 0x0
def PM_IDLE_TIMER_STAND_MS : Fld := Fld.at (0x1000020) (0) 32 0xC8
def PM_IDLE_TIMER_MOOR_S : Fld := Fld.at (0x1000028) (0) 32 0x3C
def PM_WAKE_TIMER_S : Fld := Fld.at (0x1000030) (0) 32 0x0
def PM_PAD_RELEASE_GO : Fld := Fld.at (0x1000038) (0) 1 0x0
def PM_PAD_RELEASE_HELD : Fld := Fld.at (0x1000038) (1) 1 0x0
def PM_AUX_CFG_PPS_EN : Fld := Fld.at (0x1000040) (0) 1 0x0
def PM_AUX_CFG_FAULT2_EN : Fld := Fld.at (0x1000040) (1) 1 0x0
def PM_AUX_CFG_FAULT2_CLASS : Fld := Fld.at (0x1000040) (2) 3 0x3
def PM_CLAIM_AUX0_LOST : Fld := Fld.at (0x1000048) (0) 1 0x0
def PM_CLAIM_MOOR_HELD : Fld := Fld.at (0x1000048) (1) 1 0x0
def PM_CLAIM_DEFER_DROPPED : Fld := Fld.at (0x1000048) (2) 1 0x0
def PM_CLAIM_JOURNAL_REFUSED : Fld := Fld.at (0x1000048) (3) 1 0x0
def PM_CLAIM_HOT_SHRUNK : Fld := Fld.at (0x1000048) (8) 8 0x0
def PM_AON_SECONDS_S : Fld := Fld.at (0x1000050) (0) 32 0x0
def PM_BROWNOUT_COUNT : Fld := Fld.at (0x1000058) (0) 8 0x0
def PM_PPS_TIME : Fld := Fld.at (0x1000060) (0) 64 0x0
def HUB_LAST_WAKE_SOURCE : Fld := Fld.at (0x18) (0) 3 0x0
def HUB_LAST_WAKE_FROM : Fld := Fld.at (0x18) (3) 2 0x0
def HUB_LAST_WAKE_REPLAYED : Fld := Fld.at (0x18) (5) 1 0x0
def HUB_LAST_WAKE_MULTI : Fld := Fld.at (0x18) (6) 1 0x0
def HUB_LAST_WAKE_AT : Fld := Fld.at (0x18) (32) 32 0x0
def HUB_RESET_CAUSE_CAUSE : Fld := Fld.at (0x10) (0) 4 0x0
def HUB_RESET_CAUSE_FROM_FAILSAFE : Fld := Fld.at (0x10) (4) 1 0x0
def PART_POUND_GIB (p : Nat) : Fld := Fld.at (0xB000038 + p * 0x100000) (0) 5 0x4
def HUB_ID_PART : Fld := Fld.at (0x0) (0) 8 0x1
def HUB_ID_VARIANT : Fld := Fld.at (0x0) (8) 2 0x0
def HUB_ID_STEPPING : Fld := Fld.at (0x0) (12) 4 0x0
def HUB_ID_MEM_GIB : Fld := Fld.at (0x0) (16) 16 0x200
def CL_TASK_STATE_STATE (c k : Nat) : Fld := Fld.at (0x8010000 + c * 0x100000 + k * 0x4000) (0) 3 0x0
def CL_TASK_STATE_START (c k : Nat) : Fld := Fld.at (0x8010000 + c * 0x100000 + k * 0x4000) (8) 1 0x0
def CL_TASK_STATE_HALT (c k : Nat) : Fld := Fld.at (0x8010000 + c * 0x100000 + k * 0x4000) (9) 1 0x0
def CL_TOK_LIMIT_LIMIT (c k i : Nat) : Fld := Fld.at (0x8010200 + c * 0x100000 + k * 0x4000 + i * 0x8) (0) 24 0x0
def CL_TOK_LIMIT_OPEN (c k i : Nat) : Fld := Fld.at (0x8010200 + c * 0x100000 + k * 0x4000 + i * 0x8) (24) 1 0x0
def CL_TOK_CNT_COUNT (c k i : Nat) : Fld := Fld.at (0x8010400 + c * 0x100000 + k * 0x4000 + i * 0x8) (0) 24 0x0
def CL_TOK_CNT_GEN (c k i : Nat) : Fld := Fld.at (0x8010400 + c * 0x100000 + k * 0x4000 + i * 0x8) (24) 24 0x0
def CL_TOK_CNT_GEN_VALID (c k i : Nat) : Fld := Fld.at (0x8010400 + c * 0x100000 + k * 0x4000 + i * 0x8) (48) 1 0x0
def NUM_STEP_FLAGS_FLAGS (p : Nat) : Fld := Fld.at (0xB000100 + p * 0x100000) (0) 5 0x0
def NUM_STEP_FLAGS_LAST (p : Nat) : Fld := Fld.at (0xB000100 + p * 0x100000) (8) 5 0x0
def NUM_LS_CTRL_EN (p : Nat) : Fld := Fld.at (0xB000108 + p * 0x100000) (0) 1 0x0
def NUM_LS_CTRL_INIT_E (p : Nat) : Fld := Fld.at (0xB000108 + p * 0x100000) (8) 8 0x10
def NUM_LS_CTRL_MIN_E (p : Nat) : Fld := Fld.at (0xB000108 + p * 0x100000) (16) 8 0x0
def NUM_LS_CTRL_MAX_E (p : Nat) : Fld := Fld.at (0xB000108 + p * 0x100000) (24) 8 0x18
def NUM_LS_CTRL_GROWTH (p : Nat) : Fld := Fld.at (0xB000108 + p * 0x100000) (32) 16 0x7D0
def NUM_LS_CTRL_PATIENCE (p : Nat) : Fld := Fld.at (0xB000108 + p * 0x100000) (48) 8 0x10
def NUM_LS_STATE_E (p : Nat) : Fld := Fld.at (0xB000110 + p * 0x100000) (0) 8 0x0
def NUM_LS_STATE_COUNT (p : Nat) : Fld := Fld.at (0xB000110 + p * 0x100000) (8) 16 0x0
def NUM_LS_STATE_FLOOR_RUN (p : Nat) : Fld := Fld.at (0xB000110 + p * 0x100000) (24) 8 0x0

/-! ### The table of registers -/

/-- A field of a register: lowest bit, width, access, reset value. -/
structure FldDesc where
  lo : Nat
  len : Nat
  acc : Acc
  rst : Nat
deriving DecidableEq, Repr

/-- An array of registers: address of the first, (stride, count) of each dimension, bytes of one, fields. -/
structure RegRow where
  base : Nat
  dims : List (Nat × Nat)
  size : Nat
  flds : List FldDesc
deriving DecidableEq, Repr

def row_MC_ZR_TREGS_flds : List FldDesc := [⟨0, 32, .rw, 0x0⟩]
def row_MC_ZR_TREGS : RegRow := ⟨0x8010900, [(0x100000, 40), (0x4000, 2)], 8, row_MC_ZR_TREGS_flds⟩
def row_MC_MASK_LAYER_flds : List FldDesc := (List.range 15).map (fun i => ⟨8*(i+1)-8, 6, .rw, 0x0⟩) ++ (List.range 15).map (fun i => ⟨8*(i+1)-1, 1, .rw, 0x0⟩)
def row_MC_MASK_LAYER : RegRow := ⟨0x8010908, [(0x100000, 40), (0x4000, 2)], 16, row_MC_MASK_LAYER_flds⟩
def row_STEP_PRED_CFG_flds : List FldDesc := [⟨0, 32, .rw, 0x0⟩, ⟨32, 16, .rw, 0x148⟩, ⟨48, 4, .rw, 0x6⟩, ⟨52, 1, .ro, 0x0⟩]
def row_STEP_PRED_CFG : RegRow := ⟨0xB000400, [(0x100000, 8), (0x8, 64)], 8, row_STEP_PRED_CFG_flds⟩
def row_STEP_PRED_MISS_flds : List FldDesc := [⟨0, 32, .roq, 0x0⟩, ⟨32, 32, .roq, 0x0⟩]
def row_STEP_PRED_MISS : RegRow := ⟨0xB000600, [(0x100000, 8), (0x8, 64)], 8, row_STEP_PRED_MISS_flds⟩
def row_CL_GRAPH_DIR_flds : List FldDesc := [⟨0, 1, .rw, 0x0⟩, ⟨3, 45, .rw, 0x0⟩, ⟨48, 16, .rw, 0x0⟩]
def row_CL_GRAPH_DIR : RegRow := ⟨0x8000000, [(0x100000, 40), (0x8, 16)], 8, row_CL_GRAPH_DIR_flds⟩
def row_CL_JOB_SEED_flds : List FldDesc := [⟨0, 64, .rw, 0x0⟩]
def row_CL_JOB_SEED : RegRow := ⟨0x8000080, [(0x100000, 40)], 8, row_CL_JOB_SEED_flds⟩
def row_ARB_SLOT_flds : List FldDesc := (List.range 64).map (fun i => ⟨8*i, 4, .rws, 0x0⟩) ++ (List.range 64).map (fun i => ⟨8*i+4, 1, .rws, 0x0⟩)
def row_ARB_SLOT : RegRow := ⟨0x6000000, [(0x100, 1824)], 64, row_ARB_SLOT_flds⟩
def row_ARB_PRIO_flds : List FldDesc := (List.range 16).map (fun i => ⟨4*i, 4, .rw, 0x0⟩)
def row_ARB_PRIO : RegRow := ⟨0x6000040, [(0x100, 1824)], 8, row_ARB_PRIO_flds⟩
def row_ARB_PRIO_SH_flds : List FldDesc := (List.range 16).map (fun i => ⟨4*i, 4, .rws, 0x0⟩)
def row_ARB_PRIO_SH : RegRow := ⟨0x6000048, [(0x100, 1824)], 8, row_ARB_PRIO_SH_flds⟩
def row_ARB_COMMIT_flds : List FldDesc := [⟨0, 1, .wo, 0x0⟩]
def row_ARB_COMMIT : RegRow := ⟨0x6000050, [(0x100, 1824)], 8, row_ARB_COMMIT_flds⟩
def row_ARB_HOLD_MAX_flds : List FldDesc := [⟨32, 8, .rw, 0x10⟩]
def row_ARB_HOLD_MAX : RegRow := ⟨0x6000050, [(0x100, 1824)], 8, row_ARB_HOLD_MAX_flds⟩
def row_ARB_PENALTY_flds : List FldDesc := [⟨0, 16, .rw, 0x100⟩]
def row_ARB_PENALTY : RegRow := ⟨0x6000058, [(0x100, 1824)], 8, row_ARB_PENALTY_flds⟩
def row_ARB_OVERHOLD_flds : List FldDesc := [⟨32, 16, .w1c, 0x0⟩, ⟨48, 16, .roq, 0x0⟩]
def row_ARB_OVERHOLD : RegRow := ⟨0x6000058, [(0x100, 1824)], 8, row_ARB_OVERHOLD_flds⟩
def row_SB_TABLE_flds : List FldDesc := [⟨0, 1, .rw, 0x0⟩, ⟨1, 3, .rw, 0x0⟩, ⟨4, 4, .rw, 0x0⟩, ⟨8, 13, .rw, 0x0⟩, ⟨32, 12, .rw, 0x0⟩, ⟨44, 12, .rw, 0x0⟩, ⟨64, 36, .rw, 0x0⟩, ⟨128, 32, .rw, 0x0⟩, ⟨160, 12, .rw, 0x0⟩]
def row_SB_TABLE : RegRow := ⟨0x5001000, [(0x100000, 8), (0x20, 64)], 24, row_SB_TABLE_flds⟩
def row_SB_JOB_SEED_flds : List FldDesc := [⟨0, 64, .rw, 0x0⟩]
def row_SB_JOB_SEED : RegRow := ⟨0x5001800, [(0x100000, 8), (0x8, 8)], 8, row_SB_JOB_SEED_flds⟩
def row_STK_CE_COUNT_flds : List FldDesc := [⟨0, 32, .roq, 0x0⟩]
def row_STK_CE_COUNT : RegRow := ⟨0x5000000, [(0x100000, 8), (0x8, 64)], 8, row_STK_CE_COUNT_flds⟩
def row_STK_UE_ADDR_flds : List FldDesc := [⟨0, 36, .ro, 0x0⟩, ⟨63, 1, .w1c, 0x0⟩]
def row_STK_UE_ADDR : RegRow := ⟨0x5000200, [(0x100000, 8)], 8, row_STK_UE_ADDR_flds⟩
def row_STK_SLOW_flds : List FldDesc := [⟨0, 32, .roq, 0x0⟩]
def row_STK_SLOW : RegRow := ⟨0x5000208, [(0x100000, 8)], 8, row_STK_SLOW_flds⟩
def row_STK_STAGE_CFG_flds : List FldDesc := [⟨0, 8, .rw, 0x8⟩, ⟨8, 24, .rw, 0x10000⟩]
def row_STK_STAGE_CFG : RegRow := ⟨0x5000210, [(0x100000, 8)], 8, row_STK_STAGE_CFG_flds⟩
def row_STK_SCRUB_CFG_flds : List FldDesc := [⟨0, 8, .rw, 0x18⟩]
def row_STK_SCRUB_CFG : RegRow := ⟨0x5000218, [(0x100000, 8)], 8, row_STK_SCRUB_CFG_flds⟩
def row_TC_BANK_WAIT_flds : List FldDesc := [⟨0, 32, .roq, 0x0⟩]
def row_TC_BANK_WAIT : RegRow := ⟨0x8018818, [(0x100000, 40), (0x4000, 18)], 8, row_TC_BANK_WAIT_flds⟩
def row_CL_TABLE_flds : List FldDesc := [⟨0, 1, .rw, 0x0⟩, ⟨6, 42, .rw, 0x0⟩, ⟨64, 1, .rw, 0x0⟩, ⟨70, 42, .rw, 0x0⟩]
def row_CL_TABLE : RegRow := ⟨0x8001000, [(0x100000, 40), (0x10, 64)], 16, row_CL_TABLE_flds⟩
def row_SB_LOAD_flds : List FldDesc := [⟨0, 1, .rw, 0x0⟩, ⟨1, 4, .rw, 0x8⟩, ⟨6, 30, .rw, 0x0⟩]
def row_SB_LOAD : RegRow := ⟨0x5002000, [(0x100000, 8), (0x8, 64)], 8, row_SB_LOAD_flds⟩
def row_TBL_INVALID_IDX_flds : List FldDesc := [⟨0, 32, .roq, 0x0⟩]
def row_TBL_INVALID_IDX : RegRow := ⟨0x5002200, [(0x100000, 8), (0x8, 64)], 8, row_TBL_INVALID_IDX_flds⟩
def row_TBL_INVALID_POS_flds : List FldDesc := [⟨0, 14, .ro, 0x0⟩, ⟨16, 32, .ro, 0x0⟩, ⟨63, 1, .w1c, 0x0⟩]
def row_TBL_INVALID_POS : RegRow := ⟨0x5002400, [(0x100000, 8), (0x8, 64)], 8, row_TBL_INVALID_POS_flds⟩
def row_TBL_LATE_DROP_flds : List FldDesc := [⟨0, 32, .roq, 0x0⟩, ⟨32, 32, .roq, 0x0⟩]
def row_TBL_LATE_DROP : RegRow := ⟨0x8000108, [(0x100000, 40)], 8, row_TBL_LATE_DROP_flds⟩
def row_FAB_CTRL_flds : List FldDesc := [⟨0, 1, .wo, 0x0⟩, ⟨1, 1, .ro, 0x0⟩]
def row_FAB_CTRL : RegRow := ⟨0x4800000, [], 8, row_FAB_CTRL_flds⟩
def row_FAB_POS_flds : List FldDesc := [⟨0, 7, .ro, 0x0⟩, ⟨7, 7, .ro, 0x0⟩, ⟨14, 1, .ro, 0x0⟩]
def row_FAB_POS : RegRow := ⟨0x4800008, [], 8, row_FAB_POS_flds⟩
def row_FAB_UNREACH_flds : List FldDesc := [⟨0, 16, .rw, 0x3E8⟩]
def row_FAB_UNREACH : RegRow := ⟨0x4800010, [], 8, row_FAB_UNREACH_flds⟩
def row_FAB_DROP_flds : List FldDesc := [⟨0, 16, .ro, 0x0⟩, ⟨16, 16, .ro, 0x0⟩, ⟨32, 16, .ro, 0x0⟩]
def row_FAB_DROP : RegRow := ⟨0x4800018, [], 8, row_FAB_DROP_flds⟩
def row_FAB_PART_flds : List FldDesc := [⟨0, 16, .rwl, 0x0⟩, ⟨16, 6, .rwl, 0x0⟩]
def row_FAB_PART : RegRow := ⟨0x4800100, [(0x8, 8)], 8, row_FAB_PART_flds⟩
def row_FAB_PDROP_flds : List FldDesc := [⟨0, 16, .roq, 0x0⟩, ⟨16, 16, .roq, 0x0⟩]
def row_FAB_PDROP : RegRow := ⟨0x4800200, [(0x8, 8)], 8, row_FAB_PDROP_flds⟩
def row_OP_LSTATE_flds : List FldDesc := (List.range 8).map (fun i => ⟨3*i, 3, .ro, 0x0⟩)
def row_OP_LSTATE : RegRow := ⟨0x4000000, [(0x40000, 32)], 8, row_OP_LSTATE_flds⟩
def row_OP_FEC_flds : List FldDesc := [⟨0, 32, .roq, 0x0⟩, ⟨32, 32, .roq, 0x0⟩]
def row_OP_FEC : RegRow := ⟨0x4000008, [(0x40000, 32)], 8, row_OP_FEC_flds⟩
def row_OP_LINK_flds : List FldDesc := [⟨0, 32, .roq, 0x0⟩, ⟨32, 16, .roq, 0x0⟩]
def row_OP_LINK : RegRow := ⟨0x4000010, [(0x40000, 32)], 8, row_OP_LINK_flds⟩
def row_OP_LASER_flds : List FldDesc := [⟨0, 1, .ro, 0x0⟩, ⟨1, 1, .ro, 0x0⟩, ⟨2, 1, .ro, 0x0⟩, ⟨3, 1, .wo, 0x0⟩, ⟨4, 1, .ro, 0x0⟩]
def row_OP_LASER : RegRow := ⟨0x4000018, [(0x40000, 32)], 8, row_OP_LASER_flds⟩
def row_STEP_COLL_CFG_flds : List FldDesc := [⟨0, 1, .rwl, 0x0⟩, ⟨1, 1, .rwl, 0x0⟩, ⟨2, 3, .rwl, 0x0⟩, ⟨5, 1, .rwl, 0x0⟩, ⟨32, 32, .rwl, 0x3E8⟩]
def row_STEP_COLL_CFG : RegRow := ⟨0xB000240, [(0x100000, 8)], 8, row_STEP_COLL_CFG_flds⟩
def row_STEP_VOTE_flds : List FldDesc := [⟨0, 1, .ro, 0x0⟩, ⟨1, 1, .ro, 0x0⟩, ⟨2, 1, .ro, 0x0⟩, ⟨32, 32, .ro, 0x0⟩]
def row_STEP_VOTE : RegRow := ⟨0xB000248, [(0x100000, 8)], 8, row_STEP_VOTE_flds⟩
def row_STEP_LATE_flds : List FldDesc := [⟨0, 16, .roq, 0x0⟩, ⟨16, 16, .roq, 0x0⟩]
def row_STEP_LATE : RegRow := ⟨0xB000250, [(0x100000, 8)], 8, row_STEP_LATE_flds⟩
def row_STEP_UPD_CFG_flds : List FldDesc := [⟨0, 1, .rwl, 0x0⟩, ⟨8, 7, .rwl, 0x0⟩, ⟨15, 9, .rwl, 0x0⟩, ⟨32, 17, .rwl, 0x0⟩]
def row_STEP_UPD_CFG : RegRow := ⟨0xB000258, [(0x100000, 8)], 8, row_STEP_UPD_CFG_flds⟩
def row_STEP_UPD_TABLES_flds : List FldDesc := [⟨0, 48, .rwl, 0x0⟩, ⟨64, 48, .rwl, 0x0⟩, ⟨128, 48, .rwl, 0x0⟩]
def row_STEP_UPD_TABLES : RegRow := ⟨0xB000260, [(0x100000, 8)], 24, row_STEP_UPD_TABLES_flds⟩
def row_STEP_UPD_SHARD_flds : List FldDesc := [⟨0, 48, .rw, 0x0⟩, ⟨48, 16, .rw, 0x0⟩]
def row_STEP_UPD_SHARD : RegRow := ⟨0xB000280, [(0x100000, 8), (0x8, 8)], 8, row_STEP_UPD_SHARD_flds⟩
def row_STEP_JNL_CFG_flds : List FldDesc := [⟨0, 16, .rw, 0x100⟩]
def row_STEP_JNL_CFG : RegRow := ⟨0xB0002C0, [(0x100000, 8)], 8, row_STEP_JNL_CFG_flds⟩
def row_STEP_UPD_STATUS_flds : List FldDesc := [⟨0, 32, .roq, 0x0⟩, ⟨32, 16, .roq, 0x0⟩]
def row_STEP_UPD_STATUS : RegRow := ⟨0xB0002C8, [(0x100000, 8)], 8, row_STEP_UPD_STATUS_flds⟩
def row_STEP_CFG_flds : List FldDesc := [⟨0, 9, .rwl, 0x1⟩, ⟨9, 1, .rwl, 0x0⟩, ⟨16, 16, .rwl, 0x40⟩, ⟨32, 32, .rwl, 0x2710⟩]
def row_STEP_CFG : RegRow := ⟨0xB000200, [(0x100000, 8)], 8, row_STEP_CFG_flds⟩
def row_STEP_STATUS_flds : List FldDesc := [⟨0, 4, .ro, 0x0⟩, ⟨4, 8, .ro, 0x0⟩]
def row_STEP_STATUS : RegRow := ⟨0xB000208, [(0x100000, 8)], 8, row_STEP_STATUS_flds⟩
def row_STEP_NUM_flds : List FldDesc := [⟨0, 64, .ro, 0x0⟩]
def row_STEP_NUM : RegRow := ⟨0xB000210, [(0x100000, 8)], 8, row_STEP_NUM_flds⟩
def row_STEP_JOB_ID_flds : List FldDesc := [⟨0, 64, .rwl, 0x0⟩]
def row_STEP_JOB_ID : RegRow := ⟨0xB000218, [(0x100000, 8)], 8, row_STEP_JOB_ID_flds⟩
def row_STEP_LEDGER_flds : List FldDesc := [⟨0, 48, .rwl, 0x0⟩, ⟨64, 16, .rwl, 0x100⟩]
def row_STEP_LEDGER : RegRow := ⟨0xB000220, [(0x100000, 8)], 16, row_STEP_LEDGER_flds⟩
def row_STEP_LEDGER_IDX_flds : List FldDesc := [⟨0, 64, .ro, 0x0⟩]
def row_STEP_LEDGER_IDX : RegRow := ⟨0xB000230, [(0x100000, 8)], 8, row_STEP_LEDGER_IDX_flds⟩
def row_STEP_LEDGER_ACK_flds : List FldDesc := [⟨0, 64, .rw, 0x0⟩]
def row_STEP_LEDGER_ACK : RegRow := ⟨0xB000238, [(0x100000, 8)], 8, row_STEP_LEDGER_ACK_flds⟩
def row_HUB_RISK_flds : List FldDesc := [⟨0, 8, .roq, 0x0⟩, ⟨8, 8, .rw, 0xA0⟩, ⟨16, 4, .rw, 0x3⟩, ⟨20, 1, .ro, 0x0⟩, ⟨21, 1, .ro, 0x0⟩, ⟨22, 1, .ro, 0x0⟩]
def row_HUB_RISK : RegRow := ⟨0x20, [], 8, row_HUB_RISK_flds⟩
def row_HUB_RISK_TERMS_flds : List FldDesc := [⟨0, 8, .roq, 0x0⟩, ⟨8, 8, .roq, 0x0⟩, ⟨16, 8, .roq, 0x0⟩, ⟨24, 8, .roq, 0x0⟩, ⟨32, 8, .roq, 0x0⟩, ⟨40, 8, .roq, 0x0⟩, ⟨48, 8, .roq, 0x0⟩]
def row_HUB_RISK_TERMS : RegRow := ⟨0x28, [], 8, row_HUB_RISK_TERMS_flds⟩
def row_HUB_FEED_flds : List FldDesc := [⟨0, 3, .ro, 0x0⟩, ⟨3, 1, .ro, 0x0⟩, ⟨4, 14, .ro, 0x0⟩, ⟨18, 1, .ro, 0x0⟩]
def row_HUB_FEED : RegRow := ⟨0x30, [], 8, row_HUB_FEED_flds⟩
def row_HUB_SNAP_flds : List FldDesc := [⟨0, 14, .ro, 0x0⟩, ⟨14, 1, .ro, 0x0⟩, ⟨15, 1, .ro, 0x0⟩, ⟨16, 48, .ro, 0x0⟩]
def row_HUB_SNAP : RegRow := ⟨0x38, [], 8, row_HUB_SNAP_flds⟩
def row_HUB_SNAP_CFG_flds : List FldDesc := [⟨0, 48, .rwl, 0x0⟩, ⟨64, 16, .rwl, 0x0⟩]
def row_HUB_SNAP_CFG : RegRow := ⟨0xB0002E0, [(0x100000, 8)], 16, row_HUB_SNAP_CFG_flds⟩
def row_STEP_CKPT_CFG_flds : List FldDesc := [⟨0, 32, .rwl, 0x3840⟩, ⟨32, 1, .rwl, 0x0⟩]
def row_STEP_CKPT_CFG : RegRow := ⟨0xB0002D0, [(0x100000, 8)], 8, row_STEP_CKPT_CFG_flds⟩
def row_STEP_RESTORE_flds : List FldDesc := [⟨0, 4, .ro, 0x0⟩, ⟨4, 8, .ro, 0x0⟩, ⟨16, 48, .ro, 0x0⟩]
def row_STEP_RESTORE : RegRow := ⟨0xB0002D8, [(0x100000, 8)], 8, row_STEP_RESTORE_flds⟩
def row_PART_CFG_flds : List FldDesc := [⟨0, 8, .rwl, 0x0⟩, ⟨8, 1, .rwl, 0x0⟩, ⟨9, 1, .rwl, 0x0⟩]
def row_PART_CFG : RegRow := ⟨0xB000000, [(0x100000, 8)], 8, row_PART_CFG_flds⟩
def row_PART_CTRL_flds : List FldDesc := [⟨0, 1, .wo, 0x0⟩]
def row_PART_CTRL : RegRow := ⟨0xB000008, [(0x100000, 8)], 8, row_PART_CTRL_flds⟩
def row_PART_STATUS_flds : List FldDesc := [⟨0, 2, .ro, 0x0⟩, ⟨2, 8, .ro, 0x0⟩]
def row_PART_STATUS : RegRow := ⟨0xB000010, [(0x100000, 8)], 8, row_PART_STATUS_flds⟩
def row_PART_PT_ROOT_flds : List FldDesc := [⟨12, 28, .rw, 0x0⟩]
def row_PART_PT_ROOT : RegRow := ⟨0xB000018, [(0x100000, 8)], 8, row_PART_PT_ROOT_flds⟩
def row_PART_KEY_flds : List FldDesc := [⟨0, 32, .ro, 0x0⟩, ⟨32, 1, .ro, 0x0⟩, ⟨33, 1, .ro, 0x0⟩]
def row_PART_KEY : RegRow := ⟨0xB000020, [(0x100000, 8)], 8, row_PART_KEY_flds⟩
def row_PART_DBG_flds : List FldDesc := [⟨0, 32, .ro, 0x0⟩]
def row_PART_DBG : RegRow := ⟨0xB000028, [(0x100000, 8)], 8, row_PART_DBG_flds⟩
def row_SEC_BOOT_flds : List FldDesc := [⟨0, 4, .ro, 0x0⟩, ⟨4, 8, .ro, 0x0⟩, ⟨12, 1, .ro, 0x0⟩, ⟨13, 1, .ro, 0x0⟩]
def row_SEC_BOOT : RegRow := ⟨0x2000000, [], 8, row_SEC_BOOT_flds⟩
def row_SEC_OTP_GEN_flds : List FldDesc := [⟨0, 3, .ro, 0x0⟩, ⟨3, 3, .ro, 0x7⟩, ⟨6, 3, .ro, 0x7⟩, ⟨16, 7, .ro, 0x0⟩, ⟨32, 16, .ro, 0x0⟩]
def row_SEC_OTP_GEN : RegRow := ⟨0x2000010, [], 8, row_SEC_OTP_GEN_flds⟩
def row_SEC_BOOT_NONCE_flds : List FldDesc := [⟨0, 64, .ro, 0x0⟩]
def row_SEC_BOOT_NONCE : RegRow := ⟨0x2000018, [], 8, row_SEC_BOOT_NONCE_flds⟩
def row_HUB_RING_CMD_flds : List FldDesc := [⟨12, 52, .rw, 0x0⟩]
def row_HUB_RING_CMD : RegRow := ⟨0x100000, [(0x40, 64)], 8, row_HUB_RING_CMD_flds⟩
def row_HUB_RING_CMD_PF : RegRow := ⟨0x11000000, [(0x10000000, 8), (0x40, 64)], 8, row_HUB_RING_CMD_flds⟩
def row_HUB_RING_CPL_flds : List FldDesc := [⟨12, 52, .rw, 0x0⟩]
def row_HUB_RING_CPL : RegRow := ⟨0x100008, [(0x40, 64)], 8, row_HUB_RING_CPL_flds⟩
def row_HUB_RING_CPL_PF : RegRow := ⟨0x11000008, [(0x10000000, 8), (0x40, 64)], 8, row_HUB_RING_CPL_flds⟩
def row_HUB_RING_CTRL_flds : List FldDesc := [⟨0, 1, .rw, 0x0⟩, ⟨1, 5, .rw, 0x4⟩, ⟨6, 11, .rw, 0x0⟩, ⟨17, 1, .rw, 0x0⟩, ⟨18, 8, .rw, 0x0⟩, ⟨32, 16, .rw, 0x0⟩]
def row_HUB_RING_CTRL : RegRow := ⟨0x100010, [(0x40, 64)], 8, row_HUB_RING_CTRL_flds⟩
def row_HUB_RING_CTRL_PF : RegRow := ⟨0x11000010, [(0x10000000, 8), (0x40, 64)], 8, row_HUB_RING_CTRL_flds⟩
def row_HUB_RING_STAT_flds : List FldDesc := [⟨0, 16, .ro, 0x0⟩, ⟨16, 16, .ro, 0x0⟩, ⟨32, 1, .ro, 0x1⟩, ⟨33, 1, .ro, 0x0⟩, ⟨34, 3, .ro, 0x0⟩]
def row_HUB_RING_STAT : RegRow := ⟨0x100018, [(0x40, 64)], 8, row_HUB_RING_STAT_flds⟩
def row_HUB_RING_STAT_PF : RegRow := ⟨0x11000018, [(0x10000000, 8), (0x40, 64)], 8, row_HUB_RING_STAT_flds⟩
def row_HUB_FW_STATUS_flds : List FldDesc := [⟨0, 1, .ro, 0x0⟩, ⟨32, 32, .ro, 0x0⟩]
def row_HUB_FW_STATUS : RegRow := ⟨0x8, [], 8, row_HUB_FW_STATUS_flds⟩
def row_SEC_BOOT_CTRL_flds : List FldDesc := [⟨0, 1, .wo, 0x0⟩, ⟨32, 32, .wo, 0x0⟩]
def row_SEC_BOOT_CTRL : RegRow := ⟨0x2000008, [], 8, row_SEC_BOOT_CTRL_flds⟩
def row_PART_APERTURE_flds : List FldDesc := [⟨0, 1, .rw, 0x0⟩, ⟨28, 20, .rw, 0x0⟩]
def row_PART_APERTURE : RegRow := ⟨0xB000030, [(0x100000, 8)], 8, row_PART_APERTURE_flds⟩
def row_ERR_LOG_STAT_flds : List FldDesc := [⟨0, 12, .ro, 0x0⟩, ⟨16, 13, .ro, 0x1000⟩, ⟨32, 32, .ro, 0x0⟩]
def row_ERR_LOG_STAT : RegRow := ⟨0x3000000, [], 8, row_ERR_LOG_STAT_flds⟩
def row_ERR_LOST_flds : List FldDesc := [⟨0, 32, .ro, 0x0⟩, ⟨32, 32, .ro, 0x0⟩]
def row_ERR_LOST : RegRow := ⟨0x3000008, [], 8, row_ERR_LOST_flds⟩
def row_ERR_MIRROR_BASE_flds : List FldDesc := [⟨6, 58, .ro, 0x0⟩]
def row_ERR_MIRROR_BASE : RegRow := ⟨0x3000010, [], 8, row_ERR_MIRROR_BASE_flds⟩
def row_ERR_MIRROR_CFG_flds : List FldDesc := [⟨0, 1, .ro, 0x0⟩, ⟨1, 5, .ro, 0x0⟩]
def row_ERR_MIRROR_CFG : RegRow := ⟨0x3000018, [], 8, row_ERR_MIRROR_CFG_flds⟩
def row_ERR_MIRROR_TAIL_flds : List FldDesc := [⟨0, 16, .ro, 0x0⟩]
def row_ERR_MIRROR_TAIL : RegRow := ⟨0x3000020, [], 8, row_ERR_MIRROR_TAIL_flds⟩
def row_ERR_MIRROR_HEAD_flds : List FldDesc := [⟨0, 16, .rw, 0x0⟩]
def row_ERR_MIRROR_HEAD : RegRow := ⟨0x3000028, [], 8, row_ERR_MIRROR_HEAD_flds⟩
def row_ERR_CTRL_flds : List FldDesc := [⟨0, 1, .wo, 0x0⟩, ⟨1, 1, .rw, 0x0⟩, ⟨2, 1, .wo, 0x0⟩]
def row_ERR_CTRL : RegRow := ⟨0x3000030, [], 8, row_ERR_CTRL_flds⟩
def row_ERR_FAILSAFE_flds : List FldDesc := [⟨0, 1, .ro, 0x0⟩, ⟨1, 4, .ro, 0x0⟩, ⟨5, 2, .ro, 0x0⟩, ⟨7, 1, .ro, 0x0⟩]
def row_ERR_FAILSAFE : RegRow := ⟨0x3000040, [], 8, row_ERR_FAILSAFE_flds⟩
def row_ERR_FATAL_flds : List FldDesc := [⟨0, 1, .w1c, 0x0⟩, ⟨1, 1, .ro, 0x0⟩, ⟨16, 16, .ro, 0x0⟩, ⟨32, 64, .ro, 0x0⟩, ⟨96, 64, .ro, 0x0⟩]
def row_ERR_FATAL : RegRow := ⟨0x3000100, [(0x20, 16)], 24, row_ERR_FATAL_flds⟩
def row_MC_BUSY_flds : List FldDesc := [⟨0, 64, .roq, 0x0⟩]
def row_MC_BUSY : RegRow := ⟨0x8010800, [(0x100000, 40), (0x4000, 2)], 8, row_MC_BUSY_flds⟩
def row_MC_STALL_STREAM_flds : List FldDesc := [⟨0, 64, .roq, 0x0⟩]
def row_MC_STALL_STREAM : RegRow := ⟨0x8010808, [(0x100000, 40), (0x4000, 2)], 8, row_MC_STALL_STREAM_flds⟩
def row_MC_STALL_ACC_flds : List FldDesc := [⟨0, 64, .roq, 0x0⟩]
def row_MC_STALL_ACC : RegRow := ⟨0x8010810, [(0x100000, 40), (0x4000, 2)], 8, row_MC_STALL_ACC_flds⟩
def row_MC_STALL_CRED_flds : List FldDesc := [⟨0, 64, .roq, 0x0⟩]
def row_MC_STALL_CRED : RegRow := ⟨0x8010818, [(0x100000, 40), (0x4000, 2)], 8, row_MC_STALL_CRED_flds⟩
def row_MC_STALL_PLANE_flds : List FldDesc := [⟨0, 64, .roq, 0x0⟩]
def row_MC_STALL_PLANE : RegRow := ⟨0x8010820, [(0x100000, 40), (0x4000, 2)], 8, row_MC_STALL_PLANE_flds⟩
def row_TC_ISSUED_flds : List FldDesc := [⟨0, 64, .roq, 0x0⟩]
def row_TC_ISSUED : RegRow := ⟨0x8018800, [(0x100000, 40), (0x4000, 18)], 8, row_TC_ISSUED_flds⟩
def row_TC_NOREADY_flds : List FldDesc := [⟨0, 64, .roq, 0x0⟩]
def row_TC_NOREADY : RegRow := ⟨0x8018808, [(0x100000, 40), (0x4000, 18)], 8, row_TC_NOREADY_flds⟩
def row_TC_BERTH_FULL_flds : List FldDesc := [⟨0, 64, .roq, 0x0⟩]
def row_TC_BERTH_FULL : RegRow := ⟨0x8018810, [(0x100000, 40), (0x4000, 18)], 8, row_TC_BERTH_FULL_flds⟩
def row_CL_XBAR_WAIT_flds : List FldDesc := [⟨0, 64, .roq, 0x0⟩]
def row_CL_XBAR_WAIT : RegRow := ⟨0x8000100, [(0x100000, 40)], 8, row_CL_XBAR_WAIT_flds⟩
def row_PM_OP_flds : List FldDesc := [⟨0, 2, .ro, 0x1⟩, ⟨2, 3, .ro, 0x0⟩, ⟨5, 11, .ro, 0x5DC⟩]
def row_PM_OP : RegRow := ⟨0x1000000, [], 8, row_PM_OP_flds⟩
def row_PM_THROT_flds : List FldDesc := [⟨0, 8, .rw, 0x5F⟩, ⟨8, 8, .rw, 0x5A⟩, ⟨16, 16, .rw, 0x0⟩]
def row_PM_THROT : RegRow := ⟨0x1000008, [], 8, row_PM_THROT_flds⟩
def row_PM_POWER_flds : List FldDesc := [⟨0, 16, .ro, 0x0⟩, ⟨16, 8, .ro, 0x0⟩]
def row_PM_POWER : RegRow := ⟨0x1000010, [], 8, row_PM_POWER_flds⟩
def row_PM_CTRL_flds : List FldDesc := [⟨0, 1, .rw, 0x1⟩, ⟨1, 1, .ro, 0x0⟩, ⟨2, 3, .ro, 0x0⟩]
def row_PM_CTRL : RegRow := ⟨0x1000018, [], 8, row_PM_CTRL_flds⟩
def row_PM_IDLE_TIMER_STAND_flds : List FldDesc := [⟨0, 32, .rw, 0xC8⟩]
def row_PM_IDLE_TIMER_STAND : RegRow := ⟨0x1000020, [], 8, row_PM_IDLE_TIMER_STAND_flds⟩
def row_PM_IDLE_TIMER_MOOR_flds : List FldDesc := [⟨0, 32, .rw, 0x3C⟩]
def row_PM_IDLE_TIMER_MOOR : RegRow := ⟨0x1000028, [], 8, row_PM_IDLE_TIMER_MOOR_flds⟩
def row_PM_WAKE_TIMER_flds : List FldDesc := [⟨0, 32, .rw, 0x0⟩]
def row_PM_WAKE_TIMER : RegRow := ⟨0x1000030, [], 8, row_PM_WAKE_TIMER_flds⟩
def row_PM_PAD_RELEASE_flds : List FldDesc := [⟨0, 1, .wo, 0x0⟩, ⟨1, 1, .ro, 0x0⟩]
def row_PM_PAD_RELEASE : RegRow := ⟨0x1000038, [], 8, row_PM_PAD_RELEASE_flds⟩
def row_PM_AUX_CFG_flds : List FldDesc := [⟨0, 1, .rw, 0x0⟩, ⟨1, 1, .rw, 0x0⟩, ⟨2, 3, .rw, 0x3⟩]
def row_PM_AUX_CFG : RegRow := ⟨0x1000040, [], 8, row_PM_AUX_CFG_flds⟩
def row_PM_CLAIM_flds : List FldDesc := [⟨0, 1, .w1c, 0x0⟩, ⟨1, 1, .w1c, 0x0⟩, ⟨2, 1, .w1c, 0x0⟩, ⟨3, 1, .w1c, 0x0⟩, ⟨8, 8, .w1c, 0x0⟩]
def row_PM_CLAIM : RegRow := ⟨0x1000048, [], 8, row_PM_CLAIM_flds⟩
def row_PM_AON_SECONDS_flds : List FldDesc := [⟨0, 32, .ro, 0x0⟩]
def row_PM_AON_SECONDS : RegRow := ⟨0x1000050, [], 8, row_PM_AON_SECONDS_flds⟩
def row_PM_BROWNOUT_flds : List FldDesc := [⟨0, 8, .ro, 0x0⟩]
def row_PM_BROWNOUT : RegRow := ⟨0x1000058, [], 8, row_PM_BROWNOUT_flds⟩
def row_PM_PPS_flds : List FldDesc := [⟨0, 64, .ro, 0x0⟩]
def row_PM_PPS : RegRow := ⟨0x1000060, [], 8, row_PM_PPS_flds⟩
def row_HUB_LAST_WAKE_flds : List FldDesc := [⟨0, 3, .ro, 0x0⟩, ⟨3, 2, .ro, 0x0⟩, ⟨5, 1, .ro, 0x0⟩, ⟨6, 1, .ro, 0x0⟩, ⟨32, 32, .ro, 0x0⟩]
def row_HUB_LAST_WAKE : RegRow := ⟨0x18, [], 8, row_HUB_LAST_WAKE_flds⟩
def row_HUB_RESET_CAUSE_flds : List FldDesc := [⟨0, 4, .ro, 0x0⟩, ⟨4, 1, .ro, 0x0⟩]
def row_HUB_RESET_CAUSE : RegRow := ⟨0x10, [], 8, row_HUB_RESET_CAUSE_flds⟩
def row_PART_POUND_flds : List FldDesc := [⟨0, 5, .rwl, 0x4⟩]
def row_PART_POUND : RegRow := ⟨0xB000038, [(0x100000, 8)], 8, row_PART_POUND_flds⟩
def row_HUB_ID_flds : List FldDesc := [⟨0, 8, .ro, 0x1⟩, ⟨8, 2, .ro, 0x0⟩, ⟨12, 4, .ro, 0x0⟩, ⟨16, 16, .ro, 0x200⟩]
def row_HUB_ID : RegRow := ⟨0x0, [], 8, row_HUB_ID_flds⟩
def row_CL_TASK_STATE_flds : List FldDesc := [⟨0, 3, .ro, 0x0⟩, ⟨8, 1, .wo, 0x0⟩, ⟨9, 1, .wo, 0x0⟩]
def row_CL_TASK_STATE : RegRow := ⟨0x8010000, [(0x100000, 40), (0x4000, 20)], 8, row_CL_TASK_STATE_flds⟩
def row_CL_TOK_LIMIT_flds : List FldDesc := [⟨0, 24, .rw, 0x0⟩, ⟨24, 1, .rw, 0x0⟩]
def row_CL_TOK_LIMIT : RegRow := ⟨0x8010200, [(0x100000, 40), (0x4000, 20), (0x8, 64)], 8, row_CL_TOK_LIMIT_flds⟩
def row_CL_TOK_CNT_flds : List FldDesc := [⟨0, 24, .ro, 0x0⟩, ⟨24, 24, .ro, 0x0⟩, ⟨48, 1, .ro, 0x0⟩]
def row_CL_TOK_CNT : RegRow := ⟨0x8010400, [(0x100000, 40), (0x4000, 20), (0x8, 64)], 8, row_CL_TOK_CNT_flds⟩
def row_NUM_STEP_FLAGS_flds : List FldDesc := [⟨0, 5, .ro, 0x0⟩, ⟨8, 5, .ro, 0x0⟩]
def row_NUM_STEP_FLAGS : RegRow := ⟨0xB000100, [(0x100000, 8)], 8, row_NUM_STEP_FLAGS_flds⟩
def row_NUM_LS_CTRL_flds : List FldDesc := [⟨0, 1, .rwl, 0x0⟩, ⟨8, 8, .rwl, 0x10⟩, ⟨16, 8, .rwl, 0x0⟩, ⟨24, 8, .rwl, 0x18⟩, ⟨32, 16, .rwl, 0x7D0⟩, ⟨48, 8, .rwl, 0x10⟩]
def row_NUM_LS_CTRL : RegRow := ⟨0xB000108, [(0x100000, 8)], 8, row_NUM_LS_CTRL_flds⟩
def row_NUM_LS_STATE_flds : List FldDesc := [⟨0, 8, .ro, 0x0⟩, ⟨8, 16, .ro, 0x0⟩, ⟨24, 8, .ro, 0x0⟩]
def row_NUM_LS_STATE : RegRow := ⟨0xB000110, [(0x100000, 8)], 8, row_NUM_LS_STATE_flds⟩

def regRows0 : List RegRow := [row_MC_ZR_TREGS, row_MC_MASK_LAYER, row_STEP_PRED_CFG, row_STEP_PRED_MISS, row_CL_GRAPH_DIR, row_CL_JOB_SEED, row_ARB_SLOT, row_ARB_PRIO, row_ARB_PRIO_SH, row_ARB_COMMIT, row_ARB_HOLD_MAX, row_ARB_PENALTY]
def regRows1 : List RegRow := [row_ARB_OVERHOLD, row_SB_TABLE, row_SB_JOB_SEED, row_STK_CE_COUNT, row_STK_UE_ADDR, row_STK_SLOW, row_STK_STAGE_CFG, row_STK_SCRUB_CFG, row_TC_BANK_WAIT, row_CL_TABLE, row_SB_LOAD, row_TBL_INVALID_IDX]
def regRows2 : List RegRow := [row_TBL_INVALID_POS, row_TBL_LATE_DROP, row_FAB_CTRL, row_FAB_POS, row_FAB_UNREACH, row_FAB_DROP, row_FAB_PART, row_FAB_PDROP, row_OP_LSTATE, row_OP_FEC, row_OP_LINK, row_OP_LASER]
def regRows3 : List RegRow := [row_STEP_COLL_CFG, row_STEP_VOTE, row_STEP_LATE, row_STEP_UPD_CFG, row_STEP_UPD_TABLES, row_STEP_UPD_SHARD, row_STEP_JNL_CFG, row_STEP_UPD_STATUS, row_STEP_CFG, row_STEP_STATUS, row_STEP_NUM, row_STEP_JOB_ID]
def regRows4 : List RegRow := [row_STEP_LEDGER, row_STEP_LEDGER_IDX, row_STEP_LEDGER_ACK, row_HUB_RISK, row_HUB_RISK_TERMS, row_HUB_FEED, row_HUB_SNAP, row_HUB_SNAP_CFG, row_STEP_CKPT_CFG, row_STEP_RESTORE, row_PART_CFG, row_PART_CTRL]
def regRows5 : List RegRow := [row_PART_STATUS, row_PART_PT_ROOT, row_PART_KEY, row_PART_DBG, row_SEC_BOOT, row_SEC_OTP_GEN, row_SEC_BOOT_NONCE, row_HUB_RING_CMD, row_HUB_RING_CMD_PF, row_HUB_RING_CPL, row_HUB_RING_CPL_PF, row_HUB_RING_CTRL]
def regRows6 : List RegRow := [row_HUB_RING_CTRL_PF, row_HUB_RING_STAT, row_HUB_RING_STAT_PF, row_HUB_FW_STATUS, row_SEC_BOOT_CTRL, row_PART_APERTURE, row_ERR_LOG_STAT, row_ERR_LOST, row_ERR_MIRROR_BASE, row_ERR_MIRROR_CFG, row_ERR_MIRROR_TAIL, row_ERR_MIRROR_HEAD]
def regRows7 : List RegRow := [row_ERR_CTRL, row_ERR_FAILSAFE, row_ERR_FATAL, row_MC_BUSY, row_MC_STALL_STREAM, row_MC_STALL_ACC, row_MC_STALL_CRED, row_MC_STALL_PLANE, row_TC_ISSUED, row_TC_NOREADY, row_TC_BERTH_FULL, row_CL_XBAR_WAIT]
def regRows8 : List RegRow := [row_PM_OP, row_PM_THROT, row_PM_POWER, row_PM_CTRL, row_PM_IDLE_TIMER_STAND, row_PM_IDLE_TIMER_MOOR, row_PM_WAKE_TIMER, row_PM_PAD_RELEASE, row_PM_AUX_CFG, row_PM_CLAIM, row_PM_AON_SECONDS, row_PM_BROWNOUT]
def regRows9 : List RegRow := [row_PM_PPS, row_HUB_LAST_WAKE, row_HUB_RESET_CAUSE, row_PART_POUND, row_HUB_ID, row_CL_TASK_STATE, row_CL_TOK_LIMIT, row_CL_TOK_CNT, row_NUM_STEP_FLAGS, row_NUM_LS_CTRL, row_NUM_LS_STATE]
/-- Every register of the map (R644 to R647, R285, R558), but doorbells, MSI-X and the descriptor windows. -/
def regRows : List RegRow := regRows0 ++ regRows1 ++ regRows2 ++ regRows3 ++ regRows4 ++ regRows5 ++ regRows6 ++ regRows7 ++ regRows8 ++ regRows9

/-- Whether the offset `off` from the base of a row lies in one of its registers, and how far into it. -/
def inDims (size : Nat) : List (Nat × Nat) → Nat → Option Nat
  | [], off => if off < size then some off else none
  | (st, n) :: r, off => if off / st < n then inDims size r (off % st) else none

/-- The registers that the 32 bits at address `a` lie in, with the address of each register and its fields. -/
def regsAt (a : Nat) : List (Nat × List FldDesc) :=
  regRows.filterMap (fun r =>
    if r.base ≤ a then (inDims r.size r.dims (a - r.base)).map (fun o => (a - o, r.flds)) else none)

/-- The held field of a field description in the register at `a`. -/
def FldDesc.fld (d : FldDesc) (a : Nat) : Fld := Fld.at a d.lo d.len d.rst

end Sys2Proof.Machine
end

