-- ==== Sys2Proof/Machine/Float.lean ====
section
/-! DEFINITION. The arithmetic of 02_number_formats: element formats and their codes (R50 to R52), exact values,
rounding (R64 to R68), subnormals (R62, R63) and overflow (R66).  A value is exact until it is narrowed, and every
narrowing goes through `roundTo`. -/

namespace Sys2Proof.Machine

/-! ### Formats (R50, R52, R62) -/

/-- How a floating-point format spends its encodings of greatest exponent (R52). -/
inductive Specials where
  | ieee   -- infinities and NaNs, as FP32, BF16, FP16, E5M2 and XA have
  | e4m3   -- no infinity; only the two all-ones encodings are NaN
  | none   -- every encoding is a finite number: E3M2, E2M3, E2M1
deriving DecidableEq, Repr

/-- The parameters of a floating-point format (R52): widths of exponent and fraction, bias, specials, and whether
subnormals are flushed (R62). -/
structure Fmt where
  eb : Nat
  mb : Nat
  bias : Nat
  sp : Specials
  flush : Bool
deriving DecidableEq, Repr

def fmtFP32 : Fmt := ⟨8, 23, 127, .ieee, true⟩
def fmtBF16 : Fmt := ⟨8, 7, 127, .ieee, true⟩
def fmtFP16 : Fmt := ⟨5, 10, 15, .ieee, false⟩
def fmtE4M3 : Fmt := ⟨4, 3, 7, .e4m3, false⟩
def fmtE5M2 : Fmt := ⟨5, 2, 15, .ieee, false⟩
def fmtE3M2 : Fmt := ⟨3, 2, 3, .none, false⟩
def fmtE2M3 : Fmt := ⟨2, 3, 1, .none, false⟩
def fmtE2M1 : Fmt := ⟨2, 1, 1, .none, false⟩
def fmtXA : Fmt := ⟨11, 52, 1023, .ieee, true⟩

/-- Bits of an encoding. -/
def Fmt.width (f : Fmt) : Nat := 1 + f.eb + f.mb

/-- The exponent of the unit in the last place of a subnormal. -/
def Fmt.qmin (f : Fmt) : Int := 1 - Int.ofNat f.bias - Int.ofNat f.mb

/-- The encoding of the largest finite magnitude (R52). -/
def Fmt.maxBits (f : Fmt) : Nat :=
  match f.sp with
  | .ieee => (2 ^ f.eb - 1) * 2 ^ f.mb - 1
  | .e4m3 => 2 ^ (f.eb + f.mb) - 2
  | .none => 2 ^ (f.eb + f.mb) - 1

/-- The encoding of +∞; only formats with infinities use it. -/
def Fmt.infBits (f : Fmt) : Nat := (2 ^ f.eb - 1) * 2 ^ f.mb

/-- The sign bit of an encoding. -/
def Fmt.signBit (f : Fmt) : Nat := 2 ^ (f.eb + f.mb)

/-- The default NaN (R52): quiet, positive; the formats without NaN have none and give 0. -/
def Fmt.defaultNaN (f : Fmt) : Nat :=
  match f.sp with
  | .ieee => f.infBits + 2 ^ (f.mb - 1)
  | .e4m3 => 2 ^ (f.eb + f.mb) - 1
  | .none => 0

/-! ### Type codes (R50) -/

/-- The element types of R50 by code; code 0xF is reserved (R51). -/
inductive Ty where
  | fp32 | bf16 | fp16 | e4m3 | e5m2 | e3m2 | e2m3 | e2m1
  | int8 | uint8 | int16 | int32 | uint32 | int64 | xa
deriving DecidableEq, Repr

def Ty.ofCode : Nat → Option Ty
  | 0 => some .fp32 | 1 => some .bf16 | 2 => some .fp16 | 3 => some .e4m3 | 4 => some .e5m2
  | 5 => some .e3m2 | 6 => some .e2m3 | 7 => some .e2m1 | 8 => some .int8 | 9 => some .uint8
  | 10 => some .int16 | 11 => some .int32 | 12 => some .uint32 | 13 => some .int64 | 14 => some .xa
  | _ => none

def Ty.code : Ty → Nat
  | .fp32 => 0 | .bf16 => 1 | .fp16 => 2 | .e4m3 => 3 | .e5m2 => 4 | .e3m2 => 5 | .e2m3 => 6
  | .e2m1 => 7 | .int8 => 8 | .uint8 => 9 | .int16 => 10 | .int32 => 11 | .uint32 => 12
  | .int64 => 13 | .xa => 14

/-- Bits per element (R50). -/
def Ty.bits : Ty → Nat
  | .fp32 => 32 | .bf16 => 16 | .fp16 => 16 | .e4m3 => 8 | .e5m2 => 8 | .e3m2 => 6 | .e2m3 => 6
  | .e2m1 => 4 | .int8 => 8 | .uint8 => 8 | .int16 => 16 | .int32 => 32 | .uint32 => 32
  | .int64 => 64 | .xa => 64

/-- Bits an element takes in a vector register (R100): FP6 takes a byte. -/
def Ty.lane : Ty → Nat
  | .e3m2 => 8 | .e2m3 => 8 | t => t.bits

/-- Elements per vector register (R100). -/
def Ty.count (t : Ty) : Nat := 2048 / t.lane

/-- The floating-point format of a type, if it is one. -/
def Ty.fmt? : Ty → Option Fmt
  | .fp32 => some fmtFP32 | .bf16 => some fmtBF16 | .fp16 => some fmtFP16 | .e4m3 => some fmtE4M3
  | .e5m2 => some fmtE5M2 | .e3m2 => some fmtE3M2 | .e2m3 => some fmtE2M3 | .e2m1 => some fmtE2M1
  | .xa => some fmtXA | _ => none

/-- Whether an integer type is signed. -/
def Ty.isSigned : Ty → Bool
  | .uint8 => false | .uint32 => false | _ => true

def Ty.isInt (t : Ty) : Bool := t.fmt?.isNone

/-- Types that are always block-scaled (R50). -/
def Ty.alwaysScaled : Ty → Bool
  | .e3m2 => true | .e2m3 => true | .e2m1 => true | _ => false

def Ty.isFP8 (t : Ty) : Bool := t == .e4m3 || t == .e5m2

def Ty.isFP6 (t : Ty) : Bool := t == .e3m2 || t == .e2m3

/-- The groups of R182. -/
def Ty.inW (t : Ty) : Bool := t == .fp32 || t == .bf16 || t == .fp16
def Ty.inX (t : Ty) : Bool := t == .xa
def Ty.inN (t : Ty) : Bool := t.isFP8 || t.alwaysScaled
def Ty.inI (t : Ty) : Bool := t.isInt

/-! ### Flags (R78, R81) -/

/-- A flag set of 5 bits (R78). -/
abbrev Flags := BitVec 5

def flInvalid : Flags := 1
def flDivZero : Flags := 2
def flOverflow : Flags := 4
def flUnderflow : Flags := 8
def flInexact : Flags := 16

/-- The result of one numeric operation: its bits, its flags, its INVALID cause (R81: 0 none, 1 ZERO_TIMES_INF,
2 INF_MINUS_INF, 3 ZERO_DIV_ZERO, 4 INF_DIV_INF, 5 NEG_ROOT_LOG, 6 CONVERT_INT). -/
structure NRes where
  v : Nat
  fl : Flags
  cause : Nat
deriving DecidableEq, Repr

def NRes.ok (v : Nat) : NRes := ⟨v, 0, 0⟩

/-! ### Exact values -/

/-- A value: NaN, an infinity, or (−1)^neg · m · 2^e with its sign kept for zero. -/
inductive FVal where
  | nan
  | inf (neg : Bool)
  | fin (neg : Bool) (m : Nat) (e : Int)
deriving DecidableEq, Repr

def FVal.isNaN : FVal → Bool
  | .nan => true | _ => false

def FVal.isFinite : FVal → Bool
  | .fin _ _ _ => true | _ => false

def FVal.isZero : FVal → Bool
  | .fin _ m _ => m == 0 | _ => false

def FVal.neg : FVal → FVal
  | .nan => .nan
  | .inf n => .inf (!n)
  | .fin n m e => .fin (!n) m e

/-- The value of an encoding, with no flush. -/
def decodeRaw (f : Fmt) (b : Nat) : FVal :=
  let s := bit b (f.eb + f.mb)
  let x := bits b f.mb f.eb
  let m := bits b 0 f.mb
  let top := 2 ^ f.eb - 1
  let num : FVal :=
    if x = 0 then .fin s m f.qmin
    else .fin s (m + 2 ^ f.mb) (f.qmin + Int.ofNat x - 1)
  match f.sp with
  | .ieee => if x = top then (if m = 0 then .inf s else .nan) else num
  | .e4m3 => if x = top ∧ m = 2 ^ f.mb - 1 then .nan else num
  | .none => num

/-- Whether an encoding is a subnormal number. -/
def isSubnormal (f : Fmt) (b : Nat) : Bool := bits b f.mb f.eb == 0 && bits b 0 f.mb != 0

/-- An operand read as a number: BF16, FP32 and XA subnormals are flushed to a zero of their sign, with UNDERFLOW
(R62, R63). -/
def readNum (f : Fmt) (b : Nat) : FVal × Flags :=
  if f.flush && isSubnormal f b then (.fin (bit b (f.eb + f.mb)) 0 0, flUnderflow)
  else (decodeRaw f b, 0)

/-! ### Rounding (R64, R68) -/

/-- The rounding modes of R64. -/
inductive Rnd where
  | rne | rtz | rup | rdn | sr
deriving DecidableEq, Repr

def Rnd.ofCode : Nat → Option Rnd
  | 0 => some .rne | 1 => some .rtz | 2 => some .rup | 3 => some .rdn | 4 => some .sr | _ => none

/-- The magnitude `m · 2^e`, a little more where `st` (bits below that are not zero), rounded to a multiple of
`2^q`: the multiple, and whether it differs from the exact magnitude.  `draw` is the low 16 bits of the draw that
R68 names. -/
def roundAt (rnd : Rnd) (neg : Bool) (draw : Nat) (m : Nat) (e : Int) (st : Bool) (q : Int) : Nat × Bool :=
  if q ≤ e then (m * 2 ^ (e - q).toNat, st)
  else
    let k := (q - e).toNat
    let t := m >>> k
    let r := m % 2 ^ k
    let inexact := r != 0 || st
    let up : Bool :=
      match rnd with
      | .rne => decide (2 * r > 2 ^ k) || (decide (2 * r = 2 ^ k) && (st || t % 2 == 1))
      | .rtz => false
      | .rup => inexact && !neg
      | .rdn => inexact && neg
      | .sr => decide (draw % 65536 < (r * 65536) >>> k)
    (if up then t + 1 else t, inexact)

/-- The result of an overflow under R66. -/
def overflowBits (f : Fmt) (rnd : Rnd) (neg : Bool) : Nat :=
  let s := if neg then f.signBit else 0
  match f.sp with
  | .ieee =>
    match rnd with
    | .rne => f.infBits + s
    | .sr => f.infBits + s
    | .rtz => f.maxBits + s
    | .rup => if neg then f.maxBits + s else f.infBits
    | .rdn => if neg then f.infBits + s else f.maxBits
  | _ => f.maxBits + s

/-- A non-zero magnitude narrowed to a format (R63, R66): `clamp` is the block encode of R61, where a finite
overflow clamps with INEXACT only. -/
def roundTo (f : Fmt) (rnd : Rnd) (draw : Nat) (clamp : Bool) (neg : Bool) (m : Nat) (e : Int) (st : Bool) :
    Nat × Flags :=
  let s := if neg then f.signBit else 0
  if m = 0 then (s, 0)
  else
    let top : Int := Int.ofNat (Nat.log2 m) + e              -- floor log2 of the magnitude
    let q : Int := top - Int.ofNat f.mb
    let (r, ix) := roundAt rnd neg draw m e st q
    -- the magnitude r · 2^q, rounded with an unbounded exponent
    let (r, q) := if r = 2 ^ (f.mb + 1) then (2 ^ f.mb, q + 1) else (r, q)
    let ixf : Flags := if ix then flInexact else 0
    if q < f.qmin then                                        -- tiny after rounding (R63)
      if f.flush then (s, flUnderflow ||| flInexact)
      else
        let (r', ix') := roundAt rnd neg draw m e st f.qmin
        (s + r', if ix' then flUnderflow ||| flInexact else 0)
    else
      let code := (q - f.qmin).toNat * 2 ^ f.mb + r           -- exponent field above the fraction
      if f.maxBits < code then
        if clamp then (f.maxBits + s, flInexact)
        else (overflowBits f rnd neg, flOverflow ||| flInexact)
      else (code + s, ixf)

/-- A value narrowed to a format (R66): NaN gives the default NaN with no flag, an infinity follows the table of
R66, which leaves an infinity of a format that has one as it is. -/
def narrow (f : Fmt) (rnd : Rnd) (draw : Nat) (clamp : Bool) (v : FVal) (st : Bool) : NRes :=
  match v with
  | .nan => ⟨f.defaultNaN, 0, 0⟩
  | .inf n => ⟨overflowBits f rnd n, flOverflow ||| flInexact, 0⟩
  | .fin n m e => let (b, fl) := roundTo f rnd draw clamp n m e st; ⟨b, fl, 0⟩

/-- The encoding of a value that an operation produced, rounded to nearest even (R65): an infinity that the
operation gave as its exact result raises nothing. -/
def encodeRes (f : Fmt) (v : FVal) (st : Bool) : NRes :=
  match v with
  | .nan => ⟨f.defaultNaN, 0, 0⟩
  | .inf n => ⟨f.infBits + (if n then f.signBit else 0), 0, 0⟩
  | .fin n m e => let (b, fl) := roundTo f .rne 0 false n m e st; ⟨b, fl, 0⟩

/-! ### Exact operations -/

/-- The signed integer that `(−1)^n · m · 2^e` is, in units of `2^q` (`q ≤ e`). -/
def scaled (n : Bool) (m : Nat) (e q : Int) : Int :=
  let x := Int.ofNat (m * 2 ^ (e - q).toNat)
  if n then -x else x

/-- The exact sum of two values; the sum of infinities of opposite sign is INVALID (R80); an exact zero sum of
operands of opposite sign is +0 (R54; arithmetic rounds to nearest even, R65). -/
def addVal (a b : FVal) : FVal × Nat :=
  match a, b with
  | .nan, _ => (.nan, 0)
  | _, .nan => (.nan, 0)
  | .inf n, .inf n' => if n = n' then (.inf n, 0) else (.nan, 2)
  | .inf n, _ => (.inf n, 0)
  | _, .inf n => (.inf n, 0)
  | .fin n m e, .fin n' m' e' =>
    let q := if e ≤ e' then e else e'
    let x := scaled n m e q + scaled n' m' e' q
    if x = 0 then
      (.fin (n && n') 0 0, 0)
    else (.fin (decide (x < 0)) x.natAbs q, 0)

/-- The exact product of two values; 0 × ∞ is INVALID (R80). -/
def mulVal (a b : FVal) : FVal × Nat :=
  match a, b with
  | .nan, _ => (.nan, 0)
  | _, .nan => (.nan, 0)
  | .inf n, .inf n' => (.inf (n != n'), 0)
  | .inf n, .fin n' m _ => if m = 0 then (.nan, 1) else (.inf (n != n'), 0)
  | .fin n m _, .inf n' => if m = 0 then (.nan, 1) else (.inf (n != n'), 0)
  | .fin n m e, .fin n' m' e' => (.fin (n != n') (m * m') (e + e'), 0)

/-- An operation on values that may be INVALID, encoded in `f` with the flags of its inputs (R53: a NaN operand
raises nothing at all). -/
def finishOp (f : Fmt) (anyNaN : Bool) (inFl : Flags) (v : FVal) (cause : Nat) (st : Bool) : NRes :=
  if anyNaN then ⟨f.defaultNaN, 0, 0⟩
  else if cause ≠ 0 then ⟨f.defaultNaN, inFl ||| flInvalid, cause⟩
  else let r := encodeRes f v st; ⟨r.v, inFl ||| r.fl, 0⟩

/-- a + b (R80, R185). -/
def fAdd (f : Fmt) (a b : Nat) : NRes :=
  let (x, fx) := readNum f a
  let (y, fy) := readNum f b
  let (v, c) := addVal x y
  finishOp f (x.isNaN || y.isNaN) (fx ||| fy) v c false

/-- The encoding with its sign turned: the operand of a subtraction. -/
def flipSign (f : Fmt) (b : Nat) : Nat := if bit b (f.eb + f.mb) then b - f.signBit else b + f.signBit

/-- a − b. -/
def fSub (f : Fmt) (a b : Nat) : NRes := fAdd f a (flipSign f b)

/-- a × b. -/
def fMul (f : Fmt) (a b : Nat) : NRes :=
  let (x, fx) := readNum f a
  let (y, fy) := readNum f b
  let (v, c) := mulVal x y
  finishOp f (x.isNaN || y.isNaN) (fx ||| fy) v c false

/-- a × b + c with one rounding. -/
def fFma (f : Fmt) (a b c : Nat) : NRes :=
  let (x, fx) := readNum f a
  let (y, fy) := readNum f b
  let (z, fz) := readNum f c
  let (p, c1) := mulVal x y
  let (v, c2) := addVal p z
  finishOp f (x.isNaN || y.isNaN || z.isNaN) (fx ||| fy ||| fz) v (if c1 ≠ 0 then c1 else c2) false

/-- c − a × b with one rounding. -/
def fFnma (f : Fmt) (a b c : Nat) : NRes := fFma f (flipSign f a) b c

/-- Bits of quotient and root kept below the result's last place: any number that leaves a rounding unambiguous. -/
def guardBits : Nat := 70

/-- a ÷ b (R80). -/
def fDiv (f : Fmt) (a b : Nat) : NRes :=
  let (x, fx) := readNum f a
  let (y, fy) := readNum f b
  let nan := x.isNaN || y.isNaN
  match x, y with
  | .inf _, .inf _ => finishOp f nan (fx ||| fy) .nan 4 false
  | .inf n, .fin n' _ _ => finishOp f nan (fx ||| fy) (.inf (n != n')) 0 false
  | .fin n _ _, .inf n' => finishOp f nan (fx ||| fy) (.fin (n != n') 0 0) 0 false
  | .fin n m e, .fin n' m' e' =>
    if m' = 0 then
      if m = 0 then finishOp f nan (fx ||| fy) .nan 3 false
      else finishOp f nan (fx ||| fy ||| flDivZero) (.inf (n != n')) 0 false
    else
      let k := guardBits + bitLen m'
      let num := m * 2 ^ k
      finishOp f nan (fx ||| fy) (.fin (n != n') (num / m') (e - e' - Int.ofNat k)) 0 (num % m' != 0)
  | _, _ => finishOp f nan (fx ||| fy) .nan 0 false

/-- ⌊√x⌋, bit by bit from bit `k` down. -/
def isqrtFrom : Nat → Nat → Nat → Nat
  | 0, _, r => r
  | k + 1, x, r =>
    let r' := r + 2 ^ k
    isqrtFrom k x (if r' * r' ≤ x then r' else r)

/-- ⌊√x⌋. -/
def isqrt (x : Nat) : Nat := isqrtFrom (bitLen x / 2 + 1) x 0

/-- √a (R80, R186). -/
def fSqrt (f : Fmt) (a : Nat) : NRes :=
  let (x, fx) := readNum f a
  match x with
  | .nan => finishOp f true fx .nan 0 false
  | .inf true => finishOp f false fx .nan 5 false
  | .inf false => finishOp f false fx (.inf false) 0 false
  | .fin n m e =>
    if m = 0 then finishOp f false fx (.fin n 0 0) 0 false
    else if n then finishOp f false fx .nan 5 false
    else
      let k : Int := 2 * Int.ofNat guardBits
      let k := if (e - k) % 2 = 0 then k else k + 1
      let x' := m * 2 ^ k.toNat
      let r := isqrt x'
      finishOp f false fx (.fin false r ((e - k) / 2)) 0 (r * r != x')

/-- 1 ÷ √a, rounded once (R185, R186, R80). -/
def fRsqrt (f : Fmt) (a : Nat) : NRes :=
  let (x, fx) := readNum f a
  match x with
  | .nan => finishOp f true fx .nan 0 false
  | .inf true => finishOp f false fx .nan 5 false
  | .inf false => finishOp f false fx (.fin false 0 0) 0 false
  | .fin n m e =>
    if m = 0 then finishOp f false (fx ||| flDivZero) (.inf n) 0 false
    else if n then finishOp f false fx .nan 5 false
    else
      -- 1/√(m·2^e) = √(2^(2k)/m) · 2^(−k−e/2), with e made even
      let (m, e) := if e % 2 = 0 then (m, e) else (2 * m, e - 1)
      let k := guardBits + bitLen m
      let num := 2 ^ (2 * k)
      let r := isqrt (num / m)
      finishOp f false fx (.fin false r (-(e / 2) - Int.ofNat k)) 0 (r * r * m != num)

/-! ### exp and ln, correctly rounded (R185)

Both are computed in fixed point with 320 bits below the binary point.  The exact result of a rational argument
other than 0 (exp) or 1 (ln) is irrational, so it is never a tie, and no FP32, BF16 or FP16 argument has a result
within 2^-200 of one (assumption 11): the rounding of the fixed-point value, marked inexact, is the correct one. -/

def fxBits : Nat := 320
def fxOne : Int := Int.ofNat (2 ^ fxBits)

def fxMul (a b : Int) : Int := a * b / fxOne

/-- Σ of t^(2i+1)/(2i+1), from the term `p` = t^(2i+1) on. -/
def atanhSum : Nat → Int → Int → Nat → Int → Int
  | 0, _, _, _, acc => acc
  | n + 1, p, t2, i, acc => atanhSum n (fxMul p t2) t2 (i + 2) (acc + p / Int.ofNat i)

/-- ln((1+t)/(1−t)) for |t| ≤ 1/3. -/
def lnRatio (t : Int) : Int := 2 * atanhSum 120 t (fxMul t t) 1 0

/-- ln 2 = ln((1+1/3)/(1−1/3)). -/
def fxLn2 : Int := lnRatio (fxOne / 3)

/-- Σ of r^i/i!, from the term `p` on. -/
def expSum : Nat → Int → Int → Nat → Int → Int
  | 0, _, _, _, acc => acc
  | n + 1, p, r, i, acc => expSum n (fxMul p r / Int.ofNat i) r (i + 1) (acc + p)

/-- m · 2^e in fixed point, truncated (the arguments of both functions have no bits below 2^-149). -/
def toFx (m : Nat) (e : Int) : Int :=
  let k := e + Int.ofNat fxBits
  if 0 ≤ k then Int.ofNat (m * 2 ^ k.toNat) else Int.ofNat (m / 2 ^ (-k).toNat)

/-- eᵃ (R186). -/
def fExp (f : Fmt) (a : Nat) : NRes :=
  let (x, fx) := readNum f a
  match x with
  | .nan => finishOp f true fx .nan 0 false
  | .inf true => finishOp f false fx (.fin false 0 0) 0 false
  | .inf false => finishOp f false fx (.inf false) 0 false
  | .fin n m e =>
    if m = 0 then finishOp f false fx (.fin false 1 0) 0 false
    else
      let big := decide (Int.ofNat (bitLen m) + e > 9)      -- |a| ≥ 256: far beyond every format's range
      if big then finishOp f false fx (.fin false 1 (if n then -100000 else 100000)) 0 true
      else
        let v := if n then -(toFx m e) else toFx m e
        let k := v / fxLn2
        let r := v - k * fxLn2
        let y := expSum 100 fxOne r 1 0
        finishOp f false fx (.fin false y.toNat (k - Int.ofNat fxBits)) 0 true

/-- ln a (R186, R80). -/
def fLog (f : Fmt) (a : Nat) : NRes :=
  let (x, fx) := readNum f a
  match x with
  | .nan => finishOp f true fx .nan 0 false
  | .inf true => finishOp f false fx .nan 5 false
  | .inf false => finishOp f false fx (.inf false) 0 false
  | .fin n m e =>
    if m = 0 then finishOp f false (fx ||| flDivZero) (.inf true) 0 false
    else if n then finishOp f false fx .nan 5 false
    else
      let l := Nat.log2 m
      let k := e + Int.ofNat l
      if k = 0 ∧ m = 2 ^ l then finishOp f false fx (.fin false 0 0) 0 false
      else
        let g := Int.ofNat (m * 2 ^ fxBits) / Int.ofNat (2 ^ l)   -- in [1, 2)
        let t := (g - fxOne) * fxOne / (g + fxOne)
        let y := k * fxLn2 + lnRatio t
        finishOp f false fx (.fin (decide (y < 0)) y.natAbs (-Int.ofNat fxBits)) 0 true

/-! ### Comparison, selection, sign (R186 to R188) -/

/-- The order of two non-NaN values: −1, 0 or 1; −0 equals +0. -/
def cmpVal (a b : FVal) : Int :=
  match a, b with
  | .inf n, .inf n' => if n = n' then 0 else if n then -1 else 1
  | .inf n, _ => if n then -1 else 1
  | _, .inf n => if n then 1 else -1
  | .fin n m e, .fin n' m' e' =>
    let q := if e ≤ e' then e else e'
    let x := scaled n m e q
    let y := scaled n' m' e' q
    if x < y then -1 else if x = y then 0 else 1
  | _, _ => 0

def FVal.isNeg : FVal → Bool
  | .nan => false
  | .inf n => n
  | .fin n _ _ => n

/-- Whether `a` ranks above `b` (R187: +0 above −0). -/
def rankAbove (a b : FVal) : Bool :=
  let c := cmpVal a b
  if c = 0 then b.isNeg && !a.isNeg else decide (0 < c)

/-- The encoding of a value read from the same format, after its flush. -/
def reEncode (f : Fmt) (b : Nat) : Nat :=
  if f.flush && isSubnormal f b then b / 2 ^ (f.eb + f.mb) * 2 ^ (f.eb + f.mb) else b

/-- max or min of two elements (R187, R53). -/
def fMaxMin (wantMax : Bool) (f : Fmt) (a b : Nat) : NRes :=
  let (x, fx) := readNum f a
  let (y, fy) := readNum f b
  if x.isNaN || y.isNaN then ⟨f.defaultNaN, 0, 0⟩
  else
    let aWins := if wantMax then !rankAbove y x else !rankAbove x y
    ⟨reEncode f (if aWins then a else b), fx ||| fy, 0⟩

def fMax := fMaxMin true
def fMin := fMaxMin false

/-- min(max(a, b), c). -/
def fClamp (f : Fmt) (a b c : Nat) : NRes :=
  let (x, fx) := readNum f a
  let (y, fy) := readNum f b
  let (z, fz) := readNum f c
  if x.isNaN || y.isNaN || z.isNaN then ⟨f.defaultNaN, 0, 0⟩
  else ⟨(fMin f (fMax f a b).v c).v, fx ||| fy ||| fz, 0⟩

/-- |a| and −a; a NaN gives the default NaN (R53), a subnormal is flushed (R63). -/
def fAbs (f : Fmt) (a : Nat) : NRes :=
  let (x, fx) := readNum f a
  if x.isNaN then ⟨f.defaultNaN, 0, 0⟩ else ⟨reEncode f a % f.signBit, fx, 0⟩

def fNeg (f : Fmt) (a : Nat) : NRes :=
  let (x, fx) := readNum f a
  if x.isNaN then ⟨f.defaultNaN, 0, 0⟩ else ⟨flipSign f (reEncode f a), fx, 0⟩

/-- −1, ±0 or +1 by the sign of a (R186). -/
def fSign (f : Fmt) (a : Nat) : NRes :=
  let (x, fx) := readNum f a
  match x with
  | .nan => ⟨f.defaultNaN, 0, 0⟩
  | .inf n => ⟨(encodeRes f (.fin n 1 0) false).v, fx, 0⟩
  | .fin n m _ => ⟨(encodeRes f (.fin n (if m = 0 then 0 else 1) 0) false).v, fx, 0⟩

/-- The comparisons of R188 and CSEL (R442). -/
inductive Cmp where
  | eq | ne | lt | le | gt | ge
deriving DecidableEq, Repr

def Cmp.holds (c : Cmp) (o : Int) : Bool :=
  match c with
  | .eq => o == 0 | .ne => o != 0 | .lt => decide (o < 0) | .le => decide (o ≤ 0)
  | .gt => decide (0 < o) | .ge => decide (0 ≤ o)

/-- A comparison and the flags of its flushes: with a NaN it is false, but for ≠ (R188). -/
def fCmp (c : Cmp) (f : Fmt) (a b : Nat) : Bool × Flags :=
  let (x, fx) := readNum f a
  let (y, fy) := readNum f b
  if x.isNaN || y.isNaN then (c == .ne, 0) else (c.holds (cmpVal x y), fx ||| fy)

/-! ### Conversion (R66, R67) -/

/-- The integer range of a type. -/
def Ty.intMin (t : Ty) : Int := if t.isSigned then -Int.ofNat (2 ^ (t.bits - 1)) else 0
def Ty.intMax (t : Ty) : Int :=
  if t.isSigned then Int.ofNat (2 ^ (t.bits - 1)) - 1 else Int.ofNat (2 ^ t.bits) - 1

/-- The integer that an encoding of an integer type is. -/
def Ty.readInt (t : Ty) (b : Nat) : Int :=
  if t.isSigned then signed t.bits b else Int.ofNat (b % 2 ^ t.bits)

/-- An integer saturated to a type's range, with INVALID (CONVERT_INT) where it does not fit. -/
def satInt (t : Ty) (i : Int) (fl : Flags) : NRes :=
  if i < t.intMin then ⟨wrapInt t.bits t.intMin, flInvalid, 6⟩
  else if t.intMax < i then ⟨wrapInt t.bits t.intMax, flInvalid, 6⟩
  else ⟨wrapInt t.bits i, fl, 0⟩

/-- A value converted to an integer type (R67). -/
def valToInt (t : Ty) (rnd : Rnd) (draw : Nat) (v : FVal) : NRes :=
  match v with
  | .nan => ⟨0, flInvalid, 6⟩
  | .inf n => satInt t (if n then t.intMin - 1 else t.intMax + 1) 0
  | .fin n m e =>
    let (r, ix) := roundAt rnd n draw m e false 0
    satInt t (if n then -Int.ofNat r else Int.ofNat r) (if ix then flInexact else 0)

/-- An integer converted to a format (R67). -/
def intToFmt (f : Fmt) (rnd : Rnd) (draw : Nat) (clamp : Bool) (i : Int) : NRes :=
  narrow f rnd draw clamp (.fin (decide (i < 0)) i.natAbs 0) false

/-- Exact widening of a value of one format to a wider one: only a flush can raise a flag (R63). -/
def widen (src dst : Fmt) (b : Nat) : NRes :=
  let (x, fx) := readNum src b
  match x with
  | .nan => ⟨dst.defaultNaN, 0, 0⟩
  | v => ⟨(encodeRes dst v false).v, fx, 0⟩

/-- 2^i as a value. -/
def pow2Val (i : Int) : FVal := .fin false 1 i

/-- A value multiplied by 2^i: only its exponent changes. -/
def scaleVal (v : FVal) (i : Int) : FVal :=
  match v with
  | .fin n m e => .fin n m (e + i)
  | x => x

end Sys2Proof.Machine
end

