-- ==== Sys2Proof/Machine/State.lean ====
section
/-! DEFINITION. The state of the DG1 as plain data, in groups, and the state right after reset.  Arrays of units are
sparse tables (Machine/Bits): an entry that is not listed holds its reset value.  Unit numbers: core 20 c + k, thread
key 16 core + thread, matrix core by its core number, stack address key s · 2^36 + A. -/

namespace Sys2Proof.Machine

/-- Why the machine stops.  No behaviour of the hardware ends in a stop. -/
inductive Fault where
  /-- Raised by a command whose operands cannot occur on the hardware: a thread that its core does not have (03 R118),
  a frame whose length is not that of its header (11 R385).  Safe: the hardware never meets it. -/
  | impossible (what : String)
deriving DecidableEq, Repr

/-- Why a command is refused. -/
inductive Refusal where
  /-- Raised by the dispatch of a command that this model does not describe yet.  Safe. -/
  | notModelled (mnemonic : String)
deriving DecidableEq, Repr

/-! ### Cores (03) -/

/-- The register files of 03 R98. -/
inductive RFile where
  | s | v | m | t | q
deriving DecidableEq, Repr

/-- What a thread waits for, once its instruction has issued. -/
inductive Wait where
  /-- WAITC (R132): counter, count, destination. -/
  | counter (ch need dst : Nat)
  /-- BWAIT (R134): channel, generation. -/
  | barrier (ch gen : Nat)
  /-- VTAKE (05 R203): matrix core, tile register, own-memory offset. -/
  | take (mc dst off : Nat)
  /-- SIG (01 R36): the token held for release. -/
  | release (tok : Word)
  /-- FENCE (R131). -/
  | fence
  /-- The result word of an operation (07 R263): its number. -/
  | result (xfer : Nat)
  /-- SCLOSE (R126): the stream. -/
  | close (q : Nat)
  /-- Bank-wait (08 R294): the bank. -/
  | bank (key : Nat)
deriving DecidableEq, Repr

/-- The status of a thread. -/
inductive TStat where
  | ended
  | running
  | waiting (w : Wait)
deriving DecidableEq, Repr

/-- A fault as it is found (R138): code, DETAIL, the element that raises it with its lane, ADDRESS. -/
structure FInfo where
  code : Nat
  detail : Nat
  elem : Option (Nat × Nat)
  addr : Nat
deriving DecidableEq, Repr

/-- A piece of a register filled from memory: bits [pos + len − 1 : pos] come from the `len` bits at bit `sh` of the
`nb` bytes at `key`. -/
structure Piece where
  pos : Nat
  len : Nat
  key : Nat
  sh : Nat
  nb : Nat
deriving DecidableEq, Repr

/-- Where data that lands goes. -/
inductive Land where
  | none
  /-- To bytes of a memory, by key. -/
  | mem (key : Nat)
deriving DecidableEq, Repr

/-- An element of a stream chunk that could not be fetched (R129): element, fault code, address. -/
structure EFault where
  elem : Nat
  code : Nat
  addr : Nat
deriving DecidableEq, Repr

/-- What happens when the last request of an operation has landed or been accepted. -/
inductive XAct where
  /-- A scalar load (R112). -/
  | ld (dst : Nat) (ty : Ty) (key : Nat)
  /-- A vector load (05 R190): the register and the pieces that fill it. -/
  | vec (dst : Nat) (pieces : List Piece)
  /-- A store. -/
  | store
  /-- A chunk of a read stream (R127): stream, chunk, the pieces of its elements, those of its scale bytes, and the
  elements that failed. -/
  | chunk (q n : Nat) (pieces scales : List Piece) (bad : List EFault)
  /-- A chunk of a write stream (R128). -/
  | wchunk (q : Nat)
  /-- An instruction whose result word is written when its reads have landed (07 R263, 09 R313, 10 R354): the
  register, the word, and the 64-byte units of the dependent reads still to come, one after another (07 R267). -/
  | result (dst : Nat) (word : Nat) (later : List (List Nat))
  /-- A list gather into a stream (09 R329): the register, the result word so far, matrix core, stream, bytes of a
  row, and the rows whose requests wait for credit (09 R330), each with the keys of its bytes. -/
  | feed (dst word mc q rowBytes : Nat) (waiting : List (Nat × List Nat))
  /-- One row of such a gather: the gather, matrix core, stream, row, bytes of a row, the keys of its bytes (none: a
  row of zeros). -/
  | feedRow (master mc q row rowBytes : Nat) (keys : List Nat)
  /-- One row of a list gather into memory: the gather (a `feed` with no rows waiting), the key it lands at, its pitch,
  the keys of its bytes. -/
  | gathRow (master key pitch : Nat) (keys : List Nat)
  /-- The write of one such row to shared memory. -/
  | gathPut (master : Nat)
deriving DecidableEq, Repr

/-- An operation in flight: the thread that issued it (16 + q for a stream), the registers it will write (R104),
whether a FENCE waits for it, its requests not yet landed, the bytes that have arrived. -/
structure Xfer where
  id : Nat
  core : Nat
  thread : Nat
  isStore : Bool
  dests : List (RFile × Nat)
  todo : Nat
  act : XAct
  got : Mem
  /-- Own-memory or shared bytes that are written when it completes. -/
  late : List (Nat × Byte)
  /-- Numeric flags ORed when it completes. -/
  fl : Flags
deriving DecidableEq, Repr

/-- Where a request stands: waiting for a berth, waiting with its thread parked (08 R294), queued at its arbiter, granted. -/
inductive RStat where
  | held | parked | queued | granted
deriving DecidableEq, Repr

/-- What a request is for: an operation of a core; an access whose unit has taken its effect at its own event (assumption
20); a command of a base engine (08 R40), the patrol scrub (R283), the key-rotation sweep of a partition (16 R529). -/
inductive RFor where
  | core
  | unit
  | base (cmd : Nat)
  | scrub
  | sweep (part : Nat)
deriving DecidableEq, Repr

/-- A request to a pseudo-channel or a shared-memory bank: operation, core (800 and above: a unit that is no core, a base
engine by 800 + its global number), arbiter instance, requester (08 R286, 01 R24), memory key of its region, the bursts
not yet served, its bytes by key (those of a read filled as they are served), bank key, row, time of arrival in base cycles
once it has a place in the queue of 64 (R296), the base cycle at which its last data is out (R272). -/
structure Req where
  id : Nat
  xfer : Nat
  core : Nat
  stream : Bool
  inst : Nat
  rqr : Nat
  key : Nat
  left : List Nat
  data : List (Nat × Byte)
  write : Bool
  bank : Nat
  row : Nat
  arrived : Option Nat
  ready : Nat
  stat : RStat
  land : Land
  use : RFor
deriving DecidableEq, Repr

/-- A chunk in a stream buffer: its number, its 2,048 bits of elements, its scale bytes, its failed elements. -/
structure Chunk where
  n : Nat
  bits : VWord
  scales : List Nat
  bad : List EFault
deriving DecidableEq, Repr

/-- A row of a KIND 4 or KIND 5 stream that has been supplied (09 R331): row, bytes, or the failure of its group. -/
structure FedRow where
  row : Nat
  bytes : List Byte
  bad : Nat
deriving DecidableEq, Repr

/-- A stream register (R123 to R130). -/
structure Stream where
  isOpen : Bool
  desc : List Byte
  /-- Chunks requested, consumed, and free credits. -/
  requested : Nat
  consumed : Nat
  credits : Nat
  landed : List Chunk
  /-- Rows the array has taken (04 R153). -/
  rowsTaken : Nat
  fed : List FedRow
  /-- KIND 5: the next group, and the groups' flags not yet delivered: last row, flags. -/
  group : Nat
  gflags : List (Nat × Flags)
  /-- Write streams: chunks written. -/
  written : Nat
  /-- KIND 4: chunks consumed since the last credit token. -/
  unreturned : Nat
  /-- SCLOSE has begun (R126). -/
  closing : Bool
  /-- KIND 6: the K that the rows were laid out for, 0 until an instruction names the stream (04 R157). -/
  k : Nat
deriving DecidableEq, Repr

def Stream.closed : Stream := ⟨false, [], 0, 0, 0, [], 0, [], 0, [], 0, 0, false, 0⟩

/-- The cores' registers and threads. -/
structure CoreSt where
  sregs : Tab Word
  mregs : Tab MWord
  vregs : Tab VWord
  thandles : Tab Word
  pcs : Tab Nat
  tflags : Tab Flags
  tstat : Tab TStat
  /-- The task descriptor window (R118), by 256 core + offset, and the descriptor of the running task. -/
  window : Mem
  task : Mem
  streams : Tab Stream
  /-- Threads that wait on a counter, in the order in which they began (R133): thread keys. -/
  counterWait : List Nat
  /-- Threads in bank-wait, in the order in which they parked (08 R294). -/
  parked : List Nat
  /-- Threads that wait for a barge, in order. -/
  takeWait : List Nat
  /-- Last fault record of each core (18 R597) and its further faults. -/
  lastFault : Tab (List Byte)
  /-- Predicted MXMs numbered so far, by 64 core + layer (06 R230). -/
  predN : Tab Nat
  /-- Feeder counts (09 R330): (feeder core, 16 matrix core + stream, chunks consumed). -/
  feeders : List (Nat × Nat × Nat)
  /-- Read replies received (01 R32). -/
  replies : List Word
  /-- Cycles of each cluster island since it left reset (R109 item 7). -/
  cycles : Tab Nat
  /-- The thread of a core that issued last, the instructions it has issued in a row and the place of the last of them
  (R106), and the threads whose next instruction has been found to wait (thread keys). -/
  last : Tab (Nat × Nat × Nat)
  blocked : List Nat
  /-- Threads whose next instruction waits for a free berth (thread keys), and the word that the thread of a matrix core waits to issue:
  what the counters of 18 R600 tell apart. -/
  berthWait : List Nat
  waitWord : Tab Word
  /-- Signals that a task which has left RUNNING had issued and whose thread's earlier stores are not all accepted (R137, 01 R36):
  thread key, token. -/
  lastSigs : List (Nat × Word)
  /-- Tasks launched so far on a core: which launch an operation of the matrix engine belongs to (02 R87). -/
  launches : Tab Nat
  /-- The threads of a task that debug has halted, by core, as they stood (16 R553, assumption 158). -/
  debugStop : Tab (List (Nat × TStat))
deriving DecidableEq, Repr

/-! ### Matrix cores (04) -/

/-- An operand element: its code and its scale byte (127 where unscaled); none is padding (R151). -/
abbrev OpEl := Option (Nat × Nat)

/-- An operand of the array: type, K, rows. -/
structure Operand where
  ty : Ty
  k : Nat
  rows : List (List OpEl)
deriving DecidableEq, Repr

/-- What a plane holds (R143). -/
inductive Plane where
  | empty
  | loading (ty : Ty) (k : Nat)
  | full (o : Operand)
  | totals (rows : List (List Nat))
deriving DecidableEq, Repr

inductive TileSt where
  | opened | closed | posted | taken
deriving DecidableEq, Repr

/-- An accumulator tile in use (R161): matrix core, handle as opened, state, instructions so far, OS plane, the status
record so far (02 R83: flags, cause and place of the first INVALID, counts), whether masked, barge, holder. -/
structure Tile where
  mc : Nat
  handle : Nat
  st : TileSt
  count : Nat
  osPlane : Option Nat
  fl : Flags
  cause : Nat
  firstAt : Option (Nat × Nat × Nat)
  zti : Nat
  infSub : Nat
  ovf : Nat
  unf : Nat
  masked : Bool
  /-- The barge of a posted tile (R168), and the core that took it. -/
  barge : List Byte
  taker : Nat
deriving DecidableEq, Repr

/-- A source of operand rows: a tile (captured when it enters the array), or a stream. -/
inductive Src where
  | tile (handle : Nat) (headered : Bool)
  | stream (q : Nat)
  | none
deriving DecidableEq, Repr

/-- An MXM in the engine (R173, R174): word, thread's pc, the task that issued it (its launch, TASK_ID, STEP and virtual
slot), K, mode, sources, mask (none for m0), audit, whether started, rows taken from each streaming source, plane operand
captured at the start. -/
structure Mxm where
  id : Nat
  mc : Nat
  word : Word
  pc : Nat
  launch : Nat
  task : Nat
  step : Nat
  vslot : Nat
  k : Nat
  tyA : Ty
  tyB : Ty
  srcA : Src
  srcB : Src
  mask : Option MWord
  /-- Predicted for a layer and audited (06 R230). -/
  audit : Option Nat
  handles : List Nat
  started : Bool
  rowsA : List (List OpEl)
  rowsB : List (List OpEl)
  plane : Option Operand
  /-- A fault found after issue (R176): code, DETAIL, address; and how many more of its elements have failed. -/
  bad : Option FInfo
  extra : Nat
  computed : Bool
  toPost : List Nat
deriving DecidableEq, Repr

/-- A plane load (R147). -/
structure Mldp where
  id : Nat
  mc : Nat
  word : Word
  pc : Nat
  plane : Nat
  ty : Ty
  k : Nat
  src : Src
  started : Bool
  rows : List (List OpEl)
  bad : Option FInfo
  extra : Nat
deriving DecidableEq, Repr

structure MxSt where
  planes : Tab Plane
  tiles : List Tile
  mxms : List Mxm
  mldps : List Mldp
  /-- Barge credits held and the next SEQ, by core (R168, R170). -/
  credits : Tab Nat
  seqs : Tab Nat
  /-- Tile registers (32 core + register) that hold the handle of a taken barge, and those that hold a copy of one
  released since (05 R205). -/
  takenRegs : List Nat
  staleRegs : List Nat
  /-- Matrix cores whose task has left RUNNING and whose started operations have not all completed (R177). -/
  stopping : List Nat
deriving DecidableEq, Repr

/-! ### Memories, stacks and arbiters (01, 08) -/

/-- A translation held by a cluster (01 R48): cluster, virtual page, 1 GiB, device physical base, writable. -/
structure TcEnt where
  cl : Nat
  vbase : Nat
  big : Bool
  phys : Nat
  w : Bool
deriving DecidableEq, Repr

/-- A bank (08 R272 to R275), times in base cycles of its pseudo-channel: open row, last activate, last access, end
of the refresh. -/
structure Bank where
  row : Option Nat
  act : Nat
  used : Nat
  refEnd : Nat
deriving DecidableEq, Repr

def Bank.idle : Bank := ⟨none, 0, 0, 0⟩

/-- A hot-tracker entry (08 R276). -/
structure Hot where
  burst : Nat
  count : Nat
  since : Nat
deriving DecidableEq, Repr

/-- A hold (08 R291): requester, rounds held, the operation and 256-byte region. -/
structure Hold where
  rqr : Nat
  len : Nat
  xfer : Nat
  region : Nat
deriving DecidableEq, Repr

structure MemSt where
  /-- Every memory, by key (Machine/Ops). -/
  mem : Mem
  xfers : List Xfer
  reqs : List Req
  nextId : Nat
  tcache : List TcEnt
  /-- Sampler cache: (cluster, graph · 16384 + slot) (07 R238). -/
  scache : List (Nat × Nat)
  /-- Descriptor cache: (cluster, table) (10 R348). -/
  dcache : List (Nat × Nat)
  /-- Bad symbols of codewords, a mask by burst key (08 R279). -/
  errs : Tab Nat
  banks : Tab Bank
  /-- Staged bursts, least recently used first (08 R276), and the hot trackers, by stack. -/
  staged : List Nat
  hot : List Hot
  /-- Latencies of the last completed reads, the newest first, by pseudo-channel; banks marked slow (R295). -/
  lats : Tab (List Nat)
  slow : List Nat
  /-- Generation bits by stack page key, sweep map bits by burst key of the page being swept (16 R527), and the burst
  that each stack's sweep rewrites next. -/
  gen : Tab Bool
  sweepMap : Tab Bool
  sweepAt : Tab Nat
  sweepEnd : List Nat
  /-- The patrol scrub of each stack: codewords read in this pass, and the time at which the pass began (R283). -/
  scrubAt : Tab Nat
  scrubFrom : Tab Nat
  /-- Arbiters (08 R288, R291): rounds, ages, slots in force (owner + 16 when valid), commits pending, holds,
  penalties' ends, last overdue and background winners, whose turn it is among the units of a shared port (01 R25). -/
  rounds : Tab Nat
  ages : Tab Nat
  slots : Tab Nat
  commitP : List Nat
  holds : List (Nat × Hold)
  penalty : Tab Nat
  lastOver : Tab Nat
  lastBg : Tab Nat
  turns : Tab Nat
deriving DecidableEq, Repr

/-! ### Steps (12 to 14) -/

/-- An undo journal entry (13 R461, R462): partition, site, section of its region, step, entry number, virtual address, the saved
bytes by key. -/
structure JEnt where
  part : Nat
  site : Nat
  sec : Nat
  step : Nat
  seq : Nat
  va : Nat
  cells : List (Nat × Byte)
deriving DecidableEq, Repr

/-! ### Base engines (08 R298 to R307) -/

/-- The header of a base command (R300); `bad` says that it holds a reserved encoding of its own. -/
structure BHdr where
  op : Nat
  poolOp : Nat
  table : Nat
  outType : Nat
  rnd : Nat
  gtype : Nat
  prog : Nat
  nidx : Nat
  nseg : Nat
  tensor : Nat
  vslot : Nat
  step : Nat
  dest : Nat
  destOff : Nat
  statusOff : Nat
  channel : Nat
  bad : Bool
deriving DecidableEq, Repr

/-- The payload of a base command: row numbers, weights, segment ends, gradient rows; `bad` where a part lies past its
memory (09 R322, R334). -/
structure BPay where
  idx : List Nat
  ws : List Nat
  ends : List Nat
  grads : List Byte
  bad : Bool
deriving DecidableEq, Repr

/-- What a command that has run leaves for its completion: STATUS, invalid indices, numeric flags, result rows. -/
structure BDone where
  status : Nat
  invalid : Nat
  fl : Flags
  rows : List (List Byte)
deriving DecidableEq, Repr

/-- A base command in progress: stack, requester (thread 16 + q for a stream's, 32 once its task is gone), offset of
its header in the requester's local memory, header, the stream that takes its rows with the first row, the payload of
such a stream's group or as the engine has read it, what it has asked for at the arbiters (01 R40: 0 nothing, 1 its reads, 2 the
tables of a ROW_UPDATE, 3 the entries of the journal, 4 the rows that it writes), the place of its journal entries, what it has
done.  `dead`: it met an uncorrectable error and never completes (R284). -/
structure BCmd where
  id : Nat
  stack : Nat
  core : Nat
  thread : Nat
  off : Nat
  hdr : BHdr
  stream : Option (Nat × Nat)
  pay : Option BPay
  asked : Nat
  jnl : Nat
  done : Option BDone
  dead : Bool
deriving DecidableEq, Repr

structure BaseSt where
  cmds : List BCmd
  nextId : Nat
  journal : List JEnt
  /-- Where the next entry of a region goes, by region (13 R464): a key of the pound. -/
  jnlAt : Tab Nat
  /-- TDELTA of each partition's step (14 R487), and the partitions whose step had a ROW_UPDATE rejected for journal
  space (13 R464). -/
  tdelta : Tab Nat
  jnlFail : List Nat
  /-- Row parts counted this step, by 64 stack + table slot (10 R371). -/
  loadN : Tab Nat
  /-- Rows whose records the step has updated (10 R372): partition, table, row. -/
  touched : List (Nat × Nat × Nat)
deriving DecidableEq, Repr

/-! ### Towpath and errors (01, 18) -/

/-- A report (18 R584, R585). -/
structure Report where
  detail : Nat
  cls : Nat
  src : Nat
  arg : Nat
  part : Option Nat
deriving DecidableEq, Repr

/-- A log entry (18 R586); `windowOpen` and `mirrored` say where it stands. -/
structure LogEnt where
  time : Nat
  rep : Report
  count : Nat
  seq : Nat
  last : Nat
  windowOpen : Bool
  mirrored : Bool
deriving DecidableEq, Repr

/-- How a read of a function, of SMBus, of a control token or of debug completes (17 R560, 18 R592, 21 R667), and how a write on SMBus
does: acknowledged or not (21 R668). -/
inductive Answer where
  | data (b : List Byte)
  | completerAbort
  | unsupported
  | ack
  | nak
deriving DecidableEq, Repr

structure ErrSt where
  /-- Tokens sent and not yet delivered, in order (01 R34). -/
  toks : List Word
  /-- Signals of port engine groups whose writes have not all been accepted (01 R36). -/
  heldToks : List Word
  intake : List Report
  log : List LogEnt
  /-- The hub's fault ring: records by index, and the number written (18 R585). -/
  faultRing : Tab (List Byte)
  faultN : Nat
  /-- The records whose notices have not arrived (03 R139, 18 R585): core, ring index, fault code. -/
  notices : List (Nat × Nat × Nat)
  /-- Writes held of registers wider than 64 bits (20 R639), by address. -/
  heldWords : Tab Nat
  /-- Values of ROQ fields at the last 1 ms tick (16 R555). -/
  roq : Tab Nat
  /-- Counters of units that are no cores, by 2^13 node + 2^8 unit + channel (01 R35), and the barrier tokens that have
  reached units: arrivals, and releases at units that are no cores (01 R32). -/
  unitCnt : Tab Nat
  arrivals : List Word
  /-- The answers of reads: BAR2 reads, SMBus reads, control reads, in order. -/
  answers : List Answer
deriving DecidableEq, Repr

/-! ### Laniac (11).  Lambda 128 · plane + k: plane 0 the reach, 1 the flight -/

/-- A frame that waits to be sent (R391): requester (R392; 100 + c for class 2 from cluster c), partition (none for fabric
management), destination, type, data before protection; `wire` its bytes without link fields once they are fixed
(header bytes 0x0 to 0x7, then the payload); `lam` the lambda of a frame that is bound to one; `owner` the share its
credits come from (0 to 7 a partition, 8 management, 9 transit); `bnc` its BNC bit; `free` the lambda, class and number
of credits freed when it goes. -/
structure FOut where
  rqr : Nat
  part : Option Nat
  dst : Nat
  typ : Nat
  data : List Byte
  wire : Option (List Byte)
  lam : Option Nat
  owner : Nat
  bnc : Bool
  free : Option (Nat × Nat × Nat)
deriving DecidableEq, Repr

/-- A lambda: the next SEQ to send, frames not acknowledged (SEQ and bytes without link fields, BNC, requester), whether
they are to be sent again, the SEQ last accepted (none before training), whether the receive side is closed
(R395), acknowledgement and NAK owed, NAKs drawn by the oldest frame, credits in use (class, owner, number; oldest
first), credits freed and not returned by class, the peer's LINKSTATE bits, position, nonce, feed and build, a
LINKQUERY unanswered, whether the lambda has come UP and not been DOWN since, the credits that each frame not acknowledged returns (SEQ,
class, number). -/
structure Lam where
  txSeq : Nat
  replay : List (Nat × List Byte × Bool × Nat)
  resend : Bool
  rxLast : Option Nat
  closed : Bool
  ackDue : Bool
  nakDue : Bool
  naks : Nat
  used : List (Nat × Nat × Nat)
  freed : List Nat
  peerUp : Nat
  peerPos : Nat
  nonce : Nat
  feed : Option Nat
  build : Nat
  querying : Bool
  trained : Bool
  crs : List (Nat × Nat × Nat)
deriving DecidableEq, Repr

def Lam.idle : Lam := ⟨0, [], false, none, false, false, false, 0, [], [0, 0, 0, 0], 0, 0, 0, none, 0, false, false, []⟩

structure FabSt where
  lams : Tab Lam
  outq : List FOut
  /-- What the device has sent: lambda, bytes on the fibre. -/
  sent : List (Nat × List Byte)
  /-- The round of its port at which a lambda's transmitter is idle again. -/
  busy : Tab Nat
  /-- Counters of R401, by 2^14 partition + device, and windows of R403: H and the counters seen above H − 4096. -/
  ctrs : Tab Nat
  windows : Tab (Nat × List Nat)
  /-- Step messages of the device to itself: partition, TYPE, data. -/
  own : List (Nat × Nat × List Byte)
  /-- Enables of the laser modules (R408). -/
  enA : Bool
  enB : Bool
  probes : Tab Nat
deriving DecidableEq, Repr

/-! ### Jobs: collectives, steps, the ledger, failures (12 to 15) -/

/-- A held deferral (12 R430): leaf, NF bit, E_old, elements, the step that made it. -/
structure Deferral where
  slot : Nat
  bucket : Nat
  nf : Bool
  e : Int
  data : List Nat
  made : Nat
deriving DecidableEq, Repr

/-- A late pair and its decision (12 R432). -/
structure Late where
  slot : Nat
  bucket : Nat
  decision : Nat
deriving DecidableEq, Repr

/-- What a stage has received for one position (12 R418, R419): stage 1 or 2, the reducing slot of stage 1 or the chunk
of stage 2, bucket, chunk, position, first element (none: a LATE marker), NF, elements. -/
structure StageIn where
  stage : Nat
  node : Nat
  bucket : Nat
  chunk : Nat
  pos : Nat
  elem : Option Nat
  nf : Bool
  codes : List Nat
deriving DecidableEq, Repr

/-- A span of a chunk with its final values (12 R415, 13 R456). -/
structure TSpan where
  bucket : Nat
  chunk : Nat
  elem : Nat
  codes : List Nat
  nf : Bool
  updated : Bool
deriving DecidableEq, Repr

/-- An exchange (12 R435 to R438): descriptor (none before its doorbell), source section, the stream data received by
source (device, offset, TOTAL, LAST, bytes), bytes parsed by source, rows and area bytes placed, manifest entries,
whether a coach did not fit, whether it is complete. -/
structure Exch where
  xid : Nat
  desc : Option (List Byte)
  sec : Nat
  segs : List (Nat × Nat × Nat × Bool × List Byte)
  parsed : Tab Nat
  rows : Nat
  area : Nat
  entries : Nat
  full : Bool
  done : Bool
deriving DecidableEq, Repr

/-- Where a step stands (14 R466); `m` a micro-batch, `i` the hosted slot whose task set runs. -/
inductive Phase where
  | idle
  | forward (m i : Nat)
  | backward (m i : Nat)
  | reduce
  | committing
deriving DecidableEq, Repr

/-- A part that a buddy receives (15 R510): drainer, part, segments, LAST seen, acknowledged. -/
structure SnapPart where
  drainer : Nat
  part : Nat
  segs : List (Nat × List Byte)
  last : Bool
  acked : Bool
deriving DecidableEq, Repr

/-- A restore in progress (15 R516): step C, trusted, whether it is an absorption, the record of step C + 1 that a replay
must match (record and annex), the reply's command place. -/
structure Restore where
  step : Nat
  trusted : Bool
  absorb : Bool
  target : Option (List Byte)
deriving DecidableEq, Repr

/-- A row that migrates (10 R372): table, row, new owner slot, arrival row once it has one, the step during which it is
copied, whether it leaves this device, the arrival place that it leaves, whether its delta has left, and the receipts of other
devices: device, kind of what it has taken (assumption 28). -/
structure Move where
  tid : Nat
  row : Nat
  slot : Nat
  arr : Option Nat
  step : Nat
  mine : Bool
  old : Option (Nat × Nat)
  sent : Bool
  acks : List (Nat × Nat)
deriving DecidableEq, Repr

/-- The pieces that have come of a row of a kind (assumption 28), by offset. -/
structure RowPieces where
  kind : Nat
  tid : Nat
  row : Nat
  segs : List (Nat × List Byte)
deriving DecidableEq, Repr

/-- The frames so far of a step message of several frames, by source, step and leading word: offset and bytes of each
(14 R472, 11 R400). -/
structure MsgPieces where
  src : Nat
  step : Nat
  word : Nat
  segs : List (Nat × List Byte)
deriving DecidableEq, Repr

/-- A ledger entry (14 R488): kind, index, offset in the region, body. -/
structure LedEnt where
  kind : Nat
  index : Nat
  off : Nat
  body : List Byte
deriving DecidableEq, Repr

/-- The layout of a section's pound (19 R634, R635): section; the journal's regions, each with its site and its place; the bytes of the hot
region, from the pound's bottom; the bytes that neither a claim nor a hot row takes; whether the claims of ranks 1 to 5 fit, and
those of rank 7. -/
structure PoundLay where
  sec : Nat
  jnl : List (Nat × Nat)
  hot : Nat
  spare : Nat
  fixed : Bool
  fits : Bool
deriving DecidableEq, Repr

structure JobSt where
  /-- The plan (17 R580): buckets (TENSOR_ID, L), task templates (core, phase, address), slot map, feed map, batch
  table, stashes (slot, address, bytes), model digest, model step. -/
  buckets : List (Nat × Nat)
  tmpls : List (Nat × Nat × Nat)
  slots : List Nat
  feeds : List Nat
  batch : Nat
  stash : List (Nat × Nat × Nat)
  model : List Byte
  modelStep : Nat
  batchNo : Nat
  /-- Steps below this number may start (STEP_RUN). -/
  runTo : Nat
  phase : Phase
  /-- The tasks of the current task set, as cores. -/
  running : List Nat
  posted : List (Nat × Nat)
  window : Option Nat
  windowShut : Bool
  late : List Late
  replayList : Option (List Late)
  held : List Deferral
  /-- Held deferrals that joined the step, and those that it drops: slot, bucket. -/
  joined : List (Nat × Nat)
  dropped : List (Nat × Nat)
  ins : List StageIn
  stage1 : List (Nat × Nat × Nat)
  spans : List TSpan
  /-- Chunks whose all-gather has left (bucket, chunk), frames received of all-gathers (bucket, first element, bytes). -/
  gathOut : List (Nat × Nat)
  gathIn : List (Nat × Nat × Nat)
  exchs : List Exch
  /-- Streams with coach replies that wait for the verdict (12 R427): requester at the port, device, segment. -/
  replies : List (Nat × Nat × List Byte)
  /-- Votes and APPLIEDs received, by FORM and slot; messages received in part, by source. -/
  votes : List (Nat × Nat × Bool × Nat)
  voted : Bool
  apps : List (Nat × Nat × List Byte)
  parts : List MsgPieces
  appliedSent : Bool
  /-- Frames for step N + 1 held after the last APPLIED (14 R478): type, source, data. -/
  heldIn : List (Nat × Nat × List Byte)
  /-- The last COMMIT processed: payload from 0x010 with its annex (14 R481). -/
  lastCommit : List Byte
  abortCause : Nat
  /-- STATE replies received (14 R481): source, payload. -/
  states : List (Nat × List Byte)
  ledger : List LedEnt
  ledgerPos : Nat
  /-- SHA-256 of the last record with its annex; empty before the first (14 R485). -/
  head : List Byte
  signed : Nat
  tsum : Nat
  fullSum : Bool
  firstTrusted : Bool
  stopReq : Bool
  lost : List Nat
  /-- Slot map before the first loss that is not yet absorbed; whether an absorption goes on (15 R515). -/
  oldSlots : List Nat
  absorbing : Bool
  rejected : Option Nat
  restore : Option Restore
  snaps : List SnapPart
  /-- Parts that come for slots absorbed here (15 R514); drainers whose snapshot this device refused (15 R510). -/
  incoming : List SnapPart
  passed : List Nat
  ckWait : Option Nat
  /-- The hot set: table, step of the refresh, rows (15 R498). -/
  hotSet : List (Nat × Nat × List Nat)
  /-- Pieces received of rows for arrivals or hot copies with no place yet. -/
  arrivals : List RowPieces
  /-- Hot rows of the last refresh whose copies have not come: table, row. -/
  hotDue : List (Nat × Nat)
  /-- Whether some device of the job is co-fed (15 R507); the step for which this device has sent RESOLVE and waits for the STATEs; the
  steps that it has resolved since the last loss (14 R481). -/
  coFed : Bool
  resolveStep : Option Nat
  resolved : List Nat
  /-- Slots whose parts have not come (15 R514). -/
  toLoad : List Nat
  /-- Serving: the batch in progress, its command's packet. -/
  serving : Option (BitVec 512)
  /-- SHA-256 of its request as it was posted (14 R493). -/
  reqDigest : List Byte
  /-- Rows that migrate (10 R372). -/
  moves : List Move
  /-- Table images pinned (10 R375): reader (0 step, 1 serving batch), 64 cluster + CL_TABLE number, DESC. -/
  pins : List (Nat × Nat × Nat)
  /-- Tables of which a new version was installed at this boundary (10 R376). -/
  installed : List Nat
  /-- Rows that the hub picked at the last boundary from the load counters and sample rings (10 R371): table, row. -/
  picked : List (Nat × Nat)
  /-- The layout of each section's pound in force (19 R634). -/
  pounds : List PoundLay
  /-- The annex of the last committed step's record (12 R432). -/
  prevLate : List Nat
deriving DecidableEq, Repr

def JobSt.none : JobSt :=
  { buckets := [], tmpls := [], slots := [], feeds := [], batch := 0, stash := [], model := [], modelStep := 0,
    batchNo := 0, runTo := 0, phase := .idle, running := [], posted := [], window := Option.none, windowShut := false,
    late := [], replayList := Option.none, held := [], joined := [], dropped := [], ins := [], stage1 := [], spans := [],
    gathOut := [], gathIn := [], exchs := [], replies := [], votes := [], voted := false, apps := [], parts := [],
    appliedSent := false, heldIn := [], lastCommit := [], abortCause := 0, states := [], ledger := [], ledgerPos := 0,
    head := [], signed := 0, tsum := 0, fullSum := false, firstTrusted := false, stopReq := false, lost := [],
    oldSlots := [], absorbing := false, rejected := Option.none, restore := Option.none, snaps := [], incoming := [], passed := [],
    ckWait := Option.none, hotSet := [], arrivals := [], hotDue := [], moves := [], pins := [], installed := [], picked := [], pounds := [], prevLate := [], coFed := false, resolveStep := Option.none, resolved := [],
    toLoad := [], serving := Option.none, reqDigest := [] }

/-- A drain (15 R509): partition, step P, buddy candidates not yet tried, parts acknowledged, number of parts. -/
structure Drain where
  part : Nat
  step : Nat
  cands : List Nat
  acked : List Nat
  count : Nat
deriving DecidableEq, Repr

/-- A register write held to a step boundary (20 R643): partition, field, value, and the bits of the field that it covers. -/
structure HeldFld where
  part : Nat
  fld : Fld
  value : Nat
  mask : Nat
deriving DecidableEq, Repr

structure StepSt where
  jobs : Tab JobSt
  held : List HeldFld
  /-- Drains of the partitions of this device. -/
  drains : List Drain
  /-- Consecutive evaluations above THRESH, and the counts of the health monitor's inputs at past times: term, time in
  microseconds (AON seconds for brown-outs), count (15 R502). -/
  dwell : Nat
  hist : List (Nat × Nat × Nat)
  /-- What CNT_CLEAR has taken from the counts of each term (18 R600). -/
  cleared : Tab Nat
  /-- What the host has written into the program and group tables during a step (13 R450): partition, bytes by key. -/
  heldMem : List (Nat × List (Nat × Byte))
deriving DecidableEq, Repr

/-! ### Host interface (17) -/

/-- A command fetched and not yet completed: the command, its place in fetch order, the ring's head after it, and the host
completion error that its reply's write or its data meets (17 R573, R579). -/
structure Started where
  cmd : HostCmd
  seq : Nat
  head : Nat
  err : HostErr
deriving DecidableEq, Repr

structure HostSt where
  started : List Started
  nextSeq : Nat
  /-- Commands that wait for a step boundary, in fetch order. -/
  held : List HostCmd
  /-- Rings, by 64 fn + ring: command tail, completion head, phase, replies not covered by a message and the time of
  the oldest. -/
  tails : Tab Nat
  cheads : Tab Nat
  flips : Tab Bool
  uncovered : Tab Nat
  oldest : Tab Nat
  /-- Last place of the fetch order: function, ring, commands fetched in the visit. -/
  visit : Nat × Nat × Nat
  /-- MSI-X tables by byte (2^16 fn + offset); a vector's mask bit is held inverted, so that 0 is masked; pending bits;
  messages sent: function, vector. -/
  msix : Mem
  pba : List (Nat × Nat)
  msgs : List (Nat × Nat)
  /-- Functions whose MSI-X is enabled in configuration space (R562). -/
  msixOn : List Nat
deriving DecidableEq, Repr

/-! ### Security controller (16) -/

/-- A request for a signature that waits (16 R545): for a partition's ledger head, or of a QUOTE. -/
inductive SigReq where
  | head (p : Nat)
  | quote (c : HostCmd)
deriving DecidableEq, Repr

/-- Keys by partition: memory keys (2 p + slot), ML-KEM pair, transport key and the SEQ last accepted, fabric and
checkpoint keys; debug chain heads; the tokens attached (CAPS, PARTS, first 16 bytes of the digest); OTP bytes; measurements of the firmware;
working tree (its seed) and its next leaf, top leaf that certifies it; IDE_KM objects applied, by function. -/
structure SecSt where
  memKeys : Tab (List Byte)
  kem : Tab (List Byte × List Byte)
  tk : Tab (List Byte)
  tkSeq : Tab Nat
  fabKey : Tab (List Byte)
  ckKey : Tab (List Byte)
  dbgHead : Tab (List Byte)
  tokens : List (Nat × Nat × List Byte)
  otp : Mem
  fwDigest : List Byte
  fwSvn : Nat
  fabBuild : Nat
  work : Option Nat
  workLeaf : Nat
  topLeaf : Nat
  ide : Tab (List Byte)
  /-- Requests for signatures in arrival order. -/
  sigs : List SigReq
deriving DecidableEq, Repr

/-! ### Power, clocks, reset, pins (19, 21) -/

/-- An access that the hub holds while the device is in Stand (19 R614), with the command's operands. -/
inductive HeldReq where
  | write (q : Requester) (offset size : Nat) (value : Word)
  | openChannel (c : Fin 800) (ch : Fin 64) (value : Word)
  | start (q : Requester) (p : Fin 8)
  | drained (q : Requester) (p : Fin 8) (value : Word)
  | barRead (q : Requester) (offset : BitVec 28) (len : Nat)
  | barWrite (q : Requester) (offset : BitVec 28) (data : List Byte)
  | taskStart (c : Fin 800)
  | taskHalt (c : Fin 800)
  | arbCommit (inst : Fin 1824)
  | bringUp (light : BitVec 256) (lasers : BitVec 128)
  | useA (e : Fin 8) (aOk : Bool)
deriving DecidableEq, Repr

/-- The levels of the pads that Moor latches (19 R622): FAULT_N (asserted), LSM_A_EN, LSM_B_EN, which GPIO pins are outputs and what they
drive. -/
structure Pads where
  fault : Bool
  enA : Bool
  enB : Bool
  out : BitVec 8
  gpio : BitVec 8
deriving DecidableEq, Repr

/-- Reset and supply: out of reset, PERST_N asserted, PWR_REQ, PWR_GOOD, VDD_AON present; the microseconds since PWR_GOOD, up to 1,000
(R629); the compute dies powered and the optics enabled by the firmware (R629); the stacks in self-refresh (18 R592, R613, R630); Off,
Moor; SMB_ADDR as latched; ARM; the pads held for Moor; FAULT_N as driven; wakes of the current state: source
latched or exiting, whether latched during entry, further events; the frequency that the clusters change to (0: none);
consecutive evaluations below the limits of R608; gated islands; microseconds of the AON second; AON seconds of the last
eight brown-outs; the time of entry to Off; the TIME of the fail-safe trigger; an SMBus fence, a power-off that wait; the
time until which AUX0 is driven for a report; which GPIO pins are outputs and what the firmware image drives on them (21 R659); rails
whose undervoltage warning has not re-armed (21 R664); the
OP_POINT commands begun; the AON second of the latched wake; the time from which the device counts toward Stand, and that of the end of
Stand entry (R612, R615); the accesses that the hub holds until Stand has been left (R614). -/
structure PmSt where
  released : Bool
  perst : Bool
  pwrReq : Bool
  pwrGood : Bool
  aon : Bool
  goodUs : Nat
  dies : Bool
  selfRef : Bool
  off : Bool
  moor : Bool
  smbAddr : Nat
  armed : Bool
  pads : Option Pads
  fault : Bool
  wake : Nat
  replayed : Bool
  multi : Bool
  want : Nat
  good : Nat
  gated : List Nat
  aonUs : Nat
  brown : List Nat
  offAt : Option Nat
  trigger : Nat
  smbFence : Bool
  smbOff : Bool
  aux0 : Nat
  gpioOut : BitVec 8
  gpio : BitVec 8
  lowRails : List Nat
  opCmds : List HostCmd
  wakeAt : Nat
  idleFrom : Nat
  standAt : Nat
  heldReq : List HeldReq
deriving DecidableEq, Repr

/-- Right after the release of reset: the supplies are up, nothing is held, no firmware runs. -/
def PmSt.reset : PmSt :=
  { released := true, perst := false, pwrReq := true, pwrGood := true, aon := true, goodUs := 1000, dies := false, selfRef := false,
    off := false, moor := false, smbAddr := 0, armed := false, pads := none, fault := false, wake := 0, replayed := false, multi := false,
    want := 0, good := 0, gated := [], aonUs := 0, brown := [], offAt := none, trigger := 0, smbFence := false, smbOff := false, aux0 := 0,
    gpioOut := 0, gpio := 0, lowRails := [], opCmds := [], wakeAt := 0, idleFrom := 0, standAt := 0, heldReq := [] }

/-! ### The machine -/

/-- The state of the device.  `pending` holds the commands that wait, the first at the front; `freeCtr` is the
model's own count of free values drawn (assumption 2); `timeUs` counts microseconds since reset release. -/
structure State where
  pending : List Instr
  freeCtr : Nat
  timeUs : Nat
  /-- Register fields by key (Machine/RegMap). -/
  regs : Tab Nat
  core : CoreSt
  mx : MxSt
  m : MemSt
  e : ErrSt
  b : BaseSt
  fab : FabSt
  sec : SecSt
  j : StepSt
  h : HostSt
  pm : PmSt
deriving DecidableEq, Repr

def CoreSt.reset : CoreSt := ⟨[], [], [], [], [], [], [], [], [], [], [], [], [], [], [], [], [], [], [], [], [], [], [], [], []⟩
def MxSt.reset : MxSt := ⟨[], [], [], [], [], [], [], [], []⟩
def MemSt.reset : MemSt :=
  { mem := [], xfers := [], reqs := [], nextId := 0, tcache := [], scache := [], dcache := [], errs := [],
    banks := [], staged := [], hot := [], lats := [], slow := [], gen := [], sweepMap := [], sweepAt := [],
    sweepEnd := [], scrubAt := [], scrubFrom := [], rounds := [], ages := [], slots := [], commitP := [], holds := [], penalty := [],
    lastOver := [], lastBg := [], turns := [] }
def ErrSt.reset : ErrSt := ⟨[], [], [], [], [], 0, [], [], [], [], [], []⟩

def FabSt.reset : FabSt := ⟨[], [], [], [], [], [], [], false, false, []⟩
def HostSt.reset : HostSt := ⟨[], 0, [], [], [], [], [], [], (0, 0, 0), [], [], [], []⟩
/-- Generation 0 of the root hash is burnt and marked (16 R538, assumption 7). -/
def SecSt.reset : SecSt := ⟨[], [], [], [], [], [], [], [], [(0xA0, 1)], [], 0, 0, none, 0, 0, [], []⟩

/-- The device right after the reset release that follows a cold power-on (19 R629): every register at its reset
value, every memory as nothing has written it, no command waiting. -/
def State.reset : State :=
  { pending := [], freeCtr := 0, timeUs := 0, regs := [], core := CoreSt.reset, mx := MxSt.reset,
    m := MemSt.reset, e := ErrSt.reset, b := ⟨[], 0, [], [], [], [], [], []⟩,
    fab := FabSt.reset, sec := SecSt.reset, j := ⟨[], [], [], 0, [], [], []⟩, h := HostSt.reset, pm := PmSt.reset }

end Sys2Proof.Machine
end

