-- ==== Sys2Proof/Machine/Ops.lean ====
section
/-! DEFINITION. The named operations that the commands' meanings share: registers, memories by key, the towpath,
reports, partitions, translation, requests to stacks and shared memory, tasks and faults. -/

namespace Sys2Proof.Machine

abbrev Out := Host.Outcome State Fault Refusal

/-! ### Registers (20) -/

/-- The value of a register field. -/
def State.fld (s : State) (f : Fld) : Nat := Tab.get s.regs f.rst f.key

/-- A register field written; only its own bits are held. -/
def State.setFld (s : State) (f : Fld) (v : Nat) : State :=
  { s with regs := Tab.put s.regs f.rst f.key (v % 2 ^ f.len) }

/-- Whether a field is not zero. -/
def State.on (s : State) (f : Fld) : Bool := s.fld f != 0

/-- An event counter that stops at its largest value and while CNT_FREEZE is 1 (18 R600). -/
def State.count (s : State) (f : Fld) (n : Nat) : State :=
  if s.on ERR_CTRL_CNT_FREEZE then s else s.setFld f (satAdd f.len (s.fld f) n)

/-- A saturating register that freezing does not stop. -/
def State.bump (s : State) (f : Fld) (n : Nat) : State := s.setFld f (satAdd f.len (s.fld f) n)

/-- The next free value of `w` bits (assumption 2). -/
def State.free (s : State) (w : Nat) : Nat × State :=
  (Config.freeValue s.freeCtr % 2 ^ w, { s with freeCtr := s.freeCtr + 1 })

/-- A unit whose clock the fail-safe state has stopped does nothing, and a write to it is discarded (18 R592). -/
def unlessStopped (s : State) (o : Out) : Out := if s.on ERR_FAILSAFE_ACTIVE then .next s else o

def sumOf (l : List Nat) : Nat := l.foldl (· + ·) 0

/-- The register counts that the health monitor reads (15 R502): STK_CE, BANK_STALL, RETRAINS. -/
def State.riskCount (s : State) (term : Nat) : Nat :=
  match term with
  | 0 => sumOf ((List.range 8).flatMap (fun st => (List.range 64).map (fun q => s.fld (STK_CE_COUNT_CE st q))))
  | 1 => sumOf ((List.range 8).map (fun st => s.fld (STK_SLOW_BANK_STALL st)))
  | _ => sumOf ((List.range 32).map (fun n => s.fld (OP_LINK_RETRAINS n)))

/-! ### Variants, units (00 R1, 01 R19 to R22) -/

def State.isB (s : State) : Bool := s.on HUB_ID_VARIANT

/-- Bytes of a stack (00 R1). -/
def State.stackBytes (s : State) : Nat := if s.isB then 2 ^ 35 else 2 ^ 36

def clusterOf (core : Nat) : Nat := core / 20
def subOf (core : Nat) : Nat := core % 20
def sectionOf (core : Nat) : Nat := core / 100
def isMatrix (core : Nat) : Bool := core % 20 < 2
def threadKey (core t : Nat) : Nat := core * 16 + t

/-! ### What runs (18 R592, 19 R613, R616, R629) -/

/-- The hub is out of reset, and neither the fail-safe state nor Moor entry has stopped it. -/
def State.hubUp (s : State) : Bool :=
  s.pm.released && !s.pm.moor && !s.on ERR_FAILSAFE_ACTIVE && s.fld PM_CTRL_STATE != 3

/-- The compute dies are powered, which the firmware does (R629), and clocked. -/
def State.dieUp (s : State) : Bool := s.hubUp && s.fld PM_CTRL_STATE == 0 && s.pm.dies

/-- Whether the hub holds accesses to blocks that Stand has gated (R614). -/
def State.standing (s : State) : Bool := s.hubUp && s.fld PM_CTRL_STATE != 0

/-- A wake event of a source: latched during an entry, the start of the exit in Stand and Moor, MULTI after that (R618, R619). -/
def State.wakeEvent (s : State) (src : Nat) : State :=
  if s.pm.wake ≠ 0 then { s with pm := { s.pm with multi := true } }
  else
    let inEntry := !s.pm.moor && (s.fld PM_CTRL_STATE == 1 || s.fld PM_CTRL_STATE == 3)
    let s := { s with pm := { s.pm with
      wake := src, replayed := inEntry, multi := false, wakeAt := s.fld PM_AON_SECONDS_S } }
    if s.fld PM_CTRL_STATE = 2 then s.setFld PM_CTRL_STATE 4 else s

/-- An access to a block that Stand has gated is a PCIe in-band wake, and is held until Stand has been left (R614). -/
def State.holdReq (s : State) (i : HeldReq) : State :=
  let s := s.wakeEvent 1
  { s with pm := { s.pm with heldReq := s.pm.heldReq ++ [i] } }

/-- A request of PCIe other than those that the count toward Stand allows restarts it (R612). -/
def State.asked (s : State) : State := { s with pm := { s.pm with idleFrom := s.timeUs } }

/-! ### Memories by key -/

def keyStack (st a : Nat) : Nat := st * 2 ^ 36 + a
def keyProgram (core off : Nat) : Nat := 2 ^ 40 + core * 2 ^ 16 + off
def keyOwn (core off : Nat) : Nat := 2 ^ 41 + core * 2 ^ 22 + off
def keyAcc (core off : Nat) : Nat := 2 ^ 42 + core * 2 ^ 21 + off
def keyShared (cl off : Nat) : Nat := 2 ^ 43 + cl * 2 ^ 23 + off
def keyBoot (off : Nat) : Nat := 2 ^ 44 + off
def keyHost (a : Nat) : Nat := 2 ^ 64 + a % 2 ^ 64

/-- Bytes of a core's own memory: tile memory 4 MiB, local memory 512 KiB. -/
def ownBytes (core : Nat) : Nat := if isMatrix core then 2 ^ 22 else 2 ^ 19
def sharedBytes : Nat := 2 ^ 23
def accBytes : Nat := 2 ^ 21

def State.rd (s : State) (key n : Nat) : Nat := s.m.mem.rdLE key n
def State.rdB (s : State) (key n : Nat) : List Byte := s.m.mem.rdBytes key n
def State.wrB (s : State) (key : Nat) (b : List Byte) : State :=
  { s with m := { s.m with mem := s.m.mem.wrBytes key b } }
def State.wr (s : State) (key n v : Nat) : State :=
  { s with m := { s.m with mem := s.m.mem.wrLE key n v } }
def State.zeroMem (s : State) (key n : Nat) : State :=
  { s with m := { s.m with mem := s.m.mem.clear key n } }
/-- Single bytes written, in order. -/
def State.wrCells (s : State) (l : List (Nat × Byte)) : State :=
  { s with m := { s.m with mem := l.foldl (fun m e => m.wr e.1 e.2) s.m.mem } }

/-! ### Core registers (03 R98, R99) -/

def State.sreg (s : State) (core t r : Nat) : Word :=
  if r = 0 then 0 else Tab.get s.core.sregs 0 (32 * threadKey core t + r)
def State.setS (s : State) (core t r : Nat) (v : Word) : State :=
  if r = 0 then s else
    { s with core := { s.core with sregs := Tab.put s.core.sregs 0 (32 * threadKey core t + r) v } }
def State.mreg (s : State) (core t r : Nat) : MWord :=
  if r = 0 then BitVec.allOnes 512 else Tab.get s.core.mregs 0 (16 * threadKey core t + r)
def State.setM (s : State) (core t r : Nat) (v : MWord) : State :=
  { s with core := { s.core with mregs := Tab.put s.core.mregs 0 (16 * threadKey core t + r) v } }
def State.pc (s : State) (core t : Nat) : Nat := Tab.get s.core.pcs 0 (threadKey core t)
def State.setPc (s : State) (core t pc : Nat) : State :=
  { s with core := { s.core with pcs := Tab.put s.core.pcs 0 (threadKey core t) pc } }
def State.flags (s : State) (core t : Nat) : Flags := Tab.get s.core.tflags 0 (threadKey core t)
def State.setFlags (s : State) (core t : Nat) (f : Flags) : State :=
  { s with core := { s.core with tflags := Tab.put s.core.tflags 0 (threadKey core t) f } }
def State.orFlags (s : State) (core t : Nat) (f : Flags) : State :=
  s.setFlags core t (s.flags core t ||| f)
def State.stat (s : State) (core t : Nat) : TStat := Tab.get s.core.tstat .ended (threadKey core t)
def State.setStat (s : State) (core t : Nat) (v : TStat) : State :=
  { s with core := { s.core with tstat := Tab.put s.core.tstat .ended (threadKey core t) v } }
def State.handle (s : State) (core r : Nat) : Word := Tab.get s.core.thandles 0 (32 * core + r)
def State.setHandle (s : State) (core r : Nat) (v : Word) : State :=
  { s with core := { s.core with thandles := Tab.put s.core.thandles 0 (32 * core + r) v } }
def State.stream (s : State) (core q : Nat) : Stream := Tab.get s.core.streams .closed (16 * core + q)
def State.setStream (s : State) (core q : Nat) (v : Stream) : State :=
  { s with core := { s.core with streams := Tab.put s.core.streams .closed (16 * core + q) v } }

/-! ### Task descriptor (03 R118) -/

/-- Bytes of the descriptor of the running task. -/
def State.taskF (s : State) (core off n : Nat) : Nat := s.core.task.rdLE (256 * core + off) n
def State.windowF (s : State) (core off n : Nat) : Nat := s.core.window.rdLE (256 * core + off) n
def State.threads (s : State) (core : Nat) : Nat := 2 ^ bits (s.taskF core 0 4) 16 3
def State.taskId (s : State) (core : Nat) : Nat := s.taskF core 4 2
def State.taskSlot (s : State) (core : Nat) : Nat := s.taskF core 6 2
def State.taskStep (s : State) (core : Nat) : Nat := s.taskF core 16 8

/-- CL_TASK_STATE.STATE (20 R651). -/
def tkIdle : Nat := 0
def tkRunning : Nat := 1
def tkEnded : Nat := 2
def tkFaulted : Nat := 3
def tkHalted : Nat := 4
def State.taskState (s : State) (core : Nat) : Nat := s.fld (CL_TASK_STATE_STATE (clusterOf core) (subOf core))
def State.setTaskState (s : State) (core v : Nat) : State := s.setFld (CL_TASK_STATE_STATE (clusterOf core) (subOf core)) v
def State.taskRuns (s : State) (core : Nat) : Bool := s.taskState core == tkRunning

/-- The physical number of a thread's vector register (R103). -/
def State.vphys (s : State) (core t r : Nat) : Nat := 64 * core + t * (64 / s.threads core) + r
def State.vreg (s : State) (core t r : Nat) : VWord := Tab.get s.core.vregs 0 (s.vphys core t r)
def State.setV (s : State) (core t r : Nat) (v : VWord) : State :=
  { s with core := { s.core with vregs := Tab.put s.core.vregs 0 (s.vphys core t r) v } }

/-- The registers of a task's threads set for its launch (R119). -/
def State.clearCoreRegs (s : State) (core : Nat) : State :=
  let mx : MxSt := { s.mx with
      takenRegs := s.mx.takenRegs.filter (fun k => k / 32 != core)
      staleRegs := s.mx.staleRegs.filter (fun k => k / 32 != core) }
  { s with mx := mx, core := { s.core with
      sregs := Tab.drop s.core.sregs (fun k => k / 512 == core)
      mregs := Tab.drop s.core.mregs (fun k => k / 256 == core)
      vregs := Tab.drop s.core.vregs (fun k => k / 64 == core)
      tflags := Tab.drop s.core.tflags (fun k => k / 16 == core)
      thandles := Tab.drop s.core.thandles (fun k => k / 32 == core)
      streams := Tab.drop s.core.streams (fun k => k / 16 == core)
      debugStop := s.core.debugStop.del core
      tstat := Tab.drop s.core.tstat (fun k => k / 16 == core)
      predN := Tab.drop s.core.predN (fun k => k / 64 == core) } }

/-! ### Reports (18) -/

def clsCorrected : Nat := 0
def clsNotice : Nat := 1
def clsTask : Nat := 2
def clsPartition : Nat := 3
def clsFatal : Nat := 4

/-- AUX0 as a secondary fault output asserts for 10 ms on a report of its class or higher, where the claim table grants it
the pin (19 R635, R637). -/
def State.pulseAux (s : State) (cls : Nat) : State :=
  if s.on PM_AUX_CFG_FAULT2_EN && !s.on PM_AUX_CFG_PPS_EN && decide (s.fld PM_AUX_CFG_FAULT2_CLASS ≤ cls) then
    { s with pm := { s.pm with aux0 := s.timeUs + 10000 } }
  else s

/-- A report enters the intake queue of 256, or is lost (R588, R589). -/
def State.report (s : State) (r : Report) : State :=
  let s := s.pulseAux r.cls
  if s.e.intake.length < 256 then { s with e := { s.e with intake := s.e.intake ++ [r] } }
  else if r.cls ≤ clsNotice then s.bump ERR_LOST_LOW 1
  else s.bump ERR_LOST_HIGH 1

/-- A report with no partition named. -/
def State.file (s : State) (detail cls kind index arg : Nat) (part : Option Nat := none) : State :=
  s.report ⟨detail, cls, kind * 4096 + index, arg, part⟩

/-! ### Towpath (01 R31 to R39) -/

def tokField (tok : Word) (lo len : Nat) : Nat := bits tok.toNat lo len
def tokKind (tok : Word) : Nat := tokField tok 60 4
def tokDstNode (tok : Word) : Nat := tokField tok 52 8
def tokDstSub (tok : Word) : Nat := tokField tok 47 5
def tokSrcNode (tok : Word) : Nat := tokField tok 39 8
def tokSrcSub (tok : Word) : Nat := tokField tok 34 5
def tokChannel (tok : Word) : Nat := tokField tok 24 8
def tokValue (tok : Word) : Nat := tokField tok 0 24

/-- A token from its fields (R32). -/
def mkTok (kind dnode dsub snode ssub ch v : Nat) : Word :=
  BitVec.ofNat 64 (kind % 16 * 2 ^ 60 + dnode % 256 * 2 ^ 52 + dsub % 32 * 2 ^ 47 + snode % 256 * 2 ^ 39
    + ssub % 32 * 2 ^ 34 + ch % 256 * 2 ^ 24 + v % 2 ^ 24)

/-- Units of a node: how many DST_SUB values name one (R38). -/
def nodeUnits (node : Nat) : Nat :=
  if node < 40 then 20 else if node < 48 then 16 else if node < 56 then 4 else if node = 56 then 16 else 0

/-- The global core a token names, if it names one. -/
def tokCore (tok : Word) : Option Nat :=
  if tokDstNode tok < 40 ∧ tokDstSub tok < 20 then some (tokDstNode tok * 20 + tokDstSub tok) else none

/-- Whether the first stop discards the token (R38). -/
def tokBad (tok : Word) : Bool := 8 ≤ tokKind tok || nodeUnits (tokDstNode tok) ≤ tokDstSub tok

def State.discardTok (s : State) (tok : Word) : State := s.file 0x0003 clsNotice 2 (tokSrcNode tok) tok.toNat

/-- A token sent: it enters the towpath behind those sent before it, or is discarded (R33, R34, R38). -/
def State.sendTok (s : State) (tok : Word) : State :=
  if tokBad tok then s.discardTok tok else { s with e := { s.e with toks := s.e.toks ++ [tok] } }

/-- Whether two tokens take one way: they have one source unit and one destination unit (R34), or go from one node to another
and so cross the same boundaries (R27; assumption 146). -/
def sameWay (a b : Word) : Bool :=
  tokDstNode a == tokDstNode b && tokSrcNode a == tokSrcNode b
    && (tokDstNode a != tokSrcNode a || (tokDstSub a == tokDstSub b && tokSrcSub a == tokSrcSub b))

/-- Whether the token may arrive now: it is the first on its way (R27, R34).  Tokens of the hub, whose firmware is outside
the model, may arrive at any time. -/
def State.tokFirst (s : State) (tok : Word) : Bool :=
  match s.e.toks.find? (sameWay tok) with
  | some k => k == tok
  | none => tokSrcNode tok == 56

/-- The token leaves the towpath. -/
def State.takeTok (s : State) (tok : Word) : State :=
  { s with e := { s.e with toks := dropFirst (· == tok) s.e.toks } }

/-! ### Partitions (16) -/

def ptFree : Nat := 0
def ptBuilding : Nat := 1
def ptStarted : Nat := 2
def ptFenced : Nat := 3

def State.partState (s : State) (p : Nat) : Nat := s.fld (PART_STATUS_STATE p)
def State.sections (s : State) (p : Nat) : Nat := s.fld (PART_CFG_SECTIONS p)
/-- The partition that holds a section, if any (R16). -/
def State.secPart (s : State) (sec : Nat) : Option Nat :=
  (List.range 8).find? (fun p => s.partState p != ptFree && bit (s.sections p) sec)
def State.corePart (s : State) (core : Nat) : Option Nat := s.secPart (sectionOf core)
def State.clusterPart (s : State) (cl : Nat) : Option Nat := s.secPart (cl / 5)
def secsOf (mask : Nat) : List Nat := (List.range 8).filter (fun i => bit mask i)
def State.partSecs (s : State) (p : Nat) : List Nat := secsOf (s.sections p)
def coresOfSec (sec : Nat) : List Nat := (List.range 100).map (· + sec * 100)
def State.partCores (s : State) (p : Nat) : List Nat := (s.partSecs p).flatMap coresOfSec
def State.partClusters (s : State) (p : Nat) : List Nat :=
  (s.partSecs p).flatMap (fun x => (List.range 5).map (· + 5 * x))

/-! ### Codewords and staging lines (08 R276 to R282) -/

def burstOf (key : Nat) : Nat := key / 64
def popCount (n : Nat) : Nat := ((List.range 18).filter (fun i => n.testBit i)).length
def State.symbols (s : State) (burst : Nat) : Nat := Tab.get s.m.errs 0 burst
def State.setSymbols (s : State) (burst v : Nat) : State :=
  { s with m := { s.m with errs := Tab.put s.m.errs 0 burst v } }

/-- The bursts of stacks that some keys lie in. -/
def burstsOf (ks : List Nat) : List Nat := ((ks.filter (· < 2 ^ 39)).map burstOf).eraseDups

def State.isStaged (s : State) (b : Nat) : Bool := s.m.staged.contains b

/-- A staged burst becomes the most recently used of its stack. -/
def State.touchStaged (s : State) (b : Nat) : State :=
  { s with m := { s.m with staged := s.m.staged.filter (· != b) ++ [b] } }

def stackOfBurst (b : Nat) : Nat := b / 2 ^ 30

/-- Whether a read of some keys meets an uncorrectable codeword: no line holds it and two symbols or more are bad (R277,
R280). -/
def State.lost (s : State) (ks : List Nat) : Bool :=
  (burstsOf ks).any (fun b => !s.isStaged b && decide (2 ≤ popCount (s.symbols b)))

/-- A correction counted and reported (R282). -/
def State.noteCe (s : State) (burst : Nat) : State :=
  let key := burst * 64
  let st := key / 2 ^ 36
  let a := key % 2 ^ 36
  (s.count (STK_CE_COUNT_CE st (bits a 8 6)) 1).file 0x0020 clsCorrected 3 (st * 64 + bits a 8 6) a (s.secPart st)

/-! ### Addresses to banks (08 R274, 01 R677) -/

def isStackKey (key : Nat) : Bool := key < 2 ^ 39

def pcOf (key : Nat) : Nat := key / 2 ^ 36 * 64 + bits key 8 6
def bankIdx (key : Nat) : Nat := bits key 16 5 ^^^ bits key 21 5
/-- One number for a bank of a stack, from 1; 0 for shared memory. -/
def bankKey (key : Nat) : Nat := if isStackKey key then pcOf key * 32 + bankIdx key + 1 else 0
def rowOf (key : Nat) : Nat := bits key 21 15

/-- The arbiter instance of a key (08 R285): a pseudo-channel, or a bank of a cluster's shared memory. -/
def instOf (key : Nat) : Nat :=
  if isStackKey key then pcOf key
  else
    let o := key - 2 ^ 43
    544 + o / 2 ^ 23 * 32 + bits o 6 5

/-- The requester number of a cluster at a pseudo-channel (08 R286). -/
def rqrOfCluster (cl key : Nat) : Nat :=
  let st := key / 2 ^ 36
  if cl / 5 = st then cl % 5 else if cl / 20 = st / 4 then 5 else 6

/-- The requester number of a core at an instance (08 R286, 01 R24). -/
def rqrOf (core key : Nat) : Nat :=
  if isStackKey key then rqrOfCluster (clusterOf core) key
  else
    let k := subOf core
    if k < 2 then k else k / 2 + 1

/-- The requester number of a unit that is no core, which is `who` at a pseudo-channel (08 R286): at a bank of shared memory
the port engine group has 13, the hub link 14, the base engines 12 (01 R24). -/
def rqrUnit (who key : Nat) : Nat :=
  if isStackKey key then who else if who = 7 then 14 else if who = 8 then 13 else 12

/-- Base cycles of a pseudo-channel since its island left reset: 256 base cycles hold 125 rounds (08 R271). -/
def State.cyc (s : State) (inst : Nat) : Nat := Tab.get s.m.rounds 0 inst * 256 / 125

/-! ### Requests (08 R286, R296) -/

/-- The unit of a byte key: a 256-byte region of a stack, or 64 bytes of shared memory. -/
def unitOf (key : Nat) : Nat := if isStackKey key then key / 256 * 256 else key / 64 * 64

/-- The runs of bytes in one unit; `acc` holds, the last first, those of the run begun. -/
def unitRuns (u : Nat) (acc : List (Nat × Byte)) : List (Nat × Byte) → List (Nat × List (Nat × Byte))
  | [] => [(u, acc.reverse)]
  | e :: r => if unitOf e.1 = u then unitRuns u (e :: acc) r else (u, acc.reverse) :: unitRuns (unitOf e.1) [e] r

/-- Bytes grouped into requests, one for each unit, in the order of their first bytes. -/
def groupCells (cells : List (Nat × Byte)) : List (Nat × List (Nat × Byte)) :=
  let rs := match cells with
    | [] => []
    | e :: r => unitRuns (unitOf e.1) [e] r
  ((rs.map Prod.fst).eraseDups).map (fun u => (u, (rs.filter (fun r => r.1 == u)).flatMap Prod.snd))

/-- A request of a core not gone out yet, its place still to be filled in. -/
def Req.ofCore (core : Nat) (stream write : Bool) (xfer : Nat) : Req :=
  { id := 0, xfer := xfer, core := core, stream := stream, inst := 0, rqr := 0, key := 0, left := [], data := [],
    write := write, bank := 0, row := 0, arrived := none, ready := 0, stat := .held, land := .none, use := .core }

/-- The requests of an operation: `proto` with the place of each unit and its bytes. -/
def mkReqs (proto : Req) (id : Nat) : List (Nat × List (Nat × Byte)) → List Req
  | [] => []
  | (u, cells) :: r =>
    { proto with
      id := id, inst := instOf u, rqr := if proto.core < 800 then rqrOf proto.core u else rqrUnit proto.rqr u
      key := u, left := (cells.map (fun e => burstOf e.1)).eraseDups, data := cells, bank := bankKey u
      row := rowOf u } :: mkReqs proto (id + 1) r

/-- Whether a request is one of a sweep, which goes ahead of the scrub (16 R529). -/
def Req.sweeps (r : Req) : Bool :=
  match r.use with
  | .sweep _ => true
  | _ => false

/-- The requests that a requester presents at an instance: all that wait at a bank of shared memory, the 64 queued at a
pseudo-channel (R296). -/
def State.presented (s : State) (inst rq : Nat) : List Req :=
  let q := s.m.reqs.filter (fun (r : Req) => r.inst == inst && r.rqr == rq && r.stat == .queued)
  let q := if rq = 13 then q.filter Req.sweeps ++ q.filter (fun r => !r.sweeps) else q
  if inst < 512 then q.take 64 else q

/-- The requests that have a place in the queue have arrived at the instance; the others wait at their router (R296). -/
def State.arrive (s : State) (inst rq : Nat) : State :=
  let ids := ((s.presented inst rq).filter (fun r => r.arrived.isNone)).map Req.id
  if ids.isEmpty then s
  else
    let now := some (s.cyc inst)
    { s with m := { s.m with reqs := s.m.reqs.map (fun (r : Req) =>
        if ids.contains r.id then { r with arrived := now } else r) } }

/-- The requests of an access of a unit that is no core, with requester number `who` at a pseudo-channel, each byte with what a
write stores there: they go to their queues at once; reads of staged bursts are served from their lines (R277).  Memories without
an arbiter take no request. -/
def State.askCells (s : State) (who unit : Nat) (use : RFor) (write : Bool) (cells : List (Nat × Byte)) : State :=
  let cs := cells.filter (fun e => isStackKey e.1 || (decide (2 ^ 43 ≤ e.1) && decide (e.1 < 2 ^ 44)))
  let hits := if write || use == .scrub then [] else (burstsOf (cs.map Prod.fst)).filter s.isStaged
  let cs := cs.filter (fun e => !(isStackKey e.1 && hits.contains (burstOf e.1)))
  let s := hits.foldl State.touchStaged s
  let proto : Req := { Req.ofCore (800 + unit) false write 0 with rqr := who, stat := .queued, use := use }
  let rs := mkReqs proto s.m.nextId (groupCells cs)
  let s := { s with m := { s.m with reqs := s.m.reqs ++ rs, nextId := s.m.nextId + rs.length } }
  ((rs.map (fun r => (r.inst, r.rqr))).eraseDups).foldl (fun s e => s.arrive e.1 e.2) s

/-- The requests of an access whose unit moves its bytes at an event of its own (assumption 20). -/
def State.ask (s : State) (who unit : Nat) (use : RFor) (write : Bool) (keys : List Nat) : State :=
  s.askCells who unit use write (keys.map (·, 0))

/-! ### Physical addresses and translation (01 R42 to R48) -/

/-- The memory key of a device physical address, where one is there (R43, R44). -/
def State.physKey (s : State) (pa : Nat) : Option Nat :=
  let lim := s.stackBytes
  if bit pa 39 then
    let a := bits pa 15 24 * 2 ^ 12 + bits pa 0 12
    if a < lim then some (keyStack (bits pa 12 3) a) else none
  else
    let a := bits pa 0 36
    if a < lim then some (keyStack (bits pa 36 3) a) else none

/-- First stack address of the dump area: the top 64 MiB of stack 0 (18 R595). -/
def State.dumpBase (s : State) : Nat := s.stackBytes - 2 ^ 26

/-- Whether `n` bytes from a device physical address include any of the dump area (R47). -/
def State.inDump (s : State) (pa n : Nat) : Bool :=
  if bit pa 39 then
    -- a page of n bytes covers n / 8 bytes of each stack; a 4 KiB table lies in one stack
    if n ≤ 4096 then bits pa 12 3 == 0 && s.dumpBase ≤ bits pa 15 24 * 2 ^ 12
    else s.dumpBase < bits pa 15 24 * 2 ^ 12 + n / 8
  else bits pa 36 3 == 0 && s.dumpBase < bits pa 0 36 + n

/-- Whether a page or table at `pa` lies in the partition's own sections and where memory is (R44, R45, R47). -/
def State.physOk (s : State) (p pa n : Nat) : Bool :=
  let secs := s.sections p
  (s.physKey pa).isSome && !s.inDump pa n &&
    (if bit pa 39 then secs == 255 else bit secs (bits pa 36 3))

/-- One entry of a walk at `level` 1 to 3: the next table's address (left), or the page's address and size (right). -/
def State.walkEntry (s : State) (p level ent : Nat) : Option (Nat ⊕ (Nat × Bool)) :=
  let leaf := bit ent 1
  let il := if bit ent 3 then 2 ^ 39 else 0
  let ppn := bits ent 21 18 * 2 ^ 21
  let nextLo := bits ent 12 9
  if !bit ent 0 || bits ent 4 8 != 0 || bits ent 39 25 != 0 then none
  else if leaf then
    if level = 1 || nextLo != 0 then none
    else if level = 2 then
      if bits ent 21 9 != 0 || !s.physOk p (il + ppn) (2 ^ 30) then none else some (.inr (il + ppn, true))
    else if !s.physOk p (il + ppn) (2 ^ 21) then none else some (.inr (il + ppn, false))
  else if level = 3 then none
  else
    let next := il + ppn + nextLo * 2 ^ 12
    if s.physOk p next 4096 then some (.inl next) else none

/-- A walk from a table: physical page, its size, whether every entry allows stores (R46). -/
def State.walk (s : State) (p va : Nat) : Nat → Nat → Nat → Bool → Option (Nat × Bool × Bool)
  | 0, _, _, _ => none
  | n + 1, level, table, w =>
    match s.physKey (table + bits va (48 - 9 * level) 9 * 8) with
    | none => none
    | some k =>
      if s.lost [k] then none
      else
      let ent := s.rd k 8
      match s.walkEntry p level ent with
      | none => none
      | some (.inl next) => s.walk p va n (level + 1) next (w && bit ent 2)
      | some (.inr (page, big)) => some (page, big, w && bit ent 2)

/-- A walk from the root in PART_PT_ROOT. -/
def State.walkRoot (s : State) (p va : Nat) : Option (Nat × Bool × Bool) :=
  let root := s.fld (PART_PT_ROOT_ROOT p) * 4096
  if s.physOk p root 4096 then s.walk p va 3 1 root true else none

/-- The keys of the entries that a walk reads, to the first that ends it. -/
def State.trail (s : State) (p va : Nat) : Nat → Nat → Nat → List Nat
  | 0, _, _ => []
  | n + 1, level, table =>
    match s.physKey (table + bits va (48 - 9 * level) 9 * 8) with
    | none => []
    | some k =>
      match s.walkEntry p level (s.rd k 8) with
      | some (.inl next) => k :: (if s.lost [k] then [] else s.trail p va n (level + 1) next)
      | _ => [k]

/-- The keys of the entries of a walk from the root. -/
def State.trailRoot (s : State) (p va : Nat) : List Nat :=
  let root := s.fld (PART_PT_ROOT_ROOT p) * 4096
  if s.physOk p root 4096 then s.trail p va 3 1 root else []

/-- The entry at which the walk of a cluster meets an uncorrectable codeword (08 R284). -/
def State.lostTable (s : State) (cl va : Nat) : Option Nat :=
  match s.clusterPart cl with
  | some p => (s.trailRoot p va).find? (fun k => s.lost [k])
  | none => none

/-- The walker's fetches: corrections counted, and their requests, which go out over the cluster's stack interface (08 R282,
R286). -/
def State.fetchTables (s : State) (cl p va : Nat) : State :=
  (s.trailRoot p va).foldl (fun s k =>
    let b := burstOf k
    let s := if popCount (s.symbols b) = 1 && !s.isStaged b then s.noteCe b else s
    s.ask (rqrOfCluster cl k) 0 .unit false ((List.range 8).map (· + k))) s

/-- The physical address of `va` in a page. -/
def inPage (page : Nat) (big : Bool) (va : Nat) : Nat := page + (if big then va % 2 ^ 30 else va % 2 ^ 21)

def TcEnt.hits (e : TcEnt) (cl va : Nat) : Bool :=
  e.cl == cl && e.vbase == (if e.big then va / 2 ^ 30 * 2 ^ 30 else va / 2 ^ 21 * 2 ^ 21)

/-- A virtual address translated for a cluster, through its translation cache of 1,024 entries; the oldest entry
gives way (R48, assumption 12). -/
def State.translate (s : State) (cl va : Nat) : Option (Nat × Bool) × State :=
  match s.m.tcache.find? (fun e => e.hits cl va) with
  | some e => ((s.physKey (inPage e.phys e.big va)).map (fun k => (k, e.w)), s)
  | none =>
    match s.clusterPart cl with
    | none => (none, s)
    | some p =>
      let walked := s.walkRoot p va
      let s := s.fetchTables cl p va
      match walked with
      | none => (none, s)
      | some (page, big, w) =>
        let e : TcEnt := ⟨cl, if big then va / 2 ^ 30 * 2 ^ 30 else va / 2 ^ 21 * 2 ^ 21, big, page, w⟩
        let mine := s.m.tcache.filter (fun x => x.cl == cl)
        let tc := if 1024 ≤ mine.length then dropFirst (fun x => x.cl == cl) s.m.tcache else s.m.tcache
        ((s.physKey (inPage page big va)).map (fun k => (k, w)), { s with m := { s.m with tcache := tc ++ [e] } })

/-- The translation caches of clusters emptied (R49). -/
def State.dropTc (s : State) (p : Nat → Bool) : State :=
  { s with m := { s.m with tcache := s.m.tcache.filter (fun e => !p e.cl) } }

/-- A virtual address of a partition translated with no cluster's cache (PCIe apertures, hub commands). -/
def State.hubTranslate (s : State) (p va : Nat) : Option (Nat × Bool) :=
  if va < 2 ^ 48 then
    match s.walkRoot p va with
    | some (page, big, w) => (s.physKey (inPage page big va)).map (fun k => (k, w))
    | none => none
  else none

/-! ### Task extents (03 R113, R120) -/

def State.extBase (s : State) (core i : Nat) : Nat := bits (s.taskF core (0x58 + 16 * i) 8) 0 48
def State.extLen (s : State) (core i : Nat) : Nat := bits (s.taskF core (0x60 + 16 * i) 8) 0 48
def State.extWr (s : State) (core i : Nat) : Bool := bit (s.taskF core (0x60 + 16 * i) 8) 48

/-- Whether one extent holds the access wholly, a writable one for a store. -/
def State.inExtent (s : State) (core va len : Nat) (store : Bool) : Bool :=
  (List.range 8).any (fun i =>
    s.extBase core i ≤ va && va + len ≤ s.extBase core i + s.extLen core i && s.extLen core i != 0 &&
      (!store || s.extWr core i))

/-- The fault codes of R138. -/
def fcIllegal : Nat := 1
def fcVreg : Nat := 2
def fcPcRange : Nat := 3
def fcAddress : Nat := 4
def fcExtent : Nat := 5
def fcTranslation : Nat := 6
def fcProtection : Nat := 7
def fcHandle : Nat := 8
def fcStream : Nat := 9
def fcToken : Nat := 10
def fcSram : Nat := 11

/-- A stack access of a task checked and translated: R42, extents, translation, protection, in the order of the fault
codes.  `len` bytes do not cross a page. -/
def State.checkVa (s : State) (core va len : Nat) (store : Bool) : (Except Nat Nat) × State :=
  if 2 ^ 48 ≤ va then (.error fcAddress, s)
  else if !s.inExtent core va len store then (.error fcExtent, s)
  else
    match s.translate (clusterOf core) va with
    | (none, s) => (.error fcTranslation, s)
    | (some (k, w), s) => if store && !w then (.error fcProtection, s) else (.ok k, s)

/-- An access to one of the three spaces of R111: the memory key, or the fault code. -/
def State.checkAccess (s : State) (core space addr len : Nat) (store : Bool) : (Except Nat Nat) × State :=
  if space = 0 then
    (if addr + len ≤ ownBytes core then .ok (keyOwn core addr) else .error fcAddress, s)
  else if space = 1 then
    (if addr + len ≤ sharedBytes then .ok (keyShared (clusterOf core) addr) else .error fcAddress, s)
  else s.checkVa core addr len store

/-! ### Engine clean-up when a task leaves RUNNING (04 R177, 05 R206) -/

/-- A tile freed. -/
def State.freeTile (s : State) (t : Tile) : State :=
  { s with mx := { s.mx with tiles := dropFirst (· == t) s.mx.tiles } }

def State.creditsHeld (s : State) (mc : Nat) : Nat := Tab.get s.mx.credits 0 mc
def State.addCredits (s : State) (mc : Nat) (d : Int) : State :=
  { s with mx := { s.mx with credits := Tab.put s.mx.credits 0 mc ((Int.ofNat (s.creditsHeld mc) + d).toNat) } }

/-- The registers of a core that hold the handle of a released barge become stale (05 R205). -/
def State.staleHandle (s : State) (core h : Nat) : State :=
  let hit (k : Nat) : Bool := k / 32 == core && (s.handle core (k % 32)).toNat == h
  { s with mx := { s.mx with
      staleRegs := s.mx.staleRegs ++ s.mx.takenRegs.filter hit
      takenRegs := s.mx.takenRegs.filter (fun k => !hit k) } }

/-- The handle in a barge (04 R168). -/
def Tile.bargeHandle (t : Tile) : Nat := leNat (t.barge.take 8)

/-- A taken barge released: its tile FREE, its credit back (05 R205). -/
def State.releaseTile (s : State) (t : Tile) : State :=
  ((s.freeTile t).addCredits t.mc (-1)).staleHandle t.taker t.bargeHandle

/-- Every barge that a core holds released (05 R206). -/
def State.releaseAll (s : State) (core : Nat) : State :=
  (s.mx.tiles.filter (fun t => t.st == .taken && t.taker == core)).foldl (fun s t => s.releaseTile t) s

/-- Bits of an instruction word (03 R95). -/
def mxClose (w : Word) (b : Nat) : Bool := bit w.toNat (4 + b)
def mxOpen (w : Word) (b : Nat) : Bool := bit w.toNat b
def mxBands (w : Word) : Nat := 2 ^ bits w.toNat 11 2
def mxSmode (w : Word) : Nat := bits w.toNat 13 2
def mxPlane (w : Word) : Nat := bits w.toNat 16 1
def mxCloses (w : Word) : Nat := ((List.range 4).filter (fun b => mxClose w b)).length

/-- The engine of a core that has left RUNNING, once what had started has completed: its OPEN tiles are FREE and both
planes empty (R177). -/
def State.settle (s : State) (mc : Nat) : State :=
  if s.mx.stopping.contains mc && s.mx.mxms.all (fun x => x.mc != mc) && s.mx.mldps.all (fun x => x.mc != mc) then
    { s with mx := { s.mx with
        stopping := s.mx.stopping.filter (· != mc)
        tiles := s.mx.tiles.filter (fun t => !(t.mc == mc && t.st == .opened))
        planes := Tab.drop s.mx.planes (fun k => k / 2 == mc) } }
  else s

/-- MXMs of a matrix core discarded, with their credits; the tiles that a faulting one adds into and those whose closing MXM goes
are FREE (R176, R177). -/
def State.discardMxms (s : State) (mc : Nat) (p : Mxm → Bool) : State :=
  let goes (x : Mxm) : Bool := x.mc == mc && p x
  let gone := s.mx.mxms.filter goes
  let closed : List Nat := gone.flatMap (fun x =>
    ((List.range 4).filter (fun b => mxClose x.word b)).filterMap (fun b => x.handles[b]?))
  let faulted : List Nat := (gone.filter (fun x => x.bad.isSome)).flatMap Mxm.handles
  let credits := (gone.map (fun x => mxCloses x.word)).foldl (· + ·) 0
  let drop (t : Tile) : Bool :=
    t.mc == mc && ((t.st == .closed && closed.contains t.handle)
      || ((t.st == .opened || t.st == .closed) && faulted.contains t.handle))
  let s := s.addCredits mc (-Int.ofNat credits)
  { s with mx := { s.mx with
      mxms := s.mx.mxms.filter (fun x => !goes x)
      tiles := s.mx.tiles.filter (fun t => !drop t) } }

/-- The engine of a matrix core whose task leaves RUNNING for FAULTED or HALTED (R176, R177): MXMs and MLDPs that have not
started are discarded, and faulting ones; what has started completes, and then the OPEN tiles and the planes go. -/
def State.engineStop (s : State) (mc : Nat) : State :=
  let s := s.discardMxms mc (fun x => !x.started || x.bad.isSome)
  { s with mx := { s.mx with
      mldps := s.mx.mldps.filter (fun x => !(x.mc == mc && (!x.started || x.bad.isSome)))
      stopping := s.mx.stopping.filter (· != mc) ++ [mc] } }.settle mc

/-- The signals that the threads of a core have issued and that wait for stores (01 R36). -/
def State.sigsOf (s : State) (core : Nat) : List (Nat × Word) :=
  (List.range 16).filterMap (fun t =>
    match s.stat core t with
    | .waiting (.release tok) => some (threadKey core t, tok)
    | _ => none)

/-- What both ways out of RUNNING do to a core: barges released, engine stopped, waits dropped; a signal that has issued is still
sent once the stores before it are accepted (R137). -/
def State.leaveTask (s : State) (core : Nat) : State :=
  let s := (s.releaseAll core).engineStop core
  { s with core := { s.core with
      lastSigs := s.core.lastSigs ++ s.sigsOf core
      tstat := Tab.drop s.core.tstat (fun k => k / 16 == core)
      counterWait := s.core.counterWait.filter (fun k => k / 16 != core)
      parked := s.core.parked.filter (fun k => k / 16 != core)
      takeWait := s.core.takeWait.filter (fun k => k / 16 != core) } }

/-- An operation whose results are discarded: it keeps its berths until they land (R122). -/
def Xfer.discard (x : Xfer) : Xfer :=
  match x.act with
  | .chunk _ _ _ _ _ => x                     -- a started MXM may still consume it (04 R177)
  | _ => if x.isStore then x else { x with act := .store, dests := [], late := [] }

/-! ### Task faults (03 R137 to R139) -/

/-- The fault record (R139). -/
def faultRecord (core thread taskId pc : Nat) (f : FInfo) (extra : Nat) (instr : Word) : List Byte :=
  let w2 := match f.elem with
    | some (e, lane) => lane % 64 + e % 512 * 64 + 2 ^ 15
    | none => 0
  leBytes 4 (core % 1024 + thread % 16 * 1024 + f.code % 256 * 2 ^ 16 + f.detail % 256 * 2 ^ 24)
    ++ leBytes 4 (taskId % 2 ^ 16 + pc % 2 ^ 13 * 2 ^ 16)
    ++ leBytes 4 (w2 + min extra 0xFFFF * 2 ^ 16) ++ leBytes 4 0
    ++ leBytes 8 f.addr ++ leBytes 8 instr.toNat

/-- A record written to the hub's fault ring, and its notice sent (R139, 18 R585). -/
def State.pushFault (s : State) (core : Nat) (r : List Byte) : State :=
  let i := s.e.faultN % 1024
  let s := { s with e := { s.e with
    faultRing := Tab.put s.e.faultRing [] i r, faultN := s.e.faultN + 1
    notices := s.e.notices ++ [(core, i, leNat ((r.drop 2).take 1))] } }
  let s := { s with core := { s.core with lastFault := Tab.put s.core.lastFault [] core r } }
  s.sendTok (mkTok 7 56 0 (clusterOf core) (subOf core) 0 core)

/-- The task of a core stops with a fault (R137). -/
def State.taskFault (s : State) (core thread pc : Nat) (f : FInfo) (extra : Nat) (instr : Word) : State :=
  let r := faultRecord core thread (s.taskId core) pc f extra instr
  let s := (s.leaveTask core).setTaskState core tkFaulted
  s.pushFault core r

/-- A fault is better than another under R138: lower code, then an element before none, then lower element. -/
def FInfo.before (a b : FInfo) : Bool :=
  a.code < b.code || (a.code == b.code &&
    match a.elem, b.elem with
    | some x, some y => x.1 < y.1
    | some _, none => true
    | none, _ => false)

def FInfo.elemBefore (a b : FInfo) : Bool :=
  match a.elem, b.elem with
  | some x, some y => x.1 < y.1 || (x.1 == y.1 && a.code < b.code)
  | _, _ => false

/-- The fault that the record reports (R138): among faults of elements alone the lowest element's lowest code; with
a fault of no element among them, the lowest code. -/
def pickFault : List FInfo → Option FInfo
  | [] => none
  | f :: r =>
    if (f :: r).all (fun x => x.elem.isSome) then
      some (r.foldl (fun b x => if x.elemBefore b then x else b) f)
    else some (r.foldl (fun b x => if x.before b then x else b) f)

/-- The tasks launched so far on a core. -/
def State.launchNo (s : State) (core : Nat) : Nat := Tab.get s.core.launches 0 core

/-- The faults that the matrix engine of a core has found after issue in operations of the task that was launched last (04 R176), the
first of the oldest operation first: its number, pc, word and fault. -/
def State.engineFaults (s : State) (mc : Nat) : List (Nat × Nat × Word × FInfo) :=
  let one (id pc : Nat) (w : Word) (bad : Option FInfo) (extra : Nat) : List (Nat × Nat × Word × FInfo) :=
    match bad with
    | none => []
    | some b => List.replicate (extra + 1) (id, pc, w, b)
  let fs := (s.mx.mxms.filter (fun x => x.mc == mc && x.launch == s.launchNo mc)).flatMap (fun x => one x.id x.pc x.word x.bad x.extra)
    ++ (s.mx.mldps.filter (fun x => x.mc == mc)).flatMap (fun x => one x.id x.pc x.word x.bad x.extra)
  match fs with
  | [] => []
  | f :: r =>
    let first := r.foldl (fun b x => if x.1 < b.1 then x else b) f
    first :: fs.erase first

/-- The task of a matrix core stops with the fault that its engine has found, the others, and `more` found beside them, in
EXTRA (R138, 04 R176). -/
def State.engineFault (s : State) (mc : Nat) (more : Nat := 0) : State :=
  match s.engineFaults mc with
  | [] => s
  | (_, pc, w, b) :: r => s.taskFault mc 0 pc b (r.length + more) w

/-- A task halted between instructions (R122); a fault that its engine has found leaves it FAULTED (R140). -/
def State.haltCore (s : State) (core : Nat) : State :=
  if !s.taskRuns core then s
  else if !(s.engineFaults core).isEmpty then s.engineFault core
  else
    let s := s.leaveTask core
    let xs := s.m.xfers.filter (fun (x : Xfer) => !(x.core == core && match x.act with
      | .feed _ _ _ _ _ _ => true
      | _ => false))
    let xs := xs.map (fun (x : Xfer) => if x.core == core then x.discard else x)
    let rs := s.m.reqs.map (fun (r : Req) => if r.core == core && !r.write then { r with land := Land.none } else r)
    let s := { s with m := { s.m with xfers := xs, reqs := rs } }
    s.setTaskState core tkHalted

/-- A refused load (03 R117). -/
def State.refuseLoad (s : State) (core off : Nat) : State := s.file 0x0004 clsNotice 1 core off (s.corePart core)

/-! ### Fence (16 R522) -/

/-- Whether a memory key of a stack belongs to a section of the mask. -/
def stackInSecs (mask key : Nat) : Bool := key < 2 ^ 39 && bit mask (key / 2 ^ 36)

/-- A partition fenced: its tasks stop, its staging lines go, its state is FENCED with the cause kept (R522, R523). -/
def State.fencePart (s : State) (p cause : Nat) : State :=
  if s.partState p = ptBuilding ∨ s.partState p = ptStarted then
    let mask := s.sections p
    let s := (s.partCores p).foldl (fun s c => s.haltCore c) s
    let s := { s with m := { s.m with
      staged := s.m.staged.filter (fun b => !stackInSecs mask (b * 64))
      hot := s.m.hot.filter (fun h => !stackInSecs mask (h.burst * 64)) } }
    let s := s.setFld (PART_KEY_SWEEP p) 0
    -- a job stops with cause FENCED (14, STEP_STATUS)
    let s := if s.on (STEP_STATUS_STATE p) then (s.setFld (STEP_STATUS_STATE p) 4).setFld (STEP_STATUS_CAUSE p) 7 else s
    (s.setFld (PART_STATUS_STATE p) ptFenced).setFld (PART_STATUS_CAUSE p) cause
  else s

/-- Memory that no partition owns, or the partition that owns a stack key. -/
def State.keyPart (s : State) (key : Nat) : Option Nat := s.secPart (key / 2 ^ 36)

/-- An uncorrectable error at a stack key (08 R284): recorded, reported, its partition fenced. -/
def State.stackUE (s : State) (key : Nat) : State :=
  let st := key / 2 ^ 36
  let a := key % 2 ^ 36
  let s := (s.setFld (STK_UE_ADDR_ADDR st) a).setFld (STK_UE_ADDR_VALID st) 1
  let src := st * 64 + bits a 8 6
  match s.keyPart key with
  | some p => (s.file 0x0021 clsPartition 3 src a (some p)).fencePart p 1
  | none => s.file 0x0022 clsNotice 3 src a

/-! ### Errors of codewords (08 R279 to R284) -/

/-- Symbols that go bad. -/
def State.addErrs (s : State) (st : Nat) (l : List SymErr) : State :=
  l.foldl (fun s e =>
    let b := burstOf (keyStack st (e.addr % 2 ^ 36))
    s.setSymbols b (e.symbols.foldl (fun m i => m ||| 2 ^ (i % 18)) (s.symbols b))) s

/-- A codeword read: false when it is uncorrectable; a correction is counted and reported (R282). -/
def State.readCode (s : State) (burst : Nat) : Bool × State :=
  let n := popCount (s.symbols burst)
  if n = 0 then (true, s)
  else if n = 1 then (true, s.noteCe burst)
  else (false, s.stackUE (burst * 64))

end Sys2Proof.Machine
end

