-- ==== Sys2Proof/Machine/HubMem.lean ====
section
/-! DEFINITION. Stack memory as the hub, the port engine groups and the base engines reach it: by virtual address of a
partition (01 R42 to R47) or by memory key, with the symbol code checked (08 R282, R284). -/

namespace Sys2Proof.Machine

/-- The keys of `n` bytes at a virtual address of a partition, 64-byte unit by unit; none where a page is missing. -/
def State.hubKeysFrom (s : State) (p : Nat) : Nat → Nat → Nat → Option (List Nat)
  | 0, _, n => if n = 0 then some [] else none
  | fuel + 1, va, n =>
    if n = 0 then some []
    else
      let m := min n (64 - va % 64)
      match s.hubTranslate p va with
      | none => none
      | some (k, _) => (s.hubKeysFrom p fuel (va + m) (n - m)).map (fun r => (List.range m).map (· + k) ++ r)

def State.hubKeys (s : State) (p va n : Nat) : Option (List Nat) := s.hubKeysFrom p (n / 64 + 2) va n

/-- Whether every page of a range is mapped with stores allowed. -/
def State.hubWritable (s : State) (p va n : Nat) : Bool :=
  (List.range (n / 64 + 2)).all (fun i =>
    let a := va / 64 * 64 + 64 * i
    va + n ≤ a || ((s.hubTranslate p a).map Prod.snd).getD false)

/-- Bytes of tables and descriptors at a virtual address: none where nothing is mapped or a codeword is uncorrectable (08
R284).  The read itself is recorded by hubSeen. -/
def State.hubPeek (s : State) (p va n : Nat) : Option (List Byte) :=
  (s.hubKeys p va n).bind (fun ks => if s.lost ks then none else some (ks.map s.m.mem.rd))

/-- A little-endian number at a virtual address; 0 where hubPeek has nothing. -/
def State.hubNum (s : State) (p va n : Nat) : Nat := ((s.hubPeek p va n).map leNat).getD 0

/-- Codewords read, in order, up to the first that is uncorrectable. -/
def State.readBursts (s : State) : List Nat → Bool × State
  | [] => (true, s)
  | b :: r =>
    if s.isStaged b then s.readBursts r
    else
      match s.readCode b with
      | (true, s) => s.readBursts r
      | (false, s) => (false, s)

/-- Bytes by key, through the symbol code or from the staging lines (R277, R282); none where a codeword is uncorrectable. -/
def State.readNow (s : State) (ks : List Nat) : Option (List Byte) × State :=
  match s.readBursts (burstsOf ks) with
  | (true, s) => (some (ks.map s.m.mem.rd), s)
  | (false, s) => (none, s)

/-- Bytes read by key by the unit with requester number `who` (R286): its requests take their rounds at the arbiters. -/
def State.readKeys (s : State) (who : Nat) (ks : List Nat) : Option (List Byte) × State :=
  match s.readNow ks with
  | (some d, s) => (some d, s.ask who 0 .unit false ks)
  | (none, s) => (none, s)

/-- How many of the keys lie in a burst. -/
def keysIn (ks : List Nat) (b : Nat) : Nat := (ks.filter (fun k => burstOf k == b)).length

/-- Codewords read for a merge, in order, up to the first that is uncorrectable (R281). -/
def State.mergeBursts (s : State) : List Nat → Bool × State
  | [] => (true, s)
  | b :: r =>
    match s.readCode b with
    | (true, s) => s.mergeBursts r
    | (false, s) => (false, s)

/-- Bytes written by key, their codewords encoded anew: one written in part is read first (R281); false where it is
uncorrectable. -/
def State.writeNow (s : State) (cells : List (Nat × Byte)) : Bool × State :=
  let ks := cells.map Prod.fst
  match s.mergeBursts ((burstsOf ks).filter (fun b => keysIn ks b < 64)) with
  | (false, s) => (false, s)
  | (true, s) =>
    let s := (burstsOf ks).foldl (fun s b => s.setSymbols b 0) s
    (true, s.wrCells cells)

/-- Bytes written by key by the unit with requester number `who`; its requests take their rounds at the arbiters. -/
def State.writeKeys' (s : State) (who : Nat) (cells : List (Nat × Byte)) : Bool × State :=
  match s.writeNow cells with
  | (false, s) => (false, s)
  | (true, s) => (true, s.ask who 0 .unit true (cells.map Prod.fst))

/-- An entry of a page table read by the unit with requester number `who`: a correction counted, an uncorrectable error reported
and its partition fenced (R282, R284), its request at the arbiter. -/
def State.entrySeen (s : State) (who k : Nat) : State := (s.readKeys who ((List.range 8).map (· + k))).2

/-- The virtual pages of 2 MiB that a range touches. -/
def pagesOf (va n : Nat) : List Nat :=
  if n = 0 then [] else (List.range ((va % 2 ^ 21 + n + (2 ^ 21 - 1)) / 2 ^ 21)).map (fun i => va / 2 ^ 21 * 2 ^ 21 + 2 ^ 21 * i)

/-- The walks for a range of a partition's virtual addresses: their entries read (01 R46, R282, R284). -/
def State.walkSeen (s : State) (who p va n : Nat) : State :=
  ((pagesOf va n).flatMap (s.trailRoot p)).foldl (fun s k => s.entrySeen who k) s

/-- Bytes at a virtual address read through the symbol code: none where a page is missing or a codeword is
uncorrectable. -/
def State.hubRead (s : State) (who p va n : Nat) : Option (List Byte) × State :=
  match s.hubKeys p va n with
  | none => (none, s.walkSeen who p va n)
  | some ks => (s.walkSeen who p va n).readKeys who ks

/-- Bytes written at a virtual address; false where a page is missing or a codeword is uncorrectable. -/
def State.hubWrite (s : State) (who p va : Nat) (data : List Byte) : Bool × State :=
  match s.hubKeys p va data.length with
  | none => (false, s.walkSeen who p va data.length)
  | some ks => (s.walkSeen who p va data.length).writeKeys' who (ks.zip data)

/-- A read of tables or descriptors recorded: corrections counted, an uncorrectable error reported and its partition fenced
(R282, R284), its requests at the arbiters. -/
def State.hubSeen (s : State) (who p va n : Nat) : State := (s.hubRead who p va n).2

/-! ### Virtual addresses of memory (13 R462) -/

/-- The pages that a table of a level maps, each with its virtual address and its size (01 R46). -/
def State.leavesFrom (s : State) (p : Nat) : Nat → Nat → Nat → Nat → List (Nat × Nat × Bool)
  | 0, _, _, _ => []
  | n + 1, level, table, va =>
    (List.range 512).flatMap (fun i =>
      let at_ := va + 2 ^ (48 - 9 * level) * i
      match s.physKey (table + 8 * i) with
      | none => []
      | some k =>
        match s.walkEntry p level (s.rd k 8) with
        | none => []
        | some (.inl next) => s.leavesFrom p n (level + 1) next at_
        | some (.inr (page, big)) => [(at_, page, big)])

/-- The pages of a partition. -/
def State.leaves (s : State) (p : Nat) : List (Nat × Nat × Bool) :=
  let root := s.fld (PART_PT_ROOT_ROOT p) * 4096
  if s.physOk p root 4096 then s.leavesFrom p 3 1 root 0 else []

/-- The device physical address of a byte of a stack as a page names it (01 R43). -/
def physIn (page key : Nat) : Nat :=
  if bit page 39 then 2 ^ 39 + 2 ^ 15 * (key % 2 ^ 36 / 4096) + 4096 * (key / 2 ^ 36) + key % 4096 else key

/-- The virtual addresses of a byte of a stack: one for each page of the partition that holds it. -/
def State.vasOf (s : State) (p key : Nat) : List Nat :=
  (s.leaves p).filterMap (fun e =>
    let pa := physIn e.2.1 key
    if e.2.1 ≤ pa && decide (pa < e.2.1 + (if e.2.2 then 2 ^ 30 else 2 ^ 21)) then some (e.1 + (pa - e.2.1)) else none)

/-- The virtual address that the journal entry of a record names (13 R462): one of its virtual addresses, where several pages hold
it a free one; where no page does, which the spec leaves open, a free multiple of 64 (assumption 62). -/
def State.recordVa (s : State) (p key : Nat) : Nat :=
  let l := s.vasOf p key
  if l.isEmpty then 64 * (Config.recordVa p key % 2 ^ 42) else l.getD (Config.recordVa p key % l.length) 0

end Sys2Proof.Machine
end

