-- ==== Sys2Proof/Machine/Requests.lean ====
section
/-! DEFINITION. Requests of cores to the pseudo-channels and to the banks of shared memory (08 R286 to R297, 01 R24 to
R26, R677): berths, queues, the arbiter's decision, a burst served, a reply that lands, the end of an operation. -/

namespace Sys2Proof.Machine

def State.bank (s : State) (b : Nat) : Bank := Tab.get s.m.banks .idle b
def State.setBank (s : State) (b : Nat) (v : Bank) : State :=
  { s with m := { s.m with banks := Tab.put s.m.banks .idle b v } }

/-! ### Berths (03 R126, 08 R293) -/

/-- The sluice depth of a stream descriptor. -/
def Stream.depth (st : Stream) : Nat := leNat ((st.desc.drop 2).take 2)

/-- Chunks that the open streams of a core reserve. -/
def State.reserved (s : State) (core : Nat) : Nat :=
  ((List.range 16).map (fun q => let x := s.stream core q; if x.isOpen then x.depth else 0)).foldl (· + ·) 0

/-- Whether a request has left its core. -/
def Req.out (r : Req) : Bool := r.stat == .queued || r.stat == .granted

/-- What a request's berth is for (R316, 07 R263): a stack request has one of its own, the requests of one operation within
256 bytes of shared memory share one, and those of a stream's chunk do. -/
def Req.slot (r : Req) : Nat × Nat :=
  if r.stream then (r.xfer, 0) else if r.bank = 0 then (r.xfer, r.key / 256) else (r.xfer, r.key)

/-- The berths taken by the requests of a core that have left, those of its threads or those of its streams. -/
def State.slotsOut (s : State) (core : Nat) (stream : Bool) : List (Nat × Nat) :=
  ((s.m.reqs.filter (fun (r : Req) => r.core == core && r.stream == stream && r.out)).map Req.slot).eraseDups

/-- Berths that the threads of a traversal core hold. -/
def State.berths (s : State) (core : Nat) : Nat :=
  (s.slotsOut core false).length
    + (s.b.cmds.filter (fun (x : BCmd) => x.core == core && x.stream.isNone)).length

/-- Whether a thread of the core may take a new berth (R126). -/
def State.berthFree (s : State) (core : Nat) : Bool :=
  isMatrix core || s.berths core < 512 - s.reserved core

/-- Berths held against a bank (R293). -/
def State.bankBerths (s : State) (core b : Nat) : Nat :=
  (s.m.reqs.filter (fun (r : Req) => r.core == core && r.bank == b && r.out)).length

def State.bankFree (s : State) (core b : Nat) : Bool :=
  b == 0 || isMatrix core || s.bankBerths core b < 64

/-- The berths that an operation on bytes needs, by key: one for each region of a stack, one for each 256 bytes of shared memory
(R316). -/
def berthsFor (cells : List (Nat × Byte)) : Nat :=
  (((groupCells cells).map (fun g => if isStackKey g.1 then g.1 else g.1 / 256)).eraseDups).length

/-- Whether a thread of the core may start an operation that needs `n` berths (R106, R126, 01 R40). -/
def State.berthsFree (s : State) (core n : Nat) : Bool :=
  isMatrix core || decide (s.berths core + n ≤ 512 - s.reserved core)

/-- Whether a request may leave its core now: under its bank's cap, with a berth that it shares or a new one.  A stream takes
berths as the threads return them (R126). -/
def State.mayLeave (s : State) (r : Req) : Bool :=
  s.bankFree r.core r.bank && (isMatrix r.core || (s.slotsOut r.core r.stream).contains r.slot
    || (if r.stream then decide (s.berths r.core + (s.slotsOut r.core true).length < 512) else s.berthFree r.core))

/-! ### Landing and completion -/

/-- The register contents that pieces of memory give (inactive bits kept). -/
def fillPieces (got : Mem) (old : Nat) : List Piece → Nat
  | [] => old
  | p :: r =>
    fillPieces got (setBits old p.pos p.len (bits (Mem.rdLE got p.key p.nb) p.sh p.len)) r

/-- A stored value of a loaded scalar: signed types are sign-extended (R112). -/
def extendTo64 (ty : Ty) (v : Nat) : Word :=
  BitVec.ofInt 64 (ty.readInt v)

/-- Stores and stream writes of a thread not yet accepted (R131, R36). -/
def State.storesOut (s : State) (core t : Nat) : Bool :=
  s.m.xfers.any (fun (x : Xfer) => x.core == core && x.thread == t && x.isStore)

def State.resume (s : State) (core t : Nat) : State :=
  (s.setPc core t (s.pc core t + 1)).setStat core t .running

/-- The signals of a thread's last task that have waited for its stores are sent (01 R36). -/
def State.sendLastSigs (s : State) (core t : Nat) : State :=
  let mine := s.core.lastSigs.filter (fun e => e.1 == threadKey core t)
  mine.foldl (fun s e => s.sendTok e.2)
    { s with core := { s.core with lastSigs := s.core.lastSigs.filter (fun e => e.1 != threadKey core t) } }

/-- A thread whose SIG or FENCE waits for its stores goes on once they are accepted. -/
def State.wakeStores (s : State) (core t : Nat) : State :=
  if s.storesOut core t then s
  else let s := s.sendLastSigs core t
  match s.stat core t with
    | .waiting (.release tok) => (s.sendTok tok).resume core t
    | .waiting .fence => s.resume core t
    | _ => s

/-- Whether a task waits for its end: RUNNING, every thread ended. -/
def State.allEnded (s : State) (core : Nat) : Bool :=
  s.taskRuns core && (List.range (s.threads core)).all (fun t => s.stat core t == .ended)

/-- The end of a task (R121, 02 R82, 04 R178, 05 R206): once every thread has ended, every store is accepted and every
closing MXM has posted its barge. -/
def State.tryEnd (s : State) (core : Nat) : State :=
  if s.allEnded core && !(s.m.xfers.any (fun (x : Xfer) => x.core == core && x.isStore))
      && !(s.mx.tiles.any (fun t => t.mc == core && t.st == .closed)) && (s.engineFaults core).isEmpty then
    let fl := (List.range (s.threads core)).foldl (fun (f : Flags) t => f ||| s.flags core t) 0
    let s := match s.corePart core with
      | some p => s.setFld (NUM_STEP_FLAGS_FLAGS p) (s.fld (NUM_STEP_FLAGS_FLAGS p) ||| fl.toNat)
      | none => s
    let s := s.releaseAll core
    let s := { s with mx := { s.mx with
      planes := Tab.drop s.mx.planes (fun k => k / 2 == core)
      mldps := s.mx.mldps.filter (fun x => x.mc != core) } }
    let d := s.taskF core 8 4
    let s := s.setTaskState core tkEnded
    s.sendTok (mkTok 1 (bits d 0 8) (bits d 8 5) (clusterOf core) (subOf core) (bits d 16 8) 1)
  else s

/-- A finished operation leaves the list. -/
def State.dropXfer (s : State) (id : Nat) : State :=
  { s with m := { s.m with xfers := s.m.xfers.filter (fun (x : Xfer) => x.id != id) } }

/-- A row handed to a stream by a gather (09 R331): true when it had been supplied before or the stream is gone. -/
def State.supply (s : State) (mc q row : Nat) (data : List Byte) : Bool × State :=
  let st := s.stream mc q
  if !st.isOpen || st.closing || row < st.rowsTaken || st.fed.any (fun r => r.row == row) then (true, s)
  else (false, s.setStream mc q { st with fed := st.fed ++ [⟨row, data, 0⟩] })

/-- A gather into a stream after one more of its rows has been accepted; its result word is written after the last
(09 R313). -/
def State.feedDone (s : State) (master : Nat) (coll : Bool) : State :=
  match s.m.xfers.find? (fun (x : Xfer) => x.id == master) with
  | none => s
  | some x =>
    match x.act with
    | .feed dst w mc q rb ws =>
      let w := if coll then w % 2 ^ 32 + 2 ^ 32 else w
      if x.todo ≤ 1 then (s.setS x.core x.thread dst (BitVec.ofNat 64 w)).dropXfer master
      else
        let x := { x with todo := x.todo - 1, act := .feed dst w mc q rb ws }
        { s with m := { s.m with xfers := s.m.xfers.map (fun (y : Xfer) => if y.id == master then x else y) } }
    | _ => s

/-- Whether anything of a stream is still in flight. -/
def State.streamBusy (s : State) (core q : Nat) : Bool :=
  s.m.xfers.any (fun (x : Xfer) => x.core == core && match x.act with
    | .chunk q' _ _ _ _ => q' == q
    | .wchunk q' => q' == q
    | _ => false)
  || s.b.cmds.any (fun (x : BCmd) => x.core == core && x.thread == 16 + q && x.stream.isSome && !x.dead)

/-- The rows that gathers still bring for a stream lose it: a core that does not exist takes its place, and every row
is discarded as one for a closed stream (09 R331). -/
def State.orphanFeeds (s : State) (core : Nat) (p : Nat → Bool) : State :=
  { s with m := { s.m with xfers := s.m.xfers.map (fun (x : Xfer) =>
      match x.act with
      | .feed d w mc q rb ws => if mc = core && p q then { x with act := .feed d w 800 q rb ws } else x
      | .feedRow m mc q r rb ks => if mc = core && p q then { x with act := .feedRow m 800 q r rb ks } else x
      | _ => x) } }

/-- Threads of a core whose next instruction had been found to wait may be ready again: data has landed, or a berth, a credit
or a chunk has come (03 R106). -/
def State.unblock (s : State) (core : Nat) : State :=
  { s with core := { s.core with
      blocked := s.core.blocked.filter (fun k => k / 16 != core), berthWait := s.core.berthWait.filter (fun k => k / 16 != core) } }

/-- A stream freed: the berths that it reserved return to the threads (03 R126). -/
def State.freeStream (s : State) (core q : Nat) : State :=
  ((s.setStream core q .closed).orphanFeeds core (· == q)).unblock core

/-- A closing stream with nothing in flight is freed, and its SCLOSE completes (03 R126). -/
def State.tryClose (s : State) (core q : Nat) : State :=
  let st := s.stream core q
  if st.closing && !s.streamBusy core q then
    let s := s.freeStream core q
    (List.range 16).foldl (fun s t => if s.stat core t == .waiting (.close q) then s.resume core t else s) s
  else s

/-- An operation and its requests recorded, none of them gone out yet. -/
def State.pushXfer (s : State) (x : Xfer) (stream write : Bool) (groups : List (Nat × List (Nat × Byte))) : State :=
  let xid := s.m.nextId
  let rs := mkReqs (Req.ofCore x.core stream write xid) (xid + 1) groups
  let x := { x with id := xid, todo := rs.length }
  { s with m := { s.m with xfers := s.m.xfers ++ [x], reqs := s.m.reqs ++ rs, nextId := xid + 1 + rs.length } }

/-- The cells of 64-byte units, as a read asks for them. -/
def unitCells (units : List Nat) : List (Nat × List (Nat × Byte)) :=
  units.map (fun u => (u, (List.range 64).map (fun i => (u + i, 0))))

/-- The next dependent reads of an operation in flight (07 R267). -/
def State.nextReads (s : State) (x : Xfer) (units : List Nat) (act : XAct) : State :=
  let rs := mkReqs (Req.ofCore x.core false false x.id) s.m.nextId (unitCells units)
  { s with m := { s.m with
      xfers := s.m.xfers.map (fun (y : Xfer) => if y.id == x.id then { x with todo := rs.length, act := act } else y)
      reqs := s.m.reqs ++ rs, nextId := s.m.nextId + rs.length } }

/-- The effect of an operation whose last request has landed or been accepted. -/
def State.endXfer (s : State) (x : Xfer) : State :=
  let s := (s.wrCells x.late).orFlags x.core (if x.thread < 16 then x.thread else 0) x.fl
  match x.act with
  | .ld dst ty key => (s.setS x.core x.thread dst (extendTo64 ty (Mem.rdLE x.got key (ty.bits / 8)))).dropXfer x.id
  | .vec dst ps =>
    (s.setV x.core x.thread dst (BitVec.ofNat 2048 (fillPieces x.got (s.vreg x.core x.thread dst).toNat ps))).dropXfer x.id
  | .store => ((s.dropXfer x.id).wakeStores x.core x.thread).tryEnd x.core
  | .chunk _ _ _ _ _ => s                    -- lands at CHUNK_LAND
  | .wchunk q =>
    let st := s.stream x.core q
    let s := if st.isOpen then s.setStream x.core q { st with credits := st.credits + 1 } else s
    (((s.dropXfer x.id).tryClose x.core q).wakeStores x.core x.thread).tryEnd x.core
  | .result dst w _ =>
    let s := (s.setS x.core x.thread dst (BitVec.ofNat 64 w)).dropXfer x.id
    if s.stat x.core x.thread == .waiting (.result x.id) then s.resume x.core x.thread else s
  | .feed _ _ _ _ _ _ => s                   -- ends with its rows
  | .feedRow master mc q row rb keys =>
    let data := if keys.isEmpty then List.replicate rb 0 else keys.map (fun k => x.got.rd k)
    let (coll, s) := s.supply mc q row data
    (s.dropXfer x.id).feedDone master coll
  | .gathRow master key pitch keys =>
    let data := keys.map (fun k => x.got.rd k) ++ List.replicate (pitch - keys.length) 0
    let s := s.dropXfer x.id
    if key < 2 ^ 43 then (s.wrB key data).feedDone master false
    else
      s.pushXfer { x with act := .gathPut master, late := [], fl := 0, got := [] } false true
        (groupCells (((List.range pitch).map (· + key)).zip data))
  | .gathPut master => (s.dropXfer x.id).feedDone master false

/-- An operation whose last request has landed or been accepted ends, or asks for its next dependent reads. -/
def State.finishXfer (s : State) (x : Xfer) : State :=
  match x.act with
  | .result dst w (units :: later) => s.nextReads x units (.result dst w later)
  | _ => s.endXfer x

/-- A request's data lands or its write is accepted: its berth returns. -/
def State.landReq (s : State) (r : Req) : State :=
  let s := State.unblock { s with m := { s.m with reqs := s.m.reqs.filter (fun (y : Req) => y.id != r.id) } } r.core
  match s.m.xfers.find? (fun (x : Xfer) => x.id == r.xfer) with
  | none => s
  | some x =>
    let s := match r.land with
      | .mem k => s.wrCells (r.data.map (fun (e : Nat × Byte) => (k + (e.1 - r.key), e.2)))
      | .none => s
    let x : Xfer := { x with
      todo := x.todo - 1
      got := if r.write then x.got else r.data.foldl (fun (m : Mem) e => Mem.wr m e.1 e.2) x.got }
    let s := { s with m := { s.m with xfers := s.m.xfers.map (fun (y : Xfer) => if y.id == x.id then x else y) } }
    if x.todo = 0 then s.finishXfer x else s

/-! ### The hot tracker (08 R276) -/

/-- A read counted by the hot tracker; the read after the count reaches THRESH installs the burst. -/
def State.trackRead (s : State) (b cyc : Nat) : State :=
  let st := stackOfBurst b
  let thresh := s.fld (STK_STAGE_CFG_THRESH st)
  let window := s.fld (STK_STAGE_CFG_WINDOW st)
  match s.m.hot.find? (fun h => h.burst == b) with
  | some h =>
    let others := s.m.hot.filter (fun h => h.burst != b)
    if thresh ≤ h.count then
      let mine := s.m.staged.filter (fun x => stackOfBurst x == st)
      let staged := if 65536 ≤ mine.length then dropFirst (fun x => stackOfBurst x == st) s.m.staged else s.m.staged
      { s with m := { s.m with hot := others, staged := staged ++ [b] } }
    else
      let h := if cyc - h.since < window then { h with count := h.count + 1 } else ⟨b, 1, cyc⟩
      { s with m := { s.m with hot := others ++ [h] } }
  | none =>
    let mine := s.m.hot.filter (fun h => stackOfBurst h.burst == st)
    let hot := if 1024 ≤ mine.length then dropFirst (fun h => stackOfBurst h.burst == st) s.m.hot else s.m.hot
    { s with m := { s.m with hot := hot ++ [⟨b, 1, cyc⟩] } }

/-! ### Requests leave their core -/

def State.updReq (s : State) (r : Req) : State :=
  { s with m := { s.m with reqs := s.m.reqs.map (fun (y : Req) => if y.id == r.id then r else y) } }

/-- The bytes of a read taken from memory. -/
def State.capture (s : State) (d : List (Nat × Byte)) (b : Nat) : List (Nat × Byte) :=
  d.map (fun e => if burstOf e.1 == b then (e.1, s.m.mem.rd e.1) else e)

/-- A read served from the lines that hold its bursts, without a burst slot (08 R277); it is granted when none is left. -/
def State.fromLines (s : State) (r : Req) : Req :=
  let hits := if r.bank = 0 ∨ r.write then [] else r.left.filter s.isStaged
  let left := r.left.filter (fun b => !hits.contains b)
  { r with data := hits.foldl s.capture r.data, left := left, stat := if left.isEmpty then .granted else .queued }

/-- A request put into its queue, after those before it. -/
def State.queueReq (s : State) (r : Req) : State :=
  let hits := if r.bank = 0 ∨ r.write then [] else r.left.filter s.isStaged
  let s := { s with m := { s.m with reqs := s.m.reqs.filter (fun (y : Req) => y.id != r.id) ++ [s.fromLines r] } }
  (hits.foldl State.touchStaged s).arrive r.inst r.rqr

/-- The operation whose requests leave one after another with this one's: the rows of a list gather leave in list order
(09 R312). -/
def State.lineOf (s : State) (r : Req) : Nat :=
  match s.m.xfers.find? (fun (x : Xfer) => x.id == r.xfer) with
  | some x =>
    match x.act with
    | .feedRow m _ _ _ _ _ => m
    | .gathRow m _ _ _ => m
    | _ => r.xfer
  | none => r.xfer

/-- A thread whose next request would exceed the bank cap parks in bank-wait, and the park is counted (08 R294); a thread
that waits already goes on waiting as it does. -/
def State.park (s : State) (r : Req) : State :=
  match s.m.xfers.find? (fun (x : Xfer) => x.id == r.xfer) with
  | some x =>
    if r.stat == .held && !r.stream && !s.bankFree r.core r.bank && decide (x.thread < 16) then
      let s := s.updReq { r with stat := .parked }
      let s := if s.stat r.core x.thread == .running then s.setStat r.core x.thread (.waiting (.bank r.bank)) else s
      let s := { s with core := { s.core with
        parked := s.core.parked.filter (· != threadKey r.core x.thread) ++ [threadKey r.core x.thread] } }
      s.count (TC_BANK_WAIT_PARKS (clusterOf r.core) (subOf r.core)) 1
    else s
  | none => s

/-- Requests of a core that may leave now leave, in order; one that may not holds back the later ones of its operation. -/
def State.promoteList (s : State) : List Req → List Nat → State
  | [], _ => s
  | r :: rest, blocked =>
    if blocked.contains (s.lineOf r) then s.promoteList rest blocked
    else if s.mayLeave r then (s.queueReq r).promoteList rest blocked
    else (s.park r).promoteList rest (s.lineOf r :: blocked)

/-- The thread whose operation a request belongs to (16 and above: a stream). -/
def State.threadOf (s : State) (r : Req) : Nat :=
  ((s.m.xfers.find? (fun (x : Xfer) => x.id == r.xfer)).map Xfer.thread).getD 16

/-- The requests of a core that have not left, in the order in which they may: those of parked threads in the order in which the
threads parked (08 R294), then the others as they came. -/
def State.inLine (s : State) (core : Nat) : List Req :=
  let rs := s.m.reqs.filter (fun (r : Req) => r.core == core && !r.out)
  let parked (r : Req) (k : Nat) : Bool := r.stat == .parked && threadKey core (s.threadOf r) == k
  (s.core.parked.flatMap (fun k => rs.filter (fun r => parked r k)))
    ++ rs.filter (fun r => !s.core.parked.any (parked r))

def State.promote (s : State) (core : Nat) : State := s.promoteList (s.inLine core) []

/-- A parked thread (kept as core x 16 + thread) that goes on (08 R294). -/
def State.unparkOne (s : State) (core k : Nat) : State :=
  let s := { s with core := { s.core with parked := s.core.parked.filter (· != k) } }
  match s.stat core (k % 16) with
  | .waiting (.bank _) => s.setStat core (k % 16) .running
  | _ => s

/-- The threads of a core in bank-wait, in the order in which they parked, whose requests have all left go on (08 R294). -/
def State.unpark (s : State) (core : Nat) : State :=
  let waits (k : Nat) : Bool := s.m.reqs.any (fun (r : Req) => r.core == core && r.stat == .parked
    && s.m.xfers.any (fun (x : Xfer) => x.id == r.xfer && x.thread == k % 16))
  (s.core.parked.filter (fun k => k / 16 == core && !waits k)).foldl (fun s k => s.unparkOne core k) s

/-- An operation started with these requests, each a unit with its bytes: they wait for their berths, in order, and
those that may leave do. -/
def State.startGroups (s : State) (x : Xfer) (stream write : Bool) (groups : List (Nat × List (Nat × Byte))) : State :=
  if groups.isEmpty then
    let x := { x with id := s.m.nextId }
    let s := { s with m := { s.m with xfers := s.m.xfers ++ [x], nextId := s.m.nextId + 1 } }
    (s.finishXfer x).promote x.core
  else (s.pushXfer x stream write groups).promote x.core

/-- An operation on bytes, by key: one request for each 256-byte region of a stack and each 64-byte unit of shared
memory. -/
def State.startXfer (s : State) (x : Xfer) (stream write : Bool) (cells : List (Nat × Byte)) : State :=
  s.startGroups x stream write (groupCells cells)

/-- An operation that reads 64-byte units of a stack, one berth each (07 R263). -/
def State.startReads (s : State) (x : Xfer) (units : List Nat) : State :=
  s.startGroups x false false (unitCells units)

/-! ### The arbiter's decision (08 R288 to R291) -/

def State.age (s : State) (inst r : Nat) : Nat := Tab.get s.m.ages 0 (inst * 16 + r)
def State.setAge (s : State) (inst r v : Nat) : State :=
  { s with m := { s.m with ages := Tab.put s.m.ages 0 (inst * 16 + r) v } }

/-- The first of the candidates after `last`, cyclically over 16 requesters. -/
def firstAfter (last : Nat) (cand : List Nat) : Option Nat :=
  ((List.range 16).map (fun i => (last + 1 + i) % 16)).find? (fun r => cand.contains r)

def maxOf (l : List Nat) : Nat := l.foldl max 0

/-- The winner among the eligible requesters, and whether it was overdue or ranked in the background. -/
def State.pickWinner (s : State) (inst : Nat) (elig : List Nat) : Option (Nat × Nat) :=
  let slot := Tab.get s.m.slots 0 (inst * 64 + Tab.get s.m.rounds 0 inst % 64)
  let overdue := elig.filter (fun r => s.age inst r == 15)
  if elig.isEmpty then none
  else if !overdue.isEmpty then (firstAfter (Tab.get s.m.lastOver 15 inst) overdue).map (fun r => (r, 1))
  else if 16 ≤ slot ∧ elig.contains (slot % 16) then some (slot % 16, 0)
  else
    let rank (r : Nat) := s.fld (ARB_PRIO_PRIO inst r) + s.age inst r
    let top := elig.filter (fun r => rank r == maxOf (elig.map rank))
    let old := top.filter (fun r => s.age inst r == maxOf (top.map (s.age inst)))
    (firstAfter (Tab.get s.m.lastBg 15 inst) old).map (fun r => (r, 2))

/-- Ages after a round in which `w` won among `elig` and `asking` request (R288). -/
def State.ageRound (s : State) (inst : Nat) (elig asking : List Nat) (w : Option Nat) : State :=
  (List.range 16).foldl (fun s r =>
    if w == some r || !asking.contains r then s.setAge inst r 0
    else if elig.contains r then s.setAge inst r (min (s.age inst r + 1) 15)
    else s) s

/-- The last winner of its kind remembered. -/
def State.noteWinner (s : State) (inst w kind : Nat) : State :=
  if kind = 1 then { s with m := { s.m with lastOver := Tab.put s.m.lastOver 15 inst w } }
  else if kind = 2 then { s with m := { s.m with lastBg := Tab.put s.m.lastBg 15 inst w } }
  else s

def State.advance (s : State) (inst n : Nat) : State :=
  { s with m := { s.m with rounds := Tab.put s.m.rounds 0 inst (Tab.get s.m.rounds 0 inst + n) } }

/-- The shadow slot table and priorities copied into force (R290). -/
def State.commitArb (s : State) (inst : Nat) : State :=
  let s := (List.range 64).foldl (fun s j =>
    let v := s.fld (ARB_SLOT_OWNER inst j) + 16 * s.fld (ARB_SLOT_VALID inst j)
    { s with m := { s.m with slots := Tab.put s.m.slots 0 (inst * 64 + j) v } }) s
  (List.range 16).foldl (fun s r => s.setFld (ARB_PRIO_PRIO inst r) (s.fld (ARB_PRIO_SH_PRIO_SH inst r))) s

def State.startRound (s : State) (inst : Nat) : State :=
  if s.m.commitP.contains inst then
    let s := s.commitArb inst
    { s with m := { s.m with commitP := s.m.commitP.filter (· != inst) } }
  else s

def State.inPenalty (s : State) (inst r : Nat) : Bool :=
  Tab.get s.m.rounds 0 inst < Tab.get s.m.penalty 0 (inst * 16 + r)

/-! ### Service of one unit of a request -/

/-- The refresh interval of a bank: halved from 85 °C upward (R272).  The hottest junction stands for Tcase (assumption
138). -/
def State.refreshInterval (s : State) : Nat := if 85 ≤ s.fld PM_POWER_TJ_MAX then 3510 else 7020

/-- Whether a bank's refresh is due: its interval has passed since its last refresh began (R272). -/
def State.refreshDue (s : State) (inst b : Nat) : Bool :=
  decide ((s.bank b).refEnd - 288 + s.refreshInterval ≤ s.cyc inst)

/-- Whether a bank is under refresh or waits for it (R273). -/
def State.refreshing (s : State) (inst b : Nat) : Bool :=
  b != 0 && (decide (s.cyc inst < (s.bank b).refEnd) || s.refreshDue inst b)

/-- Whether a bank accepts a request now (R287). -/
def State.bankTakes (s : State) (r : Req) : Bool :=
  if r.bank = 0 then true
  else
    let b := s.bank r.bank
    let c := s.cyc r.inst
    !s.refreshing r.inst r.bank &&
      (if b.row == some r.row then decide (b.act = 0 ∨ b.act - 1 + 25 ≤ c)
       else decide (b.act = 0 ∨ b.act - 1 + 81 ≤ c))

/-- The requests a target can accept, none that follows another of the same bank. -/
def State.acceptable (s : State) (inst rq : Nat) : List Req :=
  let q := s.presented inst rq
  q.filter (fun r => s.bankTakes r &&
    (q.find? (fun (y : Req) => y.bank == r.bank && (y.bank != 0 || y.core == r.core))).map Req.id == some r.id)

/-- How many units share a requester port: two traversal cores at a bank of shared memory (01 R25), four base engines at a
pseudo-channel (08 R286). -/
def sharers (inst rq : Nat) : Nat :=
  if 544 ≤ inst ∧ 2 ≤ rq ∧ rq ≤ 10 then 2 else if inst < 512 ∧ 9 ≤ rq ∧ rq ≤ 12 then 4 else 1

/-- The oldest acceptable request of the unit whose turn it is among those that have one (01 R25). -/
def State.chosen (s : State) (inst rq : Nat) : Option Req :=
  let n := sharers inst rq
  let turn := Tab.get s.m.turns 0 (inst * 16 + rq)
  (List.range n).findSome? (fun i => (s.acceptable inst rq).find? (fun r => r.core % n == (turn + i) % n))

/-- After a grant that several units of a port wanted the turn passes on; an uncontested one leaves it (01 R25). -/
def State.passTurn (s : State) (inst : Nat) (r : Req) : State :=
  let n := sharers inst r.rqr
  if (s.acceptable inst r.rqr).any (fun y => y.core % n != r.core % n) then
    { s with m := { s.m with turns := Tab.put s.m.turns 0 (inst * 16 + r.rqr) ((r.core % n + 1) % n) } }
  else s

/-- The end of a sweep: the previous slot zeroized, SWEEP cleared (16 R530). -/
def State.sweepDone (s : State) (p : Nat) : State :=
  let prev := 1 - s.fld (PART_KEY_CUR p)
  let mine := s.partSecs p
  let s := { s with
    sec := { s.sec with memKeys := s.sec.memKeys.del (2 * p + prev) }
    m := { s.m with
      sweepEnd := s.m.sweepEnd.filter (fun x => !mine.contains x)
      sweepAt := Tab.drop s.m.sweepAt mine.contains } }
  s.setFld (PART_KEY_SWEEP p) 0

/-- After the last burst of a page, its generation bit names CUR and the map is cleared for the next (16 R529). -/
def State.sweepPageEnd (s : State) (p page : Nat) : State :=
  { s with m := { s.m with
    gen := Tab.put s.m.gen false page (s.fld (PART_KEY_CUR p) == 1)
    sweepMap := Tab.drop s.m.sweepMap (fun b => b / 32768 == page) } }

/-- Whether a partition sweeps: SWEEP is 1 and no fence has stopped it (16 R531). -/
def State.sweeps (s : State) (p : Nat) : Bool := s.on (PART_KEY_SWEEP p) && s.partState p == ptStarted

/-- One burst rewritten under CUR: its map bit is set, and the sweep goes on with the next (16 R529). -/
def State.sweptBurst (s : State) (p b : Nat) : State :=
  let st := stackOfBurst b
  let i := Tab.get s.m.sweepAt 0 st
  if s.sweeps p && b == burstOf (keyStack st 0) + i then
    let s := { s with m := { s.m with
      sweepMap := Tab.put s.m.sweepMap false b true
      sweepAt := Tab.put s.m.sweepAt 0 st (i + 1) } }
    let s := if (i + 1) % 32768 = 0 then s.sweepPageEnd p (b / 32768) else s
    if (i + 1) * 64 = s.stackBytes then
      let s := { s with m := { s.m with sweepEnd := s.m.sweepEnd ++ [st] } }
      if (s.partSecs p).all s.m.sweepEnd.contains then s.sweepDone p else s
    else s
  else s

/-- One burst of a request served: rounds it takes, and whether the request has met an uncorrectable error.  A merge, a
write-back of the scrub and a rewrite of the sweep take two (R281, R283, 16 R529). -/
def State.serveBurst (s : State) (r : Req) (b : Nat) : Nat × Bool × State :=
  let cells := r.data.filter (fun e => burstOf e.1 == b)
  match r.use with
  | .core =>
    if r.bank = 0 then
      (1, false, if r.write then s.wrCells cells else s)
    else if !r.write then
      let (ok, s) := s.readCode b
      (1, !ok, if ok then s.trackRead b (s.cyc r.inst) else s)
    else if cells.length = 64 then
      (1, false, (s.setSymbols b 0).wrCells cells)
    else
      let (ok, s) := s.readCode b
      (2, !ok, if ok then (s.setSymbols b 0).wrCells cells else s)
  | .scrub =>
    let n := if s.symbols b = 0 then 1 else 2
    let (ok, s) := s.readCode b
    (n, !ok, if ok then s.setSymbols b 0 else s)
  | .sweep p =>
    let (ok, s) := s.readCode b
    (2, !ok, if ok then (s.setSymbols b 0).sweptBurst p b else s)
  | .base _ =>
    if r.bank = 0 then (1, false, if r.write then s.wrCells cells else s)
    else if r.write then (if cells.length = 64 then 1 else 2, false, s)
    else
      let (ok, s) := s.readCode b
      (1, !ok, if ok then s.trackRead b (s.cyc r.inst) else s)
  | .unit =>
    -- a codeword that has gone bad since the access is not installed in a line
    if r.bank != 0 && !r.write then (1, false, if 2 ≤ popCount (s.symbols b) then s else s.trackRead b (s.cyc r.inst))
    else (if r.bank = 0 ∨ cells.length = 64 then 1 else 2, false, s)

/-- A request that has met an uncorrectable error: its operation, or the command of a base engine, never completes (R284). -/
def State.dropLost (s : State) (r : Req) : State :=
  { s with
    m := { s.m with
      reqs := s.m.reqs.filter (fun (y : Req) =>
        match r.use with
        | .core => y.xfer != r.xfer || y.use != .core
        | .base _ => y.use != r.use
        | _ => y.id != r.id)
      xfers := s.m.xfers.filter (fun (x : Xfer) => r.use != .core || x.id != r.xfer) }
    b := { s.b with cmds := s.b.cmds.map (fun (x : BCmd) => if r.use == .base x.id then { x with dead := true } else x) } }

/-- The latency of a read, from its arrival at the pseudo-channel to its last data (R295). -/
def State.noteLatency (s : State) (r : Req) : State :=
  if r.bank != 0 && !r.write then
    let l := Tab.get s.m.lats ([] : List Nat) r.inst
    { s with m := { s.m with lats := Tab.put s.m.lats ([] : List Nat) r.inst (((r.ready - r.arrived.getD r.ready) :: l).take 1024) } }
  else s

/-- A request whose last burst has been served: it is granted, in the order in which replies cross to the clusters (01 R27);
one to shared memory completes at once, one of a unit that is no core is done. -/
def State.served (s : State) (r : Req) : State :=
  let s := s.noteLatency r
  let others := s.m.reqs.filter (fun (y : Req) => y.id != r.id)
  let s := if r.use != .core then { s with m := { s.m with reqs := others } }
    else
      let r := { r with stat := .granted }
      let s := { s with m := { s.m with reqs := others ++ [r] } }
      if r.bank = 0 then ((s.landReq r).promote r.core).unpark r.core else s
  s.arrive r.inst r.rqr

/-- The base cycle at which the data of a burst read now is out: 25 cycles after the activate of its row (R272). -/
def State.dataOut (s : State) (r : Req) : Nat :=
  let b := s.bank r.bank
  let c := s.cyc r.inst
  if b.row == some r.row then max c (b.act - 1 + 25) else c + 25

/-- The next burst of a request served. -/
def State.serveNext (s : State) (r : Req) : Nat × State :=
  match r.left with
  | [] => (1, s.served r)
  | b :: rest =>
    let c := s.cyc r.inst
    let bk := s.bank r.bank
    let out := s.dataOut r
    let s := if r.bank = 0 then s
      else s.setBank r.bank
        (if bk.row == some r.row then { bk with used := c } else { bk with row := some r.row, act := c + 1, used := c })
    let (n, ue, s) := s.serveBurst r b
    if ue then (n, s.dropLost r)
    else
      let r := { r with data := if r.write then r.data else s.capture r.data b, left := rest, ready := max r.ready out }
      (n, if rest.isEmpty then s.served r else s.updReq r)

/-! ### Slow banks (08 R295) -/

def insSorted (x : Nat) : List Nat → List Nat
  | [] => [x]
  | y :: r => if x ≤ y then x :: y :: r else y :: insSorted x r

def sortNat (l : List Nat) : List Nat := l.foldr insSorted []

/-- The lower median; none of no latencies. -/
def medianOf (l : List Nat) : Option Nat := (sortNat l)[(l.length - 1) / 2]?

/-- Slow marks of one bank set or cleared against the median. -/
def State.slowBank (s : State) (inst med b : Nat) : State :=
  match s.m.reqs.filterMap (fun (r : Req) => if r.bank == b && r.stat == .queued then r.arrived else none) with
  | [] => { s with m := { s.m with slow := s.m.slow.filter (· != b) } }
  | a :: as =>
    let w := s.cyc inst - as.foldl min a
    if s.m.slow.contains b then
      if w < 2 * med then { s with m := { s.m with slow := s.m.slow.filter (· != b) } } else s
    else if 4 * med < w then
      let s := { s with m := { s.m with slow := s.m.slow ++ [b] } }
      s.count (STK_SLOW_BANK_STALL (inst / 64)) 1
    else s

def State.slowMarks (s : State) (inst : Nat) : State :=
  if inst < 512 then
    match medianOf (Tab.get s.m.lats ([] : List Nat) inst) with
    | none => s
    | some med => (List.range 32).foldl (fun s i => s.slowBank inst med (inst * 32 + i + 1)) s
  else s

/-! ### A round at a pseudo-channel or a bank of shared memory -/

def State.holdOf (s : State) (inst : Nat) : Option Hold := (s.m.holds.find? (fun h => h.1 == inst)).map Prod.snd
def State.setHold (s : State) (inst : Nat) (h : Option Hold) : State :=
  let others := s.m.holds.filter (fun e => e.1 != inst)
  { s with m := { s.m with holds := match h with
      | some h => others ++ [(inst, h)]
      | none => others } }

/-- The held request with bursts left. -/
def State.heldReq (s : State) (h : Hold) : Option Req :=
  s.m.reqs.find? (fun (r : Req) => r.id == h.xfer && r.stat == .queued)

/-- A hold that would run past ARB_HOLD_MAX is cut off (R291). -/
def State.overhold (s : State) (inst : Nat) (h : Hold) : State :=
  let s := s.setFld (ARB_OVERHOLD_REQ inst) (s.fld (ARB_OVERHOLD_REQ inst) ||| 2 ^ h.rqr)
  let s := s.count (ARB_OVERHOLD_COUNT inst) 1
  let e := Tab.get s.m.rounds 0 inst + s.fld (ARB_PENALTY_ROUNDS inst)
  ({ s with m := { s.m with penalty := Tab.put s.m.penalty 0 (inst * 16 + h.rqr) e } }).setHold inst none

/-- The requesters that ask at an instance, and those of them that are eligible. -/
def State.askers (s : State) (inst : Nat) : List Nat :=
  (List.range 16).filter (fun r => !(s.presented inst r).isEmpty)
def State.eligible (s : State) (inst : Nat) : List Nat :=
  (List.range 16).filter (fun r => !s.inPenalty inst r && !(s.acceptable inst r).isEmpty)

/-- The rounds that a unit takes, one after another: in each the other requesters that are eligible then lose (R288). -/
def State.passRounds (s : State) (inst w : Nat) (elig asking : List Nat) : Nat → State
  | 0 => s
  | n + 1 =>
    let s := (s.ageRound inst elig asking (some w)).advance inst 1
    s.passRounds inst w (s.eligible inst) (s.askers inst) n

/-- A granted request served for one unit of one round or two, and the hold goes on while bursts of the region are left. -/
def State.grantTo (s : State) (inst : Nat) (elig : List Nat) (r : Req) (held : Nat) : State :=
  let asking := s.askers inst
  let s := s.passTurn inst r
  let (n, s) := s.serveNext r
  let s := s.passRounds inst r.rqr elig asking n
  let s := if s.m.reqs.any (fun (y : Req) => y.id == r.id && y.stat == .queued) then
      s.setHold inst (some ⟨r.rqr, held + n, r.id, r.key⟩)
    else s.setHold inst none
  let s := if 544 ≤ inst && elig.any (· != r.rqr) then s.count (CL_XBAR_WAIT_ROUNDS ((inst - 544) / 32)) 1 else s
  s.slowMarks inst

/-- A round whose grant was held for a request that is no longer there: nothing is transferred, and the requester's age
resets (R292). -/
def State.lostRound (s : State) (inst rq : Nat) : State :=
  let s := (s.setHold inst none).ageRound inst (s.eligible inst) (s.askers inst) (some rq)
  (s.advance inst 1).slowMarks inst

/-- The queued reads of an instance whose bursts have been staged since are served from the lines (R277). -/
def State.serveLines (s : State) (inst : Nat) : State :=
  (s.m.reqs.filter (fun (r : Req) => r.inst == inst && r.stat == .queued && r.bank != 0 && !r.write
      && r.use != .scrub && r.left.any s.isStaged)).foldl (fun s r =>
    let r' := s.fromLines r
    let s := (r.left.filter s.isStaged).foldl State.touchStaged s
    if r'.left.isEmpty then s.served { r' with ready := max r.ready (s.cyc inst) } else s.updReq r') s

/-- A round in which no hold goes on. -/
def State.openRound (s : State) (inst : Nat) : State :=
  let elig := s.eligible inst
  match s.pickWinner inst elig with
  | none => ((s.ageRound inst elig (s.askers inst) none).advance inst 1).slowMarks inst
  | some (w, kind) =>
    match s.chosen inst w with
    | none => s.advance inst 1
    | some r => (s.noteWinner inst w kind).grantTo inst elig r 0

/-- Whether a port engine group has a write that is not yet accepted. -/
def State.groupWrites (s : State) : Bool :=
  s.m.reqs.any (fun (r : Req) => r.use == .unit && r.write && r.rqr == (if r.bank = 0 then 13 else 8))

/-- The signals of port engine groups go once the groups' writes have been accepted (01 R36). -/
def State.releaseToks (s : State) : State :=
  if s.groupWrites then s
  else s.e.heldToks.foldl State.sendTok { s with e := { s.e with heldToks := [] } }

/-- A signal of a port engine group, behind the writes that the group has issued (01 R36). -/
def State.groupSignal (s : State) (tok : Word) : State :=
  State.releaseToks { s with e := { s.e with heldToks := s.e.heldToks ++ [tok] } }

/-- One round (R288, R291).  A hold does not go on in a bank under refresh (R273). -/
def State.memRound (s : State) (inst : Nat) : State :=
  let s := (s.startRound inst).serveLines inst
  State.releaseToks <|
  match s.holdOf inst with
  | none => s.openRound inst
  | some h =>
    match s.heldReq h with
    | none => s.lostRound inst h.rqr
    | some r =>
      if s.refreshing inst r.bank then (s.setHold inst none).openRound inst
      else if h.len < s.fld (ARB_HOLD_MAX_ROUNDS inst) then s.grantTo inst (s.eligible inst) r h.len
      else (s.overhold inst h).openRound inst

/-! ### A berth returns (08 R293, R294) -/

/-- Whether a reply may cross to its cluster now: its data is out, and no reply of the same stack that was granted before it
is still to cross to that cluster (01 R27). -/
def State.crosses (s : State) (r : Req) : Bool :=
  let out (y : Req) : Bool := decide (y.ready ≤ s.cyc y.inst)
  out r && (s.m.reqs.takeWhile (fun (y : Req) => y.id != r.id)).all (fun (y : Req) =>
    !(y.stat == .granted && y.bank != 0 && y.inst / 64 == r.inst / 64 && clusterOf y.core == clusterOf r.core && out y))

/-- Whether a reply of a stack, its data out, is still to cross to a cluster: what the stack's base engines send there later
crosses behind it (01 R27). -/
def State.repliesDue (s : State) (st cl : Nat) : Bool :=
  s.m.reqs.any (fun (r : Req) => r.stat == .granted && r.bank != 0 && r.inst / 64 == st && decide (r.core < 800)
    && clusterOf r.core == cl && decide (r.ready ≤ s.cyc r.inst))

/-- The reply of a granted stack request lands, or its write is accepted. -/
def State.berthReturn (s : State) (core id : Nat) : State :=
  match s.m.reqs.find? (fun (r : Req) => r.id == id && r.core == core && r.stat == .granted && r.bank != 0) with
  | none => s
  | some r => if s.crosses r then ((s.landReq r).promote core).unpark core else s

end Sys2Proof.Machine
end

