-- ==== Sys2Proof/Machine/Operands.lean ====
section
/-! DEFINITION. The instruction word (03 R95), which of its fields an instruction uses (R96, R98, R99), and the issue of
an instruction by a thread: readiness (R104), the faults it raises (R135 to R138), the next program counter (R110). -/

namespace Sys2Proof.Machine

/-- Bits of the word from CLASS, OP and the other fields (R95). -/
def instrWord (cls op : Nat) (f : Fields) : Word :=
  BitVec.ofNat 64 (cls % 16 * 2 ^ 60 + op % 256 * 2 ^ 52 + f.dst.toNat * 2 ^ 46 + f.srca.toNat * 2 ^ 40
    + f.srcb.toNat * 2 ^ 34 + f.srcc.toNat * 2 ^ 28 + f.mask.toNat * 2 ^ 24 + f.type.toNat * 2 ^ 20
    + f.mod.toNat * 2 ^ 16 + f.imm.toNat)

/-- The fields of a word. -/
def wordFields (w : Word) : Fields :=
  { dst := BitVec.ofNat 6 (bits w.toNat 46 6), srca := BitVec.ofNat 6 (bits w.toNat 40 6)
    srcb := BitVec.ofNat 6 (bits w.toNat 34 6), srcc := BitVec.ofNat 6 (bits w.toNat 28 6)
    mask := BitVec.ofNat 4 (bits w.toNat 24 4), type := BitVec.ofNat 4 (bits w.toNat 20 4)
    mod := BitVec.ofNat 4 (bits w.toNat 16 4), imm := BitVec.ofNat 16 (bits w.toNat 0 16) }

/-- IMM sign-extended (R97). -/
def sext (f : Fields) : Word := f.imm.signExtend 64
def modBit (f : Fields) (i : Nat) : Bool := bit f.mod.toNat (i - 16)

/-- What an instruction uses: the file of each register field, the bits it may set in MOD and IMM, whether MASK and
TYPE are used. -/
structure Uses where
  dst : Option RFile := none
  a : Option RFile := none
  b : Option RFile := none
  c : Option RFile := none
  mask : Bool := false
  ty : Bool := false
  mod : Nat := 0
  imm : Nat := 0
  /-- A vector register that a field of IMM names: the scale register of a conversion (05 R195). -/
  sv : Option Nat := none
deriving DecidableEq, Repr

/-- Whether a register number lies in the range its field names (R98). -/
def regOk (u : Option RFile) (n : Nat) : Bool :=
  match u with
  | none => n == 0
  | some .s => n < 32
  | some .v => true
  | some .m => n < 16
  | some .t => n < 32
  | some .q => n < 16

/-- Whether the word is a reserved encoding by its fields alone (R96, R99). -/
def fieldsBad (u : Uses) (f : Fields) : Bool :=
  !regOk u.dst f.dst.toNat || !regOk u.a f.srca.toNat || !regOk u.b f.srcb.toNat || !regOk u.c f.srcc.toNat
    || (u.dst == some .m && f.dst == 0) || (!u.mask && f.mask != 0) || (!u.ty && f.type != 0)
    || (u.ty && f.type == 15)
    || (f.mod.toNat &&& (15 - u.mod)) != 0 || (f.imm.toNat &&& (65535 - u.imm)) != 0

/-- Whether a vector register field lies at or beyond the thread's window (R103). -/
def windowBad (u : Uses) (f : Fields) (threads : Nat) : Bool :=
  let w := 64 / threads
  (u.dst == some .v && w ≤ f.dst.toNat) || (u.a == some .v && w ≤ f.srca.toNat)
    || (u.b == some .v && w ≤ f.srcb.toNat) || (u.c == some .v && w ≤ f.srcc.toNat)
    || (match u.sv with
      | some r => decide (w ≤ r)
      | none => false)

/-- The registers an instruction reads or writes, as the scoreboard knows them (R104). -/
def usedRegs (u : Uses) (f : Fields) : List (RFile × Nat) :=
  let one (x : Option RFile) (n : Nat) := match x with
    | some r => [(r, n)]
    | none => []
  one u.dst f.dst.toNat ++ one u.a f.srca.toNat ++ one u.b f.srcb.toNat ++ one u.c f.srcc.toNat
    ++ (if u.mask then [(.m, f.mask.toNat)] else [])
    ++ (match u.sv with
      | some r => [(.v, r)]
      | none => [])

/-- Whether a register still has a write pending by an earlier instruction of the thread (R104). -/
def State.regsBusy (s : State) (core t : Nat) (rs : List (RFile × Nat)) : Bool :=
  s.m.xfers.any (fun (x : Xfer) => x.core == core && x.thread == t && x.dests.any (fun d => rs.contains d))

/-- What an instruction does when it issues. -/
inductive Eff where
  /-- It issues; the program counter moves to the given word. -/
  | go (s : State) (pc : Int)
  /-- It cannot issue yet: the state it leaves (a thread may park). -/
  | stay (s : State)
  /-- It issues and the thread waits. -/
  | wait (s : State) (w : Wait)
  /-- The thread ends. -/
  | stop (s : State)
  /-- It raises these faults. -/
  | fault (fs : List FInfo)
  /-- It raises these faults and would not have moved the program counter (END). -/
  | refuse (fs : List FInfo)
  /-- It raises these faults after it has had part of its effect (09 R318, 10 R357). -/
  | trap (s : State) (fs : List FInfo)

/-- A fault of the instruction as a whole. -/
def whole (code : Nat) : FInfo := ⟨code, 0, none, 0⟩
def wholeAt (code addr : Nat) : FInfo := ⟨code, 0, none, addr⟩

/-- The issue counter of a traversal core (18 R600). -/
def State.countIssue (s : State) (core : Nat) : State :=
  if isMatrix core then s else s.count (TC_ISSUED_COUNT (clusterOf core) (subOf core)) 1

/-- The uncorrectable codeword that the translation of some fault has met (08 R284): such an operation raises no fault. -/
def State.lostWalk (s : State) (core : Nat) (fs : List FInfo) : Option Nat :=
  fs.findSome? (fun f => if f.code = fcTranslation ∨ f.detail = fcTranslation then s.lostTable (clusterOf core) f.addr else none)

/-- The faults of one instruction: the one reported, the others in EXTRA (R138). -/
def State.raise (s : State) (core t pc : Nat) (fs : List FInfo) (w : Word) : State :=
  match s.lostWalk core fs, pickFault fs with
  | some k, _ => s.stackUE k
  | none, none => s
  | none, some f => s.taskFault core t pc f (fs.length - 1) w

/-- Whether a thread is neither ended nor in a named wait while its task runs and no fault that its core's engine has found is
about to stop it (R137, 04 R176). -/
def State.threadReady (s : State) (core t : Nat) : Bool :=
  s.taskRuns core && decide (t < s.threads core) && s.stat core t == .running && (s.engineFaults core).isEmpty

/-- The thread that issued last on a core, the instructions it has issued in a row and the word it issued them from (R106);
before the first instruction of a task the turn begins at thread 0 (assumption 130). -/
def State.lastOf (s : State) (core : Nat) : Nat × Nat × Nat := Tab.get s.core.last (15, 64, 0) core

/-- Whether a thread could issue, as far as the core has looked: ready, and its next instruction not found to wait. -/
def State.mayIssue (s : State) (core t : Nat) : Bool :=
  s.threadReady core t && !s.core.blocked.contains (threadKey core t)

/-- Whether it is the thread's turn on a traversal core (R106): the thread that issued last keeps issuing while it is ready,
but for 64 instructions in a row while another is ready; the others come in round-robin order after it. -/
def State.turn (s : State) (core t : Nat) : Bool :=
  let (u, n, _) := s.lastOf core
  if isMatrix core then true
  else if t = u then
    (decide (n < 64) && !s.core.blocked.contains (threadKey core t)) || (List.range 16).all (fun x => x == u || !s.mayIssue core x)
  else (decide (64 ≤ n) || !s.mayIssue core u)
    && (List.range ((t + 15 - u) % 16)).all (fun i => !s.mayIssue core ((u + 1 + i) % 16))

/-- The turn noted after a thread has issued the instruction at a word. -/
def State.tookTurn (s : State) (core t pc : Nat) : State :=
  let (u, n, _) := s.lastOf core
  { s with core := { s.core with
      last := Tab.put s.core.last (15, 64, 0) core (t, if t = u then min (n + 1) 64 else 1, pc)
      blocked := s.core.blocked.filter (· != threadKey core t)
      berthWait := s.core.berthWait.filter (· != threadKey core t)
      waitWord := s.core.waitWord.del core } }

/-- A thread whose instruction cannot issue yet: another takes its turn. -/
def State.missTurn (s : State) (core t : Nat) (w : Word) : State :=
  if isMatrix core then { s with core := { s.core with waitWord := Tab.put s.core.waitWord 0 core w } }
  else if s.core.blocked.contains (threadKey core t) then s
  else { s with core := { s.core with blocked := s.core.blocked ++ [threadKey core t] } }

/-- The faults that the program counter adds (R110). -/
def pcFaults (pc : Nat) : List FInfo := if 8191 < pc + 1 then [whole fcPcRange] else []

/-- Whether a target lies outside program memory.  The spec speaks of a move beyond word 8,191; a branch target below word 0
counts as one too (assumption 131). -/
def pcOut (npc : Int) : Bool := decide (npc < 0) || decide (8191 < npc)

/-- The faults that an instruction raises by its own effect, at word `pc`. -/
def Eff.faults (pc : Nat) : Eff → List FInfo
  | .go _ npc => if pcOut npc then [whole fcPcRange] else []
  | .wait _ _ => pcFaults pc
  | .fault fs => fs ++ pcFaults pc
  | .trap _ fs => fs ++ pcFaults pc
  | .refuse fs => fs
  | .stay _ => []
  | .stop _ => []

/-- What the state becomes when an instruction that is ready issues.  A target outside program memory is a fault (pcOut). -/
def State.applyEff (s : State) (core t pc : Nat) (w : Word) (e : Eff) : State :=
  match e with
  | .go s' npc =>
    if pcOut npc then (s.countIssue core).raise core t pc [whole fcPcRange] w
    else ((s'.countIssue core).setPc core t npc.toNat).tookTurn core t pc
  | .stay s' => s'.missTurn core t w
  | .wait s' wt =>
    if 8191 < pc + 1 then (s.countIssue core).raise core t pc [whole fcPcRange] w
    else ((s'.countIssue core).setStat core t (.waiting wt)).tookTurn core t pc
  | .stop s' => (s'.countIssue core).tookTurn core t pc
  | .fault fs => (s.countIssue core).raise core t pc (fs ++ pcFaults pc) w
  | .refuse fs => (s.countIssue core).raise core t pc fs w
  | .trap s' fs => (s'.countIssue core).raise core t pc (fs ++ pcFaults pc) w

/-- The faults of the word itself (R96, R99, R103).  Several reserved encodings of one word are one fault, and so are several
registers beyond the window (assumption 147). -/
def wordFaults (u : Uses) (f : Fields) (bad : Bool) (threads : Nat) : List FInfo :=
  (if fieldsBad u f || bad then [whole fcIllegal] else []) ++ (if windowBad u f threads then [whole fcVreg] else [])

/-- Whether the register fields of a word name registers, so that its other faults can be found too; those of a word that
names none are not counted in EXTRA (assumption 147). -/
def regsNamed (u : Uses) (f : Fields) : Bool :=
  regOk u.dst f.dst.toNat && regOk u.a f.srca.toNat && regOk u.b f.srcb.toNat && regOk u.c f.srcc.toNat

/-- An instruction offered by a thread: it does nothing while its cluster is stopped, or the thread waits or has not its
turn (R106); it waits while one of its registers is not ready (R104); the faults of the word, and those of the memory that it reads
(`ue`), stop the task beside every other fault of the instruction (R138); otherwise `body` says what it does. -/
def issueUe (ue : List FInfo) (core t cls op : Nat) (f : Fields) (u : Uses) (bad : Bool) (more : List (RFile × Nat))
    (body : State → Eff) (s : State) : Out :=
  if isMatrix core && t != 0 then .fault (.impossible "thread")
  else if !s.dieUp || !s.threadReady core t || !s.turn core t then .next s
  else if s.regsBusy core t (usedRegs u f ++ more) then .next (s.missTurn core t (instrWord cls op f))
  else
    let pc := s.pc core t
    let w := instrWord cls op f
    let pre := wordFaults u f bad (s.threads core) ++ ue
    if pre.isEmpty then .next (s.applyEff core t pc w (body s))
    else .next ((s.countIssue core).raise core t pc (pre ++ if regsNamed u f then (body s).faults pc else []) w)

/-- An instruction offered by a thread, in whose memories no error lies. -/
def issue (core t cls op : Nat) (f : Fields) (u : Uses) (bad : Bool) (more : List (RFile × Nat))
    (body : State → Eff) (s : State) : Out := issueUe [] core t cls op f u bad more body s

/-- The next word: what every instruction that is not a branch moves to. -/
def State.next (s : State) (core t : Nat) : Int := Int.ofNat (s.pc core t) + 1

/-- An instruction that completes and goes on to the next word. -/
def thenNext (core t : Nat) (g : State → State) (s : State) : Eff := .go (g s) (s.next core t)

/-! ### Elements of vector registers (03 R100, R101) -/

/-- The bits of element `i` of a register. -/
def elemOf (ty : Ty) (v : VWord) (i : Nat) : Nat := bits v.toNat (i * ty.lane) ty.bits

/-- A register with element `i` replaced; FP6 fills its byte with zero bits. -/
def setElem (ty : Ty) (v : Nat) (i x : Nat) : Nat := setBits v (i * ty.lane) ty.lane (x % 2 ^ ty.bits)

/-- Whether element `i` is active. -/
def activeAt (m : MWord) (i : Nat) : Bool := m.getLsbD i

/-- The lowest lane of element `i`. -/
def laneOf (ty : Ty) (i : Nat) : Nat := i * ty.lane / 32

/-- The active elements of a register of a type. -/
def actives (ty : Ty) (m : MWord) : List Nat := (List.range ty.count).filter (activeAt m)

/-- The type of an instruction (fieldsBad has refused code 0xF). -/
def typeOf (f : Fields) : Ty := (Ty.ofCode f.type.toNat).getD .fp32

end Sys2Proof.Machine
end

