-- ==== Sys2Proof/Machine/Flags.lean ====
section
/-! DEFINITION. What one element of a vector instruction becomes, and the flags it raises (05 R182 to R201, 02 R60, R61,
R67, R80): element operations by type, conversions, the block encode, reductions in the fixed tree. -/

namespace Sys2Proof.Machine

/-! ### Element operations -/

def inWX (t : Ty) : Bool := t.inW || t.inX
def inWXI (t : Ty) : Bool := t.inW || t.inX || t.inI
def inWI (t : Ty) : Bool := t.inW || t.inI

/-- An operation that has a floating-point and an integer form (05 R182, R189: integers wrap and set no flag). -/
def byType (ty : Ty) (fp : Fmt → NRes) (int : Int) : NRes :=
  match ty.fmt? with
  | some f => fp f
  | none => NRes.ok (wrapInt ty.bits int)

def elAdd (ty : Ty) (a b : Nat) : NRes := byType ty (fAdd · a b) (ty.readInt a + ty.readInt b)
def elSub (ty : Ty) (a b : Nat) : NRes := byType ty (fSub · a b) (ty.readInt a - ty.readInt b)
def elMul (ty : Ty) (a b : Nat) : NRes := byType ty (fMul · a b) (ty.readInt a * ty.readInt b)
def elMax (ty : Ty) (a b : Nat) : NRes := byType ty (fMax · a b) (max (ty.readInt a) (ty.readInt b))
def elMin (ty : Ty) (a b : Nat) : NRes := byType ty (fMin · a b) (min (ty.readInt a) (ty.readInt b))
def elAbs (ty : Ty) (a : Nat) : NRes := byType ty (fAbs · a) (if ty.readInt a < 0 then -ty.readInt a else ty.readInt a)
def elNeg (ty : Ty) (a : Nat) : NRes := byType ty (fNeg · a) (-ty.readInt a)
def elSign (ty : Ty) (a : Nat) : NRes := byType ty (fSign · a) (ty.readInt a).sign
def elClamp (ty : Ty) (a b c : Nat) : NRes :=
  byType ty (fClamp · a b c) (min (max (ty.readInt a) (ty.readInt b)) (ty.readInt c))

/-- A floating-point operation; TYPE has been checked to be one. -/
def byFmt (ty : Ty) (fp : Fmt → NRes) : NRes :=
  match ty.fmt? with
  | some f => fp f
  | none => NRes.ok 0

/-- A comparison (05 R188, R189). -/
def elCmp (cm : Cmp) (ty : Ty) (a b : Nat) : Bool × Flags :=
  match ty.fmt? with
  | some f => fCmp cm f a b
  | none => (cm.holds (ty.readInt a - ty.readInt b), 0)

/-- Whether an element is NaN or infinite (VNF); reading it flushes (05 R183). -/
def elNonFinite (ty : Ty) (a : Nat) : Bool × Flags :=
  match ty.fmt? with
  | some f => let (v, fl) := readNum f a; (!v.isFinite, fl)
  | none => (false, 0)

/-- Shifts by b mod the width (05 R183, R189). -/
def elShl (ty : Ty) (a b : Nat) : NRes := NRes.ok (a <<< (b % ty.bits) % 2 ^ ty.bits)
def elShr (ty : Ty) (a b : Nat) : NRes := NRes.ok ((a % 2 ^ ty.bits) >>> (b % ty.bits))
def elSra (ty : Ty) (a b : Nat) : NRes := NRes.ok (wrapInt ty.bits (ty.readInt a >>> (b % ty.bits)))

/-! ### Active elements of a register -/

/-- The active elements of a register replaced by what `g` gives (05 R180), and the flags ORed. -/
def mapActive (ty : Ty) (m : MWord) (old : Nat) (g : Nat → NRes) : Nat × Flags :=
  (actives ty m).foldl (fun acc i => let r := g i; (setElem ty acc.1 i r.v, acc.2 ||| r.fl)) (old, 0)

/-- The mask of the active elements for which `g` holds (05 R180), and the flags ORed. -/
def maskActive (ty : Ty) (m : MWord) (g : Nat → Bool × Flags) : Nat × Flags :=
  (actives ty m).foldl (fun acc i => let r := g i; (acc.1 + (if r.1 then 2 ^ i else 0), acc.2 ||| r.2)) (0, 0)

/-- The container of an element, for instructions that move bits. -/
def laneBits (ty : Ty) (v : VWord) (i : Nat) : Nat := bits v.toNat (i * ty.lane) ty.lane
def mapLanes (ty : Ty) (m : MWord) (old : Nat) (g : Nat → Nat) : Nat :=
  (actives ty m).foldl (fun acc i => setBits acc (i * ty.lane) ty.lane (g i)) old

/-! ### Conversion (02 R57, R60, R61, R66, R67) -/

/-- An element read as a value. -/
def elemVal (ty : Ty) (x : Nat) : FVal × Flags :=
  match ty.fmt? with
  | some f => readNum f x
  | none => let i := ty.readInt x; (.fin (decide (i < 0)) i.natAbs 0, 0)

/-- A scale byte applied (R57). -/
def applyScale (v : FVal) (sc : Nat) : FVal := if sc = 255 then .nan else scaleVal v (Int.ofNat sc - 127)

/-- A value converted to a type with no block scale. -/
def convertTo (ty : Ty) (rnd : Rnd) (draw : Nat) (v : FVal) : NRes :=
  match ty.fmt? with
  | some f => narrow f rnd draw false v false
  | none => valToInt ty rnd draw v

/-- ⌊log2⌋ of a value that is finite and not zero. -/
def valLog2 (v : FVal) : Int :=
  match v with
  | .fin _ m e => Int.ofNat (Nat.log2 m) + e
  | _ => 0

/-- emax of R60. -/
def Ty.emax : Ty → Int
  | .e2m1 => 2 | .e2m3 => 2 | .e3m2 => 4 | .e4m3 => 8 | .e5m2 => 15 | _ => 0

/-- The block encode of R60 of the active values of one block: the scale byte, and each element's encoding. -/
def blockEncode (ty : Ty) (rnd : Rnd) (vs : List (FVal × Nat)) : Nat × List NRes :=
  if vs.any (fun v => v.1.isNaN) then (255, vs.map (fun _ => NRes.ok 0))
  else
    let fins := (vs.map Prod.fst).filter (fun v => v.isFinite && !v.isZero)
    let x : Int := match fins with
      | [] => -127
      | v :: r => max (-127) (min 127 ((r.foldl (fun b w => max b (valLog2 w)) (valLog2 v)) - ty.emax))
    let enc (v : FVal × Nat) : NRes :=
      match ty.fmt? with
      | some f => narrow f rnd v.2 v.1.isFinite (scaleVal v.1 (-x)) false
      | none => NRes.ok 0
    ((x + 127).toNat, vs.map enc)

/-! ### Reductions (05 R199 to R201) -/

/-- One level of the tree: neighbours combine, an absent side passes the other through. -/
def treeLevel {α : Type} (g : α → α → α × Flags) : List (Option α) → List (Option α) × Flags
  | some a :: some b :: r =>
    let (x, f) := g a b
    let (l, f') := treeLevel g r
    (some x :: l, f ||| f')
  | some a :: none :: r => let (l, f') := treeLevel g r; (some a :: l, f')
  | none :: b :: r => let (l, f') := treeLevel g r; (b :: l, f')
  | [x] => ([x], 0)
  | [] => ([], 0)

/-- The fixed tree of R200 over `2 ^ k` elements or fewer. -/
def treeFold {α : Type} (g : α → α → α × Flags) : Nat → List (Option α) → Option α × Flags
  | 0, l => (l.headD none, 0)
  | k + 1, l =>
    let (l', f) := treeLevel g l
    let (r, f') := treeFold g k l'
    (r, f ||| f')

/-- A count, mean and M2 (R201); mean and M2 are FP32 encodings. -/
structure Triple where
  n : Nat
  mean : Nat
  m2 : Nat
deriving DecidableEq, Repr

/-- An unsigned count as FP32, to nearest even. -/
def countF (n : Nat) : NRes := intToFmt fmtFP32 .rne 0 false (Int.ofNat n)

def resPair (r : NRes) : Nat × Flags := (r.v, r.fl)

/-- The type in which a sum is formed (R199). -/
def sumTy (ty : Ty) : Ty := if ty.inW then .fp32 else if ty.inX then .xa else .int64

/-- An element widened to the type of the sum (R199: exact; subnormals are flushed). -/
def toSum (ty : Ty) (x : Nat) : NRes :=
  match ty.fmt? with
  | some f => widen f (if ty.inX then fmtXA else fmtFP32) x
  | none => NRes.ok (wrapInt 64 (ty.readInt x))

/-- An element as a sum takes it: BF16 and FP16 are widened, an operation of its own; an FP32 or XA element enters its first
combine as it stands, whose flush and flags are part of that combine (02 R53, R63, R199). -/
def leafSum (ty : Ty) (x : Nat) : NRes := if ty == .fp32 || ty.inX then NRes.ok x else toSum ty x

/-- The identity of a maximum or minimum (R199). -/
def maxIdentity (wantMax : Bool) (ty : Ty) : Nat :=
  match ty.fmt? with
  | some f => f.infBits + (if wantMax then f.signBit else 0)
  | none => wrapInt ty.bits (if wantMax then ty.intMin else ty.intMax)

/-- An element as a maximum reads it: flushed, a NaN as the default NaN. -/
def readMax (ty : Ty) (x : Nat) : NRes :=
  match ty.fmt? with
  | some f => let (v, fl) := readNum f x; if v.isNaN then NRes.ok f.defaultNaN else ⟨reEncode f x, fl, 0⟩
  | none => NRes.ok x

/-- An element as a maximum takes it: like `leafSum`, in its own type. -/
def leafMax (ty : Ty) (x : Nat) : NRes := if ty == .fp32 || ty.inX then NRes.ok x else readMax ty x

/-- The mean and M2 of a triple as a combination reads them (02 R53, R63), with the flags of the flushes. -/
def readTriple (x : Triple) : Triple × Flags :=
  let mean := readMax .fp32 x.mean
  let m2 := readMax .fp32 x.m2
  (⟨x.n, mean.v, m2.v⟩, mean.fl ||| m2.fl)

/-- Whether the mean or M2 of a triple is a NaN. -/
def Triple.hasNaN (x : Triple) : Bool := (readNum fmtFP32 x.mean).1.isNaN || (readNum fmtFP32 x.m2).1.isNaN

/-- The combination of R201, one operation: with a NaN operand it raises no flag at all (02 R53). -/
def combineTriple (x y : Triple) : Triple × Flags :=
  let (a, fa) := readTriple x
  let (b, fb) := readTriple y
  let only (fl : Flags) : Flags := if x.hasNaN || y.hasNaN then 0 else fa ||| fb ||| fl
  if a.n = 0 then (b, only 0)
  else if b.n = 0 then (a, only 0)
  else
    let n := satAdd 32 a.n b.n
    let fo : Flags := if 2 ^ 32 - 1 < a.n + b.n then flOverflow else 0
    let del := fSub fmtFP32 b.mean a.mean
    let nb := countF b.n
    let nn := countF n
    let f := fDiv fmtFP32 nb.v nn.v
    let mean := fFma fmtFP32 del.v f.v a.mean
    let s := fAdd fmtFP32 a.m2 b.m2
    let dd := fMul fmtFP32 del.v del.v
    let na := countF a.n
    let u := fMul fmtFP32 dd.v na.v
    let m2 := fFma fmtFP32 u.v f.v s.v
    (⟨n, mean.v, m2.v⟩,
      only (fo ||| del.fl ||| nb.fl ||| nn.fl ||| f.fl ||| mean.fl ||| s.fl ||| dd.fl ||| na.fl ||| u.fl ||| m2.fl))

/-- The greater of two (value, index) pairs, the left on a tie, the left NaN first (R199): one operation, which flushes its
operands and with a NaN raises nothing (02 R53, R63). -/
def combineArg (ty : Ty) (a b : Nat × Nat) : (Nat × Nat) × Flags :=
  match ty.fmt? with
  | some f =>
    let (x, fx) := readNum f a.1
    let (y, fy) := readNum f b.1
    if x.isNaN then ((f.defaultNaN, a.2), 0)
    else if y.isNaN then ((f.defaultNaN, b.2), 0)
    else
      let w := if rankAbove y x then b else a
      ((reEncode f w.1, w.2), fx ||| fy)
  | none => (if ty.readInt a.1 < ty.readInt b.1 then b else a, 0)

end Sys2Proof.Machine
end

