-- ==== Sys2Proof/Machine/Memory.lean ====
section
/-! DEFINITION. Class 4: scalar loads and stores, tile-handle moves (03 R111 to R116) and the vector loads and stores
(05 R190).  An access to the core's own memory takes effect at once; one to shared or stack memory is an operation whose
requests the arbiters serve (08 R286 to R296). -/

namespace Sys2Proof.Machine

/-! ### Keys of the bytes of an access -/

/-- Keys of `nb` bytes that checkAccess has found at `key`: consecutive within one 4 KiB block (01 R43). -/
def seqKeys (key nb : Nat) : List Nat := (List.range nb).map (· + key)

/-- The bytes of one access checked and found (03 R113): their keys, or the fault code with the address that failed.
Bytes on a second 4 KiB block are translated on their own. -/
def State.spanKeys (s : State) (core space addr nb : Nat) (store : Bool) : (Except (Nat × Nat) (List Nat)) × State :=
  let first := min nb (4096 - addr % 4096)
  if space = 2 && first != nb then
    if 2 ^ 48 < addr + nb then (.error (fcAddress, addr), s)
    else if !s.inExtent core addr nb store then (.error (fcExtent, addr), s)
    else
      let (a, s) := s.checkVa core addr first store
      let (b, s) := s.checkVa core (addr + first) (nb - first) store
      match a, b with
      | .ok k, .ok k' => (.ok (seqKeys k first ++ seqKeys k' (nb - first)), s)
      | .error e, .ok _ => (.error (e, addr), s)
      | .ok _, .error e => (.error (e, addr + first), s)
      | .error e, .error e' => (.error (if e' < e then (e', addr + first) else (e, addr)), s)
  else
    match s.checkAccess core space addr nb store with
    | (.error e, s) => (.error (e, addr), s)
    | (.ok k, s) => (.ok (seqKeys k nb), s)

/-- The space that MOD[17:16] names (R111). -/
def spaceOf (f : Fields) : Nat := bits f.mod.toNat 0 2

/-- An operation in flight, before it is started. -/
def newXfer (core t : Nat) (isStore : Bool) (dests : List (RFile × Nat)) (act : XAct) : Xfer :=
  { id := 0, core := core, thread := t, isStore := isStore, dests := dests, todo := 0, act := act, got := [],
    late := [], fl := 0 }

/-- An operation of a thread started once its berths are free (R106, 01 R40); the thread goes on to the next word, or parks there (08
R294). -/
def State.startOp (s : State) (x : Xfer) (write : Bool) (cells : List (Nat × Byte)) : Eff :=
  if s.berthsFree x.core (berthsFor cells) then .go (s.startXfer x false write cells) (s.next x.core x.thread)
  else
    let k := threadKey x.core x.thread
    .stay { s with core := { s.core with berthWait := s.core.berthWait.filter (· != k) ++ [k] } }

/-! ### LD and ST -/

/-- The types that LD and ST accept (R112). -/
def scalarMemTy (t : Ty) : Bool :=
  t == .int8 || t == .uint8 || t == .int16 || t == .int32 || t == .uint32 || t == .int64

/-- s_a + sext(IMM) (R111). -/
def State.memAddr (s : State) (core t : Nat) (f : Fields) : Nat := (s.sreg core t f.srca.toNat + sext f).toNat

/-- The one access of LD or ST, checked (R113): misalignment first; what a later check would find is not counted beside the
first failure (assumption 147). -/
def State.scalarAccess (s : State) (core t : Nat) (f : Fields) (store : Bool) : (Except (Nat × Nat) (List Nat)) × State :=
  let size := (typeOf f).bits / 8
  let a := s.memAddr core t f
  if a % size != 0 then (.error (fcAddress, a), s) else s.spanKeys core (spaceOf f) a size store

/-- Destinations that the scoreboard watches: a write to s0 is discarded (R99). -/
def scalarDest (r : Nat) : List (RFile × Nat) := if r = 0 then [] else [(.s, r)]

/-- LD: s_d ← memory (R111 to R113). -/
def readLd (ue : List FInfo) (c : Fin 800) (t : Fin 16) (f : Fields) (s : State) : Out :=
  issueUe ue c t 4 0x00 f { dst := some .s, a := some .s, ty := true, mod := 3, imm := 65535 }
    (!scalarMemTy (typeOf f) || spaceOf f == 3) []
    (fun s =>
      match s.scalarAccess c t f false with
      | (.error (e, a), _) => .fault [wholeAt e a]
      | (.ok keys, s) =>
        let d := f.dst.toNat
        if spaceOf f = 0 then
          .go (s.setS c t d (extendTo64 (typeOf f) (s.rd (keys.headD 0) keys.length))) (s.next c t)
        else
          s.startOp (newXfer c t false (scalarDest d) (.ld d (typeOf f) (keys.headD 0))) false (keys.map (·, 0))) s

/-- LD with no error in the memories that it reads. -/
def execLd (c : Fin 800) (t : Fin 16) (f : Fields) (s : State) : Out := readLd [] c t f s

/-- ST: memory ← the low bytes of s_b (R111 to R113). -/
def execSt (c : Fin 800) (t : Fin 16) (f : Fields) (s : State) : Out :=
  issue c t 4 0x01 f { a := some .s, b := some .s, ty := true, mod := 3, imm := 65535 }
    (!scalarMemTy (typeOf f) || spaceOf f == 3) []
    (fun s =>
      match s.scalarAccess c t f true with
      | (.error (e, a), _) => .fault [wholeAt e a]
      | (.ok keys, s) =>
        let cells := keys.zip (leBytes keys.length (s.sreg c t f.srcb.toNat).toNat)
        if spaceOf f = 0 then .go (s.wrCells cells) (s.next c t)
        else s.startOp (newXfer c t true [] .store) true cells) s

/-! ### Tile handles (R114 to R116, 04 R149) -/

def thOffset (h : Word) : Nat := bits h.toNat 0 16 * 64
def thSpace (h : Word) : Nat := bits h.toNat 16 1
def thOwner (h : Word) : Nat := bits h.toNat 17 5
def thRows (h : Word) : Nat := bits h.toNat 22 8 + 1
def thCols (h : Word) : Nat := bits h.toNat 30 8 + 1
def thTypeCode (h : Word) : Nat := bits h.toNat 38 4
def thType (h : Word) : Ty := (Ty.ofCode (thTypeCode h)).getD .fp32
def thXa (h : Word) : Bool := bit h.toNat 42

/-- Elements of a row: an FP4 column is two elements (04 R149). -/
def thElems (h : Word) : Nat := thCols h * (if thType h == .e2m1 then 2 else 1)

/-- Bytes of the columns of a row, and the row pitch (04 R149). -/
def thRowBytes (h : Word) : Nat := (thElems h * (thType h).bits + 7) / 8
def thPitch (h : Word) : Nat := roundUp (thRowBytes h) 64

/-- A handle that breaks R149's rule on FP6 columns. -/
def thBadCols (h : Word) : Bool := (thType h).isFP6 && thCols h % 4 != 0

/-- Bytes of the memory that a handle names a tile in. -/
def thMemBytes (core : Nat) (h : Word) : Nat :=
  if thSpace h = 1 then accBytes else ownBytes (clusterOf core * 20 + thOwner h)

/-- End of the element rows. -/
def thEnd (h : Word) : Nat := thOffset h + thRows h * thPitch h

/-- The checks of TSET (R115).  XA_TOTAL 1 with SPACE 0, which R114 says is zero and R115 lists under no fault, is accepted
(assumption 140). -/
def thBad (core : Nat) (h : Word) : Bool :=
  thOwner h != subOf core || (thSpace h == 1 && !isMatrix core) || (thSpace h == 1 && thOffset h % 65536 != 0)
    || thTypeCode h == 15 || bits h.toNat 43 21 != 0
    || decide ((if thSpace h = 1 then accBytes else ownBytes core) < thEnd h)

/-- The memory key of the start of the tile that a handle names, for a core of a cluster (R114, R116). -/
def thKey (core : Nat) (h : Word) : Nat :=
  let owner := clusterOf core * 20 + thOwner h
  if thSpace h = 1 then keyAcc owner (thOffset h) else keyOwn owner (thOffset h)

/-- A tile register written: it is no longer a released copy, and it is a copy of a taken handle when it holds one
(05 R205). -/
def State.writeHandle (s : State) (core r : Nat) (h : Word) : State :=
  let s := s.setHandle core r h
  let k := 32 * core + r
  let held := s.mx.tiles.any (fun t => t.st == .taken && t.taker == core && t.bargeHandle == h.toNat)
  { s with mx := { s.mx with
      staleRegs := s.mx.staleRegs.filter (· != k)
      takenRegs := s.mx.takenRegs.filter (· != k) ++ (if held then [k] else []) } }

/-- Whether a tile register may be used: no copy of a released handle, and the core's own memory or a tile that the
core holds (R116, 05 R205). -/
def State.handleOk (s : State) (core r : Nat) : Bool :=
  let h := s.handle core r
  !s.mx.staleRegs.contains (32 * core + r)
    && (thOwner h == subOf core || s.mx.takenRegs.contains (32 * core + r))
    && !(thSpace h == 1 && thOwner h == subOf core && !isMatrix core)

/-- Whether a tile register of a matrix core names a headered tile (06 R210). -/
def State.headered (s : State) (core r : Nat) : Bool :=
  isMatrix core && bit (s.fld (MC_ZR_TREGS_ZR (clusterOf core) (subOf core))) r

/-- TSET: t_d ← s_a after the checks of R115. -/
def execTset (c : Fin 800) (t : Fin 16) (f : Fields) (s : State) : Out :=
  issue c t 4 0x02 f { dst := some .t, a := some .s } false []
    (fun s =>
      let h := s.sreg c t f.srca.toNat
      if thBad c h then .fault [whole fcHandle] else .go (s.writeHandle c f.dst.toNat h) (s.next c t)) s

/-- TGET: s_d ← t_a (R113). -/
def execTget (c : Fin 800) (t : Fin 16) (f : Fields) (s : State) : Out :=
  issue c t 4 0x03 f { dst := some .s, a := some .t } false []
    (thenNext c t (fun s => s.setS c t f.dst.toNat (s.handle c f.srca.toNat))) s

/-! ### Vector loads and stores (05 R190) -/

/-- Where one element lies: its first byte, its bytes, the bit of the first byte where it begins. -/
structure ElAt where
  addr : Nat
  nb : Nat
  sh : Nat
deriving DecidableEq, Repr

/-- Element `i` of elements packed from `base` upward (02 R59). -/
def packedAt (ty : Ty) (base i : Nat) : ElAt :=
  let b := i * ty.bits
  ⟨base + b / 8, (b % 8 + ty.bits + 7) / 8, b % 8⟩

/-- One element's access: misalignment before the other checks, the first failure alone counted (assumption 147).  A failure names the element's own address, also where only its
part on a second page fails (R129). -/
def State.elemKeys (s : State) (core space : Nat) (ty : Ty) (e : ElAt) (store : Bool) :
    (Except (Nat × Nat) (List Nat)) × State :=
  if 8 ≤ ty.bits && e.addr % (ty.bits / 8) != 0 then (.error (fcAddress, e.addr), s)
  else
    match s.spanKeys core space e.addr e.nb store with
    | (.error (code, _), s) => (.error (code, e.addr), s)
    | (.ok keys, s) => (.ok keys, s)

/-- The accesses of the elements of a list, in order: the elements with their keys, and the faults found. -/
def State.vecKeys (s : State) (core space : Nat) (ty : Ty) (store : Bool) :
    List (Nat × ElAt) → List (Nat × ElAt × List Nat) × List FInfo × State
  | [] => ([], [], s)
  | (i, e) :: r =>
    let (x, s) := s.elemKeys core space ty e store
    let (ks, fs, s) := s.vecKeys core space ty store r
    match x with
    | .ok k => ((i, e, k) :: ks, fs, s)
    | .error (code, a) => (ks, ⟨code, 0, some (i, laneOf ty i), a⟩ :: fs, s)

/-- Distinct keys, in order. -/
def dedup (l : List Nat) : List Nat := l.eraseDups

/-- The piece that fills element `i`; its bytes have consecutive keys or lie in the copy that starts at its first. -/
def pieceOf (ty : Ty) (i : Nat) (e : ElAt) (keys : List Nat) : List Piece :=
  -- an element whose bytes are not consecutive in memory is filled byte by byte
  match keys with
  | [k] => [⟨i * ty.lane, ty.bits, k, e.sh, 1⟩]
  | [k, k'] =>
    if k' = k + 1 then [⟨i * ty.lane, ty.bits, k, e.sh, 2⟩]
    else [⟨i * ty.lane, 8 - e.sh, k, e.sh, 1⟩, ⟨i * ty.lane + (8 - e.sh), ty.bits - (8 - e.sh), k', 0, 1⟩]
  | k :: _ => [⟨i * ty.lane, ty.bits, k, e.sh, keys.length⟩]
  | [] => []

/-- The two bits above each FP6 element, which a load clears (03 R100): they come from above the element's bytes. -/
def padPieces (ty : Ty) (ks : List (Nat × ElAt × List Nat)) : List Piece :=
  if ty.isFP6 then ks.map (fun x => ⟨x.1 * ty.lane + ty.bits, ty.lane - ty.bits, x.2.2.headD 0, 8, 1⟩) else []

/-- A vector load of the given elements into v_d. -/
def State.vecLoad (s : State) (core t : Nat) (f : Fields) (space : Nat) (els : List (Nat × ElAt)) : Eff :=
  let ty := typeOf f
  match s.vecKeys core space ty false els with
  | (_, fault :: fs, _) => .fault (fault :: fs)
  | (ks, [], s) =>
    let pieces := ks.flatMap (fun x => pieceOf ty x.1 x.2.1 x.2.2) ++ padPieces ty ks
    let d := f.dst.toNat
    if space = 0 then
      .go (s.setV core t d (BitVec.ofNat 2048 (fillPieces s.m.mem (s.vreg core t d).toNat pieces))) (s.next core t)
    else
      s.startOp (newXfer core t false [(.v, d)] (.vec d pieces)) false
        ((dedup (ks.flatMap (fun x => x.2.2))).map (·, 0))

/-- The bytes that stored elements write, over what memory holds where an element fills part of a byte (02 R59). -/
def State.storeCells (s : State) (ty : Ty) (v : VWord) (ks : List (Nat × ElAt × List Nat)) : List (Nat × Byte) :=
  let put (m : Mem) (x : Nat × ElAt × List Nat) : Mem :=
    let old := leNat (x.2.2.map (fun k => Tab.get m (s.m.mem.rd k) k))
    let new := setBits old x.2.1.sh ty.bits (elemOf ty v x.1)
    (x.2.2.zip (leBytes x.2.2.length new)).foldl (fun m e => (Tab.del m e.1).ins e.1 e.2) m
  if ty.bits % 8 = 0 then ks.flatMap (fun x => x.2.2.zip (leBytes x.2.2.length (elemOf ty v x.1)))
  else ks.foldl put []

/-- A vector store of the given elements of `v`. -/
def State.vecStore (s : State) (core t : Nat) (ty : Ty) (space : Nat) (v : VWord) (els : List (Nat × ElAt)) : Eff :=
  match s.vecKeys core space ty true els with
  | (_, fault :: fs, _) => .fault (fault :: fs)
  | (ks, [], s) =>
    let cells := s.storeCells ty v ks
    if space = 0 then .go (s.wrCells cells) (s.next core t)
    else s.startOp (newXfer core t true [] .store) true cells

/-- The active elements of an instruction. -/
def State.act (s : State) (core t : Nat) (f : Fields) : List Nat :=
  actives (typeOf f) (s.mreg core t f.mask.toNat)

/-- The elements of a contiguous access; a misaligned base faults every active element (05 R190). -/
def State.contiguous (s : State) (core t : Nat) (f : Fields) : List (Nat × ElAt) :=
  (s.act core t f).map (fun i => (i, packedAt (typeOf f) (s.memAddr core t f) i))

/-- The address of element `i` of a strided access. -/
def strideAddr (base stride : Word) (i : Nat) : Nat := (base + BitVec.ofNat 64 i * stride).toNat

/-- VLD (R190). -/
def readVld (ue : List FInfo) (c : Fin 800) (t : Fin 16) (f : Fields) (s : State) : Out :=
  issueUe ue c t 4 0x10 f { dst := some .v, a := some .s, mask := true, ty := true, mod := 3, imm := 65535 }
    (spaceOf f == 3) []
    (fun s => s.vecLoad c t f (spaceOf f) (s.contiguous c t f)) s

/-- VLD with no error in the memories that it reads. -/
def execVld (c : Fin 800) (t : Fin 16) (f : Fields) (s : State) : Out := readVld [] c t f s

/-- The elements of a strided load. -/
def State.strided (s : State) (core t : Nat) (f : Fields) : List (Nat × ElAt) :=
  let base := s.sreg core t f.srca.toNat
  let stride := s.sreg core t f.srcb.toNat
  (s.act core t f).map (fun i => (i, ⟨strideAddr base stride i, (typeOf f).bits / 8, 0⟩))

/-- VLDS: strided; a zero stride fetches one element for every active one (R190). -/
def readVlds (ue : List FInfo) (c : Fin 800) (t : Fin 16) (f : Fields) (s : State) : Out :=
  let ty := typeOf f
  issueUe ue c t 4 0x11 f { dst := some .v, a := some .s, b := some .s, mask := true, ty := true, mod := 3 }
    (spaceOf f == 3 || decide (ty.bits < 8)) []
    (fun s => s.vecLoad c t f (spaceOf f) (s.strided c t f)) s

/-- VLDS with no error in the memories that it reads. -/
def execVlds (c : Fin 800) (t : Fin 16) (f : Fields) (s : State) : Out := readVlds [] c t f s

/-- VST (R190). -/
def execVst (c : Fin 800) (t : Fin 16) (f : Fields) (s : State) : Out :=
  issue c t 4 0x12 f { a := some .s, b := some .v, mask := true, ty := true, mod := 3, imm := 65535 }
    (spaceOf f == 3) []
    (fun s => s.vecStore c t (typeOf f) (spaceOf f) (s.vreg c t f.srcb.toNat) (s.contiguous c t f)) s

/-- The second element of the first pair of active elements whose bytes overlap in memory (R190). -/
def firstOverlap (size : Nat) (at_ : Nat → Nat) : List Nat → Option Nat
  | [] => none
  | i :: r =>
    match r.find? (fun j => decide (at_ j < at_ i + size) && decide (at_ i < at_ j + size)) with
    | some j => some j
    | none => firstOverlap size at_ r

/-- VSTS: strided store; overlapping elements are an ADDRESS fault (R190). -/
def execVsts (c : Fin 800) (t : Fin 16) (f : Fields) (s : State) : Out :=
  let ty := typeOf f
  issue c t 4 0x13 f { a := some .s, b := some .v, c := some .s, mask := true, ty := true, mod := 3 }
    (spaceOf f == 3 || decide (ty.bits < 8)) []
    (fun s =>
      let base := s.sreg c t f.srca.toNat
      let stride := s.sreg c t f.srcc.toNat
      let els := (s.act c t f).map (fun i => (i, (⟨strideAddr base stride i, ty.bits / 8, 0⟩ : ElAt)))
      match firstOverlap (ty.bits / 8) (strideAddr base stride) (s.act c t f) with
      | some j =>
        .fault (⟨fcAddress, 0, some (j, laneOf ty j), strideAddr base stride j⟩
          :: (s.vecKeys c (spaceOf f) ty true els).2.1)
      | none => s.vecStore c t ty (spaceOf f) (s.vreg c t f.srcb.toNat) els) s

/-! ### Parts of tile rows (R190) -/

/-- Elements of a part that lie in the handle's columns and within the memory that holds the tile: element of the register, and
its place in memory.  The XA output of a tile may reach past the end of the accumulator memory (assumption 39). -/
def partEls (core : Nat) (h : Word) (row part : Nat) (els : List Nat) : List (Nat × ElAt) :=
  let ty := thType h
  let per := 2048 / ty.bits
  let at0 := row * thPitch h + part * 256
  (els.filter (fun i => decide (part * per + i < thElems h)
      && decide (thOffset h + at0 + i * (ty.bits / 8) < thMemBytes core h))).map (fun i =>
    (i, packedAt ty (thKey core h + at0) i))

/-- A row or part out of range: ADDRESS on every active element. -/
def partFaults (h : Word) (row part : Nat) (els : List Nat) : List FInfo :=
  if thRows h ≤ row ∨ thPitch h ≤ part * 256 then
    els.map (fun i => ⟨fcAddress, 0, some (i, laneOf (thType h) i),
      (packedAt (thType h) (thOffset h + row * thPitch h + part * 256) i).addr % 2 ^ 64⟩)
  else []

/-- Whether VLDT or VSTT may use the handle in t_a (R190, 06 R211).  A scale plane of FP4 beyond the end of tile memory does not matter
here: neither instruction reads or writes it (04 R150; the model's choice, assumption 172). -/
def State.tilePartOk (s : State) (core : Nat) (f : Fields) : Bool :=
  let h := s.handle core f.srca.toNat
  s.handleOk core f.srca.toNat && !s.headered core f.srca.toNat && thTypeCode h == f.type.toNat && !(thType h).isFP6

/-- VLDT: part of a tile row (R190). -/
def readVldt (ue : List FInfo) (c : Fin 800) (t : Fin 16) (f : Fields) (s : State) : Out :=
  issueUe ue c t 4 0x14 f { dst := some .v, a := some .t, b := some .s, mask := true, ty := true, imm := 7 } false []
    (fun s =>
      let h := s.handle c f.srca.toNat
      let row := (s.sreg c t f.srcb.toNat).toNat
      let part := bits f.imm.toNat 0 3
      let els := s.act c t f
      if !s.tilePartOk c f then .fault (whole fcHandle :: partFaults h row part els)
      else match partFaults h row part els with
        | fault :: fs => .fault (fault :: fs)
        | [] =>
          let ty := typeOf f
          let old := els.foldl (fun v i => setElem ty v i 0) (s.vreg c t f.dst.toNat).toNat
          let pieces := (partEls c h row part els).map (fun x => (⟨x.1 * ty.lane, ty.bits, x.2.addr, x.2.sh, x.2.nb⟩ : Piece))
          .go (s.setV c t f.dst.toNat (BitVec.ofNat 2048 (fillPieces s.m.mem old pieces))) (s.next c t)) s

/-- VLDT with no error in the memories that it reads. -/
def execVldt (c : Fin 800) (t : Fin 16) (f : Fields) (s : State) : Out := readVldt [] c t f s

/-- VSTT: part of a row of an own tile (R190). -/
def execVstt (c : Fin 800) (t : Fin 16) (f : Fields) (s : State) : Out :=
  issue c t 4 0x15 f { a := some .t, b := some .v, c := some .s, mask := true, ty := true, imm := 7 } false []
    (fun s =>
      let h := s.handle c f.srca.toNat
      let row := (s.sreg c t f.srcc.toNat).toNat
      let part := bits f.imm.toNat 0 3
      let els := s.act c t f
      if !s.tilePartOk c f || thOwner h != subOf c then .fault (whole fcHandle :: partFaults h row part els)
      else match partFaults h row part els with
        | fault :: fs => .fault (fault :: fs)
        | [] =>
          let ks := (partEls c h row part els).map (fun x => (x.1, x.2, seqKeys x.2.addr x.2.nb))
          .go (s.wrCells (s.storeCells (typeOf f) (s.vreg c t f.srcb.toNat) ks)) (s.next c t)) s

end Sys2Proof.Machine
end

