-- ==== Sys2Proof/Machine/Streams.lean ====
section
/-! DEFINITION. Streams and sluices (03 R123 to R130), the convolution address generator (04 R156 to R158), and the stream
instructions and events. -/

namespace Sys2Proof.Machine

/-! ### The descriptor -/

/-- A little-endian field of a descriptor. -/
def Stream.f (st : Stream) (off n : Nat) : Nat := leNat ((st.desc.drop off).take n)
def Stream.kind (st : Stream) : Nat := bits (st.f 0 4) 0 4
def Stream.tyCode (st : Stream) : Nat := bits (st.f 0 4) 4 4
def Stream.ty (st : Stream) : Ty := (Ty.ofCode st.tyCode).getD .fp32
def Stream.scaled (st : Stream) : Bool := bit (st.f 0 4) 8
def Stream.base (st : Stream) : Nat := st.f 8 6
def Stream.ext (st : Stream) (j : Nat) : Nat := st.f (0x10 + 4 * j) 4
def Stream.stride (st : Stream) (j : Nat) : Int := signed 64 (st.f (0x18 + 8 * j) 8)
def Stream.scaleBase (st : Stream) : Nat := st.f 0x38 6
/-- NROWS of KIND 4 and 5. -/
def Stream.nrows (st : Stream) : Nat := st.f 8 3
/-- Chunks of a row of 256 elements of KIND 4 and 5 (09 R325). -/
def Stream.rowChunks (st : Stream) : Nat := if st.ty.bits = 8 then 1 else 2
def Stream.isRead (st : Stream) : Bool := st.kind == 0 || st.kind == 2

/-- KIND 6 (04 R156). -/
def Stream.cv (st : Stream) (off n : Nat) : Nat := st.f off n
def Stream.cvKsize (st : Stream) : Nat := st.f 0x19 1 * st.f 0x18 1 * st.f 0x14 2
def Stream.cvOut (st : Stream) : Nat := st.f 0x20 2 * st.f 0x22 2
/-- K for which the rows are laid out: 256 but for FP4 that faces FP4 (04 R157). -/
def Stream.cvK (st : Stream) : Nat := if st.k = 0 then 256 else st.k
def Stream.cvSteps (st : Stream) : Nat := roundUp st.cvKsize st.cvK / st.cvK

/-- Elements of the whole stream of KIND 0, 1, 2, 3 or 6. -/
def Stream.count (st : Stream) : Nat :=
  if st.kind = 6 then roundUp st.cvOut 256 * st.cvSteps * st.cvK
  else st.ext 0 * st.ext 1 * st.ext 2 * st.ext 3

/-- Chunks of the whole stream. -/
def Stream.chunks (st : Stream) : Nat := (st.count + st.ty.count - 1) / st.ty.count

/-! ### Where elements lie -/

/-- A byte address as the space reads it: virtual addresses wrap at 2^64, so a negative one is out of range. -/
def wrap64 (i : Int) : Nat := wrapInt 64 i

/-- The element at position `e` of the stream: its place, and the address of its scale byte; none is padding
(R124, R58, 04 R157). -/
def Stream.at? (st : Stream) (e : Nat) : Option (ElAt × Nat) :=
  if st.kind = 6 then
    let k := st.cvK
    let r := e / k
    let g := r / (256 * st.cvSteps)
    let p := g * 256 + r % 256
    let kk := r / 256 % st.cvSteps * k + e % k
    let ch := st.f 0x14 2
    let kw := st.f 0x18 1
    let c := kk % ch
    let kx := kk / ch % kw
    let ky := kk / (ch * kw)
    let ow := st.f 0x20 2
    let x : Int := Int.ofNat (p % ow * st.f 0x1A 1 + kx * st.f 0x1C 1) - Int.ofNat (st.f 0x1E 1)
    let y : Int := Int.ofNat (p / ow * st.f 0x1B 1 + ky * st.f 0x1D 1) - Int.ofNat (st.f 0x1F 1)
    if st.cvKsize ≤ kk ∨ st.cvOut ≤ p ∨ x < 0 ∨ Int.ofNat (st.f 0x10 2) ≤ x ∨ y < 0 ∨ Int.ofNat (st.f 0x12 2) ≤ y then none
    else
      let pix := Int.ofNat st.base + y * signed 64 (st.f 0x28 8) + x * Int.ofNat (st.f 0x30 4)
      let el := packedAt st.ty (wrap64 pix) c
      some (el, st.scaleBase + (y.toNat * st.f 0x10 2 + x.toNat) * (ch / 32) + c / 32)
  else if st.count ≤ e then none
  else
    let i0 := e % st.ext 0
    let r := e / st.ext 0
    let i1 := r % st.ext 1
    let i2 := r / st.ext 1 % st.ext 2
    let i3 := r / st.ext 1 / st.ext 2
    let row := Int.ofNat st.base + Int.ofNat i1 * st.stride 1 + Int.ofNat i2 * st.stride 2 + Int.ofNat i3 * st.stride 3
    some (packedAt st.ty (wrap64 row) i0, st.scaleBase + r * (st.ext 0 / 32) + i0 / 32)

/-- The space that a stream's addresses are in: 2 stack, 1 shared memory. -/
def Stream.space (st : Stream) : Nat :=
  if st.kind = 6 then (if bit (st.f 0x24 4) 0 then 1 else 2) else if st.kind ≤ 1 then 2 else 1

/-- Bytes of a stream read: range and translation (R127); read streams lie outside the task extents (R120). -/
def State.streamKey (s : State) (core space addr nb : Nat) : (Except (Nat × Nat) Nat) × State :=
  if space = 1 then
    (if addr + nb ≤ sharedBytes then .ok (keyShared (clusterOf core) addr) else .error (fcAddress, addr), s)
  else if 2 ^ 48 < addr + nb then (.error (fcAddress, addr), s)
  else
    match s.translate (clusterOf core) addr with
    | (none, s) => (.error (fcTranslation, addr), s)
    | (some (k, _), s) => (.ok k, s)

/-- The keys of a stream element's bytes; a failure names the element's own address (R129). -/
def State.streamKeys (s : State) (core space addr nb : Nat) : (Except (Nat × Nat) (List Nat)) × State :=
  let first := min nb (4096 - addr % 4096)
  match s.streamKey core space addr first with
  | (.error e, s) => (.error e, s)
  | (.ok k, s) =>
    if first = nb then (.ok (seqKeys k nb), s)
    else
      match s.streamKey core space (addr + first) (nb - first) with
      | (.error (e, _), s) => (.error (e, addr), s)
      | (.ok k', s) => (.ok (seqKeys k first ++ seqKeys k' (nb - first)), s)

/-! ### SOPEN (R126, R130, R56, 04 R156, 09 R325 to R332) -/

/-- Reserved encodings of KIND 0 to 3. -/
def Stream.badPlain (st : Stream) : Bool :=
  st.f 0x0E 2 != 0 || st.f 0x3E 2 != 0 || (List.range 4).any (fun j => st.ext j == 0)
    || (!st.scaled && st.scaleBase != 0) || (st.scaled && !st.isRead)
    || (st.ty == .e2m1 && st.ext 0 % 2 != 0) || (st.ty.isFP6 && st.ext 0 % 4 != 0)
    || (st.scaled && st.ext 0 % 32 != 0)

/-- Reserved encodings of KIND 6 (04 R156).  IN_H has no stated range, and 0 is refused; OUT_W and OUT_H have none, and 0 is a
stream of no elements (assumption 148). -/
def Stream.badConv (st : Stream) : Bool :=
  st.f 0x0E 2 != 0 || st.f 0x3E 2 != 0 || st.f 0x16 2 != 0 || st.f 0x25 3 != 0 || 1 < st.f 0x24 1 || st.f 0x34 4 != 0
    || (!st.scaled && st.scaleBase != 0)
    || [st.f 0x10 2, st.f 0x12 2, st.f 0x14 2, st.f 0x18 1, st.f 0x19 1, st.f 0x1A 1, st.f 0x1B 1, st.f 0x1C 1,
        st.f 0x1D 1].any (· == 0)
    || (st.scaled && st.f 0x14 2 % 32 != 0) || decide (st.f 0x30 4 * 8 < st.f 0x14 2 * st.ty.bits)

/-- Rows fed from outside: what KIND 4 and 5 share (09 R325). -/
def Stream.badFed (st : Stream) : Bool :=
  st.scaled || st.nrows == 0 || decide (st.depth < st.rowChunks)
    || !(st.ty.isFP8 || st.ty == .bf16 || st.ty == .fp16
      || (st.kind == 4 && (st.ty == .int8 || st.ty == .uint8)))

def Stream.feederWord (st : Stream) (i : Nat) : Nat := st.f (0x10 + 2 * i) 2
/-- The valid feeders of KIND 4 (09 R326). -/
def Stream.feeders (st : Stream) : List Nat :=
  (List.range 4).filterMap (fun i =>
    let w := st.feederWord i
    if bit w 15 then some (bits w 0 10) else none)
def Stream.credChannel (st : Stream) : Nat := st.f 0x0C 1

/-- Reserved encodings of KIND 4 (09 R326, R327). -/
def Stream.badGather (st : Stream) (core : Nat) : Bool :=
  st.badFed || st.f 0x0B 1 != 0 || st.f 0x0D 3 != 0 || st.f 0x18 40 != 0
    || (List.range 4).any (fun i => bits (st.feederWord i) 10 5 != 0) || st.feeders.isEmpty
    || st.feeders.any (fun c => decide (800 ≤ c) || isMatrix c || sectionOf c != sectionOf core)

/-- Fields of KIND 5 (09 R332). -/
def Stream.poolTable (st : Stream) : Nat := bits (st.f 8 8) 24 6
def Stream.poolOp (st : Stream) : Nat := bits (st.f 8 8) 30 2
def Stream.poolRnd (st : Stream) : Nat := bits (st.f 8 8) 32 3
def Stream.poolGroup (st : Stream) : Nat := bits (st.f 8 8) 36 9

/-- Reserved encodings of KIND 5; only a weighted sum (POOL_OP 1) has weights. -/
def Stream.badPool (st : Stream) : Bool :=
  st.badFed || bits (st.f 8 8) 35 1 != 0 || bits (st.f 8 8) 45 19 != 0 || 4 < st.poolRnd
    || st.poolGroup == 0 || 256 < st.poolGroup || decide (st.depth < st.poolGroup * st.rowChunks)
    || st.f 0x10 8 % 64 != 0 || 2 ^ 23 ≤ st.f 0x10 8 || 2 ^ 23 ≤ st.f 0x18 8 || 2 ^ 23 ≤ st.f 0x20 8
    || (st.poolOp != 1 && st.f 0x18 8 != 0) || st.f 0x28 24 != 0

/-- Whether SOPEN refuses a descriptor on its own account. -/
def Stream.bad (st : Stream) (core : Nat) : Bool :=
  6 < st.kind || st.tyCode == 15 || bits (st.f 0 4) 9 7 != 0 || st.depth == 0 || 1024 < st.depth
    || (st.scaled && !(st.ty.isFP8 || st.ty.alwaysScaled))
    || (if st.kind ≤ 3 then st.badPlain else if st.kind = 4 then st.badGather core
        else if st.kind = 5 then st.badPool else st.badConv)

/-- SOPEN (R126). -/
def readSopen (ue : List FInfo) (c : Fin 800) (t : Fin 16) (f : Fields) (s : State) : Out :=
  issueUe ue c t 4 0x04 f { dst := some .q, a := some .s } false []
    (fun s =>
      let off := (s.sreg c t f.srca.toNat).toNat
      let q := f.dst.toNat
      if off % 64 != 0 || decide (ownBytes c < off + 64) then
        .fault (wholeAt fcAddress off :: if (s.stream c q).isOpen then [whole fcStream] else [])
      else
        let st : Stream := { Stream.closed with isOpen := true, desc := s.rdB (keyOwn c off) 64 }
        let st : Stream := { st with credits := st.depth }
        let limit := if isMatrix c then 1024 else 256
        if (s.stream c q).isOpen || st.bad c || decide (limit < s.reserved c + st.depth) then .fault [whole fcStream]
        else
          let feeders := s.core.feeders.filter (fun e => e.2.1 != 16 * c.val + q)
          let new := if st.kind = 4 then st.feeders.map (fun x => (x, 16 * c.val + q, 0)) else []
          .go ({ s with core := { s.core with feeders := feeders ++ new } }.setStream c q st) (s.next c t)) s

/-- SOPEN with no error in the memories that it reads. -/
def execSopen (c : Fin 800) (t : Fin 16) (f : Fields) (s : State) : Out := readSopen [] c t f s

/-- SCLOSE stops fetching; the thread goes on once everything in flight has settled (R126). -/
def execSclose (c : Fin 800) (t : Fin 16) (f : Fields) (s : State) : Out :=
  issue c t 4 0x05 f { a := some .q } false []
    (fun s =>
      let q := f.srca.toNat
      let st := s.stream c q
      if !st.isOpen || st.closing then .fault [whole fcStream]
      else if s.streamBusy c q then .wait (s.setStream c q { st with closing := true, landed := [] }) (.close q)
      else .go (s.freeStream c q) (s.next c t)) s

/-! ### Chunks of read streams (R127, R129) -/

/-- The elements of chunk `n` that are no padding: position in the chunk, place, scale address. -/
def Stream.chunkEls (st : Stream) (n : Nat) : List (Nat × ElAt × Nat) :=
  (List.range st.ty.count).filterMap (fun j => (st.at? (n * st.ty.count + j)).map (fun x => (j, x.1, x.2)))

/-- The elements of a chunk found: pieces, keys, failures. -/
def State.chunkKeys (s : State) (core : Nat) (st : Stream) :
    List (Nat × ElAt × Nat) → List Piece × List Nat × List EFault × State
  | [] => ([], [], [], s)
  | (j, e, _) :: r =>
    let (x, s) := s.streamKeys core st.space e.addr e.nb
    let (ps, ks, fs, s) := s.chunkKeys core st r
    match x with
    | .ok keys => (pieceOf st.ty j e keys ++ ps, keys ++ ks, fs, s)
    | .error (code, a) => (ps, ks, ⟨j, code, a⟩ :: fs, s)

/-- The scale bytes of a chunk found, one for each block of 32 elements: a failed one marks its block. -/
def State.scaleKeys (s : State) (core : Nat) (st : Stream) (els : List (Nat × ElAt × Nat)) :
    List Nat → List Piece × List Nat × List EFault × State
  | [] => ([], [], [], s)
  | b :: r =>
    match els.filter (fun x => x.1 / 32 == b) with
    | [] => s.scaleKeys core st els r
    | (j, e, a) :: more =>
      let (x, s) := s.streamKey core st.space a 1
      let (ps, ks, fs, s) := s.scaleKeys core st els r
      match x with
      | .ok k => (⟨8 * b, 8, k, 0, 1⟩ :: ps, k :: ks, fs, s)
      | .error (code, a) => (ps, ks, ((j, e, a) :: more).map (fun y => ⟨y.1, code, a⟩) ++ fs, s)

/-- The elements of a chunk by the rows of the array that they belong to: 512 FP4 elements of a convolution stream are two rows
when K is 256 (04 R157). -/
def Stream.rowParts (st : Stream) (els : List (Nat × ElAt × Nat)) : List (List (Nat × ElAt × Nat)) :=
  if st.kind = 6 && st.ty == .e2m1 && st.k == 256 then
    [els.filter (fun x => x.1 < 256), els.filter (fun x => !decide (x.1 < 256))]
  else [els]

/-- What the rows of a chunk need: pieces, those of the scale bytes, failures, requests.  An element that several windows of a row
share is fetched once for the row (04 R158). -/
def State.rowsKeys (s : State) (core : Nat) (st : Stream) :
    List (List (Nat × ElAt × Nat)) → List Piece × List Piece × List EFault × List (Nat × List (Nat × Byte)) × State
  | [] => ([], [], [], [], s)
  | els :: r =>
    let (ps, ks, fs, s) := s.chunkKeys core st els
    let (sp, sk, sf, s) :=
      if st.scaled then s.scaleKeys core st els (List.range (st.ty.count / 32)) else ([], [], [], s)
    let (ps', sp', fs', gs, s) := s.rowsKeys core st r
    (ps ++ ps', sp ++ sp', fs ++ sf ++ fs', groupCells ((dedup (ks ++ sk)).map (·, 0)) ++ gs, s)

/-- The streams from which an operation of the engine still takes rows. -/
def Mxm.streams (x : Mxm) : List Nat :=
  (match x.srcA with
    | .stream q => if x.rowsA.length < 256 then [q] else []
    | _ => []) ++
  (match x.srcB with
    | .stream q => if x.rowsB.length < 256 then [q] else []
    | _ => [])
def Mldp.streams (x : Mldp) : List Nat :=
  match x.src with
  | .stream q => if x.rows.length < 256 then [q] else []
  | _ => []

/-- How many rows of a stream the started operations of an engine still take: they complete also when their task has left RUNNING
(04 R177; assumption 72). -/
def State.rowsWanted (s : State) (mc q : Nat) : Nat :=
  let a := (s.mx.mxms.filter (fun x => x.mc == mc && x.started && x.bad.isNone)).flatMap (fun x =>
    (match x.srcA with
      | .stream r => if r = q then [256 - x.rowsA.length] else []
      | _ => []) ++
    (match x.srcB with
      | .stream r => if r = q then [256 - x.rowsB.length] else []
      | _ => []))
  let b := (s.mx.mldps.filter (fun x => x.mc == mc && x.started && x.bad.isNone)).flatMap (fun x =>
    match x.src with
    | .stream r => if r = q then [256 - x.rows.length] else []
    | _ => [])
  (a ++ b).foldl (· + ·) 0

/-- Whether the next chunk of a stream holds elements of those rows. -/
def State.chunkWanted (s : State) (mc q : Nat) : Bool :=
  let st := s.stream mc q
  let k := if st.kind = 6 then st.k else if st.kind ≤ 3 then st.ext 0 else 256
  decide (st.requested * st.ty.count < (st.rowsTaken + s.rowsWanted mc q) * k) && s.rowsWanted mc q != 0

/-- The number under which a stream that a started MXM still takes rows from goes on after the `n`-th launch of its core, which
closes the stream register (R119, 04 R177): `State.stream` holds it beyond those of all cores. -/
def leftQ (n q : Nat) : Nat := 12800 * n + q

/-- The streams of earlier tasks in a register's place from which the engine still takes rows, the oldest first. -/
def State.leftStreams (s : State) (mc q : Nat) : List Nat :=
  (((s.mx.mxms.filter (fun x => x.mc == mc && x.started)).flatMap Mxm.streams).filter (fun r => 16 ≤ r && r % 16 == q)).eraseDups

/-- Whether a stream requests a chunk now (R127): its task runs and has met no fault (R137), or a started operation of the engine
wants the rows (04 R177). -/
def State.mayFetch (s : State) (c q : Nat) : Bool :=
  let st := s.stream c q
  ((decide (q < 16) && s.taskRuns c && (s.engineFaults c).isEmpty) || s.chunkWanted c q) && st.isOpen && !st.closing
    && (st.isRead || st.kind == 6) && st.credits != 0 && decide (st.requested < st.chunks)
    && !(st.kind == 6 && st.ty == .e2m1 && st.k == 0)

/-- A read stream requests its next chunk (R127); a translation that meets an uncorrectable codeword fences the partition (08
R284). -/
def State.streamFetch (s : State) (c q : Nat) : State :=
  let st := s.stream c q
  let (ps, sp, fs, groups, s) := s.rowsKeys c st (st.rowParts (st.chunkEls st.requested))
  match s.lostWalk c (fs.map (fun e => ⟨e.code, 0, none, e.addr⟩)) with
  | some k => s.stackUE k
  | none =>
    let s := s.setStream c q { st with requested := st.requested + 1, credits := st.credits - 1 }
    s.startGroups (newXfer c (16 + q % 16) false [] (.chunk q st.requested ps sp fs)) true false groups

/-- STREAM_FETCH: the stream in a register requests its next chunk, one of an earlier task first. -/
def execStreamFetch (c : Fin 800) (q : Fin 16) (s : State) : Out :=
  unlessStopped s (
    match (s.leftStreams c q ++ [q.val]).find? (s.mayFetch c) with
    | some r => .next (s.streamFetch c r)
    | none => .next s)

/-- CHUNK_LAND: a chunk whose data has arrived lands in the stream buffer, or is discarded (R126, R129). -/
def State.chunkLand (s : State) (core q : Nat) : State :=
  match s.m.xfers.find? (fun (x : Xfer) => x.core == core && x.todo == 0 && match x.act with
      | .chunk q' _ _ _ _ => q' % 16 == q
      | _ => false) with
  | none => s
  | some x =>
    let s := (s.dropXfer x.id).unblock core
    match x.act with
    | .chunk q n ps sp bad =>
      let st := s.stream core q
      if st.closing || !st.isOpen then s.tryClose core q
      else
        let ch : Chunk :=
          { n := n, bits := BitVec.ofNat 2048 (fillPieces x.got 0 ps)
            scales := if sp.isEmpty && !st.scaled then []
              else (List.range (st.ty.count / 32)).map (fun b => bits (fillPieces x.got 0 sp) (8 * b) 8)
            bad := bad }
        s.setStream core q { st with landed := st.landed ++ [ch] }
    | _ => s

/-! ### SRD and SWR (R128 to R130) -/

/-- SRD: the next chunk of a read stream (R129, R130). -/
def execSrd (c : Fin 800) (t : Fin 16) (f : Fields) (s : State) : Out :=
  issue c t 4 0x06 f { dst := some .v, a := some .q } false []
    (fun s =>
      let q := f.srca.toNat
      let st := s.stream c q
      if !st.isOpen || st.closing || !st.isRead || st.scaled || decide (st.chunks ≤ st.consumed) then
        .fault [whole fcStream]
      else match st.landed.find? (fun ch => ch.n == st.consumed) with
        | none => .stay s
        | some ch =>
          if ch.bad.isEmpty then
            let s := s.setStream c q { st with
              consumed := st.consumed + 1, credits := st.credits + 1
              landed := st.landed.filter (fun x => x.n != st.consumed) }
            .go (s.setV c t f.dst.toNat ch.bits) (s.next c t)
          else .fault (ch.bad.map (fun b => ⟨fcStream, b.code, some (b.elem, laneOf st.ty b.elem), b.addr⟩))) s

/-- The elements of a chunk to be written, checked in order: keys, or the first failure (R128). -/
def State.writeKeys (s : State) (core : Nat) (st : Stream) :
    List (Nat × ElAt × Nat) → (Except (Nat × Nat) (List (Nat × ElAt × List Nat))) × State
  | [] => (.ok [], s)
  | (j, e, _) :: r =>
    match s.spanKeys core st.space e.addr e.nb true with
    | (.error (code, _), s) => (.error (code, e.addr), s)
    | (.ok keys, s) =>
      match s.writeKeys core st r with
      | (.error x, s) => (.error x, s)
      | (.ok l, s) => (.ok ((j, e, keys) :: l), s)

/-- SWR: the next chunk of a write stream (R128, R130). -/
def execSwr (c : Fin 800) (t : Fin 16) (f : Fields) (s : State) : Out :=
  issue c t 4 0x07 f { dst := some .q, a := some .v } false []
    (fun s =>
      let q := f.dst.toNat
      let st := s.stream c q
      if !st.isOpen || st.closing || !(st.kind == 1 || st.kind == 3) || decide (st.chunks ≤ st.written) then
        .fault [whole fcStream]
      else if st.credits = 0 then .stay s
      else
        match s.writeKeys c st (st.chunkEls st.written) with
        | (.error (code, a), _) => .fault [⟨fcStream, code, none, a⟩]
        | (.ok ks, s) =>
          let cells := s.storeCells st.ty (s.vreg c t f.srca.toNat) ks
          let s := s.setStream c q { st with written := st.written + 1, credits := st.credits - 1 }
          .go (s.startXfer (newXfer c t true [] (.wchunk q)) true true cells) (s.next c t)) s

end Sys2Proof.Machine
end

