-- ==== Sys2Proof/Machine/Array.lean ====
section
/-! DEFINITION. The arithmetic of the matrix array: operand tiles and headered tiles (04 R149 to R151, 06 R207 to R217),
products, runs, promotions and output conversion with the tile status record (02 R71 to R76, R83 to R86), output-block
masks and audits (06 R224 to R231). -/

namespace Sys2Proof.Machine

/-! ### Operands -/

/-- The operand types of R142. -/
def operandTy (t : Ty) : Bool := t == .bf16 || t == .fp16 || t.isFP8 || t.alwaysScaled || t == .int8 || t == .uint8

def int8Ty (t : Ty) : Bool := t == .int8 || t == .uint8

/-- Whether two operand types combine, and K (R142). -/
def combines (a b : Ty) : Bool := operandTy a && operandTy b && (int8Ty a == int8Ty b)
def kOf (a b : Ty) : Nat := if a == .e2m1 && b == .e2m1 then 512 else 256

/-- A row cut or padded to K elements (R149, R151). -/
def padRow (k : Nat) (l : List OpEl) : List OpEl := l.take k ++ List.replicate (k - l.length) none

/-- Where a scale plane after `rows` rows of a tile starts (R150), as an offset of tile memory. -/
def scalePlaneAt (h : Word) (rowsAt : Nat) : Nat := roundUp (rowsAt + thRows h * thPitch h) 64

def scaleBytes (h : Word) : Nat := if (thType h).alwaysScaled then thRows h * (thElems h / 32) else 0

/-- Whether an operand handle breaks R142, R149 or R150 for an instruction of `k` elements a row. -/
def operandBad (mc : Nat) (h : Word) (k : Nat) (headered : Bool) : Bool :=
  thSpace h != 0 || thOwner h != subOf mc || !operandTy (thType h) || thTypeCode h == 15 || thBadCols h
    || decide (k < thElems h) || ((thType h).alwaysScaled && thElems h % 32 != 0)
    || (!headered && decide (ownBytes mc < scalePlaneAt h (thOffset h) + scaleBytes h))

/-- The rows of a tile whose element rows start at `rowsAt` of tile memory (R149, R150). -/
def State.plainRows (s : State) (mc : Nat) (h : Word) (rowsAt k : Nat) : List (List OpEl) :=
  let ty := thType h
  let sp := scalePlaneAt h rowsAt
  (List.range (thRows h)).map (fun r =>
    padRow k ((List.range (thElems h)).map (fun e =>
      let p := packedAt ty (keyOwn mc (rowsAt + r * thPitch h)) e
      let sc := if ty.alwaysScaled then s.rd (keyOwn mc (sp + r * (thElems h / 32) + e / 32)) 1 else 127
      some (bits (s.rd p.addr p.nb) p.sh ty.bits, sc))))

/-- The block of each K-step of a band record (06 R213, R214): none where it is a zero block, else the index of the
stored block; none at all where the record is malformed. -/
def runBlocks (nnz : Nat) : Nat → List Nat → Option (List (Option Nat))
  | _, [] => none
  | i, e :: r =>
    let z := e % 64
    if 128 ≤ e ∨ (bit e 6 != decide (i = nnz)) then none
    else if i = nnz then some (List.replicate z none)
    else (runBlocks nnz (i + 1) r).map (fun l => List.replicate z none ++ some i :: l)

/-- The 16 rows of a band of a compressed tile, each as codes by element; none where the record is malformed. -/
def State.bandCodes (s : State) (key nkblk : Nat) (ty : Ty) (limit : Nat) : Option (List (List Nat) × Nat) :=
  let nnz := s.rd key 1
  let blk := 256 * ty.bits / 8
  let blocks := roundUp (3 + nnz) 64
  if nkblk < nnz ∨ s.rd (key + 1) 1 ≠ 0 ∨ limit < blocks + nnz * blk then none
  else
    match runBlocks nnz 0 ((s.rdB (key + 2) (nnz + 1)).map BitVec.toNat) with
    | none => none
    | some l =>
      if l.length ≠ nkblk then none
      else
        some ((List.range 16).map (fun r =>
          l.flatMap (fun b => (List.range 16).map (fun c =>
            match b with
            | none => 0
            | some i =>
              let p := packedAt ty (key + blocks + i * blk) (16 * r + c)
              bits (s.rd p.addr p.nb) p.sh ty.bits))), nnz)

/-- The bands of a compressed tile, from band `r` on. -/
def State.bands (s : State) (hd nkblk bytes : Nat) (ty : Ty) : List Nat → Option (List (List Nat) × Nat)
  | [] => some ([], 0)
  | r :: rest =>
    let off := s.rd (hd + 8 + 2 * r) 2 * 64
    match s.bandCodes (hd + off) nkblk ty (bytes - off), s.bands hd nkblk bytes ty rest with
    | some (rows, n), some (more, m) => some (rows ++ more, n + m)
    | _, _ => none

/-- The rows of a headered tile; none where it is malformed (06 R212 to R217).  Any NKBLK that agrees with the handle is taken, and BYTES
of an unscaled dense tile is held against tile memory alone, its rows too (the model's choice, assumptions 152 and 173). -/
def State.headeredRows (s : State) (mc : Nat) (h : Word) (k : Nat) : Option (List (List OpEl)) :=
  let ty := thType h
  let hd := keyOwn mc (thOffset h)
  let w := s.rd hd 4
  let bytes := s.rd (hd + 4) 4
  let nb := bits w 8 5
  let nk := bits w 16 6
  let scOff := s.rd (hd + 0x28) 2 * 64
  let reserved := bits w 1 7 != 0 || bits w 13 3 != 0 || bits w 22 2 != 0 || bits w 28 4 != 0
    || s.rd (hd + 0x2A) 2 != 0 || s.rd (hd + 0x2E) 2 != 0 || s.rd (hd + 0x30) 16 != 0
  if reserved || nb * 16 != thRows h || nk * 16 != thElems h || bits w 24 4 != thTypeCode h || bytes % 64 != 0
      || decide (ownBytes mc < thOffset h + bytes) then none
  else if bit w 0 then
    if ty.alwaysScaled ∧ bytes < scOff + scaleBytes h then none
    else
      match s.bands hd nk bytes ty (List.range nb) with
      | none => none
      | some (rows, nnz) =>
        if nnz ≠ s.rd (hd + 0x2C) 2 then none
        else some ((rows.zip (List.range (thRows h))).map (fun x =>
          padRow k ((x.1.zip (List.range (thElems h))).map (fun y =>
            let sc := if ty.alwaysScaled then s.rd (hd + scOff + x.2 * (thElems h / 32) + y.2 / 32) 1 else 127
            some (y.1, sc)))))
  else if ownBytes mc < scalePlaneAt h (thOffset h + 64) + scaleBytes h then none
  else if ty.alwaysScaled ∧ thOffset h + bytes < scalePlaneAt h (thOffset h + 64) + scaleBytes h then none
  else some (s.plainRows mc h (thOffset h + 64) k)

/-- The rows of an operand tile. -/
def State.tileRows (s : State) (mc : Nat) (h : Word) (k : Nat) (headered : Bool) : Option (List (List OpEl)) :=
  if headered then s.headeredRows mc h k else some (s.plainRows mc h (thOffset h) k)

/-! ### Products, runs, totals -/

/-- The events of a computation (02 R83, R84): flags, 0 × ∞ products, ∞ − ∞ additions, overflows, flushes, and the
rank and cause of the first INVALID. -/
structure Ev where
  fl : Flags
  zti : Nat
  infSub : Nat
  ovf : Nat
  unf : Nat
  first : Option (Nat × Nat)
deriving DecidableEq, Repr

def Ev.none : Ev := ⟨0, 0, 0, 0, 0, Option.none⟩

/-- An operation's events noted at rank `k`; `flushes` counts the operands flushed. -/
def Ev.note (e : Ev) (k : Nat) (r : NRes) (flushes : Nat) : Ev :=
  { fl := e.fl ||| r.fl
    zti := e.zti + (if r.cause = 1 then 1 else 0)
    infSub := e.infSub + (if r.cause = 2 then 1 else 0)
    ovf := e.ovf + (if r.fl &&& flOverflow != 0 then 1 else 0)
    unf := e.unf + flushes
    first := if e.first.isSome || r.cause = 0 then e.first else some (k, r.cause) }

/-- An operand element as a value: whether it was flushed (02 R63). -/
def opVal (ty : Ty) (x : Nat × Nat) : FVal × Bool :=
  let (v, fl) := elemVal ty x.1
  (applyScale v x.2, fl != 0)

/-- The product of two elements with their scales, rounded once to FP32 (R71), and the flushes. -/
def mxProduct (ta tb : Ty) (a b : Nat × Nat) : NRes × Nat :=
  let (x, fa) := opVal ta a
  let (y, fb) := opVal tb b
  if x.isNaN || y.isNaN then (NRes.ok fmtFP32.defaultNaN, 0)
  else
    let n := b2n fa + b2n fb
    let inFl : Flags := if n = 0 then 0 else flUnderflow
    let (v, c) := mulVal x y
    let r := finishOp fmtFP32 false inFl v c false
    let tiny := v.isFinite && !v.isZero && bits r.v 0 31 == 0
    (r, n + b2n tiny)

/-- One step of a run (R72). -/
def runStep (ta tb : Ty) (acc : Nat × Ev) (x : Nat × OpEl × OpEl) : Nat × Ev :=
  match x.2.1, x.2.2 with
  | some a, some b =>
    let (p, n) := mxProduct ta tb a b
    let e := acc.2.note x.1 p n
    let r := fAdd fmtFP32 acc.1 p.v
    (r.v, e.note x.1 r (if r.fl &&& flUnderflow != 0 then 1 else 0))
  | _, _ => acc

/-- The run of one output element over K indices in increasing order; padding forms no product (R151). -/
def runOf (ta tb : Ty) (a b : List OpEl) : Nat × Ev :=
  ((List.range a.length).zip (a.zip b)).foldl (runStep ta tb) (0, Ev.none)

/-- The exact integer run of R75. -/
def intRun (ta tb : Ty) (a b : List OpEl) : Int :=
  (a.zip b).foldl (fun acc x =>
    match x with
    | (some u, some v) => acc + ta.readInt u.1 * tb.readInt v.1
    | _ => acc) 0

/-- The total format of a tile. -/
def totalTy (h : Word) : Ty := thType h

/-- The total of an element after an instruction (R73, R75): `old` is none when the instruction opens the tile. -/
def promote (total : Ty) (k : Nat) (old : Option Nat) (run : Nat × Ev) : Nat × Ev :=
  match old with
  | none => (if total == .xa then (widen fmtFP32 fmtXA run.1).v else run.1, run.2)
  | some o =>
    let r := if total == .xa then fAdd fmtXA o (widen fmtFP32 fmtXA run.1).v else fAdd fmtFP32 o run.1
    (r.v, run.2.note k r (if r.fl &&& flUnderflow != 0 then 1 else 0))

def promoteInt (k : Nat) (old : Option Nat) (run : Int) : Nat × Ev :=
  match old with
  | none => (wrapInt 32 run, Ev.none)
  | some o =>
    let r := satInt .int32 (signed 32 o + run) 0
    (r.v, Ev.none.note k ⟨r.v, if r.cause = 0 then 0 else flOverflow, 0⟩ 0)

/-- One output element: the rows that meet in it. -/
def element (ta tb total : Ty) (k : Nat) (a b : List OpEl) (old : Option Nat) : Nat × Ev :=
  if int8Ty ta then promoteInt k old (intRun ta tb a b) else promote total k old (runOf ta tb a b)

/-! ### A whole tile -/

/-- The events of a tile so far, in sweep order (02 R84). -/
def Tile.absorb (t : Tile) (e : Ev) (row col : Nat) (best : Option (Nat × Nat × Nat × Nat)) :
    Tile × Option (Nat × Nat × Nat × Nat) :=
  let t := { t with fl := t.fl ||| e.fl, zti := t.zti + e.zti, infSub := t.infSub + e.infSub, ovf := t.ovf + e.ovf,
                    unf := t.unf + e.unf }
  let best := match e.first with
    | none => best
    | some (k, cause) =>
      let new := (k, row, col, cause)
      match best with
      | none => some new
      | some (k', r', c', _) =>
        if k < k' ∨ (k = k' ∧ (row < r' ∨ (row = r' ∧ col < c'))) then some new else best
  (t, best)

/-- The first INVALID position of an instruction kept in the tile, if the tile has none. -/
def Tile.setFirst (t : Tile) (best : Option (Nat × Nat × Nat × Nat)) : Tile :=
  match t.firstAt, best with
  | none, some (_, r, c, cause) => { t with firstAt := some (r, c, min t.count 0xFFFF), cause := cause }
  | _, _ => t

/-- Whether the mask enables column `j` of band `b` (06 R224). -/
def colOn (mask : Option MWord) (b w j : Nat) : Bool :=
  match mask with
  | none => true
  | some m => m.getLsbD ((b * w + j) / 16)

/-- The operands of band `b` of an instruction as rows of the output and rows of its columns (R141, R165). -/
def Mxm.sides (x : Mxm) (b w : Nat) : (Ty × List (List OpEl)) × (Ty × List (List OpEl)) :=
  let pl := x.plane.getD ⟨.fp16, 0, []⟩
  match mxSmode x.word with
  | 0 => ((x.tyA, x.rowsA), (x.tyB, (pl.rows.drop (b * w)).take w))
  | 1 => ((x.tyB, pl.rows), (x.tyA, x.rowsA))
  | _ => ((x.tyA, x.rowsA), (x.tyB, x.rowsB))

def rowAt (l : List (List OpEl)) (i k : Nat) : List OpEl := (l[i]?).getD (List.replicate k none)

/-- The totals of a tile after an instruction, row by row, with the tile's record. -/
def Mxm.computeTile (x : Mxm) (t : Tile) (b w : Nat) (old : Nat → Nat → Nat) : List (List Nat) × Tile :=
  let ((ta, ra), (tb, rb)) := x.sides b w
  let opening := mxOpen x.word b
  let total := totalTy (BitVec.ofNat 64 t.handle)
  let cell (i j : Nat) : Nat × Ev :=
    if colOn x.mask b w j then
      element ta tb total x.k (rowAt ra i x.k) (rowAt rb j x.k) (if opening then none else some (old i j))
    else (if opening then 0 else old i j, Ev.none)
  let rows := (List.range 256).map (fun i => (List.range w).map (cell i))
  let (t, best) := (rows.zip (List.range 256)).foldl (fun acc r =>
    (r.1.zip (List.range w)).foldl (fun acc y => acc.1.absorb y.1.2 r.2 y.2 acc.2) acc) (t, none)
  let t := t.setFirst best
  (rows.map (fun r => r.map Prod.fst), { t with count := t.count + 1, masked := t.masked || x.mask.isSome })

/-! ### Output conversion (02 R76, 04 R169) -/

/-- One total delivered in the output format. -/
def deliver (total out : Ty) (rnd : Rnd) (draw v : Nat) : NRes :=
  if total == out || total == .int32 then NRes.ok v
  else
    match total.fmt?, out.fmt? with
    | some f, some g => narrow g rnd draw false (decodeRaw f v) false
    | _, _ => NRes.ok v

/-- The tile status record (02 R83). -/
def Tile.status (t : Tile) : List Byte :=
  let (r, c, ch, ok) := match t.firstAt with
    | some (r, c, ch) => (r, c, ch, 1)
    | none => (0, 0, 0, 0)
  leBytes 4 (t.fl.toNat + t.cause * 2 ^ 8 + ok * 2 ^ 12 + b2n t.masked * 2 ^ 16)
    ++ leBytes 4 (r + c * 2 ^ 8 + ch * 2 ^ 16)
    ++ leBytes 2 (min t.zti 0xFFFF) ++ leBytes 2 (min t.infSub 0xFFFF) ++ leBytes 2 (min t.ovf 0xFFFF)
    ++ leBytes 2 (min t.unf 0xFFFF)

/-- The rows of a closed tile in the output format, with the tile's record; `draw i j` is the draw of row `i`, column `j`. -/
def Tile.convert (t : Tile) (out : Ty) (rnd : Rnd) (w : Nat) (draw : Nat → Nat → Nat) (rows : List (List Nat)) :
    List (List Nat) × Tile :=
  let total := totalTy (BitVec.ofNat 64 t.handle)
  let rs := (rows.zip (List.range 256)).map (fun r => (r.1.zip (List.range w)).map (fun y =>
    deliver total out rnd (draw r.2 y.2) y.1))
  let flushes (n : NRes) : Nat :=
    if n.fl &&& flUnderflow != 0 && (out.fmt?.any (fun f => f.flush)) then 1 else 0
  let e := rs.foldl (fun e r => r.foldl (fun e n => e.note 0 n (flushes n)) e) Ev.none
  (rs.map (fun r => r.map NRes.v), (t.absorb e 0 0 none).1)

/-! ### Audits (06 R230, R231) -/

/-- Whether a run element is a miss against τ. -/
def missEl (ta tb : Ty) (tau : Nat) (a b : List OpEl) : Bool :=
  let v : FVal :=
    if int8Ty ta then let i := intRun ta tb a b; .fin (decide (i < 0)) i.natAbs 0
    else decodeRaw fmtFP32 (runOf ta tb a b).1
  let m : FVal := match v with
    | .nan => .nan
    | .inf _ => .inf false
    | .fin _ m e => .fin false m e
  v.isNaN || decide (0 < cmpVal m (decodeRaw fmtFP32 tau))

/-- Disabled blocks of an instruction and the misses among them. -/
def Mxm.audits (x : Mxm) (tau : Nat) : Nat × Nat :=
  match x.mask with
  | none => (0, 0)
  | some m =>
    let w := 256 / mxBands x.word
    let off := (List.range 16).filter (fun k => !m.getLsbD k)
    let miss := off.filter (fun k =>
      let b := 16 * k / w
      let ((ta, ra), (tb, rb)) := x.sides b w
      (List.range 256).any (fun i => (List.range 16).any (fun j =>
        missEl ta tb tau (rowAt ra i x.k) (rowAt rb (16 * k + j - b * w) x.k))))
    (off.length, miss.length)

end Sys2Proof.Machine
end

