-- ==== Sys2Proof/Machine/Towpath.lean ====
section
/-! DEFINITION. Class 5, the tokens that arrive, and the halt of a task (01 R31 to R39, 03 R122, R131 to R134, R140, 20 R651,
R652). -/

namespace Sys2Proof.Machine

/-! ### Counters -/

def State.chOpen (s : State) (core ch : Nat) : Bool :=
  decide (ch < 64) && s.on (CL_TOK_LIMIT_OPEN (clusterOf core) (subOf core) ch)
def State.counter (s : State) (core ch : Nat) : Nat := s.fld (CL_TOK_CNT_COUNT (clusterOf core) (subOf core) ch)
def State.setCounter (s : State) (core ch v : Nat) : State :=
  s.setFld (CL_TOK_CNT_COUNT (clusterOf core) (subOf core) ch) v

/-- The threads that wait on a counter, first come first (R133). -/
def State.counterQueue (s : State) (core ch : Nat) : List (Nat × Nat × Nat) :=
  s.core.counterWait.filterMap (fun k =>
    if k / 16 == core then
      match s.stat core (k % 16) with
      | .waiting (.counter ch' need dst) => if ch' == ch then some (k, need, dst) else none
      | _ => none
    else none)

/-- The waiting threads of a counter served in order while it holds enough (R132, R133). -/
def State.serveCounter (s : State) (core ch : Nat) : List (Nat × Nat × Nat) → State
  | [] => s
  | (k, need, dst) :: r =>
    let n := s.counter core ch
    if need ≤ n then
      let s := s.setCounter core ch (n - need)
      let s := { s with core := { s.core with counterWait := s.core.counterWait.filter (· != k) } }
      ((s.setS core (k % 16) dst (BitVec.ofNat 64 (n - need))).resume core (k % 16)).serveCounter core ch r
    else s

/-- Whether a release of generation `g` satisfies a wait for `n` (R134). -/
def genReached (n g : Nat) : Bool := decide ((g + 2 ^ 24 - n) % 2 ^ 24 < 2 ^ 23)

def State.lastGen (s : State) (core ch : Nat) : Option Nat :=
  let c := clusterOf core
  let k := subOf core
  if s.on (CL_TOK_CNT_GEN_VALID c k ch) then some (s.fld (CL_TOK_CNT_GEN c k ch)) else none

def State.genDone (s : State) (core ch n : Nat) : Bool :=
  match s.lastGen core ch with
  | some g => genReached n g
  | none => false

/-- A thread that waits at a barrier on the channel goes on where its generation has come (R134). -/
def State.barrierGo (s : State) (core ch t : Nat) : State :=
  match s.stat core t with
  | .waiting (.barrier ch' n) => if ch' == ch && s.genDone core ch n then s.resume core t else s
  | _ => s

/-- Threads that a release satisfies go on. -/
def State.serveBarrier (s : State) (core ch : Nat) : State :=
  (List.range 16).foldl (fun s t => s.barrierGo core ch t) s

/-- A token that is not applied (01 R37). -/
def State.tokOverflow (s : State) (core : Nat) (tok : Word) : State :=
  if s.taskRuns core then
    let u := s.file 0x0002 clsTask 2 (clusterOf core) tok.toNat (s.corePart core)
    -- a fault that the engine has found before comes first, and the overflow adds one to EXTRA (R138)
    if (s.engineFaults core).isEmpty then u.taskFault core 0 0 ⟨fcToken, 0, none, tok.toNat⟩ 0 0
    else u.engineFault core 1
  else s.file 0x0002 clsNotice 2 (clusterOf core) tok.toNat (s.corePart core)

/-- Whether a credit-return or signal token is applied at a core: its channel is open and the limit holds (01 R37). -/
def State.tokFits (s : State) (core : Nat) (tok : Word) : Bool :=
  s.chOpen core (tokChannel tok) && decide (s.counter core (tokChannel tok) + tokValue tok
    ≤ s.fld (CL_TOK_LIMIT_LIMIT (clusterOf core) (subOf core) (tokChannel tok)))

/-- A credit-return or signal token at a core's counter (01 R35, R37). -/
def State.addToken (s : State) (core : Nat) (tok : Word) : State :=
  let ch := tokChannel tok
  let n := s.counter core ch + tokValue tok
  if !s.tokFits core tok then s.tokOverflow core tok
  else let s := s.setCounter core ch n; s.serveCounter core ch (s.counterQueue core ch)

/-- The counter that a token names at a unit that is no core. -/
def unitCtr (tok : Word) : Nat := tokDstNode tok * 2 ^ 13 + tokDstSub tok * 2 ^ 8 + tokChannel tok

/-- A token that a unit that is no core does not apply: nothing stops, the error is only reported (01 R37, 18 R585). -/
def State.unitOverflow (s : State) (tok : Word) : State := s.file 0x0002 clsNotice 2 (tokDstNode tok) tok.toNat

/-- A count added at a unit that is no core, where the limit with which its channel was opened, which is free (assumption 48),
allows it; else the overflow is reported (01 R35, R37). -/
def State.addUnit (s : State) (tok : Word) : State :=
  let n := Tab.get s.e.unitCnt 0 (unitCtr tok) + tokValue tok
  if n ≤ Config.unitLimit (unitCtr tok) then
    { s with e := { s.e with unitCnt := Tab.put s.e.unitCnt 0 (unitCtr tok) n } }
  else s.unitOverflow tok

/-! ### Rows of a stream fed by gathers, which wait for credit (09 R330) -/

/-- The count of chunks of a stream that a feeder knows to be consumed. -/
def State.feederCount (s : State) (feeder mc q : Nat) : Nat :=
  ((s.core.feeders.find? (fun e => e.1 == feeder && e.2.1 == 16 * mc + q)).map (fun e => e.2.2)).getD 0

/-- The bytes of a stream descriptor that the feeders need: DEPTH, chunks of a row, channel. -/
def feedDepth (st : Stream) : Nat := leNat ((st.desc.drop 2).take 2)
def feedChunks (st : Stream) : Nat := if (Ty.ofCode (bits (leNat (st.desc.take 1)) 4 4)).any (fun t => t.bits == 8) then 1 else 2
def feedChannel (st : Stream) : Nat := leNat ((st.desc.drop 12).take 1)

/-- The rows of a gather that may be requested now, and those that go on waiting. -/
def State.startRows (s : State) (core t master mc q rb : Nat) : List (Nat × List Nat) → State × List (Nat × List Nat)
  | [] => (s, [])
  | (row, keys) :: r =>
    let st := s.stream mc q
    if st.isOpen && decide ((row + 1) * feedChunks st ≤ s.feederCount core mc q + feedDepth st) then
      (s.startXfer (newXfer core t false [] (.feedRow master mc q row rb keys)) false false
        ((dedup keys).map (·, 0))).startRows core t master mc q rb r
    else (s, (row, keys) :: r)

/-- The gathers of a feeder into a stream request the rows that credit allows. -/
def State.kickFeeder (s : State) (core : Nat) : State :=
  (s.m.xfers.map Xfer.id).foldl (fun s id =>
    match s.m.xfers.find? (fun (x : Xfer) => x.id == id) with
    | none => s
    | some x =>
      match x.act with
      | .feed _ _ mc q rb (row :: rows) =>
        if x.core = core then
          let (s, rest) := s.startRows core x.thread id mc q rb (row :: rows)
          { s with m := { s.m with xfers := s.m.xfers.map (fun (y : Xfer) =>
              if y.id == id then
                { y with act := match y.act with
                    | .feed d w' a b c _ => .feed d w' a b c rest
                    | a => a }
              else y) } }
        else s
      | _ => s) s

/-- A feeder hears of chunks consumed (09 R330). -/
def State.feederCredit (s : State) (feeder : Nat) (tok : Word) : State :=
  let mc := tokSrcNode tok * 20 + tokSrcSub tok
  let fs := s.core.feeders.map (fun e =>
    if e.1 == feeder && e.2.1 / 16 == mc && feedChannel (s.stream mc (e.2.1 % 16)) == tokChannel tok
      then (e.1, e.2.1, e.2.2 + tokValue tok) else e)
  ({ s with core := { s.core with feeders := fs } }.kickFeeder feeder).unblock feeder

/-! ### Class 5 (R131) -/

/-- The token that a class 5 instruction sends. -/
def State.sync (s : State) (core t kind : Nat) (f : Fields) : Word :=
  let d := (s.sreg core t f.srca.toNat).toNat
  mkTok kind (bits d 0 8) (bits d 8 5) (clusterOf core) (subOf core) (bits f.imm.toNat 0 8)
    (bits (s.sreg core t f.srcb.toNat).toNat 0 24)

/-- Bits of s_a that must be zero. -/
def State.destBad (s : State) (core t : Nat) (f : Fields) : Bool := (s.sreg core t f.srca.toNat).toNat / 2 ^ 13 != 0

/-- An instruction that sends a token at once. -/
def sender (op kind : Nat) (c : Fin 800) (t : Fin 16) (f : Fields) (s : State) : Out :=
  issue c t 5 op f { a := some .s, b := some .s, imm := 255 } false []
    (fun s =>
      if s.destBad c t f then .fault [whole fcIllegal]
      else .go (s.sendTok (s.sync c t kind f)) (s.next c t)) s

/-- SIG: a signal token with release order (R131, 01 R36). -/
def execSig (c : Fin 800) (t : Fin 16) (f : Fields) (s : State) : Out :=
  issue c t 5 0x00 f { a := some .s, b := some .s, imm := 255 } false []
    (fun s =>
      if s.destBad c t f then .fault [whole fcIllegal]
      else if s.storesOut c t then .wait s (.release (s.sync c t 1 f))
      else .go (s.sendTok (s.sync c t 1 f)) (s.next c t)) s

/-- CRET: a credit-return token (R131). -/
def execCret (c : Fin 800) (t : Fin 16) (f : Fields) (s : State) : Out := sender 0x01 0 c t f s

/-- BARV: a barrier-arrive token (R131). -/
def execBarv (c : Fin 800) (t : Fin 16) (f : Fields) (s : State) : Out := sender 0x03 2 c t f s

/-- WAITC (R131 to R134). -/
def execWaitc (c : Fin 800) (t : Fin 16) (f : Fields) (s : State) : Out :=
  issue c t 5 0x02 f { dst := some .s, a := some .s, imm := 63 } false []
    (fun s =>
      let ch := bits f.imm.toNat 0 6
      let need := bits (s.sreg c t f.srca.toNat).toNat 0 24
      let n := s.counter c ch
      if !s.chOpen c ch then .fault [whole fcToken]
      else if (s.counterQueue c ch).isEmpty && decide (need ≤ n) then
        .go ((s.setCounter c ch (n - need)).setS c t f.dst.toNat (BitVec.ofNat 64 (n - need))) (s.next c t)
      else
        .wait { s with core := { s.core with counterWait := s.core.counterWait ++ [threadKey c t] } }
          (.counter ch need f.dst.toNat)) s

/-- BWAIT (R131, R134). -/
def execBwait (c : Fin 800) (t : Fin 16) (f : Fields) (s : State) : Out :=
  issue c t 5 0x04 f { a := some .s, imm := 63 } false []
    (fun s =>
      let ch := bits f.imm.toNat 0 6
      let n := bits (s.sreg c t f.srca.toNat).toNat 0 24
      if !s.chOpen c ch then .fault [whole fcToken]
      else if s.genDone c ch n then .go s (s.next c t)
      else .wait s (.barrier ch n)) s

/-- FENCE (R131). -/
def execFence (c : Fin 800) (t : Fin 16) (f : Fields) (s : State) : Out :=
  issue c t 5 0x05 f {} false []
    (fun s => if s.storesOut c t then .wait s .fence else .go s (s.next c t)) s

/-! ### Tokens that arrive -/

/-- A token of a kind that may arrive now leaves the towpath and has its effect.  A token of the hub that names no unit, or has a
reserved KIND, is discarded at its first stop (01 R38). -/
def arrive (kind : Nat) (tok : Word) (g : State → State) (s : State) : Out :=
  if s.dieUp && tokBad tok && tokSrcNode tok == 56 then .next (s.discardTok tok)
  else if s.dieUp && tokKind tok == kind && !tokBad tok && s.tokFirst tok then .next (g (s.takeTok tok)) else .next s

/-- TOKEN_CREDIT_RETURN (01 R35, R37, 09 R330). -/
def execTokenCreditReturn (tok : Word) (s : State) : Out :=
  arrive 0 tok (fun s =>
    match tokCore tok with
    | some c => if s.tokFits c tok then (s.addToken c tok).feederCredit c tok else s.addToken c tok
    | none => s.addUnit tok) s

/-- Whether a signal token is a doorbell of a port engine group (12 R412). -/
def tokDoorbell (tok : Word) : Bool :=
  decide (48 ≤ tokDstNode tok) && decide (tokDstNode tok < 56) && tokDstSub tok == 0
    && (tokChannel tok == 1 || tokChannel tok == 2)

/-- TOKEN_SIGNAL (01 R35, R37); a doorbell stays on the towpath for the row that takes it (12 R412). -/
def execTokenSignal (tok : Word) (s : State) : Out :=
  if tokDoorbell tok then .next s
  else
    arrive 1 tok (fun s =>
      match tokCore tok with
      | some c => s.addToken c tok
      | none => s.addUnit tok) s

/-- A barrier token received by a unit (01 R32). -/
def State.gotBarrier (s : State) (tok : Word) : State := { s with e := { s.e with arrivals := s.e.arrivals ++ [tok] } }

/-- BARRIER_ARRIVE: the destination unit receives it (01 R32); at a core a CHANNEL of 64 to 255 names no counter (R37). -/
def execBarrierArrive (tok : Word) (s : State) : Out :=
  arrive 2 tok (fun s =>
    match tokCore tok with
    | some c => if 64 ≤ tokChannel tok then s.tokOverflow c tok else s.gotBarrier tok
    | none => s.gotBarrier tok) s

/-- BARRIER_RELEASE: the generation is kept, the threads it satisfies go on (R134, 20 R652). -/
def execBarrierRelease (tok : Word) (s : State) : Out :=
  arrive 3 tok (fun s =>
    match tokCore tok with
    | none => s.gotBarrier tok
    | some c =>
      let ch := tokChannel tok
      if s.chOpen c ch then
        let s := s.setFld (CL_TOK_CNT_GEN (clusterOf c) (subOf c) ch) (tokValue tok)
        (s.setFld (CL_TOK_CNT_GEN_VALID (clusterOf c) (subOf c) ch) 1).serveBarrier c ch
      else s.tokOverflow c tok) s

/-- READ_REPLY: the answer to a control read reaches the unit that asked (01 R32). -/
def execReadReply (tok : Word) (s : State) : Out :=
  arrive 6 tok (fun s => { s with core := { s.core with replies := s.core.replies ++ [tok] } }) s

/-- FAULT_RECORD_NOTICE: the hub files a TASK_FAULT report of the record that the notice announces; the notices of a core come in the
order of its records (01 R34, 18 R585). -/
def execFaultRecordNotice (tok : Word) (s : State) : Out :=
  arrive 7 tok (fun s =>
    let core := tokValue tok % 1024
    match s.e.notices.find? (fun n => n.1 == core) with
    | none => s
    | some (_, i, code) =>
      let s := { s with e := { s.e with notices := dropFirst (fun n => n.1 == core) s.e.notices } }
      s.file 0x0001 clsTask 1 core (i + code * 2 ^ 16) (s.corePart core)) s

/-! ### Halting, channels, arbiters -/

/-- HALT takes effect between instructions (R122, R39, 20 R651). -/
def execTaskHalt (c : Fin 800) (s : State) : Out :=
  let s := s.asked
  if s.standing then .next (s.holdReq (.taskHalt c)) else unlessStopped s (.next (s.haltCore c))

/-- A write of CL_TOK_LIMIT (20 R652). -/
def State.openChannel (s : State) (core ch v : Nat) : State :=
  let c := clusterOf core
  let k := subOf core
  let s := (s.setFld (CL_TOK_LIMIT_LIMIT c k ch) (bits v 0 24)).setFld (CL_TOK_LIMIT_OPEN c k ch) (bits v 24 1)
  ((s.setFld (CL_TOK_CNT_COUNT c k ch) 0).setFld (CL_TOK_CNT_GEN c k ch) 0).setFld (CL_TOK_CNT_GEN_VALID c k ch) 0

/-- ARB_COMMIT: the shadows come into force at the start of the next round (08 R290). -/
def execArbCommit (inst : Fin 1824) (s : State) : Out :=
  let s := s.asked
  if s.standing then .next (s.holdReq (.arbCommit inst))
  else unlessStopped s (
    .next { s with m := { s.m with commitP := s.m.commitP.filter (· != inst.val) ++ [inst.val] } })

end Sys2Proof.Machine
end

