-- ==== Sys2Proof/Machine/Matrix.lean ====
section
/-! DEFINITION. Class 2 and the matrix engine: issue of MXM and MLDP with its checks and waits, rows taken from streams,
planes, accumulator tiles, barges, faults after issue (04 R141 to R178), the takes of barges (05 R202 to R206), and the
launch of a task (03 R118, R119). -/

namespace Sys2Proof.Machine

/-! ### Planes -/

def State.plane (s : State) (mc p : Nat) : Plane := Tab.get s.mx.planes .empty (2 * mc + p)
def State.setPlane (s : State) (mc p : Nat) (v : Plane) : State :=
  { s with mx := { s.mx with planes := Tab.put s.mx.planes .empty (2 * mc + p) v } }

def State.mxmsOf (s : State) (mc : Nat) : List Mxm := s.mx.mxms.filter (fun x => x.mc == mc)
def State.mldpsOf (s : State) (mc : Nat) : List Mldp := s.mx.mldps.filter (fun x => x.mc == mc)

def State.updMxm (s : State) (x : Mxm) : State :=
  { s with mx := { s.mx with mxms := s.mx.mxms.map (fun y => if y.id == x.id then x else y) } }
def State.updMldp (s : State) (x : Mldp) : State :=
  { s with mx := { s.mx with mldps := s.mx.mldps.map (fun y => if y.id == x.id then x else y) } }
/-- An MXM of a core leaves the engine; streams of earlier tasks that no operation takes rows from any more are forgotten. -/
def State.dropMxm (s : State) (mc id : Nat) : State :=
  let s := { s with mx := { s.mx with mxms := s.mx.mxms.filter (fun y => y.id != id) } }
  let idle (k : Nat) : Bool := 12800 ≤ k && k / 16 % 800 == mc && !(s.mxmsOf mc).any (fun x => x.streams.contains (k - 16 * mc))
  { s with core := { s.core with streams := Tab.drop s.core.streams idle } }
def State.dropMldp (s : State) (id : Nat) : State :=
  { s with mx := { s.mx with mldps := s.mx.mldps.filter (fun y => y.id != id) } }

/-- Whether an MXM reads a plane's operand. -/
def Mxm.readsPlane (x : Mxm) (p : Nat) : Bool := mxSmode x.word != 2 && mxPlane x.word == p

/-- The number of stream rows an MXM has yet to take. -/
def Mxm.rowsLeft (x : Mxm) : Nat :=
  let a := match x.srcA with
    | .stream _ => 256 - x.rowsA.length
    | _ => 0
  let b := match x.srcB with
    | .stream _ => 256 - x.rowsB.length
    | _ => 0
  a + b

/-- Whether the last stream row of an MXM has entered the array. -/
def Mxm.entered (x : Mxm) : Bool := x.started && x.rowsLeft == 0

/-- The type and K that an MXM issued now would find in a plane: those of the last load issued for it (R143). -/
def State.planeView (s : State) (mc p : Nat) : Option (Ty × Nat) :=
  match ((s.mldpsOf mc).filter (fun l => l.plane == p)).getLast? with
  | some l => some (l.ty, l.k)
  | none =>
    match s.plane mc p with
    | .full o => some (o.ty, o.k)
    | .loading ty k => some (ty, k)
    | _ => none

/-- Whether a plane holds OS totals. -/
def State.planeTotals (s : State) (mc p : Nat) : Bool :=
  match s.plane mc p with
  | .totals _ => true
  | _ => false

/-- Whether a plane is free for a load issued as number `id` (R148). -/
def State.planeFree (s : State) (mc p id : Nat) : Bool :=
  !s.planeTotals mc p && (s.mxmsOf mc).all (fun x => !(x.readsPlane p && decide (x.id < id) && !x.entered))

/-! ### Rows out of streams (R153, R155, 09 R331 to R334) -/

/-- The failures of a chunk's elements, the lowest element first (03 R138). -/
def insFault (x : EFault) : List EFault → List EFault
  | [] => [x]
  | y :: r => if x.elem < y.elem ∨ (x.elem = y.elem ∧ x.code ≤ y.code) then x :: y :: r else y :: insFault x r

def byElement (l : List EFault) : List EFault := l.foldr insFault []

/-- A row of a stream of KIND 0, 2 or 6, if its chunks have landed: elements, failed elements. -/
def Stream.plainRow (st : Stream) (k r : Nat) : Option (List OpEl × List EFault) :=
  let cnt := st.ty.count
  let lo := r * k
  if st.count ≤ lo then some (List.replicate k none, [])
  else
    let need := (List.range k).map (fun i => (lo + i) / cnt) |>.eraseDups
    let have_ := need.filterMap (fun n => st.landed.find? (fun ch => ch.n == n))
    let short := need.filter (fun n => decide (n * cnt < st.count))
    if have_.length < short.length then none
    else
      let el (i : Nat) : OpEl :=
        let e := lo + i
        match st.at? e, have_.find? (fun ch => ch.n == e / cnt) with
        | some _, some ch => some (elemOf st.ty ch.bits (e % cnt),
            if st.scaled then (ch.scales[e % cnt / 32]?).getD 127 else 127)
        | _, _ => none
      let bad := have_.flatMap (fun ch => byElement (ch.bad.filter (fun b =>
        decide (lo ≤ ch.n * cnt + b.elem) && decide (ch.n * cnt + b.elem < lo + k))))
      some ((List.range k).map el, bad)

/-- A row of a stream of KIND 4 or 5, if it has been supplied; the failure of its group is one fault (assumption 147). -/
def Stream.fedRow (st : Stream) (r : Nat) : Option (List OpEl × List EFault) :=
  if st.nrows ≤ r then some (List.replicate 256 none, [])
  else
    match st.fed.find? (fun x => x.row == r) with
    | none => none
    | some x =>
      let n := leNat x.bytes
      some ((List.range 256).map (fun i => some (bits n (i * st.ty.bits) st.ty.bits, 127)),
        if x.bad = 0 then [] else [⟨0, x.bad, 0⟩])

def Stream.row? (st : Stream) (k r : Nat) : Option (List OpEl × List EFault) :=
  if st.kind = 4 ∨ st.kind = 5 then st.fedRow r else st.plainRow k r

/-- The stream after row `rowsTaken` has entered the array: chunks wholly consumed give their credits back (R127). -/
def Stream.consumeRow (st : Stream) (k : Nat) : Stream :=
  let r := st.rowsTaken
  if st.kind = 4 ∨ st.kind = 5 then
    if st.nrows ≤ r then { st with rowsTaken := r + 1 }
    else { st with
      rowsTaken := r + 1, fed := st.fed.filter (fun x => x.row != r), consumed := st.consumed + st.rowChunks
      unreturned := st.unreturned + st.rowChunks
      credits := if st.kind = 5 then st.credits + st.rowChunks else st.credits }
  else
    let done := (r + 1) * k / st.ty.count
    let gone := st.landed.filter (fun ch => decide (ch.n < done))
    { st with rowsTaken := r + 1, landed := st.landed.filter (fun ch => !decide (ch.n < done))
              consumed := max st.consumed (min done st.chunks), credits := st.credits + gone.length }

/-- The flags of a KIND 5 group, delivered when its last row is consumed (09 R334). -/
def Stream.groupFlags (st : Stream) : Flags :=
  ((st.gflags.filter (fun g => g.1 == st.rowsTaken)).map Prod.snd).foldl (· ||| ·) 0

/-- Up to `n` rows taken from a stream: rows, the failures met. -/
def State.takeRows (s : State) (mc q k : Nat) : Nat → List (List OpEl) × List EFault × State
  | 0 => ([], [], s)
  | n + 1 =>
    let st := s.stream mc q
    match st.row? k st.rowsTaken with
    | none => ([], [], s)
    | some (row, bad) =>
      let s := (s.setStream mc q (st.consumeRow k)).orFlags mc 0 st.groupFlags
      let (rows, more, s) := s.takeRows mc q k n
      (row :: rows, bad ++ more, s)

/-- What an element failure becomes in the record (R155, R176). -/
def EFault.info (b : EFault) : FInfo := ⟨fcStream, b.code, none, b.addr⟩

/-- Whether an operation may take rows of a stream: none before it still waits for rows of it (R153). -/
def State.firstInLine (s : State) (mc q id : Nat) : Bool :=
  !(s.mxmsOf mc).any (fun y => decide (y.id < id) && y.streams.contains q) &&
  !(s.mldpsOf mc).any (fun y => decide (y.id < id) && y.streams.contains q)

/-- The stream that a source names, when it is one. -/
def Src.q? : Src → Option Nat
  | .stream q => Option.some q
  | _ => Option.none

/-- Rows taken by one source of an operation. -/
def State.feedSrc (s : State) (mc id k : Nat) (src : Src) (rows : List (List OpEl)) :
    List (List OpEl) × List EFault × State :=
  match src.q? with
  | none => (rows, [], s)
  | some q =>
    if s.firstInLine mc q id then
      let (new, bad, s) := s.takeRows mc q k (256 - rows.length)
      (rows ++ new, bad, s)
    else (rows, [], s)

/-- The first failure of an operation, after more elements have failed, and how many have failed beside it (03 R138). -/
def firstBad (old : Option FInfo) (bs : List EFault) : Option FInfo := old.orElse (fun _ => bs.head?.map EFault.info)
def moreBad (old : Option FInfo) (extra : Nat) (bs : List EFault) : Nat := extra + (bs.length - (if old.isNone then 1 else 0))

def State.feedMxm (s : State) (id : Nat) : State :=
  match s.mx.mxms.find? (fun x => x.id == id) with
  | none => s
  | some x =>
    if !x.started then s
    else
      let (ra, ba, s) := s.feedSrc x.mc x.id x.k x.srcA x.rowsA
      let (rb, bb, s) := s.feedSrc x.mc x.id x.k x.srcB x.rowsB
      s.updMxm { x with rowsA := ra, rowsB := rb, bad := firstBad x.bad (ba ++ bb), extra := moreBad x.bad x.extra (ba ++ bb) }

def State.feedMldp (s : State) (id : Nat) : State :=
  match s.mx.mldps.find? (fun x => x.id == id) with
  | none => s
  | some x =>
    if !x.started then s
    else
      let (r, b, s) := s.feedSrc x.mc x.id x.k x.src x.rows
      s.updMldp { x with rows := r, bad := firstBad x.bad b, extra := moreBad x.bad x.extra b }

/-- Rows that have become available enter the array, in the order in which the operations were issued. -/
def State.feedEngine (s : State) (mc : Nat) : State :=
  let ids := sortNat ((s.mxmsOf mc).map Mxm.id ++ (s.mldpsOf mc).map Mldp.id)
  ids.foldl (fun s id => (s.feedMxm id).feedMldp id) s

/-! ### Plane loads -/

/-- Whether every operation issued before number `id` has left the engine's queue (R174). -/
def State.queueAhead (s : State) (mc id : Nat) : Bool :=
  (s.mxmsOf mc).any (fun x => decide (x.id < id) && !x.started)

/-- The oldest load starts when every earlier MXM has started and its plane is free; one load runs at a time (R147, R148,
R174, R175). -/
def State.kickMldp (s : State) (mc : Nat) : State :=
  match (s.mldpsOf mc).head? with
  | none => s
  | some l =>
    if l.started || s.queueAhead mc l.id || !s.planeFree mc l.plane l.id then s
    else
      let s := s.setPlane mc l.plane (.loading l.ty l.k)
      match l.src with
      | .tile h hd =>
        match s.tileRows mc (BitVec.ofNat 64 h) l.k hd with
        | some rows => s.updMldp { l with started := true, rows := rows }
        | none => s.updMldp { l with started := true, bad := some (wholeAt fcHandle (thOffset (BitVec.ofNat 64 h))) }
      | _ => (s.updMldp { l with started := true }).feedEngine mc

/-- What a register field names as a source of rows. -/
def State.srcOf (s : State) (core r : Nat) (isStream : Bool) : Src :=
  if isStream then .stream r else .tile (s.handle core r).toNat (s.headered core r)

/-- The element type of a source. -/
def State.srcTy (s : State) (core r : Nat) (isStream : Bool) : Option Ty :=
  if isStream then Ty.ofCode (s.stream core r).tyCode else Ty.ofCode (thTypeCode (s.handle core r))

/-- Whether a stream breaks R152 for an instruction of `k` elements a row.  A KIND 6 stream laid out for another K, on which
the spec is silent, is refused too (assumption 134). -/
def State.streamBad (s : State) (core q k : Nat) : Bool :=
  let st := s.stream core q
  !st.isOpen || st.closing || st.kind == 1 || st.kind == 3 || ((st.kind == 0 || st.kind == 2) && st.ext 0 != k)
    || ((st.kind == 4 || st.kind == 5) && k != 256)
    || (st.kind == 6 && st.k != 0 && st.k != k) || (st.ty.alwaysScaled && !st.scaled)

/-- Faults of a source for `k` elements a row. -/
def State.srcFaults (s : State) (core r k : Nat) (isStream : Bool) : List FInfo :=
  if isStream then (if s.streamBad core r k then [whole fcStream] else [])
  else if !s.handleOk core r || operandBad core (s.handle core r) k (s.headered core r) then [whole fcHandle] else []

/-- K of a load (R152).  A KIND 6 stream has no EXT0: its FP4 rows count as more than 256 elements exactly when KH × KW × C
exceeds 256 (assumption 134). -/
def State.loadK (s : State) (core r : Nat) (isStream : Bool) : Nat :=
  if s.srcTy core r isStream != some .e2m1 then 256
  else if isStream then
    let st := s.stream core r
    if st.kind = 6 then (if 256 < st.cvKsize then 512 else 256) else if st.ext 0 = 512 then 512 else 256
  else if 256 < thElems (s.handle core r) then 512 else 256

/-- A KIND 6 stream's rows are laid out for K once an instruction names it (R157). -/
def State.fixK (s : State) (core r k : Nat) (isStream : Bool) : State :=
  if isStream then
    let st := s.stream core r
    if st.kind = 6 ∧ st.k = 0 then s.setStream core r { st with k := k } else s
  else s

/-- MLDP: a plane load (R147, R148, R152).  A stream whose TYPE is no operand type of R142 raises STREAM, for which the rule
gives no code (assumption 134). -/
def execMldp (c : Fin 800) (t : Fin 16) (f : Fields) (s : State) : Out :=
  let isQ := modBit f 17
  issue c t 2 0x01 f { a := some (if isQ then .q else .t), mod := 3 } (!isMatrix c) []
    (fun s =>
      let r := f.srca.toNat
      let k := s.loadK c r isQ
      let tyFault := match s.srcTy c r isQ with
        | some ty => if operandTy ty then [] else [whole (if isQ then fcStream else fcHandle)]
        | none => [whole (if isQ then fcStream else fcHandle)]
      match (if isQ && !(s.stream c r).isOpen then [] else tyFault) ++ s.srcFaults c r k isQ with
      | fault :: fs => .fault (fault :: fs)
      | [] =>
        let s := s.fixK c r k isQ
        let l : Mldp :=
          { id := s.m.nextId, mc := c, word := instrWord 2 1 f, pc := s.pc c t, plane := if modBit f 16 then 1 else 0
            ty := (s.srcTy c r isQ).getD .bf16, k := k, src := s.srcOf c r isQ, started := false, rows := [], bad := none, extra := 0 }
        let s := { s with m := { s.m with nextId := s.m.nextId + 1 }, mx := { s.mx with mldps := s.mx.mldps ++ [l] } }
        .go (s.kickMldp c) (s.next c t)) s

/-! ### MXM at issue -/

def mxRnd (f : Fields) : Nat := bits f.imm.toNat 8 3
def mxBandCode (f : Fields) : Nat := bits f.imm.toNat 11 2
def mxMode (f : Fields) : Nat := bits f.imm.toNat 13 2
def mxNb (f : Fields) : Nat := 2 ^ mxBandCode f
def mxOpens (f : Fields) : Nat := bits f.imm.toNat 0 4
def mxClosings (f : Fields) : Nat := bits f.imm.toNat 4 4

/-- Reserved encodings that the word alone shows (R145, R146). -/
def mxWordBad (f : Fields) : Bool :=
  mxBandCode f == 3 || mxMode f == 3 || (mxBandCode f != 0 && mxMode f != 0)
    || mxOpens f / 2 ^ mxNb f != 0 || mxClosings f / 2 ^ mxNb f != 0
    || decide (31 < f.dst.toNat + mxNb f - 1) || 4 < mxRnd f
    || (mxClosings f == 0 && (mxRnd f != 0 || f.type != 0))
    || (mxClosings f != 0 && !(f.type == 0 || f.type == 14 || f.type == 1 || f.type == 2 || f.type == 11))
    || (mxMode f != 2 && modBit f 18)
    || (mxMode f == 2 && modBit f 17 && modBit f 18 && f.srca == f.srcb)

/-- The output handle of band `b`. -/
def State.outHandle (s : State) (core : Nat) (f : Fields) (b : Nat) : Word := s.handle core (f.dst.toNat + b)

/-- Granules of an output tile (R159). -/
def granules (h : Word) (bands : Nat) : List Nat :=
  let n := 256 * (256 / bands) * ((thType h).bits / 8) / 65536
  (List.range n).map (· + thOffset h / 65536)

/-- The bands of a tile, from its columns. -/
def bandsOf (h : Word) : Nat := 256 / thCols h

def Tile.granules (t : Tile) : List Nat := let h := BitVec.ofNat 64 t.handle; Machine.granules h (bandsOf h)

/-- The tiles of a core that share a granule with a handle. -/
def State.tilesAt (s : State) (core : Nat) (h : Word) (bands : Nat) : List Tile :=
  s.mx.tiles.filter (fun t => t.mc == core && t.granules.any (fun g => (granules h bands).contains g))

/-- Whether an output handle breaks R160. -/
def outBad (core : Nat) (h : Word) (bands : Nat) (isInt : Bool) : Bool :=
  thSpace h != 1 || thOwner h != subOf core || thRows h != 256 || thCols h != 256 / bands
    || !(thTypeCode h == 0 || thTypeCode h == 14 || thTypeCode h == 11) || (thXa h != (thTypeCode h == 14))
    || (isInt != (thTypeCode h == 11))

/-- The open tile of a handle. -/
def State.openTile (s : State) (core : Nat) (h : Word) : Option Tile :=
  s.mx.tiles.find? (fun t => t.mc == core && t.handle == h.toNat && t.st == .opened)

/-- Faults of band `b`'s output tile (R146, R160, R162, R163, R166, R210).  Two bands without OPEN that name the same OPEN
tile raise nothing: both add into it (assumption 133); of two bands with OPEN whose granules overlap the later raises HANDLE
(assumption 148). -/
def State.bandFaults (s : State) (core : Nat) (f : Fields) (isInt : Bool) (b : Nat) : List FInfo :=
  let h := s.outHandle core f b
  let r := f.dst.toNat + b
  let nb := mxNb f
  let closing := bit (mxClosings f) b
  let opening := bit (mxOpens f) b
  let near := s.tilesAt core h nb
  let illegal := (closing && ((thTypeCode h == 11) != (f.type == 11))) || (mxMode f == 2 && thXa h)
    || (!opening && near.any (fun t => t.st == .opened && thTypeCode (BitVec.ofNat 64 t.handle) != thTypeCode h))
  let earlier := (List.range b).any (fun b' => bit (mxOpens f) b' &&
    (granules (s.outHandle core f b') nb).any (fun g => (granules h nb).contains g))
  let handle := outBad core h nb isInt || s.mx.staleRegs.contains (32 * core + r) || s.headered core r
    || (opening && (earlier || near.any (fun t => t.st == .opened)))
    || (!opening && match s.openTile core h with
      | none => true
      | some t => if mxMode f = 2 then t.osPlane != some (if modBit f 16 then 1 else 0) else t.osPlane.isSome)
  (if illegal then [whole fcIllegal] else []) ++ (if handle then [whole fcHandle] else [])

/-- The type and K of the second operand: a plane, or SRCB in OS mode. -/
def State.otherTy (s : State) (core : Nat) (f : Fields) : Option Ty :=
  if mxMode f = 2 then s.srcTy core f.srcb.toNat (modBit f 18)
  else (s.planeView core (if modBit f 16 then 1 else 0)).map Prod.fst

/-- Everything that refuses an MXM at issue (R137: precise).  A stream register that is not open counts as one of FP32, no
operand type, so beside STREAM the pair raises HANDLE where the other operand is a tile or a plane (assumption 134). -/
def State.mxFaults (s : State) (core : Nat) (f : Fields) : List FInfo :=
  let p := if modBit f 16 then 1 else 0
  let os := mxMode f == 2
  let qa := modBit f 17
  let qb := modBit f 18
  let ta := s.srcTy core f.srca.toNat qa
  let tb := s.otherTy core f
  let k := match ta, tb with
    | some a, some b => kOf a b
    | _, _ => 256
  let both := qa && os && qb
  let pair := if !os && (s.planeView core p).isNone then [] else match ta, tb with
    | some a, some b => if combines a b then [] else [whole (if both then fcStream else fcHandle)]
    | _, _ => [whole (if both then fcStream else fcHandle)]
  let planeF := if os then
      (if bit (mxOpens f) 0 && s.planeTotals core p then [whole fcHandle] else [])
    else match s.planeView core p with
      | none => [whole fcHandle]
      | some (_, k') => if k' == k then [] else [whole fcHandle]
  let isInt := ta.any int8Ty
  pair ++ planeF ++ s.srcFaults core f.srca.toNat k qa
    ++ (if os then s.srcFaults core f.srcb.toNat k qb else [])
    ++ (List.range (mxNb f)).flatMap (s.bandFaults core f isInt)

/-- Whether an MXM waits at issue for granules of a tile that it opens (R162), for barge credits (R170). -/
def State.waitsGranules (s : State) (core : Nat) (f : Fields) : Bool :=
  (List.range (mxNb f)).any (fun b => bit (mxOpens f) b && !(s.tilesAt core (s.outHandle core f b) (mxNb f)).isEmpty)
def State.waitsCredits (s : State) (core : Nat) (f : Fields) : Bool :=
  decide (16 < s.creditsHeld core + mxCloses (instrWord 2 0 f))

/-- Whether an MXM without faults must wait at issue (R143, R162, R170, R174). -/
def State.mxWaits (s : State) (core : Nat) (f : Fields) : Bool :=
  let p := if modBit f 16 then 1 else 0
  s.waitsGranules core f || s.waitsCredits core f
    || decide (2 ≤ ((s.mxmsOf core).filter (fun x => !x.started)).length)
    || (mxMode f == 2 && bit (mxOpens f) 0
      && (!s.planeFree core p s.m.nextId || (s.mldpsOf core).any (fun l => l.plane == p)))

/-- The layer of a bound mask, whether it runs dense, and the audit of this MXM (06 R228 to R230). -/
def State.predict (s : State) (core : Nat) (f : Fields) : Option MWord × Option Nat × State :=
  let m := f.mask.toNat
  let cl := clusterOf core
  let k := subOf core
  if m = 0 then (none, none, s)
  else if !s.on (MC_MASK_LAYER_BOUND cl k m) then (some (s.mreg core 0 m), none, s)
  else
    let layer := s.fld (MC_MASK_LAYER_LAYER cl k m)
    match s.corePart core with
    | none => (some (s.mreg core 0 m), none, s)
    | some p =>
      let n := Tab.get s.core.predN 0 (64 * core + layer)
      let s := { s with core := { s.core with predN := Tab.put s.core.predN 0 (64 * core + layer) (n + 1) } }
      if s.on (STEP_PRED_CFG_DENSE p layer) then (none, none, s)
      else
        let r := s.fld (STEP_PRED_CFG_AUDIT_LOG2 p layer)
        let phase := keyedDraw (s.fld (CL_JOB_SEED_SEED cl)) (s.taskStep core)
          (auditCtr (s.taskSlot core) layer (s.taskId core)) % 2 ^ r
        (some (s.mreg core 0 m), if r != 15 && (n + phase) % 2 ^ r == 0 then some layer else none, s)

/-- A band's tile opened or closed by an MXM that issues (R161). -/
def State.claimBand (s : State) (core : Nat) (f : Fields) (b : Nat) : State :=
  let h := s.outHandle core f b
  let p := if modBit f 16 then 1 else 0
  let s := if bit (mxOpens f) b then
      let t : Tile :=
        { mc := core, handle := h.toNat, st := .opened, count := 0, osPlane := if mxMode f = 2 then some p else none
          fl := 0, cause := 0, firstAt := none, zti := 0, infSub := 0, ovf := 0, unf := 0, masked := false
          barge := [], taker := 0 }
      let s := { s with mx := { s.mx with tiles := s.mx.tiles ++ [t] } }
      if mxMode f = 2 then s.setPlane core p (.totals []) else s
    else s
  if bit (mxClosings f) b then
    { s with mx := { s.mx with tiles := s.mx.tiles.map (fun t =>
        if t.mc == core && t.handle == h.toNat && t.st == .opened then { t with st := .closed } else t) } }
  else s

/-- MXM: a block product (R145, R146). -/
def execMxm (c : Fin 800) (t : Fin 16) (f : Fields) (s : State) : Out :=
  let file (q : Bool) : Option RFile := some (if q then .q else .t)
  issue c t 2 0x00 f
    { dst := some .t, a := file (modBit f 17), b := if mxMode f = 2 then file (modBit f 18) else none, mask := true
      ty := true, mod := 7, imm := 0x7FFF }
    (!isMatrix c || mxWordBad f) []
    (fun s =>
      match s.mxFaults c f with
      | fault :: fs => .fault (fault :: fs)
      | [] =>
        if s.mxWaits c f then .stay s
        else
          let os := mxMode f == 2
          let ta := (s.srcTy c f.srca.toNat (modBit f 17)).getD .bf16
          let tb := (s.otherTy c f).getD .bf16
          let k := kOf ta tb
          let (mask, audit, s) := s.predict c f
          let s := (List.range (mxNb f)).foldl (fun s b => s.claimBand c f b) s
          let s := s.fixK c f.srca.toNat k (modBit f 17)
          let s := if os then s.fixK c f.srcb.toNat k (modBit f 18) else s
          let x : Mxm :=
            { id := s.m.nextId, mc := c, word := instrWord 2 0 f, pc := s.pc c t
              launch := s.launchNo c, task := s.taskId c, step := s.taskStep c, vslot := s.taskSlot c, k := k, tyA := ta, tyB := tb
              srcA := s.srcOf c f.srca.toNat (modBit f 17)
              srcB := if os then s.srcOf c f.srcb.toNat (modBit f 18) else .none
              mask := mask, audit := audit
              handles := (List.range (mxNb f)).map (fun b => (s.outHandle c f b).toNat)
              started := false, rowsA := [], rowsB := [], plane := none, bad := none, extra := 0, computed := false, toPost := [] }
          let s := s.addCredits c (Int.ofNat (mxCloses x.word))
          .go { s with m := { s.m with nextId := s.m.nextId + 1 }, mx := { s.mx with mxms := s.mx.mxms ++ [x] } }
            (s.next c t)) s

/-! ### The array -/

/-- Whether a source has its first row at hand. -/
def State.srcReady (s : State) (mc id k : Nat) (src : Src) : Bool :=
  match src with
  | .stream q => s.firstInLine mc q id && ((s.stream mc q).row? k (s.stream mc q).rowsTaken).isSome
  | _ => true

/-- The rows of a tile source, or the fault of a malformed one. -/
def State.capture1 (s : State) (mc k : Nat) (src : Src) : List (List OpEl) × Option FInfo :=
  match src with
  | .tile h hd =>
    match s.tileRows mc (BitVec.ofNat 64 h) k hd with
    | some rows => (rows, none)
    | none => ([], some (wholeAt fcHandle (thOffset (BitVec.ofNat 64 h))))
  | _ => ([], none)

/-- Whether an MXM's plane is ready for it. -/
def State.planeReady (s : State) (x : Mxm) : Bool :=
  mxSmode x.word == 2 ||
    (!(s.mldpsOf x.mc).any (fun l => l.plane == mxPlane x.word && decide (l.id < x.id)) &&
      match s.plane x.mc (mxPlane x.word) with
      | .full _ => true
      | _ => false)

/-- MXM_START: the oldest MXM not started starts once its plane and operands are ready and the one before it has taken
its last row (R173, R174, 01 R40). -/
def State.mxmStart (s : State) (mc : Nat) : State :=
  match (s.mxmsOf mc).find? (fun x => !x.started) with
  | none => s
  | some x =>
    if !((s.mxmsOf mc).filter (fun y => decide (y.id < x.id))).all Mxm.entered then s
    else if !s.planeReady x || !s.srcReady mc x.id x.k x.srcA || !s.srcReady mc x.id x.k x.srcB then s
    else
      let (ra, ba) := s.capture1 mc x.k x.srcA
      let (rb, bb) := s.capture1 mc x.k x.srcB
      let pl := match s.plane mc (mxPlane x.word) with
        | .full o => if mxSmode x.word == 2 then none else some o
        | _ => none
      -- two malformed tiles are two faults (03 R138)
      ((s.updMxm { x with started := true, rowsA := ra, rowsB := rb, plane := pl, bad := ba.orElse (fun _ => bb)
                          extra := x.extra + b2n (ba.isSome && bb.isSome) }).feedEngine mc).kickMldp mc

def execMxmStart (c : Fin 800) (s : State) : Out :=
  unlessStopped s (.next (s.mxmStart c))

/-- The old totals of a tile, from accumulator memory or from its plane (R143). -/
def State.oldTotals (s : State) (t : Tile) (w : Nat) (i j : Nat) : Nat :=
  let h := BitVec.ofNat 64 t.handle
  let size := (thType h).bits / 8
  match t.osPlane with
  | none => s.rd (keyAcc t.mc (thOffset h + (i * w + j) * size)) size
  | some p =>
    match s.plane t.mc p with
    | .totals rows => (((rows[i]?).getD [])[j]?).getD 0
    | _ => 0

/-- Elements written to accumulator memory in rows; nothing is written beyond its end. -/
def State.writeAcc (s : State) (mc off size : Nat) (rows : List (List Nat)) : State :=
  let b := (rows.flatMap id).flatMap (leBytes size)
  s.wrB (keyAcc mc off) (b.take (accBytes - off))

/-- The draw of the element at row `i`, column `j` of a closing band of `w` columns under stochastic rounding: the keyed draw
of 02 R69 for the task that issued the MXM.  The MXM names neither the tensor nor the element's index in it: they are
free, by task, pc and place among the array's 256 output columns (assumption 23), so that a draw depends on nothing that
has been drawn before (02 R70, R77). -/
def State.arrayDraw (s : State) (x : Mxm) (b w i j : Nat) : Nat :=
  keyedDraw (s.fld (CL_JOB_SEED_SEED (clusterOf x.mc))) x.step
    (roundingCtr x.vslot (Config.arrayTensor x.task x.pc) (Config.arrayElement x.task x.pc i (b * w + j))) % 65536

/-- One band of an MXM computed (R165 to R169).  The XA output of an FP32 total takes twice the bytes of its tile, and is written
over what stands behind it, whatever tile is there (assumption 39). -/
def State.computeBand (s : State) (x : Mxm) (b : Nat) : State :=
  match x.handles[b]? with
  | none => s
  | some h =>
    match s.mx.tiles.find? (fun t => t.mc == x.mc && t.handle == h && (t.st == .opened || t.st == .closed)) with
    | none => s
    | some t =>
      let w := 256 / mxBands x.word
      let hw := BitVec.ofNat 64 h
      let f := wordFields x.word
      let (rows, t') := x.computeTile t b w (s.oldTotals t w)
      let size := (thType hw).bits / 8
      let closing := mxClose x.word b
      let out := (Ty.ofCode f.type.toNat).getD .fp32
      let rnd := (Rnd.ofCode (mxRnd f)).getD .rne
      let (rows', t'') := if closing then t'.convert out rnd w (s.arrayDraw x b w) rows else (rows, t')
      let s := { s with mx := { s.mx with tiles := s.mx.tiles.map (fun y => if y == t then t'' else y) } }
      match t.osPlane with
      | none => s.writeAcc x.mc (thOffset hw) (if closing then out.bits / 8 else size) rows'
      | some p =>
        if closing then (s.writeAcc x.mc (thOffset hw) (out.bits / 8) rows').setPlane x.mc p .empty
        else s.setPlane x.mc p (.totals rows')

/-- The audit counts of an MXM (06 R231, R232). -/
def State.auditMxm (s : State) (x : Mxm) : State :=
  match x.audit, s.corePart x.mc with
  | some layer, some p =>
    let (n, m) := x.audits (s.fld (STEP_PRED_CFG_THRESH p layer))
    (s.bump (STEP_PRED_MISS_PRED_AUD p layer) n).bump (STEP_PRED_MISS_PRED_MISS p layer) m
  | _, _ => s

/-- An MXM whose rows have all entered computed, once. -/
def State.computeMxm (s : State) (x : Mxm) : State :=
  if x.computed then s
  else
    let s := (List.range (mxBands x.word)).foldl (fun s b => s.computeBand x b) (s.auditMxm x)
    s.updMxm { x with computed := true, toPost := (List.range (mxBands x.word)).filter (fun b => mxClose x.word b) }

/-- The MXMs from the oldest on computed up to and including `id`; false where one of them cannot be yet. -/
def State.computeTo (s : State) (id : Nat) : List Mxm → Bool × State
  | [] => (true, s)
  | x :: r =>
    if id < x.id then (true, s)
    else if !x.entered || x.bad.isSome then (false, s)
    else (s.computeMxm x).computeTo id r

/-- MXM_FINISH: an MXM without CLOSE writes its last promotion and is finished (R173). -/
def State.mxmFinish (s : State) (mc : Nat) : State :=
  match (s.mxmsOf mc).find? (fun x => mxCloses x.word == 0) with
  | none => s
  | some x =>
    match s.computeTo x.id (s.mxmsOf mc) with
    | (true, s) => (s.dropMxm mc x.id).settle mc
    | (false, _) => s

def execMxmFinish (c : Fin 800) (s : State) : Out :=
  unlessStopped s (.next (s.mxmFinish c))

/-! ### Tasks (R118, R119, R122) -/

/-- Reserved encodings of a task descriptor in the window (R118, R119). -/
def State.windowBad (s : State) (core : Nat) : Bool :=
  let w := s.windowF core 0 4
  let d := s.windowF core 8 4
  bits w 13 3 != 0 || bits w 19 13 != 0 || decide (4 < bits w 16 3) || (isMatrix core && bits w 16 3 != 0)
    || bits d 13 3 != 0 || bits d 24 8 != 0 || s.windowF core 0x0C 4 != 0
    || (List.range 8).any (fun i => s.windowF core (0x5E + 16 * i) 2 != 0 || bits (s.windowF core (0x60 + 16 * i) 8) 49 15 != 0)

/-- Whether a started MXM completes after a launch (04 R177): its rows have all entered the array, or come from streams that go on
for it.  The rows of a stream of KIND 4 or 5 are discarded once the launch has closed it (R119, 09 R331), so that an MXM that
still needs them never gets them and goes (assumption 72). -/
def State.outlives (s : State) (x : Mxm) : Bool :=
  x.computed || (x.started && x.bad.isNone && x.streams.all (fun q => (s.stream x.mc q).kind != 4 && (s.stream x.mc q).kind != 5))

/-- The streams that started MXMs of a core still take rows from kept for them under new numbers, with the chunks in flight. -/
def State.keepStreams (s : State) (core : Nat) : State :=
  let n := s.launchNo core + 1
  let qs := (((s.mxmsOf core).filter s.outlives).flatMap Mxm.streams).filter (· < 16)
  let move (q : Nat) : Nat := if qs.contains q then leftQ n q else q
  let src (x : Src) : Src := match x with
    | .stream q => .stream (move q)
    | x => x
  let s := qs.foldl (fun s q => s.setStream core (leftQ n q) (s.stream core q)) s
  { s with
    m := { s.m with xfers := s.m.xfers.map (fun (x : Xfer) =>
      match x.act with
      | .chunk q a b c d => if x.core == core then { x with act := .chunk (move q) a b c d } else x
      | _ => x) }
    mx := { s.mx with mxms := s.mx.mxms.map (fun x =>
      if x.mc == core && s.outlives x then { x with srcA := src x.srcA, srcB := src x.srcB } else x) } }

/-- What a launch forgets of the core's last task: its operations in flight keep their berths and give nothing; MXMs that have
started complete (04 R177), the others go with their tiles, and so do the planes, the loads and the OPEN tiles (04 R143). -/
def State.forgetTask (s : State) (core : Nat) : State :=
  let s := s.orphanFeeds core (fun _ => true)
  let s := { s with b := { s.b with cmds := s.b.cmds.map (fun (x : BCmd) =>
    if x.core == core then { x with thread := 32 } else x) } }
  let s := s.keepStreams core
  let xs := s.m.xfers.filter (fun (x : Xfer) => !(x.core == core && match x.act with
    | .feed _ _ _ _ _ _ => true
    | .chunk q _ _ _ _ => q < 16 && x.todo == 0
    | _ => false))
  let xs := xs.map (fun (x : Xfer) =>
    if x.core == core && !x.isStore && (match x.act with
        | .chunk q _ _ _ _ => decide (q < 16)
        | _ => true) then { x with act := .store, dests := [], late := [], fl := 0 } else x)
  let s := (s.computeTo s.m.nextId (s.mxmsOf core)).2
  let s := s.discardMxms core (fun x => !s.outlives x)
  { s with
    m := { s.m with xfers := xs }
    mx := { s.mx with
      mxms := s.mx.mxms.filter (fun x => x.mc != core || !(x.computed && x.toPost.isEmpty))
      mldps := s.mx.mldps.filter (fun x => x.mc != core)
      tiles := s.mx.tiles.filter (fun t => !(t.mc == core && t.st == .opened))
      planes := Tab.drop s.mx.planes (fun k => k / 2 == core)
      stopping := s.mx.stopping.filter (· != core) }
    core := { s.core with
      feeders := s.core.feeders.filter (fun e => e.2.1 / 16 != core)
      last := Tab.del s.core.last core
      blocked := s.core.blocked.filter (fun k => k / 16 != core)
      berthWait := s.core.berthWait.filter (fun k => k / 16 != core)
      waitWord := s.core.waitWord.del core
      launches := Tab.put s.core.launches 0 core (s.launchNo core + 1) } }

/-- A task launched from the descriptor window (R119). -/
def State.launch (s : State) (core : Nat) : State :=
  let bad := s.windowBad core
  let s := (s.forgetTask core).clearCoreRegs core
  let s := { s with core := { s.core with
      task := (s.core.task.clear (256 * core) 256).wrBytes (256 * core) (s.core.window.rdBytes (256 * core) 216) } }
  let entry := bits (s.taskF core 0 4) 0 13
  if bad then
    let (w, s) := s.free 64
    let s := s.setTaskState core tkFaulted
    s.pushFault core (faultRecord core 0 (s.taskId core) entry (whole fcIllegal) 0 (BitVec.ofNat 64 w))
  else
    let s := s.setTaskState core tkRunning
    (List.range (s.threads core)).foldl (fun s t =>
      let s := (List.range 8).foldl (fun s i => s.setS core t (i + 1) (BitVec.ofNat 64 (s.taskF core (0x18 + 8 * i) 8))) s
      (s.setPc core t entry).setStat core t .running) s

/-- Whether a core takes START: its cluster runs, no task runs (20 R651), its partition has not been stopped for good (16
R519, R522). -/
def State.startable (s : State) (c : Nat) : Bool :=
  s.dieUp && !s.taskRuns c && !(s.corePart c).any (fun p => s.partState p == ptFenced)

/-- TASK_START (R119). -/
def execTaskStart (c : Fin 800) (s : State) : Out :=
  let s := s.asked
  if s.standing then .next (s.holdReq (.taskStart c))
  else if s.startable c then .next (s.launch c) else .next s

/-! ### Counters of cycles (18 R600) -/

/-- What the counters of a matrix core count in a cycle (R154, R162, R170, R148, 18 R600; assumption 166): the array runs an MXM, a started
instruction waits for a chunk, the MXM at issue waits for granules or for credits, the oldest MXM not started waits for its plane. -/
def State.mcCounts (s : State) (core : Nat) : List Fld :=
  let cl := clusterOf core
  let k := subOf core
  let xs := s.mxmsOf core
  let stall := xs.any (fun x => x.started && !x.entered && x.bad.isNone)
  let busy := !stall && xs.any (fun x => x.started && !x.computed)
  let w := Tab.get s.core.waitWord 0 core
  let mxm := s.taskRuns core && bits w.toNat 60 4 == 2 && bits w.toNat 52 8 == 0
  let next := xs.find? (fun x => !x.started)
  let plane := next.any (fun x => (xs.filter (fun y => decide (y.id < x.id))).all Mxm.entered && !s.planeReady x)
  (if busy then [MC_BUSY_CYCLES cl k] else []) ++ (if stall then [MC_STALL_STREAM_CYCLES cl k] else [])
    ++ (if mxm && s.waitsGranules core (wordFields w) then [MC_STALL_ACC_CYCLES cl k] else [])
    ++ (if mxm && s.waitsCredits core (wordFields w) then [MC_STALL_CRED_CYCLES cl k] else [])
    ++ (if plane then [MC_STALL_PLANE_CYCLES cl k] else [])

/-- Those of a traversal core: no thread of its task is ready, a thread waits for a free berth. -/
def State.tcCounts (s : State) (core : Nat) : List Fld :=
  let cl := clusterOf core
  let k := subOf core
  if !s.taskRuns core then []
  else
    (if (List.range 16).all (fun t => !s.mayIssue core t) then [TC_NOREADY_CYCLES cl k] else [])
      ++ (if s.core.berthWait.any (fun x => x / 16 == core) then [TC_BERTH_FULL_CYCLES cl k] else [])

/-- The counters of a core after `n` cluster cycles. -/
def State.countCycles (s : State) (n core : Nat) : State :=
  (if isMatrix core then s.mcCounts core else s.tcCounts core).foldl (fun s f => s.count f n) s

/-! ### Barges (R168 to R172, 05 R202 to R206) -/

/-- The barge of a tile (R168): its TASK_ID is that of the task that issued the closing MXM.  The first SEQ of a queue after
reset is 0, which the spec leaves open (assumption 132). -/
def State.bargeOf (s : State) (t : Tile) (x : Mxm) (band : Nat) : List Byte :=
  let out := bits x.word.toNat 20 4
  leBytes 8 (setBits t.handle 38 4 out) ++ t.status
    ++ leBytes 4 (x.task % 65536 + Tab.get s.mx.seqs 0 t.mc % 256 * 2 ^ 16 + band * 2 ^ 24) ++ leBytes 4 t.mc

/-- The oldest posted tile of a matrix core taken by a core's thread (05 R203). -/
def State.takeBarge (s : State) (core t dst off : Nat) (tile : Tile) : State :=
  let s := { s with mx := { s.mx with tiles := s.mx.tiles.map (fun y =>
    if y == tile then { y with st := .taken, taker := core } else y) } }
  let s := s.wrB (keyOwn core off) tile.barge
  (s.writeHandle core dst (BitVec.ofNat 64 tile.bargeHandle)).orFlags core t tile.fl

def State.posted (s : State) (mc : Nat) : Option Tile := s.mx.tiles.find? (fun t => t.mc == mc && t.st == .posted)

/-- A thread that waits for a barge of a matrix core receives the one just posted (05 R203). -/
def State.serveTake (s : State) (mc : Nat) : State :=
  match s.posted mc, s.core.takeWait.find? (fun k =>
      match s.stat (k / 16) (k % 16) with
      | .waiting (.take m _ _) => m == mc
      | _ => false) with
  | some tile, some k =>
    match s.stat (k / 16) (k % 16) with
    | .waiting (.take _ dst off) =>
      let s := { s with core := { s.core with takeWait := s.core.takeWait.filter (· != k) } }
      (s.takeBarge (k / 16) (k % 16) dst off tile).resume (k / 16) (k % 16)
    | _ => s
  | _, _ => s

/-- A finished tile posts its barge (R169, R171); its flags go to the task that issued the MXM, as long as its flags are held
(02 R87).  Where two bands closed one tile, the second posts nothing and its credit is free (assumption 133). -/
def State.postTile (s : State) (x : Mxm) (band : Nat) : State :=
  match x.handles[band]? with
  | none => s
  | some h =>
    match s.mx.tiles.find? (fun t => t.mc == x.mc && t.handle == h && t.st == .closed) with
    | none => s.addCredits x.mc (-1)
    | some t =>
      let t' := { t with st := .posted, barge := s.bargeOf t x band }
      let s := { s with mx := { s.mx with
        tiles := s.mx.tiles.filter (fun y => y != t) ++ [t']
        seqs := Tab.put s.mx.seqs 0 x.mc ((Tab.get s.mx.seqs 0 x.mc + 1) % 256) } }
      (if s.launchNo x.mc = x.launch then s.orFlags x.mc 0 t.fl else s).serveTake x.mc

/-- BARGE_POST: the oldest closing MXM posts its next band's barge. -/
def State.bargePost (s : State) (mc : Nat) : State :=
  match (s.mxmsOf mc).find? (fun x => mxCloses x.word != 0) with
  | none => s
  | some x =>
    match s.computeTo x.id (s.mxmsOf mc) with
    | (false, _) => s
    | (true, s) =>
      match s.mx.mxms.find? (fun y => y.id == x.id) with
      | none => s
      | some x =>
        match x.toPost with
        | [] => (s.dropMxm mc x.id).settle mc
        | b :: rest =>
          let s := s.postTile x b
          ((if rest.isEmpty then s.dropMxm mc x.id else s.updMxm { x with toPost := rest }).settle mc).tryEnd mc

def execBargePost (c : Fin 800) (s : State) : Out :=
  unlessStopped s (.next (s.bargePost c))

/-- ARRAY_FAULT: a fault found after issue stops the task, or, once it has stopped, ends the operation (R176, R177); so does one of
an operation whose task a launch has followed. -/
def State.arrayFault (s : State) (mc : Nat) : State :=
  let s := s.discardMxms mc (fun x => x.bad.isSome && x.launch != s.launchNo mc)
  if (s.engineFaults mc).isEmpty then s else if s.taskRuns mc then s.engineFault mc else s.engineStop mc

def execArrayFault (c : Fin 800) (s : State) : Out :=
  unlessStopped s (.next (s.arrayFault c))

/-- PLANE_READY: the load of a plane completes (R147, R175). -/
def State.planeDone (s : State) (mc p : Nat) : State :=
  match (s.mldpsOf mc).head? with
  | none => s
  | some l =>
    let whole := match l.src with
      | .stream _ => decide (256 ≤ l.rows.length)
      | _ => true
    if l.plane = p && l.started && whole && l.bad.isNone then
      (((s.setPlane mc p (.full ⟨l.ty, l.k, l.rows⟩)).dropMldp l.id).kickMldp mc).settle mc
    else s

def execPlaneReady (c : Fin 800) (plane : Fin 2) (s : State) : Out :=
  unlessStopped s (.next (s.planeDone c plane))

/-- PLANE_FREE: a waiting load starts when its plane is free (R148). -/
def execPlaneFree (c : Fin 800) (plane : Fin 2) (s : State) : Out :=
  unlessStopped s (
    match (s.mldpsOf c).head? with
    | some l => if l.plane = plane then .next (s.kickMldp c) else .next s
    | none => .next s)

/-- CHUNK_LAND: a chunk lands, and a waiting row enters the array (03 R129, R154). -/
def execChunkLand (c : Fin 800) (q : Fin 16) (s : State) : Out :=
  unlessStopped s (.next ((s.chunkLand c q).feedEngine c))

/-- FEEDER_CREDIT_RETURN: a KIND 4 stream tells its feeders what has been consumed (09 R330). -/
def execFeederCreditReturn (c : Fin 800) (q : Fin 16) (s : State) : Out :=
  unlessStopped s (
    let st := s.stream c q
    if st.isOpen && st.kind == 4 && st.unreturned != 0 then
      let s := st.feeders.foldl (fun s g =>
        s.sendTok (mkTok 0 (clusterOf g) (subOf g) (clusterOf c) (subOf c) st.credChannel st.unreturned)) s
      .next (s.setStream c q { st with unreturned := 0 })
    else .next s)

/-- MDROP: an OPEN tile discarded once every earlier MXM that names it has finished; it queues behind the MXMs and MLDPs that
have not started (R147, R174).  The thread, the only one of its core (03 R118), waits at issue, so nothing later can be in
the engine. -/
def execMdrop (c : Fin 800) (t : Fin 16) (f : Fields) (s : State) : Out :=
  issue c t 2 0x02 f { a := some .t } (!isMatrix c) []
    (fun s =>
      let h := s.handle c f.srca.toNat
      match if s.mx.staleRegs.contains (32 * c + f.srca.toNat) then none else s.openTile c h with
      | none => .fault [whole fcHandle]
      | some tile =>
        if (s.mxmsOf c).any (fun x => !x.started || x.handles.contains h.toNat) || (s.mldpsOf c).any (fun x => !x.started) then
          .stay s
        else
          let s := s.freeTile tile
          .go (match tile.osPlane with
            | some p => s.setPlane c p .empty
            | none => s) (s.next c t)) s

/-- MDRAIN: waits until the engine is empty and every barge posted (R147).  A matrix core has one thread (03 R118), which
waits here, so every MXM and MLDP in the engine is an earlier one. -/
def execMdrain (c : Fin 800) (t : Fin 16) (f : Fields) (s : State) : Out :=
  issue c t 2 0x03 f {} (!isMatrix c) []
    (fun s => if (s.mxmsOf c).isEmpty && (s.mldpsOf c).isEmpty then .go s (s.next c t) else .stay s) s

/-- MBCNT: free barge credits (R147). -/
def execMbcnt (c : Fin 800) (t : Fin 16) (f : Fields) (s : State) : Out :=
  issue c t 2 0x04 f { dst := some .s } (!isMatrix c) []
    (thenNext c t (fun s => s.setS c t f.dst.toNat (BitVec.ofNat 64 (16 - s.creditsHeld c)))) s

/-- VTAKE: the oldest posted barge of a matrix core of the cluster (05 R202, R203). -/
def execVtake (c : Fin 800) (t : Fin 16) (f : Fields) (s : State) : Out :=
  issue c t 1 0x50 f { dst := some .t, a := some .s, mod := 1, imm := 1 } false []
    (fun s =>
      let off := (s.sreg c t f.srca.toNat).toNat
      let mc := clusterOf c * 20 + bits f.imm.toNat 0 1
      let d := f.dst.toNat
      if off % 32 != 0 || decide (ownBytes c < off + 32) then .fault [wholeAt fcAddress off]
      else match s.posted mc with
        | some tile => .go (s.takeBarge c t d off tile) (s.next c t)
        | none =>
          if modBit f 16 then .go (s.writeHandle c d 0) (s.next c t)
          else .wait { s with core := { s.core with takeWait := s.core.takeWait ++ [threadKey c t] } } (.take mc d off)) s

/-- VREL: a taken barge released (05 R205). -/
def execVrel (c : Fin 800) (t : Fin 16) (f : Fields) (s : State) : Out :=
  issue c t 1 0x51 f { a := some .t } false []
    (fun s =>
      let r := f.srca.toNat
      let h := (s.handle c r).toNat
      match s.mx.tiles.find? (fun x => x.st == .taken && x.taker == c.val && x.bargeHandle == h) with
      | some tile =>
        if s.mx.takenRegs.contains (32 * c.val + r) then .go ((s.releaseTile tile).writeHandle c r 0) (s.next c t)
        else .fault [whole fcHandle]
      | none => .fault [whole fcHandle]) s

end Sys2Proof.Machine
end

