-- ==== Sys2Proof/Machine/Sampling.lean ====
section
/-! DEFINITION. The sampling instructions of class 3 (07 R235 to R267).  An instruction computes its records and its
result word when it issues; the records and the word are written when its last read has landed. -/

namespace Sys2Proof.Machine

/-! ### Reads of a traversal instruction -/

/-- How a traversal instruction ends early: with a fault (code, address) or with a status. -/
inductive Stop where
  | fault (code addr : Nat)
  | status (n : Nat)
deriving DecidableEq, Repr

/-- What a traversal instruction has gathered: the state, the 64-byte units of the stacks it reads, in groups of which each
depends on the one before (R267), the group being read first; flags. -/
structure Trav where
  s : State
  waves : List (List Nat)
  fl : Flags

/-- Every unit read. -/
def Trav.units (t : Trav) : List Nat := t.waves.reverse.flatten

abbrev TravM := ExceptT Stop (StateM Trav)

/-- Bytes of stack memory read by virtual address, checked against the task's extents (R261). -/
def readVa (core va n : Nat) : TravM Nat := do
  let st ← get
  match st.s.spanKeys core 2 va n false with
  | (.error (e, a), s) => set { st with s := s }; throw (.fault e a)
  | (.ok keys, s) =>
    let new := ((keys.map (fun k => k / 64 * 64)).filter (fun u => !st.units.contains u)).eraseDups
    set { st with s := s, waves := match st.waves with
      | w :: r => (w ++ new) :: r
      | [] => [new] }
    return leNat (keys.map s.m.mem.rd)

/-- The reads from here on depend on those before (R267). -/
def dependent : TravM Unit := modify (fun st => { st with waves := [] :: st.waves })

/-- The bytes of a longer item, 64 at a time: each 64 bytes are an access of their own, so the two halves of an image header
may lie in two extents (03 R120; assumption 135). -/
def readVaBytes (core va : Nat) : Nat → TravM (List Byte)
  | 0 => return []
  | n + 1 => do
    let x ← readVa core va 64
    let r ← readVaBytes core (va + 64) n
    return leBytes 64 x ++ r

def endWith {α : Type} (st : Nat) : TravM α := throw (.status st)

/-! ### Graph images (R235 to R243) -/

def stNotLocal : Nat := 1
def stBadNode : Nat := 2
def stBadLayout : Nat := 3
def stWalkAway : Nat := 4
def stBadWeight : Nat := 5
def nodeNone : Nat := 0xFFFFFFFFFFFF

/-- The fields of an image header (R239). -/
structure Image where
  hd : List Byte
  start : Nat
  deg : Nat

def hdF (hd : List Byte) (off n : Nat) : Nat := leNat ((hd.drop off).take n)
def Image.f (m : Image) (off n : Nat) : Nat := hdF m.hd off n
def Image.hasW (m : Image) : Bool := bit (m.f 0 4) 16
def Image.idw (m : Image) : Nat := 4 + bits (m.f 0 4) 18 2
def Image.wTy (m : Image) : Ty := if bits (m.f 0 4) 20 4 = 0 then .fp32 else if bits (m.f 0 4) 20 4 = 1 then .bf16 else .fp16

/-- Whether a header breaks R239 or R241.  The upper 16 bits of EDGES, at 0x30, count as reserved like those of the addresses (the model's
choice, assumption 175). -/
def headerBad (hd : List Byte) : Bool :=
  let w := hdF hd 0 4
  bits w 0 16 != 1 || bits w 18 2 == 3 || 2 < bits w 20 4 || (!bit w 16 && bits w 20 4 != 0) || bits w 24 8 != 0
    || bits (hdF hd 4 4) 30 2 != 0 || 2 ^ 34 < hdF hd 8 8
    || [0x10, 0x18, 0x20, 0x28, 0x30, 0x40].any (fun o => hdF hd (o + 6) 2 != 0)
    || hdF hd 0x10 8 % 16 != 0 || hdF hd 0x28 8 % 8 != 0 || hdF hd 0x3A 2 != 0 || hdF hd 0x3C 4 != 0
    || (bits w 18 2 == 2 && hdF hd 0x38 2 != 0) || (hd.drop 0x48).any (· != 0)

/-- A cached item: read with no extent check and no berth (R238, R263). -/
def readCached (core va n : Nat) : TravM (List Byte) := do
  let st ← get
  match st.s.translate (clusterOf core) va with
  | (none, s) => set { st with s := s }; throw (.fault fcTranslation va)
  | (some (k, _), s) => set { st with s := s }; return s.rdB k n

/-- A cached item of 128 bytes: each half translated on its own, as a 64-byte unit may be the last of its block or page (R264). -/
def readCached128 (core va : Nat) : TravM (List Byte) := do
  let a ← readCached core va 64
  let b ← readCached core (va + 64) 64
  return a ++ b

/-- The image that holds a node, with the node's list (R253). -/
def nodeImage (core g node : Nat) (needW needA : Bool) : TravM Image := do
  if 2 ^ 48 ≤ node ∨ node = nodeNone then endWith stBadNode
  let s := (← get).s
  let cl := clusterOf core
  let slot := node / 2 ^ 34
  let idx := node % 2 ^ 34
  if !s.on (CL_GRAPH_DIR_VALID cl g) then endWith stBadLayout
  let cached := s.m.scache.contains (cl, g * 16384 + slot)
  let dir := s.fld (CL_GRAPH_DIR_DIR cl g) * 8
  dependent
  let ent ← if cached then (do return leNat (← readCached core (dir + 8 * slot) 8)) else readVa core (dir + 8 * slot) 8
  let hva := ent % 2 ^ 48
  if hva = 0 then endWith stNotLocal
  if ent / 2 ^ 48 ≠ 0 ∨ hva % 64 ≠ 0 then endWith stBadLayout
  dependent
  let hd ← if cached then readCached128 core hva else readVaBytes core hva 2
  modify (fun st => if cached then st else
    { st with s := { st.s with m := { st.s.m with scache := st.s.m.scache ++ [(cl, g * 16384 + slot)] } } })
  if hdF hd 8 5 % 2 ^ 35 ≤ idx then endWith stBadNode
  let w := hdF hd 0 4
  if headerBad hd ∨ bits (hdF hd 4 4) 16 14 ≠ slot ∨ (needW && !bit w 16) ∨ (needA && !bit w 17) then endWith stBadLayout
  dependent
  let x ← readVa core (hdF hd 0x10 6 + 16 * idx) 16
  let start := bits x 0 48
  let deg := bits x 64 32
  if bits x 48 16 ≠ 0 ∨ bits x 96 32 ≠ 0 ∨ hdF hd 0x30 6 < start + deg then endWith stBadLayout
  return ⟨hd, start, deg⟩

/-- The neighbour at a position of the node's list (R241). -/
def neighbour (core : Nat) (m : Image) (p : Nat) : TravM Nat := do
  let w := m.idw
  let x ← readVa core (m.f 0x18 6 + (m.start + p) * w) w
  return x + m.f 0x38 2 * 2 ^ (8 * w) % 2 ^ 48

/-- A weight as FP32 (R242). -/
def weightOf (ty : Ty) (x : Nat) : NRes :=
  match ty with
  | .bf16 => widen fmtBF16 fmtFP32 x
  | .fp16 => widen fmtFP16 fmtFP32 x
  | _ => NRes.ok x

def weightAt (core : Nat) (m : Image) (p : Nat) : TravM Nat := do
  let n := m.wTy.bits / 8
  let x ← readVa core (m.f 0x20 6 + (m.start + p) * n) n
  let r := weightOf m.wTy x
  modify (fun st => { st with fl := st.fl ||| r.fl })
  return r.v

def fpOne : Nat := 0x3F800000

/-- An edge record (R252). -/
def edgeRecord (dst w src : Nat) : List Byte := leBytes 4 dst ++ leBytes 4 w ++ leBytes 8 (src % 2 ^ 48)

/-- The record of one position, with its weight where the image has one (R254). -/
def recordAt (core dst : Nat) (m : Image) (p : Nat) : TravM (List Byte) := do
  let n ← neighbour core m p
  let w ← if m.hasW then weightAt core m p else pure fpOne
  return edgeRecord dst w n

def recordsAt (core dst : Nat) (m : Image) (ps : List Nat) : TravM (List (List Byte)) := ps.mapM (recordAt core dst m)

/-- The position that alias choice takes for a draw (R257). -/
def aliasChoice (core : Nat) (m : Image) (x : Nat) : TravM Nat := do
  let j := drawU x m.deg
  let e ← readVa core (m.f 0x28 6 + 8 * (m.start + j)) 8
  let prob := bits e 0 32
  let alt := bits e 32 32
  if m.deg ≤ alt then endWith stBadLayout
  return if bits x 64 32 < prob ∨ prob = 0xFFFFFFFF then j else alt

/-! ### The instructions -/

/-- The operands of a sampling instruction (R249). -/
structure Samp where
  core : Nat
  out : Nat
  b : Nat
  cw : Nat
  g : Nat
  k : Nat
  vslot : Nat
  seed : Nat
  step : Nat
  modAlias : Bool
  restart : Nat

def Samp.dst (i : Samp) : Nat := bits i.cw 0 24
def Samp.hop (i : Samp) : Nat := bits i.cw 24 8

/-- FIRST of SNBR: 32 bits, the top seven of which, FIRST[31:25], stand in bits [55:49] (R249; assumption 136). -/
def Samp.firstPos (i : Samp) : Nat := bits i.cw 24 32

/-- A draw (R248). -/
def Samp.draw (i : Samp) (hop node idx : Nat) : Nat := keyedDraw i.seed i.step (samplingCtr i.vslot hop node idx)

/-- The outcome of an instruction: COUNT, and the records it writes. -/
abbrev SampRes := Nat × List (List Byte)

def sampDeg (i : Samp) : TravM SampRes := do
  let m ← nodeImage i.core i.g i.b false false
  return (m.deg, [])

def sampNbr (i : Samp) : TravM SampRes := do
  let m ← nodeImage i.core i.g i.b false false
  let ps := ((List.range i.k).map (· + i.firstPos)).filter (fun p => decide (p < m.deg))
  dependent
  let rs ← recordsAt i.core i.dst m ps
  return (rs.length, rs)

/-- The K positions of SUNI (R256). -/
def uniPositions (i : Samp) (deg : Nat) : List Nat :=
  sortNat ((List.range i.k).foldl (fun set n =>
    let j := deg - i.k + n
    let t := drawU (i.draw i.hop i.b n) (j + 1)
    set ++ [if set.contains t then j else t]) [])

def sampUni (i : Samp) : TravM SampRes := do
  let m ← nodeImage i.core i.g i.b false false
  dependent
  let rs ← recordsAt i.core i.dst m (if m.deg ≤ i.k then List.range m.deg else uniPositions i m.deg)
  return (rs.length, rs)

def sampAlias (i : Samp) : TravM SampRes := do
  let m ← nodeImage i.core i.g i.b false true
  if m.deg = 0 then return (0, [])
  dependent
  let ps ← (List.range i.k).mapM (fun n => aliasChoice i.core m (i.draw i.hop i.b n))
  dependent
  let rs ← recordsAt i.core i.dst m ps
  return (rs.length, rs)

/-- Whether weight a at position p ranks above weight b at position q (R258).  A comparison reads an FP32 subnormal as the zero of
its sign (02 R62, R63), and a sampling instruction raises no flag for it (R254; assumption 137). -/
def weightAbove (a b : Nat × Nat) : Bool :=
  let x := (readNum fmtFP32 a.1).1
  let y := (readNum fmtFP32 b.1).1
  if x.isNaN && y.isNaN then decide (a.2 < b.2)
  else if x.isNaN then false
  else if y.isNaN then true
  else if rankAbove x y then true
  else if rankAbove y x then false
  else decide (a.2 < b.2)

def insWeight (x : Nat × Nat) : List (Nat × Nat) → List (Nat × Nat)
  | [] => [x]
  | y :: r => if weightAbove x y then x :: y :: r else y :: insWeight x r

/-- STOPK (R258); the only flag is that of a BF16 weight flushed (R242, R254). -/
def sampTopk (i : Samp) : TravM SampRes := do
  let m ← nodeImage i.core i.g i.b true false
  dependent
  let ws ← (List.range m.deg).mapM (fun p => do return ((← weightAt i.core m p), p))
  let best := (ws.foldr insWeight []).take i.k
  let ps := sortNat (best.map Prod.snd)
  dependent
  let rs ← ps.mapM (fun p => do
    let n ← neighbour i.core m p
    return edgeRecord i.dst (((ws[p]?).map Prod.fst).getD 0) n)
  return (rs.length, rs)

/-- Steps of a walk (R259): `n` steps are left, `t` is the next. -/
def walkFrom (i : Samp) : Nat → Nat → Nat → List (List Byte) → TravM (Nat × List (List Byte) × Bool)
  | 0, _, _, rs => return (rs.length, rs, false)
  | n + 1, t, cur, rs => do
    let x := i.draw t i.b (bits i.cw 49 15)
    let m ← fun st =>
      match (nodeImage i.core i.g cur false i.modAlias).run st with
      | (.error (.status 1), st) => (.ok none, st)
      | (.error e, st) => (.error e, st)
      | (.ok m, st) => (.ok (some m), st)
    match m with
    | none => return (rs.length, rs ++ [edgeRecord 0xFFFFFFFF (t - 1) cur], true)
    | some m =>
      if bits x 112 16 < i.restart ∨ m.deg = 0 then walkFrom i n (t + 1) i.b rs
      else
        dependent
        let p ← if i.modAlias then aliasChoice i.core m x else pure (drawU x m.deg)
        dependent
        let next ← neighbour i.core m p
        walkFrom i n (t + 1) next (rs ++ [edgeRecord i.dst fpOne next])

/-- SWALK: the start node that s_b names is checked under R235 before the walk (R253).  The record at OUT is taken as it
stands, whatever its DST_LOCAL and, at T 0, its node (R259; the model's choice, assumption 177). -/
def sampWalk (i : Samp) : TravM SampRes := do
  if 2 ^ 48 ≤ i.b ∨ i.b = nodeNone then endWith stBadNode
  let s := (← get).s
  let taken := s.rd (keyOwn i.core (i.out + 4)) 4
  let cur := s.rd (keyOwn i.core (i.out + 8)) 8
  let (n, rs, away) ← walkFrom i (i.k - taken) (taken + 1) cur []
  return (if away then n + 2 ^ 32 * stWalkAway else n, rs)

/-- Whether a candidate's weight is negative or not finite (R251, R260); a subnormal FP32 weight is read as the zero of its sign,
with no flag (02 R62, R63, R254; assumption 137). -/
def weightBad (w : Nat) : Bool :=
  !(decodeRaw fmtFP32 w).isFinite || (bit w 31 && !(readNum fmtFP32 w).1.isZero)

/-- The prefix sums of SLAYR in XA (R260). -/
def prefixSums : Nat → List Nat → List Nat
  | _, [] => []
  | acc, w :: r => let x := (fAdd fmtXA acc (widen fmtFP32 fmtXA w).v).v; x :: prefixSums x r

/-- SLAYR (R260).  Bits 63 to 48 of a candidate's second word are no part of its SRC, and its record is copied as it is (the model's
choice, assumption 177). -/
def sampLayer (i : Samp) : TravM SampRes := do
  let s := (← get).s
  let n := bits i.cw 0 24
  let cand := (List.range n).map (fun j => s.rdB (keyOwn i.core (i.b + 16 * j)) 16)
  let ws := cand.map (fun c => leNat ((c.drop 4).take 4))
  if ws.any weightBad then endWith stBadWeight
  let ps := prefixSums 0 ws
  let total := ps.getLastD 0
  if (decodeRaw fmtXA total).isZero then return (0, [])
  let last := ((ws.zip cand).filter (fun x => !(readNum fmtFP32 x.1).1.isZero)).getLast?.map Prod.snd
  let picked := (List.range i.k).map (fun j =>
    let x := i.draw i.hop nodeNone j
    let r := (encodeRes fmtXA (.fin false (bits x 11 53) (-53)) false).v
    let target := (fMul fmtXA r total).v
    ((ps.zip cand).find? (fun p => decide (0 < cmpVal (decodeRaw fmtXA p.1) (decodeRaw fmtXA target)))).map Prod.snd
      |>.orElse (fun _ => last))
  let src (c : List Byte) : Nat := leNat ((c.drop 8).take 6)
  let set := picked.filterMap (fun c => c.map src)
  let rs := cand.filter (fun c => set.contains (src c))
  return (rs.length, rs)

/-- The end of a traversal instruction: its dependent reads go out one group after another (R267), and its writes and its
result word come once the last has landed (R262, R263). -/
def State.travEnd (core t : Nat) (dst word : Nat) (cells : List (Nat × Byte)) (tr : Trav) : Eff :=
  let x (later : List (List Nat)) : Xfer :=
    { newXfer core t false (scalarDest dst) (.result dst word later) with late := cells, fl := tr.fl }
  match tr.waves.reverse.filter (fun w => !w.isEmpty) with
  | [] => .go (tr.s.startReads (x []) []) (tr.s.next core t)
  | w :: later => .wait (tr.s.startReads (x later) w) (.result tr.s.m.nextId)

/-- Records written at OUT, one after another. -/
def recordCells (core out : Nat) (rs : List (List Byte)) : List (Nat × Byte) :=
  let b := rs.flatMap id
  ((List.range b.length).map (· + keyOwn core out)).zip b

/-- The operands of an instruction, read from the thread's registers (R248, R249). -/
def State.sampOf (s : State) (core t op : Nat) (f : Fields) : Samp :=
  let cl := clusterOf core
  let cw := (s.sreg core t f.srcc.toNat).toNat
  let g := bits f.imm.toNat 0 4
  { core := core, out := (s.sreg core t f.srca.toNat).toNat, b := (s.sreg core t f.srcb.toNat).toNat, cw := cw, g := g
    k := bits f.imm.toNat 4 11
    vslot := if bit cw 48 && op != 1 then bits cw 32 16 else s.taskSlot core
    seed := s.fld (CL_JOB_SEED_SEED cl), step := s.taskStep core, modAlias := modBit f 16
    restart := s.fld (CL_GRAPH_DIR_RESTART cl g) }

/-- Reserved bits of the control word (R249, R261).  That N of SLAYR outside 1 to 16,384 is refused like them, and that fields an
instruction does not use are taken at any value, is the model's choice (assumption 176). -/
def cwBad (op cw : Nat) : Bool :=
  match op with
  | 0 => cw != 0
  | 1 => bits cw 56 8 != 0
  | 5 => bits cw 24 8 != 0
  | 6 => bits cw 49 15 != 0 || bits cw 0 24 == 0 || 16384 < bits cw 0 24
  | _ => bits cw 49 15 != 0

/-- Records at most (R250). -/
def recordsMost (op : Nat) (i : Samp) : Nat :=
  match op with
  | 0 => 0
  | 5 => i.k + 1
  | 6 => bits i.cw 0 24
  | _ => i.k

/-- The faults of R261 at issue. -/
def sampFaults (op : Nat) (i : Samp) : List FInfo :=
  let own := 2 ^ 19
  (if cwBad op i.cw then [whole fcIllegal] else [])
    ++ (if i.out % 16 != 0 || decide (own < i.out + 16 * recordsMost op i) then [wholeAt fcAddress i.out] else [])
    ++ (if op = 6 && (i.b % 16 != 0 || decide (own < i.b + 16 * bits i.cw 0 24)) then [wholeAt fcAddress i.b] else [])

/-- A sampling instruction: `run` gives COUNT and the records. -/
def readSampling (ue : List FInfo) (op : Nat) (run : Samp → TravM SampRes) (c : Fin 800) (t : Fin 16) (f : Fields) (s : State) : Out :=
  let k := bits f.imm.toNat 4 11
  issueUe ue c t 3 op f
    { dst := some .s, a := some .s, b := some .s, c := some .s, mod := if op = 5 then 1 else 0
      imm := if op = 6 then 0x7FF0 else 0x7FFF }
    (isMatrix c || k == 0 || decide ((if op = 5 then 255 else 1024) < k)) []
    (fun s =>
      let i := s.sampOf c t op f
      match sampFaults op i with
      | fault :: fs => .fault (fault :: fs)
      | [] =>
        match (run i).run ⟨s, [], 0⟩ with
        | (.error (.fault e a), _) => .fault [wholeAt e a]
        | (.error (.status n), tr) => State.travEnd c t f.dst.toNat (n * 2 ^ 32) [] tr
        | (.ok (n, rs), tr) => State.travEnd c t f.dst.toNat n (recordCells c i.out rs) tr) s

/-- A sampling instruction with no error in the memories that it reads. -/
def sampling (op : Nat) (run : Samp → TravM SampRes) (c : Fin 800) (t : Fin 16) (f : Fields) (s : State) : Out :=
  readSampling [] op run c t f s

/-- SDEG (R250). -/
def execSdeg (c : Fin 800) (t : Fin 16) (f : Fields) (s : State) : Out := sampling 0 sampDeg c t f s
/-- SNBR (R255). -/
def execSnbr (c : Fin 800) (t : Fin 16) (f : Fields) (s : State) : Out := sampling 1 sampNbr c t f s
/-- SUNI (R256). -/
def execSuni (c : Fin 800) (t : Fin 16) (f : Fields) (s : State) : Out := sampling 2 sampUni c t f s
/-- SALIAS (R257). -/
def execSalias (c : Fin 800) (t : Fin 16) (f : Fields) (s : State) : Out := sampling 3 sampAlias c t f s
/-- STOPK (R258). -/
def execStopk (c : Fin 800) (t : Fin 16) (f : Fields) (s : State) : Out := sampling 4 sampTopk c t f s
/-- SWALK (R259). -/
def execSwalk (c : Fin 800) (t : Fin 16) (f : Fields) (s : State) : Out := sampling 5 sampWalk c t f s
/-- SLAYR (R260). -/
def execSlayr (c : Fin 800) (t : Fin 16) (f : Fields) (s : State) : Out := sampling 6 sampLayer c t f s

end Sys2Proof.Machine
end

