-- ==== Sys2Proof/Machine/Gather.lean ====
section
/-! DEFINITION. The gather and scatter instructions of class 3 (09 R308 to R338): list gathers into memory or a stream,
element gathers and scatters, the issue of base commands, and the two sorts of edge records. -/

namespace Sys2Proof.Machine

/-! ### List gathers (R309 to R318, R328 to R331) -/

/-- A gather: destination space, list length, and the fields of the gather-source descriptor (R309, R310). -/
structure Gath where
  space : Nat
  n : Nat
  out : Nat
  list : Nat
  desc : Nat
  base : Nat
  rows : Nat
  stride : Nat
  rowBytes : Nat
  descBad : Bool
deriving DecidableEq, Repr

/-- P of R311. -/
def Gath.pitch (g : Gath) : Nat := roundUp g.rowBytes 64

def State.gathOf (s : State) (core t : Nat) (f : Fields) : Gath :=
  let d := (s.sreg core t f.srcc.toNat).toNat
  let k := keyOwn core d
  let ok := d % 32 == 0 && decide (d + 32 ≤ ownBytes core)
  let w (o : Nat) : Nat := if ok then s.rd (k + o) 8 else 0
  { space := bits f.mod.toNat 0 2, n := bits f.imm.toNat 0 13, out := (s.sreg core t f.srca.toNat).toNat
    list := (s.sreg core t f.srcb.toNat).toNat, desc := d
    base := bits (w 0) 0 48, rows := bits (w 8) 0 48, stride := w 16, rowBytes := bits (w 24) 0 13
    descBad := ok && (w 0 / 2 ^ 48 != 0 || w 8 / 2 ^ 48 != 0 || w 24 / 2 ^ 13 != 0 || w 0 % 16 != 0
      || w 16 % 16 != 0 || w 24 % 16 != 0 || w 24 == 0 || 4096 < w 24 || w 16 < bits (w 24) 0 13) }

/-- The fields of a target word (R328): matrix core, stream, first row. -/
def targetCore (core w : Nat) : Nat := (sectionOf core * 5 + bits w 29 3) * 20 + bits w 24 1
def targetQ (w : Nat) : Nat := bits w 25 4
def targetRow (w : Nat) : Nat := bits w 0 24

/-- Whether a stream target breaks R329. -/
def State.targetBad (s : State) (core : Nat) (g : Gath) : Bool :=
  let st := s.stream (targetCore core g.out) (targetQ g.out)
  4 < bits g.out 29 3 || !st.isOpen || st.closing || st.kind != 4 || !st.feeders.contains core
    || g.rowBytes != 32 * st.ty.bits || st.nrows < targetRow g.out + g.n || !s.chOpen core st.credChannel

/-- The faults of R314. -/
def State.gathFaults (s : State) (core : Nat) (g : Gath) : List FInfo :=
  let own := ownBytes core
  let lim := if g.space = 1 then sharedBytes else own
  (if g.descBad || (g.space == 2 && g.out / 2 ^ 32 != 0) then [whole fcIllegal] else [])
    ++ (if g.space != 2 && g.out % 64 != 0 then [wholeAt fcAddress g.out] else [])
    ++ (if g.list % 8 != 0 || own < g.list + 8 * g.n then [wholeAt fcAddress g.list] else [])
    ++ (if g.desc % 32 != 0 || own < g.desc + 32 then [wholeAt fcAddress g.desc] else [])
    ++ (if g.space != 2 && lim < g.out + g.n * g.pitch then [wholeAt fcAddress g.out] else [])
    ++ (if g.space == 2 && s.targetBad core g then [whole fcStream] else [])

/-- The rows of a list, in list order: position and the keys of its bytes (none for an invalid index); the failure of
the first row that is not within an extent or not translated (R317, R318). -/
def State.gathKeys (s : State) (core : Nat) (g : Gath) :
    List (Nat × Nat) → List (Nat × List Nat) × Option FInfo × State
  | [] => ([], none, s)
  | (j, i) :: r =>
    if g.rows ≤ i then
      let (l, f, s) := s.gathKeys core g r
      ((j, []) :: l, f, s)
    else
      match s.spanKeys core 2 (g.base + i * g.stride) g.rowBytes false with
      | (.error (e, a), s) => ([], some (wholeAt e a), s)
      | (.ok ks, s) =>
        let (l, f, s) := s.gathKeys core g r
        ((j, ks) :: l, f, s)

/-- A row of a gather into memory started: its reads, or at once the write of a row of zeros (R311, R312). -/
def State.gathRow (s : State) (core t master key pitch : Nat) (keys : List Nat) : State :=
  if keys.isEmpty then
    let cells := ((List.range pitch).map (fun i => (key + i, (0 : Byte))))
    if key < 2 ^ 43 then (s.wrCells cells).feedDone master false
    else s.startXfer (newXfer core t false [] (.gathPut master)) false true cells
  else
    s.startXfer (newXfer core t false [] (.gathRow master key pitch keys)) false false ((dedup keys).map (·, 0))

/-- A gather whose rows are all within reach: the operation that waits for them, and their requests. -/
def State.gathGo (s : State) (core t dst : Nat) (g : Gath) (rows : List (Nat × List Nat)) : State :=
  let invalid := (rows.filter (fun r => r.2.isEmpty)).length
  let word := (g.n - invalid) + invalid * 2 ^ 16
  let id := s.m.nextId
  let mc := targetCore core g.out
  let q := targetQ g.out
  let stream := g.space == 2
  let wait := if stream then rows.map (fun r => (targetRow g.out + r.1, r.2)) else []
  let x := { newXfer core t false (scalarDest dst) (.feed dst word mc q g.rowBytes wait) with id := id, todo := g.n }
  let s := { s with m := { s.m with xfers := s.m.xfers ++ [x], nextId := id + 1 } }
  if stream then (s.kickFeeder core).feedEngine mc
  else
    let key := if g.space = 1 then keyShared (clusterOf core) g.out else keyOwn core g.out
    rows.foldl (fun s r => s.gathRow core t id (key + r.1 * g.pitch) g.pitch r.2) s

/-- A row before the failing one: zeros for an invalid index; whether a row that was requested has landed before the stop the
spec leaves open, so it is a free value (R318). -/
def State.gathKeep (s : State) (key pitch : Nat) (keys : List Nat) : State :=
  if keys.isEmpty then s.wrB key (List.replicate pitch 0)
  else
    let (landed, s) := s.free 1
    if landed = 0 then s
    else
      match s.readNow keys with
      | (some d, s) => s.wrB key (d ++ List.replicate (pitch - d.length) 0)
      | (none, s) => s

/-- What a gather stopped at a failing row leaves in memory: rows before it that have landed (R318). -/
def State.gathStop (s : State) (core : Nat) (g : Gath) (rows : List (Nat × List Nat)) : State :=
  if g.space = 2 then s
  else
    let key := if g.space = 1 then keyShared (clusterOf core) g.out else keyOwn core g.out
    rows.foldl (fun s r => s.gathKeep (key + r.1 * g.pitch) g.pitch r.2) s

/-- GATHL (R309 to R318). -/
def readGathl (ue : List FInfo) (c : Fin 800) (t : Fin 16) (f : Fields) (s : State) : Out :=
  let n := bits f.imm.toNat 0 13
  issueUe ue c t 3 0x20 f { dst := some .s, a := some .s, b := some .s, c := some .s, mod := 3, imm := 0x1FFF }
    (isMatrix c || n == 0 || 4096 < n || bits f.mod.toNat 0 2 == 3) []
    (fun s =>
      let g := s.gathOf c t f
      match s.gathFaults c g with
      | fault :: fs => .fault (fault :: fs)
      | [] =>
        let idx := (List.range g.n).map (fun j => (j, s.rd (keyOwn c (g.list + 8 * j)) 8))
        match s.gathKeys c g idx with
        | (rows, some e, s) => .trap (s.gathStop c g rows) [e]
        | (rows, none, s) => .go (s.gathGo c t f.dst.toNat g rows) (s.next c t)) s

/-! ### Element gathers and scatters (R315, R316, R319) -/

def elemGathTy (t : Ty) : Bool := t == .fp32 || t == .int32 || t == .uint32 || t == .int64 || t == .xa

/-- GATHL with no error in the memories that it reads. -/
def execGathl (c : Fin 800) (t : Fin 16) (f : Fields) (s : State) : Out := readGathl [] c t f s

/-- The places of the active elements (R315). -/
def State.gathEls (s : State) (core t : Nat) (f : Fields) : List (Nat × ElAt) :=
  let ty := typeOf f
  let base := s.sreg core t f.srca.toNat
  let idx := s.vreg core t f.srcb.toNat
  (s.act core t f).map (fun i =>
    (i, ⟨(base + BitVec.ofNat 64 (bits idx.toNat (32 * i) 32 * (ty.bits / 8))).toNat, ty.bits / 8, 0⟩))

/-- VGATH (R315, R316, R319). -/
def readVgath (ue : List FInfo) (c : Fin 800) (t : Fin 16) (f : Fields) (s : State) : Out :=
  issueUe ue c t 3 0x21 f { dst := some .v, a := some .s, b := some .v, mask := true, ty := true, mod := 3 }
    (isMatrix c || spaceOf f == 3 || !elemGathTy (typeOf f)) []
    (fun s => s.vecLoad c t f (spaceOf f) (s.gathEls c t f)) s

/-- VGATH with no error in the memories that it reads. -/
def execVgath (c : Fin 800) (t : Fin 16) (f : Fields) (s : State) : Out := readVgath [] c t f s

/-- The last byte written to each key, in order of key groups. -/
def lastCells (cells : List (Nat × Byte)) : List (Nat × Byte) :=
  (cells.map Prod.fst).eraseDups.filterMap (fun k => (cells.reverse.find? (fun e => e.1 == k)))

/-- VSCAT: where elements address the same bytes the highest-numbered is written (R315, R316, R319). -/
def execVscat (c : Fin 800) (t : Fin 16) (f : Fields) (s : State) : Out :=
  let ty := typeOf f
  issue c t 3 0x22 f { a := some .s, b := some .v, c := some .v, mask := true, ty := true, mod := 3 }
    (isMatrix c || spaceOf f == 3 || !elemGathTy ty) []
    (fun s =>
      match s.vecKeys c (spaceOf f) ty true (s.gathEls c t f) with
      | (_, fault :: fs, _) => .fault (fault :: fs)
      | (ks, [], s) =>
        let cells := lastCells (s.storeCells ty (s.vreg c t f.srcc.toNat) ks)
        if spaceOf f = 0 then .go (s.wrCells cells) (s.next c t)
        else s.startOp (newXfer c t true [] .store) true cells) s

/-! ### Base commands from a traversal core (R320 to R324) -/

/-- The header of a command from its 64 bytes (08 R300). -/
def parseHdr (h : List Byte) : BHdr :=
  let w := hdF h 0 4
  let d := hdF h 0x18 4
  let op := bits w 0 4
  let pop := bits w 4 2
  let nidx := hdF h 4 2
  let nseg := hdF h 6 2
  let dest := bits d 0 2
  let gt := bits w 19 4
  { op := op, poolOp := pop, table := bits w 6 6, outType := bits w 12 4, rnd := bits w 16 3, gtype := gt
    prog := bits w 23 8, nidx := nidx, nseg := nseg, tensor := hdF h 8 4, vslot := hdF h 0xC 2, step := hdF h 0x10 8
    dest := dest, destOff := hdF h 0x1C 4, statusOff := hdF h 0x20 4, channel := hdF h 0x24 1
    bad := 3 < op || bit w 31 || 4 < bits w 16 3 || hdF h 0xE 2 != 0 || d / 2 ^ 6 != 0 || hdF h 0x25 3 != 0
      || (h.drop 0x28).any (· != 0) || nidx == 0 || 16384 < nidx
      || (if op = 1 then nseg == 0 || nidx < nseg else nseg != 0) || (op != 1 && pop != 0)
      || (2 ≤ op && 2 < gt) || (dest != 2 && bits d 2 4 != 0) || (dest < 2 && hdF h 0x1C 4 % 64 != 0) }

/-- BCMD (R321, R322). -/
def readBcmd (ue : List FInfo) (c : Fin 800) (t : Fin 16) (f : Fields) (s : State) : Out :=
  issueUe ue c t 3 0x23 f { a := some .s, imm := 7 } (isMatrix c) []
    (fun s =>
      let off := (s.sreg c t f.srca.toNat).toNat
      let own := ownBytes c
      if off % 64 != 0 || decide (own < off + 64) then .fault [wholeAt fcAddress off]
      else
        let h := parseHdr (s.rdB (keyOwn c off) 64)
        if h.dest = 2 then
          .fault (whole fcIllegal :: (if h.statusOff % 8 != 0 || decide (own < h.statusOff + 8)
            then [wholeAt fcAddress h.statusOff] else []))
        else if h.statusOff % 8 != 0 || decide (own < h.statusOff + 8) then .fault [wholeAt fcAddress h.statusOff]
        else if !s.berthFree c then .stay s
        else
          let x : BCmd := { id := s.b.nextId, stack := bits f.imm.toNat 0 3, core := c, thread := t, off := off, hdr := h
                            stream := none, pay := none, asked := 0, jnl := 0, done := none, dead := false }
          .go { s with b := { s.b with cmds := s.b.cmds ++ [x], nextId := s.b.nextId + 1 } } (s.next c t)) s

/-! ### BSPLIT and BSORT (R336 to R338) -/

/-- BCMD with no error in the memories that it reads. -/
def execBcmd (c : Fin 800) (t : Fin 16) (f : Fields) (s : State) : Out := readBcmd [] c t f s

/-- Whether two regions of local memory share a byte. -/
def overlap (a b : Nat × Nat) : Bool := a.1 < b.1 + b.2 && b.1 < a.1 + a.2 && a.2 != 0 && b.2 != 0

/-- The faults of R338: regions (offset, bytes, alignment) read and written. -/
def regionFaults (core : Nat) (bad : Bool) (ins outs : List (Nat × Nat × Nat)) : List FInfo :=
  let r (x : Nat × Nat × Nat) : Nat × Nat := (x.1, x.2.1)
  (if bad || ins.any (fun i => outs.any (fun o => overlap (r i) (r o))) then [whole fcIllegal] else [])
    ++ ((ins ++ outs).filter (fun x => x.1 % x.2.2 != 0 || decide (ownBytes core < x.1 + x.2.1))).map
        (fun x => wholeAt fcAddress x.1)

/-- `n` records of 16 bytes at a local-memory offset. -/
def State.records (s : State) (core off n : Nat) : List (List Byte) :=
  (List.range n).map (fun i => s.rdB (keyOwn core (off + 16 * i)) 16)

def recSrc (r : List Byte) : Nat := hdF r 8 6
def recDst (r : List Byte) : Nat := hdF r 0 4

/-- Records whose keys have been taken put into buckets by how many split values are at or below the key. -/
def bucketOf (splits : List Nat) (key : Nat) : Nat := (splits.filter (· ≤ key)).length

def ascending : List Nat → Bool
  | a :: b :: r => decide (a < b) && ascending (b :: r)
  | _ => true

/-- Running sums, from 0. -/
def starts : Nat → List Nat → List Nat
  | acc, [] => [acc]
  | acc, n :: r => acc :: starts (acc + n) r

/-- BSPLIT (R336). -/
def readBsplit (ue : List FInfo) (c : Fin 800) (t : Fin 16) (f : Fields) (s : State) : Out :=
  issueUe ue c t 3 0x24 f { dst := some .s, a := some .s, b := some .s, c := some .s, mod := 1 } (isMatrix c) []
    (fun s =>
      let out := (s.sreg c t f.srca.toNat).toNat
      let inp := (s.sreg c t f.srcb.toNat).toNat
      let cw := (s.sreg c t f.srcc.toNat).toNat
      let n := bits cw 0 13
      let b := 2 ^ bits cw 13 3
      let split := bits cw 16 24
      let cnt := bits cw 40 24
      match regionFaults c (n == 0 || 4096 < n || 6 < bits cw 13 3)
          [(inp, 16 * n, 16), (split, 8 * (b - 1), 8)] [(out, 16 * n, 16), (cnt, 4 * (b + 1), 4)] with
      | fault :: fs => .fault (fault :: fs)
      | [] =>
        let splits := (List.range (b - 1)).map (fun i => s.rd (keyOwn c (split + 8 * i)) 8)
        if !ascending splits then .go (s.setS c t f.dst.toNat (BitVec.ofNat 64 (n + 2 ^ 32))) (s.next c t)
        else
          let key (r : List Byte) : Nat := if modBit f 16 then bits (leNat r) 0 49 else recSrc r
          let rs := (s.records c inp n).map (fun r => (bucketOf splits (key r), r))
          let bks := (List.range b).map (fun i => (rs.filter (fun x => x.1 == i)).map Prod.snd)
          let s := s.wrB (keyOwn c out) (bks.flatMap (fun l => l.flatMap id))
          let s := s.wrB (keyOwn c cnt) ((starts 0 (bks.map List.length)).flatMap (leBytes 4))
          .go (s.setS c t f.dst.toNat (BitVec.ofNat 64 n)) (s.next c t)) s

/-- BSPLIT with no error in the memories that it reads. -/
def execBsplit (c : Fin 800) (t : Fin 16) (f : Fields) (s : State) : Out := readBsplit [] c t f s

/-- Stable insertion by a key. -/
def insByKey {α : Type} (key : α → Nat) (x : α) : List α → List α
  | [] => [x]
  | y :: r => if key x ≤ key y then x :: y :: r else y :: insByKey key x r

def sortByKey {α : Type} (key : α → Nat) (l : List α) : List α := l.foldr (insByKey key) []

/-- Positions after the last record of each run of equal keys. -/
def runEnds {α : Type} (key : α → Nat) : Nat → List α → List Nat
  | _, [] => []
  | i, [_] => [i + 1]
  | i, x :: y :: r => if key x = key y then runEnds key (i + 1) (y :: r) else (i + 1) :: runEnds key (i + 1) (y :: r)

/-- BSORT (R337). -/
def readBsort (ue : List FInfo) (c : Fin 800) (t : Fin 16) (f : Fields) (s : State) : Out :=
  issueUe ue c t 3 0x25 f { dst := some .s, a := some .s, b := some .s, c := some .s } (isMatrix c) []
    (fun s =>
      let out := (s.sreg c t f.srca.toNat).toNat
      let inp := (s.sreg c t f.srcb.toNat).toNat
      let cw := (s.sreg c t f.srcc.toNat).toNat
      let n := bits cw 0 14
      let ndst := bits cw 14 24
      let uniq := bits cw 38 24
      let inOk := inp % 16 == 0 && decide (inp + 16 * n ≤ ownBytes c)
      let rs := if inOk && n ≤ 8192 then sortByKey recSrc (s.records c inp n) else []
      let ends := runEnds recSrc 0 rs
      let wOff := roundUp (8 * n) 64
      let eOff := wOff + roundUp (4 * n) 64
      match regionFaults c (n == 0 || 8192 < n || cw / 2 ^ 62 != 0)
          [(inp, 16 * n, 16)] [(out, eOff + 4 * ends.length, 64), (uniq, 8 * ends.length, 8)] with
      | fault :: fs => .fault (fault :: fs)
      | [] =>
        if rs.any (fun r => decide (ndst ≤ recDst r)) then
          .go (s.setS c t f.dst.toNat (BitVec.ofNat 64 (ends.length + 2 ^ 33))) (s.next c t)
        else
          let s := s.wrB (keyOwn c out) (rs.flatMap (fun r => leBytes 8 (recDst r)))
          let s := s.wrB (keyOwn c (out + wOff)) (rs.flatMap (fun r => (r.drop 4).take 4))
          let s := s.wrB (keyOwn c (out + eOff)) (ends.flatMap (leBytes 4))
          let s := s.wrB (keyOwn c uniq) ((ends.filterMap (fun e => rs[e - 1]?)).flatMap (fun r => leBytes 8 (recSrc r)))
          .go (s.setS c t f.dst.toNat (BitVec.ofNat 64 ends.length)) (s.next c t)) s

/-- BSORT with no error in the memories that it reads. -/
def execBsort (c : Fin 800) (t : Fin 16) (f : Fields) (s : State) : Out := readBsort [] c t f s

/-! ### A reply that lands (08 R293) -/

/-- The matrix core whose stream a row in flight is for. -/
def State.rowTarget (s : State) (id : Nat) : Option Nat :=
  (s.m.reqs.find? (fun (r : Req) => r.id == id)).bind (fun r =>
    (s.m.xfers.find? (fun (x : Xfer) => x.id == r.xfer)).bind (fun x =>
      match x.act with
      | .feedRow _ mc _ _ _ _ => some mc
      | _ => none))

/-- BERTH_RETURN: a reply lands or a write is accepted (08 R293, R294); a row of a stream may now enter the array. -/
def execBerthReturn (c : Fin 800) (id : Nat) (s : State) : Out :=
  unlessStopped s (
    match s.rowTarget id with
    | some mc => .next ((s.berthReturn c id).feedEngine mc)
    | none => .next (s.berthReturn c id))

end Sys2Proof.Machine
end

