-- ==== Sys2Proof/Machine/Update.lean ====
section
/-! DEFINITION. Update programs (13): the program run on one element, parameter groups, the group map, and the undo
journal. -/

namespace Sys2Proof.Machine

/-! ### Programs (R439 to R446) -/

/-- What a program's draws are keyed by: job seed, step, tensor ID, element (R446). -/
structure PKey where
  seed : Nat
  step : Nat
  tid : Nat
  elem : Nat
deriving DecidableEq, Repr

def PKey.draw (k : PKey) (role : Nat) : Nat :=
  keyedDraw k.seed k.step (roundingCtr 0xFFFF (k.tid ^^^ (role * 2 ^ 26)) k.elem)

/-- The operands of an element by operand code (R441); x0 to x7 begin at +0. -/
abbrev PRegs := Tab Nat

def fpHalf : Nat := 0x3F000000
def fpTwo : Nat := 0x40000000
def fpMinusOne : Nat := 0xBF800000

def PRegs.val (r : PRegs) (code : Nat) : Nat :=
  if code = 0x31 then 0x3F800000
  else if code = 0x32 then fpHalf
  else if code = 0x33 then fpTwo
  else if code = 0x34 then fpMinusOne
  else Tab.get r 0 code

/-- A value narrowed to an unscaled floating-point type. -/
def narrowTo (ty : Ty) (rnd : Rnd) (draw : Nat) (x : Nat) : NRes :=
  if ty == .fp32 then NRes.ok x
  else
    let (v, fl) := readNum fmtFP32 x
    let r := convertTo ty rnd (bits draw 0 16) v
    { r with fl := r.fl ||| fl }

def widenTo32 (ty : Ty) (x : Nat) : NRes :=
  match ty.fmt? with
  | some f => if ty == .fp32 then NRes.ok x else widen f fmtFP32 x
  | none => NRes.ok x

/-- The comparison of CSEL (R442). -/
def cselCmp (aux : Nat) : Cmp :=
  match aux with
  | 0 => .lt | 1 => .le | 2 => .eq | 3 => .ne | 4 => .gt | _ => .ge

/-- One operation (R442, R443); `p` is its word. -/
def progOp (k : PKey) (p : Nat) (w : Nat) (a b c : Nat) : NRes :=
  let f := fmtFP32
  let aux := bits w 28 4
  match bits w 0 5 with
  | 0x00 => fAdd f a b
  | 0x01 => fSub f a b
  | 0x02 => fMul f a b
  | 0x03 => fFma f a b c
  | 0x04 => fDiv f a b
  | 0x05 => fSqrt f a
  | 0x06 => fRsqrt f a
  | 0x07 => fMax f a b
  | 0x08 => fMin f a b
  | 0x09 => fAbs f a
  | 0x0A => fSign f a
  | 0x0B => fClamp f a b c
  | 0x0C => let (t, fl) := fCmp (cselCmp aux) f a 0; ⟨if t then b else c, fl, 0⟩
  | 0x0D => fExp f a
  | 0x0E => fLog f a
  | 0x0F =>
    -- one operation (02 R53): a NaN operand leaves no flag of its inner subtraction either
    let d := fSub f b a
    let r := fFma f c d.v a
    if [a, b, c].any (fun x => (decodeRaw f x).isNaN) then NRes.ok f.defaultNaN else { r with fl := r.fl ||| d.fl }
  | _ =>
    let ty := (Ty.ofCode aux).getD .fp32
    let r := narrowTo ty ((Rnd.ofCode (bits w 22 3)).getD .rne) (k.draw (32 + p)) a
    let x := widenTo32 ty r.v
    ⟨x.v, r.fl ||| x.fl, 0⟩

/-- The words of a program from word `p` on, up to END, run on the operands. -/
def progRun (k : PKey) : Nat → List Nat → PRegs → Flags → PRegs × Flags
  | _, [], r, fl => (r, fl)
  | p, w :: ws, r, fl =>
    if bits w 0 5 = 0x1F then (r, fl)
    else
      let x := progOp k p w (r.val (bits w 10 6)) (r.val (bits w 16 6)) (r.val (bits w 22 6))
      progRun k (p + 1) ws (Tab.put r 0 (bits w 5 5) x.v) (fl ||| x.fl)

/-- The words before the first END. -/
def progBody : List Nat → List Nat
  | [] => []
  | w :: r => if bits w 0 5 = 0x1F then [] else w :: progBody r

/-- Whether some word of the program names an operand as DST (R444). -/
def progWrites (ws : List Nat) (code : Nat) : Bool := (progBody ws).any (fun w => bits w 5 5 == code)

/-- Fields that an operation does not use, or a reserved encoding of a word (R440 to R445, R447). -/
def wordBad (w : Nat) : Bool :=
  let op := bits w 0 5
  let d := bits w 5 5
  let a := bits w 10 6
  let b := bits w 16 6
  let c := bits w 22 6
  let aux := bits w 28 4
  let src (x : Nat) : Bool := x ≤ 8 || (0x10 ≤ x && x ≤ 0x17) || (0x20 ≤ x && x ≤ 0x34)
  let dst : Bool := d == 0 || (2 ≤ d && d ≤ 5) || (0x10 ≤ d && d ≤ 0x17)
  if op = 0x1F then w != 0x1F
  else if 0x10 < op then true
  else if op = 0x10 then !dst || !src a || b != 0 || 4 < c || aux == 0 || 4 < aux
  else
    let three := op == 3 || op == 0xB || op == 0xC || op == 0xF
    let two := three || op ≤ 2 || op == 4 || op == 7 || op == 8
    !dst || !src a || (if two then !src b else b != 0) || (if three then !src c else c != 0)
      || (if op = 0xC then 5 < aux else aux != 0)

/-- Whether a program record is one that the hub refuses (R447). -/
def progBad (ws : List Nat) : Bool :=
  ws.any wordBad || (ws.drop (progBody ws).length).any (fun w => bits w 0 5 != 0x1F)

/-! ### Parameter groups and the group map (R448 to R452) -/

/-- A 128-byte group record. -/
abbrev Grp := List Byte

def Grp.f (g : Grp) (off n : Nat) : Nat := leNat ((List.drop off g).take n)
def Grp.prog (g : Grp) : Nat := bits (g.f 0 4) 0 6
def Grp.rnd (g : Grp) : Rnd := (Rnd.ofCode (bits (g.f 0 4) 8 3)).getD .rne
def Grp.frozen (g : Grp) : Bool := bit (g.f 0 4) 11
def Grp.wType (g : Grp) : Ty := (Ty.ofCode (bits (g.f 0 4) 12 4)).getD .fp32
def Grp.nstate (g : Grp) : Nat := bits (g.f 0 4) 16 3
def Grp.aType (g : Grp) (k : Nat) : Ty :=
  (Ty.ofCode (if k = 3 then bits (g.f 4 4) 0 4 else bits (g.f 0 4) (20 + 4 * k) 4)).getD .fp32
def Grp.aOff (g : Grp) (k : Nat) : Nat := bits (g.f 0x18 8) (12 * k) 12
def Grp.t (g : Grp) : Nat := g.f 0x10 8

/-- The words of program `n` of a partition. -/
def State.program (s : State) (p n : Nat) : List Nat :=
  (List.range 32).map (fun i => s.hubNum p (s.fld (STEP_UPD_TABLES_PROGS p) + 128 * n + 4 * i) 4)

def State.groupRec (s : State) (p n : Nat) : Grp :=
  (s.hubPeek p (s.fld (STEP_UPD_TABLES_GROUPS p) + 128 * n) 128).getD []

/-- The group of an element of a bucket or a row of a table, by the group map (R451, R452). -/
def State.groupOf (s : State) (p kind obj x : Nat) : Option Nat :=
  let base := s.fld (STEP_UPD_TABLES_MAP p)
  let es := (List.range (s.fld (STEP_UPD_CFG_NMAP p))).map (fun i =>
    (s.hubNum p (base + 16 * i) 8, s.hubNum p (base + 16 * i + 8) 8))
  let mine := es.filter (fun e => bits e.1 56 1 == kind && bits e.2 0 16 == obj && bits e.1 0 48 ≤ x)
  mine.getLast?.map (fun e => bits e.1 48 8)

/-- The program of a group run on one element: parameter, gradient as it comes from its reduction, state slots, all
as stored; what is written back, by operand code, and the flags (R444, R446, R89). -/
def State.runElem (s : State) (p : Nat) (ws : List Nat) (g : Grp) (k : PKey) (wTy : Ty) (w grad : Nat) (a : List Nat) :
    List (Nat × Nat) × Flags :=
  let e := if s.on (NUM_LS_CTRL_EN p) then signed 8 (s.fld (NUM_LS_STATE_E p)) else 0
  let (gv, gf) := readNum fmtFP32 grad
  let gr := encodeRes fmtFP32 (scaleVal gv (-e)) false
  let w0 := widenTo32 wTy w
  let as := (List.range g.nstate).map (fun i => widenTo32 (g.aType i) (a.getD i 0))
  let init : PRegs :=
    let r := Tab.put (Tab.put [] 0 0 w0.v) 0 1 gr.v
    let r := (List.range g.nstate).foldl (fun r i => Tab.put r 0 (2 + i) ((as.map NRes.v).getD i 0)) r
    let r := Tab.put (Tab.put (Tab.put r 0 6 (g.f 8 4)) 0 7 (g.f 0xC 4)) 0 8 (countF (g.t + 1)).v
    (List.range 16).foldl (fun r i => Tab.put r 0 (0x20 + i) (g.f (0x20 + 4 * i) 4)) r
  let fl := gf ||| gr.fl ||| w0.fl ||| (as.map NRes.fl).foldl (· ||| ·) 0
  let (r, fl) := progRun k 0 ws init fl
  let outs := ((0 :: (List.range g.nstate).map (· + 2)).filter (progWrites ws)).map (fun c =>
    (c, narrowTo (if c = 0 then wTy else g.aType (c - 2)) g.rnd (k.draw (if c = 0 then 0 else c - 1)) (r.val c)))
  (outs.map (fun o => (o.1, o.2.v)), fl ||| (outs.map (fun o => o.2.fl)).foldl (· ||| ·) 0)

/-- Whether a stored encoding is NaN or infinite. -/
def storedNF (ty : Ty) (x : Nat) : Bool :=
  match ty.fmt? with
  | some f => !(decodeRaw f x).isFinite
  | none => false

/-- Whether an FP32 value is NaN or infinite (12 R422). -/
def isNF32 (x : Nat) : Bool := !(decodeRaw fmtFP32 x).isFinite

/-! ### The undo journal (R461 to R464) -/

/-- A region of the journal: partition, site, section (R464). -/
def jnlRegion (p site sec : Nat) : Nat := (p * 4 + site) * 8 + sec

/-- The bytes of an entry (R462). -/
def jnlBytes (e : JEnt) : List Byte :=
  leBytes 8 e.step ++ leBytes 8 (e.va % 2 ^ 48) ++ leBytes 4 e.cells.length ++ leBytes 4 e.site ++ leBytes 8 e.seq
    ++ e.cells.map Prod.snd

/-- An entry recorded, and its bytes, with where they go in its region of the pound (R462). -/
def State.jnlEntry (s : State) (p site sec step va at_ : Nat) (cells : List (Nat × Byte)) : List (Nat × Byte) × State :=
  let seq := (s.b.journal.filter (fun e => e.part == p && e.site == site && e.sec == sec)).length
  let e : JEnt := ⟨p, site, sec, step, seq, va, cells⟩
  let b := jnlBytes e
  (((List.range b.length).map (· + at_)).zip b, { s with b := { s.b with journal := s.b.journal ++ [e] } })

/-- Space for `n` bytes taken in a region: its place. -/
def State.jnlTake (s : State) (r n : Nat) : Nat × State :=
  let at_ := Tab.get s.b.jnlAt 0 r
  (at_, { s with b := { s.b with jnlAt := Tab.put s.b.jnlAt 0 r (at_ + n) } })

/-- An entry written by a port engine group or the hub before the bytes that it saves (R461): its codewords merged and encoded anew
(08 R281), its requests at the arbiters. -/
def State.journal (s : State) (p site sec step va : Nat) (cells : List (Nat × Byte)) : State :=
  let (at_, s) := s.jnlTake (jnlRegion p site sec) (32 + cells.length)
  let (b, s) := s.jnlEntry p site sec step va at_ cells
  (s.writeKeys' (if site = 0 then 8 else 7) b).2

/-- The whole 64-byte units that `n` bytes at a virtual address touch, saved. -/
def State.journalUnits (s : State) (p site sec step va n : Nat) : State :=
  let v := va / 64 * 64
  match s.hubKeys p v (roundUp (va + n) 64 - v) with
  | none => s
  | some ks => s.journal p site sec step v (ks.map (fun k => (k, s.m.mem.rd k)))

/-- Journal bytes that the row parts of a section's pound hold. -/
def State.rowJournal (s : State) (p sec : Nat) : Nat :=
  ((s.b.journal.filter (fun e => e.part == p && e.site == 2 && e.sec == sec)).map (fun e => 32 + e.cells.length)).foldl (· + ·) 0

/-- The journal played back: entries of site 3 first, each region in falling order (R463). -/
def State.restoreJournal (s : State) (p : Nat) : State :=
  let mine := s.b.journal.filter (fun e => e.part == p)
  let order := (mine.filter (fun e => e.site == 3)).reverse ++ (mine.filter (fun e => e.site != 3)).reverse
  order.foldl (fun s e => (s.writeKeys' 7 e.cells).2) s

def State.dropJournal (s : State) (p : Nat) : State :=
  { s with b := { s.b with journal := s.b.journal.filter (fun e => e.part != p) } }

/-- Non-finite final writes counted (R459). -/
def State.countNF (s : State) (p : Nat) (outs : List (Ty × Nat)) : State :=
  s.count (STEP_UPD_STATUS_NF_WRITES p) (outs.filter (fun o => storedNF o.1 o.2)).length

end Sys2Proof.Machine
end

