-- ==== Sys2Proof/Machine/Base.lean ====
section
/-! DEFINITION. The base engines (08 R298 to R307, 09 R320 to R324, R332 to R334, 10 R364, R371, 13 R460): a command runs
at one event and completes at another; each row is read and written whole (R304). -/

namespace Sys2Proof.Machine

/-! ### Table slots (R298, R299) -/

/-- A table slot as its registers hold it. -/
structure Slot where
  part : Nat
  ty : Ty
  elems : Nat
  recBytes : Nat
  off : Nat
  base : Nat
  rows : Nat
  verOff : Nat
deriving DecidableEq, Repr

/-- The bytes of a row vector. -/
def Slot.vecBytes (x : Slot) : Nat := x.elems * (x.ty.bits / 8)

/-- A slot that is VALID and whose fields lie in their ranges; one that is not is unusable. -/
def State.slot (s : State) (st t : Nat) : Option Slot :=
  let vt := s.fld (SB_TABLE_VEC_TYPE st t)
  let x : Slot :=
    { part := s.fld (SB_TABLE_PART st t), ty := (Ty.ofCode vt).getD .fp32, elems := s.fld (SB_TABLE_VEC_ELEMS st t)
      recBytes := s.fld (SB_TABLE_REC_UNITS st t) * 64, off := s.fld (SB_TABLE_VEC_OFF st t)
      base := s.fld (SB_TABLE_BASE st t), rows := s.fld (SB_TABLE_ROWS st t), verOff := s.fld (SB_TABLE_VER_OFF st t) }
  if s.on (SB_TABLE_VALID st t) && vt ≤ 4 && x.elems != 0 && x.elems ≤ 4096 && x.recBytes != 0
      && decide (x.off + x.vecBytes ≤ x.recBytes) && x.base % 64 == 0
      && decide (x.base + x.rows * x.recBytes ≤ s.stackBytes) then some x else none

def Slot.key (x : Slot) (st row : Nat) : Nat := keyStack st (x.base + row * x.recBytes)

/-- The owner engine of a row: the XOR of the 4-bit groups of its stack address (R299). -/
def ownerEngine (a : Nat) : Nat :=
  ([6, 10, 14, 18, 22, 26, 30].map (fun i => bits a i 4)).foldl (· ^^^ ·) (bits a 34 2)

/-! ### Commands -/

/-- The engine that holds a command asks for bytes of memory (assumption 60). -/
def State.askOwn (s : State) (x : BCmd) (write : Bool) (cells : List (Nat × Byte)) : State :=
  s.askCells (9 + x.core % 16 / 4) (16 * x.stack + x.core % 16) (.base x.id) write cells

/-- The access of a command to bytes of a row, asked for by the row's owner engine on its requester port (R286, R299). -/
def State.askRow (s : State) (st id : Nat) (write : Bool) (sl : Slot) (row off len : Nat) : State :=
  let e := ownerEngine (sl.base + row * sl.recBytes)
  s.ask (9 + e / 4) (16 * st + e) (.base id) write (seqKeys (sl.key st row + off) len)

/-- The bytes of the load counter of a slot's row (10 R371). -/
def State.loadKeys (s : State) (st t row : Nat) : List Nat :=
  seqKeys (keyStack st (s.fld (SB_LOAD_LOAD_BASE st t) * 64) + 4 * (row / 65536)) 4

/-- The bytes of the sample's entry for the `n`-th access of a slot, where the sample keeps it: the ring of 4,096 entries
stands behind the counters (10 R371). -/
def State.sampleKeys (s : State) (st t rows n : Nat) : List Nat :=
  let every := 2 ^ s.fld (SB_LOAD_SAMPLE_LOG2 st t)
  if n % every = 0 then
    seqKeys (keyStack st (s.fld (SB_LOAD_LOAD_BASE st t) * 64) + roundUp (4 * ((rows + 65535) / 65536)) 64
      + (n / every - 1) % 4096 * 8) 8
  else []

/-- The writes of a row's load counter and of its entry in the sample, asked for by the row's owner engine: the row is the
`i`-th of the command, from 0 (08 R281, 10 R371). -/
def State.askLoad (s : State) (x : BCmd) (sl : Slot) (row i : Nat) : State :=
  if s.on (SB_LOAD_EN x.stack x.hdr.table) then
    let e := ownerEngine (sl.base + row * sl.recBytes)
    let n := Tab.get s.b.loadN 0 (64 * x.stack + x.hdr.table) + i + 1
    [s.loadKeys x.stack x.hdr.table row, s.sampleKeys x.stack x.hdr.table sl.rows n].foldl (fun s ks =>
      s.ask (9 + e / 4) (16 * x.stack + e) (.base x.id) true ks) s
  else s

/-- Whether requests of a command still wait for a grant (01 R40). -/
def State.cmdAsks (s : State) (id : Nat) : Bool := s.m.reqs.any (fun (r : Req) => r.use == .base id)

def State.updCmd (s : State) (x : BCmd) : State :=
  { s with b := { s.b with cmds := s.b.cmds.map (fun (y : BCmd) => if y.id == x.id then x else y) } }

/-- Whether a command is rejected as a whole (R305, R300). -/
def State.cmdRejected (s : State) (x : BCmd) : Bool :=
  match s.slot x.stack x.hdr.table, s.corePart x.core with
  | some sl, some p =>
    x.hdr.bad || sl.part != p || s.partState p == ptFenced
      || (match x.hdr.op with
        | 0 => x.hdr.outType != sl.ty.code
        | 1 => 2 < x.hdr.outType && !(x.stream.isSome && x.hdr.outType ≤ 4)
        | _ => x.hdr.outType != 0)
      || (x.stream.isSome && sl.elems != 256)
  | _, _ => true

/-- Bytes of a command's results (R300, R301). -/
def outBytes (h : BHdr) (sl : Slot) : Nat :=
  if h.op = 0 then h.nidx * sl.vecBytes
  else if h.op = 1 then h.nseg * sl.elems * (((Ty.ofCode h.outType).getD .fp32).bits / 8) else 0

/-- The payload of a command in the requester's local memory (R300, R320). -/
def State.payloadOf (s : State) (x : BCmd) (sl : Slot) : BPay :=
  match x.pay with
  | some p => p
  | none =>
    let h := x.hdr
    let wOff := x.off + 64 + roundUp (8 * h.nidx) 64
    let eOff := if h.op = 1 ∧ h.poolOp = 1 then wOff + roundUp (4 * h.nidx) 64 else wOff
    let gsz := ((Ty.ofCode h.gtype).getD .fp32).bits / 8
    let gLen := if 2 ≤ h.op then h.nidx * sl.elems * gsz else 0
    let fin := eOff + (if h.op = 1 then 4 * h.nseg else gLen)
    let out := outBytes h sl
    let lim := if h.dest = 1 then sharedBytes else ownBytes x.core
    let k (o : Nat) : Nat := keyOwn x.core o
    { idx := (List.range h.nidx).map (fun j => s.rd (k (x.off + 64 + 8 * j)) 8)
      ws := if h.op = 1 ∧ h.poolOp = 1 then (List.range h.nidx).map (fun j => s.rd (k (wOff + 4 * j)) 4) else []
      ends := if h.op = 1 then (List.range h.nseg).map (fun j => s.rd (k (eOff + 4 * j)) 4) else []
      grads := s.rdB (k eOff) gLen
      bad := decide (ownBytes x.core < fin) || (h.dest < 2 && decide (lim < h.destOff + out)) }

/-- Segment ends that fall or pass the list. -/
def endsBad (nidx : Nat) : Nat → List Nat → Bool
  | _, [] => false
  | lo, e :: r => decide (e < lo) || decide (nidx < e) || endsBad nidx e r

/-! ### Row parts -/

/-- The row kept in a slot's load sample. -/
def State.sampleLoad (s : State) (st t row rows n : Nat) : State :=
  (s.writeNow ((s.sampleKeys st t rows n).zip (leBytes 8 row))).2

/-- The load counter of a slot's row, and its sample (10 R371). -/
def State.countLoad (s : State) (st t row rows : Nat) : State :=
  if s.on (SB_LOAD_EN st t) then
    let ks := s.loadKeys st t row
    let s := (s.writeNow (ks.zip (leBytes 4 (satAdd 32 (leNat (ks.map s.m.mem.rd)) 1)))).2
    let n := Tab.get s.b.loadN 0 (64 * st + t) + 1
    State.sampleLoad { s with b := { s.b with loadN := Tab.put s.b.loadN 0 (64 * st + t) n } } st t row rows n
  else s

/-- An invalid index counted (10 R364). -/
def State.countInvalid (s : State) (st t pos tensor : Nat) : State :=
  let s := s.count (TBL_INVALID_IDX_COUNT st t) 1
  if s.on (TBL_INVALID_POS_FIRST_VALID st t) then s
  else
    ((s.setFld (TBL_INVALID_POS_POS st t) pos).setFld (TBL_INVALID_POS_TENSOR_ID st t) tensor).setFld
      (TBL_INVALID_POS_FIRST_VALID st t) 1

/-- A row's part read through its owner (R304): its requests have been granted and its codewords corrected then (R282); none where
one has become uncorrectable since (R284). -/
def State.readRow (s : State) (st t : Nat) (sl : Slot) (row off len : Nat) : Option (List Byte) × State :=
  let ks := seqKeys (sl.key st row + off) len
  match (burstsOf ks).find? (fun b => s.lost [64 * b]) with
  | some b => (none, s.stackUE (64 * b))
  | none => (some (ks.map s.m.mem.rd), s.countLoad st t row sl.rows)

/-- The vectors of the rows of a list: none for an invalid index. -/
def State.readRows (s : State) (x : BCmd) (sl : Slot) : List (Nat × Nat) → Option (List (Option (List Byte))) × State
  | [] => (some [], s)
  | (j, i) :: r =>
    if sl.rows ≤ i then
      match (s.countInvalid x.stack x.hdr.table j x.hdr.tensor).readRows x sl r with
      | (some l, s) => (some (none :: l), s)
      | (none, s) => (none, s)
    else
      match s.readRow x.stack x.hdr.table sl i sl.off sl.vecBytes with
      | (none, s) => (none, s)
      | (some d, s) =>
        match s.readRows x sl r with
        | (some l, s) => (some (some d :: l), s)
        | (none, s) => (none, s)

/-- The elements of a row vector. -/
def vecEls (ty : Ty) (n : Nat) (d : List Byte) : List Nat :=
  let v := leNat d
  (List.range n).map (fun e => bits v (e * ty.bits) ty.bits)

def elBytes (ty : Ty) (l : List Nat) : List Byte := leBytes (l.length * (ty.bits / 8)) (packElems ty.bits l)

/-! ### POOL (R301) -/

/-- One row added to a pool: running values and flags; `acc` is empty before the first valid row. -/
def poolStep (op : Nat) (ty : Ty) (n : Nat) (w : Nat) (acc : Option (List Nat) × Flags) (d : List Byte) :
    Option (List Nat) × Flags :=
  let f := fmtFP32
  let xs := (vecEls ty n d).map (widenTo32 ty)
  let xf := (xs.map NRes.fl).foldl (· ||| ·) 0
  let go (a : List Nat) (g : Nat → Nat → NRes) : Option (List Nat) × Flags :=
    let rs := List.zipWith g a (xs.map NRes.v)
    (some (rs.map NRes.v), (rs.map NRes.fl).foldl (· ||| ·) (acc.2 ||| xf))
  match op, acc.1 with
  | 3, none =>
    let rs := xs.map (fun x => readMax .fp32 x.v)
    (some (rs.map NRes.v), (rs.map NRes.fl).foldl (· ||| ·) (acc.2 ||| xf))
  | 3, some a => go a (fMax f)
  | 1, a => go (a.getD (List.replicate n 0)) (fun a x => fFma f w x a)
  | _, a => go (a.getD (List.replicate n 0)) (fAdd f)

/-- The pool of one segment: list positions `lo` to `hi − 1`. -/
def poolSeg (h : BHdr) (sl : Slot) (rows : List (Option (List Byte))) (ws : List Nat) (lo hi : Nat) :
    Option (List Nat) × Flags × Nat :=
  let here := (List.range (hi - lo)).filterMap (fun i => (rows.getD (lo + i) none).map (fun d => (ws.getD (lo + i) 0, d)))
  let (acc, fl) := here.foldl (fun acc e => poolStep h.poolOp sl.ty sl.elems e.1 acc e.2) (none, 0)
  if h.poolOp = 2 then
    match acc with
    | none => (none, fl, 0)
    | some a =>
      let rs := a.map (fun x => fDiv fmtFP32 x (countF here.length).v)
      (some (rs.map NRes.v), (rs.map NRes.fl).foldl (· ||| ·) fl, here.length)
  else (acc, fl, here.length)

/-- A pooled row narrowed to OUT_TYPE (R301, R303): element indices count from the output row. -/
def poolOut (h : BHdr) (seed row n : Nat) (ty : Ty) (acc : Option (List Nat)) : List Byte × Flags :=
  match acc with
  | none => (List.replicate (n * (ty.bits / 8)) 0, 0)
  | some a =>
    let rnd := (Rnd.ofCode h.rnd).getD .rne
    let draw (e : Nat) : Nat :=
      if h.rnd = 4 then keyedDraw seed h.step (roundingCtr h.vslot h.tensor (row * n + e)) else 0
    let rs := (a.zip (List.range n)).map (fun x => narrowTo ty rnd (draw x.2) x.1)
    (elBytes ty (rs.map NRes.v), (rs.map NRes.fl).foldl (· ||| ·) 0)

/-- The segments of a pool, in order. -/
def poolRows (h : BHdr) (sl : Slot) (seed : Nat) (rows : List (Option (List Byte))) (ws : List Nat) :
    Nat → Nat → List Nat → List (List Byte) × Flags
  | _, _, [] => ([], 0)
  | k, lo, e :: r =>
    let (acc, fl, _) := poolSeg h sl rows ws lo e
    let (d, fl') := poolOut h seed k sl.elems ((Ty.ofCode h.outType).getD .fp32) acc
    let (l, fl'') := poolRows h sl seed rows ws (k + 1) e r
    (d :: l, fl ||| fl' ||| fl'')

/-! ### A command runs -/

def countNone {α : Type} (l : List (Option α)) : Nat := (l.filter Option.isNone).length

/-- A command that has run, or that has met an uncorrectable error. -/
def State.cmdDone (s : State) (x : BCmd) (d : Option BDone) : State :=
  match d with
  | none => s.updCmd { x with dead := true }
  | some d => s.updCmd { x with done := some d }

/-- The destination of a command's results (R306): those for shared memory are requests that its arbiters serve (01 R26). -/
def State.putRows (s : State) (x : BCmd) (rows : List (List Byte)) : State :=
  let d := rows.flatMap id
  if x.hdr.dest = 0 then s.wrB (keyOwn x.core x.hdr.destOff) d
  else if x.hdr.dest = 1 then
    s.askOwn x true ((seqKeys (keyShared (clusterOf x.core) x.hdr.destOff) d.length).zip d)
  else s

/-- GATHER and POOL (R301). -/
def State.runRead (s : State) (x : BCmd) (sl : Slot) (p : BPay) : State :=
  match s.readRows x sl ((List.range p.idx.length).zip p.idx) with
  | (none, s) => s.cmdDone x none
  | (some rows, s) =>
    let (out, fl) := if x.hdr.op = 0 then (rows.map (fun r => r.getD (List.replicate sl.vecBytes 0)), (0 : Flags))
      else poolRows x.hdr sl (s.fld (SB_JOB_SEED_SEED x.stack sl.part)) rows p.ws 0 0 p.ends
    let s := if x.thread = 32 then s else s.putRows x out
    s.cmdDone x (some ⟨0, countNone rows, fl, if x.stream.isSome then out else []⟩)

/-- The bytes of gradient row `j` of a payload, as FP32 elements with the flags of their widening. -/
def gradRow (h : BHdr) (n : Nat) (grads : List Byte) (j : Nat) : List NRes :=
  let ty := (Ty.ofCode h.gtype).getD .fp32
  let sz := n * (ty.bits / 8)
  (vecEls ty n ((grads.drop (j * sz)).take sz)).map (widenTo32 ty)

/-- One valid row of a scatter: the bytes that the row had, with the gradient at list position `j` added to its vector and
rounded; the flags of its elements. -/
def State.scatterRow (s : State) (x : BCmd) (sl : Slot) (p : BPay) (seed j i : Nat) (d : List Byte) : Flags × State :=
  let old := (vecEls sl.ty sl.elems ((d.drop sl.off).take sl.vecBytes)).map (widenTo32 sl.ty)
  let gs := gradRow x.hdr sl.elems p.grads j
  let rnd := (Rnd.ofCode x.hdr.rnd).getD .rne
  let draw (e : Nat) : Nat :=
    if x.hdr.rnd = 4 then keyedDraw seed x.hdr.step (roundingCtr x.hdr.vslot x.hdr.tensor (i * sl.elems + e)) else 0
  let rs := ((old.zip gs).zip (List.range sl.elems)).map (fun e =>
    let a := fAdd fmtFP32 e.1.1.v e.1.2.v
    let n := narrowTo sl.ty rnd (draw e.2) a.v
    (n.v, e.1.1.fl ||| e.1.2.fl ||| a.fl ||| n.fl))
  let key := sl.key x.stack i
  let s := (burstsOf (seqKeys key sl.recBytes)).foldl (fun s b => s.setSymbols b 0) s
  ((rs.map Prod.snd).foldl (· ||| ·) 0, s.wrB (key + sl.off) (elBytes sl.ty (rs.map Prod.fst)))

/-- SCATTER_ADD on the rows of a list (R301, R303, R304): invalid indices, flags. -/
def State.scatterRows (s : State) (x : BCmd) (sl : Slot) (p : BPay) (seed : Nat) :
    List (Nat × Nat) → Option (Nat × Flags) × State
  | [] => (some (0, 0), s)
  | (j, i) :: r =>
    if sl.rows ≤ i then
      match (s.countInvalid x.stack x.hdr.table j x.hdr.tensor).scatterRows x sl p seed r with
      | (some (n, fl), s) => (some (n + 1, fl), s)
      | (none, s) => (none, s)
    else
      match s.readRow x.stack x.hdr.table sl i 0 sl.recBytes with
      | (none, s) => (none, s)
      | (some d, s) =>
        match (s.scatterRow x sl p seed j i d).2.scatterRows x sl p seed r with
        | (some (n, fl), u) => (some (n, (s.scatterRow x sl p seed j i d).1 ||| fl), u)
        | (none, u) => (none, u)

def State.runScatter (s : State) (x : BCmd) (sl : Slot) (p : BPay) : State :=
  match s.scatterRows x sl p (s.fld (SB_JOB_SEED_SEED x.stack sl.part)) ((List.range p.idx.length).zip p.idx) with
  | (none, s) => s.cmdDone x none
  | (some (n, fl), s) => s.cmdDone x (some ⟨0, n, fl, []⟩)

/-! ### ROW_UPDATE (13 R446, R460 to R464, 14 R487) -/

/-- The addresses of the table descriptors that CL_TABLE registers of a section's clusters name. -/
def State.sectionDescs (s : State) (sec : Nat) : List Nat :=
  ((List.range 5).flatMap (fun c => (List.range 64).filterMap (fun t =>
    if s.on (CL_TABLE_VALID (5 * sec + c) t) then some (s.fld (CL_TABLE_DESC (5 * sec + c) t) * 64) else none))).eraseDups

/-- The tables of a section: TABLE_ID, FIRST_SLOT, LOC_BASE, OVR_BASE, OVR_LOG2 of the descriptors that CL_TABLE
registers of its clusters name. -/
def State.sectionTables (s : State) (p sec : Nat) : List (List Byte) :=
  (s.sectionDescs sec).filterMap (fun va => s.hubPeek p va 128)

/-- The table row that row `q` of a table slot holds (10 R343, R346, R347): TABLE_ID and row number. -/
def State.tableRow (s : State) (p st t q : Nat) (d : List Byte) : Option (Nat × Nat) :=
  let locs := (List.range 16384).map (fun i => (i, s.hubNum p (hdF d 0x18 6 + 16 * i) 8, s.hubNum p (hdF d 0x18 6 + 16 * i + 8) 8))
  let here (w : Nat) : Bool := bit w 0 && bits w 1 3 == st && bits w 4 6 == t && bits w 16 40 ≤ q
  let best (l : List (Nat × Nat)) : Option (Nat × Nat) :=
    l.foldl (fun b e => match b with
      | none => some e
      | some x => if bits x.2 16 40 < bits e.2 16 40 then some e else some x) none
  let home := best ((locs.filter (fun e => here e.2.1)).map (fun e => (e.1, e.2.1)))
  let arr := best ((locs.filter (fun e => here e.2.2)).map (fun e => (e.1, e.2.2)))
  let ofHome (e : Nat × Nat) : Nat × Nat :=
    let ir := q - bits e.2 16 40
    let k := ir / 65536 * 16384 + (e.1 + 16384 - bits (hdF d 0x10 4) 0 14) % 16384
    (hdF d 2 2, k * 65536 + ir % 65536)
  let ofArr (e : Nat × Nat) : Option (Nat × Nat) :=
    let n := bits (hdF d 0x20 8) 48 5
    ((List.range (if n = 0 then 0 else 2 ^ n)).findSome? (fun i =>
      let a := bits (hdF d 0x20 8) 0 48 + 16 * i
      let w := s.hubNum p a 8
      let v := s.hubNum p (a + 8) 8
      if w != 0xFFFFFFFFFFFF && bits v 0 40 == q - bits e.2 16 40 && bits v 40 14 == e.1 then some (hdF d 2 2, w) else none))
  match home, arr with
  | some h, some a => if bits h.2 16 40 < bits a.2 16 40 then ofArr a else some (ofHome h)
  | some h, none => some (ofHome h)
  | none, some a => ofArr a
  | none, none => none

def State.tableRowOf (s : State) (p st t q : Nat) : Option (Nat × Nat) :=
  (s.sectionTables p st).findSome? (fun d => s.tableRow p st t q d)

/-- A part of a ROW_UPDATE: list position, slot row, TABLE_ID, table row, group. -/
structure RowPart where
  j : Nat
  row : Nat
  tid : Nat
  trow : Nat
  grp : Grp

/-- The tables that the engines read for a ROW_UPDATE: the descriptors of the section's tables with their locators and override
entries, the group map, the group table and the program, each an address and its bytes. -/
def State.updateTables (s : State) (p st prog : Nat) : List (Nat × Nat) :=
  (s.sectionDescs st).map (fun va => (va, 128))
    ++ (s.sectionTables p st).flatMap (fun d =>
      let n := bits (hdF d 0x20 8) 48 5
      [(hdF d 0x18 6, 16 * 16384), (bits (hdF d 0x20 8) 0 48, if n = 0 then 0 else 16 * 2 ^ n)])
    ++ [(s.fld (STEP_UPD_TABLES_MAP p), 16 * s.fld (STEP_UPD_CFG_NMAP p)),
        (s.fld (STEP_UPD_TABLES_GROUPS p), 128 * s.fld (STEP_UPD_CFG_NGROUP p)),
        (s.fld (STEP_UPD_TABLES_PROGS p) + 128 * prog, 128)]

/-- The bytes of those tables and of the page tables on the way to them, by key. -/
def State.updateKeys (s : State) (p st prog : Nat) : List Nat :=
  (s.updateTables p st prog).flatMap (fun e =>
    ((pagesOf e.1 e.2).flatMap (s.trailRoot p)).flatMap (fun k => seqKeys k 8) ++ (s.hubKeys p e.1 e.2).getD [])

/-- The reads of those tables, asked for by the engine that holds the command; their codewords are checked as they are served (08
R282, R284). -/
def State.askTables (s : State) (x : BCmd) (p : Nat) : State :=
  s.askOwn x false ((dedup (s.updateKeys p x.stack x.hdr.prog)).map (·, 0))

/-- The parts of the valid rows; none where a row belongs to no group (R452, R460). -/
def State.rowParts (s : State) (x : BCmd) (sl : Slot) (p : Nat) : List (Nat × Nat) → Option (List RowPart)
  | [] => some []
  | (j, i) :: r =>
    if sl.rows ≤ i then s.rowParts x sl p r
    else
      match s.tableRowOf p x.stack x.hdr.table i with
      | none => none
      | some (tid, tr) =>
        match s.groupOf p 1 tid tr with
        | none => none
        | some g => (s.rowParts x sl p r).map (fun l => ⟨j, i, tid, tr, s.groupRec p g⟩ :: l)

/-- Whether a ROW_UPDATE is rejected for its groups (R460). -/
def partsBad (prog : Nat) (l : List RowPart) : Bool :=
  l.any (fun r => r.grp.prog != prog) || (l.any (fun r => r.grp.frozen) && !l.all (fun r => r.grp.frozen))

/-- SHA-256 of a record with its table and row, as a number (14 R487). -/
def rowHash (tid trow : Nat) (d : List Byte) : Nat := leNat (shaBytes (leBytes 2 tid ++ leBytes 8 trow ++ d))

/-- Bytes of a record replaced at an offset. -/
def putAt (d : List Byte) (off : Nat) (x : List Byte) : List Byte := d.take off ++ x ++ d.drop (off + x.length)

/-- The record after its program has run on every element, and its version rises (R301, R444). -/
def State.updRecord (s : State) (x : BCmd) (sl : Slot) (p : Nat) (r : RowPart) (ws : List Nat) (g : List Nat) (d : List Byte) :
    List Byte × Flags × List (Ty × Nat) :=
  let grp := r.grp
  let aOf (k : Nat) : List Nat :=
    vecEls (grp.aType k) sl.elems ((d.drop (grp.aOff k)).take (sl.elems * ((grp.aType k).bits / 8)))
  let wv := vecEls sl.ty sl.elems ((d.drop sl.off).take sl.vecBytes)
  let av := (List.range grp.nstate).map aOf
  let outs := (List.range sl.elems).map (fun e =>
    s.runElem p ws grp ⟨s.fld (SB_JOB_SEED_SEED x.stack sl.part), x.hdr.step, x.hdr.tensor, r.trow * sl.elems + e⟩ sl.ty
      (wv.getD e 0) (g.getD e 0) (av.map (fun l => l.getD e 0)))
  let fl := (outs.map Prod.snd).foldl (· ||| ·) 0
  let col (c : Nat) (old : List Nat) : List Nat :=
    (old.zip outs).map (fun e => (((e.2.1.find? (fun o => o.1 == c)).map Prod.snd).getD e.1))
  let d := putAt d sl.off (elBytes sl.ty (col 0 wv))
  let d := (List.range grp.nstate).foldl (fun d k =>
    putAt d (grp.aOff k) (elBytes (grp.aType k) (col (2 + k) (av.getD k [])))) d
  let d := putAt d sl.verOff (leBytes 2 (leNat ((d.drop sl.verOff).take 2) + 1))
  let tys := outs.flatMap (fun o => o.1.map (fun e => (if e.1 = 0 then sl.ty else grp.aType (e.1 - 2), e.2)))
  (d, fl, tys)

/-- The bytes of the journal entry of a row part (13 R462). -/
def Slot.jnlLen (x : Slot) : Nat := 32 + x.recBytes

/-- The journal entry of a row part written at its place, whose requests have been granted (13 R461); false where one of its codewords
is uncorrectable. -/
def State.journalPart (s : State) (x : BCmd) (sl : Slot) (p at_ row : Nat) (d : List Byte) : Bool × State :=
  let key := sl.key x.stack row
  let e := s.jnlEntry p 2 x.stack x.hdr.step (s.recordVa p key) at_ ((seqKeys key sl.recBytes).zip d)
  e.2.writeNow e.1

/-- One row part applied to the record that the row had, after its journal entry: its program, the record written, the digest's
change; the flags. -/
def State.applyPart (s : State) (x : BCmd) (sl : Slot) (p : Nat) (ws : List Nat) (pay : BPay) (r : RowPart) (d : List Byte) :
    Flags × State :=
  let gs := gradRow x.hdr sl.elems pay.grads r.j
  let g := gs.map NRes.v
  let key := sl.key x.stack r.row
  let ks := seqKeys key sl.recBytes
  let (d', fl, outs) := s.updRecord x sl p r ws g d
  let s := (burstsOf ks).foldl (fun s b => s.setSymbols b 0) s
  let s := (s.wrB key d').countNF p outs
  let td := Tab.get s.b.tdelta 0 p + 2 ^ 256 + rowHash r.tid r.trow d' - rowHash r.tid r.trow d
  (fl ||| (gs.map NRes.fl).foldl (· ||| ·) 0, { s with b := { s.b with
    tdelta := Tab.put s.b.tdelta 0 p (td % 2 ^ 256)
    touched := if s.b.touched.contains (p, r.tid, r.trow) then s.b.touched else s.b.touched ++ [(p, r.tid, r.trow)] } })

/-- The parts applied in list order (R301, R304), their journal entries one after the other from `at_` on. -/
def State.applyParts (s : State) (x : BCmd) (sl : Slot) (p at_ : Nat) (ws : List Nat) (pay : BPay) :
    List RowPart → Option Flags × State
  | [] => (some 0, s)
  | r :: rest =>
    match s.readRow x.stack x.hdr.table sl r.row 0 sl.recBytes with
    | (none, s) => (none, s)
    | (some d, s) =>
      match s.journalPart x sl p at_ r.row d with
      | (false, s) => (none, s)
      | (true, s) =>
        match (s.applyPart x sl p ws pay r d).2.applyParts x sl p (at_ + sl.jnlLen) ws pay rest with
        | (none, u) => (none, u)
        | (some fl, u) => (some ((s.applyPart x sl p ws pay r d).1 ||| fl), u)

/-- The parts that a ROW_UPDATE applies, those of groups that are not frozen; none where its groups have it rejected
(R460). -/
def State.updateParts (s : State) (x : BCmd) (sl : Slot) (pay : BPay) : Option (List RowPart) :=
  match s.rowParts x sl sl.part ((List.range pay.idx.length).zip pay.idx) with
  | none => none
  | some parts => if partsBad x.hdr.prog parts then none else some (parts.filter (fun r => !r.grp.frozen))

/-- Whether the row budget of the section holds the journal entries of some parts (R464). -/
def State.journalFits (s : State) (x : BCmd) (sl : Slot) (live : List RowPart) : Bool :=
  decide (s.rowJournal sl.part x.stack + live.length * sl.jnlLen
    ≤ s.fld (STEP_JNL_CFG_ROW_BUDGET sl.part) * 2 ^ 20)

/-- ROW_UPDATE (13 R460, R464); a partition that serves makes no update (14 R492). -/
def State.runUpdate (s : State) (x : BCmd) (sl : Slot) (pay : BPay) : State :=
  let p := sl.part
  let nf := (List.range pay.idx.length).any (fun j => ((gradRow x.hdr sl.elems pay.grads j).map NRes.v).any isNF32)
  let s := if nf then s.setFld (STEP_VOTE_LOCAL_NF p) 1 else s
  if s.on (STEP_CFG_SERVE p) then s.cmdDone x (some ⟨1, 0, 0, []⟩)
  else
  match s.updateParts x sl pay with
  | none => s.cmdDone x (some ⟨1, 0, 0, []⟩)
  | some live =>
    if !s.journalFits x sl live then
      let s := s.count (STEP_UPD_STATUS_JNL_REJECT p) 1
      let s := { s with b := { s.b with jnlFail := s.b.jnlFail.filter (· != p) ++ [p] } }
      s.cmdDone x (some ⟨1, 0, 0, []⟩)
    else
      let bad := ((List.range pay.idx.length).zip pay.idx).filter (fun e => sl.rows ≤ e.2)
      let s := bad.foldl (fun s e => s.countInvalid x.stack x.hdr.table e.1 x.hdr.tensor) s
      match s.applyParts x sl p x.jnl (s.program p x.hdr.prog) pay live with
      | (none, s) => s.cmdDone x none
      | (some fl, s) => s.cmdDone x (some ⟨0, bad.length, fl, []⟩)

/-! ### The events -/

/-- A command that may run now: none of its thread to that stack stands before it (R323), fewer than 16 commands before it
are in progress at its engine (R307, assumption 60), and it has not run. -/
def State.cmdReady (s : State) (st id : Nat) : Option BCmd :=
  match s.b.cmds.find? (fun (x : BCmd) => x.id == id && x.stack == st) with
  | none => none
  | some x =>
    let before := s.b.cmds.takeWhile (fun (y : BCmd) => y.id != id)
    let waits := before.any (fun (y : BCmd) => y.stack == st && y.core == x.core && y.thread == x.thread
      && y.done.isNone && !y.dead && !s.cmdRejected y)
    let here := before.filter (fun (y : BCmd) => y.stack == st && y.core % 16 == x.core % 16)
    if x.done.isSome || x.dead || waits || decide (16 ≤ here.length) then none else some x

/-- The reads of a command asked for at the arbiters: the vectors of its rows, or their whole records (R304), and the rows'
load counters. -/
def State.askCmd (s : State) (x : BCmd) (sl : Slot) (p : BPay) : State :=
  let (off, len) := if x.hdr.op < 2 then (sl.off, sl.vecBytes) else (0, sl.recBytes)
  ((p.idx.filter (· < sl.rows)).zipIdx).foldl (fun s e =>
      (s.askRow x.stack x.id false sl e.1 off len).askLoad x sl e.1 e.2)
    (s.updCmd { x with asked := 1, pay := some p })

/-- The writes of a command asked for once its reads, and the entries of its journal (13 R461), have been granted: its rows, or the
records that it updates. -/
def State.askWrites (s : State) (x : BCmd) (sl : Slot) (p : BPay) : State :=
  let row (off len : Nat) (s : State) (i : Nat) : State := s.askRow x.stack x.id true sl i off len
  let s := s.updCmd { x with asked := 4 }
  if x.hdr.op = 3 then (((s.updateParts x sl p).getD []).map RowPart.row).foldl (row 0 sl.recBytes) s
  else (p.idx.filter (· < sl.rows)).foldl (row sl.off sl.vecBytes) s

/-- The entries of the journal of a ROW_UPDATE given their place and asked for (13 R461). -/
def State.askJournal (s : State) (x : BCmd) (sl : Slot) (live : List RowPart) : State :=
  let n := live.length * sl.jnlLen
  let (at_, s) := s.jnlTake (jnlRegion sl.part 2 x.stack) n
  (s.updCmd { x with asked := 3, jnl := at_ }).askOwn x true ((seqKeys at_ n).map (·, 0))

/-- A ROW_UPDATE whose tables have been read: it ends where its groups have it rejected (R460), or its journal does not fit (R464);
one of whose tables a codeword has been lost since never completes (08 R284). -/
def State.lookUpdate (s : State) (x : BCmd) (sl : Slot) (p : BPay) : State :=
  match (s.updateKeys sl.part x.stack x.hdr.prog).find? (fun k => s.lost [k]) with
  | some k => (s.stackUE k).cmdDone x none
  | none =>
    match s.updateParts x sl p with
    | none => s.runUpdate x sl p
    | some live => if s.journalFits x sl live then s.askJournal x sl live else s.runUpdate x sl p

/-- The next thing that a command asks for, once what it has asked for has been granted (01 R40): none where it has its effect. -/
def State.askNext (s : State) (x : BCmd) (sl : Slot) (p : BPay) : Option State :=
  match x.hdr.op, x.asked with
  | _, 0 => some (s.askCmd x sl p)
  | 2, 1 => some (s.askWrites x sl p)
  | 3, 1 => some ((s.updCmd { x with asked := 2 }).askTables x sl.part)
  | 3, 2 => some (s.lookUpdate x sl p)
  | 3, 3 => some (s.askWrites x sl p)
  | _, _ => none

/-- A command of an OP runs: it reads its payload, asks for its rows, the tables of its groups, its journal and its writes in turn,
and has its effect once all have been granted (01 R40); results for a cluster cross behind the replies that went before them (01
R27). -/
def runCmd (op : Nat) (run : State → BCmd → Slot → BPay → State) (st : Fin 8) (id : Nat) (s : State) : Out :=
  unlessStopped s (
    match s.cmdReady st id with
    | none => .next s
    | some x =>
      if x.hdr.op != op || s.cmdRejected x then .next s
      else match s.slot st x.hdr.table with
        | none => .next s
        | some sl =>
          let p := s.payloadOf x sl
          if p.bad || (op = 1 && endsBad p.idx.length 0 p.ends) then .next (s.cmdDone x (some ⟨2, 0, 0, []⟩))
          else if s.cmdAsks id then .next s
          else match s.askNext x sl p with
            | some s => .next s
            | none => if op < 2 && s.repliesDue st (clusterOf x.core) then .next s else .next (run s x sl p))

/-- GATHER (R301). -/
def execGather (st : Fin 8) (id : Nat) (s : State) : Out := runCmd 0 State.runRead st id s
/-- POOL (R301). -/
def execPool (st : Fin 8) (id : Nat) (s : State) : Out := runCmd 1 State.runRead st id s
/-- SCATTER_ADD (R301). -/
def execScatterAdd (st : Fin 8) (id : Nat) (s : State) : Out := runCmd 2 State.runScatter st id s
/-- ROW_UPDATE (R301, 13 R460). -/
def execRowUpdate (st : Fin 8) (id : Nat) (s : State) : Out := runCmd 3 State.runUpdate st id s

/-- The rows of a pooling-fed stream handed to it (09 R333, R334). -/
def State.deliverGroup (s : State) (x : BCmd) (q first : Nat) (d : BDone) : State :=
  let st := s.stream x.core q
  if !st.isOpen || st.closing || x.thread = 32 then s
  else
    let n := x.hdr.nseg
    let bad := if d.status = 1 then 0x81 else if d.status = 2 then 0x82 else 0
    let rows := (List.range n).map (fun i => (⟨first + i, d.rows.getD i [], bad⟩ : FedRow))
    (s.setStream x.core q { st with
      fed := st.fed ++ rows, gflags := st.gflags ++ [(first + n - 1, d.fl)] }).feedEngine x.core

/-- A command completes: numeric flags, the completion word, the signal, and its berth (R306, 09 R322). -/
def State.complete (s : State) (x : BCmd) (d : BDone) : State :=
  let s := State.unblock { s with b := { s.b with cmds := s.b.cmds.filter (fun (y : BCmd) => y.id != x.id) } } x.core
  match x.stream with
  | some (q, first) => (s.deliverGroup x q first d).tryClose x.core q
  | none =>
    if x.thread = 32 then s.promote x.core
    else
      let s := s.orFlags x.core x.thread d.fl
      let s := s.wr (keyOwn x.core x.hdr.statusOff) 8 (d.status + d.invalid % 2 ^ 16 * 2 ^ 16)
      let s := s.sendTok (mkTok 1 (clusterOf x.core) (subOf x.core) (40 + x.stack) (x.core % 16) x.hdr.channel 1)
      s.promote x.core

/-- Whether a base engine has writes that are not yet accepted. -/
def State.engineWrites (s : State) (st e : Nat) : Bool :=
  s.m.reqs.any (fun (r : Req) => r.write && r.core == 800 + 16 * st + e && r.use != .unit)

/-- Whether the completion of a command waits: for requests of its own or earlier writes of its engine, whose signal has
release order (01 R36), or for replies of the stack that cross to the cluster before it (01 R27). -/
def State.completionWaits (s : State) (x : BCmd) : Bool :=
  s.cmdAsks x.id || s.engineWrites x.stack (x.core % 16) || s.repliesDue x.stack (clusterOf x.core)

/-- COMMAND_COMPLETION (R305, R306): once the writes of the command and of its engine have been accepted. -/
def execCommandCompletion (st : Fin 8) (id : Nat) (s : State) : Out :=
  unlessStopped s (
    match s.b.cmds.find? (fun (x : BCmd) => x.id == id && x.stack == st) with
    | none => .next s
    | some x =>
      match x.done with
      | some d => if s.completionWaits x then .next s else .next (s.complete x d)
      | none => if !x.dead && s.cmdRejected x && !s.completionWaits x then .next (s.complete x ⟨1, 0, 0, []⟩) else .next s)

/-- POOL_GROUP_ISSUE: the next group of a pooling-fed stream is sent once the sluice holds credit for it (09 R332,
R333). -/
def execPoolGroupIssue (c : Fin 800) (q : Fin 16) (s : State) : Out :=
  unlessStopped s (
    let st := s.stream c q
    let first := st.group * st.poolGroup
    let n := min st.poolGroup (st.nrows - first)
    if (s.taskRuns c || decide (first < st.rowsTaken + s.rowsWanted c q)) && st.isOpen && !st.closing && st.kind == 5
        && decide (first < st.nrows)
        && decide (n * st.rowChunks ≤ st.credits) then
      let cl := clusterOf c
      let endAt (i : Nat) : Nat := if i = 0 then 0 else s.rd (keyShared cl (st.f 0x20 8 + 4 * (i - 1))) 4
      let lo := endAt first
      let hi := endAt (first + n)
      let past := decide (sharedBytes < st.f 0x20 8 + 4 * (first + n)) || decide (hi < lo)
        || (List.range n).any (fun i => decide (endAt (first + i + 1) < lo))
        || decide (sharedBytes < st.f 0x10 8 + 8 * hi) || (st.poolOp == 1 && decide (sharedBytes < st.f 0x18 8 + 4 * hi))
      let m := if past || 16384 < hi - lo then 0 else hi - lo
      let pay : BPay :=
        { idx := (List.range m).map (fun i => s.rd (keyShared cl (st.f 0x10 8 + 8 * (lo + i))) 8)
          ws := if st.poolOp = 1 then (List.range m).map (fun i => s.rd (keyShared cl (st.f 0x18 8 + 4 * (lo + i))) 4) else []
          ends := (List.range n).map (fun i => endAt (first + i + 1) - lo), grads := [], bad := past }
      let h : BHdr :=
        { op := 1, poolOp := st.poolOp, table := st.poolTable, outType := st.tyCode, rnd := st.poolRnd, gtype := 0, prog := 0
          nidx := hi - lo, nseg := n, tensor := st.f 4 4, vslot := s.taskSlot c, step := s.taskStep c
          dest := 2, destOff := 0, statusOff := 0, channel := 0
          bad := !past && (hi == lo || 16384 < hi - lo || hi - lo < n) }
      let x : BCmd := { id := s.b.nextId, stack := sectionOf c, core := c, thread := 16 + q, off := 0, hdr := h
                        stream := some (q.val, first), pay := some pay, asked := 0, jnl := 0, done := none, dead := false }
      let s := { s with b := { s.b with cmds := s.b.cmds ++ [x], nextId := s.b.nextId + 1 } }
      .next (s.setStream c q { st with group := st.group + 1, credits := st.credits - n * st.rowChunks })
    else .next s)

end Sys2Proof.Machine
end

