-- ==== Sys2Proof/Machine/Frames.lean ====
section
/-! DEFINITION. Laniac frames (11): lambdas and ports, routes, protection, credits, the arbiter of a port, the checks of
the final receiver. -/

namespace Sys2Proof.Machine

/-! ### Lambdas (R377 to R379) -/

def waveM : List Nat := [0, 2, 4, 6, 3, 1, 7, 5]

/-- The port of a lambda, its place in the port's registers, the engine of a port. -/
def lamPort (l : Nat) : Nat := l / 8
def lamJ (l : Nat) : Nat := l % 8
def portEngine (n : Nat) : Nat := n % 16 / 2
def lamsOfEngine (e : Nat) : List Nat := (List.range 256).filter (fun l => portEngine (lamPort l) == e)

/-- The wavelength on which index `f` sends lambda k (R377), and on which it sends to itself (R379). -/
def waveOf (f k : Nat) : Nat := f % 8 ^^^ waveM.getD (k % 8) 0
def loopWave (f : Nat) : Nat := waveOf f f

def State.lam (s : State) (l : Nat) : Lam := Tab.get s.fab.lams .idle l
def State.setLam (s : State) (l : Nat) (v : Lam) : State :=
  { s with fab := { s.fab with lams := Tab.put s.fab.lams .idle l v } }

/-- States of a lambda (OP_LSTATE). -/
def lsAbsent : Nat := 0
def lsTraining : Nat := 1
def lsUp : Nat := 2
def lsRetrain : Nat := 3
def lsDown : Nat := 4
def lsLoop : Nat := 5
def lsMiswired : Nat := 6
def lsShuttered : Nat := 7
def State.lstate (s : State) (l : Nat) : Nat := s.fld (OP_LSTATE_STATE (lamPort l) (lamJ l))
def State.setLstate (s : State) (l v : Nat) : State := s.setFld (OP_LSTATE_STATE (lamPort l) (lamJ l)) v
def State.lamUp (s : State) (l : Nat) : Bool := s.lstate l == lsUp

/-! ### Position and routes (R396) -/

def State.reach (s : State) : Nat := s.fld FAB_POS_REACH
def State.flight (s : State) : Nat := s.fld FAB_POS_FLIGHT
def State.me (s : State) : Nat := s.reach * 128 + s.flight

/-- The device at the other end of a lambda. -/
def State.peerOf (s : State) (l : Nat) : Nat :=
  if l < 128 then s.reach * 128 + l else (l - 128) * 128 + s.flight

def State.isLoop (s : State) (l : Nat) : Bool := s.peerOf l == s.me

/-- The lambda that joins this device to another one. -/
def State.lamTo (s : State) (d : Nat) : Option Nat :=
  if d = s.me then none
  else if d / 128 = s.reach then some (d % 128)
  else if d % 128 = s.flight then some (128 + d / 128)
  else none

/-- The lambda of what arrives at a place, 8 × port + wavelength: the sender's index by the port's number on its plane, the
wavelength and the device's own index (R378). -/
def State.lamAt (s : State) (place : Nat) : Nat :=
  let k := if place < 128 then s.flight else s.reach
  place / 128 * 128 + place % 128 / 8 * 8 + (place % 8 ^^^ waveM.getD (k % 8) 0)

/-- Whether light leaves on a lambda: its port is open, an enabled module supplies its engine (R405 to R408), the device is not in Stand (19
R613). -/
def State.lit (s : State) (l : Nat) : Bool :=
  let n := lamPort l
  s.fld PM_CTRL_STATE == 0 && !s.on (OP_LASER_SHUT n) && ((s.fab.enA && s.on (OP_LASER_A_OK n)) || (s.fab.enB && s.on (OP_LASER_B_OK n)))

/-- Whether the peer on lambda `l` says that its own lambda `m` is usable (R398). -/
def State.peerSays (s : State) (l m : Nat) : Bool := bit (s.lam l).peerUp m

/-- The lambda on which a frame for device `d` leaves (R396): the first usable route. -/
def State.routeOf (s : State) (d : Nat) : Option Nat :=
  let rd := d / 128
  let fd := d % 128
  let rs := s.reach
  let fs := s.flight
  if d = s.me then none
  else if rd = rs then
    if s.lamUp fd then some fd
    else (List.range 128).find? (fun x => x != fs && x != fd && s.lamUp x && s.peerSays x fd)
  else if fd = fs then
    if s.lamUp (128 + rd) then some (128 + rd)
    else ((List.range 128).find? (fun x => x != rs && x != rd && s.lamUp (128 + x) && s.peerSays (128 + x) (128 + rd))).map
      (· + 128)
  else if s.lamUp fd && s.peerSays fd (128 + rd) then some fd
  else if s.lamUp (128 + rd) && s.peerSays (128 + rd) fd then some (128 + rd)
  else none

/-! ### The header (R385) -/

def wordAt (b : List Byte) (off : Nat) : Nat := leNat ((b.drop off).take 4)
def hDst (b : List Byte) : Nat := bits (wordAt b 0) 7 7 * 128 + bits (wordAt b 0) 0 7
def hSrc (b : List Byte) : Nat := bits (wordAt b 0) 21 7 * 128 + bits (wordAt b 0) 14 7
def hTc (b : List Byte) : Nat := bits (wordAt b 0) 28 2
def hHop (b : List Byte) : Bool := bit (wordAt b 0) 30
def hEnc (b : List Byte) : Bool := bit (wordAt b 0) 31
def hType (b : List Byte) : Nat := bits (wordAt b 4) 0 4
def hLen (b : List Byte) : Nat := bits (wordAt b 4) 4 11
def hPtag (b : List Byte) : Nat := bits (wordAt b 4) 16 16
def hSeq (b : List Byte) : Nat := bits (wordAt b 8) 0 12
def hAck (b : List Byte) : Nat := bits (wordAt b 8) 12 12
def hNak (b : List Byte) : Bool := bit (wordAt b 8) 24
def hCrTc (b : List Byte) : Nat := bits (wordAt b 8) 25 2
def hCrCount (b : List Byte) : Nat := bits (wordAt b 12) 0 10
def hBnc (b : List Byte) : Bool := bit (wordAt b 12) 10

/-- Credits that a frame with `len` payload bytes uses (R388). -/
def creditsOf (len : Nat) : Nat := (20 + len + 63) / 64
def classCredits (tc : Nat) : Nat := [64, 256, 192, 128].getD tc 0

/-- The class of a type (R386). -/
def typeClass (typ : Nat) : Nat := if typ = 3 then 1 else if typ = 4 then 2 else if typ = 5 then 3 else 0
/-- Whether a type carries fabric management. -/
def typeMgmt (typ : Nat) : Bool := typ == 0 || (6 ≤ typ && typ ≤ 9)

/-- CRC-32 of IEEE 802.3, one byte further. -/
def crcBits : Nat → Nat → Nat
  | 0, c => c
  | n + 1, c => crcBits n (if c % 2 = 1 then c / 2 ^^^ 0xEDB88320 else c / 2)

def crc32 (l : List Byte) : Nat :=
  0xFFFFFFFF - l.foldl (fun c b => crcBits 8 (c ^^^ b.toNat)) 0xFFFFFFFF

/-- The payload of a frame. -/
def hPay (b : List Byte) : List Byte := (b.drop 16).take (hLen b)

/-- Whether a frame's CRC is that of its header and payload. -/
def crcOk (b : List Byte) : Bool := leNat (b.drop (16 + hLen b)) == crc32 (b.take (16 + hLen b))

/-! ### Protection (R401, R403) -/

/-- The IV of a frame. -/
def frameIv (src part dst ctr : Nat) : List Nat :=
  natBytes 12 (src % 2 ^ 14 * 2 ^ 81 + part % 8 * 2 ^ 78 + dst % 2 ^ 14 * 2 ^ 64 + ctr % 2 ^ 64)

/-- Header bytes 0x0 to 0x7 with HOP and BNC as they stand. -/
def headE2E (dst src tc typ len ptag : Nat) (hop enc : Bool) : List Byte :=
  leBytes 4 (dst % 128 + dst / 128 % 128 * 2 ^ 7 + src % 128 * 2 ^ 14 + src / 128 % 128 * 2 ^ 21 + tc % 4 * 2 ^ 28
    + b2n hop * 2 ^ 30 + b2n enc * 2 ^ 31)
  ++ leBytes 4 (typ % 16 + len % 2048 * 16 + ptag % 2 ^ 16 * 2 ^ 16)

/-- The header bytes with HOP replaced. -/
def setHop (w : List Byte) (hop : Bool) : List Byte :=
  leBytes 4 (setBits (wordAt w 0) 30 1 (b2n hop)) ++ w.drop 4

def aadOf (w : List Byte) : List Nat := toNats ((setHop w false).take 8)

/-- The bytes of a new frame without link fields: protected under the partition's fabric key, with the next counter of
its destination (R401). -/
def State.seal (s : State) (o : FOut) : List Byte × State :=
  match o.part with
  | none => (headE2E o.dst s.me (typeClass o.typ) o.typ o.data.length 0 false false ++ o.data, s)
  | some p =>
    let k := p * 2 ^ 14 + o.dst
    let c := Tab.get s.fab.ctrs 0 k + 1
    let h := headE2E o.dst s.me (typeClass o.typ) o.typ (o.data.length + 24) (s.fld (FAB_PART_PTAG p)) false true
    let (ct, tag) := gcmSeal (toNats (Tab.get s.sec.fabKey [] p)) (frameIv s.me p o.dst c) (aadOf h) (toNats o.data)
    (h ++ leBytes 8 c ++ ofNats ct ++ ofNats tag, { s with fab := { s.fab with ctrs := Tab.put s.fab.ctrs 0 k c } })

/-- The data of a protected payload, where some source partition's tag verifies. -/
def State.unseal (s : State) (p : Nat) (b : List Byte) : Option (List Byte) :=
  let pay := hPay b
  let n := pay.length - 24
  let ct := toNats ((pay.drop 8).take n)
  let tag := toNats (pay.drop (8 + n))
  (List.range 8).findSome? (fun sp =>
    (gcmOpen (toNats (Tab.get s.sec.fabKey [] p)) (frameIv (hSrc b) sp (hDst b) (leNat (pay.take 8))) (aadOf b) ct tag).map
      ofNats)

/-- Whether a counter is inside the window and new (R403). -/
def State.inWindow (s : State) (p src c : Nat) : Bool :=
  let w := Tab.get s.fab.windows (0, []) (p * 2 ^ 14 + src)
  decide (w.1 < c + 4096) && !w.2.contains c

def State.noteCtr (s : State) (p src c : Nat) : State :=
  let k := p * 2 ^ 14 + src
  let w := Tab.get s.fab.windows (0, []) k
  let h := max w.1 c
  let v := (h, (c :: w.2).filter (fun x => decide (h < x + 4096)))
  { s with fab := { s.fab with windows := Tab.put s.fab.windows (0, []) k v } }

/-! ### Sending (R388 to R392, R402) -/

def State.queueFrame (s : State) (o : FOut) : State := { s with fab := { s.fab with outq := s.fab.outq ++ [o] } }

/-- A frame of a partition for another device. -/
def State.sendPart (s : State) (p rqr dst typ : Nat) (data : List Byte) : State :=
  s.queueFrame ⟨rqr, some p, dst, typ, data, none, none, p, false, none⟩

/-- A management frame, on its own lambda where one is given. -/
def State.sendMgmt (s : State) (dst typ : Nat) (lam : Option Nat) (data : List Byte) : State :=
  s.queueFrame ⟨0, none, dst, typ, data, none, lam, 8, false, none⟩

def FOut.len (o : FOut) : Nat :=
  match o.wire with
  | some w => w.length - 8
  | none => o.data.length + (if o.part.isSome then 24 else 0)
def FOut.tc (o : FOut) : Nat :=
  match o.wire with
  | some w => hTc w
  | none => typeClass o.typ

/-- The requester at port `n` (R392): 100 + c stands for class 2 of cluster c, 200 + s for class 3 of the base engines of
stack s. -/
def FOut.rqrAt (o : FOut) (n : Nat) : Nat :=
  if 200 ≤ o.rqr then if o.rqr - 200 = portEngine n then 10 else 9
  else if 100 ≤ o.rqr then if (o.rqr - 100) / 5 = portEngine n then 3 + (o.rqr - 100) % 5 else 8
  else o.rqr

/-- Whether a frame has a partition tag. -/
def FOut.tagged (o : FOut) : Bool :=
  match o.wire with
  | some w => hPtag w != 0
  | none => o.part.isSome

def State.outLam (s : State) (o : FOut) : Option Nat :=
  match o.lam with
  | some l => some l
  | none => s.routeOf o.dst

def sumCredits (u : List (Nat × Nat × Nat)) (p : Nat → Nat → Bool) : Nat :=
  ((u.filter (fun e => p e.1 e.2.1)).map (fun e => e.2.2)).foldl (· + ·) 0

/-- Whether the credits of a frame and its share are there (R388, R402). -/
def State.creditOk (s : State) (l : Nat) (o : FOut) : Bool :=
  let u := (s.lam l).used
  let tc := o.tc
  let n := creditsOf o.len
  let total := sumCredits u (fun c _ => c == tc)
  let mine := sumCredits u (fun c w => c == tc && w == o.owner)
  let cap := if tc = 0 then (if o.owner < 8 then 4 else 16)
    else if o.owner = 9 then classCredits tc / 4
    else classCredits tc * 3 / 4 * s.fld (FAB_PART_SHARE o.owner) / 64
  decide (total + n ≤ classCredits tc) && decide (mine + n ≤ cap)

/-- Whether the replay buffer of a lambda has room for a frame (R393). -/
def Lam.roomFor (x : Lam) (len : Nat) : Bool :=
  decide (x.replay.length < 2048) && decide ((x.replay.map (fun e => e.2.1.length + 12)).foldl (· + ·) 0 + len + 20 ≤ 32768)

/-- MSG of a step message that has not been sealed (14 R472). -/
def FOut.msg (o : FOut) : Option Nat :=
  if o.typ = 2 ∧ o.wire.isNone then some (bits (leNat ((o.data.drop 8).take 8)) 17 7) else none

/-- Whether a frame carries a row of a table that moves or is copied (assumption 28), and has not been sealed; its kind. -/
def FOut.rowKind (o : FOut) : Option Nat :=
  if o.typ = 5 ∧ o.wire.isNone ∧ bits (wordAt o.data 0) 0 2 = 3 then some (bits (wordAt o.data 0) 2 2) else none

/-- Whether a partition's state keeps a frame back: nothing of a partition that is FENCED or gone leaves (16 R522) but the ABORT that
says so (14 R479); in HOLD nothing of the step leaves (14 R480). -/
def State.keptBack (s : State) (o : FOut) : Bool :=
  match o.part with
  | none => false
  | some p =>
    (s.partState p == ptFenced && o.msg != some 4) || s.partState p == ptFree
      || (s.fld (STEP_STATUS_STATE p) == 3
        && (o.typ == 3 || o.typ == 4 || o.rowKind.isSome || o.msg == some 0 || o.msg == some 1))

/-- Whether a frame may start now on a lambda of port `n`; the lambda. -/
def State.mayStart (s : State) (n : Nat) (o : FOut) : Option Nat :=
  match s.outLam o with
  | none => none
  | some l =>
    if lamPort l = n && s.lamUp l && !s.keptBack o && (!o.tagged || s.on FAB_CTRL_RUN) && !(s.lam l).resend
        && decide (Tab.get s.fab.busy 0 l ≤ Tab.get s.m.rounds 0 (512 + n)) && (s.lam l).roomFor o.len && s.creditOk l o then
      some l
    else none

/-- The frame that a requester presents: the first that may start and has none of its share and lambda before it. -/
def State.frameOf (s : State) (n r : Nat) : Option (FOut × Nat) :=
  let q := s.fab.outq.filter (fun o => o.rqrAt n == r)
  q.findSome? (fun o =>
    match s.mayStart n o with
    | none => none
    | some l =>
      if (q.find? (fun y => y.owner == o.owner && s.outLam y == some l)) == some o then some (o, l) else none)

/-- The link fields (R385). -/
def linkFields (seq ack : Nat) (nak : Bool) (crTc crN : Nat) (bnc : Bool) : List Byte :=
  leBytes 4 (seq % 4096 + ack % 4096 * 2 ^ 12 + b2n nak * 2 ^ 24 + crTc % 4 * 2 ^ 25)
  ++ leBytes 4 (crN % 1024 + b2n bnc * 2 ^ 10)

/-- Bytes put on the fibre of a lambda with the link fields of now: the acknowledgement owed goes with them, and `n` credits of class `tc`
(R389, R393). -/
def State.emitCr (s : State) (l seq : Nat) (wire : List Byte) (bnc : Bool) (tc n : Nat) : State :=
  let x := s.lam l
  let f := wire.take 8 ++ linkFields seq (x.rxLast.getD 4095) x.nakDue tc n bnc ++ wire.drop 8
  let s := s.setLam l { x with ackDue := false, nakDue := false }
  { s with fab := { s.fab with sent := s.fab.sent ++ [(l, f ++ leBytes 4 (crc32 f))] } }

/-- A new frame put on the fibre: the freed credits of the first class that has any go with it, and stay with it while it is not
acknowledged (R389). -/
def State.emit (s : State) (l seq : Nat) (wire : List Byte) (bnc : Bool) : State :=
  let x := s.lam l
  let tc := ((List.range 4).find? (fun c => x.freed.getD c 0 != 0)).getD 0
  let n := min 1023 (x.freed.getD tc 0)
  (s.setLam l { x with freed := setNth x.freed tc (x.freed.getD tc 0 - n), crs := x.crs ++ [(seq, tc, n)] }).emitCr l seq wire bnc tc n

/-- A frame that is not acknowledged sent again, with the credits that it carried (R389, R393). -/
def State.emitAgain (s : State) (l : Nat) (e : Nat × List Byte × Bool × Nat) : State :=
  let c := (((s.lam l).crs.find? (fun c => c.1 == e.1)).map Prod.snd).getD (0, 0)
  s.emitCr l e.1 e.2.1 e.2.2.1 c.1 c.2

/-- Credits of a class that a receiving lambda has freed (R389). -/
def State.freeCredits (s : State) (l tc n : Nat) : State :=
  let x := s.lam l
  s.setLam l { x with freed := setNth x.freed tc (x.freed.getD tc 0 + n) }

/-- The port round at which a lambda's transmitter that starts now on frames of these lengths on the fibre is idle again: 25 GB/s
at 1.6 GHz are 15.625 bytes in a port cycle. -/
def State.idleAt (s : State) (l : Nat) (lens : List Nat) : Nat :=
  (lens.map (fun n => n * 8 / 125 + 1)).foldl (· + ·) (Tab.get s.m.rounds 0 (512 + lamPort l))

/-- A frame granted: protected if it is new, sent with the next SEQ and kept for replay (R391, R393, R401). -/
def State.grantFrame (s : State) (o : FOut) (l : Nat) : State :=
  let (w, s) := match o.wire with
    | some w => (w, s)
    | none => s.seal o
  let x := s.lam l
  let seq := x.txSeq
  let s := s.setLam l { x with
    txSeq := (seq + 1) % 4096
    replay := x.replay ++ [(seq, w, o.bnc, o.rqr)]
    used := x.used ++ [(o.tc, o.owner, creditsOf (w.length - 8))] }
  let s := s.emit l seq w o.bnc
  let s := match o.free with
    | some (rl, tc, n) => s.freeCredits rl tc n
    | none => s
  { s with fab := { s.fab with
    outq := dropFirst (· == o) s.fab.outq
    busy := Tab.put s.fab.busy 0 l (s.idleAt l [w.length + 12]) } }

/-- One round of a port's arbiter (R391, 08 R288). -/
def State.portRound (s : State) (n : Nat) : State :=
  let inst := 512 + n
  let s := s.startRound inst
  let asking := (List.range 16).filter (fun r => s.fab.outq.any (fun o => o.rqrAt n == r &&
    (s.outLam o).map lamPort == some n))
  let elig := (List.range 16).filter (fun r => (s.frameOf n r).isSome)
  match s.pickWinner inst elig with
  | none => (s.ageRound inst elig asking none).advance inst 1
  | some (w, kind) =>
    match s.frameOf n w with
    | none => s.advance inst 1
    | some (o, l) => (((s.noteWinner inst w kind).grantFrame o l).ageRound inst elig asking (some w)).advance inst 1

/-! ### Receiving (R387, R389, R393) -/

/-- Credits returned by the peer: the oldest in use of the class come back first. -/
def takeCredits (tc : Nat) : Nat → List (Nat × Nat × Nat) → List (Nat × Nat × Nat)
  | _, [] => []
  | n, (c, w, k) :: r =>
    if c = tc then if k ≤ n then takeCredits tc (n - k) r else (c, w, k - n) :: r
    else (c, w, k) :: takeCredits tc n r

/-- The part of a replay buffer that an acknowledgement does not cover. -/
def unacked (ack : Nat) (l : List (Nat × List Byte × Bool × Nat)) : List (Nat × List Byte × Bool × Nat) :=
  if l.any (fun e => e.1 == ack) then (l.dropWhile (fun e => e.1 != ack)).drop 1 else l

/-- A frame that an intermediate holds for a lambda that is no longer UP goes back to its source on the lambda that joins them;
where it may not, it is lost (R397). -/
def State.bounceOne (s : State) (o : FOut) : State :=
  match o.wire with
  | none => s.queueFrame o
  | some w =>
    let w := setHop w false
    let home := match o.free with
      | some (rl, _, _) => if s.peerOf rl = hSrc w then some rl else none
      | none => s.lamTo (hSrc w)
    let back := home.filter (fun rl => !o.bnc && s.lamUp rl)
    match back, o.free with
    | some rl, _ => s.queueFrame { o with rqr := 1, wire := some w, lam := some rl, owner := 9, bnc := true }
    | none, some (rl, tc, n) =>
      ((s.freeCredits rl tc n).count FAB_DROP_BOUNCE_LOST 1).file 0x0031 clsNotice 4 (lamPort rl) (wordAt w 0)
    | none, none => (s.count FAB_DROP_BOUNCE_LOST 1).file 0x0031 clsNotice 4 (lamPort (home.getD 0)) (wordAt w 0)

def State.bounceHeld (s : State) (l : Nat) : State :=
  let mine := s.fab.outq.filter (fun o => o.owner == 9 && o.lam == some l)
  let s := { s with fab := { s.fab with outq := s.fab.outq.filter (fun o => !(o.owner == 9 && o.lam == some l)) } }
  mine.foldl State.bounceOne s

/-- A lambda that leaves UP (R394, R397). -/
def State.leaveUp (s : State) (l v : Nat) : State := (s.setLstate l v).bounceHeld l

/-- A lambda that goes from UP to RETRAIN (R394). -/
def State.retrain (s : State) (l : Nat) : State := (s.leaveUp l lsRetrain).count (OP_LINK_RETRAINS (lamPort l)) 1

/-- The link fields of an accepted frame; the 16th NAK that one frame draws makes the lambda retrain (R394). -/
def State.linkIn (s : State) (l : Nat) (b : List Byte) : State :=
  let x := s.lam l
  let rest := unacked (hAck b) x.replay
  let naks := if rest.length < x.replay.length then b2n (hNak b) else x.naks + b2n (hNak b)
  let s := s.setLam l { x with
    rxLast := some (hSeq b)
    ackDue := true
    replay := rest
    crs := x.crs.filter (fun c => rest.any (fun e => e.1 == c.1))
    resend := x.resend || (hNak b && !rest.isEmpty)
    naks := naks
    used := takeCredits (hCrTc b) (hCrCount b) x.used }
  if 16 ≤ naks then s.retrain l else s

/-- What the checks of R387 make of a frame. -/
inductive Fate where
  /-- It is not for this device. -/
  | foreign
  /-- It is discarded: the counter of the check that failed, by partition. -/
  | drop (f : Fld)
  /-- It passes: the partition (none for management), its counter, its data. -/
  | pass (p : Option Nat) (ctr : Nat) (data : List Byte)

/-- TYPE, TC, PTAG and the reserved bits agree with R385 and R386. -/
def headOk (b : List Byte) : Bool :=
  let t := hType b
  decide (t ≤ 9) && hTc b == typeClass t && (typeMgmt t == (hPtag b == 0)) && !bit (wordAt b 4) 15
    && bits (wordAt b 8) 27 5 == 0 && bits (wordAt b 12) 11 21 == 0 && decide (hLen b ≤ 1024)
    && (t != 0 || hLen b == 0)

/-- The partition with a tag that still names one (R387, 16 R522). -/
def State.tagPart (s : State) (tag : Nat) : Option Nat :=
  (List.range 8).find? (fun p => (s.partState p == ptBuilding || s.partState p == ptStarted) && s.fld (FAB_PART_PTAG p) == tag)

def State.fate (s : State) (b : List Byte) : Fate :=
  if hDst b ≠ s.me then .foreign
  else if !headOk b then .drop FAB_DROP_ROUTE
  else if hPtag b = 0 then .pass none 0 (hPay b)
  else
    match s.tagPart (hPtag b) with
    | none => .drop FAB_DROP_TAG
    | some p =>
      if !hEnc b || hLen b < 24 then .drop (FAB_PDROP_AUTH p)
      else
        match s.unseal p b with
        | none => .drop (FAB_PDROP_AUTH p)
        | some d =>
          let c := leNat ((hPay b).take 8)
          if s.inWindow p (hSrc b) c then .pass (some p) c d else .drop (FAB_PDROP_WIN p)

/-- Whether a frame's bytes have the length that its header names. -/
def frameSized (b : List Byte) : Bool := decide (20 ≤ b.length) && b.length == 20 + hLen b

/-- Whether the receive side of a lambda takes the frame now: UP, open, next in sequence. -/
def State.takes (s : State) (l : Nat) (b : List Byte) : Bool :=
  let x := s.lam l
  s.lamUp l && !x.closed && (match x.rxLast with
    | none => true
    | some q => hSeq b == (q + 1) % 4096)

/-- A frame with an FEC failure or a CRC error is discarded; a NAK is owed (R393). -/
def State.badFrame (s : State) (l : Nat) : State := s.setLam l { s.lam l with nakDue := true, ackDue := true }

/-- A frame discarded: counted by the check that failed, its credits freed (R387, R389). -/
def State.dropFrame (s : State) (l : Nat) (b : List Byte) (f : Fld) : State :=
  ((s.linkIn l b).count f 1).freeCredits l (hTc b) (creditsOf (hLen b))

/-- A frame that arrives for this device (R387): one that fails a check is discarded and counted, one that passes is
delivered if it is the row's and its payload has the form of its type, else discarded as malformed; its credits are freed.
`place` is where it arrives: 8 × port + wavelength. -/
def receive (place : Fin 256) (b : List Byte) (mine good : State → Option Nat → List Byte → Bool)
    (g : State → Option Nat → List Byte → State) (s : State) : Out :=
  let l := s.lamAt place
  if !frameSized b then .fault (.impossible "frame length")
  else if s.lamUp l && !crcOk b then .next (s.badFrame l)
  else if !s.takes l b then .next s
  else
    match s.fate b with
    | .foreign => .next s
    | .drop f => .next (s.dropFrame l b f)
    | .pass p c d =>
      let note (s : State) : State := match p with
        | some p => s.noteCtr p (hSrc b) c
        | none => s
      if !mine s p d then .next s
      else if !good s p d then .next (note (s.dropFrame l b FAB_DROP_ROUTE))
      else .next (g (note ((s.linkIn l b).freeCredits l (hTc b) (creditsOf (hLen b)))) p d)

/-- A frame of a type that a partition receives. -/
def receivePart (typ : Nat) (place : Fin 256) (b : List Byte) (mine good : State → Nat → List Byte → Bool)
    (g : State → Nat → List Byte → State) (s : State) : Out :=
  receive place b
    (fun s p d => hType b == typ && p.any (fun p => mine s p d))
    (fun s p d => p.any (fun p => good s p d))
    (fun s p d => match p with
      | some p => g s p d
      | none => s) s

end Sys2Proof.Machine
end

