-- ==== Sys2Proof/Machine/Coll.lean ====
section
/-! DEFINITION. Collectives (12): contributions, the two stages of the summation tree, stragglers, span updates (13 R455
to R459), the all-gather. -/

namespace Sys2Proof.Machine

def State.job (s : State) (p : Nat) : JobSt := Tab.get s.j.jobs JobSt.none p
def State.setJob (s : State) (p : Nat) (v : JobSt) : State :=
  { s with j := { s.j with jobs := Tab.put s.j.jobs JobSt.none p v } }
def State.modJob (s : State) (p : Nat) (f : JobSt → JobSt) : State := s.setJob p (f (s.job p))

/-! ### The slot map, buckets and chunks (R409, R410) -/

def JobSt.hostOf (j : JobSt) (slot : Nat) : Nat := j.slots.getD slot 0
def JobSt.hosted (j : JobSt) (d : Nat) : List Nat :=
  (j.slots.zipIdx.filter (fun e => e.1 == d)).map Prod.snd
def JobSt.devices (j : JobSt) : List Nat := j.slots.eraseDups
def JobSt.tid (j : JobSt) (b : Nat) : Nat := (j.buckets.getD b (0, 0)).1
def JobSt.len (j : JobSt) (b : Nat) : Nat := (j.buckets.getD b (0, 0)).2
def JobSt.bucketOf (j : JobSt) (tid : Nat) : Option Nat := j.buckets.findIdx? (fun e => e.1 == tid)
def JobSt.bucketIdx (j : JobSt) : List Nat := List.range j.buckets.length

/-- Elements of a chunk but the last ones: L ÷ 16,384 rounded up to a multiple of 16. -/
def chunkQ (l : Nat) : Nat := (262143 + l) / 262144 * 16
def chunkLen (l c : Nat) : Nat := min ((c + 1) * chunkQ l) l - min (c * chunkQ l) l

def State.stepNum (s : State) (p : Nat) : Nat := s.fld (STEP_NUM_STEP p)
def State.lowSec (s : State) (p : Nat) : Nat := (s.partSecs p).headD 0
/-- The section whose pound serves a hosted slot: that of its port engine group (12 R416), or, where the partition does not own it, its lowest
(assumption 26). -/
def State.siteSec (s : State) (p slot : Nat) : Nat := if (s.partSecs p).contains (slot % 8) then slot % 8 else s.lowSec p
def State.jobSeed (s : State) (p : Nat) : Nat := s.fld (CL_JOB_SEED_SEED (5 * s.lowSec p))
def State.scaleE (s : State) (p : Nat) : Int := signed 8 (s.fld (NUM_LS_STATE_E p))
def State.orStep (s : State) (p : Nat) (fl : Flags) : State :=
  s.setFld (NUM_STEP_FLAGS_FLAGS p) (s.fld (NUM_STEP_FLAGS_FLAGS p) ||| fl.toNat)

/-- Whether the partition takes part in a step now. -/
def State.stepping (s : State) (p : Nat) : Bool :=
  s.partState p == ptStarted && s.fld (STEP_STATUS_STATE p) == 1

/-- Whether the partition is in a step: RUNNING, APPLIED or HOLD. -/
def State.inStep (s : State) (p : Nat) : Bool :=
  let v := s.fld (STEP_STATUS_STATE p)
  s.partState p == ptStarted && decide (1 ≤ v) && decide (v ≤ 3)

/-! ### Collective frames (R418) -/

def collHead (tid src dst kind : Nat) (nf late : Bool) (elem step fmt : Nat) : List Byte :=
  leBytes 4 tid ++ leBytes 4 (src % 2 ^ 14 + dst % 2 ^ 14 * 2 ^ 14 + kind % 4 * 2 ^ 28 + b2n nf * 2 ^ 30 + b2n late * 2 ^ 31)
    ++ leBytes 4 elem ++ leBytes 4 (step % 2 ^ 16 + fmt % 4 * 2 ^ 16)

def cTid (d : List Byte) : Nat := wordAt d 0
def cSrc (d : List Byte) : Nat := bits (wordAt d 4) 0 14
def cDst (d : List Byte) : Nat := bits (wordAt d 4) 14 14
def cKind (d : List Byte) : Nat := bits (wordAt d 4) 28 2
def cNf (d : List Byte) : Bool := bit (wordAt d 4) 30
def cLate (d : List Byte) : Bool := bit (wordAt d 4) 31
def cElem (d : List Byte) : Nat := wordAt d 8
def cStep (d : List Byte) : Nat := bits (wordAt d 12) 0 16
def cFmt (d : List Byte) : Nat := bits (wordAt d 12) 16 2

/-- Numbers of `n` bytes from a byte string. -/
def numsOf (n : Nat) : Nat → List Byte → List Nat
  | 0, _ => []
  | k + 1, l => leNat (l.take n) :: numsOf n k (l.drop n)

/-- A list cut into pieces of `n` elements. -/
def piecesOf {α : Type} (n : Nat) : Nat → List α → List (List α)
  | 0, _ => []
  | k + 1, l => if l.isEmpty then [] else l.take n :: piecesOf n k (l.drop n)

def pieces {α : Type} (n : Nat) (l : List α) : List (List α) := piecesOf n (l.length / n + 1) l

/-! ### The all-gather (R421) -/

/-- The group of the first element of a chunk that the map covers. -/
def State.chunkGroup (s : State) (p b c : Nat) : Option Grp :=
  (s.groupOf p 0 b (c * chunkQ ((s.job p).len b))).map (s.groupRec p)

/-- The shard descriptor of a hosted slot and bucket (13 R455). -/
def State.shard (s : State) (p slot b : Nat) : List Byte :=
  let g := slot % 8
  let mine := ((s.job p).hosted s.me).filter (fun x => x % 8 == g)
  let i := (mine.filter (· < slot)).length
  (s.hubPeek p (s.fld (STEP_UPD_SHARD_BASE p g) + (i * 1024 + b) * 64) 64).getD []

def shardOk (d : List Byte) (slot b : Nat) : Bool :=
  let w := leNat ((d.drop 0x2C).take 4)
  bit w 24 && bits w 0 14 == slot && bits w 14 10 == b
def shardW (d : List Byte) : Nat := bits (leNat (d.take 8)) 0 48
def shardA (d : List Byte) (k : Nat) : Nat := bits (leNat ((d.drop (8 + 8 * k)).take 8)) 0 48
def shardTid (d : List Byte) : Nat := leNat ((d.drop 0x30).take 4)

/-- Gathered bytes written into the weight replica of one section, their units saved first in the journal (13 R461). -/
def State.putIn (s : State) (p sec tid off : Nat) (data : List Byte) : State :=
  let va := Config.replicaVa p sec tid % 2 ^ 48 + off
  match s.hubKeys p va data.length with
  | none => s
  | some ks => ((s.journalUnits p 3 (s.lowSec p) (s.stepNum p) va data.length).writeKeys' 8 (ks.zip data)).2

/-- Gathered bytes written into the weight replica of each section, their units saved first in the journal (13 R461).  Where a
replica stands is in the job's plan, which the spec does not lay out: a free virtual address (assumption 24). -/
def State.putReplica (s : State) (p tid off : Nat) (data : List Byte) : State :=
  (s.partSecs p).foldl (fun s sec => s.putIn p sec tid off data) s

/-- The bucket whose weights have a tensor ID, by the shard descriptors of a hosted slot. -/
def State.bucketOfW (s : State) (p tid : Nat) : Option Nat :=
  let j := s.job p
  ((j.hosted s.me).head?).bind (fun slot => j.bucketIdx.find? (fun b => shardTid (s.shard p slot b) == tid))

/-- Frames of an all-gather still to come: every chunk that the job updates, but what has arrived. -/
def State.gatherWidth (s : State) (p b c : Nat) : Option Nat := (s.chunkGroup p b c).map (fun g => g.wType.bits / 8)

/-- First elements of the all-gather frames of a chunk. -/
def gatherElems (l c w : Nat) : List Nat :=
  (List.range ((chunkLen l c * w + 959) / 960)).map (fun k => c * chunkQ l + k * (960 / w))

def State.gathersIn (s : State) (p : Nat) : Bool :=
  let j := s.job p
  j.bucketIdx.all (fun b => (List.range 16384).all (fun c =>
    match s.gatherWidth p b c with
    | none => true
    | some w => (gatherElems (j.len b) c w).all (fun e => j.gathIn.any (fun x => x.1 == b && x.2.1 == e))))

/-- The lowest slot of a device among some slots. -/
def JobSt.lowestAt (j : JobSt) (d : Nat) (l : List Nat) : Nat := (l.find? (fun x => j.hostOf x == d)).getD 0

/-- One frame of gathered weights taken: written into the replica, noted. -/
def State.takeGather (s : State) (p : Nat) (d : List Byte) : State :=
  match s.bucketOfW p (cTid d) with
  | none => s
  | some b =>
    let j := s.job p
    let c := cElem d / chunkQ (j.len b)
    match s.gatherWidth p b c with
    | none => s
    | some w =>
      if j.gathIn.any (fun x => x.1 == b && x.2.1 == cElem d) then s
      else
        (s.putReplica p (cTid d) (cElem d * w) (d.drop 16)).modJob p (fun j =>
          { j with gathIn := j.gathIn ++ [(b, cElem d, d.length - 16)] })

/-- A KIND 2 frame on the device of a slot of its column: taken, and sent on along the reach, once to each device that hosts a
slot of one of its reach groups (R421). -/
def State.gatherFlight (s : State) (p : Nat) (d : List Byte) : State :=
  let s := s.takeGather p d
  let j := s.job p
  match s.bucketOfW p (cTid d) with
  | none => s
  | some b =>
    let cf := cElem d / chunkQ (j.len b) % 128
    let mine := (j.hosted s.me).filter (fun x => x % 128 == cf)
    let group (slot : Nat) : List Nat := (List.range 128).map (· + slot / 128 * 128)
    ((mine.flatMap group).map j.hostOf).eraseDups.foldl (fun s dev =>
      match mine.find? (fun slot => (group slot).any (fun x => j.hostOf x == dev)) with
      | some slot =>
        if dev = s.me then s
        else s.sendPart p 2 dev 3 (collHead (cTid d) slot (j.lowestAt dev (group slot)) 3 false false (cElem d) (s.stepNum p) 2
          ++ d.drop 16)
      | none => s) s

/-- A chunk of updated weights leaves for every device that hosts a slot of its column (R421). -/
def State.gatherChunk (s : State) (p b c : Nat) : State :=
  let j := s.job p
  let sh := s.shard p c b
  match s.gatherWidth p b c with
  | none => s
  | some w =>
    let n := chunkLen (j.len b) c * w
    match s.hubRead 8 p (shardW sh) n with
    | (none, s) => s
    | (some data, s) =>
      let col := (List.range 128).map (fun sr => sr * 128 + c % 128)
      let devs := (col.map j.hostOf).eraseDups
      ((gatherElems (j.len b) c w).zip (pieces (960 / w * w) data)).foldl (fun s e =>
        devs.foldl (fun s dev =>
          let f := collHead (shardTid sh) c (j.lowestAt dev col) 2 false false e.1 (s.stepNum p) 2 ++ e.2
          if dev = s.me then s.gatherFlight p f else s.sendPart p 2 dev 3 f) s) s

/-- Elements of a span: those of a stage-2 frame (13 R456). -/
def State.spanLen (s : State) (p : Nat) : Nat := if s.on (STEP_COLL_CFG_PARTIAL p) then 120 else 240

/-- Whether every span of a chunk has its final values. -/
def State.chunkReduced (s : State) (p b c : Nat) : Bool :=
  let j := s.job p
  let n := s.spanLen p
  let l := j.len b
  (List.range ((chunkLen l c + n - 1) / n)).all (fun k =>
    j.spans.any (fun x => x.bucket == b && x.chunk == c && x.elem == c * chunkQ l + k * n))

def State.chunkUpdated (s : State) (p b c : Nat) : Bool :=
  s.chunkReduced p b c && ((s.job p).spans.filter (fun x => x.bucket == b && x.chunk == c)).all TSpan.updated

/-- All-gathers that may start now: the verdict is FINITE, the chunk is updated (R421, R426). -/
def State.startGathers (s : State) (p : Nat) : State :=
  if s.on (STEP_VOTE_VALID p) && !s.on (STEP_VOTE_SKIP p) then
    let j := s.job p
    ((j.hosted s.me).flatMap (fun c => j.bucketIdx.map (fun b => (b, c)))).foldl (fun s e =>
      if 0 < chunkLen (j.len e.1) e.2 && s.chunkUpdated p e.1 e.2 && !(s.job p).gathOut.contains e
          && (s.gatherWidth p e.1 e.2).isSome then
        (s.modJob p (fun j => { j with gathOut := j.gathOut ++ [e] })).gatherChunk p e.1 e.2
      else s) s
  else s

/-! ### The summation tree (R414 to R417) -/

def State.partialFmt (s : State) (p : Nat) : Fmt := if s.on (STEP_COLL_CFG_PARTIAL p) then fmtXA else fmtFP32

/-- A leaf element on entry: exact to XA, flushed if subnormal in FP32, with UNDERFLOW only as for any input (02 R63, R80). -/
def leafIn (f : Fmt) (x : Nat) : NRes :=
  if f == fmtXA then widen fmtFP32 fmtXA x
  else if isSubnormal fmtFP32 x then ⟨bits x 31 1 * 2 ^ 31, flUnderflow, 0⟩ else NRes.ok x

def addPair (f : Fmt) (a b : Nat) : Nat × Flags := let r := fAdd f a b; (r.v, r.fl)

/-- One element combined: the tree of R200 over the positions, or a running sum in arrival order. -/
def combineEl (free : Bool) (f : Fmt) (l : List (Option Nat)) : Option Nat × Flags :=
  if free then
    (l.filterMap id).foldl (fun a x => match a.1 with
      | none => (some x, a.2)
      | some y => let r := addPair f y x; (some r.1, a.2 ||| r.2)) (none, 0)
  else treeFold (addPair f) 7 l

/-- Columns of elements combined over their positions: the elements, and the flags. -/
def combineCols (free : Bool) (f : Fmt) (n : Nat) (cols : List (Option (List Nat))) : List (Option Nat) × Flags :=
  let rs := (List.range n).map (fun i => combineEl free f (cols.map (fun c => c.map (fun l => l.getD i 0))))
  (rs.map Prod.fst, (rs.map Prod.snd).foldl (· ||| ·) 0)

def xaNF (f : Fmt) (x : Nat) : Bool := !(decodeRaw f x).isFinite

/-- The inputs of a stage at one first element: a column for each position that has one, in position order, or in order
of arrival in a free-order job. -/
def stageCols (free : Bool) (ins : List StageIn) (elem : Nat) : List (Option (List Nat)) :=
  let here := ins.filter (fun x => x.elem == some elem)
  if free then here.map (fun x => some x.codes)
  else (List.range 128).map (fun pos => (here.find? (fun x => x.pos == pos)).map StageIn.codes)

/-- The final value of a partial (R415). -/
def State.finalT (s : State) (p tid i : Nat) (x : Option Nat) : NRes :=
  match x with
  | none => NRes.ok 0
  | some v =>
    if s.on (STEP_COLL_CFG_PARTIAL p) then
      let rnd := (Rnd.ofCode (s.fld (STEP_COLL_CFG_RND p))).getD .rne
      let draw := keyedDraw (s.jobSeed p) (s.stepNum p) (roundingCtr 0xFFFF tid i)
      let (u, fl) := readNum fmtXA v
      let r := convertTo .fp32 rnd (bits draw 0 16) u
      { r with fl := r.fl ||| fl }
    else NRes.ok v

/-- Stage 2 of one span of a chunk, once each of its 128 positions has delivered (R414, R415, R419). -/
def State.stage2Try (s : State) (p b c elem : Nat) : State :=
  let j := s.job p
  let ins := j.ins.filter (fun x => x.stage == 2 && x.bucket == b && x.chunk == c)
  let ready := (List.range 128).all (fun pos => ins.any (fun x => x.pos == pos && (x.elem == some elem || x.elem.isNone)))
  if !ready || j.spans.any (fun x => x.bucket == b && x.chunk == c && x.elem == elem) then s
  else
    let f := s.partialFmt p
    let n := min (s.spanLen p) (c * chunkQ (j.len b) + chunkLen (j.len b) c - elem)
    let free := s.on (STEP_COLL_CFG_ORDER p)
    let (vs, fl) := combineCols free f n (stageCols free ins elem)
    let ts := vs.zipIdx.map (fun e => s.finalT p (j.tid b) (elem + e.2) e.1)
    let nf := (ins.filter (fun x => x.elem == some elem)).any StageIn.nf
      || vs.any (fun v => v.any (xaNF f)) || ts.any (fun t => isNF32 t.v)
    let s := s.orStep p ((ts.map NRes.fl).foldl (· ||| ·) fl)
    let s := if nf then s.setFld (STEP_VOTE_LOCAL_NF p) 1 else s
    s.modJob p (fun j => { j with spans := j.spans ++ [⟨b, c, elem, ts.map NRes.v, nf, false⟩] })

/-- First elements of the stage-2 frames of a chunk. -/
def State.spanElems (s : State) (p b c : Nat) : List Nat :=
  let l := (s.job p).len b
  (List.range ((chunkLen l c + s.spanLen p - 1) / s.spanLen p)).map (fun k => c * chunkQ l + k * s.spanLen p)

/-- A KIND 1 partial, or the marker in its place, at stage 2. -/
def State.stage2In (s : State) (p : Nat) (x : StageIn) : State :=
  if (s.job p).ins.any (fun y => y.stage == 2 && y.bucket == x.bucket && y.chunk == x.chunk && y.pos == x.pos
      && y.elem == x.elem) then s
  else
    let s := s.modJob p (fun j => { j with ins := j.ins ++ [x] })
    match x.elem with
    | some e => s.stage2Try p x.bucket x.chunk e
    | none => (s.spanElems p x.bucket x.chunk).foldl (fun s e => s.stage2Try p x.bucket x.chunk e) s

/-- Stage 1 of a chunk, once each of its 128 positions has delivered every frame or a marker: the partial, or a marker
where every leaf is late, goes to stage 2 (R414, R419, R420). -/
def State.stage1Try (s : State) (p node b c : Nat) : State :=
  let j := s.job p
  let len := chunkLen (j.len b) c
  let e0 := c * chunkQ (j.len b)
  let ins := j.ins.filter (fun x => x.stage == 1 && x.node == node && x.bucket == b && (x.chunk == c || x.elem.isNone))
  let frames := (len + 239) / 240
  let ready := (List.range 128).all (fun pos =>
    ins.any (fun x => x.pos == pos && x.elem.isNone) || (ins.filter (fun x => x.pos == pos)).length == frames)
  if len = 0 || !ready || j.stage1.contains (node, b, c) then s
  else
    let s := s.modJob p (fun j => { j with stage1 := j.stage1 ++ [(node, b, c)] })
    let f := s.partialFmt p
    let w := if f == fmtXA then 8 else 4
    let free := s.on (STEP_COLL_CFG_ORDER p)
    let data := ins.filter (fun x => x.elem.isSome)
    let dev := j.hostOf c
    let tid := j.tid b
    let step := s.stepNum p
    if data.isEmpty then
      let m : StageIn := ⟨2, c, b, c, node / 128, none, false, []⟩
      if dev = s.me then s.stage2In p m else s.sendPart p 2 dev 3 (collHead tid node c 1 false true 0 step 0)
    else
      let rs := (List.range frames).map (fun k =>
        combineCols free f (min 240 (len - 240 * k)) (stageCols free data (e0 + 240 * k)))
      let vs := (rs.flatMap Prod.fst).map (fun v => v.getD 0)
      let nf := data.any StageIn.nf || vs.any (xaNF f)
      let s := s.orStep p ((rs.map Prod.snd).foldl (· ||| ·) 0)
      let n := s.spanLen p
      (pieces n vs).zipIdx.foldl (fun s e =>
        let elem := e0 + n * e.2
        if dev = s.me then s.stage2In p ⟨2, c, b, c, node / 128, some elem, nf, e.1⟩
        else s.sendPart p 2 dev 3 (collHead tid node c 1 nf false elem step (if w = 8 then 1 else 0)
          ++ e.1.flatMap (leBytes w))) s

/-- A KIND 0 leaf frame, or a marker, at stage 1. -/
def State.stage1In (s : State) (p : Nat) (x : StageIn) : State :=
  if (s.job p).ins.any (fun y => y.stage == 1 && y.node == x.node && y.bucket == x.bucket && y.pos == x.pos
      && (y.elem == x.elem || y.elem.isNone)) then s
  else
    let f := s.partialFmt p
    let es := x.codes.map (leafIn f)
    let s := s.orStep p ((es.map NRes.fl).foldl (· ||| ·) 0)
    let s := s.modJob p (fun j => { j with ins := j.ins ++ [{ x with codes := es.map NRes.v }] })
    match x.elem with
    | some _ => s.stage1Try p x.node x.bucket x.chunk
    | none => (List.range 128).foldl (fun s cr => s.stage1Try p x.node x.bucket (cr * 128 + x.node % 128)) s

/-! ### Stragglers (R429 to R433) -/

/-- The marker of a late pair to the 128 stage-1 nodes of its slot. -/
def State.sendLate (s : State) (p slot b : Nat) : State :=
  let j := s.job p
  (List.range 128).foldl (fun s cf =>
    let node := slot / 128 * 128 + cf
    let dev := j.hostOf node
    if dev = s.me then s.stage1In p ⟨1, node, b, 0, slot % 128, none, false, []⟩
    else s.sendPart p 2 dev 3 (collHead (j.tid b) slot node 0 false true 0 (s.stepNum p) 0)) s

/-- A held deferral of an earlier step for a pair. -/
def State.heldFor (s : State) (p slot b : Nat) : Option Deferral :=
  (s.job p).held.find? (fun h => h.slot == slot && h.bucket == b && h.made != s.stepNum p)

/-- A pair declared late with its decision; a list holds at most 65,536 entries (R433).  Under DEFER an older deferral of the pair is
dropped (R430), in a replay too, whose list may say 1 for it (R428, 19 R636). -/
def State.declareLate (s : State) (p : Nat) (x : Late) : State :=
  let j := s.job p
  let older := x.decision == 2 || (!s.on (STEP_COLL_CFG_STRAG_POLICY p) && (s.heldFor p x.slot x.bucket).isSome)
  if 65536 ≤ j.late.length ∨ j.posted.contains (x.slot, x.bucket) ∨ j.late.any (fun y => y.slot == x.slot && y.bucket == x.bucket) then s
  else
    let s := s.modJob p (fun j => { j with
      late := j.late ++ [x]
      dropped := if older then j.dropped ++ [(x.slot, x.bucket)] else j.dropped })
    let s := if x.decision = 1 then s.bump (STEP_LATE_DROPPED p) 1 else s.bump (STEP_LATE_DEFERRED p) 1
    let s := if older then s.bump (STEP_LATE_DROPPED p) 1 else s
    s.sendLate p x.slot x.bucket

def State.lateDecision (s : State) (p slot b : Nat) : Nat :=
  if s.on (STEP_COLL_CFG_STRAG_POLICY p) then 1
  else if (s.heldFor p slot b).isSome then 2 else 0

/-- The straggler window opens at the first contribution or leaf of the step (R429); in a replay the listed pairs are
late at once (R433). -/
def State.openWindow (s : State) (p : Nat) : State :=
  let j := s.job p
  if j.window.isSome then s
  else
    match j.replayList with
    | some l =>
      (l.filter (fun x => j.hostOf x.slot == s.me)).foldl (fun s x => s.declareLate p x)
        (s.modJob p (fun j => { j with window := some s.timeUs, windowShut := true }))
    | none =>
      if s.fld (STEP_COLL_CFG_STRAG_US p) = 0 then s
      else s.modJob p (fun j => { j with window := some s.timeUs })

/-- STRAGGLER_WINDOW_CLOSE: every pair whose descriptor has not been posted is late (R429). -/
def execStragglerWindowClose (p : Fin 8) (s : State) : Out :=
  unlessStopped s (
    let j := s.job p
    if s.stepping p && j.window.isSome && !j.windowShut then
      let s := s.modJob p (fun j => { j with windowShut := true })
      .next (((j.hosted s.me).flatMap (fun slot => j.bucketIdx.map (fun b => (slot, b)))).foldl (fun s e =>
        s.declareLate p ⟨e.1, e.2, s.lateDecision p e.1 e.2⟩) s)
    else .next s)

/-! ### Contributions (R411 to R413, R422, R430) -/

/-- The leaf of a pair sent to the stage-1 nodes of its slot, chunk by chunk (R418). -/
def State.sendLeaf (s : State) (p slot b : Nat) (nf : Bool) (codes : List Nat) : State :=
  let j := s.job p
  let l := j.len b
  (pieces (chunkQ l) codes).zipIdx.foldl (fun s ch =>
    let node := slot / 128 * 128 + ch.2 % 128
    let dev := j.hostOf node
    (pieces 240 ch.1).zipIdx.foldl (fun s e =>
      let elem := ch.2 * chunkQ l + 240 * e.2
      if dev = s.me then s.stage1In p ⟨1, node, b, ch.2, slot % 128, some elem, nf, e.1⟩
      else s.sendPart p 2 dev 3 (collHead (j.tid b) slot node 0 nf false elem (s.stepNum p) 0
        ++ e.1.flatMap (leBytes 4))) s) s

/-- The bytes that a held deferral takes: those of its place in a part (15 R497; assumption 26). -/
def deferLen (n : Nat) : Nat := roundUp (16 + 4 * n) 64

/-- Whether a deferral of `n` elements for a slot finds pound space that no claim has reserved (19 R636): what the layout leaves, less the
deferrals of this step. -/
def State.deferRoom (s : State) (p slot n : Nat) : Bool :=
  let j := s.job p
  let sec := s.siteSec p slot
  let spare := ((j.pounds.find? (fun l => l.sec == sec)).map PoundLay.spare).getD 0
  let taken := ((j.held.filter (fun h => h.made == s.stepNum p && s.siteSec p h.slot == sec)).map (fun h => deferLen h.data.length)).foldl (· + ·) 0
  decide (taken + deferLen n ≤ spare)

/-- A leaf posted for a late pair: held, or dropped where the policy or the pound says so (R430, 19 R636). -/
def State.lateLeaf (s : State) (p slot b : Nat) (nf : Bool) (codes : List Nat) : State :=
  let d := ((s.job p).late.find? (fun x => x.slot == slot && x.bucket == b)).map Late.decision
  if d = some 1 then s
  else
    if s.deferRoom p slot codes.length ∨ (s.job p).replayList.isSome then
      s.modJob p (fun j => { j with held := j.held ++ [⟨slot, b, nf, s.scaleE p, codes, s.stepNum p⟩] })
    else
      let s := (s.setFld PM_CLAIM_DEFER_DROPPED 1).bump (STEP_LATE_DROPPED p) 1
      let s := s.setFld (STEP_LATE_DEFERRED p) (s.fld (STEP_LATE_DEFERRED p) - 1)
      s.modJob p (fun j => { j with late := j.late.map (fun x =>
        if x.slot == slot && x.bucket == b then { x with decision := 1 } else x) })

/-- A leaf posted in time: a held deferral of the pair joins it, on the left (R430, 02 R91). -/
def State.timelyLeaf (s : State) (p slot b : Nat) (nf : Bool) (codes : List Nat) : State :=
  match s.heldFor p slot b with
  | none => s.sendLeaf p slot b nf codes
  | some h =>
    let d := s.scaleE p - h.e
    let rs := (h.data.zip codes).map (fun e =>
      let (v, fl) := readNum fmtFP32 e.1
      let m := encodeRes fmtFP32 (scaleVal v d) false
      let a := fAdd fmtFP32 m.v e.2
      (m.v, a.v, fl ||| m.fl ||| a.fl))
    let nf := nf || h.nf || rs.any (fun r => isNF32 r.1 || isNF32 r.2.1)
    let s := s.orStep p ((rs.map (fun r => r.2.2)).foldl (· ||| ·) 0)
    let s := s.modJob p (fun j => { j with joined := j.joined ++ [(slot, b)] })
    s.sendLeaf p slot b nf (rs.map (fun r => r.2.1))

/-- Where the hub puts a claim of `n` bytes below `top`: right below it, or below the ledger region where it would meet that (19
R635). -/
def placeClaim (led : Nat × Nat) (top n : Nat) : Nat :=
  if top - n < led.2 ∧ led.1 < top then led.1 - n else top - n

/-- Stack addresses of the ledger region in its section; none elsewhere. -/
def State.ledgerSpan (s : State) (p sec : Nat) : Nat × Nat :=
  if s.lowSec p = sec then
    match (s.hubTranslate p (s.fld (STEP_LEDGER_BASE p))).map Prod.fst with
    | none => (0, 0)
    | some k => (k - keyStack sec 0, k - keyStack sec 0 + 2 ^ 20 * s.fld (STEP_LEDGER_SIZE p))
  else (0, 0)

/-- The stack address of a pound's contribution ring: below the dump area and the replay window (19 R635). -/
def State.ringBase (s : State) (p sec : Nat) : Nat :=
  let led := s.ledgerSpan p sec
  let top := if sec = 0 then placeClaim led s.stackBytes (2 ^ 26) else s.stackBytes
  placeClaim led (if s.lowSec p = sec then placeClaim led top 0x820000 else top) (2 ^ 14)

/-- The contribution ring of a section (R412). -/
def State.ringKey (s : State) (p sec : Nat) : Nat := keyStack sec (s.ringBase p sec)

def State.collReject (s : State) (p sec idx : Nat) : State := s.file 0x0040 clsNotice 5 sec idx (some p)

/-- Whether a descriptor is one that R413 rejects. -/
def State.contribBad (s : State) (p : Nat) (d : List Byte) : Bool :=
  let j := s.job p
  let w := wordAt d 4
  let slot := bits w 0 14
  let b := bits w 14 10
  let base := leNat ((d.drop 8).take 8)
  let l := wordAt d 0x10
  bits w 25 7 != 0 || (d.drop 0x20).take 0x1C != List.replicate 0x1C 0 || bits base 48 16 != 0 || wordAt d 0x14 != 0
    || base % 64 != 0 || bits (wordAt d 0x3C) 3 29 != 0 || j.buckets.length ≤ b || j.len b != l || j.tid b != wordAt d 0
    || j.hostOf slot != s.me || leNat ((d.drop 0x18).take 8) != s.stepNum p || (s.hubKeys p base (4 * l)).isNone

/-- A contribution taken: its elements are read and tested (R422). -/
def State.contribute (s : State) (p : Nat) (d : List Byte) : State :=
  let w := wordAt d 4
  let slot := bits w 0 14
  let b := bits w 14 10
  let l := wordAt d 0x10
  let s := s.openWindow p
  if (s.job p).posted.contains (slot, b) then s
  else
    match s.hubRead 8 p (leNat ((d.drop 8).take 8)) (4 * l) with
    | (none, s) => s
    | (some bs, s) =>
      let codes := numsOf 4 l bs
      let nf := bit w 24 || codes.any isNF32
      let late := (s.job p).late.any (fun x => x.slot == slot && x.bucket == b)
      let s := s.modJob p (fun j => { j with posted := j.posted ++ [(slot, b)] })
      if late then s.lateLeaf p slot b nf codes else s.timelyLeaf p slot b nf codes

/-- Whether a partition's job is in HOLD: it sends nothing for its step (14 R480). -/
def State.holding (s : State) (p : Nat) : Bool := s.partState p == ptStarted && s.fld (STEP_STATUS_STATE p) == 3

/-- A doorbell of a port engine group: the ring slot's 64 bytes and its BUSY word, released (R412).  In HOLD it waits. -/
def doorbell (ch form : Nat) (tok : Word) (bad : State → Nat → Nat → Nat → State)
    (g : State → Nat → Nat → List Byte → State) (s : State) : Out :=
  unlessStopped s (
    if tokKind tok = 1 ∧ 48 ≤ tokDstNode tok ∧ tokDstNode tok < 56 ∧ tokDstSub tok = 0 ∧ tokChannel tok = ch
        ∧ s.tokFirst tok ∧ !(s.secPart (tokDstNode tok - 48)).any s.holding then
      let s := s.takeTok tok
      let sec := tokDstNode tok - 48
      match s.secPart sec with
      | none => .next (s.unitOverflow tok)
      | some p =>
        let i := bits tok.toNat 0 8
        let k := s.ringKey p sec + 64 * i
        let d := s.rdB k 64
        let busy := wordAt d 0x3C
        let s := s.wr (k + 0x3C) 4 0
        if bits tok.toNat 8 16 ≠ 0 ∨ bits busy 0 1 = 0 ∨ bits busy 1 2 ≠ form then .next (bad s p sec i)
        else .next (g s p sec d)
    else .next s)

/-- CONTRIBUTION_DOORBELL (R411 to R413). -/
def execContributionDoorbell (tok : Word) (s : State) : Out :=
  doorbell 1 1 tok State.collReject
    (fun s p sec d =>
      if !s.inStep p || s.contribBad p d then s.collReject p sec (bits tok.toNat 0 8)
      else s.contribute p d) s

/-! ### Collective frames that arrive -/

/-- Whether a collective frame matches an open stage of the device (R418). -/
def State.collOpen (s : State) (p step : Nat) (d : List Byte) : Bool :=
  let j := s.job p
  decide (16 ≤ d.length) && cStep d == step % 2 ^ 16 && bits (wordAt d 12) 18 14 == 0 && j.hostOf (cDst d) == s.me &&
    (if cLate d then d.length == 16 && cElem d == 0 && !cNf d && decide (cKind d < 2) && (j.bucketOf (cTid d)).isSome
      && (if cKind d = 0 then cSrc d / 128 == cDst d / 128 else true)
    else
      match cKind d with
      | 0 => cFmt d == 0 && (j.bucketOf (cTid d)).any (fun b =>
          let l := j.len b
          decide (cElem d < l) && cElem d / chunkQ l % 128 == cDst d % 128 && cSrc d / 128 == cDst d / 128
            && cElem d % chunkQ l % 240 == 0
            && d.length == 16 + 4 * min 240 (chunkLen l (cElem d / chunkQ l) - cElem d % chunkQ l))
      | 1 =>
        let xa := s.on (STEP_COLL_CFG_PARTIAL p)
        let n := s.spanLen p
        cFmt d == b2n xa && (j.bucketOf (cTid d)).any (fun b =>
          let l := j.len b
          decide (cElem d < l) && cElem d / chunkQ l == cDst d && cElem d % chunkQ l % n == 0
            && cSrc d % 128 == cDst d % 128
            && d.length == 16 + (if xa then 8 else 4) * min n (chunkLen l (cDst d) - cElem d % chunkQ l))
      | k => cFmt d == 2 && !cNf d && (s.bucketOfW p (cTid d)).any (fun b =>
          let c := cElem d / chunkQ (j.len b)
          (if k = 2 then c % 128 == cDst d % 128 else c % 128 == cSrc d % 128) &&
            (s.gatherWidth p b c).any (fun w => (gatherElems (j.len b) c w).contains (cElem d)
              && d.length == 16 + min (960 / w * w) ((chunkLen (j.len b) c - (cElem d - c * chunkQ (j.len b))) * w))))

/-- A collective frame of the current step. -/
def State.collNow (s : State) (p : Nat) (d : List Byte) : State :=
  let j := s.job p
  if !s.collOpen p (s.stepNum p) d then s.count FAB_DROP_ROUTE 1
  else
    let b := (j.bucketOf (cTid d)).getD 0
    let c := cElem d / chunkQ (j.len b)
    match cKind d with
    | 0 =>
      let s := s.openWindow p
      s.stage1In p ⟨1, cDst d, b, if cLate d then 0 else c, cSrc d % 128, if cLate d then none else some (cElem d), cNf d,
        if cLate d then [] else numsOf 4 ((d.length - 16) / 4) (d.drop 16)⟩
    | 1 =>
      let w := if cFmt d = 1 then 8 else 4
      s.stage2In p ⟨2, cDst d, b, cDst d, cSrc d / 128, if cLate d then none else some (cElem d), cNf d,
        if cLate d then [] else numsOf w ((d.length - 16) / w) (d.drop 16)⟩
    | 2 => s.gatherFlight p d
    | _ => s.takeGather p d

/-- Whether a job stands between its steps: its STATE is not RUNNING, APPLIED or HOLD. -/
def State.atRest (s : State) (p : Nat) : Bool :=
  let v := s.fld (STEP_STATUS_STATE p)
  v != 1 && v != 2 && v != 3

def State.holdColl (s : State) (p : Nat) (d : List Byte) : State :=
  s.modJob p (fun j => { j with heldIn := j.heldIn ++ [(3, 0, d)] })

/-- From the last APPLIED of a step on, what arrives for the next step is held until that starts (14 R478).  While the device
loads a restore, restored chunks reach the replicas (15 R498); between steps they are kept until it does.  A job in HOLD opens
no stage. -/
def State.collIn (s : State) (p : Nat) (d : List Byte) : State :=
  let whole := decide (2 ≤ cKind d) && !cLate d
  if s.partState p == ptStarted && s.atRest p then
    if whole && s.fld (STEP_RESTORE_STATE p) == 1 then s.collNow p d
    else if whole || s.collOpen p (s.stepNum p) d then s.holdColl p d
    else s.count FAB_DROP_ROUTE 1
  else if (s.job p).appliedSent && s.collOpen p (s.stepNum p + 1) d then s.holdColl p d
  else if s.stepping p || s.fld (STEP_STATUS_STATE p) == 2 then s.collNow p d
  else s.count FAB_DROP_ROUTE 1

def collRow (lam : Fin 256) (frame : List Byte) (fits : List Byte → Bool) (s : State) : Out :=
  receivePart 3 lam frame (fun _ _ d => fits d) (fun _ _ _ => true) (fun s p d => s.collIn p d) s

/-- COLLECTIVE_LEAF: a KIND 0 frame at a stage-1 node (R419). -/
def execCollectiveLeaf (lam : Fin 256) (frame : List Byte) (s : State) : Out :=
  collRow lam frame (fun d => cKind d == 0 && !cLate d) s

/-- COLLECTIVE_PARTIAL: a KIND 1 frame at a stage-2 node (R414). -/
def execCollectivePartial (lam : Fin 256) (frame : List Byte) (s : State) : Out :=
  collRow lam frame (fun d => cKind d == 1 && !cLate d) s

/-- LATE_MARKER: a marker stands in for an absent input (R420, R429). -/
def execLateMarker (lam : Fin 256) (frame : List Byte) (s : State) : Out :=
  collRow lam frame (fun d => cLate d) s

/-- GATHER_FLIGHT: a KIND 2 frame (R421). -/
def execGatherFlight (lam : Fin 256) (frame : List Byte) (s : State) : Out :=
  collRow lam frame (fun d => cKind d == 2 && !cLate d) s

/-- GATHER_REACH: a KIND 3 frame (R421). -/
def execGatherReach (lam : Fin 256) (frame : List Byte) (s : State) : Out :=
  collRow lam frame (fun d => cKind d == 3 && !cLate d) s

/-! ### Span updates (13 R456 to R459) -/

/-- Where element `j` of a chunk lies by operand code (R455): virtual address and type. -/
def shardEl (sh : List Byte) (g : Grp) (j code : Nat) : Nat × Ty :=
  if code = 0 then (shardW sh + j * (g.wType.bits / 8), g.wType)
  else (shardA sh (code - 2) + j * ((g.aType (code - 2)).bits / 8), g.aType (code - 2))

/-- The group that updates an element: none where no entry covers it or it is FROZEN (R452). -/
def State.liveGroup (s : State) (p b i : Nat) : Option Grp :=
  ((s.groupOf p 0 b i).map (s.groupRec p)).filter (fun g => !g.frozen)

/-- One element of a span: what is written, by operand code and address, and the flags. -/
def State.spanElem (s : State) (p b c : Nat) (sh : List Byte) (i t : Nat) : Option (List (Nat × Nat × Ty × Nat) × Flags) :=
  (s.liveGroup p b i).map (fun g =>
    let va := shardEl sh g (i - c * chunkQ ((s.job p).len b))
    let val (code : Nat) : Nat := s.hubNum p (va code).1 ((va code).2.bits / 8)
    let (outs, fl) := s.runElem p (s.program p g.prog) g ⟨s.jobSeed p, s.stepNum p, shardTid sh, i⟩ g.wType (val 0) t
      ((List.range g.nstate).map (fun k => val (2 + k)))
    (outs.map (fun o => (o.1, (va o.1).1, (va o.1).2, o.2)), fl))

/-- What the program of an element writes: operand code, virtual address, bytes (R444). -/
def State.elemWrites (s : State) (p b c : Nat) (sh : List Byte) (i : Nat) : List (Nat × Nat × Nat) :=
  match s.liveGroup p b i with
  | none => []
  | some g =>
    let ws := s.program p g.prog
    ((0 :: (List.range g.nstate).map (· + 2)).filter (progWrites ws)).map (fun code =>
      let e := shardEl sh g (i - c * chunkQ ((s.job p).len b)) code
      (code, e.1, e.2.bits / 8))

/-- The ranges that a span's journal entries save: w and each written state slot, each from the first byte written to the last
(R461). -/
def jnlRanges (ws : List (Nat × Nat × Nat)) : List (Nat × Nat) :=
  [0, 2, 3, 4, 5].filterMap (fun code =>
    let mine := ws.filter (fun w => w.1 == code)
    mine.head?.map (fun w =>
      let lo := mine.foldl (fun m e => min m e.2.1) w.2.1
      (lo, mine.foldl (fun m e => max m (e.2.1 + e.2.2)) 0 - lo)))

/-- The elements of span `k` of a chunk. -/
def State.spanIdx (s : State) (p b c k : Nat) : List Nat :=
  let q := c * chunkQ ((s.job p).len b)
  (List.range (min (s.spanLen p) (chunkLen ((s.job p).len b) c - k * s.spanLen p))).map (· + (q + k * s.spanLen p))

/-- The keys of what the program of an element reads: w and the state vectors of its group (13 R444). -/
def State.spanKeysOf (s : State) (p b c : Nat) (sh : List Byte) (i : Nat) : List Nat :=
  match s.liveGroup p b i with
  | none => []
  | some g =>
    (0 :: (List.range g.nstate).map (· + 2)).flatMap (fun code =>
      let e := shardEl sh g (i - c * chunkQ ((s.job p).len b)) code
      (s.hubKeys p e.1 (e.2.bits / 8)).getD [])

/-- The keys that the update of a span reads, each once: none where the shard is not the span's. -/
def State.spanReads (s : State) (p slot b elem : Nat) (x : TSpan) : List Nat :=
  let sh := s.shard p slot b
  if shardOk sh slot b then (x.codes.zipIdx.flatMap (fun e => s.spanKeysOf p b slot sh (elem + e.2))).eraseDups else []

/-- The span updated by a site (R456, R457): what the programs read, journal entry, programs, results written.  Site 0 is the
port engine group, site 1 the hub. -/
def State.updateSpan (s : State) (p site sec slot b k : Nat) : State :=
  let j := s.job p
  let elem := slot * chunkQ (j.len b) + k * s.spanLen p
  match j.spans.find? (fun x => x.bucket == b && x.chunk == slot && x.elem == elem && !x.updated) with
  | none => s
  | some x =>
    let sh := s.shard p slot b
    let who := if site = 0 then 8 else 7
    match s.readKeys who (s.spanReads p slot b elem x) with
    | (none, s) => s
    | (some _, s) =>
    let outs := if shardOk sh slot b then x.codes.zipIdx.filterMap (fun e => s.spanElem p b slot sh (elem + e.2) e.1) else []
    let ws := outs.flatMap Prod.fst
    let cells := ws.flatMap (fun w =>
      ((s.hubKeys p w.2.1 (w.2.2.1.bits / 8)).getD []).zip (leBytes (w.2.2.1.bits / 8) w.2.2.2))
    let s := (jnlRanges (ws.map (fun w => (w.1, w.2.1, w.2.2.1.bits / 8)))).foldl (fun s r =>
      s.journalUnits p site sec (s.stepNum p) r.1 r.2) s
    let s := (s.writeKeys' who cells).2
    let s := (s.countNF p (ws.map (fun w => w.2.2))).orStep p ((outs.map Prod.snd).foldl (· ||| ·) 0)
    let s := s.modJob p (fun j => { j with spans := j.spans.map (fun y =>
      if y.bucket == b && y.chunk == slot && y.elem == elem then { y with updated := true } else y) })
    s.startGathers p

/-- Whether a span of a hosted slot may be updated: the step runs, its verdict is not SKIP. -/
def State.spanReady (s : State) (p site slot : Nat) : Bool :=
  s.stepping p && s.fld (STEP_UPD_CFG_DENSE_SITE p) == site && (s.job p).hostOf slot == s.me
    && !(s.on (STEP_VOTE_VALID p) && s.on (STEP_VOTE_SKIP p))

/-- SPAN_UPDATE (13 R456). -/
def execSpanUpdate (g : Fin 8) (p : Fin 8) (slot : Nat) (bucket : Nat) (span : Nat) (s : State) : Out :=
  unlessStopped s (
    if s.spanReady p 0 slot && slot % 8 == g.val then .next (s.updateSpan p 0 (s.siteSec p slot) slot bucket span) else .next s)

/-- HUB_SPAN_UPDATE (13 R457). -/
def execHubSpanUpdate (p : Fin 8) (slot : Nat) (bucket : Nat) (span : Nat) (s : State) : Out :=
  unlessStopped s (
    if s.spanReady p 1 slot then .next (s.updateSpan p 1 (s.lowSec p) slot bucket span) else .next s)

end Sys2Proof.Machine
end

