-- ==== Sys2Proof/Machine/Fabric.lean ====
section
/-! DEFINITION. Events of the Laniac fabric (11): bring-up, management frames, forwarding, replay, light. -/

namespace Sys2Proof.Machine

/-! ### ARBITER_ROUND -/

/-- ARBITER_ROUND: one round of an arbiter instance (08 R285, R288, 11 R391); `errs` are symbols of the stack's
codewords that have gone bad before it. -/
def execArbiterRound (inst : Fin 1824) (errs : List SymErr) (s : State) : Out :=
  if !s.dieUp then .next s
  else if 512 ≤ inst.val ∧ inst.val < 544 then .next (s.portRound (inst - 512))
  else if inst.val < 512 then .next ((s.addErrs (inst / 64) errs).memRound inst)
  else .next (s.memRound inst)

/-! ### Changes of a lambda's state -/

/-! ### Bring-up (R381 to R383) -/

/-- The payload of a HELLO: position, FEED_ID and build, nonce (assumption 22). -/
def State.helloData (s : State) : List Byte :=
  leBytes 2 (s.flight + s.reach * 2 ^ 7) ++ leBytes 2 (s.fld HUB_FEED_OWN) ++ leBytes 4 s.sec.fabBuild
    ++ leBytes 8 (s.fld SEC_BOOT_NONCE_NONCE)

/-- A HELLO that the training pattern of a lambda carries. -/
def State.emitHello (s : State) (l : Nat) : State :=
  let d := s.helloData
  let f := headE2E (s.peerOf l) s.me 0 6 d.length 0 false false ++ linkFields 0 0 false 0 0 false ++ d
  { s with fab := { s.fab with sent := s.fab.sent ++ [(l, f ++ leBytes 4 (crc32 f))] } }

/-- A lambda DOWN: its sender asks the peer what it has accepted (R395); while there is light the training pattern with its
HELLO goes out again (R384). -/
def State.goDown (s : State) (l : Nat) : State :=
  let s := s.leaveUp l lsDown
  let s := s.file 0x0034 clsNotice 4 (lamPort l) (lamJ l)
  let s := s.setLam l { s.lam l with querying := true, trained := false }
  let s := if s.lit l then s.emitHello l else s
  s.sendMgmt (s.peerOf l) 8 none []

/-- The index that the light of one plane gives (R381): its own HELLO on exactly one port and wavelength. -/
def indexFrom (light : BitVec 256) (plane : Nat) : List Nat :=
  ((List.range 128).filter (fun i => light.getLsbD (plane * 128 + i))).flatMap (fun i =>
    ((List.range 8).filter (fun f => loopWave f == i % 8)).map (fun f => i / 8 * 8 + f))

/-- The state of the laser inputs of an engine shown on its four ports (R405). -/
def State.setLaser (s : State) (e : Nat) (a b : Bool) : State :=
  [2 * e, 2 * e + 1, 16 + 2 * e, 16 + 2 * e + 1].foldl (fun s n =>
    (s.setFld (OP_LASER_A_OK n) (b2n a)).setFld (OP_LASER_B_OK n) (b2n b)) s
def State.setSrc (s : State) (e v : Nat) : State :=
  [2 * e, 2 * e + 1, 16 + 2 * e, 16 + 2 * e + 1].foldl (fun s n => s.setFld (OP_LASER_SRC n) v) s

/-- The priorities of the port instances (R392). -/
def portPrios : List Nat := [15, 12, 8, 4, 4, 4, 4, 4, 4, 2, 2, 0, 0, 0, 0, 0]

/-- A lambda of an engine without light: DOWN, in whatever state it was; the replay buffer of one that has been UP is resolved (R395,
R406). -/
def State.darkLam (s : State) (l : Nat) : State :=
  if s.lamUp l || s.lstate l == lsRetrain || (s.lstate l == lsShuttered && (s.lam l).trained) then s.goDown l else s.setLstate l lsDown

/-- An engine that no input supplies whole: its 32 lambdas are DOWN, and the wavelengths missing on each input are reported (R406;
assumption 87). -/
def State.darkEngine (s : State) (e missA missB : Nat) : State :=
  let s := s.setLaser e false false
  let s := (s.file 0x0033 clsNotice 9 (2 * e) missA).file 0x0033 clsNotice 9 (2 * e + 1) missB
  (lamsOfEngine e).foldl State.darkLam s

/-- What an earlier bring-up found, forgotten: the position, and each lambda's peer and link; a lambda of an open port is ABSENT
until light of its peer arrives (R381, R382). -/
def State.forgetPosition (s : State) : State :=
  let s := ((s.setFld FAB_POS_VALID 0).setFld FAB_POS_FLIGHT 0).setFld FAB_POS_REACH 0
  (List.range 256).foldl (fun s l =>
    let s := if s.lstate l = lsShuttered then s else s.leaveUp l lsAbsent
    s.setLam l .idle) s

/-- FABRIC_BRING_UP: a write of FAB_CTRL.START (R383): laser inputs, the training pattern with its HELLO on every lambda,
position, a HELLO that names it on every lambda.  `light` tells on which port and wavelength the device sees its own HELLO,
`lasers` which wavelengths each input supplies: for engine e bits 16 e + i of A and 16 e + 8 + i of B. -/
def execFabricBringUp (light : BitVec 256) (lasers : BitVec 128) (s : State) : Out :=
  let s := s.asked
  if s.standing then .next (s.holdReq (.bringUp light lasers))
  else if !s.hubUp || !s.on HUB_FW_STATUS_READY || s.on FAB_CTRL_RUN then .next s
  else
    let s := { s.forgetPosition with fab := { s.forgetPosition.fab with enA := true, enB := true } }
    let miss (e b : Nat) : Nat := 255 - bits lasers.toNat (16 * e + 8 * b) 8
    let s := (List.range 8).foldl (fun s e =>
      (s.setLaser e (miss e 0 == 0) (miss e 1 == 0)).setSrc e (if miss e 0 = 0 then 0 else 1)) s
    let dark := (List.range 8).filter (fun e => miss e 0 != 0 && miss e 1 != 0)
    if !dark.isEmpty then .next (dark.foldl (fun s e => s.darkEngine e (miss e 0) (miss e 1)) s)
    else
      let s := (List.range 32).foldl (fun s n =>
        portPrios.zipIdx.foldl (fun s e => s.setFld (ARB_PRIO_PRIO (512 + n) e.2) e.1) s) s
      let s := (List.range 256).foldl State.emitHello s
      match indexFrom light 0, indexFrom light 1 with
      | [f], [r] =>
        let s := ((s.setFld FAB_POS_FLIGHT f).setFld FAB_POS_REACH r).setFld FAB_POS_VALID 1
        let s := (s.setLstate f lsLoop).setLstate (128 + r) lsLoop
        .next ((List.range 256).foldl State.emitHello s)
      | a, b =>
        let bad (plane : Nat) (l : List Nat) (s : State) : State :=
          if l.length = 1 then s
          else s.file 0x0030 clsNotice 4 32 (plane + (if l.isEmpty then 1 else 2) * 16)
        .next (bad 1 b (bad 0 a s))

/-- The position that a HELLO claims. -/
def helloPos (d : List Byte) : Nat := bits (leNat (d.take 2)) 7 7 * 128 + bits (leNat (d.take 2)) 0 7

/-- A HELLO taken: a peer at its own position is kept with nonce, feed and build, and a lambda that is ABSENT, MISWIRED or DOWN trains
where it has light of its own, one that may have been DOWN after its own training pattern (R382, R384), and is DOWN where it has none (R406,
19 R613); another position makes the lambda MISWIRED. -/
def State.noteHello (s : State) (l : Nat) (d : List Byte) : State :=
  let pos := helloPos d
  let x := s.lam l
  if pos = s.peerOf l then
    let s := s.setLam l { x with
      peerPos := pos, feed := some (bits (leNat ((d.drop 2).take 2)) 0 3)
      build := leNat ((d.drop 4).take 4), nonce := leNat ((d.drop 8).take 8) }
    if s.lstate l = lsDown ∨ s.lstate l = lsMiswired then
      (if s.lit l then (s.emitHello l).setLstate l lsTraining else s.setLstate l lsDown)
    else if s.lstate l = lsAbsent then s.setLstate l (if s.lit l then lsTraining else lsDown)
    else s
  else if s.lstate l = lsMiswired then s
  else ((s.setLam l { x with peerPos := pos, trained := false }).leaveUp l lsMiswired).file 0x0035 clsNotice 4 (lamPort l) pos

/-- HELLO: a peer's position, nonce, feed and build (R382). -/
def execHello (lam : Fin 256) (frame : List Byte) (s : State) : Out :=
  let l := s.lamAt lam
  if !frameSized frame then .fault (.impossible "frame length")
  else if !s.on FAB_POS_VALID || s.isLoop l || hType frame != 6 then .next s
  else if s.lamUp l then
    receive lam frame (fun _ _ _ => true) (fun _ _ d => d.length == 16) (fun s _ d => s.noteHello l d) s
  else if s.lstate l = lsShuttered ∨ s.on (OP_LASER_SHUT (lamPort l)) ∨ !headOk frame ∨ !crcOk frame ∨ hLen frame ≠ 16 then .next s
  else .next (s.noteHello l (hPay frame))

/-- LAMBDA_UP: training has ended; `lam.seq` is the peer's initial sequence number, after retraining the last that the peer has
accepted (R383, R394).  A lambda trains that has light and whose peer has named its own position; it comes UP once its
replay buffer is resolved (R395).  A loopback lambda is never UP (R379). -/
def execLambdaUp (lam : LamSeq) (s : State) : Out :=
  let l := lam.lam.val
  let x := s.lam l
  if !s.lit l || s.fld PM_CTRL_STATE != 0 then .next s
  else if s.isLoop l then
    if s.on FAB_POS_VALID && s.lstate l == lsDown then .next (s.setLstate l lsLoop) else .next s
  else if s.lstate l = lsRetrain then
    let rest := unacked lam.seq.toNat x.replay
    .next ((s.setLam l { x with replay := rest, resend := !rest.isEmpty, naks := 0, closed := false }).setLstate l lsUp)
  else if s.lstate l = lsTraining ∧ x.feed.isSome ∧ x.peerPos = s.peerOf l ∧ !(x.querying && !x.replay.isEmpty) then
    let (q, s) := s.free 12
    let s := { s with fab := { s.fab with outq := s.fab.outq.filter (fun o => !(o.typ == 8 && o.dst == s.peerOf l)) } }
    .next ((s.setLam l { x with
      txSeq := q, rxLast := some ((lam.seq.toNat + 4095) % 4096), closed := false, naks := 0, used := [], freed := [0, 0, 0, 0]
      resend := false, replay := [], crs := [], querying := false, trained := true }).setLstate l lsUp)
  else .next s

/-- LAMBDA_RETRAIN: no valid codeword for 2 µs, or 16 NAKs (R394). -/
def execLambdaRetrain (lam : Fin 256) (s : State) : Out :=
  let l := lam.val
  if s.lamUp l then .next (s.retrain l) else .next s

/-- LAMBDA_DOWN: retraining has failed (R394, R395). -/
def execLambdaDown (lam : Fin 256) (s : State) : Out :=
  if s.lstate lam = lsRetrain then .next (s.goDown lam) else .next s

/-! ### Replay (R393) -/

/-- RETRANSMIT: the frames not acknowledged go again, in order, ahead of every new frame (R391, R393). -/
def execRetransmit (lam : Fin 256) (s : State) : Out :=
  let l := lam.val
  let x := s.lam l
  if s.lamUp l && x.resend then
    let s := (s.setLam l { x with resend := false }).count (OP_LINK_REPLAYS (lamPort l)) 1
    let s := x.replay.foldl (fun s e => s.emitAgain l e) s
    .next { s with fab := { s.fab with
      busy := Tab.put s.fab.busy 0 l (s.idleAt l (x.replay.map (fun e => e.2.1.length + 12))) } }
  else .next s

/-- FRAME_CRC_ERROR: the FEC's corrected and uncorrectable codewords of a frame are counted; with an uncorrectable one, or
a CRC that does not match, it is discarded and a NAK is owed (R393). -/
def execFrameCrcError (lam : Fin 256) (frame : FecFrame) (s : State) : Out :=
  let l := s.lamAt lam
  if s.lamUp l then
    let s := (s.count (OP_FEC_CE (lamPort l)) frame.ce.toNat).count (OP_FEC_UE (lamPort l)) frame.ue.toNat
    if frame.ue = 0 && crcOk frame.bytes then .next s else .next (s.badFrame l)
  else .next s

/-- IDLE: credits and acknowledgements (R386, R389). -/
def execIdle (lam : Fin 256) (frame : List Byte) (s : State) : Out :=
  receive lam frame (fun _ _ _ => hType frame == 0) (fun _ _ _ => true) (fun s _ _ => s) s

/-- An IDLE frame for a lambda. -/
def State.idleOut (s : State) (l : Nat) : FOut := ⟨0, none, s.peerOf l, 0, [], none, some l, 8, false, none⟩

/-- CREDIT_IDLE_SEND: what has waited is to go in an IDLE frame, which takes its turn at the port (R389, R391). -/
def execCreditIdleSend (lam : Fin 256) (s : State) : Out :=
  let l := lam.val
  let x := s.lam l
  if s.lamUp l && !s.isLoop l && (x.ackDue || x.nakDue || x.freed.any (· != 0)) && !s.fab.outq.contains (s.idleOut l) then
    .next (s.queueFrame (s.idleOut l))
  else .next s

/-! ### LINKSTATE, LINKQUERY (R395, R398) -/

/-- The device's own usability bits (R398). -/
def State.linkBits (s : State) : Nat :=
  ((List.range 256).map (fun l => if s.lamUp l then 2 ^ l else 0)).foldl (· + ·) 0

/-- The device's usability bits sent to a peer: on its own lambda, or else by two hops where there are (R396, R398). -/
def State.sendLinkstate (s : State) (l : Nat) : State :=
  let d := leBytes 32 s.linkBits
  if s.isLoop l then s
  else if s.lamUp l then s.sendMgmt (s.peerOf l) 7 (some l) d
  else if (s.routeOf (s.peerOf l)).isSome then s.sendMgmt (s.peerOf l) 7 none d
  else s

/-- LINKSTATE_SEND: to every peer that the device can reach; the first sets RUN (R383, R398). -/
def execLinkstateSend (s : State) : Out :=
  unlessStopped s (
    if s.on FAB_POS_VALID then .next ((List.range 256).foldl State.sendLinkstate (s.setFld FAB_CTRL_RUN 1)) else .next s)

/-- LINKSTATE: the usability bits of the peer that sent it (R398). -/
def execLinkstate (lam : Fin 256) (frame : List Byte) (s : State) : Out :=
  receive lam frame (fun _ _ _ => hType frame == 7) (fun s _ d => d.length == 32 && (s.lamTo (hSrc frame)).isSome)
    (fun s _ d => match s.lamTo (hSrc frame) with
      | none => s
      | some k => s.setLam k { s.lam k with peerUp := leNat d }) s

/-- LINKQUERY: the receive side of the lambda from the sender closes until retraining, and the last sequence number
accepted goes back (R395). -/
def execLinkquery (lam : Fin 256) (frame : List Byte) (s : State) : Out :=
  receive lam frame (fun _ _ _ => hType frame == 8) (fun s _ _ => (s.lamTo (hSrc frame)).isSome)
    (fun s _ _ =>
      match s.lamTo (hSrc frame) with
      | none => s
      | some l =>
        let x := s.lam l
        (s.setLam l { x with closed := true }).sendMgmt (hSrc frame) 9 none (leBytes 2 (x.rxLast.getD 4095))) s

/-- Frames of a replay buffer that the peer has not taken: the device's own are routed again, ahead of every newer frame
(R395); those of others go back to their sources (R397).  An IDLE, which is never forwarded, falls away. -/
def State.requeue (s : State) (rest : List (Nat × List Byte × Bool × Nat)) : State :=
  let out (e : Nat × List Byte × Bool × Nat) : FOut :=
    let b := e.2.1
    let p := if hPtag b = 0 then none else (List.range 8).find? (fun p => s.fld (FAB_PART_PTAG p) == hPtag b)
    ⟨e.2.2.2, p, hDst b, hType b, [], some b, none, p.getD 8, e.2.2.1, none⟩
  let old := (rest.map out).filter (fun o => o.typ != 0)
  let own (o : FOut) : Bool := o.wire.any (fun w => hSrc w == s.me)
  (old.filter (fun o => !own o)).foldl State.bounceOne
    { s with fab := { s.fab with outq := old.filter own ++ s.fab.outq } }

/-- LINKREPLY: the frames that the reply covers are discarded, the others are routed again (R395). -/
def execLinkreply (lam : Fin 256) (frame : List Byte) (s : State) : Out :=
  receive lam frame (fun _ _ _ => hType frame == 9) (fun s _ d => d.length == 2 && (s.lamTo (hSrc frame)).isSome)
    (fun s _ d =>
      match s.lamTo (hSrc frame) with
      | none => s
      | some l =>
        let x := s.lam l
        if x.querying && !s.lamUp l then
          (s.setLam l { x with querying := false, replay := [], crs := [], used := [] }).requeue (unacked (leNat d % 4096) x.replay)
        else s) s

/-! ### Forwarding (R397) -/

/-- FRAME_FORWARD: a frame that is not for this device goes on, goes back, or is discarded. -/
def execFrameForward (lam : Fin 256) (frame : List Byte) (s : State) : Out :=
  let l := s.lamAt lam
  let n := creditsOf (hLen frame)
  let tc := hTc frame
  if !frameSized frame then .fault (.impossible "frame length")
  else if s.lamUp l && !crcOk frame then .next (s.badFrame l)
  else if !s.takes l frame || (hDst frame == s.me) || (hBnc frame && hSrc frame == s.me) then .next s
  else
    let s := s.linkIn l frame
    let lost (s : State) : State := (s.count FAB_DROP_ROUTE 1).freeCredits l tc n
    let wire := frame.take 8 ++ hPay frame
    let out :=
      if hHop frame then none
      else if hDst frame % 128 = s.flight then some (128 + hDst frame / 128)
      else if hDst frame / 128 = s.reach then some (hDst frame % 128)
      else none
    let fo : FOut := ⟨1, none, hDst frame, hType frame, [], none, none, 9, false, some (l, tc, n)⟩
    match out with
    | none => .next (lost s)
    | some o =>
      if hType frame = 0 then .next (lost s)
      else if s.lamUp o && !s.isLoop o then
        .next (s.queueFrame { fo with wire := some (setHop wire true), lam := some o, bnc := hBnc frame })
      else .next (s.bounceOne { fo with wire := some wire, lam := some o })

/-- BOUNCE_RESEND: the source of a bounced frame sends the same bytes again by R396 (R397).  A class 2 frame does not say from which
cluster it came, and asks as one of the other clusters (assumption 143). -/
def execBounceResend (lam : Fin 256) (frame : List Byte) (s : State) : Out :=
  let l := s.lamAt lam
  if !frameSized frame then .fault (.impossible "frame length")
  else if s.lamUp l && !crcOk frame then .next (s.badFrame l)
  else if !s.takes l frame || !(hBnc frame) || hSrc frame != s.me || hDst frame == s.me then .next s
  else
    let s := (s.linkIn l frame).freeCredits l (hTc frame) (creditsOf (hLen frame))
    let wire := frame.take 8 ++ hPay frame
    let p := if hPtag frame = 0 then none else (List.range 8).find? (fun p => s.fld (FAB_PART_PTAG p) == hPtag frame)
    .next (s.queueFrame ⟨[0, 2, 8, 9].getD (hTc frame) 0, p, hDst frame, hType frame, [], some wire, none, p.getD 8, false, none⟩)

/-! ### Tokens (R387) -/

/-- TOKEN: the token of a TOKEN frame enters the towpath at the port engine group's node (R387, 01 R33). -/
def execToken (lam : Fin 256) (frame : List Byte) (s : State) : Out :=
  receivePart 1 lam frame (fun _ _ _ => true) (fun _ _ d => d.length == 8) (fun s _ d => s.sendTok (BitVec.ofNat 64 (leNat d))) s

/-! ### Light (R405 to R408) -/

/-- A lambda that begins the training pattern (R383 step 2), and trains where the peer has named itself (step 4). -/
def State.beginTraining (s : State) (l : Nat) : State :=
  let s := s.emitHello l
  if (s.lam l).feed.isSome ∧ (s.lam l).peerPos = s.peerOf l then s.setLstate l lsTraining else s

/-- A lambda of an engine that has light again: one that is UP sends again what is not acknowledged (R405), one that is DOWN or MISWIRED in an
open port retrains from its training pattern on (R384), but for Stand (19 R613). -/
def State.relight (s : State) (l : Nat) : State :=
  let x := s.lam l
  if s.lamUp l && !x.replay.isEmpty then s.setLam l { x with resend := true }
  else if (s.lstate l == lsDown || s.lstate l == lsMiswired) && s.lit l then s.beginTraining l
  else s

/-- The lambdas of an engine that has light again. -/
def State.replayEngine (s : State) (e : Nat) : State := (lamsOfEngine e).foldl State.relight s

/-- Whether an engine has an input that supplies every wavelength. -/
def State.supplied (s : State) (e : Nat) : Bool := s.on (OP_LASER_A_OK (2 * e)) || s.on (OP_LASER_B_OK (2 * e))

/-- The inputs of an engine as they are now, with the input in use: one that was dark and has light again, or that changes its input, replays
(R405). -/
def State.laserNow (s : State) (e : Nat) (a b : Bool) (src : Nat) : State :=
  let go := !s.supplied e || (s.fld (OP_LASER_SRC (2 * e)) != src)
  let s := (s.setLaser e a b).setSrc e src
  if go && s.supplied e then s.replayEngine e else s

/-- USE_A: a write of OP_LASER.USE_A returns the engine to input A if A is complete (R405). -/
def execUseA (e : Fin 8) (aOk : Bool) (s : State) : Out :=
  let s := s.asked
  if s.standing then .next (s.holdReq (.useA e aOk))
  else unlessStopped s (
    let b := s.on (OP_LASER_B_OK (2 * e))
    .next (s.laserNow e aOk b (if aOk then 0 else s.fld (OP_LASER_SRC (2 * e)))))

/-- LASER_SWITCH: a wavelength of A is lost; the engine goes over to B (R405). -/
def execLaserSwitch (e : Fin 8) (bOk : Bool) (s : State) : Out :=
  unlessStopped s (.next (s.laserNow e false bOk (if bOk then 1 else s.fld (OP_LASER_SRC (2 * e)))))

/-- LASER_SUPPLY: neither input supplies every wavelength: the engine's lambdas go DOWN (R406).  Where one does, an engine that was dark has
light again: it runs from A while that is whole, unless it has gone over to B (R405; assumption 87). -/
def execLaserSupply (e : Fin 8) (missA missB : BitVec 8) (s : State) : Out :=
  unlessStopped s (
    if missA = 0 ∨ missB = 0 then
      .next (s.laserNow e (missA == 0) (missB == 0) (if missA = 0 then s.fld (OP_LASER_SRC (2 * e)) else 1))
    else .next (s.darkEngine e missA.toNat missB.toNat))

/-- A lambda as Stand is left: that of an open port begins its training pattern again, and trains where its peer is known (19 R613, R383 steps
2 and 4); before any bring-up it is ABSENT. -/
def State.leaveStand (s : State) (l : Nat) : State :=
  if s.on (OP_LASER_SHUT (lamPort l)) then s.setLstate l lsShuttered
  else if !s.on FAB_POS_VALID then s.setLstate l lsAbsent
  else if !s.lit l then s
  else if s.isLoop l then (s.emitHello l).setLstate l lsLoop
  else s.beginTraining l

def lamsOfPort (n : Nat) : List Nat := (List.range 8).map (· + 8 * n)

/-- A port shuttered: its modulators are dark, its lambdas show SHUTTERED (R407). -/
def State.shutPort (s : State) (n : Nat) : State :=
  (lamsOfPort n).foldl (fun s l => s.leaveUp l lsShuttered) (s.setFld (OP_LASER_SHUT n) 1)

/-- PORT_SHUTTER (R407). -/
def execPortShutter (n : Fin 32) (s : State) : Out :=
  if s.on (OP_LASER_SHUT n) then .next s else .next (s.shutPort n)

/-- SHUTTER_PROBE: one probe of 1 µs of a shuttered port (R407), or of any in Stand (19 R613); none where every modulator is shuttered for good (18 R592). -/
def execShutterProbe (n : Fin 32) (s : State) : Out :=
  unlessStopped s <| if s.on (OP_LASER_SHUT n) || s.standing then
    .next { s with fab := { s.fab with probes := Tab.put s.fab.probes 0 n (Tab.get s.fab.probes 0 n + 1) } }
  else .next s

/-- A lambda of a port that opens: it retrains with its replay buffer, or trains from its training pattern on (R384, R394, R407); without
light of its own it is DOWN (R406). -/
def State.openLam (s : State) (l : Nat) : State :=
  if !s.lit l then s.darkLam l
  else if s.on FAB_POS_VALID && s.isLoop l then s.setLstate l lsLoop
  else if (s.lam l).trained then (s.setLstate l lsRetrain).count (OP_LINK_RETRAINS (lamPort l)) 1
  else
    let s := s.emitHello l
    if (s.lam l).feed.isNone then s.setLstate l lsAbsent
    else if (s.lam l).peerPos = s.peerOf l then s.setLstate l lsTraining
    else s.setLstate l lsMiswired

/-- PORT_OPEN: light has returned for 1 ms; the port opens (R407), but for Stand, where no lambda trains (19 R613). -/
def execPortOpen (n : Fin 32) (s : State) : Out :=
  if s.on (OP_LASER_SHUT n) && !s.on HUB_RISK_DRAINED && s.dieUp then
    .next ((lamsOfPort n).foldl State.openLam (s.setFld (OP_LASER_SHUT n) 0))
  else .next s

/-- LASER_ENABLE_DROP: the enable of a detached laser module goes low, or, in the laser shutdown of 18 R594, both do and
every port is shuttered (R408). -/
def execLaserEnableDrop (d : LaserDrop) (s : State) : Out :=
  match d with
  | .a => .next { s with fab := { s.fab with enA := false } }
  | .b => .next { s with fab := { s.fab with enB := false } }
  | .both => .next ((List.range 32).foldl State.shutPort { s with fab := { s.fab with enA := false, enB := false } })

end Sys2Proof.Machine
end

