-- ==== Sys2Proof/Machine/Exchange.lean ====
section
/-! DEFINITION. All-to-all exchanges (12 R435 to R438) and coaches (10 R359, R360). -/

namespace Sys2Proof.Machine

/-! ### Coaches -/

/-- Bytes of a row vector of a table and its element count, by VEC_TYPE and VEC_ELEMS of its descriptor (10 R345). -/
def State.tableGeom (s : State) (p tid : Nat) : Option (Nat × Nat) :=
  (((s.partSecs p).flatMap (fun sec => s.sectionTables p sec)).find? (fun d => hdF d 2 2 == tid)).map (fun d =>
    let ty := (Ty.ofCode (bits (hdF d 0x10 4) 16 4)).getD .fp32
    let n := bits (hdF d 0x14 4) 0 13
    ((n * ty.bits + 7) / 8, n))

def coKind (h : List Byte) : Nat := bits (wordAt h 0) 0 4
def coTable (h : List Byte) : Nat := bits (wordAt h 0) 16 16
def coCount (h : List Byte) : Nat := wordAt h 0x18
def coRow (h : List Byte) : Nat := wordAt h 0x1C
def coGtype (h : List Byte) : Ty := (Ty.ofCode (bits (wordAt h 0x20) 0 4)).getD .fp32

/-- A coach's parts by its header: bytes of the words or row numbers, bytes of a row, whether the rows come first; none
where its KIND is reserved or its table unknown. -/
def State.coachParts (s : State) (p : Nat) (h : List Byte) : Option (Nat × Nat × Bool) :=
  let n := coCount h
  match coKind h with
  | 0 => some (roundUp (8 * n) 64, 0, false)
  | 1 => (s.tableGeom p (coTable h)).map (fun g => (roundUp (4 * n) 64, roundUp g.1 64, true))
  | 2 => (s.tableGeom p (coTable h)).map (fun g =>
      (roundUp (8 * n) 64, roundUp (g.2 * ((coGtype h).bits / 8)) 64, false))
  | _ => none

def State.coachLen (s : State) (p : Nat) (h : List Byte) : Option Nat :=
  (s.coachParts p h).map (fun e => 64 + e.1 + e.2.1 * coCount h)

/-! ### Exchanges -/

def xXid (d : List Byte) : Nat := bits (wordAt d 0) 0 16
def xN (d : List Byte) : Nat := wordAt d 4
def xAddr (d : List Byte) (off : Nat) : Nat := leNat ((d.drop off).take 8)

def State.exch (s : State) (p xid : Nat) : Option Exch := (s.job p).exchs.find? (fun x => x.xid == xid)
def State.setExch (s : State) (p : Nat) (x : Exch) : State :=
  s.modJob p (fun j =>
    let l := if j.exchs.any (fun y => y.xid == x.xid) then j.exchs.map (fun y => if y.xid == x.xid then x else y)
      else j.exchs ++ [x]
    { j with exchs := l })

/-- The bytes of a stream present from its start. -/
def streamBytes (segs : List (Nat × Nat × Nat × Bool × List Byte)) (src : Nat) : Nat → Nat → List Byte
  | 0, _ => []
  | n + 1, off =>
    match segs.find? (fun e => e.1 == src && e.2.1 == off && !e.2.2.2.2.isEmpty) with
    | none => []
    | some e => e.2.2.2.2 ++ streamBytes segs src n (off + e.2.2.2.2.length)

/-- Whether a stream has delivered TOTAL bytes and its LAST segment (R438). -/
def streamWhole (segs : List (Nat × Nat × Nat × Bool × List Byte)) (src : Nat) : Bool :=
  let mine := segs.filter (fun e => e.1 == src)
  mine.any (fun e => e.2.2.2.1) &&
    mine.any (fun e => (streamBytes segs src (mine.length + 1) 0).length == e.2.2.1)

/-- A whole coach placed (R437): its rows, its header and words, its manifest entry; one that does not fit is discarded
whole. -/
def State.placeCoach (s : State) (p : Nat) (x : Exch) (d : List Byte) (src : Nat) (c : List Byte) (pt : Nat × Nat × Bool) :
    State :=
  let n := coCount c
  let k := coKind c
  let rowBytes := bits (wordAt d 0x1C) 0 16
  let rows := wordAt d 0x18
  let first := if k = 2 then x.rows else coRow c
  let body := c.drop 64
  let words := if pt.2.2 then body.drop (pt.2.1 * n) else body.take pt.1
  let vecs := if pt.2.2 then body.take (pt.2.1 * n) else body.drop pt.1
  let head := if k = 2 then c.take 0x1C ++ leBytes 4 first ++ (c.take 64).drop 0x20 else c.take 64
  let put := head ++ words
  if (k != 0 && (rows < first + n || rowBytes < pt.2.1)) || wordAt d 0x28 < x.area + put.length then
    s.setExch p { x with full := true }
  else
    let s := if k = 0 then s
      else (pieces pt.2.1 vecs).zipIdx.foldl (fun s e =>
        (s.hubWrite 8 p (xAddr d 0x10 + (first + e.2) * rowBytes) e.1).2) s
    let els := ((s.tableGeom p (coTable c)).map Prod.snd).getD 0
    let nf := k == 2 && (List.range n).any (fun i =>
      (numsOf ((coGtype c).bits / 8) els (vecs.drop (i * pt.2.1))).any (storedNF (coGtype c)))
    let s := if nf then s.setFld (STEP_VOTE_LOCAL_NF p) 1 else s
    let a := xAddr d 0x20 + x.area
    let s := (s.hubWrite 8 p a put).2
    let s := (s.hubWrite 8 p (xAddr d 0x30 + 8 + 16 * x.entries)
      (leBytes 8 (a % 2 ^ 48 + src % 2 ^ 14 * 2 ^ 48) ++ leBytes 8 put.length)).2
    s.setExch p { x with
      rows := if k = 2 then x.rows + n else x.rows
      area := x.area + roundUp put.length 64, entries := x.entries + 1 }

/-- Coaches of one stream parsed while their bytes are present (R437). -/
def State.parseStream (s : State) (p xid src : Nat) : Nat → State
  | 0 => s
  | n + 1 =>
    match s.exch p xid with
    | none => s
    | some x =>
      match x.desc with
      | none => s
      | some d =>
        let at0 := Tab.get x.parsed 0 src
        let b := (streamBytes x.segs src (x.segs.length + 1) 0).drop at0
        if b.length < 64 then s
        else
          match s.coachParts p b with
          | none => s.setExch p { x with full := true, parsed := Tab.put x.parsed 0 src (2 ^ 64) }
          | some pt =>
            let len := 64 + pt.1 + pt.2.1 * coCount b
            if b.length < len then s
            else
              (s.placeCoach p { x with parsed := Tab.put x.parsed 0 src (at0 + len) } d src (b.take len) pt).parseStream
                p xid src n

/-- Every coach of a stream whose bytes are there parsed; a coach has 64 bytes at least. -/
def State.parseAll (s : State) (p xid src : Nat) : State :=
  s.parseStream p xid src (match s.exch p xid with
    | none => 0
    | some x => (streamBytes x.segs src (x.segs.length + 1) 0).length / 64 + 1)

/-- The end of an exchange: every stream delivered; manifest count and status, then the signal (R438). -/
def State.exchEnd (s : State) (p xid : Nat) : State :=
  match s.exch p xid with
  | none => s
  | some x =>
    match x.desc with
    | none => s
    | some d =>
      if !x.done && (s.job p).devices.all (streamWhole x.segs) then
        let s := (s.hubWrite 8 p (xAddr d 0x30) (leBytes 4 x.entries ++ leBytes 4 (b2n x.full))).2
        let w := wordAt d 0x38
        let s := s.setExch p { x with done := true }
        s.groupSignal (mkTok 1 (bits w 0 8) (bits w 8 5) (48 + x.sec) 0 (bits w 16 8) 1)
      else s

/-- A segment of a stream received. -/
def State.segIn (s : State) (p src : Nat) (d : List Byte) : State :=
  let xid := bits (wordAt d 0) 0 16
  let x := (s.exch p xid).getD ⟨xid, none, 0, [], [], 0, 0, 0, false, false⟩
  let seg := (src, wordAt d 4, wordAt d 8, bit (wordAt d 0) 16, d.drop 16)
  if x.segs.any (fun e => e.1 == src && e.2.1 == seg.2.1 && e.2.2.2.2.length == seg.2.2.2.2.length) then s
  else
    let s := s.setExch p { x with segs := x.segs ++ [seg] }
    (s.parseAll p xid src).exchEnd p xid

/-- Reserved fields of an exchange descriptor (R412, R435). -/
def exchBad (d : List Byte) : Bool :=
  bits (wordAt d 0) 16 16 != 0 || [0x08, 0x10, 0x20, 0x30].any (fun o => bits (xAddr d o) 48 16 != 0)
    || bits (wordAt d 0x1C) 16 16 != 0 || wordAt d 0x2C != 0 || bits (wordAt d 0x1C) 0 6 != 0
    || bits (xAddr d 0x20) 0 6 != 0 || bits (wordAt d 0x38) 13 3 != 0 || bits (wordAt d 0x38) 24 8 != 0
    || bits (wordAt d 0x3C) 3 29 != 0

/-- The coaches of a list, each with its destination; none where an address has a reserved bit set or one cannot be read. -/
def State.listCoaches (s : State) (p list : Nat) : Nat → Option (List (Nat × List Byte))
  | 0 => some []
  | n + 1 =>
    match s.hubPeek p (list + 16 * n) 16, s.listCoaches p list n with
    | some e, some l =>
      let va := bits (leNat (e.take 8)) 0 48
      if bits (leNat (e.take 8)) 48 16 ≠ 0 then none
      else
      ((s.hubPeek p va 64).bind (fun h => (s.coachLen p h).bind (fun len => s.hubPeek p va len))).map (fun c =>
        l ++ [(bits (leNat (e.drop 8)) 0 14, c)])
    | _, _ => none

/-- The group's reads of one coach of a list, recorded. -/
def State.coachSeen (s : State) (p list i : Nat) : State :=
  let va := bits (s.hubNum p (list + 16 * i) 8) 0 48
  s.hubSeen 8 p va (((s.hubPeek p va 64).bind (s.coachLen p)).getD 64)

/-- The group's reads of a coach list and its coaches, recorded (08 R282, R284). -/
def State.coachesSeen (s : State) (p list n : Nat) : State :=
  (List.range n).foldl (fun s i => s.coachSeen p list i) (s.hubSeen 8 p list (16 * n))

/-- Whether the group's reads meet an uncorrectable codeword. -/
def State.listLost (s : State) (p list n : Nat) : Bool :=
  let bad (va len : Nat) : Bool := (s.hubKeys p va len).any s.lost
  bad list (16 * n) || (List.range n).any (fun i =>
    let va := bits (s.hubNum p (list + 16 * i) 8) 0 48
    bad va 64 || ((s.hubPeek p va 64).bind (s.coachLen p)).any (bad va))

/-- The segments of a stream (R436). -/
def segsOf (xid : Nat) (b : List Byte) : List (List Byte) :=
  let ps := if b.isEmpty then [[]] else pieces 960 b
  ps.zipIdx.map (fun e =>
    leBytes 4 (xid % 2 ^ 16 + b2n (e.2 + 1 == ps.length) * 2 ^ 16) ++ leBytes 4 (960 * e.2) ++ leBytes 4 b.length
      ++ leBytes 4 0 ++ e.1)

/-- Whether a stream carries a coach reply that may hold what the step's updates wrote (R427): its step has updated rows and its
verdict has not come. -/
def State.replyWaits (s : State) (p : Nat) (cs : List (List Byte)) : Bool :=
  !s.on (STEP_CFG_SERVE p) && !s.on (STEP_VOTE_VALID p) && s.b.touched.any (fun e => e.1 == p) && cs.any (fun c => coKind c == 1)

/-- The streams that waited for the verdict leave (R427). -/
def State.sendReplies (s : State) (p : Nat) : State :=
  (s.job p).replies.foldl (fun s e => s.sendPart p e.1 e.2.1 4 e.2.2) (s.modJob p (fun j => { j with replies := [] }))

/-- An exchange started: every participant's stream leaves (R436); one with a reply that must wait for the verdict is kept
(R427). -/
def State.startExch (s : State) (p sec rqr : Nat) (d : List Byte) (cs : List (Nat × List Byte)) : State :=
  let xid := xXid d
  let x := (s.exch p xid).getD ⟨xid, none, 0, [], [], 0, 0, 0, false, false⟩
  let s := s.setExch p { x with desc := some d, sec := sec }
  let s := (s.job p).devices.foldl (fun s dev =>
    let mine := (cs.filter (fun c => c.1 == dev)).map Prod.snd
    let segs := segsOf xid mine.flatten
    if dev = s.me then segs.foldl (fun s g => s.segIn p dev g) s
    else if s.replyWaits p mine then
      s.modJob p (fun j => { j with replies := j.replies ++ segs.map (fun g => (rqr, dev, g)) })
    else segs.foldl (fun s g => s.sendPart p rqr dev 4 g) s) s
  ((s.job p).devices.foldl (fun s dev => s.parseAll p xid dev) s).exchEnd p xid

/-- EXCHANGE_DOORBELL (R412, R435). -/
def execExchangeDoorbell (tok : Word) (s : State) : Out :=
  doorbell 2 2 tok State.collReject
    (fun s p sec d =>
      let no := s.collReject p sec (bits tok.toNat 0 8)
      if !(s.inStep p || (s.job p).serving.isSome) || exchBad d || (s.exch p (xXid d)).any (fun x => x.desc.isSome) then no
      else
        match s.listCoaches p (xAddr d 0x08) (xN d) with
        | none =>
          if s.listLost p (xAddr d 0x08) (xN d) then s.coachesSeen p (xAddr d 0x08) (xN d) else no
        | some cs =>
          if cs.all (fun c => (s.job p).devices.contains c.1) then
            (s.coachesSeen p (xAddr d 0x08) (xN d)).startExch p sec (if tokSrcNode tok < 40 then 100 + tokSrcNode tok else 100 + 5 * sec) d cs
          else no) s

/-- COACH_SEGMENT (R436 to R438); from the last APPLIED on the segment is one of the next step and is held until
that starts (14 R478). -/
def execCoachSegment (lam : Fin 256) (frame : List Byte) (s : State) : Out :=
  receivePart 4 lam frame (fun _ _ _ => true) (fun _ _ d => decide (16 ≤ d.length))
    (fun s p d =>
      if bits (wordAt d 0) 17 15 != 0 || wordAt d 12 != 0 || !(s.job p).devices.contains (hSrc frame) then
        s.count FAB_DROP_ROUTE 1
      else if (s.job p).appliedSent || (s.atRest p && !s.on (STEP_CFG_SERVE p)) then
        s.modJob p (fun j => { j with heldIn := j.heldIn ++ [(4, hSrc frame, d)] })
      else s.segIn p (hSrc frame) d) s

end Sys2Proof.Machine
end

