-- ==== Sys2Proof/Machine/Lms.lean ====
section
/-! DEFINITION. LMS and HSS signatures with SHA-256 (RFC 8554, NIST SP 800-208), with which the device signs (16 R541 to R544) and by
which it checks firmware and signed requests (16 R533, R538, R552).  Bytes are numbers below 256. -/

namespace Sys2Proof.Machine

/-- An LM-OTS parameter set with n = 32: Winternitz width, chains, shift of the checksum (RFC 8554, table 1). -/
structure Lmots where
  w : Nat
  p : Nat
  ls : Nat
deriving DecidableEq, Repr

/-- The parameter set of an LM-OTS typecode. -/
def lmotsOf (t : Nat) : Option Lmots :=
  if t = 1 then some ⟨1, 265, 7⟩
  else if t = 2 then some ⟨2, 133, 6⟩
  else if t = 3 then some ⟨4, 67, 4⟩
  else if t = 4 then some ⟨8, 34, 0⟩
  else none

/-- The height of an LMS tree with SHA-256 and m = 32, by its typecode 5 to 9 (RFC 8554, table 2). -/
def lmsHeight (t : Nat) : Option Nat := if 5 ≤ t ∧ t ≤ 9 then some (5 * (t - 4)) else none

/-- Digit `i` of width `w` of a byte string (RFC 8554, 3.1.3). -/
def coef (s : List Nat) (i w : Nat) : Nat := nthD s (i * w / 8) / 2 ^ (8 - (w * (i % (8 / w)) + w)) % 2 ^ w

/-- The digits of a message digest and of its checksum (RFC 8554, 4.4). -/
def otsDigits (o : Lmots) (d : List Nat) : List Nat :=
  let sum := ((List.range (256 / o.w)).map (fun i => 2 ^ o.w - 1 - coef d i o.w)).foldl (· + ·) 0
  let s := d ++ natBytesBE 2 (sum * 2 ^ o.ls % 65536)
  (List.range o.p).map (fun i => coef s i o.w)

/-- `n` steps of chain `i` of leaf `q` from position `j` on. -/
def otsChain (id : List Nat) (q i : Nat) : Nat → Nat → List Nat → List Nat
  | 0, _, x => x
  | n + 1, j, x => otsChain id q i n (j + 1) (sha256 (id ++ natBytesBE 4 q ++ natBytesBE 2 i ++ [j] ++ x))

/-- The digest that leaf `q` signs. -/
def otsMessage (id : List Nat) (q : Nat) (c m : List Nat) : List Nat := sha256 (id ++ natBytesBE 4 q ++ [0x81, 0x81] ++ c ++ m)

/-- The LM-OTS public key from the ends of its chains. -/
def otsEnds (id : List Nat) (q : Nat) (ends : List (List Nat)) : List Nat :=
  sha256 (id ++ natBytesBE 4 q ++ [0x80, 0x80] ++ ends.flatten)

/-- The start of chain `i` of leaf `q`, from the seed (RFC 8554, appendix A). -/
def otsStart (id seed : List Nat) (q i : Nat) : List Nat :=
  sha256 (id ++ natBytesBE 4 q ++ natBytesBE 2 i ++ [0xFF] ++ seed)

/-- LMOTS_SHA256_N32_W4, which both levels of the device's identity use (16 R541). -/
def otsW4 : Lmots := ⟨4, 67, 4⟩

/-- The LM-OTS public key of a leaf. -/
def otsPublic (id seed : List Nat) (q : Nat) : List Nat :=
  otsEnds id q ((List.range otsW4.p).map (fun i => otsChain id q i 15 0 (otsStart id seed q i)))

/-- The parent of two nodes of an LMS tree, with number `r`. -/
def lmsParent (id : List Nat) (r : Nat) (a b : List Nat) : List Nat := sha256 (id ++ natBytesBE 4 r ++ [0x83, 0x83] ++ a ++ b)

def lmsLeaf (id : List Nat) (r : Nat) (pub : List Nat) : List Nat := sha256 (id ++ natBytesBE 4 r ++ [0x82, 0x82] ++ pub)

/-- Node `r` of a tree of height `h`, at a height above the leaves. -/
def lmsNode (id seed : List Nat) (h : Nat) : Nat → Nat → List Nat
  | 0, r => lmsLeaf id r (otsPublic id seed (r - 2 ^ h))
  | n + 1, r => lmsParent id r (lmsNode id seed h n (2 * r)) (lmsNode id seed h n (2 * r + 1))

/-- The 56-byte public key of a tree: its type, LMOTS_SHA256_N32_W4, identifier, root. -/
def lmsPublic (typ h : Nat) (id seed : List Nat) : List Nat :=
  natBytesBE 4 typ ++ natBytesBE 4 3 ++ id ++ lmsNode id seed h h 1

/-- The signature of a message by leaf `q` with randomizer `c`: leaf, LM-OTS signature, type, path. -/
def lmsSign (typ h : Nat) (id seed : List Nat) (q : Nat) (c m : List Nat) : List Nat :=
  let ds := otsDigits otsW4 (otsMessage id q c m)
  natBytesBE 4 q ++ natBytesBE 4 3 ++ c ++ ds.zipIdx.flatMap (fun e => otsChain id q e.2 e.1 0 (otsStart id seed q e.2))
    ++ natBytesBE 4 typ ++ (List.range h).flatMap (fun i => lmsNode id seed h i ((2 ^ h + q) / 2 ^ i ^^^ 1))

/-- The root that a leaf's value and its path lead to. -/
def lmsClimb (id : List Nat) : Nat → List (List Nat) → List Nat → List Nat
  | _, [], x => x
  | r, y :: l, x => lmsClimb id (r / 2) l (if r % 2 = 1 then lmsParent id (r / 2) y x else lmsParent id (r / 2) x y)

/-- A byte string cut into pieces of 32. -/
def splitAt32 : Nat → List Nat → List (List Nat)
  | 0, _ => []
  | n + 1, l => l.take 32 :: splitAt32 n (l.drop 32)

/-- Bytes of an LMS signature with given parameters. -/
def lmsSigLen (o : Lmots) (h : Nat) : Nat := 44 + 32 * o.p + 32 * h

/-- Verification of an LMS signature (RFC 8554, algorithm 6); the types of signature and key must be the same. -/
def lmsVerify (pub m sig : List Nat) : Bool :=
  match lmsHeight (bytesNatBE (pub.take 4)), lmotsOf (bytesNatBE ((pub.drop 4).take 4)) with
  | some h, some o =>
    let id := (pub.drop 8).take 16
    let q := bytesNatBE (sig.take 4)
    let c := (sig.drop 8).take 32
    let ys := splitAt32 o.p (sig.drop 40)
    let rest := sig.drop (40 + 32 * o.p)
    let ds := otsDigits o (otsMessage id q c m)
    let ends := (List.zip ds ys).zipIdx.map (fun e => otsChain id q e.2 (2 ^ o.w - 1 - e.1.1) e.1.1 e.1.2)
    pub.length == 56 && sig.length == lmsSigLen o h && (sig.drop 4).take 4 == (pub.drop 4).take 4
      && rest.take 4 == pub.take 4 && decide (q < 2 ^ h)
      && lmsClimb id (2 ^ h + q) (splitAt32 h (rest.drop 4)) (lmsLeaf id (2 ^ h + q) (otsEnds id q ends)) == pub.drop 24
  | _, _ => false

/-- Bytes of the LMS signature that stands first in a string, by the types it names. -/
def lmsFirst (sig : List Nat) : Nat :=
  match lmotsOf (bytesNatBE ((sig.drop 4).take 4)) with
  | none => 0
  | some o =>
    match lmsHeight (bytesNatBE ((sig.drop (40 + 32 * o.p)).take 4)) with
    | none => 0
    | some h => lmsSigLen o h

/-- The levels of an HSS signature: `n` signed public keys, then the message. -/
def hssLevels : Nat → List Nat → List Nat → List Nat → Bool
  | 0, pub, m, sig => lmsVerify pub m sig
  | n + 1, pub, m, sig =>
    let k := lmsFirst sig
    let next := (sig.drop k).take 56
    k != 0 && lmsVerify pub next (sig.take k) && hssLevels n next m (sig.drop (k + 56))

/-- Verification of an HSS signature (RFC 8554, 6.3): a 60-byte public key of L levels, message, signature. -/
def hssVerify (pub m sig : List Nat) : Bool :=
  let l := bytesNatBE (pub.take 4)
  let n := bytesNatBE (sig.take 4)
  pub.length == 60 && decide (1 ≤ l) && decide (l ≤ 8) && n + 1 == l && hssLevels n (pub.drop 4) m (sig.drop 4)

end Sys2Proof.Machine
end

