-- ==== Sys2Proof/Machine/Rings.lean ====
section
/-! DEFINITION. The host interface (17): rings, doorbells, fetch, replies, interrupts. -/

namespace Sys2Proof.Machine

/-! ### The command packet (R574) -/

def cWord (c : HostCmd) (i : Nat) : Nat := bits c.packet.toNat (64 * i) 64
def cOp (c : HostCmd) : Nat := bits (cWord c 0) 0 16
def cFence (c : HostCmd) : Bool := bit (cWord c 0) 16
def cNoIrq (c : HostCmd) : Bool := bit (cWord c 0) 17
def cPartF (c : HostCmd) : Nat := bits (cWord c 0) 24 3
def cTag (c : HostCmd) : Nat := bits (cWord c 0) 32 32
def cLen (c : HostCmd) : Nat := bits (cWord c 1) 0 32
def cData (c : HostCmd) : Nat := cWord c 2
def cP (c : HostCmd) (k : Nat) : Nat := cWord c (3 + k)
/-- The partition that a command acts on. -/
def cPart (c : HostCmd) : Nat := if c.fn.val = 0 then cPartF c else c.fn.val - 1

/-- Status codes (R579). -/
def stOk : Nat := 0
def stBadOpcode : Nat := 1
def stReserved : Nat := 2
def stBadAddress : Nat := 3
def stBadLength : Nat := 4
def stNotPermitted : Nat := 5
def stBadState : Nat := 6
def stNotStarted : Nat := 7
def stRotateBusy : Nat := 8
def stOtpFull : Nat := 9
def stKeyBad : Nat := 0xA
def stSignature : Nat := 0xB
def stSettings : Nat := 0xC
def stExhausted : Nat := 0xD
def stLoadRefused : Nat := 0xE
def stModelDigest : Nat := 0xF
def stTableHeld : Nat := 0x10
def stNoRoom : Nat := 0x11
def stRestore : Nat := 0x12
def stRedist : Nat := 0x13
def stSvn : Nat := 0x14
def stToken : Nat := 0x15
def stMemFault : Nat := 0x16
def stHostError : Nat := 0x17
def stFenced : Nat := 0x18
def stMemUe : Nat := 0x19

/-- Who may issue an opcode and which fields it uses: PF0, partition functions, PART from PF0, the data buffer, a mask
of each parameter word (R577). -/
structure OpUse where
  pf0 : Bool
  part : Bool
  usesPart : Bool
  data : Bool
  ps : List Nat

def w64 : Nat := 2 ^ 64 - 1

def opUse : Nat → Option OpUse
  | 0x0100 => some ⟨true, false, true, false, [0x1FF]⟩
  | 0x0101 => some ⟨true, true, true, false, []⟩
  | 0x0102 => some ⟨true, false, true, false, []⟩
  | 0x0103 => some ⟨true, true, true, false, []⟩
  | 0x0200 => some ⟨false, true, true, true, [w64]⟩
  | 0x0201 => some ⟨false, true, true, true, [w64]⟩
  | 0x0202 => some ⟨false, true, true, false, [w64, w64, w64]⟩
  | 0x0203 => some ⟨false, true, true, false, [w64]⟩
  | 0x0204 => some ⟨false, true, true, false, [w64]⟩
  | 0x0205 => some ⟨false, true, true, false, [w64, w64, w64, w64]⟩
  | 0x0300 => some ⟨false, true, true, true, []⟩
  | 0x0301 => some ⟨true, true, true, false, []⟩
  | 0x0302 => some ⟨false, true, true, false, []⟩
  | 0x0400 => some ⟨false, true, true, false, [w64]⟩
  | 0x0401 => some ⟨false, true, true, false, [w64, w64, w64, w64]⟩
  | 0x0402 => some ⟨true, true, true, true, [w64]⟩
  | 0x0500 => some ⟨false, true, true, false, [0xFFFF, w64]⟩
  | 0x0501 => some ⟨false, true, true, false, [0xFFFF, w64, w64]⟩
  | 0x0600 => some ⟨false, true, true, true, [1]⟩
  | 0x0601 => some ⟨false, true, true, true, [w64, 1]⟩
  | 0x0602 => some ⟨true, false, false, false, []⟩
  | 0x0603 => some ⟨false, true, true, true, [1, w64]⟩
  | 0x0700 => some ⟨true, true, true, true, [0, w64, w64, w64, w64]⟩
  | 0x0701 => some ⟨true, true, true, true, []⟩
  | 0x0702 => some ⟨false, true, true, false, []⟩
  | 0x0703 => some ⟨false, true, true, true, []⟩
  | 0x0704 => some ⟨false, true, true, true, []⟩
  | 0x0705 => some ⟨true, true, true, false, []⟩
  | 0x0706 => some ⟨true, true, false, true, []⟩
  | 0x0707 => some ⟨true, false, false, false, []⟩
  | 0x0708 => some ⟨true, false, false, true, []⟩
  | 0x0709 => some ⟨true, false, false, true, []⟩
  | 0x070A => some ⟨true, false, false, false, []⟩
  | 0x070B => some ⟨true, false, false, true, []⟩
  | 0x0800 => some ⟨true, false, false, false, [w64, w64]⟩
  | 0x0801 => some ⟨true, false, false, true, []⟩
  | 0x0802 => some ⟨true, false, false, false, [w64]⟩
  | 0x0803 => some ⟨true, true, false, false, [w64]⟩
  | 0x0900 => some ⟨true, false, false, false, [w64]⟩
  | 0x0901 => some ⟨true, false, false, false, [w64, w64]⟩
  | 0x0902 => some ⟨true, false, false, false, [1]⟩
  | 0x0903 => some ⟨true, false, false, false, []⟩
  | _ => none

/-- The status of a command's packet by itself; OK where it may start (R574, R577). -/
def packetStatus (c : HostCmd) : Nat :=
  match opUse (cOp c) with
  | none => stBadOpcode
  | some u =>
    if !(if c.fn.val = 0 then u.pf0 else u.part) then stNotPermitted
    else if bits (cWord c 0) 18 6 != 0 || bits (cWord c 0) 27 5 != 0 || bits (cWord c 1) 32 32 != 0
        || (cPartF c != 0 && !(c.fn.val = 0 && u.usesPart)) || (!u.data && (cLen c != 0 || cData c != 0))
        || (List.range 5).any (fun k => cP c k &&& (w64 - u.ps.getD k 0) != 0) then stReserved
    else if cData c % 64 != 0 || (cLen c == 0 && cData c != 0) then stBadAddress
    else stOk

/-! ### MSI-X (R572) -/

def msixKey (fn off : Nat) : Nat := fn * 2 ^ 16 + off
def State.vecMasked (s : State) (fn v : Nat) : Bool := !bit (s.h.msix.rdLE (msixKey fn (16 * v + 12)) 1) 0

/-- A vector fires where the host has enabled MSI-X on the function (R562): its message goes, or its pending bit is set while it is masked;
none goes in the fail-safe state (18 R592). -/
def State.fire (s : State) (fn v : Nat) : State :=
  if !s.hubUp || !s.h.msixOn.contains fn then s
  else if s.vecMasked fn v then
    if s.h.pba.contains (fn, v) then s else { s with h := { s.h with pba := s.h.pba ++ [(fn, v)] } }
  else { s with h := { s.h with msgs := s.h.msgs ++ [(fn, v)] } }

/-- A vector that has been unmasked while it was pending fires. -/
def State.unmask (s : State) (fn v : Nat) : State :=
  if s.h.msixOn.contains fn && !s.vecMasked fn v && s.h.pba.contains (fn, v) then
    ({ s with h := { s.h with pba := s.h.pba.filter (· != (fn, v)) } }).fire fn v
  else s

/-- MSI-X enabled or disabled on a function; enabled, what is pending and not masked fires. -/
def State.enableMsix (s : State) (fn : Nat) (on : Bool) : State :=
  let rest := s.h.msixOn.filter (· != fn)
  let s := { s with h := { s.h with msixOn := if on then rest ++ [fn] else rest } }
  (s.h.pba.filter (fun e => e.1 == fn)).foldl (fun s e => s.unmask fn e.2) s

/-! ### Rings (R565 to R568) -/

def ringKeyOf (fn ring : Nat) : Nat := fn * 64 + ring
def State.ringN (s : State) (fn r : Nat) : Nat := 2 ^ s.fld (HUB_RING_CTRL_LOG2N fn r)
def State.ringTail (s : State) (fn r : Nat) : Nat := Tab.get s.h.tails 0 (ringKeyOf fn r)
def State.cplHead (s : State) (fn r : Nat) : Nat := Tab.get s.h.cheads 0 (ringKeyOf fn r)

/-- A ring stopped by an error (R566, R567, R573, 18 R585); a ring that has stopped fetches no more. -/
def State.ringError (s : State) (fn r cause : Nat) : State :=
  ((s.setFld (HUB_RING_STAT_ERROR fn r) 1).setFld (HUB_RING_STAT_CAUSE fn r) cause).file 0x0051 clsNotice 7 fn
    (r + cause * 2 ^ 8)

/-- Whether a memory request is unsupported: the partition of its function is FREE (16 R519), or it must travel on the function's IDE
stream and does not, or no stream is set up (16 R551). -/
def State.fnShut (s : State) (q : Requester) : Bool :=
  let fn := q.fn.val
  fn != 0 && (s.partState (fn - 1) == ptFree
    || (s.on (PART_CFG_IDE_REQUIRED (fn - 1)) && (!q.ide || (Tab.get s.sec.ide [] fn).isEmpty)))

/-- Whether a function's BAR0 holds the registers of a partition: PF0's and the partition's own (R558, R559). -/
def reaches (q : Requester) (p : Fin 8) : Bool := q.fn.val == 0 || q.fn.val == p.val + 1

/-- COMMAND_DOORBELL (R566). -/
def execCommandDoorbell (q : Requester) (ring : Fin 64) (value : BitVec 16) (s : State) : Out :=
  let fn := q.fn.val
  let s := s.asked
  if !s.hubUp || s.fnShut q || !s.on (HUB_RING_CTRL_EN fn ring) || s.on (HUB_RING_STAT_ERROR fn ring) then .next s
  else if s.ringN fn ring ≤ value.toNat then .next (s.ringError fn ring 1)
  else .next { s with h := { s.h with tails := Tab.put s.h.tails 0 (ringKeyOf fn ring) value.toNat } }

/-- COMPLETION_DOORBELL (R567). -/
def execCompletionDoorbell (q : Requester) (ring : Fin 64) (value : BitVec 16) (s : State) : Out :=
  let fn := q.fn.val
  let s := s.asked
  if !s.hubUp || s.fnShut q || !s.on (HUB_RING_CTRL_EN fn ring) || s.on (HUB_RING_STAT_ERROR fn ring) then .next s
  else if s.ringN fn ring ≤ value.toNat then .next (s.ringError fn ring 2)
  else .next { s with h := { s.h with cheads := Tab.put s.h.cheads 0 (ringKeyOf fn ring) value.toNat } }

def State.ringStarted (s : State) (fn r : Nat) : List Started :=
  s.h.started.filter (fun x => x.cmd.fn.val == fn && x.cmd.ring.val == r)

/-- The message of a ring goes when it is due (R572). -/
def State.coalesce (s : State) (fn r : Nat) (timer : Bool) : State :=
  let k := ringKeyOf fn r
  let n := Tab.get s.h.uncovered 0 k
  if s.on (HUB_RING_CTRL_IRQ_EN fn r) && n != 0 && (timer || decide (s.fld (HUB_RING_CTRL_COAL_COUNT fn r) ≤ n)) then
    ({ s with h := { s.h with uncovered := Tab.put s.h.uncovered 0 k 0, oldest := Tab.put s.h.oldest 0 k 0 } }).fire fn
      (s.fld (HUB_RING_CTRL_VECTOR fn r))
  else s

/-- COAL_TIMER_EXPIRE: the oldest reply has waited COAL_US (R572). -/
def execCoalTimerExpire (fn : Fin 9) (ring : Fin 64) (s : State) : Out :=
  .next (s.coalesce fn ring
    (decide (Tab.get s.h.oldest 0 (ringKeyOf fn ring) + s.fld (HUB_RING_CTRL_COAL_US fn ring) ≤ s.timeUs)))

/-- The fields of HUB_RING_CTRL but EN; LOG2N keeps its value while EN is 1, and one out of its range is not taken (R565). -/
def State.putRingCtrl (s : State) (fn r w : Nat) : State :=
  let lg := bits w 1 5
  let s := if !s.on (HUB_RING_CTRL_EN fn r) ∧ 4 ≤ lg ∧ lg ≤ 16 then s.setFld (HUB_RING_CTRL_LOG2N fn r) lg else s
  (((s.setFld (HUB_RING_CTRL_VECTOR fn r) (bits w 6 11)).setFld (HUB_RING_CTRL_IRQ_EN fn r) (bits w 17 1)).setFld
    (HUB_RING_CTRL_COAL_COUNT fn r) (bits w 18 8)).setFld (HUB_RING_CTRL_COAL_US fn r) (bits w 32 16)

/-- Heads, tails and phase of a ring pair as EN is set. -/
def State.openRing (s : State) (fn r : Nat) : State :=
  let k := ringKeyOf fn r
  let s := ((s.setFld (HUB_RING_CTRL_EN fn r) 1).setFld (HUB_RING_STAT_HEAD fn r) 0).setFld (HUB_RING_STAT_CTAIL fn r) 0
  let s := (s.setFld (HUB_RING_STAT_ERROR fn r) 0).setFld (HUB_RING_STAT_CAUSE fn r) 0
  { s with h := { s.h with
    tails := Tab.put s.h.tails 0 k 0, cheads := Tab.put s.h.cheads 0 k 0, flips := Tab.put s.h.flips false k false
    uncovered := Tab.put s.h.uncovered 0 k 0, oldest := Tab.put s.h.oldest 0 k 0 } }

/-- RING_ENABLE: a write of HUB_RING_CTRL (R565); replies that are due under its new fields fire (R572). -/
def execRingEnable (q : Requester) (ring : Fin 64) (ctrl : Word) (s : State) : Out :=
  let fn := q.fn.val
  let w := ctrl.toNat
  let s := s.asked
  if !s.hubUp || s.fnShut q then .next s
  else
    let on := s.on (HUB_RING_CTRL_EN fn ring)
    let s := s.putRingCtrl fn ring w
    if !bit w 0 then .next ((s.setFld (HUB_RING_CTRL_EN fn ring) 0).coalesce fn ring false)
    else if on then .next (s.coalesce fn ring false)
    else .next (s.openRing fn ring)

/-- RING_DISABLE: EN cleared; commands already started complete (R565). -/
def execRingDisable (q : Requester) (ring : Fin 64) (s : State) : Out :=
  let s := s.asked
  if s.hubUp && !s.fnShut q then .next (s.setFld (HUB_RING_CTRL_EN q.fn.val ring) 0) else .next s

/-! ### Replies (R570 to R572, R576) -/

/-- The reply of a started command, which is then completed (R571, R576).  A reply write that meets a host completion error leaves
the tail where it was and stops the ring; what the command did in the device stands (R573). -/
def State.reply (s : State) (x : Started) (status detail r0 r1 : Nat) : State :=
  let fn := x.cmd.fn.val
  let r := x.cmd.ring.val
  let k := ringKeyOf fn r
  let t := s.fld (HUB_RING_STAT_CTAIL fn r)
  let phase := !Tab.get s.h.flips false k
  let bs := leBytes 4 (cTag x.cmd) ++ leBytes 4 (cOp x.cmd + status % 2 ^ 16 * 2 ^ 16)
    ++ leBytes 4 (x.head % 2 ^ 16 + b2n phase * 2 ^ 16) ++ leBytes 4 detail ++ leBytes 8 r0 ++ leBytes 8 r1
  let s := { s with h := { s.h with
    started := dropFirst (· == x) s.h.started
    held := s.h.held.filter (· != x.cmd) } }
  let s := if (s.ringStarted fn r).isEmpty then s.setFld (HUB_RING_STAT_IDLE fn r) 1 else s
  if x.err = .reply then s.ringError fn r 4
  else
  let s := s.wrB (keyHost (s.fld (HUB_RING_CPL_ADDR fn r) * 4096 + 32 * t)) bs
  let t' := (t + 1) % s.ringN fn r
  let s := s.setFld (HUB_RING_STAT_CTAIL fn r) t'
  let s := { s with h := { s.h with flips := if t' = 0 then Tab.put s.h.flips false k phase else s.h.flips } }
  if cNoIrq x.cmd then s
  else
    let c := Tab.get s.h.uncovered 0 k
    ({ s with h := { s.h with
      uncovered := Tab.put s.h.uncovered 0 k (c + 1)
      oldest := if c = 0 then Tab.put s.h.oldest 0 k s.timeUs else s.h.oldest } }).coalesce fn r false

/-! ### Fetch (R568, R569) -/

/-- The packet at the head of a ring. -/
def State.headPacket (s : State) (fn r : Nat) : BitVec 512 :=
  BitVec.ofNat 512 (s.rd (keyHost (s.fld (HUB_RING_CMD_ADDR fn r) * 4096 + 64 * s.fld (HUB_RING_STAT_HEAD fn r))) 64)

/-- Whether a ring has a command that may start now. -/
def State.fetchable (s : State) (fn r : Nat) : Bool :=
  let n := s.ringN fn r
  let mine := (s.ringStarted fn r).length
  let used := (s.fld (HUB_RING_STAT_CTAIL fn r) + n - s.cplHead fn r % n) % n
  s.on HUB_FW_STATUS_READY && s.on (HUB_RING_CTRL_EN fn r) && !s.on (HUB_RING_STAT_ERROR fn r)
    && s.fld (HUB_RING_STAT_HEAD fn r) != s.ringTail fn r && decide (mine + used + 1 < n)
    && decide (s.h.started.length < 256)
    && (mine == 0 || !bit (s.headPacket fn r).toNat 16)

/-- The ring that the hub fetches from next. -/
def State.nextRing (s : State) : Option Nat :=
  let v := s.h.visit
  let cur := ringKeyOf v.1 v.2.1
  if v.2.2 < 8 ∧ s.fetchable v.1 v.2.1 then some cur
  else ((List.range 576).map (fun i => (cur + 1 + i) % 576)).find? (fun k => s.fetchable (k / 64) (k % 64))

/-- Commands that need no block outside the hub, power, error and security blocks (19 R614). -/
def onStand (op : Nat) : Bool := op / 256 == 7 || op / 256 == 9 || op == 0x0103 || op == 0x0800 || op == 0x0803

/-- COMMAND_FETCH: the next command in fetch order starts; one whose packet no function may issue completes at once.  A fetch that
meets a host completion error starts nothing and stops the ring (R573). -/
def execCommandFetch (fn : Fin 9) (ring : RingFetch) (s : State) : Out :=
  if !s.hubUp || s.nextRing ≠ some (ringKeyOf fn ring.ring) then .next s
  else if ring.err = .fetch then .next (s.ringError fn ring.ring 3)
  else
    let p := s.headPacket fn ring.ring
    let h := (s.fld (HUB_RING_STAT_HEAD fn ring.ring) + 1) % s.ringN fn ring.ring
    let v := s.h.visit
    let x : Started := ⟨⟨fn, ring.ring, p⟩, s.h.nextSeq, h, ring.err⟩
    let s := (s.setFld (HUB_RING_STAT_HEAD fn ring.ring) h).setFld (HUB_RING_STAT_IDLE fn ring.ring) 0
    let s := { s with h := { s.h with
      started := s.h.started ++ [x], nextSeq := s.h.nextSeq + 1
      visit := (fn, ring.ring, if v.1 = fn.val ∧ v.2.1 = ring.ring.val ∧ v.2.2 < 8 then v.2.2 + 1 else 1) } }
    let st := packetStatus x.cmd
    -- a command that needs a block which Stand has gated is an in-band wake (19 R614)
    if st = stOk then .next (if s.standing && !onStand (cOp x.cmd) then s.wakeEvent 1 else s)
    else .next (s.reply x st 0 0 0)

/-! ### Rows of host commands -/

/-- What the row of a started command makes of it. -/
inductive HRes where
  | reply (s : State) (status detail r0 r1 : Nat)
  /-- It is not complete. -/
  | stay (s : State)

/-- Opcodes that run on a FENCED partition as usual (R578). -/
def onFenced (op : Nat) : Bool := [0x0101, 0x0102, 0x0103, 0x0402, 0x0700, 0x0706, 0x0803].contains op

/-- Partition commands, those of family 0x01, are applied one at a time in fetch order (16 R525); so are those of families 0x01 and 0x07
that act on one partition (R578). -/
def State.mustWait (s : State) (x : Started) : Bool :=
  let acts (c : HostCmd) : Bool := (cOp c / 256 == 1 || cOp c / 256 == 7) && (opUse (cOp c)).any OpUse.usesPart
  acts x.cmd && s.h.started.any (fun y => decide (y.seq < x.seq) && acts y.cmd && (cPart y.cmd == cPart x.cmd
    || (cOp x.cmd / 256 == 1 && cOp y.cmd / 256 == 1)))

/-- A command's row: it must be a started command of the opcode, its turn must have come; a partition that is FENCED
comes before every other check (R578).  A command whose data access meets a host completion error ends with HOST_ERROR and no effect
(R579, assumption 93). -/
def hostRow (op : Nat) (c : HostCmd) (g : Started → Nat → State → HRes) (s : State) : Out :=
  match s.h.started.find? (fun x => x.cmd == c) with
  | none => .next s
  | some x =>
    if !s.hubUp || cOp c ≠ op || s.mustWait x || (s.standing && !onStand op) then .next s
    else
      let u := (opUse op).any OpUse.usesPart
      if u && s.partState (cPart c) == ptFenced && !onFenced op then .next (s.reply x stFenced 0 0 0)
      else if x.err = .data ∧ cLen c ≠ 0 then .next (s.reply x stHostError 0 0 0)
      else
        match g x (cPart c) s with
        | .reply s st d r0 r1 => .next (s.reply x st d r0 r1)
        | .stay s => .next s

def HRes.ok (s : State) (r0 r1 : Nat := 0) : HRes := .reply s stOk 0 r0 r1
def HRes.no (s : State) (status : Nat) (detail : Nat := 0) : HRes := .reply s status detail 0 0

/-- PART_STATUS as a value: what DETAIL of BAD_STATE holds. -/
def State.partStatus (s : State) (p : Nat) : Nat := s.partState p + s.fld (PART_STATUS_CAUSE p) * 4
def HRes.badState (s : State) (p : Nat) : HRes := .no s stBadState (s.partStatus p)

/-! ### Commands that apply at a boundary (R577) -/

/-- Whether a refresh of hot rows waits because this boundary has installed a new version of its table (10 R376); a serving job has no
boundary, and what applies at one applies at once (17 R577). -/
def State.waitsTable (s : State) (c : HostCmd) (p : Nat) : Bool :=
  cOp c == 0x0501 && (s.job p).installed.contains (cP c 0) && !s.on (STEP_CFG_SERVE p)

/-- A command of a boundary: applied at once while the job is at rest, else held for the next boundary; `apply` gives
the status and RESULT0. -/
def boundaryRow (op : Nat) (c : HostCmd) (check : Nat → State → Option HRes) 
    (apply : HostCmd → Nat → State → State × Nat × Nat) (s : State) : Out :=
  hostRow op c (fun x p s =>
    match check p s with
    | some r => r
    | none =>
      if s.atRest p && !s.waitsTable x.cmd p then
        let r := apply x.cmd p s
        .reply r.1 r.2.1 (if r.2.1 = stBadState then r.1.partStatus p else 0) r.2.2 0
      else if s.h.held.contains c then .stay s
      else .stay { s with h := { s.h with held := s.h.held ++ [c] } }) s

/-- The commands of a partition that wait for a boundary complete with FENCED (R578). -/
def State.dropHeld (s : State) (p : Nat) : State :=
  (s.h.started.filter (fun x => cPart x.cmd == p && s.h.held.contains x.cmd)).foldl (fun s x => s.reply x stFenced 0 0 0) s

/-! ### Function-level reset (R564) -/

/-- A serving batch whose command is gone ends: the next may start (R564). -/
def State.dropServing (s : State) (fn : Nat) : State :=
  (s.h.started.filter (fun x => x.cmd.fn.val == fn)).foldl (fun s x => s.modJob (cPart x.cmd) (fun j =>
    if j.serving = some x.cmd.packet then
      { j with serving := none, reqDigest := [], running := [], pins := j.pins.filter (fun e => e.1 != 1) }
    else j)) s

/-- The rings of a function disabled; its commands forgotten, without completions. -/
def State.dropFn (s : State) (fn : Nat) : State :=
  let s := s.dropServing fn
  let s := (List.range 64).foldl (fun s r =>
    ((s.setFld (HUB_RING_CTRL_EN fn r) 0).setFld (HUB_RING_STAT_IDLE fn r) 1)) s
  { s with
    pm := { s.pm with opCmds := s.pm.opCmds.filter (fun c => c.fn.val != fn) }
    sec := { s.sec with sigs := s.sec.sigs.filter (fun r => match r with
      | .head _ => true
      | .quote c => c.fn.val != fn) }
    h := { s.h with
    started := s.h.started.filter (fun x => x.cmd.fn.val != fn)
    held := s.h.held.filter (fun c => c.fn.val != fn)
    msix := Tab.drop s.h.msix (fun k => k / 2 ^ 16 == fn)
    msixOn := s.h.msixOn.filter (· != fn)
    pba := s.h.pba.filter (fun e => e.1 != fn) } }

/-- FUNCTION_LEVEL_RESET (R564).  In the fail-safe state it resets configuration-visible state alone (18 R594): the enable of MSI-X. -/
def execFunctionLevelReset (fn : Fin 9) (s : State) : Out :=
  if s.on ERR_FAILSAFE_ACTIVE then .next (s.enableMsix fn false)
  else (
    let s := s.dropFn fn
    let s := { s with sec := { s.sec with ide := s.sec.ide.del fn } }
    if fn.val = 0 then .next s
    else .next ((s.setFld (PART_APERTURE_EN (fn - 1)) 0).setFld (PART_APERTURE_BASE (fn - 1)) 0))

/-! ### Commands with no effect inside -/

/-- ECHO (R577). -/
def execEcho (cmd : HostCmd) (s : State) : Out := hostRow 0x0803 cmd (fun x _ s => .ok s (cP x.cmd 0)) s

/-- PART_QUERY (R577). -/
def execPartQuery (cmd : HostCmd) (s : State) : Out :=
  hostRow 0x0103 cmd (fun _ p s => .ok s (s.partStatus p)
    (s.sections p + s.fld (PART_CFG_OPVIS p) * 2 ^ 8 + s.fld (PART_CFG_IDE_REQUIRED p) * 2 ^ 9)) s

end Sys2Proof.Machine
end

