-- ==== Sys2Proof/Machine/Ledger.lean ====
section
/-! DEFINITION. The identity's signatures (16 R541 to R545) and the step ledger (14 R485 to R491). -/

namespace Sys2Proof.Machine

/-! ### Signatures -/

def State.secret (s : State) : List Byte := s.sec.otp.rdBytes 0 32

/-- The top tree's identifier and seed (16 R542; assumption 10). -/
def State.topTree (s : State) : List Byte × List Byte :=
  let k := ofNats (kdf108 (toNats s.secret) (toNats Config.identLabel.1) (toNats Config.identLabel.2) 48)
  (k.take 16, k.drop 16)

/-- Whether the controller signs now: the working tree stands and has leaves left (16 R544, R545). -/
def State.signable (s : State) : Bool :=
  s.on SEC_BOOT_IDENT_READY && s.sec.work.isSome && decide (s.sec.workLeaf < 2 ^ 20)

/-- Whether a request to sign fails for good (16 R545). -/
def State.signFails (s : State) : Bool := !s.signable && s.on SEC_BOOT_IDENT_READY && s.on SEC_BOOT_IDENT_EXHAUSTED

/-- Bytes cut or filled with zeros to a length. -/
def fitB (n : Nat) (l : List Byte) : List Byte := (l ++ List.replicate n 0).take n

/-- The working tree: identifier, seed, and the randomizer of its own signature (16 R544). -/
def State.workTree (s : State) : List Byte × List Byte × List Byte :=
  let b := leBytes 80 (s.sec.work.getD 0)
  (b.take 16, (b.drop 16).take 32, b.drop 48)

/-- The top public key, 56 bytes (16 R542). -/
def State.topPublic (s : State) : List Byte := fitB 56 (ofNats (lmsPublic 7 15 (toNats s.topTree.1) (toNats s.topTree.2)))

/-- The HSS signature of 5,556 bytes under the device's identity (16 R541): the level count, the top tree's signature of the working
tree's public key, that key, the working tree's signature. -/
def State.hssSign (s : State) (q : Nat) (msg : List Byte) : List Byte :=
  let top := s.topTree
  let w := s.workTree
  let pub := lmsPublic 8 20 (toNats w.1) (toNats w.2.1)
  fitB 5556 (ofNats (natBytesBE 4 1
    ++ lmsSign 7 15 (toNats top.1) (toNats top.2) s.sec.topLeaf (toNats w.2.2) pub ++ pub
    ++ lmsSign 8 20 (toNats w.1) (toNats w.2.1) q (toNats (fitB 32 (Config.randomizer w.1 w.2.1 q))) (toNats msg)))

/-- A signature made; the working tree goes with its last leaf. -/
def State.sign (s : State) (msg : List Byte) : List Byte × State :=
  let q := s.sec.workLeaf
  (s.hssSign q msg,
   { s with sec := { s.sec with workLeaf := q + 1, work := if q + 1 = 2 ^ 20 then none else s.sec.work } })

/-- A request for a signature queued, once (16 R545). -/
def State.signReq (s : State) (r : SigReq) : State :=
  if s.sec.sigs.contains r then s else { s with sec := { s.sec with sigs := s.sec.sigs ++ [r] } }

/-! ### Entries (R488, R489) -/

def State.nextIdx (s : State) (p : Nat) : Nat := s.fld (STEP_LEDGER_IDX_NEXT p)
/-- The ledger region in bytes (the constant first: the kernel then never counts it down). -/
def State.ledgerSize (s : State) (p : Nat) : Nat := 2 ^ 20 * s.fld (STEP_LEDGER_SIZE p)
def entryLen (body : List Byte) : Nat := roundUp (16 + body.length) 64

/-- The bytes of an entry; LENGTH covers header and body (assumption 25). -/
def entryBytes (kind index : Nat) (body : List Byte) : List Byte :=
  let n := 16 + body.length
  leBytes 4 kind ++ leBytes 4 n ++ leBytes 8 index ++ body ++ List.replicate (roundUp n 64 - n) 0

/-- An entry appended; one that would cross the end of the region starts at its base, and the skipped bytes are zero. -/
def State.appendEntry (s : State) (p kind index : Nat) (body : List Byte) : State :=
  let j := s.job p
  let base := s.fld (STEP_LEDGER_BASE p)
  let size := s.ledgerSize p
  let n := entryLen body
  let wrap := decide (size < j.ledgerPos + n)
  let off := if wrap then 0 else j.ledgerPos
  let s := if wrap then (s.hubWrite 7 p (base + j.ledgerPos) (List.replicate (size - j.ledgerPos) 0)).2 else s
  let s := (s.hubWrite 7 p (base + off) (entryBytes kind index body)).2
  let hit (e : LedEnt) : Bool :=
    (decide (e.off < off + n) && decide (off < e.off + entryLen e.body)) || (wrap && decide (j.ledgerPos ≤ e.off))
  s.modJob p (fun j => { j with ledger := j.ledger.filter (fun e => !hit e) ++ [⟨kind, index, off, body⟩], ledgerPos := off + n })

/-- Whether entries of the given lengths fit in turn from a position without touching the oldest entry not drained. -/
def ledgerFits (size : Nat) (first : Option Nat) : Nat → List Nat → Bool
  | _, [] => true
  | pos, n :: r =>
    match first with
    | none => if pos + n ≤ size then ledgerFits size none (pos + n) r else decide (n ≤ size) && ledgerFits size none n r
    | some o =>
      if pos ≤ o then decide (pos + n ≤ o) && ledgerFits size (some o) (pos + n) r
      else if pos + n ≤ size then ledgerFits size (some o) (pos + n) r
      else decide (n ≤ o) && ledgerFits size (some o) n r

/-- Bytes of a signed-head entry: statement of 64 bytes, signature of 5,556. -/
def headEntryLen : Nat := roundUp (16 + 64 + 5556) 64

/-- Space for the largest record entry and a signed head (R490). -/
def State.ledgerRoom (s : State) (p : Nat) : Bool :=
  let first := ((s.job p).ledger.find? (fun e => decide (s.fld (STEP_LEDGER_ACK_DRAINED p) ≤ e.index))).map LedEnt.off
  ledgerFits (s.ledgerSize p) first (s.job p).ledgerPos [262336, headEntryLen]

/-! ### Heads (R491) -/

def State.headStatement (s : State) (p index : Nat) : List Byte :=
  leBytes 8 (s.fld (STEP_JOB_ID_JOB_ID p)) ++ leBytes 8 index ++ (s.job p).head ++ leBytes 8 (s.me + p * 2 ^ 14)
    ++ leBytes 8 0

/-- The head signed when any record is unsigned; a request that must wait is kept, one that fails leaves no entry. -/
def State.signHead (s : State) (p : Nat) : State :=
  let i := s.nextIdx p
  if i = 0 ∨ i ≤ (s.job p).signed then s
  else if s.signable then
    let (sig, s) := s.sign (s.headStatement p (i - 1))
    (s.appendEntry p 2 (i - 1) (s.headStatement p (i - 1) ++ sig)).modJob p (fun j => { j with signed := i })
  else if s.signFails then s else s.signReq (.head p)

/-- A record and its annex appended; the head is signed when it is due. -/
def State.appendRecord (s : State) (p : Nat) (body : List Byte) : State :=
  let i := s.nextIdx p
  let s := (s.appendEntry p 1 i body).setFld (STEP_LEDGER_IDX_NEXT p) (i + 1)
  let s := s.modJob p (fun j => { j with head := shaBytes body })
  if (i + 1) % s.fld (STEP_CFG_SIGN_EVERY p) = 0 then s.signHead p else s

/-! ### Records (R485) -/

/-- A record: step, job, BATCH_DIGEST, SEED, WEIGHT_DIGEST, LOSS, flag bits 0 to 6, annex entries, PREV. -/
def recordBytes (step jobId : Nat) (batch : List Byte) (seed : Nat) (weight : List Byte) (loss flags annex : Nat)
    (prev : List Byte) : List Byte :=
  leBytes 8 step ++ leBytes 8 jobId ++ batch ++ leBytes 8 seed ++ weight ++ leBytes 4 loss
    ++ leBytes 4 (flags % 2 ^ 7 + annex * 2 ^ 15) ++ (if prev.isEmpty then List.replicate 32 0 else prev)

def recStep (r : List Byte) : Nat := leNat (r.take 8)
def recBatch (r : List Byte) : List Byte := (r.drop 0x10).take 32
def recWeight (r : List Byte) : List Byte := (r.drop 0x38).take 32
def recLoss (r : List Byte) : Nat := wordAt r 0x58
def recFlags (r : List Byte) : Nat := wordAt r 0x5C
def recAnnex (r : List Byte) : Nat := bits (recFlags r) 15 17
def recPrev (r : List Byte) : List Byte := (r.drop 0x60).take 32

/-- SHA-256 of a step's record with its annex, in the device's own ledger. -/
def State.headOf (s : State) (p step : Nat) : Option (List Byte) :=
  (((s.job p).ledger.filter (fun e => e.kind == 1 && recStep e.body == step)).getLast?).map (fun e => shaBytes e.body)

/-- HEAD of a part at committed step C (15 R499); where the device's ledger holds no record of C, that of its last. -/
def State.headAt (s : State) (p step : Nat) : List Byte := (s.headOf p step).getD (s.job p).head

/-! ### Digests (R470, R471, R486, R487) -/

/-- Address and bytes of element `j` of a chunk in w (code 0) or a state slot (code 2 on), in the types of its group (13 R452); of an
element that no group covers, its w in FP32 (assumption 156). -/
def elRange (sh : List Byte) (g : Option Grp) (j code : Nat) : Option (Nat × Nat) :=
  match g with
  | none => if code = 0 then some (shardW sh + 4 * j, 4) else none
  | some g =>
    let e := shardEl sh g j code
    if code = 0 ∨ code - 2 < g.nstate then some (e.1, e.2.bits / 8) else none

/-- The chunk of a slot and bucket, element by element: w, then each state slot, as the shard descriptor locates them (R486, 15 R497). -/
def State.chunkRanges (s : State) (p slot b : Nat) : List (Nat × Nat) :=
  let l := (s.job p).len b
  let sh := s.shard p slot b
  [0, 2, 3, 4, 5].flatMap (fun code => (List.range (chunkLen l slot)).filterMap (fun j =>
    elRange sh ((s.groupOf p 0 b (slot * chunkQ l + j)).map (s.groupRec p)) j code))

/-- The dense section of a slot: its chunks in bucket order. -/
def State.denseRanges (s : State) (p slot : Nat) : List (Nat × Nat) :=
  (s.job p).bucketIdx.flatMap (s.chunkRanges p slot)

def State.denseBytes (s : State) (p slot : Nat) : List Byte :=
  (s.denseRanges p slot).flatMap (fun r => (s.hubPeek p r.1 r.2).getD [])

def State.denseDigest (s : State) (p slot : Nat) : List Byte := shaBytes (s.denseBytes p slot)

/-- The slot batch digest, of the range that the batch table's entry names; entries are 16 bytes. -/
def State.batchDigest (s : State) (p slot : Nat) : List Byte :=
  let a := (s.job p).batch + 16 * slot
  shaBytes ((s.hubPeek p (bits (s.hubNum p a 8) 0 48) (bits (s.hubNum p (a + 8) 8) 0 32)).getD [])

/-! ### Rows of tables that the device owns (10 R342 to R347) -/

/-- An entry of a row index found by the hub (10 R347): SLOT and VALUE. -/
def State.findIdxFrom (s : State) (p base k r : Nat) : Nat → Nat → Option (Nat × Nat)
  | 0, _ => none
  | n + 1, h =>
    let w := s.hubNum p (base + 16 * h) 8
    let v := s.hubNum p (base + 16 * h + 8) 8
    if bits w 0 48 = 0xFFFFFFFFFFFF then none
    else if bits w 0 48 = r then some (bits v 40 14, bits v 0 40)
    else s.findIdxFrom p base k r n ((h + 1) % 2 ^ k)

/-- The entry for row `r` in the index that the descriptor field at `off` names. -/
def State.findIdx (s : State) (p : Nat) (d : List Byte) (off r : Nat) : Option (Nat × Nat) :=
  let base := bits (hdF d off 8) 0 48
  let k := bits (hdF d off 8) 48 5
  if k = 0 then none else s.findIdxFrom p base k r 16 (r * 0x9E3779B97F4A7C15 % 2 ^ 64 / 2 ^ (64 - k))

def tblId (d : List Byte) : Nat := hdF d 2 2
def tblRows (d : List Byte) : Nat := hdF d 8 6
def tblFirst (d : List Byte) : Nat := bits (hdF d 0x10 4) 0 14
def homeSlot (d : List Byte) (r : Nat) : Nat := (r / 65536 + tblFirst d) % 16384

/-- The tables of a job on the device: one descriptor of each. -/
def State.jobTables (s : State) (p : Nat) : List (List Byte) :=
  ((s.partSecs p).flatMap (fun sec => s.sectionTables p sec)).foldl (fun l d =>
    if l.any (fun e => tblId e == tblId d) then l else l ++ [d]) []

/-- Place of a row in the image of its owner slot: stack, table slot, row of the table slot. -/
def State.rowPlace (s : State) (p : Nat) (d : List Byte) (r : Nat) : Option (Nat × Nat × Nat) :=
  let loc (slot off row : Nat) : Option (Nat × Nat × Nat) :=
    let w := s.hubNum p (hdF d 0x18 6 + 16 * slot + off) 8
    if bit w 0 then some (bits w 1 3, bits w 4 6, bits w 16 40 + row) else none
  match s.findIdx p d 0x20 r with
  | some (slot, v) => loc slot 8 v
  | none => loc (homeSlot d r) 0 (r / 65536 / 16384 * 65536 + r % 65536)

def State.ownerOf (s : State) (p : Nat) (d : List Byte) (r : Nat) : Nat :=
  match s.findIdx p d 0x20 r with
  | some (slot, _) => slot
  | none => homeSlot d r

/-- The record of a row, where the device holds it. -/
def State.rowKeys (s : State) (p : Nat) (d : List Byte) (r : Nat) : Option (List Nat) :=
  (s.rowPlace p d r).bind (fun e => (s.slot e.1 e.2.1).map (fun sl =>
    (List.range sl.recBytes).map (· + sl.key e.1 e.2.2)))

/-- The rows that a home slot's image holds, in image-row order. -/
def homeRows (d : List Byte) (slot : Nat) : List Nat :=
  let shards := (tblRows d + 65535) / 65536
  ((List.range (shards / 16384 + 1)).map (fun i => i * 16384 + (slot + 16384 - tblFirst d) % 16384)).flatMap (fun k =>
    if k < shards then (List.range (min 65536 (tblRows d - k * 65536))).map (· + k * 65536) else [])

/-- The rows that a slot owns by an override entry, by arrival row. -/
def State.arrivedRows (s : State) (p : Nat) (d : List Byte) (slot : Nat) : List Nat :=
  let base := bits (hdF d 0x20 8) 0 48
  let k := bits (hdF d 0x20 8) 48 5
  let es := (List.range (if k = 0 then 0 else 2 ^ k)).filterMap (fun i =>
    let w := s.hubNum p (base + 16 * i) 8
    let v := s.hubNum p (base + 16 * i + 8) 8
    if bits w 0 48 != 0xFFFFFFFFFFFF && bits v 40 14 == slot then some (bits v 0 40, bits w 0 48) else none)
  (es.foldl (fun t e => Tab.put t 0 e.1 (e.2 + 1)) []).map (fun e => e.2 - 1)

def State.ownedRows (s : State) (p : Nat) (d : List Byte) (slot : Nat) : List Nat :=
  (homeRows d slot).filter (fun r => (s.findIdx p d 0x20 r).isNone) ++ s.arrivedRows p d slot

/-- The sum over every row that the device owns (R487). -/
def State.fullTableSum (s : State) (p : Nat) : Nat :=
  ((s.jobTables p).flatMap (fun d => ((s.job p).hosted s.me).flatMap (fun slot =>
    (s.ownedRows p d slot).map (fun r => match s.rowKeys p d r with
      | some ks => rowHash (tblId d) r (ks.map s.m.mem.rd)
      | none => 0)))).foldl (fun a b => (a + b) % 2 ^ 256) 0

end Sys2Proof.Machine
end

