-- ==== Sys2Proof/Machine/Migrate.lean ====
section
/-! DEFINITION. Row indexes as the hub builds them (10 R347), the pins of table images (10 R375), and the migration of rows
between devices (10 R371 to R374). -/

namespace Sys2Proof.Machine

/-! ### Row indexes (10 R347) -/

/-- An entry put into a row index at place `h`, `d` probes from its start: it takes an empty place, or that of an entry nearer to
its own start, which moves on; so every entry lies within 16 probes whenever all can (R347).  Entry: row, word 1, probes. -/
def placeIdx (k : Nat) : Nat → Nat → Nat × Nat × Nat → Tab (Nat × Nat × Nat) → Tab (Nat × Nat × Nat)
  | 0, _, _, t => t
  | n + 1, h, e, t =>
    if 16 ≤ e.2.2 then t
    else
      let x := Tab.get t (0xFFFFFFFFFFFF, 0, 0) h
      let on := (h + 1) % 2 ^ k
      if x.1 = 0xFFFFFFFFFFFF then Tab.put t (0xFFFFFFFFFFFF, 0, 0) h e
      else if x.2.2 < e.2.2 then placeIdx k n on (x.1, x.2.1, x.2.2 + 1) (Tab.put t (0xFFFFFFFFFFFF, 0, 0) h e)
      else placeIdx k n on (e.1, e.2.1, e.2.2 + 1) t

/-- The places of the entries of an index of 2^k places; one that cannot lie within 16 probes has none (assumption 154). -/
def idxPlaces (k : Nat) (es : List (Nat × Nat)) : Tab (Nat × Nat × Nat) :=
  es.foldl (fun t e => placeIdx k (2 ^ k + 16) (e.1 * 0x9E3779B97F4A7C15 % 2 ^ 64 / 2 ^ (64 - k)) (e.1, e.2, 0) t) []

/-- The entries of the index that the descriptor field at `off` names: row, word 1. -/
def State.idxEntries (s : State) (p : Nat) (d : List Byte) (off : Nat) : List (Nat × Nat) :=
  let base := bits (hdF d off 8) 0 48
  let k := bits (hdF d off 8) 48 5
  (List.range (if k = 0 then 0 else 2 ^ k)).filterMap (fun i =>
    let w := bits (s.hubNum p (base + 16 * i) 8) 0 48
    if w = 0xFFFFFFFFFFFF then none else some (w, s.hubNum p (base + 16 * i + 8) 8))

/-- The index that the descriptor field at `off` names, built anew with some entries. -/
def State.buildIdx (s : State) (p : Nat) (d : List Byte) (off : Nat) (es : List (Nat × Nat)) : State :=
  let base := bits (hdF d off 8) 0 48
  let k := bits (hdF d off 8) 48 5
  if k = 0 then s
  else
    let t := idxPlaces k es
    (List.range (2 ^ k)).foldl (fun s i =>
      let e := Tab.get t (0xFFFFFFFFFFFF, 0, 0) i
      (s.hubWrite 7 p (base + 16 * i) (leBytes 8 e.1 ++ leBytes 8 e.2.1)).2) s

/-- Entries of some rows put into an index, in place of those that it has for them. -/
def State.addIdx (s : State) (p : Nat) (d : List Byte) (off : Nat) (es : List (Nat × Nat)) : State :=
  if es.isEmpty then s
  else s.buildIdx p d off ((s.idxEntries p d off).filter (fun e => !es.any (fun x => x.1 == e.1)) ++ es)

/-- The entries of some rows removed from an index. -/
def State.delIdx (s : State) (p : Nat) (d : List Byte) (off : Nat) (rows : List Nat) : State :=
  if (s.idxEntries p d off).any (fun e => rows.contains e.1) then
    s.buildIdx p d off ((s.idxEntries p d off).filter (fun e => !rows.contains e.1))
  else s

/-! ### Descriptors of a table -/

/-- The CL_TABLE registers of a cluster that name a table now. -/
def State.tablesOf (s : State) (p cl tid : Nat) : List Nat :=
  (List.range 64).filter (fun t => s.on (CL_TABLE_VALID cl t)
    && ((s.hubPeek p (s.fld (CL_TABLE_DESC cl t) * 64) 128).any (fun d => tblId d == tid)))

/-- Bytes written at an offset into every section's descriptor of a table; the clusters' caches of descriptors are cleared with them
(10 R345, R348). -/
def State.setDescs (s : State) (p tid off : Nat) (data : List Byte) : State :=
  let cls := s.partClusters p
  let s := cls.foldl (fun s c => (s.tablesOf p c tid).foldl (fun s t =>
    (s.hubWrite 7 p (s.fld (CL_TABLE_DESC c t) * 64 + off) data).2) s) s
  { s with m := { s.m with dcache := s.m.dcache.filter (fun e => !cls.contains e.1) } }

/-- The images that a reader pins as it starts: each CL_TABLE register in use, with its descriptor (10 R375). -/
def State.pin (s : State) (p reader : Nat) : State :=
  s.modJob p (fun j => { j with pins := j.pins ++ (s.partClusters p).flatMap (fun c =>
    ((List.range 64).filter (fun t => s.on (CL_TABLE_VALID c t))).map (fun t => (reader, 64 * c + t, s.fld (CL_TABLE_DESC c t)))) })

/-- The pins of the steps (0) or of the serving batch (1) gone: it has committed, rolled back or replied. -/
def State.unpin (s : State) (p reader : Nat) : State :=
  s.modJob p (fun j => { j with pins := j.pins.filter (fun e => e.1 != reader) })

/-- HELD of an APPLIED: bit t where a reader still pins the previous version of table t (14 R474, 10 R375). -/
def State.heldImages (s : State) (p : Nat) : Nat :=
  ((List.range 64).map (fun t => b2n ((s.partClusters p).any (fun c => s.on (CL_TABLE_PVALID c t)
    && (s.job p).pins.any (fun e => e.2.1 == 64 * c + t && e.2.2 == s.fld (CL_TABLE_PREV_DESC c t)))) * 2 ^ t)).foldl (· + ·) 0

/-! ### Messages about rows (assumption 28) -/

/-- BULK segments of a row that another device needs (assumption 28): FORM 3, kind (0 migrated record, 1 delta, 2 hot
copy, 3 the move itself or a receipt for it), TABLE_ID, byte offset, row number. -/
def rowSegs (kind tid row : Nat) (data : List Byte) : List (List Byte) :=
  (pieces 984 data).zipIdx.map (fun e =>
    leBytes 4 (3 + kind % 4 * 4 + tid % 2 ^ 16 * 2 ^ 16) ++ leBytes 4 (984 * e.2) ++ leBytes 8 row ++ e.1)

/-- Segments of a row sent to a device by requester `rqr` (11 R392): 9 for the hub link, 200 + s for the base engines of stack
s. -/
def State.sendRow (s : State) (p rqr dev kind tid row : Nat) (data : List Byte) : State :=
  (rowSegs kind tid row data).foldl (fun s g => s.sendPart p rqr dev 5 g) s

/-- The bytes of a move: arrival row (all ones before it has one) and new owner slot, and the step of the copy. -/
def moveBytes (m : Move) : List Byte :=
  leBytes 8 (m.arr.getD (2 ^ 40 - 1) + m.slot * 2 ^ 40) ++ leBytes 8 m.step

/-- A receipt sent for a move: what has been taken, 0 the record, 1 the delta, 2 the move itself. -/
def State.sendReceipt (s : State) (p dev : Nat) (m : Move) (what : Nat) : State :=
  s.sendRow p 9 dev 3 m.tid m.row (moveBytes m ++ leBytes 8 what)

def RowPieces.of (kind tid row : Nat) (e : RowPieces) : Bool := e.kind == kind && e.tid == tid && e.row == row

/-- The `n` bytes of a row of a kind, once they have all come. -/
def JobSt.whole (j : JobSt) (kind tid row n : Nat) : Option (List Byte) :=
  (j.arrivals.find? (RowPieces.of kind tid row)).bind (fun e => joinPieces e.segs n (e.segs.length + 1) 0)

/-- The pieces of a row of a kind forgotten. -/
def State.dropPieces (s : State) (p kind tid row : Nat) : State :=
  s.modJob p (fun j => { j with arrivals := j.arrivals.filter (fun e => !e.of kind tid row) })

def State.jobTable (s : State) (p tid : Nat) : Option (List Byte) := (s.jobTables p).find? (fun d => tblId d == tid)

/-! ### Which rows move (10 R371; assumption 103) -/

/-- The table slots of the device that hold images of a table: stack, table slot. -/
def State.tableSlots (s : State) (p : Nat) (d : List Byte) : List (Nat × Nat) :=
  ((List.range 16384).flatMap (fun i => [0, 8].filterMap (fun o =>
    let w := s.hubNum p (hdF d 0x18 6 + 16 * i + o) 8
    if bit w 0 then some (bits w 1 3, bits w 4 6) else none))).eraseDups

/-- The load counters of a table slot, by shard. -/
def State.slotLoads (s : State) (st t : Nat) : List Nat :=
  match s.slot st t with
  | none => []
  | some x =>
    if s.on (SB_LOAD_EN st t) then
      (List.range ((x.rows + 65535) / 65536)).map (fun i => s.rd (keyStack st (s.fld (SB_LOAD_LOAD_BASE st t) * 64 + 4 * i)) 4)
    else []

/-- The slot rows that the sample ring of a table slot holds. -/
def State.sampled (s : State) (st t : Nat) : List Nat :=
  match s.slot st t with
  | none => []
  | some x =>
    let ring := s.fld (SB_LOAD_LOAD_BASE st t) * 64 + roundUp (4 * ((x.rows + 65535) / 65536)) 64
    let n := min 4096 (Tab.get s.b.loadN 0 (64 * st + t) / 2 ^ s.fld (SB_LOAD_SAMPLE_LOG2 st t))
    if s.on (SB_LOAD_EN st t) then (List.range n).map (fun i => s.rd (keyStack st (ring + 8 * i)) 8) else []

/-- The sampled rows of the device's images of a table, those of the hottest shards first, then those seen most often. -/
def State.hotRows (s : State) (p : Nat) (d : List Byte) : List Nat :=
  let seen := (s.tableSlots p d).flatMap (fun e =>
    let l := s.sampled e.1 e.2
    let loads := s.slotLoads e.1 e.2
    l.eraseDups.map (fun q => (e, q, loads.getD (q / 65536) 0, l.count q)))
  let order := seen.zipIdx.foldl (fun t e =>
    Tab.put t 0 (((2 ^ 32 - e.1.2.2.1) * 2 ^ 32 + (2 ^ 32 - e.1.2.2.2)) * 2 ^ 32 + e.2) (e.2 + 1)) ([] : Tab Nat)
  order.filterMap (fun x => (seen[x.2 - 1]?).bind (fun e =>
    match s.tableRow p e.1.1 e.1.2 e.2.1 d with
    | some (tid, r) => if tid == tblId d && (s.job p).hostOf (s.ownerOf p d r) == s.me then some r else none
    | none => none))

/-- The first slot from `i` on, cyclically, whose host is another device that is not lost. -/
def JobSt.slotElsewhere (j : JobSt) (me i : Nat) : Option Nat :=
  ((List.range 16384).map (fun k => (i + k) % 16384)).find? (fun x => j.hostOf x != me && !j.lost.contains (j.hostOf x))

/-- The rows of a table that are to leave: the load of the device exceeds MIG_RATIO ÷ 256 times the job mean, which
the spec gives no way to know and is a free value. -/
def State.pickRows (s : State) (p : Nat) (d : List Byte) : List Nat × State :=
  let most := hdF d 0x40 2
  if most = 0 then ([], s)
  else
    let (mean, s) := s.free 64
    let load := ((s.tableSlots p d).flatMap (fun e => s.slotLoads e.1 e.2)).foldl (· + ·) 0
    if load * 256 ≤ hdF d 0x42 2 * mean then ([], s)
    else (((s.hotRows p d).filter (fun r => !(s.job p).moves.any (fun m => m.tid == tblId d && m.row == r))).take most, s)

/-! ### The course of a migration (10 R372 to R374) -/

/-- The requester of frames with a row's record: the base engines of its stack. -/
def State.rowRqr (s : State) (p : Nat) (d : List Byte) (r : Nat) : Nat := ((s.rowPlace p d r).map (fun e => 200 + e.1)).getD 9

/-- A row begins to leave this device: its record is read through its owner engine and copied to the host of the new slot, the
departed index names the slot and the first step under the new directory. -/
def State.startMove (s : State) (p : Nat) (d : List Byte) (r : Nat) : State :=
  let (i, s) := s.free 14
  let j := s.job p
  match j.slotElsewhere s.me i, s.rowKeys p d r with
  | some slot, some ks =>
    match s.readKeys 9 ks with
    | (none, s) => s
    | (some rec, s) =>
      let n := s.stepNum p
      let m : Move := ⟨tblId d, r, slot, none, n, true, s.findIdx p d 0x20 r, false, []⟩
      let s := s.modJob p (fun j => { j with moves := j.moves ++ [m] })
      let s := s.addIdx p d 0x28 [(r, (n + 1) % 2 ^ 40 + slot * 2 ^ 40)]
      (s.sendRow p 9 (j.hostOf slot) 3 (tblId d) r (moveBytes m)).sendRow p (s.rowRqr p d r) (j.hostOf slot) 0 (tblId d) r rec
  | _, _ => s

/-- A row that the hub picked begins to leave, unless its table has a new version since this boundary (R376), it leaves already, or the
device does not own it any more. -/
def State.startPicked (s : State) (p : Nat) (e : Nat × Nat) : State :=
  match s.jobTable p e.1 with
  | none => s
  | some d =>
    if (s.job p).installed.contains e.1 || (s.job p).moves.any (fun m => m.tid == e.1 && m.row == e.2)
        || (s.job p).hostOf (s.ownerOf p d e.2) != s.me then s
    else s.startMove p d e.2

/-- The migrations that begin at the boundary before a step. -/
def State.startMoves (s : State) (p : Nat) : State :=
  if s.on (STEP_CFG_SERVE p) then s
  else ((s.job p).picked.foldl (fun s e => s.startPicked p e) s).modJob p (fun j => { j with picked := [] })

/-- The arrival rows of a slot that are in use or not free yet: by the directory, by rows that arrive, by rows that left. -/
def State.arrUsed (s : State) (p : Nat) (d : List Byte) (slot : Nat) : List Nat :=
  ((s.idxEntries p d 0x20).filter (fun e => bits e.2 40 14 == slot)).map (fun e => bits e.2 0 40)
    ++ ((s.job p).moves.filter (fun m => m.tid == tblId d && m.slot == slot)).filterMap (fun m => m.arr)
    ++ ((s.job p).moves.filter (fun m => m.tid == tblId d)).filterMap (fun m => m.old.bind (fun o => if o.1 == slot then some o.2 else none))

/-- The memory of an arrival row of a slot, where the device has an arrivals image with that row. -/
def State.arrKeys (s : State) (p : Nat) (d : List Byte) (slot a : Nat) : Option (List Nat) :=
  let w := s.hubNum p (hdF d 0x18 6 + 16 * slot + 8) 8
  if !bit w 0 then none
  else (s.slot (bits w 1 3) (bits w 4 6)).bind (fun x =>
    if x.rows ≤ bits w 16 40 + a then none
    else some ((List.range x.recBytes).map (· + x.key (bits w 1 3) (bits w 16 40 + a))))

/-- What has come of a kind for a move written to its arrival row, once it is whole, and its receipt sent. -/
def State.landKind (s : State) (p src : Nat) (m : Move) (ks : List Nat) (kind : Nat) : State :=
  match (s.job p).whole kind m.tid m.row ks.length with
  | none => s
  | some b => (((s.writeKeys' 9 (ks.zip b)).2).dropPieces p kind m.tid m.row).sendReceipt p src m kind

/-- The record and then the delta of a move from `src` whose arrival row is known reach it. -/
def State.landMove (s : State) (p src : Nat) (m : Move) : State :=
  if (s.job p).hostOf m.slot != s.me then s
  else
    match (s.jobTable p m.tid).bind (fun d => m.arr.bind (fun a => s.arrKeys p d m.slot a)) with
    | none => s
    | some ks => (s.landKind p src m ks 0).landKind p src m ks 1

/-- A field of the moves of a row at a step changed. -/
def State.modMove (s : State) (p tid row step : Nat) (f : Move → Move) : State :=
  s.modJob p (fun j => { j with moves := j.moves.map (fun m => if m.tid == tid && m.row == row && m.step == step then f m else m) })

/-- A move becomes known from device `src`: the device that the row comes to gives it the lowest free arrival row and tells every
device of the job, or, having none, sends the move back and the row stays, its departed entry until the boundary (R348); the others note it
and say so. -/
def State.moveIn (s : State) (p src tid row : Nat) (b : List Byte) : State :=
  let w := leNat (b.take 8)
  let step := leNat ((b.drop 8).take 8)
  let slot := bits w 40 14
  let known := (s.job p).moves.find? (fun m => m.tid == tid && m.row == row && m.step == step)
  if b.length = 24 then s.modMove p tid row step (fun m => { m with acks := m.acks ++ [(src, leNat (b.drop 16))] })
  else
    match s.jobTable p tid with
    | none => s
    | some d =>
      if bits w 0 40 = 2 ^ 40 - 1 then
        if known.any Move.mine then s.modMove p tid row step (fun m => { m with acks := m.acks ++ [(src, 3)] })
        else
          let used := s.arrUsed p d slot
          match (List.range (used.length + 1)).find? (fun a => !used.contains a) with
          | none => s
          | some a =>
            if (s.job p).hostOf slot != s.me || known.isSome then s
            else if (s.arrKeys p d slot a).isNone then s.sendRow p 9 src 3 tid row (b.take 16)
            else
              let m : Move := ⟨tid, row, slot, some a, step, false, none, false, []⟩
              let s := s.modJob p (fun j => { j with moves := j.moves ++ [m] })
              let s := ((s.job p).devices.filter (· != s.me)).foldl (fun s dev => s.sendRow p 9 dev 3 tid row (moveBytes m)) s
              s.landMove p src m
      else
        let m : Move := ⟨tid, row, slot, some (bits w 0 40), step, false, none, false, []⟩
        let s := if known.isSome then s.modMove p tid row step (fun m => { m with arr := some (bits w 0 40) })
          else s.modJob p (fun j => { j with moves := j.moves ++ [m] })
        s.sendReceipt p src m 2

/-- The record of one row under way sent again, as the step left it. -/
def State.sendDelta (s : State) (p : Nat) (m : Move) : State :=
  match (s.jobTable p m.tid).bind (fun d => (s.rowKeys p d m.row).map (fun ks => (d, ks))) with
  | none => s
  | some (d, ks) =>
    match s.readKeys 9 ks with
    | (none, s) => s
    | (some rec, s) => s.sendRow p (s.rowRqr p d m.row) ((s.job p).hostOf m.slot) 1 m.tid m.row rec

/-- This device's moving rows that the step has updated since their copies were taken and whose records have not left again: the
delta. -/
def State.deltas (s : State) (p : Nat) : List Move :=
  (s.job p).moves.filter (fun m => m.mine && m.step == s.stepNum p && s.b.touched.contains (p, m.tid, m.row) && !m.sent && !m.acks.any (fun a => a.2 == 3))

/-- The delta sent. -/
def State.sendDeltas (s : State) (p : Nat) : State :=
  (s.deltas p).foldl (fun s m => (s.sendDelta p m).modMove p m.tid m.row m.step (fun m => { m with sent := true })) s

/-- Whether a move is as the table of R372 has it before APPLIED: the device that the row leaves knows that its record and delta
have come or that it stays, the device that it comes to knows that every other device has noted it. -/
def State.moveSettled (s : State) (p : Nat) (m : Move) : Bool :=
  let j := s.job p
  let dst := j.hostOf m.slot
  if m.mine then m.acks.contains (dst, 3) || m.acks.contains (dst, 0) && (!m.sent || m.acks.contains (dst, 1))
  else dst != s.me || (j.devices.filter (· != s.me)).all (fun dev => m.acks.contains (dev, 2))

/-- Whether every move of the step is so. -/
def State.movesSettled (s : State) (p : Nat) : Bool :=
  ((s.job p).moves.filter (fun m => m.step == s.stepNum p)).all (s.moveSettled p)

/-- The directories of the step that commits installed (14 R477): override entries send the moved rows to their new slots
under DIR_VER + 1; rows that come back leave the departed index in the same boundary (10 R374); a row that found no arrival
row stays; the rows that left a step ago are free. -/
def State.installMoves (s : State) (p : Nat) : State :=
  let n := s.stepNum p
  let now := (s.job p).moves.filter (fun m => m.step == n)
  let s := (s.jobTables p).foldl (fun s d =>
    let mine := now.filter (fun m => m.tid == tblId d)
    let es := mine.filterMap (fun m => m.arr.map (fun a => (m.row, a % 2 ^ 40 + m.slot * 2 ^ 40)))
    let back := (mine.filter (fun m => m.arr.isSome && (s.job p).hostOf m.slot == s.me)).map (fun m => m.row)
    let stay := (mine.filter (fun m => m.mine && m.arr.isNone)).map (fun m => m.row)
    let s := (s.addIdx p d 0x20 es).delIdx p d 0x28 (back ++ stay)
    if es.isEmpty then s else s.setDescs p (tblId d) 6 (leBytes 2 (hdF d 6 2 + 1))) s
  s.modJob p (fun j => { j with moves := j.moves.filter (fun m => decide (n < m.step) || (m.step == n && m.arr.isSome)) })

/-- The migrations of a step that rolls back abandoned (10 R373): departed entries cleared, arrival rows discarded. -/
def State.dropMoves (s : State) (p : Nat) : State :=
  let n := s.stepNum p
  let now := (s.job p).moves.filter (fun m => m.step == n)
  let s := (s.jobTables p).foldl (fun s d =>
    s.delIdx p d 0x28 ((now.filter (fun m => m.mine && m.tid == tblId d)).map (fun m => m.row))) s
  s.modJob p (fun j => { j with
    moves := j.moves.filter (fun m => m.step != n)
    arrivals := j.arrivals.filter (fun e => !(decide (e.kind < 2) && now.any (fun m => m.tid == e.tid && m.row == e.row))) })

/-- No migration outlives a restore: the moves are forgotten and the departed indexes, which no part carries, are emptied
(15 R498). -/
def State.forgetMoves (s : State) (p : Nat) : State :=
  let s := (s.jobTables p).foldl (fun s d => s.delIdx p d 0x28 ((s.idxEntries p d 0x28).map Prod.fst)) s
  s.modJob p (fun j => { j with moves := [], arrivals := j.arrivals.filter (fun e => decide (1 < e.kind)) })

end Sys2Proof.Machine
end

