-- ==== Sys2Proof/Machine/Parts.lean ====
section
/-! DEFINITION. Slot state and job state as parts (15 R497 to R501), and the host buffers that hold them (17 R581). -/

namespace Sys2Proof.Machine

def pad64 (b : List Byte) : List Byte := b ++ List.replicate (roundUp b.length 64 - b.length) 0

/-- Whether a table has a group-map entry (13 R451). -/
def State.tableMapped (s : State) (p tid : Nat) : Bool :=
  (List.range (s.fld (STEP_UPD_CFG_NMAP p))).any (fun i =>
    let a := s.fld (STEP_UPD_TABLES_MAP p) + 16 * i
    bits (s.hubNum p a 8) 56 1 == 1 && bits (s.hubNum p (a + 8) 8) 0 16 == tid)

/-- The job's tables in TABLE_ID order. -/
def State.sortedTables (s : State) (p : Nat) : List (List Byte) :=
  let ds := s.jobTables p
  (sortNat (ds.map tblId)).filterMap (fun t => ds.find? (fun d => tblId d == t))

/-! ### Slot state (R497) -/

/-- The records of a slot, in image-row order, then its arrivals: the keys of each. -/
def State.slotRecords (s : State) (p slot : Nat) : List (List Nat) :=
  ((s.sortedTables p).filter (fun d => s.tableMapped p (tblId d))).flatMap (fun d =>
    let w := s.hubNum p (hdF d 0x18 6 + 16 * slot) 8
    let home := (homeRows d slot).filterMap (fun r =>
      if bit w 0 then (s.slot (bits w 1 3) (bits w 4 6)).map (fun x =>
        (List.range x.recBytes).map (· + x.key (bits w 1 3) (bits w 16 40 + r / 65536 / 16384 * 65536 + r % 65536)))
      else none)
    home ++ (s.arrivedRows p d slot).filterMap (fun r => s.rowKeys p d r))

/-- Held deferrals of a slot in bucket order. -/
def State.slotDeferrals (s : State) (p slot : Nat) : List Deferral :=
  (List.range 1024).flatMap (fun b => (s.job p).held.filter (fun h => h.slot == slot && h.bucket == b))

def deferBytes (h : Deferral) : List Byte :=
  pad64 (leBytes 8 (h.bucket % 2 ^ 10 + b2n h.nf * 2 ^ 10 + wrapInt 8 h.e * 2 ^ 16 + h.data.length % 2 ^ 32 * 2 ^ 32)
    ++ leBytes 8 0 ++ h.data.flatMap (leBytes 4))

/-- The sections of a slot part. -/
def State.slotSections (s : State) (p slot : Nat) : List Byte × List Byte × List Byte :=
  (s.denseBytes p slot, ((s.slotRecords p slot).flatMap (fun ks => ks.map s.m.mem.rd)),
    (s.slotDeferrals p slot).flatMap deferBytes)

/-- The memory that a slot part is read from, where it is mapped. -/
def State.partKeys (s : State) (p slot : Nat) : List Nat :=
  (s.denseRanges p slot).flatMap (fun r => (s.hubKeys p r.1 r.2).getD []) ++ (s.slotRecords p slot).flatten

/-- The reads of the parts of the hosted slots: corrections counted, an uncorrectable error reported and the partition fenced (08
R282, R284). -/
def State.seeParts (s : State) (p : Nat) : State :=
  ((s.job p).hosted s.me).foldl (fun s slot => (s.readKeys 7 (s.partKeys p slot)).2) s

/-- The table slots that hold rows of a table on this device. -/
def State.slotsOf (s : State) (p : Nat) (d : List Byte) : List (Nat × Nat) :=
  ((List.range 32768).filterMap (fun i =>
    let w := s.hubNum p (hdF d 0x18 6 + 8 * i) 8
    if bit w 0 then some (bits w 1 3, bits w 4 6) else none)).eraseDups

/-- Bytes of a slot's part, without held deferrals. -/
def State.slotBytes (s : State) (p slot : Nat) : Nat :=
  let dense := ((s.denseRanges p slot).map Prod.snd).foldl (· + ·) 0
  let rows := (((s.jobTables p).filter (fun d => s.tableMapped p (tblId d))).map (fun d =>
    (homeRows d slot).length * (((s.slotsOf p d).head?.bind (fun t => s.slot t.1 t.2)).map Slot.recBytes).getD 0)).foldl (· + ·) 0
  128 + roundUp dense 64 + roundUp rows 64

/-! ### Job state (R498) -/

def State.denseFlags (s : State) (p : Nat) : Nat :=
  ((List.range 64).map (fun l => s.fld (STEP_PRED_CFG_DENSE p l) * 2 ^ l)).foldl (· + ·) 0

def idxBytes (s : State) (p : Nat) (d : List Byte) (off : Nat) : List Byte :=
  let k := bits (hdF d off 8) 48 5
  if k = 0 then [] else (s.hubPeek p (bits (hdF d off 8) 0 48) (2 ^ k * 16)).getD []

def State.jobBytes (s : State) (p : Nat) : List Byte :=
  let groups := pad64 ((List.range (s.fld (STEP_UPD_CFG_NGROUP p))).flatMap (fun n => leBytes 8 (s.groupRec p n).t))
  leBytes 4 (wrapInt 32 (s.scaleE p)) ++ leBytes 4 (s.fld (NUM_LS_STATE_COUNT p)) ++ leBytes 8 (s.denseFlags p)
    ++ leBytes 8 (s.nextIdx p) ++ leBytes 4 (s.fld (NUM_LS_STATE_FLOOR_RUN p)) ++ List.replicate 36 0 ++ groups
    ++ (s.sortedTables p).flatMap (fun d =>
      let hot := ((s.job p).hotSet.find? (fun e => e.1 == tblId d)).getD (tblId d, 0, [])
      leBytes 8 (tblId d + hdF d 4 2 * 2 ^ 16 + hdF d 6 2 * 2 ^ 32) ++ idxBytes s p d 0x20
        ++ leBytes 8 hot.2.2.length ++ leBytes 8 hot.2.1 ++ hot.2.2.flatMap (leBytes 8))

/-- Bytes of the parts of a device: its slot states and the job part (15 R508). -/
def State.partsBytes (s : State) (p d : Nat) : Nat :=
  128 + (s.jobBytes p).length + (((s.job p).hosted d).map (s.slotBytes p)).foldl (· + ·) 0

/-! ### Parts (R499) -/

def partHead (jobId step kind slot source len : Nat) (head digest : List Byte) (dn tb df : Nat) : List Byte :=
  leBytes 8 jobId ++ leBytes 8 step ++ leBytes 8 (kind % 4 + slot % 2 ^ 14 * 4 + source % 2 * 2 ^ 16) ++ leBytes 8 len
    ++ (if head.isEmpty then List.replicate 32 0 else head) ++ digest ++ leBytes 8 dn ++ leBytes 8 tb ++ leBytes 4 df
    ++ List.replicate 12 0

def ptJob (h : List Byte) : Nat := leNat (h.take 8)
def ptStep (h : List Byte) : Nat := leNat ((h.drop 8).take 8)
def ptKind (h : List Byte) : Nat := bits (wordAt h 0x10) 0 2
def ptSlot (h : List Byte) : Nat := bits (wordAt h 0x10) 2 14
def ptSource (h : List Byte) : Nat := bits (wordAt h 0x10) 16 1
def ptLen (h : List Byte) : Nat := leNat ((h.drop 0x18).take 8)
def ptHead (h : List Byte) : List Byte := (h.drop 0x20).take 32
def ptDigest (h : List Byte) : List Byte := (h.drop 0x40).take 32
def ptDense (h : List Byte) : Nat := leNat ((h.drop 0x60).take 8)
def ptTables (h : List Byte) : Nat := leNat ((h.drop 0x68).take 8)

/-- The part of a slot at committed step C: header and body. -/
def State.slotPart (s : State) (p step source slot : Nat) : List Byte × List Byte :=
  let (d, t, f) := s.slotSections p slot
  let body := pad64 d ++ pad64 t ++ f
  (partHead (s.fld (STEP_JOB_ID_JOB_ID p)) step 0 slot source body.length (s.headAt p step) (shaBytes body) d.length t.length
    f.length, body)

def State.jobPart (s : State) (p step source : Nat) : List Byte × List Byte :=
  let body := s.jobBytes p
  (partHead (s.fld (STEP_JOB_ID_JOB_ID p)) step 1 0 source body.length (s.headAt p step) (shaBytes body) 0 0 0, body)

/-- A part as it stands in host memory: sealed under the checkpoint key with its header as additional data (R500); the
tag follows the body (assumption 29). -/
def State.sealPart (s : State) (p : Nat) (h body : List Byte) : List Byte :=
  let (ct, tag) := gcmSeal (toNats (Tab.get s.sec.ckKey [] p)) (toNats (Config.partIv h)) (toNats h) (toNats body)
  h ++ ofNats ct ++ ofNats tag

/-- Whether this device hosts the lowest slot whose host is alive. -/
def JobSt.coordSlot (j : JobSt) : Nat := (j.slots.findIdx? (fun d => !j.lost.contains d)).getD 0
def JobSt.coord (j : JobSt) : Nat := j.hostOf j.coordSlot

/-- The parts that a device writes: one of each hosted slot, and the job part where `withJob`. -/
def State.partsOf (s : State) (p step source : Nat) (withJob : Bool) : List (List Byte × List Byte) :=
  ((s.job p).hosted s.me).map (s.slotPart p step source) ++ (if withJob then [s.jobPart p step source] else [])

/-! ### Host buffers (17 R581) -/

/-- The entries of a buffer list: host addresses and lengths, up to the first that is none. -/
def bufList : List Nat → List (Nat × Nat)
  | [] => []
  | w :: r => if bits w 0 6 != 0 then [] else (bits w 0 64, bits w 64 32) :: bufList r

def State.bufsOf (s : State) (c : HostCmd) : List (Nat × Nat) :=
  bufList (numsOf 16 (cLen c / 16) (s.rdB (keyHost (cData c)) (cLen c)))

def bufRoom (l : List (Nat × Nat)) : Nat := (l.map Prod.snd).foldl (· + ·) 0

/-- Bytes written across a buffer list. -/
def State.putBufs (s : State) : List (Nat × Nat) → List Byte → State
  | [], _ => s
  | (a, n) :: r, b => if b.isEmpty then s else (s.wrB (keyHost a) (b.take n)).putBufs r (b.drop n)

def State.getBufs (s : State) (l : List (Nat × Nat)) : List Byte := l.flatMap (fun e => s.rdB (keyHost e.1) e.2)

/-- A command that waits for parts to write. -/
def State.ckCmd (s : State) (p use : Nat) : Option Started :=
  s.h.started.find? (fun x => cOp x.cmd == 0x0600 && cPart x.cmd == p && bits (cP x.cmd 0) 0 1 == use)

/-- Sealed parts written to the buffers of an outstanding CKPT_BUFFERS; a list too short is answered with BAD_LENGTH
(R581). -/
def State.writeParts (s : State) (p step : Nat) (x : Started) (ps : List (List Byte × List Byte)) : Bool × State :=
  let bs := ps.flatMap (fun e => s.sealPart p e.1 e.2)
  let l := s.bufsOf x.cmd
  if bufRoom l < bs.length then (false, s.reply x stBadLength 0 0 0)
  else (true, (s.putBufs l bs).reply x stOk 0 step bs.length)

/-- The checkpoint that is due, written where its buffers are there (R500). -/
def State.tryCheckpoint (s : State) (p : Nat) : State :=
  match (s.job p).ckWait, s.ckCmd p 0 with
  | some c, some x =>
    let s := s.seeParts p
    if s.partState p = ptFenced then s
    else
    match s.writeParts p c x (s.partsOf p c 0 ((s.job p).coord == s.me)) with
    | (true, s) => s.modJob p (fun j => { j with ckWait := none })
    | (false, s) => s
  | _, _ => s

end Sys2Proof.Machine
end

