-- ==== Sys2Proof/Machine/Boundary.lean ====
section
/-! DEFINITION. The step boundary (14 R477): held writes and commands, the claim table of the pounds (19 R633 to R636), the
hot-row refresh (10 R367 to R370), the replacement of tables (10 R375), the start of the next step. -/

namespace Sys2Proof.Machine

/-- STEP_STATUS. -/
def jsIdle : Nat := 0
def jsRunning : Nat := 1
def jsApplied : Nat := 2
def jsHold : Nat := 3
def jsStopped : Nat := 4
def jsPaused : Nat := 5
def State.jstate (s : State) (p : Nat) : Nat := s.fld (STEP_STATUS_STATE p)
def State.setJstate (s : State) (p st cause : Nat) : State :=
  (s.setFld (STEP_STATUS_STATE p) st).setFld (STEP_STATUS_CAUSE p) cause

/-- Causes of STEP_STATUS. -/
def jcLossFloor : Nat := 1
def jcJournal : Nat := 2
def jcLost : Nat := 3
def jcHost : Nat := 4
def jcLedger : Nat := 5
def jcTask : Nat := 6
def jcFenced : Nat := 7

/-! ### Writes that take effect between steps (20 R643) -/

/-- A register field that comes into force, with the caches that its write clears: translations with PART_PT_ROOT (01
R49), the sampler caches with CL_GRAPH_DIR (07 R238), the descriptor cache with CL_TABLE (10 R348). -/
def State.putFld (s : State) (f : Fld) (v : Nat) : State :=
  let s := s.setFld f v
  let a := f.key / 64
  let c := (a - 0x8000000) / 0x100000
  let off := (a - 0x8000000) % 0x100000
  if 0xB000000 ≤ a ∧ a < 0xB800000 ∧ (a - 0xB000000) % 0x100000 = 0x18 then
    let mine := s.partClusters ((a - 0xB000000) / 0x100000)
    s.dropTc mine.contains
  else if 0x8000000 ≤ a ∧ a < 0x8000000 + 40 * 0x100000 ∧ off < 0x80 then
    { s with m := { s.m with scache := s.m.scache.filter (fun e => e.1 != c) } }
  else if 0x8000000 ≤ a ∧ a < 0x8000000 + 40 * 0x100000 ∧ 0x1000 ≤ off ∧ off < 0x1400 then
    { s with m := { s.m with dcache := s.m.dcache.filter (fun e => e.1 != c) } }
  else s

/-- Bits of a field replaced under a mask. -/
def mergeBits (old v mask len : Nat) : Nat := (old &&& (2 ^ len - 1 - mask % 2 ^ len)) ||| (v &&& (mask % 2 ^ len))

/-- The writes held for a partition's boundary take effect, each on the bits that it covers (20 R638, R643). -/
def State.applyHeldFlds (s : State) (p : Nat) : State :=
  let mine := s.j.held.filter (fun h => h.part == p)
  mine.foldl (fun s h => s.putFld h.fld (mergeBits (s.fld h.fld) h.value h.mask h.fld.len)) { s with j := { s.j with held := s.j.held.filter (fun h => h.part != p) } }

/-- What the host has written into the update tables during the step comes into force (13 R450). -/
def State.applyHeldMem (s : State) (p : Nat) : State :=
  let mine := s.j.heldMem.filter (fun h => h.1 == p)
  mine.foldl (fun s h => (s.writeKeys' 7 h.2).2) { s with j := { s.j with heldMem := s.j.heldMem.filter (fun h => h.1 != p) } }

/-! ### The claim table of a pound (19 R635) -/

def mib (n : Nat) : Nat := n * 2 ^ 20
def State.pound (s : State) (p : Nat) : Nat := 2 ^ 30 * s.fld (PART_POUND_GIB p)
def State.poundBottom (s : State) (p : Nat) : Nat := s.stackBytes - s.pound p

/-- Rank 5: the basins of a section (12 R416; assumption 26). -/
def State.basinClaim (s : State) (p sec : Nat) : Nat :=
  Config.basinBytes (s.job p).buckets (((s.job p).hosted s.me).filter (fun x => s.siteSec p x == sec))

/-- Rank 6: the held deferrals of a section (assumption 26). -/
def State.heldClaims (s : State) (p sec : Nat) : Nat :=
  (((s.job p).held.filter (fun h => s.siteSec p h.slot == sec)).map (fun h => deferLen h.data.length)).foldl (· + ·) 0

/-- Bytes of a journal entry that saves the 64-byte units of a range (13 R462). -/
def jnlSize (r : Nat × Nat) : Nat := 32 + (roundUp (r.1 + r.2) 64 - r.1 / 64 * 64)

def sumNat (l : List Nat) : Nat := l.foldl (· + ·) 0

/-- Journal bytes of the spans of a chunk, each element by its own group (13 R452, R461, R464). -/
def State.chunkJournal (s : State) (p slot b : Nat) : Nat :=
  let sh := s.shard p slot b
  let n := s.spanLen p
  if shardOk sh slot b then
    sumNat ((List.range ((chunkLen ((s.job p).len b) slot + n - 1) / n)).map (fun k =>
      sumNat ((jnlRanges ((s.spanIdx p b slot k).flatMap (s.elemWrites p b slot sh))).map jnlSize)))
  else 0

/-- The tensor ID of the weights of a bucket, by the shard descriptors of a hosted slot. -/
def State.weightTid (s : State) (p b : Nat) : Nat :=
  (((s.job p).hosted s.me).head?.map (fun slot => shardTid (s.shard p slot b))).getD 0

/-- Journal bytes of the all-gather receivers: every frame into the replica of every section. -/
def State.gatherJournal (s : State) (p : Nat) : Nat :=
  let j := s.job p
  sumNat (j.bucketIdx.flatMap (fun b => (List.range 16384).flatMap (fun c =>
    match s.gatherWidth p b c with
    | none => []
    | some w =>
      let ends := c * chunkQ (j.len b) + chunkLen (j.len b) c
      (s.partSecs p).flatMap (fun sec => (gatherElems (j.len b) c w).map (fun e =>
        jnlSize (Config.replicaVa p sec (s.weightTid p b) % 2 ^ 48 + e * w, min (960 / w) (ends - e) * w))))))

/-- Rank 7, as its regions lie from the top down: dense space of a section's site, all-gather receivers, ROW_BUDGET. -/
def State.jnlSpaces (s : State) (p sec : Nat) : List (Nat × Nat) :=
  let j := s.job p
  let hub := s.on (STEP_UPD_CFG_DENSE_SITE p)
  let low := s.lowSec p == sec
  let mine := (j.hosted s.me).filter (fun x => if hub then low else s.siteSec p x == sec)
  [(b2n hub, sumNat (mine.flatMap (fun slot => j.bucketIdx.map (s.chunkJournal p slot)))),
    (3, if low then s.gatherJournal p else 0), (2, mib (s.fld (STEP_JNL_CFG_ROW_BUDGET p)))]

/-- The claims on a section's pound that the hub places, highest rank first: rank, site of a journal region, bytes (19 R635). -/
def State.poundClaims (s : State) (p sec : Nat) : List (Nat × Nat × Nat) :=
  [(1, 0, if sec = 0 then mib 64 else 0), (2, 0, if s.lowSec p = sec then 0x820000 else 0), (4, 0, 2 ^ 14), (5, 0, s.basinClaim p sec),
    (6, 0, s.heldClaims p sec)] ++ (s.jnlSpaces p sec).map (fun e => (7, e.1, e.2))

/-- Whether a claim of `n` bytes below `top` lies at `at_` inside the pound, clear of the ledger region. -/
def claimFits (led : Nat × Nat) (bottom top at_ n : Nat) : Bool :=
  decide (bottom ≤ at_) && decide (at_ + n ≤ top) && !(decide (at_ < led.2) && decide (led.1 < at_ + n))

/-- The claims placed one below the other from `top` down: rank, site, place, whether the claim fits. -/
def placeClaims (led : Nat × Nat) (bottom : Nat) : Nat → List (Nat × Nat × Nat) → List (Nat × Nat × Nat × Bool)
  | _, [] => []
  | top, c :: r =>
    let at_ := placeClaim led top c.2.2
    (c.1, c.2.1, at_, claimFits led bottom top at_ c.2.2) :: placeClaims led bottom at_ r

/-- The layout of a section's pound by the claims as they stand: the hot region has what is left at the bottom, below every claim and the
ledger region (19 R635). -/
def State.layPound (s : State) (p sec : Nat) : PoundLay :=
  let led := s.ledgerSpan p sec
  let bottom := s.poundBottom p
  let l := placeClaims led bottom s.stackBytes (s.poundClaims p sec)
  let low := ((l.getLast?).map (fun e => e.2.2.1)).getD s.stackBytes
  let fits (r : Nat) : Bool := (l.filter (fun e => e.1 ≤ r)).all (fun e => e.2.2.2)
  { sec := sec
    jnl := (l.filter (fun e => e.1 == 7)).map (fun e => (e.2.1, e.2.2.1))
    hot := (if led.1 < led.2 ∧ led.2 ≤ low ∧ bottom ≤ led.1 then led.1 else low) - bottom
    spare := s.pound p - (sumNat ((s.poundClaims p sec).map (fun e => e.2.2)) + (led.2 - led.1))
    fixed := fits 5 && (led.2 ≤ led.1 || (decide (bottom ≤ led.1) && decide (led.2 ≤ s.stackBytes)))
    fits := fits 7 }

/-- Rank 8: the hot region of a section as the claims stand, in bytes. -/
def State.hotRoom (s : State) (p sec : Nat) : Nat := (s.layPound p sec).hot

/-- The regions of the journal for a step, empty, where the layout in force has them (13 R464, 19 R635). -/
def State.openJournal (s : State) (p : Nat) : State :=
  let es := (s.job p).pounds.flatMap (fun l => l.jnl.map (fun e => (jnlRegion p e.1 l.sec, keyStack l.sec e.2)))
  { s with b := { s.b with jnlAt := es.foldl (fun t e => Tab.put t 0 e.1 e.2) s.b.jnlAt } }

/-! ### Hot rows (10 R367 to R370) -/

/-- Bytes of a row in the hot region (V). -/
def State.hotBytes (s : State) (p tid : Nat) : Nat := ((s.tableGeom p tid).map (fun g => roundUp g.1 64)).getD 0

/-- The table slot of a section whose image takes in the hot region for a table's rows (10 R362): the lowest that fits
(assumption 27). -/
def State.landingSlot (s : State) (p sec : Nat) (d : List Byte) : Option Slot :=
  (List.range 64).findSome? (fun t =>
    (s.slot sec t).bind (fun x =>
      if x.part = p ∧ x.off = 0 ∧ x.ty.code = bits (hdF d 0x10 4) 16 4 ∧ x.elems = bits (hdF d 0x14 4) 0 13
          ∧ x.recBytes = s.hotBytes p (tblId d) ∧ x.base ≤ s.poundBottom p then some x else none))

def State.tableIn (s : State) (p sec tid : Nat) : Option (List Byte) :=
  (s.sectionTables p sec).find? (fun d => tblId d == tid)

/-- A hot row's place in a section: table, row, its table slot and landing row, the end of its record above the pound's
bottom. -/
structure HotPlace where
  tid : Nat
  row : Nat
  slot : Slot
  land : Nat
  last : Nat

/-- The places of the hot rows of a section, table by table in TABLE_ID order from the bottom of the pound up: a table's
first place is the first landing row of its slot that begins at or above the end of the table before (10 R367). -/
def State.hotPlaces (s : State) (p sec : Nat) : List HotPlace :=
  let bottom := s.poundBottom p
  ((s.job p).hotSet.foldl (fun (a : Nat × List HotPlace) e =>
    match (s.tableIn p sec e.1).bind (fun d => s.landingSlot p sec d) with
    | none => a
    | some x =>
      let q := (bottom + a.1 - x.base + x.recBytes - 1) / x.recBytes
      let ends (i : Nat) : Nat := x.base + (q + i) * x.recBytes - bottom
      (ends e.2.2.length, a.2 ++ (e.2.2.zipIdx.filter (fun r => decide (q + r.2 < x.rows))).map (fun r =>
        ⟨e.1, r.1, x, q + r.2, ends (r.2 + 1)⟩))) (0, [])).2

/-- The landing row that the hot index of a table in a section gives a row. -/
def State.hotLand (s : State) (p sec tid row : Nat) : Option (Slot × Nat) :=
  (s.tableIn p sec tid).bind (fun d => (s.landingSlot p sec d).bind (fun x =>
    (s.findIdx p d 0x30 row).map (fun e => (x, e.2))))

/-- The vector of a hot row written where the hot index of a section has it. -/
def State.putHotIn (s : State) (p sec tid row : Nat) (vec : List Byte) : State :=
  match s.hotLand p sec tid row with
  | some (x, land) => (s.writeKeys' 7 ((seqKeys (x.key sec land) vec.length).zip vec)).2
  | none => s

def State.putHot (s : State) (p tid row : Nat) (vec : List Byte) : State :=
  (s.partSecs p).foldl (fun s sec => s.putHotIn p sec tid row vec) s

/-- The hot index of a table in a section rebuilt (10 R368): of `rows`, those whose place lies in the region. -/
def State.buildHotIndex (s : State) (p sec : Nat) (d : List Byte) (rows : List Nat) : State :=
  s.buildIdx p d 0x30 (((s.hotPlaces p sec).filter (fun e => e.tid == tblId d && rows.contains e.row
    && decide (e.last ≤ s.hotRoom p sec))).map (fun e => (e.row, e.land)))

/-- Where the cached rows of a table in a section end, in bytes above the pound's bottom: row, end. -/
def State.hotEnds (s : State) (p sec : Nat) (d : List Byte) : List (Nat × Nat) :=
  match s.landingSlot p sec d with
  | none => []
  | some x => (s.idxEntries p d 0x30).map (fun e => (e.1, x.base + (bits e.2 0 40 + 1) * x.recBytes - s.poundBottom p))

/-- The hot regions fitted to the layout in force: entries whose landing row no longer lies in the region are removed, none comes back before
a refresh (10 R370, 19 R635). -/
def State.fitHot (s : State) (p : Nat) : State :=
  (s.job p).pounds.foldl (fun s l =>
    (s.sectionTables p l.sec).foldl (fun s d =>
      let out := (s.hotEnds p l.sec d).filter (fun e => decide (l.hot < e.2))
      if out.isEmpty then s
      else (s.setFld PM_CLAIM_HOT_SHRUNK (s.fld PM_CLAIM_HOT_SHRUNK ||| 2 ^ l.sec)).delIdx p d 0x30 (out.map Prod.fst)) s) s

/-- What the layout leaves below the claims, less the space of the cached rows (19 R636). -/
def State.spareLay (s : State) (p : Nat) (l : PoundLay) : PoundLay :=
  { l with spare := l.spare - (((s.sectionTables p l.sec).flatMap (s.hotEnds p l.sec)).map Prod.snd).foldl max 0 }

/-- The claims on the pounds settled: at job load and at each boundary after the actions of 14 R477 (19 R634). -/
def State.settlePounds (s : State) (p : Nat) : State :=
  let s := (s.modJob p (fun j => { j with pounds := (s.partSecs p).map (s.layPound p) })).fitHot p
  s.modJob p (fun j => { j with pounds := j.pounds.map (s.spareLay p) })

/-- One row of a refresh: from this device's own record, from what has come already, or still to come. -/
def State.refreshRow (s : State) (p tid row : Nat) : State :=
  match s.jobTable p tid with
  | none => s
  | some d =>
    let j := s.job p
    if j.hostOf (s.ownerOf p d row) = s.me then
      match s.rowPlace p d row with
      | none => s
      | some (st, t, q) =>
        match s.slot st t with
        | none => s
        | some x =>
          match s.readKeys 7 ((List.range (s.hotBytes p tid)).map (· + x.key st q + x.off)) with
          | (none, s) => s
          | (some v, s) =>
            let vec := v.take x.vecBytes ++ List.replicate (v.length - x.vecBytes) 0
            (j.devices.filter (· != s.me)).foldl (fun s dev => s.sendRow p 9 dev 2 tid row vec) (s.putHot p tid row vec)
    else
      match j.whole 2 tid row (s.hotBytes p tid) with
      | some b => (s.dropPieces p 2 tid row).putHot p tid row b
      | none => s.modJob p (fun j => { j with hotDue := j.hotDue ++ [(tid, row)] })

/-- The hot set of a table replaced (10 R368); sets are kept in TABLE_ID order. -/
def State.setHot (s : State) (p step tid : Nat) (rows : List Nat) : State :=
  s.modJob p (fun j => { j with
    hotSet := j.hotSet.filter (fun e => decide (e.1 < tid)) ++ [(tid, step, rows)] ++ j.hotSet.filter (fun e => decide (tid < e.1))
    hotDue := j.hotDue.filter (fun e => e.1 != tid) })

/-- The cached vectors of the other tables' rows in a section, read from their landing rows: section, table, row, bytes. -/
def State.hotVecs (s : State) (p sec tid : Nat) : List (Nat × Nat × Nat × List Byte) × State :=
  ((s.sectionTables p sec).filter (fun d => tblId d != tid)).foldl (fun a d =>
    (a.2.idxEntries p d 0x30).foldl (fun a e =>
      match a.2.hotLand p sec (tblId d) e.1 with
      | none => a
      | some (x, land) =>
        match a.2.readKeys 7 (seqKeys (x.key sec land) x.recBytes) with
        | (some b, s) => (a.1 ++ [(sec, tblId d, e.1, b)], s)
        | (none, s) => (a.1, s)) a) ([], s)

/-- The same for every section. -/
def State.hotHeld (s : State) (p tid : Nat) : List (Nat × Nat × Nat × List Byte) × State :=
  (s.partSecs p).foldl (fun a sec => let e := a.2.hotVecs p sec tid; (a.1 ++ e.1, e.2)) ([], s)

/-- HOT_REFRESH at its boundary, with the step that the hot set then names: the hot indexes are rebuilt, those of the other tables with the
rows that they have; the other tables' cached vectors go where the indexes have them, the rows named are copied from their owners (assumption
27). -/
def State.hotRefresh (s : State) (p step tid : Nat) (rows : List Nat) : State :=
  let (old, s) := s.hotHeld p tid
  let s := s.setHot p step tid rows
  let s := (s.partSecs p).foldl (fun s sec => (s.sectionTables p sec).foldl (fun s d =>
    s.buildHotIndex p sec d (if tblId d = tid then rows
      else (old.filter (fun e => e.1 == sec && e.2.1 == tblId d)).map (fun e => e.2.2.1))) s) s
  let s := old.foldl (fun s e => s.putHotIn p e.1 e.2.1 e.2.2.1 e.2.2.2) s
  rows.foldl (fun s r => s.refreshRow p tid r) s

/-! ### Replacing a table (10 R375, R376) -/

/-- A table slot of a cluster with a new image: the one it had is the previous image (R375). -/
def State.newImage (s : State) (new c t : Nat) : State :=
  ((s.setFld (CL_TABLE_PREV_DESC c t) (s.fld (CL_TABLE_DESC c t))).setFld (CL_TABLE_PVALID c t) 1).putFld (CL_TABLE_DESC c t) new

/-- The same in every slot of a cluster that holds the table. -/
def State.newImages (s : State) (p tid new c : Nat) : State :=
  (s.tablesOf p c tid).foldl (fun s t => s.newImage new c t) s

/-- The descriptor address at `at_` put into the clusters of a section that hold the table, the old one kept; the new version starts with an
empty hot index (R376). -/
def State.newTable (s : State) (p tid sec at_ : Nat) : State :=
  let s := s.hubSeen 7 p at_ 8
  let new := s.hubNum p at_ 8 / 64
  let s := ((List.range 5).map (· + 5 * sec)).foldl (fun s c => s.newImages p tid new c) s
  match s.tableIn p sec tid with
  | some d => s.delIdx p d 0x30 ((s.idxEntries p d 0x30).map Prod.fst)
  | none => s

/-- The first address of a range that is not mapped, or, for a write, not writable: a range's own start, then 64-byte
units. -/
def State.firstBad (s : State) (p : Nat) (write : Bool) (va n : Nat) : Option Nat :=
  let ok (a : Nat) : Bool := (s.hubTranslate p a).any (fun e => e.2 || !write)
  ((List.range ((va + n + 63) / 64 - va / 64)).map (fun i => if i = 0 then va else va / 64 * 64 + 64 * i)).find? (fun a =>
    decide (a < va + n) && !ok a)

def State.replaceTable (s : State) (p tid addr : Nat) : State × Nat × Nat :=
  let cls := s.partClusters p
  if cls.all (fun c => (s.tablesOf p c tid).isEmpty) then (s, stBadState, 0)
  else if cls.any (fun c => (s.tablesOf p c tid).any (fun t => s.on (CL_TABLE_PVALID c t))) then (s, stTableHeld, 0)
  else if let some a := s.firstBad p false addr (8 * (s.partSecs p).length) then (s, stMemFault, a)
  else
    let s := (s.partSecs p).zipIdx.foldl (fun s e => s.newTable p tid e.1 (addr + 8 * e.2)) s
    (s.modJob p (fun j => { j with
      fullSum := true, hotSet := j.hotSet.filter (fun e => e.1 != tid), hotDue := j.hotDue.filter (fun e => e.1 != tid)
      installed := j.installed ++ [tid] }), stOk, 0)

/-- Previous images freed where no device holds them (R375): bit t of HELD is clear. -/
def State.freeImages (s : State) (p held : Nat) : State :=
  (s.partClusters p).foldl (fun s c => (List.range 64).foldl (fun s t =>
    if s.on (CL_TABLE_PVALID c t) && !bit held t then s.putFld (CL_TABLE_PVALID c t) 0 else s) s) s

/-! ### Commands that apply at a boundary (17 R577) -/

def rowList (s : State) (p addr n : Nat) : Option (List Nat) := (s.hubPeek p addr (8 * n)).map (fun b => numsOf 8 n b)

/-- Whether numbers rise. -/
def rising : List Nat → Bool
  | [] => true
  | [_] => true
  | a :: b :: r => decide (a < b) && rising (b :: r)

/-- The end of a command that reads and writes memory: MEM_UE where an uncorrectable error has fenced its partition (17 R579). -/
def State.endedBy (s : State) (p : Nat) (r : State × Nat × Nat) : State × Nat × Nat :=
  if r.1.partState p = ptFenced ∧ s.partState p ≠ ptFenced then (r.1, stMemUe, 0) else r

/-- PT_SET, JOB_STOP, TABLE_REPLACE, HOT_REFRESH applied; the status and RESULT0. -/
def State.applyCmd (s : State) (c : HostCmd) (p : Nat) : State × Nat × Nat :=
  match cOp c with
  | 0x0203 => (s.putFld (PART_PT_ROOT_ROOT p) (bits (cP c 0) 12 28), stOk, 0)
  | 0x0301 => (s.modJob p (fun j => { j with stopReq := true }), stOk, 0)
  | 0x0500 => s.endedBy p (s.replaceTable p (cP c 0) (cP c 1))
  | 0x0501 => s.endedBy p (
    let s := s.hubSeen 7 p (cP c 1) (8 * cP c 2)
    match rowList s p (cP c 1) (cP c 2) with
    | none => (s, stMemFault, (s.firstBad p false (cP c 1) (8 * cP c 2)).getD (cP c 1))
    | some l =>
      if !(s.jobTables p).any (fun d => tblId d == cP c 0) then (s, stBadState, 0)
      else if !rising l then (s, stBadLength, 0)
      else (s.hotRefresh p (s.stepNum p) (cP c 0) l, stOk, 0))
  | _ => (s, stOk, 0)

/-- A held command applied and answered, where its row has begun; on a partition that one before it has fenced, FENCED (17 R578). -/
def State.applyOne (s : State) (p : Nat) (c : HostCmd) : State :=
  let r := if s.partState p = ptFenced then (s, stFenced, 0) else s.applyCmd c p
  let s := { r.1 with h := { r.1.h with held := r.1.h.held.filter (· != c) } }
  match s.h.started.find? (fun x => x.cmd == c) with
  | none => s
  | some x => s.reply x r.2.1 (if r.2.1 = stBadState then s.partStatus p else 0) r.2.2 0

/-- The commands held for the boundary, in fetch order (17 R578); the refresh of a table of which this boundary installs a new version
waits for the next (10 R376). -/
def State.applyHeld (s : State) (p : Nat) : State :=
  let mine := (s.h.started.map Started.cmd).filter (fun c => cPart c == p && s.h.held.contains c)
  mine.foldl (fun s c => if s.waitsTable c p then s else s.applyOne p c) s

/-! ### The start of a step -/

/-- What of a job belongs to one step. -/
def JobSt.newStep (j : JobSt) (replay : Option (List Late)) : JobSt :=
  { j with
    phase := .idle, running := [], posted := [], window := Option.none, windowShut := false, late := [], replayList := replay
    joined := [], dropped := [], ins := [], stage1 := [], spans := [], gathOut := [], gathIn := [], exchs := [], votes := []
    replies := [], voted := false, apps := [], appliedSent := false, heldIn := [], abortCause := 0, states := [], resolveStep := Option.none, resolved := [] }

/-- A straggler entry (12 R432). -/
def lateOf (w : Nat) : Late := ⟨bits w 0 14, bits w 14 10, bits w 24 2⟩
def lateWord (x : Late) : Nat := x.slot % 2 ^ 14 + x.bucket % 2 ^ 10 * 2 ^ 14 + x.decision % 4 * 2 ^ 24

/-- The straggler list that a replay honours (12 R433, 15 R516). -/
def State.replayOf (s : State) (p : Nat) : Option (List Late) :=
  match (s.job p).restore with
  | some r =>
    match r.target with
    | some t =>
      if s.stepNum p = r.step + 1 ∧ !s.on (STEP_COLL_CFG_ORDER p) then
        some ((numsOf 4 (recAnnex t) (t.drop 128)).map lateOf)
      else none
    | none => none
  | none => none

/-- The table slots of a partition that count loads: stack, table slot. -/
def State.loadSlots (s : State) (p : Nat) : List (Nat × Nat × Slot) :=
  (s.partSecs p).flatMap (fun st => (List.range 64).filterMap (fun t =>
    (s.slot st t).bind (fun x => if s.on (SB_LOAD_EN st t) ∧ x.part = p then some (st, t, x) else none)))

/-- Where the counters and the ring of a table slot lie, and how many bytes they take (10 R371). -/
def State.loadSpan (s : State) (e : Nat × Nat × Slot) : Nat × Nat :=
  (keyStack e.1 (s.fld (SB_LOAD_LOAD_BASE e.1 e.2.1) * 64), roundUp (4 * ((e.2.2.rows + 65535) / 65536)) 64 + 32768)

/-- Load counters and sample rings cleared (10 R371). -/
def State.clearLoads (s : State) (p : Nat) : State :=
  let s := (s.loadSlots p).foldl (fun s e => s.zeroMem (s.loadSpan e).1 (s.loadSpan e).2) s
  { s with b := { s.b with loadN := Tab.drop s.b.loadN (fun k => (s.partSecs p).contains (k / 64)) } }

/-- Load counters and sample rings read, and the rows that are to move picked (10 R371). -/
def State.readLoads (s : State) (p : Nat) : State :=
  let s := (s.loadSlots p).foldl (fun s e => (s.readKeys 7 (seqKeys (s.loadSpan e).1 (s.loadSpan e).2)).2) s
  let r := (if s.on (STEP_CFG_SERVE p) then [] else s.jobTables p).foldl (fun a d =>
    let e := a.2.pickRows p d
    (a.1 ++ e.1.map (fun r => (tblId d, r)), e.2)) (([] : List (Nat × Nat)), s)
  r.2.modJob p (fun j => { j with picked := r.1 })

/-- Load counters, sample rings, prediction counts and table deltas of the last step cleared. -/
def State.clearCounts (s : State) (p : Nat) : State :=
  let s := s.clearLoads p
  let s := { s with b := { s.b with
    tdelta := Tab.put s.b.tdelta 0 p 0, touched := s.b.touched.filter (fun e => e.1 != p), jnlFail := s.b.jnlFail.filter (· != p) } }
  (List.range 64).foldl (fun s l => (s.setFld (STEP_PRED_MISS_PRED_MISS p l) 0).setFld (STEP_PRED_MISS_PRED_AUD p l) 0) s

/-- Verdict, late counts and flags of the step cleared. -/
def State.clearStep (s : State) (p : Nat) : State :=
  let s := ((s.setFld (STEP_VOTE_VALID p) 0).setFld (STEP_VOTE_SKIP p) 0).setFld (STEP_VOTE_LOCAL_NF p) 0
  let s := ((s.setFld (STEP_VOTE_LOSS p) 0).setFld (STEP_LATE_DEFERRED p) 0).setFld (STEP_LATE_DROPPED p) 0
  (s.setFld (NUM_STEP_FLAGS_FLAGS p) 0).clearCounts p

/-- Before a step starts the hub invalidates the translation caches of its clusters (01 R49) and writes every CL_GRAPH_DIR, which
clears their sampler caches (07 R238). -/
def State.dropCaches (s : State) (p : Nat) : State :=
  let cls := s.partClusters p
  let s := s.dropTc cls.contains
  { s with m := { s.m with scache := s.m.scache.filter (fun e => !cls.contains e.1) } }

/-- The step of STEP_NUM starts, unless ledger or journal space is short (R490, 19 R635); what came early for it is taken
(R478). -/
def State.startStep (s : State) (p : Nat) : State :=
  if !s.ledgerRoom p then s.setJstate p jsStopped jcLedger
  else if (s.job p).pounds.any (fun l => !l.fits) then
    (s.setJstate p jsStopped jcJournal).setFld PM_CLAIM_JOURNAL_REFUSED 1
  else
    let early := (s.job p).heldIn
    let s := ((((s.startMoves p).clearStep p).dropCaches p).pin p 0).openJournal p
    let s := (s.modJob p (fun j => j.newStep (s.replayOf p))).setJstate p jsRunning 0
    early.foldl (fun s e => if e.1 = 3 then s.collNow p e.2.2 else s.segIn p e.2.1 e.2.2) s

/-- Whether the device's drain is held back: an absorption goes on (15 R504, R515). -/
def State.drainBlocked (s : State) : Bool := (List.range 8).any (fun p => (s.job p).absorbing)

/-- Between steps: the job waits for its checkpoint's buffers or its drain, idles above the highest step or where it serves (R492),
or goes on. -/
def State.proceed (s : State) (p : Nat) : State :=
  let s := ((s.applyHeldFlds p).applyHeldMem p).settlePounds p
  let draining := s.on HUB_RISK_DRAIN_REQ && !s.on HUB_RISK_DRAINED
  let s := if draining && s.drainBlocked then s.setFld HUB_RISK_DEFERRED 1 else s
  if (s.job p).ckWait.isSome || (draining && !s.drainBlocked) then s.setJstate p jsPaused 0
  else if s.on (STEP_CFG_SERVE p) then s.setJstate p jsIdle 0
  else if (s.job p).runTo ≤ s.stepNum p then s.setJstate p jsIdle 0
  else s.startStep p

/-- Boundary actions from the queued changes on (R477): load counters and rings are read and cleared (10 R371), commands, held writes, the
checkpoint that is due (15 R500), the claims on the pounds (19 R634), stops, the next step.  Where the host stops the job (17 R577) at the
boundary of a loss-scale floor (02 R92), STEP_STATUS names the host's stop (assumption 141); a partition that an uncorrectable error in these
actions fences starts nothing. -/
def State.boundary (s : State) (p : Nat) (cause : Nat) : State :=
  let s := ((s.modJob p (fun j => { j with installed := [] })).readLoads p).clearLoads p
  let s := s.applyHeld p
  let j := s.job p
  let stop := if j.stopReq then jcHost else cause
  let s := ((((s.modJob p (fun j => { j with stopReq := false })).applyHeldFlds p).applyHeldMem p).tryCheckpoint p).settlePounds p
  if s.partState p = ptFenced then s
  else if stop = jcHost then (s.signHead p).setJstate p jsStopped jcHost
  else if stop ≠ 0 then s.setJstate p jsStopped stop
  else s.proceed p

end Sys2Proof.Machine
end

