-- ==== Sys2Proof/Machine/SlotMap.lean ====
section
/-! DEFINITION. The slot map of a job changed between steps (15 R514, R515): shard descriptors (13 R455), locators and slot maps (10
R346, R348), page tables (01 R46, R49), and the snapshots that devices hold (15 R509). -/

namespace Sys2Proof.Machine

/-! ### Places for what a device takes over: free values (assumption 31) -/

/-- A free virtual address, 64-byte aligned. -/
def State.freeAddr (s : State) : Nat × State := let e := s.free 42; (e.1 * 64, e.2)

/-- A free piece of the partition's stacks, of `unit` bytes, as a device physical address (01 R43). -/
def State.freePhys (s : State) (p unit : Nat) : Nat × State :=
  let secs := s.partSecs p
  let (i, s) := s.free 3
  let (a, s) := s.free 36
  (secs.getD (i % secs.length) 0 * 2 ^ 36 + a % (s.stackBytes / unit) * unit, s)

/-- A valid, writable page table entry (01 R46). -/
def ptEntry (leaf : Bool) (phys : Nat) : Nat :=
  1 + b2n leaf * 2 + 4 + bits phys 39 1 * 8 + (if leaf then 0 else bits phys 12 9 * 2 ^ 12) + bits phys 21 18 * 2 ^ 21

/-- The walk of a virtual address from a table on; where an entry is not valid, a table or a page of 2 MiB is put there. -/
def State.mapFrom (s : State) (p va : Nat) : Nat → Nat → Nat → State
  | 0, _, _ => s
  | n + 1, level, table =>
    match s.physKey (table + bits va (48 - 9 * level) 9 * 8) with
    | none => s
    | some k =>
      match s.walkEntry p level (s.rd k 8) with
      | some (.inl next) => s.mapFrom p va n (level + 1) next
      | some (.inr _) => s
      | none =>
        let leaf := level == 3
        let (a, s) := s.freePhys p (if leaf then 2 ^ 21 else 4096)
        let s := match (if leaf then none else s.physKey a) with
          | some t => (s.writeKeys' 7 ((seqKeys t 4096).map (fun x => (x, 0)))).2
          | none => s
        ((s.writeKeys' 7 ((seqKeys k 8).zip (leBytes 8 (ptEntry leaf a)))).2).mapFrom p va n (level + 1) a

/-- Every page of a range mapped (01 R49). -/
def State.mapRange (s : State) (p va n : Nat) : State :=
  let root := s.fld (PART_PT_ROOT_ROOT p) * 4096
  if s.physOk p root 4096 then
    ((List.range ((va + n + 2 ^ 21 - 1) / 2 ^ 21 - va / 2 ^ 21)).map (fun i => va / 2 ^ 21 * 2 ^ 21 + i * 2 ^ 21)).foldl
      (fun s a => s.mapFrom p a 3 1 root) s
  else s

/-- A shard descriptor for an absorbed slot (13 R455), its regions mapped; the weight tensor is that of the bucket's other chunks. -/
def State.freshShard (s : State) (p slot b : Nat) (tid : Nat) : List Byte × State :=
  let n := chunkLen ((s.job p).len b) slot
  let e := (List.range 5).foldl (fun (e : List Byte × State) _ =>
    let a := e.2.freeAddr
    (e.1 ++ leBytes 8 a.1, a.2.mapRange p a.1 (4 * n))) ([], s)
  (e.1 ++ leBytes 4 n ++ leBytes 4 (slot % 2 ^ 14 + b % 2 ^ 10 * 2 ^ 14 + 2 ^ 24) ++ leBytes 4 tid ++ List.replicate 12 0, e.2)

/-! ### A new slot map -/

/-- The shard descriptors of the hosted slots, by slot and bucket. -/
def State.keptShards (s : State) (p : Nat) : List ((Nat × Nat) × List Byte) :=
  ((s.job p).hosted s.me).flatMap (fun slot => (s.job p).bucketIdx.map (fun b => ((slot, b), s.shard p slot b)))

/-- The shard descriptors of one section's slots written in rank order: those kept, and fresh ones. -/
def State.writeShard (s : State) (p : Nat) (kept : List ((Nat × Nat) × List Byte)) (g : Nat) : State :=
  let j := s.job p
  let mine := (j.hosted s.me).filter (fun x => x % 8 == g)
  let tid (b : Nat) : Nat := ((kept.find? (fun k => k.1.2 == b)).map (fun k => shardTid k.2)).getD 0
  mine.zipIdx.foldl (fun s e => j.bucketIdx.foldl (fun s b =>
    let r := match kept.find? (fun k => k.1 == (e.1, b)) with
      | some k => (k.2, s)
      | none => s.freshShard p e.1 b (tid b)
    (r.2.hubWrite 7 p (s.fld (STEP_UPD_SHARD_BASE p g) + (e.2 * 1024 + b) * 64) r.1).2) s)
    (s.setFld (STEP_UPD_SHARD_NSLOT p g) mine.length)

/-- The shard descriptors of the slot map in force: those of slots that stay move to their new ranks. -/
def State.writeShards (s : State) (p : Nat) (kept : List ((Nat × Nat) × List Byte)) : State :=
  (List.range 8).foldl (fun s g => s.writeShard p kept g) s

/-- The addresses that the descriptors of a table hold in a field, each once. -/
def State.descAddrs (s : State) (p tid off : Nat) : List Nat :=
  (((s.partSecs p).flatMap (s.sectionTables p)).filter (fun d => tblId d == tid)).map (fun d => hdF d off 6) |>.eraseDups

/-- The locator of a slot in every table of the job written, in the locator arrays of all its descriptors (10 R346). -/
def State.putLocator (s : State) (p tid slot home arr : Nat) : State :=
  (s.descAddrs p tid 0x18).foldl (fun s a => (s.hubWrite 7 p (a + 16 * slot) (leBytes 8 home ++ leBytes 8 arr)).2) s

/-- A free place of an image: a valid locator, its row a multiple of 65,536. -/
def State.freePlace (s : State) : Nat × State :=
  let (w, s) := s.free 33
  (1 + bits w 0 9 * 2 + bits w 9 24 * 65536 * 2 ^ 16, s)

/-- Home and arrivals locator of an absorbed slot in each table: places of the hub's choice (assumption 31). -/
def State.newLocators (s : State) (p slot : Nat) : State :=
  (s.jobTables p).foldl (fun s d =>
    let (home, s) := s.freePlace
    let (arr, s) := s.freePlace
    s.putLocator p (tblId d) slot home arr) s

/-- The locators of a slot that goes are not valid any more. -/
def State.dropLocators (s : State) (p slot : Nat) : State :=
  (s.jobTables p).foldl (fun s d => s.putLocator p (tblId d) slot 0 0) s

/-- The hosts of some slots written into the slot maps of the tables (10 R345). -/
def State.writeSlotMaps (s : State) (p : Nat) (slots : List Nat) : State :=
  (s.jobTables p).foldl (fun s d => (s.descAddrs p (tblId d) 0x38).foldl (fun s a =>
    slots.foldl (fun s x => (s.hubWrite 7 p (a + 2 * x) (leBytes 2 ((s.job p).hostOf x))).2) s) s) s

/-- A slot map in force: descriptors, locators, slot maps and page tables follow it; what is held of slots that go is
discarded. -/
def State.setMap (s : State) (p : Nat) (map : List Nat) : State :=
  let j := s.job p
  let old := j.hosted s.me
  let kept := s.keptShards p
  let s := s.modJob p (fun j => { j with slots := map })
  let new := (s.job p).hosted s.me
  let s := s.writeShards p kept
  let s := (old.filter (fun x => !new.contains x)).foldl (fun s x => s.dropLocators p x) s
  let s := (new.filter (fun x => !old.contains x)).foldl (fun s x => s.newLocators p x) s
  let s := s.writeSlotMaps p ((List.range 16384).filter (fun x => map.getD x 0 != j.slots.getD x 0))
  s.modJob p (fun j => { j with held := j.held.filter (fun h => new.contains h.slot) })

/-! ### Snapshots held for other devices (15 R509 to R511) -/

/-- The bytes of a part from its segments, once they are whole. -/
def SnapPart.whole (x : SnapPart) : Option (List Byte) :=
  if x.last then
    let l := (List.range x.segs.length).map (fun k => x.segs.find? (fun e => e.1 == 984 * k))
    if l.all Option.isSome then
      let b := l.flatMap (fun e => (e.map Prod.snd).getD [])
      if b.length = 128 + ptLen (b.take 128) then some b else none
    else none
  else none

/-- What is held of the parts, segment by segment. -/
def snapData (l : List SnapPart) : List Byte := l.flatMap (fun x => x.segs.flatMap Prod.snd)

/-- Whether the job part of a drainer and every part below it have been acknowledged: the snapshot is complete. -/
def snapDone (l : List SnapPart) (drainer : Nat) : Bool :=
  let mine := l.filter (fun x => x.drainer == drainer)
  mine.any (fun x => x.acked && ptKind ((x.whole.getD []).take 128) == 1
    && (List.range x.part).all (fun k => mine.any (fun y => y.part == k && y.acked)))

/-- How many leading bytes two lists share. -/
def sameLen : List Byte → List Byte → Nat
  | a :: l, b :: r => if a = b then sameLen l r + 1 else 0
  | _, _ => 0

/-- HUB_SNAP: the snapshot whose first part came last of those that are held. -/
def State.showSnap (s : State) : State :=
  match ((List.range 8).flatMap (fun p => (s.job p).snaps.map (fun x => (p, x.drainer)))).getLast? with
  | none => (s.setFld HUB_SNAP_HOLDING 0).setFld HUB_SNAP_COMPLETE 0
  | some e => ((s.setFld HUB_SNAP_HOLDING 1).setFld HUB_SNAP_DEVICE e.2).setFld HUB_SNAP_COMPLETE
      (b2n (snapDone (s.job e.1).snaps e.2))

/-- The parts held for a partition's job replaced: the reserve holds their segments one after the other from HUB_SNAP_CFG.BASE on
(assumption 100). -/
def State.setSnaps (s : State) (p : Nat) (l : List SnapPart) : State :=
  let old := snapData (s.job p).snaps
  let new := snapData l
  let n := sameLen old new
  let s := s.modJob p (fun j => { j with snaps := l })
  ((s.hubWrite 7 p (s.fld (HUB_SNAP_CFG_BASE p) + n) (new.drop n)).2).showSnap

/-- What is held of a drainer discarded. -/
def State.forgetSnap (s : State) (p dev : Nat) : State :=
  s.setSnaps p ((s.job p).snaps.filter (fun x => x.drainer != dev))

/-- The end of an absorption: the snapshots that were held for it go (R504, R515). -/
def State.endAbsorb (s : State) (p : Nat) : State :=
  if (s.job p).absorbing then
    let s := s.setSnaps p ((s.job p).snaps.filter (fun x => !(s.job p).lost.contains x.drainer))
    s.modJob p (fun j => { j with absorbing := false, oldSlots := [], incoming := [], toLoad := [] })
  else s

/-- An absorption abandoned: what was absorbed is discarded, the slot map of before the first loss holds again (R515). -/
def State.dropAbsorb (s : State) (p : Nat) : State :=
  if (s.job p).absorbing then
    ((s.setMap p (s.job p).oldSlots).modJob p (fun j => { j with restore := none })).endAbsorb p
  else s

end Sys2Proof.Machine
end

