-- ==== Sys2Proof/Machine/Steps.lean ====
section
/-! DEFINITION. Training steps (14): phases, the vote (12 R425 to R428), APPLIED, COMMIT, and what happens when COMMIT does not
come. -/

namespace Sys2Proof.Machine

/-! ### Step messages (R472, R474, R476, 12 R425) -/

def msgHead (step slot : Nat) (nf : Bool) (form msg : Nat) (skip : Bool) (nstrag : Nat) : List Byte :=
  leBytes 8 step ++ leBytes 8 (slot % 2 ^ 14 + b2n nf * 2 ^ 14 + form % 4 * 2 ^ 15 + msg % 128 * 2 ^ 17 + b2n skip * 2 ^ 24
    + nstrag % 2 ^ 17 * 2 ^ 32)

def mWord (d : List Byte) : Nat := leNat ((d.drop 8).take 8)
def mStep (d : List Byte) : Nat := leNat (d.take 8)
def mSlot (d : List Byte) : Nat := bits (mWord d) 0 14
def mNf (d : List Byte) : Bool := bit (mWord d) 14
def mForm (d : List Byte) : Nat := bits (mWord d) 15 2
def mMsg (d : List Byte) : Nat := bits (mWord d) 17 7
def mSkip (d : List Byte) : Bool := bit (mWord d) 24
def mStrag (d : List Byte) : Nat := bits (mWord d) 32 17

/-- The kinds of message, one for each row. -/
inductive MKind where
  | vote | groupVote | verdict | applied | groupApplied | commit | rollback | abort | resolve | state | bad
deriving DecidableEq, Repr

def msgKind (d : List Byte) : MKind :=
  if d.length < 16 ∨ bits (mWord d) 49 15 ≠ 0 ∨ bits (mWord d) 25 7 ≠ 0 then .bad
  else
    match mMsg d, mForm d with
    | 0, 0 => if mSkip d || mStrag d != 0 then .bad else .vote
    | 0, 1 => if mSkip d || mStrag d != 0 then .bad else .groupVote
    | 0, 2 => if mSkip d || mStrag d != 0 then .bad else .verdict
    | 1, 0 => .applied
    | 1, 1 => .groupApplied
    | 2, 0 => .commit
    | 3, 0 => .rollback
    | 4, 0 => .abort
    | 5, 0 => .resolve
    | 6, 0 => .state
    | _, _ => .bad

/-- Bytes of a message without straggler entries. -/
def msgBase : MKind → Nat
  | .applied | .groupApplied => 0x280
  | .commit => 0xC0
  | .resolve => 16
  | _ => 24

/-- Bytes of a message with all that follows it (R472, R481); STATE carries the COMMIT payload from 0x010 on. -/
def msgLen (d : List Byte) : Nat :=
  match msgKind d with
  | .bad => 0
  | .state => if bit (wordAt d 0x10) 0 then 24 + 0xB0 + 4 * recAnnex (d.drop 24) else 24
  | .applied => 0x280 + 4 * mStrag d
  | .groupApplied => 0x280 + 4 * mStrag d
  | .commit => 0xC0 + 4 * mStrag d
  | k => msgBase k

/-- Bytes of a message in one CONTROL frame: as many as the four credits of a partition's class 0 let go at once (11 R388, R402;
assumption 144). -/
def msgPiece : Nat := 208

/-- A frame that goes on with a message: STEP, then the message's leading word with bit 25 set and the bytes' place, in 4-byte
units, above it (11 R400, assumption 144). -/
def contWord (w off : Nat) : Nat := w % 2 ^ 25 + 2 ^ 25 + off / 4 * 2 ^ 32
def isCont (d : List Byte) : Bool := bits (mWord d) 25 7 == 1
def contOff (d : List Byte) : Nat := if isCont d then bits (mWord d) 32 32 * 4 else 0

/-- The frames that carry `n` bytes of a message from an offset. -/
def contFrames (d : List Byte) (off n : Nat) : List (List Byte) :=
  (pieces 192 ((d.drop off).take n)).zipIdx.map (fun e => d.take 8 ++ leBytes 8 (contWord (mWord d) (off + 192 * e.2)) ++ e.1)

/-- The CONTROL frames of a message, its entries in frames of their own (R472). -/
def msgFrames (d : List Byte) : List (List Byte) :=
  let n := min d.length (if msgKind d = .state then 24 + 0xB0 else msgBase (msgKind d))
  d.take (min n msgPiece) :: contFrames d msgPiece (n - msgPiece) ++ contFrames d n (d.length - n)

/-- A message sent. -/
def State.sendMsg (s : State) (p dst : Nat) (d : List Byte) : State :=
  if dst = s.me then { s with fab := { s.fab with own := s.fab.own ++ [(p, 2, d)] } }
  else (msgFrames d).foldl (fun s b => s.sendPart p 0 dst 2 b) s

/-- The kind of message that a frame belongs to. -/
def frameKind (d : List Byte) : MKind :=
  if isCont d then msgKind (d.take 8 ++ leBytes 8 (mWord d % 2 ^ 25)) else msgKind d

/-- Whether pieces are those of the message that a frame belongs to. -/
def MsgPieces.of (src : Nat) (d : List Byte) (e : MsgPieces) : Bool :=
  e.src == src && e.step == mStep d && e.word == mWord d % 2 ^ 25

/-- The places and bytes of a message that have come, with a frame just in. -/
def State.partOf (s : State) (p src : Nat) (d : List Byte) : List (Nat × List Byte) :=
  let old := (((s.job p).parts.find? (MsgPieces.of src d)).map MsgPieces.segs).getD []
  old.filter (fun e => e.1 != contOff d) ++ [(contOff d, if isCont d then d.drop 16 else d)]

/-- A message, once all of it has come. -/
def wholeMsg (segs : List (Nat × List Byte)) : Option (List Byte) :=
  (segs.find? (fun e => e.1 == 0)).bind (fun e => joinPieces segs (max e.2.length (msgLen e.2)) (segs.length + 1) 0)

/-- A frame of a message: kept, at its place in the message, until the message is whole (11 R400). -/
def State.msgIn (s : State) (p src : Nat) (d : List Byte) (g : State → Nat → Nat → List Byte → State) : State :=
  let segs := s.partOf p src d
  let s := s.modJob p (fun j => { j with parts := j.parts.filter (fun e => !e.of src d) })
  match wholeMsg segs with
  | none => s.modJob p (fun j => { j with parts := j.parts ++ [⟨src, mStep d, mWord d % 2 ^ 25, segs⟩] })
  | some b => g s p src b

/-- A row of a step message: partition, source, message. -/
def msgRow (k : MKind) (via : Via) (g : State → Nat → Nat → List Byte → State) (s : State) : Out :=
  unlessStopped s (
    match via with
    | .own =>
      match s.fab.own.find? (fun e => e.2.1 == 2 && msgKind e.2.2 == k) with
      | none => .next s
      | some e => .next (g { s with fab := { s.fab with own := dropFirst (· == e) s.fab.own } } e.1 s.me e.2.2)
    | .lambda lam frame =>
      receivePart 2 lam frame
        (fun _ _ d => frameKind d == k || frameKind d == .bad)
        (fun _ _ d => frameKind d == k)
        (fun s p d => s.msgIn p (hSrc frame) d g) s)

/-! ### Who speaks to whom (12 R425, 14 R475, R476) -/

def JobSt.groupHost (j : JobSt) (slot : Nat) : Nat := j.hostOf (slot / 128 * 128)
def JobSt.groupHosts (j : JobSt) : List Nat := ((List.range 128).map (fun sr => j.hostOf (sr * 128))).eraseDups

/-- The devices to which a group host passes on what the root sent it: each device once, by its lowest slot. -/
def JobSt.relays (j : JobSt) (me : Nat) : List Nat :=
  if j.groupHosts.contains me then
    j.devices.filter (fun d => !j.groupHosts.contains d && j.groupHost ((j.slots.findIdx? (· == d)).getD 0) == me)
  else []

def State.relay (s : State) (p : Nat) (d : List Byte) : State :=
  ((s.job p).relays s.me).foldl (fun s dev => s.sendMsg p dev d) s

/-- The distinct devices that host a slot of the groups of a group host: those to which it relays COMMIT (R476). -/
def JobSt.members (j : JobSt) (me : Nat) : List Nat :=
  ((List.range 16384).filter (fun slot => j.groupHost slot == me)).map j.hostOf |>.eraseDups.filter
    (fun d => d != me && !j.lost.contains d)

def State.relayCommit (s : State) (p : Nat) (d : List Byte) : State :=
  ((s.job p).members s.me).foldl (fun s dev => s.sendMsg p dev d) s

def State.toHosts (s : State) (p : Nat) (d : List Byte) : State :=
  (s.job p).groupHosts.foldl (fun s dev => s.sendMsg p dev d) s

/-! ### Phases (R466 to R469) -/

def nextPhase (n m : Nat) : Phase → Phase
  | .idle => if n = 0 ∨ m = 0 then .reduce else .forward 0 0
  | .forward k i =>
    if i + 1 < n then .forward k (i + 1) else if k + 1 < m then .forward (k + 1) 0 else .backward k 0
  | .backward k i =>
    if i + 1 < n then .backward k (i + 1) else if k = 0 then .reduce else .backward (k - 1) 0
  | .reduce => .reduce
  | .committing => .committing

/-- A task of the plan launched for a slot (R468): STEP, VSLOT and ARG7 filled in.  A core that runs a task refuses the
descriptor (03 R117). -/
def State.launchTask (s : State) (p slot arg7 core addr : Nat) : State :=
  if s.taskRuns core then s.refuseLoad core 0x100
  else
  let s := s.hubSeen 7 p addr 216
  let d := (s.hubPeek p addr 216).getD []
  let d := putAt (putAt (putAt d 6 (leBytes 2 slot)) 0x10 (leBytes 8 (s.stepNum p))) 0x50 (leBytes 8 arg7)
  let s := { s with core := { s.core with window := s.core.window.wrBytes (256 * core) d } }
  s.launch core

/-- The task set of a phase (0 forward, 1 backward, 2 serving) launched for a slot. -/
def State.launchSet (s : State) (p phase slot m : Nat) : State :=
  let ts := (s.job p).tmpls.filter (fun t => t.2.1 == phase)
  let s := ts.foldl (fun s t => s.launchTask p slot (m % 2 ^ 16 + phase % 2 * 2 ^ 16) t.1 t.2.2) s
  s.modJob p (fun j => { j with running := ts.map Prod.fst })

/-- The gradient of the loss multiplied by 2^E when the backward pass of a micro-batch begins, while loss scaling is enabled; only the
exponent changes (02 R89, assumption 30).  That the gradient is one FP32 element for each slot and micro-batch, and that the flags of this
multiplication are kept nowhere, is the model's choice (assumption 170). -/
def State.scaleLoss (s : State) (p slot m : Nat) : State :=
  if s.on (NUM_LS_CTRL_EN p) then
    let a := Config.lossGradient p slot m
    match s.hubRead 7 p a 4 with
    | (none, s) => s
    | (some d, s) =>
      (s.hubWrite 7 p a (leBytes 4 (encodeRes fmtFP32 (scaleVal (readNum fmtFP32 (leNat d)).1 (s.scaleE p)) false).v)).2
  else s

def State.enterPhase (s : State) (p : Nat) (ph : Phase) : State :=
  let hosted := (s.job p).hosted s.me
  let s := s.modJob p (fun j => { j with phase := ph, running := [] })
  match ph with
  | .forward m i => s.launchSet p 0 (hosted.getD i 0) m
  | .backward m i => (s.scaleLoss p (hosted.getD i 0) m).launchSet p 1 (hosted.getD i 0) m
  | _ => s

/-- PHASE_START: the next task set starts once every task of the one before has ended; a step's first waits for the
hot rows of a refresh (R467, 10 R368). -/
def execPhaseStart (p : Fin 8) (s : State) : Out :=
  unlessStopped s (
    let j := s.job p
    let waits := match j.phase with
      | .reduce => true
      | .committing => true
      | _ => false
    if !s.stepping p || s.on (STEP_CFG_SERVE p) || waits || !j.running.all (fun c => s.taskState c == tkEnded)
        || !j.hotDue.isEmpty then .next s
    else .next (s.enterPhase p (nextPhase (j.hosted s.me).length (s.fld (STEP_CFG_MICRO p)) j.phase)))

/-! ### The vote (12 R424 to R428) -/

/-- Whether a device may vote (R425). -/
def State.voteReady (s : State) (p : Nat) : Bool :=
  let j := s.job p
  s.stepping p && j.phase == .reduce && !j.voted && !(s.on (STEP_VOTE_VALID p)) && j.abortCause == 0 &&
    (j.hosted s.me).all (fun c => j.bucketIdx.all (fun b => s.chunkReduced p b c)) &&
    !s.b.cmds.any (fun x => x.hdr.op == 3 && s.corePart x.core == some p)

/-- The loss cell of a micro-batch as the hub reads it; of one that cannot be read the value is free. -/
def State.lossCell (s : State) (p slot m : Nat) : Nat × State :=
  match s.hubRead 7 p (Config.lossCell p slot m) 4 with
  | (some d, s) => (leNat d, s)
  | (none, s) => s.free 32

/-- The slot loss: the sum of the slot's M cells in increasing m, in FP32, rounded nearest even (R470, assumption 30). -/
def State.slotLoss (s : State) (p slot : Nat) : Nat × State :=
  (List.range (s.fld (STEP_CFG_MICRO p) - 1)).foldl (fun r i =>
    let (x, s) := r.2.lossCell p slot (i + 1)
    ((elAdd .fp32 r.1 x).v, s)) (s.lossCell p slot 0)

/-- VOTE_SEND: a vote of each hosted slot with its slot loss (R425, R470). -/
def execVoteSend (p : Fin 8) (s : State) : Out :=
  unlessStopped s (
    if s.voteReady p then
      let j := s.job p
      let nf := s.on (STEP_VOTE_LOCAL_NF p)
      let s := (j.hosted s.me).foldl (fun s slot =>
        let (x, s) := s.slotLoss p slot
        s.sendMsg p (j.groupHost slot) (msgHead (s.stepNum p) slot nf 0 0 false 0 ++ leBytes 8 (widen fmtFP32 fmtXA x).v)) s
      .next (s.modJob p (fun j => { j with voted := true }))
    else .next s)

/-- The votes of a form, by position: NF and loss. -/
def JobSt.voteAt (j : JobSt) (form slot : Nat) : Option (Bool × Nat) :=
  (j.votes.find? (fun v => v.1 == form && v.2.1 == slot)).map (fun v => (v.2.2.1, v.2.2.2))

/-- 128 votes combined in the tree of R200. -/
def combineVotes (l : List (Option (Bool × Nat))) : Option (Bool × Nat) :=
  if l.all Option.isSome then
    let vs := l.filterMap id
    some (vs.any Prod.fst, ((treeFold (addPair fmtXA) 7 (vs.map (fun v => some v.2))).1).getD 0)
  else none

def State.noteVote (s : State) (p form : Nat) (d : List Byte) : State :=
  if ((s.job p).voteAt form (mSlot d)).isSome then s
  else s.modJob p (fun j => { j with votes := j.votes ++ [(form, mSlot d, mNf d, leNat ((d.drop 16).take 8))] })

/-- Whether a message belongs to the step that the device works on. -/
def State.nowStep (s : State) (p : Nat) (d : List Byte) : Bool :=
  s.partState p == ptStarted && mStep d == s.stepNum p && (s.jstate p == jsRunning || s.jstate p == jsApplied)

/-- VOTE: the votes of a group combine at its host (R425). -/
def execVote (via : Via) (s : State) : Out :=
  msgRow .vote via (fun s p _ d =>
    let j := s.job p
    if !s.nowStep p d || j.groupHost (mSlot d) != s.me then s
    else
      let s := s.noteVote p 0 d
      let g := mSlot d / 128 * 128
      match combineVotes ((List.range 128).map (fun i => (s.job p).voteAt 0 (g + i))) with
      | none => s
      | some (nf, loss) =>
        if (j.voteAt 0 (mSlot d)).isSome then s
        else s.sendMsg p (j.hostOf 0) (msgHead (s.stepNum p) g nf 1 0 false 0 ++ leBytes 8 loss)) s

/-- GROUP_VOTE: at the host of slot 0 the group votes give the verdict (R425). -/
def execGroupVote (via : Via) (s : State) : Out :=
  msgRow .groupVote via (fun s p _ d =>
    let j := s.job p
    if !s.nowStep p d || j.hostOf 0 != s.me || mSlot d % 128 != 0 || (j.voteAt 1 (mSlot d)).isSome then s
    else
      let s := s.noteVote p 1 d
      match combineVotes ((List.range 128).map (fun i => (s.job p).voteAt 1 (128 * i))) with
      | none => s
      | some (nf, loss) =>
        let l := convertTo .fp32 .rne 0 (readNum fmtXA loss).1
        s.toHosts p (msgHead (s.stepNum p) 0 nf 2 0 false 0 ++ leBytes 8 l.v)) s

/-- The straggler decisions of a skipped step (R428). -/
def State.skipLate (s : State) (p : Nat) : State :=
  let j := s.job p
  let d := (j.late.filter (fun x => x.decision != 1)).length
  let s := (s.setFld (STEP_LATE_DEFERRED p) (s.fld (STEP_LATE_DEFERRED p) - d)).bump (STEP_LATE_DROPPED p) (d + j.joined.length)
  s.modJob p (fun j => { j with late := j.late.map (fun x => { x with decision := 1 }), dropped := j.dropped ++ j.joined })

/-- VERDICT: FINITE starts the all-gathers, SKIP restores from the journal; group hosts pass it on (R426). -/
def execVerdict (via : Via) (s : State) : Out :=
  msgRow .verdict via (fun s p _ d =>
    if !s.nowStep p d || s.on (STEP_VOTE_VALID p) then s
    else
      let s := s.relay p d
      let s := ((s.setFld (STEP_VOTE_VALID p) 1).setFld (STEP_VOTE_SKIP p) (b2n (mNf d))).setFld (STEP_VOTE_LOSS p)
        (wordAt d 0x10)
      if mNf d then
        let s := (s.restoreJournal p).skipLate p
        { s.sendReplies p with b := { s.b with tdelta := Tab.put s.b.tdelta 0 p 0 } }
      else (s.sendReplies p).startGathers p) s

/-! ### APPLIED (R473 to R475, R479) -/

/-- Straggler entries sorted by slot and bucket (12 R432). -/
def sortLate (l : List Late) : List Nat :=
  (l.foldl (fun t x => Tab.put t 0 (x.slot * 1024 + x.bucket) (lateWord x + 1)) []).map (fun e => e.2 - 1)

/-- Everything that APPLIED stands for is done (R473). -/
def State.appliedReady (s : State) (p : Nat) : Bool :=
  let j := s.job p
  s.stepping p && j.phase == .reduce && !j.appliedSent && j.abortCause == 0 && s.on (STEP_VOTE_VALID p) &&
    (s.on (STEP_VOTE_SKIP p) ||
      ((j.hosted s.me).all (fun c => j.bucketIdx.all (fun b => (s.gatherWidth p b c).isNone || s.chunkUpdated p b c))
        && s.gathersIn p))

/-- Why a device sends ABORT in place of APPLIED (R479): no journal space, a task that faulted; 0 for none. -/
def State.abortWhy (s : State) (p : Nat) : Nat :=
  if s.b.jnlFail.contains p then jcJournal
  else if (s.job p).running.any (fun c => s.taskState c == tkFaulted) then jcTask
  else 0

/-- The APPLIED of a hosted slot (R474). -/
def State.appliedMsg (s : State) (p slot : Nat) (lowest : Bool) : List Byte :=
  let j := s.job p
  let late := sortLate (j.late.filter (fun x => x.slot == slot))
  let sum := if !lowest then 0 else if j.fullSum then s.fullTableSum p else Tab.get s.b.tdelta 0 p
  msgHead (s.stepNum p) slot false 0 1 (s.on (STEP_VOTE_SKIP p)) late.length ++ s.batchDigest p slot ++ s.denseDigest p slot
    ++ leBytes 32 sum ++ leBytes 8 (s.heldImages p) ++ leBytes 8 0
    ++ (List.range 64).flatMap (fun l =>
      leBytes 4 (if lowest then s.fld (STEP_PRED_MISS_PRED_MISS p l) else 0)
        ++ leBytes 4 (if lowest then s.fld (STEP_PRED_MISS_PRED_AUD p l) else 0))
    ++ late.flatMap (leBytes 4)

/-- A partition that is fenced, with its job: every other device of the job is told, by an ABORT with the cause FENCED; bit 8 says
that the APPLIED of the step has gone (R479, R480, 15 R496; assumption 155).  The head is signed (R491). -/
def State.tellFenced (s : State) (p : Nat) : State :=
  let j := s.job p
  let d := msgHead (s.stepNum p) 0 false 0 4 false 0 ++ leBytes 8 (jcFenced + b2n j.appliedSent * 256)
  let s := (j.devices.filter (fun dev => dev != s.me && !j.lost.contains dev)).foldl (fun s dev => s.sendMsg p dev d) s
  (s.signHead p).modJob p (fun j => { j with abortCause := jcFenced })

/-- The same, once: of a job that this device works for (15 R496). -/
def State.tellOnce (s : State) (p : Nat) : State :=
  if (s.job p).slots.contains s.me && (s.job p).abortCause != jcFenced then s.tellFenced p else s

/-- APPLIED_SEND: one APPLIED of each hosted slot, or an ABORT (R473, R478, R479). -/
def execAppliedSend (p : Fin 8) (s : State) : Out :=
  unlessStopped s (
    let j := s.job p
    let why := s.abortWhy p
    if s.partState p = ptFenced then
      .next (s.tellOnce p)
    else if s.stepping p && why != 0 then
      if j.abortCause != 0 then .next s
      else
        .next ((s.sendMsg p j.coord (msgHead (s.stepNum p) 0 false 0 4 false 0 ++ leBytes 8 why)).modJob p (fun j =>
          { j with abortCause := why }))
    else if s.appliedReady p && !(s.deltas p).isEmpty then .next (s.sendDeltas p)
    else if s.appliedReady p && s.movesSettled p then
      let hosted := j.hosted s.me
      let s := hosted.zipIdx.foldl (fun s e => s.sendMsg p (j.groupHost e.1) (s.appliedMsg p e.1 (e.2 == 0))) s
      .next ((s.modJob p (fun j => { j with appliedSent := true, phase := .committing })).setJstate p jsApplied 0)
    else .next s)

def aField (d : List Byte) (off n : Nat) : Nat := leNat ((d.drop off).take n)

def JobSt.appAt (j : JobSt) (form slot : Nat) : Option (List Byte) :=
  (j.apps.find? (fun a => a.1 == form && a.2.1 == slot)).map (fun a => a.2.2)

/-- 128 APPLIEDs, in slot order, made one: Merkle subroots, sums, ORs, merged entries (R475), 65,536 at most (12 R433). -/
def mergeApplied (step slot : Nat) (l : List (List Byte)) : List Byte :=
  let root (off : Nat) : List Byte := ofNats (merkle 7 (l.map (fun d => toNats ((d.drop off).take 32))))
  let late := (sortLate (l.flatMap (fun d => (numsOf 4 (mStrag d) (d.drop 0x280)).map lateOf))).take 65536
  msgHead step slot false 1 1 (l.any mSkip) late.length ++ root 0x10 ++ root 0x30
    ++ leBytes 32 ((l.map (fun d => aField d 0x50 32)).foldl (· + ·) 0)
    ++ leBytes 8 ((l.map (fun d => aField d 0x70 8)).foldl (· ||| ·) 0) ++ leBytes 8 0
    ++ (List.range 128).flatMap (fun k => leBytes 4 ((l.map (fun d => aField d (0x80 + 4 * k) 4)).foldl (· + ·) 0))
    ++ late.flatMap (leBytes 4)

/-- A COMMIT or APPLIED belongs to the step that the device is in, also while it holds (R480). -/
def State.openStep (s : State) (p : Nat) (d : List Byte) : Bool :=
  s.partState p == ptStarted && mStep d == s.stepNum p
    && (s.jstate p == jsRunning || s.jstate p == jsApplied || s.jstate p == jsHold)

/-- APPLIED: the group's 128 make one at the group host (R475). -/
def execApplied (via : Via) (s : State) : Out :=
  msgRow .applied via (fun s p _ d =>
    let j := s.job p
    if !s.nowStep p d || j.groupHost (mSlot d) != s.me || (j.appAt 0 (mSlot d)).isSome then s
    else
      let s := s.modJob p (fun j => { j with apps := j.apps ++ [(0, mSlot d, d)] })
      let g := mSlot d / 128 * 128
      let l := (List.range 128).map (fun i => (s.job p).appAt 0 (g + i))
      if l.all Option.isSome then s.sendMsg p j.coord (mergeApplied (s.stepNum p) g (l.filterMap id)) else s) s

/-! ### The record and COMMIT (R476, R485) -/

/-- The layers that turn dense, from the job-wide sums of the groups' counts, which are whole integers (06 R232, R233). -/
def State.denseNew (s : State) (p : Nat) (groups : List (List Byte)) : Nat :=
  let total (off : Nat) : Nat := (groups.map (fun d => aField d off 4)).foldl (· + ·) 0
  ((List.range 64).map (fun l =>
    let miss := total (0x80 + 8 * l)
    let aud := total (0x84 + 8 * l)
    if !s.on (STEP_PRED_CFG_DENSE p l) && decide (s.fld (STEP_PRED_CFG_MISS_LIMIT p l) * aud < miss * 65536) then 2 ^ l
    else 0)).foldl (· + ·) 0

/-- Whether the record shows a deferral: a late pair deferred, or, in a fixed-order job, a deferral of the step before that joined
this one.  `late` is what every device has declared late (R484). -/
def State.recDeferred (s : State) (p : Nat) (late : List Late) : Bool :=
  if s.on (STEP_COLL_CFG_ORDER p) then late.any (fun x => x.decision != 1)
  else
    let prev := (s.job p).prevLate.map lateOf
    late.any (fun x => x.decision != 1)
      || prev.any (fun x => x.decision != 1 && !late.any (fun y => y.slot == x.slot && y.bucket == x.bucket))

/-- COMMIT from the 128 group APPLIEDs. -/
def State.commitMsg (s : State) (p : Nat) (l : List (List Byte)) : List Byte :=
  let d := mergeApplied (s.stepNum p) 0 l
  let j := s.job p
  let fixed := !s.on (STEP_COLL_CFG_ORDER p)
  let all := numsOf 4 (mStrag d) (d.drop 0x280)
  let late := if fixed then all else []
  let tsum := if j.fullSum then aField d 0x50 32 else (j.tsum + aField d 0x50 32) % 2 ^ 256
  let dn := s.denseNew p l
  let weight := shaBytes ((d.drop 0x30).take 32 ++ leBytes 32 tsum)
  let fl := b2n (mSkip d) + b2n (s.recDeferred p (all.map lateOf)) * 2 + b2n (dn != 0) * 4 + b2n fixed * 8
    + b2n j.firstTrusted * 16 + b2n j.coFed * 32
  msgHead (s.stepNum p) 0 false 0 2 false late.length
    ++ recordBytes (s.stepNum p) (s.fld (STEP_JOB_ID_JOB_ID p)) ((d.drop 0x10).take 32) (s.jobSeed p) weight
      (s.fld (STEP_VOTE_LOSS p)) fl late.length j.head
    ++ leBytes 8 dn ++ leBytes 8 (aField d 0x70 8) ++ leBytes 32 tsum ++ late.flatMap (leBytes 4)

/-- GROUP_APPLIED: the coordinator commits after all 128 (R476). -/
def execGroupApplied (via : Via) (s : State) : Out :=
  msgRow .groupApplied via (fun s p _ d =>
    let j := s.job p
    if !s.nowStep p d || j.coord != s.me || mSlot d % 128 != 0 || (j.appAt 1 (mSlot d)).isSome then s
    else
      let s := s.modJob p (fun j => { j with apps := j.apps ++ [(1, mSlot d, d)] })
      let l := (List.range 128).map (fun i => (s.job p).appAt 1 (128 * i))
      if l.all Option.isSome then s.toHosts p (s.commitMsg p (l.filterMap id)) else s) s

/-! ### COMMIT processed (R477) -/

/-- E and the counts of 02 R90 and R92; the cause of a stop. -/
def State.scaleStep (s : State) (p : Nat) (skip : Bool) : State × Nat :=
  if !s.on (NUM_LS_CTRL_EN p) then (s, 0)
  else
    let e := s.scaleE p
    let lo := signed 8 (s.fld (NUM_LS_CTRL_MIN_E p))
    let hi := signed 8 (s.fld (NUM_LS_CTRL_MAX_E p))
    if skip then
      let run := if e ≤ lo then s.fld (NUM_LS_STATE_FLOOR_RUN p) + 1 else 0
      let s := (s.setFld (NUM_LS_STATE_E p) (wrapInt 8 (if lo < e then e - 1 else e))).setFld (NUM_LS_STATE_COUNT p) 0
      (s.setFld (NUM_LS_STATE_FLOOR_RUN p) (min run 255),
        if s.fld (NUM_LS_CTRL_PATIENCE p) ≤ run then jcLossFloor else 0)
    else
      let n := s.fld (NUM_LS_STATE_COUNT p) + 1
      let s := s.setFld (NUM_LS_STATE_FLOOR_RUN p) 0
      if s.fld (NUM_LS_CTRL_GROWTH p) ≤ n then
        ((s.setFld (NUM_LS_STATE_E p) (wrapInt 8 (if e < hi then e + 1 else e))).setFld (NUM_LS_STATE_COUNT p) 0, 0)
      else (s.setFld (NUM_LS_STATE_COUNT p) n, 0)

/-- T of every group that is not frozen (13 R449). -/
def State.countT (s : State) (p : Nat) : State :=
  (List.range (s.fld (STEP_UPD_CFG_NGROUP p))).foldl (fun s n =>
    let g := s.groupRec p n
    if g.frozen then s
    else (s.hubWrite 7 p (s.fld (STEP_UPD_TABLES_GROUPS p) + 128 * n + 0x10) (leBytes 8 (g.t + 1))).2) s

/-- The held deferrals that outlive a committed step (12 R428, R430, R431). -/
def State.keepHeld (s : State) (p : Nat) (skip : Bool) : State :=
  let n := s.stepNum p
  s.modJob p (fun j => { j with held := j.held.filter (fun h =>
    if h.made = n then !skip else !(j.joined.contains (h.slot, h.bucket)) && !(j.dropped.contains (h.slot, h.bucket))) })

/-- The end of a restore: STEP_RESTORE, and the reply of the command that asked for it (15 R516, 17 R577). -/
def State.endRestore (s : State) (p st result status : Nat) : State :=
  let absorb := ((s.job p).restore.map Restore.absorb).getD false
  let s := (s.setFld (STEP_RESTORE_STATE p) st).setFld (STEP_RESTORE_RESULT p) result
  let s := s.modJob p (fun j => { j with restore := none })
  match s.h.started.find? (fun x => (cOp x.cmd == if absorb then 0x0603 else 0x0601) && cPart x.cmd == p) with
  | none => s
  | some x => s.reply x status (if absorb && status != stRestore then 0 else result) 0 0

/-- COMMIT carried out in order (R477). -/
def State.commitStep (s : State) (p : Nat) (pay : List Byte) : State :=
  let body := pay.take 128
  let skip := bit (recFlags body) 0
  let n := s.stepNum p
  let s := (s.dropJournal p).keepHeld p skip
  let s := s.appendRecord p (body ++ pay.drop 0xB0)
  let s := s.modJob p (fun j => { j with
    lastCommit := pay, prevLate := numsOf 4 (recAnnex body) (pay.drop 0xB0), firstTrusted := false, fullSum := false, tsum := leNat ((pay.drop 0x90).take 32) })
  let (s, cause) := s.scaleStep p skip
  let s := if skip then s else s.countT p
  let s := (List.range 64).foldl (fun s l =>
    if bit (leNat ((pay.drop 0x80).take 8)) l then s.setFld (STEP_PRED_CFG_DENSE p l) 1 else s) s
  let s := ((s.unpin p 0).installMoves p).freeImages p (leNat ((pay.drop 0x88).take 8))
  let s := (s.setFld (NUM_STEP_FLAGS_LAST p) (s.fld (NUM_STEP_FLAGS_FLAGS p))).setFld (NUM_STEP_FLAGS_FLAGS p) 0
  let s := (s.setFld (STEP_NUM_STEP p) (n + 1)).endAbsorb p
  let s := if (s.job p).restore.isSome then s.endRestore p 3 0 stOk else s
  let every := s.fld (STEP_CKPT_CFG_EVERY p)
  let s := if every ≠ 0 ∧ n % every = 0 then s.modJob p (fun j => { j with ckWait := some n }) else s
  s.boundary p cause

/-! ### ROLLBACK (R482) and the comparison of a replay (15 R516, R517) -/

/-- The frames of a step that have not left yet are discarded with it. -/
def State.dropStepFrames (s : State) (p : Nat) : State :=
  { s with fab := { s.fab with outq := s.fab.outq.filter (fun o =>
    !(o.part == some p && o.wire.isNone && (o.typ == 3 || o.typ == 4 || o.rowKind.any (· != 2) || o.msg == some 0 || o.msg == some 1))) } }

/-- The step undone: journal restored, decisions, early frames and what has not left discarded. -/
def State.undoStep (s : State) (p : Nat) : State :=
  let s := ((s.restoreJournal p).dropJournal p).dropStepFrames p
  let n := s.stepNum p
  let s := (s.job p).running.foldl (fun s c => s.haltCore c) s
  let s := ((s.dropMoves p).unpin p 0).clearStep p
  s.modJob p (fun j => { (j.newStep none) with held := j.held.filter (fun h => h.made != n) })

/-- |L′ − L| ≤ 2⁻¹⁰ × |L| for FP32 values. -/
def lossNear (a b : Nat) : Bool :=
  let x := (readNum fmtFP32 a).1
  let y := (readNum fmtFP32 b).1
  if x.isFinite && y.isFinite then
    let abs (v : FVal) : FVal := if v.isNeg then v.neg else v
    decide (cmpVal (abs (addVal x y.neg).1) (scaleVal (abs y) (-10)) ≤ 0)
  else a == b

/-- What a replay's record shows against the record it must match: 0, or the code of STEP_RESTORE.RESULT. -/
def State.replayResult (s : State) (p : Nat) (new old : List Byte) : Nat :=
  let free := s.on (STEP_COLL_CFG_ORDER p)
  if recBatch new ≠ recBatch old then 4
  else if bit (recFlags new) 0 ≠ bit (recFlags old) 0 then 3
  else if (if free then !lossNear (recLoss new) (recLoss old) else recLoss new != recLoss old) then 1
  else if !free && recWeight new != recWeight old then 2
  else 0

/-- A replay that fails rolls back: after BATCH_MISMATCH it waits for the batches and the next STEP_RUN, otherwise the
restore is rejected (R517). -/
def State.failReplay (s : State) (p c result : Nat) : State :=
  let s := s.undoStep p
  if result = 4 then
    let s := (s.setFld (STEP_RESTORE_STATE p) 2).setFld (STEP_RESTORE_RESULT p) 4
    (s.modJob p (fun j => { j with runTo := 0 })).setJstate p jsIdle 0
  else ((s.endRestore p 4 result stRestore).modJob p (fun j => { j with rejected := some c })).setJstate p jsStopped jcLost

/-- COMMIT: processed by every device of the job; a replay's record is compared first (R476, R477, 15 R516). -/
def execCommit (via : Via) (s : State) : Out :=
  msgRow .commit via (fun s p _ d =>
    if !s.openStep p d || !(s.job p).appliedSent then s
    else
      let s := s.relayCommit p d
      let pay := d.drop 16
      match (s.job p).restore with
      | some r =>
        match r.target with
        | some t =>
          let res := s.replayResult p (pay.take 128) (t.take 128)
          if res = 0 then s.commitStep p pay else s.failReplay p r.step res
        | none => s.commitStep p pay
      | none => s.commitStep p pay) s

/-- The end of a restore that a loss ends: a restore or an absorption in progress is given up, and its command answered (15 R495, R515;
assumption 165). -/
def State.giveUp (s : State) (p : Nat) : State :=
  let s := if (s.job p).restore.isSome then s.endRestore p 5 5 stRestore else s
  s.dropAbsorb p

/-- ROLLBACK: the job stops with the cause that it carries (R482); without one, or where a device of the job is lost (15 R495), with
DEVICE_LOST. -/
def execRollback (via : Via) (s : State) : Out :=
  msgRow .rollback via (fun s p _ d =>
    if !s.openStep p d then s
    else
      let s := s.relayCommit p d
      let cause := bits (wordAt d 0x10) 0 8
      let lost := (s.job p).slots.any (s.job p).lost.contains
      let s := s.undoStep p
      (if lost then s.giveUp p else s).setJstate p jsStopped (if lost || cause == 0 then jcLost else cause)) s

/-! ### HOLD and resolution (R480, R481) -/

/-- The devices of a job that are not lost. -/
def JobSt.survivors (j : JobSt) : List Nat := j.devices.filter (fun d => !j.lost.contains d)

/-- An unfinished snapshot of a device that is lost is discarded (15 R511). -/
def State.dropPart (s : State) (p dst : Nat) : State :=
  if (s.job p).snaps.any (fun x => x.drainer == dst) && !snapDone (s.job p).snaps dst then s.forgetSnap p dst else s

/-- A device lost to a job (15 R496): its unfinished snapshot goes, what has been resolved is resolved anew; a job at rest stops, and gives up
a restore that has not ended; one in a step goes on to HOLD (R480). -/
def State.loseDevice (s : State) (p dst : Nat) : State :=
  let j := s.job p
  if s.partState p = ptStarted ∧ j.slots.contains dst ∧ !j.lost.contains dst then
    let s := (s.dropPart p dst).modJob p (fun j => { j with
      lost := j.lost ++ [dst], resolveStep := none, states := [], resolved := [] })
    if s.atRest p then (s.giveUp p).setJstate p jsStopped jcLost else s
  else s

/-- ABORT: the coordinator rolls the step back on every device (R479).  With the cause FENCED the device that sends it is lost to the
job; unless its APPLIED has gone, the coordinator rolls the step back on the others (15 R495, R496). -/
def execAbort (via : Via) (s : State) : Out :=
  msgRow .abort via (fun s p src d =>
    let cause := bits (wordAt d 0x10) 0 8
    let back := msgHead (s.stepNum p) 0 false 0 3 false 0 ++ leBytes 8 cause
    if cause = jcFenced then
      let s := s.loseDevice p src
      if s.nowStep p d && (s.job p).coord == s.me && !bit (wordAt d 0x10) 8 then
        (s.job p).survivors.foldl (fun s dev => s.sendMsg p dev back) s
      else s
    else if s.nowStep p d && (s.job p).coord == s.me then s.toHosts p back
    else s) s

/-- Whether this device has processed COMMIT of a step: the last that it has processed. -/
def State.hasCommit (s : State) (p n : Nat) : Bool :=
  decide (16 ≤ (s.job p).lastCommit.length) && recStep (s.job p).lastCommit == n && decide (n < s.stepNum p)

/-- RESOLVE sent to every survivor. -/
def State.sendResolve (s : State) (p n : Nat) : State :=
  let s := s.modJob p (fun j => { j with resolveStep := some n, states := [] })
  (s.job p).survivors.foldl (fun s dev => s.sendMsg p dev (msgHead n 0 false 0 5 false 0)) s

/-- Once every survivor has replied, the coordinator commits the step on those that have not, or rolls it back (R481). -/
def State.tryResolve (s : State) (p : Nat) : State :=
  let j := s.job p
  match j.resolveStep with
  | none => s
  | some n =>
    let l := j.states
    if !j.survivors.all (fun dev => l.any (fun e => e.1 == dev)) then s
    else
      let s := s.modJob p (fun j => { j with resolveStep := none, resolved := j.resolved ++ [n] })
      match l.find? (fun e => bit (wordAt e.2 0x10) 0) with
      | some e =>
        let pay := e.2.drop 24
        (j.survivors.filter (fun dev => !l.any (fun x => x.1 == dev && bit (wordAt x.2 0x10) 0))).foldl (fun s dev =>
          s.sendMsg p dev (msgHead n 0 false 0 2 false (recAnnex pay) ++ pay)) s
      | none => j.survivors.foldl (fun s dev => s.sendMsg p dev (msgHead n 0 false 0 3 false 0 ++ leBytes 8 jcLost)) s

/-- The steps that the coordinator resolves after a loss, in order: the last that it has committed, which a survivor may still be in, and its
own open step (R481). -/
def State.toResolve (s : State) (p : Nat) (open_ : Bool) : List Nat :=
  let n := s.stepNum p
  ((if s.hasCommit p (n - 1) then [n - 1] else []) ++ (if open_ then [n] else [])).filter (fun x => !(s.job p).resolved.contains x)

/-- The coordinator's next act of a resolution. -/
def State.resolveNext (s : State) (p : Nat) (open_ : Bool) : State :=
  match (s.job p).resolveStep, s.toResolve p open_ with
  | some _, _ => s.tryResolve p
  | none, n :: _ => s.sendResolve p n
  | none, [] => s

/-- HOLD_ENTER: COMMIT has not come in time, or a device of the job is lost; the new coordinator then asks every survivor, one that is at rest
about the last step that it has committed (R480, R481). -/
def execHoldEnter (p : Fin 8) (s : State) : Out :=
  unlessStopped s (
    let j := s.job p
    let lost := j.slots.any j.lost.contains
    let open_ := s.jstate p == jsRunning || s.jstate p == jsApplied || s.jstate p == jsHold
    if s.partState p ≠ ptStarted ∨ s.on (STEP_CFG_SERVE p) ∨ (!lost && s.jstate p != jsApplied) then .next s
    else
      let s := if open_ then s.setJstate p jsHold 0 else s
      if lost && j.coord == s.me then .next (s.resolveNext p open_) else .next s)

/-- RESOLVE: a survivor says how far it is (R481). -/
def execResolve (via : Via) (s : State) : Out :=
  msgRow .resolve via (fun s p src d =>
    let j := s.job p
    let n := mStep d
    let done := s.hasCommit p n
    let sent := n == s.stepNum p && j.appliedSent
    s.sendMsg p src (msgHead n 0 false 0 6 false 0 ++ leBytes 8 (b2n done + b2n sent * 2) ++ (if done then j.lastCommit else []))) s

/-- STATE: a survivor's reply noted (R481). -/
def execState (via : Via) (s : State) : Out :=
  msgRow .state via (fun s p src d =>
    let j := s.job p
    if j.resolveStep ≠ some (mStep d) ∨ j.states.any (fun e => e.1 == src) then s
    else (s.modJob p (fun j => { j with states := j.states ++ [(src, d)] })).tryResolve p) s

/-- SERVE_HEAD_TIMER: 1 s with records unsigned; a job that a fence has ended is signed for too (R491). -/
def execServeHeadTimer (p : Fin 8) (s : State) : Out :=
  unlessStopped s (
    if (s.on (STEP_CFG_SERVE p) && s.partState p == ptStarted) || s.partState p == ptFenced then .next (s.signHead p)
    else .next s)

/-- LEDGER_DRAINED_ACK: the host has copied the records below DRAINED; a job stopped for ledger space goes on (R489,
R490). -/
def execLedgerDrainedAck (q : Requester) (p : Fin 8) (value : Word) (s : State) : Out :=
  let s := s.asked
  if s.standing then .next (s.holdReq (.drained q p value))
  else if !s.hubUp || s.partState p == ptFenced || !reaches q p || s.fnShut q then .next s
  else
    let s := s.setFld (STEP_LEDGER_ACK_DRAINED p) value.toNat
    if s.jstate p = jsStopped ∧ s.fld (STEP_STATUS_CAUSE p) = jcLedger ∧ s.partState p = ptStarted ∧ s.ledgerRoom p then
      .next (s.proceed p)
    else .next s

end Sys2Proof.Machine
end

