-- ==== Sys2Proof/Machine/Failures.lean ====
section
/-! DEFINITION. Surviving failures (15): losses, the health monitor, buddies, drains and snapshots, restores, absorption. -/

namespace Sys2Proof.Machine

/-! ### Candidates and buddies (R505 to R507) -/

def JobSt.inJob (j : JobSt) (d : Nat) : Bool := bit (j.feeds.getD d 0) 7
def JobSt.feedOf (j : JobSt) (d : Nat) : Nat := bits (j.feeds.getD d 0) 0 3

/-- The candidates of a device in order (R506). -/
def JobSt.candidates (j : JobSt) (d : Nat) : List Nat :=
  let r := d / 128
  let f := d % 128
  let near := (List.range 127).map (fun k => r * 128 + (f + k + 1) % 128)
    ++ (List.range 127).map (fun k => (r + k + 1) % 128 * 128 + f)
  let far := (List.range 16383).map (fun k => (d + k + 1) % 16384)
  (near ++ far.filter (fun x => x / 128 != r && x % 128 != f)).filter j.inJob

/-- The order in which R506 tries the candidates of a device that are not lost: those of another feed, then the others. -/
def JobSt.buddies (j : JobSt) (d : Nat) : List Nat :=
  let l := (j.candidates d).filter (fun x => !j.lost.contains x)
  l.filter (fun x => j.feedOf x != j.feedOf d) ++ l.filter (fun x => j.feedOf x == j.feedOf d)

/-- Whether a device may be a buddy as far as this device knows (R506): itself while it does not drain; its reserve, and by the same
size that of another device, has room for the parts (assumption 100). -/
def State.canHold (s : State) (p d x : Nat) : Bool :=
  let size := 2 ^ 30 * s.fld (HUB_SNAP_CFG_SIZE p)
  let held := (snapData ((s.job p).snaps.filter (fun y => y.drainer != d))).length
  if x = s.me then !s.on HUB_RISK_DRAIN_REQ && decide (held + s.partsBytes p d ≤ size) else decide (s.partsBytes p d ≤ size)

/-- The candidates that meet the conditions of R506, the buddy first. -/
def State.buddies (s : State) (p d : Nat) : List Nat := ((s.job p).buddies d).filter (s.canHold p d)
def State.buddyOf (s : State) (p d : Nat) : Option Nat := (s.buddies p d).head?

/-- Whether a device has no buddy on another feed. -/
def State.coFedAt (s : State) (p d : Nat) : Bool :=
  !(s.buddyOf p d).any (fun x => (s.job p).feedOf x != (s.job p).feedOf d)

/-- Buddies computed (R507). -/
def State.setBuddies (s : State) (p : Nat) : State :=
  let j := s.job p
  let mine := s.buddyOf p s.me
  let all := j.devices.any (fun d => !j.lost.contains d && s.coFedAt p d)
  let s := (s.setFld HUB_FEED_CO_FED (b2n (s.coFedAt p s.me))).setFld HUB_FEED_BUDDY (mine.getD 0)
  (s.setFld HUB_FEED_BUDDY_VALID (b2n mine.isSome)).modJob p (fun j => { j with coFed := all })

/-! ### Loss of a device (R496, R511, R515, 11 R399) -/

/-- UNREACHABLE: a destination has been without a route, or a LINKQUERY without an answer, for FAB_UNREACH.TIMEOUT; what
lambdas to it still hold for replay is given up (11 R395, R399). -/
def execUnreachable (dst : Nat) (s : State) : Out :=
  let asked := (List.range 256).any (fun l => (s.lam l).querying && s.peerOf l == dst)
  if !s.dieUp || !s.on FAB_POS_VALID || 16384 ≤ dst || dst = s.me || ((s.routeOf dst).isSome && !asked) then .next s
  else
    let s := (List.range 8).foldl (fun s p => s.dropPart p dst) (s.file 0x0032 clsNotice 4 32 dst)
    let s := ((List.range 256).filter (fun l => (s.lam l).querying && s.peerOf l == dst)).foldl (fun s l =>
      s.setLam l { s.lam l with querying := false, replay := [] }) s
    .next ((List.range 8).foldl (fun s p => s.loseDevice p dst) s)

/-! ### The risk score (R502, R503) -/

def secUs : Nat := 1000000

/-- The count of a term since reset: that of its registers and what CNT_CLEAR has taken from them. -/
def State.riskTotal (s : State) (term : Nat) : Nat := Tab.get s.j.cleared 0 term + s.riskCount term

/-- What a count has gained since the last evaluation before the window of 60 s. -/
def State.gained (s : State) (term : Nat) : Nat :=
  let old := (s.j.hist.filter (fun e => e.1 == term && decide (e.2.1 + 60 * secUs ≤ s.timeUs))).getLast?
  s.riskTotal term - ((old.map (fun e => e.2.2)).getD 0)

/-- The events of a term within a window that ends now. -/
def State.within (s : State) (term window : Nat) : Nat :=
  (s.j.hist.filter (fun e => e.1 == term && decide (s.timeUs < e.2.1 + window))).length

/-- The history after an evaluation: what no window can reach any more is forgotten. -/
def keepHist (now : Nat) (l : List (Nat × Nat × Nat)) (new : List (Nat × Nat × Nat)) : List (Nat × Nat × Nat) :=
  let base (t : Nat) : List (Nat × Nat × Nat) :=
    ((l.filter (fun e => e.1 == t && decide (e.2.1 + 60 * secUs ≤ now))).getLast?).toList
  (List.range 3).flatMap base
    ++ l.filter (fun e => if e.1 = 3 then decide (now < e.2.1 + 600 * secUs) else decide (now < e.2.1 + 60 * secUs)) ++ new

/-- A correction of an SRAM: its report, and its place in the history (term 4). -/
def State.sramFix (s : State) (x : SramFix) : State :=
  let s := s.file 0x0010 clsCorrected x.kind.val x.index.toNat x.offset
  { s with j := { s.j with hist := s.j.hist ++ [(4, s.timeUs, 1)] } }

/-- RISK_EVAL: the terms, the score, and the request for a drain.  `tj` is the hottest junction, `sramCe` the SECDED
corrections since the last evaluation, which are reported (18 R585, assumption 51). -/
def execRiskEval (tj : Nat) (sramCe : List SramFix) (s : State) : Out :=
  if !s.hubUp then .next s
  else
    let s := sramCe.foldl State.sramFix s
    let dark := (List.range 8).any (fun e => !s.on (OP_LASER_A_OK (2 * e)) || !s.on (OP_LASER_B_OK (2 * e)))
    let brown := (s.pm.brown.filter (fun b => decide (s.fld PM_AON_SECONDS_S ≤ b + 86400))).length
    let t0 := min 48 (6 * Nat.log2 (1 + s.gained 0))
    let t1 := min 32 (4 * Nat.log2 (1 + s.within 4 (60 * secUs)))
    let t2 := min 16 (2 * s.gained 1)
    let t3 := if tj ≤ 85 then 0 else min 60 (4 * (tj - 85))
    let t4 := min 32 (4 * s.gained 2) + (if dark then 16 else 0)
    let t5 := min 48 (16 * s.within 3 (600 * secUs))
    let t6 := min 64 (32 * brown)
    let score := min 255 (sumOf [t0, t1, t2, t3, t4, t5, t6])
    let s := [(HUB_RISK_TERMS_STK_CE, t0), (HUB_RISK_TERMS_SRAM_CE, t1), (HUB_RISK_TERMS_SLOW, t2), (HUB_RISK_TERMS_TEMP, t3),
      (HUB_RISK_TERMS_OPTIC, t4), (HUB_RISK_TERMS_FEED, t5), (HUB_RISK_TERMS_BROWNOUT, t6), (HUB_RISK_SCORE, score)].foldl
        (fun s e => s.setFld e.1 e.2) s
    let dwell := if s.fld HUB_RISK_THRESH < score then s.j.dwell + 1 else 0
    let hist := keepHist s.timeUs s.j.hist ((List.range 3).map (fun t => (t, s.timeUs, s.riskTotal t)))
    let s := { s with j := { s.j with dwell := dwell, hist := hist } }
    if dwell ≠ 0 ∧ s.fld HUB_RISK_DWELL ≤ dwell ∧ !s.on HUB_RISK_DRAIN_REQ then
      .next ((s.setFld HUB_RISK_DRAIN_REQ 1).file 0x0080 clsNotice 0 16 score)
    else .next s

/-! ### Drains (R509, R510) -/

/-- A segment of a part (R510). -/
def snapSeg (form part drainer : Nat) (last : Bool) (off : Nat) (data : List Byte) : List Byte :=
  leBytes 4 (form % 4 + part % 2 ^ 16 * 2 ^ 16) ++ leBytes 4 (drainer % 2 ^ 14 + b2n last * 2 ^ 14) ++ leBytes 8 off ++ data

def sgForm (d : List Byte) : Nat := bits (wordAt d 0) 0 2
def sgPart (d : List Byte) : Nat := bits (wordAt d 0) 16 16
def sgDrainer (d : List Byte) : Nat := bits (wordAt d 4) 0 14
def sgLast (d : List Byte) : Bool := bit (wordAt d 4) 14
def sgOff (d : List Byte) : Nat := leNat ((d.drop 8).take 8)

/-- A part sent in segments of at most 984 bytes. -/
def State.sendSegs (s : State) (p dst drainer part : Nat) (data : List Byte) : State :=
  let l := pieces 984 data
  l.zipIdx.foldl (fun s e => s.sendPart p 9 dst 5 (snapSeg 0 part drainer (e.2 + 1 == l.length) (984 * e.2) e.1)) s

/-- The parts of a drain, the job part last (R509). -/
def State.drainParts (s : State) (d : Drain) : List (List Byte) :=
  (s.partsOf d.part d.step 1 true).map (fun e => e.1 ++ e.2)

/-- All parts of a drain go to its next candidate. -/
def State.sendDrain (s : State) (d : Drain) : State :=
  match d.cands.head? with
  | none => s
  | some dst => (s.drainParts d).zipIdx.foldl (fun s e => s.sendSegs d.part dst s.me e.2 e.1) s

def State.setDrain (s : State) (d : Drain) : State :=
  { s with j := { s.j with drains := s.j.drains.map (fun x => if x.part = d.part then d else x) } }

/-! ### Teardown (16 R524) -/

/-- SRAM of the clusters of some sections cleared, and their staging lines discarded (16 R520, R524). -/
def State.clearSections (s : State) (mask : Nat) : State :=
  let cores := (secsOf mask).flatMap coresOfSec
  let cls := (secsOf mask).flatMap (fun x => (List.range 5).map (· + 5 * x))
  let inCore (base size k : Nat) : Bool := decide (base ≤ k) && decide (k < 2 * base) && cores.contains ((k - base) / size)
  let mem := Tab.drop s.m.mem (fun k =>
    inCore (2 ^ 40) (2 ^ 16) k || inCore (2 ^ 41) (2 ^ 22) k || inCore (2 ^ 42) (2 ^ 21) k
      || (decide (2 ^ 43 ≤ k) && decide (k < 2 ^ 44) && cls.contains ((k - 2 ^ 43) / 2 ^ 23)))
  { s with m := { s.m with
    mem := mem
    staged := s.m.staged.filter (fun b => !stackInSecs mask (b * 64))
    hot := s.m.hot.filter (fun h => !stackInSecs mask (h.burst * 64))
    tcache := s.m.tcache.filter (fun e => !cls.contains e.cl)
    scache := s.m.scache.filter (fun e => !cls.contains e.1)
    dcache := s.m.dcache.filter (fun e => !cls.contains e.1) } }

/-- Held words of the wide registers of a partition and its sections forgotten (20 R639, R640). -/
def State.dropHeldWords (s : State) (p mask : Nat) : State :=
  let mine (a : Nat) : Bool :=
    (decide (0xB000000 + p * 0x100000 ≤ a) && decide (a < 0xB100000 + p * 0x100000))
      || (decide (0x5000000 ≤ a) && decide (a < 0x5800000) && bit mask ((a - 0x5000000) / 0x100000))
      || (decide (0x8000000 ≤ a) && decide (a < 0xA800000) && bit mask ((a - 0x8000000) / 0x500000))
  { s with e := { s.e with heldWords := Tab.drop s.e.heldWords mine } }

/-- The ABORTs of a partition that is about to go, protected while its key is there: they leave as they are (14 R479, 15 R496). -/
def State.sealAborts (s : State) (p : Nat) : State :=
  (s.fab.outq.filter (fun o => o.part == some p && o.msg == some 4)).foldl (fun s o =>
    let (w, s) := s.seal o
    s.queueFrame { o with part := none, wire := some w }) s

/-- A partition torn down: fenced first where it is STARTED, which its job is told, its keys gone, its sections released. -/
def State.teardown (s : State) (p : Nat) : State :=
  let s := ((if s.partState p = ptStarted then s.fencePart p 2 else s).dropHeld p).signHead p
  let s := (if s.partState p = ptFenced then s.tellOnce p else s).sealAborts p
  let mask := s.sections p
  let s := { s with sec := { s.sec with
    memKeys := (s.sec.memKeys.del (2 * p)).del (2 * p + 1), kem := s.sec.kem.del p, tk := s.sec.tk.del p
    tkSeq := s.sec.tkSeq.del p, fabKey := s.sec.fabKey.del p, ckKey := s.sec.ckKey.del p
    sigs := s.sec.sigs.filter (fun r => r != SigReq.head p) } }
  let s := (s.clearSections mask).dropHeldWords p mask
  let s := { s with fab := { s.fab with
    ctrs := Tab.drop s.fab.ctrs (fun k => k / 2 ^ 14 == p), windows := Tab.drop s.fab.windows (fun k => k / 2 ^ 14 == p)
    outq := s.fab.outq.filter (fun o => o.part != some p), own := s.fab.own.filter (fun e => e.1 != p) } }
  let s := { s with
    b := { s.b with journal := s.b.journal.filter (fun e => e.part != p), jnlFail := s.b.jnlFail.filter (· != p), touched := s.b.touched.filter (fun e => e.1 != p), tdelta := s.b.tdelta.del p }
    j := { s.j with jobs := s.j.jobs.del p, held := s.j.held.filter (fun h => h.part != p), heldMem := s.j.heldMem.filter (fun h => h.1 != p), drains := s.j.drains.filter (fun d => d.part != p) } }
  (((s.setFld (PART_CFG_SECTIONS p) 0).setFld (PART_STATUS_STATE p) ptFree).setFld (PART_STATUS_CAUSE p) 0).showSnap

/-- The last acknowledgement has come: the job's partition is torn down, every transmitter is dark (R509). -/
def State.endDrain (s : State) : State :=
  if s.j.drains.all (fun d => d.acked.length == d.count) then
    let s := s.j.drains.foldl (fun s d => s.teardown d.part) s
    (List.range 32).foldl (fun s n => s.shutPort n) (s.setFld HUB_RISK_DRAINED 1)
  else s

/-- A drain of one partition's job begins: it pauses; its parts go to its buddy, and to the host where the job is
co-fed. -/
def State.startDrain (s : State) (p : Nat) : State :=
  let s := (if s.jstate p = jsStopped then s else s.setJstate p jsPaused 0).seeParts p
  let c := s.stepNum p - 1
  let d : Drain := ⟨p, c, s.buddies p s.me, [], (s.partsOf p c 1 true).length⟩
  let s := ({ s with j := { s.j with drains := s.j.drains ++ [d] } }).sendDrain d
  match (if (s.job p).coFed then s.ckCmd p 1 else none) with
  | some x => (s.writeParts p c x (s.partsOf p c 1 true)).2
  | none => s

/-- All parts go again, to the next candidate, where there is one (R510). -/
def State.nextBuddy (s : State) (d : Drain) : State :=
  if d.cands.length < 2 then s
  else
    let y := { d with cands := d.cands.drop 1, acked := [] }
    (s.setDrain y).sendDrain y

/-- A drain that goes on: whether it has waited long enough for acknowledgements that do not come is a free bit (R510, assumption
100). -/
def State.pressDrain (s : State) (d : Drain) : State :=
  let (late, s) := s.free 1
  if late = 1 then s.nextBuddy d else s

/-- DRAIN_START: no job is in a step or owes its checkpoint, no absorption holds the drain back (R504, R509); a drain that goes on
may turn to the next candidate. -/
def execDrainStart (s : State) : Out :=
  let ps := (List.range 8).filter (fun p => s.partState p == ptStarted)
  if !s.dieUp || !s.on HUB_RISK_DRAIN_REQ || s.on HUB_RISK_DRAINED then .next s
  else if !s.j.drains.isEmpty then .next (s.j.drains.foldl State.pressDrain s)
  else if s.drainBlocked then .next (s.setFld HUB_RISK_DEFERRED 1)
  else if !ps.all (fun p => s.atRest p && (s.job p).ckWait.isNone) then .next s
  else
    let s := ps.foldl (fun s p => s.startDrain p) (s.setFld HUB_RISK_DEFERRED 0)
    .next s.endDrain

/-- DRAIN: the operator asks for a drain; the command ends with it (R503, 17 R577). -/
def execDrain (cmd : HostCmd) (s : State) : Out :=
  hostRow 0x0602 cmd (fun _ _ s =>
    if s.on HUB_RISK_DRAINED then .ok s else .stay (s.setFld HUB_RISK_DRAIN_REQ 1)) s

/-! ### Snapshots at the buddy -/

/-- A segment noted. -/
def addSeg (drainer part off : Nat) (last : Bool) (data : List Byte) (l : List SnapPart) : List SnapPart :=
  let put (x : SnapPart) : SnapPart :=
    { x with
      segs := if x.segs.any (fun e => e.1 == off) then x.segs.map (fun e => if e.1 = off then (off, data) else e)
        else x.segs ++ [(off, data)]
      last := x.last || last }
  if l.any (fun x => x.drainer == drainer && x.part == part) then
    l.map (fun x => if x.drainer = drainer ∧ x.part = part then put x else x)
  else l ++ [put ⟨drainer, part, [], false, false⟩]

/-- A part of a snapshot passes its checks: DIGEST, and HEAD against the device's own record (R509, R514). -/
def State.partPasses (s : State) (p : Nat) (b : List Byte) : Bool :=
  let h := b.take 128
  ptJob h == s.fld (STEP_JOB_ID_JOB_ID p) && ptSource h == 1 && shaBytes (b.drop 128) == ptDigest h && s.headOf p (ptStep h) == some (ptHead h)

/-- What is held of a drainer goes, and its snapshot is left to another device (R510). -/
def State.passOn (s : State) (p src : Nat) : State :=
  (s.forgetSnap p src).modJob p (fun j => { j with passed := j.passed.filter (· != src) ++ [src] })

/-- A refusal (R510). -/
def State.refuseSnap (s : State) (p src part : Nat) : State :=
  (s.passOn p src).sendPart p 9 src 5 (snapSeg 2 part src false 0 [])

/-- A segment of a part that the buddy receives: written into its reserve, the part acknowledged once it is whole and passes (R509,
R510). -/
def State.snapIn (s : State) (p src : Nat) (d : List Byte) : State :=
  let k := sgPart d
  let l := addSeg src k (sgOff d) (sgLast d) (d.drop 16) (s.job p).snaps
  if s.on HUB_RISK_DRAIN_REQ || decide (2 ^ 30 * s.fld (HUB_SNAP_CFG_SIZE p) < (snapData l).length) then s.refuseSnap p src k
  else
    match (l.find? (fun x => x.drainer == src && x.part == k)).bind SnapPart.whole with
    | none => s.setSnaps p l
    | some b =>
      if s.partPasses p b then
        let s := s.setSnaps p (l.map (fun x => if x.drainer = src ∧ x.part = k then { x with acked := true } else x))
        (s.setFld HUB_SNAP_STEP (ptStep b)).sendPart p 9 src 5 (snapSeg 1 k src false 0 [])
      else (s.setSnaps p l).passOn p src

/-- SNAPSHOT_ACK at the drainer (R509). -/
def State.snapAck (s : State) (p src : Nat) (d : List Byte) : State :=
  match s.j.drains.find? (fun x => x.part == p) with
  | none => s
  | some x =>
    if x.cands.head? ≠ some src ∨ x.acked.contains (sgPart d) ∨ x.count ≤ sgPart d then s
    else (s.setDrain { x with acked := x.acked ++ [sgPart d] }).endDrain

def execSnapshotAck (via : Via) (s : State) : Out :=
  match via with
  | .own => .next s
  | .lambda lam frame => receivePart 5 lam frame (fun _ _ d => sgForm d == 1) (fun _ _ d => decide (16 ≤ d.length))
      (fun s p d => s.snapAck p (hSrc frame) d) s

/-- SNAPSHOT_REFUSAL: all parts go again, to the next candidate (R510). -/
def execSnapshotRefusal (via : Via) (s : State) : Out :=
  match via with
  | .own => .next s
  | .lambda lam frame => receivePart 5 lam frame (fun _ _ d => sgForm d == 2) (fun _ _ d => decide (16 ≤ d.length))
      (fun s p _ =>
        match s.j.drains.find? (fun x => x.part == p) with
        | none => s
        | some x =>
          if x.cands.head? ≠ some (hSrc frame) then s else s.nextBuddy x) s

/-! ### Parts loaded (R497, R498, R514) -/

/-- The bytes of ranges of memory, with the keys that they go to. -/
def State.rangeCells (s : State) (p : Nat) : List (Nat × Nat) → List Byte → List (Nat × Byte)
  | [], _ => []
  | (va, n) :: r, d => ((s.hubKeys p va n).getD []).zip (d.take n) ++ s.rangeCells p r (d.drop n)

/-- Dense section of a slot written where its shard descriptors say. -/
def State.loadDense (s : State) (p slot : Nat) (d : List Byte) : State :=
  (s.writeKeys' 7 (s.rangeCells p (s.denseRanges p slot) d)).2

/-- Records of a slot's tables. -/
def State.loadRecords (s : State) : List (List Nat) → List Byte → State
  | [], _ => s
  | ks :: r, d => ((s.writeKeys' 7 (ks.zip (d.take ks.length))).2).loadRecords r (d.drop ks.length)

/-- Deferrals of a slot (R497). -/
def parseDefer (slot step : Nat) : Nat → List Byte → List Deferral
  | 0, _ => []
  | n + 1, d =>
    if d.length < 16 then []
    else
      let w := leNat (d.take 8)
      let len := bits w 32 32
      ⟨slot, bits w 0 10, bit w 10, signed 8 (bits w 16 8), numsOf 4 len (d.drop 16), step⟩
        :: parseDefer slot step n (d.drop (roundUp (16 + 4 * len) 64))

def State.loadSlot (s : State) (p slot : Nat) (h body : List Byte) : State :=
  let dn := ptDense h
  let tb := ptTables h
  let t0 := roundUp dn 64
  let f0 := roundUp (t0 + tb) 64
  let s := s.loadDense p slot (body.take dn)
  let s := s.loadRecords (s.slotRecords p slot) ((body.drop t0).take tb)
  let df := (body.drop f0).take (wordAt h 0x70)
  s.modJob p (fun j => { j with
    held := j.held.filter (fun x => x.slot != slot) ++ parseDefer slot (ptStep h) (df.length / 64 + 1) df
    toLoad := j.toLoad.filter (· != slot) })

/-- Tables of the job part: TABLE_VER, DIR_VER, override directory, hot set. -/
def State.loadTables (s : State) (p : Nat) : List (List Byte) → List Byte → State
  | [], _ => s
  | d :: r, b =>
    let k := bits (hdF d 0x20 8) 48 5
    let n := if k = 0 then 0 else 16 * 2 ^ k
    let s := s.setDescs p (tblId d) 4 ((b.drop 2).take 4)
    let s := (s.hubWrite 7 p (bits (hdF d 0x20 8) 0 48) ((b.drop 8).take n)).2
    let rest := b.drop (8 + n)
    let count := leNat (rest.take 8)
    let rows := numsOf 8 count (rest.drop 16)
    let s := s.modJob p (fun j => { j with
      hotSet := j.hotSet.filter (fun e => decide (e.1 < tblId d)) ++ [(tblId d, leNat ((rest.drop 8).take 8), rows)]
        ++ j.hotSet.filter (fun e => decide (tblId d < e.1)) })
    s.loadTables p r (rest.drop (16 + 8 * count))

/-- The job state written back (R498, 20 R654). -/
def State.loadJob (s : State) (p : Nat) (b : List Byte) : State :=
  let s := ((s.setFld (NUM_LS_STATE_E p) (leNat (b.take 4))).setFld (NUM_LS_STATE_COUNT p) (leNat ((b.drop 4).take 4))).setFld
    (NUM_LS_STATE_FLOOR_RUN p) (leNat ((b.drop 0x18).take 4))
  let dn := leNat ((b.drop 8).take 8)
  let s := (List.range 64).foldl (fun s l => s.setFld (STEP_PRED_CFG_DENSE p l) (b2n (bit dn l))) s
  let ng := s.fld (STEP_UPD_CFG_NGROUP p)
  let s := (List.range ng).foldl (fun s n =>
    (s.hubWrite 7 p (s.fld (STEP_UPD_TABLES_GROUPS p) + 128 * n + 0x10) ((b.drop (0x40 + 8 * n)).take 8)).2) s
  (s.loadTables p (s.sortedTables p) (b.drop (0x40 + roundUp (8 * ng) 64))).forgetMoves p

/-! ### Restores from host memory (R516 to R518) -/

/-- Parts as they stand in host memory: header, ciphertext, tag. -/
def parseParts : Nat → List Byte → List (List Byte × List Byte × List Byte)
  | 0, _ => []
  | n + 1, b =>
    if b.length < 144 then []
    else
      let h := b.take 128
      let k := ptLen h
      (h, (b.drop 128).take k, (b.drop (128 + k)).take 16) :: parseParts n (b.drop (144 + k))

/-- A part of a step opened: none where the step, the job, the source, the tag or DIGEST does not fit. -/
def State.openPart (s : State) (p step source : Nat) (e : List Byte × List Byte × List Byte) : Option (List Byte × List Byte) :=
  if ptStep e.1 = step ∧ ptJob e.1 = s.fld (STEP_JOB_ID_JOB_ID p) ∧ ptSource e.1 = source then
    (gcmOpen (toNats (Tab.get s.sec.ckKey [] p)) (toNats (Config.partIv e.1)) (toNats e.1) (toNats e.2.1) (toNats e.2.2)).bind
      (fun b => if shaBytes (ofNats b) = ptDigest e.1 then some (e.1, ofNats b) else none)
  else none

def State.openList (s : State) (p step source : Nat) (raw : List Byte) : List (List Byte × List Byte) :=
  (parseParts (raw.length / 144 + 1) raw).filterMap (s.openPart p step source)

/-- Whether parts of all 16,384 slots are there, with the job, the step and the HEAD of a job part (R501). -/
def fullSet (raw : List Byte) (h : List Byte) : Bool :=
  let l := (parseParts (raw.length / 144 + 1) raw).map Prod.fst
  (List.range 16384).all (fun x => l.any (fun e => ptKind e == 0 && ptSlot e == x && ptSource e == 0 && ptJob e == ptJob h
    && ptStep e == ptStep h && ptHead e == ptHead h))

/-- The parts of some slots and the job part of a checkpoint, all with one HEAD: none where the checkpoint is not complete or one of
them does not open. -/
def State.openAll (s : State) (p step : Nat) (slots : List Nat) (raw : List Byte) :
    Option (List (Nat × List Byte × List Byte) × List Byte × List Byte) :=
  let l := s.openList p step 0 raw
  let slotParts := slots.map (fun x => (l.find? (fun e => ptKind e.1 == 0 && ptSlot e.1 == x)).map (fun e => (x, e.1, e.2)))
  match l.find? (fun e => ptKind e.1 == 1) with
  | none => none
  | some j =>
    if slotParts.all (fun e => e.any (fun e => ptHead e.2.1 == ptHead j.1)) && fullSet raw j.1 then
      some (slotParts.filterMap id, j.1, j.2)
    else none

/-- Ledger entries as bytes (14 R488): the bodies of the records. -/
def parseEntries : Nat → List Byte → List (List Byte)
  | 0, _ => []
  | n + 1, b =>
    if b.length < 16 then []
    else
      let k := leNat ((b.drop 4).take 4)
      let rest := parseEntries n (b.drop (max 64 (roundUp k 64)))
      if leNat (b.take 4) = 1 then (b.drop 16).take (k - 16) :: rest else rest

/-- The chain walked back from a head to the record with hash `want`: the record of step `next` nearest to the head, if any. -/
def chainWalk (bodies : List (List Byte)) (want : List Byte) (next : Nat) :
    Nat → List Byte → Option (List Byte) → Option (Option (List Byte))
  | 0, _, _ => none
  | n + 1, cur, found =>
    if cur = want then some found
    else
      match bodies.find? (fun b => shaBytes b == cur) with
      | none => none
      | some b => chainWalk bodies want next n (recPrev b) (if found.isNone && recStep b == next then some b else found)

/-- The record of step C + 1 that a restore of step C must match, where the chain from record C ends at this device's head (R516). -/
def State.chainTarget (s : State) (p c : Nat) (drained want : List Byte) : Option (Option (List Byte)) :=
  let bodies := parseEntries (drained.length / 64 + 1) drained
    ++ ((s.job p).ledger.filter (fun e => e.kind == 1)).map LedEnt.body
  if (s.job p).head.isEmpty then none else chainWalk bodies want (c + 1) (bodies.length + 1) (s.job p).head none

/-- Replicas rebuilt: the chunks of the hosted slots leave for every device (R498); those that came early are taken. -/
def State.regather (s : State) (p : Nat) : State :=
  let early := (s.job p).heldIn.filter (fun e => e.1 == 3 && decide (2 ≤ cKind e.2.2))
  let s := s.modJob p (fun j => { j with
    gathIn := [], gathOut := (j.hosted s.me).flatMap (fun c => j.bucketIdx.map (fun b => (b, c)))
    heldIn := j.heldIn.filter (fun e => !(e.1 == 3 && decide (2 ≤ cKind e.2.2))) })
  let s := (s.job p).gathOut.foldl (fun s e => s.gatherChunk p e.1 e.2) s
  early.foldl (fun s e => s.collNow p e.2.2) s

/-- The annex of the record with hash `want`, among drained entries and the device's own ledger: the straggler list of the step restored
(14 R485). -/
def State.annexOf (s : State) (p : Nat) (drained want : List Byte) : Option (List Nat) :=
  let bodies := parseEntries (drained.length / 64 + 1) drained
    ++ ((s.job p).ledger.filter (fun e => e.kind == 1)).map LedEnt.body
  (bodies.find? (fun b => shaBytes b == want)).map (fun b => numsOf 4 (recAnnex b) (b.drop 128))

/-- Slot parts and job part loaded; the device's step is the one after (R514, R516).  The straggler list of the step restored is that of its
record; where neither the ledger nor the command holds it, the deferrals loaded stand for it (assumption 164). -/
def State.loadAll (s : State) (p step : Nat) (l : List (Nat × List Byte × List Byte)) (job : List Byte)
    (late : Option (List Nat)) : State :=
  let s := s.loadJob p job
  let s := l.foldl (fun s e => s.loadSlot p e.1 e.2.1 e.2.2) s
  let s := s.modJob p (fun j => { j with
    prevLate := late.getD (j.held.map (fun h => lateWord ⟨h.slot, h.bucket, 0⟩)) })
  (s.setFld (STEP_NUM_STEP p) (step + 1)).modJob p (fun j => { (j.newStep none) with fullSum := true })

/-- STEP_RESTORE at the start of a restore. -/
def State.beginRestore (s : State) (p : Nat) (r : Restore) : State :=
  let s := ((s.setFld (STEP_RESTORE_STATE p) 1).setFld (STEP_RESTORE_RESULT p) 0).setFld (STEP_RESTORE_STEP p) r.step
  s.modJob p (fun j => { j with restore := some r })

/-- Whether the job stopped under 02 R92 at the step that the loss-scale state belongs to. -/
def State.atFloor (s : State) (p : Nat) : Bool :=
  s.on (NUM_LS_CTRL_EN p) && s.fld (NUM_LS_STATE_FLOOR_RUN p) != 0 && decide (s.fld (NUM_LS_CTRL_PATIENCE p) ≤ s.fld (NUM_LS_STATE_FLOOR_RUN p))

/-- A restore whose parts and replicas have all come: accepted at once, or the next step is a replay.  A checkpoint whose FLOOR_RUN
has reached P was written where the job stopped under 02 R92, and the restored job stops there too (02 R94, assumption 142). -/
def State.restoreOn (s : State) (p : Nat) : State :=
  let j := s.job p
  match j.restore with
  | none => s
  | some r =>
    if s.fld (STEP_RESTORE_STATE p) ≠ 1 ∨ !j.toLoad.isEmpty then s
    else if j.gathOut.isEmpty && !j.bucketIdx.isEmpty then s.regather p
    else if !s.gathersIn p then s
    else
      let s := (s.dropJournal p).modJob p (fun j => { j with gathOut := [], gathIn := [] })
      let s := (s.job p).hotSet.foldl (fun s e => s.hotRefresh p e.2.1 e.1 e.2.2) s
      let s := if r.absorb then s.setBuddies p else s
      let s := if r.trusted then s.modJob p (fun j => { j with firstTrusted := true }) else s
      match r.target with
      | none =>
        let s := s.endRestore p 3 0 stOk
        if s.atFloor p then (s.settlePounds p).setJstate p jsStopped jcLossFloor else s.proceed p
      | some _ => (s.setFld (STEP_RESTORE_STATE p) 2).proceed p

/-- A restore refused. -/
def refuseRestore (s : State) (p result : Nat) : HRes :=
  .no ((s.setFld (STEP_RESTORE_STATE p) 5).setFld (STEP_RESTORE_RESULT p) result) stRestore result

/-- CKPT_RESTORE: the first time the parts are read and the chain is checked; then, each time, it goes on where the
replicas have come. -/
def execCkptRestore (cmd : HostCmd) (s : State) : Out :=
  hostRow 0x0601 cmd (fun x p s =>
    let c := cP x.cmd 0
    let trusted := bit (cP x.cmd 1) 0
    let j := s.job p
    if j.restore.any (fun r => !r.absorb) then .stay (s.restoreOn p)
    else if s.partState p ≠ ptStarted ∨ !s.atRest p ∨ j.restore.isSome then .badState s p
    else if cLen x.cmd % 16 ≠ 0 then .no s stBadLength
    else if j.rejected.any (fun r => decide (r ≤ c)) then refuseRestore s p 7
    else if trusted && !s.on (STEP_CKPT_CFG_TRUST_OK p) then refuseRestore s p 0
    else
      let bl := s.bufsOf x.cmd
      let raw := s.getBufs bl
      let drained := (s.rdB (keyHost (cData x.cmd)) (cLen x.cmd)).drop (16 * bl.length)
      match s.openAll p c (j.hosted s.me) raw with
      | none => refuseRestore s p 5
      | some (l, h, body) =>
        let go (target : Option (List Byte)) : HRes :=
          .stay (((s.loadAll p c l body (s.annexOf p drained (ptHead h))).beginRestore p ⟨c, trusted, false, target⟩).restoreOn p)
        if trusted then go none
        else
          match s.chainTarget p c drained (ptHead h) with
          | none => refuseRestore s p 6
          | some target => go target) s

/-- CKPT_BUFFERS: buffers for the checkpoint or the co-fed snapshot that is due, or will be (R500, R509, 17 R581). -/
def execCkptBuffers (cmd : HostCmd) (s : State) : Out :=
  hostRow 0x0600 cmd (fun x p s =>
    if s.partState p ≠ ptStarted then .badState s p
    else if cLen x.cmd % 16 ≠ 0 then .no s stBadLength
    else if bit (cP x.cmd 0) 0 then
      match s.j.drains.find? (fun d => d.part == p), s.ckCmd p 1 with
      | some d, some y => if (s.job p).coFed then .stay (s.writeParts p d.step y (s.partsOf p d.step 1 true)).2 else .stay s
      | _, _ => .stay s
    else if (s.job p).ckWait.isSome then
      let s := s.tryCheckpoint p
      .stay (if (s.job p).ckWait.isNone && s.jstate p == jsPaused then s.proceed p else s)
    else .stay s) s

/-! ### Redistribution (R512 to R515) -/

/-- The slots of the lost devices given to survivors, in ascending order (R513). -/
def moveSlots (j : JobSt) (lost : List Nat) : List Nat → List Nat → List Nat
  | [], m => m
  | slot :: r, m =>
    let d := m.getD slot 0
    if lost.contains d then
      let alive := (j.candidates d).filter (fun x => j.devices.contains x && !lost.contains x)
      let count (x : Nat) : Nat := (m.filter (· == x)).length
      let best := alive.foldl (fun (b : Option Nat) x => match b with
        | none => some x
        | some y => if count x < count y then some x else some y) none
      moveSlots j lost r (setNth m slot (best.getD d))
    else moveSlots j lost r m

def JobSt.newMap (j : JobSt) (lost : List Nat) : List Nat := moveSlots j lost (List.range 16384) j.slots

/-- The new slot map in force (R514): the parts of the slots that come here are awaited. -/
def State.remap (s : State) (p : Nat) (map : List Nat) : State :=
  let j := s.job p
  let old := j.hosted s.me
  let s := (s.setMap p map).modJob p (fun j' => { j' with
    oldSlots := if j.oldSlots.isEmpty then j.slots else j.oldSlots, absorbing := true })
  s.modJob p (fun j => { j with toLoad := (j.hosted s.me).filter (fun x => !old.contains x) })

/-- The host's copy of a slot part of a co-fed snapshot, where it passes (R514). -/
def State.hostCopy (s : State) (p step slot : Nat) : Option (List Byte × List Byte) :=
  if (s.job p).coFed then
    (s.ckCmd p 1).bind (fun x => (s.openList p step 1 (s.getBufs (s.bufsOf x.cmd))).find? (fun e =>
      ptKind e.1 == 0 && ptSlot e.1 == slot && s.headOf p step == some (ptHead e.1)))
  else none

/-- A whole part of a lost device's snapshot for a slot that is absorbed here; where it fails its checks and the job is
co-fed, the host's copy is read (R514). -/
def State.absorbPart (s : State) (p : Nat) (b : List Byte) : State :=
  let h := b.take 128
  if !(s.job p).toLoad.contains (ptSlot h) then s
  else if s.partPasses p b then s.loadSlot p (ptSlot h) h (b.drop 128)
  else
    match s.hostCopy p (ptStep h) (ptSlot h) with
    | some e => s.loadSlot p (ptSlot h) e.1 e.2
    | none => s

/-- The holder of a lost device's snapshot hands its slot parts to their new hosts. -/
def State.handOver (s : State) (p dev : Nat) : State :=
  ((s.job p).snaps.filter (fun x => x.drainer == dev && x.acked)).foldl (fun s x =>
    match x.whole with
    | none => s
    | some b =>
      let host := (s.job p).hostOf (ptSlot (b.take 128))
      if ptKind (b.take 128) ≠ 0 then s
      else if host = s.me then s.absorbPart p b
      else s.sendSegs p host dev x.part b) s

/-- The parts that have come of some lost devices taken, those too that came before the command did (R514). -/
def State.absorbAll (s : State) (p : Nat) (lost : List Nat) : State :=
  ((s.job p).incoming.filter (fun x => lost.contains x.drainer)).foldl (fun s x => match x.whole with
    | some b => s.absorbPart p b
    | none => s) s

/-- SNAPSHOT_DATA: a segment of a part, at the buddy or at the device that absorbs its slot, which keeps what comes before its own
REDISTRIBUTE (R509, R514). -/
def execSnapshotData (lam : Fin 256) (frame : List Byte) (s : State) : Out :=
  receivePart 5 lam frame (fun _ _ d => sgForm d == 0) (fun _ _ d => decide (16 < d.length))
    (fun s p d =>
      let dev := sgDrainer d
      if dev = hSrc frame then s.snapIn p dev d
      else
        let l := addSeg dev (sgPart d) (sgOff d) (sgLast d) (d.drop 16) (s.job p).incoming
        let s := s.modJob p (fun j => { j with incoming := l })
        if (s.job p).absorbing && (s.job p).lost.contains dev then
          match (l.find? (fun x => x.drainer == dev && x.part == sgPart d)).bind SnapPart.whole with
          | none => s
          | some b => (s.absorbPart p b).restoreOn p
        else s) s

/-- Whether this device holds the complete snapshot of a device at a step. -/
def State.holdsSnap (s : State) (p step d : Nat) : Bool :=
  let l := (s.job p).snaps
  snapDone l d && (l.filter (fun x => x.drainer == d)).all (fun x => ptStep ((x.whole.getD []).take 128) == step)

/-- Whether this device is where the snapshot of a device should be: it holds parts of it, or is the buddy and has not refused. -/
def State.owesSnap (s : State) (p d : Nat) : Bool :=
  (s.job p).snaps.any (fun x => x.drainer == d) || (s.buddyOf p d == some s.me && !(s.job p).passed.contains d)

/-- The index of the first bad entry of a list of lost devices, or none (R512, 17 R579); of a snapshot that another device should hold, this
one cannot see whether it is complete (assumption 165). -/
def State.redistBad (s : State) (p source step : Nat) (l : List Nat) : Option Nat :=
  let j := s.job p
  let held := j.lost.filter j.slots.contains
  match l.findIdx? (fun d => !held.contains d) with
  | some i => some i
  | none =>
    if held.any (fun d => !l.contains d) then some 0xFFFFFFFF
    else if source = 0 then l.findIdx? (fun d => !s.holdsSnap p step d && (s.owesSnap p d || Config.snapMissing step d))
    else none

/-- Why a redistribution is refused, with the status and the detail (R512, R513, R517). -/
def State.redistNo (s : State) (p source step : Nat) (l : List Nat) : Option HRes :=
  if s.jstate p ≠ jsStopped ∨ s.fld (STEP_STATUS_CAUSE p) ≠ jcLost then some (.no s stRedist 0xFFFFFFFF)
  else
    match s.redistBad p source step l with
    | some i => some (.no s stRedist i)
    | none =>
      if source = 1 ∧ (s.job p).rejected.any (fun r => decide (r ≤ step)) then some (refuseRestore s p 7)
      else if Config.noRoom ((s.job p).newMap l) then
        some (.no ((s.setFld (STEP_RESTORE_STATE p) 5).setFld (STEP_RESTORE_RESULT p) 8) stNoRoom 0)
      else none

/-- REDISTRIBUTE: checked and begun, then, each time, it goes on where parts and replicas have come.  The parts of a
checkpoint are read from the buffers of the CKPT_BUFFERS that is outstanding (assumption 32). -/
def execRedistribute (cmd : HostCmd) (s : State) : Out :=
  hostRow 0x0603 cmd (fun x p s =>
    let j := s.job p
    let source := bits (cP x.cmd 0) 0 1
    let step := cP x.cmd 1
    let l := numsOf 2 (cLen x.cmd / 2) (s.rdB (keyHost (cData x.cmd)) (cLen x.cmd))
    if j.restore.any Restore.absorb then .stay (s.restoreOn p)
    else if s.partState p ≠ ptStarted ∨ j.restore.isSome then .badState s p
    else if cLen x.cmd % 2 ≠ 0 then .no s stBadLength
    else
      match s.redistNo p source step l with
      | some r => r
      | none =>
        let s1 := s.remap p (j.newMap l)
        if source = 0 then
          let s1 := s1.beginRestore p ⟨step, false, true, none⟩
          .stay (((l.foldl (fun s d => s.handOver p d) s1).absorbAll p l).restoreOn p)
        else
          match s.ckCmd p 0 with
          | none => .stay s
          | some y =>
            match s1.openAll p step ((s1.job p).hosted s.me) (s.getBufs (s.bufsOf y.cmd)) with
            | none => refuseRestore s p 5
            | some (ps, h, body) =>
              match s.chainTarget p step [] (ptHead h) with
              | none => refuseRestore s p 6
              | some target => .stay (((s1.loadAll p step ps body (s.annexOf p [] (ptHead h))).beginRestore p ⟨step, false, true, target⟩).restoreOn p)) s

/-! ### Records of other devices (10 R368, R372; assumption 28) -/

/-- A piece of a row put among those of its kind. -/
def State.putPiece (s : State) (p kind tid row off : Nat) (b : List Byte) : State :=
  let old := ((s.job p).arrivals.find? (RowPieces.of kind tid row)).map RowPieces.segs
  (s.dropPieces p kind tid row).modJob p (fun j => { j with
    arrivals := j.arrivals ++ [⟨kind, tid, row, (old.getD []).filter (fun e => e.1 != off) ++ [(off, b)]⟩] })

/-- A piece of a row from device `src`, in whatever order it comes (11 R400): hot copies reach the hot region when they are whole,
records and deltas their arrival row, the move of a row its directory. -/
def State.rowIn (s : State) (p src : Nat) (d : List Byte) : State :=
  let kind := bits (wordAt d 0) 2 2
  let tid := bits (wordAt d 0) 16 16
  let row := sgOff d
  if kind = 3 then s.moveIn p src tid row (d.drop 16)
  else
    let s := s.putPiece p kind tid row (wordAt d 4) (d.drop 16)
    if kind = 2 then
      match (s.job p).whole 2 tid row (s.hotBytes p tid) with
      | some b =>
        if (s.job p).hotDue.contains (tid, row) then
          ((s.putHot p tid row b).dropPieces p 2 tid row).modJob p (fun j => { j with hotDue := j.hotDue.filter (· != (tid, row)) })
        else s
      | none => s
    else ((s.job p).moves.filter (fun m => m.tid == tid && m.row == row)).foldl (fun s m => s.landMove p src m) s

/-- MIGRATION_RECORD. -/
def execMigrationRecord (lam : Fin 256) (frame : List Byte) (s : State) : Out :=
  receivePart 5 lam frame (fun _ _ d => sgForm d == 3) (fun _ _ d => decide (16 < d.length)) (fun s p d => s.rowIn p (hSrc frame) d) s

end Sys2Proof.Machine
end

