-- ==== Sys2Proof/Machine/Kem.lean ====
section
/-! DEFINITION. ML-KEM-1024 (FIPS 203; 16 R547, R548), with SHA-3 and SHAKE (FIPS 202).  Bytes are numbers below 256. -/

namespace Sys2Proof.Machine

/-! ### Keccak (FIPS 202) -/

def rotl64 (a k : Nat) : Nat := (a <<< k) % 2 ^ 64 ||| a >>> (64 - k)

/-- Offsets of the step rho, lane x + 5y. -/
def rhoOff : List Nat :=
  [0, 1, 62, 28, 27, 36, 44, 6, 55, 20, 3, 10, 43, 25, 39, 41, 45, 15, 21, 8, 18, 2, 61, 56, 14]

/-- The bit register that gives the round constants. -/
def rcStep (r : Nat) : Nat := if r < 128 then 2 * r else (2 * r) ^^^ 0x171

def rcBits : Nat → Nat → List Nat
  | 0, _ => []
  | n + 1, r => r % 2 :: rcBits n (rcStep r)

/-- The constant of a round of the step iota. -/
def keccakRc (round : Nat) : Nat :=
  ((List.range 7).map (fun j => ((rcBits 168 1).getD (7 * round + j) 0) * 2 ^ (2 ^ j - 1))).foldl (· + ·) 0

def keccakRound (st : List Nat) (rc : Nat) : List Nat :=
  let c := (List.range 5).map (fun x => (List.range 5).foldl (fun a y => a ^^^ nthD st (x + 5 * y)) 0)
  let d := (List.range 5).map (fun x => nthD c ((x + 4) % 5) ^^^ rotl64 (nthD c ((x + 1) % 5)) 1)
  let a := (List.range 25).map (fun i => rotl64 (nthD st i ^^^ nthD d (i % 5)) (nthD rhoOff i))
  -- pi: lane (x, y) comes from (x + 3y, x)
  let b := (List.range 25).map (fun i => nthD a ((i % 5 + 3 * (i / 5)) % 5 + 5 * (i % 5)))
  let e := (List.range 25).map (fun i =>
    nthD b i ^^^ ((2 ^ 64 - 1 - nthD b ((i + 1) % 5 + i / 5 * 5)) &&& nthD b ((i + 2) % 5 + i / 5 * 5)))
  match e with
  | z :: r => (z ^^^ rc) :: r
  | [] => []

def keccakF (st : List Nat) : List Nat := (List.range 24).foldl (fun s k => keccakRound s (keccakRc k)) st

def keccakLanes : Nat → List Nat → List Nat
  | 0, _ => []
  | n + 1, l => bytesNat (l.take 8) :: keccakLanes n (l.drop 8)

def keccakAbsorb (rate : Nat) : Nat → List Nat → List Nat → List Nat
  | 0, st, _ => st
  | n + 1, st, m =>
    let blk := keccakLanes 25 (m.take rate ++ List.replicate (200 - rate) 0)
    keccakAbsorb rate n (keccakF (xorL st blk)) (m.drop rate)

def keccakSqueeze (rate : Nat) : Nat → List Nat → List Nat
  | 0, _ => []
  | n + 1, st => (st.flatMap (natBytes 8)).take rate ++ keccakSqueeze rate n (keccakF st)

/-- The sponge: rate in bytes, suffix with the first bit of the padding, message, `n` bytes out. -/
def sponge (rate suffix : Nat) (m : List Nat) (n : Nat) : List Nat :=
  let k := rate - m.length % rate
  let pad := if k = 1 then [suffix + 0x80] else suffix :: List.replicate (k - 2) 0 ++ [0x80]
  let l := m ++ pad
  (keccakSqueeze rate ((n + rate - 1) / rate) (keccakAbsorb rate (l.length / rate) (List.replicate 25 0) l)).take n

def sha3_256 (m : List Nat) : List Nat := sponge 136 0x06 m 32
def sha3_512 (m : List Nat) : List Nat := sponge 72 0x06 m 64
def shake128 (m : List Nat) (n : Nat) : List Nat := sponge 168 0x1F m n
def shake256 (m : List Nat) (n : Nat) : List Nat := sponge 136 0x1F m n

/-! ### Polynomials of 256 coefficients modulo q (FIPS 203, 2.4, 4.3) -/

def kq : Nat := 3329

def pAdd (a b : List Nat) : List Nat := List.zipWith (fun x y => (x + y) % kq) a b
def pSub (a b : List Nat) : List Nat := List.zipWith (fun x y => (x + kq - y) % kq) a b
def pScale (z : Nat) (a : List Nat) : List Nat := a.map (fun x => z * x % kq)
def pZero : List Nat := List.replicate 256 0

/-- The seven bits of a number in reverse. -/
def bitRev7 (i : Nat) : Nat := ((List.range 7).map (fun k => i / 2 ^ k % 2 * 2 ^ (6 - k))).foldl (· + ·) 0

def powMod (b : Nat) : Nat → Nat
  | 0 => 1
  | n + 1 => b * powMod b n % kq

def zeta (i : Nat) : Nat := powMod 17 (bitRev7 i)

/-- The number-theoretic transform of a block with index `i`; `n` layers are left. -/
def nttFrom : Nat → Nat → List Nat → List Nat
  | 0, _, f => f
  | n + 1, i, f =>
    let lo := f.take (2 ^ (n + 1))
    let t := pScale (zeta i) (f.drop (2 ^ (n + 1)))
    nttFrom n (2 * i) (pAdd lo t) ++ nttFrom n (2 * i + 1) (pSub lo t)

def ntt (f : List Nat) : List Nat := nttFrom 7 1 f

/-- Its inverse, without the factor; the blocks' zetas come in reverse. -/
def nttBack : Nat → Nat → List Nat → List Nat
  | 0, _, f => f
  | n + 1, i, f =>
    let lo := nttBack n (2 * i + 1) (f.take (2 ^ (n + 1)))
    let hi := nttBack n (2 * i) (f.drop (2 ^ (n + 1)))
    pAdd lo hi ++ pScale (zeta i) (pSub hi lo)

def nttInv (f : List Nat) : List Nat := pScale 3303 (nttBack 7 1 f)

/-- Products of pairs modulo X^2 - gamma. -/
def mulPairs : Nat → List Nat → List Nat → List Nat
  | i, a0 :: a1 :: a, b0 :: b1 :: b =>
    let g := powMod 17 (2 * bitRev7 i + 1)
    ((a0 * b0 + a1 * b1 % kq * g) % kq) :: ((a0 * b1 + a1 * b0) % kq) :: mulPairs (i + 1) a b
  | _, _, _ => []

def nttMul (a b : List Nat) : List Nat := mulPairs 0 a b

/-- The sum of products of two vectors of transforms. -/
def nttDot (a b : List (List Nat)) : List Nat := (List.zipWith nttMul a b).foldl pAdd pZero

/-! ### Encoding, compression, sampling (FIPS 203, 4.2) -/

def bitsOf (n v : Nat) : List Nat := (List.range n).map (fun i => v / 2 ^ i % 2)

def bitsToBytes : Nat → List Nat → List Nat
  | 0, _ => []
  | n + 1, l => ((l.take 8).foldr (fun b a => b + 2 * a) 0) :: bitsToBytes n (l.drop 8)

/-- 256 numbers of `d` bits as 32 d bytes. -/
def byteEncode (d : Nat) (f : List Nat) : List Nat := bitsToBytes (32 * d) (f.flatMap (bitsOf d))

def bitGroups (d : Nat) : Nat → List Nat → List Nat
  | 0, _ => []
  | n + 1, l => ((l.take d).foldr (fun b a => b + 2 * a) 0) :: bitGroups d n (l.drop d)

/-- 256 numbers of `d` bits, modulo q where d is 12. -/
def byteDecode (d : Nat) (b : List Nat) : List Nat :=
  (bitGroups d 256 (b.flatMap (bitsOf 8))).map (fun x => if d = 12 then x % kq else x)

/-- x 2^d / q to the nearest integer, modulo 2^d. -/
def kemCompress (d x : Nat) : Nat := (2 * x * 2 ^ d + kq) / (2 * kq) % 2 ^ d
def kemDecompress (d y : Nat) : Nat := (2 * y * kq + 2 ^ d) / (2 * 2 ^ d)

/-- Coefficients below q from a stream of triples of bytes. -/
def rejTriples : Nat → List Nat → List Nat
  | n + 1, a :: b :: c :: r =>
    let x := a + 256 * (b % 16)
    let y := b / 16 + 16 * c
    (if x < kq then [x] else []) ++ (if y < kq then [y] else []) ++ rejTriples n r
  | _, _ => []

/-- SampleNTT.  The stream is cut at 1,344 bytes, of which 448 triples are taken; fewer than 256 of 896 candidates below q has a
chance that FIPS 203 (appendix B) counts as none. -/
def sampleNtt (seed : List Nat) : List Nat :=
  ((rejTriples 448 (shake128 seed 1344)) ++ pZero).take 256

/-- Samples of the centred binomial distribution with eta 2 from 128 bytes. -/
def sampleCbd (b : List Nat) : List Nat :=
  b.flatMap (fun x => [0, 4].map (fun k => (x / 2 ^ k % 2 + x / 2 ^ (k + 1) % 2 + kq - x / 2 ^ (k + 2) % 2 - x / 2 ^ (k + 3) % 2) % kq))

def prf (s : List Nat) (n : Nat) : List Nat := sampleCbd (shake256 (s ++ [n]) 128)

/-! ### K-PKE and ML-KEM with k = 4, eta 2, du = 11, dv = 5 (FIPS 203, 5, 6) -/

/-- Row `i` of the matrix, or its column where `tr`. -/
def kemRow (rho : List Nat) (tr : Bool) (i : Nat) : List (List Nat) :=
  (List.range 4).map (fun j => if tr then sampleNtt (rho ++ [i, j]) else sampleNtt (rho ++ [j, i]))

/-- Encapsulation and decapsulation keys from the seeds d and z. -/
def kemKeyGen (d z : List Nat) : List Nat × List Nat :=
  let g := sha3_512 (d ++ [4])
  let rho := g.take 32
  let sg := g.drop 32
  let s := (List.range 4).map (fun i => ntt (prf sg i))
  let e := (List.range 4).map (fun i => ntt (prf sg (4 + i)))
  let t := List.zipWith pAdd ((List.range 4).map (fun i => nttDot (kemRow rho false i) s)) e
  let ek := t.flatMap (byteEncode 12) ++ rho
  (ek, s.flatMap (byteEncode 12) ++ ek ++ sha3_256 ek ++ z)

def decode4 (d n : Nat) (b : List Nat) : List (List Nat) := (List.range 4).map (fun i => byteDecode d ((b.drop (n * i)).take n))

/-- K-PKE encryption of a 32-byte message with randomness `r`. -/
def kpkeEncrypt (ek m r : List Nat) : List Nat :=
  let t := decode4 12 384 ek
  let rho := ek.drop 1536
  let y := (List.range 4).map (fun i => ntt (prf r i))
  let u := (List.range 4).map (fun i => pAdd (nttInv (nttDot (kemRow rho true i) y)) (prf r (4 + i)))
  let mu := (byteDecode 1 m).map (kemDecompress 1)
  let v := pAdd (pAdd (nttInv (nttDot t y)) (prf r 8)) mu
  u.flatMap (fun f => byteEncode 11 (f.map (kemCompress 11))) ++ byteEncode 5 (v.map (kemCompress 5))

def kpkeDecrypt (dk c : List Nat) : List Nat :=
  let u := (decode4 11 352 c).map (fun f => f.map (kemDecompress 11))
  let v := (byteDecode 5 (c.drop 1408)).map (kemDecompress 5)
  let w := pSub v (nttInv (nttDot (decode4 12 384 dk) (u.map ntt)))
  byteEncode 1 (w.map (kemCompress 1))

/-- Decapsulation, with implicit rejection: the 32-byte secret. -/
def kemDecaps (dk c : List Nat) : List Nat :=
  let ek := (dk.drop 1536).take 1568
  let h := (dk.drop 3104).take 32
  let m := kpkeDecrypt dk c
  let g := sha3_512 (m ++ h)
  if kpkeEncrypt ek m (g.drop 32) = c then g.take 32 else shake256 (dk.drop 3136 ++ c) 32

end Sys2Proof.Machine
end

