-- ==== Sys2Proof/Machine/Registers.lean ====
section
/-! DEFINITION. Register accesses (20 R638 to R649, 16 R551, R555): the BAR0 maps, the access codes, held writes, mirrors. -/

namespace Sys2Proof.Machine

/-! ### Where an access goes (R558, R559, R647) -/

/-- The PF0 address of an offset in a partition block. -/
def blockAddr (p off : Nat) : Nat :=
  if 0x800 ≤ off ∧ off < 0x808 then 0x4800100 + 8 * p + off % 8
  else if 0x808 ≤ off ∧ off < 0x810 then 0x4800200 + 8 * p + off % 8
  else 0xB000000 + p * 0x100000 + off

/-- The address at which a BAR0 offset of a function is held: PF0's own map, or the partition block and the ring blocks
of a partition function; none where nothing is there. -/
def baseAddr (fn off : Nat) : Option Nat :=
  if fn = 0 then
    if 0xB000000 ≤ off ∧ off < 0xB800000 then some (blockAddr ((off - 0xB000000) / 0x100000) (off % 0x100000))
    else if off < 0x10000000 then some off else none
  else if off < 0x100000 then some (blockAddr (fn - 1) off)
  else if 0x1000000 ≤ off ∧ off < 0x1001000 then some (0x10000000 * fn + off)
  else none

/-- The byte of a function's MSI-X table at a BAR0 offset (R558, R559). -/
def msixOff (fn off : Nat) : Option Nat :=
  let base := if fn = 0 then 0x300000 else 0x3000000
  if base ≤ off ∧ off < base + 0x8000 then some (off - base) else none

/-- The first vector of a word of a function's pending bits (R558, R559). -/
def pbaVec (fn off : Nat) : Option Nat :=
  let base := if fn = 0 then 0x308000 else 0x3008000
  if base ≤ off ∧ off < base + 0x100 then some (8 * (off - base)) else none

/-- The partition whose state governs a register. -/
def State.addrOwner (s : State) (a : Nat) : Option Nat :=
  if 0xB000000 ≤ a ∧ a < 0xB800000 then some ((a - 0xB000000) / 0x100000)
  else if 0x4800100 ≤ a ∧ a < 0x4800140 then some ((a - 0x4800100) / 8)
  else if 0x8000000 ≤ a ∧ a < 0xA800000 then s.clusterPart ((a - 0x8000000) / 0x100000)
  else if 0x5000000 ≤ a ∧ a < 0x5800000 then s.secPart ((a - 0x5000000) / 0x100000)
  else none

/-- Registers whose writes wait for a boundary while their partition is STARTED (R643). -/
def boundaryReg (a : Nat) : Bool :=
  let off := a % 0x100000
  if 0xB000000 ≤ a ∧ a < 0xB800000 then
    (0x18 ≤ off && off < 0x20) || (0x280 ≤ off && off < 0x2C8) || (0x400 ≤ off && off < 0x600)
  else if 0x8000000 ≤ a ∧ a < 0xA800000 then off < 0x88 || (0x1000 ≤ off && off < 0x1400)
  else if 0x5000000 ≤ a ∧ a < 0x5800000 then (0x1000 ≤ off && off < 0x1840) || (0x2000 ≤ off && off < 0x2200)
  else false

/-- Registers whose writes are commands of their own: token channels, rings, fabric start, lasers, the ledger's DRAINED, the
mirror's head, ERR_CTRL, fatal latches. -/
def ownRow (a : Nat) : Bool :=
  let w := a / 8 * 8
  let win := (a - 0x8010000) % 0x100000 % 0x4000
  w == 0x4800000 || (0x4000000 ≤ a && a < 0x4800000 && (w - 0x4000000) % 0x40000 == 0x18) || w == 0x3000028 || w == 0x3000030
    || (0x3000100 ≤ a && a < 0x3000300) || (0xB000000 ≤ a && a < 0xB800000 && w % 0x100000 == 0x238)
    || (0x8000000 ≤ a && a < 0xA800000 && 0x10000 ≤ a % 0x100000 && a % 0x100000 < 0x60000 && 0x200 ≤ win && win < 0x400)
    || (0x100000 ≤ a && a < 0x101000 && w % 0x40 == 0x10) || (0x10000000 ≤ a && w % 0x40 == 0x10)

/-! ### Reads (R555, R640) -/

/-- The registers that hold the 8-byte word at an address: address, bytes, fields. -/
def regsOf (w : Nat) : List (Nat × Nat × List FldDesc) :=
  regRows.filterMap (fun r => if r.base ≤ w then (inDims r.size r.dims (w - r.base)).map (fun o => (w - o, r.size, r.flds)) else none)

/-- A field of an 8-byte word as it reads: exact, or as a partition function sees it. -/
def State.readFld (s : State) (exact : Bool) (ra : Nat) (d : FldDesc) : Nat :=
  let f := d.fld ra
  match d.acc with
  | .wo => 0
  | .roq => if exact then s.fld f else Tab.get s.e.roq f.rst f.key / 1024 * 1024
  | _ => s.fld f

/-- The core and the offset in its window of a cluster address (R646). -/
def coreWindow (a : Nat) : Option (Nat × Nat) :=
  let o := a % 0x100000
  if 0x8000000 ≤ a ∧ a < 0xA800000 ∧ 0x10000 ≤ o ∧ o < 0x60000 then
    some ((a - 0x8000000) / 0x100000 * 20 + (o - 0x10000) / 0x4000, (o - 0x10000) % 0x4000)
  else none

/-- An 8-byte word of the registers in force: bits [64 i + 63 : 64 i] of a register lie in its word i (R639), so a field may lie in
two words. -/
def State.readRegs (s : State) (exact : Bool) (w : Nat) : Nat :=
  ((regsOf w).flatMap (fun r =>
    let lo := (w - r.1) * 8
    (r.2.2.filter (fun d => decide (d.lo < lo + 64) && decide (lo < d.lo + d.len))).map (fun d =>
      bits (s.readFld exact r.1 d * 2 ^ d.lo) lo 64))).foldl (· + ·) 0

/-- An 8-byte word in force: of the descriptor window of a core (R646), or of the registers. -/
def State.readWord (s : State) (exact : Bool) (w : Nat) : Nat :=
  match coreWindow w with
  | some (core, o) => if 0x100 ≤ o ∧ o < 0x1D8 then s.windowF core (o - 0x100) 8 else s.readRegs exact w
  | none => s.readRegs exact w

/-- Where a mirror of a partition block copies from (R648); none where it reads as zero. -/
def State.mirrorOf (s : State) (p off : Nat) : Option Nat :=
  let secs := s.partSecs p
  if 0x1000 ≤ off ∧ off < 0x3000 then
    let i := (off - 0x1000) / 16
    if secs.contains (i / 64) ∧ s.fld (SB_TABLE_PART (i / 64) (i % 64)) = p then
      some (0x5002200 + i / 64 * 0x100000 + i % 64 * 8 + (if off % 16 < 8 then 0 else 0x200))
    else none
  else if 0x3000 ≤ off ∧ off < 0x3140 then
    let c := (off - 0x3000) / 8
    if secs.contains (c / 5) then some (0x8000108 + c * 0x100000) else none
  else if 0x80000 ≤ off ∧ off < 0x94000 then
    let c := (off - 0x80000) / 0x800
    let o := (off - 0x80000) % 0x800
    if !secs.contains (c / 5) then none
    else if o < 0x500 then some (0x8010800 + c * 0x100000 + o / 0x40 * 0x4000 + o % 0x40 / 8 * 8)
    else if o / 8 * 8 = 0x700 then some (0x8000100 + c * 0x100000)
    else none
  else if 0xA0000 ≤ off ∧ off < 0xA2000 then
    let st := (off - 0xA0000) / 0x400
    let o := (off - 0xA0000) % 0x400
    if !secs.contains st then none
    else if o < 0x200 ∨ o / 8 * 8 = 0x208 then some (0x5000000 + st * 0x100000 + o / 8 * 8) else none
  else if 0xB0000 ≤ off ∧ off < 0xB0400 then
    let n := (off - 0xB0000) / 0x20
    if secs.contains (n % 16 / 2) ∧ (off - 0xB0000) % 0x20 < 16 then
      some (0x4000008 + n * 0x40000 + (off - 0xB0000) % 0x20 / 8 * 8)
    else none
  else none

/-- Whether a block answers in Stand (19 R614). -/
def standBlock (a : Nat) : Bool := a < 0x4000000 || 0x10000000 ≤ a

/-- How a BAR0 read completes (R592, R638, 16 R519, R551); none while the hub holds it because Stand has gated its block (19 R614). -/
def State.barRead (s : State) (q : Requester) (off size : Nat) : Option Answer :=
  let fn := q.fn.val
  if !s.hubUp then some .completerAbort
  else if s.fnShut q then some .unsupported
  else if !(size == 4 || size == 8) || off % size != 0 then some .completerAbort
  else if let some o := msixOff fn off then
    some (.data ((List.range size).map (fun i =>
      -- the mask bit is held inverted (17 R572)
      let b := s.h.msix.rd (msixKey fn (o + i))
      if (o + i) % 16 = 12 then b ^^^ 1 else b)))
  else if let some v := pbaVec fn off then
    some (.data (leBytes size (((List.range (8 * size)).map (fun i => b2n (s.h.pba.contains (fn, v + i)) * 2 ^ i)).foldl (· + ·) 0)))
  else if s.standing && (baseAddr fn off).any (fun a => !standBlock a) then none
  else
    let exact := fn == 0
    let blk := if fn = 0 then (if 0xB000000 ≤ off ∧ off < 0xB800000 then some ((off - 0xB000000) / 0x100000, off % 0x100000) else none)
      else if off < 0x100000 then some (fn - 1, off) else none
    let w := match blk with
      | some (p, o) => if o / 8 * 8 = 0x40 then some 0 else if 0x1000 ≤ o then s.mirrorOf p (o / 8 * 8) else (baseAddr fn off).map (· / 8 * 8)
      | none => (baseAddr fn off).map (· / 8 * 8)
    let v := (w.map (s.readWord exact)).getD 0
    some (.data (leBytes size (v / 2 ^ (8 * (off % 8)))))

/-! ### Writes (R638 to R643) -/

/-- A write of some bits of a field held to the boundary; it replaces what is held for the same bits (R638, R643). -/
def State.holdFld (s : State) (p : Nat) (f : Fld) (v mask : Nat) : State :=
  let old := (s.j.held.find? (fun h => h.fld == f)).getD ⟨p, f, 0, 0⟩
  { s with j := { s.j with held := s.j.held.filter (fun h => h.fld != f)
      ++ [⟨p, f, mergeBits old.value v mask f.len, old.mask ||| mask % 2 ^ f.len⟩] } }

/-- TRUST_OK is set only where the settings allow it (16 R540). -/
def State.trustAllowed (s : State) : Bool :=
  let g := s.fld SEC_OTP_GEN_SET
  g != 7 && bit (s.sec.otp.rdLE (0xC0 + 64 * g) 1) 3

/-- One field of a written word, by its access code. -/
def State.writeFld (s : State) (ra : Nat) (d : FldDesc) (v mask : Nat) : State :=
  let f := d.fld ra
  let m := bits mask (d.lo % 64) d.len
  let x := bits v (d.lo % 64) d.len
  let old := s.fld f
  let st := (s.addrOwner ra).map s.partState
  if m = 0 then s
  -- a write of ROUNDS 0 leaves ARB_HOLD_MAX as it is (08 R291)
  else if 0x6000000 ≤ ra ∧ ra < 0x6000000 + 1824 * 0x100 ∧ ra % 0x100 = 0x50 ∧ d.lo = 32 ∧ mergeBits old x m d.len = 0 then s
  else
    match d.acc with
    | .rw =>
      match s.addrOwner ra with
      | some p => if boundaryReg ra && st == some ptStarted then s.holdFld p f x m
        else s.putFld f (mergeBits old x m d.len)
      | none => s.putFld f (mergeBits old x m d.len)
    | .rws => s.setFld f (mergeBits old x m d.len)
    | .rwl =>
      if st != some ptBuilding then s
      else if ra % 0x100000 = 0x2D0 ∧ d.lo = 32 ∧ x &&& m ≠ 0 ∧ !s.trustAllowed then s
      else s.putFld f (mergeBits old x m d.len)
    | .w1c => s.setFld f (old &&& (2 ^ d.len - 1 - (x &&& m)))
    | _ => s

/-- One 8-byte word of a register written. -/
def State.writeFlds (s : State) (ra w : Nat) (l : List FldDesc) (v mask : Nat) : State :=
  (l.filter (fun d => ra + d.lo / 64 * 8 == w)).foldl (fun s d => s.writeFld ra d v mask) s

/-- A held word of a wide register (R639): its value, and above bit 64 the bits that have been written; 0 where none is held. -/
def State.heldWord (s : State) (w : Nat) : Nat := Tab.get s.e.heldWords 0 w
def State.setHeldWord (s : State) (w v : Nat) : State :=
  { s with e := { s.e with heldWords := Tab.put s.e.heldWords 0 w v } }

/-- Some bits of a lower word written: they are held beside those held before. -/
def State.holdWord (s : State) (w v mask : Nat) : State :=
  let h := s.heldWord w
  s.setHeldWord w (mergeBits (h % 2 ^ 64) v mask 64 + 2 ^ 64 * (h / 2 ^ 64 ||| mask % 2 ^ 64))

/-- Whether a write of a register is to be ignored: every field is RWL and its partition is not BUILDING (R640). -/
def State.rwlShut (s : State) (ra : Nat) (l : List FldDesc) : Bool :=
  l.all (fun d => d.acc == .rwl) && (s.addrOwner ra).map s.partState != some ptBuilding

/-- A write of a register of one word, or of a word of a wider one (R639). -/
def State.writeReg1 (s : State) (w : Nat) (r : Nat × Nat × List FldDesc) (v mask : Nat) : State :=
  let ra := r.1
  let top := ra + r.2.1 - 8
  if w = top then
    let low := (List.range ((r.2.1 - 8) / 8)).map (fun i => ra + 8 * i)
    let s := low.foldl (fun s x =>
      let h := s.heldWord x
      if h = 0 then s else (s.writeFlds ra x r.2.2 (h % 2 ^ 64) (h / 2 ^ 64)).setHeldWord x 0) s
    s.writeFlds ra w r.2.2 v mask
  else if s.rwlShut ra r.2.2 then s
  else s.holdWord w v mask

/-- Bytes written into a descriptor window, unless its core runs a task (03 R117). -/
def State.writeWindow (s : State) (core off : Nat) (b : List Byte) : State :=
  if s.taskRuns core then s.refuseLoad core off
  else { s with core := { s.core with window := s.core.window.wrBytes (256 * core + off) (b.take (216 - off)) } }

/-- A write of the descriptor of a core, a register of 216 bytes: its lower words are held until the highest is written
(R639, R646), and all are refused while the core runs a task (03 R117).  `w` is the address of the word. -/
def State.writeDesc (s : State) (core o w v mask : Nat) : State :=
  if s.taskRuns core then s.refuseLoad core o
  else
    let i := (o - 0x100) / 8
    let at_ (j : Nat) : Nat := w - 8 * i + 8 * j
    let put (s : State) (j v mask : Nat) : State :=
      s.writeWindow core (8 * j) (leBytes 8 (mergeBits (s.windowF core (8 * j) 8) v mask 64))
    if i = 26 then
      let s := (List.range 26).foldl (fun s j =>
        let h := s.heldWord (at_ j)
        if h = 0 then s else (put s j (h % 2 ^ 64) (h / 2 ^ 64)).setHeldWord (at_ j) 0) s
      put s 26 v mask
    else s.holdWord w v mask

/-- A write of CL_TASK_STATE (R651): with both bits set, HALT of a running task and START of any other. -/
def State.writeTask (s : State) (core v : Nat) : State :=
  if bit v 9 ∧ s.taskRuns core then s.haltCore core
  else if bit v 8 ∧ s.startable core then s.launch core
  else s

/-- A write of CL_TOK_LIMIT, refused while the core runs a task (R643, R652). -/
def State.writeLimit (s : State) (core o v mask : Nat) : State :=
  if s.taskRuns core then s.refuseLoad core o
  else
    let ch := (o - 0x200) / 8
    let old := s.fld (CL_TOK_LIMIT_LIMIT (clusterOf core) (subOf core) ch)
      + s.fld (CL_TOK_LIMIT_OPEN (clusterOf core) (subOf core) ch) * 2 ^ 24
    s.openChannel core ch (mergeBits old v mask 64)

/-- A register write at its held address: `size` bytes of `v`. -/
def State.writeAt (s : State) (a size v : Nat) : State :=
  let w := a / 8 * 8
  let sh := 8 * (a % 8)
  let mask := (2 ^ (8 * size) - 1) * 2 ^ sh
  let val := v % 2 ^ (8 * size) * 2 ^ sh
  match coreWindow a with
  | some (core, o) =>
    if o < 8 then s.writeTask core val
    else if 0x100 ≤ o ∧ o < 0x1D8 then s.writeDesc core o w val mask
    else if 0x200 ≤ o ∧ o < 0x400 then s.writeLimit core o val mask
    else if isMatrix core ∧ 0x900 ≤ o ∧ o < 0x908 ∧ s.taskRuns core then s.refuseLoad core o
    else (regsOf w).foldl (fun s r => s.writeReg1 w r val mask) s
  | none => (regsOf w).foldl (fun s r => s.writeReg1 w r val mask) s

/-- The AUX0 pin is settled when its configuration is written (19 R634, R635). -/
def State.settleAux (s : State) : State :=
  if s.on PM_AUX_CFG_PPS_EN && s.on PM_AUX_CFG_FAULT2_EN then s.setFld PM_CLAIM_AUX0_LOST 1 else s

/-- Whether an address is HUB_RING_CMD or HUB_RING_CPL of a ring that is enabled (R565). -/
def State.ringLocked (s : State) (a : Nat) : Bool :=
  let at_ (fn o : Nat) : Bool := decide (o < 0x1000) && decide (o % 0x40 < 0x10) && s.on (HUB_RING_CTRL_EN fn (o / 0x40))
  if 0x10000000 ≤ a then at_ (a / 0x10000000) (a % 0x10000000 - 0x1000000) else decide (0x100000 ≤ a) && at_ 0 (a - 0x100000)

/-- A write of BAR0 that has no row of its own.  It is discarded where it is misaligned, where its function takes no request (16
R519, R551) or its partition is FENCED (16 R522), and at the bases of a ring that is enabled (R565). -/
def State.writeBar (s : State) (q : Requester) (offset size : Nat) (value : Word) : State :=
  let fn := q.fn.val
  if !s.hubUp || !(size == 4 || size == 8) || offset % size != 0 then s
  else if s.fnShut q then s
  else
    match msixOff fn offset with
    | some o =>
      -- the mask bit is held inverted (17 R572)
      let flip := if o % 16 = 12 ∨ (o % 16 = 8 ∧ size = 8) then (if o % 16 = 12 then 1 else 2 ^ 32) else 0
      let s := { s with h := { s.h with msix := s.h.msix.wrBytes (msixKey fn o) (leBytes size (value.toNat ^^^ flip)) } }
      s.unmask fn (o / 16)
    | none =>
      match baseAddr fn offset with
      | none => s
      | some a =>
        let fenced := fn != 0 && offset < 0x100000 && s.partState (fn - 1) == ptFenced
        if ownRow a || fenced || s.ringLocked a then s
        else if s.standing && !standBlock a then s.holdReq (.write q offset size value)
        else
          let s := s.writeAt a size value.toNat
          if a / 8 * 8 = 0x1000040 then s.settleAux else s

/-- REGISTER_WRITE: a write that has no row of its own; of configuration space it is the enable of MSI-X (17 R562), which the fail-safe
state leaves reachable (18 R594). -/
def execRegisterWrite (q : Requester) (place : WriteTo) (value : Word) (s : State) : Out :=
  match place with
  | .bar offset size => .next (s.asked.writeBar q offset size value)
  | .msixEnable => if s.pm.released && !s.pm.moor then .next (s.asked.enableMsix q.fn.val (bit value.toNat 0)) else .next s

/-- The answer of a read. -/
def State.answer (s : State) (a : Answer) : State := { s with e := { s.e with answers := s.e.answers ++ [a] } }

/-! ### Control tokens (01 R32, R39) -/

/-- CONTROL_WRITE: a control-write token takes effect at its unit between two instructions (01 R39, 03 R117). -/
def execControlWrite (tok : Word) (target : CtlTarget) (s : State) : Out :=
  arrive 4 tok (fun s =>
    match target with
    | .reg a size v => if (size = 4 ∨ size = 8) ∧ a % size = 0 then s.writeAt a size v.toNat else s
    | .descriptor core off b => if off < 216 ∧ tokCore tok = some core.val then s.writeWindow core off b else s
    | .program core w ws =>
      if tokCore tok ≠ some core.val then s
      else if s.taskRuns core then s.refuseLoad core (8 * w)
      else s.wrB (keyProgram core (8 * w)) ((ws.flatMap (fun x => leBytes 8 x.toNat)).take (65536 - 8 * w))) s

/-- CONTROL_READ: the unit answers with a read-reply token whose VALUE holds the low bits of what was asked (01 R32). -/
def execControlRead (tok : Word) (target : CtlTarget) (s : State) : Out :=
  arrive 5 tok (fun s =>
    let b : List Byte := match target with
      | .reg a size _ => (leBytes 8 (s.readWord true (a / 8 * 8) / 2 ^ (8 * (a % 8)))).take size
      | .descriptor core off d => s.core.window.rdBytes (256 * core + off) d.length
      | .program core w ws => s.rdB (keyProgram core (8 * w)) (8 * ws.length)
    let s := s.answer (.data b)
    s.sendTok (mkTok 6 (tokSrcNode tok) (tokSrcSub tok) (tokDstNode tok) (tokDstSub tok) (tokChannel tok) (leNat b))) s

/-! ### Writes with a row of their own -/

/-- TOKEN_CHANNEL_OPEN: a write of CL_TOK_LIMIT, refused while the core runs (20 R643, R652). -/
def execTokenChannelOpen (c : Fin 800) (ch : Fin 64) (value : Word) (s : State) : Out :=
  let s := s.asked
  if s.standing then .next (s.holdReq (.openChannel c ch value))
  else if !s.dieUp then .next s
  else if s.taskRuns c then .next (s.refuseLoad c (0x200 + 8 * ch)) else .next (s.openChannel c ch value.toNat)

end Sys2Proof.Machine
end

