-- ==== Sys2Proof/Machine/Security.lean ====
section
/-! DEFINITION. The security controller (16): partitions, keys, firmware, OTP, identity, quotes, debug tokens. -/

namespace Sys2Proof.Machine

/-! ### The OTP (R535 to R540) -/

/-- OTP bits burnt: a burnt bit stays. -/
def State.burn (s : State) (off n v : Nat) : State :=
  { s with sec := { s.sec with otp := s.sec.otp.wrLE off n (s.sec.otp.rdLE off n ||| v) } }

/-- The items of R537: offset of generation 0, bytes of a generation, first mark bit, register field. -/
structure OtpItem where
  base : Nat
  size : Nat
  mark : Nat
  fld : Fld

def otpItem (i : Nat) : OtpItem :=
  if i % 3 = 0 then ⟨0x20, 32, 0, SEC_OTP_GEN_ROOT⟩
  else if i % 3 = 1 then ⟨0x1C0, 32, 8, SEC_OTP_GEN_OPK⟩
  else ⟨0xC0, 64, 4, SEC_OTP_GEN_SET⟩

/-- The generation that the next programming writes: above every one that is marked or has burnt bits (R537). -/
def State.nextGen (s : State) (x : OtpItem) : Nat :=
  let used (g : Nat) : Bool := bit (s.sec.otp.rdLE 0xA0 4) (x.mark + g) || s.sec.otp.rdLE (x.base + x.size * g) x.size != 0
  ((List.range 4).filter used).foldl (fun m g => max m (g + 1)) 0

/-- The root hash and the operator key hash in force; empty where none is written. -/
def State.rootHash (s : State) : List Byte :=
  if s.fld SEC_OTP_GEN_ROOT = 7 then [] else s.sec.otp.rdBytes (0x20 + 32 * s.fld SEC_OTP_GEN_ROOT) 32
def State.opkHash (s : State) : List Byte :=
  if s.fld SEC_OTP_GEN_OPK = 7 then [] else s.sec.otp.rdBytes (0x1C0 + 32 * s.fld SEC_OTP_GEN_OPK) 32

/-- The settings block in force; empty where none is written. -/
def State.settings (s : State) : List Byte :=
  if s.fld SEC_OTP_GEN_SET = 7 then [] else s.sec.otp.rdBytes (0xC0 + 64 * s.fld SEC_OTP_GEN_SET) 64

/-- The first word of the settings in force, or its defaults (R540). -/
def State.settingsWord (s : State) : Nat := if s.settings.isEmpty then 4 else leNat (s.settings.take 4)

/-- HSS verification of bytes (RFC 8554, NIST SP 800-208). -/
def hssOk (pub msg sig : List Byte) : Bool := hssVerify (toNats pub) (toNats msg) (toNats sig)

/-- Whether a signature verifies under the key with a hash; never where no key is in force. -/
def sigOk (hash msg sig : List Byte) : Bool :=
  let pub := Config.authKey msg sig
  !hash.isEmpty && shaBytes pub == hash && hssOk pub msg sig

/-- A settings block with a reserved bit set, or an operating point of 3. -/
def badSettings (v : List Byte) : Bool := leNat v / 2 ^ 5 != 0 || bits (leNat v) 1 2 == 3

/-- OTP_PROGRAM (R537, R538). -/
def execOtpProgram (cmd : HostCmd) (s : State) : Out :=
  hostRow 0x0708 cmd (fun x _ s =>
    let (it, value, msg, sig) := Config.otpRequest (s.rdB (keyHost (cData x.cmd)) (cLen x.cmd))
    let o := otpItem it
    let v := fitB o.size value
    let key := if it % 3 = 0 ∨ (it % 3 = 1 ∧ s.fld SEC_OTP_GEN_OPK = 7) then s.rootHash else s.opkHash
    let g := s.nextGen o
    if !sigOk key msg sig then .no s stSignature
    else if it % 3 = 2 ∧ badSettings v then .no s stReserved
    else if 4 ≤ g then .no s stOtpFull
    else .ok (((s.burn (o.base + o.size * g) o.size (leNat v)).burn 0xA0 4 (2 ^ (o.mark + g))).setFld o.fld g)) s

/-- SVN_COMMIT (R535). -/
def execSvnCommit (cmd : HostCmd) (s : State) : Out :=
  hostRow 0x0707 cmd (fun _ _ s =>
    if s.sec.fwSvn ≤ s.fld SEC_OTP_GEN_SVN then .no s stSvn
    else .ok ((s.burn 0x240 8 (2 ^ s.sec.fwSvn - 1)).setFld SEC_OTP_GEN_SVN s.sec.fwSvn) s.sec.fwSvn) s

/-! ### Boot (R532 to R534, 17 R561, R562) -/

def bootBytes : Nat := 0x2100000

/-- BOOT_WINDOW_WRITE (17 R561). -/
def execBootWindowWrite (offset : Nat) (data : List Byte) (s : State) : Out :=
  let s := s.asked
  if !s.hubUp then .next s
  else if s.fld SEC_BOOT_STATE = 0 ∨ s.fld SEC_BOOT_STATE = 3 then
    .next (s.wrB (keyBoot offset) (data.take (bootBytes - offset)))
  else .next (s.bump HUB_FW_STATUS_WIN_DISCARD 1)

/-- The image in the boot window: a field of its header, a range of its bytes. -/
def State.img (s : State) (off n : Nat) : Nat := s.rd (keyBoot off) n
def State.imgBody (s : State) : Nat := s.img 4 4
def State.imgSig (s : State) : Nat := s.img 0xC 4

/-- SEC_BOOT.REASON of the first check that fails; 0 where every one passes (R533). -/
def State.imageReason (s : State) (len : Nat) : Nat :=
  if s.img 0 2 ≠ 1 ∨ s.img 0x10 0x30 ≠ 0 ∨ s.img 0x7C 4 ≠ 0 ∨ 64 < s.img 8 4 then 1
  else if s.imgBody % 64 ≠ 0 ∨ 2 ^ 25 < s.imgBody ∨ len ≠ 128 + s.imgBody + s.imgSig ∨ bootBytes < len then 5
  else if shaBytes (s.rdB (keyBoot 0x40) 60) ≠ s.rootHash then 2
  else if !hssOk (s.rdB (keyBoot 0x40) 60) (s.rdB (keyBoot 0) (128 + s.imgBody))
      (s.rdB (keyBoot (128 + s.imgBody)) s.imgSig) then 3
  else if s.img 8 4 < s.fld SEC_OTP_GEN_SVN then 4
  else 0

/-- SEC_BOOT.STATE changed to RUNNING or REJECTED: vector 0 of PF0 (17 R562). -/
def State.setBoot (s : State) (st reason : Nat) : State :=
  ((s.setFld SEC_BOOT_STATE st).setFld SEC_BOOT_REASON reason).fire 0 0

/-- BOOT_GO: a write of SEC_BOOT_CTRL; the ROM begins to verify the image (R534, 17 R562). -/
def execBootGo (value : Word) (s : State) : Out :=
  let v := value.toNat
  let s := s.asked
  if !s.hubUp || !bit v 0 || !(s.fld SEC_BOOT_STATE == 0 || s.fld SEC_BOOT_STATE == 3) then .next s
  else .next ((s.setFld SEC_BOOT_STATE 1).setFld SEC_BOOT_CTRL_LENGTH (bits v 32 32))

/-- The ROM has verified the image (R533): REJECTED with a reason, or RUNNING with its measurement. -/
def State.verified (s : State) : State :=
  let r := s.imageReason (s.fld SEC_BOOT_CTRL_LENGTH)
  if r ≠ 0 then s.setBoot 3 r
  else
    { s with sec := { s.sec with
      fwDigest := shaBytes (s.rdB (keyBoot 0) (128 + s.imgBody)), fwSvn := s.img 8 4, fabBuild := s.img 2 2 } }.setBoot 2 0

/-- FIRMWARE_READY: the firmware powers the compute dies, trains the stacks, enables the optics and sets READY (17 R562, 19 R629).  What
it drives on the GPIO pins is its own (21 R659). -/
def execFirmwareReady (s : State) : Out :=
  if s.hubUp && s.fld SEC_BOOT_STATE == 2 && !s.on HUB_FW_STATUS_READY then
    let (o, s) := s.free 8
    let (g, s) := s.free 8
    let s := { s with
      fab := { s.fab with enA := true, enB := true }
      pm := { s.pm with dies := true, selfRef := false, gpioOut := BitVec.ofNat 8 o, gpio := BitVec.ofNat 8 g } }
    .next ((s.setFld HUB_FW_STATUS_READY 1).fire 0 0)
  else .next s

/-! ### The identity (R541 to R545) -/

/-- The lowest LEAF bit that reads 0. -/
def State.nextLeaf (s : State) : Option Nat :=
  (List.range 32768).find? (fun i => !(s.sec.otp.rd (0x400 + i / 8)).toNat.testBit (i % 8))

/-- IDENT_READ (R542). -/
def execIdentRead (cmd : HostCmd) (s : State) : Out :=
  hostRow 0x0706 cmd (fun x _ s =>
    let pub := s.topPublic
    let b := pub ++ Config.vendorCert pub
    if cLen x.cmd < b.length then .no s stBadLength
    else .ok (s.wrB (keyHost (cData x.cmd)) b) 0 b.length) s

/-! ### Debug (R552 to R554) -/

/-- A debug record (R554). -/
def debugRecord (us caps parts kind : Nat) (digest : List Byte) : List Byte :=
  leBytes 8 us ++ leBytes 1 caps ++ leBytes 1 parts ++ leBytes 1 kind ++ List.replicate 5 0 ++ fitB 16 digest

/-- A record enters the chain of one partition. -/
def State.chainRecord (s : State) (p : Nat) (r : List Byte) : State :=
  let h := fitB 32 (Tab.get s.sec.dbgHead [] p)
  let s := { s with sec := { s.sec with dbgHead := Tab.put s.sec.dbgHead [] p (shaBytes (h ++ r)) } }
  s.setFld (PART_DBG_COUNT p) (s.fld (PART_DBG_COUNT p) + 1)

/-- A record enters the chain of every partition that exists. -/
def State.chainAll (s : State) (r : List Byte) : State :=
  ((List.range 8).filter (fun p => s.partState p != ptFree)).foldl (fun s p => s.chainRecord p r) s

/-- DEBUG_ATTACH: the token is checked, accepted and recorded. -/
def execDebugAttach (cmd : HostCmd) (s : State) : Out :=
  hostRow 0x0709 cmd (fun x _ s =>
    let b := s.rdB (keyHost (cData x.cmd)) (cLen x.cmd)
    let t := b.take 64
    let f (o n : Nat) : Nat := leNat ((t.drop o).take n)
    if cLen x.cmd ≤ 64 then .no s stBadLength
    else if !sigOk s.opkHash t (b.drop 64) then .no s stSignature
    else if f 0 2 != 1 || 32 ≤ f 2 1 || 8 ≤ f 4 4 || f 0x20 0x20 != 0 then .no s stReserved
    else if f 4 4 != s.fld SEC_OTP_GEN_OPK || (t.drop 8).take 16 != s.topTree.1 || f 0x18 8 != s.fld SEC_BOOT_NONCE_NONCE then
      .no s stToken
    else
      let dg := (shaBytes t).take 16
      let s := { s with sec := { s.sec with tokens := s.sec.tokens ++ [(f 2 1, f 3 1, dg)] } }
      .ok (s.chainAll (debugRecord s.timeUs (f 2 1) (f 3 1) 0 dg))) s

/-- DEBUG_DETACH: every attached token goes, with a record of each. -/
def execDebugDetach (cmd : HostCmd) (s : State) : Out :=
  hostRow 0x070A cmd (fun _ _ s =>
    let s := s.sec.tokens.foldl (fun s t => s.chainAll (debugRecord s.timeUs t.1 t.2.1 1 t.2.2)) s
    .ok { s with sec := { s.sec with tokens := [] } }) s

/-! ### The life of a partition (R519 to R525) -/

/-- Stack memory of some sections zero, its codewords sound; the dump area is left (18 R595). -/
def State.zeroStacks (s : State) (mask : Nat) : State :=
  let inFill (k : Nat) : Bool := stackInSecs mask k && !(decide (s.dumpBase ≤ k) && decide (k < s.stackBytes))
  { s with m := { s.m with
    mem := Tab.drop s.m.mem inFill
    errs := Tab.drop s.m.errs (fun b => inFill (b * 64))
    gen := Tab.drop s.m.gen (fun g => stackInSecs mask (g * 2 ^ 21))
    sweepMap := Tab.drop s.m.sweepMap (fun b => stackInSecs mask (b * 64))
    sweepAt := Tab.drop s.m.sweepAt (bit mask)
    sweepEnd := s.m.sweepEnd.filter (fun st => !bit mask st) } }

/-- The registers of a partition at their reset values (assumption 33). -/
def State.resetBlock (s : State) (p : Nat) : State :=
  let lo := (0xB000000 + p * 0x100000) * 64
  let one (a k : Nat) : Bool := decide (a * 64 ≤ k) && decide (k < (a + 8) * 64)
  { s with regs := Tab.drop s.regs (fun k =>
      (decide (lo ≤ k) && decide (k < lo + 0x100000 * 64)) || one (0x4800100 + 8 * p) k || one (0x4800200 + 8 * p) k) }

/-- The ML-KEM-1024 key pair of two drawn seeds (R547): encapsulation key, decapsulation key. -/
def kemPair (seeds : Nat) : List Byte × List Byte :=
  let k := kemKeyGen ((natBytes 64 seeds).take 32) ((natBytes 64 seeds).drop 32)
  (fitB 1568 (ofNats k.1), ofNats k.2)

/-- A partition created (R520), with a record of every token attached (R554). -/
def State.create (s : State) (p mask : Nat) (opvis : Bool) : State :=
  let (key, s) := s.free 512
  let (kem, s) := s.free 512
  let s := s.resetBlock p
  let s := { s with sec := { s.sec with
    memKeys := Tab.put s.sec.memKeys [] (2 * p) (leBytes 64 key)
    kem := Tab.put s.sec.kem ([], []) p (kemPair kem)
    dbgHead := s.sec.dbgHead.del p } }
  let s := ((s.zeroStacks mask).clearSections mask).dropHeldWords p mask
  let s := (s.setFld (PART_CFG_SECTIONS p) mask).setFld (PART_CFG_OPVIS p) (b2n opvis)
  let s := s.sec.tokens.foldl (fun s t => s.chainRecord p (debugRecord s.timeUs t.1 t.2.1 2 t.2.2)) s
  s.setFld (PART_STATUS_STATE p) ptBuilding

/-- PART_CREATE. -/
def execPartCreate (cmd : HostCmd) (s : State) : Out :=
  hostRow 0x0100 cmd (fun x p s =>
    let mask := bits (cP x.cmd 0) 0 8
    let opvis := bit (cP x.cmd 0) 8
    if s.partState p ≠ ptFree ∨ mask = 0 ∨ (secsOf mask).any (fun i => (s.secPart i).isSome) then .badState s p
    else if opvis ∧ !bit s.settingsWord 4 then .no s stSettings 4
    else if s.on SEC_BOOT_IDENT_EXHAUSTED ∧ !s.on SEC_BOOT_IDENT_READY then .no s stExhausted
    else .ok (s.create p mask opvis)) s

/-- PART_FENCE: cause OPERATOR or TENANT (R522, R523). -/
def execPartFence (cmd : HostCmd) (s : State) : Out :=
  hostRow 0x0101 cmd (fun x p s =>
    if s.partState p = ptFree then .badState s p
    else .ok ((s.fencePart p (if x.cmd.fn.val = 0 then 2 else 4)).dropHeld p |>.signHead p)) s

/-- PART_TEARDOWN (R524). -/
def execPartTeardown (cmd : HostCmd) (s : State) : Out :=
  hostRow 0x0102 cmd (fun _ p s => if s.partState p = ptFree then .badState s p else .ok (s.teardown p)) s

/-- Whether START is accepted (R521, 20 R655). -/
def State.startOk (s : State) (p : Nat) : Bool :=
  let e (f : Nat → Fld) : Int := signed 8 (s.fld (f p))
  let inE (x : Int) : Bool := decide (-32 ≤ x) && decide (x ≤ 40)
  s.partState p == ptBuilding && !(Tab.get s.sec.fabKey [] p).isEmpty && !(Tab.get s.sec.ckKey [] p).isEmpty
    && s.on (PART_PT_ROOT_ROOT p) && s.on (FAB_PART_PTAG p)
    && (!s.on (NUM_LS_CTRL_EN p) || (inE (e NUM_LS_CTRL_INIT_E) && inE (e NUM_LS_CTRL_MIN_E) && inE (e NUM_LS_CTRL_MAX_E)
      && decide (e NUM_LS_CTRL_MIN_E ≤ e NUM_LS_CTRL_INIT_E) && decide (e NUM_LS_CTRL_INIT_E ≤ e NUM_LS_CTRL_MAX_E)
      && s.on (NUM_LS_CTRL_GROWTH p) && s.on (NUM_LS_CTRL_PATIENCE p)))

/-- START: the partition is STARTED; the scale takes its initial value (20 R654). -/
def State.start (s : State) (p : Nat) : State :=
  (((s.setFld (PART_STATUS_STATE p) ptStarted).setFld (NUM_LS_STATE_E p) (s.fld (NUM_LS_CTRL_INIT_E p))).setFld
    (NUM_LS_STATE_COUNT p) 0).setFld (NUM_LS_STATE_FLOOR_RUN p) 0

/-- PART_START: a write of PART_CTRL.START (R521). -/
def execPartStart (q : Requester) (p : Fin 8) (s : State) : Out :=
  let s := s.asked
  if s.standing then .next (s.holdReq (.start q p))
  else if s.hubUp && reaches q p && !s.fnShut q && s.startOk p then .next (s.start p) else .next s

/-! ### Keys (R528, R546 to R551) -/

/-- KEY_ROTATE (R528). -/
def execKeyRotate (cmd : HostCmd) (s : State) : Out :=
  hostRow 0x0705 cmd (fun _ p s =>
    if s.partState p ≠ ptStarted then .no s stNotStarted
    else if s.on (PART_KEY_SWEEP p) then .no s stRotateBusy
    else
      let cur := 1 - s.fld (PART_KEY_CUR p)
      let (key, s) := s.free 512
      let s := { s with sec := { s.sec with memKeys := Tab.put s.sec.memKeys [] (2 * p + cur) (leBytes 64 key) } }
      let s := ((s.setFld (PART_KEY_CUR p) cur).setFld (PART_KEY_EPOCH p) (s.fld (PART_KEY_EPOCH p) + 1)).setFld
        (PART_KEY_SWEEP p) 1
      .ok s (s.fld (PART_KEY_EPOCH p))) s

def State.kemPub (s : State) (p : Nat) : List Byte := (Tab.get s.sec.kem ([], []) p).1
def State.kemDigest (s : State) (p : Nat) : List Byte := shaBytes (s.kemPub p)

/-- KEM_READ (R547). -/
def execKemRead (cmd : HostCmd) (s : State) : Out :=
  hostRow 0x0701 cmd (fun x p s =>
    if s.partState p = ptFree then .badState s p
    else if cLen x.cmd < 1568 then .no s stBadLength
    else .ok (s.wrB (keyHost (cData x.cmd)) (s.kemPub p))) s

/-- KEM_REFRESH (R547). -/
def execKemRefresh (cmd : HostCmd) (s : State) : Out :=
  hostRow 0x0702 cmd (fun _ p s =>
    if s.partState p = ptFree then .badState s p
    else
      let (kem, s) := s.free 512
      .ok { s with sec := { s.sec with
        kem := Tab.put s.sec.kem ([], []) p (kemPair kem) } }) s

/-- KEY_OPEN (R548). -/
def execKeyOpen (cmd : HostCmd) (s : State) : Out :=
  hostRow 0x0703 cmd (fun x p s =>
    if s.partState p = ptFree then .badState s p
    else if cLen x.cmd ≠ 1568 then .no s stBadLength
    else
      let c := s.rdB (keyHost (cData x.cmd)) 1568
      let k := kemDecaps (toNats (Tab.get s.sec.kem ([], []) p).2) (toNats c)
      let tk := hkdf256 (sha256 (toNats c)) k (p :: toNats (s.kemDigest p)) 32
      .ok { s with sec := { s.sec with tk := Tab.put s.sec.tk [] p (ofNats tk), tkSeq := s.sec.tkSeq.del p } }) s

/-- KEY_INSTALL: the blob opened under the transport key, its key installed (R549 to R551). -/
def execKeyInstall (cmd : HostCmd) (s : State) : Out :=
  hostRow 0x0704 cmd (fun x p s =>
    let b := s.rdB (keyHost (cData x.cmd)) (cLen x.cmd)
    let h := b.take 8
    let kind := leNat (h.take 1)
    let n := leNat ((h.drop 2).take 2)
    let q := leNat ((h.drop 4).take 4)
    let tk := Tab.get s.sec.tk [] p
    if s.partState p = ptFree then .badState s p
    else if cLen x.cmd < 24 ∨ cLen x.cmd ≠ n + 24 then .no s stBadLength
    else if kind = 0 ∨ 3 < kind ∨ leNat ((h.drop 1).take 1) ≠ 0 then .no s stReserved
    else if kind ≠ 3 ∧ s.partState p ≠ ptBuilding then .badState s p
    else if tk.isEmpty ∨ (kind ≠ 3 ∧ n ≠ 32) ∨ q ≤ Tab.get s.sec.tkSeq 0 p then .no s stKeyBad
    else
      match gcmOpen (toNats tk) (toNats ((h.drop 4).take 4) ++ List.replicate 8 0) (toNats h) (toNats ((b.drop 8).take n))
          (toNats (b.drop (8 + n))) with
      | none => .no s stKeyBad
      | some pt =>
        let k := ofNats pt
        let sec := { s.sec with tkSeq := Tab.put s.sec.tkSeq 0 p q }
        let sec := if kind = 1 then { sec with fabKey := Tab.put sec.fabKey [] p k }
          else if kind = 2 then { sec with ckKey := Tab.put sec.ckKey [] p k }
          else { sec with ide := Tab.put sec.ide [] (p + 1) k }
        .ok { s with sec := sec }) s

/-- IDE_KM_PF0 (R551). -/
def execIdeKmPf0 (cmd : HostCmd) (s : State) : Out :=
  hostRow 0x070B cmd (fun x _ s =>
    let (obj, sig) := Config.ideRequest (s.rdB (keyHost (cData x.cmd)) (cLen x.cmd))
    if sigOk s.opkHash obj sig then .ok { s with sec := { s.sec with ide := Tab.put s.sec.ide [] 0 obj } }
    else .no s stSignature) s

/-! ### Quotes (R546) -/

/-- The 320 bytes of a quote.  The index of the last record is free while there is none. -/
def State.quoteBody (s : State) (p : Nat) (nonce : List Byte) (last : Nat) : List Byte :=
  let st := s.fld
  leBytes 4 (1 + p * 2 ^ 16 + st (PART_CFG_OPVIS p) * 2 ^ 19 + s.sections p * 2 ^ 20 + s.partState p * 2 ^ 28
      + st (STEP_COLL_CFG_ORDER p) * 2 ^ 30 + st (PART_CFG_IDE_REQUIRED p) * 2 ^ 31)
    ++ leBytes 4 (st (FAB_PART_PTAG p) + st (FAB_PART_SHARE p) * 2 ^ 16) ++ nonce ++ s.topTree.1
    ++ leBytes 8 (st SEC_OTP_GEN_ROOT + st SEC_OTP_GEN_SET * 2 ^ 3 + st SEC_OTP_GEN_OPK * 2 ^ 6 + st SEC_OTP_GEN_SVN * 2 ^ 16
      + st SEC_OTP_GEN_LEAVES * 2 ^ 32)
    ++ fitB 32 s.sec.fwDigest ++ leBytes 8 s.sec.fwSvn
    ++ (if s.settings.isEmpty then List.replicate 32 0 else shaBytes s.settings) ++ leBytes 8 (st (PART_DBG_COUNT p))
    ++ fitB 32 (Tab.get s.sec.dbgHead [] p) ++ leBytes 8 (st (STEP_JOB_ID_JOB_ID p)) ++ leBytes 8 last
    ++ fitB 32 (s.job p).head ++ s.kemDigest p ++ leBytes 4 (st (PART_KEY_EPOCH p)) ++ List.replicate 60 0

/-- A quote signed and written; the command is answered. -/
def State.quoteNow (s : State) (x : Started) (p : Nat) : State :=
  let (i, s) := if s.nextIdx p = 0 then s.free 64 else (s.nextIdx p - 1, s)
  let nonce := (List.range 4).flatMap (fun k => leBytes 8 (cP x.cmd (k + 1)))
  let body := s.quoteBody p nonce i
  let (sig, s) := s.sign body
  s.wrB (keyHost (cData x.cmd)) (body ++ sig)

/-- QUOTE: it waits, in arrival order, while a signature must wait (R545). -/
def execQuote (cmd : HostCmd) (s : State) : Out :=
  hostRow 0x0700 cmd (fun x p s =>
    if cLen x.cmd < 5876 then .no s stBadLength
    else if s.partState p = ptFree then .badState s p
    else if s.signable then .ok (s.quoteNow x p)
    else if s.signFails then .no s stExhausted
    else .stay (s.signReq (.quote x.cmd))) s

/-- A request for a signature that has waited is served (R545). -/
def State.serveSig (s : State) (r : SigReq) : State :=
  if !s.signable then s.signReq r
  else
    match r with
    | .head p => s.signHead p
    | .quote c =>
      match s.h.started.find? (fun x => x.cmd == c) with
      | none => s
      | some x => (s.quoteNow x (cPart c)).reply x stOk 0 0 0

/-- WORKING_TREE_BUILD: a leaf is burnt before it is used (R543, R544); the requests that waited are served in arrival order. -/
def execWorkingTreeBuild (s : State) : Out :=
  if !s.hubUp || s.fld SEC_BOOT_STATE != 2 || s.sec.work.isSome then .next s
  else
    match s.nextLeaf with
    | none => .next s
    | some q =>
      let s := s.burn (0x400 + q / 8) 1 (2 ^ (q % 8))
      let n := s.fld SEC_OTP_GEN_LEAVES + 1
      let (tree, s) := s.free 640
      let s := { s with sec := { s.sec with work := some tree, workLeaf := 0, topLeaf := q } }
      let s := (s.setFld SEC_OTP_GEN_LEAVES n).setFld SEC_BOOT_IDENT_READY 1
      let s := if n = 32768 then s.setFld SEC_BOOT_IDENT_EXHAUSTED 1 else s
      let due := s.sec.sigs
      .next (due.foldl State.serveSig { s with sec := { s.sec with sigs := [] } })

end Sys2Proof.Machine
end

