-- ==== Sys2Proof/Machine/Stacks.lean ====
section
/-! DEFINITION. What the stack controllers do of their own accord: bank refresh and row close (08 R273, R275), the
patrol scrub (R283), the key-rotation sweep (16 R527 to R531). -/

namespace Sys2Proof.Machine

def bankNo (st pc bank : Nat) : Nat := (st * 64 + pc) * 32 + bank + 1

/-- BANK_REFRESH: a bank whose interval has passed is refreshed for 288 base cycles, with no row open (R272, R273). -/
def execBankRefresh (st : Fin 8) (pc : Fin 64) (bank : Fin 32) (s : State) : Out :=
  let b := bankNo st pc bank
  let bk := s.bank b
  if s.refreshDue (st * 64 + pc) b then
    .next (s.setBank b { bk with row := none, refEnd := s.cyc (st * 64 + pc) + 288 })
  else .next s

/-- ROW_CLOSE: a row not accessed for 64 base cycles closes (R275). -/
def execRowClose (st : Fin 8) (pc : Fin 64) (bank : Fin 32) (s : State) : Out :=
  let b := bankNo st pc bank
  let bk := s.bank b
  if bk.row.isSome ∧ bk.used + 64 ≤ s.cyc (st * 64 + pc) then .next (s.setBank b { bk with row := none }) else .next s

/-- Whether a request of the scrub, or of a sweep, waits at a stack. -/
def State.asksOwn (s : State) (st : Nat) (sweep : Bool) : Bool :=
  s.m.reqs.any (fun (r : Req) => r.inst / 64 == st && r.rqr == 13 && r.sweeps == sweep)

/-- Whether the patrol reads the codeword of a stack next: it takes them in order, one pass in each PERIOD (R283). -/
def State.patrolAt (s : State) (st cw : Nat) : Bool :=
  let n := Tab.get s.m.scrubAt 0 st
  if n * 64 < s.stackBytes then cw == n
  else cw == 0 && decide (Tab.get s.m.scrubFrom 0 st + s.fld (STK_SCRUB_CFG_PERIOD st) * 3600000000 ≤ s.timeUs)

/-- PATROL_SCRUB: the patrol asks for its next codeword, which is written back where an error is corrected (R283, R284;
the order of the patrol: assumption 139). -/
def execPatrolScrub (st : Fin 8) (addr : BitVec 36) (errs : List SymErr) (s : State) : Out :=
  unlessStopped s (
    let cw := addr.toNat / 64
    if addr.toNat < s.stackBytes then
      let s := s.addErrs st errs
      if s.asksOwn st false || !s.patrolAt st cw then .next s
      else
        let s := { s with m := { s.m with
          scrubFrom := if cw = 0 then Tab.put s.m.scrubFrom 0 st s.timeUs else s.m.scrubFrom
          scrubAt := Tab.put s.m.scrubAt 0 st (cw + 1) } }
        .next (s.ask 13 0 .scrub false ((List.range 64).map (· + keyStack st (64 * cw))))
    else .next s)

/-! ### Key rotation -/

/-- The slot under which a burst is encrypted (16 R527). -/
def State.slotOfBurst (s : State) (p b : Nat) : Nat :=
  if Tab.get s.m.sweepMap false b then s.fld (PART_KEY_CUR p)
  else if Tab.get s.m.gen false (b / 32768) then 1 else 0

/-- The key of the dump area: from DEVICE_SECRET by the KDF of 16 R542 with a label of its own (18 R595). -/
def State.dumpKey (s : State) : List Byte :=
  ofNats (kdf108 (toNats s.secret) (toNats Config.dumpLabel.1) (toNats Config.dumpLabel.2) 64)

/-- The key that a stack's burst is encrypted under: of the dump area its own (18 R595), else of the partition that holds the section, and
none where there is none (16 R526, R527). -/
def State.keyOfBurst (s : State) (b : Nat) : Option (List Byte) :=
  if s.dumpBase ≤ b * 64 ∧ b * 64 < s.stackBytes then some s.dumpKey
  else (s.secPart (b / 2 ^ 30)).map (fun p => Tab.get s.sec.memKeys [] (2 * p + s.slotOfBurst p b))

/-- The 64 bytes of a stack's burst as they are stored: XTS-AES-256 with the tweak s 2^30 + A[35:6] (16 R526).  The model's memory
holds the plaintext (assumption 71). -/
def State.storedBurst (s : State) (b : Nat) : Option (List Byte) :=
  (s.keyOfBurst b).map (fun k => ofNats (xtsSeal (toNats k) b (toNats ((List.range 64).map (fun i => s.m.mem.rd (b * 64 + i))))))

/-- SWEEP_REWRITE: the sweep asks for the rewrite of its next burst (16 R529 to R531). -/
def execSweepRewrite (st : Fin 8) (s : State) : Out :=
  unlessStopped s (
    match s.secPart st with
    | none => .next s
    | some p =>
      if s.sweeps p && !s.m.sweepEnd.contains st.val && !s.asksOwn st true then
        .next (s.ask 13 0 (.sweep p) true
          ((List.range 64).map (· + keyStack st (64 * Tab.get s.m.sweepAt 0 st))))
      else .next s)

end Sys2Proof.Machine
end

