-- ==== Sys2Proof/Machine/Debug.lean ====
section
/-! DEFINITION. What a debug token lets its holder do (16 R552, R553); the bytes of the views and the resume are the model's
(assumption 158). -/

namespace Sys2Proof.Machine

/-- Whether an attached token with a capability reaches a partition. -/
def State.debugs (s : State) (cap p : Nat) : Bool := s.sec.tokens.any (fun t => bit t.1 cap && bit t.2.1 p)

/-- Whether debug may see the tenant's data in the clear. -/
def State.opvis (s : State) (p : Nat) : Bool := s.on (PART_CFG_OPVIS p)

/-- What debug reads of a value that is zero without OPVIS. -/
def State.veiled (s : State) (p : Nat) {n : Nat} (v : BitVec n) : BitVec n := if s.opvis p then v else 0

/-- REGS: task state and the last fault record of a core, as they are; scalar, vector, mask and tile-handle register `r` of a thread. -/
def State.debugRegs (s : State) (core t r : Nat) : Option (List Byte) :=
  (s.corePart core).bind (fun p =>
    if s.debugs 0 p then
      some (leBytes 4 (s.taskState core) ++ fitB 32 (Tab.get s.core.lastFault [] core) ++ leBytes 8 (s.veiled p (s.sreg core t r)).toNat
        ++ leBytes 256 (s.veiled p (s.vreg core t r)).toNat ++ leBytes 64 (s.veiled p (s.mreg core t r)).toNat
        ++ leBytes 8 (s.veiled p (s.handle core r)).toNat)
    else none)

/-- MEM: a burst of a stack, in the clear with OPVIS, else as it is stored. -/
def State.debugMem (s : State) (b : Nat) : Option (List Byte) :=
  (s.secPart (b / 2 ^ 30)).bind (fun p =>
    if !s.debugs 1 p then none
    else if s.opvis p then some ((List.range 64).map (fun i => s.m.mem.rd (b * 64 + i)))
    else s.storedBurst b)

/-- The section that a byte of tile, local, accumulator or shared memory lies in. -/
def sramSec (key : Nat) : Option Nat :=
  if 2 ^ 41 ≤ key ∧ key < 2 ^ 42 then some ((key - 2 ^ 41) / 2 ^ 22 / 100)
  else if 2 ^ 42 ≤ key ∧ key < 2 ^ 43 then some ((key - 2 ^ 42) / 2 ^ 21 / 100)
  else if 2 ^ 43 ≤ key ∧ key < 2 ^ 44 then some ((key - 2 ^ 43) / 2 ^ 23 / 5)
  else none

/-- SRAM: a byte of tile, local, accumulator or shared memory of a section. -/
def State.debugSram (s : State) (sec key : Nat) : Option (List Byte) :=
  (s.secPart sec).bind (fun p =>
    if s.debugs 2 p && sramSec key == some sec then some [s.veiled p (s.m.mem.rd key)] else none)

/-- Hub SRAM, whose contents the spec does not give: a free byte where every partition that a token with the capability reaches has OPVIS,
else zero. -/
def State.debugHub (s : State) : Option (List Byte) × State :=
  let reach := (List.range 8).filter (s.debugs 2)
  if reach.isEmpty then (none, s)
  else if reach.all s.opvis then
    let (v, s) := s.free 8
    (some (leBytes 1 v), s)
  else (some [0], s)

/-- A view shown; what no capability allows shows nothing. -/
def State.show (s : State) (b : Option (List Byte)) : State :=
  match b with
  | some b => s.answer (.data b)
  | none => s

/-- HALT: the task of a core halted (03 R122); its threads are kept as they stood. -/
def State.debugHalt (s : State) (core : Nat) : State :=
  if s.taskRuns core then
    let ts := (List.range 16).map (fun t => (t, s.stat core t))
    let s := s.haltCore core
    { s with core := { s.core with debugStop := Tab.put s.core.debugStop [] core ts } }
  else s

/-- A thread goes on from where it stood: what waited for a token, a barrier, a barge or its stores waits again; a wait whose operation the
halt has ended is over, and the thread goes on past its instruction. -/
def State.restand (s : State) (core t : Nat) (x : TStat) : State :=
  match x with
  | .waiting (.release _) | .waiting (.result _) | .waiting (.close _) | .waiting (.bank _) => s.resume core t
  | x => s.setStat core t x

/-- What came while the task stood halted is served: counters and barriers, stores, barges. -/
def State.serveWaits (s : State) (core : Nat) : State :=
  let s := (List.range 64).foldl (fun s ch => (s.serveCounter core ch (s.counterQueue core ch)).serveBarrier core ch) s
  let s := (List.range 16).foldl (fun s t => s.wakeStores core t) s
  (List.range 2).foldl (fun s k => s.serveTake (20 * clusterOf core + k)) s

/-- HALT: a task that debug has halted goes on. -/
def State.debugResume (s : State) (core : Nat) : State :=
  let ts := Tab.get s.core.debugStop [] core
  if s.dieUp && s.taskState core == tkHalted && !ts.isEmpty then
    let s := (ts.foldl (fun s e => s.restand core e.1 e.2) s).setTaskState core tkRunning
    let waits (p : Wait → Bool) : List Nat := (ts.filter (fun e => match e.2 with
      | .waiting w => p w
      | _ => false)).map (fun e => threadKey core e.1)
    let s := { s with core := { s.core with
        debugStop := s.core.debugStop.del core
        counterWait := s.core.counterWait ++ waits (fun w => match w with
          | .counter _ _ _ => true
          | _ => false)
        takeWait := s.core.takeWait ++ waits (fun w => match w with
          | .take _ _ _ => true
          | _ => false) } }
    s.serveWaits core
  else s

/-- DEBUG_FENCE: what a holder of a token does under it: a fence of a partition (R522), the views, a halt or a resume of a task (R553). -/
def execDebugFence (act : DebugAct) (s : State) : Out :=
  if !s.hubUp then .next s
  else
    let may (core : Nat) : Bool := (s.corePart core).any (s.debugs 3)
    match act with
    | .fence p => .next (if s.debugs 4 p then ((s.fencePart p 3).dropHeld p).signHead p else s)
    | .regs c t r => .next (s.show (s.debugRegs c t r))
    | .mem b => .next (s.show (s.debugMem b))
    | .sram sec key => .next (s.show (s.debugSram sec key))
    | .hub _ =>
      let (b, s) := s.debugHub
      .next (s.show b)
    | .halt c => .next (if may c then s.debugHalt c else s)
    | .resume c => .next (if may c then s.debugResume c else s)

end Sys2Proof.Machine
end

