-- ==== Sys2Proof/Machine/Embed.lean ====
section
/-! DEFINITION. Embedding tables (10): row indexes, ERES and ESORT (R342 to R358). -/

namespace Sys2Proof.Machine

/-! ### Table descriptors (R345) -/

/-- The 128 bytes of a table descriptor. -/
abbrev Desc := List Byte

def Desc.ver (d : Desc) : Nat := hdF d 4 2
def Desc.dirVer (d : Desc) : Nat := hdF d 6 2
def Desc.tableId (d : Desc) : Nat := hdF d 2 2
def Desc.rows (d : Desc) : Nat := hdF d 8 6
def Desc.firstSlot (d : Desc) : Nat := bits (hdF d 0x10 4) 0 14

/-- Whether a descriptor is one that ERES refuses (R355). -/
def Desc.bad (d : Desc) : Bool :=
  hdF d 0 2 != 1 || [0x08, 0x18, 0x38].any (fun o => hdF d (o + 6) 2 != 0) || bits (hdF d 0x10 4) 14 2 != 0
    || bits (hdF d 0x10 4) 20 12 != 0 || bits (hdF d 0x14 4) 13 19 != 0
    || [0x20, 0x28, 0x30].any (fun o => bits (hdF d o 8) 53 11 != 0 || 24 < bits (hdF d o 8) 48 5)
    || (List.drop 0x44 d).any (· != 0)

/-- The home slot and the image row of a table row (R343). -/
def Desc.home (d : Desc) (r : Nat) : Nat := (r / 65536 + d.firstSlot) % 16384
def imageRow (r : Nat) : Nat := r / 65536 / 16384 * 65536 + r % 65536

/-- Where the search of a row index begins (R347). -/
def rowHashStart (k r : Nat) : Nat := r * 0x9E3779B97F4A7C15 % 2 ^ 64 / 2 ^ (64 - k)

/-- A row index searched: word 1 of the entry for the row. -/
def probe (core base k r : Nat) : Nat → Nat → TravM (Option Nat)
  | 0, _ => return none
  | n + 1, i => do
    let a := base + 16 * ((rowHashStart k r + i) % 2 ^ k)
    let x ← readVa core a 16
    if bits x 0 48 = r then return some (bits x 64 64)
    else if bits x 0 48 = 0xFFFFFFFFFFFF then return none
    else probe core base k r n (i + 1)

/-- The entry of a row in the index whose base and LOG2 stand at an offset of the descriptor. -/
def rowIndex (core : Nat) (d : Desc) (off r : Nat) : TravM (Option Nat) :=
  let w := hdF d off 8
  if bits w 48 5 = 0 then return none else probe core (bits w 0 48) (bits w 48 5) r 16 0

/-- This device's number (11 R377). -/
def State.self (s : State) : Nat := s.fld FAB_POS_REACH * 128 + s.fld FAB_POS_FLIGHT

/-! ### ERES (R351 to R357) -/

structure Eres where
  core : Nat
  out : Nat
  rows : Nat
  n : Nat
  serve : Bool
  noHot : Bool
  cw : Nat
  hdr : List Byte

def Eres.table (i : Eres) : Nat := bits i.cw 0 6
def Eres.hdrOff (i : Eres) : Nat := bits i.cw 8 24
def Eres.first (i : Eres) : Nat := bits i.cw 32 14

/-- A descriptor, from the cluster's cache or from memory (R348, R357). -/
def readDesc (core slot va : Nat) : TravM Desc := do
  let s := (← get).s
  let cl := clusterOf core
  if s.m.dcache.contains (cl, slot) then readCached128 core va
  else
    let d ← readVaBytes core va 2
    modify (fun st => { st with s := { st.s with m := { st.s.m with dcache := st.s.m.dcache ++ [(cl, slot)] } } })
    return d

/-- The end of an ERES that meets a bad descriptor: status 2, in requester mode beside TABLE_VER and DIR_VER (R355). -/
def Eres.badDesc (i : Eres) (d : Desc) : Nat := if i.serve then 2 else 2 + d.ver * 2 ^ 3 + d.dirVer * 2 ^ 19

/-- The outcome of the descriptors: the one to resolve by, or none that matches. -/
def eresDesc (i : Eres) : TravM (Option Desc) := do
  let s := (← get).s
  let cl := clusterOf i.core
  let t := i.table
  if !s.on (CL_TABLE_VALID cl t) then endWith 1
  let d ← readDesc i.core t (s.fld (CL_TABLE_DESC cl t) * 64)
  if d.bad then endWith (i.badDesc d)
  if !i.serve || d.ver = hdF i.hdr 4 2 then return some d
  if !s.on (CL_TABLE_PVALID cl t) then return none
  let p ← readDesc i.core (64 + t) (s.fld (CL_TABLE_PREV_DESC cl t) * 64)
  if p.bad then endWith (i.badDesc p)
  return if p.ver = hdF i.hdr 4 2 then some p else none

/-- A lookup entry (R352). -/
def lookupEntry (row cls slot pos dest : Nat) : Nat × Nat :=
  (row % 2 ^ 48 + cls % 4 * 2 ^ 48 + slot % 2 ^ 14 * 2 ^ 50, pos % 2 ^ 32 + dest % 2 ^ 32 * 2 ^ 32)

/-- A serve entry (R353). -/
def serveEntry (lrow stack sb status pos slot : Nat) : Nat × Nat :=
  (lrow % 2 ^ 40 + stack % 8 * 2 ^ 40 + sb % 64 * 2 ^ 43 + status % 4 * 2 ^ 49, pos % 2 ^ 32 + slot % 2 ^ 14 * 2 ^ 32)

/-- The owner slot of a row, and its arrival row where the directory has an entry (R344). -/
def ownerSlot (core : Nat) (d : Desc) (r : Nat) : TravM (Nat × Option Nat) := do
  match ← rowIndex core d 0x20 r with
  | some v => return (bits v 40 14, some (bits v 0 40))
  | none => return (d.home r, none)

/-- One index resolved in requester mode (R354). -/
def resolveReq (i : Eres) (d : Desc) (j r : Nat) : TravM (Nat × Nat) := do
  if d.rows ≤ r then return lookupEntry 0xFFFFFFFFFFFF 3 0 j 0
  let (o, _) ← ownerSlot i.core d r
  let hot ← if i.noHot then pure none else rowIndex i.core d 0x30 r
  match hot with
  | some v => return lookupEntry r 2 o j (bits v 0 40)
  | none =>
    let dev ← readVa i.core (hdF d 0x38 6 + 2 * o) 2
    let dev := bits dev 0 14
    return lookupEntry r (if dev = (← get).s.self then 1 else 0) o j dev

/-- One row resolved in serve mode (R354). -/
def resolveServe (i : Eres) (d : Option Desc) (j r : Nat) : TravM (Nat × Nat) := do
  let pos := (if bits (hdF i.hdr 0 4) 0 4 = 2 then hdF i.hdr 0x1C 4 else 0) + i.first + j
  let drop : Nat × Nat := serveEntry 0 0 0 2 pos 0
  match d with
  | none => return drop
  | some d =>
    if d.rows ≤ r then return drop
    let step := hdF i.hdr 8 8 % 2 ^ 40
    let dep ← rowIndex i.core d 0x28 r
    let gone : Option Nat := match dep with
      | some v => if hdF i.hdr 6 2 < d.dirVer then some v else none
      | none => none
    match gone with
    | some v =>
      if step = bits v 0 40 then return serveEntry 0 0 0 1 pos (bits v 40 14)
      else if bits v 0 40 < step then return drop
      else serveAt d pos r
    | none => serveAt d pos r
where
  /-- The record of a row on this device. -/
  serveAt (d : Desc) (pos r : Nat) : TravM (Nat × Nat) := do
    let (o, arr) ← ownerSlot i.core d r
    let l ← readVa i.core (hdF d 0x18 6 + 16 * o) 16
    let w := match arr with
      | some _ => bits l 64 64
      | none => bits l 0 64
    let row := match arr with
      | some a => a
      | none => imageRow r
    if bit w 0 then return serveEntry (bits w 16 40 + row) (bits w 1 3) (bits w 4 6) 0 pos 0
    else return serveEntry 0 0 0 2 pos 0

/-- The rows of a list resolved in order: entries, and the failure that ends the list. -/
def resolveAll (f : Nat → Nat → TravM (Nat × Nat)) :
    List (Nat × Nat) → Trav → List (Nat × Nat) × Option (Nat × Nat) × Trav
  | [], t => ([], none, t)
  | (j, r) :: rest, t =>
    match (f j r).run t with
    | (.error (.fault e a), t) => ([], some (e, a), t)
    | (.error (.status _), t) => ([], none, t)
    | (.ok x, t) =>
      let (l, e, t) := resolveAll f rest t
      (x :: l, e, t)

/-- The faults of R357 at issue. -/
def eresFaults (i : Eres) : List FInfo :=
  let count := hdF i.hdr 0x18 4
  -- a header that cannot be read has no COUNT to compare
  let modeBad := if i.serve then !i.hdr.isEmpty && decide (count < i.first + i.n) else i.cw / 2 ^ 8 != 0
  let crossed := i.serve && decide (i.rows < i.hdrOff + 64) && decide (i.hdrOff < i.rows + 8 * i.n)
  regionFaults i.core (bits i.cw 6 2 != 0 || i.cw / 2 ^ 46 != 0 || modeBad || crossed)
    ((i.rows, 8 * i.n, 8) :: (if i.serve then [(i.hdrOff, 64, 64)] else [])) [(i.out, 16 * i.n, 16)]

def entryCells (core out : Nat) (es : List (Nat × Nat)) : List (Nat × Byte) :=
  let b := es.flatMap (fun e => leBytes 8 e.1 ++ leBytes 8 e.2)
  ((List.range b.length).map (· + keyOwn core out)).zip b

/-- The result word of ERES (R355). -/
def eresWord (serve : Bool) (ver dir : Nat) (es : List (Nat × Nat)) : Nat :=
  if serve then
    let n (st : Nat) : Nat := (es.filter (fun e => bits e.1 49 2 == st)).length
    n 0 + n 1 * 2 ^ 16 + n 2 * 2 ^ 32
  else (es.filter (fun e => bits e.1 48 2 ≤ 1)).length + ver * 2 ^ 16 + dir * 2 ^ 32

/-- Entries served late counted (R356). -/
def State.countLate (s : State) (cl : Nat) (es : List (Nat × Nat)) : State :=
  let n (st : Nat) : Nat := (es.filter (fun e => bits e.1 49 2 == st)).length
  (s.count (TBL_LATE_DROP_FORWARD cl) (n 1)).count (TBL_LATE_DROP_DROP cl) (n 2)

/-- The reads of an ERES started; entries and result word are written when the last has landed. -/
def State.eresEnd (core t dst word : Nat) (cells : List (Nat × Byte)) (tr : Trav) : Eff :=
  let x : Xfer := { newXfer core t false (scalarDest dst) (.result dst word []) with late := cells }
  .go (tr.s.startReads x tr.units) (tr.s.next core t)

/-- ERES (R351 to R357). -/
def readEres (ue : List FInfo) (c : Fin 800) (t : Fin 16) (f : Fields) (s : State) : Out :=
  let n := bits f.imm.toNat 0 13
  issueUe ue c t 3 0x30 f { dst := some .s, a := some .s, b := some .s, c := some .s, mod := 3, imm := 0x1FFF }
    (isMatrix c || n == 0 || 4096 < n || (modBit f 16 && modBit f 17)) []
    (fun s =>
      let cw := (s.sreg c t f.srcc.toNat).toNat
      let i : Eres :=
        { core := c, out := (s.sreg c t f.srca.toNat).toNat, rows := (s.sreg c t f.srcb.toNat).toNat, n := n
          serve := modBit f 16, noHot := modBit f 17, cw := cw
          hdr := if bits cw 8 24 % 64 = 0 ∧ bits cw 8 24 + 64 ≤ ownBytes c then s.rdB (keyOwn c (bits cw 8 24)) 64 else [] }
      match eresFaults i with
      | fault :: fs => .fault (fault :: fs)
      | [] =>
        let list := (List.range n).map (fun j => (j, s.rd (keyOwn c (i.rows + 8 * j)) 8))
        match (eresDesc i).run ⟨s, [], 0⟩ with
        | (.error (.fault e a), _) => .fault [wholeAt e a]
        | (.error (.status st), tr) => State.eresEnd c t f.dst.toNat (st * 2 ^ 13) [] tr
        | (.ok d, tr) =>
          let one (j r : Nat) : TravM (Nat × Nat) :=
            if i.serve then resolveServe i d j r
            else match d with
              | some d => resolveReq i d j r
              | none => endWith 1
          let (es, e, tr) := resolveAll one list tr
          let tr := if i.serve then { tr with s := tr.s.countLate (clusterOf c) es } else tr
          let cells := entryCells c i.out es
          match e with
          | some (code, a) => .trap (tr.s.wrCells cells) [wholeAt code a]
          | none =>
            let (ver, dir) := match d with
              | some d => (d.ver, d.dirVer)
              | none => (0, 0)
            State.eresEnd c t f.dst.toNat (eresWord i.serve ver dir es) cells tr) s

/-- ERES with no error in the memories that it reads. -/
def execEres (c : Fin 800) (t : Fin 16) (f : Fields) (s : State) : Out := readEres [] c t f s

/-! ### ESORT (R351, R358) -/

/-- Whether the key covers an entry, and its value. -/
def entryKey (key : Nat) (r : List Byte) : Option Nat :=
  let w := hdF r 0 8
  match key with
  | 0 => if bits w 48 2 ≤ 1 then some (hdF r 12 4) else none
  | 1 => if bits w 49 2 = 0 then some (bits w 40 9) else none
  | _ => if bits w 49 2 = 0 then some (bits w 0 49) else none

/-- ESORT (R358). -/
def readEsort (ue : List FInfo) (c : Fin 800) (t : Fin 16) (f : Fields) (s : State) : Out :=
  issueUe ue c t 3 0x31 f { dst := some .s, a := some .s, b := some .s, c := some .s } (isMatrix c) []
    (fun s =>
      let out := (s.sreg c t f.srca.toNat).toNat
      let inp := (s.sreg c t f.srcb.toNat).toNat
      let cw := (s.sreg c t f.srcc.toNat).toNat
      let n := bits cw 0 14
      let key := bits cw 14 2
      let run := bits cw 16 24
      let rs := if inp % 16 = 0 ∧ inp + 16 * n ≤ ownBytes c ∧ n ≤ 8192 then s.records c inp n else []
      let k (r : List Byte) : Nat := (entryKey key r).getD 0
      let sorted := sortByKey k (rs.filter (fun r => (entryKey key r).isSome))
      let tail := rs.filter (fun r => (entryKey key r).isNone)
      let ends := runEnds k 0 sorted
      match regionFaults c (n == 0 || 8192 < n || key == 3 || cw / 2 ^ 40 != 0)
          [(inp, 16 * n, 16)] [(out, 16 * n, 16), (run, 4 * (ends.length + 1), 4)] with
      | fault :: fs => .fault (fault :: fs)
      | [] =>
        let s := s.wrB (keyOwn c out) ((sorted ++ tail).flatMap id)
        let s := s.wrB (keyOwn c run) ((0 :: ends).flatMap (leBytes 4))
        .go (s.setS c t f.dst.toNat (BitVec.ofNat 64 ends.length)) (s.next c t)) s

/-- ESORT with no error in the memories that it reads. -/
def execEsort (c : Fin 800) (t : Fin 16) (f : Fields) (s : State) : Out := readEsort [] c t f s

end Sys2Proof.Machine
end

