-- ==== Sys2Proof/Machine/Host.lean ====
section
/-! DEFINITION. Host commands on memory, the job, steps and serving (17 R577, R580; 06 R222; 14 R492 to R494), and the
aperture (17 R560). -/

namespace Sys2Proof.Machine

/-! ### Memory commands (R577, R579) -/

/-- How a transfer of 64-byte units ends: with every unit done, at an address that fails, at an uncorrectable error. -/
inductive MRes where
  | done
  | fault (va : Nat)
  | ue
deriving DecidableEq, Repr

/-- `n` units from a virtual address, each walked (08 R282, R284) and done by `f` at its memory key; they end at the first address that
fails, or at an uncorrectable error. -/
def State.units (p : Nat) (write : Bool) (f : Nat → Nat → State → Option State × State) : Nat → Nat → State → MRes × State
  | 0, _, s => (.done, s)
  | n + 1, va, s =>
    let t := s.walkSeen 7 p va 64
    if t.partState p = ptFenced then (.ue, t)
    else
      match s.hubTranslate p va with
      | some (k, w) =>
        if write && !w then (.fault va, t)
        else
          match f va k t with
          | (some s, _) => State.units p write f n (va + 64) s
          | (none, s) => (.ue, s)
      | none => (.fault va, t)

def unitReply (n : Nat) : MRes × State → HRes
  | (.done, s) => .ok s n
  | (.fault va, s) => .reply s stMemFault 0 va 0
  | (.ue, s) => .no s stMemUe

/-- The end of a command at an address whose walk fails: MEM_FAULT, or MEM_UE where the walk has met an uncorrectable error. -/
def State.faultAt (s : State) (p va : Nat) : HRes :=
  let t := s.walkSeen 7 p va 1
  if t.partState p = ptFenced then .no t stMemUe else .reply t stMemFault 0 va 0

/-- A whole burst written at a key by the hub. -/
def State.putUnit (s : State) (k : Nat) (b : List Byte) : State := (s.writeKeys' 7 ((seqKeys k b.length).zip b)).2

/-- Whether a virtual address lies in the program or the group table (13 R439, R448). -/
def State.inUpdTables (s : State) (p va : Nat) : Bool :=
  let within (base n : Nat) : Bool := decide (base ≤ va) && decide (va < base + 128 * n)
  within (s.fld (STEP_UPD_TABLES_PROGS p)) (s.fld (STEP_UPD_CFG_NPROG p))
    || within (s.fld (STEP_UPD_TABLES_GROUPS p)) (s.fld (STEP_UPD_CFG_NGROUP p))

/-- Whether a host's write at a virtual address waits for the next step boundary (13 R450). -/
def State.tableWaits (s : State) (p va : Nat) : Bool :=
  s.partState p == ptStarted && !s.atRest p && s.inUpdTables p va

def State.holdMem (s : State) (p : Nat) (cells : List (Nat × Byte)) : State :=
  { s with j := { s.j with heldMem := s.j.heldMem ++ [(p, cells)] } }

/-- A unit that the host writes at virtual address `a`, which lies at key `k`. -/
def State.hostUnit (s : State) (p a k : Nat) (b : List Byte) : State :=
  if s.tableWaits p a then s.holdMem p ((seqKeys k b.length).zip b) else s.putUnit k b

/-- A unit of MEM_WRITE, of MEM_READ, of MEM_FILL: the stack unit at key `k`, which lies at address `a`. -/
def memWriteUnit (c : HostCmd) (p a k : Nat) (s : State) : Option State × State :=
  (some (s.hostUnit p a k (s.rdB (keyHost (cData c + (a - cP c 0))) 64)), s)
def memReadUnit (c : HostCmd) (a k : Nat) (s : State) : Option State × State :=
  match s.readKeys 7 (seqKeys k 64) with
  | (some d, s) => (some (s.wrB (keyHost (cData c + (a - cP c 0))) d), s)
  | (none, s) => (none, s)
def memFillUnit (c : HostCmd) (p a k : Nat) (s : State) : Option State × State :=
  (some (s.hostUnit p a k ((List.replicate 8 (leBytes 8 (cP c 2))).flatten)), s)

/-- MEM_WRITE. -/
def execMemWrite (cmd : HostCmd) (s : State) : Out :=
  hostRow 0x0200 cmd (fun x p s =>
    let va := cP x.cmd 0
    let n := cLen x.cmd
    if s.partState p = ptFree then .badState s p
    else if va % 64 ≠ 0 then .no s stBadAddress
    else if n % 64 ≠ 0 then .no s stBadLength
    else unitReply n (State.units p true (memWriteUnit x.cmd p) (n / 64) va s)) s

/-- MEM_READ. -/
def execMemRead (cmd : HostCmd) (s : State) : Out :=
  hostRow 0x0201 cmd (fun x p s =>
    let va := cP x.cmd 0
    let n := cLen x.cmd
    if s.partState p = ptFree then .badState s p
    else if va % 64 ≠ 0 then .no s stBadAddress
    else if n % 64 ≠ 0 then .no s stBadLength
    else unitReply n (State.units p false (memReadUnit x.cmd) (n / 64) va s)) s

/-- MEM_FILL. -/
def execMemFill (cmd : HostCmd) (s : State) : Out :=
  hostRow 0x0202 cmd (fun x p s =>
    let va := cP x.cmd 0
    let n := cP x.cmd 1
    if s.partState p = ptFree then .badState s p
    else if va % 64 ≠ 0 then .no s stBadAddress
    else if n % 64 ≠ 0 then .no s stBadLength
    else unitReply n (State.units p true (memFillUnit x.cmd p) (n / 64) va s)) s

/-- PT_SET (01 R49). -/
def execPtSet (cmd : HostCmd) (s : State) : Out :=
  boundaryRow 0x0203 cmd (fun p s =>
    if s.partState p = ptFree then some (.badState s p)
    else if cP cmd 0 % 4096 ≠ 0 ∨ 2 ^ 40 ≤ cP cmd 0 then some (.no s stBadAddress) else none)
    (fun c p s => s.applyCmd c p) s

/-- APERTURE_SET. -/
def execApertureSet (cmd : HostCmd) (s : State) : Out :=
  hostRow 0x0204 cmd (fun x p s =>
    if s.partState p = ptFree then .badState s p
    else if cP x.cmd 0 % 2 ^ 28 ≠ 0 ∨ 2 ^ 48 ≤ cP x.cmd 0 then .no s stBadAddress
    else .ok (s.setFld (PART_APERTURE_BASE p) (cP x.cmd 0 / 2 ^ 28))) s

/-! ### DEGREE_BIN (06 R222, R223) -/

/-- The bin of a count. -/
def degreeBinOf (count : Nat) : Nat := bitLen count

/-- The row IDs by bin, by position within a bin, and the 34 offsets. -/
def binRows (l : List (Nat × Nat)) : List Byte × List Byte :=
  let bin (b : Nat) : List (Nat × Nat) := l.filter (fun e => degreeBinOf e.2 == b)
  let starts := (List.range 33).map (fun b => (l.filter (fun e => decide (degreeBinOf e.2 < b))).length)
  (((List.range 33).flatMap bin).flatMap (fun e => leBytes 8 e.1), (starts ++ [l.length]).flatMap (leBytes 4))

/-- DEGREE_BIN.  All three ranges are looked up first, so nothing is written where a page of one is unmapped (the model's choice,
assumption 174). -/
def execDegreeBin (cmd : HostCmd) (s : State) : Out :=
  hostRow 0x0205 cmd (fun x p s =>
    let a := cP x.cmd 0
    let n := cP x.cmd 1
    let o := cP x.cmd 2
    let f := cP x.cmd 3
    if s.partState p = ptFree then .badState s p
    else if a % 16 ≠ 0 ∨ o % 8 ≠ 0 ∨ f % 4 ≠ 0 then .no s stBadAddress
    else if n = 0 ∨ 2 ^ 32 ≤ n then .no s stBadLength
    else
      match s.firstBad p false a (16 * n), s.firstBad p true o (8 * n), s.firstBad p true f 136 with
      | some va, _, _ => s.faultAt p va
      | _, some va, _ => s.faultAt p va
      | _, _, some va => s.faultAt p va
      | _, _, _ =>
        match s.hubRead 7 p a (16 * n) with
        | (none, s) => .no s stMemUe
        | (some b, s) =>
          let w := numsOf 8 (2 * n) b
          let l := (List.range n).map (fun i => (w.getD (2 * i) 0, w.getD (2 * i + 1) 0))
          if l.any (fun e => e.2 / 2 ^ 32 != 0) then .no s stReserved
          else
            let (ids, offs) := binRows l
            match s.hubWrite 7 p o ids with
            | (false, s) => .no s stMemUe
            | (true, s) =>
              match s.hubWrite 7 p f offs with
              | (false, s) => .no s stMemUe
              | (true, s) => .ok s n) s

/-! ### What a load is checked for (R580, 13 R447, R452, 15 R505, R508) -/

/-- Whether a program names a state slot that a group with `n` of them lacks. -/
def progNames (ws : List Nat) (n : Nat) : Bool :=
  let bad (x : Nat) : Bool := decide (2 + n ≤ x) && decide (x ≤ 5)
  (progBody ws).any (fun w => bad (bits w 5 5) || bad (bits w 10 6) || bad (bits w 16 6)
    || (bits w 0 5 != 0x10 && bad (bits w 22 6)))

/-- A reserved encoding or field of a group record (13 R448). -/
def grpBad (g : Grp) (nprog : Nat) : Bool :=
  let w := g.f 0 4
  decide (nprog ≤ g.prog) || bits w 6 2 != 0 || bit w 19 || (Rnd.ofCode (bits w 8 3)).isNone || decide (2 < bits w 12 4)
    || decide (4 < g.nstate) || [20, 24, 28].any (fun b => decide (2 < bits w b 4)) || decide (2 < bits (g.f 4 4) 0 4)
    || g.f 4 4 / 16 != 0 || g.f 0x1E 2 != 0 || g.f 0x60 32 != 0

/-- The entries of the group map: KIND, OBJECT, FIRST, GROUP, and whether a reserved bit is set. -/
def State.mapEntries (s : State) (p : Nat) : List (Nat × Nat × Nat × Nat × Bool) :=
  (List.range (s.fld (STEP_UPD_CFG_NMAP p))).map (fun i =>
    let a := s.hubNum p (s.fld (STEP_UPD_TABLES_MAP p) + 16 * i) 8
    let b := s.hubNum p (s.fld (STEP_UPD_TABLES_MAP p) + 16 * i + 8) 8
    (bits a 56 1, bits b 0 16, bits a 0 48, bits a 48 8, a / 2 ^ 57 != 0 || b / 2 ^ 16 != 0))

/-- Whether the state vectors of a group leave a row record or overlap its vector, its version or each other (13 R448, 10
R349). -/
def rowLayoutBad (g : Grp) (x : Slot) : Bool :=
  let parts := (x.off, x.vecBytes) :: (x.verOff, 2) :: (List.range g.nstate).map (fun k =>
    (g.aOff k, x.elems * ((g.aType k).bits / 8)))
  parts.any (fun a => decide (x.recBytes < a.1 + a.2))
    || parts.zipIdx.any (fun a => parts.zipIdx.any (fun b =>
      decide (a.2 < b.2) && decide (a.1.1 < b.1.1 + b.1.2) && decide (b.1.1 < a.1.1 + a.1.2)))

/-- DETAIL 1: programs and group tables. -/
def State.tablesBad (s : State) (p : Nat) : Bool :=
  let np := s.fld (STEP_UPD_CFG_NPROG p)
  let ng := s.fld (STEP_UPD_CFG_NGROUP p)
  let rows := (s.mapEntries p).filter (fun e => e.1 == 1)
  decide (64 < np) || np == 0 || decide (256 < ng) || ng == 0
    || (s.firstBad p false (s.fld (STEP_UPD_TABLES_PROGS p)) (128 * np)).isSome
    || (s.firstBad p false (s.fld (STEP_UPD_TABLES_GROUPS p)) (128 * ng)).isSome
    || (List.range np).any (fun n => progBad (s.program p n))
    || (List.range ng).any (fun n =>
      let g := s.groupRec p n
      grpBad g np || progNames (s.program p g.prog) g.nstate)
    || (s.jobTables p).any (fun d =>
      (rows.filter (fun e => e.2.1 == tblId d)).any (fun e => (s.slotsOf p d).any (fun t =>
        (s.slot t.1 t.2).any (rowLayoutBad (s.groupRec p e.2.2.2.1)))))

/-- The order of (KIND, OBJECT, FIRST). -/
def mapBefore (a b : Nat × Nat × Nat × Nat × Bool) : Bool :=
  decide (a.1 < b.1) || (a.1 == b.1 && (decide (a.2.1 < b.2.1) || (a.2.1 == b.2.1 && decide (a.2.2.1 < b.2.2.1))))

def mapSorted : List (Nat × Nat × Nat × Nat × Bool) → Bool
  | a :: b :: r => mapBefore a b && mapSorted (b :: r)
  | _ => true

/-- DETAIL 2: the group map. -/
def State.mapBad (s : State) (p : Nat) : Bool :=
  let l := s.mapEntries p
  let n := s.fld (STEP_UPD_CFG_NMAP p)
  decide (65536 < n) || (s.firstBad p false (s.fld (STEP_UPD_TABLES_MAP p)) (16 * n)).isSome || !mapSorted l
    || l.any (fun e => e.2.2.2.2 || decide (s.fld (STEP_UPD_CFG_NGROUP p) ≤ e.2.2.2.1)
      || !l.any (fun f => f.1 == e.1 && f.2.1 == e.2.1 && f.2.2.1 == 0))

/-- DETAIL 3: whether some hosted slot of a training job has no stash that is mapped and holds M micro-batches (14 R469, assumption
111). -/
def State.stashBad (s : State) (p : Nat) : Bool :=
  let j := s.job p
  !s.on (STEP_CFG_SERVE p) && (j.hosted s.me).any (fun slot => !j.stash.any (fun e =>
    e.1 == slot && decide (s.fld (STEP_CFG_MICRO p) * Config.stashBytes p slot ≤ e.2.2) && (s.firstBad p true e.2.1 e.2.2).isNone))

/-- DETAIL 4: the feed map against the device's own feed and those that its peers in the job have told it. -/
def State.feedBad (s : State) (p : Nat) : Bool :=
  let j := s.job p
  !j.inJob s.me || j.feedOf s.me != s.fld HUB_FEED_OWN
    || (List.range 256).any (fun l =>
      let d := s.peerOf l
      j.inJob d && (s.lam l).feed.any (fun f => f != j.feedOf d))

/-- Whether a range of partition memory is mapped writable and lies outside the pounds. -/
def State.reserveShut (s : State) (p base n : Nat) : Bool :=
  base % 2 ^ 21 != 0 || (List.range (n / 2 ^ 21)).any (fun i =>
    match s.hubTranslate p (base + i * 2 ^ 21) with
    | some (k, true) => decide (s.poundBottom p < k % 2 ^ 36 + 2 ^ 21)
    | _ => true)

/-- DETAIL 5: the reserve of this device against the parts of each device whose buddy it is by the order of R506, and its place in
memory (15 R508). -/
def State.reserveBad (s : State) (p : Nat) : Bool :=
  let j := s.job p
  let mine := j.devices.filter (fun d => (j.buddies d).head? == some s.me)
  let size := 2 ^ 30 * s.fld (HUB_SNAP_CFG_SIZE p)
  !mine.isEmpty && (mine.any (fun d => decide (size < s.partsBytes p d)) || s.reserveShut p (s.fld (HUB_SNAP_CFG_BASE p)) size)

/-- DETAIL 8: ranks 1 to 5 of the claim table. -/
def State.poundBad (s : State) (p : Nat) : Bool := (s.partSecs p).any (fun sec => !(s.layPound p sec).fixed)

/-! ### Job manifests (R580) -/

/-- A field of a manifest item. -/
def itF (it : List Byte) (off n : Nat) : Nat := leNat ((it.drop off).take n)

/-- The registers that an item may write: a RW or RWL field lies there. -/
def itemReg (a : Nat) : Bool := (regsOf a).any (fun r => r.2.2.any (fun d => d.acc == .rw || d.acc == .rwl))

/-- One item of a manifest; the DETAIL of a refusal. -/
def State.loadItem (s : State) (p : Nat) (it : List Byte) : Except Nat State :=
  let va := itF it 8 8
  let core := bits (itF it 4 4) 0 10
  let mine := s.corePart core == some p
  match itF it 0 2 with
  | 1 =>
    let off := itF it 4 4
    if off % 8 ≠ 0 ∨ 0x1000 ≤ off ∨ !itemReg (blockAddr p off) then .error 7 else .ok (s.writeAt (blockAddr p off) 8 va)
  | 2 =>
    let n := itF it 0x10 8
    if !mine ∨ n % 8 ≠ 0 ∨ 65536 < n ∨ s.taskRuns core then .error 7
    else .ok (s.wrB (keyProgram core 0) (s.rdB (keyHost va) n))
  | 3 =>
    let ph := bits (itF it 4 4) 16 2
    if !mine ∨ ph = 3 then .error 7 else .ok (s.modJob p (fun j => { j with tmpls := j.tmpls ++ [(core, ph, va)] }))
  | 4 =>
    let n := itF it 4 4
    match s.hubPeek p va (8 * n) with
    | none => .error 7
    | some b =>
      let l := (numsOf 8 n b).map (fun w => (bits w 0 32, bits w 32 32))
      if 1024 < n ∨ l.any (fun e => e.2 == 0) then .error 7 else .ok (s.modJob p (fun j => { j with buckets := l }))
  | 5 =>
    match s.hubPeek p va 16384 with
    | none => .error 7
    | some b => .ok (s.modJob p (fun j => { j with feeds := b.map BitVec.toNat }))
  | 6 =>
    match s.hubPeek p va 32768 with
    | none => .error 7
    | some b =>
      let l := numsOf 2 16384 b
      if l.any (fun d => decide (16384 ≤ d)) then .error 7 else .ok (s.modJob p (fun j => { j with slots := l }))
  | 7 => .ok (s.modJob p (fun j => { j with batch := va }))
  | 8 => .ok (s.modJob p (fun j => { j with stash := j.stash ++ [(bits (itF it 4 4) 0 14, va, itF it 0x10 8)] }))
  | _ => .error 7

/-- The hub's read of the table that an item names, recorded (08 R282, R284). -/
def State.itemSeen (s : State) (p : Nat) (it : List Byte) : State :=
  let va := itF it 8 8
  match itF it 0 2 with
  | 4 => s.hubSeen 7 p va (8 * itF it 4 4)
  | 5 => s.hubSeen 7 p va 16384
  | 6 => s.hubSeen 7 p va 32768
  | _ => s

/-- An item refused: a program for a core that runs a task is reported (03 R117). -/
def State.itemRefused (s : State) (p : Nat) (it : List Byte) : State :=
  let core := bits (itF it 4 4) 0 10
  if itF it 0 2 = 2 ∧ s.corePart core = some p ∧ s.taskRuns core then s.refuseLoad core 0 else s

/-- The items in manifest order, up to the first that is refused. -/
def State.loadItems (s : State) (p : Nat) : List (List Byte) → Nat × State
  | [] => (0, s)
  | it :: r =>
    let s := s.itemSeen p it
    match s.loadItem p it with
    | .error d => (d, s.itemRefused p it)
    | .ok s => s.loadItems p r

/-- The update tables that the checks read (13 R447, R448, R452; 08 R282, R284). -/
def State.tablesSeen (s : State) (p : Nat) : State :=
  ((s.hubSeen 7 p (s.fld (STEP_UPD_TABLES_PROGS p)) (128 * s.fld (STEP_UPD_CFG_NPROG p))).hubSeen 7 p
    (s.fld (STEP_UPD_TABLES_GROUPS p)) (128 * s.fld (STEP_UPD_CFG_NGROUP p))).hubSeen 7 p
    (s.fld (STEP_UPD_TABLES_MAP p)) (16 * s.fld (STEP_UPD_CFG_NMAP p))

/-- The DETAIL of the checks after the last item; 0 where START may follow. -/
def State.loadDetail (s : State) (p : Nat) : Nat :=
  if s.tablesBad p then 1
  else if s.mapBad p then 2
  else if s.stashBad p then 3
  else if s.feedBad p then 4
  else if s.reserveBad p then 5
  else if s.poundBad p then 8
  else if !s.startOk p then 6
  else 0

/-- WEIGHT_DIGEST over the state that the device holds (14 R486, R487, R492). -/
def State.heldDigest (s : State) (p : Nat) : List Byte :=
  let mine := (s.job p).hosted s.me
  let leaf (c : Nat) : List Nat := toNats (if mine.contains c then s.denseDigest p c else shaBytes [])
  shaBytes (ofNats (merkle 14 ((List.range 16384).map leaf)) ++ leBytes 32 (s.fullTableSum p))

/-- The last training record in the ledger region whose WEIGHT_DIGEST is the model digest (14 R493). -/
def State.modelRecord (s : State) (p : Nat) (model : List Byte) : Option (List Byte) :=
  let region := (s.hubPeek p (s.fld (STEP_LEDGER_BASE p)) (s.ledgerSize p)).getD []
  (parseEntries (region.length / 64 + 1) region).reverse.find? (fun b => recWeight b == model && !bit (recFlags b) 6)

/-- Its step; where the region holds none, a free value. -/
def State.modelStepOf (s : State) (p : Nat) (model : List Byte) : Nat × State :=
  match s.modelRecord p model with
  | some b => (recStep b, s)
  | none => s.free 64

/-- The plan complete: buddies, the layout of the pounds (19 R634), and the partition STARTED. -/
def State.loaded (s : State) (p : Nat) (model : List Byte) : State :=
  let (ms, s) := if s.on (STEP_CFG_SERVE p) then s.modelStepOf p model else (0, s)
  let s := s.modJob p (fun j => { j with model := model, modelStep := ms, fullSum := true })
  ((s.setBuddies p).settlePounds p).start p

/-- JOB_LOAD. -/
def execJobLoad (cmd : HostCmd) (s : State) : Out :=
  hostRow 0x0300 cmd (fun x p s =>
    let b := s.rdB (keyHost (cData x.cmd)) (cLen x.cmd)
    let n := itF b 4 4
    if s.partState p ≠ ptBuilding then .badState s p
    else if cLen x.cmd < 64 ∨ cLen x.cmd ≠ 64 + 32 * n ∨ itF b 0 2 ≠ 1 then .no s stLoadRefused 7
    else
      let s := s.setJob p JobSt.none
      match s.loadItems p (piecesOf 32 n (b.drop 64)) with
      | (0, s) =>
        let s := s.tablesSeen p
        let d := s.loadDetail p
        let model := (b.drop 0x20).take 32
        if s.partState p = ptFenced then .no s stMemUe
        else if d ≠ 0 then .no s stLoadRefused d
        else if !s.on (STEP_CFG_SERVE p) && model.any (· != 0) then .no s stLoadRefused 7
        else if s.on (STEP_CFG_SERVE p) ∧ s.heldDigest p ≠ model then .no s stModelDigest
        else .ok (s.loaded p model) (s.fld (STEP_JOB_ID_JOB_ID p))
      | (d, s) => if s.partState p = ptFenced then .no s stMemUe else .no s stLoadRefused d) s

/-! ### Steps (R577) -/

/-- JOB_STOP at rest: the head is signed, the job stops; one that has stopped keeps its cause. -/
def State.stopJob (s : State) (p : Nat) : State :=
  if s.jstate p = jsStopped then s.signHead p else (s.signHead p).setJstate p jsStopped jcHost

def needsStarted (p : Nat) (s : State) : Option HRes :=
  if s.partState p = ptStarted then none else some (.badState s p)

/-- JOB_STOP. -/
def execJobStop (cmd : HostCmd) (s : State) : Out :=
  boundaryRow 0x0301 cmd needsStarted (fun _ p s => (s.stopJob p, stOk, 0)) s

/-- JOB_RESUME. -/
def execJobResume (cmd : HostCmd) (s : State) : Out :=
  hostRow 0x0302 cmd (fun _ p s =>
    if s.partState p = ptStarted ∧ s.jstate p = jsStopped ∧ s.fld (STEP_STATUS_CAUSE p) = jcHost then .ok (s.proceed p)
    else .badState s p) s

/-- STEP_RUN. -/
def execStepRun (cmd : HostCmd) (s : State) : Out :=
  hostRow 0x0400 cmd (fun x p s =>
    if s.partState p ≠ ptStarted then .badState s p
    else
      let n := s.stepNum p
      let s := s.modJob p (fun j => { j with runTo := cP x.cmd 0 + 1 })
      .ok (if s.jstate p = jsIdle ∧ !s.on (STEP_CFG_SERVE p) then s.proceed p else s) n) s

/-- TABLE_REPLACE (10 R375). -/
def execTableReplace (cmd : HostCmd) (s : State) : Out :=
  boundaryRow 0x0500 cmd (fun p s => if s.partState p = ptFree then some (.badState s p) else none)
    (fun c p s => s.applyCmd c p) s

/-- HOT_REFRESH (10 R368). -/
def execHotRefresh (cmd : HostCmd) (s : State) : Out :=
  boundaryRow 0x0501 cmd needsStarted (fun c p s => s.applyCmd c p) s

/-! ### Serving (14 R492 to R494) -/

/-- A receipt. -/
def State.receipt (s : State) (p index : Nat) (req rep : List Byte) : List Byte :=
  let j := s.job p
  leBytes 8 index ++ leBytes 8 (s.fld (STEP_JOB_ID_JOB_ID p)) ++ req ++ rep ++ fitB 32 j.model ++ leBytes 8 j.modelStep
    ++ leBytes 8 (s.me + p * 2 ^ 14)

/-- A batch begins: the request is hashed as it was posted (14 R493), its task set is launched for the lowest slot that the device
hosts. -/
def State.serveStart (s : State) (p : Nat) (c : HostCmd) : HRes :=
  match s.firstBad p false (cP c 0) (cP c 1) with
  | some va => s.faultAt p va
  | none =>
    if s.ledgerRoom p then
      let s := s.hubSeen 7 p (cP c 0) (cP c 1)
      let req := shaBytes ((s.hubPeek p (cP c 0) (cP c 1)).getD [])
      .stay (((s.launchSet p 2 (((s.job p).hosted s.me).headD 0) 0).modJob p (fun j => { j with
        serving := some c.packet, reqDigest := req, exchs := j.exchs.filter (fun x => x.desc.isNone) })).pin p 1)
    else .stay (s.setJstate p jsStopped jcLedger)

/-- A batch ends once every task has: receipt and record are written.  The length of a reply batch is not stated: it is a
free value. -/
def State.serveEnd (s : State) (p : Nat) (c : HostCmd) : HRes :=
  let (n, s) := s.free 32
  match s.firstBad p false (cP c 2) n, s.firstBad p true (cP c 3) 128 with
  | some va, _ => ((s.modJob p (fun j => { j with serving := none })).unpin p 1).faultAt p va
  | _, some va => ((s.modJob p (fun j => { j with serving := none })).unpin p 1).faultAt p va
  | _, _ =>
    let j := s.job p
    let i := s.nextIdx p
    let s := s.hubSeen 7 p (cP c 2) n
    let req := j.reqDigest
    let rep := shaBytes ((s.hubPeek p (cP c 2) n).getD [])
    let s := (s.hubWrite 7 p (cP c 3) (s.receipt p i req rep)).2
    let s := s.appendRecord p (recordBytes j.modelStep (s.fld (STEP_JOB_ID_JOB_ID p)) (shaBytes (req ++ rep)) j.batchNo
      (fitB 32 j.model) 0 (b2n (!s.on (STEP_COLL_CFG_ORDER p)) * 8 + b2n j.coFed * 32 + 2 ^ 6) 0 j.head)
    .ok ((s.modJob p (fun j => { j with serving := none, batchNo := j.batchNo + 1, running := [] })).unpin p 1) i n

/-- SERVE_BATCH: its row begins the batch, and ends it once its tasks have ended. -/
def execServeBatch (cmd : HostCmd) (s : State) : Out :=
  hostRow 0x0401 cmd (fun x p s =>
    let j := s.job p
    if s.partState p ≠ ptStarted ∨ !s.on (STEP_CFG_SERVE p) then .badState s p
    else
      match j.serving with
      | some pk =>
        if pk ≠ x.cmd.packet then .stay s
        else if j.running.any (fun c => s.taskState c == tkFaulted || s.taskState c == tkHalted) then
          .badState ((s.modJob p (fun j => { j with serving := none, running := [] })).unpin p 1) p
        else if j.running.all (fun c => s.taskState c == tkEnded) then s.serveEnd p x.cmd
        else .stay s
      | none =>
        if s.jstate p = jsStopped then
          if s.fld (STEP_STATUS_CAUSE p) = jcLedger then .stay s else .badState s p
        else if !j.hotDue.isEmpty then .stay s    -- the copies of a hot refresh come first (10 R368)
        else s.serveStart p x.cmd) s

/-- LEDGER_READ: whole entries, in order, from a record on. -/
def takeEntries : Nat → List LedEnt → List LedEnt
  | _, [] => []
  | n, e :: r => if entryLen e.body ≤ n then e :: takeEntries (n - entryLen e.body) r else []

def execLedgerRead (cmd : HostCmd) (s : State) : Out :=
  hostRow 0x0402 cmd (fun x p s =>
    if s.partState p = ptFree then .badState s p
    else
      let all := (s.job p).ledger
      let from_ := all.drop ((all.findIdx? (fun e => e.kind == 1 && e.index == cP x.cmd 0)).getD all.length)
      let l := takeEntries (cLen x.cmd) from_
      let b := l.flatMap (fun e => entryBytes e.kind e.index e.body)
      .ok (s.wrB (keyHost (cData x.cmd)) b) (l.filter (fun e => e.kind == 1)).length b.length) s

/-! ### The aperture (R560) -/

/-- Whether an access of BAR2 is unsupported: PF0 has no aperture, no partition runs behind it, it is not enabled, or it must travel on
an IDE stream and does not (16 R522, R551). -/
def State.apertureShut (s : State) (q : Requester) : Bool :=
  let p := q.fn.val - 1
  q.fn == 0 || !(s.partState p == ptBuilding || s.partState p == ptStarted) || !s.on (PART_APERTURE_EN p) || s.fnShut q

def State.apertureVa (s : State) (p off : Nat) : Nat := 2 ^ 28 * s.fld (PART_APERTURE_BASE p) + off

/-- APERTURE_READ. -/
def execApertureRead (q : Requester) (offset : BitVec 28) (len : Nat) (s : State) : Out :=
  let p := q.fn.val - 1
  let s := s.asked
  if !s.hubUp then .next (s.answer .completerAbort)
  else if s.standing then .next (s.holdReq (.barRead q offset len))
  else if s.apertureShut q then .next (s.answer .unsupported)
  else
    match s.hubRead 7 p (s.apertureVa p offset.toNat) len with
    | (some b, s) => .next (s.answer (.data b))
    | (none, s) => .next (s.answer .completerAbort)

/-- Bytes that the host writes at a virtual address: those of the update tables wait during a step (13 R450). -/
def State.hostWrite (s : State) (p va : Nat) (data : List Byte) : State :=
  match s.hubKeys p va data.length with
  | none => s
  | some ks =>
    let cells := (ks.zip data).zipIdx
    let late := (cells.filter (fun e => s.tableWaits p (va + e.2))).map Prod.fst
    let now := (cells.filter (fun e => !s.tableWaits p (va + e.2))).map Prod.fst
    let s := if late.isEmpty then s else s.holdMem p late
    if now.isEmpty then s else ((s.walkSeen 7 p va data.length).writeKeys' 7 now).2

/-- APERTURE_WRITE: discarded and logged where its page is not there or not writable. -/
def execApertureWrite (q : Requester) (offset : BitVec 28) (data : List Byte) (s : State) : Out :=
  let p := q.fn.val - 1
  let s := s.asked
  if s.standing then .next (s.holdReq (.barWrite q offset data))
  else if !s.hubUp || s.apertureShut q then .next s
  else
    let va := s.apertureVa p offset.toNat
    if (s.firstBad p true va data.length).isSome then
      .next ((s.walkSeen 7 p va data.length).file 0x0050 clsNotice 7 (p + 1) va (some p))
    else .next (s.hostWrite p va data)

end Sys2Proof.Machine
end

