-- ==== Sys2Proof/Machine/Errors.lean ====
section
/-! DEFINITION. Errors and diagnostics (18): the log and its mirror, fatal latches, the fail-safe state and its dump,
counters, self-tests, the errors that units detect. -/

namespace Sys2Proof.Machine

/-! ### The log (R586 to R589) -/

/-- An entry that must not be overwritten: its window is open, or it is not mirrored while mirroring is on. -/
def State.kept (s : State) (e : LogEnt) : Bool := e.windowOpen || (s.on ERR_MIRROR_CFG_EN && !e.mirrored)

def State.logFree (s : State) : Nat := 4096 - (s.e.log.filter s.kept).length

/-- ERR_LOG_STAT.FREE follows the log. -/
def State.setLog (s : State) (l : List LogEnt) : State :=
  let s := { s with e := { s.e with log := l } }
  s.setFld ERR_LOG_STAT_FREE s.logFree

/-- The bytes of an entry (R586). -/
def logBytes (e : LogEnt) : List Byte :=
  leBytes 8 e.time
    ++ leBytes 4 (e.rep.src % 2 ^ 16 + e.rep.cls % 8 * 2 ^ 16 + (e.rep.part.getD 0) % 8 * 2 ^ 19 + b2n e.rep.part.isSome * 2 ^ 22)
    ++ leBytes 2 e.rep.detail ++ leBytes 2 e.count ++ leBytes 8 e.rep.arg ++ leBytes 4 e.seq ++ leBytes 4 e.last

/-- The first element that `p` holds for, changed. -/
def modFirst {α : Type} (p : α → Bool) (f : α → α) : List α → List α
  | [] => []
  | x :: r => if p x then f x :: r else x :: modFirst p f r

def LogEnt.merges (r : Report) (e : LogEnt) : Bool :=
  e.windowOpen && e.rep.src == r.src && e.rep.cls == r.cls && e.rep.detail == r.detail

/-- A report merged or recorded; lost where R589 says. -/
def State.logReport (s : State) (r : Report) : State :=
  if s.e.log.any (LogEnt.merges r) then
    s.setLog (modFirst (LogEnt.merges r) (fun e =>
      { e with count := min (e.count + 1) 0xFFFF, last := s.timeUs - e.time }) s.e.log)
  else
    let low := decide (r.cls ≤ clsNotice)
    if s.logFree = 0 ∨ (low ∧ s.logFree < 64) then s.bump (if low then ERR_LOST_LOW else ERR_LOST_HIGH) 1
    else
      let l := s.e.log
      let l := if 64 ≤ (l.filter LogEnt.windowOpen).length then
        modFirst LogEnt.windowOpen (fun e => { e with windowOpen := false }) l else l
      let l := if 4096 ≤ l.length then dropFirst (fun e => !s.kept e) l else l
      let q := s.fld ERR_LOG_STAT_SEQ
      ((s.setLog (l ++ [⟨s.timeUs, r, 1, q, 0, true, false⟩])).setFld ERR_LOG_STAT_SEQ (q + 1)).setFld ERR_LOG_STAT_NEXT (q + 1)

/-- REPORT_LOG: the oldest report of the intake (R587, R588). -/
def execReportLog (s : State) : Out :=
  match s.e.intake with
  | [] => .next s
  | r :: rest => .next ({ s with e := { s.e with intake := rest } }.logReport r)

/-- LOG_WINDOW_CLOSE: windows close in the order in which they opened (R587). -/
def execLogWindowClose (index : Nat) (s : State) : Out :=
  match s.e.log.find? LogEnt.windowOpen with
  | none => .next s
  | some e =>
    if e.seq % 4096 = index then
      .next (s.setLog (modFirst LogEnt.windowOpen (fun e => { e with windowOpen := false }) s.e.log))
    else .next s

/-! ### The mirror (R590) -/

def State.mirrorN (s : State) : Nat := 2 ^ s.fld ERR_MIRROR_CFG_LOG2N

/-- ERR_RING. -/
def execErrRing (cmd : HostCmd) (s : State) : Out :=
  hostRow 0x0800 cmd (fun x _ s =>
    let a := cP x.cmd 0
    let n := cP x.cmd 1
    if a % 64 ≠ 0 then .no s stBadAddress
    else if n < 64 ∨ 65536 < n ∨ 2 ^ Nat.log2 n ≠ n then .no s stBadLength
    else
      let s := ((s.setFld ERR_MIRROR_BASE_ADDR (a / 64)).setFld ERR_MIRROR_CFG_EN 1).setFld ERR_MIRROR_CFG_LOG2N (Nat.log2 n)
      let s := (s.setFld ERR_MIRROR_TAIL_TAIL 0).setFld ERR_MIRROR_HEAD_HEAD 0
      .ok (s.setLog s.e.log)) s

/-- MIRROR_COPY: the next final entry in SEQ order; vector 1 of PF0. -/
def execMirrorCopy (s : State) : Out :=
  let t := s.fld ERR_MIRROR_TAIL_TAIL
  let t' := (t + 1) % s.mirrorN
  if !s.hubUp || !s.on ERR_MIRROR_CFG_EN || t' = s.fld ERR_MIRROR_HEAD_HEAD % s.mirrorN then .next s
  else
    match s.e.log.find? (fun e => !e.mirrored) with
    | none => .next s
    | some e =>
      if e.windowOpen then .next s
      else
        let s := s.wrB (keyHost (s.fld ERR_MIRROR_BASE_ADDR * 64 + 32 * t)) (logBytes e)
        let s := s.setLog (modFirst (fun e => !e.mirrored) (fun e => { e with mirrored := true }) s.e.log)
        .next ((s.setFld ERR_MIRROR_TAIL_TAIL t').fire 0 1)

/-- MIRROR_HEAD_WRITE. -/
def execMirrorHeadWrite (value : BitVec 16) (s : State) : Out :=
  let s := s.asked
  if s.hubUp then .next (s.setFld ERR_MIRROR_HEAD_HEAD value.toNat) else .next s

/-! ### ERR_CTRL (R600) -/

/-- CLEAR_LOST. -/
def execClearLost (s : State) : Out :=
  let s := s.asked
  if s.hubUp then .next ((s.setFld ERR_LOST_LOW 0).setFld ERR_LOST_HIGH 0) else .next s

/-- CNT_FREEZE. -/
def execCntFreeze (s : State) : Out :=
  let s := s.asked
  if s.hubUp then .next (s.setFld ERR_CTRL_CNT_FREEZE 1) else .next s

/-- CNT_UNFREEZE. -/
def execCntUnfreeze (s : State) : Out :=
  let s := s.asked
  if s.hubUp then .next (s.setFld ERR_CTRL_CNT_FREEZE 0) else .next s

/-- The registers of counters (assumption 34). -/
def counterRows : List RegRow :=
  [row_MC_BUSY, row_MC_STALL_STREAM, row_MC_STALL_ACC, row_MC_STALL_CRED, row_MC_STALL_PLANE, row_TC_ISSUED, row_TC_NOREADY,
   row_TC_BERTH_FULL, row_CL_XBAR_WAIT, row_TC_BANK_WAIT, row_STK_CE_COUNT, row_STK_SLOW, row_TBL_INVALID_IDX,
   row_TBL_LATE_DROP, row_ARB_OVERHOLD, row_FAB_DROP, row_FAB_PDROP, row_OP_FEC, row_OP_LINK, row_STEP_UPD_STATUS]

/-- Whether a field key is that of a counter; of ARB_OVERHOLD only COUNT is one. -/
def isCounter (k : Nat) : Bool :=
  counterRows.any (fun r => decide (r.base * 64 ≤ k) && (match inDims r.size r.dims (k / 64 - r.base) with
    | some o => r.base != row_ARB_OVERHOLD.base || o * 64 + k % 64 == 48
    | none => false))

/-- CNT_CLEAR; the windows of the health monitor go on counting (15 R502). -/
def execCntClear (s : State) : Out :=
  let s := s.asked
  if s.hubUp then
    .next { s with
      regs := Tab.drop s.regs isCounter
      j := { s.j with cleared := (List.range 3).foldl (fun l t => Tab.put l 0 t (Tab.get s.j.cleared 0 t + s.riskCount t)) s.j.cleared } }
  else .next s

/-! ### Fatal reports (R591) and the fail-safe state (R592, R593) -/

/-- A latch written by the hardware that detects the error. -/
def State.latch (s : State) (i detail arg : Nat) : State :=
  if s.on (ERR_FATAL_VALID i) then s.setFld (ERR_FATAL_MULTI i) 1
  else
    (((s.setFld (ERR_FATAL_VALID i) 1).setFld (ERR_FATAL_DETAIL i) detail).setFld (ERR_FATAL_TIME i) s.timeUs).setFld
      (ERR_FATAL_ARG i) arg

/-- FATAL_LATCH_CLEAR: a write of 1 to VALID. -/
def execFatalLatchClear (i : Fin 16) (s : State) : Out :=
  let s := s.asked
  if s.hubUp then .next ((s.setFld (ERR_FATAL_VALID i) 0).setFld (ERR_FATAL_MULTI i) 0) else .next s

/-- A dump slot's key; its header's FORMAT is 1; COMPLETE; SEQ. -/
def State.slotKey (s : State) (i : Nat) : Nat := keyStack 0 (s.dumpBase + i * 2 ^ 25)
def State.slotUsed (s : State) (i : Nat) : Bool := s.rd (s.slotKey i) 2 == 1
def State.slotComplete (s : State) (i : Nat) : Bool := s.slotUsed i && bit (s.rd (s.slotKey i) 4) 16
def State.slotSeq (s : State) (i : Nat) : Nat := if s.slotUsed i then s.rd (s.slotKey i + 8) 8 else 0

/-- The slot with the highest complete SEQ. -/
def State.bestSlot (s : State) : Option Nat :=
  match s.slotComplete 0, s.slotComplete 1 with
  | true, true => some (if s.slotSeq 0 < s.slotSeq 1 then 1 else 0)
  | true, false => some 0
  | false, true => some 1
  | false, false => none

/-- The fail-safe state entered by the trigger of a latch: FAULT_N, accesses, optics, the dump; a second trigger changes
nothing (R592, R593, 19 R623). -/
def State.failsafe (s : State) (i : Nat) : State :=
  if s.on ERR_FAILSAFE_ACTIVE then s
  else
    let s := (List.range 32).foldl (fun s n => if s.on (OP_LASER_SHUT n) then s else s.shutPort n) s
    let s := (s.setFld ERR_FAILSAFE_ACTIVE 1).setFld ERR_FAILSAFE_LAST_TRIGGER i
    let s := (s.setFld ERR_FAILSAFE_DUMP_STATE 1).setFld ERR_FAILSAFE_DUMP_SLOT (if s.bestSlot = some 0 then 1 else 0)
    { s with
      fab := { s.fab with enA := false, enB := false }
      pm := { s.pm with
        fault := true, trigger := s.timeUs, pads := s.pm.pads.map (fun x => { x with fault := true, enA := false, enB := false }) } }

/-- Whether the units that detect errors are powered and out of reset. -/
def State.awake (s : State) : Bool := s.pm.released && !s.pm.moor

/-- A FATAL report: its latch, its log entry while the hub is out of reset, the fail-safe state; while that is active, its latch alone
(R591, R593). -/
def State.fatal (s : State) (i detail kind index arg : Nat) : State :=
  let s := s.latch i detail arg
  if s.on ERR_FAILSAFE_ACTIVE then s
  else (if s.awake then s.file detail clsFatal kind index arg else s).failsafe i

/-- A FATAL report of a unit of the hub die, which is powered and out of reset. -/
def State.hubFatal (s : State) (i detail kind index arg : Nat) : State :=
  if s.awake then s.fatal i detail kind index arg else s

/-! ### The fatal dump (R595 to R598) -/

/-- A section of the dump: TYPE, COUNT, bytes. -/
structure DumpSec where
  type : Nat
  count : Nat
  body : List Byte

/-- Bytes whose number and value the spec does not give: firmware trace, sensors and rails. -/
def State.freeBytes (s : State) : List Byte × State :=
  let (n, s) := s.free 20
  let (v, s) := s.free (8 * n)
  (leBytes n v, s)

/-- Registers as 8-byte words, in the order named. -/
def State.regBytes (s : State) (l : List Nat) : List Byte := l.flatMap (fun a => leBytes 8 (s.readWord true a))

def State.latchBytes (s : State) : List Byte :=
  (List.range 16).flatMap (fun i => (List.range 3).flatMap (fun w => leBytes 8 (s.readWord true (0x3000100 + 32 * i + 8 * w)))
    ++ List.replicate 8 0) ++ leBytes 8 (s.readWord true 0x3000008)

/-- The record of a core in CORES (R597), its items in the order named (assumption 149). -/
def State.coreRecord (s : State) (core : Nat) : List Byte :=
  fitB 256 (leBytes 4 (s.taskState core) ++ leBytes 4 (s.taskId core)
    ++ (List.range 16).flatMap (fun t => leBytes 4 (s.pc core t) ++ leBytes 4 (s.flags core t).toNat)
    ++ fitB 32 (Tab.get s.core.lastFault [] core))

/-- The cores whose registers a dump may hold: those of OPVIS partitions and of free sections (R597, R598). -/
def State.dumpCores (s : State) : List Nat :=
  (List.range 800).filter (fun c => match s.corePart c with
    | some p => s.on (PART_CFG_OPVIS p)
    | none => true)

/-- The registers of a core in CORE_REGS (R597): its number, the scalar and the mask registers of its 16 threads, its vector registers, its
tile handles (assumption 149). -/
def State.coreRegs (s : State) (core : Nat) : List Byte :=
  leBytes 8 core ++ (List.range 16).flatMap (fun t => (List.range 32).flatMap (fun r => leBytes 8 (s.sreg core t r).toNat))
    ++ (List.range 16).flatMap (fun t => (List.range 16).flatMap (fun r => leBytes 64 (s.mreg core t r).toNat))
    ++ (List.range 64).flatMap (fun r => leBytes 256 (Tab.get s.core.vregs 0 (64 * core + r)).toNat)
    ++ (List.range 32).flatMap (fun r => leBytes 8 (s.handle core r).toNat)

/-- The bodies of the sections of registers: PARTITIONS, FABRIC, STACKS. -/
def State.partRecord (s : State) (p : Nat) : List Byte :=
  let b := 0xB000000 + p * 0x100000
  s.regBytes [b + 0x10, b, b + 0x20, b + 0x208, b + 0x210, b + 0x230]
def State.fabRecord (s : State) : List Byte :=
  s.regBytes ([0x4800008, 0x4800018] ++ (List.range 32).flatMap (fun n => (List.range 4).map (fun i => 0x4000000 + n * 0x40000 + 8 * i)))
def State.stackRecord (s : State) (st : Nat) : List Byte :=
  s.regBytes ((List.range 66).map (fun i => 0x5000000 + st * 0x100000 + 8 * i))

/-- The ten sections in increasing TYPE; slots of the log that hold no entry follow as zeros. -/
def State.dumpSecs (s : State) : List DumpSec × State :=
  let (sensors, s) := s.freeBytes
  let (trace, s) := s.freeBytes
  ([⟨1, 16, s.latchBytes⟩, ⟨2, 4096, fitB 131072 (s.e.log.flatMap logBytes)⟩,
    ⟨3, 1024, (List.range 1024).flatMap (fun i => fitB 32 (Tab.get s.e.faultRing [] i))⟩,
    ⟨4, 800, (List.range 800).flatMap s.coreRecord⟩, ⟨5, s.dumpCores.length, s.dumpCores.flatMap s.coreRegs⟩,
    ⟨6, 8, (List.range 8).flatMap s.partRecord⟩, ⟨7, 32, s.fabRecord⟩, ⟨8, 8, (List.range 8).flatMap s.stackRecord⟩,
    ⟨9, 1, sensors ++ s.regBytes [0x10]⟩, ⟨10, 1, trace⟩], s)

/-- Directory entries and bodies from an offset on. -/
def dumpLayout : Nat → List DumpSec → List Byte × List Byte
  | _, [] => ([], [])
  | off, x :: r =>
    let (d, b) := dumpLayout (off + roundUp x.body.length 64) r
    (leBytes 4 x.type ++ leBytes 4 x.count ++ leBytes 4 off ++ leBytes 4 x.body.length ++ d, pad64 x.body ++ b)

/-- The dump ends, complete or after its first `n` sections (R596). -/
def State.endDump (s : State) (trunc : Option Nat) : State :=
  let slot := s.fld ERR_FAILSAFE_DUMP_SLOT
  let i := s.fld ERR_FAILSAFE_LAST_TRIGGER
  let (secs, s) := s.dumpSecs
  let secs := match trunc with
    | some n => secs.take n
    | none => secs
  let first := roundUp (0x100 + 16 * secs.length) 64
  let (dir, data) := dumpLayout first secs
  let body := fitB (first - 0x100) dir ++ data
  let seq := max (s.slotSeq 0) (s.slotSeq 1) + 1
  let head := leBytes 4 (1 + b2n trunc.isNone * 2 ^ 16 + b2n trunc.isSome * 2 ^ 17) ++ leBytes 4 secs.length ++ leBytes 8 seq
    ++ leBytes 8 s.pm.trigger ++ leBytes 2 i ++ leBytes 2 (s.fld (ERR_FATAL_DETAIL i))
    ++ leBytes 4 (s.me % 2 ^ 14 + s.fld FAB_POS_VALID * 2 ^ 14) ++ fitB 32 s.sec.fwDigest ++ leBytes 8 (s.fld SEC_BOOT_NONCE_NONCE)
    ++ fitB 16 s.topTree.1 ++ leBytes 8 (0x100 + body.length) ++ shaBytes body
  (s.wrB (s.slotKey slot) (fitB 0x100 head ++ body)).setFld ERR_FAILSAFE_DUMP_STATE (if trunc.isSome then 3 else 2)

/-- Whether a dump is being written. -/
def State.dumping (s : State) : Bool := s.pm.pwrGood && !s.pm.moor && s.on ERR_FAILSAFE_ACTIVE && s.fld ERR_FAILSAFE_DUMP_STATE == 1

/-- DUMP_WATCHDOG: a dump that is still being written is truncated; how many sections it has finished is free. -/
def execDumpWatchdog (s : State) : Out :=
  if s.dumping then
    let (n, s) := s.free 8
    .next (s.endDump (some (n % 10)))
  else .next s

/-- DUMP_READ (R599). -/
def execDumpRead (cmd : HostCmd) (s : State) : Out :=
  hostRow 0x0801 cmd (fun x _ s =>
    let i := s.bestSlot.getD (if s.slotSeq 0 < s.slotSeq 1 then 1 else 0)
    if !s.slotUsed i then .ok s
    else
      let n := s.rd (s.slotKey i + 0x58) 8
      if cLen x.cmd < n then .no s stBadLength
      else .ok (s.wrB (keyHost (cData x.cmd)) (s.rdB (s.slotKey i) n)) (s.slotSeq i) n) s

/-! ### What units detect (R585, 21 R664) -/

/-- THERMAL_WARN: a junction above 95 °C. -/
def execThermalWarn (die : Nat) (tj : Nat) (s : State) : Out :=
  if s.awake && decide (95 < tj) then .next (s.file 0x0060 clsNotice 8 (die % 4096) tj) else .next s

/-- THERMAL_TRIP: a junction at 105 °C: an analogue comparator per die, whatever the hub does (R594). -/
def execThermalTrip (die : Nat) (tj : Nat) (s : State) : Out :=
  if 105 ≤ tj ∧ s.pm.pwrGood then .next (s.fatal 3 0x0061 8 (die % 4096) tj) else .next s

/-- RAIL_FAULT: a rail below 92 % or above 106 % of nominal, in thousandths, with PWR_GOOD asserted (21 R663, R664). -/
def execRailFault (rail : Fin 7) (permille : Nat) (s : State) : Out :=
  if (permille < 920 ∨ 1060 < permille) ∧ s.pm.pwrGood then .next (s.fatal 4 0x0062 8 rail rail) else .next s

/-- UNDERVOLTAGE_WARNING: a rail below 96 % of nominal is counted once in the FEED term of the risk score; its warning re-arms once the
rail stands above 98 % again (21 R664). -/
def execUndervoltageWarning (rail : Fin 7) (permille : Nat) (s : State) : Out :=
  if !s.pm.aon then .next s
  else if permille < 960 ∧ !s.pm.lowRails.contains rail.val then
    .next { s with
      j := { s.j with hist := s.j.hist ++ [(3, s.timeUs, rail.val)] }, pm := { s.pm with lowRails := s.pm.lowRails ++ [rail.val] } }
  else if 980 < permille then .next { s with pm := { s.pm with lowRails := s.pm.lowRails.filter (· != rail.val) } }
  else .next s

/-- REFCLK_LOSS: the reference is watched from 100 µs after PWR_GOOD on (19 R629), while the hub die has power. -/
def execRefclkLoss (s : State) : Out :=
  if s.pm.pwrGood ∧ 100 ≤ s.pm.goodUs ∧ !s.pm.moor then .next (s.fatal 5 0x0063 8 0 0) else .next s

/-- HUB_WATCHDOG. -/
def execHubWatchdog (s : State) : Out := .next (s.hubFatal 0 0x0070 0 16 0)

/-- HUB_FW_FAULT. -/
def execHubFwFault (code : Word) (s : State) : Out := .next (s.hubFatal 1 0x0071 0 16 code.toNat)

/-- SEC_FAULT. -/
def execSecFault (code : Word) (s : State) : Out := .next (s.hubFatal 2 0x0072 6 0 code.toNat)

/-- LINK_UE: the die in bit 0, hub link or aqueduct in bit 1. -/
def execLinkUe (link : Nat) (s : State) : Out := .next (s.hubFatal 7 0x0073 0 16 (link % 4))

/-- The memory of a core that LD, VLD, VLDS and VGATH read by their MOD (03 R111): its first key. -/
def spaceKey (core space : Nat) : Option Nat :=
  match space with
  | 0 => some (keyOwn core 0)
  | 1 => some (keyShared (clusterOf core) 0)
  | _ => none

/-- The bytes that a core's instruction reads, as it issues, from its own memory, its cluster's shared memory or, through a tile
handle, an accumulator memory: first key and number (03 R111, R115, R126, 05 R190, 07 R259, R260, 09 R310, R315, R321, R336, R337, 10
R351, R358). -/
def State.sramReads (s : State) (core : Nat) (x : Reading) : List (Nat × Nat) :=
  let t := x.thread.val
  let f := x.fields
  let a := (s.sreg core t f.srca.toNat).toNat
  let b := (s.sreg core t f.srcb.toNat).toNat
  let cw := (s.sreg core t f.srcc.toNat).toNat
  let own (off n : Nat) : List (Nat × Nat) := [(keyOwn core off, n)]
  let els (l : List (Nat × ElAt)) : List (Nat × Nat) :=
    match spaceKey core (spaceOf f) with
    | some k => l.map (fun e => (k + e.2.addr, e.2.nb))
    | none => []
  match x.cls.toNat, x.op.toNat with
  | 4, 0x00 => els [(0, ⟨s.memAddr core t f, (typeOf f).bits / 8, 0⟩)]
  | 4, 0x04 => own a 64
  | 4, 0x10 => els (s.contiguous core t f)
  | 4, 0x11 => els (s.strided core t f)
  | 4, 0x14 => (partEls core (s.handle core f.srca.toNat) b (bits f.imm.toNat 0 3) (s.act core t f)).map
      (fun e => (e.2.addr, e.2.nb))
  | 3, 0x05 => own a 16
  | 3, 0x06 => own b (16 * bits cw 0 24)
  | 3, 0x20 => own cw 32 ++ own b (8 * bits f.imm.toNat 0 13)
  | 3, 0x21 => els (s.gathEls core t f)
  | 3, 0x23 => own a 64
  | 3, 0x24 => own b (16 * bits cw 0 13) ++ own (bits cw 16 24) (8 * (2 ^ bits cw 13 3 - 1))
  | 3, 0x25 => own b (16 * bits cw 0 14)
  | 3, 0x30 => own b (8 * bits f.imm.toNat 0 13) ++ (if modBit f 16 then own (bits cw 8 24) 64 else [])
  | 3, 0x31 => own b (16 * bits cw 0 14)
  | _, _ => []

/-- The instruction of a CLASS and OP that reads such memory, beside the errors that it meets there. -/
def readWith (ue : List FInfo) (c : Fin 800) (x : Reading) (s : State) : Out :=
  match x.cls.toNat, x.op.toNat with
  | 4, 0x00 => readLd ue c x.thread x.fields s
  | 4, 0x04 => readSopen ue c x.thread x.fields s
  | 4, 0x10 => readVld ue c x.thread x.fields s
  | 4, 0x11 => readVlds ue c x.thread x.fields s
  | 4, 0x14 => readVldt ue c x.thread x.fields s
  | 3, 0x05 => readSampling ue 5 sampWalk c x.thread x.fields s
  | 3, 0x06 => readSampling ue 6 sampLayer c x.thread x.fields s
  | 3, 0x20 => readGathl ue c x.thread x.fields s
  | 3, 0x21 => readVgath ue c x.thread x.fields s
  | 3, 0x23 => readBcmd ue c x.thread x.fields s
  | 3, 0x24 => readBsplit ue c x.thread x.fields s
  | 3, 0x25 => readBsort ue c x.thread x.fields s
  | 3, 0x30 => readEres ue c x.thread x.fields s
  | 3, 0x31 => readEsort ue c x.thread x.fields s
  | _, _ => .next s

/-- The instruction meets the error at offset `offset`, whose key is `key`, as it issues, if it is its thread's turn and it reads that
byte (03 R135): SRAM_UE beside every other fault that it raises (R138); it writes nothing (R137, assumption 124). -/
def State.readerUe (s : State) (c : Fin 800) (key offset : Nat) (x : Reading) : Option State :=
  if (s.sramReads c x).any (fun r => decide (r.1 ≤ key) && decide (key < r.1 + r.2)) && s.threadReady c x.thread
      && s.turn c x.thread then
    match readWith [wholeAt fcSram offset] c x s with
    | .next s => some s
    | _ => none
  else none

/-- The thread that fetches the word in which an error of program memory lies meets it; what word it reads is free (03 R139). -/
def State.fetchUe (s : State) (core offset : Nat) : State :=
  match (List.range 16).find? (fun t => s.threadReady core t && s.turn core t && decide (s.pc core t = offset / 8)) with
  | some t =>
    let (w, s) := s.free 64
    (s.countIssue core).raise core t (s.pc core t) [wholeAt fcSram offset] (BitVec.ofNat 64 w)
  | none => s

/-- The oldest started operation of a matrix engine that reads the memory (04 R176): accumulators by an MXM not yet computed,
tile memory by one with a tile source, a plane by an MXM that uses it. -/
def State.engineReader (s : State) (loc : SramLoc) : Option Nat :=
  let tiled (x : Src) : Bool := match x with
    | .tile _ _ => true
    | _ => false
  let mx (p : Mxm → Bool) (mc : Nat) : List Nat :=
    (s.mx.mxms.filter (fun x => x.mc == mc && x.started && !x.computed && x.bad.isNone && p x)).map Mxm.id
  let ld (mc : Nat) : List Nat :=
    (s.mx.mldps.filter (fun x => x.mc == mc && x.started && x.bad.isNone && tiled x.src)).map Mldp.id
  match loc with
  | .acc c _ _ _ => (mx (fun _ => true) c).head?
  | .own c _ _ _ => (mx (fun x => tiled x.srcA || tiled x.srcB) c ++ ld c).head?
  | .plane c p _ => (mx (fun x => mxPlane x.word == p) c).head?
  | _ => none

/-- An operation of a matrix engine that has met an error is found faulting: it stops the task, or, where the task has stopped
already, is discarded as it is (04 R176, R177). -/
def State.engineUe (s : State) (mc id offset : Nat) : State :=
  let f : FInfo := ⟨fcSram, 0, none, offset⟩
  let s := { s with mx := { s.mx with
      mxms := s.mx.mxms.map (fun (x : Mxm) => if x.id == id then { x with bad := some f } else x)
      mldps := s.mx.mldps.map (fun (x : Mldp) => if x.id == id then { x with bad := some f } else x) } }
  let old := s.mx.mxms.any (fun (x : Mxm) => x.id == id && x.launch != s.launchNo mc)
  if old then s.discardMxms mc (fun x => x.id == id) else if s.taskRuns mc then s.engineFault mc else s.engineStop mc

/-- An uncorrectable error in a core memory, met by the instruction `by_` or else by an operation of the core's engine. -/
def State.coreUe (s : State) (core offset : Nat) (loc : SramLoc) (by_ : State → Option State) : State :=
  let s := s.file 0x0011 clsTask 1 core offset (s.corePart core)
  match by_ s, s.engineReader loc with
  | some s', _ => s'
  | none, some id => s.engineUe core id offset
  | none, none => s

/-- The core of a core's cluster with a number. -/
def siblingOf (c : Fin 800) (r : Fin 20) : Fin 800 := ⟨c.val / 20 * 20 + r.val, by omega⟩

/-- SRAM_UE, contained where it lies; ARG is the offset in the SRAM (R585).  In the fail-safe state clocks have stopped and nothing reads but
the hub's logic (R592). -/
def execSramUe (loc : SramLoc) (s : State) : Out :=
  if !s.awake then .next s
  else if s.on ERR_FAILSAFE_ACTIVE then
    match loc with
    | .hub o => .next (s.fatal 6 0x0011 0 16 o)
    | _ => .next s
  else
    match loc with
    | .program c o => .next (s.coreUe c o loc (fun s => some (s.fetchUe c o)))
    | .own c o r x => .next (s.coreUe c o loc (fun s => s.readerUe (siblingOf c r) (keyOwn c o) o x))
    | .acc c o r x => .next (s.coreUe c o loc (fun s => s.readerUe (siblingOf c r) (keyAcc c o) o x))
    | .plane c _ o => .next (s.coreUe c o loc (fun _ => none))
    | .shared cl o r =>
      match s.clusterPart cl, r with
      | some p, _ => .next ((s.file 0x0011 clsPartition 2 cl o (some p)).fencePart p 1)
      | none, some (k, x) =>
        let s := s.file 0x0011 clsNotice 2 cl o
        .next ((s.readerUe ⟨cl * 20 + k, by omega⟩ (keyShared cl o) o x).getD s)
      | none, none => .next (s.file 0x0011 clsNotice 2 cl o)
    | .cache cl o => .next (s.file 0x0011 clsNotice 2 cl o)
    | .portGroup g o => .next (s.file 0x0011 clsNotice 2 (48 + g) o)
    | .baseGroup g o => .next (s.file 0x0011 clsNotice 2 (40 + g) o)
    | .hub o => .next (s.fatal 6 0x0011 0 16 o)
    | .unit n o => .next (s.file 0x0011 clsNotice 0 (n % 17) o)

/-! ### Self-tests (R601, R602) -/

/-- The optical inputs that test 1 finds missing: engine × 2 + input. -/
def State.darkInputs (s : State) : List Nat :=
  (List.range 16).filter (fun i => !s.on (if i % 2 = 0 then OP_LASER_A_OK (i / 2 * 2) else OP_LASER_B_OK (i / 2 * 2)))

/-- The units that a test tries, as KIND and INDEX of R584: the ports of the loopback lambdas, SRAM of cores and shared memories, pseudo-channels, matrix
cores, vector engines, towpath nodes, the security controller.  Tests 2 to 5 leave out the sections of partitions (R602). -/
def State.testUnits (s : State) (t : Nat) : List (Nat × Nat) :=
  let secs := (List.range 8).filter (fun x => (s.secPart x).isNone)
  let cores := secs.flatMap coresOfSec
  match t with
  | 0 => [(4, lamPort s.flight), (4, lamPort (128 + s.reach))]
  | 2 => cores.map (1, ·) ++ secs.flatMap (fun x => (List.range 5).map (fun i => (2, 5 * x + i)))
  | 3 => secs.flatMap (fun x => (List.range 64).map (fun q => (3, 64 * x + q)))
  | 4 => (cores.filter isMatrix).map (1, ·)
  | 5 => cores.map (1, ·)
  | 6 => (List.range 57).map (2, ·)
  | 7 => [(6, 0)]
  | _ => []

/-- One test: whether it fails.  Which of the units fail is free, but for tests 0 and 1 where registers tell; each failing
unit files its report, in increasing order. -/
def State.runTest (s : State) (t : Nat) : Bool × State :=
  if t = 1 then
    let l := s.darkInputs
    (!l.isEmpty, l.foldl (fun s i => s.file 0x0090 clsNotice 9 i (1 + i * 2 ^ 16)) s)
  else if t = 0 ∧ !s.on FAB_POS_VALID then (true, s.file 0x0090 clsNotice 4 32 (32 * 2 ^ 16))
  else
    let units := s.testUnits t
    let (f, s) := s.free units.length
    let bad := (units.zipIdx.filter (fun e => bit f e.2)).map Prod.fst
    (!bad.isEmpty, bad.foldl (fun s e => s.file 0x0090 clsNotice e.1 e.2 (t + e.2 * 2 ^ 16)) s)

/-- SELF_TEST. -/
def execSelfTest (cmd : HostCmd) (s : State) : Out :=
  hostRow 0x0802 cmd (fun x _ s =>
    let m := cP x.cmd 0
    if 256 ≤ m then .no s stReserved
    else
      let (fails, s) := ((List.range 8).filter (bit m)).foldl (fun (r : Nat × State) t =>
        let (f, s) := r.2.runTest t
        (r.1 + (if f then 2 ^ t else 0), s)) (0, s)
      let part := (List.range 8).any (fun x => (s.secPart x).isSome)
      let skip := sumOf (((List.range 8).filter (fun t => bit m t && part && decide (2 ≤ t) && decide (t ≤ 5))).map (2 ^ ·))
      .ok s fails skip) s

end Sys2Proof.Machine
end

