-- ==== Sys2Proof/Machine/Encoding.lean ====
section
/-! DEFINITION. The instruction that a word spells: its CLASS and OP pick it, its other fields are its operands (03 R95). -/

namespace Sys2Proof.Machine

/-- Class 0 (03 R108, R109, R121). -/
def scalarWord (c : Fin 800) (t : Fin 16) (f : Fields) (op : Nat) : Option Instr :=
  match op with
  | 0x00 => some (.nop c t f)
  | 0x01 => some (.add c t f)
  | 0x02 => some (.sub c t f)
  | 0x03 => some (.and_ c t f)
  | 0x04 => some (.or_ c t f)
  | 0x05 => some (.xor c t f)
  | 0x06 => some (.shl c t f)
  | 0x07 => some (.shr c t f)
  | 0x08 => some (.sra c t f)
  | 0x09 => some (.mul c t f)
  | 0x0A => some (.mulhu c t f)
  | 0x0B => some (.min c t f)
  | 0x0C => some (.max c t f)
  | 0x0D => some (.minu c t f)
  | 0x0E => some (.maxu c t f)
  | 0x0F => some (.slt c t f)
  | 0x10 => some (.sltu c t f)
  | 0x11 => some (.seq c t f)
  | 0x12 => some (.li c t f)
  | 0x13 => some (.lip c t f)
  | 0x20 => some (.beq c t f)
  | 0x21 => some (.bne c t f)
  | 0x22 => some (.blt c t f)
  | 0x23 => some (.bge c t f)
  | 0x24 => some (.bltu c t f)
  | 0x25 => some (.bgeu c t f)
  | 0x26 => some (.dbnz c t f)
  | 0x27 => some (.jal c t f)
  | 0x28 => some (.jr c t f)
  | 0x29 => some (.end_ c t f)
  | 0x2A => some (.csrr c t f)
  | 0x2B => some (.flclr c t f)
  | 0x30 => some (.mand c t f)
  | 0x31 => some (.mor c t f)
  | 0x32 => some (.mxor c t f)
  | 0x33 => some (.mandn c t f)
  | 0x34 => some (.mnot c t f)
  | 0x35 => some (.mpop c t f)
  | 0x36 => some (.mfirst c t f)
  | 0x37 => some (.mfrom c t f)
  | 0x38 => some (.mto c t f)
  | _ => none

/-- Class 1 (05 R183, R191 to R193, R195, R199 to R205). -/
def vectorWord (c : Fin 800) (t : Fin 16) (f : Fields) (op : Nat) : Option Instr :=
  match op with
  | 0x00 => some (.vmov c t f)
  | 0x01 => some (.viota c t f)
  | 0x02 => some (.vand c t f)
  | 0x03 => some (.vor c t f)
  | 0x04 => some (.vxor c t f)
  | 0x05 => some (.vnot c t f)
  | 0x06 => some (.vshl c t f)
  | 0x07 => some (.vshr c t f)
  | 0x08 => some (.vsra c t f)
  | 0x10 => some (.vadd c t f)
  | 0x11 => some (.vsub c t f)
  | 0x12 => some (.vmul c t f)
  | 0x13 => some (.vfma c t f)
  | 0x14 => some (.vfnma c t f)
  | 0x15 => some (.vdiv c t f)
  | 0x16 => some (.vsqrt c t f)
  | 0x17 => some (.vrsqrt c t f)
  | 0x18 => some (.vexp c t f)
  | 0x19 => some (.vlog c t f)
  | 0x1A => some (.vmax c t f)
  | 0x1B => some (.vmin c t f)
  | 0x1C => some (.vabs c t f)
  | 0x1D => some (.vneg c t f)
  | 0x1E => some (.vsign c t f)
  | 0x1F => some (.vclamp c t f)
  | 0x20 => some (.vcmpeq c t f)
  | 0x21 => some (.vcmpne c t f)
  | 0x22 => some (.vcmplt c t f)
  | 0x23 => some (.vcmple c t f)
  | 0x24 => some (.vsel c t f)
  | 0x25 => some (.vnf c t f)
  | 0x30 => some (.vperm c t f)
  | 0x31 => some (.vpermb c t f)
  | 0x32 => some (.vshuf c t f)
  | 0x33 => some (.vpack c t f)
  | 0x34 => some (.vunpk c t f)
  | 0x38 => some (.vcvt c t f)
  | 0x40 => some (.vrsum c t f)
  | 0x41 => some (.vrssq c t f)
  | 0x42 => some (.vrmv c t f)
  | 0x43 => some (.vmvm c t f)
  | 0x44 => some (.vrmax c t f)
  | 0x45 => some (.vrmin c t f)
  | 0x46 => some (.vramax c t f)
  | 0x50 => some (.vtake c t f)
  | 0x51 => some (.vrel c t f)
  | _ => none

/-- Class 2 (04 R145, R147). -/
def matrixWord (c : Fin 800) (t : Fin 16) (f : Fields) (op : Nat) : Option Instr :=
  match op with
  | 0x00 => some (.mxm c t f)
  | 0x01 => some (.mldp c t f)
  | 0x02 => some (.mdrop c t f)
  | 0x03 => some (.mdrain c t f)
  | 0x04 => some (.mbcnt c t f)
  | _ => none

/-- Class 3 (07 R250, R255 to R260; 09 R311, R315, R316, R321, R336, R337; 10 R354, R358). -/
def traversalWord (c : Fin 800) (t : Fin 16) (f : Fields) (op : Nat) : Option Instr :=
  match op with
  | 0x00 => some (.sdeg c t f)
  | 0x01 => some (.snbr c t f)
  | 0x02 => some (.suni c t f)
  | 0x03 => some (.salias c t f)
  | 0x04 => some (.stopk c t f)
  | 0x05 => some (.swalk c t f)
  | 0x06 => some (.slayr c t f)
  | 0x20 => some (.gathl c t f)
  | 0x21 => some (.vgath c t f)
  | 0x22 => some (.vscat c t f)
  | 0x23 => some (.bcmd c t f)
  | 0x24 => some (.bsplit c t f)
  | 0x25 => some (.bsort c t f)
  | 0x30 => some (.eres c t f)
  | 0x31 => some (.esort c t f)
  | _ => none

/-- Class 4 (03 R113, R115, R126 to R129; 05 R190). -/
def memoryWord (c : Fin 800) (t : Fin 16) (f : Fields) (op : Nat) : Option Instr :=
  match op with
  | 0x00 => some (.ld c t f)
  | 0x01 => some (.st c t f)
  | 0x02 => some (.tset c t f)
  | 0x03 => some (.tget c t f)
  | 0x04 => some (.sopen c t f)
  | 0x05 => some (.sclose c t f)
  | 0x06 => some (.srd c t f)
  | 0x07 => some (.swr c t f)
  | 0x10 => some (.vld c t f)
  | 0x11 => some (.vlds c t f)
  | 0x12 => some (.vst c t f)
  | 0x13 => some (.vsts c t f)
  | 0x14 => some (.vldt c t f)
  | 0x15 => some (.vstt c t f)
  | _ => none

/-- Class 5 (03 R131 to R134). -/
def syncWord (c : Fin 800) (t : Fin 16) (f : Fields) (op : Nat) : Option Instr :=
  match op with
  | 0x00 => some (.sig c t f)
  | 0x01 => some (.cret c t f)
  | 0x02 => some (.waitc c t f)
  | 0x03 => some (.barv c t f)
  | 0x04 => some (.bwait c t f)
  | 0x05 => some (.fence c t f)
  | _ => none

/-- The instruction that thread `t` of core `c` issues from a word: none where its class is reserved or its opcode is none of its
class (03 R95, R96). -/
def wordInstr (c : Fin 800) (t : Fin 16) (w : Word) : Option Instr :=
  let f := wordFields w
  let op := bits w.toNat 52 8
  match bits w.toNat 60 4 with
  | 0 => scalarWord c t f op
  | 1 => vectorWord c t f op
  | 2 => matrixWord c t f op
  | 3 => traversalWord c t f op
  | 4 => memoryWord c t f op
  | 5 => syncWord c t f op
  | _ => none

/-- Whether a word spells an instruction. -/
def spells (w : Word) : Bool := (wordInstr 0 0 w).isSome

/-- The word at a thread's pc. -/
def State.nextWord (s : State) (core t : Nat) : Word := BitVec.ofNat 64 (s.rd (keyProgram core (8 * s.pc core t)) 8)

/-- A thread whose turn it is issues a word that spells no instruction: a reserved encoding, ILLEGAL (R96).  An instruction of the
table issues by its own command; these words have none (assumption 167). -/
def State.issueReserved (s : State) (core t : Nat) : State :=
  if s.threadReady core t && s.turn core t && !spells (s.nextWord core t) then
    (s.countIssue core).raise core t (s.pc core t) [whole fcIllegal] (s.nextWord core t)
  else s

/-- The reserved words that the threads of the running tasks have come to. -/
def State.tickWords (s : State) : State :=
  if s.dieUp then
    ((List.range 800).filter s.taskRuns).foldl (fun s c => (List.range (s.threads c)).foldl (fun s t => s.issueReserved c t) s) s
  else s

end Sys2Proof.Machine
end

