-- ==== Sys2Proof/Machine/Power.lean ====
section
/-! DEFINITION. Power, clocks, resets, pins (19, 21): operating points, Slack, Stand, Moor, Off, the resets, the SMBus
target, and what passes with time. -/

namespace Sys2Proof.Machine

/-! ### Operating points and throttling (R604 to R609) -/

/-- Target clock and power of an operating point (00 R4). -/
def opMhz (p : Nat) : Nat := if p = 0 then 1100 else if p = 1 then 1500 else 1600
def opWatts (p : Nat) : Nat := if p = 0 then 1500 else if p = 1 then 2400 else 2650

def State.targetMhz (s : State) : Nat := opMhz (s.fld PM_OP_CUR)
def State.mhz (s : State) : Nat := s.fld PM_OP_CLUSTER_MHZ

/-- The clock that the islands run at, or the one that they change to. -/
def State.nextMhz (s : State) : Nat := if s.pm.want = 0 then s.mhz else s.pm.want

/-- A new cluster clock is wanted. -/
def State.wantMhz (s : State) (v : Nat) : State := { s with pm := { s.pm with want := v } }

/-- PM_OP.THROT follows the clock and its target. -/
def State.setThrot (s : State) : State := s.setFld PM_OP_THROT ((s.targetMhz - s.mhz) / 100)

/-- The largest operating point that the settings allow (16 R540). -/
def State.opMax (s : State) : Nat := bits s.settingsWord 1 2

/-- OP_POINT (R632): begun when it is first carried out, complete when the clusters run at the target. -/
def execOpPoint (cmd : HostCmd) (s : State) : Out :=
  hostRow 0x0900 cmd (fun x _ s =>
    let op := cP x.cmd 0
    if 3 ≤ op then .no s stReserved
    else if s.opMax < op then .no s stSettings 1
    else if s.pm.opCmds.contains x.cmd then
      if s.mhz = s.targetMhz ∧ s.pm.want = 0 then
        .ok { s with pm := { s.pm with opCmds := s.pm.opCmds.filter (· != x.cmd) } } (s.readWord true 0x1000000)
      else .stay s
    else
      let s := { s with pm := { s.pm with opCmds := s.pm.opCmds ++ [x.cmd], good := 0 } }
      let s := (s.setFld PM_OP_CUR op).setThrot
      .stay (if s.targetMhz < s.nextMhz then s.wantMhz s.targetMhz else s)) s

/-- The ceiling of R607. -/
def State.ceiling (s : State) : Nat :=
  let w := opWatts (s.fld PM_OP_CUR)
  let cap := s.fld PM_THROT_PCAP
  if cap ≠ 0 ∧ cap < w then cap else w

/-- THROTTLE_EVAL (R608): hottest junction and package power over the last millisecond. -/
def execThrottleEval (tj : Nat) (watts : Nat) (s : State) : Out :=
  if !s.dieUp then .next s
  else
    let s := (s.setFld PM_POWER_PKG_W watts).setFld PM_POWER_TJ_MAX tj
    let cur := s.nextMhz
    if s.fld PM_THROT_T_HI < tj ∨ s.ceiling < watts then
      let s := { s with pm := { s.pm with good := 0 } }
      .next (if 1100 < cur then s.wantMhz (cur - 100) else s)
    else if tj < s.fld PM_THROT_T_LO ∧ watts * 100 < s.ceiling * 95 then
      let n := min (s.pm.good + 1) 10
      let s := { s with pm := { s.pm with good := n } }
      .next (if n = 10 ∧ cur < s.targetMhz then s.wantMhz (cur + 100) else s)
    else .next { s with pm := { s.pm with good := 0 } }

/-- CLOCK_CHANGE: never during the array time of an MXM (R605). -/
def execClockChange (s : State) : Out :=
  if s.dieUp && s.pm.want != 0 && !s.mx.mxms.any Mxm.started then
    .next ((s.setFld PM_OP_CLUSTER_MHZ s.pm.want).wantMhz 0).setThrot
  else .next s

/-- IDLE_CFG. -/
def execIdleCfg (cmd : HostCmd) (s : State) : Out :=
  hostRow 0x0901 cmd (fun x _ s =>
    if 2 ^ 32 ≤ cP x.cmd 0 ∨ 2 ^ 32 ≤ cP x.cmd 1 then .no s stReserved
    else
      let s := (s.setFld PM_IDLE_TIMER_STAND_MS (cP x.cmd 0)).setFld PM_IDLE_TIMER_MOOR_S (cP x.cmd 1)
      .ok { s with pm := { s.pm with idleFrom := s.timeUs, standAt := s.timeUs } }) s

/-- MOOR_ENABLE. -/
def execMoorEnable (cmd : HostCmd) (s : State) : Out :=
  hostRow 0x0902 cmd (fun x _ s =>
    let v := bits (cP x.cmd 0) 0 1
    if v = 1 ∧ !bit s.settingsWord 0 then .no s stSettings 0
    else .ok (s.setFld PM_CTRL_MOOR_EN v)) s

/-- POWER_OFF: the device enters Off a millisecond after the reply. -/
def execPowerOff (cmd : HostCmd) (s : State) : Out :=
  hostRow 0x0903 cmd (fun _ _ s =>
    let s := (List.range 8).foldl (fun s p => if s.partState p = ptFree then s else (s.fencePart p 2).dropHeld p) s
    .ok { s with pm := { s.pm with offAt := some (s.timeUs + 1000) } }) s

/-! ### Slack (R611) -/

/-- Whether an island does nothing: clusters 0 to 39, base engine groups 40 to 47, port engine groups 48 to 55, the hub
56.  The AON island, 57, never gates. -/
def State.islandIdle (s : State) (i : Nat) : Bool :=
  let noTok := !s.e.toks.any (fun t => tokDstNode t == i)
  if i < 40 then
    noTok && !s.m.xfers.any (fun x => x.core / 20 == i) && !s.m.reqs.any (fun r => r.core / 20 == i)
      && !s.mx.mxms.any (fun x => x.mc / 20 == i) && !s.mx.mldps.any (fun x => x.mc / 20 == i)
      && !s.b.cmds.any (fun c => c.core / 20 == i)
      && (List.range 20).all (fun k => !s.taskRuns (20 * i + k)
          || (List.range (s.threads (20 * i + k))).all (fun t => s.stat (20 * i + k) t != .running))
  else if i < 48 then
    noTok && !s.b.cmds.any (fun c => c.stack == i - 40) && !s.m.reqs.any (fun r => r.key / 2 ^ 36 == i - 40)
      && !((s.secPart (i - 40)).any (fun p => s.on (PART_KEY_SWEEP p)))
  else if i < 56 then
    noTok && s.fab.outq.isEmpty && (lamsOfEngine (i - 48)).all (fun l => (s.lam l).replay.isEmpty)
  else if i = 56 then s.h.started.isEmpty && noTok && s.e.intake.isEmpty
  else false

/-- ISLAND_GATE. -/
def execIslandGate (island : Fin 58) (s : State) : Out :=
  if s.hubUp && s.on PM_CTRL_SLACK_EN && !s.pm.gated.contains island.val && s.islandIdle island then
    .next { s with pm := { s.pm with gated := s.pm.gated ++ [island.val] } }
  else .next s

/-- Whether an island's clock runs: an arrival restarts that of a gated one (R611). -/
def State.clockRuns (s : State) (i : Nat) : Bool := !(s.pm.gated.contains i && s.islandIdle i)

/-- ISLAND_UNGATE. -/
def execIslandUngate (island : Fin 58) (s : State) : Out :=
  .next { s with pm := { s.pm with gated := s.pm.gated.filter (· != island.val) } }

/-! ### Wakes (R618 to R621) -/

/-- HUB_LAST_WAKE written, and the wake forgotten. -/
def State.writeWake (s : State) (src frm : Nat) (rep multi : Bool) (at_ : Nat) : State :=
  let s := ((s.setFld HUB_LAST_WAKE_SOURCE src).setFld HUB_LAST_WAKE_FROM frm).setFld HUB_LAST_WAKE_REPLAYED (b2n rep)
  let s := (s.setFld HUB_LAST_WAKE_MULTI (b2n multi)).setFld HUB_LAST_WAKE_AT at_
  { s with pm := { s.pm with wake := 0, replayed := false, multi := false } }

def State.disarm (s : State) : State := { s with pm := { s.pm with armed := false } }

/-- Whether a transaction on SMBus names this device (21 R660). -/
def State.smbMine (s : State) (a : BitVec 7) : Bool := s.pm.aon && a.toNat == 0x68 + s.pm.smbAddr

/-- The command codes of 21 R667. -/
def smbListed (c : Nat) : Bool := (decide (1 ≤ c) && decide (c ≤ 7)) || (decide (0x10 ≤ c) && decide (c ≤ 0x13))

/-- PCIE_INBAND_WAKE: in Stand and while it is entered or left. -/
def execPcieInbandWake (s : State) : Out :=
  if s.standing then .next (s.wakeEvent 1) else .next s

/-- SMBUS_ADDRESS_MATCH: a wake in Moor and while it is entered; a code that is not listed is not acknowledged, and clears ARM (21 R667,
R668). -/
def execSmbusAddressMatch (x : SmbMatch) (s : State) : Out :=
  if !s.smbMine x.addr then .next s
  else
    let s := if s.pm.released && (s.pm.moor || s.fld PM_CTRL_STATE == 3) then s.wakeEvent 2 else s
    .next (if x.code.any (fun c => !smbListed c.toNat) then s.disarm.answer .nak else s)

/-- WAKE_TIMER_EXPIRE: in Stand, when armed. -/
def execWakeTimerExpire (s : State) : Out :=
  if s.hubUp && s.on PM_WAKE_TIMER_S && (s.fld PM_CTRL_STATE == 2 || s.fld PM_CTRL_STATE == 4) then .next (s.wakeEvent 4)
  else .next s

/-! ### Stand (R612 to R614) -/

/-- Whether the idle count of Stand may run (R612). -/
def State.mayStand (s : State) : Bool :=
  (List.range 8).all (fun p => s.partState p != ptStarted) && s.h.started.isEmpty
    && (List.range 576).all (fun k => !s.on (HUB_RING_CTRL_EN (k / 64) (k % 64))
        || s.fld (HUB_RING_STAT_HEAD (k / 64) (k % 64)) == s.ringTail (k / 64) (k % 64))
    && s.j.drains.isEmpty && s.on PM_IDLE_TIMER_STAND_MS

/-- Optics off for Stand: every lambda is DOWN, and the position is kept (R613). -/
def State.standDown (s : State) : State := (List.range 256).foldl State.darkLam s

/-- Whether the count toward Stand has run out (R612). -/
def State.standDue (s : State) : Bool :=
  s.mayStand && decide (s.pm.idleFrom + 1000 * s.fld PM_IDLE_TIMER_STAND_MS ≤ s.timeUs)

/-- STAND_ENTRY: first the entry begins, then it is complete, the stacks in self-refresh; a wake latched meanwhile starts the exit (R613,
R619). -/
def execStandEntry (s : State) : Out :=
  if !s.hubUp then .next s
  else if s.fld PM_CTRL_STATE = 0 then .next (if s.standDue then s.setFld PM_CTRL_STATE 1 else s)
  else if s.fld PM_CTRL_STATE = 1 then
    let s := s.standDown.setFld PM_CTRL_STATE (if s.pm.wake = 0 then 2 else 4)
    .next { s with pm := { s.pm with selfRef := true, standAt := s.timeUs } }
  else .next s

/-- An access that the hub held. -/
def State.runHeld (s : State) (i : HeldReq) : Out :=
  match i with
  | .write q o n v => execRegisterWrite q (.bar o n) v s
  | .openChannel c ch v => execTokenChannelOpen c ch v s
  | .start q p => execPartStart q p s
  | .drained q p v => execLedgerDrainedAck q p v s
  | .barRead q o n => execApertureRead q o n s
  | .barWrite q o d => execApertureWrite q o d s
  | .taskStart c => execTaskStart c s
  | .taskHalt c => execTaskHalt c s
  | .arbCommit i => execArbCommit i s
  | .bringUp l a => execFabricBringUp l a s
  | .useA e a => execUseA e a s

/-- STAND_EXIT: the exit is complete, the lambdas train again; the accesses held are carried out in order (R613, R614, R621). -/
def execStandExit (s : State) : Out :=
  if s.hubUp && s.fld PM_CTRL_STATE == 4 then
    let held := s.pm.heldReq
    let s := (s.writeWake s.pm.wake 1 s.pm.replayed s.pm.multi s.pm.wakeAt).setFld PM_CTRL_STATE 0
    let s := (List.range 256).foldl State.leaveStand { s with pm := { s.pm with heldReq := [], selfRef := false, idleFrom := s.timeUs } }
    held.foldl (fun r i => match r with
      | .next s => s.runHeld i
      | r => r) (.next s)
  else .next s

/-! ### Resets (R617, R620, R627 to R631) -/

/-- A register that the AON domain, or the OTP, keeps across a reset. -/
def aonReg (a : Nat) : Bool :=
  a == 0 || a == 0x10 || a == 0x18 || a == 0x1000050 || a == 0x1000058 || a == 0x2000010 || a == 0x3000040
    || (decide (0x3000100 ≤ a) && decide (a < 0x3000300))

/-- The same, by field key; of HUB_FEED the strap, of PM_PAD_RELEASE whether pads are held. -/
def aonKey (k : Nat) : Bool :=
  aonReg (k / 64 / 8 * 8) || k == HUB_FEED_OWN.key || k == PM_PAD_RELEASE_HELD.key

/-- Memory that a reset leaves: the host's, and the dump area where the stacks keep their contents (R630). -/
def State.memKept (s : State) (dump : Bool) (k : Nat) : Bool :=
  decide (2 ^ 64 ≤ k) || (dump && decide (s.dumpBase ≤ k) && decide (k < s.stackBytes))

/-- Every island but AON at its reset state; the device waits for its release. -/
def State.wipe (s : State) (dump : Bool) : State :=
  let p := s.pm
  let regs := Tab.drop s.regs (fun k => !aonKey k)
  let t : State := { s with
    timeUs := 0, regs := regs, core := CoreSt.reset, mx := MxSt.reset
    m := { MemSt.reset with mem := Tab.drop s.m.mem (fun k => !s.memKept dump k) }
    e := { ErrSt.reset with answers := s.e.answers }, b := State.reset.b
    fab := { FabSt.reset with sent := s.fab.sent }
    sec := { SecSt.reset with otp := s.sec.otp }, j := State.reset.j
    h := { HostSt.reset with msgs := s.h.msgs }
    pm := { PmSt.reset with
      released := false, perst := p.perst, pwrReq := p.pwrReq, pwrGood := p.pwrGood, off := p.off, smbAddr := p.smbAddr
      aon := p.aon, goodUs := p.goodUs, selfRef := p.selfRef, lowRails := p.lowRails
      armed := p.armed, pads := p.pads, aonUs := p.aonUs, brown := p.brown, smbFence := p.smbFence
      smbOff := p.smbOff && p.smbFence } }
  t.setFld SEC_BOOT_IDENT_EXHAUSTED (b2n (t.fld SEC_OTP_GEN_LEAVES == 32768))

/-- A reset, with its cause (R627).  PERST_N, SMBus power-up and the loss of power leave the fail-safe state (18 R593); PERST_N and a brown-out
put the stacks into self-refresh (R630). -/
def State.resetCause (s : State) (cause : Nat) (dump : Bool) : State :=
  let leaves := cause == 1 || cause == 3 || cause == 5
  let fs := s.fld ERR_FAILSAFE_ACTIVE
  let fault := s.pm.fault
  let t := (s.wipe dump).setFld HUB_RESET_CAUSE_CAUSE cause
  let t := { t with pm := { t.pm with selfRef := cause == 1 || cause == 2 || (cause != 5 && t.pm.selfRef) } }
  if leaves then (t.setFld HUB_RESET_CAUSE_FROM_FAILSAFE fs).setFld ERR_FAILSAFE_ACTIVE 0
  else
    let t := (t.setFld HUB_RESET_CAUSE_FROM_FAILSAFE 0).setFld ERR_FAILSAFE_ACTIVE fs
    { t with pm := { t.pm with fault := fault } }

/-- The device enters Off: only AON goes on; the fail-safe state stays until it is left (R593, 21 R669). -/
def State.enterOff (s : State) : State :=
  let fault := s.pm.fault
  let s := s.wipe true
  { s with pm := { s.pm with off := true, pwrReq := false, fault := fault, smbOff := false } }

/-- MOOR_ENTRY (R615, R616, R622): it begins once Stand has lasted its time; when it is complete the hub is gated and the pads are held;
pads that are held already keep their levels. -/
def execMoorEntry (s : State) : Out :=
  let st := s.fld PM_CTRL_STATE
  if !s.pm.released || s.pm.moor || s.on ERR_FAILSAFE_ACTIVE then .next s
  else if st = 2 then
    if !s.on PM_CTRL_MOOR_EN || !s.on PM_IDLE_TIMER_MOOR_S || !s.on PM_IDLE_TIMER_STAND_MS || s.pm.wake != 0
        || decide (s.timeUs < s.pm.standAt + 1000000 * s.fld PM_IDLE_TIMER_MOOR_S)
        || (List.range 8).any (fun p => s.partState p != ptFree) then .next s
    else if s.on PM_WAKE_TIMER_S then .next (s.setFld PM_CLAIM_MOOR_HELD 1)
    else .next (s.setFld PM_CTRL_STATE 3)
  else if st = 3 then
    let fab := { s.fab with enA := false, enB := false }
    let pads := some (s.pm.pads.getD ⟨s.pm.fault, false, false, s.pm.gpioOut, s.pm.gpio⟩)
    let s := s.setFld PM_PAD_RELEASE_HELD 1
    .next { s with fab := fab, pm := { s.pm with pads := pads, moor := true } }
  else .next s

/-- MOOR_EXIT: a reset of everything except AON (R617). -/
def execMoorExit (s : State) : Out :=
  if s.pm.moor && s.pm.wake != 0 then
    .next ((s.resetCause 4 true).writeWake s.pm.wake 2 s.pm.replayed s.pm.multi s.pm.wakeAt)
  else .next s

/-- The state that PERST_N leaves, as HUB_LAST_WAKE.FROM names it: 1 Stand, 2 Moor, 0 neither. -/
def State.leftState (s : State) : Nat :=
  if s.pm.off || !s.pm.released then 0
  else if s.pm.moor || s.fld PM_CTRL_STATE == 3 then 2
  else if s.fld PM_CTRL_STATE == 0 then 0 else 1

/-- PERST_N: its assertion resets the device at once, and leaves Off (R620). -/
def execPerstN (asserted : Bool) (s : State) : Out :=
  if !asserted || !s.pm.aon then .next { s with pm := { s.pm with perst := asserted } }
  else
    let left := s.leftState
    let sec := s.fld PM_AON_SECONDS_S
    let s := s.resetCause 1 true
    let s := { s with pm := { s.pm with perst := true, off := false, pwrReq := true } }
    .next (if left = 0 then s else s.writeWake 3 left false false sec)

/-- PWR_GOOD_ASSERT. -/
def execPwrGoodAssert (s : State) : Out :=
  if s.pm.aon && !s.pm.pwrGood then .next { s with pm := { s.pm with pwrGood := true, goodUs := 0 } } else .next s

/-- The fail-safe state entered by a fence on SMBus: latch 8, whose DETAIL and ARG are not stated (18 R591). -/
def State.smbFenced (s : State) : State :=
  let (d, s) := s.free 16
  let (a, s) := s.free 64
  (s.latch 8 d a).failsafe 8

/-- RESET_RELEASE: the hub leaves reset, a millisecond after PWR_GOOD at the soonest (R606, R629); a fence that waited takes effect (21 R669). -/
def execResetRelease (s : State) : Out :=
  if s.pm.released || s.pm.perst || !s.pm.pwrGood || s.pm.goodUs != 1000 || s.pm.off then .next s
  else
    let fence := s.pm.smbFence
    let s := { s with timeUs := 0, pm := { s.pm with released := true, smbFence := false } }
    let (n, s) := s.free 64
    let s := s.setFld SEC_BOOT_NONCE_NONCE n
    let s := if s.opMax = 0 then (s.setFld PM_OP_CUR 0).setFld PM_OP_CLUSTER_MHZ 1100 else s
    .next (if fence then s.smbFenced else s)

/-- Nothing but the OTP is kept (21 R665). -/
def State.aonReset (s : State) : State :=
  let keep (k : Nat) : Bool := k / 64 == 0 || k / 64 == 0x2000010
  let t := s.wipe false
  let t := { t with
    regs := Tab.drop t.regs (fun k => !keep k)
    pm := { PmSt.reset with released := false, perst := s.pm.perst, pwrReq := false, pwrGood := false, aon := false, goodUs := 0 } }
  t.setFld SEC_BOOT_IDENT_EXHAUSTED (b2n (t.fld SEC_OTP_GEN_LEAVES == 32768))

/-- AON_POWER_ON: VDD_AON rises: the straps are latched and PWR_REQ asserts (R628, R629); it falls: every pad is at high impedance, and the
AON domain keeps nothing (21 R665). -/
def execAonPowerOn (supply : AonSupply) (s : State) : Out :=
  match supply with
  | .fall => .next s.aonReset
  | .rise feed smb =>
    let t := s.aonReset
    .next ({ t with pm := { t.pm with aon := true, pwrReq := true, smbAddr := smb.toNat } }.setFld HUB_FEED_OWN feed.toNat)

/-- BROWNOUT_AON: in Moor or Off (R625, R626). -/
def execBrownoutAon (s : State) : Out :=
  if !(s.pm.moor || s.pm.off) then .next s
  else
    let brown := s.pm.brown ++ [s.fld PM_AON_SECONDS_S]
    let s := (s.resetCause 2 true).bump PM_BROWNOUT_COUNT 1
    .next { s with pm := { s.pm with brown := brown.drop (brown.length - 8) } }

/-- MAIN_LOSS: PWR_GOOD deasserts; in Off the board takes the main rails away, and with them the stacks (R631, 21 R669). -/
def execMainLoss (s : State) : Out :=
  if s.pm.off then
    let s := { s with m := { s.m with mem := Tab.drop s.m.mem (fun k => !s.memKept false k) } }
    .next { s with pm := { s.pm with pwrGood := false, goodUs := 0 } }
  else
    let s := s.resetCause 5 false
    .next { s with pm := { s.pm with pwrGood := false, goodUs := 0 } }

/-- PAD_RELEASE: a write of GO (R622, R623). -/
def execPadRelease (s : State) : Out :=
  let s := s.asked
  if s.hubUp then
    let s := s.setFld PM_PAD_RELEASE_HELD 0
    .next { s with pm := { s.pm with pads := none } }
  else .next s

/-- AUX0_EDGE (R637). -/
def execAux0Edge (s : State) : Out :=
  if s.hubUp && s.on PM_AUX_CFG_PPS_EN then .next (s.setFld PM_PPS_TIME s.timeUs) else .next s

/-! ### Pads (R622, R637, 21 R659, R665) -/

/-- FAULT_N as the pad shows it, asserted or not: as held across Moor, else as driven; none while the pads are at high impedance. -/
def State.faultPad (s : State) : Option Bool :=
  if s.pm.aon then some ((s.pm.pads.map Pads.fault).getD s.pm.fault) else none

/-- LSM_A_EN and LSM_B_EN. -/
def State.laserPads (s : State) : Option (Bool × Bool) :=
  if s.pm.aon then some ((s.pm.pads.map (fun x => (x.enA, x.enB))).getD (s.fab.enA, s.fab.enB)) else none

/-- What GPIO pin `i` drives; none where it is an input. -/
def State.gpioPad (s : State) (i : Nat) : Option Bool :=
  let (o, g) := (s.pm.pads.map (fun x => (x.out, x.gpio))).getD (s.pm.gpioOut, s.pm.gpio)
  if s.pm.aon && o.getLsbD i then some (g.getLsbD i) else none

/-- Whether AUX0, an output, is driven low: it follows FAULT_N, and asserts for 10 ms on a report (R637); none where it is no output. -/
def State.aux0Pad (s : State) : Option Bool :=
  if s.pm.aon && s.on PM_AUX_CFG_FAULT2_EN && !s.on PM_AUX_CFG_PPS_EN then
    some (s.faultPad == some true || decide (s.timeUs < s.pm.aux0))
  else none

/-! ### The SMBus target (21 R666 to R669) -/

/-- The PEC of SMBus: CRC-8 of the polynomial x^8 + x^2 + x + 1 over the bytes of a transaction (21 R666; assumption 121). -/
def smbPec (l : List Nat) : Nat :=
  l.foldl (fun c b => (List.range 8).foldl (fun c _ => if 128 ≤ c then (2 * c % 256) ^^^ 7 else 2 * c) (c ^^^ b)) 0

/-- A Write Byte transaction of a code: refused, its data byte or its PEC not acknowledged, where the data is not `want`, `ok` does not hold or
the PEC is wrong; either way ARM is cleared first (R668). -/
def State.smbWrite (s : State) (x : SmbWrite) (code want : Nat) (ok : Bool) (act : State → State) : Out :=
  if !s.smbMine x.addr then .next s
  else if x.data.toNat == want && ok && x.pec.all (fun p => p.toNat == smbPec [2 * x.addr.toNat, code, x.data.toNat]) then
    .next (act (s.disarm.answer .ack))
  else .next (s.disarm.answer .nak)

/-- A read transaction of a code: ARM is cleared, the bytes are answered, with a PEC where the host takes one (R666, R668). -/
def State.smbRead (s : State) (x : SmbRead) (code n : Nat) (v : State → Nat × State) : Out :=
  if !s.smbMine x.addr then .next s
  else
    let (v, s) := v s.disarm
    let b := leBytes n v
    let a := 2 * x.addr.toNat
    .next (s.answer (.data (if x.pec then b ++ leBytes 1 (smbPec ([a, code, a + 1] ++ toNats b)) else b)))

/-- SMB_ARM: data other than 0xA5 is refused. -/
def execSmbArm (x : SmbWrite) (s : State) : Out :=
  s.smbWrite x 0x10 0xA5 true (fun s => { s with pm := { s.pm with armed := true } })

/-- A fence: latch 8 alone in the fail-safe state; at once, or at the reset release that follows Moor (R669). -/
def State.smbusFence (s : State) : State :=
  if !s.on ERR_FAILSAFE_ACTIVE && (s.pm.moor || !s.pm.released || s.fld PM_CTRL_STATE == 3) then
    { s with pm := { s.pm with smbFence := true } }
  else s.smbFenced

/-- SMB_FENCE: refused without ARM and in Off. -/
def execSmbFence (x : SmbWrite) (s : State) : Out :=
  s.smbWrite x 0x11 1 (s.pm.armed && !s.pm.off) State.smbusFence

/-- SMB_POWER_OFF: the fence, then Off once the stacks are in self-refresh. -/
def execSmbPowerOff (x : SmbWrite) (s : State) : Out :=
  s.smbWrite x 0x12 2 (s.pm.armed && !s.pm.off) (fun s =>
    let s := if s.on ERR_FAILSAFE_ACTIVE then s else s.smbusFence
    { s with pm := { s.pm with smbOff := true } })

/-- SMB_POWER_UP: start-up with cause SMB_POWER. -/
def execSmbPowerUp (x : SmbWrite) (s : State) : Out :=
  s.smbWrite x 0x13 3 (s.pm.armed && s.pm.off) (fun s =>
    let s := s.resetCause 3 true
    { s with pm := { s.pm with off := false, pwrReq := true } })

/-- SMB_FAILSAFE: ERR_FAILSAFE[7:0]. -/
def execSmbFailsafe (x : SmbRead) (s : State) : Out := s.smbRead x 1 1 (fun s => (s.readWord true 0x3000040, s))

/-- SMB_FATAL: the VALID bits. -/
def execSmbFatal (x : SmbRead) (s : State) : Out :=
  s.smbRead x 2 2 (fun s => (sumOf ((List.range 16).map (fun i => s.fld (ERR_FATAL_VALID i) * 2 ^ i)), s))

/-- SMB_TJ: PM_POWER.TJ_MAX while the compute dies are powered, else the sensor of the hub die, which is free. -/
def execSmbTj (x : SmbRead) (s : State) : Out :=
  s.smbRead x 3 1 (fun s =>
    if !s.pm.pwrGood then (0xFF, s)
    else if s.pm.dies && !s.pm.moor && s.fld PM_CTRL_STATE == 0 then (s.fld PM_POWER_TJ_MAX, s)
    else s.free 8)

/-- SMB_CAUSE. -/
def execSmbCause (x : SmbRead) (s : State) : Out := s.smbRead x 4 1 (fun s => (s.readWord true 0x10, s))

/-- SMB_WAKE. -/
def execSmbWake (x : SmbRead) (s : State) : Out := s.smbRead x 5 1 (fun s => (s.readWord true 0x18, s))

/-- SMB_STATE: in Moor PM_CTRL.STATE has no value stated, so it is free. -/
def execSmbState (x : SmbRead) (s : State) : Out :=
  s.smbRead x 6 1 (fun s =>
    let (v, s) := if s.pm.moor then s.free 3 else (s.fld PM_CTRL_STATE, s)
    (v + b2n s.pm.off * 2 ^ 3 + b2n s.pm.pwrGood * 2 ^ 4 + b2n s.pm.pwrReq * 2 ^ 5, s))

/-- SMB_ID. -/
def execSmbId (x : SmbRead) (s : State) : Out := s.smbRead x 7 2 (fun s => (s.readWord true 0, s))

/-! ### A microsecond with no command (assumption 1) -/

/-- The microseconds since PWR_GOOD, up to the thousand that reset release waits for (R629). -/
def State.tickGood (s : State) : State :=
  if s.pm.pwrGood then { s with pm := { s.pm with goodUs := min 1000 (s.pm.goodUs + 1) } } else s

/-- The cycles of the cluster islands whose clocks run, and the counters of their cores (18 R600). -/
def State.tickClusters (s : State) : State :=
  if s.dieUp then
    let n := s.mhz
    let run := (List.range 40).filter s.clockRuns
    let s := { s with core := { s.core with cycles := run.foldl (fun t cl => Tab.put t 0 cl (Tab.get t 0 cl + n)) s.core.cycles } }
    (run.flatMap (fun cl => (List.range 20).map (· + 20 * cl))).foldl (fun s c => s.countCycles n c) s
  else s

/-- Islands that an arrival has restarted are gated no longer (R611). -/
def State.tickGates (s : State) : State := { s with pm := { s.pm with gated := s.pm.gated.filter s.islandIdle } }

/-- What keeps the device from Stand restarts its count (R612). -/
def State.tickIdle (s : State) : State :=
  if s.mayStand then s else { s with pm := { s.pm with idleFrom := s.timeUs } }

/-- The verification of an image may end at any time (17 R562). -/
def State.tickBoot (s : State) : State :=
  if s.hubUp && s.fld SEC_BOOT_STATE == 1 then
    let (b, s) := s.free 1
    if b = 1 then s.verified else s
  else s

/-- The AON seconds, which stop in Moor (R626). -/
def State.tickAon (s : State) : State :=
  if s.pm.moor || !s.pm.aon then s
  else if s.pm.aonUs + 1 = 1000000 then
    let s := s.setFld PM_AON_SECONDS_S (s.fld PM_AON_SECONDS_S + 1)
    { s with pm := { s.pm with aonUs := 0 } }
  else { s with pm := { s.pm with aonUs := s.pm.aonUs + 1 } }

/-- The dump may be complete at any time before its watchdog; then the stacks go into self-refresh (18 R592). -/
def State.tickDump (s : State) : State :=
  if s.dumping then
    let (b, s) := s.free 1
    if b = 1 then s.endDump none else s
  else if s.on ERR_FAILSAFE_ACTIVE && s.pm.pwrGood then { s with pm := { s.pm with selfRef := true } }
  else s

/-- A way to Off that has come to its time. -/
def State.tickOff (s : State) : State :=
  if s.pm.offAt.any (fun t => decide (t ≤ s.timeUs))
      || (s.pm.smbOff && s.on ERR_FAILSAFE_ACTIVE && s.pm.selfRef && !s.dumping) then s.enterOff
  else s

/-- TIME, and each millisecond the values that partition functions read (16 R555). -/
def State.tickTime (s : State) : State :=
  if s.pm.released && !s.pm.moor then
    let s := { s with timeUs := s.timeUs + 1 }
    if s.timeUs % 1000 = 0 then { s with e := { s.e with roq := s.regs } } else s
  else s

/-- What a microsecond does. -/
def State.tick (s : State) : State :=
  s.tickTime.tickGood.tickClusters.tickWords.tickGates.tickAon.tickBoot.tickDump.tickOff.tickIdle

end Sys2Proof.Machine
end

