-- ==== Sys2Proof/Machine/Scalar.lean ====
section
/-! DEFINITION. Class 0: the scalar, mask and control instructions of one thread (03 R107 to R110, R121). -/

namespace Sys2Proof.Machine

/-- The fields of the arithmetic, logic, shift, compare and minimum or maximum instructions: MOD bit 16 puts sext(IMM)
in the place of source B, and SRCB is then zero (R107). -/
def usesAlu (f : Fields) : Uses :=
  if modBit f 16 then { dst := some .s, a := some .s, mod := 1, imm := 65535 }
  else { dst := some .s, a := some .s, b := some .s, mod := 1 }

/-- Source B of those instructions. -/
def aluB (f : Fields) (core t : Nat) (s : State) : Word :=
  if modBit f 16 then sext f else s.sreg core t f.srcb.toNat

/-- d ← op a b (R108). -/
def alu (op : Nat) (g : Word → Word → Word) (c : Fin 800) (t : Fin 16) (f : Fields) (s : State) : Out :=
  issue c t 0 op f (usesAlu f) false []
    (fun s => thenNext c t (fun s =>
      s.setS c t f.dst.toNat (g (s.sreg c t f.srca.toNat) (aluB f c t s))) s) s

/-- pc ← pc + sext(IMM) where the test holds (R108). -/
def branchTo (core t : Nat) (f : Fields) (s : State) (taken : Bool) : Int :=
  if taken then Int.ofNat (s.pc core t) + (sext f).toInt else s.next core t

def branch (op : Nat) (g : Word → Word → Bool) (c : Fin 800) (t : Fin 16) (f : Fields) (s : State) : Out :=
  issue c t 0 op f { a := some .s, b := some .s, imm := 65535 } false []
    (fun s => .go s (branchTo c t f s (g (s.sreg c t f.srca.toNat) (s.sreg c t f.srcb.toNat)))) s

/-- m_d ← op m_a m_b (R108). -/
def maskOp (op : Nat) (g : MWord → MWord → MWord) (c : Fin 800) (t : Fin 16) (f : Fields) (s : State) : Out :=
  issue c t 0 op f { dst := some .m, a := some .m, b := some .m } false []
    (fun s => thenNext c t (fun s =>
      s.setM c t f.dst.toNat (g (s.mreg c t f.srca.toNat) (s.mreg c t f.srcb.toNat))) s) s

/-- NOP does nothing (R108). -/
def execNop (c : Fin 800) (t : Fin 16) (f : Fields) (s : State) : Out :=
  issue c t 0 0x00 f {} false [] (thenNext c t id) s

/-- ADD (R108). -/
def execAdd (c : Fin 800) (t : Fin 16) (f : Fields) (s : State) : Out :=
  alu 0x01 (fun a b => a + b) c t f s

/-- SUB (R108). -/
def execSub (c : Fin 800) (t : Fin 16) (f : Fields) (s : State) : Out :=
  alu 0x02 (fun a b => a - b) c t f s

/-- AND (R108). -/
def execAnd (c : Fin 800) (t : Fin 16) (f : Fields) (s : State) : Out :=
  alu 0x03 (fun a b => a &&& b) c t f s

/-- OR (R108). -/
def execOr (c : Fin 800) (t : Fin 16) (f : Fields) (s : State) : Out :=
  alu 0x04 (fun a b => a ||| b) c t f s

/-- XOR (R108). -/
def execXor (c : Fin 800) (t : Fin 16) (f : Fields) (s : State) : Out :=
  alu 0x05 (fun a b => a ^^^ b) c t f s

/-- SHL (R108). -/
def execShl (c : Fin 800) (t : Fin 16) (f : Fields) (s : State) : Out :=
  alu 0x06 (fun a b => a <<< (b &&& 63).toNat) c t f s

/-- SHR (R108). -/
def execShr (c : Fin 800) (t : Fin 16) (f : Fields) (s : State) : Out :=
  alu 0x07 (fun a b => a >>> (b &&& 63).toNat) c t f s

/-- SRA (R108). -/
def execSra (c : Fin 800) (t : Fin 16) (f : Fields) (s : State) : Out :=
  alu 0x08 (fun a b => a.sshiftRight (b &&& 63).toNat) c t f s

/-- MUL (R108). -/
def execMul (c : Fin 800) (t : Fin 16) (f : Fields) (s : State) : Out :=
  alu 0x09 (fun a b => a * b) c t f s

/-- MULHU (R108). -/
def execMulhu (c : Fin 800) (t : Fin 16) (f : Fields) (s : State) : Out :=
  alu 0x0A (fun a b => BitVec.ofNat 64 (a.toNat * b.toNat / 2 ^ 64)) c t f s

/-- MIN (R108). -/
def execMin (c : Fin 800) (t : Fin 16) (f : Fields) (s : State) : Out :=
  alu 0x0B (fun a b => if a.slt b then a else b) c t f s

/-- MAX (R108). -/
def execMax (c : Fin 800) (t : Fin 16) (f : Fields) (s : State) : Out :=
  alu 0x0C (fun a b => if a.slt b then b else a) c t f s

/-- MINU (R108). -/
def execMinu (c : Fin 800) (t : Fin 16) (f : Fields) (s : State) : Out :=
  alu 0x0D (fun a b => if a.ult b then a else b) c t f s

/-- MAXU (R108). -/
def execMaxu (c : Fin 800) (t : Fin 16) (f : Fields) (s : State) : Out :=
  alu 0x0E (fun a b => if a.ult b then b else a) c t f s

/-- SLT (R108). -/
def execSlt (c : Fin 800) (t : Fin 16) (f : Fields) (s : State) : Out :=
  alu 0x0F (fun a b => if a.slt b then 1 else 0) c t f s

/-- SLTU (R108). -/
def execSltu (c : Fin 800) (t : Fin 16) (f : Fields) (s : State) : Out :=
  alu 0x10 (fun a b => if a.ult b then 1 else 0) c t f s

/-- SEQ (R108). -/
def execSeq (c : Fin 800) (t : Fin 16) (f : Fields) (s : State) : Out :=
  alu 0x11 (fun a b => if a = b then 1 else 0) c t f s

/-- LI: d ← sext(IMM) (R108). -/
def execLi (c : Fin 800) (t : Fin 16) (f : Fields) (s : State) : Out :=
  issue c t 0 0x12 f { dst := some .s, imm := 65535 } false []
    (thenNext c t (fun s => s.setS c t f.dst.toNat (sext f))) s

/-- LIP: 16 bits of d at 16 p ← IMM, with p = MOD[18:17] (R108). -/
def execLip (c : Fin 800) (t : Fin 16) (f : Fields) (s : State) : Out :=
  issue c t 0 0x13 f { dst := some .s, mod := 6, imm := 65535 } false []
    (thenNext c t (fun s =>
      let p := bits f.mod.toNat 1 2
      s.setS c t f.dst.toNat
        (BitVec.ofNat 64 (setBits (s.sreg c t f.dst.toNat).toNat (16 * p) 16 f.imm.toNat)))) s

/-- BEQ (R108). -/
def execBeq (c : Fin 800) (t : Fin 16) (f : Fields) (s : State) : Out :=
  branch 0x20 (fun a b => a == b) c t f s

/-- BNE (R108). -/
def execBne (c : Fin 800) (t : Fin 16) (f : Fields) (s : State) : Out :=
  branch 0x21 (fun a b => a != b) c t f s

/-- BLT (R108). -/
def execBlt (c : Fin 800) (t : Fin 16) (f : Fields) (s : State) : Out :=
  branch 0x22 (fun a b => a.slt b) c t f s

/-- BGE (R108). -/
def execBge (c : Fin 800) (t : Fin 16) (f : Fields) (s : State) : Out :=
  branch 0x23 (fun a b => !a.slt b) c t f s

/-- BLTU (R108). -/
def execBltu (c : Fin 800) (t : Fin 16) (f : Fields) (s : State) : Out :=
  branch 0x24 (fun a b => a.ult b) c t f s

/-- BGEU (R108). -/
def execBgeu (c : Fin 800) (t : Fin 16) (f : Fields) (s : State) : Out :=
  branch 0x25 (fun a b => !a.ult b) c t f s

/-- DBNZ: d ← a − 1; a branch where the new d is not zero (R108). -/
def execDbnz (c : Fin 800) (t : Fin 16) (f : Fields) (s : State) : Out :=
  issue c t 0 0x26 f { dst := some .s, a := some .s, imm := 65535 } false []
    (fun s =>
      let s' := s.setS c t f.dst.toNat (s.sreg c t f.srca.toNat - 1)
      .go s' (branchTo c t f s (s'.sreg c t f.dst.toNat != 0))) s

/-- JAL: d ← pc + 1, pc ← pc + sext(IMM) (R108). -/
def execJal (c : Fin 800) (t : Fin 16) (f : Fields) (s : State) : Out :=
  issue c t 0 0x27 f { dst := some .s, imm := 65535 } false []
    (fun s => .go (s.setS c t f.dst.toNat (BitVec.ofNat 64 (s.pc c t + 1))) (branchTo c t f s true)) s

/-- JR: d ← pc + 1, pc ← a[12:0] (R108). -/
def execJr (c : Fin 800) (t : Fin 16) (f : Fields) (s : State) : Out :=
  issue c t 0 0x28 f { dst := some .s, a := some .s } false []
    (fun s => .go (s.setS c t f.dst.toNat (BitVec.ofNat 64 (s.pc c t + 1)))
      (Int.ofNat (bits (s.sreg c t f.srca.toNat).toNat 0 13))) s

/-- END: the thread ends; with the last one the task (R121), unless a tile of the core is OPEN (04 R178). -/
def execEnd (c : Fin 800) (t : Fin 16) (f : Fields) (s : State) : Out :=
  issue c t 0 0x29 f {} false []
    (fun s =>
      if s.mx.tiles.any (fun x => x.mc == c.val && x.st == .opened) then .refuse [whole fcHandle]
      else .stop ((s.setStat c t .ended).tryEnd c)) s

/-- The core status items of R109. -/
def csrItem (s : State) (core t item : Nat) : Word :=
  match item with
  | 0 => BitVec.ofNat 64 core
  | 1 => BitVec.ofNat 64 t
  | 2 => BitVec.ofNat 64 (s.threads core)
  | 3 => BitVec.ofNat 64 (s.taskId core)
  | 4 => (s.flags core t).setWidth 64
  | 5 => BitVec.ofNat 64 (s.taskStep core)
  | 6 => BitVec.ofNat 64 (s.taskSlot core)
  | _ => BitVec.ofNat 64 (Tab.get s.core.cycles 0 (clusterOf core))

/-- CSRR: d ← core status item IMM (R109). -/
def execCsrr (c : Fin 800) (t : Fin 16) (f : Fields) (s : State) : Out :=
  issue c t 0 0x2A f { dst := some .s, imm := 65535 } (decide (7 < f.imm.toNat)) []
    (thenNext c t (fun s => s.setS c t f.dst.toNat (csrItem s c t f.imm.toNat))) s

/-- FLCLR: the thread's sticky flags ← 0 (R108). -/
def execFlclr (c : Fin 800) (t : Fin 16) (f : Fields) (s : State) : Out :=
  issue c t 0 0x2B f {} false [] (thenNext c t (fun s => s.setFlags c t 0)) s

/-- MAND (R108). -/
def execMand (c : Fin 800) (t : Fin 16) (f : Fields) (s : State) : Out :=
  maskOp 0x30 (fun a b => a &&& b) c t f s

/-- MOR (R108). -/
def execMor (c : Fin 800) (t : Fin 16) (f : Fields) (s : State) : Out :=
  maskOp 0x31 (fun a b => a ||| b) c t f s

/-- MXOR (R108). -/
def execMxor (c : Fin 800) (t : Fin 16) (f : Fields) (s : State) : Out :=
  maskOp 0x32 (fun a b => a ^^^ b) c t f s

/-- MANDN (R108). -/
def execMandn (c : Fin 800) (t : Fin 16) (f : Fields) (s : State) : Out :=
  maskOp 0x33 (fun a b => a &&& ~~~b) c t f s

/-- MNOT: m_d ← ~m_a (R108). -/
def execMnot (c : Fin 800) (t : Fin 16) (f : Fields) (s : State) : Out :=
  issue c t 0 0x34 f { dst := some .m, a := some .m } false []
    (thenNext c t (fun s => s.setM c t f.dst.toNat (~~~(s.mreg c t f.srca.toNat)))) s

/-- MPOP: the number of set bits among the first n of m_a (R108). -/
def execMpop (c : Fin 800) (t : Fin 16) (f : Fields) (s : State) : Out :=
  issue c t 0 0x35 f { dst := some .s, a := some .m, ty := true } false []
    (thenNext c t (fun s => s.setS c t f.dst.toNat
      (BitVec.ofNat 64 (actives (typeOf f) (s.mreg c t f.srca.toNat)).length))) s

/-- MFIRST: the index of the lowest set bit among the first n of m_a, or −1 (R108). -/
def execMfirst (c : Fin 800) (t : Fin 16) (f : Fields) (s : State) : Out :=
  issue c t 0 0x36 f { dst := some .s, a := some .m, ty := true } false []
    (thenNext c t (fun s => s.setS c t f.dst.toNat
      (match (actives (typeOf f) (s.mreg c t f.srca.toNat)).head? with
        | some i => BitVec.ofNat 64 i
        | none => BitVec.allOnes 64))) s

/-- MFROM: bits [64k+63:64k] of m_d ← s_a, with k = IMM[2:0] (R108). -/
def execMfrom (c : Fin 800) (t : Fin 16) (f : Fields) (s : State) : Out :=
  issue c t 0 0x37 f { dst := some .m, a := some .s, imm := 7 } false []
    (thenNext c t (fun s => s.setM c t f.dst.toNat (BitVec.ofNat 512
      (setBits (s.mreg c t f.dst.toNat).toNat (64 * f.imm.toNat) 64 (s.sreg c t f.srca.toNat).toNat)))) s

/-- MTO: s_d ← bits [64k+63:64k] of m_a, with k = IMM[2:0] (R108). -/
def execMto (c : Fin 800) (t : Fin 16) (f : Fields) (s : State) : Out :=
  issue c t 0 0x38 f { dst := some .s, a := some .m, imm := 7 } false []
    (thenNext c t (fun s => s.setS c t f.dst.toNat
      (BitVec.ofNat 64 (bits (s.mreg c t f.srca.toNat).toNat (64 * f.imm.toNat) 64)))) s

end Sys2Proof.Machine
end

