-- ==== Sys2Proof/Machine/Vector.lean ====
section
/-! DEFINITION. Class 1 but the takes of barges: the vector engine's element operations, comparisons, moves,
conversions and reductions (05 R179 to R201). -/

namespace Sys2Proof.Machine

/-- The mask that governs an instruction. -/
def State.maskOf (s : State) (core t : Nat) (f : Fields) : MWord := s.mreg core t f.mask.toNat

/-- The vector sources of an instruction. -/
def State.va (s : State) (core t : Nat) (f : Fields) : VWord := s.vreg core t f.srca.toNat
def State.vb (s : State) (core t : Nat) (f : Fields) : VWord := s.vreg core t f.srcb.toNat
def State.vc (s : State) (core t : Nat) (f : Fields) : VWord := s.vreg core t f.srcc.toNat

/-- A vector result with its flags. -/
def State.vresult (s : State) (core t : Nat) (f : Fields) (r : Nat × Flags) : State :=
  (s.setV core t f.dst.toNat (BitVec.ofNat 2048 r.1)).orFlags core t r.2

def State.mresult (s : State) (core t : Nat) (f : Fields) (r : Nat × Flags) : State :=
  (s.setM core t f.dst.toNat (BitVec.ofNat 512 r.1)).orFlags core t r.2

/-- Which sources an element operation reads. -/
def usesV (n : Nat) : Uses :=
  { dst := some .v, a := if 1 ≤ n then some .v else none, b := if 2 ≤ n then some .v else none,
    c := if 3 ≤ n then some .v else none, mask := true, ty := true }

/-- An element operation of `n` sources: d[i] ← g (a[i]) (b[i]) (c[i]) on the active elements (R180). -/
def vecOp (op n : Nat) (group : Ty → Bool) (g : Ty → Nat → Nat → Nat → NRes)
    (c : Fin 800) (t : Fin 16) (f : Fields) (s : State) : Out :=
  let ty := typeOf f
  issue c t 1 op f (usesV n) (!group ty) []
    (fun s => thenNext c t (fun s =>
      s.vresult c t f (mapActive ty (s.maskOf c t f) (s.vreg c t f.dst.toNat).toNat (fun i =>
        g ty (elemOf ty (s.va c t f) i) (elemOf ty (s.vb c t f) i) (elemOf ty (s.vc c t f) i)))) s) s

/-- A move of containers: d[i] ← g a b i on the active elements. -/
def vecMove (op : Nat) (u : Uses) (bad : Bool) (g : Ty → VWord → VWord → Nat → Nat)
    (c : Fin 800) (t : Fin 16) (f : Fields) (s : State) : Out :=
  let ty := typeOf f
  issue c t 1 op f u bad []
    (fun s => thenNext c t (fun s =>
      s.vresult c t f (mapLanes ty (s.maskOf c t f) (s.vreg c t f.dst.toNat).toNat
        (g ty (s.va c t f) (s.vb c t f)), 0)) s) s

/-- A comparison into a mask. -/
def vecCmp (op n : Nat) (group : Ty → Bool) (g : Ty → Nat → Nat → Bool × Flags)
    (c : Fin 800) (t : Fin 16) (f : Fields) (s : State) : Out :=
  let ty := typeOf f
  issue c t 1 op f { usesV n with dst := some .m } (!group ty) []
    (fun s => thenNext c t (fun s =>
      s.mresult c t f (maskActive ty (s.maskOf c t f) (fun i =>
        g ty (elemOf ty (s.va c t f) i) (elemOf ty (s.vb c t f) i)))) s) s

/-- VMOV copies bit for bit (R183). -/
def execVmov (c : Fin 800) (t : Fin 16) (f : Fields) (s : State) : Out :=
  vecMove 0x00 (usesV 1) false (fun ty a _ i => laneBits ty a i) c t f s

/-- VIOTA: d[i] ← i (R183). -/
def execViota (c : Fin 800) (t : Fin 16) (f : Fields) (s : State) : Out :=
  vecMove 0x01 (usesV 0) (!(typeOf f).inI) (fun _ _ _ i => i) c t f s

/-- VAND on each active element (R183). -/
def execVand (c : Fin 800) (t : Fin 16) (f : Fields) (s : State) : Out :=
  vecOp 0x02 2 Ty.inI (fun _ a b _ => NRes.ok (a &&& b)) c t f s

/-- VOR on each active element (R183). -/
def execVor (c : Fin 800) (t : Fin 16) (f : Fields) (s : State) : Out :=
  vecOp 0x03 2 Ty.inI (fun _ a b _ => NRes.ok (a ||| b)) c t f s

/-- VXOR on each active element (R183). -/
def execVxor (c : Fin 800) (t : Fin 16) (f : Fields) (s : State) : Out :=
  vecOp 0x04 2 Ty.inI (fun _ a b _ => NRes.ok (a ^^^ b)) c t f s

/-- VNOT on each active element (R183). -/
def execVnot (c : Fin 800) (t : Fin 16) (f : Fields) (s : State) : Out :=
  vecOp 0x05 1 Ty.inI (fun ty a _ _ => NRes.ok (2 ^ ty.bits - 1 - a)) c t f s

/-- VSHL on each active element (R183, R189). -/
def execVshl (c : Fin 800) (t : Fin 16) (f : Fields) (s : State) : Out :=
  vecOp 0x06 2 Ty.inI (fun ty a b _ => elShl ty a b) c t f s

/-- VSHR on each active element (R183, R189). -/
def execVshr (c : Fin 800) (t : Fin 16) (f : Fields) (s : State) : Out :=
  vecOp 0x07 2 Ty.inI (fun ty a b _ => elShr ty a b) c t f s

/-- VSRA on each active element (R189). -/
def execVsra (c : Fin 800) (t : Fin 16) (f : Fields) (s : State) : Out :=
  vecOp 0x08 2 Ty.inI (fun ty a b _ => elSra ty a b) c t f s

/-- VADD on each active element (R183, R185). -/
def execVadd (c : Fin 800) (t : Fin 16) (f : Fields) (s : State) : Out :=
  vecOp 0x10 2 inWXI (fun ty a b _ => elAdd ty a b) c t f s

/-- VSUB on each active element (R183, R185). -/
def execVsub (c : Fin 800) (t : Fin 16) (f : Fields) (s : State) : Out :=
  vecOp 0x11 2 inWXI (fun ty a b _ => elSub ty a b) c t f s

/-- VMUL on each active element (R183, R185). -/
def execVmul (c : Fin 800) (t : Fin 16) (f : Fields) (s : State) : Out :=
  vecOp 0x12 2 inWXI (fun ty a b _ => elMul ty a b) c t f s

/-- VFMA on each active element (R183, R185). -/
def execVfma (c : Fin 800) (t : Fin 16) (f : Fields) (s : State) : Out :=
  vecOp 0x13 3 inWX (fun ty a b c => byFmt ty (fFma · a b c)) c t f s

/-- VFNMA on each active element (R183, R185). -/
def execVfnma (c : Fin 800) (t : Fin 16) (f : Fields) (s : State) : Out :=
  vecOp 0x14 3 inWX (fun ty a b c => byFmt ty (fFnma · a b c)) c t f s

/-- VDIV on each active element (R185, R186). -/
def execVdiv (c : Fin 800) (t : Fin 16) (f : Fields) (s : State) : Out :=
  vecOp 0x15 2 Ty.inW (fun ty a b _ => byFmt ty (fDiv · a b)) c t f s

/-- VSQRT on each active element (R185, R186). -/
def execVsqrt (c : Fin 800) (t : Fin 16) (f : Fields) (s : State) : Out :=
  vecOp 0x16 1 Ty.inW (fun ty a _ _ => byFmt ty (fSqrt · a)) c t f s

/-- VRSQRT on each active element (R185, R186). -/
def execVrsqrt (c : Fin 800) (t : Fin 16) (f : Fields) (s : State) : Out :=
  vecOp 0x17 1 Ty.inW (fun ty a _ _ => byFmt ty (fRsqrt · a)) c t f s

/-- VEXP on each active element (R185, R186). -/
def execVexp (c : Fin 800) (t : Fin 16) (f : Fields) (s : State) : Out :=
  vecOp 0x18 1 Ty.inW (fun ty a _ _ => byFmt ty (fExp · a)) c t f s

/-- VLOG on each active element (R185, R186). -/
def execVlog (c : Fin 800) (t : Fin 16) (f : Fields) (s : State) : Out :=
  vecOp 0x19 1 Ty.inW (fun ty a _ _ => byFmt ty (fLog · a)) c t f s

/-- VMAX on each active element (R183, R187). -/
def execVmax (c : Fin 800) (t : Fin 16) (f : Fields) (s : State) : Out :=
  vecOp 0x1A 2 inWXI (fun ty a b _ => elMax ty a b) c t f s

/-- VMIN on each active element (R183, R187). -/
def execVmin (c : Fin 800) (t : Fin 16) (f : Fields) (s : State) : Out :=
  vecOp 0x1B 2 inWXI (fun ty a b _ => elMin ty a b) c t f s

/-- VABS on each active element (R183). -/
def execVabs (c : Fin 800) (t : Fin 16) (f : Fields) (s : State) : Out :=
  vecOp 0x1C 1 inWXI (fun ty a _ _ => elAbs ty a) c t f s

/-- VNEG on each active element (R183). -/
def execVneg (c : Fin 800) (t : Fin 16) (f : Fields) (s : State) : Out :=
  vecOp 0x1D 1 inWXI (fun ty a _ _ => elNeg ty a) c t f s

/-- VSIGN on each active element (R183). -/
def execVsign (c : Fin 800) (t : Fin 16) (f : Fields) (s : State) : Out :=
  vecOp 0x1E 1 inWI (fun ty a _ _ => elSign ty a) c t f s

/-- VCLAMP on each active element (R183, R187). -/
def execVclamp (c : Fin 800) (t : Fin 16) (f : Fields) (s : State) : Out :=
  vecOp 0x1F 3 inWI (fun ty a b c => elClamp ty a b c) c t f s

/-- VCMPEQ (R188, R189). -/
def execVcmpeq (c : Fin 800) (t : Fin 16) (f : Fields) (s : State) : Out :=
  vecCmp 0x20 2 inWXI (elCmp .eq) c t f s

/-- VCMPNE (R188, R189). -/
def execVcmpne (c : Fin 800) (t : Fin 16) (f : Fields) (s : State) : Out :=
  vecCmp 0x21 2 inWXI (elCmp .ne) c t f s

/-- VCMPLT (R188, R189). -/
def execVcmplt (c : Fin 800) (t : Fin 16) (f : Fields) (s : State) : Out :=
  vecCmp 0x22 2 inWXI (elCmp .lt) c t f s

/-- VCMPLE (R188, R189). -/
def execVcmple (c : Fin 800) (t : Fin 16) (f : Fields) (s : State) : Out :=
  vecCmp 0x23 2 inWXI (elCmp .le) c t f s

/-- VSEL: each active element from a where m_SRCC holds, else from b (R183). -/
def execVsel (c : Fin 800) (t : Fin 16) (f : Fields) (s : State) : Out :=
  let ty := typeOf f
  issue c t 1 0x24 f { usesV 2 with c := some .m } false []
    (fun s => thenNext c t (fun s =>
      let sel := s.mreg c t f.srcc.toNat
      s.vresult c t f (mapLanes ty (s.maskOf c t f) (s.vreg c t f.dst.toNat).toNat (fun i =>
        if activeAt sel i then laneBits ty (s.va c t f) i else laneBits ty (s.vb c t f) i), 0)) s) s

/-- VNF marks NaN and infinite elements (R183). -/
def execVnf (c : Fin 800) (t : Fin 16) (f : Fields) (s : State) : Out :=
  vecCmp 0x25 1 (fun ty => ty.inW || ty.inX || ty.isFP8) (fun ty a _ => elNonFinite ty a) c t f s

/-- VPERM permutes lanes (R191). -/
def execVperm (c : Fin 800) (t : Fin 16) (f : Fields) (s : State) : Out :=
  vecMove 0x30 (usesV 2) (typeOf f != .uint32) (fun ty a b i => laneBits ty a (laneBits ty b i % 64)) c t f s

/-- VPERMB permutes bytes (R191). -/
def execVpermb (c : Fin 800) (t : Fin 16) (f : Fields) (s : State) : Out :=
  vecMove 0x31 (usesV 2) (typeOf f != .uint8) (fun ty a b i => laneBits ty a (laneBits ty b i)) c t f s

/-- The source of element `i` of a shuffle (R192): false for a, true for b, and its index. -/
def shufSrc (pat r n i : Nat) : Bool × Nat :=
  let h := n / 2
  match pat with
  | 0 => (i % 2 == 1, i / 2)
  | 1 => (i % 2 == 1, h + i / 2)
  | 2 => (decide (h ≤ i), 2 * (i % h))
  | 3 => (decide (h ≤ i), 2 * (i % h) + 1)
  | 4 => (false, n - 1 - i)
  | _ => (false, (i + r) % n)

/-- VSHUF applies a fixed pattern (R192). -/
def execVshuf (c : Fin 800) (t : Fin 16) (f : Fields) (s : State) : Out :=
  let pat := bits f.imm.toNat 0 4
  let r := bits f.imm.toNat 4 12
  vecMove 0x32 { usesV (if pat < 4 then 2 else 1) with imm := 65535 } (decide (5 < pat) || (pat != 5 && r != 0))
    (fun ty a b i => let (fromB, j) := shufSrc pat r ty.count i; laneBits ty (if fromB then b else a) j) c t f s

/-- The pairs of R193, from the wider type to the narrower. -/
def packPair (wide narrow : Ty) : Bool :=
  (wide == .int64 && narrow == .int32) || (wide == .int32 && narrow == .int16) || (wide == .int16 && narrow == .int8)
    || (wide == .int16 && narrow == .uint8) || (wide == .uint8 && narrow == .e2m1)

/-- The other type that IMM[3:0] names. -/
def immTy (f : Fields) : Option Ty := Ty.ofCode (bits f.imm.toNat 0 4)

/-- Whether the pair of the instruction is none of R193's. -/
def packBad (wide narrow : Option Ty) : Bool :=
  match wide, narrow with
  | some w, some n => !packPair w n
  | _, _ => true

/-- One element narrowed: its low bits, or saturated with OVERFLOW. -/
def narrowInt (sat : Bool) (wide narrow : Ty) (x : Nat) : NRes :=
  if sat then let r := satInt narrow (wide.readInt x) 0; ⟨r.v, if r.cause = 0 then 0 else flOverflow, 0⟩
  else NRes.ok (x % 2 ^ narrow.bits)

/-- VPACK narrows a into the low half and b into the high half (R193). -/
def execVpack (c : Fin 800) (t : Fin 16) (f : Fields) (s : State) : Out :=
  let ty := typeOf f
  let src := (immTy f).getD .int64
  issue c t 1 0x33 f { usesV 2 with mod := 1, imm := 15 }
    (packBad (immTy f) (some ty) || (ty == .e2m1 && modBit f 16)) []
    (fun s => thenNext c t (fun s =>
      let h := ty.count / 2
      s.vresult c t f (mapActive ty (s.maskOf c t f) (s.vreg c t f.dst.toNat).toNat (fun i =>
        narrowInt (modBit f 16) src ty (elemOf src (if i < h then s.va c t f else s.vb c t f) (i % h))))) s) s

/-- VUNPK widens half P of a (R193). -/
def execVunpk (c : Fin 800) (t : Fin 16) (f : Fields) (s : State) : Out :=
  let ty := typeOf f
  let src := (immTy f).getD .int8
  issue c t 1 0x34 f { usesV 1 with mod := 1, imm := 15 } (packBad (some ty) (immTy f)) []
    (fun s => thenNext c t (fun s =>
      s.vresult c t f (mapActive ty (s.maskOf c t f) (s.vreg c t f.dst.toNat).toNat (fun i =>
        let x := elemOf src (s.va c t f) ((if modBit f 16 then ty.count else 0) + i)
        NRes.ok (if src == .e2m1 then x else wrapInt ty.bits (src.readInt x)))) ) s) s

/-! ### VCVT (R195 to R198) -/

/-- The fields of a conversion. -/
def cvRnd (f : Fields) : Nat := bits f.imm.toNat 4 3
def cvScaled (f : Fields) (ty : Ty) : Bool := ty.alwaysScaled || (ty.isFP8 && bit f.imm.toNat 7)
def cvReg (f : Fields) : Nat := bits f.imm.toNat 8 6
def cvAnyScaled (f : Fields) (src dst : Ty) : Bool := cvScaled f src || cvScaled f dst

/-- Reserved encodings of a conversion (R195, R196). -/
def cvBad (f : Fields) (src : Option Ty) (dst : Ty) : Bool :=
  match src with
  | none => true
  | some src =>
    src == dst || decide (4 < cvRnd f) || (bit f.imm.toNat 7 && !src.isFP8 && !dst.isFP8)
      || (cvAnyScaled f src dst && cvReg f == f.dst.toNat) || (!cvAnyScaled f src dst && cvReg f != 0)
      || decide (max src.count dst.count / min src.count dst.count ≤ f.mod.toNat)

/-- Destination and source element of converted element `j`. -/
def cvPair (src dst : Ty) (part j : Nat) : Nat × Nat :=
  let m := min src.count dst.count
  if src.count < dst.count then (part * m + j, j)
  else if dst.count < src.count then (j, part * m + j) else (j, j)

/-- The draw of converted element `j` (R198). -/
def State.cvDraw (s : State) (core t : Nat) (f : Fields) (j : Nat) : Nat :=
  if cvRnd f = 4 then
    keyedDraw (s.fld (CL_JOB_SEED_SEED (clusterOf core))) (s.taskStep core)
      (roundingCtr (s.taskSlot core) (s.sreg core t f.srcb.toNat).toNat ((s.sreg core t f.srcc.toNat).toNat + j))
  else 0

/-- The active elements of a conversion: destination element, its value, its draw, the flags of reading it.  An element that is a NaN
raises nothing; a flush of another element raises UNDERFLOW, also where its block holds a NaN: each element's reading is an operation of
its own (02 R53, R63; the model's choice, assumption 171). -/
def State.cvList (s : State) (core t : Nat) (f : Fields) (src dst : Ty) : List (Nat × FVal × Nat × Flags) :=
  let m := s.maskOf core t f
  let sc := s.vreg core t (cvReg f)
  ((List.range (min src.count dst.count)).filter (fun j => activeAt m (cvPair src dst f.mod.toNat j).1)).map (fun j =>
    let (d, e) := cvPair src dst f.mod.toNat j
    let (v, fl) := elemVal src (elemOf src (s.va core t f) e)
    let v := if cvScaled f src then applyScale v (elemOf .uint8 sc (e / 32)) else v
    (d, v, s.cvDraw core t f j, if v.isNaN then 0 else fl))

/-- The results of a conversion: (element, encoding) pairs, the blocks' scales, the flags. -/
def cvResults (f : Fields) (dst : Ty) (l : List (Nat × FVal × Nat × Flags)) :
    List (Nat × NRes) × List (Nat × Nat) :=
  let rnd := (Rnd.ofCode (cvRnd f)).getD .rne
  if cvScaled f dst then
    let blocks := ((List.range 16).map (fun k => (k, l.filter (fun e => e.1 / 32 == k)))).filter (fun b => !b.2.isEmpty)
    let enc := blocks.map (fun b => (b, blockEncode dst rnd (b.2.map (fun e => (e.2.1, e.2.2.1)))))
    (enc.flatMap (fun x => (x.1.2.map Prod.fst).zip x.2.2), enc.map (fun x => (x.1.1, x.2.1)))
  else (l.map (fun e => (e.1, convertTo dst rnd e.2.2.1 e.2.1)), [])

/-- VCVT's destination, scales and flags (R195 to R198); the flags are those of the single elements and of the roundings, a block encode
being no one operation of 02 R53 (the model's choice, assumption 171). -/
def State.convert (s : State) (core t : Nat) (f : Fields) (src dst : Ty) : State :=
  let l := s.cvList core t f src dst
  let (rs, scales) := cvResults f dst l
  let fl : Flags := (l.map (fun e => e.2.2.2)).foldl (· ||| ·) 0 ||| (rs.map (fun e => e.2.fl)).foldl (· ||| ·) 0
  let v := rs.foldl (fun acc e => setElem dst acc e.1 e.2.v) (s.vreg core t f.dst.toNat).toNat
  let sc := scales.foldl (fun acc e => setElem .uint8 acc e.1 e.2) (s.vreg core t (cvReg f)).toNat
  let s := if scales.isEmpty then s else s.setV core t (cvReg f) (BitVec.ofNat 2048 sc)
  s.vresult core t f (v, fl)

/-- VCVT converts between formats (R194 to R198). -/
def execVcvt (c : Fin 800) (t : Fin 16) (f : Fields) (s : State) : Out :=
  let dst := typeOf f
  let src := (immTy f).getD .fp32
  let sr := cvRnd f == 4
  issue c t 1 0x38 f
    { dst := some .v, a := some .v, b := if sr then some .s else none, c := if sr then some .s else none, mask := true,
      ty := true, mod := 15, imm := 0x3FFF, sv := if cvAnyScaled f src dst then some (cvReg f) else none }
    (cvBad f (immTy f) dst) []
    (fun s =>
      if sr && (s.sreg c t f.srcb.toNat).toNat / 2 ^ 32 != 0 then .fault [whole fcIllegal]
      else .go (s.convert c t f src dst) (s.next c t)) s

/-! ### Reductions (R199 to R201) -/

/-- The active elements of a, as the tree takes them. -/
def State.treeIn (s : State) (core t : Nat) (f : Fields) (ty : Ty) (g : Nat → NRes) : List (Option NRes) :=
  let m := s.maskOf core t f
  (List.range ty.count).map (fun i => if activeAt m i then some (g (elemOf ty (s.va core t f) i)) else none)

def optFlags (l : List (Option NRes)) : Flags :=
  l.foldl (fun fl x => match x with
    | some r => fl ||| r.fl
    | none => fl) 0

/-- A reduction to one number: the elements read by `g`, combined by `h`, `ident` where none is active, the old
result on the left where MOD[16] is set.  An element that no combine has read is read when it is written (02 R63;
assumption 129). -/
def State.reduce (s : State) (core t : Nat) (f : Fields) (ty res : Ty) (g : Nat → NRes) (h : Nat → Nat → NRes)
    (ident : Nat) : State :=
  let l := s.treeIn core t f ty g
  let (r, fl) := treeFold (fun a b => resPair (h a b)) 9 (l.map (fun x => x.map NRes.v))
  let fl := fl ||| optFlags l
  let old := s.vreg core t f.dst.toNat
  match r, modBit f 16 with
  | none, true => s
  | none, false => s.vresult core t f (setElem res old.toNat 0 ident, fl)
  | some x, true => let y := h (elemOf res old 0) x; s.vresult core t f (setElem res old.toNat 0 y.v, fl ||| y.fl)
  | some x, false => let y := readMax res x; s.vresult core t f (setElem res old.toNat 0 y.v, fl ||| y.fl)

/-- An instruction that reduces a. -/
def reduction (op : Nat) (group : Ty → Bool) (b : Option RFile) (body : Ty → State → State)
    (c : Fin 800) (t : Fin 16) (f : Fields) (s : State) : Out :=
  issue c t 1 op f { dst := some .v, a := some .v, b := b, mask := true, ty := true, mod := 1 } (!group (typeOf f)) []
    (fun s => thenNext c t (body (typeOf f)) s) s

/-- x × x in the type of the sum: an operation, after the widening of a BF16 or FP16 element. -/
def square (ty : Ty) (x : Nat) : NRes :=
  let w := leafSum ty x
  let r := byFmt (sumTy ty) (fMul · w.v w.v)
  ⟨r.v, if (elemVal ty x).1.isNaN then 0 else w.fl ||| r.fl, r.cause⟩

/-- VRSUM (R199, R200). -/
def execVrsum (c : Fin 800) (t : Fin 16) (f : Fields) (s : State) : Out :=
  reduction 0x40 inWXI none (fun ty s =>
    s.reduce c t f ty (sumTy ty) (leafSum ty) (elAdd (sumTy ty)) 0) c t f s

/-- VRSSQ (R199, R200). -/
def execVrssq (c : Fin 800) (t : Fin 16) (f : Fields) (s : State) : Out :=
  reduction 0x41 inWX none (fun ty s =>
    s.reduce c t f ty (sumTy ty) (square ty) (elAdd (sumTy ty)) 0) c t f s

/-- The triple in lanes 0 to 2 of a register. -/
def tripleOf (v : VWord) : Triple := ⟨elemOf .uint32 v 0, elemOf .uint32 v 1, elemOf .uint32 v 2⟩
def putTriple (v : Nat) (x : Triple) : Nat :=
  setElem .uint32 (setElem .uint32 (setElem .uint32 v 0 x.n) 1 x.mean) 2 x.m2

/-- A triple written to d, merged with d's own where MOD[16] is set. -/
def State.putMoments (s : State) (core t : Nat) (f : Fields) (x : Option Triple) (fl : Flags) : State :=
  let old := s.vreg core t f.dst.toNat
  match x, modBit f 16 with
  | none, true => s
  | none, false => s.vresult core t f (putTriple old.toNat ⟨0, 0, 0⟩, fl)
  | some x, true =>
    let (y, fl') := combineTriple (tripleOf old) x
    s.vresult core t f (putTriple old.toNat y, fl ||| fl')
  | some x, false =>
    let (y, fl') := readTriple x
    s.vresult core t f (putTriple old.toNat y, fl ||| fl')

/-- VRMV: count, mean and M2 (R199 to R201). -/
def execVrmv (c : Fin 800) (t : Fin 16) (f : Fields) (s : State) : Out :=
  reduction 0x42 Ty.inW none (fun ty s =>
    let l := s.treeIn c t f ty (leafSum ty)
    let (r, fl) := treeFold combineTriple 9 (l.map (fun x => x.map (fun y => (⟨1, y.v, 0⟩ : Triple))))
    s.putMoments c t f r (fl ||| optFlags l)) c t f s

/-- VMVM merges the triples of a and b (R199, R201). -/
def execVmvm (c : Fin 800) (t : Fin 16) (f : Fields) (s : State) : Out :=
  issue c t 1 0x43 f { dst := some .v, a := some .v, b := some .v, ty := true, mod := 1 } (typeOf f != .fp32) []
    (fun s => thenNext c t (fun s =>
      let (x, fl) := combineTriple (tripleOf (s.va c t f)) (tripleOf (s.vb c t f))
      s.putMoments c t f (some x) fl) s) s

/-- VRMAX (R187, R199, R200). -/
def execVrmax (c : Fin 800) (t : Fin 16) (f : Fields) (s : State) : Out :=
  reduction 0x44 inWXI none (fun ty s =>
    s.reduce c t f ty ty (leafMax ty) (elMax ty) (maxIdentity true ty)) c t f s

/-- VRMIN (R187, R199, R200). -/
def execVrmin (c : Fin 800) (t : Fin 16) (f : Fields) (s : State) : Out :=
  reduction 0x45 inWXI none (fun ty s =>
    s.reduce c t f ty ty (leafMax ty) (elMin ty) (maxIdentity false ty)) c t f s

/-- A maximum and its index written to the low lanes of a register (R199). -/
def putArg (ty : Ty) (v : Nat) (x : Nat × Nat) : Nat :=
  if ty.bits = 64 then setElem .uint32 (setElem .int64 v 0 x.1) 2 x.2
  else setElem .uint32 (setElem .uint32 v 0 (if ty.isInt then wrapInt 32 (ty.readInt x.1) else x.1)) 1 x.2
def argOf (ty : Ty) (v : VWord) : Nat × Nat := (elemOf ty v 0, elemOf .uint32 v (if ty.bits = 64 then 2 else 1))

/-- VRAMAX: the maximum and the lowest index that attains it, plus s_b (R187, R199, R200). -/
def execVramax (c : Fin 800) (t : Fin 16) (f : Fields) (s : State) : Out :=
  reduction 0x46 inWI (some .s) (fun ty s =>
    let l := s.treeIn c t f ty (leafMax ty)
    let base := (s.sreg c t f.srcb.toNat).toNat
    let l' := (l.zip (List.range ty.count)).map (fun x => x.1.map (fun r => (r.v, (x.2 + base) % 2 ^ 32)))
    let (r, fl) := treeFold (combineArg ty) 9 l'
    let fl := fl ||| optFlags l
    let old := s.vreg c t f.dst.toNat
    match r, modBit f 16 with
    | none, true => s
    | none, false => s.vresult c t f (putArg ty old.toNat (maxIdentity true ty, 0xFFFFFFFF), 0)
    | some x, true =>
      let (y, fl') := combineArg ty (argOf ty old) x
      s.vresult c t f (putArg ty old.toNat y, fl ||| fl')
    | some x, false =>
      let y := readMax ty x.1
      s.vresult c t f (putArg ty old.toNat (y.v, x.2), fl ||| y.fl)) c t f s

end Sys2Proof.Machine
end

