-- ==== Sys2Proof/Machine/Dispatch.lean ====
section
/-! DEFINITION. The dispatch: one arm for each command. -/

namespace Sys2Proof.Machine

def exec (i : Instr) (s : State) : Host.Outcome State Fault Refusal :=
  match i with
  | .nop c t f => Sys2Proof.Machine.execNop c t f s
  | .add c t f => Sys2Proof.Machine.execAdd c t f s
  | .sub c t f => Sys2Proof.Machine.execSub c t f s
  | .and_ c t f => Sys2Proof.Machine.execAnd c t f s
  | .or_ c t f => Sys2Proof.Machine.execOr c t f s
  | .xor c t f => Sys2Proof.Machine.execXor c t f s
  | .shl c t f => Sys2Proof.Machine.execShl c t f s
  | .shr c t f => Sys2Proof.Machine.execShr c t f s
  | .sra c t f => Sys2Proof.Machine.execSra c t f s
  | .mul c t f => Sys2Proof.Machine.execMul c t f s
  | .mulhu c t f => Sys2Proof.Machine.execMulhu c t f s
  | .min c t f => Sys2Proof.Machine.execMin c t f s
  | .max c t f => Sys2Proof.Machine.execMax c t f s
  | .minu c t f => Sys2Proof.Machine.execMinu c t f s
  | .maxu c t f => Sys2Proof.Machine.execMaxu c t f s
  | .slt c t f => Sys2Proof.Machine.execSlt c t f s
  | .sltu c t f => Sys2Proof.Machine.execSltu c t f s
  | .seq c t f => Sys2Proof.Machine.execSeq c t f s
  | .li c t f => Sys2Proof.Machine.execLi c t f s
  | .lip c t f => Sys2Proof.Machine.execLip c t f s
  | .beq c t f => Sys2Proof.Machine.execBeq c t f s
  | .bne c t f => Sys2Proof.Machine.execBne c t f s
  | .blt c t f => Sys2Proof.Machine.execBlt c t f s
  | .bge c t f => Sys2Proof.Machine.execBge c t f s
  | .bltu c t f => Sys2Proof.Machine.execBltu c t f s
  | .bgeu c t f => Sys2Proof.Machine.execBgeu c t f s
  | .dbnz c t f => Sys2Proof.Machine.execDbnz c t f s
  | .jal c t f => Sys2Proof.Machine.execJal c t f s
  | .jr c t f => Sys2Proof.Machine.execJr c t f s
  | .end_ c t f => Sys2Proof.Machine.execEnd c t f s
  | .csrr c t f => Sys2Proof.Machine.execCsrr c t f s
  | .flclr c t f => Sys2Proof.Machine.execFlclr c t f s
  | .mand c t f => Sys2Proof.Machine.execMand c t f s
  | .mor c t f => Sys2Proof.Machine.execMor c t f s
  | .mxor c t f => Sys2Proof.Machine.execMxor c t f s
  | .mandn c t f => Sys2Proof.Machine.execMandn c t f s
  | .mnot c t f => Sys2Proof.Machine.execMnot c t f s
  | .mpop c t f => Sys2Proof.Machine.execMpop c t f s
  | .mfirst c t f => Sys2Proof.Machine.execMfirst c t f s
  | .mfrom c t f => Sys2Proof.Machine.execMfrom c t f s
  | .mto c t f => Sys2Proof.Machine.execMto c t f s
  | .ld c t f => Sys2Proof.Machine.execLd c t f s
  | .st c t f => Sys2Proof.Machine.execSt c t f s
  | .tset c t f => Sys2Proof.Machine.execTset c t f s
  | .tget c t f => Sys2Proof.Machine.execTget c t f s
  | .sopen c t f => Sys2Proof.Machine.execSopen c t f s
  | .sclose c t f => Sys2Proof.Machine.execSclose c t f s
  | .srd c t f => Sys2Proof.Machine.execSrd c t f s
  | .swr c t f => Sys2Proof.Machine.execSwr c t f s
  | .streamFetch c q => Sys2Proof.Machine.execStreamFetch c q s
  | .chunkLand c q => Sys2Proof.Machine.execChunkLand c q s
  | .vld c t f => Sys2Proof.Machine.execVld c t f s
  | .vlds c t f => Sys2Proof.Machine.execVlds c t f s
  | .vst c t f => Sys2Proof.Machine.execVst c t f s
  | .vsts c t f => Sys2Proof.Machine.execVsts c t f s
  | .vldt c t f => Sys2Proof.Machine.execVldt c t f s
  | .vstt c t f => Sys2Proof.Machine.execVstt c t f s
  | .sig c t f => Sys2Proof.Machine.execSig c t f s
  | .cret c t f => Sys2Proof.Machine.execCret c t f s
  | .waitc c t f => Sys2Proof.Machine.execWaitc c t f s
  | .barv c t f => Sys2Proof.Machine.execBarv c t f s
  | .bwait c t f => Sys2Proof.Machine.execBwait c t f s
  | .fence c t f => Sys2Proof.Machine.execFence c t f s
  | .mxm c t f => Sys2Proof.Machine.execMxm c t f s
  | .mxmStart c => Sys2Proof.Machine.execMxmStart c s
  | .bargePost c => Sys2Proof.Machine.execBargePost c s
  | .arrayFault c => Sys2Proof.Machine.execArrayFault c s
  | .mldp c t f => Sys2Proof.Machine.execMldp c t f s
  | .planeReady c plane => Sys2Proof.Machine.execPlaneReady c plane s
  | .mdrop c t f => Sys2Proof.Machine.execMdrop c t f s
  | .mdrain c t f => Sys2Proof.Machine.execMdrain c t f s
  | .mbcnt c t f => Sys2Proof.Machine.execMbcnt c t f s
  | .vmov c t f => Sys2Proof.Machine.execVmov c t f s
  | .viota c t f => Sys2Proof.Machine.execViota c t f s
  | .vand c t f => Sys2Proof.Machine.execVand c t f s
  | .vor c t f => Sys2Proof.Machine.execVor c t f s
  | .vxor c t f => Sys2Proof.Machine.execVxor c t f s
  | .vnot c t f => Sys2Proof.Machine.execVnot c t f s
  | .vshl c t f => Sys2Proof.Machine.execVshl c t f s
  | .vshr c t f => Sys2Proof.Machine.execVshr c t f s
  | .vsra c t f => Sys2Proof.Machine.execVsra c t f s
  | .vadd c t f => Sys2Proof.Machine.execVadd c t f s
  | .vsub c t f => Sys2Proof.Machine.execVsub c t f s
  | .vmul c t f => Sys2Proof.Machine.execVmul c t f s
  | .vfma c t f => Sys2Proof.Machine.execVfma c t f s
  | .vfnma c t f => Sys2Proof.Machine.execVfnma c t f s
  | .vdiv c t f => Sys2Proof.Machine.execVdiv c t f s
  | .vsqrt c t f => Sys2Proof.Machine.execVsqrt c t f s
  | .vrsqrt c t f => Sys2Proof.Machine.execVrsqrt c t f s
  | .vexp c t f => Sys2Proof.Machine.execVexp c t f s
  | .vlog c t f => Sys2Proof.Machine.execVlog c t f s
  | .vmax c t f => Sys2Proof.Machine.execVmax c t f s
  | .vmin c t f => Sys2Proof.Machine.execVmin c t f s
  | .vabs c t f => Sys2Proof.Machine.execVabs c t f s
  | .vneg c t f => Sys2Proof.Machine.execVneg c t f s
  | .vsign c t f => Sys2Proof.Machine.execVsign c t f s
  | .vclamp c t f => Sys2Proof.Machine.execVclamp c t f s
  | .vcmpeq c t f => Sys2Proof.Machine.execVcmpeq c t f s
  | .vcmpne c t f => Sys2Proof.Machine.execVcmpne c t f s
  | .vcmplt c t f => Sys2Proof.Machine.execVcmplt c t f s
  | .vcmple c t f => Sys2Proof.Machine.execVcmple c t f s
  | .vsel c t f => Sys2Proof.Machine.execVsel c t f s
  | .vnf c t f => Sys2Proof.Machine.execVnf c t f s
  | .vperm c t f => Sys2Proof.Machine.execVperm c t f s
  | .vpermb c t f => Sys2Proof.Machine.execVpermb c t f s
  | .vshuf c t f => Sys2Proof.Machine.execVshuf c t f s
  | .vpack c t f => Sys2Proof.Machine.execVpack c t f s
  | .vunpk c t f => Sys2Proof.Machine.execVunpk c t f s
  | .vcvt c t f => Sys2Proof.Machine.execVcvt c t f s
  | .vrsum c t f => Sys2Proof.Machine.execVrsum c t f s
  | .vrssq c t f => Sys2Proof.Machine.execVrssq c t f s
  | .vrmv c t f => Sys2Proof.Machine.execVrmv c t f s
  | .vmvm c t f => Sys2Proof.Machine.execVmvm c t f s
  | .vrmax c t f => Sys2Proof.Machine.execVrmax c t f s
  | .vrmin c t f => Sys2Proof.Machine.execVrmin c t f s
  | .vramax c t f => Sys2Proof.Machine.execVramax c t f s
  | .vtake c t f => Sys2Proof.Machine.execVtake c t f s
  | .vrel c t f => Sys2Proof.Machine.execVrel c t f s
  | .sdeg c t f => Sys2Proof.Machine.execSdeg c t f s
  | .snbr c t f => Sys2Proof.Machine.execSnbr c t f s
  | .suni c t f => Sys2Proof.Machine.execSuni c t f s
  | .salias c t f => Sys2Proof.Machine.execSalias c t f s
  | .stopk c t f => Sys2Proof.Machine.execStopk c t f s
  | .swalk c t f => Sys2Proof.Machine.execSwalk c t f s
  | .slayr c t f => Sys2Proof.Machine.execSlayr c t f s
  | .gathl c t f => Sys2Proof.Machine.execGathl c t f s
  | .vgath c t f => Sys2Proof.Machine.execVgath c t f s
  | .vscat c t f => Sys2Proof.Machine.execVscat c t f s
  | .bcmd c t f => Sys2Proof.Machine.execBcmd c t f s
  | .bsplit c t f => Sys2Proof.Machine.execBsplit c t f s
  | .bsort c t f => Sys2Proof.Machine.execBsort c t f s
  | .eres c t f => Sys2Proof.Machine.execEres c t f s
  | .esort c t f => Sys2Proof.Machine.execEsort c t f s
  | .feederCreditReturn c q => Sys2Proof.Machine.execFeederCreditReturn c q s
  | .poolGroupIssue c q => Sys2Proof.Machine.execPoolGroupIssue c q s
  | .gather st id => Sys2Proof.Machine.execGather st id s
  | .pool st id => Sys2Proof.Machine.execPool st id s
  | .scatterAdd st id => Sys2Proof.Machine.execScatterAdd st id s
  | .rowUpdate st id => Sys2Proof.Machine.execRowUpdate st id s
  | .commandCompletion st id => Sys2Proof.Machine.execCommandCompletion st id s
  | .tokenCreditReturn tok => Sys2Proof.Machine.execTokenCreditReturn tok s
  | .tokenSignal tok => Sys2Proof.Machine.execTokenSignal tok s
  | .barrierArrive tok => Sys2Proof.Machine.execBarrierArrive tok s
  | .barrierRelease tok => Sys2Proof.Machine.execBarrierRelease tok s
  | .controlWrite tok target => Sys2Proof.Machine.execControlWrite tok target s
  | .controlRead tok target => Sys2Proof.Machine.execControlRead tok target s
  | .readReply tok => Sys2Proof.Machine.execReadReply tok s
  | .faultRecordNotice tok => Sys2Proof.Machine.execFaultRecordNotice tok s
  | .contributionDoorbell tok => Sys2Proof.Machine.execContributionDoorbell tok s
  | .exchangeDoorbell tok => Sys2Proof.Machine.execExchangeDoorbell tok s
  | .taskStart c => Sys2Proof.Machine.execTaskStart c s
  | .taskHalt c => Sys2Proof.Machine.execTaskHalt c s
  | .tokenChannelOpen c ch value => Sys2Proof.Machine.execTokenChannelOpen c ch value s
  | .arbCommit inst => Sys2Proof.Machine.execArbCommit inst s
  | .arbiterRound inst errs => Sys2Proof.Machine.execArbiterRound inst errs s
  | .bankRefresh st pc bank => Sys2Proof.Machine.execBankRefresh st pc bank s
  | .rowClose st pc bank => Sys2Proof.Machine.execRowClose st pc bank s
  | .patrolScrub st addr errs => Sys2Proof.Machine.execPatrolScrub st addr errs s
  | .sweepRewrite st => Sys2Proof.Machine.execSweepRewrite st s
  | .idleFrame lam frame => Sys2Proof.Machine.execIdle lam frame s
  | .creditIdleSend lam => Sys2Proof.Machine.execCreditIdleSend lam s
  | .tokenFrame lam frame => Sys2Proof.Machine.execToken lam frame s
  | .collectiveLeaf lam frame => Sys2Proof.Machine.execCollectiveLeaf lam frame s
  | .collectivePartial lam frame => Sys2Proof.Machine.execCollectivePartial lam frame s
  | .spanUpdate g p slot bucket span => Sys2Proof.Machine.execSpanUpdate g p slot bucket span s
  | .hubSpanUpdate p slot bucket span => Sys2Proof.Machine.execHubSpanUpdate p slot bucket span s
  | .lateMarker lam frame => Sys2Proof.Machine.execLateMarker lam frame s
  | .gatherFlight lam frame => Sys2Proof.Machine.execGatherFlight lam frame s
  | .gatherReach lam frame => Sys2Proof.Machine.execGatherReach lam frame s
  | .coachSegment lam frame => Sys2Proof.Machine.execCoachSegment lam frame s
  | .snapshotData lam frame => Sys2Proof.Machine.execSnapshotData lam frame s
  | .snapshotAck via => Sys2Proof.Machine.execSnapshotAck via s
  | .snapshotRefusal via => Sys2Proof.Machine.execSnapshotRefusal via s
  | .hello lam frame => Sys2Proof.Machine.execHello lam frame s
  | .linkstate lam frame => Sys2Proof.Machine.execLinkstate lam frame s
  | .linkstateSend => Sys2Proof.Machine.execLinkstateSend s
  | .linkquery lam frame => Sys2Proof.Machine.execLinkquery lam frame s
  | .linkreply lam frame => Sys2Proof.Machine.execLinkreply lam frame s
  | .frameForward lam frame => Sys2Proof.Machine.execFrameForward lam frame s
  | .bounceResend lam frame => Sys2Proof.Machine.execBounceResend lam frame s
  | .retransmit lam => Sys2Proof.Machine.execRetransmit lam s
  | .lambdaRetrain lam => Sys2Proof.Machine.execLambdaRetrain lam s
  | .lambdaDown lam => Sys2Proof.Machine.execLambdaDown lam s
  | .lambdaUp lam => Sys2Proof.Machine.execLambdaUp lam s
  | .unreachable dst => Sys2Proof.Machine.execUnreachable dst s
  | .fabricBringUp light lasers => Sys2Proof.Machine.execFabricBringUp light lasers s
  | .useA e aOk => Sys2Proof.Machine.execUseA e aOk s
  | .laserSwitch e bOk => Sys2Proof.Machine.execLaserSwitch e bOk s
  | .laserSupply e missA missB => Sys2Proof.Machine.execLaserSupply e missA missB s
  | .portShutter n => Sys2Proof.Machine.execPortShutter n s
  | .shutterProbe n => Sys2Proof.Machine.execShutterProbe n s
  | .portOpen n => Sys2Proof.Machine.execPortOpen n s
  | .laserEnableDrop d => Sys2Proof.Machine.execLaserEnableDrop d s
  | .stragglerWindowClose p => Sys2Proof.Machine.execStragglerWindowClose p s
  | .voteSend p => Sys2Proof.Machine.execVoteSend p s
  | .vote via => Sys2Proof.Machine.execVote via s
  | .groupVote via => Sys2Proof.Machine.execGroupVote via s
  | .verdict via => Sys2Proof.Machine.execVerdict via s
  | .appliedSend p => Sys2Proof.Machine.execAppliedSend p s
  | .applied via => Sys2Proof.Machine.execApplied via s
  | .groupApplied via => Sys2Proof.Machine.execGroupApplied via s
  | .commit via => Sys2Proof.Machine.execCommit via s
  | .rollback via => Sys2Proof.Machine.execRollback via s
  | .abort via => Sys2Proof.Machine.execAbort via s
  | .resolve via => Sys2Proof.Machine.execResolve via s
  | .stateMsg via => Sys2Proof.Machine.execState via s
  | .holdEnter p => Sys2Proof.Machine.execHoldEnter p s
  | .phaseStart p => Sys2Proof.Machine.execPhaseStart p s
  | .serveHeadTimer p => Sys2Proof.Machine.execServeHeadTimer p s
  | .riskEval tj sramCe => Sys2Proof.Machine.execRiskEval tj sramCe s
  | .drainStart => Sys2Proof.Machine.execDrainStart s
  | .partCreate cmd => Sys2Proof.Machine.execPartCreate cmd s
  | .partFence cmd => Sys2Proof.Machine.execPartFence cmd s
  | .partTeardown cmd => Sys2Proof.Machine.execPartTeardown cmd s
  | .partQuery cmd => Sys2Proof.Machine.execPartQuery cmd s
  | .partStart q p => Sys2Proof.Machine.execPartStart q p s
  | .memWrite cmd => Sys2Proof.Machine.execMemWrite cmd s
  | .memRead cmd => Sys2Proof.Machine.execMemRead cmd s
  | .memFill cmd => Sys2Proof.Machine.execMemFill cmd s
  | .ptSet cmd => Sys2Proof.Machine.execPtSet cmd s
  | .apertureSet cmd => Sys2Proof.Machine.execApertureSet cmd s
  | .degreeBin cmd => Sys2Proof.Machine.execDegreeBin cmd s
  | .jobLoad cmd => Sys2Proof.Machine.execJobLoad cmd s
  | .jobStop cmd => Sys2Proof.Machine.execJobStop cmd s
  | .jobResume cmd => Sys2Proof.Machine.execJobResume cmd s
  | .stepRun cmd => Sys2Proof.Machine.execStepRun cmd s
  | .serveBatch cmd => Sys2Proof.Machine.execServeBatch cmd s
  | .ledgerRead cmd => Sys2Proof.Machine.execLedgerRead cmd s
  | .tableReplace cmd => Sys2Proof.Machine.execTableReplace cmd s
  | .hotRefresh cmd => Sys2Proof.Machine.execHotRefresh cmd s
  | .ckptBuffers cmd => Sys2Proof.Machine.execCkptBuffers cmd s
  | .ckptRestore cmd => Sys2Proof.Machine.execCkptRestore cmd s
  | .drain cmd => Sys2Proof.Machine.execDrain cmd s
  | .redistribute cmd => Sys2Proof.Machine.execRedistribute cmd s
  | .quote cmd => Sys2Proof.Machine.execQuote cmd s
  | .kemRead cmd => Sys2Proof.Machine.execKemRead cmd s
  | .kemRefresh cmd => Sys2Proof.Machine.execKemRefresh cmd s
  | .keyOpen cmd => Sys2Proof.Machine.execKeyOpen cmd s
  | .keyInstall cmd => Sys2Proof.Machine.execKeyInstall cmd s
  | .keyRotate cmd => Sys2Proof.Machine.execKeyRotate cmd s
  | .identRead cmd => Sys2Proof.Machine.execIdentRead cmd s
  | .svnCommit cmd => Sys2Proof.Machine.execSvnCommit cmd s
  | .otpProgram cmd => Sys2Proof.Machine.execOtpProgram cmd s
  | .debugAttach cmd => Sys2Proof.Machine.execDebugAttach cmd s
  | .debugDetach cmd => Sys2Proof.Machine.execDebugDetach cmd s
  | .ideKmPf0 cmd => Sys2Proof.Machine.execIdeKmPf0 cmd s
  | .errRing cmd => Sys2Proof.Machine.execErrRing cmd s
  | .dumpRead cmd => Sys2Proof.Machine.execDumpRead cmd s
  | .selfTest cmd => Sys2Proof.Machine.execSelfTest cmd s
  | .echo cmd => Sys2Proof.Machine.execEcho cmd s
  | .opPoint cmd => Sys2Proof.Machine.execOpPoint cmd s
  | .idleCfg cmd => Sys2Proof.Machine.execIdleCfg cmd s
  | .moorEnable cmd => Sys2Proof.Machine.execMoorEnable cmd s
  | .powerOff cmd => Sys2Proof.Machine.execPowerOff cmd s
  | .commandDoorbell q ring value => Sys2Proof.Machine.execCommandDoorbell q ring value s
  | .completionDoorbell q ring value => Sys2Proof.Machine.execCompletionDoorbell q ring value s
  | .commandFetch fn ring => Sys2Proof.Machine.execCommandFetch fn ring s
  | .coalTimerExpire fn ring => Sys2Proof.Machine.execCoalTimerExpire fn ring s
  | .ringEnable q ring ctrl => Sys2Proof.Machine.execRingEnable q ring ctrl s
  | .ringDisable q ring => Sys2Proof.Machine.execRingDisable q ring s
  | .functionLevelReset fn => Sys2Proof.Machine.execFunctionLevelReset fn s
  | .apertureRead q offset len => Sys2Proof.Machine.execApertureRead q offset len s
  | .apertureWrite q offset data => Sys2Proof.Machine.execApertureWrite q offset data s
  | .bootWindowWrite offset data => Sys2Proof.Machine.execBootWindowWrite offset data s
  | .bootGo value => Sys2Proof.Machine.execBootGo value s
  | .firmwareReady => Sys2Proof.Machine.execFirmwareReady s
  | .workingTreeBuild => Sys2Proof.Machine.execWorkingTreeBuild s
  | .ledgerDrainedAck q p value => Sys2Proof.Machine.execLedgerDrainedAck q p value s
  | .mirrorHeadWrite value => Sys2Proof.Machine.execMirrorHeadWrite value s
  | .mirrorCopy => Sys2Proof.Machine.execMirrorCopy s
  | .reportLog => Sys2Proof.Machine.execReportLog s
  | .logWindowClose index => Sys2Proof.Machine.execLogWindowClose index s
  | .clearLost => Sys2Proof.Machine.execClearLost s
  | .cntFreeze => Sys2Proof.Machine.execCntFreeze s
  | .cntUnfreeze => Sys2Proof.Machine.execCntUnfreeze s
  | .cntClear => Sys2Proof.Machine.execCntClear s
  | .fatalLatchClear latch => Sys2Proof.Machine.execFatalLatchClear latch s
  | .thermalWarn die tj => Sys2Proof.Machine.execThermalWarn die tj s
  | .thermalTrip die tj => Sys2Proof.Machine.execThermalTrip die tj s
  | .railFault rail permille => Sys2Proof.Machine.execRailFault rail permille s
  | .undervoltageWarning rail permille => Sys2Proof.Machine.execUndervoltageWarning rail permille s
  | .refclkLoss => Sys2Proof.Machine.execRefclkLoss s
  | .hubWatchdog => Sys2Proof.Machine.execHubWatchdog s
  | .hubFwFault code => Sys2Proof.Machine.execHubFwFault code s
  | .secFault code => Sys2Proof.Machine.execSecFault code s
  | .linkUe link => Sys2Proof.Machine.execLinkUe link s
  | .sramUe loc => Sys2Proof.Machine.execSramUe loc s
  | .dumpWatchdog => Sys2Proof.Machine.execDumpWatchdog s
  | .throttleEval tj watts => Sys2Proof.Machine.execThrottleEval tj watts s
  | .clockChange => Sys2Proof.Machine.execClockChange s
  | .islandGate island => Sys2Proof.Machine.execIslandGate island s
  | .islandUngate island => Sys2Proof.Machine.execIslandUngate island s
  | .standEntry => Sys2Proof.Machine.execStandEntry s
  | .standExit => Sys2Proof.Machine.execStandExit s
  | .moorEntry => Sys2Proof.Machine.execMoorEntry s
  | .moorExit => Sys2Proof.Machine.execMoorExit s
  | .pcieInbandWake => Sys2Proof.Machine.execPcieInbandWake s
  | .smbusAddressMatch x => Sys2Proof.Machine.execSmbusAddressMatch x s
  | .wakeTimerExpire => Sys2Proof.Machine.execWakeTimerExpire s
  | .perstN asserted => Sys2Proof.Machine.execPerstN asserted s
  | .resetRelease => Sys2Proof.Machine.execResetRelease s
  | .aonPowerOn supply => Sys2Proof.Machine.execAonPowerOn supply s
  | .brownoutAon => Sys2Proof.Machine.execBrownoutAon s
  | .mainLoss => Sys2Proof.Machine.execMainLoss s
  | .padRelease => Sys2Proof.Machine.execPadRelease s
  | .aux0Edge => Sys2Proof.Machine.execAux0Edge s
  | .smbArm x => Sys2Proof.Machine.execSmbArm x s
  | .smbFence x => Sys2Proof.Machine.execSmbFence x s
  | .smbPowerOff x => Sys2Proof.Machine.execSmbPowerOff x s
  | .smbPowerUp x => Sys2Proof.Machine.execSmbPowerUp x s
  | .smbFailsafe x => Sys2Proof.Machine.execSmbFailsafe x s
  | .smbFatal x => Sys2Proof.Machine.execSmbFatal x s
  | .smbTj x => Sys2Proof.Machine.execSmbTj x s
  | .smbCause x => Sys2Proof.Machine.execSmbCause x s
  | .smbWake x => Sys2Proof.Machine.execSmbWake x s
  | .smbState x => Sys2Proof.Machine.execSmbState x s
  | .smbId x => Sys2Proof.Machine.execSmbId x s
  | .registerWrite q place value => Sys2Proof.Machine.execRegisterWrite q place value s
  | .berthReturn c id => Sys2Proof.Machine.execBerthReturn c id s
  | .mxmFinish c => Sys2Proof.Machine.execMxmFinish c s
  | .planeFree c plane => Sys2Proof.Machine.execPlaneFree c plane s
  | .frameCrcError lam frame => Sys2Proof.Machine.execFrameCrcError lam frame s
  | .migrationRecord lam frame => Sys2Proof.Machine.execMigrationRecord lam frame s
  | .pwrGoodAssert => Sys2Proof.Machine.execPwrGoodAssert s
  | .debugFence act => Sys2Proof.Machine.execDebugFence act s

end Sys2Proof.Machine
end

