-- ==== Sys2Proof/Safety.lean ====
section
/-! DEFINITION. What a safe step is, and when an instruction of a core runs: the words the statements use. -/

namespace Sys2Proof.Machine

/-- The step answers a next state. -/
def SafeStep (s : State) : Prop := ∃ s', step s = .next s'

/-- A thread may issue an instruction now: its task runs on a clocked die, it waits for nothing and has its turn
(03 R106), and none of the registers the instruction uses has a write pending (R104).  A matrix core has thread 0 only (03 R102). -/
def Issues (s : State) (c : Fin 800) (t : Fin 16) (f : Fields) (u : Uses) (more : List (RFile × Nat)) : Prop :=
  (isMatrix c = true → t = 0) ∧ s.dieUp = true ∧ s.threadReady c t = true ∧ s.turn c t = true
    ∧ s.regsBusy c t (usedRegs u f ++ more) = false

/-- The word is no reserved encoding, no vector register lies beyond the window, and the next word exists. -/
def WordOk (s : State) (c : Fin 800) (t : Fin 16) (f : Fields) (u : Uses) (bad : Bool) : Prop :=
  fieldsBad u f = false ∧ bad = false ∧ windowBad u f (s.threads c) = false ∧ s.pc c t + 1 ≤ 8191

/-- The instruction runs and goes on to the next word. -/
def Runs (s : State) (c : Fin 800) (t : Fin 16) (f : Fields) (u : Uses) (bad : Bool) : Prop :=
  Issues s c t f u [] ∧ WordOk s c t f u bad

/-- `s'` with the instruction counted, the thread moved on from the word at which `s` stands, and its turn noted. -/
def passed (s s' : State) (c : Fin 800) (t : Fin 16) : State :=
  ((s'.countIssue c).setPc c t (s.pc c t + 1)).tookTurn c t (s.pc c t)

/-- The instruction raised one fault, which stops its task (03 R136). -/
def raised (s : State) (c : Fin 800) (t : Fin 16) (cls op : Nat) (f : Fields) (code : Nat) : State :=
  (s.countIssue c).raise c t (s.pc c t) [whole code] (instrWord cls op f)

end Sys2Proof.Machine
end

