-- ==== Sys2Proof/WellFormed.lean ====
section
/-! DEFINITION. Which commands can occur on the hardware: a matrix core has thread 0 only (03 R118), and a frame on a fibre
is a header of 16 bytes with the payload that its LEN field counts (11 R385). -/

namespace Sys2Proof

/-- Whether a thread of the core may exist: cores 0 and 1 of each cluster are matrix cores, of one thread. -/
def coreOk (c : Fin 800) (t : Fin 16) : Bool := decide (2 ≤ c.val % 20) || t == 0

/-- Whether the bytes are a frame: a header, as much payload as LEN says, and the CRC. -/
def frameOk (frame : List Byte) : Bool :=
  decide (20 ≤ frame.length) && frame.length == 20 + Machine.bits (Machine.leNat ((frame.drop 4).take 4)) 4 11

/-- A message of the device itself is no frame; one over a lambda is. -/
def viaOk (v : Via) : Bool :=
  match v with
  | .lambda _ frame => frameOk frame
  | .own => true

/-- Whether a command can occur on the hardware. -/
def Instr.wellFormed (i : Instr) : Bool :=
  match i with
  | .nop c t _ | .add c t _ | .sub c t _ | .and_ c t _ | .or_ c t _ | .xor c t _ | .shl c t _ | .shr c t _
  | .sra c t _ | .mul c t _ | .mulhu c t _ | .min c t _ | .max c t _ | .minu c t _ | .maxu c t _ | .slt c t _
  | .sltu c t _ | .seq c t _ | .li c t _ | .lip c t _ | .beq c t _ | .bne c t _ | .blt c t _ | .bge c t _
  | .bltu c t _ | .bgeu c t _ | .dbnz c t _ | .jal c t _ | .jr c t _ | .end_ c t _ | .csrr c t _ | .flclr c t _
  | .mand c t _ | .mor c t _ | .mxor c t _ | .mandn c t _ | .mnot c t _ | .mpop c t _ | .mfirst c t _ | .mfrom c t _
  | .mto c t _ | .ld c t _ | .st c t _ | .tset c t _ | .tget c t _ | .sopen c t _ | .sclose c t _ | .srd c t _
  | .swr c t _ | .vld c t _ | .vlds c t _ | .vst c t _ | .vsts c t _ | .vldt c t _ | .vstt c t _ | .sig c t _
  | .cret c t _ | .waitc c t _ | .barv c t _ | .bwait c t _ | .fence c t _ | .mxm c t _ | .mldp c t _ | .mdrop c t _
  | .mdrain c t _ | .mbcnt c t _ | .vmov c t _ | .viota c t _ | .vand c t _ | .vor c t _ | .vxor c t _ | .vnot c t _
  | .vshl c t _ | .vshr c t _ | .vsra c t _ | .vadd c t _ | .vsub c t _ | .vmul c t _ | .vfma c t _ | .vfnma c t _
  | .vdiv c t _ | .vsqrt c t _ | .vrsqrt c t _ | .vexp c t _ | .vlog c t _ | .vmax c t _ | .vmin c t _ | .vabs c t _
  | .vneg c t _ | .vsign c t _ | .vclamp c t _ | .vcmpeq c t _ | .vcmpne c t _ | .vcmplt c t _ | .vcmple c t _
  | .vsel c t _ | .vnf c t _ | .vperm c t _ | .vpermb c t _ | .vshuf c t _ | .vpack c t _ | .vunpk c t _
  | .vcvt c t _ | .vrsum c t _ | .vrssq c t _ | .vrmv c t _ | .vmvm c t _ | .vrmax c t _ | .vrmin c t _
  | .vramax c t _ | .vtake c t _ | .vrel c t _ | .sdeg c t _ | .snbr c t _ | .suni c t _ | .salias c t _
  | .stopk c t _ | .swalk c t _ | .slayr c t _ | .gathl c t _ | .vgath c t _ | .vscat c t _ | .bcmd c t _
  | .bsplit c t _ | .bsort c t _ | .eres c t _ | .esort c t _ => coreOk c t
  | .idleFrame _ frame | .tokenFrame _ frame | .collectiveLeaf _ frame | .collectivePartial _ frame
  | .lateMarker _ frame | .gatherFlight _ frame | .gatherReach _ frame | .coachSegment _ frame
  | .snapshotData _ frame | .hello _ frame | .linkstate _ frame | .linkquery _ frame | .linkreply _ frame
  | .frameForward _ frame | .bounceResend _ frame | .migrationRecord _ frame => frameOk frame
  | .frameCrcError _ frame => frameOk frame.bytes
  | .snapshotAck via | .snapshotRefusal via | .vote via | .groupVote via | .verdict via | .applied via
  | .groupApplied via | .commit via | .rollback via | .abort via | .resolve via | .stateMsg via => viaOk via
  | .streamFetch _ _ | .chunkLand _ _ | .mxmStart _ | .bargePost _ | .arrayFault _ | .planeReady _ _
  | .feederCreditReturn _ _ | .poolGroupIssue _ _ | .gather _ _ | .pool _ _ | .scatterAdd _ _ | .rowUpdate _ _
  | .commandCompletion _ _ | .tokenCreditReturn _ | .tokenSignal _ | .barrierArrive _ | .barrierRelease _
  | .controlWrite _ _ | .controlRead _ _ | .readReply _ | .faultRecordNotice _ | .contributionDoorbell _
  | .exchangeDoorbell _ | .taskStart _ | .taskHalt _ | .tokenChannelOpen _ _ _ | .arbCommit _ | .arbiterRound _ _
  | .bankRefresh _ _ _ | .rowClose _ _ _ | .patrolScrub _ _ _ | .sweepRewrite _ | .creditIdleSend _
  | .spanUpdate _ _ _ _ _ | .hubSpanUpdate _ _ _ _ | .linkstateSend | .retransmit _ | .lambdaRetrain _
  | .lambdaDown _ | .lambdaUp _ | .unreachable _ | .fabricBringUp _ _ | .useA _ _ | .laserSwitch _ _
  | .laserSupply _ _ _ | .portShutter _ | .shutterProbe _ | .portOpen _ | .laserEnableDrop _
  | .stragglerWindowClose _ | .voteSend _ | .appliedSend _ | .holdEnter _ | .phaseStart _ | .serveHeadTimer _
  | .riskEval _ _ | .drainStart | .partCreate _ | .partFence _ | .partTeardown _ | .partQuery _ | .partStart _ _
  | .memWrite _ | .memRead _ | .memFill _ | .ptSet _ | .apertureSet _ | .degreeBin _ | .jobLoad _ | .jobStop _
  | .jobResume _ | .stepRun _ | .serveBatch _ | .ledgerRead _ | .tableReplace _ | .hotRefresh _ | .ckptBuffers _
  | .ckptRestore _ | .drain _ | .redistribute _ | .quote _ | .kemRead _ | .kemRefresh _ | .keyOpen _ | .keyInstall _
  | .keyRotate _ | .identRead _ | .svnCommit _ | .otpProgram _ | .debugAttach _ | .debugDetach _ | .ideKmPf0 _
  | .errRing _ | .dumpRead _ | .selfTest _ | .echo _ | .opPoint _ | .idleCfg _ | .moorEnable _ | .powerOff _
  | .commandDoorbell _ _ _ | .completionDoorbell _ _ _ | .commandFetch _ _ | .coalTimerExpire _ _ | .ringEnable _ _ _
  | .ringDisable _ _ | .functionLevelReset _ | .apertureRead _ _ _ | .apertureWrite _ _ _ | .bootWindowWrite _ _
  | .bootGo _ | .firmwareReady | .workingTreeBuild | .ledgerDrainedAck _ _ _ | .mirrorHeadWrite _ | .mirrorCopy
  | .reportLog | .logWindowClose _ | .clearLost | .cntFreeze | .cntUnfreeze | .cntClear | .fatalLatchClear _
  | .thermalWarn _ _ | .thermalTrip _ _ | .railFault _ _ | .undervoltageWarning _ _ | .refclkLoss | .hubWatchdog
  | .hubFwFault _ | .secFault _ | .linkUe _ | .sramUe _ | .dumpWatchdog | .throttleEval _ _ | .clockChange
  | .islandGate _ | .islandUngate _ | .standEntry | .standExit | .moorEntry | .moorExit | .pcieInbandWake
  | .smbusAddressMatch _ | .wakeTimerExpire | .perstN _ | .resetRelease | .aonPowerOn _ | .brownoutAon | .mainLoss
  | .padRelease | .aux0Edge | .smbArm _ | .smbFence _ | .smbPowerOff _ | .smbPowerUp _ | .smbFailsafe _ | .smbFatal _ | .smbTj _
  | .smbCause _ | .smbWake _ | .smbState _ | .smbId _ | .registerWrite _ _ _ | .berthReturn _ _ | .mxmFinish _
  | .planeFree _ _ | .pwrGoodAssert | .debugFence _ => true

end Sys2Proof
end

