-- ==== Sys2Proof/Certificates/Slice0/Obligations.lean ====
section
/-! DEFINITION. The statements for the provers.  `Gives o P` says that a command answers a next state, and what that
state holds; the tables name the commands that a statement is about. -/

namespace Sys2Proof.Machine

/-- The outcome is a next state with the property. -/
def Gives (o : Out) (P : State → Prop) : Prop := ∃ t, o = .next t ∧ P t

/-- The fail-safe state has stopped no clock (18 R592). -/
def Clocked (s : State) : Prop := s.on ERR_FAILSAFE_ACTIVE = false

/-- A core instruction without its operands. -/
abbrev CoreOp := Fin 800 → Fin 16 → Fields → Instr
end Sys2Proof.Machine

section
open Sys2Proof Sys2Proof.Machine

/-! ### The queue, reset and the invariants -/

/-- A step runs the command at the front of the queue on the state without it; nothing else is added. -/
def Obligations.StepRunsFront : Prop :=
  ∀ (i : Instr) (rest : List Instr) (s : State),
    step { s with pending := i :: rest } = exec i { s with pending := rest }

/-- On an empty queue a microsecond passes (the model's own choice, assumption 1): the step answers a next state whose queue is empty.
Where no dump is being written and power does not go off, the hub's time is one microsecond later while the hub runs and stands in Moor and
before reset release; the AON seconds count in the always-on domain's own time, which stops in Moor; the time since PWR_GOOD counts up to
the reset release; a cluster whose clock runs has counted MHz cycles, one whose clock is gated none (19 R611); the read-only copy of the
registers is taken each millisecond; and no byte of memory changes. -/
def Obligations.IdleStep : Prop :=
  ∀ s : State, s.pending = [] → Gives (step s) (fun t => t.pending = []
    ∧ (s.dumping = false → s.pm.offAt = none → s.pm.smbOff = false →
      let runs := s.pm.released && !s.pm.moor
      t.timeUs = (if runs then s.timeUs + 1 else s.timeUs)
      ∧ (s.pm.pwrGood = true → t.pm.goodUs = min 1000 (s.pm.goodUs + 1))
      ∧ (s.pm.aon = true → s.pm.moor = false →
        (s.pm.aonUs + 1 = 1000000 → t.pm.aonUs = 0
          ∧ t.fld PM_AON_SECONDS_S = (s.fld PM_AON_SECONDS_S + 1) % 2 ^ PM_AON_SECONDS_S.len)
        ∧ (s.pm.aonUs + 1 ≠ 1000000 → t.pm.aonUs = s.pm.aonUs + 1 ∧ t.fld PM_AON_SECONDS_S = s.fld PM_AON_SECONDS_S))
      ∧ (s.pm.moor = true → t.pm.aonUs = s.pm.aonUs ∧ t.fld PM_AON_SECONDS_S = s.fld PM_AON_SECONDS_S)
      ∧ (∀ cl, cl < 40 → Tab.get t.core.cycles 0 cl = Tab.get s.core.cycles 0 cl
          + (if s.dieUp && s.clockRuns cl then s.mhz else 0))
      ∧ (runs = true → (s.timeUs + 1) % 1000 = 0 → t.e.roq = s.regs)
      ∧ t.m.mem = s.m.mem))

/-- No command adds to the queue or takes from it: a step that answers a next state leaves the queue's rest. -/
def Obligations.StepShortensQueue : Prop :=
  ∀ s t : State, step s = .next t → t.pending = s.pending.tail

/-- What every step keeps, from any state: memory in its canonical form (addresses strictly rising, no byte listed that an
unlisted address reads as). That form is the model's own representation of memory, in which equal memories are equal data
(assumption 4). -/
def Obligations.StepKeepsMemory : Prop :=
  ∀ s t : State, s.m.mem.wf = true → step s = .next t → t.m.mem.wf = true

/-- Nothing that can occur on the hardware stops the machine: every well-formed command answers a next state, in every
state; so does a step whose front command is well-formed or whose queue is empty. -/
def Obligations.WellFormedNeverStops : Prop :=
  (∀ (i : Instr) (s : State), i.wellFormed = true → ∃ t, exec i s = .next t)
  ∧ ∀ s : State, s.pending.head?.all Instr.wellFormed = true → SafeStep s

/-- The machine right after reset: memory has its canonical form and lists nothing, no command waits, every register field
holds its reset value, no task runs and no thread of one can issue, every partition is FREE, and no operation, request,
token or frame is under way (03 R117, 16 R519, 20 R644 to R654; the reset values that the spec does not give are the
model's, assumptions 5 to 8). -/
def Obligations.ResetState : Prop :=
  let s := State.reset
  s.m.mem.wf = true ∧ s.m.mem = [] ∧ s.pending = [] ∧ (∀ f : Fld, s.fld f = f.rst)
  ∧ (∀ c : Fin 800, s.taskState c = tkIdle ∧ ∀ t : Fin 16, s.threadReady c t = false)
  ∧ (∀ p : Fin 8, s.partState p = ptFree ∧ s.sections p = 0)
  ∧ s.m.xfers = [] ∧ s.m.reqs = [] ∧ s.e.toks = [] ∧ s.fab.sent = [] ∧ s.h.started = []
end

namespace Sys2Proof.Machine

/-! ### Class 0 (03 R107 to R110, R121) -/

/-- The two-source instructions of 03 R108 and their results. -/
def aluTable : List (CoreOp × (Word → Word → Word)) :=
  [ (.add, fun a b => a + b), (.sub, fun a b => a - b), (.and_, fun a b => a &&& b), (.or_, fun a b => a ||| b),
    (.xor, fun a b => a ^^^ b), (.shl, fun a b => a <<< (b.toNat % 64)), (.shr, fun a b => a >>> (b.toNat % 64)),
    (.sra, fun a b => a.sshiftRight (b.toNat % 64)), (.mul, fun a b => a * b),
    (.mulhu, fun a b => BitVec.ofNat 64 (a.toNat * b.toNat / 2 ^ 64)),
    (.min, fun a b => if a.toInt ≤ b.toInt then a else b), (.max, fun a b => if b.toInt ≤ a.toInt then a else b),
    (.minu, fun a b => if a.toNat ≤ b.toNat then a else b), (.maxu, fun a b => if b.toNat ≤ a.toNat then a else b),
    (.slt, fun a b => if a.toInt < b.toInt then 1 else 0), (.sltu, fun a b => if a.toNat < b.toNat then 1 else 0),
    (.seq, fun a b => if a = b then 1 else 0) ]

/-- Source B of 03 R107: sext(IMM) where MOD[16] is 1, else s_b. -/
def immOrB (s : State) (c : Fin 800) (t : Fin 16) (f : Fields) : Word :=
  if f.mod.getLsbD 0 then f.imm.signExtend 64 else s.sreg c t f.srcb.toNat
end Sys2Proof.Machine

section
open Sys2Proof Sys2Proof.Machine

/-- Each arithmetic, logic, shift, compare and minimum or maximum instruction that runs writes its result to s_d (a
write to s0 is discarded) and moves on by one word; nothing else changes but the count of issued instructions. -/
def Obligations.ScalarAlu : Prop :=
  ∀ e ∈ aluTable, ∀ (c : Fin 800) (t : Fin 16) (f : Fields) (s : State), Runs s c t f (usesAlu f) false →
    exec (e.1 c t f) s = .next (passed s (s.setS c t f.dst.toNat (e.2 (s.sreg c t f.srca.toNat) (immOrB s c t f))) c t)
end

namespace Sys2Proof.Machine

/-- What an instruction of a thread leaves alone whatever it does: the program counters, states and flags of other
threads, tile handles, streams, every register field but the count of issued instructions, and every unit but memory. -/
def coreKept (s u : State) (c : Fin 800) (t : Fin 16) : Prop :=
  (∀ (c' : Fin 800) (t' : Fin 16), ¬ (c' = c ∧ t' = t) →
    u.pc c' t' = s.pc c' t' ∧ u.stat c' t' = s.stat c' t' ∧ u.flags c' t' = s.flags c' t')
  ∧ (∀ (c' : Fin 800) (r : Fin 32), u.handle c' r = s.handle c' r)
  ∧ (∀ (c' : Fin 800) (q : Fin 16), u.stream c' q = s.stream c' q)
  ∧ (∀ g : Fld, g.key ≠ (TC_ISSUED_COUNT (clusterOf c) (subOf c)).key → u.fld g = s.fld g)
  ∧ u.mx = s.mx ∧ u.b = s.b ∧ u.e = s.e ∧ u.fab = s.fab ∧ u.h = s.h ∧ u.j = s.j ∧ u.sec = s.sec ∧ u.pm = s.pm
  ∧ u.pending = s.pending ∧ u.timeUs = s.timeUs ∧ u.freeCtr = s.freeCtr

/-- Every scalar, mask and vector register but the destination named (a scalar, a mask or a vector register of the thread)
is unchanged. -/
def regsKept (s u : State) (c : Fin 800) (t : Fin 16) (sd md vd : Option Nat) : Prop :=
  (∀ (c' : Fin 800) (t' : Fin 16) (r : Fin 32), ¬ (c' = c ∧ t' = t ∧ sd = some r.val) → u.sreg c' t' r = s.sreg c' t' r)
  ∧ (∀ (c' : Fin 800) (t' : Fin 16) (r : Fin 16), ¬ (c' = c ∧ t' = t ∧ md = some r.val) → u.mreg c' t' r = s.mreg c' t' r)
  ∧ (∀ (c' : Fin 800) (t' : Fin 16) (r : Nat), t'.val < s.threads c' → r < 64 / s.threads c' →
      ¬ (c' = c ∧ t' = t ∧ vd = some r) → u.vreg c' t' r = s.vreg c' t' r)

/-- The instructions that write a scalar register and nothing else, with what they use and what reserves them. -/
def scalarWriters : List (CoreOp × (Fields → Uses) × (Fields → Bool)) :=
  aluTable.map (fun e => (e.1, usesAlu, fun _ => false))
  ++ [ (.li, fun _ => { dst := some .s, imm := 65535 }, fun _ => false),
       (.lip, fun _ => { dst := some .s, mod := 6, imm := 65535 }, fun _ => false),
       (.csrr, fun _ => { dst := some .s, imm := 65535 }, fun f => decide (7 < f.imm.toNat)),
       (.mpop, fun _ => { dst := some .s, a := some .m, ty := true }, fun _ => false),
       (.mfirst, fun _ => { dst := some .s, a := some .m, ty := true }, fun _ => false),
       (.mto, fun _ => { dst := some .s, a := some .m, imm := 7 }, fun _ => false),
       (.tget, fun _ => { dst := some .s, a := some .t }, fun _ => false) ]

/-- NOP, LI, LIP, CSRR and FLCLR that run have the effects of 03 R108 and R109. -/
def scalarMovesLaw : Prop :=
  ∀ (c : Fin 800) (t : Fin 16) (f : Fields) (s : State),
    (Runs s c t f {} false → exec (.nop c t f) s = .next (passed s s c t))
    ∧ (Runs s c t f { dst := some .s, imm := 65535 } false →
        exec (.li c t f) s = .next (passed s (s.setS c t f.dst.toNat (f.imm.signExtend 64)) c t))
    ∧ (Runs s c t f { dst := some .s, mod := 6, imm := 65535 } false →
        exec (.lip c t f) s = .next (passed s (s.setS c t f.dst.toNat (BitVec.ofNat 64
          (setBits (s.sreg c t f.dst.toNat).toNat (16 * (f.mod.toNat / 2 % 4)) 16 f.imm.toNat))) c t))
    ∧ (Runs s c t f { dst := some .s, imm := 65535 } (decide (7 < f.imm.toNat)) →
        exec (.csrr c t f) s = .next (passed s (s.setS c t f.dst.toNat (csrItem s c t f.imm.toNat)) c t))
    ∧ (Runs s c t f {} false → exec (.flclr c t f) s = .next (passed s (s.setFlags c t 0) c t))

/-- The mask instructions that run have the effects of 03 R108: bitwise results, the number of set bits and the lowest
set bit among the elements of the type, and the copies between 64 mask bits and a scalar register. -/
def maskInstructionsLaw : Prop :=
  ∀ (c : Fin 800) (t : Fin 16) (f : Fields) (s : State),
    let a := s.mreg c t f.srca.toNat
    let b := s.mreg c t f.srcb.toNat
    let w (v : MWord) : Out := .next (passed s (s.setM c t f.dst.toNat v) c t)
    let d (v : Word) : Out := .next (passed s (s.setS c t f.dst.toNat v) c t)
    let set := (List.range (typeOf f).count).filter (fun i => a.getLsbD i)
    (Runs s c t f { dst := some .m, a := some .m, b := some .m } false →
        exec (.mand c t f) s = w (a &&& b) ∧ exec (.mor c t f) s = w (a ||| b)
        ∧ exec (.mxor c t f) s = w (a ^^^ b) ∧ exec (.mandn c t f) s = w (a &&& ~~~b))
    ∧ (Runs s c t f { dst := some .m, a := some .m } false → exec (.mnot c t f) s = w (~~~a))
    ∧ (Runs s c t f { dst := some .s, a := some .m, ty := true } false →
        exec (.mpop c t f) s = d (BitVec.ofNat 64 set.length)
        ∧ exec (.mfirst c t f) s = d (match set.head? with
            | some i => BitVec.ofNat 64 i
            | none => BitVec.allOnes 64))
    ∧ (Runs s c t f { dst := some .m, a := some .s, imm := 7 } false →
        exec (.mfrom c t f) s = w (BitVec.ofNat 512 (setBits (s.mreg c t f.dst.toNat).toNat (64 * f.imm.toNat) 64
          (s.sreg c t f.srca.toNat).toNat)))
    ∧ (Runs s c t f { dst := some .s, a := some .m, imm := 7 } false →
        exec (.mto c t f) s = d ((a >>> (64 * f.imm.toNat)).setWidth 64))
end Sys2Proof.Machine

section
open Sys2Proof Sys2Proof.Machine

/-- The results of the class 0 instructions that move values and of those that work on masks (03 R108, R109). -/
def Obligations.ScalarAndMaskResults : Prop := scalarMovesLaw ∧ maskInstructionsLaw
end

namespace Sys2Proof.Machine

/-- The conditional branches of 03 R108 and their tests. -/
def branchTable : List (CoreOp × (Word → Word → Bool)) :=
  [ (.beq, fun a b => a == b), (.bne, fun a b => a != b), (.blt, fun a b => decide (a.toInt < b.toInt)),
    (.bge, fun a b => decide (b.toInt ≤ a.toInt)), (.bltu, fun a b => decide (a.toNat < b.toNat)),
    (.bgeu, fun a b => decide (b.toNat ≤ a.toNat)) ]

/-- The thread moved to a word with `s'` as the rest of the state, or, beyond word 8,191, a PC_RANGE fault raised by the
branch with none of its effect (03 R110). -/
def jumped (s s' : State) (c : Fin 800) (t : Fin 16) (op : Nat) (f : Fields) (pc : Int) : State :=
  if 0 ≤ pc ∧ pc ≤ 8191 then ((s'.countIssue c).setPc c t pc.toNat).tookTurn c t (s.pc c t)
  else raised s c t 0 op f fcPcRange

/-- Where a branch that is taken goes. -/
def target (s : State) (c : Fin 800) (t : Fin 16) (f : Fields) : Int := (s.pc c t : Int) + f.imm.toInt

/-- A branch that issues and is no reserved encoding, at any word. -/
def Jumps (s : State) (c : Fin 800) (t : Fin 16) (f : Fields) (u : Uses) : Prop :=
  Issues s c t f u [] ∧ fieldsBad u f = false
end Sys2Proof.Machine

section
open Sys2Proof Sys2Proof.Machine

/-- Branches and jumps that issue: the program counter moves to the target where the test holds and by one word where it does
not; DBNZ writes a − 1 and branches on it, JAL and JR write the address of the next word. At word 8,191 a branch not taken
raises PC_RANGE (03 R110). That a target below word 0 raises it too is the model's choice (assumption 131), and that DBNZ of
s0 never branches is its reading (assumption 128). -/
def Obligations.Branches : Prop :=
  ∀ (c : Fin 800) (t : Fin 16) (f : Fields) (s : State),
    (∀ e ∈ branchTable.zipIdx 0x20, Jumps s c t f { a := some .s, b := some .s, imm := 65535 } →
      exec (e.1.1 c t f) s = .next (jumped s s c t e.2 f
        (if e.1.2 (s.sreg c t f.srca.toNat) (s.sreg c t f.srcb.toNat) then target s c t f else s.pc c t + 1)))
    ∧ (Jumps s c t f { dst := some .s, a := some .s, imm := 65535 } →
        let s' := s.setS c t f.dst.toNat (s.sreg c t f.srca.toNat - 1)
        exec (.dbnz c t f) s = .next (jumped s s' c t 0x26 f
          (if s'.sreg c t f.dst.toNat = 0 then (s.pc c t : Int) + 1 else target s c t f)))
    ∧ (Jumps s c t f { dst := some .s, imm := 65535 } →
        exec (.jal c t f) s = .next (jumped s (s.setS c t f.dst.toNat (BitVec.ofNat 64 (s.pc c t + 1))) c t 0x27 f
          (target s c t f)))
    ∧ (Jumps s c t f { dst := some .s, a := some .s } →
        exec (.jr c t f) s = .next (jumped s (s.setS c t f.dst.toNat (BitVec.ofNat 64 (s.pc c t + 1))) c t 0x28 f
          ((s.sreg c t f.srca.toNat).toNat % 2 ^ 13)))

/-- The frame of the instructions that write a scalar register, of the mask instructions, of the branches, and of END of a
thread whose task goes on, which ends the thread alone: every other register, every flag, all of memory and every unit are
unchanged (03 R108, R121). -/
def Obligations.ScalarFrame : Prop :=
  ∀ (c : Fin 800) (t : Fin 16) (f : Fields) (s : State),
    let kept (sd md : Option Nat) (u : State) : Prop :=
      regsKept s u c t sd md none ∧ coreKept s u c t ∧ u.flags c t = s.flags c t ∧ u.stat c t = s.stat c t ∧ u.m = s.m
    (∀ e ∈ scalarWriters, Runs s c t f (e.2.1 f) (e.2.2 f) → Gives (exec (e.1 c t f) s) (kept (some f.dst.toNat) none))
    ∧ (∀ i ∈ [Instr.mand c t f, .mor c t f, .mxor c t f, .mandn c t f],
      Runs s c t f { dst := some .m, a := some .m, b := some .m } false → Gives (exec i s) (kept none (some f.dst.toNat)))
    ∧ (Runs s c t f { dst := some .m, a := some .m } false → Gives (exec (.mnot c t f) s) (kept none (some f.dst.toNat)))
    ∧ (Runs s c t f { dst := some .m, a := some .s, imm := 7 } false →
        Gives (exec (.mfrom c t f) s) (kept none (some f.dst.toNat)))
    ∧ (0 ≤ target s c t f → target s c t f ≤ 8191 →
      (∀ e ∈ branchTable, Runs s c t f { a := some .s, b := some .s, imm := 65535 } false →
        Gives (exec (e.1 c t f) s) (kept none none))
      ∧ (Runs s c t f { dst := some .s, imm := 65535 } false → Gives (exec (.jal c t f) s) (kept (some f.dst.toNat) none))
      ∧ (Runs s c t f { dst := some .s, a := some .s, imm := 65535 } false →
        Gives (exec (.dbnz c t f) s) (kept (some f.dst.toNat) none)))
    ∧ (Runs s c t f { dst := some .s, a := some .s } false → Gives (exec (.jr c t f) s) (kept (some f.dst.toNat) none))
    ∧ (Runs s c t f {} false → s.mx.tiles.any (fun x => x.mc == c.val && x.st == .opened) = false →
        (∃ t', t' < s.threads c ∧ t' ≠ t.val ∧ s.stat c t' ≠ .ended) →
        Gives (exec (.end_ c t f) s) (fun u => u.stat c t = .ended ∧ u.pc c t = s.pc c t ∧ u.flags c t = s.flags c t
          ∧ regsKept s u c t none none none ∧ coreKept s u c t ∧ u.m = s.m))
end

namespace Sys2Proof.Machine

/-- END of a thread while no tile of its core is OPEN: the thread has ended; with the last thread of a task whose stores
are accepted, whose barges are posted and whose engine has found no fault, the task's CL_TASK_STATE reads ENDED, the flags of all its
threads have been ORed into NUM_STEP_FLAGS of its partition (02 R82), and the end
signal that its descriptor names is on its way (03 R121, R122).  While a tile of the core is OPEN, END raises HANDLE and the
thread does not end (04 R178). -/
def endOfTaskLaw : Prop :=
  ∀ (c : Fin 800) (t : Fin 16) (f : Fields) (s : State),
    let opened := s.mx.tiles.any (fun x => x.mc == c.val && x.st == .opened)
    let d := s.taskF c 8 4
    Issues s c t f {} [] → fieldsBad {} f = false →
    (opened = false → Gives (exec (.end_ c t f) s) (fun u =>
      u.stat c t = .ended
      ∧ (∀ r, u.sreg c t r = s.sreg c t r)
      ∧ ((∀ t', t' < s.threads c → t' ≠ t.val → s.stat c t' = .ended) →
          s.m.xfers.any (fun (x : Xfer) => x.core == c.val && x.isStore) = false →
          s.mx.tiles.any (fun x => x.mc == c.val && x.st == .closed) = false → s.engineFaults c = [] →
          u.taskState c = tkEnded
          ∧ (∀ p, s.corePart c = some p → u.fld (NUM_STEP_FLAGS_FLAGS p) = (s.fld (NUM_STEP_FLAGS_FLAGS p)
              ||| ((List.range (s.threads c)).foldl (fun fl t' => fl ||| s.flags c t') 0).toNat)
                % 2 ^ (NUM_STEP_FLAGS_FLAGS p).len)
          ∧ (tokBad (mkTok 1 (bits d 0 8) (bits d 8 5) (clusterOf c) (subOf c) (bits d 16 8) 1) = false →
            u.e.toks = s.e.toks ++ [mkTok 1 (bits d 0 8) (bits d 8 5) (clusterOf c) (subOf c) (bits d 16 8) 1]))
      ∧ ((∃ t', t' < s.threads c ∧ t' ≠ t.val ∧ s.stat c t' ≠ .ended) → u.taskState c = tkRunning)))
    ∧ (opened = true → exec (.end_ c t f) s = .next (raised s c t 0 0x29 f fcHandle))

/-! ### Class 1: the vector engine (05 R179 to R206) -/

/-- The element operations of 05 R183: the command, its number of sources, the types it accepts, its result on one
element. -/
def elementTable : List (CoreOp × Nat × (Ty → Bool) × (Ty → Nat → Nat → Nat → NRes)) :=
  [ (.vand, 2, Ty.inI, fun _ a b _ => ⟨a &&& b, 0, 0⟩), (.vor, 2, Ty.inI, fun _ a b _ => ⟨a ||| b, 0, 0⟩),
    (.vxor, 2, Ty.inI, fun _ a b _ => ⟨a ^^^ b, 0, 0⟩), (.vnot, 1, Ty.inI, fun ty a _ _ => ⟨2 ^ ty.bits - 1 - a, 0, 0⟩),
    (.vshl, 2, Ty.inI, fun ty a b _ => ⟨a * 2 ^ (b % ty.bits), 0, 0⟩),
    (.vshr, 2, Ty.inI, fun ty a b _ => ⟨a / 2 ^ (b % ty.bits), 0, 0⟩),
    (.vsra, 2, Ty.inI, fun ty a b _ => elSra ty a b),
    (.vadd, 2, inWXI, fun ty a b _ => elAdd ty a b), (.vsub, 2, inWXI, fun ty a b _ => elSub ty a b),
    (.vmul, 2, inWXI, fun ty a b _ => elMul ty a b), (.vfma, 3, inWX, fun ty a b d => byFmt ty (fFma · a b d)),
    (.vfnma, 3, inWX, fun ty a b d => byFmt ty (fFnma · a b d)), (.vdiv, 2, Ty.inW, fun ty a b _ => byFmt ty (fDiv · a b)),
    (.vsqrt, 1, Ty.inW, fun ty a _ _ => byFmt ty (fSqrt · a)), (.vrsqrt, 1, Ty.inW, fun ty a _ _ => byFmt ty (fRsqrt · a)),
    (.vexp, 1, Ty.inW, fun ty a _ _ => byFmt ty (fExp · a)), (.vlog, 1, Ty.inW, fun ty a _ _ => byFmt ty (fLog · a)),
    (.vmax, 2, inWXI, fun ty a b _ => elMax ty a b), (.vmin, 2, inWXI, fun ty a b _ => elMin ty a b),
    (.vabs, 1, inWXI, fun ty a _ _ => elAbs ty a), (.vneg, 1, inWXI, fun ty a _ _ => elNeg ty a),
    (.vsign, 1, inWI, fun ty a _ _ => elSign ty a), (.vclamp, 3, inWI, fun ty a b d => elClamp ty a b d) ]

/-- What an instruction that writes elements of v_d leaves: the active elements hold `r`, the inactive ones what they
held, the thread's sticky flags gain those of the active elements (05 R180), and nothing else changes but the count of
issued instructions and the program counter. -/
def elementsWritten (s u : State) (c : Fin 800) (t : Fin 16) (f : Fields) (r : Nat → NRes) : Prop :=
  let ty := typeOf f
  let m := s.mreg c t f.mask.toNat
  (∀ i, i < ty.count → elemOf ty (u.vreg c t f.dst.toNat) i =
    if m.getLsbD i then (r i).v % 2 ^ ty.bits else elemOf ty (s.vreg c t f.dst.toNat) i)
  ∧ u.flags c t = ((List.range ty.count).filter (fun i => m.getLsbD i)).foldl (fun fl i => fl ||| (r i).fl) (s.flags c t)
  ∧ u.pc c t = s.pc c t + 1
  ∧ regsKept s u c t none none (some f.dst.toNat) ∧ coreKept s u c t ∧ u.stat c t = s.stat c t ∧ u.m = s.m
end Sys2Proof.Machine

section
open Sys2Proof Sys2Proof.Machine

/-- Every element operation that runs writes its result to the active elements and nothing to the others. -/
def Obligations.VectorElements : Prop :=
  ∀ e ∈ elementTable, ∀ (c : Fin 800) (t : Fin 16) (f : Fields) (s : State),
    Runs s c t f (usesV e.2.1) (!e.2.2.1 (typeOf f)) →
    Gives (exec (e.1 c t f) s) (fun u => elementsWritten s u c t f (fun i =>
      e.2.2.2 (typeOf f) (elemOf (typeOf f) (s.vreg c t f.srca.toNat) i) (elemOf (typeOf f) (s.vreg c t f.srcb.toNat) i)
        (elemOf (typeOf f) (s.vreg c t f.srcc.toNat) i)))
end

namespace Sys2Proof.Machine

/-- VMOV, VIOTA, VSEL, VPERM, VPERMB and the patterns of VSHUF that run (05 R183, R191, R192): where each active element
of d comes from. -/
def vectorMovesLaw : Prop :=
  ∀ (c : Fin 800) (t : Fin 16) (f : Fields) (s : State),
    let ty := typeOf f
    let n := ty.count
    let a (i : Nat) : NRes := ⟨elemOf ty (s.vreg c t f.srca.toNat) i, 0, 0⟩
    let b (i : Nat) : NRes := ⟨elemOf ty (s.vreg c t f.srcb.toNat) i, 0, 0⟩
    let gives (o : Out) (r : Nat → NRes) : Prop := Gives o (fun u => elementsWritten s u c t f r)
    (Runs s c t f (usesV 1) false → gives (exec (.vmov c t f) s) a)
    ∧ (Runs s c t f (usesV 0) (!ty.inI) → gives (exec (.viota c t f) s) (fun i => ⟨i, 0, 0⟩))
    ∧ (Runs s c t f { usesV 2 with c := some .m } false →
        gives (exec (.vsel c t f) s) (fun i => if (s.mreg c t f.srcc.toNat).getLsbD i then a i else b i))
    ∧ (Runs s c t f (usesV 2) (ty != .uint32) → gives (exec (.vperm c t f) s) (fun i => a ((b i).v % 64)))
    ∧ (Runs s c t f (usesV 2) (ty != .uint8) → gives (exec (.vpermb c t f) s) (fun i => a (b i).v))
    ∧ (f.imm.toNat / 16 = 0 → f.imm.toNat % 16 < 4 → Runs s c t f { usesV 2 with imm := 65535 } false →
        gives (exec (.vshuf c t f) s) (fun i =>
          match f.imm.toNat % 16 with
          | 0 => if i % 2 = 0 then a (i / 2) else b (i / 2)
          | 1 => if i % 2 = 0 then a (n / 2 + i / 2) else b (n / 2 + i / 2)
          | 2 => if i < n / 2 then a (2 * i) else b (2 * (i - n / 2))
          | _ => if i < n / 2 then a (2 * i + 1) else b (2 * (i - n / 2) + 1)))
    ∧ (f.imm.toNat % 16 = 4 → f.imm.toNat / 16 = 0 → Runs s c t f { usesV 1 with imm := 65535 } false →
        gives (exec (.vshuf c t f) s) (fun i => a (n - 1 - i)))
    ∧ (f.imm.toNat % 16 = 5 → Runs s c t f { usesV 1 with imm := 65535 } false →
        gives (exec (.vshuf c t f) s) (fun i => a ((i + f.imm.toNat / 16) % n)))

/-- The comparisons and VNF: the command, its sources, its types, its result on one element. -/
def compareTable : List (CoreOp × Nat × (Ty → Bool) × (Ty → Nat → Nat → Bool × Flags)) :=
  [ (.vcmpeq, 2, inWXI, elCmp .eq), (.vcmpne, 2, inWXI, elCmp .ne), (.vcmplt, 2, inWXI, elCmp .lt),
    (.vcmple, 2, inWXI, elCmp .le), (.vnf, 1, fun ty => ty.inW || ty.inX || ty.isFP8, fun ty a _ => elNonFinite ty a) ]

/-- A comparison that runs writes one bit for each active element of its mask destination, and zero to every other bit
of it (05 R180). -/
def vectorComparesLaw : Prop :=
  ∀ e ∈ compareTable, ∀ (c : Fin 800) (t : Fin 16) (f : Fields) (s : State),
    Runs s c t f { usesV e.2.1 with dst := some .m } (!e.2.2.1 (typeOf f)) →
    let ty := typeOf f
    let m := s.mreg c t f.mask.toNat
    let r (i : Nat) := e.2.2.2 ty (elemOf ty (s.vreg c t f.srca.toNat) i) (elemOf ty (s.vreg c t f.srcb.toNat) i)
    Gives (exec (e.1 c t f) s) (fun u =>
      (∀ i, i < 512 → (u.mreg c t f.dst.toNat).getLsbD i = (decide (i < ty.count) && m.getLsbD i && (r i).1))
      ∧ u.flags c t = ((List.range ty.count).filter (fun i => m.getLsbD i)).foldl (fun fl i => fl ||| (r i).2) (s.flags c t)
      ∧ u.pc c t = s.pc c t + 1
      ∧ regsKept s u c t none (some f.dst.toNat) none ∧ coreKept s u c t ∧ u.stat c t = s.stat c t ∧ u.m = s.m)
end Sys2Proof.Machine

section
open Sys2Proof Sys2Proof.Machine

/-- Moves, permutations and comparisons of vector registers (05 R180, R183, R191, R192). -/
def Obligations.VectorMovesAndCompares : Prop := vectorMovesLaw ∧ vectorComparesLaw
end

namespace Sys2Proof.Machine

/-- VPACK and VUNPK that run narrow and widen element by element (05 R193); VCVT that runs converts as 05 R194 to R198
say, its seeds checked where it rounds stochastically. -/
def vectorConversionsLaw : Prop :=
  ∀ (c : Fin 800) (t : Fin 16) (f : Fields) (s : State) (src : Ty), immTy f = some src →
    let ty := typeOf f
    let sr := cvRnd f == 4
    (Runs s c t f { usesV 2 with mod := 1, imm := 15 } (!packPair src ty || (ty == .e2m1 && modBit f 16)) →
      Gives (exec (.vpack c t f) s) (fun u => elementsWritten s u c t f (fun i =>
        narrowInt (modBit f 16) src ty (elemOf src
          (s.vreg c t (if i < ty.count / 2 then f.srca.toNat else f.srcb.toNat)) (i % (ty.count / 2))))))
    ∧ (Runs s c t f { usesV 1 with mod := 1, imm := 15 } (!packPair ty src) →
      Gives (exec (.vunpk c t f) s) (fun u => elementsWritten s u c t f (fun i =>
        let x := elemOf src (s.vreg c t f.srca.toNat) ((if modBit f 16 then ty.count else 0) + i)
        ⟨if src = .e2m1 then x else wrapInt ty.bits (src.readInt x), 0, 0⟩)))
    ∧ (Runs s c t f
        { dst := some .v, a := some .v, b := if sr then some .s else none, c := if sr then some .s else none,
          mask := true, ty := true, mod := 15, imm := 0x3FFF,
          sv := if cvAnyScaled f src ty then some (cvReg f) else none } (cvBad f (some src) ty) →
      (sr = true → (s.sreg c t f.srcb.toNat).toNat < 2 ^ 32) →
      exec (.vcvt c t f) s = .next (passed s (s.convert c t f src ty) c t))

/-- The reductions that run (05 R199 to R201): VRSUM, VRSSQ, VRMAX and VRMIN write the tree's result to the first element of
their result type, VRMV and VMVM the merged moments, VRAMAX a maximum with its index. BF16 and FP16 elements are widened
before a sum; the others enter their first combine as they stand (02 R53). What VRAMAX of an integer type answers with no
active element is the model's choice (assumption 38), and so is how flags and flushes go in VRMV, VMVM and VRAMAX (assumption
129), whose flags are left free here where an existential stands. -/
def vectorReductionsLaw : Prop :=
  ∀ (c : Fin 800) (t : Fin 16) (f : Fields) (s : State),
    let ty := typeOf f
    let runs (b : Option RFile) (ok : Bool) : Prop :=
      Runs s c t f { dst := some .v, a := some .v, b := b, mask := true, ty := true, mod := 1 } (!ok)
    let l (g : Nat → NRes) := s.treeIn c t f ty g
    (runs none (inWXI ty) → exec (.vrsum c t f) s =
      .next (passed s (s.reduce c t f ty (sumTy ty) (leafSum ty) (elAdd (sumTy ty)) 0) c t))
    ∧ (runs none (inWX ty) → exec (.vrssq c t f) s =
      .next (passed s (s.reduce c t f ty (sumTy ty) (square ty) (elAdd (sumTy ty)) 0) c t))
    ∧ (runs none (inWXI ty) → exec (.vrmax c t f) s =
      .next (passed s (s.reduce c t f ty ty (leafMax ty) (elMax ty) (maxIdentity true ty)) c t))
    ∧ (runs none (inWXI ty) → exec (.vrmin c t f) s =
      .next (passed s (s.reduce c t f ty ty (leafMax ty) (elMin ty) (maxIdentity false ty)) c t))
    ∧ (runs none ty.inW → ∃ fl, exec (.vrmv c t f) s = .next (passed s (s.putMoments c t f
      (treeFold combineTriple 9 ((l (leafSum ty)).map (fun x => x.map (fun y => (⟨1, y.v, 0⟩ : Triple))))).1 fl) c t))
    ∧ (Runs s c t f { dst := some .v, a := some .v, b := some .v, ty := true, mod := 1 } (ty != .fp32) →
      let x := combineTriple (tripleOf (s.vreg c t f.srca.toNat)) (tripleOf (s.vreg c t f.srcb.toNat))
      exec (.vmvm c t f) s = .next (passed s (s.putMoments c t f (some x.1) x.2) c t))
    ∧ (runs (some .s) (inWI ty) →
      let old := s.vreg c t f.dst.toNat
      let base := (s.sreg c t f.srcb.toNat).toNat
      let r := (treeFold (combineArg ty) 9 (((l (leafMax ty)).zip (List.range ty.count)).map
        (fun x => x.1.map (fun y => (y.v, (x.2 + base) % 2 ^ 32))))).1
      ∃ fl, exec (.vramax c t f) s = .next (passed s (match r, modBit f 16 with
        | none, true => s
        | none, false => s.vresult c t f (putArg ty old.toNat (maxIdentity true ty, 0xFFFFFFFF), fl)
        | some x, true => s.vresult c t f (putArg ty old.toNat (combineArg ty (argOf ty old) x).1, fl)
        | some x, false => s.vresult c t f (putArg ty old.toNat ((readMax ty x.1).v, x.2), fl)) c t))
end Sys2Proof.Machine

section
open Sys2Proof Sys2Proof.Machine

/-- Packing, unpacking, conversions and reductions (05 R193 to R201). -/
def Obligations.VectorConversionsAndReductions : Prop := vectorConversionsLaw ∧ vectorReductionsLaw
end

namespace Sys2Proof.Machine

/-- VTAKE that runs takes the oldest posted barge of a matrix core of its cluster (its 32 bytes, its handle, its flags);
with none posted it polls (MOD[16] = 1) or the thread waits.  VREL of a register that holds a taken handle releases its
tile (05 R202 to R205). -/
def bargesLaw : Prop :=
  ∀ (c : Fin 800) (t : Fin 16) (f : Fields) (s : State),
    let off := (s.sreg c t f.srca.toNat).toNat
    let mc := clusterOf c * 20 + f.imm.toNat % 2
    (Runs s c t f { dst := some .t, a := some .s, mod := 1, imm := 1 } false →
      off % 32 = 0 → off + 32 ≤ ownBytes c →
      (∀ tile, s.posted mc = some tile →
        exec (.vtake c t f) s = .next (passed s (s.takeBarge c t f.dst.toNat off tile) c t))
      ∧ (s.posted mc = none → modBit f 16 = true →
        exec (.vtake c t f) s = .next (passed s (s.writeHandle c f.dst.toNat 0) c t))
      ∧ (s.posted mc = none → modBit f 16 = false →
        Gives (exec (.vtake c t f) s) (fun u => u.stat c t = .waiting (.take mc f.dst.toNat off) ∧ u.pc c t = s.pc c t)))
    ∧ (Runs s c t f { a := some .t } false →
      ∀ tile, s.mx.tiles.find? (fun x => x.st == .taken && x.taker == c.val
          && x.bargeHandle == (s.handle c f.srca.toNat).toNat) = some tile →
        s.mx.takenRegs.contains (32 * c.val + f.srca.toNat) = true →
        exec (.vrel c t f) s = .next (passed s ((s.releaseTile tile).writeHandle c f.srca.toNat 0) c t))

/-! ### Class 4: loads, stores, tile handles, streams (03 R111 to R116, R123 to R130, 05 R190) -/

/-- The operands of LD and ST. -/
def usesLd : Uses := { dst := some .s, a := some .s, ty := true, mod := 3, imm := 65535 }
def usesSt : Uses := { a := some .s, b := some .s, ty := true, mod := 3, imm := 65535 }

/-- A store into own memory changes no register, no flag and no unit: only memory, the program counter and the count of
issued instructions. -/
def storeKept (s u : State) (c : Fin 800) (t : Fin 16) : Prop :=
  regsKept s u c t none none none ∧ coreKept s u c t ∧ u.flags c t = s.flags c t ∧ u.stat c t = s.stat c t
  ∧ u.m.xfers = s.m.xfers ∧ u.m.reqs = s.m.reqs

/-- LD and ST in the core's own memory, aligned and within it: s_d receives the value at s_a + sext(IMM), extended by its
type, or memory its low bytes; no other byte changes (03 R111 to R113). -/
def ownLoadStoreLaw : Prop :=
  ∀ (c : Fin 800) (t : Fin 16) (f : Fields) (s : State),
    let ty := typeOf f
    let n := ty.bits / 8
    let a := (s.sreg c t f.srca.toNat + f.imm.signExtend 64).toNat
    spaceOf f = 0 → scalarMemTy ty = true → a % n = 0 → a + n ≤ ownBytes c →
    (Runs s c t f usesLd false → exec (.ld c t f) s =
      .next (passed s (s.setS c t f.dst.toNat (extendTo64 ty (s.rd (keyOwn c a) n))) c t))
    ∧ (Runs s c t f usesSt false → Gives (exec (.st c t f) s) (fun u =>
      u.pc c t = s.pc c t + 1 ∧ storeKept s u c t
      ∧ (∀ i, i < n → u.m.mem.rd (keyOwn c a + i) = (leBytes n (s.sreg c t f.srcb.toNat).toNat).getD i 0)
      ∧ (∀ k, (k < keyOwn c a ∨ keyOwn c a + n ≤ k) → u.m.mem.rd k = s.m.mem.rd k)))

/-- LD and ST in shared or stack memory whose access R113 allows: where the core has berths free for it they issue as one operation on
the bytes found, and memory and s_d change when it is served (03 R104, 08 R286, R293); where it has none the thread stays at its word,
asks for nothing, and is noted as one that waits for a berth (03 R106, 01 R40).  In shared memory an aligned offset within it is
allowed. -/
def remoteLoadStoreLaw : Prop :=
  ∀ (c : Fin 800) (t : Fin 16) (f : Fields) (s : State),
    let ty := typeOf f
    let n := ty.bits / 8
    let a := (s.sreg c t f.srca.toNat + f.imm.signExtend 64).toNat
    spaceOf f ≠ 0 → spaceOf f ≠ 3 → scalarMemTy ty = true →
    (spaceOf f = 1 → a % n = 0 → a + n ≤ sharedBytes → ∀ store,
      s.scalarAccess c t f store = (.ok (seqKeys (keyShared (clusterOf c) a) n), s))
    ∧ (∀ key keys s', Runs s c t f usesLd false → s.scalarAccess c t f false = (.ok (key :: keys), s') →
      let cells := (key :: keys).map (·, (0 : Byte))
      (s'.berthsFree c (berthsFor cells) = true → exec (.ld c t f) s = .next (passed s (s'.startXfer
        (newXfer c t false (scalarDest f.dst.toNat) (.ld f.dst.toNat ty key)) false false cells) c t))
      ∧ (s'.berthsFree c (berthsFor cells) = false → Gives (exec (.ld c t f) s) (fun u =>
        u.core.berthWait.contains (threadKey c t) = true ∧ u.pc c t = s'.pc c t ∧ u.m = s'.m
        ∧ u.core.sregs = s'.core.sregs)))
    ∧ (∀ key keys s', Runs s c t f usesSt false → s.scalarAccess c t f true = (.ok (key :: keys), s') →
      let cells := (key :: keys).zip (leBytes (key :: keys).length (s.sreg c t f.srcb.toNat).toNat)
      (s'.berthsFree c (berthsFor cells) = true → s'.sreg c t f.srcb.toNat = s.sreg c t f.srcb.toNat →
        exec (.st c t f) s = .next (passed s (s'.startXfer (newXfer c t true [] .store) false true cells) c t)))

/-- The reply to a load of one request lands: s_d holds the value its bytes spell, the request is no longer outstanding, and
memory is unchanged (03 R104, 08 R293). -/
def servedLoadLaw : Prop :=
  ∀ (c : Fin 800) (id : Nat) (s : State) (r : Req) (x : Xfer) (dst : Fin 32) (ty : Ty) (key : Nat), Clocked s →
    s.m.reqs.find? (fun (r : Req) => r.id == id && r.core == c.val && r.stat == .granted && r.bank != 0) = some r →
    s.m.reqs.find? (fun (r : Req) => r.id == id) = some r → s.crosses r = true →
    s.m.xfers.find? (fun (x : Xfer) => x.id == r.xfer) = some x → x.core = c.val → x.thread < 16 → x.todo = 1 →
    x.act = .ld dst ty key → x.late = [] → r.land = .none → r.write = false → dst ≠ 0 →
    Gives (exec (.berthReturn c id) s) (fun u =>
      u.sreg c x.thread dst = extendTo64 ty
        (Mem.rdLE (r.data.foldl (fun (m : Mem) e => Mem.wr m e.1 e.2) x.got) key (ty.bits / 8))
      ∧ (∀ y ∈ u.m.reqs, y.id ≠ id) ∧ u.m.mem = s.m.mem)

/-- A misaligned LD or ST, or one beyond the end of the named memory, raises an ADDRESS fault, whatever the space of the
first two (03 R113). -/
def misalignedAccessLaw : Prop :=
  ∀ (c : Fin 800) (t : Fin 16) (f : Fields) (s : State),
    let ty := typeOf f
    let n := ty.bits / 8
    let a := (s.sreg c t f.srca.toNat + f.imm.signExtend 64).toNat
    scalarMemTy ty = true → spaceOf f ≠ 3 →
    (a % n ≠ 0 ∨ (spaceOf f = 0 ∧ ownBytes c < a + n) ∨ (spaceOf f = 1 ∧ sharedBytes < a + n)) →
    let raised (cls op : Nat) (u : State) : Prop :=
      u = (s.countIssue c).raise c t (s.pc c t) [wholeAt fcAddress a] (instrWord cls op f) ∧ u.taskState c = tkFaulted
    (Runs s c t f usesLd false → Gives (exec (.ld c t f) s) (raised 4 0))
    ∧ (Runs s c t f usesSt false → Gives (exec (.st c t f) s) (raised 4 1))
end Sys2Proof.Machine

section
open Sys2Proof Sys2Proof.Machine

/-- LD and ST: in own memory, in shared and stack memory, the reply to a load, and where they fault for their address (03
R104, R111 to R113, 08 R293). -/
def Obligations.LoadsAndStores : Prop :=
  ownLoadStoreLaw ∧ remoteLoadStoreLaw ∧ servedLoadLaw ∧ misalignedAccessLaw
end

namespace Sys2Proof.Machine

/-- TSET of a handle that R115 allows writes t_d, TGET reads it; TSET of any other handle raises HANDLE (03 R114, R115). -/
def tileHandlesLaw : Prop :=
  ∀ (c : Fin 800) (t : Fin 16) (f : Fields) (s : State),
    let h := s.sreg c t f.srca.toNat
    (Runs s c t f { dst := some .t, a := some .s } false → thBad c h = false →
      Gives (exec (.tset c t f) s) (fun u => u.handle c f.dst.toNat = h ∧ u.pc c t = s.pc c t + 1))
    ∧ (Runs s c t f { dst := some .t, a := some .s } false → thBad c h = true →
      exec (.tset c t f) s = .next (raised s c t 4 2 f fcHandle))
    ∧ (Runs s c t f { dst := some .s, a := some .t } false →
      exec (.tget c t f) s = .next (passed s (s.setS c t f.dst.toNat (s.handle c f.srca.toNat)) c t))
end Sys2Proof.Machine

section
open Sys2Proof Sys2Proof.Machine

/-- Tile handles (03 R114, R115) and the barges that VTAKE takes and VREL releases (05 R202 to R205). -/
def Obligations.HandlesAndBarges : Prop := bargesLaw ∧ tileHandlesLaw
end

namespace Sys2Proof.Machine

/-- Vector loads and stores in own memory whose elements are whole bytes, aligned and within it: VLD and VLDS fill the
active elements and leave the others; VST and VSTS (its elements apart) store the active ones and no other byte
(05 R180, R190).  Where element `i` lies is the base plus `i` element sizes, or `i` strides. -/
def ownVectorAccessLaw : Prop :=
  ∀ (c : Fin 800) (t : Fin 16) (f : Fields) (s : State),
    let ty := typeOf f
    let n := ty.bits / 8
    let act := (List.range ty.count).filter (fun i => (s.mreg c t f.mask.toNat).getLsbD i)
    let near (i : Nat) := (s.sreg c t f.srca.toNat + f.imm.signExtend 64).toNat + i * n
    let far (stride : Word) (i : Nat) := (s.sreg c t f.srca.toNat + BitVec.ofNat 64 i * stride).toNat
    let fits (at_ : Nat → Nat) : Prop := ∀ i ∈ act, at_ i % n = 0 ∧ at_ i + n ≤ ownBytes c
    let loaded (at_ : Nat → Nat) (u : State) : Prop := elementsWritten s u c t f (fun i =>
      ⟨leNat ((List.range n).map (fun j => s.m.mem.rd (keyOwn c (at_ i + j)))), 0, 0⟩)
    let stored (at_ : Nat → Nat) (v : VWord) (u : State) : Prop :=
      (∀ i ∈ act, ∀ j, j < n → u.m.mem.rd (keyOwn c (at_ i + j)) = (leBytes n (elemOf ty v i)).getD j 0)
      ∧ (∀ k, (∀ i ∈ act, k < keyOwn c (at_ i) ∨ keyOwn c (at_ i) + n ≤ k) → u.m.mem.rd k = s.m.mem.rd k)
      ∧ u.pc c t = s.pc c t + 1 ∧ storeKept s u c t
    spaceOf f = 0 → ty.bits % 8 = 0 →
    (Runs s c t f { dst := some .v, a := some .s, mask := true, ty := true, mod := 3, imm := 65535 } false → fits near →
      Gives (exec (.vld c t f) s) (loaded near))
    ∧ (Runs s c t f { dst := some .v, a := some .s, b := some .s, mask := true, ty := true, mod := 3 } false →
      fits (far (s.sreg c t f.srcb.toNat)) → Gives (exec (.vlds c t f) s) (loaded (far (s.sreg c t f.srcb.toNat))))
    ∧ (Runs s c t f { a := some .s, b := some .v, mask := true, ty := true, mod := 3, imm := 65535 } false → fits near →
      Gives (exec (.vst c t f) s) (stored near (s.vreg c t f.srcb.toNat))) ∧
    (let at_ := far (s.sreg c t f.srcc.toNat);
      Runs s c t f { a := some .s, b := some .v, c := some .s, mask := true, ty := true, mod := 3 } false → fits at_ →
      firstOverlap n at_ act = none →
      Gives (exec (.vsts c t f) s) (stored at_ (s.vreg c t f.srcb.toNat)))

/-- VLDT and VSTT (of an own tile) of a part of a row of whole-byte elements that the handle's checks allow: elements beyond
the columns read as zero and are not stored (05 R190); so do those of an XA output beyond the end of its memory (the model's own
reading, assumption 39). -/
def tilePartAccessLaw : Prop :=
  ∀ (c : Fin 800) (t : Fin 16) (f : Fields) (s : State),
    let ty := typeOf f
    let n := ty.bits / 8
    let h := s.handle c f.srca.toNat
    let act := (List.range ty.count).filter (fun i => (s.mreg c t f.mask.toNat).getLsbD i)
    let part := f.imm.toNat % 8
    let place (row i : Nat) := thKey c h + row * thPitch h + part * 256 + i * n
    let within (row i : Nat) : Prop := part * (2048 / ty.bits) + i < thElems h
      ∧ thOffset h + row * thPitch h + part * 256 + i * n < thMemBytes c h
    ty.bits % 8 = 0 → s.tilePartOk c f = true → thType h = ty → part * 256 < thPitch h →
    (let row := (s.sreg c t f.srcb.toNat).toNat;
      Runs s c t f { dst := some .v, a := some .t, b := some .s, mask := true, ty := true, imm := 7 } false →
      row < thRows h →
      Gives (exec (.vldt c t f) s) (fun u =>
        (∀ i ∈ act, within row i → elemOf ty (u.vreg c t f.dst.toNat) i =
          leNat ((List.range n).map (fun j => s.m.mem.rd (place row i + j))) % 2 ^ ty.bits)
        ∧ (∀ i ∈ act, ¬ within row i → elemOf ty (u.vreg c t f.dst.toNat) i = 0)
        ∧ (∀ i, i < ty.count → i ∉ act → elemOf ty (u.vreg c t f.dst.toNat) i = elemOf ty (s.vreg c t f.dst.toNat) i)
        ∧ u.pc c t = s.pc c t + 1
        ∧ regsKept s u c t none none (some f.dst.toNat) ∧ coreKept s u c t ∧ u.m.mem = s.m.mem)) ∧
    (let row := (s.sreg c t f.srcc.toNat).toNat;
      Runs s c t f { a := some .t, b := some .v, c := some .s, mask := true, ty := true, imm := 7 } false →
      thOwner h = subOf c → row < thRows h →
      Gives (exec (.vstt c t f) s) (fun u =>
        (∀ i ∈ act, within row i → ∀ j, j < n →
          u.m.mem.rd (place row i + j) = (leBytes n (elemOf ty (s.vreg c t f.srcb.toNat) i)).getD j 0)
        ∧ (∀ k, (∀ i ∈ act, within row i → k < place row i ∨ place row i + n ≤ k) → u.m.mem.rd k = s.m.mem.rd k)
        ∧ u.pc c t = s.pc c t + 1 ∧ storeKept s u c t))
end Sys2Proof.Machine

section
open Sys2Proof Sys2Proof.Machine

/-- The vector loads and stores of own memory and of tiles (05 R180, R190). -/
def Obligations.VectorLoadsAndStores : Prop := ownVectorAccessLaw ∧ tilePartAccessLaw
end

namespace Sys2Proof.Machine

/-- SOPEN of a descriptor that no rule refuses opens the stream with DEPTH credits; SCLOSE of an idle stream frees it, of
a busy one makes the thread wait; SRD of a chunk that has landed without a failed element writes v_d and returns the
credit (03 R126, R127, R129, R130).  SWR with a credit takes it and sends the chunk's elements (R128). -/
def streamInstructionsLaw : Prop :=
  ∀ (c : Fin 800) (t : Fin 16) (f : Fields) (s : State),
    (let off := (s.sreg c t f.srca.toNat).toNat
      let st : Stream := { Stream.closed with isOpen := true, desc := s.rdB (keyOwn c off) 64 }
      Runs s c t f { dst := some .q, a := some .s } false → off % 64 = 0 → off + 64 ≤ ownBytes c →
      (s.stream c f.dst.toNat).isOpen = false → Stream.bad { st with credits := st.depth } c = false →
      s.reserved c + st.depth ≤ (if isMatrix c then 1024 else 256) →
      Gives (exec (.sopen c t f) s) (fun u =>
        u.stream c f.dst.toNat = { st with credits := st.depth } ∧ u.pc c t = s.pc c t + 1)) ∧
    (let q := f.srca.toNat;
      let st := s.stream c q;
      Runs s c t f { a := some .q } false → st.isOpen = true → st.closing = false →
      (s.streamBusy c q = false → Gives (exec (.sclose c t f) s) (fun u =>
        u.stream c q = .closed ∧ u.pc c t = s.pc c t + 1))
      ∧ (s.streamBusy c q = true → Gives (exec (.sclose c t f) s) (fun u =>
        (u.stream c q).closing = true ∧ u.stat c t = .waiting (.close q)))) ∧
    (let q := f.srca.toNat;
      let st := s.stream c q;
      ∀ ch, Runs s c t f { dst := some .v, a := some .q } false → st.isOpen = true → st.closing = false →
      st.isRead = true → st.scaled = false → st.consumed < st.chunks →
      st.landed.find? (fun x => x.n == st.consumed) = some ch → ch.bad = [] →
      Gives (exec (.srd c t f) s) (fun u =>
        u.vreg c t f.dst.toNat = ch.bits ∧ (u.stream c q).consumed = st.consumed + 1
        ∧ (u.stream c q).credits = st.credits + 1 ∧ u.pc c t = s.pc c t + 1)) ∧
    (let q := f.dst.toNat;
      let st := s.stream c q;
      ∀ ks s', Runs s c t f { dst := some .q, a := some .v } false → st.isOpen = true → st.closing = false →
      (st.kind = 1 ∨ st.kind = 3) → st.written < st.chunks → st.credits ≠ 0 →
      s.writeKeys c st (st.chunkEls st.written) = (.ok ks, s') →
      let s1 := s'.setStream c q { st with written := st.written + 1, credits := st.credits - 1 }
      exec (.swr c t f) s = .next (passed s (s1.startXfer (newXfer c t true [] (.wchunk q)) true true
        (s'.storeCells st.ty (s.vreg c t f.srca.toNat) ks)) c t))

/-- STREAM_FETCH of an open read stream with a free credit and a chunk left requests that chunk, row by row of the array, and
takes the credit (03 R127, 04 R157, R158), of a plain one each byte once; one whose translation meets an uncorrectable
codeword only stops the partition (08 R284).  CHUNK_LAND of a chunk whose data has arrived puts it into the stream's buffer
(R126, R129).  After its task has left RUNNING, or once its core's engine has found a fault (03 R137), a stream fetches on only the
rows that started operations of the engine still take (04 R177); a stream of an earlier task from which they still take rows goes
before the one that stands in its place. -/
def streamEventsLaw : Prop :=
  ∀ (c : Fin 800) (q : Fin 16) (s : State), Clocked s →
    let st := s.stream c q
    let lost (fs : List EFault) (u : State) := u.lostWalk c (fs.map (fun e => ⟨e.code, 0, none, e.addr⟩))
    let asked (u : State) := u.setStream c q { st with requested := st.requested + 1, credits := st.credits - 1 }
    let runs : Prop := s.taskRuns c = true ∧ s.engineFaults c = []
    (s.leftStreams c q = [] → (runs ∨ s.chunkWanted c q = true) → st.isOpen = true → st.closing = false → st.credits ≠ 0 →
      st.requested < st.chunks → ((st.kind = 0 ∨ st.kind = 2) → st.scaled = false → ∀ ps ks fs s',
        s.chunkKeys c st (st.chunkEls st.requested) = (ps, ks, fs, s') → lost fs s' = none →
        exec (.streamFetch c q) s = .next ((asked s').startXfer
          (newXfer c (16 + q.val) false [] (.chunk q st.requested ps [] fs)) true false ((dedup ks).map (·, 0))))
      ∧ ((st.isRead = true ∨ (st.kind = 6 ∧ (st.ty ≠ .e2m1 ∨ st.k ≠ 0))) → ∀ ps sp fs groups s',
        s.rowsKeys c st (st.rowParts (st.chunkEls st.requested)) = (ps, sp, fs, groups, s') →
        (lost fs s' = none → exec (.streamFetch c q) s = .next ((asked s').startGroups
          (newXfer c (16 + q.val) false [] (.chunk q st.requested ps sp fs)) true false groups))
        ∧ ∀ k, lost fs s' = some k → exec (.streamFetch c q) s = .next (s'.stackUE k)))
    ∧ (s.leftStreams c q = [] → ¬ runs → s.chunkWanted c q = false → exec (.streamFetch c q) s = .next s)
    ∧ (∀ r rest, s.leftStreams c q = r :: rest → s.mayFetch c r = true →
        exec (.streamFetch c q) s = .next (s.streamFetch c r))
    ∧ (∀ x n ps sp bad, s.m.xfers.find? (fun (x : Xfer) => x.core == c.val && x.todo == 0 && match x.act with
          | .chunk q' _ _ _ _ => q' % 16 == q.val
          | _ => false) = some x → x.act = .chunk q n ps sp bad → st.isOpen = true → st.closing = false →
        Gives (exec (.chunkLand c q) s) (fun u => ∃ v : State, u = v.feedEngine c ∧ x ∉ v.m.xfers
          ∧ ((v.stream c q).landed.map Chunk.n) = st.landed.map Chunk.n ++ [n]))
end Sys2Proof.Machine

section
open Sys2Proof Sys2Proof.Machine

/-- The stream instructions and the events of a stream (03 R123 to R130). -/
def Obligations.Streams : Prop := streamInstructionsLaw ∧ streamEventsLaw
end

namespace Sys2Proof.Machine

/-! ### Class 5 and the towpath (03 R131 to R134, 01 R31 to R39) -/

/-- The token that SIG, CRET or BARV sends: its kind, the node and unit of s_a, the channel of IMM, the value of s_b. -/
def sentToken (s : State) (c : Fin 800) (t : Fin 16) (f : Fields) (kind : Nat) : Word :=
  let d := (s.sreg c t f.srca.toNat).toNat
  mkTok kind (d % 256) (d / 256 % 32) (c.val / 20) (c.val % 20) (f.imm.toNat % 256)
    ((s.sreg c t f.srcb.toNat).toNat % 2 ^ 24)

/-- SIG, CRET and BARV that run send their token (SIG once the thread's stores are accepted: until then the thread waits
with it); s_a with a bit of [63:13] set is ILLEGAL.  FENCE goes on once the thread's stores are accepted, and waits until
then (03 R131, 01 R36). -/
def sendTokensLaw : Prop :=
  ∀ (c : Fin 800) (t : Fin 16) (f : Fields) (s : State),
    let bad := 2 ^ 13 ≤ (s.sreg c t f.srca.toNat).toNat
    let go (kind : Nat) : Out := .next (passed s (s.sendTok (sentToken s c t f kind)) c t)
    (Runs s c t f { a := some .s, b := some .s, imm := 255 } false →
      (¬ bad → exec (.cret c t f) s = go 0 ∧ exec (.barv c t f) s = go 2)
      ∧ (¬ bad → s.storesOut c t = false → exec (.sig c t f) s = go 1)
      ∧ (¬ bad → s.storesOut c t = true → Gives (exec (.sig c t f) s) (fun u =>
          u.stat c t = .waiting (.release (sentToken s c t f 1)) ∧ u.e.toks = s.e.toks))
      ∧ (bad → exec (.sig c t f) s = .next (raised s c t 5 0 f fcIllegal)
          ∧ exec (.cret c t f) s = .next (raised s c t 5 1 f fcIllegal)
          ∧ exec (.barv c t f) s = .next (raised s c t 5 3 f fcIllegal)))
    ∧ (Runs s c t f {} false →
      (s.storesOut c t = false → exec (.fence c t f) s = .next (passed s s c t))
      ∧ (s.storesOut c t = true → Gives (exec (.fence c t f) s) (fun u => u.stat c t = .waiting .fence)))

/-- WAITC on an open channel with no thread before it and enough in the counter takes the count and writes what is left
to s_d; with too little the thread waits.  BWAIT on an open channel goes on where a release of its generation or of a later
one has come, and else waits.  On a channel the hub has not opened both raise TOKEN (03 R131 to R134). -/
def waitTokensLaw : Prop :=
  ∀ (c : Fin 800) (t : Fin 16) (f : Fields) (s : State),
    let ch := f.imm.toNat % 64
    let need := (s.sreg c t f.srca.toNat).toNat % 2 ^ 24
    let n := s.counter c ch
    (Runs s c t f { dst := some .s, a := some .s, imm := 63 } false →
      (s.chOpen c ch = true → s.counterQueue c ch = [] → need ≤ n →
        exec (.waitc c t f) s =
          .next (passed s ((s.setCounter c ch (n - need)).setS c t f.dst.toNat (BitVec.ofNat 64 (n - need))) c t))
      ∧ (s.chOpen c ch = true → (s.counterQueue c ch ≠ [] ∨ n < need) →
        Gives (exec (.waitc c t f) s) (fun u =>
          u.stat c t = .waiting (.counter ch need f.dst.toNat) ∧ u.counter c ch = n
          ∧ u.core.counterWait = s.core.counterWait ++ [threadKey c t]))
      ∧ (s.chOpen c ch = false → exec (.waitc c t f) s = .next (raised s c t 5 2 f fcToken)))
    ∧ (Runs s c t f { a := some .s, imm := 63 } false →
      (s.chOpen c ch = true → s.genDone c ch need = true → exec (.bwait c t f) s = .next (passed s s c t))
      ∧ (s.chOpen c ch = true → s.genDone c ch need = false →
        Gives (exec (.bwait c t f) s) (fun u => u.stat c t = .waiting (.barrier ch need)))
      ∧ (s.chOpen c ch = false → exec (.bwait c t f) s = .next (raised s c t 5 4 f fcToken)))
end Sys2Proof.Machine

section
open Sys2Proof Sys2Proof.Machine

/-- Class 5: what SIG, CRET, BARV, FENCE, WAITC and BWAIT do, when they wait and when they fault (03 R131 to R134). -/
def Obligations.TokenInstructions : Prop := sendTokensLaw ∧ waitTokensLaw
end

namespace Sys2Proof.Machine

/-- A token that may arrive now: the dies run, the token is of the kind and names a unit, and it is the first on the
way from its source to its destination (01 R34, R38). -/
def mayArrive (s : State) (tok : Word) (kind : Nat) : Prop :=
  s.dieUp = true ∧ tokKind tok = kind ∧ tokBad tok = false ∧ s.tokFirst tok = true

/-- The commands that a token's arrival is, but for control accesses. -/
def arrivalsOf (tok : Word) : List Instr :=
  [ .tokenCreditReturn tok, .tokenSignal tok, .barrierArrive tok, .barrierRelease tok, .readReply tok,
    .faultRecordNotice tok, .contributionDoorbell tok, .exchangeDoorbell tok ]
end Sys2Proof.Machine

section
open Sys2Proof Sys2Proof.Machine

/-- Tokens from one source unit to one destination unit arrive in the order they were sent (01 R34): a token sent stands
behind those sent before it; while an earlier one of its source and destination (bits [59:34]) is on the way, its arrival
changes nothing; one that arrives leaves the others in their order.  Tokens from one node to another cross the same boundaries and
keep their order too (01 R27, as the model reads it: assumption 146). -/
def Obligations.TokenOrder : Prop :=
  ∀ (tok first : Word) (s : State),
    (tokBad tok = false → (s.sendTok tok).e.toks = s.e.toks ++ [tok])
    ∧ (tokBad tok = false → (s.e.toks.find? (fun k => bits k.toNat 34 26 == bits tok.toNat 34 26) = some first
        ∨ s.e.toks.find? (sameWay tok) = some first) → first ≠ tok →
      (∀ i ∈ arrivalsOf tok, exec i s = .next s)
      ∧ ∀ a, exec (.controlWrite tok a) s = .next s ∧ exec (.controlRead tok a) s = .next s)
    ∧ (mayArrive s tok 2 → Gives (exec (.barrierArrive tok) s) (fun u => ∃ sent, u.e.toks = dropFirst (· == tok) s.e.toks ++ sent))
end

namespace Sys2Proof.Machine

/-- A signal that brings the counter to what the first waiting thread of its channel needs wakes that thread: it goes on past its
WAITC, and what is left of the counter stands in its destination (03 R132, R133).  A release wakes every thread that waits for its
generation or an earlier one (03 R134).  A token that its core cannot apply stops the task that runs there with a TOKEN fault whose
ADDRESS is the token, beside a report of the hub (01 R37); where no task runs the report alone is filed. -/
def tokensWakeLaw : Prop :=
  ∀ (tok : Word) (c : Fin 800) (s : State), tokCore tok = some c.val →
    let ch := tokChannel tok
    let n := s.counter c ch + tokValue tok
    let limit := s.fld (CL_TOK_LIMIT_LIMIT (clusterOf c) (subOf c) ch)
    (mayArrive s tok 1 → s.chOpen c ch = true → n ≤ limit → n < 2 ^ 24 → ∀ (t : Fin 16) (need : Nat) (dst : Fin 32) rest,
      s.counterQueue c ch = (threadKey c t, need, dst.val) :: rest → need ≤ n → (∀ e ∈ rest, e.1 ≠ threadKey c t ∧ e.2.2 < 32) →
      Gives (exec (.tokenSignal tok) s) (fun u => u.stat c t = .running ∧ u.pc c t = s.pc c t + 1
        ∧ u.sreg c t dst = (if dst = 0 then 0 else BitVec.ofNat 64 (n - need)) ∧ threadKey c t ∉ u.core.counterWait))
    ∧ (mayArrive s tok 3 → s.chOpen c ch = true → ∀ (t : Fin 16) (gen : Nat), s.stat c t = .waiting (.barrier ch gen) →
      genReached gen (tokValue tok) = true →
      Gives (exec (.barrierRelease tok) s) (fun u => u.stat c t = .running ∧ u.pc c t = s.pc c t + 1))
    ∧ (mayArrive s tok 1 → (s.chOpen c ch = false ∨ limit < n) →
      (s.taskRuns c = true → s.engineFaults c = [] → Gives (exec (.tokenSignal tok) s) (fun u =>
        u.taskState c = tkFaulted ∧ u.e.faultN = s.e.faultN + 1
        ∧ Tab.get u.e.faultRing [] (s.e.faultN % 1024) =
            faultRecord c 0 (s.taskId c) 0 ⟨fcToken, 0, none, tok.toNat⟩ 0 0))
      ∧ (s.taskRuns c = false → exec (.tokenSignal tok) s =
          .next ((s.takeTok tok).file 0x0002 clsNotice 2 (clusterOf c) tok.toNat (s.corePart c))))

/-- A signal token or a credit return at a channel of a core that is open and holds the sum adds its VALUE to the
counter when no thread waits there; one that would exceed the limit, or whose channel is closed, changes no counter
(01 R35, R37). -/
def tokensCountedLaw : Prop :=
  ∀ (tok : Word) (c : Nat) (s : State), tokCore tok = some c →
    let ch := tokChannel tok
    let n := s.counter c ch + tokValue tok
    let limit := s.fld (CL_TOK_LIMIT_LIMIT (clusterOf c) (subOf c) ch)
    let counted (o : Out) : Prop :=
      (s.chOpen c ch = true → n ≤ limit → n < 2 ^ 24 → s.counterQueue c ch = [] →
        Gives o (fun u => u.counter c ch = n ∧ (∀ ch', ch' < 64 → ch' ≠ ch → u.counter c ch' = s.counter c ch')))
      ∧ ((s.chOpen c ch = false ∨ limit < n) → Gives o (fun u => ∀ ch', ch' < 64 → u.counter c ch' = s.counter c ch'))
    (mayArrive s tok 0 → counted (exec (.tokenCreditReturn tok) s))
    ∧ (mayArrive s tok 1 → counted (exec (.tokenSignal tok) s))

/-- The other tokens that arrive: a barrier-arrive token is received by its unit (at a core, on one of its 64 channels: on any
other it is discarded and reported, 01 R37), a release on an open channel leaves its generation there, a read reply reaches the core
that asked, a fault-record notice makes the hub file TASK_FAULT with the
record that it announces, the notices of a core in the order of its records, a control write of a register writes it, and a control read is answered with a read-reply token
that holds the low bits of what was read (01 R32, R39, 03 R134, R139, 18 R585; which register, and the data, the model takes from the
row's operand: assumption 150).  At a unit that is no core a count within its channel's limit is added, and one above it is reported
as a NOTICE and stops nothing (01 R35, R37; the limits there are free, assumption 48). -/
def tokensDeliveredLaw : Prop :=
  ∀ (tok : Word) (s : State),
    (mayArrive s tok 2 → (tokCore tok = none ∨ tokChannel tok < 64) →
        exec (.barrierArrive tok) s = .next ((s.takeTok tok).gotBarrier tok)
        ∧ (s.gotBarrier tok).e.arrivals = s.e.arrivals ++ [tok])
    ∧ (mayArrive s tok 2 → ∀ c, tokCore tok = some c → 64 ≤ tokChannel tok →
        exec (.barrierArrive tok) s = .next ((s.takeTok tok).tokOverflow c tok))
    ∧ (s.dieUp = true → tokBad tok = true → tokSrcNode tok = 56 → tokDoorbell tok = false → ∀ i ∈ arrivalsOf tok,
        (∀ p, i ≠ .contributionDoorbell p ∧ i ≠ .exchangeDoorbell p) → exec i s = .next (s.discardTok tok))
    ∧ (mayArrive s tok 3 → ∀ c, tokCore tok = some c → s.chOpen c (tokChannel tok) = true →
        Gives (exec (.barrierRelease tok) s) (fun u => u.lastGen c (tokChannel tok) = some (tokValue tok)))
    ∧ (tokCore tok = none → tokDoorbell tok = false →
      let n := Tab.get s.e.unitCnt 0 (unitCtr tok) + tokValue tok
      ∀ i, (mayArrive s tok 0 ∧ i = Instr.tokenCreditReturn tok) ∨ (mayArrive s tok 1 ∧ i = .tokenSignal tok) →
        (n ≤ Config.unitLimit (unitCtr tok) → Gives (exec i s) (fun u => Tab.get u.e.unitCnt 0 (unitCtr tok) = n
          ∧ u.e.toks = (s.takeTok tok).e.toks ∧ u.m = s.m ∧ u.core = s.core))
        ∧ (Config.unitLimit (unitCtr tok) < n →
          exec i s = .next ((s.takeTok tok).file 0x0002 clsNotice 2 (tokDstNode tok) tok.toNat)))
    ∧ (mayArrive s tok 6 → Gives (exec (.readReply tok) s) (fun u => u.core.replies = s.core.replies ++ [tok]))
    ∧ (mayArrive s tok 7 → ∀ core i code, core = tokValue tok % 1024 →
        s.e.notices.find? (fun n => n.1 == core) = some (core, i, code) →
        let s' := s.takeTok tok
        let s' := { s' with e := { s'.e with notices := dropFirst (fun n => n.1 == core) s.e.notices } }
        exec (.faultRecordNotice tok) s = .next (s'.file 0x0001 clsTask 1 core (i + code * 2 ^ 16) (s'.corePart core)))
    ∧ (mayArrive s tok 4 → ∀ (a size : Nat) (v : Word), (size = 4 ∨ size = 8) → a % size = 0 →
        exec (.controlWrite tok (.reg a size v)) s = .next ((s.takeTok tok).writeAt a size v.toNat))
    ∧ (mayArrive s tok 5 → ∀ (a size : Nat) (v : Word), tokBad (mkTok 6 (tokSrcNode tok) (tokSrcSub tok) 0 0 0 0) = false →
        let b := (leBytes 8 ((s.takeTok tok).readWord true (a / 8 * 8) / 2 ^ (8 * (a % 8)))).take size
        Gives (exec (.controlRead tok (.reg a size v)) s) (fun u =>
          u.e.answers = s.e.answers ++ [.data b]
          ∧ u.e.toks = (s.takeTok tok).e.toks ++ [mkTok 6 (tokSrcNode tok) (tokSrcSub tok) (tokDstNode tok) (tokDstSub tok)
              (tokChannel tok) (leNat b)]))
end Sys2Proof.Machine

section
open Sys2Proof Sys2Proof.Machine

/-- A write of CL_TOK_LIMIT by TOKEN_CHANNEL_OPEN: while the core's task does not run the channel holds its LIMIT and its OPEN
bit, with a counter of zero and no generation; while it runs the write is refused and reported (20 R652). -/
def channelOpenLaw : Prop :=
  ∀ (c : Fin 800) (ch : Fin 64) (v : Word) (s : State), s.dieUp = true →
    (s.taskRuns c = false → Gives (exec (.tokenChannelOpen c ch v) s) (fun u =>
      u.fld (CL_TOK_LIMIT_LIMIT (clusterOf c) (subOf c) ch) = v.toNat % 2 ^ 24
      ∧ u.chOpen c ch = v.getLsbD 24 ∧ u.counter c ch = 0 ∧ u.lastGen c ch = none
      ∧ (∀ ch' : Fin 64, ch' ≠ ch → u.chOpen c ch' = s.chOpen c ch' ∧ u.counter c ch' = s.counter c ch')
      ∧ u.m = s.m ∧ u.core = s.core ∧ u.e = s.e))
    ∧ (s.taskRuns c = true → exec (.tokenChannelOpen c ch v) s = .next (s.asked.refuseLoad c (0x200 + 8 * ch)))

/-- What the arrival of each kind of token does (01 R32, R35, R37, R39, 03 R134, R139, 18 R585), the threads that it wakes and the
task that one too many stops (01 R37, 03 R132 to R134), and the opening of the channel it comes to (20 R652). -/
def Obligations.TokensArrive : Prop := tokensCountedLaw ∧ tokensWakeLaw ∧ tokensDeliveredLaw ∧ channelOpenLaw
end

namespace Sys2Proof.Machine

/-! ### Tasks (03 R117 to R122, R137 to R139, 20 R651, R652) -/

/-- TASK_START of an idle core with a well-formed descriptor: the task runs, each thread stands at ENTRY_PC with s1 to s8
at ARG0 to ARG7, every other scalar register, every mask, vector and tile register and every flag is zero, and no stream is
open (03 R119). -/
def taskLaunchLaw : Prop :=
  ∀ (c : Fin 800) (s : State), s.startable c = true → s.windowBad c = false →
    Gives (exec (.taskStart c) s) (fun u =>
      u.taskState c = tkRunning
      ∧ (∀ t, t < u.threads c → u.pc c t = s.windowF c 0 4 % 2 ^ 13 ∧ u.stat c t = .running ∧ u.flags c t = 0
        ∧ (∀ i, i < 8 → u.sreg c t (i + 1) = BitVec.ofNat 64 (s.windowF c (0x18 + 8 * i) 8))
        ∧ (∀ r, 9 ≤ r → r < 32 → u.sreg c t r = 0)
        ∧ (∀ r, 1 ≤ r → r < 16 → u.mreg c t r = 0)
        ∧ (∀ r, r < 64 / u.threads c → u.vreg c t r = 0))
      ∧ (∀ r, r < 32 → u.handle c r = 0) ∧ (∀ q, q < 16 → u.stream c q = .closed))

/-- A descriptor with a reserved encoding leaves the core FAULTED, with one more record in the fault ring, and no thread
of it runs (03 R119).  The record's INSTR is a free value (assumption 2). -/
def badDescriptorLaw : Prop :=
  ∀ (c : Fin 800) (s : State), s.startable c = true → s.windowBad c = true →
    Gives (exec (.taskStart c) s) (fun u => u.taskState c = tkFaulted ∧ u.e.faultN = s.e.faultN + 1
      ∧ ∀ t, t < 16 → u.stat c t = .ended)
end Sys2Proof.Machine

section
open Sys2Proof Sys2Proof.Machine

/-- TASK_HALT, a PCIe write, restarts the count toward Stand (19 R612).  One of a running task whose engine has found no fault leaves
it HALTED: no thread of it runs, no fault record is
written, no end signal sent, memory and the program are as they were (03 R122); one whose engine has found a fault leaves
it FAULTED with that fault (03 R140); one of a core that does not run changes nothing else.  In the fail-safe state the write is
discarded (18 R592); in Stand it is held, and wakes the device (19 R614). -/
def taskHaltLaw : Prop :=
  (∀ (c : Fin 800) (s : State), s.on ERR_FAILSAFE_ACTIVE = true → exec (.taskHalt c) s = .next s.asked)
  ∧ (∀ (c : Fin 800) (s : State), s.standing = true → exec (.taskHalt c) s = .next (s.asked.holdReq (.taskHalt c))) ∧
  ∀ (c : Fin 800) (s : State), Clocked s → s.standing = false →
    (s.taskRuns c = true → s.engineFaults c = [] → Gives (exec (.taskHalt c) s) (fun u =>
      u.taskState c = tkHalted ∧ u.e = s.e ∧ u.m.mem = s.m.mem ∧ (∀ t, t < 16 → u.stat c t = .ended)
      ∧ ∀ (c' : Fin 800) t, c' ≠ c → t < 16 → u.stat c' t = s.stat c' t))
    ∧ (∀ id pc w b rest, s.taskRuns c = true → s.engineFaults c = (id, pc, w, b) :: rest →
      exec (.taskHalt c) s = .next (s.asked.taskFault c 0 pc b rest.length w))
    ∧ (s.taskRuns c = false → exec (.taskHalt c) s = .next s.asked)

/-- TASK_START of an idle core: what a well-formed descriptor leaves, and what one with a reserved encoding does (03 R119;
the INSTR of that record is a free value, assumption 2); and TASK_HALT of what was started (03 R122). -/
def Obligations.TaskStarts : Prop := taskLaunchLaw ∧ badDescriptorLaw ∧ taskHaltLaw
end

section
open Sys2Proof Sys2Proof.Machine

/-- How a task ends: END of its threads (03 R121), and HALT (03 R122); and how a token channel is opened (20 R652). -/
def Obligations.TaskEndsAndHalts : Prop := endOfTaskLaw ∧ taskHaltLaw ∧ channelOpenLaw
end

namespace Sys2Proof.Machine

/-- The instructions of classes 0 and 5, and those of class 4 with opcodes 0x00 to 0x07. -/
def unmasked : List CoreOp :=
  aluTable.map (·.1) ++ branchTable.map (·.1) ++
  [ .nop, .li, .lip, .dbnz, .jal, .jr, .end_, .csrr, .flclr, .mand, .mor, .mxor, .mandn, .mnot, .mpop, .mfirst, .mfrom,
    .mto, .ld, .st, .tset, .tget, .sopen, .sclose, .srd, .swr, .sig, .cret, .waitc, .barv, .bwait, .fence ]

def samplingNames : List CoreOp := [.sdeg, .snbr, .suni, .salias, .stopk, .swalk, .slayr]

/-- The instructions that write a mask register. -/
def maskWriters : List CoreOp := [.mand, .mor, .mxor, .mandn, .mnot, .mfrom] ++ compareTable.map (·.1)

/-- An instruction was refused as a reserved encoding: its task is FAULTED, and the record says ILLEGAL. -/
def Illegal (s : State) (c : Fin 800) (t : Fin 16) (o : Out) : Prop :=
  Gives o (fun u => u.taskState c = tkFaulted ∧ ∃ extra w, Tab.get u.e.faultRing [] (s.e.faultN % 1024) =
    faultRecord c t (s.taskId c) (s.pc c t) (whole fcIllegal) extra w)
end Sys2Proof.Machine

section
open Sys2Proof Sys2Proof.Machine

/-- s0 reads as zero and a write to it is discarded; m0 reads as all ones; an instruction that names m0 as its destination,
or a mask where none is taken, is a reserved encoding (03 R99). -/
def Obligations.ZeroRegisters : Prop :=
  ∀ (c : Fin 800) (t : Fin 16) (s : State),
    s.sreg c t 0 = 0 ∧ (∀ v, s.setS c t 0 v = s) ∧ s.mreg c t 0 = BitVec.allOnes 512
    ∧ (∀ f, (isMatrix c = true → t = 0) → s.dieUp = true → s.threadReady c t = true → s.turn c t = true →
      (∀ rs, s.regsBusy c t rs = false) → (∀ va, s.lostTable (clusterOf c) va = none) →
      (∀ e ∈ unmasked, f.mask ≠ 0 → Illegal s c t (exec (e c t f) s))
      ∧ (∀ e ∈ maskWriters, f.dst = 0 → Illegal s c t (exec (e c t f) s)))
end

namespace Sys2Proof.Machine

/-- Every instruction of a core. -/
def coreInstrs : List CoreOp :=
  unmasked ++ elementTable.map (·.1) ++ compareTable.map (·.1) ++ samplingNames ++
  [ .vld, .vlds, .vst, .vsts, .vldt, .vstt, .mxm, .mldp, .mdrop, .mdrain, .mbcnt, .vmov, .viota, .vsel, .vperm, .vpermb,
    .vshuf, .vpack, .vunpk, .vcvt, .vrsum, .vrssq, .vrmv, .vmvm, .vrmax, .vrmin, .vramax, .vtake, .vrel, .gathl, .vgath,
    .vscat, .bcmd, .bsplit, .bsort, .eres, .esort ]

/-! The opcodes of each class, as the tables of 03 to 10 give them. -/

/-- Class 0 (03 R108, R109, R121). -/
def scalarOps : List (CoreOp × Nat) :=
  [ (.nop, 0x00), (.add, 0x01), (.sub, 0x02), (.and_, 0x03), (.or_, 0x04), (.xor, 0x05), (.shl, 0x06), (.shr, 0x07),
    (.sra, 0x08), (.mul, 0x09), (.mulhu, 0x0A), (.min, 0x0B), (.max, 0x0C), (.minu, 0x0D), (.maxu, 0x0E),
    (.slt, 0x0F), (.sltu, 0x10), (.seq, 0x11), (.li, 0x12), (.lip, 0x13), (.beq, 0x20), (.bne, 0x21), (.blt, 0x22),
    (.bge, 0x23), (.bltu, 0x24), (.bgeu, 0x25), (.dbnz, 0x26), (.jal, 0x27), (.jr, 0x28), (.end_, 0x29),
    (.csrr, 0x2A), (.flclr, 0x2B), (.mand, 0x30), (.mor, 0x31), (.mxor, 0x32), (.mandn, 0x33), (.mnot, 0x34),
    (.mpop, 0x35), (.mfirst, 0x36), (.mfrom, 0x37), (.mto, 0x38) ]

/-- Class 1 (05 R183, R191 to R205). -/
def vectorOps : List (CoreOp × Nat) :=
  [ (.vmov, 0x00), (.viota, 0x01), (.vand, 0x02), (.vor, 0x03), (.vxor, 0x04), (.vnot, 0x05), (.vshl, 0x06),
    (.vshr, 0x07), (.vsra, 0x08), (.vadd, 0x10), (.vsub, 0x11), (.vmul, 0x12), (.vfma, 0x13), (.vfnma, 0x14),
    (.vdiv, 0x15), (.vsqrt, 0x16), (.vrsqrt, 0x17), (.vexp, 0x18), (.vlog, 0x19), (.vmax, 0x1A), (.vmin, 0x1B),
    (.vabs, 0x1C), (.vneg, 0x1D), (.vsign, 0x1E), (.vclamp, 0x1F), (.vcmpeq, 0x20), (.vcmpne, 0x21), (.vcmplt, 0x22),
    (.vcmple, 0x23), (.vsel, 0x24), (.vnf, 0x25), (.vperm, 0x30), (.vpermb, 0x31), (.vshuf, 0x32), (.vpack, 0x33),
    (.vunpk, 0x34), (.vcvt, 0x38), (.vrsum, 0x40), (.vrssq, 0x41), (.vrmv, 0x42), (.vmvm, 0x43), (.vrmax, 0x44),
    (.vrmin, 0x45), (.vramax, 0x46), (.vtake, 0x50), (.vrel, 0x51) ]

/-- Class 2 (04 R145, R147). -/
def matrixOps : List (CoreOp × Nat) :=
  [ (.mxm, 0x00), (.mldp, 0x01), (.mdrop, 0x02), (.mdrain, 0x03), (.mbcnt, 0x04) ]

/-- Class 3 (07 R250, 09 R311 to R337, 10 R354, R358). -/
def traversalOps : List (CoreOp × Nat) :=
  [ (.sdeg, 0x00), (.snbr, 0x01), (.suni, 0x02), (.salias, 0x03), (.stopk, 0x04), (.swalk, 0x05), (.slayr, 0x06),
    (.gathl, 0x20), (.vgath, 0x21), (.vscat, 0x22), (.bcmd, 0x23), (.bsplit, 0x24), (.bsort, 0x25), (.eres, 0x30),
    (.esort, 0x31) ]

/-- Class 4 (03 R113 to R129, 05 R190). -/
def memoryOps : List (CoreOp × Nat) :=
  [ (.ld, 0x00), (.st, 0x01), (.tset, 0x02), (.tget, 0x03), (.sopen, 0x04), (.sclose, 0x05), (.srd, 0x06),
    (.swr, 0x07), (.vld, 0x10), (.vlds, 0x11), (.vst, 0x12), (.vsts, 0x13), (.vldt, 0x14), (.vstt, 0x15) ]

/-- Class 5 (03 R131 to R134). -/
def syncOps : List (CoreOp × Nat) :=
  [ (.sig, 0x00), (.cret, 0x01), (.waitc, 0x02), (.barv, 0x03), (.bwait, 0x04), (.fence, 0x05) ]

/-- Every instruction with its CLASS and its OP. -/
def opcodes : List (CoreOp × Nat × Nat) :=
  [scalarOps, vectorOps, matrixOps, traversalOps, memoryOps, syncOps].zipIdx.flatMap (fun e => e.1.map (fun x => (x.1, e.2, x.2)))

/-- A word's CLASS and OP pick the instruction and its other fields are its operands: every instruction with every operand at every
value comes back from its word, and a word of a reserved class, or of an opcode that is none of its class, spells no instruction (03
R95, R96, 05 R183, R190). -/
def wordsLaw : Prop :=
  (∀ e ∈ opcodes, ∀ (c : Fin 800) (t : Fin 16) (f : Fields), wordInstr c t (instrWord e.2.1 e.2.2 f) = some (e.1 c t f))
  ∧ (∀ (c : Fin 800) (t : Fin 16) (w : Word), (∀ e ∈ opcodes, ¬ (bits w.toNat 60 4 = e.2.1 ∧ bits w.toNat 52 8 = e.2.2)) →
    wordInstr c t w = none)

/-- A thread whose turn it is and that stands at a word that spells no instruction stops its task with ILLEGAL, and the record holds the
word (03 R96); that this happens as a microsecond passes is the model's choice, since no command carries such a word (assumption
167). -/
def reservedWordsLaw : Prop :=
  ∀ (c : Fin 800) (s : State), s.dieUp = true → s.threads c = 1 → s.threadReady c 0 = true → s.turn c 0 = true →
    (∀ c' : Fin 800, c' ≠ c → s.taskRuns c' = false) → spells (s.nextWord c 0) = false →
    Gives (step { s with pending := [] }) (fun u => u.taskState c = tkFaulted ∧ u.e.faultN = s.e.faultN + 1
      ∧ Tab.get u.e.faultRing [] (s.e.faultN % 1024) =
        faultRecord c 0 (s.taskId c) (s.pc c 0) (whole fcIllegal) 0 (s.nextWord c 0))

/-- An instruction that is no branch at word 8,191 would move on past the last word: it raises PC_RANGE and writes nothing (03 R98,
R136).  So do the two-source instructions of class 0 and the element operations of class 1. -/
def lastWordLaw : Prop :=
  ∀ (c : Fin 800) (t : Fin 16) (f : Fields) (s : State), s.pc c t = 8191 →
    (∀ e ∈ aluTable.zipIdx 1, Issues s c t f (usesAlu f) [] → fieldsBad (usesAlu f) f = false →
      windowBad (usesAlu f) f (s.threads c) = false → exec (e.1.1 c t f) s = .next (raised s c t 0 e.2 f fcPcRange))
    ∧ (∀ e ∈ elementTable.zip ([2, 3, 4, 5, 6, 7, 8] ++ (List.range 16).map (· + 0x10)),
      Issues s c t f (usesV e.1.2.1) [] → fieldsBad (usesV e.1.2.1) f = false → e.1.2.2.1 (typeOf f) = true →
      windowBad (usesV e.1.2.1) f (s.threads c) = false → exec (e.1.1 c t f) s = .next (raised s c t 1 e.2 f fcPcRange))
end Sys2Proof.Machine

section
open Sys2Proof Sys2Proof.Machine

/-- The faults of one instruction stop its task (03 R137 to R139): its core is FAULTED, one record is written, and the
notice token of the core is sent; memory is untouched.  A fault of a translation that meets an uncorrectable codeword is no
fault: the codeword's error takes its place (08 R284).  No instruction of a thread that may not issue (its task does not run,
it has ended or it waits, or it is another's turn, 03 R106) changes anything.  A word picks its instruction by CLASS and OP, one that picks
none is ILLEGAL (03 R95, R96), and an instruction that would go on past word 8,191 raises PC_RANGE. -/
def Obligations.FaultStopsTask : Prop :=
  (∀ e ∈ coreInstrs, ∀ (c : Fin 800) (t : Fin 16) (f : Fields) (s : State), (isMatrix c = true → t = 0) →
    (s.threadReady c t = false ∨ s.turn c t = false) → exec (e c t f) s = .next s)
  ∧ wordsLaw ∧ reservedWordsLaw ∧ lastWordLaw
  ∧ ∀ (c : Fin 800) (t : Fin 16) (cls op : Nat) (f : Fields) (code : Nat) (s : State),
    let u := raised s c t cls op f code
    (∀ k, s.lostWalk c [whole code] = some k → u = (s.countIssue c).stackUE k) ∧
    (s.lostWalk c [whole code] = none → u.taskState c = tkFaulted ∧ u.e.faultN = s.e.faultN + 1 ∧ u.m.mem = s.m.mem
    ∧ u.e.toks = s.e.toks ++ [mkTok 7 56 0 (clusterOf c) (subOf c) 0 c]
    ∧ Tab.get u.e.faultRing [] (s.e.faultN % 1024) =
        faultRecord c t (s.taskId c) (s.pc c t) (whole code) 0 (instrWord cls op f))
end

namespace Sys2Proof.Machine

/-! ### Requests, arbiters, banks, codewords, key sweeps (08 R271 to R296, 16 R527 to R531) -/

/-- A round of a memory arbiter that no hold binds and at which no request waits: its round number grows by one, no request and
no byte of memory changes.  A round with a winner, no waiting read of which has been staged (08 R277), serves its chosen
request: the winner's age is zero afterwards, and the round number has grown (08 R288); a core's request of one burst is granted, the
bytes of a write to stack memory then stand in memory, a read changes none (08 R281, R289), and those of a write to shared memory stand
there and the request has gone (01 R26).  A round whose held request is gone
transfers nothing and resets the age of the requester that held it (08 R292). -/
def arbiterRoundsLaw : Prop :=
  ∀ (inst : Fin 1824) (s : State), s.dieUp = true → (inst.val < 512 ∨ 544 ≤ inst.val) →
    s.m.commitP.contains inst.val = false →
    (∀ h, s.serveLines inst = s → s.holdOf inst = some h → s.heldReq h = none → h.rqr < 16 →
      Gives (exec (.arbiterRound inst []) s) (fun u => u.age inst h.rqr = 0 ∧ u.holdOf inst = none
        ∧ Tab.get u.m.rounds 0 inst = Tab.get s.m.rounds 0 inst + 1 ∧ u.m.reqs = s.m.reqs ∧ u.m.mem = s.m.mem)) ∧
    (s.holdOf inst = none →
    (s.m.reqs.any (fun (r : Req) => r.inst == inst.val && r.stat == .queued) = false → Gives (exec (.arbiterRound inst []) s) (fun u =>
      Tab.get u.m.rounds 0 inst = Tab.get s.m.rounds 0 inst + 1 ∧ u.m.reqs = s.m.reqs ∧ u.m.mem = s.m.mem))
    ∧ (∀ r w kind, s.serveLines inst = s → s.pickWinner inst (s.eligible inst) = some (w, kind) → s.chosen inst w = some r →
      r.rqr = w → w < 16 → Gives (exec (.arbiterRound inst []) s) (fun u => u.age inst w = 0
        ∧ Tab.get s.m.rounds 0 inst < Tab.get u.m.rounds 0 inst
        ∧ (∀ b, r.left = [b] → r.use = .core →
          let stored := (r.data.filter (fun e => burstOf e.1 == b)).foldl (fun m e => m.wr e.1 e.2) s.m.mem
          (r.bank ≠ 0 → popCount (s.symbols b) ≤ 1 → (∃ y ∈ u.m.reqs, y.id = r.id ∧ y.stat = .granted)
            ∧ u.m.mem = (if r.write = true then stored else s.m.mem))
          ∧ (r.bank = 0 → r.write = true → r.land = .none → (∃ x ∈ s.m.xfers, x.id = r.xfer) →
            (∀ x ∈ s.m.xfers, x.id = r.xfer → 2 ≤ x.todo) → (∀ y ∈ u.m.reqs, y.id ≠ r.id) ∧ u.m.mem = stored)))))
end Sys2Proof.Machine

section
open Sys2Proof Sys2Proof.Machine

/-- How a round decides (08 R288).  Eligible are the requesters with a request that their target can accept, less those in
penalty; with none, none is granted.  An overdue one (age 15) goes first, the first after the last overdue winner; then the
owner of the round's slot; then the greatest sum of priority and age, among equals the greatest age, among equals the first
after the last winner so ranked.  Afterwards the winner's age is 0, that of every other eligible one grows up to 15, and
that of one that no longer asks is 0. -/
def Obligations.ArbiterChoice : Prop :=
  ∀ (inst : Nat) (s : State),
    let elig := s.eligible inst
    let age (r : Nat) := s.age inst r
    let rank (r : Nat) := s.fld (ARB_PRIO_PRIO inst r) + age r
    let slot := Tab.get s.m.slots 0 (inst * 64 + Tab.get s.m.rounds 0 inst % 64)
    let after (last r : Nat) := (r + 15 - last % 16) % 16
    let wonOver := Tab.get s.m.lastOver 15 inst
    let bg := Tab.get s.m.lastBg 15 inst
    (∀ r, r ∈ elig ↔ r < 16 ∧ s.inPenalty inst r = false ∧ s.acceptable inst r ≠ [])
    ∧ (elig = [] → s.pickWinner inst elig = none)
    ∧ (elig ≠ [] → ∃ w kind, s.pickWinner inst elig = some (w, kind) ∧ w ∈ elig
      ∧ ((∃ r ∈ elig, age r = 15) → age w = 15 ∧ ∀ r ∈ elig, age r = 15 → after wonOver w ≤ after wonOver r)
      ∧ ((∀ r ∈ elig, age r ≠ 15) → 16 ≤ slot → slot % 16 ∈ elig → w = slot % 16)
      ∧ ((∀ r ∈ elig, age r ≠ 15) → (slot < 16 ∨ slot % 16 ∉ elig) → ∀ r ∈ elig,
        rank r ≤ rank w ∧ (rank r = rank w → age r ≤ age w) ∧ (rank r = rank w → age r = age w → after bg w ≤ after bg r)))
    ∧ (∀ asking w r, r < 16 →
      let new := (s.ageRound inst elig asking w).age inst r
      (w = some r ∨ r ∉ asking → new = 0)
      ∧ (w ≠ some r → r ∈ asking → r ∈ elig → new = min (age r + 1) 15)
      ∧ (w ≠ some r → r ∈ asking → r ∉ elig → new = age r))
end

namespace Sys2Proof.Machine

/-- ARB_COMMIT, a PCIe write (19 R612), notes the instance and changes nothing else; the next round of it brings its shadow priorities
into force (08 R290). -/
def arbiterCommitLaw : Prop :=
  ∀ (inst : Fin 1824) (s : State), Clocked s → s.standing = false →
    Gives (exec (.arbCommit inst) s) (fun u => u.m.commitP.contains inst.val = true
      ∧ u = { s.asked with m := { s.m with commitP := u.m.commitP } }
      ∧ (∀ i, i ≠ inst.val → u.m.commitP.contains i = s.m.commitP.contains i)
      ∧ ∀ r, r < 16 → (u.startRound inst).fld (ARB_PRIO_PRIO inst r) = s.fld (ARB_PRIO_SH_PRIO_SH inst r) % 16)
end Sys2Proof.Machine

section
open Sys2Proof Sys2Proof.Machine

/-- A round of a memory arbiter (08 R288) and a commit of its shadow priorities (08 R290). -/
def Obligations.ArbiterRoundsAndCommit : Prop := arbiterRoundsLaw ∧ arbiterCommitLaw

/-- BERTH_RETURN of a granted request whose reply may cross now: its data lands, requests that its berth held back leave, and
threads that waited for them go on (08 R293, R294); a reply that a reply granted before it must precede waits (01 R27).  The
load of one request writes s_d and is no longer outstanding (03 R104). -/
def Obligations.BerthReturns : Prop :=
  ∀ (c : Fin 800) (id : Nat) (s : State) (r : Req), Clocked s →
    s.m.reqs.find? (fun (r : Req) => r.id == id && r.core == c.val && r.stat == .granted && r.bank != 0) = some r →
    (s.crosses r = true →
      (s.rowTarget id = none → exec (.berthReturn c id) s = .next (((s.landReq r).promote c).unpark c))
      ∧ ∀ mc, s.rowTarget id = some mc →
        exec (.berthReturn c id) s = .next ((((s.landReq r).promote c).unpark c).feedEngine mc))
    ∧ (s.crosses r = false → s.rowTarget id = none → exec (.berthReturn c id) s = .next s)
    ∧ servedLoadLaw
end

namespace Sys2Proof.Machine

/-- BANK_REFRESH of a bank whose refresh is due closes the bank's row and keeps it busy for 288 base cycles; before that it
changes nothing. A bank accepts no request while its refresh is due or under way. ROW_CLOSE closes a row not accessed for 64
cycles (08 R272, R273, R275). That a bank whose refresh is due accepts nothing until it has been refreshed, and that a refresh
before it is due changes nothing, is the model's choice (assumptions 138 and 13). -/
def bankEventsLaw : Prop :=
  ∀ (st : Fin 8) (pc : Fin 64) (bank : Fin 32) (s : State),
    let inst := st.val * 64 + pc.val
    let b := bankNo st pc bank
    let now := s.cyc inst
    (s.refreshDue inst b = true → Gives (exec (.bankRefresh st pc bank) s) (fun u =>
      (u.bank b).row = none ∧ (u.bank b).refEnd = now + 288 ∧ (∀ b', b' ≠ b → u.bank b' = s.bank b') ∧ u.m.mem = s.m.mem))
    ∧ (s.refreshDue inst b = false → exec (.bankRefresh st pc bank) s = .next s)
    ∧ (∀ r : Req, r.inst = inst → r.bank = b → (s.refreshDue inst b = true ∨ now < (s.bank b).refEnd) →
      s.bankTakes r = false)
    ∧ ((s.bank b).row.isSome = true → (s.bank b).used + 64 ≤ now → Gives (exec (.rowClose st pc bank) s) (fun u =>
      (u.bank b).row = none ∧ (u.bank b).used = (s.bank b).used ∧ (∀ b', b' ≠ b → u.bank b' = s.bank b')))

/-- PATROL_SCRUB of the codeword that the patrol reads next asks for it as requester 13 and moves the patrol on; any other
changes nothing. When the request is served a codeword with at most one bad symbol has none afterwards; of one with more the
address stands in STK_UE_ADDR (08 R282 to R284). That the patrol goes up from address 0 is the model's choice (assumption
139). -/
def patrolScrubLaw : Prop :=
  ∀ (st : Fin 8) (addr : BitVec 36) (s : State), Clocked s → addr.toNat < s.stackBytes →
    let cw := addr.toNat / 64
    let b := burstOf (keyStack st addr.toNat)
    (s.asksOwn st false = false → s.patrolAt st cw = true → Gives (exec (.patrolScrub st addr []) s) (fun u =>
      Tab.get u.m.scrubAt 0 st = cw + 1 ∧ u.m.mem = s.m.mem ∧ u.m.errs = s.m.errs ∧ u.asksOwn st false = true))
    ∧ ((s.asksOwn st false = true ∨ s.patrolAt st cw = false) → exec (.patrolScrub st addr []) s = .next s)
    ∧ (∀ r : Req, r.use = .scrub → ∃ n u,
      (popCount (s.symbols b) ≤ 1 → s.serveBurst r b = (n, false, u) ∧ u.symbols b = 0 ∧ u.m.mem = s.m.mem)
      ∧ (2 ≤ popCount (s.symbols b) → s.serveBurst r b = (n, true, u) ∧ u.fld (STK_UE_ADDR_VALID st) = 1
        ∧ u.fld (STK_UE_ADDR_ADDR st) = addr.toNat / 64 * 64))

/-- SWEEP_REWRITE of a stack whose partition sweeps asks for the next burst as requester 13, one at a time.  When the request
is served, before the end of a page, the burst counts as encrypted under CUR, and the sweep moves on by one burst (16
R529). -/
def sweepRewriteLaw : Prop :=
  ∀ (st : Fin 8) (p : Nat) (s : State), Clocked s → s.secPart st = some p → s.sweeps p = true → s.m.sweepEnd.contains st.val = false →
    let i := Tab.get s.m.sweepAt 0 st
    let b := burstOf (keyStack st 0) + i
    (s.asksOwn st true = false → i < 2 ^ 30 → Gives (exec (.sweepRewrite st) s) (fun u =>
      u.asksOwn st true = true ∧ u.m.mem = s.m.mem ∧ u.m.sweepAt = s.m.sweepAt))
    ∧ (s.asksOwn st true = true → exec (.sweepRewrite st) s = .next s)
    ∧ (∀ r : Req, r.use = .sweep p → s.symbols b = 0 → i < 2 ^ 30 → (i + 1) % 32768 ≠ 0 → (i + 1) * 64 ≠ s.stackBytes →
      ∃ u, s.serveBurst r b = (2, false, u) ∧ Tab.get u.m.sweepMap false b = true ∧ Tab.get u.m.sweepAt 0 st = i + 1
        ∧ u.m.mem = s.m.mem)
end Sys2Proof.Machine

section
open Sys2Proof Sys2Proof.Machine

/-- Refresh and row closing (08 R272 to R275), the patrol scrub (08 R282 to R284), the key sweep (16 R529). -/
def Obligations.StackMaintenance : Prop := bankEventsLaw ∧ patrolScrubLaw ∧ sweepRewriteLaw
end

namespace Sys2Proof.Machine

/-! ### Class 2: the matrix engine (04 R141 to R178) -/

/-- The operands that an MXM uses. -/
def usesMxm (f : Fields) : Uses :=
  { dst := some .t, a := some (if modBit f 17 then .q else .t)
    b := if mxMode f = 2 then some (if modBit f 18 then .q else .t) else none
    mask := true, ty := true, mod := 7, imm := 0x7FFF }

/-- MXM that nothing refuses and nothing holds back joins the engine's queue with its K, and takes one barge credit for
each CLOSE bit; while it must wait it stays.  MLDP that nothing refuses joins the queue of plane loads.  MDROP frees an
OPEN tile once every earlier MXM and load has started and no MXM that is not finished names it, and a handle of no OPEN tile, or a
stale copy of one, is a HANDLE fault; MDRAIN goes on once the engine
is empty; MBCNT reads the free credits (04 R145 to R148, R170, R174). -/
def matrixIssueLaw : Prop :=
  ∀ (c : Fin 800) (t : Fin 16) (f : Fields) (s : State), isMatrix c = true →
    (Runs s c t f (usesMxm f) (mxWordBad f) → s.mxFaults c f = [] →
      (s.mxWaits c f = false → Gives (exec (.mxm c t f) s) (fun u => ∃ x, u.mx.mxms = s.mx.mxms ++ [x]
        ∧ x.mc = c.val ∧ x.word = instrWord 2 0 f ∧ x.started = false
        ∧ x.k = kOf ((s.srcTy c f.srca.toNat (modBit f 17)).getD .bf16) ((s.otherTy c f).getD .bf16)
        ∧ x.handles = (List.range (mxNb f)).map (fun b => (s.handle c (f.dst.toNat + b)).toNat)
        ∧ u.creditsHeld c = s.creditsHeld c + mxCloses (instrWord 2 0 f) ∧ u.pc c t = s.pc c t + 1))
      ∧ (s.mxWaits c f = true → exec (.mxm c t f) s = .next (s.missTurn c t (instrWord 2 0 f))))
    ∧ (let isQ := modBit f 17
       let r := f.srca.toNat
       ∀ ty, Runs s c t f { a := some (if isQ then .q else .t), mod := 3 } false →
        s.srcTy c r isQ = some ty → operandTy ty = true → s.srcFaults c r (s.loadK c r isQ) isQ = [] →
        Gives (exec (.mldp c t f) s) (fun u => ∃ s1 l, u = passed s (State.kickMldp s1 c) c t ∧ s1.mx.mldps = s.mx.mldps ++ [l]
          ∧ l.plane = (if modBit f 16 then 1 else 0) ∧ l.ty = ty ∧ l.k = s.loadK c r isQ ∧ l.started = false))
    ∧ (∀ tile, Runs s c t f { a := some .t } false → s.mx.staleRegs.contains (32 * c.val + f.srca.toNat) = false →
        s.openTile c (s.handle c f.srca.toNat) = some tile →
        (∀ x ∈ s.mxmsOf c, x.started = true ∧ (s.handle c f.srca.toNat).toNat ∉ x.handles) →
        (∀ x ∈ s.mldpsOf c, x.started = true) → Gives (exec (.mdrop c t f) s)
          (fun u => u.mx.tiles = dropFirst (· == tile) s.mx.tiles ∧ u.pc c t = s.pc c t + 1))
    ∧ (Runs s c t f { a := some .t } false →
        (s.openTile c (s.handle c f.srca.toNat) = none ∨ s.mx.staleRegs.contains (32 * c.val + f.srca.toNat) = true) →
        exec (.mdrop c t f) s = .next (raised s c t 2 2 f fcHandle))
    ∧ (Runs s c t f {} false → s.mxmsOf c = [] → s.mldpsOf c = [] → exec (.mdrain c t f) s = .next (passed s s c t))
    ∧ (Runs s c t f { dst := some .s } false → exec (.mbcnt c t f) s =
        .next (passed s (s.setS c t f.dst.toNat (BitVec.ofNat 64 (16 - s.creditsHeld c))) c t))

/-- The events of the engine.  MXM_START starts the oldest MXM not started once those before it have taken their rows and
its plane and operands are ready, and a load that waited for it may start; MXM_FINISH and BARGE_POST compute in order, and the
latter posts the next band's barge; ARRAY_FAULT ends the operations of earlier tasks that have found a fault and stops the task with
the fault of the oldest operation of its own that has found one, the others in EXTRA; PLANE_READY fills the plane of the load that runs; PLANE_FREE lets a
waiting load start (04 R147, R148, R168 to R176). -/
def matrixEventsLaw : Prop :=
  ∀ (c : Fin 800) (s : State), Clocked s →
    (∀ x, (s.mxmsOf c).find? (fun x => !x.started) = some x →
      ((s.mxmsOf c).filter (fun y => decide (y.id < x.id))).all Mxm.entered = true →
      s.planeReady x = true → s.srcReady c x.id x.k x.srcA = true → s.srcReady c x.id x.k x.srcB = true →
      Gives (exec (.mxmStart c) s) (fun u => ∃ s1 x', u = (State.feedEngine s1 c).kickMldp c ∧ x' ∈ s1.mx.mxms ∧ x'.id = x.id
        ∧ x'.started = true ∧ x'.rowsA = (s.capture1 c x.k x.srcA).1 ∧ x'.rowsB = (s.capture1 c x.k x.srcB).1))
    ∧ (∀ x s', (s.mxmsOf c).find? (fun x => mxCloses x.word == 0) = some x →
      s.computeTo x.id (s.mxmsOf c) = (true, s') → exec (.mxmFinish c) s = .next ((s'.dropMxm c x.id).settle c))
    ∧ (∀ x s' x' b rest, (s.mxmsOf c).find? (fun x => mxCloses x.word != 0) = some x →
      s.computeTo x.id (s.mxmsOf c) = (true, s') → s'.mx.mxms.find? (fun y => y.id == x.id) = some x' →
      x'.toPost = b :: rest → exec (.bargePost c) s = .next
        (((if rest.isEmpty then (s'.postTile x' b).dropMxm c x'.id
          else (s'.postTile x' b).updMxm { x' with toPost := rest }).settle c).tryEnd c))
    ∧ (let s0 := s.discardMxms c (fun x => x.bad.isSome && x.launch != s.launchNo c)
      ∀ id pc w b rest, s0.engineFaults c = (id, pc, w, b) :: rest →
      (s0.taskRuns c = true → exec (.arrayFault c) s = .next (s0.taskFault c 0 pc b rest.length w))
      ∧ (s0.taskRuns c = false → exec (.arrayFault c) s = .next (s0.engineStop c)))
    ∧ (∀ (p : Fin 2) l, (s.mldpsOf c).head? = some l → l.plane = p.val → l.started = true → l.bad = none →
      (∀ q, l.src = .stream q → 256 ≤ l.rows.length) → exec (.planeReady c p) s =
        .next ((((s.setPlane c p (.full ⟨l.ty, l.k, l.rows⟩)).dropMldp l.id).kickMldp c).settle c))
    ∧ (∀ (p : Fin 2) l, (s.mldpsOf c).head? = some l → l.plane = p.val →
      exec (.planeFree c p) s = .next (s.kickMldp c))

/-- What an output element holds (02 R71 to R77).  A floating-point run starts at +0 and takes its products in increasing K order, each product
rounded once to FP32 and each sum rounded to FP32, and padding forms none; an integer run is the exact sum.  The instruction that opens the tile leaves
the run as the total; a later one adds the run to it, in FP32 or in XA, or in INT32 saturating with OVERFLOW.  Each element depends on the row and
the column that meet in it and on its own total alone; and where the tile stays open its total lies in the accumulator memory at its place. -/
def matrixElementLaw : Prop :=
  (∀ (ta tb : Ty), (runOf ta tb [] []).1 = 0 ∧ ∀ (a b : List OpEl) (x y : OpEl), a.length = b.length →
    (∀ u v, x = some u → y = some v → (runOf ta tb (a ++ [x]) (b ++ [y])).1 =
      (fAdd fmtFP32 (runOf ta tb a b).1 (mxProduct ta tb u v).1.v).v)
    ∧ (x = none ∨ y = none → runOf ta tb (a ++ [x]) (b ++ [y]) = runOf ta tb a b))
  ∧ (∀ (ta tb total : Ty) (k o : Nat) (a b : List OpEl), int8Ty ta = false →
    let run := (runOf ta tb a b).1
    (element ta tb total k a b none).1 = (if total = .xa then (widen fmtFP32 fmtXA run).v else run)
    ∧ (element ta tb total k a b (some o)).1 = (if total = .xa then (fAdd fmtXA o (widen fmtFP32 fmtXA run).v).v
        else (fAdd fmtFP32 o run).v))
  ∧ (∀ (ta tb total : Ty) (k o : Nat) (a b : List OpEl), int8Ty ta = true →
    let run : Int := ((a.zip b).map (fun x => match x with
      | (some u, some v) => ta.readInt u.1 * tb.readInt v.1
      | _ => 0)).sum
    let sum := signed 32 o + run
    (element ta tb total k a b none).1 = wrapInt 32 run
    ∧ (element ta tb total k a b (some o)).1 = wrapInt 32 (max (-2 ^ 31) (min (2 ^ 31 - 1) sum))
    ∧ ((element ta tb total k a b (some o)).2.fl &&& flOverflow ≠ 0 ↔ sum < -2 ^ 31 ∨ 2 ^ 31 - 1 < sum))
  ∧ (∀ (x : Mxm) (tile : Tile) (b w i j : Nat) (old : Nat → Nat → Nat), x.mask = none → i < 256 → j < w →
    (((x.computeTile tile b w old).1.getD i []).getD j 0) =
      (element (x.sides b w).1.1 (x.sides b w).2.1 (totalTy (BitVec.ofNat 64 tile.handle)) x.k
        (rowAt (x.sides b w).1.2 i x.k) (rowAt (x.sides b w).2.2 j x.k)
        (if mxOpen x.word b then none else some (old i j))).1)
  ∧ (∀ (x : Mxm) (tile : Tile) (b i j h : Nat) (s : State), x.handles[b]? = some h →
    s.mx.tiles.find? (fun t => t.mc == x.mc && t.handle == h && (t.st == .opened || t.st == .closed)) = some tile →
    mxClose x.word b = false → tile.osPlane = none →
    let hw := BitVec.ofNat 64 h
    let size := (thType hw).bits / 8
    let w := 256 / mxBands x.word
    thOffset hw + 256 * w * size ≤ accBytes → i < 256 → j < w →
    (s.computeBand x b).m.mem.rdLE (keyAcc x.mc (thOffset hw + (i * w + j) * size)) size =
      ((x.computeTile tile b w (s.oldTotals tile w)).1.getD i []).getD j 0 % 2 ^ (8 * size))
end Sys2Proof.Machine

section
open Sys2Proof Sys2Proof.Machine

/-- The matrix engine: what its instructions put in its queues, what each of its events does (04 R145 to R176), and what an output
element holds (02 R71 to R77). -/
def Obligations.MatrixEngine : Prop := matrixIssueLaw ∧ matrixEventsLaw ∧ matrixElementLaw
end

namespace Sys2Proof.Machine

/-! ### Class 3: sampling (07 R248 to R263) -/

/-- The sampling instructions with what each resolves. -/
def samplingTable : List (CoreOp × Nat × (Samp → TravM SampRes)) :=
  [ (.sdeg, 0, sampDeg), (.snbr, 1, sampNbr), (.suni, 2, sampUni), (.salias, 3, sampAlias), (.stopk, 4, sampTopk),
    (.swalk, 5, sampWalk), (.slayr, 6, sampLayer) ]

def usesSampling (op : Nat) : Uses :=
  { dst := some .s, a := some .s, b := some .s, c := some .s, mod := if op = 5 then 1 else 0
    imm := if op = 6 then 0x7FF0 else 0x7FFF }

/-- The state in which an instruction waits for its reads, the first group of which has gone out (07 R267), or has ended
where it reads nothing. -/
def resolved (core : Fin 800) (t : Fin 16) (dst word : Nat) (cells : List (Nat × Byte)) (tr : Trav) : State :=
  let x (later : List (List Nat)) : Xfer :=
    { newXfer core t false (scalarDest dst) (.result dst word later) with late := cells, fl := tr.fl }
  match tr.waves.reverse.filter (fun w => !w.isEmpty) with
  | [] => passed tr.s (tr.s.startReads (x []) []) core t
  | w :: later =>
    (((tr.s.startReads (x later) w).countIssue core).setStat core t (.waiting (.result tr.s.m.nextId))).tookTurn core t
      (tr.s.pc core t)

/-- A sampling instruction whose operands break none of R261: it reads the graph through its task's extents; its records
go to OUT and COUNT, or the status that ended it in [63:32], to s_d once the reads have landed; a failed access is the
fault of the instruction. -/
def samplingLaw : Prop :=
  ∀ e ∈ samplingTable, ∀ (c : Fin 800) (t : Fin 16) (f : Fields) (s : State),
    let op := e.2.1
    let k := bits f.imm.toNat 4 11
    let i := s.sampOf c t op f
    Runs s c t f (usesSampling op) (isMatrix c || k == 0 || decide ((if op = 5 then 255 else 1024) < k)) →
    sampFaults op i = [] →
    (∀ n rs tr, (e.2.2 i).run ⟨s, [], 0⟩ = (.ok (n, rs), tr) → tr.s.pc c t = s.pc c t →
      exec (e.1 c t f) s = .next (resolved c t f.dst.toNat n (recordCells c i.out rs) tr))
    ∧ (∀ n tr, (e.2.2 i).run ⟨s, [], 0⟩ = (.error (.status n), tr) → tr.s.pc c t = s.pc c t →
      exec (e.1 c t f) s = .next (resolved c t f.dst.toNat (n * 2 ^ 32) [] tr))
    ∧ (∀ code a tr, (e.2.2 i).run ⟨s, [], 0⟩ = (.error (.fault code a), tr) →
      exec (e.1 c t f) s = .next ((s.countIssue c).raise c t (s.pc c t) [wholeAt code a] (instrWord 3 op f)))

/-- What the samplers pick (07 R256 to R258).  SUNI over more than K positions takes K distinct ones, in increasing order, and its first draw is
uniform over the first DEG - K + 1; an alias draw takes the position or its alias, by the word's PROB; STOPK ranks the whole weight list, and no
weight after another in rank is above it: the K first are the largest, NaN below all, +0 above -0, equal ones by lower position. -/
def picksLaw : Prop :=
  (∀ (i : Samp) (deg : Nat), i.k ≤ deg →
    (uniPositions i deg).length = i.k ∧ (uniPositions i deg).Pairwise (· < ·) ∧ (∀ p ∈ uniPositions i deg, p < deg)
    ∧ (0 < i.k → drawU (i.draw i.hop i.b 0) (deg - i.k + 1) ∈ uniPositions i deg))
  ∧ (∀ (core x e : Nat) (m : Image) (st st' : Trav), 
    (readVa core (m.f 0x28 6 + 8 * (m.start + drawU x m.deg)) 8).run st = (.ok e, st') → bits e 32 32 < m.deg →
    (aliasChoice core m x).run st = (.ok (if bits x 64 32 < bits e 0 32 ∨ bits e 0 32 = 0xFFFFFFFF then drawU x m.deg
      else bits e 32 32), st'))
  ∧ (∀ ws : List (Nat × Nat), let l := ws.foldr insWeight []
    l.Perm ws ∧ l.Pairwise (fun a b => weightAbove b a = false))
  ∧ (∀ v w p q, (readNum fmtFP32 w).1.isNaN = true → (readNum fmtFP32 v).1.isNaN = false →
    weightAbove (v, p) (w, q) = true ∧ weightAbove (w, q) (v, p) = false)
  ∧ (∀ v p q, p < q → weightAbove (v, p) (v, q) = true ∧ weightAbove (v, q) (v, p) = false)
  ∧ (∀ p q, weightAbove (0, p) (2 ^ 31, q) = true ∧ weightAbove (2 ^ 31, q) (0, p) = false)

/-- SLAYR over candidates whose weights are all zero reads no stack: it writes no record, and s_d receives 0 at once
(07 R260). -/
def layerOfZerosLaw : Prop :=
  ∀ (c : Fin 800) (t : Fin 16) (f : Fields) (s : State),
    let k := bits f.imm.toNat 4 11
    let i := s.sampOf c t 6 f
    Runs s c t f (usesSampling 6) (isMatrix c || k == 0 || decide (1024 < k)) → sampFaults 6 i = [] →
    (∀ j, j < bits i.cw 0 24 → leNat (((s.rdB (keyOwn c (i.b + 16 * j)) 16).drop 4).take 4) = 0) → f.dst.toNat ≠ 0 →
    Gives (exec (.slayr c t f) s) (fun u => u.sreg c t f.dst.toNat = 0 ∧ u.m.mem = s.m.mem ∧ u.pc c t = s.pc c t + 1)
end Sys2Proof.Machine

section
open Sys2Proof Sys2Proof.Machine

/-- The sampling instructions (07 R248 to R263), what the samplers pick (07 R256 to R258), and the layer sampler over weights of zero
(07 R260). -/
def Obligations.SamplingInstructions : Prop := samplingLaw ∧ layerOfZerosLaw ∧ picksLaw
end

namespace Sys2Proof.Machine

/-! ### Gathers, scatters, base commands, records (09 R309 to R338, 10 R351 to R358) -/

def usesVgath : Uses := { dst := some .v, a := some .s, b := some .v, mask := true, ty := true, mod := 3 }
def usesVscat : Uses := { a := some .s, b := some .v, c := some .v, mask := true, ty := true, mod := 3 }

/-- VGATH and VSCAT in own memory: element `i` lies at s_a plus the 32-bit index of element `i` times the element size;
VGATH fills the active elements; of the active elements that VSCAT sends to one address the highest-numbered is written, and
no other byte changes (09 R315, R316). -/
def elementGatherLaw : Prop :=
  ∀ (c : Fin 800) (t : Fin 16) (f : Fields) (s : State),
    let ty := typeOf f
    let n := ty.bits / 8
    let act := (List.range ty.count).filter (fun i => (s.mreg c t f.mask.toNat).getLsbD i)
    let place (i : Nat) := (s.sreg c t f.srca.toNat
      + BitVec.ofNat 64 (bits (s.vreg c t f.srcb.toNat).toNat (32 * i) 32 * n)).toNat
    isMatrix c = false → spaceOf f = 0 → elemGathTy ty = true →
    (∀ i ∈ act, place i % n = 0 ∧ place i + n ≤ ownBytes c) →
    (Runs s c t f usesVgath false → Gives (exec (.vgath c t f) s) (fun u => elementsWritten s u c t f (fun i =>
      ⟨leNat ((List.range n).map (fun j => s.m.mem.rd (keyOwn c (place i + j)))), 0, 0⟩)))
    ∧ (Runs s c t f usesVscat false → Gives (exec (.vscat c t f) s) (fun u =>
      (∀ i ∈ act, (∀ i' ∈ act, i < i' → place i' ≠ place i) → ∀ j, j < n →
        u.m.mem.rd (keyOwn c (place i + j)) = (leBytes n (elemOf ty (s.vreg c t f.srcc.toNat) i)).getD j 0)
      ∧ (∀ a, (∀ i ∈ act, a < keyOwn c (place i) ∨ keyOwn c (place i) + n ≤ a) → u.m.mem.rd a = s.m.mem.rd a)
      ∧ u.pc c t = s.pc c t + 1 ∧ storeKept s u c t))

/-- GATHL whose operands break none of R314 and whose rows are all within reach starts its rows, in list order, and goes
on; a row out of reach is the fault of the instruction, and of the rows before it those that have landed are written (09 R309
to R318; which of them have landed is a free value, assumption 145). -/
def listGatherLaw : Prop :=
  ∀ (c : Fin 800) (t : Fin 16) (f : Fields) (s s' : State) (rows : List (Nat × List Nat)),
    let n := bits f.imm.toNat 0 13
    let g := s.gathOf c t f
    let idx := (List.range n).map (fun j => (j, s.rd (keyOwn c (g.list + 8 * j)) 8))
    Runs s c t f { dst := some .s, a := some .s, b := some .s, c := some .s, mod := 3, imm := 0x1FFF }
      (isMatrix c || n == 0 || decide (4096 < n) || bits f.mod.toNat 0 2 == 3) → s.gathFaults c g = [] →
    (s.gathKeys c g idx = (rows, none, s') →
      exec (.gathl c t f) s = .next (passed s (s'.gathGo c t f.dst.toNat g rows) c t))
    ∧ (∀ e, s.gathKeys c g idx = (rows, some e, s') → exec (.gathl c t f) s =
        .next (((s'.gathStop c g rows).countIssue c).raise c t (s.pc c t) [e] (instrWord 3 0x20 f)))
end Sys2Proof.Machine

section
open Sys2Proof Sys2Proof.Machine

/-- Element gathers and scatters (09 R315, R316) and list gathers (09 R309 to R318). -/
def Obligations.Gathers : Prop := elementGatherLaw ∧ listGatherLaw
end

namespace Sys2Proof.Machine

/-- BCMD of an aligned header that names memory of the core, with a berth free, hands one command to the stack of IMM and
goes on (09 R320 to R322). -/
def baseCommandIssueLaw : Prop :=
  ∀ (c : Fin 800) (t : Fin 16) (f : Fields) (s : State),
    let off := (s.sreg c t f.srca.toNat).toNat
    let h := parseHdr (s.rdB (keyOwn c off) 64)
    isMatrix c = false → Runs s c t f { a := some .s, imm := 7 } false → off % 64 = 0 → off + 64 ≤ ownBytes c →
    h.dest ≠ 2 → h.statusOff % 8 = 0 → h.statusOff + 8 ≤ ownBytes c → s.berthFree c = true →
    Gives (exec (.bcmd c t f) s) (fun u => u.pc c t = s.pc c t + 1 ∧ ∃ x, u.b.cmds = s.b.cmds ++ [x]
      ∧ x.stack = f.imm.toNat % 8 ∧ x.core = c.val ∧ x.thread = t.val ∧ x.hdr = h ∧ x.done = none)

/-- BSPLIT with ascending splits puts each record into the bucket of how many splits are at or below its key, keeping
their order, and writes the buckets, their starts and the count; BSORT writes destinations, weights, run ends and unique
sources of the records sorted by source, stably (09 R336, R337).  ESORT sorts the entries its key covers, stably, the others
behind them (10 R358). -/
def recordSortsLaw : Prop :=
  ∀ (c : Fin 800) (t : Fin 16) (f : Fields) (s : State),
    let out := (s.sreg c t f.srca.toNat).toNat
    let inp := (s.sreg c t f.srcb.toNat).toNat
    let cw := (s.sreg c t f.srcc.toNat).toNat
    let w (u : State) (v : Nat) : Out := .next (passed s (u.setS c t f.dst.toNat (BitVec.ofNat 64 v)) c t)
    isMatrix c = false →
    (let n := bits cw 0 13
     let b := 2 ^ bits cw 13 3
     let split := bits cw 16 24
     let cnt := bits cw 40 24
     let splits := (List.range (b - 1)).map (fun i => s.rd (keyOwn c (split + 8 * i)) 8)
     let key (r : List Byte) : Nat := if modBit f 16 then leNat r % 2 ^ 49 else recSrc r
     let bks := (List.range b).map (fun i => (s.records c inp n).filter (fun r => bucketOf splits (key r) == i))
     Runs s c t f { dst := some .s, a := some .s, b := some .s, c := some .s, mod := 1 } false →
     regionFaults c (n == 0 || decide (4096 < n) || decide (6 < bits cw 13 3))
       [(inp, 16 * n, 16), (split, 8 * (b - 1), 8)] [(out, 16 * n, 16), (cnt, 4 * (b + 1), 4)] = [] →
     (ascending splits = true → exec (.bsplit c t f) s = w ((s.wrB (keyOwn c out) (bks.flatMap (fun l => l.flatMap id))).wrB
       (keyOwn c cnt) ((starts 0 (bks.map List.length)).flatMap (leBytes 4))) n)
     ∧ (ascending splits = false → exec (.bsplit c t f) s = w s (n + 2 ^ 32))) ∧
    (let n := bits cw 0 14
     let rs := sortByKey recSrc (s.records c inp n)
     let ends := runEnds recSrc 0 rs
     let wOff := roundUp (8 * n) 64
     let eOff := wOff + roundUp (4 * n) 64
     Runs s c t f { dst := some .s, a := some .s, b := some .s, c := some .s } false →
     inp % 16 = 0 → inp + 16 * n ≤ ownBytes c → n ≤ 8192 →
     regionFaults c (n == 0 || decide (8192 < n) || cw / 2 ^ 62 != 0)
       [(inp, 16 * n, 16)] [(out, eOff + 4 * ends.length, 64), (bits cw 38 24, 8 * ends.length, 8)] = [] →
     (rs.any (fun r => decide (bits cw 14 24 ≤ recDst r)) = false → exec (.bsort c t f) s =
       w ((((s.wrB (keyOwn c out) (rs.flatMap (fun r => leBytes 8 (recDst r)))).wrB
         (keyOwn c (out + wOff)) (rs.flatMap (fun r => (r.drop 4).take 4))).wrB
         (keyOwn c (out + eOff)) (ends.flatMap (leBytes 4))).wrB
         (keyOwn c (bits cw 38 24)) ((ends.filterMap (fun e => rs[e - 1]?)).flatMap (fun r => leBytes 8 (recSrc r))))
         ends.length)
     ∧ (rs.any (fun r => decide (bits cw 14 24 ≤ recDst r)) = true →
       exec (.bsort c t f) s = w s (ends.length + 2 ^ 33))) ∧
    (let n := bits cw 0 14
     let key := bits cw 14 2
     let run := bits cw 16 24
     let k (r : List Byte) : Nat := (entryKey key r).getD 0
     let sorted := sortByKey k ((s.records c inp n).filter (fun r => (entryKey key r).isSome))
     let ends := runEnds k 0 sorted
     Runs s c t f { dst := some .s, a := some .s, b := some .s, c := some .s } false →
     inp % 16 = 0 → inp + 16 * n ≤ ownBytes c → n ≤ 8192 →
     regionFaults c (n == 0 || decide (8192 < n) || key == 3 || cw / 2 ^ 40 != 0)
       [(inp, 16 * n, 16)] [(out, 16 * n, 16), (run, 4 * (ends.length + 1), 4)] = [] →
     exec (.esort c t f) s = w ((s.wrB (keyOwn c out) ((sorted ++ (s.records c inp n).filter
       (fun r => (entryKey key r).isNone)).flatMap id)).wrB (keyOwn c run) ((0 :: ends).flatMap (leBytes 4))) ends.length)

/-- A sort by key is a rearrangement of the records in which keys never fall and records of one key keep their order:
what "stable" means of BSORT, BSPLIT and ESORT (09 R336, R337, 10 R358). -/
def sortIsStableLaw : Prop :=
  ∀ (key : List Byte → Nat) (l : List (List Byte)),
    (sortByKey key l).Perm l ∧ (sortByKey key l).Pairwise (fun a b => key a ≤ key b)
    ∧ ∀ k, (sortByKey key l).filter (fun r => key r == k) = l.filter (fun r => key r == k)
end Sys2Proof.Machine

section
open Sys2Proof Sys2Proof.Machine

/-- The sorts of records: what BSPLIT, BSORT and ESORT write (09 R336, R337, 10 R358), and that they sort stably. -/
def Obligations.RecordsSorted : Prop := recordSortsLaw ∧ sortIsStableLaw

/-- ERES, in requester mode (MOD[16] 0) and in serve mode (MOD[16] 1), whose operands break none of R357, whose descriptor is found and
whose rows all resolve: the entries go to OUT and the result word of R355 to s_d once its reads have landed; a serve counts the entries
that it forwards and drops (R356); a table slot that is not VALID, or a bad descriptor, gives the status instead; a row whose
resolution fails is the fault of the instruction, after the entries before it have been written (10 R351 to R357). -/
def Obligations.ResolveEntries : Prop :=
  ∀ (c : Fin 800) (t : Fin 16) (f : Fields) (s : State),
    let n := bits f.imm.toNat 0 13
    let cw := (s.sreg c t f.srcc.toNat).toNat
    let i : Eres :=
      { core := c, out := (s.sreg c t f.srca.toNat).toNat, rows := (s.sreg c t f.srcb.toNat).toNat, n := n
        serve := modBit f 16, noHot := modBit f 17, cw := cw
        hdr := if bits cw 8 24 % 64 = 0 ∧ bits cw 8 24 + 64 ≤ ownBytes c then s.rdB (keyOwn c (bits cw 8 24)) 64 else [] }
    let list := (List.range n).map (fun j => (j, s.rd (keyOwn c (i.rows + 8 * j)) 8))
    let ends (word : Nat) (cells : List (Nat × Byte)) (tr : Trav) : Out :=
      .next (passed tr.s (tr.s.startReads
        { newXfer c t false (scalarDest f.dst.toNat) (.result f.dst.toNat word []) with late := cells } tr.units) c t)
    let fails (code a : Nat) (u : State) : Out :=
      .next ((u.countIssue c).raise c t (s.pc c t) [wholeAt code a] (instrWord 3 0x30 f))
    (modBit f 16 = true → modBit f 17 = false) →
    Runs s c t f { dst := some .s, a := some .s, b := some .s, c := some .s, mod := 3, imm := 0x1FFF }
      (isMatrix c || n == 0 || decide (4096 < n)) → eresFaults i = [] →
    (modBit f 16 = false → ∀ d tr es tr', (eresDesc i).run ⟨s, [], 0⟩ = (.ok (some d), tr) →
      (resolveAll (resolveReq i d) list tr = (es, none, tr') → tr'.s.pc c t = s.pc c t →
        exec (.eres c t f) s = ends (eresWord false d.ver d.dirVer es) (entryCells c i.out es) tr')
      ∧ ∀ code a, resolveAll (resolveReq i d) list tr = (es, some (code, a), tr') →
        exec (.eres c t f) s = fails code a (tr'.s.wrCells (entryCells c i.out es)))
    ∧ (modBit f 16 = true → ∀ d tr es tr', (eresDesc i).run ⟨s, [], 0⟩ = (.ok d, tr) →
      let late : Trav := { tr' with s := tr'.s.countLate (clusterOf c) es }
      (resolveAll (resolveServe i d) list tr = (es, none, tr') → tr'.s.pc c t = s.pc c t →
        exec (.eres c t f) s = ends (eresWord true 0 0 es) (entryCells c i.out es) late)
      ∧ ∀ code a, resolveAll (resolveServe i d) list tr = (es, some (code, a), tr') →
        exec (.eres c t f) s = fails code a (late.s.wrCells (entryCells c i.out es)))
    ∧ (∀ st tr, (eresDesc i).run ⟨s, [], 0⟩ = (.error (.status st), tr) → tr.s.pc c t = s.pc c t →
      exec (.eres c t f) s = ends (st * 2 ^ 13) [] tr)
    ∧ (∀ code a tr, (eresDesc i).run ⟨s, [], 0⟩ = (.error (.fault code a), tr) → exec (.eres c t f) s = fails code a s)
end

namespace Sys2Proof.Machine

/-! ### Streams that are fed (09 R325 to R334) and the base engines (08 R298 to R307) -/

/-- FEEDER_CREDIT_RETURN sends each feeder of a KIND 4 stream a credit-return token with the count of chunks consumed, and
forgets the count (09 R330). -/
def feederCreditLaw : Prop :=
  ∀ (c : Fin 800) (q : Fin 16) (s : State), Clocked s →
    let st := s.stream c q
    st.isOpen = true → st.kind = 4 → st.unreturned ≠ 0 → (∀ g ∈ st.feeders, g < 800) →
    Gives (exec (.feederCreditReturn c q) s) (fun u => u.stream c q = { st with unreturned := 0 }
      ∧ u.e.toks = s.e.toks ++ st.feeders.map (fun g =>
        mkTok 0 (clusterOf g) (subOf g) (clusterOf c) (subOf c) st.credChannel st.unreturned))

/-- POOL_GROUP_ISSUE of an open KIND 5 stream that has credit for its next group sends the group to the base engine of
the section and takes the credit (09 R332, R333). -/
def poolGroupsLaw : Prop :=
  ∀ (c : Fin 800) (q : Fin 16) (s : State), Clocked s →
    let st := s.stream c q
    let first := st.group * st.poolGroup
    let n := min st.poolGroup (st.nrows - first)
    (s.taskRuns c = true ∨ first < st.rowsTaken + s.rowsWanted c q) → st.isOpen = true → st.closing = false → st.kind = 5 →
    first < st.nrows →
    n * st.rowChunks ≤ st.credits →
    Gives (exec (.poolGroupIssue c q) s) (fun u =>
      u.stream c q = { st with group := st.group + 1, credits := st.credits - n * st.rowChunks }
      ∧ ∃ x, u.b.cmds = s.b.cmds ++ [x] ∧ x.stack = sectionOf c ∧ x.stream = some (q.val, first) ∧ x.hdr.op = 1
        ∧ x.hdr.nseg = n ∧ x.thread = 16 + q.val)
end Sys2Proof.Machine

section
open Sys2Proof Sys2Proof.Machine

/-- Streams that gathers feed (09 R330) and streams that pools feed (09 R332, R333). -/
def Obligations.FedStreams : Prop := feederCreditLaw ∧ poolGroupsLaw
end

namespace Sys2Proof.Machine

/-- GATHER, POOL, SCATTER_ADD and ROW_UPDATE run a command whose turn it is and that nothing rejects, with the payload that
stands at the requester when they run (assumption 54): it asks its rows' owner engines for its reads, a ROW_UPDATE then for the tables
of its groups and for its journal (13 R461), a command that writes then for its writes, and has its effect once
all have been granted (01 R40), results for a cluster behind the replies that went there before them (01 R27); a bad payload gives
status 2 (08 R301, R305).  COMMAND_COMPLETION of a command that has run, or that is rejected, once the writes of the command and of its
engine have been accepted and the replies before it have crossed, writes its completion word, sends its signal and returns its berth
(R306, 01 R27, R36); the token's SRC_SUB is the engine that the model gives the command (assumption 60). -/
def baseCommandsLaw : Prop :=
  ∀ (st : Fin 8) (id : Nat) (s : State) (x : BCmd), Clocked s →
    (∀ sl, s.cmdReady st id = some x → s.cmdRejected x = false → s.slot st x.hdr.table = some sl →
      let p := s.payloadOf x sl
      let bad := p.bad || (x.hdr.op == 1 && endsBad p.idx.length 0 p.ends)
      let behind := decide (x.hdr.op < 2) && s.repliesDue st (clusterOf x.core)
      let gives (o : Out) (run : State) : Prop :=
        (bad = true → o = .next (s.cmdDone x (some ⟨2, 0, 0, []⟩)))
        ∧ (bad = false → s.cmdAsks id = true → o = .next s)
        ∧ (bad = false → s.cmdAsks id = false → ∀ s', s.askNext x sl p = some s' → o = .next s')
        ∧ (bad = false → s.cmdAsks id = false → s.askNext x sl p = none → behind = true → o = .next s)
        ∧ (bad = false → s.cmdAsks id = false → s.askNext x sl p = none → behind = false → o = .next run)
      (x.hdr.op = 0 → gives (exec (.gather st id) s) (s.runRead x sl p))
      ∧ (x.hdr.op = 1 → gives (exec (.pool st id) s) (s.runRead x sl p))
      ∧ (x.hdr.op = 2 → gives (exec (.scatterAdd st id) s) (s.runScatter x sl p))
      ∧ (x.hdr.op = 3 → gives (exec (.rowUpdate st id) s) (s.runUpdate x sl p)))
    ∧ (∀ sl p, (x.asked = 0 → s.askNext x sl p = some (s.askCmd x sl p))
      ∧ (x.hdr.op = 2 → x.asked = 1 → s.askNext x sl p = some (s.askWrites x sl p))
      ∧ (x.hdr.op = 3 → x.asked = 3 → s.askNext x sl p = some (s.askWrites x sl p))
      ∧ ((x.asked = 1 ∧ x.hdr.op < 2 ∨ x.asked = 4) → s.askNext x sl p = none))
    ∧ (s.b.cmds.find? (fun (y : BCmd) => y.id == id && y.stack == st.val) = some x → x.done = none → x.dead = false →
      s.cmdRejected x = true →
      (s.completionWaits x = true → exec (.commandCompletion st id) s = .next s)
      ∧ (s.completionWaits x = false → exec (.commandCompletion st id) s = .next (s.complete x ⟨1, 0, 0, []⟩)))
    ∧ (∀ d, s.b.cmds.find? (fun (y : BCmd) => y.id == id && y.stack == st.val) = some x → x.done = some d →
      x.stream = none → x.thread < 16 → x.core < 800 → x.hdr.statusOff + 8 ≤ 2 ^ 22 →
      (s.completionWaits x = true → exec (.commandCompletion st id) s = .next s)
      ∧ (s.completionWaits x = false → Gives (exec (.commandCompletion st id) s) (fun u =>
        u.rd (keyOwn x.core x.hdr.statusOff) 8 = (d.status + d.invalid % 2 ^ 16 * 2 ^ 16) % 2 ^ 64
        ∧ u.flags x.core x.thread = s.flags x.core x.thread ||| d.fl
        ∧ u.e.toks = s.e.toks ++ [mkTok 1 (clusterOf x.core) (subOf x.core) (40 + st.val) (x.core % 16) x.hdr.channel 1]
        ∧ ∀ y ∈ u.b.cmds, y.id ≠ id)))
end Sys2Proof.Machine

section
open Sys2Proof Sys2Proof.Machine

/-- A base command from its issue (09 R320 to R322) through its run and its completion (08 R301, R305, R306). -/
def Obligations.BaseCommandLife : Prop := baseCommandIssueLaw ∧ baseCommandsLaw
end

namespace Sys2Proof.Machine

/-! ### The fabric (11 R377 to R408) -/

/-- A frame that a lambda has taken: its link fields are noted, its credits are freed. -/
def accepted (s : State) (l : Nat) (b : List Byte) : State :=
  (s.linkIn l b).freeCredits l (hTc b) (creditsOf (hLen b))

/-- The same for a frame of a partition, whose counter enters the window of R403. -/
def acceptedFrom (s : State) (l : Nat) (b : List Byte) (p c : Nat) : State :=
  (accepted s l b).noteCtr p (hSrc b) c

/-- A frame whole and unhurt that the receive side of a lambda takes now (R387, R393). -/
def Taken (s : State) (l : Nat) (b : List Byte) : Prop := frameSized b = true ∧ crcOk b = true ∧ s.takes l b = true

/-- Whether a row is one of a frame that may be a partition's. -/
def PartRow (at_ : Fin 256) (b : List Byte) (row : Instr) : Prop :=
  row ∈ [ Instr.tokenFrame at_ b, .collectiveLeaf at_ b, .collectivePartial at_ b, .lateMarker at_ b, .gatherFlight at_ b,
    .gatherReach at_ b, .coachSegment at_ b, .vote (.lambda at_ b), .snapshotData at_ b, .snapshotAck (.lambda at_ b),
    .snapshotRefusal (.lambda at_ b), .migrationRecord at_ b ]

/-- Whether a row is one of a frame between ports. -/
def MgmtRow (at_ : Fin 256) (b : List Byte) (row : Instr) : Prop :=
  row ∈ [Instr.idleFrame at_ b, .linkstate at_ b, .linkquery at_ b, .linkreply at_ b]

/-- The link fields of a frame taken on lambda `l`, while it draws no 16th NAK: its sequence number is the last accepted, an
acknowledgement is owed, what its own acknowledges leaves the replay buffer, its payload's credits are freed, and no other
lambda changes (R389, R393). The 16th NAK in a row makes the lambda retrain (R394). Which lambda a port and a wavelength name,
and that returned credits free the oldest frames of their class, are the model's readings (assumptions 75, 81). -/
def linkFieldsLaw : Prop :=
  ∀ (l : Nat) (b : List Byte) (s : State), l < 256 → (s.lam l).freed.length = 4 →
    let a := accepted s l b
    let rest := unacked (hAck b) (s.lam l).replay
    ((s.lam l).naks < 15 → (a.lam l).rxLast = some (hSeq b) ∧ (a.lam l).ackDue = true ∧ (a.lam l).replay = rest
      ∧ (a.lam l).freed.getD (hTc b) 0 = (s.lam l).freed.getD (hTc b) 0 + creditsOf (hLen b)
      ∧ a.regs = s.regs ∧ ∀ k, k ≠ l → a.lam k = s.lam k)
    ∧ (15 ≤ (s.lam l).naks → hNak b = true → rest.length = (s.lam l).replay.length → a.lstate l = lsRetrain)

/-- What the checks make of a frame that arrives at a place, on the lambda `l` of that port and wavelength (R378): a CRC that
does not match discards it and owes a NAK; a check of R387 that fails discards it and counts it. The polynomial of the CRC and
the check of PTAG 0 are the model's choice (assumptions 85, 78). -/
def frameChecksLaw : Prop :=
  ∀ (at_ : Fin 256) (b : List Byte) (s : State), frameSized b = true →
    let l := s.lamAt at_
    ∀ row, PartRow at_ b row ∨ MgmtRow at_ b row →
      (s.lamUp l = true → crcOk b = false → exec row s = .next (s.badFrame l))
      ∧ (crcOk b = true → s.takes l b = false → exec row s = .next s)
      ∧ (∀ f, Taken s l b → s.fate b = .drop f → exec row s = .next (s.dropFrame l b f))

/-- A HELLO noted on a lambda (R382): a peer at its own position is kept with its FEED_ID, build and nonce (at the bytes +2, +4 and +8 of
the payload, which is the model's choice, assumption 22), and a lambda that is ABSENT, MISWIRED or DOWN trains where it has light (R384)
and is DOWN where it has none (R406); another position makes the lambda MISWIRED, with a report the first time. -/
def helloNotedLaw : Prop :=
  ∀ (l : Nat) (d : List Byte) (s : State), l < 256 →
    let u := s.noteHello l d
    let pos := helloPos d
    (pos = s.peerOf l →
      (u.lam l).peerPos = pos ∧ (u.lam l).feed = some (bits (leNat ((d.drop 2).take 2)) 0 3)
      ∧ (u.lam l).build = leNat ((d.drop 4).take 4) ∧ (u.lam l).nonce = leNat ((d.drop 8).take 8)
      ∧ u.lstate l = (if s.lstate l = lsAbsent ∨ s.lstate l = lsMiswired ∨ s.lstate l = lsDown then
          (if s.lit l then lsTraining else lsDown)
        else s.lstate l))
    ∧ (pos ≠ s.peerOf l → s.lstate l ≠ lsMiswired → u.lstate l = lsMiswired
      ∧ u = ((s.setLam l { s.lam l with peerPos := pos, trained := false }).leaveUp l lsMiswired).file 0x0035 clsNotice 4
          (lamPort l) pos)
    ∧ (pos ≠ s.peerOf l → s.lstate l = lsMiswired → u = s)

/-- HELLO on a lambda that is neither the loopback nor shuttered, once the device has its position: it is noted, from the
training pattern (whose 16-byte frame is the model's choice, assumption 22) or from a frame of a lambda that is UP (R382, R384). -/
def helloLaw : Prop :=
  ∀ (at_ : Fin 256) (b : List Byte) (s : State), s.on FAB_POS_VALID = true →
    let l := s.lamAt at_
    frameSized b = true → crcOk b = true → hType b = 6 → s.isLoop l = false →
    (s.lamUp l = false → s.lstate l ≠ lsShuttered → s.on (OP_LASER_SHUT (lamPort l)) = false → headOk b = true → hLen b = 16 →
      exec (.hello at_ b) s = .next (s.noteHello l (hPay b)))
    ∧ (∀ d, s.takes l b = true → s.fate b = .pass none 0 d → d.length = 16 →
      exec (.hello at_ b) s = .next ((accepted s l b).noteHello l d))

/-- LINKSTATE_SEND of a device that has its position sends the usable lambdas to every peer that it reaches, on its own lambda
or by two hops, and sets RUN (R383, R398). -/
def linkstateSendLaw : Prop :=
  ∀ s : State, Clocked s →
    (s.on FAB_POS_VALID = true → Gives (exec .linkstateSend s) (fun u => u.fld FAB_CTRL_RUN = 1
      ∧ (∀ g : Fld, g.key ≠ FAB_CTRL_RUN.key → u.fld g = s.fld g) ∧ u.m = s.m ∧ u.fab.sent = s.fab.sent ∧ u.fab.lams = s.fab.lams
      ∧ u.fab.outq = s.fab.outq ++ ((List.range 256).filter (fun l => !s.isLoop l
          && (s.lamUp l || (s.routeOf (s.peerOf l)).isSome))).map (fun l =>
        (⟨0, none, s.peerOf l, 7, leBytes 32 s.linkBits, none, if s.lamUp l then some l else none, 8, false, none⟩ : FOut))))
    ∧ (s.on FAB_POS_VALID = false → exec .linkstateSend s = .next s)
end Sys2Proof.Machine

section
open Sys2Proof Sys2Proof.Machine

/-- A frame that the receive side of a lambda takes (R387, R393). Its sequence number is the last accepted, an acknowledgement
is owed, what its own acknowledges leaves the replay buffer, and its payload's credits are freed. One that fails a check is
discarded and counted. IDLE does no more; LINKSTATE gives the usable lambdas of the peer that sent it; HELLO is noted;
LINKQUERY closes the receive side it asks about and answers; LINKREPLY empties the replay buffer of a lambda that asked; one
whose payload has not the form of its type is discarded; a TOKEN frame's token enters the towpath (R382, R386, R387, R395,
R398). That a LINKSTATE's 256 bits are kept by the lambda they came on, and that LINKQUERY and LINKREPLY mean the lambda
between the two devices, whose reply has a payload of 2 bytes, is the model's reading (assumption 77); the layout and the
16-byte frame of a HELLO are its choice (assumption 22). -/
def Obligations.FramesReceived : Prop :=
  linkFieldsLaw ∧ frameChecksLaw ∧ helloLaw ∧
  ∀ (at_ : Fin 256) (b : List Byte) (s : State),
    let l := s.lamAt at_
    let a := accepted s l b
    Taken s l b → (s.lam l).naks < 15 →
    (∀ d, s.fate b = .pass none 0 d →
      (hType b = 0 → exec (.idleFrame at_ b) s = .next a)
      ∧ (∀ k, hType b = 7 → s.lamTo (hSrc b) = some k →
        (d.length = 32 → exec (.linkstate at_ b) s = .next (a.setLam k { a.lam k with peerUp := leNat d }))
        ∧ (d.length ≠ 32 → exec (.linkstate at_ b) s = .next (s.dropFrame l b FAB_DROP_ROUTE)))
      ∧ (∀ k, hType b = 8 → s.lamTo (hSrc b) = some k → exec (.linkquery at_ b) s = .next
        ((a.setLam k { a.lam k with closed := true }).sendMgmt (hSrc b) 9 none (leBytes 2 ((a.lam k).rxLast.getD 4095))))
      ∧ (∀ k, hType b = 9 → d.length = 2 → s.lamTo (hSrc b) = some k → (a.lam k).querying = true → a.lamUp k = false →
        exec (.linkreply at_ b) s = .next ((a.setLam k { a.lam k with querying := false, replay := [], crs := [], used := [] }).requeue
          (unacked (leNat d % 4096) (a.lam k).replay))))
    ∧ (∀ p c d, s.fate b = .pass (some p) c d → hType b = 1 → d.length = 8 →
      exec (.tokenFrame at_ b) s = .next ((acceptedFrom s l b p c).sendTok (BitVec.ofNat 64 (leNat d))))

end

namespace Sys2Proof.Machine

/-- Light (R405 to R408).  A loss on input A moves an engine to a complete input B, USE_A moves it back to a complete A;
with neither complete every lambda of it is DOWN and it reports both, and an input that is whole again supplies it (assumption 87).  A
shuttered port shows its lambdas SHUTTERED, probes, and
opens while the dies run and the device is not drained: without light its lambdas are DOWN; with light one that has trained before
retrains with its replay buffer, and the others wait for their peers or train;
LASER_ENABLE_DROP clears one of the two enables, or, in the laser shutdown, both, with every port shuttered.  In the fail-safe state
nothing of this runs but the last (18 R592). -/
def lightLaw : Prop :=
  (∀ (e : Fin 8) (s : State),
    (Clocked s → s.standing = false → Gives (exec (.useA e true) s) (fun u =>
      u.fld (OP_LASER_SRC (2 * e)) = 0 ∧ u.fld (OP_LASER_A_OK (2 * e)) = 1))
    ∧ (Clocked s → Gives (exec (.laserSwitch e true) s) (fun u =>
      u.fld (OP_LASER_SRC (2 * e)) = 1 ∧ u.fld (OP_LASER_A_OK (2 * e)) = 0 ∧ u.fld (OP_LASER_B_OK (2 * e)) = 1))
    ∧ (Clocked s → ∀ a b : BitVec 8, a ≠ 0 → b ≠ 0 → exec (.laserSupply e a b) s = .next (s.darkEngine e a.toNat b.toNat)
      ∧ let u := s.darkEngine e a.toNat b.toNat
        u.on (OP_LASER_A_OK (2 * e)) = false ∧ u.on (OP_LASER_B_OK (2 * e)) = false
        ∧ (∀ l ∈ lamsOfEngine e, u.lstate l = lsDown ∧ u.lamUp l = false)
        ∧ (∀ l < 256, l ∉ lamsOfEngine e → u.lstate l = s.lstate l))
    ∧ (Clocked s → ∀ b : BitVec 8, Gives (exec (.laserSupply e 0 b) s) (fun u => u.on (OP_LASER_A_OK (2 * e)) = true
      ∧ u.fld (OP_LASER_SRC (2 * e)) = s.fld (OP_LASER_SRC (2 * e)) % 2)))
  ∧ (∀ (n : Fin 32) (s : State),
    (s.on (OP_LASER_SHUT n) = false → Gives (exec (.portShutter n) s) (fun u => u = s.shutPort n
      ∧ u.on (OP_LASER_SHUT n) = true ∧ ∀ l ∈ lamsOfPort n, u.lstate l = lsShuttered))
    ∧ (Clocked s → s.on (OP_LASER_SHUT n) = true → Gives (exec (.shutterProbe n) s) (fun u =>
      Tab.get u.fab.probes 0 n = Tab.get s.fab.probes 0 n + 1 ∧ u.regs = s.regs))
    ∧ (s.on (OP_LASER_SHUT n) = true → s.on HUB_RISK_DRAINED = false → s.dieUp = true →
      let light := (s.fab.enA && s.on (OP_LASER_A_OK n)) || (s.fab.enB && s.on (OP_LASER_B_OK n))
      Gives (exec (.portOpen n) s) (fun u => u.fld (OP_LASER_SHUT n) = 0
        ∧ ∀ l ∈ lamsOfPort n, (light = false → u.lstate l = lsDown)
          ∧ (light = true → s.isLoop l = false →
            ((s.lam l).trained = true → u.lstate l = lsRetrain)
            ∧ ((s.lam l).trained = false → (s.lam l).feed = none → u.lstate l = lsAbsent)
            ∧ ((s.lam l).trained = false → (s.lam l).feed ≠ none → (s.lam l).peerPos = s.peerOf l → u.lstate l = lsTraining)))))
  ∧ (∀ s : State, exec (.laserEnableDrop .a) s = .next { s with fab := { s.fab with enA := false } }
    ∧ exec (.laserEnableDrop .b) s = .next { s with fab := { s.fab with enB := false } }
    ∧ Gives (exec (.laserEnableDrop .both) s) (fun u => u.fab.enA = false ∧ u.fab.enB = false
      ∧ ∀ n : Fin 32, u.on (OP_LASER_SHUT n) = true))
end Sys2Proof.Machine

section
open Sys2Proof Sys2Proof.Machine

/-- FAB_CTRL.START before RUN, on a device whose hub is up (R383, R405): FABRIC_BRING_UP completes. With every laser input
complete both modules are enabled and every lambda sends its HELLO; with its own light on one port and wavelength of each
plane the device takes its position, the two lambdas are LOOP, and every lambda sends a HELLO that names it; with any other
light it has no position, whatever an earlier START found (R381). An engine that no input supplies leaves its lambdas not UP
and the device without a position (R406). HELLO and LINKSTATE_SEND go on from there (R382, R384, R398). The light of the
engines and ports: LASER_SWITCH, USE_A, LASER_SUPPLY, PORT_SHUTTER, SHUTTER_PROBE, PORT_OPEN and LASER_ENABLE_DROP complete as
R405 to R408 say. The bytes of a HELLO are the model's choice (assumption 22), and so are that the laser enables go high at
bring-up (assumption 6), that START does nothing before READY or after RUN and stops where an engine has no light (assumption
84), and that an engine without light takes all its 32 lambdas DOWN (assumption 87). -/
def Obligations.BringUp : Prop :=
  helloNotedLaw ∧ helloLaw ∧ linkstateSendLaw ∧ lightLaw ∧
  ∀ (s : State) (light : BitVec 256), s.hubUp = true → s.standing = false → s.on HUB_FW_STATUS_READY = true → s.on FAB_CTRL_RUN = false →
    (∀ f r : Nat, indexFrom light 0 = [f] → indexFrom light 1 = [r] →
      Gives (exec (.fabricBringUp light (BitVec.allOnes 128)) s) (fun u =>
        u.fld FAB_POS_FLIGHT = f % 128 ∧ u.fld FAB_POS_REACH = r % 128 ∧ u.fld FAB_POS_VALID = 1
        ∧ u.lstate f = lsLoop ∧ u.lstate (128 + r) = lsLoop ∧ u.fab.enA = true ∧ u.fab.enB = true
        ∧ u.fab.sent.length = s.fab.sent.length + 512 ∧ (s.fab.outq = [] → u.fab.outq = []) ∧ u.m = s.m))
    ∧ (((indexFrom light 0).length ≠ 1 ∨ (indexFrom light 1).length ≠ 1) →
      Gives (exec (.fabricBringUp light (BitVec.allOnes 128)) s) (fun u =>
        u.on FAB_POS_VALID = false ∧ u.fab.sent.length = s.fab.sent.length + 256
        ∧ ∀ l < 256, s.lstate l ≠ lsShuttered → u.lstate l = lsAbsent))
    ∧ (∀ (lasers : BitVec 128) (e : Fin 8), bits lasers.toNat (16 * e) 8 ≠ 255 → bits lasers.toNat (16 * e + 8) 8 ≠ 255 →
      Gives (exec (.fabricBringUp light lasers) s) (fun u => u.on FAB_POS_VALID = false
        ∧ u.on (OP_LASER_A_OK (2 * e)) = false ∧ u.on (OP_LASER_B_OK (2 * e)) = false
        ∧ ∀ l ∈ lamsOfEngine e, u.lamUp l = false))
end

namespace Sys2Proof.Machine

/-- The states of a lambda (R383, R393 to R395).  After training a lambda with light, whose peer has named its own position
and whose replay buffer is resolved, is UP with nothing to replay and expects the peer's initial sequence number; after
retraining it is UP and sends again what the peer has not accepted; a lambda that is DOWN trains first.  2 µs without a
codeword make an UP lambda RETRAIN; a failed retraining makes it DOWN, keeps its replay buffer and asks the peer what it took.
RETRANSMIT sends every frame of the replay buffer again, in order; a frame with an error owes a NAK; an IDLE frame carries what
is owed, when the port grants it. -/
def lambdaStatesLaw : Prop :=
  ∀ (l : Fin 256) (s : State),
    (∀ seq : BitVec 12, s.isLoop l = false → s.lit l = true →
      let rest := unacked seq.toNat (s.lam l).replay
      (s.lstate l = lsRetrain → Gives (exec (.lambdaUp ⟨l, seq⟩) s) (fun u => u.lstate l = lsUp ∧ (u.lam l).closed = false
        ∧ (u.lam l).replay = rest ∧ (u.lam l).resend = !rest.isEmpty ∧ u.fab.outq = s.fab.outq))
      ∧ (s.lstate l = lsTraining → (s.lam l).feed.isSome = true → (s.lam l).peerPos = s.peerOf l →
          ((s.lam l).querying = false ∨ (s.lam l).replay = []) → Gives (exec (.lambdaUp ⟨l, seq⟩) s) (fun u => u.lstate l = lsUp
        ∧ (u.lam l).replay = [] ∧ (u.lam l).used = [] ∧ (u.lam l).closed = false
        ∧ (u.lam l).rxLast = some ((seq.toNat + 4095) % 4096) ∧ (u.lam l).txSeq = Config.freeValue s.freeCtr % 4096))
      ∧ (s.lstate l = lsDown → exec (.lambdaUp ⟨l, seq⟩) s = .next s))
    ∧ (∀ seq : BitVec 12, s.lit l = false → exec (.lambdaUp ⟨l, seq⟩) s = .next s)
    ∧ (s.lamUp l = true → exec (.lambdaRetrain l) s =
      .next ((s.leaveUp l lsRetrain).count (OP_LINK_RETRAINS (lamPort l)) 1))
    ∧ (s.lstate l = lsRetrain → Gives (exec (.lambdaDown l) s) (fun u => u = s.goDown l ∧ (u.lam l).querying = true
      ∧ u.lstate l = lsDown ∧ (u.lam l).replay = (s.lam l).replay))
    ∧ (s.lamUp l = true → (s.lam l).resend = true → Gives (exec (.retransmit l) s) (fun u =>
      (u.lam l).replay = (s.lam l).replay ∧ (u.lam l).resend = false
      ∧ u.fab.sent.length = s.fab.sent.length + (s.lam l).replay.length))
    ∧ (∀ (at_ : Fin 256) (b : List Byte) (ce ue : BitVec 8), s.lamAt at_ = l.val → s.lamUp l = true →
      let s1 := (s.count (OP_FEC_CE (lamPort l)) ce.toNat).count (OP_FEC_UE (lamPort l)) ue.toNat
      ((ue ≠ 0 ∨ crcOk b = false) → exec (.frameCrcError at_ ⟨b, ce, ue⟩) s = .next (s1.badFrame l)
        ∧ ((s1.badFrame l).lam l).nakDue = true ∧ ((s1.badFrame l).lam l).rxLast = (s.lam l).rxLast
        ∧ ((s1.badFrame l).lam l).freed = (s.lam l).freed)
      ∧ (ue = 0 → crcOk b = true → exec (.frameCrcError at_ ⟨b, ce, ue⟩) s = .next s1))
    ∧ (let x := s.lam l
       let o := s.idleOut l
       s.lamUp l = true → s.isLoop l = false → (x.ackDue || x.nakDue || x.freed.any (· != 0)) = true → o ∉ s.fab.outq →
        exec (.creditIdleSend l) s = .next (s.queueFrame o)
        ∧ let u := (s.queueFrame o).grantFrame o l
          (u.lam l).ackDue = false ∧ (u.lam l).nakDue = false ∧ u.fab.sent.length = s.fab.sent.length + 1
          ∧ u.fab.outq = s.fab.outq)

/-- The rounds of the 32 port arbiters. -/
def portRoundLaw : Prop :=
  ∀ (inst : Fin 1824) (s : State), s.dieUp = true → 512 ≤ inst.val → inst.val < 544 →
    let n := inst.val - 512
    let s1 := s.startRound inst
    ((∀ r, r < 16 → s1.frameOf n r = none) → Gives (exec (.arbiterRound inst []) s) (fun u => u.fab.sent = s.fab.sent))
    ∧ (∀ w kind o l, s1.pickWinner inst ((List.range 16).filter (fun r => (s1.frameOf n r).isSome)) = some (w, kind) →
      s1.frameOf n w = some (o, l) → Gives (exec (.arbiterRound inst []) s) (fun u =>
        u.fab.sent = ((s1.noteWinner inst w kind).grantFrame o l).fab.sent
        ∧ u.fab.outq = dropFirst (· == o) s1.fab.outq))
end Sys2Proof.Machine

section
open Sys2Proof Sys2Proof.Machine

/-- A frame for another device goes on once, to a lambda that is UP, with HOP set; where the next lambda is not UP it goes
back to its source; a second hop, or no next lambda, discards it and frees its credits (R397).  A frame that comes back is
queued again with its bytes (R397).  A round of a port sends the frame of the winner of its arbiter; where none may start,
nothing leaves (R391).  What a lambda that leaves or reaches UP does with its frames: LAMBDA_UP, LAMBDA_RETRAIN, LAMBDA_DOWN,
RETRANSMIT, FRAME_CRC_ERROR and CREDIT_IDLE_SEND complete as R393 to R395 say. -/
def Obligations.Forwarding : Prop :=
  portRoundLaw ∧ lambdaStatesLaw ∧ ∀ (at_ : Fin 256) (b : List Byte) (s : State),
    let l := s.lamAt at_
    let s1 := s.linkIn l b
    let n := creditsOf (hLen b)
    let wire := b.take 8 ++ hPay b
    let fo : FOut := ⟨1, none, hDst b, hType b, [], none, none, 9, false, some (l, hTc b, n)⟩
    Taken s l b → hDst b ≠ s.me →
    (∀ o, (hBnc b = false ∨ hSrc b ≠ s.me) → hHop b = false → hType b ≠ 0 →
      ((hDst b % 128 = s.flight ∧ o = 128 + hDst b / 128)
        ∨ (hDst b % 128 ≠ s.flight ∧ hDst b / 128 = s.reach ∧ o = hDst b % 128)) →
      (s1.lamUp o = true → s1.isLoop o = false → exec (.frameForward at_ b) s =
        .next (s1.queueFrame { fo with wire := some (setHop wire true), lam := some o, bnc := hBnc b }))
      ∧ (s1.lamUp o = false → exec (.frameForward at_ b) s = .next (s1.bounceOne { fo with wire := some wire, lam := some o })))
    ∧ ((hBnc b = false ∨ hSrc b ≠ s.me) → (hHop b = true ∨ (hDst b % 128 ≠ s.flight ∧ hDst b / 128 ≠ s.reach)) →
      exec (.frameForward at_ b) s = .next ((s1.count FAB_DROP_ROUTE 1).freeCredits l (hTc b) n))
    ∧ (hBnc b = true → hSrc b = s.me → Gives (exec (.bounceResend at_ b) s) (fun u => ∃ o,
      u.fab.outq = s1.fab.outq ++ [o] ∧ o.wire = some wire ∧ o.dst = hDst b ∧ o.lam = none))
end

section
open Sys2Proof Sys2Proof.Machine

/-- The states of a lambda and of its light (11 R381 to R408): where LAMBDA_UP, LAMBDA_RETRAIN, LAMBDA_DOWN, RETRANSMIT,
FRAME_CRC_ERROR, CREDIT_IDLE_SEND, LINKSTATE_SEND, USE_A, LASER_SWITCH, LASER_SUPPLY, PORT_SHUTTER, SHUTTER_PROBE, PORT_OPEN and
LASER_ENABLE_DROP complete, and what they leave. -/
def Obligations.LambdasAndLight : Prop := lambdaStatesLaw ∧ linkstateSendLaw ∧ lightLaw
end

namespace Sys2Proof.Machine

/-! ### Collectives and exchanges (12 R409 to R438, 13 R456, R457) -/

/-- A doorbell token of channel `ch` that a port engine group takes for partition `p` (12 R412); in HOLD it waits (14 R480). -/
def DoorbellTaken (s : State) (tok : Word) (ch p : Nat) : Prop :=
  Clocked s ∧ s.holding p = false ∧ tokKind tok = 1 ∧ 48 ≤ tokDstNode tok ∧ tokDstNode tok < 56
    ∧ tokDstSub tok = 0 ∧ tokChannel tok = ch
    ∧ s.tokFirst tok = true ∧ (s.takeTok tok).secPart (tokDstNode tok - 48) = some p

/-- The ring slot that a doorbell names, in the section of its port engine group. -/
def ringSlot (s : State) (tok : Word) (p : Nat) : Nat :=
  (s.takeTok tok).ringKey p (tokDstNode tok - 48) + 64 * bits tok.toNat 0 8

/-- The 64 bytes of that slot, and the state once the token is taken and the slot's BUSY word cleared. -/
def ringBytes (s : State) (tok : Word) (p : Nat) : List Byte := (s.takeTok tok).rdB (ringSlot s tok p) 64
def slotFreed (s : State) (tok : Word) (p : Nat) : State := (s.takeTok tok).wr (ringSlot s tok p + 0x3C) 4 0

/-- Whether VALUE names a ring slot, and the slot is BUSY with the form. -/
def slotFits (s : State) (tok : Word) (p form : Nat) : Prop :=
  bits tok.toNat 8 16 = 0 ∧ bits (wordAt (ringBytes s tok p) 0x3C) 0 1 = 1 ∧ bits (wordAt (ringBytes s tok p) 0x3C) 1 2 = form
end Sys2Proof.Machine

section
open Sys2Proof Sys2Proof.Machine

/-- Doorbells of a port engine group (12 R411 to R413, R422, R435). A contribution of the running step that R413 does not
reject is taken: its slot is released and its leaf is read; a pair already posted changes no more. Any other contribution, and
a slot that does not fit, is reported. An exchange descriptor without a reserved field, the first of its XID, whose coaches
can be read and all go to devices of the job, starts its exchange, in a step or in a serving batch (10 R375); one of a
destination outside the job, or of a coach that is not there, is reported; an uncorrectable codeword is recorded and fences
(08 R284). A doorbell of a section that no partition holds is reported (the model's own choice, assumption 159). That a second
posting of a pair changes nothing (assumption 89), that replies to an exchange wait for the verdict (assumption 160), and the
place of a doorbell's report (assumption 48) are the model's choice too. -/
def Obligations.Doorbells : Prop :=
  ∀ (tok : Word) (p : Nat) (s : State),
    let s1 := slotFreed s tok p
    let d := ringBytes s tok p
    let sec := tokDstNode tok - 48
    let reported := s1.collReject p sec (bits tok.toNat 0 8)
    (DoorbellTaken s tok 1 p →
      (slotFits s tok p 1 → s1.inStep p = true → s1.contribBad p d = false →
        exec (.contributionDoorbell tok) s = .next (s1.contribute p d)
        ∧ ((s1.job p).window.isSome = true → (s1.job p).posted.contains (bits (wordAt d 4) 0 14, bits (wordAt d 4) 14 10) = true →
          exec (.contributionDoorbell tok) s = .next s1))
      ∧ (¬ slotFits s tok p 1 ∨ s1.inStep p = false ∨ s1.contribBad p d = true →
        exec (.contributionDoorbell tok) s = .next reported))
    ∧ (DoorbellTaken s tok 2 p →
      (slotFits s tok p 2 → (s1.inStep p = true ∨ (s1.job p).serving.isSome = true) → exchBad d = false →
        (s1.exch p (xXid d)).any (fun x => x.desc.isSome) = false →
        let seen := s1.coachesSeen p (xAddr d 0x08) (xN d)
        (∀ cs, s1.listCoaches p (xAddr d 0x08) (xN d) = some cs →
          exec (.exchangeDoorbell tok) s = .next (if cs.all (fun c => (s1.job p).devices.contains c.1) then
            seen.startExch p sec (if tokSrcNode tok < 40 then 100 + tokSrcNode tok else 100 + 5 * sec) d cs else reported))
        ∧ (s1.listCoaches p (xAddr d 0x08) (xN d) = none → exec (.exchangeDoorbell tok) s =
          .next (if s1.listLost p (xAddr d 0x08) (xN d) then seen else reported)))
      ∧ (¬ slotFits s tok p 2 ∨ (s1.inStep p = false ∧ (s1.job p).serving = none) ∨ exchBad d = true →
        exec (.exchangeDoorbell tok) s = .next reported))
    ∧ (Clocked s → tokKind tok = 1 → 48 ≤ tokDstNode tok → tokDstNode tok < 56 → tokDstSub tok = 0 → s.tokFirst tok = true →
      s.secPart sec = none →
      let lost := (s.takeTok tok).file 0x0002 clsNotice 2 (tokDstNode tok) tok.toNat
      (tokChannel tok = 1 → exec (.contributionDoorbell tok) s = .next lost)
      ∧ (tokChannel tok = 2 → exec (.exchangeDoorbell tok) s = .next lost))
end

namespace Sys2Proof.Machine

/-- SPAN_UPDATE at a base engine group and HUB_SPAN_UPDATE at the hub update a span that has its final values, once: where no codeword
that they read has two bad symbols the command completes, the span is marked updated and its values stay (13 R456, R457); where one
has, that is recorded and no more happens (08 R284). -/
def spanUpdatesLaw : Prop :=
  ∀ (p g : Fin 8) (slot b k : Nat) (x : TSpan) (s : State), Clocked s →
    let elem := slot * chunkQ ((s.job p).len b) + k * s.spanLen p
    (s.job p).spans.find? (fun y => y.bucket == b && y.chunk == slot && y.elem == elem && !y.updated) = some x →
    let ks := s.spanReads p slot b elem x
    let marked (u : State) : Prop := { x with updated := true } ∈ (u.job p).spans
      ∧ (u.job p).spans.length = (s.job p).spans.length
      ∧ ∀ y ∈ (s.job p).spans, y.bucket ≠ b ∨ y.chunk ≠ slot ∨ y.elem ≠ elem → y ∈ (u.job p).spans
    (s.spanReady p 0 slot = true → slot % 8 = g.val →
      ((∀ c ∈ burstsOf ks, popCount (s.symbols c) ≤ 1) → Gives (exec (.spanUpdate g p slot b k) s) (fun u =>
        u = s.updateSpan p 0 g slot b k ∧ marked u))
      ∧ ((s.readKeys 8 ks).1 = none → exec (.spanUpdate g p slot b k) s = .next (s.readKeys 8 ks).2))
    ∧ (s.spanReady p 1 slot = true →
      ((∀ c ∈ burstsOf ks, popCount (s.symbols c) ≤ 1) → Gives (exec (.hubSpanUpdate p slot b k) s) (fun u =>
        u = s.updateSpan p 1 (s.lowSec p) slot b k ∧ marked u))
      ∧ ((s.readKeys 7 ks).1 = none → exec (.hubSpanUpdate p slot b k) s = .next (s.readKeys 7 ks).2))

/-- STRAGGLER_WINDOW_CLOSE of a step whose window is open completes: the window is shut, and every pair of a hosted slot and a
bucket that has not been posted is late (12 R429), while the list has room for all (R433). -/
def stragglerLaw : Prop :=
  ∀ (p : Fin 8) (s : State), Clocked s → s.stepping p = true → (s.job p).window.isSome = true → (s.job p).windowShut = false →
    (s.job p).late.length + ((s.job p).hosted s.me).length * (s.job p).buckets.length ≤ 65536 →
    Gives (exec (.stragglerWindowClose p) s) (fun u => (u.job p).windowShut = true
      ∧ (∀ slot ∈ (s.job p).hosted s.me, ∀ b ∈ (s.job p).bucketIdx, (slot, b) ∉ (s.job p).posted →
        ∃ y ∈ (u.job p).late, y.slot = slot ∧ y.bucket = b)
      ∧ (u.job p).posted = (s.job p).posted)

/-- A frame of a partition that arrives at a place, whose lambda takes it and whose tag and counter pass. -/
def Passes (s : State) (at_ : Fin 256) (b : List Byte) (typ p c : Nat) (d : List Byte) : Prop :=
  Taken s (s.lamAt at_) b ∧ hType b = typ ∧ s.fate b = .pass (some p) c d
end Sys2Proof.Machine

section
open Sys2Proof Sys2Proof.Machine

/-- Frames of the collectives and of the exchanges (12 R414, R418 to R421, R429, R436).  Each reaches its stage; what no
open stage of the running step takes is counted and dropped; a leaf that one takes is an input of stage 1 at its position, a
partial one of stage 2; what comes for the next step, from the last APPLIED on, is held until that starts (14 R478).  A segment
joins the stream of its source.  Spans of the reduced chunks are updated, and the straggler window closes: SPAN_UPDATE,
HUB_SPAN_UPDATE and STRAGGLER_WINDOW_CLOSE complete as 13 R456, R457 and 12 R429 say. -/
def Obligations.CollectiveFrames : Prop :=
  spanUpdatesLaw ∧ stragglerLaw ∧
  (∀ (l : Fin 256) (b : List Byte) (p c : Nat) (d : List Byte) (s : State),
    let a := acceptedFrom s (s.lamAt l) b p c
    (Passes s l b 3 p c d →
      (cKind d = 0 → cLate d = false → exec (.collectiveLeaf l b) s = .next (a.collIn p d))
      ∧ (cKind d = 1 → cLate d = false → exec (.collectivePartial l b) s = .next (a.collIn p d))
      ∧ (cKind d = 2 → cLate d = false → exec (.gatherFlight l b) s = .next (a.collIn p d))
      ∧ (cKind d = 3 → cLate d = false → exec (.gatherReach l b) s = .next (a.collIn p d))
      ∧ (cLate d = true → exec (.lateMarker l b) s = .next (a.collIn p d)))
    ∧ (Passes s l b 4 p c d → 16 ≤ d.length → bits (wordAt d 0) 17 15 = 0 → wordAt d 12 = 0 →
      (a.job p).devices.contains (hSrc b) = true →
      let now := (a.job p).appliedSent = false ∧ (a.atRest p = false ∨ a.on (STEP_CFG_SERVE p) = true)
      (now → exec (.coachSegment l b) s = .next (a.segIn p (hSrc b) d))
      ∧ (¬ now → exec (.coachSegment l b) s =
        .next (a.modJob p (fun j => { j with heldIn := j.heldIn ++ [(4, hSrc b, d)] })))))
  ∧ (∀ (p : Nat) (d : List Byte) (s : State), s.stepping p = true → (s.job p).appliedSent = true →
    s.collOpen p (s.stepNum p + 1) d = true → s.collIn p d = s.holdColl p d)
  ∧ (∀ (p : Nat) (d : List Byte) (s : State), s.stepping p = true → (s.job p).appliedSent = false →
    (s.collOpen p (s.stepNum p) d = false → s.collIn p d = s.count FAB_DROP_ROUTE 1)
    ∧ (let bk := ((s.job p).bucketOf (cTid d)).getD 0
       s.collOpen p (s.stepNum p) d = true → cLate d = false → (s.job p).window.isSome = true →
       (cKind d = 0 → (∀ y ∈ (s.job p).ins, ¬ (y.stage = 1 ∧ y.node = cDst d ∧ y.bucket = bk ∧ y.pos = cSrc d % 128)) →
         ∃ x ∈ ((s.collIn p d).job p).ins, x.stage = 1 ∧ x.node = cDst d ∧ x.bucket = bk ∧ x.pos = cSrc d % 128
          ∧ x.elem = some (cElem d) ∧ x.nf = cNf d)
       ∧ (cKind d = 1 → (∀ y ∈ (s.job p).ins, ¬ (y.stage = 2 ∧ y.chunk = cDst d ∧ y.bucket = bk ∧ y.pos = cSrc d / 128)) →
         ∃ x ∈ ((s.collIn p d).job p).ins, x.stage = 2 ∧ x.chunk = cDst d ∧ x.bucket = bk ∧ x.pos = cSrc d / 128
          ∧ x.elem = some (cElem d) ∧ x.nf = cNf d)))

/-- The updates of spans (13 R456, R457) and the close of the straggler window (12 R429): SPAN_UPDATE, HUB_SPAN_UPDATE and
STRAGGLER_WINDOW_CLOSE, where each completes, and what it leaves. -/
def Obligations.SpansAndStragglers : Prop := spanUpdatesLaw ∧ stragglerLaw
end

namespace Sys2Proof.Machine

/-! ### Steps and failures (12 R425 to R428, 14 R466 to R491, 15 R502 to R515) -/

/-- A whole message of a kind that reaches the device, of partition `p` from `src`: its own, or the frame that completes one that has
come over a lambda, each piece at its place.  `s1` is the state without it. -/
def MsgTaken (s : State) (via : Via) (k : MKind) (p src : Nat) (d : List Byte) (s1 : State) : Prop :=
  Clocked s ∧ match via with
  | .own => s.fab.own.find? (fun e => e.2.1 == 2 && msgKind e.2.2 == k) = some (p, 2, d) ∧ src = s.me
      ∧ s1 = { s with fab := { s.fab with own := dropFirst (· == (p, 2, d)) s.fab.own } }
  | .lambda l b => ∃ c e, Passes s l b 2 p c e ∧ src = hSrc b ∧ frameKind e = k
      ∧ wholeMsg ((acceptedFrom s (s.lamAt l) b p c).partOf p src e) = some d
      ∧ s1 = (acceptedFrom s (s.lamAt l) b p c).modJob p (fun j => { j with parts := j.parts.filter (fun x =>
          !MsgPieces.of src e x) })

/-- Phases and the vote (12 R425, R426, 14 R466, R467, R470). PHASE_START starts the next task set once the last has ended;
VOTE_SEND of a device that has summed every chunk that it reduces votes once, of each hosted slot; VOTE keeps each vote of its
group at a group host, GROUP_VOTE each group vote at the host of slot 0, which passes the verdict to the group hosts with the
last; VERDICT keeps a verdict with its loss. Where the loss cells of a vote lie (assumption 30), how the messages are laid out
and cut (assumptions 94, 144) and which device coordinates (assumption 95) are the model's choice. -/
def phasesAndVotesLaw : Prop :=
  (∀ (p : Fin 8) (s : State), Clocked s →
    (s.stepping p = true → s.on (STEP_CFG_SERVE p) = false → (s.job p).phase ≠ .reduce → (s.job p).phase ≠ .committing →
      (∀ c ∈ (s.job p).running, s.taskState c = tkEnded) → (s.job p).hotDue = [] →
      exec (.phaseStart p) s = .next (s.enterPhase p
        (nextPhase ((s.job p).hosted s.me).length (s.fld (STEP_CFG_MICRO p)) (s.job p).phase)))
    ∧ (s.voteReady p = true → Gives (exec (.voteSend p) s) (fun u =>
      (u.job p).voted = true ∧ (u.job p).votes = (s.job p).votes ∧ u.m.mem = s.m.mem)))
  ∧ (∀ (via : Via) (p src : Nat) (d : List Byte) (s s1 : State), s1.nowStep p d = true →
    (MsgTaken s via .vote p src d s1 → (s1.job p).groupHost (mSlot d) = s1.me → (s1.job p).voteAt 0 (mSlot d) = none →
      Gives (exec (.vote via) s) (fun u =>
        (u.job p).votes = (s1.job p).votes ++ [(0, mSlot d, mNf d, leNat ((d.drop 16).take 8))]))
    ∧ (MsgTaken s via .groupVote p src d s1 → (s1.job p).hostOf 0 = s1.me → mSlot d % 128 = 0 →
      (s1.job p).voteAt 1 (mSlot d) = none → Gives (exec (.groupVote via) s) (fun u =>
        (u.job p).votes = (s1.job p).votes ++ [(1, mSlot d, mNf d, leNat ((d.drop 16).take 8))]))
    ∧ (MsgTaken s via .verdict p src d s1 → p < 8 → s1.on (STEP_VOTE_VALID p) = false →
      Gives (exec (.verdict via) s) (fun u => u.fld (STEP_VOTE_VALID p) = 1 ∧ u.fld (STEP_VOTE_SKIP p) = b2n (mNf d)
        ∧ u.fld (STEP_VOTE_LOSS p) = wordAt d 0x10)))

/-- Parts 1 and 2 of R477: the journals and the decisions of the step go but for held deferrals, the record with its annex is
appended. -/
def recorded (s : State) (p : Nat) (pay : List Byte) : State :=
  (((s.dropJournal p).keepHeld p (bit (recFlags (pay.take 128)) 0)).appendRecord p (pay.take 128 ++ pay.drop 0xB0)).modJob p (fun j => { j with
    lastCommit := pay, prevLate := numsOf 4 (recAnnex (pay.take 128)) (pay.drop 0xB0), firstTrusted := false, fullSum := false
    tsum := leNat ((pay.drop 0x90).take 32) })

/-- Part 3 of R477: the loss scale, the programs' T, the DENSE bits; with the cause of a stop (02 R92). -/
def scaledStep (s : State) (p : Nat) (pay : List Byte) : State × Nat :=
  let skip := bit (recFlags (pay.take 128)) 0
  let r := s.scaleStep p skip
  ((List.range 64).foldl (fun s l => if bit (leNat ((pay.drop 0x80).take 8)) l then s.setFld (STEP_PRED_CFG_DENSE p l) 1 else s)
    (if skip then r.1 else r.1.countT p), r.2)

/-- Part 4 of R477: directories installed, migrated records and table images freed. -/
def installed (s : State) (p : Nat) (pay : List Byte) : State :=
  ((s.unpin p 0).installMoves p).freeImages p (leNat ((pay.drop 0x88).take 8))

/-- The step has ended: its number, its flags, an absorption and a restore that it completes, a checkpoint that is due. -/
def stepOver (s : State) (p n : Nat) : State :=
  let s := (s.setFld (NUM_STEP_FLAGS_LAST p) (s.fld (NUM_STEP_FLAGS_FLAGS p))).setFld (NUM_STEP_FLAGS_FLAGS p) 0
  let s := (s.setFld (STEP_NUM_STEP p) (n + 1)).endAbsorb p
  let s := if (s.job p).restore.isSome then s.endRestore p 3 0 stOk else s
  if s.fld (STEP_CKPT_CFG_EVERY p) ≠ 0 ∧ n % s.fld (STEP_CKPT_CFG_EVERY p) = 0 then s.modJob p (fun j => { j with ckWait := some n })
  else s

/-- COMMIT is carried out in the order of R477 (14): the record, the state of the loss scale, moves and images, then the
boundary brings into force what is held, or stops the job; a stop that has been requested stops it with cause HOST. Which
decisions make the record's DEFERRED flag (assumption 97), that a stop signs the head (assumption 162), and which cause is
reported where two fall together (assumption 141) are the model's choice. -/
def commitOrderLaw : Prop :=
  ∀ (s : State) (p : Fin 8) (pay : List Byte),
    let r := scaledStep (recorded s p pay) p pay
    let t := stepOver (installed r.1 p pay) p (s.stepNum p)
    let u := s.commitStep p pay
    u = t.boundary p r.2
    ∧ ((t.job p).stopReq = true → u.partState p ≠ ptFenced → u.jstate p = jsStopped ∧ u.fld (STEP_STATUS_CAUSE p) = jcHost)

/-- The end of a step (14 R473 to R482). APPLIED_SEND of a device whose updates, all-gathers and moves are done sends its
APPLIEDs, and its job is APPLIED; with a faulted task or no journal space it asks for an ABORT, and a fenced one tells the
other devices. APPLIED keeps the messages of its group at a group host, GROUP_APPLIED the groups' at the coordinator. COMMIT
of the step that the device has applied is passed on and carried out in the order of R477; ROLLBACK is passed on, undoes the
step and stops the job with the cause that it carries, or with DEVICE_LOST where a device of the job is lost; the coordinator
answers ABORT with ROLLBACK to every group host, and one that says FENCED with ROLLBACK to every device that is left (what a
fenced device sends is the model's reading: assumption 155). The layout and the pieces of the messages (assumptions 94, 144),
the coordinator (assumption 95), and how a step without COMMIT rolls back and carries its cause (assumption 96) are the
model's choice. -/
def stepEndLaw : Prop :=
  commitOrderLaw ∧
  (∀ (p : Fin 8) (s : State), Clocked s →
    (s.stepping p = true → s.abortWhy p = 0 → s.appliedReady p = true → s.deltas p = [] → s.movesSettled p = true →
      Gives (exec (.appliedSend p) s) (fun u =>
        (u.job p).appliedSent = true ∧ (u.job p).phase = .committing ∧ u.jstate p = jsApplied))
    ∧ (s.stepping p = true → s.abortWhy p ≠ 0 → (s.job p).abortCause = 0 → exec (.appliedSend p) s = .next
      ((s.sendMsg p (s.job p).coord (msgHead (s.stepNum p) 0 false 0 4 false 0 ++ leBytes 8 (s.abortWhy p))).modJob p
        (fun j => { j with abortCause := s.abortWhy p })))
    ∧ (s.partState p = ptFenced → (s.job p).slots.contains s.me = true → (s.job p).abortCause ≠ jcFenced →
      exec (.appliedSend p) s = .next (s.tellFenced p)))
  ∧ (∀ (via : Via) (p src : Nat) (d : List Byte) (s s1 : State),
    (MsgTaken s via .applied p src d s1 → s1.nowStep p d = true → (s1.job p).groupHost (mSlot d) = s1.me →
      (s1.job p).appAt 0 (mSlot d) = none → Gives (exec (.applied via) s) (fun u =>
        (u.job p).apps = (s1.job p).apps ++ [(0, mSlot d, d)]))
    ∧ (MsgTaken s via .groupApplied p src d s1 → s1.nowStep p d = true → (s1.job p).coord = s1.me → mSlot d % 128 = 0 →
      (s1.job p).appAt 1 (mSlot d) = none → Gives (exec (.groupApplied via) s) (fun u =>
        (u.job p).apps = (s1.job p).apps ++ [(1, mSlot d, d)]))
    ∧ (MsgTaken s via .commit p src d s1 → s1.openStep p d = true → (s1.job p).appliedSent = true →
      (s1.job p).restore = none → exec (.commit via) s = .next ((s1.relayCommit p d).commitStep p (d.drop 16)))
    ∧ (MsgTaken s via .rollback p src d s1 → p < 8 → s1.openStep p d = true → Gives (exec (.rollback via) s) (fun u =>
        let cause := bits (wordAt d 0x10) 0 8
        u.jstate p = jsStopped ∧ u.fld (STEP_STATUS_CAUSE p) =
          (if (s1.job p).slots.any (s1.job p).lost.contains || cause == 0 then jcLost else cause)))
    ∧ (MsgTaken s via .abort p src d s1 → s1.nowStep p d = true → (s1.job p).coord = s1.me →
      let cause := bits (wordAt d 0x10) 0 8
      let back := msgHead (s1.stepNum p) 0 false 0 3 false 0 ++ leBytes 8 cause
      (cause ≠ jcFenced → exec (.abort via) s = .next (s1.toHosts p back))
      ∧ (cause = jcFenced → (s1.job p).lost.contains src = true → bit (wordAt d 0x10) 8 = false →
        exec (.abort via) s = .next ((s1.job p).survivors.foldl (fun s dev => s.sendMsg p dev back) s1))))

/-- HOLD, resolution, heads (14 R480, R481, R489, R491). HOLD_ENTER of a job whose COMMIT has not come holds it; STATE is kept
once of each survivor by the new coordinator; a survivor answers RESOLVE with one; SERVE_HEAD_TIMER signs the head of a
serving job, and of one that a fence has ended; LEDGER_DRAINED_ACK keeps DRAINED. The layout of STATE and RESOLVE and their
pieces (assumptions 94, 144), the coordinator (assumption 95), that a step without COMMIT rolls back (assumption 96), what
becomes of a job at a boundary (assumption 98), what a fenced device sends (assumption 155), and which stops sign a head
(assumption 162) are the model's choice. -/
def holdAndResolveLaw : Prop :=
  (∀ (p : Fin 8) (s : State), Clocked s →
    (s.partState p = ptStarted → s.on (STEP_CFG_SERVE p) = false → s.jstate p = jsApplied →
      (s.job p).slots.any (s.job p).lost.contains = false → exec (.holdEnter p) s = .next (s.setJstate p jsHold 0))
    ∧ ((s.partState p = ptStarted ∧ s.on (STEP_CFG_SERVE p) = true) ∨ s.partState p = ptFenced →
      exec (.serveHeadTimer p) s = .next (s.signHead p))
    ∧ (∀ (q : Requester) (v : Word), s.hubUp = true → s.standing = false → reaches q p = true → s.fnShut q = false →
      (s.partState p = ptStarted → (s.jstate p ≠ jsStopped ∨ s.fld (STEP_STATUS_CAUSE p) ≠ jcLedger) →
        Gives (exec (.ledgerDrainedAck q p v) s) (fun u => u.fld (STEP_LEDGER_ACK_DRAINED p) = v.toNat))
      ∧ (s.partState p = ptFenced → exec (.ledgerDrainedAck q p v) s = .next s.asked)))
  ∧ (∀ (via : Via) (p src : Nat) (d : List Byte) (s s1 : State),
    (MsgTaken s via .resolve p src d s1 →
      let j := s1.job p
      let done := decide (16 ≤ j.lastCommit.length) && recStep j.lastCommit == mStep d && decide (mStep d < s1.stepNum p)
      let sent := mStep d == s1.stepNum p && j.appliedSent
      exec (.resolve via) s = .next (s1.sendMsg p src (msgHead (mStep d) 0 false 0 6 false 0 ++ leBytes 8 (b2n done + b2n sent * 2)
        ++ (if done then j.lastCommit else []))))
    ∧ (MsgTaken s via .state p src d s1 → (s1.job p).resolveStep = some (mStep d) →
      (s1.job p).states.any (fun e => e.1 == src) = false → Gives (exec (.stateMsg via) s) (fun u =>
        (u.job p).states = (s1.job p).states ++ [(src, d)])))
/-- Losses, the risk score, drains and snapshots (15 R496, R502 to R511, 11 R399). A destination without a route is lost to
every job that has it; the score is the sum of its terms, cut to 255; a drain that nothing holds back begins, one that an
absorption holds back is deferred; the drainer counts each acknowledgement once and, refused, sends to its next candidate,
while it has one; segments of the drainer's own parts reach its buddy, and records that arrive are kept. UNREACHABLE,
RISK_EVAL, DRAIN_START, SNAPSHOT_ACK, SNAPSHOT_REFUSAL, SNAPSHOT_DATA and MIGRATION_RECORD complete so. Where the readings of
the score come from (assumption 73), how candidates are ordered and refuse (assumption 100), where UNREACHABLE comes from
(assumption 104), and the layout of the segments (assumption 28) are the model's choice. -/
def failuresLaw : Prop :=
  (∀ (dst : Nat) (s : State), s.dieUp = true → s.on FAB_POS_VALID = true → dst < 16384 → dst ≠ s.me → s.routeOf dst = none →
    Gives (exec (.unreachable dst) s) (fun u => ∀ p, p < 8 → s.partState p = ptStarted → (s.job p).slots.contains dst = true →
      (u.job p).lost.contains dst = true))
  ∧ (∀ (tj : Nat) (ce : List SramFix) (s : State), s.hubUp = true → Gives (exec (.riskEval tj ce) s) (fun u =>
      u.fld HUB_RISK_TERMS_TEMP = (if tj ≤ 85 then 0 else min 60 (4 * (tj - 85)))
      ∧ u.fld HUB_RISK_TERMS_SRAM_CE = min 32 (4 * Nat.log2 (1 + (ce.foldl State.sramFix s).within 4 (60 * secUs)))
      ∧ u.fld HUB_RISK_SCORE = min 255 (u.fld HUB_RISK_TERMS_STK_CE + u.fld HUB_RISK_TERMS_SRAM_CE + u.fld HUB_RISK_TERMS_SLOW
        + u.fld HUB_RISK_TERMS_TEMP + u.fld HUB_RISK_TERMS_OPTIC + u.fld HUB_RISK_TERMS_FEED + u.fld HUB_RISK_TERMS_BROWNOUT)))
  ∧ (∀ s : State, s.dieUp = true → s.on HUB_RISK_DRAIN_REQ = true → s.on HUB_RISK_DRAINED = false → s.j.drains = [] →
      (s.drainBlocked = true → exec .drainStart s = .next (s.setFld HUB_RISK_DEFERRED 1))
      ∧ (s.drainBlocked = false → ((List.range 8).filter (fun p => s.partState p == ptStarted)).all
          (fun p => s.atRest p && (s.job p).ckWait.isNone) = true →
        exec .drainStart s = .next ((((List.range 8).filter (fun p => s.partState p == ptStarted)).foldl
          (fun s p => s.startDrain p) (s.setFld HUB_RISK_DEFERRED 0)).endDrain)))
  ∧ (∀ (l : Fin 256) (b : List Byte) (p c : Nat) (d : List Byte) (s : State), Passes s l b 5 p c d →
      let a := acceptedFrom s (s.lamAt l) b p c
      (∀ x, sgForm d = 1 → 16 ≤ d.length → a.j.drains.find? (fun y => y.part == p) = some x → x.cands.head? = some (hSrc b) →
        x.acked.contains (sgPart d) = false → sgPart d < x.count → exec (.snapshotAck (.lambda l b)) s =
          .next ((a.setDrain { x with acked := x.acked ++ [sgPart d] }).endDrain))
      ∧ (∀ x, sgForm d = 2 → 16 ≤ d.length → a.j.drains.find? (fun y => y.part == p) = some x → x.cands.head? = some (hSrc b) →
        let y := { x with cands := x.cands.drop 1, acked := [] }
        (2 ≤ x.cands.length → exec (.snapshotRefusal (.lambda l b)) s = .next ((a.setDrain y).sendDrain y))
        ∧ (x.cands.length < 2 → exec (.snapshotRefusal (.lambda l b)) s = .next a))
      ∧ (sgForm d = 0 → 16 < d.length → sgDrainer d = hSrc b →
        exec (.snapshotData l b) s = .next (a.snapIn p (sgDrainer d) d))
      ∧ (sgForm d = 3 → 16 < d.length → exec (.migrationRecord l b) s = .next (a.rowIn p (hSrc b) d)))

/-! ### Rings and host commands (17 R564 to R580, 01 R49, 06 R222, 10 R368, R375, 14 R492, 15 R500 to R516) -/

/-- A started command of an opcode whose turn has come: the hub is up, nothing of its family stands before it, the blocks it
needs are awake, its partition is not FENCED where that matters (17 R578), and no host completion error meets its data (R573). -/
def Served (s : State) (x : Started) (op : Nat) : Prop :=
  s.h.started.find? (fun y => y.cmd == x.cmd) = some x ∧ s.hubUp = true ∧ cOp x.cmd = op ∧ s.mustWait x = false
    ∧ (s.standing = false ∨ onStand op = true)
    ∧ ((opUse op).any OpUse.usesPart = false ∨ s.partState (cPart x.cmd) ≠ ptFenced ∨ onFenced op = true)
    ∧ (x.err ≠ .data ∨ cLen x.cmd = 0)

/-- FUNCTION_LEVEL_RESET: the function's commands are forgotten without completions, its rings are disabled, and a partition
function's aperture is shut (17 R564). -/
def resetLaw : Prop :=
  ∀ (fn : Fin 9) (s : State), Clocked s → Gives (exec (.functionLevelReset fn) s) (fun u =>
    (∀ x ∈ u.h.started, x.cmd.fn ≠ fn) ∧ (∀ r, r < 64 → u.on (HUB_RING_CTRL_EN fn r) = false)
    ∧ (fn.val ≠ 0 → u.on (PART_APERTURE_EN (fn - 1)) = false) ∧ u.m.mem = s.m.mem)

/-- The completion doorbell of a ring that runs takes the host's new head; a head value at or above 2^LOG2N sets ERROR
with cause HEAD_RANGE (17 R567). -/
def completionHeadLaw : Prop :=
  ∀ (q : Requester) (ring : Fin 64) (v : BitVec 16) (s : State), s.hubUp = true → s.fnShut q = false →
    s.on (HUB_RING_CTRL_EN q.fn ring) = true → s.on (HUB_RING_STAT_ERROR q.fn ring) = false →
    (v.toNat < 2 ^ s.fld (HUB_RING_CTRL_LOG2N q.fn ring) →
      Gives (exec (.completionDoorbell q ring v) s) (fun u => u.cplHead q.fn ring = v.toNat
        ∧ u.on (HUB_RING_STAT_ERROR q.fn ring) = false))
    ∧ (2 ^ s.fld (HUB_RING_CTRL_LOG2N q.fn ring) ≤ v.toNat →
      Gives (exec (.completionDoorbell q ring v) s) (fun u => u.on (HUB_RING_STAT_ERROR q.fn ring) = true
        ∧ u.fld (HUB_RING_STAT_CAUSE q.fn ring) = 2 ∧ u.cplHead q.fn ring = s.cplHead q.fn ring))

/-- Rings and their doorbells, of a function that takes requests (17 R565, R566).  A command doorbell inside its ring sets the
tail, one past the ring's size stops the ring with a cause of its own; enabling a ring clears its places, disabling it leaves its
commands; a function whose partition is FREE takes none, nor does one whose requests must travel on a stream for a request that came
on none, or while its stream is not set up (16 R519, R551: that a request carries whether it came on its function's stream is the
model's choice, assumption 157).  Each is a PCIe request, which the idle time is counted from (19 R612, the model's granularity:
assumption 169).  COMMAND_DOORBELL, RING_ENABLE and RING_DISABLE complete so. -/
def ringLaw : Prop :=
  ∀ (q : Requester) (ring : Fin 64) (s : State), s.hubUp = true →
    (s.fnShut q = false →
      (∀ v : BitVec 16, s.on (HUB_RING_CTRL_EN q.fn ring) = true → s.on (HUB_RING_STAT_ERROR q.fn ring) = false →
        (v.toNat < s.ringN q.fn ring →
          Gives (exec (.commandDoorbell q ring v) s) (fun u => u.ringTail q.fn ring = v.toNat ∧ u.regs = s.regs))
        ∧ (s.ringN q.fn ring ≤ v.toNat → exec (.commandDoorbell q ring v) s = .next (s.asked.ringError q.fn ring 1)))
      ∧ (∀ w : Word, bit w.toNat 0 = true → s.on (HUB_RING_CTRL_EN q.fn ring) = false → 4 ≤ bits w.toNat 1 5 → bits w.toNat 1 5 ≤ 16 →
        Gives (exec (.ringEnable q ring w) s) (fun u => u.on (HUB_RING_CTRL_EN q.fn ring) = true
          ∧ u.ringN q.fn ring = 2 ^ bits w.toNat 1 5 ∧ u.fld (HUB_RING_STAT_HEAD q.fn ring) = 0
          ∧ u.fld (HUB_RING_STAT_CTAIL q.fn ring) = 0 ∧ u.ringTail q.fn ring = 0 ∧ u.cplHead q.fn ring = 0
          ∧ u.on (HUB_RING_STAT_ERROR q.fn ring) = false))
      ∧ Gives (exec (.ringDisable q ring) s) (fun u => u.on (HUB_RING_CTRL_EN q.fn ring) = false ∧ u.h = s.h
        ∧ u.pm.idleFrom = s.timeUs))
    ∧ (s.fnShut q = true → ∀ (v : BitVec 16) (w : Word),
      ∀ i ∈ [Instr.commandDoorbell q ring v, .completionDoorbell q ring v, .ringEnable q ring w, .ringDisable q ring],
        exec i s = .next s.asked)

/-- Fetch, messages and replies (17 R568 to R573, R576).  The hub fetches the command at the head of the next ring in order; an
error of a fetch or of the write of a reply stops the ring with its cause; a command that needs a block which Stand has gated wakes
the device (19 R614, assumption 169); a message that is due is counted and, where MSI-X is enabled, goes, at the count or once its oldest reply
has waited; a reply stands at the tail of the completion ring, in 32 bytes: TAG, OPCODE and STATUS, HEAD and PHASE, DETAIL, RESULT0
and RESULT1, and PHASE changes with each pass of the ring.  COMMAND_FETCH and COAL_TIMER_EXPIRE complete so. -/
def fetchAndReplyLaw : Prop :=
  ∀ (fn : Fin 9) (ring : Fin 64) (s : State), s.hubUp = true →
    (s.nextRing = some (ringKeyOf fn ring) → exec (.commandFetch fn ⟨ring, .fetch⟩) s = .next (s.ringError fn ring 3))
    ∧ (∀ err : HostErr, err ≠ .fetch →
       let x : Started := ⟨⟨fn, ring, s.headPacket fn ring⟩, s.h.nextSeq,
        (s.fld (HUB_RING_STAT_HEAD fn ring) + 1) % s.ringN fn ring, err⟩
       s.nextRing = some (ringKeyOf fn ring) → packetStatus x.cmd = stOk →
        (s.standing = true → onStand (cOp x.cmd) = false → s.pm.wake = 0 →
          Gives (exec (.commandFetch fn ⟨ring, err⟩) s) (fun u => u.h.started = s.h.started ++ [x] ∧ u.pm.wake = 1))
        ∧ Gives (exec (.commandFetch fn ⟨ring, err⟩) s) (fun u => u.h.started = s.h.started ++ [x]
          ∧ u.fld (HUB_RING_STAT_HEAD fn ring) = x.head % 2 ^ 16 ∧ u.m.mem = s.m.mem))
    ∧ (let k := ringKeyOf fn ring
       let n := Tab.get s.h.uncovered 0 k
       let waited := Tab.get s.h.oldest 0 k + s.fld (HUB_RING_CTRL_COAL_US fn ring) ≤ s.timeUs
       (waited → s.on (HUB_RING_CTRL_IRQ_EN fn ring) = true → n ≠ 0 → Gives (exec (.coalTimerExpire fn ring) s) (fun u =>
          Tab.get u.h.uncovered 0 k = 0
          ∧ (s.h.msixOn.contains fn.val = true → s.vecMasked fn (s.fld (HUB_RING_CTRL_VECTOR fn ring)) = false →
            u.h.msgs = s.h.msgs ++ [(fn.val, s.fld (HUB_RING_CTRL_VECTOR fn ring))])))
       ∧ (¬ waited → n < s.fld (HUB_RING_CTRL_COAL_COUNT fn ring) → exec (.coalTimerExpire fn ring) s = .next s)
       ∧ (s.on (HUB_RING_CTRL_IRQ_EN fn ring) = false ∨ n = 0 → exec (.coalTimerExpire fn ring) s = .next s))
    ∧ (∀ (x : Started) (st d r0 r1 : Nat), x.cmd.fn = fn → x.cmd.ring = ring → x.err = .reply →
      let u := s.reply x st d r0 r1
      u.on (HUB_RING_STAT_ERROR fn ring) = true ∧ u.fld (HUB_RING_STAT_CAUSE fn ring) = 4
        ∧ u.fld (HUB_RING_STAT_CTAIL fn ring) = s.fld (HUB_RING_STAT_CTAIL fn ring) ∧ u.m.mem = s.m.mem
        ∧ u.h.started = dropFirst (· == x) s.h.started)
    ∧ (∀ (x : Started) (st d r0 r1 : Nat), x.cmd.fn = fn → x.cmd.ring = ring → x.err ≠ .reply →
      let u := s.reply x st d r0 r1
      let t := s.fld (HUB_RING_STAT_CTAIL fn ring)
      let at_ := keyHost (s.fld (HUB_RING_CPL_ADDR fn ring) * 4096 + 32 * t)
      let phase := !Tab.get s.h.flips false (ringKeyOf fn ring)
      u.m.mem.rdLE at_ 4 = cTag x.cmd ∧ u.m.mem.rdLE (at_ + 4) 2 = cOp x.cmd ∧ u.m.mem.rdLE (at_ + 6) 2 = st % 2 ^ 16
        ∧ u.m.mem.rdLE (at_ + 8) 2 = x.head % 2 ^ 16 ∧ u.m.mem.rdLE (at_ + 10) 2 = b2n phase
        ∧ u.m.mem.rdLE (at_ + 12) 4 = d % 2 ^ 32 ∧ u.m.mem.rdLE (at_ + 16) 8 = r0 % 2 ^ 64 ∧ u.m.mem.rdLE (at_ + 24) 8 = r1 % 2 ^ 64
        ∧ Tab.get u.h.flips false (ringKeyOf fn ring) = (if (t + 1) % s.ringN fn ring = 0 then phase else !phase)
        ∧ u.fld (HUB_RING_STAT_CTAIL fn ring) = (t + 1) % s.ringN fn ring % 2 ^ 16
        ∧ u.h.started = dropFirst (· == x) s.h.started)

/-- What a transfer of whole units replies: its length, the first address that fails, or an uncorrectable error (17 R577, R579). -/
def transferred (x : Started) (n : Nat) : MRes × State → State
  | (.done, s) => s.reply x stOk 0 n 0
  | (.fault va, s) => s.reply x stMemFault 0 va 0
  | (.ue, s) => s.reply x stMemUe 0 0 0

/-- Transfers between host memory and stack memory (17 R577, R579): units in order, to the first address that fails; one unit that the
host writes to a page that takes stores, whose walk meets no uncorrectable error, holds the host's bytes, and no other byte of the
device's memory changes.  MEM_WRITE,
MEM_READ and MEM_FILL complete so. -/
def transfersLaw : Prop :=
  ∀ (x : Started) (s : State),
    let p := cPart x.cmd
    let va := cP x.cmd 0
    s.partState p ≠ ptFree → va % 64 = 0 →
    (Served s x 0x0200 → cLen x.cmd % 64 = 0 → exec (.memWrite x.cmd) s =
      .next (transferred x (cLen x.cmd) (State.units p true (memWriteUnit x.cmd p) (cLen x.cmd / 64) va s)))
    ∧ (Served s x 0x0201 → cLen x.cmd % 64 = 0 → exec (.memRead x.cmd) s =
      .next (transferred x (cLen x.cmd) (State.units p false (memReadUnit x.cmd) (cLen x.cmd / 64) va s)))
    ∧ (Served s x 0x0202 → cP x.cmd 1 % 64 = 0 → exec (.memFill x.cmd) s =
      .next (transferred x (cP x.cmd 1) (State.units p true (memFillUnit x.cmd p) (cP x.cmd 1 / 64) va s)))
    ∧ (∀ k, s.hubTranslate p va = some (k, true) → (s.walkSeen 7 p va 64).partState p ≠ ptFenced →
      (s.walkSeen 7 p va 64).tableWaits p va = false → k % 64 = 0 → k + 64 ≤ 2 ^ 64 →
      (Served s x 0x0200 → cLen x.cmd = 64 → Gives (exec (.memWrite x.cmd) s) (fun u =>
        u.rdB k 64 = s.rdB (keyHost (cData x.cmd)) 64
        ∧ ∀ a, a < 2 ^ 64 → (a < k ∨ k + 64 ≤ a) → u.m.mem.rd a = s.m.mem.rd a))
      ∧ (Served s x 0x0202 → cP x.cmd 1 = 64 → Gives (exec (.memFill x.cmd) s) (fun u =>
        (∀ i, i < 8 → u.m.mem.rdLE (k + 8 * i) 8 = cP x.cmd 2)
        ∧ ∀ a, a < 2 ^ 64 → (a < k ∨ k + 64 ≤ a) → u.m.mem.rd a = s.m.mem.rd a)))

/-- A page-table root comes into force at once while the job is at rest (01 R49); APERTURE_SET moves the aperture; DEGREE_BIN writes
the row IDs by bin and the bins' places, or says why not (06 R222, R223); in the bins' list every row stands once, no row of a
lower bin follows one of a higher, and the rows of one bin keep their order.  PT_SET, APERTURE_SET and DEGREE_BIN complete so. -/
def memoryCommandsLaw : Prop :=
  (∀ (x : Started) (s : State),
    let p := cPart x.cmd
    s.partState p ≠ ptFree →
    (Served s x 0x0203 → cP x.cmd 0 % 4096 = 0 → cP x.cmd 0 < 2 ^ 40 → s.atRest p = true → exec (.ptSet x.cmd) s =
      .next ((s.putFld (PART_PT_ROOT_ROOT p) (bits (cP x.cmd 0) 12 28)).reply x stOk 0 0 0))
    ∧ (Served s x 0x0204 → cP x.cmd 0 % 2 ^ 28 = 0 → cP x.cmd 0 < 2 ^ 48 → exec (.apertureSet x.cmd) s =
      .next ((s.setFld (PART_APERTURE_BASE p) (cP x.cmd 0 / 2 ^ 28)).reply x stOk 0 0 0))
    ∧ (let n := cP x.cmd 1
       Served s x 0x0205 → cP x.cmd 0 % 16 = 0 → cP x.cmd 2 % 8 = 0 → cP x.cmd 3 % 4 = 0 → n ≠ 0 → n < 2 ^ 32 →
        s.firstBad p false (cP x.cmd 0) (16 * n) = none → s.firstBad p true (cP x.cmd 2) (8 * n) = none →
        s.firstBad p true (cP x.cmd 3) 136 = none → exec (.degreeBin x.cmd) s = .next (
          match s.hubRead 7 p (cP x.cmd 0) (16 * n) with
          | (none, s1) => s1.reply x stMemUe 0 0 0
          | (some b, s1) =>
            let w := numsOf 8 (2 * n) b
            let l := (List.range n).map (fun i => (w.getD (2 * i) 0, w.getD (2 * i + 1) 0))
            if l.any (fun e => e.2 / 2 ^ 32 != 0) then s1.reply x stReserved 0 0 0
            else match s1.hubWrite 7 p (cP x.cmd 2) (binRows l).1 with
              | (false, s2) => s2.reply x stMemUe 0 0 0
              | (true, s2) => match s2.hubWrite 7 p (cP x.cmd 3) (binRows l).2 with
                | (false, s3) => s3.reply x stMemUe 0 0 0
                | (true, s3) => s3.reply x stOk 0 n 0)))
  ∧ (∀ l : List (Nat × Nat), (∀ e ∈ l, e.1 < 2 ^ 64 ∧ e.2 < 2 ^ 32) → ∃ m : List (Nat × Nat), m.Perm l
      ∧ m.Pairwise (fun a b => degreeBinOf a.2 ≤ degreeBinOf b.2)
      ∧ (∀ b, m.filter (fun e => degreeBinOf e.2 == b) = l.filter (fun e => degreeBinOf e.2 == b))
      ∧ numsOf 8 l.length (binRows l).1 = m.map Prod.fst)

/-- BAR2 (17 R560): reads answer with the bytes behind it, or abort; writes write them, but for a page that is not there or
takes no stores, which is logged; a page of the tables that a running step reads waits (13 R450). APERTURE_READ and
APERTURE_WRITE complete so. That a request counts by the stream that it says it came on is the model's choice (assumption
157). -/
def apertureLaw : Prop :=
  ∀ (q : Requester) (off : BitVec 28) (s : State), s.hubUp = true → s.standing = false → s.apertureShut q = false →
    let p := q.fn.val - 1
    let va := s.apertureVa p off.toNat
    (∀ n, exec (.apertureRead q off n) s = .next (match s.asked.hubRead 7 p va n with
      | (some b, s') => s'.answer (.data b)
      | (none, s') => s'.answer .completerAbort))
    ∧ (∀ b, s.firstBad p true va b.length = none → exec (.apertureWrite q off b) s = .next (s.asked.hostWrite p va b))
    ∧ (∀ b bad, s.firstBad p true va b.length = some bad → exec (.apertureWrite q off b) s =
      .next ((s.asked.walkSeen 7 p va b.length).file 0x0050 clsNotice 7 (p + 1) va (some p)))
end Sys2Proof.Machine

section
open Sys2Proof Sys2Proof.Machine

/-- The completion doorbell of a ring that runs, of a function that takes requests (17 R567). -/
def Obligations.CompletionHead : Prop := completionHeadLaw

/-- Rings (17 R564 to R573): doorbells, RING_ENABLE and RING_DISABLE, fetch, replies, messages, FUNCTION_LEVEL_RESET. -/
def Obligations.Rings : Prop := resetLaw ∧ ringLaw ∧ completionHeadLaw ∧ fetchAndReplyLaw
end

namespace Sys2Proof.Machine

/-- Commands that save and restore (15 R500, R503, R512, R513, R516): CKPT_BUFFERS, CKPT_RESTORE, DRAIN and REDISTRIBUTE
complete so. The seal of a part (assumption 29), where an absorbed slot is put (assumption 31), which buffers hold a
checkpoint (assumption 32), that buddies hand over what they hold (assumption 101), hot copies after a restore (assumption
103), what makes a checkpoint complete (assumption 163), that a restored job stops at the same step (assumption 142), that the
annex of the restored record comes back with it (assumption 164), and that a restore which cannot go on ends (assumption 165)
are the model's readings. -/
def checkpointLaw : Prop :=
  ∀ (x : Started) (s : State),
    let p := cPart x.cmd
    (Served s x 0x0600 → s.partState p = ptStarted → cLen x.cmd % 16 = 0 → bit (cP x.cmd 0) 0 = false →
      (s.job p).ckWait.isSome = true → let u := s.tryCheckpoint p
      exec (.ckptBuffers x.cmd) s = .next (if (u.job p).ckWait.isNone && u.jstate p == jsPaused then u.proceed p else u))
    ∧ (Served s x 0x0601 → s.partState p = ptStarted → s.atRest p = true → (s.job p).restore = none →
      cLen x.cmd % 16 = 0 → (s.job p).rejected = none → bit (cP x.cmd 1) 0 = true → s.on (STEP_CKPT_CFG_TRUST_OK p) = true →
      exec (.ckptRestore x.cmd) s = .next
        (match s.openAll p (cP x.cmd 0) ((s.job p).hosted s.me) (s.getBufs (s.bufsOf x.cmd)) with
          | some (l, h, body) =>
            let drained := (s.rdB (keyHost (cData x.cmd)) (cLen x.cmd)).drop (16 * (s.bufsOf x.cmd).length)
            ((s.loadAll p (cP x.cmd 0) l body (s.annexOf p drained (ptHead h))).beginRestore p ⟨cP x.cmd 0, true, false, none⟩).restoreOn p
          | none => ((s.setFld (STEP_RESTORE_STATE p) 5).setFld (STEP_RESTORE_RESULT p) 5).reply x stRestore 5 0 0))
    ∧ (Served s x 0x0602 → (s.on HUB_RISK_DRAINED = true → exec (.drain x.cmd) s = .next (s.reply x stOk 0 0 0))
      ∧ (s.on HUB_RISK_DRAINED = false → exec (.drain x.cmd) s = .next (s.setFld HUB_RISK_DRAIN_REQ 1)))
    ∧ (let l := numsOf 2 (cLen x.cmd / 2) (s.rdB (keyHost (cData x.cmd)) (cLen x.cmd))
       Served s x 0x0603 → s.partState p = ptStarted → (s.job p).restore = none → cLen x.cmd % 2 = 0 →
        s.jstate p = jsStopped → s.fld (STEP_STATUS_CAUSE p) = jcLost → bits (cP x.cmd 0) 0 1 = 0 → s.redistBad p 0 (cP x.cmd 1) l = none →
        Config.noRoom ((s.job p).newMap l) = false → exec (.redistribute x.cmd) s = .next (((l.foldl (fun s d => s.handOver p d)
          ((s.remap p ((s.job p).newMap l)).beginRestore p ⟨cP x.cmd 1, false, true, none⟩)).absorbAll p l).restoreOn p))
end Sys2Proof.Machine

namespace Sys2Proof.Machine

/-- Commands on a job (17 R577, R580): a load checks its manifest, a stop and a resume act between steps; a command that applies at a
boundary is held while the job is in a step.  JOB_LOAD, JOB_STOP, JOB_RESUME and STEP_RUN complete so. -/
def jobLaw : Prop :=
  ∀ (x : Started) (s : State),
    let p := cPart x.cmd
    (let b := s.rdB (keyHost (cData x.cmd)) (cLen x.cmd)
      let model := (b.drop 0x20).take 32
      Served s x 0x0300 → s.partState p = ptBuilding → 64 ≤ cLen x.cmd → cLen x.cmd = 64 + 32 * itF b 4 4 → itF b 0 2 = 1 →
      exec (.jobLoad x.cmd) s = .next (match (s.setJob p .none).loadItems p (piecesOf 32 (itF b 4 4) (b.drop 64)) with
        | (0, s1) =>
          let s' := s1.tablesSeen p
          if s'.partState p = ptFenced then s'.reply x stMemUe 0 0 0
          else if s'.loadDetail p ≠ 0 then s'.reply x stLoadRefused (s'.loadDetail p) 0 0
          else if s'.on (STEP_CFG_SERVE p) = false ∧ model.any (· != 0) = true then s'.reply x stLoadRefused 7 0 0
          else if s'.on (STEP_CFG_SERVE p) ∧ s'.heldDigest p ≠ model then s'.reply x stModelDigest 0 0 0
          else (s'.loaded p model).reply x stOk 0 (s'.fld (STEP_JOB_ID_JOB_ID p)) 0
        | (d, s') => if s'.partState p = ptFenced then s'.reply x stMemUe 0 0 0 else s'.reply x stLoadRefused d 0 0))
    ∧ (Served s x 0x0301 → s.partState p = ptStarted →
      (s.atRest p = true → exec (.jobStop x.cmd) s = .next ((s.stopJob p).reply x stOk 0 0 0))
      ∧ (s.atRest p = false → s.h.held.contains x.cmd = false →
        Gives (exec (.jobStop x.cmd) s) (fun u => u.h.held = s.h.held ++ [x.cmd] ∧ u.h.started = s.h.started)))
    ∧ (Served s x 0x0302 → s.partState p = ptStarted → s.jstate p = jsStopped → s.fld (STEP_STATUS_CAUSE p) = jcHost →
      exec (.jobResume x.cmd) s = .next ((s.proceed p).reply x stOk 0 0 0))
    ∧ (let t := s.modJob p (fun j => { j with runTo := cP x.cmd 0 + 1 })
       Served s x 0x0400 → s.partState p = ptStarted → exec (.stepRun x.cmd) s =
        .next ((if t.jstate p = jsIdle ∧ t.on (STEP_CFG_SERVE p) = false then t.proceed p else t).reply x stOk 0 (s.stepNum p) 0))

/-- Serving, the ledger, tables and hot rows (10 R368, R375, 14 R492 to R494).  A batch begins where the job serves, its request is
there, the ledger has room and no hot row is still to come; it ends once its tasks have.  SERVE_BATCH, LEDGER_READ, TABLE_REPLACE
and HOT_REFRESH complete so. -/
def serveAndTablesLaw : Prop :=
  ∀ (x : Started) (s : State),
    let p := cPart x.cmd
    (Served s x 0x0401 → s.partState p = ptStarted → s.on (STEP_CFG_SERVE p) = true →
      ((s.job p).serving = none → s.jstate p ≠ jsStopped → (s.job p).hotDue = [] →
        s.firstBad p false (cP x.cmd 0) (cP x.cmd 1) = none → s.ledgerRoom p = true →
        Gives (exec (.serveBatch x.cmd) s) (fun u => (u.job p).serving = some x.cmd.packet))
      ∧ ((s.job p).serving = none → s.jstate p ≠ jsStopped → (s.job p).hotDue ≠ [] → exec (.serveBatch x.cmd) s = .next s)
      ∧ ((s.job p).serving = some x.cmd.packet → (∀ c ∈ (s.job p).running, s.taskState c = tkEnded) →
        exec (.serveBatch x.cmd) s = .next (match s.serveEnd p x.cmd with
          | .reply u st d r0 r1 => u.reply x st d r0 r1
          | .stay u => u)))
    ∧ (let all := (s.job p).ledger
       let l := takeEntries (cLen x.cmd) (all.drop ((all.findIdx? (fun e => e.kind == 1 && e.index == cP x.cmd 0)).getD all.length))
       let b := l.flatMap (fun e => entryBytes e.kind e.index e.body)
       Served s x 0x0402 → s.partState p ≠ ptFree → exec (.ledgerRead x.cmd) s = .next
        ((s.wrB (keyHost (cData x.cmd)) b).reply x stOk 0 (l.filter (fun e => e.kind == 1)).length b.length))
    ∧ (let r := s.endedBy p (s.replaceTable p (cP x.cmd 0) (cP x.cmd 1))
       Served s x 0x0500 → s.partState p ≠ ptFree → s.atRest p = true → exec (.tableReplace x.cmd) s =
        .next (r.1.reply x r.2.1 (if r.2.1 = stBadState then r.1.partStatus p else 0) r.2.2 0))
    ∧ (let s1 := s.hubSeen 7 p (cP x.cmd 1) (8 * cP x.cmd 2)
       Served s x 0x0501 → s.partState p = ptStarted → s.atRest p = true → s.waitsTable x.cmd p = false →
        let r := s.endedBy p (match rowList s1 p (cP x.cmd 1) (cP x.cmd 2) with
          | none => (s1, stMemFault, (s1.firstBad p false (cP x.cmd 1) (8 * cP x.cmd 2)).getD (cP x.cmd 1))
          | some l =>
            if (s1.jobTables p).any (fun d => tblId d == cP x.cmd 0) = false then (s1, stBadState, 0)
            else if rising l = false then (s1, stBadLength, 0)
            else (s1.hotRefresh p (s1.stepNum p) (cP x.cmd 0) l, stOk, 0))
        exec (.hotRefresh x.cmd) s = .next (r.1.reply x r.2.1 (if r.2.1 = stBadState then r.1.partStatus p else 0) r.2.2 0))
end Sys2Proof.Machine

section
open Sys2Proof Sys2Proof.Machine

/-- Memory as the host reaches it (17 R560, R577, R579, 01 R49, 06 R222, 13 R450), and the commands that serve batches, read the ledger and
replace tables and hot rows (10 R368, R375, 14 R492 to R494). -/
def Obligations.HostMemory : Prop := transfersLaw ∧ memoryCommandsLaw ∧ apertureLaw ∧ serveAndTablesLaw

/-- Commands on a job (17 R577, R580, 14 R492 to R494, 10 R368, R375, 15 R500, R503, R512, R513, R516): what each replies, and what
it leaves; with PT_SET, APERTURE_SET and DEGREE_BIN (01 R49, 06 R222). -/
def Obligations.JobCommands : Prop := checkpointLaw ∧ jobLaw ∧ serveAndTablesLaw ∧ memoryCommandsLaw

/-- A step's phases and its vote, and what a device does in HOLD: where PHASE_START, VOTE_SEND, VOTE, GROUP_VOTE, VERDICT, HOLD_ENTER,
RESOLVE, STATE, SERVE_HEAD_TIMER and LEDGER_DRAINED_ACK complete, and what they leave (12 R425, R426, 14 R466, R467, R480, R481, R489,
R491). -/
def Obligations.PhasesAndVotes : Prop := phasesAndVotesLaw ∧ holdAndResolveLaw

/-- The end of a step, and its vote: where APPLIED_SEND, APPLIED, GROUP_APPLIED, COMMIT, ROLLBACK, ABORT, PHASE_START, VOTE_SEND, VOTE,
GROUP_VOTE and VERDICT complete, and what they leave (14 R473 to R482, 12 R425, R426); and the commands that start, stop and resume a job (17 R577,
R580). -/
def Obligations.StepEnd : Prop := stepEndLaw ∧ phasesAndVotesLaw ∧ jobLaw

/-- HOLD, resolution and heads, and the end of a step: where HOLD_ENTER, RESOLVE, STATE, SERVE_HEAD_TIMER, LEDGER_DRAINED_ACK,
APPLIED_SEND, APPLIED, GROUP_APPLIED, COMMIT, ROLLBACK and ABORT complete, and what they leave (14 R473 to R482, R489, R491). -/
def Obligations.HoldAndResolve : Prop := holdAndResolveLaw ∧ stepEndLaw

/-- Losses, the risk score, drains and snapshots, and the host's commands that save and restore (15 R496, R500, R502 to R513, R516). -/
def Obligations.Failures : Prop := failuresLaw ∧ checkpointLaw
end

namespace Sys2Proof.Machine

/-! ### Security: partitions, keys, boot, identity, debug (16 R519 to R554, 17 R561, R562) -/

/-- Debug under a token (16 R553). Without a token of the core's partition that may, nothing is halted or resumed; HALT of a
core whose task runs makes the task HALTED, and RESUME makes a task that HALT has stopped RUNNING again. A view is answered
with the bytes that the token allows. How a halted task goes on and which bytes a view holds are the model's choices
(assumption 158). -/
def debugLaw (s : State) : Prop :=
  ∀ c : Fin 800,
    ((∀ p, s.corePart c = some p → s.debugs 3 p = false) →
      exec (.debugFence (.halt c)) s = .next s ∧ exec (.debugFence (.resume c)) s = .next s)
    ∧ (∀ p, s.corePart c = some p → s.debugs 3 p = true → s.dieUp = true → s.taskRuns c = true → s.engineFaults c = [] →
      Gives (exec (.debugFence (.halt c)) s) (fun u => u.taskState c = tkHalted ∧ u.m.mem = s.m.mem
        ∧ Gives (exec (.debugFence (.resume c)) u) (fun v => v.taskState c = tkRunning)))
    ∧ (∀ t r, exec (.debugFence (.regs c t r)) s = .next (s.show (s.debugRegs c t r)))
    ∧ (∀ b, exec (.debugFence (.mem b)) s = .next (s.show (s.debugMem b)))
    ∧ (∀ i k, exec (.debugFence (.sram i k)) s = .next (s.show (s.debugSram i k)))

/-- The life of a partition (16 R519 to R525). PART_CREATE of a FREE partition with sections that nobody owns makes it
BUILDING with them; a START that R521 accepts makes it STARTED; PART_FENCE, and a debug token that may, make it FENCED;
PART_TEARDOWN makes it FREE, without sections, and its keys are gone. PART_QUERY changes only rings. What registers and keys
hold afresh (assumptions 33, 9), whether a request came on its stream (assumption 157), and which ends sign a head (assumption
162) are the model's choice. -/
def partitionsLaw : Prop :=
  (∀ (x : Started) (s : State),
    let p := cPart x.cmd
    (let mask := bits (cP x.cmd 0) 0 8
     let opvis := bit (cP x.cmd 0) 8
     let t := s.create p mask opvis
     Served s x 0x0100 → s.partState p = ptFree → mask ≠ 0 → (∀ i ∈ secsOf mask, s.secPart i = none) →
      (opvis = true → bit s.settingsWord 4 = true) → s.on SEC_BOOT_IDENT_EXHAUSTED = false →
      exec (.partCreate x.cmd) s = .next (t.reply x stOk 0 0 0)
      ∧ t.partState p = ptBuilding ∧ t.sections p = mask ∧ t.on (PART_CFG_OPVIS p) = opvis)
    ∧ (let t := s.fencePart p (if x.cmd.fn.val = 0 then 2 else 4)
       Served s x 0x0101 → s.partState p ≠ ptFree → exec (.partFence x.cmd) s =
          .next (((t.dropHeld p).signHead p).reply x stOk 0 0 0)
        ∧ (s.partState p = ptBuilding ∨ s.partState p = ptStarted → t.partState p = ptFenced
          ∧ t.fld (PART_STATUS_CAUSE p) = (if x.cmd.fn.val = 0 then 2 else 4)))
    ∧ (Served s x 0x0102 → s.partState p ≠ ptFree → exec (.partTeardown x.cmd) s = .next ((s.teardown p).reply x stOk 0 0 0)
      ∧ (s.teardown p).partState p = ptFree ∧ (s.teardown p).sections p = 0
      ∧ Tab.get (s.teardown p).sec.fabKey [] p = [] ∧ Tab.get (s.teardown p).sec.memKeys [] (2 * p) = []
      ∧ Tab.get (s.teardown p).sec.memKeys [] (2 * p + 1) = [])
    ∧ (Served s x 0x0103 → exec (.partQuery x.cmd) s = .next (s.reply x stOk 0 (s.partStatus p)
      (s.sections p + s.fld (PART_CFG_OPVIS p) * 2 ^ 8 + s.fld (PART_CFG_IDE_REQUIRED p) * 2 ^ 9))))
  ∧ (∀ (p : Fin 8) (s : State), s.hubUp = true →
    (∀ q : Requester, s.standing = false →
      (reaches q p = true → s.fnShut q = false → s.startOk p = true → Gives (exec (.partStart q p) s) (fun u =>
        u.partState p = ptStarted ∧ u.fld (NUM_LS_STATE_E p) = s.fld (NUM_LS_CTRL_INIT_E p) % 256
        ∧ u.fld (NUM_LS_STATE_COUNT p) = 0 ∧ u.m = s.m))
      ∧ (reaches q p = false ∨ s.fnShut q = true ∨ s.startOk p = false → exec (.partStart q p) s = .next s.asked))
    ∧ debugLaw s
    ∧ (s.debugs 4 p = true → exec (.debugFence (.fence p)) s = .next (((s.fencePart p 3).dropHeld p).signHead p)))

/-- Keys (16 R528, R547 to R551). KEY_ROTATE takes the other key slot, counts the epoch and begins the sweep; KEM_READ gives
the encapsulation key; KEM_REFRESH draws a new pair; KEY_OPEN gives the partition a transport key and forgets the SEQ of the
last; KEY_INSTALL opens a blob of the right shape under it, with SEQ risen, and keeps SEQ and key. The draws are free values
(assumption 9), the ciphers are those of the standards that the spec cites (assumption 10), and the refusals of key commands
are the model's choice (assumption 109). -/
def keysLaw : Prop :=
  ∀ (x : Started) (s : State),
    let p := cPart x.cmd
    (Served s x 0x0705 → s.partState p = ptStarted → s.on (PART_KEY_SWEEP p) = false → Gives (exec (.keyRotate x.cmd) s) (fun u =>
      ∃ t : State, u = t.reply x stOk 0 ((s.fld (PART_KEY_EPOCH p) + 1) % 2 ^ 32) 0 ∧ t.on (PART_KEY_SWEEP p) = true
        ∧ t.fld (PART_KEY_CUR p) = (1 - s.fld (PART_KEY_CUR p)) ∧ t.m = s.m
        ∧ Tab.get t.sec.memKeys [] (2 * p + s.fld (PART_KEY_CUR p)) = Tab.get s.sec.memKeys [] (2 * p + s.fld (PART_KEY_CUR p))))
    ∧ (s.partState p ≠ ptFree →
      (Served s x 0x0701 → 1568 ≤ cLen x.cmd →
        exec (.kemRead x.cmd) s = .next ((s.wrB (keyHost (cData x.cmd)) (s.kemPub p)).reply x stOk 0 0 0))
      ∧ (Served s x 0x0702 → Gives (exec (.kemRefresh x.cmd) s) (fun u => ∃ t : State, u = t.reply x stOk 0 0 0
        ∧ t.kemPub p = (kemPair (Config.freeValue s.freeCtr % 2 ^ 512)).1 ∧ t.regs = s.regs ∧ t.m = s.m))
      ∧ (Served s x 0x0703 → cLen x.cmd = 1568 → Gives (exec (.keyOpen x.cmd) s) (fun u => ∃ t : State, u = t.reply x stOk 0 0 0
        ∧ (let c := s.rdB (keyHost (cData x.cmd)) 1568
           Tab.get t.sec.tk [] p = ofNats (hkdf256 (sha256 (toNats c))
            (kemDecaps (toNats (Tab.get s.sec.kem ([], []) p).2) (toNats c)) (p :: toNats (s.kemDigest p)) 32))
        ∧ Tab.get t.sec.tkSeq 0 p = 0 ∧ t.regs = s.regs ∧ t.m = s.m))
      ∧ (let b := s.rdB (keyHost (cData x.cmd)) (cLen x.cmd)
         let kind := leNat (b.take 1)
         let n := leNat ((b.drop 2).take 2)
         let q := leNat ((b.drop 4).take 4)
         Served s x 0x0704 → cLen x.cmd = n + 24 → (kind = 1 ∨ kind = 2) → leNat ((b.drop 1).take 1) = 0 →
          s.partState p = ptBuilding → Tab.get s.sec.tk [] p ≠ [] → n = 32 → Tab.get s.sec.tkSeq 0 p < q →
          exec (.keyInstall x.cmd) s = .next (match gcmOpen (toNats (Tab.get s.sec.tk [] p))
              (toNats ((b.drop 4).take 4) ++ List.replicate 8 0) (toNats (b.take 8)) (toNats ((b.drop 8).take n))
              (toNats (b.drop (8 + n))) with
            | none => s.reply x stKeyBad 0 0 0
            | some k => State.reply { s with sec := { s.sec with
                tkSeq := Tab.put s.sec.tkSeq 0 p q
                fabKey := if kind = 1 then Tab.put s.sec.fabKey [] p (ofNats k) else s.sec.fabKey
                ckKey := if kind = 2 then Tab.put s.sec.ckKey [] p (ofNats k) else s.sec.ckKey } } x stOk 0 0 0)))
    ∧ (let r := Config.ideRequest (s.rdB (keyHost (cData x.cmd)) (cLen x.cmd))
       Served s x 0x070B → exec (.ideKmPf0 x.cmd) s = .next (if sigOk s.opkHash r.1 r.2 then
          State.reply { s with sec := { s.sec with ide := Tab.put s.sec.ide [] 0 r.1 } } x stOk 0 0 0
        else s.reply x stSignature 0 0 0))

/-- Boot, OTP and identity (16 R533 to R545, 17 R561, R562). The boot window takes bytes while the ROM waits, and counts what
it discards otherwise; GO begins the verification, and while STATE is VERIFYING or RUNNING it does nothing; the verification,
which may end at any tick (the model's choice, assumption 168), runs the image or names the first check that fails;
FIRMWARE_READY powers the compute dies, enables the optics (assumption 6) and sets READY; a working tree burns its leaf before
it is used; a burnt OTP bit stays; a quote waits while a signature must wait. The order of the checks (assumption 107), whose
key verifies a request (assumption 106), what DEBUG_ATTACH and DEBUG_DETACH answer (assumption 108), and the standards
(assumption 10) are the model's choice too. -/
def bootAndIdentityLaw : Prop :=
  (∀ (off : Nat) (data : List Byte) (s : State), s.hubUp = true →
    (s.fld SEC_BOOT_STATE = 0 ∨ s.fld SEC_BOOT_STATE = 3 →
      exec (.bootWindowWrite off data) s = .next (s.asked.wrB (keyBoot off) (data.take (bootBytes - off))))
    ∧ (s.fld SEC_BOOT_STATE = 1 ∨ s.fld SEC_BOOT_STATE = 2 →
      exec (.bootWindowWrite off data) s = .next (s.asked.bump HUB_FW_STATUS_WIN_DISCARD 1)))
  ∧ (∀ (v : Word) (s : State), s.hubUp = true → bit v.toNat 0 = true →
    (s.fld SEC_BOOT_STATE = 0 ∨ s.fld SEC_BOOT_STATE = 3 → Gives (exec (.bootGo v) s) (fun u => u.fld SEC_BOOT_STATE = 1
      ∧ u.fld SEC_BOOT_CTRL_LENGTH = bits v.toNat 32 32 ∧ u.sec = s.sec ∧ u.m = s.m))
    ∧ (s.fld SEC_BOOT_STATE = 1 ∨ s.fld SEC_BOOT_STATE = 2 → exec (.bootGo v) s = .next s.asked))
  ∧ (∀ s : State, s.hubUp = true → s.fld SEC_BOOT_STATE = 1 →
    let r := s.imageReason (s.fld SEC_BOOT_CTRL_LENGTH)
    let u := s.tickBoot
    (Config.freeValue s.freeCtr % 2 = 0 → u.regs = s.regs ∧ u.sec = s.sec)
    ∧ (Config.freeValue s.freeCtr % 2 = 1 → u.fld SEC_BOOT_STATE = (if r = 0 then 2 else 3) ∧ u.fld SEC_BOOT_REASON = r
      ∧ (r = 0 → u.sec.fwSvn = s.img 8 4 ∧ u.sec.fwDigest = shaBytes (s.rdB (keyBoot 0) (128 + s.imgBody))) ∧ u.m = s.m))
  ∧ (∀ s : State, s.hubUp = true → s.fld SEC_BOOT_STATE = 2 →
    (s.on HUB_FW_STATUS_READY = false → Gives (exec .firmwareReady s) (fun u => u.on HUB_FW_STATUS_READY = true
      ∧ u.pm.dies = true ∧ u.fab.enA = true ∧ u.fab.enB = true ∧ u.m = s.m))
    ∧ (∀ q, s.sec.work = none → s.nextLeaf = some q → s.sec.sigs = [] →
      Gives (exec .workingTreeBuild s) (fun u => u.on SEC_BOOT_IDENT_READY = true ∧ u.sec.topLeaf = q ∧ u.sec.workLeaf = 0
        ∧ (∃ n, u.sec.work = some n) ∧ (u.sec.otp.rd (0x400 + q / 8)).toNat.testBit (q % 8) = true)))
  ∧ (∀ (off n v a i : Nat) (s : State), (s.sec.otp.rd a).toNat.testBit i = true →
      ((s.burn off n v).sec.otp.rd a).toNat.testBit i = true)
  ∧ (∀ (x : Started) (s : State),
    let p := cPart x.cmd
    (Served s x 0x0700 → 5876 ≤ cLen x.cmd → s.partState p ≠ ptFree → s.nextIdx p ≠ 0 →
      let nonce := (List.range 4).flatMap (fun k => leBytes 8 (cP x.cmd (k + 1)))
      let body := s.quoteBody p nonce (s.nextIdx p - 1)
      (s.signable = true → exec (.quote x.cmd) s =
        .next ((((s.sign body).2).wrB (keyHost (cData x.cmd)) (body ++ (s.sign body).1)).reply x stOk 0 0 0))
      ∧ (s.signable = false → s.signFails = false → exec (.quote x.cmd) s = .next (s.signReq (.quote x.cmd))))
    ∧ (Served s x 0x0706 → exec (.identRead x.cmd) s = .next (
      let pub := s.topPublic
      let b := pub ++ Config.vendorCert pub
      if cLen x.cmd < b.length then s.reply x stBadLength 0 0 0
      else (s.wrB (keyHost (cData x.cmd)) b).reply x stOk 0 0 b.length))
    ∧ (Served s x 0x0707 → s.fld SEC_OTP_GEN_SVN < s.sec.fwSvn → s.sec.fwSvn ≤ 64 → Gives (exec (.svnCommit x.cmd) s) (fun u =>
      ∃ t : State, u = t.reply x stOk 0 s.sec.fwSvn 0 ∧ t.fld SEC_OTP_GEN_SVN = s.sec.fwSvn ∧ t.sec.fwSvn = s.sec.fwSvn
        ∧ ∀ i, i < s.sec.fwSvn → (t.sec.otp.rd (0x240 + i / 8)).toNat.testBit (i % 8) = true))
    ∧ (let r := Config.otpRequest (s.rdB (keyHost (cData x.cmd)) (cLen x.cmd))
       let o := otpItem r.1
       let v := fitB o.size r.2.1
       let key := if r.1 % 3 = 0 ∨ (r.1 % 3 = 1 ∧ s.fld SEC_OTP_GEN_OPK = 7) then s.rootHash else s.opkHash
       Served s x 0x0708 → exec (.otpProgram x.cmd) s = .next (
        if !sigOk key r.2.2.1 r.2.2.2 then s.reply x stSignature 0 0 0
        else if r.1 % 3 = 2 ∧ badSettings v then s.reply x stReserved 0 0 0
        else if 4 ≤ s.nextGen o then s.reply x stOtpFull 0 0 0
        else (((s.burn (o.base + o.size * s.nextGen o) o.size (leNat v)).burn 0xA0 4 (2 ^ (o.mark + s.nextGen o))).setFld o.fld
          (s.nextGen o)).reply x stOk 0 0 0))
    ∧ (Served s x 0x070A → Gives (exec (.debugDetach x.cmd) s) (fun u => ∃ t : State, u = t.reply x stOk 0 0 0
      ∧ t.sec.tokens = [] ∧ t.m = s.m ∧ ∀ q, t.partState q = s.partState q))
    ∧ (let b := s.rdB (keyHost (cData x.cmd)) (cLen x.cmd)
       let t := b.take 64
       let f (o n : Nat) : Nat := leNat ((t.drop o).take n)
       let dg := (shaBytes t).take 16
       Served s x 0x0709 → 64 < cLen x.cmd → f 0 2 = 1 → f 2 1 < 32 → f 4 4 < 8 → f 0x20 0x20 = 0 →
        f 4 4 = s.fld SEC_OTP_GEN_OPK → f 0x18 8 = s.fld SEC_BOOT_NONCE_NONCE →
        exec (.debugAttach x.cmd) s = .next (
          if !sigOk s.opkHash t (b.drop 64) then s.reply x stSignature 0 0 0
          else if (t.drop 8).take 16 ≠ s.topTree.1 then s.reply x stToken 0 0 0
          else (State.chainAll { s with sec := { s.sec with tokens := s.sec.tokens ++ [(f 2 1, f 3 1, dg)] } }
            (debugRecord s.timeUs (f 2 1) (f 3 1) 0 dg)).reply x stOk 0 0 0)))

/-! ### Errors and diagnostics (18 R584 to R602) -/

/-- The log (18 R586 to R590, R600). A report joins the open entry with its DETAIL, CLASS and SRC, or takes a new entry with
the next SEQ, or is counted as lost; windows close in order; the mirror takes the next final entry in SEQ order; counters
freeze and clear; ERR_RING sets the mirror's ring; DUMP_READ gives the best dump; SELF_TEST replies with what failed. Which
counters CNT_CLEAR clears (assumption 34), what counts as a waiting cycle (assumption 166), and what a dump holds (assumptions
114, 149) are the model's choice. -/
def errorLogAndMirrorLaw : Prop :=
  (∀ (r : Report) (rest : List Report) (s : State), s.e.intake = r :: rest →
    (s.e.log.any (LogEnt.merges r) = true → Gives (exec .reportLog s) (fun u => u.e.intake = rest
      ∧ u.e.log.length = s.e.log.length ∧ u.fld ERR_LOG_STAT_SEQ = s.fld ERR_LOG_STAT_SEQ))
    ∧ (s.e.log.any (LogEnt.merges r) = false → 64 ≤ s.logFree → s.e.log.length < 4096 →
      (s.e.log.filter LogEnt.windowOpen).length < 64 → Gives (exec .reportLog s) (fun u => u.e.intake = rest
        ∧ u.e.log = s.e.log ++ [⟨s.timeUs, r, 1, s.fld ERR_LOG_STAT_SEQ, 0, true, false⟩]
        ∧ u.fld ERR_LOG_STAT_SEQ = (s.fld ERR_LOG_STAT_SEQ + 1) % 2 ^ 32))
    ∧ (s.e.log.any (LogEnt.merges r) = false → s.logFree < 64 → r.cls ≤ clsNotice →
      Gives (exec .reportLog s) (fun u => u.e.intake = rest ∧ u.e.log = s.e.log
        ∧ u.fld ERR_LOST_LOW = min (s.fld ERR_LOST_LOW + 1) (2 ^ 32 - 1))))
  ∧ (∀ (e : LogEnt) (s : State), s.e.log.find? LogEnt.windowOpen = some e → Gives (exec (.logWindowClose (e.seq % 4096)) s) (fun u =>
      u.e.log.length = s.e.log.length ∧ { e with windowOpen := false } ∈ u.e.log
      ∧ (u.e.log.filter LogEnt.windowOpen).length + 1 = (s.e.log.filter LogEnt.windowOpen).length))
  ∧ (∀ s : State, s.hubUp = true →
    (∀ v : BitVec 16, Gives (exec (.mirrorHeadWrite v) s) (fun u => u.fld ERR_MIRROR_HEAD_HEAD = v.toNat ∧ u.e = s.e))
    ∧ (∀ e, s.on ERR_MIRROR_CFG_EN = true → (s.fld ERR_MIRROR_TAIL_TAIL + 1) % s.mirrorN ≠ s.fld ERR_MIRROR_HEAD_HEAD % s.mirrorN →
      s.e.log.find? (fun e => !e.mirrored) = some e → e.windowOpen = false → Gives (exec .mirrorCopy s) (fun u =>
        u.rdB (keyHost (s.fld ERR_MIRROR_BASE_ADDR * 64 + 32 * s.fld ERR_MIRROR_TAIL_TAIL)) 32 = logBytes e
        ∧ { e with mirrored := true } ∈ u.e.log))
    ∧ Gives (exec .clearLost s) (fun u => u.fld ERR_LOST_LOW = 0 ∧ u.fld ERR_LOST_HIGH = 0 ∧ u.e = s.e)
    ∧ Gives (exec .cntFreeze s) (fun u => u.on ERR_CTRL_CNT_FREEZE = true ∧ ∀ f n, u.count f n = u)
    ∧ Gives (exec .cntUnfreeze s) (fun u => u.on ERR_CTRL_CNT_FREEZE = false)
    ∧ Gives (exec .cntClear s) (fun u => (∀ f : Fld, isCounter f.key = true → u.fld f = f.rst)
      ∧ (∀ f : Fld, isCounter f.key = false → u.fld f = s.fld f) ∧ u.m = s.m))
  ∧ (∀ (x : Started) (s : State),
    (Served s x 0x0800 → cP x.cmd 0 % 64 = 0 → (∃ k, 6 ≤ k ∧ k ≤ 16 ∧ cP x.cmd 1 = 2 ^ k) → Gives (exec (.errRing x.cmd) s) (fun u =>
      ∃ t : State, u = t.reply x stOk 0 0 0 ∧ t.on ERR_MIRROR_CFG_EN = true ∧ t.mirrorN = cP x.cmd 1
        ∧ t.fld ERR_MIRROR_TAIL_TAIL = 0 ∧ t.fld ERR_MIRROR_HEAD_HEAD = 0 ∧ t.e.log = s.e.log))
    ∧ (∀ i, Served s x 0x0801 → s.bestSlot = some i → s.rd (s.slotKey i + 0x58) 8 ≤ cLen x.cmd → exec (.dumpRead x.cmd) s =
      .next ((s.wrB (keyHost (cData x.cmd)) (s.rdB (s.slotKey i) (s.rd (s.slotKey i + 0x58) 8))).reply x stOk 0 (s.slotSeq i)
        (s.rd (s.slotKey i + 0x58) 8)))
    ∧ (Served s x 0x0802 → cP x.cmd 0 = 2 → exec (.selfTest x.cmd) s = .next
      ((s.darkInputs.foldl (fun s i => s.file 0x0090 clsNotice 9 i (1 + i * 2 ^ 16)) s).reply x stOk 0
        (if s.darkInputs.isEmpty then 0 else 2) 0))
    ∧ (Served s x 0x0803 → exec (.echo x.cmd) s = .next (s.reply x stOk 0 (cP x.cmd 0) 0)))

/-- It is the turn of an instruction that reads the byte at a key, on a core that no other error or transfer touches (03 R135). -/
def Meets (s : State) (core : Fin 800) (key : Nat) (x : Reading) : Prop :=
  (s.sramReads core x).any (fun r => decide (r.1 ≤ key) && decide (key < r.1 + r.2)) = true
    ∧ s.dieUp = true ∧ s.threadReady core x.thread = true ∧ s.turn core x.thread = true
    ∧ (isMatrix core = true → x.thread = 0) ∧ (∀ y ∈ s.m.xfers, y.core ≠ core.val)
    ∧ (∀ a, s.lostTable (clusterOf core) a = none)

/-- What units detect (18 R585, R591 to R593, 21 R664). A FATAL error sets its latch, is reported and enters the fail-safe
state; a latch already set counts MULTI. A junction above 95 °C and an undervoltage warning only report; an SRAM error in
shared memory fences the partition of its cluster or, where the cluster has none, stops the task whose instruction reads it;
in a core memory it stops the task whose instruction meets it, or is met by the matrix engine's operation; clearing a latch
clears VALID and MULTI; the watchdog truncates a dump. That errors in SRAM come by rows that name the memory, and which
instruction meets them (assumptions 51, 124), and what is reported of caches and ports (assumption 115) are the model's
choice; the readings of junctions and rails come from outside (assumption 73). -/
def detectedErrorsLaw : Prop :=
  (∀ (i detail kind index arg : Nat) (s : State),
    (s.fatal i detail kind index arg).on ERR_FAILSAFE_ACTIVE = true
    ∧ (s.on ERR_FAILSAFE_ACTIVE = true → s.fatal i detail kind index arg = s.latch i detail arg)
    ∧ (s.on (ERR_FATAL_VALID i) = false → (s.latch i detail arg).fld (ERR_FATAL_DETAIL i) = detail % 2 ^ 16
      ∧ (s.latch i detail arg).on (ERR_FATAL_VALID i) = true
      ∧ (s.latch i detail arg).fld (ERR_FATAL_MULTI i) = s.fld (ERR_FATAL_MULTI i))
    ∧ (s.on (ERR_FATAL_VALID i) = true → (s.latch i detail arg).fld (ERR_FATAL_MULTI i) = 1))
  ∧ (∀ s : State, s.pm.pwrGood = true →
    (∀ die tj, 105 ≤ tj → exec (.thermalTrip die tj) s = .next (s.fatal 3 0x0061 8 (die % 4096) tj))
    ∧ (∀ (rail : Fin 7) v, v < 920 ∨ 1060 < v → exec (.railFault rail v) s = .next (s.fatal 4 0x0062 8 rail rail))
    ∧ (∀ (rail : Fin 7) v, 920 ≤ v → v ≤ 1060 → exec (.railFault rail v) s = .next s)
    ∧ (100 ≤ s.pm.goodUs → s.pm.moor = false → exec .refclkLoss s = .next (s.fatal 5 0x0063 8 0 0)))
  ∧ (∀ (rail : Fin 7) (v : Nat) (s : State), s.pm.aon = true →
    (v < 960 → s.pm.lowRails.contains rail.val = false → Gives (exec (.undervoltageWarning rail v) s) (fun u =>
      u.j.hist = s.j.hist ++ [(3, s.timeUs, rail.val)] ∧ u.pm.lowRails.contains rail.val = true ∧ u.regs = s.regs ∧ u.m = s.m))
    ∧ (v < 960 → s.pm.lowRails.contains rail.val = true → exec (.undervoltageWarning rail v) s = .next s)
    ∧ (980 < v → Gives (exec (.undervoltageWarning rail v) s) (fun u => u.pm.lowRails.contains rail.val = false
      ∧ u.j = s.j ∧ u.regs = s.regs ∧ u.m = s.m)))
  ∧ (∀ s : State, s.awake = true →
    (∀ die tj, 95 < tj → exec (.thermalWarn die tj) s = .next (s.file 0x0060 clsNotice 8 (die % 4096) tj))
    ∧ exec .hubWatchdog s = .next (s.fatal 0 0x0070 0 16 0)
    ∧ (∀ code, exec (.hubFwFault code) s = .next (s.fatal 1 0x0071 0 16 code.toNat))
    ∧ (∀ code, exec (.secFault code) s = .next (s.fatal 2 0x0072 6 0 code.toNat))
    ∧ (∀ link, exec (.linkUe link) s = .next (s.fatal 7 0x0073 0 16 (link % 4)))
    ∧ (s.on ERR_FAILSAFE_ACTIVE = false →
      (∀ (cl : Fin 40) o r, (∀ p, s.clusterPart cl = some p → exec (.sramUe (.shared cl o r)) s =
          .next ((s.file 0x0011 clsPartition 2 cl o (some p)).fencePart p 1))
        ∧ (s.clusterPart cl = none → (∀ (k : Fin 20) (x : Reading), r = some (k, x) → ∀ c : Fin 800, c.val = cl * 20 + k →
            Meets s c (keyShared cl o) x →
            Gives (exec (.sramUe (.shared cl o r)) s) (fun u => u.taskState c = tkFaulted ∧ u.m.mem = s.m.mem))
          ∧ (r = none → exec (.sramUe (.shared cl o r)) s = .next (s.file 0x0011 clsNotice 2 cl o))))
      ∧ (∀ (c : Fin 800) o (r : Fin 20) (x : Reading),
        (Meets s (siblingOf c r) (keyOwn c o) x → Gives (exec (.sramUe (.own c o r x)) s) (fun u =>
          u.taskState (siblingOf c r) = tkFaulted ∧ u.m.mem = s.m.mem))
        ∧ (Meets s (siblingOf c r) (keyAcc c o) x → Gives (exec (.sramUe (.acc c o r x)) s) (fun u =>
          u.taskState (siblingOf c r) = tkFaulted ∧ u.m.mem = s.m.mem)))
      ∧ (∀ (c : Fin 800) o (t : Fin 16), s.threadReady c t = true → s.turn c t = true → s.pc c t = o / 8 →
        Gives (exec (.sramUe (.program c o)) s) (fun u => u.taskState c = tkFaulted ∧ u.m.mem = s.m.mem))
      ∧ (∀ (c : Fin 800) (q : Fin 2) o id, s.engineReader (.plane c q o) = some id →
        exec (.sramUe (.plane c q o)) s = .next ((s.file 0x0011 clsTask 1 c o (s.corePart c)).engineUe c id o))))
  ∧ (∀ s : State, s.pm.pwrGood = true → s.pm.moor = false → s.on ERR_FAILSAFE_ACTIVE = true →
    s.fld ERR_FAILSAFE_DUMP_STATE = 1 → Gives (exec .dumpWatchdog s) (fun u => u.fld ERR_FAILSAFE_DUMP_STATE = 3))
  ∧ (∀ (i : Fin 16) (s : State), s.hubUp = true → Gives (exec (.fatalLatchClear i) s) (fun u =>
      u.on (ERR_FATAL_VALID i) = false ∧ u.on (ERR_FATAL_MULTI i) = false ∧ u.e = s.e))

/-- In the fail-safe state no clock of these units runs: the commands change nothing (18 R592). -/
def failSafeLaw : Prop :=
  ∀ s : State, s.on ERR_FAILSAFE_ACTIVE = true →
    (∀ (c : Fin 800) (q : Fin 16) (plane : Fin 2) id, ∀ i ∈ [Instr.mxmStart c, .mxmFinish c, .bargePost c, .arrayFault c,
        .planeReady c plane, .planeFree c plane, .chunkLand c q, .feederCreditReturn c q, .berthReturn c id, .streamFetch c q,
        .poolGroupIssue c q],
      exec i s = .next s)
    ∧ (∀ c, exec (.taskHalt c) s = .next s.asked)
    ∧ (∀ (st : Fin 8) id, ∀ i ∈ [Instr.gather st id, .pool st id, .scatterAdd st id, .rowUpdate st id, .commandCompletion st id,
        .sweepRewrite st], exec i s = .next s)
    ∧ (∀ st addr errs, exec (.patrolScrub st addr errs) s = .next s)
    ∧ (∀ tok, exec (.contributionDoorbell tok) s = .next s ∧ exec (.exchangeDoorbell tok) s = .next s)
    ∧ (∀ p : Fin 8, ∀ i ∈ [Instr.stragglerWindowClose p, .phaseStart p, .voteSend p, .appliedSend p, .holdEnter p, .serveHeadTimer p],
      exec i s = .next s)
    ∧ (∀ (g p : Fin 8) slot bucket span, exec (.spanUpdate g p slot bucket span) s = .next s
      ∧ exec (.hubSpanUpdate p slot bucket span) s = .next s)
    ∧ (∀ via : Via, ∀ i ∈ [Instr.vote via, .groupVote via, .verdict via, .applied via, .groupApplied via, .commit via, .rollback via,
        .abort via, .resolve via, .stateMsg via], exec i s = .next s)
    ∧ exec .linkstateSend s = .next s ∧ (∀ e aOk, exec (.useA e aOk) s = .next s.asked)
    ∧ (∀ e a b, exec (.laserSupply e a b) s = .next s)
    ∧ (∀ inst, exec (.arbCommit inst) s = .next s.asked)
    ∧ (∀ fn, exec (.functionLevelReset fn) s = .next (s.enableMsix fn false))

/-! ### Power, clocks, resets, SMBus, registers (19, 20, 21) -/

/-- Operating points and clocks (19 R604 to R611, R632). OP_POINT sets the target; an evaluation that finds the junction or
the power too high asks for 100 MHz less, not below 1,100; ten good ones in a row ask for 100 MHz more, not above the target;
a clock change between MXMs brings the clock asked for into force; an idle island gates when Slack is enabled; POWER_OFF
fences every partition that is not FREE with cause OPERATOR, and power goes 1,000 µs later. The readings come from outside
(assumption 73); when OP_POINT completes, how far good evaluations count, and when power goes are the model's choice
(assumptions 122, 123). -/
def clocksLaw : Prop :=
  (∀ (tj watts : Nat) (s : State), s.dieUp = true → tj < 2 ^ 8 → watts < 2 ^ 16 →
    let hot := s.fld PM_THROT_T_HI < tj ∨ s.ceiling < watts
    let good := tj < s.fld PM_THROT_T_LO ∧ watts * 100 < s.ceiling * 95
    Gives (exec (.throttleEval tj watts) s) (fun u => u.fld PM_POWER_TJ_MAX = tj ∧ u.fld PM_POWER_PKG_W = watts
      ∧ (hot → u.pm.good = 0 ∧ u.pm.want = (if 1100 < s.nextMhz then s.nextMhz - 100 else s.pm.want))
      ∧ (¬ hot → ¬ good → u.pm.good = 0 ∧ u.pm.want = s.pm.want)
      ∧ (¬ hot → good → u.pm.good = min (s.pm.good + 1) 10 ∧ u.pm.want =
          (if 9 ≤ s.pm.good ∧ s.nextMhz < s.targetMhz then s.nextMhz + 100 else s.pm.want))))
  ∧ (∀ s : State, s.dieUp = true → s.pm.want ≠ 0 → s.pm.want < 2 ^ 11 → s.mx.mxms.any Mxm.started = false →
    Gives (exec .clockChange s) (fun u => u.mhz = s.pm.want ∧ u.pm.want = 0 ∧ u.m = s.m))
  ∧ (∀ (i : Fin 58) (s : State),
    (s.hubUp = true → s.on PM_CTRL_SLACK_EN = true → s.pm.gated.contains i.val = false → s.islandIdle i = true →
      Gives (exec (.islandGate i) s) (fun u => u.pm.gated = s.pm.gated ++ [i.val] ∧ u.regs = s.regs))
    ∧ Gives (exec (.islandUngate i) s) (fun u => i.val ∉ u.pm.gated ∧ u.regs = s.regs))
  ∧ (∀ (x : Started) (s : State),
    (let op := cP x.cmd 0
     Served s x 0x0900 → op < 3 → op ≤ s.opMax → s.pm.opCmds.contains x.cmd = false → Gives (exec (.opPoint x.cmd) s) (fun u =>
      u.fld PM_OP_CUR = op ∧ u.pm.opCmds = s.pm.opCmds ++ [x.cmd] ∧ u.pm.want = (if opMhz op < s.nextMhz then opMhz op else s.pm.want)))
    ∧ (Served s x 0x0901 → cP x.cmd 0 < 2 ^ 32 → cP x.cmd 1 < 2 ^ 32 → exec (.idleCfg x.cmd) s = .next
      (let t := (s.setFld PM_IDLE_TIMER_STAND_MS (cP x.cmd 0)).setFld PM_IDLE_TIMER_MOOR_S (cP x.cmd 1)
       State.reply { t with pm := { t.pm with idleFrom := s.timeUs, standAt := s.timeUs } } x stOk 0 0 0))
    ∧ (Served s x 0x0902 → (bits (cP x.cmd 0) 0 1 = 1 → bit s.settingsWord 0 = true) → exec (.moorEnable x.cmd) s = .next
      ((s.setFld PM_CTRL_MOOR_EN (bits (cP x.cmd 0) 0 1)).reply x stOk 0 0 0))
    ∧ (Served s x 0x0903 → ((∀ p, p < 8 → s.partState p = ptFree) → exec (.powerOff x.cmd) s = .next
        (State.reply { s with pm := { s.pm with offAt := some (s.timeUs + 1000) } } x stOk 0 0 0))
      ∧ Gives (exec (.powerOff x.cmd) s) (fun u => u.pm.offAt = some (s.timeUs + 1000)
        ∧ ∀ p, p < 8 → (s.partState p = ptBuilding ∨ s.partState p = ptStarted → u.partState p = ptFenced
            ∧ u.fld (PART_STATUS_CAUSE p) = 2)
          ∧ (s.partState p = ptFree ∨ s.partState p = ptFenced → u.partState p = s.partState p))))

/-- Stand, Moor and wakes (19 R612 to R623). Stand is entered from Active once nothing has kept the device busy for STAND_MS
(how the time is counted: assumption 169), every lambda then DOWN and the stacks in self-refresh; it is left when its exit is
complete, with HUB_LAST_WAKE written and the accesses held carried out; Moor begins in Stand, after MOOR_S, and holds the pads
at their levels, which a second Moor does not change; a wake starts the exit, and one that follows it counts as MULTI;
PAD_RELEASE lets the pads go; AUX0 marks the time. What lambdas and dies do in Stand (assumption 117), PM_CTRL.STATE in Moor
(assumption 118) and HUB_LAST_WAKE (assumption 119) are the model's choice. -/
def sleepLaw : Prop :=
  ∀ s : State,
    (s.hubUp = true → s.fld PM_CTRL_STATE = 0 →
      (s.standDue = true → exec .standEntry s = .next (s.setFld PM_CTRL_STATE 1))
      ∧ ((∃ p, p < 8 ∧ s.partState p = ptStarted) ∨ s.h.started ≠ [] ∨ s.on PM_IDLE_TIMER_STAND_MS = false
          ∨ s.timeUs < s.pm.idleFrom + 1000 * s.fld PM_IDLE_TIMER_STAND_MS → exec .standEntry s = .next s))
    ∧ (s.hubUp = true → s.fld PM_CTRL_STATE = 1 → Gives (exec .standEntry s) (fun u =>
      u.fld PM_CTRL_STATE = (if s.pm.wake = 0 then 2 else 4) ∧ (∀ l < 256, u.lstate l = lsDown) ∧ u.pm.selfRef = true
      ∧ u.pm.standAt = s.timeUs ∧ u.m = s.m))
    ∧ (s.hubUp = true → s.fld PM_CTRL_STATE = 4 → s.pm.heldReq = [] → Gives (exec .standExit s) (fun u => u.fld PM_CTRL_STATE = 0
      ∧ u.fld HUB_LAST_WAKE_SOURCE = s.pm.wake % 8 ∧ u.fld HUB_LAST_WAKE_FROM = 1 ∧ u.pm.wake = 0 ∧ u.pm.selfRef = false
      ∧ u.pm.idleFrom = s.timeUs ∧ u.m = s.m))
    ∧ (s.pm.released = true → s.pm.moor = false → s.on ERR_FAILSAFE_ACTIVE = false →
      (s.fld PM_CTRL_STATE = 2 → s.on PM_CTRL_MOOR_EN = true → s.on PM_IDLE_TIMER_MOOR_S = true →
        s.on PM_IDLE_TIMER_STAND_MS = true → s.pm.wake = 0 → (∀ p, p < 8 → s.partState p = ptFree) →
        (s.timeUs < s.pm.standAt + 1000000 * s.fld PM_IDLE_TIMER_MOOR_S → exec .moorEntry s = .next s)
        ∧ (s.pm.standAt + 1000000 * s.fld PM_IDLE_TIMER_MOOR_S ≤ s.timeUs →
          (s.on PM_WAKE_TIMER_S = false → exec .moorEntry s = .next (s.setFld PM_CTRL_STATE 3))
          ∧ (s.on PM_WAKE_TIMER_S = true → exec .moorEntry s = .next (s.setFld PM_CLAIM_MOOR_HELD 1))))
      ∧ (s.fld PM_CTRL_STATE = 3 → Gives (exec .moorEntry s) (fun u => u.pm.moor = true ∧ u.on PM_PAD_RELEASE_HELD = true
        ∧ u.fab.enA = false ∧ u.fab.enB = false
        ∧ (s.pm.pads = none → u.pm.pads = some ⟨s.pm.fault, false, false, s.pm.gpioOut, s.pm.gpio⟩)
        ∧ (s.pm.pads ≠ none → u.pm.pads = s.pm.pads))))
    ∧ (s.pm.moor = true → s.pm.wake ≠ 0 → Gives (exec .moorExit s) (fun u => u.fld HUB_RESET_CAUSE_CAUSE = 4
      ∧ u.fld HUB_LAST_WAKE_SOURCE = s.pm.wake % 8 ∧ u.fld HUB_LAST_WAKE_FROM = 2 ∧ u.pm.moor = false ∧ u.pm.released = false
      ∧ u.pm.pads = s.pm.pads))
    ∧ (s.pm.wake = 0 → s.hubUp = true →
      (s.fld PM_CTRL_STATE = 2 → Gives (exec .pcieInbandWake s) (fun u => u.pm.wake = 1 ∧ u.fld PM_CTRL_STATE = 4)
        ∧ (s.on PM_WAKE_TIMER_S = true → Gives (exec .wakeTimerExpire s) (fun u => u.pm.wake = 4 ∧ u.fld PM_CTRL_STATE = 4)))
      ∧ (s.fld PM_CTRL_STATE = 1 → Gives (exec .pcieInbandWake s) (fun u => u.pm.wake = 1 ∧ u.pm.replayed = true ∧ u.regs = s.regs)))
    ∧ (s.standing = true → s.pm.wake ≠ 0 → Gives (exec .pcieInbandWake s) (fun u => u.pm.multi = true ∧ u.pm.wake = s.pm.wake))
    ∧ (s.hubUp = true → Gives (exec .padRelease s) (fun u => u.on PM_PAD_RELEASE_HELD = false ∧ u.pm.pads = none))
    ∧ (s.hubUp = true → s.on PM_AUX_CFG_PPS_EN = true → exec .aux0Edge s = .next (s.setFld PM_PPS_TIME s.timeUs))

/-- Resets and supplies (19 R593, R617, R620, R625 to R631, 21 R659, R665, R669). PERST_N resets the device at once and leaves
Off; RESET_RELEASE, 1,000 µs after PWR_GOOD (the model counts them by its ticks: assumption 169), starts the hub with a new
boot nonce, with the compute dies not yet powered; the always-on domain's power-on keeps the OTP and takes the straps, and
with its supply gone no pad is driven; a brown-out and a loss of the main rails write their cause. A reset keeps the always-on
registers, the OTP, the host's memory and the queue, every GPIO pin is an input after it unless Moor holds it, and nothing
runs after it. What HUB_LAST_WAKE says (assumption 119), what Off and a reset keep (assumption 120), and the laser enables at
reset (assumption 6) are the model's choice. -/
def resetsLaw : Prop :=
  (∀ s : State,
    (s.pm.aon = true → Gives (exec (.perstN true) s) (fun u => u.fld HUB_RESET_CAUSE_CAUSE = 1 ∧ u.pm.perst = true ∧ u.pm.off = false
      ∧ u.pm.released = false ∧ u.on ERR_FAILSAFE_ACTIVE = false ∧ u.sec.otp = s.sec.otp ∧ u.pending = s.pending))
    ∧ Gives (exec (.perstN false) s) (fun u => u.pm.perst = false ∧ u.regs = s.regs)
    ∧ (s.pm.aon = true → Gives (exec .pwrGoodAssert s) (fun u => u.pm.pwrGood = true ∧ u.regs = s.regs
      ∧ (s.pm.pwrGood = false → u.pm.goodUs = 0)))
    ∧ (s.pm.released = false → s.pm.perst = false → s.pm.pwrGood = true → s.pm.off = false → s.pm.goodUs = 1000 →
      s.pm.smbFence = false → s.opMax ≠ 0 → Gives (exec .resetRelease s) (fun u => u.pm.released = true ∧ u.timeUs = 0
        ∧ u.pm.dies = s.pm.dies
        ∧ u.fld SEC_BOOT_NONCE_NONCE = Config.freeValue s.freeCtr % 2 ^ 64 ∧ u.fld PM_OP_CUR = s.fld PM_OP_CUR))
    ∧ (s.pm.goodUs < 1000 → exec .resetRelease s = .next s)
    ∧ (∀ feed smb, Gives (exec (.aonPowerOn (.rise feed smb)) s) (fun u => u.fld HUB_FEED_OWN = feed.toNat
      ∧ u.pm.smbAddr = smb.toNat ∧ u.pm.aon = true ∧ u.pm.pwrReq = true
      ∧ u.pm.released = false ∧ u.pm.pwrGood = false ∧ u.sec.otp = s.sec.otp ∧ u.fld HUB_RESET_CAUSE_CAUSE = 0))
    ∧ Gives (exec (.aonPowerOn .fall) s) (fun u => u.pm.aon = false ∧ u.pm.released = false ∧ u.sec.otp = s.sec.otp
      ∧ u.faultPad = none ∧ u.laserPads = none ∧ u.aux0Pad = none ∧ (∀ i, u.gpioPad i = none)
      ∧ ∀ i, i < 16 → u.on (ERR_FATAL_VALID i) = false)
    ∧ (s.pm.moor = true ∨ s.pm.off = true → Gives (exec .brownoutAon s) (fun u => u.fld HUB_RESET_CAUSE_CAUSE = 2
      ∧ u.pm.moor = false ∧ u.pm.released = false))
    ∧ (s.pm.moor = false → s.pm.off = false → exec .brownoutAon s = .next s)
    ∧ (s.pm.off = false → Gives (exec .mainLoss s) (fun u => u.fld HUB_RESET_CAUSE_CAUSE = 5 ∧ u.pm.pwrGood = false
      ∧ u.pm.released = false)))
  ∧ (∀ (cause : Nat) (dump : Bool) (s : State), cause < 16 →
    let t := s.resetCause cause dump
    t.pm.released = false ∧ t.fld HUB_RESET_CAUSE_CAUSE = cause ∧ t.fld PM_AON_SECONDS_S = s.fld PM_AON_SECONDS_S
    ∧ t.pm.dies = false ∧ (s.pm.pads = none → ∀ i, t.gpioPad i = none)
    ∧ (∀ p, p < 8 → t.partState p = ptFree) ∧ (∀ c k, t.sreg c 0 k = 0) ∧ t.m.reqs = [] ∧ t.m.xfers = []
    ∧ (∀ a, 2 ^ 64 ≤ a → t.m.mem.rd a = s.m.mem.rd a) ∧ (dump = false → ∀ a, a < 2 ^ 64 → t.m.mem.rd a = 0))

/-- The SMBus target (21 R660, R666 to R669). It is addressed at 0x68 + SMB_ADDR and at nothing else. A write with another
data byte than its own, with a wrong PEC, or without the ARM that it asks for is not acknowledged and does nothing; only 0xA5
arms it, and any other access disarms it; a code that is not listed is not acknowledged; an armed fence in Active enters the
fail-safe state through latch 8, in Moor it waits; an armed power-up leaves Off with cause SMB_POWER; the reads answer with
what R667 names, and with a PEC where the host asks for one (its polynomial is taken from the SMBus family: assumption 121).
What an action does in a state that the rules do not pair with it is the model's choice (assumption 121). -/
def smbusLaw : Prop :=
  (∀ (x : SmbWrite) (s : State),
    let pec (code : Nat) : Prop := ∀ p, x.pec = some p → p.toNat = smbPec [2 * x.addr.toNat, code, x.data.toNat]
    let no := s.disarm.answer .nak
    (s.smbMine x.addr = false → ∀ i ∈ [Instr.smbArm x, .smbFence x, .smbPowerOff x, .smbPowerUp x], exec i s = .next s)
    ∧ (s.smbMine x.addr = true →
      (x.data = 0xA5 → pec 0x10 → Gives (exec (.smbArm x) s) (fun u => u.pm.armed = true ∧ u.regs = s.regs))
      ∧ (x.data ≠ 0xA5 ∨ ¬ pec 0x10 → exec (.smbArm x) s = .next no)
      ∧ (s.pm.armed = false ∨ s.pm.off = true ∨ x.data ≠ 1 ∨ ¬ pec 0x11 → exec (.smbFence x) s = .next no)
      ∧ (s.pm.armed = false ∨ s.pm.off = true ∨ x.data ≠ 2 ∨ ¬ pec 0x12 → exec (.smbPowerOff x) s = .next no)
      ∧ (s.pm.armed = false ∨ s.pm.off = false ∨ x.data ≠ 3 ∨ ¬ pec 0x13 → exec (.smbPowerUp x) s = .next no)
      ∧ (s.pm.armed = true → s.pm.off = false →
        (x.data = 1 → pec 0x11 →
          (s.on ERR_FAILSAFE_ACTIVE = false → s.pm.moor = false → s.pm.released = true → s.fld PM_CTRL_STATE ≠ 3 →
            exec (.smbFence x) s = .next (s.disarm.answer .ack).smbFenced)
          ∧ (s.on ERR_FAILSAFE_ACTIVE = false → s.pm.moor = true → Gives (exec (.smbFence x) s) (fun u =>
            u.pm.smbFence = true ∧ u.pm.armed = false ∧ u.regs = s.regs)))
        ∧ (x.data = 2 → pec 0x12 → Gives (exec (.smbPowerOff x) s) (fun u => u.pm.smbOff = true ∧ u.pm.armed = false)))
      ∧ (s.pm.armed = true → s.pm.off = true → x.data = 3 → pec 0x13 → Gives (exec (.smbPowerUp x) s) (fun u =>
        u.pm.off = false ∧ u.pm.pwrReq = true ∧ u.pm.armed = false ∧ u.fld HUB_RESET_CAUSE_CAUSE = 3))))
  ∧ (∀ (x : SmbMatch) (s : State),
    (s.smbMine x.addr = false → exec (.smbusAddressMatch x) s = .next s)
    ∧ (s.smbMine x.addr = true →
      (s.pm.released = true → s.pm.moor = true → s.pm.wake = 0 → s.fld PM_CTRL_STATE ≠ 2 →
        Gives (exec (.smbusAddressMatch x) s) (fun u => u.pm.wake = 2 ∧ u.regs = s.regs))
      ∧ (∀ c, x.code = some c → smbListed c.toNat = false → Gives (exec (.smbusAddressMatch x) s) (fun u => u.pm.armed = false
        ∧ u.e.answers = s.e.answers ++ [.nak]))))
  ∧ (∀ (x : SmbRead) (s : State), s.smbMine x.addr = true →
    let answers (code : Nat) (i : Instr) (b : List Byte) : Prop :=
      let a := 2 * x.addr.toNat
      exec i s = .next (s.disarm.answer (.data (if x.pec = true then b ++ leBytes 1 (smbPec ([a, code, a + 1] ++ toNats b)) else b)))
    answers 1 (.smbFailsafe x) (leBytes 1 (s.readWord true 0x3000040))
    ∧ answers 2 (.smbFatal x) (leBytes 2 (sumOf ((List.range 16).map (fun i => s.fld (ERR_FATAL_VALID i) * 2 ^ i))))
    ∧ (s.pm.pwrGood = false → answers 3 (.smbTj x) [0xFF])
    ∧ (s.pm.pwrGood = true → s.pm.dies = true → s.pm.moor = false → s.fld PM_CTRL_STATE = 0 →
      answers 3 (.smbTj x) (leBytes 1 (s.fld PM_POWER_TJ_MAX)))
    ∧ answers 4 (.smbCause x) (leBytes 1 (s.readWord true 0x10))
    ∧ answers 5 (.smbWake x) (leBytes 1 (s.readWord true 0x18))
    ∧ (s.pm.moor = false → answers 6 (.smbState x) (leBytes 1 (s.fld PM_CTRL_STATE + b2n s.pm.off * 2 ^ 3
        + b2n s.pm.pwrGood * 2 ^ 4 + b2n s.pm.pwrReq * 2 ^ 5)))
    ∧ answers 7 (.smbId x) (leBytes 2 (s.readWord true 0)))

/-- Register writes (20 R638 to R643). A misaligned write, a write of another size than 4 or 8 bytes, a write to an address
where nothing is or to the addresses of a ring that is enabled (17 R565), and a write by a function that takes no requests
change nothing; in Stand a write to a gated block is held; any other write of PF0 to a register without a row of its own sets
the fields that its bytes cover, as their access allows; with MSI-X enabled a vector may fire (its enable is state of the
model, which the spec's PCIe configuration space holds: assumption 93). Each counts as a PCIe request (19 R612, assumption
169). That a register with a row of its own is left to that row (assumption 105), and that one of more than 64 bits gathers
its parts (assumption 66), is the model's choice. -/
def registerWritesLaw : Prop :=
  ∀ (q : Requester) (off size : Nat) (v : Word) (s : State), s.hubUp = true →
    let fn := q.fn
    let write := exec (.registerWrite q (.bar off size) v) s
    (s.fnShut q = true → write = .next s.asked)
    ∧ ((size ≠ 4 ∧ size ≠ 8) ∨ off % size ≠ 0 ∨ (msixOff fn off = none ∧ baseAddr fn off = none)
      ∨ (∃ a, msixOff fn off = none ∧ baseAddr fn off = some a ∧ s.ringLocked a = true) → write = .next s.asked)
    ∧ (∀ a, fn = 0 → (size = 4 ∨ size = 8) → off % size = 0 → msixOff 0 off = none → baseAddr 0 off = some a → ownRow a = false →
      s.ringLocked a = false →
      (s.standing = true → standBlock a = false → write = .next (s.asked.holdReq (.write q off size v)))
      ∧ ((s.standing = false ∨ standBlock a = true) → a / 8 * 8 ≠ 0x1000040 → write = .next (s.asked.writeAt a size v.toNat)))
    ∧ (fn = 0 → Gives (exec (.registerWrite q (.bar 0x1000008 8) v) s) (fun u => u.fld PM_THROT_T_HI = v.toNat % 256 ∧ u.m = s.m))
    ∧ (fn = 0 → Gives (exec (.registerWrite q .msixEnable v) s) (fun u =>
      u.h.msixOn.contains 0 = bit v.toNat 0 ∧ u.m = s.m ∧ u.regs = s.regs
      ∧ ∀ k, k ≠ 0 → u.h.msixOn.contains k = s.h.msixOn.contains k))
end Sys2Proof.Machine

section
open Sys2Proof Sys2Proof.Machine

/-- Partitions, their keys and the aperture (16 R519 to R525, R528, R547 to R551, 17 R560). -/
def Obligations.Partitions : Prop := partitionsLaw ∧ keysLaw ∧ apertureLaw

/-- Keys, boot, OTP and identity (16 R528, R533 to R551, 17 R561, R562). -/
def Obligations.Keys : Prop := keysLaw ∧ bootAndIdentityLaw

/-- Boot, OTP, identity and the life of a partition (16 R519 to R545, 17 R561, R562). -/
def Obligations.BootAndIdentity : Prop := bootAndIdentityLaw ∧ partitionsLaw

/-- The log, and what units detect and report to it (18 R584 to R600). -/
def Obligations.ErrorLogAndMirror : Prop := errorLogAndMirrorLaw ∧ detectedErrorsLaw

/-- What units detect, and what stops in the fail-safe state (18 R585, R591 to R593, 03 R135, 04 R176, 21 R664). -/
def Obligations.DetectedErrors : Prop := detectedErrorsLaw ∧ failSafeLaw

/-- Operating points, clocks, Stand, Moor and wakes (19 R604 to R623, R632). -/
def Obligations.Clocks : Prop := clocksLaw ∧ sleepLaw

/-- Stand, Moor, wakes, resets and supplies (19 R612 to R631, 18 R593, 21 R665, R669). -/
def Obligations.Sleep : Prop := sleepLaw ∧ resetsLaw

/-- Resets, supplies and the SMBus target (19 R617, R620, R625 to R631, 18 R593, 21 R665 to R669). -/
def Obligations.Resets : Prop := resetsLaw ∧ smbusLaw

/-- The SMBus target, operating points and clocks (21 R666 to R669, 19 R604 to R611, R632). -/
def Obligations.Smbus : Prop := smbusLaw ∧ clocksLaw

/-- Registers that the host writes: those without a row of their own, a ring's, an arbiter's, and the log's (20 R638 to R643, 17 R564
to R566, 18 R586 to R600). -/
def Obligations.RegisterWrites : Prop := registerWritesLaw ∧ arbiterCommitLaw ∧ ringLaw ∧ resetLaw ∧ errorLogAndMirrorLaw
end
end

