-- ==== Sys2Proof/Laws/Tab.lean ====
section
/-! SUPPORT. Sparse tables and memories: what a read gives after a write, and that every operation keeps the canonical
form. -/

namespace Sys2Proof.Machine

section Tables
variable {α : Type}

/-! ### What a read gives -/

@[simp] theorem Tab.get_nil (d : α) (k : Nat) : Tab.get [] d k = d := rfl

theorem Tab.get_del (t : Tab α) (d : α) (k j : Nat) : (t.del k).get d j = if j = k then d else t.get d j := by
  induction t with
  | nil => simp [Tab.del]
  | cons e r ih =>
    by_cases h : e.1 = k
    · simp only [Tab.del, h, if_true, ih, Tab.get]
      by_cases hj : j = k
      · simp [hj]
      · simp [hj, Ne.symm hj]
    · simp only [Tab.del, h, if_false, Tab.get, ih]
      by_cases hj : j = k
      · subst hj; simp [h]
      · simp [hj]

theorem Tab.get_ins (t : Tab α) (d : α) (k j : Nat) (v : α) (hk : ∀ e ∈ t, e.1 ≠ k) :
    (t.ins k v).get d j = if j = k then v else t.get d j := by
  induction t with
  | nil => simp [Tab.ins, Tab.get, eq_comm]
  | cons e r ih =>
    have he : e.1 ≠ k := hk e (by simp)
    unfold Tab.ins
    split
    · simp only [Tab.get, eq_comm (a := k)]
    · have := ih (fun x hx => hk x (by simp [hx]))
      simp only [Tab.get, this]
      by_cases hj : j = k
      · subst hj; simp [he]
      · simp [hj]

theorem Tab.key_of_mem_del (t : Tab α) (k : Nat) : ∀ e ∈ t.del k, e.1 ≠ k := by
  induction t with
  | nil => simp [Tab.del]
  | cons x r ih =>
    intro e he
    unfold Tab.del at he
    split at he
    · exact ih e he
    · simp only [List.mem_cons] at he
      rcases he with rfl | he
      · assumption
      · exact ih e he

theorem Tab.get_put [DecidableEq α] (t : Tab α) (d : α) (k j : Nat) (v : α) :
    (t.put d k v).get d j = if j = k then v else t.get d j := by
  unfold Tab.put
  split
  · subst_vars; rw [Tab.get_del]
  · rw [Tab.get_ins _ _ _ _ _ (Tab.key_of_mem_del t k), Tab.get_del]
    split <;> rfl

@[simp] theorem Tab.get_put_same [DecidableEq α] (t : Tab α) (d : α) (k : Nat) (v : α) : (t.put d k v).get d k = v := by
  simp [Tab.get_put]

theorem Tab.get_put_ne [DecidableEq α] (t : Tab α) (d d' : α) (k j : Nat) (v : α) (h : j ≠ k) :
    (t.put d k v).get d' j = t.get d' j := by
  unfold Tab.put
  split
  · rw [Tab.get_del]; simp [h]
  · rw [Tab.get_ins _ _ _ _ _ (Tab.key_of_mem_del t k), Tab.get_del]; simp [h]

theorem Tab.get_drop (t : Tab α) (d : α) (p : Nat → Bool) (k : Nat) : (t.drop p).get d k = if p k then d else t.get d k := by
  induction t with
  | nil => simp [Tab.drop]
  | cons e r ih =>
    unfold Tab.drop at ih ⊢
    by_cases h : p e.1 = true
    · simp only [List.filter_cons, h, Bool.not_true, Bool.false_eq_true, if_false, ih, Tab.get]
      by_cases hk : e.1 = k
      · subst hk; simp [h]
      · simp [hk]
    · simp only [List.filter_cons, h, Bool.not_false, if_true, Tab.get, ih]
      by_cases hk : e.1 = k
      · subst hk; simp [h]
      · simp [hk]

/-! ### The canonical form -/

/-- The canonical form as a proposition: keys rise strictly, and no value is the default. -/
theorem Tab.wf_iff [DecidableEq α] (t : Tab α) (d : α) :
    t.wf d = true ↔ (∀ e ∈ t, e.2 ≠ d) ∧ t.Pairwise (fun a b => a.1 < b.1) := by
  induction t with
  | nil => simp [Tab.wf]
  | cons e r ih =>
    cases r with
    | nil => simp [Tab.wf]
    | cons f r =>
      simp only [Tab.wf, Bool.and_eq_true, decide_eq_true_eq, ih, List.pairwise_cons, List.mem_cons, forall_eq_or_imp]
      constructor
      · rintro ⟨⟨h1, h2⟩, ⟨h3, h4⟩, h5, h6⟩
        exact ⟨⟨h1, h3, h4⟩, ⟨h2, fun a ha => Nat.lt_trans h2 (h5 a ha)⟩, h5, h6⟩
      · rintro ⟨⟨h1, h3, h4⟩, ⟨h2, _⟩, h5, h6⟩
        exact ⟨⟨h1, h2⟩, ⟨h3, h4⟩, h5, h6⟩

theorem Tab.del_sublist (t : Tab α) (k : Nat) : (t.del k).Sublist t := by
  induction t with
  | nil => simp [Tab.del]
  | cons e r ih =>
    unfold Tab.del
    split
    · exact ih.cons e
    · exact ih.cons_cons e

theorem Tab.wf_sublist [DecidableEq α] {t u : Tab α} {d : α} (h : u.Sublist t) (ht : t.wf d = true) : u.wf d = true := by
  rw [Tab.wf_iff] at ht ⊢
  exact ⟨fun e he => ht.1 e (h.subset he), ht.2.sublist h⟩

theorem Tab.del_wf [DecidableEq α] {t : Tab α} {d : α} (h : t.wf d = true) (k : Nat) : (t.del k).wf d = true :=
  Tab.wf_sublist (Tab.del_sublist t k) h

theorem Tab.drop_wf [DecidableEq α] {t : Tab α} {d : α} (h : t.wf d = true) (p : Nat → Bool) : (t.drop p).wf d = true :=
  Tab.wf_sublist List.filter_sublist h

theorem Tab.mem_ins {t : Tab α} {k : Nat} {v : α} {e : Nat × α} : e ∈ t.ins k v ↔ e = (k, v) ∨ e ∈ t := by
  induction t with
  | nil => simp [Tab.ins]
  | cons x r ih =>
    unfold Tab.ins
    split
    · simp
    · simp only [List.mem_cons, ih]; tauto

theorem Tab.ins_wf [DecidableEq α] {t : Tab α} {d : α} {k : Nat} {v : α} (h : t.wf d = true) (hv : v ≠ d)
    (hk : ∀ e ∈ t, e.1 ≠ k) : (t.ins k v).wf d = true := by
  rw [Tab.wf_iff] at h ⊢
  obtain ⟨h1, h2⟩ := h
  refine ⟨fun e he => ?_, ?_⟩
  · rcases Tab.mem_ins.1 he with rfl | he
    · exact hv
    · exact h1 e he
  · induction t with
    | nil => simp [Tab.ins]
    | cons x r ih =>
      rw [List.pairwise_cons] at h2
      unfold Tab.ins
      split
      · rename_i hx
        simp only [List.pairwise_cons, List.mem_cons, forall_eq_or_imp]
        exact ⟨⟨hx, fun a ha => Nat.lt_trans hx (h2.1 a ha)⟩, h2⟩
      · rename_i hx
        have hxk : x.1 < k := by have := hk x (by simp); omega
        rw [List.pairwise_cons]
        refine ⟨fun a ha => ?_, ih (fun e he => hk e (by simp [he])) (fun e he => h1 e (by simp [he])) h2.2⟩
        rcases Tab.mem_ins.1 ha with rfl | ha
        · exact hxk
        · exact h2.1 a ha

theorem Tab.put_wf [DecidableEq α] {t : Tab α} {d : α} (h : t.wf d = true) (k : Nat) (v : α) : (t.put d k v).wf d = true := by
  unfold Tab.put
  split
  · exact Tab.del_wf h k
  · exact Tab.ins_wf (Tab.del_wf h k) ‹_› (Tab.key_of_mem_del t k)

end Tables

/-! ### Memory -/

@[simp] theorem Mem.rd_wr (m : Mem) (a b : Nat) (v : Byte) : (m.wr a v).rd b = if b = a then v else m.rd b :=
  Tab.get_put m memDefault a b v

@[simp] theorem Mem.wr_wf {m : Mem} (h : m.wf = true) (a : Nat) (v : Byte) : (m.wr a v).wf = true := Tab.put_wf h a v

@[simp] theorem Mem.wrBytes_wf {m : Mem} (h : m.wf = true) (a : Nat) (l : List Byte) : (m.wrBytes a l).wf = true := by
  induction l generalizing m a with
  | nil => exact h
  | cons b r ih => exact ih (Mem.wr_wf h a b) _

@[simp] theorem Mem.wrLE_wf {m : Mem} (h : m.wf = true) (a n v : Nat) : (m.wrLE a n v).wf = true := Mem.wrBytes_wf h _ _

@[simp] theorem Mem.clear_wf {m : Mem} (h : m.wf = true) (a n : Nat) : (m.clear a n).wf = true := Tab.drop_wf h _

theorem Mem.foldl_wr_wf {m : Mem} (h : m.wf = true) (l : List (Nat × Byte)) :
    (l.foldl (fun (m : Mem) e => m.wr e.1 e.2) m).wf = true := by
  induction l generalizing m with
  | nil => exact h
  | cons e r ih => exact ih (Mem.wr_wf h _ _)

/-- A byte outside those written stays. -/
theorem Mem.rd_wrBytes_out (m : Mem) (a k : Nat) (l : List Byte) (h : k < a ∨ a + l.length ≤ k) :
    (m.wrBytes a l).rd k = m.rd k := by
  induction l generalizing m a with
  | nil => rfl
  | cons b r ih =>
    simp only [List.length_cons] at h
    simp only [Mem.wrBytes]
    rw [ih (m.wr a b) (a + 1) (by omega), Mem.rd_wr]
    split <;> [omega; rfl]

/-- Byte `i` of those written reads back. -/
theorem Mem.rd_wrBytes_in (m : Mem) (a i : Nat) (l : List Byte) (h : i < l.length) :
    (m.wrBytes a l).rd (a + i) = l.getD i 0 := by
  induction l generalizing m a i with
  | nil => simp at h
  | cons b r ih =>
    simp only [Mem.wrBytes]
    cases i with
    | zero => rw [Mem.rd_wrBytes_out _ _ _ _ (by omega)]; simp
    | succ n =>
      have := ih (m.wr a b) (a + 1) n (by simpa using h)
      rw [show a + (n + 1) = a + 1 + n by omega, this]; simp

theorem Mem.rdBytes_wrBytes (m : Mem) (a : Nat) (l : List Byte) : (m.wrBytes a l).rdBytes a l.length = l := by
  induction l generalizing m a with
  | nil => rfl
  | cons b r ih =>
    simp only [Mem.wrBytes, List.length_cons, Mem.rdBytes, ih]
    rw [Mem.rd_wrBytes_out _ _ _ _ (by omega)]; simp

theorem Mem.rd_clear (m : Mem) (a n k : Nat) : (m.clear a n).rd k = if a ≤ k ∧ k < a + n then memDefault else m.rd k := by
  simp only [Mem.rd, Mem.clear, Tab.get_drop]; simp

/-! ### Byte order -/

@[simp] theorem length_leBytes (n v : Nat) : (leBytes n v).length = n := by
  induction n generalizing v with
  | zero => rfl
  | succ n ih => simp [leBytes, ih]

theorem leNat_leBytes (n v : Nat) : leNat (leBytes n v) = v % 256 ^ n := by
  induction n generalizing v with
  | zero => simp [leBytes, leNat, Nat.mod_one]
  | succ n ih =>
    have h : (BitVec.ofNat 8 v).toNat = v % 256 := by rw [BitVec.toNat_ofNat]
    rw [leBytes, leNat, ih, h, Nat.pow_succ, Nat.mul_comm (256 ^ n), Nat.mod_mul]

theorem leNat_lt (l : List Byte) : leNat l < 256 ^ l.length := by
  induction l with
  | nil => simp [leNat]
  | cons b r ih =>
    have := b.isLt
    simp only [leNat, List.length_cons, Nat.pow_succ]
    omega

theorem length_rdBytes (m : Mem) (a n : Nat) : (m.rdBytes a n).length = n := by
  induction n generalizing a with
  | zero => rfl
  | succ n ih => simp [Mem.rdBytes, ih]

/-- A number written and read back is cut to its bytes. -/
theorem Mem.rdLE_wrLE (m : Mem) (a n v : Nat) : (m.wrLE a n v).rdLE a n = v % 256 ^ n := by
  have := Mem.rdBytes_wrBytes m a (leBytes n v)
  rw [length_leBytes] at this
  rw [Mem.rdLE, Mem.wrLE, this, leNat_leBytes]

end Sys2Proof.Machine
end

