-- ==== Sys2Proof/Laws/State.lean ====
section
/-! SUPPORT. The plain updates of State: each leaves every other field alone, and a read after a write gives the value
written. -/

namespace Sys2Proof.Machine

/-! ### Fields that an update leaves alone -/

@[simp] theorem State.updCmd_pending (s : State) (x : BCmd) : (s.updCmd x).pending = s.pending := rfl
@[simp] theorem State.updCmd_freeCtr (s : State) (x : BCmd) : (s.updCmd x).freeCtr = s.freeCtr := rfl
@[simp] theorem State.updCmd_timeUs (s : State) (x : BCmd) : (s.updCmd x).timeUs = s.timeUs := rfl
@[simp] theorem State.updCmd_regs (s : State) (x : BCmd) : (s.updCmd x).regs = s.regs := rfl
@[simp] theorem State.updCmd_core (s : State) (x : BCmd) : (s.updCmd x).core = s.core := rfl
@[simp] theorem State.updCmd_mx (s : State) (x : BCmd) : (s.updCmd x).mx = s.mx := rfl
@[simp] theorem State.updCmd_m (s : State) (x : BCmd) : (s.updCmd x).m = s.m := rfl
@[simp] theorem State.updCmd_e (s : State) (x : BCmd) : (s.updCmd x).e = s.e := rfl
@[simp] theorem State.updCmd_fab (s : State) (x : BCmd) : (s.updCmd x).fab = s.fab := rfl
@[simp] theorem State.updCmd_sec (s : State) (x : BCmd) : (s.updCmd x).sec = s.sec := rfl
@[simp] theorem State.updCmd_j (s : State) (x : BCmd) : (s.updCmd x).j = s.j := rfl
@[simp] theorem State.updCmd_h (s : State) (x : BCmd) : (s.updCmd x).h = s.h := rfl
@[simp] theorem State.updCmd_pm (s : State) (x : BCmd) : (s.updCmd x).pm = s.pm := rfl

@[simp] theorem State.setJob_pending (s : State) (p : Nat) (v : JobSt) : (s.setJob p v).pending = s.pending := rfl
@[simp] theorem State.setJob_freeCtr (s : State) (p : Nat) (v : JobSt) : (s.setJob p v).freeCtr = s.freeCtr := rfl
@[simp] theorem State.setJob_timeUs (s : State) (p : Nat) (v : JobSt) : (s.setJob p v).timeUs = s.timeUs := rfl
@[simp] theorem State.setJob_regs (s : State) (p : Nat) (v : JobSt) : (s.setJob p v).regs = s.regs := rfl
@[simp] theorem State.setJob_core (s : State) (p : Nat) (v : JobSt) : (s.setJob p v).core = s.core := rfl
@[simp] theorem State.setJob_mx (s : State) (p : Nat) (v : JobSt) : (s.setJob p v).mx = s.mx := rfl
@[simp] theorem State.setJob_m (s : State) (p : Nat) (v : JobSt) : (s.setJob p v).m = s.m := rfl
@[simp] theorem State.setJob_e (s : State) (p : Nat) (v : JobSt) : (s.setJob p v).e = s.e := rfl
@[simp] theorem State.setJob_b (s : State) (p : Nat) (v : JobSt) : (s.setJob p v).b = s.b := rfl
@[simp] theorem State.setJob_fab (s : State) (p : Nat) (v : JobSt) : (s.setJob p v).fab = s.fab := rfl
@[simp] theorem State.setJob_sec (s : State) (p : Nat) (v : JobSt) : (s.setJob p v).sec = s.sec := rfl
@[simp] theorem State.setJob_h (s : State) (p : Nat) (v : JobSt) : (s.setJob p v).h = s.h := rfl
@[simp] theorem State.setJob_pm (s : State) (p : Nat) (v : JobSt) : (s.setJob p v).pm = s.pm := rfl

@[simp] theorem State.setDrain_pending (s : State) (d : Drain) : (s.setDrain d).pending = s.pending := rfl
@[simp] theorem State.setDrain_freeCtr (s : State) (d : Drain) : (s.setDrain d).freeCtr = s.freeCtr := rfl
@[simp] theorem State.setDrain_timeUs (s : State) (d : Drain) : (s.setDrain d).timeUs = s.timeUs := rfl
@[simp] theorem State.setDrain_regs (s : State) (d : Drain) : (s.setDrain d).regs = s.regs := rfl
@[simp] theorem State.setDrain_core (s : State) (d : Drain) : (s.setDrain d).core = s.core := rfl
@[simp] theorem State.setDrain_mx (s : State) (d : Drain) : (s.setDrain d).mx = s.mx := rfl
@[simp] theorem State.setDrain_m (s : State) (d : Drain) : (s.setDrain d).m = s.m := rfl
@[simp] theorem State.setDrain_e (s : State) (d : Drain) : (s.setDrain d).e = s.e := rfl
@[simp] theorem State.setDrain_b (s : State) (d : Drain) : (s.setDrain d).b = s.b := rfl
@[simp] theorem State.setDrain_fab (s : State) (d : Drain) : (s.setDrain d).fab = s.fab := rfl
@[simp] theorem State.setDrain_sec (s : State) (d : Drain) : (s.setDrain d).sec = s.sec := rfl
@[simp] theorem State.setDrain_h (s : State) (d : Drain) : (s.setDrain d).h = s.h := rfl
@[simp] theorem State.setDrain_pm (s : State) (d : Drain) : (s.setDrain d).pm = s.pm := rfl

@[simp] theorem State.setLam_pending (s : State) (l : Nat) (v : Lam) : (s.setLam l v).pending = s.pending := rfl
@[simp] theorem State.setLam_freeCtr (s : State) (l : Nat) (v : Lam) : (s.setLam l v).freeCtr = s.freeCtr := rfl
@[simp] theorem State.setLam_timeUs (s : State) (l : Nat) (v : Lam) : (s.setLam l v).timeUs = s.timeUs := rfl
@[simp] theorem State.setLam_regs (s : State) (l : Nat) (v : Lam) : (s.setLam l v).regs = s.regs := rfl
@[simp] theorem State.setLam_core (s : State) (l : Nat) (v : Lam) : (s.setLam l v).core = s.core := rfl
@[simp] theorem State.setLam_mx (s : State) (l : Nat) (v : Lam) : (s.setLam l v).mx = s.mx := rfl
@[simp] theorem State.setLam_m (s : State) (l : Nat) (v : Lam) : (s.setLam l v).m = s.m := rfl
@[simp] theorem State.setLam_e (s : State) (l : Nat) (v : Lam) : (s.setLam l v).e = s.e := rfl
@[simp] theorem State.setLam_b (s : State) (l : Nat) (v : Lam) : (s.setLam l v).b = s.b := rfl
@[simp] theorem State.setLam_sec (s : State) (l : Nat) (v : Lam) : (s.setLam l v).sec = s.sec := rfl
@[simp] theorem State.setLam_j (s : State) (l : Nat) (v : Lam) : (s.setLam l v).j = s.j := rfl
@[simp] theorem State.setLam_h (s : State) (l : Nat) (v : Lam) : (s.setLam l v).h = s.h := rfl
@[simp] theorem State.setLam_pm (s : State) (l : Nat) (v : Lam) : (s.setLam l v).pm = s.pm := rfl

@[simp] theorem State.queueFrame_pending (s : State) (o : FOut) : (s.queueFrame o).pending = s.pending := rfl
@[simp] theorem State.queueFrame_freeCtr (s : State) (o : FOut) : (s.queueFrame o).freeCtr = s.freeCtr := rfl
@[simp] theorem State.queueFrame_timeUs (s : State) (o : FOut) : (s.queueFrame o).timeUs = s.timeUs := rfl
@[simp] theorem State.queueFrame_regs (s : State) (o : FOut) : (s.queueFrame o).regs = s.regs := rfl
@[simp] theorem State.queueFrame_core (s : State) (o : FOut) : (s.queueFrame o).core = s.core := rfl
@[simp] theorem State.queueFrame_mx (s : State) (o : FOut) : (s.queueFrame o).mx = s.mx := rfl
@[simp] theorem State.queueFrame_m (s : State) (o : FOut) : (s.queueFrame o).m = s.m := rfl
@[simp] theorem State.queueFrame_e (s : State) (o : FOut) : (s.queueFrame o).e = s.e := rfl
@[simp] theorem State.queueFrame_b (s : State) (o : FOut) : (s.queueFrame o).b = s.b := rfl
@[simp] theorem State.queueFrame_sec (s : State) (o : FOut) : (s.queueFrame o).sec = s.sec := rfl
@[simp] theorem State.queueFrame_j (s : State) (o : FOut) : (s.queueFrame o).j = s.j := rfl
@[simp] theorem State.queueFrame_h (s : State) (o : FOut) : (s.queueFrame o).h = s.h := rfl
@[simp] theorem State.queueFrame_pm (s : State) (o : FOut) : (s.queueFrame o).pm = s.pm := rfl

@[simp] theorem State.setPlane_pending (s : State) (mc p : Nat) (v : Plane) : (s.setPlane mc p v).pending = s.pending := rfl
@[simp] theorem State.setPlane_freeCtr (s : State) (mc p : Nat) (v : Plane) : (s.setPlane mc p v).freeCtr = s.freeCtr := rfl
@[simp] theorem State.setPlane_timeUs (s : State) (mc p : Nat) (v : Plane) : (s.setPlane mc p v).timeUs = s.timeUs := rfl
@[simp] theorem State.setPlane_regs (s : State) (mc p : Nat) (v : Plane) : (s.setPlane mc p v).regs = s.regs := rfl
@[simp] theorem State.setPlane_core (s : State) (mc p : Nat) (v : Plane) : (s.setPlane mc p v).core = s.core := rfl
@[simp] theorem State.setPlane_m (s : State) (mc p : Nat) (v : Plane) : (s.setPlane mc p v).m = s.m := rfl
@[simp] theorem State.setPlane_e (s : State) (mc p : Nat) (v : Plane) : (s.setPlane mc p v).e = s.e := rfl
@[simp] theorem State.setPlane_b (s : State) (mc p : Nat) (v : Plane) : (s.setPlane mc p v).b = s.b := rfl
@[simp] theorem State.setPlane_fab (s : State) (mc p : Nat) (v : Plane) : (s.setPlane mc p v).fab = s.fab := rfl
@[simp] theorem State.setPlane_sec (s : State) (mc p : Nat) (v : Plane) : (s.setPlane mc p v).sec = s.sec := rfl
@[simp] theorem State.setPlane_j (s : State) (mc p : Nat) (v : Plane) : (s.setPlane mc p v).j = s.j := rfl
@[simp] theorem State.setPlane_h (s : State) (mc p : Nat) (v : Plane) : (s.setPlane mc p v).h = s.h := rfl
@[simp] theorem State.setPlane_pm (s : State) (mc p : Nat) (v : Plane) : (s.setPlane mc p v).pm = s.pm := rfl

@[simp] theorem State.updMxm_pending (s : State) (x : Mxm) : (s.updMxm x).pending = s.pending := rfl
@[simp] theorem State.updMxm_freeCtr (s : State) (x : Mxm) : (s.updMxm x).freeCtr = s.freeCtr := rfl
@[simp] theorem State.updMxm_timeUs (s : State) (x : Mxm) : (s.updMxm x).timeUs = s.timeUs := rfl
@[simp] theorem State.updMxm_regs (s : State) (x : Mxm) : (s.updMxm x).regs = s.regs := rfl
@[simp] theorem State.updMxm_core (s : State) (x : Mxm) : (s.updMxm x).core = s.core := rfl
@[simp] theorem State.updMxm_m (s : State) (x : Mxm) : (s.updMxm x).m = s.m := rfl
@[simp] theorem State.updMxm_e (s : State) (x : Mxm) : (s.updMxm x).e = s.e := rfl
@[simp] theorem State.updMxm_b (s : State) (x : Mxm) : (s.updMxm x).b = s.b := rfl
@[simp] theorem State.updMxm_fab (s : State) (x : Mxm) : (s.updMxm x).fab = s.fab := rfl
@[simp] theorem State.updMxm_sec (s : State) (x : Mxm) : (s.updMxm x).sec = s.sec := rfl
@[simp] theorem State.updMxm_j (s : State) (x : Mxm) : (s.updMxm x).j = s.j := rfl
@[simp] theorem State.updMxm_h (s : State) (x : Mxm) : (s.updMxm x).h = s.h := rfl
@[simp] theorem State.updMxm_pm (s : State) (x : Mxm) : (s.updMxm x).pm = s.pm := rfl

@[simp] theorem State.updMldp_pending (s : State) (x : Mldp) : (s.updMldp x).pending = s.pending := rfl
@[simp] theorem State.updMldp_freeCtr (s : State) (x : Mldp) : (s.updMldp x).freeCtr = s.freeCtr := rfl
@[simp] theorem State.updMldp_timeUs (s : State) (x : Mldp) : (s.updMldp x).timeUs = s.timeUs := rfl
@[simp] theorem State.updMldp_regs (s : State) (x : Mldp) : (s.updMldp x).regs = s.regs := rfl
@[simp] theorem State.updMldp_core (s : State) (x : Mldp) : (s.updMldp x).core = s.core := rfl
@[simp] theorem State.updMldp_m (s : State) (x : Mldp) : (s.updMldp x).m = s.m := rfl
@[simp] theorem State.updMldp_e (s : State) (x : Mldp) : (s.updMldp x).e = s.e := rfl
@[simp] theorem State.updMldp_b (s : State) (x : Mldp) : (s.updMldp x).b = s.b := rfl
@[simp] theorem State.updMldp_fab (s : State) (x : Mldp) : (s.updMldp x).fab = s.fab := rfl
@[simp] theorem State.updMldp_sec (s : State) (x : Mldp) : (s.updMldp x).sec = s.sec := rfl
@[simp] theorem State.updMldp_j (s : State) (x : Mldp) : (s.updMldp x).j = s.j := rfl
@[simp] theorem State.updMldp_h (s : State) (x : Mldp) : (s.updMldp x).h = s.h := rfl
@[simp] theorem State.updMldp_pm (s : State) (x : Mldp) : (s.updMldp x).pm = s.pm := rfl

@[simp] theorem State.dropMxm_pending (s : State) (mc id : Nat) : (s.dropMxm mc id).pending = s.pending := rfl
@[simp] theorem State.dropMxm_freeCtr (s : State) (mc id : Nat) : (s.dropMxm mc id).freeCtr = s.freeCtr := rfl
@[simp] theorem State.dropMxm_timeUs (s : State) (mc id : Nat) : (s.dropMxm mc id).timeUs = s.timeUs := rfl
@[simp] theorem State.dropMxm_regs (s : State) (mc id : Nat) : (s.dropMxm mc id).regs = s.regs := rfl
@[simp] theorem State.dropMxm_m (s : State) (mc id : Nat) : (s.dropMxm mc id).m = s.m := rfl
@[simp] theorem State.dropMxm_e (s : State) (mc id : Nat) : (s.dropMxm mc id).e = s.e := rfl
@[simp] theorem State.dropMxm_b (s : State) (mc id : Nat) : (s.dropMxm mc id).b = s.b := rfl
@[simp] theorem State.dropMxm_fab (s : State) (mc id : Nat) : (s.dropMxm mc id).fab = s.fab := rfl
@[simp] theorem State.dropMxm_sec (s : State) (mc id : Nat) : (s.dropMxm mc id).sec = s.sec := rfl
@[simp] theorem State.dropMxm_j (s : State) (mc id : Nat) : (s.dropMxm mc id).j = s.j := rfl
@[simp] theorem State.dropMxm_h (s : State) (mc id : Nat) : (s.dropMxm mc id).h = s.h := rfl
@[simp] theorem State.dropMxm_pm (s : State) (mc id : Nat) : (s.dropMxm mc id).pm = s.pm := rfl

@[simp] theorem State.dropMldp_pending (s : State) (id : Nat) : (s.dropMldp id).pending = s.pending := rfl
@[simp] theorem State.dropMldp_freeCtr (s : State) (id : Nat) : (s.dropMldp id).freeCtr = s.freeCtr := rfl
@[simp] theorem State.dropMldp_timeUs (s : State) (id : Nat) : (s.dropMldp id).timeUs = s.timeUs := rfl
@[simp] theorem State.dropMldp_regs (s : State) (id : Nat) : (s.dropMldp id).regs = s.regs := rfl
@[simp] theorem State.dropMldp_core (s : State) (id : Nat) : (s.dropMldp id).core = s.core := rfl
@[simp] theorem State.dropMldp_m (s : State) (id : Nat) : (s.dropMldp id).m = s.m := rfl
@[simp] theorem State.dropMldp_e (s : State) (id : Nat) : (s.dropMldp id).e = s.e := rfl
@[simp] theorem State.dropMldp_b (s : State) (id : Nat) : (s.dropMldp id).b = s.b := rfl
@[simp] theorem State.dropMldp_fab (s : State) (id : Nat) : (s.dropMldp id).fab = s.fab := rfl
@[simp] theorem State.dropMldp_sec (s : State) (id : Nat) : (s.dropMldp id).sec = s.sec := rfl
@[simp] theorem State.dropMldp_j (s : State) (id : Nat) : (s.dropMldp id).j = s.j := rfl
@[simp] theorem State.dropMldp_h (s : State) (id : Nat) : (s.dropMldp id).h = s.h := rfl
@[simp] theorem State.dropMldp_pm (s : State) (id : Nat) : (s.dropMldp id).pm = s.pm := rfl

@[simp] theorem State.setFld_pending (s : State) (f : Fld) (v : Nat) : (s.setFld f v).pending = s.pending := rfl
@[simp] theorem State.setFld_freeCtr (s : State) (f : Fld) (v : Nat) : (s.setFld f v).freeCtr = s.freeCtr := rfl
@[simp] theorem State.setFld_timeUs (s : State) (f : Fld) (v : Nat) : (s.setFld f v).timeUs = s.timeUs := rfl
@[simp] theorem State.setFld_core (s : State) (f : Fld) (v : Nat) : (s.setFld f v).core = s.core := rfl
@[simp] theorem State.setFld_mx (s : State) (f : Fld) (v : Nat) : (s.setFld f v).mx = s.mx := rfl
@[simp] theorem State.setFld_m (s : State) (f : Fld) (v : Nat) : (s.setFld f v).m = s.m := rfl
@[simp] theorem State.setFld_e (s : State) (f : Fld) (v : Nat) : (s.setFld f v).e = s.e := rfl
@[simp] theorem State.setFld_b (s : State) (f : Fld) (v : Nat) : (s.setFld f v).b = s.b := rfl
@[simp] theorem State.setFld_fab (s : State) (f : Fld) (v : Nat) : (s.setFld f v).fab = s.fab := rfl
@[simp] theorem State.setFld_sec (s : State) (f : Fld) (v : Nat) : (s.setFld f v).sec = s.sec := rfl
@[simp] theorem State.setFld_j (s : State) (f : Fld) (v : Nat) : (s.setFld f v).j = s.j := rfl
@[simp] theorem State.setFld_h (s : State) (f : Fld) (v : Nat) : (s.setFld f v).h = s.h := rfl
@[simp] theorem State.setFld_pm (s : State) (f : Fld) (v : Nat) : (s.setFld f v).pm = s.pm := rfl

@[simp] theorem State.wakeEvent_pending (s : State) (n : Nat) : (s.wakeEvent n).pending = s.pending := by
  unfold State.wakeEvent; dsimp only; split
  · rfl
  · split <;> rfl
@[simp] theorem State.wakeEvent_freeCtr (s : State) (n : Nat) : (s.wakeEvent n).freeCtr = s.freeCtr := by
  unfold State.wakeEvent; dsimp only; split
  · rfl
  · split <;> rfl
@[simp] theorem State.wakeEvent_timeUs (s : State) (n : Nat) : (s.wakeEvent n).timeUs = s.timeUs := by
  unfold State.wakeEvent; dsimp only; split
  · rfl
  · split <;> rfl
@[simp] theorem State.wakeEvent_core (s : State) (n : Nat) : (s.wakeEvent n).core = s.core := by
  unfold State.wakeEvent; dsimp only; split
  · rfl
  · split <;> rfl
@[simp] theorem State.wakeEvent_mx (s : State) (n : Nat) : (s.wakeEvent n).mx = s.mx := by
  unfold State.wakeEvent; dsimp only; split
  · rfl
  · split <;> rfl
@[simp] theorem State.wakeEvent_m (s : State) (n : Nat) : (s.wakeEvent n).m = s.m := by
  unfold State.wakeEvent; dsimp only; split
  · rfl
  · split <;> rfl
@[simp] theorem State.wakeEvent_e (s : State) (n : Nat) : (s.wakeEvent n).e = s.e := by
  unfold State.wakeEvent; dsimp only; split
  · rfl
  · split <;> rfl
@[simp] theorem State.wakeEvent_b (s : State) (n : Nat) : (s.wakeEvent n).b = s.b := by
  unfold State.wakeEvent; dsimp only; split
  · rfl
  · split <;> rfl
@[simp] theorem State.wakeEvent_fab (s : State) (n : Nat) : (s.wakeEvent n).fab = s.fab := by
  unfold State.wakeEvent; dsimp only; split
  · rfl
  · split <;> rfl
@[simp] theorem State.wakeEvent_sec (s : State) (n : Nat) : (s.wakeEvent n).sec = s.sec := by
  unfold State.wakeEvent; dsimp only; split
  · rfl
  · split <;> rfl
@[simp] theorem State.wakeEvent_j (s : State) (n : Nat) : (s.wakeEvent n).j = s.j := by
  unfold State.wakeEvent; dsimp only; split
  · rfl
  · split <;> rfl
@[simp] theorem State.wakeEvent_h (s : State) (n : Nat) : (s.wakeEvent n).h = s.h := by
  unfold State.wakeEvent; dsimp only; split
  · rfl
  · split <;> rfl

@[simp] theorem State.holdReq_pending (s : State) (i : HeldReq) : (s.holdReq i).pending = s.pending := by
  simp [State.holdReq]
@[simp] theorem State.holdReq_freeCtr (s : State) (i : HeldReq) : (s.holdReq i).freeCtr = s.freeCtr := by
  simp [State.holdReq]
@[simp] theorem State.holdReq_timeUs (s : State) (i : HeldReq) : (s.holdReq i).timeUs = s.timeUs := by
  simp [State.holdReq]
@[simp] theorem State.holdReq_core (s : State) (i : HeldReq) : (s.holdReq i).core = s.core := by
  simp [State.holdReq]
@[simp] theorem State.holdReq_mx (s : State) (i : HeldReq) : (s.holdReq i).mx = s.mx := by
  simp [State.holdReq]
@[simp] theorem State.holdReq_m (s : State) (i : HeldReq) : (s.holdReq i).m = s.m := by
  simp [State.holdReq]
@[simp] theorem State.holdReq_e (s : State) (i : HeldReq) : (s.holdReq i).e = s.e := by
  simp [State.holdReq]
@[simp] theorem State.holdReq_b (s : State) (i : HeldReq) : (s.holdReq i).b = s.b := by
  simp [State.holdReq]
@[simp] theorem State.holdReq_fab (s : State) (i : HeldReq) : (s.holdReq i).fab = s.fab := by
  simp [State.holdReq]
@[simp] theorem State.holdReq_sec (s : State) (i : HeldReq) : (s.holdReq i).sec = s.sec := by
  simp [State.holdReq]
@[simp] theorem State.holdReq_j (s : State) (i : HeldReq) : (s.holdReq i).j = s.j := by
  simp [State.holdReq]
@[simp] theorem State.holdReq_h (s : State) (i : HeldReq) : (s.holdReq i).h = s.h := by
  simp [State.holdReq]

@[simp] theorem State.asked_pending (s : State) : (s.asked).pending = s.pending := rfl
@[simp] theorem State.asked_freeCtr (s : State) : (s.asked).freeCtr = s.freeCtr := rfl
@[simp] theorem State.asked_timeUs (s : State) : (s.asked).timeUs = s.timeUs := rfl
@[simp] theorem State.asked_regs (s : State) : (s.asked).regs = s.regs := rfl
@[simp] theorem State.asked_core (s : State) : (s.asked).core = s.core := rfl
@[simp] theorem State.asked_mx (s : State) : (s.asked).mx = s.mx := rfl
@[simp] theorem State.asked_m (s : State) : (s.asked).m = s.m := rfl
@[simp] theorem State.asked_e (s : State) : (s.asked).e = s.e := rfl
@[simp] theorem State.asked_b (s : State) : (s.asked).b = s.b := rfl
@[simp] theorem State.asked_fab (s : State) : (s.asked).fab = s.fab := rfl
@[simp] theorem State.asked_sec (s : State) : (s.asked).sec = s.sec := rfl
@[simp] theorem State.asked_j (s : State) : (s.asked).j = s.j := rfl
@[simp] theorem State.asked_h (s : State) : (s.asked).h = s.h := rfl

@[simp] theorem State.tickGates_pending (s : State) : (s.tickGates).pending = s.pending := rfl
@[simp] theorem State.tickGates_freeCtr (s : State) : (s.tickGates).freeCtr = s.freeCtr := rfl
@[simp] theorem State.tickGates_timeUs (s : State) : (s.tickGates).timeUs = s.timeUs := rfl
@[simp] theorem State.tickGates_regs (s : State) : (s.tickGates).regs = s.regs := rfl
@[simp] theorem State.tickGates_core (s : State) : (s.tickGates).core = s.core := rfl
@[simp] theorem State.tickGates_mx (s : State) : (s.tickGates).mx = s.mx := rfl
@[simp] theorem State.tickGates_m (s : State) : (s.tickGates).m = s.m := rfl
@[simp] theorem State.tickGates_e (s : State) : (s.tickGates).e = s.e := rfl
@[simp] theorem State.tickGates_b (s : State) : (s.tickGates).b = s.b := rfl
@[simp] theorem State.tickGates_fab (s : State) : (s.tickGates).fab = s.fab := rfl
@[simp] theorem State.tickGates_sec (s : State) : (s.tickGates).sec = s.sec := rfl
@[simp] theorem State.tickGates_j (s : State) : (s.tickGates).j = s.j := rfl
@[simp] theorem State.tickGates_h (s : State) : (s.tickGates).h = s.h := rfl

@[simp] theorem State.holdMem_pending (s : State) (p : Nat) (cells : List (Nat × Byte)) : (s.holdMem p cells).pending = s.pending := rfl
@[simp] theorem State.holdMem_freeCtr (s : State) (p : Nat) (cells : List (Nat × Byte)) : (s.holdMem p cells).freeCtr = s.freeCtr := rfl
@[simp] theorem State.holdMem_timeUs (s : State) (p : Nat) (cells : List (Nat × Byte)) : (s.holdMem p cells).timeUs = s.timeUs := rfl
@[simp] theorem State.holdMem_regs (s : State) (p : Nat) (cells : List (Nat × Byte)) : (s.holdMem p cells).regs = s.regs := rfl
@[simp] theorem State.holdMem_core (s : State) (p : Nat) (cells : List (Nat × Byte)) : (s.holdMem p cells).core = s.core := rfl
@[simp] theorem State.holdMem_mx (s : State) (p : Nat) (cells : List (Nat × Byte)) : (s.holdMem p cells).mx = s.mx := rfl
@[simp] theorem State.holdMem_m (s : State) (p : Nat) (cells : List (Nat × Byte)) : (s.holdMem p cells).m = s.m := rfl
@[simp] theorem State.holdMem_e (s : State) (p : Nat) (cells : List (Nat × Byte)) : (s.holdMem p cells).e = s.e := rfl
@[simp] theorem State.holdMem_b (s : State) (p : Nat) (cells : List (Nat × Byte)) : (s.holdMem p cells).b = s.b := rfl
@[simp] theorem State.holdMem_fab (s : State) (p : Nat) (cells : List (Nat × Byte)) : (s.holdMem p cells).fab = s.fab := rfl
@[simp] theorem State.holdMem_sec (s : State) (p : Nat) (cells : List (Nat × Byte)) : (s.holdMem p cells).sec = s.sec := rfl
@[simp] theorem State.holdMem_h (s : State) (p : Nat) (cells : List (Nat × Byte)) : (s.holdMem p cells).h = s.h := rfl
@[simp] theorem State.holdMem_pm (s : State) (p : Nat) (cells : List (Nat × Byte)) : (s.holdMem p cells).pm = s.pm := rfl

@[simp] theorem State.gotBarrier_pending (s : State) (tok : Word) : (s.gotBarrier tok).pending = s.pending := rfl
@[simp] theorem State.gotBarrier_freeCtr (s : State) (tok : Word) : (s.gotBarrier tok).freeCtr = s.freeCtr := rfl
@[simp] theorem State.gotBarrier_timeUs (s : State) (tok : Word) : (s.gotBarrier tok).timeUs = s.timeUs := rfl
@[simp] theorem State.gotBarrier_regs (s : State) (tok : Word) : (s.gotBarrier tok).regs = s.regs := rfl
@[simp] theorem State.gotBarrier_core (s : State) (tok : Word) : (s.gotBarrier tok).core = s.core := rfl
@[simp] theorem State.gotBarrier_mx (s : State) (tok : Word) : (s.gotBarrier tok).mx = s.mx := rfl
@[simp] theorem State.gotBarrier_m (s : State) (tok : Word) : (s.gotBarrier tok).m = s.m := rfl
@[simp] theorem State.gotBarrier_b (s : State) (tok : Word) : (s.gotBarrier tok).b = s.b := rfl
@[simp] theorem State.gotBarrier_fab (s : State) (tok : Word) : (s.gotBarrier tok).fab = s.fab := rfl
@[simp] theorem State.gotBarrier_sec (s : State) (tok : Word) : (s.gotBarrier tok).sec = s.sec := rfl
@[simp] theorem State.gotBarrier_j (s : State) (tok : Word) : (s.gotBarrier tok).j = s.j := rfl
@[simp] theorem State.gotBarrier_h (s : State) (tok : Word) : (s.gotBarrier tok).h = s.h := rfl
@[simp] theorem State.gotBarrier_pm (s : State) (tok : Word) : (s.gotBarrier tok).pm = s.pm := rfl

@[simp] theorem State.dropStepFrames_pending (s : State) (p : Nat) : (s.dropStepFrames p).pending = s.pending := rfl
@[simp] theorem State.dropStepFrames_freeCtr (s : State) (p : Nat) : (s.dropStepFrames p).freeCtr = s.freeCtr := rfl
@[simp] theorem State.dropStepFrames_timeUs (s : State) (p : Nat) : (s.dropStepFrames p).timeUs = s.timeUs := rfl
@[simp] theorem State.dropStepFrames_regs (s : State) (p : Nat) : (s.dropStepFrames p).regs = s.regs := rfl
@[simp] theorem State.dropStepFrames_core (s : State) (p : Nat) : (s.dropStepFrames p).core = s.core := rfl
@[simp] theorem State.dropStepFrames_mx (s : State) (p : Nat) : (s.dropStepFrames p).mx = s.mx := rfl
@[simp] theorem State.dropStepFrames_m (s : State) (p : Nat) : (s.dropStepFrames p).m = s.m := rfl
@[simp] theorem State.dropStepFrames_e (s : State) (p : Nat) : (s.dropStepFrames p).e = s.e := rfl
@[simp] theorem State.dropStepFrames_b (s : State) (p : Nat) : (s.dropStepFrames p).b = s.b := rfl
@[simp] theorem State.dropStepFrames_sec (s : State) (p : Nat) : (s.dropStepFrames p).sec = s.sec := rfl
@[simp] theorem State.dropStepFrames_j (s : State) (p : Nat) : (s.dropStepFrames p).j = s.j := rfl
@[simp] theorem State.dropStepFrames_h (s : State) (p : Nat) : (s.dropStepFrames p).h = s.h := rfl
@[simp] theorem State.dropStepFrames_pm (s : State) (p : Nat) : (s.dropStepFrames p).pm = s.pm := rfl

@[simp] theorem State.unblock_pending (s : State) (core : Nat) : (s.unblock core).pending = s.pending := rfl
@[simp] theorem State.unblock_freeCtr (s : State) (core : Nat) : (s.unblock core).freeCtr = s.freeCtr := rfl
@[simp] theorem State.unblock_timeUs (s : State) (core : Nat) : (s.unblock core).timeUs = s.timeUs := rfl
@[simp] theorem State.unblock_regs (s : State) (core : Nat) : (s.unblock core).regs = s.regs := rfl
@[simp] theorem State.unblock_mx (s : State) (core : Nat) : (s.unblock core).mx = s.mx := rfl
@[simp] theorem State.unblock_m (s : State) (core : Nat) : (s.unblock core).m = s.m := rfl
@[simp] theorem State.unblock_e (s : State) (core : Nat) : (s.unblock core).e = s.e := rfl
@[simp] theorem State.unblock_b (s : State) (core : Nat) : (s.unblock core).b = s.b := rfl
@[simp] theorem State.unblock_fab (s : State) (core : Nat) : (s.unblock core).fab = s.fab := rfl
@[simp] theorem State.unblock_sec (s : State) (core : Nat) : (s.unblock core).sec = s.sec := rfl
@[simp] theorem State.unblock_j (s : State) (core : Nat) : (s.unblock core).j = s.j := rfl
@[simp] theorem State.unblock_h (s : State) (core : Nat) : (s.unblock core).h = s.h := rfl
@[simp] theorem State.unblock_pm (s : State) (core : Nat) : (s.unblock core).pm = s.pm := rfl

@[simp] theorem State.wrB_pending (s : State) (key : Nat) (b : List Byte) : (s.wrB key b).pending = s.pending := rfl
@[simp] theorem State.wrB_freeCtr (s : State) (key : Nat) (b : List Byte) : (s.wrB key b).freeCtr = s.freeCtr := rfl
@[simp] theorem State.wrB_timeUs (s : State) (key : Nat) (b : List Byte) : (s.wrB key b).timeUs = s.timeUs := rfl
@[simp] theorem State.wrB_regs (s : State) (key : Nat) (b : List Byte) : (s.wrB key b).regs = s.regs := rfl
@[simp] theorem State.wrB_core (s : State) (key : Nat) (b : List Byte) : (s.wrB key b).core = s.core := rfl
@[simp] theorem State.wrB_mx (s : State) (key : Nat) (b : List Byte) : (s.wrB key b).mx = s.mx := rfl
@[simp] theorem State.wrB_e (s : State) (key : Nat) (b : List Byte) : (s.wrB key b).e = s.e := rfl
@[simp] theorem State.wrB_b (s : State) (key : Nat) (b : List Byte) : (s.wrB key b).b = s.b := rfl
@[simp] theorem State.wrB_fab (s : State) (key : Nat) (b : List Byte) : (s.wrB key b).fab = s.fab := rfl
@[simp] theorem State.wrB_sec (s : State) (key : Nat) (b : List Byte) : (s.wrB key b).sec = s.sec := rfl
@[simp] theorem State.wrB_j (s : State) (key : Nat) (b : List Byte) : (s.wrB key b).j = s.j := rfl
@[simp] theorem State.wrB_h (s : State) (key : Nat) (b : List Byte) : (s.wrB key b).h = s.h := rfl
@[simp] theorem State.wrB_pm (s : State) (key : Nat) (b : List Byte) : (s.wrB key b).pm = s.pm := rfl

@[simp] theorem State.wr_pending (s : State) (key n v : Nat) : (s.wr key n v).pending = s.pending := rfl
@[simp] theorem State.wr_freeCtr (s : State) (key n v : Nat) : (s.wr key n v).freeCtr = s.freeCtr := rfl
@[simp] theorem State.wr_timeUs (s : State) (key n v : Nat) : (s.wr key n v).timeUs = s.timeUs := rfl
@[simp] theorem State.wr_regs (s : State) (key n v : Nat) : (s.wr key n v).regs = s.regs := rfl
@[simp] theorem State.wr_core (s : State) (key n v : Nat) : (s.wr key n v).core = s.core := rfl
@[simp] theorem State.wr_mx (s : State) (key n v : Nat) : (s.wr key n v).mx = s.mx := rfl
@[simp] theorem State.wr_e (s : State) (key n v : Nat) : (s.wr key n v).e = s.e := rfl
@[simp] theorem State.wr_b (s : State) (key n v : Nat) : (s.wr key n v).b = s.b := rfl
@[simp] theorem State.wr_fab (s : State) (key n v : Nat) : (s.wr key n v).fab = s.fab := rfl
@[simp] theorem State.wr_sec (s : State) (key n v : Nat) : (s.wr key n v).sec = s.sec := rfl
@[simp] theorem State.wr_j (s : State) (key n v : Nat) : (s.wr key n v).j = s.j := rfl
@[simp] theorem State.wr_h (s : State) (key n v : Nat) : (s.wr key n v).h = s.h := rfl
@[simp] theorem State.wr_pm (s : State) (key n v : Nat) : (s.wr key n v).pm = s.pm := rfl

@[simp] theorem State.zeroMem_pending (s : State) (key n : Nat) : (s.zeroMem key n).pending = s.pending := rfl
@[simp] theorem State.zeroMem_freeCtr (s : State) (key n : Nat) : (s.zeroMem key n).freeCtr = s.freeCtr := rfl
@[simp] theorem State.zeroMem_timeUs (s : State) (key n : Nat) : (s.zeroMem key n).timeUs = s.timeUs := rfl
@[simp] theorem State.zeroMem_regs (s : State) (key n : Nat) : (s.zeroMem key n).regs = s.regs := rfl
@[simp] theorem State.zeroMem_core (s : State) (key n : Nat) : (s.zeroMem key n).core = s.core := rfl
@[simp] theorem State.zeroMem_mx (s : State) (key n : Nat) : (s.zeroMem key n).mx = s.mx := rfl
@[simp] theorem State.zeroMem_e (s : State) (key n : Nat) : (s.zeroMem key n).e = s.e := rfl
@[simp] theorem State.zeroMem_b (s : State) (key n : Nat) : (s.zeroMem key n).b = s.b := rfl
@[simp] theorem State.zeroMem_fab (s : State) (key n : Nat) : (s.zeroMem key n).fab = s.fab := rfl
@[simp] theorem State.zeroMem_sec (s : State) (key n : Nat) : (s.zeroMem key n).sec = s.sec := rfl
@[simp] theorem State.zeroMem_j (s : State) (key n : Nat) : (s.zeroMem key n).j = s.j := rfl
@[simp] theorem State.zeroMem_h (s : State) (key n : Nat) : (s.zeroMem key n).h = s.h := rfl
@[simp] theorem State.zeroMem_pm (s : State) (key n : Nat) : (s.zeroMem key n).pm = s.pm := rfl

@[simp] theorem State.wrCells_pending (s : State) (l : List (Nat × Byte)) : (s.wrCells l).pending = s.pending := rfl
@[simp] theorem State.wrCells_freeCtr (s : State) (l : List (Nat × Byte)) : (s.wrCells l).freeCtr = s.freeCtr := rfl
@[simp] theorem State.wrCells_timeUs (s : State) (l : List (Nat × Byte)) : (s.wrCells l).timeUs = s.timeUs := rfl
@[simp] theorem State.wrCells_regs (s : State) (l : List (Nat × Byte)) : (s.wrCells l).regs = s.regs := rfl
@[simp] theorem State.wrCells_core (s : State) (l : List (Nat × Byte)) : (s.wrCells l).core = s.core := rfl
@[simp] theorem State.wrCells_mx (s : State) (l : List (Nat × Byte)) : (s.wrCells l).mx = s.mx := rfl
@[simp] theorem State.wrCells_e (s : State) (l : List (Nat × Byte)) : (s.wrCells l).e = s.e := rfl
@[simp] theorem State.wrCells_b (s : State) (l : List (Nat × Byte)) : (s.wrCells l).b = s.b := rfl
@[simp] theorem State.wrCells_fab (s : State) (l : List (Nat × Byte)) : (s.wrCells l).fab = s.fab := rfl
@[simp] theorem State.wrCells_sec (s : State) (l : List (Nat × Byte)) : (s.wrCells l).sec = s.sec := rfl
@[simp] theorem State.wrCells_j (s : State) (l : List (Nat × Byte)) : (s.wrCells l).j = s.j := rfl
@[simp] theorem State.wrCells_h (s : State) (l : List (Nat × Byte)) : (s.wrCells l).h = s.h := rfl
@[simp] theorem State.wrCells_pm (s : State) (l : List (Nat × Byte)) : (s.wrCells l).pm = s.pm := rfl

@[simp] theorem State.setM_pending (s : State) (core t r : Nat) (v : MWord) : (s.setM core t r v).pending = s.pending := rfl
@[simp] theorem State.setM_freeCtr (s : State) (core t r : Nat) (v : MWord) : (s.setM core t r v).freeCtr = s.freeCtr := rfl
@[simp] theorem State.setM_timeUs (s : State) (core t r : Nat) (v : MWord) : (s.setM core t r v).timeUs = s.timeUs := rfl
@[simp] theorem State.setM_regs (s : State) (core t r : Nat) (v : MWord) : (s.setM core t r v).regs = s.regs := rfl
@[simp] theorem State.setM_mx (s : State) (core t r : Nat) (v : MWord) : (s.setM core t r v).mx = s.mx := rfl
@[simp] theorem State.setM_m (s : State) (core t r : Nat) (v : MWord) : (s.setM core t r v).m = s.m := rfl
@[simp] theorem State.setM_e (s : State) (core t r : Nat) (v : MWord) : (s.setM core t r v).e = s.e := rfl
@[simp] theorem State.setM_b (s : State) (core t r : Nat) (v : MWord) : (s.setM core t r v).b = s.b := rfl
@[simp] theorem State.setM_fab (s : State) (core t r : Nat) (v : MWord) : (s.setM core t r v).fab = s.fab := rfl
@[simp] theorem State.setM_sec (s : State) (core t r : Nat) (v : MWord) : (s.setM core t r v).sec = s.sec := rfl
@[simp] theorem State.setM_j (s : State) (core t r : Nat) (v : MWord) : (s.setM core t r v).j = s.j := rfl
@[simp] theorem State.setM_h (s : State) (core t r : Nat) (v : MWord) : (s.setM core t r v).h = s.h := rfl
@[simp] theorem State.setM_pm (s : State) (core t r : Nat) (v : MWord) : (s.setM core t r v).pm = s.pm := rfl

@[simp] theorem State.setPc_pending (s : State) (core t pc : Nat) : (s.setPc core t pc).pending = s.pending := rfl
@[simp] theorem State.setPc_freeCtr (s : State) (core t pc : Nat) : (s.setPc core t pc).freeCtr = s.freeCtr := rfl
@[simp] theorem State.setPc_timeUs (s : State) (core t pc : Nat) : (s.setPc core t pc).timeUs = s.timeUs := rfl
@[simp] theorem State.setPc_regs (s : State) (core t pc : Nat) : (s.setPc core t pc).regs = s.regs := rfl
@[simp] theorem State.setPc_mx (s : State) (core t pc : Nat) : (s.setPc core t pc).mx = s.mx := rfl
@[simp] theorem State.setPc_m (s : State) (core t pc : Nat) : (s.setPc core t pc).m = s.m := rfl
@[simp] theorem State.setPc_e (s : State) (core t pc : Nat) : (s.setPc core t pc).e = s.e := rfl
@[simp] theorem State.setPc_b (s : State) (core t pc : Nat) : (s.setPc core t pc).b = s.b := rfl
@[simp] theorem State.setPc_fab (s : State) (core t pc : Nat) : (s.setPc core t pc).fab = s.fab := rfl
@[simp] theorem State.setPc_sec (s : State) (core t pc : Nat) : (s.setPc core t pc).sec = s.sec := rfl
@[simp] theorem State.setPc_j (s : State) (core t pc : Nat) : (s.setPc core t pc).j = s.j := rfl
@[simp] theorem State.setPc_h (s : State) (core t pc : Nat) : (s.setPc core t pc).h = s.h := rfl
@[simp] theorem State.setPc_pm (s : State) (core t pc : Nat) : (s.setPc core t pc).pm = s.pm := rfl

@[simp] theorem State.setFlags_pending (s : State) (core t : Nat) (f : Flags) : (s.setFlags core t f).pending = s.pending := rfl
@[simp] theorem State.setFlags_freeCtr (s : State) (core t : Nat) (f : Flags) : (s.setFlags core t f).freeCtr = s.freeCtr := rfl
@[simp] theorem State.setFlags_timeUs (s : State) (core t : Nat) (f : Flags) : (s.setFlags core t f).timeUs = s.timeUs := rfl
@[simp] theorem State.setFlags_regs (s : State) (core t : Nat) (f : Flags) : (s.setFlags core t f).regs = s.regs := rfl
@[simp] theorem State.setFlags_mx (s : State) (core t : Nat) (f : Flags) : (s.setFlags core t f).mx = s.mx := rfl
@[simp] theorem State.setFlags_m (s : State) (core t : Nat) (f : Flags) : (s.setFlags core t f).m = s.m := rfl
@[simp] theorem State.setFlags_e (s : State) (core t : Nat) (f : Flags) : (s.setFlags core t f).e = s.e := rfl
@[simp] theorem State.setFlags_b (s : State) (core t : Nat) (f : Flags) : (s.setFlags core t f).b = s.b := rfl
@[simp] theorem State.setFlags_fab (s : State) (core t : Nat) (f : Flags) : (s.setFlags core t f).fab = s.fab := rfl
@[simp] theorem State.setFlags_sec (s : State) (core t : Nat) (f : Flags) : (s.setFlags core t f).sec = s.sec := rfl
@[simp] theorem State.setFlags_j (s : State) (core t : Nat) (f : Flags) : (s.setFlags core t f).j = s.j := rfl
@[simp] theorem State.setFlags_h (s : State) (core t : Nat) (f : Flags) : (s.setFlags core t f).h = s.h := rfl
@[simp] theorem State.setFlags_pm (s : State) (core t : Nat) (f : Flags) : (s.setFlags core t f).pm = s.pm := rfl

@[simp] theorem State.setStat_pending (s : State) (core t : Nat) (v : TStat) : (s.setStat core t v).pending = s.pending := rfl
@[simp] theorem State.setStat_freeCtr (s : State) (core t : Nat) (v : TStat) : (s.setStat core t v).freeCtr = s.freeCtr := rfl
@[simp] theorem State.setStat_timeUs (s : State) (core t : Nat) (v : TStat) : (s.setStat core t v).timeUs = s.timeUs := rfl
@[simp] theorem State.setStat_regs (s : State) (core t : Nat) (v : TStat) : (s.setStat core t v).regs = s.regs := rfl
@[simp] theorem State.setStat_mx (s : State) (core t : Nat) (v : TStat) : (s.setStat core t v).mx = s.mx := rfl
@[simp] theorem State.setStat_m (s : State) (core t : Nat) (v : TStat) : (s.setStat core t v).m = s.m := rfl
@[simp] theorem State.setStat_e (s : State) (core t : Nat) (v : TStat) : (s.setStat core t v).e = s.e := rfl
@[simp] theorem State.setStat_b (s : State) (core t : Nat) (v : TStat) : (s.setStat core t v).b = s.b := rfl
@[simp] theorem State.setStat_fab (s : State) (core t : Nat) (v : TStat) : (s.setStat core t v).fab = s.fab := rfl
@[simp] theorem State.setStat_sec (s : State) (core t : Nat) (v : TStat) : (s.setStat core t v).sec = s.sec := rfl
@[simp] theorem State.setStat_j (s : State) (core t : Nat) (v : TStat) : (s.setStat core t v).j = s.j := rfl
@[simp] theorem State.setStat_h (s : State) (core t : Nat) (v : TStat) : (s.setStat core t v).h = s.h := rfl
@[simp] theorem State.setStat_pm (s : State) (core t : Nat) (v : TStat) : (s.setStat core t v).pm = s.pm := rfl

@[simp] theorem State.setHandle_pending (s : State) (core r : Nat) (v : Word) : (s.setHandle core r v).pending = s.pending := rfl
@[simp] theorem State.setHandle_freeCtr (s : State) (core r : Nat) (v : Word) : (s.setHandle core r v).freeCtr = s.freeCtr := rfl
@[simp] theorem State.setHandle_timeUs (s : State) (core r : Nat) (v : Word) : (s.setHandle core r v).timeUs = s.timeUs := rfl
@[simp] theorem State.setHandle_regs (s : State) (core r : Nat) (v : Word) : (s.setHandle core r v).regs = s.regs := rfl
@[simp] theorem State.setHandle_mx (s : State) (core r : Nat) (v : Word) : (s.setHandle core r v).mx = s.mx := rfl
@[simp] theorem State.setHandle_m (s : State) (core r : Nat) (v : Word) : (s.setHandle core r v).m = s.m := rfl
@[simp] theorem State.setHandle_e (s : State) (core r : Nat) (v : Word) : (s.setHandle core r v).e = s.e := rfl
@[simp] theorem State.setHandle_b (s : State) (core r : Nat) (v : Word) : (s.setHandle core r v).b = s.b := rfl
@[simp] theorem State.setHandle_fab (s : State) (core r : Nat) (v : Word) : (s.setHandle core r v).fab = s.fab := rfl
@[simp] theorem State.setHandle_sec (s : State) (core r : Nat) (v : Word) : (s.setHandle core r v).sec = s.sec := rfl
@[simp] theorem State.setHandle_j (s : State) (core r : Nat) (v : Word) : (s.setHandle core r v).j = s.j := rfl
@[simp] theorem State.setHandle_h (s : State) (core r : Nat) (v : Word) : (s.setHandle core r v).h = s.h := rfl
@[simp] theorem State.setHandle_pm (s : State) (core r : Nat) (v : Word) : (s.setHandle core r v).pm = s.pm := rfl

@[simp] theorem State.setStream_pending (s : State) (core q : Nat) (v : Stream) : (s.setStream core q v).pending = s.pending := rfl
@[simp] theorem State.setStream_freeCtr (s : State) (core q : Nat) (v : Stream) : (s.setStream core q v).freeCtr = s.freeCtr := rfl
@[simp] theorem State.setStream_timeUs (s : State) (core q : Nat) (v : Stream) : (s.setStream core q v).timeUs = s.timeUs := rfl
@[simp] theorem State.setStream_regs (s : State) (core q : Nat) (v : Stream) : (s.setStream core q v).regs = s.regs := rfl
@[simp] theorem State.setStream_mx (s : State) (core q : Nat) (v : Stream) : (s.setStream core q v).mx = s.mx := rfl
@[simp] theorem State.setStream_m (s : State) (core q : Nat) (v : Stream) : (s.setStream core q v).m = s.m := rfl
@[simp] theorem State.setStream_e (s : State) (core q : Nat) (v : Stream) : (s.setStream core q v).e = s.e := rfl
@[simp] theorem State.setStream_b (s : State) (core q : Nat) (v : Stream) : (s.setStream core q v).b = s.b := rfl
@[simp] theorem State.setStream_fab (s : State) (core q : Nat) (v : Stream) : (s.setStream core q v).fab = s.fab := rfl
@[simp] theorem State.setStream_sec (s : State) (core q : Nat) (v : Stream) : (s.setStream core q v).sec = s.sec := rfl
@[simp] theorem State.setStream_j (s : State) (core q : Nat) (v : Stream) : (s.setStream core q v).j = s.j := rfl
@[simp] theorem State.setStream_h (s : State) (core q : Nat) (v : Stream) : (s.setStream core q v).h = s.h := rfl
@[simp] theorem State.setStream_pm (s : State) (core q : Nat) (v : Stream) : (s.setStream core q v).pm = s.pm := rfl

@[simp] theorem State.setV_pending (s : State) (core t r : Nat) (v : VWord) : (s.setV core t r v).pending = s.pending := rfl
@[simp] theorem State.setV_freeCtr (s : State) (core t r : Nat) (v : VWord) : (s.setV core t r v).freeCtr = s.freeCtr := rfl
@[simp] theorem State.setV_timeUs (s : State) (core t r : Nat) (v : VWord) : (s.setV core t r v).timeUs = s.timeUs := rfl
@[simp] theorem State.setV_regs (s : State) (core t r : Nat) (v : VWord) : (s.setV core t r v).regs = s.regs := rfl
@[simp] theorem State.setV_mx (s : State) (core t r : Nat) (v : VWord) : (s.setV core t r v).mx = s.mx := rfl
@[simp] theorem State.setV_m (s : State) (core t r : Nat) (v : VWord) : (s.setV core t r v).m = s.m := rfl
@[simp] theorem State.setV_e (s : State) (core t r : Nat) (v : VWord) : (s.setV core t r v).e = s.e := rfl
@[simp] theorem State.setV_b (s : State) (core t r : Nat) (v : VWord) : (s.setV core t r v).b = s.b := rfl
@[simp] theorem State.setV_fab (s : State) (core t r : Nat) (v : VWord) : (s.setV core t r v).fab = s.fab := rfl
@[simp] theorem State.setV_sec (s : State) (core t r : Nat) (v : VWord) : (s.setV core t r v).sec = s.sec := rfl
@[simp] theorem State.setV_j (s : State) (core t r : Nat) (v : VWord) : (s.setV core t r v).j = s.j := rfl
@[simp] theorem State.setV_h (s : State) (core t r : Nat) (v : VWord) : (s.setV core t r v).h = s.h := rfl
@[simp] theorem State.setV_pm (s : State) (core t r : Nat) (v : VWord) : (s.setV core t r v).pm = s.pm := rfl

@[simp] theorem State.takeTok_pending (s : State) (tok : Word) : (s.takeTok tok).pending = s.pending := rfl
@[simp] theorem State.takeTok_freeCtr (s : State) (tok : Word) : (s.takeTok tok).freeCtr = s.freeCtr := rfl
@[simp] theorem State.takeTok_timeUs (s : State) (tok : Word) : (s.takeTok tok).timeUs = s.timeUs := rfl
@[simp] theorem State.takeTok_regs (s : State) (tok : Word) : (s.takeTok tok).regs = s.regs := rfl
@[simp] theorem State.takeTok_core (s : State) (tok : Word) : (s.takeTok tok).core = s.core := rfl
@[simp] theorem State.takeTok_mx (s : State) (tok : Word) : (s.takeTok tok).mx = s.mx := rfl
@[simp] theorem State.takeTok_m (s : State) (tok : Word) : (s.takeTok tok).m = s.m := rfl
@[simp] theorem State.takeTok_b (s : State) (tok : Word) : (s.takeTok tok).b = s.b := rfl
@[simp] theorem State.takeTok_fab (s : State) (tok : Word) : (s.takeTok tok).fab = s.fab := rfl
@[simp] theorem State.takeTok_sec (s : State) (tok : Word) : (s.takeTok tok).sec = s.sec := rfl
@[simp] theorem State.takeTok_j (s : State) (tok : Word) : (s.takeTok tok).j = s.j := rfl
@[simp] theorem State.takeTok_h (s : State) (tok : Word) : (s.takeTok tok).h = s.h := rfl
@[simp] theorem State.takeTok_pm (s : State) (tok : Word) : (s.takeTok tok).pm = s.pm := rfl

@[simp] theorem State.dropTc_pending (s : State) (p : Nat → Bool) : (s.dropTc p).pending = s.pending := rfl
@[simp] theorem State.dropTc_freeCtr (s : State) (p : Nat → Bool) : (s.dropTc p).freeCtr = s.freeCtr := rfl
@[simp] theorem State.dropTc_timeUs (s : State) (p : Nat → Bool) : (s.dropTc p).timeUs = s.timeUs := rfl
@[simp] theorem State.dropTc_regs (s : State) (p : Nat → Bool) : (s.dropTc p).regs = s.regs := rfl
@[simp] theorem State.dropTc_core (s : State) (p : Nat → Bool) : (s.dropTc p).core = s.core := rfl
@[simp] theorem State.dropTc_mx (s : State) (p : Nat → Bool) : (s.dropTc p).mx = s.mx := rfl
@[simp] theorem State.dropTc_e (s : State) (p : Nat → Bool) : (s.dropTc p).e = s.e := rfl
@[simp] theorem State.dropTc_b (s : State) (p : Nat → Bool) : (s.dropTc p).b = s.b := rfl
@[simp] theorem State.dropTc_fab (s : State) (p : Nat → Bool) : (s.dropTc p).fab = s.fab := rfl
@[simp] theorem State.dropTc_sec (s : State) (p : Nat → Bool) : (s.dropTc p).sec = s.sec := rfl
@[simp] theorem State.dropTc_j (s : State) (p : Nat → Bool) : (s.dropTc p).j = s.j := rfl
@[simp] theorem State.dropTc_h (s : State) (p : Nat → Bool) : (s.dropTc p).h = s.h := rfl
@[simp] theorem State.dropTc_pm (s : State) (p : Nat → Bool) : (s.dropTc p).pm = s.pm := rfl

@[simp] theorem State.freeTile_pending (s : State) (t : Tile) : (s.freeTile t).pending = s.pending := rfl
@[simp] theorem State.freeTile_freeCtr (s : State) (t : Tile) : (s.freeTile t).freeCtr = s.freeCtr := rfl
@[simp] theorem State.freeTile_timeUs (s : State) (t : Tile) : (s.freeTile t).timeUs = s.timeUs := rfl
@[simp] theorem State.freeTile_regs (s : State) (t : Tile) : (s.freeTile t).regs = s.regs := rfl
@[simp] theorem State.freeTile_core (s : State) (t : Tile) : (s.freeTile t).core = s.core := rfl
@[simp] theorem State.freeTile_m (s : State) (t : Tile) : (s.freeTile t).m = s.m := rfl
@[simp] theorem State.freeTile_e (s : State) (t : Tile) : (s.freeTile t).e = s.e := rfl
@[simp] theorem State.freeTile_b (s : State) (t : Tile) : (s.freeTile t).b = s.b := rfl
@[simp] theorem State.freeTile_fab (s : State) (t : Tile) : (s.freeTile t).fab = s.fab := rfl
@[simp] theorem State.freeTile_sec (s : State) (t : Tile) : (s.freeTile t).sec = s.sec := rfl
@[simp] theorem State.freeTile_j (s : State) (t : Tile) : (s.freeTile t).j = s.j := rfl
@[simp] theorem State.freeTile_h (s : State) (t : Tile) : (s.freeTile t).h = s.h := rfl
@[simp] theorem State.freeTile_pm (s : State) (t : Tile) : (s.freeTile t).pm = s.pm := rfl

@[simp] theorem State.addCredits_pending (s : State) (mc : Nat) (d : Int) : (s.addCredits mc d).pending = s.pending := rfl
@[simp] theorem State.addCredits_freeCtr (s : State) (mc : Nat) (d : Int) : (s.addCredits mc d).freeCtr = s.freeCtr := rfl
@[simp] theorem State.addCredits_timeUs (s : State) (mc : Nat) (d : Int) : (s.addCredits mc d).timeUs = s.timeUs := rfl
@[simp] theorem State.addCredits_regs (s : State) (mc : Nat) (d : Int) : (s.addCredits mc d).regs = s.regs := rfl
@[simp] theorem State.addCredits_core (s : State) (mc : Nat) (d : Int) : (s.addCredits mc d).core = s.core := rfl
@[simp] theorem State.addCredits_m (s : State) (mc : Nat) (d : Int) : (s.addCredits mc d).m = s.m := rfl
@[simp] theorem State.addCredits_e (s : State) (mc : Nat) (d : Int) : (s.addCredits mc d).e = s.e := rfl
@[simp] theorem State.addCredits_b (s : State) (mc : Nat) (d : Int) : (s.addCredits mc d).b = s.b := rfl
@[simp] theorem State.addCredits_fab (s : State) (mc : Nat) (d : Int) : (s.addCredits mc d).fab = s.fab := rfl
@[simp] theorem State.addCredits_sec (s : State) (mc : Nat) (d : Int) : (s.addCredits mc d).sec = s.sec := rfl
@[simp] theorem State.addCredits_j (s : State) (mc : Nat) (d : Int) : (s.addCredits mc d).j = s.j := rfl
@[simp] theorem State.addCredits_h (s : State) (mc : Nat) (d : Int) : (s.addCredits mc d).h = s.h := rfl
@[simp] theorem State.addCredits_pm (s : State) (mc : Nat) (d : Int) : (s.addCredits mc d).pm = s.pm := rfl

@[simp] theorem State.setSymbols_pending (s : State) (burst v : Nat) : (s.setSymbols burst v).pending = s.pending := rfl
@[simp] theorem State.setSymbols_freeCtr (s : State) (burst v : Nat) : (s.setSymbols burst v).freeCtr = s.freeCtr := rfl
@[simp] theorem State.setSymbols_timeUs (s : State) (burst v : Nat) : (s.setSymbols burst v).timeUs = s.timeUs := rfl
@[simp] theorem State.setSymbols_regs (s : State) (burst v : Nat) : (s.setSymbols burst v).regs = s.regs := rfl
@[simp] theorem State.setSymbols_core (s : State) (burst v : Nat) : (s.setSymbols burst v).core = s.core := rfl
@[simp] theorem State.setSymbols_mx (s : State) (burst v : Nat) : (s.setSymbols burst v).mx = s.mx := rfl
@[simp] theorem State.setSymbols_e (s : State) (burst v : Nat) : (s.setSymbols burst v).e = s.e := rfl
@[simp] theorem State.setSymbols_b (s : State) (burst v : Nat) : (s.setSymbols burst v).b = s.b := rfl
@[simp] theorem State.setSymbols_fab (s : State) (burst v : Nat) : (s.setSymbols burst v).fab = s.fab := rfl
@[simp] theorem State.setSymbols_sec (s : State) (burst v : Nat) : (s.setSymbols burst v).sec = s.sec := rfl
@[simp] theorem State.setSymbols_j (s : State) (burst v : Nat) : (s.setSymbols burst v).j = s.j := rfl
@[simp] theorem State.setSymbols_h (s : State) (burst v : Nat) : (s.setSymbols burst v).h = s.h := rfl
@[simp] theorem State.setSymbols_pm (s : State) (burst v : Nat) : (s.setSymbols burst v).pm = s.pm := rfl

@[simp] theorem State.wantMhz_pending (s : State) (v : Nat) : (s.wantMhz v).pending = s.pending := rfl
@[simp] theorem State.wantMhz_freeCtr (s : State) (v : Nat) : (s.wantMhz v).freeCtr = s.freeCtr := rfl
@[simp] theorem State.wantMhz_timeUs (s : State) (v : Nat) : (s.wantMhz v).timeUs = s.timeUs := rfl
@[simp] theorem State.wantMhz_regs (s : State) (v : Nat) : (s.wantMhz v).regs = s.regs := rfl
@[simp] theorem State.wantMhz_core (s : State) (v : Nat) : (s.wantMhz v).core = s.core := rfl
@[simp] theorem State.wantMhz_mx (s : State) (v : Nat) : (s.wantMhz v).mx = s.mx := rfl
@[simp] theorem State.wantMhz_m (s : State) (v : Nat) : (s.wantMhz v).m = s.m := rfl
@[simp] theorem State.wantMhz_e (s : State) (v : Nat) : (s.wantMhz v).e = s.e := rfl
@[simp] theorem State.wantMhz_b (s : State) (v : Nat) : (s.wantMhz v).b = s.b := rfl
@[simp] theorem State.wantMhz_fab (s : State) (v : Nat) : (s.wantMhz v).fab = s.fab := rfl
@[simp] theorem State.wantMhz_sec (s : State) (v : Nat) : (s.wantMhz v).sec = s.sec := rfl
@[simp] theorem State.wantMhz_j (s : State) (v : Nat) : (s.wantMhz v).j = s.j := rfl
@[simp] theorem State.wantMhz_h (s : State) (v : Nat) : (s.wantMhz v).h = s.h := rfl

@[simp] theorem State.disarm_pending (s : State) : (s.disarm).pending = s.pending := rfl
@[simp] theorem State.disarm_freeCtr (s : State) : (s.disarm).freeCtr = s.freeCtr := rfl
@[simp] theorem State.disarm_timeUs (s : State) : (s.disarm).timeUs = s.timeUs := rfl
@[simp] theorem State.disarm_regs (s : State) : (s.disarm).regs = s.regs := rfl
@[simp] theorem State.disarm_core (s : State) : (s.disarm).core = s.core := rfl
@[simp] theorem State.disarm_mx (s : State) : (s.disarm).mx = s.mx := rfl
@[simp] theorem State.disarm_m (s : State) : (s.disarm).m = s.m := rfl
@[simp] theorem State.disarm_e (s : State) : (s.disarm).e = s.e := rfl
@[simp] theorem State.disarm_b (s : State) : (s.disarm).b = s.b := rfl
@[simp] theorem State.disarm_fab (s : State) : (s.disarm).fab = s.fab := rfl
@[simp] theorem State.disarm_sec (s : State) : (s.disarm).sec = s.sec := rfl
@[simp] theorem State.disarm_j (s : State) : (s.disarm).j = s.j := rfl
@[simp] theorem State.disarm_h (s : State) : (s.disarm).h = s.h := rfl

@[simp] theorem State.holdFld_pending (s : State) (p : Nat) (f : Fld) (v mask : Nat) : (s.holdFld p f v mask).pending = s.pending := rfl
@[simp] theorem State.holdFld_freeCtr (s : State) (p : Nat) (f : Fld) (v mask : Nat) : (s.holdFld p f v mask).freeCtr = s.freeCtr := rfl
@[simp] theorem State.holdFld_timeUs (s : State) (p : Nat) (f : Fld) (v mask : Nat) : (s.holdFld p f v mask).timeUs = s.timeUs := rfl
@[simp] theorem State.holdFld_regs (s : State) (p : Nat) (f : Fld) (v mask : Nat) : (s.holdFld p f v mask).regs = s.regs := rfl
@[simp] theorem State.holdFld_core (s : State) (p : Nat) (f : Fld) (v mask : Nat) : (s.holdFld p f v mask).core = s.core := rfl
@[simp] theorem State.holdFld_mx (s : State) (p : Nat) (f : Fld) (v mask : Nat) : (s.holdFld p f v mask).mx = s.mx := rfl
@[simp] theorem State.holdFld_m (s : State) (p : Nat) (f : Fld) (v mask : Nat) : (s.holdFld p f v mask).m = s.m := rfl
@[simp] theorem State.holdFld_e (s : State) (p : Nat) (f : Fld) (v mask : Nat) : (s.holdFld p f v mask).e = s.e := rfl
@[simp] theorem State.holdFld_b (s : State) (p : Nat) (f : Fld) (v mask : Nat) : (s.holdFld p f v mask).b = s.b := rfl
@[simp] theorem State.holdFld_fab (s : State) (p : Nat) (f : Fld) (v mask : Nat) : (s.holdFld p f v mask).fab = s.fab := rfl
@[simp] theorem State.holdFld_sec (s : State) (p : Nat) (f : Fld) (v mask : Nat) : (s.holdFld p f v mask).sec = s.sec := rfl
@[simp] theorem State.holdFld_h (s : State) (p : Nat) (f : Fld) (v mask : Nat) : (s.holdFld p f v mask).h = s.h := rfl
@[simp] theorem State.holdFld_pm (s : State) (p : Nat) (f : Fld) (v mask : Nat) : (s.holdFld p f v mask).pm = s.pm := rfl

@[simp] theorem State.setHeldWord_pending (s : State) (w v : Nat) : (s.setHeldWord w v).pending = s.pending := rfl
@[simp] theorem State.setHeldWord_freeCtr (s : State) (w v : Nat) : (s.setHeldWord w v).freeCtr = s.freeCtr := rfl
@[simp] theorem State.setHeldWord_timeUs (s : State) (w v : Nat) : (s.setHeldWord w v).timeUs = s.timeUs := rfl
@[simp] theorem State.setHeldWord_regs (s : State) (w v : Nat) : (s.setHeldWord w v).regs = s.regs := rfl
@[simp] theorem State.setHeldWord_core (s : State) (w v : Nat) : (s.setHeldWord w v).core = s.core := rfl
@[simp] theorem State.setHeldWord_mx (s : State) (w v : Nat) : (s.setHeldWord w v).mx = s.mx := rfl
@[simp] theorem State.setHeldWord_m (s : State) (w v : Nat) : (s.setHeldWord w v).m = s.m := rfl
@[simp] theorem State.setHeldWord_b (s : State) (w v : Nat) : (s.setHeldWord w v).b = s.b := rfl
@[simp] theorem State.setHeldWord_fab (s : State) (w v : Nat) : (s.setHeldWord w v).fab = s.fab := rfl
@[simp] theorem State.setHeldWord_sec (s : State) (w v : Nat) : (s.setHeldWord w v).sec = s.sec := rfl
@[simp] theorem State.setHeldWord_j (s : State) (w v : Nat) : (s.setHeldWord w v).j = s.j := rfl
@[simp] theorem State.setHeldWord_h (s : State) (w v : Nat) : (s.setHeldWord w v).h = s.h := rfl
@[simp] theorem State.setHeldWord_pm (s : State) (w v : Nat) : (s.setHeldWord w v).pm = s.pm := rfl

@[simp] theorem State.answer_pending (s : State) (a : Answer) : (s.answer a).pending = s.pending := rfl
@[simp] theorem State.answer_freeCtr (s : State) (a : Answer) : (s.answer a).freeCtr = s.freeCtr := rfl
@[simp] theorem State.answer_timeUs (s : State) (a : Answer) : (s.answer a).timeUs = s.timeUs := rfl
@[simp] theorem State.answer_regs (s : State) (a : Answer) : (s.answer a).regs = s.regs := rfl
@[simp] theorem State.answer_core (s : State) (a : Answer) : (s.answer a).core = s.core := rfl
@[simp] theorem State.answer_mx (s : State) (a : Answer) : (s.answer a).mx = s.mx := rfl
@[simp] theorem State.answer_m (s : State) (a : Answer) : (s.answer a).m = s.m := rfl
@[simp] theorem State.answer_b (s : State) (a : Answer) : (s.answer a).b = s.b := rfl
@[simp] theorem State.answer_fab (s : State) (a : Answer) : (s.answer a).fab = s.fab := rfl
@[simp] theorem State.answer_sec (s : State) (a : Answer) : (s.answer a).sec = s.sec := rfl
@[simp] theorem State.answer_j (s : State) (a : Answer) : (s.answer a).j = s.j := rfl
@[simp] theorem State.answer_h (s : State) (a : Answer) : (s.answer a).h = s.h := rfl
@[simp] theorem State.answer_pm (s : State) (a : Answer) : (s.answer a).pm = s.pm := rfl

@[simp] theorem State.setBank_pending (s : State) (b : Nat) (v : Bank) : (s.setBank b v).pending = s.pending := rfl
@[simp] theorem State.setBank_freeCtr (s : State) (b : Nat) (v : Bank) : (s.setBank b v).freeCtr = s.freeCtr := rfl
@[simp] theorem State.setBank_timeUs (s : State) (b : Nat) (v : Bank) : (s.setBank b v).timeUs = s.timeUs := rfl
@[simp] theorem State.setBank_regs (s : State) (b : Nat) (v : Bank) : (s.setBank b v).regs = s.regs := rfl
@[simp] theorem State.setBank_core (s : State) (b : Nat) (v : Bank) : (s.setBank b v).core = s.core := rfl
@[simp] theorem State.setBank_mx (s : State) (b : Nat) (v : Bank) : (s.setBank b v).mx = s.mx := rfl
@[simp] theorem State.setBank_e (s : State) (b : Nat) (v : Bank) : (s.setBank b v).e = s.e := rfl
@[simp] theorem State.setBank_b (s : State) (b : Nat) (v : Bank) : (s.setBank b v).b = s.b := rfl
@[simp] theorem State.setBank_fab (s : State) (b : Nat) (v : Bank) : (s.setBank b v).fab = s.fab := rfl
@[simp] theorem State.setBank_sec (s : State) (b : Nat) (v : Bank) : (s.setBank b v).sec = s.sec := rfl
@[simp] theorem State.setBank_j (s : State) (b : Nat) (v : Bank) : (s.setBank b v).j = s.j := rfl
@[simp] theorem State.setBank_h (s : State) (b : Nat) (v : Bank) : (s.setBank b v).h = s.h := rfl
@[simp] theorem State.setBank_pm (s : State) (b : Nat) (v : Bank) : (s.setBank b v).pm = s.pm := rfl

@[simp] theorem State.dropXfer_pending (s : State) (id : Nat) : (s.dropXfer id).pending = s.pending := rfl
@[simp] theorem State.dropXfer_freeCtr (s : State) (id : Nat) : (s.dropXfer id).freeCtr = s.freeCtr := rfl
@[simp] theorem State.dropXfer_timeUs (s : State) (id : Nat) : (s.dropXfer id).timeUs = s.timeUs := rfl
@[simp] theorem State.dropXfer_regs (s : State) (id : Nat) : (s.dropXfer id).regs = s.regs := rfl
@[simp] theorem State.dropXfer_core (s : State) (id : Nat) : (s.dropXfer id).core = s.core := rfl
@[simp] theorem State.dropXfer_mx (s : State) (id : Nat) : (s.dropXfer id).mx = s.mx := rfl
@[simp] theorem State.dropXfer_e (s : State) (id : Nat) : (s.dropXfer id).e = s.e := rfl
@[simp] theorem State.dropXfer_b (s : State) (id : Nat) : (s.dropXfer id).b = s.b := rfl
@[simp] theorem State.dropXfer_fab (s : State) (id : Nat) : (s.dropXfer id).fab = s.fab := rfl
@[simp] theorem State.dropXfer_sec (s : State) (id : Nat) : (s.dropXfer id).sec = s.sec := rfl
@[simp] theorem State.dropXfer_j (s : State) (id : Nat) : (s.dropXfer id).j = s.j := rfl
@[simp] theorem State.dropXfer_h (s : State) (id : Nat) : (s.dropXfer id).h = s.h := rfl
@[simp] theorem State.dropXfer_pm (s : State) (id : Nat) : (s.dropXfer id).pm = s.pm := rfl

@[simp] theorem State.orphanFeeds_pending (s : State) (core : Nat) (p : Nat → Bool) : (s.orphanFeeds core p).pending = s.pending := rfl
@[simp] theorem State.orphanFeeds_freeCtr (s : State) (core : Nat) (p : Nat → Bool) : (s.orphanFeeds core p).freeCtr = s.freeCtr := rfl
@[simp] theorem State.orphanFeeds_timeUs (s : State) (core : Nat) (p : Nat → Bool) : (s.orphanFeeds core p).timeUs = s.timeUs := rfl
@[simp] theorem State.orphanFeeds_regs (s : State) (core : Nat) (p : Nat → Bool) : (s.orphanFeeds core p).regs = s.regs := rfl
@[simp] theorem State.orphanFeeds_core (s : State) (core : Nat) (p : Nat → Bool) : (s.orphanFeeds core p).core = s.core := rfl
@[simp] theorem State.orphanFeeds_mx (s : State) (core : Nat) (p : Nat → Bool) : (s.orphanFeeds core p).mx = s.mx := rfl
@[simp] theorem State.orphanFeeds_e (s : State) (core : Nat) (p : Nat → Bool) : (s.orphanFeeds core p).e = s.e := rfl
@[simp] theorem State.orphanFeeds_b (s : State) (core : Nat) (p : Nat → Bool) : (s.orphanFeeds core p).b = s.b := rfl
@[simp] theorem State.orphanFeeds_fab (s : State) (core : Nat) (p : Nat → Bool) : (s.orphanFeeds core p).fab = s.fab := rfl
@[simp] theorem State.orphanFeeds_sec (s : State) (core : Nat) (p : Nat → Bool) : (s.orphanFeeds core p).sec = s.sec := rfl
@[simp] theorem State.orphanFeeds_j (s : State) (core : Nat) (p : Nat → Bool) : (s.orphanFeeds core p).j = s.j := rfl
@[simp] theorem State.orphanFeeds_h (s : State) (core : Nat) (p : Nat → Bool) : (s.orphanFeeds core p).h = s.h := rfl
@[simp] theorem State.orphanFeeds_pm (s : State) (core : Nat) (p : Nat → Bool) : (s.orphanFeeds core p).pm = s.pm := rfl

@[simp] theorem State.touchStaged_pending (s : State) (b : Nat) : (s.touchStaged b).pending = s.pending := rfl
@[simp] theorem State.touchStaged_freeCtr (s : State) (b : Nat) : (s.touchStaged b).freeCtr = s.freeCtr := rfl
@[simp] theorem State.touchStaged_timeUs (s : State) (b : Nat) : (s.touchStaged b).timeUs = s.timeUs := rfl
@[simp] theorem State.touchStaged_regs (s : State) (b : Nat) : (s.touchStaged b).regs = s.regs := rfl
@[simp] theorem State.touchStaged_core (s : State) (b : Nat) : (s.touchStaged b).core = s.core := rfl
@[simp] theorem State.touchStaged_mx (s : State) (b : Nat) : (s.touchStaged b).mx = s.mx := rfl
@[simp] theorem State.touchStaged_e (s : State) (b : Nat) : (s.touchStaged b).e = s.e := rfl
@[simp] theorem State.touchStaged_b (s : State) (b : Nat) : (s.touchStaged b).b = s.b := rfl
@[simp] theorem State.touchStaged_fab (s : State) (b : Nat) : (s.touchStaged b).fab = s.fab := rfl
@[simp] theorem State.touchStaged_sec (s : State) (b : Nat) : (s.touchStaged b).sec = s.sec := rfl
@[simp] theorem State.touchStaged_j (s : State) (b : Nat) : (s.touchStaged b).j = s.j := rfl
@[simp] theorem State.touchStaged_h (s : State) (b : Nat) : (s.touchStaged b).h = s.h := rfl
@[simp] theorem State.touchStaged_pm (s : State) (b : Nat) : (s.touchStaged b).pm = s.pm := rfl

@[simp] theorem State.updReq_pending (s : State) (r : Req) : (s.updReq r).pending = s.pending := rfl
@[simp] theorem State.updReq_freeCtr (s : State) (r : Req) : (s.updReq r).freeCtr = s.freeCtr := rfl
@[simp] theorem State.updReq_timeUs (s : State) (r : Req) : (s.updReq r).timeUs = s.timeUs := rfl
@[simp] theorem State.updReq_regs (s : State) (r : Req) : (s.updReq r).regs = s.regs := rfl
@[simp] theorem State.updReq_core (s : State) (r : Req) : (s.updReq r).core = s.core := rfl
@[simp] theorem State.updReq_mx (s : State) (r : Req) : (s.updReq r).mx = s.mx := rfl
@[simp] theorem State.updReq_e (s : State) (r : Req) : (s.updReq r).e = s.e := rfl
@[simp] theorem State.updReq_b (s : State) (r : Req) : (s.updReq r).b = s.b := rfl
@[simp] theorem State.updReq_fab (s : State) (r : Req) : (s.updReq r).fab = s.fab := rfl
@[simp] theorem State.updReq_sec (s : State) (r : Req) : (s.updReq r).sec = s.sec := rfl
@[simp] theorem State.updReq_j (s : State) (r : Req) : (s.updReq r).j = s.j := rfl
@[simp] theorem State.updReq_h (s : State) (r : Req) : (s.updReq r).h = s.h := rfl
@[simp] theorem State.updReq_pm (s : State) (r : Req) : (s.updReq r).pm = s.pm := rfl

@[simp] theorem State.setAge_pending (s : State) (inst r v : Nat) : (s.setAge inst r v).pending = s.pending := rfl
@[simp] theorem State.setAge_freeCtr (s : State) (inst r v : Nat) : (s.setAge inst r v).freeCtr = s.freeCtr := rfl
@[simp] theorem State.setAge_timeUs (s : State) (inst r v : Nat) : (s.setAge inst r v).timeUs = s.timeUs := rfl
@[simp] theorem State.setAge_regs (s : State) (inst r v : Nat) : (s.setAge inst r v).regs = s.regs := rfl
@[simp] theorem State.setAge_core (s : State) (inst r v : Nat) : (s.setAge inst r v).core = s.core := rfl
@[simp] theorem State.setAge_mx (s : State) (inst r v : Nat) : (s.setAge inst r v).mx = s.mx := rfl
@[simp] theorem State.setAge_e (s : State) (inst r v : Nat) : (s.setAge inst r v).e = s.e := rfl
@[simp] theorem State.setAge_b (s : State) (inst r v : Nat) : (s.setAge inst r v).b = s.b := rfl
@[simp] theorem State.setAge_fab (s : State) (inst r v : Nat) : (s.setAge inst r v).fab = s.fab := rfl
@[simp] theorem State.setAge_sec (s : State) (inst r v : Nat) : (s.setAge inst r v).sec = s.sec := rfl
@[simp] theorem State.setAge_j (s : State) (inst r v : Nat) : (s.setAge inst r v).j = s.j := rfl
@[simp] theorem State.setAge_h (s : State) (inst r v : Nat) : (s.setAge inst r v).h = s.h := rfl
@[simp] theorem State.setAge_pm (s : State) (inst r v : Nat) : (s.setAge inst r v).pm = s.pm := rfl

@[simp] theorem State.advance_pending (s : State) (inst n : Nat) : (s.advance inst n).pending = s.pending := rfl
@[simp] theorem State.advance_freeCtr (s : State) (inst n : Nat) : (s.advance inst n).freeCtr = s.freeCtr := rfl
@[simp] theorem State.advance_timeUs (s : State) (inst n : Nat) : (s.advance inst n).timeUs = s.timeUs := rfl
@[simp] theorem State.advance_regs (s : State) (inst n : Nat) : (s.advance inst n).regs = s.regs := rfl
@[simp] theorem State.advance_core (s : State) (inst n : Nat) : (s.advance inst n).core = s.core := rfl
@[simp] theorem State.advance_mx (s : State) (inst n : Nat) : (s.advance inst n).mx = s.mx := rfl
@[simp] theorem State.advance_e (s : State) (inst n : Nat) : (s.advance inst n).e = s.e := rfl
@[simp] theorem State.advance_b (s : State) (inst n : Nat) : (s.advance inst n).b = s.b := rfl
@[simp] theorem State.advance_fab (s : State) (inst n : Nat) : (s.advance inst n).fab = s.fab := rfl
@[simp] theorem State.advance_sec (s : State) (inst n : Nat) : (s.advance inst n).sec = s.sec := rfl
@[simp] theorem State.advance_j (s : State) (inst n : Nat) : (s.advance inst n).j = s.j := rfl
@[simp] theorem State.advance_h (s : State) (inst n : Nat) : (s.advance inst n).h = s.h := rfl
@[simp] theorem State.advance_pm (s : State) (inst n : Nat) : (s.advance inst n).pm = s.pm := rfl

@[simp] theorem State.burn_pending (s : State) (off n v : Nat) : (s.burn off n v).pending = s.pending := rfl
@[simp] theorem State.burn_freeCtr (s : State) (off n v : Nat) : (s.burn off n v).freeCtr = s.freeCtr := rfl
@[simp] theorem State.burn_timeUs (s : State) (off n v : Nat) : (s.burn off n v).timeUs = s.timeUs := rfl
@[simp] theorem State.burn_regs (s : State) (off n v : Nat) : (s.burn off n v).regs = s.regs := rfl
@[simp] theorem State.burn_core (s : State) (off n v : Nat) : (s.burn off n v).core = s.core := rfl
@[simp] theorem State.burn_mx (s : State) (off n v : Nat) : (s.burn off n v).mx = s.mx := rfl
@[simp] theorem State.burn_m (s : State) (off n v : Nat) : (s.burn off n v).m = s.m := rfl
@[simp] theorem State.burn_e (s : State) (off n v : Nat) : (s.burn off n v).e = s.e := rfl
@[simp] theorem State.burn_b (s : State) (off n v : Nat) : (s.burn off n v).b = s.b := rfl
@[simp] theorem State.burn_fab (s : State) (off n v : Nat) : (s.burn off n v).fab = s.fab := rfl
@[simp] theorem State.burn_j (s : State) (off n v : Nat) : (s.burn off n v).j = s.j := rfl
@[simp] theorem State.burn_h (s : State) (off n v : Nat) : (s.burn off n v).h = s.h := rfl
@[simp] theorem State.burn_pm (s : State) (off n v : Nat) : (s.burn off n v).pm = s.pm := rfl

@[simp] theorem State.sweepPageEnd_pending (s : State) (p page : Nat) : (s.sweepPageEnd p page).pending = s.pending := rfl
@[simp] theorem State.sweepPageEnd_freeCtr (s : State) (p page : Nat) : (s.sweepPageEnd p page).freeCtr = s.freeCtr := rfl
@[simp] theorem State.sweepPageEnd_timeUs (s : State) (p page : Nat) : (s.sweepPageEnd p page).timeUs = s.timeUs := rfl
@[simp] theorem State.sweepPageEnd_regs (s : State) (p page : Nat) : (s.sweepPageEnd p page).regs = s.regs := rfl
@[simp] theorem State.sweepPageEnd_core (s : State) (p page : Nat) : (s.sweepPageEnd p page).core = s.core := rfl
@[simp] theorem State.sweepPageEnd_mx (s : State) (p page : Nat) : (s.sweepPageEnd p page).mx = s.mx := rfl
@[simp] theorem State.sweepPageEnd_e (s : State) (p page : Nat) : (s.sweepPageEnd p page).e = s.e := rfl
@[simp] theorem State.sweepPageEnd_b (s : State) (p page : Nat) : (s.sweepPageEnd p page).b = s.b := rfl
@[simp] theorem State.sweepPageEnd_fab (s : State) (p page : Nat) : (s.sweepPageEnd p page).fab = s.fab := rfl
@[simp] theorem State.sweepPageEnd_sec (s : State) (p page : Nat) : (s.sweepPageEnd p page).sec = s.sec := rfl
@[simp] theorem State.sweepPageEnd_j (s : State) (p page : Nat) : (s.sweepPageEnd p page).j = s.j := rfl
@[simp] theorem State.sweepPageEnd_h (s : State) (p page : Nat) : (s.sweepPageEnd p page).h = s.h := rfl
@[simp] theorem State.sweepPageEnd_pm (s : State) (p page : Nat) : (s.sweepPageEnd p page).pm = s.pm := rfl

@[simp] theorem State.popped_freeCtr (s : State) : (s.popped).freeCtr = s.freeCtr := rfl
@[simp] theorem State.popped_timeUs (s : State) : (s.popped).timeUs = s.timeUs := rfl
@[simp] theorem State.popped_regs (s : State) : (s.popped).regs = s.regs := rfl
@[simp] theorem State.popped_core (s : State) : (s.popped).core = s.core := rfl
@[simp] theorem State.popped_mx (s : State) : (s.popped).mx = s.mx := rfl
@[simp] theorem State.popped_m (s : State) : (s.popped).m = s.m := rfl
@[simp] theorem State.popped_e (s : State) : (s.popped).e = s.e := rfl
@[simp] theorem State.popped_b (s : State) : (s.popped).b = s.b := rfl
@[simp] theorem State.popped_fab (s : State) : (s.popped).fab = s.fab := rfl
@[simp] theorem State.popped_sec (s : State) : (s.popped).sec = s.sec := rfl
@[simp] theorem State.popped_j (s : State) : (s.popped).j = s.j := rfl
@[simp] theorem State.popped_h (s : State) : (s.popped).h = s.h := rfl
@[simp] theorem State.popped_pm (s : State) : (s.popped).pm = s.pm := rfl

@[simp] theorem State.dropJournal_pending (s : State) (p : Nat) : (s.dropJournal p).pending = s.pending := rfl
@[simp] theorem State.dropJournal_freeCtr (s : State) (p : Nat) : (s.dropJournal p).freeCtr = s.freeCtr := rfl
@[simp] theorem State.dropJournal_timeUs (s : State) (p : Nat) : (s.dropJournal p).timeUs = s.timeUs := rfl
@[simp] theorem State.dropJournal_regs (s : State) (p : Nat) : (s.dropJournal p).regs = s.regs := rfl
@[simp] theorem State.dropJournal_core (s : State) (p : Nat) : (s.dropJournal p).core = s.core := rfl
@[simp] theorem State.dropJournal_mx (s : State) (p : Nat) : (s.dropJournal p).mx = s.mx := rfl
@[simp] theorem State.dropJournal_m (s : State) (p : Nat) : (s.dropJournal p).m = s.m := rfl
@[simp] theorem State.dropJournal_e (s : State) (p : Nat) : (s.dropJournal p).e = s.e := rfl
@[simp] theorem State.dropJournal_fab (s : State) (p : Nat) : (s.dropJournal p).fab = s.fab := rfl
@[simp] theorem State.dropJournal_sec (s : State) (p : Nat) : (s.dropJournal p).sec = s.sec := rfl
@[simp] theorem State.dropJournal_j (s : State) (p : Nat) : (s.dropJournal p).j = s.j := rfl
@[simp] theorem State.dropJournal_h (s : State) (p : Nat) : (s.dropJournal p).h = s.h := rfl
@[simp] theorem State.dropJournal_pm (s : State) (p : Nat) : (s.dropJournal p).pm = s.pm := rfl

/-! ### Reads after writes -/

theorem State.fld_setFld (s : State) (f : Fld) (v : Nat) : (s.setFld f v).fld f = v % 2 ^ f.len := by
  simp [State.fld, State.setFld, Tab.get_put_same]

theorem State.fld_setFld_ne (s : State) {f g : Fld} (v : Nat) (h : f.key ≠ g.key) :
    (s.setFld f v).fld g = s.fld g :=
  Tab.get_put_ne _ _ _ _ _ _ (Ne.symm h)

/-- The numbers of a thread's register of a file of `n`: different threads and registers have different numbers. -/
theorem regKey_inj {n a b r q : Nat} (hr : r < n) (hq : q < n) (h : n * a + r = n * b + q) : a = b ∧ r = q := by
  have h1 : (n * a + r) / n = a := by
    rw [Nat.mul_add_div (by omega), Nat.div_eq_of_lt hr, Nat.add_zero]
  have h2 : (n * b + q) / n = b := by
    rw [Nat.mul_add_div (by omega), Nat.div_eq_of_lt hq, Nat.add_zero]
  have e : a = b := by rw [← h1, ← h2, h]
  subst e
  exact ⟨rfl, by omega⟩

theorem State.sreg_zero (s : State) (c t : Nat) : s.sreg c t 0 = 0 := rfl
theorem State.setS_zero (s : State) (c t : Nat) (v : Word) : s.setS c t 0 v = s := rfl
theorem State.mreg_zero (s : State) (c t : Nat) : s.mreg c t 0 = BitVec.allOnes 512 := rfl

theorem State.sreg_setS (s : State) (c t r : Nat) (v : Word) (h : r ≠ 0) : (s.setS c t r v).sreg c t r = v := by
  simp [State.sreg, State.setS, h, Tab.get_put_same]

theorem State.sreg_setS_ne (s : State) (c t r q : Nat) (v : Word) (hr : r < 32) (hq : q < 32) (h : q ≠ r) :
    (s.setS c t r v).sreg c t q = s.sreg c t q := by
  unfold State.sreg State.setS
  by_cases h0 : q = 0
  · simp [h0]
  · by_cases h1 : r = 0
    · simp [h1]
    · simp only [h0, h1, if_false]
      rw [Tab.get_put_ne]
      intro e
      exact h (regKey_inj hq hr e).2

theorem State.mreg_setM (s : State) (c t r : Nat) (v : MWord) (h : r ≠ 0) : (s.setM c t r v).mreg c t r = v := by
  simp [State.mreg, State.setM, h, Tab.get_put_same]

theorem State.vreg_setV (s : State) (c t r : Nat) (v : VWord) : (s.setV c t r v).vreg c t r = v := by
  simp [State.vreg, State.setV, State.vphys, State.threads, State.taskF, Tab.get_put_same]

theorem State.pc_setPc (s : State) (c t pc : Nat) : (s.setPc c t pc).pc c t = pc := by
  simp [State.pc, State.setPc, Tab.get_put_same]

theorem State.flags_setFlags (s : State) (c t : Nat) (f : Flags) : (s.setFlags c t f).flags c t = f := by
  simp [State.flags, State.setFlags, Tab.get_put_same]

theorem State.stat_setStat (s : State) (c t : Nat) (v : TStat) : (s.setStat c t v).stat c t = v := by
  simp [State.stat, State.setStat, Tab.get_put_same]

theorem State.handle_setHandle (s : State) (c r : Nat) (v : Word) : (s.setHandle c r v).handle c r = v := by
  simp [State.handle, State.setHandle, Tab.get_put_same]

theorem State.stream_setStream (s : State) (c q : Nat) (v : Stream) : (s.setStream c q v).stream c q = v := by
  simp [State.stream, State.setStream, Tab.get_put_same]

/-- Bytes that agree are read alike. -/
theorem Mem.rdBytes_congr (m w : Mem) (a n : Nat) (h : ∀ k, a ≤ k → k < a + n → m.rd k = w.rd k) :
    m.rdBytes a n = w.rdBytes a n := by
  induction n generalizing a with
  | zero => rfl
  | succ n ih =>
    simp only [Mem.rdBytes]
    rw [h a (Nat.le_refl a) (by omega), ih (a + 1) (fun k h1 h2 => h k (by omega) (by omega))]

/-- The bytes that a store does not write read as before. -/
theorem State.rd_wr_out (s : State) (key n v a m : Nat) (h : a + m ≤ key ∨ key + n ≤ a) :
    (s.wr key n v).rd a m = s.rd a m := by
  simp only [State.rd, State.wr, Mem.rdLE]
  congr 1
  exact Mem.rdBytes_congr _ _ _ _ (fun k h1 h2 => Mem.rd_wrBytes_out _ _ _ _ (by
    simp only [length_leBytes]; omega))

/-- What a command that fail-safe stops can do: nothing there, its own outcome elsewhere. -/
theorem unlessStopped_cases {s u : State} {o : Out} (h : unlessStopped s o = .next u) :
    (s.on ERR_FAILSAFE_ACTIVE = true ∧ u = s) ∨ (s.on ERR_FAILSAFE_ACTIVE = false ∧ o = .next u) := by
  unfold unlessStopped at h
  split at h
  · rename_i hs
    exact .inl ⟨hs, (by cases h; rfl)⟩
  · rename_i hs
    exact .inr ⟨by simpa using hs, h⟩

theorem unlessStopped_off {s : State} {o : Out} (h : s.on ERR_FAILSAFE_ACTIVE = false) : unlessStopped s o = o := by
  simp [unlessStopped, h]

theorem unlessStopped_on {s : State} {o : Out} (h : s.on ERR_FAILSAFE_ACTIVE = true) : unlessStopped s o = .next s := by
  simp [unlessStopped, h]

end Sys2Proof.Machine
end

