-- ==== Sys2Proof/Laws/Frames.lean ====
section
/-! SUPPORT. What each shared operation of the machine leaves alone: one lemma per operation, over the groups of State
(`m.mem` the memories within the group m). -/

namespace Sys2Proof.Machine

/-- A relation between states that holds of no step and of one step after another holds of a fold of steps. -/
theorem foldl_rel {α : Type} (R : State → State → Prop) (l : List α) (f : State → α → State) (s : State)
    (hr : ∀ s, R s s) (ht : ∀ a b c, R a b → R b c → R a c) (h : ∀ s x u, f s x = u → R u s) : R (l.foldl f s) s := by
  induction l generalizing s with
  | nil => exact hr s
  | cons a l ih => exact ht _ _ _ (ih _) (h s a _ rfl)

@[simp] theorem ite_pending (c : Prop) [Decidable c] (a b : State) :
    (if c then a else b).pending = if c then a.pending else b.pending :=
  apply_ite State.pending c a b
@[simp] theorem foldl_pending {α : Type} (l : List α) (f : State → α → State) (s : State)
    (h : ∀ s x, (f s x).pending = s.pending) : (l.foldl f s).pending = s.pending :=
  foldl_rel (fun u v => u.pending = v.pending) l f s (fun _ => rfl) (fun _ _ _ => Eq.trans) (fun s x _ e => e ▸ h s x)
@[simp] theorem ite_freeCtr (c : Prop) [Decidable c] (a b : State) :
    (if c then a else b).freeCtr = if c then a.freeCtr else b.freeCtr :=
  apply_ite State.freeCtr c a b
@[simp] theorem foldl_freeCtr {α : Type} (l : List α) (f : State → α → State) (s : State)
    (h : ∀ s x, (f s x).freeCtr = s.freeCtr) : (l.foldl f s).freeCtr = s.freeCtr :=
  foldl_rel (fun u v => u.freeCtr = v.freeCtr) l f s (fun _ => rfl) (fun _ _ _ => Eq.trans) (fun s x _ e => e ▸ h s x)
@[simp] theorem ite_timeUs (c : Prop) [Decidable c] (a b : State) :
    (if c then a else b).timeUs = if c then a.timeUs else b.timeUs :=
  apply_ite State.timeUs c a b
@[simp] theorem foldl_timeUs {α : Type} (l : List α) (f : State → α → State) (s : State)
    (h : ∀ s x, (f s x).timeUs = s.timeUs) : (l.foldl f s).timeUs = s.timeUs :=
  foldl_rel (fun u v => u.timeUs = v.timeUs) l f s (fun _ => rfl) (fun _ _ _ => Eq.trans) (fun s x _ e => e ▸ h s x)
@[simp] theorem ite_regs (c : Prop) [Decidable c] (a b : State) :
    (if c then a else b).regs = if c then a.regs else b.regs :=
  apply_ite State.regs c a b
@[simp] theorem foldl_regs {α : Type} (l : List α) (f : State → α → State) (s : State)
    (h : ∀ s x, (f s x).regs = s.regs) : (l.foldl f s).regs = s.regs :=
  foldl_rel (fun u v => u.regs = v.regs) l f s (fun _ => rfl) (fun _ _ _ => Eq.trans) (fun s x _ e => e ▸ h s x)
@[simp] theorem ite_core (c : Prop) [Decidable c] (a b : State) :
    (if c then a else b).core = if c then a.core else b.core :=
  apply_ite State.core c a b
@[simp] theorem foldl_core {α : Type} (l : List α) (f : State → α → State) (s : State)
    (h : ∀ s x, (f s x).core = s.core) : (l.foldl f s).core = s.core :=
  foldl_rel (fun u v => u.core = v.core) l f s (fun _ => rfl) (fun _ _ _ => Eq.trans) (fun s x _ e => e ▸ h s x)
@[simp] theorem ite_mx (c : Prop) [Decidable c] (a b : State) : (if c then a else b).mx = if c then a.mx else b.mx :=
  apply_ite State.mx c a b
@[simp] theorem foldl_mx {α : Type} (l : List α) (f : State → α → State) (s : State)
    (h : ∀ s x, (f s x).mx = s.mx) : (l.foldl f s).mx = s.mx :=
  foldl_rel (fun u v => u.mx = v.mx) l f s (fun _ => rfl) (fun _ _ _ => Eq.trans) (fun s x _ e => e ▸ h s x)
@[simp] theorem ite_m (c : Prop) [Decidable c] (a b : State) : (if c then a else b).m = if c then a.m else b.m :=
  apply_ite State.m c a b
@[simp] theorem foldl_m {α : Type} (l : List α) (f : State → α → State) (s : State)
    (h : ∀ s x, (f s x).m = s.m) : (l.foldl f s).m = s.m :=
  foldl_rel (fun u v => u.m = v.m) l f s (fun _ => rfl) (fun _ _ _ => Eq.trans) (fun s x _ e => e ▸ h s x)
@[simp] theorem ite_m_mem (c : Prop) [Decidable c] (a b : MemSt) :
    (if c then a else b).mem = if c then a.mem else b.mem :=
  apply_ite MemSt.mem c a b
@[simp] theorem foldl_m_mem {α : Type} (l : List α) (f : State → α → State) (s : State)
    (h : ∀ s x, (f s x).m.mem = s.m.mem) : (l.foldl f s).m.mem = s.m.mem :=
  foldl_rel (fun u v => u.m.mem = v.m.mem) l f s (fun _ => rfl) (fun _ _ _ => Eq.trans) (fun s x _ e => e ▸ h s x)
@[simp] theorem ite_e (c : Prop) [Decidable c] (a b : State) : (if c then a else b).e = if c then a.e else b.e :=
  apply_ite State.e c a b
@[simp] theorem foldl_e {α : Type} (l : List α) (f : State → α → State) (s : State)
    (h : ∀ s x, (f s x).e = s.e) : (l.foldl f s).e = s.e :=
  foldl_rel (fun u v => u.e = v.e) l f s (fun _ => rfl) (fun _ _ _ => Eq.trans) (fun s x _ e => e ▸ h s x)
@[simp] theorem ite_b (c : Prop) [Decidable c] (a b : State) : (if c then a else b).b = if c then a.b else b.b :=
  apply_ite State.b c a b
@[simp] theorem foldl_b {α : Type} (l : List α) (f : State → α → State) (s : State)
    (h : ∀ s x, (f s x).b = s.b) : (l.foldl f s).b = s.b :=
  foldl_rel (fun u v => u.b = v.b) l f s (fun _ => rfl) (fun _ _ _ => Eq.trans) (fun s x _ e => e ▸ h s x)
@[simp] theorem ite_fab (c : Prop) [Decidable c] (a b : State) :
    (if c then a else b).fab = if c then a.fab else b.fab :=
  apply_ite State.fab c a b
@[simp] theorem foldl_fab {α : Type} (l : List α) (f : State → α → State) (s : State)
    (h : ∀ s x, (f s x).fab = s.fab) : (l.foldl f s).fab = s.fab :=
  foldl_rel (fun u v => u.fab = v.fab) l f s (fun _ => rfl) (fun _ _ _ => Eq.trans) (fun s x _ e => e ▸ h s x)
@[simp] theorem ite_sec (c : Prop) [Decidable c] (a b : State) :
    (if c then a else b).sec = if c then a.sec else b.sec :=
  apply_ite State.sec c a b
@[simp] theorem foldl_sec {α : Type} (l : List α) (f : State → α → State) (s : State)
    (h : ∀ s x, (f s x).sec = s.sec) : (l.foldl f s).sec = s.sec :=
  foldl_rel (fun u v => u.sec = v.sec) l f s (fun _ => rfl) (fun _ _ _ => Eq.trans) (fun s x _ e => e ▸ h s x)
@[simp] theorem ite_j (c : Prop) [Decidable c] (a b : State) : (if c then a else b).j = if c then a.j else b.j :=
  apply_ite State.j c a b
@[simp] theorem foldl_j {α : Type} (l : List α) (f : State → α → State) (s : State)
    (h : ∀ s x, (f s x).j = s.j) : (l.foldl f s).j = s.j :=
  foldl_rel (fun u v => u.j = v.j) l f s (fun _ => rfl) (fun _ _ _ => Eq.trans) (fun s x _ e => e ▸ h s x)
@[simp] theorem ite_h (c : Prop) [Decidable c] (a b : State) : (if c then a else b).h = if c then a.h else b.h :=
  apply_ite State.h c a b
@[simp] theorem foldl_h {α : Type} (l : List α) (f : State → α → State) (s : State)
    (h : ∀ s x, (f s x).h = s.h) : (l.foldl f s).h = s.h :=
  foldl_rel (fun u v => u.h = v.h) l f s (fun _ => rfl) (fun _ _ _ => Eq.trans) (fun s x _ e => e ▸ h s x)
@[simp] theorem ite_pm (c : Prop) [Decidable c] (a b : State) : (if c then a else b).pm = if c then a.pm else b.pm :=
  apply_ite State.pm c a b
@[simp] theorem foldl_pm {α : Type} (l : List α) (f : State → α → State) (s : State)
    (h : ∀ s x, (f s x).pm = s.pm) : (l.foldl f s).pm = s.pm :=
  foldl_rel (fun u v => u.pm = v.pm) l f s (fun _ => rfl) (fun _ _ _ => Eq.trans) (fun s x _ e => e ▸ h s x)

/-- The same from a state that is already related. -/
theorem foldl_from {α : Type} (R : State → State → Prop) (l : List α) (f : State → α → State) (s v : State)
    (h0 : R s v) (ht : ∀ a b c, R a b → R b c → R a c) (h : ∀ s x u, f s x = u → R u s) : R (l.foldl f s) v := by
  induction l generalizing s with
  | nil => exact h0
  | cons a l ih => exact ih _ (ht _ _ _ (h s a _ rfl) h0)

theorem foldl_snd_rel {α β : Type} (R : State → State → Prop) (l : List β) (f : α × State → β → α × State)
    (s : α × State) (hr : ∀ s, R s s) (ht : ∀ a b c, R a b → R b c → R a c) (h : ∀ s x, R (f s x).2 s.2) :
    R (l.foldl f s).2 s.2 := by
  induction l generalizing s with
  | nil => exact hr _
  | cons a l ih => exact ht _ _ _ (ih _) (h s a)

theorem foldl_fst_rel {α β : Type} (R : State → State → Prop) (l : List β) (f : State × α → β → State × α)
    (s : State × α) (hr : ∀ s, R s s) (ht : ∀ a b c, R a b → R b c → R a c) (h : ∀ s x, R (f s x).1 s.1) :
    R (l.foldl f s).1 s.1 := by
  induction l generalizing s with
  | nil => exact hr _
  | cons a l ih => exact ht _ _ _ (ih _) (h s a)

@[simp] theorem foldl_snd_pending {α β : Type} (l : List β) (f : α × State → β → α × State) (s : α × State)
    (h : ∀ s x, (f s x).2.pending = s.2.pending) : (l.foldl f s).2.pending = s.2.pending :=
  foldl_snd_rel (fun u v => u.pending = v.pending) l f s (fun _ => rfl) (fun _ _ _ => Eq.trans) h
@[simp] theorem foldl_fst_pending {α β : Type} (l : List β) (f : State × α → β → State × α) (s : State × α)
    (h : ∀ s x, (f s x).1.pending = s.1.pending) : (l.foldl f s).1.pending = s.1.pending :=
  foldl_fst_rel (fun u v => u.pending = v.pending) l f s (fun _ => rfl) (fun _ _ _ => Eq.trans) h
@[simp] theorem foldl_snd_freeCtr {α β : Type} (l : List β) (f : α × State → β → α × State) (s : α × State)
    (h : ∀ s x, (f s x).2.freeCtr = s.2.freeCtr) : (l.foldl f s).2.freeCtr = s.2.freeCtr :=
  foldl_snd_rel (fun u v => u.freeCtr = v.freeCtr) l f s (fun _ => rfl) (fun _ _ _ => Eq.trans) h
@[simp] theorem foldl_fst_freeCtr {α β : Type} (l : List β) (f : State × α → β → State × α) (s : State × α)
    (h : ∀ s x, (f s x).1.freeCtr = s.1.freeCtr) : (l.foldl f s).1.freeCtr = s.1.freeCtr :=
  foldl_fst_rel (fun u v => u.freeCtr = v.freeCtr) l f s (fun _ => rfl) (fun _ _ _ => Eq.trans) h
@[simp] theorem foldl_snd_timeUs {α β : Type} (l : List β) (f : α × State → β → α × State) (s : α × State)
    (h : ∀ s x, (f s x).2.timeUs = s.2.timeUs) : (l.foldl f s).2.timeUs = s.2.timeUs :=
  foldl_snd_rel (fun u v => u.timeUs = v.timeUs) l f s (fun _ => rfl) (fun _ _ _ => Eq.trans) h
@[simp] theorem foldl_fst_timeUs {α β : Type} (l : List β) (f : State × α → β → State × α) (s : State × α)
    (h : ∀ s x, (f s x).1.timeUs = s.1.timeUs) : (l.foldl f s).1.timeUs = s.1.timeUs :=
  foldl_fst_rel (fun u v => u.timeUs = v.timeUs) l f s (fun _ => rfl) (fun _ _ _ => Eq.trans) h
@[simp] theorem foldl_snd_regs {α β : Type} (l : List β) (f : α × State → β → α × State) (s : α × State)
    (h : ∀ s x, (f s x).2.regs = s.2.regs) : (l.foldl f s).2.regs = s.2.regs :=
  foldl_snd_rel (fun u v => u.regs = v.regs) l f s (fun _ => rfl) (fun _ _ _ => Eq.trans) h
@[simp] theorem foldl_fst_regs {α β : Type} (l : List β) (f : State × α → β → State × α) (s : State × α)
    (h : ∀ s x, (f s x).1.regs = s.1.regs) : (l.foldl f s).1.regs = s.1.regs :=
  foldl_fst_rel (fun u v => u.regs = v.regs) l f s (fun _ => rfl) (fun _ _ _ => Eq.trans) h
@[simp] theorem foldl_snd_core {α β : Type} (l : List β) (f : α × State → β → α × State) (s : α × State)
    (h : ∀ s x, (f s x).2.core = s.2.core) : (l.foldl f s).2.core = s.2.core :=
  foldl_snd_rel (fun u v => u.core = v.core) l f s (fun _ => rfl) (fun _ _ _ => Eq.trans) h
@[simp] theorem foldl_fst_core {α β : Type} (l : List β) (f : State × α → β → State × α) (s : State × α)
    (h : ∀ s x, (f s x).1.core = s.1.core) : (l.foldl f s).1.core = s.1.core :=
  foldl_fst_rel (fun u v => u.core = v.core) l f s (fun _ => rfl) (fun _ _ _ => Eq.trans) h
@[simp] theorem foldl_snd_mx {α β : Type} (l : List β) (f : α × State → β → α × State) (s : α × State)
    (h : ∀ s x, (f s x).2.mx = s.2.mx) : (l.foldl f s).2.mx = s.2.mx :=
  foldl_snd_rel (fun u v => u.mx = v.mx) l f s (fun _ => rfl) (fun _ _ _ => Eq.trans) h
@[simp] theorem foldl_fst_mx {α β : Type} (l : List β) (f : State × α → β → State × α) (s : State × α)
    (h : ∀ s x, (f s x).1.mx = s.1.mx) : (l.foldl f s).1.mx = s.1.mx :=
  foldl_fst_rel (fun u v => u.mx = v.mx) l f s (fun _ => rfl) (fun _ _ _ => Eq.trans) h
@[simp] theorem foldl_snd_m {α β : Type} (l : List β) (f : α × State → β → α × State) (s : α × State)
    (h : ∀ s x, (f s x).2.m = s.2.m) : (l.foldl f s).2.m = s.2.m :=
  foldl_snd_rel (fun u v => u.m = v.m) l f s (fun _ => rfl) (fun _ _ _ => Eq.trans) h
@[simp] theorem foldl_fst_m {α β : Type} (l : List β) (f : State × α → β → State × α) (s : State × α)
    (h : ∀ s x, (f s x).1.m = s.1.m) : (l.foldl f s).1.m = s.1.m :=
  foldl_fst_rel (fun u v => u.m = v.m) l f s (fun _ => rfl) (fun _ _ _ => Eq.trans) h
@[simp] theorem foldl_snd_m_mem {α β : Type} (l : List β) (f : α × State → β → α × State) (s : α × State)
    (h : ∀ s x, (f s x).2.m.mem = s.2.m.mem) : (l.foldl f s).2.m.mem = s.2.m.mem :=
  foldl_snd_rel (fun u v => u.m.mem = v.m.mem) l f s (fun _ => rfl) (fun _ _ _ => Eq.trans) h
@[simp] theorem foldl_fst_m_mem {α β : Type} (l : List β) (f : State × α → β → State × α) (s : State × α)
    (h : ∀ s x, (f s x).1.m.mem = s.1.m.mem) : (l.foldl f s).1.m.mem = s.1.m.mem :=
  foldl_fst_rel (fun u v => u.m.mem = v.m.mem) l f s (fun _ => rfl) (fun _ _ _ => Eq.trans) h
@[simp] theorem foldl_snd_e {α β : Type} (l : List β) (f : α × State → β → α × State) (s : α × State)
    (h : ∀ s x, (f s x).2.e = s.2.e) : (l.foldl f s).2.e = s.2.e :=
  foldl_snd_rel (fun u v => u.e = v.e) l f s (fun _ => rfl) (fun _ _ _ => Eq.trans) h
@[simp] theorem foldl_fst_e {α β : Type} (l : List β) (f : State × α → β → State × α) (s : State × α)
    (h : ∀ s x, (f s x).1.e = s.1.e) : (l.foldl f s).1.e = s.1.e :=
  foldl_fst_rel (fun u v => u.e = v.e) l f s (fun _ => rfl) (fun _ _ _ => Eq.trans) h
@[simp] theorem foldl_snd_b {α β : Type} (l : List β) (f : α × State → β → α × State) (s : α × State)
    (h : ∀ s x, (f s x).2.b = s.2.b) : (l.foldl f s).2.b = s.2.b :=
  foldl_snd_rel (fun u v => u.b = v.b) l f s (fun _ => rfl) (fun _ _ _ => Eq.trans) h
@[simp] theorem foldl_fst_b {α β : Type} (l : List β) (f : State × α → β → State × α) (s : State × α)
    (h : ∀ s x, (f s x).1.b = s.1.b) : (l.foldl f s).1.b = s.1.b :=
  foldl_fst_rel (fun u v => u.b = v.b) l f s (fun _ => rfl) (fun _ _ _ => Eq.trans) h
@[simp] theorem foldl_snd_fab {α β : Type} (l : List β) (f : α × State → β → α × State) (s : α × State)
    (h : ∀ s x, (f s x).2.fab = s.2.fab) : (l.foldl f s).2.fab = s.2.fab :=
  foldl_snd_rel (fun u v => u.fab = v.fab) l f s (fun _ => rfl) (fun _ _ _ => Eq.trans) h
@[simp] theorem foldl_fst_fab {α β : Type} (l : List β) (f : State × α → β → State × α) (s : State × α)
    (h : ∀ s x, (f s x).1.fab = s.1.fab) : (l.foldl f s).1.fab = s.1.fab :=
  foldl_fst_rel (fun u v => u.fab = v.fab) l f s (fun _ => rfl) (fun _ _ _ => Eq.trans) h
@[simp] theorem foldl_snd_sec {α β : Type} (l : List β) (f : α × State → β → α × State) (s : α × State)
    (h : ∀ s x, (f s x).2.sec = s.2.sec) : (l.foldl f s).2.sec = s.2.sec :=
  foldl_snd_rel (fun u v => u.sec = v.sec) l f s (fun _ => rfl) (fun _ _ _ => Eq.trans) h
@[simp] theorem foldl_fst_sec {α β : Type} (l : List β) (f : State × α → β → State × α) (s : State × α)
    (h : ∀ s x, (f s x).1.sec = s.1.sec) : (l.foldl f s).1.sec = s.1.sec :=
  foldl_fst_rel (fun u v => u.sec = v.sec) l f s (fun _ => rfl) (fun _ _ _ => Eq.trans) h
@[simp] theorem foldl_snd_j {α β : Type} (l : List β) (f : α × State → β → α × State) (s : α × State)
    (h : ∀ s x, (f s x).2.j = s.2.j) : (l.foldl f s).2.j = s.2.j :=
  foldl_snd_rel (fun u v => u.j = v.j) l f s (fun _ => rfl) (fun _ _ _ => Eq.trans) h
@[simp] theorem foldl_fst_j {α β : Type} (l : List β) (f : State × α → β → State × α) (s : State × α)
    (h : ∀ s x, (f s x).1.j = s.1.j) : (l.foldl f s).1.j = s.1.j :=
  foldl_fst_rel (fun u v => u.j = v.j) l f s (fun _ => rfl) (fun _ _ _ => Eq.trans) h
@[simp] theorem foldl_snd_h {α β : Type} (l : List β) (f : α × State → β → α × State) (s : α × State)
    (h : ∀ s x, (f s x).2.h = s.2.h) : (l.foldl f s).2.h = s.2.h :=
  foldl_snd_rel (fun u v => u.h = v.h) l f s (fun _ => rfl) (fun _ _ _ => Eq.trans) h
@[simp] theorem foldl_fst_h {α β : Type} (l : List β) (f : State × α → β → State × α) (s : State × α)
    (h : ∀ s x, (f s x).1.h = s.1.h) : (l.foldl f s).1.h = s.1.h :=
  foldl_fst_rel (fun u v => u.h = v.h) l f s (fun _ => rfl) (fun _ _ _ => Eq.trans) h
@[simp] theorem foldl_snd_pm {α β : Type} (l : List β) (f : α × State → β → α × State) (s : α × State)
    (h : ∀ s x, (f s x).2.pm = s.2.pm) : (l.foldl f s).2.pm = s.2.pm :=
  foldl_snd_rel (fun u v => u.pm = v.pm) l f s (fun _ => rfl) (fun _ _ _ => Eq.trans) h
@[simp] theorem foldl_fst_pm {α β : Type} (l : List β) (f : State × α → β → State × α) (s : State × α)
    (h : ∀ s x, (f s x).1.pm = s.1.pm) : (l.foldl f s).1.pm = s.1.pm :=
  foldl_fst_rel (fun u v => u.pm = v.pm) l f s (fun _ => rfl) (fun _ _ _ => Eq.trans) h

@[simp] theorem State.setFld_frame (s : State) (f : Fld) (v : ℕ) : (s.setFld f v).pending = s.pending ∧
    (s.setFld f v).freeCtr = s.freeCtr ∧ (s.setFld f v).timeUs = s.timeUs ∧ (s.setFld f v).core = s.core ∧
    (s.setFld f v).mx = s.mx ∧ (s.setFld f v).m = s.m ∧ (s.setFld f v).e = s.e ∧ (s.setFld f v).b = s.b ∧
    (s.setFld f v).fab = s.fab ∧ (s.setFld f v).sec = s.sec ∧ (s.setFld f v).j = s.j ∧ (s.setFld f v).h = s.h ∧
    (s.setFld f v).pm = s.pm := by
  simp -implicitDefEqProofs (maxDischargeDepth := 8) [State.setFld]

@[simp] theorem State.count_frame (s : State) (f : Fld) (n : ℕ) : (s.count f n).pending = s.pending ∧
    (s.count f n).freeCtr = s.freeCtr ∧ (s.count f n).timeUs = s.timeUs ∧ (s.count f n).core = s.core ∧
    (s.count f n).mx = s.mx ∧ (s.count f n).m = s.m ∧ (s.count f n).e = s.e ∧ (s.count f n).b = s.b ∧
    (s.count f n).fab = s.fab ∧ (s.count f n).sec = s.sec ∧ (s.count f n).j = s.j ∧ (s.count f n).h = s.h ∧
    (s.count f n).pm = s.pm := by
  simp -implicitDefEqProofs (maxDischargeDepth := 8) [State.count]

@[simp] theorem State.bump_frame (s : State) (f : Fld) (n : ℕ) : (s.bump f n).pending = s.pending ∧
    (s.bump f n).freeCtr = s.freeCtr ∧ (s.bump f n).timeUs = s.timeUs ∧ (s.bump f n).core = s.core ∧
    (s.bump f n).mx = s.mx ∧ (s.bump f n).m = s.m ∧ (s.bump f n).e = s.e ∧ (s.bump f n).b = s.b ∧
    (s.bump f n).fab = s.fab ∧ (s.bump f n).sec = s.sec ∧ (s.bump f n).j = s.j ∧ (s.bump f n).h = s.h ∧
    (s.bump f n).pm = s.pm := by
  simp -implicitDefEqProofs (maxDischargeDepth := 8) [State.bump]

@[simp] theorem State.free_frame (s : State) (w : ℕ) : (s.free w).2.pending = s.pending ∧
    (s.free w).2.timeUs = s.timeUs ∧ (s.free w).2.regs = s.regs ∧ (s.free w).2.core = s.core ∧
    (s.free w).2.mx = s.mx ∧ (s.free w).2.m = s.m ∧ (s.free w).2.e = s.e ∧ (s.free w).2.b = s.b ∧
    (s.free w).2.fab = s.fab ∧ (s.free w).2.sec = s.sec ∧ (s.free w).2.j = s.j ∧ (s.free w).2.h = s.h ∧
    (s.free w).2.pm = s.pm := by
  simp -implicitDefEqProofs (maxDischargeDepth := 8) [State.free]

@[simp] theorem State.wakeEvent_frame (s : State) (src : ℕ) : (s.wakeEvent src).pending = s.pending ∧
    (s.wakeEvent src).freeCtr = s.freeCtr ∧ (s.wakeEvent src).timeUs = s.timeUs ∧ (s.wakeEvent src).core = s.core ∧
    (s.wakeEvent src).mx = s.mx ∧ (s.wakeEvent src).m = s.m ∧ (s.wakeEvent src).e = s.e ∧
    (s.wakeEvent src).b = s.b ∧ (s.wakeEvent src).fab = s.fab ∧ (s.wakeEvent src).sec = s.sec ∧
    (s.wakeEvent src).j = s.j ∧ (s.wakeEvent src).h = s.h := by
  simp -implicitDefEqProofs (maxDischargeDepth := 8) [State.wakeEvent]

@[simp] theorem State.holdReq_frame (s : State) (i : HeldReq) : (s.holdReq i).pending = s.pending ∧
    (s.holdReq i).freeCtr = s.freeCtr ∧ (s.holdReq i).timeUs = s.timeUs ∧ (s.holdReq i).core = s.core ∧
    (s.holdReq i).mx = s.mx ∧ (s.holdReq i).m = s.m ∧ (s.holdReq i).e = s.e ∧ (s.holdReq i).b = s.b ∧
    (s.holdReq i).fab = s.fab ∧ (s.holdReq i).sec = s.sec ∧ (s.holdReq i).j = s.j ∧ (s.holdReq i).h = s.h := by
  simp -implicitDefEqProofs (maxDischargeDepth := 8) [State.holdReq]

@[simp] theorem State.asked_frame (s : State) : (s.asked).pending = s.pending ∧ (s.asked).freeCtr = s.freeCtr ∧
    (s.asked).timeUs = s.timeUs ∧ (s.asked).regs = s.regs ∧ (s.asked).core = s.core ∧ (s.asked).mx = s.mx ∧
    (s.asked).m = s.m ∧ (s.asked).e = s.e ∧ (s.asked).b = s.b ∧ (s.asked).fab = s.fab ∧ (s.asked).sec = s.sec ∧
    (s.asked).j = s.j ∧ (s.asked).h = s.h := by
  simp -implicitDefEqProofs (maxDischargeDepth := 8) [State.asked]

@[simp] theorem State.wrB_frame (s : State) (key : ℕ) (b : List Byte) : (s.wrB key b).pending = s.pending ∧
    (s.wrB key b).freeCtr = s.freeCtr ∧ (s.wrB key b).timeUs = s.timeUs ∧ (s.wrB key b).regs = s.regs ∧
    (s.wrB key b).core = s.core ∧ (s.wrB key b).mx = s.mx ∧ (s.wrB key b).e = s.e ∧ (s.wrB key b).b = s.b ∧
    (s.wrB key b).fab = s.fab ∧ (s.wrB key b).sec = s.sec ∧ (s.wrB key b).j = s.j ∧ (s.wrB key b).h = s.h ∧
    (s.wrB key b).pm = s.pm := by
  simp -implicitDefEqProofs (maxDischargeDepth := 8) [State.wrB]

@[simp] theorem State.wr_frame (s : State) (key : ℕ) (n : ℕ) (v : ℕ) : (s.wr key n v).pending = s.pending ∧
    (s.wr key n v).freeCtr = s.freeCtr ∧ (s.wr key n v).timeUs = s.timeUs ∧ (s.wr key n v).regs = s.regs ∧
    (s.wr key n v).core = s.core ∧ (s.wr key n v).mx = s.mx ∧ (s.wr key n v).e = s.e ∧ (s.wr key n v).b = s.b ∧
    (s.wr key n v).fab = s.fab ∧ (s.wr key n v).sec = s.sec ∧ (s.wr key n v).j = s.j ∧ (s.wr key n v).h = s.h ∧
    (s.wr key n v).pm = s.pm := by
  simp -implicitDefEqProofs (maxDischargeDepth := 8) [State.wr]

@[simp] theorem State.zeroMem_frame (s : State) (key : ℕ) (n : ℕ) : (s.zeroMem key n).pending = s.pending ∧
    (s.zeroMem key n).freeCtr = s.freeCtr ∧ (s.zeroMem key n).timeUs = s.timeUs ∧ (s.zeroMem key n).regs = s.regs ∧
    (s.zeroMem key n).core = s.core ∧ (s.zeroMem key n).mx = s.mx ∧ (s.zeroMem key n).e = s.e ∧
    (s.zeroMem key n).b = s.b ∧ (s.zeroMem key n).fab = s.fab ∧ (s.zeroMem key n).sec = s.sec ∧
    (s.zeroMem key n).j = s.j ∧ (s.zeroMem key n).h = s.h ∧ (s.zeroMem key n).pm = s.pm := by
  simp -implicitDefEqProofs (maxDischargeDepth := 8) [State.zeroMem]

@[simp] theorem State.wrCells_frame (s : State) (l : List (ℕ × Byte)) : (s.wrCells l).pending = s.pending ∧
    (s.wrCells l).freeCtr = s.freeCtr ∧ (s.wrCells l).timeUs = s.timeUs ∧ (s.wrCells l).regs = s.regs ∧
    (s.wrCells l).core = s.core ∧ (s.wrCells l).mx = s.mx ∧ (s.wrCells l).e = s.e ∧ (s.wrCells l).b = s.b ∧
    (s.wrCells l).fab = s.fab ∧ (s.wrCells l).sec = s.sec ∧ (s.wrCells l).j = s.j ∧ (s.wrCells l).h = s.h ∧
    (s.wrCells l).pm = s.pm := by
  simp -implicitDefEqProofs (maxDischargeDepth := 8) [State.wrCells]

@[simp] theorem State.setS_frame (s : State) (core : ℕ) (t : ℕ) (r : ℕ) (v : Word) :
    (s.setS core t r v).pending = s.pending ∧ (s.setS core t r v).freeCtr = s.freeCtr ∧
    (s.setS core t r v).timeUs = s.timeUs ∧ (s.setS core t r v).regs = s.regs ∧ (s.setS core t r v).mx = s.mx ∧
    (s.setS core t r v).m = s.m ∧ (s.setS core t r v).e = s.e ∧ (s.setS core t r v).b = s.b ∧
    (s.setS core t r v).fab = s.fab ∧ (s.setS core t r v).sec = s.sec ∧ (s.setS core t r v).j = s.j ∧
    (s.setS core t r v).h = s.h ∧ (s.setS core t r v).pm = s.pm := by
  simp -implicitDefEqProofs (maxDischargeDepth := 8) [State.setS]

@[simp] theorem State.setM_frame (s : State) (core : ℕ) (t : ℕ) (r : ℕ) (v : MWord) :
    (s.setM core t r v).pending = s.pending ∧ (s.setM core t r v).freeCtr = s.freeCtr ∧
    (s.setM core t r v).timeUs = s.timeUs ∧ (s.setM core t r v).regs = s.regs ∧ (s.setM core t r v).mx = s.mx ∧
    (s.setM core t r v).m = s.m ∧ (s.setM core t r v).e = s.e ∧ (s.setM core t r v).b = s.b ∧
    (s.setM core t r v).fab = s.fab ∧ (s.setM core t r v).sec = s.sec ∧ (s.setM core t r v).j = s.j ∧
    (s.setM core t r v).h = s.h ∧ (s.setM core t r v).pm = s.pm := by
  simp -implicitDefEqProofs (maxDischargeDepth := 8) [State.setM]

@[simp] theorem State.setPc_frame (s : State) (core : ℕ) (t : ℕ) (pc : ℕ) :
    (s.setPc core t pc).pending = s.pending ∧ (s.setPc core t pc).freeCtr = s.freeCtr ∧
    (s.setPc core t pc).timeUs = s.timeUs ∧ (s.setPc core t pc).regs = s.regs ∧ (s.setPc core t pc).mx = s.mx ∧
    (s.setPc core t pc).m = s.m ∧ (s.setPc core t pc).e = s.e ∧ (s.setPc core t pc).b = s.b ∧
    (s.setPc core t pc).fab = s.fab ∧ (s.setPc core t pc).sec = s.sec ∧ (s.setPc core t pc).j = s.j ∧
    (s.setPc core t pc).h = s.h ∧ (s.setPc core t pc).pm = s.pm := by
  simp -implicitDefEqProofs (maxDischargeDepth := 8) [State.setPc]

@[simp] theorem State.setFlags_frame (s : State) (core : ℕ) (t : ℕ) (f : Flags) :
    (s.setFlags core t f).pending = s.pending ∧ (s.setFlags core t f).freeCtr = s.freeCtr ∧
    (s.setFlags core t f).timeUs = s.timeUs ∧ (s.setFlags core t f).regs = s.regs ∧
    (s.setFlags core t f).mx = s.mx ∧ (s.setFlags core t f).m = s.m ∧ (s.setFlags core t f).e = s.e ∧
    (s.setFlags core t f).b = s.b ∧ (s.setFlags core t f).fab = s.fab ∧ (s.setFlags core t f).sec = s.sec ∧
    (s.setFlags core t f).j = s.j ∧ (s.setFlags core t f).h = s.h ∧ (s.setFlags core t f).pm = s.pm := by
  simp -implicitDefEqProofs (maxDischargeDepth := 8) [State.setFlags]

@[simp] theorem State.orFlags_frame (s : State) (core : ℕ) (t : ℕ) (f : Flags) :
    (s.orFlags core t f).pending = s.pending ∧ (s.orFlags core t f).freeCtr = s.freeCtr ∧
    (s.orFlags core t f).timeUs = s.timeUs ∧ (s.orFlags core t f).regs = s.regs ∧ (s.orFlags core t f).mx = s.mx ∧
    (s.orFlags core t f).m = s.m ∧ (s.orFlags core t f).e = s.e ∧ (s.orFlags core t f).b = s.b ∧
    (s.orFlags core t f).fab = s.fab ∧ (s.orFlags core t f).sec = s.sec ∧ (s.orFlags core t f).j = s.j ∧
    (s.orFlags core t f).h = s.h ∧ (s.orFlags core t f).pm = s.pm := by
  simp -implicitDefEqProofs (maxDischargeDepth := 8) [State.orFlags]

@[simp] theorem State.setStat_frame (s : State) (core : ℕ) (t : ℕ) (v : TStat) :
    (s.setStat core t v).pending = s.pending ∧ (s.setStat core t v).freeCtr = s.freeCtr ∧
    (s.setStat core t v).timeUs = s.timeUs ∧ (s.setStat core t v).regs = s.regs ∧ (s.setStat core t v).mx = s.mx ∧
    (s.setStat core t v).m = s.m ∧ (s.setStat core t v).e = s.e ∧ (s.setStat core t v).b = s.b ∧
    (s.setStat core t v).fab = s.fab ∧ (s.setStat core t v).sec = s.sec ∧ (s.setStat core t v).j = s.j ∧
    (s.setStat core t v).h = s.h ∧ (s.setStat core t v).pm = s.pm := by
  simp -implicitDefEqProofs (maxDischargeDepth := 8) [State.setStat]

@[simp] theorem State.setHandle_frame (s : State) (core : ℕ) (r : ℕ) (v : Word) :
    (s.setHandle core r v).pending = s.pending ∧ (s.setHandle core r v).freeCtr = s.freeCtr ∧
    (s.setHandle core r v).timeUs = s.timeUs ∧ (s.setHandle core r v).regs = s.regs ∧
    (s.setHandle core r v).mx = s.mx ∧ (s.setHandle core r v).m = s.m ∧ (s.setHandle core r v).e = s.e ∧
    (s.setHandle core r v).b = s.b ∧ (s.setHandle core r v).fab = s.fab ∧ (s.setHandle core r v).sec = s.sec ∧
    (s.setHandle core r v).j = s.j ∧ (s.setHandle core r v).h = s.h ∧ (s.setHandle core r v).pm = s.pm := by
  simp -implicitDefEqProofs (maxDischargeDepth := 8) [State.setHandle]

@[simp] theorem State.setStream_frame (s : State) (core : ℕ) (q : ℕ) (v : Stream) :
    (s.setStream core q v).pending = s.pending ∧ (s.setStream core q v).freeCtr = s.freeCtr ∧
    (s.setStream core q v).timeUs = s.timeUs ∧ (s.setStream core q v).regs = s.regs ∧
    (s.setStream core q v).mx = s.mx ∧ (s.setStream core q v).m = s.m ∧ (s.setStream core q v).e = s.e ∧
    (s.setStream core q v).b = s.b ∧ (s.setStream core q v).fab = s.fab ∧ (s.setStream core q v).sec = s.sec ∧
    (s.setStream core q v).j = s.j ∧ (s.setStream core q v).h = s.h ∧ (s.setStream core q v).pm = s.pm := by
  simp -implicitDefEqProofs (maxDischargeDepth := 8) [State.setStream]

@[simp] theorem State.setTaskState_frame (s : State) (core : ℕ) (v : ℕ) :
    (s.setTaskState core v).pending = s.pending ∧ (s.setTaskState core v).freeCtr = s.freeCtr ∧
    (s.setTaskState core v).timeUs = s.timeUs ∧ (s.setTaskState core v).core = s.core ∧
    (s.setTaskState core v).mx = s.mx ∧ (s.setTaskState core v).m = s.m ∧ (s.setTaskState core v).e = s.e ∧
    (s.setTaskState core v).b = s.b ∧ (s.setTaskState core v).fab = s.fab ∧ (s.setTaskState core v).sec = s.sec ∧
    (s.setTaskState core v).j = s.j ∧ (s.setTaskState core v).h = s.h ∧ (s.setTaskState core v).pm = s.pm := by
  simp -implicitDefEqProofs (maxDischargeDepth := 8) [State.setTaskState]

@[simp] theorem State.setV_frame (s : State) (core : ℕ) (t : ℕ) (r : ℕ) (v : VWord) :
    (s.setV core t r v).pending = s.pending ∧ (s.setV core t r v).freeCtr = s.freeCtr ∧
    (s.setV core t r v).timeUs = s.timeUs ∧ (s.setV core t r v).regs = s.regs ∧ (s.setV core t r v).mx = s.mx ∧
    (s.setV core t r v).m = s.m ∧ (s.setV core t r v).e = s.e ∧ (s.setV core t r v).b = s.b ∧
    (s.setV core t r v).fab = s.fab ∧ (s.setV core t r v).sec = s.sec ∧ (s.setV core t r v).j = s.j ∧
    (s.setV core t r v).h = s.h ∧ (s.setV core t r v).pm = s.pm := by
  simp -implicitDefEqProofs (maxDischargeDepth := 8) [State.setV]

@[simp] theorem State.clearCoreRegs_frame (s : State) (core : ℕ) : (s.clearCoreRegs core).pending = s.pending ∧
    (s.clearCoreRegs core).freeCtr = s.freeCtr ∧ (s.clearCoreRegs core).timeUs = s.timeUs ∧
    (s.clearCoreRegs core).regs = s.regs ∧ (s.clearCoreRegs core).m = s.m ∧ (s.clearCoreRegs core).e = s.e ∧
    (s.clearCoreRegs core).b = s.b ∧ (s.clearCoreRegs core).fab = s.fab ∧ (s.clearCoreRegs core).sec = s.sec ∧
    (s.clearCoreRegs core).j = s.j ∧ (s.clearCoreRegs core).h = s.h ∧ (s.clearCoreRegs core).pm = s.pm := by
  simp -implicitDefEqProofs (maxDischargeDepth := 8) [State.clearCoreRegs]

@[simp] theorem State.pulseAux_frame (s : State) (cls : ℕ) : (s.pulseAux cls).pending = s.pending ∧
    (s.pulseAux cls).freeCtr = s.freeCtr ∧ (s.pulseAux cls).timeUs = s.timeUs ∧ (s.pulseAux cls).regs = s.regs ∧
    (s.pulseAux cls).core = s.core ∧ (s.pulseAux cls).mx = s.mx ∧ (s.pulseAux cls).m = s.m ∧
    (s.pulseAux cls).e = s.e ∧ (s.pulseAux cls).b = s.b ∧ (s.pulseAux cls).fab = s.fab ∧
    (s.pulseAux cls).sec = s.sec ∧ (s.pulseAux cls).j = s.j ∧ (s.pulseAux cls).h = s.h := by
  simp -implicitDefEqProofs (maxDischargeDepth := 8) [State.pulseAux]

@[simp] theorem State.report_frame (s : State) (r : Report) : (s.report r).pending = s.pending ∧
    (s.report r).freeCtr = s.freeCtr ∧ (s.report r).timeUs = s.timeUs ∧ (s.report r).core = s.core ∧
    (s.report r).mx = s.mx ∧ (s.report r).m = s.m ∧ (s.report r).b = s.b ∧ (s.report r).fab = s.fab ∧
    (s.report r).sec = s.sec ∧ (s.report r).j = s.j ∧ (s.report r).h = s.h := by
  simp -implicitDefEqProofs (maxDischargeDepth := 8) [State.report]

@[simp] theorem State.file_frame (s : State) (detail : ℕ) (cls : ℕ) (kind : ℕ) (index : ℕ) (arg : ℕ) (part :
    optParam (Option ℕ) none) : (s.file detail cls kind index arg part).pending = s.pending ∧
    (s.file detail cls kind index arg part).freeCtr = s.freeCtr ∧
    (s.file detail cls kind index arg part).timeUs = s.timeUs ∧
    (s.file detail cls kind index arg part).core = s.core ∧ (s.file detail cls kind index arg part).mx = s.mx ∧
    (s.file detail cls kind index arg part).m = s.m ∧ (s.file detail cls kind index arg part).b = s.b ∧
    (s.file detail cls kind index arg part).fab = s.fab ∧ (s.file detail cls kind index arg part).sec = s.sec ∧
    (s.file detail cls kind index arg part).j = s.j ∧ (s.file detail cls kind index arg part).h = s.h := by
  simp -implicitDefEqProofs (maxDischargeDepth := 8) [State.file]

@[simp] theorem State.discardTok_frame (s : State) (tok : Word) : (s.discardTok tok).pending = s.pending ∧
    (s.discardTok tok).freeCtr = s.freeCtr ∧ (s.discardTok tok).timeUs = s.timeUs ∧
    (s.discardTok tok).core = s.core ∧ (s.discardTok tok).mx = s.mx ∧ (s.discardTok tok).m = s.m ∧
    (s.discardTok tok).b = s.b ∧ (s.discardTok tok).fab = s.fab ∧ (s.discardTok tok).sec = s.sec ∧
    (s.discardTok tok).j = s.j ∧ (s.discardTok tok).h = s.h := by
  simp -implicitDefEqProofs (maxDischargeDepth := 8) [State.discardTok]

@[simp] theorem State.sendTok_frame (s : State) (tok : Word) : (s.sendTok tok).pending = s.pending ∧
    (s.sendTok tok).freeCtr = s.freeCtr ∧ (s.sendTok tok).timeUs = s.timeUs ∧ (s.sendTok tok).core = s.core ∧
    (s.sendTok tok).mx = s.mx ∧ (s.sendTok tok).m = s.m ∧ (s.sendTok tok).b = s.b ∧ (s.sendTok tok).fab = s.fab ∧
    (s.sendTok tok).sec = s.sec ∧ (s.sendTok tok).j = s.j ∧ (s.sendTok tok).h = s.h := by
  simp -implicitDefEqProofs (maxDischargeDepth := 8) [State.sendTok]

@[simp] theorem State.takeTok_frame (s : State) (tok : Word) : (s.takeTok tok).pending = s.pending ∧
    (s.takeTok tok).freeCtr = s.freeCtr ∧ (s.takeTok tok).timeUs = s.timeUs ∧ (s.takeTok tok).regs = s.regs ∧
    (s.takeTok tok).core = s.core ∧ (s.takeTok tok).mx = s.mx ∧ (s.takeTok tok).m = s.m ∧ (s.takeTok tok).b = s.b ∧
    (s.takeTok tok).fab = s.fab ∧ (s.takeTok tok).sec = s.sec ∧ (s.takeTok tok).j = s.j ∧ (s.takeTok tok).h = s.h ∧
    (s.takeTok tok).pm = s.pm := by
  simp -implicitDefEqProofs (maxDischargeDepth := 8) [State.takeTok]

@[simp] theorem State.setSymbols_frame (s : State) (burst : ℕ) (v : ℕ) :
    (s.setSymbols burst v).pending = s.pending ∧ (s.setSymbols burst v).freeCtr = s.freeCtr ∧
    (s.setSymbols burst v).timeUs = s.timeUs ∧ (s.setSymbols burst v).regs = s.regs ∧
    (s.setSymbols burst v).core = s.core ∧ (s.setSymbols burst v).mx = s.mx ∧
    (s.setSymbols burst v).m.mem = s.m.mem ∧ (s.setSymbols burst v).e = s.e ∧ (s.setSymbols burst v).b = s.b ∧
    (s.setSymbols burst v).fab = s.fab ∧ (s.setSymbols burst v).sec = s.sec ∧ (s.setSymbols burst v).j = s.j ∧
    (s.setSymbols burst v).h = s.h ∧ (s.setSymbols burst v).pm = s.pm := by
  simp -implicitDefEqProofs (maxDischargeDepth := 8) [State.setSymbols]

@[simp] theorem State.touchStaged_frame (s : State) (b : ℕ) : (s.touchStaged b).pending = s.pending ∧
    (s.touchStaged b).freeCtr = s.freeCtr ∧ (s.touchStaged b).timeUs = s.timeUs ∧ (s.touchStaged b).regs = s.regs ∧
    (s.touchStaged b).core = s.core ∧ (s.touchStaged b).mx = s.mx ∧ (s.touchStaged b).m.mem = s.m.mem ∧
    (s.touchStaged b).e = s.e ∧ (s.touchStaged b).b = s.b ∧ (s.touchStaged b).fab = s.fab ∧
    (s.touchStaged b).sec = s.sec ∧ (s.touchStaged b).j = s.j ∧ (s.touchStaged b).h = s.h ∧
    (s.touchStaged b).pm = s.pm := by
  simp -implicitDefEqProofs (maxDischargeDepth := 8) [State.touchStaged]

@[simp] theorem State.noteCe_frame (s : State) (burst : ℕ) : (s.noteCe burst).pending = s.pending ∧
    (s.noteCe burst).freeCtr = s.freeCtr ∧ (s.noteCe burst).timeUs = s.timeUs ∧ (s.noteCe burst).core = s.core ∧
    (s.noteCe burst).mx = s.mx ∧ (s.noteCe burst).m = s.m ∧ (s.noteCe burst).b = s.b ∧
    (s.noteCe burst).fab = s.fab ∧ (s.noteCe burst).sec = s.sec ∧ (s.noteCe burst).j = s.j ∧
    (s.noteCe burst).h = s.h := by
  simp -implicitDefEqProofs (maxDischargeDepth := 8) [State.noteCe]

@[simp] theorem State.arrive_frame (s : State) (inst : ℕ) (rq : ℕ) : (s.arrive inst rq).pending = s.pending ∧
    (s.arrive inst rq).freeCtr = s.freeCtr ∧ (s.arrive inst rq).timeUs = s.timeUs ∧
    (s.arrive inst rq).regs = s.regs ∧ (s.arrive inst rq).core = s.core ∧ (s.arrive inst rq).mx = s.mx ∧
    (s.arrive inst rq).m.mem = s.m.mem ∧ (s.arrive inst rq).e = s.e ∧ (s.arrive inst rq).b = s.b ∧
    (s.arrive inst rq).fab = s.fab ∧ (s.arrive inst rq).sec = s.sec ∧ (s.arrive inst rq).j = s.j ∧
    (s.arrive inst rq).h = s.h ∧ (s.arrive inst rq).pm = s.pm := by
  simp -implicitDefEqProofs (maxDischargeDepth := 8) [State.arrive]

@[simp] theorem State.askCells_frame (s : State) (who : ℕ) (unit : ℕ) (use : RFor) (write : Bool) (cells : List (ℕ
    × Byte)) : (s.askCells who unit use write cells).pending = s.pending ∧
    (s.askCells who unit use write cells).freeCtr = s.freeCtr ∧
    (s.askCells who unit use write cells).timeUs = s.timeUs ∧ (s.askCells who unit use write cells).regs = s.regs ∧
    (s.askCells who unit use write cells).core = s.core ∧ (s.askCells who unit use write cells).mx = s.mx ∧
    (s.askCells who unit use write cells).m.mem = s.m.mem ∧ (s.askCells who unit use write cells).e = s.e ∧
    (s.askCells who unit use write cells).b = s.b ∧ (s.askCells who unit use write cells).fab = s.fab ∧
    (s.askCells who unit use write cells).sec = s.sec ∧ (s.askCells who unit use write cells).j = s.j ∧
    (s.askCells who unit use write cells).h = s.h ∧ (s.askCells who unit use write cells).pm = s.pm := by
  simp -implicitDefEqProofs (maxDischargeDepth := 8) [State.askCells]

@[simp] theorem State.ask_frame (s : State) (who : ℕ) (unit : ℕ) (use : RFor) (write : Bool) (keys : List ℕ) :
    (s.ask who unit use write keys).pending = s.pending ∧ (s.ask who unit use write keys).freeCtr = s.freeCtr ∧
    (s.ask who unit use write keys).timeUs = s.timeUs ∧ (s.ask who unit use write keys).regs = s.regs ∧
    (s.ask who unit use write keys).core = s.core ∧ (s.ask who unit use write keys).mx = s.mx ∧
    (s.ask who unit use write keys).m.mem = s.m.mem ∧ (s.ask who unit use write keys).e = s.e ∧
    (s.ask who unit use write keys).b = s.b ∧ (s.ask who unit use write keys).fab = s.fab ∧
    (s.ask who unit use write keys).sec = s.sec ∧ (s.ask who unit use write keys).j = s.j ∧
    (s.ask who unit use write keys).h = s.h ∧ (s.ask who unit use write keys).pm = s.pm := by
  simp -implicitDefEqProofs (maxDischargeDepth := 8) [State.ask]

@[simp] theorem State.fetchTables_frame (s : State) (cl : ℕ) (p : ℕ) (va : ℕ) :
    (s.fetchTables cl p va).pending = s.pending ∧ (s.fetchTables cl p va).freeCtr = s.freeCtr ∧
    (s.fetchTables cl p va).timeUs = s.timeUs ∧ (s.fetchTables cl p va).core = s.core ∧
    (s.fetchTables cl p va).mx = s.mx ∧ (s.fetchTables cl p va).m.mem = s.m.mem ∧ (s.fetchTables cl p va).b = s.b ∧
    (s.fetchTables cl p va).fab = s.fab ∧ (s.fetchTables cl p va).sec = s.sec ∧ (s.fetchTables cl p va).j = s.j ∧
    (s.fetchTables cl p va).h = s.h := by
  simp -implicitDefEqProofs (maxDischargeDepth := 8) [State.fetchTables]

@[simp] theorem State.translate_frame (s : State) (cl : ℕ) (va : ℕ) : (s.translate cl va).2.pending = s.pending ∧
    (s.translate cl va).2.freeCtr = s.freeCtr ∧ (s.translate cl va).2.timeUs = s.timeUs ∧
    (s.translate cl va).2.core = s.core ∧ (s.translate cl va).2.mx = s.mx ∧ (s.translate cl va).2.m.mem = s.m.mem ∧
    (s.translate cl va).2.b = s.b ∧ (s.translate cl va).2.fab = s.fab ∧ (s.translate cl va).2.sec = s.sec ∧
    (s.translate cl va).2.j = s.j ∧ (s.translate cl va).2.h = s.h := by
  generalize hu : s.translate cl va = u
  unfold State.translate at hu
  dsimp only at hu
  (repeat' split at hu) <;> (subst hu; simp -implicitDefEqProofs (maxDischargeDepth := 8))

@[simp] theorem State.dropTc_frame (s : State) (p : ℕ → Bool) : (s.dropTc p).pending = s.pending ∧
    (s.dropTc p).freeCtr = s.freeCtr ∧ (s.dropTc p).timeUs = s.timeUs ∧ (s.dropTc p).regs = s.regs ∧
    (s.dropTc p).core = s.core ∧ (s.dropTc p).mx = s.mx ∧ (s.dropTc p).m.mem = s.m.mem ∧ (s.dropTc p).e = s.e ∧
    (s.dropTc p).b = s.b ∧ (s.dropTc p).fab = s.fab ∧ (s.dropTc p).sec = s.sec ∧ (s.dropTc p).j = s.j ∧
    (s.dropTc p).h = s.h ∧ (s.dropTc p).pm = s.pm := by
  simp -implicitDefEqProofs (maxDischargeDepth := 8) [State.dropTc]

@[simp] theorem State.checkVa_frame (s : State) (core : ℕ) (va : ℕ) (len : ℕ) (store : Bool) :
    (s.checkVa core va len store).2.pending = s.pending ∧ (s.checkVa core va len store).2.freeCtr = s.freeCtr ∧
    (s.checkVa core va len store).2.timeUs = s.timeUs ∧ (s.checkVa core va len store).2.core = s.core ∧
    (s.checkVa core va len store).2.mx = s.mx ∧ (s.checkVa core va len store).2.m.mem = s.m.mem ∧
    (s.checkVa core va len store).2.b = s.b ∧ (s.checkVa core va len store).2.fab = s.fab ∧
    (s.checkVa core va len store).2.sec = s.sec ∧ (s.checkVa core va len store).2.j = s.j ∧
    (s.checkVa core va len store).2.h = s.h := by
  have h := State.translate_frame s (clusterOf core) va
  unfold State.checkVa
  generalize 2 ^ 48 = z
  split
  · simp
  · split
    · simp
    · rcases ht : s.translate (clusterOf core) va with ⟨_ | ⟨k, w⟩, u⟩ <;> rw [ht] at h <;> dsimp only at h ⊢
      · exact h
      · split <;> exact h

@[simp] theorem State.checkAccess_frame (s : State) (core : ℕ) (space : ℕ) (addr : ℕ) (len : ℕ) (store : Bool) :
    (s.checkAccess core space addr len store).2.pending = s.pending ∧
    (s.checkAccess core space addr len store).2.freeCtr = s.freeCtr ∧
    (s.checkAccess core space addr len store).2.timeUs = s.timeUs ∧
    (s.checkAccess core space addr len store).2.core = s.core ∧
    (s.checkAccess core space addr len store).2.mx = s.mx ∧
    (s.checkAccess core space addr len store).2.m.mem = s.m.mem ∧
    (s.checkAccess core space addr len store).2.b = s.b ∧ (s.checkAccess core space addr len store).2.fab = s.fab ∧
    (s.checkAccess core space addr len store).2.sec = s.sec ∧ (s.checkAccess core space addr len store).2.j = s.j ∧
    (s.checkAccess core space addr len store).2.h = s.h := by
  generalize hu : s.checkAccess core space addr len store = u
  unfold State.checkAccess at hu
  (repeat' split at hu) <;> (subst hu; simp -implicitDefEqProofs (maxDischargeDepth := 8))

@[simp] theorem State.freeTile_frame (s : State) (t : Tile) : (s.freeTile t).pending = s.pending ∧
    (s.freeTile t).freeCtr = s.freeCtr ∧ (s.freeTile t).timeUs = s.timeUs ∧ (s.freeTile t).regs = s.regs ∧
    (s.freeTile t).core = s.core ∧ (s.freeTile t).m = s.m ∧ (s.freeTile t).e = s.e ∧ (s.freeTile t).b = s.b ∧
    (s.freeTile t).fab = s.fab ∧ (s.freeTile t).sec = s.sec ∧ (s.freeTile t).j = s.j ∧ (s.freeTile t).h = s.h ∧
    (s.freeTile t).pm = s.pm := by
  simp -implicitDefEqProofs (maxDischargeDepth := 8) [State.freeTile]

@[simp] theorem State.addCredits_frame (s : State) (mc : ℕ) (d : ℤ) : (s.addCredits mc d).pending = s.pending ∧
    (s.addCredits mc d).freeCtr = s.freeCtr ∧ (s.addCredits mc d).timeUs = s.timeUs ∧
    (s.addCredits mc d).regs = s.regs ∧ (s.addCredits mc d).core = s.core ∧ (s.addCredits mc d).m = s.m ∧
    (s.addCredits mc d).e = s.e ∧ (s.addCredits mc d).b = s.b ∧ (s.addCredits mc d).fab = s.fab ∧
    (s.addCredits mc d).sec = s.sec ∧ (s.addCredits mc d).j = s.j ∧ (s.addCredits mc d).h = s.h ∧
    (s.addCredits mc d).pm = s.pm := by
  simp -implicitDefEqProofs (maxDischargeDepth := 8) [State.addCredits]

@[simp] theorem State.staleHandle_frame (s : State) (core : ℕ) (h : ℕ) :
    (s.staleHandle core h).pending = s.pending ∧ (s.staleHandle core h).freeCtr = s.freeCtr ∧
    (s.staleHandle core h).timeUs = s.timeUs ∧ (s.staleHandle core h).regs = s.regs ∧
    (s.staleHandle core h).core = s.core ∧ (s.staleHandle core h).m = s.m ∧ (s.staleHandle core h).e = s.e ∧
    (s.staleHandle core h).b = s.b ∧ (s.staleHandle core h).fab = s.fab ∧ (s.staleHandle core h).sec = s.sec ∧
    (s.staleHandle core h).j = s.j ∧ (s.staleHandle core h).h = s.h ∧ (s.staleHandle core h).pm = s.pm := by
  simp -implicitDefEqProofs (maxDischargeDepth := 8) [State.staleHandle]

@[simp] theorem State.releaseTile_frame (s : State) (t : Tile) : (s.releaseTile t).pending = s.pending ∧
    (s.releaseTile t).freeCtr = s.freeCtr ∧ (s.releaseTile t).timeUs = s.timeUs ∧ (s.releaseTile t).regs = s.regs ∧
    (s.releaseTile t).core = s.core ∧ (s.releaseTile t).m = s.m ∧ (s.releaseTile t).e = s.e ∧
    (s.releaseTile t).b = s.b ∧ (s.releaseTile t).fab = s.fab ∧ (s.releaseTile t).sec = s.sec ∧
    (s.releaseTile t).j = s.j ∧ (s.releaseTile t).h = s.h ∧ (s.releaseTile t).pm = s.pm := by
  simp -implicitDefEqProofs (maxDischargeDepth := 8) [State.releaseTile]

@[simp] theorem State.releaseAll_frame (s : State) (core : ℕ) : (s.releaseAll core).pending = s.pending ∧
    (s.releaseAll core).freeCtr = s.freeCtr ∧ (s.releaseAll core).timeUs = s.timeUs ∧
    (s.releaseAll core).regs = s.regs ∧ (s.releaseAll core).core = s.core ∧ (s.releaseAll core).m = s.m ∧
    (s.releaseAll core).e = s.e ∧ (s.releaseAll core).b = s.b ∧ (s.releaseAll core).fab = s.fab ∧
    (s.releaseAll core).sec = s.sec ∧ (s.releaseAll core).j = s.j ∧ (s.releaseAll core).h = s.h ∧
    (s.releaseAll core).pm = s.pm := by
  simp -implicitDefEqProofs (maxDischargeDepth := 8) [State.releaseAll]

@[simp] theorem State.settle_frame (s : State) (mc : ℕ) : (s.settle mc).pending = s.pending ∧
    (s.settle mc).freeCtr = s.freeCtr ∧ (s.settle mc).timeUs = s.timeUs ∧ (s.settle mc).regs = s.regs ∧
    (s.settle mc).core = s.core ∧ (s.settle mc).m = s.m ∧ (s.settle mc).e = s.e ∧ (s.settle mc).b = s.b ∧
    (s.settle mc).fab = s.fab ∧ (s.settle mc).sec = s.sec ∧ (s.settle mc).j = s.j ∧ (s.settle mc).h = s.h ∧
    (s.settle mc).pm = s.pm := by
  simp -implicitDefEqProofs (maxDischargeDepth := 8) [State.settle]

@[simp] theorem State.discardMxms_frame (s : State) (mc : ℕ) (p : Mxm → Bool) :
    (s.discardMxms mc p).pending = s.pending ∧ (s.discardMxms mc p).freeCtr = s.freeCtr ∧
    (s.discardMxms mc p).timeUs = s.timeUs ∧ (s.discardMxms mc p).regs = s.regs ∧
    (s.discardMxms mc p).core = s.core ∧ (s.discardMxms mc p).m = s.m ∧ (s.discardMxms mc p).e = s.e ∧
    (s.discardMxms mc p).b = s.b ∧ (s.discardMxms mc p).fab = s.fab ∧ (s.discardMxms mc p).sec = s.sec ∧
    (s.discardMxms mc p).j = s.j ∧ (s.discardMxms mc p).h = s.h ∧ (s.discardMxms mc p).pm = s.pm := by
  simp -implicitDefEqProofs (maxDischargeDepth := 8) [State.discardMxms]

@[simp] theorem State.engineStop_frame (s : State) (mc : ℕ) : (s.engineStop mc).pending = s.pending ∧
    (s.engineStop mc).freeCtr = s.freeCtr ∧ (s.engineStop mc).timeUs = s.timeUs ∧ (s.engineStop mc).regs = s.regs ∧
    (s.engineStop mc).core = s.core ∧ (s.engineStop mc).m = s.m ∧ (s.engineStop mc).e = s.e ∧
    (s.engineStop mc).b = s.b ∧ (s.engineStop mc).fab = s.fab ∧ (s.engineStop mc).sec = s.sec ∧
    (s.engineStop mc).j = s.j ∧ (s.engineStop mc).h = s.h ∧ (s.engineStop mc).pm = s.pm := by
  simp -implicitDefEqProofs (maxDischargeDepth := 8) [State.engineStop]

@[simp] theorem State.leaveTask_frame (s : State) (core : ℕ) : (s.leaveTask core).pending = s.pending ∧
    (s.leaveTask core).freeCtr = s.freeCtr ∧ (s.leaveTask core).timeUs = s.timeUs ∧
    (s.leaveTask core).regs = s.regs ∧ (s.leaveTask core).m = s.m ∧ (s.leaveTask core).e = s.e ∧
    (s.leaveTask core).b = s.b ∧ (s.leaveTask core).fab = s.fab ∧ (s.leaveTask core).sec = s.sec ∧
    (s.leaveTask core).j = s.j ∧ (s.leaveTask core).h = s.h ∧ (s.leaveTask core).pm = s.pm := by
  simp -implicitDefEqProofs (maxDischargeDepth := 8) [State.leaveTask]

@[simp] theorem State.pushFault_frame (s : State) (core : ℕ) (r : List Byte) :
    (s.pushFault core r).pending = s.pending ∧ (s.pushFault core r).freeCtr = s.freeCtr ∧
    (s.pushFault core r).timeUs = s.timeUs ∧ (s.pushFault core r).mx = s.mx ∧ (s.pushFault core r).m = s.m ∧
    (s.pushFault core r).b = s.b ∧ (s.pushFault core r).fab = s.fab ∧ (s.pushFault core r).sec = s.sec ∧
    (s.pushFault core r).j = s.j ∧ (s.pushFault core r).h = s.h := by
  obtain ⟨v, tok, e, h⟩ : ∃ u : State, ∃ tok, s.pushFault core r = u.sendTok tok ∧ (u.pending = s.pending ∧
      u.freeCtr = s.freeCtr ∧ u.timeUs = s.timeUs ∧ u.mx = s.mx ∧ u.m = s.m ∧ u.b = s.b ∧ u.fab = s.fab ∧
      u.sec = s.sec ∧ u.j = s.j ∧ u.h = s.h) :=
    ⟨_, _, rfl, by simp⟩
  rw [e]
  simp [h]

@[simp] theorem State.taskFault_frame (s : State) (core : ℕ) (thread : ℕ) (pc : ℕ) (f : FInfo) (extra : ℕ) (instr :
    Word) : (s.taskFault core thread pc f extra instr).pending = s.pending ∧
    (s.taskFault core thread pc f extra instr).freeCtr = s.freeCtr ∧
    (s.taskFault core thread pc f extra instr).timeUs = s.timeUs ∧
    (s.taskFault core thread pc f extra instr).m = s.m ∧ (s.taskFault core thread pc f extra instr).b = s.b ∧
    (s.taskFault core thread pc f extra instr).fab = s.fab ∧
    (s.taskFault core thread pc f extra instr).sec = s.sec ∧ (s.taskFault core thread pc f extra instr).j = s.j ∧
    (s.taskFault core thread pc f extra instr).h = s.h := by
  have e : s.taskFault core thread pc f extra instr = ((s.leaveTask core).setTaskState core tkFaulted).pushFault core
      (faultRecord core thread (s.taskId core) pc f extra instr) := rfl
  rw [e]
  simp

@[simp] theorem State.engineFault_frame (s : State) (mc : ℕ) (more : optParam ℕ 0) :
    (s.engineFault mc more).pending = s.pending ∧ (s.engineFault mc more).freeCtr = s.freeCtr ∧
    (s.engineFault mc more).timeUs = s.timeUs ∧ (s.engineFault mc more).m = s.m ∧ (s.engineFault mc more).b = s.b ∧
    (s.engineFault mc more).fab = s.fab ∧ (s.engineFault mc more).sec = s.sec ∧ (s.engineFault mc more).j = s.j ∧
    (s.engineFault mc more).h = s.h := by
  generalize hu : s.engineFault mc more = u
  unfold State.engineFault at hu
  (repeat' split at hu) <;> (subst hu; simp -implicitDefEqProofs (maxDischargeDepth := 8))

@[simp] theorem State.haltCore_frame (s : State) (core : ℕ) : (s.haltCore core).pending = s.pending ∧
    (s.haltCore core).freeCtr = s.freeCtr ∧ (s.haltCore core).timeUs = s.timeUs ∧
    (s.haltCore core).m.mem = s.m.mem ∧ (s.haltCore core).b = s.b ∧ (s.haltCore core).fab = s.fab ∧
    (s.haltCore core).sec = s.sec ∧ (s.haltCore core).j = s.j ∧ (s.haltCore core).h = s.h := by
  simp -implicitDefEqProofs (maxDischargeDepth := 8) [State.haltCore]

@[simp] theorem State.refuseLoad_frame (s : State) (core : ℕ) (off : ℕ) :
    (s.refuseLoad core off).pending = s.pending ∧ (s.refuseLoad core off).freeCtr = s.freeCtr ∧
    (s.refuseLoad core off).timeUs = s.timeUs ∧ (s.refuseLoad core off).core = s.core ∧
    (s.refuseLoad core off).mx = s.mx ∧ (s.refuseLoad core off).m = s.m ∧ (s.refuseLoad core off).b = s.b ∧
    (s.refuseLoad core off).fab = s.fab ∧ (s.refuseLoad core off).sec = s.sec ∧ (s.refuseLoad core off).j = s.j ∧
    (s.refuseLoad core off).h = s.h := by
  simp -implicitDefEqProofs (maxDischargeDepth := 8) [State.refuseLoad]

@[simp] theorem State.fencePart_frame (s : State) (p : ℕ) (cause : ℕ) : (s.fencePart p cause).pending = s.pending ∧
    (s.fencePart p cause).freeCtr = s.freeCtr ∧ (s.fencePart p cause).timeUs = s.timeUs ∧
    (s.fencePart p cause).m.mem = s.m.mem ∧ (s.fencePart p cause).b = s.b ∧ (s.fencePart p cause).fab = s.fab ∧
    (s.fencePart p cause).sec = s.sec ∧ (s.fencePart p cause).j = s.j ∧ (s.fencePart p cause).h = s.h := by
  simp -implicitDefEqProofs (maxDischargeDepth := 8) [State.fencePart]

@[simp] theorem State.stackUE_frame (s : State) (key : ℕ) : (s.stackUE key).pending = s.pending ∧
    (s.stackUE key).freeCtr = s.freeCtr ∧ (s.stackUE key).timeUs = s.timeUs ∧ (s.stackUE key).m.mem = s.m.mem ∧
    (s.stackUE key).b = s.b ∧ (s.stackUE key).fab = s.fab ∧ (s.stackUE key).sec = s.sec ∧ (s.stackUE key).j = s.j ∧
    (s.stackUE key).h = s.h := by
  generalize hu : s.stackUE key = u
  unfold State.stackUE at hu
  dsimp only at hu
  (repeat' split at hu) <;> (subst hu; simp -implicitDefEqProofs (maxDischargeDepth := 8))

@[simp] theorem State.addErrs_frame (s : State) (st : ℕ) (l : List SymErr) : (s.addErrs st l).pending = s.pending ∧
    (s.addErrs st l).freeCtr = s.freeCtr ∧ (s.addErrs st l).timeUs = s.timeUs ∧ (s.addErrs st l).regs = s.regs ∧
    (s.addErrs st l).core = s.core ∧ (s.addErrs st l).mx = s.mx ∧ (s.addErrs st l).m.mem = s.m.mem ∧
    (s.addErrs st l).e = s.e ∧ (s.addErrs st l).b = s.b ∧ (s.addErrs st l).fab = s.fab ∧
    (s.addErrs st l).sec = s.sec ∧ (s.addErrs st l).j = s.j ∧ (s.addErrs st l).h = s.h ∧
    (s.addErrs st l).pm = s.pm := by
  simp -implicitDefEqProofs (maxDischargeDepth := 8) [State.addErrs]

@[simp] theorem State.readCode_frame (s : State) (burst : ℕ) : (s.readCode burst).2.pending = s.pending ∧
    (s.readCode burst).2.freeCtr = s.freeCtr ∧ (s.readCode burst).2.timeUs = s.timeUs ∧
    (s.readCode burst).2.m.mem = s.m.mem ∧ (s.readCode burst).2.b = s.b ∧ (s.readCode burst).2.fab = s.fab ∧
    (s.readCode burst).2.sec = s.sec ∧ (s.readCode burst).2.j = s.j ∧ (s.readCode burst).2.h = s.h := by
  generalize hu : s.readCode burst = u
  unfold State.readCode at hu
  dsimp only at hu
  (repeat' split at hu) <;> (subst hu; simp -implicitDefEqProofs (maxDischargeDepth := 8))

@[simp] theorem State.readBursts_frame (s : State) (a : List ℕ) : (s.readBursts a).2.pending = s.pending ∧
    (s.readBursts a).2.freeCtr = s.freeCtr ∧ (s.readBursts a).2.timeUs = s.timeUs ∧
    (s.readBursts a).2.m.mem = s.m.mem ∧ (s.readBursts a).2.b = s.b ∧ (s.readBursts a).2.fab = s.fab ∧
    (s.readBursts a).2.sec = s.sec ∧ (s.readBursts a).2.j = s.j ∧ (s.readBursts a).2.h = s.h := by
  fun_induction s.readBursts a <;> (try simp only [Prod.ext_iff] at *) <;> (try casesm* _ ∧
      _) <;> subst_vars <;> simp_all -implicitDefEqProofs

@[simp] theorem State.readNow_frame (s : State) (ks : List ℕ) : (s.readNow ks).2.pending = s.pending ∧
    (s.readNow ks).2.freeCtr = s.freeCtr ∧ (s.readNow ks).2.timeUs = s.timeUs ∧ (s.readNow ks).2.m.mem = s.m.mem ∧
    (s.readNow ks).2.b = s.b ∧ (s.readNow ks).2.fab = s.fab ∧ (s.readNow ks).2.sec = s.sec ∧
    (s.readNow ks).2.j = s.j ∧ (s.readNow ks).2.h = s.h := by
  generalize hu : s.readNow ks = u
  unfold State.readNow at hu
  (try generalize (2 : ℕ) ^ 48 = z at hu)
  try dsimp only at hu
  (repeat' split at hu) <;>
    (subst hu
     (try simp only [Prod.ext_iff] at *)
     (try casesm* _ ∧ _)
     subst_vars
     first
     | (simp -implicitDefEqProofs (maxDischargeDepth := 8); done)
     | simp_all -implicitDefEqProofs)

@[simp] theorem State.readKeys_frame (s : State) (who : ℕ) (ks : List ℕ) :
    (s.readKeys who ks).2.pending = s.pending ∧ (s.readKeys who ks).2.freeCtr = s.freeCtr ∧
    (s.readKeys who ks).2.timeUs = s.timeUs ∧ (s.readKeys who ks).2.m.mem = s.m.mem ∧
    (s.readKeys who ks).2.b = s.b ∧ (s.readKeys who ks).2.fab = s.fab ∧ (s.readKeys who ks).2.sec = s.sec ∧
    (s.readKeys who ks).2.j = s.j ∧ (s.readKeys who ks).2.h = s.h := by
  generalize hu : s.readKeys who ks = u
  unfold State.readKeys at hu
  (try generalize (2 : ℕ) ^ 48 = z at hu)
  try dsimp only at hu
  (repeat' split at hu) <;>
    (subst hu
     (try simp only [Prod.ext_iff] at *)
     (try casesm* _ ∧ _)
     subst_vars
     first
     | (simp -implicitDefEqProofs (maxDischargeDepth := 8); done)
     | simp_all -implicitDefEqProofs)

@[simp] theorem State.mergeBursts_frame (s : State) (a : List ℕ) : (s.mergeBursts a).2.pending = s.pending ∧
    (s.mergeBursts a).2.freeCtr = s.freeCtr ∧ (s.mergeBursts a).2.timeUs = s.timeUs ∧
    (s.mergeBursts a).2.m.mem = s.m.mem ∧ (s.mergeBursts a).2.b = s.b ∧ (s.mergeBursts a).2.fab = s.fab ∧
    (s.mergeBursts a).2.sec = s.sec ∧ (s.mergeBursts a).2.j = s.j ∧ (s.mergeBursts a).2.h = s.h := by
  fun_induction s.mergeBursts a <;> (try simp only [Prod.ext_iff] at *) <;> (try casesm* _ ∧
      _) <;> subst_vars <;> simp_all -implicitDefEqProofs

@[simp] theorem State.writeNow_frame (s : State) (cells : List (ℕ × Byte)) :
    (s.writeNow cells).2.pending = s.pending ∧ (s.writeNow cells).2.freeCtr = s.freeCtr ∧
    (s.writeNow cells).2.timeUs = s.timeUs ∧ (s.writeNow cells).2.b = s.b ∧ (s.writeNow cells).2.fab = s.fab ∧
    (s.writeNow cells).2.sec = s.sec ∧ (s.writeNow cells).2.j = s.j ∧ (s.writeNow cells).2.h = s.h := by
  generalize hu : s.writeNow cells = u
  unfold State.writeNow at hu
  (try generalize (2 : ℕ) ^ 48 = z at hu)
  try dsimp only at hu
  (repeat' split at hu) <;>
    (subst hu
     (try simp only [Prod.ext_iff] at *)
     (try casesm* _ ∧ _)
     subst_vars
     first
     | (simp -implicitDefEqProofs (maxDischargeDepth := 8); done)
     | simp_all -implicitDefEqProofs)

@[simp] theorem State.writeKeys'_frame (s : State) (who : ℕ) (cells : List (ℕ × Byte)) :
    (s.writeKeys' who cells).2.pending = s.pending ∧ (s.writeKeys' who cells).2.freeCtr = s.freeCtr ∧
    (s.writeKeys' who cells).2.timeUs = s.timeUs ∧ (s.writeKeys' who cells).2.b = s.b ∧
    (s.writeKeys' who cells).2.fab = s.fab ∧ (s.writeKeys' who cells).2.sec = s.sec ∧
    (s.writeKeys' who cells).2.j = s.j ∧ (s.writeKeys' who cells).2.h = s.h := by
  generalize hu : s.writeKeys' who cells = u
  unfold State.writeKeys' at hu
  (try generalize (2 : ℕ) ^ 48 = z at hu)
  try dsimp only at hu
  (repeat' split at hu) <;>
    (subst hu
     (try simp only [Prod.ext_iff] at *)
     (try casesm* _ ∧ _)
     subst_vars
     first
     | (simp -implicitDefEqProofs (maxDischargeDepth := 8); done)
     | simp_all -implicitDefEqProofs)

@[simp] theorem State.entrySeen_frame (s : State) (who : ℕ) (k : ℕ) : (s.entrySeen who k).pending = s.pending ∧
    (s.entrySeen who k).freeCtr = s.freeCtr ∧ (s.entrySeen who k).timeUs = s.timeUs ∧
    (s.entrySeen who k).m.mem = s.m.mem ∧ (s.entrySeen who k).b = s.b ∧ (s.entrySeen who k).fab = s.fab ∧
    (s.entrySeen who k).sec = s.sec ∧ (s.entrySeen who k).j = s.j ∧ (s.entrySeen who k).h = s.h := by
  simp -implicitDefEqProofs (maxDischargeDepth := 8) [State.entrySeen]

@[simp] theorem State.walkSeen_frame (s : State) (who : ℕ) (p : ℕ) (va : ℕ) (n : ℕ) :
    (s.walkSeen who p va n).pending = s.pending ∧ (s.walkSeen who p va n).freeCtr = s.freeCtr ∧
    (s.walkSeen who p va n).timeUs = s.timeUs ∧ (s.walkSeen who p va n).m.mem = s.m.mem ∧
    (s.walkSeen who p va n).b = s.b ∧ (s.walkSeen who p va n).fab = s.fab ∧ (s.walkSeen who p va n).sec = s.sec ∧
    (s.walkSeen who p va n).j = s.j ∧ (s.walkSeen who p va n).h = s.h := by
  simp -implicitDefEqProofs (maxDischargeDepth := 8) [State.walkSeen]

@[simp] theorem State.hubRead_frame (s : State) (who : ℕ) (p : ℕ) (va : ℕ) (n : ℕ) :
    (s.hubRead who p va n).2.pending = s.pending ∧ (s.hubRead who p va n).2.freeCtr = s.freeCtr ∧
    (s.hubRead who p va n).2.timeUs = s.timeUs ∧ (s.hubRead who p va n).2.m.mem = s.m.mem ∧
    (s.hubRead who p va n).2.b = s.b ∧ (s.hubRead who p va n).2.fab = s.fab ∧
    (s.hubRead who p va n).2.sec = s.sec ∧ (s.hubRead who p va n).2.j = s.j ∧ (s.hubRead who p va n).2.h = s.h := by
  generalize hu : s.hubRead who p va n = u
  unfold State.hubRead at hu
  (repeat' split at hu) <;> (subst hu; simp -implicitDefEqProofs (maxDischargeDepth := 8))

@[simp] theorem State.hubWrite_frame (s : State) (who : ℕ) (p : ℕ) (va : ℕ) (data : List Byte) :
    (s.hubWrite who p va data).2.pending = s.pending ∧ (s.hubWrite who p va data).2.freeCtr = s.freeCtr ∧
    (s.hubWrite who p va data).2.timeUs = s.timeUs ∧ (s.hubWrite who p va data).2.b = s.b ∧
    (s.hubWrite who p va data).2.fab = s.fab ∧ (s.hubWrite who p va data).2.sec = s.sec ∧
    (s.hubWrite who p va data).2.j = s.j ∧ (s.hubWrite who p va data).2.h = s.h := by
  generalize hu : s.hubWrite who p va data = u
  unfold State.hubWrite at hu
  (repeat' split at hu) <;> (subst hu; simp -implicitDefEqProofs (maxDischargeDepth := 8))

@[simp] theorem State.hubSeen_frame (s : State) (who : ℕ) (p : ℕ) (va : ℕ) (n : ℕ) :
    (s.hubSeen who p va n).pending = s.pending ∧ (s.hubSeen who p va n).freeCtr = s.freeCtr ∧
    (s.hubSeen who p va n).timeUs = s.timeUs ∧ (s.hubSeen who p va n).m.mem = s.m.mem ∧
    (s.hubSeen who p va n).b = s.b ∧ (s.hubSeen who p va n).fab = s.fab ∧ (s.hubSeen who p va n).sec = s.sec ∧
    (s.hubSeen who p va n).j = s.j ∧ (s.hubSeen who p va n).h = s.h := by
  simp -implicitDefEqProofs (maxDischargeDepth := 8) [State.hubSeen]

@[simp] theorem State.setBank_frame (s : State) (b : ℕ) (v : Bank) : (s.setBank b v).pending = s.pending ∧
    (s.setBank b v).freeCtr = s.freeCtr ∧ (s.setBank b v).timeUs = s.timeUs ∧ (s.setBank b v).regs = s.regs ∧
    (s.setBank b v).core = s.core ∧ (s.setBank b v).mx = s.mx ∧ (s.setBank b v).m.mem = s.m.mem ∧
    (s.setBank b v).e = s.e ∧ (s.setBank b v).b = s.b ∧ (s.setBank b v).fab = s.fab ∧ (s.setBank b v).sec = s.sec ∧
    (s.setBank b v).j = s.j ∧ (s.setBank b v).h = s.h ∧ (s.setBank b v).pm = s.pm := by
  simp -implicitDefEqProofs (maxDischargeDepth := 8) [State.setBank]

@[simp] theorem State.resume_frame (s : State) (core : ℕ) (t : ℕ) : (s.resume core t).pending = s.pending ∧
    (s.resume core t).freeCtr = s.freeCtr ∧ (s.resume core t).timeUs = s.timeUs ∧ (s.resume core t).regs = s.regs ∧
    (s.resume core t).mx = s.mx ∧ (s.resume core t).m = s.m ∧ (s.resume core t).e = s.e ∧
    (s.resume core t).b = s.b ∧ (s.resume core t).fab = s.fab ∧ (s.resume core t).sec = s.sec ∧
    (s.resume core t).j = s.j ∧ (s.resume core t).h = s.h ∧ (s.resume core t).pm = s.pm := by
  simp -implicitDefEqProofs (maxDischargeDepth := 8) [State.resume]

@[simp] theorem State.sendLastSigs_frame (s : State) (core : ℕ) (t : ℕ) :
    (s.sendLastSigs core t).pending = s.pending ∧ (s.sendLastSigs core t).freeCtr = s.freeCtr ∧
    (s.sendLastSigs core t).timeUs = s.timeUs ∧ (s.sendLastSigs core t).mx = s.mx ∧
    (s.sendLastSigs core t).m = s.m ∧ (s.sendLastSigs core t).b = s.b ∧ (s.sendLastSigs core t).fab = s.fab ∧
    (s.sendLastSigs core t).sec = s.sec ∧ (s.sendLastSigs core t).j = s.j ∧ (s.sendLastSigs core t).h = s.h := by
  simp -implicitDefEqProofs (maxDischargeDepth := 8) [State.sendLastSigs]

@[simp] theorem State.wakeStores_frame (s : State) (core : ℕ) (t : ℕ) : (s.wakeStores core t).pending = s.pending ∧
    (s.wakeStores core t).freeCtr = s.freeCtr ∧ (s.wakeStores core t).timeUs = s.timeUs ∧
    (s.wakeStores core t).mx = s.mx ∧ (s.wakeStores core t).m = s.m ∧ (s.wakeStores core t).b = s.b ∧
    (s.wakeStores core t).fab = s.fab ∧ (s.wakeStores core t).sec = s.sec ∧ (s.wakeStores core t).j = s.j ∧
    (s.wakeStores core t).h = s.h := by
  generalize hu : s.wakeStores core t = u; unfold State.wakeStores at hu
  by_cases h : s.storesOut core t = true
  · rw [if_pos h] at hu; subst hu; simp
  · rw [if_neg h] at hu
    dsimp only at hu
    generalize (s.sendLastSigs core t).stat core t = w at hu
    rcases w with _ | _ | w
    · subst hu; simp
    · subst hu; simp
    · cases w <;> (subst hu; simp)

@[simp] theorem State.tryEnd_frame (s : State) (core : ℕ) : (s.tryEnd core).pending = s.pending ∧
    (s.tryEnd core).freeCtr = s.freeCtr ∧ (s.tryEnd core).timeUs = s.timeUs ∧ (s.tryEnd core).core = s.core ∧
    (s.tryEnd core).m = s.m ∧ (s.tryEnd core).b = s.b ∧ (s.tryEnd core).fab = s.fab ∧ (s.tryEnd core).sec = s.sec ∧
    (s.tryEnd core).j = s.j ∧ (s.tryEnd core).h = s.h := by
  generalize hu : s.tryEnd core = u
  unfold State.tryEnd at hu
  (repeat' split at hu) <;> (subst hu; simp -implicitDefEqProofs (maxDischargeDepth := 8))

@[simp] theorem State.dropXfer_frame (s : State) (id : ℕ) : (s.dropXfer id).pending = s.pending ∧
    (s.dropXfer id).freeCtr = s.freeCtr ∧ (s.dropXfer id).timeUs = s.timeUs ∧ (s.dropXfer id).regs = s.regs ∧
    (s.dropXfer id).core = s.core ∧ (s.dropXfer id).mx = s.mx ∧ (s.dropXfer id).m.mem = s.m.mem ∧
    (s.dropXfer id).e = s.e ∧ (s.dropXfer id).b = s.b ∧ (s.dropXfer id).fab = s.fab ∧ (s.dropXfer id).sec = s.sec ∧
    (s.dropXfer id).j = s.j ∧ (s.dropXfer id).h = s.h ∧ (s.dropXfer id).pm = s.pm := by
  simp -implicitDefEqProofs (maxDischargeDepth := 8) [State.dropXfer]

@[simp] theorem State.supply_frame (s : State) (mc : ℕ) (q : ℕ) (row : ℕ) (data : List Byte) :
    (s.supply mc q row data).2.pending = s.pending ∧ (s.supply mc q row data).2.freeCtr = s.freeCtr ∧
    (s.supply mc q row data).2.timeUs = s.timeUs ∧ (s.supply mc q row data).2.regs = s.regs ∧
    (s.supply mc q row data).2.mx = s.mx ∧ (s.supply mc q row data).2.m = s.m ∧
    (s.supply mc q row data).2.e = s.e ∧ (s.supply mc q row data).2.b = s.b ∧
    (s.supply mc q row data).2.fab = s.fab ∧ (s.supply mc q row data).2.sec = s.sec ∧
    (s.supply mc q row data).2.j = s.j ∧ (s.supply mc q row data).2.h = s.h ∧
    (s.supply mc q row data).2.pm = s.pm := by
  generalize hu : s.supply mc q row data = u
  unfold State.supply at hu
  dsimp only at hu
  (repeat' split at hu) <;> (subst hu; simp -implicitDefEqProofs (maxDischargeDepth := 8))

@[simp] theorem State.feedDone_frame (s : State) (master : ℕ) (coll : Bool) :
    (s.feedDone master coll).pending = s.pending ∧ (s.feedDone master coll).freeCtr = s.freeCtr ∧
    (s.feedDone master coll).timeUs = s.timeUs ∧ (s.feedDone master coll).regs = s.regs ∧
    (s.feedDone master coll).mx = s.mx ∧ (s.feedDone master coll).m.mem = s.m.mem ∧
    (s.feedDone master coll).e = s.e ∧ (s.feedDone master coll).b = s.b ∧ (s.feedDone master coll).fab = s.fab ∧
    (s.feedDone master coll).sec = s.sec ∧ (s.feedDone master coll).j = s.j ∧ (s.feedDone master coll).h = s.h ∧
    (s.feedDone master coll).pm = s.pm := by
  generalize hu : s.feedDone master coll = u
  unfold State.feedDone at hu
  (repeat' split at hu) <;> (subst hu; simp -implicitDefEqProofs (maxDischargeDepth := 8))

@[simp] theorem State.orphanFeeds_frame (s : State) (core : ℕ) (p : ℕ → Bool) :
    (s.orphanFeeds core p).pending = s.pending ∧ (s.orphanFeeds core p).freeCtr = s.freeCtr ∧
    (s.orphanFeeds core p).timeUs = s.timeUs ∧ (s.orphanFeeds core p).regs = s.regs ∧
    (s.orphanFeeds core p).core = s.core ∧ (s.orphanFeeds core p).mx = s.mx ∧
    (s.orphanFeeds core p).m.mem = s.m.mem ∧ (s.orphanFeeds core p).e = s.e ∧ (s.orphanFeeds core p).b = s.b ∧
    (s.orphanFeeds core p).fab = s.fab ∧ (s.orphanFeeds core p).sec = s.sec ∧ (s.orphanFeeds core p).j = s.j ∧
    (s.orphanFeeds core p).h = s.h ∧ (s.orphanFeeds core p).pm = s.pm := by
  simp -implicitDefEqProofs (maxDischargeDepth := 8) [State.orphanFeeds]

@[simp] theorem State.unblock_frame (s : State) (core : ℕ) : (s.unblock core).pending = s.pending ∧
    (s.unblock core).freeCtr = s.freeCtr ∧ (s.unblock core).timeUs = s.timeUs ∧ (s.unblock core).regs = s.regs ∧
    (s.unblock core).mx = s.mx ∧ (s.unblock core).m = s.m ∧ (s.unblock core).e = s.e ∧ (s.unblock core).b = s.b ∧
    (s.unblock core).fab = s.fab ∧ (s.unblock core).sec = s.sec ∧ (s.unblock core).j = s.j ∧
    (s.unblock core).h = s.h ∧ (s.unblock core).pm = s.pm := by
  simp -implicitDefEqProofs (maxDischargeDepth := 8) [State.unblock]

@[simp] theorem State.freeStream_frame (s : State) (core : ℕ) (q : ℕ) : (s.freeStream core q).pending = s.pending ∧
    (s.freeStream core q).freeCtr = s.freeCtr ∧ (s.freeStream core q).timeUs = s.timeUs ∧
    (s.freeStream core q).regs = s.regs ∧ (s.freeStream core q).mx = s.mx ∧ (s.freeStream core q).m.mem = s.m.mem ∧
    (s.freeStream core q).e = s.e ∧ (s.freeStream core q).b = s.b ∧ (s.freeStream core q).fab = s.fab ∧
    (s.freeStream core q).sec = s.sec ∧ (s.freeStream core q).j = s.j ∧ (s.freeStream core q).h = s.h ∧
    (s.freeStream core q).pm = s.pm := by
  simp -implicitDefEqProofs (maxDischargeDepth := 8) [State.freeStream]

@[simp] theorem State.tryClose_frame (s : State) (core : ℕ) (q : ℕ) : (s.tryClose core q).pending = s.pending ∧
    (s.tryClose core q).freeCtr = s.freeCtr ∧ (s.tryClose core q).timeUs = s.timeUs ∧
    (s.tryClose core q).regs = s.regs ∧ (s.tryClose core q).mx = s.mx ∧ (s.tryClose core q).m.mem = s.m.mem ∧
    (s.tryClose core q).e = s.e ∧ (s.tryClose core q).b = s.b ∧ (s.tryClose core q).fab = s.fab ∧
    (s.tryClose core q).sec = s.sec ∧ (s.tryClose core q).j = s.j ∧ (s.tryClose core q).h = s.h ∧
    (s.tryClose core q).pm = s.pm := by
  simp -implicitDefEqProofs (maxDischargeDepth := 8) [State.tryClose]

@[simp] theorem State.pushXfer_frame (s : State) (x : Xfer) (stream : Bool) (write : Bool) (groups : List (ℕ × List
    (ℕ × Byte))) : (s.pushXfer x stream write groups).pending = s.pending ∧
    (s.pushXfer x stream write groups).freeCtr = s.freeCtr ∧ (s.pushXfer x stream write groups).timeUs = s.timeUs ∧
    (s.pushXfer x stream write groups).regs = s.regs ∧ (s.pushXfer x stream write groups).core = s.core ∧
    (s.pushXfer x stream write groups).mx = s.mx ∧ (s.pushXfer x stream write groups).m.mem = s.m.mem ∧
    (s.pushXfer x stream write groups).e = s.e ∧ (s.pushXfer x stream write groups).b = s.b ∧
    (s.pushXfer x stream write groups).fab = s.fab ∧ (s.pushXfer x stream write groups).sec = s.sec ∧
    (s.pushXfer x stream write groups).j = s.j ∧ (s.pushXfer x stream write groups).h = s.h ∧
    (s.pushXfer x stream write groups).pm = s.pm := by
  simp -implicitDefEqProofs (maxDischargeDepth := 8) [State.pushXfer]

@[simp] theorem State.nextReads_frame (s : State) (x : Xfer) (units : List ℕ) (act : XAct) :
    (s.nextReads x units act).pending = s.pending ∧ (s.nextReads x units act).freeCtr = s.freeCtr ∧
    (s.nextReads x units act).timeUs = s.timeUs ∧ (s.nextReads x units act).regs = s.regs ∧
    (s.nextReads x units act).core = s.core ∧ (s.nextReads x units act).mx = s.mx ∧
    (s.nextReads x units act).m.mem = s.m.mem ∧ (s.nextReads x units act).e = s.e ∧
    (s.nextReads x units act).b = s.b ∧ (s.nextReads x units act).fab = s.fab ∧
    (s.nextReads x units act).sec = s.sec ∧ (s.nextReads x units act).j = s.j ∧ (s.nextReads x units act).h = s.h ∧
    (s.nextReads x units act).pm = s.pm := by
  simp -implicitDefEqProofs (maxDischargeDepth := 8) [State.nextReads]

@[simp] theorem State.endXfer_frame (s : State) (x : Xfer) : (s.endXfer x).pending = s.pending ∧
    (s.endXfer x).freeCtr = s.freeCtr ∧ (s.endXfer x).timeUs = s.timeUs ∧ (s.endXfer x).b = s.b ∧
    (s.endXfer x).fab = s.fab ∧ (s.endXfer x).sec = s.sec ∧ (s.endXfer x).j = s.j ∧ (s.endXfer x).h = s.h := by
  generalize hu : s.endXfer x = u
  unfold State.endXfer at hu
  (repeat' split at hu) <;> (subst hu; simp -implicitDefEqProofs (maxDischargeDepth := 8))

@[simp] theorem State.finishXfer_frame (s : State) (x : Xfer) : (s.finishXfer x).pending = s.pending ∧
    (s.finishXfer x).freeCtr = s.freeCtr ∧ (s.finishXfer x).timeUs = s.timeUs ∧ (s.finishXfer x).b = s.b ∧
    (s.finishXfer x).fab = s.fab ∧ (s.finishXfer x).sec = s.sec ∧ (s.finishXfer x).j = s.j ∧
    (s.finishXfer x).h = s.h := by
  generalize hu : s.finishXfer x = u
  unfold State.finishXfer at hu
  (repeat' split at hu) <;> (subst hu; simp -implicitDefEqProofs (maxDischargeDepth := 8))

@[simp] theorem State.landReq_frame (s : State) (r : Req) : (s.landReq r).pending = s.pending ∧
    (s.landReq r).freeCtr = s.freeCtr ∧ (s.landReq r).timeUs = s.timeUs ∧ (s.landReq r).b = s.b ∧
    (s.landReq r).fab = s.fab ∧ (s.landReq r).sec = s.sec ∧ (s.landReq r).j = s.j ∧ (s.landReq r).h = s.h := by
  generalize hu : s.landReq r = u
  unfold State.landReq at hu
  dsimp only at hu
  (repeat' split at hu) <;> (subst hu; simp -implicitDefEqProofs (maxDischargeDepth := 8))

@[simp] theorem State.trackRead_frame (s : State) (b : ℕ) (cyc : ℕ) : (s.trackRead b cyc).pending = s.pending ∧
    (s.trackRead b cyc).freeCtr = s.freeCtr ∧ (s.trackRead b cyc).timeUs = s.timeUs ∧
    (s.trackRead b cyc).regs = s.regs ∧ (s.trackRead b cyc).core = s.core ∧ (s.trackRead b cyc).mx = s.mx ∧
    (s.trackRead b cyc).m.mem = s.m.mem ∧ (s.trackRead b cyc).e = s.e ∧ (s.trackRead b cyc).b = s.b ∧
    (s.trackRead b cyc).fab = s.fab ∧ (s.trackRead b cyc).sec = s.sec ∧ (s.trackRead b cyc).j = s.j ∧
    (s.trackRead b cyc).h = s.h ∧ (s.trackRead b cyc).pm = s.pm := by
  generalize hu : s.trackRead b cyc = u
  unfold State.trackRead at hu
  (repeat' split at hu) <;> (subst hu; simp -implicitDefEqProofs (maxDischargeDepth := 8))

@[simp] theorem State.updReq_frame (s : State) (r : Req) : (s.updReq r).pending = s.pending ∧
    (s.updReq r).freeCtr = s.freeCtr ∧ (s.updReq r).timeUs = s.timeUs ∧ (s.updReq r).regs = s.regs ∧
    (s.updReq r).core = s.core ∧ (s.updReq r).mx = s.mx ∧ (s.updReq r).m.mem = s.m.mem ∧ (s.updReq r).e = s.e ∧
    (s.updReq r).b = s.b ∧ (s.updReq r).fab = s.fab ∧ (s.updReq r).sec = s.sec ∧ (s.updReq r).j = s.j ∧
    (s.updReq r).h = s.h ∧ (s.updReq r).pm = s.pm := by
  simp -implicitDefEqProofs (maxDischargeDepth := 8) [State.updReq]

@[simp] theorem State.queueReq_frame (s : State) (r : Req) : (s.queueReq r).pending = s.pending ∧
    (s.queueReq r).freeCtr = s.freeCtr ∧ (s.queueReq r).timeUs = s.timeUs ∧ (s.queueReq r).regs = s.regs ∧
    (s.queueReq r).core = s.core ∧ (s.queueReq r).mx = s.mx ∧ (s.queueReq r).m.mem = s.m.mem ∧
    (s.queueReq r).e = s.e ∧ (s.queueReq r).b = s.b ∧ (s.queueReq r).fab = s.fab ∧ (s.queueReq r).sec = s.sec ∧
    (s.queueReq r).j = s.j ∧ (s.queueReq r).h = s.h ∧ (s.queueReq r).pm = s.pm := by
  simp -implicitDefEqProofs (maxDischargeDepth := 8) [State.queueReq]

@[simp] theorem State.park_frame (s : State) (r : Req) : (s.park r).pending = s.pending ∧
    (s.park r).freeCtr = s.freeCtr ∧ (s.park r).timeUs = s.timeUs ∧ (s.park r).mx = s.mx ∧
    (s.park r).m.mem = s.m.mem ∧ (s.park r).e = s.e ∧ (s.park r).b = s.b ∧ (s.park r).fab = s.fab ∧
    (s.park r).sec = s.sec ∧ (s.park r).j = s.j ∧ (s.park r).h = s.h ∧ (s.park r).pm = s.pm := by
  generalize hu : s.park r = u
  unfold State.park at hu
  (repeat' split at hu) <;> (subst hu; simp -implicitDefEqProofs (maxDischargeDepth := 8))

@[simp] theorem State.promoteList_frame (s : State) (a : List Req) (a1 : List ℕ) :
    (s.promoteList a a1).pending = s.pending ∧ (s.promoteList a a1).freeCtr = s.freeCtr ∧
    (s.promoteList a a1).timeUs = s.timeUs ∧ (s.promoteList a a1).mx = s.mx ∧
    (s.promoteList a a1).m.mem = s.m.mem ∧ (s.promoteList a a1).e = s.e ∧ (s.promoteList a a1).b = s.b ∧
    (s.promoteList a a1).fab = s.fab ∧ (s.promoteList a a1).sec = s.sec ∧ (s.promoteList a a1).j = s.j ∧
    (s.promoteList a a1).h = s.h ∧ (s.promoteList a a1).pm = s.pm := by
  fun_induction s.promoteList a a1 <;> simp_all -implicitDefEqProofs (maxDischargeDepth := 8)

@[simp] theorem State.promote_frame (s : State) (core : ℕ) : (s.promote core).pending = s.pending ∧
    (s.promote core).freeCtr = s.freeCtr ∧ (s.promote core).timeUs = s.timeUs ∧ (s.promote core).mx = s.mx ∧
    (s.promote core).m.mem = s.m.mem ∧ (s.promote core).e = s.e ∧ (s.promote core).b = s.b ∧
    (s.promote core).fab = s.fab ∧ (s.promote core).sec = s.sec ∧ (s.promote core).j = s.j ∧
    (s.promote core).h = s.h ∧ (s.promote core).pm = s.pm := by
  simp -implicitDefEqProofs (maxDischargeDepth := 8) [State.promote]

@[simp] theorem State.unparkOne_frame (s : State) (core : ℕ) (k : ℕ) : (s.unparkOne core k).pending = s.pending ∧
    (s.unparkOne core k).freeCtr = s.freeCtr ∧ (s.unparkOne core k).timeUs = s.timeUs ∧
    (s.unparkOne core k).regs = s.regs ∧ (s.unparkOne core k).mx = s.mx ∧ (s.unparkOne core k).m = s.m ∧
    (s.unparkOne core k).e = s.e ∧ (s.unparkOne core k).b = s.b ∧ (s.unparkOne core k).fab = s.fab ∧
    (s.unparkOne core k).sec = s.sec ∧ (s.unparkOne core k).j = s.j ∧ (s.unparkOne core k).h = s.h ∧
    (s.unparkOne core k).pm = s.pm := by
  generalize hu : s.unparkOne core k = u
  unfold State.unparkOne at hu
  dsimp only at hu
  (repeat' split at hu) <;> (subst hu; simp -implicitDefEqProofs (maxDischargeDepth := 8))

@[simp] theorem State.unpark_frame (s : State) (core : ℕ) : (s.unpark core).pending = s.pending ∧
    (s.unpark core).freeCtr = s.freeCtr ∧ (s.unpark core).timeUs = s.timeUs ∧ (s.unpark core).regs = s.regs ∧
    (s.unpark core).mx = s.mx ∧ (s.unpark core).m = s.m ∧ (s.unpark core).e = s.e ∧ (s.unpark core).b = s.b ∧
    (s.unpark core).fab = s.fab ∧ (s.unpark core).sec = s.sec ∧ (s.unpark core).j = s.j ∧ (s.unpark core).h = s.h ∧
    (s.unpark core).pm = s.pm := by
  generalize hu : s.unpark core = u
  unfold State.unpark at hu
  (repeat' split at hu) <;> (subst hu; simp -implicitDefEqProofs (maxDischargeDepth := 8))

@[simp] theorem State.startGroups_frame (s : State) (x : Xfer) (stream : Bool) (write : Bool) (groups : List (ℕ ×
    List (ℕ × Byte))) : (s.startGroups x stream write groups).pending = s.pending ∧
    (s.startGroups x stream write groups).freeCtr = s.freeCtr ∧
    (s.startGroups x stream write groups).timeUs = s.timeUs ∧ (s.startGroups x stream write groups).b = s.b ∧
    (s.startGroups x stream write groups).fab = s.fab ∧ (s.startGroups x stream write groups).sec = s.sec ∧
    (s.startGroups x stream write groups).j = s.j ∧ (s.startGroups x stream write groups).h = s.h := by
  simp -implicitDefEqProofs (maxDischargeDepth := 8) [State.startGroups]

@[simp] theorem State.startXfer_frame (s : State) (x : Xfer) (stream : Bool) (write : Bool) (cells : List (ℕ ×
    Byte)) : (s.startXfer x stream write cells).pending = s.pending ∧
    (s.startXfer x stream write cells).freeCtr = s.freeCtr ∧ (s.startXfer x stream write cells).timeUs = s.timeUs ∧
    (s.startXfer x stream write cells).b = s.b ∧ (s.startXfer x stream write cells).fab = s.fab ∧
    (s.startXfer x stream write cells).sec = s.sec ∧ (s.startXfer x stream write cells).j = s.j ∧
    (s.startXfer x stream write cells).h = s.h := by
  simp -implicitDefEqProofs (maxDischargeDepth := 8) [State.startXfer]

@[simp] theorem State.startReads_frame (s : State) (x : Xfer) (units : List ℕ) :
    (s.startReads x units).pending = s.pending ∧ (s.startReads x units).freeCtr = s.freeCtr ∧
    (s.startReads x units).timeUs = s.timeUs ∧ (s.startReads x units).b = s.b ∧
    (s.startReads x units).fab = s.fab ∧ (s.startReads x units).sec = s.sec ∧ (s.startReads x units).j = s.j ∧
    (s.startReads x units).h = s.h := by
  simp -implicitDefEqProofs (maxDischargeDepth := 8) [State.startReads]

@[simp] theorem State.setAge_frame (s : State) (inst : ℕ) (r : ℕ) (v : ℕ) :
    (s.setAge inst r v).pending = s.pending ∧ (s.setAge inst r v).freeCtr = s.freeCtr ∧
    (s.setAge inst r v).timeUs = s.timeUs ∧ (s.setAge inst r v).regs = s.regs ∧ (s.setAge inst r v).core = s.core ∧
    (s.setAge inst r v).mx = s.mx ∧ (s.setAge inst r v).m.mem = s.m.mem ∧ (s.setAge inst r v).e = s.e ∧
    (s.setAge inst r v).b = s.b ∧ (s.setAge inst r v).fab = s.fab ∧ (s.setAge inst r v).sec = s.sec ∧
    (s.setAge inst r v).j = s.j ∧ (s.setAge inst r v).h = s.h ∧ (s.setAge inst r v).pm = s.pm := by
  simp -implicitDefEqProofs (maxDischargeDepth := 8) [State.setAge]

@[simp] theorem State.ageRound_frame (s : State) (inst : ℕ) (elig : List ℕ) (asking : List ℕ) (w : Option ℕ) :
    (s.ageRound inst elig asking w).pending = s.pending ∧ (s.ageRound inst elig asking w).freeCtr = s.freeCtr ∧
    (s.ageRound inst elig asking w).timeUs = s.timeUs ∧ (s.ageRound inst elig asking w).regs = s.regs ∧
    (s.ageRound inst elig asking w).core = s.core ∧ (s.ageRound inst elig asking w).mx = s.mx ∧
    (s.ageRound inst elig asking w).m.mem = s.m.mem ∧ (s.ageRound inst elig asking w).e = s.e ∧
    (s.ageRound inst elig asking w).b = s.b ∧ (s.ageRound inst elig asking w).fab = s.fab ∧
    (s.ageRound inst elig asking w).sec = s.sec ∧ (s.ageRound inst elig asking w).j = s.j ∧
    (s.ageRound inst elig asking w).h = s.h ∧ (s.ageRound inst elig asking w).pm = s.pm := by
  simp -implicitDefEqProofs (maxDischargeDepth := 8) [State.ageRound]

@[simp] theorem State.noteWinner_frame (s : State) (inst : ℕ) (w : ℕ) (kind : ℕ) :
    (s.noteWinner inst w kind).pending = s.pending ∧ (s.noteWinner inst w kind).freeCtr = s.freeCtr ∧
    (s.noteWinner inst w kind).timeUs = s.timeUs ∧ (s.noteWinner inst w kind).regs = s.regs ∧
    (s.noteWinner inst w kind).core = s.core ∧ (s.noteWinner inst w kind).mx = s.mx ∧
    (s.noteWinner inst w kind).m.mem = s.m.mem ∧ (s.noteWinner inst w kind).e = s.e ∧
    (s.noteWinner inst w kind).b = s.b ∧ (s.noteWinner inst w kind).fab = s.fab ∧
    (s.noteWinner inst w kind).sec = s.sec ∧ (s.noteWinner inst w kind).j = s.j ∧
    (s.noteWinner inst w kind).h = s.h ∧ (s.noteWinner inst w kind).pm = s.pm := by
  simp -implicitDefEqProofs (maxDischargeDepth := 8) [State.noteWinner]

@[simp] theorem State.advance_frame (s : State) (inst : ℕ) (n : ℕ) : (s.advance inst n).pending = s.pending ∧
    (s.advance inst n).freeCtr = s.freeCtr ∧ (s.advance inst n).timeUs = s.timeUs ∧
    (s.advance inst n).regs = s.regs ∧ (s.advance inst n).core = s.core ∧ (s.advance inst n).mx = s.mx ∧
    (s.advance inst n).m.mem = s.m.mem ∧ (s.advance inst n).e = s.e ∧ (s.advance inst n).b = s.b ∧
    (s.advance inst n).fab = s.fab ∧ (s.advance inst n).sec = s.sec ∧ (s.advance inst n).j = s.j ∧
    (s.advance inst n).h = s.h ∧ (s.advance inst n).pm = s.pm := by
  simp -implicitDefEqProofs (maxDischargeDepth := 8) [State.advance]

@[simp] theorem State.commitArb_frame (s : State) (inst : ℕ) : (s.commitArb inst).pending = s.pending ∧
    (s.commitArb inst).freeCtr = s.freeCtr ∧ (s.commitArb inst).timeUs = s.timeUs ∧
    (s.commitArb inst).core = s.core ∧ (s.commitArb inst).mx = s.mx ∧ (s.commitArb inst).m.mem = s.m.mem ∧
    (s.commitArb inst).e = s.e ∧ (s.commitArb inst).b = s.b ∧ (s.commitArb inst).fab = s.fab ∧
    (s.commitArb inst).sec = s.sec ∧ (s.commitArb inst).j = s.j ∧ (s.commitArb inst).h = s.h ∧
    (s.commitArb inst).pm = s.pm := by
  simp -implicitDefEqProofs (maxDischargeDepth := 8) [State.commitArb]

@[simp] theorem State.startRound_frame (s : State) (inst : ℕ) : (s.startRound inst).pending = s.pending ∧
    (s.startRound inst).freeCtr = s.freeCtr ∧ (s.startRound inst).timeUs = s.timeUs ∧
    (s.startRound inst).core = s.core ∧ (s.startRound inst).mx = s.mx ∧ (s.startRound inst).m.mem = s.m.mem ∧
    (s.startRound inst).e = s.e ∧ (s.startRound inst).b = s.b ∧ (s.startRound inst).fab = s.fab ∧
    (s.startRound inst).sec = s.sec ∧ (s.startRound inst).j = s.j ∧ (s.startRound inst).h = s.h ∧
    (s.startRound inst).pm = s.pm := by
  simp -implicitDefEqProofs (maxDischargeDepth := 8) [State.startRound]

@[simp] theorem State.passTurn_frame (s : State) (inst : ℕ) (r : Req) : (s.passTurn inst r).pending = s.pending ∧
    (s.passTurn inst r).freeCtr = s.freeCtr ∧ (s.passTurn inst r).timeUs = s.timeUs ∧
    (s.passTurn inst r).regs = s.regs ∧ (s.passTurn inst r).core = s.core ∧ (s.passTurn inst r).mx = s.mx ∧
    (s.passTurn inst r).m.mem = s.m.mem ∧ (s.passTurn inst r).e = s.e ∧ (s.passTurn inst r).b = s.b ∧
    (s.passTurn inst r).fab = s.fab ∧ (s.passTurn inst r).sec = s.sec ∧ (s.passTurn inst r).j = s.j ∧
    (s.passTurn inst r).h = s.h ∧ (s.passTurn inst r).pm = s.pm := by
  simp -implicitDefEqProofs (maxDischargeDepth := 8) [State.passTurn]

@[simp] theorem State.sweepDone_frame (s : State) (p : ℕ) : (s.sweepDone p).pending = s.pending ∧
    (s.sweepDone p).freeCtr = s.freeCtr ∧ (s.sweepDone p).timeUs = s.timeUs ∧ (s.sweepDone p).core = s.core ∧
    (s.sweepDone p).mx = s.mx ∧ (s.sweepDone p).m.mem = s.m.mem ∧ (s.sweepDone p).e = s.e ∧
    (s.sweepDone p).b = s.b ∧ (s.sweepDone p).fab = s.fab ∧ (s.sweepDone p).j = s.j ∧ (s.sweepDone p).h = s.h ∧
    (s.sweepDone p).pm = s.pm := by
  simp -implicitDefEqProofs (maxDischargeDepth := 8) [State.sweepDone]

@[simp] theorem State.sweepPageEnd_frame (s : State) (p : ℕ) (page : ℕ) :
    (s.sweepPageEnd p page).pending = s.pending ∧ (s.sweepPageEnd p page).freeCtr = s.freeCtr ∧
    (s.sweepPageEnd p page).timeUs = s.timeUs ∧ (s.sweepPageEnd p page).regs = s.regs ∧
    (s.sweepPageEnd p page).core = s.core ∧ (s.sweepPageEnd p page).mx = s.mx ∧
    (s.sweepPageEnd p page).m.mem = s.m.mem ∧ (s.sweepPageEnd p page).e = s.e ∧ (s.sweepPageEnd p page).b = s.b ∧
    (s.sweepPageEnd p page).fab = s.fab ∧ (s.sweepPageEnd p page).sec = s.sec ∧ (s.sweepPageEnd p page).j = s.j ∧
    (s.sweepPageEnd p page).h = s.h ∧ (s.sweepPageEnd p page).pm = s.pm := by
  simp -implicitDefEqProofs (maxDischargeDepth := 8) [State.sweepPageEnd]

@[simp] theorem State.sweptBurst_frame (s : State) (p : ℕ) (b : ℕ) : (s.sweptBurst p b).pending = s.pending ∧
    (s.sweptBurst p b).freeCtr = s.freeCtr ∧ (s.sweptBurst p b).timeUs = s.timeUs ∧
    (s.sweptBurst p b).core = s.core ∧ (s.sweptBurst p b).mx = s.mx ∧ (s.sweptBurst p b).m.mem = s.m.mem ∧
    (s.sweptBurst p b).e = s.e ∧ (s.sweptBurst p b).b = s.b ∧ (s.sweptBurst p b).fab = s.fab ∧
    (s.sweptBurst p b).j = s.j ∧ (s.sweptBurst p b).h = s.h ∧ (s.sweptBurst p b).pm = s.pm := by
  simp -implicitDefEqProofs (maxDischargeDepth := 8) [State.sweptBurst]

@[simp] theorem State.serveBurst_frame (s : State) (r : Req) (b : ℕ) : (s.serveBurst r b).2.2.pending = s.pending ∧
    (s.serveBurst r b).2.2.freeCtr = s.freeCtr ∧ (s.serveBurst r b).2.2.timeUs = s.timeUs ∧
    (s.serveBurst r b).2.2.b = s.b ∧ (s.serveBurst r b).2.2.fab = s.fab ∧ (s.serveBurst r b).2.2.j = s.j ∧
    (s.serveBurst r b).2.2.h = s.h := by
  generalize hu : s.serveBurst r b = u
  unfold State.serveBurst at hu
  dsimp only at hu
  (repeat' split at hu) <;> (subst hu; simp -implicitDefEqProofs (maxDischargeDepth := 8))

@[simp] theorem State.dropLost_frame (s : State) (r : Req) : (s.dropLost r).pending = s.pending ∧
    (s.dropLost r).freeCtr = s.freeCtr ∧ (s.dropLost r).timeUs = s.timeUs ∧ (s.dropLost r).regs = s.regs ∧
    (s.dropLost r).core = s.core ∧ (s.dropLost r).mx = s.mx ∧ (s.dropLost r).m.mem = s.m.mem ∧
    (s.dropLost r).e = s.e ∧ (s.dropLost r).fab = s.fab ∧ (s.dropLost r).sec = s.sec ∧ (s.dropLost r).j = s.j ∧
    (s.dropLost r).h = s.h ∧ (s.dropLost r).pm = s.pm := by
  simp -implicitDefEqProofs (maxDischargeDepth := 8) [State.dropLost]

@[simp] theorem State.noteLatency_frame (s : State) (r : Req) : (s.noteLatency r).pending = s.pending ∧
    (s.noteLatency r).freeCtr = s.freeCtr ∧ (s.noteLatency r).timeUs = s.timeUs ∧ (s.noteLatency r).regs = s.regs ∧
    (s.noteLatency r).core = s.core ∧ (s.noteLatency r).mx = s.mx ∧ (s.noteLatency r).m.mem = s.m.mem ∧
    (s.noteLatency r).e = s.e ∧ (s.noteLatency r).b = s.b ∧ (s.noteLatency r).fab = s.fab ∧
    (s.noteLatency r).sec = s.sec ∧ (s.noteLatency r).j = s.j ∧ (s.noteLatency r).h = s.h ∧
    (s.noteLatency r).pm = s.pm := by
  simp -implicitDefEqProofs (maxDischargeDepth := 8) [State.noteLatency]

@[simp] theorem State.served_frame (s : State) (r : Req) : (s.served r).pending = s.pending ∧
    (s.served r).freeCtr = s.freeCtr ∧ (s.served r).timeUs = s.timeUs ∧ (s.served r).b = s.b ∧
    (s.served r).fab = s.fab ∧ (s.served r).sec = s.sec ∧ (s.served r).j = s.j ∧ (s.served r).h = s.h := by
  simp -implicitDefEqProofs (maxDischargeDepth := 8) [State.served]

@[simp] theorem State.serveNext_frame (s : State) (r : Req) : (s.serveNext r).2.pending = s.pending ∧
    (s.serveNext r).2.freeCtr = s.freeCtr ∧ (s.serveNext r).2.timeUs = s.timeUs ∧ (s.serveNext r).2.fab = s.fab ∧
    (s.serveNext r).2.j = s.j ∧ (s.serveNext r).2.h = s.h := by
  generalize hu : s.serveNext r = u
  unfold State.serveNext at hu
  dsimp only at hu
  (repeat' split at hu) <;> (subst hu; simp -implicitDefEqProofs (maxDischargeDepth := 8))

@[simp] theorem State.slowBank_frame (s : State) (inst : ℕ) (med : ℕ) (b : ℕ) :
    (s.slowBank inst med b).pending = s.pending ∧ (s.slowBank inst med b).freeCtr = s.freeCtr ∧
    (s.slowBank inst med b).timeUs = s.timeUs ∧ (s.slowBank inst med b).core = s.core ∧
    (s.slowBank inst med b).mx = s.mx ∧ (s.slowBank inst med b).m.mem = s.m.mem ∧ (s.slowBank inst med b).e = s.e ∧
    (s.slowBank inst med b).b = s.b ∧ (s.slowBank inst med b).fab = s.fab ∧ (s.slowBank inst med b).sec = s.sec ∧
    (s.slowBank inst med b).j = s.j ∧ (s.slowBank inst med b).h = s.h ∧ (s.slowBank inst med b).pm = s.pm := by
  generalize hu : s.slowBank inst med b = u
  unfold State.slowBank at hu
  (repeat' split at hu) <;> (subst hu; simp -implicitDefEqProofs (maxDischargeDepth := 8))

@[simp] theorem State.slowMarks_frame (s : State) (inst : ℕ) : (s.slowMarks inst).pending = s.pending ∧
    (s.slowMarks inst).freeCtr = s.freeCtr ∧ (s.slowMarks inst).timeUs = s.timeUs ∧
    (s.slowMarks inst).core = s.core ∧ (s.slowMarks inst).mx = s.mx ∧ (s.slowMarks inst).m.mem = s.m.mem ∧
    (s.slowMarks inst).e = s.e ∧ (s.slowMarks inst).b = s.b ∧ (s.slowMarks inst).fab = s.fab ∧
    (s.slowMarks inst).sec = s.sec ∧ (s.slowMarks inst).j = s.j ∧ (s.slowMarks inst).h = s.h ∧
    (s.slowMarks inst).pm = s.pm := by
  generalize hu : s.slowMarks inst = u
  unfold State.slowMarks at hu
  (repeat' split at hu) <;> (subst hu; simp -implicitDefEqProofs (maxDischargeDepth := 8))

@[simp] theorem State.setHold_frame (s : State) (inst : ℕ) (h : Option Hold) :
    (s.setHold inst h).pending = s.pending ∧ (s.setHold inst h).freeCtr = s.freeCtr ∧
    (s.setHold inst h).timeUs = s.timeUs ∧ (s.setHold inst h).regs = s.regs ∧ (s.setHold inst h).core = s.core ∧
    (s.setHold inst h).mx = s.mx ∧ (s.setHold inst h).m.mem = s.m.mem ∧ (s.setHold inst h).e = s.e ∧
    (s.setHold inst h).b = s.b ∧ (s.setHold inst h).fab = s.fab ∧ (s.setHold inst h).sec = s.sec ∧
    (s.setHold inst h).j = s.j ∧ (s.setHold inst h).h = s.h ∧ (s.setHold inst h).pm = s.pm := by
  simp -implicitDefEqProofs (maxDischargeDepth := 8) [State.setHold]

@[simp] theorem State.overhold_frame (s : State) (inst : ℕ) (h : Hold) : (s.overhold inst h).pending = s.pending ∧
    (s.overhold inst h).freeCtr = s.freeCtr ∧ (s.overhold inst h).timeUs = s.timeUs ∧
    (s.overhold inst h).core = s.core ∧ (s.overhold inst h).mx = s.mx ∧ (s.overhold inst h).m.mem = s.m.mem ∧
    (s.overhold inst h).e = s.e ∧ (s.overhold inst h).b = s.b ∧ (s.overhold inst h).fab = s.fab ∧
    (s.overhold inst h).sec = s.sec ∧ (s.overhold inst h).j = s.j ∧ (s.overhold inst h).h = s.h ∧
    (s.overhold inst h).pm = s.pm := by
  simp -implicitDefEqProofs (maxDischargeDepth := 8) [State.overhold]

@[simp] theorem State.passRounds_frame (s : State) (inst : ℕ) (w : ℕ) (elig : List ℕ) (asking : List ℕ) (a : ℕ) :
    (s.passRounds inst w elig asking a).pending = s.pending ∧
    (s.passRounds inst w elig asking a).freeCtr = s.freeCtr ∧
    (s.passRounds inst w elig asking a).timeUs = s.timeUs ∧ (s.passRounds inst w elig asking a).regs = s.regs ∧
    (s.passRounds inst w elig asking a).core = s.core ∧ (s.passRounds inst w elig asking a).mx = s.mx ∧
    (s.passRounds inst w elig asking a).m.mem = s.m.mem ∧ (s.passRounds inst w elig asking a).e = s.e ∧
    (s.passRounds inst w elig asking a).b = s.b ∧ (s.passRounds inst w elig asking a).fab = s.fab ∧
    (s.passRounds inst w elig asking a).sec = s.sec ∧ (s.passRounds inst w elig asking a).j = s.j ∧
    (s.passRounds inst w elig asking a).h = s.h ∧ (s.passRounds inst w elig asking a).pm = s.pm := by
  induction a generalizing s elig asking with
  | zero => simp [State.passRounds]
  | succ n ih => simp -implicitDefEqProofs [State.passRounds, ih]

@[simp] theorem State.grantTo_frame (s : State) (inst : ℕ) (elig : List ℕ) (r : Req) (held : ℕ) :
    (s.grantTo inst elig r held).pending = s.pending ∧ (s.grantTo inst elig r held).freeCtr = s.freeCtr ∧
    (s.grantTo inst elig r held).timeUs = s.timeUs ∧ (s.grantTo inst elig r held).fab = s.fab ∧
    (s.grantTo inst elig r held).j = s.j ∧ (s.grantTo inst elig r held).h = s.h := by
  simp -implicitDefEqProofs (maxDischargeDepth := 8) [State.grantTo]

@[simp] theorem State.lostRound_frame (s : State) (inst : ℕ) (rq : ℕ) : (s.lostRound inst rq).pending = s.pending ∧
    (s.lostRound inst rq).freeCtr = s.freeCtr ∧ (s.lostRound inst rq).timeUs = s.timeUs ∧
    (s.lostRound inst rq).core = s.core ∧ (s.lostRound inst rq).mx = s.mx ∧ (s.lostRound inst rq).m.mem = s.m.mem ∧
    (s.lostRound inst rq).e = s.e ∧ (s.lostRound inst rq).b = s.b ∧ (s.lostRound inst rq).fab = s.fab ∧
    (s.lostRound inst rq).sec = s.sec ∧ (s.lostRound inst rq).j = s.j ∧ (s.lostRound inst rq).h = s.h ∧
    (s.lostRound inst rq).pm = s.pm := by
  simp -implicitDefEqProofs (maxDischargeDepth := 8) [State.lostRound]

@[simp] theorem State.serveLines_frame (s : State) (inst : ℕ) : (s.serveLines inst).pending = s.pending ∧
    (s.serveLines inst).freeCtr = s.freeCtr ∧ (s.serveLines inst).timeUs = s.timeUs ∧ (s.serveLines inst).b = s.b ∧
    (s.serveLines inst).fab = s.fab ∧ (s.serveLines inst).sec = s.sec ∧ (s.serveLines inst).j = s.j ∧
    (s.serveLines inst).h = s.h := by
  simp -implicitDefEqProofs (maxDischargeDepth := 8) [State.serveLines]

@[simp] theorem State.openRound_frame (s : State) (inst : ℕ) : (s.openRound inst).pending = s.pending ∧
    (s.openRound inst).freeCtr = s.freeCtr ∧ (s.openRound inst).timeUs = s.timeUs ∧
    (s.openRound inst).fab = s.fab ∧ (s.openRound inst).j = s.j ∧ (s.openRound inst).h = s.h := by
  generalize hu : s.openRound inst = u
  unfold State.openRound at hu
  dsimp only at hu
  (repeat' split at hu) <;> (subst hu; simp -implicitDefEqProofs (maxDischargeDepth := 8))

@[simp] theorem State.releaseToks_frame (s : State) : (s.releaseToks).pending = s.pending ∧
    (s.releaseToks).freeCtr = s.freeCtr ∧ (s.releaseToks).timeUs = s.timeUs ∧ (s.releaseToks).core = s.core ∧
    (s.releaseToks).mx = s.mx ∧ (s.releaseToks).m = s.m ∧ (s.releaseToks).b = s.b ∧ (s.releaseToks).fab = s.fab ∧
    (s.releaseToks).sec = s.sec ∧ (s.releaseToks).j = s.j ∧ (s.releaseToks).h = s.h := by
  simp -implicitDefEqProofs (maxDischargeDepth := 8) [State.releaseToks]

@[simp] theorem State.groupSignal_frame (s : State) (tok : Word) : (s.groupSignal tok).pending = s.pending ∧
    (s.groupSignal tok).freeCtr = s.freeCtr ∧ (s.groupSignal tok).timeUs = s.timeUs ∧
    (s.groupSignal tok).core = s.core ∧ (s.groupSignal tok).mx = s.mx ∧ (s.groupSignal tok).m = s.m ∧
    (s.groupSignal tok).b = s.b ∧ (s.groupSignal tok).fab = s.fab ∧ (s.groupSignal tok).sec = s.sec ∧
    (s.groupSignal tok).j = s.j ∧ (s.groupSignal tok).h = s.h := by
  simp -implicitDefEqProofs (maxDischargeDepth := 8) [State.groupSignal]

@[simp] theorem State.memRound_frame (s : State) (inst : ℕ) : (s.memRound inst).pending = s.pending ∧
    (s.memRound inst).freeCtr = s.freeCtr ∧ (s.memRound inst).timeUs = s.timeUs ∧ (s.memRound inst).fab = s.fab ∧
    (s.memRound inst).j = s.j ∧ (s.memRound inst).h = s.h := by
  generalize hu : s.memRound inst = u
  unfold State.memRound at hu
  dsimp only at hu
  (repeat' split at hu) <;> (subst hu; simp -implicitDefEqProofs (maxDischargeDepth := 8))

@[simp] theorem State.berthReturn_frame (s : State) (core : ℕ) (id : ℕ) :
    (s.berthReturn core id).pending = s.pending ∧ (s.berthReturn core id).freeCtr = s.freeCtr ∧
    (s.berthReturn core id).timeUs = s.timeUs ∧ (s.berthReturn core id).b = s.b ∧
    (s.berthReturn core id).fab = s.fab ∧ (s.berthReturn core id).sec = s.sec ∧ (s.berthReturn core id).j = s.j ∧
    (s.berthReturn core id).h = s.h := by
  generalize hu : s.berthReturn core id = u
  unfold State.berthReturn at hu
  (repeat' split at hu) <;> (subst hu; simp -implicitDefEqProofs (maxDischargeDepth := 8))

@[simp] theorem State.countIssue_frame (s : State) (core : ℕ) : (s.countIssue core).pending = s.pending ∧
    (s.countIssue core).freeCtr = s.freeCtr ∧ (s.countIssue core).timeUs = s.timeUs ∧
    (s.countIssue core).core = s.core ∧ (s.countIssue core).mx = s.mx ∧ (s.countIssue core).m = s.m ∧
    (s.countIssue core).e = s.e ∧ (s.countIssue core).b = s.b ∧ (s.countIssue core).fab = s.fab ∧
    (s.countIssue core).sec = s.sec ∧ (s.countIssue core).j = s.j ∧ (s.countIssue core).h = s.h ∧
    (s.countIssue core).pm = s.pm := by
  simp -implicitDefEqProofs (maxDischargeDepth := 8) [State.countIssue]

@[simp] theorem State.raise_frame (s : State) (core : ℕ) (t : ℕ) (pc : ℕ) (fs : List FInfo) (w : Word) :
    (s.raise core t pc fs w).pending = s.pending ∧ (s.raise core t pc fs w).freeCtr = s.freeCtr ∧
    (s.raise core t pc fs w).timeUs = s.timeUs ∧ (s.raise core t pc fs w).m.mem = s.m.mem ∧
    (s.raise core t pc fs w).b = s.b ∧ (s.raise core t pc fs w).fab = s.fab ∧
    (s.raise core t pc fs w).sec = s.sec ∧ (s.raise core t pc fs w).j = s.j ∧ (s.raise core t pc fs w).h = s.h := by
  generalize hu : s.raise core t pc fs w = u
  unfold State.raise at hu
  (repeat' split at hu) <;> (subst hu; simp -implicitDefEqProofs (maxDischargeDepth := 8))

@[simp] theorem State.tookTurn_frame (s : State) (core : ℕ) (t : ℕ) (pc : ℕ) :
    (s.tookTurn core t pc).pending = s.pending ∧ (s.tookTurn core t pc).freeCtr = s.freeCtr ∧
    (s.tookTurn core t pc).timeUs = s.timeUs ∧ (s.tookTurn core t pc).regs = s.regs ∧
    (s.tookTurn core t pc).mx = s.mx ∧ (s.tookTurn core t pc).m = s.m ∧ (s.tookTurn core t pc).e = s.e ∧
    (s.tookTurn core t pc).b = s.b ∧ (s.tookTurn core t pc).fab = s.fab ∧ (s.tookTurn core t pc).sec = s.sec ∧
    (s.tookTurn core t pc).j = s.j ∧ (s.tookTurn core t pc).h = s.h ∧ (s.tookTurn core t pc).pm = s.pm := by
  simp -implicitDefEqProofs (maxDischargeDepth := 8) [State.tookTurn]

@[simp] theorem State.missTurn_frame (s : State) (core : ℕ) (t : ℕ) (w : Word) :
    (s.missTurn core t w).pending = s.pending ∧ (s.missTurn core t w).freeCtr = s.freeCtr ∧
    (s.missTurn core t w).timeUs = s.timeUs ∧ (s.missTurn core t w).regs = s.regs ∧
    (s.missTurn core t w).mx = s.mx ∧ (s.missTurn core t w).m = s.m ∧ (s.missTurn core t w).e = s.e ∧
    (s.missTurn core t w).b = s.b ∧ (s.missTurn core t w).fab = s.fab ∧ (s.missTurn core t w).sec = s.sec ∧
    (s.missTurn core t w).j = s.j ∧ (s.missTurn core t w).h = s.h ∧ (s.missTurn core t w).pm = s.pm := by
  simp -implicitDefEqProofs (maxDischargeDepth := 8) [State.missTurn]

@[simp] theorem State.jnlEntry_frame (s : State) (p : ℕ) (site : ℕ) (sec : ℕ) (step : ℕ) (va : ℕ) (at_ : ℕ) (cells
    : List (ℕ × Byte)) : (s.jnlEntry p site sec step va at_ cells).2.pending = s.pending ∧
    (s.jnlEntry p site sec step va at_ cells).2.freeCtr = s.freeCtr ∧
    (s.jnlEntry p site sec step va at_ cells).2.timeUs = s.timeUs ∧
    (s.jnlEntry p site sec step va at_ cells).2.regs = s.regs ∧
    (s.jnlEntry p site sec step va at_ cells).2.core = s.core ∧
    (s.jnlEntry p site sec step va at_ cells).2.mx = s.mx ∧ (s.jnlEntry p site sec step va at_ cells).2.m = s.m ∧
    (s.jnlEntry p site sec step va at_ cells).2.e = s.e ∧ (s.jnlEntry p site sec step va at_ cells).2.fab = s.fab ∧
    (s.jnlEntry p site sec step va at_ cells).2.sec = s.sec ∧ (s.jnlEntry p site sec step va at_ cells).2.j = s.j ∧
    (s.jnlEntry p site sec step va at_ cells).2.h = s.h ∧ (s.jnlEntry p site sec step va at_ cells).2.pm = s.pm := by
  simp -implicitDefEqProofs (maxDischargeDepth := 8) [State.jnlEntry]

@[simp] theorem State.jnlTake_frame (s : State) (r : ℕ) (n : ℕ) : (s.jnlTake r n).2.pending = s.pending ∧
    (s.jnlTake r n).2.freeCtr = s.freeCtr ∧ (s.jnlTake r n).2.timeUs = s.timeUs ∧ (s.jnlTake r n).2.regs = s.regs ∧
    (s.jnlTake r n).2.core = s.core ∧ (s.jnlTake r n).2.mx = s.mx ∧ (s.jnlTake r n).2.m = s.m ∧
    (s.jnlTake r n).2.e = s.e ∧ (s.jnlTake r n).2.fab = s.fab ∧ (s.jnlTake r n).2.sec = s.sec ∧
    (s.jnlTake r n).2.j = s.j ∧ (s.jnlTake r n).2.h = s.h ∧ (s.jnlTake r n).2.pm = s.pm := by
  simp -implicitDefEqProofs (maxDischargeDepth := 8) [State.jnlTake]

@[simp] theorem State.journal_frame (s : State) (p : ℕ) (site : ℕ) (sec : ℕ) (step : ℕ) (va : ℕ) (cells : List (ℕ ×
    Byte)) : (s.journal p site sec step va cells).pending = s.pending ∧
    (s.journal p site sec step va cells).freeCtr = s.freeCtr ∧
    (s.journal p site sec step va cells).timeUs = s.timeUs ∧ (s.journal p site sec step va cells).fab = s.fab ∧
    (s.journal p site sec step va cells).sec = s.sec ∧ (s.journal p site sec step va cells).j = s.j ∧
    (s.journal p site sec step va cells).h = s.h := by
  simp -implicitDefEqProofs (maxDischargeDepth := 8) [State.journal]

@[simp] theorem State.journalUnits_frame (s : State) (p : ℕ) (site : ℕ) (sec : ℕ) (step : ℕ) (va : ℕ) (n : ℕ) :
    (s.journalUnits p site sec step va n).pending = s.pending ∧
    (s.journalUnits p site sec step va n).freeCtr = s.freeCtr ∧
    (s.journalUnits p site sec step va n).timeUs = s.timeUs ∧ (s.journalUnits p site sec step va n).fab = s.fab ∧
    (s.journalUnits p site sec step va n).sec = s.sec ∧ (s.journalUnits p site sec step va n).j = s.j ∧
    (s.journalUnits p site sec step va n).h = s.h := by
  generalize hu : s.journalUnits p site sec step va n = u
  unfold State.journalUnits at hu
  dsimp only at hu
  (repeat' split at hu) <;> (subst hu; simp -implicitDefEqProofs (maxDischargeDepth := 8))

@[simp] theorem State.restoreJournal_frame (s : State) (p : ℕ) : (s.restoreJournal p).pending = s.pending ∧
    (s.restoreJournal p).freeCtr = s.freeCtr ∧ (s.restoreJournal p).timeUs = s.timeUs ∧
    (s.restoreJournal p).b = s.b ∧ (s.restoreJournal p).fab = s.fab ∧ (s.restoreJournal p).sec = s.sec ∧
    (s.restoreJournal p).j = s.j ∧ (s.restoreJournal p).h = s.h := by
  unfold State.restoreJournal
  dsimp only
  generalize (_ : List JEnt) ++ _ = l
  simp

@[simp] theorem State.dropJournal_frame (s : State) (p : ℕ) : (s.dropJournal p).pending = s.pending ∧
    (s.dropJournal p).freeCtr = s.freeCtr ∧ (s.dropJournal p).timeUs = s.timeUs ∧ (s.dropJournal p).regs = s.regs ∧
    (s.dropJournal p).core = s.core ∧ (s.dropJournal p).mx = s.mx ∧ (s.dropJournal p).m = s.m ∧
    (s.dropJournal p).e = s.e ∧ (s.dropJournal p).fab = s.fab ∧ (s.dropJournal p).sec = s.sec ∧
    (s.dropJournal p).j = s.j ∧ (s.dropJournal p).h = s.h ∧ (s.dropJournal p).pm = s.pm := by
  simp -implicitDefEqProofs (maxDischargeDepth := 8) [State.dropJournal]

@[simp] theorem State.countNF_frame (s : State) (p : ℕ) (outs : List (Ty × ℕ)) :
    (s.countNF p outs).pending = s.pending ∧ (s.countNF p outs).freeCtr = s.freeCtr ∧
    (s.countNF p outs).timeUs = s.timeUs ∧ (s.countNF p outs).core = s.core ∧ (s.countNF p outs).mx = s.mx ∧
    (s.countNF p outs).m = s.m ∧ (s.countNF p outs).e = s.e ∧ (s.countNF p outs).b = s.b ∧
    (s.countNF p outs).fab = s.fab ∧ (s.countNF p outs).sec = s.sec ∧ (s.countNF p outs).j = s.j ∧
    (s.countNF p outs).h = s.h ∧ (s.countNF p outs).pm = s.pm := by
  simp -implicitDefEqProofs (maxDischargeDepth := 8) [State.countNF]

/-- The state after an access has been checked and found is that after its translations. -/
theorem State.spanKeys_state (s : State) (core space addr nb : Nat) (store : Bool) :
    (s.spanKeys core space addr nb store).2 = s ∨
    (s.spanKeys core space addr nb store).2 = (s.checkVa core addr (min nb (4096 - addr % 4096)) store).2 ∨
    (s.spanKeys core space addr nb store).2 =
      ((s.checkVa core addr (min nb (4096 - addr % 4096)) store).2.checkVa core (addr + min nb (4096 - addr % 4096))
        (nb - min nb (4096 - addr % 4096)) store).2 ∨
    (s.spanKeys core space addr nb store).2 = (s.checkAccess core space addr nb store).2 := by
  unfold State.spanKeys
  generalize min nb (4096 - addr % 4096) = first
  generalize 2 ^ 48 = z
  dsimp only
  by_cases h1 : (decide (space = 2) && first != nb) = true
  · rw [if_pos h1]
    by_cases h2 : z < addr + nb
    · rw [if_pos h2]; exact .inl rfl
    · rw [if_neg h2]
      by_cases h3 : (!s.inExtent core addr nb store) = true
      · rw [if_pos h3]; exact .inl rfl
      · rw [if_neg h3]
        rcases s.checkVa core addr first store with ⟨_ | k, u⟩ <;> dsimp only <;>
          rcases u.checkVa core (addr + first) (nb - first) store with ⟨_ | k2, w⟩ <;> exact .inr (.inr (.inl rfl))
  · rw [if_neg h1]
    rcases s.checkAccess core space addr nb store with ⟨_ | k, u⟩ <;> exact .inr (.inr (.inr rfl))

@[simp] theorem State.spanKeys_frame (s : State) (core : ℕ) (space : ℕ) (addr : ℕ) (nb : ℕ) (store : Bool) :
    (s.spanKeys core space addr nb store).2.pending = s.pending ∧
    (s.spanKeys core space addr nb store).2.freeCtr = s.freeCtr ∧
    (s.spanKeys core space addr nb store).2.timeUs = s.timeUs ∧
    (s.spanKeys core space addr nb store).2.core = s.core ∧ (s.spanKeys core space addr nb store).2.mx = s.mx ∧
    (s.spanKeys core space addr nb store).2.m.mem = s.m.mem ∧ (s.spanKeys core space addr nb store).2.b = s.b ∧
    (s.spanKeys core space addr nb store).2.fab = s.fab ∧ (s.spanKeys core space addr nb store).2.sec = s.sec ∧
    (s.spanKeys core space addr nb store).2.j = s.j ∧ (s.spanKeys core space addr nb store).2.h = s.h := by
  rcases s.spanKeys_state core space addr nb store with h | h | h | h <;> rw [h] <;> simp -implicitDefEqProofs

@[simp] theorem State.scalarAccess_frame (s : State) (core : ℕ) (t : ℕ) (f : Fields) (store : Bool) :
    (s.scalarAccess core t f store).2.pending = s.pending ∧ (s.scalarAccess core t f store).2.freeCtr = s.freeCtr ∧
    (s.scalarAccess core t f store).2.timeUs = s.timeUs ∧ (s.scalarAccess core t f store).2.core = s.core ∧
    (s.scalarAccess core t f store).2.mx = s.mx ∧ (s.scalarAccess core t f store).2.m.mem = s.m.mem ∧
    (s.scalarAccess core t f store).2.b = s.b ∧ (s.scalarAccess core t f store).2.fab = s.fab ∧
    (s.scalarAccess core t f store).2.sec = s.sec ∧ (s.scalarAccess core t f store).2.j = s.j ∧
    (s.scalarAccess core t f store).2.h = s.h := by
  generalize hu : s.scalarAccess core t f store = u
  unfold State.scalarAccess at hu
  dsimp only at hu
  (repeat' split at hu) <;> (subst hu; simp -implicitDefEqProofs (maxDischargeDepth := 8))

@[simp] theorem State.writeHandle_frame (s : State) (core : ℕ) (r : ℕ) (h : Word) :
    (s.writeHandle core r h).pending = s.pending ∧ (s.writeHandle core r h).freeCtr = s.freeCtr ∧
    (s.writeHandle core r h).timeUs = s.timeUs ∧ (s.writeHandle core r h).regs = s.regs ∧
    (s.writeHandle core r h).m = s.m ∧ (s.writeHandle core r h).e = s.e ∧ (s.writeHandle core r h).b = s.b ∧
    (s.writeHandle core r h).fab = s.fab ∧ (s.writeHandle core r h).sec = s.sec ∧
    (s.writeHandle core r h).j = s.j ∧ (s.writeHandle core r h).h = s.h ∧ (s.writeHandle core r h).pm = s.pm := by
  simp -implicitDefEqProofs (maxDischargeDepth := 8) [State.writeHandle]

@[simp] theorem State.elemKeys_frame (s : State) (core : ℕ) (space : ℕ) (ty : Ty) (e : ElAt) (store : Bool) :
    (s.elemKeys core space ty e store).2.pending = s.pending ∧
    (s.elemKeys core space ty e store).2.freeCtr = s.freeCtr ∧
    (s.elemKeys core space ty e store).2.timeUs = s.timeUs ∧ (s.elemKeys core space ty e store).2.core = s.core ∧
    (s.elemKeys core space ty e store).2.mx = s.mx ∧ (s.elemKeys core space ty e store).2.m.mem = s.m.mem ∧
    (s.elemKeys core space ty e store).2.b = s.b ∧ (s.elemKeys core space ty e store).2.fab = s.fab ∧
    (s.elemKeys core space ty e store).2.sec = s.sec ∧ (s.elemKeys core space ty e store).2.j = s.j ∧
    (s.elemKeys core space ty e store).2.h = s.h := by
  generalize hu : s.elemKeys core space ty e store = u
  unfold State.elemKeys at hu
  (try generalize (2 : ℕ) ^ 48 = z at hu)
  try dsimp only at hu
  (repeat' split at hu) <;>
    (subst hu
     (try simp only [Prod.ext_iff] at *) <;> (try casesm* _ ∧ _) <;> subst_vars <;>
       first
       | (simp -implicitDefEqProofs (maxDischargeDepth := 8); done)
       | simp_all -implicitDefEqProofs)

@[simp] theorem State.vecKeys_frame (s : State) (core : ℕ) (space : ℕ) (ty : Ty) (store : Bool) (a : List (ℕ ×
    ElAt)) : (s.vecKeys core space ty store a).2.2.pending = s.pending ∧
    (s.vecKeys core space ty store a).2.2.freeCtr = s.freeCtr ∧
    (s.vecKeys core space ty store a).2.2.timeUs = s.timeUs ∧ (s.vecKeys core space ty store a).2.2.core = s.core ∧
    (s.vecKeys core space ty store a).2.2.mx = s.mx ∧ (s.vecKeys core space ty store a).2.2.m.mem = s.m.mem ∧
    (s.vecKeys core space ty store a).2.2.b = s.b ∧ (s.vecKeys core space ty store a).2.2.fab = s.fab ∧
    (s.vecKeys core space ty store a).2.2.sec = s.sec ∧ (s.vecKeys core space ty store a).2.2.j = s.j ∧
    (s.vecKeys core space ty store a).2.2.h = s.h := by
  fun_induction s.vecKeys core space ty store a <;> (try simp only [Prod.ext_iff] at *) <;> (try casesm* _ ∧
      _) <;> subst_vars <;> simp_all -implicitDefEqProofs

@[simp] theorem State.setCounter_frame (s : State) (core : ℕ) (ch : ℕ) (v : ℕ) :
    (s.setCounter core ch v).pending = s.pending ∧ (s.setCounter core ch v).freeCtr = s.freeCtr ∧
    (s.setCounter core ch v).timeUs = s.timeUs ∧ (s.setCounter core ch v).core = s.core ∧
    (s.setCounter core ch v).mx = s.mx ∧ (s.setCounter core ch v).m = s.m ∧ (s.setCounter core ch v).e = s.e ∧
    (s.setCounter core ch v).b = s.b ∧ (s.setCounter core ch v).fab = s.fab ∧
    (s.setCounter core ch v).sec = s.sec ∧ (s.setCounter core ch v).j = s.j ∧ (s.setCounter core ch v).h = s.h ∧
    (s.setCounter core ch v).pm = s.pm := by
  simp -implicitDefEqProofs (maxDischargeDepth := 8) [State.setCounter]

@[simp] theorem State.serveCounter_frame (s : State) (core : ℕ) (ch : ℕ) (a : List (ℕ × ℕ × ℕ)) :
    (s.serveCounter core ch a).pending = s.pending ∧ (s.serveCounter core ch a).freeCtr = s.freeCtr ∧
    (s.serveCounter core ch a).timeUs = s.timeUs ∧ (s.serveCounter core ch a).mx = s.mx ∧
    (s.serveCounter core ch a).m = s.m ∧ (s.serveCounter core ch a).e = s.e ∧ (s.serveCounter core ch a).b = s.b ∧
    (s.serveCounter core ch a).fab = s.fab ∧ (s.serveCounter core ch a).sec = s.sec ∧
    (s.serveCounter core ch a).j = s.j ∧ (s.serveCounter core ch a).h = s.h ∧
    (s.serveCounter core ch a).pm = s.pm := by
  fun_induction s.serveCounter core ch a <;> simp_all -implicitDefEqProofs +zetaDelta

@[simp] theorem State.barrierGo_frame (s : State) (core : ℕ) (ch : ℕ) (t : ℕ) :
    (s.barrierGo core ch t).pending = s.pending ∧ (s.barrierGo core ch t).freeCtr = s.freeCtr ∧
    (s.barrierGo core ch t).timeUs = s.timeUs ∧ (s.barrierGo core ch t).regs = s.regs ∧
    (s.barrierGo core ch t).mx = s.mx ∧ (s.barrierGo core ch t).m = s.m ∧ (s.barrierGo core ch t).e = s.e ∧
    (s.barrierGo core ch t).b = s.b ∧ (s.barrierGo core ch t).fab = s.fab ∧ (s.barrierGo core ch t).sec = s.sec ∧
    (s.barrierGo core ch t).j = s.j ∧ (s.barrierGo core ch t).h = s.h ∧ (s.barrierGo core ch t).pm = s.pm := by
  generalize hu : s.barrierGo core ch t = u
  unfold State.barrierGo at hu
  (repeat' split at hu) <;> (subst hu; simp -implicitDefEqProofs (maxDischargeDepth := 8))

@[simp] theorem State.serveBarrier_frame (s : State) (core : ℕ) (ch : ℕ) :
    (s.serveBarrier core ch).pending = s.pending ∧ (s.serveBarrier core ch).freeCtr = s.freeCtr ∧
    (s.serveBarrier core ch).timeUs = s.timeUs ∧ (s.serveBarrier core ch).regs = s.regs ∧
    (s.serveBarrier core ch).mx = s.mx ∧ (s.serveBarrier core ch).m = s.m ∧ (s.serveBarrier core ch).e = s.e ∧
    (s.serveBarrier core ch).b = s.b ∧ (s.serveBarrier core ch).fab = s.fab ∧
    (s.serveBarrier core ch).sec = s.sec ∧ (s.serveBarrier core ch).j = s.j ∧ (s.serveBarrier core ch).h = s.h ∧
    (s.serveBarrier core ch).pm = s.pm := by
  generalize hu : s.serveBarrier core ch = u
  unfold State.serveBarrier at hu
  (try generalize (2 : ℕ) ^ 48 = z at hu)
  try dsimp only at hu
  (repeat' split at hu) <;>
    (subst hu
     (try simp only [Prod.ext_iff] at *) <;> (try casesm* _ ∧ _) <;> subst_vars <;>
       first
       | (simp -implicitDefEqProofs (maxDischargeDepth := 8); done)
       | simp_all -implicitDefEqProofs)

@[simp] theorem State.tokOverflow_frame (s : State) (core : ℕ) (tok : Word) :
    (s.tokOverflow core tok).pending = s.pending ∧ (s.tokOverflow core tok).freeCtr = s.freeCtr ∧
    (s.tokOverflow core tok).timeUs = s.timeUs ∧ (s.tokOverflow core tok).m = s.m ∧
    (s.tokOverflow core tok).b = s.b ∧ (s.tokOverflow core tok).fab = s.fab ∧
    (s.tokOverflow core tok).sec = s.sec ∧ (s.tokOverflow core tok).j = s.j ∧ (s.tokOverflow core tok).h = s.h := by
  simp -implicitDefEqProofs (maxDischargeDepth := 8) [State.tokOverflow]

@[simp] theorem State.addToken_frame (s : State) (core : ℕ) (tok : Word) :
    (s.addToken core tok).pending = s.pending ∧ (s.addToken core tok).freeCtr = s.freeCtr ∧
    (s.addToken core tok).timeUs = s.timeUs ∧ (s.addToken core tok).m = s.m ∧ (s.addToken core tok).b = s.b ∧
    (s.addToken core tok).fab = s.fab ∧ (s.addToken core tok).sec = s.sec ∧ (s.addToken core tok).j = s.j ∧
    (s.addToken core tok).h = s.h := by
  simp -implicitDefEqProofs (maxDischargeDepth := 8) [State.addToken]

@[simp] theorem State.unitOverflow_frame (s : State) (tok : Word) : (s.unitOverflow tok).pending = s.pending ∧
    (s.unitOverflow tok).freeCtr = s.freeCtr ∧ (s.unitOverflow tok).timeUs = s.timeUs ∧
    (s.unitOverflow tok).core = s.core ∧ (s.unitOverflow tok).mx = s.mx ∧ (s.unitOverflow tok).m = s.m ∧
    (s.unitOverflow tok).b = s.b ∧ (s.unitOverflow tok).fab = s.fab ∧ (s.unitOverflow tok).sec = s.sec ∧
    (s.unitOverflow tok).j = s.j ∧ (s.unitOverflow tok).h = s.h := by
  simp -implicitDefEqProofs (maxDischargeDepth := 8) [State.unitOverflow]

@[simp] theorem State.addUnit_frame (s : State) (tok : Word) : (s.addUnit tok).pending = s.pending ∧
    (s.addUnit tok).freeCtr = s.freeCtr ∧ (s.addUnit tok).timeUs = s.timeUs ∧ (s.addUnit tok).core = s.core ∧
    (s.addUnit tok).mx = s.mx ∧ (s.addUnit tok).m = s.m ∧ (s.addUnit tok).b = s.b ∧ (s.addUnit tok).fab = s.fab ∧
    (s.addUnit tok).sec = s.sec ∧ (s.addUnit tok).j = s.j ∧ (s.addUnit tok).h = s.h := by
  simp -implicitDefEqProofs (maxDischargeDepth := 8) [State.addUnit]

@[simp] theorem State.startRows_frame (s : State) (core : ℕ) (t : ℕ) (master : ℕ) (mc : ℕ) (q : ℕ) (rb : ℕ) (a :
    List (ℕ × List ℕ)) : (s.startRows core t master mc q rb a).1.pending = s.pending ∧
    (s.startRows core t master mc q rb a).1.freeCtr = s.freeCtr ∧
    (s.startRows core t master mc q rb a).1.timeUs = s.timeUs ∧ (s.startRows core t master mc q rb a).1.b = s.b ∧
    (s.startRows core t master mc q rb a).1.fab = s.fab ∧ (s.startRows core t master mc q rb a).1.sec = s.sec ∧
    (s.startRows core t master mc q rb a).1.j = s.j ∧ (s.startRows core t master mc q rb a).1.h = s.h := by
  fun_induction s.startRows core t master mc q rb a <;> simp_all -implicitDefEqProofs

@[simp] theorem State.kickFeeder_frame (s : State) (core : ℕ) : (s.kickFeeder core).pending = s.pending ∧
    (s.kickFeeder core).freeCtr = s.freeCtr ∧ (s.kickFeeder core).timeUs = s.timeUs ∧ (s.kickFeeder core).b = s.b ∧
    (s.kickFeeder core).fab = s.fab ∧ (s.kickFeeder core).sec = s.sec ∧ (s.kickFeeder core).j = s.j ∧
    (s.kickFeeder core).h = s.h := by
  unfold State.kickFeeder
  refine foldl_rel (fun u v => u.pending = v.pending ∧ u.freeCtr = v.freeCtr ∧ u.timeUs = v.timeUs ∧ u.b = v.b ∧
      u.fab = v.fab ∧ u.sec = v.sec ∧ u.j = v.j ∧ u.h = v.h) _ _ _ (by simp) (by simp_all) (fun s x u hu => ?_)
  split at hu
  · subst hu; simp
  · rename_i y _
    generalize y.act = a at hu
    cases a <;> try (subst hu; simp; done)
    rename_i _ _ _ _ _ l
    cases l <;> dsimp only at hu
    · subst hu; simp
    · split at hu <;> subst hu <;> simp

@[simp] theorem State.feederCredit_frame (s : State) (feeder : ℕ) (tok : Word) :
    (s.feederCredit feeder tok).pending = s.pending ∧ (s.feederCredit feeder tok).freeCtr = s.freeCtr ∧
    (s.feederCredit feeder tok).timeUs = s.timeUs ∧ (s.feederCredit feeder tok).b = s.b ∧
    (s.feederCredit feeder tok).fab = s.fab ∧ (s.feederCredit feeder tok).sec = s.sec ∧
    (s.feederCredit feeder tok).j = s.j ∧ (s.feederCredit feeder tok).h = s.h := by
  simp -implicitDefEqProofs (maxDischargeDepth := 8) [State.feederCredit]

@[simp] theorem State.gotBarrier_frame (s : State) (tok : Word) : (s.gotBarrier tok).pending = s.pending ∧
    (s.gotBarrier tok).freeCtr = s.freeCtr ∧ (s.gotBarrier tok).timeUs = s.timeUs ∧
    (s.gotBarrier tok).regs = s.regs ∧ (s.gotBarrier tok).core = s.core ∧ (s.gotBarrier tok).mx = s.mx ∧
    (s.gotBarrier tok).m = s.m ∧ (s.gotBarrier tok).b = s.b ∧ (s.gotBarrier tok).fab = s.fab ∧
    (s.gotBarrier tok).sec = s.sec ∧ (s.gotBarrier tok).j = s.j ∧ (s.gotBarrier tok).h = s.h ∧
    (s.gotBarrier tok).pm = s.pm := by
  simp -implicitDefEqProofs (maxDischargeDepth := 8) [State.gotBarrier]

@[simp] theorem State.openChannel_frame (s : State) (core : ℕ) (ch : ℕ) (v : ℕ) :
    (s.openChannel core ch v).pending = s.pending ∧ (s.openChannel core ch v).freeCtr = s.freeCtr ∧
    (s.openChannel core ch v).timeUs = s.timeUs ∧ (s.openChannel core ch v).core = s.core ∧
    (s.openChannel core ch v).mx = s.mx ∧ (s.openChannel core ch v).m = s.m ∧ (s.openChannel core ch v).e = s.e ∧
    (s.openChannel core ch v).b = s.b ∧ (s.openChannel core ch v).fab = s.fab ∧
    (s.openChannel core ch v).sec = s.sec ∧ (s.openChannel core ch v).j = s.j ∧ (s.openChannel core ch v).h = s.h ∧
    (s.openChannel core ch v).pm = s.pm := by
  simp -implicitDefEqProofs (maxDischargeDepth := 8) [State.openChannel]

@[simp] theorem State.streamKey_frame (s : State) (core : ℕ) (space : ℕ) (addr : ℕ) (nb : ℕ) :
    (s.streamKey core space addr nb).2.pending = s.pending ∧
    (s.streamKey core space addr nb).2.freeCtr = s.freeCtr ∧ (s.streamKey core space addr nb).2.timeUs = s.timeUs ∧
    (s.streamKey core space addr nb).2.core = s.core ∧ (s.streamKey core space addr nb).2.mx = s.mx ∧
    (s.streamKey core space addr nb).2.m.mem = s.m.mem ∧ (s.streamKey core space addr nb).2.b = s.b ∧
    (s.streamKey core space addr nb).2.fab = s.fab ∧ (s.streamKey core space addr nb).2.sec = s.sec ∧
    (s.streamKey core space addr nb).2.j = s.j ∧ (s.streamKey core space addr nb).2.h = s.h := by
  generalize hu : s.streamKey core space addr nb = u
  unfold State.streamKey at hu
  (try generalize (2 : ℕ) ^ 48 = z at hu)
  try dsimp only at hu
  (repeat' split at hu) <;>
    (subst hu
     (try simp only [Prod.ext_iff] at *) <;> (try casesm* _ ∧ _) <;> subst_vars <;>
       first
       | (simp -implicitDefEqProofs (maxDischargeDepth := 8); done)
       | simp_all -implicitDefEqProofs)

@[simp] theorem State.streamKeys_frame (s : State) (core : ℕ) (space : ℕ) (addr : ℕ) (nb : ℕ) :
    (s.streamKeys core space addr nb).2.pending = s.pending ∧
    (s.streamKeys core space addr nb).2.freeCtr = s.freeCtr ∧
    (s.streamKeys core space addr nb).2.timeUs = s.timeUs ∧ (s.streamKeys core space addr nb).2.core = s.core ∧
    (s.streamKeys core space addr nb).2.mx = s.mx ∧ (s.streamKeys core space addr nb).2.m.mem = s.m.mem ∧
    (s.streamKeys core space addr nb).2.b = s.b ∧ (s.streamKeys core space addr nb).2.fab = s.fab ∧
    (s.streamKeys core space addr nb).2.sec = s.sec ∧ (s.streamKeys core space addr nb).2.j = s.j ∧
    (s.streamKeys core space addr nb).2.h = s.h := by
  generalize hu : s.streamKeys core space addr nb = u
  unfold State.streamKeys at hu
  (try generalize (2 : ℕ) ^ 48 = z at hu)
  try dsimp only at hu
  (repeat' split at hu) <;>
    (subst hu
     (try simp only [Prod.ext_iff] at *) <;> (try casesm* _ ∧ _) <;> subst_vars <;>
       first
       | (simp -implicitDefEqProofs (maxDischargeDepth := 8); done)
       | simp_all -implicitDefEqProofs)

@[simp] theorem State.chunkKeys_frame (s : State) (core : ℕ) (st : Stream) (a : List (ℕ × ElAt × ℕ)) :
    (s.chunkKeys core st a).2.2.2.pending = s.pending ∧ (s.chunkKeys core st a).2.2.2.freeCtr = s.freeCtr ∧
    (s.chunkKeys core st a).2.2.2.timeUs = s.timeUs ∧ (s.chunkKeys core st a).2.2.2.core = s.core ∧
    (s.chunkKeys core st a).2.2.2.mx = s.mx ∧ (s.chunkKeys core st a).2.2.2.m.mem = s.m.mem ∧
    (s.chunkKeys core st a).2.2.2.b = s.b ∧ (s.chunkKeys core st a).2.2.2.fab = s.fab ∧
    (s.chunkKeys core st a).2.2.2.sec = s.sec ∧ (s.chunkKeys core st a).2.2.2.j = s.j ∧
    (s.chunkKeys core st a).2.2.2.h = s.h := by
  fun_induction s.chunkKeys core st a <;> (try simp only [Prod.ext_iff] at *) <;> (try casesm* _ ∧
      _) <;> subst_vars <;> simp_all -implicitDefEqProofs

@[simp] theorem State.scaleKeys_frame (s : State) (core : ℕ) (st : Stream) (els : List (ℕ × ElAt × ℕ)) (a : List ℕ)
    : (s.scaleKeys core st els a).2.2.2.pending = s.pending ∧
    (s.scaleKeys core st els a).2.2.2.freeCtr = s.freeCtr ∧ (s.scaleKeys core st els a).2.2.2.timeUs = s.timeUs ∧
    (s.scaleKeys core st els a).2.2.2.core = s.core ∧ (s.scaleKeys core st els a).2.2.2.mx = s.mx ∧
    (s.scaleKeys core st els a).2.2.2.m.mem = s.m.mem ∧ (s.scaleKeys core st els a).2.2.2.b = s.b ∧
    (s.scaleKeys core st els a).2.2.2.fab = s.fab ∧ (s.scaleKeys core st els a).2.2.2.sec = s.sec ∧
    (s.scaleKeys core st els a).2.2.2.j = s.j ∧ (s.scaleKeys core st els a).2.2.2.h = s.h := by
  fun_induction s.scaleKeys core st els a <;> (try simp only [Prod.ext_iff] at *) <;> (try casesm* _ ∧
      _) <;> subst_vars <;> simp_all -implicitDefEqProofs

@[simp] theorem State.rowsKeys_frame (s : State) (core : ℕ) (st : Stream) (a : List (List (ℕ × ElAt × ℕ))) :
    (s.rowsKeys core st a).2.2.2.2.pending = s.pending ∧ (s.rowsKeys core st a).2.2.2.2.freeCtr = s.freeCtr ∧
    (s.rowsKeys core st a).2.2.2.2.timeUs = s.timeUs ∧ (s.rowsKeys core st a).2.2.2.2.core = s.core ∧
    (s.rowsKeys core st a).2.2.2.2.mx = s.mx ∧ (s.rowsKeys core st a).2.2.2.2.m.mem = s.m.mem ∧
    (s.rowsKeys core st a).2.2.2.2.b = s.b ∧ (s.rowsKeys core st a).2.2.2.2.fab = s.fab ∧
    (s.rowsKeys core st a).2.2.2.2.sec = s.sec ∧ (s.rowsKeys core st a).2.2.2.2.j = s.j ∧
    (s.rowsKeys core st a).2.2.2.2.h = s.h := by
  induction a generalizing s with
  | nil => simp [State.rowsKeys]
  | cons b l ih =>
    simp only [State.rowsKeys]
    split <;> simp [ih]

@[simp] theorem State.streamFetch_frame (s : State) (c : ℕ) (q : ℕ) : (s.streamFetch c q).pending = s.pending ∧
    (s.streamFetch c q).freeCtr = s.freeCtr ∧ (s.streamFetch c q).timeUs = s.timeUs ∧ (s.streamFetch c q).b = s.b ∧
    (s.streamFetch c q).fab = s.fab ∧ (s.streamFetch c q).sec = s.sec ∧ (s.streamFetch c q).j = s.j ∧
    (s.streamFetch c q).h = s.h := by
  generalize hu : s.streamFetch c q = u
  unfold State.streamFetch at hu
  dsimp only at hu
  (repeat' split at hu) <;> (subst hu; simp -implicitDefEqProofs (maxDischargeDepth := 8))

@[simp] theorem State.chunkLand_frame (s : State) (core : ℕ) (q : ℕ) : (s.chunkLand core q).pending = s.pending ∧
    (s.chunkLand core q).freeCtr = s.freeCtr ∧ (s.chunkLand core q).timeUs = s.timeUs ∧
    (s.chunkLand core q).regs = s.regs ∧ (s.chunkLand core q).mx = s.mx ∧ (s.chunkLand core q).m.mem = s.m.mem ∧
    (s.chunkLand core q).e = s.e ∧ (s.chunkLand core q).b = s.b ∧ (s.chunkLand core q).fab = s.fab ∧
    (s.chunkLand core q).sec = s.sec ∧ (s.chunkLand core q).j = s.j ∧ (s.chunkLand core q).h = s.h ∧
    (s.chunkLand core q).pm = s.pm := by
  generalize hu : s.chunkLand core q = u
  unfold State.chunkLand at hu
  (repeat' split at hu) <;> (subst hu; simp -implicitDefEqProofs (maxDischargeDepth := 8))

@[simp] theorem State.writeKeys_frame (s : State) (core : ℕ) (st : Stream) (a : List (ℕ × ElAt × ℕ)) :
    (s.writeKeys core st a).2.pending = s.pending ∧ (s.writeKeys core st a).2.freeCtr = s.freeCtr ∧
    (s.writeKeys core st a).2.timeUs = s.timeUs ∧ (s.writeKeys core st a).2.core = s.core ∧
    (s.writeKeys core st a).2.mx = s.mx ∧ (s.writeKeys core st a).2.m.mem = s.m.mem ∧
    (s.writeKeys core st a).2.b = s.b ∧ (s.writeKeys core st a).2.fab = s.fab ∧
    (s.writeKeys core st a).2.sec = s.sec ∧ (s.writeKeys core st a).2.j = s.j ∧
    (s.writeKeys core st a).2.h = s.h := by
  fun_induction s.writeKeys core st a <;> (try simp only [Prod.ext_iff] at *) <;> (try casesm* _ ∧
      _) <;> subst_vars <;> simp_all -implicitDefEqProofs

@[simp] theorem State.setPlane_frame (s : State) (mc : ℕ) (p : ℕ) (v : Plane) :
    (s.setPlane mc p v).pending = s.pending ∧ (s.setPlane mc p v).freeCtr = s.freeCtr ∧
    (s.setPlane mc p v).timeUs = s.timeUs ∧ (s.setPlane mc p v).regs = s.regs ∧ (s.setPlane mc p v).core = s.core ∧
    (s.setPlane mc p v).m = s.m ∧ (s.setPlane mc p v).e = s.e ∧ (s.setPlane mc p v).b = s.b ∧
    (s.setPlane mc p v).fab = s.fab ∧ (s.setPlane mc p v).sec = s.sec ∧ (s.setPlane mc p v).j = s.j ∧
    (s.setPlane mc p v).h = s.h ∧ (s.setPlane mc p v).pm = s.pm := by
  simp -implicitDefEqProofs (maxDischargeDepth := 8) [State.setPlane]

@[simp] theorem State.updMxm_frame (s : State) (x : Mxm) : (s.updMxm x).pending = s.pending ∧
    (s.updMxm x).freeCtr = s.freeCtr ∧ (s.updMxm x).timeUs = s.timeUs ∧ (s.updMxm x).regs = s.regs ∧
    (s.updMxm x).core = s.core ∧ (s.updMxm x).m = s.m ∧ (s.updMxm x).e = s.e ∧ (s.updMxm x).b = s.b ∧
    (s.updMxm x).fab = s.fab ∧ (s.updMxm x).sec = s.sec ∧ (s.updMxm x).j = s.j ∧ (s.updMxm x).h = s.h ∧
    (s.updMxm x).pm = s.pm := by
  simp -implicitDefEqProofs (maxDischargeDepth := 8) [State.updMxm]

@[simp] theorem State.updMldp_frame (s : State) (x : Mldp) : (s.updMldp x).pending = s.pending ∧
    (s.updMldp x).freeCtr = s.freeCtr ∧ (s.updMldp x).timeUs = s.timeUs ∧ (s.updMldp x).regs = s.regs ∧
    (s.updMldp x).core = s.core ∧ (s.updMldp x).m = s.m ∧ (s.updMldp x).e = s.e ∧ (s.updMldp x).b = s.b ∧
    (s.updMldp x).fab = s.fab ∧ (s.updMldp x).sec = s.sec ∧ (s.updMldp x).j = s.j ∧ (s.updMldp x).h = s.h ∧
    (s.updMldp x).pm = s.pm := by
  simp -implicitDefEqProofs (maxDischargeDepth := 8) [State.updMldp]

@[simp] theorem State.dropMxm_frame (s : State) (mc : ℕ) (id : ℕ) : (s.dropMxm mc id).pending = s.pending ∧
    (s.dropMxm mc id).freeCtr = s.freeCtr ∧ (s.dropMxm mc id).timeUs = s.timeUs ∧ (s.dropMxm mc id).regs = s.regs ∧
    (s.dropMxm mc id).m = s.m ∧ (s.dropMxm mc id).e = s.e ∧ (s.dropMxm mc id).b = s.b ∧
    (s.dropMxm mc id).fab = s.fab ∧ (s.dropMxm mc id).sec = s.sec ∧ (s.dropMxm mc id).j = s.j ∧
    (s.dropMxm mc id).h = s.h ∧ (s.dropMxm mc id).pm = s.pm := by
  simp -implicitDefEqProofs (maxDischargeDepth := 8) [State.dropMxm]

@[simp] theorem State.dropMldp_frame (s : State) (id : ℕ) : (s.dropMldp id).pending = s.pending ∧
    (s.dropMldp id).freeCtr = s.freeCtr ∧ (s.dropMldp id).timeUs = s.timeUs ∧ (s.dropMldp id).regs = s.regs ∧
    (s.dropMldp id).core = s.core ∧ (s.dropMldp id).m = s.m ∧ (s.dropMldp id).e = s.e ∧ (s.dropMldp id).b = s.b ∧
    (s.dropMldp id).fab = s.fab ∧ (s.dropMldp id).sec = s.sec ∧ (s.dropMldp id).j = s.j ∧ (s.dropMldp id).h = s.h ∧
    (s.dropMldp id).pm = s.pm := by
  simp -implicitDefEqProofs (maxDischargeDepth := 8) [State.dropMldp]

@[simp] theorem State.takeRows_frame (s : State) (mc : ℕ) (q : ℕ) (k : ℕ) (a : ℕ) :
    (s.takeRows mc q k a).2.2.pending = s.pending ∧ (s.takeRows mc q k a).2.2.freeCtr = s.freeCtr ∧
    (s.takeRows mc q k a).2.2.timeUs = s.timeUs ∧ (s.takeRows mc q k a).2.2.regs = s.regs ∧
    (s.takeRows mc q k a).2.2.mx = s.mx ∧ (s.takeRows mc q k a).2.2.m = s.m ∧ (s.takeRows mc q k a).2.2.e = s.e ∧
    (s.takeRows mc q k a).2.2.b = s.b ∧ (s.takeRows mc q k a).2.2.fab = s.fab ∧
    (s.takeRows mc q k a).2.2.sec = s.sec ∧ (s.takeRows mc q k a).2.2.j = s.j ∧ (s.takeRows mc q k a).2.2.h = s.h ∧
    (s.takeRows mc q k a).2.2.pm = s.pm := by
  fun_induction s.takeRows mc q k a <;> simp_all -implicitDefEqProofs +zetaDelta

@[simp] theorem State.feedSrc_frame (s : State) (mc : ℕ) (id : ℕ) (k : ℕ) (src : Src) (rows : List (List OpEl)) :
    (s.feedSrc mc id k src rows).2.2.pending = s.pending ∧ (s.feedSrc mc id k src rows).2.2.freeCtr = s.freeCtr ∧
    (s.feedSrc mc id k src rows).2.2.timeUs = s.timeUs ∧ (s.feedSrc mc id k src rows).2.2.regs = s.regs ∧
    (s.feedSrc mc id k src rows).2.2.mx = s.mx ∧ (s.feedSrc mc id k src rows).2.2.m = s.m ∧
    (s.feedSrc mc id k src rows).2.2.e = s.e ∧ (s.feedSrc mc id k src rows).2.2.b = s.b ∧
    (s.feedSrc mc id k src rows).2.2.fab = s.fab ∧ (s.feedSrc mc id k src rows).2.2.sec = s.sec ∧
    (s.feedSrc mc id k src rows).2.2.j = s.j ∧ (s.feedSrc mc id k src rows).2.2.h = s.h ∧
    (s.feedSrc mc id k src rows).2.2.pm = s.pm := by
  generalize hu : s.feedSrc mc id k src rows = u
  unfold State.feedSrc at hu
  dsimp only at hu
  (repeat' split at hu) <;> (subst hu; simp -implicitDefEqProofs (maxDischargeDepth := 8))

@[simp] theorem State.feedMxm_frame (s : State) (id : ℕ) : (s.feedMxm id).pending = s.pending ∧
    (s.feedMxm id).freeCtr = s.freeCtr ∧ (s.feedMxm id).timeUs = s.timeUs ∧ (s.feedMxm id).regs = s.regs ∧
    (s.feedMxm id).m = s.m ∧ (s.feedMxm id).e = s.e ∧ (s.feedMxm id).b = s.b ∧ (s.feedMxm id).fab = s.fab ∧
    (s.feedMxm id).sec = s.sec ∧ (s.feedMxm id).j = s.j ∧ (s.feedMxm id).h = s.h ∧ (s.feedMxm id).pm = s.pm := by
  generalize hu : s.feedMxm id = u
  unfold State.feedMxm at hu
  dsimp only at hu
  (repeat' split at hu) <;> (subst hu; simp -implicitDefEqProofs (maxDischargeDepth := 8))

@[simp] theorem State.feedMldp_frame (s : State) (id : ℕ) : (s.feedMldp id).pending = s.pending ∧
    (s.feedMldp id).freeCtr = s.freeCtr ∧ (s.feedMldp id).timeUs = s.timeUs ∧ (s.feedMldp id).regs = s.regs ∧
    (s.feedMldp id).m = s.m ∧ (s.feedMldp id).e = s.e ∧ (s.feedMldp id).b = s.b ∧ (s.feedMldp id).fab = s.fab ∧
    (s.feedMldp id).sec = s.sec ∧ (s.feedMldp id).j = s.j ∧ (s.feedMldp id).h = s.h ∧ (s.feedMldp id).pm = s.pm := by
  generalize hu : s.feedMldp id = u
  unfold State.feedMldp at hu
  dsimp only at hu
  (repeat' split at hu) <;> (subst hu; simp -implicitDefEqProofs (maxDischargeDepth := 8))

@[simp] theorem State.feedEngine_frame (s : State) (mc : ℕ) : (s.feedEngine mc).pending = s.pending ∧
    (s.feedEngine mc).freeCtr = s.freeCtr ∧ (s.feedEngine mc).timeUs = s.timeUs ∧ (s.feedEngine mc).regs = s.regs ∧
    (s.feedEngine mc).m = s.m ∧ (s.feedEngine mc).e = s.e ∧ (s.feedEngine mc).b = s.b ∧
    (s.feedEngine mc).fab = s.fab ∧ (s.feedEngine mc).sec = s.sec ∧ (s.feedEngine mc).j = s.j ∧
    (s.feedEngine mc).h = s.h ∧ (s.feedEngine mc).pm = s.pm := by
  simp -implicitDefEqProofs (maxDischargeDepth := 8) [State.feedEngine]

@[simp] theorem State.kickMldp_frame (s : State) (mc : ℕ) : (s.kickMldp mc).pending = s.pending ∧
    (s.kickMldp mc).freeCtr = s.freeCtr ∧ (s.kickMldp mc).timeUs = s.timeUs ∧ (s.kickMldp mc).regs = s.regs ∧
    (s.kickMldp mc).m = s.m ∧ (s.kickMldp mc).e = s.e ∧ (s.kickMldp mc).b = s.b ∧ (s.kickMldp mc).fab = s.fab ∧
    (s.kickMldp mc).sec = s.sec ∧ (s.kickMldp mc).j = s.j ∧ (s.kickMldp mc).h = s.h ∧ (s.kickMldp mc).pm = s.pm := by
  generalize hu : s.kickMldp mc = u
  unfold State.kickMldp at hu
  dsimp only at hu
  (repeat' split at hu) <;> (subst hu; simp -implicitDefEqProofs (maxDischargeDepth := 8))

@[simp] theorem State.fixK_frame (s : State) (core : ℕ) (r : ℕ) (k : ℕ) (isStream : Bool) :
    (s.fixK core r k isStream).pending = s.pending ∧ (s.fixK core r k isStream).freeCtr = s.freeCtr ∧
    (s.fixK core r k isStream).timeUs = s.timeUs ∧ (s.fixK core r k isStream).regs = s.regs ∧
    (s.fixK core r k isStream).mx = s.mx ∧ (s.fixK core r k isStream).m = s.m ∧
    (s.fixK core r k isStream).e = s.e ∧ (s.fixK core r k isStream).b = s.b ∧
    (s.fixK core r k isStream).fab = s.fab ∧ (s.fixK core r k isStream).sec = s.sec ∧
    (s.fixK core r k isStream).j = s.j ∧ (s.fixK core r k isStream).h = s.h ∧
    (s.fixK core r k isStream).pm = s.pm := by
  simp -implicitDefEqProofs (maxDischargeDepth := 8) [State.fixK]

@[simp] theorem State.predict_frame (s : State) (core : ℕ) (f : Fields) :
    (s.predict core f).2.2.pending = s.pending ∧ (s.predict core f).2.2.freeCtr = s.freeCtr ∧
    (s.predict core f).2.2.timeUs = s.timeUs ∧ (s.predict core f).2.2.regs = s.regs ∧
    (s.predict core f).2.2.mx = s.mx ∧ (s.predict core f).2.2.m = s.m ∧ (s.predict core f).2.2.e = s.e ∧
    (s.predict core f).2.2.b = s.b ∧ (s.predict core f).2.2.fab = s.fab ∧ (s.predict core f).2.2.sec = s.sec ∧
    (s.predict core f).2.2.j = s.j ∧ (s.predict core f).2.2.h = s.h ∧ (s.predict core f).2.2.pm = s.pm := by
  generalize hu : s.predict core f = u
  unfold State.predict at hu
  dsimp only at hu
  (repeat' split at hu) <;> (subst hu; simp -implicitDefEqProofs (maxDischargeDepth := 8))

@[simp] theorem State.claimBand_frame (s : State) (core : ℕ) (f : Fields) (b : ℕ) :
    (s.claimBand core f b).pending = s.pending ∧ (s.claimBand core f b).freeCtr = s.freeCtr ∧
    (s.claimBand core f b).timeUs = s.timeUs ∧ (s.claimBand core f b).regs = s.regs ∧
    (s.claimBand core f b).core = s.core ∧ (s.claimBand core f b).m = s.m ∧ (s.claimBand core f b).e = s.e ∧
    (s.claimBand core f b).b = s.b ∧ (s.claimBand core f b).fab = s.fab ∧ (s.claimBand core f b).sec = s.sec ∧
    (s.claimBand core f b).j = s.j ∧ (s.claimBand core f b).h = s.h ∧ (s.claimBand core f b).pm = s.pm := by
  simp -implicitDefEqProofs (maxDischargeDepth := 8) [State.claimBand]

@[simp] theorem State.mxmStart_frame (s : State) (mc : ℕ) : (s.mxmStart mc).pending = s.pending ∧
    (s.mxmStart mc).freeCtr = s.freeCtr ∧ (s.mxmStart mc).timeUs = s.timeUs ∧ (s.mxmStart mc).regs = s.regs ∧
    (s.mxmStart mc).m = s.m ∧ (s.mxmStart mc).e = s.e ∧ (s.mxmStart mc).b = s.b ∧ (s.mxmStart mc).fab = s.fab ∧
    (s.mxmStart mc).sec = s.sec ∧ (s.mxmStart mc).j = s.j ∧ (s.mxmStart mc).h = s.h ∧ (s.mxmStart mc).pm = s.pm := by
  generalize hu : s.mxmStart mc = u
  unfold State.mxmStart at hu
  (repeat' split at hu) <;> (subst hu; simp -implicitDefEqProofs (maxDischargeDepth := 8))

@[simp] theorem State.writeAcc_frame (s : State) (mc : ℕ) (off : ℕ) (size : ℕ) (rows : List (List ℕ)) :
    (s.writeAcc mc off size rows).pending = s.pending ∧ (s.writeAcc mc off size rows).freeCtr = s.freeCtr ∧
    (s.writeAcc mc off size rows).timeUs = s.timeUs ∧ (s.writeAcc mc off size rows).regs = s.regs ∧
    (s.writeAcc mc off size rows).core = s.core ∧ (s.writeAcc mc off size rows).mx = s.mx ∧
    (s.writeAcc mc off size rows).e = s.e ∧ (s.writeAcc mc off size rows).b = s.b ∧
    (s.writeAcc mc off size rows).fab = s.fab ∧ (s.writeAcc mc off size rows).sec = s.sec ∧
    (s.writeAcc mc off size rows).j = s.j ∧ (s.writeAcc mc off size rows).h = s.h ∧
    (s.writeAcc mc off size rows).pm = s.pm := by
  simp -implicitDefEqProofs (maxDischargeDepth := 8) [State.writeAcc]

@[simp] theorem State.computeBand_frame (s : State) (x : Mxm) (b : ℕ) : (s.computeBand x b).pending = s.pending ∧
    (s.computeBand x b).timeUs = s.timeUs ∧ (s.computeBand x b).regs = s.regs ∧ (s.computeBand x b).core = s.core ∧
    (s.computeBand x b).e = s.e ∧ (s.computeBand x b).b = s.b ∧ (s.computeBand x b).fab = s.fab ∧
    (s.computeBand x b).sec = s.sec ∧ (s.computeBand x b).j = s.j ∧ (s.computeBand x b).h = s.h ∧
    (s.computeBand x b).pm = s.pm := by
  generalize hu : s.computeBand x b = u
  unfold State.computeBand at hu
  (repeat' split at hu) <;> (subst hu; simp -implicitDefEqProofs (maxDischargeDepth := 8))

@[simp] theorem State.auditMxm_frame (s : State) (x : Mxm) : (s.auditMxm x).pending = s.pending ∧
    (s.auditMxm x).freeCtr = s.freeCtr ∧ (s.auditMxm x).timeUs = s.timeUs ∧ (s.auditMxm x).core = s.core ∧
    (s.auditMxm x).mx = s.mx ∧ (s.auditMxm x).m = s.m ∧ (s.auditMxm x).e = s.e ∧ (s.auditMxm x).b = s.b ∧
    (s.auditMxm x).fab = s.fab ∧ (s.auditMxm x).sec = s.sec ∧ (s.auditMxm x).j = s.j ∧ (s.auditMxm x).h = s.h ∧
    (s.auditMxm x).pm = s.pm := by
  generalize hu : s.auditMxm x = u
  unfold State.auditMxm at hu
  (repeat' split at hu) <;> (subst hu; simp -implicitDefEqProofs (maxDischargeDepth := 8))

@[simp] theorem State.computeMxm_frame (s : State) (x : Mxm) : (s.computeMxm x).pending = s.pending ∧
    (s.computeMxm x).timeUs = s.timeUs ∧ (s.computeMxm x).core = s.core ∧ (s.computeMxm x).e = s.e ∧
    (s.computeMxm x).b = s.b ∧ (s.computeMxm x).fab = s.fab ∧ (s.computeMxm x).sec = s.sec ∧
    (s.computeMxm x).j = s.j ∧ (s.computeMxm x).h = s.h ∧ (s.computeMxm x).pm = s.pm := by
  simp -implicitDefEqProofs (maxDischargeDepth := 8) [State.computeMxm]

@[simp] theorem State.computeTo_frame (s : State) (id : ℕ) (a : List Mxm) :
    (s.computeTo id a).2.pending = s.pending ∧ (s.computeTo id a).2.timeUs = s.timeUs ∧
    (s.computeTo id a).2.core = s.core ∧ (s.computeTo id a).2.e = s.e ∧ (s.computeTo id a).2.b = s.b ∧
    (s.computeTo id a).2.fab = s.fab ∧ (s.computeTo id a).2.sec = s.sec ∧ (s.computeTo id a).2.j = s.j ∧
    (s.computeTo id a).2.h = s.h ∧ (s.computeTo id a).2.pm = s.pm := by
  fun_induction s.computeTo id a <;> simp_all -implicitDefEqProofs

@[simp] theorem State.mxmFinish_frame (s : State) (mc : ℕ) : (s.mxmFinish mc).pending = s.pending ∧
    (s.mxmFinish mc).timeUs = s.timeUs ∧ (s.mxmFinish mc).e = s.e ∧ (s.mxmFinish mc).b = s.b ∧
    (s.mxmFinish mc).fab = s.fab ∧ (s.mxmFinish mc).sec = s.sec ∧ (s.mxmFinish mc).j = s.j ∧
    (s.mxmFinish mc).h = s.h ∧ (s.mxmFinish mc).pm = s.pm := by
  generalize hu : s.mxmFinish mc = u
  unfold State.mxmFinish at hu
  (try generalize (2 : ℕ) ^ 48 = z at hu)
  try dsimp only at hu
  (repeat' split at hu) <;>
    (subst hu
     (try simp only [Prod.ext_iff] at *) <;> (try casesm* _ ∧ _) <;> subst_vars <;>
       first
       | (simp -implicitDefEqProofs (maxDischargeDepth := 8); done)
       | simp_all -implicitDefEqProofs)

@[simp] theorem State.keepStreams_frame (s : State) (core : ℕ) : (s.keepStreams core).pending = s.pending ∧
    (s.keepStreams core).freeCtr = s.freeCtr ∧ (s.keepStreams core).timeUs = s.timeUs ∧
    (s.keepStreams core).regs = s.regs ∧ (s.keepStreams core).m.mem = s.m.mem ∧ (s.keepStreams core).e = s.e ∧
    (s.keepStreams core).b = s.b ∧ (s.keepStreams core).fab = s.fab ∧ (s.keepStreams core).sec = s.sec ∧
    (s.keepStreams core).j = s.j ∧ (s.keepStreams core).h = s.h ∧ (s.keepStreams core).pm = s.pm := by
  simp -implicitDefEqProofs (maxDischargeDepth := 8) [State.keepStreams]

@[simp] theorem State.forgetTask_frame (s : State) (core : ℕ) : (s.forgetTask core).pending = s.pending ∧
    (s.forgetTask core).timeUs = s.timeUs ∧ (s.forgetTask core).e = s.e ∧ (s.forgetTask core).fab = s.fab ∧
    (s.forgetTask core).sec = s.sec ∧ (s.forgetTask core).j = s.j ∧ (s.forgetTask core).h = s.h ∧
    (s.forgetTask core).pm = s.pm := by
  simp -implicitDefEqProofs (maxDischargeDepth := 8) [State.forgetTask]

@[simp] theorem State.launch_frame (s : State) (core : ℕ) : (s.launch core).pending = s.pending ∧
    (s.launch core).timeUs = s.timeUs ∧ (s.launch core).fab = s.fab ∧ (s.launch core).sec = s.sec ∧
    (s.launch core).j = s.j ∧ (s.launch core).h = s.h := by
  simp -implicitDefEqProofs (maxDischargeDepth := 8) [State.launch]

@[simp] theorem State.countCycles_frame (s : State) (n : ℕ) (core : ℕ) :
    (s.countCycles n core).pending = s.pending ∧ (s.countCycles n core).freeCtr = s.freeCtr ∧
    (s.countCycles n core).timeUs = s.timeUs ∧ (s.countCycles n core).core = s.core ∧
    (s.countCycles n core).mx = s.mx ∧ (s.countCycles n core).m = s.m ∧ (s.countCycles n core).e = s.e ∧
    (s.countCycles n core).b = s.b ∧ (s.countCycles n core).fab = s.fab ∧ (s.countCycles n core).sec = s.sec ∧
    (s.countCycles n core).j = s.j ∧ (s.countCycles n core).h = s.h ∧ (s.countCycles n core).pm = s.pm := by
  simp -implicitDefEqProofs (maxDischargeDepth := 8) [State.countCycles]

@[simp] theorem State.takeBarge_frame (s : State) (core : ℕ) (t : ℕ) (dst : ℕ) (off : ℕ) (tile : Tile) :
    (s.takeBarge core t dst off tile).pending = s.pending ∧ (s.takeBarge core t dst off tile).freeCtr = s.freeCtr ∧
    (s.takeBarge core t dst off tile).timeUs = s.timeUs ∧ (s.takeBarge core t dst off tile).regs = s.regs ∧
    (s.takeBarge core t dst off tile).e = s.e ∧ (s.takeBarge core t dst off tile).b = s.b ∧
    (s.takeBarge core t dst off tile).fab = s.fab ∧ (s.takeBarge core t dst off tile).sec = s.sec ∧
    (s.takeBarge core t dst off tile).j = s.j ∧ (s.takeBarge core t dst off tile).h = s.h ∧
    (s.takeBarge core t dst off tile).pm = s.pm := by
  simp -implicitDefEqProofs (maxDischargeDepth := 8) [State.takeBarge]

@[simp] theorem State.serveTake_frame (s : State) (mc : ℕ) : (s.serveTake mc).pending = s.pending ∧
    (s.serveTake mc).freeCtr = s.freeCtr ∧ (s.serveTake mc).timeUs = s.timeUs ∧ (s.serveTake mc).regs = s.regs ∧
    (s.serveTake mc).e = s.e ∧ (s.serveTake mc).b = s.b ∧ (s.serveTake mc).fab = s.fab ∧
    (s.serveTake mc).sec = s.sec ∧ (s.serveTake mc).j = s.j ∧ (s.serveTake mc).h = s.h ∧
    (s.serveTake mc).pm = s.pm := by
  generalize hu : s.serveTake mc = u
  unfold State.serveTake at hu
  (repeat' split at hu) <;> (subst hu; simp -implicitDefEqProofs (maxDischargeDepth := 8))

@[simp] theorem State.postTile_frame (s : State) (x : Mxm) (band : ℕ) : (s.postTile x band).pending = s.pending ∧
    (s.postTile x band).freeCtr = s.freeCtr ∧ (s.postTile x band).timeUs = s.timeUs ∧
    (s.postTile x band).regs = s.regs ∧ (s.postTile x band).e = s.e ∧ (s.postTile x band).b = s.b ∧
    (s.postTile x band).fab = s.fab ∧ (s.postTile x band).sec = s.sec ∧ (s.postTile x band).j = s.j ∧
    (s.postTile x band).h = s.h ∧ (s.postTile x band).pm = s.pm := by
  generalize hu : s.postTile x band = u
  unfold State.postTile at hu
  (repeat' split at hu) <;> (subst hu; simp -implicitDefEqProofs (maxDischargeDepth := 8))

@[simp] theorem State.bargePost_frame (s : State) (mc : ℕ) : (s.bargePost mc).pending = s.pending ∧
    (s.bargePost mc).timeUs = s.timeUs ∧ (s.bargePost mc).b = s.b ∧ (s.bargePost mc).fab = s.fab ∧
    (s.bargePost mc).sec = s.sec ∧ (s.bargePost mc).j = s.j ∧ (s.bargePost mc).h = s.h := by
  generalize hu : s.bargePost mc = u
  unfold State.bargePost at hu
  (try generalize (2 : ℕ) ^ 48 = z at hu)
  try dsimp only at hu
  (repeat' split at hu) <;>
    (subst hu
     (try simp only [Prod.ext_iff] at *)
     (try casesm* _ ∧ _)
     subst_vars
     first
     | (simp -implicitDefEqProofs (maxDischargeDepth := 8); done)
     | simp_all -implicitDefEqProofs)

@[simp] theorem State.arrayFault_frame (s : State) (mc : ℕ) : (s.arrayFault mc).pending = s.pending ∧
    (s.arrayFault mc).freeCtr = s.freeCtr ∧ (s.arrayFault mc).timeUs = s.timeUs ∧ (s.arrayFault mc).m = s.m ∧
    (s.arrayFault mc).b = s.b ∧ (s.arrayFault mc).fab = s.fab ∧ (s.arrayFault mc).sec = s.sec ∧
    (s.arrayFault mc).j = s.j ∧ (s.arrayFault mc).h = s.h := by
  simp -implicitDefEqProofs (maxDischargeDepth := 8) [State.arrayFault]

@[simp] theorem State.planeDone_frame (s : State) (mc : ℕ) (p : ℕ) : (s.planeDone mc p).pending = s.pending ∧
    (s.planeDone mc p).freeCtr = s.freeCtr ∧ (s.planeDone mc p).timeUs = s.timeUs ∧
    (s.planeDone mc p).regs = s.regs ∧ (s.planeDone mc p).m = s.m ∧ (s.planeDone mc p).e = s.e ∧
    (s.planeDone mc p).b = s.b ∧ (s.planeDone mc p).fab = s.fab ∧ (s.planeDone mc p).sec = s.sec ∧
    (s.planeDone mc p).j = s.j ∧ (s.planeDone mc p).h = s.h ∧ (s.planeDone mc p).pm = s.pm := by
  generalize hu : s.planeDone mc p = u
  unfold State.planeDone at hu
  (repeat' split at hu) <;> (subst hu; simp -implicitDefEqProofs (maxDischargeDepth := 8))

@[simp] theorem State.gathKeys_frame (s : State) (core : ℕ) (g : Gath) (a : List (ℕ × ℕ)) :
    (s.gathKeys core g a).2.2.pending = s.pending ∧ (s.gathKeys core g a).2.2.freeCtr = s.freeCtr ∧
    (s.gathKeys core g a).2.2.timeUs = s.timeUs ∧ (s.gathKeys core g a).2.2.core = s.core ∧
    (s.gathKeys core g a).2.2.mx = s.mx ∧ (s.gathKeys core g a).2.2.m.mem = s.m.mem ∧
    (s.gathKeys core g a).2.2.b = s.b ∧ (s.gathKeys core g a).2.2.fab = s.fab ∧
    (s.gathKeys core g a).2.2.sec = s.sec ∧ (s.gathKeys core g a).2.2.j = s.j ∧
    (s.gathKeys core g a).2.2.h = s.h := by
  fun_induction s.gathKeys core g a <;> (try simp only [Prod.ext_iff] at *) <;> (try casesm* _ ∧
      _) <;> subst_vars <;> simp_all -implicitDefEqProofs

@[simp] theorem State.gathRow_frame (s : State) (core : ℕ) (t : ℕ) (master : ℕ) (key : ℕ) (pitch : ℕ) (keys : List
    ℕ) : (s.gathRow core t master key pitch keys).pending = s.pending ∧
    (s.gathRow core t master key pitch keys).freeCtr = s.freeCtr ∧
    (s.gathRow core t master key pitch keys).timeUs = s.timeUs ∧ (s.gathRow core t master key pitch keys).b = s.b ∧
    (s.gathRow core t master key pitch keys).fab = s.fab ∧ (s.gathRow core t master key pitch keys).sec = s.sec ∧
    (s.gathRow core t master key pitch keys).j = s.j ∧ (s.gathRow core t master key pitch keys).h = s.h := by
  simp -implicitDefEqProofs (maxDischargeDepth := 8) [State.gathRow]

@[simp] theorem State.gathGo_frame (s : State) (core : ℕ) (t : ℕ) (dst : ℕ) (g : Gath) (rows : List (ℕ × List ℕ)) :
    (s.gathGo core t dst g rows).pending = s.pending ∧ (s.gathGo core t dst g rows).freeCtr = s.freeCtr ∧
    (s.gathGo core t dst g rows).timeUs = s.timeUs ∧ (s.gathGo core t dst g rows).b = s.b ∧
    (s.gathGo core t dst g rows).fab = s.fab ∧ (s.gathGo core t dst g rows).sec = s.sec ∧
    (s.gathGo core t dst g rows).j = s.j ∧ (s.gathGo core t dst g rows).h = s.h := by
  simp -implicitDefEqProofs (maxDischargeDepth := 8) [State.gathGo]

@[simp] theorem State.gathKeep_frame (s : State) (key : ℕ) (pitch : ℕ) (keys : List ℕ) :
    (s.gathKeep key pitch keys).pending = s.pending ∧ (s.gathKeep key pitch keys).timeUs = s.timeUs ∧
    (s.gathKeep key pitch keys).b = s.b ∧ (s.gathKeep key pitch keys).fab = s.fab ∧
    (s.gathKeep key pitch keys).sec = s.sec ∧ (s.gathKeep key pitch keys).j = s.j ∧
    (s.gathKeep key pitch keys).h = s.h := by
  generalize hu : s.gathKeep key pitch keys = u
  unfold State.gathKeep at hu
  (try generalize (2 : ℕ) ^ 48 = z at hu)
  try dsimp only at hu
  (repeat' split at hu) <;>
    (subst hu
     (try simp only [Prod.ext_iff] at *)
     (try casesm* _ ∧ _)
     subst_vars
     first
     | (simp -implicitDefEqProofs (maxDischargeDepth := 8); done)
     | simp_all -implicitDefEqProofs)

@[simp] theorem State.gathStop_frame (s : State) (core : ℕ) (g : Gath) (rows : List (ℕ × List ℕ)) :
    (s.gathStop core g rows).pending = s.pending ∧ (s.gathStop core g rows).timeUs = s.timeUs ∧
    (s.gathStop core g rows).b = s.b ∧ (s.gathStop core g rows).fab = s.fab ∧
    (s.gathStop core g rows).sec = s.sec ∧ (s.gathStop core g rows).j = s.j ∧ (s.gathStop core g rows).h = s.h := by
  simp -implicitDefEqProofs (maxDischargeDepth := 8) [State.gathStop]

@[simp] theorem State.askOwn_frame (s : State) (x : BCmd) (write : Bool) (cells : List (ℕ × Byte)) :
    (s.askOwn x write cells).pending = s.pending ∧ (s.askOwn x write cells).freeCtr = s.freeCtr ∧
    (s.askOwn x write cells).timeUs = s.timeUs ∧ (s.askOwn x write cells).regs = s.regs ∧
    (s.askOwn x write cells).core = s.core ∧ (s.askOwn x write cells).mx = s.mx ∧
    (s.askOwn x write cells).m.mem = s.m.mem ∧ (s.askOwn x write cells).e = s.e ∧
    (s.askOwn x write cells).b = s.b ∧ (s.askOwn x write cells).fab = s.fab ∧
    (s.askOwn x write cells).sec = s.sec ∧ (s.askOwn x write cells).j = s.j ∧ (s.askOwn x write cells).h = s.h ∧
    (s.askOwn x write cells).pm = s.pm := by
  simp -implicitDefEqProofs (maxDischargeDepth := 8) [State.askOwn]

@[simp] theorem State.askRow_frame (s : State) (st : ℕ) (id : ℕ) (write : Bool) (sl : Slot) (row : ℕ) (off : ℕ)
    (len : ℕ) : (s.askRow st id write sl row off len).pending = s.pending ∧
    (s.askRow st id write sl row off len).freeCtr = s.freeCtr ∧
    (s.askRow st id write sl row off len).timeUs = s.timeUs ∧ (s.askRow st id write sl row off len).regs = s.regs ∧
    (s.askRow st id write sl row off len).core = s.core ∧ (s.askRow st id write sl row off len).mx = s.mx ∧
    (s.askRow st id write sl row off len).m.mem = s.m.mem ∧ (s.askRow st id write sl row off len).e = s.e ∧
    (s.askRow st id write sl row off len).b = s.b ∧ (s.askRow st id write sl row off len).fab = s.fab ∧
    (s.askRow st id write sl row off len).sec = s.sec ∧ (s.askRow st id write sl row off len).j = s.j ∧
    (s.askRow st id write sl row off len).h = s.h ∧ (s.askRow st id write sl row off len).pm = s.pm := by
  simp -implicitDefEqProofs (maxDischargeDepth := 8) [State.askRow]

@[simp] theorem State.askLoad_frame (s : State) (x : BCmd) (sl : Slot) (row : ℕ) (i : ℕ) :
    (s.askLoad x sl row i).pending = s.pending ∧ (s.askLoad x sl row i).freeCtr = s.freeCtr ∧
    (s.askLoad x sl row i).timeUs = s.timeUs ∧ (s.askLoad x sl row i).regs = s.regs ∧
    (s.askLoad x sl row i).core = s.core ∧ (s.askLoad x sl row i).mx = s.mx ∧
    (s.askLoad x sl row i).m.mem = s.m.mem ∧ (s.askLoad x sl row i).e = s.e ∧ (s.askLoad x sl row i).b = s.b ∧
    (s.askLoad x sl row i).fab = s.fab ∧ (s.askLoad x sl row i).sec = s.sec ∧ (s.askLoad x sl row i).j = s.j ∧
    (s.askLoad x sl row i).h = s.h ∧ (s.askLoad x sl row i).pm = s.pm := by
  simp -implicitDefEqProofs (maxDischargeDepth := 8) [State.askLoad]

@[simp] theorem State.updCmd_frame (s : State) (x : BCmd) : (s.updCmd x).pending = s.pending ∧
    (s.updCmd x).freeCtr = s.freeCtr ∧ (s.updCmd x).timeUs = s.timeUs ∧ (s.updCmd x).regs = s.regs ∧
    (s.updCmd x).core = s.core ∧ (s.updCmd x).mx = s.mx ∧ (s.updCmd x).m = s.m ∧ (s.updCmd x).e = s.e ∧
    (s.updCmd x).fab = s.fab ∧ (s.updCmd x).sec = s.sec ∧ (s.updCmd x).j = s.j ∧ (s.updCmd x).h = s.h ∧
    (s.updCmd x).pm = s.pm := by
  simp -implicitDefEqProofs (maxDischargeDepth := 8) [State.updCmd]

@[simp] theorem State.sampleLoad_frame (s : State) (st : ℕ) (t : ℕ) (row : ℕ) (rows : ℕ) (n : ℕ) :
    (s.sampleLoad st t row rows n).pending = s.pending ∧ (s.sampleLoad st t row rows n).freeCtr = s.freeCtr ∧
    (s.sampleLoad st t row rows n).timeUs = s.timeUs ∧ (s.sampleLoad st t row rows n).b = s.b ∧
    (s.sampleLoad st t row rows n).fab = s.fab ∧ (s.sampleLoad st t row rows n).sec = s.sec ∧
    (s.sampleLoad st t row rows n).j = s.j ∧ (s.sampleLoad st t row rows n).h = s.h := by
  simp -implicitDefEqProofs (maxDischargeDepth := 8) [State.sampleLoad]

@[simp] theorem State.countLoad_frame (s : State) (st : ℕ) (t : ℕ) (row : ℕ) (rows : ℕ) :
    (s.countLoad st t row rows).pending = s.pending ∧ (s.countLoad st t row rows).freeCtr = s.freeCtr ∧
    (s.countLoad st t row rows).timeUs = s.timeUs ∧ (s.countLoad st t row rows).fab = s.fab ∧
    (s.countLoad st t row rows).sec = s.sec ∧ (s.countLoad st t row rows).j = s.j ∧
    (s.countLoad st t row rows).h = s.h := by
  simp -implicitDefEqProofs (maxDischargeDepth := 8) [State.countLoad]

@[simp] theorem State.countInvalid_frame (s : State) (st : ℕ) (t : ℕ) (pos : ℕ) (tensor : ℕ) :
    (s.countInvalid st t pos tensor).pending = s.pending ∧ (s.countInvalid st t pos tensor).freeCtr = s.freeCtr ∧
    (s.countInvalid st t pos tensor).timeUs = s.timeUs ∧ (s.countInvalid st t pos tensor).core = s.core ∧
    (s.countInvalid st t pos tensor).mx = s.mx ∧ (s.countInvalid st t pos tensor).m = s.m ∧
    (s.countInvalid st t pos tensor).e = s.e ∧ (s.countInvalid st t pos tensor).b = s.b ∧
    (s.countInvalid st t pos tensor).fab = s.fab ∧ (s.countInvalid st t pos tensor).sec = s.sec ∧
    (s.countInvalid st t pos tensor).j = s.j ∧ (s.countInvalid st t pos tensor).h = s.h ∧
    (s.countInvalid st t pos tensor).pm = s.pm := by
  simp -implicitDefEqProofs (maxDischargeDepth := 8) [State.countInvalid]

@[simp] theorem State.readRow_frame (s : State) (st : ℕ) (t : ℕ) (sl : Slot) (row : ℕ) (off : ℕ) (len : ℕ) :
    (s.readRow st t sl row off len).2.pending = s.pending ∧ (s.readRow st t sl row off len).2.freeCtr = s.freeCtr ∧
    (s.readRow st t sl row off len).2.timeUs = s.timeUs ∧ (s.readRow st t sl row off len).2.fab = s.fab ∧
    (s.readRow st t sl row off len).2.sec = s.sec ∧ (s.readRow st t sl row off len).2.j = s.j ∧
    (s.readRow st t sl row off len).2.h = s.h := by
  generalize hu : s.readRow st t sl row off len = u
  unfold State.readRow at hu
  (try generalize (2 : ℕ) ^ 48 = z at hu)
  try dsimp only at hu
  (repeat' split at hu) <;>
    (subst hu
     (try simp only [Prod.ext_iff] at *) <;> (try casesm* _ ∧ _) <;> subst_vars <;>
       first
       | (simp -implicitDefEqProofs (maxDischargeDepth := 8); done)
       | simp_all -implicitDefEqProofs)

@[simp] theorem State.readRows_frame (s : State) (x : BCmd) (sl : Slot) (a : List (ℕ × ℕ)) :
    (s.readRows x sl a).2.pending = s.pending ∧ (s.readRows x sl a).2.freeCtr = s.freeCtr ∧
    (s.readRows x sl a).2.timeUs = s.timeUs ∧ (s.readRows x sl a).2.fab = s.fab ∧
    (s.readRows x sl a).2.sec = s.sec ∧ (s.readRows x sl a).2.j = s.j ∧ (s.readRows x sl a).2.h = s.h := by
  fun_induction s.readRows x sl a <;> (try simp only [Prod.ext_iff] at *) <;> (try casesm* _ ∧
      _) <;> subst_vars <;> simp_all -implicitDefEqProofs

@[simp] theorem State.cmdDone_frame (s : State) (x : BCmd) (d : Option BDone) :
    (s.cmdDone x d).pending = s.pending ∧ (s.cmdDone x d).freeCtr = s.freeCtr ∧ (s.cmdDone x d).timeUs = s.timeUs ∧
    (s.cmdDone x d).regs = s.regs ∧ (s.cmdDone x d).core = s.core ∧ (s.cmdDone x d).mx = s.mx ∧
    (s.cmdDone x d).m = s.m ∧ (s.cmdDone x d).e = s.e ∧ (s.cmdDone x d).fab = s.fab ∧ (s.cmdDone x d).sec = s.sec ∧
    (s.cmdDone x d).j = s.j ∧ (s.cmdDone x d).h = s.h ∧ (s.cmdDone x d).pm = s.pm := by
  generalize hu : s.cmdDone x d = u
  unfold State.cmdDone at hu
  (repeat' split at hu) <;> (subst hu; simp -implicitDefEqProofs (maxDischargeDepth := 8))

@[simp] theorem State.putRows_frame (s : State) (x : BCmd) (rows : List (List Byte)) :
    (s.putRows x rows).pending = s.pending ∧ (s.putRows x rows).freeCtr = s.freeCtr ∧
    (s.putRows x rows).timeUs = s.timeUs ∧ (s.putRows x rows).regs = s.regs ∧ (s.putRows x rows).core = s.core ∧
    (s.putRows x rows).mx = s.mx ∧ (s.putRows x rows).e = s.e ∧ (s.putRows x rows).b = s.b ∧
    (s.putRows x rows).fab = s.fab ∧ (s.putRows x rows).sec = s.sec ∧ (s.putRows x rows).j = s.j ∧
    (s.putRows x rows).h = s.h ∧ (s.putRows x rows).pm = s.pm := by
  simp -implicitDefEqProofs (maxDischargeDepth := 8) [State.putRows]

@[simp] theorem State.runRead_frame (s : State) (x : BCmd) (sl : Slot) (p : BPay) :
    (s.runRead x sl p).pending = s.pending ∧ (s.runRead x sl p).freeCtr = s.freeCtr ∧
    (s.runRead x sl p).timeUs = s.timeUs ∧ (s.runRead x sl p).fab = s.fab ∧ (s.runRead x sl p).sec = s.sec ∧
    (s.runRead x sl p).j = s.j ∧ (s.runRead x sl p).h = s.h := by
  generalize hu : s.runRead x sl p = u
  unfold State.runRead at hu
  (try generalize (2 : ℕ) ^ 48 = z at hu)
  try dsimp only at hu
  (repeat' split at hu) <;>
    (subst hu
     (try simp only [Prod.ext_iff] at *) <;> (try casesm* _ ∧ _) <;> subst_vars <;>
       first
       | (simp -implicitDefEqProofs (maxDischargeDepth := 8); done)
       | simp_all -implicitDefEqProofs)

@[simp] theorem State.scatterRow_frame (s : State) (x : BCmd) (sl : Slot) (p : BPay) (seed : ℕ) (j : ℕ) (i : ℕ) (d
    : List Byte) : (s.scatterRow x sl p seed j i d).2.pending = s.pending ∧
    (s.scatterRow x sl p seed j i d).2.freeCtr = s.freeCtr ∧ (s.scatterRow x sl p seed j i d).2.timeUs = s.timeUs ∧
    (s.scatterRow x sl p seed j i d).2.regs = s.regs ∧ (s.scatterRow x sl p seed j i d).2.core = s.core ∧
    (s.scatterRow x sl p seed j i d).2.mx = s.mx ∧ (s.scatterRow x sl p seed j i d).2.e = s.e ∧
    (s.scatterRow x sl p seed j i d).2.b = s.b ∧ (s.scatterRow x sl p seed j i d).2.fab = s.fab ∧
    (s.scatterRow x sl p seed j i d).2.sec = s.sec ∧ (s.scatterRow x sl p seed j i d).2.j = s.j ∧
    (s.scatterRow x sl p seed j i d).2.h = s.h ∧ (s.scatterRow x sl p seed j i d).2.pm = s.pm := by
  simp -implicitDefEqProofs (maxDischargeDepth := 8) [State.scatterRow]

@[simp] theorem State.scatterRows_frame (s : State) (x : BCmd) (sl : Slot) (p : BPay) (seed : ℕ) (a : List (ℕ × ℕ))
    : (s.scatterRows x sl p seed a).2.pending = s.pending ∧ (s.scatterRows x sl p seed a).2.freeCtr = s.freeCtr ∧
    (s.scatterRows x sl p seed a).2.timeUs = s.timeUs ∧ (s.scatterRows x sl p seed a).2.fab = s.fab ∧
    (s.scatterRows x sl p seed a).2.sec = s.sec ∧ (s.scatterRows x sl p seed a).2.j = s.j ∧
    (s.scatterRows x sl p seed a).2.h = s.h := by
  fun_induction s.scatterRows x sl p seed a <;> (try simp only [Prod.ext_iff] at *) <;> (try casesm* _ ∧
      _) <;> subst_vars <;> simp_all -implicitDefEqProofs

@[simp] theorem State.runScatter_frame (s : State) (x : BCmd) (sl : Slot) (p : BPay) :
    (s.runScatter x sl p).pending = s.pending ∧ (s.runScatter x sl p).freeCtr = s.freeCtr ∧
    (s.runScatter x sl p).timeUs = s.timeUs ∧ (s.runScatter x sl p).fab = s.fab ∧
    (s.runScatter x sl p).sec = s.sec ∧ (s.runScatter x sl p).j = s.j ∧ (s.runScatter x sl p).h = s.h := by
  generalize hu : s.runScatter x sl p = u
  unfold State.runScatter at hu
  (try generalize (2 : ℕ) ^ 48 = z at hu)
  try dsimp only at hu
  (repeat' split at hu) <;>
    (subst hu
     (try simp only [Prod.ext_iff] at *) <;> (try casesm* _ ∧ _) <;> subst_vars <;>
       first
       | (simp -implicitDefEqProofs (maxDischargeDepth := 8); done)
       | simp_all -implicitDefEqProofs)

@[simp] theorem State.askTables_frame (s : State) (x : BCmd) (p : ℕ) : (s.askTables x p).pending = s.pending ∧
    (s.askTables x p).freeCtr = s.freeCtr ∧ (s.askTables x p).timeUs = s.timeUs ∧ (s.askTables x p).regs = s.regs ∧
    (s.askTables x p).core = s.core ∧ (s.askTables x p).mx = s.mx ∧ (s.askTables x p).m.mem = s.m.mem ∧
    (s.askTables x p).e = s.e ∧ (s.askTables x p).b = s.b ∧ (s.askTables x p).fab = s.fab ∧
    (s.askTables x p).sec = s.sec ∧ (s.askTables x p).j = s.j ∧ (s.askTables x p).h = s.h ∧
    (s.askTables x p).pm = s.pm := by
  simp -implicitDefEqProofs (maxDischargeDepth := 8) [State.askTables]

@[simp] theorem State.journalPart_frame (s : State) (x : BCmd) (sl : Slot) (p : ℕ) (at_ : ℕ) (row : ℕ) (d : List
    Byte) : (s.journalPart x sl p at_ row d).2.pending = s.pending ∧
    (s.journalPart x sl p at_ row d).2.freeCtr = s.freeCtr ∧ (s.journalPart x sl p at_ row d).2.timeUs = s.timeUs ∧
    (s.journalPart x sl p at_ row d).2.fab = s.fab ∧ (s.journalPart x sl p at_ row d).2.sec = s.sec ∧
    (s.journalPart x sl p at_ row d).2.j = s.j ∧ (s.journalPart x sl p at_ row d).2.h = s.h := by
  simp -implicitDefEqProofs (maxDischargeDepth := 8) [State.journalPart]

@[simp] theorem State.applyPart_frame (s : State) (x : BCmd) (sl : Slot) (p : ℕ) (ws : List ℕ) (pay : BPay) (r :
    RowPart) (d : List Byte) : (s.applyPart x sl p ws pay r d).2.pending = s.pending ∧
    (s.applyPart x sl p ws pay r d).2.freeCtr = s.freeCtr ∧ (s.applyPart x sl p ws pay r d).2.timeUs = s.timeUs ∧
    (s.applyPart x sl p ws pay r d).2.core = s.core ∧ (s.applyPart x sl p ws pay r d).2.mx = s.mx ∧
    (s.applyPart x sl p ws pay r d).2.e = s.e ∧ (s.applyPart x sl p ws pay r d).2.fab = s.fab ∧
    (s.applyPart x sl p ws pay r d).2.sec = s.sec ∧ (s.applyPart x sl p ws pay r d).2.j = s.j ∧
    (s.applyPart x sl p ws pay r d).2.h = s.h ∧ (s.applyPart x sl p ws pay r d).2.pm = s.pm := by
  simp -implicitDefEqProofs (maxDischargeDepth := 8) [State.applyPart]

@[simp] theorem State.applyParts_frame (s : State) (x : BCmd) (sl : Slot) (p : ℕ) (at_ : ℕ) (ws : List ℕ) (pay :
    BPay) (a : List RowPart) : (s.applyParts x sl p at_ ws pay a).2.pending = s.pending ∧
    (s.applyParts x sl p at_ ws pay a).2.freeCtr = s.freeCtr ∧
    (s.applyParts x sl p at_ ws pay a).2.timeUs = s.timeUs ∧ (s.applyParts x sl p at_ ws pay a).2.fab = s.fab ∧
    (s.applyParts x sl p at_ ws pay a).2.sec = s.sec ∧ (s.applyParts x sl p at_ ws pay a).2.j = s.j ∧
    (s.applyParts x sl p at_ ws pay a).2.h = s.h := by
  induction a generalizing s at_ with
  | nil => simp [State.applyParts]
  | cons r rest ih =>
    unfold State.applyParts
    have h := State.readRow_frame s x.stack x.hdr.table sl r.row 0 sl.recBytes
    rcases ht : s.readRow x.stack x.hdr.table sl r.row 0 sl.recBytes with ⟨_ | d, u⟩ <;> rw [ht] at h <;> dsimp only at h ⊢
    · exact h
    · have g := State.journalPart_frame u x sl p at_ r.row d
      rcases hj : u.journalPart x sl p at_ r.row d with ⟨_ | _, v⟩ <;> rw [hj] at g <;> dsimp only at g ⊢
      · simp [g, h]
      · have k := ih (v.applyPart x sl p ws pay r d).2 (at_ + sl.jnlLen)
        generalize (v.applyPart x sl p ws pay r d).2.applyParts x sl p (at_ + sl.jnlLen) ws pay rest = q at k ⊢
        rcases q with ⟨_ | fl, w⟩ <;> simp_all -implicitDefEqProofs

@[simp] theorem State.runUpdate_frame (s : State) (x : BCmd) (sl : Slot) (pay : BPay) :
    (s.runUpdate x sl pay).pending = s.pending ∧ (s.runUpdate x sl pay).freeCtr = s.freeCtr ∧
    (s.runUpdate x sl pay).timeUs = s.timeUs ∧ (s.runUpdate x sl pay).fab = s.fab ∧
    (s.runUpdate x sl pay).sec = s.sec ∧ (s.runUpdate x sl pay).j = s.j ∧ (s.runUpdate x sl pay).h = s.h := by
  generalize hu : s.runUpdate x sl pay = u
  unfold State.runUpdate at hu
  dsimp only at hu
  (repeat' split at hu) <;>
    (subst hu
     (try simp only [Prod.ext_iff] at *) <;> (try casesm* _ ∧ _) <;> subst_vars <;>
       first
       | (simp -implicitDefEqProofs (maxDischargeDepth := 8); done)
       | simp_all -implicitDefEqProofs)

@[simp] theorem State.askCmd_frame (s : State) (x : BCmd) (sl : Slot) (p : BPay) :
    (s.askCmd x sl p).pending = s.pending ∧ (s.askCmd x sl p).freeCtr = s.freeCtr ∧
    (s.askCmd x sl p).timeUs = s.timeUs ∧ (s.askCmd x sl p).regs = s.regs ∧ (s.askCmd x sl p).core = s.core ∧
    (s.askCmd x sl p).mx = s.mx ∧ (s.askCmd x sl p).m.mem = s.m.mem ∧ (s.askCmd x sl p).e = s.e ∧
    (s.askCmd x sl p).fab = s.fab ∧ (s.askCmd x sl p).sec = s.sec ∧ (s.askCmd x sl p).j = s.j ∧
    (s.askCmd x sl p).h = s.h ∧ (s.askCmd x sl p).pm = s.pm := by
  simp -implicitDefEqProofs (maxDischargeDepth := 8) [State.askCmd]

@[simp] theorem State.askWrites_frame (s : State) (x : BCmd) (sl : Slot) (p : BPay) :
    (s.askWrites x sl p).pending = s.pending ∧ (s.askWrites x sl p).freeCtr = s.freeCtr ∧
    (s.askWrites x sl p).timeUs = s.timeUs ∧ (s.askWrites x sl p).regs = s.regs ∧
    (s.askWrites x sl p).core = s.core ∧ (s.askWrites x sl p).mx = s.mx ∧ (s.askWrites x sl p).m.mem = s.m.mem ∧
    (s.askWrites x sl p).e = s.e ∧ (s.askWrites x sl p).fab = s.fab ∧ (s.askWrites x sl p).sec = s.sec ∧
    (s.askWrites x sl p).j = s.j ∧ (s.askWrites x sl p).h = s.h ∧ (s.askWrites x sl p).pm = s.pm := by
  generalize hu : s.askWrites x sl p = u
  unfold State.askWrites at hu
  (repeat' split at hu) <;> (subst hu; simp -implicitDefEqProofs (maxDischargeDepth := 8))

@[simp] theorem State.askJournal_frame (s : State) (x : BCmd) (sl : Slot) (live : List RowPart) :
    (s.askJournal x sl live).pending = s.pending ∧ (s.askJournal x sl live).freeCtr = s.freeCtr ∧
    (s.askJournal x sl live).timeUs = s.timeUs ∧ (s.askJournal x sl live).regs = s.regs ∧
    (s.askJournal x sl live).core = s.core ∧ (s.askJournal x sl live).mx = s.mx ∧
    (s.askJournal x sl live).m.mem = s.m.mem ∧ (s.askJournal x sl live).e = s.e ∧
    (s.askJournal x sl live).fab = s.fab ∧ (s.askJournal x sl live).sec = s.sec ∧
    (s.askJournal x sl live).j = s.j ∧ (s.askJournal x sl live).h = s.h ∧ (s.askJournal x sl live).pm = s.pm := by
  simp -implicitDefEqProofs (maxDischargeDepth := 8) [State.askJournal]

@[simp] theorem State.lookUpdate_frame (s : State) (x : BCmd) (sl : Slot) (p : BPay) :
    (s.lookUpdate x sl p).pending = s.pending ∧ (s.lookUpdate x sl p).freeCtr = s.freeCtr ∧
    (s.lookUpdate x sl p).timeUs = s.timeUs ∧ (s.lookUpdate x sl p).fab = s.fab ∧ (s.lookUpdate x sl p).j = s.j ∧
    (s.lookUpdate x sl p).h = s.h := by
  generalize hu : s.lookUpdate x sl p = u
  unfold State.lookUpdate at hu
  (repeat' split at hu) <;> (subst hu; simp -implicitDefEqProofs (maxDischargeDepth := 8))

@[simp] theorem State.deliverGroup_frame (s : State) (x : BCmd) (q : ℕ) (first : ℕ) (d : BDone) :
    (s.deliverGroup x q first d).pending = s.pending ∧ (s.deliverGroup x q first d).freeCtr = s.freeCtr ∧
    (s.deliverGroup x q first d).timeUs = s.timeUs ∧ (s.deliverGroup x q first d).regs = s.regs ∧
    (s.deliverGroup x q first d).m = s.m ∧ (s.deliverGroup x q first d).e = s.e ∧
    (s.deliverGroup x q first d).b = s.b ∧ (s.deliverGroup x q first d).fab = s.fab ∧
    (s.deliverGroup x q first d).sec = s.sec ∧ (s.deliverGroup x q first d).j = s.j ∧
    (s.deliverGroup x q first d).h = s.h ∧ (s.deliverGroup x q first d).pm = s.pm := by
  simp -implicitDefEqProofs (maxDischargeDepth := 8) [State.deliverGroup]

@[simp] theorem State.complete_frame (s : State) (x : BCmd) (d : BDone) : (s.complete x d).pending = s.pending ∧
    (s.complete x d).freeCtr = s.freeCtr ∧ (s.complete x d).timeUs = s.timeUs ∧ (s.complete x d).fab = s.fab ∧
    (s.complete x d).sec = s.sec ∧ (s.complete x d).j = s.j ∧ (s.complete x d).h = s.h := by
  generalize hu : s.complete x d = u; unfold State.complete at hu
  generalize mkTok 1 _ _ _ _ _ _ = tok at hu
  dsimp only at hu
  (repeat' split at hu) <;> (subst hu; simp -implicitDefEqProofs (maxDischargeDepth := 8))

@[simp] theorem State.setLam_frame (s : State) (l : ℕ) (v : Lam) : (s.setLam l v).pending = s.pending ∧
    (s.setLam l v).freeCtr = s.freeCtr ∧ (s.setLam l v).timeUs = s.timeUs ∧ (s.setLam l v).regs = s.regs ∧
    (s.setLam l v).core = s.core ∧ (s.setLam l v).mx = s.mx ∧ (s.setLam l v).m = s.m ∧ (s.setLam l v).e = s.e ∧
    (s.setLam l v).b = s.b ∧ (s.setLam l v).sec = s.sec ∧ (s.setLam l v).j = s.j ∧ (s.setLam l v).h = s.h ∧
    (s.setLam l v).pm = s.pm := by
  simp -implicitDefEqProofs (maxDischargeDepth := 8) [State.setLam]

@[simp] theorem State.setLstate_frame (s : State) (l : ℕ) (v : ℕ) : (s.setLstate l v).pending = s.pending ∧
    (s.setLstate l v).freeCtr = s.freeCtr ∧ (s.setLstate l v).timeUs = s.timeUs ∧ (s.setLstate l v).core = s.core ∧
    (s.setLstate l v).mx = s.mx ∧ (s.setLstate l v).m = s.m ∧ (s.setLstate l v).e = s.e ∧
    (s.setLstate l v).b = s.b ∧ (s.setLstate l v).fab = s.fab ∧ (s.setLstate l v).sec = s.sec ∧
    (s.setLstate l v).j = s.j ∧ (s.setLstate l v).h = s.h ∧ (s.setLstate l v).pm = s.pm := by
  simp -implicitDefEqProofs (maxDischargeDepth := 8) [State.setLstate]

@[simp] theorem State.seal_frame (s : State) (o : FOut) : (s.seal o).2.pending = s.pending ∧
    (s.seal o).2.freeCtr = s.freeCtr ∧ (s.seal o).2.timeUs = s.timeUs ∧ (s.seal o).2.regs = s.regs ∧
    (s.seal o).2.core = s.core ∧ (s.seal o).2.mx = s.mx ∧ (s.seal o).2.m = s.m ∧ (s.seal o).2.e = s.e ∧
    (s.seal o).2.b = s.b ∧ (s.seal o).2.sec = s.sec ∧ (s.seal o).2.j = s.j ∧ (s.seal o).2.h = s.h ∧
    (s.seal o).2.pm = s.pm := by
  generalize hu : s.seal o = u
  unfold State.seal at hu
  (repeat' split at hu) <;> (subst hu; simp -implicitDefEqProofs (maxDischargeDepth := 8))

@[simp] theorem State.noteCtr_frame (s : State) (p : ℕ) (src : ℕ) (c : ℕ) :
    (s.noteCtr p src c).pending = s.pending ∧ (s.noteCtr p src c).freeCtr = s.freeCtr ∧
    (s.noteCtr p src c).timeUs = s.timeUs ∧ (s.noteCtr p src c).regs = s.regs ∧ (s.noteCtr p src c).core = s.core ∧
    (s.noteCtr p src c).mx = s.mx ∧ (s.noteCtr p src c).m = s.m ∧ (s.noteCtr p src c).e = s.e ∧
    (s.noteCtr p src c).b = s.b ∧ (s.noteCtr p src c).sec = s.sec ∧ (s.noteCtr p src c).j = s.j ∧
    (s.noteCtr p src c).h = s.h ∧ (s.noteCtr p src c).pm = s.pm := by
  simp -implicitDefEqProofs (maxDischargeDepth := 8) [State.noteCtr]

@[simp] theorem State.queueFrame_frame (s : State) (o : FOut) : (s.queueFrame o).pending = s.pending ∧
    (s.queueFrame o).freeCtr = s.freeCtr ∧ (s.queueFrame o).timeUs = s.timeUs ∧ (s.queueFrame o).regs = s.regs ∧
    (s.queueFrame o).core = s.core ∧ (s.queueFrame o).mx = s.mx ∧ (s.queueFrame o).m = s.m ∧
    (s.queueFrame o).e = s.e ∧ (s.queueFrame o).b = s.b ∧ (s.queueFrame o).sec = s.sec ∧ (s.queueFrame o).j = s.j ∧
    (s.queueFrame o).h = s.h ∧ (s.queueFrame o).pm = s.pm := by
  simp -implicitDefEqProofs (maxDischargeDepth := 8) [State.queueFrame]

@[simp] theorem State.sendPart_frame (s : State) (p : ℕ) (rqr : ℕ) (dst : ℕ) (typ : ℕ) (data : List Byte) :
    (s.sendPart p rqr dst typ data).pending = s.pending ∧ (s.sendPart p rqr dst typ data).freeCtr = s.freeCtr ∧
    (s.sendPart p rqr dst typ data).timeUs = s.timeUs ∧ (s.sendPart p rqr dst typ data).regs = s.regs ∧
    (s.sendPart p rqr dst typ data).core = s.core ∧ (s.sendPart p rqr dst typ data).mx = s.mx ∧
    (s.sendPart p rqr dst typ data).m = s.m ∧ (s.sendPart p rqr dst typ data).e = s.e ∧
    (s.sendPart p rqr dst typ data).b = s.b ∧ (s.sendPart p rqr dst typ data).sec = s.sec ∧
    (s.sendPart p rqr dst typ data).j = s.j ∧ (s.sendPart p rqr dst typ data).h = s.h ∧
    (s.sendPart p rqr dst typ data).pm = s.pm := by
  simp -implicitDefEqProofs (maxDischargeDepth := 8) [State.sendPart]

@[simp] theorem State.sendMgmt_frame (s : State) (dst : ℕ) (typ : ℕ) (lam : Option ℕ) (data : List Byte) :
    (s.sendMgmt dst typ lam data).pending = s.pending ∧ (s.sendMgmt dst typ lam data).freeCtr = s.freeCtr ∧
    (s.sendMgmt dst typ lam data).timeUs = s.timeUs ∧ (s.sendMgmt dst typ lam data).regs = s.regs ∧
    (s.sendMgmt dst typ lam data).core = s.core ∧ (s.sendMgmt dst typ lam data).mx = s.mx ∧
    (s.sendMgmt dst typ lam data).m = s.m ∧ (s.sendMgmt dst typ lam data).e = s.e ∧
    (s.sendMgmt dst typ lam data).b = s.b ∧ (s.sendMgmt dst typ lam data).sec = s.sec ∧
    (s.sendMgmt dst typ lam data).j = s.j ∧ (s.sendMgmt dst typ lam data).h = s.h ∧
    (s.sendMgmt dst typ lam data).pm = s.pm := by
  simp -implicitDefEqProofs (maxDischargeDepth := 8) [State.sendMgmt]

@[simp] theorem State.emitCr_frame (s : State) (l : ℕ) (seq : ℕ) (wire : List Byte) (bnc : Bool) (tc : ℕ) (n : ℕ) :
    (s.emitCr l seq wire bnc tc n).pending = s.pending ∧ (s.emitCr l seq wire bnc tc n).freeCtr = s.freeCtr ∧
    (s.emitCr l seq wire bnc tc n).timeUs = s.timeUs ∧ (s.emitCr l seq wire bnc tc n).regs = s.regs ∧
    (s.emitCr l seq wire bnc tc n).core = s.core ∧ (s.emitCr l seq wire bnc tc n).mx = s.mx ∧
    (s.emitCr l seq wire bnc tc n).m = s.m ∧ (s.emitCr l seq wire bnc tc n).e = s.e ∧
    (s.emitCr l seq wire bnc tc n).b = s.b ∧ (s.emitCr l seq wire bnc tc n).sec = s.sec ∧
    (s.emitCr l seq wire bnc tc n).j = s.j ∧ (s.emitCr l seq wire bnc tc n).h = s.h ∧
    (s.emitCr l seq wire bnc tc n).pm = s.pm := by
  simp -implicitDefEqProofs (maxDischargeDepth := 8) [State.emitCr]

@[simp] theorem State.emit_frame (s : State) (l : ℕ) (seq : ℕ) (wire : List Byte) (bnc : Bool) :
    (s.emit l seq wire bnc).pending = s.pending ∧ (s.emit l seq wire bnc).freeCtr = s.freeCtr ∧
    (s.emit l seq wire bnc).timeUs = s.timeUs ∧ (s.emit l seq wire bnc).regs = s.regs ∧
    (s.emit l seq wire bnc).core = s.core ∧ (s.emit l seq wire bnc).mx = s.mx ∧ (s.emit l seq wire bnc).m = s.m ∧
    (s.emit l seq wire bnc).e = s.e ∧ (s.emit l seq wire bnc).b = s.b ∧ (s.emit l seq wire bnc).sec = s.sec ∧
    (s.emit l seq wire bnc).j = s.j ∧ (s.emit l seq wire bnc).h = s.h ∧ (s.emit l seq wire bnc).pm = s.pm := by
  simp -implicitDefEqProofs (maxDischargeDepth := 8) [State.emit]

@[simp] theorem State.emitAgain_frame (s : State) (l : ℕ) (e : ℕ × List Byte × Bool × ℕ) :
    (s.emitAgain l e).pending = s.pending ∧ (s.emitAgain l e).freeCtr = s.freeCtr ∧
    (s.emitAgain l e).timeUs = s.timeUs ∧ (s.emitAgain l e).regs = s.regs ∧ (s.emitAgain l e).core = s.core ∧
    (s.emitAgain l e).mx = s.mx ∧ (s.emitAgain l e).m = s.m ∧ (s.emitAgain l e).e = s.e ∧
    (s.emitAgain l e).b = s.b ∧ (s.emitAgain l e).sec = s.sec ∧ (s.emitAgain l e).j = s.j ∧
    (s.emitAgain l e).h = s.h ∧ (s.emitAgain l e).pm = s.pm := by
  simp -implicitDefEqProofs (maxDischargeDepth := 8) [State.emitAgain]

@[simp] theorem State.freeCredits_frame (s : State) (l : ℕ) (tc : ℕ) (n : ℕ) :
    (s.freeCredits l tc n).pending = s.pending ∧ (s.freeCredits l tc n).freeCtr = s.freeCtr ∧
    (s.freeCredits l tc n).timeUs = s.timeUs ∧ (s.freeCredits l tc n).regs = s.regs ∧
    (s.freeCredits l tc n).core = s.core ∧ (s.freeCredits l tc n).mx = s.mx ∧ (s.freeCredits l tc n).m = s.m ∧
    (s.freeCredits l tc n).e = s.e ∧ (s.freeCredits l tc n).b = s.b ∧ (s.freeCredits l tc n).sec = s.sec ∧
    (s.freeCredits l tc n).j = s.j ∧ (s.freeCredits l tc n).h = s.h ∧ (s.freeCredits l tc n).pm = s.pm := by
  simp -implicitDefEqProofs (maxDischargeDepth := 8) [State.freeCredits]

@[simp] theorem State.grantFrame_frame (s : State) (o : FOut) (l : ℕ) : (s.grantFrame o l).pending = s.pending ∧
    (s.grantFrame o l).freeCtr = s.freeCtr ∧ (s.grantFrame o l).timeUs = s.timeUs ∧
    (s.grantFrame o l).regs = s.regs ∧ (s.grantFrame o l).core = s.core ∧ (s.grantFrame o l).mx = s.mx ∧
    (s.grantFrame o l).m = s.m ∧ (s.grantFrame o l).e = s.e ∧ (s.grantFrame o l).b = s.b ∧
    (s.grantFrame o l).sec = s.sec ∧ (s.grantFrame o l).j = s.j ∧ (s.grantFrame o l).h = s.h ∧
    (s.grantFrame o l).pm = s.pm := by
  generalize hu : s.grantFrame o l = u
  unfold State.grantFrame at hu
  dsimp only at hu
  (repeat' split at hu) <;> (subst hu; simp -implicitDefEqProofs (maxDischargeDepth := 8))

@[simp] theorem State.portRound_frame (s : State) (n : ℕ) : (s.portRound n).pending = s.pending ∧
    (s.portRound n).freeCtr = s.freeCtr ∧ (s.portRound n).timeUs = s.timeUs ∧ (s.portRound n).core = s.core ∧
    (s.portRound n).mx = s.mx ∧ (s.portRound n).m.mem = s.m.mem ∧ (s.portRound n).e = s.e ∧
    (s.portRound n).b = s.b ∧ (s.portRound n).sec = s.sec ∧ (s.portRound n).j = s.j ∧ (s.portRound n).h = s.h ∧
    (s.portRound n).pm = s.pm := by
  generalize hu : s.portRound n = u
  unfold State.portRound at hu
  dsimp only at hu
  (repeat' split at hu) <;> (subst hu; simp -implicitDefEqProofs (maxDischargeDepth := 8))

@[simp] theorem State.bounceOne_frame (s : State) (o : FOut) : (s.bounceOne o).pending = s.pending ∧
    (s.bounceOne o).freeCtr = s.freeCtr ∧ (s.bounceOne o).timeUs = s.timeUs ∧ (s.bounceOne o).core = s.core ∧
    (s.bounceOne o).mx = s.mx ∧ (s.bounceOne o).m = s.m ∧ (s.bounceOne o).b = s.b ∧ (s.bounceOne o).sec = s.sec ∧
    (s.bounceOne o).j = s.j ∧ (s.bounceOne o).h = s.h := by
  generalize hu : s.bounceOne o = u
  unfold State.bounceOne at hu
  dsimp only at hu
  (repeat' split at hu) <;> (subst hu; simp -implicitDefEqProofs (maxDischargeDepth := 8))

@[simp] theorem State.bounceHeld_frame (s : State) (l : ℕ) : (s.bounceHeld l).pending = s.pending ∧
    (s.bounceHeld l).freeCtr = s.freeCtr ∧ (s.bounceHeld l).timeUs = s.timeUs ∧ (s.bounceHeld l).core = s.core ∧
    (s.bounceHeld l).mx = s.mx ∧ (s.bounceHeld l).m = s.m ∧ (s.bounceHeld l).b = s.b ∧
    (s.bounceHeld l).sec = s.sec ∧ (s.bounceHeld l).j = s.j ∧ (s.bounceHeld l).h = s.h := by
  simp -implicitDefEqProofs (maxDischargeDepth := 8) [State.bounceHeld]

@[simp] theorem State.leaveUp_frame (s : State) (l : ℕ) (v : ℕ) : (s.leaveUp l v).pending = s.pending ∧
    (s.leaveUp l v).freeCtr = s.freeCtr ∧ (s.leaveUp l v).timeUs = s.timeUs ∧ (s.leaveUp l v).core = s.core ∧
    (s.leaveUp l v).mx = s.mx ∧ (s.leaveUp l v).m = s.m ∧ (s.leaveUp l v).b = s.b ∧ (s.leaveUp l v).sec = s.sec ∧
    (s.leaveUp l v).j = s.j ∧ (s.leaveUp l v).h = s.h := by
  simp -implicitDefEqProofs (maxDischargeDepth := 8) [State.leaveUp]

@[simp] theorem State.retrain_frame (s : State) (l : ℕ) : (s.retrain l).pending = s.pending ∧
    (s.retrain l).freeCtr = s.freeCtr ∧ (s.retrain l).timeUs = s.timeUs ∧ (s.retrain l).core = s.core ∧
    (s.retrain l).mx = s.mx ∧ (s.retrain l).m = s.m ∧ (s.retrain l).b = s.b ∧ (s.retrain l).sec = s.sec ∧
    (s.retrain l).j = s.j ∧ (s.retrain l).h = s.h := by
  simp -implicitDefEqProofs (maxDischargeDepth := 8) [State.retrain]

@[simp] theorem State.linkIn_frame (s : State) (l : ℕ) (b : List Byte) : (s.linkIn l b).pending = s.pending ∧
    (s.linkIn l b).freeCtr = s.freeCtr ∧ (s.linkIn l b).timeUs = s.timeUs ∧ (s.linkIn l b).core = s.core ∧
    (s.linkIn l b).mx = s.mx ∧ (s.linkIn l b).m = s.m ∧ (s.linkIn l b).b = s.b ∧ (s.linkIn l b).sec = s.sec ∧
    (s.linkIn l b).j = s.j ∧ (s.linkIn l b).h = s.h := by
  simp -implicitDefEqProofs (maxDischargeDepth := 8) [State.linkIn]

@[simp] theorem State.badFrame_frame (s : State) (l : ℕ) : (s.badFrame l).pending = s.pending ∧
    (s.badFrame l).freeCtr = s.freeCtr ∧ (s.badFrame l).timeUs = s.timeUs ∧ (s.badFrame l).regs = s.regs ∧
    (s.badFrame l).core = s.core ∧ (s.badFrame l).mx = s.mx ∧ (s.badFrame l).m = s.m ∧ (s.badFrame l).e = s.e ∧
    (s.badFrame l).b = s.b ∧ (s.badFrame l).sec = s.sec ∧ (s.badFrame l).j = s.j ∧ (s.badFrame l).h = s.h ∧
    (s.badFrame l).pm = s.pm := by
  simp -implicitDefEqProofs (maxDischargeDepth := 8) [State.badFrame]

@[simp] theorem State.dropFrame_frame (s : State) (l : ℕ) (b : List Byte) (f : Fld) :
    (s.dropFrame l b f).pending = s.pending ∧ (s.dropFrame l b f).freeCtr = s.freeCtr ∧
    (s.dropFrame l b f).timeUs = s.timeUs ∧ (s.dropFrame l b f).core = s.core ∧ (s.dropFrame l b f).mx = s.mx ∧
    (s.dropFrame l b f).m = s.m ∧ (s.dropFrame l b f).b = s.b ∧ (s.dropFrame l b f).sec = s.sec ∧
    (s.dropFrame l b f).j = s.j ∧ (s.dropFrame l b f).h = s.h := by
  simp -implicitDefEqProofs (maxDischargeDepth := 8) [State.dropFrame]

@[simp] theorem State.setJob_frame (s : State) (p : ℕ) (v : JobSt) : (s.setJob p v).pending = s.pending ∧
    (s.setJob p v).freeCtr = s.freeCtr ∧ (s.setJob p v).timeUs = s.timeUs ∧ (s.setJob p v).regs = s.regs ∧
    (s.setJob p v).core = s.core ∧ (s.setJob p v).mx = s.mx ∧ (s.setJob p v).m = s.m ∧ (s.setJob p v).e = s.e ∧
    (s.setJob p v).b = s.b ∧ (s.setJob p v).fab = s.fab ∧ (s.setJob p v).sec = s.sec ∧ (s.setJob p v).h = s.h ∧
    (s.setJob p v).pm = s.pm := by
  simp -implicitDefEqProofs (maxDischargeDepth := 8) [State.setJob]

@[simp] theorem State.modJob_frame (s : State) (p : ℕ) (f : JobSt → JobSt) : (s.modJob p f).pending = s.pending ∧
    (s.modJob p f).freeCtr = s.freeCtr ∧ (s.modJob p f).timeUs = s.timeUs ∧ (s.modJob p f).regs = s.regs ∧
    (s.modJob p f).core = s.core ∧ (s.modJob p f).mx = s.mx ∧ (s.modJob p f).m = s.m ∧ (s.modJob p f).e = s.e ∧
    (s.modJob p f).b = s.b ∧ (s.modJob p f).fab = s.fab ∧ (s.modJob p f).sec = s.sec ∧ (s.modJob p f).h = s.h ∧
    (s.modJob p f).pm = s.pm := by
  simp -implicitDefEqProofs (maxDischargeDepth := 8) [State.modJob]

@[simp] theorem State.orStep_frame (s : State) (p : ℕ) (fl : Flags) : (s.orStep p fl).pending = s.pending ∧
    (s.orStep p fl).freeCtr = s.freeCtr ∧ (s.orStep p fl).timeUs = s.timeUs ∧ (s.orStep p fl).core = s.core ∧
    (s.orStep p fl).mx = s.mx ∧ (s.orStep p fl).m = s.m ∧ (s.orStep p fl).e = s.e ∧ (s.orStep p fl).b = s.b ∧
    (s.orStep p fl).fab = s.fab ∧ (s.orStep p fl).sec = s.sec ∧ (s.orStep p fl).j = s.j ∧ (s.orStep p fl).h = s.h ∧
    (s.orStep p fl).pm = s.pm := by
  simp -implicitDefEqProofs (maxDischargeDepth := 8) [State.orStep]

@[simp] theorem State.putIn_frame (s : State) (p : ℕ) (sec : ℕ) (tid : ℕ) (off : ℕ) (data : List Byte) :
    (s.putIn p sec tid off data).pending = s.pending ∧ (s.putIn p sec tid off data).freeCtr = s.freeCtr ∧
    (s.putIn p sec tid off data).timeUs = s.timeUs ∧ (s.putIn p sec tid off data).fab = s.fab ∧
    (s.putIn p sec tid off data).sec = s.sec ∧ (s.putIn p sec tid off data).j = s.j ∧
    (s.putIn p sec tid off data).h = s.h := by
  generalize hu : s.putIn p sec tid off data = u
  unfold State.putIn at hu
  dsimp only at hu
  (repeat' split at hu) <;> (subst hu; simp -implicitDefEqProofs (maxDischargeDepth := 8))

@[simp] theorem State.putReplica_frame (s : State) (p : ℕ) (tid : ℕ) (off : ℕ) (data : List Byte) :
    (s.putReplica p tid off data).pending = s.pending ∧ (s.putReplica p tid off data).freeCtr = s.freeCtr ∧
    (s.putReplica p tid off data).timeUs = s.timeUs ∧ (s.putReplica p tid off data).fab = s.fab ∧
    (s.putReplica p tid off data).sec = s.sec ∧ (s.putReplica p tid off data).j = s.j ∧
    (s.putReplica p tid off data).h = s.h := by
  simp -implicitDefEqProofs (maxDischargeDepth := 8) [State.putReplica]

@[simp] theorem State.takeGather_frame (s : State) (p : ℕ) (d : List Byte) :
    (s.takeGather p d).pending = s.pending ∧ (s.takeGather p d).freeCtr = s.freeCtr ∧
    (s.takeGather p d).timeUs = s.timeUs ∧ (s.takeGather p d).fab = s.fab ∧ (s.takeGather p d).sec = s.sec ∧
    (s.takeGather p d).h = s.h := by
  generalize hu : s.takeGather p d = u
  unfold State.takeGather at hu
  dsimp only at hu
  (repeat' split at hu) <;> (subst hu; simp -implicitDefEqProofs (maxDischargeDepth := 8))

@[simp] theorem State.gatherFlight_frame (s : State) (p : ℕ) (d : List Byte) :
    (s.gatherFlight p d).pending = s.pending ∧ (s.gatherFlight p d).freeCtr = s.freeCtr ∧
    (s.gatherFlight p d).timeUs = s.timeUs ∧ (s.gatherFlight p d).sec = s.sec ∧ (s.gatherFlight p d).h = s.h := by
  unfold State.gatherFlight
  dsimp only
  split
  · simp
  · refine foldl_from (fun u v => u.pending = v.pending ∧ u.freeCtr = v.freeCtr ∧ u.timeUs = v.timeUs ∧
      u.sec = v.sec ∧ u.h = v.h)
      _ _ _ _ (by simp) (by simp +contextual) ?_
    intro s x u hu
    (repeat' split at hu) <;> (subst hu; simp)

@[simp] theorem State.gatherChunk_frame (s : State) (p : ℕ) (b : ℕ) (c : ℕ) :
    (s.gatherChunk p b c).pending = s.pending ∧ (s.gatherChunk p b c).freeCtr = s.freeCtr ∧
    (s.gatherChunk p b c).timeUs = s.timeUs ∧ (s.gatherChunk p b c).sec = s.sec ∧ (s.gatherChunk p b c).h = s.h := by
  unfold State.gatherChunk
  dsimp only
  split
  · simp
  · split
    · rename_i heq; simp only [Prod.ext_iff] at heq; obtain ⟨-, rfl⟩ := heq; simp
    · rename_i heq; simp only [Prod.ext_iff] at heq; obtain ⟨-, rfl⟩ := heq
      refine foldl_from (fun u v => u.pending = v.pending ∧ u.freeCtr = v.freeCtr ∧ u.timeUs = v.timeUs ∧
          u.sec = v.sec ∧ u.h = v.h)
        _ _ _ _ (by simp) (by simp +contextual) ?_
      rintro s x u rfl
      refine foldl_rel (fun u v => u.pending = v.pending ∧ u.freeCtr = v.freeCtr ∧ u.timeUs = v.timeUs ∧
          u.sec = v.sec ∧ u.h = v.h)
        _ _ _ (by simp) (by simp +contextual) ?_
      intro s x u hu
      (repeat' split at hu) <;> (subst hu; simp)

@[simp] theorem State.startGathers_frame (s : State) (p : ℕ) : (s.startGathers p).pending = s.pending ∧
    (s.startGathers p).freeCtr = s.freeCtr ∧ (s.startGathers p).timeUs = s.timeUs ∧
    (s.startGathers p).sec = s.sec ∧ (s.startGathers p).h = s.h := by
  unfold State.startGathers
  dsimp only
  split
  · refine foldl_rel (fun u v => u.pending = v.pending ∧ u.freeCtr = v.freeCtr ∧ u.timeUs = v.timeUs ∧
      u.sec = v.sec ∧ u.h = v.h) _ _ _ (by simp) (by simp +contextual) ?_
    intro s x u hu
    (repeat' split at hu) <;> (subst hu; simp)
  · simp

@[simp] theorem State.stage2Try_frame (s : State) (p : ℕ) (b : ℕ) (c : ℕ) (elem : ℕ) :
    (s.stage2Try p b c elem).pending = s.pending ∧ (s.stage2Try p b c elem).freeCtr = s.freeCtr ∧
    (s.stage2Try p b c elem).timeUs = s.timeUs ∧ (s.stage2Try p b c elem).core = s.core ∧
    (s.stage2Try p b c elem).mx = s.mx ∧ (s.stage2Try p b c elem).m = s.m ∧ (s.stage2Try p b c elem).e = s.e ∧
    (s.stage2Try p b c elem).b = s.b ∧ (s.stage2Try p b c elem).fab = s.fab ∧
    (s.stage2Try p b c elem).sec = s.sec ∧ (s.stage2Try p b c elem).h = s.h ∧ (s.stage2Try p b c elem).pm = s.pm := by
  simp -implicitDefEqProofs (maxDischargeDepth := 8) [State.stage2Try]

@[simp] theorem State.stage2In_frame (s : State) (p : ℕ) (x : StageIn) : (s.stage2In p x).pending = s.pending ∧
    (s.stage2In p x).freeCtr = s.freeCtr ∧ (s.stage2In p x).timeUs = s.timeUs ∧ (s.stage2In p x).core = s.core ∧
    (s.stage2In p x).mx = s.mx ∧ (s.stage2In p x).m = s.m ∧ (s.stage2In p x).e = s.e ∧ (s.stage2In p x).b = s.b ∧
    (s.stage2In p x).fab = s.fab ∧ (s.stage2In p x).sec = s.sec ∧ (s.stage2In p x).h = s.h ∧
    (s.stage2In p x).pm = s.pm := by
  generalize hu : s.stage2In p x = u
  unfold State.stage2In at hu
  (repeat' split at hu) <;> (subst hu; simp -implicitDefEqProofs (maxDischargeDepth := 8))

@[simp] theorem State.stage1Try_frame (s : State) (p : ℕ) (node : ℕ) (b : ℕ) (c : ℕ) :
    (s.stage1Try p node b c).pending = s.pending ∧ (s.stage1Try p node b c).freeCtr = s.freeCtr ∧
    (s.stage1Try p node b c).timeUs = s.timeUs ∧ (s.stage1Try p node b c).core = s.core ∧
    (s.stage1Try p node b c).mx = s.mx ∧ (s.stage1Try p node b c).m = s.m ∧ (s.stage1Try p node b c).e = s.e ∧
    (s.stage1Try p node b c).b = s.b ∧ (s.stage1Try p node b c).sec = s.sec ∧ (s.stage1Try p node b c).h = s.h ∧
    (s.stage1Try p node b c).pm = s.pm := by
  simp -implicitDefEqProofs (maxDischargeDepth := 8) [State.stage1Try]

@[simp] theorem State.stage1In_frame (s : State) (p : ℕ) (x : StageIn) : (s.stage1In p x).pending = s.pending ∧
    (s.stage1In p x).freeCtr = s.freeCtr ∧ (s.stage1In p x).timeUs = s.timeUs ∧ (s.stage1In p x).core = s.core ∧
    (s.stage1In p x).mx = s.mx ∧ (s.stage1In p x).m = s.m ∧ (s.stage1In p x).e = s.e ∧ (s.stage1In p x).b = s.b ∧
    (s.stage1In p x).sec = s.sec ∧ (s.stage1In p x).h = s.h ∧ (s.stage1In p x).pm = s.pm := by
  generalize hu : s.stage1In p x = u; unfold State.stage1In at hu
  generalize List.range 128 = l at hu
  split at hu
  · subst hu
    simp
  · dsimp only at hu
    generalize hw : (s.orStep p _).modJob p _ = w at hu
    have e : w.pending = s.pending ∧ w.freeCtr = s.freeCtr ∧ w.timeUs = s.timeUs ∧ w.core = s.core ∧ w.mx = s.mx ∧
        w.m = s.m ∧ w.e = s.e ∧ w.b = s.b ∧ w.sec = s.sec ∧ w.h = s.h ∧
        w.pm = s.pm := by subst hw; simp only [State.modJob_frame, State.orStep_frame, and_self]
    split at hu
    · subst hu
      simpa only [State.stage1Try_frame] using e
    · have h := foldl_rel (fun u v => u.pending = v.pending ∧ u.freeCtr = v.freeCtr ∧ u.timeUs = v.timeUs ∧
        u.core = v.core ∧ u.mx = v.mx ∧ u.m = v.m ∧ u.e = v.e ∧ u.b = v.b ∧ u.sec = v.sec ∧ u.h = v.h ∧
        u.pm = v.pm) l (fun s cr => s.stage1Try p x.node x.bucket (cr * 128 + x.node % 128)) w
        (by simp) (by simp_all) (fun s x u hu => by subst hu; simp only [State.stage1Try_frame, and_self])
      subst hu
      simpa only [e] using h

@[simp] theorem State.sendLate_frame (s : State) (p : ℕ) (slot : ℕ) (b : ℕ) :
    (s.sendLate p slot b).pending = s.pending ∧ (s.sendLate p slot b).freeCtr = s.freeCtr ∧
    (s.sendLate p slot b).timeUs = s.timeUs ∧ (s.sendLate p slot b).core = s.core ∧
    (s.sendLate p slot b).mx = s.mx ∧ (s.sendLate p slot b).m = s.m ∧ (s.sendLate p slot b).e = s.e ∧
    (s.sendLate p slot b).b = s.b ∧ (s.sendLate p slot b).sec = s.sec ∧ (s.sendLate p slot b).h = s.h ∧
    (s.sendLate p slot b).pm = s.pm := by
  simp -implicitDefEqProofs (maxDischargeDepth := 8) [State.sendLate]

@[simp] theorem State.declareLate_frame (s : State) (p : ℕ) (x : Late) : (s.declareLate p x).pending = s.pending ∧
    (s.declareLate p x).freeCtr = s.freeCtr ∧ (s.declareLate p x).timeUs = s.timeUs ∧
    (s.declareLate p x).core = s.core ∧ (s.declareLate p x).mx = s.mx ∧ (s.declareLate p x).m = s.m ∧
    (s.declareLate p x).e = s.e ∧ (s.declareLate p x).b = s.b ∧ (s.declareLate p x).sec = s.sec ∧
    (s.declareLate p x).h = s.h ∧ (s.declareLate p x).pm = s.pm := by
  simp -implicitDefEqProofs (maxDischargeDepth := 8) [State.declareLate]

@[simp] theorem State.openWindow_frame (s : State) (p : ℕ) : (s.openWindow p).pending = s.pending ∧
    (s.openWindow p).freeCtr = s.freeCtr ∧ (s.openWindow p).timeUs = s.timeUs ∧ (s.openWindow p).core = s.core ∧
    (s.openWindow p).mx = s.mx ∧ (s.openWindow p).m = s.m ∧ (s.openWindow p).e = s.e ∧ (s.openWindow p).b = s.b ∧
    (s.openWindow p).sec = s.sec ∧ (s.openWindow p).h = s.h ∧ (s.openWindow p).pm = s.pm := by
  generalize hu : s.openWindow p = u
  unfold State.openWindow at hu
  dsimp only at hu
  (repeat' split at hu) <;> (subst hu; simp -implicitDefEqProofs (maxDischargeDepth := 8))

@[simp] theorem State.sendLeaf_frame (s : State) (p : ℕ) (slot : ℕ) (b : ℕ) (nf : Bool) (codes : List ℕ) :
    (s.sendLeaf p slot b nf codes).pending = s.pending ∧ (s.sendLeaf p slot b nf codes).freeCtr = s.freeCtr ∧
    (s.sendLeaf p slot b nf codes).timeUs = s.timeUs ∧ (s.sendLeaf p slot b nf codes).core = s.core ∧
    (s.sendLeaf p slot b nf codes).mx = s.mx ∧ (s.sendLeaf p slot b nf codes).m = s.m ∧
    (s.sendLeaf p slot b nf codes).e = s.e ∧ (s.sendLeaf p slot b nf codes).b = s.b ∧
    (s.sendLeaf p slot b nf codes).sec = s.sec ∧ (s.sendLeaf p slot b nf codes).h = s.h ∧
    (s.sendLeaf p slot b nf codes).pm = s.pm := by
  simp -implicitDefEqProofs (maxDischargeDepth := 8) [State.sendLeaf]

@[simp] theorem State.lateLeaf_frame (s : State) (p : ℕ) (slot : ℕ) (b : ℕ) (nf : Bool) (codes : List ℕ) :
    (s.lateLeaf p slot b nf codes).pending = s.pending ∧ (s.lateLeaf p slot b nf codes).timeUs = s.timeUs ∧
    (s.lateLeaf p slot b nf codes).core = s.core ∧ (s.lateLeaf p slot b nf codes).mx = s.mx ∧
    (s.lateLeaf p slot b nf codes).m = s.m ∧ (s.lateLeaf p slot b nf codes).e = s.e ∧
    (s.lateLeaf p slot b nf codes).b = s.b ∧ (s.lateLeaf p slot b nf codes).fab = s.fab ∧
    (s.lateLeaf p slot b nf codes).sec = s.sec ∧ (s.lateLeaf p slot b nf codes).h = s.h ∧
    (s.lateLeaf p slot b nf codes).pm = s.pm := by
  simp -implicitDefEqProofs (maxDischargeDepth := 8) [State.lateLeaf]

@[simp] theorem State.timelyLeaf_frame (s : State) (p : ℕ) (slot : ℕ) (b : ℕ) (nf : Bool) (codes : List ℕ) :
    (s.timelyLeaf p slot b nf codes).pending = s.pending ∧ (s.timelyLeaf p slot b nf codes).freeCtr = s.freeCtr ∧
    (s.timelyLeaf p slot b nf codes).timeUs = s.timeUs ∧ (s.timelyLeaf p slot b nf codes).core = s.core ∧
    (s.timelyLeaf p slot b nf codes).mx = s.mx ∧ (s.timelyLeaf p slot b nf codes).m = s.m ∧
    (s.timelyLeaf p slot b nf codes).e = s.e ∧ (s.timelyLeaf p slot b nf codes).b = s.b ∧
    (s.timelyLeaf p slot b nf codes).sec = s.sec ∧ (s.timelyLeaf p slot b nf codes).h = s.h ∧
    (s.timelyLeaf p slot b nf codes).pm = s.pm := by
  generalize hu : s.timelyLeaf p slot b nf codes = u
  unfold State.timelyLeaf at hu
  (repeat' split at hu) <;> (subst hu; simp -implicitDefEqProofs (maxDischargeDepth := 8))

@[simp] theorem State.collReject_frame (s : State) (p : ℕ) (sec : ℕ) (idx : ℕ) :
    (s.collReject p sec idx).pending = s.pending ∧ (s.collReject p sec idx).freeCtr = s.freeCtr ∧
    (s.collReject p sec idx).timeUs = s.timeUs ∧ (s.collReject p sec idx).core = s.core ∧
    (s.collReject p sec idx).mx = s.mx ∧ (s.collReject p sec idx).m = s.m ∧ (s.collReject p sec idx).b = s.b ∧
    (s.collReject p sec idx).fab = s.fab ∧ (s.collReject p sec idx).sec = s.sec ∧
    (s.collReject p sec idx).j = s.j ∧ (s.collReject p sec idx).h = s.h := by
  simp -implicitDefEqProofs (maxDischargeDepth := 8) [State.collReject]

@[simp] theorem State.contribute_frame (s : State) (p : ℕ) (d : List Byte) :
    (s.contribute p d).pending = s.pending ∧ (s.contribute p d).timeUs = s.timeUs ∧
    (s.contribute p d).m.mem = s.m.mem ∧ (s.contribute p d).b = s.b ∧ (s.contribute p d).sec = s.sec ∧
    (s.contribute p d).h = s.h := by
  generalize hu : s.contribute p d = u
  unfold State.contribute at hu
  (try generalize (2 : ℕ) ^ 48 = z at hu)
  try dsimp only at hu
  (repeat' split at hu) <;>
    (subst hu
     (try simp only [Prod.ext_iff] at *) <;> (try casesm* _ ∧ _) <;> subst_vars <;>
       first
       | (simp -implicitDefEqProofs (maxDischargeDepth := 8); done)
       | simp_all -implicitDefEqProofs)

@[simp] theorem State.collNow_frame (s : State) (p : ℕ) (d : List Byte) : (s.collNow p d).pending = s.pending ∧
    (s.collNow p d).freeCtr = s.freeCtr ∧ (s.collNow p d).timeUs = s.timeUs ∧ (s.collNow p d).sec = s.sec ∧
    (s.collNow p d).h = s.h := by
  generalize hu : s.collNow p d = u
  unfold State.collNow at hu
  (repeat' split at hu) <;> (subst hu; simp -implicitDefEqProofs (maxDischargeDepth := 8))

@[simp] theorem State.holdColl_frame (s : State) (p : ℕ) (d : List Byte) : (s.holdColl p d).pending = s.pending ∧
    (s.holdColl p d).freeCtr = s.freeCtr ∧ (s.holdColl p d).timeUs = s.timeUs ∧ (s.holdColl p d).regs = s.regs ∧
    (s.holdColl p d).core = s.core ∧ (s.holdColl p d).mx = s.mx ∧ (s.holdColl p d).m = s.m ∧
    (s.holdColl p d).e = s.e ∧ (s.holdColl p d).b = s.b ∧ (s.holdColl p d).fab = s.fab ∧
    (s.holdColl p d).sec = s.sec ∧ (s.holdColl p d).h = s.h ∧ (s.holdColl p d).pm = s.pm := by
  simp -implicitDefEqProofs (maxDischargeDepth := 8) [State.holdColl]

@[simp] theorem State.collIn_frame (s : State) (p : ℕ) (d : List Byte) : (s.collIn p d).pending = s.pending ∧
    (s.collIn p d).freeCtr = s.freeCtr ∧ (s.collIn p d).timeUs = s.timeUs ∧ (s.collIn p d).sec = s.sec ∧
    (s.collIn p d).h = s.h := by
  simp -implicitDefEqProofs (maxDischargeDepth := 8) [State.collIn]

@[simp] theorem State.updateSpan_frame (s : State) (p : ℕ) (site : ℕ) (sec : ℕ) (slot : ℕ) (b : ℕ) (k : ℕ) :
    (s.updateSpan p site sec slot b k).pending = s.pending ∧
    (s.updateSpan p site sec slot b k).freeCtr = s.freeCtr ∧ (s.updateSpan p site sec slot b k).timeUs = s.timeUs ∧
    (s.updateSpan p site sec slot b k).sec = s.sec ∧ (s.updateSpan p site sec slot b k).h = s.h := by
  unfold State.updateSpan
  dsimp only
  split
  · simp
  · split
    · rename_i heq; simp only [Prod.ext_iff] at heq; obtain ⟨-, rfl⟩ := heq; simp
    · rename_i heq; simp only [Prod.ext_iff] at heq; obtain ⟨-, rfl⟩ := heq; simp

@[simp] theorem State.fire_frame (s : State) (fn : ℕ) (v : ℕ) : (s.fire fn v).pending = s.pending ∧
    (s.fire fn v).freeCtr = s.freeCtr ∧ (s.fire fn v).timeUs = s.timeUs ∧ (s.fire fn v).regs = s.regs ∧
    (s.fire fn v).core = s.core ∧ (s.fire fn v).mx = s.mx ∧ (s.fire fn v).m = s.m ∧ (s.fire fn v).e = s.e ∧
    (s.fire fn v).b = s.b ∧ (s.fire fn v).fab = s.fab ∧ (s.fire fn v).sec = s.sec ∧ (s.fire fn v).j = s.j ∧
    (s.fire fn v).pm = s.pm := by
  simp -implicitDefEqProofs (maxDischargeDepth := 8) [State.fire]

@[simp] theorem State.unmask_frame (s : State) (fn : ℕ) (v : ℕ) : (s.unmask fn v).pending = s.pending ∧
    (s.unmask fn v).freeCtr = s.freeCtr ∧ (s.unmask fn v).timeUs = s.timeUs ∧ (s.unmask fn v).regs = s.regs ∧
    (s.unmask fn v).core = s.core ∧ (s.unmask fn v).mx = s.mx ∧ (s.unmask fn v).m = s.m ∧ (s.unmask fn v).e = s.e ∧
    (s.unmask fn v).b = s.b ∧ (s.unmask fn v).fab = s.fab ∧ (s.unmask fn v).sec = s.sec ∧ (s.unmask fn v).j = s.j ∧
    (s.unmask fn v).pm = s.pm := by
  simp -implicitDefEqProofs (maxDischargeDepth := 8) [State.unmask]

@[simp] theorem State.enableMsix_frame (s : State) (fn : ℕ) (on : Bool) :
    (s.enableMsix fn on).pending = s.pending ∧ (s.enableMsix fn on).freeCtr = s.freeCtr ∧
    (s.enableMsix fn on).timeUs = s.timeUs ∧ (s.enableMsix fn on).regs = s.regs ∧
    (s.enableMsix fn on).core = s.core ∧ (s.enableMsix fn on).mx = s.mx ∧ (s.enableMsix fn on).m = s.m ∧
    (s.enableMsix fn on).e = s.e ∧ (s.enableMsix fn on).b = s.b ∧ (s.enableMsix fn on).fab = s.fab ∧
    (s.enableMsix fn on).sec = s.sec ∧ (s.enableMsix fn on).j = s.j ∧ (s.enableMsix fn on).pm = s.pm := by
  simp -implicitDefEqProofs (maxDischargeDepth := 8) [State.enableMsix]

@[simp] theorem State.ringError_frame (s : State) (fn : ℕ) (r : ℕ) (cause : ℕ) :
    (s.ringError fn r cause).pending = s.pending ∧ (s.ringError fn r cause).freeCtr = s.freeCtr ∧
    (s.ringError fn r cause).timeUs = s.timeUs ∧ (s.ringError fn r cause).core = s.core ∧
    (s.ringError fn r cause).mx = s.mx ∧ (s.ringError fn r cause).m = s.m ∧ (s.ringError fn r cause).b = s.b ∧
    (s.ringError fn r cause).fab = s.fab ∧ (s.ringError fn r cause).sec = s.sec ∧
    (s.ringError fn r cause).j = s.j ∧ (s.ringError fn r cause).h = s.h := by
  simp -implicitDefEqProofs (maxDischargeDepth := 8) [State.ringError]

@[simp] theorem State.coalesce_frame (s : State) (fn : ℕ) (r : ℕ) (timer : Bool) :
    (s.coalesce fn r timer).pending = s.pending ∧ (s.coalesce fn r timer).freeCtr = s.freeCtr ∧
    (s.coalesce fn r timer).timeUs = s.timeUs ∧ (s.coalesce fn r timer).regs = s.regs ∧
    (s.coalesce fn r timer).core = s.core ∧ (s.coalesce fn r timer).mx = s.mx ∧ (s.coalesce fn r timer).m = s.m ∧
    (s.coalesce fn r timer).e = s.e ∧ (s.coalesce fn r timer).b = s.b ∧ (s.coalesce fn r timer).fab = s.fab ∧
    (s.coalesce fn r timer).sec = s.sec ∧ (s.coalesce fn r timer).j = s.j ∧ (s.coalesce fn r timer).pm = s.pm := by
  simp -implicitDefEqProofs (maxDischargeDepth := 8) [State.coalesce]

@[simp] theorem State.putRingCtrl_frame (s : State) (fn : ℕ) (r : ℕ) (w : ℕ) :
    (s.putRingCtrl fn r w).pending = s.pending ∧ (s.putRingCtrl fn r w).freeCtr = s.freeCtr ∧
    (s.putRingCtrl fn r w).timeUs = s.timeUs ∧ (s.putRingCtrl fn r w).core = s.core ∧
    (s.putRingCtrl fn r w).mx = s.mx ∧ (s.putRingCtrl fn r w).m = s.m ∧ (s.putRingCtrl fn r w).e = s.e ∧
    (s.putRingCtrl fn r w).b = s.b ∧ (s.putRingCtrl fn r w).fab = s.fab ∧ (s.putRingCtrl fn r w).sec = s.sec ∧
    (s.putRingCtrl fn r w).j = s.j ∧ (s.putRingCtrl fn r w).h = s.h ∧ (s.putRingCtrl fn r w).pm = s.pm := by
  simp -implicitDefEqProofs (maxDischargeDepth := 8) [State.putRingCtrl]

@[simp] theorem State.openRing_frame (s : State) (fn : ℕ) (r : ℕ) : (s.openRing fn r).pending = s.pending ∧
    (s.openRing fn r).freeCtr = s.freeCtr ∧ (s.openRing fn r).timeUs = s.timeUs ∧ (s.openRing fn r).core = s.core ∧
    (s.openRing fn r).mx = s.mx ∧ (s.openRing fn r).m = s.m ∧ (s.openRing fn r).e = s.e ∧
    (s.openRing fn r).b = s.b ∧ (s.openRing fn r).fab = s.fab ∧ (s.openRing fn r).sec = s.sec ∧
    (s.openRing fn r).j = s.j ∧ (s.openRing fn r).pm = s.pm := by
  simp -implicitDefEqProofs (maxDischargeDepth := 8) [State.openRing]

@[simp] theorem State.reply_frame (s : State) (x : Started) (status : ℕ) (detail : ℕ) (r0 : ℕ) (r1 : ℕ) :
    (s.reply x status detail r0 r1).pending = s.pending ∧ (s.reply x status detail r0 r1).freeCtr = s.freeCtr ∧
    (s.reply x status detail r0 r1).timeUs = s.timeUs ∧ (s.reply x status detail r0 r1).core = s.core ∧
    (s.reply x status detail r0 r1).mx = s.mx ∧ (s.reply x status detail r0 r1).b = s.b ∧
    (s.reply x status detail r0 r1).fab = s.fab ∧ (s.reply x status detail r0 r1).sec = s.sec ∧
    (s.reply x status detail r0 r1).j = s.j := by
  simp -implicitDefEqProofs (maxDischargeDepth := 8) [State.reply]

@[simp] theorem State.dropHeld_frame (s : State) (p : ℕ) : (s.dropHeld p).pending = s.pending ∧
    (s.dropHeld p).freeCtr = s.freeCtr ∧ (s.dropHeld p).timeUs = s.timeUs ∧ (s.dropHeld p).core = s.core ∧
    (s.dropHeld p).mx = s.mx ∧ (s.dropHeld p).b = s.b ∧ (s.dropHeld p).fab = s.fab ∧ (s.dropHeld p).sec = s.sec ∧
    (s.dropHeld p).j = s.j := by
  simp -implicitDefEqProofs (maxDischargeDepth := 8) [State.dropHeld]

@[simp] theorem State.dropServing_frame (s : State) (fn : ℕ) : (s.dropServing fn).pending = s.pending ∧
    (s.dropServing fn).freeCtr = s.freeCtr ∧ (s.dropServing fn).timeUs = s.timeUs ∧
    (s.dropServing fn).regs = s.regs ∧ (s.dropServing fn).core = s.core ∧ (s.dropServing fn).mx = s.mx ∧
    (s.dropServing fn).m = s.m ∧ (s.dropServing fn).e = s.e ∧ (s.dropServing fn).b = s.b ∧
    (s.dropServing fn).fab = s.fab ∧ (s.dropServing fn).sec = s.sec ∧ (s.dropServing fn).h = s.h ∧
    (s.dropServing fn).pm = s.pm := by
  simp -implicitDefEqProofs (maxDischargeDepth := 8) [State.dropServing]

@[simp] theorem State.dropFn_frame (s : State) (fn : ℕ) : (s.dropFn fn).pending = s.pending ∧
    (s.dropFn fn).freeCtr = s.freeCtr ∧ (s.dropFn fn).timeUs = s.timeUs ∧ (s.dropFn fn).core = s.core ∧
    (s.dropFn fn).mx = s.mx ∧ (s.dropFn fn).m = s.m ∧ (s.dropFn fn).e = s.e ∧ (s.dropFn fn).b = s.b ∧
    (s.dropFn fn).fab = s.fab := by
  simp -implicitDefEqProofs (maxDischargeDepth := 8) [State.dropFn]

@[simp] theorem State.setExch_frame (s : State) (p : ℕ) (x : Exch) : (s.setExch p x).pending = s.pending ∧
    (s.setExch p x).freeCtr = s.freeCtr ∧ (s.setExch p x).timeUs = s.timeUs ∧ (s.setExch p x).regs = s.regs ∧
    (s.setExch p x).core = s.core ∧ (s.setExch p x).mx = s.mx ∧ (s.setExch p x).m = s.m ∧ (s.setExch p x).e = s.e ∧
    (s.setExch p x).b = s.b ∧ (s.setExch p x).fab = s.fab ∧ (s.setExch p x).sec = s.sec ∧ (s.setExch p x).h = s.h ∧
    (s.setExch p x).pm = s.pm := by
  simp -implicitDefEqProofs (maxDischargeDepth := 8) [State.setExch]

@[simp] theorem State.placeCoach_frame (s : State) (p : ℕ) (x : Exch) (d : List Byte) (src : ℕ) (c : List Byte) (pt
    : ℕ × ℕ × Bool) : (s.placeCoach p x d src c pt).pending = s.pending ∧
    (s.placeCoach p x d src c pt).freeCtr = s.freeCtr ∧ (s.placeCoach p x d src c pt).timeUs = s.timeUs ∧
    (s.placeCoach p x d src c pt).b = s.b ∧ (s.placeCoach p x d src c pt).fab = s.fab ∧
    (s.placeCoach p x d src c pt).sec = s.sec ∧ (s.placeCoach p x d src c pt).h = s.h := by
  simp -implicitDefEqProofs (maxDischargeDepth := 8) [State.placeCoach]

@[simp] theorem State.parseStream_frame (s : State) (p : ℕ) (xid : ℕ) (src : ℕ) (a : ℕ) :
    (s.parseStream p xid src a).pending = s.pending ∧ (s.parseStream p xid src a).freeCtr = s.freeCtr ∧
    (s.parseStream p xid src a).timeUs = s.timeUs ∧ (s.parseStream p xid src a).b = s.b ∧
    (s.parseStream p xid src a).fab = s.fab ∧ (s.parseStream p xid src a).sec = s.sec ∧
    (s.parseStream p xid src a).h = s.h := by
  fun_induction s.parseStream p xid src a <;> simp_all -implicitDefEqProofs

@[simp] theorem State.parseAll_frame (s : State) (p : ℕ) (xid : ℕ) (src : ℕ) :
    (s.parseAll p xid src).pending = s.pending ∧ (s.parseAll p xid src).freeCtr = s.freeCtr ∧
    (s.parseAll p xid src).timeUs = s.timeUs ∧ (s.parseAll p xid src).b = s.b ∧
    (s.parseAll p xid src).fab = s.fab ∧ (s.parseAll p xid src).sec = s.sec ∧ (s.parseAll p xid src).h = s.h := by
  simp -implicitDefEqProofs (maxDischargeDepth := 8) [State.parseAll]

@[simp] theorem State.exchEnd_frame (s : State) (p : ℕ) (xid : ℕ) : (s.exchEnd p xid).pending = s.pending ∧
    (s.exchEnd p xid).freeCtr = s.freeCtr ∧ (s.exchEnd p xid).timeUs = s.timeUs ∧ (s.exchEnd p xid).b = s.b ∧
    (s.exchEnd p xid).fab = s.fab ∧ (s.exchEnd p xid).sec = s.sec ∧ (s.exchEnd p xid).h = s.h := by
  generalize hu : s.exchEnd p xid = u; unfold State.exchEnd at hu
  dsimp only at hu
  (repeat' split at hu) <;>
    ((try generalize mkTok 1 _ _ _ _ _ _ = tok at hu)
     subst hu
     simp -implicitDefEqProofs (maxDischargeDepth := 8))

@[simp] theorem State.segIn_frame (s : State) (p : ℕ) (src : ℕ) (d : List Byte) :
    (s.segIn p src d).pending = s.pending ∧ (s.segIn p src d).freeCtr = s.freeCtr ∧
    (s.segIn p src d).timeUs = s.timeUs ∧ (s.segIn p src d).b = s.b ∧ (s.segIn p src d).fab = s.fab ∧
    (s.segIn p src d).sec = s.sec ∧ (s.segIn p src d).h = s.h := by
  simp -implicitDefEqProofs (maxDischargeDepth := 8) [State.segIn]

@[simp] theorem State.coachSeen_frame (s : State) (p : ℕ) (list : ℕ) (i : ℕ) :
    (s.coachSeen p list i).pending = s.pending ∧ (s.coachSeen p list i).freeCtr = s.freeCtr ∧
    (s.coachSeen p list i).timeUs = s.timeUs ∧ (s.coachSeen p list i).m.mem = s.m.mem ∧
    (s.coachSeen p list i).b = s.b ∧ (s.coachSeen p list i).fab = s.fab ∧ (s.coachSeen p list i).sec = s.sec ∧
    (s.coachSeen p list i).j = s.j ∧ (s.coachSeen p list i).h = s.h := by
  simp -implicitDefEqProofs (maxDischargeDepth := 8) [State.coachSeen]

@[simp] theorem State.coachesSeen_frame (s : State) (p : ℕ) (list : ℕ) (n : ℕ) :
    (s.coachesSeen p list n).pending = s.pending ∧ (s.coachesSeen p list n).freeCtr = s.freeCtr ∧
    (s.coachesSeen p list n).timeUs = s.timeUs ∧ (s.coachesSeen p list n).m.mem = s.m.mem ∧
    (s.coachesSeen p list n).b = s.b ∧ (s.coachesSeen p list n).fab = s.fab ∧
    (s.coachesSeen p list n).sec = s.sec ∧ (s.coachesSeen p list n).j = s.j ∧ (s.coachesSeen p list n).h = s.h := by
  simp -implicitDefEqProofs (maxDischargeDepth := 8) [State.coachesSeen]

@[simp] theorem State.sendReplies_frame (s : State) (p : ℕ) : (s.sendReplies p).pending = s.pending ∧
    (s.sendReplies p).freeCtr = s.freeCtr ∧ (s.sendReplies p).timeUs = s.timeUs ∧ (s.sendReplies p).regs = s.regs ∧
    (s.sendReplies p).core = s.core ∧ (s.sendReplies p).mx = s.mx ∧ (s.sendReplies p).m = s.m ∧
    (s.sendReplies p).e = s.e ∧ (s.sendReplies p).b = s.b ∧ (s.sendReplies p).sec = s.sec ∧
    (s.sendReplies p).h = s.h ∧ (s.sendReplies p).pm = s.pm := by
  simp -implicitDefEqProofs (maxDischargeDepth := 8) [State.sendReplies]

@[simp] theorem State.startExch_frame (s : State) (p : ℕ) (sec : ℕ) (rqr : ℕ) (d : List Byte) (cs : List (ℕ × List
    Byte)) : (s.startExch p sec rqr d cs).pending = s.pending ∧ (s.startExch p sec rqr d cs).freeCtr = s.freeCtr ∧
    (s.startExch p sec rqr d cs).timeUs = s.timeUs ∧ (s.startExch p sec rqr d cs).b = s.b ∧
    (s.startExch p sec rqr d cs).sec = s.sec ∧ (s.startExch p sec rqr d cs).h = s.h := by
  simp -implicitDefEqProofs (maxDischargeDepth := 8) [State.startExch]

@[simp] theorem State.sign_frame (s : State) (msg : List Byte) : (s.sign msg).2.pending = s.pending ∧
    (s.sign msg).2.freeCtr = s.freeCtr ∧ (s.sign msg).2.timeUs = s.timeUs ∧ (s.sign msg).2.regs = s.regs ∧
    (s.sign msg).2.core = s.core ∧ (s.sign msg).2.mx = s.mx ∧ (s.sign msg).2.m = s.m ∧ (s.sign msg).2.e = s.e ∧
    (s.sign msg).2.b = s.b ∧ (s.sign msg).2.fab = s.fab ∧ (s.sign msg).2.j = s.j ∧ (s.sign msg).2.h = s.h ∧
    (s.sign msg).2.pm = s.pm := by
  simp -implicitDefEqProofs (maxDischargeDepth := 8) [State.sign]

@[simp] theorem State.signReq_frame (s : State) (r : SigReq) : (s.signReq r).pending = s.pending ∧
    (s.signReq r).freeCtr = s.freeCtr ∧ (s.signReq r).timeUs = s.timeUs ∧ (s.signReq r).regs = s.regs ∧
    (s.signReq r).core = s.core ∧ (s.signReq r).mx = s.mx ∧ (s.signReq r).m = s.m ∧ (s.signReq r).e = s.e ∧
    (s.signReq r).b = s.b ∧ (s.signReq r).fab = s.fab ∧ (s.signReq r).j = s.j ∧ (s.signReq r).h = s.h ∧
    (s.signReq r).pm = s.pm := by
  simp -implicitDefEqProofs (maxDischargeDepth := 8) [State.signReq]

@[simp] theorem State.appendEntry_frame (s : State) (p : ℕ) (kind : ℕ) (index : ℕ) (body : List Byte) :
    (s.appendEntry p kind index body).pending = s.pending ∧ (s.appendEntry p kind index body).freeCtr = s.freeCtr ∧
    (s.appendEntry p kind index body).timeUs = s.timeUs ∧ (s.appendEntry p kind index body).b = s.b ∧
    (s.appendEntry p kind index body).fab = s.fab ∧ (s.appendEntry p kind index body).sec = s.sec ∧
    (s.appendEntry p kind index body).h = s.h := by
  simp -implicitDefEqProofs (maxDischargeDepth := 8) [State.appendEntry]

@[simp] theorem State.signHead_frame (s : State) (p : ℕ) : (s.signHead p).pending = s.pending ∧
    (s.signHead p).freeCtr = s.freeCtr ∧ (s.signHead p).timeUs = s.timeUs ∧ (s.signHead p).b = s.b ∧
    (s.signHead p).fab = s.fab ∧ (s.signHead p).h = s.h := by
  simp -implicitDefEqProofs (maxDischargeDepth := 8) [State.signHead]

@[simp] theorem State.appendRecord_frame (s : State) (p : ℕ) (body : List Byte) :
    (s.appendRecord p body).pending = s.pending ∧ (s.appendRecord p body).freeCtr = s.freeCtr ∧
    (s.appendRecord p body).timeUs = s.timeUs ∧ (s.appendRecord p body).b = s.b ∧
    (s.appendRecord p body).fab = s.fab ∧ (s.appendRecord p body).h = s.h := by
  simp -implicitDefEqProofs (maxDischargeDepth := 8) [State.appendRecord]

@[simp] theorem State.buildIdx_frame (s : State) (p : ℕ) (d : List Byte) (off : ℕ) (es : List (ℕ × ℕ)) :
    (s.buildIdx p d off es).pending = s.pending ∧ (s.buildIdx p d off es).freeCtr = s.freeCtr ∧
    (s.buildIdx p d off es).timeUs = s.timeUs ∧ (s.buildIdx p d off es).b = s.b ∧
    (s.buildIdx p d off es).fab = s.fab ∧ (s.buildIdx p d off es).sec = s.sec ∧ (s.buildIdx p d off es).j = s.j ∧
    (s.buildIdx p d off es).h = s.h := by
  simp -implicitDefEqProofs (maxDischargeDepth := 8) [State.buildIdx]

@[simp] theorem State.addIdx_frame (s : State) (p : ℕ) (d : List Byte) (off : ℕ) (es : List (ℕ × ℕ)) :
    (s.addIdx p d off es).pending = s.pending ∧ (s.addIdx p d off es).freeCtr = s.freeCtr ∧
    (s.addIdx p d off es).timeUs = s.timeUs ∧ (s.addIdx p d off es).b = s.b ∧ (s.addIdx p d off es).fab = s.fab ∧
    (s.addIdx p d off es).sec = s.sec ∧ (s.addIdx p d off es).j = s.j ∧ (s.addIdx p d off es).h = s.h := by
  simp -implicitDefEqProofs (maxDischargeDepth := 8) [State.addIdx]

@[simp] theorem State.delIdx_frame (s : State) (p : ℕ) (d : List Byte) (off : ℕ) (rows : List ℕ) :
    (s.delIdx p d off rows).pending = s.pending ∧ (s.delIdx p d off rows).freeCtr = s.freeCtr ∧
    (s.delIdx p d off rows).timeUs = s.timeUs ∧ (s.delIdx p d off rows).b = s.b ∧
    (s.delIdx p d off rows).fab = s.fab ∧ (s.delIdx p d off rows).sec = s.sec ∧ (s.delIdx p d off rows).j = s.j ∧
    (s.delIdx p d off rows).h = s.h := by
  simp -implicitDefEqProofs (maxDischargeDepth := 8) [State.delIdx]

@[simp] theorem State.setDescs_frame (s : State) (p : ℕ) (tid : ℕ) (off : ℕ) (data : List Byte) :
    (s.setDescs p tid off data).pending = s.pending ∧ (s.setDescs p tid off data).freeCtr = s.freeCtr ∧
    (s.setDescs p tid off data).timeUs = s.timeUs ∧ (s.setDescs p tid off data).b = s.b ∧
    (s.setDescs p tid off data).fab = s.fab ∧ (s.setDescs p tid off data).sec = s.sec ∧
    (s.setDescs p tid off data).j = s.j ∧ (s.setDescs p tid off data).h = s.h := by
  simp -implicitDefEqProofs (maxDischargeDepth := 8) [State.setDescs]

@[simp] theorem State.pin_frame (s : State) (p : ℕ) (reader : ℕ) : (s.pin p reader).pending = s.pending ∧
    (s.pin p reader).freeCtr = s.freeCtr ∧ (s.pin p reader).timeUs = s.timeUs ∧ (s.pin p reader).regs = s.regs ∧
    (s.pin p reader).core = s.core ∧ (s.pin p reader).mx = s.mx ∧ (s.pin p reader).m = s.m ∧
    (s.pin p reader).e = s.e ∧ (s.pin p reader).b = s.b ∧ (s.pin p reader).fab = s.fab ∧
    (s.pin p reader).sec = s.sec ∧ (s.pin p reader).h = s.h ∧ (s.pin p reader).pm = s.pm := by
  simp -implicitDefEqProofs (maxDischargeDepth := 8) [State.pin]

@[simp] theorem State.unpin_frame (s : State) (p : ℕ) (reader : ℕ) : (s.unpin p reader).pending = s.pending ∧
    (s.unpin p reader).freeCtr = s.freeCtr ∧ (s.unpin p reader).timeUs = s.timeUs ∧
    (s.unpin p reader).regs = s.regs ∧ (s.unpin p reader).core = s.core ∧ (s.unpin p reader).mx = s.mx ∧
    (s.unpin p reader).m = s.m ∧ (s.unpin p reader).e = s.e ∧ (s.unpin p reader).b = s.b ∧
    (s.unpin p reader).fab = s.fab ∧ (s.unpin p reader).sec = s.sec ∧ (s.unpin p reader).h = s.h ∧
    (s.unpin p reader).pm = s.pm := by
  simp -implicitDefEqProofs (maxDischargeDepth := 8) [State.unpin]

@[simp] theorem State.sendRow_frame (s : State) (p : ℕ) (rqr : ℕ) (dev : ℕ) (kind : ℕ) (tid : ℕ) (row : ℕ) (data :
    List Byte) : (s.sendRow p rqr dev kind tid row data).pending = s.pending ∧
    (s.sendRow p rqr dev kind tid row data).freeCtr = s.freeCtr ∧
    (s.sendRow p rqr dev kind tid row data).timeUs = s.timeUs ∧
    (s.sendRow p rqr dev kind tid row data).regs = s.regs ∧ (s.sendRow p rqr dev kind tid row data).core = s.core ∧
    (s.sendRow p rqr dev kind tid row data).mx = s.mx ∧ (s.sendRow p rqr dev kind tid row data).m = s.m ∧
    (s.sendRow p rqr dev kind tid row data).e = s.e ∧ (s.sendRow p rqr dev kind tid row data).b = s.b ∧
    (s.sendRow p rqr dev kind tid row data).sec = s.sec ∧ (s.sendRow p rqr dev kind tid row data).j = s.j ∧
    (s.sendRow p rqr dev kind tid row data).h = s.h ∧ (s.sendRow p rqr dev kind tid row data).pm = s.pm := by
  simp -implicitDefEqProofs (maxDischargeDepth := 8) [State.sendRow]

@[simp] theorem State.sendReceipt_frame (s : State) (p : ℕ) (dev : ℕ) (m : Move) (what : ℕ) :
    (s.sendReceipt p dev m what).pending = s.pending ∧ (s.sendReceipt p dev m what).freeCtr = s.freeCtr ∧
    (s.sendReceipt p dev m what).timeUs = s.timeUs ∧ (s.sendReceipt p dev m what).regs = s.regs ∧
    (s.sendReceipt p dev m what).core = s.core ∧ (s.sendReceipt p dev m what).mx = s.mx ∧
    (s.sendReceipt p dev m what).m = s.m ∧ (s.sendReceipt p dev m what).e = s.e ∧
    (s.sendReceipt p dev m what).b = s.b ∧ (s.sendReceipt p dev m what).sec = s.sec ∧
    (s.sendReceipt p dev m what).j = s.j ∧ (s.sendReceipt p dev m what).h = s.h ∧
    (s.sendReceipt p dev m what).pm = s.pm := by
  simp -implicitDefEqProofs (maxDischargeDepth := 8) [State.sendReceipt]

@[simp] theorem State.dropPieces_frame (s : State) (p : ℕ) (kind : ℕ) (tid : ℕ) (row : ℕ) :
    (s.dropPieces p kind tid row).pending = s.pending ∧ (s.dropPieces p kind tid row).freeCtr = s.freeCtr ∧
    (s.dropPieces p kind tid row).timeUs = s.timeUs ∧ (s.dropPieces p kind tid row).regs = s.regs ∧
    (s.dropPieces p kind tid row).core = s.core ∧ (s.dropPieces p kind tid row).mx = s.mx ∧
    (s.dropPieces p kind tid row).m = s.m ∧ (s.dropPieces p kind tid row).e = s.e ∧
    (s.dropPieces p kind tid row).b = s.b ∧ (s.dropPieces p kind tid row).fab = s.fab ∧
    (s.dropPieces p kind tid row).sec = s.sec ∧ (s.dropPieces p kind tid row).h = s.h ∧
    (s.dropPieces p kind tid row).pm = s.pm := by
  simp -implicitDefEqProofs (maxDischargeDepth := 8) [State.dropPieces]

@[simp] theorem State.pickRows_frame (s : State) (p : ℕ) (d : List Byte) : (s.pickRows p d).2.pending = s.pending ∧
    (s.pickRows p d).2.timeUs = s.timeUs ∧ (s.pickRows p d).2.regs = s.regs ∧ (s.pickRows p d).2.core = s.core ∧
    (s.pickRows p d).2.mx = s.mx ∧ (s.pickRows p d).2.m = s.m ∧ (s.pickRows p d).2.e = s.e ∧
    (s.pickRows p d).2.b = s.b ∧ (s.pickRows p d).2.fab = s.fab ∧ (s.pickRows p d).2.sec = s.sec ∧
    (s.pickRows p d).2.j = s.j ∧ (s.pickRows p d).2.h = s.h ∧ (s.pickRows p d).2.pm = s.pm := by
  generalize hu : s.pickRows p d = u
  unfold State.pickRows at hu
  dsimp only at hu
  (repeat' split at hu) <;> (subst hu; simp -implicitDefEqProofs (maxDischargeDepth := 8))

@[simp] theorem State.startMove_frame (s : State) (p : ℕ) (d : List Byte) (r : ℕ) :
    (s.startMove p d r).pending = s.pending ∧ (s.startMove p d r).timeUs = s.timeUs ∧ (s.startMove p d r).b = s.b ∧
    (s.startMove p d r).sec = s.sec ∧ (s.startMove p d r).h = s.h := by
  unfold State.startMove
  dsimp only
  split
  · split
    · rename_i heq; simp only [Prod.ext_iff] at heq; obtain ⟨-, rfl⟩ := heq; simp
    · rename_i heq; simp only [Prod.ext_iff] at heq; obtain ⟨-, rfl⟩ := heq; simp
  · simp

@[simp] theorem State.startPicked_frame (s : State) (p : ℕ) (e : ℕ × ℕ) : (s.startPicked p e).pending = s.pending ∧
    (s.startPicked p e).timeUs = s.timeUs ∧ (s.startPicked p e).b = s.b ∧ (s.startPicked p e).sec = s.sec ∧
    (s.startPicked p e).h = s.h := by
  generalize hu : s.startPicked p e = u
  unfold State.startPicked at hu
  (repeat' split at hu) <;> (subst hu; simp -implicitDefEqProofs (maxDischargeDepth := 8))

@[simp] theorem State.startMoves_frame (s : State) (p : ℕ) : (s.startMoves p).pending = s.pending ∧
    (s.startMoves p).timeUs = s.timeUs ∧ (s.startMoves p).b = s.b ∧ (s.startMoves p).sec = s.sec ∧
    (s.startMoves p).h = s.h := by
  simp -implicitDefEqProofs (maxDischargeDepth := 8) [State.startMoves]

@[simp] theorem State.landKind_frame (s : State) (p : ℕ) (src : ℕ) (m : Move) (ks : List ℕ) (kind : ℕ) :
    (s.landKind p src m ks kind).pending = s.pending ∧ (s.landKind p src m ks kind).freeCtr = s.freeCtr ∧
    (s.landKind p src m ks kind).timeUs = s.timeUs ∧ (s.landKind p src m ks kind).b = s.b ∧
    (s.landKind p src m ks kind).sec = s.sec ∧ (s.landKind p src m ks kind).h = s.h := by
  generalize hu : s.landKind p src m ks kind = u
  unfold State.landKind at hu
  (repeat' split at hu) <;> (subst hu; simp -implicitDefEqProofs (maxDischargeDepth := 8))

@[simp] theorem State.landMove_frame (s : State) (p : ℕ) (src : ℕ) (m : Move) :
    (s.landMove p src m).pending = s.pending ∧ (s.landMove p src m).freeCtr = s.freeCtr ∧
    (s.landMove p src m).timeUs = s.timeUs ∧ (s.landMove p src m).b = s.b ∧ (s.landMove p src m).sec = s.sec ∧
    (s.landMove p src m).h = s.h := by
  generalize hu : s.landMove p src m = u
  unfold State.landMove at hu
  (repeat' split at hu) <;> (subst hu; simp -implicitDefEqProofs (maxDischargeDepth := 8))

@[simp] theorem State.modMove_frame (s : State) (p : ℕ) (tid : ℕ) (row : ℕ) (step : ℕ) (f : Move → Move) :
    (s.modMove p tid row step f).pending = s.pending ∧ (s.modMove p tid row step f).freeCtr = s.freeCtr ∧
    (s.modMove p tid row step f).timeUs = s.timeUs ∧ (s.modMove p tid row step f).regs = s.regs ∧
    (s.modMove p tid row step f).core = s.core ∧ (s.modMove p tid row step f).mx = s.mx ∧
    (s.modMove p tid row step f).m = s.m ∧ (s.modMove p tid row step f).e = s.e ∧
    (s.modMove p tid row step f).b = s.b ∧ (s.modMove p tid row step f).fab = s.fab ∧
    (s.modMove p tid row step f).sec = s.sec ∧ (s.modMove p tid row step f).h = s.h ∧
    (s.modMove p tid row step f).pm = s.pm := by
  simp -implicitDefEqProofs (maxDischargeDepth := 8) [State.modMove]

@[simp] theorem State.moveIn_frame (s : State) (p : ℕ) (src : ℕ) (tid : ℕ) (row : ℕ) (b : List Byte) :
    (s.moveIn p src tid row b).pending = s.pending ∧ (s.moveIn p src tid row b).freeCtr = s.freeCtr ∧
    (s.moveIn p src tid row b).timeUs = s.timeUs ∧ (s.moveIn p src tid row b).b = s.b ∧
    (s.moveIn p src tid row b).sec = s.sec ∧ (s.moveIn p src tid row b).h = s.h := by
  generalize hu : s.moveIn p src tid row b = u
  unfold State.moveIn at hu
  dsimp only at hu
  (repeat' split at hu) <;> (subst hu; simp -implicitDefEqProofs (maxDischargeDepth := 8))

@[simp] theorem State.sendDelta_frame (s : State) (p : ℕ) (m : Move) : (s.sendDelta p m).pending = s.pending ∧
    (s.sendDelta p m).freeCtr = s.freeCtr ∧ (s.sendDelta p m).timeUs = s.timeUs ∧
    (s.sendDelta p m).m.mem = s.m.mem ∧ (s.sendDelta p m).b = s.b ∧ (s.sendDelta p m).sec = s.sec ∧
    (s.sendDelta p m).j = s.j ∧ (s.sendDelta p m).h = s.h := by
  generalize hu : s.sendDelta p m = u
  unfold State.sendDelta at hu
  (try generalize (2 : ℕ) ^ 48 = z at hu)
  try dsimp only at hu
  (repeat' split at hu) <;>
    (subst hu
     (try simp only [Prod.ext_iff] at *) <;> (try casesm* _ ∧ _) <;> subst_vars <;>
       first
       | (simp -implicitDefEqProofs (maxDischargeDepth := 8); done)
       | simp_all -implicitDefEqProofs)

@[simp] theorem State.sendDeltas_frame (s : State) (p : ℕ) : (s.sendDeltas p).pending = s.pending ∧
    (s.sendDeltas p).freeCtr = s.freeCtr ∧ (s.sendDeltas p).timeUs = s.timeUs ∧ (s.sendDeltas p).m.mem = s.m.mem ∧
    (s.sendDeltas p).b = s.b ∧ (s.sendDeltas p).sec = s.sec ∧ (s.sendDeltas p).h = s.h := by
  simp -implicitDefEqProofs (maxDischargeDepth := 8) [State.sendDeltas]

@[simp] theorem State.installMoves_frame (s : State) (p : ℕ) : (s.installMoves p).pending = s.pending ∧
    (s.installMoves p).freeCtr = s.freeCtr ∧ (s.installMoves p).timeUs = s.timeUs ∧ (s.installMoves p).b = s.b ∧
    (s.installMoves p).fab = s.fab ∧ (s.installMoves p).sec = s.sec ∧ (s.installMoves p).h = s.h := by
  simp -implicitDefEqProofs (maxDischargeDepth := 8) [State.installMoves]

@[simp] theorem State.dropMoves_frame (s : State) (p : ℕ) : (s.dropMoves p).pending = s.pending ∧
    (s.dropMoves p).freeCtr = s.freeCtr ∧ (s.dropMoves p).timeUs = s.timeUs ∧ (s.dropMoves p).b = s.b ∧
    (s.dropMoves p).fab = s.fab ∧ (s.dropMoves p).sec = s.sec ∧ (s.dropMoves p).h = s.h := by
  simp -implicitDefEqProofs (maxDischargeDepth := 8) [State.dropMoves]

@[simp] theorem State.forgetMoves_frame (s : State) (p : ℕ) : (s.forgetMoves p).pending = s.pending ∧
    (s.forgetMoves p).freeCtr = s.freeCtr ∧ (s.forgetMoves p).timeUs = s.timeUs ∧ (s.forgetMoves p).b = s.b ∧
    (s.forgetMoves p).fab = s.fab ∧ (s.forgetMoves p).sec = s.sec ∧ (s.forgetMoves p).h = s.h := by
  simp -implicitDefEqProofs (maxDischargeDepth := 8) [State.forgetMoves]

@[simp] theorem State.seeParts_frame (s : State) (p : ℕ) : (s.seeParts p).pending = s.pending ∧
    (s.seeParts p).freeCtr = s.freeCtr ∧ (s.seeParts p).timeUs = s.timeUs ∧ (s.seeParts p).m.mem = s.m.mem ∧
    (s.seeParts p).b = s.b ∧ (s.seeParts p).fab = s.fab ∧ (s.seeParts p).sec = s.sec ∧ (s.seeParts p).j = s.j ∧
    (s.seeParts p).h = s.h := by
  simp -implicitDefEqProofs (maxDischargeDepth := 8) [State.seeParts]

@[simp] theorem State.putBufs_frame (s : State) (a : List (ℕ × ℕ)) (a1 : List Byte) :
    (s.putBufs a a1).pending = s.pending ∧ (s.putBufs a a1).freeCtr = s.freeCtr ∧
    (s.putBufs a a1).timeUs = s.timeUs ∧ (s.putBufs a a1).regs = s.regs ∧ (s.putBufs a a1).core = s.core ∧
    (s.putBufs a a1).mx = s.mx ∧ (s.putBufs a a1).e = s.e ∧ (s.putBufs a a1).b = s.b ∧
    (s.putBufs a a1).fab = s.fab ∧ (s.putBufs a a1).sec = s.sec ∧ (s.putBufs a a1).j = s.j ∧
    (s.putBufs a a1).h = s.h ∧ (s.putBufs a a1).pm = s.pm := by
  fun_induction s.putBufs a a1 <;> simp_all -implicitDefEqProofs (maxDischargeDepth := 8)

@[simp] theorem State.writeParts_frame (s : State) (p : ℕ) (step : ℕ) (x : Started) (ps : List (List Byte × List
    Byte)) : (s.writeParts p step x ps).2.pending = s.pending ∧ (s.writeParts p step x ps).2.freeCtr = s.freeCtr ∧
    (s.writeParts p step x ps).2.timeUs = s.timeUs ∧ (s.writeParts p step x ps).2.core = s.core ∧
    (s.writeParts p step x ps).2.mx = s.mx ∧ (s.writeParts p step x ps).2.b = s.b ∧
    (s.writeParts p step x ps).2.fab = s.fab ∧ (s.writeParts p step x ps).2.sec = s.sec ∧
    (s.writeParts p step x ps).2.j = s.j := by
  generalize hu : s.writeParts p step x ps = u
  unfold State.writeParts at hu
  dsimp only at hu
  (repeat' split at hu) <;> (subst hu; simp -implicitDefEqProofs (maxDischargeDepth := 8))

@[simp] theorem State.tryCheckpoint_frame (s : State) (p : ℕ) : (s.tryCheckpoint p).pending = s.pending ∧
    (s.tryCheckpoint p).freeCtr = s.freeCtr ∧ (s.tryCheckpoint p).timeUs = s.timeUs ∧ (s.tryCheckpoint p).b = s.b ∧
    (s.tryCheckpoint p).fab = s.fab ∧ (s.tryCheckpoint p).sec = s.sec := by
  unfold State.tryCheckpoint
  split
  · dsimp only
    split
    · simp -implicitDefEqProofs
    · split <;> rename_i heq <;> simp only [Prod.ext_iff] at heq <;> obtain ⟨-, rfl⟩ := heq <;> simp -implicitDefEqProofs
  · simp -implicitDefEqProofs

@[simp] theorem State.setJstate_frame (s : State) (p : ℕ) (st : ℕ) (cause : ℕ) :
    (s.setJstate p st cause).pending = s.pending ∧ (s.setJstate p st cause).freeCtr = s.freeCtr ∧
    (s.setJstate p st cause).timeUs = s.timeUs ∧ (s.setJstate p st cause).core = s.core ∧
    (s.setJstate p st cause).mx = s.mx ∧ (s.setJstate p st cause).m = s.m ∧ (s.setJstate p st cause).e = s.e ∧
    (s.setJstate p st cause).b = s.b ∧ (s.setJstate p st cause).fab = s.fab ∧
    (s.setJstate p st cause).sec = s.sec ∧ (s.setJstate p st cause).j = s.j ∧ (s.setJstate p st cause).h = s.h ∧
    (s.setJstate p st cause).pm = s.pm := by
  simp -implicitDefEqProofs (maxDischargeDepth := 8) [State.setJstate]

@[simp] theorem State.putFld_frame (s : State) (f : Fld) (v : ℕ) : (s.putFld f v).pending = s.pending ∧
    (s.putFld f v).freeCtr = s.freeCtr ∧ (s.putFld f v).timeUs = s.timeUs ∧ (s.putFld f v).core = s.core ∧
    (s.putFld f v).mx = s.mx ∧ (s.putFld f v).m.mem = s.m.mem ∧ (s.putFld f v).e = s.e ∧ (s.putFld f v).b = s.b ∧
    (s.putFld f v).fab = s.fab ∧ (s.putFld f v).sec = s.sec ∧ (s.putFld f v).j = s.j ∧ (s.putFld f v).h = s.h ∧
    (s.putFld f v).pm = s.pm := by
  simp -implicitDefEqProofs (maxDischargeDepth := 8) [State.putFld]

@[simp] theorem State.applyHeldFlds_frame (s : State) (p : ℕ) : (s.applyHeldFlds p).pending = s.pending ∧
    (s.applyHeldFlds p).freeCtr = s.freeCtr ∧ (s.applyHeldFlds p).timeUs = s.timeUs ∧
    (s.applyHeldFlds p).core = s.core ∧ (s.applyHeldFlds p).mx = s.mx ∧ (s.applyHeldFlds p).m.mem = s.m.mem ∧
    (s.applyHeldFlds p).e = s.e ∧ (s.applyHeldFlds p).b = s.b ∧ (s.applyHeldFlds p).fab = s.fab ∧
    (s.applyHeldFlds p).sec = s.sec ∧ (s.applyHeldFlds p).h = s.h ∧ (s.applyHeldFlds p).pm = s.pm := by
  simp -implicitDefEqProofs (maxDischargeDepth := 8) [State.applyHeldFlds]

@[simp] theorem State.applyHeldMem_frame (s : State) (p : ℕ) : (s.applyHeldMem p).pending = s.pending ∧
    (s.applyHeldMem p).freeCtr = s.freeCtr ∧ (s.applyHeldMem p).timeUs = s.timeUs ∧ (s.applyHeldMem p).b = s.b ∧
    (s.applyHeldMem p).fab = s.fab ∧ (s.applyHeldMem p).sec = s.sec ∧ (s.applyHeldMem p).h = s.h := by
  simp -implicitDefEqProofs (maxDischargeDepth := 8) [State.applyHeldMem]

@[simp] theorem State.openJournal_frame (s : State) (p : ℕ) : (s.openJournal p).pending = s.pending ∧
    (s.openJournal p).freeCtr = s.freeCtr ∧ (s.openJournal p).timeUs = s.timeUs ∧ (s.openJournal p).regs = s.regs ∧
    (s.openJournal p).core = s.core ∧ (s.openJournal p).mx = s.mx ∧ (s.openJournal p).m = s.m ∧
    (s.openJournal p).e = s.e ∧ (s.openJournal p).fab = s.fab ∧ (s.openJournal p).sec = s.sec ∧
    (s.openJournal p).j = s.j ∧ (s.openJournal p).h = s.h ∧ (s.openJournal p).pm = s.pm := by
  simp -implicitDefEqProofs (maxDischargeDepth := 8) [State.openJournal]

@[simp] theorem State.putHotIn_frame (s : State) (p : ℕ) (sec : ℕ) (tid : ℕ) (row : ℕ) (vec : List Byte) :
    (s.putHotIn p sec tid row vec).pending = s.pending ∧ (s.putHotIn p sec tid row vec).freeCtr = s.freeCtr ∧
    (s.putHotIn p sec tid row vec).timeUs = s.timeUs ∧ (s.putHotIn p sec tid row vec).b = s.b ∧
    (s.putHotIn p sec tid row vec).fab = s.fab ∧ (s.putHotIn p sec tid row vec).sec = s.sec ∧
    (s.putHotIn p sec tid row vec).j = s.j ∧ (s.putHotIn p sec tid row vec).h = s.h := by
  generalize hu : s.putHotIn p sec tid row vec = u
  unfold State.putHotIn at hu
  (repeat' split at hu) <;> (subst hu; simp -implicitDefEqProofs (maxDischargeDepth := 8))

@[simp] theorem State.putHot_frame (s : State) (p : ℕ) (tid : ℕ) (row : ℕ) (vec : List Byte) :
    (s.putHot p tid row vec).pending = s.pending ∧ (s.putHot p tid row vec).freeCtr = s.freeCtr ∧
    (s.putHot p tid row vec).timeUs = s.timeUs ∧ (s.putHot p tid row vec).b = s.b ∧
    (s.putHot p tid row vec).fab = s.fab ∧ (s.putHot p tid row vec).sec = s.sec ∧
    (s.putHot p tid row vec).j = s.j ∧ (s.putHot p tid row vec).h = s.h := by
  simp -implicitDefEqProofs (maxDischargeDepth := 8) [State.putHot]

@[simp] theorem State.buildHotIndex_frame (s : State) (p : ℕ) (sec : ℕ) (d : List Byte) (rows : List ℕ) :
    (s.buildHotIndex p sec d rows).pending = s.pending ∧ (s.buildHotIndex p sec d rows).freeCtr = s.freeCtr ∧
    (s.buildHotIndex p sec d rows).timeUs = s.timeUs ∧ (s.buildHotIndex p sec d rows).b = s.b ∧
    (s.buildHotIndex p sec d rows).fab = s.fab ∧ (s.buildHotIndex p sec d rows).sec = s.sec ∧
    (s.buildHotIndex p sec d rows).j = s.j ∧ (s.buildHotIndex p sec d rows).h = s.h := by
  simp -implicitDefEqProofs (maxDischargeDepth := 8) [State.buildHotIndex]

@[simp] theorem State.fitHot_frame (s : State) (p : ℕ) : (s.fitHot p).pending = s.pending ∧
    (s.fitHot p).freeCtr = s.freeCtr ∧ (s.fitHot p).timeUs = s.timeUs ∧ (s.fitHot p).b = s.b ∧
    (s.fitHot p).fab = s.fab ∧ (s.fitHot p).sec = s.sec ∧ (s.fitHot p).j = s.j ∧ (s.fitHot p).h = s.h := by
  simp -implicitDefEqProofs (maxDischargeDepth := 8) [State.fitHot]

@[simp] theorem State.settlePounds_frame (s : State) (p : ℕ) : (s.settlePounds p).pending = s.pending ∧
    (s.settlePounds p).freeCtr = s.freeCtr ∧ (s.settlePounds p).timeUs = s.timeUs ∧ (s.settlePounds p).b = s.b ∧
    (s.settlePounds p).fab = s.fab ∧ (s.settlePounds p).sec = s.sec ∧ (s.settlePounds p).h = s.h := by
  simp -implicitDefEqProofs (maxDischargeDepth := 8) [State.settlePounds]

@[simp] theorem State.refreshRow_frame (s : State) (p : ℕ) (tid : ℕ) (row : ℕ) :
    (s.refreshRow p tid row).pending = s.pending ∧ (s.refreshRow p tid row).freeCtr = s.freeCtr ∧
    (s.refreshRow p tid row).timeUs = s.timeUs ∧ (s.refreshRow p tid row).b = s.b ∧
    (s.refreshRow p tid row).sec = s.sec ∧ (s.refreshRow p tid row).h = s.h := by
  generalize hu : s.refreshRow p tid row = u
  unfold State.refreshRow at hu
  (try generalize (2 : ℕ) ^ 48 = z at hu)
  try dsimp only at hu
  (repeat' split at hu) <;>
    (subst hu
     (try simp only [Prod.ext_iff] at *) <;> (try casesm* _ ∧ _) <;> subst_vars <;>
       first
       | (simp -implicitDefEqProofs (maxDischargeDepth := 8); done)
       | simp_all -implicitDefEqProofs)

@[simp] theorem State.setHot_frame (s : State) (p : ℕ) (step : ℕ) (tid : ℕ) (rows : List ℕ) :
    (s.setHot p step tid rows).pending = s.pending ∧ (s.setHot p step tid rows).freeCtr = s.freeCtr ∧
    (s.setHot p step tid rows).timeUs = s.timeUs ∧ (s.setHot p step tid rows).regs = s.regs ∧
    (s.setHot p step tid rows).core = s.core ∧ (s.setHot p step tid rows).mx = s.mx ∧
    (s.setHot p step tid rows).m = s.m ∧ (s.setHot p step tid rows).e = s.e ∧ (s.setHot p step tid rows).b = s.b ∧
    (s.setHot p step tid rows).fab = s.fab ∧ (s.setHot p step tid rows).sec = s.sec ∧
    (s.setHot p step tid rows).h = s.h ∧ (s.setHot p step tid rows).pm = s.pm := by
  simp -implicitDefEqProofs (maxDischargeDepth := 8) [State.setHot]

@[simp] theorem State.hotVecs_frame (s : State) (p : ℕ) (sec : ℕ) (tid : ℕ) :
    (s.hotVecs p sec tid).2.pending = s.pending ∧ (s.hotVecs p sec tid).2.freeCtr = s.freeCtr ∧
    (s.hotVecs p sec tid).2.timeUs = s.timeUs ∧ (s.hotVecs p sec tid).2.m.mem = s.m.mem ∧
    (s.hotVecs p sec tid).2.b = s.b ∧ (s.hotVecs p sec tid).2.fab = s.fab ∧ (s.hotVecs p sec tid).2.sec = s.sec ∧
    (s.hotVecs p sec tid).2.j = s.j ∧ (s.hotVecs p sec tid).2.h = s.h := by
  unfold State.hotVecs
  refine foldl_snd_rel (fun u v => u.pending = v.pending ∧ u.freeCtr = v.freeCtr ∧ u.timeUs = v.timeUs ∧
      u.m.mem = v.m.mem ∧ u.b = v.b ∧ u.fab = v.fab ∧ u.sec = v.sec ∧ u.j = v.j ∧ u.h = v.h)
    _ _ _ (fun _ => ⟨rfl, rfl, rfl, rfl, rfl, rfl, rfl, rfl, rfl⟩) (fun a b c h g => by simp only [h, g, and_self])
        (fun e d => ?_)
  refine foldl_snd_rel (fun u v => u.pending = v.pending ∧ u.freeCtr = v.freeCtr ∧ u.timeUs = v.timeUs ∧
      u.m.mem = v.m.mem ∧ u.b = v.b ∧ u.fab = v.fab ∧ u.sec = v.sec ∧ u.j = v.j ∧ u.h = v.h)
    _ _ _ (fun _ => ⟨rfl, rfl, rfl, rfl, rfl, rfl, rfl, rfl, rfl⟩) (fun a b c h g => by simp only [h, g, and_self])
        (fun a x => ?_)
  split
  · exact ⟨rfl, rfl, rfl, rfl, rfl, rfl, rfl, rfl, rfl⟩
  · rename_i y land _
    have h := State.readKeys_frame a.2 7 (seqKeys (y.key sec land) y.recBytes)
    generalize a.2.readKeys 7 (seqKeys (y.key sec land) y.recBytes) = q at h ⊢
    rcases q with ⟨_ | b, u⟩ <;> exact h

@[simp] theorem State.hotHeld_frame (s : State) (p : ℕ) (tid : ℕ) : (s.hotHeld p tid).2.pending = s.pending ∧
    (s.hotHeld p tid).2.freeCtr = s.freeCtr ∧ (s.hotHeld p tid).2.timeUs = s.timeUs ∧
    (s.hotHeld p tid).2.m.mem = s.m.mem ∧ (s.hotHeld p tid).2.b = s.b ∧ (s.hotHeld p tid).2.fab = s.fab ∧
    (s.hotHeld p tid).2.sec = s.sec ∧ (s.hotHeld p tid).2.j = s.j ∧ (s.hotHeld p tid).2.h = s.h := by
  unfold State.hotHeld
  exact foldl_snd_rel (fun u v => u.pending = v.pending ∧ u.freeCtr = v.freeCtr ∧ u.timeUs = v.timeUs ∧
      u.m.mem = v.m.mem ∧ u.b = v.b ∧ u.fab = v.fab ∧ u.sec = v.sec ∧ u.j = v.j ∧ u.h = v.h)
    _ _ _ (fun _ => ⟨rfl, rfl, rfl, rfl, rfl, rfl, rfl, rfl, rfl⟩) (fun a b c h g => by simp only [h, g, and_self])
    (fun e x => State.hotVecs_frame e.2 p x tid)

@[simp] theorem State.hotRefresh_frame (s : State) (p : ℕ) (step : ℕ) (tid : ℕ) (rows : List ℕ) :
    (s.hotRefresh p step tid rows).pending = s.pending ∧ (s.hotRefresh p step tid rows).freeCtr = s.freeCtr ∧
    (s.hotRefresh p step tid rows).timeUs = s.timeUs ∧ (s.hotRefresh p step tid rows).b = s.b ∧
    (s.hotRefresh p step tid rows).sec = s.sec ∧ (s.hotRefresh p step tid rows).h = s.h := by
  simp -implicitDefEqProofs (maxDischargeDepth := 8) [State.hotRefresh]

@[simp] theorem State.newImage_frame (s : State) (new : ℕ) (c : ℕ) (t : ℕ) :
    (s.newImage new c t).pending = s.pending ∧ (s.newImage new c t).freeCtr = s.freeCtr ∧
    (s.newImage new c t).timeUs = s.timeUs ∧ (s.newImage new c t).core = s.core ∧ (s.newImage new c t).mx = s.mx ∧
    (s.newImage new c t).m.mem = s.m.mem ∧ (s.newImage new c t).e = s.e ∧ (s.newImage new c t).b = s.b ∧
    (s.newImage new c t).fab = s.fab ∧ (s.newImage new c t).sec = s.sec ∧ (s.newImage new c t).j = s.j ∧
    (s.newImage new c t).h = s.h ∧ (s.newImage new c t).pm = s.pm := by
  simp [State.newImage]

@[simp] theorem State.newImages_frame (s : State) (p : ℕ) (tid : ℕ) (new : ℕ) (c : ℕ) :
    (s.newImages p tid new c).pending = s.pending ∧ (s.newImages p tid new c).freeCtr = s.freeCtr ∧
    (s.newImages p tid new c).timeUs = s.timeUs ∧ (s.newImages p tid new c).m.mem = s.m.mem ∧
    (s.newImages p tid new c).b = s.b ∧ (s.newImages p tid new c).fab = s.fab ∧
    (s.newImages p tid new c).sec = s.sec ∧ (s.newImages p tid new c).j = s.j ∧
    (s.newImages p tid new c).h = s.h := by
  unfold State.newImages
  generalize hf : (fun (s : State) t => s.newImage new c t) = f
  have h (s : State) (t : ℕ) : f s t = s.newImage new c t := by rw [← hf]
  simp [h]

@[simp] theorem State.newTable_frame (s : State) (p : ℕ) (tid : ℕ) (sec : ℕ) (at_ : ℕ) :
    (s.newTable p tid sec at_).pending = s.pending ∧ (s.newTable p tid sec at_).freeCtr = s.freeCtr ∧
    (s.newTable p tid sec at_).timeUs = s.timeUs ∧ (s.newTable p tid sec at_).b = s.b ∧
    (s.newTable p tid sec at_).fab = s.fab ∧ (s.newTable p tid sec at_).sec = s.sec ∧
    (s.newTable p tid sec at_).j = s.j ∧ (s.newTable p tid sec at_).h = s.h := by
  generalize hu : s.newTable p tid sec at_ = u
  unfold State.newTable at hu
  dsimp only at hu
  (repeat' split at hu) <;> (subst hu; simp -implicitDefEqProofs (maxDischargeDepth := 8))

@[simp] theorem State.replaceTable_frame (s : State) (p : ℕ) (tid : ℕ) (addr : ℕ) :
    (s.replaceTable p tid addr).1.pending = s.pending ∧ (s.replaceTable p tid addr).1.freeCtr = s.freeCtr ∧
    (s.replaceTable p tid addr).1.timeUs = s.timeUs ∧ (s.replaceTable p tid addr).1.b = s.b ∧
    (s.replaceTable p tid addr).1.fab = s.fab ∧ (s.replaceTable p tid addr).1.sec = s.sec ∧
    (s.replaceTable p tid addr).1.h = s.h := by
  generalize hu : s.replaceTable p tid addr = u
  unfold State.replaceTable at hu
  dsimp only at hu
  (repeat' split at hu) <;> (subst hu; simp -implicitDefEqProofs (maxDischargeDepth := 8))

@[simp] theorem State.freeImages_frame (s : State) (p : ℕ) (held : ℕ) : (s.freeImages p held).pending = s.pending ∧
    (s.freeImages p held).freeCtr = s.freeCtr ∧ (s.freeImages p held).timeUs = s.timeUs ∧
    (s.freeImages p held).core = s.core ∧ (s.freeImages p held).mx = s.mx ∧ (s.freeImages p held).m.mem = s.m.mem ∧
    (s.freeImages p held).e = s.e ∧ (s.freeImages p held).b = s.b ∧ (s.freeImages p held).fab = s.fab ∧
    (s.freeImages p held).sec = s.sec ∧ (s.freeImages p held).j = s.j ∧ (s.freeImages p held).h = s.h ∧
    (s.freeImages p held).pm = s.pm := by
  simp -implicitDefEqProofs (maxDischargeDepth := 8) [State.freeImages]

@[simp] theorem State.endedBy_fst (s : State) (p : Nat) (r : State × Nat × Nat) : (s.endedBy p r).1 = r.1 := by
  unfold State.endedBy; split <;> rfl

@[simp] theorem State.applyCmd_frame (s : State) (c : HostCmd) (p : ℕ) : (s.applyCmd c p).1.pending = s.pending ∧
    (s.applyCmd c p).1.freeCtr = s.freeCtr ∧ (s.applyCmd c p).1.timeUs = s.timeUs ∧ (s.applyCmd c p).1.b = s.b ∧
    (s.applyCmd c p).1.sec = s.sec ∧ (s.applyCmd c p).1.h = s.h := by
  generalize hu : s.applyCmd c p = u
  unfold State.applyCmd at hu
  dsimp only at hu
  (repeat' split at hu) <;> (subst hu; simp -implicitDefEqProofs (maxDischargeDepth := 8))

@[simp] theorem State.applyOne_frame (s : State) (p : ℕ) (c : HostCmd) : (s.applyOne p c).pending = s.pending ∧
    (s.applyOne p c).freeCtr = s.freeCtr ∧ (s.applyOne p c).timeUs = s.timeUs ∧ (s.applyOne p c).b = s.b ∧
    (s.applyOne p c).sec = s.sec := by
  unfold State.applyOne
  generalize hr : (if s.partState p = ptFenced then (s, stFenced, 0) else s.applyCmd c p) = r
  have h : r.1.pending = s.pending ∧ r.1.freeCtr = s.freeCtr ∧ r.1.timeUs = s.timeUs ∧ r.1.b = s.b ∧
      r.1.sec = s.sec := by
    subst hr; split <;> simp
  dsimp only
  split <;> simp -implicitDefEqProofs [h]

@[simp] theorem State.applyHeld_frame (s : State) (p : ℕ) : (s.applyHeld p).pending = s.pending ∧
    (s.applyHeld p).freeCtr = s.freeCtr ∧ (s.applyHeld p).timeUs = s.timeUs ∧ (s.applyHeld p).b = s.b ∧
    (s.applyHeld p).sec = s.sec := by
  unfold State.applyHeld
  dsimp only
  refine foldl_rel (fun u v => u.pending = v.pending ∧ u.freeCtr = v.freeCtr ∧ u.timeUs = v.timeUs ∧ u.b = v.b ∧
      u.sec = v.sec)
    _ _ _ (fun _ => ⟨rfl, rfl, rfl, rfl, rfl⟩) (fun a b c h g => by simp only [h, g, and_self]) (fun s x u e => e ▸
        ?_)
  split
  · exact ⟨rfl, rfl, rfl, rfl, rfl⟩
  · simp

@[simp] theorem State.clearLoads_frame (s : State) (p : ℕ) : (s.clearLoads p).pending = s.pending ∧
    (s.clearLoads p).freeCtr = s.freeCtr ∧ (s.clearLoads p).timeUs = s.timeUs ∧ (s.clearLoads p).regs = s.regs ∧
    (s.clearLoads p).core = s.core ∧ (s.clearLoads p).mx = s.mx ∧ (s.clearLoads p).e = s.e ∧
    (s.clearLoads p).fab = s.fab ∧ (s.clearLoads p).sec = s.sec ∧ (s.clearLoads p).j = s.j ∧
    (s.clearLoads p).h = s.h ∧ (s.clearLoads p).pm = s.pm := by
  simp -implicitDefEqProofs (maxDischargeDepth := 8) [State.clearLoads]

@[simp] theorem State.readLoads_frame (s : State) (p : ℕ) : (s.readLoads p).pending = s.pending ∧
    (s.readLoads p).timeUs = s.timeUs ∧ (s.readLoads p).m.mem = s.m.mem ∧ (s.readLoads p).b = s.b ∧
    (s.readLoads p).fab = s.fab ∧ (s.readLoads p).sec = s.sec ∧ (s.readLoads p).h = s.h := by
  unfold State.readLoads
  have h1 := foldl_rel (fun u v => u.pending = v.pending ∧ u.timeUs = v.timeUs ∧ u.m.mem = v.m.mem ∧ u.b = v.b ∧
      u.fab = v.fab ∧
      u.sec = v.sec ∧ u.h = v.h) (s.loadSlots p)
    (fun s e => (s.readKeys 7 (seqKeys (s.loadSpan e).1 (s.loadSpan e).2)).2) s
    (fun _ => ⟨rfl, rfl, rfl, rfl, rfl, rfl, rfl⟩) (fun a b c h g => by simp only [h, g, and_self])
    (fun s x u e => e ▸ by simp only [State.readKeys_frame, and_self])
  generalize (s.loadSlots p).foldl _ s = v at h1 ⊢
  dsimp only at h1 ⊢
  generalize (if v.on (STEP_CFG_SERVE p) then [] else v.jobTables p) = l
  have h2 := foldl_snd_rel (fun u v => u.pending = v.pending ∧ u.timeUs = v.timeUs ∧ u.m.mem = v.m.mem ∧ u.b = v.b ∧
      u.fab = v.fab ∧ u.sec = v.sec ∧ u.h = v.h) l
    (fun (a : List (Nat × Nat) × State) d => (a.1 ++ (a.2.pickRows p d).1.map (fun r => (tblId d, r)),
        (a.2.pickRows p d).2)) ([], v)
    (fun _ => ⟨rfl, rfl, rfl, rfl, rfl, rfl, rfl⟩) (fun a b c h g => by simp only [h, g, and_self])
    (fun a d => by simp only [State.pickRows_frame, and_self])
  generalize l.foldl _ (([], v) : List (Nat × Nat) × State) = r at h2 ⊢
  dsimp only at h2 ⊢
  simp only [State.modJob_frame, h2, h1, and_self]

@[simp] theorem State.clearCounts_frame (s : State) (p : ℕ) : (s.clearCounts p).pending = s.pending ∧
    (s.clearCounts p).freeCtr = s.freeCtr ∧ (s.clearCounts p).timeUs = s.timeUs ∧ (s.clearCounts p).core = s.core ∧
    (s.clearCounts p).mx = s.mx ∧ (s.clearCounts p).e = s.e ∧ (s.clearCounts p).fab = s.fab ∧
    (s.clearCounts p).sec = s.sec ∧ (s.clearCounts p).j = s.j ∧ (s.clearCounts p).h = s.h ∧
    (s.clearCounts p).pm = s.pm := by
  unfold State.clearCounts
  generalize List.range 64 = l64
  dsimp only
  have h : ∀ s : State, ∀ l : List Nat, (fun u v : State => u.pending = v.pending ∧ u.freeCtr = v.freeCtr ∧
      u.timeUs = v.timeUs ∧ u.core = v.core ∧ u.mx = v.mx ∧ u.e = v.e ∧ u.fab = v.fab ∧ u.sec = v.sec ∧ u.j = v.j ∧
      u.h = v.h ∧ u.pm = v.pm) (l.foldl (fun s st => l64.foldl (fun s t =>
      match s.slot st t with
      | some x =>
        if s.on (SB_LOAD_EN st t) ∧ x.part = p then
          s.zeroMem (keyStack st (s.fld (SB_LOAD_LOAD_BASE st t) * 64)) (roundUp (4 * ((x.rows + 65535) / 65536))
              64 + 32768)
        else s
      | none => s) s) s) s := by
    intro s l
    refine foldl_rel (fun u v => u.pending = v.pending ∧ u.freeCtr = v.freeCtr ∧ u.timeUs = v.timeUs ∧
        u.core = v.core ∧ u.mx = v.mx ∧ u.e = v.e ∧ u.fab = v.fab ∧ u.sec = v.sec ∧ u.j = v.j ∧ u.h = v.h ∧
        u.pm = v.pm) _ _ _ (by simp) (by simp_all) (fun s e u hu => ?_)
    subst hu
    refine foldl_rel (fun u v => u.pending = v.pending ∧ u.freeCtr = v.freeCtr ∧ u.timeUs = v.timeUs ∧
        u.core = v.core ∧ u.mx = v.mx ∧ u.e = v.e ∧ u.fab = v.fab ∧ u.sec = v.sec ∧ u.j = v.j ∧ u.h = v.h ∧
        u.pm = v.pm) _ _ _ (by simp) (by simp_all) (fun s c u hu => ?_)
    (repeat' split at hu) <;> subst hu <;> simp
  have h' := h s (s.partSecs p)
  generalize List.foldl _ s (s.partSecs p) = w at h'
  simpa -implicitDefEqProofs (maxDischargeDepth := 8) using h'

@[simp] theorem State.clearStep_frame (s : State) (p : ℕ) : (s.clearStep p).pending = s.pending ∧
    (s.clearStep p).freeCtr = s.freeCtr ∧ (s.clearStep p).timeUs = s.timeUs ∧ (s.clearStep p).core = s.core ∧
    (s.clearStep p).mx = s.mx ∧ (s.clearStep p).e = s.e ∧ (s.clearStep p).fab = s.fab ∧
    (s.clearStep p).sec = s.sec ∧ (s.clearStep p).j = s.j ∧ (s.clearStep p).h = s.h ∧ (s.clearStep p).pm = s.pm := by
  simp -implicitDefEqProofs (maxDischargeDepth := 8) [State.clearStep]

@[simp] theorem State.dropCaches_frame (s : State) (p : ℕ) : (s.dropCaches p).pending = s.pending ∧
    (s.dropCaches p).freeCtr = s.freeCtr ∧ (s.dropCaches p).timeUs = s.timeUs ∧ (s.dropCaches p).regs = s.regs ∧
    (s.dropCaches p).core = s.core ∧ (s.dropCaches p).mx = s.mx ∧ (s.dropCaches p).m.mem = s.m.mem ∧
    (s.dropCaches p).e = s.e ∧ (s.dropCaches p).b = s.b ∧ (s.dropCaches p).fab = s.fab ∧
    (s.dropCaches p).sec = s.sec ∧ (s.dropCaches p).j = s.j ∧ (s.dropCaches p).h = s.h ∧
    (s.dropCaches p).pm = s.pm := by
  simp -implicitDefEqProofs (maxDischargeDepth := 8) [State.dropCaches]

@[simp] theorem State.startStep_frame (s : State) (p : ℕ) : (s.startStep p).pending = s.pending ∧
    (s.startStep p).timeUs = s.timeUs ∧ (s.startStep p).sec = s.sec ∧ (s.startStep p).h = s.h := by
  simp -implicitDefEqProofs (maxDischargeDepth := 8) [State.startStep]

@[simp] theorem State.proceed_frame (s : State) (p : ℕ) : (s.proceed p).pending = s.pending ∧
    (s.proceed p).timeUs = s.timeUs ∧ (s.proceed p).sec = s.sec ∧ (s.proceed p).h = s.h := by
  simp -implicitDefEqProofs (maxDischargeDepth := 8) [State.proceed]

@[simp] theorem State.boundary_frame (s : State) (p : ℕ) (cause : ℕ) : (s.boundary p cause).pending = s.pending ∧
    (s.boundary p cause).timeUs = s.timeUs := by
  unfold State.boundary
  dsimp only
  (repeat' split) <;> simp -implicitDefEqProofs (maxDischargeDepth := 8)

@[simp] theorem State.freeAddr_frame (s : State) : (s.freeAddr).2.pending = s.pending ∧
    (s.freeAddr).2.timeUs = s.timeUs ∧ (s.freeAddr).2.regs = s.regs ∧ (s.freeAddr).2.core = s.core ∧
    (s.freeAddr).2.mx = s.mx ∧ (s.freeAddr).2.m = s.m ∧ (s.freeAddr).2.e = s.e ∧ (s.freeAddr).2.b = s.b ∧
    (s.freeAddr).2.fab = s.fab ∧ (s.freeAddr).2.sec = s.sec ∧ (s.freeAddr).2.j = s.j ∧ (s.freeAddr).2.h = s.h ∧
    (s.freeAddr).2.pm = s.pm := by
  simp -implicitDefEqProofs (maxDischargeDepth := 8) [State.freeAddr]

@[simp] theorem State.freePhys_frame (s : State) (p : ℕ) (unit : ℕ) : (s.freePhys p unit).2.pending = s.pending ∧
    (s.freePhys p unit).2.timeUs = s.timeUs ∧ (s.freePhys p unit).2.regs = s.regs ∧
    (s.freePhys p unit).2.core = s.core ∧ (s.freePhys p unit).2.mx = s.mx ∧ (s.freePhys p unit).2.m = s.m ∧
    (s.freePhys p unit).2.e = s.e ∧ (s.freePhys p unit).2.b = s.b ∧ (s.freePhys p unit).2.fab = s.fab ∧
    (s.freePhys p unit).2.sec = s.sec ∧ (s.freePhys p unit).2.j = s.j ∧ (s.freePhys p unit).2.h = s.h ∧
    (s.freePhys p unit).2.pm = s.pm := by
  simp -implicitDefEqProofs (maxDischargeDepth := 8) [State.freePhys]

@[simp] theorem State.mapFrom_frame (s : State) (p : ℕ) (va : ℕ) (a : ℕ) (a1 : ℕ) (a2 : ℕ) :
    (s.mapFrom p va a a1 a2).pending = s.pending ∧ (s.mapFrom p va a a1 a2).timeUs = s.timeUs ∧
    (s.mapFrom p va a a1 a2).b = s.b ∧ (s.mapFrom p va a a1 a2).fab = s.fab ∧
    (s.mapFrom p va a a1 a2).sec = s.sec ∧ (s.mapFrom p va a a1 a2).j = s.j ∧ (s.mapFrom p va a a1 a2).h = s.h := by
  induction a generalizing s a1 a2 with
  | zero => exact (fun (_ : State) => ⟨rfl, rfl, rfl, rfl, rfl, rfl, rfl⟩) s
  | succ n ih =>
    unfold State.mapFrom
    split
    · exact (fun (_ : State) => ⟨rfl, rfl, rfl, rfl, rfl, rfl, rfl⟩) s
    · split
      · exact ih _ _ _
      · exact (fun (_ : State) => ⟨rfl, rfl, rfl, rfl, rfl, rfl, rfl⟩) s
      · dsimp only
        rw [(ih _ _ _).1, (ih _ _ _).2.1, (ih _ _ _).2.2.1, (ih _ _ _).2.2.2.1, (ih _ _ _).2.2.2.2.1, (ih _ _
            _).2.2.2.2.2.1,
          (ih _ _ _).2.2.2.2.2.2]
        split <;> simp -implicitDefEqProofs

@[simp] theorem State.mapRange_frame (s : State) (p : ℕ) (va : ℕ) (n : ℕ) :
    (s.mapRange p va n).pending = s.pending ∧ (s.mapRange p va n).timeUs = s.timeUs ∧ (s.mapRange p va n).b = s.b ∧
    (s.mapRange p va n).fab = s.fab ∧ (s.mapRange p va n).sec = s.sec ∧ (s.mapRange p va n).j = s.j ∧
    (s.mapRange p va n).h = s.h := by
  unfold State.mapRange
  dsimp only
  split
  · exact foldl_rel (fun u v => u.pending = v.pending ∧ u.timeUs = v.timeUs ∧ u.b = v.b ∧ u.fab = v.fab ∧
      u.sec = v.sec ∧ u.j = v.j ∧ u.h = v.h)
      _ _ _ (fun _ => ⟨rfl, rfl, rfl, rfl, rfl, rfl, rfl⟩) (fun a b c h g => by simp only [h, g, and_self]) (fun s
          x u e => e ▸ State.mapFrom_frame ..)
  · exact (fun (_ : State) => ⟨rfl, rfl, rfl, rfl, rfl, rfl, rfl⟩) s

@[simp] theorem State.freshShard_frame (s : State) (p : ℕ) (slot : ℕ) (b : ℕ) (tid : ℕ) :
    (s.freshShard p slot b tid).2.pending = s.pending ∧ (s.freshShard p slot b tid).2.timeUs = s.timeUs ∧
    (s.freshShard p slot b tid).2.b = s.b ∧ (s.freshShard p slot b tid).2.fab = s.fab ∧
    (s.freshShard p slot b tid).2.sec = s.sec ∧ (s.freshShard p slot b tid).2.j = s.j ∧
    (s.freshShard p slot b tid).2.h = s.h := by
  unfold State.freshShard
  dsimp only
  exact foldl_snd_rel (fun u v => u.pending = v.pending ∧ u.timeUs = v.timeUs ∧ u.b = v.b ∧ u.fab = v.fab ∧
      u.sec = v.sec ∧ u.j = v.j ∧ u.h = v.h)
    _ _ _ (fun _ => ⟨rfl, rfl, rfl, rfl, rfl, rfl, rfl⟩) (fun a b c h g => by simp only [h, g, and_self]) (fun e x
        => by simp -implicitDefEqProofs)

@[simp] theorem State.writeShard_frame (s : State) (p : ℕ) (kept : List ((ℕ × ℕ) × List Byte)) (g : ℕ) :
    (s.writeShard p kept g).pending = s.pending ∧ (s.writeShard p kept g).timeUs = s.timeUs ∧
    (s.writeShard p kept g).b = s.b ∧ (s.writeShard p kept g).fab = s.fab ∧ (s.writeShard p kept g).sec = s.sec ∧
    (s.writeShard p kept g).j = s.j ∧ (s.writeShard p kept g).h = s.h := by
  unfold State.writeShard
  try dsimp only
  refine foldl_from (fun u v => u.pending = v.pending ∧ u.timeUs = v.timeUs ∧ u.b = v.b ∧ u.fab = v.fab ∧
      u.sec = v.sec ∧ u.j = v.j ∧ u.h = v.h)
    _ _ _ s (by simp -implicitDefEqProofs) (fun a b c h g => by simp only [h, g, and_self]) (fun s x u e => e ▸ ?_)
  refine foldl_rel (fun u v => u.pending = v.pending ∧ u.timeUs = v.timeUs ∧ u.b = v.b ∧ u.fab = v.fab ∧
      u.sec = v.sec ∧ u.j = v.j ∧ u.h = v.h)
    _ _ _ (fun _ => ⟨rfl, rfl, rfl, rfl, rfl, rfl, rfl⟩) (fun a b c h g => by simp only [h, g, and_self]) (fun s b
        u e => e ▸ ?_)
  split <;> simp -implicitDefEqProofs

@[simp] theorem State.writeShards_frame (s : State) (p : ℕ) (kept : List ((ℕ × ℕ) × List Byte)) :
    (s.writeShards p kept).pending = s.pending ∧ (s.writeShards p kept).timeUs = s.timeUs ∧
    (s.writeShards p kept).b = s.b ∧ (s.writeShards p kept).fab = s.fab ∧ (s.writeShards p kept).sec = s.sec ∧
    (s.writeShards p kept).j = s.j ∧ (s.writeShards p kept).h = s.h := by
  exact foldl_rel (fun u v => u.pending = v.pending ∧ u.timeUs = v.timeUs ∧ u.b = v.b ∧ u.fab = v.fab ∧
      u.sec = v.sec ∧ u.j = v.j ∧ u.h = v.h)
    _ _ _ (fun _ => ⟨rfl, rfl, rfl, rfl, rfl, rfl, rfl⟩) (fun a b c h g => by simp only [h, g, and_self]) (fun s x
        u e => e ▸ State.writeShard_frame ..)

@[simp] theorem State.putLocator_frame (s : State) (p : ℕ) (tid : ℕ) (slot : ℕ) (home : ℕ) (arr : ℕ) :
    (s.putLocator p tid slot home arr).pending = s.pending ∧
    (s.putLocator p tid slot home arr).freeCtr = s.freeCtr ∧ (s.putLocator p tid slot home arr).timeUs = s.timeUs ∧
    (s.putLocator p tid slot home arr).b = s.b ∧ (s.putLocator p tid slot home arr).fab = s.fab ∧
    (s.putLocator p tid slot home arr).sec = s.sec ∧ (s.putLocator p tid slot home arr).j = s.j ∧
    (s.putLocator p tid slot home arr).h = s.h := by
  simp -implicitDefEqProofs (maxDischargeDepth := 8) [State.putLocator]

@[simp] theorem State.freePlace_frame (s : State) : (s.freePlace).2.pending = s.pending ∧
    (s.freePlace).2.timeUs = s.timeUs ∧ (s.freePlace).2.regs = s.regs ∧ (s.freePlace).2.core = s.core ∧
    (s.freePlace).2.mx = s.mx ∧ (s.freePlace).2.m = s.m ∧ (s.freePlace).2.e = s.e ∧ (s.freePlace).2.b = s.b ∧
    (s.freePlace).2.fab = s.fab ∧ (s.freePlace).2.sec = s.sec ∧ (s.freePlace).2.j = s.j ∧ (s.freePlace).2.h = s.h ∧
    (s.freePlace).2.pm = s.pm := by
  simp -implicitDefEqProofs (maxDischargeDepth := 8) [State.freePlace]

@[simp] theorem State.newLocators_frame (s : State) (p : ℕ) (slot : ℕ) :
    (s.newLocators p slot).pending = s.pending ∧ (s.newLocators p slot).timeUs = s.timeUs ∧
    (s.newLocators p slot).b = s.b ∧ (s.newLocators p slot).fab = s.fab ∧ (s.newLocators p slot).sec = s.sec ∧
    (s.newLocators p slot).j = s.j ∧ (s.newLocators p slot).h = s.h := by
  simp -implicitDefEqProofs (maxDischargeDepth := 8) [State.newLocators]

@[simp] theorem State.dropLocators_frame (s : State) (p : ℕ) (slot : ℕ) :
    (s.dropLocators p slot).pending = s.pending ∧ (s.dropLocators p slot).freeCtr = s.freeCtr ∧
    (s.dropLocators p slot).timeUs = s.timeUs ∧ (s.dropLocators p slot).b = s.b ∧
    (s.dropLocators p slot).fab = s.fab ∧ (s.dropLocators p slot).sec = s.sec ∧ (s.dropLocators p slot).j = s.j ∧
    (s.dropLocators p slot).h = s.h := by
  simp -implicitDefEqProofs (maxDischargeDepth := 8) [State.dropLocators]

@[simp] theorem State.writeSlotMaps_frame (s : State) (p : ℕ) (slots : List ℕ) :
    (s.writeSlotMaps p slots).pending = s.pending ∧ (s.writeSlotMaps p slots).freeCtr = s.freeCtr ∧
    (s.writeSlotMaps p slots).timeUs = s.timeUs ∧ (s.writeSlotMaps p slots).b = s.b ∧
    (s.writeSlotMaps p slots).fab = s.fab ∧ (s.writeSlotMaps p slots).sec = s.sec ∧
    (s.writeSlotMaps p slots).j = s.j ∧ (s.writeSlotMaps p slots).h = s.h := by
  simp -implicitDefEqProofs (maxDischargeDepth := 8) [State.writeSlotMaps]

@[simp] theorem State.setMap_frame (s : State) (p : ℕ) (map : List ℕ) : (s.setMap p map).pending = s.pending ∧
    (s.setMap p map).timeUs = s.timeUs ∧ (s.setMap p map).b = s.b ∧ (s.setMap p map).fab = s.fab ∧
    (s.setMap p map).sec = s.sec ∧ (s.setMap p map).h = s.h := by
  simp -implicitDefEqProofs (maxDischargeDepth := 8) [State.setMap]

@[simp] theorem State.showSnap_frame (s : State) : (s.showSnap).pending = s.pending ∧
    (s.showSnap).freeCtr = s.freeCtr ∧ (s.showSnap).timeUs = s.timeUs ∧ (s.showSnap).core = s.core ∧
    (s.showSnap).mx = s.mx ∧ (s.showSnap).m = s.m ∧ (s.showSnap).e = s.e ∧ (s.showSnap).b = s.b ∧
    (s.showSnap).fab = s.fab ∧ (s.showSnap).sec = s.sec ∧ (s.showSnap).j = s.j ∧ (s.showSnap).h = s.h ∧
    (s.showSnap).pm = s.pm := by
  generalize hu : s.showSnap = u
  unfold State.showSnap at hu
  (repeat' split at hu) <;> (subst hu; simp -implicitDefEqProofs (maxDischargeDepth := 8))

@[simp] theorem State.setSnaps_frame (s : State) (p : ℕ) (l : List SnapPart) :
    (s.setSnaps p l).pending = s.pending ∧ (s.setSnaps p l).freeCtr = s.freeCtr ∧
    (s.setSnaps p l).timeUs = s.timeUs ∧ (s.setSnaps p l).b = s.b ∧ (s.setSnaps p l).fab = s.fab ∧
    (s.setSnaps p l).sec = s.sec ∧ (s.setSnaps p l).h = s.h := by
  simp -implicitDefEqProofs (maxDischargeDepth := 8) [State.setSnaps]

@[simp] theorem State.forgetSnap_frame (s : State) (p : ℕ) (dev : ℕ) : (s.forgetSnap p dev).pending = s.pending ∧
    (s.forgetSnap p dev).freeCtr = s.freeCtr ∧ (s.forgetSnap p dev).timeUs = s.timeUs ∧
    (s.forgetSnap p dev).b = s.b ∧ (s.forgetSnap p dev).fab = s.fab ∧ (s.forgetSnap p dev).sec = s.sec ∧
    (s.forgetSnap p dev).h = s.h := by
  simp -implicitDefEqProofs (maxDischargeDepth := 8) [State.forgetSnap]

@[simp] theorem State.endAbsorb_frame (s : State) (p : ℕ) : (s.endAbsorb p).pending = s.pending ∧
    (s.endAbsorb p).freeCtr = s.freeCtr ∧ (s.endAbsorb p).timeUs = s.timeUs ∧ (s.endAbsorb p).b = s.b ∧
    (s.endAbsorb p).fab = s.fab ∧ (s.endAbsorb p).sec = s.sec ∧ (s.endAbsorb p).h = s.h := by
  simp -implicitDefEqProofs (maxDischargeDepth := 8) [State.endAbsorb]

@[simp] theorem State.dropAbsorb_frame (s : State) (p : ℕ) : (s.dropAbsorb p).pending = s.pending ∧
    (s.dropAbsorb p).timeUs = s.timeUs ∧ (s.dropAbsorb p).b = s.b ∧ (s.dropAbsorb p).sec = s.sec ∧
    (s.dropAbsorb p).h = s.h := by
  simp -implicitDefEqProofs (maxDischargeDepth := 8) [State.dropAbsorb]

@[simp] theorem State.sendMsg_frame (s : State) (p : ℕ) (dst : ℕ) (d : List Byte) :
    (s.sendMsg p dst d).pending = s.pending ∧ (s.sendMsg p dst d).freeCtr = s.freeCtr ∧
    (s.sendMsg p dst d).timeUs = s.timeUs ∧ (s.sendMsg p dst d).regs = s.regs ∧ (s.sendMsg p dst d).core = s.core ∧
    (s.sendMsg p dst d).mx = s.mx ∧ (s.sendMsg p dst d).m = s.m ∧ (s.sendMsg p dst d).e = s.e ∧
    (s.sendMsg p dst d).b = s.b ∧ (s.sendMsg p dst d).sec = s.sec ∧ (s.sendMsg p dst d).j = s.j ∧
    (s.sendMsg p dst d).h = s.h ∧ (s.sendMsg p dst d).pm = s.pm := by
  simp -implicitDefEqProofs (maxDischargeDepth := 8) [State.sendMsg]

@[simp] theorem State.relay_frame (s : State) (p : ℕ) (d : List Byte) : (s.relay p d).pending = s.pending ∧
    (s.relay p d).freeCtr = s.freeCtr ∧ (s.relay p d).timeUs = s.timeUs ∧ (s.relay p d).regs = s.regs ∧
    (s.relay p d).core = s.core ∧ (s.relay p d).mx = s.mx ∧ (s.relay p d).m = s.m ∧ (s.relay p d).e = s.e ∧
    (s.relay p d).b = s.b ∧ (s.relay p d).sec = s.sec ∧ (s.relay p d).j = s.j ∧ (s.relay p d).h = s.h ∧
    (s.relay p d).pm = s.pm := by
  simp -implicitDefEqProofs (maxDischargeDepth := 8) [State.relay]

@[simp] theorem State.relayCommit_frame (s : State) (p : ℕ) (d : List Byte) :
    (s.relayCommit p d).pending = s.pending ∧ (s.relayCommit p d).freeCtr = s.freeCtr ∧
    (s.relayCommit p d).timeUs = s.timeUs ∧ (s.relayCommit p d).regs = s.regs ∧ (s.relayCommit p d).core = s.core ∧
    (s.relayCommit p d).mx = s.mx ∧ (s.relayCommit p d).m = s.m ∧ (s.relayCommit p d).e = s.e ∧
    (s.relayCommit p d).b = s.b ∧ (s.relayCommit p d).sec = s.sec ∧ (s.relayCommit p d).j = s.j ∧
    (s.relayCommit p d).h = s.h ∧ (s.relayCommit p d).pm = s.pm := by
  simp -implicitDefEqProofs (maxDischargeDepth := 8) [State.relayCommit]

@[simp] theorem State.toHosts_frame (s : State) (p : ℕ) (d : List Byte) : (s.toHosts p d).pending = s.pending ∧
    (s.toHosts p d).freeCtr = s.freeCtr ∧ (s.toHosts p d).timeUs = s.timeUs ∧ (s.toHosts p d).regs = s.regs ∧
    (s.toHosts p d).core = s.core ∧ (s.toHosts p d).mx = s.mx ∧ (s.toHosts p d).m = s.m ∧ (s.toHosts p d).e = s.e ∧
    (s.toHosts p d).b = s.b ∧ (s.toHosts p d).sec = s.sec ∧ (s.toHosts p d).j = s.j ∧ (s.toHosts p d).h = s.h ∧
    (s.toHosts p d).pm = s.pm := by
  simp -implicitDefEqProofs (maxDischargeDepth := 8) [State.toHosts]

@[simp] theorem State.launchTask_frame (s : State) (p : ℕ) (slot : ℕ) (arg7 : ℕ) (core : ℕ) (addr : ℕ) :
    (s.launchTask p slot arg7 core addr).pending = s.pending ∧
    (s.launchTask p slot arg7 core addr).timeUs = s.timeUs ∧ (s.launchTask p slot arg7 core addr).fab = s.fab ∧
    (s.launchTask p slot arg7 core addr).sec = s.sec ∧ (s.launchTask p slot arg7 core addr).j = s.j ∧
    (s.launchTask p slot arg7 core addr).h = s.h := by
  simp -implicitDefEqProofs (maxDischargeDepth := 8) [State.launchTask]

@[simp] theorem State.launchSet_frame (s : State) (p : ℕ) (phase : ℕ) (slot : ℕ) (m : ℕ) :
    (s.launchSet p phase slot m).pending = s.pending ∧ (s.launchSet p phase slot m).timeUs = s.timeUs ∧
    (s.launchSet p phase slot m).fab = s.fab ∧ (s.launchSet p phase slot m).sec = s.sec ∧
    (s.launchSet p phase slot m).h = s.h := by
  simp -implicitDefEqProofs (maxDischargeDepth := 8) [State.launchSet]

@[simp] theorem State.scaleLoss_frame (s : State) (p : ℕ) (slot : ℕ) (m : ℕ) :
    (s.scaleLoss p slot m).pending = s.pending ∧ (s.scaleLoss p slot m).freeCtr = s.freeCtr ∧
    (s.scaleLoss p slot m).timeUs = s.timeUs ∧ (s.scaleLoss p slot m).b = s.b ∧
    (s.scaleLoss p slot m).fab = s.fab ∧ (s.scaleLoss p slot m).sec = s.sec ∧ (s.scaleLoss p slot m).j = s.j ∧
    (s.scaleLoss p slot m).h = s.h := by
  generalize hu : s.scaleLoss p slot m = u
  unfold State.scaleLoss at hu
  (try generalize (2 : ℕ) ^ 48 = z at hu)
  try dsimp only at hu
  (repeat' split at hu) <;>
    (subst hu
     (try simp only [Prod.ext_iff] at *) <;> (try casesm* _ ∧ _) <;> subst_vars <;>
       first
       | (simp -implicitDefEqProofs (maxDischargeDepth := 8); done)
       | simp_all -implicitDefEqProofs)

@[simp] theorem State.enterPhase_frame (s : State) (p : ℕ) (ph : Phase) : (s.enterPhase p ph).pending = s.pending ∧
    (s.enterPhase p ph).timeUs = s.timeUs ∧ (s.enterPhase p ph).fab = s.fab ∧ (s.enterPhase p ph).sec = s.sec ∧
    (s.enterPhase p ph).h = s.h := by
  generalize hu : s.enterPhase p ph = u
  unfold State.enterPhase at hu
  (repeat' split at hu) <;> (subst hu; simp -implicitDefEqProofs (maxDischargeDepth := 8))

@[simp] theorem State.lossCell_frame (s : State) (p : ℕ) (slot : ℕ) (m : ℕ) :
    (s.lossCell p slot m).2.pending = s.pending ∧ (s.lossCell p slot m).2.timeUs = s.timeUs ∧
    (s.lossCell p slot m).2.m.mem = s.m.mem ∧ (s.lossCell p slot m).2.b = s.b ∧
    (s.lossCell p slot m).2.fab = s.fab ∧ (s.lossCell p slot m).2.sec = s.sec ∧ (s.lossCell p slot m).2.j = s.j ∧
    (s.lossCell p slot m).2.h = s.h := by
  generalize hu : s.lossCell p slot m = u
  unfold State.lossCell at hu
  (try generalize (2 : ℕ) ^ 48 = z at hu)
  try dsimp only at hu
  (repeat' split at hu) <;>
    (subst hu
     (try simp only [Prod.ext_iff] at *) <;> (try casesm* _ ∧ _) <;> subst_vars <;>
       first
       | (simp -implicitDefEqProofs (maxDischargeDepth := 8); done)
       | simp_all -implicitDefEqProofs)

@[simp] theorem State.slotLoss_frame (s : State) (p : ℕ) (slot : ℕ) : (s.slotLoss p slot).2.pending = s.pending ∧
    (s.slotLoss p slot).2.timeUs = s.timeUs ∧ (s.slotLoss p slot).2.m.mem = s.m.mem ∧
    (s.slotLoss p slot).2.b = s.b ∧ (s.slotLoss p slot).2.fab = s.fab ∧ (s.slotLoss p slot).2.sec = s.sec ∧
    (s.slotLoss p slot).2.j = s.j ∧ (s.slotLoss p slot).2.h = s.h := by
  simp -implicitDefEqProofs (maxDischargeDepth := 8) [State.slotLoss]

@[simp] theorem State.noteVote_frame (s : State) (p : ℕ) (form : ℕ) (d : List Byte) :
    (s.noteVote p form d).pending = s.pending ∧ (s.noteVote p form d).freeCtr = s.freeCtr ∧
    (s.noteVote p form d).timeUs = s.timeUs ∧ (s.noteVote p form d).regs = s.regs ∧
    (s.noteVote p form d).core = s.core ∧ (s.noteVote p form d).mx = s.mx ∧ (s.noteVote p form d).m = s.m ∧
    (s.noteVote p form d).e = s.e ∧ (s.noteVote p form d).b = s.b ∧ (s.noteVote p form d).fab = s.fab ∧
    (s.noteVote p form d).sec = s.sec ∧ (s.noteVote p form d).h = s.h ∧ (s.noteVote p form d).pm = s.pm := by
  simp -implicitDefEqProofs (maxDischargeDepth := 8) [State.noteVote]

@[simp] theorem State.skipLate_frame (s : State) (p : ℕ) : (s.skipLate p).pending = s.pending ∧
    (s.skipLate p).freeCtr = s.freeCtr ∧ (s.skipLate p).timeUs = s.timeUs ∧ (s.skipLate p).core = s.core ∧
    (s.skipLate p).mx = s.mx ∧ (s.skipLate p).m = s.m ∧ (s.skipLate p).e = s.e ∧ (s.skipLate p).b = s.b ∧
    (s.skipLate p).fab = s.fab ∧ (s.skipLate p).sec = s.sec ∧ (s.skipLate p).h = s.h ∧ (s.skipLate p).pm = s.pm := by
  simp -implicitDefEqProofs (maxDischargeDepth := 8) [State.skipLate]

@[simp] theorem State.tellFenced_frame (s : State) (p : ℕ) : (s.tellFenced p).pending = s.pending ∧
    (s.tellFenced p).freeCtr = s.freeCtr ∧ (s.tellFenced p).timeUs = s.timeUs ∧ (s.tellFenced p).b = s.b ∧
    (s.tellFenced p).h = s.h := by
  simp -implicitDefEqProofs (maxDischargeDepth := 8) [State.tellFenced]

@[simp] theorem State.tellOnce_frame (s : State) (p : ℕ) : (s.tellOnce p).pending = s.pending ∧
    (s.tellOnce p).freeCtr = s.freeCtr ∧ (s.tellOnce p).timeUs = s.timeUs ∧ (s.tellOnce p).b = s.b ∧
    (s.tellOnce p).h = s.h := by
  simp -implicitDefEqProofs (maxDischargeDepth := 8) [State.tellOnce]

@[simp] theorem State.scaleStep_frame (s : State) (p : ℕ) (skip : Bool) :
    (s.scaleStep p skip).1.pending = s.pending ∧ (s.scaleStep p skip).1.freeCtr = s.freeCtr ∧
    (s.scaleStep p skip).1.timeUs = s.timeUs ∧ (s.scaleStep p skip).1.core = s.core ∧
    (s.scaleStep p skip).1.mx = s.mx ∧ (s.scaleStep p skip).1.m = s.m ∧ (s.scaleStep p skip).1.e = s.e ∧
    (s.scaleStep p skip).1.b = s.b ∧ (s.scaleStep p skip).1.fab = s.fab ∧ (s.scaleStep p skip).1.sec = s.sec ∧
    (s.scaleStep p skip).1.j = s.j ∧ (s.scaleStep p skip).1.h = s.h ∧ (s.scaleStep p skip).1.pm = s.pm := by
  generalize hu : s.scaleStep p skip = u
  unfold State.scaleStep at hu
  dsimp only at hu
  (repeat' split at hu) <;> (subst hu; simp -implicitDefEqProofs (maxDischargeDepth := 8))

@[simp] theorem State.countT_frame (s : State) (p : ℕ) : (s.countT p).pending = s.pending ∧
    (s.countT p).freeCtr = s.freeCtr ∧ (s.countT p).timeUs = s.timeUs ∧ (s.countT p).b = s.b ∧
    (s.countT p).fab = s.fab ∧ (s.countT p).sec = s.sec ∧ (s.countT p).j = s.j ∧ (s.countT p).h = s.h := by
  simp -implicitDefEqProofs (maxDischargeDepth := 8) [State.countT]

@[simp] theorem State.keepHeld_frame (s : State) (p : ℕ) (skip : Bool) : (s.keepHeld p skip).pending = s.pending ∧
    (s.keepHeld p skip).freeCtr = s.freeCtr ∧ (s.keepHeld p skip).timeUs = s.timeUs ∧
    (s.keepHeld p skip).regs = s.regs ∧ (s.keepHeld p skip).core = s.core ∧ (s.keepHeld p skip).mx = s.mx ∧
    (s.keepHeld p skip).m = s.m ∧ (s.keepHeld p skip).e = s.e ∧ (s.keepHeld p skip).b = s.b ∧
    (s.keepHeld p skip).fab = s.fab ∧ (s.keepHeld p skip).sec = s.sec ∧ (s.keepHeld p skip).h = s.h ∧
    (s.keepHeld p skip).pm = s.pm := by
  simp -implicitDefEqProofs (maxDischargeDepth := 8) [State.keepHeld]

@[simp] theorem State.endRestore_frame (s : State) (p : ℕ) (st : ℕ) (result : ℕ) (status : ℕ) :
    (s.endRestore p st result status).pending = s.pending ∧ (s.endRestore p st result status).freeCtr = s.freeCtr ∧
    (s.endRestore p st result status).timeUs = s.timeUs ∧ (s.endRestore p st result status).core = s.core ∧
    (s.endRestore p st result status).mx = s.mx ∧ (s.endRestore p st result status).b = s.b ∧
    (s.endRestore p st result status).fab = s.fab ∧ (s.endRestore p st result status).sec = s.sec := by
  generalize hu : s.endRestore p st result status = u
  unfold State.endRestore at hu
  dsimp only at hu
  (repeat' split at hu) <;> (subst hu; simp -implicitDefEqProofs (maxDischargeDepth := 8))

@[simp] theorem State.commitStep_frame (s : State) (p : ℕ) (pay : List Byte) :
    (s.commitStep p pay).pending = s.pending ∧ (s.commitStep p pay).timeUs = s.timeUs := by
  simp -implicitDefEqProofs (maxDischargeDepth := 8) [State.commitStep]

@[simp] theorem State.dropStepFrames_frame (s : State) (p : ℕ) : (s.dropStepFrames p).pending = s.pending ∧
    (s.dropStepFrames p).freeCtr = s.freeCtr ∧ (s.dropStepFrames p).timeUs = s.timeUs ∧
    (s.dropStepFrames p).regs = s.regs ∧ (s.dropStepFrames p).core = s.core ∧ (s.dropStepFrames p).mx = s.mx ∧
    (s.dropStepFrames p).m = s.m ∧ (s.dropStepFrames p).e = s.e ∧ (s.dropStepFrames p).b = s.b ∧
    (s.dropStepFrames p).sec = s.sec ∧ (s.dropStepFrames p).j = s.j ∧ (s.dropStepFrames p).h = s.h ∧
    (s.dropStepFrames p).pm = s.pm := by
  simp -implicitDefEqProofs (maxDischargeDepth := 8) [State.dropStepFrames]

@[simp] theorem State.undoStep_frame (s : State) (p : ℕ) : (s.undoStep p).pending = s.pending ∧
    (s.undoStep p).freeCtr = s.freeCtr ∧ (s.undoStep p).timeUs = s.timeUs ∧ (s.undoStep p).sec = s.sec ∧
    (s.undoStep p).h = s.h := by
  simp -implicitDefEqProofs (maxDischargeDepth := 8) [State.undoStep]

@[simp] theorem State.failReplay_frame (s : State) (p : ℕ) (c : ℕ) (result : ℕ) :
    (s.failReplay p c result).pending = s.pending ∧ (s.failReplay p c result).freeCtr = s.freeCtr ∧
    (s.failReplay p c result).timeUs = s.timeUs ∧ (s.failReplay p c result).sec = s.sec := by
  simp -implicitDefEqProofs (maxDischargeDepth := 8) [State.failReplay]

@[simp] theorem State.giveUp_frame (s : State) (p : ℕ) : (s.giveUp p).pending = s.pending ∧
    (s.giveUp p).timeUs = s.timeUs ∧ (s.giveUp p).b = s.b ∧ (s.giveUp p).sec = s.sec := by
  simp -implicitDefEqProofs (maxDischargeDepth := 8) [State.giveUp]

@[simp] theorem State.dropPart_frame (s : State) (p : ℕ) (dst : ℕ) : (s.dropPart p dst).pending = s.pending ∧
    (s.dropPart p dst).freeCtr = s.freeCtr ∧ (s.dropPart p dst).timeUs = s.timeUs ∧ (s.dropPart p dst).b = s.b ∧
    (s.dropPart p dst).fab = s.fab ∧ (s.dropPart p dst).sec = s.sec ∧ (s.dropPart p dst).h = s.h := by
  simp -implicitDefEqProofs (maxDischargeDepth := 8) [State.dropPart]

@[simp] theorem State.loseDevice_frame (s : State) (p : ℕ) (dst : ℕ) : (s.loseDevice p dst).pending = s.pending ∧
    (s.loseDevice p dst).timeUs = s.timeUs ∧ (s.loseDevice p dst).b = s.b ∧ (s.loseDevice p dst).sec = s.sec := by
  simp -implicitDefEqProofs (maxDischargeDepth := 8) [State.loseDevice]

@[simp] theorem State.sendResolve_frame (s : State) (p : ℕ) (n : ℕ) : (s.sendResolve p n).pending = s.pending ∧
    (s.sendResolve p n).freeCtr = s.freeCtr ∧ (s.sendResolve p n).timeUs = s.timeUs ∧
    (s.sendResolve p n).regs = s.regs ∧ (s.sendResolve p n).core = s.core ∧ (s.sendResolve p n).mx = s.mx ∧
    (s.sendResolve p n).m = s.m ∧ (s.sendResolve p n).e = s.e ∧ (s.sendResolve p n).b = s.b ∧
    (s.sendResolve p n).sec = s.sec ∧ (s.sendResolve p n).h = s.h ∧ (s.sendResolve p n).pm = s.pm := by
  simp -implicitDefEqProofs (maxDischargeDepth := 8) [State.sendResolve]

@[simp] theorem State.tryResolve_frame (s : State) (p : ℕ) : (s.tryResolve p).pending = s.pending ∧
    (s.tryResolve p).freeCtr = s.freeCtr ∧ (s.tryResolve p).timeUs = s.timeUs ∧ (s.tryResolve p).regs = s.regs ∧
    (s.tryResolve p).core = s.core ∧ (s.tryResolve p).mx = s.mx ∧ (s.tryResolve p).m = s.m ∧
    (s.tryResolve p).e = s.e ∧ (s.tryResolve p).b = s.b ∧ (s.tryResolve p).sec = s.sec ∧ (s.tryResolve p).h = s.h ∧
    (s.tryResolve p).pm = s.pm := by
  generalize hu : s.tryResolve p = u
  unfold State.tryResolve at hu
  dsimp only at hu
  (repeat' split at hu) <;> (subst hu; simp -implicitDefEqProofs (maxDischargeDepth := 8))

@[simp] theorem State.resolveNext_frame (s : State) (p : ℕ) (open_ : Bool) :
    (s.resolveNext p open_).pending = s.pending ∧ (s.resolveNext p open_).freeCtr = s.freeCtr ∧
    (s.resolveNext p open_).timeUs = s.timeUs ∧ (s.resolveNext p open_).regs = s.regs ∧
    (s.resolveNext p open_).core = s.core ∧ (s.resolveNext p open_).mx = s.mx ∧ (s.resolveNext p open_).m = s.m ∧
    (s.resolveNext p open_).e = s.e ∧ (s.resolveNext p open_).b = s.b ∧ (s.resolveNext p open_).sec = s.sec ∧
    (s.resolveNext p open_).h = s.h ∧ (s.resolveNext p open_).pm = s.pm := by
  generalize hu : s.resolveNext p open_ = u
  unfold State.resolveNext at hu
  (repeat' split at hu) <;> (subst hu; simp -implicitDefEqProofs (maxDischargeDepth := 8))

@[simp] theorem State.emitHello_frame (s : State) (l : ℕ) : (s.emitHello l).pending = s.pending ∧
    (s.emitHello l).freeCtr = s.freeCtr ∧ (s.emitHello l).timeUs = s.timeUs ∧ (s.emitHello l).regs = s.regs ∧
    (s.emitHello l).core = s.core ∧ (s.emitHello l).mx = s.mx ∧ (s.emitHello l).m = s.m ∧ (s.emitHello l).e = s.e ∧
    (s.emitHello l).b = s.b ∧ (s.emitHello l).sec = s.sec ∧ (s.emitHello l).j = s.j ∧ (s.emitHello l).h = s.h ∧
    (s.emitHello l).pm = s.pm := by
  simp -implicitDefEqProofs (maxDischargeDepth := 8) [State.emitHello]

@[simp] theorem State.goDown_frame (s : State) (l : ℕ) : (s.goDown l).pending = s.pending ∧
    (s.goDown l).freeCtr = s.freeCtr ∧ (s.goDown l).timeUs = s.timeUs ∧ (s.goDown l).core = s.core ∧
    (s.goDown l).mx = s.mx ∧ (s.goDown l).m = s.m ∧ (s.goDown l).b = s.b ∧ (s.goDown l).sec = s.sec ∧
    (s.goDown l).j = s.j ∧ (s.goDown l).h = s.h := by
  simp -implicitDefEqProofs (maxDischargeDepth := 8) [State.goDown]

@[simp] theorem State.setLaser_frame (s : State) (e : ℕ) (a : Bool) (b : Bool) :
    (s.setLaser e a b).pending = s.pending ∧ (s.setLaser e a b).freeCtr = s.freeCtr ∧
    (s.setLaser e a b).timeUs = s.timeUs ∧ (s.setLaser e a b).core = s.core ∧ (s.setLaser e a b).mx = s.mx ∧
    (s.setLaser e a b).m = s.m ∧ (s.setLaser e a b).e = s.e ∧ (s.setLaser e a b).b = s.b ∧
    (s.setLaser e a b).fab = s.fab ∧ (s.setLaser e a b).sec = s.sec ∧ (s.setLaser e a b).j = s.j ∧
    (s.setLaser e a b).h = s.h ∧ (s.setLaser e a b).pm = s.pm := by
  simp -implicitDefEqProofs (maxDischargeDepth := 8) [State.setLaser]

@[simp] theorem State.setSrc_frame (s : State) (e : ℕ) (v : ℕ) : (s.setSrc e v).pending = s.pending ∧
    (s.setSrc e v).freeCtr = s.freeCtr ∧ (s.setSrc e v).timeUs = s.timeUs ∧ (s.setSrc e v).core = s.core ∧
    (s.setSrc e v).mx = s.mx ∧ (s.setSrc e v).m = s.m ∧ (s.setSrc e v).e = s.e ∧ (s.setSrc e v).b = s.b ∧
    (s.setSrc e v).fab = s.fab ∧ (s.setSrc e v).sec = s.sec ∧ (s.setSrc e v).j = s.j ∧ (s.setSrc e v).h = s.h ∧
    (s.setSrc e v).pm = s.pm := by
  simp -implicitDefEqProofs (maxDischargeDepth := 8) [State.setSrc]

@[simp] theorem State.darkLam_frame (s : State) (l : ℕ) : (s.darkLam l).pending = s.pending ∧
    (s.darkLam l).freeCtr = s.freeCtr ∧ (s.darkLam l).timeUs = s.timeUs ∧ (s.darkLam l).core = s.core ∧
    (s.darkLam l).mx = s.mx ∧ (s.darkLam l).m = s.m ∧ (s.darkLam l).b = s.b ∧ (s.darkLam l).sec = s.sec ∧
    (s.darkLam l).j = s.j ∧ (s.darkLam l).h = s.h := by
  simp -implicitDefEqProofs (maxDischargeDepth := 8) [State.darkLam]

@[simp] theorem State.darkEngine_frame (s : State) (e : ℕ) (missA : ℕ) (missB : ℕ) :
    (s.darkEngine e missA missB).pending = s.pending ∧ (s.darkEngine e missA missB).freeCtr = s.freeCtr ∧
    (s.darkEngine e missA missB).timeUs = s.timeUs ∧ (s.darkEngine e missA missB).core = s.core ∧
    (s.darkEngine e missA missB).mx = s.mx ∧ (s.darkEngine e missA missB).m = s.m ∧
    (s.darkEngine e missA missB).b = s.b ∧ (s.darkEngine e missA missB).sec = s.sec ∧
    (s.darkEngine e missA missB).j = s.j ∧ (s.darkEngine e missA missB).h = s.h := by
  simp -implicitDefEqProofs (maxDischargeDepth := 8) [State.darkEngine]

@[simp] theorem State.forgetPosition_frame (s : State) : (s.forgetPosition).pending = s.pending ∧
    (s.forgetPosition).freeCtr = s.freeCtr ∧ (s.forgetPosition).timeUs = s.timeUs ∧
    (s.forgetPosition).core = s.core ∧ (s.forgetPosition).mx = s.mx ∧ (s.forgetPosition).m = s.m ∧
    (s.forgetPosition).b = s.b ∧ (s.forgetPosition).sec = s.sec ∧ (s.forgetPosition).j = s.j ∧
    (s.forgetPosition).h = s.h := by
  simp -implicitDefEqProofs (maxDischargeDepth := 8) [State.forgetPosition]

@[simp] theorem State.noteHello_frame (s : State) (l : ℕ) (d : List Byte) : (s.noteHello l d).pending = s.pending ∧
    (s.noteHello l d).freeCtr = s.freeCtr ∧ (s.noteHello l d).timeUs = s.timeUs ∧ (s.noteHello l d).core = s.core ∧
    (s.noteHello l d).mx = s.mx ∧ (s.noteHello l d).m = s.m ∧ (s.noteHello l d).b = s.b ∧
    (s.noteHello l d).sec = s.sec ∧ (s.noteHello l d).j = s.j ∧ (s.noteHello l d).h = s.h := by
  simp -implicitDefEqProofs (maxDischargeDepth := 8) [State.noteHello]

@[simp] theorem State.sendLinkstate_frame (s : State) (l : ℕ) : (s.sendLinkstate l).pending = s.pending ∧
    (s.sendLinkstate l).freeCtr = s.freeCtr ∧ (s.sendLinkstate l).timeUs = s.timeUs ∧
    (s.sendLinkstate l).regs = s.regs ∧ (s.sendLinkstate l).core = s.core ∧ (s.sendLinkstate l).mx = s.mx ∧
    (s.sendLinkstate l).m = s.m ∧ (s.sendLinkstate l).e = s.e ∧ (s.sendLinkstate l).b = s.b ∧
    (s.sendLinkstate l).sec = s.sec ∧ (s.sendLinkstate l).j = s.j ∧ (s.sendLinkstate l).h = s.h ∧
    (s.sendLinkstate l).pm = s.pm := by
  simp -implicitDefEqProofs (maxDischargeDepth := 8) [State.sendLinkstate]

@[simp] theorem State.requeue_frame (s : State) (rest : List (ℕ × List Byte × Bool × ℕ)) :
    (s.requeue rest).pending = s.pending ∧ (s.requeue rest).freeCtr = s.freeCtr ∧
    (s.requeue rest).timeUs = s.timeUs ∧ (s.requeue rest).core = s.core ∧ (s.requeue rest).mx = s.mx ∧
    (s.requeue rest).m = s.m ∧ (s.requeue rest).b = s.b ∧ (s.requeue rest).sec = s.sec ∧ (s.requeue rest).j = s.j ∧
    (s.requeue rest).h = s.h := by
  simp -implicitDefEqProofs (maxDischargeDepth := 8) [State.requeue]

@[simp] theorem State.beginTraining_frame (s : State) (l : ℕ) : (s.beginTraining l).pending = s.pending ∧
    (s.beginTraining l).freeCtr = s.freeCtr ∧ (s.beginTraining l).timeUs = s.timeUs ∧
    (s.beginTraining l).core = s.core ∧ (s.beginTraining l).mx = s.mx ∧ (s.beginTraining l).m = s.m ∧
    (s.beginTraining l).e = s.e ∧ (s.beginTraining l).b = s.b ∧ (s.beginTraining l).sec = s.sec ∧
    (s.beginTraining l).j = s.j ∧ (s.beginTraining l).h = s.h ∧ (s.beginTraining l).pm = s.pm := by
  simp -implicitDefEqProofs (maxDischargeDepth := 8) [State.beginTraining]

@[simp] theorem State.relight_frame (s : State) (l : ℕ) : (s.relight l).pending = s.pending ∧
    (s.relight l).freeCtr = s.freeCtr ∧ (s.relight l).timeUs = s.timeUs ∧ (s.relight l).core = s.core ∧
    (s.relight l).mx = s.mx ∧ (s.relight l).m = s.m ∧ (s.relight l).e = s.e ∧ (s.relight l).b = s.b ∧
    (s.relight l).sec = s.sec ∧ (s.relight l).j = s.j ∧ (s.relight l).h = s.h ∧ (s.relight l).pm = s.pm := by
  simp -implicitDefEqProofs (maxDischargeDepth := 8) [State.relight]

@[simp] theorem State.replayEngine_frame (s : State) (e : ℕ) : (s.replayEngine e).pending = s.pending ∧
    (s.replayEngine e).freeCtr = s.freeCtr ∧ (s.replayEngine e).timeUs = s.timeUs ∧
    (s.replayEngine e).core = s.core ∧ (s.replayEngine e).mx = s.mx ∧ (s.replayEngine e).m = s.m ∧
    (s.replayEngine e).e = s.e ∧ (s.replayEngine e).b = s.b ∧ (s.replayEngine e).sec = s.sec ∧
    (s.replayEngine e).j = s.j ∧ (s.replayEngine e).h = s.h ∧ (s.replayEngine e).pm = s.pm := by
  simp -implicitDefEqProofs (maxDischargeDepth := 8) [State.replayEngine]

@[simp] theorem State.laserNow_frame (s : State) (e : ℕ) (a : Bool) (b : Bool) (src : ℕ) :
    (s.laserNow e a b src).pending = s.pending ∧ (s.laserNow e a b src).freeCtr = s.freeCtr ∧
    (s.laserNow e a b src).timeUs = s.timeUs ∧ (s.laserNow e a b src).core = s.core ∧
    (s.laserNow e a b src).mx = s.mx ∧ (s.laserNow e a b src).m = s.m ∧ (s.laserNow e a b src).e = s.e ∧
    (s.laserNow e a b src).b = s.b ∧ (s.laserNow e a b src).sec = s.sec ∧ (s.laserNow e a b src).j = s.j ∧
    (s.laserNow e a b src).h = s.h ∧ (s.laserNow e a b src).pm = s.pm := by
  simp -implicitDefEqProofs (maxDischargeDepth := 8) [State.laserNow]

@[simp] theorem State.leaveStand_frame (s : State) (l : ℕ) : (s.leaveStand l).pending = s.pending ∧
    (s.leaveStand l).freeCtr = s.freeCtr ∧ (s.leaveStand l).timeUs = s.timeUs ∧ (s.leaveStand l).core = s.core ∧
    (s.leaveStand l).mx = s.mx ∧ (s.leaveStand l).m = s.m ∧ (s.leaveStand l).e = s.e ∧ (s.leaveStand l).b = s.b ∧
    (s.leaveStand l).sec = s.sec ∧ (s.leaveStand l).j = s.j ∧ (s.leaveStand l).h = s.h ∧
    (s.leaveStand l).pm = s.pm := by
  simp -implicitDefEqProofs (maxDischargeDepth := 8) [State.leaveStand]

@[simp] theorem State.shutPort_frame (s : State) (n : ℕ) : (s.shutPort n).pending = s.pending ∧
    (s.shutPort n).freeCtr = s.freeCtr ∧ (s.shutPort n).timeUs = s.timeUs ∧ (s.shutPort n).core = s.core ∧
    (s.shutPort n).mx = s.mx ∧ (s.shutPort n).m = s.m ∧ (s.shutPort n).b = s.b ∧ (s.shutPort n).sec = s.sec ∧
    (s.shutPort n).j = s.j ∧ (s.shutPort n).h = s.h := by
  simp -implicitDefEqProofs (maxDischargeDepth := 8) [State.shutPort]

@[simp] theorem State.openLam_frame (s : State) (l : ℕ) : (s.openLam l).pending = s.pending ∧
    (s.openLam l).freeCtr = s.freeCtr ∧ (s.openLam l).timeUs = s.timeUs ∧ (s.openLam l).core = s.core ∧
    (s.openLam l).mx = s.mx ∧ (s.openLam l).m = s.m ∧ (s.openLam l).b = s.b ∧ (s.openLam l).sec = s.sec ∧
    (s.openLam l).j = s.j ∧ (s.openLam l).h = s.h := by
  simp -implicitDefEqProofs (maxDischargeDepth := 8) [State.openLam]

@[simp] theorem State.setBuddies_frame (s : State) (p : ℕ) : (s.setBuddies p).pending = s.pending ∧
    (s.setBuddies p).freeCtr = s.freeCtr ∧ (s.setBuddies p).timeUs = s.timeUs ∧ (s.setBuddies p).core = s.core ∧
    (s.setBuddies p).mx = s.mx ∧ (s.setBuddies p).m = s.m ∧ (s.setBuddies p).e = s.e ∧ (s.setBuddies p).b = s.b ∧
    (s.setBuddies p).fab = s.fab ∧ (s.setBuddies p).sec = s.sec ∧ (s.setBuddies p).h = s.h ∧
    (s.setBuddies p).pm = s.pm := by
  simp -implicitDefEqProofs (maxDischargeDepth := 8) [State.setBuddies]

@[simp] theorem State.sramFix_frame (s : State) (x : SramFix) : (s.sramFix x).pending = s.pending ∧
    (s.sramFix x).freeCtr = s.freeCtr ∧ (s.sramFix x).timeUs = s.timeUs ∧ (s.sramFix x).core = s.core ∧
    (s.sramFix x).mx = s.mx ∧ (s.sramFix x).m = s.m ∧ (s.sramFix x).b = s.b ∧ (s.sramFix x).fab = s.fab ∧
    (s.sramFix x).sec = s.sec ∧ (s.sramFix x).h = s.h := by
  simp -implicitDefEqProofs (maxDischargeDepth := 8) [State.sramFix]

@[simp] theorem State.sendSegs_frame (s : State) (p : ℕ) (dst : ℕ) (drainer : ℕ) (part : ℕ) (data : List Byte) :
    (s.sendSegs p dst drainer part data).pending = s.pending ∧
    (s.sendSegs p dst drainer part data).freeCtr = s.freeCtr ∧
    (s.sendSegs p dst drainer part data).timeUs = s.timeUs ∧ (s.sendSegs p dst drainer part data).regs = s.regs ∧
    (s.sendSegs p dst drainer part data).core = s.core ∧ (s.sendSegs p dst drainer part data).mx = s.mx ∧
    (s.sendSegs p dst drainer part data).m = s.m ∧ (s.sendSegs p dst drainer part data).e = s.e ∧
    (s.sendSegs p dst drainer part data).b = s.b ∧ (s.sendSegs p dst drainer part data).sec = s.sec ∧
    (s.sendSegs p dst drainer part data).j = s.j ∧ (s.sendSegs p dst drainer part data).h = s.h ∧
    (s.sendSegs p dst drainer part data).pm = s.pm := by
  simp -implicitDefEqProofs (maxDischargeDepth := 8) [State.sendSegs]

@[simp] theorem State.sendDrain_frame (s : State) (d : Drain) : (s.sendDrain d).pending = s.pending ∧
    (s.sendDrain d).freeCtr = s.freeCtr ∧ (s.sendDrain d).timeUs = s.timeUs ∧ (s.sendDrain d).regs = s.regs ∧
    (s.sendDrain d).core = s.core ∧ (s.sendDrain d).mx = s.mx ∧ (s.sendDrain d).m = s.m ∧ (s.sendDrain d).e = s.e ∧
    (s.sendDrain d).b = s.b ∧ (s.sendDrain d).sec = s.sec ∧ (s.sendDrain d).j = s.j ∧ (s.sendDrain d).h = s.h ∧
    (s.sendDrain d).pm = s.pm := by
  generalize hu : s.sendDrain d = u
  unfold State.sendDrain at hu
  (repeat' split at hu) <;> (subst hu; simp -implicitDefEqProofs (maxDischargeDepth := 8))

@[simp] theorem State.setDrain_frame (s : State) (d : Drain) : (s.setDrain d).pending = s.pending ∧
    (s.setDrain d).freeCtr = s.freeCtr ∧ (s.setDrain d).timeUs = s.timeUs ∧ (s.setDrain d).regs = s.regs ∧
    (s.setDrain d).core = s.core ∧ (s.setDrain d).mx = s.mx ∧ (s.setDrain d).m = s.m ∧ (s.setDrain d).e = s.e ∧
    (s.setDrain d).b = s.b ∧ (s.setDrain d).fab = s.fab ∧ (s.setDrain d).sec = s.sec ∧ (s.setDrain d).h = s.h ∧
    (s.setDrain d).pm = s.pm := by
  simp -implicitDefEqProofs (maxDischargeDepth := 8) [State.setDrain]

@[simp] theorem State.clearSections_frame (s : State) (mask : ℕ) : (s.clearSections mask).pending = s.pending ∧
    (s.clearSections mask).freeCtr = s.freeCtr ∧ (s.clearSections mask).timeUs = s.timeUs ∧
    (s.clearSections mask).regs = s.regs ∧ (s.clearSections mask).core = s.core ∧
    (s.clearSections mask).mx = s.mx ∧ (s.clearSections mask).e = s.e ∧ (s.clearSections mask).b = s.b ∧
    (s.clearSections mask).fab = s.fab ∧ (s.clearSections mask).sec = s.sec ∧ (s.clearSections mask).j = s.j ∧
    (s.clearSections mask).h = s.h ∧ (s.clearSections mask).pm = s.pm := by
  simp -implicitDefEqProofs (maxDischargeDepth := 8) [State.clearSections]

@[simp] theorem State.dropHeldWords_frame (s : State) (p : ℕ) (mask : ℕ) :
    (s.dropHeldWords p mask).pending = s.pending ∧ (s.dropHeldWords p mask).freeCtr = s.freeCtr ∧
    (s.dropHeldWords p mask).timeUs = s.timeUs ∧ (s.dropHeldWords p mask).regs = s.regs ∧
    (s.dropHeldWords p mask).core = s.core ∧ (s.dropHeldWords p mask).mx = s.mx ∧
    (s.dropHeldWords p mask).m = s.m ∧ (s.dropHeldWords p mask).b = s.b ∧ (s.dropHeldWords p mask).fab = s.fab ∧
    (s.dropHeldWords p mask).sec = s.sec ∧ (s.dropHeldWords p mask).j = s.j ∧ (s.dropHeldWords p mask).h = s.h ∧
    (s.dropHeldWords p mask).pm = s.pm := by
  simp -implicitDefEqProofs (maxDischargeDepth := 8) [State.dropHeldWords]

@[simp] theorem State.sealAborts_frame (s : State) (p : ℕ) : (s.sealAborts p).pending = s.pending ∧
    (s.sealAborts p).freeCtr = s.freeCtr ∧ (s.sealAborts p).timeUs = s.timeUs ∧ (s.sealAborts p).regs = s.regs ∧
    (s.sealAborts p).core = s.core ∧ (s.sealAborts p).mx = s.mx ∧ (s.sealAborts p).m = s.m ∧
    (s.sealAborts p).e = s.e ∧ (s.sealAborts p).b = s.b ∧ (s.sealAborts p).sec = s.sec ∧ (s.sealAborts p).j = s.j ∧
    (s.sealAborts p).h = s.h ∧ (s.sealAborts p).pm = s.pm := by
  simp -implicitDefEqProofs (maxDischargeDepth := 8) [State.sealAborts]

@[simp] theorem State.teardown_frame (s : State) (p : ℕ) : (s.teardown p).pending = s.pending ∧
    (s.teardown p).freeCtr = s.freeCtr ∧ (s.teardown p).timeUs = s.timeUs := by
  simp -implicitDefEqProofs (maxDischargeDepth := 8) [State.teardown]

@[simp] theorem State.endDrain_frame (s : State) : (s.endDrain).pending = s.pending ∧
    (s.endDrain).freeCtr = s.freeCtr ∧ (s.endDrain).timeUs = s.timeUs := by
  simp -implicitDefEqProofs (maxDischargeDepth := 8) [State.endDrain]

@[simp] theorem State.startDrain_frame (s : State) (p : ℕ) : (s.startDrain p).pending = s.pending ∧
    (s.startDrain p).freeCtr = s.freeCtr ∧ (s.startDrain p).timeUs = s.timeUs ∧ (s.startDrain p).b = s.b ∧
    (s.startDrain p).sec = s.sec := by
  generalize hu : s.startDrain p = u
  unfold State.startDrain at hu
  dsimp only at hu
  (repeat' split at hu) <;> (subst hu; simp -implicitDefEqProofs (maxDischargeDepth := 8))

@[simp] theorem State.nextBuddy_frame (s : State) (d : Drain) : (s.nextBuddy d).pending = s.pending ∧
    (s.nextBuddy d).freeCtr = s.freeCtr ∧ (s.nextBuddy d).timeUs = s.timeUs ∧ (s.nextBuddy d).regs = s.regs ∧
    (s.nextBuddy d).core = s.core ∧ (s.nextBuddy d).mx = s.mx ∧ (s.nextBuddy d).m = s.m ∧ (s.nextBuddy d).e = s.e ∧
    (s.nextBuddy d).b = s.b ∧ (s.nextBuddy d).sec = s.sec ∧ (s.nextBuddy d).h = s.h ∧ (s.nextBuddy d).pm = s.pm := by
  simp -implicitDefEqProofs (maxDischargeDepth := 8) [State.nextBuddy]

@[simp] theorem State.pressDrain_frame (s : State) (d : Drain) : (s.pressDrain d).pending = s.pending ∧
    (s.pressDrain d).timeUs = s.timeUs ∧ (s.pressDrain d).regs = s.regs ∧ (s.pressDrain d).core = s.core ∧
    (s.pressDrain d).mx = s.mx ∧ (s.pressDrain d).m = s.m ∧ (s.pressDrain d).e = s.e ∧ (s.pressDrain d).b = s.b ∧
    (s.pressDrain d).sec = s.sec ∧ (s.pressDrain d).h = s.h ∧ (s.pressDrain d).pm = s.pm := by
  simp -implicitDefEqProofs (maxDischargeDepth := 8) [State.pressDrain]

@[simp] theorem State.passOn_frame (s : State) (p : ℕ) (src : ℕ) : (s.passOn p src).pending = s.pending ∧
    (s.passOn p src).freeCtr = s.freeCtr ∧ (s.passOn p src).timeUs = s.timeUs ∧ (s.passOn p src).b = s.b ∧
    (s.passOn p src).fab = s.fab ∧ (s.passOn p src).sec = s.sec ∧ (s.passOn p src).h = s.h := by
  simp -implicitDefEqProofs (maxDischargeDepth := 8) [State.passOn]

@[simp] theorem State.refuseSnap_frame (s : State) (p : ℕ) (src : ℕ) (part : ℕ) :
    (s.refuseSnap p src part).pending = s.pending ∧ (s.refuseSnap p src part).freeCtr = s.freeCtr ∧
    (s.refuseSnap p src part).timeUs = s.timeUs ∧ (s.refuseSnap p src part).b = s.b ∧
    (s.refuseSnap p src part).sec = s.sec ∧ (s.refuseSnap p src part).h = s.h := by
  simp -implicitDefEqProofs (maxDischargeDepth := 8) [State.refuseSnap]

@[simp] theorem State.snapIn_frame (s : State) (p : ℕ) (src : ℕ) (d : List Byte) :
    (s.snapIn p src d).pending = s.pending ∧ (s.snapIn p src d).freeCtr = s.freeCtr ∧
    (s.snapIn p src d).timeUs = s.timeUs ∧ (s.snapIn p src d).b = s.b ∧ (s.snapIn p src d).sec = s.sec ∧
    (s.snapIn p src d).h = s.h := by
  generalize hu : s.snapIn p src d = u
  unfold State.snapIn at hu
  dsimp only at hu
  (repeat' split at hu) <;> (subst hu; simp -implicitDefEqProofs (maxDischargeDepth := 8))

@[simp] theorem State.snapAck_frame (s : State) (p : ℕ) (src : ℕ) (d : List Byte) :
    (s.snapAck p src d).pending = s.pending ∧ (s.snapAck p src d).freeCtr = s.freeCtr ∧
    (s.snapAck p src d).timeUs = s.timeUs := by
  generalize hu : s.snapAck p src d = u
  unfold State.snapAck at hu
  (repeat' split at hu) <;> (subst hu; simp -implicitDefEqProofs (maxDischargeDepth := 8))

@[simp] theorem State.loadDense_frame (s : State) (p : ℕ) (slot : ℕ) (d : List Byte) :
    (s.loadDense p slot d).pending = s.pending ∧ (s.loadDense p slot d).freeCtr = s.freeCtr ∧
    (s.loadDense p slot d).timeUs = s.timeUs ∧ (s.loadDense p slot d).b = s.b ∧
    (s.loadDense p slot d).fab = s.fab ∧ (s.loadDense p slot d).sec = s.sec ∧ (s.loadDense p slot d).j = s.j ∧
    (s.loadDense p slot d).h = s.h := by
  simp -implicitDefEqProofs (maxDischargeDepth := 8) [State.loadDense]

@[simp] theorem State.loadRecords_frame (s : State) (a : List (List ℕ)) (a1 : List Byte) :
    (s.loadRecords a a1).pending = s.pending ∧ (s.loadRecords a a1).freeCtr = s.freeCtr ∧
    (s.loadRecords a a1).timeUs = s.timeUs ∧ (s.loadRecords a a1).b = s.b ∧ (s.loadRecords a a1).fab = s.fab ∧
    (s.loadRecords a a1).sec = s.sec ∧ (s.loadRecords a a1).j = s.j ∧ (s.loadRecords a a1).h = s.h := by
  fun_induction s.loadRecords a a1 <;> simp_all -implicitDefEqProofs (maxDischargeDepth := 8)

@[simp] theorem State.loadSlot_frame (s : State) (p : ℕ) (slot : ℕ) (h : List Byte) (body : List Byte) :
    (s.loadSlot p slot h body).pending = s.pending ∧ (s.loadSlot p slot h body).freeCtr = s.freeCtr ∧
    (s.loadSlot p slot h body).timeUs = s.timeUs ∧ (s.loadSlot p slot h body).b = s.b ∧
    (s.loadSlot p slot h body).fab = s.fab ∧ (s.loadSlot p slot h body).sec = s.sec ∧
    (s.loadSlot p slot h body).h = s.h := by
  simp -implicitDefEqProofs (maxDischargeDepth := 8) [State.loadSlot]

@[simp] theorem State.loadTables_frame (s : State) (p : ℕ) (a : List (List Byte)) (a1 : List Byte) :
    (s.loadTables p a a1).pending = s.pending ∧ (s.loadTables p a a1).freeCtr = s.freeCtr ∧
    (s.loadTables p a a1).timeUs = s.timeUs ∧ (s.loadTables p a a1).b = s.b ∧ (s.loadTables p a a1).fab = s.fab ∧
    (s.loadTables p a a1).sec = s.sec ∧ (s.loadTables p a a1).h = s.h := by
  induction a generalizing s a1 with
  | nil => exact (fun (_ : State) => ⟨rfl, rfl, rfl, rfl, rfl, rfl, rfl⟩) s
  | cons d r ih =>
    simp only [State.loadTables]
    generalize List.take _ _ = l1
    simp -implicitDefEqProofs [ih]

@[simp] theorem State.loadJob_frame (s : State) (p : ℕ) (b : List Byte) : (s.loadJob p b).pending = s.pending ∧
    (s.loadJob p b).freeCtr = s.freeCtr ∧ (s.loadJob p b).timeUs = s.timeUs ∧ (s.loadJob p b).b = s.b ∧
    (s.loadJob p b).fab = s.fab ∧ (s.loadJob p b).sec = s.sec ∧ (s.loadJob p b).h = s.h := by
  simp -implicitDefEqProofs (maxDischargeDepth := 8) [State.loadJob]

@[simp] theorem State.regather_frame (s : State) (p : ℕ) : (s.regather p).pending = s.pending ∧
    (s.regather p).freeCtr = s.freeCtr ∧ (s.regather p).timeUs = s.timeUs ∧ (s.regather p).sec = s.sec ∧
    (s.regather p).h = s.h := by
  simp -implicitDefEqProofs (maxDischargeDepth := 8) [State.regather]

@[simp] theorem State.loadAll_frame (s : State) (p : ℕ) (step : ℕ) (l : List (ℕ × List Byte × List Byte)) (job :
    List Byte) (late : Option (List ℕ)) : (s.loadAll p step l job late).pending = s.pending ∧
    (s.loadAll p step l job late).timeUs = s.timeUs ∧ (s.loadAll p step l job late).sec = s.sec := by
  simp -implicitDefEqProofs (maxDischargeDepth := 8) [State.loadAll]

@[simp] theorem State.beginRestore_frame (s : State) (p : ℕ) (r : Restore) :
    (s.beginRestore p r).pending = s.pending ∧ (s.beginRestore p r).freeCtr = s.freeCtr ∧
    (s.beginRestore p r).timeUs = s.timeUs ∧ (s.beginRestore p r).core = s.core ∧ (s.beginRestore p r).mx = s.mx ∧
    (s.beginRestore p r).m = s.m ∧ (s.beginRestore p r).e = s.e ∧ (s.beginRestore p r).b = s.b ∧
    (s.beginRestore p r).fab = s.fab ∧ (s.beginRestore p r).sec = s.sec ∧ (s.beginRestore p r).h = s.h ∧
    (s.beginRestore p r).pm = s.pm := by
  simp -implicitDefEqProofs (maxDischargeDepth := 8) [State.beginRestore]

@[simp] theorem State.restoreOn_frame (s : State) (p : ℕ) : (s.restoreOn p).pending = s.pending ∧
    (s.restoreOn p).timeUs = s.timeUs ∧ (s.restoreOn p).sec = s.sec := by
  generalize hu : s.restoreOn p = u
  unfold State.restoreOn at hu
  dsimp only at hu
  (repeat' split at hu) <;> (subst hu; simp -implicitDefEqProofs (maxDischargeDepth := 8))

@[simp] theorem State.remap_frame (s : State) (p : ℕ) (map : List ℕ) : (s.remap p map).pending = s.pending ∧
    (s.remap p map).timeUs = s.timeUs ∧ (s.remap p map).b = s.b ∧ (s.remap p map).fab = s.fab ∧
    (s.remap p map).sec = s.sec ∧ (s.remap p map).h = s.h := by
  simp -implicitDefEqProofs (maxDischargeDepth := 8) [State.remap]

@[simp] theorem State.absorbPart_frame (s : State) (p : ℕ) (b : List Byte) :
    (s.absorbPart p b).pending = s.pending ∧ (s.absorbPart p b).freeCtr = s.freeCtr ∧
    (s.absorbPart p b).timeUs = s.timeUs ∧ (s.absorbPart p b).b = s.b ∧ (s.absorbPart p b).fab = s.fab ∧
    (s.absorbPart p b).sec = s.sec ∧ (s.absorbPart p b).h = s.h := by
  generalize hu : s.absorbPart p b = u
  unfold State.absorbPart at hu
  dsimp only at hu
  (repeat' split at hu) <;> (subst hu; simp -implicitDefEqProofs (maxDischargeDepth := 8))

@[simp] theorem State.handOver_frame (s : State) (p : ℕ) (dev : ℕ) : (s.handOver p dev).pending = s.pending ∧
    (s.handOver p dev).timeUs = s.timeUs ∧ (s.handOver p dev).b = s.b ∧ (s.handOver p dev).sec = s.sec ∧
    (s.handOver p dev).h = s.h := by
  unfold State.handOver
  refine foldl_rel (fun u v => u.pending = v.pending ∧ u.timeUs = v.timeUs ∧ u.b = v.b ∧ u.sec = v.sec ∧ u.h = v.h)
    _ _ _ (fun _ => ⟨rfl, rfl, rfl, rfl, rfl⟩) (fun a b c h g => by simp only [h, g, and_self]) (fun s x u e => e ▸
        ?_)
  split
  · exact (fun (_ : State) => ⟨rfl, rfl, rfl, rfl, rfl⟩) s
  · dsimp only
    (repeat' split) <;> simp -implicitDefEqProofs

@[simp] theorem State.absorbAll_frame (s : State) (p : ℕ) (lost : List ℕ) :
    (s.absorbAll p lost).pending = s.pending ∧ (s.absorbAll p lost).freeCtr = s.freeCtr ∧
    (s.absorbAll p lost).timeUs = s.timeUs ∧ (s.absorbAll p lost).b = s.b ∧ (s.absorbAll p lost).fab = s.fab ∧
    (s.absorbAll p lost).sec = s.sec ∧ (s.absorbAll p lost).h = s.h := by
  unfold State.absorbAll
  refine foldl_rel (fun u v => u.pending = v.pending ∧ u.freeCtr = v.freeCtr ∧ u.timeUs = v.timeUs ∧ u.b = v.b ∧
      u.fab = v.fab ∧ u.sec = v.sec ∧ u.h = v.h)
    _ _ _ (fun _ => ⟨rfl, rfl, rfl, rfl, rfl, rfl, rfl⟩) (fun a b c h g => by simp only [h, g, and_self]) (fun s x
        u e => e ▸ ?_)
  split
  · simp
  · exact ⟨rfl, rfl, rfl, rfl, rfl, rfl, rfl⟩

@[simp] theorem State.putPiece_frame (s : State) (p : ℕ) (kind : ℕ) (tid : ℕ) (row : ℕ) (off : ℕ) (b : List Byte) :
    (s.putPiece p kind tid row off b).pending = s.pending ∧ (s.putPiece p kind tid row off b).freeCtr = s.freeCtr ∧
    (s.putPiece p kind tid row off b).timeUs = s.timeUs ∧ (s.putPiece p kind tid row off b).regs = s.regs ∧
    (s.putPiece p kind tid row off b).core = s.core ∧ (s.putPiece p kind tid row off b).mx = s.mx ∧
    (s.putPiece p kind tid row off b).m = s.m ∧ (s.putPiece p kind tid row off b).e = s.e ∧
    (s.putPiece p kind tid row off b).b = s.b ∧ (s.putPiece p kind tid row off b).fab = s.fab ∧
    (s.putPiece p kind tid row off b).sec = s.sec ∧ (s.putPiece p kind tid row off b).h = s.h ∧
    (s.putPiece p kind tid row off b).pm = s.pm := by
  simp -implicitDefEqProofs (maxDischargeDepth := 8) [State.putPiece]

@[simp] theorem State.rowIn_frame (s : State) (p : ℕ) (src : ℕ) (d : List Byte) :
    (s.rowIn p src d).pending = s.pending ∧ (s.rowIn p src d).freeCtr = s.freeCtr ∧
    (s.rowIn p src d).timeUs = s.timeUs ∧ (s.rowIn p src d).b = s.b ∧ (s.rowIn p src d).sec = s.sec ∧
    (s.rowIn p src d).h = s.h := by
  generalize hu : s.rowIn p src d = u
  unfold State.rowIn at hu
  dsimp only at hu
  (repeat' split at hu) <;> (subst hu; simp -implicitDefEqProofs (maxDischargeDepth := 8))

@[simp] theorem State.holdFld_frame (s : State) (p : ℕ) (f : Fld) (v : ℕ) (mask : ℕ) :
    (s.holdFld p f v mask).pending = s.pending ∧ (s.holdFld p f v mask).freeCtr = s.freeCtr ∧
    (s.holdFld p f v mask).timeUs = s.timeUs ∧ (s.holdFld p f v mask).regs = s.regs ∧
    (s.holdFld p f v mask).core = s.core ∧ (s.holdFld p f v mask).mx = s.mx ∧ (s.holdFld p f v mask).m = s.m ∧
    (s.holdFld p f v mask).e = s.e ∧ (s.holdFld p f v mask).b = s.b ∧ (s.holdFld p f v mask).fab = s.fab ∧
    (s.holdFld p f v mask).sec = s.sec ∧ (s.holdFld p f v mask).h = s.h ∧ (s.holdFld p f v mask).pm = s.pm := by
  simp -implicitDefEqProofs (maxDischargeDepth := 8) [State.holdFld]

@[simp] theorem State.writeFld_frame (s : State) (ra : ℕ) (d : FldDesc) (v : ℕ) (mask : ℕ) :
    (s.writeFld ra d v mask).pending = s.pending ∧ (s.writeFld ra d v mask).freeCtr = s.freeCtr ∧
    (s.writeFld ra d v mask).timeUs = s.timeUs ∧ (s.writeFld ra d v mask).core = s.core ∧
    (s.writeFld ra d v mask).mx = s.mx ∧ (s.writeFld ra d v mask).m.mem = s.m.mem ∧
    (s.writeFld ra d v mask).e = s.e ∧ (s.writeFld ra d v mask).b = s.b ∧ (s.writeFld ra d v mask).fab = s.fab ∧
    (s.writeFld ra d v mask).sec = s.sec ∧ (s.writeFld ra d v mask).h = s.h ∧ (s.writeFld ra d v mask).pm = s.pm := by
  generalize hu : s.writeFld ra d v mask = u
  unfold State.writeFld at hu
  (repeat' split at hu) <;> (subst hu; simp -implicitDefEqProofs (maxDischargeDepth := 8))

@[simp] theorem State.writeFlds_frame (s : State) (ra : ℕ) (w : ℕ) (l : List FldDesc) (v : ℕ) (mask : ℕ) :
    (s.writeFlds ra w l v mask).pending = s.pending ∧ (s.writeFlds ra w l v mask).freeCtr = s.freeCtr ∧
    (s.writeFlds ra w l v mask).timeUs = s.timeUs ∧ (s.writeFlds ra w l v mask).core = s.core ∧
    (s.writeFlds ra w l v mask).mx = s.mx ∧ (s.writeFlds ra w l v mask).m.mem = s.m.mem ∧
    (s.writeFlds ra w l v mask).e = s.e ∧ (s.writeFlds ra w l v mask).b = s.b ∧
    (s.writeFlds ra w l v mask).fab = s.fab ∧ (s.writeFlds ra w l v mask).sec = s.sec ∧
    (s.writeFlds ra w l v mask).h = s.h ∧ (s.writeFlds ra w l v mask).pm = s.pm := by
  simp -implicitDefEqProofs (maxDischargeDepth := 8) [State.writeFlds]

@[simp] theorem State.setHeldWord_frame (s : State) (w : ℕ) (v : ℕ) : (s.setHeldWord w v).pending = s.pending ∧
    (s.setHeldWord w v).freeCtr = s.freeCtr ∧ (s.setHeldWord w v).timeUs = s.timeUs ∧
    (s.setHeldWord w v).regs = s.regs ∧ (s.setHeldWord w v).core = s.core ∧ (s.setHeldWord w v).mx = s.mx ∧
    (s.setHeldWord w v).m = s.m ∧ (s.setHeldWord w v).b = s.b ∧ (s.setHeldWord w v).fab = s.fab ∧
    (s.setHeldWord w v).sec = s.sec ∧ (s.setHeldWord w v).j = s.j ∧ (s.setHeldWord w v).h = s.h ∧
    (s.setHeldWord w v).pm = s.pm := by
  simp -implicitDefEqProofs (maxDischargeDepth := 8) [State.setHeldWord]

@[simp] theorem State.holdWord_frame (s : State) (w : ℕ) (v : ℕ) (mask : ℕ) :
    (s.holdWord w v mask).pending = s.pending ∧ (s.holdWord w v mask).freeCtr = s.freeCtr ∧
    (s.holdWord w v mask).timeUs = s.timeUs ∧ (s.holdWord w v mask).regs = s.regs ∧
    (s.holdWord w v mask).core = s.core ∧ (s.holdWord w v mask).mx = s.mx ∧ (s.holdWord w v mask).m = s.m ∧
    (s.holdWord w v mask).b = s.b ∧ (s.holdWord w v mask).fab = s.fab ∧ (s.holdWord w v mask).sec = s.sec ∧
    (s.holdWord w v mask).j = s.j ∧ (s.holdWord w v mask).h = s.h ∧ (s.holdWord w v mask).pm = s.pm := by
  simp -implicitDefEqProofs (maxDischargeDepth := 8) [State.holdWord]

@[simp] theorem State.writeReg1_frame (s : State) (w : ℕ) (r : ℕ × ℕ × List FldDesc) (v : ℕ) (mask : ℕ) :
    (s.writeReg1 w r v mask).pending = s.pending ∧ (s.writeReg1 w r v mask).freeCtr = s.freeCtr ∧
    (s.writeReg1 w r v mask).timeUs = s.timeUs ∧ (s.writeReg1 w r v mask).core = s.core ∧
    (s.writeReg1 w r v mask).mx = s.mx ∧ (s.writeReg1 w r v mask).m.mem = s.m.mem ∧
    (s.writeReg1 w r v mask).b = s.b ∧ (s.writeReg1 w r v mask).fab = s.fab ∧
    (s.writeReg1 w r v mask).sec = s.sec ∧ (s.writeReg1 w r v mask).h = s.h ∧ (s.writeReg1 w r v mask).pm = s.pm := by
  simp -implicitDefEqProofs (maxDischargeDepth := 8) [State.writeReg1]

@[simp] theorem State.writeWindow_frame (s : State) (core : ℕ) (off : ℕ) (b : List Byte) :
    (s.writeWindow core off b).pending = s.pending ∧ (s.writeWindow core off b).freeCtr = s.freeCtr ∧
    (s.writeWindow core off b).timeUs = s.timeUs ∧ (s.writeWindow core off b).mx = s.mx ∧
    (s.writeWindow core off b).m = s.m ∧ (s.writeWindow core off b).b = s.b ∧
    (s.writeWindow core off b).fab = s.fab ∧ (s.writeWindow core off b).sec = s.sec ∧
    (s.writeWindow core off b).j = s.j ∧ (s.writeWindow core off b).h = s.h := by
  simp -implicitDefEqProofs (maxDischargeDepth := 8) [State.writeWindow]

@[simp] theorem State.writeDesc_frame (s : State) (core : ℕ) (o : ℕ) (w : ℕ) (v : ℕ) (mask : ℕ) :
    (s.writeDesc core o w v mask).pending = s.pending ∧ (s.writeDesc core o w v mask).freeCtr = s.freeCtr ∧
    (s.writeDesc core o w v mask).timeUs = s.timeUs ∧ (s.writeDesc core o w v mask).mx = s.mx ∧
    (s.writeDesc core o w v mask).m = s.m ∧ (s.writeDesc core o w v mask).b = s.b ∧
    (s.writeDesc core o w v mask).fab = s.fab ∧ (s.writeDesc core o w v mask).sec = s.sec ∧
    (s.writeDesc core o w v mask).j = s.j ∧ (s.writeDesc core o w v mask).h = s.h := by
  simp -implicitDefEqProofs (maxDischargeDepth := 8) [State.writeDesc]

@[simp] theorem State.writeTask_frame (s : State) (core : ℕ) (v : ℕ) : (s.writeTask core v).pending = s.pending ∧
    (s.writeTask core v).timeUs = s.timeUs ∧ (s.writeTask core v).fab = s.fab ∧ (s.writeTask core v).sec = s.sec ∧
    (s.writeTask core v).j = s.j ∧ (s.writeTask core v).h = s.h := by
  simp -implicitDefEqProofs (maxDischargeDepth := 8) [State.writeTask]

@[simp] theorem State.writeLimit_frame (s : State) (core : ℕ) (o : ℕ) (v : ℕ) (mask : ℕ) :
    (s.writeLimit core o v mask).pending = s.pending ∧ (s.writeLimit core o v mask).freeCtr = s.freeCtr ∧
    (s.writeLimit core o v mask).timeUs = s.timeUs ∧ (s.writeLimit core o v mask).core = s.core ∧
    (s.writeLimit core o v mask).mx = s.mx ∧ (s.writeLimit core o v mask).m = s.m ∧
    (s.writeLimit core o v mask).b = s.b ∧ (s.writeLimit core o v mask).fab = s.fab ∧
    (s.writeLimit core o v mask).sec = s.sec ∧ (s.writeLimit core o v mask).j = s.j ∧
    (s.writeLimit core o v mask).h = s.h := by
  simp -implicitDefEqProofs (maxDischargeDepth := 8) [State.writeLimit]

@[simp] theorem State.writeAt_frame (s : State) (a : ℕ) (size : ℕ) (v : ℕ) :
    (s.writeAt a size v).pending = s.pending ∧ (s.writeAt a size v).timeUs = s.timeUs ∧
    (s.writeAt a size v).fab = s.fab ∧ (s.writeAt a size v).sec = s.sec ∧ (s.writeAt a size v).h = s.h := by
  generalize hu : s.writeAt a size v = u
  unfold State.writeAt at hu
  (repeat' split at hu) <;> (subst hu; simp -implicitDefEqProofs (maxDischargeDepth := 8))

@[simp] theorem State.settleAux_frame (s : State) : (s.settleAux).pending = s.pending ∧
    (s.settleAux).freeCtr = s.freeCtr ∧ (s.settleAux).timeUs = s.timeUs ∧ (s.settleAux).core = s.core ∧
    (s.settleAux).mx = s.mx ∧ (s.settleAux).m = s.m ∧ (s.settleAux).e = s.e ∧ (s.settleAux).b = s.b ∧
    (s.settleAux).fab = s.fab ∧ (s.settleAux).sec = s.sec ∧ (s.settleAux).j = s.j ∧ (s.settleAux).h = s.h ∧
    (s.settleAux).pm = s.pm := by
  simp -implicitDefEqProofs (maxDischargeDepth := 8) [State.settleAux]

@[simp] theorem State.writeBar_frame (s : State) (q : Requester) (offset : ℕ) (size : ℕ) (value : Word) :
    (s.writeBar q offset size value).pending = s.pending ∧ (s.writeBar q offset size value).timeUs = s.timeUs ∧
    (s.writeBar q offset size value).fab = s.fab ∧ (s.writeBar q offset size value).sec = s.sec := by
  generalize hu : s.writeBar q offset size value = u
  unfold State.writeBar at hu
  dsimp only at hu
  (repeat' split at hu) <;> (subst hu; simp -implicitDefEqProofs (maxDischargeDepth := 8))

@[simp] theorem State.answer_frame (s : State) (a : Answer) : (s.answer a).pending = s.pending ∧
    (s.answer a).freeCtr = s.freeCtr ∧ (s.answer a).timeUs = s.timeUs ∧ (s.answer a).regs = s.regs ∧
    (s.answer a).core = s.core ∧ (s.answer a).mx = s.mx ∧ (s.answer a).m = s.m ∧ (s.answer a).b = s.b ∧
    (s.answer a).fab = s.fab ∧ (s.answer a).sec = s.sec ∧ (s.answer a).j = s.j ∧ (s.answer a).h = s.h ∧
    (s.answer a).pm = s.pm := by
  simp -implicitDefEqProofs (maxDischargeDepth := 8) [State.answer]

@[simp] theorem State.burn_frame (s : State) (off : ℕ) (n : ℕ) (v : ℕ) : (s.burn off n v).pending = s.pending ∧
    (s.burn off n v).freeCtr = s.freeCtr ∧ (s.burn off n v).timeUs = s.timeUs ∧ (s.burn off n v).regs = s.regs ∧
    (s.burn off n v).core = s.core ∧ (s.burn off n v).mx = s.mx ∧ (s.burn off n v).m = s.m ∧
    (s.burn off n v).e = s.e ∧ (s.burn off n v).b = s.b ∧ (s.burn off n v).fab = s.fab ∧ (s.burn off n v).j = s.j ∧
    (s.burn off n v).h = s.h ∧ (s.burn off n v).pm = s.pm := by
  simp -implicitDefEqProofs (maxDischargeDepth := 8) [State.burn]

@[simp] theorem State.setBoot_frame (s : State) (st : ℕ) (reason : ℕ) : (s.setBoot st reason).pending = s.pending ∧
    (s.setBoot st reason).freeCtr = s.freeCtr ∧ (s.setBoot st reason).timeUs = s.timeUs ∧
    (s.setBoot st reason).core = s.core ∧ (s.setBoot st reason).mx = s.mx ∧ (s.setBoot st reason).m = s.m ∧
    (s.setBoot st reason).e = s.e ∧ (s.setBoot st reason).b = s.b ∧ (s.setBoot st reason).fab = s.fab ∧
    (s.setBoot st reason).sec = s.sec ∧ (s.setBoot st reason).j = s.j ∧ (s.setBoot st reason).pm = s.pm := by
  simp -implicitDefEqProofs (maxDischargeDepth := 8) [State.setBoot]

@[simp] theorem State.verified_frame (s : State) : (s.verified).pending = s.pending ∧
    (s.verified).freeCtr = s.freeCtr ∧ (s.verified).timeUs = s.timeUs ∧ (s.verified).core = s.core ∧
    (s.verified).mx = s.mx ∧ (s.verified).m = s.m ∧ (s.verified).e = s.e ∧ (s.verified).b = s.b ∧
    (s.verified).fab = s.fab ∧ (s.verified).j = s.j ∧ (s.verified).pm = s.pm := by
  simp -implicitDefEqProofs (maxDischargeDepth := 8) [State.verified]

@[simp] theorem State.chainRecord_frame (s : State) (p : ℕ) (r : List Byte) :
    (s.chainRecord p r).pending = s.pending ∧ (s.chainRecord p r).freeCtr = s.freeCtr ∧
    (s.chainRecord p r).timeUs = s.timeUs ∧ (s.chainRecord p r).core = s.core ∧ (s.chainRecord p r).mx = s.mx ∧
    (s.chainRecord p r).m = s.m ∧ (s.chainRecord p r).e = s.e ∧ (s.chainRecord p r).b = s.b ∧
    (s.chainRecord p r).fab = s.fab ∧ (s.chainRecord p r).j = s.j ∧ (s.chainRecord p r).h = s.h ∧
    (s.chainRecord p r).pm = s.pm := by
  simp -implicitDefEqProofs (maxDischargeDepth := 8) [State.chainRecord]

@[simp] theorem State.chainAll_frame (s : State) (r : List Byte) : (s.chainAll r).pending = s.pending ∧
    (s.chainAll r).freeCtr = s.freeCtr ∧ (s.chainAll r).timeUs = s.timeUs ∧ (s.chainAll r).core = s.core ∧
    (s.chainAll r).mx = s.mx ∧ (s.chainAll r).m = s.m ∧ (s.chainAll r).e = s.e ∧ (s.chainAll r).b = s.b ∧
    (s.chainAll r).fab = s.fab ∧ (s.chainAll r).j = s.j ∧ (s.chainAll r).h = s.h ∧ (s.chainAll r).pm = s.pm := by
  simp -implicitDefEqProofs (maxDischargeDepth := 8) [State.chainAll]

@[simp] theorem State.zeroStacks_frame (s : State) (mask : ℕ) : (s.zeroStacks mask).pending = s.pending ∧
    (s.zeroStacks mask).freeCtr = s.freeCtr ∧ (s.zeroStacks mask).timeUs = s.timeUs ∧
    (s.zeroStacks mask).regs = s.regs ∧ (s.zeroStacks mask).core = s.core ∧ (s.zeroStacks mask).mx = s.mx ∧
    (s.zeroStacks mask).e = s.e ∧ (s.zeroStacks mask).b = s.b ∧ (s.zeroStacks mask).fab = s.fab ∧
    (s.zeroStacks mask).sec = s.sec ∧ (s.zeroStacks mask).j = s.j ∧ (s.zeroStacks mask).h = s.h ∧
    (s.zeroStacks mask).pm = s.pm := by
  simp -implicitDefEqProofs (maxDischargeDepth := 8) [State.zeroStacks]

@[simp] theorem State.resetBlock_frame (s : State) (p : ℕ) : (s.resetBlock p).pending = s.pending ∧
    (s.resetBlock p).freeCtr = s.freeCtr ∧ (s.resetBlock p).timeUs = s.timeUs ∧ (s.resetBlock p).core = s.core ∧
    (s.resetBlock p).mx = s.mx ∧ (s.resetBlock p).m = s.m ∧ (s.resetBlock p).e = s.e ∧ (s.resetBlock p).b = s.b ∧
    (s.resetBlock p).fab = s.fab ∧ (s.resetBlock p).sec = s.sec ∧ (s.resetBlock p).j = s.j ∧
    (s.resetBlock p).h = s.h ∧ (s.resetBlock p).pm = s.pm := by
  simp -implicitDefEqProofs (maxDischargeDepth := 8) [State.resetBlock]

@[simp] theorem State.create_frame (s : State) (p : ℕ) (mask : ℕ) (opvis : Bool) :
    (s.create p mask opvis).pending = s.pending ∧ (s.create p mask opvis).timeUs = s.timeUs ∧
    (s.create p mask opvis).core = s.core ∧ (s.create p mask opvis).mx = s.mx ∧ (s.create p mask opvis).b = s.b ∧
    (s.create p mask opvis).fab = s.fab ∧ (s.create p mask opvis).j = s.j ∧ (s.create p mask opvis).h = s.h ∧
    (s.create p mask opvis).pm = s.pm := by
  simp -implicitDefEqProofs (maxDischargeDepth := 8) [State.create]

@[simp] theorem State.start_frame (s : State) (p : ℕ) : (s.start p).pending = s.pending ∧
    (s.start p).freeCtr = s.freeCtr ∧ (s.start p).timeUs = s.timeUs ∧ (s.start p).core = s.core ∧
    (s.start p).mx = s.mx ∧ (s.start p).m = s.m ∧ (s.start p).e = s.e ∧ (s.start p).b = s.b ∧
    (s.start p).fab = s.fab ∧ (s.start p).sec = s.sec ∧ (s.start p).j = s.j ∧ (s.start p).h = s.h ∧
    (s.start p).pm = s.pm := by
  simp -implicitDefEqProofs (maxDischargeDepth := 8) [State.start]

@[simp] theorem State.quoteNow_frame (s : State) (x : Started) (p : ℕ) : (s.quoteNow x p).pending = s.pending ∧
    (s.quoteNow x p).timeUs = s.timeUs ∧ (s.quoteNow x p).regs = s.regs ∧ (s.quoteNow x p).core = s.core ∧
    (s.quoteNow x p).mx = s.mx ∧ (s.quoteNow x p).e = s.e ∧ (s.quoteNow x p).b = s.b ∧
    (s.quoteNow x p).fab = s.fab ∧ (s.quoteNow x p).j = s.j ∧ (s.quoteNow x p).h = s.h ∧
    (s.quoteNow x p).pm = s.pm := by
  generalize hu : s.quoteNow x p = u
  unfold State.quoteNow at hu
  dsimp only at hu
  (repeat' split at hu) <;> (subst hu; simp -implicitDefEqProofs (maxDischargeDepth := 8))

@[simp] theorem State.serveSig_frame (s : State) (r : SigReq) : (s.serveSig r).pending = s.pending ∧
    (s.serveSig r).timeUs = s.timeUs ∧ (s.serveSig r).b = s.b ∧ (s.serveSig r).fab = s.fab := by
  generalize hu : s.serveSig r = u
  unfold State.serveSig at hu
  (repeat' split at hu) <;> (subst hu; simp -implicitDefEqProofs (maxDischargeDepth := 8))

@[simp] theorem State.debugHub_frame (s : State) : (s.debugHub).2.pending = s.pending ∧
    (s.debugHub).2.timeUs = s.timeUs ∧ (s.debugHub).2.regs = s.regs ∧ (s.debugHub).2.core = s.core ∧
    (s.debugHub).2.mx = s.mx ∧ (s.debugHub).2.m = s.m ∧ (s.debugHub).2.e = s.e ∧ (s.debugHub).2.b = s.b ∧
    (s.debugHub).2.fab = s.fab ∧ (s.debugHub).2.sec = s.sec ∧ (s.debugHub).2.j = s.j ∧ (s.debugHub).2.h = s.h ∧
    (s.debugHub).2.pm = s.pm := by
  generalize hu : s.debugHub = u
  unfold State.debugHub at hu
  dsimp only at hu
  (repeat' split at hu) <;> (subst hu; simp -implicitDefEqProofs (maxDischargeDepth := 8))

@[simp] theorem State.show_frame (s : State) (b : Option (List Byte)) : (s.show b).pending = s.pending ∧
    (s.show b).freeCtr = s.freeCtr ∧ (s.show b).timeUs = s.timeUs ∧ (s.show b).regs = s.regs ∧
    (s.show b).core = s.core ∧ (s.show b).mx = s.mx ∧ (s.show b).m = s.m ∧ (s.show b).b = s.b ∧
    (s.show b).fab = s.fab ∧ (s.show b).sec = s.sec ∧ (s.show b).j = s.j ∧ (s.show b).h = s.h ∧
    (s.show b).pm = s.pm := by
  generalize hu : s.show b = u
  unfold State.show at hu
  (repeat' split at hu) <;> (subst hu; simp -implicitDefEqProofs (maxDischargeDepth := 8))

@[simp] theorem State.debugHalt_frame (s : State) (core : ℕ) : (s.debugHalt core).pending = s.pending ∧
    (s.debugHalt core).timeUs = s.timeUs ∧ (s.debugHalt core).fab = s.fab ∧ (s.debugHalt core).sec = s.sec ∧
    (s.debugHalt core).j = s.j ∧ (s.debugHalt core).h = s.h := by
  simp -implicitDefEqProofs (maxDischargeDepth := 8) [State.debugHalt]

@[simp] theorem State.restand_frame (s : State) (core : ℕ) (t : ℕ) (x : TStat) :
    (s.restand core t x).pending = s.pending ∧ (s.restand core t x).freeCtr = s.freeCtr ∧
    (s.restand core t x).timeUs = s.timeUs ∧ (s.restand core t x).regs = s.regs ∧ (s.restand core t x).mx = s.mx ∧
    (s.restand core t x).m = s.m ∧ (s.restand core t x).e = s.e ∧ (s.restand core t x).b = s.b ∧
    (s.restand core t x).fab = s.fab ∧ (s.restand core t x).sec = s.sec ∧ (s.restand core t x).j = s.j ∧
    (s.restand core t x).h = s.h ∧ (s.restand core t x).pm = s.pm := by
  generalize hu : s.restand core t x = u
  unfold State.restand at hu
  (repeat' split at hu) <;> (subst hu; simp -implicitDefEqProofs (maxDischargeDepth := 8))

@[simp] theorem State.serveWaits_frame (s : State) (core : ℕ) : (s.serveWaits core).pending = s.pending ∧
    (s.serveWaits core).freeCtr = s.freeCtr ∧ (s.serveWaits core).timeUs = s.timeUs ∧ (s.serveWaits core).b = s.b ∧
    (s.serveWaits core).fab = s.fab ∧ (s.serveWaits core).sec = s.sec ∧ (s.serveWaits core).j = s.j ∧
    (s.serveWaits core).h = s.h := by
  simp -implicitDefEqProofs (maxDischargeDepth := 8) [State.serveWaits]

@[simp] theorem State.debugResume_frame (s : State) (core : ℕ) : (s.debugResume core).pending = s.pending ∧
    (s.debugResume core).freeCtr = s.freeCtr ∧ (s.debugResume core).timeUs = s.timeUs ∧
    (s.debugResume core).b = s.b ∧ (s.debugResume core).fab = s.fab ∧ (s.debugResume core).sec = s.sec ∧
    (s.debugResume core).j = s.j ∧ (s.debugResume core).h = s.h := by
  simp -implicitDefEqProofs (maxDischargeDepth := 8) [State.debugResume]

@[simp] theorem State.countLate_frame (s : State) (cl : ℕ) (es : List (ℕ × ℕ)) :
    (s.countLate cl es).pending = s.pending ∧ (s.countLate cl es).freeCtr = s.freeCtr ∧
    (s.countLate cl es).timeUs = s.timeUs ∧ (s.countLate cl es).core = s.core ∧ (s.countLate cl es).mx = s.mx ∧
    (s.countLate cl es).m = s.m ∧ (s.countLate cl es).e = s.e ∧ (s.countLate cl es).b = s.b ∧
    (s.countLate cl es).fab = s.fab ∧ (s.countLate cl es).sec = s.sec ∧ (s.countLate cl es).j = s.j ∧
    (s.countLate cl es).h = s.h ∧ (s.countLate cl es).pm = s.pm := by
  simp -implicitDefEqProofs (maxDischargeDepth := 8) [State.countLate]

@[simp] theorem State.putUnit_frame (s : State) (k : ℕ) (b : List Byte) : (s.putUnit k b).pending = s.pending ∧
    (s.putUnit k b).freeCtr = s.freeCtr ∧ (s.putUnit k b).timeUs = s.timeUs ∧ (s.putUnit k b).b = s.b ∧
    (s.putUnit k b).fab = s.fab ∧ (s.putUnit k b).sec = s.sec ∧ (s.putUnit k b).j = s.j ∧
    (s.putUnit k b).h = s.h := by
  simp -implicitDefEqProofs (maxDischargeDepth := 8) [State.putUnit]

@[simp] theorem State.holdMem_frame (s : State) (p : ℕ) (cells : List (ℕ × Byte)) :
    (s.holdMem p cells).pending = s.pending ∧ (s.holdMem p cells).freeCtr = s.freeCtr ∧
    (s.holdMem p cells).timeUs = s.timeUs ∧ (s.holdMem p cells).regs = s.regs ∧ (s.holdMem p cells).core = s.core ∧
    (s.holdMem p cells).mx = s.mx ∧ (s.holdMem p cells).m = s.m ∧ (s.holdMem p cells).e = s.e ∧
    (s.holdMem p cells).b = s.b ∧ (s.holdMem p cells).fab = s.fab ∧ (s.holdMem p cells).sec = s.sec ∧
    (s.holdMem p cells).h = s.h ∧ (s.holdMem p cells).pm = s.pm := by
  simp -implicitDefEqProofs (maxDischargeDepth := 8) [State.holdMem]

@[simp] theorem State.hostUnit_frame (s : State) (p : ℕ) (a : ℕ) (k : ℕ) (b : List Byte) :
    (s.hostUnit p a k b).pending = s.pending ∧ (s.hostUnit p a k b).freeCtr = s.freeCtr ∧
    (s.hostUnit p a k b).timeUs = s.timeUs ∧ (s.hostUnit p a k b).b = s.b ∧ (s.hostUnit p a k b).fab = s.fab ∧
    (s.hostUnit p a k b).sec = s.sec ∧ (s.hostUnit p a k b).h = s.h := by
  simp -implicitDefEqProofs (maxDischargeDepth := 8) [State.hostUnit]

@[simp] theorem memWriteUnit_frame (c : HostCmd) (p : ℕ) (a : ℕ) (k : ℕ) (s : State) :
    (memWriteUnit c p a k s).2.pending = s.pending ∧ (memWriteUnit c p a k s).2.freeCtr = s.freeCtr ∧
    (memWriteUnit c p a k s).2.timeUs = s.timeUs ∧ (memWriteUnit c p a k s).2.regs = s.regs ∧
    (memWriteUnit c p a k s).2.core = s.core ∧ (memWriteUnit c p a k s).2.mx = s.mx ∧
    (memWriteUnit c p a k s).2.e = s.e ∧ (memWriteUnit c p a k s).2.b = s.b ∧
    (memWriteUnit c p a k s).2.fab = s.fab ∧ (memWriteUnit c p a k s).2.sec = s.sec ∧
    (memWriteUnit c p a k s).2.j = s.j ∧ (memWriteUnit c p a k s).2.h = s.h ∧
    (memWriteUnit c p a k s).2.pm = s.pm := by
  simp -implicitDefEqProofs (maxDischargeDepth := 8) [memWriteUnit]

@[simp] theorem memReadUnit_frame (c : HostCmd) (a : ℕ) (k : ℕ) (s : State) :
    (memReadUnit c a k s).2.pending = s.pending ∧ (memReadUnit c a k s).2.freeCtr = s.freeCtr ∧
    (memReadUnit c a k s).2.timeUs = s.timeUs ∧ (memReadUnit c a k s).2.b = s.b ∧
    (memReadUnit c a k s).2.fab = s.fab ∧ (memReadUnit c a k s).2.sec = s.sec ∧ (memReadUnit c a k s).2.j = s.j ∧
    (memReadUnit c a k s).2.h = s.h := by
  generalize hu : memReadUnit c a k s = u
  unfold memReadUnit at hu
  (try generalize (2 : ℕ) ^ 48 = z at hu)
  try dsimp only at hu
  (repeat' split at hu) <;>
    (subst hu
     (try simp only [Prod.ext_iff] at *) <;> (try casesm* _ ∧ _) <;> subst_vars <;>
       first
       | (simp -implicitDefEqProofs (maxDischargeDepth := 8); done)
       | simp_all -implicitDefEqProofs)

@[simp] theorem memFillUnit_frame (c : HostCmd) (p : ℕ) (a : ℕ) (k : ℕ) (s : State) :
    (memFillUnit c p a k s).2.pending = s.pending ∧ (memFillUnit c p a k s).2.freeCtr = s.freeCtr ∧
    (memFillUnit c p a k s).2.timeUs = s.timeUs ∧ (memFillUnit c p a k s).2.regs = s.regs ∧
    (memFillUnit c p a k s).2.core = s.core ∧ (memFillUnit c p a k s).2.mx = s.mx ∧
    (memFillUnit c p a k s).2.e = s.e ∧ (memFillUnit c p a k s).2.b = s.b ∧ (memFillUnit c p a k s).2.fab = s.fab ∧
    (memFillUnit c p a k s).2.sec = s.sec ∧ (memFillUnit c p a k s).2.j = s.j ∧ (memFillUnit c p a k s).2.h = s.h ∧
    (memFillUnit c p a k s).2.pm = s.pm := by
  simp -implicitDefEqProofs (maxDischargeDepth := 8) [memFillUnit]

@[simp] theorem State.itemSeen_frame (s : State) (p : ℕ) (it : List Byte) : (s.itemSeen p it).pending = s.pending ∧
    (s.itemSeen p it).freeCtr = s.freeCtr ∧ (s.itemSeen p it).timeUs = s.timeUs ∧
    (s.itemSeen p it).m.mem = s.m.mem ∧ (s.itemSeen p it).b = s.b ∧ (s.itemSeen p it).fab = s.fab ∧
    (s.itemSeen p it).sec = s.sec ∧ (s.itemSeen p it).j = s.j ∧ (s.itemSeen p it).h = s.h := by
  generalize hu : s.itemSeen p it = u
  unfold State.itemSeen at hu
  (repeat' split at hu) <;> (subst hu; simp -implicitDefEqProofs (maxDischargeDepth := 8))

@[simp] theorem State.itemRefused_frame (s : State) (p : ℕ) (it : List Byte) :
    (s.itemRefused p it).pending = s.pending ∧ (s.itemRefused p it).freeCtr = s.freeCtr ∧
    (s.itemRefused p it).timeUs = s.timeUs ∧ (s.itemRefused p it).core = s.core ∧ (s.itemRefused p it).mx = s.mx ∧
    (s.itemRefused p it).m = s.m ∧ (s.itemRefused p it).b = s.b ∧ (s.itemRefused p it).fab = s.fab ∧
    (s.itemRefused p it).sec = s.sec ∧ (s.itemRefused p it).j = s.j ∧ (s.itemRefused p it).h = s.h := by
  simp -implicitDefEqProofs (maxDischargeDepth := 8) [State.itemRefused]

theorem State.loadItem_frame (s u : State) (p : Nat) (it : List Byte) (h : s.loadItem p it = .ok u) :
    u.pending = s.pending ∧ u.timeUs = s.timeUs ∧ u.fab = s.fab ∧ u.sec = s.sec ∧ u.h = s.h := by
  unfold State.loadItem at h
  dsimp only at h
  (repeat' split at h) <;> (cases h; try simp)

@[simp] theorem State.loadItems_frame (s : State) (p : ℕ) (a : List (List Byte)) :
    (s.loadItems p a).2.pending = s.pending ∧ (s.loadItems p a).2.timeUs = s.timeUs ∧
    (s.loadItems p a).2.fab = s.fab ∧ (s.loadItems p a).2.sec = s.sec ∧ (s.loadItems p a).2.h = s.h := by
  induction a generalizing s with
  | nil => exact (fun (_ : State) => ⟨rfl, rfl, rfl, rfl, rfl⟩) s
  | cons i r ih =>
    unfold State.loadItems
    dsimp only
    split
    · simp -implicitDefEqProofs
    · rename_i h
      obtain ⟨h1, h2, h3, h4, h5⟩ := State.loadItem_frame _ _ p i h
      simp -implicitDefEqProofs [ih, h1, h2, h3, h4, h5]

@[simp] theorem State.tablesSeen_frame (s : State) (p : ℕ) : (s.tablesSeen p).pending = s.pending ∧
    (s.tablesSeen p).freeCtr = s.freeCtr ∧ (s.tablesSeen p).timeUs = s.timeUs ∧ (s.tablesSeen p).m.mem = s.m.mem ∧
    (s.tablesSeen p).b = s.b ∧ (s.tablesSeen p).fab = s.fab ∧ (s.tablesSeen p).sec = s.sec ∧
    (s.tablesSeen p).j = s.j ∧ (s.tablesSeen p).h = s.h := by
  simp -implicitDefEqProofs (maxDischargeDepth := 8) [State.tablesSeen]

@[simp] theorem State.modelStepOf_frame (s : State) (p : ℕ) (model : List Byte) :
    (s.modelStepOf p model).2.pending = s.pending ∧ (s.modelStepOf p model).2.timeUs = s.timeUs ∧
    (s.modelStepOf p model).2.regs = s.regs ∧ (s.modelStepOf p model).2.core = s.core ∧
    (s.modelStepOf p model).2.mx = s.mx ∧ (s.modelStepOf p model).2.m = s.m ∧ (s.modelStepOf p model).2.e = s.e ∧
    (s.modelStepOf p model).2.b = s.b ∧ (s.modelStepOf p model).2.fab = s.fab ∧
    (s.modelStepOf p model).2.sec = s.sec ∧ (s.modelStepOf p model).2.j = s.j ∧ (s.modelStepOf p model).2.h = s.h ∧
    (s.modelStepOf p model).2.pm = s.pm := by
  unfold State.modelStepOf
  split <;> simp -implicitDefEqProofs

@[simp] theorem State.loaded_frame (s : State) (p : ℕ) (model : List Byte) :
    (s.loaded p model).pending = s.pending ∧ (s.loaded p model).timeUs = s.timeUs ∧ (s.loaded p model).b = s.b ∧
    (s.loaded p model).fab = s.fab ∧ (s.loaded p model).sec = s.sec ∧ (s.loaded p model).h = s.h := by
  generalize hu : s.loaded p model = u
  unfold State.loaded at hu
  dsimp only at hu
  (repeat' split at hu) <;> (subst hu; simp -implicitDefEqProofs (maxDischargeDepth := 8))

@[simp] theorem State.stopJob_frame (s : State) (p : ℕ) : (s.stopJob p).pending = s.pending ∧
    (s.stopJob p).freeCtr = s.freeCtr ∧ (s.stopJob p).timeUs = s.timeUs ∧ (s.stopJob p).b = s.b ∧
    (s.stopJob p).fab = s.fab ∧ (s.stopJob p).h = s.h := by
  simp -implicitDefEqProofs (maxDischargeDepth := 8) [State.stopJob]

@[simp] theorem State.hostWrite_frame (s : State) (p : ℕ) (va : ℕ) (data : List Byte) :
    (s.hostWrite p va data).pending = s.pending ∧ (s.hostWrite p va data).freeCtr = s.freeCtr ∧
    (s.hostWrite p va data).timeUs = s.timeUs ∧ (s.hostWrite p va data).b = s.b ∧
    (s.hostWrite p va data).fab = s.fab ∧ (s.hostWrite p va data).sec = s.sec ∧ (s.hostWrite p va data).h = s.h := by
  generalize hu : s.hostWrite p va data = u
  unfold State.hostWrite at hu
  (repeat' split at hu) <;> (subst hu; simp -implicitDefEqProofs (maxDischargeDepth := 8))

@[simp] theorem State.setLog_frame (s : State) (l : List LogEnt) : (s.setLog l).pending = s.pending ∧
    (s.setLog l).freeCtr = s.freeCtr ∧ (s.setLog l).timeUs = s.timeUs ∧ (s.setLog l).core = s.core ∧
    (s.setLog l).mx = s.mx ∧ (s.setLog l).m = s.m ∧ (s.setLog l).b = s.b ∧ (s.setLog l).fab = s.fab ∧
    (s.setLog l).sec = s.sec ∧ (s.setLog l).j = s.j ∧ (s.setLog l).h = s.h ∧ (s.setLog l).pm = s.pm := by
  simp -implicitDefEqProofs (maxDischargeDepth := 8) [State.setLog]

@[simp] theorem State.logReport_frame (s : State) (r : Report) : (s.logReport r).pending = s.pending ∧
    (s.logReport r).freeCtr = s.freeCtr ∧ (s.logReport r).timeUs = s.timeUs ∧ (s.logReport r).core = s.core ∧
    (s.logReport r).mx = s.mx ∧ (s.logReport r).m = s.m ∧ (s.logReport r).b = s.b ∧ (s.logReport r).fab = s.fab ∧
    (s.logReport r).sec = s.sec ∧ (s.logReport r).j = s.j ∧ (s.logReport r).h = s.h ∧ (s.logReport r).pm = s.pm := by
  simp -implicitDefEqProofs (maxDischargeDepth := 8) [State.logReport]

@[simp] theorem State.latch_frame (s : State) (i : ℕ) (detail : ℕ) (arg : ℕ) :
    (s.latch i detail arg).pending = s.pending ∧ (s.latch i detail arg).freeCtr = s.freeCtr ∧
    (s.latch i detail arg).timeUs = s.timeUs ∧ (s.latch i detail arg).core = s.core ∧
    (s.latch i detail arg).mx = s.mx ∧ (s.latch i detail arg).m = s.m ∧ (s.latch i detail arg).e = s.e ∧
    (s.latch i detail arg).b = s.b ∧ (s.latch i detail arg).fab = s.fab ∧ (s.latch i detail arg).sec = s.sec ∧
    (s.latch i detail arg).j = s.j ∧ (s.latch i detail arg).h = s.h ∧ (s.latch i detail arg).pm = s.pm := by
  simp -implicitDefEqProofs (maxDischargeDepth := 8) [State.latch]

@[simp] theorem State.failsafe_frame (s : State) (i : ℕ) : (s.failsafe i).pending = s.pending ∧
    (s.failsafe i).freeCtr = s.freeCtr ∧ (s.failsafe i).timeUs = s.timeUs ∧ (s.failsafe i).core = s.core ∧
    (s.failsafe i).mx = s.mx ∧ (s.failsafe i).m = s.m ∧ (s.failsafe i).b = s.b ∧ (s.failsafe i).sec = s.sec ∧
    (s.failsafe i).j = s.j ∧ (s.failsafe i).h = s.h := by
  simp -implicitDefEqProofs (maxDischargeDepth := 8) [State.failsafe]

@[simp] theorem State.fatal_frame (s : State) (i : ℕ) (detail : ℕ) (kind : ℕ) (index : ℕ) (arg : ℕ) :
    (s.fatal i detail kind index arg).pending = s.pending ∧ (s.fatal i detail kind index arg).freeCtr = s.freeCtr ∧
    (s.fatal i detail kind index arg).timeUs = s.timeUs ∧ (s.fatal i detail kind index arg).core = s.core ∧
    (s.fatal i detail kind index arg).mx = s.mx ∧ (s.fatal i detail kind index arg).m = s.m ∧
    (s.fatal i detail kind index arg).b = s.b ∧ (s.fatal i detail kind index arg).sec = s.sec ∧
    (s.fatal i detail kind index arg).j = s.j ∧ (s.fatal i detail kind index arg).h = s.h := by
  simp -implicitDefEqProofs (maxDischargeDepth := 8) [State.fatal]

@[simp] theorem State.hubFatal_frame (s : State) (i : ℕ) (detail : ℕ) (kind : ℕ) (index : ℕ) (arg : ℕ) :
    (s.hubFatal i detail kind index arg).pending = s.pending ∧
    (s.hubFatal i detail kind index arg).freeCtr = s.freeCtr ∧
    (s.hubFatal i detail kind index arg).timeUs = s.timeUs ∧ (s.hubFatal i detail kind index arg).core = s.core ∧
    (s.hubFatal i detail kind index arg).mx = s.mx ∧ (s.hubFatal i detail kind index arg).m = s.m ∧
    (s.hubFatal i detail kind index arg).b = s.b ∧ (s.hubFatal i detail kind index arg).sec = s.sec ∧
    (s.hubFatal i detail kind index arg).j = s.j ∧ (s.hubFatal i detail kind index arg).h = s.h := by
  simp -implicitDefEqProofs (maxDischargeDepth := 8) [State.hubFatal]

@[simp] theorem State.freeBytes_frame (s : State) : (s.freeBytes).2.pending = s.pending ∧
    (s.freeBytes).2.timeUs = s.timeUs ∧ (s.freeBytes).2.regs = s.regs ∧ (s.freeBytes).2.core = s.core ∧
    (s.freeBytes).2.mx = s.mx ∧ (s.freeBytes).2.m = s.m ∧ (s.freeBytes).2.e = s.e ∧ (s.freeBytes).2.b = s.b ∧
    (s.freeBytes).2.fab = s.fab ∧ (s.freeBytes).2.sec = s.sec ∧ (s.freeBytes).2.j = s.j ∧ (s.freeBytes).2.h = s.h ∧
    (s.freeBytes).2.pm = s.pm := by
  simp -implicitDefEqProofs (maxDischargeDepth := 8) [State.freeBytes]

@[simp] theorem State.dumpSecs_frame (s : State) : (s.dumpSecs).2.pending = s.pending ∧
    (s.dumpSecs).2.timeUs = s.timeUs ∧ (s.dumpSecs).2.regs = s.regs ∧ (s.dumpSecs).2.core = s.core ∧
    (s.dumpSecs).2.mx = s.mx ∧ (s.dumpSecs).2.m = s.m ∧ (s.dumpSecs).2.e = s.e ∧ (s.dumpSecs).2.b = s.b ∧
    (s.dumpSecs).2.fab = s.fab ∧ (s.dumpSecs).2.sec = s.sec ∧ (s.dumpSecs).2.j = s.j ∧ (s.dumpSecs).2.h = s.h ∧
    (s.dumpSecs).2.pm = s.pm := by
  simp -implicitDefEqProofs (maxDischargeDepth := 8) [State.dumpSecs]

@[simp] theorem State.endDump_frame (s : State) (trunc : Option ℕ) : (s.endDump trunc).pending = s.pending ∧
    (s.endDump trunc).timeUs = s.timeUs ∧ (s.endDump trunc).core = s.core ∧ (s.endDump trunc).mx = s.mx ∧
    (s.endDump trunc).e = s.e ∧ (s.endDump trunc).b = s.b ∧ (s.endDump trunc).fab = s.fab ∧
    (s.endDump trunc).sec = s.sec ∧ (s.endDump trunc).j = s.j ∧ (s.endDump trunc).h = s.h ∧
    (s.endDump trunc).pm = s.pm := by
  simp -implicitDefEqProofs (maxDischargeDepth := 8) [State.endDump]

@[simp] theorem State.fetchUe_frame (s : State) (core : ℕ) (offset : ℕ) :
    (s.fetchUe core offset).pending = s.pending ∧ (s.fetchUe core offset).timeUs = s.timeUs ∧
    (s.fetchUe core offset).m.mem = s.m.mem ∧ (s.fetchUe core offset).b = s.b ∧
    (s.fetchUe core offset).fab = s.fab ∧ (s.fetchUe core offset).sec = s.sec ∧ (s.fetchUe core offset).j = s.j ∧
    (s.fetchUe core offset).h = s.h := by
  generalize hu : s.fetchUe core offset = u
  unfold State.fetchUe at hu
  dsimp only at hu
  (repeat' split at hu) <;> (subst hu; simp -implicitDefEqProofs (maxDischargeDepth := 8))

@[simp] theorem State.engineUe_frame (s : State) (mc : ℕ) (id : ℕ) (offset : ℕ) :
    (s.engineUe mc id offset).pending = s.pending ∧ (s.engineUe mc id offset).freeCtr = s.freeCtr ∧
    (s.engineUe mc id offset).timeUs = s.timeUs ∧ (s.engineUe mc id offset).m = s.m ∧
    (s.engineUe mc id offset).b = s.b ∧ (s.engineUe mc id offset).fab = s.fab ∧
    (s.engineUe mc id offset).sec = s.sec ∧ (s.engineUe mc id offset).j = s.j ∧
    (s.engineUe mc id offset).h = s.h := by
  simp -implicitDefEqProofs (maxDischargeDepth := 8) [State.engineUe]

@[simp] theorem State.runTest_frame (s : State) (t : ℕ) : (s.runTest t).2.pending = s.pending ∧
    (s.runTest t).2.timeUs = s.timeUs ∧ (s.runTest t).2.core = s.core ∧ (s.runTest t).2.mx = s.mx ∧
    (s.runTest t).2.m = s.m ∧ (s.runTest t).2.b = s.b ∧ (s.runTest t).2.fab = s.fab ∧ (s.runTest t).2.sec = s.sec ∧
    (s.runTest t).2.j = s.j ∧ (s.runTest t).2.h = s.h := by
  generalize hu : s.runTest t = u
  unfold State.runTest at hu
  dsimp only at hu
  (repeat' split at hu) <;> (subst hu; simp -implicitDefEqProofs (maxDischargeDepth := 8))

@[simp] theorem State.issueReserved_frame (s : State) (core : ℕ) (t : ℕ) :
    (s.issueReserved core t).pending = s.pending ∧ (s.issueReserved core t).freeCtr = s.freeCtr ∧
    (s.issueReserved core t).timeUs = s.timeUs ∧ (s.issueReserved core t).m.mem = s.m.mem ∧
    (s.issueReserved core t).b = s.b ∧ (s.issueReserved core t).fab = s.fab ∧
    (s.issueReserved core t).sec = s.sec ∧ (s.issueReserved core t).j = s.j ∧ (s.issueReserved core t).h = s.h := by
  simp -implicitDefEqProofs (maxDischargeDepth := 8) [State.issueReserved]

@[simp] theorem State.tickWords_frame (s : State) : (s.tickWords).pending = s.pending ∧
    (s.tickWords).freeCtr = s.freeCtr ∧ (s.tickWords).timeUs = s.timeUs ∧ (s.tickWords).m.mem = s.m.mem ∧
    (s.tickWords).b = s.b ∧ (s.tickWords).fab = s.fab ∧ (s.tickWords).sec = s.sec ∧ (s.tickWords).j = s.j ∧
    (s.tickWords).h = s.h := by
  simp -implicitDefEqProofs (maxDischargeDepth := 8) [State.tickWords]

@[simp] theorem State.wantMhz_frame (s : State) (v : ℕ) : (s.wantMhz v).pending = s.pending ∧
    (s.wantMhz v).freeCtr = s.freeCtr ∧ (s.wantMhz v).timeUs = s.timeUs ∧ (s.wantMhz v).regs = s.regs ∧
    (s.wantMhz v).core = s.core ∧ (s.wantMhz v).mx = s.mx ∧ (s.wantMhz v).m = s.m ∧ (s.wantMhz v).e = s.e ∧
    (s.wantMhz v).b = s.b ∧ (s.wantMhz v).fab = s.fab ∧ (s.wantMhz v).sec = s.sec ∧ (s.wantMhz v).j = s.j ∧
    (s.wantMhz v).h = s.h := by
  simp -implicitDefEqProofs (maxDischargeDepth := 8) [State.wantMhz]

@[simp] theorem State.setThrot_frame (s : State) : (s.setThrot).pending = s.pending ∧
    (s.setThrot).freeCtr = s.freeCtr ∧ (s.setThrot).timeUs = s.timeUs ∧ (s.setThrot).core = s.core ∧
    (s.setThrot).mx = s.mx ∧ (s.setThrot).m = s.m ∧ (s.setThrot).e = s.e ∧ (s.setThrot).b = s.b ∧
    (s.setThrot).fab = s.fab ∧ (s.setThrot).sec = s.sec ∧ (s.setThrot).j = s.j ∧ (s.setThrot).h = s.h ∧
    (s.setThrot).pm = s.pm := by
  simp -implicitDefEqProofs (maxDischargeDepth := 8) [State.setThrot]

@[simp] theorem State.writeWake_frame (s : State) (src : ℕ) (frm : ℕ) (rep : Bool) (multi : Bool) (at_ : ℕ) :
    (s.writeWake src frm rep multi at_).pending = s.pending ∧
    (s.writeWake src frm rep multi at_).freeCtr = s.freeCtr ∧
    (s.writeWake src frm rep multi at_).timeUs = s.timeUs ∧ (s.writeWake src frm rep multi at_).core = s.core ∧
    (s.writeWake src frm rep multi at_).mx = s.mx ∧ (s.writeWake src frm rep multi at_).m = s.m ∧
    (s.writeWake src frm rep multi at_).e = s.e ∧ (s.writeWake src frm rep multi at_).b = s.b ∧
    (s.writeWake src frm rep multi at_).fab = s.fab ∧ (s.writeWake src frm rep multi at_).sec = s.sec ∧
    (s.writeWake src frm rep multi at_).j = s.j ∧ (s.writeWake src frm rep multi at_).h = s.h := by
  simp -implicitDefEqProofs (maxDischargeDepth := 8) [State.writeWake]

@[simp] theorem State.disarm_frame (s : State) : (s.disarm).pending = s.pending ∧ (s.disarm).freeCtr = s.freeCtr ∧
    (s.disarm).timeUs = s.timeUs ∧ (s.disarm).regs = s.regs ∧ (s.disarm).core = s.core ∧ (s.disarm).mx = s.mx ∧
    (s.disarm).m = s.m ∧ (s.disarm).e = s.e ∧ (s.disarm).b = s.b ∧ (s.disarm).fab = s.fab ∧
    (s.disarm).sec = s.sec ∧ (s.disarm).j = s.j ∧ (s.disarm).h = s.h := by
  simp -implicitDefEqProofs (maxDischargeDepth := 8) [State.disarm]

@[simp] theorem State.standDown_frame (s : State) : (s.standDown).pending = s.pending ∧
    (s.standDown).freeCtr = s.freeCtr ∧ (s.standDown).timeUs = s.timeUs ∧ (s.standDown).core = s.core ∧
    (s.standDown).mx = s.mx ∧ (s.standDown).m = s.m ∧ (s.standDown).b = s.b ∧ (s.standDown).sec = s.sec ∧
    (s.standDown).j = s.j ∧ (s.standDown).h = s.h := by
  simp -implicitDefEqProofs (maxDischargeDepth := 8) [State.standDown]

@[simp] theorem State.wipe_frame (s : State) (dump : Bool) : (s.wipe dump).pending = s.pending ∧
    (s.wipe dump).freeCtr = s.freeCtr := by
  simp -implicitDefEqProofs (maxDischargeDepth := 8) [State.wipe]

@[simp] theorem State.resetCause_frame (s : State) (cause : ℕ) (dump : Bool) :
    (s.resetCause cause dump).pending = s.pending ∧ (s.resetCause cause dump).freeCtr = s.freeCtr := by
  simp -implicitDefEqProofs (maxDischargeDepth := 8) [State.resetCause]

@[simp] theorem State.enterOff_frame (s : State) : (s.enterOff).pending = s.pending ∧
    (s.enterOff).freeCtr = s.freeCtr := by
  simp -implicitDefEqProofs (maxDischargeDepth := 8) [State.enterOff]

@[simp] theorem State.smbFenced_frame (s : State) : (s.smbFenced).pending = s.pending ∧
    (s.smbFenced).timeUs = s.timeUs ∧ (s.smbFenced).core = s.core ∧ (s.smbFenced).mx = s.mx ∧
    (s.smbFenced).m = s.m ∧ (s.smbFenced).b = s.b ∧ (s.smbFenced).sec = s.sec ∧ (s.smbFenced).j = s.j ∧
    (s.smbFenced).h = s.h := by
  simp -implicitDefEqProofs (maxDischargeDepth := 8) [State.smbFenced]

@[simp] theorem State.aonReset_frame (s : State) : (s.aonReset).pending = s.pending ∧
    (s.aonReset).freeCtr = s.freeCtr := by
  simp -implicitDefEqProofs (maxDischargeDepth := 8) [State.aonReset]

@[simp] theorem State.smbusFence_frame (s : State) : (s.smbusFence).pending = s.pending ∧
    (s.smbusFence).timeUs = s.timeUs ∧ (s.smbusFence).core = s.core ∧ (s.smbusFence).mx = s.mx ∧
    (s.smbusFence).m = s.m ∧ (s.smbusFence).b = s.b ∧ (s.smbusFence).sec = s.sec ∧ (s.smbusFence).j = s.j ∧
    (s.smbusFence).h = s.h := by
  simp -implicitDefEqProofs (maxDischargeDepth := 8) [State.smbusFence]

@[simp] theorem State.tickGood_frame (s : State) : (s.tickGood).pending = s.pending ∧
    (s.tickGood).freeCtr = s.freeCtr ∧ (s.tickGood).timeUs = s.timeUs ∧ (s.tickGood).regs = s.regs ∧
    (s.tickGood).core = s.core ∧ (s.tickGood).mx = s.mx ∧ (s.tickGood).m = s.m ∧ (s.tickGood).e = s.e ∧
    (s.tickGood).b = s.b ∧ (s.tickGood).fab = s.fab ∧ (s.tickGood).sec = s.sec ∧ (s.tickGood).j = s.j ∧
    (s.tickGood).h = s.h := by
  simp -implicitDefEqProofs (maxDischargeDepth := 8) [State.tickGood]

@[simp] theorem State.tickClusters_frame (s : State) : (s.tickClusters).pending = s.pending ∧
    (s.tickClusters).freeCtr = s.freeCtr ∧ (s.tickClusters).timeUs = s.timeUs ∧ (s.tickClusters).mx = s.mx ∧
    (s.tickClusters).m = s.m ∧ (s.tickClusters).e = s.e ∧ (s.tickClusters).b = s.b ∧ (s.tickClusters).fab = s.fab ∧
    (s.tickClusters).sec = s.sec ∧ (s.tickClusters).j = s.j ∧ (s.tickClusters).h = s.h ∧
    (s.tickClusters).pm = s.pm := by
  simp -implicitDefEqProofs (maxDischargeDepth := 8) [State.tickClusters]

@[simp] theorem State.tickGates_frame (s : State) : (s.tickGates).pending = s.pending ∧
    (s.tickGates).freeCtr = s.freeCtr ∧ (s.tickGates).timeUs = s.timeUs ∧ (s.tickGates).regs = s.regs ∧
    (s.tickGates).core = s.core ∧ (s.tickGates).mx = s.mx ∧ (s.tickGates).m = s.m ∧ (s.tickGates).e = s.e ∧
    (s.tickGates).b = s.b ∧ (s.tickGates).fab = s.fab ∧ (s.tickGates).sec = s.sec ∧ (s.tickGates).j = s.j ∧
    (s.tickGates).h = s.h := by
  simp -implicitDefEqProofs (maxDischargeDepth := 8) [State.tickGates]

@[simp] theorem State.tickIdle_frame (s : State) : (s.tickIdle).pending = s.pending ∧
    (s.tickIdle).freeCtr = s.freeCtr ∧ (s.tickIdle).timeUs = s.timeUs ∧ (s.tickIdle).regs = s.regs ∧
    (s.tickIdle).core = s.core ∧ (s.tickIdle).mx = s.mx ∧ (s.tickIdle).m = s.m ∧ (s.tickIdle).e = s.e ∧
    (s.tickIdle).b = s.b ∧ (s.tickIdle).fab = s.fab ∧ (s.tickIdle).sec = s.sec ∧ (s.tickIdle).j = s.j ∧
    (s.tickIdle).h = s.h := by
  simp -implicitDefEqProofs (maxDischargeDepth := 8) [State.tickIdle]

@[simp] theorem State.tickBoot_frame (s : State) : (s.tickBoot).pending = s.pending ∧
    (s.tickBoot).timeUs = s.timeUs ∧ (s.tickBoot).core = s.core ∧ (s.tickBoot).mx = s.mx ∧ (s.tickBoot).m = s.m ∧
    (s.tickBoot).e = s.e ∧ (s.tickBoot).b = s.b ∧ (s.tickBoot).fab = s.fab ∧ (s.tickBoot).j = s.j ∧
    (s.tickBoot).pm = s.pm := by
  simp -implicitDefEqProofs (maxDischargeDepth := 8) [State.tickBoot]

@[simp] theorem State.tickAon_frame (s : State) : (s.tickAon).pending = s.pending ∧
    (s.tickAon).freeCtr = s.freeCtr ∧ (s.tickAon).timeUs = s.timeUs ∧ (s.tickAon).core = s.core ∧
    (s.tickAon).mx = s.mx ∧ (s.tickAon).m = s.m ∧ (s.tickAon).e = s.e ∧ (s.tickAon).b = s.b ∧
    (s.tickAon).fab = s.fab ∧ (s.tickAon).sec = s.sec ∧ (s.tickAon).j = s.j ∧ (s.tickAon).h = s.h := by
  simp -implicitDefEqProofs (maxDischargeDepth := 8) [State.tickAon]

@[simp] theorem State.tickDump_frame (s : State) : (s.tickDump).pending = s.pending ∧
    (s.tickDump).timeUs = s.timeUs ∧ (s.tickDump).core = s.core ∧ (s.tickDump).mx = s.mx ∧ (s.tickDump).e = s.e ∧
    (s.tickDump).b = s.b ∧ (s.tickDump).fab = s.fab ∧ (s.tickDump).sec = s.sec ∧ (s.tickDump).j = s.j ∧
    (s.tickDump).h = s.h := by
  simp -implicitDefEqProofs (maxDischargeDepth := 8) [State.tickDump]

@[simp] theorem State.tickOff_frame (s : State) : (s.tickOff).pending = s.pending ∧
    (s.tickOff).freeCtr = s.freeCtr := by
  simp -implicitDefEqProofs (maxDischargeDepth := 8) [State.tickOff]

@[simp] theorem State.tickTime_frame (s : State) : (s.tickTime).pending = s.pending ∧
    (s.tickTime).freeCtr = s.freeCtr ∧ (s.tickTime).regs = s.regs ∧ (s.tickTime).core = s.core ∧
    (s.tickTime).mx = s.mx ∧ (s.tickTime).m = s.m ∧ (s.tickTime).b = s.b ∧ (s.tickTime).fab = s.fab ∧
    (s.tickTime).sec = s.sec ∧ (s.tickTime).j = s.j ∧ (s.tickTime).h = s.h ∧ (s.tickTime).pm = s.pm := by
  simp -implicitDefEqProofs (maxDischargeDepth := 8) [State.tickTime]

@[simp] theorem State.tick_frame (s : State) : (s.tick).pending = s.pending := by
  simp -implicitDefEqProofs (maxDischargeDepth := 8) [State.tick]

@[simp] theorem State.vresult_frame (s : State) (core : ℕ) (t : ℕ) (f : Fields) (r : ℕ × Flags) :
    (s.vresult core t f r).pending = s.pending ∧ (s.vresult core t f r).freeCtr = s.freeCtr ∧
    (s.vresult core t f r).timeUs = s.timeUs ∧ (s.vresult core t f r).regs = s.regs ∧
    (s.vresult core t f r).mx = s.mx ∧ (s.vresult core t f r).m = s.m ∧ (s.vresult core t f r).e = s.e ∧
    (s.vresult core t f r).b = s.b ∧ (s.vresult core t f r).fab = s.fab ∧ (s.vresult core t f r).sec = s.sec ∧
    (s.vresult core t f r).j = s.j ∧ (s.vresult core t f r).h = s.h ∧ (s.vresult core t f r).pm = s.pm := by
  simp -implicitDefEqProofs (maxDischargeDepth := 8) [State.vresult]

@[simp] theorem State.mresult_frame (s : State) (core : ℕ) (t : ℕ) (f : Fields) (r : ℕ × Flags) :
    (s.mresult core t f r).pending = s.pending ∧ (s.mresult core t f r).freeCtr = s.freeCtr ∧
    (s.mresult core t f r).timeUs = s.timeUs ∧ (s.mresult core t f r).regs = s.regs ∧
    (s.mresult core t f r).mx = s.mx ∧ (s.mresult core t f r).m = s.m ∧ (s.mresult core t f r).e = s.e ∧
    (s.mresult core t f r).b = s.b ∧ (s.mresult core t f r).fab = s.fab ∧ (s.mresult core t f r).sec = s.sec ∧
    (s.mresult core t f r).j = s.j ∧ (s.mresult core t f r).h = s.h ∧ (s.mresult core t f r).pm = s.pm := by
  simp -implicitDefEqProofs (maxDischargeDepth := 8) [State.mresult]

@[simp] theorem State.convert_frame (s : State) (core : ℕ) (t : ℕ) (f : Fields) (src : Ty) (dst : Ty) :
    (s.convert core t f src dst).pending = s.pending ∧ (s.convert core t f src dst).freeCtr = s.freeCtr ∧
    (s.convert core t f src dst).timeUs = s.timeUs ∧ (s.convert core t f src dst).regs = s.regs ∧
    (s.convert core t f src dst).mx = s.mx ∧ (s.convert core t f src dst).m = s.m ∧
    (s.convert core t f src dst).e = s.e ∧ (s.convert core t f src dst).b = s.b ∧
    (s.convert core t f src dst).fab = s.fab ∧ (s.convert core t f src dst).sec = s.sec ∧
    (s.convert core t f src dst).j = s.j ∧ (s.convert core t f src dst).h = s.h ∧
    (s.convert core t f src dst).pm = s.pm := by
  simp -implicitDefEqProofs (maxDischargeDepth := 8) [State.convert]

@[simp] theorem State.reduce_frame (s : State) (core : ℕ) (t : ℕ) (f : Fields) (ty : Ty) (res : Ty) (g : ℕ → NRes)
    (h : ℕ → ℕ → NRes) (ident : ℕ) : (s.reduce core t f ty res g h ident).pending = s.pending ∧
    (s.reduce core t f ty res g h ident).freeCtr = s.freeCtr ∧
    (s.reduce core t f ty res g h ident).timeUs = s.timeUs ∧ (s.reduce core t f ty res g h ident).regs = s.regs ∧
    (s.reduce core t f ty res g h ident).mx = s.mx ∧ (s.reduce core t f ty res g h ident).m = s.m ∧
    (s.reduce core t f ty res g h ident).e = s.e ∧ (s.reduce core t f ty res g h ident).b = s.b ∧
    (s.reduce core t f ty res g h ident).fab = s.fab ∧ (s.reduce core t f ty res g h ident).sec = s.sec ∧
    (s.reduce core t f ty res g h ident).j = s.j ∧ (s.reduce core t f ty res g h ident).h = s.h ∧
    (s.reduce core t f ty res g h ident).pm = s.pm := by
  generalize hu : s.reduce core t f ty res g h ident = u
  unfold State.reduce at hu
  dsimp only at hu
  (repeat' split at hu) <;> (subst hu; simp -implicitDefEqProofs (maxDischargeDepth := 8))

@[simp] theorem State.putMoments_frame (s : State) (core : ℕ) (t : ℕ) (f : Fields) (x : Option Triple) (fl : Flags)
    : (s.putMoments core t f x fl).pending = s.pending ∧ (s.putMoments core t f x fl).freeCtr = s.freeCtr ∧
    (s.putMoments core t f x fl).timeUs = s.timeUs ∧ (s.putMoments core t f x fl).regs = s.regs ∧
    (s.putMoments core t f x fl).mx = s.mx ∧ (s.putMoments core t f x fl).m = s.m ∧
    (s.putMoments core t f x fl).e = s.e ∧ (s.putMoments core t f x fl).b = s.b ∧
    (s.putMoments core t f x fl).fab = s.fab ∧ (s.putMoments core t f x fl).sec = s.sec ∧
    (s.putMoments core t f x fl).j = s.j ∧ (s.putMoments core t f x fl).h = s.h ∧
    (s.putMoments core t f x fl).pm = s.pm := by
  generalize hu : s.putMoments core t f x fl = u
  unfold State.putMoments at hu
  (repeat' split at hu) <;> (subst hu; simp -implicitDefEqProofs (maxDischargeDepth := 8))

@[simp] theorem State.popped_frame (s : State) : (s.popped).freeCtr = s.freeCtr ∧ (s.popped).timeUs = s.timeUs ∧
    (s.popped).regs = s.regs ∧ (s.popped).core = s.core ∧ (s.popped).mx = s.mx ∧ (s.popped).m = s.m ∧
    (s.popped).e = s.e ∧ (s.popped).b = s.b ∧ (s.popped).fab = s.fab ∧ (s.popped).sec = s.sec ∧
    (s.popped).j = s.j ∧ (s.popped).h = s.h ∧ (s.popped).pm = s.pm := by
  simp -implicitDefEqProofs (maxDischargeDepth := 8) [State.popped]

@[simp] theorem State.withFetchWord_frame (s : State) (nbits : ℕ) (w : ℕ) :
    (s.withFetchWord nbits w).freeCtr = s.freeCtr ∧ (s.withFetchWord nbits w).timeUs = s.timeUs ∧
    (s.withFetchWord nbits w).regs = s.regs ∧ (s.withFetchWord nbits w).core = s.core ∧
    (s.withFetchWord nbits w).mx = s.mx ∧ (s.withFetchWord nbits w).m = s.m ∧ (s.withFetchWord nbits w).e = s.e ∧
    (s.withFetchWord nbits w).b = s.b ∧ (s.withFetchWord nbits w).fab = s.fab ∧
    (s.withFetchWord nbits w).sec = s.sec ∧ (s.withFetchWord nbits w).j = s.j ∧ (s.withFetchWord nbits w).h = s.h ∧
    (s.withFetchWord nbits w).pm = s.pm := by
  generalize hu : s.withFetchWord nbits w = u
  unfold State.withFetchWord at hu
  (repeat' split at hu) <;> (subst hu; simp -implicitDefEqProofs (maxDischargeDepth := 8))

/-- What an instruction that meets an error does: nothing, it misses its turn, or its faults stop the task. -/
theorem issueUe_met (a : FInfo) (l : List FInfo) (core t cls op : Nat) (f : Fields) (uses : Uses) (bad : Bool)
    (more : List (RFile × Nat)) (body : State → Eff) (s u : State)
    (h : issueUe (a :: l) core t cls op f uses bad more body s = .next u) :
    u = s ∨ (∃ w, u = s.missTurn core t w) ∨ ∃ pc fs w, u = (s.countIssue core).raise core t pc fs w := by
  unfold issueUe at h
  dsimp only at h
  have hne : (wordFaults uses f bad (s.threads core) ++ a :: l).isEmpty = false := by simp
  rw [hne] at h
  split at h
  · cases h
  · split at h
    · cases h; exact .inl rfl
    · split at h
      · cases h; exact .inr (.inl ⟨_, rfl⟩)
      · simp only [Bool.false_eq_true, if_false] at h
        cases h; exact .inr (.inr ⟨_, _, _, rfl⟩)

/-- The same of an instruction that reads core memory. -/
theorem readWith_met (a : FInfo) (l : List FInfo) (c : Fin 800) (x : Reading) (s u : State)
    (h : readWith (a :: l) c x s = .next u) :
    u = s ∨ (∃ w, u = s.missTurn c x.thread w) ∨ ∃ pc fs w, u = (s.countIssue c).raise c x.thread pc fs w := by
  unfold readWith at h
  split at h
  all_goals first
    | with_reducible exact .inl (Host.Outcome.next.inj h).symm
    | (simp only [readLd, readSopen, readVld, readVlds, readVldt, readSampling, readGathl, readVgath, readBcmd,
        readBsplit,
        readBsort, readEres, readEsort] at h
       with_reducible exact issueUe_met _ _ _ _ _ _ _ _ _ _ _ _ _ h)

/-- What an instruction that meets an error leaves alone. -/
theorem State.readerUe_frame (s u : State) (c : Fin 800) (key offset : Nat) (x : Reading)
    (h : s.readerUe c key offset x = some u) :
    u.pending = s.pending ∧ u.freeCtr = s.freeCtr ∧ u.timeUs = s.timeUs ∧ u.m.mem = s.m.mem ∧ u.b = s.b ∧
        u.fab = s.fab ∧ u.sec = s.sec ∧ u.j = s.j ∧ u.h = s.h := by
  unfold State.readerUe at h
  split at h
  · split at h
    · rename_i v hv
      cases h
      rcases readWith_met _ _ _ _ _ _ hv with rfl | ⟨w, rfl⟩ | ⟨pc, fs, w, rfl⟩ <;> simp -implicitDefEqProofs
    · cases h
  · cases h

/-- An error in a core memory, where what meets it leaves these groups alone. -/
theorem State.coreUe_frame (s : State) (core offset : Nat) (loc : SramLoc) (by_ : State → Option State)
    (h : ∀ t u, by_ t = some u → u.pending = t.pending ∧ u.timeUs = t.timeUs ∧ u.b = t.b ∧ u.fab = t.fab ∧
        u.sec = t.sec ∧ u.j = t.j ∧ u.h = t.h) :
    (s.coreUe core offset loc by_).pending = s.pending ∧ (s.coreUe core offset loc by_).timeUs = s.timeUs ∧
    (s.coreUe core offset loc by_).b = s.b ∧ (s.coreUe core offset loc by_).fab = s.fab ∧
    (s.coreUe core offset loc by_).sec = s.sec ∧ (s.coreUe core offset loc by_).j = s.j ∧
    (s.coreUe core offset loc by_).h = s.h := by
  unfold State.coreUe
  dsimp only
  split
  · rename_i he
    have g := h _ _ he
    simp -implicitDefEqProofs [g]
  · simp -implicitDefEqProofs
  · simp -implicitDefEqProofs

end Sys2Proof.Machine
end

