-- ==== Sys2Proof/Laws/MemWf.lean ====
section
/-! SUPPORT. Every operation that writes memory keeps its canonical form. -/

namespace Sys2Proof.Machine

@[simp] theorem Mem.ite_wf {c : Prop} [Decidable c] {a b : Mem} (ha : a.wf = true) (hb : b.wf = true) :
    (if c then a else b).wf = true := by
  split <;> assumption

@[simp] theorem Mem.drop_wf {m : Mem} (h : m.wf = true) (p : Nat → Bool) :
    Mem.wf (Tab.drop m p) = true := Tab.drop_wf h p

@[simp] theorem foldl_memWf {α : Type} (l : List α) (f : State → α → State) (s : State) (hs : s.m.mem.wf = true)
    (h : ∀ s x, s.m.mem.wf = true → (f s x).m.mem.wf = true) : (l.foldl f s).m.mem.wf = true := by
  induction l generalizing s with
  | nil => exact hs
  | cons a l ih => exact ih _ (h s a hs)

@[simp] theorem foldl_snd_memWf {α β : Type} (l : List β) (f : α × State → β → α × State) (s : α × State)
    (hs : s.2.m.mem.wf = true) (h : ∀ s x, s.2.m.mem.wf = true → (f s x).2.m.mem.wf = true) :
    (l.foldl f s).2.m.mem.wf = true := by
  induction l generalizing s with
  | nil => exact hs
  | cons a l ih => exact ih _ (h s a hs)

@[simp] theorem foldl_fst_memWf {α β : Type} (l : List β) (f : State × α → β → State × α) (s : State × α)
    (hs : s.1.m.mem.wf = true) (h : ∀ s x, s.1.m.mem.wf = true → (f s x).1.m.mem.wf = true) :
    (l.foldl f s).1.m.mem.wf = true := by
  induction l generalizing s with
  | nil => exact hs
  | cons a l ih => exact ih _ (h s a hs)

@[simp] theorem State.wrB_memWf (s : State) (key : ℕ) (b : List Byte) (h : s.m.mem.wf = true) :
    (s.wrB key b).m.mem.wf = true := by
  simp -implicitDefEqProofs +contextual (maxDischargeDepth := 20) [h, State.wrB]

@[simp] theorem State.wr_memWf (s : State) (key : ℕ) (n : ℕ) (v : ℕ) (h : s.m.mem.wf = true) :
    (s.wr key n v).m.mem.wf = true := by
  simp -implicitDefEqProofs +contextual (maxDischargeDepth := 20) [h, State.wr]

@[simp] theorem State.zeroMem_memWf (s : State) (key : ℕ) (n : ℕ) (h : s.m.mem.wf = true) :
    (s.zeroMem key n).m.mem.wf = true := by
  simp -implicitDefEqProofs +contextual (maxDischargeDepth := 20) [h, State.zeroMem]

@[simp] theorem State.wrCells_memWf (s : State) (l : List (ℕ × Byte)) (h : s.m.mem.wf = true) :
    (s.wrCells l).m.mem.wf = true := by
  exact Mem.foldl_wr_wf h l

@[simp] theorem State.writeNow_memWf (s : State) (cells : List (ℕ × Byte)) (h : s.m.mem.wf = true) :
    (s.writeNow cells).2.m.mem.wf = true := by
  generalize hu : s.writeNow cells = u
  unfold State.writeNow at hu
  dsimp only at hu
  (repeat' split at hu) <;>
    (subst hu
     (try simp only [Prod.ext_iff] at *)
     (try casesm* _ ∧ _)
     subst_vars
     simp -implicitDefEqProofs +contextual (maxDischargeDepth := 20) [*])

@[simp] theorem State.writeKeys'_memWf (s : State) (who : ℕ) (cells : List (ℕ × Byte)) (h : s.m.mem.wf = true) :
    (s.writeKeys' who cells).2.m.mem.wf = true := by
  have hw := State.writeNow_memWf s cells h
  unfold State.writeKeys'
  split <;> rename_i heq <;> rw [heq] at hw <;> simpa using hw

@[simp] theorem State.hubWrite_memWf (s : State) (who : ℕ) (p : ℕ) (va : ℕ) (data : List Byte) (h : s.m.mem.wf =
    true) : (s.hubWrite who p va data).2.m.mem.wf = true := by
  generalize hu : s.hubWrite who p va data = u
  unfold State.hubWrite at hu
  (repeat' split at hu) <;> (subst hu; simp -implicitDefEqProofs +contextual (maxDischargeDepth := 20) [*])

@[simp] theorem State.endXfer_memWf (s : State) (x : Xfer) (h : s.m.mem.wf = true) :
    (s.endXfer x).m.mem.wf = true := by
  generalize hu : s.endXfer x = u
  unfold State.endXfer at hu
  (repeat' split at hu) <;> (subst hu; simp -implicitDefEqProofs +contextual (maxDischargeDepth := 20) [*])

@[simp] theorem State.finishXfer_memWf (s : State) (x : Xfer) (h : s.m.mem.wf = true) :
    (s.finishXfer x).m.mem.wf = true := by
  generalize hu : s.finishXfer x = u
  unfold State.finishXfer at hu
  (repeat' split at hu) <;> (subst hu; simp -implicitDefEqProofs +contextual (maxDischargeDepth := 20) [*])

@[simp] theorem State.landReq_memWf (s : State) (r : Req) (h : s.m.mem.wf = true) :
    (s.landReq r).m.mem.wf = true := by
  generalize hu : s.landReq r = u
  unfold State.landReq at hu
  dsimp only at hu
  (repeat' split at hu) <;> (subst hu; simp -implicitDefEqProofs +contextual (maxDischargeDepth := 20) [*])

@[simp] theorem State.startGroups_memWf (s : State) (x : Xfer) (stream : Bool) (write : Bool) (groups : List (ℕ ×
    List (ℕ × Byte))) (h : s.m.mem.wf = true) : (s.startGroups x stream write groups).m.mem.wf = true := by
  simp -implicitDefEqProofs +contextual (maxDischargeDepth := 20) [h, State.startGroups]

@[simp] theorem State.startXfer_memWf (s : State) (x : Xfer) (stream : Bool) (write : Bool) (cells : List (ℕ ×
    Byte)) (h : s.m.mem.wf = true) : (s.startXfer x stream write cells).m.mem.wf = true := by
  simp -implicitDefEqProofs +contextual (maxDischargeDepth := 20) [h, State.startXfer]

@[simp] theorem State.startReads_memWf (s : State) (x : Xfer) (units : List ℕ) (h : s.m.mem.wf = true) :
    (s.startReads x units).m.mem.wf = true := by
  simp -implicitDefEqProofs +contextual (maxDischargeDepth := 20) [h, State.startReads]

@[simp] theorem State.serveBurst_memWf (s : State) (r : Req) (b : ℕ) (h : s.m.mem.wf = true) :
    (s.serveBurst r b).2.2.m.mem.wf = true := by
  generalize hu : s.serveBurst r b = u
  unfold State.serveBurst at hu
  dsimp only at hu
  (repeat' split at hu) <;> (subst hu; simp -implicitDefEqProofs +contextual (maxDischargeDepth := 20) [*])

@[simp] theorem State.served_memWf (s : State) (r : Req) (h : s.m.mem.wf = true) : (s.served r).m.mem.wf = true := by
  simp -implicitDefEqProofs +contextual (maxDischargeDepth := 20) [h, State.served]

@[simp] theorem State.serveNext_memWf (s : State) (r : Req) (h : s.m.mem.wf = true) :
    (s.serveNext r).2.m.mem.wf = true := by
  generalize hu : s.serveNext r = u
  unfold State.serveNext at hu
  dsimp only at hu
  (repeat' split at hu) <;> (subst hu; simp -implicitDefEqProofs +contextual (maxDischargeDepth := 20) [*])

@[simp] theorem State.grantTo_memWf (s : State) (inst : ℕ) (elig : List ℕ) (r : Req) (held : ℕ) (h : s.m.mem.wf =
    true) : (s.grantTo inst elig r held).m.mem.wf = true := by
  simp -implicitDefEqProofs +contextual (maxDischargeDepth := 20) [h, State.grantTo]

@[simp] theorem State.serveLines_memWf (s : State) (inst : ℕ) (h : s.m.mem.wf = true) :
    (s.serveLines inst).m.mem.wf = true := by
  simp -implicitDefEqProofs +contextual (maxDischargeDepth := 20) [h, State.serveLines]

@[simp] theorem State.openRound_memWf (s : State) (inst : ℕ) (h : s.m.mem.wf = true) :
    (s.openRound inst).m.mem.wf = true := by
  generalize hu : s.openRound inst = u
  unfold State.openRound at hu
  dsimp only at hu
  (repeat' split at hu) <;> (subst hu; simp -implicitDefEqProofs +contextual (maxDischargeDepth := 20) [*])

@[simp] theorem State.memRound_memWf (s : State) (inst : ℕ) (h : s.m.mem.wf = true) :
    (s.memRound inst).m.mem.wf = true := by
  generalize hu : s.memRound inst = u
  unfold State.memRound at hu
  dsimp only at hu
  (repeat' split at hu) <;> (subst hu; simp -implicitDefEqProofs +contextual (maxDischargeDepth := 20) [*])

@[simp] theorem State.berthReturn_memWf (s : State) (core : ℕ) (id : ℕ) (h : s.m.mem.wf = true) :
    (s.berthReturn core id).m.mem.wf = true := by
  generalize hu : s.berthReturn core id = u
  unfold State.berthReturn at hu
  (repeat' split at hu) <;> (subst hu; simp -implicitDefEqProofs +contextual (maxDischargeDepth := 20) [*])

@[simp] theorem State.journal_memWf (s : State) (p : ℕ) (site : ℕ) (sec : ℕ) (step : ℕ) (va : ℕ) (cells : List (ℕ ×
    Byte)) (h : s.m.mem.wf = true) : (s.journal p site sec step va cells).m.mem.wf = true := by
  simp -implicitDefEqProofs +contextual (maxDischargeDepth := 20) [h, State.journal]

@[simp] theorem State.journalUnits_memWf (s : State) (p : ℕ) (site : ℕ) (sec : ℕ) (step : ℕ) (va : ℕ) (n : ℕ) (h :
    s.m.mem.wf = true) : (s.journalUnits p site sec step va n).m.mem.wf = true := by
  generalize hu : s.journalUnits p site sec step va n = u
  unfold State.journalUnits at hu
  dsimp only at hu
  (repeat' split at hu) <;> (subst hu; simp -implicitDefEqProofs +contextual (maxDischargeDepth := 20) [*])

@[simp] theorem State.startRows_memWf (s : State) (core : ℕ) (t : ℕ) (master : ℕ) (mc : ℕ) (q : ℕ) (rb : ℕ) (a :
    List (ℕ × List ℕ)) (h : s.m.mem.wf = true) : (s.startRows core t master mc q rb a).1.m.mem.wf = true := by
  fun_induction s.startRows core t master mc q rb a <;> simp_all -implicitDefEqProofs (maxDischargeDepth := 8)

@[simp] theorem State.kickFeeder_memWf (s : State) (core : ℕ) (h : s.m.mem.wf = true) :
    (s.kickFeeder core).m.mem.wf = true := by
  refine foldl_memWf _ _ _ h (fun s x h => ?_)
  split
  · exact h
  · rename_i y _
    generalize y.act = a
    cases a <;> try exact h
    rename_i _ _ _ _ _ l
    cases l <;> dsimp only
    · exact h
    · split <;> simp [h]

@[simp] theorem State.feederCredit_memWf (s : State) (feeder : ℕ) (tok : Word) (h : s.m.mem.wf = true) :
    (s.feederCredit feeder tok).m.mem.wf = true := by
  simp -implicitDefEqProofs +contextual (maxDischargeDepth := 20) [h, State.feederCredit]

@[simp] theorem State.streamFetch_memWf (s : State) (c : ℕ) (q : ℕ) (h : s.m.mem.wf = true) :
    (s.streamFetch c q).m.mem.wf = true := by
  generalize hu : s.streamFetch c q = u
  unfold State.streamFetch at hu
  dsimp only at hu
  (repeat' split at hu) <;> (subst hu; simp -implicitDefEqProofs +contextual (maxDischargeDepth := 20) [*])

@[simp] theorem State.writeAcc_memWf (s : State) (mc : ℕ) (off : ℕ) (size : ℕ) (rows : List (List ℕ)) (h :
    s.m.mem.wf = true) : (s.writeAcc mc off size rows).m.mem.wf = true := by
  simp -implicitDefEqProofs +contextual (maxDischargeDepth := 20) [h, State.writeAcc]

@[simp] theorem State.computeBand_memWf (s : State) (x : Mxm) (b : ℕ) (h : s.m.mem.wf = true) :
    (s.computeBand x b).m.mem.wf = true := by
  generalize hu : s.computeBand x b = u
  unfold State.computeBand at hu
  (repeat' split at hu) <;> (subst hu; simp -implicitDefEqProofs +contextual (maxDischargeDepth := 20) [*])

@[simp] theorem State.computeMxm_memWf (s : State) (x : Mxm) (h : s.m.mem.wf = true) :
    (s.computeMxm x).m.mem.wf = true := by
  simp -implicitDefEqProofs +contextual (maxDischargeDepth := 20) [h, State.computeMxm]

@[simp] theorem State.computeTo_memWf (s : State) (id : ℕ) (a : List Mxm) (h : s.m.mem.wf = true) :
    (s.computeTo id a).2.m.mem.wf = true := by
  fun_induction s.computeTo id a <;> simp -implicitDefEqProofs +contextual (maxDischargeDepth := 20) [*]

@[simp] theorem State.mxmFinish_memWf (s : State) (mc : ℕ) (h : s.m.mem.wf = true) :
    (s.mxmFinish mc).m.mem.wf = true := by
  unfold State.mxmFinish
  split
  · exact h
  · next x hx =>
    have hc := State.computeTo_memWf s x.id (s.mxmsOf mc) h
    split <;> rename_i heq
    · rw [heq] at hc
      simpa using hc
    · exact h

@[simp] theorem State.forgetTask_memWf (s : State) (core : ℕ) (h : s.m.mem.wf = true) :
    (s.forgetTask core).m.mem.wf = true := by
  simp -implicitDefEqProofs +contextual (maxDischargeDepth := 20) [h, State.forgetTask]

@[simp] theorem State.launch_memWf (s : State) (core : ℕ) (h : s.m.mem.wf = true) :
    (s.launch core).m.mem.wf = true := by
  simp -implicitDefEqProofs +contextual (maxDischargeDepth := 20) [h, State.launch]

@[simp] theorem State.takeBarge_memWf (s : State) (core : ℕ) (t : ℕ) (dst : ℕ) (off : ℕ) (tile : Tile) (h :
    s.m.mem.wf = true) : (s.takeBarge core t dst off tile).m.mem.wf = true := by
  simp -implicitDefEqProofs +contextual (maxDischargeDepth := 20) [h, State.takeBarge]

@[simp] theorem State.serveTake_memWf (s : State) (mc : ℕ) (h : s.m.mem.wf = true) :
    (s.serveTake mc).m.mem.wf = true := by
  generalize hu : s.serveTake mc = u
  unfold State.serveTake at hu
  (repeat' split at hu) <;> (subst hu; simp -implicitDefEqProofs +contextual (maxDischargeDepth := 20) [*])

@[simp] theorem State.postTile_memWf (s : State) (x : Mxm) (band : ℕ) (h : s.m.mem.wf = true) :
    (s.postTile x band).m.mem.wf = true := by
  generalize hu : s.postTile x band = u
  unfold State.postTile at hu
  (repeat' split at hu) <;> (subst hu; simp -implicitDefEqProofs +contextual (maxDischargeDepth := 20) [*])

@[simp] theorem State.bargePost_memWf (s : State) (mc : ℕ) (h : s.m.mem.wf = true) :
    (s.bargePost mc).m.mem.wf = true := by
  generalize hu : s.bargePost mc = u
  unfold State.bargePost at hu
  dsimp only at hu
  (repeat' split at hu) <;>
    (subst hu
     (try simp only [Prod.ext_iff] at *)
     (try casesm* _ ∧ _)
     subst_vars
     simp -implicitDefEqProofs +contextual (maxDischargeDepth := 20) [*])

@[simp] theorem State.gathRow_memWf (s : State) (core : ℕ) (t : ℕ) (master : ℕ) (key : ℕ) (pitch : ℕ) (keys : List
    ℕ) (h : s.m.mem.wf = true) : (s.gathRow core t master key pitch keys).m.mem.wf = true := by
  simp -implicitDefEqProofs +contextual (maxDischargeDepth := 20) [h, State.gathRow]

@[simp] theorem State.gathGo_memWf (s : State) (core : ℕ) (t : ℕ) (dst : ℕ) (g : Gath) (rows : List (ℕ × List ℕ))
    (h : s.m.mem.wf = true) : (s.gathGo core t dst g rows).m.mem.wf = true := by
  simp -implicitDefEqProofs +contextual (maxDischargeDepth := 20) [h, State.gathGo]

@[simp] theorem State.gathKeep_memWf (s : State) (key : ℕ) (pitch : ℕ) (keys : List ℕ) (h : s.m.mem.wf = true) :
    (s.gathKeep key pitch keys).m.mem.wf = true := by
  generalize hu : s.gathKeep key pitch keys = u
  unfold State.gathKeep at hu
  dsimp only at hu
  (repeat' split at hu) <;>
    (subst hu
     (try simp only [Prod.ext_iff] at *)
     (try casesm* _ ∧ _)
     subst_vars
     simp -implicitDefEqProofs +contextual (maxDischargeDepth := 20) [*])

@[simp] theorem State.gathStop_memWf (s : State) (core : ℕ) (g : Gath) (rows : List (ℕ × List ℕ)) (h : s.m.mem.wf =
    true) : (s.gathStop core g rows).m.mem.wf = true := by
  simp -implicitDefEqProofs +contextual (maxDischargeDepth := 20) [h, State.gathStop]

@[simp] theorem State.sampleLoad_memWf (s : State) (st : ℕ) (t : ℕ) (row : ℕ) (rows : ℕ) (n : ℕ) (h : s.m.mem.wf =
    true) : (s.sampleLoad st t row rows n).m.mem.wf = true := by
  simp -implicitDefEqProofs +contextual (maxDischargeDepth := 20) [h, State.sampleLoad]

@[simp] theorem State.putRows_memWf (s : State) (x : BCmd) (rows : List (List Byte)) (h : s.m.mem.wf = true) :
    (s.putRows x rows).m.mem.wf = true := by
  simp -implicitDefEqProofs +contextual (maxDischargeDepth := 20) [h, State.putRows]

@[simp] theorem State.scatterRow_memWf (s : State) (x : BCmd) (sl : Slot) (p : BPay) (seed : ℕ) (j : ℕ) (i : ℕ) (d
    : List Byte) (h : s.m.mem.wf = true) : (s.scatterRow x sl p seed j i d).2.m.mem.wf = true := by
  simp -implicitDefEqProofs +contextual (maxDischargeDepth := 20) [h, State.scatterRow]

@[simp] theorem State.journalPart_memWf (s : State) (x : BCmd) (sl : Slot) (p : ℕ) (at_ : ℕ) (row : ℕ) (d : List
    Byte) (h : s.m.mem.wf = true) : (s.journalPart x sl p at_ row d).2.m.mem.wf = true := by
  simp -implicitDefEqProofs +contextual (maxDischargeDepth := 20) [h, State.journalPart]

@[simp] theorem State.applyPart_memWf (s : State) (x : BCmd) (sl : Slot) (p : ℕ) (ws : List ℕ) (pay : BPay) (r :
    RowPart) (d : List Byte) (h : s.m.mem.wf = true) : (s.applyPart x sl p ws pay r d).2.m.mem.wf = true := by
  simp -implicitDefEqProofs +contextual (maxDischargeDepth := 20) [h, State.applyPart]

@[simp] theorem State.complete_memWf (s : State) (x : BCmd) (d : BDone) (h : s.m.mem.wf = true) :
    (s.complete x d).m.mem.wf = true := by
  generalize hu : s.complete x d = u; unfold State.complete at hu
  generalize mkTok 1 _ _ _ _ _ _ = tok at hu
  dsimp only at hu
  (repeat' split at hu) <;> (subst hu; simp -implicitDefEqProofs +contextual (maxDischargeDepth := 20) [*])

@[simp] theorem State.putIn_memWf (s : State) (p : ℕ) (sec : ℕ) (tid : ℕ) (off : ℕ) (data : List Byte) (h :
    s.m.mem.wf = true) : (s.putIn p sec tid off data).m.mem.wf = true := by
  generalize hu : s.putIn p sec tid off data = u
  unfold State.putIn at hu
  dsimp only at hu
  (repeat' split at hu) <;> (subst hu; simp -implicitDefEqProofs +contextual (maxDischargeDepth := 20) [*])

@[simp] theorem State.putReplica_memWf (s : State) (p : ℕ) (tid : ℕ) (off : ℕ) (data : List Byte) (h : s.m.mem.wf =
    true) : (s.putReplica p tid off data).m.mem.wf = true := by
  simp -implicitDefEqProofs +contextual (maxDischargeDepth := 20) [h, State.putReplica]

@[simp] theorem State.takeGather_memWf (s : State) (p : ℕ) (d : List Byte) (h : s.m.mem.wf = true) :
    (s.takeGather p d).m.mem.wf = true := by
  generalize hu : s.takeGather p d = u
  unfold State.takeGather at hu
  dsimp only at hu
  (repeat' split at hu) <;> (subst hu; simp -implicitDefEqProofs +contextual (maxDischargeDepth := 20) [*])

@[simp] theorem State.gatherFlight_memWf (s : State) (p : ℕ) (d : List Byte) (h : s.m.mem.wf = true) :
    (s.gatherFlight p d).m.mem.wf = true := by
  unfold State.gatherFlight
  dsimp only
  split
  · simp [h]
  · refine foldl_memWf _ _ _ (by simp [h]) (fun s x hs => ?_)
    (repeat' split) <;> simp [hs]

@[simp] theorem State.gatherChunk_memWf (s : State) (p : ℕ) (b : ℕ) (c : ℕ) (h : s.m.mem.wf = true) :
    (s.gatherChunk p b c).m.mem.wf = true := by
  unfold State.gatherChunk
  dsimp only
  split
  · exact h
  · split <;> rename_i heq <;> simp only [Prod.ext_iff] at heq <;> obtain ⟨-, rfl⟩ := heq
    · simp [h]
    · refine foldl_memWf _ _ _ (by simp [h]) (fun s x hs => foldl_memWf _ _ _ hs (fun s x hs => ?_))
      (repeat' split) <;> simp [hs]

@[simp] theorem State.startGathers_memWf (s : State) (p : ℕ) (h : s.m.mem.wf = true) :
    (s.startGathers p).m.mem.wf = true := by
  unfold State.startGathers
  dsimp only
  split
  · refine foldl_memWf _ _ _ h (fun s x hs => ?_)
    split <;> simp [hs]
  · exact h

@[simp] theorem State.collNow_memWf (s : State) (p : ℕ) (d : List Byte) (h : s.m.mem.wf = true) :
    (s.collNow p d).m.mem.wf = true := by
  unfold State.collNow
  dsimp only
  (repeat' split) <;> simp [h]

@[simp] theorem State.collIn_memWf (s : State) (p : ℕ) (d : List Byte) (h : s.m.mem.wf = true) :
    (s.collIn p d).m.mem.wf = true := by
  simp -implicitDefEqProofs +contextual (maxDischargeDepth := 20) [h, State.collIn]

@[simp] theorem State.updateSpan_memWf (s : State) (p : ℕ) (site : ℕ) (sec : ℕ) (slot : ℕ) (b : ℕ) (k : ℕ) (h :
    s.m.mem.wf = true) : (s.updateSpan p site sec slot b k).m.mem.wf = true := by
  generalize hu : s.updateSpan p site sec slot b k = u
  unfold State.updateSpan at hu
  dsimp only at hu
  (repeat' split at hu) <;>
    (subst hu
     (try simp only [Prod.ext_iff] at *)
     (try casesm* _ ∧ _)
     subst_vars
     simp -implicitDefEqProofs +contextual (maxDischargeDepth := 20) [*])

@[simp] theorem State.reply_memWf (s : State) (x : Started) (status : ℕ) (detail : ℕ) (r0 : ℕ) (r1 : ℕ) (h :
    s.m.mem.wf = true) : (s.reply x status detail r0 r1).m.mem.wf = true := by
  simp -implicitDefEqProofs +contextual (maxDischargeDepth := 20) [h, State.reply]

@[simp] theorem State.dropHeld_memWf (s : State) (p : ℕ) (h : s.m.mem.wf = true) :
    (s.dropHeld p).m.mem.wf = true := by
  simp -implicitDefEqProofs +contextual (maxDischargeDepth := 20) [h, State.dropHeld]

@[simp] theorem State.placeCoach_memWf (s : State) (p : ℕ) (x : Exch) (d : List Byte) (src : ℕ) (c : List Byte) (pt
    : ℕ × ℕ × Bool) (h : s.m.mem.wf = true) : (s.placeCoach p x d src c pt).m.mem.wf = true := by
  simp -implicitDefEqProofs +contextual (maxDischargeDepth := 20) [h, State.placeCoach]

@[simp] theorem State.parseStream_memWf (s : State) (p : ℕ) (xid : ℕ) (src : ℕ) (a : ℕ) (h : s.m.mem.wf = true) :
    (s.parseStream p xid src a).m.mem.wf = true := by
  fun_induction s.parseStream p xid src a <;> simp_all -implicitDefEqProofs (maxDischargeDepth := 8)

@[simp] theorem State.parseAll_memWf (s : State) (p : ℕ) (xid : ℕ) (src : ℕ) (h : s.m.mem.wf = true) :
    (s.parseAll p xid src).m.mem.wf = true := by
  simp -implicitDefEqProofs +contextual (maxDischargeDepth := 20) [h, State.parseAll]

@[simp] theorem State.exchEnd_memWf (s : State) (p : ℕ) (xid : ℕ) (h : s.m.mem.wf = true) :
    (s.exchEnd p xid).m.mem.wf = true := by
  generalize hu : s.exchEnd p xid = u
  unfold State.exchEnd at hu
  (repeat' split at hu) <;> (subst hu; simp -implicitDefEqProofs +contextual (maxDischargeDepth := 20) [*])

@[simp] theorem State.segIn_memWf (s : State) (p : ℕ) (src : ℕ) (d : List Byte) (h : s.m.mem.wf = true) :
    (s.segIn p src d).m.mem.wf = true := by
  simp -implicitDefEqProofs +contextual (maxDischargeDepth := 20) [h, State.segIn]

@[simp] theorem State.startExch_memWf (s : State) (p : ℕ) (sec : ℕ) (rqr : ℕ) (d : List Byte) (cs : List (ℕ × List
    Byte)) (h : s.m.mem.wf = true) : (s.startExch p sec rqr d cs).m.mem.wf = true := by
  simp -implicitDefEqProofs +contextual (maxDischargeDepth := 20) [h, State.startExch]

@[simp] theorem State.appendEntry_memWf (s : State) (p : ℕ) (kind : ℕ) (index : ℕ) (body : List Byte) (h :
    s.m.mem.wf = true) : (s.appendEntry p kind index body).m.mem.wf = true := by
  simp -implicitDefEqProofs +contextual (maxDischargeDepth := 20) [h, State.appendEntry]

@[simp] theorem State.signHead_memWf (s : State) (p : ℕ) (h : s.m.mem.wf = true) :
    (s.signHead p).m.mem.wf = true := by
  simp -implicitDefEqProofs +contextual (maxDischargeDepth := 20) [h, State.signHead]

@[simp] theorem State.appendRecord_memWf (s : State) (p : ℕ) (body : List Byte) (h : s.m.mem.wf = true) :
    (s.appendRecord p body).m.mem.wf = true := by
  simp -implicitDefEqProofs +contextual (maxDischargeDepth := 20) [h, State.appendRecord]

@[simp] theorem State.buildIdx_memWf (s : State) (p : ℕ) (d : List Byte) (off : ℕ) (es : List (ℕ × ℕ)) (h :
    s.m.mem.wf = true) : (s.buildIdx p d off es).m.mem.wf = true := by
  simp -implicitDefEqProofs +contextual (maxDischargeDepth := 20) [h, State.buildIdx]

@[simp] theorem State.addIdx_memWf (s : State) (p : ℕ) (d : List Byte) (off : ℕ) (es : List (ℕ × ℕ)) (h :
    s.m.mem.wf = true) : (s.addIdx p d off es).m.mem.wf = true := by
  simp -implicitDefEqProofs +contextual (maxDischargeDepth := 20) [h, State.addIdx]

@[simp] theorem State.delIdx_memWf (s : State) (p : ℕ) (d : List Byte) (off : ℕ) (rows : List ℕ) (h : s.m.mem.wf =
    true) : (s.delIdx p d off rows).m.mem.wf = true := by
  simp -implicitDefEqProofs +contextual (maxDischargeDepth := 20) [h, State.delIdx]

@[simp] theorem State.setDescs_memWf (s : State) (p : ℕ) (tid : ℕ) (off : ℕ) (data : List Byte) (h : s.m.mem.wf =
    true) : (s.setDescs p tid off data).m.mem.wf = true := by
  simp -implicitDefEqProofs +contextual (maxDischargeDepth := 20) [h, State.setDescs]

@[simp] theorem State.startMove_memWf (s : State) (p : ℕ) (d : List Byte) (r : ℕ) (h : s.m.mem.wf = true) :
    (s.startMove p d r).m.mem.wf = true := by
  unfold State.startMove
  dsimp only
  split
  · split <;> rename_i heq <;> simp only [Prod.ext_iff] at heq <;> obtain ⟨-, rfl⟩ := heq <;> simp [h]
  · simp [h]

@[simp] theorem State.startPicked_memWf (s : State) (p : ℕ) (e : ℕ × ℕ) (h : s.m.mem.wf = true) :
    (s.startPicked p e).m.mem.wf = true := by
  generalize hu : s.startPicked p e = u
  unfold State.startPicked at hu
  (repeat' split at hu) <;> (subst hu; simp -implicitDefEqProofs +contextual (maxDischargeDepth := 20) [*])

@[simp] theorem State.startMoves_memWf (s : State) (p : ℕ) (h : s.m.mem.wf = true) :
    (s.startMoves p).m.mem.wf = true := by
  simp -implicitDefEqProofs +contextual (maxDischargeDepth := 20) [h, State.startMoves]

@[simp] theorem State.landKind_memWf (s : State) (p : ℕ) (src : ℕ) (m : Move) (ks : List ℕ) (kind : ℕ) (h :
    s.m.mem.wf = true) : (s.landKind p src m ks kind).m.mem.wf = true := by
  generalize hu : s.landKind p src m ks kind = u
  unfold State.landKind at hu
  (repeat' split at hu) <;> (subst hu; simp -implicitDefEqProofs +contextual (maxDischargeDepth := 20) [*])

@[simp] theorem State.landMove_memWf (s : State) (p : ℕ) (src : ℕ) (m : Move) (h : s.m.mem.wf = true) :
    (s.landMove p src m).m.mem.wf = true := by
  generalize hu : s.landMove p src m = u
  unfold State.landMove at hu
  (repeat' split at hu) <;> (subst hu; simp -implicitDefEqProofs +contextual (maxDischargeDepth := 20) [*])

@[simp] theorem State.moveIn_memWf (s : State) (p : ℕ) (src : ℕ) (tid : ℕ) (row : ℕ) (b : List Byte) (h :
    s.m.mem.wf = true) : (s.moveIn p src tid row b).m.mem.wf = true := by
  generalize hu : s.moveIn p src tid row b = u
  unfold State.moveIn at hu
  dsimp only at hu
  (repeat' split at hu) <;> (subst hu; simp -implicitDefEqProofs +contextual (maxDischargeDepth := 20) [*])

@[simp] theorem State.installMoves_memWf (s : State) (p : ℕ) (h : s.m.mem.wf = true) :
    (s.installMoves p).m.mem.wf = true := by
  simp -implicitDefEqProofs +contextual (maxDischargeDepth := 20) [h, State.installMoves]

@[simp] theorem State.dropMoves_memWf (s : State) (p : ℕ) (h : s.m.mem.wf = true) :
    (s.dropMoves p).m.mem.wf = true := by
  simp -implicitDefEqProofs +contextual (maxDischargeDepth := 20) [h, State.dropMoves]

@[simp] theorem State.forgetMoves_memWf (s : State) (p : ℕ) (h : s.m.mem.wf = true) :
    (s.forgetMoves p).m.mem.wf = true := by
  simp -implicitDefEqProofs +contextual (maxDischargeDepth := 20) [h, State.forgetMoves]

@[simp] theorem State.putBufs_memWf (s : State) (a : List (ℕ × ℕ)) (a1 : List Byte) (h : s.m.mem.wf = true) :
    (s.putBufs a a1).m.mem.wf = true := by
  fun_induction s.putBufs a a1 <;> simp_all -implicitDefEqProofs (maxDischargeDepth := 8)

@[simp] theorem State.writeParts_memWf (s : State) (p : ℕ) (step : ℕ) (x : Started) (ps : List (List Byte × List
    Byte)) (h : s.m.mem.wf = true) : (s.writeParts p step x ps).2.m.mem.wf = true := by
  generalize hu : s.writeParts p step x ps = u
  unfold State.writeParts at hu
  dsimp only at hu
  (repeat' split at hu) <;> (subst hu; simp -implicitDefEqProofs +contextual (maxDischargeDepth := 20) [*])

@[simp] theorem State.tryCheckpoint_memWf (s : State) (p : ℕ) (h : s.m.mem.wf = true) :
    (s.tryCheckpoint p).m.mem.wf = true := by
  generalize hu : s.tryCheckpoint p = u
  unfold State.tryCheckpoint at hu
  dsimp only at hu
  (repeat' split at hu) <;>
    (subst hu
     (try simp only [Prod.ext_iff] at *)
     (try casesm* _ ∧ _)
     subst_vars
     simp -implicitDefEqProofs +contextual (maxDischargeDepth := 20) [*])

@[simp] theorem State.applyHeldMem_memWf (s : State) (p : ℕ) (h : s.m.mem.wf = true) :
    (s.applyHeldMem p).m.mem.wf = true := by
  simp -implicitDefEqProofs +contextual (maxDischargeDepth := 20) [h, State.applyHeldMem]

@[simp] theorem State.putHotIn_memWf (s : State) (p : ℕ) (sec : ℕ) (tid : ℕ) (row : ℕ) (vec : List Byte) (h :
    s.m.mem.wf = true) : (s.putHotIn p sec tid row vec).m.mem.wf = true := by
  generalize hu : s.putHotIn p sec tid row vec = u
  unfold State.putHotIn at hu
  (repeat' split at hu) <;> (subst hu; simp -implicitDefEqProofs +contextual (maxDischargeDepth := 20) [*])

@[simp] theorem State.putHot_memWf (s : State) (p : ℕ) (tid : ℕ) (row : ℕ) (vec : List Byte) (h : s.m.mem.wf =
    true) : (s.putHot p tid row vec).m.mem.wf = true := by
  simp -implicitDefEqProofs +contextual (maxDischargeDepth := 20) [h, State.putHot]

@[simp] theorem State.buildHotIndex_memWf (s : State) (p : ℕ) (sec : ℕ) (d : List Byte) (rows : List ℕ) (h :
    s.m.mem.wf = true) : (s.buildHotIndex p sec d rows).m.mem.wf = true := by
  simp -implicitDefEqProofs +contextual (maxDischargeDepth := 20) [h, State.buildHotIndex]

@[simp] theorem State.fitHot_memWf (s : State) (p : ℕ) (h : s.m.mem.wf = true) : (s.fitHot p).m.mem.wf = true := by
  simp -implicitDefEqProofs +contextual (maxDischargeDepth := 20) [h, State.fitHot]

@[simp] theorem State.settlePounds_memWf (s : State) (p : ℕ) (h : s.m.mem.wf = true) :
    (s.settlePounds p).m.mem.wf = true := by
  simp -implicitDefEqProofs +contextual (maxDischargeDepth := 20) [h, State.settlePounds]

@[simp] theorem State.refreshRow_memWf (s : State) (p : ℕ) (tid : ℕ) (row : ℕ) (h : s.m.mem.wf = true) :
    (s.refreshRow p tid row).m.mem.wf = true := by
  generalize hu : s.refreshRow p tid row = u
  unfold State.refreshRow at hu
  dsimp only at hu
  (repeat' split at hu) <;>
    (subst hu
     (try simp only [Prod.ext_iff] at *)
     (try casesm* _ ∧ _)
     subst_vars
     simp -implicitDefEqProofs +contextual (maxDischargeDepth := 20) [*])

@[simp] theorem State.hotRefresh_memWf (s : State) (p : ℕ) (step : ℕ) (tid : ℕ) (rows : List ℕ) (h : s.m.mem.wf =
    true) : (s.hotRefresh p step tid rows).m.mem.wf = true := by
  simp -implicitDefEqProofs +contextual (maxDischargeDepth := 20) [h, State.hotRefresh]

@[simp] theorem State.newTable_memWf (s : State) (p : ℕ) (tid : ℕ) (sec : ℕ) (at_ : ℕ) (h : s.m.mem.wf = true) :
    (s.newTable p tid sec at_).m.mem.wf = true := by
  generalize hu : s.newTable p tid sec at_ = u
  unfold State.newTable at hu
  dsimp only at hu
  (repeat' split at hu) <;> (subst hu; simp -implicitDefEqProofs +contextual (maxDischargeDepth := 20) [*])

@[simp] theorem State.replaceTable_memWf (s : State) (p : ℕ) (tid : ℕ) (addr : ℕ) (h : s.m.mem.wf = true) :
    (s.replaceTable p tid addr).1.m.mem.wf = true := by
  generalize hu : s.replaceTable p tid addr = u
  unfold State.replaceTable at hu
  dsimp only at hu
  (repeat' split at hu) <;> (subst hu; simp -implicitDefEqProofs +contextual (maxDischargeDepth := 20) [*])

@[simp] theorem State.applyCmd_memWf (s : State) (c : HostCmd) (p : ℕ) (h : s.m.mem.wf = true) :
    (s.applyCmd c p).1.m.mem.wf = true := by
  generalize hu : s.applyCmd c p = u
  unfold State.applyCmd at hu
  dsimp only at hu
  (repeat' split at hu) <;> (subst hu; simp -implicitDefEqProofs +contextual (maxDischargeDepth := 20) [*])

@[simp] theorem State.applyOne_memWf (s : State) (p : ℕ) (c : HostCmd) (h : s.m.mem.wf = true) :
    (s.applyOne p c).m.mem.wf = true := by
  generalize hu : s.applyOne p c = u
  unfold State.applyOne at hu
  dsimp only at hu
  (repeat' split at hu) <;> (subst hu; simp -implicitDefEqProofs +contextual (maxDischargeDepth := 20) [*])

@[simp] theorem State.applyHeld_memWf (s : State) (p : ℕ) (h : s.m.mem.wf = true) :
    (s.applyHeld p).m.mem.wf = true := by
  simp -implicitDefEqProofs +contextual (maxDischargeDepth := 20) [h, State.applyHeld]

@[simp] theorem State.clearLoads_memWf (s : State) (p : ℕ) (h : s.m.mem.wf = true) :
    (s.clearLoads p).m.mem.wf = true := by
  simp -implicitDefEqProofs +contextual (maxDischargeDepth := 20) [h, State.clearLoads]

@[simp] theorem State.clearCounts_memWf (s : State) (p : ℕ) (h : s.m.mem.wf = true) :
    (s.clearCounts p).m.mem.wf = true := by
  simp -implicitDefEqProofs +contextual (maxDischargeDepth := 20) [h, State.clearCounts]

@[simp] theorem State.clearStep_memWf (s : State) (p : ℕ) (h : s.m.mem.wf = true) :
    (s.clearStep p).m.mem.wf = true := by
  simp -implicitDefEqProofs +contextual (maxDischargeDepth := 20) [h, State.clearStep]

@[simp] theorem State.startStep_memWf (s : State) (p : ℕ) (h : s.m.mem.wf = true) :
    (s.startStep p).m.mem.wf = true := by
  simp -implicitDefEqProofs +contextual (maxDischargeDepth := 20) [h, State.startStep]

@[simp] theorem State.proceed_memWf (s : State) (p : ℕ) (h : s.m.mem.wf = true) : (s.proceed p).m.mem.wf = true := by
  simp -implicitDefEqProofs +contextual (maxDischargeDepth := 20) [h, State.proceed]

@[simp] theorem State.boundary_memWf (s : State) (p : ℕ) (cause : ℕ) (h : s.m.mem.wf = true) :
    (s.boundary p cause).m.mem.wf = true := by
  simp -implicitDefEqProofs +contextual (maxDischargeDepth := 20) [h, State.boundary]

@[simp] theorem State.mapFrom_memWf (s : State) (p : ℕ) (va : ℕ) (a : ℕ) (a1 : ℕ) (a2 : ℕ) (h : s.m.mem.wf = true)
    : (s.mapFrom p va a a1 a2).m.mem.wf = true := by
  induction a generalizing s a1 a2 with
  | zero => exact h
  | succ n ih =>
    unfold State.mapFrom
    split
    · exact h
    · split
      · exact ih _ _ _ h
      · exact h
      · dsimp only
        apply ih
        apply State.writeKeys'_memWf
        split <;> simp [h]

@[simp] theorem State.mapRange_memWf (s : State) (p : ℕ) (va : ℕ) (n : ℕ) (h : s.m.mem.wf = true) :
    (s.mapRange p va n).m.mem.wf = true := by
  unfold State.mapRange
  dsimp only
  split
  · exact foldl_memWf _ _ _ h (fun s x hs => State.mapFrom_memWf s _ _ _ _ _ hs)
  · exact h

@[simp] theorem State.freshShard_memWf (s : State) (p : ℕ) (slot : ℕ) (b : ℕ) (tid : ℕ) (h : s.m.mem.wf = true) :
    (s.freshShard p slot b tid).2.m.mem.wf = true := by
  unfold State.freshShard
  dsimp only
  exact foldl_snd_memWf _ _ _ h (fun e x he => State.mapRange_memWf _ _ _ _ (by simp [he]))

@[simp] theorem State.writeShard_memWf (s : State) (p : ℕ) (kept : List ((ℕ × ℕ) × List Byte)) (g : ℕ) (h :
    s.m.mem.wf = true) : (s.writeShard p kept g).m.mem.wf = true := by
  unfold State.writeShard
  dsimp only
  refine foldl_memWf _ _ _ (by simp [h]) (fun s e hs => foldl_memWf _ _ _ hs (fun s b hs => ?_))
  apply State.hubWrite_memWf
  split <;> simp [hs]

@[simp] theorem State.writeShards_memWf (s : State) (p : ℕ) (kept : List ((ℕ × ℕ) × List Byte)) (h : s.m.mem.wf =
    true) : (s.writeShards p kept).m.mem.wf = true := by
  simp -implicitDefEqProofs +contextual (maxDischargeDepth := 20) [h, State.writeShards]

@[simp] theorem State.putLocator_memWf (s : State) (p : ℕ) (tid : ℕ) (slot : ℕ) (home : ℕ) (arr : ℕ) (h :
    s.m.mem.wf = true) : (s.putLocator p tid slot home arr).m.mem.wf = true := by
  simp -implicitDefEqProofs +contextual (maxDischargeDepth := 20) [h, State.putLocator]

@[simp] theorem State.newLocators_memWf (s : State) (p : ℕ) (slot : ℕ) (h : s.m.mem.wf = true) :
    (s.newLocators p slot).m.mem.wf = true := by
  simp -implicitDefEqProofs +contextual (maxDischargeDepth := 20) [h, State.newLocators]

@[simp] theorem State.dropLocators_memWf (s : State) (p : ℕ) (slot : ℕ) (h : s.m.mem.wf = true) :
    (s.dropLocators p slot).m.mem.wf = true := by
  simp -implicitDefEqProofs +contextual (maxDischargeDepth := 20) [h, State.dropLocators]

@[simp] theorem State.writeSlotMaps_memWf (s : State) (p : ℕ) (slots : List ℕ) (h : s.m.mem.wf = true) :
    (s.writeSlotMaps p slots).m.mem.wf = true := by
  simp -implicitDefEqProofs +contextual (maxDischargeDepth := 20) [h, State.writeSlotMaps]

@[simp] theorem State.setMap_memWf (s : State) (p : ℕ) (map : List ℕ) (h : s.m.mem.wf = true) :
    (s.setMap p map).m.mem.wf = true := by
  unfold State.setMap
  dsimp only
  simp only [State.modJob_frame]
  apply State.writeSlotMaps_memWf
  refine foldl_memWf _ _ _ (foldl_memWf _ _ _ ?_ (fun s x hs => by simp [hs])) (fun s x hs => by simp [hs])
  simp [h]

@[simp] theorem State.setSnaps_memWf (s : State) (p : ℕ) (l : List SnapPart) (h : s.m.mem.wf = true) :
    (s.setSnaps p l).m.mem.wf = true := by
  simp -implicitDefEqProofs +contextual (maxDischargeDepth := 20) [h, State.setSnaps]

@[simp] theorem State.forgetSnap_memWf (s : State) (p : ℕ) (dev : ℕ) (h : s.m.mem.wf = true) :
    (s.forgetSnap p dev).m.mem.wf = true := by
  simp -implicitDefEqProofs +contextual (maxDischargeDepth := 20) [h, State.forgetSnap]

@[simp] theorem State.endAbsorb_memWf (s : State) (p : ℕ) (h : s.m.mem.wf = true) :
    (s.endAbsorb p).m.mem.wf = true := by
  simp -implicitDefEqProofs +contextual (maxDischargeDepth := 20) [h, State.endAbsorb]

@[simp] theorem State.dropAbsorb_memWf (s : State) (p : ℕ) (h : s.m.mem.wf = true) :
    (s.dropAbsorb p).m.mem.wf = true := by
  simp -implicitDefEqProofs +contextual (maxDischargeDepth := 20) [h, State.dropAbsorb]

@[simp] theorem State.launchTask_memWf (s : State) (p : ℕ) (slot : ℕ) (arg7 : ℕ) (core : ℕ) (addr : ℕ) (h :
    s.m.mem.wf = true) : (s.launchTask p slot arg7 core addr).m.mem.wf = true := by
  simp -implicitDefEqProofs +contextual (maxDischargeDepth := 20) [h, State.launchTask]

@[simp] theorem State.launchSet_memWf (s : State) (p : ℕ) (phase : ℕ) (slot : ℕ) (m : ℕ) (h : s.m.mem.wf = true) :
    (s.launchSet p phase slot m).m.mem.wf = true := by
  simp -implicitDefEqProofs +contextual (maxDischargeDepth := 20) [h, State.launchSet]

@[simp] theorem State.scaleLoss_memWf (s : State) (p : ℕ) (slot : ℕ) (m : ℕ) (h : s.m.mem.wf = true) :
    (s.scaleLoss p slot m).m.mem.wf = true := by
  generalize hu : s.scaleLoss p slot m = u
  unfold State.scaleLoss at hu
  dsimp only at hu
  (repeat' split at hu) <;>
    (subst hu
     (try simp only [Prod.ext_iff] at *)
     (try casesm* _ ∧ _)
     subst_vars
     simp -implicitDefEqProofs +contextual (maxDischargeDepth := 20) [*])

@[simp] theorem State.enterPhase_memWf (s : State) (p : ℕ) (ph : Phase) (h : s.m.mem.wf = true) :
    (s.enterPhase p ph).m.mem.wf = true := by
  generalize hu : s.enterPhase p ph = u
  unfold State.enterPhase at hu
  (repeat' split at hu) <;> (subst hu; simp -implicitDefEqProofs +contextual (maxDischargeDepth := 20) [*])

@[simp] theorem State.tellFenced_memWf (s : State) (p : ℕ) (h : s.m.mem.wf = true) :
    (s.tellFenced p).m.mem.wf = true := by
  simp -implicitDefEqProofs +contextual (maxDischargeDepth := 20) [h, State.tellFenced]

@[simp] theorem State.tellOnce_memWf (s : State) (p : ℕ) (h : s.m.mem.wf = true) :
    (s.tellOnce p).m.mem.wf = true := by
  simp -implicitDefEqProofs +contextual (maxDischargeDepth := 20) [h, State.tellOnce]

@[simp] theorem State.countT_memWf (s : State) (p : ℕ) (h : s.m.mem.wf = true) : (s.countT p).m.mem.wf = true := by
  simp -implicitDefEqProofs +contextual (maxDischargeDepth := 20) [h, State.countT]

@[simp] theorem State.endRestore_memWf (s : State) (p : ℕ) (st : ℕ) (result : ℕ) (status : ℕ) (h : s.m.mem.wf =
    true) : (s.endRestore p st result status).m.mem.wf = true := by
  generalize hu : s.endRestore p st result status = u
  unfold State.endRestore at hu
  dsimp only at hu
  (repeat' split at hu) <;> (subst hu; simp -implicitDefEqProofs +contextual (maxDischargeDepth := 20) [*])

@[simp] theorem State.commitStep_memWf (s : State) (p : ℕ) (pay : List Byte) (h : s.m.mem.wf = true) :
    (s.commitStep p pay).m.mem.wf = true := by
  simp -implicitDefEqProofs +contextual (maxDischargeDepth := 20) [h, State.commitStep]

@[simp] theorem State.giveUp_memWf (s : State) (p : ℕ) (h : s.m.mem.wf = true) : (s.giveUp p).m.mem.wf = true := by
  simp -implicitDefEqProofs +contextual (maxDischargeDepth := 20) [h, State.giveUp]

@[simp] theorem State.dropPart_memWf (s : State) (p : ℕ) (dst : ℕ) (h : s.m.mem.wf = true) :
    (s.dropPart p dst).m.mem.wf = true := by
  simp -implicitDefEqProofs +contextual (maxDischargeDepth := 20) [h, State.dropPart]

@[simp] theorem State.loseDevice_memWf (s : State) (p : ℕ) (dst : ℕ) (h : s.m.mem.wf = true) :
    (s.loseDevice p dst).m.mem.wf = true := by
  simp -implicitDefEqProofs +contextual (maxDischargeDepth := 20) [h, State.loseDevice]

@[simp] theorem State.clearSections_memWf (s : State) (mask : ℕ) (h : s.m.mem.wf = true) :
    (s.clearSections mask).m.mem.wf = true := by
  simp -implicitDefEqProofs +contextual (maxDischargeDepth := 20) [h, State.clearSections]

@[simp] theorem State.teardown_memWf (s : State) (p : ℕ) (h : s.m.mem.wf = true) :
    (s.teardown p).m.mem.wf = true := by
  simp -implicitDefEqProofs +contextual (maxDischargeDepth := 20) [h, State.teardown]

@[simp] theorem State.endDrain_memWf (s : State) (h : s.m.mem.wf = true) : (s.endDrain).m.mem.wf = true := by
  simp -implicitDefEqProofs +contextual (maxDischargeDepth := 20) [h, State.endDrain]

@[simp] theorem State.startDrain_memWf (s : State) (p : ℕ) (h : s.m.mem.wf = true) :
    (s.startDrain p).m.mem.wf = true := by
  generalize hu : s.startDrain p = u
  unfold State.startDrain at hu
  dsimp only at hu
  (repeat' split at hu) <;> (subst hu; simp -implicitDefEqProofs +contextual (maxDischargeDepth := 20) [*])

@[simp] theorem State.passOn_memWf (s : State) (p : ℕ) (src : ℕ) (h : s.m.mem.wf = true) :
    (s.passOn p src).m.mem.wf = true := by
  simp -implicitDefEqProofs +contextual (maxDischargeDepth := 20) [h, State.passOn]

@[simp] theorem State.refuseSnap_memWf (s : State) (p : ℕ) (src : ℕ) (part : ℕ) (h : s.m.mem.wf = true) :
    (s.refuseSnap p src part).m.mem.wf = true := by
  simp -implicitDefEqProofs +contextual (maxDischargeDepth := 20) [h, State.refuseSnap]

@[simp] theorem State.snapIn_memWf (s : State) (p : ℕ) (src : ℕ) (d : List Byte) (h : s.m.mem.wf = true) :
    (s.snapIn p src d).m.mem.wf = true := by
  generalize hu : s.snapIn p src d = u
  unfold State.snapIn at hu
  dsimp only at hu
  (repeat' split at hu) <;> (subst hu; simp -implicitDefEqProofs +contextual (maxDischargeDepth := 20) [*])

@[simp] theorem State.snapAck_memWf (s : State) (p : ℕ) (src : ℕ) (d : List Byte) (h : s.m.mem.wf = true) :
    (s.snapAck p src d).m.mem.wf = true := by
  generalize hu : s.snapAck p src d = u
  unfold State.snapAck at hu
  (repeat' split at hu) <;> (subst hu; simp -implicitDefEqProofs +contextual (maxDischargeDepth := 20) [*])

@[simp] theorem State.loadDense_memWf (s : State) (p : ℕ) (slot : ℕ) (d : List Byte) (h : s.m.mem.wf = true) :
    (s.loadDense p slot d).m.mem.wf = true := by
  simp -implicitDefEqProofs +contextual (maxDischargeDepth := 20) [h, State.loadDense]

@[simp] theorem State.loadRecords_memWf (s : State) (a : List (List ℕ)) (a1 : List Byte) (h : s.m.mem.wf = true) :
    (s.loadRecords a a1).m.mem.wf = true := by
  fun_induction s.loadRecords a a1 <;> simp_all -implicitDefEqProofs (maxDischargeDepth := 8)

@[simp] theorem State.loadTables_memWf (s : State) (p : ℕ) (a : List (List Byte)) (a1 : List Byte) (h : s.m.mem.wf
    = true) : (s.loadTables p a a1).m.mem.wf = true := by
  induction a generalizing s a1 with
  | nil => simpa [State.loadTables] using h
  | cons d r ih =>
    unfold State.loadTables
    dsimp only
    apply ih
    simp only [State.modJob_frame]
    apply State.hubWrite_memWf
    simp [h]

@[simp] theorem State.loadJob_memWf (s : State) (p : ℕ) (b : List Byte) (h : s.m.mem.wf = true) :
    (s.loadJob p b).m.mem.wf = true := by
  simp -implicitDefEqProofs +contextual (maxDischargeDepth := 20) [h, State.loadJob]

@[simp] theorem State.regather_memWf (s : State) (p : ℕ) (h : s.m.mem.wf = true) :
    (s.regather p).m.mem.wf = true := by
  simp -implicitDefEqProofs +contextual (maxDischargeDepth := 20) [h, State.regather]

@[simp] theorem State.restoreOn_memWf (s : State) (p : ℕ) (h : s.m.mem.wf = true) :
    (s.restoreOn p).m.mem.wf = true := by
  generalize hu : s.restoreOn p = u
  unfold State.restoreOn at hu
  dsimp only at hu
  (repeat' split at hu) <;> (subst hu; simp -implicitDefEqProofs +contextual (maxDischargeDepth := 20) [*])

@[simp] theorem State.remap_memWf (s : State) (p : ℕ) (map : List ℕ) (h : s.m.mem.wf = true) :
    (s.remap p map).m.mem.wf = true := by
  unfold State.remap
  simp [h]

@[simp] theorem State.rowIn_memWf (s : State) (p : ℕ) (src : ℕ) (d : List Byte) (h : s.m.mem.wf = true) :
    (s.rowIn p src d).m.mem.wf = true := by
  generalize hu : s.rowIn p src d = u
  unfold State.rowIn at hu
  dsimp only at hu
  (repeat' split at hu) <;> (subst hu; simp -implicitDefEqProofs +contextual (maxDischargeDepth := 20) [*])

@[simp] theorem State.writeTask_memWf (s : State) (core : ℕ) (v : ℕ) (h : s.m.mem.wf = true) :
    (s.writeTask core v).m.mem.wf = true := by
  simp -implicitDefEqProofs +contextual (maxDischargeDepth := 20) [h, State.writeTask]

@[simp] theorem State.writeAt_memWf (s : State) (a : ℕ) (size : ℕ) (v : ℕ) (h : s.m.mem.wf = true) :
    (s.writeAt a size v).m.mem.wf = true := by
  generalize hu : s.writeAt a size v = u
  unfold State.writeAt at hu
  (repeat' split at hu) <;> (subst hu; simp -implicitDefEqProofs +contextual (maxDischargeDepth := 20) [*])

@[simp] theorem State.writeBar_memWf (s : State) (q : Requester) (offset : ℕ) (size : ℕ) (value : Word) (h :
    s.m.mem.wf = true) : (s.writeBar q offset size value).m.mem.wf = true := by
  generalize hu : s.writeBar q offset size value = u
  unfold State.writeBar at hu
  dsimp only at hu
  (repeat' split at hu) <;> (subst hu; simp -implicitDefEqProofs +contextual (maxDischargeDepth := 20) [*])

@[simp] theorem State.zeroStacks_memWf (s : State) (mask : ℕ) (h : s.m.mem.wf = true) :
    (s.zeroStacks mask).m.mem.wf = true := by
  simp -implicitDefEqProofs +contextual (maxDischargeDepth := 20) [h, State.zeroStacks]

@[simp] theorem State.create_memWf (s : State) (p : ℕ) (mask : ℕ) (opvis : Bool) (h : s.m.mem.wf = true) :
    (s.create p mask opvis).m.mem.wf = true := by
  simp -implicitDefEqProofs +contextual (maxDischargeDepth := 20) [h, State.create]

@[simp] theorem State.quoteNow_memWf (s : State) (x : Started) (p : ℕ) (h : s.m.mem.wf = true) :
    (s.quoteNow x p).m.mem.wf = true := by
  generalize hu : s.quoteNow x p = u
  unfold State.quoteNow at hu
  dsimp only at hu
  (repeat' split at hu) <;> (subst hu; simp -implicitDefEqProofs +contextual (maxDischargeDepth := 20) [*])

@[simp] theorem State.serveSig_memWf (s : State) (r : SigReq) (h : s.m.mem.wf = true) :
    (s.serveSig r).m.mem.wf = true := by
  generalize hu : s.serveSig r = u
  unfold State.serveSig at hu
  (repeat' split at hu) <;> (subst hu; simp -implicitDefEqProofs +contextual (maxDischargeDepth := 20) [*])

@[simp] theorem State.debugHalt_memWf (s : State) (core : ℕ) (h : s.m.mem.wf = true) :
    (s.debugHalt core).m.mem.wf = true := by
  simp -implicitDefEqProofs +contextual (maxDischargeDepth := 20) [h, State.debugHalt]

@[simp] theorem State.serveWaits_memWf (s : State) (core : ℕ) (h : s.m.mem.wf = true) :
    (s.serveWaits core).m.mem.wf = true := by
  simp -implicitDefEqProofs +contextual (maxDischargeDepth := 20) [h, State.serveWaits]

@[simp] theorem State.debugResume_memWf (s : State) (core : ℕ) (h : s.m.mem.wf = true) :
    (s.debugResume core).m.mem.wf = true := by
  simp -implicitDefEqProofs +contextual (maxDischargeDepth := 20) [h, State.debugResume]

@[simp] theorem State.putUnit_memWf (s : State) (k : ℕ) (b : List Byte) (h : s.m.mem.wf = true) :
    (s.putUnit k b).m.mem.wf = true := by
  simp -implicitDefEqProofs +contextual (maxDischargeDepth := 20) [h, State.putUnit]

@[simp] theorem State.hostUnit_memWf (s : State) (p : ℕ) (a : ℕ) (k : ℕ) (b : List Byte) (h : s.m.mem.wf = true) :
    (s.hostUnit p a k b).m.mem.wf = true := by
  simp -implicitDefEqProofs +contextual (maxDischargeDepth := 20) [h, State.hostUnit]

@[simp] theorem memWriteUnit_memWf (c : HostCmd) (p : ℕ) (a : ℕ) (k : ℕ) (s : State) (h : s.m.mem.wf = true) :
    (memWriteUnit c p a k s).2.m.mem.wf = true := by
  simp -implicitDefEqProofs +contextual (maxDischargeDepth := 20) [h, memWriteUnit]

@[simp] theorem memReadUnit_memWf (c : HostCmd) (a : ℕ) (k : ℕ) (s : State) (h : s.m.mem.wf = true) :
    (memReadUnit c a k s).2.m.mem.wf = true := by
  unfold memReadUnit
  split <;> rename_i heq <;> simp only [Prod.ext_iff] at heq <;> obtain ⟨-, rfl⟩ := heq <;> simp [h]

@[simp] theorem memFillUnit_memWf (c : HostCmd) (p : ℕ) (a : ℕ) (k : ℕ) (s : State) (h : s.m.mem.wf = true) :
    (memFillUnit c p a k s).2.m.mem.wf = true := by
  simp -implicitDefEqProofs +contextual (maxDischargeDepth := 20) [h, memFillUnit]

@[simp] theorem State.loaded_memWf (s : State) (p : ℕ) (model : List Byte) (h : s.m.mem.wf = true) :
    (s.loaded p model).m.mem.wf = true := by
  generalize hu : s.loaded p model = u
  unfold State.loaded at hu
  dsimp only at hu
  (repeat' split at hu) <;> (subst hu; simp -implicitDefEqProofs +contextual (maxDischargeDepth := 20) [*])

@[simp] theorem State.stopJob_memWf (s : State) (p : ℕ) (h : s.m.mem.wf = true) : (s.stopJob p).m.mem.wf = true := by
  simp -implicitDefEqProofs +contextual (maxDischargeDepth := 20) [h, State.stopJob]

@[simp] theorem State.hostWrite_memWf (s : State) (p : ℕ) (va : ℕ) (data : List Byte) (h : s.m.mem.wf = true) :
    (s.hostWrite p va data).m.mem.wf = true := by
  generalize hu : s.hostWrite p va data = u
  unfold State.hostWrite at hu
  (repeat' split at hu) <;> (subst hu; simp -implicitDefEqProofs +contextual (maxDischargeDepth := 20) [*])

@[simp] theorem State.endDump_memWf (s : State) (trunc : Option ℕ) (h : s.m.mem.wf = true) :
    (s.endDump trunc).m.mem.wf = true := by
  simp -implicitDefEqProofs +contextual (maxDischargeDepth := 20) [h, State.endDump]

@[simp] theorem State.wipe_memWf (s : State) (dump : Bool) (h : s.m.mem.wf = true) :
    (s.wipe dump).m.mem.wf = true := by
  simp -implicitDefEqProofs +contextual (maxDischargeDepth := 20) [h, State.wipe]

@[simp] theorem State.resetCause_memWf (s : State) (cause : ℕ) (dump : Bool) (h : s.m.mem.wf = true) :
    (s.resetCause cause dump).m.mem.wf = true := by
  simp -implicitDefEqProofs +contextual (maxDischargeDepth := 20) [h, State.resetCause]

@[simp] theorem State.enterOff_memWf (s : State) (h : s.m.mem.wf = true) : (s.enterOff).m.mem.wf = true := by
  simp -implicitDefEqProofs +contextual (maxDischargeDepth := 20) [h, State.enterOff]

@[simp] theorem State.aonReset_memWf (s : State) (h : s.m.mem.wf = true) : (s.aonReset).m.mem.wf = true := by
  simp -implicitDefEqProofs +contextual (maxDischargeDepth := 20) [h, State.aonReset]

@[simp] theorem State.tickDump_memWf (s : State) (h : s.m.mem.wf = true) : (s.tickDump).m.mem.wf = true := by
  simp -implicitDefEqProofs +contextual (maxDischargeDepth := 20) [h, State.tickDump]

@[simp] theorem State.tickOff_memWf (s : State) (h : s.m.mem.wf = true) : (s.tickOff).m.mem.wf = true := by
  simp -implicitDefEqProofs +contextual (maxDischargeDepth := 20) [h, State.tickOff]

@[simp] theorem State.tick_memWf (s : State) (h : s.m.mem.wf = true) : (s.tick).m.mem.wf = true := by
  simp -implicitDefEqProofs +contextual (maxDischargeDepth := 20) [h, State.tick]

@[simp] theorem State.restoreJournal_memWf (s : State) (p : ℕ) (h : s.m.mem.wf = true) :
    (s.restoreJournal p).m.mem.wf = true := by
  unfold State.restoreJournal
  dsimp only
  generalize (_ : List JEnt) ++ _ = l
  exact foldl_memWf _ _ _ h (fun s e hs => State.writeKeys'_memWf s _ _ hs)

/-- The counter's write and the sample behind it, for any bytes and places. -/
theorem State.sampled_memWf (s : State) (st t row rows : Nat) (K : List Nat) (f : List Nat → List Byte)
    (h : s.m.mem.wf = true) :
    (let ks := K
     let s := (s.writeNow (ks.zip (f ks))).2
     let n := Tab.get s.b.loadN 0 (64 * st + t) + 1
     State.sampleLoad { s with b := { s.b with loadN := Tab.put s.b.loadN 0 (64 * st + t) n } } st t row rows
         n).m.mem.wf
      = true := by
  have hw := State.writeNow_memWf s (K.zip (f K)) h
  dsimp only
  apply State.sampleLoad_memWf
  exact hw

@[simp] theorem State.countLoad_memWf (s : State) (st : ℕ) (t : ℕ) (row : ℕ) (rows : ℕ) (h : s.m.mem.wf = true) :
    (s.countLoad st t row rows).m.mem.wf = true := by
  unfold State.countLoad
  split
  · exact State.sampled_memWf s st t row rows (s.loadKeys st t row)
      (fun ks => leBytes 4 (satAdd 32 (leNat (ks.map s.m.mem.rd)) 1)) h
  · exact h

@[simp] theorem State.readRow_memWf (s : State) (st : ℕ) (t : ℕ) (sl : Slot) (row : ℕ) (off : ℕ) (len : ℕ) (h :
    s.m.mem.wf = true) : (s.readRow st t sl row off len).2.m.mem.wf = true := by
  generalize hu : s.readRow st t sl row off len = u
  unfold State.readRow at hu
  dsimp only at hu
  (repeat' split at hu) <;> (subst hu; simp -implicitDefEqProofs +contextual (maxDischargeDepth := 20) [*])

@[simp] theorem State.readRows_memWf (s : State) (x : BCmd) (sl : Slot) (a : List (ℕ × ℕ)) (h : s.m.mem.wf = true)
    : (s.readRows x sl a).2.m.mem.wf = true := by
  fun_induction s.readRows x sl a <;> (try simp only [Prod.ext_iff] at *) <;> (try casesm* _ ∧
      _) <;> subst_vars <;> simp_all -implicitDefEqProofs

@[simp] theorem State.runRead_memWf (s : State) (x : BCmd) (sl : Slot) (p : BPay) (h : s.m.mem.wf = true) :
    (s.runRead x sl p).m.mem.wf = true := by
  generalize hu : s.runRead x sl p = u
  unfold State.runRead at hu
  dsimp only at hu
  (repeat' split at hu) <;>
    (subst hu
     (try simp only [Prod.ext_iff] at *)
     (try casesm* _ ∧ _)
     subst_vars
     simp -implicitDefEqProofs +contextual (maxDischargeDepth := 20) [*])

@[simp] theorem State.scatterRows_memWf (s : State) (x : BCmd) (sl : Slot) (p : BPay) (seed : ℕ) (a : List (ℕ × ℕ))
    (h : s.m.mem.wf = true) : (s.scatterRows x sl p seed a).2.m.mem.wf = true := by
  fun_induction s.scatterRows x sl p seed a <;> (try simp only [Prod.ext_iff] at *) <;> (try casesm* _ ∧
      _) <;> subst_vars <;> simp_all -implicitDefEqProofs

@[simp] theorem State.runScatter_memWf (s : State) (x : BCmd) (sl : Slot) (p : BPay) (h : s.m.mem.wf = true) :
    (s.runScatter x sl p).m.mem.wf = true := by
  have hw := State.scatterRows_memWf s x sl p (s.fld (SB_JOB_SEED_SEED x.stack sl.part)) ((List.range
      p.idx.length).zip p.idx) h
  unfold State.runScatter
  split <;> rename_i heq <;> rw [heq] at hw <;> simpa using hw

@[simp] theorem State.applyParts_memWf (s : State) (x : BCmd) (sl : Slot) (p : ℕ) (at_ : ℕ) (ws : List ℕ) (pay :
    BPay) (a : List RowPart) (h : s.m.mem.wf = true) : (s.applyParts x sl p at_ ws pay a).2.m.mem.wf = true := by
  induction a generalizing s at_ with
  | nil => simpa [State.applyParts] using h
  | cons r rest ih =>
    unfold State.applyParts
    have h1 := State.readRow_memWf s x.stack x.hdr.table sl r.row 0 sl.recBytes h
    rcases ht : s.readRow x.stack x.hdr.table sl r.row 0 sl.recBytes with ⟨_ | d, u⟩ <;> rw [ht] at h1 <;> dsimp only at h1 ⊢
    · exact h1
    · have g := State.journalPart_memWf u x sl p at_ r.row d h1
      rcases hj : u.journalPart x sl p at_ r.row d with ⟨_ | _, v⟩ <;> rw [hj] at g <;> dsimp only at g ⊢
      · exact g
      · have k := ih (v.applyPart x sl p ws pay r d).2 (at_ + sl.jnlLen) (State.applyPart_memWf v x sl p ws pay r d g)
        generalize (v.applyPart x sl p ws pay r d).2.applyParts x sl p (at_ + sl.jnlLen) ws pay rest = q at k ⊢
        rcases q with ⟨_ | fl, w⟩ <;> exact k

@[simp] theorem State.runUpdate_memWf (s : State) (x : BCmd) (sl : Slot) (pay : BPay) (h : s.m.mem.wf = true) :
    (s.runUpdate x sl pay).m.mem.wf = true := by
  generalize hu : s.runUpdate x sl pay = u
  unfold State.runUpdate at hu
  dsimp only at hu
  (repeat' split at hu) <;>
    (subst hu
     (try simp only [Prod.ext_iff] at *)
     (try casesm* _ ∧ _)
     subst_vars
     simp -implicitDefEqProofs +contextual (maxDischargeDepth := 20) [*])

@[simp] theorem State.lookUpdate_memWf (s : State) (x : BCmd) (sl : Slot) (p : BPay) (h : s.m.mem.wf = true) :
    (s.lookUpdate x sl p).m.mem.wf = true := by
  generalize hu : s.lookUpdate x sl p = u
  unfold State.lookUpdate at hu
  (repeat' split at hu) <;> (subst hu; simp -implicitDefEqProofs +contextual (maxDischargeDepth := 20) [*])

@[simp] theorem State.undoStep_memWf (s : State) (p : ℕ) (h : s.m.mem.wf = true) :
    (s.undoStep p).m.mem.wf = true := by
  simp -implicitDefEqProofs +contextual (maxDischargeDepth := 20) [h, State.undoStep]

@[simp] theorem State.failReplay_memWf (s : State) (p : ℕ) (c : ℕ) (result : ℕ) (h : s.m.mem.wf = true) :
    (s.failReplay p c result).m.mem.wf = true := by
  simp -implicitDefEqProofs +contextual (maxDischargeDepth := 20) [h, State.failReplay]

@[simp] theorem State.loadSlot_memWf (s : State) (p slot : ℕ) (hd body : List Byte) (h : s.m.mem.wf = true) :
    (s.loadSlot p slot hd body).m.mem.wf = true := by
  unfold State.loadSlot
  simp [h]

@[simp] theorem State.loadAll_memWf (s : State) (p : ℕ) (step : ℕ) (l : List (ℕ × List Byte × List Byte)) (job :
    List Byte) (late : Option (List ℕ)) (h : s.m.mem.wf = true) : (s.loadAll p step l job late).m.mem.wf = true := by
  unfold State.loadAll
  dsimp only
  simp only [State.modJob_frame, State.setFld_frame]
  exact foldl_memWf _ _ _ (by simp [h]) (fun s e hs => by simp [hs])

@[simp] theorem State.absorbPart_memWf (s : State) (p : ℕ) (b : List Byte) (h : s.m.mem.wf = true) :
    (s.absorbPart p b).m.mem.wf = true := by
  unfold State.absorbPart
  dsimp only
  (repeat' split) <;> simp [h]

@[simp] theorem State.handOver_memWf (s : State) (p : ℕ) (dev : ℕ) (h : s.m.mem.wf = true) :
    (s.handOver p dev).m.mem.wf = true := by
  unfold State.handOver
  refine foldl_memWf _ _ _ h (fun s x hs => ?_)
  dsimp only
  (repeat' split) <;> simp [hs]

@[simp] theorem State.absorbAll_memWf (s : State) (p : ℕ) (lost : List ℕ) (h : s.m.mem.wf = true) :
    (s.absorbAll p lost).m.mem.wf = true := by
  unfold State.absorbAll
  refine foldl_memWf _ _ _ h (fun s x hs => ?_)
  split
  · exact State.absorbPart_memWf s p _ hs
  · exact hs

theorem State.loadItem_memWf {s u : State} {p : ℕ} {it : List Byte} (h : s.m.mem.wf = true)
    (e : s.loadItem p it = .ok u) : u.m.mem.wf = true := by
  unfold State.loadItem at e
  dsimp only at e
  (repeat' split at e) <;> (cases e; try simp [h])

@[simp] theorem State.loadItems_memWf (s : State) (p : ℕ) (a : List (List Byte)) (h : s.m.mem.wf = true) :
    (s.loadItems p a).2.m.mem.wf = true := by
  induction a generalizing s with
  | nil => simpa [State.loadItems] using h
  | cons it r ih =>
    unfold State.loadItems
    dsimp only
    split
    · simpa using h
    · rename_i e
      exact ih _ (State.loadItem_memWf (by simp [h]) e)

end Sys2Proof.Machine
end

