-- ==== Sys2Proof/Tests/Slice0.lean ====
section
/-! SUPPORT. Tests: which commands are refused as ill-formed, witnesses that the hypotheses of each statement can be met,
and values from the spec. -/

namespace Sys2Proof.Machine

set_option Elab.async false

/-! ### Well-formed commands -/

/-- A matrix core has no thread 1. -/
theorem test_wf_thread : (Instr.nop 0 1 ⟨0, 0, 0, 0, 0, 0, 0, 0⟩).wellFormed = false := by decide +kernel
theorem test_wf_thread_ok : (Instr.nop 2 1 ⟨0, 0, 0, 0, 0, 0, 0, 0⟩).wellFormed = true := by decide +kernel
/-- A frame of 20 bytes whose LEN is 1. -/
theorem test_wf_frame : (Instr.idleFrame 0 ([0, 0, 0, 0, 0x10] ++ List.replicate 15 0)).wellFormed = false := by decide +kernel
theorem test_wf_frame_short : (Instr.idleFrame 0 (List.replicate 19 0)).wellFormed = false := by decide +kernel
theorem test_wf_frame_ok : (Instr.idleFrame 0 (List.replicate 20 0)).wellFormed = true := by decide +kernel
theorem test_wf_via : (Instr.vote (.lambda 0 [])).wellFormed = false := by decide +kernel
theorem test_wf_via_own : (Instr.vote .own).wellFormed = true := by decide +kernel

/-! ### States with a running task -/

/-- A device whose compute dies are powered. -/
def up : State := { State.reset with pm := { PmSt.reset with dies := true } }
/-- Core 2, a traversal core of cluster 0, runs a task of one thread; core 0 is its first matrix core. -/
def tS : State := (up.setTaskState 2 tkRunning).setStat 2 0 .running
def tM : State := (up.setTaskState 0 tkRunning).setStat 0 0 .running
def f0 : Fields := ⟨0, 0, 0, 0, 0, 0, 0, 0⟩
/-- The fields with another destination, type, MOD or IMM. -/
def fD (d : BitVec 6) : Fields := { f0 with dst := d }
def fT (ty : BitVec 4) : Fields := { f0 with type := ty }
def fI (imm : BitVec 16) : Fields := { f0 with imm := imm }

/-! ### Witnesses: queue and invariants -/

/-- In every kind of time: at reset release, at the end of a second and of a millisecond, in Moor. -/
theorem wit_IdleStep : State.reset.pending = [] ∧ up.dumping = false ∧ up.pm.offAt = none ∧ up.pm.smbOff = false
    ∧ up.pm.pwrGood = true ∧ up.pm.aon = true ∧ up.pm.moor = false ∧ up.pm.aonUs + 1 ≠ 1000000 ∧ up.pm.released = true
    ∧ up.dieUp = true ∧ up.clockRuns 0 = true ∧ State.reset.dieUp = false
    ∧ (let s : State := { up with timeUs := 999, pm := { up.pm with aonUs := 999999 } }
       s.pending = [] ∧ s.dumping = false ∧ s.pm.aonUs + 1 = 1000000 ∧ (s.timeUs + 1) % 1000 = 0)
    ∧ (let s : State := { up with pm := { up.pm with moor := true } }
       s.pending = [] ∧ s.dumping = false ∧ s.pm.moor = true ∧ s.pm.offAt = none) := by decide +kernel
theorem wit_StepShortensQueue : ∃ t, step State.reset = .next t := ⟨_, rfl⟩
theorem wit_StepKeepsMemory : State.reset.m.mem.wf = true ∧ ∃ t, step State.reset = .next t := ⟨by decide, _, rfl⟩
theorem wit_WellFormedNeverStops : (Instr.vote .own).wellFormed = true ∧ State.reset.pending.head?.all Instr.wellFormed = true := by
  decide +kernel

/-! ### Witnesses: class 0 -/

theorem wit_ScalarAlu : Runs tS 2 0 f0 (usesAlu f0) false := by unfold Runs Issues WordOk; decide +kernel
theorem wit_ScalarMoves : Runs tS 2 0 f0 {} false ∧ Runs tS 2 0 f0 { dst := some .s, imm := 65535 } false := by
  unfold Runs Issues WordOk; decide +kernel
theorem wit_LipCsrr : Runs tS 2 0 f0 { dst := some .s, mod := 6, imm := 65535 } false
    ∧ Runs tS 2 0 (fI 7) { dst := some .s, imm := 65535 } (decide (7 < (fI 7).imm.toNat)) := by
  unfold Runs Issues WordOk; decide +kernel
theorem wit_Masks : Runs tS 2 0 (fD 1) { dst := some .m, a := some .m, b := some .m } false
    ∧ Runs tS 2 0 (fD 1) { dst := some .m, a := some .m } false
    ∧ Runs tS 2 0 f0 { dst := some .s, a := some .m, ty := true } false
    ∧ Runs tS 2 0 { fI 7 with dst := 15 } { dst := some .m, a := some .s, imm := 7 } false
    ∧ Runs tS 2 0 (fI 7) { dst := some .s, a := some .m, imm := 7 } false := by
  unfold Runs Issues WordOk; decide +kernel
theorem wit_Branches : Runs tS 2 0 f0 { a := some .s, b := some .s, imm := 65535 } false
    ∧ Runs tS 2 0 f0 { dst := some .s, a := some .s, imm := 65535 } false
    ∧ Runs tS 2 0 f0 { dst := some .s, a := some .s } false ∧ 0 ≤ target tS 2 0 f0 ∧ target tS 2 0 f0 ≤ 8191 := by
  unfold Runs Issues WordOk; decide +kernel
theorem wit_ScalarFrame : ∀ e ∈ scalarWriters, Runs tS 2 0 f0 (e.2.1 f0) (e.2.2 f0) := by
  unfold Runs Issues WordOk; decide +kernel

/-! ### Witnesses: class 1 -/

/-- Each element operation runs on FP32 or on INT8 elements. -/
theorem wit_VectorElements : ∀ e ∈ elementTable, Runs tS 2 0 (fT 0) (usesV e.2.1) (!e.2.2.1 (typeOf (fT 0)))
    ∨ Runs tS 2 0 (fT 8) (usesV e.2.1) (!e.2.2.1 (typeOf (fT 8))) := by
  unfold Runs Issues WordOk; decide +kernel
theorem wit_VectorMoves : Runs tS 2 0 f0 (usesV 1) false ∧ Runs tS 2 0 (fT 8) (usesV 0) (!(typeOf (fT 8)).inI)
    ∧ Runs tS 2 0 f0 { usesV 2 with c := some .m } false ∧ Runs tS 2 0 (fT 12) (usesV 2) (typeOf (fT 12) != .uint32)
    ∧ Runs tS 2 0 (fT 9) (usesV 2) (typeOf (fT 9) != .uint8) := by
  unfold Runs Issues WordOk; decide +kernel
theorem wit_Vshuf : (∀ i : Fin 4, Runs tS 2 0 (fI i.val) { usesV 2 with imm := 65535 } false)
    ∧ Runs tS 2 0 (fI 4) { usesV 1 with imm := 65535 } false ∧ Runs tS 2 0 (fI 0xFFF5) { usesV 1 with imm := 65535 } false := by
  unfold Runs Issues WordOk; decide +kernel
theorem wit_VectorCompares : ∀ e ∈ compareTable,
    Runs tS 2 0 (fD 1) { usesV e.2.1 with dst := some .m } (!e.2.2.1 (typeOf (fD 1))) := by
  unfold Runs Issues WordOk; decide +kernel
/-- INT32 (code 11) packed to INT16 (code 10) and back. -/
theorem wit_Packs : immTy { fT 10 with imm := 11 } = some .int32
    ∧ Runs tS 2 0 { fT 10 with imm := 11 } { usesV 2 with mod := 1, imm := 15 }
      (!packPair .int32 (typeOf { fT 10 with imm := 11 }) || (typeOf { fT 10 with imm := 11 } == .e2m1 && modBit { fT 10 with imm := 11 } 16))
    ∧ immTy { fT 11 with imm := 10 } = some .int16
    ∧ Runs tS 2 0 { fT 11 with imm := 10 } { usesV 1 with mod := 1, imm := 15 }
      (!packPair (typeOf { fT 11 with imm := 10 }) .int16) := by
  unfold Runs Issues WordOk; decide +kernel
/-- What VCVT uses. -/
def usesCvt (f : Fields) (src : Ty) : Uses :=
  let sr := cvRnd f == 4
  { dst := some .v, a := some .v, b := (if sr then some .s else none), c := (if sr then some .s else none), mask := true,
    ty := true, mod := 15, imm := 0x3FFF, sv := (if cvAnyScaled f src (typeOf f) then some (cvReg f) else none) }
/-- FP32 to BF16, rounded to nearest. -/
theorem wit_Vcvt : immTy (fT 1) = some .fp32 ∧ Runs tS 2 0 (fT 1) (usesCvt (fT 1) .fp32) (cvBad (fT 1) (some .fp32) (typeOf (fT 1))) := by
  unfold Runs Issues WordOk; decide +kernel
/-- The same rounded stochastically, with its seeds in s1 and s2. -/
def fSr : Fields := { fT 1 with imm := 0x40, srcb := 1, srcc := 2 }
theorem wit_VcvtSr : immTy fSr = some .fp32 ∧ Runs tS 2 0 fSr (usesCvt fSr .fp32) (cvBad fSr (some .fp32) (typeOf fSr))
    ∧ ((cvRnd fSr == 4) = true → (tS.sreg 2 0 fSr.srcb.toNat).toNat < 2 ^ 32) := by
  unfold Runs Issues WordOk; decide +kernel
theorem wit_Reductions :
    let u (b : Option RFile) : Uses := { dst := some .v, a := some .v, b := b, mask := true, ty := true, mod := 1 }
    Runs tS 2 0 f0 (u none) (!(inWXI (typeOf f0))) ∧ Runs tS 2 0 f0 (u none) (!(inWX (typeOf f0)))
    ∧ Runs tS 2 0 f0 (u none) (!(typeOf f0).inW) ∧ Runs tS 2 0 f0 (u (some .s)) (!(inWI (typeOf f0)))
    ∧ Runs tS 2 0 f0 { dst := some .v, a := some .v, b := some .v, ty := true, mod := 1 } (typeOf f0 != .fp32) := by
  unfold Runs Issues WordOk; decide +kernel


/-! ### Witnesses: loads, stores, handles, barges -/

theorem wit_OwnLoad : spaceOf (fT 8) = 0 ∧ scalarMemTy (typeOf (fT 8)) = true
    ∧ Runs tS 2 0 (fT 8) usesLd false ∧ Runs tS 2 0 (fT 8) usesSt false ∧ (ownBytes 2 = 2 ^ 19) := by
  unfold Runs Issues WordOk; decide +kernel
/-- The last aligned word of own memory, and the offset after it. -/
theorem wit_OwnEdge :
    let s := tS.setS 2 0 1 (BitVec.ofNat 64 (2 ^ 19 - 4))
    let f : Fields := { fT 11 with srca := 1 }
    let a := (s.sreg 2 0 f.srca.toNat + f.imm.signExtend 64).toNat
    a % 4 = 0 ∧ a + 4 ≤ ownBytes 2 ∧ ownBytes 2 < a + 4 + 4 ∧ Runs s 2 0 f usesLd false ∧ Runs s 2 0 f usesSt false := by
  unfold Runs Issues WordOk; decide +kernel
/-- INT16 at offset 1 of each space. -/
theorem wit_Misaligned : ∀ mod ∈ [(0 : BitVec 4), 1, 2], let f : Fields := { fT 10 with imm := 1, mod := mod }
    scalarMemTy (typeOf f) = true ∧ spaceOf f ≠ 3 ∧ (tS.sreg 2 0 f.srca.toNat + f.imm.signExtend 64).toNat % 2 ≠ 0
    ∧ Runs tS 2 0 f usesLd false ∧ Runs tS 2 0 f usesSt false := by
  unfold Runs Issues WordOk; decide +kernel
/-- A load and a store of shared memory. -/
def fSh : Fields := { fT 8 with mod := 1 }
theorem wit_RemoteLoad : spaceOf fSh = 1 ∧ Runs tS 2 0 fSh usesLd false ∧ Runs tS 2 0 fSh usesSt false
    ∧ (∀ store : Bool, (match tS.scalarAccess 2 0 fSh store with
      | (.ok (key :: _), s') => s'.bankFree 2 (bankKey key)
      | _ => false) = true) := by
  unfold Runs Issues WordOk; decide +kernel
/-- The handle of a tile of core 2 in own memory: 256 rows of 256 UINT8 columns at offset 0. -/
def hTile : Word := BitVec.ofNat 64 (2 * 2 ^ 17 + 255 * 2 ^ 22 + 255 * 2 ^ 30 + 9 * 2 ^ 38)
theorem wit_TileHandles : thBad 2 hTile = false ∧ thBad 2 0 = true
    ∧ (tS.setS 2 0 1 hTile).sreg 2 0 1 = hTile
    ∧ Runs (tS.setS 2 0 1 hTile) 2 0 { f0 with srca := 1 } { dst := some .t, a := some .s } false
    ∧ Runs tS 2 0 f0 { dst := some .t, a := some .s } false ∧ Runs tS 2 0 f0 { dst := some .s, a := some .t } false := by
  unfold Runs Issues WordOk; decide +kernel
/-- A posted tile of matrix core 0, and the same tile taken by core 2. -/
def tilePosted : Tile := ⟨0, 1, .posted, 0, none, 0, 0, none, 0, 0, 0, 0, false, leBytes 8 hTile.toNat ++ List.replicate 24 0, 0⟩
def sPosted : State := { tS with mx := { tS.mx with tiles := [tilePosted] } }
def tileTaken : Tile := { tilePosted with st := .taken, taker := 2 }
def sTaken : State :=
  { (tS.setHandle 2 0 hTile) with mx := { tS.mx with tiles := [tileTaken], takenRegs := [64] } }
theorem wit_Vtake : Runs sPosted 2 0 f0 { dst := some .t, a := some .s, mod := 1, imm := 1 } false
    ∧ sPosted.posted (clusterOf 2 * 20 + f0.imm.toNat % 2) = some tilePosted
    ∧ tS.posted 0 = none ∧ Runs tS 2 0 { f0 with mod := 1 } { dst := some .t, a := some .s, mod := 1, imm := 1 } false
    ∧ modBit { f0 with mod := 1 } 16 = true ∧ modBit f0 16 = false
    ∧ Runs tS 2 0 f0 { dst := some .t, a := some .s, mod := 1, imm := 1 } false := by
  unfold Runs Issues WordOk; decide +kernel
theorem wit_Vrel : Runs sTaken 2 0 f0 { a := some .t } false
    ∧ sTaken.mx.tiles.find? (fun x => x.st == .taken && x.taker == 2 && x.bargeHandle == (sTaken.handle 2 0).toNat) = some tileTaken
    ∧ sTaken.mx.takenRegs.contains (32 * 2 + 0) = true := by
  unfold Runs Issues WordOk; decide +kernel
/-- Vector accesses of UINT8 elements. -/
theorem wit_OwnVector : spaceOf (fT 9) = 0 ∧ (typeOf (fT 9)).bits % 8 = 0
    ∧ Runs tS 2 0 (fT 9) { dst := some .v, a := some .s, mask := true, ty := true, mod := 3, imm := 65535 } false
    ∧ Runs tS 2 0 (fT 9) { dst := some .v, a := some .s, b := some .s, mask := true, ty := true, mod := 3 } false
    ∧ Runs tS 2 0 (fT 9) { a := some .s, b := some .v, mask := true, ty := true, mod := 3, imm := 65535 } false
    ∧ Runs tS 2 0 (fT 9) { a := some .s, b := some .v, c := some .s, mask := true, ty := true, mod := 3 } false := by
  unfold Runs Issues WordOk; decide +kernel
/-- Under m0 and with a stride of 1 every element of 256 lies within, and none overlaps another. -/
theorem wit_OwnVectorPlaces : ∀ i ∈ List.range 256, ((tS.setS 2 0 1 1).sreg 2 0 0 + BitVec.ofNat 64 i * (tS.setS 2 0 1 1).sreg 2 0 1).toNat + 1 ≤ ownBytes 2 := by
  decide +kernel
theorem wit_Vsts : firstOverlap 1 (fun i => (tS.sreg 2 0 0 + BitVec.ofNat 64 i * (1 : Word)).toNat) (List.range 8) = none := by
  decide +kernel
def sTile : State := tS.setHandle 2 0 hTile
theorem wit_TilePart : sTile.tilePartOk 2 (fT 9) = true ∧ thType (sTile.handle 2 0) = typeOf (fT 9)
    ∧ 0 * 256 < thPitch (sTile.handle 2 0) ∧ (sTile.sreg 2 0 0).toNat < thRows (sTile.handle 2 0)
    ∧ thOwner (sTile.handle 2 0) = subOf 2
    ∧ Runs sTile 2 0 (fT 9) { dst := some .v, a := some .t, b := some .s, mask := true, ty := true, imm := 7 } false
    ∧ Runs sTile 2 0 (fT 9) { a := some .t, b := some .v, c := some .s, mask := true, ty := true, imm := 7 } false := by
  unfold Runs Issues WordOk; decide +kernel

/-! ### Witnesses: streams -/

/-- A descriptor: KIND, UINT8 elements, DEPTH 4, one chunk of 256 elements at offset 0. -/
def dsc (kind : Nat) : List Byte :=
  leBytes 4 (kind + 9 * 16 + 4 * 2 ^ 16) ++ List.replicate 12 0 ++ leBytes 4 256 ++ leBytes 4 1 ++ leBytes 4 1 ++ leBytes 4 1
    ++ List.replicate 32 0
def opened (kind : Nat) : Stream := { Stream.closed with isOpen := true, desc := dsc kind, credits := 4 }
def sDsc (kind : Nat) : State := tS.wrB (keyOwn 2 0) (dsc kind)
theorem wit_Sopen :
    let st : Stream := { Stream.closed with isOpen := true, desc := (sDsc 2).rdB (keyOwn 2 0) 64 }
    Runs (sDsc 2) 2 0 f0 { dst := some .q, a := some .s } false ∧ ((sDsc 2).stream 2 0).isOpen = false
    ∧ Stream.bad { st with credits := st.depth } 2 = false ∧ (sDsc 2).reserved 2 + st.depth ≤ 256 := by
  unfold Runs Issues WordOk; decide +kernel
/-- Stream 0 open, of shared memory, its first chunk landed. -/
def sRead : State := tS.setStream 2 0 { opened 2 with requested := 1, credits := 3, landed := [⟨0, 5, [], []⟩] }
def sWrite : State := tS.setStream 2 0 (opened 3)
/-- The first chunk of the stream still on its way. -/
def sBusy : State := { sRead with m := { sRead.m with xfers := [newXfer 2 16 false [] (.chunk 0 1 [] [] [])] } }
theorem wit_Sclose : Runs sRead 2 0 f0 { a := some .q } false ∧ (sRead.stream 2 0).isOpen = true
    ∧ (sRead.stream 2 0).closing = false ∧ sRead.streamBusy 2 0 = false
    ∧ Runs sBusy 2 0 f0 { a := some .q } false ∧ (sBusy.stream 2 0).isOpen = true
    ∧ (sBusy.stream 2 0).closing = false ∧ sBusy.streamBusy 2 0 = true := by
  unfold Runs Issues WordOk; decide +kernel
theorem wit_Srd : Runs sRead 2 0 f0 { dst := some .v, a := some .q } false ∧ (sRead.stream 2 0).isRead = true
    ∧ (sRead.stream 2 0).scaled = false ∧ (sRead.stream 2 0).consumed < (sRead.stream 2 0).chunks
    ∧ (sRead.stream 2 0).landed.find? (fun x => x.n == (sRead.stream 2 0).consumed) = some ⟨0, 5, [], []⟩ := by
  unfold Runs Issues WordOk; decide +kernel
theorem wit_Swr : Runs sWrite 2 0 f0 { dst := some .q, a := some .v } false ∧ (sWrite.stream 2 0).isOpen = true
    ∧ (sWrite.stream 2 0).kind = 3 ∧ (sWrite.stream 2 0).written < (sWrite.stream 2 0).chunks
    ∧ (sWrite.stream 2 0).credits ≠ 0
    ∧ (match sWrite.writeKeys 2 (sWrite.stream 2 0) ((sWrite.stream 2 0).chunkEls 0) with
      | (.ok _, _) => true
      | _ => false) = true := by
  unfold Runs Issues WordOk; decide +kernel
def sFetch : State := tS.setStream 2 0 (opened 2)
theorem wit_StreamFetch : sFetch.taskRuns 2 = true ∧ (sFetch.stream 2 0).isOpen = true ∧ (sFetch.stream 2 0).closing = false
    ∧ (sFetch.stream 2 0).kind = 2 ∧ (sFetch.stream 2 0).scaled = false ∧ (sFetch.stream 2 0).credits ≠ 0
    ∧ (sFetch.stream 2 0).requested < (sFetch.stream 2 0).chunks
    ∧ (match sFetch.chunkKeys 2 (sFetch.stream 2 0) ((sFetch.stream 2 0).chunkEls 0) with
      | (_, _, fs, u) => u.lostWalk 2 (fs.map (fun e => ⟨e.code, 0, none, e.addr⟩)) = none)
    ∧ (match sFetch.rowsKeys 2 (sFetch.stream 2 0) ((sFetch.stream 2 0).rowParts ((sFetch.stream 2 0).chunkEls 0)) with
      | (_, _, fs, _, u) => u.lostWalk 2 (fs.map (fun e => ⟨e.code, 0, none, e.addr⟩)) = none) := by decide +kernel
/-- The task has been halted, with a started MXM that still takes rows of stream 0; no operation takes rows of it. -/
theorem wit_FetchOn : let s := (sFetch.setTaskState 2 tkHalted)
    let x : Mxm := ⟨5, 2, 0, 0, 0, 0, 0, 0, 256, .bf16, .bf16, .stream 0, .none, none, none, [], true, [], [], none, none, 0, false, []⟩
    s.taskRuns 2 = false ∧ s.chunkWanted 2 0 = false
    ∧ ({ s with mx := { s.mx with mxms := [x] } } : State).chunkWanted 2 0 = true := by decide +kernel
theorem wit_ChunkLand :
    sBusy.m.xfers.find? (fun (x : Xfer) => x.core == 2 && x.todo == 0 && match x.act with
      | .chunk q' _ _ _ _ => q' == 0
      | _ => false) = some (newXfer 2 16 false [] (.chunk 0 1 [] [] []))
    ∧ (sBusy.stream 2 0).isOpen = true ∧ (sBusy.stream 2 0).closing = false := by decide +kernel

/-! ### Witnesses: class 5, tokens, tasks -/

/-- A store of the thread still under way. -/
def sStore : State := { tS with m := { tS.m with xfers := [{ newXfer 2 0 true [] .store with todo := 1 }] } }
theorem wit_Tokens : Runs tS 2 0 f0 { a := some .s, b := some .s, imm := 255 } false ∧ tS.storesOut 2 0 = false
    ∧ Runs sStore 2 0 f0 { a := some .s, b := some .s, imm := 255 } false ∧ sStore.storesOut 2 0 = true
    ∧ Runs tS 2 0 f0 {} false ∧ Runs sStore 2 0 f0 {} false ∧ ¬ 2 ^ 13 ≤ (tS.sreg 2 0 0).toNat := by
  unfold Runs Issues WordOk; decide +kernel
/-- s1 with bit 13 set names no unit. -/
theorem wit_TokenBad : Runs (tS.setS 2 0 1 0x2000) 2 0 { f0 with srca := 1 } { a := some .s, b := some .s, imm := 255 } false
    ∧ 2 ^ 13 ≤ ((tS.setS 2 0 1 0x2000).sreg 2 0 1).toNat := by
  unfold Runs Issues WordOk; decide +kernel
/-- Channel 0 of core 2 open, with a limit of 7. -/
def sChan : State := match execTokenChannelOpen 2 0 0x1000007 up with
  | .next s => (s.setTaskState 2 tkRunning).setStat 2 0 .running
  | _ => up
theorem wit_Waitc : sChan.chOpen 2 0 = true ∧ sChan.counterQueue 2 0 = [] ∧ (sChan.sreg 2 0 0).toNat % 2 ^ 24 ≤ sChan.counter 2 0
    ∧ Runs sChan 2 0 f0 { dst := some .s, a := some .s, imm := 63 } false
    ∧ Runs sChan 2 0 f0 { a := some .s, imm := 63 } false
    ∧ Runs (sChan.setS 2 0 1 5) 2 0 { f0 with srca := 1 } { dst := some .s, a := some .s, imm := 63 } false
    ∧ (sChan.setS 2 0 1 5).counter 2 0 < ((sChan.setS 2 0 1 5).sreg 2 0 1).toNat % 2 ^ 24
    ∧ tS.chOpen 2 0 = false ∧ Runs tS 2 0 f0 { dst := some .s, a := some .s, imm := 63 } false
    ∧ Runs tS 2 0 f0 { a := some .s, imm := 63 } false := by
  unfold Runs Issues WordOk; decide +kernel
/-- A release of generation 3 has come: BWAIT for 0 goes on, for 5 it waits. -/
def sGen : State := (sChan.setFld (CL_TOK_CNT_GEN 0 2 0) 3).setFld (CL_TOK_CNT_GEN_VALID 0 2 0) 1
theorem wit_Bwait : sGen.chOpen 2 0 = true ∧ sGen.genDone 2 0 0 = true ∧ sGen.genDone 2 0 5 = false
    ∧ Runs sGen 2 0 f0 { a := some .s, imm := 63 } false := by
  unfold Runs Issues WordOk; decide +kernel
/-- Tokens to core 2 (node 0, unit 2), channel 0, from core 3. -/
def tok (kind v : Nat) : Word := mkTok kind 0 2 0 3 0 v
def sTok (kind v : Nat) : State := sChan.sendTok (tok kind v)
theorem wit_Arrive : ∀ kind ∈ [0, 1, 2, 3, 4, 5, 6, 7], (sTok kind 5).dieUp = true ∧ tokKind (tok kind 5) = kind
    ∧ tokBad (tok kind 5) = false ∧ (sTok kind 5).tokFirst (tok kind 5) = true ∧ tokCore (tok kind 5) = some 2
    ∧ (sTok kind 5).chOpen 2 (tokChannel (tok kind 5)) = true := by decide +kernel
theorem wit_Counted : (sTok 1 5).counter 2 0 + tokValue (tok 1 5) ≤ (sTok 1 5).fld (CL_TOK_LIMIT_LIMIT 0 2 0)
    ∧ (sTok 1 5).counterQueue 2 0 = [] ∧ (sTok 1 8).fld (CL_TOK_LIMIT_LIMIT 0 2 0) < (sTok 1 8).counter 2 0 + tokValue (tok 1 8) := by
  decide +kernel
/-- A counter that can hold no more: 2^24 − 1 and one. -/
theorem wit_CountedFull : let s := (sTok 1 1).setCounter 2 0 5
    5 + tokValue (tok 1 1) ≤ s.fld (CL_TOK_LIMIT_LIMIT 0 2 0) ∧ s.counter 2 0 + tokValue (tok 1 1) < 2 ^ 24 := by decide +kernel
/-- A barrier arrival for channel 64 of core 2, and a token of the hub with a node that is none. -/
theorem wit_TokenLost : (let t := mkTok 2 0 2 0 3 64 0
      let s := sChan.sendTok t
      s.dieUp = true ∧ tokKind t = 2 ∧ tokBad t = false ∧ s.tokFirst t = true ∧ tokCore t = some 2 ∧ 64 ≤ tokChannel t)
    ∧ tokChannel (tok 2 5) < 64
    ∧ (let t := mkTok 1 60 0 56 0 0 0
       sChan.dieUp = true ∧ tokBad t = true ∧ tokSrcNode t = 56 ∧ tokDoorbell t = false) := by decide +kernel
theorem wit_TokenOrder : let s := (sTok 1 5).sendTok (tok 1 6)
    tokBad (tok 1 6) = false ∧ s.e.toks.find? (fun k => bits k.toNat 34 26 == bits (tok 1 6).toNat 34 26) = some (tok 1 5)
    ∧ tok 1 5 ≠ tok 1 6 := by decide +kernel
/-- Another unit of the same node sends to another unit: the way is the same. -/
theorem wit_TokenWay : let s := (sTok 1 5).sendTok (mkTok 1 1 4 0 3 0 5)
    let t := mkTok 1 1 2 0 2 0 6
    tokBad t = false ∧ s.e.toks.find? (sameWay t) = some (mkTok 1 1 4 0 3 0 5) ∧ mkTok 1 1 4 0 3 0 5 ≠ t := by decide +kernel
/-- A signal and a credit for channel 5 of base engine 0 of a stack, whose channel has a limit that is free. -/
theorem wit_UnitTokens : (∀ kind ∈ [0, 1], let t := mkTok kind 40 0 0 3 5 7
      let s := sChan.sendTok t
      mayArrive s t kind ∧ tokCore t = none ∧ tokDoorbell t = false ∧ tokValue t = 7) := by
  unfold mayArrive; decide +kernel
theorem wit_UnitLimit (k : Nat) :
    Tab.get (Tab.put [] 0 k (Config.unitLimit k + 1)) 0 k = Config.unitLimit k + 1 ∧ Config.unitLimit k < Config.unitLimit k + 1 + 7 := by
  simp [Nat.lt_succ_of_le]
/-- A fault record of core 2 in the ring, and the notice of it on the way. -/
def sFaulted : State := raised tS 2 0 4 2 f0 fcHandle
theorem wit_Notice : sFaulted.e.notices.find? (fun n => n.1 == tokValue (mkTok 7 56 0 0 2 0 2) % 1024) = some (2, 0, fcHandle)
    ∧ tokKind (mkTok 7 56 0 0 2 0 2) = 7
    ∧ sFaulted.tokFirst (mkTok 7 56 0 0 2 0 2) = true ∧ tokBad (mkTok 7 56 0 0 2 0 2) = false ∧ sFaulted.dieUp = true := by
  decide +kernel
/-- The reply to a control read of core 3. -/
theorem wit_ControlRead : tokBad (mkTok 6 (tokSrcNode (tok 5 0)) (tokSrcSub (tok 5 0)) 0 0 0 0) = false := by decide +kernel
theorem wit_TaskStart : up.startable 2 = true ∧ up.windowBad 2 = false
    ∧ (let s : State := { up with core := { CoreSt.reset with window := [(2 * 256 + 3, 1)] } }
       s.startable 2 = true ∧ s.windowBad 2 = true) := by decide +kernel
theorem wit_End : Runs tS 2 0 f0 {} false ∧ tS.mx.tiles.any (fun x => x.mc == 2 && x.st == .opened) = false
    ∧ (∀ t' : Fin 16, t'.val < tS.threads 2 → t'.val ≠ 0 → tS.stat 2 t' = .ended)
    ∧ tS.m.xfers.any (fun (x : Xfer) => x.core == 2 && x.isStore) = false
    ∧ tS.mx.tiles.any (fun x => x.mc == 2 && x.st == .closed) = false ∧ tS.engineFaults 2 = [] := by
  unfold Runs Issues WordOk; decide +kernel
/-- An OPEN tile of the core: END raises HANDLE. -/
theorem wit_EndOpen : let s : State := { tM with mx := { tM.mx with tiles := [⟨0, 0, .opened, 0, none, 0, 0, none, 0, 0, 0, 0, false, [], 0⟩] } }
    Runs s 0 0 f0 {} false ∧ s.mx.tiles.any (fun x => x.mc == 0 && x.st == .opened) = true := by
  unfold Runs Issues WordOk; decide +kernel
/-- Two threads: the descriptor's THREADS is 1 (a power of two). -/
def sTwo : State :=
  ({ tS with core := { tS.core with task := [(2 * 256 + 2, 1)] } } : State).setStat 2 1 .running
theorem wit_EndOfOne : Runs sTwo 2 0 f0 {} false ∧ sTwo.mx.tiles.any (fun x => x.mc == 2 && x.st == .opened) = false
    ∧ ∃ t', t' < sTwo.threads 2 ∧ t' ≠ (0 : Fin 16).val ∧ sTwo.stat 2 t' ≠ .ended := by
  unfold Runs Issues WordOk; exact ⟨by decide +kernel, by decide +kernel, 1, by decide +kernel⟩
theorem wit_Halt : tS.taskRuns 2 = true ∧ tS.engineFaults 2 = [] ∧ up.taskRuns 2 = false := by decide +kernel
/-- A channel of a core whose task does not run, and of one whose task does. -/
theorem wit_ChannelOpen : up.dieUp = true ∧ up.taskRuns 2 = false ∧ tS.dieUp = true ∧ tS.taskRuns 2 = true := by
  decide +kernel
theorem wit_ZeroRegisters : (isMatrix 2 = true → (0 : Fin 16) = 0) ∧ tS.dieUp = true ∧ tS.threadReady 2 0 = true
    ∧ tS.turn 2 0 = true ∧ (∀ rs, tS.regsBusy 2 0 rs = false) ∧ (∀ va, tS.lostTable (clusterOf 2) va = none)
    ∧ { f0 with mask := 1 }.mask ≠ 0 ∧ f0.dst = 0 := by
  refine ⟨fun _ => rfl, by decide +kernel, by decide +kernel, by decide +kernel, fun _ => rfl, fun va => ?_, by decide, rfl⟩
  have h : tS.clusterPart (clusterOf 2) = none := by decide +kernel
  simp only [State.lostTable, h]
/-- A thread that has ended; and thread 0 where thread 1 of the core, which issued last, has not issued 64 in a row. -/
theorem wit_NotReady : (isMatrix 2 = true → (0 : Fin 16) = 0) ∧ up.threadReady 2 0 = false
    ∧ (let s : State := { sTwo with core := { sTwo.core with last := Tab.put sTwo.core.last (0, 0, 0) 2 (1, 5, 0) } }
       s.threadReady 2 0 = true ∧ s.turn 2 0 = false) := by decide +kernel
/-- A fault without a translation, and one whose translation met an uncorrectable codeword. -/
theorem wit_FaultStopsTask : tS.lostWalk 2 [whole fcIllegal] = none := by decide +kernel


/-! ### Witnesses: requests, arbiters, stacks -/

/-- One burst of stack 0 that core 2's thread reads into s1, queued at pseudo-channel 0 as requester 2. -/
def rq (stat : RStat) : Req :=
  { id := 0, xfer := 9, core := 2, stream := false, inst := 0, rqr := 2, key := 0, left := [0]
    data := (List.range 8).map (fun i => (i, 0)), write := false, bank := 1, row := 0, arrived := some 0, ready := 0, stat := stat
    land := .none, use := .core }
def xf : Xfer := { newXfer 2 0 false [(.s, 1)] (.ld 1 .int64 0) with id := 9, todo := 1 }
def sReq (stat : RStat) : State := { tS with m := { tS.m with reqs := [rq stat], xfers := [xf] } }
theorem wit_ArbiterIdle : up.dieUp = true ∧ up.m.commitP.contains 0 = false ∧ up.holdOf 0 = none
    ∧ up.m.reqs.any (fun (r : Req) => r.inst == 0 && r.stat == .queued) = false ∧ up.eligible 0 = [] := by
  decide +kernel
theorem wit_ArbiterWinner : let s := sReq .queued
    s.dieUp = true ∧ s.m.commitP.contains 0 = false ∧ s.holdOf 0 = none ∧ s.serveLines 0 = s ∧ s.eligible 0 = [2]
    ∧ s.pickWinner 0 (s.eligible 0) = some (2, 2) ∧ s.chosen 0 2 = some (rq .queued) ∧ (rq .queued).rqr = 2 := by decide +kernel
/-- A hold of requester 3 for a request that is gone. -/
theorem wit_ArbiterLostHold : let h : Hold := ⟨3, 1, 77, 0⟩
    let s : State := { sReq .queued with m := { (sReq .queued).m with holds := [(0, h)] } }
    s.serveLines 0 = s ∧ s.holdOf 0 = some h ∧ s.heldReq h = none ∧ h.rqr < 16 ∧ s.m.commitP.contains 0 = false := by decide +kernel
/-- The same requester overdue, and the owner of the round's slot. -/
theorem wit_ArbiterOverdue : ((sReq .queued).setAge 0 2 15).pickWinner 0 [2] = some (2, 1) ∧ ((sReq .queued).setAge 0 2 15).age 0 2 = 15 := by
  decide +kernel
theorem wit_ArbiterSlot : let s : State := { sReq .queued with m := { (sReq .queued).m with slots := [(0, 18)] } }
    s.pickWinner 0 (s.eligible 0) = some (2, 0) ∧ (∀ r ∈ s.eligible 0, s.age 0 r ≠ 15)
    ∧ 16 ≤ Tab.get s.m.slots 0 0 ∧ Tab.get s.m.slots 0 0 % 16 ∈ s.eligible 0 := by decide +kernel
/-- The reply crosses; one whose data is not out yet does not. -/
theorem wit_BerthReturn : (let s := sReq .granted
      s.m.reqs.find? (fun (r : Req) => r.id == 0 && r.core == 2 && r.stat == .granted && r.bank != 0) = some (rq .granted)
      ∧ s.m.reqs.find? (fun (r : Req) => r.id == 0) = some (rq .granted) ∧ s.crosses (rq .granted) = true
      ∧ s.rowTarget 0 = none ∧ s.m.xfers.find? (fun (x : Xfer) => x.id == 9) = some xf ∧ xf.core = 2 ∧ xf.thread < 16
      ∧ xf.todo = 1 ∧ xf.act = .ld 1 .int64 0 ∧ xf.late = [] ∧ (rq .granted).land = .none ∧ (rq .granted).write = false)
    ∧ (let r : Req := { rq .granted with ready := 2 ^ 30 }
       let s : State := { sReq .granted with m := { (sReq .granted).m with reqs := [r] } }
       s.crosses r = false ∧ s.rowTarget 0 = none) := by decide +kernel
/-- The same request as a row for stream 0 of matrix core 0. -/
theorem wit_BerthRow : let s : State := { sReq .granted with m := { (sReq .granted).m with
      xfers := [{ newXfer 2 0 false [] (.feedRow 9 0 0 0 0 []) with id := 9, todo := 1 }] } }
    s.rowTarget 0 = some 0 ∧ s.crosses (rq .granted) = true := by decide +kernel
theorem wit_RowClose : let s := (up.setBank (bankNo 0 0 0) ⟨some 5, 1, 0, 0⟩).advance 0 100
    (s.bank (bankNo 0 0 0)).row.isSome = true ∧ (s.bank (bankNo 0 0 0)).used + 64 ≤ s.cyc 0 := by decide +kernel
theorem wit_BankRefresh : (up.advance 0 8000).refreshDue 0 (bankNo 0 0 0) = true
    ∧ up.refreshDue 0 (bankNo 0 0 0) = false := by decide +kernel
/-- The first codeword of a stack is the one that the patrol reads next, the second is not. -/
theorem wit_PatrolScrub : (0 : BitVec 36).toNat < up.stackBytes ∧ up.asksOwn 0 false = false
    ∧ up.patrolAt 0 0 = true ∧ up.patrolAt 0 1 = false
    ∧ popCount (up.symbols (burstOf (keyStack 0 0))) ≤ 1
    ∧ 2 ≤ popCount ((up.setSymbols (burstOf (keyStack 0 0)) 3).symbols (burstOf (keyStack 0 0))) := by decide +kernel
/-- Partition 0 with section 0, STARTED. -/
def sPart : State := ((up.setFld (PART_STATUS_STATE 0) ptStarted).setFld (PART_CFG_SECTIONS 0) 1)
theorem wit_Sweep : let s := sPart.setFld (PART_KEY_SWEEP 0) 1
    s.secPart 0 = some 0 ∧ s.sweeps 0 = true ∧ s.m.sweepEnd.contains 0 = false ∧ s.asksOwn 0 true = false
    ∧ Tab.get s.m.sweepAt 0 0 < 2 ^ 30
    ∧ s.symbols (burstOf (keyStack 0 0) + Tab.get s.m.sweepAt 0 0) = 0 ∧ (Tab.get s.m.sweepAt 0 0 + 1) % 32768 ≠ 0
    ∧ (Tab.get s.m.sweepAt 0 0 + 1) * 64 ≠ s.stackBytes
    ∧ (let r : Req := { rq .queued with rqr := 13, write := true, use := .sweep 0 }
       let s : State := { s with m := { s.m with reqs := [r] } }
       s.asksOwn 0 true = true) := by decide +kernel

/-! ### Witnesses: the matrix engine -/

/-- A BF16 operand tile of one row and one column in own memory, and an FP32 accumulator tile. -/
def hA : Word := BitVec.ofNat 64 (2 ^ 38)
def hOut : Word := BitVec.ofNat 64 (2 ^ 16 + 255 * 2 ^ 22 + 255 * 2 ^ 30)
/-- Matrix core 0 with the operand in t0, the output in t1, and plane 0 full. -/
def sMx : State := ((tM.setHandle 0 0 hA).setHandle 0 1 hOut).setPlane 0 0 (.full ⟨.bf16, 256, []⟩)
/-- MXM that opens and closes its tile, to FP32. -/
def fMxm : Fields := { f0 with dst := 1, imm := 0x11 }
theorem wit_Mxm : isMatrix 0 = true ∧ Runs sMx 0 0 fMxm (usesMxm fMxm) (mxWordBad fMxm) ∧ sMx.mxFaults 0 fMxm = []
    ∧ sMx.mxWaits 0 fMxm = false := by
  unfold Runs Issues WordOk; decide +kernel
/-- All 16 barge credits held: the instruction waits. -/
theorem wit_MxmWaits : let s := sMx.addCredits 0 16
    Runs s 0 0 fMxm (usesMxm fMxm) (mxWordBad fMxm) ∧ s.mxFaults 0 fMxm = [] ∧ s.mxWaits 0 fMxm = true := by
  unfold Runs Issues WordOk; decide +kernel
theorem wit_Mldp : Runs sMx 0 0 f0 { a := some .t, mod := 3 } false ∧ sMx.srcTy 0 0 false = some .bf16 ∧ operandTy .bf16 = true
    ∧ sMx.srcFaults 0 0 (sMx.loadK 0 0 false) false = [] ∧ modBit f0 17 = false := by
  unfold Runs Issues WordOk; decide +kernel
def tileOpen : Tile := ⟨0, hOut.toNat, .opened, 0, none, 0, 0, none, 0, 0, 0, 0, false, [], 0⟩
theorem wit_Mdrop : let s : State := { sMx with mx := { sMx.mx with tiles := [tileOpen] } }
    Runs s 0 0 { f0 with srca := 1 } { a := some .t } false ∧ s.openTile 0 (s.handle 0 1) = some tileOpen
    ∧ (∀ x ∈ s.mxmsOf 0, x.started = true ∧ (s.handle 0 1).toNat ∉ x.handles) ∧ (∀ x ∈ s.mldpsOf 0, x.started = true) := by
  unfold Runs Issues WordOk; decide +kernel
theorem wit_Mdrain : Runs tM 0 0 f0 {} false ∧ tM.mxmsOf 0 = [] ∧ tM.mldpsOf 0 = [] ∧ Runs tM 0 0 f0 { dst := some .s } false := by
  unfold Runs Issues WordOk; decide +kernel
/-- Register 1 holds a stale copy of the tile, or the tile is not there. -/
theorem wit_MdropStale : let s : State := { sMx with mx := { sMx.mx with tiles := [tileOpen], staleRegs := [1] } }
    Runs s 0 0 { f0 with srca := 1 } { a := some .t } false ∧ s.mx.staleRegs.contains (32 * 0 + 1) = true
    ∧ sMx.mx.staleRegs.contains (32 * 0 + 1) = false
    ∧ ({ sMx with mx := { sMx.mx with tiles := [] } } : State).openTile 0 (sMx.handle 0 1) = none := by
  unfold Runs Issues WordOk; decide +kernel
/-- An MXM as it waits in the engine, one whose tile has been computed and awaits its barge, and one without CLOSE. -/
def mxW (word : Word) (started computed : Bool) (post : List Nat) : Mxm :=
  ⟨5, 0, word, 0, 0, 0, 0, 0, 256, .bf16, .bf16, .tile hA.toNat false, .none, none, none, [hOut.toNat], started, [], [], none, none, 0,
    computed, post⟩
def sMxm (x : Mxm) : State := { sMx with mx := { sMx.mx with mxms := [x], tiles := [tileOpen] } }
theorem wit_MxmStart : let x := mxW (instrWord 2 0 fMxm) false false []
    ((sMxm x).mxmsOf 0).find? (fun x => !x.started) = some x
    ∧ (((sMxm x).mxmsOf 0).filter (fun y => decide (y.id < x.id))).all Mxm.entered = true
    ∧ (sMxm x).planeReady x = true ∧ (sMxm x).srcReady 0 x.id x.k x.srcA = true ∧ (sMxm x).srcReady 0 x.id x.k x.srcB = true := by
  decide +kernel
theorem wit_MxmFinish : let x := mxW (instrWord 2 0 { fMxm with imm := 1 }) true true []
    ((sMxm x).mxmsOf 0).find? (fun x => mxCloses x.word == 0) = some x
    ∧ ((sMxm x).computeTo x.id ((sMxm x).mxmsOf 0)).1 = true := by decide +kernel
theorem wit_BargePost : let x := mxW (instrWord 2 0 fMxm) true true [0]
    ((sMxm x).mxmsOf 0).find? (fun x => mxCloses x.word != 0) = some x
    ∧ ((sMxm x).computeTo x.id ((sMxm x).mxmsOf 0)).1 = true ∧ x.toPost = [0]
    ∧ ((sMxm x).computeTo x.id ((sMxm x).mxmsOf 0)).2.mx.mxms.find? (fun y => y.id == x.id) = some x := by decide +kernel
theorem wit_ArrayFault : let x := { mxW (instrWord 2 0 fMxm) true false [] with bad := some (whole fcStream) }
    (sMxm x).engineFaults 0 = [(x.id, x.pc, x.word, whole fcStream)] ∧ (sMxm x).taskRuns 0 = true
    ∧ ((sMxm x).setTaskState 0 tkHalted).taskRuns 0 = false := by decide +kernel
/-- A plane load that has taken its rows. -/
def mld : Mldp := ⟨6, 0, 0, 0, 1, .bf16, 256, .tile hA.toNat false, true, [], none, 0⟩
theorem wit_PlaneReady : let s : State := { sMx with mx := { sMx.mx with mldps := [mld] } }
    (s.mldpsOf 0).head? = some mld ∧ mld.plane = (1 : Fin 2).val ∧ mld.started = true ∧ mld.bad = none
    ∧ (∀ q, mld.src = .stream q → 256 ≤ mld.rows.length) := by
  refine ⟨by decide +kernel, rfl, rfl, rfl, ?_⟩
  intro q h; cases h


/-! ### Witnesses: class 3 -/

/-- Core 2's task with a 4 KiB extent at virtual address 0, which its cluster has translated to stack 0. -/
def sExt : State :=
  { tS with core := { tS.core with task := [(2 * 256 + 0x61, 0x10)] }, m := { tS.m with tcache := [⟨0, 0, true, 0, true⟩] } }
/-- Graph 0 with an image of one node of no neighbour: directory at 0, header at 64, node list at 256. -/
def sGraph : State :=
  let s := (sExt.setFld (CL_GRAPH_DIR_VALID 0 0) 1).wr (keyStack 0 0) 8 64
  let s := ((s.wr (keyStack 0 64) 4 0x30001).wr (keyStack 0 (64 + 8)) 8 1).wr (keyStack 0 (64 + 16)) 8 256
  { s with m := { s.m with scache := [(0, 0)] } }
/-- K = 1; SLAYR takes its control word, of one candidate, from s1. -/
def fSamp (op : Nat) : Fields := { f0 with imm := 16, srcc := if op = 6 then 1 else 0 }
def sSamp : State := sGraph.setS 2 0 1 1
theorem wit_Sampling : ∀ e ∈ samplingTable, Runs sSamp 2 0 (fSamp e.2.1) (usesSampling e.2.1) (isMatrix 2 || 1 == 0 || decide ((if e.2.1 = 5 then 255 else 1024) < 1))
    ∧ sampFaults e.2.1 (sSamp.sampOf 2 0 e.2.1 (fSamp e.2.1)) = [] := by
  unfold Runs Issues WordOk; decide +kernel
theorem wit_SamplingOk : ∀ e ∈ samplingTable, (match (e.2.2 (sSamp.sampOf 2 0 e.2.1 (fSamp e.2.1))).run ⟨sSamp, [], 0⟩ with
    | (.ok _, tr) => tr.s.pc 2 0 == sSamp.pc 2 0
    | _ => false) = true := by decide +kernel
/-- Without the graph's VALID bit SDEG ends with BAD_LAYOUT; with no extent, in a fault. -/
theorem wit_SamplingStops : (match (sampDeg (sExt.sampOf 2 0 0 (fSamp 0))).run ⟨sExt, [], 0⟩ with
    | (.error (.status n), tr) => n == stBadLayout && tr.s.pc 2 0 == sExt.pc 2 0
    | _ => false) = true
    ∧ (let s := { tS with m := { sGraph.m with scache := [] } }.setFld (CL_GRAPH_DIR_VALID 0 0) 1
       (match (sampDeg (s.sampOf 2 0 0 (fSamp 0))).run ⟨s, [], 0⟩ with
        | (.error (.fault code _), _) => code == fcExtent
        | _ => false) = true) := by decide +kernel
theorem wit_LayerOfZeros : Runs sSamp 2 0 { fSamp 6 with dst := 2 } (usesSampling 6) false
    ∧ sampFaults 6 (sSamp.sampOf 2 0 6 { fSamp 6 with dst := 2 }) = []
    ∧ bits (sSamp.sampOf 2 0 6 { fSamp 6 with dst := 2 }).cw 0 24 = 1
    ∧ leNat (((sSamp.rdB (keyOwn 2 0) 16).drop 4).take 4) = 0 := by
  unfold Runs Issues WordOk; decide +kernel
/-- Index 0 of every active element: all eight address the same bytes. -/
theorem wit_ElementGather : spaceOf (fT 11) = 0 ∧ elemGathTy (typeOf (fT 11)) = true ∧ (typeOf (fT 11)).bits / 8 ≤ ownBytes 2
    ∧ Runs tS 2 0 (fT 11) usesVgath false ∧ Runs tS 2 0 (fT 11) usesVscat false := by
  unfold Runs Issues WordOk; decide +kernel
/-- A gather of one row of 16 bytes, its descriptor at 64: of four rows from address 0, then of four from beyond the
extent. -/
def sGath (base : Nat) : State :=
  ((((sExt.wr (keyOwn 2 64) 8 base).wr (keyOwn 2 72) 8 4).wr (keyOwn 2 80) 8 16).wr (keyOwn 2 88) 8 16).setS 2 0 1 64
def fGath : Fields := { f0 with imm := 1, srcc := 1, srca := 2 }
theorem wit_ListGather :
    (∀ b ∈ [0, 4096], let s := (sGath b).setS 2 0 2 128
      Runs s 2 0 fGath { dst := some .s, a := some .s, b := some .s, c := some .s, mod := 3, imm := 0x1FFF } false
      ∧ s.gathFaults 2 (s.gathOf 2 0 fGath) = []
      ∧ (s.gathKeys 2 (s.gathOf 2 0 fGath) [(0, s.rd (keyOwn 2 0) 8)]).2.1.isSome = decide (b = 4096)) := by
  unfold Runs Issues WordOk; decide +kernel
theorem wit_BaseCommandIssue : Runs tS 2 0 f0 { a := some .s, imm := 7 } false ∧ (tS.sreg 2 0 0).toNat % 64 = 0
    ∧ (parseHdr (tS.rdB (keyOwn 2 0) 64)).dest = 0 ∧ (parseHdr (tS.rdB (keyOwn 2 0) 64)).statusOff = 0
    ∧ 64 ≤ ownBytes 2 ∧ tS.berthFree 2 = true := by
  unfold Runs Issues WordOk; decide +kernel
/-- One record, no split, in s1 to s4: the same control word but for the place of the counts or ends. -/
def sRec (cw : Nat) : State := (tS.setS 2 0 1 (BitVec.ofNat 64 0x100)).setS 2 0 2 (BitVec.ofNat 64 cw)
def fRec : Fields := { f0 with srcb := 0, srca := 1, srcc := 2 }
theorem wit_Bsplit : let s := sRec (1 + 0x200 * 2 ^ 16 + 0x300 * 2 ^ 40)
    Runs s 2 0 fRec { dst := some .s, a := some .s, b := some .s, c := some .s, mod := 1 } false
    ∧ regionFaults 2 false [(0, 16, 16), (0x200, 0, 8)] [(0x100, 16, 16), (0x300, 8, 4)] = [] ∧ ascending [] = true
    ∧ bits (s.sreg 2 0 2).toNat 0 13 = 1 ∧ bits (s.sreg 2 0 2).toNat 13 3 = 0 := by
  unfold Runs Issues WordOk; decide +kernel
/-- Four buckets: three splits of zero do not ascend. -/
theorem wit_BsplitStatus : let cw := 1 + 2 * 2 ^ 13 + 0x200 * 2 ^ 16 + 0x300 * 2 ^ 40
    regionFaults 2 false [(0, 16, 16), (bits cw 16 24, 24, 8)] [(0x100, 16, 16), (bits cw 40 24, 20, 4)] = []
    ∧ ascending ((List.range 3).map (fun i => (sRec cw).rd (keyOwn 2 (bits cw 16 24 + 8 * i)) 8)) = false := by decide +kernel
/-- NDST is 1 and then 0: the one record's destination lies below it or not. -/
theorem wit_Bsort : ∀ ndst ∈ [0, 1], let cw := 1 + ndst * 2 ^ 14 + 0x300 * 2 ^ 38
    let s := sRec cw
    let rs := sortByKey recSrc (s.records 2 0 1)
    Runs s 2 0 fRec { dst := some .s, a := some .s, b := some .s, c := some .s } false
    ∧ regionFaults 2 (1 == 0 || decide (8192 < 1) || cw / 2 ^ 62 != 0) [(0, 16, 16)]
      [(0x100, 64 + 64 + 4 * (runEnds recSrc 0 rs).length, 64), (0x300, 8 * (runEnds recSrc 0 rs).length, 8)] = []
    ∧ rs.any (fun r => decide (bits cw 14 24 ≤ recDst r)) = decide (ndst = 0) := by
  unfold Runs Issues WordOk; decide +kernel
theorem wit_Esort : ∀ key ∈ [0, 1, 2], let cw := 1 + key * 2 ^ 14 + 0x300 * 2 ^ 16
    Runs (sRec cw) 2 0 fRec { dst := some .s, a := some .s, b := some .s, c := some .s } false
    ∧ regionFaults 2 (1 == 0 || decide (8192 < 1) || bits cw 14 2 == 3 || cw / 2 ^ 40 != 0) [(0, 16, 16)]
      [(0x100, 16, 16), (0x300, 8, 4)] = [] := by
  unfold Runs Issues WordOk; decide +kernel
/-- Table 0 with a cached descriptor of no rows at address 0: row 0 is invalid. -/
def sTable : State :=
  let s := (sExt.setFld (CL_TABLE_VALID 0 0) 1).wr (keyStack 0 0) 2 1
  { s with m := { s.m with dcache := [(0, 0)] } }.setS 2 0 1 0x100
def fEres : Fields := { f0 with imm := 1, srca := 1 }
def iEres (s : State) : Eres := ⟨2, 0x100, 0, 1, false, false, 0, s.rdB (keyOwn 2 0) 64⟩
theorem wit_ResolveEntries :
    Runs sTable 2 0 fEres { dst := some .s, a := some .s, b := some .s, c := some .s, mod := 3, imm := 0x1FFF } false
    ∧ eresFaults (iEres sTable) = [] ∧ (match (eresDesc (iEres sTable)).run ⟨sTable, [], 0⟩ with
      | (.ok (some d), tr) => (match resolveAll (resolveReq (iEres sTable) d) [(0, 0)] tr with
        | (es, none, tr') => es.length == 1 && tr'.s.pc 2 0 == sTable.pc 2 0
        | _ => false)
      | _ => false) = true
    ∧ (match (eresDesc (iEres tS)).run ⟨tS, [], 0⟩ with
      | (.error (.status st), tr) => st == 1 && tr.s.pc 2 0 == tS.pc 2 0
      | _ => false) = true := by
  unfold Runs Issues WordOk; decide +kernel

/-! ### Witnesses: fed streams, base engines -/

theorem wit_FeederCredit : let s := tS.setStream 2 0 { opened 4 with unreturned := 3, desc := (opened 4).desc }
    (s.stream 2 0).isOpen = true ∧ (s.stream 2 0).kind = 4 ∧ (s.stream 2 0).unreturned ≠ 0
    ∧ ∀ g ∈ (s.stream 2 0).feeders, g < 800 := by decide +kernel
theorem wit_PoolGroups : let s := tS.setStream 2 0 { opened 5 with credits := 255, desc := leBytes 4 (5 + 4 * 2 ^ 16) ++ List.replicate 4 0 ++ leBytes 8 (2 + 2 ^ 36) ++ List.replicate 48 0 }
    let st := s.stream 2 0
    s.taskRuns 2 = true ∧ st.isOpen = true ∧ st.closing = false ∧ st.kind = 5 ∧ st.group * st.poolGroup < st.nrows
    ∧ min st.poolGroup (st.nrows - st.group * st.poolGroup) * st.rowChunks ≤ st.credits := by decide +kernel
/-- Slot 0 of stack 0: FP32 vectors of one element in records of 64 bytes, no row; a command of core 2. -/
def sSlot : State :=
  let s := (tS.setFld (SB_TABLE_VALID 0 0) 1).setFld (SB_TABLE_VEC_ELEMS 0 0) 1
  let s := s.setFld (SB_TABLE_REC_UNITS 0 0) 1
  (s.setFld (PART_STATUS_STATE 0) ptStarted).setFld (PART_CFG_SECTIONS 0) 1
def bcmd (op nseg asked : Nat) (done : Bool := false) : BCmd :=
  let h := parseHdr (leBytes 4 op ++ leBytes 2 1 ++ leBytes 2 nseg ++ List.replicate 56 0)
  ⟨0, 0, 2, 0, 0, h, none, none, asked, 0, if done then some ⟨0, 0, 0, []⟩ else none, false⟩
def sCmd (op nseg asked : Nat) (done : Bool := false) : State :=
  { sSlot with b := { sSlot.b with cmds := [bcmd op nseg asked done] } }
/-- At each of its stages, with and without requests of its own; a payload that passes the end of the core's memory; a request of the
stack that has been granted for the cluster. -/
theorem wit_BaseCommands : ∀ o ∈ [(0, 0), (1, 1), (2, 0), (3, 0)], ∀ asked ∈ [0, 1, 2, 3, 4], let s := sCmd o.1 o.2 asked
    let x := bcmd o.1 o.2 asked
    s.cmdReady 0 0 = some x ∧ s.cmdRejected x = false ∧ (s.slot 0 0).isSome = true
    ∧ x.hdr.op = o.1 ∧ x.hdr.table = 0 ∧ x.asked = asked ∧ s.cmdAsks 0 = false ∧ s.on ERR_FAILSAFE_ACTIVE = false ∧ s.repliesDue 0 (clusterOf 2) = false
    ∧ (let r : Req := { rq .queued with use := .base 0 }
       ({ s with m := { s.m with reqs := [r] } } : State).cmdAsks 0 = true)
    ∧ (match s.slot 0 0 with
      | some sl => !(s.payloadOf x sl).bad && !endsBad 0 0 [0] && (s.payloadOf { x with off := 2 ^ 19 } sl).bad
      | none => false) = true := by decide +kernel
theorem wit_CommandCompletion : let s := sCmd 0 0 2 true
    let x := bcmd 0 0 2 true
    s.b.cmds.find? (fun (y : BCmd) => y.id == 0 && y.stack == 0) = some x ∧ x.done = some ⟨0, 0, 0, []⟩ ∧ x.stream = none ∧ x.thread < 16
    ∧ x.core < 800 ∧ x.hdr.statusOff + 8 ≤ 2 ^ 22 ∧ s.completionWaits x = false
    ∧ (let r : Req := { rq .queued with use := .base 0 }
       ({ s with m := { s.m with reqs := [r] } } : State).completionWaits x = true) := by
  decide +kernel

/-! ### Witnesses: where instructions end, wait, wake and stop -/

/-- At the last word, and with a target below word 0. -/
theorem wit_Jumps : (let s := tS.setPc 2 0 8191
      Jumps s 2 0 f0 { a := some .s, b := some .s, imm := 65535 } ∧ s.pc 2 0 = 8191)
    ∧ (let f := fI 0xFFFF
       Jumps tS 2 0 f { a := some .s, b := some .s, imm := 65535 } ∧ Jumps tS 2 0 f { dst := some .s, a := some .s, imm := 65535 }
       ∧ Jumps tS 2 0 f { dst := some .s, imm := 65535 } ∧ target tS 2 0 f < 0)
    ∧ Jumps tS 2 0 f0 { dst := some .s, a := some .s } := by
  unfold Jumps Issues; decide +kernel
/-- The task of a core in a section of a partition, with flags set. -/
def sOwned : State := ((tS.setFld (PART_STATUS_STATE 0) ptStarted).setFld (PART_CFG_SECTIONS 0) 1).setFlags 2 0 3
theorem wit_EndFlags : Issues sOwned 2 0 f0 {} [] ∧ fieldsBad {} f0 = false ∧ sOwned.corePart 2 = some 0 ∧ sOwned.flags 2 0 = 3
    ∧ sOwned.mx.tiles.any (fun x => x.mc == 2 && x.st == .opened) = false ∧ sOwned.engineFaults 2 = [] := by
  unfold Issues; decide +kernel
/-- A core with every berth taken by requests of its own. -/
def sBerths : State := { tS with m := { tS.m with reqs := (List.range 512).map (fun i => { rq .granted with id := i, left := [i], key := 64 * i }) } }
theorem wit_RemoteBerths : ∀ store : Bool, (match tS.scalarAccess 2 0 fSh store with
      | (.ok (key :: keys), s') => s'.berthsFree 2 (berthsFor ((key :: keys).map (·, (0 : Byte)))) && s'.sreg 2 0 fSh.srcb.toNat == tS.sreg 2 0 fSh.srcb.toNat
      | _ => false) = true
    ∧ (match sBerths.scalarAccess 2 0 fSh store with
      | (.ok (key :: keys), s') => !s'.berthsFree 2 (berthsFor ((key :: keys).map (·, (0 : Byte))))
      | _ => false) = true
    ∧ Runs sBerths 2 0 fSh usesLd false := by
  unfold Runs Issues WordOk; decide +kernel
/-- Nothing of an earlier task is left of the stream, and no fault has been found; a started operation of an earlier task still takes
rows of its own stream 0, which stands behind the new one. -/
theorem wit_StreamLeft : sFetch.leftStreams 2 0 = [] ∧ sFetch.engineFaults 2 = []
    ∧ (let x : Mxm := ⟨5, 2, 0, 0, 0, 0, 0, 0, 256, .bf16, .bf16, .stream 12800, .none, none, none, [], true, [], [], none, none, 0, false, []⟩
       let s := (sFetch.setStream 2 12800 (opened 0)).setTaskState 2 tkHalted
       let s : State := { s with mx := { s.mx with mxms := [x] } }
       s.leftStreams 2 0 = [12800] ∧ s.mayFetch 2 12800 = true)
    ∧ (let s := sFetch.setTaskState 2 tkHalted
       s.leftStreams 2 0 = [] ∧ s.taskRuns 2 = false ∧ s.chunkWanted 2 0 = false) := by decide +kernel
/-- A thread that waits for three on channel 0, when a signal of five comes. -/
def sWaitC : State :=
  let s := (sTok 1 5).setStat 2 0 (.waiting (.counter 0 3 7))
  { s with core := { s.core with counterWait := [threadKey 2 0] } }
theorem wit_SignalWakes : mayArrive sWaitC (tok 1 5) 1 ∧ tokCore (tok 1 5) = some 2 ∧ sWaitC.chOpen 2 (tokChannel (tok 1 5)) = true
    ∧ (let n := sWaitC.counter 2 0 + tokValue (tok 1 5)
       n ≤ sWaitC.fld (CL_TOK_LIMIT_LIMIT 0 2 0) ∧ n < 2 ^ 24 ∧ 3 ≤ n)
    ∧ sWaitC.counterQueue 2 0 = [(threadKey 2 0, 3, 7)] := by
  unfold mayArrive; decide +kernel
/-- One that waits for generation 4, when the release of generation 5 comes. -/
theorem wit_ReleaseWakes : let s := (sTok 3 5).setStat 2 0 (.waiting (.barrier 0 4))
    mayArrive s (tok 3 5) 3 ∧ s.chOpen 2 0 = true ∧ s.stat 2 0 = .waiting (.barrier 0 4) ∧ genReached 4 (tokValue (tok 3 5)) = true := by
  unfold mayArrive; decide +kernel
/-- A signal above the channel's limit of 7 at a core whose task runs, and one at a core whose task does not and whose channel is
closed. -/
theorem wit_SignalStops : (mayArrive (sTok 1 8) (tok 1 8) 1 ∧ (sTok 1 8).fld (CL_TOK_LIMIT_LIMIT 0 2 0) < (sTok 1 8).counter 2 0 + tokValue (tok 1 8)
      ∧ (sTok 1 8).taskRuns 2 = true ∧ (sTok 1 8).engineFaults 2 = [])
    ∧ (let s := up.sendTok (tok 1 8)
       mayArrive s (tok 1 8) 1 ∧ s.chOpen 2 0 = false ∧ s.taskRuns 2 = false) := by
  unfold mayArrive; decide +kernel
/-- A device in Stand, and one in the fail-safe state. -/
theorem wit_HaltHeld : (tS.setFld PM_CTRL_STATE 2).standing = true ∧ (tS.setFld ERR_FAILSAFE_ACTIVE 1).on ERR_FAILSAFE_ACTIVE = true
    ∧ tS.standing = false ∧ tS.on ERR_FAILSAFE_ACTIVE = false := by decide +kernel
/-- CLASS 0 has no opcode 0x3F, and class 15 is reserved; a thread of core 2 stands at the latter. -/
theorem wit_Words : ∀ w ∈ [0x3F * 2 ^ 52, 15 * 2 ^ 60],
    ∀ e ∈ opcodes, ¬ (bits (BitVec.ofNat 64 w).toNat 60 4 = e.2.1 ∧ bits (BitVec.ofNat 64 w).toNat 52 8 = e.2.2) := by decide +kernel
def sStray : State := tS.wr (keyProgram 2 0) 8 (15 * 2 ^ 60)
theorem wit_Stray : sStray.dieUp = true ∧ sStray.threads 2 = 1 ∧ sStray.threadReady 2 0 = true ∧ sStray.turn 2 0 = true := by
  decide +kernel
theorem wit_StrayWord : spells (sStray.nextWord 2 0) = false := by
  rw [show sStray.nextWord 2 0 = BitVec.ofNat 64 (15 * 2 ^ 60) by decide +kernel]
  decide +kernel
theorem wit_OneTask : ∀ c' : Fin 800, c' ≠ 2 → sStray.taskRuns c' = false := by decide +kernel
/-- At the last word. -/
theorem wit_LastWord : let s := tS.setPc 2 0 8191
    s.pc 2 0 = 8191
    ∧ (∀ e ∈ aluTable.zipIdx 1, Issues s 2 0 f0 (usesAlu f0) [] ∧ fieldsBad (usesAlu f0) f0 = false ∧ windowBad (usesAlu f0) f0 (s.threads 2) = false)
    ∧ (∀ e ∈ elementTable.zip ([2, 3, 4, 5, 6, 7, 8] ++ (List.range 16).map (· + 0x10)), ∃ f ∈ [fT 0, fT 8],
      Issues s 2 0 f (usesV e.1.2.1) [] ∧ fieldsBad (usesV e.1.2.1) f = false ∧ e.1.2.2.1 (typeOf f) = true
      ∧ windowBad (usesV e.1.2.1) f (s.threads 2) = false) := by
  unfold Issues; decide +kernel
/-- One burst, whole, for a core; the same as a write; and a write of the last of two bursts to bank 0 of shared memory. -/
theorem wit_ArbiterServes : (rq .queued).left = [0] ∧ (rq .queued).use = .core ∧ (rq .queued).bank ≠ 0 ∧ popCount ((sReq .queued).symbols 0) ≤ 1
    ∧ (let r : Req := { rq .queued with write := true }
       let s : State := { sReq .queued with m := { (sReq .queued).m with reqs := [r] } }
       s.serveLines 0 = s ∧ s.chosen 0 2 = some r ∧ s.pickWinner 0 (s.eligible 0) = some (2, 2))
    ∧ (let k := keyShared 0 0
       let r : Req := { rq .queued with write := true, bank := 0, inst := 544, key := k, left := [burstOf k], data := [(k, 7)] }
       let x : Xfer := { newXfer 2 0 true [] .store with id := 9, todo := 2 }
       let s : State := { tS with m := { tS.m with reqs := [r], xfers := [x] } }
       s.serveLines 544 = s ∧ s.holdOf 544 = none ∧ s.pickWinner 544 (s.eligible 544) = some (2, 2) ∧ s.chosen 544 2 = some r ∧ instOf k = 544
       ∧ r.land = .none ∧ (∃ x ∈ s.m.xfers, x.id = r.xfer) ∧ (∀ x ∈ s.m.xfers, x.id = r.xfer → 2 ≤ x.todo)) := by
  decide +kernel
theorem wit_ArbCommit : up.on ERR_FAILSAFE_ACTIVE = false ∧ up.standing = false := by decide +kernel
/-- The operation that has found a fault is of this task: it stays; one of an earlier task goes first. -/
theorem wit_ArrayFaultTask : let x := { mxW (instrWord 2 0 fMxm) true false [] with bad := some (whole fcStream) }
    ((sMxm x).discardMxms 0 (fun x => x.bad.isSome && x.launch != (sMxm x).launchNo 0)) = sMxm x
    ∧ ((sMxm x).discardMxms 0 (fun x => x.bad.isSome && x.launch != (sMxm x).launchNo 0)).engineFaults 0 = [(x.id, x.pc, x.word, whole fcStream)]
    ∧ (let s := (sMxm x).setTaskState 0 tkHalted
       (s.discardMxms 0 (fun x => x.bad.isSome && x.launch != s.launchNo 0)).taskRuns 0 = false) := by decide +kernel
/-- An MXM that leaves its tile open, and its tile. -/
theorem wit_MatrixElement : let x := mxW (instrWord 2 0 { fMxm with imm := 1 }) true false []
    x.mask = none ∧ x.handles[0]? = some hOut.toNat ∧ mxClose x.word 0 = false ∧ tileOpen.osPlane = none
    ∧ (sMxm x).mx.tiles.find? (fun t => t.mc == x.mc && t.handle == hOut.toNat && (t.st == .opened || t.st == .closed)) = some tileOpen
    ∧ thOffset hOut + 256 * (256 / mxBands x.word) * ((thType hOut).bits / 8) ≤ accBytes := by decide +kernel
/-- An alias table at address 0 whose first entry has the alias 0, read as it stands; a NaN and a number. -/
theorem wit_Picks : (match (readVa 2 ((⟨List.replicate 64 0, 0, 1⟩ : Image).f 0x28 6 + 8 * (0 + drawU 0 1)) 8).run ⟨sGraph, [], 0⟩ with
      | (.ok e, _) => decide (bits e 32 32 < 1)
      | _ => false) = true
    ∧ (readNum fmtFP32 0x7FC00000).1.isNaN = true ∧ (readNum fmtFP32 0).1.isNaN = false
    ∧ (sSamp.sampOf 2 0 2 (fSamp 2)).k = 1 := by decide +kernel
/-- ERES in serve mode, its rows at 128 and its header at 0; a table of one row, whose locators lie beyond the task's extent; no extent
at all. -/
def fServe : Fields := { fEres with mod := 1, srcb := 2 }
def sServeE : State := (sTable.setS 2 0 2 128).wr (keyOwn 2 0x18) 4 1
def iServe (s : State) : Eres := ⟨2, 0x100, 128, 1, true, false, 0, s.rdB (keyOwn 2 0) 64⟩
theorem wit_ResolveServe : Runs sServeE 2 0 fServe { dst := some .s, a := some .s, b := some .s, c := some .s, mod := 3, imm := 0x1FFF } false
    ∧ modBit fServe 16 = true ∧ modBit fServe 17 = false ∧ modBit fEres 16 = false
    ∧ eresFaults (iServe sServeE) = [] ∧ (match (eresDesc (iServe sServeE)).run ⟨sServeE, [], 0⟩ with
      | (.ok d, tr) => (match resolveAll (resolveServe (iServe sServeE) d) [(0, 0)] tr with
        | (es, none, tr') => es.length == 1 && tr'.s.pc 2 0 == sServeE.pc 2 0
        | _ => false)
      | _ => false) = true := by
  unfold Runs Issues WordOk; decide +kernel
def sFar : State := ((sTable.wr (keyStack 0 8) 6 1).wr (keyStack 0 0x38) 6 (2 ^ 30)).wr (keyStack 0 0x18) 6 (2 ^ 30)
theorem wit_ResolveFaults : (match (eresDesc (iEres sFar)).run ⟨sFar, [], 0⟩ with
      | (.ok (some d), tr) => (resolveAll (resolveReq (iEres sFar) d) [(0, 0)] tr).2.1.isSome
      | _ => false) = true
    ∧ (let s := (sFar.setS 2 0 2 128).wr (keyOwn 2 0x18) 4 1
       eresFaults (iServe s) = [] ∧ (match (eresDesc (iServe s)).run ⟨s, [], 0⟩ with
        | (.ok d, tr) => (resolveAll (resolveServe (iServe s) d) [(0, 0)] tr).2.1.isSome
        | _ => false) = true)
    ∧ (let s := tS.setFld (CL_TABLE_VALID 0 0) 1
       (match (eresDesc (iEres s)).run ⟨s, [], 0⟩ with
        | (.error (.fault _ _), _) => true
        | _ => false) = true) := by decide +kernel

end Sys2Proof.Machine

namespace Sys2Proof.Tests

open Sys2Proof.Machine

set_option Elab.async false

/-! ### Frames that device 1 has protected

Their tags need no evaluation: what AES-GCM seals it opens. -/

theorem mem_xorL {a b : List Nat} (ha : ∀ x ∈ a, x < 256) (hb : ∀ x ∈ b, x < 256) : ∀ x ∈ xorL a b, x < 256 := by
  induction a generalizing b with
  | nil => simp [xorL]
  | cons y a ih =>
    cases b with
    | nil => simp [xorL]
    | cons z b =>
      simp only [List.forall_mem_cons] at ha hb
      simp only [xorL, List.zipWith_cons_cons, List.forall_mem_cons]
      exact ⟨Nat.xor_lt_two_pow (n := 8) ha.1 hb.1, ih ha.2 hb.2⟩
theorem xorL_xorL {a k : List Nat} (h : a.length ≤ k.length) : xorL (xorL a k) k = a := by
  induction a generalizing k with
  | nil => simp [xorL]
  | cons y a ih =>
    cases k with
    | nil => simp at h
    | cons z k =>
      simp only [List.length_cons, Nat.add_le_add_iff_right] at h
      have := ih h
      simp only [xorL] at this
      simp [xorL, this]
@[simp] theorem length_xorL (a b : List Nat) : (xorL a b).length = min a.length b.length := by simp [xorL]
theorem aesSbox_lt : ∀ a < 256, aesSbox a < 256 := by decide +kernel
theorem aesX_lt : ∀ a < 256, aesX a < 256 := by decide +kernel
theorem mem_aesShift {st : List Nat} (h : ∀ x ∈ st, x < 256) : ∀ x ∈ aesShift st, x < 256 := by
  intro x hx
  simp only [aesShift, List.mem_map] at hx
  obtain ⟨i, -, rfl⟩ := hx
  rw [nthD, List.getD_eq_getElem?_getD]
  cases hq : st[(i + 4 * (i % 4)) % 16]? with
  | none => decide
  | some v => exact h _ (List.mem_of_getElem? hq)
theorem mem_aesMix (st : List Nat) (h : ∀ x ∈ st, x < 256) : ∀ x ∈ aesMix st, x < 256 := by
  induction st using aesMix.induct with
  | case1 a b c d r ih =>
    simp only [List.forall_mem_cons] at h
    obtain ⟨ha, hb, hc, hd, hr⟩ := h
    have X := fun {y : Nat} (hy : y < 256) => aesX_lt y hy
    have O := fun {y z : Nat} (hy : y < 256) (hz : z < 256) => Nat.xor_lt_two_pow (n := 8) hy hz
    simp only [aesMix, aesMixCol, List.cons_append, List.nil_append, List.forall_mem_cons]
    exact ⟨O (O (O (X ha) (O (X hb) hb)) hc) hd, O (O (O ha (X hb)) (O (X hc) hc)) hd,
      O (O (O ha hb) (X hc)) (O (X hd) hd), O (O (O (O (X ha) ha) hb) hc) (X hd), ih hr⟩
  | case2 r hr => simpa only [aesMix] using h
theorem mem_aesRounds (n : Nat) (rk st : List Nat) (hk : ∀ x ∈ rk, x < 256) (hs : ∀ x ∈ st, x < 256) :
    ∀ x ∈ aesRounds n rk st, x < 256 := by
  have S : ∀ st : List Nat, (∀ x ∈ st, x < 256) → ∀ x ∈ st.map aesSbox, x < 256 := by
    intro st h x hx
    obtain ⟨y, hy, rfl⟩ := List.mem_map.1 hx
    exact aesSbox_lt y (h y hy)
  induction n generalizing rk st with
  | zero => exact mem_xorL (mem_aesShift (S st hs)) hk
  | succ n ih =>
    exact ih _ _ (fun x hx => hk x (List.mem_of_mem_drop hx))
      (mem_xorL (mem_aesMix _ (mem_aesShift (S st hs))) (fun x hx => hk x (List.mem_of_mem_take hx)))
theorem length_aesMix (st : List Nat) : (aesMix st).length = st.length := by
  induction st using aesMix.induct with
  | case1 a b c d r ih => simp [aesMix, aesMixCol, ih]
  | case2 r hr => simp only [aesMix]
theorem length_aesRounds (n : Nat) (rk st : List Nat) (h : 16 * (n + 1) ≤ rk.length) : (aesRounds n rk st).length = 16 := by
  induction n generalizing rk st with
  | zero => simp [aesRounds, aesShift]; omega
  | succ n ih => exact ih _ _ (by simp; omega)

/-- The key of the frames. -/
def key0 : List Nat := List.replicate 32 0
theorem key0_ok : (aesKeys key0).length = 240 ∧ ∀ x ∈ aesKeys key0, x < 256 := by decide +kernel
theorem aesEnc0 (blk : List Nat) (h : ∀ x ∈ blk, x < 256) : (aesEnc key0 blk).length = 16 ∧ ∀ x ∈ aesEnc key0 blk, x < 256 := by
  constructor
  · refine length_aesRounds _ _ _ ?_
    rw [List.length_drop, key0_ok.1]; decide
  · exact mem_aesRounds _ _ _ (fun x hx => key0_ok.2 x (List.mem_of_mem_drop hx))
      (mem_xorL h (fun x hx => key0_ok.2 x (List.mem_of_mem_take hx)))

theorem xorL_take (a k r : List Nat) : (xorL (a ++ r) k).take a.length = xorL a k := by
  induction a generalizing k with
  | nil => simp [xorL]
  | cons y a ih =>
    cases k with
    | nil => simp [xorL]
    | cons z k => simpa [xorL] using ih k
/-- What the key stream makes of `n` blocks. -/
def streamed (iv : List Nat) (n c : Nat) (l : List Nat) : List Nat :=
  (gcmCtr key0 iv c ((splitAt16 n l).map (fun b => b ++ List.replicate (16 - b.length) 0))).take l.length
theorem streamed_succ (iv : List Nat) (n c : Nat) (l : List Nat) (hk : (aesEnc key0 (iv ++ natBytesBE 4 c)).length = 16) :
    streamed iv (n + 1) c l = xorL (l.take 16) (aesEnc key0 (iv ++ natBytesBE 4 c)) ++ streamed iv n (c + 1) (l.drop 16) := by
  simp only [streamed, splitAt16, List.map_cons, gcmCtr]
  generalize aesEnc key0 (iv ++ natBytesBE 4 c) = k at hk
  rw [List.take_append, List.length_drop]
  congr 1
  · rcases Nat.lt_or_ge l.length 16 with h | h
    · rw [List.take_of_length_le (Nat.le_of_lt h)]
      exact xorL_take l k _
    · rw [List.take_of_length_le (by simp [hk]; omega)]
      simp [Nat.min_eq_left h]
  · rw [length_xorL, hk]
    simp
theorem streamed_back (iv : List Nat) (hk : ∀ c, (aesEnc key0 (iv ++ natBytesBE 4 c)).length = 16) (n c : Nat) (l : List Nat)
    (h : l.length ≤ 16 * n) : (streamed iv n c l).length = l.length ∧ streamed iv n c (streamed iv n c l) = l := by
  induction n generalizing c l with
  | zero => simp_all [streamed]
  | succ n ih =>
    obtain ⟨h1, h2⟩ := ih (c + 1) (l.drop 16) (by simp; omega)
    rw [streamed_succ iv n c l (hk c), streamed_succ iv n c _ (hk c)]
    have hl : (xorL (l.take 16) (aesEnc key0 (iv ++ natBytesBE 4 c))).length = min 16 l.length := by simp [hk]
    constructor
    · simp [hl, h1]; omega
    · rcases Nat.lt_or_ge l.length 16 with hs | hs
      · have hd : l.drop 16 = [] := List.drop_of_length_le (by omega)
        have h0 : streamed iv n (c + 1) [] = [] := by simp [streamed]
        rw [hd, h0, List.append_nil, List.take_of_length_le (by simp [hl]), List.drop_of_length_le (by simp [hl]), h0,
          xorL_xorL (by simp [hk]), List.append_nil, List.take_of_length_le (by omega)]
      · rw [List.take_left' (by simp [hl]; omega), List.drop_left' (by simp [hl]; omega), h2, xorL_xorL (by simp [hk]),
          List.take_append_drop]
theorem mem_streamed (iv : List Nat) (hk : ∀ c, ∀ x ∈ aesEnc key0 (iv ++ natBytesBE 4 c), x < 256) (n c : Nat) (l : List Nat)
    (h : ∀ x ∈ l, x < 256) : ∀ x ∈ streamed iv n c l, x < 256 := by
  have H : ∀ (n c : Nat) (l : List Nat), (∀ x ∈ l, x < 256) →
      ∀ x ∈ gcmCtr key0 iv c ((splitAt16 n l).map (fun b => b ++ List.replicate (16 - b.length) 0)), x < 256 := by
    intro n
    induction n with
    | zero => simp [splitAt16, gcmCtr]
    | succ n ih =>
      intro c l h x hx
      simp only [splitAt16, List.map_cons, gcmCtr, List.mem_append] at hx
      rcases hx with hx | hx
      · refine mem_xorL ?_ (hk c) x hx
        intro y hy
        rcases List.mem_append.1 hy with hy | hy
        · exact h y (List.mem_of_mem_take hy)
        · rw [List.eq_of_mem_replicate hy]; decide
      · exact ih (c + 1) _ (fun y hy => h y (List.mem_of_mem_drop hy)) x hx
  exact fun x hx => H n c l h x (List.mem_of_mem_take hx)
theorem toNats_ofNats {l : List Nat} (h : ∀ x ∈ l, x < 256) : toNats (ofNats l) = l := by
  induction l with
  | nil => rfl
  | cons a l ih =>
    simp only [List.forall_mem_cons] at h
    have := ih h.2
    simp only [toNats, ofNats] at this
    simp [toNats, ofNats, Nat.mod_eq_of_lt h.1, this]
theorem ofNats_toNats (l : List Byte) : ofNats (toNats l) = l := by
  induction l <;> simp_all [toNats, ofNats]
theorem mem_toNats (l : List Byte) : ∀ x ∈ toNats l, x < 256 := by
  intro x hx
  obtain ⟨b, -, rfl⟩ := List.mem_map.1 hx
  exact b.isLt
theorem mem_natBytes (n v : Nat) : ∀ x ∈ natBytes n v, x < 256 := by
  induction n generalizing v with
  | zero => simp [natBytes]
  | succ n ih =>
    simp only [natBytes, List.forall_mem_cons]
    exact ⟨Nat.mod_lt _ (by decide), ih _⟩
/-- What is sealed under the key of zeros opens, and its tag is 16 bytes. -/
theorem gcm_opens (iv aad : List Nat) (d : List Byte) (hiv : ∀ x ∈ iv, x < 256) :
    let e := gcmSeal key0 iv aad (toNats d)
    (ofNats e.1).length = d.length ∧ (ofNats e.2).length = 16
    ∧ gcmOpen key0 iv aad (toNats (ofNats e.1)) (toNats (ofNats e.2)) = some (toNats d) := by
  have hb : ∀ c, ∀ x ∈ iv ++ natBytesBE 4 c, x < 256 := by
    intro c x hx
    rcases List.mem_append.1 hx with hx | hx
    · exact hiv x hx
    · exact mem_natBytes 4 c x (List.mem_reverse.1 hx)
  have hs : ∀ (c : Nat) (l : List Nat), (gcmCtr key0 iv c (blocks16 l)).take l.length = streamed iv ((l.length + 15) / 16) c l :=
    fun c l => rfl
  have ht : ∀ ct, (gcmTag key0 iv aad ct).length = 16 ∧ ∀ x ∈ gcmTag key0 iv aad ct, x < 256 := by
    intro ct
    have h1 : ∀ x ∈ iv ++ [0, 0, 0, 1], x < 256 := by
      intro x hx
      rcases List.mem_append.1 hx with hx | hx
      · exact hiv x hx
      · simp at hx; omega
    refine ⟨?_, mem_xorL (fun x hx => mem_natBytes 16 _ x (List.mem_reverse.1 hx)) (aesEnc0 _ h1).2⟩
    have : ∀ n v, (natBytes n v).length = n := by
      intro n; induction n <;> simp_all [natBytes]
    simp [gcmTag, natBytesBE, this, (aesEnc0 _ h1).1]
  have hl : (toNats d).length = d.length := by simp [toNats]
  obtain ⟨h1, h2⟩ := streamed_back iv (fun c => (aesEnc0 _ (hb c)).1) ((d.length + 15) / 16) 2 (toNats d) (by rw [hl]; omega)
  have h3 := mem_streamed iv (fun c => (aesEnc0 _ (hb c)).2) ((d.length + 15) / 16) 2 (toNats d) (mem_toNats d)
  simp only [gcmSeal, hs]
  simp only [hl]
  refine ⟨by simp [ofNats, h1, hl], by simp [ofNats, (ht _).1], ?_⟩
  rw [toNats_ofNats h3, toNats_ofNats (ht _).2]
  simp only [gcmOpen, if_true, hs]
  rw [h1, hl, h2]

/-- Partition 0 STARTED with the key of zeros and PTAG 1, on device 0 with its position; lambda 1, to device 1. -/
def sLam (st : Nat) : State :=
  let s := ((sPart.setFld FAB_POS_VALID 1).setFld (FAB_PART_PTAG 0) 1).setLstate 1 st
  { s with sec := { s.sec with fabKey := [(0, List.replicate 32 0)] } }
def sUp : State := sLam lsUp
/-- A frame's bytes with their CRC; the header of a frame to device 0 from device 1 with PTAG 1 and link fields of zeros, and
the frame that carries `d`. -/
def framed (w : List Byte) : List Byte := w ++ leBytes 4 (crc32 w)
def sealHead (typ len : Nat) : List Byte := headE2E 0 1 (typeClass typ) typ len 1 false true ++ leBytes 8 0
def sealed (typ : Nat) (d : List Byte) : List Byte :=
  let e := gcmSeal key0 (frameIv 1 0 0 1) (aadOf (sealHead typ (d.length + 24))) (toNats d)
  framed (sealHead typ (d.length + 24) ++ (leBytes 8 1 ++ (ofNats e.1 ++ ofNats e.2)))
/-- What the checks of R387 need of that header, and of the state. -/
def headGoes (typ len : Nat) : Bool :=
  let h := sealHead typ len
  hLen h == len && hType h == typ && hDst h == 0 && hSrc h == 1 && hPtag h == 1 && hEnc h && headOk h && decide (24 ≤ len)
def stateGoes (s : State) : Bool :=
  s.lamAt 1 == 1 && s.lamUp 1 && !(s.lam 1).closed && (s.lam 1).rxLast == none && s.me == 0 && s.tagPart 1 == some 0 && s.inWindow 0 1 1
    && Tab.get s.sec.fabKey [] 0 == List.replicate 32 0
theorem wordAt_append {off : Nat} {h x : List Byte} (hl : off + 4 ≤ h.length) : wordAt (h ++ x) off = wordAt h off := by
  simp only [wordAt]
  rw [List.drop_append_of_le_length (by omega), List.take_append_of_le_length (by simp; omega)]
theorem crc32_lt (l : List Byte) : crc32 l < 256 ^ 4 := by unfold crc32; omega
/-- Bytes with their CRC pass its check, where the header's LEN is that of the payload. -/
theorem framed_crcOk {w : List Byte} (h : hLen (framed w) + 16 = w.length) : crcOk (framed w) = true := by
  have h' : 16 + hLen (framed w) = w.length := by omega
  rw [crcOk, h', framed, List.drop_left' rfl, List.take_left' rfl, leNat_leBytes, Nat.mod_eq_of_lt (crc32_lt w)]
  simp
theorem sealed_passes {s : State} {typ : Nat} {d : List Byte} (hs : stateGoes s = true)
    (hh : headGoes typ (d.length + 24) = true) : Passes s 1 (sealed typ d) typ 0 1 d := by
  obtain ⟨g1, g2, g3⟩ := gcm_opens (frameIv 1 0 0 1) (aadOf (sealHead typ (d.length + 24))) d (mem_natBytes _ _)
  simp only [headGoes, Bool.and_eq_true, beq_iff_eq, decide_eq_true_eq] at hh
  obtain ⟨⟨⟨⟨⟨⟨⟨e1, e2⟩, e3⟩, e4⟩, e5⟩, e6⟩, e7⟩, -⟩ := hh
  simp only [stateGoes, Bool.and_eq_true, beq_iff_eq, Bool.not_eq_true'] at hs
  obtain ⟨⟨⟨⟨⟨⟨⟨s0, s1⟩, s2⟩, s3⟩, s4⟩, s5⟩, s6⟩, s7⟩ := hs
  have hl : (sealHead typ (d.length + 24)).length = 16 := by simp [sealHead, headE2E]
  generalize hx : ofNats _ ++ ofNats (gcmSeal key0 (frameIv 1 0 0 1) (aadOf (sealHead typ (d.length + 24))) (toNats d)).2 = x
  have hb : sealed typ d = framed (sealHead typ (d.length + 24) ++ (leBytes 8 1 ++ x)) := by rw [sealed, ← hx]
  have hxl : x.length = d.length + 16 := by rw [← hx]; simp [g1, g2]
  rw [hb]
  generalize sealHead typ (d.length + 24) = h at *
  have w (off : Nat) (ho : off + 4 ≤ 16) (y : List Byte) : wordAt (h ++ y) off = wordAt h off := wordAt_append (by omega)
  have hc4 : hLen (framed (h ++ (leBytes 8 1 ++ x))) + 16 = (h ++ (leBytes 8 1 ++ x)).length := by
    have : hLen (framed (h ++ (leBytes 8 1 ++ x))) = d.length + 24 := by
      rw [framed, List.append_assoc]; simpa [hLen, w 4 (by decide)] using e1
    simp [this, hl, hxl]; omega
  have hcrc := framed_crcOk hc4
  have hfr : framed (h ++ (leBytes 8 1 ++ x)) = h ++ ((leBytes 8 1 ++ x) ++ leBytes 4 (crc32 (h ++ (leBytes 8 1 ++ x)))) := by
    rw [framed, List.append_assoc]
  rw [hfr] at hcrc ⊢
  generalize leBytes 4 (crc32 (h ++ (leBytes 8 1 ++ x))) = z at hcrc hfr ⊢
  have hz : z.length = 4 := by
    have := congrArg List.length hfr
    simp [framed] at this; omega
  have w0 := w 0 (by decide)
  have w4 := w 4 (by decide)
  have w8 := w 8 (by decide)
  have w12 := w 12 (by decide)
  have f4 (y : List Byte) : hLen (h ++ y) = d.length + 24 := by simpa [hLen, w4] using e1
  have hp : hPay (h ++ ((leBytes 8 1 ++ x) ++ z)) = leBytes 8 1 ++ x := by
    rw [hPay, f4, List.drop_left' hl, List.take_left' (by simp [hxl]; omega)]
  refine ⟨⟨?_, hcrc, ?_⟩, ?_, ?_⟩
  · simp only [frameSized, f4]
    simp [hl, hxl, hz]
    omega
  · simp [State.takes, s0, s1, s2, s3]
  · simpa [hType, w4] using e2
  · have ha : aadOf (h ++ ((leBytes 8 1 ++ x) ++ z)) = aadOf h := by
      simp only [aadOf, setHop, w0]
      rw [List.drop_append_of_le_length (by omega), ← List.append_assoc, List.take_append_of_le_length (by simp; omega)]
    have hc : leNat ((leBytes 8 1 ++ x).take 8) = 1 := by rw [List.take_left' (by simp)]; decide
    have hu : s.unseal 0 (h ++ ((leBytes 8 1 ++ x) ++ z)) = some d := by
      have r : List.range 8 = 0 :: (List.range 7).map (· + 1) := by decide
      have hn : (leBytes 8 1 ++ x).length - 24 = d.length := by simp [hxl]; omega
      have hx1 : (leBytes 8 1 ++ x).drop 8 = x := List.drop_left' (by simp)
      have hx2 : (leBytes 8 1 ++ x).drop (8 + d.length) = x.drop d.length := by rw [← List.drop_drop, hx1]
      have hsrc : hSrc (h ++ ((leBytes 8 1 ++ x) ++ z)) = 1 := by simpa [hSrc, w0] using e4
      have hdst : hDst (h ++ ((leBytes 8 1 ++ x) ++ z)) = 0 := by simpa [hDst, w0] using e3
      have hk : toNats (List.replicate 32 (0 : Byte)) = key0 := by decide
      simp only [State.unseal, hp, hc, ha, r, List.findSome?_cons, hn, hx1, hx2, hsrc, hdst, s7, hk]
      rw [← hx, List.take_left' g1, List.drop_left' g1, g3]
      simp [ofNats_toNats]
    have f1 : hDst (h ++ ((leBytes 8 1 ++ x) ++ z)) = 0 := by simpa [hDst, w0] using e3
    have f2 : hPtag (h ++ ((leBytes 8 1 ++ x) ++ z)) = 1 := by simpa [hPtag, w4] using e5
    have f3 : hEnc (h ++ ((leBytes 8 1 ++ x) ++ z)) = true := by simpa [hEnc, w0] using e6
    have f5 : headOk (h ++ ((leBytes 8 1 ++ x) ++ z)) = true := by
      unfold headOk hType hTc hPtag hLen
      rw [w0, w4, w8, w12]
      exact e7
    have f6 : hSrc (h ++ ((leBytes 8 1 ++ x) ++ z)) = 1 := by simpa [hSrc, w0] using e4
    have f7 : leNat ((hPay (h ++ ((leBytes 8 1 ++ x) ++ z))).take 8) = 1 := by rw [hp, hc]
    have f4' := f4 ((leBytes 8 1 ++ x) ++ z)
    generalize h ++ ((leBytes 8 1 ++ x) ++ z) = y at f1 f2 f3 f4' f5 f6 f7 hu ⊢
    simp [State.fate, f1, f2, f3, f4', f5, f6, f7, s4, s5, s6, hu]
theorem wit_TokenFrame : Passes sUp 1 (sealed 1 (List.replicate 8 0)) 1 0 1 (List.replicate 8 0) :=
  sealed_passes (by decide +kernel) (by decide +kernel)

/-! ### Witnesses: the fabric -/

/-- A frame without protection, its link fields zeros. -/
def plain (dst src typ len : Nat) (d : List Byte) : List Byte :=
  framed (headE2E dst src (typeClass typ) typ len 0 false false ++ leBytes 8 0 ++ d)
/-- Whether the receive side of lambda 1 takes the frame that arrives at place 1. -/
def taken (s : State) (b : List Byte) : Bool := s.lamAt 1 == 1 && frameSized b && crcOk b && s.takes 1 b
theorem taken_iff (s : State) (b : List Byte) : taken s b = true ↔ s.lamAt 1 = 1 ∧ Taken s 1 b := by
  simp [taken, Taken, and_assoc]
/-- Whether a frame passes, with this partition, counter and data. -/
def fateIs (f : Fate) (p : Option Nat) (c : Nat) (d : List Byte) : Bool :=
  match f with
  | .pass q e x => q == p && e == c && x == d
  | _ => false
/-- IDLE, LINKSTATE, LINKQUERY from device 1, LINKREPLY of device 2 about its lambda. -/
theorem wit_FramesReceived :
    (∀ e ∈ [(0, 0), (7, 32), (7, 16), (8, 0)], let b := plain 0 1 e.1 e.2 (List.replicate e.2 0)
      taken sUp b = true ∧ (sUp.lam 1).naks < 15 ∧ (sUp.lam 1).freed.length = 4
      ∧ fateIs (sUp.fate b) none 0 (List.replicate e.2 0) = true ∧ hType b = e.1)
    ∧ sUp.lamTo (hSrc (plain 0 1 8 0 [])) = some 1
    ∧ (let s := sUp.setLam 2 { sUp.lam 2 with querying := true }
       let b := plain 0 2 9 2 [0, 0]
       taken s b = true ∧ fateIs (s.fate b) none 0 [0, 0] = true ∧ s.lamTo (hSrc b) = some 2
       ∧ ((accepted s 1 b).lam 2).querying = true ∧ (accepted s 1 b).lamUp 2 = false) := by decide +kernel
/-- A frame whose CRC does not match, one out of sequence, one whose type and tag do not agree, and a 16th NAK. -/
theorem wit_FrameChecks :
    (let b := headE2E 0 1 0 0 0 0 false false ++ leBytes 12 0
     frameSized b = true ∧ sUp.lamAt 1 = 1 ∧ sUp.lamUp 1 = true ∧ crcOk b = false)
    ∧ (let s := sUp.setLam 1 { sUp.lam 1 with rxLast := some 7 }
       let b := plain 0 1 0 0 []
       frameSized b = true ∧ crcOk b = true ∧ s.takes (s.lamAt 1) b = false)
    ∧ (let b := plain 0 1 3 0 []
       taken sUp b = true ∧ (match sUp.fate b with
      | .drop f => f == FAB_DROP_ROUTE
      | _ => false) = true)
    ∧ (let s := sUp.setLam 1 { sUp.lam 1 with naks := 15 }
       let b := framed (headE2E 0 1 0 0 0 0 false false ++ linkFields 0 0 true 0 0 false)
       15 ≤ (s.lam 1).naks ∧ hNak b = true ∧ (unacked (hAck b) (s.lam 1).replay).length = (s.lam 1).replay.length) := by
  decide +kernel
/-- A HELLO of the training pattern, one in a frame, at its own position and at another. -/
theorem wit_Hello :
    sUp.on FAB_POS_VALID = true
    ∧ (∀ pos ∈ [1, 2], let b := plain 0 1 6 16 (leBytes 2 pos ++ List.replicate 14 0)
      let s := sLam lsAbsent
      s.lamAt 1 = 1 ∧ frameSized b = true ∧ crcOk b = true ∧ hType b = 6 ∧ s.isLoop 1 = false ∧ s.lamUp 1 = false
      ∧ s.lstate 1 ≠ lsShuttered ∧ headOk b = true ∧ hLen b = 16 ∧ decide (helloPos (hPay b) = s.peerOf 1) = decide (pos = 1)
      ∧ taken sUp b = true ∧ fateIs (sUp.fate b) none 0 (hPay b) = true ∧ (hPay b).length = 16)
    ∧ (sLam lsMiswired).lstate 1 = lsMiswired ∧ (sLam lsAbsent).lstate 1 ≠ lsMiswired
    ∧ up.on FAB_POS_VALID = false := by decide +kernel
/-- Its own light on one fibre of each plane; no light; an engine without a complete input. -/
theorem wit_BringUp :
    (let s := up.setFld HUB_FW_STATUS_READY 1
     let light : BitVec 256 := 1#256 ||| 1#256 <<< 128
     s.hubUp = true ∧ s.on HUB_FW_STATUS_READY = true ∧ s.on FAB_CTRL_RUN = false
     ∧ indexFrom light 0 = [0] ∧ indexFrom light 1 = [0] ∧ (indexFrom (0 : BitVec 256) 0).length ≠ 1
     ∧ bits (0 : BitVec 128).toNat 0 8 ≠ 255 ∧ bits (0 : BitVec 128).toNat 8 8 ≠ 255) := by decide +kernel
/-- An IDLE frame queued at port 0 for lambda 1, and an acknowledgement owed. -/
def outIdle : FOut := ⟨0, none, 1, 0, [], none, some 1, 8, false, none⟩
theorem wit_PortRound :
    (∀ r, r < 16 → (sUp.startRound 512).frameOf 0 r = none)
    ∧ (let s1 := (sUp.queueFrame outIdle).startRound 512
       sUp.dieUp = true ∧ s1.pickWinner 512 ((List.range 16).filter (fun r => (s1.frameOf 0 r).isSome)) = some (0, 2)
       ∧ s1.frameOf 0 0 = some (outIdle, 1)) := by decide +kernel
/-- To device 3 of the same reach, to device 128 of the same flight, to device 129, which no lambda reaches, and a frame of its
own that comes back. -/
theorem wit_Forwarding :
    (∀ up ∈ [true, false], let s := if up then (sUp.setLstate 3 lsUp).setLstate 129 lsUp else sUp
      (let b := plain 3 1 8 0 []
       taken s b = true ∧ hDst b ≠ s.me ∧ hBnc b = false ∧ hHop b = false
       ∧ hType b ≠ 0 ∧ hDst b % 128 ≠ s.flight ∧ hDst b / 128 = s.reach ∧ s.lamUp 3 = up ∧ s.isLoop 3 = false)
      ∧ (let b := plain 128 1 8 0 []
         taken s b = true ∧ hDst b ≠ s.me ∧ hBnc b = false ∧ hHop b = false
         ∧ hType b ≠ 0 ∧ hDst b % 128 = s.flight ∧ hDst b / 128 = 1 ∧ s.lamUp 129 = up ∧ s.isLoop 129 = false))
    ∧ (let b := plain 129 1 8 0 []
       taken sUp b = true ∧ hBnc b = false ∧ hHop b = false ∧ hDst b % 128 ≠ sUp.flight ∧ hDst b / 128 ≠ sUp.reach)
    ∧ (let b := framed (headE2E 3 0 0 8 0 0 false false ++ linkFields 0 0 false 0 0 true)
       taken sUp b = true ∧ hDst b ≠ sUp.me ∧ hBnc b = true ∧ hSrc b = sUp.me) := by decide +kernel
/-- Lambda 1 with light, its peer's position named. -/
def sLit (st : Nat) : State :=
  let s := (sLam st).setFld (OP_LASER_A_OK 0) 1
  let s : State := { s with fab := { s.fab with enA := true } }
  s.setLam 1 { s.lam 1 with feed := some 0, peerPos := s.peerOf 1 }
theorem wit_LambdaStates : (∀ st ∈ [lsTraining, lsUp, lsRetrain, lsDown], (sLit st).lstate 1 = st ∧ (sLit st).lamUp 1 = (st == lsUp)
      ∧ (sLit st).lit 1 = true ∧ (sLit st).isLoop 1 = false ∧ ((sLit st).lam 1).feed.isSome = true
      ∧ ((sLit st).lam 1).peerPos = (sLit st).peerOf 1 ∧ ((sLit st).lam 1).querying = false)
    ∧ sUp.lit 1 = false
    ∧ (let s := sUp.setLam 1 { sUp.lam 1 with ackDue := true, resend := true }
       (s.lam 1).resend = true ∧ s.isLoop 1 = false ∧ s.lamUp 1 = true
       ∧ ((s.lam 1).ackDue || (s.lam 1).nakDue || (s.lam 1).freed.any (· != 0)) = true ∧ s.idleOut 1 ∉ s.fab.outq)
    ∧ (sUp.lamAt 1 = 1 ∧ sUp.lamUp 1 = true ∧ (1 : BitVec 8) ≠ 0 ∧ crcOk (List.replicate 20 0) = false
      ∧ crcOk (plain 0 1 0 0 []) = true) := by
  decide +kernel
theorem wit_Light : (∀ v ∈ [0, 1], let s := (sUp.setFld (OP_LASER_SRC 0) v).setFld (OP_LASER_SHUT 0) v
    s.on (OP_LASER_SRC 0) = (v == 1) ∧ s.on (OP_LASER_SHUT 0) = (v == 1) ∧ s.on HUB_RISK_DRAINED = false ∧ s.hubUp = true)
    ∧ (1 : BitVec 8) ≠ 0 ∧ sUp.isLoop 1 = false ∧ (sUp.lam 1).trained = false ∧ (sUp.lam 1).feed = none
    ∧ ((sUp.setLam 1 { sUp.lam 1 with trained := true }).lam 1).trained = true ∧ 1 ∈ lamsOfPort 0
    ∧ (sLam lsShuttered).lstate 1 = lsShuttered := by decide +kernel

/-! ### Witnesses: collectives, exchanges, steps -/

/-- Partition 0 in a step: one bucket, tensor 7 of 16 elements; slot 0 on this device, slot 1 on device 1; its first GiB
mapped by the page tables at 0x1000 and 0x2000. -/
def jobOne : JobSt := { JobSt.none with buckets := [(7, 16)], slots := [0, 1] }
def sStep : State :=
  let s := ((sUp.setFld (PART_PT_ROOT_ROOT 0) 1).wr (keyStack 0 0x1000) 8 0x2005).wr (keyStack 0 0x2000) 8 7
  ((s.setFld (STEP_STATUS_STATE 0) 1).setFld (STEP_COLL_CFG_STRAG_US 0) 100).setJob 0 jobOne
def inJob (f : JobSt → JobSt) : State := sStep.modJob 0 f
/-- Doorbell tokens of core 2 for slot 0 of the ring of section 0, and the slot's bytes: a contribution of bucket 0 at
0x4000, a descriptor of an exchange without coaches, an empty slot. -/
def bell (ch : Nat) : Word := mkTok 1 48 0 0 2 ch 0
def sRing (ch : Nat) (d : List Byte) : State := (sStep.wrB (sStep.ringKey 0 0) d).sendTok (bell ch)
def contrib : List Byte := leBytes 8 7 ++ leBytes 8 0x4000 ++ leBytes 8 16 ++ List.replicate 36 0 ++ leBytes 4 3
def exchDesc : List Byte := List.replicate 60 0 ++ leBytes 4 5
theorem wit_Doorbells : (∀ e ∈ [(1, contrib), (2, exchDesc), (1, []), (2, [])], let s := sRing e.1 e.2
      let t := bell e.1
      tokKind t = 1 ∧ 48 ≤ tokDstNode t ∧ tokDstNode t < 56 ∧ tokDstSub t = 0 ∧ tokChannel t = e.1 ∧ s.tokFirst t = true
      ∧ (s.takeTok t).secPart (tokDstNode t - 48) = some 0 ∧ (slotFreed s t 0).inStep 0 = true
      ∧ bits t.toNat 8 16 = 0 ∧ bits (wordAt (ringBytes s t 0) 0x3C) 0 1 = (if e.2 = [] then 0 else 1)
      ∧ (e.2 ≠ [] → bits (wordAt (ringBytes s t 0) 0x3C) 1 2 = e.1))
    ∧ (let s := sRing 1 contrib
       (slotFreed s (bell 1) 0).contribBad 0 (ringBytes s (bell 1) 0) = false
       ∧ (slotFreed s (bell 1) 0).contribBad 0 (List.replicate 64 0) = true
       ∧ (let t := (sRing 1 contrib).modJob 0 (fun j => { j with window := some 0, posted := [(0, 0)] })
          ((slotFreed t (bell 1) 0).job 0).window.isSome = true
          ∧ ((slotFreed t (bell 1) 0).job 0).posted.contains (bits (wordAt (ringBytes t (bell 1) 0) 4) 0 14,
            bits (wordAt (ringBytes t (bell 1) 0) 4) 14 10) = true))
    ∧ (let s := sRing 2 exchDesc
       let s1 := slotFreed s (bell 2) 0
       let d := ringBytes s (bell 2) 0
       exchBad d = false ∧ exchBad (List.replicate 4 255) = true ∧ (s1.exch 0 (xXid d)).any (fun x => x.desc.isSome) = false
       ∧ s1.listCoaches 0 (xAddr d 0x08) (xN d) = some []
       ∧ (([] : List (Nat × Nat × Nat × Nat)).all (fun c => (s1.job 0).devices.contains c.1)) = true) := by decide +kernel
/-- The list of one coach that lies beyond the mapped first GiB, and a list with an uncorrectable codeword. -/
theorem wit_CoachLists : (let s := sStep.wr (keyStack 0 0x4000) 8 (2 ^ 30)
      s.listCoaches 0 0x4000 1 = none ∧ s.listLost 0 0x4000 1 = false)
    ∧ (let s := sStep.setSymbols (burstOf (keyStack 0 0x4000)) 3
       s.listCoaches 0 0x4000 1 = none ∧ s.listLost 0 0x4000 1 = true) := by decide +kernel
/-- A frame of 16 elements of bucket 0 to slot 0 from slot `src`. -/
def collD (src kind : Nat) (late : Bool) : List Byte :=
  collHead 7 src 0 kind false late 0 0 0 ++ (if late then [] else List.replicate 64 0)
theorem wit_CollectiveFrames : ∀ e ∈ [(0, false), (1, false), (2, false), (3, false), (0, true), (1, true)],
    Passes sStep 1 (sealed 3 (collD 1 e.1 e.2)) 3 0 1 (collD 1 e.1 e.2) ∧ cKind (collD 1 e.1 e.2) = e.1
    ∧ cLate (collD 1 e.1 e.2) = e.2 := fun e h =>
  ⟨sealed_passes (by decide +kernel) (by revert e; decide +kernel), by revert e; decide +kernel, by revert e; decide +kernel⟩
theorem wit_CoachSegment : Passes sStep 1 (sealed 4 (List.replicate 16 0)) 4 0 1 (List.replicate 16 0)
    ∧ (((acceptedFrom sStep 1 (sealed 4 (List.replicate 16 0)) 0 1).job 0).devices.contains 1 = true)
    ∧ ((acceptedFrom sStep 1 (sealed 4 (List.replicate 16 0)) 0 1).job 0).appliedSent = false :=
  ⟨sealed_passes (by decide +kernel) (by decide +kernel), by decide +kernel, by decide +kernel⟩
/-- Open stages of both kinds without that input, a frame of no bucket, and both sources. -/
theorem wit_CollIn : let s := inJob (fun j => { j with window := some 0 })
    s.stepping 0 = true ∧ (s.job 0).appliedSent = false ∧ (s.job 0).window.isSome = true ∧ (s.job 0).ins = []
    ∧ s.collOpen 0 (s.stepNum 0) (collD 1 0 false) = true ∧ s.collOpen 0 (s.stepNum 0) (collD 128 1 false) = true
    ∧ s.collOpen 0 (s.stepNum 0) [] = false := by decide +kernel
/-- A stream of virtual addresses on core 2, whose page table has a bad codeword. -/
theorem wit_StreamLost : let s := ((sStep.setTaskState 2 tkRunning).setStream 2 0 (opened 0)).setSymbols (burstOf (keyStack 0 0x1000)) 3
    let st := s.stream 2 0
    s.taskRuns 2 = true ∧ st.isOpen = true ∧ st.closing = false ∧ st.credits ≠ 0 ∧ st.requested < st.chunks ∧ st.isRead = true
    ∧ (match s.rowsKeys 2 st (st.rowParts (st.chunkEls 0)) with
      | (_, _, fs, _, u) => (u.lostWalk 2 (fs.map (fun e => ⟨e.code, 0, none, e.addr⟩))).isSome = true) := by decide +kernel
def span0 : TSpan := ⟨0, 0, 0, [], false, false⟩
theorem wit_Spans : ∀ site ∈ [0, 1],
    let s := (inJob (fun j => { j with spans := [span0] })).setFld (STEP_UPD_CFG_DENSE_SITE 0) site
    let elem := 0 * chunkQ ((s.job 0).len 0) + 0 * s.spanLen 0
    (s.job 0).spans.find? (fun y => y.bucket == 0 && y.chunk == 0 && y.elem == elem && !y.updated) = some span0
    ∧ s.spanReady 0 site 0 = true ∧ 0 % 8 = (0 : Fin 8).val ∧ (s.readKeys (8 - site) (s.spanReads 0 0 0 elem span0)).1 ≠ none := by
  decide +kernel
/-- The weights of chunk 0 stand at 0x8000, where the codeword is bad. -/
theorem wit_SpanLost : ∀ site ∈ [0, 1], let x : TSpan := { span0 with codes := [0] }
    let s := ((inJob (fun j => { j with spans := [x] })).setFld (STEP_UPD_CFG_DENSE_SITE 0) site).setFld (STEP_UPD_CFG_NMAP 0) 1
    let s := ((s.setFld (STEP_UPD_TABLES_MAP 0) 0x6000).setFld (STEP_UPD_TABLES_GROUPS 0) 0x7000).setSymbols (burstOf (keyStack 0 0x8000)) 3
    let s := (s.wr (keyStack 0 0) 8 0x8000).wr (keyStack 0 0x2C) 4 (2 ^ 24)
    let elem := 0 * chunkQ ((s.job 0).len 0) + 0 * s.spanLen 0
    (s.job 0).spans.find? (fun y => y.bucket == 0 && y.chunk == 0 && y.elem == elem && !y.updated) = some x
    ∧ s.spanReady 0 site 0 = true ∧ (s.readKeys (8 - site) (s.spanReads 0 0 0 elem x)).1 = none := by decide +kernel
theorem wit_Stragglers : let s := inJob (fun j => { j with window := some 0 })
    s.stepping 0 = true ∧ (s.job 0).window.isSome = true ∧ (s.job 0).windowShut = false
    ∧ (s.job 0).late.length + ((s.job 0).hosted s.me).length * (s.job 0).buckets.length ≤ 65536 ∧ (s.job 0).hosted s.me = [0]
    ∧ (0, 0) ∉ (s.job 0).posted := by decide +kernel
/-- A message of device 1 that is whole in one frame, and one of the device to itself. -/
def msg (form kind : Nat) : List Byte := msgHead 0 0 false form kind false 0 ++ List.replicate 624 0
def sOwn (s : State) (form kind : Nat) : State := { s with fab := { s.fab with own := [(0, 2, msg form kind)] } }
/-- Every kind of message: its FORM, MSG and name. -/
def kinds : List (Nat × Nat × MKind) := [(0, 0, .vote), (1, 0, .groupVote), (2, 0, .verdict), (0, 1, .applied), (1, 1, .groupApplied),
  (0, 2, .commit), (0, 3, .rollback), (0, 4, .abort), (0, 5, .resolve), (0, 6, .state)]
theorem wit_Messages : ∀ e ∈ kinds, let d := msg e.1 e.2.1
    let b := sealed 2 d
    MsgTaken (sOwn sStep e.1 e.2.1) .own e.2.2 0 0 d sStep
    ∧ MsgTaken sStep (.lambda 1 b) e.2.2 0 (hSrc b) d ((acceptedFrom sStep 1 b 0 1).modJob 0 (fun j => { j with
        parts := j.parts.filter (fun x => !MsgPieces.of (hSrc b) d x) })) := by
  intro e h
  refine ⟨⟨by unfold Clocked; revert e; decide +kernel, by revert e; decide +kernel, by revert e; decide +kernel, by revert e; decide +kernel⟩,
    by unfold Clocked; decide +kernel, 1, msg e.1 e.2.1, sealed_passes (by decide +kernel) (by revert e; decide +kernel), rfl, ?_, ?_, rfl⟩
  · revert e; decide +kernel
  · revert e; decide +kernel
/-- What the statements ask of the state without the message. -/
theorem wit_StepMessages : (∀ e ∈ kinds, let d := msg e.1 e.2.1
      sStep.nowStep 0 d = true ∧ sStep.openStep 0 d = true ∧ (sStep.job 0).groupHost (mSlot d) = sStep.me
      ∧ (sStep.job 0).voteAt 0 (mSlot d) = none ∧ (sStep.job 0).voteAt 1 (mSlot d) = none ∧ (sStep.job 0).appAt 0 (mSlot d) = none
      ∧ (sStep.job 0).appAt 1 (mSlot d) = none ∧ mSlot d % 128 = 0)
    ∧ (sStep.job 0).hostOf 0 = sStep.me ∧ (sStep.job 0).coord = sStep.me ∧ sStep.on (STEP_VOTE_VALID 0) = false
    ∧ (let s := inJob (fun j => { j with appliedSent := true, resolveStep := some 0 })
       (s.job 0).appliedSent = true ∧ ((s.relay 0 (msg 0 2)).job 0).restore = none ∧ (s.job 0).resolveStep = some (mStep (msg 0 6))
       ∧ (s.job 0).states.any (fun e => e.1 == 0) = false) := by decide +kernel
/-- The job waits to start, has a faulted or full step, has applied; it has no bucket, so nothing is left to sum. -/
def sReduce : State := inJob (fun j => { j with buckets := [], phase := .reduce })
theorem wit_Steps :
    (sStep.stepping 0 = true ∧ sStep.on (STEP_CFG_SERVE 0) = false ∧ (sStep.job 0).phase ≠ .reduce
      ∧ (sStep.job 0).phase ≠ .committing ∧ (sStep.job 0).running = [] ∧ (sStep.job 0).hotDue = [])
    ∧ sReduce.voteReady 0 = true
    ∧ (let s := sReduce.setFld (STEP_VOTE_VALID 0) 1
       s.stepping 0 = true ∧ s.abortWhy 0 = 0 ∧ s.appliedReady 0 = true)
    ∧ (let s : State := { sStep with b := { sStep.b with jnlFail := [0] } }
       s.stepping 0 = true ∧ s.abortWhy 0 ≠ 0 ∧ (s.job 0).abortCause = 0)
    ∧ (let s := sStep.setJstate 0 jsApplied 0
       s.partState 0 = ptStarted ∧ s.on (STEP_CFG_SERVE 0) = false ∧ s.jstate 0 = jsApplied
       ∧ (s.job 0).slots.any (s.job 0).lost.contains = false ∧ s.standing = false ∧ s.hubUp = true ∧ s.jstate 0 ≠ jsStopped)
    ∧ (sStep.setFld (STEP_CFG_SERVE 0) 1).on (STEP_CFG_SERVE 0) = true := by decide +kernel

/-! ### Witnesses: failures -/

/-- A segment of a snapshot: FORM, drainer 1, part 0. -/
def seg (form len : Nat) : List Byte := leBytes 4 form ++ leBytes 4 1 ++ List.replicate (len - 8) 0
/-- A drain of partition 0 that device 1 is the first candidate for. -/
def drain0 : Drain := ⟨0, 0, [1], [], 1⟩
def sDrain : State := { sStep with j := { sStep.j with drains := [drain0] } }
theorem wit_Snapshots : ∀ form ∈ [0, 1, 2, 3], let d := seg form 17
    Passes sDrain 1 (sealed 5 d) 5 0 1 d ∧ sgForm d = form ∧ 16 < d.length
    ∧ (form = 0 → sgDrainer d = hSrc (sealed 5 d))
    ∧ (let a := acceptedFrom sDrain 1 (sealed 5 d) 0 1
       a.j.drains.find? (fun y => y.part == 0) = some drain0 ∧ drain0.cands.head? = some (hSrc (sealed 5 d))
       ∧ drain0.acked.contains (sgPart d) = false ∧ sgPart d < drain0.count) := by
  intro form h
  refine ⟨sealed_passes (by decide +kernel) (by revert form; decide +kernel), ?_⟩
  revert form; decide +kernel
theorem wit_Failures :
    (sUp.dieUp = true ∧ sUp.on FAB_POS_VALID = true ∧ 3 ≠ sUp.me ∧ sUp.routeOf 3 = none
      ∧ (let s := inJob (fun j => { j with slots := [0, 3] })
         s.routeOf 3 = none ∧ s.partState 0 = ptStarted ∧ (s.job 0).slots.contains 3 = true))
    ∧ up.hubUp = true
    ∧ (∀ n ∈ [0, 3], let s := (up.setFld HUB_RISK_DRAIN_REQ 1).modJob 0 (fun j => { j with absorbing := n == 3 })
       s.dieUp = true ∧ s.on HUB_RISK_DRAIN_REQ = true ∧ s.on HUB_RISK_DRAINED = false ∧ s.j.drains = []
       ∧ s.drainBlocked = (n == 3) ∧ ((List.range 8).filter (fun p => s.partState p == ptStarted)).all
        (fun p => s.atRest p && (s.job p).ckWait.isNone) = true) := by decide +kernel

/-! ### Witnesses: rings and host commands -/

/-- Ring 0 of function 0 runs with 16 entries; its head stands at a command at host address 0, an ECHO. -/
def sRings : State :=
  let s := (((up.setFld (HUB_RING_CTRL_EN 0 0) 1).setFld (HUB_RING_CTRL_LOG2N 0 0) 4).setFld HUB_FW_STATUS_READY 1).wr
    (keyHost 0) 8 0x0803
  { s with h := { s.h with tails := [(0, 1)] } }
theorem wit_CompletionHead : sRings.hubUp = true ∧ sRings.on (HUB_RING_CTRL_EN (0 : Fin 9) (0 : Fin 64)) = true
    ∧ sRings.on (HUB_RING_STAT_ERROR (0 : Fin 9) (0 : Fin 64)) = false
    ∧ (15 : BitVec 16).toNat < 2 ^ sRings.fld (HUB_RING_CTRL_LOG2N (0 : Fin 9) (0 : Fin 64))
    ∧ 2 ^ sRings.fld (HUB_RING_CTRL_LOG2N (0 : Fin 9) (0 : Fin 64)) ≤ (16 : BitVec 16).toNat := by decide +kernel
/-- A function whose partition is FREE takes no request; PF0 does. -/
theorem wit_FnShut : sRings.fnShut ⟨0, false⟩ = false ∧ up.fnShut ⟨1, true⟩ = true := by decide +kernel
/-- A function that must come on its stream: with its key a request on the stream is taken, one beside it is not. -/
theorem wit_Ide : let s := sPart.setFld (PART_CFG_IDE_REQUIRED 0) 1
    let t : State := { s with sec := { s.sec with ide := Tab.put s.sec.ide [] 1 [1] } }
    t.fnShut ⟨1, true⟩ = false ∧ t.fnShut ⟨1, false⟩ = true ∧ s.fnShut ⟨1, true⟩ = true := by decide +kernel
theorem wit_Rings : (15 : BitVec 16).toNat < sRings.ringN 0 0 ∧ sRings.ringN 0 0 ≤ (16 : BitVec 16).toNat
    ∧ (∀ lg ∈ [4, 16], let w : Word := BitVec.ofNat 64 (1 + 2 * lg)
       bit w.toNat 0 = true ∧ up.on (HUB_RING_CTRL_EN 0 0) = false ∧ bits w.toNat 1 5 = lg)
    ∧ sRings.nextRing = some (ringKeyOf 0 0) ∧ packetStatus ⟨0, 0, sRings.headPacket 0 0⟩ = stOk
    ∧ (let s := sRings.setFld (HUB_RING_CTRL_IRQ_EN 0 0) 1
       let s : State := { s with h := { s.h with uncovered := [(0, 1)], msix := [(12, 1)] } }
       s.on (HUB_RING_CTRL_IRQ_EN 0 0) = true ∧ Tab.get s.h.uncovered 0 (ringKeyOf 0 0) ≠ 0
       ∧ (let c := (s.setFld (HUB_RING_CTRL_COAL_US 0 0) 1).setFld (HUB_RING_CTRL_COAL_COUNT 0 0) 2
          s.fld (HUB_RING_CTRL_COAL_US 0 0) ≤ s.timeUs ∧ Tab.get s.h.oldest 0 (ringKeyOf 0 0) = 0
          ∧ ¬ (Tab.get c.h.oldest 0 (ringKeyOf 0 0) + c.fld (HUB_RING_CTRL_COAL_US 0 0) ≤ c.timeUs)
          ∧ Tab.get c.h.uncovered 0 (ringKeyOf 0 0) < c.fld (HUB_RING_CTRL_COAL_COUNT 0 0))
       ∧ s.vecMasked 0 (s.fld (HUB_RING_CTRL_VECTOR 0 0)) = false) := by decide +kernel

/-- A command of PF0 on partition 0, by opcode, length, data address and parameters, as the only one that has started. -/
def hcmd (op len data : Nat) (ps : List Nat) : HostCmd :=
  ⟨0, 0, BitVec.ofNat 512 (op + len * 2 ^ 64 + data * 2 ^ 128 + packElems 64 ps * 2 ^ 192)⟩
def began (c : HostCmd) : Started := ⟨c, 0, 0, .none⟩
def sCommand (s : State) (c : HostCmd) : State := { s with h := { s.h with started := [began c] } }
/-- Whether the command alone is `Served`. -/
def served (s : State) (op len data : Nat) (ps : List Nat) : Bool :=
  let c := hcmd op len data ps
  let s := sCommand s c
  s.h.started.find? (fun y => y.cmd == c) == some (began c) && s.hubUp && cOp c == op && !s.mustWait (began c)
    && (!s.standing || onStand op)
    && (!(opUse op).any OpUse.usesPart || decide (s.partState (cPart c) ≠ ptFenced) || onFenced op)
theorem served_iff (s : State) (op len data : Nat) (ps : List Nat) : served s op len data ps = true ↔
    Served (sCommand s (hcmd op len data ps)) (began (hcmd op len data ps)) op := by
  simp [served, Served, began, and_assoc, or_assoc]
/-- Partition 0 of `sStep` with its job at rest. -/
def sRest : State := sStep.setJstate 0 jsIdle 0
/-- The first GiB is mapped; 2^30 is not; the burst at 0x4000 is bad in `sBad`. -/
def sBad : State := sRest.setSymbols (burstOf (keyStack 0 0x4000)) 3
theorem wit_MemTransfers : (∀ va ∈ [0x4000, 2 ^ 30], served sRest 0x0200 64 64 [va] = true ∧ served sRest 0x0201 64 64 [va] = true
      ∧ served sRest 0x0202 0 0 [va, 64] = true ∧ sRest.partState 0 ≠ ptFree ∧ va % 64 = 0
      ∧ (let r : MRes := if va = 0x4000 then .done else .fault va
         (State.units 0 true (memWriteUnit (hcmd 0x0200 64 64 [va]) 0) 1 va (sCommand sRest (hcmd 0x0200 64 64 [va]))).1 = r
         ∧ (State.units 0 false (memReadUnit (hcmd 0x0201 64 64 [va])) 1 va (sCommand sRest (hcmd 0x0201 64 64 [va]))).1 = r
         ∧ (State.units 0 true (memFillUnit (hcmd 0x0202 0 0 [va, 64]) 0) 1 va (sCommand sRest (hcmd 0x0202 0 0 [va, 64]))).1 = r))
    ∧ sRest.hubTranslate 0 0x4000 = some (keyStack 0 0x4000, true) ∧ sRest.tableWaits 0 0x4000 = false ∧ keyStack 0 0x4000 % 64 = 0
    ∧ served sBad 0x0201 64 64 [0x4000] = true
    ∧ (State.units 0 false (memReadUnit (hcmd 0x0201 64 64 [0x4000])) 1 0x4000 (sCommand sBad (hcmd 0x0201 64 64 [0x4000]))).1 = .ue := by
  decide +kernel
theorem wit_PageRoot : served sRest 0x0203 0 0 [0x3000] = true ∧ cP (hcmd 0x0203 0 0 [0x3000]) 0 = 0x3000 ∧ sRest.atRest 0 = true
    ∧ served sRest 0x0204 0 0 [2 ^ 28] = true ∧ cP (hcmd 0x0204 0 0 [2 ^ 28]) 0 = 2 ^ 28 := by
  decide +kernel
theorem wit_DegreeBin : let c := hcmd 0x0205 0 0 [0x4000, 1, 0x5000, 0x6000]
    let s := sCommand sRest c
    served sRest 0x0205 0 0 [0x4000, 1, 0x5000, 0x6000] = true ∧ cP c 0 % 16 = 0 ∧ cP c 2 % 8 = 0 ∧ cP c 3 % 4 = 0 ∧ cP c 1 = 1
    ∧ s.firstBad 0 false (cP c 0) (16 * 1) = none ∧ s.firstBad 0 true (cP c 2) (8 * 1) = none ∧ s.firstBad 0 true (cP c 3) 136 = none
    ∧ (match s.hubRead 7 0 (cP c 0) (16 * 1) with
      | (some b, s1) =>
        let w := numsOf 8 (2 * 1) b
        let l := (List.range 1).map (fun i => (w.getD (2 * i) 0, w.getD (2 * i + 1) 0))
        decide (∀ e ∈ l, e.2 < 2 ^ 32) && (match s1.hubWrite 7 0 (cP c 2) (binRows l).1 with
          | (true, s2) => (s2.hubWrite 7 0 (cP c 3) (binRows l).2).1
          | _ => false)
      | _ => false) = true := by
  decide +kernel
/-- The aperture of partition 0 enabled at virtual address 0. -/
def sAper : State := sStep.setFld (PART_APERTURE_EN 0) 1
theorem wit_Aperture : sAper.hubUp = true ∧ sAper.standing = false ∧ sAper.apertureShut ⟨1, false⟩ = false
    ∧ (sAper.hubRead 7 0 (sAper.apertureVa 0 0x4000) 4).1 = some (List.replicate 4 0)
    ∧ sAper.firstBad 0 true (sAper.apertureVa 0 0x4000) 4 = none
    ∧ (sAper.hubWrite 7 0 (sAper.apertureVa 0 0x4000) (List.replicate 4 1)).1 = true
    ∧ ((sAper.setFld (PART_APERTURE_BASE 0) 4).firstBad 0 true ((sAper.setFld (PART_APERTURE_BASE 0) 4).apertureVa 0 0) 4).isSome = true := by
  decide +kernel
/-- A job that is paused for a checkpoint and hosts no slot here, and a job that lost a device and stopped. -/
def sPaused : State := (sRest.modJob 0 (fun j => { j with slots := [1], ckWait := some 0 })).setJstate 0 jsPaused 0
def sLost : State := sRest.setJstate 0 jsStopped jcLost
theorem wit_Checkpoints :
    (served sPaused 0x0600 0 0 [0] = true ∧ sPaused.partState 0 = ptStarted
      ∧ (let s := sCommand sPaused (hcmd 0x0600 0 0 [0])
         (s.job 0).ckWait.isSome = true))
    ∧ (let s := sRest.setFld (STEP_CKPT_CFG_TRUST_OK 0) 1
       served s 0x0601 0 0 [0, 1] = true ∧ s.atRest 0 = true ∧ (s.job 0).restore = none ∧ (s.job 0).rejected = none
       ∧ bit (cP (hcmd 0x0601 0 0 [0, 1]) 1) 0 = true ∧ s.on (STEP_CKPT_CFG_TRUST_OK 0) = true)
    ∧ (∀ v ∈ [0, 1], served (sRest.setFld HUB_RISK_DRAINED v) 0x0602 0 0 [] = true ∧ (sRest.setFld HUB_RISK_DRAINED v).on HUB_RISK_DRAINED = (v == 1))
    ∧ (served sLost 0x0603 0 0 [0, 0] = true ∧ sLost.partState 0 = ptStarted ∧ (sLost.job 0).restore = none ∧ sLost.jstate 0 = jsStopped
      ∧ sLost.fld (STEP_STATUS_CAUSE 0) = jcLost ∧ (sCommand sLost (hcmd 0x0603 0 0 [0, 0])).redistBad 0 0 0 [] = none) := by
  decide +kernel
/-- A table of id 9 at 0x8000 in slot 0 of cluster 0. -/
def sReplace : State := ((sRest.wr (keyStack 0 0x8002) 2 9).setFld (CL_TABLE_VALID 0 0) 1).setFld (CL_TABLE_DESC 0 0) 0x200
/-- A serving job with a ledger of 1 MiB. -/
def sServe : State := (sRest.setFld (STEP_CFG_SERVE 0) 1).setFld (STEP_LEDGER_SIZE 0) 1
theorem wit_JobCommands : sRest.partState 0 = ptStarted
    ∧ served sRest 0x0301 0 0 [] = true ∧ sRest.atRest 0 = true ∧ served sStep 0x0301 0 0 [] = true ∧ sStep.atRest 0 = false
    ∧ (sCommand sStep (hcmd 0x0301 0 0 [])).h.held.contains (hcmd 0x0301 0 0 []) = false
    ∧ (let s := sRest.setJstate 0 jsStopped jcHost
       served s 0x0302 0 0 [] = true ∧ s.jstate 0 = jsStopped ∧ s.fld (STEP_STATUS_CAUSE 0) = jcHost)
    ∧ served sStep 0x0400 0 0 [3] = true ∧ sStep.jstate 0 ≠ jsIdle
    ∧ sRest.partState 0 = ptStarted := by
  decide +kernel
theorem wit_ServingAndTables : (served sServe 0x0401 0 0 [0, 0, 0, 0] = true ∧ sServe.on (STEP_CFG_SERVE 0) = true ∧ (sServe.job 0).serving = none
      ∧ sServe.jstate 0 ≠ jsStopped ∧ (sServe.job 0).hotDue = [] ∧ sServe.firstBad 0 false 0 0 = none ∧ sServe.ledgerRoom 0 = true)
    ∧ served sRest 0x0402 64 64 [0] = true
    ∧ (served sReplace 0x0500 0 0 [9, 0x9000] = true ∧ (sReplace.replaceTable 0 9 0x9000).2.1 = stOk)
    ∧ (let s := sReplace.hubSeen 7 0 0x9000 0
       served sReplace 0x0501 0 0 [9, 0x9000, 0] = true ∧ rowList s 0 0x9000 0 = some [] ∧ rising [] = true
      ∧ sReplace.waitsTable (hcmd 0x0501 0 0 [9, 0x9000, 0]) 0 = false ∧ (s.jobTables 0).any (fun d => tblId d == 9) = true) := by
  decide +kernel
/-- A batch whose tasks have ended. -/
theorem wit_ServeEnd : let s := sServe.modJob 0 (fun j => { j with serving := some (hcmd 0x0401 0 0 [0, 0, 0, 0]).packet })
    served s 0x0401 0 0 [0, 0, 0, 0] = true ∧ (s.job 0).serving = some (hcmd 0x0401 0 0 [0, 0, 0, 0]).packet ∧ (s.job 0).running = [] := by
  decide +kernel

/-! JOB_LOAD: a manifest without items, and one of the feed map at virtual address 0x10000. -/

def sBuild : State :=
  let s := sRest.setFld (PART_STATUS_STATE 0) ptBuilding
  let s : State := { s with sec := { s.sec with ckKey := s.sec.fabKey } }
  (s.wr (keyStack 0 0x10000) 1 0x80).wrB (keyHost 64) (leBytes 4 1 ++ leBytes 4 1 ++ List.replicate 56 0 ++ leBytes 8 5 ++ leBytes 8 0x10000)
theorem wit_JobLoad : ∀ n ∈ [0, 1], let c := hcmd 0x0300 (64 + 32 * n) 64 []
    let s := sCommand (sBuild.wrB (keyHost 68) (leBytes 4 n)) c
    let b := s.rdB (keyHost (cData c)) (cLen c)
    served (sBuild.wrB (keyHost 68) (leBytes 4 n)) 0x0300 (64 + 32 * n) 64 [] = true ∧ s.partState 0 = ptBuilding
    ∧ cLen c = 64 + 32 * itF b 4 4 ∧ itF b 0 2 = 1 := by
  decide +kernel

/-! ### Witnesses: security -/

/-- Generation 0 of the settings burnt, with MOOR, OPVIS and operating points up to 2 allowed. -/
def sSettings : State :=
  let s := up.setFld SEC_OTP_GEN_SET 0
  { s with sec := { s.sec with otp := s.sec.otp.wrLE 0xC0 1 0x15 } }
theorem wit_PartitionCommands : (∀ w ∈ [1, 0x101], served sSettings 0x0100 0 0 [w] = true ∧ sSettings.partState 0 = ptFree
      ∧ bits (cP (hcmd 0x0100 0 0 [w]) 0) 0 8 = 1 ∧ (∀ i ∈ secsOf 1, sSettings.secPart i = none) ∧ bit sSettings.settingsWord 4 = true
      ∧ sSettings.on SEC_BOOT_IDENT_EXHAUSTED = false)
    ∧ served sRest 0x0101 0 0 [] = true ∧ sRest.partState 0 = ptStarted ∧ served sBuild 0x0101 0 0 [] = true ∧ sBuild.partState 0 = ptBuilding
    ∧ served sRest 0x0102 0 0 [] = true ∧ served sRest 0x0103 0 0 [] = true := by
  decide +kernel
theorem wit_PartStart : sBuild.hubUp = true ∧ sBuild.standing = false ∧ sBuild.startOk 0 = true
    ∧ (let s : State := { sBuild with sec := { sBuild.sec with tokens := [(16, 1, [])] } }
       s.debugs 4 (0 : Fin 8) = true) := by decide +kernel
/-- A key blob of 32 bytes with SEQ 1, for the fabric key or the checkpoint key. -/
def sBlob (kind : Nat) : State :=
  let s := sBuild.wrB (keyHost 0x1000) (leBytes 2 kind ++ leBytes 2 32 ++ leBytes 4 1)
  { s with sec := { s.sec with tk := [(0, [1])] } }
theorem wit_Keys : served sRest 0x0705 0 0 [] = true ∧ sRest.partState 0 = ptStarted ∧ sRest.on (PART_KEY_SWEEP 0) = false
    ∧ served sRest 0x0701 1568 0x1000 [] = true ∧ served sRest 0x0702 0 0 [] = true ∧ served sRest 0x0703 1568 0x1000 [] = true
    ∧ (∀ kind ∈ [1, 2], let c := hcmd 0x0704 56 0x1000 []
       let b := (sCommand (sBlob kind) c).rdB (keyHost (cData c)) (cLen c)
       served (sBlob kind) 0x0704 56 0x1000 [] = true ∧ cLen c = leNat ((b.drop 2).take 2) + 24 ∧ leNat (b.take 1) = kind
       ∧ leNat ((b.drop 1).take 1) = 0 ∧ (sBlob kind).partState 0 = ptBuilding ∧ Tab.get (sBlob kind).sec.tk [] 0 ≠ []
       ∧ leNat ((b.drop 2).take 2) = 32 ∧ Tab.get (sBlob kind).sec.tkSeq 0 0 < leNat ((b.drop 4).take 4))
    ∧ served up 0x070B 64 0x1000 [] = true := by
  decide +kernel
theorem wit_Boot : (∀ st ∈ [0, 1, 2, 3], (up.setFld SEC_BOOT_STATE st).fld SEC_BOOT_STATE = st
      ∧ (up.setFld SEC_BOOT_STATE st).hubUp = true)
    ∧ bit (1 : Word).toNat 0 = true
    ∧ (let s := up.setFld SEC_BOOT_STATE 2
       s.on HUB_FW_STATUS_READY = false ∧ s.sec.work = none ∧ s.nextLeaf = some 0 ∧ s.sec.sigs = []
       ∧ (s.sec.otp.rd 0xA0).toNat.testBit 0 = true) := by decide +kernel
/-- One record in the ledger, and an identity that may sign. -/
def sQuote (ready : Bool) : State :=
  let s := (sRest.setFld (STEP_LEDGER_IDX_NEXT 0) 1).setFld SEC_BOOT_IDENT_READY (b2n ready)
  { s with sec := { s.sec with work := some 0, fwSvn := 3 } }
/-- A debug token without capabilities for generation 7, at host address 0x1000. -/
def sToken : State := up.wrB (keyHost 0x1000) (leBytes 4 1 ++ leBytes 4 7)
theorem wit_Identity : (∀ r ∈ [true, false], served (sQuote r) 0x0700 5876 0x1000 [0, 0, 0, 0, 0] = true ∧ (sQuote r).nextIdx 0 ≠ 0
      ∧ (sQuote r).signable = r ∧ (sQuote r).signFails = false)
    ∧ served sRest 0x0706 4096 0x1000 [] = true
    ∧ served (sQuote true) 0x0707 0 0 [] = true ∧ (sQuote true).fld SEC_OTP_GEN_SVN < (sQuote true).sec.fwSvn ∧ (sQuote true).sec.fwSvn ≤ 64
    ∧ served up 0x0708 64 0x1000 [] = true ∧ served up 0x070A 0 0 [] = true
    ∧ (let t := ((sCommand sToken (hcmd 0x0709 65 0x1000 [])).rdB (keyHost 0x1000) 65).take 64
       let f (o n : Nat) : Nat := leNat ((t.drop o).take n)
       served sToken 0x0709 65 0x1000 [] = true ∧ f 0 2 = 1 ∧ f 2 1 < 32 ∧ f 4 4 < 8 ∧ f 0x20 0x20 = 0
       ∧ f 4 4 = sToken.fld SEC_OTP_GEN_OPK ∧ f 0x18 8 = sToken.fld SEC_BOOT_NONCE_NONCE) := by
  decide +kernel

/-! ### Witnesses: errors -/

/-- A report in the intake, and a log of `n` equal entries whose windows are open. -/
def rep (detail cls : Nat) : Report := ⟨detail, cls, 0, 0, none⟩
def ent (detail : Nat) : LogEnt := ⟨0, rep detail clsNotice, 1, 0, 0, true, false⟩
def sLog (n : Nat) : State := { up with e := { up.e with intake := [rep 1 clsNotice], log := List.replicate n (ent 2) } }
theorem wit_ReportLog :
    (let s : State := { sLog 0 with e := { (sLog 0).e with log := [ent 1] } }
     s.e.log.any (LogEnt.merges (rep 1 clsNotice)) = true ∧ s.e.log.find? LogEnt.windowOpen = some (ent 1))
    ∧ ((sLog 1).e.log.any (LogEnt.merges (rep 1 clsNotice)) = false ∧ 64 ≤ (sLog 1).logFree ∧ (sLog 1).e.log.length < 4096
      ∧ ((sLog 1).e.log.filter LogEnt.windowOpen).length < 64)
    ∧ (sLog 4033).e.log.any (LogEnt.merges (rep 1 clsNotice)) = false ∧ (sLog 4033).logFree < 64 ∧ (rep 1 clsNotice).cls ≤ clsNotice := by
  decide +kernel
/-- The mirror enabled, its next entry final. -/
theorem wit_Mirror : let s := (up.setFld ERR_MIRROR_CFG_EN 1).setFld ERR_MIRROR_CFG_LOG2N 6
    let e : LogEnt := { ent 1 with windowOpen := false }
    let s : State := { s with e := { s.e with log := [e] } }
    s.hubUp = true ∧ s.on ERR_MIRROR_CFG_EN = true ∧ (s.fld ERR_MIRROR_TAIL_TAIL + 1) % s.mirrorN ≠ s.fld ERR_MIRROR_HEAD_HEAD % s.mirrorN
    ∧ s.e.log.find? (fun e => !e.mirrored) = some e ∧ e.windowOpen = false := by decide +kernel
/-- A complete dump of no bytes in slot 0. -/
def sDump : State := (up.wr (up.slotKey 0) 2 1).wr (up.slotKey 0 + 2) 1 1
theorem wit_Diagnostics : (∀ k ∈ [6, 16], served up 0x0800 0 0 [64, 2 ^ k] = true ∧ cP (hcmd 0x0800 0 0 [64, 2 ^ k]) 0 = 64
      ∧ cP (hcmd 0x0800 0 0 [64, 2 ^ k]) 1 = 2 ^ k)
    ∧ served sDump 0x0801 64 0x1000 [] = true ∧ sDump.bestSlot = some 0 ∧ sDump.rd (sDump.slotKey 0 + 0x58) 8 ≤ 64
    ∧ served up 0x0802 0 0 [2] = true ∧ cP (hcmd 0x0802 0 0 [2]) 0 = 2 ∧ served up 0x0803 0 0 [1] = true := by
  decide +kernel
theorem wit_DetectedErrors : up.awake = true ∧ up.pm.pwrGood = true ∧ up.hubUp = true
    ∧ (∀ v ∈ [0, 1], ((up.setFld (ERR_FATAL_VALID 0) v).on (ERR_FATAL_VALID 0) = (v == 1)))
    ∧ sPart.clusterPart 0 = some 0 ∧ tS.awake = true ∧ tS.clusterPart 0 = none
    ∧ tS.threadReady (2 : Fin 800) (0 : Fin 16) = true ∧ tS.turn (2 : Fin 800) (0 : Fin 16) = true ∧ tS.pc 2 0 = 0 / 8
    ∧ (sMxm (mxW (instrWord 2 0 fMxm) true false [])).engineReader (.plane 0 0 0) = some 5
    ∧ (let s := (up.setFld ERR_FAILSAFE_ACTIVE 1).setFld ERR_FAILSAFE_DUMP_STATE 1
       s.awake = true ∧ s.on ERR_FAILSAFE_ACTIVE = true ∧ s.fld ERR_FAILSAFE_DUMP_STATE = 1) := by decide +kernel

/-! ### Witnesses: power, resets, SMBus, registers -/

theorem wit_Throttle : let s := up
    s.dieUp = true ∧ s.fld PM_THROT_T_HI + 1 < 2 ^ 8 ∧ s.fld PM_THROT_T_HI < s.fld PM_THROT_T_HI + 1
    ∧ (0 < s.fld PM_THROT_T_LO ∧ 0 * 100 < s.ceiling * 95 ∧ ¬ (s.fld PM_THROT_T_HI < 0 ∨ s.ceiling < 0))
    ∧ (let tj := s.fld PM_THROT_T_LO
       ¬ (s.fld PM_THROT_T_HI < tj ∨ s.ceiling < 0) ∧ ¬ (tj < s.fld PM_THROT_T_LO)) := by decide +kernel
theorem wit_Clocks :
    (let s : State := { up with pm := { up.pm with want := 1100 } }
     s.dieUp = true ∧ s.pm.want ≠ 0 ∧ s.pm.want < 2 ^ 11 ∧ s.mx.mxms.any Mxm.started = false)
    ∧ (let s := up.setFld PM_CTRL_SLACK_EN 1
       s.hubUp = true ∧ s.on PM_CTRL_SLACK_EN = true ∧ s.pm.gated.contains (0 : Fin 58).val = false ∧ s.islandIdle (0 : Fin 58) = true)
    ∧ (∀ op ∈ [0, 1, 2], served up 0x0900 0 0 [op] = true ∧ cP (hcmd 0x0900 0 0 [op]) 0 = op ∧ op ≤ up.opMax
      ∧ (sCommand up (hcmd 0x0900 0 0 [op])).pm.opCmds.contains (hcmd 0x0900 0 0 [op]) = false)
    ∧ served up 0x0901 0 0 [1, 2 ^ 32 - 1] = true ∧ cP (hcmd 0x0901 0 0 [1, 2 ^ 32 - 1]) 1 < 2 ^ 32
    ∧ (∀ v ∈ [0, 1], served sSettings 0x0902 0 0 [v] = true) ∧ bit sSettings.settingsWord 0 = true
    ∧ served up 0x0903 0 0 [] = true ∧ (∀ p, p < 8 → up.partState p = ptFree) := by
  decide +kernel
/-- PM_CTRL.STATE and the latched wake. -/
def sPm (st wake : Nat) : State :=
  let s := up.setFld PM_CTRL_STATE st
  { s with pm := { s.pm with wake := wake } }
theorem wit_Sleep :
    ((up.setFld PM_IDLE_TIMER_STAND_MS 1).mayStand = true ∧ up.fld PM_CTRL_STATE = 0)
    ∧ (∀ st ∈ [1, 2, 4], (sPm st 0).hubUp = true ∧ (sPm st 0).fld PM_CTRL_STATE = st ∧ (sPm st 0).pm.heldReq = [] ∧ (sPm st 0).pm.wake = 0)
    ∧ (let s := ((sPm 2 0).setFld PM_CTRL_MOOR_EN 1).setFld PM_IDLE_TIMER_MOOR_S 1
       s.pm.released = true ∧ s.pm.moor = false ∧ s.on ERR_FAILSAFE_ACTIVE = false ∧ s.fld PM_CTRL_STATE = 2
       ∧ s.on PM_CTRL_MOOR_EN = true ∧ s.on PM_IDLE_TIMER_MOOR_S = true ∧ s.pm.wake = 0 ∧ (∀ p, p < 8 → s.partState p = ptFree)
       ∧ s.on PM_WAKE_TIMER_S = false)
    ∧ ((sPm 3 0).fld PM_CTRL_STATE = 3 ∧ (sPm 3 0).pm.released = true ∧ (sPm 3 0).pm.moor = false)
    ∧ (let s : State := { sPm 3 1 with pm := { (sPm 3 1).pm with moor := true } }
       s.pm.moor = true ∧ s.pm.wake ≠ 0)
    ∧ ((sPm 2 0).setFld PM_WAKE_TIMER_S 1).on PM_WAKE_TIMER_S = true
    ∧ (let s : State := { sPm 3 0 with pm := { (sPm 3 0).pm with moor := true } }
       s.pm.released = true ∧ s.pm.moor = true ∧ s.pm.wake = 0 ∧ s.fld PM_CTRL_STATE ≠ 2)
    ∧ ((sPm 1 1).standing = true ∧ (sPm 1 1).pm.wake ≠ 0)
    ∧ (up.setFld PM_AUX_CFG_PPS_EN 1).on PM_AUX_CFG_PPS_EN = true := by decide +kernel
theorem wit_Resets :
    (let s : State := { up with pm := { up.pm with released := false } }
     s.pm.released = false ∧ s.pm.perst = false ∧ s.pm.pwrGood = true ∧ s.pm.off = false ∧ s.pm.smbFence = false ∧ s.opMax ≠ 0)
    ∧ (let s : State := { up with pm := { up.pm with moor := true } }
       s.pm.moor = true ∧ s.pm.off = false)
    ∧ up.pm.off = false ∧ 15 < 16 := by decide +kernel
/-- A misaligned offset, one of no register, PM_THROT, and a register of a cluster in Stand. -/
theorem wit_RegisterWrites : up.hubUp = true ∧ 1 % 4 ≠ 0 ∧ (msixOff 0 0x20000000 = none ∧ baseAddr 0 0x20000000 = none)
    ∧ up.fnShut ⟨1, false⟩ = true ∧ up.ringLocked 0x1000008 = false ∧ up.ringLocked 0x8000000 = false
    ∧ (baseAddr 0 0x100000).any sRings.ringLocked = true
    ∧ (msixOff 0 0x1000008 = none ∧ baseAddr 0 0x1000008 = some 0x1000008 ∧ ownRow 0x1000008 = false ∧ standBlock 0x1000008 = true
      ∧ 0x1000008 / 8 * 8 ≠ 0x1000040)
    ∧ ((sPm 2 0).standing = true ∧ up.standing = false ∧ baseAddr 0 0x8000000 = some 0x8000000 ∧ ownRow 0x8000000 = false
      ∧ standBlock 0x8000000 = false ∧ msixOff 0 0x8000000 = none) := by decide +kernel

/-! ### Witnesses: light, stops, debug, supplies and transactions -/

/-- A command of a table that no slot holds, alone and with a write of its engine that has not been accepted. -/
theorem wit_Rejected : let s : State := { tS with b := { tS.b with cmds := [bcmd 0 0 0] } }
    let r : Req := { rq .queued with write := true, use := .base 0 }
    s.cmdRejected (bcmd 0 0 0) = true ∧ (bcmd 0 0 0).done = none ∧ (bcmd 0 0 0).dead = false
    ∧ s.b.cmds.find? (fun (y : BCmd) => y.id == 0 && y.stack == 0) = some (bcmd 0 0 0) ∧ s.completionWaits (bcmd 0 0 0) = false
    ∧ ({ s with m := { s.m with reqs := [r] } } : State).completionWaits (bcmd 0 0 0) = true := by decide +kernel
/-- An absent lambda with light and without. -/
theorem wit_HelloLight : (∀ st ∈ [lsAbsent, lsMiswired, lsDown, lsTraining], (sLit st).lit 1 = true ∧ (sLit st).lstate 1 = st
      ∧ (sLam st).lit 1 = false ∧ (sLam st).lstate 1 = st ∧ (sLam st).on (OP_LASER_SHUT (lamPort 1)) = false) := by decide +kernel
/-- A shuttered port with light and without; a lambda of it that has trained, one whose peer is not named, one whose peer is. -/
theorem wit_PortOpen : (∀ e ∈ [true, false], let s := (if e then sLit lsShuttered else sLam lsShuttered).setFld (OP_LASER_SHUT 0) 1
      s.on (OP_LASER_SHUT 0) = true ∧ s.on HUB_RISK_DRAINED = false ∧ s.dieUp = true ∧ s.standing = false
      ∧ ((s.fab.enA && s.on (OP_LASER_A_OK 0)) || (s.fab.enB && s.on (OP_LASER_B_OK 0))) = e ∧ 1 ∈ lamsOfPort 0 ∧ s.isLoop 1 = false)
    ∧ ((sLit lsShuttered).lam 1).trained = false ∧ ((sLit lsShuttered).lam 1).feed ≠ none
    ∧ ((sLit lsShuttered).lam 1).peerPos = (sLit lsShuttered).peerOf 1 := by decide +kernel
theorem wit_BringUpAwake : let s := up.setFld HUB_FW_STATUS_READY 1
    s.hubUp = true ∧ s.standing = false ∧ s.on HUB_FW_STATUS_READY = true ∧ s.on FAB_CTRL_RUN = false ∧ s.fab.outq = [] := by decide +kernel
/-- A fenced partition of which this device hosts a slot, whose ABORT has not gone. -/
theorem wit_TellFenced : let s := sStep.setFld (PART_STATUS_STATE 0) ptFenced
    s.partState 0 = ptFenced ∧ (s.job 0).slots.contains s.me = true ∧ (s.job 0).abortCause ≠ jcFenced := by decide +kernel
/-- The ABORT of device 1, which is fenced and lost. -/
def abortD : List Byte := msgHead 0 0 false 0 4 false 0 ++ leBytes 8 jcFenced ++ List.replicate 616 0
theorem wit_AbortFenced : let s := inJob (fun j => { j with lost := [1] })
    let b := sealed 2 abortD
    let s1 := (acceptedFrom s 1 b 0 1).modJob 0 (fun j => { j with parts := j.parts.filter (fun x => !MsgPieces.of (hSrc b) abortD x) })
    MsgTaken s (.lambda 1 b) .abort 0 1 abortD s1 ∧ bits (wordAt abortD 0x10) 0 8 = jcFenced ∧ bit (wordAt abortD 0x10) 8 = false
    ∧ s1.nowStep 0 abortD = true ∧ (s1.job 0).coord = s1.me ∧ (s1.job 0).lost.contains 1 = true := by
  have hs : hSrc (sealed 2 abortD) = 1 := by decide +kernel
  refine ⟨⟨by unfold Clocked; decide +kernel, 1, abortD, sealed_passes (by decide +kernel) (by decide +kernel), hs.symm, by decide +kernel, ?_, by rw [hs]; rfl⟩,
    by decide +kernel, by decide +kernel, by decide +kernel, by decide +kernel, by decide +kernel⟩
  decide +kernel
/-- A job whose stop has been requested commits a step that changes nothing. -/
theorem wit_CommitStop : let s := inJob (fun j => { j with stopReq := true })
    let pay := List.replicate 176 (0 : Byte)
    let r := scaledStep (recorded s 0 pay) 0 pay
    ((stepOver (installed r.1 0 pay) 0 (s.stepNum 0)).job 0).stopReq = true ∧ (s.commitStep 0 pay).partState 0 ≠ ptFenced := by
  decide +kernel
theorem wit_LedgerAck : sRest.hubUp = true ∧ sRest.standing = false ∧ reaches ⟨0, false⟩ 0 = true ∧ reaches ⟨1, false⟩ 0 = true
    ∧ reaches ⟨2, false⟩ 0 = false ∧ sRest.fnShut ⟨1, false⟩ = false ∧ sRest.partState 0 = ptStarted ∧ sRest.jstate 0 ≠ jsStopped
    ∧ (sRest.setFld (PART_STATUS_STATE 0) ptFenced).partState 0 = ptFenced := by decide +kernel
/-- A command that needs a gated block at the head of its ring, in Stand. -/
theorem wit_FetchStands : let s := (sRings.wr (keyHost 0) 8 0x0301).setFld PM_CTRL_STATE 2
    s.hubUp = true ∧ s.standing = true ∧ s.pm.wake = 0 ∧ s.nextRing = some (ringKeyOf 0 0)
    ∧ packetStatus ⟨0, 0, s.headPacket 0 0⟩ = stOk ∧ onStand (cOp ⟨0, 0, s.headPacket 0 0⟩) = false := by decide +kernel
theorem wit_Message : let s : State := { sRings with h := { sRings.h with msixOn := [0] } }
    s.h.msixOn.contains 0 = true ∧ sRings.h.msixOn.contains 0 = false := by decide +kernel
theorem wit_Transfer : (sRest.walkSeen 7 0 0x4000 64).partState 0 ≠ ptFenced ∧ (sRest.walkSeen 7 0 0x4000 64).tableWaits 0 0x4000 = false
    ∧ keyStack 0 0x4000 + 64 ≤ 2 ^ 64 := by decide +kernel
theorem wit_PartStartReach : reaches ⟨0, false⟩ 0 = true ∧ sBuild.fnShut ⟨0, false⟩ = false ∧ sBuild.startOk 0 = true
    ∧ sRest.startOk 0 = false ∧ sRest.hubUp = true ∧ sRest.standing = false ∧ reaches ⟨2, false⟩ 0 = false := by decide +kernel
/-- A token that may halt partition 0, and core 2 of it, whose task runs. -/
theorem wit_Debug : let s : State := { sOwned with sec := { sOwned.sec with tokens := [(8, 1, [])] } }
    s.debugs 3 0 = true ∧ s.corePart 2 = some 0 ∧ s.dieUp = true ∧ s.taskRuns 2 = true ∧ s.engineFaults 2 = []
    ∧ sOwned.debugs 3 0 = false ∧ sOwned.corePart 2 = some 0 := by decide +kernel
/-- An image of zeros that is being verified: it has the wrong form. -/
theorem wit_Verify : let s := (up.setFld SEC_BOOT_STATE 1).setFld SEC_BOOT_CTRL_LENGTH 128
    s.hubUp = true ∧ s.fld SEC_BOOT_STATE = 1 ∧ s.imageReason (s.fld SEC_BOOT_CTRL_LENGTH) = 1 := by decide +kernel
/-- A load of core 2 that reads its own byte 0; a VLDT of the accumulator memory of matrix core 0 by core 2. -/
def rdLd : Reading := ⟨0, 4, 0, fT 8⟩
def rdTile : Reading := ⟨0, 4, 0x14, { fT 0 with imm := 0 }⟩
def sAcc : State := (tS.setHandle 2 0 hOut)
theorem no_tables {s : State} (h : s.clusterPart (clusterOf 2) = none) : ∀ va, s.lostTable (clusterOf 2) va = none := by
  intro va; simp only [State.lostTable, h]
theorem wit_Meets : Meets tS (siblingOf 2 2) (keyOwn 2 0) rdLd ∧ Meets tS 2 (keyShared 0 0) { rdLd with fields := { fT 8 with mod := 1 } }
    ∧ Meets sAcc (siblingOf 0 2) (keyAcc 0 0) rdTile := by
  refine ⟨⟨?_, ?_, ?_, ?_, ?_, ?_, no_tables ?_⟩, ⟨?_, ?_, ?_, ?_, ?_, ?_, no_tables ?_⟩, ⟨?_, ?_, ?_, ?_, ?_, ?_, no_tables ?_⟩⟩ <;> decide +kernel
theorem wit_Rails : up.pm.pwrGood = true ∧ up.pm.goodUs = 1000 ∧ up.pm.moor = false ∧ up.pm.aon = true
    ∧ up.pm.lowRails.contains (3 : Fin 7).val = false
    ∧ (let s : State := { up with pm := { up.pm with lowRails := [3] } }
       s.pm.aon = true ∧ s.pm.lowRails.contains (3 : Fin 7).val = true) := by decide +kernel
/-- A power-off while partition 0 is STARTED, and one while it is being built. -/
theorem wit_PowerOff : (∀ st ∈ [ptStarted, ptBuilding, ptFenced], served (sRest.setFld (PART_STATUS_STATE 0) st) 0x0903 0 0 [] = true
    ∧ (sRest.setFld (PART_STATUS_STATE 0) st).partState 0 = st) := by decide +kernel
/-- Idle for a millisecond, and not yet; a started partition. -/
theorem wit_StandDue : (let s := up.setFld PM_IDLE_TIMER_STAND_MS 1
      ({ s with timeUs := 1000 } : State).standDue = true ∧ s.hubUp = true ∧ s.fld PM_CTRL_STATE = 0
      ∧ s.timeUs < s.pm.idleFrom + 1000 * s.fld PM_IDLE_TIMER_STAND_MS)
    ∧ sRest.partState 0 = ptStarted ∧ (up.setFld PM_IDLE_TIMER_STAND_MS 0).on PM_IDLE_TIMER_STAND_MS = false := by decide +kernel
/-- A device that has stood for a second, and one that has just come to stand, either with a wake timer or without. -/
theorem wit_MoorDue : ∀ t ∈ [0, 1000000], ∀ w ∈ [0, 1],
    let s := ((((sPm 2 0).setFld PM_CTRL_MOOR_EN 1).setFld PM_IDLE_TIMER_MOOR_S 1).setFld PM_IDLE_TIMER_STAND_MS 1).setFld PM_WAKE_TIMER_S w
    let s : State := { s with timeUs := t }
    s.pm.released = true ∧ s.pm.moor = false ∧ s.on ERR_FAILSAFE_ACTIVE = false ∧ s.fld PM_CTRL_STATE = 2 ∧ s.on PM_CTRL_MOOR_EN = true
    ∧ s.on PM_IDLE_TIMER_MOOR_S = true ∧ s.on PM_IDLE_TIMER_STAND_MS = true ∧ s.pm.wake = 0 ∧ (∀ p, p < 8 → s.partState p = ptFree)
    ∧ s.on PM_WAKE_TIMER_S = (w == 1)
    ∧ decide (s.pm.standAt + 1000000 * s.fld PM_IDLE_TIMER_MOOR_S ≤ s.timeUs) = (t == 1000000) := by decide +kernel
/-- Moor entered with the pads free, and with them held from an earlier Moor. -/
theorem wit_Pads : (sPm 3 0).pm.pads = none
    ∧ (let s : State := { sPm 3 0 with pm := { (sPm 3 0).pm with pads := some ⟨true, false, false, 0, 0⟩ } }
       s.pm.pads ≠ none ∧ s.fld PM_CTRL_STATE = 3 ∧ s.pm.released = true ∧ s.pm.moor = false ∧ s.on ERR_FAILSAFE_ACTIVE = false) := by
  decide +kernel
theorem wit_WakeTimes : (∀ v ∈ [0, 1], (sPm 2 0).pm.wake = 0 ∧ (sPm 2 0).hubUp = true ∧ (sPm 2 0).fld PM_CTRL_STATE = 2
      ∧ ((sPm 2 0).setFld PM_WAKE_TIMER_S v).on PM_WAKE_TIMER_S = (v == 1))
    ∧ (sPm 1 0).pm.wake = 0 ∧ (sPm 1 0).hubUp = true ∧ (sPm 1 0).fld PM_CTRL_STATE = 1 := by decide +kernel
/-- A device in reset, 1,000 µs after PWR_GOOD and before; one in Moor, one that is off. -/
theorem wit_Supplies : (∀ us ∈ [999, 1000], let s : State := { up with pm := { up.pm with released := false, goodUs := us } }
      s.pm.released = false ∧ s.pm.perst = false ∧ s.pm.pwrGood = true ∧ s.pm.off = false ∧ s.pm.smbFence = false ∧ s.opMax ≠ 0
      ∧ decide (s.pm.goodUs = 1000) = (us == 1000) ∧ decide (s.pm.goodUs < 1000) = (us == 999) ∧ s.pm.aon = true ∧ s.pm.pads = none)
    ∧ (let s : State := { up with pm := { up.pm with off := true } }
       s.pm.off = true)
    ∧ (let s : State := { up with pm := { up.pm with pwrGood := false } }
       s.pm.aon = true ∧ s.pm.pwrGood = false)
    ∧ up.pm.moor = false ∧ up.pm.off = false := by decide +kernel
/-- The target's address with SMB_ADDR 0 and another; each write with its data and another, with a right PEC, a wrong one and none. -/
theorem wit_SmbWrites : up.smbMine 0x68 = true ∧ up.smbMine 0x69 = false
    ∧ (∀ e ∈ [(0x10, (0xA5 : BitVec 8)), (0x11, 1), (0x12, 2), (0x13, 3)],
      (∀ p, (⟨0x68, e.2, none⟩ : SmbWrite).pec = some p → p.toNat = smbPec [2 * (0x68 : BitVec 7).toNat, e.1, e.2.toNat])
      ∧ (BitVec.ofNat 8 (smbPec [2 * (0x68 : BitVec 7).toNat, e.1, e.2.toNat])).toNat = smbPec [2 * (0x68 : BitVec 7).toNat, e.1, e.2.toNat]
      ∧ (0 : BitVec 8).toNat ≠ smbPec [2 * (0x68 : BitVec 7).toNat, e.1, e.2.toNat] ∧ (0 : BitVec 8) ≠ e.2) := by
  refine ⟨by decide +kernel, by decide +kernel, ?_⟩
  intro e he
  refine ⟨?_, ?_, ?_, ?_⟩
  · simp
  all_goals (revert e; decide +kernel)
theorem wit_SmbStates : ∀ armed ∈ [true, false], ∀ moor ∈ [true, false], ∀ off ∈ [true, false], ∀ st ∈ [0, 1, 3],
    let s : State := { up.setFld PM_CTRL_STATE st with pm := { up.pm with armed := armed, moor := moor, off := off } }
    s.smbMine 0x68 = true ∧ s.pm.armed = armed ∧ s.pm.moor = moor ∧ s.pm.off = off ∧ s.on ERR_FAILSAFE_ACTIVE = false
    ∧ s.pm.released = true ∧ s.pm.wake = 0 ∧ s.fld PM_CTRL_STATE = st ∧ s.pm.pwrGood = true ∧ s.pm.dies = true := by decide +kernel
theorem wit_SmbCodes : smbListed 0 = false ∧ smbListed 8 = false ∧ smbListed 1 = true ∧ smbListed 7 = true ∧ smbListed 0x10 = true
    ∧ smbListed 0x13 = true ∧ smbListed 0x14 = false
    ∧ (let s : State := { up with pm := { up.pm with pwrGood := false } }
       s.smbMine 0x68 = true ∧ s.pm.pwrGood = false) := by decide +kernel

end Sys2Proof.Tests
end

section
/-! PROOF. A step runs the command at the front of the queue. -/

open Sys2Proof Sys2Proof.Machine

/-- Settles O1: `step` is `exec` of the front command on the popped state, by definition. -/
theorem stepRunsFront : Obligations.StepRunsFront :=
  fun _ _ _ => rfl

end

section
/-! PROOF. What an outcome must satisfy so that a step keeps memory in its canonical form, and what the shared shapes of
the commands (issue, arrival, frame, host command, SMBus access) keep of it. -/

namespace Sys2Proof.Machine

/-! ### Outcomes -/

/-- The next state, if the outcome is one, has memory in its canonical form. -/
def MemWfOut (o : Out) : Prop := ∀ t, o = .next t → t.m.mem.wf = true

@[simp] theorem memWfOut_next (s : State) : MemWfOut (.next s) ↔ s.m.mem.wf = true :=
  ⟨fun h => h s rfl, fun h _ e => by cases e; exact h⟩

@[simp] theorem memWfOut_fault (r : Fault) : MemWfOut (.fault r) := by
  intro t e
  simp at e

theorem unlessStopped_memWf {s : State} {o : Out} (h : s.m.mem.wf = true) (ho : MemWfOut o) :
    MemWfOut (unlessStopped s o) := by
  unfold unlessStopped
  split
  · simpa using h
  · exact ho

theorem arrive_memWf (kind : Nat) (tok : Word) (g : State → State) {s : State} (h : s.m.mem.wf = true)
    (hg : ∀ u : State, u.m.mem.wf = true → (g u).m.mem.wf = true) : MemWfOut (arrive kind tok g s) := by
  unfold arrive
  (repeat' split) <;> simp [h, hg]

/-! ### Instructions of a core -/

/-- The state that an instruction leaves has memory in its canonical form. -/
def Eff.MemWf : Eff → Prop
  | .go s _ => s.m.mem.wf = true
  | .stay s => s.m.mem.wf = true
  | .wait s _ => s.m.mem.wf = true
  | .stop s => s.m.mem.wf = true
  | .trap s _ => s.m.mem.wf = true
  | .fault _ => True
  | .refuse _ => True

@[simp] theorem Eff.go_memWf (s : State) (pc : Int) : (Eff.go s pc).MemWf ↔ s.m.mem.wf = true := Iff.rfl
@[simp] theorem Eff.stay_memWf (s : State) : (Eff.stay s).MemWf ↔ s.m.mem.wf = true := Iff.rfl
@[simp] theorem Eff.wait_memWf (s : State) (w : Wait) : (Eff.wait s w).MemWf ↔ s.m.mem.wf = true := Iff.rfl
@[simp] theorem Eff.stop_memWf (s : State) : (Eff.stop s).MemWf ↔ s.m.mem.wf = true := Iff.rfl
@[simp] theorem Eff.trap_memWf (s : State) (fs : List FInfo) : (Eff.trap s fs).MemWf ↔ s.m.mem.wf = true := Iff.rfl
@[simp] theorem Eff.fault_memWf (fs : List FInfo) : (Eff.fault fs).MemWf := trivial
@[simp] theorem Eff.refuse_memWf (fs : List FInfo) : (Eff.refuse fs).MemWf := trivial

theorem State.applyEff_memWf {s : State} (core t pc : Nat) (w : Word) {e : Eff} (h : s.m.mem.wf = true) (he : e.MemWf) :
    (s.applyEff core t pc w e).m.mem.wf = true := by
  cases e <;> simp only [State.applyEff, Eff.go_memWf, Eff.stay_memWf, Eff.wait_memWf, Eff.stop_memWf, Eff.trap_memWf] at he ⊢
  case go => split <;> simp [h, he]
  case stay => simp [he]
  case wait => split <;> simp [h, he]
  case stop => simp [he]
  case fault => simp [h]
  case refuse => simp [h]
  case trap => simp [he]

theorem issueUe_memWf (ue : List FInfo) (core t cls op : Nat) (f : Fields) (u : Uses) (bad : Bool)
    (more : List (RFile × Nat)) (body : State → Eff) {s : State} (h : s.m.mem.wf = true) (hb : (body s).MemWf) :
    MemWfOut (issueUe ue core t cls op f u bad more body s) := by
  unfold issueUe
  dsimp only
  split
  · simp
  · split
    · simpa using h
    · split
      · simpa using h
      · split
        · simpa using State.applyEff_memWf _ _ _ _ h hb
        · simpa using h

theorem issue_memWf (core t cls op : Nat) (f : Fields) (u : Uses) (bad : Bool) (more : List (RFile × Nat))
    (body : State → Eff) {s : State} (h : s.m.mem.wf = true) (hb : (body s).MemWf) :
    MemWfOut (issue core t cls op f u bad more body s) :=
  issueUe_memWf [] core t cls op f u bad more body h hb

/-- An instruction that goes on to the next word keeps what its change of the state keeps. -/
theorem issue_thenNext_memWf (core t cls op : Nat) (f : Fields) (u : Uses) (bad : Bool) (more : List (RFile × Nat))
    (g : State → State) {s : State} (h : s.m.mem.wf = true) (hg : (g s).m.mem = s.m.mem) :
    MemWfOut (issue core t cls op f u bad more (thenNext core t g) s) :=
  issue_memWf _ _ _ _ _ _ _ _ _ h (by simp [thenNext, hg, h])

theorem State.startOp_memWf {s : State} (x : Xfer) (write : Bool) (cells : List (Nat × Byte)) (h : s.m.mem.wf = true) :
    (s.startOp x write cells).MemWf := by
  unfold State.startOp
  split <;> simp [h]

/-! ### Host commands -/

/-- The state that a host command leaves has memory in its canonical form. -/
def HRes.MemWf : HRes → Prop
  | .reply s _ _ _ _ => s.m.mem.wf = true
  | .stay s => s.m.mem.wf = true

@[simp] theorem HRes.reply_memWf (s : State) (st d r0 r1 : Nat) : (HRes.reply s st d r0 r1).MemWf ↔ s.m.mem.wf = true := Iff.rfl
@[simp] theorem HRes.stay_memWf (s : State) : (HRes.stay s).MemWf ↔ s.m.mem.wf = true := Iff.rfl

@[simp] theorem HRes.ok_memWf (s : State) (r0 r1 : Nat) : (HRes.ok s r0 r1).MemWf ↔ s.m.mem.wf = true := Iff.rfl
@[simp] theorem HRes.no_memWf (s : State) (st d : Nat) : (HRes.no s st d).MemWf ↔ s.m.mem.wf = true := Iff.rfl
@[simp] theorem HRes.badState_memWf (s : State) (p : Nat) : (HRes.badState s p).MemWf ↔ s.m.mem.wf = true := Iff.rfl

@[simp] theorem refuseRestore_memWf (s : State) (p r : Nat) : (refuseRestore s p r).MemWf ↔ s.m.mem.wf = true := by
  simp [refuseRestore]

theorem hostRow_memWf (op : Nat) (c : HostCmd) (g : Started → Nat → State → HRes) {s : State} (h : s.m.mem.wf = true)
    (hg : ∀ x, (g x (cPart c) s).MemWf) : MemWfOut (hostRow op c g s) := by
  unfold hostRow
  dsimp only
  split
  · simpa using h
  · next x _ =>
    have hx := hg x
    (repeat' split) <;> simp_all

theorem boundaryRow_memWf (op : Nat) (c : HostCmd) (check : Nat → State → Option HRes)
    (apply : HostCmd → Nat → State → State × Nat × Nat) {s : State} (h : s.m.mem.wf = true)
    (hc : ∀ p r, check p s = some r → r.MemWf) (ha : ∀ d p, (apply d p s).1.m.mem.wf = true) :
    MemWfOut (boundaryRow op c check apply s) := by
  refine hostRow_memWf op c _ h (fun x => ?_)
  split
  · next r hr => exact hc _ r hr
  · (repeat' split) <;> simp [h, ha]

/-! ### Frames -/

theorem receive_memWf (place : Fin 256) (b : List Byte) (mine good : State → Option Nat → List Byte → Bool)
    (g : State → Option Nat → List Byte → State) {s : State} (h : s.m.mem.wf = true)
    (hg : ∀ (u : State) p d, u.m.mem.wf = true → (g u p d).m.mem.wf = true) : MemWfOut (receive place b mine good g s) := by
  unfold receive
  dsimp only
  (repeat' split) <;> simp [h, hg]

theorem receivePart_memWf (typ : Nat) (place : Fin 256) (b : List Byte) (mine good : State → Nat → List Byte → Bool)
    (g : State → Nat → List Byte → State) {s : State} (h : s.m.mem.wf = true)
    (hg : ∀ (u : State) p d, u.m.mem.wf = true → (g u p d).m.mem.wf = true) :
    MemWfOut (receivePart typ place b mine good g s) :=
  receive_memWf place b _ _ _ h (fun u p d hu => by cases p <;> simp [hu, hg])

theorem State.msgIn_memWf {s : State} (p src : Nat) (d : List Byte) (g : State → Nat → Nat → List Byte → State)
    (h : s.m.mem.wf = true) (hg : ∀ (u : State) p src d, u.m.mem.wf = true → (g u p src d).m.mem.wf = true) :
    (s.msgIn p src d g).m.mem.wf = true := by
  unfold State.msgIn
  dsimp only
  split <;> simp [h, hg]

theorem msgRow_memWf (k : MKind) (via : Via) (g : State → Nat → Nat → List Byte → State) {s : State} (h : s.m.mem.wf = true)
    (hg : ∀ (u : State) p src d, u.m.mem.wf = true → (g u p src d).m.mem.wf = true) : MemWfOut (msgRow k via g s) := by
  refine unlessStopped_memWf h ?_
  cases via with
  | own => dsimp only; split <;> simp [h, hg]
  | lambda lam frame =>
    exact receivePart_memWf _ _ _ _ _ _ h (fun u p d hu => State.msgIn_memWf _ _ _ _ hu hg)

theorem collRow_memWf (lam : Fin 256) (frame : List Byte) (fits : List Byte → Bool) {s : State} (h : s.m.mem.wf = true) :
    MemWfOut (collRow lam frame fits s) :=
  receivePart_memWf _ _ _ _ _ _ h (fun u p d hu => State.collIn_memWf u p d hu)

/-! ### Doorbells and base commands -/

theorem doorbell_memWf (ch form : Nat) (tok : Word) (bad : State → Nat → Nat → Nat → State)
    (g : State → Nat → Nat → List Byte → State) {s : State} (h : s.m.mem.wf = true)
    (hb : ∀ (u : State) p sec i, u.m.mem.wf = true → (bad u p sec i).m.mem.wf = true)
    (hg : ∀ (u : State) p sec d, u.m.mem.wf = true → (g u p sec d).m.mem.wf = true) :
    MemWfOut (doorbell ch form tok bad g s) := by
  refine unlessStopped_memWf h ?_
  dsimp only
  (repeat' split) <;> simp [h, hb, hg]

theorem State.askNext_memWf {s u : State} (x : BCmd) (sl : Slot) (p : BPay) (h : s.m.mem.wf = true)
    (e : s.askNext x sl p = some u) : u.m.mem.wf = true := by
  unfold State.askNext at e
  split at e <;> simp only [Option.some.injEq, reduceCtorEq] at e <;> subst e <;> simp [h]

theorem runCmd_memWf (op : Nat) (run : State → BCmd → Slot → BPay → State) (st : Fin 8) (id : Nat) {s : State}
    (h : s.m.mem.wf = true) (hr : ∀ x sl p, (run s x sl p).m.mem.wf = true) : MemWfOut (runCmd op run st id s) := by
  refine unlessStopped_memWf h ?_
  dsimp only
  (repeat' split) <;> simp [h, hr]
  -- the state that asks for the command's next bytes
  next e => exact State.askNext_memWf _ _ _ h e

/-! ### The management bus -/

theorem State.smbWrite_memWf {s : State} (x : SmbWrite) (code want : Nat) (ok : Bool) (act : State → State)
    (h : s.m.mem.wf = true) (ha : ∀ u : State, u.m.mem.wf = true → (act u).m.mem.wf = true) :
    MemWfOut (s.smbWrite x code want ok act) := by
  unfold State.smbWrite
  (repeat' split) <;> simp [h, ha]

theorem State.smbRead_memWf {s : State} (x : SmbRead) (code n : Nat) (v : State → Nat × State) (h : s.m.mem.wf = true)
    (hv : ∀ u : State, (v u).2.m.mem = u.m.mem) : MemWfOut (s.smbRead x code n v) := by
  have hw : (v s.disarm).2.m.mem.wf = true := by simp [hv, h]
  unfold State.smbRead
  split
  · simpa using h
  · simpa using hw

end Sys2Proof.Machine
end

section
/-! PROOF. What a traversal instruction's reads leave alone: a relation between states that translation and the marking of
cached items keep holds between the state in which a traversal begins and the one in which it ends. -/

namespace Sys2Proof.Machine

/-- A relation, of a later state to an earlier one, that the reads of a traversal keep (07 R261 to R264, 10 R348). -/
structure TravRel (R : State → State → Prop) : Prop where
  refl : ∀ s, R s s
  trans : ∀ a b c, R a b → R b c → R a c
  span : ∀ s core va n, R (State.spanKeys s core 2 va n false).2 s
  translate : ∀ s cl va, R (State.translate s cl va).2 s
  scache : ∀ (s : State) l, R { s with m := { s.m with scache := l } } s
  dcache : ∀ (s : State) l, R { s with m := { s.m with dcache := l } } s

/-- The traversal ends in a state related to that in which it begins. -/
def TravKeeps (R : State → State → Prop) {α : Type} (x : TravM α) : Prop := ∀ t : Trav, R (x.run t).2.s t.s

/-- A traversal that begins by looking at its state. -/
theorem TravKeeps.readState {R : State → State → Prop} {α : Type} {f : Trav → TravM α}
    (h : ∀ t, R ((f t).run t).2.s t.s) : TravKeeps R (MonadState.get >>= f) := h

section
variable {R : State → State → Prop} (hR : TravRel R) {α β : Type}
include hR

/-! ### Building blocks -/

theorem TravKeeps.pure (a : α) : TravKeeps R (Pure.pure a : TravM α) := fun t => hR.refl t.s

theorem TravKeeps.endWith (n : Nat) : TravKeeps R (endWith n : TravM α) := fun t => hR.refl t.s

theorem TravKeeps.get : TravKeeps R (MonadState.get : TravM Trav) := fun t => hR.refl t.s

theorem TravKeeps.dependent : TravKeeps R dependent := fun t => hR.refl t.s

theorem TravKeeps.bind {x : TravM α} {f : α → TravM β} (hx : TravKeeps R x) (hf : ∀ a, TravKeeps R (f a)) :
    TravKeeps R (x >>= f) := by
  intro t
  have h1 := hx t
  have e : (x >>= f).run t = ExceptT.bindCont f (x.run t).1 (x.run t).2 := rfl
  rw [e]
  generalize x.run t = q at h1 ⊢
  rcases q with ⟨_ | a, u⟩
  · exact h1
  · exact hR.trans _ _ _ (hf a u) h1

/-- A check that ends the traversal, or lets it go on. -/
theorem TravKeeps.guard {c : Prop} [Decidable c] {n : Nat} {f : PUnit → TravM α} (hf : TravKeeps R (f ⟨⟩)) :
    TravKeeps R (if c then (Machine.endWith n >>= fun r => f r) else f ⟨⟩) := by
  split
  · exact fun t => hR.refl t.s
  · exact hf

/-- Two ways to one value. -/
theorem TravKeeps.either {c : Prop} [Decidable c] {x y : TravM α} {f : α → TravM β} (hx : TravKeeps R x)
    (hy : TravKeeps R y) (hf : ∀ a, TravKeeps R (f a)) :
    TravKeeps R (if c then (x >>= fun a => f a) else (y >>= fun a => f a)) := by
  split
  · exact .bind hR hx hf
  · exact .bind hR hy hf

theorem TravKeeps.mapM {f : α → TravM β} (hf : ∀ a, TravKeeps R (f a)) (l : List α) : TravKeeps R (l.mapM f) := by
  induction l with
  | nil => exact .pure hR _
  | cons a l ih =>
    rw [List.mapM_cons]
    exact .bind hR (hf a) (fun _ => .bind hR ih (fun _ => .pure hR _))

/-! ### Reads -/

theorem readVa_keeps (core va n : Nat) : TravKeeps R (readVa core va n) := by
  refine .readState (fun t => ?_)
  have h := hR.span t.s core va n
  dsimp only
  split <;> rename_i e <;> rw [e] at h <;> exact h

theorem readVaBytes_keeps (core va n : Nat) : TravKeeps R (readVaBytes core va n) := by
  induction n generalizing va with
  | zero => exact .pure hR _
  | succ n ih => exact .bind hR (readVa_keeps hR _ _ _) (fun _ => .bind hR (ih _) (fun _ => .pure hR _))

theorem readCached_keeps (core va n : Nat) : TravKeeps R (readCached core va n) := by
  refine .readState (fun t => ?_)
  have h := hR.translate t.s (clusterOf core) va
  split <;> rename_i e <;> rw [e] at h <;> exact h

theorem readCached128_keeps (core va : Nat) : TravKeeps R (readCached128 core va) :=
  .bind hR (readCached_keeps hR _ _ _) (fun _ => .bind hR (readCached_keeps hR _ _ _) (fun _ => .pure hR _))

/-! ### Graph images (07 R235 to R260) -/

theorem nodeImage_keeps (core g node : Nat) (w a : Bool) : TravKeeps R (nodeImage core g node w a) := by
  unfold nodeImage
  refine .guard hR ?_
  refine .bind hR (.get hR) (fun _ => ?_)
  refine .guard hR ?_
  refine .bind hR (.dependent hR) (fun _ => ?_)
  refine .either hR (.bind hR (readCached_keeps hR _ _ _) (fun _ => .pure hR _)) (readVa_keeps hR _ _ _) (fun _ => ?_)
  refine .guard hR (.guard hR (.bind hR (.dependent hR) (fun _ => ?_)))
  refine .either hR (readCached128_keeps hR _ _) (readVaBytes_keeps hR _ _ _) (fun _ => ?_)
  refine .bind hR (fun t => ?_) (fun _ => ?_)
  · show R (ite _ _ _ : Trav).s t.s
    split
    · exact hR.refl _
    · exact hR.scache _ _
  · exact .guard hR (.guard hR (.bind hR (.dependent hR) (fun _ => .bind hR (readVa_keeps hR _ _ _) (fun _ =>
      .guard hR (.pure hR _)))))

theorem neighbour_keeps (core : Nat) (m : Image) (p : Nat) : TravKeeps R (neighbour core m p) :=
  .bind hR (readVa_keeps hR _ _ _) (fun _ => .pure hR _)

theorem weightAt_keeps (core : Nat) (m : Image) (p : Nat) : TravKeeps R (weightAt core m p) :=
  .bind hR (readVa_keeps hR _ _ _) (fun _ => .bind hR (fun t => hR.refl t.s) (fun _ => .pure hR _))

theorem recordAt_keeps (core dst : Nat) (m : Image) (p : Nat) : TravKeeps R (recordAt core dst m p) :=
  .bind hR (neighbour_keeps hR _ _ _) (fun _ => .either hR (weightAt_keeps hR _ _ _) (.pure hR _) (fun _ => .pure hR _))

theorem recordsAt_keeps (core dst : Nat) (m : Image) (ps : List Nat) : TravKeeps R (recordsAt core dst m ps) :=
  .mapM hR (recordAt_keeps hR core dst m) ps

theorem aliasChoice_keeps (core : Nat) (m : Image) (x : Nat) : TravKeeps R (aliasChoice core m x) :=
  .bind hR (readVa_keeps hR _ _ _) (fun _ => .guard hR (.pure hR _))

/-! ### The sampling instructions -/

theorem sampDeg_keeps (i : Samp) : TravKeeps R (sampDeg i) :=
  .bind hR (nodeImage_keeps hR _ _ _ _ _) (fun _ => .pure hR _)

theorem sampNbr_keeps (i : Samp) : TravKeeps R (sampNbr i) :=
  .bind hR (nodeImage_keeps hR _ _ _ _ _) (fun _ => .bind hR (.dependent hR) (fun _ =>
    .bind hR (recordsAt_keeps hR _ _ _ _) (fun _ => .pure hR _)))

theorem sampUni_keeps (i : Samp) : TravKeeps R (sampUni i) :=
  .bind hR (nodeImage_keeps hR _ _ _ _ _) (fun _ => .bind hR (.dependent hR) (fun _ =>
    .bind hR (recordsAt_keeps hR _ _ _ _) (fun _ => .pure hR _)))

theorem sampAlias_keeps (i : Samp) : TravKeeps R (sampAlias i) := by
  refine .bind hR (nodeImage_keeps hR _ _ _ _ _) (fun _ => ?_)
  split
  · exact .pure hR _
  · exact .bind hR (.dependent hR) (fun _ => .bind hR (.mapM hR (fun _ => aliasChoice_keeps hR _ _ _) _) (fun _ =>
      .bind hR (.dependent hR) (fun _ => .bind hR (recordsAt_keeps hR _ _ _ _) (fun _ => .pure hR _))))

theorem sampTopk_keeps (i : Samp) : TravKeeps R (sampTopk i) :=
  .bind hR (nodeImage_keeps hR _ _ _ _ _) (fun _ => .bind hR (.dependent hR) (fun _ =>
    .bind hR (.mapM hR (fun _ => .bind hR (weightAt_keeps hR _ _ _) (fun _ => .pure hR _)) _) (fun _ =>
    .bind hR (.dependent hR) (fun _ =>
    .bind hR (.mapM hR (fun _ => .bind hR (neighbour_keeps hR _ _ _) (fun _ => .pure hR _)) _) (fun _ => .pure hR _)))))

theorem walkFrom_keeps (i : Samp) (n t cur : Nat) (rs : List (List Byte)) : TravKeeps R (walkFrom i n t cur rs) := by
  induction n generalizing t cur rs with
  | zero => exact .pure hR _
  | succ n ih =>
    unfold walkFrom
    refine .bind hR (fun u => ?_) (fun m => ?_)
    · have h := nodeImage_keeps hR i.core i.g cur false i.modAlias u
      dsimp only [ExceptT.run] at h ⊢
      split <;> rename_i e <;> rw [e] at h <;> exact h
    · cases m with
      | none => exact .pure hR _
      | some m =>
        dsimp only
        split
        · exact ih _ _ _
        · exact .bind hR (.dependent hR) (fun _ => .either hR (aliasChoice_keeps hR _ _ _) (.pure hR _) (fun _ =>
            .bind hR (.dependent hR) (fun _ => .bind hR (neighbour_keeps hR _ _ _) (fun _ => ih _ _ _))))

theorem sampWalk_keeps (i : Samp) : TravKeeps R (sampWalk i) :=
  .guard hR (.bind hR (.get hR) (fun _ => .bind hR (walkFrom_keeps hR _ _ _ _ _) (fun _ => .pure hR _)))

theorem sampLayer_keeps (i : Samp) : TravKeeps R (sampLayer i) := by
  refine .bind hR (.get hR) (fun _ => .guard hR ?_)
  dsimp only
  split <;> exact .pure hR _

/-! ### Row indexes and lookups (10 R347 to R357) -/

theorem probe_keeps (core base k r n i : Nat) : TravKeeps R (probe core base k r n i) := by
  induction n generalizing i with
  | zero => exact .pure hR _
  | succ n ih =>
    refine .bind hR (readVa_keeps hR _ _ _) (fun _ => ?_)
    split
    · exact .pure hR _
    · split
      · exact .pure hR _
      · exact ih _

theorem rowIndex_keeps (core : Nat) (d : Desc) (off r : Nat) : TravKeeps R (rowIndex core d off r) := by
  unfold rowIndex
  dsimp only
  split
  · exact .pure hR _
  · exact probe_keeps hR _ _ _ _ _ _

theorem readDesc_keeps (core slot va : Nat) : TravKeeps R (readDesc core slot va) := by
  refine .bind hR (.get hR) (fun _ => ?_)
  dsimp only
  split
  · exact readCached128_keeps hR _ _
  · exact .bind hR (readVaBytes_keeps hR _ _ _) (fun _ => .bind hR (fun t => hR.dcache t.s _) (fun _ => .pure hR _))

theorem eresDesc_keeps (i : Eres) : TravKeeps R (eresDesc i) := by
  refine .bind hR (.get hR) (fun _ => .guard hR (.bind hR (readDesc_keeps hR _ _ _) (fun _ => .guard hR ?_)))
  split
  · exact .pure hR _
  · split
    · exact .pure hR _
    · exact .bind hR (readDesc_keeps hR _ _ _) (fun _ => .guard hR (.pure hR _))

theorem ownerSlot_keeps (core : Nat) (d : Desc) (r : Nat) : TravKeeps R (ownerSlot core d r) :=
  .bind hR (rowIndex_keeps hR _ _ _ _) (fun v => by cases v <;> exact .pure hR _)

theorem resolveReq_keeps (i : Eres) (d : Desc) (j r : Nat) : TravKeeps R (resolveReq i d j r) := by
  unfold resolveReq
  split
  · exact .pure hR _
  · refine .bind hR (ownerSlot_keeps hR _ _ _) (fun _ => .either hR (.pure hR _) (rowIndex_keeps hR _ _ _ _) (fun v => ?_))
    cases v with
    | some v => exact .pure hR _
    | none => exact .bind hR (readVa_keeps hR _ _ _) (fun _ => .bind hR (.get hR) (fun _ => .pure hR _))

theorem serveAt_keeps (i : Eres) (d : Desc) (pos r : Nat) : TravKeeps R (resolveServe.serveAt i d pos r) := by
  refine .bind hR (ownerSlot_keeps hR _ _ _) (fun o => .bind hR (readVa_keeps hR _ _ _) (fun _ => ?_))
  rcases o with ⟨_, _ | _⟩ <;> dsimp only <;> split <;> exact .pure hR _

theorem resolveServe_keeps (i : Eres) (d : Option Desc) (j r : Nat) : TravKeeps R (resolveServe i d j r) := by
  unfold resolveServe
  dsimp only
  split
  · exact .pure hR _
  · split
    · exact .pure hR _
    · refine .bind hR (rowIndex_keeps hR _ _ _ _) (fun _ => ?_)
      split
      · split
        · exact .pure hR _
        · split
          · exact .pure hR _
          · exact serveAt_keeps hR _ _ _ _
      · exact serveAt_keeps hR _ _ _ _

theorem resolveAll_keeps {f : Nat → Nat → TravM (Nat × Nat)} (hf : ∀ j r, TravKeeps R (f j r)) (l : List (Nat × Nat))
    (t : Trav) : R (resolveAll f l t).2.2.s t.s := by
  induction l generalizing t with
  | nil => exact hR.refl _
  | cons e l ih =>
    have h := hf e.1 e.2 t
    unfold resolveAll
    split <;> rename_i he <;> rw [he] at h
    · exact h
    · exact h
    · exact hR.trans _ _ _ (ih _) h

end

/-! ### Memory and the queue -/

/-- Neither memory nor the queue is touched by the reads of a traversal. -/
theorem travRel_mem : TravRel (fun u s => u.m.mem = s.m.mem ∧ u.pending = s.pending) where
  refl _ := ⟨rfl, rfl⟩
  trans _ _ _ h g := ⟨h.1.trans g.1, h.2.trans g.2⟩
  span _ _ _ _ := by simp
  translate _ _ _ := by simp
  scache _ _ := ⟨rfl, rfl⟩
  dcache _ _ := ⟨rfl, rfl⟩

end Sys2Proof.Machine
end

section
/-! PROOF. The instructions of a core (03 to 07, 09, 10) keep memory in its canonical form. -/

namespace Sys2Proof.Machine

variable {s : State} (c : Fin 800) (t : Fin 16) (f : Fields)

/-! ### Scalars, masks, vectors -/

theorem alu_memWf (op : Nat) (g : Word → Word → Word) (h : s.m.mem.wf = true) : MemWfOut (alu op g c t f s) :=
  issue_thenNext_memWf _ _ _ _ _ _ _ _ _ h (by simp)

theorem branch_memWf (op : Nat) (g : Word → Word → Bool) (h : s.m.mem.wf = true) : MemWfOut (branch op g c t f s) :=
  issue_memWf _ _ _ _ _ _ _ _ _ h (by simp [h])

theorem maskOp_memWf (op : Nat) (g : MWord → MWord → MWord) (h : s.m.mem.wf = true) : MemWfOut (maskOp op g c t f s) :=
  issue_thenNext_memWf _ _ _ _ _ _ _ _ _ h (by simp)

theorem vecOp_memWf (op n : Nat) (group : Ty → Bool) (g : Ty → Nat → Nat → Nat → NRes) (h : s.m.mem.wf = true) :
    MemWfOut (vecOp op n group g c t f s) :=
  issue_thenNext_memWf _ _ _ _ _ _ _ _ _ h (by simp)

theorem vecCmp_memWf (op n : Nat) (group : Ty → Bool) (g : Ty → Nat → Nat → Bool × Flags) (h : s.m.mem.wf = true) :
    MemWfOut (vecCmp op n group g c t f s) :=
  issue_thenNext_memWf _ _ _ _ _ _ _ _ _ h (by simp)

theorem vecMove_memWf (op : Nat) (u : Uses) (bad : Bool) (g : Ty → VWord → VWord → Nat → Nat) (h : s.m.mem.wf = true) :
    MemWfOut (vecMove op u bad g c t f s) :=
  issue_thenNext_memWf _ _ _ _ _ _ _ _ _ h (by simp)

theorem execVshuf_memWf (h : s.m.mem.wf = true) : MemWfOut (execVshuf c t f s) := by
  unfold execVshuf
  exact vecMove_memWf _ _ _ _ _ _ _ h

theorem reduction_memWf (op : Nat) (group : Ty → Bool) (b : Option RFile) (body : Ty → State → State)
    (h : s.m.mem.wf = true) (hb : ∀ ty, (body ty s).m.mem = s.m.mem) : MemWfOut (reduction op group b body c t f s) :=
  issue_thenNext_memWf _ _ _ _ _ _ _ _ _ h (hb _)

theorem execVrmv_memWf (h : s.m.mem.wf = true) : MemWfOut (execVrmv c t f s) :=
  reduction_memWf _ _ _ _ _ _ _ h (fun ty => by dsimp only; simp)

theorem execVmvm_memWf (h : s.m.mem.wf = true) : MemWfOut (execVmvm c t f s) :=
  issue_thenNext_memWf _ _ _ _ _ _ _ _ _ h (by simp)

theorem execVramax_memWf (h : s.m.mem.wf = true) : MemWfOut (execVramax c t f s) := by
  refine reduction_memWf _ _ _ _ _ _ _ h (fun ty => ?_)
  dsimp only
  (repeat' split) <;> simp

theorem execVcvt_memWf (h : s.m.mem.wf = true) : MemWfOut (execVcvt c t f s) :=
  issue_memWf _ _ _ _ _ _ _ _ _ h (by split <;> simp [h])

theorem execEnd_memWf (h : s.m.mem.wf = true) : MemWfOut (execEnd c t f s) :=
  issue_memWf _ _ _ _ _ _ _ _ _ h (by split <;> simp [h])

/-! ### Class 4: loads, stores, handles, streams -/

theorem State.vecLoad_memWf (space : Nat) (els : List (Nat × ElAt)) (h : s.m.mem.wf = true) :
    (s.vecLoad c t f space els).MemWf := by
  have hk := State.vecKeys_frame s c space (typeOf f) false els
  unfold State.vecLoad
  dsimp only
  split <;> rename_i e <;> simp only [e] at hk
  · trivial
  · split
    · simp [h, hk]
    · exact State.startOp_memWf _ _ _ (by simp [h, hk])

theorem State.vecStore_memWf (ty : Ty) (space : Nat) (v : VWord) (els : List (Nat × ElAt)) (h : s.m.mem.wf = true) :
    (s.vecStore c t ty space v els).MemWf := by
  have hk := State.vecKeys_frame s c space ty true els
  unfold State.vecStore
  split <;> rename_i e <;> simp only [e] at hk
  · trivial
  · dsimp only
    split
    · simp [h, hk]
    · exact State.startOp_memWf _ _ _ (by simp [h, hk])

theorem readVld_memWf (ue : List FInfo) (h : s.m.mem.wf = true) : MemWfOut (readVld ue c t f s) := by
  unfold readVld
  exact issueUe_memWf _ _ _ _ _ _ _ _ _ _ h (State.vecLoad_memWf _ _ _ _ _ h)

theorem readVlds_memWf (ue : List FInfo) (h : s.m.mem.wf = true) : MemWfOut (readVlds ue c t f s) := by
  unfold readVlds
  exact issueUe_memWf _ _ _ _ _ _ _ _ _ _ h (State.vecLoad_memWf _ _ _ _ _ h)

theorem readVgath_memWf (ue : List FInfo) (h : s.m.mem.wf = true) : MemWfOut (readVgath ue c t f s) := by
  unfold readVgath
  exact issueUe_memWf _ _ _ _ _ _ _ _ _ _ h (State.vecLoad_memWf _ _ _ _ _ h)

theorem readLd_memWf (ue : List FInfo) (h : s.m.mem.wf = true) : MemWfOut (readLd ue c t f s) := by
  refine issueUe_memWf _ _ _ _ _ _ _ _ _ _ h ?_
  have hk := State.scalarAccess_frame s c t f false
  dsimp only
  split <;> rename_i e <;> simp only [e] at hk
  · trivial
  · split
    · simp [h, hk]
    · exact State.startOp_memWf _ _ _ (by simp [h, hk])

theorem execSt_memWf (h : s.m.mem.wf = true) : MemWfOut (execSt c t f s) := by
  refine issue_memWf _ _ _ _ _ _ _ _ _ h ?_
  have hk := State.scalarAccess_frame s c t f true
  dsimp only
  split <;> rename_i e <;> simp only [e] at hk
  · trivial
  · split
    · simp [h, hk]
    · exact State.startOp_memWf _ _ _ (by simp [h, hk])

theorem execTset_memWf (h : s.m.mem.wf = true) : MemWfOut (execTset c t f s) :=
  issue_memWf _ _ _ _ _ _ _ _ _ h (by extract_lets +onlyGivenNames w; split <;> simp [h])

theorem execVst_memWf (h : s.m.mem.wf = true) : MemWfOut (execVst c t f s) :=
  issue_memWf _ _ _ _ _ _ _ _ _ h (State.vecStore_memWf _ _ _ _ _ _ h)

theorem execVsts_memWf (h : s.m.mem.wf = true) : MemWfOut (execVsts c t f s) := by
  refine issue_memWf _ _ _ _ _ _ _ _ _ h ?_
  extract_lets +onlyGivenNames base stride els
  split
  · trivial
  · exact State.vecStore_memWf _ _ _ _ _ _ h

theorem readVldt_memWf (ue : List FInfo) (h : s.m.mem.wf = true) : MemWfOut (readVldt ue c t f s) := by
  refine issueUe_memWf _ _ _ _ _ _ _ _ _ _ h ?_
  extract_lets +onlyGivenNames w row part els
  (repeat' split) <;> simp [h]

theorem execVstt_memWf (h : s.m.mem.wf = true) : MemWfOut (execVstt c t f s) := by
  refine issue_memWf _ _ _ _ _ _ _ _ _ h ?_
  extract_lets +onlyGivenNames w row part els
  (repeat' split) <;> simp [h]

theorem readSopen_memWf (ue : List FInfo) (h : s.m.mem.wf = true) : MemWfOut (readSopen ue c t f s) := by
  refine issueUe_memWf _ _ _ _ _ _ _ _ _ _ h ?_
  extract_lets +onlyGivenNames off q
  split
  · trivial
  · extract_lets +onlyGivenNames _ st st' limit
    split <;> simp [h]

theorem execSclose_memWf (h : s.m.mem.wf = true) : MemWfOut (execSclose c t f s) := by
  refine issue_memWf _ _ _ _ _ _ _ _ _ h ?_
  extract_lets +onlyGivenNames q st
  (repeat' split) <;> simp [h]

theorem execSrd_memWf (h : s.m.mem.wf = true) : MemWfOut (execSrd c t f s) := by
  refine issue_memWf _ _ _ _ _ _ _ _ _ h ?_
  extract_lets +onlyGivenNames q st
  (repeat' split) <;> simp [h]

theorem execSwr_memWf (h : s.m.mem.wf = true) : MemWfOut (execSwr c t f s) := by
  refine issue_memWf _ _ _ _ _ _ _ _ _ h ?_
  extract_lets +onlyGivenNames q st
  split
  · trivial
  · split
    · exact h
    · have hk := State.writeKeys_frame s c st (st.chunkEls st.written)
      split <;> rename_i e <;> simp only [e] at hk
      · trivial
      · simp [h, hk]

theorem execStreamFetch_memWf (q : Fin 16) (h : s.m.mem.wf = true) : MemWfOut (execStreamFetch c q s) := by
  refine unlessStopped_memWf h ?_
  split <;> simp [h]

theorem execChunkLand_memWf (q : Fin 16) (h : s.m.mem.wf = true) : MemWfOut (execChunkLand c q s) :=
  unlessStopped_memWf h (by simp [h])

theorem execBerthReturn_memWf (id : Nat) (h : s.m.mem.wf = true) : MemWfOut (execBerthReturn c id s) := by
  refine unlessStopped_memWf h ?_
  split <;> simp [h]

/-! ### Class 5: tokens and fences -/

theorem sender_memWf (op kind : Nat) (h : s.m.mem.wf = true) : MemWfOut (sender op kind c t f s) :=
  issue_memWf _ _ _ _ _ _ _ _ _ h (by split <;> simp [h])

theorem execSig_memWf (h : s.m.mem.wf = true) : MemWfOut (execSig c t f s) :=
  issue_memWf _ _ _ _ _ _ _ _ _ h (by (repeat' split) <;> simp [h])

theorem execWaitc_memWf (h : s.m.mem.wf = true) : MemWfOut (execWaitc c t f s) :=
  issue_memWf _ _ _ _ _ _ _ _ _ h (by extract_lets +onlyGivenNames ch need n; (repeat' split) <;> simp [h])

theorem execBwait_memWf (h : s.m.mem.wf = true) : MemWfOut (execBwait c t f s) :=
  issue_memWf _ _ _ _ _ _ _ _ _ h (by extract_lets +onlyGivenNames ch n; (repeat' split) <;> simp [h])

theorem execFence_memWf (h : s.m.mem.wf = true) : MemWfOut (execFence c t f s) :=
  issue_memWf _ _ _ _ _ _ _ _ _ h (by split <;> simp [h])

/-! ### Class 2: the matrix engine -/

theorem execMxm_memWf (h : s.m.mem.wf = true) : MemWfOut (execMxm c t f s) := by
  refine issue_memWf _ _ _ _ _ _ _ _ _ h ?_
  split
  · trivial
  · split
    · exact h
    · have hk := State.predict_frame s c f
      extract_lets +onlyGivenNames os ta tb k
      split
      rename_i e
      simp only [e] at hk
      extract_lets +onlyGivenNames claimed fixedA fixed x credited
      have hc : claimed.m.mem.wf = true := foldl_memWf _ _ _ (by simp [h, hk]) (fun u b hu => by
        simpa using hu)
      have hx : fixed.m.mem = claimed.m.mem := by
        simp only [fixed, fixedA]
        split <;> simp
      simpa -implicitDefEqProofs [credited, hx] using hc

theorem execMldp_memWf (h : s.m.mem.wf = true) : MemWfOut (execMldp c t f s) := by
  refine issue_memWf _ _ _ _ _ _ _ _ _ h ?_
  extract_lets +onlyGivenNames r k tyFault
  split
  · trivial
  · simp [h]

theorem execMdrop_memWf (h : s.m.mem.wf = true) : MemWfOut (execMdrop c t f s) := by
  refine issue_memWf _ _ _ _ _ _ _ _ _ h ?_
  extract_lets +onlyGivenNames w
  split
  · trivial
  · split
    · exact h
    · simp only [Eff.go_memWf]
      split <;> simp [h]

theorem execMdrain_memWf (h : s.m.mem.wf = true) : MemWfOut (execMdrain c t f s) :=
  issue_memWf _ _ _ _ _ _ _ _ _ h (by split <;> simp [h])

theorem execPlaneFree_memWf (plane : Fin 2) (h : s.m.mem.wf = true) : MemWfOut (execPlaneFree c plane s) :=
  unlessStopped_memWf h (by (repeat' split) <;> simp [h])

theorem execVtake_memWf (h : s.m.mem.wf = true) : MemWfOut (execVtake c t f s) := by
  refine issue_memWf _ _ _ _ _ _ _ _ _ h ?_
  extract_lets +onlyGivenNames off mc d
  (repeat' split) <;> simp [h]

theorem execVrel_memWf (h : s.m.mem.wf = true) : MemWfOut (execVrel c t f s) := by
  refine issue_memWf _ _ _ _ _ _ _ _ _ h ?_
  extract_lets +onlyGivenNames r w
  (repeat' split) <;> simp [h]

/-! ### Class 3: sampling, gathers, base commands, lookups -/

theorem State.travEnd_memWf (dst word : Nat) (cells : List (Nat × Byte)) {tr : Trav} (h : tr.s.m.mem.wf = true) :
    (State.travEnd c t dst word cells tr).MemWf := by
  unfold State.travEnd
  dsimp only
  split <;> simp [h]

theorem readSampling_memWf (ue : List FInfo) (op : Nat) {run : Samp → TravM SampRes}
    (hr : ∀ i, TravKeeps (fun u s => u.m.mem = s.m.mem ∧ u.pending = s.pending) (run i)) (h : s.m.mem.wf = true) :
    MemWfOut (readSampling ue op run c t f s) := by
  unfold readSampling
  refine issueUe_memWf _ _ _ _ _ _ _ _ _ _ h ?_
  extract_lets +onlyGivenNames i
  generalize sampFaults op i = fs
  cases fs with
  | cons => trivial
  | nil =>
    have hm := (hr i ⟨s, [], 0⟩).1
    dsimp only
    split <;> rename_i e <;> rw [e] at hm
    · trivial
    · exact State.travEnd_memWf _ _ _ _ _ (by simp_all)
    · exact State.travEnd_memWf _ _ _ _ _ (by simp_all)

theorem sampling_memWf (op : Nat) {run : Samp → TravM SampRes}
    (hr : ∀ i, TravKeeps (fun u s => u.m.mem = s.m.mem ∧ u.pending = s.pending) (run i)) (h : s.m.mem.wf = true) :
    MemWfOut (sampling op run c t f s) :=
  readSampling_memWf c t f [] op hr h

theorem readGathl_memWf (ue : List FInfo) (h : s.m.mem.wf = true) : MemWfOut (readGathl ue c t f s) := by
  unfold readGathl
  refine issueUe_memWf _ _ _ _ _ _ _ _ _ _ h ?_
  extract_lets +onlyGivenNames g
  split
  · trivial
  · extract_lets idx
    have hk := State.gathKeys_frame s c g idx
    split <;> rename_i e <;> simp only [e] at hk <;> simp [h, hk]

theorem execVscat_memWf (h : s.m.mem.wf = true) : MemWfOut (execVscat c t f s) := by
  refine issue_memWf _ _ _ _ _ _ _ _ _ h ?_
  have hk := State.vecKeys_frame s c (spaceOf f) (typeOf f) true (s.gathEls c t f)
  dsimp only
  split <;> rename_i e <;> simp only [e] at hk
  · trivial
  · split
    · simp [h, hk]
    · exact State.startOp_memWf _ _ _ (by simp [h, hk])

theorem readBcmd_memWf (ue : List FInfo) (h : s.m.mem.wf = true) : MemWfOut (readBcmd ue c t f s) := by
  refine issueUe_memWf _ _ _ _ _ _ _ _ _ _ h ?_
  extract_lets +onlyGivenNames off own
  split
  · trivial
  · extract_lets hdr
    (repeat' split) <;> simp [h]

theorem readBsplit_memWf (ue : List FInfo) (h : s.m.mem.wf = true) : MemWfOut (readBsplit ue c t f s) := by
  refine issueUe_memWf _ _ _ _ _ _ _ _ _ _ h ?_
  extract_lets +onlyGivenNames out inp cw n b q cnt
  split
  · trivial
  · extract_lets +onlyGivenNames splits
    split <;> simp [h]

theorem readBsort_memWf (ue : List FInfo) (h : s.m.mem.wf = true) : MemWfOut (readBsort ue c t f s) := by
  refine issueUe_memWf _ _ _ _ _ _ _ _ _ _ h ?_
  extract_lets +onlyGivenNames out inp cw n ndst uniq inOk rs ends wOff eOff
  split
  · trivial
  · split
    · simp [h]
    · simp only [Eff.go_memWf, State.setS_frame]
      exact State.wrB_memWf _ _ _ (State.wrB_memWf _ _ _ (by simp [h]))

theorem readEsort_memWf (ue : List FInfo) (h : s.m.mem.wf = true) : MemWfOut (readEsort ue c t f s) := by
  refine issueUe_memWf _ _ _ _ _ _ _ _ _ _ h ?_
  extract_lets +onlyGivenNames out inp cw n key run rs k sorted tail ends
  split <;> simp [h]

theorem State.eresEnd_memWf (dst word : Nat) (cells : List (Nat × Byte)) {tr : Trav} (h : tr.s.m.mem.wf = true) :
    (State.eresEnd c t dst word cells tr).MemWf := by
  simp [State.eresEnd, h]

theorem readEres_memWf (ue : List FInfo) (h : s.m.mem.wf = true) : MemWfOut (readEres ue c t f s) := by
  unfold readEres
  extract_lets +onlyGivenNames n
  refine issueUe_memWf _ _ _ _ _ _ _ _ _ _ h ?_
  extract_lets +onlyGivenNames cw i
  split
  · trivial
  · have hd := (eresDesc_keeps travRel_mem i ⟨s, [], 0⟩).1
    extract_lets +onlyGivenNames list
    split <;> rename_i e <;> rw [e] at hd
    · trivial
    · exact State.eresEnd_memWf _ _ _ _ _ (by simp_all)
    · extract_lets +onlyGivenNames one
      have hone : ∀ j r, TravKeeps (fun u s => u.m.mem = s.m.mem ∧ u.pending = s.pending) (one j r) := by
        intro j r
        simp only [one]
        split
        · exact resolveServe_keeps travRel_mem _ _ _ _
        · split
          · exact resolveReq_keeps travRel_mem _ _ _ _
          · exact .endWith travRel_mem _
      rename_i d tr
      have ha := (resolveAll_keeps travRel_mem hone list tr).1
      split
      rename_i er
      rw [er] at ha
      extract_lets +onlyGivenNames tr'
      have ht : tr'.s.m.mem = s.m.mem := by
        simp only [tr']
        split <;> simp_all
      extract_lets +onlyGivenNames cells
      split
      · simp [ht, h]
      · exact State.eresEnd_memWf _ _ _ _ _ (by simp_all)

theorem execPoolGroupIssue_memWf (q : Fin 16) (h : s.m.mem.wf = true) : MemWfOut (execPoolGroupIssue c q s) := by
  refine unlessStopped_memWf h ?_
  extract_lets +onlyGivenNames st first n
  split <;> simp [h]

/-- Sending a token for each of a list leaves memory as it is. -/
theorem State.sendToks_mem {α : Type} (l : List α) (tok : α → Word) (s : State) :
    (l.foldl (fun u a => u.sendTok (tok a)) s).m.mem = s.m.mem := by
  simp

theorem execFeederCreditReturn_memWf (q : Fin 16) (h : s.m.mem.wf = true) : MemWfOut (execFeederCreditReturn c q s) := by
  unfold execFeederCreditReturn
  refine unlessStopped_memWf h ?_
  extract_lets +onlyGivenNames st
  split
  · extract_lets u
    have hu : u.m.mem = s.m.mem := State.sendToks_mem _ _ _
    simpa [hu] using h
  · simp [h]

end Sys2Proof.Machine
end

section
/-! PROOF. What happens beside a core's instructions, on the die and in the fabric (01 to 15), commands that keep memory in its canonical form. -/

namespace Sys2Proof.Machine

variable {s : State}

/-! ### The matrix engine between instructions (04) -/

theorem execMxmStart_memWf (c : Fin 800) (h : s.m.mem.wf = true) : MemWfOut (execMxmStart c s) :=
  unlessStopped_memWf h (by simp [h])

theorem execBargePost_memWf (c : Fin 800) (h : s.m.mem.wf = true) : MemWfOut (execBargePost c s) :=
  unlessStopped_memWf h (by simp [h])

theorem execArrayFault_memWf (c : Fin 800) (h : s.m.mem.wf = true) : MemWfOut (execArrayFault c s) :=
  unlessStopped_memWf h (by simp [h])

theorem execPlaneReady_memWf (c : Fin 800) (plane : Fin 2) (h : s.m.mem.wf = true) : MemWfOut (execPlaneReady c plane s) :=
  unlessStopped_memWf h (by simp [h])

theorem execMxmFinish_memWf (c : Fin 800) (h : s.m.mem.wf = true) : MemWfOut (execMxmFinish c s) :=
  unlessStopped_memWf h (by simp [h])

/-! ### Base commands (09) -/

theorem execGather_memWf (st : Fin 8) (id : Nat) (h : s.m.mem.wf = true) : MemWfOut (execGather st id s) :=
  runCmd_memWf _ _ _ _ h (fun _ _ _ => by simp [h])

theorem execPool_memWf (st : Fin 8) (id : Nat) (h : s.m.mem.wf = true) : MemWfOut (execPool st id s) :=
  runCmd_memWf _ _ _ _ h (fun _ _ _ => by simp [h])

theorem execScatterAdd_memWf (st : Fin 8) (id : Nat) (h : s.m.mem.wf = true) : MemWfOut (execScatterAdd st id s) :=
  runCmd_memWf _ _ _ _ h (fun _ _ _ => by simp [h])

theorem execRowUpdate_memWf (st : Fin 8) (id : Nat) (h : s.m.mem.wf = true) : MemWfOut (execRowUpdate st id s) :=
  runCmd_memWf _ _ _ _ h (fun _ _ _ => by simp [h])

theorem execCommandCompletion_memWf (st : Fin 8) (id : Nat) (h : s.m.mem.wf = true) :
    MemWfOut (execCommandCompletion st id s) :=
  unlessStopped_memWf h (by (repeat' split) <;> simp [h])

/-! ### Tokens and control messages (01, 03) -/

theorem execTokenCreditReturn_memWf (tok : Word) (h : s.m.mem.wf = true) : MemWfOut (execTokenCreditReturn tok s) :=
  arrive_memWf _ _ _ h (fun _ hu => by split <;> simp [hu])

theorem execTokenSignal_memWf (tok : Word) (h : s.m.mem.wf = true) : MemWfOut (execTokenSignal tok s) := by
  unfold execTokenSignal
  split
  · simpa using h
  · exact arrive_memWf _ _ _ h (fun u hu => by split <;> simp [hu])

theorem execBarrierArrive_memWf (tok : Word) (h : s.m.mem.wf = true) : MemWfOut (execBarrierArrive tok s) :=
  arrive_memWf _ _ _ h (fun _ hu => by split <;> simp [hu])

theorem execBarrierRelease_memWf (tok : Word) (h : s.m.mem.wf = true) : MemWfOut (execBarrierRelease tok s) :=
  arrive_memWf _ _ _ h (fun _ hu => by split <;> simp [hu])

theorem execControlWrite_memWf (tok : Word) (target : CtlTarget) (h : s.m.mem.wf = true) :
    MemWfOut (execControlWrite tok target s) :=
  arrive_memWf _ _ _ h (fun _ hu => by (repeat' split) <;> simp [hu])

/-- A read that is shown and answered by a token leaves memory as it is. -/
theorem State.answerTok_memWf (b : List Byte) (tok : List Byte → Word) (h : s.m.mem.wf = true) :
    (have d := b; have u := s.answer (.data d); u.sendTok (tok d)).m.mem.wf = true := by
  simpa using h

theorem execControlRead_memWf (tok : Word) (target : CtlTarget) (h : s.m.mem.wf = true) :
    MemWfOut (execControlRead tok target s) := by
  unfold execControlRead
  exact arrive_memWf _ _ _ h (fun u hu => State.answerTok_memWf _ (fun b => mkTok 6 (tokSrcNode tok) (tokSrcSub tok)
    (tokDstNode tok) (tokDstSub tok) (tokChannel tok) (leNat b)) hu)

theorem execReadReply_memWf (tok : Word) (h : s.m.mem.wf = true) : MemWfOut (execReadReply tok s) :=
  arrive_memWf _ _ _ h (fun _ hu => by simp [hu])

theorem execFaultRecordNotice_memWf (tok : Word) (h : s.m.mem.wf = true) : MemWfOut (execFaultRecordNotice tok s) :=
  arrive_memWf _ _ _ h (fun _ hu => by dsimp only; split <;> simp [hu])

theorem execContributionDoorbell_memWf (tok : Word) (h : s.m.mem.wf = true) : MemWfOut (execContributionDoorbell tok s) := by
  unfold execContributionDoorbell
  refine doorbell_memWf _ _ _ _ _ h (fun u p sec i hu => ?_) (fun u p sec d hu => ?_)
  · simp [hu]
  · (repeat' split) <;> simp [hu]

theorem execExchangeDoorbell_memWf (tok : Word) (h : s.m.mem.wf = true) : MemWfOut (execExchangeDoorbell tok s) := by
  unfold execExchangeDoorbell
  refine doorbell_memWf _ _ _ _ _ h (fun u p sec i hu => ?_) (fun u p sec d hu => ?_)
  · simp [hu]
  · (repeat' split) <;> simp [hu]

/-! ### Tasks and channels (03, 20) -/

theorem execTaskStart_memWf (c : Fin 800) (h : s.m.mem.wf = true) : MemWfOut (execTaskStart c s) := by
  unfold execTaskStart
  dsimp only
  (repeat' split) <;> simp [h]

theorem execTaskHalt_memWf (c : Fin 800) (h : s.m.mem.wf = true) : MemWfOut (execTaskHalt c s) := by
  unfold execTaskHalt
  dsimp only
  split
  · simp [h]
  · exact unlessStopped_memWf (by simp [h]) (by simp [h])

theorem execTokenChannelOpen_memWf (c : Fin 800) (ch : Fin 64) (value : Word) (h : s.m.mem.wf = true) :
    MemWfOut (execTokenChannelOpen c ch value s) := by
  unfold execTokenChannelOpen
  dsimp only
  (repeat' split) <;> simp [h]

/-! ### Arbiters and memory stacks (08) -/

theorem execArbCommit_memWf (inst : Fin 1824) (h : s.m.mem.wf = true) : MemWfOut (execArbCommit inst s) := by
  unfold execArbCommit
  dsimp only
  split
  · simp [h]
  · exact unlessStopped_memWf (by simp [h]) (by simp [h])

theorem execArbiterRound_memWf (inst : Fin 1824) (errs : List SymErr) (h : s.m.mem.wf = true) :
    MemWfOut (execArbiterRound inst errs s) := by
  unfold execArbiterRound
  (repeat' split) <;> simp [h]

theorem execBankRefresh_memWf (st : Fin 8) (pc : Fin 64) (bank : Fin 32) (h : s.m.mem.wf = true) :
    MemWfOut (execBankRefresh st pc bank s) := by
  unfold execBankRefresh
  dsimp only
  split <;> simp [h]

theorem execRowClose_memWf (st : Fin 8) (pc : Fin 64) (bank : Fin 32) (h : s.m.mem.wf = true) :
    MemWfOut (execRowClose st pc bank s) := by
  unfold execRowClose
  dsimp only
  split <;> simp [h]

theorem execPatrolScrub_memWf (st : Fin 8) (addr : BitVec 36) (errs : List SymErr) (h : s.m.mem.wf = true) :
    MemWfOut (execPatrolScrub st addr errs s) :=
  unlessStopped_memWf h (by dsimp only; (repeat' split) <;> simp [h])

theorem execSweepRewrite_memWf (st : Fin 8) (h : s.m.mem.wf = true) : MemWfOut (execSweepRewrite st s) :=
  unlessStopped_memWf h (by (repeat' split) <;> simp [h])

/-! ### Frames of the fabric (11, 12) -/

theorem execIdle_memWf (lam : Fin 256) (frame : List Byte) (h : s.m.mem.wf = true) : MemWfOut (execIdle lam frame s) :=
  receive_memWf _ _ _ _ _ h (fun _ _ _ hu => by simp [hu])

theorem execCreditIdleSend_memWf (lam : Fin 256) (h : s.m.mem.wf = true) : MemWfOut (execCreditIdleSend lam s) := by
  unfold execCreditIdleSend
  dsimp only
  split <;> simp [h]

theorem execToken_memWf (lam : Fin 256) (frame : List Byte) (h : s.m.mem.wf = true) : MemWfOut (execToken lam frame s) :=
  receivePart_memWf _ _ _ _ _ _ h (fun _ _ _ hu => by simp [hu])

theorem execCollectiveLeaf_memWf (lam : Fin 256) (frame : List Byte) (h : s.m.mem.wf = true) :
    MemWfOut (execCollectiveLeaf lam frame s) := by
  exact collRow_memWf _ _ _ h

theorem execCollectivePartial_memWf (lam : Fin 256) (frame : List Byte) (h : s.m.mem.wf = true) :
    MemWfOut (execCollectivePartial lam frame s) := by
  exact collRow_memWf _ _ _ h

theorem execSpanUpdate_memWf (g : Fin 8) (p : Fin 8) (slot : Nat) (bucket : Nat) (span : Nat) (h : s.m.mem.wf = true) :
    MemWfOut (execSpanUpdate g p slot bucket span s) :=
  unlessStopped_memWf h (by split <;> simp [h])

theorem execHubSpanUpdate_memWf (p : Fin 8) (slot : Nat) (bucket : Nat) (span : Nat) (h : s.m.mem.wf = true) :
    MemWfOut (execHubSpanUpdate p slot bucket span s) :=
  unlessStopped_memWf h (by split <;> simp [h])

theorem execLateMarker_memWf (lam : Fin 256) (frame : List Byte) (h : s.m.mem.wf = true) :
    MemWfOut (execLateMarker lam frame s) := by
  exact collRow_memWf _ _ _ h

theorem execGatherFlight_memWf (lam : Fin 256) (frame : List Byte) (h : s.m.mem.wf = true) :
    MemWfOut (execGatherFlight lam frame s) := by
  exact collRow_memWf _ _ _ h

theorem execGatherReach_memWf (lam : Fin 256) (frame : List Byte) (h : s.m.mem.wf = true) :
    MemWfOut (execGatherReach lam frame s) := by
  exact collRow_memWf _ _ _ h

theorem execCoachSegment_memWf (lam : Fin 256) (frame : List Byte) (h : s.m.mem.wf = true) :
    MemWfOut (execCoachSegment lam frame s) :=
  receivePart_memWf _ _ _ _ _ _ h (fun _ _ _ hu => by split <;> simp [hu])

theorem execSnapshotData_memWf (lam : Fin 256) (frame : List Byte) (h : s.m.mem.wf = true) :
    MemWfOut (execSnapshotData lam frame s) :=
  receivePart_memWf _ _ _ _ _ _ h (fun _ _ _ hu => by dsimp only; (repeat' split) <;> simp [hu])

theorem execSnapshotAck_memWf (via : Via) (h : s.m.mem.wf = true) : MemWfOut (execSnapshotAck via s) := by
  cases via with
  | own => simpa [execSnapshotAck] using h
  | lambda lam frame => exact receivePart_memWf _ _ _ _ _ _ h (fun u p d hu => by simp [hu])

theorem execSnapshotRefusal_memWf (via : Via) (h : s.m.mem.wf = true) : MemWfOut (execSnapshotRefusal via s) := by
  cases via with
  | own => simpa [execSnapshotRefusal] using h
  | lambda lam frame =>
    refine receivePart_memWf _ _ _ _ _ _ h (fun u p d hu => ?_)
    (repeat' split) <;> simp [hu]

theorem execMigrationRecord_memWf (lam : Fin 256) (frame : List Byte) (h : s.m.mem.wf = true) :
    MemWfOut (execMigrationRecord lam frame s) :=
  receivePart_memWf _ _ _ _ _ _ h (fun _ _ _ hu => by simp [hu])

theorem execHello_memWf (lam : Fin 256) (frame : List Byte) (h : s.m.mem.wf = true) : MemWfOut (execHello lam frame s) := by
  unfold execHello
  dsimp only
  split
  · simp
  · split
    · simpa using h
    · split
      · exact receive_memWf _ _ _ _ _ h (fun u p d hu => by simp [hu])
      · split <;> simp [h]

theorem execLinkstate_memWf (lam : Fin 256) (frame : List Byte) (h : s.m.mem.wf = true) :
    MemWfOut (execLinkstate lam frame s) :=
  receive_memWf _ _ _ _ _ h (fun _ _ _ hu => by split <;> simp [hu])

theorem execLinkstateSend_memWf (h : s.m.mem.wf = true) : MemWfOut (execLinkstateSend s) :=
  unlessStopped_memWf h (by split <;> simp [h])

theorem execLinkquery_memWf (lam : Fin 256) (frame : List Byte) (h : s.m.mem.wf = true) :
    MemWfOut (execLinkquery lam frame s) :=
  receive_memWf _ _ _ _ _ h (fun _ _ _ hu => by split <;> simp [hu])

theorem execLinkreply_memWf (lam : Fin 256) (frame : List Byte) (h : s.m.mem.wf = true) :
    MemWfOut (execLinkreply lam frame s) :=
  receive_memWf _ _ _ _ _ h (fun _ _ _ hu => by split <;> simp [hu])

theorem execFrameForward_memWf (lam : Fin 256) (frame : List Byte) (h : s.m.mem.wf = true) :
    MemWfOut (execFrameForward lam frame s) := by
  unfold execFrameForward
  dsimp only
  (repeat' split) <;> simp [h]

theorem execBounceResend_memWf (lam : Fin 256) (frame : List Byte) (h : s.m.mem.wf = true) :
    MemWfOut (execBounceResend lam frame s) := by
  unfold execBounceResend
  dsimp only
  (repeat' split) <;> simp [h]

theorem execRetransmit_memWf (lam : Fin 256) (h : s.m.mem.wf = true) : MemWfOut (execRetransmit lam s) := by
  unfold execRetransmit
  dsimp only
  split <;> simp [h]

theorem execFrameCrcError_memWf (lam : Fin 256) (frame : FecFrame) (h : s.m.mem.wf = true) :
    MemWfOut (execFrameCrcError lam frame s) := by
  unfold execFrameCrcError
  dsimp only
  (repeat' split) <;> simp [h]

theorem execLambdaRetrain_memWf (lam : Fin 256) (h : s.m.mem.wf = true) : MemWfOut (execLambdaRetrain lam s) := by
  unfold execLambdaRetrain
  dsimp only
  split <;> simp [h]

theorem execLambdaDown_memWf (lam : Fin 256) (h : s.m.mem.wf = true) : MemWfOut (execLambdaDown lam s) := by
  unfold execLambdaDown
  split <;> simp [h]

theorem execLambdaUp_memWf (lam : LamSeq) (h : s.m.mem.wf = true) : MemWfOut (execLambdaUp lam s) := by
  unfold execLambdaUp
  dsimp only
  (repeat' split) <;> simp [h]

theorem execUnreachable_memWf (dst : Nat) (h : s.m.mem.wf = true) : MemWfOut (execUnreachable dst s) := by
  unfold execUnreachable
  dsimp only
  split
  · simpa using h
  · rw [memWfOut_next]
    refine foldl_memWf _ _ _ (foldl_memWf _ _ _ (foldl_memWf _ _ _ ?_ ?_) ?_) ?_
    · simp [h]
    all_goals exact fun u x hu => by simp [hu]

/-! ### Lasers and ports (11) -/

theorem execFabricBringUp_memWf (light : BitVec 256) (lasers : BitVec 128) (h : s.m.mem.wf = true) :
    MemWfOut (execFabricBringUp light lasers s) := by
  have hset : ∀ (u : State) e a b n, ((u.setLaser e a b).setSrc e n).m = u.m := fun u e a b n => by simp
  have hdark : ∀ (u : State) e a b, (u.darkEngine e a b).m = u.m := fun u e a b => by simp
  unfold execFabricBringUp
  extract_lets +onlyGivenNames s0
  have h0 : s0.m.mem = s.m.mem := by simp [s0]
  clear_value s0
  split
  · simp [h0, h]
  · split
    · simp [h0, h]
    · extract_lets +onlyGivenNames unplaced fab powered miss lit dark
      have hp : powered.m = s0.m := by simp only [powered, unplaced, State.forgetPosition_frame]
      clear_value powered
      have hl : lit.m.mem.wf = true := by
        simp only [lit]
        exact foldl_memWf _ _ _ (by simpa [hp, h0] using h) (fun u e hu => by rw [hset]; exact hu)
      clear_value lit
      split
      · rw [memWfOut_next]
        exact foldl_memWf _ _ _ hl (fun u e hu => by rw [hdark]; exact hu)
      · extract_lets +onlyGivenNames arbs helloed
        have hh : helloed.m.mem.wf = true := by
          simp only [helloed, arbs]
          exact foldl_memWf _ _ _ (foldl_memWf _ _ _ hl (fun u n hu => foldl_memWf _ _ _ hu (fun v e hv => by simp [hv])))
            (fun u l hu => by simp [hu])
        clear_value helloed
        split
        · extract_lets +onlyGivenNames placed looped
          rw [memWfOut_next]
          exact foldl_memWf _ _ _ (by simp [looped, placed, hh]) (fun u l hu => by simp [hu])
        · extract_lets +onlyGivenNames bad
          have hb : ∀ plane l (u : State), u.m.mem.wf = true → (bad plane l u).m.mem.wf = true := by
            intro plane l u hu
            simp only [bad]
            split <;> simp [hu]
          rw [memWfOut_next]
          exact hb _ _ _ (hb _ _ _ hh)

theorem execUseA_memWf (e : Fin 8) (aOk : Bool) (h : s.m.mem.wf = true) : MemWfOut (execUseA e aOk s) := by
  unfold execUseA
  dsimp only
  split
  · simp [h]
  · exact unlessStopped_memWf (by simp [h]) (by simp [h])

theorem execLaserSwitch_memWf (e : Fin 8) (bOk : Bool) (h : s.m.mem.wf = true) : MemWfOut (execLaserSwitch e bOk s) :=
  unlessStopped_memWf h (by simp [h])

theorem execLaserSupply_memWf (e : Fin 8) (missA missB : BitVec 8) (h : s.m.mem.wf = true) :
    MemWfOut (execLaserSupply e missA missB s) :=
  unlessStopped_memWf h (by split <;> simp [h])

theorem execPortShutter_memWf (n : Fin 32) (h : s.m.mem.wf = true) : MemWfOut (execPortShutter n s) := by
  unfold execPortShutter
  split <;> simp [h]

theorem execShutterProbe_memWf (n : Fin 32) (h : s.m.mem.wf = true) : MemWfOut (execShutterProbe n s) :=
  unlessStopped_memWf h (by split <;> simp [h])

theorem execPortOpen_memWf (n : Fin 32) (h : s.m.mem.wf = true) : MemWfOut (execPortOpen n s) := by
  unfold execPortOpen
  split <;> simp [h]

theorem execLaserEnableDrop_memWf (d : LaserDrop) (h : s.m.mem.wf = true) : MemWfOut (execLaserEnableDrop d s) := by
  unfold execLaserEnableDrop
  split <;> simp [h]

/-! ### The step and its messages (12 to 15) -/

theorem execStragglerWindowClose_memWf (p : Fin 8) (h : s.m.mem.wf = true) : MemWfOut (execStragglerWindowClose p s) :=
  unlessStopped_memWf h (by dsimp only; split <;> simp [h])

theorem execVoteSend_memWf (p : Fin 8) (h : s.m.mem.wf = true) : MemWfOut (execVoteSend p s) :=
  unlessStopped_memWf h (by split <;> simp [h])

theorem execVote_memWf (via : Via) (h : s.m.mem.wf = true) : MemWfOut (execVote via s) :=
  msgRow_memWf _ _ _ h (fun _ _ _ _ hu => by dsimp only; (repeat' split) <;> simp [hu])

theorem execGroupVote_memWf (via : Via) (h : s.m.mem.wf = true) : MemWfOut (execGroupVote via s) :=
  msgRow_memWf _ _ _ h (fun _ _ _ _ hu => by dsimp only; (repeat' split) <;> simp [hu])

theorem execVerdict_memWf (via : Via) (h : s.m.mem.wf = true) : MemWfOut (execVerdict via s) :=
  msgRow_memWf _ _ _ h (fun _ _ _ _ hu => by split <;> simp [hu])

theorem execAppliedSend_memWf (p : Fin 8) (h : s.m.mem.wf = true) : MemWfOut (execAppliedSend p s) :=
  unlessStopped_memWf h (by dsimp only; (repeat' split) <;> simp [h])

theorem execApplied_memWf (via : Via) (h : s.m.mem.wf = true) : MemWfOut (execApplied via s) :=
  msgRow_memWf _ _ _ h (fun _ _ _ _ hu => by simp [hu])

theorem execGroupApplied_memWf (via : Via) (h : s.m.mem.wf = true) : MemWfOut (execGroupApplied via s) :=
  msgRow_memWf _ _ _ h (fun _ _ _ _ hu => by simp [hu])

theorem execCommit_memWf (via : Via) (h : s.m.mem.wf = true) : MemWfOut (execCommit via s) :=
  msgRow_memWf _ _ _ h (fun _ _ _ _ hu => by dsimp only; (repeat' split) <;> simp [hu])

theorem execRollback_memWf (via : Via) (h : s.m.mem.wf = true) : MemWfOut (execRollback via s) :=
  msgRow_memWf _ _ _ h (fun _ _ _ _ hu => by dsimp only; (repeat' split) <;> simp [hu])

theorem execAbort_memWf (via : Via) (h : s.m.mem.wf = true) : MemWfOut (execAbort via s) :=
  msgRow_memWf _ _ _ h (fun _ _ _ _ hu => by simp [hu])

theorem execResolve_memWf (via : Via) (h : s.m.mem.wf = true) : MemWfOut (execResolve via s) :=
  msgRow_memWf _ _ _ h (fun _ _ _ _ hu => by simp [hu])

theorem execState_memWf (via : Via) (h : s.m.mem.wf = true) : MemWfOut (execState via s) :=
  msgRow_memWf _ _ _ h (fun _ _ _ _ hu => by simp [hu])

theorem execHoldEnter_memWf (p : Fin 8) (h : s.m.mem.wf = true) : MemWfOut (execHoldEnter p s) :=
  unlessStopped_memWf h (by dsimp only; (repeat' split) <;> simp [h])

theorem execPhaseStart_memWf (p : Fin 8) (h : s.m.mem.wf = true) : MemWfOut (execPhaseStart p s) :=
  unlessStopped_memWf h (by dsimp only; (repeat' split) <;> simp [h])

theorem execServeHeadTimer_memWf (p : Fin 8) (h : s.m.mem.wf = true) : MemWfOut (execServeHeadTimer p s) :=
  unlessStopped_memWf h (by split <;> simp [h])

theorem execRiskEval_memWf (tj : Nat) (sramCe : List SramFix) (h : s.m.mem.wf = true) :
    MemWfOut (execRiskEval tj sramCe s) := by
  unfold execRiskEval
  split
  · simpa using h
  · extract_lets +onlyGivenNames fixed dark brown t0 t1 t2 t3 t4 t5 t6 score shown dwell hist _ u
    have hu : u.m.mem.wf = true := by
      have hf : fixed.m.mem.wf = true := foldl_memWf _ _ _ h (fun u x hu => by simp [hu])
      simpa [u, shown] using hf
    split <;> simp [hu]

theorem execDrainStart_memWf (h : s.m.mem.wf = true) : MemWfOut (execDrainStart s) := by
  unfold execDrainStart
  extract_lets +onlyGivenNames ps
  split
  · simpa using h
  · split
    · simp [h]
    · split
      · simp [h]
      · split
        · simpa using h
        · extract_lets u
          have hu : u.m.mem.wf = true := foldl_memWf _ _ _ (by simp [h]) (fun u x hu => by simp [hu])
          simp [hu]

end Sys2Proof.Machine
end

section
/-! PROOF. The commands of the host, of boot, errors and power (14 to 21) keep memory in its canonical form. -/

namespace Sys2Proof.Machine

variable {s : State}

/-! ### Host commands: partitions and memory (16, 17) -/

theorem execPartCreate_memWf (cmd : HostCmd) (h : s.m.mem.wf = true) : MemWfOut (execPartCreate cmd s) :=
  hostRow_memWf _ _ _ h (fun _ => by dsimp only; (repeat' split) <;> simp [h])

theorem execPartFence_memWf (cmd : HostCmd) (h : s.m.mem.wf = true) : MemWfOut (execPartFence cmd s) :=
  hostRow_memWf _ _ _ h (fun _ => by split <;> simp [h])

theorem execPartTeardown_memWf (cmd : HostCmd) (h : s.m.mem.wf = true) : MemWfOut (execPartTeardown cmd s) :=
  hostRow_memWf _ _ _ h (fun _ => by split <;> simp [h])

theorem execPartQuery_memWf (cmd : HostCmd) (h : s.m.mem.wf = true) : MemWfOut (execPartQuery cmd s) :=
  hostRow_memWf _ _ _ h (fun _ => by simp [h])

theorem execPartStart_memWf (q : Requester) (p : Fin 8) (h : s.m.mem.wf = true) : MemWfOut (execPartStart q p s) := by
  unfold execPartStart
  dsimp only
  (repeat' split) <;> simp [h]

/-- What a unit of a transfer does keeps memory in its canonical form, whether it succeeds or fails. -/
def UnitMemWf (f : Nat → Nat → State → Option State × State) : Prop :=
  ∀ (va k : Nat) (u : State), u.m.mem.wf = true →
    (∀ v, (f va k u).1 = some v → v.m.mem.wf = true) ∧ (f va k u).2.m.mem.wf = true

theorem State.units_memWf (p : Nat) (write : Bool) {f : Nat → Nat → State → Option State × State} (hf : UnitMemWf f)
    (n va : Nat) (h : s.m.mem.wf = true) : (State.units p write f n va s).2.m.mem.wf = true := by
  induction n generalizing va s with
  | zero => exact h
  | succ n ih =>
    have ht : (s.walkSeen 7 p va 64).m.mem.wf = true := by simpa using h
    rw [State.units]
    generalize s.walkSeen 7 p va 64 = t at ht ⊢
    split
    · exact ht
    · split
      · split
        · exact ht
        · next k w _ _ =>
          obtain ⟨hgo, hstop⟩ := hf va k t ht
          split <;> rename_i e <;> rw [e] at hgo hstop
          · exact ih _ (hgo _ rfl)
          · exact hstop
      · exact ht

theorem unitReply_memWf (n : Nat) {r : MRes × State} (h : r.2.m.mem.wf = true) : (unitReply n r).MemWf := by
  obtain ⟨_ | _ | _, u⟩ := r <;> simpa [unitReply] using h

theorem memWriteUnit_unitMemWf (c : HostCmd) (p : Nat) : UnitMemWf (memWriteUnit c p) :=
  fun va k u hu => ⟨by simp [memWriteUnit, hu], memWriteUnit_memWf c p va k u hu⟩

theorem memFillUnit_unitMemWf (c : HostCmd) (p : Nat) : UnitMemWf (memFillUnit c p) :=
  fun va k u hu => ⟨by simp [memFillUnit, hu], memFillUnit_memWf c p va k u hu⟩

theorem memReadUnit_unitMemWf (c : HostCmd) : UnitMemWf (memReadUnit c) := by
  refine fun va k u hu => ⟨?_, memReadUnit_memWf c va k u hu⟩
  have hr := State.readKeys_frame u 7 (seqKeys k 64)
  unfold memReadUnit
  split <;> rename_i e <;> simp only [e] at hr
  · simp [hr, hu]
  · simp

theorem execMemWrite_memWf (cmd : HostCmd) (h : s.m.mem.wf = true) : MemWfOut (execMemWrite cmd s) := by
  unfold execMemWrite
  refine hostRow_memWf _ _ _ h (fun x => ?_)
  extract_lets +onlyGivenNames va n
  split
  · simpa using h
  · split
    · simpa using h
    · split
      · simpa using h
      · exact unitReply_memWf _ (State.units_memWf _ _ (memWriteUnit_unitMemWf _ _) _ _ h)

theorem execMemRead_memWf (cmd : HostCmd) (h : s.m.mem.wf = true) : MemWfOut (execMemRead cmd s) := by
  unfold execMemRead
  refine hostRow_memWf _ _ _ h (fun x => ?_)
  extract_lets +onlyGivenNames va n
  split
  · simpa using h
  · split
    · simpa using h
    · split
      · simpa using h
      · exact unitReply_memWf _ (State.units_memWf _ _ (memReadUnit_unitMemWf _) _ _ h)

theorem execMemFill_memWf (cmd : HostCmd) (h : s.m.mem.wf = true) : MemWfOut (execMemFill cmd s) := by
  unfold execMemFill
  refine hostRow_memWf _ _ _ h (fun x => ?_)
  extract_lets +onlyGivenNames va n
  split
  · simpa using h
  · split
    · simpa using h
    · split
      · simpa using h
      · exact unitReply_memWf _ (State.units_memWf _ _ (memFillUnit_unitMemWf _ _) _ _ h)

theorem execPtSet_memWf (cmd : HostCmd) (h : s.m.mem.wf = true) : MemWfOut (execPtSet cmd s) := by
  refine boundaryRow_memWf _ _ _ _ h (fun p r e => ?_) (fun d p => State.applyCmd_memWf s d p h)
  (repeat' split at e) <;> simp only [Option.some.injEq, reduceCtorEq] at e <;> simp [← e, h]

theorem execApertureSet_memWf (cmd : HostCmd) (h : s.m.mem.wf = true) : MemWfOut (execApertureSet cmd s) :=
  hostRow_memWf _ _ _ h (fun _ => by (repeat' split) <;> simp [h])

theorem State.faultAt_memWf (p va : Nat) (h : s.m.mem.wf = true) : (s.faultAt p va).MemWf := by
  unfold State.faultAt
  dsimp only
  split <;> simp [h]

theorem execDegreeBin_memWf (cmd : HostCmd) (h : s.m.mem.wf = true) : MemWfOut (execDegreeBin cmd s) := by
  unfold execDegreeBin
  refine hostRow_memWf _ _ _ h (fun x => ?_)
  extract_lets +onlyGivenNames a n o f
  split
  · simpa using h
  · split
    · simpa using h
    · split
      · simpa using h
      · split
        · exact State.faultAt_memWf _ _ h
        · exact State.faultAt_memWf _ _ h
        · exact State.faultAt_memWf _ _ h
        · have hr := State.hubRead_frame s 7 (cPart cmd) a (16 * n)
          split <;> rename_i e <;> simp only [e] at hr
          · simp [hr, h]
          · next b u =>
            have hu : u.m.mem.wf = true := by simp [hr, h]
            extract_lets +onlyGivenNames w l
            split
            · simpa using hu
            · split
              next ids offs _ =>
              have hi := State.hubWrite_memWf u 7 (cPart cmd) o ids hu
              split <;> rename_i e <;> rw [e] at hi
              · exact hi
              · next u =>
                have ho := State.hubWrite_memWf u 7 (cPart cmd) f offs hi
                split <;> rename_i e <;> rw [e] at ho
                · exact ho
                · exact ho

/-! ### Host commands: jobs, tables and checkpoints (14, 15) -/

theorem execJobLoad_memWf (cmd : HostCmd) (h : s.m.mem.wf = true) : MemWfOut (execJobLoad cmd s) := by
  unfold execJobLoad
  refine hostRow_memWf _ _ _ h (fun x => ?_)
  extract_lets +onlyGivenNames b n
  split
  · simpa using h
  · split
    · simpa using h
    · extract_lets +onlyGivenNames fresh
      have hl := State.loadItems_memWf fresh (cPart cmd) (piecesOf 32 n (b.drop 64)) (by simpa [fresh] using h)
      split <;> rename_i e <;> rw [e] at hl
      · dsimp only at hl ⊢
        (repeat' split) <;> simp [hl]
      · split <;> simpa using hl

theorem needsStarted_memWf (p : Nat) {r : HRes} (h : s.m.mem.wf = true) (e : needsStarted p s = some r) : r.MemWf := by
  unfold needsStarted at e
  split at e <;> simp only [Option.some.injEq, reduceCtorEq] at e
  simp [← e, h]

theorem execJobStop_memWf (cmd : HostCmd) (h : s.m.mem.wf = true) : MemWfOut (execJobStop cmd s) :=
  boundaryRow_memWf _ _ _ _ h (fun p _ e => needsStarted_memWf p h e) (fun _ p => State.stopJob_memWf s p h)

theorem execJobResume_memWf (cmd : HostCmd) (h : s.m.mem.wf = true) : MemWfOut (execJobResume cmd s) :=
  hostRow_memWf _ _ _ h (fun _ => by split <;> simp [h])

theorem execStepRun_memWf (cmd : HostCmd) (h : s.m.mem.wf = true) : MemWfOut (execStepRun cmd s) :=
  hostRow_memWf _ _ _ h (fun _ => by split <;> simp [h])

theorem State.serveStart_memWf (p : Nat) (c : HostCmd) (h : s.m.mem.wf = true) : (s.serveStart p c).MemWf := by
  unfold State.serveStart
  split
  · exact State.faultAt_memWf _ _ h
  · split <;> simp [h]

theorem State.serveEnd_memWf (p : Nat) (c : HostCmd) (h : s.m.mem.wf = true) : (s.serveEnd p c).MemWf := by
  unfold State.serveEnd
  have hf := State.free_frame s 32
  split
  next n u e =>
  simp only [e] at hf
  have hu : u.m.mem.wf = true := by simpa [hf] using h
  split
  · exact State.faultAt_memWf _ _ (by simpa using hu)
  · exact State.faultAt_memWf _ _ (by simpa using hu)
  · extract_lets +onlyGivenNames j i seen req rep written done
    have hw : written.m.mem.wf = true := State.hubWrite_memWf _ _ _ _ _ (by simpa [seen] using hu)
    clear_value written
    simp [done, hw]

theorem execServeBatch_memWf (cmd : HostCmd) (h : s.m.mem.wf = true) : MemWfOut (execServeBatch cmd s) := by
  unfold execServeBatch
  refine hostRow_memWf _ _ _ h (fun x => ?_)
  extract_lets +onlyGivenNames j
  split
  · simpa using h
  · split
    · split
      · simpa using h
      · split
        · simp [h]
        · split
          · exact State.serveEnd_memWf _ _ h
          · simpa using h
    · split
      · split <;> simpa using h
      · split
        · simpa using h
        · exact State.serveStart_memWf _ _ h

theorem execLedgerRead_memWf (cmd : HostCmd) (h : s.m.mem.wf = true) : MemWfOut (execLedgerRead cmd s) :=
  hostRow_memWf _ _ _ h (fun _ => by split <;> simp [h])

theorem execTableReplace_memWf (cmd : HostCmd) (h : s.m.mem.wf = true) : MemWfOut (execTableReplace cmd s) := by
  refine boundaryRow_memWf _ _ _ _ h (fun p r e => ?_) (fun d p => State.applyCmd_memWf s d p h)
  split at e <;> simp only [Option.some.injEq, reduceCtorEq] at e
  simp [← e, h]

theorem execHotRefresh_memWf (cmd : HostCmd) (h : s.m.mem.wf = true) : MemWfOut (execHotRefresh cmd s) :=
  boundaryRow_memWf _ _ _ _ h (fun p _ e => needsStarted_memWf p h e) (fun d p => State.applyCmd_memWf s d p h)

theorem execCkptBuffers_memWf (cmd : HostCmd) (h : s.m.mem.wf = true) : MemWfOut (execCkptBuffers cmd s) :=
  hostRow_memWf _ _ _ h (fun _ => by dsimp only; (repeat' split) <;> simp [h])

theorem execCkptRestore_memWf (cmd : HostCmd) (h : s.m.mem.wf = true) : MemWfOut (execCkptRestore cmd s) :=
  hostRow_memWf _ _ _ h (fun _ => by dsimp only; (repeat' split) <;> simp [h])

theorem execDrain_memWf (cmd : HostCmd) (h : s.m.mem.wf = true) : MemWfOut (execDrain cmd s) :=
  hostRow_memWf _ _ _ h (fun _ => by split <;> simp [h])

theorem State.redistNo_memWf (p source step : Nat) (l : List Nat) {r : HRes} (h : s.m.mem.wf = true)
    (e : s.redistNo p source step l = some r) : r.MemWf := by
  unfold State.redistNo at e
  (repeat' split at e) <;> simp only [Option.some.injEq, reduceCtorEq] at e <;> simp [← e, h]

theorem execRedistribute_memWf (cmd : HostCmd) (h : s.m.mem.wf = true) : MemWfOut (execRedistribute cmd s) := by
  unfold execRedistribute
  refine hostRow_memWf _ _ _ h (fun x => ?_)
  extract_lets +onlyGivenNames j source step l
  split
  · simp [h]
  · split
    · simpa using h
    · split
      · simpa using h
      · split
        · next r e => exact State.redistNo_memWf _ _ _ _ h e
        · extract_lets +onlyGivenNames mapped
          have hm : mapped.m.mem.wf = true := by simp [mapped, h]
          clear_value mapped
          split
          · have hh : ∀ l : List Nat, (l.foldl (fun u d => u.handOver (cPart cmd) d)
                (mapped.beginRestore (cPart cmd) ⟨step, false, true, none⟩)).m.mem.wf = true :=
              fun l => foldl_memWf _ _ _ (by simp [hm]) (fun u d hu => State.handOver_memWf u _ d hu)
            exact State.restoreOn_memWf _ _ (State.absorbAll_memWf _ _ _ (hh l))
          · split
            · simpa using h
            · split
              · simpa using h
              · split
                · simpa using h
                · exact State.restoreOn_memWf _ _ (by simp [hm])

/-! ### Host commands: keys, identity, debug and power (16, 18, 19) -/

theorem execQuote_memWf (cmd : HostCmd) (h : s.m.mem.wf = true) : MemWfOut (execQuote cmd s) :=
  hostRow_memWf _ _ _ h (fun _ => by (repeat' split) <;> simp [h])

theorem execKemRead_memWf (cmd : HostCmd) (h : s.m.mem.wf = true) : MemWfOut (execKemRead cmd s) :=
  hostRow_memWf _ _ _ h (fun _ => by (repeat' split) <;> simp [h])

theorem execKemRefresh_memWf (cmd : HostCmd) (h : s.m.mem.wf = true) : MemWfOut (execKemRefresh cmd s) :=
  hostRow_memWf _ _ _ h (fun _ => by split <;> simp [h])

theorem execKeyOpen_memWf (cmd : HostCmd) (h : s.m.mem.wf = true) : MemWfOut (execKeyOpen cmd s) :=
  hostRow_memWf _ _ _ h (fun _ => by (repeat' split) <;> simp [h])

theorem execKeyInstall_memWf (cmd : HostCmd) (h : s.m.mem.wf = true) : MemWfOut (execKeyInstall cmd s) :=
  hostRow_memWf _ _ _ h (fun _ => by dsimp only; (repeat' split) <;> simp [h])

theorem execKeyRotate_memWf (cmd : HostCmd) (h : s.m.mem.wf = true) : MemWfOut (execKeyRotate cmd s) :=
  hostRow_memWf _ _ _ h (fun _ => by dsimp only; (repeat' split) <;> simp [h])

theorem execIdentRead_memWf (cmd : HostCmd) (h : s.m.mem.wf = true) : MemWfOut (execIdentRead cmd s) :=
  hostRow_memWf _ _ _ h (fun _ => by dsimp only; split <;> simp [h])

theorem execSvnCommit_memWf (cmd : HostCmd) (h : s.m.mem.wf = true) : MemWfOut (execSvnCommit cmd s) :=
  hostRow_memWf _ _ _ h (fun _ => by split <;> simp [h])

theorem execOtpProgram_memWf (cmd : HostCmd) (h : s.m.mem.wf = true) : MemWfOut (execOtpProgram cmd s) :=
  hostRow_memWf _ _ _ h (fun _ => by dsimp only; (repeat' split) <;> simp [h])

theorem execDebugAttach_memWf (cmd : HostCmd) (h : s.m.mem.wf = true) : MemWfOut (execDebugAttach cmd s) :=
  hostRow_memWf _ _ _ h (fun _ => by dsimp only; (repeat' split) <;> simp [h])

theorem execDebugDetach_memWf (cmd : HostCmd) (h : s.m.mem.wf = true) : MemWfOut (execDebugDetach cmd s) :=
  hostRow_memWf _ _ _ h (fun _ => by simp [h])

theorem execIdeKmPf0_memWf (cmd : HostCmd) (h : s.m.mem.wf = true) : MemWfOut (execIdeKmPf0 cmd s) :=
  hostRow_memWf _ _ _ h (fun _ => by (repeat' split) <;> simp [h])

theorem execErrRing_memWf (cmd : HostCmd) (h : s.m.mem.wf = true) : MemWfOut (execErrRing cmd s) :=
  hostRow_memWf _ _ _ h (fun _ => by dsimp only; (repeat' split) <;> simp [h])

theorem execDumpRead_memWf (cmd : HostCmd) (h : s.m.mem.wf = true) : MemWfOut (execDumpRead cmd s) := by
  unfold execDumpRead
  refine hostRow_memWf _ _ _ h (fun x => ?_)
  extract_lets +onlyGivenNames i
  clear_value i
  split
  · simpa using h
  · extract_lets +onlyGivenNames n
    clear_value n
    split
    · simpa using h
    · simp [h]

theorem execSelfTest_memWf (cmd : HostCmd) (h : s.m.mem.wf = true) : MemWfOut (execSelfTest cmd s) :=
  hostRow_memWf _ _ _ h (fun _ => by dsimp only; split <;> simp [h])

theorem execEcho_memWf (cmd : HostCmd) (h : s.m.mem.wf = true) : MemWfOut (execEcho cmd s) :=
  hostRow_memWf _ _ _ h (fun _ => by simp [h])

theorem execOpPoint_memWf (cmd : HostCmd) (h : s.m.mem.wf = true) : MemWfOut (execOpPoint cmd s) :=
  hostRow_memWf _ _ _ h (fun _ => by dsimp only; (repeat' split) <;> simp [h])

theorem execIdleCfg_memWf (cmd : HostCmd) (h : s.m.mem.wf = true) : MemWfOut (execIdleCfg cmd s) :=
  hostRow_memWf _ _ _ h (fun _ => by split <;> simp [h])

theorem execMoorEnable_memWf (cmd : HostCmd) (h : s.m.mem.wf = true) : MemWfOut (execMoorEnable cmd s) :=
  hostRow_memWf _ _ _ h (fun _ => by dsimp only; split <;> simp [h])

theorem execPowerOff_memWf (cmd : HostCmd) (h : s.m.mem.wf = true) : MemWfOut (execPowerOff cmd s) := by
  have hf : ∀ l : List Nat, (l.foldl (fun (u : State) p =>
      if u.partState p = ptFree then u else (u.fencePart p 2).dropHeld p) s).m.mem.wf = true :=
    fun l => foldl_memWf _ _ _ h (fun v p hv => by split <;> simp [hv])
  unfold execPowerOff
  exact hostRow_memWf _ _ _ h (fun x => by simp [hf])

/-! ### Rings, registers and apertures (17, 20) -/

theorem execCommandDoorbell_memWf (q : Requester) (ring : Fin 64) (value : BitVec 16) (h : s.m.mem.wf = true) :
    MemWfOut (execCommandDoorbell q ring value s) := by
  unfold execCommandDoorbell
  dsimp only
  (repeat' split) <;> simp [h]

theorem execCompletionDoorbell_memWf (q : Requester) (ring : Fin 64) (value : BitVec 16) (h : s.m.mem.wf = true) :
    MemWfOut (execCompletionDoorbell q ring value s) := by
  unfold execCompletionDoorbell
  dsimp only
  (repeat' split) <;> simp [h]

theorem execCommandFetch_memWf (fn : Fin 9) (ring : RingFetch) (h : s.m.mem.wf = true) :
    MemWfOut (execCommandFetch fn ring s) := by
  unfold execCommandFetch
  split
  · simpa using h
  · split
    · simp [h]
    · extract_lets +onlyGivenNames p hd v x moved _ u st
      have hu : u.m.mem = s.m.mem := by simp [u, moved]
      split
      · split <;> simp [hu, h]
      · simp [hu, h]

theorem execCoalTimerExpire_memWf (fn : Fin 9) (ring : Fin 64) (h : s.m.mem.wf = true) :
    MemWfOut (execCoalTimerExpire fn ring s) := by
  simp [execCoalTimerExpire, h]

theorem execRingEnable_memWf (q : Requester) (ring : Fin 64) (ctrl : Word) (h : s.m.mem.wf = true) :
    MemWfOut (execRingEnable q ring ctrl s) := by
  unfold execRingEnable
  dsimp only
  (repeat' split) <;> simp [h]

theorem execRingDisable_memWf (q : Requester) (ring : Fin 64) (h : s.m.mem.wf = true) :
    MemWfOut (execRingDisable q ring s) := by
  unfold execRingDisable
  dsimp only
  split <;> simp [h]

theorem execFunctionLevelReset_memWf (fn : Fin 9) (h : s.m.mem.wf = true) : MemWfOut (execFunctionLevelReset fn s) := by
  unfold execFunctionLevelReset
  (repeat' split) <;> simp [h]

theorem execRegisterWrite_memWf (q : Requester) (place : WriteTo) (value : Word) (h : s.m.mem.wf = true) :
    MemWfOut (execRegisterWrite q place value s) := by
  unfold execRegisterWrite
  (repeat' split) <;> simp [h]

theorem execApertureRead_memWf (q : Requester) (offset : BitVec 28) (len : Nat) (h : s.m.mem.wf = true) :
    MemWfOut (execApertureRead q offset len s) := by
  unfold execApertureRead
  extract_lets +onlyGivenNames p u
  have hu : u.m.mem.wf = true := by simpa [u] using h
  split
  · simp [hu]
  · split
    · simp [hu]
    · split
      · simp [hu]
      · have hr := State.hubRead_frame u 7 p (u.apertureVa p offset.toNat) len
        split <;> rename_i e <;> simp only [e] at hr <;> simp [hr, hu]

theorem execApertureWrite_memWf (q : Requester) (offset : BitVec 28) (data : List Byte) (h : s.m.mem.wf = true) :
    MemWfOut (execApertureWrite q offset data s) := by
  unfold execApertureWrite
  dsimp only
  (repeat' split) <;> simp [h]

theorem execMirrorHeadWrite_memWf (value : BitVec 16) (h : s.m.mem.wf = true) : MemWfOut (execMirrorHeadWrite value s) := by
  unfold execMirrorHeadWrite
  dsimp only
  split <;> simp [h]

theorem execMirrorCopy_memWf (h : s.m.mem.wf = true) : MemWfOut (execMirrorCopy s) := by
  unfold execMirrorCopy
  dsimp only
  (repeat' split) <;> simp [h]

/-! ### Boot, logs and counters (16, 18, 20) -/

theorem execBootWindowWrite_memWf (offset : Nat) (data : List Byte) (h : s.m.mem.wf = true) :
    MemWfOut (execBootWindowWrite offset data s) := by
  unfold execBootWindowWrite
  dsimp only
  (repeat' split) <;> simp [h]

theorem execBootGo_memWf (value : Word) (h : s.m.mem.wf = true) : MemWfOut (execBootGo value s) := by
  unfold execBootGo
  dsimp only
  split <;> simp [h]

theorem execFirmwareReady_memWf (h : s.m.mem.wf = true) : MemWfOut (execFirmwareReady s) := by
  unfold execFirmwareReady
  split
  · have h1 := State.free_frame s 8
    split
    rename_i o u e
    simp only [e] at h1
    have h2 := State.free_frame u 8
    split
    rename_i e'
    simp only [e'] at h2
    simp [h1, h2, h]
  · simpa using h

theorem execWorkingTreeBuild_memWf (h : s.m.mem.wf = true) : MemWfOut (execWorkingTreeBuild s) := by
  unfold execWorkingTreeBuild
  split
  · simpa using h
  · split
    · simpa using h
    · extract_lets +onlyGivenNames burnt n
      have hf := State.free_frame burnt 640
      split
      rename_i e
      simp only [e] at hf
      extract_lets +onlyGivenNames _ u marked last due
      have hl : last.m.mem = s.m.mem := by
        simp only [last, marked, u]
        split <;> simp [hf, burnt]
      rw [memWfOut_next]
      exact foldl_memWf _ _ _ (by simpa [hl] using h) (fun u x hu => by simp [hu])

theorem execLedgerDrainedAck_memWf (q : Requester) (p : Fin 8) (value : Word) (h : s.m.mem.wf = true) :
    MemWfOut (execLedgerDrainedAck q p value s) := by
  unfold execLedgerDrainedAck
  dsimp only
  (repeat' split) <;> simp [h]

theorem execReportLog_memWf (h : s.m.mem.wf = true) : MemWfOut (execReportLog s) := by
  unfold execReportLog
  split <;> simp [h]

theorem execLogWindowClose_memWf (index : Nat) (h : s.m.mem.wf = true) : MemWfOut (execLogWindowClose index s) := by
  unfold execLogWindowClose
  (repeat' split) <;> simp [h]

theorem execClearLost_memWf (h : s.m.mem.wf = true) : MemWfOut (execClearLost s) := by
  unfold execClearLost
  dsimp only
  split <;> simp [h]

theorem execCntFreeze_memWf (h : s.m.mem.wf = true) : MemWfOut (execCntFreeze s) := by
  unfold execCntFreeze
  dsimp only
  split <;> simp [h]

theorem execCntUnfreeze_memWf (h : s.m.mem.wf = true) : MemWfOut (execCntUnfreeze s) := by
  unfold execCntUnfreeze
  dsimp only
  split <;> simp [h]

theorem execCntClear_memWf (h : s.m.mem.wf = true) : MemWfOut (execCntClear s) := by
  unfold execCntClear
  dsimp only
  split <;> simp [h]

/-! ### Errors and the debug port (18) -/

theorem execFatalLatchClear_memWf (i : Fin 16) (h : s.m.mem.wf = true) : MemWfOut (execFatalLatchClear i s) := by
  unfold execFatalLatchClear
  dsimp only
  split <;> simp [h]

theorem execThermalWarn_memWf (die : Nat) (tj : Nat) (h : s.m.mem.wf = true) : MemWfOut (execThermalWarn die tj s) := by
  unfold execThermalWarn
  split <;> simp [h]

theorem execThermalTrip_memWf (die : Nat) (tj : Nat) (h : s.m.mem.wf = true) : MemWfOut (execThermalTrip die tj s) := by
  unfold execThermalTrip
  split <;> simp [h]

theorem execRailFault_memWf (rail : Fin 7) (permille : Nat) (h : s.m.mem.wf = true) :
    MemWfOut (execRailFault rail permille s) := by
  unfold execRailFault
  split <;> simp [h]

theorem execUndervoltageWarning_memWf (rail : Fin 7) (permille : Nat) (h : s.m.mem.wf = true) :
    MemWfOut (execUndervoltageWarning rail permille s) := by
  unfold execUndervoltageWarning
  (repeat' split) <;> simp [h]

theorem execRefclkLoss_memWf (h : s.m.mem.wf = true) : MemWfOut (execRefclkLoss s) := by
  unfold execRefclkLoss
  split <;> simp [h]

theorem execHubWatchdog_memWf (h : s.m.mem.wf = true) : MemWfOut (execHubWatchdog s) := by
  simp [execHubWatchdog, h]

theorem execHubFwFault_memWf (code : Word) (h : s.m.mem.wf = true) : MemWfOut (execHubFwFault code s) := by
  simp [execHubFwFault, h]

theorem execSecFault_memWf (code : Word) (h : s.m.mem.wf = true) : MemWfOut (execSecFault code s) := by
  simp [execSecFault, h]

theorem execLinkUe_memWf (link : Nat) (h : s.m.mem.wf = true) : MemWfOut (execLinkUe link s) := by
  simp [execLinkUe, h]

theorem State.coreUe_memWf (core offset : Nat) (loc : SramLoc) (by_ : State → Option State) (h : s.m.mem.wf = true)
    (hb : ∀ t u, by_ t = some u → u.m.mem = t.m.mem) : (s.coreUe core offset loc by_).m.mem.wf = true := by
  unfold State.coreUe
  dsimp only
  split
  · next e => simp [hb _ _ e, h]
  · simp [h]
  · simp [h]

/-- A reader that meets an uncorrectable error leaves memory as it is. -/
theorem State.readerUe_mem {u : State} (c : Fin 800) (key offset : Nat) (x : Reading)
    (e : s.readerUe c key offset x = some u) : u.m.mem = s.m.mem :=
  (State.readerUe_frame s u c key offset x e).2.2.2.1

theorem execSramUe_memWf (loc : SramLoc) (h : s.m.mem.wf = true) : MemWfOut (execSramUe loc s) := by
  unfold execSramUe
  split
  · simpa using h
  · split
    · split <;> simp [h]
    · cases loc with
      | program c o =>
        rw [memWfOut_next]
        exact State.coreUe_memWf _ _ _ _ h (fun t u e => by simp at e; simp [← e])
      | own c o r x =>
        rw [memWfOut_next]
        exact State.coreUe_memWf _ _ _ _ h (fun t u e => State.readerUe_mem _ _ _ _ e)
      | acc c o r x =>
        rw [memWfOut_next]
        exact State.coreUe_memWf _ _ _ _ h (fun t u e => State.readerUe_mem _ _ _ _ e)
      | plane c pl o =>
        rw [memWfOut_next]
        exact State.coreUe_memWf _ _ _ _ h (fun t u e => by simp at e)
      | shared cl o r =>
        dsimp only
        split
        · simp [h]
        · next k x =>
          rw [memWfOut_next]
          generalize e : State.readerUe _ _ _ _ _ = u
          cases u with
          | none => simp [h]
          | some u => simp [State.readerUe_mem _ _ _ _ e, h]
        · simp [h]
      | _ => simp [h]

theorem execDumpWatchdog_memWf (h : s.m.mem.wf = true) : MemWfOut (execDumpWatchdog s) := by
  unfold execDumpWatchdog
  split
  · have hf := State.free_frame s 8
    split
    rename_i e
    simp only [e] at hf
    simp [hf, h]
  · simpa using h

theorem execDebugFence_memWf (act : DebugAct) (h : s.m.mem.wf = true) : MemWfOut (execDebugFence act s) := by
  unfold execDebugFence
  split
  · simpa using h
  · extract_lets +onlyGivenNames may
    cases act with
    | fence p => dsimp only; split <;> simp [h]
    | hub n =>
      simp [h]
    | halt c => dsimp only; split <;> simp [h]
    | resume c => dsimp only; split <;> simp [h]
    | _ => simp [h]

/-! ### Power and clocks (19, 21) -/

theorem execThrottleEval_memWf (tj watts : Nat) (h : s.m.mem.wf = true) : MemWfOut (execThrottleEval tj watts s) := by
  unfold execThrottleEval
  split
  · simpa using h
  · extract_lets +onlyGivenNames u cur
    have hu : u.m.mem = s.m.mem := by simp [u]
    split
    · dsimp only
      split <;> simp [hu, h]
    · split
      · dsimp only
        split <;> simp [hu, h]
      · simp [hu, h]

theorem execClockChange_memWf (h : s.m.mem.wf = true) : MemWfOut (execClockChange s) := by
  unfold execClockChange
  split <;> simp [h]

theorem execIslandGate_memWf (island : Fin 58) (h : s.m.mem.wf = true) : MemWfOut (execIslandGate island s) := by
  unfold execIslandGate
  split <;> simp [h]

theorem execIslandUngate_memWf (island : Fin 58) (h : s.m.mem.wf = true) : MemWfOut (execIslandUngate island s) := by
  simp [execIslandUngate, h]

theorem execStandEntry_memWf (h : s.m.mem.wf = true) : MemWfOut (execStandEntry s) := by
  unfold execStandEntry
  (repeat' split) <;> simp [h]

theorem State.runHeld_memWf (i : HeldReq) (h : s.m.mem.wf = true) : MemWfOut (s.runHeld i) := by
  cases i with
  | write q o n v => exact execRegisterWrite_memWf q (.bar o n) v h
  | openChannel c ch v => exact execTokenChannelOpen_memWf _ _ _ h
  | start q p => exact execPartStart_memWf _ _ h
  | drained q p v => exact execLedgerDrainedAck_memWf _ _ _ h
  | barRead q o n => exact execApertureRead_memWf _ _ _ h
  | barWrite q o d => exact execApertureWrite_memWf _ _ _ h
  | taskStart c => exact execTaskStart_memWf _ h
  | taskHalt c => exact execTaskHalt_memWf _ h
  | arbCommit i => exact execArbCommit_memWf _ h
  | bringUp l a => exact execFabricBringUp_memWf _ _ h
  | useA e a => exact execUseA_memWf _ _ h

/-- The requests held during Stand run one after another; each keeps memory canonical (19 R610). -/
theorem execStandExit_memWf (h : s.m.mem.wf = true) : MemWfOut (execStandExit s) := by
  unfold execStandExit
  split
  · extract_lets +onlyGivenNames held woken
    have hw : woken.m.mem = s.m.mem := by simp [woken]
    refine List.foldlRecOn _ _ ?_ (fun r hr i _ => ?_)
    · rw [memWfOut_next]
      exact foldl_memWf _ _ _ (by simp [hw, h]) (fun u l hu => by simp [hu])
    · cases r with
      | next u => exact State.runHeld_memWf i ((memWfOut_next u).1 hr)
      | fault => exact hr
      | refused => exact hr
  · simpa using h

theorem execMoorEntry_memWf (h : s.m.mem.wf = true) : MemWfOut (execMoorEntry s) := by
  unfold execMoorEntry
  dsimp only
  (repeat' split) <;> simp [h]

theorem execMoorExit_memWf (h : s.m.mem.wf = true) : MemWfOut (execMoorExit s) := by
  unfold execMoorExit
  split <;> simp [h]

theorem execPcieInbandWake_memWf (h : s.m.mem.wf = true) : MemWfOut (execPcieInbandWake s) := by
  unfold execPcieInbandWake
  split <;> simp [h]

theorem execSmbusAddressMatch_memWf (x : SmbMatch) (h : s.m.mem.wf = true) : MemWfOut (execSmbusAddressMatch x s) := by
  unfold execSmbusAddressMatch
  split <;> simp [h]

theorem execWakeTimerExpire_memWf (h : s.m.mem.wf = true) : MemWfOut (execWakeTimerExpire s) := by
  unfold execWakeTimerExpire
  split <;> simp [h]

theorem execPerstN_memWf (asserted : Bool) (h : s.m.mem.wf = true) : MemWfOut (execPerstN asserted s) := by
  unfold execPerstN
  split <;> simp [h]

theorem execResetRelease_memWf (h : s.m.mem.wf = true) : MemWfOut (execResetRelease s) := by
  unfold execResetRelease
  split <;> simp [h]

theorem execAonPowerOn_memWf (supply : AonSupply) (h : s.m.mem.wf = true) : MemWfOut (execAonPowerOn supply s) := by
  unfold execAonPowerOn
  split <;> simp [h]

theorem execBrownoutAon_memWf (h : s.m.mem.wf = true) : MemWfOut (execBrownoutAon s) := by
  unfold execBrownoutAon
  split <;> simp [h]

theorem execMainLoss_memWf (h : s.m.mem.wf = true) : MemWfOut (execMainLoss s) := by
  unfold execMainLoss
  split <;> simp [h]

theorem execPadRelease_memWf (h : s.m.mem.wf = true) : MemWfOut (execPadRelease s) := by
  unfold execPadRelease
  dsimp only
  split <;> simp [h]

theorem execAux0Edge_memWf (h : s.m.mem.wf = true) : MemWfOut (execAux0Edge s) := by
  unfold execAux0Edge
  split <;> simp [h]

theorem execPwrGoodAssert_memWf (h : s.m.mem.wf = true) : MemWfOut (execPwrGoodAssert s) := by
  unfold execPwrGoodAssert
  split <;> simp [h]

/-! ### The management bus (19) -/

theorem execSmbArm_memWf (x : SmbWrite) (h : s.m.mem.wf = true) : MemWfOut (execSmbArm x s) :=
  State.smbWrite_memWf _ _ _ _ _ h (fun _ hu => by simp [hu])

theorem execSmbFence_memWf (x : SmbWrite) (h : s.m.mem.wf = true) : MemWfOut (execSmbFence x s) :=
  State.smbWrite_memWf _ _ _ _ _ h (fun _ hu => by simp [hu])

theorem execSmbPowerOff_memWf (x : SmbWrite) (h : s.m.mem.wf = true) : MemWfOut (execSmbPowerOff x s) :=
  State.smbWrite_memWf _ _ _ _ _ h (fun _ hu => by simp [hu])

theorem execSmbPowerUp_memWf (x : SmbWrite) (h : s.m.mem.wf = true) : MemWfOut (execSmbPowerUp x s) :=
  State.smbWrite_memWf _ _ _ _ _ h (fun _ hu => by simp [hu])

theorem execSmbFailsafe_memWf (x : SmbRead) (h : s.m.mem.wf = true) : MemWfOut (execSmbFailsafe x s) :=
  State.smbRead_memWf _ _ _ _ h (fun _ => by simp)

theorem execSmbFatal_memWf (x : SmbRead) (h : s.m.mem.wf = true) : MemWfOut (execSmbFatal x s) :=
  State.smbRead_memWf _ _ _ _ h (fun _ => by simp)

theorem execSmbTj_memWf (x : SmbRead) (h : s.m.mem.wf = true) : MemWfOut (execSmbTj x s) := by
  refine State.smbRead_memWf _ _ _ _ h (fun u => ?_)
  (repeat' split) <;> simp

theorem execSmbCause_memWf (x : SmbRead) (h : s.m.mem.wf = true) : MemWfOut (execSmbCause x s) :=
  State.smbRead_memWf _ _ _ _ h (fun _ => by simp)

theorem execSmbWake_memWf (x : SmbRead) (h : s.m.mem.wf = true) : MemWfOut (execSmbWake x s) :=
  State.smbRead_memWf _ _ _ _ h (fun _ => by simp)

theorem execSmbState_memWf (x : SmbRead) (h : s.m.mem.wf = true) : MemWfOut (execSmbState x s) := by
  refine State.smbRead_memWf _ _ _ _ h (fun u => ?_)
  dsimp only
  split <;> simp

theorem execSmbId_memWf (x : SmbRead) (h : s.m.mem.wf = true) : MemWfOut (execSmbId x s) :=
  State.smbRead_memWf _ _ _ _ h (fun _ => by simp)

end Sys2Proof.Machine
end

section
/-! PROOF. Every step keeps memory in its canonical form. -/

namespace Sys2Proof.Machine

variable {s : State}

/-- Every command keeps memory in its canonical form, in the state that it leaves. -/
theorem exec_memWf (i : Instr) (h : s.m.mem.wf = true) : MemWfOut (exec i s) := by
  cases i with
  | nop | li | lip | csrr | flclr | mnot | mpop | mfirst | mfrom | mto | tget | mbcnt | vsel | vpack | vunpk =>
    unfold exec
    exact issue_thenNext_memWf _ _ _ _ _ _ _ _ _ h (by simp)
  | add | sub | and_ | or_ | xor | shl | shr | sra | mul | mulhu | min | max | minu | maxu | slt | sltu | seq =>
    unfold exec
    exact alu_memWf _ _ _ _ _ h
  | beq | bne | blt | bge | bltu | bgeu =>
    unfold exec
    exact branch_memWf _ _ _ _ _ h
  | dbnz | jal | jr =>
    unfold exec
    exact issue_memWf _ _ _ _ _ _ _ _ _ h (by simp [h])
  | end_ => exact execEnd_memWf _ _ _ h
  | mand | mor | mxor | mandn =>
    unfold exec
    exact maskOp_memWf _ _ _ _ _ h
  | ld =>
    unfold exec
    exact readLd_memWf _ _ _ _ h
  | st => exact execSt_memWf _ _ _ h
  | tset => exact execTset_memWf _ _ _ h
  | sopen =>
    unfold exec
    exact readSopen_memWf _ _ _ _ h
  | sclose => exact execSclose_memWf _ _ _ h
  | srd => exact execSrd_memWf _ _ _ h
  | swr => exact execSwr_memWf _ _ _ h
  | streamFetch => exact execStreamFetch_memWf _ _ h
  | chunkLand => exact execChunkLand_memWf _ _ h
  | vld =>
    unfold exec
    exact readVld_memWf _ _ _ _ h
  | vlds =>
    unfold exec
    exact readVlds_memWf _ _ _ _ h
  | vst => exact execVst_memWf _ _ _ h
  | vsts => exact execVsts_memWf _ _ _ h
  | vldt =>
    unfold exec
    exact readVldt_memWf _ _ _ _ h
  | vstt => exact execVstt_memWf _ _ _ h
  | sig => exact execSig_memWf _ _ _ h
  | cret | barv =>
    unfold exec
    exact sender_memWf _ _ _ _ _ h
  | waitc => exact execWaitc_memWf _ _ _ h
  | bwait => exact execBwait_memWf _ _ _ h
  | fence => exact execFence_memWf _ _ _ h
  | mxm => exact execMxm_memWf _ _ _ h
  | mxmStart => exact execMxmStart_memWf _ h
  | bargePost => exact execBargePost_memWf _ h
  | arrayFault => exact execArrayFault_memWf _ h
  | mldp => exact execMldp_memWf _ _ _ h
  | planeReady => exact execPlaneReady_memWf _ _ h
  | mdrop => exact execMdrop_memWf _ _ _ h
  | mdrain => exact execMdrain_memWf _ _ _ h
  | vmov | viota | vperm | vpermb =>
    unfold exec
    exact vecMove_memWf _ _ _ _ _ _ _ h
  | vand | vor | vxor | vnot | vshl | vshr | vsra | vadd | vsub | vmul | vfma | vfnma | vdiv | vsqrt | vrsqrt
  | vexp | vlog | vmax | vmin | vabs | vneg | vsign | vclamp =>
    unfold exec
    exact vecOp_memWf _ _ _ _ _ _ _ h
  | vcmpeq | vcmpne | vcmplt | vcmple | vnf =>
    unfold exec
    exact vecCmp_memWf _ _ _ _ _ _ _ h
  | vshuf => exact execVshuf_memWf _ _ _ h
  | vcvt => exact execVcvt_memWf _ _ _ h
  | vrsum | vrssq | vrmax | vrmin =>
    unfold exec
    exact reduction_memWf _ _ _ _ _ _ _ h (fun _ => by simp)
  | vrmv => exact execVrmv_memWf _ _ _ h
  | vmvm => exact execVmvm_memWf _ _ _ h
  | vramax =>
    unfold exec
    exact execVramax_memWf _ _ _ h
  | vtake => exact execVtake_memWf _ _ _ h
  | vrel => exact execVrel_memWf _ _ _ h
  | sdeg =>
    unfold exec
    exact sampling_memWf _ _ _ _ (sampDeg_keeps travRel_mem) h
  | snbr =>
    unfold exec
    exact sampling_memWf _ _ _ _ (sampNbr_keeps travRel_mem) h
  | suni =>
    unfold exec
    exact sampling_memWf _ _ _ _ (sampUni_keeps travRel_mem) h
  | salias =>
    unfold exec
    exact sampling_memWf _ _ _ _ (sampAlias_keeps travRel_mem) h
  | stopk =>
    unfold exec
    exact sampling_memWf _ _ _ _ (sampTopk_keeps travRel_mem) h
  | swalk =>
    unfold exec
    exact sampling_memWf _ _ _ _ (sampWalk_keeps travRel_mem) h
  | slayr =>
    unfold exec
    exact sampling_memWf _ _ _ _ (sampLayer_keeps travRel_mem) h
  | gathl =>
    unfold exec
    exact readGathl_memWf _ _ _ _ h
  | vgath =>
    unfold exec
    exact readVgath_memWf _ _ _ _ h
  | vscat => exact execVscat_memWf _ _ _ h
  | bcmd =>
    unfold exec
    exact readBcmd_memWf _ _ _ _ h
  | bsplit =>
    unfold exec
    exact readBsplit_memWf _ _ _ _ h
  | bsort =>
    unfold exec
    exact readBsort_memWf _ _ _ _ h
  | eres =>
    unfold exec
    exact readEres_memWf _ _ _ _ h
  | esort =>
    unfold exec
    exact readEsort_memWf _ _ _ _ h
  | feederCreditReturn => exact execFeederCreditReturn_memWf _ _ h
  | poolGroupIssue => exact execPoolGroupIssue_memWf _ _ h
  | gather => exact execGather_memWf _ _ h
  | pool => exact execPool_memWf _ _ h
  | scatterAdd => exact execScatterAdd_memWf _ _ h
  | rowUpdate => exact execRowUpdate_memWf _ _ h
  | commandCompletion => exact execCommandCompletion_memWf _ _ h
  | tokenCreditReturn => exact execTokenCreditReturn_memWf _ h
  | tokenSignal => exact execTokenSignal_memWf _ h
  | barrierArrive => exact execBarrierArrive_memWf _ h
  | barrierRelease => exact execBarrierRelease_memWf _ h
  | controlWrite => exact execControlWrite_memWf _ _ h
  | controlRead => exact execControlRead_memWf _ _ h
  | readReply => exact execReadReply_memWf _ h
  | faultRecordNotice => exact execFaultRecordNotice_memWf _ h
  | contributionDoorbell => exact execContributionDoorbell_memWf _ h
  | exchangeDoorbell => exact execExchangeDoorbell_memWf _ h
  | taskStart => exact execTaskStart_memWf _ h
  | taskHalt => exact execTaskHalt_memWf _ h
  | tokenChannelOpen => exact execTokenChannelOpen_memWf _ _ _ h
  | arbCommit => exact execArbCommit_memWf _ h
  | arbiterRound => exact execArbiterRound_memWf _ _ h
  | bankRefresh => exact execBankRefresh_memWf _ _ _ h
  | rowClose => exact execRowClose_memWf _ _ _ h
  | patrolScrub => exact execPatrolScrub_memWf _ _ _ h
  | sweepRewrite => exact execSweepRewrite_memWf _ h
  | idleFrame => exact execIdle_memWf _ _ h
  | creditIdleSend => exact execCreditIdleSend_memWf _ h
  | tokenFrame => exact execToken_memWf _ _ h
  | collectiveLeaf => exact execCollectiveLeaf_memWf _ _ h
  | collectivePartial => exact execCollectivePartial_memWf _ _ h
  | spanUpdate => exact execSpanUpdate_memWf _ _ _ _ _ h
  | hubSpanUpdate => exact execHubSpanUpdate_memWf _ _ _ _ h
  | lateMarker => exact execLateMarker_memWf _ _ h
  | gatherFlight => exact execGatherFlight_memWf _ _ h
  | gatherReach => exact execGatherReach_memWf _ _ h
  | coachSegment => exact execCoachSegment_memWf _ _ h
  | snapshotData => exact execSnapshotData_memWf _ _ h
  | snapshotAck => exact execSnapshotAck_memWf _ h
  | snapshotRefusal => exact execSnapshotRefusal_memWf _ h
  | hello => exact execHello_memWf _ _ h
  | linkstate => exact execLinkstate_memWf _ _ h
  | linkstateSend => exact execLinkstateSend_memWf h
  | linkquery => exact execLinkquery_memWf _ _ h
  | linkreply => exact execLinkreply_memWf _ _ h
  | frameForward => exact execFrameForward_memWf _ _ h
  | bounceResend => exact execBounceResend_memWf _ _ h
  | retransmit => exact execRetransmit_memWf _ h
  | lambdaRetrain => exact execLambdaRetrain_memWf _ h
  | lambdaDown => exact execLambdaDown_memWf _ h
  | lambdaUp => exact execLambdaUp_memWf _ h
  | unreachable => exact execUnreachable_memWf _ h
  | fabricBringUp => exact execFabricBringUp_memWf _ _ h
  | useA => exact execUseA_memWf _ _ h
  | laserSwitch => exact execLaserSwitch_memWf _ _ h
  | laserSupply => exact execLaserSupply_memWf _ _ _ h
  | portShutter => exact execPortShutter_memWf _ h
  | shutterProbe => exact execShutterProbe_memWf _ h
  | portOpen => exact execPortOpen_memWf _ h
  | laserEnableDrop => exact execLaserEnableDrop_memWf _ h
  | stragglerWindowClose => exact execStragglerWindowClose_memWf _ h
  | voteSend => exact execVoteSend_memWf _ h
  | vote => exact execVote_memWf _ h
  | groupVote => exact execGroupVote_memWf _ h
  | verdict => exact execVerdict_memWf _ h
  | appliedSend => exact execAppliedSend_memWf _ h
  | applied => exact execApplied_memWf _ h
  | groupApplied => exact execGroupApplied_memWf _ h
  | commit => exact execCommit_memWf _ h
  | rollback => exact execRollback_memWf _ h
  | abort => exact execAbort_memWf _ h
  | resolve => exact execResolve_memWf _ h
  | stateMsg => exact execState_memWf _ h
  | holdEnter => exact execHoldEnter_memWf _ h
  | phaseStart => exact execPhaseStart_memWf _ h
  | serveHeadTimer => exact execServeHeadTimer_memWf _ h
  | riskEval => exact execRiskEval_memWf _ _ h
  | drainStart => exact execDrainStart_memWf h
  | partCreate => exact execPartCreate_memWf _ h
  | partFence => exact execPartFence_memWf _ h
  | partTeardown => exact execPartTeardown_memWf _ h
  | partQuery => exact execPartQuery_memWf _ h
  | partStart => exact execPartStart_memWf _ _ h
  | memWrite => exact execMemWrite_memWf _ h
  | memRead => exact execMemRead_memWf _ h
  | memFill => exact execMemFill_memWf _ h
  | ptSet => exact execPtSet_memWf _ h
  | apertureSet => exact execApertureSet_memWf _ h
  | degreeBin => exact execDegreeBin_memWf _ h
  | jobLoad => exact execJobLoad_memWf _ h
  | jobStop => exact execJobStop_memWf _ h
  | jobResume => exact execJobResume_memWf _ h
  | stepRun => exact execStepRun_memWf _ h
  | serveBatch => exact execServeBatch_memWf _ h
  | ledgerRead => exact execLedgerRead_memWf _ h
  | tableReplace => exact execTableReplace_memWf _ h
  | hotRefresh => exact execHotRefresh_memWf _ h
  | ckptBuffers => exact execCkptBuffers_memWf _ h
  | ckptRestore => exact execCkptRestore_memWf _ h
  | drain => exact execDrain_memWf _ h
  | redistribute => exact execRedistribute_memWf _ h
  | quote => exact execQuote_memWf _ h
  | kemRead => exact execKemRead_memWf _ h
  | kemRefresh => exact execKemRefresh_memWf _ h
  | keyOpen => exact execKeyOpen_memWf _ h
  | keyInstall => exact execKeyInstall_memWf _ h
  | keyRotate => exact execKeyRotate_memWf _ h
  | identRead => exact execIdentRead_memWf _ h
  | svnCommit => exact execSvnCommit_memWf _ h
  | otpProgram => exact execOtpProgram_memWf _ h
  | debugAttach => exact execDebugAttach_memWf _ h
  | debugDetach => exact execDebugDetach_memWf _ h
  | ideKmPf0 => exact execIdeKmPf0_memWf _ h
  | errRing => exact execErrRing_memWf _ h
  | dumpRead => exact execDumpRead_memWf _ h
  | selfTest => exact execSelfTest_memWf _ h
  | echo => exact execEcho_memWf _ h
  | opPoint => exact execOpPoint_memWf _ h
  | idleCfg => exact execIdleCfg_memWf _ h
  | moorEnable => exact execMoorEnable_memWf _ h
  | powerOff => exact execPowerOff_memWf _ h
  | commandDoorbell => exact execCommandDoorbell_memWf _ _ _ h
  | completionDoorbell => exact execCompletionDoorbell_memWf _ _ _ h
  | commandFetch => exact execCommandFetch_memWf _ _ h
  | coalTimerExpire => exact execCoalTimerExpire_memWf _ _ h
  | ringEnable => exact execRingEnable_memWf _ _ _ h
  | ringDisable => exact execRingDisable_memWf _ _ h
  | functionLevelReset => exact execFunctionLevelReset_memWf _ h
  | apertureRead => exact execApertureRead_memWf _ _ _ h
  | apertureWrite => exact execApertureWrite_memWf _ _ _ h
  | bootWindowWrite => exact execBootWindowWrite_memWf _ _ h
  | bootGo => exact execBootGo_memWf _ h
  | firmwareReady => exact execFirmwareReady_memWf h
  | workingTreeBuild =>
    unfold exec
    exact execWorkingTreeBuild_memWf h
  | ledgerDrainedAck => exact execLedgerDrainedAck_memWf _ _ _ h
  | mirrorHeadWrite => exact execMirrorHeadWrite_memWf _ h
  | mirrorCopy => exact execMirrorCopy_memWf h
  | reportLog => exact execReportLog_memWf h
  | logWindowClose => exact execLogWindowClose_memWf _ h
  | clearLost => exact execClearLost_memWf h
  | cntFreeze => exact execCntFreeze_memWf h
  | cntUnfreeze => exact execCntUnfreeze_memWf h
  | cntClear => exact execCntClear_memWf h
  | fatalLatchClear => exact execFatalLatchClear_memWf _ h
  | thermalWarn => exact execThermalWarn_memWf _ _ h
  | thermalTrip => exact execThermalTrip_memWf _ _ h
  | railFault => exact execRailFault_memWf _ _ h
  | undervoltageWarning => exact execUndervoltageWarning_memWf _ _ h
  | refclkLoss => exact execRefclkLoss_memWf h
  | hubWatchdog => exact execHubWatchdog_memWf h
  | hubFwFault => exact execHubFwFault_memWf _ h
  | secFault => exact execSecFault_memWf _ h
  | linkUe => exact execLinkUe_memWf _ h
  | sramUe => exact execSramUe_memWf _ h
  | dumpWatchdog => exact execDumpWatchdog_memWf h
  | throttleEval => exact execThrottleEval_memWf _ _ h
  | clockChange => exact execClockChange_memWf h
  | islandGate => exact execIslandGate_memWf _ h
  | islandUngate => exact execIslandUngate_memWf _ h
  | standEntry => exact execStandEntry_memWf h
  | standExit => exact execStandExit_memWf h
  | moorEntry => exact execMoorEntry_memWf h
  | moorExit => exact execMoorExit_memWf h
  | pcieInbandWake => exact execPcieInbandWake_memWf h
  | smbusAddressMatch => exact execSmbusAddressMatch_memWf _ h
  | wakeTimerExpire => exact execWakeTimerExpire_memWf h
  | perstN => exact execPerstN_memWf _ h
  | resetRelease => exact execResetRelease_memWf h
  | aonPowerOn => exact execAonPowerOn_memWf _ h
  | brownoutAon => exact execBrownoutAon_memWf h
  | mainLoss => exact execMainLoss_memWf h
  | padRelease => exact execPadRelease_memWf h
  | aux0Edge => exact execAux0Edge_memWf h
  | smbArm => exact execSmbArm_memWf _ h
  | smbFence => exact execSmbFence_memWf _ h
  | smbPowerOff => exact execSmbPowerOff_memWf _ h
  | smbPowerUp => exact execSmbPowerUp_memWf _ h
  | smbFailsafe => exact execSmbFailsafe_memWf _ h
  | smbFatal => exact execSmbFatal_memWf _ h
  | smbTj => exact execSmbTj_memWf _ h
  | smbCause => exact execSmbCause_memWf _ h
  | smbWake => exact execSmbWake_memWf _ h
  | smbState => exact execSmbState_memWf _ h
  | smbId => exact execSmbId_memWf _ h
  | registerWrite => exact execRegisterWrite_memWf _ _ _ h
  | berthReturn => exact execBerthReturn_memWf _ _ h
  | mxmFinish => exact execMxmFinish_memWf _ h
  | planeFree => exact execPlaneFree_memWf _ _ h
  | frameCrcError => exact execFrameCrcError_memWf _ _ h
  | migrationRecord => exact execMigrationRecord_memWf _ _ h
  | pwrGoodAssert => exact execPwrGoodAssert_memWf h
  | debugFence => exact execDebugFence_memWf _ h

theorem step_memWf (h : s.m.mem.wf = true) : MemWfOut (step s) := by
  unfold step
  split
  · simpa using State.tick_memWf s h
  · exact exec_memWf _ (by simpa using h)

end Sys2Proof.Machine
end

section
open Sys2Proof Sys2Proof.Machine

/-- Settles O4: memory stays canonical through every command and every idle microsecond. -/
theorem stepKeepsMemory : Obligations.StepKeepsMemory :=
  fun _ t h e => step_memWf h t e

end

section
/-! PROOF. When a token arrives, and the order in which tokens of one source and one destination do (01 R32 to R39). -/

namespace Sys2Proof.Machine

/-! ### When a token arrives -/

theorem arrive_of_mayArrive {s : State} {tok : Word} {kind : Nat} (g : State → State) (h : mayArrive s tok kind) :
    arrive kind tok g s = .next (g (s.takeTok tok)) := by
  obtain ⟨hdie, hkind, hgood, hfirst⟩ := h
  simp [arrive, hdie, hkind, hgood, hfirst]

theorem arrive_of_not_first {s : State} {tok : Word} (kind : Nat) (g : State → State) (hgood : tokBad tok = false)
    (hfirst : s.tokFirst tok = false) : arrive kind tok g s = .next s := by
  simp [arrive, hgood, hfirst]

theorem doorbell_of_not_first {s : State} {tok : Word} (ch form : Nat) (bad : State → Nat → Nat → Nat → State)
    (g : State → Nat → Nat → List Byte → State) (hfirst : s.tokFirst tok = false) :
    doorbell ch form tok bad g s = .next s := by
  simp [doorbell, unlessStopped, hfirst]

/-! ### The order of tokens (01 R27, R34) -/

/-- Bits [59:34] hold both units of a token: where they are equal, the tokens go the same way. -/
theorem sameWay_of_units_eq {a b : Word} (h : bits b.toNat 34 26 = bits a.toNat 34 26) : sameWay a b = true := by
  have field : ∀ lo n x, 34 ≤ lo → lo + n ≤ 60 → bits x lo n = bits (bits x 34 26) (lo - 34) n := by
    intro lo n x h1 h2
    simp only [bits]
    apply Nat.eq_of_testBit_eq
    intro i
    simp only [Nat.testBit_mod_two_pow, Nat.testBit_shiftRight]
    by_cases hi : i < n
    · have h3 : lo - 34 + i < 26 := by omega
      have h4 : 34 + (lo - 34 + i) = lo + i := by omega
      simp [hi, h3, h4]
    · simp [hi]
  have eq : ∀ lo n, 34 ≤ lo → lo + n ≤ 60 → tokField a lo n = tokField b lo n := by
    intro lo n h1 h2
    rw [tokField, tokField, field lo n _ h1 h2, field lo n b.toNat h1 h2, h]
  simp [sameWay, tokDstNode, tokDstSub, tokSrcNode, tokSrcSub, eq]

/-- If one element of a list comes before `x` among those with `p`, one comes before `x` among those with the weaker `q`. -/
theorem find?_ne_of_imp {α : Type} {p q : α → Bool} {x y : α} (l : List α) (hpq : ∀ a, p a = true → q a = true)
    (hx : p x = true) (hy : l.find? p = some y) (hne : y ≠ x) : ∃ z, l.find? q = some z ∧ z ≠ x := by
  induction l with
  | nil => simp at hy
  | cons a l ih =>
    by_cases ha : p a = true
    · have hay : a = y := by simpa [ha] using hy
      exact ⟨a, by simp [hpq a ha], hay ▸ hne⟩
    · by_cases hb : q a = true
      · exact ⟨a, by simp [hb], fun e => ha (e ▸ hx)⟩
      · obtain ⟨z, hz, hzx⟩ := ih (by simpa [ha] using hy)
        exact ⟨z, by simpa [hb] using hz, hzx⟩

/-- While an earlier token of the same units, or of the same way, is under way, a token is not the first. -/
theorem State.tokFirst_of_earlier {s : State} {tok first : Word}
    (h : s.e.toks.find? (fun k => bits k.toNat 34 26 == bits tok.toNat 34 26) = some first
      ∨ s.e.toks.find? (sameWay tok) = some first) (hne : first ≠ tok) : s.tokFirst tok = false := by
  obtain ⟨z, hz, hzt⟩ : ∃ z, s.e.toks.find? (sameWay tok) = some z ∧ z ≠ tok := by
    rcases h with h | h
    · exact find?_ne_of_imp _ (fun k hk => sameWay_of_units_eq (by simpa using hk)) (by simp) h hne
    · exact ⟨first, h, hne⟩
  simp [State.tokFirst, hz, hzt]

/-! ### Tokens sent and filed -/

theorem State.sendTok_of_good {s : State} {tok : Word} (h : tokBad tok = false) :
    s.sendTok tok = { s with e := { s.e with toks := s.e.toks ++ [tok] } } := by
  simp [State.sendTok, h]

@[simp] theorem State.report_toks (s : State) (r : Report) : (s.report r).e.toks = s.e.toks := by
  unfold State.report
  dsimp only
  (repeat' split) <;> simp

@[simp] theorem State.file_toks (s : State) (detail cls kind index arg : Nat) (part : Option Nat) :
    (s.file detail cls kind index arg part).e.toks = s.e.toks :=
  State.report_toks _ _

@[simp] theorem State.takeTok_toks (s : State) (tok : Word) : (s.takeTok tok).e.toks = dropFirst (· == tok) s.e.toks := rfl

/-- The second state has the tokens under way of the first, and those that were sent since. -/
def Sends (s u : State) : Prop := ∃ sent, u.e.toks = s.e.toks ++ sent

theorem Sends.of_eq {s u : State} (h : u.e.toks = s.e.toks) : Sends s u := ⟨[], by simp [h]⟩

theorem State.sends_sendTok (s : State) (tok : Word) : Sends s (s.sendTok tok) := by
  unfold State.sendTok
  split
  · exact .of_eq (by simp [State.discardTok])
  · exact ⟨[tok], rfl⟩

theorem State.sends_pushFault (s : State) (core : Nat) (r : List Byte) : Sends s (s.pushFault core r) :=
  State.sends_sendTok _ _

theorem State.sends_taskFault (s : State) (core thread pc : Nat) (f : FInfo) (extra : Nat) (instr : Word) :
    Sends s (s.taskFault core thread pc f extra instr) := by
  obtain ⟨sent, h⟩ := State.sends_pushFault ((s.leaveTask core).setTaskState core tkFaulted) core
    (faultRecord core thread (s.taskId core) pc f extra instr)
  exact ⟨sent, by simpa [State.taskFault] using h⟩

theorem State.sends_engineFault (s : State) (mc more : Nat) : Sends s (s.engineFault mc more) := by
  unfold State.engineFault
  split
  · exact .of_eq rfl
  · exact State.sends_taskFault _ _ _ _ _ _ _

theorem State.sends_tokOverflow (s : State) (core : Nat) (tok : Word) : Sends s (s.tokOverflow core tok) := by
  unfold State.tokOverflow
  dsimp only
  split
  · split
    · obtain ⟨sent, h⟩ := State.sends_taskFault (s.file 0x0002 clsTask 2 (clusterOf core) tok.toNat (s.corePart core))
        core 0 0 ⟨fcToken, 0, none, tok.toNat⟩ 0 0
      exact ⟨sent, by simpa using h⟩
    · obtain ⟨sent, h⟩ := State.sends_engineFault (s.file 0x0002 clsTask 2 (clusterOf core) tok.toNat (s.corePart core))
        core 1
      exact ⟨sent, by simpa using h⟩
  · exact .of_eq (by simp)

/-- A barrier-arrive token that its unit receives leaves the others in their order. -/
theorem execBarrierArrive_sends {s : State} {tok : Word} (h : mayArrive s tok 2) :
    Gives (execBarrierArrive tok s) (Sends (s.takeTok tok)) := by
  refine ⟨_, arrive_of_mayArrive _ h, ?_⟩
  split
  · split
    · exact State.sends_tokOverflow _ _ _
    · exact .of_eq rfl
  · exact .of_eq rfl

/-- No arrival of a token that is not the first changes anything. -/
theorem exec_arrivalsOf_of_not_first {s : State} {tok : Word} (hgood : tokBad tok = false)
    (hfirst : s.tokFirst tok = false) (i : Instr) (hi : i ∈ arrivalsOf tok) : exec i s = .next s := by
  simp only [arrivalsOf, List.mem_cons, List.not_mem_nil, or_false] at hi
  rcases hi with rfl | rfl | rfl | rfl | rfl | rfl | rfl | rfl
  · exact show execTokenCreditReturn tok s = _ from arrive_of_not_first 0 _ hgood hfirst
  · show execTokenSignal tok s = .next s
    unfold execTokenSignal
    split
    · rfl
    · exact arrive_of_not_first 1 _ hgood hfirst
  · exact show execBarrierArrive tok s = _ from arrive_of_not_first 2 _ hgood hfirst
  · exact show execBarrierRelease tok s = _ from arrive_of_not_first 3 _ hgood hfirst
  · exact show execReadReply tok s = _ from arrive_of_not_first 6 _ hgood hfirst
  · exact show execFaultRecordNotice tok s = _ from arrive_of_not_first 7 _ hgood hfirst
  · exact show execContributionDoorbell tok s = _ from doorbell_of_not_first 1 1 _ _ hfirst
  · exact show execExchangeDoorbell tok s = _ from doorbell_of_not_first 2 2 _ _ hfirst

end Sys2Proof.Machine
end

section
open Sys2Proof Sys2Proof.Machine

/-- Settles O19: a token that arrives is the first of its way, and equal units go the same way. -/
theorem tokenOrder : Obligations.TokenOrder := by
  intro tok first s
  refine ⟨fun hgood => by rw [State.sendTok_of_good hgood], fun hgood h hne => ?_, fun h => ?_⟩
  · have hfirst := State.tokFirst_of_earlier h hne
    exact ⟨fun i hi => exec_arrivalsOf_of_not_first hgood hfirst i hi,
      fun a => ⟨show execControlWrite tok a s = _ from arrive_of_not_first 4 _ hgood hfirst,
        show execControlRead tok a s = _ from arrive_of_not_first 5 _ hgood hfirst⟩⟩
  · exact execBarrierArrive_sends h

end

section
/-! PROOF. The token counters of a core: what counts a token, and what leaves the counters as they are (01 R35, R37). -/

namespace Sys2Proof.Machine

/-! ### The counters' registers (20 R652) -/

@[simp] theorem Fld.at_key (a lo len rst : Nat) : (Fld.at a lo len rst).key = (a + lo / 64 * 8) * 64 + lo % 64 := rfl

@[simp] theorem Fld.at_len (a lo len rst : Nat) : (Fld.at a lo len rst).len = len := rfl

/-- The second state's token counters are those of the first. -/
def CountsKept (s u : State) : Prop := ∀ core i, i < 64 → u.counter core i = s.counter core i

theorem CountsKept.of_regs {s u : State} (h : u.regs = s.regs) : CountsKept s u :=
  fun core i _ => by simp [State.counter, State.fld, h]

theorem CountsKept.trans {s u v : State} (h : CountsKept s u) (g : CountsKept u v) : CountsKept s v :=
  fun core i hi => (g core i hi).trans (h core i hi)

/-- A field that is no token counter. -/
def NoCounter (f : Fld) : Prop := ∀ core i, i < 64 → f.key ≠ (CL_TOK_CNT_COUNT (clusterOf core) (subOf core) i).key

theorem countsKept_setFld {f : Fld} (h : NoCounter f) (s : State) (v : Nat) : CountsKept s (s.setFld f v) :=
  fun core i hi => State.fld_setFld_ne s v (h core i hi)

theorem countsKept_bump {f : Fld} (h : NoCounter f) (s : State) (n : Nat) : CountsKept s (s.bump f n) :=
  countsKept_setFld h s _

theorem countsKept_count {f : Fld} (h : NoCounter f) (s : State) (n : Nat) : CountsKept s (s.count f n) := by
  unfold State.count
  split
  · exact .of_regs rfl
  · exact countsKept_setFld h s _

theorem noCounter_lostLow : NoCounter ERR_LOST_LOW := by
  intro core i _
  simp only [ERR_LOST_LOW, CL_TOK_CNT_COUNT, Fld.at_key]
  omega

theorem noCounter_lostHigh : NoCounter ERR_LOST_HIGH := by
  intro core i _
  simp only [ERR_LOST_HIGH, CL_TOK_CNT_COUNT, Fld.at_key]
  omega

theorem noCounter_taskState (c k : Nat) : NoCounter (CL_TASK_STATE_STATE c k) := by
  intro core i hi
  simp only [CL_TASK_STATE_STATE, CL_TOK_CNT_COUNT, Fld.at_key]
  omega

theorem noCounter_parks (c k : Nat) : NoCounter (TC_BANK_WAIT_PARKS c k) := by
  intro core i hi
  simp only [TC_BANK_WAIT_PARKS, CL_TOK_CNT_COUNT, Fld.at_key]
  omega

/-- A channel's counter takes a sum that fits its 24 bits. -/
theorem State.counter_setCounter (s : State) (core ch v : Nat) : (s.setCounter core ch v).counter core ch = v % 2 ^ 24 :=
  State.fld_setFld s _ v

theorem State.counter_setCounter_ne (s : State) (core v : Nat) {ch i : Nat} (h : i ≠ ch) :
    (s.setCounter core ch v).counter core i = s.counter core i := by
  refine State.fld_setFld_ne s v ?_
  simp only [CL_TOK_CNT_COUNT, Fld.at_key]
  omega

/-! ### What leaves the counters as they are -/

theorem countsKept_report (s : State) (r : Report) : CountsKept s (s.report r) := by
  have hp : CountsKept s (s.pulseAux r.cls) := .of_regs (by simp)
  unfold State.report
  dsimp only
  split
  · exact hp
  · split
    · exact hp.trans (countsKept_bump noCounter_lostLow _ _)
    · exact hp.trans (countsKept_bump noCounter_lostHigh _ _)

theorem countsKept_file (s : State) (detail cls kind index arg : Nat) (part : Option Nat) :
    CountsKept s (s.file detail cls kind index arg part) :=
  countsKept_report _ _

theorem countsKept_sendTok (s : State) (tok : Word) : CountsKept s (s.sendTok tok) := by
  unfold State.sendTok
  split
  · exact countsKept_file _ _ _ _ _ _ _
  · exact .of_regs rfl

theorem countsKept_taskFault (s : State) (core thread pc : Nat) (f : FInfo) (extra : Nat) (instr : Word) :
    CountsKept s (s.taskFault core thread pc f extra instr) := by
  have hl : CountsKept s (s.leaveTask core) := .of_regs (by simp)
  have hf := hl.trans (countsKept_setFld (noCounter_taskState (clusterOf core) (subOf core)) _ tkFaulted)
  exact hf.trans (.trans (.of_regs rfl) (countsKept_sendTok _ _))

theorem countsKept_engineFault (s : State) (mc more : Nat) : CountsKept s (s.engineFault mc more) := by
  unfold State.engineFault
  split
  · exact .of_regs rfl
  · exact countsKept_taskFault _ _ _ _ _ _ _

theorem countsKept_tokOverflow (s : State) (core : Nat) (tok : Word) : CountsKept s (s.tokOverflow core tok) := by
  unfold State.tokOverflow
  dsimp only
  split
  · split
    · exact (countsKept_file _ _ _ _ _ _ _).trans (countsKept_taskFault _ _ _ _ _ _ _)
    · exact (countsKept_file _ _ _ _ _ _ _).trans (countsKept_engineFault _ _ _)
  · exact countsKept_file _ _ _ _ _ _ _

/-! ### The reads that a credit starts (09 R330) -/

theorem countsKept_park (s : State) (r : Req) : CountsKept s (s.park r) := by
  unfold State.park
  split
  · split
    · refine .trans (.of_regs ?_) (countsKept_count (noCounter_parks _ _) _ _)
      dsimp only
      split <;> simp
    · exact .of_regs rfl
  · exact .of_regs rfl

theorem countsKept_promoteList (s : State) (l : List Req) (blocked : List Nat) :
    CountsKept s (s.promoteList l blocked) := by
  induction l generalizing s blocked with
  | nil => exact .of_regs rfl
  | cons r l ih =>
    unfold State.promoteList
    split
    · exact ih _ _
    · split
      · exact .trans (.of_regs (by simp)) (ih _ _)
      · exact (countsKept_park _ _).trans (ih _ _)

theorem countsKept_promote (s : State) (core : Nat) : CountsKept s (s.promote core) :=
  countsKept_promoteList _ _ _

/-- The registers when a row of a gather that feeds a stream has been read. -/
theorem State.finishXfer_feedRow_regs (s : State) {x : Xfer} {master mc q row rb : Nat} {keys : List Nat}
    (h : x.act = .feedRow master mc q row rb keys) : (s.finishXfer x).regs = s.regs := by
  simp only [State.finishXfer, State.endXfer, h]
  simp

theorem countsKept_startXfer_feedRow (s : State) (x : Xfer) (stream write : Bool) (cells : List (Nat × Byte))
    {master mc q row rb : Nat} {keys : List Nat} (h : x.act = .feedRow master mc q row rb keys) :
    CountsKept s (s.startXfer x stream write cells) := by
  unfold State.startXfer State.startGroups
  split
  · refine .trans (.of_regs ?_) (countsKept_promote _ _)
    exact State.finishXfer_feedRow_regs _ (by exact h)
  · exact .trans (.of_regs (by simp)) (countsKept_promote _ _)

theorem countsKept_startRows (s : State) (core t master mc q rb : Nat) (rows : List (Nat × List Nat)) :
    CountsKept s (s.startRows core t master mc q rb rows).1 := by
  induction rows generalizing s with
  | nil => exact .of_regs rfl
  | cons row rows ih =>
    unfold State.startRows
    dsimp only
    split
    · exact (countsKept_startXfer_feedRow _ _ _ _ _ rfl).trans (ih _)
    · exact .of_regs rfl

theorem foldl_countsKept {α : Type} (l : List α) (f : State → α → State) (s : State)
    (h : ∀ u a, CountsKept u (f u a)) : CountsKept s (l.foldl f s) := by
  induction l generalizing s with
  | nil => exact .of_regs rfl
  | cons a l ih => exact (h s a).trans (ih _)

theorem countsKept_kickFeeder (s : State) (core : Nat) : CountsKept s (s.kickFeeder core) := by
  refine foldl_countsKept _ _ _ (fun u id => ?_)
  split
  · exact .of_regs rfl
  · split
    · split
      · exact .trans (countsKept_startRows _ _ _ _ _ _ _ _) (.of_regs rfl)
      · exact .of_regs rfl
    · exact .of_regs rfl

theorem countsKept_unblock (s : State) (core : Nat) : CountsKept s (s.unblock core) := .of_regs (by simp)

theorem countsKept_feederCredit (s : State) (feeder : Nat) (tok : Word) : CountsKept s (s.feederCredit feeder tok) := by
  unfold State.feederCredit
  refine .trans ?_ (countsKept_unblock _ feeder)
  refine .trans ?_ (countsKept_kickFeeder _ feeder)
  exact .of_regs rfl

/-! ### A token counted, and one that is not -/

/-- A token of a core comes to a channel that no thread waits for. -/
theorem State.addToken_counts (s : State) (core : Nat) (tok : Word) (hfit : s.tokFits core tok = true)
    (hwidth : s.counter core (tokChannel tok) + tokValue tok < 2 ^ 24) (hq : s.counterQueue core (tokChannel tok) = []) :
    (s.addToken core tok).counter core (tokChannel tok) = s.counter core (tokChannel tok) + tokValue tok
    ∧ ∀ i, i ≠ tokChannel tok → (s.addToken core tok).counter core i = s.counter core i := by
  have hq' : (s.setCounter core (tokChannel tok) (s.counter core (tokChannel tok) + tokValue tok)).counterQueue core
      (tokChannel tok) = [] := hq
  have e : s.addToken core tok = s.setCounter core (tokChannel tok) (s.counter core (tokChannel tok) + tokValue tok) := by
    simp [State.addToken, hfit, hq', State.serveCounter]
  rw [e]
  exact ⟨by rw [State.counter_setCounter, Nat.mod_eq_of_lt hwidth], fun i hi => State.counter_setCounter_ne _ _ _ hi⟩

theorem State.addToken_of_not_fits {s : State} {core : Nat} {tok : Word} (h : s.tokFits core tok = false) :
    s.addToken core tok = s.tokOverflow core tok := by
  simp [State.addToken, h]

/-- A token to a core is no doorbell: doorbells go to the nodes of the base units. -/
theorem tokDoorbell_of_tokCore {tok : Word} {c : Nat} (h : tokCore tok = some c) : tokDoorbell tok = false := by
  unfold tokCore at h
  split at h
  · next hc => simp [tokDoorbell, show ¬ 48 ≤ tokDstNode tok by omega]
  · simp at h

theorem execTokenSignal_of_core {s : State} {tok : Word} {c : Nat} (hc : tokCore tok = some c) (h : mayArrive s tok 1) :
    execTokenSignal tok s = .next ((s.takeTok tok).addToken c tok) := by
  rw [execTokenSignal, tokDoorbell_of_tokCore hc]
  simp only [Bool.false_eq_true, if_false]
  rw [arrive_of_mayArrive _ h]
  simp [hc]

theorem execTokenCreditReturn_of_core {s : State} {tok : Word} {c : Nat} (hc : tokCore tok = some c)
    (h : mayArrive s tok 0) : execTokenCreditReturn tok s = .next (if (s.takeTok tok).tokFits c tok
      then ((s.takeTok tok).addToken c tok).feederCredit c tok else (s.takeTok tok).addToken c tok) := by
  rw [execTokenCreditReturn, arrive_of_mayArrive _ h]
  simp [hc]

/-- What the law of counted tokens says of an outcome (01 R35, R37). -/
def Counted (s : State) (c : Nat) (tok : Word) (o : Out) : Prop :=
  let ch := tokChannel tok
  let n := s.counter c ch + tokValue tok
  (s.chOpen c ch = true → n ≤ s.fld (CL_TOK_LIMIT_LIMIT (clusterOf c) (subOf c) ch) → n < 2 ^ 24 → s.counterQueue c ch = [] →
    Gives o (fun u => u.counter c ch = n ∧ (∀ ch', ch' < 64 → ch' ≠ ch → u.counter c ch' = s.counter c ch')))
  ∧ ((s.chOpen c ch = false ∨ s.fld (CL_TOK_LIMIT_LIMIT (clusterOf c) (subOf c) ch) < n) →
    Gives o (fun u => ∀ ch', ch' < 64 → u.counter c ch' = s.counter c ch'))

theorem State.tokFits_iff (s : State) (c : Nat) (tok : Word) : s.tokFits c tok = true ↔
    s.chOpen c (tokChannel tok) = true ∧ s.counter c (tokChannel tok) + tokValue tok
      ≤ s.fld (CL_TOK_LIMIT_LIMIT (clusterOf c) (subOf c) (tokChannel tok)) := by
  simp [State.tokFits]

theorem State.tokFits_eq_false_iff (s : State) (c : Nat) (tok : Word) : s.tokFits c tok = false ↔
    s.chOpen c (tokChannel tok) = false ∨ s.fld (CL_TOK_LIMIT_LIMIT (clusterOf c) (subOf c) (tokChannel tok))
      < s.counter c (tokChannel tok) + tokValue tok := by
  rw [← Bool.not_eq_true, State.tokFits_iff, not_and_or, Bool.not_eq_true, not_le]

theorem State.lt_of_chOpen {s : State} {c ch : Nat} (h : s.chOpen c ch = true) : ch < 64 := by
  simp [State.chOpen] at h
  exact h.1

theorem counted_tokenSignal {s : State} {tok : Word} {c : Nat} (hc : tokCore tok = some c) (h : mayArrive s tok 1) :
    Counted s c tok (execTokenSignal tok s) := by
  rw [execTokenSignal_of_core hc h]
  refine ⟨fun hopen hlim hwidth hq => ?_, fun hno => ?_⟩
  · obtain ⟨hch, hne⟩ := State.addToken_counts (s.takeTok tok) c tok ((State.tokFits_iff s c tok).2 ⟨hopen, hlim⟩) hwidth hq
    exact ⟨_, rfl, hch, fun i _ hi => hne i hi⟩
  · rw [State.addToken_of_not_fits (s := s.takeTok tok) ((State.tokFits_eq_false_iff s c tok).2 hno)]
    exact ⟨_, rfl, fun i hi => countsKept_tokOverflow _ _ _ c i hi⟩

theorem counted_tokenCreditReturn {s : State} {tok : Word} {c : Nat} (hc : tokCore tok = some c) (h : mayArrive s tok 0) :
    Counted s c tok (execTokenCreditReturn tok s) := by
  rw [execTokenCreditReturn_of_core hc h]
  refine ⟨fun hopen hlim hwidth hq => ?_, fun hno => ?_⟩
  · have hfit : (s.takeTok tok).tokFits c tok = true := (State.tokFits_iff s c tok).2 ⟨hopen, hlim⟩
    obtain ⟨hch, hne⟩ := State.addToken_counts (s.takeTok tok) c tok hfit hwidth hq
    have hk := countsKept_feederCredit ((s.takeTok tok).addToken c tok) c tok
    rw [if_pos hfit]
    exact ⟨_, rfl, (hk c _ (State.lt_of_chOpen hopen)).trans hch, fun i hi64 hi => (hk c i hi64).trans (hne i hi)⟩
  · have hfit : (s.takeTok tok).tokFits c tok = false := (State.tokFits_eq_false_iff s c tok).2 hno
    rw [hfit, State.addToken_of_not_fits hfit]
    exact ⟨_, rfl, fun i hi => countsKept_tokOverflow _ _ _ c i hi⟩

theorem tokensCounted : tokensCountedLaw :=
  fun _ _ _ hc => ⟨fun h => counted_tokenCreditReturn hc h, fun h => counted_tokenSignal hc h⟩

end Sys2Proof.Machine
end

section
/-! PROOF. Whom a token wakes, and the task that one too many stops (01 R37, 03 R132 to R134). -/

namespace Sys2Proof.Machine

/-! ### A thread that goes on, and the others -/

/-- A thread's status, PC and scalar registers are as they were; if it did not wait for a counter it does not now. -/
structure ThreadKept (c t : Nat) (s u : State) : Prop where
  stat : u.stat c t = s.stat c t
  pc : u.pc c t = s.pc c t
  sreg : ∀ r, r < 32 → u.sreg c t r = s.sreg c t r
  wait : threadKey c t ∉ s.core.counterWait → threadKey c t ∉ u.core.counterWait

theorem ThreadKept.of_core {c t : Nat} {s u : State} (h : u.core = s.core) : ThreadKept c t s u where
  stat := by simp [State.stat, h]
  pc := by simp [State.pc, h]
  sreg r _ := by simp [State.sreg, h]
  wait := by simp [h]

theorem ThreadKept.trans {c t : Nat} {s u v : State} (h : ThreadKept c t s u) (g : ThreadKept c t u v) :
    ThreadKept c t s v where
  stat := g.stat.trans h.stat
  pc := g.pc.trans h.pc
  sreg r hr := (g.sreg r hr).trans (h.sreg r hr)
  wait := fun hw => g.wait (h.wait hw)

theorem State.stat_resume (s : State) (c t : Nat) : (s.resume c t).stat c t = .running :=
  State.stat_setStat _ _ _ _

theorem State.pc_resume (s : State) (c t : Nat) : (s.resume c t).pc c t = s.pc c t + 1 := by
  simp [State.resume, State.pc, State.setStat, State.setPc]

theorem State.sreg_resume (s : State) (c t r : Nat) : (s.resume c t).sreg c t r = s.sreg c t r := rfl

theorem ThreadKept.resume {c t t' : Nat} (h : t ≠ t') (s : State) : ThreadKept c t s (s.resume c t') where
  stat := by
    simp only [State.resume, State.setStat, State.setPc, State.stat]
    exact Tab.get_put_ne _ _ _ _ _ _ (by simp only [threadKey]; omega)
  pc := by
    simp only [State.resume, State.setStat, State.setPc, State.pc]
    exact Tab.get_put_ne _ _ _ _ _ _ (by simp only [threadKey]; omega)
  sreg _ _ := rfl
  wait := id

theorem ThreadKept.setS {c t t' dst : Nat} (h : t ≠ t') (hd : dst < 32) (s : State) (v : Word) :
    ThreadKept c t s (s.setS c t' dst v) := by
  by_cases h0 : dst = 0
  · rw [h0, State.setS_zero]
    exact .of_core rfl
  · refine ⟨by simp [State.setS, h0, State.stat], by simp [State.setS, h0, State.pc], fun r hr => ?_,
      by simp [State.setS, h0]⟩
    simp only [State.sreg, State.setS, h0, if_false]
    split
    · rfl
    · refine Tab.get_put_ne _ _ _ _ _ _ (fun e => ?_)
      have hk := (regKey_inj hr hd e).1
      simp only [threadKey] at hk
      omega

/-- The thread that is served first leaves the line of those that wait for a counter. -/
theorem ThreadKept.leaveLine {c t : Nat} (s : State) (p : Nat → Bool) :
    ThreadKept c t s { s with core := { s.core with counterWait := s.core.counterWait.filter p } } where
  stat := rfl
  pc := rfl
  sreg _ _ := rfl
  wait hw := fun hm => hw (List.mem_of_mem_filter hm)

/-! ### Counters (03 R132, R133) -/

theorem State.mem_counterQueue {s : State} {c ch : Nat} {e : Nat × Nat × Nat} (h : e ∈ s.counterQueue c ch) : e.1 / 16 = c := by
  simp only [State.counterQueue, List.mem_filterMap] at h
  obtain ⟨k, _, hk⟩ := h
  split at hk
  · next hc =>
    split at hk
    · split at hk
      · simp only [Option.some.injEq] at hk
        simpa [← hk] using hc
      · simp at hk
    · simp at hk
  · simp at hk

/-- Serving other threads of a channel leaves a thread as it is. -/
theorem threadKept_serveCounter {c t : Nat} (ch : Nat) (l : List (Nat × Nat × Nat))
    (hl : ∀ e ∈ l, t ≠ e.1 % 16 ∧ e.2.2 < 32) (s : State) : ThreadKept c t s (s.serveCounter c ch l) := by
  induction l generalizing s with
  | nil => exact .of_core rfl
  | cons e l ih =>
    obtain ⟨k, need, dst⟩ := e
    obtain ⟨ht, hd⟩ := hl (k, need, dst) (by simp)
    unfold State.serveCounter
    extract_lets +onlyGivenNames n
    split
    · have h1 : ThreadKept c t s (s.setCounter c ch (n - need)) := .of_core (by simp)
      have h2 := ThreadKept.leaveLine (c := c) (t := t) (s.setCounter c ch (n - need)) (· != k)
      exact h1.trans (h2.trans ((ThreadKept.setS ht hd _ _).trans ((ThreadKept.resume ht _).trans
        (ih (fun e he => hl e (by simp [he])) _))))
    · exact .of_core rfl

/-- The first thread in line goes on when the counter holds what it needs. -/
theorem State.serveCounter_first {s : State} {c t ch need dst n : Nat} {rest : List (Nat × Nat × Nat)} (ht : t < 16)
    (hn : s.counter c ch = n) (hneed : need ≤ n) (hrest : ∀ e ∈ rest, t ≠ e.1 % 16 ∧ e.2.2 < 32) (hdst : dst < 32) :
    let u := s.serveCounter c ch ((threadKey c t, need, dst) :: rest)
    u.stat c t = .running ∧ u.pc c t = s.pc c t + 1 ∧ threadKey c t ∉ u.core.counterWait
      ∧ u.sreg c t dst = if dst = 0 then 0 else BitVec.ofNat 64 (n - need) := by
  have hk : threadKey c t % 16 = t := by simp only [threadKey]; omega
  unfold State.serveCounter
  simp only [hn, hneed, if_true, hk]
  generalize hw : ({ s.setCounter c ch (n - need) with core := { (s.setCounter c ch (n - need)).core with
    counterWait := (s.setCounter c ch (n - need)).core.counterWait.filter (· != threadKey c t) } } : State) = w
  have hline : threadKey c t ∉ w.core.counterWait := by simp [← hw]
  have hpc : w.pc c t = s.pc c t := by simp [← hw, State.pc]
  generalize hv : (w.setS c t dst (BitVec.ofNat 64 (n - need))).resume c t = v
  have hkept := threadKept_serveCounter (c := c) ch rest hrest v
  refine ⟨?_, ?_, hkept.wait ?_, ?_⟩
  · rw [hkept.stat, ← hv, State.stat_resume]
  · rw [hkept.pc, ← hv, State.pc_resume, ← hpc]
    unfold State.setS
    split <;> rfl
  · rw [← hv]
    unfold State.setS
    split <;> exact hline
  · rw [hkept.sreg dst hdst, ← hv, State.sreg_resume]
    split
    · next h0 => rw [h0, State.sreg_zero]
    · next h0 => exact State.sreg_setS w c t dst _ h0

/-! ### Barriers (03 R134) -/

theorem threadKept_barrierGo {c t t' : Nat} (ch : Nat) (h : t ≠ t') (s : State) : ThreadKept c t s (s.barrierGo c ch t') := by
  unfold State.barrierGo
  split
  · split
    · exact .resume h s
    · exact .of_core rfl
  · exact .of_core rfl

theorem State.lastGen_of_regs {s u : State} (h : u.regs = s.regs) (c ch : Nat) : u.lastGen c ch = s.lastGen c ch := by
  simp [State.lastGen, State.on, State.fld, h]

theorem State.genDone_of_regs {s u : State} (h : u.regs = s.regs) (c ch n : Nat) : u.genDone c ch n = s.genDone c ch n := by
  simp [State.genDone, State.lastGen_of_regs h]

/-- A thread that waits for a generation that has come goes on, whatever threads of its core are looked at beside it. -/
theorem State.barrierGo_foldl {c t ch gen : Nat} (l : List Nat) (hl : l.Nodup) (s : State) (hgen : s.genDone c ch gen = true)
    (hwait : s.stat c t = .waiting (.barrier ch gen)) (ht : t ∈ l) :
    (l.foldl (fun s t => s.barrierGo c ch t) s).stat c t = .running
    ∧ (l.foldl (fun s t => s.barrierGo c ch t) s).pc c t = s.pc c t + 1 := by
  have others : ∀ (l : List Nat) (u : State), t ∉ l → ThreadKept c t u (l.foldl (fun s t => s.barrierGo c ch t) u) := by
    intro l
    induction l with
    | nil => exact fun u _ => .of_core rfl
    | cons a l ih =>
      intro u ha
      simp only [List.mem_cons, not_or] at ha
      exact (threadKept_barrierGo ch ha.1 u).trans (ih _ ha.2)
  induction l generalizing s with
  | nil => simp at ht
  | cons a l ih =>
    obtain ⟨ha, hl'⟩ := List.nodup_cons.1 hl
    rw [List.foldl_cons]
    by_cases hat : t = a
    · have hgo : s.barrierGo c ch a = s.resume c t := by
        simp [State.barrierGo, ← hat, hwait, hgen]
      have hk := others l (s.resume c t) (hat ▸ ha)
      rw [hgo]
      exact ⟨by rw [hk.stat, State.stat_resume], by rw [hk.pc, State.pc_resume]⟩
    · have hk := threadKept_barrierGo (c := c) ch hat s
      have hregs : (s.barrierGo c ch a).regs = s.regs := by simp
      rw [← hk.pc]
      exact ih hl' _ (by rw [State.genDone_of_regs hregs, hgen]) (hk.stat.trans hwait)
        ((List.mem_cons.1 ht).resolve_left hat)

/-- The generation of a release stands in its channel. -/
theorem State.lastGen_setGen (s : State) (c ch n : Nat) :
    ((s.setFld (CL_TOK_CNT_GEN (clusterOf c) (subOf c) ch) n).setFld
      (CL_TOK_CNT_GEN_VALID (clusterOf c) (subOf c) ch) 1).lastGen c ch = some (n % 2 ^ 24) := by
  have hne : (CL_TOK_CNT_GEN_VALID (clusterOf c) (subOf c) ch).key ≠ (CL_TOK_CNT_GEN (clusterOf c) (subOf c) ch).key := by
    simp only [CL_TOK_CNT_GEN, CL_TOK_CNT_GEN_VALID, Fld.at_key]
    omega
  generalize hu : s.setFld (CL_TOK_CNT_GEN (clusterOf c) (subOf c) ch) n = u
  have hon : (u.setFld (CL_TOK_CNT_GEN_VALID (clusterOf c) (subOf c) ch) 1).on
      (CL_TOK_CNT_GEN_VALID (clusterOf c) (subOf c) ch) = true := by
    rw [State.on, State.fld_setFld]
    rfl
  have hgen : (u.setFld (CL_TOK_CNT_GEN_VALID (clusterOf c) (subOf c) ch) 1).fld
      (CL_TOK_CNT_GEN (clusterOf c) (subOf c) ch) = n % 2 ^ 24 := by
    rw [State.fld_setFld_ne _ _ hne, ← hu, State.fld_setFld]
    rfl
  simp [State.lastGen, hon, hgen]

theorem tokValue_lt (tok : Word) : tokValue tok < 2 ^ 24 := Nat.mod_lt _ (by decide)

/-- The state with which a release on an open channel leaves the threads that it may wake. -/
def State.released (s : State) (c : Nat) (tok : Word) : State :=
  ((s.takeTok tok).setFld (CL_TOK_CNT_GEN (clusterOf c) (subOf c) (tokChannel tok)) (tokValue tok)).setFld
    (CL_TOK_CNT_GEN_VALID (clusterOf c) (subOf c) (tokChannel tok)) 1

theorem State.released_lastGen (s : State) (c : Nat) (tok : Word) :
    (s.released c tok).lastGen c (tokChannel tok) = some (tokValue tok) := by
  rw [State.released, State.lastGen_setGen, Nat.mod_eq_of_lt (tokValue_lt tok)]

theorem execBarrierRelease_of_open {s : State} {tok : Word} {c : Nat} (hc : tokCore tok = some c) (h : mayArrive s tok 3)
    (hopen : s.chOpen c (tokChannel tok) = true) :
    execBarrierRelease tok s = .next ((s.released c tok).serveBarrier c (tokChannel tok)) := by
  have ho : (s.takeTok tok).chOpen c (tokChannel tok) = true := hopen
  rw [execBarrierRelease, arrive_of_mayArrive _ h]
  simp [hc, ho, State.released]

/-! ### A token that cannot be applied (01 R37) -/

theorem bits_eq_div (n lo len : Nat) : bits n lo len = n / 2 ^ lo % 2 ^ len := by
  simp [bits, Nat.shiftRight_eq_div_pow]

/-- The number that a token's fields make. -/
theorem toNat_mkTok (kind dnode dsub snode ssub ch v : Nat) : (mkTok kind dnode dsub snode ssub ch v).toNat =
    kind % 16 * 2 ^ 60 + dnode % 256 * 2 ^ 52 + dsub % 32 * 2 ^ 47 + snode % 256 * 2 ^ 39
      + ssub % 32 * 2 ^ 34 + ch % 256 * 2 ^ 24 + v % 2 ^ 24 := by
  rw [mkTok, BitVec.toNat_ofNat, Nat.mod_eq_of_lt (by omega)]

theorem tokKind_mkTok (kind dnode dsub snode ssub ch v : Nat) : tokKind (mkTok kind dnode dsub snode ssub ch v) = kind % 16 := by
  rw [tokKind, tokField, bits_eq_div, toNat_mkTok]
  omega

theorem tokDstNode_mkTok (kind dnode dsub snode ssub ch v : Nat) :
    tokDstNode (mkTok kind dnode dsub snode ssub ch v) = dnode % 256 := by
  rw [tokDstNode, tokField, bits_eq_div, toNat_mkTok]
  omega

theorem tokDstSub_mkTok (kind dnode dsub snode ssub ch v : Nat) :
    tokDstSub (mkTok kind dnode dsub snode ssub ch v) = dsub % 32 := by
  rw [tokDstSub, tokField, bits_eq_div, toNat_mkTok]
  omega

/-- Whether a token names a unit is a matter of its kind and destination. -/
theorem tokBad_mkTok (kind dnode dsub snode ssub ch v : Nat) : tokBad (mkTok kind dnode dsub snode ssub ch v)
    = (8 ≤ kind % 16 || nodeUnits (dnode % 256) ≤ dsub % 32) := by
  rw [tokBad, tokKind_mkTok, tokDstNode_mkTok, tokDstSub_mkTok]

theorem State.pushFault_effect (s : State) (core : Nat) (r : List Byte) :
    (s.pushFault core r).regs = s.regs ∧ (s.pushFault core r).e.faultN = s.e.faultN + 1
    ∧ (s.pushFault core r).e.faultRing = Tab.put s.e.faultRing [] (s.e.faultN % 1024) r := by
  have hgood : tokBad (mkTok 7 56 0 (clusterOf core) (subOf core) 0 core) = false := by
    rw [tokBad_mkTok]
    decide
  unfold State.pushFault
  extract_lets
  rw [State.sendTok_of_good hgood]
  exact ⟨rfl, rfl, rfl⟩

/-- A fault is recorded in the ring, and the hub is sent a notice of it (18 R585). -/
theorem State.taskFault_effect (s : State) (core thread pc : Nat) (f : FInfo) (extra : Nat) (instr : Word) :
    (s.taskFault core thread pc f extra instr).taskState core = tkFaulted
    ∧ (s.taskFault core thread pc f extra instr).e.faultN = s.e.faultN + 1
    ∧ Tab.get (s.taskFault core thread pc f extra instr).e.faultRing [] (s.e.faultN % 1024)
      = faultRecord core thread (s.taskId core) pc f extra instr := by
  obtain ⟨hregs, hn, hring⟩ := State.pushFault_effect ((s.leaveTask core).setTaskState core tkFaulted) core
    (faultRecord core thread (s.taskId core) pc f extra instr)
  unfold State.taskFault
  extract_lets r u
  refine ⟨?_, by simpa [u] using hn, ?_⟩
  · rw [State.taskState, State.fld, hregs]
    exact State.fld_setFld (s.leaveTask core) _ tkFaulted
  · rw [hring]
    simp

theorem State.tokOverflow_of_not_running {s : State} {core : Nat} (tok : Word) (h : s.taskRuns core = false) :
    s.tokOverflow core tok = s.file 0x0002 clsNotice 2 (clusterOf core) tok.toNat (s.corePart core) := by
  simp [State.tokOverflow, h]

theorem State.tokOverflow_of_running {s : State} {core : Nat} (tok : Word) (h : s.taskRuns core = true)
    (he : s.engineFaults core = []) : s.tokOverflow core tok =
      (s.file 0x0002 clsTask 2 (clusterOf core) tok.toNat (s.corePart core)).taskFault core 0 0
        ⟨fcToken, 0, none, tok.toNat⟩ 0 0 := by
  simp [State.tokOverflow, h, he]

@[simp] theorem State.report_faults (s : State) (r : Report) :
    (s.report r).e.faultN = s.e.faultN ∧ (s.report r).e.faultRing = s.e.faultRing := by
  unfold State.report
  dsimp only
  (repeat' split) <;> simp

/-- One token too many for a running task stops it with a TOKEN fault whose ADDRESS is the token. -/
theorem State.tokOverflow_faults {s : State} {core : Nat} (tok : Word) (h : s.taskRuns core = true)
    (he : s.engineFaults core = []) : (s.tokOverflow core tok).taskState core = tkFaulted
    ∧ (s.tokOverflow core tok).e.faultN = s.e.faultN + 1
    ∧ Tab.get (s.tokOverflow core tok).e.faultRing [] (s.e.faultN % 1024)
      = faultRecord core 0 (s.taskId core) 0 ⟨fcToken, 0, none, tok.toNat⟩ 0 0 := by
  rw [State.tokOverflow_of_running tok h he]
  generalize hu : s.file 0x0002 clsTask 2 (clusterOf core) tok.toNat (s.corePart core) = u
  have hn : u.e.faultN = s.e.faultN := by simp [← hu, State.file]
  have hid : u.taskId core = s.taskId core := by simp [← hu, State.taskId, State.taskF]
  have := State.taskFault_effect u core 0 0 ⟨fcToken, 0, none, tok.toNat⟩ 0 0
  rwa [hn, hid] at this

/-! ### The law -/

theorem tokenSignal_wakes {s : State} {tok : Word} {c : Fin 800} (hc : tokCore tok = some c.val) (h : mayArrive s tok 1)
    (hfit : s.tokFits c tok = true) (hwidth : s.counter c (tokChannel tok) + tokValue tok < 2 ^ 24) {t : Fin 16}
    {need : Nat} {dst : Fin 32} {rest : List (Nat × Nat × Nat)}
    (hq : s.counterQueue c (tokChannel tok) = (threadKey c t, need, dst.val) :: rest)
    (hneed : need ≤ s.counter c (tokChannel tok) + tokValue tok)
    (hrest : ∀ e ∈ rest, e.1 ≠ threadKey c t ∧ e.2.2 < 32) :
    Gives (execTokenSignal tok s) (fun u => u.stat c t = .running ∧ u.pc c t = s.pc c t + 1
      ∧ u.sreg c t dst = (if dst = 0 then 0 else BitVec.ofNat 64 (s.counter c (tokChannel tok) + tokValue tok - need))
      ∧ threadKey c t ∉ u.core.counterWait) := by
  rw [execTokenSignal_of_core hc h]
  have hfit' : (s.takeTok tok).tokFits c tok = true := hfit
  generalize hn : s.counter c (tokChannel tok) + tokValue tok = n at hwidth hneed ⊢
  have hn' : (s.takeTok tok).counter c (tokChannel tok) + tokValue tok = n := hn
  have hq' : ((s.takeTok tok).setCounter c (tokChannel tok) n).counterQueue c (tokChannel tok)
      = (threadKey c t, need, dst.val) :: rest := hq
  have hothers : ∀ e ∈ rest, t.val ≠ e.1 % 16 ∧ e.2.2 < 32 := by
    intro e he
    have hcore := State.mem_counterQueue (s := s) (c := c) (ch := tokChannel tok) (e := e) (by simp [hq, he])
    obtain ⟨hne, hd⟩ := hrest e he
    simp only [threadKey] at hne
    exact ⟨by omega, hd⟩
  refine ⟨_, rfl, ?_⟩
  simp only [State.addToken, hfit', hn', hq', Bool.not_true, Bool.false_eq_true, if_false]
  obtain ⟨hstat, hpc, hwait, hsreg⟩ := State.serveCounter_first (s := (s.takeTok tok).setCounter c (tokChannel tok) n)
    (c := c) t.isLt (by rw [State.counter_setCounter, Nat.mod_eq_of_lt hwidth]) hneed hothers dst.isLt
  exact ⟨hstat, hpc, hsreg.trans (if_congr (by rw [Fin.ext_iff]; rfl) rfl rfl), hwait⟩

theorem barrierRelease_wakes {s : State} {tok : Word} {c : Fin 800} (hc : tokCore tok = some c.val) (h : mayArrive s tok 3)
    (hopen : s.chOpen c (tokChannel tok) = true) {t : Fin 16} {gen : Nat}
    (hwait : s.stat c t = .waiting (.barrier (tokChannel tok) gen)) (hgen : genReached gen (tokValue tok) = true) :
    Gives (execBarrierRelease tok s) (fun u => u.stat c t = .running ∧ u.pc c t = s.pc c t + 1) := by
  rw [execBarrierRelease_of_open hc h hopen]
  exact ⟨_, rfl, State.barrierGo_foldl (List.range 16) List.nodup_range (s.released c tok)
    (by simp [State.genDone, State.released_lastGen, hgen]) hwait (by simp)⟩

theorem tokensWake : tokensWakeLaw := by
  intro tok c s hc
  refine ⟨fun h hopen hlim hwidth t need dst rest hq hneed hrest => ?_, fun h hopen t gen hwait hgen => ?_,
    fun h hno => ?_⟩
  · exact tokenSignal_wakes hc h ((State.tokFits_iff s c tok).2 ⟨hopen, hlim⟩) hwidth hq hneed hrest
  · exact barrierRelease_wakes hc h hopen hwait hgen
  · have hfit : (s.takeTok tok).tokFits c tok = false := (State.tokFits_eq_false_iff s c tok).2 hno
    have hexec : execTokenSignal tok s = .next ((s.takeTok tok).tokOverflow c tok) := by
      rw [execTokenSignal_of_core hc h, State.addToken_of_not_fits hfit]
    exact ⟨fun hruns he => ⟨_, hexec, State.tokOverflow_faults (s := s.takeTok tok) tok hruns he⟩,
      fun hruns => hexec.trans (by rw [State.tokOverflow_of_not_running (s := s.takeTok tok) tok hruns]; rfl)⟩

end Sys2Proof.Machine
end

section
/-! PROOF. The tokens that only arrive, those of units that are no core, and the opening of a channel (01 R32 to R39, 20 R652). -/

namespace Sys2Proof.Machine

/-! ### Arrivals -/

/-- A token that names no unit is discarded where a device sent it. -/
theorem arrive_of_bad {s : State} {tok : Word} (kind : Nat) (g : State → State) (hdie : s.dieUp = true)
    (hbad : tokBad tok = true) (hsrc : tokSrcNode tok = 56) : arrive kind tok g s = .next (s.discardTok tok) := by
  simp [arrive, hdie, hbad, hsrc]

theorem exec_arrivalsOf_of_bad {s : State} {tok : Word} (hdie : s.dieUp = true) (hbad : tokBad tok = true)
    (hsrc : tokSrcNode tok = 56) (hbell : tokDoorbell tok = false) (i : Instr) (hi : i ∈ arrivalsOf tok)
    (hno : ∀ p, i ≠ .contributionDoorbell p ∧ i ≠ .exchangeDoorbell p) : exec i s = .next (s.discardTok tok) := by
  simp only [arrivalsOf, List.mem_cons, List.not_mem_nil, or_false] at hi
  rcases hi with rfl | rfl | rfl | rfl | rfl | rfl | rfl | rfl
  · exact show execTokenCreditReturn tok s = _ from arrive_of_bad 0 _ hdie hbad hsrc
  · show execTokenSignal tok s = _
    rw [execTokenSignal, hbell, if_neg Bool.false_ne_true]
    exact arrive_of_bad 1 _ hdie hbad hsrc
  · exact show execBarrierArrive tok s = _ from arrive_of_bad 2 _ hdie hbad hsrc
  · exact show execBarrierRelease tok s = _ from arrive_of_bad 3 _ hdie hbad hsrc
  · exact show execReadReply tok s = _ from arrive_of_bad 6 _ hdie hbad hsrc
  · exact show execFaultRecordNotice tok s = _ from arrive_of_bad 7 _ hdie hbad hsrc
  · exact absurd rfl (hno tok).1
  · exact absurd rfl (hno tok).2

theorem execBarrierArrive_received {s : State} {tok : Word} (h : mayArrive s tok 2)
    (hu : tokCore tok = none ∨ tokChannel tok < 64) :
    execBarrierArrive tok s = .next ((s.takeTok tok).gotBarrier tok) := by
  rw [execBarrierArrive, arrive_of_mayArrive _ h]
  split
  · next hc =>
    have hch : ¬ 64 ≤ tokChannel tok := by
      rcases hu with hu | hu
      · simp [hu] at hc
      · omega
    rw [if_neg hch]
  · rfl

theorem execBarrierArrive_overflow {s : State} {tok : Word} {c : Nat} (h : mayArrive s tok 2) (hc : tokCore tok = some c)
    (hch : 64 ≤ tokChannel tok) : execBarrierArrive tok s = .next ((s.takeTok tok).tokOverflow c tok) := by
  rw [execBarrierArrive, arrive_of_mayArrive _ h]
  simp [hc, hch]

theorem execBarrierRelease_lastGen {s : State} {tok : Word} {c : Nat} (h : mayArrive s tok 3) (hc : tokCore tok = some c)
    (hopen : s.chOpen c (tokChannel tok) = true) :
    Gives (execBarrierRelease tok s) (fun u => u.lastGen c (tokChannel tok) = some (tokValue tok)) := by
  rw [execBarrierRelease_of_open hc h hopen]
  have hregs : ((s.released c tok).serveBarrier c (tokChannel tok)).regs = (s.released c tok).regs := by simp
  refine ⟨_, rfl, ?_⟩
  dsimp only
  rw [State.lastGen_of_regs hregs, State.released_lastGen]

/-- A token that counts at a unit which is no core is added there, or reported. -/
theorem exec_unitToken {s : State} {tok : Word} (hc : tokCore tok = none) (hbell : tokDoorbell tok = false) {i : Instr}
    (hi : (mayArrive s tok 0 ∧ i = Instr.tokenCreditReturn tok) ∨ (mayArrive s tok 1 ∧ i = .tokenSignal tok)) :
    exec i s = .next ((s.takeTok tok).addUnit tok) := by
  rcases hi with ⟨h, rfl⟩ | ⟨h, rfl⟩
  · show execTokenCreditReturn tok s = _
    rw [execTokenCreditReturn, arrive_of_mayArrive _ h]
    simp [hc]
  · show execTokenSignal tok s = _
    rw [execTokenSignal, hbell, if_neg Bool.false_ne_true, arrive_of_mayArrive _ h]
    simp [hc]

theorem State.addUnit_of_le {s : State} {tok : Word} {n : Nat}
    (hn : Tab.get s.e.unitCnt 0 (unitCtr tok) + tokValue tok = n) (h : n ≤ Config.unitLimit (unitCtr tok)) :
    s.addUnit tok = { s with e := { s.e with unitCnt := Tab.put s.e.unitCnt 0 (unitCtr tok) n } } := by
  simp only [State.addUnit, hn, h, if_true]

theorem State.addUnit_of_lt {s : State} {tok : Word} {n : Nat}
    (hn : Tab.get s.e.unitCnt 0 (unitCtr tok) + tokValue tok = n) (h : Config.unitLimit (unitCtr tok) < n) :
    s.addUnit tok = s.unitOverflow tok := by
  simp only [State.addUnit, hn, Nat.not_le.2 h, if_false]

theorem execFaultRecordNotice_files {s : State} {tok : Word} (h : mayArrive s tok 7) {core i code : Nat}
    (hcore : core = tokValue tok % 1024) (hn : s.e.notices.find? (fun n => n.1 == core) = some (core, i, code)) :
    let s' := s.takeTok tok
    let s' := { s' with e := { s'.e with notices := dropFirst (fun n => n.1 == core) s.e.notices } }
    execFaultRecordNotice tok s = .next (s'.file 0x0001 clsTask 1 core (i + code * 2 ^ 16) (s'.corePart core)) := by
  obtain rfl := hcore
  have hn' : (s.takeTok tok).e.notices.find? (fun n => n.1 == tokValue tok % 1024) = some (tokValue tok % 1024, i, code) := hn
  rw [execFaultRecordNotice, arrive_of_mayArrive _ h]
  simp only [hn']
  rfl

theorem execControlWrite_reg {s : State} {tok : Word} (h : mayArrive s tok 4) {a size : Nat} (v : Word)
    (hsize : size = 4 ∨ size = 8) (ha : a % size = 0) :
    execControlWrite tok (.reg a size v) s = .next ((s.takeTok tok).writeAt a size v.toNat) := by
  rw [execControlWrite, arrive_of_mayArrive _ h]
  simp [hsize, ha]

/-- A read is shown, and a token that names a unit goes out with it. -/
theorem State.answerTok_effect (s : State) (b : List Byte) (tok : List Byte → Word) (hgood : ∀ d, tokBad (tok d) = false) :
    let u := (have d := b; have u := s.answer (.data d); u.sendTok (tok d))
    u.e.answers = s.e.answers ++ [.data b] ∧ u.e.toks = s.e.toks ++ [tok b] := by
  dsimp only
  rw [State.sendTok_of_good (hgood b)]
  exact ⟨rfl, rfl⟩

/-- A control read is answered to whoever asked, if its source is a unit. -/
theorem execControlRead_reg {s : State} {tok : Word} (h : mayArrive s tok 5) (a size : Nat) (v : Word)
    (hsrc : tokBad (mkTok 6 (tokSrcNode tok) (tokSrcSub tok) 0 0 0 0) = false) :
    let b := (leBytes 8 ((s.takeTok tok).readWord true (a / 8 * 8) / 2 ^ (8 * (a % 8)))).take size
    Gives (execControlRead tok (.reg a size v) s) (fun u => u.e.answers = s.e.answers ++ [.data b]
      ∧ u.e.toks = (s.takeTok tok).e.toks ++ [mkTok 6 (tokSrcNode tok) (tokSrcSub tok) (tokDstNode tok) (tokDstSub tok)
          (tokChannel tok) (leNat b)]) := by
  have hgood : ∀ n, tokBad (mkTok 6 (tokSrcNode tok) (tokSrcSub tok) (tokDstNode tok) (tokDstSub tok) (tokChannel tok) n)
      = false := by
    intro n
    rw [tokBad_mkTok] at hsrc ⊢
    exact hsrc
  exact ⟨_, arrive_of_mayArrive _ h, State.answerTok_effect (s.takeTok tok) _ (fun b => mkTok 6 (tokSrcNode tok)
    (tokSrcSub tok) (tokDstNode tok) (tokDstSub tok) (tokChannel tok) (leNat b)) (fun b => hgood (leNat b))⟩

theorem tokensDelivered : tokensDeliveredLaw := by
  intro tok s
  refine ⟨fun h hu => ⟨execBarrierArrive_received h hu, rfl⟩, fun h c hc hch => execBarrierArrive_overflow h hc hch,
    fun hdie hbad hsrc hbell i hi hno => exec_arrivalsOf_of_bad hdie hbad hsrc hbell i hi hno,
    fun h c hc hopen => execBarrierRelease_lastGen h hc hopen, ?_, fun h => ?_,
    fun h core i code hcore hn => execFaultRecordNotice_files h hcore hn,
    fun h a size v hsize ha => execControlWrite_reg h v hsize ha, fun h a size v hsrc => execControlRead_reg h a size v hsrc⟩
  · intro hc hbell n i hi
    rw [exec_unitToken hc hbell hi]
    refine ⟨fun hle => ?_, fun hlt => ?_⟩
    · rw [State.addUnit_of_le (s := s.takeTok tok) rfl hle]
      exact ⟨_, rfl, Tab.get_put_same _ _ _ _, rfl, rfl, rfl⟩
    · rw [State.addUnit_of_lt (s := s.takeTok tok) rfl hlt]
      rfl
  · exact ⟨_, show execReadReply tok s = _ from arrive_of_mayArrive _ h, rfl⟩

/-! ### The opening of a channel -/

/-- A field at another address, or at other bits of the same word, than the fields of a channel. -/
def OffChannel (c ch : Nat) (f : Fld) : Prop :=
  (CL_TOK_LIMIT_LIMIT (clusterOf c) (subOf c) ch).key ≠ f.key ∧ (CL_TOK_LIMIT_OPEN (clusterOf c) (subOf c) ch).key ≠ f.key
    ∧ (CL_TOK_CNT_COUNT (clusterOf c) (subOf c) ch).key ≠ f.key ∧ (CL_TOK_CNT_GEN (clusterOf c) (subOf c) ch).key ≠ f.key
    ∧ (CL_TOK_CNT_GEN_VALID (clusterOf c) (subOf c) ch).key ≠ f.key

theorem State.openChannel_fld_ne (s : State) {c ch : Nat} (v : Nat) {f : Fld} (h : OffChannel c ch f) :
    (s.openChannel c ch v).fld f = s.fld f := by
  obtain ⟨h1, h2, h3, h4, h5⟩ := h
  unfold State.openChannel
  rw [State.fld_setFld_ne _ _ h5, State.fld_setFld_ne _ _ h4, State.fld_setFld_ne _ _ h3, State.fld_setFld_ne _ _ h2,
    State.fld_setFld_ne _ _ h1]

theorem offChannel_open {c ch i : Nat} (h : i ≠ ch) (hi : i < 64) (hch : ch < 64) :
    OffChannel c ch (CL_TOK_LIMIT_OPEN (clusterOf c) (subOf c) i) := by
  simp only [OffChannel, CL_TOK_LIMIT_LIMIT, CL_TOK_LIMIT_OPEN, CL_TOK_CNT_COUNT, CL_TOK_CNT_GEN, CL_TOK_CNT_GEN_VALID,
    Fld.at_key]
  omega

theorem offChannel_count {c ch i : Nat} (h : i ≠ ch) (hi : i < 64) (hch : ch < 64) :
    OffChannel c ch (CL_TOK_CNT_COUNT (clusterOf c) (subOf c) i) := by
  simp only [OffChannel, CL_TOK_LIMIT_LIMIT, CL_TOK_LIMIT_OPEN, CL_TOK_CNT_COUNT, CL_TOK_CNT_GEN, CL_TOK_CNT_GEN_VALID,
    Fld.at_key]
  omega

/-- Five fields written in the order of their keys, each behind the one before: all of them hold what was written. -/
theorem State.flds_of_rising (s : State) {f g h i j : Fld} (vf vg vh vi vj : Nat) (hfg : f.key < g.key)
    (hgh : g.key < h.key) (hhi : h.key < i.key) (hij : i.key < j.key) :
    let u := ((((s.setFld f vf).setFld g vg).setFld h vh).setFld i vi).setFld j vj
    u.fld f = vf % 2 ^ f.len ∧ u.fld g = vg % 2 ^ g.len ∧ u.fld h = vh % 2 ^ h.len ∧ u.fld j = vj % 2 ^ j.len := by
  have ne {a b : Fld} (hab : b.key < a.key) : a.key ≠ b.key := Nat.ne_of_gt hab
  refine ⟨?_, ?_, ?_, State.fld_setFld _ _ _⟩
  · rw [State.fld_setFld_ne _ _ (ne (by omega)), State.fld_setFld_ne _ _ (ne (by omega)),
      State.fld_setFld_ne _ _ (ne (by omega)), State.fld_setFld_ne _ _ (ne hfg), State.fld_setFld]
  · rw [State.fld_setFld_ne _ _ (ne (by omega)), State.fld_setFld_ne _ _ (ne (by omega)),
      State.fld_setFld_ne _ _ (ne hgh), State.fld_setFld]
  · rw [State.fld_setFld_ne _ _ (ne (by omega)), State.fld_setFld_ne _ _ (ne hhi), State.fld_setFld]

/-- The five fields of a channel hold what its opening writes there. -/
theorem State.openChannel_flds (s : State) {c ch : Nat} (v : Nat) :
    (s.openChannel c ch v).fld (CL_TOK_LIMIT_LIMIT (clusterOf c) (subOf c) ch) = bits v 0 24 % 2 ^ 24
    ∧ (s.openChannel c ch v).fld (CL_TOK_LIMIT_OPEN (clusterOf c) (subOf c) ch) = bits v 24 1 % 2
    ∧ (s.openChannel c ch v).fld (CL_TOK_CNT_COUNT (clusterOf c) (subOf c) ch) = 0
    ∧ (s.openChannel c ch v).fld (CL_TOK_CNT_GEN_VALID (clusterOf c) (subOf c) ch) = 0 := by
  have hfg : (CL_TOK_LIMIT_LIMIT (clusterOf c) (subOf c) ch).key < (CL_TOK_LIMIT_OPEN (clusterOf c) (subOf c) ch).key := by
    simp only [CL_TOK_LIMIT_LIMIT, CL_TOK_LIMIT_OPEN, Fld.at_key]
    omega
  have hgh : (CL_TOK_LIMIT_OPEN (clusterOf c) (subOf c) ch).key < (CL_TOK_CNT_COUNT (clusterOf c) (subOf c) ch).key := by
    simp only [CL_TOK_LIMIT_OPEN, CL_TOK_CNT_COUNT, Fld.at_key]
    omega
  have hhi : (CL_TOK_CNT_COUNT (clusterOf c) (subOf c) ch).key < (CL_TOK_CNT_GEN (clusterOf c) (subOf c) ch).key := by
    simp only [CL_TOK_CNT_COUNT, CL_TOK_CNT_GEN, Fld.at_key]
    omega
  have hij : (CL_TOK_CNT_GEN (clusterOf c) (subOf c) ch).key < (CL_TOK_CNT_GEN_VALID (clusterOf c) (subOf c) ch).key := by
    simp only [CL_TOK_CNT_GEN, CL_TOK_CNT_GEN_VALID, Fld.at_key]
    omega
  obtain ⟨hlimit, hopen, hcount, hvalid⟩ := State.flds_of_rising s (bits v 0 24) (bits v 24 1) 0 0 0 hfg hgh hhi hij
  exact ⟨hlimit, hopen, hcount.trans (Nat.zero_mod _), hvalid.trans (Nat.zero_mod _)⟩

theorem State.standing_of_dieUp {s : State} (h : s.dieUp = true) : s.standing = false := by
  simp only [State.dieUp, Bool.and_eq_true, beq_iff_eq] at h
  simp [State.standing, h]

theorem execTokenChannelOpen_of_dieUp {s : State} (c : Fin 800) (ch : Fin 64) (v : Word) (h : s.dieUp = true) :
    execTokenChannelOpen c ch v s = .next (if s.taskRuns c then s.asked.refuseLoad c (0x200 + 8 * ch)
      else s.asked.openChannel c ch v.toNat) := by
  have hs : s.asked.standing = false := State.standing_of_dieUp (s := s) h
  have hd : s.asked.dieUp = true := h
  have ht : s.asked.taskRuns c = s.taskRuns c := rfl
  unfold execTokenChannelOpen
  simp only [hs, hd, ht, Bool.false_eq_true, if_false, Bool.not_true]
  split <;> rfl

theorem channelOpens : channelOpenLaw := by
  intro c ch v s hdie
  obtain ⟨hlimit, hopen, hcount, hvalid⟩ := State.openChannel_flds s.asked (c := c) (ch := ch) v.toNat
  refine ⟨fun hidle => ⟨s.asked.openChannel c ch v.toNat, ?_, ?_, ?_, hcount, ?_, fun i hi => ?_, rfl, rfl, rfl⟩,
    fun hruns => ?_⟩
  · rw [show exec (.tokenChannelOpen c ch v) s = execTokenChannelOpen c ch v s from rfl,
      execTokenChannelOpen_of_dieUp c ch v hdie, hidle]
    rfl
  · rw [hlimit, bits_eq_div]
    omega
  · have hb : bits v.toNat 24 1 % 2 = (v.toNat.testBit 24).toNat := by
      rw [Nat.toNat_testBit, bits_eq_div]
      omega
    rw [State.chOpen, State.on, hopen, hb, BitVec.getLsbD]
    cases v.toNat.testBit 24 <;> simp
  · simp [State.lastGen, State.on, hvalid]
  · have hne : i.val ≠ ch.val := fun e => hi (Fin.ext e)
    refine ⟨?_, State.openChannel_fld_ne s.asked _ (offChannel_count hne i.isLt ch.isLt)⟩
    rw [State.chOpen, State.on, State.openChannel_fld_ne s.asked _ (offChannel_open hne i.isLt ch.isLt)]
    rfl
  · rw [show exec (.tokenChannelOpen c ch v) s = execTokenChannelOpen c ch v s from rfl,
      execTokenChannelOpen_of_dieUp c ch v hdie, hruns]
    rfl

end Sys2Proof.Machine
end

section
open Sys2Proof Sys2Proof.Machine

/-- Settles O20: the counters, the threads woken, the tokens that only arrive, and the opening of a channel. -/
theorem tokensArrive : Obligations.TokensArrive :=
  ⟨tokensCounted, tokensWake, tokensDelivered, channelOpens⟩

end

section
/-! PROOF. No command that can occur on the hardware stops the machine: what each shared shape of the commands answers
(00 scope, 03 R135, 11 R385). -/

namespace Sys2Proof.Machine

/-- The outcome is a next state. -/
def Answers (o : Out) : Prop := ∃ t, o = .next t

theorem answers_next (s : State) : Answers (.next s) := ⟨s, rfl⟩

/-! ### The shapes that can stop the machine -/

/-- A thread that exists on its core (03 R118) is no `impossible` one: every other branch of an issue answers. -/
theorem answers_issueUe {c : Fin 800} {t : Fin 16} (h : coreOk c t = true) (ue : List FInfo) (cls op : Nat) (f : Fields)
    (u : Uses) (bad : Bool) (more : List (RFile × Nat)) (body : State → Eff) (s : State) :
    Answers (issueUe ue c t cls op f u bad more body s) := by
  have hone : (isMatrix c && t.val != 0) = false := by
    simp only [coreOk, Bool.or_eq_true, decide_eq_true_eq, beq_iff_eq] at h
    rcases h with h | rfl
    · have hm : isMatrix c = false := decide_eq_false (by omega)
      rw [hm, Bool.false_and]
    · exact Bool.and_false _
  unfold issueUe
  rw [hone]
  dsimp only
  split
  · contradiction
  · (repeat' split) <;> exact answers_next _

/-- A frame that can occur has the length of its header (11 R385). -/
theorem frameSized_of_frameOk {b : List Byte} (h : frameOk b = true) : frameSized b = true := h

theorem answers_receive {b : List Byte} (h : frameOk b = true) (place : Fin 256)
    (mine good : State → Option Nat → List Byte → Bool) (g : State → Option Nat → List Byte → State) (s : State) :
    Answers (receive place b mine good g s) := by
  unfold receive
  rw [frameSized_of_frameOk h]
  dsimp only
  split
  · contradiction
  · (repeat' split) <;> exact answers_next _

theorem answers_receivePart {b : List Byte} (h : frameOk b = true) (typ : Nat) (place : Fin 256)
    (mine good : State → Nat → List Byte → Bool) (g : State → Nat → List Byte → State) (s : State) :
    Answers (receivePart typ place b mine good g s) :=
  answers_receive h ..

theorem answers_collRow {frame : List Byte} (h : frameOk frame = true) (lam : Fin 256) (fits : List Byte → Bool)
    (s : State) : Answers (collRow lam frame fits s) :=
  answers_receivePart h ..

/-! ### The shapes that always answer -/

theorem answers_unlessStopped {o : Out} (s : State) (h : Answers o) : Answers (unlessStopped s o) := by
  unfold unlessStopped
  split
  · exact answers_next _
  · exact h

theorem answers_msgRow {via : Via} (h : viaOk via = true) (k : MKind) (g : State → Nat → Nat → List Byte → State)
    (s : State) : Answers (msgRow k via g s) := by
  refine answers_unlessStopped s ?_
  cases via with
  | own => dsimp only; split <;> exact answers_next _
  | lambda lam frame => exact answers_receivePart h ..

theorem answers_arrive (kind : Nat) (tok : Word) (g : State → State) (s : State) : Answers (arrive kind tok g s) := by
  unfold arrive
  (repeat' split) <;> exact answers_next _

theorem answers_doorbell (ch form : Nat) (tok : Word) (bad : State → Nat → Nat → Nat → State)
    (g : State → Nat → Nat → List Byte → State) (s : State) : Answers (doorbell ch form tok bad g s) := by
  refine answers_unlessStopped s ?_
  dsimp only
  (repeat' split) <;> exact answers_next _

theorem answers_runCmd (op : Nat) (run : State → BCmd → Slot → BPay → State) (st : Fin 8) (id : Nat) (s : State) :
    Answers (runCmd op run st id s) := by
  refine answers_unlessStopped s ?_
  dsimp only
  (repeat' split) <;> exact answers_next _

theorem answers_hostRow (op : Nat) (c : HostCmd) (g : Started → Nat → State → HRes) (s : State) :
    Answers (hostRow op c g s) := by
  unfold hostRow
  dsimp only
  (repeat' split) <;> exact answers_next _

theorem answers_boundaryRow (op : Nat) (c : HostCmd) (check : Nat → State → Option HRes)
    (apply : HostCmd → Nat → State → State × Nat × Nat) (s : State) : Answers (boundaryRow op c check apply s) :=
  answers_hostRow ..

theorem answers_smbWrite (s : State) (x : SmbWrite) (code want : Nat) (ok : Bool) (act : State → State) :
    Answers (s.smbWrite x code want ok act) := by
  unfold State.smbWrite
  (repeat' split) <;> exact answers_next _

theorem answers_smbRead (s : State) (x : SmbRead) (code n : Nat) (v : State → Nat × State) :
    Answers (s.smbRead x code n v) := by
  unfold State.smbRead
  dsimp only
  split <;> exact answers_next _

/-! ### Instructions of a core -/

/-- The command is the issue of an instruction by a thread, with what the word may use; bodies and checks vary. -/
def IsIssue (c : Fin 800) (t : Fin 16) (f : Fields) (u : Uses) (g : State → Out) : Prop :=
  ∃ cls op bad more body, ∀ s, g s = issue c t cls op f u bad more body s

theorem IsIssue.answers {c : Fin 800} {t : Fin 16} {f : Fields} {u : Uses} {g : State → Out} (hg : IsIssue c t f u g)
    (h : coreOk c t = true) (s : State) : Answers (g s) := by
  obtain ⟨cls, op, bad, more, body, hg⟩ := hg
  rw [hg]
  exact answers_issueUe h ..

section
variable (c : Fin 800) (t : Fin 16) (f : Fields)

theorem isIssue_issue (cls op : Nat) (u : Uses) (bad : Bool) (more : List (RFile × Nat)) (body : State → Eff) :
    IsIssue c t f u (issue c t cls op f u bad more body) :=
  ⟨_, _, _, _, _, fun _ => rfl⟩

theorem isIssue_alu (op : Nat) (g : Word → Word → Word) : IsIssue c t f (usesAlu f) (alu op g c t f) :=
  ⟨_, _, _, _, _, fun _ => rfl⟩

theorem isIssue_branch (op : Nat) (g : Word → Word → Bool) :
    IsIssue c t f { a := some .s, b := some .s, imm := 65535 } (branch op g c t f) :=
  ⟨_, _, _, _, _, fun _ => rfl⟩

theorem isIssue_maskOp (op : Nat) (g : MWord → MWord → MWord) :
    IsIssue c t f { dst := some .m, a := some .m, b := some .m } (maskOp op g c t f) :=
  ⟨_, _, _, _, _, fun _ => rfl⟩

theorem isIssue_sender (op kind : Nat) :
    IsIssue c t f { a := some .s, b := some .s, imm := 255 } (sender op kind c t f) :=
  ⟨_, _, _, _, _, fun _ => rfl⟩

theorem isIssue_vecOp (op n : Nat) (group : Ty → Bool) (g : Ty → Nat → Nat → Nat → NRes) :
    IsIssue c t f (usesV n) (vecOp op n group g c t f) :=
  ⟨_, _, _, _, _, fun _ => rfl⟩

theorem isIssue_vecMove (op : Nat) (u : Uses) (bad : Bool) (g : Ty → VWord → VWord → Nat → Nat) :
    IsIssue c t f u (vecMove op u bad g c t f) :=
  ⟨_, _, _, _, _, fun _ => rfl⟩

theorem isIssue_vecCmp (op n : Nat) (group : Ty → Bool) (g : Ty → Nat → Nat → Bool × Flags) :
    IsIssue c t f { usesV n with dst := some .m } (vecCmp op n group g c t f) :=
  ⟨_, _, _, _, _, fun _ => rfl⟩

theorem isIssue_reduction (op : Nat) (group : Ty → Bool) (b : Option RFile) (body : Ty → State → State) :
    ∃ u, IsIssue c t f u (reduction op group b body c t f) :=
  ⟨_, _, _, _, _, _, fun _ => rfl⟩

theorem isIssue_sampling (op : Nat) (run : Samp → TravM SampRes) : ∃ u, IsIssue c t f u (sampling op run c t f) :=
  ⟨_, _, _, _, _, _, fun _ => rfl⟩

theorem isIssue_readLd : IsIssue c t f usesLd (readLd [] c t f) :=
  ⟨_, _, _, _, _, fun _ => rfl⟩

theorem isIssue_readVld : ∃ u, IsIssue c t f u (readVld [] c t f) :=
  ⟨_, _, _, _, _, _, fun _ => rfl⟩

theorem isIssue_readVlds : ∃ u, IsIssue c t f u (readVlds [] c t f) :=
  ⟨_, _, _, _, _, _, fun _ => rfl⟩

theorem isIssue_readVldt : ∃ u, IsIssue c t f u (readVldt [] c t f) :=
  ⟨_, _, _, _, _, _, fun _ => rfl⟩

theorem isIssue_readSopen : IsIssue c t f { dst := some .q, a := some .s } (readSopen [] c t f) :=
  ⟨_, _, _, _, _, fun _ => rfl⟩

theorem isIssue_readGathl : ∃ u, IsIssue c t f u (readGathl [] c t f) :=
  ⟨_, _, _, _, _, _, fun _ => rfl⟩

theorem isIssue_readVgath : ∃ u, IsIssue c t f u (readVgath [] c t f) :=
  ⟨_, _, _, _, _, _, fun _ => rfl⟩

theorem isIssue_readBcmd : ∃ u, IsIssue c t f u (readBcmd [] c t f) :=
  ⟨_, _, _, _, _, _, fun _ => rfl⟩

theorem isIssue_readBsplit : ∃ u, IsIssue c t f u (readBsplit [] c t f) :=
  ⟨_, _, _, _, _, _, fun _ => rfl⟩

theorem isIssue_readBsort : ∃ u, IsIssue c t f u (readBsort [] c t f) :=
  ⟨_, _, _, _, _, _, fun _ => rfl⟩

theorem isIssue_readEres : ∃ u, IsIssue c t f u (readEres [] c t f) :=
  ⟨_, _, _, _, _, _, fun _ => rfl⟩

theorem isIssue_readEsort : ∃ u, IsIssue c t f u (readEsort [] c t f) :=
  ⟨_, _, _, _, _, _, fun _ => rfl⟩

theorem isIssue_vshuf : ∃ u, IsIssue c t f u (execVshuf c t f) :=
  ⟨_, _, _, _, _, _, fun _ => rfl⟩

end

/-! ### Commands with a shape of their own -/

section
variable (s : State)

theorem answers_tokenSignal (tok : Word) : Answers (execTokenSignal tok s) := by
  unfold execTokenSignal
  split
  · exact answers_next _
  · exact answers_arrive ..

theorem answers_hello {frame : List Byte} (h : frameOk frame = true) (lam : Fin 256) :
    Answers (execHello lam frame s) := by
  unfold execHello
  rw [frameSized_of_frameOk h]
  dsimp only
  split
  · contradiction
  · split
    · exact answers_next _
    · split
      · exact answers_receive h ..
      · split <;> exact answers_next _

theorem answers_frameForward {frame : List Byte} (h : frameOk frame = true) (lam : Fin 256) :
    Answers (execFrameForward lam frame s) := by
  unfold execFrameForward
  rw [frameSized_of_frameOk h]
  dsimp only
  split
  · contradiction
  · (repeat' split) <;> exact answers_next _

theorem answers_bounceResend {frame : List Byte} (h : frameOk frame = true) (lam : Fin 256) :
    Answers (execBounceResend lam frame s) := by
  unfold execBounceResend
  rw [frameSized_of_frameOk h]
  dsimp only
  split
  · contradiction
  · (repeat' split) <;> exact answers_next _

theorem answers_snapshotAck {via : Via} (h : viaOk via = true) : Answers (execSnapshotAck via s) := by
  unfold execSnapshotAck
  cases via with
  | own => exact answers_next _
  | lambda lam frame => exact answers_receive h ..

theorem answers_snapshotRefusal {via : Via} (h : viaOk via = true) : Answers (execSnapshotRefusal via s) := by
  unfold execSnapshotRefusal
  cases via with
  | own => exact answers_next _
  | lambda lam frame => exact answers_receive h ..

/-- The accesses that Stand held are commands that always answer (19 R614). -/
theorem answers_runHeld (i : HeldReq) : Answers (s.runHeld i) := by
  cases i <;>
    simp only [State.runHeld, execRegisterWrite, execTokenChannelOpen, execPartStart, execLedgerDrainedAck,
      execApertureRead, execApertureWrite, execTaskStart, execTaskHalt, execArbCommit, execFabricBringUp, execUseA,
      unlessStopped] <;>
    (repeat' split) <;> exact answers_next _

theorem answers_foldl_runHeld (g : Out → HeldReq → Out) (hg : ∀ s i, g (.next s) i = s.runHeld i) (l : List HeldReq) :
    Answers (l.foldl g (.next s)) := by
  induction l generalizing s with
  | nil => exact answers_next s
  | cons i l ih =>
    obtain ⟨t, ht⟩ := answers_runHeld s i
    rw [List.foldl_cons, hg, ht]
    exact ih t

theorem answers_standExit : Answers (execStandExit s) := by
  unfold execStandExit
  dsimp only
  split
  · exact answers_foldl_runHeld _ _ (fun _ _ => rfl) _
  · exact answers_next _

end

/-! ### Every instruction of a core -/

/-- The thread and the fields of a command that is an instruction of a core. -/
def offered (i : Instr) : Option (Fin 800 × Fin 16 × Fields) :=
  match i with
  | .nop c t f | .add c t f | .sub c t f | .and_ c t f | .or_ c t f | .xor c t f | .shl c t f | .shr c t f
  | .sra c t f | .mul c t f | .mulhu c t f | .min c t f | .max c t f | .minu c t f | .maxu c t f | .slt c t f
  | .sltu c t f | .seq c t f | .li c t f | .lip c t f | .beq c t f | .bne c t f | .blt c t f | .bge c t f
  | .bltu c t f | .bgeu c t f | .dbnz c t f | .jal c t f | .jr c t f | .end_ c t f | .csrr c t f | .flclr c t f
  | .mand c t f | .mor c t f | .mxor c t f | .mandn c t f | .mnot c t f | .mpop c t f | .mfirst c t f | .mfrom c t f
  | .mto c t f | .ld c t f | .st c t f | .tset c t f | .tget c t f | .sopen c t f | .sclose c t f | .srd c t f
  | .swr c t f | .vld c t f | .vlds c t f | .vst c t f | .vsts c t f | .vldt c t f | .vstt c t f | .sig c t f
  | .cret c t f | .waitc c t f | .barv c t f | .bwait c t f | .fence c t f | .mxm c t f | .mldp c t f | .mdrop c t f
  | .mdrain c t f | .mbcnt c t f | .vmov c t f | .viota c t f | .vand c t f | .vor c t f | .vxor c t f | .vnot c t f
  | .vshl c t f | .vshr c t f | .vsra c t f | .vadd c t f | .vsub c t f | .vmul c t f | .vfma c t f | .vfnma c t f
  | .vdiv c t f | .vsqrt c t f | .vrsqrt c t f | .vexp c t f | .vlog c t f | .vmax c t f | .vmin c t f | .vabs c t f
  | .vneg c t f | .vsign c t f | .vclamp c t f | .vcmpeq c t f | .vcmpne c t f | .vcmplt c t f | .vcmple c t f
  | .vsel c t f | .vnf c t f | .vperm c t f | .vpermb c t f | .vshuf c t f | .vpack c t f | .vunpk c t f
  | .vcvt c t f | .vrsum c t f | .vrssq c t f | .vrmv c t f | .vmvm c t f | .vrmax c t f | .vrmin c t f
  | .vramax c t f | .vtake c t f | .vrel c t f | .sdeg c t f | .snbr c t f | .suni c t f | .salias c t f
  | .stopk c t f | .swalk c t f | .slayr c t f | .gathl c t f | .vgath c t f | .vscat c t f | .bcmd c t f
  | .bsplit c t f | .bsort c t f | .eres c t f | .esort c t f => some (c, t, f)
  | _ => none

/-- Every instruction of a core is the issue of its word by its thread. -/
theorem isIssue_exec {i : Instr} {c : Fin 800} {t : Fin 16} {f : Fields} (h : offered i = some (c, t, f)) :
    ∃ u, IsIssue c t f u (exec i) := by
  cases i with
  | nop | li | lip | dbnz | jal | jr | end_ | csrr | flclr | mnot | mpop | mfirst | mfrom | mto | st | tset | tget
  | sclose | srd | swr | vst | vsts | vstt | sig | waitc | bwait | fence | mxm | mldp | mdrop | mdrain | mbcnt | vsel
  | vpack | vunpk | vcvt | vmvm | vtake | vrel | vscat =>
    cases h
    unfold exec
    exact ⟨_, isIssue_issue ..⟩
  | add | sub | and_ | or_ | xor | shl | shr | sra | mul | mulhu | min | max | minu | maxu | slt | sltu | seq =>
    cases h
    unfold exec
    exact ⟨_, isIssue_alu ..⟩
  | beq | bne | blt | bge | bltu | bgeu =>
    cases h
    unfold exec
    exact ⟨_, isIssue_branch ..⟩
  | mand | mor | mxor | mandn =>
    cases h
    unfold exec
    exact ⟨_, isIssue_maskOp ..⟩
  | cret | barv =>
    cases h
    unfold exec
    exact ⟨_, isIssue_sender ..⟩
  | vand | vor | vxor | vnot | vshl | vshr | vsra | vadd | vsub | vmul | vfma | vfnma | vdiv | vsqrt | vrsqrt | vexp
  | vlog | vmax | vmin | vabs | vneg | vsign | vclamp =>
    cases h
    unfold exec
    exact ⟨_, isIssue_vecOp ..⟩
  | vmov | viota | vperm | vpermb =>
    cases h
    unfold exec
    exact ⟨_, isIssue_vecMove ..⟩
  | vcmpeq | vcmpne | vcmplt | vcmple | vnf =>
    cases h
    unfold exec
    exact ⟨_, isIssue_vecCmp ..⟩
  | vrsum | vrssq | vrmv | vrmax | vrmin | vramax =>
    cases h
    unfold exec
    exact isIssue_reduction ..
  | sdeg | snbr | suni | salias | stopk | swalk | slayr =>
    cases h
    unfold exec
    exact isIssue_sampling ..
  | ld =>
    cases h
    unfold exec
    exact ⟨_, isIssue_readLd ..⟩
  | vld =>
    cases h
    unfold exec
    exact isIssue_readVld ..
  | vlds =>
    cases h
    unfold exec
    exact isIssue_readVlds ..
  | vldt =>
    cases h
    unfold exec
    exact isIssue_readVldt ..
  | sopen =>
    cases h
    unfold exec
    exact ⟨_, isIssue_readSopen ..⟩
  | gathl =>
    cases h
    unfold exec
    exact isIssue_readGathl ..
  | vgath =>
    cases h
    unfold exec
    exact isIssue_readVgath ..
  | bcmd =>
    cases h
    unfold exec
    exact isIssue_readBcmd ..
  | bsplit =>
    cases h
    unfold exec
    exact isIssue_readBsplit ..
  | bsort =>
    cases h
    unfold exec
    exact isIssue_readBsort ..
  | eres =>
    cases h
    unfold exec
    exact isIssue_readEres ..
  | esort =>
    cases h
    unfold exec
    exact isIssue_readEsort ..
  | vshuf =>
    cases h
    unfold exec
    exact isIssue_vshuf ..
  | _ => cases h

/-! ### Every command -/

/-- A command that can occur on the hardware answers a next state. -/
theorem exec_answers (i : Instr) (s : State) (h : i.wellFormed = true) : Answers (exec i s) := by
  cases i with
  | nop | add | sub | and_ | or_ | xor | shl | shr | sra | mul | mulhu | min | max | minu | maxu | slt | sltu | seq
  | li | lip | beq | bne | blt | bge | bltu | bgeu | dbnz | jal | jr | end_ | csrr | flclr | mand | mor | mxor
  | mandn | mnot | mpop | mfirst | mfrom | mto | ld | st | tset | tget | sopen | sclose | srd | swr | vld | vlds
  | vst | vsts | vldt | vstt | sig | cret | waitc | barv | bwait | fence | mxm | mldp | mdrop | mdrain | mbcnt | vmov
  | viota | vand | vor | vxor | vnot | vshl | vshr | vsra | vadd | vsub | vmul | vfma | vfnma | vdiv | vsqrt | vrsqrt
  | vexp | vlog | vmax | vmin | vabs | vneg | vsign | vclamp | vcmpeq | vcmpne | vcmplt | vcmple | vsel | vnf | vperm
  | vpermb | vshuf | vpack | vunpk | vcvt | vrsum | vrssq | vrmv | vmvm | vrmax | vrmin | vramax | vtake | vrel
  | sdeg | snbr | suni | salias | stopk | swalk | slayr | gathl | vgath | vscat | bcmd | bsplit | bsort | eres
  | esort =>
    exact (isIssue_exec rfl).choose_spec.answers h s
  | collectiveLeaf | collectivePartial | lateMarker | gatherFlight | gatherReach =>
    unfold exec
    exact answers_collRow h ..
  | tokenFrame | coachSegment | snapshotData | migrationRecord =>
    unfold exec
    exact answers_receivePart h ..
  | idleFrame | linkstate | linkquery | linkreply =>
    unfold exec
    exact answers_receive h ..
  | vote | groupVote | verdict | applied | groupApplied | commit | rollback | abort | resolve | stateMsg =>
    unfold exec
    exact answers_msgRow h ..
  | partCreate | partFence | partTeardown | partQuery | memWrite | memRead | memFill | apertureSet | degreeBin
  | jobLoad | jobResume | stepRun | serveBatch | ledgerRead | ckptBuffers | ckptRestore | drain | redistribute
  | quote | kemRead | kemRefresh | keyOpen | keyInstall | keyRotate | identRead | svnCommit | otpProgram
  | debugAttach | debugDetach | ideKmPf0 | errRing | dumpRead | selfTest | echo | opPoint | idleCfg | moorEnable
  | powerOff =>
    unfold exec
    exact answers_hostRow ..
  | ptSet | jobStop | tableReplace | hotRefresh =>
    unfold exec
    exact answers_boundaryRow ..
  | tokenCreditReturn | barrierArrive | barrierRelease | controlWrite | controlRead | readReply | faultRecordNotice =>
    unfold exec
    exact answers_arrive ..
  | contributionDoorbell | exchangeDoorbell =>
    unfold exec
    exact answers_doorbell ..
  | gather | pool | scatterAdd | rowUpdate =>
    unfold exec
    exact answers_runCmd ..
  | smbArm | smbFence | smbPowerOff | smbPowerUp =>
    unfold exec
    exact answers_smbWrite ..
  | smbFailsafe | smbFatal | smbTj | smbCause | smbWake | smbState | smbId =>
    unfold exec
    exact answers_smbRead ..
  | tokenSignal => exact answers_tokenSignal ..
  | hello => exact answers_hello s h ..
  | frameForward => exact answers_frameForward s h ..
  | bounceResend => exact answers_bounceResend s h ..
  | snapshotAck => exact answers_snapshotAck s h
  | snapshotRefusal => exact answers_snapshotRefusal s h
  | standExit => exact answers_standExit s
  | streamFetch | chunkLand | mxmStart | bargePost | arrayFault | planeReady | feederCreditReturn | poolGroupIssue
  | commandCompletion | taskStart | taskHalt | tokenChannelOpen | arbCommit | arbiterRound | bankRefresh | rowClose
  | patrolScrub | sweepRewrite | berthReturn | mxmFinish | planeFree =>
    simp only [exec, execStreamFetch, execChunkLand, execMxmStart, execBargePost, execArrayFault, execPlaneReady,
      execFeederCreditReturn, execPoolGroupIssue, execCommandCompletion, execTaskStart, execTaskHalt,
      execTokenChannelOpen, execArbCommit, execArbiterRound, execBankRefresh, execRowClose, execPatrolScrub,
      execSweepRewrite, execBerthReturn, execMxmFinish, execPlaneFree, unlessStopped]
    (repeat' split) <;> exact answers_next _
  | creditIdleSend | spanUpdate | hubSpanUpdate | linkstateSend | retransmit | lambdaRetrain | lambdaDown | lambdaUp
  | unreachable | fabricBringUp | useA | laserSwitch | laserSupply | portShutter | shutterProbe | portOpen
  | laserEnableDrop | frameCrcError =>
    simp only [exec, execCreditIdleSend, execSpanUpdate, execHubSpanUpdate, execLinkstateSend, execRetransmit,
      execLambdaRetrain, execLambdaDown, execLambdaUp, execUnreachable, execFabricBringUp, execUseA, execLaserSwitch,
      execLaserSupply, execPortShutter, execShutterProbe, execPortOpen, execLaserEnableDrop, execFrameCrcError,
      unlessStopped]
    (repeat' split) <;> exact answers_next _
  | stragglerWindowClose | voteSend | appliedSend | holdEnter | phaseStart | serveHeadTimer | riskEval | drainStart
  | partStart | debugFence =>
    simp only [exec, execStragglerWindowClose, execVoteSend, execAppliedSend, execHoldEnter, execPhaseStart,
      execServeHeadTimer, execRiskEval, execDrainStart, execPartStart, execDebugFence, unlessStopped]
    (repeat' split) <;> exact answers_next _
  | commandDoorbell | completionDoorbell | commandFetch | coalTimerExpire | ringEnable | ringDisable
  | functionLevelReset | apertureRead | apertureWrite | bootWindowWrite | bootGo | firmwareReady | workingTreeBuild
  | ledgerDrainedAck | mirrorHeadWrite | mirrorCopy | reportLog | logWindowClose | clearLost | cntFreeze
  | cntUnfreeze | cntClear | fatalLatchClear | registerWrite =>
    simp only [exec, execCommandDoorbell, execCompletionDoorbell, execCommandFetch, execCoalTimerExpire,
      execRingEnable, execRingDisable, execFunctionLevelReset, execApertureRead, execApertureWrite,
      execBootWindowWrite, execBootGo, execFirmwareReady, execWorkingTreeBuild, execLedgerDrainedAck,
      execMirrorHeadWrite, execMirrorCopy, execReportLog, execLogWindowClose, execClearLost, execCntFreeze,
      execCntUnfreeze, execCntClear, execFatalLatchClear, execRegisterWrite]
    (repeat' split) <;> exact answers_next _
  | thermalWarn | thermalTrip | railFault | undervoltageWarning | refclkLoss | hubWatchdog | hubFwFault | secFault
  | linkUe | sramUe | dumpWatchdog | throttleEval | clockChange | islandGate | islandUngate | standEntry | moorEntry
  | moorExit | pcieInbandWake | smbusAddressMatch | wakeTimerExpire | perstN | resetRelease | aonPowerOn
  | brownoutAon | mainLoss | padRelease | aux0Edge | pwrGoodAssert =>
    simp only [exec, execThermalWarn, execThermalTrip, execRailFault, execUndervoltageWarning, execRefclkLoss,
      execHubWatchdog, execHubFwFault, execSecFault, execLinkUe, execSramUe, execDumpWatchdog, execThrottleEval,
      execClockChange, execIslandGate, execIslandUngate, execStandEntry, execMoorEntry, execMoorExit,
      execPcieInbandWake, execSmbusAddressMatch, execWakeTimerExpire, execPerstN, execResetRelease, execAonPowerOn,
      execBrownoutAon, execMainLoss, execPadRelease, execAux0Edge, execPwrGoodAssert]
    (repeat' split) <;> exact answers_next _

end Sys2Proof.Machine
end

section
open Sys2Proof Sys2Proof.Machine

/-- Settles O5: of the shapes of the commands only an issue and a frame can stop the machine, on operands that
`wellFormed` shuts out (assumption 15); a command without its cause answers too (assumption 13). -/
theorem wellFormedNeverStops : Obligations.WellFormedNeverStops := by
  refine ⟨exec_answers, fun s h => ?_⟩
  unfold SafeStep step
  cases hp : s.pending with
  | nil => exact answers_next _
  | cons i rest =>
    rw [hp] at h
    exact exec_answers i s.popped h

end

section
/-! PROOF. The issue of an instruction that runs: what its effect becomes, and what it leaves alone (03 R99, R104, R106, R110). -/

namespace Sys2Proof.Machine

variable {s : State} {c : Fin 800} {t : Fin 16} {f : Fields} {u : Uses} {bad : Bool} {more : List (RFile × Nat)}

/-! ### From the offer of an instruction to its effect -/

theorem Issues.thread (h : Issues s c t f u more) : (isMatrix c && t.val != 0) = false := by
  cases hm : isMatrix c with
  | false => rfl
  | true => rw [h.1 hm]; rfl

/-- An instruction that issues takes its effect, or stops its task with the faults of its word beside its own. -/
theorem issueUe_of_issues (h : Issues s c t f u more) (ue : List FInfo) (cls op : Nat) (bad : Bool) (body : State → Eff) :
    issueUe ue c t cls op f u bad more body s =
      if (wordFaults u f bad (s.threads c) ++ ue).isEmpty then
        .next (s.applyEff c t (s.pc c t) (instrWord cls op f) (body s))
      else .next ((s.countIssue c).raise c t (s.pc c t) (wordFaults u f bad (s.threads c) ++ ue
        ++ if regsNamed u f then (body s).faults (s.pc c t) else []) (instrWord cls op f)) := by
  obtain ⟨-, hdie, hready, hturn, hbusy⟩ := id h
  unfold issueUe
  rw [h.thread, hdie, hready, hturn, hbusy]
  rfl

theorem issue_of_issues (h : Issues s c t f u more) (cls op : Nat) (body : State → Eff)
    (hf : fieldsBad u f = false) (hw : windowBad u f (s.threads c) = false) :
    issue c t cls op f u false more body s = .next (s.applyEff c t (s.pc c t) (instrWord cls op f) (body s)) := by
  have hword : wordFaults u f false (s.threads c) = [] := by simp [wordFaults, hf, hw]
  rw [issue, issueUe_of_issues h, hword]
  rfl

theorem issue_of_runs (h : Runs s c t f u bad) (cls op : Nat) (body : State → Eff) :
    issue c t cls op f u bad [] body s = .next (s.applyEff c t (s.pc c t) (instrWord cls op f) (body s)) := by
  obtain ⟨hi, hf, rfl, hw, -⟩ := h
  exact issue_of_issues hi cls op body hf hw

theorem Runs.pc_le (h : Runs s c t f u bad) : s.pc c t + 1 ≤ 8191 := h.2.2.2.2

/-! ### From the effect to the state -/

theorem pcOut_eq_false_iff (pc : Int) : pcOut pc = false ↔ 0 ≤ pc ∧ pc ≤ 8191 := by
  simp [pcOut]

theorem State.next_toNat (s : State) (c t : Nat) : (s.next c t).toNat = s.pc c t + 1 := by
  simp only [State.next, Int.ofNat_eq_natCast]
  omega

theorem applyEff_next (hpc : s.pc c t + 1 ≤ 8191) (w : Word) (s' : State) :
    s.applyEff c t (s.pc c t) w (.go s' (s.next c t)) = passed s s' c t := by
  have hin : pcOut (s.next c t) = false := by
    rw [pcOut_eq_false_iff]
    simp only [State.next, Int.ofNat_eq_natCast]
    omega
  simp only [State.applyEff, hin, State.next_toNat]
  rfl

theorem applyEff_wait (hpc : s.pc c t + 1 ≤ 8191) (w : Word) (s' : State) (wt : Wait) :
    s.applyEff c t (s.pc c t) w (.wait s' wt) = ((s'.countIssue c).setStat c t (.waiting wt)).tookTurn c t (s.pc c t) := by
  have hin : ¬ 8191 < s.pc c t + 1 := by omega
  simp only [State.applyEff, hin]
  rfl

theorem applyEff_fault (hpc : s.pc c t + 1 ≤ 8191) (w : Word) (fs : List FInfo) :
    s.applyEff c t (s.pc c t) w (.fault fs) = (s.countIssue c).raise c t (s.pc c t) fs w := by
  have hin : ¬ 8191 < s.pc c t + 1 := by omega
  simp only [State.applyEff, pcFaults, hin, if_false, List.append_nil]

/-- An instruction that runs, completes and goes on to the next word. -/
theorem issue_thenNext_of_runs (h : Runs s c t f u bad) (cls op : Nat) (g : State → State) :
    issue c t cls op f u bad [] (thenNext c t g) s = .next (passed s (g s) c t) := by
  rw [issue_of_runs h, thenNext, applyEff_next h.pc_le]

/-! ### The shapes of class 0 -/

theorem alu_of_runs (h : Runs s c t f (usesAlu f) false) (op : Nat) (g : Word → Word → Word) :
    alu op g c t f s =
      .next (passed s (s.setS c t f.dst.toNat (g (s.sreg c t f.srca.toNat) (immOrB s c t f))) c t) :=
  issue_thenNext_of_runs h 0 op _

theorem maskOp_of_runs (h : Runs s c t f { dst := some .m, a := some .m, b := some .m } false) (op : Nat)
    (g : MWord → MWord → MWord) : maskOp op g c t f s =
      .next (passed s (s.setM c t f.dst.toNat (g (s.mreg c t f.srca.toNat) (s.mreg c t f.srcb.toNat))) c t) :=
  issue_thenNext_of_runs h 0 op _

/-! ### Results of the two-source instructions (03 R108) -/

theorem toNat_and_63 (b : Word) : (b &&& 63).toNat = b.toNat % 64 := by
  rw [BitVec.toNat_and]
  exact Nat.and_two_pow_sub_one_eq_mod b.toNat 6

/-- A signed minimum picks the same operand whichever way a tie goes. -/
theorem min_of_slt (a b : Word) : (if a.slt b then a else b) = if a.toInt ≤ b.toInt then a else b := by
  simp only [BitVec.slt_iff_toInt_lt]
  split <;> split
  · rfl
  · omega
  · exact BitVec.eq_of_toInt_eq (by omega)
  · rfl

theorem max_of_slt (a b : Word) : (if a.slt b then b else a) = if b.toInt ≤ a.toInt then a else b := by
  simp only [BitVec.slt_iff_toInt_lt]
  split <;> split
  · omega
  · rfl
  · rfl
  · omega

theorem min_of_ult (a b : Word) : (if a.ult b then a else b) = if a.toNat ≤ b.toNat then a else b := by
  simp only [BitVec.ult_iff_toNat_lt]
  split <;> split
  · rfl
  · omega
  · exact BitVec.eq_of_toNat_eq (by omega)
  · rfl

theorem max_of_ult (a b : Word) : (if a.ult b then b else a) = if b.toNat ≤ a.toNat then a else b := by
  simp only [BitVec.ult_iff_toNat_lt]
  split <;> split
  · omega
  · rfl
  · rfl
  · omega

theorem alu_congr {g g' : Word → Word → Word} (h : ∀ a b, g a b = g' a b) (op : Nat) (c : Fin 800) (t : Fin 16)
    (f : Fields) (s : State) : alu op g c t f s = alu op g' c t f s := by
  rw [show g = g' from funext fun a => funext (h a)]

/-- The rows of the table are the ALU operations of class 0, in the order of their opcodes from 1. -/
theorem exec_aluTable : ∀ e ∈ aluTable.zipIdx 1, ∀ (c : Fin 800) (t : Fin 16) (f : Fields) (s : State),
    exec (e.1.1 c t f) s = alu e.2 e.1.2 c t f s := by
  simp only [aluTable, List.zipIdx_cons, List.zipIdx_nil, List.forall_mem_cons]
  refine ⟨?add, ?sub, ?and, ?or, ?xor, ?shl, ?shr, ?sra, ?mul, ?mulhu, ?min, ?max, ?minu, ?maxu, ?slt, ?sltu, ?seq, nofun⟩
  case add | sub | and | or | xor | mul | mulhu | seq => exact fun c t f s => rfl
  case shl => exact fun c t f s => Eq.trans (b := execShl c t f s) rfl (alu_congr (fun a b => by rw [toNat_and_63]) 0x06 ..)
  case shr => exact fun c t f s => Eq.trans (b := execShr c t f s) rfl (alu_congr (fun a b => by rw [toNat_and_63]) 0x07 ..)
  case sra => exact fun c t f s => Eq.trans (b := execSra c t f s) rfl (alu_congr (fun a b => by rw [toNat_and_63]) 0x08 ..)
  case min => exact fun c t f s => Eq.trans (b := execMin c t f s) rfl (alu_congr min_of_slt 0x0B ..)
  case max => exact fun c t f s => Eq.trans (b := execMax c t f s) rfl (alu_congr max_of_slt 0x0C ..)
  case minu => exact fun c t f s => Eq.trans (b := execMinu c t f s) rfl (alu_congr min_of_ult 0x0D ..)
  case maxu => exact fun c t f s => Eq.trans (b := execMaxu c t f s) rfl (alu_congr max_of_ult 0x0E ..)
  case slt => exact fun c t f s => Eq.trans (b := execSlt c t f s) rfl (alu_congr (fun a b => by simp only [BitVec.slt_iff_toInt_lt]) 0x0F ..)
  case sltu => exact fun c t f s => Eq.trans (b := execSltu c t f s) rfl (alu_congr (fun a b => by simp only [BitVec.ult_iff_toNat_lt]) 0x10 ..)

end Sys2Proof.Machine
end

section
open Sys2Proof Sys2Proof.Machine

/-- Settles O7: every row of the table runs as an ALU operation. -/
theorem scalarAlu : Obligations.ScalarAlu := by
  intro e he c t f s h
  rw [← List.zipIdx_map_fst 1 aluTable] at he
  obtain ⟨row, hrow, rfl⟩ := List.mem_map.1 he
  rw [exec_aluTable row hrow]
  exact alu_of_runs h row.2 _

end

section
/-! PROOF. The moves of class 0 and the instructions on masks (03 R108, R109). -/

namespace Sys2Proof.Machine

/-- 64 bits of a mask from bit 64 k, as a number and as a shift. -/
theorem ofNat_bits_eq_shift (a : MWord) (n : Nat) : BitVec.ofNat 64 (bits a.toNat n 64) = (a >>> n).setWidth 64 := by
  apply BitVec.eq_of_toNat_eq
  rw [bits_eq_div]
  simp [Nat.shiftRight_eq_div_pow]

theorem scalarMoves : scalarMovesLaw := by
  refine fun c t f s => ⟨fun h => ?nop, fun h => ?li, fun h => ?lip, fun h => ?csrr, fun h => ?flclr⟩
  case nop => exact issue_thenNext_of_runs h 0 0x00 id
  case li => exact issue_thenNext_of_runs h 0 0x12 _
  case lip =>
    refine (issue_thenNext_of_runs h 0 0x13 _).trans ?_
    rw [bits_eq_div, Nat.pow_one]
    rfl
  case csrr => exact issue_thenNext_of_runs h 0 0x2A _
  case flclr => exact issue_thenNext_of_runs h 0 0x2B _

theorem maskInstructions : maskInstructionsLaw := by
  refine fun c t f s => ⟨fun h => ⟨?mand, ?mor, ?mxor, ?mandn⟩, fun h => ?mnot, fun h => ⟨?mpop, ?mfirst⟩, fun h => ?mfrom,
    fun h => ?mto⟩
  case mand => exact maskOp_of_runs h 0x30 (fun a b => a &&& b)
  case mor => exact maskOp_of_runs h 0x31 (fun a b => a ||| b)
  case mxor => exact maskOp_of_runs h 0x32 (fun a b => a ^^^ b)
  case mandn => exact maskOp_of_runs h 0x33 (fun a b => a &&& ~~~b)
  case mnot => exact issue_thenNext_of_runs h 0 0x34 _
  case mpop => exact issue_thenNext_of_runs h 0 0x35 _
  case mfirst => exact issue_thenNext_of_runs h 0 0x36 _
  case mfrom => exact issue_thenNext_of_runs h 0 0x37 _
  case mto =>
    refine (issue_thenNext_of_runs h 0 0x38 _).trans ?_
    rw [ofNat_bits_eq_shift]

end Sys2Proof.Machine
end

section
open Sys2Proof Sys2Proof.Machine

/-- Settles O8: each of these instructions completes and goes on with the one register written. -/
theorem scalarAndMaskResults : Obligations.ScalarAndMaskResults :=
  ⟨scalarMoves, maskInstructions⟩

end

section
/-! PROOF. Branches and jumps (03 R108, R110). -/

namespace Sys2Proof.Machine

variable {s : State} {c : Fin 800} {t : Fin 16} {f : Fields} {u : Uses}

theorem applyEff_go_eq_jumped (op : Nat) (s' : State) (pc : Int) :
    s.applyEff c t (s.pc c t) (instrWord 0 op f) (.go s' pc) = jumped s s' c t op f pc := by
  simp only [State.applyEff, jumped]
  by_cases h : 0 ≤ pc ∧ pc ≤ 8191
  · simp only [if_pos h, (pcOut_eq_false_iff pc).2 h, Bool.false_eq_true, if_false]
  · have hout : pcOut pc = true := by rwa [← Bool.not_eq_false, pcOut_eq_false_iff]
    simp only [if_neg h, hout, if_true, raised]

theorem toInt_sext (f : Fields) : (sext f).toInt = f.imm.toInt := BitVec.toInt_signExtend_of_le (by decide)

theorem branchTo_taken (c t : Nat) (f : Fields) (s : State) : branchTo c t f s true = (s.pc c t : Int) + f.imm.toInt := by
  rw [← toInt_sext]
  rfl

theorem branchTo_not_taken (c t : Nat) (f : Fields) (s : State) : branchTo c t f s false = (s.pc c t : Int) + 1 := rfl

theorem branchTo_eq (s : State) (c : Fin 800) (t : Fin 16) (f : Fields) (taken : Bool) :
    branchTo c t f s taken = if taken then target s c t f else (s.pc c t : Int) + 1 := by
  cases taken with
  | false => exact branchTo_not_taken c t f s
  | true => exact branchTo_taken c t f s

/-- No branch names a vector register, so none lies beyond the window. -/
theorem windowBad_of_no_vector {u : Uses} (hd : u.dst ≠ some .v) (ha : u.a ≠ some .v) (hb : u.b ≠ some .v) (hc : u.c ≠ some .v)
    (hsv : u.sv = none) (f : Fields) (threads : Nat) : windowBad u f threads = false := by
  simp [windowBad, hd, ha, hb, hc, hsv]

theorem issue_go_of_jumps (h : Jumps s c t f u) (hw : windowBad u f (s.threads c) = false) (op : Nat) (g : State → State)
    (pc : State → Int) :
    issue c t 0 op f u false [] (fun s => .go (g s) (pc s)) s = .next (jumped s (g s) c t op f (pc s)) := by
  rw [issue_of_issues h.1 0 op _ h.2 hw, applyEff_go_eq_jumped]

theorem branch_of_jumps (h : Jumps s c t f { a := some .s, b := some .s, imm := 65535 }) (op : Nat)
    (g : Word → Word → Bool) : branch op g c t f s = .next (jumped s s c t op f
      (if g (s.sreg c t f.srca.toNat) (s.sreg c t f.srcb.toNat) then target s c t f else s.pc c t + 1)) := by
  rw [← branchTo_eq]
  exact issue_go_of_jumps h (windowBad_of_no_vector (by decide) (by decide) (by decide) (by decide) rfl _ _) op id _

theorem branch_congr {g g' : Word → Word → Bool} (h : ∀ a b, g a b = g' a b) (op : Nat) (c : Fin 800) (t : Fin 16)
    (f : Fields) (s : State) : branch op g c t f s = branch op g' c t f s := by
  rw [show g = g' from funext fun a => funext (h a)]

/-- The rows of the table are the branches of class 0, in the order of their opcodes from 0x20. -/
theorem exec_branchTable : ∀ e ∈ branchTable.zipIdx 0x20, ∀ (c : Fin 800) (t : Fin 16) (f : Fields) (s : State),
    exec (e.1.1 c t f) s = branch e.2 e.1.2 c t f s := by
  have hslt (a b : Word) : a.slt b = decide (a.toInt < b.toInt) := rfl
  have hult (a b : Word) : a.ult b = decide (a.toNat < b.toNat) := rfl
  simp only [branchTable, List.zipIdx_cons, List.zipIdx_nil, List.forall_mem_cons]
  refine ⟨?beq, ?bne, ?blt, ?bge, ?bltu, ?bgeu, nofun⟩
  case beq | bne => exact fun c t f s => rfl
  case blt => exact fun c t f s => Eq.trans (b := execBlt c t f s) rfl (branch_congr hslt ..)
  case bge => exact fun c t f s => Eq.trans (b := execBge c t f s) rfl (branch_congr (g' := fun a b => decide (b.toInt ≤ a.toInt))
    (fun a b => by rw [hslt, ← decide_not, decide_eq_decide, Int.not_lt]) ..)
  case bltu => exact fun c t f s => Eq.trans (b := execBltu c t f s) rfl (branch_congr hult ..)
  case bgeu => exact fun c t f s => Eq.trans (b := execBgeu c t f s) rfl (branch_congr (g' := fun a b => decide (b.toNat ≤ a.toNat))
    (fun a b => by rw [hult, ← decide_not, decide_eq_decide, Nat.not_lt]) ..)

theorem dbnz_of_jumps (h : Jumps s c t f { dst := some .s, a := some .s, imm := 65535 }) :
    let s' := s.setS c t f.dst.toNat (s.sreg c t f.srca.toNat - 1)
    exec (.dbnz c t f) s = .next (jumped s s' c t 0x26 f
      (if s'.sreg c t f.dst.toNat = 0 then (s.pc c t : Int) + 1 else target s c t f)) := by
  intro s'
  have hto : branchTo c t f s (s'.sreg c t f.dst.toNat != 0) =
      if s'.sreg c t f.dst.toNat = 0 then (s.pc c t : Int) + 1 else target s c t f := by
    rw [branchTo_eq]
    by_cases h0 : s'.sreg c t f.dst.toNat = 0 <;> simp [h0]
  rw [← hto]
  exact Eq.trans (b := execDbnz c t f s) rfl (issue_go_of_jumps h
    (windowBad_of_no_vector (by decide) (by decide) (by decide) (by decide) rfl _ _) 0x26
    (fun s => s.setS c t f.dst.toNat (s.sreg c t f.srca.toNat - 1))
    (fun s => branchTo c t f s ((s.setS c t f.dst.toNat (s.sreg c t f.srca.toNat - 1)).sreg c t f.dst.toNat != 0)))

theorem jal_of_jumps (h : Jumps s c t f { dst := some .s, imm := 65535 }) : exec (.jal c t f) s =
    .next (jumped s (s.setS c t f.dst.toNat (BitVec.ofNat 64 (s.pc c t + 1))) c t 0x27 f (target s c t f)) := by
  rw [← show branchTo c t f s true = target s c t f from branchTo_taken c t f s]
  exact Eq.trans (b := execJal c t f s) rfl (issue_go_of_jumps h
    (windowBad_of_no_vector (by decide) (by decide) (by decide) (by decide) rfl _ _) 0x27
    (fun s => s.setS c t f.dst.toNat (BitVec.ofNat 64 (s.pc c t + 1))) (fun s => branchTo c t f s true))

theorem jr_of_jumps (h : Jumps s c t f { dst := some .s, a := some .s }) : exec (.jr c t f) s =
    .next (jumped s (s.setS c t f.dst.toNat (BitVec.ofNat 64 (s.pc c t + 1))) c t 0x28 f
      ((s.sreg c t f.srca.toNat).toNat % 2 ^ 13)) := by
  rw [← show Int.ofNat (bits (s.sreg c t f.srca.toNat).toNat 0 13) = ((s.sreg c t f.srca.toNat).toNat : Int) % 2 ^ 13
    from by simp [bits]]
  exact Eq.trans (b := execJr c t f s) rfl (issue_go_of_jumps h
    (windowBad_of_no_vector (by decide) (by decide) (by decide) (by decide) rfl _ _) 0x28
    (fun s => s.setS c t f.dst.toNat (BitVec.ofNat 64 (s.pc c t + 1)))
    (fun s => Int.ofNat (bits (s.sreg c t f.srca.toNat).toNat 0 13)))

end Sys2Proof.Machine
end

section
open Sys2Proof Sys2Proof.Machine

/-- Settles O9: a branch goes where its test says; a word outside the program is a PC_RANGE fault. -/
theorem branches : Obligations.Branches := by
  refine fun c t f s => ⟨fun e he h => ?_, dbnz_of_jumps, jal_of_jumps, jr_of_jumps⟩
  rw [exec_branchTable e he]
  exact branch_of_jumps h e.2 e.1.2

end

section
/-! PROOF. What the steps of an issue leave of the registers, program counters and states of threads, and the frame of the
class 0 instructions (03 R108). -/

namespace Sys2Proof.Machine

/-! ### Reads after the turn, the count, the program counter and the state of a thread -/

section Reads
variable (s : State) (k c t r p p' : Nat)

@[simp] theorem State.pc_tookTurn : (s.tookTurn k p p').pc c t = s.pc c t := rfl
@[simp] theorem State.stat_tookTurn : (s.tookTurn k p p').stat c t = s.stat c t := rfl
@[simp] theorem State.flags_tookTurn : (s.tookTurn k p p').flags c t = s.flags c t := rfl
@[simp] theorem State.sreg_tookTurn : (s.tookTurn k p p').sreg c t r = s.sreg c t r := rfl
@[simp] theorem State.mreg_tookTurn : (s.tookTurn k p p').mreg c t r = s.mreg c t r := rfl
@[simp] theorem State.vreg_tookTurn : (s.tookTurn k p p').vreg c t r = s.vreg c t r := rfl
@[simp] theorem State.handle_tookTurn : (s.tookTurn k p p').handle c r = s.handle c r := rfl
@[simp] theorem State.stream_tookTurn : (s.tookTurn k p p').stream c r = s.stream c r := rfl
@[simp] theorem State.fld_tookTurn (g : Fld) : (s.tookTurn k p p').fld g = s.fld g := rfl

@[simp] theorem State.pc_countIssue : (s.countIssue k).pc c t = s.pc c t := by simp [State.pc]
@[simp] theorem State.stat_countIssue : (s.countIssue k).stat c t = s.stat c t := by simp [State.stat]
@[simp] theorem State.flags_countIssue : (s.countIssue k).flags c t = s.flags c t := by simp [State.flags]
@[simp] theorem State.sreg_countIssue : (s.countIssue k).sreg c t r = s.sreg c t r := by simp [State.sreg]
@[simp] theorem State.mreg_countIssue : (s.countIssue k).mreg c t r = s.mreg c t r := by simp [State.mreg]
@[simp] theorem State.threads_countIssue : (s.countIssue k).threads c = s.threads c := by
  simp [State.threads, State.taskF]
@[simp] theorem State.vreg_countIssue : (s.countIssue k).vreg c t r = s.vreg c t r := by
  simp [State.vreg, State.vphys]
@[simp] theorem State.handle_countIssue : (s.countIssue k).handle c r = s.handle c r := by simp [State.handle]
@[simp] theorem State.stream_countIssue : (s.countIssue k).stream c r = s.stream c r := by simp [State.stream]
theorem State.fld_countIssue {g : Fld} (h : g.key ≠ (TC_ISSUED_COUNT (clusterOf k) (subOf k)).key) :
    (s.countIssue k).fld g = s.fld g := by
  unfold State.countIssue State.count
  split
  · rfl
  · split
    · rfl
    · exact State.fld_setFld_ne _ _ h.symm

@[simp] theorem State.stat_setPc : (s.setPc c t p).stat k r = s.stat k r := rfl
@[simp] theorem State.flags_setPc : (s.setPc c t p).flags k r = s.flags k r := rfl
@[simp] theorem State.sreg_setPc : (s.setPc c t p).sreg k p' r = s.sreg k p' r := rfl
@[simp] theorem State.mreg_setPc : (s.setPc c t p).mreg k p' r = s.mreg k p' r := rfl
@[simp] theorem State.vreg_setPc : (s.setPc c t p).vreg k p' r = s.vreg k p' r := rfl
@[simp] theorem State.handle_setPc : (s.setPc c t p).handle k r = s.handle k r := rfl
@[simp] theorem State.stream_setPc : (s.setPc c t p).stream k r = s.stream k r := rfl
@[simp] theorem State.fld_setPc (g : Fld) : (s.setPc c t p).fld g = s.fld g := rfl

@[simp] theorem State.pc_setStat (v : TStat) : (s.setStat c t v).pc k r = s.pc k r := rfl
@[simp] theorem State.flags_setStat (v : TStat) : (s.setStat c t v).flags k r = s.flags k r := rfl
@[simp] theorem State.sreg_setStat (v : TStat) : (s.setStat c t v).sreg k p r = s.sreg k p r := rfl
@[simp] theorem State.mreg_setStat (v : TStat) : (s.setStat c t v).mreg k p r = s.mreg k p r := rfl
@[simp] theorem State.vreg_setStat (v : TStat) : (s.setStat c t v).vreg k p r = s.vreg k p r := rfl
@[simp] theorem State.handle_setStat (v : TStat) : (s.setStat c t v).handle k r = s.handle k r := rfl
@[simp] theorem State.stream_setStat (v : TStat) : (s.setStat c t v).stream k r = s.stream k r := rfl
@[simp] theorem State.fld_setStat (v : TStat) (g : Fld) : (s.setStat c t v).fld g = s.fld g := rfl

end Reads

theorem threadKey_inj {c c' : Nat} {t t' : Fin 16} (h : threadKey c t = threadKey c' t') : c = c' ∧ t = t' := by
  simp only [threadKey] at h
  omega

theorem State.pc_setPc_ne (s : State) {c c' : Fin 800} {t t' : Fin 16} (p : Nat) (h : ¬ (c' = c ∧ t' = t)) :
    (s.setPc c t p).pc c' t' = s.pc c' t' :=
  Tab.get_put_ne _ _ _ _ _ _ fun e => h ⟨Fin.ext (threadKey_inj e).1, (threadKey_inj e).2⟩

theorem State.stat_setStat_ne (s : State) {c c' : Fin 800} {t t' : Fin 16} (v : TStat) (h : ¬ (c' = c ∧ t' = t)) :
    (s.setStat c t v).stat c' t' = s.stat c' t' :=
  Tab.get_put_ne _ _ _ _ _ _ fun e => h ⟨Fin.ext (threadKey_inj e).1, (threadKey_inj e).2⟩

theorem State.sreg_setS_of_ne (s : State) {c c' : Fin 800} {t t' : Fin 16} {r : Nat} {r' : Fin 32} (v : Word) (hr : r < 32)
    (h : ¬ (c' = c ∧ t' = t ∧ some r = some r'.val)) : (s.setS c t r v).sreg c' t' r' = s.sreg c' t' r' := by
  unfold State.setS State.sreg
  split
  · rfl
  · split
    · rfl
    · refine Tab.get_put_ne _ _ _ _ _ _ fun e => ?_
      obtain ⟨hk, hrr⟩ := regKey_inj r'.isLt hr e
      exact h ⟨Fin.ext (threadKey_inj hk).1, (threadKey_inj hk).2, congrArg some hrr.symm⟩

theorem State.mreg_setM_of_ne (s : State) {c c' : Fin 800} {t t' : Fin 16} {r : Nat} {r' : Fin 16} (v : MWord) (hr : r < 16)
    (h : ¬ (c' = c ∧ t' = t ∧ some r = some r'.val)) : (s.setM c t r v).mreg c' t' r' = s.mreg c' t' r' := by
  unfold State.setM State.mreg
  split
  · rfl
  · refine Tab.get_put_ne _ _ _ _ _ _ fun e => ?_
    obtain ⟨hk, hrr⟩ := regKey_inj r'.isLt hr e
    exact h ⟨Fin.ext (threadKey_inj hk).1, (threadKey_inj hk).2, congrArg some hrr.symm⟩

theorem regOk_of_fieldsBad {u : Uses} {f : Fields} (h : fieldsBad u f = false) : regOk u.dst f.dst.toNat = true
    ∧ regOk u.a f.srca.toNat = true ∧ regOk u.b f.srcb.toNat = true ∧ regOk u.c f.srcc.toNat = true := by
  simp only [fieldsBad, Bool.or_eq_false_iff, Bool.not_eq_false'] at h
  tauto

theorem Runs.sdst_lt {s : State} {c : Fin 800} {t : Fin 16} {f : Fields} {u : Uses} {bad : Bool} (h : Runs s c t f u bad)
    (hu : u.dst = some .s) : f.dst.toNat < 32 := by
  have := (regOk_of_fieldsBad h.2.1).1
  rw [hu] at this
  exact of_decide_eq_true this

theorem Runs.mdst_lt {s : State} {c : Fin 800} {t : Fin 16} {f : Fields} {u : Uses} {bad : Bool} (h : Runs s c t f u bad)
    (hu : u.dst = some .m) : f.dst.toNat < 16 := by
  have := (regOk_of_fieldsBad h.2.1).1
  rw [hu] at this
  exact of_decide_eq_true this

/-! ### The frame of an instruction of class 0 -/

/-- All but the registers named is as it was, except the program counter of the thread and the count of issued instructions. -/
def FrameKept (s : State) (c : Fin 800) (t : Fin 16) (sd md : Option Nat) (u : State) : Prop :=
  regsKept s u c t sd md none ∧ coreKept s u c t ∧ u.flags c t = s.flags c t ∧ u.stat c t = s.stat c t ∧ u.m = s.m

variable {s s' : State} {c : Fin 800} {t : Fin 16} {sd md : Option Nat}

theorem FrameKept.refl (s : State) (c : Fin 800) (t : Fin 16) (sd md : Option Nat) : FrameKept s c t sd md s := by
  simp [FrameKept, regsKept, coreKept]

/-- The thread moved on with its instruction counted and its turn noted: the frame stays. -/
theorem FrameKept.moved (h : FrameKept s c t sd md s') (p p' : Nat) :
    FrameKept s c t sd md (((s'.countIssue c).setPc c t p).tookTurn c t p') := by
  obtain ⟨⟨hs, hm, hv⟩, ⟨ho, hh, hq, hf, hr⟩, hfl, hst, hmem⟩ := h
  exact ⟨⟨by simpa using hs, by simpa using hm, by simpa using hv⟩,
    ⟨fun c' t' h => by simpa [State.pc_setPc_ne _ _ h] using ho c' t' h, by simpa using hh, by simpa using hq,
      fun g hg => by simpa [State.fld_countIssue _ _ hg] using hf g hg, by simpa using hr⟩,
    by simpa using hfl, by simpa using hst, by simpa using hmem⟩

theorem FrameKept.setS (s : State) (c : Fin 800) (t : Fin 16) {r : Nat} (v : Word) (hr : r < 32) :
    FrameKept s c t (some r) none (s.setS c t r v) := by
  refine ⟨⟨fun _ _ _ => State.sreg_setS_of_ne s v hr, ?_⟩, ?_⟩ <;> unfold State.setS <;> split
  all_goals simp [coreKept, State.mreg, State.vreg, State.vphys, State.threads, State.taskF, State.pc, State.stat, State.flags,
    State.handle, State.stream, State.fld]

theorem FrameKept.setM (s : State) (c : Fin 800) (t : Fin 16) {r : Nat} (v : MWord) (hr : r < 16) :
    FrameKept s c t none (some r) (s.setM c t r v) :=
  ⟨⟨fun _ _ _ _ => rfl, fun _ _ _ => State.mreg_setM_of_ne s v hr, fun _ _ _ _ _ _ => rfl⟩, (FrameKept.refl s c t none none).2⟩

theorem gives_passed {o : Out} (h : FrameKept s c t sd md s') (ho : o = .next (passed s s' c t)) :
    Gives o (FrameKept s c t sd md) :=
  ⟨_, ho, h.moved _ _⟩

theorem gives_jumped (h : FrameKept s c t sd md s') {o : Out} {op : Nat} {f : Fields} {pc : Int}
    (ho : o = .next (jumped s s' c t op f pc)) (hpc : 0 ≤ pc ∧ pc ≤ 8191) : Gives o (FrameKept s c t sd md) :=
  ⟨_, ho, by rw [jumped, if_pos hpc]; exact h.moved _ _⟩

/-- Whether taken or not, a branch whose target is in the program stays in it when the next word exists. -/
theorem goes_in_program {f : Fields} (p : Prop) [Decidable p] (hnext : s.pc c t + 1 ≤ 8191)
    (hlo : 0 ≤ target s c t f) (hhi : target s c t f ≤ 8191) :
    0 ≤ (if p then target s c t f else (s.pc c t : Int) + 1) ∧ (if p then target s c t f else (s.pc c t : Int) + 1) ≤ 8191 := by
  split <;> omega

theorem Runs.jumps {f : Fields} {u : Uses} {bad : Bool} (h : Runs s c t f u bad) : Jumps s c t f u := ⟨h.1, h.2.1⟩

/-! ### END of one thread of several (03 R121) -/

theorem State.stat_setStat_of_ne (s : State) (k : Nat) {t t' : Nat} (v : TStat) (h : t' ≠ t) :
    (s.setStat k t v).stat k t' = s.stat k t' :=
  Tab.get_put_ne _ _ _ _ _ _ fun e => h (Nat.add_left_cancel e)

/-- While another thread has not ended, the end of one ends no task. -/
theorem tryEnd_of_other (h : ∃ t', t' < s.threads c ∧ t' ≠ t.val ∧ s.stat c t' ≠ .ended) :
    (s.setStat c t .ended).tryEnd c = s.setStat c t .ended := by
  obtain ⟨t', hlt, hne, hst⟩ := h
  have hall : (s.setStat c t .ended).allEnded c = false := by
    rw [State.allEnded, Bool.and_eq_false_iff]
    right
    rw [List.all_eq_false]
    refine ⟨t', List.mem_range.2 hlt, ?_⟩
    rwa [State.stat_setStat_of_ne s c .ended hne, beq_iff_eq]
  rw [State.tryEnd, hall]
  rfl

theorem end_of_issues {f : Fields} (h : Issues s c t f {} []) (hf : fieldsBad {} f = false)
    (hopen : s.mx.tiles.any (fun x => x.mc == c.val && x.st == .opened) = false) :
    exec (.end_ c t f) s = .next ((((s.setStat c t .ended).tryEnd c).countIssue c).tookTurn c t (s.pc c t)) := by
  refine (Eq.trans (b := execEnd c t f s) rfl (issue_of_issues h 0 0x29 _ hf
    (windowBad_of_no_vector (by decide) (by decide) (by decide) (by decide) rfl _ _))).trans ?_
  simp only [hopen, Bool.false_eq_true, if_false]
  rfl

theorem end_of_other {f : Fields} (h : Runs s c t f {} false)
    (hopen : s.mx.tiles.any (fun x => x.mc == c.val && x.st == .opened) = false)
    (hother : ∃ t', t' < s.threads c ∧ t' ≠ t.val ∧ s.stat c t' ≠ .ended) :
    Gives (exec (.end_ c t f) s) (fun u => u.stat c t = .ended ∧ u.pc c t = s.pc c t ∧ u.flags c t = s.flags c t
      ∧ regsKept s u c t none none none ∧ coreKept s u c t ∧ u.m = s.m) := by
  refine ⟨_, end_of_issues h.1 h.2.1 hopen, ?_⟩
  rw [tryEnd_of_other hother]
  have hreg : regsKept s (((s.setStat c t .ended).countIssue c).tookTurn c t (s.pc c t)) c t none none none := by
    simp [regsKept]
  refine ⟨by simp [State.stat_setStat], by simp, by simp, hreg, ⟨fun c' t' hne => ?_, by simp, by simp, fun g hg => ?_, by simp⟩,
    by simp⟩
  · simpa using State.stat_setStat_ne s .ended hne
  · simp [State.fld_countIssue _ _ hg]

theorem tget_of_runs {f : Fields} (h : Runs s c t f { dst := some .s, a := some .t } false) :
    exec (.tget c t f) s = .next (passed s (s.setS c t f.dst.toNat (s.handle c f.srca.toNat)) c t) :=
  issue_thenNext_of_runs h 4 0x03 _

theorem usesAlu_dst (f : Fields) : (usesAlu f).dst = some .s := by
  unfold usesAlu
  split <;> rfl

/-- Each of these instructions writes one value to its scalar destination. -/
theorem scalarWriters_passed {f : Fields} : ∀ e ∈ scalarWriters, Runs s c t f (e.2.1 f) (e.2.2 f) →
    f.dst.toNat < 32 ∧ ∃ v, exec (e.1 c t f) s = .next (passed s (s.setS c t f.dst.toNat v) c t) := by
  obtain ⟨-, li, lip, csrr, -⟩ := scalarMoves c t f s
  obtain ⟨-, -, mpop, -, mto⟩ := maskInstructions c t f s
  simp only [scalarWriters, List.forall_mem_append, List.forall_mem_map, List.forall_mem_cons]
  refine ⟨fun e he h => ⟨h.sdst_lt (usesAlu_dst f), _, scalarAlu e he c t f s h⟩, fun h => ⟨h.sdst_lt rfl, _, li h⟩,
    fun h => ⟨h.sdst_lt rfl, _, lip h⟩, fun h => ⟨h.sdst_lt rfl, _, csrr h⟩, fun h => ⟨h.sdst_lt rfl, _, (mpop h).1⟩,
    fun h => ⟨h.sdst_lt rfl, _, (mpop h).2⟩, fun h => ⟨h.sdst_lt rfl, _, mto h⟩, fun h => ⟨h.sdst_lt rfl, _, tget_of_runs h⟩, nofun⟩

end Sys2Proof.Machine
end

section
open Sys2Proof Sys2Proof.Machine

/-- Settles O10: each of these instructions goes on with one register written, or ends its thread alone. -/
theorem scalarFrame : Obligations.ScalarFrame := by
  refine fun c t f s => ⟨fun e he h => ?writers, fun i hi h => ?masks, fun h => ?mnot, fun h => ?mfrom,
    fun hlo hhi => ⟨fun e he h => ?branch, fun h => ?jal, fun h => ?dbnz⟩, fun h => ?jr, fun h => end_of_other h⟩
  case writers =>
    obtain ⟨hdst, v, hv⟩ := scalarWriters_passed e he h
    exact gives_passed (.setS s c t v hdst) hv
  case masks =>
    obtain ⟨hand, hor, hxor, handn⟩ := (maskInstructions c t f s).1 h
    have hdst := h.mdst_lt rfl
    simp only [List.mem_cons, List.not_mem_nil, or_false] at hi
    obtain rfl | rfl | rfl | rfl := hi
    · exact gives_passed (.setM s c t _ hdst) hand
    · exact gives_passed (.setM s c t _ hdst) hor
    · exact gives_passed (.setM s c t _ hdst) hxor
    · exact gives_passed (.setM s c t _ hdst) handn
  case mnot => exact gives_passed (.setM s c t _ (h.mdst_lt rfl)) ((maskInstructions c t f s).2.1 h)
  case mfrom => exact gives_passed (.setM s c t _ (h.mdst_lt rfl)) ((maskInstructions c t f s).2.2.2.1 h)
  case branch =>
    rw [← List.zipIdx_map_fst 0x20 branchTable] at he
    obtain ⟨row, hrow, rfl⟩ := List.mem_map.1 he
    exact gives_jumped (.refl ..) ((branches c t f s).1 row hrow h.jumps) (goes_in_program _ h.pc_le hlo hhi)
  case jal => exact gives_jumped (.setS s c t _ (h.sdst_lt rfl)) (jal_of_jumps h.jumps) ⟨hlo, hhi⟩
  case dbnz =>
    refine gives_jumped (.setS s c t _ (h.sdst_lt rfl)) (dbnz_of_jumps h.jumps) ?_
    have := h.pc_le
    split <;> omega
  case jr => exact gives_jumped (.setS s c t _ (h.sdst_lt rfl)) (jr_of_jumps h.jumps) (by omega)

end

section
/-! PROOF. The faults of an instruction: which of them is recorded, what the record leaves of the task, and the reserved
encodings of 03 R99 (03 R136 to R139, 08 R284). -/

namespace Sys2Proof.Machine

/-! ### The count of issued instructions touches no table walk -/

/-- A field that is no count of issued instructions. -/
def NoIssueCount (g : Fld) : Prop :=
  ∀ core : Nat, core < 800 → g.key ≠ (TC_ISSUED_COUNT (clusterOf core) (subOf core)).key

theorem noIssueCount_partState (p : Nat) : NoIssueCount (PART_STATUS_STATE p) := by
  intro core hc
  simp only [PART_STATUS_STATE, TC_ISSUED_COUNT, Fld.at_key, clusterOf, subOf]
  omega

theorem noIssueCount_sections (p : Nat) : NoIssueCount (PART_CFG_SECTIONS p) := by
  intro core hc
  simp only [PART_CFG_SECTIONS, TC_ISSUED_COUNT, Fld.at_key, clusterOf, subOf]
  omega

theorem noIssueCount_ptRoot (p : Nat) : NoIssueCount (PART_PT_ROOT_ROOT p) := by
  intro core hc
  simp only [PART_PT_ROOT_ROOT, TC_ISSUED_COUNT, Fld.at_key, clusterOf, subOf]
  omega

theorem noIssueCount_variant : NoIssueCount HUB_ID_VARIANT := by
  intro core hc
  simp only [HUB_ID_VARIANT, TC_ISSUED_COUNT, Fld.at_key, clusterOf, subOf]
  omega

/-- Two states that walk the tables alike: what a walk reads is the same in both. -/
structure WalksAlike (s u : State) : Prop where
  memory : u.m = s.m
  state (p : Nat) : u.partState p = s.partState p
  sections (p : Nat) : u.sections p = s.sections p
  root (p : Nat) : u.fld (PART_PT_ROOT_ROOT p) = s.fld (PART_PT_ROOT_ROOT p)
  variant : u.isB = s.isB

theorem walksAlike_countIssue (s : State) (c : Fin 800) : WalksAlike s (s.countIssue c) where
  memory := by simp
  state p := State.fld_countIssue _ _ (noIssueCount_partState p c c.isLt)
  sections p := State.fld_countIssue _ _ (noIssueCount_sections p c c.isLt)
  root p := State.fld_countIssue _ _ (noIssueCount_ptRoot p c c.isLt)
  variant := by
    rw [State.isB, State.isB, State.on, State.on, State.fld_countIssue _ _ (noIssueCount_variant c c.isLt)]

namespace WalksAlike
variable {s u : State}

theorem secPart (h : WalksAlike s u) (sec : Nat) : u.secPart sec = s.secPart sec := by
  simp only [State.secPart, h.state, h.sections]

theorem stackBytes (h : WalksAlike s u) : u.stackBytes = s.stackBytes := by
  unfold State.stackBytes
  rw [h.variant]

theorem physKey (h : WalksAlike s u) (pa : Nat) : u.physKey pa = s.physKey pa := by
  unfold State.physKey
  rw [h.stackBytes]

theorem inDump (h : WalksAlike s u) (pa n : Nat) : u.inDump pa n = s.inDump pa n := by
  unfold State.inDump State.dumpBase
  rw [h.stackBytes]

theorem physOk (h : WalksAlike s u) (p pa n : Nat) : u.physOk p pa n = s.physOk p pa n := by
  unfold State.physOk
  rw [h.physKey, h.inDump, h.sections]

theorem walkEntry (h : WalksAlike s u) (p level ent : Nat) :
    u.walkEntry p level ent = s.walkEntry p level ent := by
  simp only [State.walkEntry, h.physOk]

theorem lost (h : WalksAlike s u) (ks : List Nat) : u.lost ks = s.lost ks := by
  unfold State.lost State.isStaged State.symbols
  rw [h.memory]

theorem trail (h : WalksAlike s u) (p va n level table : Nat) :
    u.trail p va n level table = s.trail p va n level table := by
  induction n generalizing level table with
  | zero => rfl
  | succ n ih => simp only [State.trail, h.physKey, State.rd, h.memory, h.walkEntry, h.lost, ih]

theorem trailRoot (h : WalksAlike s u) (p va : Nat) : u.trailRoot p va = s.trailRoot p va := by
  simp only [State.trailRoot, h.root, h.physOk, h.trail]

theorem lostTable (h : WalksAlike s u) (cl va : Nat) : u.lostTable cl va = s.lostTable cl va := by
  simp only [State.lostTable, State.clusterPart, h.secPart, h.trailRoot, h.lost]

theorem lostWalk (h : WalksAlike s u) (core : Nat) (fs : List FInfo) : u.lostWalk core fs = s.lostWalk core fs := by
  simp only [State.lostWalk, h.lostTable]

end WalksAlike

/-! ### What a fault leaves of its task (03 R137 to R139) -/

/-- The notice of a fault names the hub. -/
theorem tokBad_notice (core : Nat) : tokBad (mkTok 7 56 0 (clusterOf core) (subOf core) 0 core) = false := by
  rw [tokBad_mkTok]
  decide

theorem State.taskId_countIssue (s : State) (k core : Nat) : (s.countIssue k).taskId core = s.taskId core := by
  simp [State.taskId, State.taskF]

theorem State.raise_of_pick {s : State} {core t pc : Nat} {fs : List FInfo} {w : Word} {f : FInfo}
    (h : s.lostWalk core fs = none) (hf : pickFault fs = some f) :
    s.raise core t pc fs w = s.taskFault core t pc f (fs.length - 1) w := by
  unfold State.raise
  rw [h, hf]

/-! ### An ILLEGAL word among other faults (03 R136) -/

/-- No other fault of the effect goes before the ILLEGAL of its word. -/
def Eff.AfterIllegal (e : Eff) : Prop := ∀ pc, ∀ x ∈ e.faults pc, x.before (whole fcIllegal) = false

theorem pcFaults_after (pc : Nat) : ∀ x ∈ pcFaults pc, x.before (whole fcIllegal) = false := by
  unfold pcFaults
  split
  · simp only [List.mem_singleton, forall_eq]
    rfl
  · nofun

theorem Eff.afterIllegal_go (s : State) (pc : Int) : (Eff.go s pc).AfterIllegal := by
  intro _
  show ∀ x ∈ (if pcOut pc then [whole fcPcRange] else []), x.before (whole fcIllegal) = false
  split
  · simp only [List.mem_singleton, forall_eq]
    rfl
  · nofun

theorem Eff.afterIllegal_stay (s : State) : (Eff.stay s).AfterIllegal := fun _ => nofun

theorem Eff.afterIllegal_stop (s : State) : (Eff.stop s).AfterIllegal := fun _ => nofun

theorem Eff.afterIllegal_wait (s : State) (w : Wait) : (Eff.wait s w).AfterIllegal := pcFaults_after

theorem Eff.afterIllegal_fault {fs : List FInfo} (h : ∀ x ∈ fs, x.before (whole fcIllegal) = false) :
    (Eff.fault fs).AfterIllegal := by
  intro pc x hx
  rcases List.mem_append.1 hx with hx | hx
  · exact h x hx
  · exact pcFaults_after pc x hx

theorem Eff.afterIllegal_refuse {fs : List FInfo} (h : ∀ x ∈ fs, x.before (whole fcIllegal) = false) :
    (Eff.refuse fs).AfterIllegal := fun _ => h

theorem wholeAt_after {code : Nat} (h : code ≠ 0) (a : Nat) : (wholeAt code a).before (whole fcIllegal) = false := by
  simp only [wholeAt, whole, FInfo.before, fcIllegal]
  simp
  omega

/-- A body that runs on with a word's ILLEGAL ahead of all its own faults. -/
theorem foldl_before_eq (b : FInfo) (fs : List FInfo) (h : ∀ x ∈ fs, x.before b = false) :
    fs.foldl (fun b x => if x.before b then x else b) b = b := by
  induction fs with
  | nil => rfl
  | cons x r ih =>
    rw [List.foldl_cons, h x List.mem_cons_self]
    exact ih fun y hy => h y (List.mem_cons_of_mem x hy)

theorem pickFault_illegal {fs : List FInfo} (h : ∀ x ∈ fs, x.before (whole fcIllegal) = false) :
    pickFault (whole fcIllegal :: fs) = some (whole fcIllegal) := by
  have hall : (whole fcIllegal :: fs).all (fun x => x.elem.isSome) = false := rfl
  rw [pickFault, hall]
  exact congrArg some (foldl_before_eq _ _ h)

theorem State.lostWalk_eq_none {s : State} {core : Nat} (h : ∀ va, s.lostTable (clusterOf core) va = none)
    (fs : List FInfo) : s.lostWalk core fs = none := by
  simp [State.lostWalk, h]

/-- The command is the issue of an instruction of which no fault goes before the ILLEGAL of its word. -/
def IssuesMild (c : Fin 800) (t : Fin 16) (f : Fields) (u : Uses) (g : State → Out) : Prop :=
  ∃ cls op bad more body, (∀ s, (body s).AfterIllegal) ∧ ∀ s, g s = issue c t cls op f u bad more body s

section
variable {c : Fin 800} {t : Fin 16} {f : Fields} {u : Uses} {g : State → Out} {s : State}

/-- A word that its fields reserve is ILLEGAL, and the record says so whatever else the instruction finds. -/
theorem IssuesMild.illegal (hg : IssuesMild c t f u g) (hbad : fieldsBad u f = true) (hmx : isMatrix c = true → t = 0)
    (hdie : s.dieUp = true) (hready : s.threadReady c t = true) (hturn : s.turn c t = true)
    (hbusy : ∀ rs, s.regsBusy c t rs = false) (hlost : ∀ va, s.lostTable (clusterOf c) va = none) :
    Illegal s c t (g s) := by
  obtain ⟨cls, op, bad, more, body, hmild, hg⟩ := hg
  have hissues : Issues s c t f u more := ⟨hmx, hdie, hready, hturn, hbusy _⟩
  have hword : wordFaults u f bad (s.threads c) =
      whole fcIllegal :: if windowBad u f (s.threads c) then [whole fcVreg] else [] := by
    simp [wordFaults, hbad]
  rw [hg, issue, issueUe_of_issues hissues, hword]
  refine ⟨_, rfl, ?_⟩
  have hrest : ∀ x ∈ (if windowBad u f (s.threads c) then [whole fcVreg] else []) ++ [] ++
      (if regsNamed u f then (body s).faults (s.pc c t) else []), x.before (whole fcIllegal) = false := by
    intro x hx
    simp only [List.append_nil, List.mem_append] at hx
    rcases hx with hx | hx <;> split at hx
    · rw [List.mem_singleton.1 hx]
      rfl
    · nomatch hx
    · exact hmild s _ x hx
    · nomatch hx
  have hlost' := State.lostWalk_eq_none (s := s.countIssue c) (core := c) fun va => by
    rw [(walksAlike_countIssue s c).lostTable, hlost]
  rw [List.cons_append, List.cons_append, State.raise_of_pick (hlost' _) (pickFault_illegal hrest)]
  obtain ⟨hstate, -, hring⟩ := (s.countIssue c).taskFault_effect c t (s.pc c t) (whole fcIllegal) _ _
  rw [State.taskId_countIssue] at hring
  exact ⟨hstate, _, _, by simpa using hring⟩

theorem issuesMild_issue {cls op : Nat} {bad : Bool} {more : List (RFile × Nat)} {body : State → Eff}
    (h : ∀ s, (body s).AfterIllegal) : IssuesMild c t f u (issue c t cls op f u bad more body) :=
  ⟨_, _, _, _, _, h, fun _ => rfl⟩

/-- An instruction that always completes. -/
theorem issuesMild_next {cls op : Nat} {bad : Bool} {more : List (RFile × Nat)} {h : State → State} :
    IssuesMild c t f u (issue c t cls op f u bad more (thenNext c t h)) :=
  issuesMild_issue fun _ => Eff.afterIllegal_go _ _

end

end Sys2Proof.Machine
end

section
/-! PROOF. s0, m0 and the encodings that 03 R99 reserves. -/

namespace Sys2Proof.Machine

/-! ### No access to memory fails with code 0 -/

theorem State.checkVa_error {s : State} {core va len : Nat} {store : Bool} {e : Nat}
    (h : (s.checkVa core va len store).1 = .error e) : e ≠ 0 := by
  unfold State.checkVa at h
  (repeat' split at h) <;> cases h <;> decide

theorem State.checkAccess_error {s : State} {core space addr len : Nat} {store : Bool} {e : Nat}
    (h : (s.checkAccess core space addr len store).1 = .error e) : e ≠ 0 := by
  unfold State.checkAccess at h
  split at h
  · dsimp only at h
    split at h <;> cases h
    decide
  · split at h
    · dsimp only at h
      split at h <;> cases h
      decide
    · exact State.checkVa_error h

theorem State.spanKeys_error {s : State} {core space addr nb : Nat} {store : Bool} {e a : Nat}
    (h : (s.spanKeys core space addr nb store).1 = .error (e, a)) : e ≠ 0 := by
  unfold State.spanKeys at h
  dsimp only at h
  split at h
  · split at h
    · cases h
      decide
    · split at h
      · cases h
        decide
      · split at h
        · cases h
        · next h1 _ => cases h; exact State.checkVa_error h1
        · next _ h2 => cases h; exact State.checkVa_error h2
        · next h1 h2 =>
          split at h
          · cases h; exact State.checkVa_error h2
          · cases h; exact State.checkVa_error h1
  · split at h
    · next h1 => cases h; exact State.checkAccess_error (by rw [h1])
    · cases h

theorem State.scalarAccess_error {s s' : State} {core t : Nat} {f : Fields} {store : Bool} {e a : Nat}
    (h : s.scalarAccess core t f store = (.error (e, a), s')) : e ≠ 0 := by
  have h1 : (s.scalarAccess core t f store).1 = .error (e, a) := by rw [h]
  unfold State.scalarAccess at h1
  dsimp only at h1
  split at h1
  · cases h1
    decide
  · exact State.spanKeys_error h1

theorem State.startOp_afterIllegal (s : State) (x : Xfer) (write : Bool) (cells : List (Nat × Byte)) :
    (s.startOp x write cells).AfterIllegal := by
  unfold State.startOp
  split
  · exact Eff.afterIllegal_go _ _
  · exact Eff.afterIllegal_stay _

/-! ### The instructions that take no mask, and those that write one -/

/-- The instruction is the issue of a word whose use of its fields has the property, with its ILLEGAL ahead of other faults. -/
def MildOp (p : Uses → Prop) (e : CoreOp) : Prop :=
  ∀ (c : Fin 800) (t : Fin 16) (f : Fields), ∃ u, p u ∧ IssuesMild c t f u (exec (e c t f))

theorem MildOp.of_eq {p : Uses → Prop} {e : CoreOp} {u : Fields → Uses} {g : Fin 800 → Fin 16 → Fields → State → Out}
    (hu : ∀ f, p (u f)) (hg : ∀ c t f, IssuesMild c t f (u f) (g c t f)) (he : ∀ c t f s, exec (e c t f) s = g c t f s) :
    MildOp p e :=
  fun c t f => ⟨u f, hu f, by rw [funext (he c t f)]; exact hg c t f⟩

theorem issuesMild_alu (op : Nat) (g : Word → Word → Word) (c : Fin 800) (t : Fin 16) (f : Fields) :
    IssuesMild c t f (usesAlu f) (alu op g c t f) :=
  issuesMild_issue fun _ => Eff.afterIllegal_go _ _

theorem issuesMild_branch (op : Nat) (g : Word → Word → Bool) (c : Fin 800) (t : Fin 16) (f : Fields) :
    IssuesMild c t f { a := some .s, b := some .s, imm := 65535 } (branch op g c t f) :=
  issuesMild_issue fun _ => Eff.afterIllegal_go _ _

theorem issuesMild_maskOp (op : Nat) (g : MWord → MWord → MWord) (c : Fin 800) (t : Fin 16) (f : Fields) :
    IssuesMild c t f { dst := some .m, a := some .m, b := some .m } (maskOp op g c t f) :=
  issuesMild_issue fun _ => Eff.afterIllegal_go _ _

theorem issuesMild_vecCmp (op n : Nat) (group : Ty → Bool) (g : Ty → Nat → Nat → Bool × Flags) (c : Fin 800) (t : Fin 16)
    (f : Fields) : IssuesMild c t f { usesV n with dst := some .m } (vecCmp op n group g c t f) :=
  issuesMild_issue fun _ => Eff.afterIllegal_go _ _

theorem issuesMild_sender (op kind : Nat) (c : Fin 800) (t : Fin 16) (f : Fields) :
    IssuesMild c t f { a := some .s, b := some .s, imm := 255 } (sender op kind c t f) := by
  refine issuesMild_issue fun s => ?_
  split
  · exact Eff.afterIllegal_fault (by simp only [List.mem_singleton, forall_eq]; rfl)
  · exact Eff.afterIllegal_go _ _

/-- No mask is taken. -/
structure TakesNoMask (u : Uses) : Prop where
  mask : u.mask = false

theorem mild_aluTable : ∀ e ∈ aluTable, MildOp TakesNoMask e.1 := by
  intro e he
  rw [← List.zipIdx_map_fst 1 aluTable] at he
  obtain ⟨row, hrow, rfl⟩ := List.mem_map.1 he
  refine MildOp.of_eq (u := usesAlu) (fun f => ?_) (issuesMild_alu row.2 row.1.2) (exec_aluTable row hrow)
  unfold usesAlu
  split <;> exact ⟨rfl⟩

theorem mild_branchTable : ∀ e ∈ branchTable, MildOp TakesNoMask e.1 := by
  intro e he
  rw [← List.zipIdx_map_fst 0x20 branchTable] at he
  obtain ⟨row, hrow, rfl⟩ := List.mem_map.1 he
  exact MildOp.of_eq (u := fun _ => { a := some .s, b := some .s, imm := 65535 }) (fun f => ⟨rfl⟩) (issuesMild_branch row.2 row.1.2) (exec_branchTable row hrow)

theorem whole_after {code : Nat} (h : code ≠ 0) : ∀ x ∈ [whole code], x.before (whole fcIllegal) = false := by
  simp only [List.mem_singleton, forall_eq]
  exact wholeAt_after h 0

theorem wholeAt_only_after {code : Nat} (h : code ≠ 0) (a : Nat) :
    ∀ x ∈ [wholeAt code a], x.before (whole fcIllegal) = false := by
  simp only [List.mem_singleton, forall_eq]
  exact wholeAt_after h a

theorem Eff.afterIllegal_ite {p : Prop} [Decidable p] {a b : Eff} (ha : a.AfterIllegal) (hb : b.AfterIllegal) :
    (if p then a else b).AfterIllegal := by
  split
  · exact ha
  · exact hb

theorem mild_end : MildOp TakesNoMask .end_ := by
  intro c t f
  unfold exec
  refine ⟨_, ⟨rfl⟩, issuesMild_issue (f := f) fun s => ?_⟩
  split
  · exact Eff.afterIllegal_refuse (whole_after (by decide))
  · exact Eff.afterIllegal_stop _

theorem mild_ld : MildOp TakesNoMask .ld := by
  intro c t f
  refine ⟨usesLd, ⟨rfl⟩, issuesMild_issue fun s => ?_⟩
  split
  · next e a _ h => exact Eff.afterIllegal_fault (wholeAt_only_after (State.scalarAccess_error h) a)
  · split
    · exact Eff.afterIllegal_go _ _
    · exact State.startOp_afterIllegal _ _ _ _

theorem mild_st : MildOp TakesNoMask .st := by
  intro c t f
  unfold exec
  refine ⟨_, ⟨rfl⟩, issuesMild_issue (f := f) fun s => ?_⟩
  split
  · next e a _ h => exact Eff.afterIllegal_fault (wholeAt_only_after (State.scalarAccess_error h) a)
  · split
    · exact Eff.afterIllegal_go _ _
    · exact State.startOp_afterIllegal _ _ _ _

theorem mild_tset : MildOp TakesNoMask .tset := by
  intro c t f
  unfold exec
  refine ⟨_, ⟨rfl⟩, issuesMild_issue (f := f) fun s => ?_⟩
  dsimp only
  split
  · exact Eff.afterIllegal_fault (whole_after (by decide))
  · exact Eff.afterIllegal_go _ _

theorem mild_sopen : MildOp TakesNoMask .sopen := by
  intro c t f
  refine ⟨{ dst := some .q, a := some .s }, ⟨rfl⟩, issuesMild_issue fun s => Eff.afterIllegal_ite ?_ (Eff.afterIllegal_ite ?_ ?_)⟩
  · refine Eff.afterIllegal_fault (List.forall_mem_cons.2 ⟨wholeAt_after (code := fcAddress) (by decide) _, ?_⟩)
    split
    · exact whole_after (by decide)
    · nofun
  · exact Eff.afterIllegal_fault (whole_after (by decide))
  · exact Eff.afterIllegal_go _ _

theorem mild_sclose : MildOp TakesNoMask .sclose := by
  intro c t f
  unfold exec
  refine ⟨_, ⟨rfl⟩, issuesMild_issue (f := f) fun s => ?_⟩
  dsimp only
  split
  · exact Eff.afterIllegal_fault (whole_after (by decide))
  · split
    · exact Eff.afterIllegal_wait _ _
    · exact Eff.afterIllegal_go _ _

theorem mild_srd : MildOp TakesNoMask .srd := by
  intro c t f
  unfold exec
  refine ⟨_, ⟨rfl⟩, issuesMild_issue (f := f) fun s => ?_⟩
  dsimp only
  split
  · exact Eff.afterIllegal_fault (whole_after (by decide))
  · split
    · exact Eff.afterIllegal_stay _
    · split
      · exact Eff.afterIllegal_go _ _
      · refine Eff.afterIllegal_fault (List.forall_mem_map.2 fun b _ => ?_)
        rfl

theorem mild_swr : MildOp TakesNoMask .swr := by
  intro c t f
  unfold exec
  refine ⟨_, ⟨rfl⟩, issuesMild_issue (f := f) fun s => ?_⟩
  dsimp only
  split
  · exact Eff.afterIllegal_fault (whole_after (by decide))
  · split
    · exact Eff.afterIllegal_stay _
    · split
      · exact Eff.afterIllegal_fault (by simp only [List.mem_singleton, forall_eq]; rfl)
      · exact Eff.afterIllegal_go _ _

theorem mild_sig : MildOp TakesNoMask .sig := by
  intro c t f
  unfold exec
  refine ⟨_, ⟨rfl⟩, issuesMild_issue (f := f) fun s => ?_⟩
  split
  · exact Eff.afterIllegal_fault (whole_after (by decide))
  · split
    · exact Eff.afterIllegal_wait _ _
    · exact Eff.afterIllegal_go _ _

theorem mild_waitc : MildOp TakesNoMask .waitc := by
  intro c t f
  unfold exec
  refine ⟨_, ⟨rfl⟩, issuesMild_issue (f := f) fun s => ?_⟩
  dsimp only
  split
  · exact Eff.afterIllegal_fault (whole_after (by decide))
  · split
    · exact Eff.afterIllegal_go _ _
    · exact Eff.afterIllegal_wait _ _

theorem mild_bwait : MildOp TakesNoMask .bwait := by
  intro c t f
  unfold exec
  refine ⟨_, ⟨rfl⟩, issuesMild_issue (f := f) fun s => ?_⟩
  dsimp only
  split
  · exact Eff.afterIllegal_fault (whole_after (by decide))
  · split
    · exact Eff.afterIllegal_go _ _
    · exact Eff.afterIllegal_wait _ _

theorem mild_fence : MildOp TakesNoMask .fence := by
  intro c t f
  unfold exec
  refine ⟨_, ⟨rfl⟩, issuesMild_issue (f := f) fun s => ?_⟩
  split
  · exact Eff.afterIllegal_wait _ _
  · exact Eff.afterIllegal_go _ _

/-- Every instruction that takes no mask. -/
theorem mild_unmasked : ∀ e ∈ unmasked, MildOp TakesNoMask e := by
  simp only [unmasked, List.forall_mem_append, List.forall_mem_map, List.forall_mem_cons]
  refine ⟨⟨mild_aluTable, mild_branchTable⟩, ?nop, ?li, ?lip, ?dbnz, ?jal, ?jr, ?end_, ?csrr, ?flclr, ?mand, ?mor, ?mxor,
    ?mandn, ?mnot, ?mpop, ?mfirst, ?mfrom, ?mto, ?ld, ?st, ?tset, ?tget, ?sopen, ?sclose, ?srd, ?swr, ?sig, ?cret, ?waitc,
    ?barv, ?bwait, ?fence, nofun⟩
  case nop | li | lip | csrr | flclr | mnot | mpop | mfirst | mfrom | mto | tget =>
    intro c t f
    unfold exec
    exact ⟨_, ⟨rfl⟩, issuesMild_next⟩
  case mand | mor | mxor | mandn =>
    intro c t f
    unfold exec
    exact ⟨_, ⟨rfl⟩, issuesMild_maskOp ..⟩
  case dbnz | jal | jr =>
    intro c t f
    unfold exec
    exact ⟨_, ⟨rfl⟩, issuesMild_issue fun _ => Eff.afterIllegal_go _ _⟩
  case cret | barv =>
    intro c t f
    unfold exec
    exact ⟨_, ⟨rfl⟩, issuesMild_sender ..⟩
  case end_ => exact mild_end
  case ld => exact mild_ld
  case st => exact mild_st
  case tset => exact mild_tset
  case sopen => exact mild_sopen
  case sclose => exact mild_sclose
  case srd => exact mild_srd
  case swr => exact mild_swr
  case sig => exact mild_sig
  case waitc => exact mild_waitc
  case bwait => exact mild_bwait
  case fence => exact mild_fence

/-- The destination is a mask register. -/
structure WritesMask (u : Uses) : Prop where
  dst : u.dst = some .m

theorem mild_maskWriters : ∀ e ∈ maskWriters, MildOp WritesMask e := by
  simp only [maskWriters, compareTable, List.forall_mem_append, List.forall_mem_map, List.forall_mem_cons]
  refine ⟨⟨?mand, ?mor, ?mxor, ?mandn, ?mnot, ?mfrom, nofun⟩, ?vcmpeq, ?vcmpne, ?vcmplt, ?vcmple, ?vnf, nofun⟩
  case mand | mor | mxor | mandn =>
    intro c t f
    unfold exec
    exact ⟨_, ⟨rfl⟩, issuesMild_maskOp ..⟩
  case mnot | mfrom =>
    intro c t f
    unfold exec
    exact ⟨_, ⟨rfl⟩, issuesMild_next⟩
  case vcmpeq | vcmpne | vcmplt | vcmple | vnf =>
    intro c t f
    unfold exec
    exact ⟨_, ⟨rfl⟩, issuesMild_vecCmp ..⟩

theorem fieldsBad_of_mask {u : Uses} {f : Fields} (hu : TakesNoMask u) (h : f.mask ≠ 0) : fieldsBad u f = true := by
  have hmask : ¬ f.mask = 0#4 := h
  simp [fieldsBad, hu.mask, hmask]

theorem fieldsBad_of_m0 {u : Uses} {f : Fields} (hu : WritesMask u) (h : f.dst = 0) : fieldsBad u f = true := by
  simp [fieldsBad, hu.dst, h]

end Sys2Proof.Machine
end

section
open Sys2Proof Sys2Proof.Machine

/-- Settles O23: s0 and m0 by their definition; a reserved word is ILLEGAL, which goes before every other fault. -/
theorem zeroRegisters : Obligations.ZeroRegisters := by
  refine fun c t s => ⟨s.sreg_zero c t, s.setS_zero c t, s.mreg_zero c t, fun f hmx hdie hready hturn hbusy hlost =>
    ⟨fun e he hmask => ?mask, fun e he hdst => ?m0⟩⟩
  case mask =>
    obtain ⟨u, hu, hmild⟩ := mild_unmasked e he c t f
    exact hmild.illegal (fieldsBad_of_mask hu hmask) hmx hdie hready hturn hbusy hlost
  case m0 =>
    obtain ⟨u, hu, hmild⟩ := mild_maskWriters e he c t f
    exact hmild.illegal (fieldsBad_of_m0 hu hdst) hmx hdie hready hturn hbusy hlost

end

section
/-! PROOF. A thread at a reserved word, in the microsecond in which the device enters Off (19 R625). -/

namespace Sys2Proof.Machine

/-- Core 2's thread stands at a word of class 15, and a POWER_OFF has come to its time. -/
def strayAtPowerOff : State := { sStray with pm := { sStray.pm with offAt := some 1 } }

theorem State.pushFault_pm (s : State) (core : Nat) (r : List Byte) : (s.pushFault core r).pm = s.pm := by
  unfold State.pushFault
  extract_lets
  rw [State.sendTok_of_good (tokBad_notice core)]

theorem State.taskFault_pm (s : State) (core thread pc : Nat) (f : FInfo) (extra : Nat) (instr : Word) :
    (s.taskFault core thread pc f extra instr).pm = s.pm := by
  unfold State.taskFault
  extract_lets r u
  rw [State.pushFault_pm]
  simp [u]

theorem State.lostWalk_illegal (s : State) (core : Nat) : s.lostWalk core [whole fcIllegal] = none := rfl

theorem State.issueReserved_pm (s : State) (core t : Nat) : (s.issueReserved core t).pm = s.pm := by
  unfold State.issueReserved
  split
  · rw [State.raise_of_pick (State.lostWalk_illegal _ _) rfl, State.taskFault_pm]
    simp
  · rfl

theorem State.tickWords_pm (s : State) : s.tickWords.pm = s.pm := by
  unfold State.tickWords
  split
  · exact foldl_pm _ _ s fun u c => foldl_pm _ _ u fun v t => v.issueReserved_pm c t
  · rfl

theorem State.tickDump_offAt (s : State) : s.tickDump.pm.offAt = s.pm.offAt := by
  unfold State.tickDump
  split
  · dsimp only
    split
    · simp [State.endDump]
    · rfl
  · split <;> rfl

theorem State.tickAon_offAt (s : State) : s.tickAon.pm.offAt = s.pm.offAt := by
  unfold State.tickAon
  (repeat' split) <;> rfl

theorem State.tickGood_offAt (s : State) : s.tickGood.pm.offAt = s.pm.offAt := by
  unfold State.tickGood
  split <;> rfl

/-- A microsecond that brings the time of Off leaves no fault record. -/
theorem State.tick_faultN_of_offAt {s : State} {t : Nat} (h : s.pm.offAt = some t) (ht : t ≤ s.tickTime.timeUs) :
    s.tick.e.faultN = 0 := by
  unfold State.tick
  generalize hx : s.tickTime.tickGood.tickClusters.tickWords.tickGates.tickAon.tickBoot.tickDump = x
  have hoff : x.pm.offAt = some t := by
    rw [← hx, State.tickDump_offAt]
    simpa [State.tickWords_pm, State.tickAon_offAt, State.tickGood_offAt, State.tickGates] using h
  have htime : x.timeUs = s.tickTime.timeUs := by simp [← hx]
  have hx' : x.tickOff = x.enterOff := by
    simp [State.tickOff, hoff, htime, ht]
  rw [hx']
  simp
  rfl

theorem strayAtPowerOff_tick : strayAtPowerOff.tick.e.faultN = 0 :=
  State.tick_faultN_of_offAt (t := 1) rfl (by decide +kernel)

theorem strayAtPowerOff_word : spells (strayAtPowerOff.nextWord 2 0) = false := wit_StrayWord

theorem strayAtPowerOff_oneTask : ∀ c' : Fin 800, c' ≠ 2 → strayAtPowerOff.taskRuns c' = false := wit_OneTask

theorem strayAtPowerOff_ready : strayAtPowerOff.dieUp = true ∧ strayAtPowerOff.threads 2 = 1
    ∧ strayAtPowerOff.threadReady 2 0 = true ∧ strayAtPowerOff.turn 2 0 = true := wit_Stray

/-- The device enters Off as the microsecond passes, and the record of the fault is lost with all else. -/
theorem not_reservedWordsLaw : ¬ reservedWordsLaw := by
  intro h
  obtain ⟨hdie, hthreads, hready, hturn⟩ := strayAtPowerOff_ready
  obtain ⟨u, hu, -, hn, -⟩ := h 2 strayAtPowerOff hdie hthreads hready hturn strayAtPowerOff_oneTask strayAtPowerOff_word
  have hstep : step { strayAtPowerOff with pending := [] } = .next strayAtPowerOff.tick := rfl
  rw [hstep] at hu
  injection hu with hu
  rw [← hu, strayAtPowerOff_tick] at hn
  exact Nat.succ_ne_zero _ hn.symm

end Sys2Proof.Machine
end

section
open Sys2Proof Sys2Proof.Machine

/-- Refutes O24: in the microsecond in which POWER_OFF takes the device to Off, a thread at a reserved word leaves no record. -/
theorem not_faultStopsTask : ¬ Obligations.FaultStopsTask := by
  intro h
  obtain ⟨-, -, hwords, -⟩ := h
  exact not_reservedWordsLaw hwords

end

section
/-! PROOF. What an instruction that runs leaves, by what its body answers (03 R104, R106, R136). -/

namespace Sys2Proof.Machine

variable {s s' : State} {c : Fin 800} {t : Fin 16} {f : Fields} {u : Uses} {bad : Bool} {cls op : Nat} {body : State → Eff}

/-- A thread that waits from now on: its instruction is counted, its program counter stands. -/
def waitsFor (s s' : State) (c : Fin 800) (t : Fin 16) (w : Wait) : State :=
  ((s'.countIssue c).setStat c t (.waiting w)).tookTurn c t (s.pc c t)

theorem issue_go_of_runs (h : Runs s c t f u bad) (hb : body s = .go s' (s.next c t)) :
    issue c t cls op f u bad [] body s = .next (passed s s' c t) := by
  rw [issue_of_runs h, hb, applyEff_next h.pc_le]

theorem issue_wait_of_runs {w : Wait} (h : Runs s c t f u bad) (hb : body s = .wait s' w) :
    issue c t cls op f u bad [] body s = .next (waitsFor s s' c t w) := by
  rw [issue_of_runs h, hb, applyEff_wait h.pc_le]
  rfl

theorem issue_fault_of_runs {fs : List FInfo} (h : Runs s c t f u bad) (hb : body s = .fault fs) :
    issue c t cls op f u bad [] body s = .next ((s.countIssue c).raise c t (s.pc c t) fs (instrWord cls op f)) := by
  rw [issue_of_runs h, hb, applyEff_fault h.pc_le]

theorem issue_stay_of_runs (h : Runs s c t f u bad) (hb : body s = .stay s') :
    issue c t cls op f u bad [] body s = .next (s'.missTurn c t (instrWord cls op f)) := by
  rw [issue_of_runs h, hb]
  rfl

theorem stat_waitsFor (s s' : State) (c : Fin 800) (t : Fin 16) (w : Wait) : (waitsFor s s' c t w).stat c t = .waiting w := by
  simp [waitsFor, State.stat_setStat]

theorem pc_waitsFor (s s' : State) (c : Fin 800) (t : Fin 16) (w : Wait) : (waitsFor s s' c t w).pc c t = s'.pc c t := by
  simp [waitsFor]

theorem core_pc_passed (s s' : State) (c : Fin 800) (t : Fin 16) : (passed s s' c t).pc c t = s.pc c t + 1 := by
  simp [passed, State.pc_setPc]

end Sys2Proof.Machine
end

section
/-! PROOF. SIG, CRET, BARV, FENCE, WAITC and BWAIT (03 R131 to R134). -/

namespace Sys2Proof.Machine

variable {s : State} {c : Fin 800} {t : Fin 16} {f : Fields}

theorem destBad_iff (s : State) (c t : Nat) (f : Fields) : s.destBad c t f = true ↔ 2 ^ 13 ≤ (s.sreg c t f.srca.toNat).toNat := by
  simp only [State.destBad, bne_iff_ne, ne_eq, Nat.div_eq_zero_iff]
  omega

theorem sync_eq_sentToken (s : State) (c : Fin 800) (t : Fin 16) (kind : Nat) (f : Fields) :
    s.sync c t kind f = sentToken s c t f kind := by
  simp [State.sync, sentToken, bits_eq_div, clusterOf, subOf]

/-- CRET and BARV send their token, or find s_a ILLEGAL. -/
theorem sender_of_runs (h : Runs s c t f { a := some .s, b := some .s, imm := 255 } false) (op kind : Nat) :
    sender op kind c t f s = .next (if s.destBad c t f then raised s c t 5 op f fcIllegal
      else passed s (s.sendTok (sentToken s c t f kind)) c t) := by
  split
  · next hbad => exact issue_fault_of_runs h (if_pos hbad)
  · next hbad =>
    rw [← sync_eq_sentToken]
    exact issue_go_of_runs h (if_neg hbad)

/-- SIG sends its token once the thread's stores are accepted, waits until then, or finds s_a ILLEGAL. -/
theorem sig_of_runs (h : Runs s c t f { a := some .s, b := some .s, imm := 255 } false) :
    exec (.sig c t f) s = .next (if s.destBad c t f then raised s c t 5 0 f fcIllegal
      else if s.storesOut c t then waitsFor s s c t (.release (sentToken s c t f 1))
      else passed s (s.sendTok (sentToken s c t f 1)) c t) := by
  rw [← sync_eq_sentToken]
  show execSig c t f s = _
  split
  · next hbad => exact issue_fault_of_runs h (if_pos hbad)
  · next hbad =>
    split
    · next hout => exact issue_wait_of_runs h ((if_neg hbad).trans (if_pos hout))
    · next hout => exact issue_go_of_runs h ((if_neg hbad).trans (if_neg hout))

theorem fence_of_runs (h : Runs s c t f {} false) :
    exec (.fence c t f) s = .next (if s.storesOut c t then waitsFor s s c t .fence else passed s s c t) := by
  show execFence c t f s = _
  split
  · next hout => exact issue_wait_of_runs h (if_pos hout)
  · next hout => exact issue_go_of_runs h (if_neg hout)

theorem sendTokens : sendTokensLaw := by
  intro c t f s
  refine ⟨fun h => ⟨fun hgood => ⟨?cret, ?barv⟩, fun hgood hin => ?sig, fun hgood hout => ?sigWaits,
    fun hbad => ⟨?sigBad, ?cretBad, ?barvBad⟩⟩, fun h => ⟨fun hin => ?fence, fun hout => ?fenceWaits⟩⟩
  case cret =>
    refine (sender_of_runs h 1 0).trans ?_
    rw [if_neg (mt (destBad_iff s c t f).1 hgood)]
  case barv =>
    refine (sender_of_runs h 3 2).trans ?_
    rw [if_neg (mt (destBad_iff s c t f).1 hgood)]
  case sig => rw [sig_of_runs h, if_neg (mt (destBad_iff s c t f).1 hgood), if_neg (by simp [hin])]
  case sigWaits =>
    rw [sig_of_runs h, if_neg (mt (destBad_iff s c t f).1 hgood), if_pos hout]
    exact ⟨_, rfl, stat_waitsFor .., by simp [waitsFor]⟩
  case sigBad => rw [sig_of_runs h, if_pos ((destBad_iff s c t f).2 hbad)]
  case cretBad =>
    refine (sender_of_runs h 1 0).trans ?_
    rw [if_pos ((destBad_iff s c t f).2 hbad)]
  case barvBad =>
    refine (sender_of_runs h 3 2).trans ?_
    rw [if_pos ((destBad_iff s c t f).2 hbad)]
  case fence => rw [fence_of_runs h, if_neg (by simp [hin])]
  case fenceWaits =>
    rw [fence_of_runs h, if_pos hout]
    exact ⟨_, rfl, stat_waitsFor ..⟩

/-- The thread in line for the counter of a channel. -/
def queuedForCounter (s : State) (c : Fin 800) (t : Fin 16) : State :=
  { s with core := { s.core with counterWait := s.core.counterWait ++ [threadKey c t] } }

theorem counter_waitsFor (s s' : State) (c : Fin 800) (t : Fin 16) (w : Wait) {ch : Nat} (hch : ch < 64) :
    (waitsFor s s' c t w).counter c ch = s'.counter c ch := by
  have hkey : (CL_TOK_CNT_COUNT (clusterOf c) (subOf c) ch).key ≠ (TC_ISSUED_COUNT (clusterOf c) (subOf c)).key := by
    simp only [CL_TOK_CNT_COUNT, TC_ISSUED_COUNT, Fld.at_key]
    omega
  simp [waitsFor, State.counter, State.fld_countIssue _ _ hkey]

theorem counterWait_waitsFor (s s' : State) (c : Fin 800) (t : Fin 16) (w : Wait) :
    (waitsFor s s' c t w).core.counterWait = s'.core.counterWait := by
  show (s'.countIssue c).core.counterWait = s'.core.counterWait
  simp

/-- WAITC takes the count, waits for it, or finds its channel closed. -/
theorem waitc_of_runs (h : Runs s c t f { dst := some .s, a := some .s, imm := 63 } false) :
    exec (.waitc c t f) s = .next (
      let ch := bits f.imm.toNat 0 6
      let need := bits (s.sreg c t f.srca.toNat).toNat 0 24
      let n := s.counter c ch
      if !s.chOpen c ch then raised s c t 5 2 f fcToken
      else if (s.counterQueue c ch).isEmpty && decide (need ≤ n) then
        passed s ((s.setCounter c ch (n - need)).setS c t f.dst.toNat (BitVec.ofNat 64 (n - need))) c t
      else waitsFor s (queuedForCounter s c t) c t (.counter ch need f.dst.toNat)) := by
  show execWaitc c t f s = _
  extract_lets ch need n
  split
  · next hclosed => exact issue_fault_of_runs h (if_pos hclosed)
  · next hopen =>
    split
    · next henough => exact issue_go_of_runs h ((if_neg hopen).trans (if_pos henough))
    · next hshort => exact issue_wait_of_runs h ((if_neg hopen).trans (if_neg hshort))

/-- BWAIT goes on, waits for its release, or finds its channel closed. -/
theorem bwait_of_runs (h : Runs s c t f { a := some .s, imm := 63 } false) :
    exec (.bwait c t f) s = .next (
      let ch := bits f.imm.toNat 0 6
      let n := bits (s.sreg c t f.srca.toNat).toNat 0 24
      if !s.chOpen c ch then raised s c t 5 4 f fcToken
      else if s.genDone c ch n then passed s s c t
      else waitsFor s s c t (.barrier ch n)) := by
  show execBwait c t f s = _
  extract_lets ch n
  split
  · next hclosed => exact issue_fault_of_runs h (if_pos hclosed)
  · next hopen =>
    split
    · next hdone => exact issue_go_of_runs h ((if_neg hopen).trans (if_pos hdone))
    · next hnot => exact issue_wait_of_runs h ((if_neg hopen).trans (if_neg hnot))

theorem waitTokens : waitTokensLaw := by
  intro c t f s ch need n
  have hch : bits f.imm.toNat 0 6 = ch := by
    rw [bits_eq_div, Nat.pow_zero, Nat.div_one]
    rfl
  have hneed : bits (s.sreg c t f.srca.toNat).toNat 0 24 = need := by rw [bits_eq_div, Nat.pow_zero, Nat.div_one]
  refine ⟨fun h => ⟨fun hopen hfirst hle => ?takes, fun hopen hshort => ?waits, fun hclosed => ?closed⟩,
    fun h => ⟨fun hopen hdone => ?goes, fun hopen hnot => ?stays, fun hclosed => ?shut⟩⟩
  case takes =>
    rw [waitc_of_runs h, hch, hneed]
    simp [hopen, hfirst, n, hle]
  case waits =>
    have hno : ((s.counterQueue c ch).isEmpty && decide (need ≤ n)) = false := by
      rw [Bool.and_eq_false_iff]
      exact hshort.imp (fun hq => List.isEmpty_eq_false_iff.2 hq) (fun hn => decide_eq_false (Nat.not_le.2 hn))
    rw [waitc_of_runs h, hch, hneed]
    dsimp only
    rw [if_neg (by simp [hopen]), if_neg (by rw [hno]; decide)]
    exact ⟨_, rfl, stat_waitsFor .., counter_waitsFor _ _ _ _ _ (Nat.mod_lt _ (by decide)), counterWait_waitsFor ..⟩
  case closed =>
    rw [waitc_of_runs h, hch, hneed]
    simp [hclosed]
  case goes =>
    rw [bwait_of_runs h, hch, hneed]
    simp [hopen, hdone]
  case stays =>
    rw [bwait_of_runs h, hch, hneed]
    simp only [hopen, hnot, Bool.not_true, Bool.false_eq_true, if_false]
    exact ⟨_, rfl, stat_waitsFor ..⟩
  case shut =>
    rw [bwait_of_runs h, hch, hneed]
    simp [hclosed]

end Sys2Proof.Machine
end

section
open Sys2Proof Sys2Proof.Machine

/-- Settles O18: each instruction by the cases of its body. -/
theorem tokenInstructions : Obligations.TokenInstructions :=
  ⟨sendTokens, waitTokens⟩

end

section
/-! PROOF. Tile handles, and the taking and release of barges (03 R114, R115, 05 R202 to R205). -/

namespace Sys2Proof.Machine

variable {s : State} {c : Fin 800} {t : Fin 16} {f : Fields}

/-! ### Barges -/

/-- The matrix core that VTAKE names. -/
def takeFrom (c : Fin 800) (f : Fields) : Nat := clusterOf c * 20 + f.imm.toNat % 2

theorem takeFrom_eq (c : Fin 800) (f : Fields) : clusterOf c * 20 + bits f.imm.toNat 0 1 = takeFrom c f := by
  rw [bits_eq_div, Nat.pow_zero, Nat.div_one, takeFrom, Nat.pow_one]

/-- VTAKE from a place that holds 32 bytes takes a barge, polls, or waits. -/
theorem vtake_of_runs (h : Runs s c t f { dst := some .t, a := some .s, mod := 1, imm := 1 } false)
    (halign : (s.sreg c t f.srca.toNat).toNat % 32 = 0) (hfits : (s.sreg c t f.srca.toNat).toNat + 32 ≤ ownBytes c) :
    exec (.vtake c t f) s = .next (
      let off := (s.sreg c t f.srca.toNat).toNat
      match s.posted (takeFrom c f) with
      | some tile => passed s (s.takeBarge c t f.dst.toNat off tile) c t
      | none =>
        if modBit f 16 then passed s (s.writeHandle c f.dst.toNat 0) c t
        else waitsFor s { s with core := { s.core with takeWait := s.core.takeWait ++ [threadKey c t] } } c t
          (.take (takeFrom c f) f.dst.toNat off)) := by
  have hplace : ((s.sreg c t f.srca.toNat).toNat % 32 != 0
      || decide (ownBytes c < (s.sreg c t f.srca.toNat).toNat + 32)) = false := by
    simp [halign, hfits]
  show execVtake c t f s = _
  cases hposted : s.posted (takeFrom c f) with
  | some tile =>
    refine issue_go_of_runs h ?_
    simp only [hplace, Bool.false_eq_true, if_false, takeFrom_eq, hposted]
  | none =>
    dsimp only
    split
    · next hpoll =>
      refine issue_go_of_runs h ?_
      simp only [hplace, Bool.false_eq_true, if_false, takeFrom_eq, hposted, hpoll, if_true]
    · next hpoll =>
      refine issue_wait_of_runs h ?_
      simp only [hplace, Bool.false_eq_true, if_false, takeFrom_eq, hposted, hpoll]

theorem vrel_of_runs (h : Runs s c t f { a := some .t } false) {tile : Tile}
    (hfind : s.mx.tiles.find? (fun x => x.st == .taken && x.taker == c.val
      && x.bargeHandle == (s.handle c f.srca.toNat).toNat) = some tile)
    (htaken : s.mx.takenRegs.contains (32 * c.val + f.srca.toNat) = true) :
    exec (.vrel c t f) s = .next (passed s ((s.releaseTile tile).writeHandle c f.srca.toNat 0) c t) := by
  show execVrel c t f s = _
  refine issue_go_of_runs h ?_
  simp only [hfind, htaken, if_true]

theorem barges : bargesLaw := by
  refine fun c t f s => ⟨fun h halign hfits => ⟨fun tile hposted => ?taken, fun hposted hpoll => ?polled,
    fun hposted hpoll => ?waits⟩, fun h tile hfind htaken => vrel_of_runs h hfind htaken⟩
  case taken =>
    have hp : s.posted (takeFrom c f) = some tile := hposted
    rw [vtake_of_runs h halign hfits, hp]
  case polled =>
    have hp : s.posted (takeFrom c f) = none := hposted
    rw [vtake_of_runs h halign hfits, hp]
    simp only [hpoll, if_true]
  case waits =>
    have hp : s.posted (takeFrom c f) = none := hposted
    rw [vtake_of_runs h halign hfits, hp]
    simp only [hpoll, Bool.false_eq_true, if_false]
    exact ⟨_, rfl, stat_waitsFor .., pc_waitsFor ..⟩

/-! ### Tile handles -/

theorem handle_passed (s s' : State) (c : Fin 800) (t : Fin 16) (r : Nat) : (passed s s' c t).handle c r = s'.handle c r := by
  simp [passed]

theorem handle_writeHandle (s : State) (core r : Nat) (h : Word) : (s.writeHandle core r h).handle core r = h :=
  State.handle_setHandle s core r h

theorem tset_of_runs (h : Runs s c t f { dst := some .t, a := some .s } false) :
    exec (.tset c t f) s = .next (if thBad c (s.sreg c t f.srca.toNat) then raised s c t 4 2 f fcHandle
      else passed s (s.writeHandle c f.dst.toNat (s.sreg c t f.srca.toNat)) c t) := by
  show execTset c t f s = _
  split
  · next hbad => exact issue_fault_of_runs h (if_pos hbad)
  · next hgood => exact issue_go_of_runs h (if_neg hgood)

theorem tileHandles : tileHandlesLaw := by
  refine fun c t f s => ⟨fun h hgood => ?good, fun h hbad => ?bad, fun h => tget_of_runs h⟩
  case good =>
    rw [tset_of_runs h, if_neg (by simp [hgood])]
    exact ⟨_, rfl, by rw [handle_passed, handle_writeHandle], core_pc_passed ..⟩
  case bad => rw [tset_of_runs h, if_pos hbad]

end Sys2Proof.Machine
end

section
open Sys2Proof Sys2Proof.Machine

/-- Settles O15: the instructions by the cases of their bodies. -/
theorem handlesAndBarges : Obligations.HandlesAndBarges :=
  ⟨barges, tileHandles⟩

end

section
/-! PROOF. LD and ST: their accesses, own memory, operations on the other memories (03 R104, R111 to R113). -/

namespace Sys2Proof.Machine

variable {s s' : State} {c : Fin 800} {t : Fin 16} {f : Fields}

/-! ### The access of LD or ST -/

theorem spanKeys_own (core addr nb : Nat) (store : Bool) : s.spanKeys core 0 addr nb store =
    (if addr + nb ≤ ownBytes core then .ok (seqKeys (keyOwn core addr) nb) else .error (fcAddress, addr), s) := by
  by_cases h : addr + nb ≤ ownBytes core <;> simp [State.spanKeys, State.checkAccess, h]

theorem spanKeys_shared (core addr nb : Nat) (store : Bool) : s.spanKeys core 1 addr nb store =
    (if addr + nb ≤ sharedBytes then .ok (seqKeys (keyShared (clusterOf core) addr) nb) else .error (fcAddress, addr), s) := by
  by_cases h : addr + nb ≤ sharedBytes <;> simp [State.spanKeys, State.checkAccess, h]

theorem scalarAccess_aligned {core t : Nat} {store : Bool} (h : s.memAddr core t f % ((typeOf f).bits / 8) = 0) :
    s.scalarAccess core t f store = s.spanKeys core (spaceOf f) (s.memAddr core t f) ((typeOf f).bits / 8) store := by
  simp [State.scalarAccess, h]

theorem scalarAccess_misaligned {core t : Nat} {store : Bool} (h : s.memAddr core t f % ((typeOf f).bits / 8) ≠ 0) :
    s.scalarAccess core t f store = (.error (fcAddress, s.memAddr core t f), s) := by
  simp [State.scalarAccess, h]

/-- LD and ST take a type of whole bytes. -/
theorem bytes_pos_of_scalarMemTy {ty : Ty} (h : scalarMemTy ty = true) : 0 < ty.bits / 8 := by
  revert h
  cases ty <;> decide

/-! ### Bytes written one after another -/

theorem length_seqKeys (key n : Nat) : (seqKeys key n).length = n := by simp [seqKeys]

theorem seqKeys_succ (key n : Nat) : seqKeys key (n + 1) = key :: seqKeys (key + 1) n := by
  simp only [seqKeys, List.range_succ_eq_map, List.map_cons, List.map_map, Nat.zero_add]
  congr 1
  exact List.map_congr_left fun i _ => by simp only [Function.comp]; omega

/-- A store of consecutive bytes is those bytes written upward. -/
theorem wrCells_seqKeys (key : Nat) (l : List Byte) (s : State) :
    s.wrCells ((seqKeys key l.length).zip l) = s.wrB key l := by
  have hfold (m : Mem) : ((seqKeys key l.length).zip l).foldl (fun m e => m.wr e.1 e.2) m = m.wrBytes key l := by
    induction l generalizing key m with
    | nil => rfl
    | cons b r ih => simp only [List.length_cons, seqKeys_succ, List.zip_cons_cons, List.foldl_cons, Mem.wrBytes, ih]
  simp only [State.wrCells, State.wrB, hfold]

/-! ### LD and ST by the answer of their access -/

/-- An accepted type in a named space is no reserved encoding. -/
theorem runs_of_named {u : Uses} (h : Runs s c t f u false) (hty : scalarMemTy (typeOf f) = true) (hsp : spaceOf f ≠ 3) :
    Runs s c t f u (!scalarMemTy (typeOf f) || spaceOf f == 3) := by
  rwa [show (!scalarMemTy (typeOf f) || spaceOf f == 3) = false by simp [hty, hsp]]

theorem ld_of_error {e a : Nat} (h : Runs s c t f usesLd false) (hty : scalarMemTy (typeOf f) = true) (hsp : spaceOf f ≠ 3)
    (hacc : s.scalarAccess c t f false = (.error (e, a), s')) :
    exec (.ld c t f) s = .next ((s.countIssue c).raise c t (s.pc c t) [wholeAt e a] (instrWord 4 0 f)) := by
  show execLd c t f s = _
  refine issue_fault_of_runs (runs_of_named h hty hsp) ?_
  simp only [hacc]

theorem ld_of_own {keys : List Nat} (h : Runs s c t f usesLd false) (hty : scalarMemTy (typeOf f) = true)
    (hsp : spaceOf f = 0) (hacc : s.scalarAccess c t f false = (.ok keys, s)) :
    exec (.ld c t f) s =
      .next (passed s (s.setS c t f.dst.toNat (extendTo64 (typeOf f) (s.rd (keys.headD 0) keys.length))) c t) := by
  show execLd c t f s = _
  refine issue_go_of_runs (runs_of_named h hty (by omega)) ?_
  simp only [hacc, hsp, if_true]

theorem st_of_error {e a : Nat} (h : Runs s c t f usesSt false) (hty : scalarMemTy (typeOf f) = true) (hsp : spaceOf f ≠ 3)
    (hacc : s.scalarAccess c t f true = (.error (e, a), s')) :
    exec (.st c t f) s = .next ((s.countIssue c).raise c t (s.pc c t) [wholeAt e a] (instrWord 4 1 f)) := by
  show execSt c t f s = _
  refine issue_fault_of_runs (runs_of_named h hty hsp) ?_
  simp only [hacc]

theorem st_of_own {keys : List Nat} (h : Runs s c t f usesSt false) (hty : scalarMemTy (typeOf f) = true)
    (hsp : spaceOf f = 0) (hacc : s.scalarAccess c t f true = (.ok keys, s)) :
    exec (.st c t f) s = .next (passed s
      (s.wrCells (keys.zip (leBytes keys.length (s.sreg c t f.srcb.toNat).toNat))) c t) := by
  show execSt c t f s = _
  refine issue_go_of_runs (runs_of_named h hty (by omega)) ?_
  simp only [hacc, hsp, if_true]

/-! ### Own memory -/

theorem scalarAccess_own {store : Bool} (hsp : spaceOf f = 0) (halign : s.memAddr c t f % ((typeOf f).bits / 8) = 0)
    (hfits : s.memAddr c t f + (typeOf f).bits / 8 ≤ ownBytes c) :
    s.scalarAccess c t f store = (.ok (seqKeys (keyOwn c (s.memAddr c t f)) ((typeOf f).bits / 8)), s) := by
  rw [scalarAccess_aligned halign, hsp, spanKeys_own, if_pos hfits]

/-- The bytes stored in own memory leave every register and unit as they were. -/
theorem storeKept_wrB (key : Nat) (l : List Byte) (p p' : Nat) :
    storeKept s ((((s.wrB key l).countIssue c).setPc c t p).tookTurn c t p') c t := by
  obtain ⟨hregs, hcore, hflags, hstat, hm⟩ := (FrameKept.refl (s.wrB key l) c t none none).moved p p'
  refine ⟨hregs, hcore, hflags, hstat, ?_, ?_⟩ <;> rw [hm] <;> rfl

theorem rd_passed (s s' : State) (c : Fin 800) (t : Fin 16) (k : Nat) : (passed s s' c t).m.mem.rd k = s'.m.mem.rd k := by
  simp [passed]

theorem ownLoadStore : ownLoadStoreLaw := by
  intro c t f s ty n a hsp hty halign hfits
  have hacc (store : Bool) : s.scalarAccess c t f store = (.ok (seqKeys (keyOwn c a) n), s) :=
    scalarAccess_own hsp halign hfits
  refine ⟨fun h => ?load, fun h => ?store⟩
  case load =>
    obtain ⟨k, hk⟩ := Nat.exists_eq_succ_of_ne_zero (bytes_pos_of_scalarMemTy hty).ne'
    have hhead : (seqKeys (keyOwn c a) n).headD 0 = keyOwn c a := by
      rw [show n = k + 1 from hk, seqKeys_succ]
      rfl
    rw [ld_of_own h hty hsp (hacc false), hhead, length_seqKeys]
  case store =>
    have hlen : (leBytes n (s.sreg c t f.srcb.toNat).toNat).length = n := length_leBytes _ _
    have hcells := wrCells_seqKeys (keyOwn c a) (leBytes n (s.sreg c t f.srcb.toNat).toNat) s
    rw [hlen] at hcells
    rw [st_of_own h hty hsp (hacc true), length_seqKeys, hcells]
    refine ⟨_, rfl, core_pc_passed .., storeKept_wrB .., fun i hi => ?_, fun k hk => ?_⟩
    · rw [rd_passed]
      exact Mem.rd_wrBytes_in _ _ i _ (by rwa [hlen])
    · rw [rd_passed]
      exact Mem.rd_wrBytes_out _ _ k _ (by rwa [hlen])

/-! ### Misaligned accesses and accesses beyond the end -/

theorem scalarAccess_address {store : Bool} (h : s.memAddr c t f % ((typeOf f).bits / 8) ≠ 0
      ∨ (spaceOf f = 0 ∧ ownBytes c < s.memAddr c t f + (typeOf f).bits / 8)
      ∨ (spaceOf f = 1 ∧ sharedBytes < s.memAddr c t f + (typeOf f).bits / 8)) :
    s.scalarAccess c t f store = (.error (fcAddress, s.memAddr c t f), s) := by
  by_cases halign : s.memAddr c t f % ((typeOf f).bits / 8) = 0
  · rcases h with h | ⟨hsp, hout⟩ | ⟨hsp, hout⟩
    · exact absurd halign h
    · rw [scalarAccess_aligned halign, hsp, spanKeys_own, if_neg (Nat.not_le.2 hout)]
    · rw [scalarAccess_aligned halign, hsp, spanKeys_shared, if_neg (Nat.not_le.2 hout)]
  · exact scalarAccess_misaligned halign

/-- An ADDRESS fault stops its task. -/
theorem faulted_of_address (s : State) (core t pc a : Nat) (w : Word) :
    (s.raise core t pc [wholeAt fcAddress a] w).taskState core = tkFaulted := by
  rw [State.raise_of_pick (f := wholeAt fcAddress a) rfl rfl]
  exact (State.taskFault_effect ..).1

theorem misalignedAccess : misalignedAccessLaw := by
  intro c t f s ty n a hty hsp hbad
  have hacc (store : Bool) : s.scalarAccess c t f store = (.error (fcAddress, a), s) := scalarAccess_address hbad
  exact ⟨fun h => ⟨_, ld_of_error h hty hsp (hacc false), rfl, faulted_of_address ..⟩,
    fun h => ⟨_, st_of_error h hty hsp (hacc true), rfl, faulted_of_address ..⟩⟩

/-! ### Shared and stack memory -/

theorem scalarAccess_shared {store : Bool} (hsp : spaceOf f = 1) (halign : s.memAddr c t f % ((typeOf f).bits / 8) = 0)
    (hfits : s.memAddr c t f + (typeOf f).bits / 8 ≤ sharedBytes) :
    s.scalarAccess c t f store = (.ok (seqKeys (keyShared (clusterOf c) (s.memAddr c t f)) ((typeOf f).bits / 8)), s) := by
  rw [scalarAccess_aligned halign, hsp, spanKeys_shared, if_pos hfits]

/-- The state in which a thread is noted as one that waits for a berth. -/
def wantsBerth (s : State) (core t : Nat) : State :=
  { s with core := { s.core with
      berthWait := s.core.berthWait.filter (· != threadKey core t) ++ [threadKey core t] } }

theorem startOp_eq (x : Xfer) (write : Bool) (cells : List (Nat × Byte)) : s.startOp x write cells =
    if s.berthsFree x.core (berthsFor cells) then .go (s.startXfer x false write cells) (s.next x.core x.thread)
    else .stay (wantsBerth s x.core x.thread) := rfl

/-- An access finds its bytes and moves no thread. -/
theorem next_of_access {store : Bool} {keys : List Nat} (hacc : s.scalarAccess c t f store = (.ok keys, s')) :
    s'.next c t = s.next c t := by
  have hcore : s'.core = s.core := by
    have := (State.scalarAccess_frame s c t f store).2.2.2.1
    rwa [hacc] at this
  simp only [State.next, State.pc, hcore]

theorem ld_of_remote {key : Nat} {keys : List Nat} (h : Runs s c t f usesLd false) (hty : scalarMemTy (typeOf f) = true)
    (hsp0 : spaceOf f ≠ 0) (hsp : spaceOf f ≠ 3) (hacc : s.scalarAccess c t f false = (.ok (key :: keys), s')) :
    exec (.ld c t f) s = .next (
      if s'.berthsFree c (berthsFor ((key :: keys).map (·, (0 : Byte)))) then passed s (s'.startXfer
        (newXfer c t false (scalarDest f.dst.toNat) (.ld f.dst.toNat (typeOf f) key)) false false
        ((key :: keys).map (·, (0 : Byte)))) c t
      else (wantsBerth s' c t).missTurn c t (instrWord 4 0 f)) := by
  show execLd c t f s = _
  split
  · next hfree =>
    refine issue_go_of_runs (runs_of_named h hty hsp) ?_
    simp only [hacc, hsp0, if_false]
    rw [startOp_eq, ← next_of_access hacc]
    exact if_pos hfree
  · next hfull =>
    refine issue_stay_of_runs (runs_of_named h hty hsp) ?_
    simp only [hacc, hsp0, if_false]
    rw [startOp_eq]
    exact if_neg hfull

theorem st_of_remote {key : Nat} {keys : List Nat} (h : Runs s c t f usesSt false) (hty : scalarMemTy (typeOf f) = true)
    (hsp0 : spaceOf f ≠ 0) (hsp : spaceOf f ≠ 3) (hacc : s.scalarAccess c t f true = (.ok (key :: keys), s'))
    (hval : s'.sreg c t f.srcb.toNat = s.sreg c t f.srcb.toNat)
    (hfree : s'.berthsFree c (berthsFor ((key :: keys).zip
      (leBytes (key :: keys).length (s.sreg c t f.srcb.toNat).toNat))) = true) :
    exec (.st c t f) s = .next (passed s (s'.startXfer (newXfer c t true [] .store) false true
      ((key :: keys).zip (leBytes (key :: keys).length (s.sreg c t f.srcb.toNat).toNat))) c t) := by
  show execSt c t f s = _
  refine issue_go_of_runs (runs_of_named h hty hsp) ?_
  simp only [hacc, hsp0, if_false]
  rw [startOp_eq, ← next_of_access hacc, hval]
  exact if_pos hfree

theorem missTurn_kept (s : State) (core t : Nat) (w : Word) : (s.missTurn core t w).core.berthWait = s.core.berthWait
    ∧ (s.missTurn core t w).core.pcs = s.core.pcs ∧ (s.missTurn core t w).core.sregs = s.core.sregs
    ∧ (s.missTurn core t w).m = s.m := by
  unfold State.missTurn
  (repeat' split) <;> exact ⟨rfl, rfl, rfl, rfl⟩

theorem remoteLoadStore : remoteLoadStoreLaw := by
  intro c t f s ty n a hsp0 hsp hty
  refine ⟨fun hshared halign hfits store => ?shared, fun key keys s' h hacc => ⟨fun hfree => ?loads, fun hfull => ?parks⟩,
    fun key keys s' h hacc => fun hfree hval => st_of_remote h hty hsp0 hsp hacc hval hfree⟩
  case shared => exact scalarAccess_shared hshared halign hfits
  case loads => rw [ld_of_remote h hty hsp0 hsp hacc, if_pos hfree]
  case parks =>
    rw [ld_of_remote h hty hsp0 hsp hacc, if_neg (by rw [hfull]; decide)]
    obtain ⟨hwait, hpc, hregs, hm⟩ := missTurn_kept (wantsBerth s' c t) c t (instrWord 4 0 f)
    refine ⟨_, rfl, ?_, ?_, hm, hregs⟩
    · rw [hwait]
      simp [wantsBerth]
    · rw [State.pc, hpc]
      rfl

end Sys2Proof.Machine
end

section
/-! PROOF. The reply of a request lands: what its landing, the requests that then leave and the threads that then go on leave
as it was (03 R104, 08 R293, R294). -/

namespace Sys2Proof.Machine

/-! ### What waiting requests and threads leave of a core -/

/-- The registers, program counters, flags and streams of the cores are as they were. -/
structure FilesKept (s u : State) : Prop where
  sregs : u.core.sregs = s.core.sregs
  mregs : u.core.mregs = s.core.mregs
  vregs : u.core.vregs = s.core.vregs
  thandles : u.core.thandles = s.core.thandles
  pcs : u.core.pcs = s.core.pcs
  tflags : u.core.tflags = s.core.tflags
  streams : u.core.streams = s.core.streams

theorem FilesKept.of_core {s u : State} (h : u.core = s.core) : FilesKept s u := by
  constructor <;> rw [h]

theorem FilesKept.trans {s u v : State} (h : FilesKept s u) (g : FilesKept u v) : FilesKept s v where
  sregs := g.sregs.trans h.sregs
  mregs := g.mregs.trans h.mregs
  vregs := g.vregs.trans h.vregs
  thandles := g.thandles.trans h.thandles
  pcs := g.pcs.trans h.pcs
  tflags := g.tflags.trans h.tflags
  streams := g.streams.trans h.streams

theorem filesKept_setStat (s : State) (core t : Nat) (v : TStat) : FilesKept s (s.setStat core t v) := by
  constructor <;> rfl

theorem filesKept_unblock (s : State) (core : Nat) : FilesKept s (s.unblock core) := by
  constructor <;> rfl

theorem filesKept_queueReq (s : State) (r : Req) : FilesKept s (s.queueReq r) := .of_core (by simp)

theorem filesKept_park (s : State) (r : Req) : FilesKept s (s.park r) := by
  unfold State.park
  split
  · split
    · dsimp only
      split <;> constructor <;> simp [State.setStat]
    · exact .of_core rfl
  · exact .of_core rfl

theorem filesKept_promoteList (s : State) (l : List Req) (blocked : List Nat) : FilesKept s (s.promoteList l blocked) := by
  induction l generalizing s blocked with
  | nil => exact .of_core rfl
  | cons r rest ih =>
    unfold State.promoteList
    split
    · exact ih ..
    · split
      · exact (filesKept_queueReq s r).trans (ih ..)
      · exact (filesKept_park s r).trans (ih ..)

theorem filesKept_promote (s : State) (core : Nat) : FilesKept s (s.promote core) := filesKept_promoteList ..

theorem filesKept_unparkOne (s : State) (core k : Nat) : FilesKept s (s.unparkOne core k) := by
  unfold State.unparkOne
  dsimp only
  split <;> constructor <;> rfl

theorem filesKept_unpark (s : State) (core : Nat) : FilesKept s (s.unpark core) := by
  unfold State.unpark
  exact foldl_rel (fun u v => FilesKept v u) _ _ _ (fun _ => .of_core rfl) (fun _ _ _ h g => g.trans h)
    (fun s k _ e => e ▸ filesKept_unparkOne s core k)

theorem FilesKept.sreg {s u : State} (h : FilesKept s u) (c t r : Nat) : u.sreg c t r = s.sreg c t r := by
  rw [State.sreg, State.sreg, h.sregs]

/-! ### No request of a number -/

/-- No request has the number. -/
def NoReq (id : Nat) (s : State) : Prop := ∀ y ∈ s.m.reqs, y.id ≠ id

theorem noReq_arrive {id : Nat} {s : State} (h : NoReq id s) (inst rq : Nat) : NoReq id (s.arrive inst rq) := by
  unfold State.arrive
  dsimp only
  split
  · exact h
  · intro y hy
    obtain ⟨z, hz, rfl⟩ := List.mem_map.1 hy
    split <;> exact h z hz

theorem NoReq.of_reqs {id : Nat} {s u : State} (h : NoReq id s) (e : u.m.reqs = s.m.reqs) : NoReq id u := by
  rwa [NoReq, e]

theorem noReq_queueReq {id : Nat} {s : State} (h : NoReq id s) {r : Req} (hr : r.id ≠ id) : NoReq id (s.queueReq r) := by
  unfold State.queueReq
  extract_lets hits _ u
  have hu : NoReq id u := by
    intro y hy
    rcases List.mem_append.1 hy with hy | hy
    · exact h y (List.mem_of_mem_filter hy)
    · rw [List.mem_singleton.1 hy]
      exact hr
  refine noReq_arrive (hu.of_reqs ?_) _ _
  exact foldl_rel (fun u v => u.m.reqs = v.m.reqs) hits State.touchStaged u (fun _ => rfl) (fun _ _ _ => Eq.trans)
    (fun _ _ _ e => e ▸ rfl)

theorem noReq_updReq {id : Nat} {s : State} (h : NoReq id s) {r : Req} (hr : r.id ≠ id) : NoReq id (s.updReq r) := by
  intro y hy
  obtain ⟨z, hz, rfl⟩ := List.mem_map.1 hy
  split
  · exact hr
  · exact h z hz

theorem noReq_park {id : Nat} {s : State} (h : NoReq id s) {r : Req} (hr : r.id ≠ id) : NoReq id (s.park r) := by
  have hupd : NoReq id (s.updReq { r with stat := .parked }) := noReq_updReq h hr
  unfold State.park
  split
  · split
    · dsimp only
      split <;> exact hupd.of_reqs (by simp)
    · exact h
  · exact h

theorem noReq_promoteList {id : Nat} (l : List Req) (hl : ∀ r ∈ l, r.id ≠ id) {s : State} (h : NoReq id s)
    (blocked : List Nat) : NoReq id (s.promoteList l blocked) := by
  induction l generalizing s blocked with
  | nil => exact h
  | cons r rest ih =>
    obtain ⟨hr, hrest⟩ := List.forall_mem_cons.1 hl
    unfold State.promoteList
    split
    · exact ih hrest h _
    · split
      · exact ih hrest (noReq_queueReq h hr) _
      · exact ih hrest (noReq_park h hr) _

theorem mem_inLine {s : State} {core : Nat} {r : Req} (h : r ∈ s.inLine core) : r ∈ s.m.reqs := by
  unfold State.inLine at h
  extract_lets rs parked at h
  have hrs : ∀ y ∈ rs, y ∈ s.m.reqs := fun y hy => List.mem_of_mem_filter hy
  rcases List.mem_append.1 h with h | h
  · obtain ⟨k, -, hk⟩ := List.mem_flatMap.1 h
    exact hrs r (List.mem_of_mem_filter hk)
  · exact hrs r (List.mem_of_mem_filter h)

theorem noReq_promote {id : Nat} {s : State} (h : NoReq id s) (core : Nat) : NoReq id (s.promote core) :=
  noReq_promoteList _ (fun _ hr => h _ (mem_inLine hr)) h _

theorem noReq_unpark {id : Nat} {s : State} (h : NoReq id s) (core : Nat) : NoReq id (s.unpark core) :=
  h.of_reqs (by simp)

/-! ### BERTH_RETURN -/

section
variable {s : State} {c : Fin 800} {id : Nat} {r : Req}

/-- The reply of a granted request that may cross lands, and what waited goes on; one that may not waits. -/
theorem berthReturn_of_granted
    (hr : s.m.reqs.find? (fun (r : Req) => r.id == id && r.core == c.val && r.stat == .granted && r.bank != 0) = some r) :
    s.berthReturn c id = if s.crosses r then ((s.landReq r).promote c).unpark c else s := by
  rw [State.berthReturn, hr]

theorem exec_berthReturn_none (h : Clocked s) (hrow : s.rowTarget id = none) :
    exec (.berthReturn c id) s = .next (s.berthReturn c id) := by
  refine Eq.trans (b := execBerthReturn c id s) rfl ?_
  rw [execBerthReturn, unlessStopped_off h, hrow]

theorem exec_berthReturn_row {mc : Nat} (h : Clocked s) (hrow : s.rowTarget id = some mc) :
    exec (.berthReturn c id) s = .next ((s.berthReturn c id).feedEngine mc) := by
  refine Eq.trans (b := execBerthReturn c id s) rfl ?_
  rw [execBerthReturn, unlessStopped_off h, hrow]

end

/-! ### The reply to a load of one request -/

section
variable {s : State} {r : Req} {x : Xfer} {dst : Fin 32} {ty : Ty} {key : Nat}

/-- The bytes that a load has received once its request's reply has landed. -/
def landed (r : Req) (x : Xfer) : Mem := r.data.foldl (fun (m : Mem) e => Mem.wr m e.1 e.2) x.got

/-- The state in which a load's reply has landed and the load has not yet written its register. -/
def replied (s : State) (r : Req) (x : Xfer) : State :=
  let u := State.unblock { s with m := { s.m with reqs := s.m.reqs.filter (fun (y : Req) => y.id != r.id) } } r.core
  let x : Xfer := { x with todo := 0, got := landed r x }
  { u with m := { u.m with xfers := u.m.xfers.map (fun (y : Xfer) => if y.id == x.id then x else y) } }

theorem landReq_eq_of_load (hx : s.m.xfers.find? (fun (x : Xfer) => x.id == r.xfer) = some x) (htodo : x.todo = 1)
    (hact : x.act = .ld dst ty key) (hlate : x.late = []) (hland : r.land = .none) (hread : r.write = false) :
    s.landReq r = ((((replied s r x).wrCells []).orFlags x.core (if x.thread < 16 then x.thread else 0) x.fl).setS x.core
      x.thread dst (extendTo64 ty (Mem.rdLE (landed r x) key (ty.bits / 8)))).dropXfer x.id := by
  obtain ⟨xid, core, thread, isStore, dests, todo, act, got, late, fl⟩ := x
  dsimp only at htodo hact hlate
  subst htodo hact hlate
  have hxu : (State.unblock { s with m := { s.m with reqs := s.m.reqs.filter (fun (y : Req) => y.id != r.id) } }
      r.core).m.xfers.find? (fun (x : Xfer) => x.id == r.xfer) = some _ := hx
  simp only [State.landReq, hxu, hland, hread]
  rfl

/-- The last reply of a load writes s_d; its request is gone, no byte of memory changes. -/
theorem landReq_of_load (hx : s.m.xfers.find? (fun (x : Xfer) => x.id == r.xfer) = some x) (htodo : x.todo = 1)
    (hact : x.act = .ld dst ty key) (hlate : x.late = []) (hland : r.land = .none) (hread : r.write = false)
    (hdst : dst.val ≠ 0) :
    (s.landReq r).sreg x.core x.thread dst = extendTo64 ty (Mem.rdLE (landed r x) key (ty.bits / 8))
    ∧ NoReq r.id (s.landReq r) ∧ (s.landReq r).m.mem = s.m.mem := by
  rw [landReq_eq_of_load hx htodo hact hlate hland hread]
  have hnone : NoReq r.id (replied s r x) := fun y hy => by simpa using (List.mem_filter.1 hy).2
  refine ⟨State.sreg_setS _ _ _ _ _ hdst, hnone.of_reqs ?_, ?_⟩
  · simp [State.dropXfer, State.wrCells]
  · simp [State.dropXfer, State.wrCells, replied, State.unblock]

end

theorem servedLoad : servedLoadLaw := by
  intro c id s r x dst ty key hclk hr hid hcross hx hcore hthread htodo hact hlate hland hread hdst
  have hrid : r.id = id := beq_iff_eq.1 (List.find?_some (p := fun r : Req => r.id == id) hid)
  have hrow : s.rowTarget id = none := by
    rw [State.rowTarget, hid, Option.bind_some, hx, Option.bind_some, hact]
  obtain ⟨hreg, hnone, hmem⟩ := landReq_of_load hx htodo hact hlate hland hread (Fin.val_ne_of_ne hdst)
  have hfiles : FilesKept (s.landReq r) (((s.landReq r).promote c).unpark c) :=
    (filesKept_promote _ _).trans (filesKept_unpark _ _)
  rw [exec_berthReturn_none hclk hrow, berthReturn_of_granted hr, if_pos hcross]
  refine ⟨_, rfl, ?_, ?_, by simp [hmem]⟩
  · rw [hfiles.sreg, ← hcore]
    exact hreg
  · rw [← hrid]
    exact noReq_unpark (noReq_promote hnone _) _

end Sys2Proof.Machine
end

section
open Sys2Proof Sys2Proof.Machine

/-- Settles O14: own memory byte by byte, the other memories by the operation they start and the reply that ends it. -/
theorem loadsAndStores : Obligations.LoadsAndStores :=
  ⟨ownLoadStore, remoteLoadStore, servedLoad, misalignedAccess⟩

/-- Settles O27: what a granted request's reply does when it may cross, and that it waits when it may not. -/
theorem berthReturns : Obligations.BerthReturns := by
  refine fun c id s r hclk hr => ⟨fun hcross => ⟨fun hrow => ?lands, fun mc hrow => ?feeds⟩, fun hwait hrow => ?waits, servedLoad⟩
  case lands => rw [exec_berthReturn_none hclk hrow, berthReturn_of_granted hr, if_pos hcross]
  case feeds => rw [exec_berthReturn_row hclk hrow, berthReturn_of_granted hr, if_pos hcross]
  case waits => rw [exec_berthReturn_none hclk hrow, berthReturn_of_granted hr, if_neg (by rw [hwait]; decide)]

end

section
/-! PROOF. SOPEN, SCLOSE, SRD and SWR that run (03 R126 to R130). -/

namespace Sys2Proof.Machine

variable {s s' : State} {c : Fin 800} {t : Fin 16} {f : Fields}

theorem stream_passed (s s' : State) (c : Fin 800) (t : Fin 16) (q : Nat) : (passed s s' c t).stream c q = s'.stream c q := by
  simp [passed]

theorem vreg_passed (s s' : State) (c : Fin 800) (t : Fin 16) (r : Nat) : (passed s s' c t).vreg c t r = s'.vreg c t r := by
  simp [passed]

theorem stream_waitsFor (s s' : State) (c : Fin 800) (t : Fin 16) (w : Wait) (q : Nat) :
    (waitsFor s s' c t w).stream c q = s'.stream c q := by
  simp [waitsFor]

/-! ### SOPEN -/

/-- The stream that SOPEN opens from the descriptor at an offset of the core's own memory. -/
def openedStream (s : State) (c off : Nat) : Stream :=
  let st : Stream := { Stream.closed with isOpen := true, desc := s.rdB (keyOwn c off) 64 }
  { st with credits := st.depth }

theorem sopen_of_runs (h : Runs s c t f { dst := some .q, a := some .s } false)
    (halign : (s.sreg c t f.srca.toNat).toNat % 64 = 0) (hfits : (s.sreg c t f.srca.toNat).toNat + 64 ≤ ownBytes c)
    (hclosed : (s.stream c f.dst.toNat).isOpen = false)
    (hgood : (openedStream s c (s.sreg c t f.srca.toNat).toNat).bad c = false)
    (hroom : s.reserved c + (openedStream s c (s.sreg c t f.srca.toNat).toNat).depth ≤ if isMatrix c then 1024 else 256) :
    ∃ u : State, exec (.sopen c t f) s =
      .next (passed s (u.setStream c f.dst.toNat (openedStream s c (s.sreg c t f.srca.toNat).toNat)) c t) := by
  have hplace : ((s.sreg c t f.srca.toNat).toNat % 64 != 0
      || decide (ownBytes c < (s.sreg c t f.srca.toNat).toNat + 64)) = false := by
    simp [halign, hfits]
  have hok : ((s.stream c f.dst.toNat).isOpen || (openedStream s c (s.sreg c t f.srca.toNat).toNat).bad c
      || decide ((if isMatrix c then 1024 else 256) <
        s.reserved c + (openedStream s c (s.sreg c t f.srca.toNat).toNat).depth)) = false := by
    rw [hclosed, hgood, decide_eq_false (Nat.not_lt.2 hroom)]
    rfl
  exact ⟨_, Eq.trans (b := execSopen c t f s) rfl (issue_go_of_runs h
    ((if_neg (Bool.eq_false_iff.1 hplace)).trans (if_neg (Bool.eq_false_iff.1 hok))))⟩

/-! ### SCLOSE -/

/-- SCLOSE of an open stream frees it, or has the thread wait until nothing of it is in flight. -/
theorem sclose_of_runs (h : Runs s c t f { a := some .q } false) (hopen : (s.stream c f.srca.toNat).isOpen = true)
    (hclosing : (s.stream c f.srca.toNat).closing = false) :
    exec (.sclose c t f) s = .next (
      if s.streamBusy c f.srca.toNat then
        waitsFor s (s.setStream c f.srca.toNat { s.stream c f.srca.toNat with closing := true, landed := [] }) c t
          (.close f.srca.toNat)
      else passed s (s.freeStream c f.srca.toNat) c t) := by
  have hok : (!(s.stream c f.srca.toNat).isOpen || (s.stream c f.srca.toNat).closing) = false := by
    rw [hopen, hclosing]
    rfl
  show execSclose c t f s = _
  split
  · next hbusy => exact issue_wait_of_runs h ((if_neg (Bool.eq_false_iff.1 hok)).trans (if_pos hbusy))
  · next hidle => exact issue_go_of_runs h ((if_neg (Bool.eq_false_iff.1 hok)).trans (if_neg hidle))

theorem stream_freeStream (s : State) (core q : Nat) : (s.freeStream core q).stream core q = .closed :=
  State.stream_setStream s core q .closed

/-! ### SRD -/

theorem srd_of_runs {ch : Chunk} (h : Runs s c t f { dst := some .v, a := some .q } false)
    (hopen : (s.stream c f.srca.toNat).isOpen = true) (hclosing : (s.stream c f.srca.toNat).closing = false)
    (hread : (s.stream c f.srca.toNat).isRead = true) (hscaled : (s.stream c f.srca.toNat).scaled = false)
    (hleft : (s.stream c f.srca.toNat).consumed < (s.stream c f.srca.toNat).chunks)
    (hch : (s.stream c f.srca.toNat).landed.find? (fun x => x.n == (s.stream c f.srca.toNat).consumed) = some ch)
    (hgood : ch.bad = []) :
    exec (.srd c t f) s = .next (passed s ((s.setStream c f.srca.toNat { s.stream c f.srca.toNat with
        consumed := (s.stream c f.srca.toNat).consumed + 1, credits := (s.stream c f.srca.toNat).credits + 1
        landed := (s.stream c f.srca.toNat).landed.filter (fun x => x.n != (s.stream c f.srca.toNat).consumed) }).setV
      c t f.dst.toNat ch.bits) c t) := by
  have hok : (!(s.stream c f.srca.toNat).isOpen || (s.stream c f.srca.toNat).closing || !(s.stream c f.srca.toNat).isRead
      || (s.stream c f.srca.toNat).scaled
      || decide ((s.stream c f.srca.toNat).chunks ≤ (s.stream c f.srca.toNat).consumed)) = false := by
    rw [hopen, hclosing, hread, hscaled, decide_eq_false (Nat.not_le.2 hleft)]
    rfl
  show execSrd c t f s = _
  refine issue_go_of_runs h ((if_neg (Bool.eq_false_iff.1 hok)).trans ?_)
  simp only [hch, hgood, List.isEmpty_nil, if_true]
  rfl

/-! ### SWR -/

theorem swr_of_runs {ks : List (Nat × ElAt × List Nat)} (h : Runs s c t f { dst := some .q, a := some .v } false)
    (hopen : (s.stream c f.dst.toNat).isOpen = true) (hclosing : (s.stream c f.dst.toNat).closing = false)
    (hkind : (s.stream c f.dst.toNat).kind = 1 ∨ (s.stream c f.dst.toNat).kind = 3)
    (hleft : (s.stream c f.dst.toNat).written < (s.stream c f.dst.toNat).chunks)
    (hcredit : (s.stream c f.dst.toNat).credits ≠ 0)
    (hkeys : s.writeKeys c (s.stream c f.dst.toNat)
      ((s.stream c f.dst.toNat).chunkEls (s.stream c f.dst.toNat).written) = (.ok ks, s')) :
    exec (.swr c t f) s = .next (passed s ((s'.setStream c f.dst.toNat { s.stream c f.dst.toNat with
        written := (s.stream c f.dst.toNat).written + 1, credits := (s.stream c f.dst.toNat).credits - 1 }).startXfer
      (newXfer c t true [] (.wchunk f.dst.toNat)) true true
      (s'.storeCells (s.stream c f.dst.toNat).ty (s.vreg c t f.srca.toNat) ks)) c t) := by
  have hok : (!(s.stream c f.dst.toNat).isOpen || (s.stream c f.dst.toNat).closing
      || !((s.stream c f.dst.toNat).kind == 1 || (s.stream c f.dst.toNat).kind == 3)
      || decide ((s.stream c f.dst.toNat).chunks ≤ (s.stream c f.dst.toNat).written)) = false := by
    rw [hopen, hclosing, decide_eq_false (Nat.not_le.2 hleft)]
    rcases hkind with hk | hk <;> rw [hk] <;> rfl
  have hcore : s'.core = s.core := by
    have := (State.writeKeys_frame s c (s.stream c f.dst.toNat)
      ((s.stream c f.dst.toNat).chunkEls (s.stream c f.dst.toNat).written)).2.2.2.1
    rwa [hkeys] at this
  have hv : s'.vreg c t f.srca.toNat = s.vreg c t f.srca.toNat := by
    simp only [State.vreg, State.vphys, State.threads, State.taskF, hcore]
  have hnext : s'.next c t = s.next c t := by simp only [State.next, State.pc, hcore]
  show execSwr c t f s = _
  refine issue_go_of_runs h ((if_neg (Bool.eq_false_iff.1 hok)).trans ((if_neg hcredit).trans ?_))
  simp only [hkeys, hv]
  exact congrArg (Eff.go _) hnext

theorem streamInstructions : streamInstructionsLaw := by
  refine fun c t f s => ⟨fun h halign hfits hclosed hgood hroom => ?sopen, fun h hopen hclosing => ⟨fun hidle => ?closes,
    fun hbusy => ?waits⟩, fun ch h hopen hclosing hread hscaled hleft hch hgood => ?srd,
    fun ks s' h hopen hclosing hkind hleft hcredit hkeys =>
      swr_of_runs h hopen hclosing hkind hleft hcredit hkeys⟩
  case sopen =>
    obtain ⟨u, hu⟩ := sopen_of_runs h halign hfits hclosed hgood hroom
    exact ⟨_, hu, by rw [stream_passed, State.stream_setStream]; rfl, core_pc_passed ..⟩
  case closes =>
    rw [sclose_of_runs h hopen hclosing, if_neg (by rw [hidle]; decide)]
    exact ⟨_, rfl, by rw [stream_passed, stream_freeStream], core_pc_passed ..⟩
  case waits =>
    rw [sclose_of_runs h hopen hclosing, if_pos hbusy]
    exact ⟨_, rfl, by rw [stream_waitsFor, State.stream_setStream], stat_waitsFor ..⟩
  case srd =>
    refine ⟨_, srd_of_runs h hopen hclosing hread hscaled hleft hch hgood, ?_, ?_, ?_, core_pc_passed ..⟩
    · rw [vreg_passed, State.vreg_setV]
    · rw [stream_passed]
      exact congrArg Stream.consumed (State.stream_setStream ..)
    · rw [stream_passed]
      exact congrArg Stream.credits (State.stream_setStream ..)

end Sys2Proof.Machine
end

section
/-! PROOF. STREAM_FETCH and CHUNK_LAND (03 R127, R129, 04 R157, R177, 08 R284). -/

namespace Sys2Proof.Machine

variable {s s' : State} {c : Fin 800} {q : Fin 16}

/-! ### STREAM_FETCH -/

/-- A read stream that fetches: its task runs or the engine wants its rows; a credit is free and a chunk left. -/
theorem mayFetch_of_credit (hrun : (s.taskRuns c = true ∧ s.engineFaults c = []) ∨ s.chunkWanted c q = true)
    (hopen : (s.stream c q).isOpen = true) (hclosing : (s.stream c q).closing = false) (hcredit : (s.stream c q).credits ≠ 0)
    (hleft : (s.stream c q).requested < (s.stream c q).chunks)
    (hkind : (s.stream c q).isRead = true
      ∨ ((s.stream c q).kind = 6 ∧ ((s.stream c q).ty ≠ .e2m1 ∨ (s.stream c q).k ≠ 0))) :
    s.mayFetch c q = true := by
  have hwants : ((decide (q.val < 16) && s.taskRuns c && (s.engineFaults c).isEmpty) || s.chunkWanted c q) = true := by
    rw [decide_eq_true q.isLt]
    rcases hrun with ⟨hr, he⟩ | hw
    · rw [hr, he]
      rfl
    · rw [hw, Bool.or_true]
  have hread : ((s.stream c q).isRead || (s.stream c q).kind == 6) = true
      ∧ ((s.stream c q).kind == 6 && (s.stream c q).ty == .e2m1 && (s.stream c q).k == 0) = false := by
    rcases hkind with hr | ⟨h6, hk⟩
    · refine ⟨by rw [hr, Bool.true_or], ?_⟩
      simp only [Stream.isRead, Bool.or_eq_true, beq_iff_eq] at hr
      rcases hr with hr | hr <;> rw [hr] <;> rfl
    · rcases hk with hk | hk <;> simp [h6, hk]
  simp only [State.mayFetch, hwants, hopen, hclosing, hread.1, hread.2, decide_eq_true hleft, Bool.not_false, Bool.and_true]
  exact bne_iff_ne.2 hcredit

theorem not_mayFetch_of_unwanted (hrun : ¬ (s.taskRuns c = true ∧ s.engineFaults c = [])) (hwant : s.chunkWanted c q = false) :
    s.mayFetch c q = false := by
  have hidle : (s.taskRuns c && (s.engineFaults c).isEmpty) = false := by
    rw [Bool.eq_false_iff, Ne, Bool.and_eq_true, List.isEmpty_iff]
    exact hrun
  simp only [State.mayFetch, Bool.and_assoc, hidle, hwant, Bool.and_false, Bool.or_false, Bool.false_and]

theorem exec_streamFetch_some (hclk : Clocked s) {r : Nat} (h : (s.leftStreams c q ++ [q.val]).find? (s.mayFetch c) = some r) :
    exec (.streamFetch c q) s = .next (s.streamFetch c r) := by
  refine Eq.trans (b := execStreamFetch c q s) rfl ?_
  rw [execStreamFetch, unlessStopped_off hclk, h]

theorem exec_streamFetch_none (hclk : Clocked s) (h : (s.leftStreams c q ++ [q.val]).find? (s.mayFetch c) = none) :
    exec (.streamFetch c q) s = .next s := by
  refine Eq.trans (b := execStreamFetch c q s) rfl ?_
  rw [execStreamFetch, unlessStopped_off hclk, h]

/-- The faults of a chunk's elements as a task's faults. -/
def elementFaults (fs : List EFault) : List FInfo := fs.map (fun e => ⟨e.code, 0, none, e.addr⟩)

/-- The next chunk of a read stream is asked for with the credit taken; a lost codeword of its walk goes before it. -/
theorem streamFetch_eq {ps sp : List Piece} {fs : List EFault} {groups : List (Nat × List (Nat × Byte))}
    (h : s.rowsKeys c (s.stream c q) ((s.stream c q).rowParts ((s.stream c q).chunkEls (s.stream c q).requested))
      = (ps, sp, fs, groups, s')) :
    (s'.lostWalk c (elementFaults fs) = none → s.streamFetch c q =
      (s'.setStream c q { s.stream c q with
        requested := (s.stream c q).requested + 1, credits := (s.stream c q).credits - 1 }).startGroups
        (newXfer c (16 + q.val) false [] (.chunk q (s.stream c q).requested ps sp fs)) true false groups)
    ∧ ∀ k, s'.lostWalk c (elementFaults fs) = some k → s.streamFetch c q = s'.stackUE k := by
  have hq : q.val % 16 = q.val := Nat.mod_eq_of_lt q.isLt
  constructor
  · intro hlost
    simp only [elementFaults] at hlost
    simp only [State.streamFetch, h, hlost, hq]
  · intro k hlost
    simp only [elementFaults] at hlost
    simp only [State.streamFetch, h, hlost]

/-- The rows of a plain stream's chunk: one row, no scale bytes. -/
theorem rowsKeys_of_plain {st : Stream} {els : List (Nat × ElAt × Nat)} {ps : List Piece} {ks : List Nat} {fs : List EFault}
    (hkind : st.kind ≠ 6) (hscaled : st.scaled = false) (h : s.chunkKeys c st els = (ps, ks, fs, s')) :
    s.rowsKeys c st (st.rowParts els) = (ps, [], fs, groupCells ((dedup ks).map (·, 0)), s') := by
  have hparts : st.rowParts els = [els] := by simp [Stream.rowParts, hkind]
  simp [hparts, State.rowsKeys, h, hscaled]

/-! ### CHUNK_LAND -/

/-- The chunk of an operation whose data has arrived. -/
def chunkOf (st : Stream) (x : Xfer) (n : Nat) (ps sp : List Piece) (bad : List EFault) : Chunk :=
  { n := n, bits := BitVec.ofNat 2048 (fillPieces x.got 0 ps)
    scales := if sp.isEmpty && !st.scaled then []
      else (List.range (st.ty.count / 32)).map (fun b => bits (fillPieces x.got 0 sp) (8 * b) 8)
    bad := bad }

/-- A chunk whose data has arrived lands behind those that landed before it, and its operation leaves. -/
theorem chunkLand_eq {x : Xfer} {n : Nat} {ps sp : List Piece} {bad : List EFault}
    (hx : s.m.xfers.find? (fun (x : Xfer) => x.core == c.val && x.todo == 0 && match x.act with
      | .chunk q' _ _ _ _ => q' % 16 == q.val
      | _ => false) = some x) (hact : x.act = .chunk q n ps sp bad)
    (hopen : (s.stream c q).isOpen = true) (hclosing : (s.stream c q).closing = false) :
    s.chunkLand c q = ((s.dropXfer x.id).unblock c).setStream c q { s.stream c q with
      landed := (s.stream c q).landed ++ [chunkOf (s.stream c q) x n ps sp bad] } := by
  have hst : ((s.dropXfer x.id).unblock c).stream c q = s.stream c q := rfl
  unfold State.chunkLand
  split
  · next hnone => exact absurd (hnone.symm.trans hx) nofun
  · next y hy =>
    obtain rfl : y = x := Option.some.inj (hy.symm.trans hx)
    simp only [hact, hst, hopen, hclosing, Bool.not_true, Bool.or_self, Bool.false_eq_true, if_false]
    rfl

theorem not_mem_dropXfer (s : State) (x : Xfer) : x ∉ (s.dropXfer x.id).m.xfers := by
  simp [State.dropXfer]

theorem streamEvents : streamEventsLaw := by
  intro c q s hclk st lost asked runs
  refine ⟨fun hleft hrun hopen hclosing hcredit hmore => ?fetch, fun hleft hrun hwant => ?idle,
    fun r rest hleft hmay => ?earlier, fun x n ps sp bad hx hact hopen hclosing => ?lands⟩
  case fetch =>
    have hfetch (hkind : st.isRead = true ∨ (st.kind = 6 ∧ (st.ty ≠ .e2m1 ∨ st.k ≠ 0))) :
        exec (.streamFetch c q) s = .next (s.streamFetch c q) := by
      refine exec_streamFetch_some hclk ?_
      rw [hleft, List.nil_append, List.find?_cons_of_pos (mayFetch_of_credit hrun hopen hclosing hcredit hmore hkind)]
    refine ⟨fun hkind hscaled ps ks fs s' hkeys hlost => ?_, fun hkind ps sp fs groups s' hkeys => ⟨fun hlost => ?_,
      fun k hlost => ?_⟩⟩
    · have hread : st.isRead = true := by
        rcases hkind with hk | hk <;> simp [Stream.isRead, hk]
      have hplain : st.kind ≠ 6 := by
        rcases hkind with hk | hk <;> rw [hk] <;> decide
      rw [hfetch (.inl hread), (streamFetch_eq (rowsKeys_of_plain hplain hscaled hkeys)).1 hlost]
      rfl
    · rw [hfetch hkind, (streamFetch_eq hkeys).1 hlost]
    · rw [hfetch hkind, (streamFetch_eq hkeys).2 k hlost]
  case idle =>
    refine exec_streamFetch_none hclk ?_
    rw [hleft, List.nil_append, List.find?_cons_of_neg (by rw [not_mayFetch_of_unwanted hrun hwant]; decide), List.find?_nil]
  case earlier =>
    refine exec_streamFetch_some hclk ?_
    rw [hleft, List.cons_append, List.find?_cons_of_pos hmay]
  case lands =>
    refine ⟨_, Eq.trans (b := execChunkLand c q s) rfl (unlessStopped_off hclk), s.chunkLand c q, rfl, ?_, ?_⟩
    · rw [chunkLand_eq hx hact hopen hclosing]
      exact not_mem_dropXfer s x
    · rw [chunkLand_eq hx hact hopen hclosing, State.stream_setStream, List.map_append]
      rfl

end Sys2Proof.Machine
end

section
open Sys2Proof Sys2Proof.Machine

/-- Settles O17: the instructions by the cases of their bodies, the events by the stream that fetches or lands. -/
theorem streams : Obligations.Streams :=
  ⟨streamInstructions, streamEvents⟩

end

section

/-! PROOF. Tasks: TASK_HALT (03 R122, R140). -/

namespace Sys2Proof.Machine

/-! ### The state of a task -/

@[simp] theorem State.taskState_setTaskState (s : State) (c v : Nat) :
    (s.setTaskState c v).taskState c = v % 2 ^ 3 := s.fld_setFld _ v

/-- Leaving a task takes the threads of its core, and no other, from the scheduler. -/
theorem State.stat_leaveTask (s : State) (c c' t : Nat) (ht : t < 16) :
    (s.leaveTask c).stat c' t = if c' = c then .ended else s.stat c' t := by
  have hcore : threadKey c' t / 16 = c' := by unfold threadKey; omega
  simp [State.stat, State.leaveTask, Tab.get_drop, hcore]

/-- What remains of the operations and requests of a core whose task is halted gives nothing, and the task is HALTED. -/
def State.haltLeft (s : State) (c : Nat) : State :=
  let xs := s.m.xfers.filter (fun (x : Xfer) => !(x.core == c && match x.act with
    | .feed _ _ _ _ _ _ => true
    | _ => false))
  let xs := xs.map (fun (x : Xfer) => if x.core == c then x.discard else x)
  let rs := s.m.reqs.map (fun (r : Req) => if r.core == c && !r.write then { r with land := Land.none } else r)
  let s := { s with m := { s.m with xfers := xs, reqs := rs } }
  s.setTaskState c tkHalted

theorem State.haltCore_idle {s : State} {c : Nat} (h : s.taskRuns c = false) : s.haltCore c = s := by
  simp [State.haltCore, h]

theorem State.haltCore_fault {s : State} {c id pc : Nat} {w : Word} {b : FInfo} {rest : List (Nat × Nat × Word × FInfo)}
    (h : s.taskRuns c = true) (he : s.engineFaults c = (id, pc, w, b) :: rest) :
    s.haltCore c = s.taskFault c 0 pc b rest.length w := by
  simp [State.haltCore, h, he, State.engineFault]

theorem State.haltCore_halt {s : State} {c : Nat} (h : s.taskRuns c = true) (he : s.engineFaults c = []) :
    s.haltCore c = (s.leaveTask c).haltLeft c := by
  simp only [State.haltCore, h, he, Bool.not_true, Bool.false_eq_true, if_false, List.isEmpty_nil]
  rfl

theorem State.standing_of_failsafe {s : State} (h : s.on ERR_FAILSAFE_ACTIVE = true) : s.standing = false := by
  simp [State.standing, State.hubUp, h]

theorem taskHalt_of_failsafe {s : State} (c : Fin 800) (h : s.on ERR_FAILSAFE_ACTIVE = true) :
    exec (.taskHalt c) s = .next s.asked :=
  Eq.trans (if_neg (Bool.eq_false_iff.1 (State.standing_of_failsafe h))) (unlessStopped_on (s := s.asked) h)

theorem taskHalt_of_standing {s : State} (c : Fin 800) (h : s.standing = true) :
    exec (.taskHalt c) s = .next (s.asked.holdReq (.taskHalt c)) := if_pos h

theorem taskHalt_of_clocked {s : State} (c : Fin 800) (h : Clocked s) (hs : s.standing = false) :
    exec (.taskHalt c) s = .next (s.asked.haltCore c) :=
  Eq.trans (if_neg (Bool.eq_false_iff.1 hs)) (unlessStopped_off (s := s.asked) h)

theorem taskHalts : taskHaltLaw := by
  refine ⟨fun c s => taskHalt_of_failsafe c, fun c s => taskHalt_of_standing c, fun c s hc hs => ?_⟩
  rw [taskHalt_of_clocked c hc hs]
  refine ⟨fun hr he => ⟨_, rfl, ?_⟩, fun id pc w b rest hr he => ?_, fun hr => ?_⟩
  · rw [State.haltCore_halt (s := s.asked) hr he]
    have hstat (c' : Fin 800) (t : Nat) (ht : t < 16) : ((s.asked.leaveTask c).haltLeft c).stat c' t
        = if c'.val = c.val then .ended else s.stat c' t := s.asked.stat_leaveTask c c' t ht
    refine ⟨State.taskState_setTaskState _ _ _, ?_, ?_, fun t ht => ?_, fun c' t hne ht => ?_⟩
    · simp [State.haltLeft, State.asked]
    · simp [State.haltLeft, State.asked]
    · rw [hstat c t ht, if_pos rfl]
    · rw [hstat c' t ht, if_neg (Fin.val_ne_of_ne hne)]
  · rw [State.haltCore_fault (s := s.asked) hr he]
  · rw [State.haltCore_idle (s := s.asked) hr]

end Sys2Proof.Machine
end

section

/-! PROOF. O21: what TASK_START leaves (03 R119). -/

namespace Sys2Proof.Machine

/-! ### Memory: bytes copied from one memory to another -/

theorem Mem.getD_rdBytes (w : Mem) (a n i : Nat) (h : i < n) : (w.rdBytes a n).getD i 0 = w.rd (a + i) := by
  induction n generalizing a i with
  | zero => omega
  | succ n ih =>
    cases i with
    | zero => rfl
    | succ i => exact (ih (a + 1) i (by omega)).trans (congrArg w.rd (by omega))

theorem Mem.rdLE_copy (m w : Mem) (a len off n : Nat) (h : off + n ≤ len) :
    (m.wrBytes a (w.rdBytes a len)).rdLE (a + off) n = w.rdLE (a + off) n := by
  unfold Mem.rdLE
  congr 1
  refine Mem.rdBytes_congr _ _ _ _ fun k hlo hhi => ?_
  obtain ⟨i, rfl⟩ : ∃ i, k = a + i := ⟨k - a, by omega⟩
  rw [Mem.rd_wrBytes_in _ _ _ _ (by rw [length_rdBytes]; omega), Mem.getD_rdBytes _ _ _ _ (by omega)]

/-! ### The core before its threads stand -/

theorem State.window_keepStreams (s : State) (c : Nat) : (s.keepStreams c).core.window = s.core.window := by
  unfold State.keepStreams
  exact foldl_rel (fun u v => u.core.window = v.core.window) _ _ s (fun _ => rfl) (fun _ _ _ => Eq.trans)
    fun _ _ _ e => e ▸ rfl

theorem State.window_forgetTask (s : State) (c : Nat) : (s.forgetTask c).core.window = s.core.window := by
  simp [State.forgetTask, State.window_keepStreams, State.orphanFeeds]

/-- The core with its last task forgotten, its registers cleared and the window's descriptor in place. -/
def State.described (s : State) (c : Nat) : State :=
  let s := (s.forgetTask c).clearCoreRegs c
  { s with core := { s.core with
      task := (s.core.task.clear (256 * c) 256).wrBytes (256 * c) (s.core.window.rdBytes (256 * c) 216) } }

theorem State.task_described (s : State) (c : Nat) : ∃ m,
    (s.described c).core.task = Mem.wrBytes m (256 * c) (s.core.window.rdBytes (256 * c) 216) := by
  rw [← s.window_forgetTask c]
  unfold State.described
  generalize s.forgetTask c = u
  generalize 216 = len
  exact ⟨_, rfl⟩

theorem State.vregs_described (s : State) (c : Nat) :
    (s.described c).core.vregs = Tab.drop (s.forgetTask c).core.vregs (fun k => k / 64 == c) := by
  unfold State.described
  generalize s.forgetTask c = u
  rfl

theorem State.taskF_described (s : State) (c off n : Nat) (h : off + n ≤ 216) :
    (s.described c).taskF c off n = s.windowF c off n := by
  obtain ⟨m, hm⟩ := s.task_described c
  rw [State.taskF, hm, Mem.rdLE_copy _ _ _ _ _ _ h, State.windowF]

theorem State.threads_described (s : State) (c : Nat) : (s.described c).threads c = 2 ^ bits (s.windowF c 0 4) 16 3 := by
  rw [State.threads, s.taskF_described c 0 4 (by decide)]

/-- Reads of a core whose registers are cleared: every thread has ended, and every register and flag is zero. -/
structure Cleared (s : State) (c : Nat) : Prop where
  stat : ∀ t, t < 16 → s.stat c t = .ended
  flags : ∀ t, t < 16 → s.flags c t = 0
  sreg : ∀ t r, t < 16 → r < 32 → s.sreg c t r = 0
  mreg : ∀ t r, t < 16 → 1 ≤ r → r < 16 → s.mreg c t r = 0
  vreg : ∀ t r, t < s.threads c → r < 64 / s.threads c → s.vreg c t r = 0
  handle : ∀ r, r < 32 → s.handle c r = 0
  stream : ∀ q, q < 16 → s.stream c q = .closed

theorem State.vphys_div_64 (s : State) {c t r : Nat} (ht : t < s.threads c) (hr : r < 64 / s.threads c) :
    s.vphys c t r / 64 = c := by
  have hle : t * (64 / s.threads c) + r < 64 := calc
    t * (64 / s.threads c) + r < (t + 1) * (64 / s.threads c) := by rw [Nat.succ_mul]; omega
    _ ≤ s.threads c * (64 / s.threads c) := Nat.mul_le_mul_right _ ht
    _ ≤ 64 := Nat.mul_div_le 64 _
  unfold State.vphys
  omega

theorem State.described_cleared (s : State) (c : Nat) : Cleared (s.described c) c where
  stat t ht := by
    have h : threadKey c t / 16 = c := by unfold threadKey; omega
    simp [State.stat, State.described, State.clearCoreRegs, Tab.get_drop, h]
  flags t ht := by
    have h : threadKey c t / 16 = c := by unfold threadKey; omega
    simp [State.flags, State.described, State.clearCoreRegs, Tab.get_drop, h]
  sreg t r ht hr := by
    have h : (32 * threadKey c t + r) / 512 = c := by unfold threadKey; omega
    simp [State.sreg, State.described, State.clearCoreRegs, Tab.get_drop, h]
  mreg t r ht h1 hr := by
    have h : (16 * threadKey c t + r) / 256 = c := by unfold threadKey; omega
    simp [State.mreg, State.described, State.clearCoreRegs, Tab.get_drop, h, Nat.one_le_iff_ne_zero.1 h1]
  vreg t r ht hr := by
    have h := State.vphys_div_64 _ ht hr
    rw [State.vreg, s.vregs_described, Tab.get_drop, if_pos (beq_iff_eq.2 h)]
  handle r hr := by
    have h : (32 * c + r) / 32 = c := by omega
    simp [State.handle, State.described, State.clearCoreRegs, Tab.get_drop, h]
  stream q hq := by
    have h : (16 * c + q) / 16 = c := by omega
    simp [State.stream, State.described, State.clearCoreRegs, Tab.get_drop, h]

/-! ### The threads of a task take their arguments -/

/-- s1 to s`k` of a thread set to the first `k` arguments of its task. -/
def State.setArgs (s : State) (c t k : Nat) : State :=
  (List.range k).foldl (fun s i => s.setS c t (i + 1) (BitVec.ofNat 64 (s.taskF c (0x18 + 8 * i) 8))) s

/-- The first `k` threads of a task stand at its entry with their arguments. -/
def State.startThreads (s : State) (c entry k : Nat) : State :=
  (List.range k).foldl (fun s t => ((s.setArgs c t 8).setPc c t entry).setStat c t .running) s

theorem State.setArgs_succ (s : State) (c t k : Nat) : s.setArgs c t (k + 1)
    = (s.setArgs c t k).setS c t (k + 1) (BitVec.ofNat 64 ((s.setArgs c t k).taskF c (0x18 + 8 * k) 8)) := by
  simp [State.setArgs, List.range_succ]

theorem State.startThreads_succ (s : State) (c entry k : Nat) : s.startThreads c entry (k + 1)
    = (((s.startThreads c entry k).setArgs c k 8).setPc c k entry).setStat c k .running := by
  simp [State.startThreads, List.range_succ]

/-- Taking its arguments writes a thread's scalar registers alone. -/
theorem State.setArgs_frame (s : State) (c t k : Nat) :
    ∃ x, s.setArgs c t k = { s with core := { s.core with sregs := x } } := by
  induction k with
  | zero => exact ⟨_, rfl⟩
  | succ k ih =>
    obtain ⟨x, hx⟩ := ih
    rw [State.setArgs_succ, hx]
    exact ⟨_, rfl⟩

/-- The start of threads writes scalar registers, program counters and scheduler states alone. -/
theorem State.startThreads_frame (s : State) (c entry k : Nat) : ∃ x y z,
    s.startThreads c entry k = { s with core := { s.core with sregs := x, pcs := y, tstat := z } } := by
  induction k with
  | zero => exact ⟨_, _, _, rfl⟩
  | succ k ih =>
    obtain ⟨x, y, z, h⟩ := ih
    obtain ⟨x', h'⟩ := (s.startThreads c entry k).setArgs_frame c k 8
    rw [State.startThreads_succ, h', h]
    exact ⟨_, _, _, rfl⟩

theorem State.taskF_setArgs (s : State) (c t k off n : Nat) : (s.setArgs c t k).taskF c off n = s.taskF c off n := by
  obtain ⟨x, h⟩ := s.setArgs_frame c t k
  rw [h]
  rfl

theorem State.pc_setArgs (s : State) (c t t' k : Nat) : (s.setArgs c t k).pc c t' = s.pc c t' := by
  obtain ⟨x, h⟩ := s.setArgs_frame c t k
  rw [h]
  rfl

theorem State.stat_setArgs (s : State) (c t t' k : Nat) : (s.setArgs c t k).stat c t' = s.stat c t' := by
  obtain ⟨x, h⟩ := s.setArgs_frame c t k
  rw [h]
  rfl

theorem State.pc_setPc_of_ne (s : State) (c : Nat) {t t' : Nat} (p : Nat) (h : t' ≠ t) :
    (s.setPc c t p).pc c t' = s.pc c t' :=
  Tab.get_put_ne _ _ _ _ _ _ fun e => h (Nat.add_left_cancel e)

theorem State.taskF_startThreads (s : State) (c entry k off n : Nat) :
    (s.startThreads c entry k).taskF c off n = s.taskF c off n := by
  obtain ⟨x, y, z, h⟩ := s.startThreads_frame c entry k
  rw [h]
  rfl

theorem State.sreg_setS_eq (s : State) (c t t' r r' : Nat) (v : Word) (h0 : r ≠ 0) (hr : r < 32) (hr' : r' < 32) :
    (s.setS c t r v).sreg c t' r' = if t' = t ∧ r' = r then v else s.sreg c t' r' := by
  split
  next h => obtain ⟨rfl, rfl⟩ := h; exact s.sreg_setS c t' r' v h0
  next h =>
    have hkey : 32 * threadKey c t' + r' ≠ 32 * threadKey c t + r := by unfold threadKey; omega
    simp [State.sreg, State.setS, h0, Tab.get_put_ne _ _ _ _ _ _ hkey]

theorem State.sreg_setArgs (s : State) (c t t' k r : Nat) (hk : k ≤ 8) (hr : r < 32) :
    (s.setArgs c t k).sreg c t' r = if t' = t ∧ 1 ≤ r ∧ r ≤ k then BitVec.ofNat 64 (s.taskF c (0x18 + 8 * (r - 1)) 8)
      else s.sreg c t' r := by
  induction k with
  | zero => rw [if_neg (by omega)]; rfl
  | succ k ih =>
    rw [State.setArgs_succ, State.sreg_setS_eq _ _ _ _ _ _ _ (by omega) (by omega) hr, ih (by omega),
      State.taskF_setArgs]
    by_cases hk : t' = t ∧ r = k + 1
    · obtain ⟨rfl, rfl⟩ := hk
      simp
    · rw [if_neg hk]
      exact if_congr (by omega) rfl rfl

theorem State.sreg_startThreads (s : State) (c entry k t r : Nat) (hr : r < 32) :
    (s.startThreads c entry k).sreg c t r = if t < k ∧ 1 ≤ r ∧ r ≤ 8 then BitVec.ofNat 64 (s.taskF c (0x18 + 8 * (r - 1)) 8)
      else s.sreg c t r := by
  induction k with
  | zero => rw [if_neg (by omega)]; rfl
  | succ k ih =>
    rw [State.startThreads_succ]
    rw [State.sreg_setStat, State.sreg_setPc, State.sreg_setArgs _ c k t 8 r (by omega) hr, ih,
      State.taskF_startThreads]
    by_cases hk : t = k ∧ 1 ≤ r ∧ r ≤ 8
    · rw [if_pos hk, if_pos (by omega)]
    · rw [if_neg hk]
      exact if_congr (by omega) rfl rfl

theorem State.pc_startThreads (s : State) (c entry k t : Nat) (ht : t < k) :
    (s.startThreads c entry k).pc c t = entry := by
  induction k with
  | zero => omega
  | succ k ih =>
    rw [State.startThreads_succ, State.pc_setStat]
    by_cases hk : t = k
    · subst hk; exact State.pc_setPc ..
    · rw [State.pc_setPc_of_ne _ _ _ hk, State.pc_setArgs]
      exact ih (by omega)

theorem State.stat_startThreads (s : State) (c entry k t : Nat) (ht : t < k) :
    (s.startThreads c entry k).stat c t = .running := by
  induction k with
  | zero => omega
  | succ k ih =>
    rw [State.startThreads_succ]
    by_cases hk : t = k
    · subst hk; exact State.stat_setStat ..
    · rw [State.stat_setStat_of_ne _ _ _ hk, State.stat_setPc, State.stat_setArgs]
      exact ih (by omega)

/-! ### TASK_START -/

theorem taskStart_of_startable {s : State} (c : Fin 800) (h : s.startable c = true) :
    exec (.taskStart c) s = .next (s.asked.launch c) := by
  have hup : s.dieUp = true := by
    simp only [State.startable, Bool.and_eq_true] at h
    exact h.1.1
  have hs : ¬ s.asked.standing = true := Bool.eq_false_iff.1 (State.standing_of_dieUp (s := s) hup)
  exact (if_neg hs).trans (if_pos h)

theorem State.threads_setTaskState (s : State) (c k v : Nat) : (s.setTaskState k v).threads c = s.threads c := by
  simp [State.threads, State.taskF]

theorem State.launch_of_good {s : State} {c : Nat} (h : s.windowBad c = false) : s.launch c
    = ((s.described c).setTaskState c tkRunning).startThreads c (bits ((s.described c).taskF c 0 4) 0 13)
        (((s.described c).setTaskState c tkRunning).threads c) := by
  simp only [State.launch, h, Bool.false_eq_true, if_false]
  unfold State.described
  generalize (s.forgetTask c).clearCoreRegs c = u
  generalize 216 = len
  rfl

theorem State.launch_of_bad {s : State} {c : Nat} (h : s.windowBad c = true) : ∃ r,
    s.launch c = (((s.described c).free 64).2.setTaskState c tkFaulted).pushFault c r := by
  simp only [State.launch, h, if_true]
  unfold State.described
  generalize (s.forgetTask c).clearCoreRegs c = u
  generalize 216 = len
  exact ⟨_, rfl⟩

theorem State.threads_le_of_windowBad {s : State} {c : Nat} (h : s.windowBad c = false) :
    2 ^ bits (s.windowF c 0 4) 16 3 ≤ 16 := by
  simp only [State.windowBad, Bool.or_eq_false_iff, decide_eq_false_iff_not, Nat.not_lt] at h
  obtain ⟨⟨⟨⟨⟨⟨-, hlog⟩, -⟩, -⟩, -⟩, -⟩, -⟩ := h
  exact Nat.pow_le_pow_right (by decide : 0 < 2) hlog

theorem taskLaunches : taskLaunchLaw := by
  intro c s hs hw
  rw [taskStart_of_startable c hs]
  refine ⟨_, rfl, ?_⟩
  have hw' : s.asked.windowBad c = false := hw
  rw [State.launch_of_good hw', State.threads_setTaskState]
  generalize hu : s.asked.described c = u
  have hclear : Cleared u c := hu ▸ s.asked.described_cleared c
  have htask (off n : Nat) (h : off + n ≤ 216) : u.taskF c off n = s.windowF c off n :=
    hu ▸ s.asked.taskF_described c off n h
  have hthreads : u.threads c ≤ 16 := by
    rw [← hu, s.asked.threads_described c]
    exact State.threads_le_of_windowBad hw'
  obtain ⟨x, y, z, hframe⟩ := (u.setTaskState c tkRunning).startThreads_frame c (bits (u.taskF c 0 4) 0 13) (u.threads c)
  have hsreg (t r : Nat) (hr : r < 32) := (u.setTaskState c tkRunning).sreg_startThreads c (bits (u.taskF c 0 4) 0 13)
    (u.threads c) t r hr
  have hpc (t : Nat) (ht : t < u.threads c) := (u.setTaskState c tkRunning).pc_startThreads c (bits (u.taskF c 0 4) 0 13)
    (u.threads c) t ht
  have hstat (t : Nat) (ht : t < u.threads c) := (u.setTaskState c tkRunning).stat_startThreads c
    (bits (u.taskF c 0 4) 0 13) (u.threads c) t ht
  rw [hframe] at hsreg hpc hstat ⊢
  refine ⟨u.taskState_setTaskState c tkRunning, fun t (ht : t < u.threads c) => ?_, hclear.handle, hclear.stream⟩
  have ht16 : t < 16 := by omega
  refine ⟨?_, hstat t ht, hclear.flags t ht16, fun i hi => ?_, fun r h9 hr => ?_, fun r h1 hr => hclear.mreg t r ht16 h1 hr,
    fun r hr => hclear.vreg t r ht hr⟩
  · rw [hpc t ht, htask 0 4 (by decide), bits_eq_div, Nat.pow_zero, Nat.div_one]
  · rw [hsreg t (i + 1) (by omega), if_pos (by omega)]
    exact congrArg _ (htask (0x18 + 8 * i) 8 (by omega))
  · rw [hsreg t r hr, if_neg (by omega)]
    exact hclear.sreg t r ht16 hr

theorem State.stat_pushFault (s : State) (c t : Nat) (r : List Byte) : (s.pushFault c r).stat c t = s.stat c t := by
  unfold State.pushFault
  extract_lets
  rw [State.sendTok_of_good (tokBad_notice c)]
  rfl

theorem badDescriptors : badDescriptorLaw := by
  intro c s hs hw
  rw [taskStart_of_startable c hs]
  refine ⟨_, rfl, ?_⟩
  obtain ⟨r, h⟩ := State.launch_of_bad (s := s.asked) (c := c) hw
  have hclear : Cleared (s.asked.described c) c := s.asked.described_cleared c
  have hcount : (s.asked.described c).e.faultN = s.e.faultN := by simp [State.described, State.asked]
  rw [h]
  generalize s.asked.described c = u at hclear hcount
  obtain ⟨hregs, hone, -⟩ := ((u.free 64).2.setTaskState c tkFaulted).pushFault_effect c r
  refine ⟨?_, hone.trans (congrArg (· + 1) hcount), fun t ht => ?_⟩
  · rw [State.taskState, State.fld, hregs]
    exact (u.free 64).2.taskState_setTaskState c tkFaulted
  · rw [State.stat_pushFault]
    exact hclear.stat t ht

end Sys2Proof.Machine

section
open Sys2Proof Sys2Proof.Machine

/-- Settles O21: a launch clears the core and lets each thread of a good descriptor take its arguments, and a halt takes
the threads from the scheduler. -/
theorem taskStarts : Obligations.TaskStarts := ⟨taskLaunches, badDescriptors, taskHalts⟩

end
end

section

/-! PROOF. O22: how a task ends (03 R121, 02 R82). -/

namespace Sys2Proof.Machine

/-! ### What the end signal leaves of the registers -/

theorem State.fld_report {s : State} {r : Report} {g : Fld} (hlow : g.key ≠ ERR_LOST_LOW.key)
    (hhigh : g.key ≠ ERR_LOST_HIGH.key) : (s.report r).fld g = s.fld g := by
  have hpulse : (s.pulseAux r.cls).fld g = s.fld g := by simp [State.fld]
  unfold State.report State.bump
  extract_lets u
  split
  · exact hpulse
  · split
    · exact (State.fld_setFld_ne _ _ hlow.symm).trans hpulse
    · exact (State.fld_setFld_ne _ _ hhigh.symm).trans hpulse

/-- A token, sent or discarded, leaves every register but the counters of lost reports. -/
theorem State.fld_sendTok {s : State} {tok : Word} {g : Fld} (hlow : g.key ≠ ERR_LOST_LOW.key)
    (hhigh : g.key ≠ ERR_LOST_HIGH.key) : (s.sendTok tok).fld g = s.fld g := by
  unfold State.sendTok
  split
  · exact State.fld_report hlow hhigh
  · rfl

/-! ### The last thread of a task -/

/-- The flags of all threads of a core. -/
def State.allFlags (s : State) (c : Nat) : Flags := (List.range (s.threads c)).foldl (fun f t => f ||| s.flags c t) 0

/-- The flags of a core's threads ORed into those of its partition (02 R82). -/
def State.keepFlags (s : State) (c : Nat) : State :=
  match s.corePart c with
  | some p => s.setFld (NUM_STEP_FLAGS_FLAGS p) (s.fld (NUM_STEP_FLAGS_FLAGS p) ||| (s.allFlags c).toNat)
  | none => s

/-- A core's tiles, planes and loads let go. -/
def State.letGo (s : State) (c : Nat) : State :=
  let s := s.releaseAll c
  { s with mx := { s.mx with
      planes := Tab.drop s.mx.planes (fun k => k / 2 == c)
      mldps := s.mx.mldps.filter (fun x => x.mc != c) } }

/-- The end signal that a task's descriptor names. -/
def State.endSignal (s : State) (c : Nat) : Word :=
  let d := s.taskF c 8 4
  mkTok 1 (bits d 0 8) (bits d 8 5) (clusterOf c) (subOf c) (bits d 16 8) 1

theorem State.core_keepFlags (s : State) (c : Nat) : (s.keepFlags c).core = s.core := by
  unfold State.keepFlags
  split <;> rfl

theorem State.e_keepFlags (s : State) (c : Nat) : (s.keepFlags c).e = s.e := by
  unfold State.keepFlags
  split <;> rfl

theorem State.endSignal_of_core {s u : State} (h : u.core = s.core) (c : Nat) : u.endSignal c = s.endSignal c := by
  simp only [State.endSignal, State.taskF, h]

theorem State.tryEnd_of_done {s : State} {c : Nat} (hall : s.allEnded c = true)
    (hstore : s.m.xfers.any (fun (x : Xfer) => x.core == c && x.isStore) = false)
    (htile : s.mx.tiles.any (fun t => t.mc == c && t.st == .closed) = false) (he : s.engineFaults c = []) :
    s.tryEnd c = (((s.keepFlags c).letGo c).setTaskState c tkEnded).sendTok (s.endSignal c) := by
  have hsig : ((s.keepFlags c).letGo c).endSignal c = s.endSignal c :=
    State.endSignal_of_core (by simp [State.letGo, State.core_keepFlags]) c
  rw [← hsig]
  simp only [State.tryEnd, hall, hstore, htile, he, List.isEmpty_nil, Bool.not_false, Bool.and_self, if_true]
  rfl

theorem State.allEnded_setStat {s : State} {c : Fin 800} {t : Fin 16} (hr : s.taskRuns c = true)
    (h : ∀ t', t' < s.threads c → t' ≠ t.val → s.stat c t' = .ended) : (s.setStat c t .ended).allEnded c = true := by
  refine Bool.and_eq_true_iff.2 ⟨hr, List.all_eq_true.2 fun t' ht' => beq_iff_eq.2 ?_⟩
  by_cases heq : t' = t.val
  · rw [heq, State.stat_setStat]
  · rw [State.stat_setStat_of_ne _ _ _ heq]
    exact h t' (List.mem_range.1 ht') heq

theorem State.stat_tryEnd (s : State) (c c' t : Nat) : (s.tryEnd c).stat c' t = s.stat c' t := by simp [State.stat]

theorem State.sreg_tryEnd (s : State) (c c' t r : Nat) : (s.tryEnd c).sreg c' t r = s.sreg c' t r := by
  simp [State.sreg]

theorem State.corePart_lt {s : State} {c p : Nat} (h : s.corePart c = some p) : p < 8 := by
  unfold State.corePart State.secPart at h
  exact List.mem_range.1 (List.mem_of_find?_eq_some h)

/-- Once a task has ended: its state, its flags in the registers of its partition, and its end signal. -/
structure TaskEnded (s u : State) (c : Fin 800) : Prop where
  state : u.taskState c = tkEnded
  flags : ∀ p, s.corePart c = some p → u.fld (NUM_STEP_FLAGS_FLAGS p)
    = (s.fld (NUM_STEP_FLAGS_FLAGS p) ||| (s.allFlags c).toNat) % 2 ^ (NUM_STEP_FLAGS_FLAGS p).len
  signal : tokBad (s.endSignal c) = false → u.e.toks = s.e.toks ++ [s.endSignal c]

theorem taskEnded_tryEnd {s : State} {c : Fin 800} (hall : s.allEnded c = true)
    (hstore : s.m.xfers.any (fun (x : Xfer) => x.core == c.val && x.isStore) = false)
    (htile : s.mx.tiles.any (fun t => t.mc == c.val && t.st == .closed) = false) (he : s.engineFaults c = []) :
    TaskEnded s (s.tryEnd c) c := by
  have hc := c.isLt
  rw [State.tryEnd_of_done hall hstore htile he]
  refine ⟨?_, fun p hp => ?_, fun hgood => ?_⟩
  · rw [State.taskState, State.fld_sendTok]
    · exact State.taskState_setTaskState ..
    all_goals
      simp only [CL_TASK_STATE_STATE, ERR_LOST_LOW, ERR_LOST_HIGH, Fld.at_key]
      omega
  · have hp8 := State.corePart_lt hp
    have hflags : (s.keepFlags c).fld (NUM_STEP_FLAGS_FLAGS p)
        = (s.fld (NUM_STEP_FLAGS_FLAGS p) ||| (s.allFlags c).toNat) % 2 ^ (NUM_STEP_FLAGS_FLAGS p).len := by
      simp only [State.keepFlags, hp]
      exact State.fld_setFld ..
    have hgo : ((s.keepFlags c).letGo c).regs = (s.keepFlags c).regs := by simp [State.letGo]
    rw [State.fld_sendTok, State.setTaskState, State.fld_setFld_ne, State.fld, hgo]
    · exact hflags
    all_goals
      simp only [CL_TASK_STATE_STATE, NUM_STEP_FLAGS_FLAGS, clusterOf, subOf, ERR_LOST_LOW, ERR_LOST_HIGH, Fld.at_key]
      omega
  · rw [State.sendTok_of_good hgood]
    simp [State.letGo, State.e_keepFlags]

/-- Counting an instruction and noting its turn leave what the end of a task left. -/
theorem TaskEnded.issued {s u : State} {c : Fin 800} (h : TaskEnded s u c) (t pc : Nat) :
    TaskEnded s ((u.countIssue c).tookTurn c t pc) c := by
  have hc := c.isLt
  refine ⟨?_, fun p hp => ?_, fun hgood => ?_⟩
  · rw [State.taskState, State.fld_tookTurn, State.fld_countIssue]
    · exact h.state
    · simp only [CL_TASK_STATE_STATE, TC_ISSUED_COUNT, Fld.at_key]
      omega
  · have hp8 := State.corePart_lt hp
    rw [State.fld_tookTurn, State.fld_countIssue]
    · exact h.flags p hp
    · simp only [NUM_STEP_FLAGS_FLAGS, TC_ISSUED_COUNT, clusterOf, subOf, Fld.at_key]
      omega
  · simpa using h.signal hgood

theorem State.taskState_issued (s : State) (c : Fin 800) (t pc : Nat) :
    ((s.countIssue c).tookTurn c t pc).taskState c = s.taskState c := by
  rw [State.taskState, State.fld_tookTurn, State.fld_countIssue]
  · rfl
  · simp only [CL_TASK_STATE_STATE, TC_ISSUED_COUNT, Fld.at_key]
    omega

theorem end_of_opened {s : State} {c : Fin 800} {t : Fin 16} {f : Fields} (h : Issues s c t f {} [])
    (hf : fieldsBad {} f = false) (hopen : s.mx.tiles.any (fun x => x.mc == c.val && x.st == .opened) = true) :
    exec (.end_ c t f) s = .next (raised s c t 0 0x29 f fcHandle) := by
  refine (Eq.trans (b := execEnd c t f s) rfl (issue_of_issues h 0 0x29 _ hf
    (windowBad_of_no_vector (by decide) (by decide) (by decide) (by decide) rfl _ _))).trans ?_
  simp only [hopen, if_true]
  rfl

theorem endsOfTasks : endOfTaskLaw := by
  intro c t f s opened d hi hf
  refine ⟨fun hopen => ?_, end_of_opened hi hf⟩
  have hready := hi.2.2.1
  have hruns : s.taskRuns c = true := by
    simp only [State.threadReady, Bool.and_eq_true] at hready
    exact hready.1.1.1
  rw [end_of_issues hi hf hopen]
  refine ⟨_, rfl, ?_, fun r => ?_, fun hended hstore htile he => ?_, fun hother => ?_⟩
  · rw [State.stat_tookTurn, State.stat_countIssue, State.stat_tryEnd, State.stat_setStat]
  · rw [State.sreg_tookTurn, State.sreg_countIssue, State.sreg_tryEnd, State.sreg_setStat]
  · have hdone := (taskEnded_tryEnd (State.allEnded_setStat hruns hended) hstore htile he).issued t (s.pc c t)
    exact ⟨hdone.state, hdone.flags, hdone.signal⟩
  · rw [tryEnd_of_other hother, State.taskState_issued]
    exact beq_iff_eq.1 hruns

end Sys2Proof.Machine

section
open Sys2Proof Sys2Proof.Machine

/-- Settles O22: a task ends with its last thread, whose end keeps the flags and sends the signal. -/
theorem taskEndsAndHalts : Obligations.TaskEndsAndHalts := ⟨endsOfTasks, taskHalts, channelOpens⟩

end
end

section

/-! PROOF. MXM, MLDP, MDROP, MDRAIN and MBCNT that run (04 R145 to R148, R170, R174). -/

namespace Sys2Proof.Machine

variable {s : State} {c : Fin 800} {t : Fin 16} {f : Fields}

/-- On a matrix core class 2 is no reserved encoding (04 R145). -/
theorem runs_of_matrix {u : Uses} {bad : Bool} (hm : isMatrix c = true) (h : Runs s c t f u bad) :
    Runs s c t f u (!isMatrix c || bad) := by
  rwa [hm, Bool.not_true, Bool.false_or]

/-! ### MXM -/

/-- `u` has the queue of MXMs, the barge credits, the tile handles and the program counters of `s`. -/
structure QueueKept (u s : State) : Prop where
  mxms : u.mx.mxms = s.mx.mxms
  credits : u.mx.credits = s.mx.credits
  handles : u.core.thandles = s.core.thandles
  pcs : u.core.pcs = s.core.pcs

theorem QueueKept.refl (s : State) : QueueKept s s := ⟨rfl, rfl, rfl, rfl⟩

theorem QueueKept.trans {u v : State} (h : QueueKept u v) (h' : QueueKept v s) : QueueKept u s :=
  ⟨h.mxms.trans h'.mxms, h.credits.trans h'.credits, h.handles.trans h'.handles, h.pcs.trans h'.pcs⟩

theorem QueueKept.next {u : State} (h : QueueKept u s) (core t : Nat) : u.next core t = s.next core t := by
  rw [State.next, State.next, State.pc, State.pc, h.pcs]

theorem QueueKept.creditsHeld {u : State} (h : QueueKept u s) (core : Nat) : u.creditsHeld core = s.creditsHeld core := by
  rw [State.creditsHeld, State.creditsHeld, h.credits]

theorem QueueKept.handle {u : State} (h : QueueKept u s) (core r : Nat) : u.handle core r = s.handle core r := by
  rw [State.handle, State.handle, h.handles]

theorem queueKept_predict (s : State) (core : Nat) (f : Fields) : QueueKept (s.predict core f).2.2 s := by
  unfold State.predict
  dsimp only
  (repeat' split) <;> exact ⟨rfl, rfl, rfl, rfl⟩

theorem queueKept_claimBand (s : State) (core : Nat) (f : Fields) (b : Nat) : QueueKept (s.claimBand core f b) s := by
  unfold State.claimBand
  dsimp only
  (repeat' split) <;> exact ⟨rfl, rfl, rfl, rfl⟩

theorem queueKept_claimBands (core : Nat) (f : Fields) (bs : List Nat) (s : State) :
    QueueKept (bs.foldl (fun s b => s.claimBand core f b) s) s := by
  induction bs generalizing s with
  | nil => exact .refl s
  | cons b bs ih => exact (ih (s.claimBand core f b)).trans (queueKept_claimBand s core f b)

theorem queueKept_fixK (s : State) (core r k : Nat) (isStream : Bool) : QueueKept (s.fixK core r k isStream) s := by
  unfold State.fixK
  dsimp only
  (repeat' split) <;> exact ⟨rfl, rfl, rfl, rfl⟩

/-- K of an MXM, by the types of its two operands. -/
def State.mxmK (s : State) (core : Nat) (f : Fields) : Nat :=
  kOf ((s.srcTy core f.srca.toNat (modBit f 17)).getD .bf16) ((s.otherTy core f).getD .bf16)

/-- The state in which an MXM that issues has numbered its prediction, claimed its bands and laid out its streams. -/
def State.mxmClaims (s : State) (core : Nat) (f : Fields) : State :=
  let k := s.mxmK core f
  let u := ((List.range (mxNb f)).foldl (fun s b => s.claimBand core f b) (s.predict core f).2.2).fixK core f.srca.toNat k
    (modBit f 17)
  if mxMode f == 2 then u.fixK core f.srcb.toNat k (modBit f 18) else u

/-- An MXM joins its engine's queue and takes its credits. -/
def State.joinMxm (s : State) (core : Nat) (x : Mxm) : State :=
  let s := s.addCredits core (Int.ofNat (mxCloses x.word))
  { s with m := { s.m with nextId := s.m.nextId + 1 }, mx := { s.mx with mxms := s.mx.mxms ++ [x] } }

theorem queueKept_mxmClaims (s : State) (core : Nat) (f : Fields) : QueueKept (s.mxmClaims core f) s := by
  have hfirst := ((queueKept_fixK _ core f.srca.toNat (s.mxmK core f) (modBit f 17)).trans
    (queueKept_claimBands core f (List.range (mxNb f)) _)).trans (queueKept_predict s core f)
  unfold State.mxmClaims
  dsimp only
  split
  · exact (queueKept_fixK ..).trans hfirst
  · exact hfirst

theorem mxms_joinMxm (s : State) (core : Nat) (x : Mxm) : (s.joinMxm core x).mx.mxms = s.mx.mxms ++ [x] := rfl

theorem creditsHeld_joinMxm (s : State) (core : Nat) (x : Mxm) :
    (s.joinMxm core x).creditsHeld core = s.creditsHeld core + mxCloses x.word := by
  simp [State.joinMxm, State.addCredits, State.creditsHeld]
  omega

theorem creditsHeld_passed (s s' : State) (c : Fin 800) (t : Fin 16) (mc : Nat) :
    (passed s s' c t).creditsHeld mc = s'.creditsHeld mc := by
  simp [State.creditsHeld, passed]

/-- The MXM that joins the queue: typed by the state before it claims its bands, numbered and placed by the one after. -/
def State.newMxm (s u : State) (core t : Nat) (f : Fields) : Mxm :=
  { id := u.m.nextId, mc := core, word := instrWord 2 0 f, pc := u.pc core t
    launch := u.launchNo core, task := u.taskId core, step := u.taskStep core, vslot := u.taskSlot core
    k := s.mxmK core f, tyA := (s.srcTy core f.srca.toNat (modBit f 17)).getD .bf16, tyB := (s.otherTy core f).getD .bf16
    srcA := u.srcOf core f.srca.toNat (modBit f 17)
    srcB := if mxMode f == 2 then u.srcOf core f.srcb.toNat (modBit f 18) else .none
    mask := (s.predict core f).1, audit := (s.predict core f).2.1
    handles := (List.range (mxNb f)).map (fun b => (u.outHandle core f b).toNat)
    started := false, rowsA := [], rowsB := [], plane := none, bad := none, extra := 0, computed := false, toPost := [] }

theorem State.next_addCredits (s : State) (mc : Nat) (d : Int) (core t : Nat) :
    (s.addCredits mc d).next core t = s.next core t := rfl

theorem mxm_of_runs (hm : isMatrix c = true) (h : Runs s c t f (usesMxm f) (mxWordBad f)) (hfaults : s.mxFaults c f = [])
    (hwaits : s.mxWaits c f = false) :
    exec (.mxm c t f) s = .next (passed s ((s.mxmClaims c f).joinMxm c (s.newMxm (s.mxmClaims c f) c t f)) c t) := by
  refine (issue_go_of_runs (runs_of_matrix hm h) ?_ : execMxm c t f s = _)
  rw [← (queueKept_mxmClaims s c f).next c t]
  -- each rewriting keeps its own step in the proof: one comparison of the two states would unfold the claims
  simp -implicitDefEqProofs only [hfaults, hwaits, Bool.false_eq_true, if_false, State.newMxm, State.mxmClaims, State.mxmK,
    State.next_addCredits, State.joinMxm]

theorem mxm_stays (hm : isMatrix c = true) (h : Runs s c t f (usesMxm f) (mxWordBad f)) (hfaults : s.mxFaults c f = [])
    (hwaits : s.mxWaits c f = true) : exec (.mxm c t f) s = .next (s.missTurn c t (instrWord 2 0 f)) := by
  refine (issue_stay_of_runs (runs_of_matrix hm h) ?_ : execMxm c t f s = _)
  simp only [hfaults, hwaits, if_true]

/-! ### MLDP -/

/-- Laying out a stream's rows leaves the element type of every source. -/
theorem srcTy_fixK (s : State) (core r k : Nat) (isStream : Bool) :
    (s.fixK core r k isStream).srcTy core r isStream = s.srcTy core r isStream := by
  unfold State.fixK
  dsimp only
  split
  · next hq =>
    split
    · rw [State.srcTy, State.srcTy, if_pos hq, if_pos hq, State.stream_setStream]
      rfl
    · rfl
  · rfl

/-- The load that joins the queue of plane loads, numbered by the state in which its stream is laid out. -/
def State.newMldp (s u : State) (core t : Nat) (f : Fields) : Mldp :=
  { id := u.m.nextId, mc := core, word := instrWord 2 1 f, pc := u.pc core t, plane := if modBit f 16 then 1 else 0
    ty := (u.srcTy core f.srca.toNat (modBit f 17)).getD .bf16, k := s.loadK core f.srca.toNat (modBit f 17)
    src := u.srcOf core f.srca.toNat (modBit f 17), started := false, rows := [], bad := none, extra := 0 }

def State.joinMldp (s : State) (l : Mldp) : State :=
  { s with m := { s.m with nextId := s.m.nextId + 1 }, mx := { s.mx with mldps := s.mx.mldps ++ [l] } }

/-- The state in which a load that issues has its stream laid out. -/
def State.mldpLaidOut (s : State) (core : Nat) (f : Fields) : State :=
  s.fixK core f.srca.toNat (s.loadK core f.srca.toNat (modBit f 17)) (modBit f 17)

theorem mldp_of_runs {ty : Ty} (hm : isMatrix c = true)
    (h : Runs s c t f { a := some (if modBit f 17 then .q else .t), mod := 3 } false)
    (hty : s.srcTy c f.srca.toNat (modBit f 17) = some ty) (hop : operandTy ty = true)
    (hfaults : s.srcFaults c f.srca.toNat (s.loadK c f.srca.toNat (modBit f 17)) (modBit f 17) = []) :
    exec (.mldp c t f) s = .next (passed s (State.kickMldp
      ((s.mldpLaidOut c f).joinMldp (s.newMldp (s.mldpLaidOut c f) c t f)) c) c t) := by
  refine (issue_go_of_runs (by rwa [hm]) ?_ : execMldp c t f s = _)
  rw [← (queueKept_fixK s c f.srca.toNat (s.loadK c f.srca.toNat (modBit f 17)) (modBit f 17)).next c t]
  simp -implicitDefEqProofs only [hty, hop, hfaults, if_true, ite_self, List.append_nil, State.newMldp, State.mldpLaidOut,
    State.joinMldp]
  rfl

/-! ### MDROP, MDRAIN, MBCNT -/

/-- MDROP of an OPEN tile that nothing in the engine waits for or names. -/
theorem mdrop_of_runs {tile : Tile} (hm : isMatrix c = true) (h : Runs s c t f { a := some .t } false)
    (hfresh : s.mx.staleRegs.contains (32 * c.val + f.srca.toNat) = false)
    (htile : s.openTile c (s.handle c f.srca.toNat) = some tile)
    (hmxms : ∀ x ∈ s.mxmsOf c, x.started = true ∧ (s.handle c f.srca.toNat).toNat ∉ x.handles)
    (hmldps : ∀ x ∈ s.mldpsOf c, x.started = true) :
    exec (.mdrop c t f) s = .next (passed s (match tile.osPlane with
      | some p => (s.freeTile tile).setPlane c p .empty
      | none => s.freeTile tile) c t) := by
  have hidle : ((s.mxmsOf c).any (fun x => !x.started || x.handles.contains (s.handle c f.srca.toNat).toNat)
      || (s.mldpsOf c).any (fun x => !x.started)) = false := by
    simp only [Bool.or_eq_false_iff, List.any_eq_false, Bool.or_eq_true, Bool.not_eq_true', not_or, List.contains_iff_mem,
      Bool.not_eq_false]
    exact ⟨hmxms, hmldps⟩
  refine (issue_go_of_runs (by rwa [hm]) ?_ : execMdrop c t f s = _)
  simp only [hfresh, Bool.false_eq_true, if_false, htile, hidle]
  rfl

theorem mdrop_of_no_open_tile (hm : isMatrix c = true) (h : Runs s c t f { a := some .t } false)
    (hnone : s.openTile c (s.handle c f.srca.toNat) = none ∨ s.mx.staleRegs.contains (32 * c.val + f.srca.toNat) = true) :
    exec (.mdrop c t f) s = .next (raised s c t 2 2 f fcHandle) := by
  refine (issue_fault_of_runs (by rwa [hm]) ?_ : execMdrop c t f s = _)
  rcases hnone with hopen | hstale
  · simp only [hopen, ite_self]
  · simp only [hstale, if_true]

theorem mdrain_of_runs (hm : isMatrix c = true) (h : Runs s c t f {} false) (hmxms : s.mxmsOf c = [])
    (hmldps : s.mldpsOf c = []) : exec (.mdrain c t f) s = .next (passed s s c t) := by
  refine (issue_go_of_runs (by rwa [hm]) ?_ : execMdrain c t f s = _)
  simp only [hmxms, hmldps, List.isEmpty_nil, Bool.and_self, if_true]

theorem mbcnt_of_runs (hm : isMatrix c = true) (h : Runs s c t f { dst := some .s } false) :
    exec (.mbcnt c t f) s =
      .next (passed s (s.setS c t f.dst.toNat (BitVec.ofNat 64 (16 - s.creditsHeld c))) c t) :=
  (issue_thenNext_of_runs (by rwa [hm]) .. : execMbcnt c t f s = _)

theorem mx_passed (s s' : State) (c : Fin 800) (t : Fin 16) : (passed s s' c t).mx = s'.mx := by
  simp [passed]

theorem matrixIssue : matrixIssueLaw := by
  refine fun c t f s hm => ⟨fun h hfaults => ⟨fun hwaits => ?joins, mxm_stays hm h hfaults⟩,
    fun ty h hty hop hfaults => ?loads, fun tile h hfresh htile hmxms hmldps => ?drops,
    mdrop_of_no_open_tile hm, mdrain_of_runs hm, mbcnt_of_runs hm⟩
  case joins =>
    have hkept := queueKept_mxmClaims s c f
    refine ⟨_, mxm_of_runs hm h hfaults hwaits, s.newMxm (s.mxmClaims c f) c t f, ?_, rfl, rfl, rfl, rfl, ?_, ?_, core_pc_passed ..⟩
    · rw [mx_passed, mxms_joinMxm, hkept.mxms]
    · simp only [State.newMxm, State.outHandle, hkept.handle]
    · rw [creditsHeld_passed, creditsHeld_joinMxm, hkept.creditsHeld]
      rfl
  case loads =>
    refine ⟨_, mldp_of_runs hm h hty hop hfaults, (s.mldpLaidOut c f).joinMldp _,
      s.newMldp (s.mldpLaidOut c f) c t f, rfl, ?_, rfl, ?_, rfl, rfl⟩
    · simp only [State.joinMldp, State.mldpLaidOut, State.fixK_frame]
    · exact congrArg (Option.getD · .bf16) ((srcTy_fixK ..).trans hty)
  case drops =>
    refine ⟨_, mdrop_of_runs hm h hfresh htile hmxms hmldps, ?_, core_pc_passed ..⟩
    rw [mx_passed]
    split <;> rfl

end Sys2Proof.Machine
end

section

/-! PROOF. The events of the matrix engine: MXM_START, MXM_FINISH, BARGE_POST, ARRAY_FAULT, PLANE_READY and PLANE_FREE (04 R147,
R148, R168 to R176). -/

namespace Sys2Proof.Machine

variable {s : State} {mc : Nat}

/-! ### MXM_START -/

/-- An MXM as it starts: with the rows of its tile sources, the plane that it reads and what its sources have found. -/
def State.startedMxm (s : State) (mc : Nat) (x : Mxm) : Mxm :=
  let a := s.capture1 mc x.k x.srcA
  let b := s.capture1 mc x.k x.srcB
  { x with
    started := true, rowsA := a.1, rowsB := b.1
    plane := match s.plane mc (mxPlane x.word) with
      | .full o => if mxSmode x.word == 2 then none else some o
      | _ => none
    bad := a.2.orElse (fun _ => b.2), extra := x.extra + b2n (a.2.isSome && b.2.isSome) }

/-- The oldest MXM that has not started starts when the earlier ones have taken their rows and its operands are ready. -/
theorem mxmStart_of_ready {x : Mxm} (hx : (s.mxmsOf mc).find? (fun x => !x.started) = some x)
    (hearlier : ((s.mxmsOf mc).filter (fun y => decide (y.id < x.id))).all Mxm.entered = true)
    (hplane : s.planeReady x = true) (ha : s.srcReady mc x.id x.k x.srcA = true) (hb : s.srcReady mc x.id x.k x.srcB = true) :
    s.mxmStart mc = ((s.updMxm (s.startedMxm mc x)).feedEngine mc).kickMldp mc := by
  unfold State.mxmStart
  simp only [hx, hearlier, hplane, ha, hb, Bool.not_true, Bool.or_self, Bool.false_eq_true, if_false]
  rfl

/-- An MXM replaced by one of its number stands in the queue. -/
theorem mem_updMxm {x x' : Mxm} (hx : x ∈ s.mx.mxms) (hid : x'.id = x.id) : x' ∈ (s.updMxm x').mx.mxms :=
  List.mem_map.2 ⟨x, hx, if_pos (beq_iff_eq.2 hid.symm)⟩

theorem mem_of_mem_mxmsOf {x : Mxm} (h : x ∈ s.mxmsOf mc) : x ∈ s.mx.mxms := List.mem_of_mem_filter h

/-! ### MXM_FINISH, BARGE_POST -/

theorem mxmFinish_of_computed {s' : State} {x : Mxm} (hx : (s.mxmsOf mc).find? (fun x => mxCloses x.word == 0) = some x)
    (hcomp : s.computeTo x.id (s.mxmsOf mc) = (true, s')) : s.mxmFinish mc = (s'.dropMxm mc x.id).settle mc := by
  simp only [State.mxmFinish, hx, hcomp]

theorem bargePost_of_computed {s' : State} {x x' : Mxm} {b : Nat} {rest : List Nat}
    (hx : (s.mxmsOf mc).find? (fun x => mxCloses x.word != 0) = some x)
    (hcomp : s.computeTo x.id (s.mxmsOf mc) = (true, s')) (hx' : s'.mx.mxms.find? (fun y => y.id == x.id) = some x')
    (hpost : x'.toPost = b :: rest) :
    s.bargePost mc = ((if rest.isEmpty then (s'.postTile x' b).dropMxm mc x'.id
      else (s'.postTile x' b).updMxm { x' with toPost := rest }).settle mc).tryEnd mc := by
  simp only [State.bargePost, hx, hcomp, hx', hpost]

/-! ### ARRAY_FAULT -/

/-- The faults of operations of earlier tasks are dropped first. -/
def State.pastDropped (s : State) (mc : Nat) : State :=
  s.discardMxms mc (fun x => x.bad.isSome && x.launch != s.launchNo mc)

theorem arrayFault_eq (s : State) (mc : Nat) : s.arrayFault mc =
    if ((s.pastDropped mc).engineFaults mc).isEmpty then s.pastDropped mc
    else if (s.pastDropped mc).taskRuns mc then (s.pastDropped mc).engineFault mc else (s.pastDropped mc).engineStop mc := rfl

/-- The oldest operation of the task that has found a fault stops it; the others are counted in EXTRA. -/
theorem arrayFault_of_running {id pc : Nat} {w : Word} {b : FInfo} {rest : List (Nat × Nat × Word × FInfo)}
    (hfaults : (s.pastDropped mc).engineFaults mc = (id, pc, w, b) :: rest) (hruns : (s.pastDropped mc).taskRuns mc = true) :
    s.arrayFault mc = (s.pastDropped mc).taskFault mc 0 pc b rest.length w := by
  have hstop : (s.pastDropped mc).engineFault mc = (s.pastDropped mc).taskFault mc 0 pc b rest.length w := by
    simp only [State.engineFault, hfaults, Nat.add_zero]
  rw [arrayFault_eq, hfaults, if_neg (by simp), if_pos hruns, hstop]

theorem arrayFault_of_stopped {f : Nat × Nat × Word × FInfo} {rest : List (Nat × Nat × Word × FInfo)}
    (hfaults : (s.pastDropped mc).engineFaults mc = f :: rest) (hruns : (s.pastDropped mc).taskRuns mc = false) :
    s.arrayFault mc = (s.pastDropped mc).engineStop mc := by
  rw [arrayFault_eq, hfaults, if_neg (by simp), if_neg (by simp [hruns])]

/-! ### PLANE_READY -/

/-- A load that runs and has its rows fills its plane; the next may then start. -/
theorem planeDone_of_loaded {p : Nat} {l : Mldp} (hl : (s.mldpsOf mc).head? = some l) (hp : l.plane = p)
    (hstart : l.started = true) (hbad : l.bad = none) (hrows : ∀ q, l.src = .stream q → 256 ≤ l.rows.length) :
    s.planeDone mc p = (((s.setPlane mc p (.full ⟨l.ty, l.k, l.rows⟩)).dropMldp l.id).kickMldp mc).settle mc := by
  unfold State.planeDone
  simp only [hl, hp, hstart, hbad]
  refine if_pos ?_
  simp only [decide_true, Bool.true_and, Option.isNone_none, Bool.and_true]
  split
  · next q hq => exact decide_eq_true (hrows q hq)
  · rfl

theorem matrixEvents : matrixEventsLaw := by
  intro c s hclk
  have hruns (o : Out) : unlessStopped s o = o := unlessStopped_off hclk
  refine ⟨fun x hx hearlier hplane ha hb => ?start, fun x s' hx hcomp => ?finish, fun x s' x' b rest hx hcomp hx' hpost => ?post,
    fun id pc w b rest hfaults => ⟨fun hrun => ?faulted, fun hrun => ?stopped⟩, fun p l hl hp hstart hbad hrows => ?ready,
    fun p l hl hp => ?free⟩
  case start =>
    refine ⟨_, (hruns _ : execMxmStart c s = _), _, _, mxmStart_of_ready hx hearlier hplane ha hb,
      mem_updMxm (mem_of_mem_mxmsOf (List.mem_of_find?_eq_some hx)) rfl, rfl, rfl, rfl, rfl⟩
  case finish => exact (hruns _ : execMxmFinish c s = _).trans (congrArg _ (mxmFinish_of_computed hx hcomp))
  case post => exact (hruns _ : execBargePost c s = _).trans (congrArg _ (bargePost_of_computed hx hcomp hx' hpost))
  case faulted => exact (hruns _ : execArrayFault c s = _).trans (congrArg _ (arrayFault_of_running hfaults hrun))
  case stopped => exact (hruns _ : execArrayFault c s = _).trans (congrArg _ (arrayFault_of_stopped hfaults hrun))
  case ready => exact (hruns _ : execPlaneReady c p s = _).trans (congrArg _ (planeDone_of_loaded hl hp hstart hbad hrows))
  case free =>
    refine (hruns _ : execPlaneFree c p s = _).trans ?_
    simp only [hl, hp, if_true]

end Sys2Proof.Machine
end

section

/-! PROOF. What an output element holds: runs, totals, and the place of a total in accumulator memory (02 R71 to R77). -/

namespace Sys2Proof.Machine

/-! ### Runs (02 R71, R72, R75) -/

/-- A run goes on with one K index after those before it. -/
theorem runOf_append_singleton (ta tb : Ty) {a b : List OpEl} (x y : OpEl) (h : a.length = b.length) :
    runOf ta tb (a ++ [x]) (b ++ [y]) = runStep ta tb (runOf ta tb a b) (a.length, x, y) := by
  have hzip : (List.range (a ++ [x]).length).zip ((a ++ [x]).zip (b ++ [y]))
      = (List.range a.length).zip (a.zip b) ++ [(a.length, x, y)] := by
    rw [List.length_append, List.length_singleton, List.range_succ, List.zip_append h, List.zip_append (by simp [h])]
    rfl
  rw [runOf, hzip, List.foldl_append]
  rfl

theorem runStep_padding (ta tb : Ty) (acc : Nat × Ev) (k : Nat) {x y : OpEl} (h : x = none ∨ y = none) :
    runStep ta tb acc (k, x, y) = acc := by
  rcases h with rfl | rfl
  · rfl
  · cases x <;> rfl

/-- The product of two elements of an integer run; padding forms none. -/
def intProduct (ta tb : Ty) : OpEl × OpEl → Int
  | (some u, some v) => ta.readInt u.1 * tb.readInt v.1
  | _ => 0

theorem intRun_eq_sum (ta tb : Ty) (a b : List OpEl) : intRun ta tb a b = ((a.zip b).map (intProduct ta tb)).sum := by
  rw [List.sum_eq_foldl, List.foldl_map, intRun]
  congr 1
  funext acc x
  rcases x with ⟨_ | u, _ | v⟩
  case some.some => rfl
  all_goals exact (Int.add_zero acc).symm

/-! ### Totals (02 R73, R74, R76) -/

theorem element_float {ta : Ty} (h : int8Ty ta = false) (tb total : Ty) (k o : Nat) (a b : List OpEl) :
    (element ta tb total k a b none).1 = (if total = .xa then (widen fmtFP32 fmtXA (runOf ta tb a b).1).v
        else (runOf ta tb a b).1)
    ∧ (element ta tb total k a b (some o)).1 = (if total = .xa then (fAdd fmtXA o (widen fmtFP32 fmtXA (runOf ta tb a b).1).v).v
        else (fAdd fmtFP32 o (runOf ta tb a b).1).v) := by
  by_cases ht : total = .xa <;> simp [element, promote, h, ht]

/-- An integer cut to INT32 stops at the ends of its range, and tells so. -/
theorem satInt_int32 (i : Int) : (satInt .int32 i 0).v = wrapInt 32 (max (-2 ^ 31) (min (2 ^ 31 - 1) i))
    ∧ ((satInt .int32 i 0).cause ≠ 0 ↔ i < -2 ^ 31 ∨ 2 ^ 31 - 1 < i) := by
  have hmin : Ty.int32.intMin = -2 ^ 31 := by decide
  have hmax : Ty.int32.intMax = 2 ^ 31 - 1 := by decide
  have hbits : Ty.int32.bits = 32 := rfl
  simp only [satInt, hmin, hmax, hbits]
  split
  · next hlow =>
    rw [max_eq_left (by omega)]
    exact ⟨rfl, iff_of_true (by decide) (.inl hlow)⟩
  · next hlow =>
    split
    · next hhigh =>
      rw [min_eq_left (by omega), max_eq_right (by omega)]
      exact ⟨rfl, iff_of_true (by decide) (.inr hhigh)⟩
    · next hhigh =>
      rw [min_eq_right (by omega), max_eq_right (by omega)]
      exact ⟨rfl, iff_of_false (fun h => h rfl) (by omega)⟩

/-- A later instruction adds its integer run to the total in INT32, with OVERFLOW where the sum does not fit. -/
theorem promoteInt_some (k o : Nat) (run : Int) :
    (promoteInt k (some o) run).1 = wrapInt 32 (max (-2 ^ 31) (min (2 ^ 31 - 1) (signed 32 o + run)))
    ∧ ((promoteInt k (some o) run).2.fl &&& flOverflow ≠ 0 ↔ signed 32 o + run < -2 ^ 31 ∨ 2 ^ 31 - 1 < signed 32 o + run) := by
  obtain ⟨hv, hcause⟩ := satInt_int32 (signed 32 o + run)
  refine ⟨hv, Iff.trans ?_ hcause⟩
  simp only [promoteInt, Ev.note, Ev.none]
  split
  · next h0 => exact iff_of_false (by decide) (fun h => h h0)
  · next h0 => exact iff_of_true (by decide) h0

/-! ### A tile's totals, row by row -/

/-- The total at row `i`, column `j` of a band after an instruction without a mask. -/
def Mxm.totalAt (x : Mxm) (tile : Tile) (b w : Nat) (old : Nat → Nat → Nat) (i j : Nat) : Nat :=
  (element (x.sides b w).1.1 (x.sides b w).2.1 (totalTy (BitVec.ofNat 64 tile.handle)) x.k
    (rowAt (x.sides b w).1.2 i x.k) (rowAt (x.sides b w).2.2 j x.k) (if mxOpen x.word b then none else some (old i j))).1

theorem getD_getD_computeTile {x : Mxm} (hmask : x.mask = none) (tile : Tile) (b : Nat) {w i j : Nat}
    (old : Nat → Nat → Nat) (hi : i < 256) (hj : j < w) :
    ((x.computeTile tile b w old).1.getD i []).getD j 0 = x.totalAt tile b w old i j := by
  simp only [Mxm.computeTile, hmask, colOn, if_true, List.map_map]
  simp [List.getD_eq_getElem?_getD, hi, hj, Mxm.totalAt]

/-- A band's totals are 256 rows of its width. -/
theorem computeTile_rows (x : Mxm) (tile : Tile) (b w : Nat) (old : Nat → Nat → Nat) :
    (x.computeTile tile b w old).1.length = 256 ∧ ∀ row ∈ (x.computeTile tile b w old).1, row.length = w := by
  simp only [Mxm.computeTile]
  constructor
  · simp
  · intro row hrow
    simp only [List.mem_map] at hrow
    obtain ⟨_, ⟨i, -, rfl⟩, rfl⟩ := hrow
    simp

/-! ### Their place in accumulator memory (04 R165) -/

/-- Lists of one length laid one after another: the `k`-th of them. -/
theorem take_drop_flatMap {α β : Type} {f : α → List β} {n : Nat} {l : List α} (hf : ∀ a ∈ l, (f a).length = n) {k : Nat} {a : α}
    (h : l[k]? = some a) : ((l.flatMap f).drop (k * n)).take n = f a := by
  induction l generalizing k with
  | nil => simp at h
  | cons x l ih =>
    have hx : (f x).length = n := hf x (by simp)
    cases k with
    | zero =>
      obtain rfl : x = a := by simpa using h
      rw [Nat.zero_mul, List.drop_zero, List.flatMap_cons, List.take_left' hx]
    | succ k =>
      rw [List.flatMap_cons, Nat.succ_mul, Nat.add_comm, ← List.drop_drop, List.drop_left' hx]
      exact ih (fun y hy => hf y (by simp [hy])) (by simpa using h)

theorem length_flatMap_of_length {α β : Type} {f : α → List β} {n : Nat} {l : List α} (hf : ∀ a ∈ l, (f a).length = n) :
    (l.flatMap f).length = l.length * n := by
  rw [List.length_flatMap, List.map_congr_left hf, List.map_const', List.sum_replicate, smul_eq_mul]

/-- Row `i`, column `j` of rows laid one after another. -/
theorem getElem?_flatMap_rows {rows : List (List Nat)} {w i j : Nat} (hrows : ∀ row ∈ rows, row.length = w)
    (hi : i < rows.length) (hj : j < w) : (rows.flatMap id)[i * w + j]? = some ((rows.getD i []).getD j 0) := by
  have hrow := take_drop_flatMap (f := id) hrows (List.getElem?_eq_getElem hi)
  have hlen : rows[i].length = w := hrows _ (List.getElem_mem hi)
  rw [← List.getElem?_drop, ← List.getElem?_take_of_lt hj, hrow, id, List.getElem?_eq_getElem (by omega)]
  simp [List.getD_eq_getElem?_getD, hi, hlen, hj]

/-- Bytes read from among those written. -/
theorem Mem.rdBytes_wrBytes_in (m : Mem) (a off n : Nat) (l : List Byte) (h : off + n ≤ l.length) :
    (m.wrBytes a l).rdBytes (a + off) n = (l.drop off).take n := by
  induction n generalizing off with
  | zero => simp [Mem.rdBytes]
  | succ n ih =>
    rw [Mem.rdBytes, Mem.rd_wrBytes_in _ _ _ _ (by omega), Nat.add_assoc, ih (off + 1) (by omega),
      List.drop_eq_getElem_cons (by omega : off < l.length), List.take_succ_cons, List.getD_eq_getElem _ _ (by omega)]

/-- A number among numbers of `n` bytes written one after another. -/
theorem Mem.rdLE_wrBytes_flatMap (m : Mem) (a n : Nat) {l : List Nat} {k v : Nat} (h : l[k]? = some v) :
    (m.wrBytes a (l.flatMap (leBytes n))).rdLE (a + k * n) n = v % 256 ^ n := by
  have hlen : ∀ x ∈ l, (leBytes n x).length = n := fun x _ => length_leBytes n x
  have hk : k < l.length := (List.getElem?_eq_some_iff.1 h).1
  have hfits : k * n + n ≤ (l.flatMap (leBytes n)).length := by
    rw [length_flatMap_of_length hlen, ← Nat.succ_mul]
    exact Nat.mul_le_mul_right n hk
  rw [Mem.rdLE, Mem.rdBytes_wrBytes_in _ _ _ _ _ hfits, take_drop_flatMap hlen h, leNat_leBytes]

/-- A tile that stays open in accumulator memory has its totals written there. -/
theorem mem_computeBand {x : Mxm} {b h : Nat} {s : State} {tile : Tile} (hh : x.handles[b]? = some h)
    (htile : s.mx.tiles.find? (fun t => t.mc == x.mc && t.handle == h && (t.st == .opened || t.st == .closed)) = some tile)
    (hclose : mxClose x.word b = false) (hos : tile.osPlane = none) :
    (s.computeBand x b).m.mem =
      let w := 256 / mxBands x.word
      let hw := BitVec.ofNat 64 h
      (s.writeAcc x.mc (thOffset hw) ((thType hw).bits / 8) (x.computeTile tile b w (s.oldTotals tile w)).1).m.mem := by
  simp only [State.computeBand, hh, htile, hclose, hos]
  rfl

/-- Rows of one width written where they fit read back by row and column. -/
theorem rdLE_writeAcc {s : State} {mc off size w i j : Nat} {rows : List (List Nat)} (hrows : ∀ row ∈ rows, row.length = w)
    (hfits : off + rows.length * w * size ≤ accBytes) (hi : i < rows.length) (hj : j < w) :
    (s.writeAcc mc off size rows).m.mem.rdLE (keyAcc mc (off + (i * w + j) * size)) size =
      (rows.getD i []).getD j 0 % 2 ^ (8 * size) := by
  have hlen : ((rows.flatMap id).flatMap (leBytes size)).length ≤ accBytes - off := by
    rw [length_flatMap_of_length (fun x _ => length_leBytes size x), length_flatMap_of_length (f := id) hrows]
    omega
  have hkey : keyAcc mc (off + (i * w + j) * size) = keyAcc mc off + (i * w + j) * size := (Nat.add_assoc ..).symm
  simp only [State.writeAcc, State.wrB, List.take_of_length_le hlen]
  rw [hkey, Mem.rdLE_wrBytes_flatMap _ _ _ (getElem?_flatMap_rows hrows hi hj), Nat.pow_mul]

theorem matrixElement : matrixElementLaw := by
  refine ⟨fun ta tb => ⟨rfl, fun a b x y hlen => ⟨?product, ?padding⟩⟩, fun ta tb total k o a b hta => element_float hta ..,
    fun ta tb total k o a b hta => ?int, fun x tile b w i j old hmask hi hj => getD_getD_computeTile hmask tile b old hi hj,
    fun x tile b i j h s hh htile hclose hos => ?place⟩
  case product =>
    rintro u v rfl rfl
    rw [runOf_append_singleton ta tb _ _ hlen]
    rfl
  case padding =>
    intro h
    rw [runOf_append_singleton ta tb _ _ hlen, runStep_padding ta tb _ _ h]
  case int =>
    intro run sum
    have hrun : intRun ta tb a b = run := intRun_eq_sum ta tb a b
    have helement (old : Option Nat) : element ta tb total k a b old = promoteInt k old run := by
      rw [element, if_pos hta, hrun]
    obtain ⟨hv, hfl⟩ := promoteInt_some k o run
    exact ⟨by rw [helement]; rfl, by rw [helement]; exact hv, by rw [helement]; exact hfl⟩
  case place =>
    intro hw size w hfits hi hj
    obtain ⟨hrows, hwidth⟩ := computeTile_rows x tile b w (s.oldTotals tile w)
    rw [mem_computeBand hh htile hclose hos]
    exact rdLE_writeAcc hwidth (by rwa [hrows]) (by rwa [hrows]) hj

end Sys2Proof.Machine
end

section
open Sys2Proof Sys2Proof.Machine

/-- Settles O29: the instructions by the cases of their bodies, the events by the operation that they find in the queues, and an
element by its run, its total and the place where the total is written. -/
theorem matrixEngine : Obligations.MatrixEngine := ⟨matrixIssue, matrixEvents, matrixElement⟩

end

section
/-! PROOF. Fields of numbers and elements of registers: what a field reads after others are written (03 R100, R101). -/

namespace Sys2Proof.Machine

/-! ### Fields of a number -/

theorem testBit_bits (n lo len i : Nat) : (bits n lo len).testBit i = (decide (i < len) && n.testBit (lo + i)) := by
  rw [bits, Nat.testBit_mod_two_pow, Nat.testBit_shiftRight]

theorem bits_zero (n len : Nat) : bits n 0 len = n % 2 ^ len := rfl

/-- A number is its part above a field, the field, and its part below. -/
theorem setBits_eq_append (n lo len v : Nat) :
    setBits n lo len v = 2 ^ lo * (2 ^ len * (n / 2 ^ lo / 2 ^ len) + v % 2 ^ len) + n % 2 ^ lo := by
  have hn := Nat.div_add_mod n (2 ^ lo)
  have hh := Nat.div_add_mod (n / 2 ^ lo) (2 ^ len)
  have hdist : 2 ^ lo * (n / 2 ^ lo) =
      2 ^ lo * (2 ^ len * (n / 2 ^ lo / 2 ^ len)) + 2 ^ lo * (n / 2 ^ lo % 2 ^ len) := by
    rw [← Nat.mul_add, hh]
  rw [setBits, bits_eq_div, Nat.mul_comm _ (2 ^ lo), Nat.mul_comm _ (2 ^ lo), Nat.mul_add]
  omega

theorem testBit_setBits (n lo len v i : Nat) :
    (setBits n lo len v).testBit i = if lo ≤ i ∧ i < lo + len then v.testBit (i - lo) else n.testBit i := by
  rw [setBits_eq_append, Nat.testBit_two_pow_mul_add _ (Nat.mod_lt _ (Nat.two_pow_pos lo))]
  by_cases hlo : i < lo
  · rw [if_pos hlo, if_neg (by omega), Nat.testBit_mod_two_pow, decide_eq_true hlo, Bool.true_and]
  · rw [if_neg hlo, Nat.testBit_two_pow_mul_add _ (Nat.mod_lt _ (Nat.two_pow_pos len))]
    by_cases hlen : i - lo < len
    · rw [if_pos hlen, if_pos (by omega), Nat.testBit_mod_two_pow, decide_eq_true hlen, Bool.true_and]
    · rw [if_neg hlen, if_neg (by omega), Nat.testBit_div_two_pow, Nat.testBit_div_two_pow]
      congr 1
      omega

/-- The low bits of a field that was just written. -/
theorem bits_setBits_low (n lo v : Nat) {k len : Nat} (h : k ≤ len) : bits (setBits n lo len v) lo k = v % 2 ^ k := by
  refine Nat.eq_of_testBit_eq fun i => ?_
  rw [testBit_bits, testBit_setBits, Nat.testBit_mod_two_pow]
  by_cases hi : i < k
  · rw [if_pos (by omega), Nat.add_sub_cancel_left]
  · simp [hi]

/-- A field apart from the one written. -/
theorem bits_setBits_apart {lo len a k : Nat} (n v : Nat) (h : a + k ≤ lo ∨ lo + len ≤ a) :
    bits (setBits n lo len v) a k = bits n a k := by
  refine Nat.eq_of_testBit_eq fun i => ?_
  rw [testBit_bits, testBit_bits, testBit_setBits]
  by_cases hi : i < k
  · rw [if_neg (by omega)]
  · simp [hi]

/-- A field within the width of the word that holds a number. -/
theorem bits_toNat_ofNat {lo len w : Nat} (n : Nat) (h : lo + len ≤ w) :
    bits (BitVec.ofNat w n).toNat lo len = bits n lo len := by
  refine Nat.eq_of_testBit_eq fun i => ?_
  rw [testBit_bits, testBit_bits, BitVec.toNat_ofNat, Nat.testBit_mod_two_pow]
  by_cases hi : i < len
  · rw [decide_eq_true (show lo + i < w by omega), Bool.true_and]
  · simp [hi]

/-- The low bits of a field. -/
theorem bits_mod_low (n lo : Nat) {k len : Nat} (h : k ≤ len) : bits n lo len % 2 ^ k = bits n lo k := by
  rw [bits, bits, Nat.mod_mod_of_dvd _ (Nat.pow_dvd_pow 2 h)]

/-- Places of one width lie one after another. -/
theorem mul_add_le_mul_of_lt {i j : Nat} (h : i < j) (w : Nat) : i * w + w ≤ j * w := by
  rw [← Nat.succ_mul]
  exact Nat.mul_le_mul_right w h

/-- Lanes of one width written in turn: a field at the foot of a lane holds what was written to it, or what it held. -/
theorem bits_foldl_setBits {w k len : Nat} (hk : k ≤ len) (hlen : len ≤ w) (l : List Nat) (g : Nat → Nat)
    (old i : Nat) : bits (l.foldl (fun acc j => setBits acc (j * w) len (g j)) old) (i * w) k =
      if i ∈ l then g i % 2 ^ k else bits old (i * w) k := by
  induction l generalizing old with
  | nil => simp
  | cons j l ih =>
    rw [List.foldl_cons, ih]
    by_cases hl : i ∈ l
    · simp [hl]
    · by_cases hij : i = j
      · subst hij
        simp [hl, bits_setBits_low _ _ _ hk]
      · have hapart : i * w + k ≤ j * w ∨ j * w + len ≤ i * w := by
          rcases Nat.lt_or_gt_of_ne hij with h | h
          · exact .inl (by have := mul_add_le_mul_of_lt h w; omega)
          · exact .inr (by have := mul_add_le_mul_of_lt h w; omega)
        simp [hl, hij, bits_setBits_apart _ _ hapart]

/-! ### Elements of a register -/

theorem Ty.bits_le_lane (ty : Ty) : ty.bits ≤ ty.lane := by
  cases ty <;> decide

/-- The elements of a type fit in a register. -/
theorem Ty.lane_fits {ty : Ty} {i : Nat} (h : i < ty.count) : i * ty.lane + ty.lane ≤ 2048 :=
  (mul_add_le_mul_of_lt h ty.lane).trans (Nat.div_mul_le_self 2048 ty.lane)

theorem Ty.two_dvd_count (ty : Ty) : 2 ∣ ty.count := by
  cases ty <;> decide

theorem elemOf_lt (ty : Ty) (v : VWord) (i : Nat) : elemOf ty v i < 2 ^ ty.bits := Nat.mod_lt _ (Nat.two_pow_pos _)

@[simp] theorem elemOf_mod (ty : Ty) (v : VWord) (i : Nat) : elemOf ty v i % 2 ^ ty.bits = elemOf ty v i :=
  Nat.mod_eq_of_lt (elemOf_lt ty v i)

/-- The low bits of a container are its element. -/
@[simp] theorem laneBits_mod (ty : Ty) (v : VWord) (i : Nat) : laneBits ty v i % 2 ^ ty.bits = elemOf ty v i :=
  bits_mod_low _ _ ty.bits_le_lane

/-- A container of a type without padding is its element. -/
theorem laneBits_eq_elemOf {ty : Ty} (h : ty.lane = ty.bits) (v : VWord) (i : Nat) : laneBits ty v i = elemOf ty v i := by
  rw [laneBits, elemOf, h]

theorem elemOf_ofNat {ty : Ty} {i : Nat} (n : Nat) (h : i < ty.count) :
    elemOf ty (BitVec.ofNat 2048 n) i = bits n (i * ty.lane) ty.bits := by
  have hlane := Ty.lane_fits h
  have hbits := ty.bits_le_lane
  exact bits_toNat_ofNat n (by omega)

/-! ### The active elements replaced -/

theorem mem_actives {ty : Ty} {m : MWord} {i : Nat} : i ∈ actives ty m ↔ i < ty.count ∧ m.getLsbD i = true := by
  simp [actives, activeAt]

/-- What a fold leaves beside the flags that it gathers. -/
theorem foldl_with_flags {α : Type} (l : List Nat) (g : α → Nat → α) (fl : Nat → Flags) (a : α) (b : Flags) :
    l.foldl (fun acc i => (g acc.1 i, acc.2 ||| fl i)) (a, b) = (l.foldl g a, l.foldl (fun b i => b ||| fl i) b) := by
  induction l generalizing a b with
  | nil => rfl
  | cons i l ih => exact ih ..

theorem foldl_or_eq (l : List Nat) (fl : Nat → Flags) (b : Flags) :
    l.foldl (fun b i => b ||| fl i) b = b ||| l.foldl (fun b i => b ||| fl i) 0 := by
  induction l generalizing b with
  | nil => simp
  | cons i l ih =>
    rw [List.foldl_cons, ih]
    simp [ih (fl i), BitVec.or_assoc]

/-- A fold of flags that are all zero leaves the flags that it began with. -/
theorem foldl_or_zero {fl : Nat → Flags} {l : List Nat} (h : ∀ i ∈ l, fl i = 0) (b : Flags) :
    l.foldl (fun b i => b ||| fl i) b = b := by
  induction l generalizing b with
  | nil => rfl
  | cons i l ih => simpa [h i] using ih (fun j hj => h j (List.mem_cons_of_mem i hj)) b

theorem mapActive_eq (ty : Ty) (m : MWord) (old : Nat) (g : Nat → NRes) : mapActive ty m old g =
    ((actives ty m).foldl (fun acc i => setBits acc (i * ty.lane) ty.lane ((g i).v % 2 ^ ty.bits)) old,
      (actives ty m).foldl (fun fl i => fl ||| (g i).fl) 0) :=
  foldl_with_flags (actives ty m) (fun acc i => setElem ty acc i (g i).v) (fun i => (g i).fl) old 0

/-- An element after the active ones were replaced, each container by a number that has the element as its low bits. -/
theorem elemOf_mapLanes {ty : Ty} {i : Nat} (m : MWord) (v : VWord) (g : Nat → Nat) (h : i < ty.count) :
    elemOf ty (BitVec.ofNat 2048 (mapLanes ty m v.toNat g)) i =
      if m.getLsbD i then g i % 2 ^ ty.bits else elemOf ty v i := by
  rw [elemOf_ofNat _ h, mapLanes, bits_foldl_setBits ty.bits_le_lane (Nat.le_refl _)]
  simp only [mem_actives, h, true_and]
  rfl

theorem elemOf_mapActive {ty : Ty} {i : Nat} (m : MWord) (v : VWord) (g : Nat → NRes) (h : i < ty.count) :
    elemOf ty (BitVec.ofNat 2048 (mapActive ty m v.toNat g).1) i =
      if m.getLsbD i then (g i).v % 2 ^ ty.bits else elemOf ty v i := by
  rw [mapActive_eq]
  refine (elemOf_mapLanes m v (fun i => (g i).v % 2 ^ ty.bits) h).trans ?_
  rw [Nat.mod_mod]

/-! ### The active elements compared -/

/-- A bit added above a number. -/
theorem testBit_add_pow {a j : Nat} (h : a < 2 ^ j) (p : Bool) (i : Nat) :
    (a + if p then 2 ^ j else 0).testBit i = if i = j then p else a.testBit i := by
  have hj : a.testBit j = false := Nat.testBit_lt_two_pow h
  cases p with
  | false => by_cases hij : i = j <;> simp [hij, hj]
  | true =>
    rw [if_pos rfl, Nat.add_comm, ← Nat.mul_one (2 ^ j), Nat.testBit_two_pow_mul_add 1 h]
    rcases Nat.lt_trichotomy i j with hlt | rfl | hgt
    · rw [if_pos hlt, if_neg (by omega)]
    · simp
    · have ha : a.testBit i = false := Nat.testBit_lt_two_pow (h.trans (Nat.pow_lt_pow_right (by decide) hgt))
      rw [if_neg (by omega), if_neg (by omega), ha, ← Bool.not_eq_true, Nat.testBit_one_eq_true_iff_self_eq_zero]
      omega

/-- Bits added upward. -/
theorem testBit_foldl_add_pow {l : List Nat} (hl : l.Pairwise (· < ·)) (p : Nat → Bool) {a : Nat}
    (ha : ∀ j ∈ l, a < 2 ^ j) (i : Nat) : (l.foldl (fun acc j => acc + if p j then 2 ^ j else 0) a).testBit i =
      if i ∈ l then p i else a.testBit i := by
  induction l generalizing a with
  | nil => simp
  | cons j l ih =>
    obtain ⟨hj, hl⟩ := List.pairwise_cons.1 hl
    have haj : a < 2 ^ j := ha j List.mem_cons_self
    have hnext : ∀ k ∈ l, (a + if p j then 2 ^ j else 0) < 2 ^ k := by
      intro k hk
      have hpow : 2 ^ (j + 1) ≤ 2 ^ k := Nat.pow_le_pow_right (by decide) (hj k hk)
      rw [Nat.pow_succ] at hpow
      split <;> omega
    rw [List.foldl_cons, ih hl hnext, testBit_add_pow haj]
    by_cases hij : i = j <;> simp [hij]

theorem actives_pairwise (ty : Ty) (m : MWord) : (actives ty m).Pairwise (· < ·) := List.pairwise_lt_range.filter _

theorem maskActive_eq (ty : Ty) (m : MWord) (g : Nat → Bool × Flags) : maskActive ty m g =
    ((actives ty m).foldl (fun acc i => acc + if (g i).1 then 2 ^ i else 0) 0,
      (actives ty m).foldl (fun fl i => fl ||| (g i).2) 0) :=
  foldl_with_flags (actives ty m) (fun acc i => acc + if (g i).1 then 2 ^ i else 0) (fun i => (g i).2) 0 0

/-- Bit `i` of the mask that a comparison writes. -/
theorem getLsbD_maskActive (ty : Ty) (m : MWord) (g : Nat → Bool × Flags) {i : Nat} (h : i < 512) :
    (BitVec.ofNat 512 (maskActive ty m g).1).getLsbD i = (decide (i < ty.count) && m.getLsbD i && (g i).1) := by
  rw [BitVec.getLsbD_ofNat, decide_eq_true h, Bool.true_and, maskActive_eq,
    testBit_foldl_add_pow (actives_pairwise ty m) (fun i => (g i).1) (fun _ _ => Nat.two_pow_pos _)]
  by_cases hc : i < ty.count <;> by_cases hm : m.getLsbD i <;> simp [mem_actives, hc, hm]

end Sys2Proof.Machine
end

section
/-! PROOF. What an instruction that writes a vector register or a mask leaves of the rest (05 R180). -/

namespace Sys2Proof.Machine

variable {s s' : State} {c : Fin 800} {t : Fin 16} {f : Fields} {u : Uses} {bad : Bool} {md vd : Option Nat}

/-! ### Registers of a window -/

theorem Runs.thread_lt (h : Runs s c t f u bad) : t.val < s.threads c := by
  obtain ⟨⟨-, -, hready, -⟩, -⟩ := h
  simp only [State.threadReady, Bool.and_eq_true, decide_eq_true_eq] at hready
  obtain ⟨⟨⟨-, hlt⟩, -⟩, -⟩ := hready
  exact hlt

theorem Runs.bad_eq_false (h : Runs s c t f u bad) : bad = false := h.2.2.1

/-- A vector destination lies within the thread's window (03 R103). -/
theorem Runs.vdst_lt (h : Runs s c t f u bad) (hu : u.dst = some .v) : f.dst.toNat < 64 / s.threads c := by
  obtain ⟨-, -, -, hw, -⟩ := h
  simp only [windowBad, hu, Bool.or_eq_false_iff] at hw
  obtain ⟨⟨⟨⟨hdst, -⟩, -⟩, -⟩, -⟩ := hw
  simpa using hdst

/-- No instruction may write m0 (03 R99). -/
theorem Runs.mdst_ne_zero (h : Runs s c t f u bad) (hu : u.dst = some .m) : f.dst.toNat ≠ 0 := by
  obtain ⟨-, hf, -⟩ := h
  simp only [fieldsBad, hu, Bool.or_eq_false_iff] at hf
  intro h0
  have hdst : f.dst = 0 := BitVec.eq_of_toNat_eq h0
  simp [hdst] at hf

theorem State.vreg_setV_of_ne (s : State) {c c' t t' r r' : Nat} (v : VWord) (ht : t < s.threads c)
    (hr : r < 64 / s.threads c) (ht' : t' < s.threads c') (hr' : r' < 64 / s.threads c')
    (h : ¬ (c' = c ∧ t' = t ∧ some r = some r')) : (s.setV c t r v).vreg c' t' r' = s.vreg c' t' r' := by
  refine Tab.get_put_ne _ _ _ _ _ _ fun e => h ?_
  have hphys : s.vphys c' t' r' = s.vphys c t r := e
  have hcore : c' = c := by rw [← State.vphys_div_64 s ht' hr', hphys, State.vphys_div_64 s ht hr]
  subst hcore
  have hwindow : 64 / s.threads c' * t' + r' = 64 / s.threads c' * t + r := by
    simp only [State.vphys, Nat.mul_comm _ (64 / s.threads c')] at hphys
    omega
  obtain ⟨htt, hrr⟩ := regKey_inj hr' hr hwindow
  exact ⟨rfl, htt, congrArg some hrr.symm⟩

theorem State.flags_setFlags_ne (s : State) {c c' : Fin 800} {t t' : Fin 16} (v : Flags) (h : ¬ (c' = c ∧ t' = t)) :
    (s.setFlags c t v).flags c' t' = s.flags c' t' :=
  Tab.get_put_ne _ _ _ _ _ _ fun e => h ⟨Fin.ext (threadKey_inj e).1, (threadKey_inj e).2⟩

theorem flags_passed (s s' : State) (c : Fin 800) (t : Fin 16) (t' : Nat) : (passed s s' c t).flags c t' = s'.flags c t' := by
  simp [passed]

theorem mreg_passed (s s' : State) (c : Fin 800) (t : Fin 16) (r : Nat) : (passed s s' c t).mreg c t r = s'.mreg c t r := by
  simp [passed]

/-! ### The frame of a vector instruction -/

/-- All but the registers named and the flags of the thread is as it was, except its program counter and the count of issued
instructions. -/
def VectorKept (s : State) (c : Fin 800) (t : Fin 16) (md vd : Option Nat) (u : State) : Prop :=
  regsKept s u c t none md vd ∧ coreKept s u c t ∧ u.stat c t = s.stat c t ∧ u.m = s.m

theorem VectorKept.orFlags (h : VectorKept s c t md vd s') (fl : Flags) : VectorKept s c t md vd (s'.orFlags c t fl) := by
  obtain ⟨hregs, ⟨hother, hrest⟩, hstat, hm⟩ := h
  refine ⟨hregs, ⟨fun c' t' hne => ?_, hrest⟩, hstat, hm⟩
  obtain ⟨hpc, hst, hfl⟩ := hother c' t' hne
  exact ⟨hpc, hst, (State.flags_setFlags_ne s' _ hne).trans hfl⟩

theorem VectorKept.setV (v : VWord) {r : Nat} (ht : t.val < s.threads c) (hr : r < 64 / s.threads c) :
    VectorKept s c t none (some r) (s.setV c t r v) := by
  obtain ⟨⟨hs, hm, -⟩, hcore, -, hstat, hmem⟩ := FrameKept.refl s c t none none
  refine ⟨⟨hs, hm, fun c' t' r' ht' hr' hne => ?_⟩, hcore, hstat, hmem⟩
  exact State.vreg_setV_of_ne s v ht hr ht' hr' fun ⟨hc, htt, hrr⟩ => hne ⟨Fin.ext hc, Fin.ext htt, hrr⟩

theorem VectorKept.setM (v : MWord) {r : Nat} (hr : r < 16) : VectorKept s c t (some r) none (s.setM c t r v) := by
  obtain ⟨hregs, hcore, -, hstat, hmem⟩ := FrameKept.setM s c t v hr
  exact ⟨hregs, hcore, hstat, hmem⟩

/-- The thread moved on with its instruction counted and its turn noted: the frame stays. -/
theorem VectorKept.passed (h : VectorKept s c t md vd s') : VectorKept s c t md vd (passed s s' c t) := by
  obtain ⟨⟨hs, hm, hv⟩, ⟨ho, hh, hq, hf, hr⟩, hst, hmem⟩ := h
  unfold Machine.passed
  exact ⟨⟨by simpa using hs, by simpa using hm, by simpa using hv⟩,
    ⟨fun c' t' h => by simpa [State.pc_setPc_ne _ _ h] using ho c' t' h, by simpa using hh, by simpa using hq,
      fun g hg => by simpa [State.fld_countIssue _ _ hg] using hf g hg, by simpa using hr⟩,
    by simpa using hst, by simpa using hmem⟩

/-! ### Elements written -/

theorem flags_orFlags (s : State) (c t : Nat) (fl : Flags) : (s.orFlags c t fl).flags c t = s.flags c t ||| fl :=
  State.flags_setFlags ..

/-- A register of which the active elements alone were replaced, and the flags that this raised. -/
theorem elementsWritten_passed {r : Nat → NRes} (hkept : VectorKept s c t none (some f.dst.toNat) s')
    (hv : ∀ i, i < (typeOf f).count → elemOf (typeOf f) (s'.vreg c t f.dst.toNat) i =
      if (s.mreg c t f.mask.toNat).getLsbD i then (r i).v % 2 ^ (typeOf f).bits
      else elemOf (typeOf f) (s.vreg c t f.dst.toNat) i)
    (hfl : s'.flags c t =
      (actives (typeOf f) (s.mreg c t f.mask.toNat)).foldl (fun fl i => fl ||| (r i).fl) (s.flags c t)) :
    elementsWritten s (passed s s' c t) c t f r := by
  obtain ⟨hregs, hcore, hstat, hm⟩ := hkept.passed
  refine ⟨fun i hi => ?_, ?_, core_pc_passed .., hregs, hcore, hstat, hm⟩
  · rw [vreg_passed]
    exact hv i hi
  · rw [flags_passed]
    exact hfl

/-- A vector result whose elements are the old ones but for the active, and its flags. -/
theorem elementsWritten_vresult (h : Runs s c t f u bad) (hu : u.dst = some .v) (x : Nat × Flags) {r : Nat → NRes}
    (hv : ∀ i, i < (typeOf f).count → elemOf (typeOf f) (BitVec.ofNat 2048 x.1) i =
      if (s.mreg c t f.mask.toNat).getLsbD i then (r i).v % 2 ^ (typeOf f).bits
      else elemOf (typeOf f) (s.vreg c t f.dst.toNat) i)
    (hfl : x.2 = (actives (typeOf f) (s.mreg c t f.mask.toNat)).foldl (fun fl i => fl ||| (r i).fl) 0) :
    elementsWritten s (passed s (s.vresult c t f x) c t) c t f r := by
  refine elementsWritten_passed ((VectorKept.setV _ h.thread_lt (h.vdst_lt hu)).orFlags x.2) (fun i hi => ?_) ?_
  · rw [← hv i hi]
    exact congrArg (elemOf (typeOf f) · i) (State.vreg_setV ..)
  · rw [foldl_or_eq, ← hfl]
    exact flags_orFlags ..

/-- A register written without flags, of which the active elements alone were replaced. -/
theorem elementsWritten_setV (h : Runs s c t f u bad) (hu : u.dst = some .v) {v : VWord} {r : Nat → NRes}
    (hv : ∀ i, i < (typeOf f).count → elemOf (typeOf f) v i =
      if (s.mreg c t f.mask.toNat).getLsbD i then (r i).v % 2 ^ (typeOf f).bits
      else elemOf (typeOf f) (s.vreg c t f.dst.toNat) i) (hr : ∀ i, (r i).fl = 0) :
    elementsWritten s (passed s (s.setV c t f.dst.toNat v) c t) c t f r := by
  refine elementsWritten_passed (VectorKept.setV v h.thread_lt (h.vdst_lt hu)) (fun i hi => ?_) ?_
  · rw [State.vreg_setV, hv i hi]
  · exact (foldl_or_zero (fun i _ => hr i) _).symm

/-- The active elements replaced one by one. -/
theorem elementsWritten_mapActive (h : Runs s c t f u bad) (hu : u.dst = some .v) (r : Nat → NRes) :
    elementsWritten s (passed s (s.vresult c t f (mapActive (typeOf f) (s.maskOf c t f)
      (s.vreg c t f.dst.toNat).toNat r)) c t) c t f r :=
  elementsWritten_vresult h hu _ (fun _ hi => elemOf_mapActive _ _ r hi) (congrArg Prod.snd (mapActive_eq ..))

/-- The active containers replaced one by one: a move raises no flag. -/
theorem elementsWritten_mapLanes (h : Runs s c t f u bad) (hu : u.dst = some .v) {g : Nat → Nat} {r : Nat → NRes}
    (hg : ∀ i, i < (typeOf f).count → g i % 2 ^ (typeOf f).bits = (r i).v % 2 ^ (typeOf f).bits) (hr : ∀ i, (r i).fl = 0) :
    elementsWritten s (passed s (s.vresult c t f (mapLanes (typeOf f) (s.maskOf c t f)
      (s.vreg c t f.dst.toNat).toNat g, 0)) c t) c t f r :=
  elementsWritten_vresult h hu _ (fun _ hi => by rw [← hg _ hi]; exact elemOf_mapLanes _ _ g hi)
    (foldl_or_zero (fun i _ => hr i) 0).symm

end Sys2Proof.Machine
end

section
/-! PROOF. The element operations (05 R180 to R189). -/

namespace Sys2Proof.Machine

/-- Operations that agree as numbers of the type, flags included, write the same elements: a source element is a number of the
type. -/
theorem vecOp_congr {g g' : Ty → Nat → Nat → Nat → NRes} (op n : Nat) (group : Ty → Bool)
    (hv : ∀ ty a b d, a < 2 ^ ty.bits → (g ty a b d).v % 2 ^ ty.bits = (g' ty a b d).v % 2 ^ ty.bits)
    (hfl : ∀ ty a b d, (g ty a b d).fl = (g' ty a b d).fl) (c : Fin 800) (t : Fin 16) (f : Fields) (s : State) :
    vecOp op n group g c t f s = vecOp op n group g' c t f s := by
  simp only [vecOp, mapActive_eq, hv _ _ _ _ (elemOf_lt ..), hfl]

/-- A shift to the left, as the product that it is in the width of the type. -/
theorem elShl_mod (ty : Ty) (a b : Nat) : (elShl ty a b).v % 2 ^ ty.bits = a * 2 ^ (b % ty.bits) % 2 ^ ty.bits := by
  rw [elShl, NRes.ok, Nat.mod_mod, Nat.shiftLeft_eq]

theorem elShr_of_lt {ty : Ty} {a : Nat} (b : Nat) (h : a < 2 ^ ty.bits) : (elShr ty a b).v = a / 2 ^ (b % ty.bits) := by
  rw [elShr, NRes.ok, Nat.mod_eq_of_lt h, Nat.shiftRight_eq_div_pow]

/-- Every row of the table is an element operation with the result that the row gives. -/
theorem exec_elementTable : ∀ e ∈ elementTable, ∃ op, ∀ (c : Fin 800) (t : Fin 16) (f : Fields) (s : State),
    exec (e.1 c t f) s = vecOp op e.2.1 e.2.2.1 e.2.2.2 c t f s := by
  simp only [elementTable, List.forall_mem_cons]
  refine ⟨?vand, ?vor, ?vxor, ?vnot, ?vshl, ?vshr, ?vsra, ?vadd, ?vsub, ?vmul, ?vfma, ?vfnma, ?vdiv, ?vsqrt, ?vrsqrt, ?vexp,
    ?vlog, ?vmax, ?vmin, ?vabs, ?vneg, ?vsign, ?vclamp, nofun⟩
  case vshl => exact ⟨0x06, vecOp_congr (g := fun ty a b _ => elShl ty a b) 0x06 2 Ty.inI
    (fun ty a b _ _ => elShl_mod ty a b) (fun _ _ _ _ => rfl)⟩
  case vshr => exact ⟨0x07, vecOp_congr (g := fun ty a b _ => elShr ty a b) 0x07 2 Ty.inI
    (fun ty _ b _ ha => congrArg (· % 2 ^ ty.bits) (elShr_of_lt b ha)) (fun _ _ _ _ => rfl)⟩
  all_goals exact ⟨_, fun _ _ _ _ => rfl⟩

theorem vecOp_of_runs {n : Nat} {group : Ty → Bool} {c : Fin 800} {t : Fin 16} {f : Fields} {s : State}
    (h : Runs s c t f (usesV n) (!group (typeOf f))) (op : Nat) (g : Ty → Nat → Nat → Nat → NRes) :
    Gives (vecOp op n group g c t f s) (fun u => elementsWritten s u c t f (fun i =>
      g (typeOf f) (elemOf (typeOf f) (s.vreg c t f.srca.toNat) i) (elemOf (typeOf f) (s.vreg c t f.srcb.toNat) i)
        (elemOf (typeOf f) (s.vreg c t f.srcc.toNat) i))) :=
  ⟨_, issue_thenNext_of_runs h 1 op _, elementsWritten_mapActive h rfl _⟩

end Sys2Proof.Machine
end

section
open Sys2Proof Sys2Proof.Machine

/-- Settles O11: every row of the table runs as an element operation, which replaces the active elements one by one. -/
theorem vectorElements : Obligations.VectorElements := by
  intro e he c t f s h
  obtain ⟨op, hexec⟩ := exec_elementTable e he
  rw [hexec]
  exact vecOp_of_runs h op e.2.2.2

end

section
/-! PROOF. Moves, permutations and comparisons of vector registers (05 R180, R183, R188 to R192). -/

namespace Sys2Proof.Machine

variable {s : State} {c : Fin 800} {t : Fin 16} {f : Fields} {u : Uses} {bad : Bool}

/-! ### Moves of containers -/

theorem vecMove_of_runs {g : Ty → VWord → VWord → Nat → Nat} {r : Nat → NRes} (h : Runs s c t f u bad)
    (hu : u.dst = some .v) (op : Nat) (hg : ∀ i, i < (typeOf f).count → g (typeOf f) (s.va c t f) (s.vb c t f) i % 2 ^ (typeOf f).bits =
      (r i).v % 2 ^ (typeOf f).bits) (hr : ∀ i, (r i).fl = 0) :
    Gives (vecMove op u bad g c t f s) (fun u => elementsWritten s u c t f r) :=
  ⟨_, issue_thenNext_of_runs h 1 op _, elementsWritten_mapLanes h hu hg hr⟩

/-- VSEL takes each active element from a where its selecting mask holds, else from b. -/
theorem vsel_of_runs (h : Runs s c t f { usesV 2 with c := some .m } false) :
    Gives (exec (.vsel c t f) s) (fun u => elementsWritten s u c t f (fun i =>
      if (s.mreg c t f.srcc.toNat).getLsbD i then ⟨elemOf (typeOf f) (s.vreg c t f.srca.toNat) i, 0, 0⟩
      else ⟨elemOf (typeOf f) (s.vreg c t f.srcb.toNat) i, 0, 0⟩)) := by
  refine ⟨_, issue_thenNext_of_runs h 1 0x24 _, elementsWritten_mapLanes h rfl (fun i _ => ?_) (fun i => ?_)⟩
  · by_cases hsel : (s.mreg c t f.srcc.toNat).getLsbD i = true <;> simp [activeAt, hsel] <;> rfl
  · split <;> rfl

/-! ### Shuffles (05 R192) -/

/-- An interleaving takes the elements of a and b in turn. -/
theorem ite_interleave {α : Type} (g : Bool → Nat → α) (i j : Nat) :
    g (i % 2 == 1) j = if i % 2 = 0 then g false j else g true j := by
  rcases Nat.mod_two_eq_zero_or_one i with h | h <;> simp [h]

/-- A separation takes every second element, of a into the lower half and of b into the upper. -/
theorem ite_separate {α : Type} (g : Bool → Nat → α) (k : Nat) {n i : Nat} (hn : 2 ∣ n) (hi : i < n) :
    g (decide (n / 2 ≤ i)) (2 * (i % (n / 2)) + k) =
      if i < n / 2 then g false (2 * i + k) else g true (2 * (i - n / 2) + k) := by
  by_cases h : i < n / 2
  · rw [if_pos h, Nat.mod_eq_of_lt h, decide_eq_false (Nat.not_le.2 h)]
  · rw [if_neg h, Nat.mod_eq_sub_mod (Nat.not_lt.1 h), Nat.mod_eq_of_lt (by omega), decide_eq_true (Nat.not_lt.1 h)]

/-- Element `j` of b, or of a, as a move gives it. -/
def shuffled (s : State) (c : Fin 800) (t : Fin 16) (f : Fields) (fromB : Bool) (j : Nat) : NRes :=
  ⟨elemOf (typeOf f) (s.vreg c t (if fromB then f.srcb.toNat else f.srca.toNat)) j, 0, 0⟩

/-- A shuffle of a pattern that its two fields of IMM do not reserve. -/
theorem vshuf_of_runs {r : Nat → NRes}
    (h : Runs s c t f { usesV (if f.imm.toNat % 16 < 4 then 2 else 1) with imm := 65535 } false)
    (hpat : f.imm.toNat % 16 ≤ 5) (hrot : f.imm.toNat % 16 = 5 ∨ f.imm.toNat / 16 = 0)
    (hsrc : ∀ i, i < (typeOf f).count → r i =
      let x := shufSrc (f.imm.toNat % 16) (f.imm.toNat / 16) (typeOf f).count i
      shuffled s c t f x.1 x.2) (hr : ∀ i, (r i).fl = 0) :
    Gives (exec (.vshuf c t f) s) (fun u => elementsWritten s u c t f r) := by
  have hlow : bits f.imm.toNat 0 4 = f.imm.toNat % 16 := bits_zero _ 4
  have hhigh : bits f.imm.toNat 4 12 = f.imm.toNat / 16 := by
    rw [bits_eq_div]
    exact Nat.mod_eq_of_lt (by omega)
  have hbad : (decide (5 < f.imm.toNat % 16) || (f.imm.toNat % 16 != 5 && f.imm.toNat / 16 != 0)) = false := by
    rw [decide_eq_false (Nat.not_lt.2 hpat), Bool.false_or, Bool.and_eq_false_iff, bne_eq_false_iff_eq, bne_eq_false_iff_eq]
    exact hrot
  show Gives (execVshuf c t f s) _
  unfold execVshuf
  rw [hlow, hhigh]
  refine vecMove_of_runs (hbad ▸ h) rfl 0x32 (fun i hi => ?_) hr
  rw [hsrc i hi]
  dsimp only [shuffled]
  rw [laneBits_mod, elemOf_mod]
  split <;> rfl

theorem vectorMoves : vectorMovesLaw := by
  intro c t f s ty n a b gives
  refine ⟨fun h => ?vmov, fun h => ?viota, fun h => vsel_of_runs h, fun h => ?vperm, fun h => ?vpermb,
    fun hrot hpat h => ?pairs, fun hpat hrot h => ?reverse, fun hpat h => ?rotate⟩
  case vmov =>
    show Gives (execVmov c t f s) _
    refine vecMove_of_runs h rfl 0x00 (fun i _ => ?_) (fun _ => rfl)
    rw [laneBits_mod, elemOf_mod]
    rfl
  case viota =>
    show Gives (execViota c t f s) _
    exact vecMove_of_runs h rfl 0x01 (fun _ _ => rfl) (fun _ => rfl)
  case vperm =>
    have hty : typeOf f = .uint32 := by simpa using h.bad_eq_false
    show Gives (execVperm c t f s) _
    refine vecMove_of_runs h rfl 0x30 (fun i _ => ?_) (fun _ => rfl)
    rw [laneBits_mod, elemOf_mod, laneBits_eq_elemOf (by rw [hty]; rfl)]
    rfl
  case vpermb =>
    have hty : typeOf f = .uint8 := by simpa using h.bad_eq_false
    show Gives (execVpermb c t f s) _
    refine vecMove_of_runs h rfl 0x31 (fun i _ => ?_) (fun _ => rfl)
    rw [laneBits_mod, elemOf_mod, laneBits_eq_elemOf (by rw [hty]; rfl)]
    rfl
  case pairs =>
    refine vshuf_of_runs (by rw [if_pos hpat]; exact h) (by omega) (.inr hrot) (fun i hi => ?_) (fun i => ?_)
    · have hcase : f.imm.toNat % 16 = 0 ∨ f.imm.toNat % 16 = 1 ∨ f.imm.toNat % 16 = 2 ∨ f.imm.toNat % 16 = 3 := by omega
      rcases hcase with hp | hp | hp | hp <;> rw [hp]
      · exact (ite_interleave (shuffled s c t f) i (i / 2)).symm
      · exact (ite_interleave (shuffled s c t f) i (n / 2 + i / 2)).symm
      · exact (ite_separate (shuffled s c t f) 0 ty.two_dvd_count hi).symm
      · exact (ite_separate (shuffled s c t f) 1 ty.two_dvd_count hi).symm
    · (repeat' split) <;> rfl
  case reverse =>
    refine vshuf_of_runs (by rw [hpat]; exact h) (by omega) (.inr hrot) (fun i _ => ?_) (fun _ => rfl)
    rw [hpat]
    rfl
  case rotate =>
    refine vshuf_of_runs (by rw [hpat]; exact h) (by omega) (.inl hpat) (fun i _ => ?_) (fun _ => rfl)
    rw [hpat]
    rfl

/-! ### Comparisons -/

theorem vecCmp_of_runs {n : Nat} {group : Ty → Bool} (h : Runs s c t f { usesV n with dst := some .m } (!group (typeOf f)))
    (op : Nat) (g : Ty → Nat → Nat → Bool × Flags) :
    let ty := typeOf f
    let m := s.mreg c t f.mask.toNat
    let r (i : Nat) := g ty (elemOf ty (s.vreg c t f.srca.toNat) i) (elemOf ty (s.vreg c t f.srcb.toNat) i)
    Gives (vecCmp op n group g c t f s) (fun u =>
      (∀ i, i < 512 → (u.mreg c t f.dst.toNat).getLsbD i = (decide (i < ty.count) && m.getLsbD i && (r i).1))
      ∧ u.flags c t = ((List.range ty.count).filter (fun i => m.getLsbD i)).foldl (fun fl i => fl ||| (r i).2) (s.flags c t)
      ∧ u.pc c t = s.pc c t + 1
      ∧ regsKept s u c t none (some f.dst.toNat) none ∧ coreKept s u c t ∧ u.stat c t = s.stat c t ∧ u.m = s.m) := by
  intro ty m r
  have hkept := ((VectorKept.setM (s := s) (c := c) (t := t) (BitVec.ofNat 512 (maskActive ty m r).1) (h.mdst_lt rfl)).orFlags
    (maskActive ty m r).2).passed
  refine ⟨_, issue_thenNext_of_runs h 1 op _, fun i hi => ?_, ?_, core_pc_passed .., hkept⟩
  · rw [← getLsbD_maskActive ty m r hi, mreg_passed]
    exact congrArg (BitVec.getLsbD · i) (State.mreg_setM _ _ _ _ _ (h.mdst_ne_zero rfl))
  · rw [flags_passed, foldl_or_eq, State.mresult, flags_orFlags, maskActive_eq]
    rfl

/-- Every row of the table is a comparison with the result that the row gives. -/
theorem exec_compareTable : ∀ e ∈ compareTable, ∃ op, ∀ (c : Fin 800) (t : Fin 16) (f : Fields) (s : State),
    exec (e.1 c t f) s = vecCmp op e.2.1 e.2.2.1 e.2.2.2 c t f s := by
  simp only [compareTable, List.forall_mem_cons]
  refine ⟨?vcmpeq, ?vcmpne, ?vcmplt, ?vcmple, ?vnf, nofun⟩
  all_goals exact ⟨_, fun _ _ _ _ => rfl⟩

theorem vectorCompares : vectorComparesLaw := by
  intro e he c t f s h
  obtain ⟨op, hexec⟩ := exec_compareTable e he
  rw [hexec]
  exact vecCmp_of_runs h op e.2.2.2

end Sys2Proof.Machine
end

section
open Sys2Proof Sys2Proof.Machine

/-- Settles O12: a move by the container that each element comes from, a comparison by the bits of its mask. -/
theorem vectorMovesAndCompares : Obligations.VectorMovesAndCompares := ⟨vectorMoves, vectorCompares⟩

end

section
/-! PROOF. Packing, unpacking, conversions and reductions (05 R193 to R201). -/

namespace Sys2Proof.Machine

variable {s : State} {c : Fin 800} {t : Fin 16} {f : Fields} {src : Ty}

/-! ### Packing, unpacking, conversions -/

/-- VPACK narrows a into the lower half of the elements, b into the upper. -/
theorem vpack_of_runs (hsrc : immTy f = some src) (h : Runs s c t f { usesV 2 with mod := 1, imm := 15 }
      (!packPair src (typeOf f) || (typeOf f == .e2m1 && modBit f 16))) :
    Gives (exec (.vpack c t f) s) (fun u => elementsWritten s u c t f (fun i =>
      narrowInt (modBit f 16) src (typeOf f) (elemOf src
        (s.vreg c t (if i < (typeOf f).count / 2 then f.srca.toNat else f.srcb.toNat)) (i % ((typeOf f).count / 2))))) := by
  show Gives (execVpack c t f s) _
  unfold execVpack
  rw [hsrc]
  refine ⟨_, issue_thenNext_of_runs h 1 0x33 _, ?_⟩
  simp only [apply_ite (s.vreg c t)]
  exact elementsWritten_mapActive h rfl _

/-- VUNPK widens the elements of one half of a. -/
theorem vunpk_of_runs (hsrc : immTy f = some src)
    (h : Runs s c t f { usesV 1 with mod := 1, imm := 15 } (!packPair (typeOf f) src)) :
    Gives (exec (.vunpk c t f) s) (fun u => elementsWritten s u c t f (fun i =>
      let x := elemOf src (s.vreg c t f.srca.toNat) ((if modBit f 16 then (typeOf f).count else 0) + i)
      ⟨if src = .e2m1 then x else wrapInt (typeOf f).bits (src.readInt x), 0, 0⟩)) := by
  show Gives (execVunpk c t f s) _
  unfold execVunpk
  rw [hsrc]
  refine ⟨_, issue_thenNext_of_runs h 1 0x34 _, ?_⟩
  simp only [← beq_iff_eq (b := Ty.e2m1)]
  exact elementsWritten_mapActive h rfl _

theorem vectorConversions : vectorConversionsLaw := by
  intro c t f s src hsrc ty sr
  refine ⟨fun h => vpack_of_runs hsrc h, fun h => vunpk_of_runs hsrc h, fun h hseed => ?vcvt⟩
  have hgood : (sr && (s.sreg c t f.srcb.toNat).toNat / 2 ^ 32 != 0) = false := by
    cases hsr : sr with
    | false => rfl
    | true =>
      rw [Nat.div_eq_of_lt (hseed hsr)]
      rfl
  show execVcvt c t f s = _
  unfold execVcvt
  rw [hsrc]
  exact issue_go_of_runs h (if_neg (Bool.eq_false_iff.1 hgood))

/-! ### Reductions -/

theorem reduction_of_runs {group : Ty → Bool} {b : Option RFile} (h : Runs s c t f
      { dst := some .v, a := some .v, b := b, mask := true, ty := true, mod := 1 } (!group (typeOf f)))
    (op : Nat) (body : Ty → State → State) :
    reduction op group b body c t f s = .next (passed s (body (typeOf f) s) c t) :=
  issue_thenNext_of_runs h 1 op _

theorem vectorReductions : vectorReductionsLaw := by
  intro c t f s ty runs l
  refine ⟨fun h => ?vrsum, fun h => ?vrssq, fun h => ?vrmax, fun h => ?vrmin, fun h => ?vrmv, fun h => ?vmvm,
    fun h => ?vramax⟩
  case vrsum =>
    show execVrsum c t f s = _
    exact reduction_of_runs h 0x40 _
  case vrssq =>
    show execVrssq c t f s = _
    exact reduction_of_runs h 0x41 _
  case vrmax =>
    show execVrmax c t f s = _
    exact reduction_of_runs h 0x44 _
  case vrmin =>
    show execVrmin c t f s = _
    exact reduction_of_runs h 0x45 _
  case vrmv =>
    have hexec : exec (.vrmv c t f) s = execVrmv c t f s := rfl
    rw [hexec, execVrmv, reduction_of_runs h]
    dsimp only
    generalize treeFold combineTriple 9 _ = tree
    exact ⟨_, rfl⟩
  case vmvm =>
    show execVmvm c t f s = _
    exact issue_thenNext_of_runs h 1 0x43 _
  case vramax =>
    intro old base
    have hexec : exec (.vramax c t f) s = execVramax c t f s := rfl
    rw [hexec, execVramax, reduction_of_runs h]
    dsimp only
    generalize treeFold (combineArg ty) 9 _ = tree
    obtain ⟨r, fl⟩ := tree
    cases r with
    | none =>
      cases modBit f 16 with
      | false => exact ⟨_, rfl⟩
      | true => exact ⟨0, rfl⟩
    | some x => cases modBit f 16 <;> exact ⟨_, rfl⟩

end Sys2Proof.Machine
end

section
open Sys2Proof Sys2Proof.Machine

/-- Settles O13: each instruction runs to the change of the state that its body describes. -/
theorem vectorConversionsAndReductions : Obligations.VectorConversionsAndReductions :=
  ⟨vectorConversions, vectorReductions⟩

end

section
/-! PROOF. The elements of vector loads and stores: where they lie, what fills them and what they write (03 R113, 05 R190). -/

namespace Sys2Proof.Machine

variable {s : State} {c : Fin 800} {t : Fin 16} {f : Fields} {ty : Ty}

/-! ### Elements of whole bytes -/

theorem Ty.bytes_pos (h : ty.bits % 8 = 0) : 0 < ty.bits / 8 := by
  cases ty <;> simp_all [Ty.bits]

theorem Ty.bits_of_bytes (h : ty.bits % 8 = 0) : ty.bits = 8 * (ty.bits / 8) := by omega

/-- Elements of whole bytes begin where a byte begins (02 R59). -/
theorem packedAt_bytes (h : ty.bits % 8 = 0) (base i : Nat) :
    packedAt ty base i = ⟨base + i * (ty.bits / 8), ty.bits / 8, 0⟩ := by
  obtain ⟨n, hn⟩ : ∃ n, ty.bits = 8 * n := ⟨_, Ty.bits_of_bytes h⟩
  have hb : i * (8 * n) = 8 * (i * n) := Nat.mul_left_comm ..
  have hnb : (8 * n + 7) / 8 = n := by omega
  simp [packedAt, hn, hb, hnb]

/-- An element of whole bytes one after another is filled in one piece. -/
theorem pieceOf_seqKeys (ty : Ty) (i : Nat) (e : ElAt) (key : Nat) {n : Nat} (h : 0 < n) :
    pieceOf ty i e (seqKeys key n) = [⟨i * ty.lane, ty.bits, key, e.sh, n⟩] := by
  match n, h with
  | 1, _ => simp [seqKeys, pieceOf]
  | 2, _ => simp [seqKeys, List.range_succ, Nat.add_comm 1, pieceOf]
  | n + 3, _ => simp [seqKeys_succ, pieceOf, length_seqKeys]

theorem padPieces_bytes (h : ty.bits % 8 = 0) (ks : List (Nat × ElAt × List Nat)) : padPieces ty ks = [] := by
  have h6 : ty.isFP6 = false := by cases ty <;> simp_all [Ty.bits, Ty.isFP6]
  simp [padPieces, h6]

theorem Mem.rdBytes_eq_map (m : Mem) (a n : Nat) : m.rdBytes a n = (List.range n).map (fun j => m.rd (a + j)) := by
  refine List.ext_getElem (by simp [length_rdBytes]) fun i h _ => ?_
  have hi : i < n := by rwa [length_rdBytes] at h
  rw [← List.getD_eq_getElem _ 0 h, Mem.getD_rdBytes _ _ _ _ hi]
  simp

/-! ### Elements loaded -/

/-- Elements filled each from its place: the lanes of the elements written with the numbers of their bytes. -/
theorem fillPieces_map (m : Mem) (ty : Ty) (n : Nat) (key : Nat → Nat) (l : List Nat) (old : Nat) :
    fillPieces m old (l.map (fun i => (⟨i * ty.lane, ty.bits, key i, 0, n⟩ : Piece))) =
      l.foldl (fun acc i => setBits acc (i * ty.lane) ty.bits (m.rdLE (key i) n % 2 ^ ty.bits)) old := by
  induction l generalizing old with
  | nil => rfl
  | cons i l ih => exact ih _

/-- An element of a register after the elements of a list were filled. -/
theorem elemOf_fillPieces (m : Mem) (n : Nat) (key : Nat → Nat) (l : List Nat) (old : Nat) {i : Nat} (h : i < ty.count) :
    elemOf ty (BitVec.ofNat 2048 (fillPieces m old (l.map (fun i => (⟨i * ty.lane, ty.bits, key i, 0, n⟩ : Piece))))) i =
      if i ∈ l then m.rdLE (key i) n % 2 ^ ty.bits else bits old (i * ty.lane) ty.bits := by
  rw [elemOf_ofNat _ h, fillPieces_map, bits_foldl_setBits (Nat.le_refl _) ty.bits_le_lane, Nat.mod_mod]

/-! ### Elements stored -/

theorem wrCells_append (s : State) (a b : List (Nat × Byte)) : s.wrCells (a ++ b) = (s.wrCells a).wrCells b := by
  simp only [State.wrCells, List.foldl_append]

/-- The cells of elements stored each at its place: their bytes written in turn. -/
theorem mem_wrCells_flatMap (s : State) (n : Nat) (key v : Nat → Nat) (l : List Nat) :
    (s.wrCells (l.flatMap (fun i => (seqKeys (key i) n).zip (leBytes n (v i))))).m.mem =
      l.foldl (fun m i => m.wrBytes (key i) (leBytes n (v i))) s.m.mem := by
  induction l generalizing s with
  | nil => rfl
  | cons i l ih =>
    have hhead : s.wrCells ((seqKeys (key i) n).zip (leBytes n (v i))) = s.wrB (key i) (leBytes n (v i)) := by
      simpa using wrCells_seqKeys (key i) (leBytes n (v i)) s
    rw [List.flatMap_cons, wrCells_append, hhead, ih]
    rfl

/-- A byte that no stored element covers stays. -/
theorem rd_foldl_wrBytes_out {n k : Nat} {key : Nat → Nat} (v : Nat → Nat) {l : List Nat}
    (h : ∀ i ∈ l, k < key i ∨ key i + n ≤ k) (m : Mem) :
    (l.foldl (fun (m : Mem) i => m.wrBytes (key i) (leBytes n (v i))) m).rd k = m.rd k := by
  induction l generalizing m with
  | nil => rfl
  | cons i l ih =>
    obtain ⟨hi, hl⟩ := List.forall_mem_cons.1 h
    rw [List.foldl_cons, ih hl, Mem.rd_wrBytes_out _ _ _ _ (by rwa [length_leBytes])]

/-- No byte of an element of the list, of `n` bytes at its place, lies in another. -/
def Apart (n : Nat) (at_ : Nat → Nat) (l : List Nat) : Prop :=
  l.Pairwise (fun i j => at_ i + n ≤ at_ j ∨ at_ j + n ≤ at_ i)

/-- The bytes of an element stored read back where no two elements overlap. -/
theorem rd_foldl_wrBytes_in {n : Nat} {key : Nat → Nat} (v : Nat → Nat) {l : List Nat} (h : Apart n key l) {i j : Nat}
    (hi : i ∈ l) (hj : j < n) (m : Mem) : (l.foldl (fun (m : Mem) i => m.wrBytes (key i) (leBytes n (v i))) m).rd (key i + j) = (leBytes n (v i)).getD j 0 := by
  induction l generalizing m with
  | nil => nomatch hi
  | cons x l ih =>
    obtain ⟨hx, hl⟩ := List.pairwise_cons.1 h
    rw [List.foldl_cons]
    rcases List.mem_cons.1 hi with rfl | hi
    · rw [rd_foldl_wrBytes_out v (fun y hy => by have := hx y hy; omega),
        Mem.rd_wrBytes_in _ _ _ _ (by rwa [length_leBytes])]
    · exact ih hl hi _

/-- A store of cells moves no register and no request. -/
theorem storeKept_wrCells (l : List (Nat × Byte)) : storeKept s (passed s (s.wrCells l) c t) c t := by
  obtain ⟨hregs, hcore, hflags, hstat, hm⟩ := (FrameKept.refl (s.wrCells l) c t none none).moved (s.pc c t + 1) (s.pc c t)
  refine ⟨hregs, hcore, hflags, hstat, ?_, ?_⟩ <;> rw [passed, hm] <;> rfl

/-! ### The accesses of elements in own memory -/

theorem keyOwn_add (core a j : Nat) : keyOwn core (a + j) = keyOwn core a + j := (Nat.add_assoc ..).symm

theorem elemKeys_own {core : Nat} {e : ElAt} {store : Bool} (halign : e.addr % (ty.bits / 8) = 0)
    (hfits : e.addr + e.nb ≤ ownBytes core) :
    s.elemKeys core 0 ty e store = (.ok (seqKeys (keyOwn core e.addr) e.nb), s) := by
  simp [State.elemKeys, spanKeys_own, halign, hfits]

/-- Elements aligned and within own memory are all found. -/
theorem vecKeys_own {core n : Nat} {at_ : Nat → Nat} {l : List Nat} {store : Bool} (hn : n = ty.bits / 8)
    (h : ∀ i ∈ l, at_ i % n = 0 ∧ at_ i + n ≤ ownBytes core) :
    s.vecKeys core 0 ty store (l.map (fun i => (i, ⟨at_ i, n, 0⟩))) =
      (l.map (fun i => (i, ⟨at_ i, n, 0⟩, seqKeys (keyOwn core (at_ i)) n)), [], s) := by
  induction l with
  | nil => rfl
  | cons i l ih =>
    obtain ⟨⟨halign, hfits⟩, hl⟩ := List.forall_mem_cons.1 h
    simp only [List.map_cons, State.vecKeys, elemKeys_own (e := ⟨at_ i, n, 0⟩) (hn ▸ halign) hfits, ih hl]

end Sys2Proof.Machine
end

section
/-! PROOF. VLD, VLDS, VST and VSTS in own memory (05 R180, R190). -/

namespace Sys2Proof.Machine

variable {s : State} {c : Fin 800} {t : Fin 16} {f : Fields} {u : Uses} {bad : Bool} {at_ : Nat → Nat}

/-! ### Elements loaded -/

/-- The state after whole-byte elements were loaded, each from its place, over the old bits of the register. -/
def loadedFrom (s : State) (c t : Nat) (f : Fields) (key : Nat → Nat) (l : List Nat) (old : Nat) : State :=
  s.setV c t f.dst.toNat (BitVec.ofNat 2048 (fillPieces s.m.mem old
    (l.map (fun i => (⟨i * (typeOf f).lane, (typeOf f).bits, key i, 0, (typeOf f).bits / 8⟩ : Piece)))))

theorem VectorKept.loadedFrom (h : Runs s c t f u bad) (hu : u.dst = some .v) (key : Nat → Nat) (l : List Nat) (old : Nat) :
    VectorKept s c t none (some f.dst.toNat) (loadedFrom s c t f key l old) :=
  .setV _ h.thread_lt (h.vdst_lt hu)

theorem vecLoad_own (hty : (typeOf f).bits % 8 = 0)
    (h : ∀ i ∈ s.act c t f, at_ i % ((typeOf f).bits / 8) = 0 ∧ at_ i + (typeOf f).bits / 8 ≤ ownBytes c) :
    s.vecLoad c t f 0 ((s.act c t f).map (fun i => (i, ⟨at_ i, (typeOf f).bits / 8, 0⟩))) =
      .go (loadedFrom s c t f (fun i => keyOwn c (at_ i)) (s.act c t f) (s.vreg c t f.dst.toNat).toNat) (s.next c t) := by
  simp only [State.vecLoad, vecKeys_own rfl h, padPieces_bytes hty, List.flatMap_map,
    pieceOf_seqKeys _ _ _ _ (Ty.bytes_pos hty), List.append_nil, if_true]
  rw [← List.map_eq_flatMap]
  rfl

/-- What a load leaves when its active elements were found in own memory. -/
theorem elementsWritten_loadedFrom (h : Runs s c t f u bad) (hu : u.dst = some .v) :
    elementsWritten s (passed s (loadedFrom s c t f (fun i => keyOwn c (at_ i)) (s.act c t f)
      (s.vreg c t f.dst.toNat).toNat) c t) c t f (fun i =>
        ⟨leNat ((List.range ((typeOf f).bits / 8)).map (fun j => s.m.mem.rd (keyOwn c (at_ i + j)))), 0, 0⟩) := by
  refine elementsWritten_setV h hu (fun i hi => ?_) (fun _ => rfl)
  simp only [elemOf_fillPieces _ _ _ _ _ hi, State.act, mem_actives, hi, true_and, Mem.rdLE, Mem.rdBytes_eq_map, keyOwn_add]
  rfl

theorem contiguous_bytes (hty : (typeOf f).bits % 8 = 0) : s.contiguous c t f =
    (s.act c t f).map (fun i => (i, ⟨s.memAddr c t f + i * ((typeOf f).bits / 8), (typeOf f).bits / 8, 0⟩)) := by
  simp only [State.contiguous, packedAt_bytes hty]

theorem bytes_not_narrow {ty : Ty} (h : ty.bits % 8 = 0) : decide (ty.bits < 8) = false := by
  have := Ty.bytes_pos h
  exact decide_eq_false (by omega)

/-! ### Elements stored apart -/

theorem apart_of_firstOverlap {n : Nat} {l : List Nat} (h : firstOverlap n at_ l = none) : Apart n at_ l := by
  induction l with
  | nil => exact List.Pairwise.nil
  | cons i l ih =>
    unfold firstOverlap at h
    split at h
    · contradiction
    · next hnone =>
      refine List.pairwise_cons.2 ⟨fun j hj => ?_, ih h⟩
      have hij := List.find?_eq_none.1 hnone j hj
      simp only [Bool.and_eq_true, decide_eq_true_eq] at hij
      omega

/-- Elements one after another from any place lie apart. -/
theorem apart_of_packed (n base : Nat) {l : List Nat} (h : l.Pairwise (· < ·)) : Apart n (fun i => base + i * n) l := by
  refine h.imp fun {i j} hij => .inl ?_
  have := mul_add_le_mul_of_lt hij n
  dsimp only
  omega

theorem Apart.keyOwn {n : Nat} {l : List Nat} (h : Apart n at_ l) (core : Nat) : Apart n (fun i => keyOwn core (at_ i)) l :=
  h.imp fun hij => by
    simp only [Machine.keyOwn]
    omega

/-- The state after elements of `n` bytes were stored, each at its place. -/
def storedAt (s : State) (n : Nat) (key v : Nat → Nat) (l : List Nat) : State :=
  s.wrCells (l.flatMap (fun i => (seqKeys (key i) n).zip (leBytes n (v i))))

theorem storedAt_passed {n : Nat} {key : Nat → Nat} {l : List Nat} (v : Nat → Nat) (h : Apart n key l) :
    let u := passed s (storedAt s n key v l) c t
    (∀ i ∈ l, ∀ j, j < n → u.m.mem.rd (key i + j) = (leBytes n (v i)).getD j 0)
    ∧ (∀ k, (∀ i ∈ l, k < key i ∨ key i + n ≤ k) → u.m.mem.rd k = s.m.mem.rd k)
    ∧ u.pc c t = s.pc c t + 1 ∧ storeKept s u c t := by
  refine ⟨fun i hi j hj => ?_, fun k hk => ?_, core_pc_passed .., storeKept_wrCells _⟩
  · rw [rd_passed, storedAt, mem_wrCells_flatMap, rd_foldl_wrBytes_in v h hi hj]
  · rw [rd_passed, storedAt, mem_wrCells_flatMap, rd_foldl_wrBytes_out v hk]

theorem storeCells_bytes {ty : Ty} (hty : ty.bits % 8 = 0) (v : VWord) (l : List Nat) (e : Nat → ElAt) (key : Nat → Nat) :
    s.storeCells ty v (l.map (fun i => (i, e i, seqKeys (key i) (ty.bits / 8)))) =
      l.flatMap (fun i => (seqKeys (key i) (ty.bits / 8)).zip (leBytes (ty.bits / 8) (elemOf ty v i))) := by
  simp only [State.storeCells, hty, if_true, List.flatMap_map, length_seqKeys]

theorem vecStore_own (hty : (typeOf f).bits % 8 = 0) (v : VWord)
    (h : ∀ i ∈ s.act c t f, at_ i % ((typeOf f).bits / 8) = 0 ∧ at_ i + (typeOf f).bits / 8 ≤ ownBytes c) :
    s.vecStore c t (typeOf f) 0 v ((s.act c t f).map (fun i => (i, ⟨at_ i, (typeOf f).bits / 8, 0⟩))) =
      .go (storedAt s ((typeOf f).bits / 8) (fun i => keyOwn c (at_ i)) (elemOf (typeOf f) v) (s.act c t f))
        (s.next c t) := by
  simp only [State.vecStore, vecKeys_own rfl h, storeCells_bytes hty, if_true, storedAt]

/-! ### The instructions -/

theorem ownVectorAccess : ownVectorAccessLaw := by
  intro c t f s ty n act near far fits loaded stored hsp hbits
  have hload (at_ : Nat → Nat) {u : Uses} {o : Out} (h : Runs s c t f u false) (hu : u.dst = some .v)
      (ho : o = .next (passed s (loadedFrom s c t f (fun i => keyOwn c (at_ i)) (s.act c t f)
        (s.vreg c t f.dst.toNat).toNat) c t)) : Gives o (loaded at_) :=
    ⟨_, ho, elementsWritten_loadedFrom h hu⟩
  have hstore (at_ : Nat → Nat) (v : VWord) (hapart : Apart n at_ act) {o : Out}
      (ho : o = .next (passed s (storedAt s n (fun i => keyOwn c (at_ i)) (elemOf ty v) act) c t)) : Gives o (stored at_ v) := by
    obtain ⟨hin, hout, hrest⟩ := storedAt_passed (s := s) (c := c) (t := t) (elemOf ty v) (hapart.keyOwn c)
    exact ⟨_, ho, fun i hi j hj => by rw [keyOwn_add]; exact hin i hi j hj, hout, hrest⟩
  refine ⟨fun h hfits => ?vld, fun h hfits => ?vlds, fun h hfits => ?vst, fun h hfits hoverlap => ?vsts⟩
  case vld =>
    refine hload near h rfl ?_
    show execVld c t f s = _
    refine issue_go_of_runs (bad := spaceOf f == 3) (by rw [hsp]; exact h) ?_
    rw [hsp, contiguous_bytes hbits]
    exact vecLoad_own hbits hfits
  case vlds =>
    refine hload (far (s.sreg c t f.srcb.toNat)) h rfl ?_
    show readVlds [] c t f s = _
    unfold readVlds
    refine issue_go_of_runs (bad := spaceOf f == 3 || decide ((typeOf f).bits < 8))
      (by rw [hsp, bytes_not_narrow hbits]; exact h) ?_
    rw [hsp]
    exact vecLoad_own hbits hfits
  case vst =>
    refine hstore near _ (apart_of_packed n _ (actives_pairwise ..)) ?_
    show execVst c t f s = _
    refine issue_go_of_runs (bad := spaceOf f == 3) (by rw [hsp]; exact h) ?_
    rw [hsp, contiguous_bytes hbits]
    exact vecStore_own hbits _ hfits
  case vsts =>
    refine hstore (far (s.sreg c t f.srcc.toNat)) _ (apart_of_firstOverlap hoverlap) ?_
    show execVsts c t f s = _
    refine issue_go_of_runs (bad := spaceOf f == 3 || decide ((typeOf f).bits < 8))
      (by rw [hsp, bytes_not_narrow hbits]; exact h) ?_
    have hnone : firstOverlap ((typeOf f).bits / 8) (strideAddr (s.sreg c t f.srca.toNat) (s.sreg c t f.srcc.toNat))
      (s.act c t f) = none := hoverlap
    simp only [hnone, hsp]
    exact vecStore_own hbits _ hfits

end Sys2Proof.Machine
end

section
/-! PROOF. VLDT and VSTT: a part of a row of a tile (05 R190). -/

namespace Sys2Proof.Machine

variable {s : State} {c : Fin 800} {t : Fin 16} {f : Fields} {h : Word} {ty : Ty} {row part : Nat}

/-! ### The elements of a part -/

/-- Where element `i` of a part of a row lies. -/
def partPlace (c : Nat) (h : Word) (ty : Ty) (row part i : Nat) : Nat :=
  thKey c h + row * thPitch h + part * 256 + i * (ty.bits / 8)

/-- The elements of a list that lie in the tile's columns and in the memory that holds the tile. -/
def partOf (c : Nat) (h : Word) (ty : Ty) (row part : Nat) (l : List Nat) : List Nat :=
  l.filter (fun i => decide (part * (2048 / ty.bits) + i < thElems h)
    && decide (thOffset h + row * thPitch h + part * 256 + i * (ty.bits / 8) < thMemBytes c h))

theorem mem_partOf {c : Nat} {l : List Nat} {i : Nat} : i ∈ partOf c h ty row part l ↔ i ∈ l ∧
    (part * (2048 / ty.bits) + i < thElems h
      ∧ thOffset h + row * thPitch h + part * 256 + i * (ty.bits / 8) < thMemBytes c h) := by
  simp [partOf]

theorem partEls_bytes (hth : thType h = ty) (hty : ty.bits % 8 = 0) (c row part : Nat) (l : List Nat) :
    partEls c h row part l =
      (partOf c h ty row part l).map (fun i => (i, ⟨partPlace c h ty row part i, ty.bits / 8, 0⟩)) := by
  subst hth
  simp only [partEls, packedAt_bytes hty, partPlace, partOf, Nat.add_assoc]

theorem partFaults_in (hrow : row < thRows h) (hpart : part * 256 < thPitch h) (l : List Nat) :
    partFaults h row part l = [] :=
  if_neg (by omega)

theorem apart_of_part (c : Nat) (l : List Nat) (hl : l.Pairwise (· < ·)) :
    Apart (ty.bits / 8) (partPlace c h ty row part) (partOf c h ty row part l) :=
  apart_of_packed _ _ (hl.filter _)

/-- The part of a row that VLDT or VSTT names exists, in a tile of whole-byte elements whose handle the instruction may use. -/
structure NamesPart (s : State) (c : Fin 800) (f : Fields) (row : Nat) : Prop where
  allowed : s.tilePartOk c f = true
  type : thType (s.handle c f.srca.toNat) = typeOf f
  bytes : (typeOf f).bits % 8 = 0
  row : row < thRows (s.handle c f.srca.toNat)
  part : f.imm.toNat % 8 * 256 < thPitch (s.handle c f.srca.toNat)

/-! ### VLDT -/

/-- A register with the elements of a list made zero. -/
def clearedEls (ty : Ty) (v : VWord) (l : List Nat) : Nat := l.foldl (fun v i => setElem ty v i 0) v.toNat

theorem elem_clearedEls (ty : Ty) (v : VWord) (l : List Nat) (i : Nat) :
    bits (clearedEls ty v l) (i * ty.lane) ty.bits = if i ∈ l then 0 else elemOf ty v i := by
  refine (bits_foldl_setBits ty.bits_le_lane (Nat.le_refl _) l (fun _ => 0 % 2 ^ ty.bits) v.toNat i).trans ?_
  rw [Nat.zero_mod, Nat.zero_mod]
  rfl

theorem vldt_of_runs
    (hr : Runs s c t f { dst := some .v, a := some .t, b := some .s, mask := true, ty := true, imm := 7 } false)
    (hp : NamesPart s c f (s.sreg c t f.srcb.toNat).toNat) :
    let h := s.handle c f.srca.toNat
    let row := (s.sreg c t f.srcb.toNat).toNat
    let part := f.imm.toNat % 8
    exec (.vldt c t f) s = .next (passed s (loadedFrom s c t f (partPlace c h (typeOf f) row part)
      (partOf c h (typeOf f) row part (s.act c t f))
      (clearedEls (typeOf f) (s.vreg c t f.dst.toNat) (s.act c t f))) c t) := by
  obtain ⟨hok, hth, hty, hrow, hpart⟩ := hp
  intro h row part
  have hlow : bits f.imm.toNat 0 3 = f.imm.toNat % 8 := bits_zero _ 3
  show execVldt c t f s = _
  refine issue_go_of_runs hr ?_
  simp only [hlow, hok, Bool.not_true, Bool.false_eq_true, if_false, partFaults_in hrow hpart, partEls_bytes hth hty,
    List.map_map]
  rfl

/-- An element of the register that VLDT leaves. -/
theorem elemOf_vldt {i : Nat} (hi : i < ty.count) (l : List Nat) (hty : typeOf f = ty) :
    elemOf ty ((passed s (loadedFrom s c t f (partPlace c h ty row part) (partOf c h ty row part l)
      (clearedEls ty (s.vreg c t f.dst.toNat) l)) c t).vreg c t f.dst.toNat) i =
      if i ∈ partOf c h ty row part l then
        leNat ((List.range (ty.bits / 8)).map (fun j => s.m.mem.rd (partPlace c h ty row part i + j))) % 2 ^ ty.bits
      else if i ∈ l then 0 else elemOf ty (s.vreg c t f.dst.toNat) i := by
  subst hty
  rw [vreg_passed, loadedFrom, State.vreg_setV, elemOf_fillPieces _ _ _ _ _ hi, elem_clearedEls, Mem.rdLE, Mem.rdBytes_eq_map]

/-! ### VSTT -/

theorem vstt_of_runs
    (hr : Runs s c t f { a := some .t, b := some .v, c := some .s, mask := true, ty := true, imm := 7 } false)
    (hp : NamesPart s c f (s.sreg c t f.srcc.toNat).toNat) (hown : thOwner (s.handle c f.srca.toNat) = subOf c) :
    let h := s.handle c f.srca.toNat
    let row := (s.sreg c t f.srcc.toNat).toNat
    let part := f.imm.toNat % 8
    exec (.vstt c t f) s = .next (passed s (storedAt s ((typeOf f).bits / 8) (partPlace c h (typeOf f) row part)
      (elemOf (typeOf f) (s.vreg c t f.srcb.toNat)) (partOf c h (typeOf f) row part (s.act c t f))) c t) := by
  obtain ⟨hok, hth, hty, hrow, hpart⟩ := hp
  intro h row part
  have hlow : bits f.imm.toNat 0 3 = f.imm.toNat % 8 := bits_zero _ 3
  show execVstt c t f s = _
  refine issue_go_of_runs hr ?_
  simp only [hlow, hok, hown, bne_self_eq_false, Bool.or_false, Bool.not_true, Bool.false_eq_true, if_false,
    partFaults_in hrow hpart, partEls_bytes hth hty, List.map_map, Function.comp_def, storeCells_bytes hty]
  rfl

theorem tilePartAccess : tilePartAccessLaw := by
  intro c t f s ty n h act part place within hbits hok hth hpitch
  refine ⟨?vldt, ?vstt⟩
  case vldt =>
    intro row hr hrow
    obtain ⟨hregs, hcore, -, hm⟩ := (VectorKept.loadedFrom hr rfl (partPlace c h ty row part) (partOf c h ty row part act)
      (clearedEls ty (s.vreg c t f.dst.toNat) act)).passed
    refine ⟨_, vldt_of_runs hr ⟨hok, hth, hbits, hrow, hpitch⟩, fun i hi hin => ?_, fun i hi hout => ?_,
      fun i hi hnot => ?_, core_pc_passed .., hregs, hcore, congrArg _ hm⟩
    · exact (elemOf_vldt (mem_actives.1 hi).1 act rfl).trans (if_pos (mem_partOf.2 ⟨hi, hin⟩))
    · refine (elemOf_vldt (mem_actives.1 hi).1 act rfl).trans ?_
      rw [if_neg fun hm => hout (mem_partOf.1 hm).2, if_pos hi]
    · refine (elemOf_vldt hi act rfl).trans ?_
      rw [if_neg fun hm => hnot (mem_partOf.1 hm).1, if_neg hnot]
  case vstt =>
    intro row hr hown hrow
    obtain ⟨hin, hout, hrest⟩ := storedAt_passed (s := s) (c := c) (t := t) (elemOf ty (s.vreg c t f.srcb.toNat))
      (apart_of_part (h := h) (ty := ty) (row := row) (part := part) c act (actives_pairwise ..))
    refine ⟨_, vstt_of_runs hr ⟨hok, hth, hbits, hrow, hpitch⟩ hown, fun i hi hw => hin i (mem_partOf.2 ⟨hi, hw⟩),
      fun k hk => hout k fun i hi => ?_, hrest⟩
    obtain ⟨hact, hw⟩ := mem_partOf.1 hi
    exact hk i hact hw

end Sys2Proof.Machine
end

section
open Sys2Proof Sys2Proof.Machine

/-- Settles O16: a load fills each active element from the bytes at its place, a store writes those of each element at its
own. -/
theorem vectorLoadsAndStores : Obligations.VectorLoadsAndStores := ⟨ownVectorAccess, tilePartAccess⟩

end

section
/-! PROOF. What the samplers pick (07 R247, R256 to R258): the positions of SUNI, a draw of SALIAS, the ranking of STOPK. -/

namespace Sys2Proof.Machine

/-! ### Sorted numbers -/

theorem insSorted_eq_orderedInsert (x : Nat) (l : List Nat) : insSorted x l = l.orderedInsert (· ≤ ·) x := by
  induction l with
  | nil => rfl
  | cons y l ih => rw [insSorted, List.orderedInsert_cons, ih]

theorem sortNat_eq_insertionSort (l : List Nat) : sortNat l = l.insertionSort (· ≤ ·) := by
  induction l with
  | nil => rfl
  | cons x l ih =>
    rw [List.insertionSort_cons, ← ih]
    exact insSorted_eq_orderedInsert x _

theorem sortNat_perm (l : List Nat) : (sortNat l).Perm l := by
  rw [sortNat_eq_insertionSort]
  exact l.perm_insertionSort _

theorem sortNat_pairwise_lt {l : List Nat} (h : l.Nodup) : (sortNat l).Pairwise (· < ·) := by
  have hle : (sortNat l).Pairwise (· ≤ ·) := by
    rw [sortNat_eq_insertionSort]
    exact l.pairwise_insertionSort _
  exact hle.imp₂ (fun _ _ => lt_of_le_of_ne) ((sortNat_perm l).nodup_iff.2 h)

/-! ### The positions of SUNI (R247, R256) -/

theorem bits_lt_two_pow (n lo len : Nat) : bits n lo len < 2 ^ len := Nat.mod_lt _ (Nat.two_pow_pos len)

theorem drawU_lt (x : Nat) {m : Nat} (h : 0 < m) : drawU x m < m :=
  Nat.div_lt_of_lt_mul (Nat.mul_lt_mul_of_pos_right (bits_lt_two_pow x 0 64) h)

/-- The draw of index `n` on the positions 0 to DEG - K + n. -/
def uniDraw (i : Samp) (deg n : Nat) : Nat := drawU (i.draw i.hop i.b n) (deg - i.k + n + 1)

/-- The position that the draw of index `n` adds to those taken. -/
def uniPick (i : Samp) (deg : Nat) (taken : List Nat) (n : Nat) : Nat :=
  if taken.contains (uniDraw i deg n) then deg - i.k + n else uniDraw i deg n

/-- The positions that the first `n` draws take, in the order of the draws. -/
def uniTaken (i : Samp) (deg : Nat) : Nat → List Nat
  | 0 => []
  | n + 1 => uniTaken i deg n ++ [uniPick i deg (uniTaken i deg n) n]

section
variable (i : Samp) (deg : Nat)

theorem uniTaken_eq_foldl (n : Nat) :
    (List.range n).foldl (fun taken n => taken ++ [uniPick i deg taken n]) [] = uniTaken i deg n := by
  induction n with
  | zero => rfl
  | succ n ih => rw [List.range_succ, List.foldl_append, ih]; rfl

theorem uniPositions_eq : uniPositions i deg = sortNat (uniTaken i deg i.k) :=
  congrArg sortNat (uniTaken_eq_foldl i deg i.k)

theorem length_uniTaken (n : Nat) : (uniTaken i deg n).length = n := by
  induction n with
  | zero => rfl
  | succ n ih => simp [uniTaken, ih]

theorem uniDraw_le (n : Nat) : uniDraw i deg n ≤ deg - i.k + n := Nat.le_of_lt_succ (drawU_lt _ (Nat.succ_pos _))

theorem uniPick_le (taken : List Nat) (n : Nat) : uniPick i deg taken n ≤ deg - i.k + n := by
  unfold uniPick
  split
  · exact le_rfl
  · exact uniDraw_le i deg n

theorem lt_of_mem_uniTaken {n p : Nat} (h : p ∈ uniTaken i deg n) : p < deg - i.k + n := by
  induction n with
  | zero => cases h
  | succ n ih =>
    rcases List.mem_append.1 h with h | h
    · exact (ih h).trans (Nat.lt_succ_self _)
    · rw [List.mem_singleton.1 h]
      exact Nat.lt_succ_of_le (uniPick_le i deg _ n)

/-- A position that is drawn again gives way to the highest of its draw, which no earlier draw reaches. -/
theorem uniPick_not_mem (n : Nat) : uniPick i deg (uniTaken i deg n) n ∉ uniTaken i deg n := by
  unfold uniPick
  split
  · exact fun h => (lt_of_mem_uniTaken i deg h).false
  · next h => simpa using h

theorem nodup_uniTaken (n : Nat) : (uniTaken i deg n).Nodup := by
  induction n with
  | zero => exact List.nodup_nil
  | succ n ih => exact ih.append (List.nodup_singleton _) (List.disjoint_singleton.2 (uniPick_not_mem i deg n))

theorem firstDraw_mem_uniTaken {n : Nat} (h : 0 < n) : uniDraw i deg 0 ∈ uniTaken i deg n := by
  induction n, h using Nat.le_induction with
  | base => simp [uniTaken, uniPick]
  | succ n _ ih => exact List.mem_append_left _ ih

end

theorem uniPositions_spec (i : Samp) (deg : Nat) (hk : i.k ≤ deg) : (uniPositions i deg).length = i.k
    ∧ (uniPositions i deg).Pairwise (· < ·) ∧ (∀ p ∈ uniPositions i deg, p < deg)
    ∧ (0 < i.k → drawU (i.draw i.hop i.b 0) (deg - i.k + 1) ∈ uniPositions i deg) := by
  rw [uniPositions_eq]
  have hperm := sortNat_perm (uniTaken i deg i.k)
  refine ⟨hperm.length_eq.trans (length_uniTaken i deg _), sortNat_pairwise_lt (nodup_uniTaken i deg _), fun p hp => ?_,
    fun hpos => hperm.mem_iff.2 (firstDraw_mem_uniTaken i deg hpos)⟩
  have := lt_of_mem_uniTaken i deg (hperm.mem_iff.1 hp)
  omega

/-! ### Traversals that go on -/

theorem TravM.run_bind_ok {α β : Type} {x : TravM α} {g : α → TravM β} {st st' : Trav} {a : α}
    (h : x.run st = (.ok a, st')) : (x >>= g).run st = (g a).run st' := by
  show ExceptT.bindCont g (x.run st).1 (x.run st).2 = _
  rw [h]
  rfl

theorem aliasChoice_run {core x e : Nat} {m : Image} {st st' : Trav}
    (hread : (readVa core (m.f 0x28 6 + 8 * (m.start + drawU x m.deg)) 8).run st = (.ok e, st'))
    (halt : bits e 32 32 < m.deg) : (aliasChoice core m x).run st =
      (.ok (if bits x 64 32 < bits e 0 32 ∨ bits e 0 32 = 0xFFFFFFFF then drawU x m.deg else bits e 32 32), st') := by
  refine (TravM.run_bind_ok hread).trans ?_
  dsimp only
  rw [if_neg (Nat.not_le.2 halt)]
  rfl

/-! ### The order of values (R187) -/

/-- The number that a finite value is. -/
def finValue (neg : Bool) (m : Nat) (e : Int) : ℚ := (if neg then -1 else 1) * m * 2 ^ e

/-- The place of a value in the order of `cmpVal`: NaN lowest, then −∞, the finite numbers, +∞. -/
def valueKey : FVal → ℤ ×ₗ ℚ
  | .nan => toLex (-2, 0)
  | .inf neg => toLex (if neg then -1 else 1, 0)
  | .fin neg m e => toLex (0, finValue neg m e)

/-- The place of a value in the order of `rankAbove`: among equal ones, one without a sign stands above. -/
def rankKey (v : FVal) : (ℤ ×ₗ ℚ) ×ₗ Bool := toLex (valueKey v, !v.isNeg)

theorem scaled_eq {e q : Int} (n : Bool) (m : Nat) (h : q ≤ e) : (scaled n m e q : ℚ) = finValue n m e * 2 ^ (-q) := by
  have hpow : (2 : ℚ) ^ (e - q).toNat = 2 ^ e * 2 ^ (-q) := by
    rw [← zpow_natCast, Int.toNat_of_nonneg (by omega), sub_eq_add_neg, zpow_add₀ two_ne_zero]
  cases n <;> simp [scaled, finValue, hpow, mul_assoc]

/-- The integers that `cmpVal` compares stand in the order of the values that they are multiples of. -/
theorem scaled_lt_iff {e e' q : Int} (n n' : Bool) (m m' : Nat) (h : q ≤ e) (h' : q ≤ e') :
    scaled n m e q < scaled n' m' e' q ↔ finValue n m e < finValue n' m' e' := by
  rw [← Int.cast_lt (R := ℚ), scaled_eq n m h, scaled_eq n' m' h']
  exact mul_lt_mul_iff_left₀ (zpow_pos two_pos _)

/-- `cmpVal` is the sign of the comparison of the places. -/
theorem cmpVal_spec {a b : FVal} (ha : a.isNaN = false) (hb : b.isNaN = false) :
    (0 < cmpVal a b ↔ valueKey b < valueKey a) ∧ (cmpVal a b < 0 ↔ valueKey a < valueKey b) := by
  cases a with
  | nan => cases ha
  | inf n =>
    cases b with
    | nan => cases hb
    | inf n' => cases n <;> cases n' <;> simp [cmpVal, valueKey, Prod.Lex.toLex_lt_toLex]
    | fin n' m' e' => cases n <;> simp [cmpVal, valueKey, Prod.Lex.toLex_lt_toLex]
  | fin n m e =>
    cases b with
    | nan => cases hb
    | inf n' => cases n' <;> simp [cmpVal, valueKey, Prod.Lex.toLex_lt_toLex]
    | fin n' m' e' =>
      have hmin : (if e ≤ e' then e else e') = min e e' := rfl
      have hlt := scaled_lt_iff n n' m m' (min_le_left e e') (min_le_right e e')
      have hgt := scaled_lt_iff n' n m' m (min_le_right e e') (min_le_left e e')
      simp only [cmpVal, hmin, valueKey, Prod.Lex.toLex_lt_toLex, lt_irrefl, false_or, true_and, ← hlt, ← hgt]
      split
      · omega
      · split <;> omega

theorem rankAbove_iff {a b : FVal} (ha : a.isNaN = false) (hb : b.isNaN = false) :
    rankAbove a b = true ↔ rankKey b < rankKey a := by
  obtain ⟨hgt, hlt⟩ := cmpVal_spec ha hb
  rw [rankKey, rankKey, Prod.Lex.toLex_lt_toLex, ← hgt]
  unfold rankAbove
  dsimp only
  split
  · next h =>
    have heq : valueKey b = valueKey a :=
      le_antisymm (not_lt.1 (hlt.not.1 (by omega))) (not_lt.1 (hgt.not.1 (by omega)))
    simp only [h, heq, lt_irrefl, false_or, true_and]
    cases a.isNeg <;> cases b.isNeg <;> decide
  · next h =>
    rw [decide_eq_true_iff]
    refine ⟨.inl, fun hor => hor.resolve_right fun ⟨heq, _⟩ => ?_⟩
    have := hgt.not.2 heq.not_lt
    have := hlt.not.2 heq.symm.not_lt
    omega

theorem rankKey_nan_lt {v : FVal} (h : v.isNaN = false) : rankKey .nan < rankKey v := by
  refine Prod.Lex.toLex_lt_toLex.2 (.inl (Prod.Lex.toLex_lt_toLex.2 (.inl ?_)))
  cases v with
  | nan => cases h
  | inf n => cases n <;> decide
  | fin => show (-2 : ℤ) < 0; decide

theorem eq_nan_of_isNaN {v : FVal} (h : v.isNaN = true) : v = .nan := by
  cases v with
  | nan => rfl
  | inf | fin => cases h

/-! ### The ranking of STOPK (R258) -/

/-- The place of a weight in STOPK's ranking: its value's, and among equal ones the lower position stands above. -/
def weightKey (a : Nat × Nat) : ((ℤ ×ₗ ℚ) ×ₗ Bool) ×ₗ ℕᵒᵈ := toLex (rankKey (readNum fmtFP32 a.1).1, .toDual a.2)

theorem weightAbove_iff (a b : Nat × Nat) : weightAbove a b = true ↔ weightKey b < weightKey a := by
  rw [weightKey, weightKey, Prod.Lex.toLex_lt_toLex, OrderDual.toDual_lt_toDual]
  unfold weightAbove
  dsimp only
  generalize (readNum fmtFP32 a.1).1 = x
  generalize (readNum fmtFP32 b.1).1 = y
  cases hx : x.isNaN <;> cases hy : y.isNaN
  case false.false =>
    have hxy := rankAbove_iff hx hy
    have hyx := rankAbove_iff hy hx
    rcases lt_trichotomy (rankKey y) (rankKey x) with h | h | h
    · simp [hxy.2 h, h]
    · have hnxy := hxy.not.2 h.not_lt
      have hnyx := hyx.not.2 h.not_gt
      simp [hnxy, hnyx, h]
    · have hnxy := hxy.not.2 h.not_gt
      simp [hnxy, hyx.2 h, h.not_gt, h.ne']
  case false.true =>
    rw [eq_nan_of_isNaN hy]
    simp [rankKey_nan_lt hx]
  case true.false =>
    have h := rankKey_nan_lt hy
    rw [eq_nan_of_isNaN hx]
    simp [h.not_gt, h.ne']
  case true.true =>
    rw [eq_nan_of_isNaN hx, eq_nan_of_isNaN hy]
    simp

theorem weightAbove_eq_false_iff (a b : Nat × Nat) : weightAbove b a = false ↔ weightKey b ≤ weightKey a := by
  rw [← Bool.not_eq_true, weightAbove_iff, not_lt]

/-- One weight above another, which is then not above it. -/
theorem weightAbove_asymm {a b : Nat × Nat} (h : weightAbove a b = true) :
    weightAbove a b = true ∧ weightAbove b a = false :=
  ⟨h, (weightAbove_eq_false_iff a b).2 ((weightAbove_iff a b).1 h).le⟩

theorem insWeight_perm (x : Nat × Nat) (l : List (Nat × Nat)) : (insWeight x l).Perm (x :: l) := by
  induction l with
  | nil => rfl
  | cons y l ih =>
    rw [insWeight]
    split
    · rfl
    · exact (ih.cons y).trans (.swap x y l)

theorem insWeight_ranked {x : Nat × Nat} {l : List (Nat × Nat)} (h : l.Pairwise fun a b => weightAbove b a = false) :
    (insWeight x l).Pairwise fun a b => weightAbove b a = false := by
  simp only [weightAbove_eq_false_iff] at h ⊢
  induction l with
  | nil => exact List.pairwise_singleton _ _
  | cons y l ih =>
    obtain ⟨hy, hl⟩ := List.pairwise_cons.1 h
    rw [insWeight]
    split
    · next hxy =>
      have hle := ((weightAbove_iff x y).1 hxy).le
      exact h.cons (List.forall_mem_cons.2 ⟨hle, fun z hz => (hy z hz).trans hle⟩)
    · next hxy =>
      refine (ih hl).cons fun z hz => ?_
      rcases List.mem_cons.1 ((insWeight_perm x l).mem_iff.1 hz) with rfl | hz
      · exact not_lt.1 ((weightAbove_iff z y).not.1 hxy)
      · exact hy z hz

theorem ranking_spec (ws : List (Nat × Nat)) : (ws.foldr insWeight []).Perm ws
    ∧ (ws.foldr insWeight []).Pairwise (fun a b => weightAbove b a = false) := by
  induction ws with
  | nil => exact ⟨.nil, .nil⟩
  | cons w ws ih => exact ⟨(insWeight_perm w _).trans (ih.1.cons w), insWeight_ranked ih.2⟩

theorem weightAbove_of_nan {v w : Nat} (hw : (readNum fmtFP32 w).1.isNaN = true) (hv : (readNum fmtFP32 v).1.isNaN = false)
    (p q : Nat) : weightAbove (v, p) (w, q) = true := by
  rw [weightAbove_iff]
  refine Prod.Lex.toLex_lt_toLex.2 (.inl ?_)
  dsimp only
  rw [eq_nan_of_isNaN hw]
  exact rankKey_nan_lt hv

theorem weightAbove_of_lower_position (v : Nat) {p q : Nat} (h : p < q) : weightAbove (v, p) (v, q) = true :=
  (weightAbove_iff _ _).2 (Prod.Lex.toLex_lt_toLex.2 (.inr ⟨rfl, h⟩))

theorem weightAbove_zeros (p q : Nat) : weightAbove (0, p) (2 ^ 31, q) = true := by
  have hplus : (readNum fmtFP32 0).1 = .fin false 0 (-149) := by decide
  have hminus : (readNum fmtFP32 (2 ^ 31)).1 = .fin true 0 (-149) := by decide
  rw [weightAbove_iff]
  refine Prod.Lex.toLex_lt_toLex.2 (.inl ?_)
  rw [hplus, hminus]
  simp [rankKey, valueKey, finValue, FVal.isNeg, Prod.Lex.toLex_lt_toLex]

theorem samplersPick : picksLaw :=
  ⟨uniPositions_spec, fun _ _ _ _ _ _ => aliasChoice_run, ranking_spec,
    fun _ _ p q hw hv => weightAbove_asymm (weightAbove_of_nan hw hv p q),
    fun v _ _ h => weightAbove_asymm (weightAbove_of_lower_position v h), fun p q => weightAbove_asymm (weightAbove_zeros p q)⟩

end Sys2Proof.Machine
end

section
/-! PROOF. The sampling instructions: what their traversal's end becomes, and SLAYR over candidates of weight zero (07 R248 to
R263). -/

namespace Sys2Proof.Machine

variable {s : State} {c : Fin 800} {t : Fin 16} {f : Fields}

/-! ### An instruction by the end of its traversal -/

/-- Whether the sampling instruction of number `op` reserves the word for its core or its K (R250, R261). -/
def samplingBad (op : Nat) (c : Fin 800) (f : Fields) : Bool :=
  let k := bits f.imm.toNat 4 11
  isMatrix c || k == 0 || decide ((if op = 5 then 255 else 1024) < k)

/-- The effect of the sampling instruction of number `op` whose word is no reserved encoding. -/
def samplingEff (op : Nat) (run : Samp → TravM SampRes) (c : Fin 800) (t : Fin 16) (f : Fields) (s : State) : Eff :=
  match sampFaults op (s.sampOf c t op f) with
  | fault :: fs => .fault (fault :: fs)
  | [] =>
    match (run (s.sampOf c t op f)).run ⟨s, [], 0⟩ with
    | (.error (.fault e a), _) => .fault [wholeAt e a]
    | (.error (.status n), tr) => State.travEnd c t f.dst.toNat (n * 2 ^ 32) [] tr
    | (.ok (n, rs), tr) => State.travEnd c t f.dst.toNat n (recordCells c (s.sampOf c t op f).out rs) tr

theorem exec_of_samplingTable {e : CoreOp × Nat × (Samp → TravM SampRes)} (he : e ∈ samplingTable) :
    exec (e.1 c t f) s =
      issue c t 3 e.2.1 f (usesSampling e.2.1) (samplingBad e.2.1 c f) [] (samplingEff e.2.1 e.2.2 c t f) s := by
  simp only [samplingTable, List.mem_cons, List.not_mem_nil, or_false] at he
  rcases he with rfl | rfl | rfl | rfl | rfl | rfl | rfl <;> rfl

/-- The end of a traversal in a state that still has the thread's program counter is the state that waits for its reads. -/
theorem applyEff_travEnd {tr : Trav} (hpc : s.pc c t + 1 ≤ 8191) (htr : tr.s.pc c t = s.pc c t) (w : Word) (dst word : Nat)
    (cells : List (Nat × Byte)) :
    s.applyEff c t (s.pc c t) w (State.travEnd c t dst word cells tr) = resolved c t dst word cells tr := by
  unfold State.travEnd resolved
  dsimp only
  generalize tr.waves.reverse.filter (fun w => !w.isEmpty) = waves
  cases waves with
  | nil =>
    have hnext : tr.s.next c t = s.next c t := by rw [State.next, State.next, htr]
    refine (congrArg _ (congrArg _ hnext)).trans ((applyEff_next hpc _ _).trans ?_)
    rw [passed, passed, htr]
  | cons first later => exact (applyEff_wait hpc _ _ _).trans (by rw [htr])

theorem samplingEnds : samplingLaw := by
  intro e he c t f s op k i hruns hfaults
  have hexec := (exec_of_samplingTable he).trans (issue_of_runs hruns 3 op (samplingEff op e.2.2 c t f))
  refine ⟨fun n rs tr hrun hpc => ?records, fun n tr hrun hpc => ?status, fun code a tr hrun => ?fault⟩
  case records =>
    rw [hexec, samplingEff, hfaults, hrun]
    exact congrArg _ (applyEff_travEnd hruns.pc_le hpc ..)
  case status =>
    rw [hexec, samplingEff, hfaults, hrun]
    exact congrArg _ (applyEff_travEnd hruns.pc_le hpc ..)
  case fault =>
    rw [hexec, samplingEff, hfaults, hrun]
    exact congrArg _ (applyEff_fault hruns.pc_le ..)

/-! ### An instruction that reads no stack (R262) -/

theorem finishXfer_of_result {x : Xfer} {dst w : Nat} (hact : x.act = .result dst w []) (hlate : x.late = [])
    (hdst : dst ≠ 0) : (s.finishXfer x).sreg x.core x.thread dst = BitVec.ofNat 64 w ∧ (s.finishXfer x).m.mem = s.m.mem := by
  rw [State.finishXfer, hact]
  dsimp only
  rw [State.endXfer, hact, hlate]
  generalize (if x.thread < 16 then x.thread else 0) = k
  dsimp only
  split <;> exact ⟨State.sreg_setS _ _ _ _ _ hdst, by simp [State.wrCells]⟩

/-- An operation that only brings a result word ends at once: the word is in its register, no byte of memory changes. -/
theorem startReads_none {dst w : Nat} (core th : Nat) (dests : List (RFile × Nat)) (hdst : dst ≠ 0) :
    let u := s.startReads (newXfer core th false dests (.result dst w [])) []
    u.sreg core th dst = BitVec.ofNat 64 w ∧ u.m.mem = s.m.mem := by
  intro u
  let x : Xfer := { newXfer core th false dests (.result dst w []) with id := s.m.nextId }
  let s' : State := { s with m := { s.m with xfers := s.m.xfers ++ [x], nextId := s.m.nextId + 1 } }
  have hu : u = (s'.finishXfer x).promote core := rfl
  obtain ⟨hreg, hmem⟩ := finishXfer_of_result (s := s') (x := x) rfl rfl hdst
  rw [hu]
  exact ⟨((filesKept_promote _ _).sreg ..).trans hreg, by simpa using hmem⟩

/-! ### SLAYR over weights of zero (R260) -/

theorem prefixSums_zeros (n : Nat) : prefixSums 0 (List.replicate n 0) = List.replicate n 0 := by
  have hstep : (fAdd fmtXA 0 (widen fmtFP32 fmtXA 0).v).v = 0 := by decide
  induction n with
  | zero => rfl
  | succ n ih => rw [List.replicate_succ, prefixSums, hstep, ih]

theorem total_of_zeros (n : Nat) : (prefixSums 0 (List.replicate n 0)).getLastD 0 = 0 := by
  rw [prefixSums_zeros, List.getLastD_eq_getLast?, List.getLast?_replicate]
  split <;> rfl

theorem weights_of_zeros {i : Samp} {s : State}
    (h : ∀ j, j < bits i.cw 0 24 → leNat (((s.rdB (keyOwn i.core (i.b + 16 * j)) 16).drop 4).take 4) = 0) :
    ((List.range (bits i.cw 0 24)).map (fun j => s.rdB (keyOwn i.core (i.b + 16 * j)) 16)).map
      (fun c => leNat ((c.drop 4).take 4)) = List.replicate (bits i.cw 0 24) 0 := by
  refine List.eq_replicate_iff.2 ⟨by simp, fun w hw => ?_⟩
  simp only [List.mem_map, List.mem_range] at hw
  obtain ⟨_, ⟨j, hj, rfl⟩, rfl⟩ := hw
  exact h j hj

theorem sampLayer_zeros {i : Samp} {tr : Trav}
    (h : ∀ j, j < bits i.cw 0 24 → leNat (((tr.s.rdB (keyOwn i.core (i.b + 16 * j)) 16).drop 4).take 4) = 0) :
    (sampLayer i).run tr = (.ok (0, []), tr) := by
  have hgood : (List.replicate (bits i.cw 0 24) 0).any weightBad = false := by
    have hz : weightBad 0 = false := by decide
    simp [hz]
  have hzero : (decodeRaw fmtXA 0).isZero = true := by decide
  refine (TravM.run_bind_ok (st := tr) (st' := tr) (a := tr) rfl).trans ?_
  dsimp only
  rw [weights_of_zeros h, hgood, total_of_zeros, if_neg Bool.false_ne_true, if_pos hzero]
  rfl

theorem layerOfZeros : layerOfZerosLaw := by
  intro c t f s k i hruns hfaults hzeros hdst
  have hmem : ((.slayr, 6, sampLayer) : CoreOp × Nat × (Samp → TravM SampRes)) ∈ samplingTable := by simp [samplingTable]
  obtain ⟨hend, -, -⟩ := samplingEnds _ hmem c t f s hruns hfaults
  obtain ⟨hreg, hmemory⟩ := startReads_none (s := s) (w := 0) c t (scalarDest f.dst.toNat) hdst
  have hends : resolved c t f.dst.toNat 0 (recordCells c i.out []) ⟨s, [], 0⟩ =
      passed s (s.startReads (newXfer c t false (scalarDest f.dst.toNat) (.result f.dst.toNat 0 [])) []) c t := rfl
  refine ⟨_, (hend 0 [] _ (sampLayer_zeros (tr := ⟨s, [], 0⟩) hzeros) rfl).trans (congrArg _ hends), ?_, ?_, core_pc_passed ..⟩
  · simpa [passed] using hreg
  · simpa [passed] using hmemory

end Sys2Proof.Machine
end

section
open Sys2Proof Sys2Proof.Machine

/-- Settles O30: the effect of each sampling instruction by the end of its traversal, SLAYR's traversal over weights of zero, and
the positions and the ranking that the samplers pick from. -/
theorem samplingInstructions : Obligations.SamplingInstructions := ⟨samplingEnds, layerOfZeros, samplersPick⟩

end

section
/-! PROOF. The choice of an arbiter's round, and how the ages move (08 R288). -/

namespace Sys2Proof.Machine

/-! ### The first after the last winner -/

/-- How many requesters lie between `last` and `r`, cyclically over 16. -/
def placeAfter (last r : Nat) : Nat := (r + 15 - last % 16) % 16

theorem at_placeAfter {last r : Nat} (h : r < 16) : (last + 1 + placeAfter last r) % 16 = r := by
  unfold placeAfter
  omega

theorem placeAfter_at {last i : Nat} (h : i < 16) : placeAfter last ((last + 1 + i) % 16) = i := by
  unfold placeAfter
  omega

theorem firstAfter_of_ne_nil {last : Nat} {cand : List Nat} (hne : cand ≠ []) (hlt : ∀ r ∈ cand, r < 16) :
    ∃ w ∈ cand, firstAfter last cand = some w ∧ ∀ r ∈ cand, placeAfter last w ≤ placeAfter last r := by
  obtain ⟨r₀, h₀⟩ := List.exists_mem_of_ne_nil cand hne
  have hplace : ∀ r, placeAfter last r < 16 := fun r => Nat.mod_lt _ (by decide)
  have hfound : ((List.range 16).find? (fun i => cand.contains ((last + 1 + i) % 16))).isSome := by
    rw [List.find?_isSome]
    exact ⟨placeAfter last r₀, List.mem_range.2 (hplace _), by simpa [at_placeAfter (hlt _ h₀)] using h₀⟩
  obtain ⟨i, hi⟩ := Option.isSome_iff_exists.1 hfound
  obtain ⟨hmem, hrange, hfirst⟩ := List.find?_range_eq_some.1 hi
  refine ⟨(last + 1 + i) % 16, by simpa using hmem, ?_, fun r hr => ?_⟩
  · rw [firstAfter, List.find?_map]
    exact congrArg (Option.map _) hi
  · rw [placeAfter_at (List.mem_range.1 hrange)]
    by_contra hlater
    have hnot := hfirst _ (Nat.lt_of_not_le hlater)
    simp [at_placeAfter (hlt r hr), hr] at hnot

/-! ### The greatest by a measure -/

theorem maxOf_of_ne_nil {l : List Nat} (h : l ≠ []) : maxOf l ∈ l ∧ ∀ x ∈ l, x ≤ maxOf l := by
  refine List.max?_eq_some_iff.1 ?_
  obtain ⟨m, hm⟩ := Option.isSome_iff_exists.1 (List.isSome_max?_iff.2 h)
  simp [maxOf, List.foldl_max, hm]

/-- The members of a list at which a measure is greatest. -/
def greatest (f : Nat → Nat) (l : List Nat) : List Nat := l.filter (fun r => f r == maxOf (l.map f))

theorem mem_greatest {f : Nat → Nat} {l : List Nat} {r : Nat} : r ∈ greatest f l ↔ r ∈ l ∧ ∀ q ∈ l, f q ≤ f r := by
  simp only [greatest, List.mem_filter, beq_iff_eq]
  refine and_congr_right fun hr => ?_
  obtain ⟨hmem, hle⟩ := maxOf_of_ne_nil (l := l.map f) (List.ne_nil_of_mem (List.mem_map_of_mem hr))
  obtain ⟨q, hq, hqmax⟩ := List.mem_map.1 hmem
  refine ⟨fun h x hx => h ▸ hle _ (List.mem_map_of_mem hx), fun h => ?_⟩
  exact Nat.le_antisymm (hle _ (List.mem_map_of_mem hr)) (hqmax ▸ h q hq)

theorem greatest_ne_nil {f : Nat → Nat} {l : List Nat} (h : l ≠ []) : greatest f l ≠ [] := by
  obtain ⟨hmem, hle⟩ := maxOf_of_ne_nil (l := l.map f) (by simpa using h)
  obtain ⟨q, hq, hqmax⟩ := List.mem_map.1 hmem
  exact List.ne_nil_of_mem (mem_greatest.2 ⟨hq, fun x hx => hqmax ▸ hle _ (List.mem_map_of_mem hx)⟩)

/-! ### The winner -/

theorem mem_eligible {s : State} {inst r : Nat} :
    r ∈ s.eligible inst ↔ r < 16 ∧ s.inPenalty inst r = false ∧ s.acceptable inst r ≠ [] := by
  simp [State.eligible]

section
variable {s : State} {inst : Nat} {elig : List Nat}

/-- The entry of the slot table in force for the round: the owner, and 16 more where the slot is owned. -/
def State.slotNow (s : State) (inst : Nat) : Nat := Tab.get s.m.slots 0 (inst * 64 + Tab.get s.m.rounds 0 inst % 64)

/-- The background rank of a requester: its priority and its age. -/
def State.rankOf (s : State) (inst r : Nat) : Nat := s.fld (ARB_PRIO_PRIO inst r) + s.age inst r

/-- The eligible requesters of the greatest rank and, among these, of the greatest age. -/
def State.bestRanked (s : State) (inst : Nat) (elig : List Nat) : List Nat :=
  greatest (s.age inst) (greatest (s.rankOf inst) elig)

theorem mem_bestRanked {r : Nat} : r ∈ s.bestRanked inst elig ↔ r ∈ elig ∧ ∀ q ∈ elig,
    s.rankOf inst q ≤ s.rankOf inst r ∧ (s.rankOf inst q = s.rankOf inst r → s.age inst q ≤ s.age inst r) := by
  simp only [State.bestRanked, mem_greatest]
  refine ⟨fun ⟨⟨hr, hrank⟩, hage⟩ => ⟨hr, fun q hq => ⟨hrank q hq, fun heq => ?_⟩⟩, fun ⟨hr, h⟩ => ?_⟩
  · exact hage q ⟨hq, fun x hx => heq ▸ hrank x hx⟩
  · refine ⟨⟨hr, fun q hq => (h q hq).1⟩, fun q ⟨hq, hmax⟩ => (h q hq).2 ?_⟩
    exact Nat.le_antisymm (h q hq).1 (hmax r hr)

theorem bestRanked_ne_nil (h : elig ≠ []) : s.bestRanked inst elig ≠ [] := greatest_ne_nil (greatest_ne_nil h)

theorem pickWinner_nil : s.pickWinner inst [] = none := rfl

theorem pickWinner_overdue (h : ∃ r ∈ elig, s.age inst r = 15) : s.pickWinner inst elig =
    (firstAfter (Tab.get s.m.lastOver 15 inst) (elig.filter (s.age inst · == 15))).map (·, 1) := by
  obtain ⟨r, hr, hage⟩ := h
  have hne : elig ≠ [] := List.ne_nil_of_mem hr
  have hover : elig.filter (s.age inst · == 15) ≠ [] := List.ne_nil_of_mem (List.mem_filter.2 ⟨hr, by simpa using hage⟩)
  simp [State.pickWinner, hne, hover]

theorem pickWinner_slot (hover : ∀ r ∈ elig, s.age inst r ≠ 15) (hslot : 16 ≤ s.slotNow inst)
    (howner : s.slotNow inst % 16 ∈ elig) : s.pickWinner inst elig = some (s.slotNow inst % 16, 0) := by
  have hne : elig ≠ [] := List.ne_nil_of_mem howner
  have hnone : elig.filter (s.age inst · == 15) = [] := List.filter_eq_nil_iff.2 (by simpa using hover)
  unfold State.slotNow at hslot howner ⊢
  simp [State.pickWinner, hne, hnone, hslot, howner]

theorem pickWinner_ranked (hne : elig ≠ []) (hover : ∀ r ∈ elig, s.age inst r ≠ 15)
    (hopen : s.slotNow inst < 16 ∨ s.slotNow inst % 16 ∉ elig) : s.pickWinner inst elig =
      (firstAfter (Tab.get s.m.lastBg 15 inst) (s.bestRanked inst elig)).map (·, 2) := by
  have hnone : elig.filter (s.age inst · == 15) = [] := List.filter_eq_nil_iff.2 (by simpa using hover)
  have hslot : ¬ (16 ≤ s.slotNow inst ∧ s.slotNow inst % 16 ∈ elig) := fun ⟨h, h'⟩ => hopen.elim (Nat.not_lt.2 h) (· h')
  unfold State.slotNow at hslot
  simp only [State.pickWinner, hnone, List.isEmpty_iff, hne, List.contains_iff_mem, hslot]
  rfl

/-- The winner of a round at which some requester is eligible: the three cases of 08 R288. -/
theorem pickWinner_of_eligible (hne : elig ≠ []) (hlt : ∀ r ∈ elig, r < 16) :
    ∃ w kind, s.pickWinner inst elig = some (w, kind) ∧ w ∈ elig
      ∧ ((∃ r ∈ elig, s.age inst r = 15) → s.age inst w = 15 ∧ ∀ r ∈ elig, s.age inst r = 15 →
        placeAfter (Tab.get s.m.lastOver 15 inst) w ≤ placeAfter (Tab.get s.m.lastOver 15 inst) r)
      ∧ ((∀ r ∈ elig, s.age inst r ≠ 15) → 16 ≤ s.slotNow inst → s.slotNow inst % 16 ∈ elig → w = s.slotNow inst % 16)
      ∧ ((∀ r ∈ elig, s.age inst r ≠ 15) → (s.slotNow inst < 16 ∨ s.slotNow inst % 16 ∉ elig) → ∀ r ∈ elig,
        s.rankOf inst r ≤ s.rankOf inst w ∧ (s.rankOf inst r = s.rankOf inst w → s.age inst r ≤ s.age inst w)
          ∧ (s.rankOf inst r = s.rankOf inst w → s.age inst r = s.age inst w →
            placeAfter (Tab.get s.m.lastBg 15 inst) w ≤ placeAfter (Tab.get s.m.lastBg 15 inst) r)) := by
  by_cases hover : ∃ r ∈ elig, s.age inst r = 15
  case pos =>
    obtain ⟨r, hr, hage⟩ := hover
    obtain ⟨w, hw, hfirst, hle⟩ := firstAfter_of_ne_nil (last := Tab.get s.m.lastOver 15 inst)
      (cand := elig.filter (s.age inst · == 15)) (List.ne_nil_of_mem (List.mem_filter.2 ⟨hr, by simpa using hage⟩))
      (fun r hr => hlt r (List.mem_of_mem_filter hr))
    obtain ⟨hwe, hwage⟩ := List.mem_filter.1 hw
    refine ⟨w, 1, by rw [pickWinner_overdue ⟨r, hr, hage⟩, hfirst]; rfl, hwe, fun _ => ⟨by simpa using hwage, ?_⟩,
      fun h => absurd hage (h r hr), fun h => absurd hage (h r hr)⟩
    exact fun q hq hqage => hle q (List.mem_filter.2 ⟨hq, by simpa using hqage⟩)
  case neg =>
    have hnot : ∀ r ∈ elig, s.age inst r ≠ 15 := fun r hr hage => hover ⟨r, hr, hage⟩
    by_cases hslot : 16 ≤ s.slotNow inst ∧ s.slotNow inst % 16 ∈ elig
    case pos =>
      obtain ⟨hvalid, howner⟩ := hslot
      exact ⟨_, 0, pickWinner_slot hnot hvalid howner, howner, fun h => absurd h hover, fun _ _ _ => rfl,
        fun _ hopen => (hopen.elim (Nat.not_lt.2 hvalid) (· howner)).elim⟩
    case neg =>
      have hopen : s.slotNow inst < 16 ∨ s.slotNow inst % 16 ∉ elig := by
        rwa [not_and_or, Nat.not_le] at hslot
      obtain ⟨w, hw, hfirst, hle⟩ := firstAfter_of_ne_nil (last := Tab.get s.m.lastBg 15 inst)
        (bestRanked_ne_nil (s := s) (inst := inst) hne) (fun r hr => hlt r (mem_bestRanked.1 hr).1)
      obtain ⟨hwe, hbest⟩ := mem_bestRanked.1 hw
      refine ⟨w, 2, by rw [pickWinner_ranked hne hnot hopen, hfirst]; rfl, hwe, fun h => absurd h hover,
        fun _ hvalid howner => absurd ⟨hvalid, howner⟩ hslot, fun _ _ r hr => ?_⟩
      obtain ⟨hrank, hage⟩ := hbest r hr
      refine ⟨hrank, hage, fun hrankEq hageEq => hle r (mem_bestRanked.2 ⟨hr, fun q hq => ?_⟩)⟩
      rw [hrankEq, hageEq]
      exact hbest q hq

end

/-! ### How ages move -/

/-- The age of a requester after a round that `w` won, from its age before. -/
def newAge (elig asking : List Nat) (w : Option Nat) (r a : Nat) : Nat :=
  if w = some r ∨ r ∉ asking then 0 else if r ∈ elig then min (a + 1) 15 else a

/-- The age of one requester moved. -/
def State.moveAge (inst : Nat) (elig asking : List Nat) (w : Option Nat) (s : State) (r : Nat) : State :=
  if w == some r || !asking.contains r then s.setAge inst r 0
  else if elig.contains r then s.setAge inst r (min (s.age inst r + 1) 15)
  else s

theorem ageRound_eq (s : State) (inst : Nat) (elig asking : List Nat) (w : Option Nat) :
    s.ageRound inst elig asking w = (List.range 16).foldl (State.moveAge inst elig asking w) s := rfl

section
variable {inst : Nat} {elig asking : List Nat} {w : Option Nat}

theorem age_setAge (s : State) (inst q v r : Nat) : (s.setAge inst q v).age inst r = if r = q then v else s.age inst r := by
  simp [State.age, State.setAge, Tab.get_put]

theorem age_moveAge (s : State) (q r : Nat) : (s.moveAge inst elig asking w q).age inst r =
    if r = q then newAge elig asking w r (s.age inst r) else s.age inst r := by
  by_cases hq : r = q
  case pos =>
    subst hq
    unfold State.moveAge newAge
    split_ifs <;> simp_all [age_setAge]
  case neg =>
    unfold State.moveAge
    split_ifs <;> simp [age_setAge, hq]

theorem age_foldl_moveAge (l : List Nat) (hl : l.Nodup) (s : State) (r : Nat) :
    (l.foldl (State.moveAge inst elig asking w) s).age inst r =
      if r ∈ l then newAge elig asking w r (s.age inst r) else s.age inst r := by
  induction l generalizing s with
  | nil => simp
  | cons q l ih =>
    obtain ⟨hq, hl⟩ := List.nodup_cons.1 hl
    rw [List.foldl_cons, ih hl, age_moveAge]
    by_cases h : r = q
    · subst h
      simp [hq]
    · simp [h]

theorem age_ageRound (s : State) {r : Nat} (hr : r < 16) :
    (s.ageRound inst elig asking w).age inst r = newAge elig asking w r (s.age inst r) := by
  rw [ageRound_eq, age_foldl_moveAge _ List.nodup_range, if_pos (List.mem_range.2 hr)]

end

end Sys2Proof.Machine
end

section
open Sys2Proof Sys2Proof.Machine

/-- Settles O25: the winner by the three cases of 08 R288, and the age of each requester after the round. -/
theorem arbiterChoice : Obligations.ArbiterChoice := by
  refine fun inst s => ⟨fun r => mem_eligible, fun h => ?none, fun h => ?winner, fun asking w r hr => ?ages⟩
  case none => rw [h, pickWinner_nil]
  case winner => exact pickWinner_of_eligible h fun r hr => (mem_eligible.1 hr).1
  case ages =>
    rw [age_ageRound s hr]
    unfold newAge
    refine ⟨fun h => if_pos h, fun hw ha he => ?_, fun hw ha he => ?_⟩
    · rw [if_neg (by tauto), if_pos he]
    · rw [if_neg (by tauto), if_neg he]

end

section
/-! PROOF. What a stack's controller does of its own accord: refresh and row closing (08 R272 to R275), the patrol scrub (08 R282 to
R284), the key sweep (16 R529). -/

namespace Sys2Proof.Machine

/-! ### Banks -/

theorem State.bank_setBank (s : State) (b : Nat) (v : Bank) : (s.setBank b v).bank b = v := Tab.get_put_same ..

theorem State.bank_setBank_ne (s : State) {b b' : Nat} (v : Bank) (h : b' ≠ b) : (s.setBank b v).bank b' = s.bank b' :=
  Tab.get_put_ne _ _ _ _ _ _ h

theorem bankTakes_of_refreshing {s : State} {r : Req} (hb : r.bank ≠ 0)
    (h : s.refreshDue r.inst r.bank = true ∨ s.cyc r.inst < (s.bank r.bank).refEnd) : s.bankTakes r = false := by
  have hbusy : s.refreshing r.inst r.bank = true := by
    simpa [State.refreshing, hb] using h.symm
  simp [State.bankTakes, hb, hbusy]

theorem bankEvents : bankEventsLaw := by
  refine fun st pc bank s => ⟨fun hdue => ?refresh, fun hearly => ?early, fun r hinst hbank h => ?busy, fun hopen hunused => ?close⟩
  case refresh =>
    refine ⟨_, (if_pos hdue : execBankRefresh st pc bank s = _), ?_, ?_, fun b' hb' => s.bank_setBank_ne _ hb', rfl⟩ <;>
      rw [State.bank_setBank]
  case early =>
    exact (if_neg (ne_true_of_eq_false hearly) : execBankRefresh st pc bank s = _)
  case busy =>
    rw [← hinst, ← hbank] at h
    exact bankTakes_of_refreshing (hbank ▸ Nat.succ_ne_zero _) h
  case close =>
    refine ⟨_, (if_pos ⟨hopen, hunused⟩ : execRowClose st pc bank s = _), ?_, ?_, fun b' hb' => s.bank_setBank_ne _ hb'⟩ <;>
      rw [State.bank_setBank]

/-! ### A request of the controller joins its queue -/

/-- Only the list of requests, and the number of the next, have moved. -/
def ReqsMoved (s u : State) : Prop := ∃ rs n, u = { s with m := { s.m with reqs := rs, nextId := n } }

theorem ReqsMoved.refl (s : State) : ReqsMoved s s := ⟨_, _, rfl⟩

theorem ReqsMoved.trans {s u v : State} (h : ReqsMoved s u) (g : ReqsMoved u v) : ReqsMoved s v := by
  obtain ⟨rs, n, rfl⟩ := h
  obtain ⟨rs', n', rfl⟩ := g
  exact ⟨rs', n', rfl⟩

theorem reqsMoved_arrive (s : State) (inst rq : Nat) : ReqsMoved s (s.arrive inst rq) := by
  unfold State.arrive
  dsimp only
  split
  · exact .refl s
  · exact ⟨_, _, rfl⟩

theorem reqsMoved_foldl_arrive (l : List (Nat × Nat)) (s : State) :
    ReqsMoved s (l.foldl (fun s e => s.arrive e.1 e.2) s) :=
  foldl_rel (fun u v => ReqsMoved v u) l _ s ReqsMoved.refl (fun _ _ _ h g => g.trans h)
    (fun s e _ h => h ▸ reqsMoved_arrive s e.1 e.2)

/-- A requester has a request for this use at an arbiter. -/
def AsksFor (s : State) (inst rq : Nat) (use : RFor) : Prop := ∃ y ∈ s.m.reqs, y.inst = inst ∧ y.rqr = rq ∧ y.use = use

theorem AsksFor.arrive {s : State} {inst rq : Nat} {use : RFor} (h : AsksFor s inst rq use) (i q : Nat) :
    AsksFor (s.arrive i q) inst rq use := by
  obtain ⟨y, hy, hinst, hrq, huse⟩ := h
  unfold State.arrive
  dsimp only
  split
  · exact ⟨y, hy, hinst, hrq, huse⟩
  · refine ⟨_, List.mem_map_of_mem hy, ?_⟩
    split <;> exact ⟨hinst, hrq, huse⟩

theorem AsksFor.foldl_arrive {inst rq : Nat} {use : RFor} (l : List (Nat × Nat)) {s : State} (h : AsksFor s inst rq use) :
    AsksFor (l.foldl (fun s e => s.arrive e.1 e.2) s) inst rq use := by
  induction l generalizing s with
  | nil => exact h
  | cons e l ih => exact ih (h.arrive e.1 e.2)

theorem unitRuns_head (u : Nat) (acc l : List (Nat × Byte)) : ∃ cs r, unitRuns u acc l = (u, cs) :: r := by
  induction l generalizing acc with
  | nil => exact ⟨_, _, rfl⟩
  | cons e l ih =>
    unfold unitRuns
    split
    · exact ih _
    · exact ⟨_, _, rfl⟩

theorem groupCells_head (e : Nat × Byte) (l : List (Nat × Byte)) : ∃ cs r, groupCells (e :: l) = (unitOf e.1, cs) :: r := by
  obtain ⟨cs, r, h⟩ := unitRuns_head (unitOf e.1) [e] l
  simp [groupCells, h, List.eraseDups_cons]

/-- The requests of a unit that is no core for bytes of a stack, no line of which is read: they stand at their pseudo-channels,
and nothing else has moved. -/
theorem askCells_of_stack {s : State} {who unit : Nat} {use : RFor} {write : Bool} {k : Nat} {v : Byte}
    {cells : List (Nat × Byte)} (hlines : write = true ∨ use = .scrub) (hstack : isStackKey k = true) :
    ReqsMoved s (s.askCells who unit use write ((k, v) :: cells))
      ∧ AsksFor (s.askCells who unit use write ((k, v) :: cells)) (instOf (unitOf k)) who use := by
  have hcond : (write || use == .scrub) = true := by simpa using hlines
  have hunit : isStackKey (unitOf k) = true := by
    simp only [isStackKey, unitOf, decide_eq_true_eq] at hstack ⊢
    rw [if_pos (by simpa using hstack)]
    omega
  obtain ⟨cs, gs, hgroups⟩ := groupCells_head (k, v) (cells.filter
    (fun e => isStackKey e.1 || (decide (2 ^ 43 ≤ e.1) && decide (e.1 < 2 ^ 44))))
  unfold State.askCells
  extract_lets cs₀ hits cs₁ s₁ proto₀ proto rs _ s₂
  have hhits : hits = [] := if_pos hcond
  have hs₁ : s₁ = s := by simp only [s₁, hhits, List.foldl_nil]
  have hcs : cs₁ = (k, v) :: cells.filter (fun e => isStackKey e.1 || (decide (2 ^ 43 ≤ e.1) && decide (e.1 < 2 ^ 44))) := by
    simp [cs₁, cs₀, hhits, hstack]
  obtain ⟨y, hy, hplace⟩ : ∃ y ∈ rs, y.inst = instOf (unitOf k) ∧ y.rqr = who ∧ y.use = use := by
    simp only [rs, hcs, hgroups]
    exact ⟨_, List.mem_cons_self, by simp [proto, proto₀, Req.ofCore, rqrUnit, hunit]⟩
  have hasks : AsksFor s₂ (instOf (unitOf k)) who use := ⟨y, List.mem_append_right _ hy, hplace⟩
  exact ⟨.trans ⟨_, _, by rw [← hs₁]⟩ (reqsMoved_foldl_arrive _ s₂), hasks.foldl_arrive _⟩

theorem asksOwn_iff {s : State} {st : Nat} {sweep : Bool} :
    s.asksOwn st sweep = true ↔ ∃ r ∈ s.m.reqs, r.inst / 64 = st ∧ r.rqr = 13 ∧ r.sweeps = sweep := by
  simp [State.asksOwn, and_assoc]

theorem AsksFor.asksOwn {s : State} {inst : Nat} {use : RFor} (h : AsksFor s inst 13 use) {st : Nat} (hst : inst / 64 = st)
    {sweep : Bool} (hsweep : ∀ r : Req, r.use = use → r.sweeps = sweep) : s.asksOwn st sweep = true := by
  obtain ⟨y, hy, hinst, hrq, huse⟩ := h
  exact asksOwn_iff.2 ⟨y, hy, hinst ▸ hst, hrq, hsweep y huse⟩

theorem sweeps_of_scrub (r : Req) (h : r.use = .scrub) : r.sweeps = false := by
  rw [Req.sweeps, h]

theorem sweeps_of_sweep {p : Nat} (r : Req) (h : r.use = .sweep p) : r.sweeps = true := by
  rw [Req.sweeps, h]

theorem keyStack_lt {st a : Nat} (hst : st < 8) (ha : a < 2 ^ 36) : isStackKey (keyStack st a) = true := by
  have hkey : keyStack st a < 2 ^ 39 := by
    unfold keyStack
    omega
  simpa [isStackKey] using hkey

/-- The arbiter of a stack's key is that of one of the stack's 64 pseudo-channels (08 R285). -/
theorem instOf_keyStack_div {st a : Nat} (hst : st < 8) (ha : a < 2 ^ 36) : instOf (unitOf (keyStack st a)) / 64 = st := by
  have hkey := keyStack_lt hst ha
  have hunit : unitOf (keyStack st a) = keyStack st a / 256 * 256 := if_pos hkey
  have hstack : isStackKey (keyStack st a / 256 * 256) = true := by
    simp only [isStackKey, decide_eq_true_eq] at hkey ⊢
    omega
  rw [hunit, instOf, if_pos hstack, pcOf, bits, keyStack]
  omega

/-- A request of the controller for a burst of its own stack. -/
theorem ask_burst {s : State} {st a : Nat} {use : RFor} {write sweep : Bool} (hlines : write = true ∨ use = .scrub) (hst : st < 8)
    (ha : a < 2 ^ 36) (hsweep : ∀ r : Req, r.use = use → r.sweeps = sweep) :
    ReqsMoved s (s.ask 13 0 use write ((List.range 64).map (· + keyStack st a)))
      ∧ (s.ask 13 0 use write ((List.range 64).map (· + keyStack st a))).asksOwn st sweep = true := by
  have hkeys : ((List.range 64).map (· + keyStack st a)).map (·, (0 : Byte)) =
      (keyStack st a, 0) :: ((List.range 63).map (· + 1 + keyStack st a)).map (·, 0) := by
    simp [List.range_succ_eq_map]
  obtain ⟨hmoved, hasks⟩ := askCells_of_stack (s := s) (who := 13) (unit := 0) (v := 0)
    (cells := ((List.range 63).map (· + 1 + keyStack st a)).map (·, 0)) hlines (keyStack_lt hst ha)
  rw [State.ask, hkeys]
  exact ⟨hmoved, hasks.asksOwn (instOf_keyStack_div hst ha) hsweep⟩

/-! ### A codeword read (08 R282, R284) -/

theorem readCode_of_le_one {s : State} {b : Nat} (h : popCount (s.symbols b) ≤ 1) :
    ∃ u, s.readCode b = (true, u) ∧ u.m = s.m := by
  unfold State.readCode
  dsimp only
  split
  · exact ⟨s, rfl, rfl⟩
  · exact ⟨s.noteCe b, if_pos (by omega), by simp⟩

theorem readCode_of_clean {s : State} {b : Nat} (h : s.symbols b = 0) : s.readCode b = (true, s) := by
  rw [State.readCode, h]
  rfl

theorem readCode_of_two_le {s : State} {b : Nat} (h : 2 ≤ popCount (s.symbols b)) :
    s.readCode b = (false, s.stackUE (b * 64)) := by
  unfold State.readCode
  dsimp only
  rw [if_neg (by omega), if_neg (by omega)]

/-! ### An uncorrectable codeword leaves its address -/

/-- A field among the registers of the stacks (20 R639). -/
def StackField (g : Fld) : Prop := 0x5000000 * 64 ≤ g.key ∧ g.key < 0x6000000 * 64

section
variable {g : Fld} (hg : StackField g)
include hg

theorem fld_setFld_off_stacks (s : State) {f : Fld} (v : Nat) (hf : f.key < 0x5000000 * 64 ∨ 0x6000000 * 64 ≤ f.key) :
    (s.setFld f v).fld g = s.fld g := by
  obtain ⟨hlo, hhi⟩ := hg
  exact s.fld_setFld_ne v (by omega)

theorem StackField.ne_lost : g.key ≠ ERR_LOST_LOW.key ∧ g.key ≠ ERR_LOST_HIGH.key := by
  obtain ⟨hlo, hhi⟩ := hg
  simp only [ERR_LOST_LOW, ERR_LOST_HIGH, Fld.at_key]
  omega

theorem fld_file_stack (s : State) (detail cls kind index arg : Nat) (part : Option Nat) :
    (s.file detail cls kind index arg part).fld g = s.fld g :=
  State.fld_report hg.ne_lost.1 hg.ne_lost.2

theorem fld_setTaskState_stack (s : State) (core v : Nat) : (s.setTaskState core v).fld g = s.fld g :=
  fld_setFld_off_stacks hg s v (by simp only [CL_TASK_STATE_STATE, Fld.at_key]; omega)

theorem fld_taskFault_stack (s : State) (core thread pc : Nat) (f : FInfo) (extra : Nat) (instr : Word) :
    (s.taskFault core thread pc f extra instr).fld g = s.fld g := by
  refine (State.fld_sendTok hg.ne_lost.1 hg.ne_lost.2).trans ?_
  refine (fld_setTaskState_stack hg (s.leaveTask core) core tkFaulted).trans ?_
  simp [State.fld]

theorem fld_haltCore_stack (s : State) (core : Nat) : (s.haltCore core).fld g = s.fld g := by
  unfold State.haltCore State.engineFault
  split
  · rfl
  · split
    · split
      · rfl
      · exact fld_taskFault_stack hg ..
    · refine (fld_setTaskState_stack hg _ core tkHalted).trans ?_
      simp [State.fld]

theorem fld_fencePart_stack (s : State) (p cause : Nat) : (s.fencePart p cause).fld g = s.fld g := by
  have hhalt : ((s.partCores p).foldl (fun s c => s.haltCore c) s).fld g = s.fld g :=
    foldl_rel (fun u v => u.fld g = v.fld g) _ _ s (fun _ => rfl) (fun _ _ _ => Eq.trans)
      (fun s c _ h => h ▸ fld_haltCore_stack hg s c)
  unfold State.fencePart
  split
  · extract_lets mask s₁ _ s₂ s₃ s₄
    have h₃ : s₃.fld g = s.fld g :=
      (fld_setFld_off_stacks hg s₂ 0 (by simp only [PART_KEY_SWEEP, Fld.at_key]; omega)).trans hhalt
    have h₄ : s₄.fld g = s.fld g := by
      unfold s₄
      split
      · rw [fld_setFld_off_stacks hg _ _ (by simp only [STEP_STATUS_CAUSE, Fld.at_key]; omega),
          fld_setFld_off_stacks hg _ _ (by simp only [STEP_STATUS_STATE, Fld.at_key]; omega), h₃]
      · exact h₃
    rw [fld_setFld_off_stacks hg _ _ (by simp only [PART_STATUS_CAUSE, Fld.at_key]; omega),
      fld_setFld_off_stacks hg _ _ (by simp only [PART_STATUS_STATE, Fld.at_key]; omega), h₄]
  · rfl

/-- The report and the fence after an uncorrectable error leave the registers of the stacks as the error has set them. -/
theorem fld_stackUE_stack (s : State) (key : Nat) : (s.stackUE key).fld g =
    ((s.setFld (STK_UE_ADDR_ADDR (key / 2 ^ 36)) (key % 2 ^ 36)).setFld (STK_UE_ADDR_VALID (key / 2 ^ 36)) 1).fld g := by
  unfold State.stackUE
  dsimp only
  split
  · rw [fld_fencePart_stack hg, fld_file_stack hg]
  · rw [fld_file_stack hg]

end

theorem stackField_ueAddr {st : Nat} (h : st < 8) : StackField (STK_UE_ADDR_ADDR st) ∧ StackField (STK_UE_ADDR_VALID st) := by
  simp only [StackField, STK_UE_ADDR_ADDR, STK_UE_ADDR_VALID, Fld.at_key]
  omega

theorem stackUE_address {s : State} {st a : Nat} (hst : st < 8) (ha : a < 2 ^ 36) :
    (s.stackUE (keyStack st a)).fld (STK_UE_ADDR_VALID st) = 1 ∧ (s.stackUE (keyStack st a)).fld (STK_UE_ADDR_ADDR st) = a := by
  obtain ⟨haddr, hvalid⟩ := stackField_ueAddr hst
  have hdiv : keyStack st a / 2 ^ 36 = st := by unfold keyStack; omega
  have hmod : keyStack st a % 2 ^ 36 = a := by unfold keyStack; omega
  have hne : (STK_UE_ADDR_VALID st).key ≠ (STK_UE_ADDR_ADDR st).key := by
    simp only [STK_UE_ADDR_ADDR, STK_UE_ADDR_VALID, Fld.at_key]
    omega
  rw [fld_stackUE_stack hvalid, fld_stackUE_stack haddr, hdiv, hmod, State.fld_setFld, State.fld_setFld_ne _ _ hne, State.fld_setFld]
  exact ⟨rfl, Nat.mod_eq_of_lt ha⟩

/-! ### The patrol scrub -/

theorem stackBytes_le (s : State) : s.stackBytes ≤ 2 ^ 36 := by
  unfold State.stackBytes
  split <;> decide

theorem serveBurst_scrub_read {s u : State} {r : Req} {b : Nat} (h : r.use = .scrub) (hread : s.readCode b = (true, u)) :
    s.serveBurst r b = (if s.symbols b = 0 then 1 else 2, false, u.setSymbols b 0) := by
  simp [State.serveBurst, h, hread]

theorem serveBurst_scrub_lost {s : State} {r : Req} {b : Nat} (h : r.use = .scrub) (hbad : 2 ≤ popCount (s.symbols b)) :
    s.serveBurst r b = (if s.symbols b = 0 then 1 else 2, true, s.stackUE (b * 64)) := by
  simp [State.serveBurst, h, readCode_of_two_le hbad]

theorem symbols_setSymbols (s : State) (b v : Nat) : (s.setSymbols b v).symbols b = v := Tab.get_put_same ..

section
variable {s : State} {st : Fin 8} {addr : BitVec 36}

theorem exec_patrolScrub (hclk : Clocked s) (haddr : addr.toNat < s.stackBytes) : exec (.patrolScrub st addr []) s =
    if s.asksOwn st false || !s.patrolAt st (addr.toNat / 64) then .next s
    else
      let u := { s with m := { s.m with
        scrubFrom := if addr.toNat / 64 = 0 then Tab.put s.m.scrubFrom 0 st s.timeUs else s.m.scrubFrom
        scrubAt := Tab.put s.m.scrubAt 0 st (addr.toNat / 64 + 1) } }
      .next (u.ask 13 0 .scrub false ((List.range 64).map (· + keyStack st (64 * (addr.toNat / 64))))) := by
  refine Eq.trans (b := execPatrolScrub st addr [] s) rfl ?_
  rw [execPatrolScrub, unlessStopped_off hclk]
  exact if_pos haddr

end

theorem patrolScrub : patrolScrubLaw := by
  intro st addr s hclk haddr cw b
  have hlt : addr.toNat < 2 ^ 36 := haddr.trans_le (stackBytes_le s)
  have hb : b * 64 = keyStack st (addr.toNat / 64 * 64) := by
    simp only [b, burstOf, keyStack]
    omega
  refine ⟨fun hfree hnext => ?asks, fun hno => ?stays, fun r hr => ?served⟩
  case asks =>
    have hgoes : ¬ (s.asksOwn st false || !s.patrolAt st cw) = true := by simp [hfree, hnext]
    rw [exec_patrolScrub hclk haddr, if_neg hgoes]
    extract_lets _ u
    obtain ⟨⟨rs, n, hu⟩, hasks⟩ := ask_burst (s := u) (a := 64 * (addr.toNat / 64)) (write := false) (.inr rfl) st.isLt (by omega)
      sweeps_of_scrub
    refine ⟨_, rfl, ?_, ?_, ?_, hasks⟩ <;> rw [hu]
    exact Tab.get_put_same s.m.scrubAt 0 st.val (cw + 1)
  case stays =>
    rw [exec_patrolScrub hclk haddr, if_pos (by simpa using hno)]
  case served =>
    by_cases hbad : 2 ≤ popCount (s.symbols b)
    case pos =>
      obtain ⟨hvalid, hue⟩ := stackUE_address (s := s) (a := addr.toNat / 64 * 64) st.isLt (by omega)
      rw [← hb] at hvalid hue
      exact ⟨_, _, fun h => absurd hbad (by omega), fun _ => ⟨serveBurst_scrub_lost hr hbad, hvalid, hue⟩⟩
    case neg =>
      obtain ⟨u, hread, hm⟩ := readCode_of_le_one (s := s) (b := b) (by omega)
      exact ⟨_, _, fun _ => ⟨serveBurst_scrub_read hr hread, symbols_setSymbols _ _ _, by simp [hm]⟩, fun h => absurd h hbad⟩

/-! ### The key sweep -/

theorem serveBurst_sweep {s : State} {r : Req} {p b : Nat} (h : r.use = .sweep p) (hclean : s.symbols b = 0) :
    s.serveBurst r b = (2, false, (s.setSymbols b 0).sweptBurst p b) := by
  simp [State.serveBurst, h, readCode_of_clean hclean]

/-- A burst swept before the end of a page and of the stack. -/
theorem sweptBurst_next {s : State} {st p i : Nat} (hsweeps : s.sweeps p = true) (hi : Tab.get s.m.sweepAt 0 st = i) (hlt : i < 2 ^ 30)
    (hpage : (i + 1) % 32768 ≠ 0) (hend : (i + 1) * 64 ≠ s.stackBytes) :
    s.sweptBurst p (burstOf (keyStack st 0) + i) = { s with m := { s.m with
      sweepMap := Tab.put s.m.sweepMap false (burstOf (keyStack st 0) + i) true
      sweepAt := Tab.put s.m.sweepAt 0 st (i + 1) } } := by
  have hst : stackOfBurst (burstOf (keyStack st 0) + i) = st := by
    simp only [stackOfBurst, burstOf, keyStack]
    omega
  unfold State.sweptBurst
  simp only [hst, hi, hsweeps, hpage, beq_self_eq_true, Bool.and_self, if_true, if_false]
  exact if_neg hend

theorem exec_sweepRewrite {s : State} {st : Fin 8} {p : Nat} (hclk : Clocked s) (hp : s.secPart st = some p)
    (hsweeps : s.sweeps p = true) (hgoes : s.m.sweepEnd.contains st.val = false) : exec (.sweepRewrite st) s =
      if s.asksOwn st true then .next s
      else .next (s.ask 13 0 (.sweep p) true ((List.range 64).map (· + keyStack st (64 * Tab.get s.m.sweepAt 0 st)))) := by
  refine Eq.trans (b := execSweepRewrite st s) rfl ?_
  rw [execSweepRewrite, unlessStopped_off hclk, hp]
  have hcond : (s.sweeps p && !s.m.sweepEnd.contains st.val && !s.asksOwn st true) = !s.asksOwn st true := by
    rw [hsweeps, hgoes]
    rfl
  simp only [hcond]
  cases s.asksOwn st true <;> simp

theorem sweepRewrite : sweepRewriteLaw := by
  intro st p s hclk hp hsweeps hgoes i b
  refine ⟨fun hfree hi => ?asks, fun hasks => ?waits, fun r hr hclean hi hpage hend => ?served⟩
  case asks =>
    obtain ⟨⟨rs, n, hu⟩, hasks⟩ := ask_burst (s := s) (a := 64 * i) (write := true) (.inl rfl) st.isLt (by omega)
      (sweeps_of_sweep (p := p))
    rw [exec_sweepRewrite hclk hp hsweeps hgoes, if_neg (ne_true_of_eq_false hfree)]
    refine ⟨_, rfl, hasks, ?_, ?_⟩ <;> rw [hu]
  case waits =>
    rw [exec_sweepRewrite hclk hp hsweeps hgoes, if_pos hasks]
  case served =>
    refine ⟨_, serveBurst_sweep hr hclean, ?_⟩
    have hsweeps' : (s.setSymbols b 0).sweeps p = true := by
      simpa [State.sweeps, State.on, State.fld, State.partState] using hsweeps
    have hend' : (i + 1) * 64 ≠ (s.setSymbols b 0).stackBytes := by
      simpa [State.stackBytes, State.isB, State.on, State.fld] using hend
    rw [sweptBurst_next (i := i) hsweeps' rfl hi hpage hend']
    exact ⟨Tab.get_put_same s.m.sweepMap false b true, Tab.get_put_same s.m.sweepAt 0 st.val (i + 1), rfl⟩

end Sys2Proof.Machine
end

section
open Sys2Proof Sys2Proof.Machine

/-- Settles O28: the events of a bank, the patrol scrub and the key sweep, each asked for and served. -/
theorem stackMaintenance : Obligations.StackMaintenance := ⟨bankEvents, patrolScrub, sweepRewrite⟩

end

section
/-! PROOF. What the service of a request leaves of the arbiters' round numbers (08 R288). -/

namespace Sys2Proof.Machine

/-! ### Codewords -/

@[simp] theorem State.setSymbols_rounds (s : State) (b v : Nat) : (s.setSymbols b v).m.rounds = s.m.rounds := rfl

@[simp] theorem State.wrCells_rounds (s : State) (l : List (Nat × Byte)) : (s.wrCells l).m.rounds = s.m.rounds := rfl

@[simp] theorem State.haltCore_rounds (s : State) (core : Nat) : (s.haltCore core).m.rounds = s.m.rounds := by
  unfold State.haltCore
  (repeat' split) <;> simp

@[simp] theorem State.fencePart_rounds (s : State) (p cause : Nat) : (s.fencePart p cause).m.rounds = s.m.rounds := by
  have hhalt : ((s.partCores p).foldl (fun s c => s.haltCore c) s).m.rounds = s.m.rounds :=
    foldl_rel (fun u v => u.m.rounds = v.m.rounds) _ _ s (fun _ => rfl) (fun _ _ _ => Eq.trans)
      (fun s c _ h => h ▸ s.haltCore_rounds c)
  unfold State.fencePart
  dsimp only
  (repeat' split) <;> simp [hhalt]

@[simp] theorem State.stackUE_rounds (s : State) (key : Nat) : (s.stackUE key).m.rounds = s.m.rounds := by
  unfold State.stackUE
  dsimp only
  split <;> simp

@[simp] theorem State.readCode_rounds (s : State) (b : Nat) : (s.readCode b).2.m.rounds = s.m.rounds := by
  unfold State.readCode
  dsimp only
  (repeat' split) <;> simp

@[simp] theorem State.trackRead_rounds (s : State) (b cyc : Nat) : (s.trackRead b cyc).m.rounds = s.m.rounds := by
  unfold State.trackRead
  dsimp only
  (repeat' split) <;> rfl

@[simp] theorem State.sweptBurst_rounds (s : State) (p b : Nat) : (s.sweptBurst p b).m.rounds = s.m.rounds := by
  unfold State.sweptBurst
  dsimp only
  (repeat' split) <;> simp [State.sweepDone, State.sweepPageEnd]

@[simp] theorem State.serveBurst_rounds (s : State) (r : Req) (b : Nat) : (s.serveBurst r b).2.2.m.rounds = s.m.rounds := by
  unfold State.serveBurst
  dsimp only
  (repeat' split) <;> simp

/-! ### Operations -/

@[simp] theorem State.dropXfer_rounds (s : State) (id : Nat) : (s.dropXfer id).m.rounds = s.m.rounds := rfl

@[simp] theorem State.pushXfer_rounds (s : State) (x : Xfer) (stream write : Bool) (groups : List (Nat × List (Nat × Byte))) :
    (s.pushXfer x stream write groups).m.rounds = s.m.rounds := rfl

@[simp] theorem State.feedDone_rounds (s : State) (master : Nat) (coll : Bool) :
    (s.feedDone master coll).m.rounds = s.m.rounds := by
  unfold State.feedDone
  dsimp only
  (repeat' split) <;> simp

@[simp] theorem State.tryClose_rounds (s : State) (core q : Nat) : (s.tryClose core q).m.rounds = s.m.rounds := by
  unfold State.tryClose
  dsimp only
  split
  · simp [State.freeStream, State.orphanFeeds]
  · rfl

@[simp] theorem State.endXfer_rounds (s : State) (x : Xfer) : (s.endXfer x).m.rounds = s.m.rounds := by
  unfold State.endXfer
  dsimp only
  (repeat' split) <;> simp [State.wrB]

@[simp] theorem State.finishXfer_rounds (s : State) (x : Xfer) : (s.finishXfer x).m.rounds = s.m.rounds := by
  unfold State.finishXfer
  split <;> simp [State.nextReads]

/-! ### Requests -/

@[simp] theorem State.arrive_rounds (s : State) (inst rq : Nat) : (s.arrive inst rq).m.rounds = s.m.rounds := by
  unfold State.arrive
  dsimp only
  split <;> rfl

@[simp] theorem State.updReq_rounds (s : State) (r : Req) : (s.updReq r).m.rounds = s.m.rounds := rfl

@[simp] theorem State.queueReq_rounds (s : State) (r : Req) : (s.queueReq r).m.rounds = s.m.rounds := by
  have htouch : ∀ (l : List Nat) (u : State), (l.foldl State.touchStaged u).m.rounds = u.m.rounds := fun l u =>
    foldl_rel (fun u v => u.m.rounds = v.m.rounds) l _ u (fun _ => rfl) (fun _ _ _ => Eq.trans) (fun _ _ _ h => h ▸ rfl)
  simp [State.queueReq, htouch]

@[simp] theorem State.park_rounds (s : State) (r : Req) : (s.park r).m.rounds = s.m.rounds := by
  unfold State.park
  dsimp only
  (repeat' split) <;> simp

@[simp] theorem State.promoteList_rounds (s : State) (l : List Req) (blocked : List Nat) :
    (s.promoteList l blocked).m.rounds = s.m.rounds := by
  induction l generalizing s blocked with
  | nil => rfl
  | cons r rest ih =>
    unfold State.promoteList
    (repeat' split) <;> simp [ih]

@[simp] theorem State.promote_rounds (s : State) (core : Nat) : (s.promote core).m.rounds = s.m.rounds :=
  s.promoteList_rounds _ _

@[simp] theorem State.landReq_rounds (s : State) (r : Req) : (s.landReq r).m.rounds = s.m.rounds := by
  unfold State.landReq
  dsimp only
  (repeat' split) <;> simp

@[simp] theorem State.noteLatency_rounds (s : State) (r : Req) : (s.noteLatency r).m.rounds = s.m.rounds := by
  unfold State.noteLatency
  split <;> rfl

@[simp] theorem State.served_rounds (s : State) (r : Req) : (s.served r).m.rounds = s.m.rounds := by
  unfold State.served
  dsimp only
  (repeat' split) <;> simp

@[simp] theorem State.setBank_rounds (s : State) (b : Nat) (v : Bank) : (s.setBank b v).m.rounds = s.m.rounds := rfl

@[simp] theorem State.passTurn_rounds (s : State) (inst : Nat) (r : Req) : (s.passTurn inst r).m.rounds = s.m.rounds := by
  unfold State.passTurn
  dsimp only
  split <;> rfl

@[simp] theorem State.serveNext_rounds (s : State) (r : Req) : (s.serveNext r).2.m.rounds = s.m.rounds := by
  unfold State.serveNext
  dsimp only
  (repeat' split) <;> simp [State.dropLost]

end Sys2Proof.Machine
end

section
/-! PROOF. A round of a memory arbiter: how it goes on, what it leaves alone, what it serves (08 R277, R281, R288 to R292). -/

namespace Sys2Proof.Machine

/-! ### What only moves the ages, or only marks banks -/

/-- Only ages and round numbers have moved. -/
def AgesMoved (s u : State) : Prop := ∃ a n, u = { s with m := { s.m with ages := a, rounds := n } }

theorem AgesMoved.refl (s : State) : AgesMoved s s := ⟨_, _, rfl⟩

theorem AgesMoved.trans {s u v : State} (h : AgesMoved s u) (g : AgesMoved u v) : AgesMoved s v := by
  obtain ⟨a, n, rfl⟩ := h
  obtain ⟨a', n', rfl⟩ := g
  exact ⟨a', n', rfl⟩

theorem agesMoved_moveAge (inst : Nat) (elig asking : List Nat) (w : Option Nat) (s : State) (r : Nat) :
    AgesMoved s (s.moveAge inst elig asking w r) := by
  unfold State.moveAge
  split_ifs
  · exact ⟨_, _, rfl⟩
  · exact ⟨_, _, rfl⟩
  · exact .refl s

theorem agesMoved_ageRound (s : State) (inst : Nat) (elig asking : List Nat) (w : Option Nat) :
    AgesMoved s (s.ageRound inst elig asking w) :=
  foldl_rel (fun u v => AgesMoved v u) _ _ s AgesMoved.refl (fun _ _ _ h g => g.trans h)
    (fun s r _ h => h ▸ agesMoved_moveAge inst elig asking w s r)

theorem agesMoved_advance (s : State) (inst n : Nat) : AgesMoved s (s.advance inst n) := ⟨_, _, rfl⟩

theorem AgesMoved.reqs {s u : State} (h : AgesMoved s u) : u.m.reqs = s.m.reqs := by
  obtain ⟨a, n, rfl⟩ := h
  rfl

theorem AgesMoved.mem {s u : State} (h : AgesMoved s u) : u.m.mem = s.m.mem := by
  obtain ⟨a, n, rfl⟩ := h
  rfl

theorem AgesMoved.holds {s u : State} (h : AgesMoved s u) : u.m.holds = s.m.holds := by
  obtain ⟨a, n, rfl⟩ := h
  rfl

theorem ageRound_rounds (s : State) (inst : Nat) (elig asking : List Nat) (w : Option Nat) :
    (s.ageRound inst elig asking w).m.rounds = s.m.rounds := by
  refine foldl_rel (fun u v => u.m.rounds = v.m.rounds) _ (State.moveAge inst elig asking w) s (fun _ => rfl) (fun _ _ _ => Eq.trans)
    (fun s r _ h => h ▸ ?_)
  unfold State.moveAge
  split_ifs <;> rfl

/-- Only holds and the marks of slow banks have moved within the memories, the requests and the arbiters. -/
def MarksMoved (s u : State) : Prop := ∃ hs l, u.m = { s.m with holds := hs, slow := l }

theorem MarksMoved.of_m {s u : State} (h : u.m = s.m) : MarksMoved s u := ⟨_, _, h⟩

theorem MarksMoved.trans {s u v : State} (h : MarksMoved s u) (g : MarksMoved u v) : MarksMoved s v := by
  obtain ⟨hs, l, h⟩ := h
  obtain ⟨hs', l', g⟩ := g
  exact ⟨hs', l', by rw [g, h]⟩

theorem marksMoved_setHold (s : State) (inst : Nat) (h : Option Hold) : MarksMoved s (s.setHold inst h) := ⟨_, _, rfl⟩

theorem slowBank_m (s : State) (inst med b : Nat) : ∃ l, (s.slowBank inst med b).m = { s.m with slow := l } := by
  unfold State.slowBank
  dsimp only
  split
  · exact ⟨_, rfl⟩
  · split
    · split <;> exact ⟨_, rfl⟩
    · split
      · exact ⟨_, (State.count_frame ..).2.2.2.2.2.1⟩
      · exact ⟨_, rfl⟩

theorem slowMarks_m (s : State) (inst : Nat) : ∃ l, (s.slowMarks inst).m = { s.m with slow := l } := by
  unfold State.slowMarks
  split
  · split
    · exact ⟨_, rfl⟩
    · refine foldl_rel (fun u v => ∃ l, u.m = { v.m with slow := l }) _ _ s (fun _ => ⟨_, rfl⟩) ?_
        (fun s i _ h => h ▸ slowBank_m ..)
      rintro a b c ⟨l, h⟩ ⟨l', h'⟩
      exact ⟨l, by rw [h, h']⟩
  · exact ⟨_, rfl⟩

theorem marksMoved_slowMarks (s : State) (inst : Nat) : MarksMoved s (s.slowMarks inst) := by
  obtain ⟨l, h⟩ := slowMarks_m s inst
  exact ⟨_, l, h⟩

theorem MarksMoved.age {s u : State} (h : MarksMoved s u) (inst r : Nat) : u.age inst r = s.age inst r := by
  obtain ⟨hs, l, h⟩ := h
  rw [State.age, State.age, h]

theorem MarksMoved.rounds {s u : State} (h : MarksMoved s u) : u.m.rounds = s.m.rounds := by
  obtain ⟨hs, l, h⟩ := h
  rw [h]

theorem MarksMoved.reqs {s u : State} (h : MarksMoved s u) : u.m.reqs = s.m.reqs := by
  obtain ⟨hs, l, h⟩ := h
  rw [h]

theorem MarksMoved.mem {s u : State} (h : MarksMoved s u) : u.m.mem = s.m.mem := by
  obtain ⟨hs, l, h⟩ := h
  rw [h]

/-! ### The shape of a round -/

section
variable {inst : Fin 1824} {s : State}

theorem exec_arbiterRound (hdie : s.dieUp = true) (hsite : inst.val < 512 ∨ 544 ≤ inst.val) :
    exec (.arbiterRound inst []) s = .next (s.memRound inst) := by
  refine Eq.trans (b := execArbiterRound inst [] s) rfl ?_
  rw [execArbiterRound, hdie, if_neg (by decide), if_neg (by omega)]
  exact ite_self _

theorem startRound_of_no_commit {i : Nat} (h : s.m.commitP.contains i = false) : s.startRound i = s :=
  if_neg (ne_true_of_eq_false h)

theorem memRound_open {i : Nat} (hcommit : s.m.commitP.contains i = false) (hlines : s.serveLines i = s)
    (hhold : s.holdOf i = none) : s.memRound i = (s.openRound i).releaseToks := by
  rw [State.memRound, startRound_of_no_commit hcommit, hlines]
  simp only [hhold]

theorem memRound_lost {i : Nat} {h : Hold} (hcommit : s.m.commitP.contains i = false) (hlines : s.serveLines i = s)
    (hhold : s.holdOf i = some h) (hgone : s.heldReq h = none) : s.memRound i = (s.lostRound i h.rqr).releaseToks := by
  rw [State.memRound, startRound_of_no_commit hcommit, hlines]
  simp only [hhold, hgone]

end

theorem rounds_advance (s : State) (inst n : Nat) :
    Tab.get (s.advance inst n).m.rounds 0 inst = Tab.get s.m.rounds 0 inst + n := Tab.get_put_same ..

theorem age_advance (s : State) (inst n i r : Nat) : (s.advance inst n).age i r = s.age i r := rfl

/-! ### A round at which nothing waits, and one whose held request is gone -/

section
variable {s : State} {inst : Nat}

theorem serveLines_of_idle (h : s.m.reqs.any (fun (r : Req) => r.inst == inst && r.stat == .queued) = false) :
    s.serveLines inst = s := by
  have hnone : s.m.reqs.filter (fun (r : Req) => r.inst == inst && r.stat == .queued && r.bank != 0 && !r.write
      && r.use != .scrub && r.left.any s.isStaged) = [] := by
    rw [List.any_eq_false] at h
    refine List.filter_eq_nil_iff.2 fun r hr hall => h r hr ?_
    simp only [Bool.and_eq_true] at hall ⊢
    exact hall.1.1.1.1
  rw [State.serveLines, hnone]
  rfl

theorem eligible_of_idle (h : s.m.reqs.any (fun (r : Req) => r.inst == inst && r.stat == .queued) = false) :
    s.eligible inst = [] := by
  have hqueue : ∀ rq, s.m.reqs.filter (fun (r : Req) => r.inst == inst && r.rqr == rq && r.stat == .queued) = [] := by
    rw [List.any_eq_false] at h
    refine fun rq => List.filter_eq_nil_iff.2 fun r hr hall => h r hr ?_
    simp only [Bool.and_eq_true] at hall ⊢
    exact ⟨hall.1.1, hall.2⟩
  have hnone : ∀ rq, s.presented inst rq = [] := fun rq => by
    simp [State.presented, hqueue]
  simp [State.eligible, State.acceptable, hnone]

theorem openRound_of_idle (h : s.eligible inst = []) :
    s.openRound inst = ((s.ageRound inst [] (s.askers inst) none).advance inst 1).slowMarks inst := by
  simp only [State.openRound, h, pickWinner_nil]

theorem lostRound_effect {rq : Nat} (hrq : rq < 16) :
    (s.lostRound inst rq).age inst rq = 0 ∧ (s.lostRound inst rq).holdOf inst = none
      ∧ Tab.get (s.lostRound inst rq).m.rounds 0 inst = Tab.get s.m.rounds 0 inst + 1
      ∧ (s.lostRound inst rq).m.reqs = s.m.reqs ∧ (s.lostRound inst rq).m.mem = s.m.mem := by
  have haged := agesMoved_ageRound (s.setHold inst none) inst (s.eligible inst) (s.askers inst) (some rq)
  have hfree : (s.setHold inst none).holdOf inst = none := by
    simp [State.holdOf, State.setHold, List.find?_eq_none]
  unfold State.lostRound
  extract_lets u
  have hmarks := marksMoved_slowMarks (u.advance inst 1) inst
  obtain ⟨l, hslow⟩ := slowMarks_m (u.advance inst 1) inst
  refine ⟨?age, ?hold, ?rounds, hmarks.reqs.trans haged.reqs, hmarks.mem.trans haged.mem⟩
  case age =>
    rw [hmarks.age, age_advance]
    exact (age_ageRound _ hrq).trans (if_pos (.inl rfl))
  case hold =>
    rw [State.holdOf, hslow, ← hfree]
    exact congrArg _ (congrArg _ haged.holds)
  case rounds =>
    rw [hmarks.rounds, rounds_advance, ageRound_rounds]
    rfl

end

/-! ### The rounds of a unit, and the grant -/

section
variable {s : State} {inst w : Nat}

theorem agesMoved_passRounds (elig asking : List Nat) (n : Nat) : AgesMoved s (s.passRounds inst w elig asking n) := by
  induction n generalizing s elig asking with
  | zero => exact .refl s
  | succ n ih => exact ((agesMoved_ageRound ..).trans (agesMoved_advance ..)).trans (ih _ _)

theorem rounds_passRounds (elig asking : List Nat) (n : Nat) :
    Tab.get (s.passRounds inst w elig asking n).m.rounds 0 inst = Tab.get s.m.rounds 0 inst + n := by
  induction n generalizing s elig asking with
  | zero => rfl
  | succ n ih =>
    refine (ih _ _).trans ?_
    rw [rounds_advance, ageRound_rounds]
    omega

theorem age_passRounds (hw : w < 16) (elig asking : List Nat) (n : Nat) :
    (s.passRounds inst w elig asking (n + 1)).age inst w = 0 := by
  induction n generalizing s elig asking with
  | zero =>
    exact (age_ageRound s hw).trans (if_pos (.inl rfl))
  | succ n ih => exact ih _ _

theorem serveBurst_pos (r : Req) (b : Nat) : 0 < (s.serveBurst r b).1 := by
  unfold State.serveBurst
  dsimp only
  (repeat' split) <;> simp

theorem serveNext_pos (r : Req) : 0 < (s.serveNext r).1 := by
  unfold State.serveNext
  split
  · exact Nat.one_pos
  · dsimp only
    (repeat' split) <;> exact serveBurst_pos _ _

/-- After the service of its request a grant lets its rounds pass, and then moves only holds and the marks of slow banks. -/
theorem marksMoved_grantTo {r : Req} {n : Nat} {t : State} (hserved : (s.passTurn inst r).serveNext r = (n, t)) (elig : List Nat)
    (held : Nat) : MarksMoved (t.passRounds inst r.rqr elig (s.askers inst) n) (s.grantTo inst elig r held) := by
  unfold State.grantTo
  simp only [hserved]
  have hheld (p : Prop) [Decidable p] (u : State) (h : Hold) :
      MarksMoved u (if p then u.setHold inst (some h) else u.setHold inst none) := by
    split <;> exact marksMoved_setHold ..
  refine .trans ?_ (marksMoved_slowMarks _ inst)
  split
  · exact (hheld ..).trans (.of_m (State.count_frame ..).2.2.2.2.2.1)
  · exact hheld ..

/-- A grant sets the age of its requester to 0 and takes a round or more; the requests and the memories are as the service of the
request leaves them. -/
theorem grantTo_effect {r : Req} (hr : r.rqr < 16) (elig : List Nat) (held : Nat) :
    (s.grantTo inst elig r held).age inst r.rqr = 0
      ∧ Tab.get s.m.rounds 0 inst < Tab.get (s.grantTo inst elig r held).m.rounds 0 inst
      ∧ (s.grantTo inst elig r held).m.reqs = ((s.passTurn inst r).serveNext r).2.m.reqs
      ∧ (s.grantTo inst elig r held).m.mem = ((s.passTurn inst r).serveNext r).2.m.mem := by
  have hrounds : ((s.passTurn inst r).serveNext r).2.m.rounds = s.m.rounds := by simp
  obtain ⟨n, hn⟩ := Nat.exists_eq_succ_of_ne_zero (Nat.pos_iff_ne_zero.1 (serveNext_pos (s := s.passTurn inst r) r))
  have hmarks := marksMoved_grantTo (s := s) (inst := inst) (r := r) (t := ((s.passTurn inst r).serveNext r).2)
    (Prod.ext hn rfl) elig held
  have hpassed := agesMoved_passRounds (s := ((s.passTurn inst r).serveNext r).2) (inst := inst) (w := r.rqr) elig
    (s.askers inst) n.succ
  refine ⟨?_, ?_, hmarks.reqs.trans hpassed.reqs, hmarks.mem.trans hpassed.mem⟩
  · rw [hmarks.age]
    exact age_passRounds hr _ _ n
  · rw [hmarks.rounds, rounds_passRounds, hrounds]
    omega

end

/-! ### The last burst of a core's request -/

/-- The bytes of a burst that a write stores. -/
def storedBytes (m : Mem) (r : Req) (b : Nat) : Mem :=
  (r.data.filter (fun e => burstOf e.1 == b)).foldl (fun m e => m.wr e.1 e.2) m

section
variable {s : State} {r : Req} {b : Nat}

theorem serveBurst_shared (huse : r.use = .core) (hbank : r.bank = 0) (hwrite : r.write = true) :
    s.serveBurst r b = (1, false, s.wrCells (r.data.filter (fun e => burstOf e.1 == b))) := by
  simp [State.serveBurst, huse, hbank, hwrite]

theorem serveBurst_stack (huse : r.use = .core) (hbank : r.bank ≠ 0) (hgood : popCount (s.symbols b) ≤ 1) :
    ∃ n u, s.serveBurst r b = (n, false, u) ∧ u.m.mem = if r.write = true then storedBytes s.m.mem r b else s.m.mem := by
  obtain ⟨v, hread, hm⟩ := readCode_of_le_one hgood
  cases hwrite : r.write with
  | false => exact ⟨1, _, by simp [State.serveBurst, huse, hbank, hwrite, hread]; rfl, by simp [hm]⟩
  | true =>
    by_cases hwhole : (r.data.filter (fun e => burstOf e.1 == b)).length = 64
    · exact ⟨1, _, by simp [State.serveBurst, huse, hbank, hwrite, hwhole]; rfl, by simp [storedBytes, State.wrCells]⟩
    · exact ⟨2, _, by simp [State.serveBurst, huse, hbank, hwrite, hwhole, hread]; rfl, by simp [storedBytes, State.wrCells, hm]⟩

/-- The bank of a request as its next burst is served: its row open, the time of the access noted. -/
def State.accessed (s : State) (r : Req) : State :=
  if r.bank = 0 then s
  else s.setBank r.bank
    (if (s.bank r.bank).row == some r.row then { s.bank r.bank with used := s.cyc r.inst }
      else { s.bank r.bank with row := some r.row, act := s.cyc r.inst + 1, used := s.cyc r.inst })

theorem serveNext_cons {rest : List Nat} (hleft : r.left = b :: rest) : s.serveNext r =
    let p := (s.accessed r).serveBurst r b
    let r' : Req := { r with
      data := if r.write then r.data else p.2.2.capture r.data b, left := rest, ready := max r.ready (s.dataOut r) }
    if p.2.1 then (p.1, p.2.2.dropLost r) else (p.1, if rest.isEmpty then p.2.2.served r' else p.2.2.updReq r') := by
  rw [State.serveNext, hleft]
  rfl

theorem serveNext_last {n : Nat} {u : State} (hleft : r.left = [b]) (hserved : (s.accessed r).serveBurst r b = (n, false, u)) :
    ∃ d t, s.serveNext r = (n, u.served { r with data := d, left := [], ready := t }) := by
  rw [serveNext_cons hleft, hserved]
  exact ⟨_, _, rfl⟩

/-- A request of the number has been granted. -/
def Granted (id : Nat) (s : State) : Prop := ∃ y ∈ s.m.reqs, y.id = id ∧ y.stat = .granted

theorem Granted.arrive {id : Nat} (h : Granted id s) (inst rq : Nat) : Granted id (s.arrive inst rq) := by
  obtain ⟨y, hy, hid, hstat⟩ := h
  unfold State.arrive
  dsimp only
  split
  · exact ⟨y, hy, hid, hstat⟩
  · refine ⟨_, List.mem_map_of_mem hy, ?_⟩
    split <;> exact ⟨hid, hstat⟩

/-- The request stands granted, behind those granted before it (01 R27). -/
def State.putGranted (s : State) (r : Req) : State :=
  { s with m := { s.m with reqs := s.m.reqs.filter (fun (y : Req) => y.id != r.id) ++ [{ r with stat := .granted }] } }

theorem served_of_core_stack (huse : r.use = .core) (hbank : r.bank ≠ 0) :
    s.served r = ((s.noteLatency r).putGranted r).arrive r.inst r.rqr := by
  simp [State.served, State.putGranted, huse, hbank]

theorem served_of_core_shared (huse : r.use = .core) (hbank : r.bank = 0) : s.served r =
    ((((s.putGranted r).landReq { r with stat := .granted }).promote r.core).unpark r.core).arrive r.inst r.rqr := by
  simp [State.served, State.noteLatency, State.putGranted, huse, hbank]

theorem served_stack (huse : r.use = .core) (hbank : r.bank ≠ 0) :
    Granted r.id (s.served r) ∧ (s.served r).m.mem = s.m.mem := by
  rw [served_of_core_stack huse hbank]
  refine ⟨Granted.arrive ⟨{ r with stat := .granted }, List.mem_append_right _ (List.mem_singleton_self _), rfl, rfl⟩ _ _, ?_⟩
  simp [State.putGranted]

theorem landReq_of_more {x : Xfer} (hx : s.m.xfers.find? (fun (x : Xfer) => x.id == r.xfer) = some x) (hmore : 2 ≤ x.todo)
    (hland : r.land = .none) : NoReq r.id (s.landReq r) ∧ (s.landReq r).m.mem = s.m.mem := by
  have hxu : (State.unblock { s with m := { s.m with reqs := s.m.reqs.filter (fun (y : Req) => y.id != r.id) } }
      r.core).m.xfers.find? (fun (x : Xfer) => x.id == r.xfer) = some x := hx
  have htodo : x.todo - 1 ≠ 0 := by omega
  simp only [State.landReq, hxu, hland, htodo, if_false]
  exact ⟨fun y hy => by simpa using (List.mem_filter.1 hy).2, rfl⟩

theorem served_shared {x : Xfer} (huse : r.use = .core) (hbank : r.bank = 0) (hland : r.land = .none)
    (hx : s.m.xfers.find? (fun (x : Xfer) => x.id == r.xfer) = some x) (hmore : 2 ≤ x.todo) :
    NoReq r.id (s.served r) ∧ (s.served r).m.mem = s.m.mem := by
  obtain ⟨hnone, hmem⟩ := landReq_of_more (s := s.putGranted r) (r := { r with stat := .granted }) hx hmore hland
  rw [served_of_core_shared huse hbank]
  refine ⟨noReq_arrive (noReq_unpark (noReq_promote hnone _) _) _ _, ?_⟩
  simpa [State.putGranted] using hmem

/-- The last burst of a request to a stack: the request is granted, and a write stands in memory. -/
theorem serveNext_stack (hleft : r.left = [b]) (huse : r.use = .core) (hbank : r.bank ≠ 0) (hgood : popCount (s.symbols b) ≤ 1) :
    Granted r.id (s.serveNext r).2
      ∧ (s.serveNext r).2.m.mem = if r.write = true then storedBytes s.m.mem r b else s.m.mem := by
  have haccessed : s.accessed r = s.setBank r.bank _ := if_neg hbank
  obtain ⟨n, u, hburst, hmem⟩ := serveBurst_stack (s := s.accessed r) (b := b) huse hbank (by rwa [haccessed])
  obtain ⟨d, t, hnext⟩ := serveNext_last hleft hburst
  obtain ⟨hgranted, hkept⟩ := served_stack (s := u) (r := { r with data := d, left := [], ready := t }) huse hbank
  rw [haccessed] at hmem
  rw [hnext]
  exact ⟨hgranted, hkept.trans hmem⟩

/-- The last burst of a write to shared memory, others of whose operation are still to land: it stands there, and the request has
gone. -/
theorem serveNext_shared {x : Xfer} (hleft : r.left = [b]) (huse : r.use = .core) (hbank : r.bank = 0) (hwrite : r.write = true)
    (hland : r.land = .none) (hx : s.m.xfers.find? (fun (x : Xfer) => x.id == r.xfer) = some x) (hmore : 2 ≤ x.todo) :
    NoReq r.id (s.serveNext r).2 ∧ (s.serveNext r).2.m.mem = storedBytes s.m.mem r b := by
  have haccessed : s.accessed r = s := if_pos hbank
  obtain ⟨d, t, hnext⟩ := serveNext_last hleft
    ((congrArg (State.serveBurst · r b) haccessed).trans (serveBurst_shared huse hbank hwrite))
  rw [hnext]
  exact served_shared (s := s.wrCells (r.data.filter (fun e => burstOf e.1 == b)))
    (r := { r with data := d, left := [], ready := t }) huse hbank hland hx hmore

end

/-! ### The round with a winner -/

/-- Only the memory of the last winners and whose turn it is have moved. -/
theorem picked_m (s : State) (inst w kind : Nat) (r : Req) : ∃ lo lb tu,
    ((s.noteWinner inst w kind).passTurn inst r).m = { s.m with lastOver := lo, lastBg := lb, turns := tu } := by
  have hturn : ∀ u : State, ∃ tu, (u.passTurn inst r).m = { u.m with turns := tu } := fun u => by
    unfold State.passTurn
    dsimp only
    split <;> exact ⟨_, rfl⟩
  obtain ⟨tu, h⟩ := hturn (s.noteWinner inst w kind)
  rw [h]
  unfold State.noteWinner
  split
  · exact ⟨_, _, tu, rfl⟩
  · split <;> exact ⟨_, _, tu, rfl⟩

theorem openRound_of_winner {s : State} {inst w kind : Nat} {r : Req} (hwin : s.pickWinner inst (s.eligible inst) = some (w, kind))
    (hchosen : s.chosen inst w = some r) :
    s.openRound inst = (s.noteWinner inst w kind).grantTo inst (s.eligible inst) r 0 := by
  simp only [State.openRound, hwin, hchosen]

theorem find_xfer {s : State} {id : Nat} (h : ∃ x ∈ s.m.xfers, x.id = id) :
    ∃ x, s.m.xfers.find? (fun (x : Xfer) => x.id == id) = some x ∧ x ∈ s.m.xfers ∧ x.id = id := by
  obtain ⟨x, hx, hid⟩ := h
  have hfound : (s.m.xfers.find? (fun (x : Xfer) => x.id == id)).isSome = true :=
    List.find?_isSome.2 ⟨x, hx, beq_iff_eq.2 hid⟩
  obtain ⟨y, hy⟩ := Option.isSome_iff_exists.1 hfound
  exact ⟨y, hy, List.mem_of_find?_eq_some hy, by simpa using List.find?_some hy⟩

theorem arbiterRounds : arbiterRoundsLaw := by
  intro inst s hdie hsite hcommit
  rw [exec_arbiterRound hdie hsite]
  refine ⟨fun h hlines hhold hgone hrqr => ⟨_, rfl, ?lost⟩, fun hhold => ⟨fun hidle => ⟨_, rfl, ?idle⟩,
    fun r w kind hlines hwin hchosen hrw hw => ⟨_, rfl, ?served⟩⟩⟩
  case lost =>
    have hm : (s.memRound inst).m = (s.lostRound inst h.rqr).m := by
      rw [memRound_lost hcommit hlines hhold hgone]
      simp
    obtain ⟨hage, hfree, hround, hreqs, hmem⟩ := lostRound_effect (s := s) (inst := inst) hrqr
    simp only [State.age, State.holdOf, hm] at hage hfree ⊢
    exact ⟨hage, hfree, hround, hreqs, hmem⟩
  case idle =>
    have hm : (s.memRound inst).m = (s.openRound inst).m := by
      rw [memRound_open hcommit (serveLines_of_idle hidle) hhold]
      simp
    have hmarks := marksMoved_slowMarks ((s.ageRound inst [] (s.askers inst) none).advance inst 1) inst
    have haged := agesMoved_ageRound s inst [] (s.askers inst) none
    dsimp only
    rw [hm, openRound_of_idle (eligible_of_idle hidle)]
    refine ⟨?_, hmarks.reqs.trans haged.reqs, hmarks.mem.trans haged.mem⟩
    rw [hmarks.rounds, rounds_advance, ageRound_rounds]
  case served =>
    subst hrw
    obtain ⟨lo, lb, tu, hpicked⟩ := picked_m s inst r.rqr kind r
    have hm : (s.memRound inst).m = ((s.noteWinner inst r.rqr kind).grantTo inst (s.eligible inst) r 0).m := by
      rw [memRound_open hcommit hlines hhold, openRound_of_winner hwin hchosen]
      simp
    obtain ⟨hage, hrounds, hreqs, hmem⟩ := grantTo_effect (s := s.noteWinner inst r.rqr kind) (inst := inst) hw (s.eligible inst) 0
    have hpickedRounds : (s.noteWinner inst r.rqr kind).m.rounds = s.m.rounds := by
      rw [← State.passTurn_rounds _ inst r, hpicked]
    rw [hpickedRounds] at hrounds
    simp only [State.age, hm, hreqs, hmem] at hage ⊢
    refine ⟨hage, hrounds, fun b hleft huse => ⟨fun hbank hgood => ?stack, fun hbank hwrite hland hxfer hmore => ?shared⟩⟩
    case stack =>
      obtain ⟨hgranted, hmem⟩ := serveNext_stack (s := (s.noteWinner inst r.rqr kind).passTurn inst r) hleft huse hbank
        (by simpa [State.symbols, hpicked] using hgood)
      rw [hpicked] at hmem
      exact ⟨hgranted, hmem⟩
    case shared =>
      obtain ⟨x, hfind, hx, hid⟩ := find_xfer hxfer
      obtain ⟨hnone, hmem⟩ := serveNext_shared (s := (s.noteWinner inst r.rqr kind).passTurn inst r) hleft huse hbank hwrite hland
        (by rw [hpicked]; exact hfind) (hmore x hx hid)
      rw [hpicked] at hmem
      exact ⟨hnone, hmem⟩

/-! ### ARB_COMMIT (08 R290) -/

theorem exec_arbCommit {inst : Fin 1824} {s : State} (hclk : Clocked s) (hstand : s.standing = false) :
    exec (.arbCommit inst) s = .next { s.asked with
      m := { s.m with commitP := s.m.commitP.filter (· != inst.val) ++ [inst.val] } } := by
  refine Eq.trans (b := execArbCommit inst s) rfl ?_
  have hstand' : s.asked.standing = false := hstand
  have hclk' : Clocked s.asked := hclk
  rw [execArbCommit]
  simp only [hstand', unlessStopped_off hclk']
  rfl

theorem prioKey_ne_shadowKey (inst : Nat) {q r : Nat} (hq : q < 16) :
    (ARB_PRIO_PRIO inst q).key ≠ (ARB_PRIO_SH_PRIO_SH inst r).key := by
  simp only [ARB_PRIO_PRIO, ARB_PRIO_SH_PRIO_SH, Fld.at_key]
  omega

theorem prioKey_ne (inst : Nat) {q r : Nat} (hq : q < 16) (hr : r < 16) (h : q ≠ r) :
    (ARB_PRIO_PRIO inst q).key ≠ (ARB_PRIO_PRIO inst r).key := by
  simp only [ARB_PRIO_PRIO, Fld.at_key]
  omega

/-- The shadow priority of one requester brought into force. -/
def State.copyPrio (inst : Nat) (s : State) (r : Nat) : State :=
  s.setFld (ARB_PRIO_PRIO inst r) (s.fld (ARB_PRIO_SH_PRIO_SH inst r))

theorem fld_foldl_copyPrio (inst : Nat) {r : Nat} (hr : r < 16) (l : List Nat) (hl : ∀ q ∈ l, q < 16) (s : State) :
    (l.foldl (State.copyPrio inst) s).fld (ARB_PRIO_PRIO inst r) =
      if r ∈ l then s.fld (ARB_PRIO_SH_PRIO_SH inst r) % 16 else s.fld (ARB_PRIO_PRIO inst r) := by
  induction l generalizing s with
  | nil => rfl
  | cons q l ih =>
    obtain ⟨hq, hl⟩ := List.forall_mem_cons.1 hl
    have hshadow : (s.copyPrio inst q).fld (ARB_PRIO_SH_PRIO_SH inst r) = s.fld (ARB_PRIO_SH_PRIO_SH inst r) :=
      s.fld_setFld_ne _ (prioKey_ne_shadowKey inst hq)
    rw [List.foldl_cons, ih hl, hshadow]
    by_cases h : q = r
    · subst h
      rw [State.copyPrio, State.fld_setFld]
      simp [ARB_PRIO_PRIO]
    · rw [State.copyPrio, s.fld_setFld_ne _ (prioKey_ne inst hq hr h)]
      simp [Ne.symm h]

theorem fld_commitArb (s : State) (inst : Nat) {r : Nat} (hr : r < 16) :
    (s.commitArb inst).fld (ARB_PRIO_PRIO inst r) = s.fld (ARB_PRIO_SH_PRIO_SH inst r) % 16 := by
  unfold State.commitArb
  extract_lets u
  have hregs : u.regs = s.regs :=
    foldl_rel (fun u v => u.regs = v.regs) _ _ s (fun _ => rfl) (fun _ _ _ => Eq.trans) (fun _ _ _ h => h ▸ rfl)
  refine (fld_foldl_copyPrio inst hr _ (fun q => List.mem_range.1) u).trans ?_
  rw [if_pos (List.mem_range.2 hr), State.fld, hregs]
  rfl

theorem fld_startRound_of_commit {s : State} {inst : Nat} {g : Fld} (h : s.m.commitP.contains inst = true) :
    (s.startRound inst).fld g = (s.commitArb inst).fld g := by
  simp only [State.startRound, h, if_true, State.fld]

theorem arbiterCommit : arbiterCommitLaw := by
  intro inst s hclk hstand
  refine ⟨_, exec_arbCommit hclk hstand, ?noted, rfl, fun i hi => ?others, fun r hr => ?next⟩
  case noted => simp
  case others =>
    rw [Bool.eq_iff_iff]
    simp [hi]
  case next =>
    rw [fld_startRound_of_commit (by simp), fld_commitArb _ inst.val hr]
    rfl

end Sys2Proof.Machine
end

section
open Sys2Proof Sys2Proof.Machine

/-- Settles O26: a round by whether its held request is gone, nothing waits, or a requester wins; a commit by the copy of the
shadow priorities at the next round. -/
theorem arbiterRoundsAndCommit : Obligations.ArbiterRoundsAndCommit := ⟨arbiterRounds, arbiterCommit⟩

end

section
/-! PROOF. VGATH and VSCAT in own memory, and list gathers (09 R309 to R318). -/

namespace Sys2Proof.Machine

variable {s s' : State} {c : Fin 800} {t : Fin 16} {f : Fields}

/-! ### The last byte written to each key -/

/-- A byte after cells were written in turn: that of the last cell of its key. -/
theorem rd_wrCells (s : State) (l : List (Nat × Byte)) (k : Nat) :
    (s.wrCells l).m.mem.rd k = ((l.reverse.find? (fun e => e.1 == k)).map Prod.snd).getD (s.m.mem.rd k) := by
  induction l using List.reverseRecOn with
  | nil => rfl
  | append_singleton l e ih =>
    have hlast : (s.wrCells (l ++ [e])).m.mem = (s.wrCells l).m.mem.wr e.1 e.2 := by simp [State.wrCells]
    rw [hlast, Mem.rd_wr, ih, List.reverse_concat, List.find?_cons]
    by_cases hk : e.1 = k
    · simp [hk]
    · simp [beq_false_of_ne hk, Ne.symm hk]

theorem mem_lastCells {l : List (Nat × Byte)} {e : Nat × Byte} :
    e ∈ lastCells l ↔ l.reverse.find? (fun x => x.1 == e.1) = some e := by
  simp only [lastCells, List.mem_filterMap, List.mem_eraseDups, List.mem_map]
  constructor
  · rintro ⟨k, -, hk⟩
    have hkey : (e.1 == k) = true := List.find?_some (p := fun x : Nat × Byte => x.1 == k) hk
    rwa [beq_iff_eq.1 hkey]
  · intro h
    exact ⟨e.1, ⟨e, List.mem_reverse.1 (List.mem_of_find?_eq_some h), rfl⟩, h⟩

/-- Among the last cells a key has the cell that it has last among all. -/
theorem find?_lastCells (l : List (Nat × Byte)) (k : Nat) :
    (lastCells l).reverse.find? (fun e => e.1 == k) = l.reverse.find? (fun e => e.1 == k) := by
  cases h : l.reverse.find? (fun e => e.1 == k) with
  | none =>
    refine List.find?_eq_none.2 fun e he hek => ?_
    have hlast := mem_lastCells.1 (List.mem_reverse.1 he)
    rw [beq_iff_eq.1 hek, h] at hlast
    contradiction
  | some e =>
    have hkey : e.1 = k := beq_iff_eq.1 (List.find?_some (p := fun x : Nat × Byte => x.1 == k) h)
    subst hkey
    obtain ⟨e', he'⟩ := Option.isSome_iff_exists.1 (List.find?_isSome (p := fun x : Nat × Byte => x.1 == e.1) |>.2
      ⟨e, List.mem_reverse.2 (mem_lastCells.2 h), beq_self_eq_true e.1⟩)
    have hkey : e'.1 = e.1 := beq_iff_eq.1 (List.find?_some (p := fun x : Nat × Byte => x.1 == e.1) he')
    have hlast := mem_lastCells.1 (List.mem_reverse.1 (List.mem_of_find?_eq_some he'))
    rw [hkey, h] at hlast
    rw [he', hlast]

theorem rd_wrCells_lastCells (s : State) (l : List (Nat × Byte)) (k : Nat) :
    (s.wrCells (lastCells l)).m.mem.rd k = (s.wrCells l).m.mem.rd k := by
  rw [rd_wrCells, rd_wrCells, find?_lastCells]

/-- The bytes of an element stored read back where no later element of the list overlaps it. -/
theorem rd_foldl_wrBytes_last {n : Nat} {key : Nat → Nat} (v : Nat → Nat) {l : List Nat} (hl : l.Pairwise (· < ·)) {i j : Nat}
    (hi : i ∈ l) (hlast : ∀ i' ∈ l, i < i' → key i + n ≤ key i' ∨ key i' + n ≤ key i) (hj : j < n) (m : Mem) :
    (l.foldl (fun (m : Mem) i => m.wrBytes (key i) (leBytes n (v i))) m).rd (key i + j) = (leBytes n (v i)).getD j 0 := by
  obtain ⟨a, b, rfl⟩ := List.append_of_mem hi
  obtain ⟨-, hb, -⟩ := List.pairwise_append.1 hl
  obtain ⟨hb, -⟩ := List.pairwise_cons.1 hb
  have hout (i' : Nat) (hi' : i' ∈ b) : key i + j < key i' ∨ key i' + n ≤ key i + j := by
    have := hlast i' (List.mem_append_right _ (List.mem_cons_of_mem _ hi')) (hb i' hi')
    omega
  rw [List.foldl_append, List.foldl_cons, rd_foldl_wrBytes_out v hout, Mem.rd_wrBytes_in _ _ _ _ (by rwa [length_leBytes])]

/-! ### VGATH and VSCAT (R315, R316) -/

/-- The place of element `i` of an element gather or scatter (R315). -/
def gathPlace (s : State) (c : Fin 800) (t : Fin 16) (f : Fields) (i : Nat) : Nat :=
  (s.sreg c t f.srca.toNat
    + BitVec.ofNat 64 (bits (s.vreg c t f.srcb.toNat).toNat (32 * i) 32 * ((typeOf f).bits / 8))).toNat

theorem gathEls_eq (s : State) (c : Fin 800) (t : Fin 16) (f : Fields) : s.gathEls c t f =
    (s.act c t f).map (fun i => (i, ⟨gathPlace s c t f i, (typeOf f).bits / 8, 0⟩)) := rfl

/-- An element gather takes types of whole bytes alone. -/
theorem bytes_of_elemGathTy {ty : Ty} (h : elemGathTy ty = true) : ty.bits % 8 = 0 := by
  revert h
  cases ty <;> decide

/-- An element gather or scatter whose active elements lie in own memory, each aligned (R315). -/
structure GathersOwn (s : State) (c : Fin 800) (t : Fin 16) (f : Fields) : Prop where
  core : isMatrix c = false
  space : spaceOf f = 0
  type : elemGathTy (typeOf f) = true
  fits : ∀ i ∈ s.act c t f, gathPlace s c t f i % ((typeOf f).bits / 8) = 0
    ∧ gathPlace s c t f i + (typeOf f).bits / 8 ≤ ownBytes c

/-- Such a word is no reserved encoding. -/
theorem GathersOwn.runs {u : Uses} (h : GathersOwn s c t f) (hr : Runs s c t f u false) :
    Runs s c t f u (isMatrix c || spaceOf f == 3 || !elemGathTy (typeOf f)) := by
  have hbad : (isMatrix c || spaceOf f == 3 || !elemGathTy (typeOf f)) = false := by simp [h.core, h.space, h.type]
  rwa [hbad]

theorem vgath_of_runs (h : GathersOwn s c t f) (hr : Runs s c t f usesVgath false) :
    exec (.vgath c t f) s = .next (passed s (loadedFrom s c t f (fun i => keyOwn c (gathPlace s c t f i)) (s.act c t f)
      (s.vreg c t f.dst.toNat).toNat) c t) := by
  show readVgath [] c t f s = _
  refine issue_go_of_runs (h.runs hr) ?_
  rw [h.space, gathEls_eq]
  exact vecLoad_own (bytes_of_elemGathTy h.type) h.fits

/-- The bytes that VSCAT writes: those of each active element at its place, in turn. -/
def scatCells (s : State) (c : Fin 800) (t : Fin 16) (f : Fields) : List (Nat × Byte) :=
  (s.act c t f).flatMap (fun i => (seqKeys (keyOwn c (gathPlace s c t f i)) ((typeOf f).bits / 8)).zip
    (leBytes ((typeOf f).bits / 8) (elemOf (typeOf f) (s.vreg c t f.srcc.toNat) i)))

theorem vscat_of_runs (h : GathersOwn s c t f) (hr : Runs s c t f usesVscat false) :
    exec (.vscat c t f) s = .next (passed s (s.wrCells (lastCells (scatCells s c t f))) c t) := by
  show execVscat c t f s = _
  unfold execVscat
  refine issue_go_of_runs (h.runs hr) ?_
  simp only [h.space, gathEls_eq, vecKeys_own rfl h.fits, storeCells_bytes (bytes_of_elemGathTy h.type), if_true, scatCells]

/-- Aligned elements at different places lie apart. -/
theorem apart_of_aligned {n a b : Nat} (ha : a % n = 0) (hb : b % n = 0) (hne : a ≠ b) : a + n ≤ b ∨ b + n ≤ a := by
  obtain ⟨p, rfl⟩ := Nat.dvd_of_mod_eq_zero ha
  obtain ⟨q, rfl⟩ := Nat.dvd_of_mod_eq_zero hb
  rcases Nat.lt_or_gt_of_ne (fun h : p = q => hne (h ▸ rfl)) with h | h
  · exact .inl (Nat.mul_le_mul_left n h)
  · exact .inr (Nat.mul_le_mul_left n h)

theorem elementGathers : elementGatherLaw := by
  intro c t f s ty n act place hc hsp hty hfits
  have hown : GathersOwn s c t f := ⟨hc, hsp, hty, hfits⟩
  refine ⟨fun hr => ⟨_, vgath_of_runs hown hr, elementsWritten_loadedFrom hr rfl⟩, fun hr => ?scat⟩
  have hmem (k : Nat) : (passed s (s.wrCells (lastCells (scatCells s c t f))) c t).m.mem.rd k =
      (act.foldl (fun (m : Mem) i => m.wrBytes (keyOwn c (place i)) (leBytes n (elemOf ty (s.vreg c t f.srcc.toNat) i)))
        s.m.mem).rd k := by
    rw [rd_passed, rd_wrCells_lastCells, scatCells, mem_wrCells_flatMap]
    rfl
  refine ⟨_, vscat_of_runs hown hr, fun i hi hlast j hj => ?last, fun a ha => ?out, core_pc_passed ..,
    storeKept_wrCells _⟩
  case last =>
    rw [hmem, keyOwn_add]
    refine rd_foldl_wrBytes_last (key := fun i => keyOwn c (place i)) _ (actives_pairwise ..) hi (fun i' hi' hlt => ?_) hj _
    have := apart_of_aligned (hfits i hi).1 (hfits i' hi').1 (hlast i' hi' hlt).symm
    simp only [keyOwn]
    omega
  case out =>
    rw [hmem, rd_foldl_wrBytes_out (key := fun i => keyOwn c (place i)) _ ha]

/-! ### GATHL (R309 to R318) -/

theorem next_of_gathKeys {g : Gath} {idx : List (Nat × Nat)} {rows : List (Nat × List Nat)} {e : Option FInfo}
    (h : s.gathKeys c g idx = (rows, e, s')) (core t : Nat) : s'.next core t = s.next core t := by
  have hcore : s'.core = s.core := by simpa [h] using (s.gathKeys_frame c g idx).2.2.2.1
  rw [State.next, State.next, State.pc, State.pc, hcore]

/-- The list of a GATHL: positions and row indices (R309). -/
def gathList (s : State) (c : Fin 800) (t : Fin 16) (f : Fields) : List (Nat × Nat) :=
  (List.range (s.gathOf c t f).n).map (fun j => (j, s.rd (keyOwn c ((s.gathOf c t f).list + 8 * j)) 8))

/-- The effect of a GATHL whose word is no reserved encoding. -/
def gathlEff (c : Fin 800) (t : Fin 16) (f : Fields) (s : State) : Eff :=
  let g := s.gathOf c t f
  match s.gathFaults c g with
  | fault :: fs => .fault (fault :: fs)
  | [] =>
    match s.gathKeys c g (gathList s c t f) with
    | (rows, some e, s) => .trap (s.gathStop c g rows) [e]
    | (rows, none, s) => .go (s.gathGo c t f.dst.toNat g rows) (s.next c t)

theorem exec_gathl : exec (.gathl c t f) s =
    issue c t 3 0x20 f { dst := some .s, a := some .s, b := some .s, c := some .s, mod := 3, imm := 0x1FFF }
      (isMatrix c || bits f.imm.toNat 0 13 == 0 || decide (4096 < bits f.imm.toNat 0 13) || bits f.mod.toNat 0 2 == 3) []
      (gathlEff c t f) s := rfl

theorem gathlEff_started {rows : List (Nat × List Nat)} (hfaults : s.gathFaults c (s.gathOf c t f) = [])
    (hkeys : s.gathKeys c (s.gathOf c t f) (gathList s c t f) = (rows, none, s')) :
    gathlEff c t f s = .go (s'.gathGo c t f.dst.toNat (s.gathOf c t f) rows) (s.next c t) := by
  simp only [gathlEff, hfaults, hkeys, next_of_gathKeys hkeys]

theorem gathlEff_stopped {rows : List (Nat × List Nat)} {e : FInfo} (hfaults : s.gathFaults c (s.gathOf c t f) = [])
    (hkeys : s.gathKeys c (s.gathOf c t f) (gathList s c t f) = (rows, some e, s')) :
    gathlEff c t f s = .trap (s'.gathStop c (s.gathOf c t f) rows) [e] := by
  simp only [gathlEff, hfaults, hkeys]

theorem applyEff_trap (hpc : s.pc c t + 1 ≤ 8191) (w : Word) (fs : List FInfo) :
    s.applyEff c t (s.pc c t) w (.trap s' fs) = (s'.countIssue c).raise c t (s.pc c t) fs w := by
  have hin : ¬ 8191 < s.pc c t + 1 := Nat.not_lt.2 hpc
  simp only [State.applyEff, pcFaults, hin, if_false, List.append_nil]

theorem listGathers : listGatherLaw := by
  intro c t f s s' rows n g idx hruns hfaults
  have hexec := exec_gathl.trans (issue_of_runs hruns 3 0x20 (gathlEff c t f))
  refine ⟨fun hkeys => ?started, fun e hkeys => ?stopped⟩
  case started => rw [hexec, gathlEff_started hfaults hkeys, applyEff_next hruns.pc_le]
  case stopped => rw [hexec, gathlEff_stopped hfaults hkeys, applyEff_trap hruns.pc_le]

end Sys2Proof.Machine
end

section
open Sys2Proof Sys2Proof.Machine

/-- Settles O31: element gathers by the bytes at each place, element scatters by the last cell of each byte, list gathers by the
keys of their rows. -/
theorem gathers : Obligations.Gathers := ⟨elementGathers, listGathers⟩

end

section
/-! PROOF. The sorts of records: their order, and what BSPLIT, BSORT and ESORT write (09 R336, R337, 10 R358). -/

namespace Sys2Proof.Machine

/-! ### A sort by key -/

section
variable {α : Type} (key : α → Nat)

theorem insByKey_eq_orderedInsert (x : α) (l : List α) :
    insByKey key x l = l.orderedInsert (fun a b => key a ≤ key b) x := by
  induction l with
  | nil => rfl
  | cons y l ih => rw [insByKey, List.orderedInsert_cons, ih]

theorem sortByKey_eq_insertionSort (l : List α) : sortByKey key l = l.insertionSort (fun a b => key a ≤ key b) := by
  induction l with
  | nil => rfl
  | cons x l ih =>
    rw [List.insertionSort_cons, ← ih]
    exact insByKey_eq_orderedInsert key x _

/-- A record goes before those of its own key. -/
theorem filter_insByKey (k : Nat) (x : α) (l : List α) :
    (insByKey key x l).filter (fun r => key r == k) = (x :: l).filter (fun r => key r == k) := by
  induction l with
  | nil => rfl
  | cons y l ih =>
    rw [insByKey]
    split
    · rfl
    · next hxy =>
      rw [List.filter_cons, ih, List.filter_cons, List.filter_cons, List.filter_cons]
      by_cases hx : key x = k
      · have hy : (key y == k) = false := beq_false_of_ne (by omega)
        simp [hy]
      · simp [hx]

theorem filter_sortByKey (k : Nat) (l : List α) :
    (sortByKey key l).filter (fun r => key r == k) = l.filter (fun r => key r == k) := by
  induction l with
  | nil => rfl
  | cons x l ih =>
    refine (filter_insByKey key k x (sortByKey key l)).trans ?_
    rw [List.filter_cons, ih, List.filter_cons]

end

theorem sortIsStable : sortIsStableLaw := by
  intro key l
  have htotal : Std.Total (fun a b : List Byte => key a ≤ key b) := ⟨fun _ _ => Nat.le_total _ _⟩
  have htrans : IsTrans (List Byte) (fun a b => key a ≤ key b) := ⟨fun _ _ _ => Nat.le_trans⟩
  refine ⟨?_, ?_, fun k => filter_sortByKey key k l⟩ <;> rw [sortByKey_eq_insertionSort]
  · exact l.perm_insertionSort _
  · exact l.pairwise_insertionSort _

/-! ### BSPLIT, BSORT and ESORT (R336, R337, 10 R358) -/

variable {s : State} {c : Fin 800} {t : Fin 16} {f : Fields}

/-- A word that only a matrix core would refuse. -/
theorem runs_of_traversal {u : Uses} (hc : isMatrix c = false) (h : Runs s c t f u false) : Runs s c t f u (isMatrix c) := by
  rwa [hc]

/-- Records put beside their buckets and then taken from one. -/
theorem filter_map_bucket (b : List Byte → Nat) (i : Nat) (l : List (List Byte)) :
    ((l.map (fun r => (b r, r))).filter (fun x => x.1 == i)).map Prod.snd = l.filter (fun r => b r == i) := by
  rw [List.filter_map, List.map_map]
  exact List.map_id _

theorem next_wrB (s : State) (key : Nat) (l : List Byte) (core t : Nat) : (s.wrB key l).next core t = s.next core t := rfl

theorem recordSorts : recordSortsLaw := by
  intro c t f s out inp cw w hc
  refine ⟨?bsplit, ?bsort, ?esort⟩
  case bsplit =>
    intro n b split cnt splits key bks hruns hfaults
    refine ⟨fun hasc => ?buckets, fun hnot => ?status⟩
    all_goals
      show execBsplit c t f s = _
      refine issue_go_of_runs (runs_of_traversal hc hruns) ?_
      dsimp only
      rw [hfaults]
    case buckets =>
      have hgoes : ¬ (!ascending splits) = true := by simp [hasc]
      refine (if_neg hgoes).trans ?_
      simp only [filter_map_bucket, next_wrB]
      rfl
    case status =>
      have hstops : (!ascending splits) = true := by simp [hnot]
      exact if_pos hstops
  case bsort =>
    intro n rs ends wOff eOff hruns halign hfits hn hfaults
    have hrs : (if inp % 16 == 0 && decide (inp + 16 * n ≤ ownBytes c) && decide (n ≤ 8192)
      then sortByKey recSrc (s.records c inp n) else []) = rs := by simp [halign, hfits, hn, rs]
    refine ⟨fun hgood => ?sorted, fun hbad => ?status⟩
    all_goals
      show execBsort c t f s = _
      refine issue_go_of_runs (runs_of_traversal hc hruns) ?_
      dsimp only
      rw [hrs, hfaults]
    case sorted =>
      have hgoes : ¬ rs.any (fun r => decide (bits cw 14 24 ≤ recDst r)) = true := by simp [hgood]
      refine (if_neg hgoes).trans ?_
      simp only [next_wrB]
      rfl
    case status => exact if_pos hbad
  case esort =>
    intro n key run k sorted ends hruns halign hfits hn hfaults
    have hrs : (if inp % 16 = 0 ∧ inp + 16 * n ≤ ownBytes c ∧ n ≤ 8192 then s.records c inp n else []) =
      s.records c inp n := if_pos ⟨halign, hfits, hn⟩
    show execEsort c t f s = _
    refine issue_go_of_runs (runs_of_traversal hc hruns) ?_
    dsimp only
    rw [hrs, hfaults]
    simp only [next_wrB]
    rfl

end Sys2Proof.Machine
end

section
open Sys2Proof Sys2Proof.Machine

/-- Settles O32: the three instructions by what their bodies write, the sort by its insertions. -/
theorem recordsSorted : Obligations.RecordsSorted := ⟨recordSorts, sortIsStable⟩

end

section
/-! PROOF. Streams that gathers and pools feed (09 R330, R332, R333). -/

namespace Sys2Proof.Machine

variable {s : State} {c : Fin 800} {q : Fin 16}

/-! ### FEEDER_CREDIT_RETURN (R330) -/

/-- A token to a core that exists is not discarded (01 R38). -/
theorem tokBad_mkTok_core {kind g : Nat} (snode ssub ch v : Nat) (hk : kind < 8) (hg : g < 800) :
    tokBad (mkTok kind (clusterOf g) (subOf g) snode ssub ch v) = false := by
  have hnode : clusterOf g < 40 := Nat.div_lt_of_lt_mul hg
  have hsub : subOf g < 20 := Nat.mod_lt _ (by decide)
  rw [tokBad_mkTok, nodeUnits, Nat.mod_eq_of_lt (show clusterOf g < 256 by omega), if_pos hnode]
  simp only [Bool.or_eq_false_iff, decide_eq_false_iff_not]
  omega

theorem foldl_sendTok_of_good {tok : Nat → Word} {l : List Nat} (h : ∀ g ∈ l, tokBad (tok g) = false) (s : State) :
    l.foldl (fun s g => s.sendTok (tok g)) s = { s with e := { s.e with toks := s.e.toks ++ l.map tok } } := by
  induction l generalizing s with
  | nil => simp
  | cons g l ih =>
    obtain ⟨hg, hl⟩ := List.forall_mem_cons.1 h
    rw [List.foldl_cons, State.sendTok_of_good hg, ih hl]
    simp

theorem feederCredits : feederCreditLaw := by
  intro c q s hclk st hopen hkind hdue hfeeders
  have hgood (g : Nat) (hg : g ∈ st.feeders) :
      tokBad (mkTok 0 (clusterOf g) (subOf g) (clusterOf c) (subOf c) st.credChannel st.unreturned) = false :=
    tokBad_mkTok_core _ _ _ _ (by decide) (hfeeders g hg)
  have hdue' : (st.isOpen && st.kind == 4 && st.unreturned != 0) = true := by simp [hopen, hkind, hdue]
  refine ⟨_, (unlessStopped_off hclk).trans (if_pos hdue'), State.stream_setStream .., ?_⟩
  rw [foldl_sendTok_of_good hgood]
  rfl

/-! ### POOL_GROUP_ISSUE (R332, R333) -/

theorem poolGroups : poolGroupsLaw := by
  intro c q s hclk st first n hruns hopen hclosing hkind hrows hcredit
  have hissues : ((s.taskRuns c || decide (first < st.rowsTaken + s.rowsWanted c q)) && st.isOpen && !st.closing && st.kind == 5
      && decide (first < st.nrows) && decide (n * st.rowChunks ≤ st.credits)) = true := by
    simpa [hopen, hclosing, hkind, hrows, hcredit] using hruns
  exact ⟨_, (unlessStopped_off hclk).trans (if_pos hissues), State.stream_setStream .., _, rfl, rfl, rfl, rfl, rfl, rfl⟩

end Sys2Proof.Machine
end

section
open Sys2Proof Sys2Proof.Machine

/-- Settles O34: the credits of a stream go to its feeders one token each, the next group of a stream goes to the base engine of
its section. -/
theorem fedStreams : Obligations.FedStreams := ⟨feederCredits, poolGroups⟩

end

section
/-! PROOF. A base command from its issue through its run to its completion (08 R301, R305, R306, 09 R320 to R322). -/

namespace Sys2Proof.Machine

/-! ### BCMD (09 R321, R322) -/

/-- The command that BCMD hands to the stack of IMM. -/
def issuedCmd (s : State) (c : Fin 800) (t : Fin 16) (f : Fields) : BCmd :=
  let off := (s.sreg c t f.srca.toNat).toNat
  { id := s.b.nextId, stack := f.imm.toNat % 8, core := c, thread := t, off := off
    hdr := parseHdr (s.rdB (keyOwn c off) 64), stream := none, pay := none, asked := 0, jnl := 0, done := none, dead := false }

/-- A command in the base engines' list behind those before it. -/
def State.joinCmd (s : State) (x : BCmd) : State :=
  { s with b := { s.b with cmds := s.b.cmds ++ [x], nextId := s.b.nextId + 1 } }

theorem baseCommandIssues : baseCommandIssueLaw := by
  intro c t f s off h hc hruns halign hfits hdest hstatus hstatusFits hberth
  have hoff : ¬ (off % 64 != 0 || decide (ownBytes c < off + 64)) = true := by simp [halign, hfits]
  have hplace : ¬ (h.statusOff % 8 != 0 || decide (ownBytes c < h.statusOff + 8)) = true := by simp [hstatus, hstatusFits]
  have hfree : ¬ (!s.berthFree c) = true := by simp [hberth]
  have hexec : exec (.bcmd c t f) s = .next (passed s (s.joinCmd (issuedCmd s c t f)) c t) := by
    show execBcmd c t f s = _
    refine issue_go_of_runs (runs_of_traversal hc hruns) ?_
    exact (if_neg hoff).trans ((if_neg hdest).trans ((if_neg hplace).trans (if_neg hfree)))
  exact ⟨_, hexec, core_pc_passed .., issuedCmd s c t f, by simp [passed, State.joinCmd], rfl, rfl, rfl, rfl, rfl⟩

/-! ### The run of a command (08 R301, R305) -/

section
variable {s : State} {st : Fin 8} {id : Nat} {x : BCmd} {sl : Slot}

/-- What an event of a command's OP does to a command whose turn it is and that nothing rejects, by its payload, its requests
and what it asks for next. -/
theorem runCmd_of_ready {op : Nat} (run : State → BCmd → Slot → BPay → State) (hclk : Clocked s)
    (hready : s.cmdReady st id = some x) (hop : x.hdr.op = op) (hrej : s.cmdRejected x = false)
    (hslot : s.slot st x.hdr.table = some sl) : runCmd op run st id s =
      let p := s.payloadOf x sl
      if p.bad || (x.hdr.op == 1 && endsBad p.idx.length 0 p.ends) then .next (s.cmdDone x (some ⟨2, 0, 0, []⟩))
      else if s.cmdAsks id then .next s
      else (s.askNext x sl p).elim
        (if decide (x.hdr.op < 2) && s.repliesDue st (clusterOf x.core) then .next s else .next (run s x sl p)) .next := by
  subst hop
  refine (unlessStopped_off hclk).trans ?_
  simp only [hready, hrej, hslot, bne_self_eq_false, Bool.or_false, Bool.false_eq_true, if_false]
  cases s.askNext x sl (s.payloadOf x sl) <;> rfl

end

/-- What a command asks for next, by its OP and what it has asked for (01 R40). -/
theorem askNext_stages (s : State) (x : BCmd) (sl : Slot) (p : BPay) :
    (x.asked = 0 → s.askNext x sl p = some (s.askCmd x sl p))
    ∧ (x.hdr.op = 2 → x.asked = 1 → s.askNext x sl p = some (s.askWrites x sl p))
    ∧ (x.hdr.op = 3 → x.asked = 3 → s.askNext x sl p = some (s.askWrites x sl p))
    ∧ ((x.asked = 1 ∧ x.hdr.op < 2 ∨ x.asked = 4) → s.askNext x sl p = none) := by
  unfold State.askNext
  split <;> simp_all

/-! ### The completion of a command (08 R305, R306) -/

section
variable {s : State} {st : Fin 8} {id : Nat} {x : BCmd}

theorem commandCompletion_of_done {d : BDone} (hclk : Clocked s)
    (hx : s.b.cmds.find? (fun (y : BCmd) => y.id == id && y.stack == st.val) = some x) (hd : x.done = some d) :
    exec (.commandCompletion st id) s = if s.completionWaits x then .next s else .next (s.complete x d) := by
  refine (unlessStopped_off hclk).trans ?_
  rw [hx]
  dsimp only
  rw [hd]

theorem commandCompletion_of_rejected (hclk : Clocked s)
    (hx : s.b.cmds.find? (fun (y : BCmd) => y.id == id && y.stack == st.val) = some x) (hd : x.done = none)
    (hdead : x.dead = false) (hrej : s.cmdRejected x = true) : exec (.commandCompletion st id) s =
      if s.completionWaits x then .next s else .next (s.complete x ⟨1, 0, 0, []⟩) := by
  refine (unlessStopped_off hclk).trans ?_
  rw [hx]
  dsimp only
  rw [hd]
  cases s.completionWaits x <;> simp [hdead, hrej]

end

/-- A thread's command has left its engine; its flags, its completion word and its signal are out. -/
def State.signalled (s : State) (x : BCmd) (d : BDone) : State :=
  let u := State.unblock { s with b := { s.b with cmds := s.b.cmds.filter (fun (y : BCmd) => y.id != x.id) } } x.core
  ((u.orFlags x.core x.thread d.fl).wr (keyOwn x.core x.hdr.statusOff) 8 (d.status + d.invalid % 2 ^ 16 * 2 ^ 16)).sendTok
    (mkTok 1 (clusterOf x.core) (subOf x.core) (40 + x.stack) (x.core % 16) x.hdr.channel 1)

theorem complete_of_thread (s : State) {x : BCmd} (d : BDone) (hstream : x.stream = none) (hthread : x.thread < 16) :
    s.complete x d = (s.signalled x d).promote x.core := by
  simp only [State.complete, hstream, Nat.ne_of_lt (Nat.lt_trans hthread (by decide : 16 < 32)), if_false, State.signalled]

/-- What the completion of a thread's command leaves (R306). -/
structure Completed (s u : State) (x : BCmd) (d : BDone) : Prop where
  word : u.rd (keyOwn x.core x.hdr.statusOff) 8 = (d.status + d.invalid % 2 ^ 16 * 2 ^ 16) % 2 ^ 64
  flags : u.flags x.core x.thread = s.flags x.core x.thread ||| d.fl
  toks : u.e.toks =
    s.e.toks ++ [mkTok 1 (clusterOf x.core) (subOf x.core) (40 + x.stack) (x.core % 16) x.hdr.channel 1]
  gone : ∀ y ∈ u.b.cmds, y.id ≠ x.id

theorem completed_signalled (s : State) {x : BCmd} (d : BDone) (hcore : x.core < 800) : Completed s (s.signalled x d) x d := by
  rw [State.signalled, State.sendTok_of_good (tokBad_mkTok_core _ _ _ _ (by decide) hcore)]
  exact
    { word := Mem.rdLE_wrLE ..
      flags := flags_orFlags ..
      toks := rfl
      gone := fun y hy => by simpa using (List.mem_filter.1 hy).2 }

theorem Completed.promote {s u : State} {x : BCmd} {d : BDone} (h : Completed s u x d) : Completed s (u.promote x.core) x d where
  word := by simpa [State.rd] using h.word
  flags := by
    rw [State.flags, (filesKept_promote u x.core).tflags]
    exact h.flags
  toks := by simpa using h.toks
  gone := by simpa using h.gone

theorem baseCommandRuns : baseCommandsLaw := by
  intro st id s x hclk
  refine ⟨fun sl hready hrej hslot => ?runs, askNext_stages s x, fun hx hd hdead hrej => ?rejected,
    fun d hx hd hstream hthread hcore _ => ?completes⟩
  case runs =>
    intro p bad behind gives
    have hgives {run : State → BCmd → Slot → BPay → State} {o : Out} (ho : o = runCmd x.hdr.op run st id s) :
        gives o (run s x sl p) := by
      rw [ho, runCmd_of_ready run hclk hready rfl hrej hslot]
      have hgood {a b : Out} (hb : bad = false) : (if bad then a else b) = b := if_neg (ne_true_of_eq_false hb)
      have hgranted {a b : Out} (ha : s.cmdAsks id = false) : (if s.cmdAsks id then a else b) = b :=
        if_neg (ne_true_of_eq_false ha)
      refine ⟨fun hb => if_pos hb, fun hb ha => (hgood hb).trans (if_pos ha), fun hb ha s' hn => ?next,
        fun hb ha hn hd => ?held, fun hb ha hn hd => ?effect⟩
      all_goals
        refine (hgood hb).trans ((hgranted ha).trans ?_)
        rw [hn]
      case next => rfl
      case held => exact if_pos hd
      case effect => exact if_neg (ne_true_of_eq_false hd)
    refine ⟨fun hop => hgives ?gather, fun hop => hgives ?pool, fun hop => hgives ?scatterAdd, fun hop => hgives ?rowUpdate⟩
    all_goals
      rw [hop]
      rfl
  case rejected =>
    rw [commandCompletion_of_rejected hclk hx hd hdead hrej]
    exact ⟨fun h => if_pos h, fun h => if_neg (by simp [h])⟩
  case completes =>
    have hfound := List.find?_some hx
    simp only [Bool.and_eq_true, beq_iff_eq] at hfound
    obtain ⟨rfl, hstack⟩ := hfound
    rw [commandCompletion_of_done hclk hx hd]
    refine ⟨fun h => if_pos h, fun h => ⟨_, if_neg (by simp [h]), ?_⟩⟩
    rw [complete_of_thread s d hstream hthread]
    obtain ⟨hword, hflags, htoks, hgone⟩ := (completed_signalled s d hcore).promote
    exact ⟨hword, hflags, hstack ▸ htoks, hgone⟩

end Sys2Proof.Machine
end

section
open Sys2Proof Sys2Proof.Machine

/-- Settles O35: BCMD by its body, the four events by the payload, the requests and the next stage of their command, the
completion by the state that it leaves. -/
theorem baseCommandLife : Obligations.BaseCommandLife := ⟨baseCommandIssues, baseCommandRuns⟩

end

section
/-! PROOF. ERES: its effect by the faults of its operands, by its descriptor and by the rows that it resolves (10 R351 to R357). -/

namespace Sys2Proof.Machine

variable {s : State} {c : Fin 800} {t : Fin 16} {f : Fields}

/-! ### The effect in parts -/

/-- The operands of an ERES (R351). -/
def State.eresOf (s : State) (c : Fin 800) (t : Fin 16) (f : Fields) : Eres :=
  let cw := (s.sreg c t f.srcc.toNat).toNat
  { core := c, out := (s.sreg c t f.srca.toNat).toNat, rows := (s.sreg c t f.srcb.toNat).toNat, n := bits f.imm.toNat 0 13
    serve := modBit f 16, noHot := modBit f 17, cw := cw
    hdr := if bits cw 8 24 % 64 = 0 ∧ bits cw 8 24 + 64 ≤ ownBytes c then s.rdB (keyOwn c (bits cw 8 24)) 64 else [] }

/-- The rows of an ERES with their positions. -/
def State.eresRows (s : State) (i : Eres) : List (Nat × Nat) :=
  (List.range i.n).map (fun j => (j, s.rd (keyOwn i.core (i.rows + 8 * j)) 8))

/-- One row resolved in the mode of the instruction. -/
def eresRow (i : Eres) (d : Option Desc) (j r : Nat) : TravM (Nat × Nat) :=
  if i.serve then resolveServe i d j r
  else match d with
    | some d => resolveReq i d j r
    | none => endWith 1

/-- A serve's late entries counted; a requester counts none (R356). -/
def Trav.served (i : Eres) (es : List (Nat × Nat)) (tr : Trav) : Trav :=
  if i.serve then { tr with s := tr.s.countLate (clusterOf i.core) es } else tr

/-- The effect of an ERES whose rows are resolved as far as they go. -/
def eresResolved (i : Eres) (t dst : Nat) (d : Option Desc) (es : List (Nat × Nat)) (e : Option (Nat × Nat)) (tr : Trav) : Eff :=
  match e with
  | some (code, a) => .trap ((tr.served i es).s.wrCells (entryCells i.core i.out es)) [wholeAt code a]
  | none =>
    let (ver, dir) := match d with
      | some d => (d.ver, d.dirVer)
      | none => (0, 0)
    State.eresEnd i.core t dst (eresWord i.serve ver dir es) (entryCells i.core i.out es) (tr.served i es)

/-- The effect of an ERES whose word is no reserved encoding. -/
def eresEff (c : Fin 800) (t : Fin 16) (f : Fields) (s : State) : Eff :=
  let i := s.eresOf c t f
  match eresFaults i with
  | fault :: fs => .fault (fault :: fs)
  | [] =>
    match (eresDesc i).run ⟨s, [], 0⟩ with
    | (.error (.fault e a), _) => .fault [wholeAt e a]
    | (.error (.status st), tr) => State.eresEnd i.core t f.dst.toNat (st * 2 ^ 13) [] tr
    | (.ok d, tr) =>
      let (es, e, tr) := resolveAll (eresRow i d) (s.eresRows i) tr
      eresResolved i t f.dst.toNat d es e tr

/-- What a word of ERES uses (R351). -/
def usesEres : Uses := { dst := some .s, a := some .s, b := some .s, c := some .s, mod := 3, imm := 0x1FFF }

/-- Whether ERES reserves the word for its core, its N or its MOD (R351, R357). -/
def eresBad (c : Fin 800) (f : Fields) : Bool :=
  let n := bits f.imm.toNat 0 13
  isMatrix c || n == 0 || decide (4096 < n) || (modBit f 16 && modBit f 17)

theorem exec_eres : exec (.eres c t f) s = issue c t 3 0x30 f usesEres (eresBad c f) [] (eresEff c t f) s := rfl

/-! ### The parts by their cases -/

theorem eresRow_of_requester {i : Eres} (h : i.serve = false) (d : Desc) : eresRow i (some d) = resolveReq i d :=
  funext fun _ => funext fun _ => if_neg (ne_true_of_eq_false h)

theorem eresRow_of_serve {i : Eres} (h : i.serve = true) (d : Option Desc) : eresRow i d = resolveServe i d :=
  funext fun _ => funext fun _ => if_pos h

theorem Trav.served_of_requester {i : Eres} (h : i.serve = false) (es : List (Nat × Nat)) (tr : Trav) : tr.served i es = tr :=
  if_neg (ne_true_of_eq_false h)

theorem Trav.served_of_serve {i : Eres} (h : i.serve = true) (es : List (Nat × Nat)) (tr : Trav) :
    tr.served i es = { tr with s := tr.s.countLate (clusterOf i.core) es } := if_pos h

theorem State.pc_countLate (cl : Nat) (es : List (Nat × Nat)) (core th : Nat) : (s.countLate cl es).pc core th = s.pc core th := by
  simp [State.pc]

/-- The result word of a serve reports no version (R355). -/
theorem eresWord_serve (ver dir : Nat) (es : List (Nat × Nat)) : eresWord true ver dir es = eresWord true 0 0 es := by
  simp only [eresWord, if_true]

/-- The rows of a requester resolved: the end that waits for the reads (R355). -/
theorem eresResolved_requester {i : Eres} (h : i.serve = false) (th dst : Nat) (d : Desc) (es : List (Nat × Nat)) (tr : Trav) :
    eresResolved i th dst (some d) es none tr =
      State.eresEnd i.core th dst (eresWord false d.ver d.dirVer es) (entryCells i.core i.out es) tr := by
  simp only [eresResolved, h, tr.served_of_requester h]

/-- The rows of a serve resolved: the late entries counted before the end that waits for the reads (R355, R356). -/
theorem eresResolved_serve {i : Eres} (h : i.serve = true) (th dst : Nat) (d : Option Desc) (es : List (Nat × Nat)) (tr : Trav) :
    eresResolved i th dst d es none tr =
      State.eresEnd i.core th dst (eresWord true 0 0 es) (entryCells i.core i.out es)
        { tr with s := tr.s.countLate (clusterOf i.core) es } := by
  simp only [eresResolved, h, tr.served_of_serve h, eresWord_serve]

/-- The end of an ERES in a state that still has the thread's program counter is the state in which its reads have started. -/
theorem applyEff_eresEnd {tr : Trav} (hpc : s.pc c t + 1 ≤ 8191) (htr : tr.s.pc c t = s.pc c t) (w : Word) (dst word : Nat)
    (cells : List (Nat × Byte)) :
    s.applyEff c t (s.pc c t) w (State.eresEnd c t dst word cells tr) =
      passed tr.s (tr.s.startReads
        { newXfer c t false (scalarDest dst) (.result dst word []) with late := cells } tr.units) c t := by
  have hnext : tr.s.next c t = s.next c t := by rw [State.next, State.next, htr]
  rw [State.eresEnd, hnext, applyEff_next hpc, passed, passed, htr]

/-! ### The effect by the descriptor and the rows -/

section
variable (hfaults : eresFaults (s.eresOf c t f) = [])
include hfaults

theorem eresEff_of_fault {code a : Nat} {tr : Trav}
    (hdesc : (eresDesc (s.eresOf c t f)).run ⟨s, [], 0⟩ = (.error (.fault code a), tr)) :
    eresEff c t f s = .fault [wholeAt code a] := by
  simp only [eresEff, hfaults, hdesc]

theorem eresEff_of_status {st : Nat} {tr : Trav}
    (hdesc : (eresDesc (s.eresOf c t f)).run ⟨s, [], 0⟩ = (.error (.status st), tr)) :
    eresEff c t f s = State.eresEnd c t f.dst.toNat (st * 2 ^ 13) [] tr := by
  simp only [eresEff, hfaults, hdesc]
  rfl

theorem eresEff_of_rows {d : Option Desc} {es : List (Nat × Nat)} {e : Option (Nat × Nat)} {tr tr' : Trav}
    (hdesc : (eresDesc (s.eresOf c t f)).run ⟨s, [], 0⟩ = (.ok d, tr))
    (hrows : resolveAll (eresRow (s.eresOf c t f) d) (s.eresRows (s.eresOf c t f)) tr = (es, e, tr')) :
    eresEff c t f s = eresResolved (s.eresOf c t f) t f.dst.toNat d es e tr' := by
  simp only [eresEff, hfaults, hdesc, hrows]

end

theorem eresBad_of_mode (h : modBit f 16 = true → modBit f 17 = false) :
    eresBad c f = (isMatrix c || bits f.imm.toNat 0 13 == 0 || decide (4096 < bits f.imm.toNat 0 13)) := by
  have hmode : (modBit f 16 && modBit f 17) = false := by simpa using h
  rw [eresBad, hmode, Bool.or_false]

end Sys2Proof.Machine
end

section
open Sys2Proof Sys2Proof.Machine

/-- Settles O33: the effect by its descriptor and then by the rows of each mode, each end by the state that it leaves. -/
theorem resolveEntries : Obligations.ResolveEntries := by
  intro c t f s n cw i list ends fails hmode hruns hfaults
  rw [← eresBad_of_mode hmode] at hruns
  have hexec : exec (.eres c t f) s = .next (s.applyEff c t (s.pc c t) (instrWord 3 0x30 f) (eresEff c t f s)) :=
    exec_eres.trans (issue_of_runs hruns ..)
  refine ⟨fun hreq d tr es tr' hdesc => ⟨fun hrows hpc => ?requested, fun code a hrows => ?requestStopped⟩,
    fun hserve d tr es tr' hdesc => ⟨fun hrows hpc => ?served, fun code a hrows => ?serveStopped⟩,
    fun st tr hdesc hpc => ?status, fun code a tr hdesc => ?fault⟩
  case requested =>
    rw [← eresRow_of_requester hreq] at hrows
    rw [hexec, eresEff_of_rows hfaults hdesc hrows, eresResolved_requester hreq]
    exact congrArg _ (applyEff_eresEnd hruns.pc_le hpc ..)
  case requestStopped =>
    rw [← eresRow_of_requester hreq] at hrows
    rw [hexec, eresEff_of_rows hfaults hdesc hrows, eresResolved, tr'.served_of_requester hreq]
    exact congrArg _ (applyEff_trap hruns.pc_le ..)
  case served =>
    rw [← eresRow_of_serve hserve] at hrows
    rw [hexec, eresEff_of_rows hfaults hdesc hrows, eresResolved_serve hserve]
    exact congrArg _ (applyEff_eresEnd hruns.pc_le ((State.pc_countLate ..).trans hpc) ..)
  case serveStopped =>
    rw [← eresRow_of_serve hserve] at hrows
    rw [hexec, eresEff_of_rows hfaults hdesc hrows, eresResolved, tr'.served_of_serve hserve]
    exact congrArg _ (applyEff_trap hruns.pc_le ..)
  case status =>
    rw [hexec, eresEff_of_status hfaults hdesc]
    exact congrArg _ (applyEff_eresEnd hruns.pc_le hpc ..)
  case fault =>
    rw [hexec, eresEff_of_fault hfaults hdesc, applyEff_fault hruns.pc_le]

end

section
/-! PROOF. The registers of the links: which fields share none, and folds of steps (11 R381 to R408, 20 R639). -/

namespace Sys2Proof.Machine

/-! ### Folds of steps -/

/-- A property that one step of a fold establishes and no other one breaks. -/
theorem foldl_settles {α : Type} {R P : State → Prop} {f : State → α → State} {x₀ : α} {l : List α} {s : State} (hmem : x₀ ∈ l)
    (hs : R s) (hR : ∀ t, ∀ x ∈ l, R t → R (f t x)) (hset : ∀ t, R t → P (f t x₀))
    (hkeep : ∀ t x, x ≠ x₀ → P t → P (f t x)) : P (l.foldl f s) := by
  induction l generalizing s with
  | nil => cases hmem
  | cons x l ih =>
    by_cases hl : x₀ ∈ l
    · exact ih hl (hR s x (List.mem_cons_self ..) hs) (fun t y hy => hR t y (List.mem_cons_of_mem _ hy))
    · obtain rfl : x₀ = x := (List.mem_cons.1 hmem).resolve_right hl
      exact List.foldlRecOn l f (hset s hs) fun t ht y hy => hkeep t y (fun h => hl (h ▸ hy)) ht

/-- The same where nothing has to hold before that step. -/
theorem foldl_sets {α : Type} {P : State → Prop} {f : State → α → State} {x₀ : α} {l : List α} {s : State} (hmem : x₀ ∈ l)
    (hset : ∀ t, P (f t x₀)) (hkeep : ∀ t x, x ≠ x₀ → P t → P (f t x)) : P (l.foldl f s) :=
  foldl_settles (R := fun _ => True) hmem trivial (fun _ _ _ _ => trivial) (fun t _ => hset t) hkeep

/-! ### Registers of different addresses -/

/-- The address of a field's register. -/
def Fld.reg (g : Fld) : Nat := g.key / 64

@[simp] theorem Fld.at_reg (a lo len rst : Nat) : (Fld.at a lo len rst).reg = a + lo / 64 * 8 := by
  rw [Fld.reg, Fld.at_key]
  omega

theorem key_ne_of_reg {f g : Fld} (h : f.reg ≠ g.reg) : f.key ≠ g.key := mt (congrArg (· / 64)) h

theorem key_ne_of_bit {f g : Fld} (h : f.key % 64 ≠ g.key % 64) : f.key ≠ g.key := mt (congrArg (· % 64)) h

/-! ### The state of a lambda, the counters of traffic, the set-up of the fabric -/

/-- The field of a lambda's state. -/
def lsFld (l : Nat) : Fld := OP_LSTATE_STATE (lamPort l) (lamJ l)

theorem lstate_eq (s : State) (l : Nat) : s.lstate l = s.fld (lsFld l) := rfl

@[simp] theorem lsFld_reg (l : Nat) : (lsFld l).reg = 0x4000000 + l / 8 * 0x40000 := by
  have hlow : 3 * (l % 8) / 64 = 0 := by omega
  simp only [lsFld, OP_LSTATE_STATE, lamPort, lamJ, Fld.at_reg, hlow, Nat.zero_mul, Nat.add_zero]

theorem lsFld_key_mod (l : Nat) : (lsFld l).key % 64 = 3 * (l % 8) := by
  simp only [lsFld, OP_LSTATE_STATE, lamPort, lamJ, Fld.at_key]
  omega

theorem lsFld_key_ne {k l : Nat} (h : k ≠ l) : (lsFld k).key ≠ (lsFld l).key := by
  by_cases hport : k / 8 = l / 8
  · refine key_ne_of_bit ?_
    rw [lsFld_key_mod, lsFld_key_mod]
    omega
  · refine key_ne_of_reg ?_
    rw [lsFld_reg, lsFld_reg]
    omega

/-- A field that counts nothing of what traffic loses, reports or retrains. -/
structure Steady (g : Fld) : Prop where
  lost : g.reg ≠ ERR_LOST_LOW.reg
  bounced : g.reg ≠ FAB_DROP_BOUNCE_LOST.reg
  retrains : ∀ n, g.reg ≠ (OP_LINK_RETRAINS n).reg

/-- A field of the fabric's set-up: no such counter, and not the state of a lambda. -/
structure SetUp (g : Fld) : Prop where
  steady : Steady g
  lstate : ∀ l, g.reg ≠ (lsFld l).reg

theorem steady_lsFld (l : Nat) : Steady (lsFld l) := by
  constructor <;> simp only [lsFld_reg, ERR_LOST_LOW, FAB_DROP_BOUNCE_LOST, OP_LINK_RETRAINS, Fld.at_reg] <;> omega

theorem setUp_of_reg {g : Fld} (hlost : g.reg ≠ 0x3000008) (hdrop : g.reg ≠ 0x4800018)
    (hport : g.reg % 0x40000 ≠ 0 ∧ g.reg % 0x40000 ≠ 0x10) : SetUp g := by
  refine ⟨⟨?_, ?_, fun n => ?_⟩, fun l => ?_⟩ <;>
    simp only [lsFld_reg, ERR_LOST_LOW, FAB_DROP_BOUNCE_LOST, OP_LINK_RETRAINS, Fld.at_reg] <;> omega

theorem setUp_posValid : SetUp FAB_POS_VALID := setUp_of_reg (by decide) (by decide) (by decide)
theorem setUp_flight : SetUp FAB_POS_FLIGHT := setUp_of_reg (by decide) (by decide) (by decide)
theorem setUp_reach : SetUp FAB_POS_REACH := setUp_of_reg (by decide) (by decide) (by decide)
theorem setUp_pmState : SetUp PM_CTRL_STATE := setUp_of_reg (by decide) (by decide) (by decide)

/-- The registers of a port's laser inputs and of its shutter are one. -/
theorem setUp_of_laser {g : Fld} {n : Nat} (h : g.reg = 0x4000018 + n * 0x40000) (hn : n < 32) : SetUp g := by
  refine setUp_of_reg ?_ ?_ ?_ <;> omega

end Sys2Proof.Machine
end

section
/-! PROOF. What lost frames, reports and changes of a lambda's state leave of the links (11 R381 to R408). -/

namespace Sys2Proof.Machine

/-! ### A register written -/

theorem fld_setFld_reg_ne (s : State) {f g : Fld} (v : Nat) (h : g.reg ≠ f.reg) : (s.setFld f v).fld g = s.fld g :=
  s.fld_setFld_ne v (key_ne_of_reg h).symm

theorem fld_count_reg_ne (s : State) {f g : Fld} (n : Nat) (h : g.reg ≠ f.reg) : (s.count f n).fld g = s.fld g := by
  unfold State.count
  split
  · rfl
  · exact fld_setFld_reg_ne s _ h

theorem fld_file (s : State) (detail cls kind index arg : Nat) {g : Fld} (h : Steady g) :
    (s.file detail cls kind index arg).fld g = s.fld g :=
  State.fld_report (key_ne_of_reg h.lost) (key_ne_of_reg h.lost)

@[simp] theorem count_fab (s : State) (f : Fld) (n : Nat) : (s.count f n).fab = s.fab := by
  unfold State.count
  split <;> rfl

@[simp] theorem file_fab (s : State) (detail cls kind index arg : Nat) : (s.file detail cls kind index arg).fab = s.fab := by
  simp

@[simp] theorem lam_count (s : State) (f : Fld) (n k : Nat) : (s.count f n).lam k = s.lam k := by
  rw [State.lam, count_fab, State.lam]

theorem lam_setLam (s : State) (l k : Nat) (v : Lam) : (s.setLam l v).lam k = if k = l then v else s.lam k :=
  Tab.get_put ..

@[simp] theorem lam_setLam_same (s : State) (l : Nat) (v : Lam) : (s.setLam l v).lam l = v := Tab.get_put_same ..

theorem lstate_setLstate_same (s : State) (l v : Nat) (h : v < 8) : (s.setLstate l v).lstate l = v :=
  (s.fld_setFld _ v).trans (Nat.mod_eq_of_lt h)

/-! ### Frames that are lost or go back (R397) -/

/-- The second state has lost or sent back frames of the first: reports, counters of lost frames, the queue and freed credits
alone have moved. -/
structure Bounced (s u : State) : Prop where
  fld : ∀ g, Steady g → u.fld g = s.fld g
  lam : ∀ k, ∃ fr, u.lam k = { s.lam k with freed := fr }
  sent : u.fab.sent = s.fab.sent
  enA : u.fab.enA = s.fab.enA
  enB : u.fab.enB = s.fab.enB

theorem Bounced.refl (s : State) : Bounced s s := ⟨fun _ _ => rfl, fun _ => ⟨_, rfl⟩, rfl, rfl, rfl⟩

theorem Bounced.trans {s u v : State} (h : Bounced s u) (g : Bounced u v) : Bounced s v where
  fld f hf := (g.fld f hf).trans (h.fld f hf)
  lam k := by
    obtain ⟨fr, hu⟩ := h.lam k
    obtain ⟨fr', hv⟩ := g.lam k
    exact ⟨fr', by rw [hv, hu]⟩
  sent := g.sent.trans h.sent
  enA := g.enA.trans h.enA
  enB := g.enB.trans h.enB

theorem bounced_of_fab {s u : State} (hfld : ∀ g, Steady g → u.fld g = s.fld g) (h : u.fab = s.fab) : Bounced s u :=
  ⟨hfld, fun k => ⟨(s.lam k).freed, by rw [State.lam, h]; rfl⟩, by rw [h], by rw [h], by rw [h]⟩

theorem bounced_file (s : State) (detail cls kind index arg : Nat) : Bounced s (s.file detail cls kind index arg) :=
  bounced_of_fab (fun _ => fld_file s detail cls kind index arg) (file_fab ..)

theorem bounced_countLost (s : State) (n : Nat) : Bounced s (s.count FAB_DROP_BOUNCE_LOST n) :=
  bounced_of_fab (fun _ hg => fld_count_reg_ne s n hg.bounced) (count_fab ..)

theorem bounced_freeCredits (s : State) (l tc n : Nat) : Bounced s (s.freeCredits l tc n) where
  fld _ _ := rfl
  lam k := by
    rw [State.freeCredits, lam_setLam]
    split_ifs with h
    · exact ⟨_, by rw [h]⟩
    · exact ⟨_, rfl⟩
  sent := rfl
  enA := rfl
  enB := rfl

theorem bounced_outq (s : State) (q : List FOut) : Bounced s { s with fab := { s.fab with outq := q } } :=
  ⟨fun _ _ => rfl, fun _ => ⟨_, rfl⟩, rfl, rfl, rfl⟩

theorem bounced_bounceOne (s : State) (o : FOut) : Bounced s (s.bounceOne o) := by
  unfold State.bounceOne
  split
  · exact bounced_outq ..
  · extract_lets w home back
    split
    · exact bounced_outq ..
    · exact ((bounced_freeCredits ..).trans (bounced_countLost ..)).trans (bounced_file ..)
    · exact (bounced_countLost ..).trans (bounced_file ..)

theorem bounced_bounceHeld (s : State) (l : Nat) : Bounced s (s.bounceHeld l) := by
  unfold State.bounceHeld
  exact foldl_from (fun v w => Bounced w v) _ _ _ s (bounced_outq ..) (fun _ _ _ h g => g.trans h)
    (fun _ _ _ h => h ▸ bounced_bounceOne ..)

theorem bounceHeld_of_empty {s : State} (h : s.fab.outq = []) (l : Nat) : s.bounceHeld l = s := by
  have hq : ({ s with fab := { s.fab with outq := [] } } : State) = s := by rw [← h]
  unfold State.bounceHeld
  rw [h]
  exact hq

/-! ### A lambda that changes its state -/

/-- Registers outside the counters and the states of the lambdas `L`, and the enables of the lasers, are as they were. -/
structure LinksKept (L : Nat → Prop) (s u : State) : Prop where
  fld : ∀ g, Steady g → (∀ l, L l → g.key ≠ (lsFld l).key) → u.fld g = s.fld g
  enA : u.fab.enA = s.fab.enA
  enB : u.fab.enB = s.fab.enB

theorem Bounced.linksKept {s u : State} (h : Bounced s u) (L : Nat → Prop) : LinksKept L s u :=
  ⟨fun g hg _ => h.fld g hg, h.enA, h.enB⟩

theorem LinksKept.trans {L : Nat → Prop} {s u v : State} (h : LinksKept L s u) (g : LinksKept L u v) : LinksKept L s v :=
  ⟨fun f hf hL => (g.fld f hf hL).trans (h.fld f hf hL), g.enA.trans h.enA, g.enB.trans h.enB⟩

theorem LinksKept.mono {L M : Nat → Prop} {s u : State} (h : LinksKept L s u) (hLM : ∀ l, L l → M l) : LinksKept M s u :=
  ⟨fun g hg hM => h.fld g hg fun l hl => hM l (hLM l hl), h.enA, h.enB⟩

theorem linksKept_of_regs {L : Nat → Prop} {s u : State} (h : u.regs = s.regs) (hA : u.fab.enA = s.fab.enA)
    (hB : u.fab.enB = s.fab.enB) : LinksKept L s u :=
  ⟨fun g _ _ => by rw [State.fld, h, State.fld], hA, hB⟩

theorem LinksKept.refl (L : Nat → Prop) (s : State) : LinksKept L s s := linksKept_of_regs rfl rfl rfl

theorem linksKept_foldl {L : List Nat} {f : State → Nat → State} (h : ∀ s l, LinksKept (· = l) s (f s l)) (s : State) :
    LinksKept (· ∈ L) s (L.foldl f s) :=
  List.foldlRecOn (motive := fun t => LinksKept (· ∈ L) s t) L f (.refl ..) fun t ht l hl =>
    ht.trans ((h t l).mono fun _ e => e ▸ hl)

section
variable {L : Nat → Prop} {s u : State} (h : LinksKept L s u)
include h

theorem LinksKept.lstate {k : Nat} (hk : ¬ L k) : u.lstate k = s.lstate k :=
  h.fld (lsFld k) (steady_lsFld k) fun _ hl => lsFld_key_ne fun e => hk (e ▸ hl)

theorem LinksKept.setUp {g : Fld} (hg : SetUp g) : u.fld g = s.fld g :=
  h.fld g hg.steady fun l _ => key_ne_of_reg (hg.lstate l)

theorem LinksKept.onSetUp {g : Fld} (hg : SetUp g) : u.on g = s.on g := by
  rw [State.on, h.setUp hg, State.on]

theorem LinksKept.flight : u.flight = s.flight := h.setUp setUp_flight

theorem LinksKept.reach : u.reach = s.reach := h.setUp setUp_reach

theorem LinksKept.peerOf (k : Nat) : u.peerOf k = s.peerOf k := by
  rw [State.peerOf, h.reach, h.flight, State.peerOf]

theorem LinksKept.isLoop (k : Nat) : u.isLoop k = s.isLoop k := by
  rw [State.isLoop, h.peerOf, State.me, h.reach, h.flight, State.isLoop, State.me]

theorem LinksKept.lit {k : Nat} (hk : k < 256) : u.lit k = s.lit k := by
  have hport : lamPort k < 32 := by
    unfold lamPort
    omega
  have hlaser {g : Fld} (hg : g.reg = 0x4000018 + lamPort k * 0x40000) : u.on g = s.on g := h.onSetUp (setUp_of_laser hg hport)
  unfold State.lit
  dsimp only
  rw [h.setUp setUp_pmState, hlaser (g := OP_LASER_SHUT _) (by simp [OP_LASER_SHUT]),
    hlaser (g := OP_LASER_A_OK _) (by simp [OP_LASER_A_OK]), hlaser (g := OP_LASER_B_OK _) (by simp [OP_LASER_B_OK]), h.enA, h.enB]

end

theorem linksKept_setLstate (s : State) (l v : Nat) : LinksKept (· = l) s (s.setLstate l v) :=
  ⟨fun _ _ hg => s.fld_setFld_ne v (hg l rfl).symm, rfl, rfl⟩

theorem linksKept_countRetrains (L : Nat → Prop) (s : State) (n v : Nat) : LinksKept L s (s.count (OP_LINK_RETRAINS n) v) :=
  ⟨fun _ hg _ => fld_count_reg_ne s v (hg.retrains n), by rw [count_fab], by rw [count_fab]⟩

theorem linksKept_leaveUp (s : State) (l v : Nat) : LinksKept (· = l) s (s.leaveUp l v) :=
  (linksKept_setLstate s l v).trans ((bounced_bounceHeld ..).linksKept _)

theorem lstate_leaveUp (s : State) (l v : Nat) (h : v < 8) : (s.leaveUp l v).lstate l = v :=
  ((bounced_bounceHeld ..).fld _ (steady_lsFld l)).trans (lstate_setLstate_same s l v h)

theorem lam_leaveUp (s : State) (l v k : Nat) : ∃ fr, (s.leaveUp l v).lam k = { s.lam k with freed := fr } :=
  (bounced_bounceHeld (s.setLstate l v) l).lam k

theorem sent_leaveUp (s : State) (l v : Nat) : (s.leaveUp l v).fab.sent = s.fab.sent :=
  (bounced_bounceHeld (s.setLstate l v) l).sent

theorem linksKept_emitHello (L : Nat → Prop) (s : State) (l : Nat) : LinksKept L s (s.emitHello l) := linksKept_of_regs rfl rfl rfl

theorem linksKept_setLam (L : Nat → Prop) (s : State) (l : Nat) (v : Lam) : LinksKept L s (s.setLam l v) := linksKept_of_regs rfl rfl rfl

theorem linksKept_retrain (s : State) (l : Nat) : LinksKept (· = l) s (s.retrain l) :=
  (linksKept_leaveUp s l lsRetrain).trans (linksKept_countRetrains ..)

end Sys2Proof.Machine
end

section
/-! PROOF. O36: the frame of a vote that arrives at a device in the fail-safe state (11 R387, 18 R592). -/

namespace Sys2Proof.Machine

/-- A device in the fail-safe state whose lambda 1 is UP. -/
def upFailSafe : State := (up.setLstate 1 lsUp).setFld ERR_FAILSAFE_ACTIVE 1

/-- A frame whose CRC does not match. -/
def badCrcFrame : List Byte := headE2E 0 1 0 0 0 0 false false ++ leBytes 12 0

theorem vote_of_failSafe {s : State} (h : s.on ERR_FAILSAFE_ACTIVE = true) (via : Via) : exec (.vote via) s = .next s :=
  unlessStopped_on h

theorem badFrame_ne {s : State} {l : Nat} (h : (s.lam l).nakDue = false) : s ≠ s.badFrame l := by
  intro e
  have hdue : ((s.badFrame l).lam l).nakDue = true := by rw [State.badFrame, lam_setLam_same]
  rw [← e, h] at hdue
  contradiction

theorem upFailSafe_receives : upFailSafe.on ERR_FAILSAFE_ACTIVE = true ∧ frameSized badCrcFrame = true
    ∧ upFailSafe.lamUp (upFailSafe.lamAt 1) = true ∧ crcOk badCrcFrame = false
    ∧ (upFailSafe.lam (upFailSafe.lamAt 1)).nakDue = false := by decide +kernel

theorem not_frameChecksLaw : ¬ frameChecksLaw := by
  intro h
  obtain ⟨hstopped, hsized, hup, hcrc, hdue⟩ := upFailSafe_receives
  have hrow : PartRow 1 badCrcFrame (.vote (.lambda 1 badCrcFrame)) := by simp [PartRow]
  obtain ⟨hbad, -, -⟩ := h 1 badCrcFrame upFailSafe hsized _ (.inl hrow)
  have hexec := (vote_of_failSafe hstopped (.lambda 1 badCrcFrame)).symm.trans (hbad hup hcrc)
  exact badFrame_ne hdue (Host.Outcome.next.inj hexec)

end Sys2Proof.Machine
end

section
open Sys2Proof Sys2Proof.Machine

/-- Refutes O36: in the fail-safe state VOTE does nothing, so that the frame that it is about owes no NAK for a CRC that does
not match. -/
theorem not_framesReceived : ¬ Obligations.FramesReceived := fun ⟨_, hchecks, _⟩ => not_frameChecksLaw hchecks

end

section
/-! PROOF. HELLO and LINKSTATE_SEND (11 R382 to R384, R398). -/

namespace Sys2Proof.Machine

/-! ### A frame that is taken (R387) -/

/-- A management frame that passes and is the row's, with the form of its type. -/
theorem receive_of_management {place : Fin 256} {b d : List Byte} {mine good : State → Option Nat → List Byte → Bool}
    {g : State → Option Nat → List Byte → State} {s : State} (h : Taken s (s.lamAt place) b) (hfate : s.fate b = .pass none 0 d)
    (hmine : mine s none d = true) (hgood : good s none d = true) :
    receive place b mine good g s = .next (g (accepted s (s.lamAt place) b) none d) := by
  obtain ⟨hsized, hcrc, htakes⟩ := h
  unfold receive
  simp only [hsized, hcrc, htakes, hfate, hmine, hgood, Bool.not_true, Bool.and_false, Bool.false_eq_true, if_false]
  rfl

theorem lamUp_of_takes {s : State} {l : Nat} {b : List Byte} (h : s.takes l b = true) : s.lamUp l = true := by
  unfold State.takes at h
  simp only [Bool.and_eq_true] at h
  exact h.1.1

/-! ### HELLO (R382, R384) -/

theorem lstate_file (s : State) (detail cls kind index arg k : Nat) : (s.file detail cls kind index arg).lstate k = s.lstate k :=
  fld_file s detail cls kind index arg (steady_lsFld k)

/-- Another position: the lambda leaves UP as MISWIRED. -/
theorem noteHello_of_other {s : State} {l : Nat} {d : List Byte} (hpos : helloPos d ≠ s.peerOf l) (hst : s.lstate l ≠ lsMiswired) :
    s.noteHello l d = ((s.setLam l { s.lam l with peerPos := helloPos d, trained := false }).leaveUp l lsMiswired).file
      0x0035 clsNotice 4 (lamPort l) (helloPos d) := by
  unfold State.noteHello
  simp only [hpos, hst, if_false]

theorem noteHello_of_miswired {s : State} {l : Nat} {d : List Byte} (hpos : helloPos d ≠ s.peerOf l)
    (hst : s.lstate l = lsMiswired) : s.noteHello l d = s := by
  unfold State.noteHello
  simp only [hpos, hst, if_false, if_true]

/-- What a HELLO from the lambda's own peer names, kept. -/
def keptHello (x : Lam) (d : List Byte) : Lam :=
  { x with
    peerPos := helloPos d, feed := some (bits (leNat ((d.drop 2).take 2)) 0 3)
    build := leNat ((d.drop 4).take 4), nonce := leNat ((d.drop 8).take 8) }

/-- A HELLO from the lambda's own peer noted, before the lambda trains. -/
def State.keepHello (s : State) (l : Nat) (d : List Byte) : State := s.setLam l (keptHello (s.lam l) d)

theorem noteHello_of_peer {s : State} {l : Nat} {d : List Byte} (hpos : helloPos d = s.peerOf l) :
    s.noteHello l d =
      if s.lstate l = lsDown ∨ s.lstate l = lsMiswired then
        (if s.lit l then ((s.keepHello l d).emitHello l).setLstate l lsTraining else (s.keepHello l d).setLstate l lsDown)
      else if s.lstate l = lsAbsent then (s.keepHello l d).setLstate l (if s.lit l then lsTraining else lsDown)
      else s.keepHello l d := by
  unfold State.noteHello
  exact if_pos hpos

theorem lam_noteHello {s : State} {l : Nat} {d : List Byte} (hpos : helloPos d = s.peerOf l) :
    (s.noteHello l d).lam l = keptHello (s.lam l) d := by
  have hkept : (s.keepHello l d).lam l = keptHello (s.lam l) d := lam_setLam_same ..
  rw [noteHello_of_peer hpos]
  split_ifs <;> exact hkept

theorem lstate_noteHello {s : State} {l : Nat} {d : List Byte} (hpos : helloPos d = s.peerOf l) :
    (s.noteHello l d).lstate l = if s.lstate l = lsAbsent ∨ s.lstate l = lsMiswired ∨ s.lstate l = lsDown then
      (if s.lit l then lsTraining else lsDown) else s.lstate l := by
  have htrain (u : State) : (u.setLstate l lsTraining).lstate l = lsTraining := lstate_setLstate_same _ _ _ (by decide)
  have hdown (u : State) : (u.setLstate l lsDown).lstate l = lsDown := lstate_setLstate_same _ _ _ (by decide)
  rw [noteHello_of_peer hpos, apply_ite (State.lstate · l), apply_ite (State.lstate · l), apply_ite (State.lstate · l), htrain, hdown]
  by_cases habsent : s.lstate l = lsAbsent
  · have hrest : ¬ (s.lstate l = lsDown ∨ s.lstate l = lsMiswired) := by
      rw [habsent]
      decide
    have hlow : (if s.lit l then lsTraining else lsDown) < 8 := by split_ifs <;> decide
    rw [if_neg hrest, if_pos habsent]
    exact (lstate_setLstate_same _ _ _ hlow).trans (if_pos (.inl habsent)).symm
  · rw [if_neg habsent]
    exact if_congr (by tauto) rfl rfl

theorem helloNoted : helloNotedLaw := by
  intro l d s _
  refine ⟨fun hpos => ?peer, fun hpos hst => ⟨?wrong, noteHello_of_other hpos hst⟩, noteHello_of_miswired⟩
  case peer =>
    rw [lam_noteHello hpos]
    exact ⟨rfl, rfl, rfl, rfl, lstate_noteHello hpos⟩
  case wrong =>
    rw [noteHello_of_other hpos hst, lstate_file]
    exact lstate_leaveUp _ _ _ (by decide)

theorem hello_of_pattern {at_ : Fin 256} {b : List Byte} {s : State} (hpos : s.on FAB_POS_VALID = true) (hsized : frameSized b = true)
    (hcrc : crcOk b = true) (htype : hType b = 6) (hloop : s.isLoop (s.lamAt at_) = false) (hup : s.lamUp (s.lamAt at_) = false)
    (hst : s.lstate (s.lamAt at_) ≠ lsShuttered) (hshut : s.on (OP_LASER_SHUT (lamPort (s.lamAt at_))) = false)
    (hhead : headOk b = true) (hlen : hLen b = 16) : exec (.hello at_ b) s = .next (s.noteHello (s.lamAt at_) (hPay b)) := by
  refine Eq.trans (b := execHello at_ b s) rfl ?_
  simp [execHello, hsized, hcrc, hpos, htype, hhead, hlen, hloop, hup, hst, hshut]

theorem hello_of_frame {at_ : Fin 256} {b d : List Byte} {s : State} (hpos : s.on FAB_POS_VALID = true)
    (h : Taken s (s.lamAt at_) b) (htype : hType b = 6) (hloop : s.isLoop (s.lamAt at_) = false)
    (hfate : s.fate b = .pass none 0 d) (hd : d.length = 16) :
    exec (.hello at_ b) s = .next ((accepted s (s.lamAt at_) b).noteHello (s.lamAt at_) d) := by
  refine Eq.trans (b := execHello at_ b s) rfl ?_
  simp only [execHello, h.1, hpos, htype, hloop, lamUp_of_takes h.2.2, Bool.not_true, bne_self_eq_false, Bool.or_self, Bool.false_eq_true,
    if_true, if_false]
  exact receive_of_management h hfate rfl (beq_iff_eq.2 hd)

theorem hello : helloLaw := fun _ _ _ hpos hsized hcrc htype hloop =>
  ⟨hello_of_pattern hpos hsized hcrc htype hloop, fun _ htakes => hello_of_frame hpos ⟨hsized, hcrc, htakes⟩ htype hloop⟩

/-! ### LINKSTATE_SEND (R383, R398) -/

/-- The lambdas whose peers a LINKSTATE reaches. -/
def State.tellsPeer (s : State) (l : Nat) : Bool := !s.isLoop l && (s.lamUp l || (s.routeOf (s.peerOf l)).isSome)

/-- The LINKSTATE of a lambda's peer. -/
def State.linkstateOut (s : State) (l : Nat) : FOut :=
  ⟨0, none, s.peerOf l, 7, leBytes 32 s.linkBits, none, if s.lamUp l then some l else none, 8, false, none⟩

theorem sendLinkstate_eq (s : State) (l : Nat) :
    s.sendLinkstate l = if s.tellsPeer l then s.queueFrame (s.linkstateOut l) else s := by
  unfold State.sendLinkstate State.tellsPeer State.linkstateOut
  cases s.isLoop l <;> cases s.lamUp l <;> cases (s.routeOf (s.peerOf l)).isSome <;> rfl

/-- Frames queued change no route: what each lambda is told does not depend on the frames before it. -/
theorem foldl_sendLinkstate (s : State) (ls : List Nat) : ls.foldl State.sendLinkstate s =
    { s with fab := { s.fab with outq := s.fab.outq ++ (ls.filter s.tellsPeer).map s.linkstateOut } } := by
  induction ls using List.reverseRecOn with
  | nil => simp
  | append_singleton ls l ih =>
    have htells : ({ s with fab := { s.fab with outq := s.fab.outq ++ (ls.filter s.tellsPeer).map s.linkstateOut } } : State).tellsPeer l
        = s.tellsPeer l := rfl
    rw [List.foldl_append, ih, List.foldl_cons, List.foldl_nil, sendLinkstate_eq, htells, List.filter_append]
    cases h : s.tellsPeer l
    · simp [h]
    · simp only [h, List.filter_cons_of_pos, List.filter_nil, List.map_append, List.map_cons, List.map_nil, if_true, ← List.append_assoc]
      rfl

section
variable {s u : State} (hup : ∀ k, u.lamUp k = s.lamUp k) (hflight : u.flight = s.flight) (hreach : u.reach = s.reach)
  (hlams : u.fab.lams = s.fab.lams)
include hup hflight hreach hlams

/-- The usable lambdas, the position and what the peers have told give the route to a device (R396). -/
theorem routeOf_congr (d : Nat) : u.routeOf d = s.routeOf d := by
  have hsays : u.peerSays = s.peerSays := by
    unfold State.peerSays State.lam
    rw [hlams]
  have hme : u.me = s.me := by rw [State.me, hreach, hflight, State.me]
  unfold State.routeOf
  rw [hme, hreach, hflight, funext hup, hsays]

theorem tellsPeer_congr (l : Nat) : u.tellsPeer l = s.tellsPeer l := by
  simp only [State.tellsPeer, State.isLoop, State.peerOf, State.me, hup, hflight, hreach, routeOf_congr hup hflight hreach hlams]

omit hlams in
theorem linkstateOut_congr (l : Nat) : u.linkstateOut l = s.linkstateOut l := by
  simp only [State.linkstateOut, State.linkBits, State.peerOf, hup, hflight, hreach]

end

/-- RUN is the state of no lambda. -/
theorem run_ne_lsFld (l : Nat) : FAB_CTRL_RUN.key ≠ (lsFld l).key := by
  refine key_ne_of_bit ?_
  rw [lsFld_key_mod, show FAB_CTRL_RUN.key % 64 = 1 from rfl]
  omega

theorem foldl_sendLinkstate_run (s : State) (ls : List Nat) : ls.foldl State.sendLinkstate (s.setFld FAB_CTRL_RUN 1) =
    { s.setFld FAB_CTRL_RUN 1 with fab := { s.fab with outq := s.fab.outq ++ (ls.filter s.tellsPeer).map s.linkstateOut } } := by
  have hup (k : Nat) : (s.setFld FAB_CTRL_RUN 1).lamUp k = s.lamUp k := congrArg (· == lsUp) (s.fld_setFld_ne 1 (run_ne_lsFld k))
  have hflight : (s.setFld FAB_CTRL_RUN 1).flight = s.flight := s.fld_setFld_ne 1 (by decide)
  have hreach : (s.setFld FAB_CTRL_RUN 1).reach = s.reach := s.fld_setFld_ne 1 (by decide)
  rw [foldl_sendLinkstate, funext (tellsPeer_congr hup hflight hreach rfl), funext (linkstateOut_congr hup hflight hreach)]
  rfl

theorem linkstateSend : linkstateSendLaw := by
  intro s hclk
  refine ⟨fun hpos => ⟨_, ((unlessStopped_off hclk).trans (if_pos hpos)).trans (congrArg _ (foldl_sendLinkstate_run ..)),
    s.fld_setFld FAB_CTRL_RUN 1, fun g hg => s.fld_setFld_ne 1 hg.symm, rfl, rfl, rfl, rfl⟩, fun hpos => ?_⟩
  refine (unlessStopped_off hclk).trans ?_
  rw [hpos]
  rfl

end Sys2Proof.Machine
end

section
/-! PROOF. The states of a lambda, its replay, IDLE frames, and what a port sends (11 R383, R389, R391, R393 to R395). -/

namespace Sys2Proof.Machine

/-! ### Frames put on the fibre -/

theorem length_sent_foldl {α : Type} {f : State → α → State} (h : ∀ s x, (f s x).fab.sent.length = s.fab.sent.length + 1)
    (l : List α) (s : State) : (l.foldl f s).fab.sent.length = s.fab.sent.length + l.length := by
  induction l generalizing s with
  | nil => rfl
  | cons x l ih =>
    rw [List.foldl_cons, ih, h, List.length_cons]
    omega

theorem lam_emitCr (s : State) (l seq : Nat) (wire : List Byte) (bnc : Bool) (tc n : Nat) :
    (s.emitCr l seq wire bnc tc n).lam l = { s.lam l with ackDue := false, nakDue := false } := lam_setLam_same ..

theorem length_sent_emitCr (s : State) (l seq : Nat) (wire : List Byte) (bnc : Bool) (tc n : Nat) :
    (s.emitCr l seq wire bnc tc n).fab.sent.length = s.fab.sent.length + 1 := List.length_append

/-- What has been sent again leaves the replay buffer (R393). -/
theorem lam_foldl_emitAgain (s : State) (l : Nat) (es : List (Nat × List Byte × Bool × Nat)) :
    ((es.foldl (State.emitAgain · l) s).lam l).replay = (s.lam l).replay
      ∧ ((es.foldl (State.emitAgain · l) s).lam l).resend = (s.lam l).resend := by
  refine List.foldlRecOn (motive := fun t : State => (t.lam l).replay = (s.lam l).replay ∧ (t.lam l).resend = (s.lam l).resend) es _
    ⟨rfl, rfl⟩ fun t ht e _ => ?_
  rw [State.emitAgain, lam_emitCr]
  exact ht

theorem lam_emit (s : State) (l seq : Nat) (wire : List Byte) (bnc : Bool) :
    ((s.emit l seq wire bnc).lam l).ackDue = false ∧ ((s.emit l seq wire bnc).lam l).nakDue = false := by
  rw [State.emit, lam_emitCr]
  exact ⟨rfl, rfl⟩

theorem seal_outq (s : State) (o : FOut) : (s.seal o).2.fab.outq = s.fab.outq := by
  unfold State.seal
  split
  · rfl
  · dsimp only

@[simp] theorem setLam_outq (s : State) (l : Nat) (v : Lam) : (s.setLam l v).fab.outq = s.fab.outq := rfl

@[simp] theorem freeCredits_outq (s : State) (l tc n : Nat) : (s.freeCredits l tc n).fab.outq = s.fab.outq := rfl

@[simp] theorem emitCr_outq (s : State) (l seq : Nat) (wire : List Byte) (bnc : Bool) (tc n : Nat) :
    (s.emitCr l seq wire bnc tc n).fab.outq = s.fab.outq := rfl

@[simp] theorem emit_outq (s : State) (l seq : Nat) (wire : List Byte) (bnc : Bool) :
    (s.emit l seq wire bnc).fab.outq = s.fab.outq := by
  rw [State.emit, emitCr_outq, setLam_outq]

theorem grantFrame_outq (s : State) (o : FOut) (l : Nat) : (s.grantFrame o l).fab.outq = dropFirst (· == o) s.fab.outq := by
  have hseal := seal_outq s o
  unfold State.grantFrame
  generalize s.seal o = e at hseal ⊢
  obtain ⟨w, u⟩ := e
  dsimp only at hseal
  cases o.wire <;> cases o.free <;> simp [hseal]

/-- A new management frame granted. -/
theorem grantFrame_management (s : State) (l : Nat) {o : FOut} (hwire : o.wire = none) (hpart : o.part = none) (hfree : o.free = none) :
    ((s.grantFrame o l).lam l).ackDue = false ∧ ((s.grantFrame o l).lam l).nakDue = false
      ∧ (s.grantFrame o l).fab.sent.length = s.fab.sent.length + 1 := by
  obtain ⟨w, hseal⟩ : ∃ w, s.seal o = (w, s) := by
    unfold State.seal
    rw [hpart]
    exact ⟨_, rfl⟩
  unfold State.grantFrame
  simp only [hwire, hfree, hseal]
  generalize hu : State.emit _ _ _ _ _ = u
  have hlam : (u.lam l).ackDue = false ∧ (u.lam l).nakDue = false := hu ▸ lam_emit ..
  have hsent : u.fab.sent.length = s.fab.sent.length + 1 := hu ▸ length_sent_emitCr ..
  exact ⟨hlam.1, hlam.2, hsent⟩

theorem dropFirst_append_of_not_mem {α : Type} [BEq α] [LawfulBEq α] {a : α} {l : List α} (h : a ∉ l) :
    dropFirst (· == a) (l ++ [a]) = l := by
  induction l with
  | nil => simp [dropFirst]
  | cons x l ih =>
    obtain ⟨hx, hl⟩ := List.ne_and_not_mem_of_not_mem_cons h
    simp [dropFirst, Ne.symm hx, ih hl]

/-! ### The rounds of a port (R391) -/

theorem exec_portRound {inst : Fin 1824} {s : State} (hdie : s.dieUp = true) (hlo : 512 ≤ inst.val) (hhi : inst.val < 544) :
    exec (.arbiterRound inst []) s = .next (s.portRound (inst - 512)) := by
  refine Eq.trans (b := execArbiterRound inst [] s) rfl ?_
  rw [execArbiterRound, hdie, if_neg (by decide), if_pos ⟨hlo, hhi⟩]

section
variable {s : State} {n : Nat}

theorem portRound_of_none (h : ∀ r < 16, (s.startRound (512 + n)).frameOf n r = none) : (s.portRound n).fab = s.fab := by
  have helig : (List.range 16).filter (fun r => ((s.startRound (512 + n)).frameOf n r).isSome) = [] :=
    List.filter_eq_nil_iff.2 fun r hr => by simp [h r (List.mem_range.1 hr)]
  unfold State.portRound
  simp only [helig, pickWinner_nil]
  simp

theorem portRound_of_grant {w kind l : Nat} {o : FOut} (hpick : (s.startRound (512 + n)).pickWinner (512 + n)
      ((List.range 16).filter (fun r => ((s.startRound (512 + n)).frameOf n r).isSome)) = some (w, kind))
    (hframe : (s.startRound (512 + n)).frameOf n w = some (o, l)) :
    (s.portRound n).fab = (((s.startRound (512 + n)).noteWinner (512 + n) w kind).grantFrame o l).fab := by
  unfold State.portRound
  simp only [hpick, hframe]
  simp

end

theorem portRound : portRoundLaw := by
  intro inst s hdie hlo hhi n s1
  have hinst : inst.val = 512 + n := by omega
  have hs1 : s1 = s.startRound (512 + n) := congrArg s.startRound hinst
  have hexec := exec_portRound hdie hlo hhi
  rw [hs1, hinst]
  refine ⟨fun hnone => ⟨_, hexec, congrArg FabSt.sent (portRound_of_none hnone)⟩, fun w kind o l hpick hframe => ?grant⟩
  have hgrant := portRound_of_grant hpick hframe
  refine ⟨_, hexec, congrArg FabSt.sent hgrant, (congrArg FabSt.outq hgrant).trans ((grantFrame_outq ..).trans ?_)⟩
  simp

/-! ### LAMBDA_UP, LAMBDA_RETRAIN, LAMBDA_DOWN (R383, R394, R395) -/

section
variable {s : State} {l : Fin 256} {seq : BitVec 12}

theorem stand_of_lit {k : Nat} (h : s.lit k = true) : (s.fld PM_CTRL_STATE != 0) = false := by
  unfold State.lit at h
  simp only [Bool.and_eq_true, beq_iff_eq] at h
  simp [h.1.1]

theorem lambdaUp_of_dark (h : s.lit l = false) : exec (.lambdaUp ⟨l, seq⟩) s = .next s := by
  refine Eq.trans (b := execLambdaUp ⟨l, seq⟩ s) rfl ?_
  simp [execLambdaUp, h]

theorem lambdaUp_of_down (hloop : s.isLoop l = false) (hst : s.lstate l = lsDown) : exec (.lambdaUp ⟨l, seq⟩) s = .next s := by
  refine Eq.trans (b := execLambdaUp ⟨l, seq⟩ s) rfl ?_
  simp [execLambdaUp, hloop, hst, lsDown, lsRetrain, lsTraining]

/-- The lambda of a retraining that has ended: it sends again what the peer has not accepted (R394). -/
def retrained (x : Lam) (ack : Nat) : Lam :=
  { x with replay := unacked ack x.replay, resend := !(unacked ack x.replay).isEmpty, naks := 0, closed := false }

theorem lambdaUp_of_retrain (hlit : s.lit l = true) (hloop : s.isLoop l = false) (hst : s.lstate l = lsRetrain) :
    exec (.lambdaUp ⟨l, seq⟩) s = .next ((s.setLam l (retrained (s.lam l) seq.toNat)).setLstate l lsUp) := by
  refine Eq.trans (b := execLambdaUp ⟨l, seq⟩ s) rfl ?_
  simp only [execLambdaUp, hlit, stand_of_lit hlit, hloop, hst]
  rfl

/-- The lambda of a training that has ended (R383). -/
def trainedUp (x : Lam) (seq q : Nat) : Lam :=
  { x with
    txSeq := q, rxLast := some ((seq + 4095) % 4096), closed := false, naks := 0, used := [], freed := [0, 0, 0, 0]
    resend := false, replay := [], crs := [], querying := false, trained := true }

/-- The next free value drawn, and no LINKQUERY to the peer left in the queue. -/
def State.resolved (s : State) (l : Nat) : State :=
  { s with freeCtr := s.freeCtr + 1, fab := { s.fab with outq := s.fab.outq.filter (fun o => !(o.typ == 8 && o.dst == s.peerOf l)) } }

theorem lambdaUp_of_training (hlit : s.lit l = true) (hloop : s.isLoop l = false) (hst : s.lstate l = lsTraining)
    (hfeed : (s.lam l).feed.isSome = true) (hpos : (s.lam l).peerPos = s.peerOf l)
    (hquery : (s.lam l).querying = false ∨ (s.lam l).replay = []) :
    exec (.lambdaUp ⟨l, seq⟩) s =
      .next (((s.resolved l).setLam l (trainedUp (s.lam l) seq.toNat (Config.freeValue s.freeCtr % 4096))).setLstate l lsUp) := by
  have hresolved : (!((s.lam l).querying && !(s.lam l).replay.isEmpty)) = true := by
    rcases hquery with h | h <;> simp [h]
  refine Eq.trans (b := execLambdaUp ⟨l, seq⟩ s) rfl ?_
  unfold execLambdaUp
  dsimp only
  rw [hlit, stand_of_lit hlit, hloop, if_neg (by decide), if_neg (by decide), if_neg (by rw [hst]; decide),
    if_pos ⟨hst, hfeed, hpos, hresolved⟩]
  rfl

theorem lambdaDown_of_retrain (hst : s.lstate l = lsRetrain) : exec (.lambdaDown l) s = .next (s.goDown l) := if_pos hst

theorem lambdaRetrain_of_up (hup : s.lamUp l = true) : exec (.lambdaRetrain l) s = .next (s.retrain l) := if_pos hup

end

/-- A lambda that has left UP and is to ask its peer, before its LINKQUERY goes (R395). -/
def State.askingDown (s : State) (l : Nat) : State :=
  let u := (s.leaveUp l lsDown).file 0x0034 clsNotice 4 (lamPort l) (lamJ l)
  u.setLam l { u.lam l with querying := true, trained := false }

/-- The HELLO of a lambda that has light, and its LINKQUERY (R384, R395). -/
def State.askPeer (s : State) (l : Nat) : State :=
  let u := if s.lit l then s.emitHello l else s
  u.sendMgmt (u.peerOf l) 8 none []

theorem goDown_eq (s : State) (l : Nat) : s.goDown l = (s.askingDown l).askPeer l := rfl

theorem askPeer_kept (s : State) (l : Nat) : (s.askPeer l).regs = s.regs ∧ (s.askPeer l).fab.lams = s.fab.lams
    ∧ (s.askPeer l).fab.enA = s.fab.enA ∧ (s.askPeer l).fab.enB = s.fab.enB := by
  unfold State.askPeer
  split_ifs <;> exact ⟨rfl, rfl, rfl, rfl⟩

theorem linksKept_goDown (s : State) (l : Nat) : LinksKept (· = l) s (s.goDown l) := by
  obtain ⟨hregs, -, hA, hB⟩ := askPeer_kept (s.askingDown l) l
  have hleft := (linksKept_leaveUp s l lsDown).trans ((bounced_file _ 0x0034 clsNotice 4 (lamPort l) (lamJ l)).linksKept _)
  exact (hleft.trans (linksKept_setLam ..)).trans (linksKept_of_regs hregs hA hB)

theorem lstate_goDown (s : State) (l : Nat) : (s.goDown l).lstate l = lsDown := by
  have hfile := lstate_file (s.leaveUp l lsDown) 0x0034 clsNotice 4 (lamPort l) (lamJ l) l
  rw [lstate_leaveUp s l lsDown (by decide)] at hfile
  rw [goDown_eq, State.lstate, State.fld, (askPeer_kept ..).1]
  exact hfile

/-- A lambda that goes DOWN asks its peer, and keeps its replay buffer (R395). -/
theorem lam_goDown (s : State) (l : Nat) : ((s.goDown l).lam l).querying = true ∧ ((s.goDown l).lam l).replay = (s.lam l).replay := by
  obtain ⟨fr, hlam⟩ := lam_leaveUp s l lsDown l
  have hdown : (s.goDown l).lam l = { s.lam l with freed := fr, querying := true, trained := false } := by
    rw [goDown_eq, State.lam, (askPeer_kept ..).2.1, ← State.lam, State.askingDown, lam_setLam_same, State.lam, file_fab, ← State.lam, hlam]
  rw [hdown]
  exact ⟨rfl, rfl⟩

/-! ### RETRANSMIT (R391, R393) -/

/-- A lambda that sends its replay buffer again, the retransmission counted. -/
def State.resending (s : State) (l : Nat) : State :=
  (s.setLam l { s.lam l with resend := false }).count (OP_LINK_REPLAYS (lamPort l)) 1

theorem lam_resending (s : State) (l : Nat) : (s.resending l).lam l = { s.lam l with resend := false } :=
  (lam_count ..).trans (lam_setLam_same ..)

theorem sent_resending (s : State) (l : Nat) : (s.resending l).fab.sent = s.fab.sent := by
  rw [State.resending, count_fab]
  rfl

theorem retransmit_of_resend {s : State} {l : Fin 256} (hup : s.lamUp l = true) (hresend : (s.lam l).resend = true) :
    Gives (exec (.retransmit l) s) (fun u => (u.lam l).replay = (s.lam l).replay ∧ (u.lam l).resend = false
      ∧ u.fab.sent.length = s.fab.sent.length + (s.lam l).replay.length) := by
  obtain ⟨hreplay, hdone⟩ := lam_foldl_emitAgain (s.resending l) l (s.lam l).replay
  have hlen := length_sent_foldl (f := (State.emitAgain · l)) (fun _ _ => length_sent_emitCr ..) (s.lam l).replay (s.resending l)
  rw [lam_resending] at hreplay hdone
  rw [sent_resending] at hlen
  exact ⟨_, if_pos (Bool.and_eq_true_iff.2 ⟨hup, hresend⟩), hreplay, hdone, hlen⟩

/-! ### FRAME_CRC_ERROR (R393) -/

/-- The corrected and uncorrectable codewords of a frame counted. -/
def State.countFec (s : State) (l : Nat) (ce ue : BitVec 8) : State :=
  (s.count (OP_FEC_CE (lamPort l)) ce.toNat).count (OP_FEC_UE (lamPort l)) ue.toNat

theorem frameCrcError_of_up {s : State} {at_ : Fin 256} {b : List Byte} {ce ue : BitVec 8} {l : Nat} (hat : s.lamAt at_ = l)
    (hup : s.lamUp l = true) : exec (.frameCrcError at_ ⟨b, ce, ue⟩) s =
      .next (if ue = 0 ∧ crcOk b = true then s.countFec l ce ue else (s.countFec l ce ue).badFrame l) := by
  refine Eq.trans (b := execFrameCrcError at_ ⟨b, ce, ue⟩ s) rfl ?_
  unfold execFrameCrcError
  dsimp only
  rw [hat, if_pos hup]
  simp only [Bool.and_eq_true, decide_eq_true_eq]
  exact (apply_ite ..).symm

theorem lam_badFrame_countFec (s : State) (l : Nat) (ce ue : BitVec 8) :
    ((s.countFec l ce ue).badFrame l).lam l = { s.lam l with nakDue := true, ackDue := true } := by
  rw [State.badFrame, lam_setLam_same, State.countFec, lam_count, lam_count]

/-! ### CREDIT_IDLE_SEND (R389, R391) -/

theorem creditIdleSend_of_due {s : State} {l : Fin 256} (hup : s.lamUp l = true) (hloop : s.isLoop l = false)
    (hdue : ((s.lam l).ackDue || (s.lam l).nakDue || (s.lam l).freed.any (· != 0)) = true) (hnew : s.idleOut l ∉ s.fab.outq) :
    exec (.creditIdleSend l) s = .next (s.queueFrame (s.idleOut l)) := by
  refine if_pos ?_
  rw [hup, hloop, hdue, List.contains_eq_mem, decide_eq_false hnew]
  rfl

/-- An IDLE frame that the port grants carries what is owed, and leaves the queue as it was. -/
theorem grantFrame_idle {s : State} {l : Nat} (hnew : s.idleOut l ∉ s.fab.outq) :
    let u := (s.queueFrame (s.idleOut l)).grantFrame (s.idleOut l) l
    (u.lam l).ackDue = false ∧ (u.lam l).nakDue = false ∧ u.fab.sent.length = s.fab.sent.length + 1 ∧ u.fab.outq = s.fab.outq := by
  obtain ⟨hack, hnak, hsent⟩ := grantFrame_management (s.queueFrame (s.idleOut l)) l (o := s.idleOut l) rfl rfl rfl
  exact ⟨hack, hnak, hsent, (grantFrame_outq ..).trans (dropFirst_append_of_not_mem hnew)⟩

theorem lambdaStates : lambdaStatesLaw := by
  intro l s
  refine ⟨fun seq hloop hlit => ⟨fun hst => ⟨_, lambdaUp_of_retrain hlit hloop hst, ?retrain⟩, fun hst hfeed hpos hquery =>
      ⟨_, lambdaUp_of_training hlit hloop hst hfeed hpos hquery, ?training⟩, lambdaUp_of_down hloop⟩,
    fun seq => lambdaUp_of_dark, lambdaRetrain_of_up,
    fun hst => ⟨_, lambdaDown_of_retrain hst, rfl, (lam_goDown s l).1, lstate_goDown s l, (lam_goDown s l).2⟩,
    retransmit_of_resend, fun at_ b ce ue hat hup => ?crc, fun hup hloop hdue hnew =>
      ⟨creditIdleSend_of_due hup hloop hdue hnew, grantFrame_idle hnew⟩⟩
  case retrain =>
    have hlam : ((s.setLam l (retrained (s.lam l) seq.toNat)).setLstate l lsUp).lam l = retrained (s.lam l) seq.toNat :=
      lam_setLam_same ..
    refine ⟨lstate_setLstate_same _ _ _ (by decide), ?_⟩
    rw [hlam]
    exact ⟨rfl, rfl, rfl, rfl⟩
  case training =>
    have hlam (x : Lam) : (((s.resolved l).setLam l x).setLstate l lsUp).lam l = x := lam_setLam_same ..
    refine ⟨lstate_setLstate_same _ _ _ (by decide), ?_⟩
    rw [hlam]
    exact ⟨rfl, rfl, rfl, rfl, rfl⟩
  case crc =>
    have hexec := frameCrcError_of_up (b := b) (ce := ce) (ue := ue) hat hup
    have hbad := lam_badFrame_countFec s l ce ue
    refine ⟨fun h => ⟨hexec.trans (congrArg _ (if_neg ?_)), ?_⟩, fun hue hcrc => hexec.trans (congrArg _ (if_pos ⟨hue, hcrc⟩))⟩
    · rintro ⟨hue, hcrc⟩
      exact h.elim (absurd hue) (by simp [hcrc])
    · exact ⟨(congrArg Lam.nakDue hbad :), (congrArg Lam.rxLast hbad :), (congrArg Lam.freed hbad :)⟩

end Sys2Proof.Machine
end

section
/-! PROOF. Frames for other devices: FRAME_FORWARD and BOUNCE_RESEND (11 R396, R397). -/

namespace Sys2Proof.Machine

/-- A frame taken moves the lambda that it came on alone, which the 16th NAK makes retrain (R394). -/
theorem linksKept_linkIn (s : State) (l : Nat) (b : List Byte) : LinksKept (· = l) s (s.linkIn l b) := by
  unfold State.linkIn
  extract_lets x rest naks u
  split
  · exact (linksKept_setLam ..).trans (linksKept_retrain ..)
  · exact linksKept_setLam ..

/-- The lambda on which a frame for another device goes on: none after a hop, or where no lambda of this one leads to it. -/
def State.nextLam (s : State) (b : List Byte) : Option Nat :=
  if hHop b then none
  else if hDst b % 128 = s.flight then some (128 + hDst b / 128)
  else if hDst b / 128 = s.reach then some (hDst b % 128)
  else none

theorem nextLam_linkIn (s : State) (l : Nat) (b : List Byte) : (s.linkIn l b).nextLam b = s.nextLam b := by
  have hkept := linksKept_linkIn s l b
  rw [State.nextLam, hkept.flight, hkept.reach, State.nextLam]

theorem nextLam_of_route {s : State} {b : List Byte} {o : Nat} (hhop : hHop b = false)
    (h : (hDst b % 128 = s.flight ∧ o = 128 + hDst b / 128)
      ∨ (hDst b % 128 ≠ s.flight ∧ hDst b / 128 = s.reach ∧ o = hDst b % 128)) : s.nextLam b = some o := by
  rw [State.nextLam, hhop]
  obtain ⟨hflight, rfl⟩ | ⟨hflight, hreach, rfl⟩ := h
  · simp [hflight]
  · simp [hflight, hreach]

theorem nextLam_eq_none {s : State} {b : List Byte} (h : hHop b = true ∨ (hDst b % 128 ≠ s.flight ∧ hDst b / 128 ≠ s.reach)) :
    s.nextLam b = none := by
  rw [State.nextLam]
  obtain hhop | ⟨hflight, hreach⟩ := h
  · simp [hhop]
  · simp [hflight, hreach]

/-- A frame on its way, before its wire and its lambda are fixed. -/
def transitOut (l : Nat) (b : List Byte) : FOut :=
  ⟨1, none, hDst b, hType b, [], none, none, 9, false, some (l, hTc b, creditsOf (hLen b))⟩

/-- A frame of the device's own that has come back, with its bytes. -/
def resentOut (s : State) (b : List Byte) : FOut :=
  let p := if hPtag b = 0 then none else (List.range 8).find? (fun p => s.fld (FAB_PART_PTAG p) == hPtag b)
  ⟨[0, 2, 8, 9].getD (hTc b) 0, p, hDst b, hType b, [], some (b.take 8 ++ hPay b), none, p.getD 8, false, none⟩

/-- A frame on its way that is lost: counted, its credits freed. -/
def State.loseTransit (s : State) (l : Nat) (b : List Byte) : State :=
  (s.count FAB_DROP_ROUTE 1).freeCredits l (hTc b) (creditsOf (hLen b))

/-- What becomes of a frame for another device, once its link fields are noted. -/
def State.routeTransit (s : State) (l : Nat) (b : List Byte) : Out :=
  match s.nextLam b with
  | none => .next (s.loseTransit l b)
  | some o =>
    if hType b = 0 then .next (s.loseTransit l b)
    else if s.lamUp o && !s.isLoop o then
      .next (s.queueFrame { transitOut l b with wire := some (setHop (b.take 8 ++ hPay b) true), lam := some o, bnc := hBnc b })
    else .next (s.bounceOne { transitOut l b with wire := some (b.take 8 ++ hPay b), lam := some o })

theorem routeTransit_of_none {s : State} {l : Nat} {b : List Byte} (h : s.nextLam b = none) : s.routeTransit l b = .next (s.loseTransit l b) := by
  rw [State.routeTransit, h]

theorem routeTransit_of_some {s : State} {l : Nat} {b : List Byte} {o : Nat} (h : s.nextLam b = some o) (htype : hType b ≠ 0) :
    s.routeTransit l b = if s.lamUp o && !s.isLoop o then
        .next (s.queueFrame { transitOut l b with wire := some (setHop (b.take 8 ++ hPay b) true), lam := some o, bnc := hBnc b })
      else .next (s.bounceOne { transitOut l b with wire := some (b.take 8 ++ hPay b), lam := some o }) := by
  rw [State.routeTransit, h]
  exact if_neg htype

section
variable {s : State} {at_ : Fin 256} {b : List Byte} (h : Taken s (s.lamAt at_) b) (hme : hDst b ≠ s.me)
include h hme

theorem frameForward_of_taken (hback : hBnc b = false ∨ hSrc b ≠ s.me) :
    exec (.frameForward at_ b) s = (s.linkIn (s.lamAt at_) b).routeTransit (s.lamAt at_) b := by
  obtain ⟨hsized, hcrc, htakes⟩ := h
  have hpast : (hBnc b && hSrc b == s.me) = false := by
    obtain h | h := hback <;> simp [h]
  refine Eq.trans (b := execFrameForward at_ b s) rfl ?_
  unfold execFrameForward
  simp only [hsized, hcrc, htakes, hpast, beq_false_of_ne hme, Bool.not_true, Bool.and_false, Bool.or_self, Bool.false_eq_true, if_false]
  rfl

theorem bounceResend_queues (hbnc : hBnc b = true) (hsrc : hSrc b = s.me) : exec (.bounceResend at_ b) s =
    .next (((s.linkIn (s.lamAt at_) b).freeCredits (s.lamAt at_) (hTc b) (creditsOf (hLen b))).queueFrame
      (resentOut (s.linkIn (s.lamAt at_) b) b)) := by
  obtain ⟨hsized, hcrc, htakes⟩ := h
  refine Eq.trans (b := execBounceResend at_ b s) rfl ?_
  unfold execBounceResend
  simp only [hsized, hcrc, htakes, hbnc, hsrc, beq_false_of_ne hme, bne_self_eq_false, Bool.not_true, Bool.and_false, Bool.or_self,
    Bool.false_eq_true, if_false]
  rfl

end

end Sys2Proof.Machine
end

section
open Sys2Proof Sys2Proof.Machine

/-- Settles O38: a frame that goes on by the lambda that is next for it, the rounds of the ports and the states of the lambdas
by their own laws. -/
theorem forwarding : Obligations.Forwarding := by
  refine ⟨portRound, lambdaStates, fun at_ b s htaken hme => ⟨fun o hback hhop htype hroute => ?on, fun hback hnext => ?lost,
    fun hbnc hsrc => ⟨_, bounceResend_queues htaken hme hbnc hsrc, _, rfl, rfl, rfl, rfl⟩⟩⟩
  case on =>
    have hnext := (nextLam_linkIn s (s.lamAt at_) b).trans (nextLam_of_route hhop hroute)
    have hexec := (frameForward_of_taken htaken hme hback).trans (routeTransit_of_some hnext htype)
    exact ⟨fun hup hloop => hexec.trans (if_pos (by simp [hup, hloop])), fun hdown => hexec.trans (if_neg (by simp [hdown]))⟩
  case lost =>
    have hnone := (nextLam_linkIn s (s.lamAt at_) b).trans (nextLam_eq_none hnext)
    exact (frameForward_of_taken htaken hme hback).trans (routeTransit_of_none hnone)

end

section
/-! PROOF. Light: the inputs of the engines, dark engines, shuttered ports and ports that open (11 R405 to R408). -/

namespace Sys2Proof.Machine

/-! ### The registers of a port's light -/

theorem Fld.at_key_mod (a lo len rst : Nat) : (Fld.at a lo len rst).key % 64 = lo % 64 := by
  rw [Fld.at_key]
  omega

@[simp] theorem laserA_reg (n : Nat) : (OP_LASER_A_OK n).reg = 0x4000018 + n * 0x40000 := by simp [OP_LASER_A_OK]
@[simp] theorem laserB_reg (n : Nat) : (OP_LASER_B_OK n).reg = 0x4000018 + n * 0x40000 := by simp [OP_LASER_B_OK]
@[simp] theorem laserSrc_reg (n : Nat) : (OP_LASER_SRC n).reg = 0x4000018 + n * 0x40000 := by simp [OP_LASER_SRC]
@[simp] theorem laserShut_reg (n : Nat) : (OP_LASER_SHUT n).reg = 0x4000018 + n * 0x40000 := by simp [OP_LASER_SHUT]
@[simp] theorem laserA_bit (n : Nat) : (OP_LASER_A_OK n).key % 64 = 1 := Fld.at_key_mod ..
@[simp] theorem laserB_bit (n : Nat) : (OP_LASER_B_OK n).key % 64 = 2 := Fld.at_key_mod ..
@[simp] theorem laserSrc_bit (n : Nat) : (OP_LASER_SRC n).key % 64 = 0 := Fld.at_key_mod ..
@[simp] theorem laserShut_bit (n : Nat) : (OP_LASER_SHUT n).key % 64 = 4 := Fld.at_key_mod ..

theorem b2n_mod (c : Bool) : b2n c % 2 ^ 1 = b2n c := by cases c <;> rfl

/-- The four ports of an engine. -/
def enginePorts (e : Nat) : List Nat := [2 * e, 2 * e + 1, 16 + 2 * e, 16 + 2 * e + 1]

theorem mem_enginePorts (e : Nat) : 2 * e ∈ enginePorts e := List.mem_cons_self ..

section
variable (s : State) (e : Nat) (a b : Bool)

theorem fld_setLaser_ne {g : Fld} (h : ∀ n, g.key ≠ (OP_LASER_A_OK n).key ∧ g.key ≠ (OP_LASER_B_OK n).key) :
    (s.setLaser e a b).fld g = s.fld g :=
  List.foldlRecOn (motive := fun t : State => t.fld g = s.fld g) _ _ rfl fun t ht n _ =>
    ((t.setFld _ _).fld_setFld_ne _ (h n).2.symm).trans ((t.fld_setFld_ne _ (h n).1.symm).trans ht)

theorem fld_setSrc_ne (v : Nat) {g : Fld} (h : ∀ n, g.key ≠ (OP_LASER_SRC n).key) : (s.setSrc e v).fld g = s.fld g :=
  List.foldlRecOn (motive := fun t : State => t.fld g = s.fld g) _ _ rfl fun t ht n _ => (t.fld_setFld_ne _ (h n).symm).trans ht

theorem laserA_setLaser {n : Nat} (hn : n ∈ enginePorts e) : (s.setLaser e a b).fld (OP_LASER_A_OK n) = b2n a := by
  refine foldl_sets (P := fun t => t.fld (OP_LASER_A_OK n) = b2n a) hn (fun t => ?_) (fun t m hm ht => ?_)
  · rw [State.fld_setFld_ne _ _ (key_ne_of_bit (by simp)), State.fld_setFld]
    exact b2n_mod a
  · rw [State.fld_setFld_ne _ _ (key_ne_of_bit (by simp)), State.fld_setFld_ne _ _ (key_ne_of_reg (by simpa using hm)), ht]

theorem laserB_setLaser {n : Nat} (hn : n ∈ enginePorts e) : (s.setLaser e a b).fld (OP_LASER_B_OK n) = b2n b := by
  refine foldl_sets (P := fun t => t.fld (OP_LASER_B_OK n) = b2n b) hn (fun t => ?_) (fun t m hm ht => ?_)
  · rw [State.fld_setFld]
    exact b2n_mod b
  · rw [State.fld_setFld_ne _ _ (key_ne_of_reg (by simpa using hm)), State.fld_setFld_ne _ _ (key_ne_of_bit (by simp)), ht]

theorem laserSrc_setSrc (v : Nat) {n : Nat} (hn : n ∈ enginePorts e) : (s.setSrc e v).fld (OP_LASER_SRC n) = v % 2 := by
  refine foldl_sets (P := fun t => t.fld (OP_LASER_SRC n) = v % 2) hn (fun t => t.fld_setFld _ v) (fun t m hm ht => ?_)
  rw [State.fld_setFld_ne _ _ (key_ne_of_reg (by simpa using hm)), ht]

end

/-! ### The inputs of an engine (R405, R406) -/

theorem linksKept_beginTraining (s : State) (l : Nat) : LinksKept (· = l) s (s.beginTraining l) := by
  unfold State.beginTraining
  dsimp only
  split_ifs
  · exact (linksKept_emitHello ..).trans (linksKept_setLstate ..)
  · exact linksKept_emitHello ..

theorem linksKept_relight (s : State) (l : Nat) : LinksKept (· = l) s (s.relight l) := by
  unfold State.relight
  dsimp only
  split_ifs
  · exact linksKept_setLam ..
  · exact linksKept_beginTraining ..
  · exact .refl ..

/-- The inputs of an engine as they are now, and the one in use (R405). -/
theorem laserNow_inputs (s : State) (e : Fin 8) (a b : Bool) (src : Nat) :
    (s.laserNow e a b src).fld (OP_LASER_A_OK (2 * e)) = b2n a ∧ (s.laserNow e a b src).fld (OP_LASER_B_OK (2 * e)) = b2n b
      ∧ (s.laserNow e a b src).fld (OP_LASER_SRC (2 * e)) = src % 2 := by
  have hport := mem_enginePorts e
  have hkept (go : Bool) : LinksKept (· ∈ lamsOfEngine e) ((s.setLaser e a b).setSrc e src)
      (if go && ((s.setLaser e a b).setSrc e src).supplied e then ((s.setLaser e a b).setSrc e src).replayEngine e
        else (s.setLaser e a b).setSrc e src) := by
    split_ifs
    · exact linksKept_foldl linksKept_relight _
    · exact .refl ..
  have hset {g : Fld} (hg : g.reg = 0x4000018 + 2 * e.val * 0x40000) :
      (s.laserNow e a b src).fld g = ((s.setLaser e a b).setSrc e src).fld g := (hkept _).setUp (setUp_of_laser hg (by omega))
  rw [hset (laserA_reg _), hset (laserB_reg _), hset (laserSrc_reg _), laserSrc_setSrc _ _ _ hport,
    fld_setSrc_ne _ _ _ fun n => key_ne_of_bit (by simp), fld_setSrc_ne _ _ _ fun n => key_ne_of_bit (by simp),
    laserA_setLaser _ _ _ _ hport, laserB_setLaser _ _ _ _ hport]
  exact ⟨rfl, rfl, rfl⟩

section
variable {s : State} {e : Fin 8}

theorem useA_complete (hclk : Clocked s) (hstand : s.standing = false) :
    exec (.useA e true) s = .next (s.asked.laserNow e true (s.asked.on (OP_LASER_B_OK (2 * e))) 0) := by
  have hstand' : s.asked.standing = false := hstand
  have hclk' : Clocked s.asked := hclk
  refine Eq.trans (b := execUseA e true s) rfl ?_
  rw [execUseA]
  simp only [hstand', unlessStopped_off hclk', Bool.false_eq_true, if_false, if_true]

theorem laserSwitch_complete (hclk : Clocked s) : exec (.laserSwitch e true) s = .next (s.laserNow e false true 1) :=
  unlessStopped_off hclk

theorem laserSupply_a (hclk : Clocked s) (b : BitVec 8) :
    exec (.laserSupply e 0 b) s = .next (s.laserNow e true (b == 0) (s.fld (OP_LASER_SRC (2 * e)))) :=
  unlessStopped_off hclk

theorem laserSupply_none (hclk : Clocked s) {a b : BitVec 8} (ha : a ≠ 0) (hb : b ≠ 0) :
    exec (.laserSupply e a b) s = .next (s.darkEngine e a.toNat b.toNat) :=
  (unlessStopped_off hclk).trans (if_neg fun h => h.elim ha hb)

end

/-! ### A dark engine (R406) -/

theorem linksKept_darkLam (s : State) (l : Nat) : LinksKept (· = l) s (s.darkLam l) := by
  unfold State.darkLam
  split_ifs
  · exact linksKept_goDown ..
  · exact linksKept_setLstate ..

theorem lstate_darkLam (s : State) (l : Nat) : (s.darkLam l).lstate l = lsDown := by
  unfold State.darkLam
  split_ifs
  · exact lstate_goDown ..
  · exact lstate_setLstate_same _ _ _ (by decide)

/-- The state in which a step of a fold leaves each lambda of its list. -/
theorem lstate_foldl {f : State → Nat → State} {v : Nat} (hkept : ∀ s l, LinksKept (· = l) s (f s l))
    (hset : ∀ s l, (f s l).lstate l = v) {ls : List Nat} {l : Nat} (hl : l ∈ ls) (s : State) : (ls.foldl f s).lstate l = v :=
  foldl_sets (P := fun t => t.lstate l = v) hl (hset · l) fun t _ hm ht => ((hkept t _).lstate hm.symm).trans ht

/-- An engine whose inputs are off and reported, before its lambdas go DOWN. -/
def State.unsupplied (s : State) (e missA missB : Nat) : State :=
  ((s.setLaser e false false).file 0x0033 clsNotice 9 (2 * e) missA).file 0x0033 clsNotice 9 (2 * e + 1) missB

theorem darkEngine_eq (s : State) (e missA missB : Nat) :
    s.darkEngine e missA missB = (lamsOfEngine e).foldl State.darkLam (s.unsupplied e missA missB) := rfl

theorem fld_unsupplied (s : State) (e missA missB : Nat) {g : Fld} (h : Steady g) :
    (s.unsupplied e missA missB).fld g = (s.setLaser e false false).fld g :=
  (fld_file _ _ _ _ _ _ h).trans (fld_file _ _ _ _ _ _ h)

theorem linksKept_darkEngine (s : State) (e missA missB : Nat) :
    LinksKept (· ∈ lamsOfEngine e) (s.unsupplied e missA missB) (s.darkEngine e missA missB) :=
  darkEngine_eq s e missA missB ▸ linksKept_foldl linksKept_darkLam _

section
variable (s : State) (e missA missB : Nat)

theorem lstate_darkEngine {l : Nat} (hl : l ∈ lamsOfEngine e) : (s.darkEngine e missA missB).lstate l = lsDown :=
  lstate_foldl linksKept_darkLam lstate_darkLam hl _

theorem lstate_darkEngine_other {l : Nat} (hl : l ∉ lamsOfEngine e) : (s.darkEngine e missA missB).lstate l = s.lstate l := by
  rw [(linksKept_darkEngine ..).lstate hl, lstate_eq, fld_unsupplied _ _ _ _ (steady_lsFld l), fld_setLaser_ne]
  · rfl
  · intro n
    constructor <;> exact key_ne_of_reg (by rw [lsFld_reg]; simp; omega)

theorem fld_darkEngine {g : Fld} (hg : SetUp g) : (s.darkEngine e missA missB).fld g = (s.setLaser e false false).fld g :=
  ((linksKept_darkEngine ..).setUp hg).trans (fld_unsupplied _ _ _ _ hg.steady)

theorem darkEngine_inputs (he : e < 8) : (s.darkEngine e missA missB).fld (OP_LASER_A_OK (2 * e)) = 0
    ∧ (s.darkEngine e missA missB).fld (OP_LASER_B_OK (2 * e)) = 0 := by
  have hport := mem_enginePorts e
  rw [fld_darkEngine _ _ _ _ (setUp_of_laser (laserA_reg _) (by omega)),
    fld_darkEngine _ _ _ _ (setUp_of_laser (laserB_reg _) (by omega)), laserA_setLaser _ _ _ _ hport, laserB_setLaser _ _ _ _ hport]
  exact ⟨rfl, rfl⟩

end

end Sys2Proof.Machine
end

section
/-! PROOF. Ports that are shuttered, probed and opened, and the enables of the lasers (11 R407, R408). -/

namespace Sys2Proof.Machine

/-! ### The lambdas of a port -/

theorem mem_lamsOfPort {n l : Nat} (h : l ∈ lamsOfPort n) : lamPort l = n := by
  obtain ⟨i, hi, rfl⟩ := List.mem_map.1 h
  have hlow : i < 8 := List.mem_range.1 hi
  unfold lamPort
  omega

theorem lt_of_mem_lamsOfPort {n l : Nat} (h : l ∈ lamsOfPort n) (hn : n < 32) : l < 256 := by
  have hport := mem_lamsOfPort h
  unfold lamPort at hport
  omega

theorem setUp_shut {n : Nat} (hn : n < 32) : SetUp (OP_LASER_SHUT n) := setUp_of_laser (laserShut_reg n) hn

/-! ### A port shuttered (R407) -/

theorem linksKept_shutLams (s : State) (n : Nat) :
    LinksKept (· ∈ lamsOfPort n) (s.setFld (OP_LASER_SHUT n) 1) (s.shutPort n) :=
  linksKept_foldl (fun t l => linksKept_leaveUp t l lsShuttered) _

theorem shutPort_shut (s : State) {n : Nat} (hn : n < 32) : (s.shutPort n).on (OP_LASER_SHUT n) = true := by
  rw [(linksKept_shutLams s n).onSetUp (setUp_shut hn), State.on, State.fld_setFld]
  rfl

theorem shutPort_shut_other (s : State) {n k : Nat} (hk : k < 32) (h : k ≠ n) :
    (s.shutPort n).on (OP_LASER_SHUT k) = s.on (OP_LASER_SHUT k) := by
  rw [(linksKept_shutLams s n).onSetUp (setUp_shut hk), State.on, fld_setFld_reg_ne _ _ (by simpa using h), State.on]

theorem lstate_shutPort (s : State) {n l : Nat} (hl : l ∈ lamsOfPort n) : (s.shutPort n).lstate l = lsShuttered :=
  lstate_foldl (fun t l => linksKept_leaveUp t l lsShuttered) (fun t l => lstate_leaveUp t l _ (by decide)) hl _

theorem portShutter_of_open {n : Fin 32} {s : State} (h : s.on (OP_LASER_SHUT n) = false) :
    exec (.portShutter n) s = .next (s.shutPort n) :=
  if_neg (ne_true_of_eq_false h)

theorem shutterProbe_of_shut {n : Fin 32} {s : State} (hclk : Clocked s) (h : s.on (OP_LASER_SHUT n) = true) :
    exec (.shutterProbe n) s =
      .next { s with fab := { s.fab with probes := Tab.put s.fab.probes 0 n (Tab.get s.fab.probes 0 n + 1) } } :=
  (unlessStopped_off hclk).trans (if_pos (by rw [h, Bool.true_or]))

/-! ### A port that opens (R384, R394, R407) -/

/-- The state of a lambda of a port that opens with light: no loopback. -/
def openState (s : State) (l : Nat) : Nat :=
  if (s.lam l).trained then lsRetrain
  else if (s.lam l).feed.isNone then lsAbsent
  else if (s.lam l).peerPos = s.peerOf l then lsTraining
  else lsMiswired

theorem openLam_dark {s : State} {l : Nat} (h : s.lit l = false) : s.openLam l = s.darkLam l := by
  unfold State.openLam
  rw [h]
  rfl

/-- Light returned leaves every lambda but its state. -/
theorem lams_openLam {s : State} {l : Nat} (h : s.lit l = true) : (s.openLam l).fab.lams = s.fab.lams := by
  unfold State.openLam
  rw [h, if_neg (by decide)]
  dsimp only
  split_ifs
  · rfl
  · exact congrArg FabSt.lams (count_fab ..)
  all_goals rfl

theorem linksKept_openLam (s : State) (l : Nat) : LinksKept (· = l) s (s.openLam l) := by
  unfold State.openLam
  dsimp only
  split_ifs
  · exact linksKept_darkLam ..
  · exact linksKept_setLstate ..
  · exact (linksKept_setLstate ..).trans (linksKept_countRetrains ..)
  all_goals exact (linksKept_emitHello ..).trans (linksKept_setLstate ..)

theorem lstate_openLam {s : State} {l : Nat} (hlit : s.lit l = true) (hloop : s.isLoop l = false) :
    (s.openLam l).lstate l = openState s l := by
  have hlam : (s.emitHello l).lam l = s.lam l := rfl
  have hpeer : (s.emitHello l).peerOf l = s.peerOf l := rfl
  unfold State.openLam openState
  rw [hlit, hloop, Bool.and_false, if_neg (by decide), if_neg (by decide)]
  dsimp only
  rw [hlam, hpeer]
  split_ifs
  · exact ((linksKept_countRetrains (fun _ => False) ..).lstate not_false).trans (lstate_setLstate_same _ _ _ (by decide))
  all_goals exact lstate_setLstate_same _ _ _ (by decide)

/-- The light that a port would have if it were open. -/
def portLight (s : State) (n : Nat) : Bool := (s.fab.enA && s.on (OP_LASER_A_OK n)) || (s.fab.enB && s.on (OP_LASER_B_OK n))

theorem lit_opened {s : State} {n l : Nat} (hl : l ∈ lamsOfPort n) (hpm : s.fld PM_CTRL_STATE = 0) :
    (s.setFld (OP_LASER_SHUT n) 0).lit l = portLight s n := by
  have hshut : (s.setFld (OP_LASER_SHUT n) 0).on (OP_LASER_SHUT n) = false := by
    rw [State.on, State.fld_setFld]
    rfl
  have hA : (s.setFld (OP_LASER_SHUT n) 0).on (OP_LASER_A_OK n) = s.on (OP_LASER_A_OK n) := by
    rw [State.on, State.fld_setFld_ne _ _ (key_ne_of_bit (by simp)), State.on]
  have hB : (s.setFld (OP_LASER_SHUT n) 0).on (OP_LASER_B_OK n) = s.on (OP_LASER_B_OK n) := by
    rw [State.on, State.fld_setFld_ne _ _ (key_ne_of_bit (by simp)), State.on]
  have hpm' : (s.setFld (OP_LASER_SHUT n) 0).fld PM_CTRL_STATE = 0 := by
    rw [fld_setFld_reg_ne _ _ (by rw [laserShut_reg, show PM_CTRL_STATE.reg = 0x1000018 from rfl]; omega), hpm]
  unfold State.lit portLight
  rw [mem_lamsOfPort hl]
  dsimp only
  rw [hshut, hA, hB, hpm']
  rfl

theorem position_setShut (s : State) (n v : Nat) :
    (s.setFld (OP_LASER_SHUT n) v).flight = s.flight ∧ (s.setFld (OP_LASER_SHUT n) v).reach = s.reach := by
  constructor <;> refine fld_setFld_reg_ne _ _ ?_
  · rw [laserShut_reg, show FAB_POS_FLIGHT.reg = 0x4800008 from rfl]
    omega
  · rw [laserShut_reg, show FAB_POS_REACH.reg = 0x4800008 from rfl]
    omega

/-- The lambdas of a port that opens depend on the position, and on what is known of their peers. -/
theorem openState_congr {s u : State} (hflight : u.flight = s.flight) (hreach : u.reach = s.reach)
    (hlams : u.fab.lams = s.fab.lams) (l : Nat) : openState u l = openState s l ∧ u.isLoop l = s.isLoop l := by
  have hlam : u.lam l = s.lam l := congrArg (fun t => Tab.get t Lam.idle l) hlams
  have hpeer : u.peerOf l = s.peerOf l := by rw [State.peerOf, hreach, hflight, State.peerOf]
  have hme : u.me = s.me := by rw [State.me, hreach, hflight, State.me]
  unfold openState State.isLoop
  rw [hlam, hpeer, hme]
  exact ⟨rfl, rfl⟩

theorem portOpen_opens {n : Fin 32} {s : State} (hshut : s.on (OP_LASER_SHUT n) = true) (hdrained : s.on HUB_RISK_DRAINED = false)
    (hdie : s.dieUp = true) :
    exec (.portOpen n) s = .next ((lamsOfPort n).foldl State.openLam (s.setFld (OP_LASER_SHUT n) 0)) :=
  if_pos (by rw [hshut, hdrained, hdie]; rfl)

section
variable (s : State) {n l : Nat} (hn : n < 32) (hl : l ∈ lamsOfPort n) (hpm : s.fld PM_CTRL_STATE = 0)
include hn hl hpm

theorem lstate_portOpen_dark (hlight : portLight s n = false) :
    ((lamsOfPort n).foldl State.openLam (s.setFld (OP_LASER_SHUT n) 0)).lstate l = lsDown := by
  refine foldl_settles (R := LinksKept (fun _ => True) (s.setFld (OP_LASER_SHUT n) 0)) (P := fun t => t.lstate l = lsDown) hl
    (.refl ..) (fun t k _ ht => ht.trans ((linksKept_openLam t k).mono fun _ _ => trivial)) (fun t ht => ?_)
    fun t k hk ht => ((linksKept_openLam t k).lstate hk.symm).trans ht
  have hdark : t.lit l = false := by
    rw [ht.lit (lt_of_mem_lamsOfPort hl hn), lit_opened hl hpm, hlight]
  rw [openLam_dark hdark]
  exact lstate_darkLam ..

theorem lstate_portOpen_lit (hlight : portLight s n = true) (hloop : s.isLoop l = false) :
    ((lamsOfPort n).foldl State.openLam (s.setFld (OP_LASER_SHUT n) 0)).lstate l = openState s l := by
  refine foldl_settles (P := fun t => t.lstate l = openState s l) hl
    (R := fun t => LinksKept (fun _ => True) (s.setFld (OP_LASER_SHUT n) 0) t ∧ t.fab.lams = s.fab.lams)
    ⟨.refl .., rfl⟩ (fun t k hk ⟨ht, hlams⟩ => ?kept) (fun t ⟨ht, hlams⟩ => ?set)
    fun t k hk ht => ((linksKept_openLam t k).lstate hk.symm).trans ht
  case kept =>
    have hlit : t.lit k = true := by
      rw [ht.lit (lt_of_mem_lamsOfPort hk hn), lit_opened hk hpm, hlight]
    exact ⟨ht.trans ((linksKept_openLam t k).mono fun _ _ => trivial), (lams_openLam hlit).trans hlams⟩
  case set =>
    have hlit : t.lit l = true := by
      rw [ht.lit (lt_of_mem_lamsOfPort hl hn), lit_opened hl hpm, hlight]
    obtain ⟨hflight, hreach⟩ := position_setShut s n 0
    obtain ⟨hopen, hself⟩ := openState_congr (ht.flight.trans hflight) (ht.reach.trans hreach) hlams l
    rw [lstate_openLam hlit (hself.trans hloop), hopen]

end

theorem portOpen_shutter (s : State) {n : Nat} (hn : n < 32) :
    ((lamsOfPort n).foldl State.openLam (s.setFld (OP_LASER_SHUT n) 0)).fld (OP_LASER_SHUT n) = 0 :=
  ((linksKept_foldl linksKept_openLam _).setUp (setUp_shut hn)).trans (s.fld_setFld _ 0)

/-! ### The enables of the lasers (R408) -/

theorem dropBoth_effect (s : State) : Gives (exec (.laserEnableDrop .both) s) (fun u => u.fab.enA = false ∧ u.fab.enB = false
    ∧ ∀ n : Fin 32, u.on (OP_LASER_SHUT n) = true) := by
  refine ⟨_, rfl, ?_, ?_, fun n => ?_⟩
  · exact List.foldlRecOn (motive := fun t : State => t.fab.enA = false) _ _ rfl fun t ht n _ => (linksKept_shutLams t n).enA.trans ht
  · exact List.foldlRecOn (motive := fun t : State => t.fab.enB = false) _ _ rfl fun t ht n _ => (linksKept_shutLams t n).enB.trans ht
  · exact foldl_sets (P := fun t => t.on (OP_LASER_SHUT n) = true) (List.mem_range.2 n.isLt) (shutPort_shut · n.isLt)
      fun t k hk ht => (shutPort_shut_other t n.isLt hk.symm).trans ht

/-! ### The law of light (R405 to R408) -/

theorem light : lightLaw := by
  refine ⟨fun e s => ⟨fun hclk hstand => ⟨_, useA_complete hclk hstand, ?useA⟩, fun hclk => ⟨_, laserSwitch_complete hclk, ?switch⟩,
      fun hclk a b ha hb => ⟨laserSupply_none hclk ha hb, ?dark⟩,
      fun hclk b => ⟨_, laserSupply_a hclk b, ?supply⟩⟩,
    fun n s => ⟨fun hopen => ⟨_, portShutter_of_open hopen, rfl, shutPort_shut s n.isLt, fun l hl => lstate_shutPort s hl⟩,
      fun hclk hshut => ⟨_, shutterProbe_of_shut hclk hshut, ?probe, rfl⟩,
      fun hshut hdrained hdie => ⟨_, portOpen_opens hshut hdrained hdie, portOpen_shutter s n.isLt, fun l hl => ?opened⟩⟩,
    fun s => ⟨rfl, rfl, dropBoth_effect s⟩⟩
  case useA =>
    obtain ⟨hA, -, hsrc⟩ := laserNow_inputs s.asked e true (s.asked.on (OP_LASER_B_OK (2 * e))) 0
    exact ⟨hsrc, hA⟩
  case switch =>
    obtain ⟨hA, hB, hsrc⟩ := laserNow_inputs s e false true 1
    exact ⟨hsrc, hA, hB⟩
  case dark =>
    obtain ⟨hA, hB⟩ := darkEngine_inputs s e a.toNat b.toNat e.isLt
    refine ⟨by rw [State.on, hA]; rfl, by rw [State.on, hB]; rfl, fun l hl => ?_, fun l _ hl => lstate_darkEngine_other s e _ _ hl⟩
    have hdown := lstate_darkEngine s e a.toNat b.toNat hl
    exact ⟨hdown, by rw [State.lamUp, hdown]; rfl⟩
  case supply =>
    obtain ⟨hA, -, hsrc⟩ := laserNow_inputs s e true (b == 0) (s.fld (OP_LASER_SRC (2 * e)))
    exact ⟨by rw [State.on, hA]; rfl, hsrc⟩
  case probe => simp
  case opened =>
    have hpm : s.fld PM_CTRL_STATE = 0 := by
      simp only [State.dieUp, Bool.and_eq_true, beq_iff_eq] at hdie
      exact hdie.1.2
    refine ⟨lstate_portOpen_dark s n.isLt hl hpm, fun hlight hloop => ?_⟩
    rw [lstate_portOpen_lit s n.isLt hl hpm hlight hloop, openState]
    refine ⟨fun htrained => if_pos htrained, fun htrained hfeed => ?_, fun htrained hfeed hpos => ?_⟩
    · simp [htrained, hfeed]
    · simp [htrained, hfeed, hpos]

end Sys2Proof.Machine
end

section
open Sys2Proof Sys2Proof.Machine

/-- Settles O39, by the laws of the lambdas' states, of LINKSTATE_SEND and of light. -/
theorem lambdasAndLight : Obligations.LambdasAndLight := ⟨lambdaStates, linkstateSend, light⟩

end

section
/-! PROOF. FABRIC_BRING_UP (11 R381 to R383, R405, R406). -/

namespace Sys2Proof.Machine

/-! ### The parts of the bring-up -/

/-- A lambda forgotten: that of an open port is ABSENT. -/
def State.forgetLam (s : State) (l : Nat) : State :=
  (if s.lstate l = lsShuttered then s else s.leaveUp l lsAbsent).setLam l .idle

/-- No position. -/
def State.unplaced (s : State) : State := ((s.setFld FAB_POS_VALID 0).setFld FAB_POS_FLIGHT 0).setFld FAB_POS_REACH 0

theorem forgetPosition_eq (s : State) : s.forgetPosition = (List.range 256).foldl State.forgetLam s.unplaced := rfl

/-- Both laser modules enabled. -/
def State.enable (s : State) : State := { s with fab := { s.fab with enA := true, enB := true } }

/-- What an earlier bring-up found forgotten, both laser modules enabled. -/
def State.restarted (s : State) : State := s.asked.forgetPosition.enable

/-- The wavelengths that an input of an engine does not supply: input 0 is A, 1 is B. -/
def missing (lasers : BitVec 128) (e b : Nat) : Nat := 255 - bits lasers.toNat (16 * e + 8 * b) 8

def State.readInput (lasers : BitVec 128) (s : State) (e : Nat) : State :=
  (s.setLaser e (missing lasers e 0 == 0) (missing lasers e 1 == 0)).setSrc e (if missing lasers e 0 = 0 then 0 else 1)

/-- The inputs of every engine read. -/
def State.readInputs (s : State) (lasers : BitVec 128) : State := (List.range 8).foldl (State.readInput lasers) s

/-- The engines that no input supplies whole. -/
def darkEngines (lasers : BitVec 128) : List Nat :=
  (List.range 8).filter (fun e => missing lasers e 0 != 0 && missing lasers e 1 != 0)

def State.prioritise (s : State) (n : Nat) : State :=
  portPrios.zipIdx.foldl (fun s e => s.setFld (ARB_PRIO_PRIO (512 + n) e.2) e.1) s

/-- A HELLO on every lambda. -/
def State.helloAll (s : State) : State := (List.range 256).foldl State.emitHello s

/-- Every engine has light: the priorities of the ports set, a HELLO on every lambda. -/
def State.announced (s : State) : State := ((List.range 32).foldl State.prioritise s).helloAll

/-- A position taken: the loopbacks, and a HELLO that names it. -/
def State.placed (s : State) (f r : Nat) : State :=
  let u := ((s.setFld FAB_POS_FLIGHT f).setFld FAB_POS_REACH r).setFld FAB_POS_VALID 1
  ((u.setLstate f lsLoop).setLstate (128 + r) lsLoop).helloAll

/-- The light of a plane that gives no index, reported. -/
def State.reportPlane (s : State) (plane : Nat) (l : List Nat) : State :=
  if l.length = 1 then s else s.file 0x0030 clsNotice 4 32 (plane + (if l.isEmpty then 1 else 2) * 16)

/-- The position that the device's own light gives, or none (R381). -/
def State.locate (s : State) (light : BitVec 256) : Out :=
  match indexFrom light 0, indexFrom light 1 with
  | [f], [r] => .next (s.placed f r)
  | a, b => .next ((s.reportPlane 0 a).reportPlane 1 b)

theorem locate_placed {s : State} {light : BitVec 256} {f r : Nat} (hf : indexFrom light 0 = [f]) (hr : indexFrom light 1 = [r]) :
    s.locate light = .next (s.placed f r) := by
  rw [State.locate, hf, hr]

theorem locate_unplaced {s : State} {light : BitVec 256} (h : (indexFrom light 0).length ≠ 1 ∨ (indexFrom light 1).length ≠ 1) :
    s.locate light = .next ((s.reportPlane 0 (indexFrom light 0)).reportPlane 1 (indexFrom light 1)) := by
  unfold State.locate
  split
  · rename_i f r hf hr
    rw [hf, hr] at h
    exact absurd h (by simp)
  · rfl

/-- START before RUN, on a device whose hub is up and whose firmware is ready (R383). -/
def Startable (s : State) : Prop :=
  s.hubUp = true ∧ s.standing = false ∧ s.on HUB_FW_STATUS_READY = true ∧ s.on FAB_CTRL_RUN = false

section
variable {s : State} {light : BitVec 256} {lasers : BitVec 128} (h : Startable s)
include h

theorem Startable.goes {o : Out} : (if s.asked.standing then .next (s.asked.holdReq (.bringUp light lasers))
    else if !s.asked.hubUp || !s.asked.on HUB_FW_STATUS_READY || s.asked.on FAB_CTRL_RUN then .next s.asked else o) = o := by
  obtain ⟨hup, hstand, hready, hrun⟩ := h
  rw [show s.asked.standing = false from hstand, show s.asked.hubUp = true from hup,
    show s.asked.on HUB_FW_STATUS_READY = true from hready, show s.asked.on FAB_CTRL_RUN = false from hrun]
  rfl

theorem bringUp_dark (hdark : darkEngines lasers ≠ []) : exec (.fabricBringUp light lasers) s =
    .next ((darkEngines lasers).foldl (fun t e => t.darkEngine e (missing lasers e 0) (missing lasers e 1))
      (s.restarted.readInputs lasers)) :=
  h.goes.trans (if_pos (show (!(darkEngines lasers).isEmpty) = true by simpa [List.isEmpty_iff] using hdark))

theorem bringUp_lit (hlit : darkEngines lasers = []) : exec (.fabricBringUp light lasers) s =
    (s.restarted.readInputs lasers).announced.locate light := by
  have hlight : ¬ (!(darkEngines lasers).isEmpty) = true := by simp [hlit]
  exact h.goes.trans ((if_neg hlight).trans rfl)

end

/-! ### What the bring-up forgets -/

theorem linksKept_forgetLam (s : State) (l : Nat) : LinksKept (· = l) s (s.forgetLam l) := by
  unfold State.forgetLam
  split_ifs
  · exact linksKept_setLam ..
  · exact (linksKept_leaveUp ..).trans (linksKept_setLam ..)

theorem sent_forgetLam (s : State) (l : Nat) : (s.forgetLam l).fab.sent = s.fab.sent := by
  unfold State.forgetLam
  split_ifs
  · rfl
  · exact sent_leaveUp ..

theorem m_forgetLam (s : State) (l : Nat) : (s.forgetLam l).m = s.m := by
  unfold State.forgetLam
  split_ifs <;> simp

theorem outq_forgetLam {s : State} (h : s.fab.outq = []) (l : Nat) : (s.forgetLam l).fab.outq = [] := by
  unfold State.forgetLam
  split_ifs
  · exact h
  · exact (congrArg (fun t : State => t.fab.outq) (bounceHeld_of_empty (s := s.setLstate l lsAbsent) h l)).trans h

theorem lstate_forgetLam {s : State} {l : Nat} (h : s.lstate l ≠ lsShuttered) : (s.forgetLam l).lstate l = lsAbsent := by
  unfold State.forgetLam
  rw [if_neg h]
  exact lstate_leaveUp _ _ _ (by decide)

/-- What every lambda forgotten keeps, and the enables do not touch, holds at the restart. -/
theorem restarted_keeps {P : State → Prop} {s : State} (h : P s.asked.unplaced) (hstep : ∀ t l, P t → P (t.forgetLam l))
    (henable : ∀ t, P t → P t.enable) : P s.restarted := by
  refine henable _ ?_
  rw [forgetPosition_eq]
  exact List.foldlRecOn _ _ h fun t ht l _ => hstep t l ht

theorem restarted_posValid (s : State) : s.restarted.fld FAB_POS_VALID = 0 := by
  refine restarted_keeps (P := fun t => t.fld FAB_POS_VALID = 0) ?_
    (fun t l ht => ((linksKept_forgetLam t l).setUp setUp_posValid).trans ht) fun _ => id
  rw [State.unplaced, State.fld_setFld_ne _ _ (by decide), State.fld_setFld_ne _ _ (by decide), State.fld_setFld]
  rfl

theorem restarted_sent (s : State) : s.restarted.fab.sent = s.fab.sent :=
  restarted_keeps (P := fun t => t.fab.sent = s.fab.sent) rfl (fun t l ht => (sent_forgetLam t l).trans ht) fun _ => id

theorem restarted_outq {s : State} (h : s.fab.outq = []) : s.restarted.fab.outq = [] :=
  restarted_keeps (P := fun t => t.fab.outq = []) h (fun _ l ht => outq_forgetLam ht l) fun _ => id

theorem restarted_m (s : State) : s.restarted.m = s.m :=
  restarted_keeps (P := fun t => t.m = s.m) rfl (fun t l ht => (m_forgetLam t l).trans ht) fun _ => id

theorem lstate_unplaced (s : State) (l : Nat) : s.unplaced.lstate l = s.lstate l := by
  have hpos {g : Fld} (t : State) (hg : g.reg = 0x4800008) : (t.setFld g 0).lstate l = t.lstate l :=
    fld_setFld_reg_ne t _ (by
      rw [← lsFld, lsFld_reg, hg]
      omega)
  rw [State.unplaced, hpos _ rfl, hpos _ rfl, hpos _ rfl]

theorem restarted_lstate {s : State} {l : Nat} (hl : l < 256) (hst : s.lstate l ≠ lsShuttered) : s.restarted.lstate l = lsAbsent := by
  have hstart : s.asked.unplaced.lstate l ≠ lsShuttered := by
    rw [lstate_unplaced]
    exact hst
  have hmem : l ∈ List.range 256 := List.mem_range.2 hl
  have henable (t : State) : t.enable.lstate l = t.lstate l := rfl
  rw [State.restarted, henable, forgetPosition_eq]
  refine foldl_settles (R := fun t => t.lstate l ≠ lsShuttered) (P := fun t => t.lstate l = lsAbsent) hmem hstart (fun t k _ ht => ?_)
    (fun t ht => lstate_forgetLam ht) (fun t k hk ht => ((linksKept_forgetLam t k).lstate hk.symm).trans ht)
  by_cases hk : l = k
  · rw [← hk, lstate_forgetLam ht]
    decide
  · rwa [(linksKept_forgetLam t k).lstate hk]

/-! ### What reading the inputs and setting the priorities leave -/

/-- A field outside the light of the ports and the arbiters. -/
structure OffLight (g : Fld) : Prop where
  arb : g.reg < 0x6000000
  light : ∀ n, g.reg ≠ 0x4000018 + n * 0x40000

/-- Registers outside the light of the ports and the arbiters, the fabric's traffic and the memories are as they were. -/
structure Wired (s u : State) : Prop where
  fld : ∀ g, OffLight g → u.fld g = s.fld g
  fab : u.fab = s.fab
  m : u.m = s.m

theorem Wired.refl (s : State) : Wired s s := ⟨fun _ _ => rfl, rfl, rfl⟩

theorem Wired.trans {s u v : State} (h : Wired s u) (g : Wired u v) : Wired s v :=
  ⟨fun f hf => (g.fld f hf).trans (h.fld f hf), g.fab.trans h.fab, g.m.trans h.m⟩

theorem wired_foldl {α : Type} {f : State → α → State} (h : ∀ s x, Wired s (f s x)) (l : List α) (s : State) :
    Wired s (l.foldl f s) :=
  List.foldlRecOn (motive := fun t => Wired s t) l f (.refl s) fun t ht x _ => ht.trans (h t x)

theorem wired_setArb (s : State) {f : Fld} (v : Nat) (h : 0x6000000 ≤ f.reg) : Wired s (s.setFld f v) :=
  ⟨fun _ hg => fld_setFld_reg_ne s v (Nat.lt_of_lt_of_le hg.arb h).ne, rfl, rfl⟩

theorem wired_setLight (s : State) {f : Fld} (v n : Nat) (h : f.reg = 0x4000018 + n * 0x40000) : Wired s (s.setFld f v) :=
  ⟨fun _ hg => fld_setFld_reg_ne s v (h ▸ hg.light n), rfl, rfl⟩

theorem wired_readInputs (s : State) (lasers : BitVec 128) : Wired s (s.readInputs lasers) := by
  have hlaser (t : State) (e : Nat) (a b : Bool) : Wired t (t.setLaser e a b) :=
    wired_foldl (fun t n => (wired_setLight t _ n (laserA_reg n)).trans (wired_setLight _ _ n (laserB_reg n))) _ t
  have hsrc (t : State) (e v : Nat) : Wired t (t.setSrc e v) := wired_foldl (fun t n => wired_setLight t _ n (laserSrc_reg n)) _ t
  exact wired_foldl (fun t e => (hlaser t e _ _).trans (hsrc ..)) _ s

theorem wired_prioritise (s : State) (n : Nat) : Wired s (s.prioritise n) :=
  wired_foldl (fun t e => wired_setArb t _ (by simp only [ARB_PRIO_PRIO, Fld.at_reg]; omega)) _ s

/-! ### HELLO on every lambda -/

theorem helloAll_kept (s : State) : s.helloAll.regs = s.regs ∧ s.helloAll.fab.outq = s.fab.outq ∧ s.helloAll.m = s.m
    ∧ s.helloAll.fab.enA = s.fab.enA ∧ s.helloAll.fab.enB = s.fab.enB :=
  List.foldlRecOn (motive := fun t : State => t.regs = s.regs ∧ t.fab.outq = s.fab.outq ∧ t.m = s.m ∧ t.fab.enA = s.fab.enA
    ∧ t.fab.enB = s.fab.enB) _ _ ⟨rfl, rfl, rfl, rfl, rfl⟩ fun _ ht _ _ => ht

theorem fld_helloAll (s : State) (g : Fld) : s.helloAll.fld g = s.fld g := by
  rw [State.fld, (helloAll_kept s).1, State.fld]

theorem helloAll_sent (s : State) : s.helloAll.fab.sent.length = s.fab.sent.length + 256 :=
  (length_sent_foldl (fun _ _ => List.length_append) _ s).trans (by rw [List.length_range])

/-- Every engine has light: registers, frames and memories as at the restart, but for 256 HELLOs. -/
theorem announced_kept (s : State) (lasers : BitVec 128) :
    (∀ g, OffLight g → (s.readInputs lasers).announced.fld g = s.fld g)
    ∧ (s.readInputs lasers).announced.fab.sent.length = s.fab.sent.length + 256
    ∧ (s.readInputs lasers).announced.fab.outq = s.fab.outq ∧ (s.readInputs lasers).announced.m = s.m
    ∧ (s.readInputs lasers).announced.fab.enA = s.fab.enA ∧ (s.readInputs lasers).announced.fab.enB = s.fab.enB := by
  have hwired := (wired_readInputs s lasers).trans (wired_foldl wired_prioritise (List.range 32) _)
  generalize hu : (List.range 32).foldl State.prioritise (s.readInputs lasers) = u at hwired
  obtain ⟨-, houtq, hm, hA, hB⟩ := helloAll_kept u
  rw [State.announced, hu]
  refine ⟨fun g hg => (fld_helloAll u g).trans (hwired.fld g hg), ?_, houtq.trans ?_, hm.trans hwired.m, hA.trans ?_, hB.trans ?_⟩
  · rw [helloAll_sent, hwired.fab]
  all_goals rw [hwired.fab]

/-! ### The three ends of a bring-up -/

theorem indexFrom_lt {light : BitVec 256} {plane i : Nat} (h : i ∈ indexFrom light plane) : i < 128 := by
  simp only [indexFrom, List.mem_flatMap, List.mem_map, List.mem_filter, List.mem_range] at h
  obtain ⟨k, ⟨hk, -⟩, f, ⟨hf, -⟩, rfl⟩ := h
  omega

theorem offLight_posValid : OffLight FAB_POS_VALID := by
  have hreg : FAB_POS_VALID.reg = 0x4800008 := rfl
  exact ⟨by omega, fun n => by omega⟩

theorem offLight_lsFld {l : Nat} (hl : l < 256) : OffLight (lsFld l) := by
  have hreg := lsFld_reg l
  exact ⟨by omega, fun n => by omega⟩

/-- The position taken. -/
theorem placed_effect (s : State) {f r : Nat} (hf : f < 128) (hr : r < 128) :
    (s.placed f r).fld FAB_POS_FLIGHT = f % 128 ∧ (s.placed f r).fld FAB_POS_REACH = r % 128 ∧ (s.placed f r).fld FAB_POS_VALID = 1
      ∧ (s.placed f r).lstate f = lsLoop ∧ (s.placed f r).lstate (128 + r) = lsLoop := by
  generalize hu : ((s.setFld FAB_POS_FLIGHT f).setFld FAB_POS_REACH r).setFld FAB_POS_VALID 1 = u
  have hplaced : s.placed f r = ((u.setLstate f lsLoop).setLstate (128 + r) lsLoop).helloAll := by rw [← hu, State.placed]
  have hkept {g : Fld} (hg : SetUp g) : (s.placed f r).fld g = u.fld g := by
    rw [hplaced, fld_helloAll]
    exact ((linksKept_setLstate ..).setUp hg).trans ((linksKept_setLstate ..).setUp hg)
  have hstate (l : Nat) : (s.placed f r).lstate l = ((u.setLstate f lsLoop).setLstate (128 + r) lsLoop).lstate l := by
    rw [hplaced]
    exact fld_helloAll ..
  rw [hkept setUp_flight, hkept setUp_reach, hkept setUp_posValid, hstate, hstate, ← hu]
  refine ⟨?flight, ?reach, State.fld_setFld .., ?own, lstate_setLstate_same _ _ _ (by decide)⟩
  case flight => rw [State.fld_setFld_ne _ _ (by decide), State.fld_setFld_ne _ _ (by decide), State.fld_setFld]; rfl
  case reach => rw [State.fld_setFld_ne _ _ (by decide), State.fld_setFld]; rfl
  case own =>
    rw [(linksKept_setLstate _ (128 + r) _).lstate (by omega)]
    exact lstate_setLstate_same _ _ _ (by decide)

theorem bounced_reportPlane (s : State) (plane : Nat) (l : List Nat) : Bounced s (s.reportPlane plane l) := by
  unfold State.reportPlane
  split
  · exact .refl s
  · exact bounced_file ..

theorem placed_kept (s : State) (f r : Nat) : (s.placed f r).fab.sent.length = s.fab.sent.length + 256
    ∧ (s.placed f r).fab.outq = s.fab.outq ∧ (s.placed f r).m = s.m ∧ (s.placed f r).fab.enA = s.fab.enA
    ∧ (s.placed f r).fab.enB = s.fab.enB := by
  obtain ⟨-, houtq, hm, hA, hB⟩ := helloAll_kept
    (((((s.setFld FAB_POS_FLIGHT f).setFld FAB_POS_REACH r).setFld FAB_POS_VALID 1).setLstate f lsLoop).setLstate (128 + r) lsLoop)
  exact ⟨helloAll_sent _, houtq, hm, hA, hB⟩

theorem bringUp_takes_position {s : State} (h : Startable s) {light : BitVec 256} {f r : Nat} (hf : indexFrom light 0 = [f])
    (hr : indexFrom light 1 = [r]) : Gives (exec (.fabricBringUp light (BitVec.allOnes 128)) s) (fun u =>
      u.fld FAB_POS_FLIGHT = f % 128 ∧ u.fld FAB_POS_REACH = r % 128 ∧ u.fld FAB_POS_VALID = 1
      ∧ u.lstate f = lsLoop ∧ u.lstate (128 + r) = lsLoop ∧ u.fab.enA = true ∧ u.fab.enB = true
      ∧ u.fab.sent.length = s.fab.sent.length + 512 ∧ (s.fab.outq = [] → u.fab.outq = []) ∧ u.m = s.m) := by
  have hlight : darkEngines (BitVec.allOnes 128) = [] := by decide
  have hlt {i plane : Nat} (hi : indexFrom light plane = [i]) : i < 128 := indexFrom_lt (hi ▸ List.mem_singleton_self i)
  refine ⟨_, (bringUp_lit h hlight).trans (locate_placed hf hr), ?_⟩
  obtain ⟨-, hsent, houtq, hm, hA, hB⟩ := announced_kept s.restarted (BitVec.allOnes 128)
  generalize (s.restarted.readInputs (BitVec.allOnes 128)).announced = t at *
  obtain ⟨hflight, hreach, hvalid, hown, hloop⟩ := placed_effect t (hlt hf) (hlt hr)
  obtain ⟨psent, poutq, pm, pA, pB⟩ := placed_kept t f r
  refine ⟨hflight, hreach, hvalid, hown, hloop, pA.trans hA, pB.trans hB, ?_, fun hq => ?_, pm.trans (hm.trans (restarted_m s))⟩
  · rw [psent, hsent, restarted_sent]
  · rw [poutq, houtq, restarted_outq hq]

theorem bringUp_finds_none {s : State} (h : Startable s) {light : BitVec 256}
    (hlen : (indexFrom light 0).length ≠ 1 ∨ (indexFrom light 1).length ≠ 1) :
    Gives (exec (.fabricBringUp light (BitVec.allOnes 128)) s) (fun u => u.on FAB_POS_VALID = false
      ∧ u.fab.sent.length = s.fab.sent.length + 256 ∧ ∀ l < 256, s.lstate l ≠ lsShuttered → u.lstate l = lsAbsent) := by
  have hlight : darkEngines (BitVec.allOnes 128) = [] := by decide
  refine ⟨_, (bringUp_lit h hlight).trans (locate_unplaced hlen), ?_⟩
  obtain ⟨hfld, hsent, -⟩ := announced_kept s.restarted (BitVec.allOnes 128)
  generalize (s.restarted.readInputs (BitVec.allOnes 128)).announced = t at *
  have hreported := (bounced_reportPlane t 0 (indexFrom light 0)).trans (bounced_reportPlane _ 1 (indexFrom light 1))
  refine ⟨?_, ?_, fun l hl hst => ?_⟩
  · rw [State.on, hreported.fld _ setUp_posValid.steady, hfld _ offLight_posValid, restarted_posValid]
    rfl
  · rw [hreported.sent, hsent, restarted_sent]
  · rw [lstate_eq, hreported.fld _ (steady_lsFld l), hfld _ (offLight_lsFld hl)]
    exact restarted_lstate hl hst

/-! ### An engine without light (R406) -/

theorem laser_off_setLaser {s : State} (e : Nat) {n : Nat} (h : s.fld (OP_LASER_A_OK n) = 0 ∧ s.fld (OP_LASER_B_OK n) = 0) :
    (s.setLaser e false false).fld (OP_LASER_A_OK n) = 0 ∧ (s.setLaser e false false).fld (OP_LASER_B_OK n) = 0 := by
  refine List.foldlRecOn (motive := fun t : State => t.fld (OP_LASER_A_OK n) = 0 ∧ t.fld (OP_LASER_B_OK n) = 0) _ _ h
    fun t ⟨hA, hB⟩ m _ => ?_
  rw [State.fld_setFld_ne _ _ (f := OP_LASER_B_OK m) (g := OP_LASER_A_OK n) (key_ne_of_bit (by simp))]
  by_cases hm : m = n
  · subst hm
    exact ⟨State.fld_setFld .., State.fld_setFld ..⟩
  · rw [fld_setFld_reg_ne _ _ (by simpa using Ne.symm hm), fld_setFld_reg_ne _ _ (by simpa using Ne.symm hm),
      fld_setFld_reg_ne _ _ (by simpa using Ne.symm hm)]
    exact ⟨hA, hB⟩

theorem laser_off_darkEngine {s : State} {n : Nat} (e missA missB : Nat) (hn : n < 32)
    (h : s.fld (OP_LASER_A_OK n) = 0 ∧ s.fld (OP_LASER_B_OK n) = 0) :
    (s.darkEngine e missA missB).fld (OP_LASER_A_OK n) = 0 ∧ (s.darkEngine e missA missB).fld (OP_LASER_B_OK n) = 0 := by
  rw [fld_darkEngine _ _ _ _ (setUp_of_laser (laserA_reg n) hn), fld_darkEngine _ _ _ _ (setUp_of_laser (laserB_reg n) hn)]
  exact laser_off_setLaser e h

theorem posValid_darkEngine (s : State) (e missA missB : Nat) :
    (s.darkEngine e missA missB).fld FAB_POS_VALID = s.fld FAB_POS_VALID := by
  rw [fld_darkEngine _ _ _ _ setUp_posValid, fld_setLaser_ne]
  refine fun n => ⟨key_ne_of_reg ?_, key_ne_of_reg ?_⟩
  · simpa using offLight_posValid.light n
  · simpa using offLight_posValid.light n

theorem mem_lamsOfEngine {e l : Nat} : l ∈ lamsOfEngine e ↔ l < 256 ∧ portEngine (lamPort l) = e := by
  simp [lamsOfEngine]

theorem bringUp_leaves_dark {s : State} (h : Startable s) (light : BitVec 256) {lasers : BitVec 128} {e : Fin 8}
    (hA : bits lasers.toNat (16 * e) 8 ≠ 255) (hB : bits lasers.toNat (16 * e + 8) 8 ≠ 255) :
    Gives (exec (.fabricBringUp light lasers) s) (fun u => u.on FAB_POS_VALID = false
      ∧ u.on (OP_LASER_A_OK (2 * e)) = false ∧ u.on (OP_LASER_B_OK (2 * e)) = false
      ∧ ∀ l ∈ lamsOfEngine e, u.lamUp l = false) := by
  have hmem : e.val ∈ darkEngines lasers := by
    have hlow (k : Nat) : bits lasers.toNat k 8 < 256 := Nat.mod_lt _ (by decide)
    have hlowA := hlow (16 * e)
    have hlowB := hlow (16 * e + 8)
    simp only [darkEngines, missing, List.mem_filter, List.mem_range, Bool.and_eq_true, bne_iff_ne, Nat.mul_zero, Nat.mul_one, Nat.add_zero]
    exact ⟨e.isLt, by omega, by omega⟩
  refine ⟨_, bringUp_dark h (List.ne_nil_of_mem hmem), ?valid, ?light⟩
  case valid =>
    have hstart : (s.restarted.readInputs lasers).fld FAB_POS_VALID = 0 :=
      ((wired_readInputs ..).fld _ offLight_posValid).trans (restarted_posValid s)
    rw [State.on, List.foldlRecOn (motive := fun t : State => t.fld FAB_POS_VALID = 0) _ _ hstart fun t ht k _ =>
      (posValid_darkEngine ..).trans ht]
    rfl
  case light =>
    have hports : (2 * e.val) < 32 := by omega
    have hoff := foldl_sets hmem (P := fun t => t.fld (OP_LASER_A_OK (2 * e)) = 0 ∧ t.fld (OP_LASER_B_OK (2 * e)) = 0)
      (fun t => darkEngine_inputs t e (missing lasers e 0) (missing lasers e 1) e.isLt)
      (fun t k _ ht => laser_off_darkEngine k (missing lasers k 0) (missing lasers k 1) hports ht) (s := s.restarted.readInputs lasers)
    refine ⟨by rw [State.on, hoff.1]; rfl, by rw [State.on, hoff.2]; rfl, fun l hl => ?_⟩
    have hdown := foldl_sets (P := fun t => t.lstate l = lsDown) hmem
      (fun t => lstate_darkEngine t e (missing lasers e 0) (missing lasers e 1) hl)
      (fun t k hk ht => (lstate_darkEngine_other t k (missing lasers k 0) (missing lasers k 1) fun hmem =>
        hk ((mem_lamsOfEngine.1 hmem).2.symm.trans (mem_lamsOfEngine.1 hl).2)).trans ht) (s := s.restarted.readInputs lasers)
    rw [State.lamUp, hdown]
    rfl

end Sys2Proof.Machine
end

section
open Sys2Proof Sys2Proof.Machine

/-- Settles O37: each of the three ends of a bring-up by the lambdas, the registers and the frames that it leaves. -/
theorem bringUp : Obligations.BringUp :=
  ⟨helloNoted, hello, linkstateSend, light, fun _ _ hup hstand hready hrun =>
    ⟨fun _ _ => bringUp_takes_position ⟨hup, hstand, hready, hrun⟩, bringUp_finds_none ⟨hup, hstand, hready, hrun⟩,
      fun _ _ => bringUp_leaves_dark ⟨hup, hstand, hready, hrun⟩ _⟩⟩

end

section
/-! PROOF. Doorbells of a port engine group (12 R411 to R413, R422, R435). -/

namespace Sys2Proof.Machine

/-! ### The ring slot of a doorbell (R412) -/

section
variable {s : State} {tok : Word} {ch p form : Nat} {bad : State → Nat → Nat → Nat → State}
  {g : State → Nat → Nat → List Byte → State}

/-- What makes a ring slot unfit for a form: a reserved bit of VALUE, a slot that is not BUSY or has another form. -/
def slotMisfit (s : State) (tok : Word) (p form : Nat) : Prop :=
  bits tok.toNat 8 16 ≠ 0 ∨ bits (wordAt (ringBytes s tok p) 0x3C) 0 1 = 0 ∨ bits (wordAt (ringBytes s tok p) 0x3C) 1 2 ≠ form

theorem slotFits_iff : slotFits s tok p form ↔ ¬ slotMisfit s tok p form := by
  have hbusy := bits_lt_two_pow (wordAt (ringBytes s tok p) 0x3C) 0 1
  unfold slotFits slotMisfit
  omega

/-- The group does not hold the doorbell back: its partition is not in HOLD, and the token is the first on its way. -/
theorem DoorbellTaken.guard (h : DoorbellTaken s tok ch p) : tokKind tok = 1 ∧ 48 ≤ tokDstNode tok ∧ tokDstNode tok < 56
    ∧ tokDstSub tok = 0 ∧ tokChannel tok = ch ∧ s.tokFirst tok ∧ !(s.secPart (tokDstNode tok - 48)).any s.holding := by
  obtain ⟨-, hhold, hkind, hlo, hhi, hsub, hch, hfirst, hpart⟩ := h
  have hown : s.secPart (tokDstNode tok - 48) = some p := hpart
  exact ⟨hkind, hlo, hhi, hsub, hch, hfirst, by simp [hown, hhold]⟩

theorem doorbell_of_fits (h : DoorbellTaken s tok ch p) (hfits : slotFits s tok p form) :
    doorbell ch form tok bad g s = .next (g (slotFreed s tok p) p (tokDstNode tok - 48) (ringBytes s tok p)) := by
  have hguard := h.guard
  obtain ⟨hclk, -, -, -, -, -, -, -, hpart⟩ := h
  unfold doorbell
  rw [unlessStopped_off hclk, if_pos hguard]
  simp only [hpart]
  exact if_neg (slotFits_iff.1 hfits)

theorem doorbell_of_misfit (h : DoorbellTaken s tok ch p) (hmis : ¬ slotFits s tok p form) :
    doorbell ch form tok bad g s = .next (bad (slotFreed s tok p) p (tokDstNode tok - 48) (bits tok.toNat 0 8)) := by
  have hguard := h.guard
  obtain ⟨hclk, -, -, -, -, -, -, -, hpart⟩ := h
  unfold doorbell
  rw [unlessStopped_off hclk, if_pos hguard]
  simp only [hpart]
  exact if_pos (not_not.1 (mt slotFits_iff.2 hmis))

/-- A doorbell of a section that no partition holds (assumption 159). -/
theorem doorbell_of_unheld (hclk : Clocked s) (hkind : tokKind tok = 1) (hlo : 48 ≤ tokDstNode tok) (hhi : tokDstNode tok < 56)
    (hsub : tokDstSub tok = 0) (hfirst : s.tokFirst tok = true) (hnone : s.secPart (tokDstNode tok - 48) = none)
    (hch : tokChannel tok = ch) : doorbell ch form tok bad g s =
      .next ((s.takeTok tok).file 0x0002 clsNotice 2 (tokDstNode tok) tok.toNat) := by
  have hnone' : (s.takeTok tok).secPart (tokDstNode tok - 48) = none := hnone
  unfold doorbell
  rw [unlessStopped_off hclk, if_pos ⟨hkind, hlo, hhi, hsub, hch, hfirst, by rw [hnone]; rfl⟩]
  simp only [hnone']
  rfl

end

/-! ### CONTRIBUTION_DOORBELL (R411 to R413) -/

theorem openWindow_of_open {s : State} {p : Nat} (h : (s.job p).window.isSome = true) : s.openWindow p = s := if_pos h

theorem contribute_of_posted {s : State} {p : Nat} {d : List Byte} (hopen : (s.job p).window.isSome = true)
    (hposted : (s.job p).posted.contains (bits (wordAt d 4) 0 14, bits (wordAt d 4) 14 10) = true) : s.contribute p d = s := by
  unfold State.contribute
  simp only [openWindow_of_open hopen, hposted, if_true]

/-- What a fitting slot's contribution descriptor does. -/
def contributionMade (tok : Word) (s : State) (p sec : Nat) (d : List Byte) : State :=
  if !s.inStep p || s.contribBad p d then s.collReject p sec (bits tok.toNat 0 8) else s.contribute p d

theorem exec_contributionDoorbell (tok : Word) (s : State) :
    exec (.contributionDoorbell tok) s = doorbell 1 1 tok State.collReject (contributionMade tok) s := rfl

section
variable {s : State} {tok : Word} {p : Nat} (h : DoorbellTaken s tok 1 p)
include h

theorem exec_contribution_of_good (hfits : slotFits s tok p 1) (hstep : (slotFreed s tok p).inStep p = true)
    (hgood : (slotFreed s tok p).contribBad p (ringBytes s tok p) = false) : exec (.contributionDoorbell tok) s =
      .next ((slotFreed s tok p).contribute p (ringBytes s tok p)) := by
  rw [exec_contributionDoorbell, doorbell_of_fits h hfits]
  simp [contributionMade, hstep, hgood]

theorem exec_contribution_of_bad (hbad : ¬ slotFits s tok p 1 ∨ (slotFreed s tok p).inStep p = false
      ∨ (slotFreed s tok p).contribBad p (ringBytes s tok p) = true) : exec (.contributionDoorbell tok) s =
    .next ((slotFreed s tok p).collReject p (tokDstNode tok - 48) (bits tok.toNat 0 8)) := by
  rw [exec_contributionDoorbell]
  by_cases hfits : slotFits s tok p 1
  · rw [doorbell_of_fits h hfits]
    obtain hstep | hbad := hbad.resolve_left (not_not.2 hfits)
    · simp [contributionMade, hstep]
    · simp [contributionMade, hbad]
  · exact doorbell_of_misfit h hfits

end

/-! ### EXCHANGE_DOORBELL (R412, R435) -/

/-- What a descriptor that R435 lets in does, by the list of its coaches. -/
def exchangeListed (tok : Word) (s : State) (p sec : Nat) (d : List Byte) : State :=
  match s.listCoaches p (xAddr d 0x08) (xN d) with
  | none => if s.listLost p (xAddr d 0x08) (xN d) then s.coachesSeen p (xAddr d 0x08) (xN d)
    else s.collReject p sec (bits tok.toNat 0 8)
  | some cs => if cs.all (fun c => (s.job p).devices.contains c.1) then
      (s.coachesSeen p (xAddr d 0x08) (xN d)).startExch p sec (if tokSrcNode tok < 40 then 100 + tokSrcNode tok else 100 + 5 * sec) d cs
    else s.collReject p sec (bits tok.toNat 0 8)

/-- What a fitting slot's exchange descriptor does. -/
def exchangeMade (tok : Word) (s : State) (p sec : Nat) (d : List Byte) : State :=
  if !(s.inStep p || (s.job p).serving.isSome) || exchBad d || (s.exch p (xXid d)).any (fun x => x.desc.isSome) then
    s.collReject p sec (bits tok.toNat 0 8)
  else exchangeListed tok s p sec d

theorem exec_exchangeDoorbell (tok : Word) (s : State) :
    exec (.exchangeDoorbell tok) s = doorbell 2 2 tok State.collReject (exchangeMade tok) s := rfl

section
variable {s : State} {tok : Word} {p : Nat} (h : DoorbellTaken s tok 2 p)
include h

theorem exec_exchange_of_good (hfits : slotFits s tok p 2)
    (hopen : (slotFreed s tok p).inStep p = true ∨ ((slotFreed s tok p).job p).serving.isSome = true)
    (hgood : exchBad (ringBytes s tok p) = false)
    (hnew : ((slotFreed s tok p).exch p (xXid (ringBytes s tok p))).any (fun x => x.desc.isSome) = false) :
    exec (.exchangeDoorbell tok) s =
      .next (exchangeListed tok (slotFreed s tok p) p (tokDstNode tok - 48) (ringBytes s tok p)) := by
  rw [← Bool.or_eq_true] at hopen
  rw [exec_exchangeDoorbell, doorbell_of_fits h hfits]
  simp [exchangeMade, hopen, hgood, hnew]

theorem exec_exchange_of_bad (hbad : ¬ slotFits s tok p 2
      ∨ ((slotFreed s tok p).inStep p = false ∧ ((slotFreed s tok p).job p).serving = none)
      ∨ exchBad (ringBytes s tok p) = true) : exec (.exchangeDoorbell tok) s =
    .next ((slotFreed s tok p).collReject p (tokDstNode tok - 48) (bits tok.toNat 0 8)) := by
  rw [exec_exchangeDoorbell]
  by_cases hfits : slotFits s tok p 2
  · rw [doorbell_of_fits h hfits]
    obtain ⟨hstep, hserve⟩ | hbad := hbad.resolve_left (not_not.2 hfits)
    · simp [exchangeMade, hstep, hserve]
    · simp [exchangeMade, hbad]
  · exact doorbell_of_misfit h hfits

end
end Sys2Proof.Machine
end

section
open Sys2Proof Sys2Proof.Machine

/-- Settles O40: what a doorbell's slot, its descriptor and the list of its coaches make of it. -/
theorem doorbells : Obligations.Doorbells := by
  intro tok p s s1 d sec reported
  refine ⟨fun h => ⟨fun hfits hstep hgood => ?contribution, exec_contribution_of_bad h⟩,
    fun h => ⟨fun hfits hopen hgood hnew => ?exchange, exec_exchange_of_bad h⟩,
    fun hclk hkind hlo hhi hsub hfirst hnone => ⟨?unheldContribution, ?unheldExchange⟩⟩
  case contribution =>
    have hexec := exec_contribution_of_good h hfits hstep hgood
    exact ⟨hexec, fun hwindow hposted => by rw [hexec, contribute_of_posted hwindow hposted]⟩
  case exchange =>
    have hexec := exec_exchange_of_good h hfits hopen hgood hnew
    exact ⟨fun cs hcs => by rw [hexec, exchangeListed, hcs], fun hnone => by rw [hexec, exchangeListed, hnone]⟩
  case unheldContribution =>
    rw [exec_contributionDoorbell]
    exact doorbell_of_unheld hclk hkind hlo hhi hsub hfirst hnone
  case unheldExchange =>
    rw [exec_exchangeDoorbell]
    exact doorbell_of_unheld hclk hkind hlo hhi hsub hfirst hnone

end

section
/-! PROOF. O41: the journal entry of a span whose port engine group's section the partition does not own (13 R456, R461). -/

namespace Sys2Proof.Machine
open Sys2Proof.Tests

/-- The span of slot 1's chunk of a bucket of 17 elements, one element with its final value. -/
def spanAway : TSpan := ⟨0, 1, 16, [0], false, false⟩

/-- A job whose slots 0 and 1 this device hosts. -/
def awayJob (j : JobSt) : JobSt := { j with buckets := [(7, 17)], slots := [0, 0], spans := [spanAway] }

/-- Partition 0, which owns section 0 alone, in a step of that job: one group for every element, whose program adds w to itself;
the shard descriptor of slot 1 names a weight at 0x8000. -/
def sAway : State :=
  let s := ((inJob awayJob).setFld (STEP_UPD_CFG_NMAP 0) 1).setFld (STEP_UPD_TABLES_MAP 0) 0x6000
  let s := (s.setFld (STEP_UPD_TABLES_GROUPS 0) 0x7000).setFld (STEP_UPD_TABLES_PROGS 0) 0x5000
  ((s.wr (keyStack 0 0x5004) 4 0x1F).wr (keyStack 0 0) 8 0x8000).wr (keyStack 0 0x2C) 4 (2 ^ 24 + 1)

/-- The span is ready for port engine group 1, but its journal is that of section 0 (assumption 26). -/
theorem sAway_ready : sAway.on ERR_FAILSAFE_ACTIVE = false ∧ sAway.spanReady 0 0 1 = true ∧ sAway.siteSec 0 1 = 0
    ∧ (sAway.job 0).spans.find? (fun y => y.bucket == 0 && y.chunk == 1
      && y.elem == 1 * chunkQ ((sAway.job 0).len 0) + 0 * sAway.spanLen 0 && !y.updated) = some spanAway
    ∧ ∀ c ∈ burstsOf (sAway.spanReads 0 1 0 (1 * chunkQ ((sAway.job 0).len 0) + 0 * sAway.spanLen 0) spanAway),
      popCount (sAway.symbols c) ≤ 1 := by decide +kernel

theorem journal_updateSpan_sAway : (sAway.updateSpan 0 0 0 1 0 0).b.journal.map JEnt.sec = [0]
    ∧ (sAway.updateSpan 0 0 1 1 0 0).b.journal.map JEnt.sec = [1] := by decide +kernel

theorem exec_spanUpdate_of_ready {g p : Fin 8} {slot b k : Nat} {s : State} (hclk : Clocked s) (hready : s.spanReady p 0 slot = true)
    (hg : slot % 8 = g.val) : exec (.spanUpdate g p slot b k) s = .next (s.updateSpan p 0 (s.siteSec p slot) slot b k) := by
  refine (unlessStopped_off hclk).trans ?_
  simp [hready, hg]

/-- The law would journal a span in the section of its port engine group, which need not be the partition's. -/
theorem updateSpan_of_law (h : spanUpdatesLaw) {p g : Fin 8} {slot b k : Nat} {x : TSpan} {s : State} (hclk : Clocked s)
    (hready : s.spanReady p 0 slot = true) (hg : slot % 8 = g.val)
    (hspan : (s.job p).spans.find? (fun y => y.bucket == b && y.chunk == slot
      && y.elem == slot * chunkQ ((s.job p).len b) + k * s.spanLen p && !y.updated) = some x)
    (hsymbols : ∀ c ∈ burstsOf (s.spanReads p slot b (slot * chunkQ ((s.job p).len b) + k * s.spanLen p) x),
      popCount (s.symbols c) ≤ 1) :
    s.updateSpan p 0 (s.siteSec p slot) slot b k = s.updateSpan p 0 g slot b k := by
  obtain ⟨hgroup, -⟩ := h p g slot b k x s hclk hspan
  obtain ⟨u, hexec, hu, -⟩ := (hgroup hready hg).1 hsymbols
  rw [exec_spanUpdate_of_ready hclk hready hg] at hexec
  exact (Host.Outcome.next.inj hexec).trans hu

theorem not_spanUpdatesLaw : ¬ spanUpdatesLaw := by
  intro h
  obtain ⟨hclk, hready, hsec, hspan, hsymbols⟩ := sAway_ready
  obtain ⟨hhome, haway⟩ := journal_updateSpan_sAway
  have heq : sAway.updateSpan 0 0 (sAway.siteSec 0 1) 1 0 0 = sAway.updateSpan 0 0 1 1 0 0 :=
    updateSpan_of_law h (p := ⟨0, by decide⟩) (g := ⟨1, by decide⟩) hclk hready rfl hspan hsymbols
  rw [hsec] at heq
  rw [heq, haway] at hhome
  contradiction

end Sys2Proof.Machine
end

section
open Sys2Proof Sys2Proof.Machine

/-- Refutes O41: SPAN_UPDATE of a slot whose port engine group stands in a section that the partition does not own journals in the
partition's lowest section, where the law says the group's own. -/
theorem not_collectiveFrames : ¬ Obligations.CollectiveFrames := fun ⟨hspans, _⟩ => not_spanUpdatesLaw hspans

end

section
/-! PROOF. The registers that the reads and writes of memory by the hub and the port engine groups leave alone (08 R282, R284, 13 R461
to R463, 12 R421). -/

namespace Sys2Proof.Machine

/-! ### Registers beyond the reach of memory errors -/

/-- A field whose register lies above the state of a task, the counters and addresses of a stack's errors, and what a fence writes
of a partition, by its place in a block of 16 KiB (20 R639). -/
def QuietFld (g : Fld) : Prop := 0x210 ≤ g.reg % 0x4000

/-- The quiet registers of the second state are those of the first. -/
structure QuietKept (s u : State) : Prop where
  fld : ∀ g, QuietFld g → u.fld g = s.fld g

theorem QuietKept.refl (s : State) : QuietKept s s := ⟨fun _ _ => rfl⟩

theorem QuietKept.trans {s u v : State} (h : QuietKept s u) (k : QuietKept u v) : QuietKept s v :=
  ⟨fun g hg => (k.fld g hg).trans (h.fld g hg)⟩

theorem quietKept_of_regs {s u : State} (h : u.regs = s.regs) : QuietKept s u := ⟨fun _ _ => by rw [State.fld, h, State.fld]⟩

theorem quietKept_foldl {α : Type} {f : State → α → State} (h : ∀ s x, QuietKept s (f s x)) (l : List α) (s : State) :
    QuietKept s (l.foldl f s) :=
  foldl_rel (fun u v => QuietKept v u) l f s .refl (fun _ _ _ hab hbc => hbc.trans hab) fun s x _ e => e ▸ h s x

theorem QuietFld.reg_ne {f g : Fld} (hg : QuietFld g) (hf : f.reg % 0x4000 < 0x210) : g.reg ≠ f.reg := by
  unfold QuietFld at hg
  omega

theorem quietKept_setFld (s : State) {f : Fld} (v : Nat) (hf : f.reg % 0x4000 < 0x210) : QuietKept s (s.setFld f v) :=
  ⟨fun _ hg => fld_setFld_reg_ne s v (hg.reg_ne hf)⟩

theorem quietKept_count (s : State) {f : Fld} (n : Nat) (hf : f.reg % 0x4000 < 0x210) : QuietKept s (s.count f n) :=
  ⟨fun _ hg => fld_count_reg_ne s n (hg.reg_ne hf)⟩

/-! ### Reports, tasks that stop, and the fence (16 R522, 18 R588) -/

theorem QuietFld.ne_lost {g : Fld} (hg : QuietFld g) : g.key ≠ ERR_LOST_LOW.key ∧ g.key ≠ ERR_LOST_HIGH.key :=
  ⟨key_ne_of_reg (hg.reg_ne (by decide)), key_ne_of_reg (hg.reg_ne (by decide))⟩

theorem quietKept_file (s : State) (detail cls kind index arg : Nat) (part : Option Nat) :
    QuietKept s (s.file detail cls kind index arg part) :=
  ⟨fun _ hg => State.fld_report hg.ne_lost.1 hg.ne_lost.2⟩

theorem quietKept_setTaskState (s : State) (core v : Nat) : QuietKept s (s.setTaskState core v) :=
  quietKept_setFld s v (by simp only [CL_TASK_STATE_STATE, Fld.at_reg]; omega)

theorem quietKept_taskFault (s : State) (core thread pc : Nat) (f : FInfo) (extra : Nat) (instr : Word) :
    QuietKept s (s.taskFault core thread pc f extra instr) := by
  have hleft : QuietKept s (s.leaveTask core) := quietKept_of_regs (by simp)
  refine ⟨fun g hg => (State.fld_sendTok hg.ne_lost.1 hg.ne_lost.2).trans ?_⟩
  exact (hleft.trans (quietKept_setTaskState _ core tkFaulted)).fld g hg

theorem quietKept_haltCore (s : State) (core : Nat) : QuietKept s (s.haltCore core) := by
  unfold State.haltCore State.engineFault
  split
  · exact .refl s
  · split
    · split
      · exact .refl s
      · exact quietKept_taskFault ..
    · exact (quietKept_of_regs (by simp)).trans (quietKept_setTaskState _ core tkHalted)

theorem quietKept_fencePart (s : State) (p cause : Nat) : QuietKept s (s.fencePart p cause) := by
  have hsweep (u : State) : QuietKept u (u.setFld (PART_KEY_SWEEP p) 0) :=
    quietKept_setFld u 0 (by simp only [PART_KEY_SWEEP, Fld.at_reg]; omega)
  have hstop (u : State) : QuietKept u ((u.setFld (STEP_STATUS_STATE p) 4).setFld (STEP_STATUS_CAUSE p) 7) :=
    (quietKept_setFld u 4 (by simp only [STEP_STATUS_STATE, Fld.at_reg]; omega)).trans
      (quietKept_setFld _ 7 (by simp only [STEP_STATUS_CAUSE, Fld.at_reg]; omega))
  have hfenced (u : State) : QuietKept u ((u.setFld (PART_STATUS_STATE p) ptFenced).setFld (PART_STATUS_CAUSE p) cause) :=
    (quietKept_setFld u _ (by simp only [PART_STATUS_STATE, Fld.at_reg]; omega)).trans
      (quietKept_setFld _ cause (by simp only [PART_STATUS_CAUSE, Fld.at_reg]; omega))
  unfold State.fencePart
  split
  · extract_lets mask s₁ _ s₂ s₃ s₄
    have hhalt : QuietKept s s₁ := quietKept_foldl quietKept_haltCore ..
    have hlines : QuietKept s₁ s₂ := quietKept_of_regs rfl
    have hjob : QuietKept s₃ s₄ := by
      unfold s₄
      split
      · exact hstop s₃
      · exact .refl s₃
    exact (((hhalt.trans hlines).trans (hsweep s₂)).trans hjob).trans (hfenced s₄)
  · exact .refl s

/-! ### Codewords (08 R282, R284) -/

theorem quietKept_noteCe (s : State) (burst : Nat) : QuietKept s (s.noteCe burst) := by
  unfold State.noteCe
  extract_lets key st a
  have hq := bits_lt_two_pow a 8 6
  exact (quietKept_count s 1 (by simp only [STK_CE_COUNT_CE, Fld.at_reg]; omega)).trans (quietKept_file ..)

theorem quietKept_stackUE (s : State) (key : Nat) : QuietKept s (s.stackUE key) := by
  have haddr : QuietKept s ((s.setFld (STK_UE_ADDR_ADDR (key / 2 ^ 36)) (key % 2 ^ 36)).setFld (STK_UE_ADDR_VALID (key / 2 ^ 36)) 1) :=
    (quietKept_setFld s _ (by simp only [STK_UE_ADDR_ADDR, Fld.at_reg]; omega)).trans
      (quietKept_setFld _ 1 (by simp only [STK_UE_ADDR_VALID, Fld.at_reg]; omega))
  unfold State.stackUE
  extract_lets st a s₁ src
  split
  · exact (haddr.trans (quietKept_file ..)).trans (quietKept_fencePart ..)
  · exact haddr.trans (quietKept_file ..)

theorem quietKept_readCode (s : State) (burst : Nat) : QuietKept s (s.readCode burst).2 := by
  unfold State.readCode
  extract_lets n
  split_ifs
  · exact .refl s
  · exact quietKept_noteCe s burst
  · exact quietKept_stackUE ..

theorem quietKept_readBursts (s : State) (l : List Nat) : QuietKept s (s.readBursts l).2 := by
  induction l generalizing s with
  | nil => exact .refl s
  | cons b l ih =>
    have hcode := quietKept_readCode s b
    unfold State.readBursts
    split
    · exact ih s
    · split <;> rename_i u e <;> rw [e] at hcode
      · exact hcode.trans (ih u)
      · exact hcode

theorem quietKept_mergeBursts (s : State) (l : List Nat) : QuietKept s (s.mergeBursts l).2 := by
  induction l generalizing s with
  | nil => exact .refl s
  | cons b l ih =>
    have hcode := quietKept_readCode s b
    unfold State.mergeBursts
    split <;> rename_i u e <;> rw [e] at hcode
    · exact hcode.trans (ih u)
    · exact hcode

/-! ### Reads and writes by key and by virtual address -/

theorem quietKept_ask (s : State) (who unit : Nat) (use : RFor) (write : Bool) (ks : List Nat) :
    QuietKept s (s.ask who unit use write ks) :=
  quietKept_of_regs (by simp)

theorem quietKept_readKeys (s : State) (who : Nat) (ks : List Nat) : QuietKept s (s.readKeys who ks).2 := by
  have hread := quietKept_readBursts s (burstsOf ks)
  unfold State.readKeys State.readNow
  split <;> rename_i d u e <;> split at e <;> rename_i v hv <;> rw [hv] at hread <;> cases e
  · exact hread.trans (quietKept_ask ..)
  · exact hread

theorem quietKept_writeKeys' (s : State) (who : Nat) (cells : List (Nat × Byte)) : QuietKept s (s.writeKeys' who cells).2 := by
  have hmerge := quietKept_mergeBursts s ((burstsOf (cells.map Prod.fst)).filter (fun b => keysIn (cells.map Prod.fst) b < 64))
  unfold State.writeKeys' State.writeNow
  dsimp only
  split <;> rename_i u e <;> split at e <;> rename_i v hv <;> rw [hv] at hmerge <;> cases e
  · exact hmerge
  · have hencode (l : List Nat) : QuietKept v (l.foldl (fun s b => s.setSymbols b 0) v) :=
      quietKept_foldl (fun u b => quietKept_of_regs (u := u.setSymbols b 0) rfl) ..
    have hwritten (u : State) : QuietKept u (u.wrCells cells) := quietKept_of_regs rfl
    exact ((hmerge.trans (hencode _)).trans (hwritten _)).trans (quietKept_ask ..)

theorem quietKept_walkSeen (s : State) (who p va n : Nat) : QuietKept s (s.walkSeen who p va n) :=
  quietKept_foldl (fun s k => quietKept_readKeys s who ((List.range 8).map (· + k))) ..

theorem quietKept_hubRead (s : State) (who p va n : Nat) : QuietKept s (s.hubRead who p va n).2 := by
  unfold State.hubRead
  split
  · exact quietKept_walkSeen ..
  · exact (quietKept_walkSeen ..).trans (quietKept_readKeys ..)

/-! ### The undo journal (13 R461 to R463) -/

theorem quietKept_journalUnits (s : State) (p site sec step va n : Nat) : QuietKept s (s.journalUnits p site sec step va n) := by
  unfold State.journalUnits
  dsimp only
  split
  · exact .refl s
  · refine .trans (quietKept_of_regs ?_) (quietKept_writeKeys' ..)
    rfl

theorem quietKept_restoreJournal (s : State) (p : Nat) : QuietKept s (s.restoreJournal p) :=
  quietKept_foldl (fun s (e : JEnt) => quietKept_writeKeys' s 7 e.cells) ..

/-! ### The all-gather (12 R421) -/

theorem quietKept_sendPart (s : State) (p rqr dst typ : Nat) (data : List Byte) : QuietKept s (s.sendPart p rqr dst typ data) :=
  quietKept_of_regs rfl

theorem quietKept_modJob (s : State) (p : Nat) (f : JobSt → JobSt) : QuietKept s (s.modJob p f) := quietKept_of_regs rfl

theorem quietKept_putIn (s : State) (p sec tid off : Nat) (data : List Byte) : QuietKept s (s.putIn p sec tid off data) := by
  unfold State.putIn
  dsimp only
  split
  · exact .refl s
  · exact (quietKept_journalUnits ..).trans (quietKept_writeKeys' ..)

theorem quietKept_takeGather (s : State) (p : Nat) (d : List Byte) : QuietKept s (s.takeGather p d) := by
  unfold State.takeGather
  split
  · exact .refl s
  · extract_lets j c
    split
    · exact .refl s
    · split
      · exact .refl s
      · exact (quietKept_foldl (fun s sec => quietKept_putIn s ..) ..).trans (quietKept_modJob ..)

theorem quietKept_gatherFlight (s : State) (p : Nat) (d : List Byte) : QuietKept s (s.gatherFlight p d) := by
  unfold State.gatherFlight
  extract_lets s₁ j
  have htaken : QuietKept s s₁ := quietKept_takeGather s p d
  split
  · exact htaken
  · dsimp only
    refine htaken.trans (quietKept_foldl (fun t dev => ?_) ..)
    split
    · split
      · exact .refl t
      · exact quietKept_sendPart ..
    · exact .refl t

theorem quietKept_gatherChunk (s : State) (p b c : Nat) : QuietKept s (s.gatherChunk p b c) := by
  unfold State.gatherChunk
  extract_lets j sh
  split
  · exact .refl s
  · extract_lets n
    have hread := quietKept_hubRead s 8 p (shardW sh) n
    split <;> rename_i u e <;> rw [e] at hread
    · exact hread
    · refine hread.trans (quietKept_foldl (fun t e => quietKept_foldl (fun t dev => ?_) ..) ..)
      dsimp only
      split
      · exact quietKept_gatherFlight ..
      · exact quietKept_sendPart ..

theorem quietKept_startGathers (s : State) (p : Nat) : QuietKept s (s.startGathers p) := by
  unfold State.startGathers
  split
  · refine quietKept_foldl (fun t e => ?_) ..
    split
    · exact (quietKept_modJob ..).trans (quietKept_gatherChunk ..)
    · exact .refl t
  · exact .refl s

end Sys2Proof.Machine
end

section
/-! PROOF. The messages of a step: phases, the vote, and its verdict (12 R425, R426, 14 R466, R467, R470). -/

namespace Sys2Proof.Machine

/-! ### Jobs and messages -/

theorem job_modJob (s : State) (p : Nat) (f : JobSt → JobSt) : (s.modJob p f).job p = f (s.job p) := Tab.get_put_same ..

theorem job_of_j {s u : State} (h : u.j = s.j) (p : Nat) : u.job p = s.job p := by rw [State.job, h, State.job]

theorem job_sendMsg (s : State) (p dst q : Nat) (d : List Byte) : (s.sendMsg p dst d).job q = s.job q := job_of_j (by simp) q

theorem job_toHosts (s : State) (p q : Nat) (d : List Byte) : (s.toHosts p d).job q = s.job q := job_of_j (by simp) q

/-- A frame of a partition that passes and is the row's, with the form of its type (11 R387). -/
theorem receivePart_of_passes {typ p c : Nat} {place : Fin 256} {b d : List Byte} {mine good : State → Nat → List Byte → Bool}
    {g : State → Nat → List Byte → State} {s : State} (h : Passes s place b typ p c d) (hmine : mine s p d = true)
    (hgood : good s p d = true) : receivePart typ place b mine good g s = .next (g (acceptedFrom s (s.lamAt place) b p c) p d) := by
  obtain ⟨⟨hsized, hcrc, htakes⟩, htyp, hfate⟩ := h
  unfold receivePart receive
  simp only [hsized, hcrc, htakes, htyp, hfate, hmine, hgood, Option.any_some, BEq.rfl, Bool.and_self, Bool.not_true, Bool.and_false,
    Bool.false_eq_true, if_false]
  rfl

/-- A row of a step message acts on the whole message, in the state without it (14 R472, 11 R400). -/
theorem msgRow_of_taken {s s1 : State} {via : Via} {k : MKind} {p src : Nat} {d : List Byte} (h : MsgTaken s via k p src d s1)
    (g : State → Nat → Nat → List Byte → State) : msgRow k via g s = .next (g s1 p src d) := by
  obtain ⟨hclk, h⟩ := h
  refine (unlessStopped_off hclk).trans ?_
  cases via with
  | own =>
    obtain ⟨hown, rfl, rfl⟩ := h
    simp only [hown]
  | lambda lam b =>
    obtain ⟨c, e, hpass, rfl, rfl, hwhole, rfl⟩ := h
    refine (receivePart_of_passes hpass (by simp) (by simp)).trans ?_
    unfold State.msgIn
    simp only [hwhole]

/-! ### PHASE_START (14 R466, R467) -/

theorem phaseStart_of_ended {p : Fin 8} {s : State} (hclk : Clocked s) (hstep : s.stepping p = true)
    (hserve : s.on (STEP_CFG_SERVE p) = false) (hreduce : (s.job p).phase ≠ .reduce) (hcommit : (s.job p).phase ≠ .committing)
    (hended : ∀ c ∈ (s.job p).running, s.taskState c = tkEnded) (hdue : (s.job p).hotDue = []) :
    exec (.phaseStart p) s = .next (s.enterPhase p
      (nextPhase ((s.job p).hosted s.me).length (s.fld (STEP_CFG_MICRO p)) (s.job p).phase)) := by
  have hall : (s.job p).running.all (fun c => s.taskState c == tkEnded) = true := by simpa using hended
  refine (unlessStopped_off hclk).trans ?_
  cases hphase : (s.job p).phase with
  | reduce => exact absurd hphase hreduce
  | committing => exact absurd hphase hcommit
  | idle | forward | backward => simp [hstep, hserve, hall, hdue]

/-! ### VOTE_SEND (12 R425, 14 R470) -/

/-- The vote of one hosted slot. -/
def State.sendVote (s : State) (p : Nat) (j : JobSt) (nf : Bool) (slot : Nat) : State :=
  (s.slotLoss p slot).2.sendMsg p (j.groupHost slot)
    (msgHead ((s.slotLoss p slot).2.stepNum p) slot nf 0 0 false 0 ++ leBytes 8 (widen fmtFP32 fmtXA (s.slotLoss p slot).1).v)

theorem exec_voteSend_of_ready {p : Fin 8} {s : State} (hclk : Clocked s) (h : s.voteReady p = true) : exec (.voteSend p) s =
    .next ((((s.job p).hosted s.me).foldl (fun u slot => u.sendVote p (s.job p) (s.on (STEP_VOTE_LOCAL_NF p)) slot) s).modJob p
      (fun j => { j with voted := true })) :=
  (unlessStopped_off hclk).trans (if_pos h)

theorem sendVotes_keep (s : State) (p : Nat) (j : JobSt) (nf : Bool) (l : List Nat) :
    (l.foldl (fun u slot => u.sendVote p j nf slot) s).j = s.j
    ∧ (l.foldl (fun u slot => u.sendVote p j nf slot) s).m.mem = s.m.mem := by
  constructor <;> simp [State.sendVote]

theorem voteSend_of_ready {p : Fin 8} {s : State} (hclk : Clocked s) (h : s.voteReady p = true) :
    Gives (exec (.voteSend p) s) (fun u => (u.job p).voted = true ∧ (u.job p).votes = (s.job p).votes ∧ u.m.mem = s.m.mem) := by
  obtain ⟨hj, hmem⟩ := sendVotes_keep s p (s.job p) (s.on (STEP_VOTE_LOCAL_NF p)) ((s.job p).hosted s.me)
  refine ⟨_, exec_voteSend_of_ready hclk h, ?_, ?_, hmem⟩
  · rw [job_modJob]
  · rw [job_modJob, job_of_j hj]

/-! ### VOTE and GROUP_VOTE (12 R425) -/

theorem votes_noteVote {s : State} {p form : Nat} {d : List Byte} (h : (s.job p).voteAt form (mSlot d) = none) :
    ((s.noteVote p form d).job p).votes = (s.job p).votes ++ [(form, mSlot d, mNf d, leNat ((d.drop 16).take 8))] := by
  rw [State.noteVote, h, if_neg (by simp), job_modJob]

section
variable {s s1 : State} {via : Via} {p src : Nat} {d : List Byte} (hnow : s1.nowStep p d = true)
include hnow

theorem vote_of_taken (h : MsgTaken s via .vote p src d s1) (hhost : (s1.job p).groupHost (mSlot d) = s1.me)
    (hnone : (s1.job p).voteAt 0 (mSlot d) = none) : Gives (exec (.vote via) s) (fun u =>
      (u.job p).votes = (s1.job p).votes ++ [(0, mSlot d, mNf d, leNat ((d.drop 16).take 8))]) := by
  change Gives (execVote via s) _
  rw [execVote, msgRow_of_taken h]
  refine ⟨_, rfl, ?_⟩
  simp only [hnow, hhost, hnone, bne_self_eq_false, Bool.not_true, Bool.or_self, Bool.false_eq_true, if_false, Option.isSome_none]
  split
  · exact votes_noteVote hnone
  · rw [job_sendMsg]
    exact votes_noteVote hnone

theorem groupVote_of_taken (h : MsgTaken s via .groupVote p src d s1) (hhost : (s1.job p).hostOf 0 = s1.me)
    (hfirst : mSlot d % 128 = 0) (hnone : (s1.job p).voteAt 1 (mSlot d) = none) : Gives (exec (.groupVote via) s) (fun u =>
      (u.job p).votes = (s1.job p).votes ++ [(1, mSlot d, mNf d, leNat ((d.drop 16).take 8))]) := by
  change Gives (execGroupVote via s) _
  rw [execGroupVote, msgRow_of_taken h]
  refine ⟨_, rfl, ?_⟩
  simp only [hnow, hhost, hfirst, hnone, bne_self_eq_false, Bool.not_true, Bool.or_self, Bool.false_eq_true, if_false, Option.isSome_none]
  split
  · exact votes_noteVote hnone
  · rw [job_toHosts]
    exact votes_noteVote hnone

end

/-! ### VERDICT (12 R426) -/

/-- The verdict and the loss in their register. -/
def State.setVerdict (s : State) (p : Nat) (nf : Bool) (loss : Nat) : State :=
  ((s.setFld (STEP_VOTE_VALID p) 1).setFld (STEP_VOTE_SKIP p) (b2n nf)).setFld (STEP_VOTE_LOSS p) loss

/-- What the verdict starts: SKIP restores the journal, FINITE starts the all-gathers, and the replies that waited leave. -/
def State.afterVerdict (s : State) (p : Nat) (nf : Bool) : State :=
  if nf then
    let s := (s.restoreJournal p).skipLate p
    { s.sendReplies p with b := { s.b with tdelta := Tab.put s.b.tdelta 0 p 0 } }
  else (s.sendReplies p).startGathers p

/-- A field of a register STEP_VOTE. -/
def VoteFld (g : Fld) : Prop := g.reg % 0x4000 = 0x248

theorem VoteFld.quiet {g : Fld} (hg : VoteFld g) : QuietFld g := by
  unfold VoteFld at hg
  unfold QuietFld
  omega

theorem fld_setLate {s : State} {f g : Fld} (v : Nat) (hg : VoteFld g) (hf : f.reg % 0x4000 = 0x250) : (s.setFld f v).fld g = s.fld g := by
  refine fld_setFld_reg_ne s v fun e => ?_
  rw [VoteFld, e] at hg
  omega

theorem fld_skipLate (s : State) (p : Nat) {g : Fld} (hg : VoteFld g) : (s.skipLate p).fld g = s.fld g := by
  unfold State.skipLate State.bump
  extract_lets j d s₁
  refine (fld_setLate _ hg ?_).trans (fld_setLate _ hg ?_)
  · simp only [STEP_LATE_DROPPED, Fld.at_reg]
    omega
  · simp only [STEP_LATE_DEFERRED, Fld.at_reg]
    omega

theorem fld_sendReplies (s : State) (p : Nat) (g : Fld) : (s.sendReplies p).fld g = s.fld g := by
  rw [State.fld, State.fld, (State.sendReplies_frame s p).2.2.2.1]

theorem fld_afterVerdict (s : State) (p : Nat) (nf : Bool) {g : Fld} (hg : VoteFld g) : (s.afterVerdict p nf).fld g = s.fld g := by
  unfold State.afterVerdict
  split
  · exact (fld_sendReplies ..).trans ((fld_skipLate _ p hg).trans ((quietKept_restoreJournal s p).fld g hg.quiet))
  · exact ((quietKept_startGathers _ p).fld g hg.quiet).trans (fld_sendReplies ..)

theorem voteFlds (p : Nat) : VoteFld (STEP_VOTE_VALID p) ∧ VoteFld (STEP_VOTE_SKIP p) ∧ VoteFld (STEP_VOTE_LOSS p) := by
  simp only [VoteFld, STEP_VOTE_VALID, STEP_VOTE_SKIP, STEP_VOTE_LOSS, Fld.at_reg]
  omega

theorem fld_setVerdict (s : State) (p : Nat) (nf : Bool) {loss : Nat} (h : loss < 2 ^ 32) :
    (s.setVerdict p nf loss).fld (STEP_VOTE_VALID p) = 1 ∧ (s.setVerdict p nf loss).fld (STEP_VOTE_SKIP p) = b2n nf
    ∧ (s.setVerdict p nf loss).fld (STEP_VOTE_LOSS p) = loss := by
  have hbit {f g : Fld} (hne : f.key % 64 ≠ g.key % 64) (u : State) (v : Nat) : (u.setFld f v).fld g = u.fld g :=
    u.fld_setFld_ne v (key_ne_of_bit hne)
  have hvalid : (STEP_VOTE_VALID p).key % 64 = 0 := by simp only [STEP_VOTE_VALID, Fld.at_key]; omega
  have hskip : (STEP_VOTE_SKIP p).key % 64 = 1 := by simp only [STEP_VOTE_SKIP, Fld.at_key]; omega
  have hloss : (STEP_VOTE_LOSS p).key % 64 = 32 := by simp only [STEP_VOTE_LOSS, Fld.at_key]; omega
  unfold State.setVerdict
  refine ⟨?_, ?_, ?_⟩
  · rw [hbit (by omega), hbit (by omega), State.fld_setFld]
    rfl
  · rw [hbit (by omega), State.fld_setFld]
    cases nf <;> rfl
  · rw [State.fld_setFld]
    exact Nat.mod_eq_of_lt h

theorem wordAt_lt (b : List Byte) (off : Nat) : wordAt b off < 2 ^ 32 := by
  have hlen : ((b.drop off).take 4).length ≤ 4 := List.length_take_le ..
  calc wordAt b off < 256 ^ ((b.drop off).take 4).length := leNat_lt _
    _ ≤ 256 ^ 4 := Nat.pow_le_pow_right (by decide) hlen
    _ = 2 ^ 32 := by decide

theorem exec_verdict_of_taken {s s1 : State} {via : Via} {p src : Nat} {d : List Byte} (hnow : s1.nowStep p d = true)
    (h : MsgTaken s via .verdict p src d s1) (hnone : s1.on (STEP_VOTE_VALID p) = false) : exec (.verdict via) s =
      .next (((s1.relay p d).setVerdict p (mNf d) (wordAt d 0x10)).afterVerdict p (mNf d)) := by
  change execVerdict via s = _
  rw [execVerdict, msgRow_of_taken h]
  simp only [hnow, hnone, Bool.not_true, Bool.or_self, Bool.false_eq_true, if_false]
  rfl

theorem verdict_of_taken {s s1 : State} {via : Via} {p src : Nat} {d : List Byte} (hnow : s1.nowStep p d = true)
    (h : MsgTaken s via .verdict p src d s1) (hnone : s1.on (STEP_VOTE_VALID p) = false) : Gives (exec (.verdict via) s) (fun u =>
      u.fld (STEP_VOTE_VALID p) = 1 ∧ u.fld (STEP_VOTE_SKIP p) = b2n (mNf d) ∧ u.fld (STEP_VOTE_LOSS p) = wordAt d 0x10) := by
  refine ⟨_, exec_verdict_of_taken hnow h hnone, ?_⟩
  obtain ⟨hvalid, hskip, hloss⟩ := voteFlds p
  rw [fld_afterVerdict _ p _ hvalid, fld_afterVerdict _ p _ hskip, fld_afterVerdict _ p _ hloss]
  exact fld_setVerdict _ p _ (wordAt_lt ..)

theorem phasesVotes : phasesAndVotesLaw :=
  ⟨fun _ _ hclk => ⟨phaseStart_of_ended hclk, voteSend_of_ready hclk⟩, fun _ _ _ _ _ _ hnow =>
    ⟨vote_of_taken hnow, groupVote_of_taken hnow, fun h _ => verdict_of_taken hnow h⟩⟩

end Sys2Proof.Machine
end

section
/-! PROOF. HOLD, its resolution, the heads of a serving job and the ledger's acknowledgement (14 R480, R481, R489, R491). -/

namespace Sys2Proof.Machine

/-! ### HOLD_ENTER, SERVE_HEAD_TIMER, LEDGER_DRAINED_ACK -/

section
variable {p : Fin 8} {s : State}

theorem holdEnter_of_applied (hclk : Clocked s) (hpart : s.partState p = ptStarted) (hserve : s.on (STEP_CFG_SERVE p) = false)
    (happlied : s.jstate p = jsApplied) (hlost : (s.job p).slots.any (s.job p).lost.contains = false) :
    exec (.holdEnter p) s = .next (s.setJstate p jsHold 0) := by
  refine (unlessStopped_off hclk).trans ?_
  simp only [hpart, hserve, happlied, hlost]
  rfl

theorem serveHeadTimer_of_due (hclk : Clocked s)
    (hdue : (s.partState p = ptStarted ∧ s.on (STEP_CFG_SERVE p) = true) ∨ s.partState p = ptFenced) :
    exec (.serveHeadTimer p) s = .next (s.signHead p) := by
  refine (unlessStopped_off hclk).trans (if_pos ?_)
  obtain ⟨hpart, hserve⟩ | hpart := hdue
  · simp [hpart, hserve]
  · simp [hpart]

section
variable {q : Requester} (v : Word)

theorem ledgerDrainedAck_of_fenced (hstand : s.standing = false) (hpart : s.partState p = ptFenced) :
    exec (.ledgerDrainedAck q p v) s = .next s.asked := by
  have hstand' : s.asked.standing = false := hstand
  have hpart' : s.asked.partState p = ptFenced := hpart
  change execLedgerDrainedAck q p v s = _
  unfold execLedgerDrainedAck
  simp [hstand', hpart']

theorem exec_ledgerDrainedAck (hup : s.hubUp = true) (hstand : s.standing = false) (hreach : reaches q p = true)
    (hshut : s.fnShut q = false) (hpart : s.partState p ≠ ptFenced) : exec (.ledgerDrainedAck q p v) s =
    (let u := s.asked.setFld (STEP_LEDGER_ACK_DRAINED p) v.toNat
     if u.jstate p = jsStopped ∧ u.fld (STEP_STATUS_CAUSE p) = jcLedger ∧ u.partState p = ptStarted ∧ u.ledgerRoom p then
      .next (u.proceed p)
    else .next u) := by
  have hstand' : s.asked.standing = false := hstand
  have hup' : s.asked.hubUp = true := hup
  have hshut' : s.asked.fnShut q = false := hshut
  have hpart' : s.asked.partState p ≠ ptFenced := hpart
  change execLedgerDrainedAck q p v s = _
  unfold execLedgerDrainedAck
  simp only [hstand', hup', hshut', hreach, beq_eq_false_iff_ne.2 hpart', Bool.not_true, Bool.or_self, Bool.false_eq_true, if_false]

theorem fld_status_setDrained (u : State) {g : Fld} (hg : g.reg = 0xB000208 + p * 0x100000) :
    (u.setFld (STEP_LEDGER_ACK_DRAINED p) v.toNat).fld g = u.fld g := by
  refine fld_setFld_reg_ne u _ ?_
  rw [hg]
  simp only [STEP_LEDGER_ACK_DRAINED, Fld.at_reg]
  omega

theorem ledgerDrainedAck_of_started (hup : s.hubUp = true) (hstand : s.standing = false) (hreach : reaches q p = true)
    (hshut : s.fnShut q = false) (hpart : s.partState p = ptStarted)
    (hgoes : s.jstate p ≠ jsStopped ∨ s.fld (STEP_STATUS_CAUSE p) ≠ jcLedger) :
    Gives (exec (.ledgerDrainedAck q p v) s) (fun u => u.fld (STEP_LEDGER_ACK_DRAINED p) = v.toNat) := by
  have hstate : (s.asked.setFld (STEP_LEDGER_ACK_DRAINED p) v.toNat).jstate p = s.jstate p :=
    fld_status_setDrained v s.asked (by simp [STEP_STATUS_STATE])
  have hcause : (s.asked.setFld (STEP_LEDGER_ACK_DRAINED p) v.toNat).fld (STEP_STATUS_CAUSE p) = s.fld (STEP_STATUS_CAUSE p) :=
    fld_status_setDrained v s.asked (by simp [STEP_STATUS_CAUSE])
  rw [exec_ledgerDrainedAck v hup hstand hreach hshut (by rw [hpart]; decide)]
  dsimp only
  rw [hstate, hcause, if_neg (by tauto)]
  exact ⟨_, rfl, (State.fld_setFld ..).trans (Nat.mod_eq_of_lt v.isLt)⟩

end
end

/-! ### RESOLVE and STATE (R481) -/

section
variable {s s1 : State} {via : Via} {p src : Nat} {d : List Byte}

theorem resolve_of_taken (h : MsgTaken s via .resolve p src d s1) : exec (.resolve via) s =
    .next (s1.sendMsg p src (msgHead (mStep d) 0 false 0 6 false 0
      ++ leBytes 8 (b2n (s1.hasCommit p (mStep d)) + b2n (mStep d == s1.stepNum p && (s1.job p).appliedSent) * 2)
      ++ (if s1.hasCommit p (mStep d) then (s1.job p).lastCommit else []))) := by
  change execResolve via s = _
  rw [execResolve, msgRow_of_taken h]

theorem states_sendMsgs (s : State) (p q : Nat) (l : List Nat) (m : List Byte) :
    ((l.foldl (fun s dev => s.sendMsg p dev m) s).job q).states = (s.job q).states := by
  rw [job_of_j (s := s) (by simp)]

theorem states_tryResolve (s : State) (p : Nat) : ((s.tryResolve p).job p).states = (s.job p).states := by
  unfold State.tryResolve
  dsimp only
  split
  · rfl
  · split
    · rfl
    · split
      all_goals rw [states_sendMsgs, job_modJob]

theorem state_of_taken (h : MsgTaken s via .state p src d s1) (hresolve : (s1.job p).resolveStep = some (mStep d))
    (hnew : (s1.job p).states.any (fun e => e.1 == src) = false) : Gives (exec (.stateMsg via) s) (fun u =>
      (u.job p).states = (s1.job p).states ++ [(src, d)]) := by
  change Gives (execState via s) _
  rw [execState, msgRow_of_taken h]
  refine ⟨_, rfl, ?_⟩
  simp only [hresolve, hnew, ne_eq, not_true, Bool.false_eq_true, or_self, if_false]
  rw [states_tryResolve, job_modJob]

end

theorem holdResolve : holdAndResolveLaw :=
  ⟨fun _ _ hclk => ⟨holdEnter_of_applied hclk, serveHeadTimer_of_due hclk, fun _ v hup hstand hreach hshut =>
      ⟨ledgerDrainedAck_of_started v hup hstand hreach hshut, ledgerDrainedAck_of_fenced v hstand⟩⟩,
    fun _ _ _ _ _ _ => ⟨resolve_of_taken, state_of_taken⟩⟩

end Sys2Proof.Machine
end

section
open Sys2Proof Sys2Proof.Machine

/-- Settles O43: the phases and the vote by the messages that are taken, HOLD and its resolution by the states that they leave. -/
theorem phasesAndVotes : Obligations.PhasesAndVotes := ⟨phasesVotes, holdResolve⟩

end

section
open Sys2Proof Sys2Proof.Machine

/-- Refutes O42 by its clause on SPAN_UPDATE, at the state `sAway`: slot 1 is hosted by a partition that owns section 0 alone, so that
the span's write is journalled in section 0, where the law would have it in section 1, that of the port engine group. -/
theorem not_spansAndStragglers : ¬ Obligations.SpansAndStragglers := fun ⟨hspans, _⟩ => not_spanUpdatesLaw hspans

end

section
/-! PROOF. The queue of commands: what the shared shapes of the commands (issue, arrival, frame, message, host command,
management bus) leave of it (17 R569). -/

namespace Sys2Proof.Machine

/-! ### Outcomes -/

/-- The next state, if the outcome is one, has the queue `q`. -/
def QueueOut (q : List Instr) (o : Out) : Prop := ∀ t, o = .next t → t.pending = q

@[simp] theorem queueOut_next (q : List Instr) (s : State) : QueueOut q (.next s) ↔ s.pending = q :=
  ⟨fun h => h s rfl, fun h _ e => by cases e; exact h⟩

@[simp] theorem queueOut_fault (q : List Instr) (r : Fault) : QueueOut q (.fault r) :=
  fun t e => by simp at e

variable {s : State}

theorem unlessStopped_queue {o : Out} (ho : QueueOut s.pending o) : QueueOut s.pending (unlessStopped s o) := by
  unfold unlessStopped
  split
  · simp
  · exact ho

theorem arrive_queue (kind : Nat) (tok : Word) (g : State → State) (hg : ∀ u : State, (g u).pending = u.pending) :
    QueueOut s.pending (arrive kind tok g s) := by
  unfold arrive
  (repeat' split) <;> simp [hg]

/-! ### Instructions of a core -/

/-- The state that an instruction's effect carries has the queue `q`. -/
def Eff.QueueIs (q : List Instr) : Eff → Prop
  | .go s _ | .stay s | .wait s _ | .stop s | .trap s _ => s.pending = q
  | .fault _ | .refuse _ => True

section
variable (q : List Instr) (s : State) (fs : List FInfo)

@[simp] theorem Eff.go_queueIs (pc : Int) : (Eff.go s pc).QueueIs q ↔ s.pending = q := Iff.rfl
@[simp] theorem Eff.stay_queueIs : (Eff.stay s).QueueIs q ↔ s.pending = q := Iff.rfl
@[simp] theorem Eff.wait_queueIs (w : Wait) : (Eff.wait s w).QueueIs q ↔ s.pending = q := Iff.rfl
@[simp] theorem Eff.stop_queueIs : (Eff.stop s).QueueIs q ↔ s.pending = q := Iff.rfl
@[simp] theorem Eff.trap_queueIs : (Eff.trap s fs).QueueIs q ↔ s.pending = q := Iff.rfl
@[simp] theorem Eff.fault_queueIs : (Eff.fault fs).QueueIs q := trivial
@[simp] theorem Eff.refuse_queueIs : (Eff.refuse fs).QueueIs q := trivial

end

theorem State.applyEff_queue (core t pc : Nat) (w : Word) {e : Eff} (he : e.QueueIs s.pending) :
    (s.applyEff core t pc w e).pending = s.pending := by
  cases e <;> simp only [State.applyEff, Eff.go_queueIs, Eff.stay_queueIs, Eff.wait_queueIs, Eff.stop_queueIs, Eff.trap_queueIs] at he ⊢
  case go | wait => split <;> simp [he]
  all_goals simp [he]

theorem issueUe_queue (ue : List FInfo) (core t cls op : Nat) (f : Fields) (u : Uses) (bad : Bool)
    (more : List (RFile × Nat)) (body : State → Eff) (hb : (body s).QueueIs s.pending) :
    QueueOut s.pending (issueUe ue core t cls op f u bad more body s) := by
  unfold issueUe
  dsimp only
  split
  · simp
  · split
    · simp
    · split
      · simp
      · split
        · simpa using State.applyEff_queue _ _ _ _ hb
        · simp

theorem issue_queue (core t cls op : Nat) (f : Fields) (u : Uses) (bad : Bool) (more : List (RFile × Nat))
    (body : State → Eff) (hb : (body s).QueueIs s.pending) :
    QueueOut s.pending (issue core t cls op f u bad more body s) :=
  issueUe_queue [] core t cls op f u bad more body hb

theorem issue_thenNext_queue (core t cls op : Nat) (f : Fields) (u : Uses) (bad : Bool) (more : List (RFile × Nat))
    (g : State → State) (hg : (g s).pending = s.pending) :
    QueueOut s.pending (issue core t cls op f u bad more (thenNext core t g) s) :=
  issue_queue _ _ _ _ _ _ _ _ _ (by simp [thenNext, hg])

theorem State.startOp_queueIs (x : Xfer) (write : Bool) (cells : List (Nat × Byte)) :
    (s.startOp x write cells).QueueIs s.pending := by
  unfold State.startOp
  split <;> simp

/-- What an access, a load or a store in one of the core's memories, leaves of the queue: its addresses were found in `u`. -/
theorem access_queueIs {q : List Instr} {u : State} {e e' : Eff} {c : Prop} [Decidable c] (he : e.QueueIs q) (he' : e'.QueueIs u.pending)
    (hu : u.pending = q) : (if c then e else e').QueueIs q := by
  subst hu
  split
  · exact he
  · exact he'

/-! ### Host commands -/

/-- The state that a host command leaves has the queue `q`. -/
def HRes.QueueIs (q : List Instr) : HRes → Prop
  | .reply s _ _ _ _ | .stay s => s.pending = q

section
variable (q : List Instr) (s : State)

@[simp] theorem HRes.reply_queueIs (st d r0 r1 : Nat) : (HRes.reply s st d r0 r1).QueueIs q ↔ s.pending = q := Iff.rfl
@[simp] theorem HRes.stay_queueIs : (HRes.stay s).QueueIs q ↔ s.pending = q := Iff.rfl
@[simp] theorem HRes.ok_queueIs (r0 r1 : Nat) : (HRes.ok s r0 r1).QueueIs q ↔ s.pending = q := Iff.rfl
@[simp] theorem HRes.no_queueIs (st d : Nat) : (HRes.no s st d).QueueIs q ↔ s.pending = q := Iff.rfl
@[simp] theorem HRes.badState_queueIs (p : Nat) : (HRes.badState s p).QueueIs q ↔ s.pending = q := Iff.rfl
@[simp] theorem refuseRestore_queueIs (p r : Nat) : (refuseRestore s p r).QueueIs q ↔ s.pending = q := by
  simp [refuseRestore]

end

theorem hostRow_queue (op : Nat) (c : HostCmd) (g : Started → Nat → State → HRes)
    (hg : ∀ x, (g x (cPart c) s).QueueIs s.pending) : QueueOut s.pending (hostRow op c g s) := by
  unfold hostRow
  dsimp only
  split
  · simp
  · next x _ =>
    have hx := hg x
    (repeat' split) <;> simp_all

theorem boundaryRow_queue (op : Nat) (c : HostCmd) (check : Nat → State → Option HRes)
    (apply : HostCmd → Nat → State → State × Nat × Nat) (hc : ∀ p r, check p s = some r → r.QueueIs s.pending)
    (ha : ∀ d p, (apply d p s).1.pending = s.pending) : QueueOut s.pending (boundaryRow op c check apply s) := by
  refine hostRow_queue op c _ (fun x => ?_)
  split
  · next r hr => exact hc _ r hr
  · (repeat' split) <;> simp [ha]

/-! ### Frames and messages -/

theorem receive_queue (place : Fin 256) (b : List Byte) (mine good : State → Option Nat → List Byte → Bool)
    (g : State → Option Nat → List Byte → State) (hg : ∀ u p d, (g u p d).pending = u.pending) :
    QueueOut s.pending (receive place b mine good g s) := by
  unfold receive
  dsimp only
  (repeat' split) <;> simp [hg]

theorem receivePart_queue (typ : Nat) (place : Fin 256) (b : List Byte) (mine good : State → Nat → List Byte → Bool)
    (g : State → Nat → List Byte → State) (hg : ∀ u p d, (g u p d).pending = u.pending) :
    QueueOut s.pending (receivePart typ place b mine good g s) :=
  receive_queue _ _ _ _ _ (fun u p d => by cases p <;> simp [hg])

theorem State.msgIn_queue (p src : Nat) (d : List Byte) (g : State → Nat → Nat → List Byte → State)
    (hg : ∀ u p src d, (g u p src d).pending = u.pending) : (s.msgIn p src d g).pending = s.pending := by
  unfold State.msgIn
  dsimp only
  split <;> simp [hg]

theorem msgRow_queue (k : MKind) (via : Via) (g : State → Nat → Nat → List Byte → State)
    (hg : ∀ u p src d, (g u p src d).pending = u.pending) : QueueOut s.pending (msgRow k via g s) := by
  refine unlessStopped_queue ?_
  cases via with
  | own => dsimp only; split <;> simp [hg]
  | lambda lam frame => exact receivePart_queue _ _ _ _ _ _ (fun u p d => State.msgIn_queue _ _ _ _ hg)

theorem collRow_queue (lam : Fin 256) (frame : List Byte) (fits : List Byte → Bool) :
    QueueOut s.pending (collRow lam frame fits s) :=
  receivePart_queue _ _ _ _ _ _ (fun u p d => (State.collIn_frame u p d).1)

/-! ### Doorbells, base commands and the management bus -/

theorem doorbell_queue (ch form : Nat) (tok : Word) (bad : State → Nat → Nat → Nat → State)
    (g : State → Nat → Nat → List Byte → State) (hb : ∀ u p sec i, (bad u p sec i).pending = u.pending)
    (hg : ∀ u p sec d, (g u p sec d).pending = u.pending) : QueueOut s.pending (doorbell ch form tok bad g s) := by
  refine unlessStopped_queue ?_
  dsimp only
  (repeat' split) <;> simp [hb, hg]

theorem State.askNext_queue {u : State} (x : BCmd) (sl : Slot) (p : BPay) (e : s.askNext x sl p = some u) :
    u.pending = s.pending := by
  unfold State.askNext at e
  split at e <;> simp only [Option.some.injEq, reduceCtorEq] at e <;> subst e <;> simp

theorem runCmd_queue (op : Nat) (run : State → BCmd → Slot → BPay → State) (st : Fin 8) (id : Nat)
    (hr : ∀ x sl p, (run s x sl p).pending = s.pending) : QueueOut s.pending (runCmd op run st id s) := by
  refine unlessStopped_queue ?_
  dsimp only
  (repeat' split) <;> simp [hr]
  -- the state that asks for the command's next bytes
  next e => exact State.askNext_queue _ _ _ e

theorem State.smbWrite_queue (x : SmbWrite) (code want : Nat) (ok : Bool) (act : State → State)
    (ha : ∀ u, (act u).pending = u.pending) : QueueOut s.pending (s.smbWrite x code want ok act) := by
  unfold State.smbWrite
  (repeat' split) <;> simp [ha]

theorem State.smbRead_queue (x : SmbRead) (code n : Nat) (v : State → Nat × State) (hv : ∀ u, (v u).2.pending = u.pending) :
    QueueOut s.pending (s.smbRead x code n v) := by
  unfold State.smbRead
  split <;> simp [hv]

end Sys2Proof.Machine
end

section
/-! PROOF. The instructions of a core (03 to 07, 09, 10) leave the queue as it is. -/

namespace Sys2Proof.Machine

variable {s : State} (c : Fin 800) (t : Fin 16) (f : Fields)

/-! ### Scalars, masks, vectors -/

theorem alu_queue (op : Nat) (g : Word → Word → Word) : QueueOut s.pending (alu op g c t f s) :=
  issue_thenNext_queue _ _ _ _ _ _ _ _ _ (by simp)

theorem branch_queue (op : Nat) (g : Word → Word → Bool) : QueueOut s.pending (branch op g c t f s) :=
  issue_queue _ _ _ _ _ _ _ _ _ (by simp)

theorem maskOp_queue (op : Nat) (g : MWord → MWord → MWord) : QueueOut s.pending (maskOp op g c t f s) :=
  issue_thenNext_queue _ _ _ _ _ _ _ _ _ (by simp)

theorem vecOp_queue (op n : Nat) (group : Ty → Bool) (g : Ty → Nat → Nat → Nat → NRes) :
    QueueOut s.pending (vecOp op n group g c t f s) :=
  issue_thenNext_queue _ _ _ _ _ _ _ _ _ (by simp)

theorem vecCmp_queue (op n : Nat) (group : Ty → Bool) (g : Ty → Nat → Nat → Bool × Flags) :
    QueueOut s.pending (vecCmp op n group g c t f s) :=
  issue_thenNext_queue _ _ _ _ _ _ _ _ _ (by simp)

theorem vecMove_queue (op : Nat) (u : Uses) (bad : Bool) (g : Ty → VWord → VWord → Nat → Nat) :
    QueueOut s.pending (vecMove op u bad g c t f s) :=
  issue_thenNext_queue _ _ _ _ _ _ _ _ _ (by simp)

theorem reduction_queue (op : Nat) (group : Ty → Bool) (b : Option RFile) (body : Ty → State → State)
    (hb : ∀ ty, (body ty s).pending = s.pending) : QueueOut s.pending (reduction op group b body c t f s) :=
  issue_thenNext_queue _ _ _ _ _ _ _ _ _ (hb _)

theorem execVshuf_queue : QueueOut s.pending (execVshuf c t f s) := by
  unfold execVshuf
  exact vecMove_queue _ _ _ _ _ _ _

theorem execVrmv_queue : QueueOut s.pending (execVrmv c t f s) :=
  reduction_queue _ _ _ _ _ _ _ (fun ty => by dsimp only; simp)

theorem execVmvm_queue : QueueOut s.pending (execVmvm c t f s) :=
  issue_thenNext_queue _ _ _ _ _ _ _ _ _ (by simp)

theorem execVramax_queue : QueueOut s.pending (execVramax c t f s) := by
  refine reduction_queue _ _ _ _ _ _ _ (fun ty => ?_)
  dsimp only
  (repeat' split) <;> simp

/-! ### Class 4: loads, stores, handles, streams -/

theorem State.vecLoad_queueIs (space : Nat) (els : List (Nat × ElAt)) : (s.vecLoad c t f space els).QueueIs s.pending := by
  have hk := (State.vecKeys_frame s c space (typeOf f) false els).1
  unfold State.vecLoad
  dsimp only
  split <;> rename_i e <;> simp only [e] at hk
  · trivial
  · exact access_queueIs (by simp [hk]) (State.startOp_queueIs _ _ _) hk

theorem State.vecStore_queueIs (ty : Ty) (space : Nat) (v : VWord) (els : List (Nat × ElAt)) :
    (s.vecStore c t ty space v els).QueueIs s.pending := by
  have hk := (State.vecKeys_frame s c space ty true els).1
  unfold State.vecStore
  split <;> rename_i e <;> simp only [e] at hk
  · trivial
  · exact access_queueIs (by simp [hk]) (State.startOp_queueIs _ _ _) hk

theorem readVld_queue (ue : List FInfo) : QueueOut s.pending (readVld ue c t f s) := by
  unfold readVld
  exact issueUe_queue _ _ _ _ _ _ _ _ _ _ (State.vecLoad_queueIs _ _ _ _ _)

theorem readVlds_queue (ue : List FInfo) : QueueOut s.pending (readVlds ue c t f s) := by
  unfold readVlds
  exact issueUe_queue _ _ _ _ _ _ _ _ _ _ (State.vecLoad_queueIs _ _ _ _ _)

theorem readVgath_queue (ue : List FInfo) : QueueOut s.pending (readVgath ue c t f s) := by
  unfold readVgath
  exact issueUe_queue _ _ _ _ _ _ _ _ _ _ (State.vecLoad_queueIs _ _ _ _ _)

theorem readLd_queue (ue : List FInfo) : QueueOut s.pending (readLd ue c t f s) := by
  refine issueUe_queue _ _ _ _ _ _ _ _ _ _ ?_
  have hk := (State.scalarAccess_frame s c t f false).1
  dsimp only
  split <;> rename_i e <;> simp only [e] at hk
  · trivial
  · exact access_queueIs (by simp [hk]) (State.startOp_queueIs _ _ _) hk

theorem execSt_queue : QueueOut s.pending (execSt c t f s) := by
  refine issue_queue _ _ _ _ _ _ _ _ _ ?_
  have hk := (State.scalarAccess_frame s c t f true).1
  dsimp only
  split <;> rename_i e <;> simp only [e] at hk
  · trivial
  · exact access_queueIs (by simp [hk]) (State.startOp_queueIs _ _ _) hk

theorem execVst_queue : QueueOut s.pending (execVst c t f s) :=
  issue_queue _ _ _ _ _ _ _ _ _ (State.vecStore_queueIs _ _ _ _ _ _)

theorem execVsts_queue : QueueOut s.pending (execVsts c t f s) := by
  refine issue_queue _ _ _ _ _ _ _ _ _ ?_
  extract_lets +onlyGivenNames base stride els
  split
  · trivial
  · exact State.vecStore_queueIs _ _ _ _ _ _

theorem readVldt_queue (ue : List FInfo) : QueueOut s.pending (readVldt ue c t f s) := by
  refine issueUe_queue _ _ _ _ _ _ _ _ _ _ ?_
  extract_lets +onlyGivenNames w row part els
  (repeat' split) <;> simp

theorem readSopen_queue (ue : List FInfo) : QueueOut s.pending (readSopen ue c t f s) := by
  refine issueUe_queue _ _ _ _ _ _ _ _ _ _ ?_
  extract_lets +onlyGivenNames off q
  split
  · trivial
  · extract_lets +onlyGivenNames _ st st' limit
    split <;> simp

theorem execSwr_queue : QueueOut s.pending (execSwr c t f s) := by
  refine issue_queue _ _ _ _ _ _ _ _ _ ?_
  extract_lets +onlyGivenNames q st
  split
  · trivial
  · split
    · simp
    · have hk := (State.writeKeys_frame s c st (st.chunkEls st.written)).1
      split <;> rename_i e <;> simp only [e] at hk
      · trivial
      · simp [hk]

theorem sender_queue (op kind : Nat) : QueueOut s.pending (sender op kind c t f s) :=
  issue_queue _ _ _ _ _ _ _ _ _ (by split <;> simp)

/-- The instructions of classes 0, 2 and 5 and VCVT whose effect is one of a few branches (03 R121, R131, R135, 04 R172). -/
theorem branchingInstructions_queue : ∀ i ∈ [Instr.end_ c t f, .sig c t f, .fence c t f, .mdrain c t f, .vcvt c t f],
    QueueOut s.pending (exec i s) := by
  simp only [List.forall_mem_cons, List.not_mem_nil, false_imp_iff, implies_true, and_true]
  and_intros <;> (unfold exec; refine issue_queue _ _ _ _ _ _ _ _ _ ?_; (repeat' split) <;> simp)

/-- Those on handles, streams, tiles and counters, whose branches ask about what the register or the counter holds. -/
theorem heldInstructions_queue : ∀ i ∈ [Instr.tset c t f, .vstt c t f, .sclose c t f, .srd c t f, .waitc c t f, .bwait c t f,
    .mldp c t f, .vtake c t f, .vrel c t f], QueueOut s.pending (exec i s) := by
  simp only [List.forall_mem_cons, List.not_mem_nil, false_imp_iff, implies_true, and_true]
  and_intros <;> (unfold exec; refine issue_queue _ _ _ _ _ _ _ _ _ ?_; dsimp only; (repeat' split) <;> simp)

/-! ### Class 2: the matrix engine -/

theorem execMxm_queue : QueueOut s.pending (execMxm c t f s) := by
  refine issue_queue _ _ _ _ _ _ _ _ _ ?_
  split
  · trivial
  · split
    · simp
    · have hk := (State.predict_frame s c f).1
      extract_lets +onlyGivenNames os ta tb k
      split
      rename_i e
      simp only [e] at hk
      extract_lets +onlyGivenNames claimed fixedA fixed x credited
      have hc : claimed.pending = s.pending := by simp [claimed, hk]
      have hx : fixed.pending = claimed.pending := by
        simp only [fixed, fixedA]
        split <;> simp
      simpa -implicitDefEqProofs [credited, hx] using hc

theorem execMdrop_queue : QueueOut s.pending (execMdrop c t f s) := by
  refine issue_queue _ _ _ _ _ _ _ _ _ ?_
  extract_lets +onlyGivenNames w
  split
  · trivial
  · split
    · simp
    · simp only [Eff.go_queueIs]
      split <;> simp

/-! ### Class 3: sampling, gathers, base commands, lookups -/

theorem State.travEnd_queueIs (dst word : Nat) (cells : List (Nat × Byte)) {tr : Trav} (h : tr.s.pending = s.pending) :
    (State.travEnd c t dst word cells tr).QueueIs s.pending := by
  unfold State.travEnd
  dsimp only
  split <;> simp [h]

theorem sampling_queue (op : Nat) {run : Samp → TravM SampRes}
    (hr : ∀ i, TravKeeps (fun u s => u.m.mem = s.m.mem ∧ u.pending = s.pending) (run i)) :
    QueueOut s.pending (sampling op run c t f s) := by
  unfold sampling readSampling
  refine issueUe_queue _ _ _ _ _ _ _ _ _ _ ?_
  extract_lets +onlyGivenNames i
  generalize sampFaults op i = fs
  cases fs with
  | cons => trivial
  | nil =>
    have hm := (hr i ⟨s, [], 0⟩).2
    dsimp only
    split <;> rename_i e <;> rw [e] at hm
    · trivial
    · exact State.travEnd_queueIs _ _ _ _ _ hm
    · exact State.travEnd_queueIs _ _ _ _ _ hm

theorem readGathl_queue (ue : List FInfo) : QueueOut s.pending (readGathl ue c t f s) := by
  unfold readGathl
  refine issueUe_queue _ _ _ _ _ _ _ _ _ _ ?_
  extract_lets +onlyGivenNames g
  split
  · trivial
  · extract_lets idx
    have hk := (State.gathKeys_frame s c g idx).1
    split <;> rename_i e <;> simp only [e] at hk <;> simp [hk]

theorem execVscat_queue : QueueOut s.pending (execVscat c t f s) := by
  refine issue_queue _ _ _ _ _ _ _ _ _ ?_
  have hk := (State.vecKeys_frame s c (spaceOf f) (typeOf f) true (s.gathEls c t f)).1
  dsimp only
  split <;> rename_i e <;> simp only [e] at hk
  · trivial
  · exact access_queueIs (by simp [hk]) (State.startOp_queueIs _ _ _) hk

theorem readBcmd_queue (ue : List FInfo) : QueueOut s.pending (readBcmd ue c t f s) := by
  refine issueUe_queue _ _ _ _ _ _ _ _ _ _ ?_
  extract_lets +onlyGivenNames off own
  split
  · trivial
  · extract_lets hdr
    (repeat' split) <;> simp

theorem readBsplit_queue (ue : List FInfo) : QueueOut s.pending (readBsplit ue c t f s) := by
  refine issueUe_queue _ _ _ _ _ _ _ _ _ _ ?_
  extract_lets +onlyGivenNames out inp cw n b q cnt
  split
  · trivial
  · extract_lets +onlyGivenNames splits
    split <;> simp

theorem readBsort_queue (ue : List FInfo) : QueueOut s.pending (readBsort ue c t f s) := by
  refine issueUe_queue _ _ _ _ _ _ _ _ _ _ ?_
  extract_lets +onlyGivenNames out inp cw n ndst uniq inOk rs ends wOff eOff
  split
  · trivial
  · split <;> simp

theorem readEsort_queue (ue : List FInfo) : QueueOut s.pending (readEsort ue c t f s) := by
  refine issueUe_queue _ _ _ _ _ _ _ _ _ _ ?_
  extract_lets +onlyGivenNames out inp cw n key run rs k sorted tail ends
  split <;> simp

theorem readEres_queue (ue : List FInfo) : QueueOut s.pending (readEres ue c t f s) := by
  unfold readEres
  extract_lets +onlyGivenNames n
  refine issueUe_queue _ _ _ _ _ _ _ _ _ _ ?_
  extract_lets +onlyGivenNames cw i
  split
  · trivial
  · have hd := (eresDesc_keeps travRel_mem i ⟨s, [], 0⟩).2
    extract_lets +onlyGivenNames list
    split <;> rename_i e <;> rw [e] at hd
    · trivial
    · simpa [State.eresEnd] using hd
    · extract_lets +onlyGivenNames one
      have hone : ∀ j r, TravKeeps (fun u s => u.m.mem = s.m.mem ∧ u.pending = s.pending) (one j r) := by
        intro j r
        simp only [one]
        split
        · exact resolveServe_keeps travRel_mem _ _ _ _
        · split
          · exact resolveReq_keeps travRel_mem _ _ _ _
          · exact .endWith travRel_mem _
      rename_i d tr
      have ha := (resolveAll_keeps travRel_mem hone list tr).2
      split
      rename_i er
      rw [er] at ha
      extract_lets +onlyGivenNames tr'
      have ht : tr'.s.pending = s.pending := by
        simp only [tr']
        split <;> simp_all
      extract_lets +onlyGivenNames cells
      split
      · simp [ht]
      · simpa [State.eresEnd] using ht

end Sys2Proof.Machine
end

section
/-! PROOF. What happens beside a core's instructions, on the die and in the fabric (01 to 15), leaves the queue as it is. -/

namespace Sys2Proof.Machine

variable {s : State}

/-! ### The matrix engine, base commands and the memory stacks (04, 08, 09) -/

/-- The commands of a core that fail-safe stops and whose effect is one of a few branches (01 R27, 04 R157, R177). -/
theorem stoppableCoreEvents_queue (c : Fin 800) (q : Fin 16) (plane : Fin 2) (id : Nat) : ∀ i ∈ [Instr.streamFetch c q,
    .chunkLand c q, .berthReturn c id, .mxmStart c, .bargePost c, .arrayFault c, .planeReady c plane, .planeFree c plane, .mxmFinish c,
    .poolGroupIssue c q], QueueOut s.pending (exec i s) := by
  simp only [List.forall_mem_cons, List.not_mem_nil, false_imp_iff, implies_true, and_true]
  and_intros <;> (unfold exec; refine unlessStopped_queue ?_; (try dsimp only); (repeat' split) <;> simp)

/-- Those of a stack (08 R283, R284, 09 R322, 16 R549). -/
theorem stoppableStackEvents_queue (st : Fin 8) (id : Nat) (addr : BitVec 36) (errs : List SymErr) :
    ∀ i ∈ [Instr.commandCompletion st id, .patrolScrub st addr errs, .sweepRewrite st], QueueOut s.pending (exec i s) := by
  simp only [List.forall_mem_cons, List.not_mem_nil, false_imp_iff, implies_true, and_true]
  and_intros <;> (unfold exec; refine unlessStopped_queue ?_; (try dsimp only); (repeat' split) <;> simp)

theorem baseEngineCommands_queue (st : Fin 8) (id : Nat) : ∀ i ∈ [Instr.gather st id, .pool st id, .scatterAdd st id,
    .rowUpdate st id], QueueOut s.pending (exec i s) := by
  simp only [List.forall_mem_cons, List.not_mem_nil, false_imp_iff, implies_true, and_true]
  and_intros <;> (unfold exec; exact runCmd_queue _ _ _ _ (fun _ _ _ => by simp))

theorem State.sendToks_queue {α : Type} (l : List α) (tok : α → Word) (s : State) :
    (l.foldl (fun u a => u.sendTok (tok a)) s).pending = s.pending := by
  simp

theorem execFeederCreditReturn_queue (c : Fin 800) (q : Fin 16) : QueueOut s.pending (execFeederCreditReturn c q s) := by
  unfold execFeederCreditReturn
  refine unlessStopped_queue ?_
  extract_lets +onlyGivenNames st
  split
  · extract_lets u
    have hu : u.pending = s.pending := State.sendToks_queue _ _ _
    simpa using hu
  · simp

theorem bankCommands_queue (st : Fin 8) (pc : Fin 64) (bank : Fin 32) : ∀ i ∈ [Instr.bankRefresh st pc bank, .rowClose st pc bank],
    QueueOut s.pending (exec i s) := by
  simp only [List.forall_mem_cons, List.not_mem_nil, false_imp_iff, implies_true, and_true]
  unfold exec execBankRefresh execRowClose
  dsimp only
  and_intros <;> (split <;> simp)

theorem execArbiterRound_queue (inst : Fin 1824) (errs : List SymErr) : QueueOut s.pending (execArbiterRound inst errs s) := by
  unfold execArbiterRound
  (repeat' split) <;> simp

theorem execArbCommit_queue (inst : Fin 1824) : QueueOut s.pending (execArbCommit inst s) := by
  unfold execArbCommit
  dsimp only
  split
  · simp
  · simpa using unlessStopped_queue (s := s.asked) (by simp)

/-! ### Tokens and tasks (01, 03, 20) -/

theorem countedArrivals_queue (tok : Word) : ∀ i ∈ [Instr.tokenCreditReturn tok, .barrierArrive tok, .barrierRelease tok],
    QueueOut s.pending (exec i s) := by
  simp only [List.forall_mem_cons, List.not_mem_nil, false_imp_iff, implies_true, and_true]
  and_intros <;> (unfold exec; refine arrive_queue _ _ _ (fun u => ?_); split <;> simp)

theorem execControlWrite_queue (tok : Word) (target : CtlTarget) : QueueOut s.pending (execControlWrite tok target s) :=
  arrive_queue _ _ _ (fun _ => by (repeat' split) <;> simp)

theorem execReadReply_queue (tok : Word) : QueueOut s.pending (execReadReply tok s) :=
  arrive_queue _ _ _ (fun _ => by simp)

theorem execFaultRecordNotice_queue (tok : Word) : QueueOut s.pending (execFaultRecordNotice tok s) :=
  arrive_queue _ _ _ (fun _ => by dsimp only; split <;> simp)

/-- A read that is shown and answered by a token leaves the queue as it is. -/
theorem State.answerTok_queue (b : List Byte) (tok : List Byte → Word) :
    (have d := b; have u := s.answer (.data d); u.sendTok (tok d)).pending = s.pending := by
  simp

theorem execControlRead_queue (tok : Word) (target : CtlTarget) : QueueOut s.pending (execControlRead tok target s) := by
  unfold execControlRead
  exact arrive_queue _ _ _ (fun u => State.answerTok_queue _ (fun b => mkTok 6 (tokSrcNode tok) (tokSrcSub tok)
    (tokDstNode tok) (tokDstSub tok) (tokChannel tok) (leNat b)))

theorem execTokenSignal_queue (tok : Word) : QueueOut s.pending (execTokenSignal tok s) := by
  unfold execTokenSignal
  split
  · simp
  · exact arrive_queue _ _ _ (fun u => by split <;> simp)

theorem doorbells_queue (tok : Word) : ∀ i ∈ [Instr.contributionDoorbell tok, .exchangeDoorbell tok],
    QueueOut s.pending (exec i s) := by
  simp only [List.forall_mem_cons, List.not_mem_nil, false_imp_iff, implies_true, and_true]
  and_intros <;>
    (unfold exec
     refine doorbell_queue _ _ _ _ _ (fun u p sec i => by simp) (fun u p sec d => ?_)
     (repeat' split) <;> simp)

theorem execTaskHalt_queue (c : Fin 800) : QueueOut s.pending (execTaskHalt c s) := by
  unfold execTaskHalt
  dsimp only
  split
  · simp
  · simpa using unlessStopped_queue (s := s.asked) (by simp)

theorem execTaskStart_queue (c : Fin 800) : QueueOut s.pending (execTaskStart c s) := by
  unfold execTaskStart
  dsimp only
  (repeat' split) <;> simp

theorem execTokenChannelOpen_queue (c : Fin 800) (ch : Fin 64) (value : Word) :
    QueueOut s.pending (execTokenChannelOpen c ch value s) := by
  unfold execTokenChannelOpen
  dsimp only
  (repeat' split) <;> simp

/-! ### Frames of the fabric (11, 12) -/

theorem collectiveFrames_queue (lam : Fin 256) (frame : List Byte) : ∀ i ∈ [Instr.collectiveLeaf lam frame,
    .collectivePartial lam frame, .lateMarker lam frame, .gatherFlight lam frame, .gatherReach lam frame],
    QueueOut s.pending (exec i s) := by
  simp only [List.forall_mem_cons, List.not_mem_nil, false_imp_iff, implies_true, and_true]
  and_intros <;> (unfold exec; exact collRow_queue _ _ _)

theorem partFrames_queue (lam : Fin 256) (frame : List Byte) : ∀ i ∈ [Instr.tokenFrame lam frame, .coachSegment lam frame,
    .snapshotData lam frame, .snapshotAck (.lambda lam frame), .snapshotRefusal (.lambda lam frame), .migrationRecord lam frame],
    QueueOut s.pending (exec i s) := by
  simp only [List.forall_mem_cons, List.not_mem_nil, false_imp_iff, implies_true, and_true]
  and_intros <;>
    (unfold exec; refine receivePart_queue _ _ _ _ _ _ (fun u p d => ?_); (try dsimp only); (repeat' split) <;> simp)

theorem snapshotMessages_queue (via : Via) : ∀ i ∈ [Instr.snapshotAck via, .snapshotRefusal via], QueueOut s.pending (exec i s) := by
  cases via with
  | own => simp [exec, execSnapshotAck, execSnapshotRefusal]
  | lambda lam frame => exact fun i hi => partFrames_queue lam frame i (by simp at hi; rcases hi with rfl | rfl <;> simp)

theorem managementFrames_queue (lam : Fin 256) (frame : List Byte) : ∀ i ∈ [Instr.idleFrame lam frame, .linkstate lam frame,
    .linkquery lam frame, .linkreply lam frame], QueueOut s.pending (exec i s) := by
  simp only [List.forall_mem_cons, List.not_mem_nil, false_imp_iff, implies_true, and_true]
  and_intros <;> (unfold exec; refine receive_queue _ _ _ _ _ (fun u p d => ?_); (repeat' split) <;> simp)

theorem execHello_queue (lam : Fin 256) (frame : List Byte) : QueueOut s.pending (execHello lam frame s) := by
  unfold execHello
  dsimp only
  split
  · simp
  · split
    · simp
    · split
      · exact receive_queue _ _ _ _ _ (fun u p d => by simp)
      · split <;> simp

theorem lambdaCommands_queue (lam : Fin 256) (frame : List Byte) : ∀ i ∈ [Instr.creditIdleSend lam, .frameForward lam frame,
    .bounceResend lam frame, .retransmit lam, .lambdaRetrain lam, .lambdaDown lam], QueueOut s.pending (exec i s) := by
  simp only [List.forall_mem_cons, List.not_mem_nil, false_imp_iff, implies_true, and_true]
  unfold exec execCreditIdleSend execFrameForward execBounceResend execRetransmit execLambdaRetrain execLambdaDown
  dsimp only
  and_intros <;> ((repeat' split) <;> simp)

theorem execFrameCrcError_queue (lam : Fin 256) (frame : FecFrame) : QueueOut s.pending (execFrameCrcError lam frame s) := by
  unfold execFrameCrcError
  dsimp only
  (repeat' split) <;> simp

theorem execLambdaUp_queue (lam : LamSeq) : QueueOut s.pending (execLambdaUp lam s) := by
  unfold execLambdaUp
  dsimp only
  (repeat' split) <;> simp

theorem execUnreachable_queue (dst : Nat) : QueueOut s.pending (execUnreachable dst s) := by
  unfold execUnreachable
  dsimp only
  split
  · simp
  · rw [queueOut_next, foldl_pending, foldl_pending, foldl_pending]
    all_goals simp

/-! ### Lasers and ports (11) -/

theorem execFabricBringUp_queue (light : BitVec 256) (lasers : BitVec 128) :
    QueueOut s.pending (execFabricBringUp light lasers s) := by
  unfold execFabricBringUp
  extract_lets +onlyGivenNames s0
  have h0 : s0.pending = s.pending := by simp [s0]
  clear_value s0
  split
  · simp [h0]
  · split
    · simp [h0]
    · extract_lets +onlyGivenNames unplaced fab powered miss lit dark
      have hp : powered.pending = s.pending := by simp only [powered, unplaced, State.forgetPosition_frame, h0]
      clear_value powered
      have hl : lit.pending = s.pending := by simp [lit, hp]
      clear_value lit
      split
      · simp [hl]
      · extract_lets +onlyGivenNames arbs helloed
        have ha : arbs.pending = lit.pending := foldl_pending _ _ _ (fun u n => foldl_pending _ _ _ (fun _ _ => rfl))
        have hh : helloed.pending = s.pending := by simp [helloed, ha, hl]
        clear_value helloed
        split
        · extract_lets +onlyGivenNames placed looped
          simp [looped, placed, hh]
        · extract_lets +onlyGivenNames bad
          have hb : ∀ plane l (u : State), (bad plane l u).pending = u.pending := by
            intro plane l u
            simp only [bad]
            split <;> simp
          rw [queueOut_next, hb, hb, hh]

theorem execUseA_queue (e : Fin 8) (aOk : Bool) : QueueOut s.pending (execUseA e aOk s) := by
  unfold execUseA
  dsimp only
  split
  · simp
  · simpa using unlessStopped_queue (s := s.asked) (by simp)

theorem stoppableLightCommands_queue (e : Fin 8) (bOk : Bool) (missA missB : BitVec 8) : ∀ i ∈ [Instr.laserSwitch e bOk,
    .laserSupply e missA missB, .linkstateSend], QueueOut s.pending (exec i s) := by
  simp only [List.forall_mem_cons, List.not_mem_nil, false_imp_iff, implies_true, and_true]
  and_intros <;> (unfold exec; refine unlessStopped_queue ?_; (repeat' split) <;> simp)

theorem execShutterProbe_queue (n : Fin 32) : QueueOut s.pending (execShutterProbe n s) :=
  unlessStopped_queue (by split <;> simp)

theorem portCommands_queue (n : Fin 32) : ∀ i ∈ [Instr.portShutter n, .portOpen n], QueueOut s.pending (exec i s) := by
  simp only [List.forall_mem_cons, List.not_mem_nil, false_imp_iff, implies_true, and_true]
  unfold exec execPortShutter execPortOpen
  dsimp only
  and_intros <;> (split <;> simp)

theorem execLaserEnableDrop_queue (d : LaserDrop) : QueueOut s.pending (execLaserEnableDrop d s) := by
  unfold execLaserEnableDrop
  split <;> simp

/-! ### The step and its messages (12 to 15) -/

theorem stepCommands_queue (p : Fin 8) : ∀ i ∈ [Instr.stragglerWindowClose p, .voteSend p, .appliedSend p, .holdEnter p,
    .phaseStart p, .serveHeadTimer p], QueueOut s.pending (exec i s) := by
  simp only [List.forall_mem_cons, List.not_mem_nil, false_imp_iff, implies_true, and_true]
  and_intros <;> (unfold exec; refine unlessStopped_queue ?_; (try dsimp only); (repeat' split) <;> simp)

theorem spanCommands_queue (p g : Fin 8) (slot bucket span : Nat) : ∀ i ∈ [Instr.spanUpdate g p slot bucket span,
    .hubSpanUpdate p slot bucket span], QueueOut s.pending (exec i s) := by
  simp only [List.forall_mem_cons, List.not_mem_nil, false_imp_iff, implies_true, and_true]
  and_intros <;> (unfold exec; refine unlessStopped_queue ?_; split <;> simp)

theorem messages_queue (via : Via) : ∀ i ∈ [Instr.vote via, .groupVote via, .verdict via, .applied via, .groupApplied via,
    .commit via, .rollback via, .abort via, .resolve via, .stateMsg via], QueueOut s.pending (exec i s) := by
  simp only [List.forall_mem_cons, List.not_mem_nil, false_imp_iff, implies_true, and_true]
  and_intros <;> (unfold exec; refine msgRow_queue _ _ _ (fun u p src d => ?_); dsimp only; (repeat' split) <;> simp)

theorem execRiskEval_queue (tj : Nat) (sramCe : List SramFix) : QueueOut s.pending (execRiskEval tj sramCe s) := by
  unfold execRiskEval
  split
  · simp
  · extract_lets +onlyGivenNames fixed dark brown t0 t1 t2 t3 t4 t5 t6 score shown dwell hist _ u
    have hu : u.pending = s.pending := by simp [u, shown, fixed]
    split <;> simp [hu]

theorem execDrainStart_queue : QueueOut s.pending (execDrainStart s) := by
  unfold execDrainStart
  dsimp only
  (repeat' split) <;> simp

end Sys2Proof.Machine
end

section
/-! PROOF. The commands of the host, of boot, errors and power (14 to 21) leave the queue as it is. -/

namespace Sys2Proof.Machine

variable {s : State}

/-! ### Host commands: partitions and memory (16, 17) -/

theorem partitionCommands_queue (cmd : HostCmd) : ∀ i ∈ [Instr.partCreate cmd, .partFence cmd, .partTeardown cmd, .partQuery cmd,
    .apertureSet cmd], QueueOut s.pending (exec i s) := by
  simp only [List.forall_mem_cons, List.not_mem_nil, false_imp_iff, implies_true, and_true]
  and_intros <;> (unfold exec; refine hostRow_queue _ _ _ (fun x => ?_); (try dsimp only); (repeat' split) <;> simp)

/-- What a unit of a transfer does leaves the queue as it is, whether it succeeds or fails. -/
def UnitQueue (f : Nat → Nat → State → Option State × State) : Prop :=
  ∀ (va k : Nat) (u : State), (∀ v, (f va k u).1 = some v → v.pending = u.pending) ∧ (f va k u).2.pending = u.pending

theorem State.units_queue (p : Nat) (write : Bool) {f : Nat → Nat → State → Option State × State} (hf : UnitQueue f)
    (n va : Nat) (s : State) : (State.units p write f n va s).2.pending = s.pending := by
  induction n generalizing va s with
  | zero => rfl
  | succ n ih =>
    have ht : (s.walkSeen 7 p va 64).pending = s.pending := by simp
    rw [State.units, ← ht]
    generalize s.walkSeen 7 p va 64 = t
    split
    · rfl
    · split
      · split
        · rfl
        · next k w _ _ =>
          obtain ⟨hgo, hstop⟩ := hf va k t
          split <;> rename_i e <;> rw [e] at hgo hstop
          · exact (ih _ _).trans (hgo _ rfl)
          · exact hstop
      · rfl

theorem unitReply_queueIs {q : List Instr} (n : Nat) {r : MRes × State} (h : r.2.pending = q) : (unitReply n r).QueueIs q := by
  obtain ⟨_ | _ | _, u⟩ := r <;> simpa [unitReply] using h

theorem memWriteUnit_queue (c : HostCmd) (p : Nat) : UnitQueue (memWriteUnit c p) :=
  fun va k u => ⟨by simp [memWriteUnit], by simp [memWriteUnit]⟩

theorem memFillUnit_queue (c : HostCmd) (p : Nat) : UnitQueue (memFillUnit c p) :=
  fun va k u => ⟨by simp [memFillUnit], by simp [memFillUnit]⟩

theorem memReadUnit_queue (c : HostCmd) : UnitQueue (memReadUnit c) := by
  refine fun va k u => ⟨?_, by simp⟩
  have hr := (State.readKeys_frame u 7 (seqKeys k 64)).1
  unfold memReadUnit
  split <;> rename_i e <;> simp only [e] at hr
  · simp [hr]
  · simp

theorem transferCommands_queue (cmd : HostCmd) : ∀ i ∈ [Instr.memWrite cmd, .memRead cmd, .memFill cmd],
    QueueOut s.pending (exec i s) := by
  simp only [List.forall_mem_cons, List.not_mem_nil, false_imp_iff, implies_true, and_true]
  and_intros <;>
    (unfold exec
     refine hostRow_queue _ _ _ (fun x => ?_)
     extract_lets +onlyGivenNames va n
     split
     · simp
     · split
       · simp
       · split
         · simp
         · refine unitReply_queueIs _ (State.units_queue _ _ ?_ _ _ _)
           simp only [memWriteUnit_queue, memReadUnit_queue, memFillUnit_queue])

theorem State.faultAt_queueIs (p va : Nat) : (s.faultAt p va).QueueIs s.pending := by
  unfold State.faultAt
  dsimp only
  split <;> simp

theorem execPtSet_queue (cmd : HostCmd) : QueueOut s.pending (execPtSet cmd s) := by
  refine boundaryRow_queue _ _ _ _ (fun p r e => ?_) (fun d p => (State.applyCmd_frame s d p).1)
  (repeat' split at e) <;> simp only [Option.some.injEq, reduceCtorEq] at e <;> simp [← e]

theorem execDegreeBin_queue (cmd : HostCmd) : QueueOut s.pending (execDegreeBin cmd s) := by
  unfold execDegreeBin
  refine hostRow_queue _ _ _ (fun x => ?_)
  extract_lets +onlyGivenNames a n o f
  split
  · simp
  · split
    · simp
    · split
      · simp
      · split
        · exact State.faultAt_queueIs _ _
        · exact State.faultAt_queueIs _ _
        · exact State.faultAt_queueIs _ _
        · have hr := (State.hubRead_frame s 7 (cPart cmd) a (16 * n)).1
          split <;> rename_i e <;> simp only [e] at hr
          · simp [hr]
          · next b u =>
            extract_lets +onlyGivenNames w l
            split
            · simp [hr]
            · split
              next ids offs _ =>
              have hi := (State.hubWrite_frame u 7 (cPart cmd) o ids).1
              split <;> rename_i e <;> simp only [e] at hi
              · simp [hi, hr]
              · next u =>
                have ho := (State.hubWrite_frame u 7 (cPart cmd) f offs).1
                split <;> rename_i e <;> simp only [e] at ho <;> simp [ho, hi, hr]

/-! ### Host commands: jobs, tables and checkpoints (14, 15) -/

theorem execJobLoad_queue (cmd : HostCmd) : QueueOut s.pending (execJobLoad cmd s) := by
  unfold execJobLoad
  refine hostRow_queue _ _ _ (fun x => ?_)
  extract_lets +onlyGivenNames b n
  split
  · simp
  · split
    · simp
    · extract_lets +onlyGivenNames fresh
      have hl : (fresh.loadItems (cPart cmd) (piecesOf 32 n (b.drop 64))).2.pending = s.pending := by simp [fresh]
      split <;> rename_i e <;> rw [e] at hl
      · dsimp only at hl ⊢
        (repeat' split) <;> simp [hl]
      · split <;> simpa using hl

theorem needsStarted_queueIs (p : Nat) {r : HRes} (e : needsStarted p s = some r) : r.QueueIs s.pending := by
  unfold needsStarted at e
  split at e <;> simp only [Option.some.injEq, reduceCtorEq] at e
  simp [← e]

theorem execJobStop_queue (cmd : HostCmd) : QueueOut s.pending (execJobStop cmd s) :=
  boundaryRow_queue _ _ _ _ (fun p _ e => needsStarted_queueIs p e) (fun _ p => (State.stopJob_frame s p).1)

theorem execHotRefresh_queue (cmd : HostCmd) : QueueOut s.pending (execHotRefresh cmd s) :=
  boundaryRow_queue _ _ _ _ (fun p _ e => needsStarted_queueIs p e) (fun d p => (State.applyCmd_frame s d p).1)

theorem execTableReplace_queue (cmd : HostCmd) : QueueOut s.pending (execTableReplace cmd s) := by
  refine boundaryRow_queue _ _ _ _ (fun p r e => ?_) (fun d p => (State.applyCmd_frame s d p).1)
  split at e <;> simp only [Option.some.injEq, reduceCtorEq] at e
  simp [← e]

theorem jobCommands_queue (cmd : HostCmd) : ∀ i ∈ [Instr.jobResume cmd, .stepRun cmd, .ledgerRead cmd, .ckptBuffers cmd,
    .ckptRestore cmd, .drain cmd], QueueOut s.pending (exec i s) := by
  simp only [List.forall_mem_cons, List.not_mem_nil, false_imp_iff, implies_true, and_true]
  and_intros <;> (unfold exec; refine hostRow_queue _ _ _ (fun x => ?_); (try dsimp only); (repeat' split) <;> simp)

theorem State.serveStart_queueIs (p : Nat) (c : HostCmd) : (s.serveStart p c).QueueIs s.pending := by
  unfold State.serveStart
  split
  · exact State.faultAt_queueIs _ _
  · split <;> simp

theorem State.serveEnd_queueIs (p : Nat) (c : HostCmd) : (s.serveEnd p c).QueueIs s.pending := by
  unfold State.serveEnd
  have hf := (State.free_frame s 32).1
  split
  next n u e =>
  simp only [e] at hf
  rw [← hf]
  split
  · exact State.faultAt_queueIs _ _
  · exact State.faultAt_queueIs _ _
  · extract_lets +onlyGivenNames j i seen req rep written done
    have hw : written.pending = u.pending := by simp [written, seen]
    clear_value written
    simp [done, hw]

theorem execServeBatch_queue (cmd : HostCmd) : QueueOut s.pending (execServeBatch cmd s) := by
  unfold execServeBatch
  refine hostRow_queue _ _ _ (fun x => ?_)
  extract_lets +onlyGivenNames j
  (repeat' split) <;> simp [State.serveEnd_queueIs, State.serveStart_queueIs]

theorem State.redistNo_queueIs (p source step : Nat) (l : List Nat) {r : HRes} (e : s.redistNo p source step l = some r) :
    r.QueueIs s.pending := by
  unfold State.redistNo at e
  (repeat' split at e) <;> simp only [Option.some.injEq, reduceCtorEq] at e <;> simp [← e]

theorem execRedistribute_queue (cmd : HostCmd) : QueueOut s.pending (execRedistribute cmd s) := by
  unfold execRedistribute
  refine hostRow_queue _ _ _ (fun x => ?_)
  extract_lets +onlyGivenNames j source step l
  split
  · simp
  · split
    · simp
    · split
      · simp
      · split
        · next r e => exact State.redistNo_queueIs _ _ _ _ e
        · extract_lets +onlyGivenNames mapped
          have hm : mapped.pending = s.pending := by simp [mapped]
          clear_value mapped
          (repeat' split) <;> simp [hm]

/-! ### Host commands: keys, identity, debug and power (16, 18, 19) -/

theorem keyCommands_queue (cmd : HostCmd) : ∀ i ∈ [Instr.quote cmd, .kemRead cmd, .kemRefresh cmd, .keyOpen cmd, .keyRotate cmd,
    .identRead cmd, .svnCommit cmd], QueueOut s.pending (exec i s) := by
  simp only [List.forall_mem_cons, List.not_mem_nil, false_imp_iff, implies_true, and_true]
  and_intros <;> (unfold exec; refine hostRow_queue _ _ _ (fun x => ?_); (try dsimp only); (repeat' split) <;> simp)

theorem execKeyInstall_queue (cmd : HostCmd) : QueueOut s.pending (execKeyInstall cmd s) :=
  hostRow_queue _ _ _ (fun x => by dsimp only; (repeat' split) <;> simp)

theorem identityCommands_queue (cmd : HostCmd) : ∀ i ∈ [Instr.otpProgram cmd, .debugAttach cmd, .debugDetach cmd, .ideKmPf0 cmd,
    .errRing cmd, .selfTest cmd, .echo cmd], QueueOut s.pending (exec i s) := by
  simp only [List.forall_mem_cons, List.not_mem_nil, false_imp_iff, implies_true, and_true]
  and_intros <;> (unfold exec; refine hostRow_queue _ _ _ (fun x => ?_); (try dsimp only); (repeat' split) <;> simp)

theorem execDumpRead_queue (cmd : HostCmd) : QueueOut s.pending (execDumpRead cmd s) := by
  unfold execDumpRead
  refine hostRow_queue _ _ _ (fun x => ?_)
  extract_lets +onlyGivenNames i
  clear_value i
  split
  · simp
  · extract_lets +onlyGivenNames n
    clear_value n
    split <;> simp

theorem powerCommands_queue (cmd : HostCmd) : ∀ i ∈ [Instr.opPoint cmd, .idleCfg cmd, .moorEnable cmd],
    QueueOut s.pending (exec i s) := by
  simp only [List.forall_mem_cons, List.not_mem_nil, false_imp_iff, implies_true, and_true]
  and_intros <;> (unfold exec; refine hostRow_queue _ _ _ (fun x => ?_); (try dsimp only); (repeat' split) <;> simp)

theorem execPowerOff_queue (cmd : HostCmd) : QueueOut s.pending (execPowerOff cmd s) := by
  have hf : ∀ l : List Nat, (l.foldl (fun (u : State) p =>
      if u.partState p = ptFree then u else (u.fencePart p 2).dropHeld p) s).pending = s.pending :=
    fun l => foldl_pending _ _ _ (fun v p => by split <;> simp)
  unfold execPowerOff
  exact hostRow_queue _ _ _ (fun x => by simp [hf])

/-! ### Rings, registers and apertures (17, 20) -/

theorem ringCommands_queue (q : Requester) (ring : Fin 64) (value : BitVec 16) (ctrl : Word) :
    ∀ i ∈ [Instr.commandDoorbell q ring value, .completionDoorbell q ring value, .ringEnable q ring ctrl, .ringDisable q ring],
    QueueOut s.pending (exec i s) := by
  simp only [List.forall_mem_cons, List.not_mem_nil, false_imp_iff, implies_true, and_true]
  unfold exec execCommandDoorbell execCompletionDoorbell execRingEnable execRingDisable
  dsimp only
  and_intros <;> ((repeat' split) <;> simp)

theorem functionCommands_queue (fn : Fin 9) (ring : Fin 64) : ∀ i ∈ [Instr.coalTimerExpire fn ring, .functionLevelReset fn],
    QueueOut s.pending (exec i s) := by
  simp only [List.forall_mem_cons, List.not_mem_nil, false_imp_iff, implies_true, and_true]
  unfold exec execCoalTimerExpire execFunctionLevelReset
  dsimp only
  and_intros <;> ((repeat' split) <;> simp)

theorem execCommandFetch_queue (fn : Fin 9) (ring : RingFetch) : QueueOut s.pending (execCommandFetch fn ring s) := by
  unfold execCommandFetch
  split
  · simp
  · split
    · simp
    · extract_lets +onlyGivenNames p hd v x moved _ u st
      have hu : u.pending = s.pending := by simp [u, moved]
      split
      · split <;> simp [hu]
      · simp [hu]

theorem execApertureRead_queue (q : Requester) (offset : BitVec 28) (len : Nat) :
    QueueOut s.pending (execApertureRead q offset len s) := by
  unfold execApertureRead
  extract_lets +onlyGivenNames p u
  have hu : u.pending = s.pending := by simp [u]
  split
  · simp [hu]
  · split
    · simp [hu]
    · split
      · simp [hu]
      · have hr := (State.hubRead_frame u 7 p (u.apertureVa p offset.toNat) len).1
        split <;> rename_i e <;> simp only [e] at hr <;> simp [hr, hu]

theorem execApertureWrite_queue (q : Requester) (offset : BitVec 28) (data : List Byte) :
    QueueOut s.pending (execApertureWrite q offset data s) := by
  unfold execApertureWrite
  dsimp only
  (repeat' split) <;> simp

theorem execRegisterWrite_queue (q : Requester) (place : WriteTo) (value : Word) :
    QueueOut s.pending (execRegisterWrite q place value s) := by
  unfold execRegisterWrite
  (repeat' split) <;> simp

/-! ### Boot, logs and counters (16, 18, 20) -/

theorem bootCommands_queue (offset : Nat) (data : List Byte) (value : Word) : ∀ i ∈ [Instr.bootWindowWrite offset data,
    .bootGo value], QueueOut s.pending (exec i s) := by
  simp only [List.forall_mem_cons, List.not_mem_nil, false_imp_iff, implies_true, and_true]
  unfold exec execBootWindowWrite execBootGo
  dsimp only
  and_intros <;> ((repeat' split) <;> simp)

theorem partitionRequests_queue (q : Requester) (p : Fin 8) (value : Word) : ∀ i ∈ [Instr.partStart q p,
    .ledgerDrainedAck q p value], QueueOut s.pending (exec i s) := by
  simp only [List.forall_mem_cons, List.not_mem_nil, false_imp_iff, implies_true, and_true]
  unfold exec execPartStart execLedgerDrainedAck
  dsimp only
  and_intros <;> ((repeat' split) <;> simp)

theorem execFirmwareReady_queue : QueueOut s.pending (execFirmwareReady s) := by
  unfold execFirmwareReady
  split
  · have h1 := (State.free_frame s 8).1
    split
    rename_i o u e
    simp only [e] at h1
    have h2 := (State.free_frame u 8).1
    split
    rename_i e'
    simp only [e'] at h2
    simp [h1, h2]
  · simp

theorem execWorkingTreeBuild_queue : QueueOut s.pending (execWorkingTreeBuild s) := by
  unfold execWorkingTreeBuild
  split
  · simp
  · split
    · simp
    · extract_lets +onlyGivenNames burnt n
      have hf := (State.free_frame burnt 640).1
      split
      rename_i e
      simp only [e] at hf
      extract_lets +onlyGivenNames _ u marked last due
      have hl : last.pending = s.pending := by
        simp only [last, marked, u]
        split <;> simp [hf, burnt]
      simp [hl]

theorem logCommands_queue (value : BitVec 16) (index : Nat) : ∀ i ∈ [Instr.mirrorHeadWrite value, .mirrorCopy, .reportLog,
    .logWindowClose index, .clearLost, .cntFreeze, .cntUnfreeze, .cntClear], QueueOut s.pending (exec i s) := by
  simp only [List.forall_mem_cons, List.not_mem_nil, false_imp_iff, implies_true, and_true]
  unfold exec execMirrorHeadWrite execMirrorCopy execReportLog execLogWindowClose execClearLost execCntFreeze execCntUnfreeze
    execCntClear
  dsimp only
  and_intros <;> ((repeat' split) <;> simp)

/-! ### Errors and the debug port (18) -/

theorem errorCommands_queue (n : Fin 16) (die tj permille link : Nat) (rail : Fin 7) (code : Word) : ∀ i ∈ [Instr.fatalLatchClear n,
    .thermalWarn die tj, .thermalTrip die tj, .railFault rail permille, .undervoltageWarning rail permille, .refclkLoss, .hubWatchdog,
    .hubFwFault code, .secFault code, .linkUe link], QueueOut s.pending (exec i s) := by
  simp only [List.forall_mem_cons, List.not_mem_nil, false_imp_iff, implies_true, and_true]
  unfold exec execFatalLatchClear execThermalWarn execThermalTrip execRailFault execUndervoltageWarning execRefclkLoss execHubWatchdog
    execHubFwFault execSecFault execLinkUe
  dsimp only
  and_intros <;> ((repeat' split) <;> simp)

theorem State.coreUe_queue (core offset : Nat) (loc : SramLoc) (by_ : State → Option State)
    (hb : ∀ t u, by_ t = some u → u.pending = t.pending) : (s.coreUe core offset loc by_).pending = s.pending := by
  unfold State.coreUe
  dsimp only
  split
  · next e => simp [hb _ _ e]
  · simp
  · simp

/-- A reader that meets an uncorrectable error leaves the queue as it is. -/
theorem State.readerUe_queue {u : State} (c : Fin 800) (key offset : Nat) (x : Reading)
    (e : s.readerUe c key offset x = some u) : u.pending = s.pending :=
  (State.readerUe_frame s u c key offset x e).1

theorem execSramUe_queue (loc : SramLoc) : QueueOut s.pending (execSramUe loc s) := by
  unfold execSramUe
  split
  · simp
  · split
    · split <;> simp
    · cases loc with
      | program c o =>
        rw [queueOut_next]
        exact State.coreUe_queue _ _ _ _ (fun t u e => by simp at e; simp [← e])
      | own c o r x =>
        rw [queueOut_next]
        exact State.coreUe_queue _ _ _ _ (fun t u e => State.readerUe_queue _ _ _ _ e)
      | acc c o r x =>
        rw [queueOut_next]
        exact State.coreUe_queue _ _ _ _ (fun t u e => State.readerUe_queue _ _ _ _ e)
      | plane c pl o =>
        rw [queueOut_next]
        exact State.coreUe_queue _ _ _ _ (fun t u e => by simp at e)
      | shared cl o r =>
        dsimp only
        split
        · simp
        · next k x =>
          rw [queueOut_next]
          generalize e : State.readerUe _ _ _ _ _ = u
          cases u with
          | none => simp
          | some u => simp [State.readerUe_queue _ _ _ _ e]
        · simp
      | _ => simp

theorem execDumpWatchdog_queue : QueueOut s.pending (execDumpWatchdog s) := by
  unfold execDumpWatchdog
  split
  · have hf := (State.free_frame s 8).1
    split
    rename_i e
    simp only [e] at hf
    simp [hf]
  · simp

theorem execDebugFence_queue (act : DebugAct) : QueueOut s.pending (execDebugFence act s) := by
  unfold execDebugFence
  split
  · simp
  · extract_lets +onlyGivenNames may
    cases act with
    | fence p | halt c | resume c => dsimp only; split <;> simp
    | _ => simp

/-! ### Power and clocks (19, 21) -/

theorem execThrottleEval_queue (tj watts : Nat) : QueueOut s.pending (execThrottleEval tj watts s) := by
  unfold execThrottleEval
  split
  · simp
  · extract_lets +onlyGivenNames u cur
    have hu : u.pending = s.pending := by simp [u]
    dsimp only
    (repeat' split) <;> simp [hu]

theorem clockCommands_queue (island : Fin 58) : ∀ i ∈ [Instr.clockChange, .islandGate island, .islandUngate island, .standEntry,
    .moorEntry, .moorExit, .pcieInbandWake, .wakeTimerExpire, .padRelease, .aux0Edge], QueueOut s.pending (exec i s) := by
  simp only [List.forall_mem_cons, List.not_mem_nil, false_imp_iff, implies_true, and_true]
  unfold exec execClockChange execIslandGate execIslandUngate execStandEntry execMoorEntry execMoorExit execPcieInbandWake
    execWakeTimerExpire execPadRelease execAux0Edge
  dsimp only
  and_intros <;> ((repeat' split) <;> simp)

theorem resetCommands_queue : ∀ i ∈ [Instr.resetRelease, .brownoutAon, .mainLoss, .pwrGoodAssert],
    QueueOut s.pending (exec i s) := by
  simp only [List.forall_mem_cons, List.not_mem_nil, false_imp_iff, implies_true, and_true]
  unfold exec execResetRelease execBrownoutAon execMainLoss execPwrGoodAssert
  dsimp only
  and_intros <;> (split <;> simp)

theorem execPerstN_queue (asserted : Bool) : QueueOut s.pending (execPerstN asserted s) := by
  unfold execPerstN
  split <;> simp

theorem execAonPowerOn_queue (supply : AonSupply) : QueueOut s.pending (execAonPowerOn supply s) := by
  unfold execAonPowerOn
  split <;> simp

theorem execSmbusAddressMatch_queue (x : SmbMatch) : QueueOut s.pending (execSmbusAddressMatch x s) := by
  unfold execSmbusAddressMatch
  split <;> simp

theorem State.runHeld_queue (i : HeldReq) : QueueOut s.pending (s.runHeld i) := by
  cases i with
  | write q o n v => exact execRegisterWrite_queue q (.bar o n) v
  | openChannel c ch v => exact execTokenChannelOpen_queue c ch v
  | start q p => exact partitionRequests_queue q p 0 (.partStart q p) (by simp)
  | drained q p v => exact partitionRequests_queue q p v (.ledgerDrainedAck q p v) (by simp)
  | barRead q o n => exact execApertureRead_queue q o n
  | barWrite q o d => exact execApertureWrite_queue q o d
  | taskStart c => exact execTaskStart_queue c
  | taskHalt c => exact execTaskHalt_queue _
  | arbCommit i => exact execArbCommit_queue _
  | bringUp l a => exact execFabricBringUp_queue _ _
  | useA e a => exact execUseA_queue _ _

/-- The requests held during Stand run one after another; each leaves the queue as it is (19 R610). -/
theorem execStandExit_queue : QueueOut s.pending (execStandExit s) := by
  unfold execStandExit
  split
  · extract_lets +onlyGivenNames held woken
    have hw : woken.pending = s.pending := by simp [woken]
    refine List.foldlRecOn _ _ ?_ (fun r hr i _ => ?_)
    · simp [hw]
    · cases r with
      | next u => exact (queueOut_next _ u).1 hr ▸ State.runHeld_queue i
      | fault => exact hr
      | refused => exact hr
  · simp

/-! ### The management bus (21) -/

theorem busWrites_queue (x : SmbWrite) : ∀ i ∈ [Instr.smbArm x, .smbFence x, .smbPowerOff x, .smbPowerUp x],
    QueueOut s.pending (exec i s) := by
  simp only [List.forall_mem_cons, List.not_mem_nil, false_imp_iff, implies_true, and_true]
  and_intros <;> (unfold exec; exact State.smbWrite_queue _ _ _ _ _ (fun u => by simp))

theorem busReads_queue (x : SmbRead) : ∀ i ∈ [Instr.smbFailsafe x, .smbFatal x, .smbCause x, .smbWake x, .smbId x], QueueOut s.pending (exec i s) := by
  simp only [List.forall_mem_cons, List.not_mem_nil, false_imp_iff, implies_true, and_true]
  and_intros <;> (unfold exec; exact State.smbRead_queue _ _ _ _ (fun u => by simp))

theorem stateReads_queue (x : SmbRead) : ∀ i ∈ [Instr.smbTj x, .smbState x], QueueOut s.pending (exec i s) := by
  simp only [List.forall_mem_cons, List.not_mem_nil, false_imp_iff, implies_true, and_true]
  unfold exec execSmbTj execSmbState
  dsimp only
  and_intros <;> (refine State.smbRead_queue _ _ _ _ (fun u => ?_); (repeat' split) <;> simp)

end Sys2Proof.Machine
end

section
/-! PROOF. A step takes exactly the front command off the queue (17 R569). -/

namespace Sys2Proof.Machine

variable {s : State}

/-- No command adds to the queue or takes from it. -/
theorem exec_queue (i : Instr) : QueueOut s.pending (exec i s) := by
  cases i with
  | nop | li | lip | csrr | flclr | mnot | mpop | mfirst | mfrom | mto | tget | mbcnt | vsel | vpack | vunpk =>
    unfold exec
    exact issue_thenNext_queue _ _ _ _ _ _ _ _ _ (by simp)
  | add | sub | and_ | or_ | xor | shl | shr | sra | mul | mulhu | min | max | minu | maxu | slt | sltu | seq =>
    unfold exec
    exact alu_queue _ _ _ _ _
  | beq | bne | blt | bge | bltu | bgeu =>
    unfold exec
    exact branch_queue _ _ _ _ _
  | dbnz | jal | jr =>
    unfold exec
    exact issue_queue _ _ _ _ _ _ _ _ _ (by simp)
  | mand | mor | mxor | mandn =>
    unfold exec
    exact maskOp_queue _ _ _ _ _
  | ld =>
    unfold exec
    exact readLd_queue _ _ _ _
  | st => exact execSt_queue _ _ _
  | sopen =>
    unfold exec
    exact readSopen_queue _ _ _ _
  | swr => exact execSwr_queue _ _ _
  | vld =>
    unfold exec
    exact readVld_queue _ _ _ _
  | vlds =>
    unfold exec
    exact readVlds_queue _ _ _ _
  | vst => exact execVst_queue _ _ _
  | vsts => exact execVsts_queue _ _ _
  | vldt =>
    unfold exec
    exact readVldt_queue _ _ _ _
  | cret | barv =>
    unfold exec
    exact sender_queue _ _ _ _ _
  | mxm => exact execMxm_queue _ _ _
  | mdrop => exact execMdrop_queue _ _ _
  | vmov | viota | vperm | vpermb =>
    unfold exec
    exact vecMove_queue _ _ _ _ _ _ _
  | vand | vor | vxor | vnot | vshl | vshr | vsra | vadd | vsub | vmul | vfma | vfnma | vdiv | vsqrt | vrsqrt | vexp | vlog
  | vmax | vmin | vabs | vneg | vsign | vclamp =>
    unfold exec
    exact vecOp_queue _ _ _ _ _ _ _
  | vcmpeq | vcmpne | vcmplt | vcmple | vnf =>
    unfold exec
    exact vecCmp_queue _ _ _ _ _ _ _
  | vshuf => exact execVshuf_queue _ _ _
  | vrsum | vrssq | vrmax | vrmin =>
    unfold exec
    exact reduction_queue _ _ _ _ _ _ _ (fun _ => by simp)
  | vrmv => exact execVrmv_queue _ _ _
  | vmvm => exact execVmvm_queue _ _ _
  | vramax =>
    unfold exec
    exact execVramax_queue _ _ _
  | sdeg =>
    unfold exec
    exact sampling_queue _ _ _ _ (sampDeg_keeps travRel_mem)
  | snbr =>
    unfold exec
    exact sampling_queue _ _ _ _ (sampNbr_keeps travRel_mem)
  | suni =>
    unfold exec
    exact sampling_queue _ _ _ _ (sampUni_keeps travRel_mem)
  | salias =>
    unfold exec
    exact sampling_queue _ _ _ _ (sampAlias_keeps travRel_mem)
  | stopk =>
    unfold exec
    exact sampling_queue _ _ _ _ (sampTopk_keeps travRel_mem)
  | swalk =>
    unfold exec
    exact sampling_queue _ _ _ _ (sampWalk_keeps travRel_mem)
  | slayr =>
    unfold exec
    exact sampling_queue _ _ _ _ (sampLayer_keeps travRel_mem)
  | gathl =>
    unfold exec
    exact readGathl_queue _ _ _ _
  | vgath =>
    unfold exec
    exact readVgath_queue _ _ _ _
  | vscat => exact execVscat_queue _ _ _
  | bcmd =>
    unfold exec
    exact readBcmd_queue _ _ _ _
  | bsplit =>
    unfold exec
    exact readBsplit_queue _ _ _ _
  | bsort =>
    unfold exec
    exact readBsort_queue _ _ _ _
  | eres =>
    unfold exec
    exact readEres_queue _ _ _ _
  | esort =>
    unfold exec
    exact readEsort_queue _ _ _ _
  | feederCreditReturn => exact execFeederCreditReturn_queue _ _
  | tokenSignal => exact execTokenSignal_queue _
  | controlWrite => exact execControlWrite_queue _ _
  | controlRead => exact execControlRead_queue _ _
  | readReply => exact execReadReply_queue _
  | faultRecordNotice => exact execFaultRecordNotice_queue _
  | taskStart => exact execTaskStart_queue _
  | taskHalt => exact execTaskHalt_queue _
  | tokenChannelOpen => exact execTokenChannelOpen_queue _ _ _
  | arbCommit => exact execArbCommit_queue _
  | arbiterRound => exact execArbiterRound_queue _ _
  | hello => exact execHello_queue _ _
  | lambdaUp => exact execLambdaUp_queue _
  | unreachable => exact execUnreachable_queue _
  | fabricBringUp => exact execFabricBringUp_queue _ _
  | useA => exact execUseA_queue _ _
  | shutterProbe => exact execShutterProbe_queue _
  | laserEnableDrop => exact execLaserEnableDrop_queue _
  | riskEval => exact execRiskEval_queue _ _
  | drainStart => exact execDrainStart_queue
  | ptSet => exact execPtSet_queue _
  | degreeBin => exact execDegreeBin_queue _
  | jobLoad => exact execJobLoad_queue _
  | jobStop => exact execJobStop_queue _
  | serveBatch => exact execServeBatch_queue _
  | tableReplace => exact execTableReplace_queue _
  | hotRefresh => exact execHotRefresh_queue _
  | redistribute => exact execRedistribute_queue _
  | keyInstall => exact execKeyInstall_queue _
  | dumpRead => exact execDumpRead_queue _
  | powerOff => exact execPowerOff_queue _
  | commandFetch => exact execCommandFetch_queue _ _
  | apertureRead => exact execApertureRead_queue _ _ _
  | apertureWrite => exact execApertureWrite_queue _ _ _
  | firmwareReady => exact execFirmwareReady_queue
  | workingTreeBuild =>
    unfold exec
    exact execWorkingTreeBuild_queue
  | sramUe => exact execSramUe_queue _
  | dumpWatchdog => exact execDumpWatchdog_queue
  | throttleEval => exact execThrottleEval_queue _ _
  | standExit => exact execStandExit_queue
  | smbusAddressMatch => exact execSmbusAddressMatch_queue _
  | perstN => exact execPerstN_queue _
  | aonPowerOn => exact execAonPowerOn_queue _
  | registerWrite => exact execRegisterWrite_queue _ _ _
  | frameCrcError => exact execFrameCrcError_queue _ _
  | debugFence => exact execDebugFence_queue _
  | end_ c t f | sig c t f | fence c t f | mdrain c t f | vcvt c t f => exact branchingInstructions_queue c t f _ (by simp)
  | tset c t f | sclose c t f | srd c t f | vstt c t f | waitc c t f | bwait c t f | mldp c t f | vtake c t f | vrel c t f => exact heldInstructions_queue c t f _ (by simp)
  | streamFetch c q | chunkLand c q | poolGroupIssue c q => exact stoppableCoreEvents_queue c q 0 0 _ (by simp)
  | mxmStart c | bargePost c | arrayFault c | mxmFinish c => exact stoppableCoreEvents_queue c 0 0 0 _ (by simp)
  | planeReady c plane | planeFree c plane => exact stoppableCoreEvents_queue c 0 plane 0 _ (by simp)
  | berthReturn c id => exact stoppableCoreEvents_queue c 0 0 id _ (by simp)
  | gather st id | pool st id | scatterAdd st id | rowUpdate st id => exact baseEngineCommands_queue st id _ (by simp)
  | tokenCreditReturn tok | barrierArrive tok | barrierRelease tok => exact countedArrivals_queue tok _ (by simp)
  | contributionDoorbell tok | exchangeDoorbell tok => exact doorbells_queue tok _ (by simp)
  | bankRefresh st pc bank | rowClose st pc bank => exact bankCommands_queue st pc bank _ (by simp)
  | idleFrame lam frame | linkstate lam frame | linkquery lam frame | linkreply lam frame => exact managementFrames_queue lam frame _ (by simp)
  | creditIdleSend lam | retransmit lam | lambdaRetrain lam | lambdaDown lam => exact lambdaCommands_queue lam [] _ (by simp)
  | frameForward lam frame | bounceResend lam frame => exact lambdaCommands_queue lam frame _ (by simp)
  | tokenFrame lam frame | coachSegment lam frame | snapshotData lam frame | migrationRecord lam frame => exact partFrames_queue lam frame _ (by simp)
  | collectiveLeaf lam frame | collectivePartial lam frame | lateMarker lam frame | gatherFlight lam frame
  | gatherReach lam frame => exact collectiveFrames_queue lam frame _ (by simp)
  | spanUpdate g p slot bucket span => exact spanCommands_queue p g slot bucket span _ (by simp)
  | hubSpanUpdate p slot bucket span => exact spanCommands_queue p 0 slot bucket span _ (by simp)
  | snapshotAck via | snapshotRefusal via => exact snapshotMessages_queue via _ (by simp)
  | linkstateSend => exact stoppableLightCommands_queue 0 true 0 0 _ (by simp)
  | laserSwitch e bOk => exact stoppableLightCommands_queue e bOk 0 0 _ (by simp)
  | laserSupply e missA missB => exact stoppableLightCommands_queue e true missA missB _ (by simp)
  | portShutter n | portOpen n => exact portCommands_queue n _ (by simp)
  | stragglerWindowClose p | voteSend p | appliedSend p | holdEnter p | phaseStart p | serveHeadTimer p => exact stepCommands_queue p _ (by simp)
  | vote via | groupVote via | verdict via | applied via | groupApplied via | commit via | rollback via | abort via
  | resolve via | stateMsg via => exact messages_queue via _ (by simp)
  | partCreate cmd | partFence cmd | partTeardown cmd | partQuery cmd | apertureSet cmd => exact partitionCommands_queue cmd _ (by simp)
  | partStart q p => exact partitionRequests_queue q p 0 _ (by simp)
  | ledgerDrainedAck q p value => exact partitionRequests_queue q p value _ (by simp)
  | memWrite cmd | memRead cmd | memFill cmd => exact transferCommands_queue cmd _ (by simp)
  | jobResume cmd | stepRun cmd | ledgerRead cmd | ckptBuffers cmd | ckptRestore cmd | drain cmd => exact jobCommands_queue cmd _ (by simp)
  | quote cmd | kemRead cmd | kemRefresh cmd | keyOpen cmd | keyRotate cmd | identRead cmd | svnCommit cmd => exact keyCommands_queue cmd _ (by simp)
  | otpProgram cmd | debugAttach cmd | debugDetach cmd | ideKmPf0 cmd | errRing cmd | selfTest cmd | echo cmd => exact identityCommands_queue cmd _ (by simp)
  | opPoint cmd | idleCfg cmd | moorEnable cmd => exact powerCommands_queue cmd _ (by simp)
  | coalTimerExpire fn ring => exact functionCommands_queue fn ring _ (by simp)
  | functionLevelReset fn => exact functionCommands_queue fn 0 _ (by simp)
  | bootWindowWrite offset data => exact bootCommands_queue offset data 0 _ (by simp)
  | bootGo value => exact bootCommands_queue 0 [] value _ (by simp)
  | mirrorHeadWrite value => exact logCommands_queue value 0 _ (by simp)
  | mirrorCopy | reportLog | clearLost | cntFreeze | cntUnfreeze | cntClear => exact logCommands_queue 0 0 _ (by simp)
  | logWindowClose index => exact logCommands_queue 0 index _ (by simp)
  | fatalLatchClear n => exact errorCommands_queue n 0 0 0 0 0 0 _ (by simp)
  | thermalWarn die tj | thermalTrip die tj => exact errorCommands_queue 0 die tj 0 0 0 0 _ (by simp)
  | railFault rail permille | undervoltageWarning rail permille => exact errorCommands_queue 0 0 0 permille 0 rail 0 _ (by simp)
  | refclkLoss | hubWatchdog => exact errorCommands_queue 0 0 0 0 0 0 0 _ (by simp)
  | hubFwFault code | secFault code => exact errorCommands_queue 0 0 0 0 0 0 code _ (by simp)
  | linkUe link => exact errorCommands_queue 0 0 0 0 link 0 0 _ (by simp)
  | clockChange | standEntry | moorEntry | moorExit | pcieInbandWake | wakeTimerExpire | padRelease | aux0Edge => exact clockCommands_queue 0 _ (by simp)
  | islandGate island | islandUngate island => exact clockCommands_queue island _ (by simp)
  | resetRelease | brownoutAon | mainLoss | pwrGoodAssert => exact resetCommands_queue _ (by simp)
  | smbArm x | smbFence x | smbPowerOff x | smbPowerUp x => exact busWrites_queue x _ (by simp)
  | smbFailsafe x | smbFatal x | smbCause x | smbWake x | smbId x => exact busReads_queue x _ (by simp)
  | smbTj x | smbState x => exact stateReads_queue x _ (by simp)
  | commandCompletion st id => exact stoppableStackEvents_queue st id 0 [] _ (by simp)
  | patrolScrub st addr errs => exact stoppableStackEvents_queue st 0 addr errs _ (by simp)
  | sweepRewrite st => exact stoppableStackEvents_queue st 0 0 [] _ (by simp)
  | commandDoorbell q ring value | completionDoorbell q ring value => exact ringCommands_queue q ring value 0 _ (by simp)
  | ringEnable q ring ctrl => exact ringCommands_queue q ring 0 ctrl _ (by simp)
  | ringDisable q ring => exact ringCommands_queue q ring 0 0 _ (by simp)

theorem step_queue : QueueOut s.pending.tail (step s) := by
  unfold step
  split
  · next e => simp [e]
  · exact exec_queue (s := s.popped) _

end Sys2Proof.Machine
end

section
open Sys2Proof Sys2Proof.Machine

/-- Settles O3: the queue is no command's to change, so that what is left of it is what follows the front. -/
theorem stepShortensQueue : Obligations.StepShortensQueue :=
  fun _ t e => step_queue t e

end

section
/-! PROOF. What operations leave of the register fields, by the registers that a statement reads. -/

namespace Sys2Proof.Machine

/-- The fields of the registers of a set hold in `u` what they held in `s`. -/
def FldsKept (G : Nat → Prop) (s u : State) : Prop := ∀ g : Fld, G g.reg → u.fld g = s.fld g

section
variable {G : Nat → Prop}

theorem fldsKept_refl (s : State) : FldsKept G s s := fun _ _ => rfl

theorem fldsKept_of_regs {s u : State} (h : u.regs = s.regs) : FldsKept G s u := fun _ _ => by rw [State.fld, h, State.fld]

theorem FldsKept.trans {s u w : State} (h : FldsKept G s u) (k : FldsKept G u w) : FldsKept G s w :=
  fun g hg => (k g hg).trans (h g hg)

/-- The step after operations that kept the fields changes no register at all. -/
theorem FldsKept.regs {s u w : State} (h : FldsKept G s u) (k : w.regs = u.regs) : FldsKept G s w := h.trans (fldsKept_of_regs k)

theorem fldsKept_setFld (s : State) {f : Fld} (v : Nat) (hf : ¬ G f.reg) : FldsKept G s (s.setFld f v) :=
  fun _ hg => fld_setFld_reg_ne s v fun h => hf (h ▸ hg)

theorem fldsKept_count (s : State) {f : Fld} (n : Nat) (hf : ¬ G f.reg) : FldsKept G s (s.count f n) :=
  fun _ hg => fld_count_reg_ne s n fun h => hf (h ▸ hg)

theorem fldsKept_bump (s : State) {f : Fld} (n : Nat) (hf : ¬ G f.reg) : FldsKept G s (s.bump f n) := fldsKept_setFld s _ hf

theorem fldsKept_foldl {α : Type} {f : State → α → State} (h : ∀ s x, FldsKept G s (f s x)) (l : List α) (s : State) :
    FldsKept G s (l.foldl f s) := by
  induction l generalizing s with
  | nil => exact fldsKept_refl s
  | cons x l ih => exact (h s x).trans (ih _)

theorem fldsKept_foldl_mem {α : Type} {f : State → α → State} {l : List α} (h : ∀ s, ∀ x ∈ l, FldsKept G s (f s x)) (s : State) :
    FldsKept G s (l.foldl f s) := by
  induction l generalizing s with
  | nil => exact fldsKept_refl s
  | cons x l ih =>
    exact (h s x List.mem_cons_self).trans (ih (fun s y hy => h s y (List.mem_cons_of_mem _ hy)) _)

theorem fldsKept_ite {c : Prop} [Decidable c] {s u w : State} (hu : c → FldsKept G s u) (hw : ¬ c → FldsKept G s w) :
    FldsKept G s (if c then u else w) := by
  split
  · exact hu ‹_›
  · exact hw ‹_›

theorem fldsKept_report (s : State) (r : Report) (hlost : ¬ G 0x3000008) : FldsKept G s (s.report r) := fun g hg => by
  have hreg : g.reg ≠ 0x3000008 := fun h => hlost (h ▸ hg)
  exact State.fld_report (key_ne_of_reg hreg) (key_ne_of_reg hreg)

theorem fldsKept_file (s : State) (detail cls kind index arg : Nat) (part : Option Nat) (hlost : ¬ G 0x3000008) :
    FldsKept G s (s.file detail cls kind index arg part) := fldsKept_report s _ hlost

end

theorem on_eq (s : State) (f : Fld) : s.on f = (s.fld f != 0) := rfl

theorem on_of_fld {s u : State} {f : Fld} (h : u.fld f = s.fld f) : u.on f = s.on f := by rw [on_eq, on_eq, h]

theorem on_of_regs {s u : State} (h : u.regs = s.regs) (f : Fld) : u.on f = s.on f := by rw [State.on, State.fld, h, State.on, State.fld]

theorem on_setFld_zero (s : State) (f : Fld) : (s.setFld f 0).on f = false := by simp [on_eq, State.fld_setFld]

theorem on_false_iff {s : State} {f : Fld} : s.on f = false ↔ s.fld f = 0 := by simp [on_eq]

theorem on_true_iff {s : State} {f : Fld} : s.on f = true ↔ s.fld f ≠ 0 := by simp [on_eq]

/-- A field of one bit that has been set. -/
theorem on_setFld_one (s : State) {f : Fld} (h : f.len = 1) : (s.setFld f 1).on f = true := by
  simp [on_eq, State.fld_setFld, h]

end Sys2Proof.Machine
end

section
/-! PROOF. The registers of the rings (17 R565 to R573). -/

namespace Sys2Proof.Machine

/-! ### Where a ring's registers are -/

/-- The registers of a ring pair are not the log's count of lost reports, nor any register of power or of a partition. -/
theorem ringBase_range (fn r : Nat) (hr : r < 64) :
    0x100000 ≤ ringBase fn r ∧ ringBase fn r + 0x40 ≤ 0x101000 ∨ 0x11000000 ≤ ringBase fn r := by
  unfold ringBase
  split <;> omega

theorem ringBase_reg_ne_lost (fn : Nat) {r d : Nat} (hr : r < 64) (hd : d < 0x40) : ringBase fn r + d ≠ 0x3000008 := by
  have := ringBase_range fn r hr
  omega

/-- A field of a ring's two status registers and of its control register. -/
structure RingFld (fn r : Nat) (g : Fld) : Prop where
  low : ringBase fn r ≤ g.reg
  high : g.reg < ringBase fn r + 0x40

section
variable {fn r : Nat}

theorem ringFld_en : RingFld fn r (HUB_RING_CTRL_EN fn r) := by
  constructor <;> simp [HUB_RING_CTRL_EN]
theorem ringFld_log2n : RingFld fn r (HUB_RING_CTRL_LOG2N fn r) := by constructor <;> simp [HUB_RING_CTRL_LOG2N]
theorem ringFld_head : RingFld fn r (HUB_RING_STAT_HEAD fn r) := by constructor <;> simp [HUB_RING_STAT_HEAD]
theorem ringFld_idle : RingFld fn r (HUB_RING_STAT_IDLE fn r) := by constructor <;> simp [HUB_RING_STAT_IDLE]
theorem ringFld_ctail : RingFld fn r (HUB_RING_STAT_CTAIL fn r) := by constructor <;> simp [HUB_RING_STAT_CTAIL]
theorem ringFld_error : RingFld fn r (HUB_RING_STAT_ERROR fn r) := by constructor <;> simp [HUB_RING_STAT_ERROR]
theorem ringFld_cause : RingFld fn r (HUB_RING_STAT_CAUSE fn r) := by constructor <;> simp [HUB_RING_STAT_CAUSE]

theorem fld_file_ring {g : Fld} (hg : RingFld fn r g) (hr : r < 64) (s : State) (detail cls kind index arg : Nat)
    (part : Option Nat) : (s.file detail cls kind index arg part).fld g = s.fld g :=
  fldsKept_file (G := (· = g.reg)) s detail cls kind index arg part
    (fun h => by have := hg.low; have := hg.high; have := ringBase_range fn r hr; omega) g rfl

end

/-! ### A ring stopped by an error -/

section
variable (s : State) (fn cause : Nat) {r : Nat} (hr : r < 64)
include hr

theorem on_error_ringError : (s.ringError fn r cause).on (HUB_RING_STAT_ERROR fn r) = true := by
  unfold State.ringError
  rw [on_of_fld (fld_file_ring ringFld_error hr _ _ _ _ _ _ _), on_of_fld (State.fld_setFld_ne _ _ ?_)]
  · exact on_setFld_one s rfl
  · exact key_ne_of_bit (by simp [HUB_RING_STAT_CAUSE, HUB_RING_STAT_ERROR])

theorem fld_cause_ringError : (s.ringError fn r cause).fld (HUB_RING_STAT_CAUSE fn r) = cause % 8 := by
  unfold State.ringError
  rw [fld_file_ring ringFld_cause hr, State.fld_setFld]
  rfl

theorem fld_ctail_ringError : (s.ringError fn r cause).fld (HUB_RING_STAT_CTAIL fn r) = s.fld (HUB_RING_STAT_CTAIL fn r) := by
  unfold State.ringError
  rw [fld_file_ring ringFld_ctail hr, State.fld_setFld_ne, State.fld_setFld_ne] <;>
    exact key_ne_of_bit (by simp [HUB_RING_STAT_CAUSE, HUB_RING_STAT_ERROR, HUB_RING_STAT_CTAIL])

end

@[simp] theorem State.cplHead_ringError (s : State) (fn r cause fn' r' : Nat) :
    (s.ringError fn r cause).cplHead fn' r' = s.cplHead fn' r' := by simp [State.cplHead]

/-! ### Doorbells -/

section
variable {q : Requester} {ring : Fin 64} {v : BitVec 16} {s : State}

theorem exec_commandDoorbell : exec (.commandDoorbell q ring v) s = execCommandDoorbell q ring v s := rfl
theorem exec_completionDoorbell : exec (.completionDoorbell q ring v) s = execCompletionDoorbell q ring v s := rfl

/-- A ring takes doorbells: the hub runs, its function takes requests, and the ring is enabled and has not stopped. -/
def RingTakes (s : State) (q : Requester) (ring : Fin 64) : Prop :=
  s.hubUp = true ∧ s.fnShut q = false ∧ s.on (HUB_RING_CTRL_EN q.fn ring) = true ∧ s.on (HUB_RING_STAT_ERROR q.fn ring) = false

theorem RingTakes.asked (h : RingTakes s q ring) : (!s.asked.hubUp || s.asked.fnShut q || !s.asked.on (HUB_RING_CTRL_EN q.fn ring)
    || s.asked.on (HUB_RING_STAT_ERROR q.fn ring)) = false := by
  obtain ⟨hup, hshut, hen, herr⟩ := h
  have hup' : s.asked.hubUp = true := hup
  have hshut' : s.asked.fnShut q = false := hshut
  have hen' : s.asked.on (HUB_RING_CTRL_EN q.fn ring) = true := hen
  have herr' : s.asked.on (HUB_RING_STAT_ERROR q.fn ring) = false := herr
  simp [hup', hshut', hen', herr']

theorem exec_completionDoorbell_in (h : RingTakes s q ring) (hv : v.toNat < s.ringN q.fn ring) :
    exec (.completionDoorbell q ring v) s = .next { s.asked with h := { s.asked.h with
      cheads := Tab.put s.h.cheads 0 (ringKeyOf q.fn ring) v.toNat } } := by
  have hin : ¬ s.asked.ringN q.fn ring ≤ v.toNat := Nat.not_le.2 hv
  rw [exec_completionDoorbell, execCompletionDoorbell, if_neg (by simp [h.asked]), if_neg hin]
  rfl

theorem exec_completionDoorbell_out (h : RingTakes s q ring) (hv : s.ringN q.fn ring ≤ v.toNat) :
    exec (.completionDoorbell q ring v) s = .next (s.asked.ringError q.fn ring 2) := by
  have hout : s.asked.ringN q.fn ring ≤ v.toNat := hv
  rw [exec_completionDoorbell, execCompletionDoorbell, if_neg (by simp [h.asked]), if_pos hout]

theorem exec_commandDoorbell_in (h : RingTakes s q ring) (hv : v.toNat < s.ringN q.fn ring) :
    exec (.commandDoorbell q ring v) s = .next { s.asked with h := { s.asked.h with
      tails := Tab.put s.h.tails 0 (ringKeyOf q.fn ring) v.toNat } } := by
  have hin : ¬ s.asked.ringN q.fn ring ≤ v.toNat := Nat.not_le.2 hv
  rw [exec_commandDoorbell, execCommandDoorbell, if_neg (by simp [h.asked]), if_neg hin]
  rfl

theorem exec_commandDoorbell_out (h : RingTakes s q ring) (hv : s.ringN q.fn ring ≤ v.toNat) :
    exec (.commandDoorbell q ring v) s = .next (s.asked.ringError q.fn ring 1) := by
  have hout : s.asked.ringN q.fn ring ≤ v.toNat := hv
  rw [exec_commandDoorbell, execCommandDoorbell, if_neg (by simp [h.asked]), if_pos hout]

end

theorem completionHeadLaw_holds : completionHeadLaw := by
  intro q ring v s hup hshut hen herr
  have htakes : RingTakes s q ring := ⟨hup, hshut, hen, herr⟩
  refine ⟨fun hv => ⟨_, exec_completionDoorbell_in htakes hv, Tab.get_put_same .., herr⟩,
    fun hv => ⟨_, exec_completionDoorbell_out htakes hv, on_error_ringError _ _ _ ring.isLt, fld_cause_ringError _ _ _ ring.isLt, ?_⟩⟩
  rw [State.cplHead_ringError]
  rfl

end Sys2Proof.Machine
end

section
open Sys2Proof Sys2Proof.Machine

/-- Settles O47: a head inside the ring is kept; one at or above 2^LOG2N stops the ring with cause HEAD_RANGE. -/
theorem completionHead : Obligations.CompletionHead := completionHeadLaw_holds

end

section
/-! PROOF. Rings: doorbells, RING_ENABLE and RING_DISABLE, FUNCTION_LEVEL_RESET (17 R564 to R566). -/

namespace Sys2Proof.Machine

/-! ### FUNCTION_LEVEL_RESET -/

theorem exec_functionLevelReset (fn : Fin 9) (s : State) : exec (.functionLevelReset fn) s = execFunctionLevelReset fn s := rfl

theorem ringEn_key_ne {fn r r' : Nat} (h : r ≠ r') : (HUB_RING_CTRL_EN fn r).key ≠ (HUB_RING_CTRL_EN fn r').key :=
  key_ne_of_reg (by simp only [HUB_RING_CTRL_EN, Fld.at_reg, ringBase]; split <;> omega)

theorem ringIdle_key_ne (fn r r' : Nat) : (HUB_RING_STAT_IDLE fn r).key ≠ (HUB_RING_CTRL_EN fn r').key :=
  key_ne_of_bit (by simp [HUB_RING_STAT_IDLE, HUB_RING_CTRL_EN])

/-- The rings of a function disabled, as a reset of the function leaves them. -/
def State.closeRings (s : State) (fn : Nat) : State :=
  (List.range 64).foldl (fun s r => (s.setFld (HUB_RING_CTRL_EN fn r) 0).setFld (HUB_RING_STAT_IDLE fn r) 1) s

theorem on_en_closeRings (s : State) (fn : Nat) {r : Nat} (hr : r < 64) :
    (s.closeRings fn).on (HUB_RING_CTRL_EN fn r) = false := by
  refine foldl_sets (P := fun t : State => t.on (HUB_RING_CTRL_EN fn r) = false) (List.mem_range.2 hr) (fun t => ?_)
    (fun t k hk ht => ?_)
  · rw [on_of_fld (State.fld_setFld_ne _ _ (ringIdle_key_ne fn r r))]
    exact on_setFld_zero t _
  · rw [on_of_fld (State.fld_setFld_ne _ _ (ringIdle_key_ne fn k r)), on_of_fld (State.fld_setFld_ne _ _ (ringEn_key_ne hk))]
    exact ht

theorem State.closeRings_h (s : State) (fn : Nat) : (s.closeRings fn).h = s.h := foldl_h _ _ _ fun _ _ => rfl

theorem dropFn_regs (s : State) (fn : Nat) : (s.dropFn fn).regs = ((s.dropServing fn).closeRings fn).regs := by
  simp only [State.dropFn, State.closeRings]

theorem on_en_dropFn (s : State) (fn : Nat) {r : Nat} (hr : r < 64) : (s.dropFn fn).on (HUB_RING_CTRL_EN fn r) = false := by
  rw [on_of_regs (dropFn_regs s fn)]
  exact on_en_closeRings _ fn hr

theorem started_dropFn (s : State) (fn : Nat) : (s.dropFn fn).h.started = s.h.started.filter (fun x => x.cmd.fn.val != fn) := by
  have hdrop : (s.dropFn fn).h.started = ((s.dropServing fn).closeRings fn).h.started.filter (fun x => x.cmd.fn.val != fn) := by
    simp only [State.dropFn, State.closeRings]
  rw [hdrop, State.closeRings_h]
  simp

/-- The aperture's register is none of a ring's. -/
theorem ringEn_key_ne_aperture (fn : Nat) {r : Nat} (hr : r < 64) (p : Fin 8) (f : Fld) (hf : f.reg = 0xB000030 + p * 0x100000) :
    f.key ≠ (HUB_RING_CTRL_EN fn r).key := key_ne_of_reg (by
  have := ringBase_range fn r hr
  simp only [HUB_RING_CTRL_EN, Fld.at_reg, hf]
  omega)

/-- The stream of a function is not set up any more. -/
def State.noStream (s : State) (fn : Nat) : State := { s with sec := { s.sec with ide := s.sec.ide.del fn } }

@[simp] theorem State.noStream_regs (s : State) (fn : Nat) : (s.noStream fn).regs = s.regs := rfl
@[simp] theorem State.noStream_h (s : State) (fn : Nat) : (s.noStream fn).h = s.h := rfl
@[simp] theorem State.noStream_m (s : State) (fn : Nat) : (s.noStream fn).m = s.m := rfl

/-- A function's rings, commands and stream are gone; its aperture, where it has one, is still as it was. -/
def State.fnGone (s : State) (fn : Nat) : State := (s.dropFn fn).noStream fn

@[simp] theorem State.fnGone_m (s : State) (fn : Nat) : (s.fnGone fn).m = s.m := by simp [State.fnGone]

theorem on_en_fnGone (s : State) (fn : Nat) {r : Nat} (hr : r < 64) : (s.fnGone fn).on (HUB_RING_CTRL_EN fn r) = false := by
  rw [State.fnGone, on_of_regs ((s.dropFn fn).noStream_regs fn)]
  exact on_en_dropFn s fn hr

theorem started_fnGone {s : State} {fn : Fin 9} : ∀ x ∈ (s.fnGone fn).h.started, x.cmd.fn ≠ fn := fun x hx h => by
  rw [State.fnGone, State.noStream_h, started_dropFn, List.mem_filter, bne_iff_ne] at hx
  exact hx.2 (congrArg Fin.val h)

/-- The aperture of a partition function shut; PF0 has none. -/
def State.shutAperture (s : State) (fn : Nat) : State :=
  if fn = 0 then s else (s.setFld (PART_APERTURE_EN (fn - 1)) 0).setFld (PART_APERTURE_BASE (fn - 1)) 0

@[simp] theorem State.shutAperture_h (s : State) (fn : Nat) : (s.shutAperture fn).h = s.h := by
  unfold State.shutAperture
  split <;> rfl

@[simp] theorem State.shutAperture_m (s : State) (fn : Nat) : (s.shutAperture fn).m = s.m := by
  unfold State.shutAperture
  split <;> rfl

theorem on_aperture_shutAperture (s : State) {fn : Nat} (h : fn ≠ 0) :
    (s.shutAperture fn).on (PART_APERTURE_EN (fn - 1)) = false := by
  rw [State.shutAperture, if_neg h,
    on_of_fld (State.fld_setFld_ne _ _ (key_ne_of_bit (by simp [PART_APERTURE_BASE, PART_APERTURE_EN])))]
  exact on_setFld_zero _ _

theorem on_en_shutAperture (s : State) {fn r : Nat} (hfn : fn < 9) (hr : r < 64) :
    (s.shutAperture fn).on (HUB_RING_CTRL_EN fn r) = s.on (HUB_RING_CTRL_EN fn r) := by
  unfold State.shutAperture
  split
  · rfl
  · rw [on_of_fld (State.fld_setFld_ne _ _ (ringEn_key_ne_aperture fn hr ⟨fn - 1, by omega⟩ _ (by simp [PART_APERTURE_BASE]))),
      on_of_fld (State.fld_setFld_ne _ _ (ringEn_key_ne_aperture fn hr ⟨fn - 1, by omega⟩ _ (by simp [PART_APERTURE_EN])))]

theorem exec_functionLevelReset_of_clocked {fn : Fin 9} {s : State} (h : Clocked s) :
    exec (.functionLevelReset fn) s = .next ((s.fnGone fn).shutAperture fn) := by
  rw [exec_functionLevelReset, execFunctionLevelReset, if_neg (by rw [h]; decide), State.fnGone]
  generalize s.dropFn fn = t
  exact (apply_ite Host.Outcome.next ..).symm

theorem resetLaw_holds : resetLaw := by
  intro fn s hclk
  refine ⟨_, exec_functionLevelReset_of_clocked hclk, ?_, fun r hr => ?_, fun h => on_aperture_shutAperture _ h, ?_⟩
  · rw [State.shutAperture_h]
    exact started_fnGone
  · rw [on_en_shutAperture _ fn.isLt hr]
    exact on_en_fnGone s fn hr
  · rw [State.shutAperture_m, State.fnGone_m]

/-! ### RING_ENABLE and RING_DISABLE -/

section
variable {q : Requester} {ring : Fin 64} {s : State}

theorem exec_ringEnable {w : Word} : exec (.ringEnable q ring w) s = execRingEnable q ring w s := rfl
theorem exec_ringDisable : exec (.ringDisable q ring) s = execRingDisable q ring s := rfl

/-- A ring that is not enabled opens with the fields of the write. -/
theorem exec_ringEnable_opens {w : Word} (hup : s.hubUp = true) (hshut : s.fnShut q = false) (hw : bit w.toNat 0 = true)
    (hoff : s.on (HUB_RING_CTRL_EN q.fn ring) = false) :
    exec (.ringEnable q ring w) s = .next ((s.asked.putRingCtrl q.fn ring w.toNat).openRing q.fn ring) := by
  have hup' : s.asked.hubUp = true := hup
  have hshut' : s.asked.fnShut q = false := hshut
  have hoff' : s.asked.on (HUB_RING_CTRL_EN q.fn ring) = false := hoff
  rw [exec_ringEnable, execRingEnable]
  simp only [hup', hshut', hw, hoff', Bool.not_true, Bool.or_false, Bool.false_eq_true, if_false]

theorem exec_ringDisable_of_takes (hup : s.hubUp = true) (hshut : s.fnShut q = false) :
    exec (.ringDisable q ring) s = .next (s.asked.setFld (HUB_RING_CTRL_EN q.fn ring) 0) := by
  have hup' : s.asked.hubUp = true := hup
  have hshut' : s.asked.fnShut q = false := hshut
  rw [exec_ringDisable, execRingDisable, if_pos (by simp [hup', hshut'])]

end

/-- The fields of one register of a ring that a write of its control register does not name keep their value. -/
theorem fld_putRingCtrl_log2n {s : State} {fn r w : Nat} (hoff : s.on (HUB_RING_CTRL_EN fn r) = false) (hlow : 4 ≤ bits w 1 5)
    (hhigh : bits w 1 5 ≤ 16) : (s.putRingCtrl fn r w).fld (HUB_RING_CTRL_LOG2N fn r) = bits w 1 5 := by
  have hset : (s.setFld (HUB_RING_CTRL_LOG2N fn r) (bits w 1 5)).fld (HUB_RING_CTRL_LOG2N fn r) = bits w 1 5 := by
    rw [State.fld_setFld]
    exact Nat.mod_eq_of_lt (bits_lt_two_pow w 1 5)
  simp only [State.putRingCtrl]
  rw [if_pos ⟨by simp [hoff], hlow, hhigh⟩, State.fld_setFld_ne, State.fld_setFld_ne, State.fld_setFld_ne, State.fld_setFld_ne]
  · exact hset
  all_goals simp only [HUB_RING_CTRL_LOG2N, HUB_RING_CTRL_VECTOR, HUB_RING_CTRL_IRQ_EN, HUB_RING_CTRL_COAL_COUNT, HUB_RING_CTRL_COAL_US, Fld.at_key]; omega

section
variable (s : State) (fn r : Nat)

/-- The registers of a ring that opening it sets, in the order in which they are written. -/
theorem openRing_regs : (s.openRing fn r).regs = (((((s.setFld (HUB_RING_CTRL_EN fn r) 1).setFld (HUB_RING_STAT_HEAD fn r) 0).setFld
    (HUB_RING_STAT_CTAIL fn r) 0).setFld (HUB_RING_STAT_ERROR fn r) 0).setFld (HUB_RING_STAT_CAUSE fn r) 0).regs := rfl

theorem fld_openRing (g : Fld) : (s.openRing fn r).fld g = (((((s.setFld (HUB_RING_CTRL_EN fn r) 1).setFld
    (HUB_RING_STAT_HEAD fn r) 0).setFld (HUB_RING_STAT_CTAIL fn r) 0).setFld (HUB_RING_STAT_ERROR fn r) 0).setFld
    (HUB_RING_STAT_CAUSE fn r) 0).fld g := rfl

theorem on_en_openRing : (s.openRing fn r).on (HUB_RING_CTRL_EN fn r) = true := by
  rw [on_eq, fld_openRing, State.fld_setFld_ne, State.fld_setFld_ne, State.fld_setFld_ne, State.fld_setFld_ne, State.fld_setFld]
  · rfl
  all_goals simp only [HUB_RING_CTRL_EN, HUB_RING_STAT_HEAD, HUB_RING_STAT_CTAIL, HUB_RING_STAT_ERROR, HUB_RING_STAT_CAUSE, Fld.at_key]; omega

theorem fld_log2n_openRing : (s.openRing fn r).fld (HUB_RING_CTRL_LOG2N fn r) = s.fld (HUB_RING_CTRL_LOG2N fn r) := by
  rw [fld_openRing, State.fld_setFld_ne, State.fld_setFld_ne, State.fld_setFld_ne, State.fld_setFld_ne, State.fld_setFld_ne]
  all_goals simp only [HUB_RING_CTRL_LOG2N, HUB_RING_CTRL_EN, HUB_RING_STAT_HEAD, HUB_RING_STAT_CTAIL, HUB_RING_STAT_ERROR,
    HUB_RING_STAT_CAUSE, Fld.at_key]; omega

theorem fld_head_openRing : (s.openRing fn r).fld (HUB_RING_STAT_HEAD fn r) = 0 := by
  rw [fld_openRing, State.fld_setFld_ne, State.fld_setFld_ne, State.fld_setFld_ne, State.fld_setFld]
  · exact Nat.zero_mod _
  all_goals simp only [HUB_RING_STAT_HEAD, HUB_RING_STAT_CTAIL, HUB_RING_STAT_ERROR, HUB_RING_STAT_CAUSE, Fld.at_key]; omega

theorem fld_ctail_openRing : (s.openRing fn r).fld (HUB_RING_STAT_CTAIL fn r) = 0 := by
  rw [fld_openRing, State.fld_setFld_ne, State.fld_setFld_ne, State.fld_setFld]
  · exact Nat.zero_mod _
  all_goals simp only [HUB_RING_STAT_CTAIL, HUB_RING_STAT_ERROR, HUB_RING_STAT_CAUSE, Fld.at_key]; omega

theorem on_error_openRing : (s.openRing fn r).on (HUB_RING_STAT_ERROR fn r) = false := by
  rw [on_false_iff, fld_openRing, State.fld_setFld_ne, State.fld_setFld]
  · exact Nat.zero_mod _
  · simp only [HUB_RING_STAT_ERROR, HUB_RING_STAT_CAUSE, Fld.at_key]; omega

theorem ringTail_openRing : (s.openRing fn r).ringTail fn r = 0 := by
  simp [State.openRing, State.ringTail, Tab.get_put_same]
theorem cplHead_openRing : (s.openRing fn r).cplHead fn r = 0 := by
  simp [State.openRing, State.cplHead, Tab.get_put_same]

end

/-- A function that takes no requests takes none of a ring. -/
theorem exec_of_fnShut {q : Requester} {s : State} (hshut : s.fnShut q = true) (ring : Fin 64) (v : BitVec 16) (w : Word) :
    ∀ i ∈ [Instr.commandDoorbell q ring v, .completionDoorbell q ring v, .ringEnable q ring w, .ringDisable q ring],
      exec i s = .next s.asked := by
  have hshut' : s.asked.fnShut q = true := hshut
  simp only [List.forall_mem_cons, List.not_mem_nil, false_imp_iff, implies_true, and_true]
  refine ⟨?_, ?_, ?_, ?_⟩
  · rw [exec_commandDoorbell, execCommandDoorbell, if_pos (by simp [hshut'])]
  · rw [exec_completionDoorbell, execCompletionDoorbell, if_pos (by simp [hshut'])]
  · rw [exec_ringEnable, execRingEnable, if_pos (by simp [hshut'])]
  · rw [exec_ringDisable, execRingDisable, if_neg (by simp [hshut'])]

theorem ringLaw_holds : ringLaw := by
  intro q ring s hup
  refine ⟨fun hshut => ⟨fun v hen herr => ?_, fun w hw hoff hlow hhigh => ?_, ?_⟩, fun hshut v w => exec_of_fnShut hshut ring v w⟩
  · have htakes : RingTakes s q ring := ⟨hup, hshut, hen, herr⟩
    exact ⟨fun hv => ⟨_, exec_commandDoorbell_in htakes hv, Tab.get_put_same .., rfl⟩, exec_commandDoorbell_out htakes⟩
  · refine ⟨_, exec_ringEnable_opens hup hshut hw hoff, on_en_openRing _ _ _, ?_, fld_head_openRing _ _ _, fld_ctail_openRing _ _ _,
      ringTail_openRing _ _ _, cplHead_openRing _ _ _, on_error_openRing _ _ _⟩
    rw [State.ringN, fld_log2n_openRing, fld_putRingCtrl_log2n (s := s.asked) hoff hlow hhigh]
  · exact ⟨_, exec_ringDisable_of_takes hup hshut, on_setFld_zero _ _, rfl, rfl⟩

end Sys2Proof.Machine
end

section
/-! PROOF. What a reply writes and keeps (17 R570 to R573, R576). -/

namespace Sys2Proof.Machine

/-! ### What runs, by the state that it reads -/

theorem hubUp_congr {s u : State} (hpm : u.pm = s.pm) (hfail : u.fld ERR_FAILSAFE_ACTIVE = s.fld ERR_FAILSAFE_ACTIVE)
    (hstate : u.fld PM_CTRL_STATE = s.fld PM_CTRL_STATE) : u.hubUp = s.hubUp := by
  rw [State.hubUp, State.hubUp, hpm, on_of_fld hfail, hstate]

theorem standing_congr {s u : State} (hpm : u.pm = s.pm) (hfail : u.fld ERR_FAILSAFE_ACTIVE = s.fld ERR_FAILSAFE_ACTIVE)
    (hstate : u.fld PM_CTRL_STATE = s.fld PM_CTRL_STATE) : u.standing = s.standing := by
  rw [State.standing, State.standing, hubUp_congr hpm hfail hstate, hstate]

/-- The registers that say what runs: the fail-safe state's and that of PM_CTRL. -/
def RunReg (r : Nat) : Prop := r = 0x3000040 ∨ r = 0x1000018

theorem FldsKept.standing {s u : State} (h : FldsKept RunReg s u) (hpm : u.pm = s.pm) : u.standing = s.standing :=
  standing_congr hpm (h _ (.inl rfl)) (h _ (.inr rfl))

theorem not_runReg_ring {fn r : Nat} {g : Fld} (hg : RingFld fn r g) (hr : r < 64) : ¬ RunReg g.reg := by
  have := ringBase_range fn r hr
  have := hg.low
  have := hg.high
  unfold RunReg
  omega

/-! ### Messages -/

section
variable (s : State) (fn v : Nat)

theorem State.fire_h : (s.fire fn v).h = { s.h with pba := (s.fire fn v).h.pba, msgs := (s.fire fn v).h.msgs } := by
  unfold State.fire
  split
  · rfl
  · split
    · split <;> rfl
    · rfl

@[simp] theorem State.fire_started : (s.fire fn v).h.started = s.h.started := by rw [State.fire_h]
@[simp] theorem State.fire_flips : (s.fire fn v).h.flips = s.h.flips := by rw [State.fire_h]
@[simp] theorem State.fire_uncovered : (s.fire fn v).h.uncovered = s.h.uncovered := by rw [State.fire_h]

/-- A vector that is enabled and not masked sends its message. -/
theorem State.fire_msgs (hup : s.hubUp = true) (hon : s.h.msixOn.contains fn = true) (hmask : s.vecMasked fn v = false) :
    (s.fire fn v).h.msgs = s.h.msgs ++ [(fn, v)] := by
  rw [State.fire, if_neg (by simp [hup, -List.contains_eq_mem, hon]), if_neg (by simp [hmask])]

end

section
variable (s : State) (fn r : Nat) (timer : Bool)

@[simp] theorem State.coalesce_started : (s.coalesce fn r timer).h.started = s.h.started := by
  simp only [State.coalesce]
  split
  · exact State.fire_started _ _ _
  · rfl

@[simp] theorem State.coalesce_flips : (s.coalesce fn r timer).h.flips = s.h.flips := by
  simp only [State.coalesce]
  split
  · exact State.fire_flips _ _ _
  · rfl

end

/-! ### The parts of a reply -/

/-- A command that is complete: it is started no more, and its ring is idle where it was the last. -/
def State.finished (s : State) (x : Started) : State :=
  let u := { s with h := { s.h with started := dropFirst (· == x) s.h.started, held := s.h.held.filter (· != x.cmd) } }
  if (u.ringStarted x.cmd.fn x.cmd.ring).isEmpty then u.setFld (HUB_RING_STAT_IDLE x.cmd.fn x.cmd.ring) 1 else u

/-- The phase of the replies of the ring's present pass. -/
def State.phaseOf (s : State) (x : Started) : Bool := !Tab.get s.h.flips false (ringKeyOf x.cmd.fn x.cmd.ring)

/-- The 32 bytes of a reply (R576). -/
def State.replyBytes (s : State) (x : Started) (st d r0 r1 : Nat) : List Byte :=
  leBytes 4 (cTag x.cmd) ++ leBytes 4 (cOp x.cmd + st % 2 ^ 16 * 2 ^ 16)
    ++ leBytes 4 (x.head % 2 ^ 16 + b2n (s.phaseOf x) * 2 ^ 16) ++ leBytes 4 d ++ leBytes 8 r0 ++ leBytes 8 r1

/-- The reply stands at the tail of the completion ring, which has moved past it. -/
def State.replyWritten (s : State) (x : Started) (bs : List Byte) : State :=
  let fn := x.cmd.fn.val
  let r := x.cmd.ring.val
  let t := s.fld (HUB_RING_STAT_CTAIL fn r)
  let u := (s.finished x).wrB (keyHost ((s.finished x).fld (HUB_RING_CPL_ADDR fn r) * 4096 + 32 * t)) bs
  let t' := (t + 1) % u.ringN fn r
  let w := u.setFld (HUB_RING_STAT_CTAIL fn r) t'
  { w with h := { w.h with flips := if t' = 0 then Tab.put w.h.flips false (ringKeyOf fn r) (s.phaseOf x) else w.h.flips } }

/-- A reply that a message has still to cover. -/
def State.uncover (s : State) (fn r : Nat) : State :=
  let k := ringKeyOf fn r
  let c := Tab.get s.h.uncovered 0 k
  { s with h := { s.h with
    uncovered := Tab.put s.h.uncovered 0 k (c + 1)
    oldest := if c = 0 then Tab.put s.h.oldest 0 k s.timeUs else s.h.oldest } }

section
variable (s : State) (x : Started) (st d r0 r1 : Nat)

theorem reply_of_error (h : x.err = .reply) :
    s.reply x st d r0 r1 = (s.finished x).ringError x.cmd.fn x.cmd.ring 4 := by
  simp only [State.reply, h, if_true]
  rfl

theorem reply_of_written (h : x.err ≠ .reply) : s.reply x st d r0 r1 =
    let w := s.replyWritten x (s.replyBytes x st d r0 r1)
    if cNoIrq x.cmd then w else (w.uncover x.cmd.fn x.cmd.ring).coalesce x.cmd.fn x.cmd.ring false := by
  simp only [State.reply, h, if_false]
  rfl

/-! ### A completed command -/

@[simp] theorem State.finished_m : (s.finished x).m = s.m := by
  simp only [State.finished]
  split <;> rfl

theorem State.finished_started : (s.finished x).h.started = dropFirst (· == x) s.h.started := by
  simp only [State.finished]
  split <;> rfl

@[simp] theorem State.finished_flips : (s.finished x).h.flips = s.h.flips := by
  simp only [State.finished]
  split <;> rfl

@[simp] theorem State.finished_pm : (s.finished x).pm = s.pm := by
  simp only [State.finished]
  split <;> rfl

theorem fld_finished {g : Fld} (hg : g.key ≠ (HUB_RING_STAT_IDLE x.cmd.fn x.cmd.ring).key) : (s.finished x).fld g = s.fld g := by
  simp only [State.finished]
  split
  · exact State.fld_setFld_ne _ _ hg.symm
  · rfl

theorem fld_finished_ctail : (s.finished x).fld (HUB_RING_STAT_CTAIL x.cmd.fn x.cmd.ring)
    = s.fld (HUB_RING_STAT_CTAIL x.cmd.fn x.cmd.ring) :=
  fld_finished s x (by simp only [HUB_RING_STAT_CTAIL, HUB_RING_STAT_IDLE, Fld.at_key]; omega)

theorem fld_finished_log2n : (s.finished x).fld (HUB_RING_CTRL_LOG2N x.cmd.fn x.cmd.ring)
    = s.fld (HUB_RING_CTRL_LOG2N x.cmd.fn x.cmd.ring) :=
  fld_finished s x (by simp only [HUB_RING_CTRL_LOG2N, HUB_RING_STAT_IDLE, Fld.at_key]; omega)

theorem fld_finished_cplAddr : (s.finished x).fld (HUB_RING_CPL_ADDR x.cmd.fn x.cmd.ring)
    = s.fld (HUB_RING_CPL_ADDR x.cmd.fn x.cmd.ring) :=
  fld_finished s x (by simp only [HUB_RING_CPL_ADDR, HUB_RING_STAT_IDLE, Fld.at_key]; omega)

/-! ### A reply that is written -/

variable (bs : List Byte)

theorem replyWritten_mem : (s.replyWritten x bs).m.mem
    = s.m.mem.wrBytes (keyHost (s.fld (HUB_RING_CPL_ADDR x.cmd.fn x.cmd.ring) * 4096
      + 32 * s.fld (HUB_RING_STAT_CTAIL x.cmd.fn x.cmd.ring))) bs := by
  simp only [State.replyWritten, State.wrB, State.setFld]
  rw [fld_finished_cplAddr, State.finished_m]

theorem ringN_replyWritten : ((s.finished x).wrB (keyHost ((s.finished x).fld (HUB_RING_CPL_ADDR x.cmd.fn x.cmd.ring) * 4096
    + 32 * s.fld (HUB_RING_STAT_CTAIL x.cmd.fn x.cmd.ring))) bs).ringN x.cmd.fn x.cmd.ring = s.ringN x.cmd.fn x.cmd.ring :=
  congrArg (2 ^ ·) (fld_finished_log2n s x)

theorem fld_ctail_replyWritten : (s.replyWritten x bs).fld (HUB_RING_STAT_CTAIL x.cmd.fn x.cmd.ring)
    = (s.fld (HUB_RING_STAT_CTAIL x.cmd.fn x.cmd.ring) + 1) % s.ringN x.cmd.fn x.cmd.ring % 2 ^ 16 := by
  rw [← ringN_replyWritten s x bs]
  exact State.fld_setFld _ _ _

theorem flips_replyWritten : Tab.get (s.replyWritten x bs).h.flips false (ringKeyOf x.cmd.fn x.cmd.ring)
    = (if (s.fld (HUB_RING_STAT_CTAIL x.cmd.fn x.cmd.ring) + 1) % s.ringN x.cmd.fn x.cmd.ring = 0 then s.phaseOf x
      else !s.phaseOf x) := by
  rw [← ringN_replyWritten s x bs]
  simp only [State.replyWritten]
  split
  · exact Tab.get_put_same ..
  · rw [State.phaseOf, Bool.not_not]
    exact congrArg (Tab.get · _ _) (State.finished_flips s x)

theorem replyWritten_started : (s.replyWritten x bs).h.started = dropFirst (· == x) s.h.started := State.finished_started s x

/-! ### What a reply leaves, whether or not a message follows it -/

variable {x}

theorem reply_started (h : x.err ≠ .reply) : (s.reply x st d r0 r1).h.started = dropFirst (· == x) s.h.started := by
  rw [reply_of_written s x st d r0 r1 h]
  dsimp only
  split
  · exact replyWritten_started ..
  · exact (State.coalesce_started _ _ _ _).trans (replyWritten_started ..)

theorem reply_mem (h : x.err ≠ .reply) : (s.reply x st d r0 r1).m.mem
    = s.m.mem.wrBytes (keyHost (s.fld (HUB_RING_CPL_ADDR x.cmd.fn x.cmd.ring) * 4096
      + 32 * s.fld (HUB_RING_STAT_CTAIL x.cmd.fn x.cmd.ring))) (s.replyBytes x st d r0 r1) := by
  rw [reply_of_written s x st d r0 r1 h]
  dsimp only
  split
  · exact replyWritten_mem ..
  · rw [← replyWritten_mem]
    simp [State.uncover]

theorem reply_regs (h : x.err ≠ .reply) : (s.reply x st d r0 r1).regs = (s.replyWritten x (s.replyBytes x st d r0 r1)).regs := by
  rw [reply_of_written s x st d r0 r1 h]
  dsimp only
  split
  · rfl
  · simp [State.uncover]

theorem reply_flips (h : x.err ≠ .reply) : (s.reply x st d r0 r1).h.flips = (s.replyWritten x (s.replyBytes x st d r0 r1)).h.flips := by
  rw [reply_of_written s x st d r0 r1 h]
  dsimp only
  split
  · rfl
  · simp [State.uncover]

end

end Sys2Proof.Machine
end

section
/-! PROOF. Fetch, messages and replies (17 R568 to R573, R576). -/

namespace Sys2Proof.Machine

/-! ### Parts of a little-endian number -/

theorem leNat_append (a b : List Byte) : leNat (a ++ b) = leNat a + 256 ^ a.length * leNat b := by
  induction a with
  | nil => simp [leNat]
  | cons x a ih =>
    simp only [List.cons_append, leNat, ih, List.length_cons, Nat.pow_succ]
    ring

theorem leNat_take_leBytes {n k : Nat} (h : k ≤ n) (v : Nat) : leNat ((leBytes n v).take k) = v % 256 ^ k := by
  have hsplit := leNat_append ((leBytes n v).take k) ((leBytes n v).drop k)
  have hlen : ((leBytes n v).take k).length = k := by simp [h]
  have hlt := leNat_lt ((leBytes n v).take k)
  rw [List.take_append_drop, leNat_leBytes, hlen] at hsplit
  rw [hlen] at hlt
  have hmod : v % 256 ^ n % 256 ^ k = v % 256 ^ k := Nat.mod_mod_of_dvd _ (Nat.pow_dvd_pow _ h)
  rw [← hmod, hsplit, Nat.add_mul_mod_self_left, Nat.mod_eq_of_lt hlt]

theorem leNat_drop_leBytes {n k : Nat} (h : k ≤ n) (v : Nat) : leNat ((leBytes n v).drop k) = v % 256 ^ n / 256 ^ k := by
  have hsplit := leNat_append ((leBytes n v).take k) ((leBytes n v).drop k)
  have hlen : ((leBytes n v).take k).length = k := by simp [h]
  have hlt := leNat_lt ((leBytes n v).take k)
  rw [List.take_append_drop, leNat_leBytes, hlen] at hsplit
  rw [hlen] at hlt
  rw [hsplit, Nat.add_mul_div_left _ _ (by positivity), Nat.div_eq_of_lt hlt, Nat.zero_add]

/-! ### The words of a reply -/

section
variable (s : State) (x : Started) (st d r0 r1 : Nat)

theorem length_replyBytes : (s.replyBytes x st d r0 r1).length = 32 := by simp [State.replyBytes]

theorem replyBytes_tag : (s.replyBytes x st d r0 r1).take 4 = leBytes 4 (cTag x.cmd) := by simp [State.replyBytes]

theorem replyBytes_op : ((s.replyBytes x st d r0 r1).drop 4).take 4 = leBytes 4 (cOp x.cmd + st % 2 ^ 16 * 2 ^ 16) := by
  simp [State.replyBytes]

theorem replyBytes_head : ((s.replyBytes x st d r0 r1).drop 8).take 4
    = leBytes 4 (x.head % 2 ^ 16 + b2n (s.phaseOf x) * 2 ^ 16) := by
  simp [State.replyBytes, List.drop_append, List.drop_eq_nil_of_le]

theorem replyBytes_detail : ((s.replyBytes x st d r0 r1).drop 12).take 4 = leBytes 4 d := by
  simp [State.replyBytes, List.drop_append, List.drop_eq_nil_of_le]

theorem replyBytes_result0 : ((s.replyBytes x st d r0 r1).drop 16).take 8 = leBytes 8 r0 := by
  simp [State.replyBytes, List.drop_append, List.drop_eq_nil_of_le]

theorem replyBytes_result1 : ((s.replyBytes x st d r0 r1).drop 24).take 8 = leBytes 8 r1 := by
  simp [State.replyBytes, List.drop_append, List.drop_eq_nil_of_le]

end

/-- A number read from among bytes written. -/
theorem Mem.rdLE_wrBytes_in (m : Mem) (a off n : Nat) (l : List Byte) (h : off + n ≤ l.length) :
    (m.wrBytes a l).rdLE (a + off) n = leNat ((l.drop off).take n) := congrArg leNat (m.rdBytes_wrBytes_in a off n l h)

theorem take_drop_low (l : List Byte) (off : Nat) {k n : Nat} (h : k ≤ n) :
    (l.drop off).take k = ((l.drop off).take n).take k := by rw [List.take_take, Nat.min_eq_left h]

theorem take_drop_high (l : List Byte) (off k n : Nat) : (l.drop (off + k)).take n = ((l.drop off).take (k + n)).drop k := by
  rw [List.drop_take, List.drop_drop, Nat.add_sub_cancel_left]

theorem cOp_lt (c : HostCmd) : cOp c < 2 ^ 16 := bits_lt_two_pow _ _ _
theorem cTag_lt (c : HostCmd) : cTag c < 2 ^ 32 := bits_lt_two_pow _ _ _

/-- The words of a reply, where it has been written (R576). -/
theorem replyBytes_read (m : Mem) (at_ : Nat) (s : State) (x : Started) (st d r0 r1 : Nat) :
    let w := m.wrBytes at_ (s.replyBytes x st d r0 r1)
    w.rdLE at_ 4 = cTag x.cmd ∧ w.rdLE (at_ + 4) 2 = cOp x.cmd ∧ w.rdLE (at_ + 6) 2 = st % 2 ^ 16
      ∧ w.rdLE (at_ + 8) 2 = x.head % 2 ^ 16 ∧ w.rdLE (at_ + 10) 2 = b2n (s.phaseOf x)
      ∧ w.rdLE (at_ + 12) 4 = d % 2 ^ 32 ∧ w.rdLE (at_ + 16) 8 = r0 % 2 ^ 64 ∧ w.rdLE (at_ + 24) 8 = r1 % 2 ^ 64 := by
  intro w
  have hread (off n : Nat) (h : off + n ≤ 32) : w.rdLE (at_ + off) n = leNat (((s.replyBytes x st d r0 r1).drop off).take n) :=
    m.rdLE_wrBytes_in at_ off n _ (by rwa [length_replyBytes])
  have htag := cTag_lt x.cmd
  have hop := cOp_lt x.cmd
  have hphase : b2n (s.phaseOf x) < 2 := by unfold b2n; split <;> omega
  refine ⟨?_, ?_, ?_, ?_, ?_, ?_, ?_, ?_⟩
  · rw [← Nat.add_zero at_, hread 0 4 (by omega), List.drop_zero, replyBytes_tag, leNat_leBytes]
    omega
  · rw [hread 4 2 (by omega), take_drop_low _ _ (n := 4) (by omega), replyBytes_op, leNat_take_leBytes (by omega)]
    omega
  · rw [hread 6 2 (by omega), take_drop_high _ 4 2 2, replyBytes_op, leNat_drop_leBytes (by omega)]
    omega
  · rw [hread 8 2 (by omega), take_drop_low _ _ (n := 4) (by omega), replyBytes_head, leNat_take_leBytes (by omega)]
    omega
  · rw [hread 10 2 (by omega), take_drop_high _ 8 2 2, replyBytes_head, leNat_drop_leBytes (by omega)]
    omega
  · rw [hread 12 4 (by omega), replyBytes_detail, leNat_leBytes]
    omega
  · rw [hread 16 8 (by omega), replyBytes_result0, leNat_leBytes]
    omega
  · rw [hread 24 8 (by omega), replyBytes_result1, leNat_leBytes]
    omega

/-! ### Messages that are due -/

theorem exec_coalTimerExpire (fn : Fin 9) (ring : Fin 64) (s : State) : exec (.coalTimerExpire fn ring) s = .next (s.coalesce fn ring
    (decide (Tab.get s.h.oldest 0 (ringKeyOf fn ring) + s.fld (HUB_RING_CTRL_COAL_US fn ring) ≤ s.timeUs))) := rfl

/-- A ring's replies counted as covered. -/
def State.cover (s : State) (fn r : Nat) : State :=
  { s with h := { s.h with
    uncovered := Tab.put s.h.uncovered 0 (ringKeyOf fn r) 0, oldest := Tab.put s.h.oldest 0 (ringKeyOf fn r) 0 } }

theorem coalesce_of_due {s : State} {fn r : Nat} (hirq : s.on (HUB_RING_CTRL_IRQ_EN fn r) = true)
    (hn : Tab.get s.h.uncovered 0 (ringKeyOf fn r) ≠ 0) :
    s.coalesce fn r true = (s.cover fn r).fire fn (s.fld (HUB_RING_CTRL_VECTOR fn r)) := by
  simp [State.coalesce, State.cover, hirq, hn]

theorem coalesce_of_not_due {s : State} {fn r : Nat} {timer : Bool} (h : s.on (HUB_RING_CTRL_IRQ_EN fn r) = false
    ∨ Tab.get s.h.uncovered 0 (ringKeyOf fn r) = 0
    ∨ timer = false ∧ Tab.get s.h.uncovered 0 (ringKeyOf fn r) < s.fld (HUB_RING_CTRL_COAL_COUNT fn r)) :
    s.coalesce fn r timer = s := by
  rw [State.coalesce, if_neg]
  rcases h with h | h | ⟨htimer, hcount⟩
  · simp [h]
  · simp [h]
  · simp [htimer, Nat.not_le.2 hcount]

/-! ### Fetch -/

/-- The command at the head of a ring, as it starts. -/
def State.fetched (s : State) (fn : Fin 9) (ring : Fin 64) (err : HostErr) : Started :=
  ⟨⟨fn, ring, s.headPacket fn ring⟩, s.h.nextSeq, (s.fld (HUB_RING_STAT_HEAD fn ring) + 1) % s.ringN fn ring, err⟩

/-- The state once that command has started. -/
def State.afterFetch (s : State) (fn : Fin 9) (ring : Fin 64) (x : Started) : State :=
  let v := s.h.visit
  let t := (s.setFld (HUB_RING_STAT_HEAD fn ring) x.head).setFld (HUB_RING_STAT_IDLE fn ring) 0
  { t with h := { t.h with
    started := t.h.started ++ [x], nextSeq := t.h.nextSeq + 1
    visit := (fn, ring, if v.1 = fn.val ∧ v.2.1 = ring.val ∧ v.2.2 < 8 then v.2.2 + 1 else 1) } }

section
variable {fn : Fin 9} {ring : Fin 64} {err : HostErr} {s : State}

theorem exec_commandFetch : exec (.commandFetch fn ⟨ring, err⟩) s = execCommandFetch fn ⟨ring, err⟩ s := rfl

theorem exec_commandFetch_error (hup : s.hubUp = true) (hnext : s.nextRing = some (ringKeyOf fn ring)) :
    exec (.commandFetch fn ⟨ring, .fetch⟩) s = .next (s.ringError fn ring 3) := by
  rw [exec_commandFetch, execCommandFetch, if_neg (by simp [hup, hnext]), if_pos rfl]

theorem exec_commandFetch_starts (hup : s.hubUp = true) (hnext : s.nextRing = some (ringKeyOf fn ring)) (herr : err ≠ .fetch)
    (hok : packetStatus (s.fetched fn ring err).cmd = stOk) :
    let t := s.afterFetch fn ring (s.fetched fn ring err)
    exec (.commandFetch fn ⟨ring, err⟩) s
      = .next (if t.standing && !onStand (cOp (s.fetched fn ring err).cmd) then t.wakeEvent 1 else t) := by
  intro t
  rw [exec_commandFetch, execCommandFetch, if_neg (by simp [hup, hnext]), if_neg herr]
  exact if_pos hok

variable (x : Started)

theorem afterFetch_fld (g : Fld) : (s.afterFetch fn ring x).fld g
    = ((s.setFld (HUB_RING_STAT_HEAD fn ring) x.head).setFld (HUB_RING_STAT_IDLE fn ring) 0).fld g := rfl

theorem fldsKept_afterFetch : FldsKept RunReg s (s.afterFetch fn ring x) := fun g hg => by
  have hne {f : Fld} (hf : RingFld fn ring f) : g.reg ≠ f.reg := fun h => not_runReg_ring hf ring.isLt (h ▸ hg)
  rw [afterFetch_fld, fld_setFld_reg_ne _ _ (hne ringFld_idle), fld_setFld_reg_ne _ _ (hne ringFld_head)]

theorem standing_afterFetch : (s.afterFetch fn ring x).standing = s.standing := (fldsKept_afterFetch x).standing rfl

theorem fld_head_afterFetch : (s.afterFetch fn ring x).fld (HUB_RING_STAT_HEAD fn ring) = x.head % 2 ^ 16 := by
  rw [afterFetch_fld, State.fld_setFld_ne, State.fld_setFld]
  · rfl
  · simp only [HUB_RING_STAT_HEAD, HUB_RING_STAT_IDLE, Fld.at_key]
    omega

end

/-- A wake event sets the state of PM_CTRL at most. -/
theorem fld_wakeEvent (s : State) (src : Nat) {g : Fld} (hg : g.key ≠ PM_CTRL_STATE.key) : (s.wakeEvent src).fld g = s.fld g := by
  simp only [State.wakeEvent]
  split
  · rfl
  · split
    · exact State.fld_setFld_ne _ _ hg.symm
    · rfl

theorem wake_wakeEvent {s : State} (src : Nat) (h : s.pm.wake = 0) : (s.wakeEvent src).pm.wake = src := by
  rw [State.wakeEvent, if_neg (by simp [h])]
  dsimp only
  split <;> rfl

theorem fetchAndReplyLaw_holds : fetchAndReplyLaw := by
  intro fn ring s hup
  refine ⟨exec_commandFetch_error hup, ?_, ⟨?_, ?_, ?_⟩, ?_, ?_⟩
  · intro err herr x hnext hok
    refine ⟨fun hstand hgated hwake => ⟨_, exec_commandFetch_starts hup hnext herr hok, ?_⟩,
      ⟨_, exec_commandFetch_starts hup hnext herr hok, ?_⟩⟩
    · have hop : onStand (cOp (s.fetched fn ring err).cmd) = false := hgated
      simp only [standing_afterFetch, hstand, hop, Bool.not_false, Bool.and_self, if_true]
      exact ⟨by rw [State.wakeEvent_h]; rfl, wake_wakeEvent 1 hwake⟩
    · split
      · refine ⟨by rw [State.wakeEvent_h]; rfl, ?_, by rw [State.wakeEvent_m]; rfl⟩
        rw [fld_wakeEvent]
        · exact fld_head_afterFetch _
        · refine key_ne_of_reg ?_
          have := ringBase_range fn ring ring.isLt
          simp only [HUB_RING_STAT_HEAD, PM_CTRL_STATE, Fld.at_reg]
          omega
      · exact ⟨rfl, fld_head_afterFetch _, rfl⟩
  · intro hwaited hirq hn
    refine ⟨_, exec_coalTimerExpire fn ring s, ?_⟩
    rw [decide_eq_true hwaited, coalesce_of_due hirq hn]
    refine ⟨?_, fun hon hmask => State.fire_msgs _ _ _ hup hon hmask⟩
    rw [State.fire_uncovered]
    exact Tab.get_put_same s.h.uncovered 0 _ 0
  · intro hwaited hcount
    rw [exec_coalTimerExpire, coalesce_of_not_due (.inr (.inr ⟨decide_eq_false hwaited, hcount⟩))]
  · intro h
    rw [exec_coalTimerExpire, coalesce_of_not_due (h.imp id .inl)]
  · rintro x st d r0 r1 rfl rfl herr
    dsimp only
    rw [reply_of_error s x st d r0 r1 herr]
    exact ⟨on_error_ringError _ _ _ x.cmd.ring.isLt, fld_cause_ringError _ _ _ x.cmd.ring.isLt,
      (fld_ctail_ringError _ _ _ x.cmd.ring.isLt).trans (fld_finished_ctail s x), by simp, by simp [State.finished_started]⟩
  · rintro x st d r0 r1 rfl rfl herr
    dsimp only
    obtain ⟨htag, hop, hst, hhead, hphase, hd, hr0, hr1⟩ := replyBytes_read s.m.mem
      (keyHost (s.fld (HUB_RING_CPL_ADDR x.cmd.fn x.cmd.ring) * 4096 + 32 * s.fld (HUB_RING_STAT_CTAIL x.cmd.fn x.cmd.ring)))
      s x st d r0 r1
    rw [← reply_mem s st d r0 r1 herr] at htag hop hst hhead hphase hd hr0 hr1
    refine ⟨htag, hop, hst, hhead, hphase, hd, hr0, hr1, ?_, ?_, reply_started s st d r0 r1 herr⟩
    · rw [reply_flips s st d r0 r1 herr]
      exact flips_replyWritten s x _
    · rw [State.fld, reply_regs s st d r0 r1 herr]
      exact fld_ctail_replyWritten s x _

end Sys2Proof.Machine
end

section
open Sys2Proof Sys2Proof.Machine

/-- Settles O48, from the four laws that it joins. -/
theorem rings : Obligations.Rings := ⟨resetLaw_holds, ringLaw_holds, completionHeadLaw_holds, fetchAndReplyLaw_holds⟩

end

section
/-! PROOF. What the fail-safe state stops (18 R592). -/

namespace Sys2Proof.Machine

section
variable {s : State}

/-- The commands of the matrix cores, the streams and the pools stop with their clocks. -/
theorem exec_core_of_failsafe (h : s.on ERR_FAILSAFE_ACTIVE = true) (c : Fin 800) (q : Fin 16) (plane : Fin 2) (id : Nat) :
    ∀ i ∈ [Instr.mxmStart c, .mxmFinish c, .bargePost c, .arrayFault c, .planeReady c plane, .planeFree c plane, .chunkLand c q,
      .feederCreditReturn c q, .berthReturn c id, .streamFetch c q, .poolGroupIssue c q], exec i s = .next s := by
  simp only [List.forall_mem_cons, List.not_mem_nil, false_imp_iff, implies_true, and_true]
  and_intros <;> (unfold exec; exact unlessStopped_on h)

/-- So do those of the base engines. -/
theorem exec_base_of_failsafe (h : s.on ERR_FAILSAFE_ACTIVE = true) (st : Fin 8) (id : Nat) :
    ∀ i ∈ [Instr.gather st id, .pool st id, .scatterAdd st id, .rowUpdate st id, .commandCompletion st id, .sweepRewrite st],
      exec i s = .next s := by
  simp only [List.forall_mem_cons, List.not_mem_nil, false_imp_iff, implies_true, and_true]
  and_intros <;> (unfold exec; exact unlessStopped_on h)

/-- So do those of a step. -/
theorem exec_step_of_failsafe (h : s.on ERR_FAILSAFE_ACTIVE = true) (p : Fin 8) :
    ∀ i ∈ [Instr.stragglerWindowClose p, .phaseStart p, .voteSend p, .appliedSend p, .holdEnter p, .serveHeadTimer p],
      exec i s = .next s := by
  simp only [List.forall_mem_cons, List.not_mem_nil, false_imp_iff, implies_true, and_true]
  and_intros <;> (unfold exec; exact unlessStopped_on h)

/-- So do those of its messages. -/
theorem exec_message_of_failsafe (h : s.on ERR_FAILSAFE_ACTIVE = true) (via : Via) :
    ∀ i ∈ [Instr.vote via, .groupVote via, .verdict via, .applied via, .groupApplied via, .commit via, .rollback via, .abort via,
      .resolve via, .stateMsg via], exec i s = .next s := by
  simp only [List.forall_mem_cons, List.not_mem_nil, false_imp_iff, implies_true, and_true]
  and_intros <;> (unfold exec; exact unlessStopped_on h)

theorem exec_useA_of_failsafe (h : s.on ERR_FAILSAFE_ACTIVE = true) (e : Fin 8) (aOk : Bool) :
    exec (.useA e aOk) s = .next s.asked := by
  have hstand : s.asked.standing = false := s.standing_of_failsafe h
  unfold exec
  exact (if_neg (by simp [hstand])).trans (unlessStopped_on (s := s.asked) h)

theorem exec_arbCommit_of_failsafe (h : s.on ERR_FAILSAFE_ACTIVE = true) (inst : Fin 1824) :
    exec (.arbCommit inst) s = .next s.asked := by
  have hstand : s.asked.standing = false := s.standing_of_failsafe h
  unfold exec
  exact (if_neg (by simp [hstand])).trans (unlessStopped_on (s := s.asked) h)

end

theorem failSafeLaw_holds : failSafeLaw := by
  intro s h
  refine ⟨exec_core_of_failsafe h, fun c => taskHalt_of_failsafe c h, exec_base_of_failsafe h, fun st addr errs => ?_,
    fun tok => ⟨?_, ?_⟩, exec_step_of_failsafe h, fun g p slot bucket span => ⟨?_, ?_⟩, exec_message_of_failsafe h, ?_,
    exec_useA_of_failsafe h, fun e a b => ?_, exec_arbCommit_of_failsafe h, fun fn => ?_⟩
  case refine_8 => rw [exec_functionLevelReset, execFunctionLevelReset, if_pos h]
  all_goals
    unfold exec
    exact unlessStopped_on h

end Sys2Proof.Machine
end

section
/-! PROOF. Fatal reports, latches and what units detect (18 R585, R591 to R593, 21 R664). -/

namespace Sys2Proof.Machine

/-! ### Latches -/

section
variable (s : State) (i detail arg : Nat)

/-- No field of a latch is a field of the fail-safe register. -/
theorem latchReg_ne (f : Fld) (hf : f = ERR_FATAL_VALID i ∨ f = ERR_FATAL_MULTI i ∨ f = ERR_FATAL_DETAIL i ∨ f = ERR_FATAL_TIME i
    ∨ f = ERR_FATAL_ARG i) : 0x3000040 ≠ f.reg := by
  rcases hf with rfl | rfl | rfl | rfl | rfl <;>
    simp only [ERR_FATAL_VALID, ERR_FATAL_MULTI, ERR_FATAL_DETAIL, ERR_FATAL_TIME, ERR_FATAL_ARG, Fld.at_reg] <;> omega

theorem latch_of_set {s : State} (h : s.on (ERR_FATAL_VALID i) = true) : s.latch i detail arg = s.setFld (ERR_FATAL_MULTI i) 1 :=
  if_pos h

theorem latch_of_clear {s : State} (h : s.on (ERR_FATAL_VALID i) = false) : s.latch i detail arg =
    (((s.setFld (ERR_FATAL_VALID i) 1).setFld (ERR_FATAL_DETAIL i) detail).setFld (ERR_FATAL_TIME i) s.timeUs).setFld
      (ERR_FATAL_ARG i) arg := if_neg (by simp [h])

theorem on_failsafe_latch : (s.latch i detail arg).on ERR_FAILSAFE_ACTIVE = s.on ERR_FAILSAFE_ACTIVE := by
  have hne (f : Fld) (hf : f = ERR_FATAL_VALID i ∨ f = ERR_FATAL_MULTI i ∨ f = ERR_FATAL_DETAIL i ∨ f = ERR_FATAL_TIME i
      ∨ f = ERR_FATAL_ARG i) : ERR_FAILSAFE_ACTIVE.reg ≠ f.reg := latchReg_ne i f hf
  refine on_of_fld ?_
  cases h : s.on (ERR_FATAL_VALID i)
  · rw [latch_of_clear i detail arg h, fld_setFld_reg_ne _ _ (hne _ (by simp)), fld_setFld_reg_ne _ _ (hne _ (by simp)),
      fld_setFld_reg_ne _ _ (hne _ (by simp)), fld_setFld_reg_ne _ _ (hne _ (by simp))]
  · rw [latch_of_set i detail arg h, fld_setFld_reg_ne _ _ (hne _ (by simp))]

theorem fld_multi_latch_of_set {s : State} (h : s.on (ERR_FATAL_VALID i) = true) :
    (s.latch i detail arg).fld (ERR_FATAL_MULTI i) = 1 := by
  rw [latch_of_set i detail arg h, State.fld_setFld]
  rfl

theorem latch_fields_of_clear {s : State} (h : s.on (ERR_FATAL_VALID i) = false) :
    (s.latch i detail arg).fld (ERR_FATAL_DETAIL i) = detail % 2 ^ 16
    ∧ (s.latch i detail arg).on (ERR_FATAL_VALID i) = true
    ∧ (s.latch i detail arg).fld (ERR_FATAL_MULTI i) = s.fld (ERR_FATAL_MULTI i) := by
  rw [latch_of_clear i detail arg h]
  refine ⟨?_, ?_, ?_⟩
  · rw [State.fld_setFld_ne, State.fld_setFld_ne, State.fld_setFld]
    · rfl
    all_goals simp only [ERR_FATAL_DETAIL, ERR_FATAL_TIME, ERR_FATAL_ARG, Fld.at_key]; omega
  · rw [on_eq, State.fld_setFld_ne, State.fld_setFld_ne, State.fld_setFld_ne, State.fld_setFld]
    · rfl
    all_goals simp only [ERR_FATAL_VALID, ERR_FATAL_DETAIL, ERR_FATAL_TIME, ERR_FATAL_ARG, Fld.at_key]; omega
  · rw [State.fld_setFld_ne, State.fld_setFld_ne, State.fld_setFld_ne, State.fld_setFld_ne]
    all_goals simp only [ERR_FATAL_VALID, ERR_FATAL_MULTI, ERR_FATAL_DETAIL, ERR_FATAL_TIME, ERR_FATAL_ARG, Fld.at_key]; omega

end

/-! ### The fail-safe state -/

/-- Every port's shutter shut. -/
def State.shutAll (s : State) : State :=
  (List.range 32).foldl (fun s n => if s.on (OP_LASER_SHUT n) then s else s.shutPort n) s

/-- The fields of the fail-safe register as the trigger of a latch sets them. -/
def State.trip (s : State) (i slot : Nat) : State :=
  (((s.setFld ERR_FAILSAFE_ACTIVE 1).setFld ERR_FAILSAFE_LAST_TRIGGER i).setFld ERR_FAILSAFE_DUMP_STATE 1).setFld
    ERR_FAILSAFE_DUMP_SLOT slot

theorem failsafe_regs {s : State} (h : s.on ERR_FAILSAFE_ACTIVE = false) (i : Nat) :
    ∃ slot, (s.failsafe i).regs = (s.shutAll.trip i slot).regs := by
  simp only [State.failsafe, h, Bool.false_eq_true, if_false, State.trip, State.shutAll]
  exact ⟨_, rfl⟩

theorem on_active_trip (s : State) (i slot : Nat) : (s.trip i slot).on ERR_FAILSAFE_ACTIVE = true := by
  rw [State.trip, on_eq, State.fld_setFld_ne, State.fld_setFld_ne, State.fld_setFld_ne, State.fld_setFld]
  · rfl
  all_goals decide

theorem on_active_failsafe (s : State) (i : Nat) : (s.failsafe i).on ERR_FAILSAFE_ACTIVE = true := by
  cases h : s.on ERR_FAILSAFE_ACTIVE
  · obtain ⟨slot, hregs⟩ := failsafe_regs h i
    rw [on_of_regs hregs, on_active_trip]
  · rw [State.failsafe, if_pos h, h]

theorem fatal_of_failsafe {s : State} (h : s.on ERR_FAILSAFE_ACTIVE = true) (i detail kind index arg : Nat) :
    s.fatal i detail kind index arg = s.latch i detail arg := if_pos (by rw [on_failsafe_latch, h])

theorem on_active_fatal (s : State) (i detail kind index arg : Nat) :
    (s.fatal i detail kind index arg).on ERR_FAILSAFE_ACTIVE = true := by
  cases h : s.on ERR_FAILSAFE_ACTIVE
  · have hoff : ¬ (s.latch i detail arg).on ERR_FAILSAFE_ACTIVE = true := by rw [on_failsafe_latch, h]; decide
    rw [State.fatal, if_neg hoff]
    exact on_active_failsafe _ _
  · rw [fatal_of_failsafe h, on_failsafe_latch, h]

/-- A unit of the hub die that is awake reports as any other. -/
theorem hubFatal_of_awake {s : State} (h : s.awake = true) (i detail kind index arg : Nat) :
    s.hubFatal i detail kind index arg = s.fatal i detail kind index arg := if_pos h

/-! ### The watchdog of a dump -/

theorem fld_dumpState_endDump (s : State) (n : Nat) : (s.endDump (some n)).fld ERR_FAILSAFE_DUMP_STATE = 3 := by
  unfold State.endDump
  dsimp only
  rw [State.fld_setFld]
  rfl

theorem dumpWatchdog_truncates {s : State} (h : s.dumping = true) : Gives (exec .dumpWatchdog s) (fun u =>
    u.fld ERR_FAILSAFE_DUMP_STATE = 3) := by
  unfold exec
  exact ⟨_, if_pos h, fld_dumpState_endDump _ _⟩

end Sys2Proof.Machine
end

section
/-! PROOF. Errors of SRAM and the instructions that meet them (03 R135, R137 to R139). -/

namespace Sys2Proof.Machine

/-! ### What a report leaves of what an instruction meets -/

/-- Two states in which a core offers and walks alike: their registers differ in no field that either reads. -/
structure MeetsAlike (s u : State) : Prop where
  walks : WalksAlike s u
  core : u.core = s.core
  mx : u.mx = s.mx
  die : u.dieUp = s.dieUp
  task (c : Nat) : u.taskState c = s.taskState c

theorem pm_pulseAux (s : State) (cls : Nat) : (s.pulseAux cls).pm = { s.pm with aux0 := (s.pulseAux cls).pm.aux0 } := by
  unfold State.pulseAux
  split <;> rfl

theorem pm_report (s : State) (r : Report) : (s.report r).pm = { s.pm with aux0 := (s.report r).pm.aux0 } := by
  have h : (s.report r).pm = (s.pulseAux r.cls).pm := by
    unfold State.report
    dsimp only
    split
    · rfl
    · split <;> rfl
  rw [h]
  exact pm_pulseAux s r.cls

theorem pm_file (s : State) (detail cls kind index arg : Nat) (part : Option Nat) : (s.file detail cls kind index arg part).pm
    = { s.pm with aux0 := (s.file detail cls kind index arg part).pm.aux0 } := pm_report s _

/-- Every register but that of the lost reports. -/
def Reported (r : Nat) : Prop := r ≠ 0x3000008

theorem fld_file_reg (s : State) (detail cls kind index arg : Nat) (part : Option Nat) {g : Fld} (hg : g.reg ≠ 0x3000008) :
    (s.file detail cls kind index arg part).fld g = s.fld g :=
  fldsKept_file (G := Reported) s detail cls kind index arg part (fun h => h rfl) g hg

theorem hubUp_file (s : State) (detail cls kind index arg : Nat) (part : Option Nat) :
    (s.file detail cls kind index arg part).hubUp = s.hubUp := by
  rw [State.hubUp, State.hubUp, pm_file, on_of_fld (fld_file_reg s detail cls kind index arg part (by decide)),
    fld_file_reg s detail cls kind index arg part (by decide)]

theorem dieUp_file (s : State) (detail cls kind index arg : Nat) (part : Option Nat) :
    (s.file detail cls kind index arg part).dieUp = s.dieUp := by
  rw [State.dieUp, State.dieUp, hubUp_file, pm_file, fld_file_reg s detail cls kind index arg part (by decide)]

theorem taskStateFld_reg (c : Nat) : (CL_TASK_STATE_STATE (clusterOf c) (subOf c)).reg ≠ 0x3000008 := by
  simp only [CL_TASK_STATE_STATE, Fld.at_reg, clusterOf, subOf]
  omega

theorem walksAlike_file (s : State) (detail cls kind index arg : Nat) (part : Option Nat) :
    WalksAlike s (s.file detail cls kind index arg part) where
  memory := by simp
  state p := fld_file_reg _ _ _ _ _ _ _ (by simp only [PART_STATUS_STATE, Fld.at_reg]; omega)
  sections p := fld_file_reg _ _ _ _ _ _ _ (by simp only [PART_CFG_SECTIONS, Fld.at_reg]; omega)
  root p := fld_file_reg _ _ _ _ _ _ _ (by simp only [PART_PT_ROOT_ROOT, Fld.at_reg]; omega)
  variant := on_of_fld (fld_file_reg _ _ _ _ _ _ _ (by decide))

theorem meetsAlike_file (s : State) (detail cls kind index arg : Nat) (part : Option Nat) :
    MeetsAlike s (s.file detail cls kind index arg part) where
  walks := walksAlike_file s detail cls kind index arg part
  core := by simp
  mx := by simp
  die := dieUp_file s detail cls kind index arg part
  task c := fld_file_reg _ _ _ _ _ _ _ (taskStateFld_reg c)

section
variable {s u : State}

/-- What an instruction reads of these memories is a matter of the core's registers. -/
theorem sramReads_congr (h : u.core = s.core) (c : Nat) (x : Reading) : u.sramReads c x = s.sramReads c x := by
  obtain ⟨_, _, _, _, core, _⟩ := s
  obtain ⟨_, _, _, _, core', _⟩ := u
  obtain rfl : core' = core := h
  rfl

namespace MeetsAlike

theorem ready (h : MeetsAlike s u) (c t : Nat) : u.threadReady c t = s.threadReady c t := by
  simp only [State.threadReady, State.taskRuns, h.task, State.threads, State.taskF, h.core, State.stat, State.engineFaults, h.mx,
    State.launchNo]
  rfl

theorem turn (h : MeetsAlike s u) (c t : Nat) : u.turn c t = s.turn c t := by
  simp only [State.turn, State.lastOf, State.mayIssue, h.ready, h.core]
  rfl

theorem busy (h : MeetsAlike s u) (c t : Nat) (rs : List (RFile × Nat)) : u.regsBusy c t rs = s.regsBusy c t rs := by
  simp only [State.regsBusy, h.walks.memory]

theorem reader (h : MeetsAlike s u) (loc : SramLoc) : u.engineReader loc = s.engineReader loc := by
  simp only [State.engineReader, h.mx]

end MeetsAlike
end

/-! ### The instruction that meets an error -/

/-- A core of whose operations none is in flight has no register to wait for. -/
theorem regsBusy_of_none {s : State} {c : Nat} (h : ∀ y ∈ s.m.xfers, y.core ≠ c) (t : Nat) (rs : List (RFile × Nat)) :
    s.regsBusy c t rs = false := by
  simp only [State.regsBusy, List.any_eq_false]
  intro y hy
  simp [h y hy]

theorem pickFault_of_ne_nil {fs : List FInfo} (h : fs ≠ []) : ∃ f, pickFault fs = some f := by
  cases fs with
  | nil => exact absurd rfl h
  | cons f r =>
    rw [pickFault]
    split <;> exact ⟨_, rfl⟩

/-- Faults whose walks meet no uncorrectable codeword stop the task. -/
theorem raise_faults {s : State} {core t pc : Nat} {fs : List FInfo} {w : Word} (hlost : s.lostWalk core fs = none)
    (hfs : fs ≠ []) : (s.raise core t pc fs w).taskState core = tkFaulted ∧ (s.raise core t pc fs w).m.mem = s.m.mem := by
  obtain ⟨f, hf⟩ := pickFault_of_ne_nil hfs
  rw [State.raise_of_pick hlost hf]
  exact ⟨(State.taskFault_effect ..).1, by simp⟩

/-- An instruction that reads such memory is offered with the errors that it meets. -/
theorem readWith_issueUe {s : State} {c : Fin 800} {x : Reading} (h : s.sramReads c x ≠ []) (ue : List FInfo) (u : State) :
    ∃ cls op us bad more body, readWith ue c x u = issueUe ue c x.thread cls op x.fields us bad more body u := by
  unfold readWith
  split
  case h_15 h0 h1 h2 h3 h4 h5 h6 h7 h8 h9 h10 h11 h12 h13 =>
    refine absurd ?_ h
    unfold State.sramReads
    dsimp only
    split
    case h_15 => rfl
    all_goals solve_by_elim
  case h_4 =>
    unfold readVlds
    extract_lets
    exact ⟨_, _, _, _, _, _, rfl⟩
  case h_6 | h_7 =>
    unfold readSampling
    extract_lets
    exact ⟨_, _, _, _, _, _, rfl⟩
  case h_8 =>
    unfold readGathl
    extract_lets
    exact ⟨_, _, _, _, _, _, rfl⟩
  case h_13 =>
    unfold readEres
    extract_lets
    exact ⟨_, _, _, _, _, _, rfl⟩
  all_goals exact ⟨_, _, _, _, _, _, rfl⟩

/-- What an instruction that meets an error needs of its core, but for the byte. -/
structure Offered (s : State) (c : Fin 800) (t : Fin 16) : Prop where
  thread : isMatrix c = true → t = 0
  die : s.dieUp = true
  ready : s.threadReady c t = true
  turn : s.turn c t = true
  free : ∀ rs, s.regsBusy c t rs = false
  tables : ∀ va, s.lostTable (clusterOf c) va = none

theorem Offered.faults {s : State} {c : Fin 800} {t : Fin 16} (h : Offered s c t) (e : FInfo) (cls op : Nat) (f : Fields)
    (us : Uses) (bad : Bool) (more : List (RFile × Nat)) (body : State → Eff) :
    Gives (issueUe [e] c t cls op f us bad more body s) (fun u => u.taskState c = tkFaulted ∧ u.m.mem = s.m.mem) := by
  have hissues : Issues s c t f us more := ⟨h.thread, h.die, h.ready, h.turn, h.free _⟩
  have hlost := State.lostWalk_eq_none (s := s.countIssue c) (core := c) fun va => by
    rw [(walksAlike_countIssue s c).lostTable, h.tables]
  rw [issueUe_of_issues hissues, if_neg (by simp)]
  obtain ⟨hstate, hmem⟩ := raise_faults (s := s.countIssue c) (t := t) (pc := s.pc c t) (w := instrWord cls op f)
    (hlost (wordFaults us f bad (s.threads c) ++ [e] ++ if regsNamed us f then (body s).faults (s.pc c t) else [])) (by simp)
  exact ⟨_, rfl, hstate, by rw [hmem]; simp⟩

/-- The instruction whose turn it is meets the error and stops its task. -/
theorem readerUe_faults {s : State} {c : Fin 800} {key offset : Nat} {x : Reading} (h : Offered s c x.thread)
    (hread : (s.sramReads c x).any (fun r => decide (r.1 ≤ key) && decide (key < r.1 + r.2)) = true) :
    ∃ u, s.readerUe c key offset x = some u ∧ u.taskState c = tkFaulted ∧ u.m.mem = s.m.mem := by
  have hne : s.sramReads c x ≠ [] := fun he => by simp [he] at hread
  obtain ⟨cls, op, us, bad, more, body, hissue⟩ := readWith_issueUe hne [wholeAt fcSram offset] s
  obtain ⟨u, hu, hstate, hmem⟩ := h.faults (wholeAt fcSram offset) cls op x.fields us bad more body
  refine ⟨u, ?_, hstate, hmem⟩
  rw [State.readerUe, if_pos (by rw [hread, h.ready, h.turn]; rfl), hissue, hu]

theorem Meets.offered {s u : State} {c : Fin 800} {key : Nat} {x : Reading} (h : Meets s c key x) (hu : MeetsAlike s u) :
    Offered u c x.thread ∧ (u.sramReads c x).any (fun r => decide (r.1 ≤ key) && decide (key < r.1 + r.2)) = true := by
  obtain ⟨hread, hdie, hready, hturn, hthread, hfree, htables⟩ := h
  refine ⟨⟨hthread, ?_, ?_, ?_, fun rs => ?_, fun va => ?_⟩, ?_⟩
  · rw [hu.die, hdie]
  · rw [hu.ready, hready]
  · rw [hu.turn, hturn]
  · rw [hu.busy]
    exact regsBusy_of_none hfree _ rs
  · rw [hu.walks.lostTable, htables]
  · rw [sramReads_congr hu.core, hread]

/-- An error in a core's memory that an instruction meets. -/
theorem coreUe_of_met {s : State} {core offset : Nat} {loc : SramLoc} {met : State → Option State} {u : State}
    (h : met (s.file 0x0011 clsTask 1 core offset (s.corePart core)) = some u) : s.coreUe core offset loc met = u := by
  rw [State.coreUe, h]

/-- The thread that fetches the word meets the error of program memory. -/
theorem fetchUe_faults {s : State} {c : Fin 800} {offset : Nat} {t : Fin 16} (hready : s.threadReady c t = true)
    (hturn : s.turn c t = true) (hpc : s.pc c t = offset / 8) :
    (s.fetchUe c offset).taskState c = tkFaulted ∧ (s.fetchUe c offset).m.mem = s.m.mem := by
  have hsome : ((List.range 16).find? (fun t => s.threadReady c t && s.turn c t && decide (s.pc c t = offset / 8))).isSome := by
    rw [List.find?_isSome]
    exact ⟨t, List.mem_range.2 t.isLt, by simp [hready, hturn, hpc]⟩
  obtain ⟨k, hk⟩ := Option.isSome_iff_exists.1 hsome
  rw [State.fetchUe, hk]
  dsimp only
  obtain ⟨hstate, hmem⟩ := raise_faults (s := (s.free 64).2.countIssue c) (core := c) (t := k) (pc := (s.free 64).2.pc c k)
    (fs := [wholeAt fcSram offset]) (w := BitVec.ofNat 64 (s.free 64).1) rfl (by simp)
  exact ⟨hstate, by rw [hmem]; simp⟩

/-- An error of a core memory that an instruction of a core of its cluster meets. -/
theorem coreUe_met {s : State} {core o key : Nat} {loc : SramLoc} {k : Fin 800} {x : Reading} (hmeets : Meets s k key x) :
    (s.coreUe core o loc (fun s => s.readerUe k key o x)).taskState k = tkFaulted
    ∧ (s.coreUe core o loc (fun s => s.readerUe k key o x)).m.mem = s.m.mem := by
  obtain ⟨hoff, hread⟩ := hmeets.offered (meetsAlike_file s 0x0011 clsTask 1 core o (s.corePart core))
  obtain ⟨u, hu, hstate, hmem⟩ := readerUe_faults (offset := o) hoff hread
  rw [coreUe_of_met (met := fun s => s.readerUe k key o x) hu]
  exact ⟨hstate, by rw [hmem]; simp⟩

/-! ### The commands -/

section
variable {s : State} (hawake : s.awake = true) (hactive : s.on ERR_FAILSAFE_ACTIVE = false)
include hawake hactive

theorem sramUe_shared_owned {cl : Fin 40} {o p : Nat} {r : Option (Fin 20 × Reading)} (h : s.clusterPart cl = some p) :
    exec (.sramUe (.shared cl o r)) s = .next ((s.file 0x0011 clsPartition 2 cl o (some p)).fencePart p 1) := by
  simp only [exec, execSramUe, hawake, hactive, Bool.not_true, Bool.false_eq_true, if_false, h]

theorem sramUe_shared_met {cl : Fin 40} {o : Nat} {k : Fin 20} {x : Reading} {c : Fin 800} (h : s.clusterPart cl = none)
    (hc : c.val = cl * 20 + k) (hmeets : Meets s c (keyShared cl o) x) :
    Gives (exec (.sramUe (.shared cl o (some (k, x)))) s) (fun u => u.taskState c = tkFaulted ∧ u.m.mem = s.m.mem) := by
  obtain ⟨hoff, hread⟩ := hmeets.offered (meetsAlike_file s 0x0011 clsNotice 2 cl o none)
  obtain ⟨u, hu, hstate, hmem⟩ := readerUe_faults (offset := o) hoff hread
  have hcore : (⟨cl * 20 + k, by omega⟩ : Fin 800) = c := Fin.ext hc.symm
  simp only [exec, execSramUe, hawake, hactive, Bool.not_true, Bool.false_eq_true, if_false, h, hcore, hu]
  exact ⟨u, rfl, hstate, by rw [hmem]; simp⟩

theorem sramUe_shared_unmet {cl : Fin 40} {o : Nat} (h : s.clusterPart cl = none) :
    exec (.sramUe (.shared cl o none)) s = .next (s.file 0x0011 clsNotice 2 cl o) := by
  simp only [exec, execSramUe, hawake, hactive, Bool.not_true, Bool.false_eq_true, if_false, h]

theorem sramUe_program {c : Fin 800} {o : Nat} {t : Fin 16} (hready : s.threadReady c t = true) (hturn : s.turn c t = true)
    (hpc : s.pc c t = o / 8) :
    Gives (exec (.sramUe (.program c o)) s) (fun u => u.taskState c = tkFaulted ∧ u.m.mem = s.m.mem) := by
  have halike := meetsAlike_file s 0x0011 clsTask 1 c o (s.corePart c)
  obtain ⟨hstate, hmem⟩ := fetchUe_faults (s := s.file 0x0011 clsTask 1 c o (s.corePart c)) (c := c) (offset := o) (t := t)
    (by rw [halike.ready, hready]) (by rw [halike.turn, hturn]) (by rw [State.pc, halike.core]; exact hpc)
  simp only [exec, execSramUe, hawake, hactive, Bool.not_true, Bool.false_eq_true, if_false]
  exact ⟨_, rfl, hstate, by rw [show (s.coreUe c o (.program c o) fun s => some (s.fetchUe c o)).m.mem = _ from hmem]; simp⟩

theorem sramUe_plane {c : Fin 800} {q : Fin 2} {o id : Nat} (h : s.engineReader (.plane c q o) = some id) :
    exec (.sramUe (.plane c q o)) s = .next ((s.file 0x0011 clsTask 1 c o (s.corePart c)).engineUe c id o) := by
  have halike := meetsAlike_file s 0x0011 clsTask 1 c o (s.corePart c)
  simp only [exec, execSramUe, hawake, hactive, Bool.not_true, Bool.false_eq_true, if_false]
  rw [State.coreUe, halike.reader, h]

end

theorem latchClear_key_ne (i : Nat) : (ERR_FATAL_MULTI i).key ≠ (ERR_FATAL_VALID i).key := by
  simp only [ERR_FATAL_MULTI, ERR_FATAL_VALID, Fld.at_key]
  omega

section
variable {s : State} {rail : Fin 7} {v : Nat} (haon : s.pm.aon = true)
include haon

theorem undervoltage_warns (hv : v < 960) (hnew : s.pm.lowRails.contains rail.val = false) :
    exec (.undervoltageWarning rail v) s = .next { s with
      j := { s.j with hist := s.j.hist ++ [(3, s.timeUs, rail.val)] }
      pm := { s.pm with lowRails := s.pm.lowRails ++ [rail.val] } } := by
  exact (if_neg (by simp [haon])).trans (if_pos ⟨hv, by rw [hnew]; rfl⟩)

theorem undervoltage_warned (hv : v < 960) (hold : s.pm.lowRails.contains rail.val = true) :
    exec (.undervoltageWarning rail v) s = .next s := by
  exact (if_neg (by simp [haon])).trans ((if_neg fun h => by rw [hold] at h; exact absurd h.2 (by decide)).trans
    (if_neg (by omega)))

theorem undervoltage_rearms (hv : 980 < v) : exec (.undervoltageWarning rail v) s = .next { s with
      pm := { s.pm with lowRails := s.pm.lowRails.filter (· != rail.val) } } := by
  exact (if_neg (by simp [haon])).trans ((if_neg (by omega)).trans (if_pos hv))

end

theorem detectedErrorsLaw_holds : detectedErrorsLaw := by
  refine ⟨fun i detail kind index arg s => ⟨on_active_fatal s i detail kind index arg, fun h => fatal_of_failsafe h i detail kind index arg,
      latch_fields_of_clear i detail arg, fld_multi_latch_of_set i detail arg⟩, fun s hgood => ⟨fun die tj htj => ?_, fun rail v hv => ?_,
      fun rail v hlow hhigh => ?_, fun hus hmoor => ?_⟩, fun rail v s haon => ⟨fun hv hnew => ?_, fun hv hold => ?_, fun hv => ?_⟩,
    fun s hawake => ⟨fun die tj htj => ?_, ?_, fun code => ?_, fun code => ?_, fun link => ?_, fun hactive => ⟨fun cl o r =>
      ⟨fun p => sramUe_shared_owned hawake hactive, fun hnone => ⟨?_, ?_⟩⟩, fun c o r x => ⟨fun hmeets => ?_, fun hmeets => ?_⟩,
      fun c o t => sramUe_program hawake hactive, fun c q o id => sramUe_plane hawake hactive⟩⟩,
    fun s hgood hmoor hactive hdump => ?_, fun i s hup => ?_⟩
  · exact if_pos ⟨htj, hgood⟩
  · exact if_pos ⟨hv, hgood⟩
  · exact if_neg (by omega)
  · exact if_pos ⟨hgood, hus, by simp [hmoor]⟩
  · exact ⟨_, undervoltage_warns haon hv hnew, rfl, by simp, rfl, rfl⟩
  · exact undervoltage_warned haon hv hold
  · exact ⟨_, undervoltage_rearms haon hv, by simp, rfl, rfl, rfl⟩
  · exact if_pos (by simp [hawake, htj])
  · exact congrArg Host.Outcome.next (hubFatal_of_awake hawake ..)
  · exact congrArg Host.Outcome.next (hubFatal_of_awake hawake ..)
  · exact congrArg Host.Outcome.next (hubFatal_of_awake hawake ..)
  · exact congrArg Host.Outcome.next (hubFatal_of_awake hawake ..)
  · rintro k x rfl c hc hmeets
    exact sramUe_shared_met hawake hactive hnone hc hmeets
  · rintro rfl
    exact sramUe_shared_unmet hawake hactive hnone
  · simp only [exec, execSramUe, hawake, hactive, Bool.not_true, Bool.false_eq_true, if_false]
    exact ⟨_, rfl, coreUe_met hmeets⟩
  · simp only [exec, execSramUe, hawake, hactive, Bool.not_true, Bool.false_eq_true, if_false]
    exact ⟨_, rfl, coreUe_met hmeets⟩
  · exact dumpWatchdog_truncates (by simp [State.dumping, hgood, hmoor, hactive, hdump])
  · exact ⟨_, if_pos hup, by rw [on_of_fld (State.fld_setFld_ne _ _ (latchClear_key_ne i)), on_setFld_zero], on_setFld_zero _ _, rfl⟩

end Sys2Proof.Machine
end

section
/-! PROOF. The row of a started command whose turn has come (17 R570, R573, R578). -/

namespace Sys2Proof.Machine

/-- The outcome of a row. -/
def HRes.out (x : Started) : HRes → Out
  | .reply s st d r0 r1 => .next (s.reply x st d r0 r1)
  | .stay s => .next s

@[simp] theorem HRes.out_reply (x : Started) (s : State) (st d r0 r1 : Nat) :
    (HRes.reply s st d r0 r1).out x = .next (s.reply x st d r0 r1) := rfl
@[simp] theorem HRes.out_ok (x : Started) (s : State) (r0 r1 : Nat) : (HRes.ok s r0 r1).out x = .next (s.reply x stOk 0 r0 r1) := rfl
@[simp] theorem HRes.out_no (x : Started) (s : State) (st d : Nat) : (HRes.no s st d).out x = .next (s.reply x st d 0 0) := rfl
@[simp] theorem HRes.out_stay (x : Started) (s : State) : (HRes.stay s).out x = .next s := rfl
@[simp] theorem HRes.out_badState (x : Started) (s : State) (p : Nat) :
    (HRes.badState s p).out x = .next (s.reply x stBadState (s.partStatus p) 0 0) := rfl

section
variable {s : State} {x : Started} {op : Nat}

/-- The row of a command that is served is what its body makes of it. -/
theorem hostRow_of_served (h : Served s x op) (g : Started → Nat → State → HRes) :
    hostRow op x.cmd g s = (g x (cPart x.cmd) s).out x := by
  obtain ⟨hfind, hup, hop, hwait, hstand, hfenced, herr⟩ := h
  have hturn : ¬ (!s.hubUp || decide (cOp x.cmd ≠ op) || s.mustWait x || (s.standing && !onStand op)) = true := by
    rcases hstand with h | h <;> simp [hup, hop, hwait, h]
  have hopen : ¬ ((opUse op).any OpUse.usesPart && s.partState (cPart x.cmd) == ptFenced && !onFenced op) = true := by
    rcases hfenced with h | h | h <;> simp [h]
  have hdata : ¬ (x.err = .data ∧ cLen x.cmd ≠ 0) := by tauto
  rw [hostRow, hfind]
  dsimp only
  rw [if_neg hturn, if_neg hopen, if_neg hdata]
  cases g x (cPart x.cmd) s <;> rfl

/-- A command of a boundary that its check lets pass is applied at once while the job is at rest. -/
theorem boundaryRow_of_rest (h : Served s x op) {check : Nat → State → Option HRes} {apply : HostCmd → Nat → State → State × Nat × Nat}
    (hcheck : check (cPart x.cmd) s = none) (hrest : s.atRest (cPart x.cmd) = true) (hwaits : s.waitsTable x.cmd (cPart x.cmd) = false) :
    boundaryRow op x.cmd check apply s =
      let r := apply x.cmd (cPart x.cmd) s
      .next (r.1.reply x r.2.1 (if r.2.1 = stBadState then r.1.partStatus (cPart x.cmd) else 0) r.2.2 0) := by
  rw [boundaryRow, hostRow_of_served h]
  simp only [hcheck, hrest, hwaits, Bool.not_false, Bool.and_self, if_true, HRes.out_reply]

/-- While the job is in a step it is held. -/
theorem boundaryRow_of_step (h : Served s x op) {check : Nat → State → Option HRes} {apply : HostCmd → Nat → State → State × Nat × Nat}
    (hcheck : check (cPart x.cmd) s = none) (hrest : s.atRest (cPart x.cmd) = false) (hnew : s.h.held.contains x.cmd = false) :
    boundaryRow op x.cmd check apply s = .next { s with h := { s.h with held := s.h.held ++ [x.cmd] } } := by
  rw [boundaryRow, hostRow_of_served h]
  simp only [hcheck, hrest, hnew, Bool.false_and, Bool.false_eq_true, if_false, HRes.out_stay]

end

end Sys2Proof.Machine
end

section
/-! PROOF. The error log, its mirror, the counters and the commands that read them (18 R586 to R602). -/

namespace Sys2Proof.Machine

/-! ### The first element that a predicate holds for, changed -/

section
variable {α : Type} {p : α → Bool} {f : α → α}

theorem length_modFirst (l : List α) : (modFirst p f l).length = l.length := by
  induction l with
  | nil => rfl
  | cons x r ih =>
    rw [modFirst]
    split
    · rfl
    · exact congrArg (· + 1) ih

theorem mem_modFirst {l : List α} {e : α} (h : l.find? p = some e) : f e ∈ modFirst p f l := by
  induction l with
  | nil => simp at h
  | cons x r ih =>
    rw [List.find?_cons] at h
    rw [modFirst]
    cases hx : p x
    · rw [hx] at h
      exact List.mem_cons_of_mem _ (ih h)
    · rw [hx] at h
      obtain rfl : x = e := Option.some.inj h
      exact List.mem_cons_self

/-- Where the change ends what the predicate says, one element fewer satisfies it. -/
theorem length_filter_modFirst {l : List α} {e : α} (hf : ∀ x, p (f x) = false) (h : l.find? p = some e) :
    ((modFirst p f l).filter p).length + 1 = (l.filter p).length := by
  induction l with
  | nil => simp at h
  | cons x r ih =>
    rw [List.find?_cons] at h
    rw [modFirst]
    cases hx : p x
    · rw [hx] at h
      simpa [hx] using ih h
    · simp [hx, hf]

end

/-! ### Reports -/

section
variable (s : State) (l : List LogEnt)

@[simp] theorem State.setLog_log : (s.setLog l).e.log = l := rfl
@[simp] theorem State.setLog_intake : (s.setLog l).e.intake = s.e.intake := rfl
@[simp] theorem State.setLog_h : (s.setLog l).h = s.h := rfl

theorem fld_setLog {g : Fld} (hg : ERR_LOG_STAT_FREE.key ≠ g.key) : (s.setLog l).fld g = s.fld g := State.fld_setFld_ne _ _ hg

end

section
variable {s : State} {r : Report}

theorem logReport_of_merges (h : s.e.log.any (LogEnt.merges r) = true) : s.logReport r = s.setLog (modFirst (LogEnt.merges r)
    (fun e => { e with count := min (e.count + 1) 0xFFFF, last := s.timeUs - e.time }) s.e.log) := if_pos h

theorem logReport_of_new (h : s.e.log.any (LogEnt.merges r) = false) (hfree : 64 ≤ s.logFree) (hlen : s.e.log.length < 4096)
    (hopen : (s.e.log.filter LogEnt.windowOpen).length < 64) : s.logReport r =
      ((s.setLog (s.e.log ++ [⟨s.timeUs, r, 1, s.fld ERR_LOG_STAT_SEQ, 0, true, false⟩])).setFld ERR_LOG_STAT_SEQ
        (s.fld ERR_LOG_STAT_SEQ + 1)).setFld ERR_LOG_STAT_NEXT (s.fld ERR_LOG_STAT_SEQ + 1) := by
  have hroom : ¬ (s.logFree = 0 ∨ (decide (r.cls ≤ clsNotice) = true ∧ s.logFree < 64)) := by omega
  simp only [State.logReport, h, Bool.false_eq_true, if_false]
  rw [if_neg hroom, if_neg (Nat.not_le.2 hopen), if_neg (Nat.not_le.2 hlen)]

theorem logReport_of_lost (h : s.e.log.any (LogEnt.merges r) = false) (hfree : s.logFree < 64) (hlow : r.cls ≤ clsNotice) :
    s.logReport r = s.bump ERR_LOST_LOW 1 := by
  have hlost : s.logFree = 0 ∨ (decide (r.cls ≤ clsNotice) = true ∧ s.logFree < 64) := .inr ⟨decide_eq_true hlow, hfree⟩
  simp only [State.logReport, h, Bool.false_eq_true, if_false]
  rw [if_pos hlost, if_pos (decide_eq_true hlow)]

/-- A saturating register of 32 bits. -/
theorem fld_bump (s : State) (f : Fld) (n : Nat) : (s.bump f n).fld f = min (s.fld f + n) (2 ^ f.len - 1) := by
  rw [State.bump, State.fld_setFld, satAdd]
  have := Nat.two_pow_pos f.len
  exact Nat.mod_eq_of_lt (by omega)

end

/-- The report at the head of the intake taken off. -/
def State.reportTaken (s : State) (rest : List Report) : State := { s with e := { s.e with intake := rest } }

theorem exec_reportLog {s : State} {r : Report} {rest : List Report} (h : s.e.intake = r :: rest) :
    exec .reportLog s = .next ((s.reportTaken rest).logReport r) := by
  simp only [exec, execReportLog, h]
  rfl

theorem reportLog_spec {s : State} {r : Report} {rest : List Report} (h : s.e.intake = r :: rest) :
    (s.e.log.any (LogEnt.merges r) = true → Gives (exec .reportLog s) (fun u => u.e.intake = rest
      ∧ u.e.log.length = s.e.log.length ∧ u.fld ERR_LOG_STAT_SEQ = s.fld ERR_LOG_STAT_SEQ))
    ∧ (s.e.log.any (LogEnt.merges r) = false → 64 ≤ s.logFree → s.e.log.length < 4096 →
      (s.e.log.filter LogEnt.windowOpen).length < 64 → Gives (exec .reportLog s) (fun u => u.e.intake = rest
        ∧ u.e.log = s.e.log ++ [⟨s.timeUs, r, 1, s.fld ERR_LOG_STAT_SEQ, 0, true, false⟩]
        ∧ u.fld ERR_LOG_STAT_SEQ = (s.fld ERR_LOG_STAT_SEQ + 1) % 2 ^ 32))
    ∧ (s.e.log.any (LogEnt.merges r) = false → s.logFree < 64 → r.cls ≤ clsNotice →
      Gives (exec .reportLog s) (fun u => u.e.intake = rest ∧ u.e.log = s.e.log
        ∧ u.fld ERR_LOST_LOW = min (s.fld ERR_LOST_LOW + 1) (2 ^ 32 - 1))) := by
  refine ⟨fun hmerge => ⟨_, exec_reportLog h, ?_⟩, fun hnew hfree hlen hopen => ⟨_, exec_reportLog h, ?_⟩,
    fun hnew hfree hlow => ⟨_, exec_reportLog h, ?_⟩⟩
  · rw [logReport_of_merges (s := s.reportTaken rest) hmerge]
    exact ⟨rfl, length_modFirst _, fld_setLog _ _ (by decide)⟩
  · rw [logReport_of_new (s := s.reportTaken rest) hnew hfree hlen hopen]
    refine ⟨rfl, rfl, ?_⟩
    rw [State.fld_setFld_ne _ _ (by decide), State.fld_setFld]
    rfl
  · rw [logReport_of_lost (s := s.reportTaken rest) hnew hfree hlow]
    exact ⟨rfl, rfl, fld_bump _ _ _⟩

/-! ### Windows and the mirror -/

theorem logWindowClose_spec {s : State} {e : LogEnt} (h : s.e.log.find? LogEnt.windowOpen = some e) :
    Gives (exec (.logWindowClose (e.seq % 4096)) s) (fun u => u.e.log.length = s.e.log.length
      ∧ { e with windowOpen := false } ∈ u.e.log
      ∧ (u.e.log.filter LogEnt.windowOpen).length + 1 = (s.e.log.filter LogEnt.windowOpen).length) := by
  refine ⟨s.setLog (modFirst LogEnt.windowOpen (fun e => { e with windowOpen := false }) s.e.log), ?_, length_modFirst _,
    mem_modFirst (f := fun e : LogEnt => { e with windowOpen := false }) h, length_filter_modFirst (fun _ => rfl) h⟩
  simp only [exec, execLogWindowClose, h, if_true]

theorem length_logBytes (e : LogEnt) : (logBytes e).length = 32 := by simp [logBytes]

/-- The entry stands in the mirror, and is marked so. -/
def State.mirrored (s : State) (e : LogEnt) : State :=
  let t := s.fld ERR_MIRROR_TAIL_TAIL
  let u := s.wrB (keyHost (s.fld ERR_MIRROR_BASE_ADDR * 64 + 32 * t)) (logBytes e)
  (u.setLog (modFirst (fun e => !e.mirrored) (fun e => { e with mirrored := true }) u.e.log)).setFld ERR_MIRROR_TAIL_TAIL
    ((t + 1) % s.mirrorN)

theorem exec_mirrorCopy {s : State} {e : LogEnt} (hup : s.hubUp = true) (hen : s.on ERR_MIRROR_CFG_EN = true)
    (hroom : (s.fld ERR_MIRROR_TAIL_TAIL + 1) % s.mirrorN ≠ s.fld ERR_MIRROR_HEAD_HEAD % s.mirrorN)
    (hnext : s.e.log.find? (fun e => !e.mirrored) = some e) (hfinal : e.windowOpen = false) :
    exec .mirrorCopy s = .next ((s.mirrored e).fire 0 1) := by
  have hgo : ¬ (!s.hubUp || !s.on ERR_MIRROR_CFG_EN || decide ((s.fld ERR_MIRROR_TAIL_TAIL + 1) % s.mirrorN
      = s.fld ERR_MIRROR_HEAD_HEAD % s.mirrorN)) = true := by simp [hup, hen, hroom]
  unfold exec
  refine (if_neg hgo).trans ?_
  rw [hnext]
  exact if_neg (by simp [hfinal])

theorem mirrorCopy_spec {s : State} {e : LogEnt} (hup : s.hubUp = true) (hen : s.on ERR_MIRROR_CFG_EN = true)
    (hroom : (s.fld ERR_MIRROR_TAIL_TAIL + 1) % s.mirrorN ≠ s.fld ERR_MIRROR_HEAD_HEAD % s.mirrorN)
    (hnext : s.e.log.find? (fun e => !e.mirrored) = some e) (hfinal : e.windowOpen = false) :
    Gives (exec .mirrorCopy s) (fun u =>
      u.rdB (keyHost (s.fld ERR_MIRROR_BASE_ADDR * 64 + 32 * s.fld ERR_MIRROR_TAIL_TAIL)) 32 = logBytes e
      ∧ { e with mirrored := true } ∈ u.e.log) := by
  refine ⟨_, exec_mirrorCopy hup hen hroom hnext hfinal, ?_, ?_⟩
  · have hmem : ((s.mirrored e).fire 0 1).m.mem = s.m.mem.wrBytes (keyHost (s.fld ERR_MIRROR_BASE_ADDR * 64
        + 32 * s.fld ERR_MIRROR_TAIL_TAIL)) (logBytes e) := by
      simp only [State.fire_frame]
      rfl
    rw [State.rdB, hmem, ← length_logBytes e]
    exact Mem.rdBytes_wrBytes ..
  · simp only [State.fire_frame]
    exact mem_modFirst (f := fun e : LogEnt => { e with mirrored := true }) hnext

/-! ### ERR_CTRL -/

section
variable {s : State} (hup : s.hubUp = true)
include hup

theorem mirrorHeadWrite_spec (v : BitVec 16) :
    Gives (exec (.mirrorHeadWrite v) s) (fun u => u.fld ERR_MIRROR_HEAD_HEAD = v.toNat ∧ u.e = s.e) := by
  refine ⟨_, if_pos hup, ?_, rfl⟩
  rw [State.fld_setFld]
  exact Nat.mod_eq_of_lt v.isLt

theorem clearLost_spec : Gives (exec .clearLost s) (fun u => u.fld ERR_LOST_LOW = 0 ∧ u.fld ERR_LOST_HIGH = 0 ∧ u.e = s.e) := by
  refine ⟨_, if_pos hup, ?_, State.fld_setFld _ _ _, rfl⟩
  rw [State.fld_setFld_ne _ _ (by decide), State.fld_setFld]
  rfl

theorem cntFreeze_spec : Gives (exec .cntFreeze s) (fun u => u.on ERR_CTRL_CNT_FREEZE = true ∧ ∀ f n, u.count f n = u) :=
  have hon := on_setFld_one s.asked (f := ERR_CTRL_CNT_FREEZE) rfl
  ⟨_, if_pos hup, hon, fun _ _ => if_pos hon⟩

theorem cntUnfreeze_spec : Gives (exec .cntUnfreeze s) (fun u => u.on ERR_CTRL_CNT_FREEZE = false) :=
  ⟨_, if_pos hup, on_setFld_zero _ _⟩

theorem cntClear_spec : Gives (exec .cntClear s) (fun u => (∀ f : Fld, isCounter f.key = true → u.fld f = f.rst)
    ∧ (∀ f : Fld, isCounter f.key = false → u.fld f = s.fld f) ∧ u.m = s.m) := by
  refine ⟨_, if_pos hup, fun f hf => ?_, fun f hf => ?_, rfl⟩
  · exact (Tab.get_drop ..).trans (if_pos hf)
  · exact (Tab.get_drop ..).trans (if_neg (by simp [hf]))

end

/-! ### The host's commands -/

/-- The mirror's ring set as ERR_RING asks. -/
def State.ringSet (s : State) (a n : Nat) : State :=
  let t := ((s.setFld ERR_MIRROR_BASE_ADDR (a / 64)).setFld ERR_MIRROR_CFG_EN 1).setFld ERR_MIRROR_CFG_LOG2N (Nat.log2 n)
  ((t.setFld ERR_MIRROR_TAIL_TAIL 0).setFld ERR_MIRROR_HEAD_HEAD 0).setLog s.e.log

theorem ringSet_spec (s : State) (a : Nat) {k : Nat} (hk : k ≤ 16) :
    (s.ringSet a (2 ^ k)).on ERR_MIRROR_CFG_EN = true ∧ (s.ringSet a (2 ^ k)).mirrorN = 2 ^ k
      ∧ (s.ringSet a (2 ^ k)).fld ERR_MIRROR_TAIL_TAIL = 0 ∧ (s.ringSet a (2 ^ k)).fld ERR_MIRROR_HEAD_HEAD = 0
      ∧ (s.ringSet a (2 ^ k)).e.log = s.e.log := by
  simp only [State.ringSet]
  refine ⟨?_, ?_, ?_, ?_, rfl⟩
  · rw [on_of_fld (fld_setLog _ _ (by decide)), on_of_fld (State.fld_setFld_ne _ _ (by decide)),
      on_of_fld (State.fld_setFld_ne _ _ (by decide)), on_of_fld (State.fld_setFld_ne _ _ (by decide))]
    exact on_setFld_one _ rfl
  · rw [State.mirrorN, fld_setLog _ _ (by decide), State.fld_setFld_ne _ _ (by decide), State.fld_setFld_ne _ _ (by decide),
      State.fld_setFld, Nat.log2_two_pow, Nat.mod_eq_of_lt (show k < 2 ^ ERR_MIRROR_CFG_LOG2N.len by change k < 32; omega)]
  · rw [fld_setLog _ _ (by decide), State.fld_setFld_ne _ _ (by decide), State.fld_setFld]
    rfl
  · rw [fld_setLog _ _ (by decide), State.fld_setFld]
    rfl

section
variable {s : State} {x : Started}

theorem errRing_spec (h : Served s x 0x0800) (ha : cP x.cmd 0 % 64 = 0) (hn : ∃ k, 6 ≤ k ∧ k ≤ 16 ∧ cP x.cmd 1 = 2 ^ k) :
    Gives (exec (.errRing x.cmd) s) (fun u => ∃ t : State, u = t.reply x stOk 0 0 0 ∧ t.on ERR_MIRROR_CFG_EN = true
      ∧ t.mirrorN = cP x.cmd 1 ∧ t.fld ERR_MIRROR_TAIL_TAIL = 0 ∧ t.fld ERR_MIRROR_HEAD_HEAD = 0 ∧ t.e.log = s.e.log) := by
  obtain ⟨k, hlow, hhigh, hk⟩ := hn
  have hsize : ¬ (cP x.cmd 1 < 64 ∨ 65536 < cP x.cmd 1 ∨ 2 ^ Nat.log2 (cP x.cmd 1) ≠ cP x.cmd 1) := by
    have h1 : 2 ^ 6 ≤ 2 ^ k := Nat.pow_le_pow_right (by decide) hlow
    have h2 : 2 ^ k ≤ 2 ^ 16 := Nat.pow_le_pow_right (by decide) hhigh
    rw [hk, Nat.log2_two_pow]
    omega
  refine ⟨(s.ringSet (cP x.cmd 0) (cP x.cmd 1)).reply x stOk 0 0 0, ?_, _, rfl, ?_⟩
  · unfold exec
    refine (hostRow_of_served h _).trans ?_
    simp only [ha, ne_eq, not_true_eq_false, if_false]
    rw [if_neg hsize]
    rfl
  · rw [hk]
    exact ringSet_spec s _ hhigh

theorem slotUsed_of_best {i : Nat} (h : s.bestSlot = some i) : s.slotUsed i = true := by
  have hused (j : Nat) (hj : s.slotComplete j = true) : s.slotUsed j = true := by
    rw [State.slotComplete, Bool.and_eq_true] at hj
    exact hj.1
  unfold State.bestSlot at h
  split at h
  case h_1 h0 h1 =>
    obtain rfl := Option.some.inj h
    split
    · exact hused 1 h1
    · exact hused 0 h0
  case h_2 h0 _ =>
    obtain rfl := Option.some.inj h
    exact hused 0 h0
  case h_3 _ h1 =>
    obtain rfl := Option.some.inj h
    exact hused 1 h1
  case h_4 => exact absurd h (by simp)

theorem dumpRead_spec {i : Nat} (h : Served s x 0x0801) (hbest : s.bestSlot = some i)
    (hlen : s.rd (s.slotKey i + 0x58) 8 ≤ cLen x.cmd) : exec (.dumpRead x.cmd) s =
      .next ((s.wrB (keyHost (cData x.cmd)) (s.rdB (s.slotKey i) (s.rd (s.slotKey i + 0x58) 8))).reply x stOk 0 (s.slotSeq i)
        (s.rd (s.slotKey i + 0x58) 8)) := by
  unfold exec
  refine (hostRow_of_served h _).trans ?_
  simp only [hbest, Option.getD_some, slotUsed_of_best hbest, Bool.not_true, Bool.false_eq_true, if_false]
  rw [if_neg (Nat.not_lt.2 hlen)]
  rfl

/-- The optical inputs that are dark, reported. -/
theorem runTest_one (s : State) : s.runTest 1 = (!s.darkInputs.isEmpty,
    s.darkInputs.foldl (fun s i => s.file 0x0090 clsNotice 9 i (1 + i * 2 ^ 16)) s) := rfl

theorem selfTest_spec (h : Served s x 0x0802) (hmask : cP x.cmd 0 = 2) : exec (.selfTest x.cmd) s = .next
    ((s.darkInputs.foldl (fun s i => s.file 0x0090 clsNotice 9 i (1 + i * 2 ^ 16)) s).reply x stOk 0
      (if s.darkInputs.isEmpty then 0 else 2) 0) := by
  have htests : (List.range 8).filter (bit 2) = [1] := by decide
  have hskip (part : Bool) : (List.range 8).filter (fun t => bit 2 t && part && decide (2 ≤ t) && decide (t ≤ 5)) = [] := by
    cases part <;> decide
  unfold exec
  refine (hostRow_of_served h _).trans ?_
  simp only [hmask, htests, hskip, List.foldl_cons, List.foldl_nil, runTest_one]
  by_cases hdark : s.darkInputs.isEmpty = true <;> simp [hdark, sumOf]

theorem echo_spec (h : Served s x 0x0803) : exec (.echo x.cmd) s = .next (s.reply x stOk 0 (cP x.cmd 0) 0) := by
  unfold exec
  exact hostRow_of_served h _

end

theorem errorLogAndMirrorLaw_holds : errorLogAndMirrorLaw :=
  ⟨fun _ _ _ => reportLog_spec, fun _ _ => logWindowClose_spec,
    fun _ hup => ⟨mirrorHeadWrite_spec hup, fun _ hen hroom hnext hfinal => mirrorCopy_spec hup hen hroom hnext hfinal,
      clearLost_spec hup, cntFreeze_spec hup, cntUnfreeze_spec hup, cntClear_spec hup⟩,
    fun _ _ => ⟨errRing_spec, fun _ => dumpRead_spec, selfTest_spec, echo_spec⟩⟩

end Sys2Proof.Machine
end

section
open Sys2Proof Sys2Proof.Machine

/-- Settles O54: the log and its mirror, and what units detect. -/
theorem errorLogAndMirror : Obligations.ErrorLogAndMirror := ⟨errorLogAndMirrorLaw_holds, detectedErrorsLaw_holds⟩

/-- Settles O55: what units detect, and what the fail-safe state stops. -/
theorem detectedErrors : Obligations.DetectedErrors := ⟨detectedErrorsLaw_holds, failSafeLaw_holds⟩

end

section
/-! Writes of registers that have no row of their own (20 R638 to R643). -/

namespace Sys2Proof.Machine

theorem exec_registerWrite_bar (q : Requester) (off size : Nat) (v : Word) (s : State) :
    exec (.registerWrite q (.bar off size) v) s = .next (s.asked.writeBar q off size v) := rfl

theorem asked_ringLocked (s : State) (a : Nat) : s.asked.ringLocked a = s.ringLocked a := rfl

/-! ### When a write of BAR0 is discarded -/

theorem State.writeBar_of_fnShut {s : State} {q : Requester} (hshut : s.fnShut q = true) (off size : Nat)
    (v : Word) : s.writeBar q off size v = s := by
  unfold State.writeBar
  simp only [hshut, if_true, ite_self]

theorem State.writeBar_of_size {s : State} {q : Requester} {off size : Nat}
    (h : (size ≠ 4 ∧ size ≠ 8) ∨ off % size ≠ 0) (v : Word) : s.writeBar q off size v = s := by
  have hbad : (!s.hubUp || !(size == 4 || size == 8) || off % size != 0) = true := by
    simp only [Bool.or_eq_true, Bool.not_eq_true', Bool.or_eq_false_iff, beq_eq_false_iff_ne, bne_iff_ne]
    tauto
  exact if_pos hbad

theorem State.writeBar_of_nothing {s : State} {q : Requester} {off : Nat} (hm : msixOff q.fn off = none)
    (hb : baseAddr q.fn off = none) (size : Nat) (v : Word) : s.writeBar q off size v = s := by
  unfold State.writeBar
  simp only [hm, hb, ite_self]

theorem State.writeBar_of_ringLocked {s : State} {q : Requester} {off a : Nat} (hm : msixOff q.fn off = none)
    (hb : baseAddr q.fn off = some a) (hl : s.ringLocked a = true) (size : Nat) (v : Word) : s.writeBar q off size v = s := by
  unfold State.writeBar
  simp only [hm, hb, hl, Bool.or_true, if_true, ite_self]

/-! ### When it is held, and when it is done -/

/-- A write of PF0, of 4 or 8 aligned bytes, to a register without a row of its own. -/
structure PlainWrite (s : State) (q : Requester) (off size a : Nat) : Prop where
  up : s.hubUp = true
  pf0 : q.fn.val = 0
  bytes : size = 4 ∨ size = 8
  aligned : off % size = 0
  table : msixOff 0 off = none
  addr : baseAddr 0 off = some a
  plain : ownRow a = false
  open_ : s.ringLocked a = false

theorem PlainWrite.writeBar {s : State} {q : Requester} {off size a : Nat} (h : PlainWrite s q off size a) (v : Word) :
    s.writeBar q off size v = if s.standing && !standBlock a then s.holdReq (.write q off size v)
      else if a / 8 * 8 = 0x1000040 then (s.writeAt a size v.toNat).settleAux else s.writeAt a size v.toNat := by
  obtain ⟨hup, hfn, hsize, hal, hm, hb, hown, hl⟩ := h
  have hshape : (!s.hubUp || !(size == 4 || size == 8) || off % size != 0) = false := by
    obtain rfl | rfl := hsize <;> simp [hup, hal]
  unfold State.writeBar
  simp only [State.fnShut, hshape, hfn, hm, hb, hown, hl, bne_self_eq_false, Bool.false_and, Bool.or_false, Bool.false_eq_true,
    if_false]

theorem PlainWrite.exec_held {s : State} {q : Requester} {off size a : Nat} (h : PlainWrite s q off size a) (v : Word)
    (hst : s.standing = true) (hblk : standBlock a = false) :
    exec (.registerWrite q (.bar off size) v) s = .next (s.asked.holdReq (.write q off size v)) := by
  have hask : PlainWrite s.asked q off size a := ⟨h.up, h.pf0, h.bytes, h.aligned, h.table, h.addr, h.plain, h.open_⟩
  have hst' : s.asked.standing = true := hst
  rw [exec_registerWrite_bar, hask.writeBar, if_pos (by simp [hst', hblk])]

theorem PlainWrite.exec_done {s : State} {q : Requester} {off size a : Nat} (h : PlainWrite s q off size a) (v : Word)
    (hst : s.standing = false ∨ standBlock a = true) (haux : a / 8 * 8 ≠ 0x1000040) :
    exec (.registerWrite q (.bar off size) v) s = .next (s.asked.writeAt a size v.toNat) := by
  have hask : PlainWrite s.asked q off size a := ⟨h.up, h.pf0, h.bytes, h.aligned, h.table, h.addr, h.plain, h.open_⟩
  have hst' : (s.asked.standing && !standBlock a) = false := by
    change (s.standing && !standBlock a) = false
    obtain hst | hst := hst <;> simp [hst]
  rw [exec_registerWrite_bar, hask.writeBar, if_neg (by simp [hst']), if_neg haux]

/-! ### PM_THROT, a register of one word -/

theorem regsOf_pmThrot : regsOf 0x1000008 = [(0x1000008, 8, row_PM_THROT_flds)] := by decide +kernel

theorem writeAt_pmThrot (s : State) (v : Nat) : s.writeAt 0x1000008 8 v
    = s.writeReg1 0x1000008 (0x1000008, 8, row_PM_THROT_flds) (v % 2 ^ 64) (2 ^ 64 - 1) := by
  have hw : coreWindow 0x1000008 = none := by decide
  simp only [State.writeAt, hw, show 0x1000008 / 8 * 8 = 0x1000008 from rfl, regsOf_pmThrot, List.foldl_cons, List.foldl_nil,
    show 8 * (0x1000008 % 8) = 0 from rfl, Nat.reduceMul, pow_zero, mul_one]

theorem mergeBits_all (old v len : Nat) : mergeBits old (v % 2 ^ len) (2 ^ len - 1) len = v % 2 ^ len := by
  have hmod : (2 ^ len - 1) % 2 ^ len = 2 ^ len - 1 := Nat.mod_eq_of_lt (Nat.sub_lt (Nat.two_pow_pos len) one_pos)
  rw [mergeBits, hmod, Nat.sub_self, Nat.and_zero, Nat.zero_or, Nat.and_two_pow_sub_one_eq_mod, Nat.mod_mod]

/-- A field of PM_THROT written whole takes the bits that are written. -/
theorem writeFld_pmThrot (s : State) (d : FldDesc) (hd : d ∈ row_PM_THROT_flds) (v : Nat) :
    s.writeFld 0x1000008 d v (2 ^ 64 - 1) = s.setFld (d.fld 0x1000008) (bits v d.lo d.len) := by
  have howner : s.addrOwner 0x1000008 = none := rfl
  have hput (f : Fld) (hf : f.key / 64 = 0x1000008) (x : Nat) : s.putFld f x = s.setFld f x := by
    simp only [State.putFld, hf]
    rfl
  simp only [row_PM_THROT_flds, List.mem_cons, List.not_mem_nil, or_false] at hd
  obtain rfl | rfl | rfl := hd
  all_goals
    simp only [State.writeFld, howner]
    rw [if_neg (by decide), if_neg (by omega), hput _ (by decide)]
    exact congrArg _ (mergeBits_all _ _ _)

theorem writeReg1_pmThrot (s : State) (v : Nat) :
    s.writeReg1 0x1000008 (0x1000008, 8, row_PM_THROT_flds) v (2 ^ 64 - 1)
      = ((s.setFld PM_THROT_T_HI (bits v 0 8)).setFld PM_THROT_T_LO (bits v 8 8)).setFld PM_THROT_PCAP (bits v 16 16) := by
  have hflds : row_PM_THROT_flds.filter (fun d => 0x1000008 + d.lo / 64 * 8 == 0x1000008) = row_PM_THROT_flds := by decide
  have hlow : (List.range ((8 - 8) / 8)).map (fun i => 0x1000008 + 8 * i) = [] := rfl
  simp only [State.writeReg1, State.writeFlds, hflds, hlow, List.foldl_nil]
  rw [if_pos (by decide)]
  simp only [row_PM_THROT_flds, List.foldl_cons, List.foldl_nil]
  rw [writeFld_pmThrot _ _ (by decide), writeFld_pmThrot _ _ (by decide), writeFld_pmThrot _ _ (by decide)]
  rfl

theorem exec_registerWrite_pmThrot {q : Requester} (hfn : q.fn.val = 0) {s : State} (hup : s.hubUp = true) (v : Word) :
    exec (.registerWrite q (.bar 0x1000008 8) v) s = .next (((s.asked.setFld PM_THROT_T_HI (bits (v.toNat % 2 ^ 64) 0 8)).setFld
      PM_THROT_T_LO (bits (v.toNat % 2 ^ 64) 8 8)).setFld PM_THROT_PCAP (bits (v.toNat % 2 ^ 64) 16 16)) := by
  have hplain : PlainWrite s q 0x1000008 8 0x1000008 :=
    ⟨hup, hfn, .inr rfl, rfl, rfl, rfl, by decide, by simp [State.ringLocked]⟩
  rw [hplain.exec_done v (.inr rfl) (by decide), writeAt_pmThrot, writeReg1_pmThrot]

theorem fld_writeReg1_pmThrot (s : State) (a b c : Nat) :
    (((s.setFld PM_THROT_T_HI a).setFld PM_THROT_T_LO b).setFld PM_THROT_PCAP c).fld PM_THROT_T_HI = a % 2 ^ 8 := by
  rw [State.fld_setFld_ne _ _ (by decide), State.fld_setFld_ne _ _ (by decide), State.fld_setFld]
  rfl

/-! ### The enable of MSI-X (17 R562, R572) -/

theorem State.unmask_msixOn (s : State) (fn v : Nat) : (s.unmask fn v).h.msixOn = s.h.msixOn := by
  unfold State.unmask
  split
  · rw [State.fire_h]
  · rfl

theorem State.enableMsix_msixOn (s : State) (fn : Nat) (on : Bool) :
    (s.enableMsix fn on).h.msixOn = if on then s.h.msixOn.filter (· != fn) ++ [fn] else s.h.msixOn.filter (· != fn) :=
  foldl_rel (fun u v => u.h.msixOn = v.h.msixOn) _ _ _ (fun _ => rfl) (fun _ _ _ => Eq.trans)
    (fun s e _ h => h ▸ State.unmask_msixOn s fn e.2)

theorem State.enableMsix_contains_same (s : State) (fn : Nat) (on : Bool) : (s.enableMsix fn on).h.msixOn.contains fn = on := by
  cases on <;> simp [State.enableMsix_msixOn]

theorem State.enableMsix_contains_ne (s : State) {fn k : Nat} (h : k ≠ fn) (on : Bool) :
    (s.enableMsix fn on).h.msixOn.contains k = s.h.msixOn.contains k := by
  cases on <;> simp [State.enableMsix_msixOn, List.contains_eq_mem, h]

theorem registerWritesLaw_holds : registerWritesLaw := by
  intro q off size v s hup
  refine ⟨fun hshut => ?_, fun hbad => ?_, fun a hfn0 hsize hal hm hb hown hl => ?_, fun hfn => ?_, fun hfn => ?_⟩
  · exact congrArg Host.Outcome.next (State.writeBar_of_fnShut (s := s.asked) hshut off size v)
  · refine congrArg Host.Outcome.next ?_
    obtain hsize | hal | ⟨hm, hb⟩ | ⟨a, hm, hb, hl⟩ := hbad
    · exact State.writeBar_of_size (.inl hsize) v
    · exact State.writeBar_of_size (.inr hal) v
    · exact State.writeBar_of_nothing hm hb size v
    · exact State.writeBar_of_ringLocked (s := s.asked) hm hb hl size v
  · have hplain : PlainWrite s q off size a := ⟨hup, Fin.val_eq_of_eq hfn0, hsize, hal, hm, hb, hown, hl⟩
    exact ⟨hplain.exec_held v, hplain.exec_done v⟩
  · refine ⟨_, exec_registerWrite_pmThrot (Fin.val_eq_of_eq hfn) hup v, ?_, by simp [State.asked]⟩
    rw [fld_writeReg1_pmThrot]
    simp only [bits_eq_div]
    omega
  · have hopen : (s.pm.released && !s.pm.moor) = true := by
      simp only [State.hubUp, Bool.and_eq_true] at hup
      simp [hup]
    have hfn0 : q.fn.val = 0 := Fin.val_eq_of_eq hfn
    refine ⟨s.asked.enableMsix q.fn.val (bit v.toNat 0), if_pos hopen, ?_, ?_, ?_, fun k hk => ?_⟩
    · rw [hfn0, State.enableMsix_contains_same]
    · simp [State.asked]
    · simp [State.asked]
    · exact State.enableMsix_contains_ne s.asked (hfn0 ▸ hk) _

end Sys2Proof.Machine
end

section
open Sys2Proof Sys2Proof.Machine

/-- Settles O60: a write of BAR0 is taken by its shape, its function, its place and its ring, and PM_THROT, a register of one word,
takes the bytes written; the other rows are the arbiter's, the ring's, the reset's and the log's laws. -/
theorem registerWrites : Obligations.RegisterWrites :=
  ⟨registerWritesLaw_holds, arbiterCommit, ringLaw_holds, resetLaw_holds, errorLogAndMirrorLaw_holds⟩
end

section
/-! Resets and supplies (19 R617, R620, R625 to R631, 21 R659, R665, R669). -/

namespace Sys2Proof.Machine
section
variable (s : State) (dump : Bool) (cause : Nat)

/-! ### What a reset leaves of the registers -/

theorem fld_wipe {f : Fld} (hf : f.key ≠ SEC_BOOT_IDENT_EXHAUSTED.key) :
    (s.wipe dump).fld f = if aonKey f.key then s.fld f else f.rst := by
  have hdrop := Tab.get_drop s.regs f.rst (fun k => !aonKey k) f.key
  refine (State.fld_setFld_ne _ _ hf.symm).trans (hdrop.trans ?_)
  cases aonKey f.key <;> rfl

/-- A reset with what it writes: its cause, the fail-safe state it came from, the one it leaves, and two pins. -/
def State.wipedTo (frm fs : Nat) (selfRef fault : Bool) : State :=
  let t := (((s.wipe dump).setFld HUB_RESET_CAUSE_CAUSE cause).setFld HUB_RESET_CAUSE_FROM_FAILSAFE frm).setFld ERR_FAILSAFE_ACTIVE fs
  { t with pm := { (s.wipe dump).pm with selfRef := selfRef, fault := fault } }

theorem resetCause_wipedTo : ∃ frm fs selfRef fault, s.resetCause cause dump = s.wipedTo dump cause frm fs selfRef fault
    ∧ (cause = 1 → fs = 0) := by
  unfold State.resetCause
  extract_lets leaves fs fault t t'
  split
  · exact ⟨_, _, _, _, rfl, fun _ => rfl⟩
  next h => exact ⟨_, _, _, _, rfl, fun hc => absurd (by simp [leaves, hc]) h⟩

/-- Of the always-on registers a reset writes its cause and, as the cause says, the fail-safe state. -/
theorem fld_resetCause {f : Fld} (hf : f.key ≠ SEC_BOOT_IDENT_EXHAUSTED.key) (hc : f.reg ≠ HUB_RESET_CAUSE_CAUSE.reg)
    (ha : f.key ≠ ERR_FAILSAFE_ACTIVE.key) :
    (s.resetCause cause dump).fld f = if aonKey f.key then s.fld f else f.rst := by
  obtain ⟨frm, fs, selfRef, fault, heq, -⟩ := resetCause_wipedTo s dump cause
  rw [← fld_wipe s dump hf, heq]
  exact (State.fld_setFld_ne _ _ ha.symm).trans
    ((fld_setFld_reg_ne (f := HUB_RESET_CAUSE_FROM_FAILSAFE) _ _ hc).trans (fld_setFld_reg_ne _ _ hc))

theorem fld_cause_resetCause : (s.resetCause cause dump).fld HUB_RESET_CAUSE_CAUSE = cause % 2 ^ HUB_RESET_CAUSE_CAUSE.len := by
  obtain ⟨frm, fs, selfRef, fault, heq, -⟩ := resetCause_wipedTo s dump cause
  rw [← State.fld_setFld (s.wipe dump) HUB_RESET_CAUSE_CAUSE cause, heq]
  exact (State.fld_setFld_ne _ _ (by decide)).trans (State.fld_setFld_ne _ _ (by decide))

/-- PERST_N leaves the fail-safe state (18 R593). -/
theorem on_failsafe_resetCause_perst : (s.resetCause 1 dump).on ERR_FAILSAFE_ACTIVE = false := by
  obtain ⟨frm, fs, selfRef, fault, heq, hfs⟩ := resetCause_wipedTo s dump 1
  rw [heq, hfs rfl]
  exact (on_of_regs rfl _).trans (on_setFld_zero (((s.wipe dump).setFld HUB_RESET_CAUSE_CAUSE 1).setFld
    HUB_RESET_CAUSE_FROM_FAILSAFE frm) ERR_FAILSAFE_ACTIVE)

theorem resetCause_core : (s.resetCause cause dump).core = CoreSt.reset := by
  obtain ⟨frm, fs, selfRef, fault, heq, -⟩ := resetCause_wipedTo s dump cause
  rw [heq]
  rfl

theorem resetCause_sec : (s.resetCause cause dump).sec = { SecSt.reset with otp := s.sec.otp } := by
  obtain ⟨frm, fs, selfRef, fault, heq, -⟩ := resetCause_wipedTo s dump cause
  rw [heq]
  rfl

theorem resetCause_m : (s.resetCause cause dump).m
    = { MemSt.reset with mem := Tab.drop s.m.mem (fun k => !s.memKept dump k) } := by
  obtain ⟨frm, fs, selfRef, fault, heq, -⟩ := resetCause_wipedTo s dump cause
  rw [heq]
  rfl

/-- What a reset leaves of the pins and of the switches of the supplies. -/
theorem resetCause_pm : ∃ selfRef fault, (s.resetCause cause dump).pm
    = { (s.wipe dump).pm with selfRef := selfRef, fault := fault } := by
  obtain ⟨frm, fs, selfRef, fault, heq, -⟩ := resetCause_wipedTo s dump cause
  exact ⟨selfRef, fault, congrArg State.pm heq⟩

end

/-! ### The wake that a reset records (R618 to R621) -/

section
variable (s : State) (src frm : Nat) (rep multi : Bool) (at_ : Nat)

theorem fld_writeWake {f : Fld} (hf : f.reg ≠ HUB_LAST_WAKE_SOURCE.reg) : (s.writeWake src frm rep multi at_).fld f = s.fld f := by
  unfold State.writeWake
  refine (fld_setFld_reg_ne _ _ ?_).trans ((fld_setFld_reg_ne _ _ ?_).trans ((fld_setFld_reg_ne _ _ ?_).trans
    ((fld_setFld_reg_ne _ _ ?_).trans (fld_setFld_reg_ne _ _ ?_))))
  all_goals exact hf

theorem fld_source_writeWake : (s.writeWake src frm rep multi at_).fld HUB_LAST_WAKE_SOURCE = src % 2 ^ HUB_LAST_WAKE_SOURCE.len := by
  rw [← State.fld_setFld s HUB_LAST_WAKE_SOURCE src]
  unfold State.writeWake
  refine (State.fld_setFld_ne _ _ ?_).trans ((State.fld_setFld_ne _ _ ?_).trans ((State.fld_setFld_ne _ _ ?_).trans
    (State.fld_setFld_ne _ _ ?_)))
  all_goals decide

theorem fld_from_writeWake : (s.writeWake src frm rep multi at_).fld HUB_LAST_WAKE_FROM = frm % 2 ^ HUB_LAST_WAKE_FROM.len := by
  rw [← State.fld_setFld (s.setFld HUB_LAST_WAKE_SOURCE src) HUB_LAST_WAKE_FROM frm]
  unfold State.writeWake
  refine (State.fld_setFld_ne _ _ ?_).trans ((State.fld_setFld_ne _ _ ?_).trans (State.fld_setFld_ne _ _ ?_))
  all_goals decide

theorem writeWake_pm : (s.writeWake src frm rep multi at_).pm = { s.pm with wake := 0, replayed := false, multi := false } := rfl

end

/-! ### The always-on domain's own reset (21 R665) -/

theorem fld_aonReset (s : State) {f : Fld} (hf : f.key ≠ SEC_BOOT_IDENT_EXHAUSTED.key) (hreg : f.reg ≠ 0 ∧ f.reg ≠ 0x2000010) :
    s.aonReset.fld f = f.rst := by
  have hdrop := Tab.get_drop (s.wipe false).regs f.rst (fun k => !(k / 64 == 0 || k / 64 == 0x2000010)) f.key
  have hlost : (!(f.key / 64 == 0 || f.key / 64 == 0x2000010)) = true := by
    simpa [Fld.reg] using hreg
  exact (State.fld_setFld_ne _ _ hf.symm).trans (hdrop.trans (if_pos hlost))

theorem aonReset_pm (s : State) : s.aonReset.pm = { PmSt.reset with
    released := false, perst := s.pm.perst, pwrReq := false, pwrGood := false, aon := false, goodUs := 0 } := rfl

theorem aonReset_otp (s : State) : s.aonReset.sec.otp = s.sec.otp := rfl

/-! ### The commands -/

theorem perstN_resets {s : State} (haon : s.pm.aon = true) : Gives (exec (.perstN true) s) (fun u =>
    u.fld HUB_RESET_CAUSE_CAUSE = 1 ∧ u.pm.perst = true ∧ u.pm.off = false ∧ u.pm.released = false ∧ u.on ERR_FAILSAFE_ACTIVE = false
    ∧ u.sec.otp = s.sec.otp ∧ u.pending = s.pending) := by
  obtain ⟨selfRef, fault, hpm⟩ := resetCause_pm s true 1
  have hcause : (s.resetCause 1 true).fld HUB_RESET_CAUSE_CAUSE = 1 := fld_cause_resetCause s true 1
  have hfail := on_failsafe_resetCause_perst s true
  have hotp : (s.resetCause 1 true).sec.otp = s.sec.otp := by rw [resetCause_sec]
  have hpend : (s.resetCause 1 true).pending = s.pending := by simp
  have hrel : (s.resetCause 1 true).pm.released = false := by rw [hpm]; rfl
  generalize hu : s.resetCause 1 true = u at *
  let t : State := { u with pm := { u.pm with perst := true, off := false, pwrReq := true } }
  have hexec : exec (.perstN true) s
      = .next (if s.leftState = 0 then t else t.writeWake 3 s.leftState false false (s.fld PM_AON_SECONDS_S)) := by
    refine (if_neg (by simp [haon])).trans ?_
    rw [hu]
  refine ⟨_, hexec, ?_⟩
  split
  · exact ⟨hcause, rfl, rfl, hrel, hfail, hotp, hpend⟩
  · exact ⟨(fld_writeWake t _ _ _ _ _ (by decide)).trans hcause, rfl, rfl, hrel,
      (on_of_fld (fld_writeWake t _ _ _ _ _ (by decide))).trans hfail, hotp, hpend⟩

theorem resetRelease_starts {s : State} (hrel : s.pm.released = false) (hperst : s.pm.perst = false) (hgood : s.pm.pwrGood = true)
    (hoff : s.pm.off = false) (hus : s.pm.goodUs = 1000) (hfence : s.pm.smbFence = false) (hop : s.opMax ≠ 0) :
    Gives (exec .resetRelease s) (fun u => u.pm.released = true ∧ u.timeUs = 0 ∧ u.pm.dies = s.pm.dies
      ∧ u.fld SEC_BOOT_NONCE_NONCE = Config.freeValue s.freeCtr % 2 ^ 64 ∧ u.fld PM_OP_CUR = s.fld PM_OP_CUR) := by
  let r : State := { s with timeUs := 0, pm := { s.pm with released := true, smbFence := false } }
  let t := (r.free 64).2.setFld SEC_BOOT_NONCE_NONCE (r.free 64).1
  have hset : t.fld SEC_OTP_GEN_SET = s.fld SEC_OTP_GEN_SET := State.fld_setFld_ne _ _ (by decide)
  have hopMax : t.opMax = s.opMax := by
    simp only [State.opMax, State.settingsWord, State.settings, hset]
    rfl
  have hexec : exec .resetRelease s = .next t := by
    refine (if_neg (by simp [hrel, hperst, hgood, hoff, hus])).trans ?_
    change Host.Outcome.next (if s.pm.smbFence = true then _ else if t.opMax = 0 then _ else t) = _
    rw [if_neg (by simp [hfence]), if_neg (hopMax ▸ hop)]
  exact ⟨t, hexec, rfl, rfl, rfl, (State.fld_setFld _ _ _).trans (Nat.mod_mod _ _), State.fld_setFld_ne _ _ (by decide)⟩

theorem resetRelease_waits {s : State} (hus : s.pm.goodUs < 1000) : exec .resetRelease s = .next s := by
  refine if_pos ?_
  have : (s.pm.goodUs != 1000) = true := by simpa using hus.ne
  simp [this]

theorem aonPowerOn_rise (s : State) (feed smb) : Gives (exec (.aonPowerOn (.rise feed smb)) s) (fun u => u.fld HUB_FEED_OWN = feed.toNat
    ∧ u.pm.smbAddr = smb.toNat ∧ u.pm.aon = true ∧ u.pm.pwrReq = true
    ∧ u.pm.released = false ∧ u.pm.pwrGood = false ∧ u.sec.otp = s.sec.otp ∧ u.fld HUB_RESET_CAUSE_CAUSE = 0) := by
  refine ⟨_, rfl, (State.fld_setFld _ _ _).trans (Nat.mod_eq_of_lt feed.isLt), rfl, rfl, rfl, rfl, rfl, aonReset_otp s, ?_⟩
  exact (State.fld_setFld_ne _ _ (by decide)).trans (fld_aonReset s (by decide) (by decide))

theorem aonPowerOn_fall (s : State) : Gives (exec (.aonPowerOn .fall) s) (fun u => u.pm.aon = false ∧ u.pm.released = false
    ∧ u.sec.otp = s.sec.otp ∧ u.faultPad = none ∧ u.laserPads = none ∧ u.aux0Pad = none ∧ (∀ i, u.gpioPad i = none)
    ∧ ∀ i, i < 16 → u.on (ERR_FATAL_VALID i) = false) := by
  have haon : s.aonReset.pm.aon = false := by rw [aonReset_pm]
  refine ⟨_, rfl, haon, by rw [aonReset_pm], aonReset_otp s, if_neg (by simp [haon]), if_neg (by simp [haon]), if_neg (by simp [haon]),
    fun i => by simp [State.gpioPad, haon],
    fun i hi => on_false_iff.mpr ?_⟩
  refine fld_aonReset s ?_ ?_
  · simp only [ERR_FATAL_VALID, SEC_BOOT_IDENT_EXHAUSTED, Fld.at_key]
    omega
  · simp only [ERR_FATAL_VALID, Fld.at_reg]
    omega

theorem brownoutAon_resets {s : State} (h : s.pm.moor = true ∨ s.pm.off = true) : Gives (exec .brownoutAon s) (fun u =>
    u.fld HUB_RESET_CAUSE_CAUSE = 2 ∧ u.pm.moor = false ∧ u.pm.released = false) := by
  obtain ⟨selfRef, fault, hpm⟩ := resetCause_pm s true 2
  have hcause : (s.resetCause 2 true).fld HUB_RESET_CAUSE_CAUSE = 2 := fld_cause_resetCause s true 2
  have hmoor : (s.resetCause 2 true).pm.moor = false := by rw [hpm]; rfl
  have hrel : (s.resetCause 2 true).pm.released = false := by rw [hpm]; rfl
  refine ⟨_, if_neg (by obtain h | h := h <;> simp [h]), ?_, hmoor, hrel⟩
  exact (State.fld_setFld_ne _ _ (by decide)).trans hcause

theorem mainLoss_resets {s : State} (h : s.pm.off = false) : Gives (exec .mainLoss s) (fun u =>
    u.fld HUB_RESET_CAUSE_CAUSE = 5 ∧ u.pm.pwrGood = false ∧ u.pm.released = false) := by
  obtain ⟨selfRef, fault, hpm⟩ := resetCause_pm s false 5
  have hcause : (s.resetCause 5 false).fld HUB_RESET_CAUSE_CAUSE = 5 := fld_cause_resetCause s false 5
  have hrel : (s.resetCause 5 false).pm.released = false := by rw [hpm]; rfl
  exact ⟨_, if_neg (by simp [h]), hcause, rfl, hrel⟩

/-! ### Every reset -/

theorem rd_resetCause (s : State) (cause : Nat) (dump : Bool) (a : Nat) :
    (s.resetCause cause dump).m.mem.rd a = if s.memKept dump a then s.m.mem.rd a else 0 := by
  rw [resetCause_m]
  refine (Tab.get_drop s.m.mem memDefault (fun k => !s.memKept dump k) a).trans ?_
  cases s.memKept dump a <;> rfl

theorem partState_resetCause (s : State) (cause : Nat) (dump : Bool) {p : Nat} (hp : p < 8) :
    (s.resetCause cause dump).partState p = ptFree := by
  have hlost : ∀ p < 8, aonKey (PART_STATUS_STATE p).key = false := by decide
  refine (fld_resetCause s dump cause ?_ ?_ ?_).trans (if_neg (by simp [hlost p hp]))
  all_goals simp only [PART_STATUS_STATE, SEC_BOOT_IDENT_EXHAUSTED, HUB_RESET_CAUSE_CAUSE, ERR_FAILSAFE_ACTIVE, Fld.at_key, Fld.at_reg]
  all_goals omega

theorem resetCause_effect (cause : Nat) (dump : Bool) (s : State) (hcause : cause < 16) :
    let t := s.resetCause cause dump
    t.pm.released = false ∧ t.fld HUB_RESET_CAUSE_CAUSE = cause ∧ t.fld PM_AON_SECONDS_S = s.fld PM_AON_SECONDS_S
    ∧ t.pm.dies = false ∧ (s.pm.pads = none → ∀ i, t.gpioPad i = none)
    ∧ (∀ p, p < 8 → t.partState p = ptFree) ∧ (∀ c k, t.sreg c 0 k = 0) ∧ t.m.reqs = [] ∧ t.m.xfers = []
    ∧ (∀ a, 2 ^ 64 ≤ a → t.m.mem.rd a = s.m.mem.rd a) ∧ (dump = false → ∀ a, a < 2 ^ 64 → t.m.mem.rd a = 0) := by
  intro t
  obtain ⟨selfRef, fault, hpm⟩ := resetCause_pm s dump cause
  refine ⟨?_, ?_, ?_, ?_, fun hpads i => ?_, fun p => partState_resetCause s cause dump, fun c k => ?_, ?_, ?_, fun a ha => ?_,
    fun hdump a ha => ?_⟩
  · rw [hpm]; rfl
  · exact (fld_cause_resetCause s dump cause).trans (Nat.mod_eq_of_lt hcause)
  · exact (fld_resetCause s dump cause (by decide) (by decide) (by decide)).trans (if_pos (by decide))
  · rw [hpm]; rfl
  · have hp : t.pm.pads = none := by rw [hpm]; exact hpads
    have ho : t.pm.gpioOut = 0 := by rw [hpm]; rfl
    simp [State.gpioPad, hp, ho]
  · rw [State.sreg, resetCause_core]
    split <;> rfl
  · rw [resetCause_m]; rfl
  · rw [resetCause_m]; rfl
  · exact (rd_resetCause s cause dump a).trans (if_pos (by simp only [State.memKept, ha, decide_true, Bool.true_or]))
  · exact (rd_resetCause s cause dump a).trans (if_neg (by
      simp only [State.memKept, hdump, Nat.not_le.mpr ha, decide_false, Bool.false_and, Bool.or_false, Bool.false_eq_true,
        not_false_eq_true]))

theorem resetsLaw_holds : resetsLaw := by
  refine ⟨fun s => ⟨perstN_resets, ⟨_, rfl, rfl, rfl⟩, fun haon => ?_, resetRelease_starts, resetRelease_waits, aonPowerOn_rise s,
    aonPowerOn_fall s, brownoutAon_resets, fun hm ho => if_pos (by simp [hm, ho]), mainLoss_resets⟩, resetCause_effect⟩
  cases hgood : s.pm.pwrGood
  · exact ⟨_, if_pos (by simp [haon, hgood]), rfl, rfl, fun _ => rfl⟩
  · exact ⟨s, if_neg (by simp [hgood]), hgood, rfl, fun h => absurd h (by simp)⟩

end Sys2Proof.Machine
end

section
/-! The SMBus target (21 R660, R666 to R669). -/

namespace Sys2Proof.Machine

/-- The PEC of a write, where it carries one, is that of its bytes (21 R666). -/
def PecOf (x : SmbWrite) (code : Nat) : Prop := ∀ p, x.pec = some p → p.toNat = smbPec [2 * x.addr.toNat, code, x.data.toNat]

theorem pecOf_iff {x : SmbWrite} {code : Nat} :
    PecOf x code ↔ x.pec.all (fun p => p.toNat == smbPec [2 * x.addr.toNat, code, x.data.toNat]) = true := by
  unfold PecOf
  cases x.pec <;> simp

theorem State.smbWrite_of_other {s : State} {x : SmbWrite} (h : s.smbMine x.addr = false) (code want : Nat) (ok : Bool)
    (act : State → State) : s.smbWrite x code want ok act = .next s :=
  if_pos (by rw [h]; rfl)

theorem State.smbWrite_ack {s : State} {x : SmbWrite} {code want : Nat} {ok : Bool} (hm : s.smbMine x.addr = true)
    (hd : x.data.toNat = want) (hok : ok = true) (hp : PecOf x code) (act : State → State) :
    s.smbWrite x code want ok act = .next (act (s.disarm.answer .ack)) := by
  unfold State.smbWrite
  rw [if_neg (by simp [hm]), if_pos (by simp only [hd, beq_self_eq_true, hok, Bool.true_and]; exact hd ▸ pecOf_iff.mp hp)]

theorem State.smbWrite_nak {s : State} {x : SmbWrite} {code want : Nat} {ok : Bool} (hm : s.smbMine x.addr = true)
    (h : x.data.toNat ≠ want ∨ ok = false ∨ ¬ PecOf x code) (act : State → State) :
    s.smbWrite x code want ok act = .next (s.disarm.answer .nak) := by
  unfold State.smbWrite
  rw [if_neg (by simp [hm]), if_neg]
  rw [pecOf_iff] at h
  simp only [Bool.and_eq_true, beq_iff_eq]
  rintro ⟨⟨hd, hok⟩, hp⟩
  obtain h | h | h := h
  · exact h hd
  · exact absurd (h.symm.trans hok) Bool.false_ne_true
  · exact h hp

/-- A data byte as a number. -/
theorem toNat_ne_of_ne {x y : BitVec 8} (h : x ≠ y) : x.toNat ≠ y.toNat := fun e => h (BitVec.eq_of_toNat_eq e)

/-! ### What the actions do -/

/-- What the power management holds, but for the pulse of AUX0, which reports lengthen. -/
def State.pins (s : State) : PmSt := { s.pm with aux0 := 0 }

theorem armed_eq (s : State) : s.pm.armed = s.pins.armed := rfl

theorem pins_of_pm {s u : State} (h : u.pm = s.pm) : u.pins = s.pins := by rw [State.pins, State.pins, h]

theorem pins_file (s : State) (detail cls kind index arg : Nat) : (s.file detail cls kind index arg).pins = s.pins := by
  rw [State.pins, pm_file]
  rfl

theorem pins_foldl {α : Type} (l : List α) (f : State → α → State) (h : ∀ s x, (f s x).pins = s.pins) (s : State) :
    (l.foldl f s).pins = s.pins :=
  foldl_rel (fun u v => u.pins = v.pins) l f s (fun _ => rfl) (fun _ _ _ => Eq.trans) (fun s x _ e => e ▸ h s x)

theorem pins_bounceOne (s : State) (o : FOut) : (s.bounceOne o).pins = s.pins := by
  unfold State.bounceOne
  split
  · rfl
  · extract_lets w home back
    split
    · rfl
    · exact (pins_file ..).trans (pins_of_pm (by simp))
    · exact (pins_file ..).trans (pins_of_pm (by simp))

theorem pins_leaveUp (s : State) (l v : Nat) : (s.leaveUp l v).pins = s.pins :=
  (pins_foldl _ _ pins_bounceOne _).trans rfl

theorem pins_shutPort (s : State) (n : Nat) : (s.shutPort n).pins = s.pins :=
  (pins_foldl _ _ (fun s l => pins_leaveUp s l lsShuttered) _).trans rfl

theorem pins_shutAll (s : State) : s.shutAll.pins = s.pins := by
  refine pins_foldl _ _ (fun s n => ?_) _
  split
  · rfl
  · exact pins_shutPort ..

theorem armed_failsafe (s : State) (i : Nat) : (s.failsafe i).pm.armed = s.pm.armed := by
  have hshut : s.shutAll.pm.armed = s.pm.armed := by rw [armed_eq, pins_shutAll, ← armed_eq]
  unfold State.shutAll at hshut
  unfold State.failsafe
  split
  · rfl
  · simp only [State.setFld, hshut]

theorem armed_smbusFence (s : State) : s.smbusFence.pm.armed = s.pm.armed := by
  unfold State.smbusFence
  split
  · rfl
  · exact (armed_failsafe _ 8).trans (by simp)

theorem smbusFence_waits {s : State} (hfail : s.on ERR_FAILSAFE_ACTIVE = false) (hmoor : s.pm.moor = true) :
    s.smbusFence = { s with pm := { s.pm with smbFence := true } } :=
  if_pos (by simp [hfail, hmoor])

theorem smbusFence_now {s : State} (hmoor : s.pm.moor = false) (hrel : s.pm.released = true) (hst : s.fld PM_CTRL_STATE ≠ 3) :
    s.smbusFence = s.smbFenced :=
  if_neg (by simp [hmoor, hrel, hst])

theorem powerUp_effect {s : State} (harmed : s.pm.armed = false) : Gives (.next (
    let t := s.resetCause 3 true
    { t with pm := { t.pm with off := false, pwrReq := true } } : State)) (fun u =>
      u.pm.off = false ∧ u.pm.pwrReq = true ∧ u.pm.armed = false ∧ u.fld HUB_RESET_CAUSE_CAUSE = 3) := by
  obtain ⟨selfRef, fault, hpm⟩ := resetCause_pm s true 3
  refine ⟨_, rfl, rfl, rfl, ?_, fld_cause_resetCause s true 3⟩
  change (s.resetCause 3 true).pm.armed = false
  rw [hpm]
  exact harmed

/-! ### Wakes (19 R618, R619) -/

/-- A wake from rest, before the exit from Stand that it may start. -/
def State.woken (s : State) (src : Nat) : State :=
  { s with pm := { s.pm with
    wake := src, replayed := !s.pm.moor && (s.fld PM_CTRL_STATE == 1 || s.fld PM_CTRL_STATE == 3), multi := false
    wakeAt := s.fld PM_AON_SECONDS_S } }

theorem wakeEvent_of_stand {s : State} (hwake : s.pm.wake = 0) (hst : s.fld PM_CTRL_STATE = 2) (src : Nat) :
    s.wakeEvent src = (s.woken src).setFld PM_CTRL_STATE 4 :=
  (if_neg (not_not.mpr hwake)).trans (if_pos hst)

theorem wakeEvent_of_other {s : State} (hwake : s.pm.wake = 0) (hst : s.fld PM_CTRL_STATE ≠ 2) (src : Nat) :
    s.wakeEvent src = s.woken src :=
  (if_neg (not_not.mpr hwake)).trans (if_neg hst)

theorem wakeEvent_again {s : State} (hwake : s.pm.wake ≠ 0) (src : Nat) :
    s.wakeEvent src = { s with pm := { s.pm with multi := true } } :=
  if_pos hwake

/-! ### The commands -/

theorem exec_smbArm (x : SmbWrite) (s : State) : exec (.smbArm x) s
    = s.smbWrite x 0x10 0xA5 true (fun s => { s with pm := { s.pm with armed := true } }) := rfl

theorem exec_smbFence (x : SmbWrite) (s : State) : exec (.smbFence x) s
    = s.smbWrite x 0x11 1 (s.pm.armed && !s.pm.off) State.smbusFence := rfl

theorem exec_smbPowerOff (x : SmbWrite) (s : State) : exec (.smbPowerOff x) s
    = s.smbWrite x 0x12 2 (s.pm.armed && !s.pm.off) (fun s =>
      let s := if s.on ERR_FAILSAFE_ACTIVE then s else s.smbusFence
      { s with pm := { s.pm with smbOff := true } }) := rfl

theorem exec_smbPowerUp (x : SmbWrite) (s : State) : exec (.smbPowerUp x) s
    = s.smbWrite x 0x13 3 (s.pm.armed && s.pm.off) (fun s =>
      let s := s.resetCause 3 true
      { s with pm := { s.pm with off := false, pwrReq := true } }) := rfl

/-- A guard of two bits that does not hold, a data byte that is another, or a wrong PEC: why a write is not acknowledged. -/
theorem refused_of {x : SmbWrite} {s : State} {code : Nat} {v : BitVec 8} {off ok : Bool}
    (hok : s.pm.armed = false ∨ s.pm.off = off → ok = false)
    (h : s.pm.armed = false ∨ s.pm.off = off ∨ x.data ≠ v ∨ ¬ PecOf x code) :
    x.data.toNat ≠ v.toNat ∨ ok = false ∨ ¬ PecOf x code := by
  obtain h | h | h | h := h
  · exact .inr (.inl (hok (.inl h)))
  · exact .inr (.inl (hok (.inr h)))
  · exact .inl (toNat_ne_of_ne h)
  · exact .inr (.inr h)

theorem smbWrites_effect (x : SmbWrite) (s : State) (hm : s.smbMine x.addr = true) :
    let no := s.disarm.answer .nak
    (x.data = 0xA5 → PecOf x 0x10 → Gives (exec (.smbArm x) s) (fun u => u.pm.armed = true ∧ u.regs = s.regs))
    ∧ (x.data ≠ 0xA5 ∨ ¬ PecOf x 0x10 → exec (.smbArm x) s = .next no)
    ∧ (s.pm.armed = false ∨ s.pm.off = true ∨ x.data ≠ 1 ∨ ¬ PecOf x 0x11 → exec (.smbFence x) s = .next no)
    ∧ (s.pm.armed = false ∨ s.pm.off = true ∨ x.data ≠ 2 ∨ ¬ PecOf x 0x12 → exec (.smbPowerOff x) s = .next no)
    ∧ (s.pm.armed = false ∨ s.pm.off = false ∨ x.data ≠ 3 ∨ ¬ PecOf x 0x13 → exec (.smbPowerUp x) s = .next no) := by
  refine ⟨fun hd hp => ?_, fun h => ?_, fun h => ?_, fun h => ?_, fun h => ?_⟩
  · rw [exec_smbArm, State.smbWrite_ack hm (by rw [hd]; rfl) rfl hp]
    exact ⟨_, rfl, rfl, rfl⟩
  · exact (exec_smbArm x s).trans (State.smbWrite_nak hm (h.imp (toNat_ne_of_ne ·) .inr) _)
  · exact (exec_smbFence x s).trans (State.smbWrite_nak hm (refused_of (by rintro (h | h) <;> simp [h]) h) _)
  · exact (exec_smbPowerOff x s).trans (State.smbWrite_nak hm (refused_of (by rintro (h | h) <;> simp [h]) h) _)
  · exact (exec_smbPowerUp x s).trans (State.smbWrite_nak hm (refused_of (by rintro (h | h) <;> simp [h]) h) _)

section
variable {x : SmbWrite} {s : State} (hm : s.smbMine x.addr = true) (harm : s.pm.armed = true)
include hm harm

theorem smbFence_acts (hoff : s.pm.off = false) (hd : x.data = 1) (hp : PecOf x 0x11) :
    exec (.smbFence x) s = .next (s.disarm.answer .ack).smbusFence := by
  rw [exec_smbFence, State.smbWrite_ack hm (by rw [hd]; rfl) (by simp [harm, hoff]) hp]

theorem smbPowerOff_acts (hoff : s.pm.off = false) (hd : x.data = 2) (hp : PecOf x 0x12) :
    Gives (exec (.smbPowerOff x) s) (fun u => u.pm.smbOff = true ∧ u.pm.armed = false) := by
  rw [exec_smbPowerOff, State.smbWrite_ack hm (by rw [hd]; rfl) (by simp [harm, hoff]) hp]
  refine ⟨_, rfl, rfl, ?_⟩
  dsimp only
  split
  · rfl
  · exact armed_smbusFence _

theorem smbPowerUp_acts (hoff : s.pm.off = true) (hd : x.data = 3) (hp : PecOf x 0x13) :
    Gives (exec (.smbPowerUp x) s) (fun u =>
      u.pm.off = false ∧ u.pm.pwrReq = true ∧ u.pm.armed = false ∧ u.fld HUB_RESET_CAUSE_CAUSE = 3) := by
  rw [exec_smbPowerUp, State.smbWrite_ack hm (by rw [hd]; rfl) (by simp [harm, hoff]) hp]
  exact powerUp_effect rfl

end

theorem smbusAddressMatch_wakes {x : SmbMatch} {s : State} (hm : s.smbMine x.addr = true) (hrel : s.pm.released = true)
    (hmoor : s.pm.moor = true) (hwake : s.pm.wake = 0) (hst : s.fld PM_CTRL_STATE ≠ 2) :
    Gives (exec (.smbusAddressMatch x) s) (fun u => u.pm.wake = 2 ∧ u.regs = s.regs) := by
  have hexec : exec (.smbusAddressMatch x) s
      = .next (if x.code.any (fun c => !smbListed c.toNat) then (s.woken 2).disarm.answer .nak else s.woken 2) := by
    rw [← wakeEvent_of_other hwake hst 2]
    have hwake : (s.pm.released && (s.pm.moor || s.fld PM_CTRL_STATE == 3)) = true := by simp [hrel, hmoor]
    exact (if_neg (by simp [hm])).trans (by rw [if_pos hwake])
  refine ⟨_, hexec, ?_⟩
  split <;> exact ⟨rfl, rfl⟩

theorem smbusAddressMatch_unlisted {x : SmbMatch} {s : State} (hm : s.smbMine x.addr = true) {c : Byte} (hc : x.code = some c)
    (hl : smbListed c.toNat = false) :
    Gives (exec (.smbusAddressMatch x) s) (fun u => u.pm.armed = false ∧ u.e.answers = s.e.answers ++ [.nak]) := by
  refine ⟨_, (if_neg (by simp [hm])).trans (congrArg _ (if_pos (by simp [hc, hl]))), rfl, ?_⟩
  change (ite _ _ s).e.answers ++ _ = _
  split
  · simp
  · rfl

theorem readWord_congr {s u : State} (hr : u.regs = s.regs) (he : u.e = s.e) (hc : u.core = s.core) (exact : Bool) (w : Nat) :
    u.readWord exact w = s.readWord exact w := by
  simp only [State.readWord, State.windowF, State.readRegs, State.readFld, State.fld, hr, he, hc]

theorem exec_smbFailsafe (x : SmbRead) (s : State) :
    exec (.smbFailsafe x) s = s.smbRead x 1 1 (fun s => (s.readWord true 0x3000040, s)) := rfl

theorem exec_smbFatal (x : SmbRead) (s : State) : exec (.smbFatal x) s
    = s.smbRead x 2 2 (fun s => (sumOf ((List.range 16).map (fun i => s.fld (ERR_FATAL_VALID i) * 2 ^ i)), s)) := rfl

theorem exec_smbTj (x : SmbRead) (s : State) : exec (.smbTj x) s = s.smbRead x 3 1 (fun s =>
    if !s.pm.pwrGood then (0xFF, s)
    else if s.pm.dies && !s.pm.moor && s.fld PM_CTRL_STATE == 0 then (s.fld PM_POWER_TJ_MAX, s)
    else s.free 8) := rfl

theorem exec_smbCause (x : SmbRead) (s : State) : exec (.smbCause x) s = s.smbRead x 4 1 (fun s => (s.readWord true 0x10, s)) := rfl

theorem exec_smbWake (x : SmbRead) (s : State) : exec (.smbWake x) s = s.smbRead x 5 1 (fun s => (s.readWord true 0x18, s)) := rfl

theorem exec_smbState (x : SmbRead) (s : State) : exec (.smbState x) s = s.smbRead x 6 1 (fun s =>
    let (v, s) := if s.pm.moor then s.free 3 else (s.fld PM_CTRL_STATE, s)
    (v + b2n s.pm.off * 2 ^ 3 + b2n s.pm.pwrGood * 2 ^ 4 + b2n s.pm.pwrReq * 2 ^ 5, s)) := rfl

theorem exec_smbId (x : SmbRead) (s : State) : exec (.smbId x) s = s.smbRead x 7 2 (fun s => (s.readWord true 0, s)) := rfl

/-- The answer of a read of the SMBus target, with its PEC where the host asks for one. -/
def State.smbAnswer (s : State) (x : SmbRead) (code : Nat) (b : List Byte) : State :=
  let a := 2 * x.addr.toNat
  s.disarm.answer (.data (if x.pec = true then b ++ leBytes 1 (smbPec ([a, code, a + 1] ++ toNats b)) else b))

section
variable {x : SmbRead} {s : State} (hm : s.smbMine x.addr = true)
include hm

/-- A read that draws nothing answers what it reads of the state before. -/
theorem smbRead_answers {n v : Nat} {f : State → Nat × State} (hv : f s.disarm = (v, s.disarm)) (code : Nat) :
    s.smbRead x code n f = .next (s.smbAnswer x code (leBytes n v)) := by
  refine (if_neg (by simp [hm])).trans ?_
  dsimp only
  rw [hv]
  rfl

theorem smbTj_off (h : s.pm.pwrGood = false) : exec (.smbTj x) s = .next (s.smbAnswer x 3 (leBytes 1 0xFF)) := by
  have h' : (!s.disarm.pm.pwrGood) = true := by
    change (!s.pm.pwrGood) = true
    rw [h]
    rfl
  exact (exec_smbTj x s).trans (smbRead_answers hm (if_pos h') 3)

theorem smbTj_on (hgood : s.pm.pwrGood = true) (hdies : s.pm.dies = true) (hmoor : s.pm.moor = false)
    (hst : s.fld PM_CTRL_STATE = 0) : exec (.smbTj x) s = .next (s.smbAnswer x 3 (leBytes 1 (s.fld PM_POWER_TJ_MAX))) := by
  have hgood' : ¬ (!s.disarm.pm.pwrGood) = true := by
    change ¬ (!s.pm.pwrGood) = true
    simp [hgood]
  have hon : (s.disarm.pm.dies && !s.disarm.pm.moor && s.disarm.fld PM_CTRL_STATE == 0) = true := by
    change (s.pm.dies && !s.pm.moor && s.fld PM_CTRL_STATE == 0) = true
    simp [hdies, hmoor, hst]
  exact (exec_smbTj x s).trans (smbRead_answers hm ((if_neg hgood').trans (if_pos hon)) 3)

theorem smbState_awake (hmoor : s.pm.moor = false) : exec (.smbState x) s = .next (s.smbAnswer x 6 (leBytes 1
    (s.fld PM_CTRL_STATE + b2n s.pm.off * 2 ^ 3 + b2n s.pm.pwrGood * 2 ^ 4 + b2n s.pm.pwrReq * 2 ^ 5))) := by
  have hmoor' : ¬ s.disarm.pm.moor = true := by
    change ¬ s.pm.moor = true
    simp [hmoor]
  refine (exec_smbState x s).trans (smbRead_answers hm ?_ 6)
  rw [if_neg hmoor']
  rfl

theorem smbWord_answers (code n w : Nat) :
    s.smbRead x code n (fun s => (s.readWord true w, s)) = .next (s.smbAnswer x code (leBytes n (s.readWord true w))) := by
  have hread : s.disarm.readWord true w = s.readWord true w := readWord_congr rfl rfl rfl true w
  exact smbRead_answers hm (by rw [hread]) code

theorem smbFatal_answers : exec (.smbFatal x) s = .next (s.smbAnswer x 2
    (leBytes 2 (sumOf ((List.range 16).map (fun i => s.fld (ERR_FATAL_VALID i) * 2 ^ i))))) :=
  (exec_smbFatal x s).trans (smbRead_answers hm (by simp only [State.fld, State.disarm]) 2)

end

theorem smbusLaw_holds : smbusLaw := by
  refine ⟨fun x s => ⟨fun hm => ?_, fun hm => ?_⟩, fun x s => ⟨fun hm => if_pos (by simp [hm]), fun hm =>
    ⟨smbusAddressMatch_wakes hm, fun c => smbusAddressMatch_unlisted hm⟩⟩, fun x s hm => ?_⟩
  · simp only [List.forall_mem_cons, List.not_mem_nil, false_imp_iff, implies_true, and_true]
    exact ⟨(exec_smbArm x s).trans (State.smbWrite_of_other hm ..), (exec_smbFence x s).trans (State.smbWrite_of_other hm ..),
      (exec_smbPowerOff x s).trans (State.smbWrite_of_other hm ..), (exec_smbPowerUp x s).trans (State.smbWrite_of_other hm ..)⟩
  · obtain ⟨harms, harmNak, hfence, hoffNak, hup⟩ := smbWrites_effect x s hm
    refine ⟨harms, harmNak, hfence, hoffNak, hup, fun harm hoff => ⟨fun hd hp => ⟨fun hfail hmoor hrel hst => ?_,
      fun hfail hmoor => ?_⟩, smbPowerOff_acts hm harm hoff⟩, fun harm => smbPowerUp_acts hm harm⟩
    · exact (smbFence_acts hm harm hoff hd hp).trans (congrArg _ (smbusFence_now hmoor hrel hst))
    · exact ⟨_, (smbFence_acts hm harm hoff hd hp).trans (congrArg _ (smbusFence_waits hfail hmoor)), rfl, rfl, rfl⟩
  · exact ⟨(exec_smbFailsafe x s).trans (smbWord_answers hm ..), smbFatal_answers hm, smbTj_off hm, smbTj_on hm,
      (exec_smbCause x s).trans (smbWord_answers hm ..), (exec_smbWake x s).trans (smbWord_answers hm ..), smbState_awake hm,
      (exec_smbId x s).trans (smbWord_answers hm ..)⟩

end Sys2Proof.Machine
end

section
open Sys2Proof Sys2Proof.Machine

/-- Settles O58: a reset keeps of the machine what the always-on domain holds, and the SMBus target acts on the transactions that name
it. -/
theorem resets : Obligations.Resets := ⟨resetsLaw_holds, smbusLaw_holds⟩
end

section
/-! What a reply and a fence leave alone (17 R570 to R573, 16 R522). -/

namespace Sys2Proof.Machine

/-! ### Replies -/

/-- A register of no ring, and not the log's count of lost reports. -/
def Calm (r : Nat) : Prop := r ≠ 0x3000008 ∧ ¬ (0x100000 ≤ r ∧ r < 0x101000) ∧ r < 0x11000000

theorem not_calm_ring {fn r : Nat} {g : Fld} (hg : RingFld fn r g) (hr : r < 64) : ¬ Calm g.reg := by
  have := ringBase_range fn r hr
  have := hg.low
  have := hg.high
  unfold Calm
  omega

theorem fldsKept_ringError (s : State) (fn cause : Nat) {r : Nat} (hr : r < 64) : FldsKept Calm s (s.ringError fn r cause) :=
  ((fldsKept_setFld s 1 (not_calm_ring ringFld_error hr)).trans
    (fldsKept_setFld _ cause (not_calm_ring ringFld_cause hr))).trans (fldsKept_file _ _ _ _ _ _ _ (by unfold Calm; omega))

section
variable (s : State) (x : Started) (st d r0 r1 : Nat)

theorem fldsKept_finished : FldsKept Calm s (s.finished x) := by
  simp only [State.finished]
  split
  · exact (fldsKept_of_regs rfl).trans (fldsKept_setFld _ 1 (not_calm_ring ringFld_idle x.cmd.ring.isLt))
  · exact fldsKept_of_regs rfl

theorem fldsKept_reply : FldsKept Calm s (s.reply x st d r0 r1) := by
  by_cases h : x.err = .reply
  · rw [reply_of_error s x st d r0 r1 h]
    exact (fldsKept_finished s x).trans (fldsKept_ringError _ _ _ x.cmd.ring.isLt)
  · refine FldsKept.regs ?_ (reply_regs s st d r0 r1 h)
    exact (fldsKept_finished s x).trans ((fldsKept_of_regs rfl).trans
      ((fldsKept_setFld _ _ (not_calm_ring ringFld_ctail x.cmd.ring.isLt)).trans (fldsKept_of_regs rfl)))

theorem pins_finished : (s.finished x).pins = s.pins := by
  simp only [State.finished]
  split <;> rfl

theorem pins_reply : (s.reply x st d r0 r1).pins = s.pins := by
  by_cases h : x.err = .reply
  · rw [reply_of_error s x st d r0 r1 h]
    exact (pins_file ..).trans (pins_finished s x)
  · rw [reply_of_written s x st d r0 r1 h]
    dsimp only
    split
    · exact pins_finished s x
    · refine Eq.trans (pins_of_pm ?_) (pins_finished s x)
      simp only [State.coalesce_frame]
      rfl

theorem started_reply : (s.reply x st d r0 r1).h.started = dropFirst (· == x) s.h.started := by
  by_cases h : x.err = .reply
  · rw [reply_of_error s x st d r0 r1 h]
    refine Eq.trans ?_ (State.finished_started s x)
    simp
  · exact reply_started s st d r0 r1 h

/-- A reply is written to the host's memory alone. -/
theorem rd_reply {k : Nat} (hk : k < 2 ^ 64) : (s.reply x st d r0 r1).m.mem.rd k = s.m.mem.rd k := by
  by_cases h : x.err = .reply
  · rw [reply_of_error s x st d r0 r1 h]
    simp
  · rw [reply_mem s st d r0 r1 h, Mem.rd_wrBytes_out]
    exact .inl (by unfold keyHost; omega)

end

theorem fldsKept_dropHeld (s : State) (p : Nat) : FldsKept Calm s (s.dropHeld p) :=
  fldsKept_foldl (fun s x => fldsKept_reply s x _ _ _ _) _ _

theorem pins_dropHeld (s : State) (p : Nat) : (s.dropHeld p).pins = s.pins :=
  pins_foldl _ _ (fun s x => pins_reply s x _ _ _ _) _

/-! ### Tasks that stop -/

/-- A register of no core, and not the log's count of lost reports. -/
def OffCore (r : Nat) : Prop := r ≠ 0x3000008 ∧ r % 0x4000 ≠ 0 ∨ r % 0x100000 < 0x10000 ∧ r ≠ 0x3000008

theorem taskState_reg (c k : Nat) (hk : k < 20) :
    0x10000 ≤ (CL_TASK_STATE_STATE c k).reg % 0x100000 ∧ (CL_TASK_STATE_STATE c k).reg % 0x4000 = 0 := by
  simp only [CL_TASK_STATE_STATE, Fld.at_reg]
  omega

theorem not_offCore_taskState (c : Nat) : ¬ OffCore (CL_TASK_STATE_STATE (clusterOf c) (subOf c)).reg := by
  have := taskState_reg (clusterOf c) (subOf c) (Nat.mod_lt _ (by decide))
  unfold OffCore
  omega

theorem fldsKept_setTaskState (s : State) (core v : Nat) : FldsKept OffCore s (s.setTaskState core v) :=
  fldsKept_setFld s v (not_offCore_taskState core)

theorem offCore_ne_lost {g : Fld} (h : OffCore g.reg) : g.key ≠ ERR_LOST_LOW.key ∧ g.key ≠ ERR_LOST_HIGH.key := by
  have hreg : g.reg ≠ 0x3000008 := by
    unfold OffCore at h
    omega
  exact ⟨key_ne_of_reg hreg, key_ne_of_reg hreg⟩

theorem fldsKept_taskFault (s : State) (core thread pc : Nat) (f : FInfo) (extra : Nat) (instr : Word) :
    FldsKept OffCore s (s.taskFault core thread pc f extra instr) := by
  have hleft : FldsKept OffCore s (s.leaveTask core) := fldsKept_of_regs (by simp)
  refine fun g hg => (State.fld_sendTok (offCore_ne_lost hg).1 (offCore_ne_lost hg).2).trans ?_
  exact (hleft.trans (fldsKept_setTaskState _ core tkFaulted)) g hg

theorem fldsKept_haltCore (s : State) (core : Nat) : FldsKept OffCore s (s.haltCore core) := by
  unfold State.haltCore State.engineFault
  split
  · exact fldsKept_refl s
  · split
    · split
      · exact fldsKept_refl s
      · exact fldsKept_taskFault s core _ _ _ _ _
    · exact (fldsKept_of_regs (by simp)).trans (fldsKept_setTaskState _ core tkHalted)

/-! ### The fence of a partition -/

/-- A register that the fence of partition `p` does not write. -/
def OffFence (p r : Nat) : Prop :=
  OffCore r ∧ r ≠ 0xB000010 + p * 0x100000 ∧ r ≠ 0xB000020 + p * 0x100000 ∧ r ≠ 0xB000208 + p * 0x100000

/-- A partition that a fence acts on, before its state says so. -/
def State.stopPart (s : State) (p : Nat) : State :=
  let mask := s.sections p
  let s := (s.partCores p).foldl (fun s c => s.haltCore c) s
  let s := { s with m := { s.m with
    staged := s.m.staged.filter (fun b => !stackInSecs mask (b * 64))
    hot := s.m.hot.filter (fun h => !stackInSecs mask (h.burst * 64)) } }
  let s := s.setFld (PART_KEY_SWEEP p) 0
  if s.on (STEP_STATUS_STATE p) then (s.setFld (STEP_STATUS_STATE p) 4).setFld (STEP_STATUS_CAUSE p) 7 else s

section
variable (s : State) (p cause : Nat)

theorem fencePart_of_open (h : s.partState p = ptBuilding ∨ s.partState p = ptStarted) :
    s.fencePart p cause = ((s.stopPart p).setFld (PART_STATUS_STATE p) ptFenced).setFld (PART_STATUS_CAUSE p) cause :=
  if_pos h

theorem fencePart_of_shut (h : s.partState p ≠ ptBuilding) (h' : s.partState p ≠ ptStarted) : s.fencePart p cause = s :=
  if_neg (by tauto)

theorem fldsKept_stopPart : FldsKept (OffFence p) s (s.stopPart p) := by
  have hcore : FldsKept (OffFence p) s ((s.partCores p).foldl (fun s c => s.haltCore c) s) :=
    fldsKept_foldl (fun s c g hg => fldsKept_haltCore s c g hg.1) _ _
  have hstop (u : State) : FldsKept (OffFence p) u ((u.setFld (STEP_STATUS_STATE p) 4).setFld (STEP_STATUS_CAUSE p) 7) :=
    (fldsKept_setFld u 4 (by simp [OffFence, STEP_STATUS_STATE])).trans
      (fldsKept_setFld _ 7 (by simp [OffFence, STEP_STATUS_CAUSE]))
  unfold State.stopPart
  extract_lets mask s₁ _ s₂ s₃
  have hsweep : FldsKept (OffFence p) s₂ s₃ := fldsKept_setFld s₂ 0 (by simp [OffFence, PART_KEY_SWEEP])
  exact ((hcore.trans (fldsKept_of_regs rfl)).trans hsweep).trans
    (fldsKept_ite (fun _ => hstop s₃) (fun _ => fldsKept_refl s₃))

theorem fldsKept_fencePart : FldsKept (OffFence p) s (s.fencePart p cause) := by
  by_cases h : s.partState p = ptBuilding ∨ s.partState p = ptStarted
  · rw [fencePart_of_open s p cause h]
    exact ((fldsKept_stopPart s p).trans (fldsKept_setFld _ _ (by simp [OffFence, PART_STATUS_STATE]))).trans
      (fldsKept_setFld _ _ (by simp [OffFence, PART_STATUS_CAUSE]))
  · obtain ⟨hb, hs⟩ := not_or.mp h
    rw [fencePart_of_shut s p cause hb hs]
    exact fldsKept_refl s

theorem partState_fencePart_same (h : s.partState p = ptBuilding ∨ s.partState p = ptStarted) :
    (s.fencePart p cause).partState p = ptFenced := by
  rw [fencePart_of_open s p cause h, State.partState, State.fld_setFld_ne, State.fld_setFld]
  · rfl
  · simp only [PART_STATUS_STATE, PART_STATUS_CAUSE, Fld.at_key]
    omega

theorem fld_cause_fencePart (h : s.partState p = ptBuilding ∨ s.partState p = ptStarted) :
    (s.fencePart p cause).fld (PART_STATUS_CAUSE p) = cause % 2 ^ 8 := by
  rw [fencePart_of_open s p cause h, State.fld_setFld]
  rfl

variable {p}

theorem offFence_status {q : Nat} (hq : q ≠ p) : OffFence p (0xB000010 + q * 0x100000) := by
  refine ⟨.inl ⟨?_, ?_⟩, ?_, ?_, ?_⟩ <;> omega

theorem partState_fencePart_ne {q : Nat} (hq : q ≠ p) : (s.fencePart p cause).partState q = s.partState q :=
  fldsKept_fencePart s p cause _ (by simpa [PART_STATUS_STATE] using offFence_status hq)

end

theorem pins_sendTok (s : State) (tok : Word) : (s.sendTok tok).pins = s.pins := by
  unfold State.sendTok
  split
  · exact pins_file ..
  · rfl

theorem pins_taskFault (s : State) (core thread pc : Nat) (f : FInfo) (extra : Nat) (instr : Word) :
    (s.taskFault core thread pc f extra instr).pins = s.pins := by
  refine (pins_sendTok _ _).trans (Eq.trans (b := (s.leaveTask core).pins) rfl ?_)
  exact pins_of_pm (by simp)

theorem pins_haltCore (s : State) (core : Nat) : (s.haltCore core).pins = s.pins := by
  unfold State.haltCore State.engineFault
  split
  · rfl
  · split
    · split
      · rfl
      · exact pins_taskFault ..
    · exact (pins_of_pm rfl).trans (pins_of_pm (s := s) (u := s.leaveTask core) (by simp))

theorem pins_fencePart (s : State) (p cause : Nat) : (s.fencePart p cause).pins = s.pins := by
  have hhalt : ((s.partCores p).foldl (fun s c => s.haltCore c) s).pins = s.pins := pins_foldl _ _ pins_haltCore _
  unfold State.fencePart
  split
  · refine Eq.trans ?_ hhalt
    dsimp only
    split <;> rfl
  · rfl

end Sys2Proof.Machine
end

section
/-! Operating points and clocks (19 R604 to R611, R632). -/

namespace Sys2Proof.Machine

/-! ### Throttling (R607, R608) -/

/-- The readings of an evaluation, as the registers show them. -/
def State.measured (s : State) (tj watts : Nat) : State := (s.setFld PM_POWER_PKG_W watts).setFld PM_POWER_TJ_MAX tj

/-- The count of good evaluations in a row. -/
def State.setGood (s : State) (n : Nat) : State := { s with pm := { s.pm with good := n } }

section
variable (s : State) (tj watts : Nat)

theorem fld_measured {g : Fld} (h : g.reg ≠ 0x1000010) : (s.measured tj watts).fld g = s.fld g :=
  (fld_setFld_reg_ne _ _ h).trans (fld_setFld_reg_ne _ _ h)

theorem ceiling_measured : (s.measured tj watts).ceiling = s.ceiling := by
  rw [State.ceiling, fld_measured _ _ _ (by decide), fld_measured _ _ _ (by decide)]
  rfl

theorem nextMhz_measured : (s.measured tj watts).nextMhz = s.nextMhz := by
  rw [State.nextMhz, State.mhz, fld_measured _ _ _ (by decide)]
  rfl

theorem targetMhz_measured : (s.measured tj watts).targetMhz = s.targetMhz := by
  rw [State.targetMhz, fld_measured _ _ _ (by decide)]
  rfl

/-- The good evaluations in a row with one more, as far as they count. -/
def State.goodRun (s : State) : Nat := min (s.pm.good + 1) 10

/-- What an evaluation makes of its readings. -/
def State.throttled : State :=
  if s.fld PM_THROT_T_HI < tj ∨ s.ceiling < watts then
    if 1100 < s.nextMhz then ((s.measured tj watts).setGood 0).wantMhz (s.nextMhz - 100) else (s.measured tj watts).setGood 0
  else if tj < s.fld PM_THROT_T_LO ∧ watts * 100 < s.ceiling * 95 then
    if s.goodRun = 10 ∧ s.nextMhz < s.targetMhz then ((s.measured tj watts).setGood s.goodRun).wantMhz (s.nextMhz + 100)
    else (s.measured tj watts).setGood s.goodRun
  else (s.measured tj watts).setGood 0

theorem exec_throttleEval (hup : s.dieUp = true) : exec (.throttleEval tj watts) s = .next (s.throttled tj watts) := by
  let t := s.measured tj watts
  have hhi : t.fld PM_THROT_T_HI = s.fld PM_THROT_T_HI := fld_measured _ _ _ (by decide)
  have hlo : t.fld PM_THROT_T_LO = s.fld PM_THROT_T_LO := fld_measured _ _ _ (by decide)
  have htarget : (t.setGood s.goodRun).targetMhz = s.targetMhz := targetMhz_measured s tj watts
  have hexec : exec (.throttleEval tj watts) s
      = if t.fld PM_THROT_T_HI < tj ∨ t.ceiling < watts then
          .next (if 1100 < t.nextMhz then (t.setGood 0).wantMhz (t.nextMhz - 100) else t.setGood 0)
        else if tj < t.fld PM_THROT_T_LO ∧ watts * 100 < t.ceiling * 95 then
          .next (if s.goodRun = 10 ∧ t.nextMhz < (t.setGood s.goodRun).targetMhz then
            (t.setGood s.goodRun).wantMhz (t.nextMhz + 100) else t.setGood s.goodRun)
        else .next (t.setGood 0) := if_neg (by simp [hup])
  rw [hexec, hhi, hlo, htarget, ceiling_measured, nextMhz_measured]
  unfold State.throttled
  split_ifs <;> rfl

theorem throttled_regs : (s.throttled tj watts).regs = (s.measured tj watts).regs := by
  unfold State.throttled
  split_ifs <;> rfl

end

theorem throttleEval_effect {s : State} {tj watts : Nat} (hup : s.dieUp = true) (htj : tj < 2 ^ 8) (hw : watts < 2 ^ 16) :
    let hot := s.fld PM_THROT_T_HI < tj ∨ s.ceiling < watts
    let good := tj < s.fld PM_THROT_T_LO ∧ watts * 100 < s.ceiling * 95
    Gives (exec (.throttleEval tj watts) s) (fun u => u.fld PM_POWER_TJ_MAX = tj ∧ u.fld PM_POWER_PKG_W = watts
      ∧ (hot → u.pm.good = 0 ∧ u.pm.want = (if 1100 < s.nextMhz then s.nextMhz - 100 else s.pm.want))
      ∧ (¬ hot → ¬ good → u.pm.good = 0 ∧ u.pm.want = s.pm.want)
      ∧ (¬ hot → good → u.pm.good = min (s.pm.good + 1) 10 ∧ u.pm.want =
          (if 9 ≤ s.pm.good ∧ s.nextMhz < s.targetMhz then s.nextMhz + 100 else s.pm.want))) := by
  intro hot good
  have hfld (g : Fld) : (s.throttled tj watts).fld g = (s.measured tj watts).fld g := by
    rw [State.fld, throttled_regs, State.fld]
  refine ⟨_, exec_throttleEval s tj watts hup, ?_, ?_, fun h => ?_, fun h hg => ?_, fun h hg => ?_⟩
  · rw [hfld]
    exact (State.fld_setFld _ _ _).trans (Nat.mod_eq_of_lt htj)
  · rw [hfld]
    exact (State.fld_setFld_ne _ _ (by decide)).trans ((State.fld_setFld _ _ _).trans (Nat.mod_eq_of_lt hw))
  · unfold State.throttled
    rw [if_pos h]
    split <;> exact ⟨rfl, rfl⟩
  · unfold State.throttled
    rw [if_neg h, if_neg hg]
    exact ⟨rfl, rfl⟩
  · have hrun : s.goodRun = 10 ↔ 9 ≤ s.pm.good := by
      unfold State.goodRun
      omega
    unfold State.throttled
    rw [if_neg h, if_pos hg]
    by_cases hraise : 9 ≤ s.pm.good ∧ s.nextMhz < s.targetMhz
    · rw [if_pos ⟨hrun.mpr hraise.1, hraise.2⟩, if_pos hraise]
      exact ⟨rfl, rfl⟩
    · rw [if_neg (fun hr => hraise ⟨hrun.mp hr.1, hr.2⟩), if_neg hraise]
      exact ⟨rfl, rfl⟩

/-! ### The clock change (R605) -/

theorem clockChange_takes {s : State} (hup : s.dieUp = true) (hwant : s.pm.want ≠ 0) (hsmall : s.pm.want < 2 ^ 11)
    (hmxm : s.mx.mxms.any Mxm.started = false) :
    Gives (exec .clockChange s) (fun u => u.mhz = s.pm.want ∧ u.pm.want = 0 ∧ u.m = s.m) := by
  refine ⟨_, if_pos (by simp [hup, hwant, hmxm]), ?_, rfl, rfl⟩
  refine (State.fld_setFld_ne _ _ (by decide)).trans ?_
  exact (State.fld_setFld s PM_OP_CLUSTER_MHZ s.pm.want).trans (Nat.mod_eq_of_lt hsmall)

/-! ### The host's commands of power -/

section
variable {s : State} {x : Started}

/-- An operating point that has been set, before the clock that it asks for. -/
def State.pointed (s : State) (cmd : HostCmd) (op : Nat) : State :=
  (State.setFld { s with pm := { s.pm with opCmds := s.pm.opCmds ++ [cmd], good := 0 } } PM_OP_CUR op).setThrot

theorem fld_cur_pointed (s : State) (cmd : HostCmd) {op : Nat} (hop : op < 3) : (s.pointed cmd op).fld PM_OP_CUR = op := by
  refine (State.fld_setFld_ne _ _ (by decide)).trans ((State.fld_setFld _ _ _).trans (Nat.mod_eq_of_lt ?_))
  exact hop.trans (by decide)

theorem nextMhz_pointed (s : State) (cmd : HostCmd) (op : Nat) : (s.pointed cmd op).nextMhz = s.nextMhz := by
  have hmhz : (s.pointed cmd op).mhz = s.mhz :=
    (State.fld_setFld_ne _ _ (by decide)).trans (State.fld_setFld_ne _ _ (by decide))
  rw [State.nextMhz, hmhz]
  rfl

theorem opPoint_begins (h : Served s x 0x0900) (hop : cP x.cmd 0 < 3) (hmax : cP x.cmd 0 ≤ s.opMax)
    (hnew : s.pm.opCmds.contains x.cmd = false) : Gives (exec (.opPoint x.cmd) s) (fun u =>
      u.fld PM_OP_CUR = cP x.cmd 0 ∧ u.pm.opCmds = s.pm.opCmds ++ [x.cmd]
      ∧ u.pm.want = (if opMhz (cP x.cmd 0) < s.nextMhz then opMhz (cP x.cmd 0) else s.pm.want)) := by
  let t := s.pointed x.cmd (cP x.cmd 0)
  have hcur : t.fld PM_OP_CUR = cP x.cmd 0 := fld_cur_pointed s x.cmd hop
  have htarget : t.targetMhz = opMhz (cP x.cmd 0) := congrArg opMhz hcur
  have hnext : t.nextMhz = s.nextMhz := nextMhz_pointed s x.cmd _
  have hexec : exec (.opPoint x.cmd) s = .next (if t.targetMhz < t.nextMhz then t.wantMhz t.targetMhz else t) := by
    unfold exec
    refine (hostRow_of_served h _).trans ?_
    rw [if_neg (by omega), if_neg (by omega), if_neg (by rw [hnew]; exact Bool.false_ne_true)]
    rfl
  refine ⟨_, hexec, ?_⟩
  rw [htarget, hnext]
  split <;> exact ⟨hcur, rfl, rfl⟩

theorem idleCfg_sets (h : Served s x 0x0901) (h0 : cP x.cmd 0 < 2 ^ 32) (h1 : cP x.cmd 1 < 2 ^ 32) : exec (.idleCfg x.cmd) s = .next
    (let t := (s.setFld PM_IDLE_TIMER_STAND_MS (cP x.cmd 0)).setFld PM_IDLE_TIMER_MOOR_S (cP x.cmd 1)
     State.reply { t with pm := { t.pm with idleFrom := s.timeUs, standAt := s.timeUs } } x stOk 0 0 0) := by
  unfold exec
  refine (hostRow_of_served h _).trans ?_
  rw [if_neg (by omega)]
  rfl

theorem moorEnable_sets (h : Served s x 0x0902) (hallow : bits (cP x.cmd 0) 0 1 = 1 → bit s.settingsWord 0 = true) :
    exec (.moorEnable x.cmd) s = .next ((s.setFld PM_CTRL_MOOR_EN (bits (cP x.cmd 0) 0 1)).reply x stOk 0 0 0) := by
  unfold exec
  refine (hostRow_of_served h _).trans ?_
  rw [if_neg (by simpa using hallow)]
  rfl

/-- Every partition fenced by POWER_OFF, with the replies of what it held. -/
def State.fenceAll (s : State) : State :=
  (List.range 8).foldl (fun s p => if s.partState p = ptFree then s else (s.fencePart p 2).dropHeld p) s

/-- The time at which power goes, a millisecond from now. -/
def State.setOff (s : State) : State := { s with pm := { s.pm with offAt := some (s.timeUs + 1000) } }

theorem fld_setOff (s : State) (g : Fld) : s.setOff.fld g = s.fld g := rfl

theorem exec_powerOff (h : Served s x 0x0903) : exec (.powerOff x.cmd) s = .next (s.fenceAll.setOff.reply x stOk 0 0 0) := by
  unfold exec
  refine (hostRow_of_served h _).trans ?_
  simp only [HRes.out_ok, State.fenceAll, State.setOff]

end

/-- A partition that POWER_OFF has to fence, or has fenced. -/
def Fencing (s : State) (p : Nat) : Prop :=
  s.partState p = ptBuilding ∨ s.partState p = ptStarted ∨ s.partState p = ptFenced ∧ s.fld (PART_STATUS_CAUSE p) = 2

theorem calm_status (p : Nat) (hp : p < 8) : Calm (0xB000010 + p * 0x100000) := by
  unfold Calm
  omega

theorem status_reg (p : Nat) : (PART_STATUS_STATE p).reg = 0xB000010 + p * 0x100000
    ∧ (PART_STATUS_CAUSE p).reg = 0xB000010 + p * 0x100000 := by
  simp [PART_STATUS_STATE, PART_STATUS_CAUSE]

/-- The fence of one partition leaves the status of another. -/
theorem fld_fenceOne_ne (s : State) {p q : Nat} (hq : q < 8) (hne : q ≠ p) {g : Fld} (hg : g.reg = 0xB000010 + q * 0x100000) :
    (if s.partState p = ptFree then s else (s.fencePart p 2).dropHeld p).fld g = s.fld g := by
  split
  · rfl
  · exact (fldsKept_dropHeld _ p g (hg ▸ calm_status q hq)).trans (fldsKept_fencePart s p 2 g (hg ▸ offFence_status hne))

theorem fenceOne_shut {s : State} {p : Nat} (hp : p < 8) (h : s.partState p = ptFree ∨ s.partState p = ptFenced) {g : Fld}
    (hg : g.reg = 0xB000010 + p * 0x100000) :
    (if s.partState p = ptFree then s else (s.fencePart p 2).dropHeld p).fld g = s.fld g := by
  split
  · rfl
  · have hstate : s.partState p = ptFenced := by tauto
    rw [fencePart_of_shut s p 2 (by rw [hstate]; decide) (by rw [hstate]; decide)]
    exact fldsKept_dropHeld s p g (hg ▸ calm_status p hp)

theorem fenceOne_open {s : State} {p : Nat} (hp : p < 8) (h : s.partState p = ptBuilding ∨ s.partState p = ptStarted) :
    let u := if s.partState p = ptFree then s else (s.fencePart p 2).dropHeld p
    u.partState p = ptFenced ∧ u.fld (PART_STATUS_CAUSE p) = 2 := by
  have hfree : s.partState p ≠ ptFree := by obtain h | h := h <;> (rw [h]; decide)
  rw [if_neg hfree]
  exact ⟨(fldsKept_dropHeld _ p _ ((status_reg p).1 ▸ calm_status p hp)).trans (partState_fencePart_same s p 2 h),
    (fldsKept_dropHeld _ p _ ((status_reg p).2 ▸ calm_status p hp)).trans (fld_cause_fencePart s p 2 h)⟩

theorem fenceOne_fencing {s : State} {p : Nat} (hp : p < 8) (h : Fencing s p) :
    let u := if s.partState p = ptFree then s else (s.fencePart p 2).dropHeld p
    u.partState p = ptFenced ∧ u.fld (PART_STATUS_CAUSE p) = 2 := by
  obtain h | h | ⟨hstate, hcause⟩ := h
  · exact fenceOne_open hp (.inl h)
  · exact fenceOne_open hp (.inr h)
  · exact ⟨(fenceOne_shut hp (.inr hstate) (status_reg p).1).trans hstate,
      (fenceOne_shut hp (.inr hstate) (status_reg p).2).trans hcause⟩

theorem fenceAll_open {s : State} {p : Nat} (hp : p < 8) (h : s.partState p = ptBuilding ∨ s.partState p = ptStarted) :
    s.fenceAll.partState p = ptFenced ∧ s.fenceAll.fld (PART_STATUS_CAUSE p) = 2 := by
  have hstate (t : State) {q : Nat} (hq : q ≠ p) := fld_fenceOne_ne t hp hq.symm (status_reg p).1
  have hcause (t : State) {q : Nat} (hq : q ≠ p) := fld_fenceOne_ne t hp hq.symm (status_reg p).2
  refine foldl_settles (R := fun t => Fencing t p) (P := fun t => t.partState p = ptFenced ∧ t.fld (PART_STATUS_CAUSE p) = 2)
    (List.mem_range.mpr hp) (h.imp_right .inl) (fun t q _ ht => ?_) (fun t ht => fenceOne_fencing hp ht) (fun t q hq ht => ?_)
  · by_cases hq : q = p
    · subst hq
      exact .inr (.inr (fenceOne_fencing hp ht))
    · unfold Fencing State.partState at *
      rwa [hstate t hq, hcause t hq]
  · unfold State.partState at *
    rwa [hstate t hq, hcause t hq]

theorem fenceAll_shut {s : State} {p : Nat} (hp : p < 8) (h : s.partState p = ptFree ∨ s.partState p = ptFenced) :
    s.fenceAll.partState p = s.partState p := by
  refine List.foldlRecOn (motive := fun t : State => t.partState p = s.partState p) _ _ rfl fun t ht q _ => ?_
  by_cases hq : q = p
  · subst hq
    exact (fenceOne_shut hp (ht ▸ h) (status_reg q).1).trans ht
  · exact (fld_fenceOne_ne t hp (Ne.symm hq) (status_reg p).1).trans ht

theorem fenceAll_of_free {s : State} (h : ∀ p, p < 8 → s.partState p = ptFree) : s.fenceAll = s := by
  refine List.foldlRecOn (motive := fun t => t = s) _ _ rfl fun t ht q hq => ?_
  rw [ht, if_pos (h q (List.mem_range.mp hq))]

theorem timeUs_fenceAll (s : State) : s.fenceAll.timeUs = s.timeUs := by
  refine List.foldlRecOn (motive := fun t : State => t.timeUs = s.timeUs) _ _ rfl fun t ht q _ => ?_
  split
  · exact ht
  · simpa using ht

theorem offAt_reply (s : State) (x : Started) (st d r0 r1 : Nat) : (s.reply x st d r0 r1).pm.offAt = s.pm.offAt := by
  have hpins (t : State) : t.pm.offAt = t.pins.offAt := rfl
  rw [hpins, pins_reply, ← hpins]

theorem powerOff_effect {s : State} {x : Started} (h : Served s x 0x0903) :
    ((∀ p, p < 8 → s.partState p = ptFree) → exec (.powerOff x.cmd) s = .next
      (State.reply { s with pm := { s.pm with offAt := some (s.timeUs + 1000) } } x stOk 0 0 0))
    ∧ Gives (exec (.powerOff x.cmd) s) (fun u => u.pm.offAt = some (s.timeUs + 1000)
      ∧ ∀ p, p < 8 → (s.partState p = ptBuilding ∨ s.partState p = ptStarted → u.partState p = ptFenced
          ∧ u.fld (PART_STATUS_CAUSE p) = 2)
        ∧ (s.partState p = ptFree ∨ s.partState p = ptFenced → u.partState p = s.partState p)) := by
  refine ⟨fun hfree => ?_, _, exec_powerOff h, ?_, fun p hp => ?_⟩
  · rw [exec_powerOff h, fenceAll_of_free hfree]
    rfl
  · have hoff : s.fenceAll.setOff.pm.offAt = some (s.fenceAll.timeUs + 1000) := rfl
    rw [offAt_reply, hoff, timeUs_fenceAll]
  · have hkept := fldsKept_reply s.fenceAll.setOff x stOk 0 0 0
    have hstate := hkept (PART_STATUS_STATE p) ((status_reg p).1 ▸ calm_status p hp)
    have hcause := hkept (PART_STATUS_CAUSE p) ((status_reg p).2 ▸ calm_status p hp)
    rw [fld_setOff] at hstate hcause
    exact ⟨fun hopen => ⟨hstate.trans (fenceAll_open hp hopen).1, hcause.trans (fenceAll_open hp hopen).2⟩,
      fun hshut => hstate.trans (fenceAll_shut hp hshut)⟩

/-! ### Islands (R611) -/

theorem islandGate_gates {i : Fin 58} {s : State} (hup : s.hubUp = true) (hslack : s.on PM_CTRL_SLACK_EN = true)
    (hgate : s.pm.gated.contains i.val = false) (hidle : s.islandIdle i = true) :
    Gives (exec (.islandGate i) s) (fun u => u.pm.gated = s.pm.gated ++ [i.val] ∧ u.regs = s.regs) :=
  ⟨_, if_pos (by rw [hup, hslack, hgate, hidle]; rfl), rfl, rfl⟩

theorem islandUngate_opens (i : Fin 58) (s : State) :
    Gives (exec (.islandUngate i) s) (fun u => i.val ∉ u.pm.gated ∧ u.regs = s.regs) :=
  ⟨_, rfl, by simp, rfl⟩

theorem clocksLaw_holds : clocksLaw :=
  ⟨fun _ _ _ => throttleEval_effect, fun _ => clockChange_takes, fun i s => ⟨islandGate_gates, islandUngate_opens i s⟩,
    fun _ _ => ⟨opPoint_begins, idleCfg_sets, moorEnable_sets, powerOff_effect⟩⟩

end Sys2Proof.Machine
end

section
open Sys2Proof Sys2Proof.Machine

/-- Settles O59: the SMBus target acts on the transactions that name it, and the clocks follow the readings and the host's target. -/
theorem smbus : Obligations.Smbus := ⟨smbusLaw_holds, clocksLaw_holds⟩
end

section
/-! Stand, Moor and wakes (19 R612 to R623, R637). -/

namespace Sys2Proof.Machine

/-! ### Stand is entered (R612, R613) -/

theorem standDue_of_busy {s : State} (h : (∃ p, p < 8 ∧ s.partState p = ptStarted) ∨ s.h.started ≠ [] ∨ s.on PM_IDLE_TIMER_STAND_MS = false
    ∨ s.timeUs < s.pm.idleFrom + 1000 * s.fld PM_IDLE_TIMER_STAND_MS) : s.standDue = false := by
  rw [Bool.eq_false_iff, Ne, State.standDue, State.mayStand]
  simp only [Bool.and_eq_true, List.all_eq_true, List.mem_range, bne_iff_ne, decide_eq_true_eq, not_and]
  rintro ⟨⟨⟨⟨hparts, hstarted⟩, -⟩, -⟩, hon⟩ hdue
  obtain ⟨p, hp, hstate⟩ | h | h | h := h
  · exact hparts p hp hstate
  · exact h (List.isEmpty_iff.mp hstarted)
  · rw [hon] at h
    contradiction
  · omega

theorem standEntry_begins {s : State} (hup : s.hubUp = true) (hst : s.fld PM_CTRL_STATE = 0) :
    exec .standEntry s = .next (if s.standDue then s.setFld PM_CTRL_STATE 1 else s) :=
  (if_neg (by simp [hup])).trans (if_pos hst)

theorem standDown_dark (s : State) {l : Nat} (hl : l < 256) : s.standDown.lstate l = lsDown :=
  lstate_foldl linksKept_darkLam lstate_darkLam (List.mem_range.mpr hl) s

/-- Stand entered: its state, the stacks in self-refresh, and when that was. -/
def State.standEntered (s : State) (st : Nat) : State :=
  let t := s.setFld PM_CTRL_STATE st
  { t with pm := { t.pm with selfRef := true, standAt := t.timeUs } }

theorem exec_standEntry_of_entering {s : State} (hup : s.hubUp = true) (hst : s.fld PM_CTRL_STATE = 1) :
    exec .standEntry s = .next (s.standDown.standEntered (if s.pm.wake = 0 then 2 else 4)) := by
  change execStandEntry s = _
  unfold execStandEntry
  rw [if_neg (by simp [hup]), if_neg (by rw [hst]; decide), if_pos hst]
  generalize s.standDown = t
  rfl

theorem standEntry_completes {s : State} (hup : s.hubUp = true) (hst : s.fld PM_CTRL_STATE = 1) : Gives (exec .standEntry s) (fun u =>
    u.fld PM_CTRL_STATE = (if s.pm.wake = 0 then 2 else 4) ∧ (∀ l < 256, u.lstate l = lsDown) ∧ u.pm.selfRef = true
    ∧ u.pm.standAt = s.timeUs ∧ u.m = s.m) := by
  have htime : s.standDown.timeUs = s.timeUs := by simp
  have hm : s.standDown.m = s.m := by simp
  have hdark (l : Nat) (hl : l < 256) := standDown_dark s hl
  rw [exec_standEntry_of_entering hup hst]
  generalize s.standDown = t at *
  refine ⟨_, rfl, ?_, fun l hl => ?_, rfl, htime, hm⟩
  · refine (State.fld_setFld t PM_CTRL_STATE _).trans (Nat.mod_eq_of_lt ?_)
    split <;> decide
  · refine Eq.trans ?_ (hdark l hl)
    exact fld_setFld_reg_ne t _ (setUp_pmState.lstate l).symm

/-! ### Stand is left (R613, R621) -/

theorem linksKept_leaveStand (s : State) (l : Nat) : LinksKept (· = l) s (s.leaveStand l) := by
  unfold State.leaveStand
  split_ifs
  · exact linksKept_setLstate ..
  · exact linksKept_setLstate ..
  · exact .refl ..
  · exact (linksKept_emitHello ..).trans (linksKept_setLstate ..)
  · exact linksKept_beginTraining ..

/-- Stand left, before the lambdas train again: the wake is recorded, and nothing that was held is held. -/
def State.leaving (s : State) : State :=
  let t := (s.writeWake s.pm.wake 1 s.pm.replayed s.pm.multi s.pm.wakeAt).setFld PM_CTRL_STATE 0
  { t with pm := { t.pm with heldReq := [], selfRef := false, idleFrom := t.timeUs } }

theorem fld_leaving (s : State) (g : Fld) : s.leaving.fld g
    = ((s.writeWake s.pm.wake 1 s.pm.replayed s.pm.multi s.pm.wakeAt).setFld PM_CTRL_STATE 0).fld g := rfl

/-- The lambdas as the exit from Stand leaves them. -/
def State.retrainAll (s : State) : State := (List.range 256).foldl State.leaveStand s

theorem fld_retrainAll (s : State) {g : Fld} (hg : SetUp g) : s.retrainAll.fld g = s.fld g :=
  (linksKept_foldl linksKept_leaveStand s).setUp hg

theorem retrainAll_m (s : State) : s.retrainAll.m = s.m := foldl_m _ _ _ (fun s l => by simp)

theorem retrainAll_pm (s : State) : s.retrainAll.pm = s.pm := foldl_pm _ _ _ (fun s l => by simp)

theorem exec_standExit {s : State} (hup : s.hubUp = true) (hst : s.fld PM_CTRL_STATE = 4) (hheld : s.pm.heldReq = []) :
    exec .standExit s = .next s.leaving.retrainAll := by
  refine (if_pos (by simp [hup, hst])).trans ?_
  rw [hheld]
  rfl

theorem standExit_completes {s : State} (hup : s.hubUp = true) (hst : s.fld PM_CTRL_STATE = 4) (hheld : s.pm.heldReq = []) :
    Gives (exec .standExit s) (fun u => u.fld PM_CTRL_STATE = 0
      ∧ u.fld HUB_LAST_WAKE_SOURCE = s.pm.wake % 8 ∧ u.fld HUB_LAST_WAKE_FROM = 1 ∧ u.pm.wake = 0 ∧ u.pm.selfRef = false
      ∧ u.pm.idleFrom = s.timeUs ∧ u.m = s.m) := by
  have hwake (g : Fld) (hg : g.reg ≠ PM_CTRL_STATE.reg) : s.leaving.fld g
      = (s.writeWake s.pm.wake 1 s.pm.replayed s.pm.multi s.pm.wakeAt).fld g :=
    (fld_leaving s g).trans (fld_setFld_reg_ne _ _ hg)
  have hsource : SetUp HUB_LAST_WAKE_SOURCE := setUp_of_reg (by decide) (by decide) (by decide)
  have hfrom : SetUp HUB_LAST_WAKE_FROM := setUp_of_reg (by decide) (by decide) (by decide)
  have hst0 : s.leaving.fld PM_CTRL_STATE = 0 := by
    rw [fld_leaving, State.fld_setFld]
    rfl
  have hsrc : s.leaving.fld HUB_LAST_WAKE_SOURCE = s.pm.wake % 8 := by
    rw [hwake _ (by decide), fld_source_writeWake]
    rfl
  have hfrm : s.leaving.fld HUB_LAST_WAKE_FROM = 1 := by
    rw [hwake _ (by decide), fld_from_writeWake]
    rfl
  have hpm : s.leaving.pm.wake = 0 ∧ s.leaving.pm.selfRef = false ∧ s.leaving.pm.idleFrom = s.timeUs := by
    simp [State.leaving, writeWake_pm]
  have hm : s.leaving.m = s.m := by simp [State.leaving]
  rw [exec_standExit hup hst hheld]
  clear hwake
  generalize s.leaving = t at *
  refine ⟨_, rfl, (fld_retrainAll t setUp_pmState).trans hst0, (fld_retrainAll t hsource).trans hsrc,
    (fld_retrainAll t hfrom).trans hfrm, ?_, ?_, ?_, (retrainAll_m t).trans hm⟩
  all_goals
    rw [retrainAll_pm]
    tauto

/-! ### Moor (R615, R616, R622) -/

section
variable {s : State} (hrel : s.pm.released = true) (hmoor : s.pm.moor = false) (hfail : s.on ERR_FAILSAFE_ACTIVE = false)
include hrel hmoor hfail

theorem exec_moorEntry_of_stand (hst : s.fld PM_CTRL_STATE = 2) (hen : s.on PM_CTRL_MOOR_EN = true) (hs : s.on PM_IDLE_TIMER_MOOR_S = true)
    (hms : s.on PM_IDLE_TIMER_STAND_MS = true) (hwake : s.pm.wake = 0) (hfree : ∀ p, p < 8 → s.partState p = ptFree) :
    exec .moorEntry s = if s.timeUs < s.pm.standAt + 1000000 * s.fld PM_IDLE_TIMER_MOOR_S then .next s
      else if s.on PM_WAKE_TIMER_S then .next (s.setFld PM_CLAIM_MOOR_HELD 1) else .next (s.setFld PM_CTRL_STATE 3) := by
  have hopen : ((List.range 8).any fun p => s.partState p != ptFree) = false := by
    simpa [List.any_eq_false] using hfree
  refine (if_neg (by simp [hrel, hmoor, hfail])).trans ((if_pos hst).trans ?_)
  simp only [hen, hs, hms, hwake, hopen, Bool.not_true, bne_self_eq_false, Bool.or_false, Bool.false_or, decide_eq_true_eq]

theorem moorEntry_completes (hst : s.fld PM_CTRL_STATE = 3) : Gives (exec .moorEntry s) (fun u => u.pm.moor = true
    ∧ u.on PM_PAD_RELEASE_HELD = true ∧ u.fab.enA = false ∧ u.fab.enB = false
    ∧ (s.pm.pads = none → u.pm.pads = some ⟨s.pm.fault, false, false, s.pm.gpioOut, s.pm.gpio⟩)
    ∧ (s.pm.pads ≠ none → u.pm.pads = s.pm.pads)) := by
  have hne : ¬ s.fld PM_CTRL_STATE = 2 := by rw [hst]; decide
  refine ⟨_, (if_neg (by simp [hrel, hmoor, hfail])).trans ((if_neg hne).trans (if_pos hst)), rfl, ?_, rfl, rfl, fun hp => ?_,
    fun hp => ?_⟩
  · exact (on_of_regs rfl _).trans (on_setFld_one s (f := PM_PAD_RELEASE_HELD) rfl)
  · exact congrArg some (by rw [hp]; rfl)
  · obtain ⟨x, hx⟩ := Option.ne_none_iff_exists'.mp hp
    rw [hx]
    rfl

end

theorem moorExit_resets {s : State} (hmoor : s.pm.moor = true) (hwake : s.pm.wake ≠ 0) : Gives (exec .moorExit s) (fun u =>
    u.fld HUB_RESET_CAUSE_CAUSE = 4 ∧ u.fld HUB_LAST_WAKE_SOURCE = s.pm.wake % 8 ∧ u.fld HUB_LAST_WAKE_FROM = 2 ∧ u.pm.moor = false
    ∧ u.pm.released = false ∧ u.pm.pads = s.pm.pads) := by
  obtain ⟨selfRef, fault, hpm⟩ := resetCause_pm s true 4
  refine ⟨_, if_pos (by simp [hmoor, hwake]), ?_, ?_, ?_, ?_, ?_, ?_⟩
  · rw [fld_writeWake _ _ _ _ _ _ (by decide), fld_cause_resetCause]
    rfl
  · rw [fld_source_writeWake]
    rfl
  · rw [fld_from_writeWake]
    rfl
  all_goals rw [writeWake_pm, hpm]; rfl

/-! ### Wakes (R618, R619) -/

section
variable {s : State} (hup : s.hubUp = true)
include hup

theorem standing_of_state (hst : s.fld PM_CTRL_STATE ≠ 0) : s.standing = true := by
  simp [State.standing, hup, hst]

theorem pcieInbandWake_wakes (hwake : s.pm.wake = 0) (hst : s.fld PM_CTRL_STATE = 2) :
    Gives (exec .pcieInbandWake s) (fun u => u.pm.wake = 1 ∧ u.fld PM_CTRL_STATE = 4) :=
  ⟨_, (if_pos (standing_of_state hup (by rw [hst]; decide))).trans (congrArg _ (wakeEvent_of_stand hwake hst 1)), rfl,
    State.fld_setFld _ PM_CTRL_STATE 4⟩

theorem wakeTimerExpire_wakes (hwake : s.pm.wake = 0) (hst : s.fld PM_CTRL_STATE = 2) (hon : s.on PM_WAKE_TIMER_S = true) :
    Gives (exec .wakeTimerExpire s) (fun u => u.pm.wake = 4 ∧ u.fld PM_CTRL_STATE = 4) :=
  ⟨_, (if_pos (by simp [hup, hon, hst])).trans (congrArg _ (wakeEvent_of_stand hwake hst 4)), rfl, State.fld_setFld _ PM_CTRL_STATE 4⟩

theorem pcieInbandWake_latches (hwake : s.pm.wake = 0) (hst : s.fld PM_CTRL_STATE = 1) :
    Gives (exec .pcieInbandWake s) (fun u => u.pm.wake = 1 ∧ u.pm.replayed = true ∧ u.regs = s.regs) := by
  have hmoor : s.pm.moor = false := by
    simp only [State.hubUp, Bool.and_eq_true, Bool.not_eq_true'] at hup
    exact hup.1.1.2
  refine ⟨_, (if_pos (standing_of_state hup (by rw [hst]; decide))).trans
    (congrArg _ (wakeEvent_of_other hwake (by rw [hst]; decide) 1)), rfl, ?_, rfl⟩
  change (!s.pm.moor && (s.fld PM_CTRL_STATE == 1 || s.fld PM_CTRL_STATE == 3)) = true
  rw [hmoor, hst]
  rfl

end

theorem pcieInbandWake_again {s : State} (hst : s.standing = true) (hwake : s.pm.wake ≠ 0) :
    Gives (exec .pcieInbandWake s) (fun u => u.pm.multi = true ∧ u.pm.wake = s.pm.wake) :=
  ⟨_, (if_pos hst).trans (congrArg _ (wakeEvent_again hwake 1)), rfl, rfl⟩

/-! ### Pads (R622, R637) -/

theorem padRelease_lets {s : State} (hup : s.hubUp = true) :
    Gives (exec .padRelease s) (fun u => u.on PM_PAD_RELEASE_HELD = false ∧ u.pm.pads = none) :=
  ⟨_, if_pos hup, (on_of_regs rfl _).trans (on_setFld_zero s.asked PM_PAD_RELEASE_HELD), rfl⟩

theorem sleepLaw_holds : sleepLaw := by
  intro s
  refine ⟨fun hup hst => ⟨fun hdue => ?_, fun hbusy => ?_⟩, standEntry_completes, standExit_completes, fun hrel hmoor hfail =>
    ⟨fun hst hen hs hms hwake hfree => ⟨fun hlt => ?_, fun hge => ⟨fun hw => ?_, fun hw => ?_⟩⟩, moorEntry_completes hrel hmoor hfail⟩,
    moorExit_resets, fun hwake hup => ⟨fun hst => ⟨pcieInbandWake_wakes hup hwake hst, wakeTimerExpire_wakes hup hwake hst⟩,
      pcieInbandWake_latches hup hwake⟩, pcieInbandWake_again, padRelease_lets, fun hup hon => if_pos (by rw [hup, hon]; rfl)⟩
  · rw [standEntry_begins hup hst, if_pos hdue]
  · rw [standEntry_begins hup hst, standDue_of_busy hbusy]
    rfl
  · rw [exec_moorEntry_of_stand hrel hmoor hfail hst hen hs hms hwake hfree, if_pos hlt]
  · rw [exec_moorEntry_of_stand hrel hmoor hfail hst hen hs hms hwake hfree, if_neg (by omega), if_neg (by simp [hw])]
  · rw [exec_moorEntry_of_stand hrel hmoor hfail hst hen hs hms hwake hfree, if_neg (by omega), if_pos hw]

end Sys2Proof.Machine
end

section
open Sys2Proof Sys2Proof.Machine

/-- Settles O56: the clocks follow the readings and the host's target, and Stand and Moor begin and end as the idle count and the wakes
say. -/
theorem clocks : Obligations.Clocks := ⟨clocksLaw_holds, sleepLaw_holds⟩

/-- Settles O57: Stand and Moor begin and end as the idle count and the wakes say, and a reset keeps what the always-on domain holds. -/
theorem sleep : Obligations.Sleep := ⟨sleepLaw_holds, resetsLaw_holds⟩
end

section
/-! A microsecond with no command (assumption 1), and the state right after reset. -/

namespace Sys2Proof.Machine

/-! ### What the clusters' part of a microsecond leaves -/

/-- The registers of the fail-safe state and of the AON seconds. -/
def AonReg (r : Nat) : Prop := r = 0x3000040 ∨ r = 0x1000050

/-- What the work of the clusters leaves of a microsecond: those registers, the pins, the cycles, and the copy of the registers. -/
structure Ticked (s u : State) : Prop where
  flds : FldsKept AonReg s u
  pins : u.pins = s.pins
  cycles : u.core.cycles = s.core.cycles
  roq : u.e.roq = s.e.roq

theorem Ticked.refl (s : State) : Ticked s s := ⟨fldsKept_refl s, rfl, rfl, rfl⟩

theorem Ticked.trans {s u v : State} (h : Ticked s u) (k : Ticked u v) : Ticked s v :=
  ⟨h.flds.trans k.flds, k.pins.trans h.pins, k.cycles.trans h.cycles, k.roq.trans h.roq⟩

theorem ticked_foldl {α : Type} (l : List α) (f : State → α → State) (h : ∀ s x, Ticked s (f s x)) (s : State) : Ticked s (l.foldl f s) :=
  foldl_rel (fun u v => Ticked v u) l f s .refl (fun _ _ _ hab hbc => hbc.trans hab) (fun s x _ e => e ▸ h s x)

theorem ticked_of_core {s u : State} (hr : u.regs = s.regs) (hpm : u.pm = s.pm) (hc : u.core.cycles = s.core.cycles) (he : u.e = s.e) :
    Ticked s u :=
  ⟨fldsKept_of_regs hr, pins_of_pm hpm, hc, by rw [he]⟩

theorem ticked_setFld (s : State) {f : Fld} (v : Nat) (hf : ¬ AonReg f.reg) : Ticked s (s.setFld f v) :=
  ⟨fldsKept_setFld s v hf, rfl, rfl, rfl⟩

theorem ticked_count (s : State) {f : Fld} (n : Nat) (hf : ¬ AonReg f.reg) : Ticked s (s.count f n) :=
  ⟨fldsKept_count s n hf, pins_of_pm (by simp), by simp, by simp⟩

theorem roq_pulseAux (s : State) (cls : Nat) : (s.pulseAux cls).e.roq = s.e.roq := by
  unfold State.pulseAux
  split <;> rfl

theorem roq_report (s : State) (r : Report) : (s.report r).e.roq = s.e.roq := by
  rw [← roq_pulseAux s r.cls]
  unfold State.report
  dsimp only
  split
  · rfl
  · split <;> rfl

theorem ticked_file (s : State) (detail cls kind index arg : Nat) : Ticked s (s.file detail cls kind index arg) :=
  ⟨fldsKept_file s _ _ _ _ _ _ (by unfold AonReg; omega), pins_file .., by simp, roq_report s _⟩

theorem ticked_sendTok (s : State) (tok : Word) : Ticked s (s.sendTok tok) := by
  unfold State.sendTok
  split
  · exact ticked_file ..
  · exact ⟨fldsKept_of_regs rfl, rfl, rfl, rfl⟩

theorem ticked_pushFault (s : State) (core : Nat) (r : List Byte) : Ticked s (s.pushFault core r) := by
  unfold State.pushFault
  extract_lets i _ u _ v
  have hv : Ticked s v := ⟨fldsKept_of_regs rfl, rfl, rfl, rfl⟩
  exact hv.trans (ticked_sendTok v _)

theorem not_aonReg_core {f : Fld} (h : 0x8000000 ≤ f.reg) : ¬ AonReg f.reg := by
  unfold AonReg
  omega

theorem ticked_taskFault (s : State) (core thread pc : Nat) (f : FInfo) (extra : Nat) (instr : Word) :
    Ticked s (s.taskFault core thread pc f extra instr) := by
  have hleft : Ticked s (s.leaveTask core) := ticked_of_core (by simp) (by simp) (by simp [State.leaveTask]) (by simp)
  have hstate : Ticked (s.leaveTask core) ((s.leaveTask core).setTaskState core tkFaulted) :=
    ticked_setFld _ _ (not_aonReg_core (by simp only [CL_TASK_STATE_STATE, Fld.at_reg]; omega))
  exact (hleft.trans hstate).trans (ticked_pushFault _ core _)

theorem ticked_countIssue (s : State) (core : Nat) : Ticked s (s.countIssue core) := by
  unfold State.countIssue
  split
  · exact .refl s
  · exact ticked_count _ _ (not_aonReg_core (by simp only [TC_ISSUED_COUNT, Fld.at_reg]; omega))

/-- A reserved word faults its task: no table of its translation can be lost. -/
theorem raise_illegal (s : State) (core t pc : Nat) (w : Word) :
    s.raise core t pc [whole fcIllegal] w = s.taskFault core t pc (whole fcIllegal) 0 w := rfl

theorem ticked_issueReserved (s : State) (core t : Nat) : Ticked s (s.issueReserved core t) := by
  unfold State.issueReserved
  split
  · rw [raise_illegal]
    exact (ticked_countIssue s core).trans (ticked_taskFault ..)
  · exact .refl s

theorem ticked_tickWords (s : State) : Ticked s s.tickWords := by
  unfold State.tickWords
  split
  · exact ticked_foldl _ _ (fun s c => ticked_foldl _ _ (fun s t => ticked_issueReserved s c t) s) s
  · exact .refl s

theorem mcCounts_regs (s : State) (core : Nat) : ∀ f ∈ s.mcCounts core, 0x8000000 ≤ f.reg := by
  intro f hf
  simp only [State.mcCounts, List.mem_append, List.mem_ite_nil_right, List.mem_singleton] at hf
  obtain (((⟨-, rfl⟩ | ⟨-, rfl⟩) | ⟨-, rfl⟩) | ⟨-, rfl⟩) | ⟨-, rfl⟩ := hf <;>
    simp only [MC_BUSY_CYCLES, MC_STALL_STREAM_CYCLES, MC_STALL_ACC_CYCLES, MC_STALL_CRED_CYCLES, MC_STALL_PLANE_CYCLES, Fld.at_reg] <;>
    omega

theorem tcCounts_regs (s : State) (core : Nat) : ∀ f ∈ s.tcCounts core, 0x8000000 ≤ f.reg := by
  intro f hf
  simp only [State.tcCounts, List.mem_ite_nil_left, List.mem_append, List.mem_ite_nil_right, List.mem_singleton] at hf
  obtain ⟨-, ⟨-, rfl⟩ | ⟨-, rfl⟩⟩ := hf <;> simp only [TC_NOREADY_CYCLES, TC_BERTH_FULL_CYCLES, Fld.at_reg] <;> omega

theorem ticked_countCycles (s : State) (n core : Nat) : Ticked s (s.countCycles n core) := by
  have hregs : ∀ f ∈ (if isMatrix core then s.mcCounts core else s.tcCounts core), 0x8000000 ≤ f.reg := by
    split
    · exact mcCounts_regs s core
    · exact tcCounts_regs s core
  exact List.foldlRecOn (motive := fun t => Ticked s t) _ _ (.refl s)
    fun t ht f hf => ht.trans (ticked_count t n (not_aonReg_core (hregs f hf)))

/-! ### The cycles of the clusters (R611) -/

/-- The islands whose clocks run have counted `n` cycles more. -/
def addCycles (run : List Nat) (n : Nat) (t : Tab Nat) : Tab Nat :=
  run.foldl (fun t cl => Tab.put t 0 cl (Tab.get t 0 cl + n)) t

theorem get_addCycles {run : List Nat} (hrun : run.Nodup) (n : Nat) (t : Tab Nat) (cl : Nat) :
    Tab.get (addCycles run n t) 0 cl = Tab.get t 0 cl + if cl ∈ run then n else 0 := by
  induction run generalizing t with
  | nil => simp [addCycles]
  | cons x run ih =>
    obtain ⟨hx, hrest⟩ := List.nodup_cons.mp hrun
    have hstep : addCycles (x :: run) n t = addCycles run n (Tab.put t 0 x (Tab.get t 0 x + n)) := rfl
    rw [hstep, ih hrest, Tab.get_put]
    by_cases hcl : cl = x
    · subst hcl
      simp [hx]
    · simp [hcl]

theorem tickClusters_cycles (s : State) : s.tickClusters.core.cycles
    = if s.dieUp then addCycles ((List.range 40).filter s.clockRuns) s.mhz s.core.cycles else s.core.cycles := by
  unfold State.tickClusters
  split
  · exact congrArg CoreSt.cycles (foldl_core _ _ _ (fun s c => by simp))
  · rfl

theorem fldsKept_tickClusters (s : State) : FldsKept AonReg s s.tickClusters := by
  unfold State.tickClusters
  split
  · extract_lets n run _ u
    have hu : FldsKept AonReg s u := fldsKept_of_regs rfl
    exact hu.trans (fldsKept_foldl (fun s c => (ticked_countCycles s n c).flds) _ u)
  · exact fldsKept_refl s

/-! ### The hub's part -/

/-- The hub's time, the count since PWR_GOOD and the copy of the registers moved on. -/
def State.advanced (s : State) (us good : Nat) (roq : Tab Nat) : State :=
  { s with timeUs := us, e := { s.e with roq := roq }, pm := { s.pm with goodUs := good } }

/-- Whether the hub's time runs. -/
def State.timeRuns (s : State) : Bool := s.pm.released && !s.pm.moor

/-- The state of a microsecond before the clusters work. -/
def State.begun (s : State) : State :=
  s.advanced (if s.timeRuns then s.timeUs + 1 else s.timeUs) (if s.pm.pwrGood then min 1000 (s.pm.goodUs + 1) else s.pm.goodUs)
    (if s.timeRuns = true ∧ (s.timeUs + 1) % 1000 = 0 then s.regs else s.e.roq)

theorem tickGood_tickTime (s : State) : s.tickTime.tickGood = s.begun := by
  have htime : s.tickTime = s.advanced (if s.timeRuns then s.timeUs + 1 else s.timeUs) s.pm.goodUs
      (if s.timeRuns = true ∧ (s.timeUs + 1) % 1000 = 0 then s.regs else s.e.roq) := by
    unfold State.tickTime
    change (if s.timeRuns = true then _ else s) = _
    by_cases hrun : s.timeRuns = true
    · simp only [hrun, if_true, true_and]
      split <;> rfl
    · simp only [hrun, if_false, false_and, Bool.false_eq_true]
      rfl
  rw [htime, State.begun]
  by_cases hgood : s.pm.pwrGood = true
  · rw [if_pos hgood]
    exact if_pos hgood
  · rw [if_neg hgood]
    exact if_neg hgood

theorem clockRuns_advanced (s : State) (us good : Nat) (roq : Tab Nat) (cl : Nat) :
    (s.advanced us good roq).clockRuns cl = s.clockRuns cl := rfl

theorem dieUp_advanced (s : State) (us good : Nat) (roq : Tab Nat) : (s.advanced us good roq).dieUp = s.dieUp := rfl

/-! ### What passes beside the clusters and the AON seconds -/

/-- The power management, but for what reports, islands, the stacks and the idle count move. -/
def State.rails (s : State) : PmSt := { s.pm with aux0 := 0, gated := [], selfRef := false, idleFrom := 0 }

/-- What a part of a microsecond leaves. -/
structure Passed (s u : State) : Prop where
  flds : FldsKept AonReg s u
  time : u.timeUs = s.timeUs
  rails : u.rails = s.rails
  cycles : u.core.cycles = s.core.cycles
  roq : u.e.roq = s.e.roq
  mem : u.m.mem = s.m.mem

theorem Passed.trans {s u v : State} (h : Passed s u) (k : Passed u v) : Passed s v :=
  ⟨h.flds.trans k.flds, k.time.trans h.time, k.rails.trans h.rails, k.cycles.trans h.cycles, k.roq.trans h.roq, k.mem.trans h.mem⟩

theorem rails_of_pins {s u : State} (h : u.pins = s.pins) : u.rails = s.rails := by
  have hpins (t : State) : t.rails = { t.pins with gated := [], selfRef := false, idleFrom := 0 } := rfl
  rw [hpins, hpins, h]

theorem passed_tickWords (s : State) : Passed s s.tickWords := by
  obtain ⟨hflds, hpins, hcycles, hroq⟩ := ticked_tickWords s
  exact ⟨hflds, by simp, rails_of_pins hpins, hcycles, hroq, by simp⟩

theorem passed_tickGates (s : State) : Passed s s.tickGates := ⟨fldsKept_of_regs rfl, rfl, rfl, rfl, rfl, rfl⟩

theorem fldsKept_setBoot (s : State) (st reason : Nat) : FldsKept AonReg s (s.setBoot st reason) := by
  unfold State.setBoot
  have hstate : FldsKept AonReg s (s.setFld SEC_BOOT_STATE st) := fldsKept_setFld s st (by unfold AonReg; decide)
  exact (hstate.trans (fldsKept_setFld _ (f := SEC_BOOT_REASON) reason (by unfold AonReg; decide))).regs (by simp)

theorem fldsKept_verified (s : State) : FldsKept AonReg s s.verified := by
  unfold State.verified
  extract_lets r
  split
  · exact fldsKept_setBoot s 3 r
  · exact (fldsKept_of_regs rfl).trans (fldsKept_setBoot _ 2 0)

theorem fldsKept_tickBoot (s : State) : FldsKept AonReg s s.tickBoot := by
  have hfree : FldsKept AonReg s (s.free 1).2 := fldsKept_of_regs (by simp)
  unfold State.tickBoot
  split
  · dsimp only
    split
    · exact hfree.trans (fldsKept_verified _)
    · exact hfree
  · exact fldsKept_refl s

theorem passed_tickBoot (s : State) : Passed s s.tickBoot :=
  ⟨fldsKept_tickBoot s, by simp, rails_of_pins (pins_of_pm (by simp)), by simp, by simp, by simp⟩

theorem passed_tickDump {s : State} (h : s.dumping = false) : Passed s s.tickDump := by
  have hnot : ¬ s.dumping = true := by simp [h]
  unfold State.tickDump
  rw [if_neg hnot]
  split <;> exact ⟨fldsKept_of_regs rfl, rfl, rfl, rfl, rfl, rfl⟩

theorem passed_tickIdle (s : State) : Passed s s.tickIdle := by
  unfold State.tickIdle
  split <;> exact ⟨fldsKept_of_regs rfl, rfl, rfl, rfl, rfl, rfl⟩

theorem tickOff_stays {s : State} (hoff : s.pm.offAt = none) (hsmb : s.pm.smbOff = false) : s.tickOff = s := by
  refine if_neg ?_
  rw [hoff, hsmb]
  simp

theorem Passed.dumping {s u : State} (h : Passed s u) : u.dumping = s.dumping := by
  have hpwr (t : State) : t.dumping = (t.rails.pwrGood && !t.rails.moor && t.on ERR_FAILSAFE_ACTIVE
    && t.fld ERR_FAILSAFE_DUMP_STATE == 1) := rfl
  rw [hpwr, hpwr, h.rails, on_of_fld (h.flds ERR_FAILSAFE_ACTIVE (.inl rfl)), h.flds ERR_FAILSAFE_DUMP_STATE (.inl rfl)]

/-- A microsecond after its AON seconds: boot, dump, power off and the idle count. -/
def State.tickRest (s : State) : State := s.tickBoot.tickDump.tickOff.tickIdle

theorem passed_tickRest {s : State} (hdump : s.dumping = false) (hoff : s.pm.offAt = none) (hsmb : s.pm.smbOff = false) :
    Passed s s.tickRest := by
  have hboot := passed_tickBoot s
  have hd := hboot.trans (passed_tickDump (hboot.dumping.trans hdump))
  have hrails (t : State) : t.pm.offAt = t.rails.offAt ∧ t.pm.smbOff = t.rails.smbOff := ⟨rfl, rfl⟩
  have hstays : s.tickBoot.tickDump.tickOff = s.tickBoot.tickDump := by
    refine tickOff_stays ?_ ?_
    · rw [(hrails _).1, hd.rails]
      exact hoff
    · rw [(hrails _).2, hd.rails]
      exact hsmb
  unfold State.tickRest
  rw [hstays]
  exact hd.trans (passed_tickIdle _)

/-! ### The AON seconds (R626) -/

theorem tickAon_stops {s : State} (h : s.pm.moor = true) : s.tickAon = s := if_pos (by simp [h])

section
variable {s : State} (haon : s.pm.aon = true) (hmoor : s.pm.moor = false)
include haon hmoor

theorem tickAon_second (h : s.pm.aonUs + 1 = 1000000) : s.tickAon.pm.aonUs = 0
    ∧ s.tickAon.fld PM_AON_SECONDS_S = (s.fld PM_AON_SECONDS_S + 1) % 2 ^ PM_AON_SECONDS_S.len := by
  have hgo : ¬ (s.pm.moor || !s.pm.aon) = true := by simp [haon, hmoor]
  unfold State.tickAon
  rw [if_neg hgo, if_pos h]
  exact ⟨rfl, State.fld_setFld s PM_AON_SECONDS_S _⟩

theorem tickAon_counts (h : s.pm.aonUs + 1 ≠ 1000000) : s.tickAon.pm.aonUs = s.pm.aonUs + 1
    ∧ s.tickAon.fld PM_AON_SECONDS_S = s.fld PM_AON_SECONDS_S := by
  have hgo : ¬ (s.pm.moor || !s.pm.aon) = true := by simp [haon, hmoor]
  unfold State.tickAon
  rw [if_neg hgo, if_neg h]
  exact ⟨rfl, rfl⟩

end

/-- What the AON seconds leave of the rest: all but their own register and their own microseconds. -/
structure AonOnly (s u : State) : Prop where
  failsafe : u.on ERR_FAILSAFE_ACTIVE = s.on ERR_FAILSAFE_ACTIVE
  dump : u.fld ERR_FAILSAFE_DUMP_STATE = s.fld ERR_FAILSAFE_DUMP_STATE
  time : u.timeUs = s.timeUs
  pm : u.pm = { s.pm with aonUs := u.pm.aonUs }
  cycles : u.core.cycles = s.core.cycles
  roq : u.e.roq = s.e.roq
  mem : u.m.mem = s.m.mem

theorem aonOnly_tickAon (s : State) : AonOnly s s.tickAon := by
  unfold State.tickAon
  split
  · exact ⟨rfl, rfl, rfl, rfl, rfl, rfl, rfl⟩
  · split
    · exact ⟨on_of_fld (State.fld_setFld_ne s _ (by decide)), State.fld_setFld_ne s _ (by decide), rfl, rfl, rfl, rfl, rfl⟩
    · exact ⟨rfl, rfl, rfl, rfl, rfl, rfl, rfl⟩

/-- A microsecond before its AON seconds. -/
def State.tickWork (s : State) : State := s.begun.tickClusters.tickWords.tickGates

theorem tick_eq (s : State) : s.tick = s.tickWork.tickAon.tickRest := by
  unfold State.tick State.tickWork State.tickRest
  rw [tickGood_tickTime]

theorem passed_tickWork (s : State) : Passed s.begun.tickClusters s.tickWork := (passed_tickWords _).trans (passed_tickGates _)

theorem flds_tickWork (s : State) : FldsKept AonReg s s.tickWork :=
  (fldsKept_tickClusters s.begun).trans (passed_tickWork s).flds

theorem rails_tickWork (s : State) : s.tickWork.rails = s.begun.rails :=
  (passed_tickWork s).rails.trans (rails_of_pins (pins_of_pm (by simp)))

theorem time_tickWork (s : State) : s.tickWork.timeUs = s.begun.timeUs := (passed_tickWork s).time.trans (by simp)

theorem roq_tickWork (s : State) : s.tickWork.e.roq = s.begun.e.roq := (passed_tickWork s).roq.trans (by simp)

theorem mem_tickWork (s : State) : s.tickWork.m.mem = s.m.mem := (passed_tickWork s).mem.trans (by simp [State.begun, State.advanced])

theorem cycles_tickWork (s : State) {cl : Nat} (hcl : cl < 40) : Tab.get s.tickWork.core.cycles 0 cl
    = Tab.get s.core.cycles 0 cl + if s.dieUp && s.clockRuns cl then s.mhz else 0 := by
  rw [(passed_tickWork s).cycles, tickClusters_cycles]
  change Tab.get (if s.dieUp then addCycles ((List.range 40).filter s.clockRuns) s.mhz s.core.cycles else s.core.cycles) 0 cl = _
  cases hup : s.dieUp
  · simp
  · rw [if_pos rfl, get_addCycles (List.nodup_range.filter _)]
    simp [hcl]

/-- The power management, by the field. -/
theorem pm_of_rails {s u : State} (h : u.rails = s.rails) : u.pm.aon = s.pm.aon ∧ u.pm.moor = s.pm.moor ∧ u.pm.aonUs = s.pm.aonUs
    ∧ u.pm.offAt = s.pm.offAt ∧ u.pm.smbOff = s.pm.smbOff ∧ u.pm.pwrGood = s.pm.pwrGood ∧ u.pm.goodUs = s.pm.goodUs := by
  simp only [State.rails, PmSt.mk.injEq] at h
  tauto

theorem aonOnly_dumping {s u : State} (h : AonOnly s u) : u.dumping = s.dumping := by
  rw [State.dumping, State.dumping, h.failsafe, h.dump, h.pm]

theorem passed_tick {s : State} (hdump : s.dumping = false) (hoff : s.pm.offAt = none) (hsmb : s.pm.smbOff = false) :
    Passed s.tickWork.tickAon s.tick := by
  obtain ⟨-, hmoor, -, hoff', hsmb', hgood, -⟩ := pm_of_rails (rails_tickWork s)
  have haon := aonOnly_tickAon s.tickWork
  have hflds := flds_tickWork s
  have hwork : s.tickWork.dumping = s.dumping := by
    rw [State.dumping, State.dumping, hgood, hmoor, on_of_fld (hflds ERR_FAILSAFE_ACTIVE (.inl rfl)),
      hflds ERR_FAILSAFE_DUMP_STATE (.inl rfl)]
    rfl
  rw [tick_eq]
  refine passed_tickRest ((aonOnly_dumping haon).trans (hwork.trans hdump)) ?_ ?_
  · rw [haon.pm]
    exact hoff'.trans hoff
  · rw [haon.pm]
    exact hsmb'.trans hsmb

theorem idleStep_effect {s : State} (hdump : s.dumping = false) (hoff : s.pm.offAt = none) (hsmb : s.pm.smbOff = false) :
    let t := s.tick
    let runs := s.pm.released && !s.pm.moor
    t.timeUs = (if runs then s.timeUs + 1 else s.timeUs)
    ∧ (s.pm.pwrGood = true → t.pm.goodUs = min 1000 (s.pm.goodUs + 1))
    ∧ (s.pm.aon = true → s.pm.moor = false →
      (s.pm.aonUs + 1 = 1000000 → t.pm.aonUs = 0
        ∧ t.fld PM_AON_SECONDS_S = (s.fld PM_AON_SECONDS_S + 1) % 2 ^ PM_AON_SECONDS_S.len)
      ∧ (s.pm.aonUs + 1 ≠ 1000000 → t.pm.aonUs = s.pm.aonUs + 1 ∧ t.fld PM_AON_SECONDS_S = s.fld PM_AON_SECONDS_S))
    ∧ (s.pm.moor = true → t.pm.aonUs = s.pm.aonUs ∧ t.fld PM_AON_SECONDS_S = s.fld PM_AON_SECONDS_S)
    ∧ (∀ cl, cl < 40 → Tab.get t.core.cycles 0 cl = Tab.get s.core.cycles 0 cl
        + (if s.dieUp && s.clockRuns cl then s.mhz else 0))
    ∧ (runs = true → (s.timeUs + 1) % 1000 = 0 → t.e.roq = s.regs)
    ∧ t.m.mem = s.m.mem := by
  intro t runs
  obtain ⟨haon, hmoor, husWork, -, -, -, hgood⟩ := pm_of_rails (rails_tickWork s)
  have hus : s.tickWork.pm.aonUs = s.pm.aonUs := husWork
  have hmid := aonOnly_tickAon s.tickWork
  have hend := passed_tick hdump hoff hsmb
  obtain ⟨-, -, hus', -, -, -, hgood'⟩ := pm_of_rails hend.rails
  have hsec : t.fld PM_AON_SECONDS_S = s.tickWork.tickAon.fld PM_AON_SECONDS_S := hend.flds _ (.inr rfl)
  have hsecWork : s.tickWork.fld PM_AON_SECONDS_S = s.fld PM_AON_SECONDS_S := flds_tickWork s _ (.inr rfl)
  refine ⟨?_, fun h => ?_, fun ha hm => ⟨fun h => ?_, fun h => ?_⟩, fun hm => ?_, fun cl hcl => ?_, fun hruns hms => ?_, ?_⟩
  · exact hend.time.trans (hmid.time.trans (time_tickWork s))
  · rw [hgood', hmid.pm, hgood]
    exact if_pos h
  · rw [hsec, hus', ← hsecWork]
    exact tickAon_second (haon.trans ha) (hmoor.trans hm) (by rw [hus, h])
  · rw [hsec, hus', ← hsecWork, ← hus]
    exact tickAon_counts (haon.trans ha) (hmoor.trans hm) (by rw [hus]; exact h)
  · rw [hsec, hus', tickAon_stops (hmoor.trans hm)]
    exact ⟨hus, hsecWork⟩
  · rw [hend.cycles, hmid.cycles, cycles_tickWork s hcl]
  · rw [hend.roq, hmid.roq, roq_tickWork]
    exact if_pos ⟨hruns, hms⟩
  · rw [hend.mem, hmid.mem, mem_tickWork]

theorem step_of_empty {s : State} (h : s.pending = []) : step s = .next s.tick := by
  unfold step
  rw [h]

/-! ### Right after reset -/

theorem reset_taskState (c : Nat) : State.reset.taskState c = tkIdle := rfl

theorem reset_threadReady (c t : Nat) : State.reset.threadReady c t = false := by
  have hruns : State.reset.taskRuns c = false := rfl
  simp [State.threadReady, hruns]

end Sys2Proof.Machine
end

section
open Sys2Proof Sys2Proof.Machine

/-- Settles O2: a microsecond moves on the hub's time, then the clusters' cycles, then the AON seconds; what follows leaves them alone
where no dump is being written and power stays. -/
theorem idleStep : Obligations.IdleStep := fun s hempty =>
  ⟨s.tick, step_of_empty hempty, (State.tick_frame s).trans hempty, idleStep_effect⟩

/-- Settles O6: no register is written, no list of the units holds anything. -/
theorem resetState : Obligations.ResetState :=
  ⟨rfl, rfl, rfl, fun _ => rfl, fun c => ⟨reset_taskState c, fun t => reset_threadReady c t⟩, fun _ => ⟨rfl, rfl⟩,
    rfl, rfl, rfl, rfl, rfl⟩
end

section
/-! BAR2, and the host's commands on a job, on memory and on tables (17 R560, R577, R580, 06 R222, 10 R368, R375, 14 R492). -/

namespace Sys2Proof.Machine

/-! ### BAR2 -/

/-- BAR2 (17 R560). -/
theorem apertureLaw_holds : apertureLaw := by
  intro q off s hup hstand hopen
  extract_lets p va
  have hup' : ¬ (!s.asked.hubUp) = true := by simpa using (show s.asked.hubUp = true from hup)
  have hstand' : ¬ s.asked.standing = true := by simpa using (show s.asked.standing = false from hstand)
  have hopen' : ¬ s.asked.apertureShut q = true := by simpa using (show s.asked.apertureShut q = false from hopen)
  have hwrite (b : List Byte) : exec (.apertureWrite q off b) s =
      if (s.firstBad p true va b.length).isSome then
        .next ((s.asked.walkSeen 7 p va b.length).file 0x0050 clsNotice 7 (p + 1) va (some p))
      else .next (s.asked.hostWrite p va b) :=
    (if_neg hstand').trans (if_neg (by simp only [Bool.or_eq_true, not_or]; exact ⟨hup', hopen'⟩))
  refine ⟨fun n => ?_, fun b hb => ?_, fun b bad hb => ?_⟩
  · refine ((if_neg hup').trans ((if_neg hstand').trans (if_neg hopen'))).trans ?_
    change (match s.asked.hubRead 7 p va n with
      | (some b, s') => Host.Outcome.next (s'.answer (.data b))
      | (none, s') => .next (s'.answer .completerAbort)) = _
    generalize s.asked.hubRead 7 p va n = r
    rcases r with ⟨_ | b, s'⟩ <;> rfl
  · rw [hwrite, hb, if_neg (by simp)]
  · rw [hwrite, hb, if_pos (by rfl)]

/-! ### What carries the host's commands out -/

theorem exec_memWrite (c : HostCmd) (s : State) : exec (.memWrite c) s = execMemWrite c s := rfl
theorem exec_memRead (c : HostCmd) (s : State) : exec (.memRead c) s = execMemRead c s := rfl
theorem exec_memFill (c : HostCmd) (s : State) : exec (.memFill c) s = execMemFill c s := rfl
theorem exec_ptSet (c : HostCmd) (s : State) : exec (.ptSet c) s = execPtSet c s := rfl
theorem exec_apertureSet (c : HostCmd) (s : State) : exec (.apertureSet c) s = execApertureSet c s := rfl
theorem exec_degreeBin (c : HostCmd) (s : State) : exec (.degreeBin c) s = execDegreeBin c s := rfl
theorem exec_jobLoad (c : HostCmd) (s : State) : exec (.jobLoad c) s = execJobLoad c s := rfl
theorem exec_jobStop (c : HostCmd) (s : State) : exec (.jobStop c) s = execJobStop c s := rfl
theorem exec_jobResume (c : HostCmd) (s : State) : exec (.jobResume c) s = execJobResume c s := rfl
theorem exec_stepRun (c : HostCmd) (s : State) : exec (.stepRun c) s = execStepRun c s := rfl
theorem exec_serveBatch (c : HostCmd) (s : State) : exec (.serveBatch c) s = execServeBatch c s := rfl
theorem exec_ledgerRead (c : HostCmd) (s : State) : exec (.ledgerRead c) s = execLedgerRead c s := rfl
theorem exec_tableReplace (c : HostCmd) (s : State) : exec (.tableReplace c) s = execTableReplace c s := rfl
theorem exec_hotRefresh (c : HostCmd) (s : State) : exec (.hotRefresh c) s = execHotRefresh c s := rfl

/-! ### Commands on a job -/

/-- JOB_LOAD of a manifest of the right shape: its items, then the checks (17 R580). -/
theorem jobLoad_of_served {x : Started} {s : State} {p : Nat} {b : List Byte} (hp : cPart x.cmd = p)
    (hb : s.rdB (keyHost (cData x.cmd)) (cLen x.cmd) = b) (h : Served s x 0x0300) (hpart : s.partState p = ptBuilding)
    (hlong : 64 ≤ cLen x.cmd) (hlen : cLen x.cmd = 64 + 32 * itF b 4 4) (hver : itF b 0 2 = 1) :
    exec (.jobLoad x.cmd) s = .next (match (s.setJob p .none).loadItems p (piecesOf 32 (itF b 4 4) (b.drop 64)) with
      | (0, s1) =>
        let s' := s1.tablesSeen p
        let model := (b.drop 0x20).take 32
        if s'.partState p = ptFenced then s'.reply x stMemUe 0 0 0
        else if s'.loadDetail p ≠ 0 then s'.reply x stLoadRefused (s'.loadDetail p) 0 0
        else if s'.on (STEP_CFG_SERVE p) = false ∧ model.any (· != 0) = true then s'.reply x stLoadRefused 7 0 0
        else if s'.on (STEP_CFG_SERVE p) ∧ s'.heldDigest p ≠ model then s'.reply x stModelDigest 0 0 0
        else (s'.loaded p model).reply x stOk 0 (s'.fld (STEP_JOB_ID_JOB_ID p)) 0
      | (d, s') => if s'.partState p = ptFenced then s'.reply x stMemUe 0 0 0 else s'.reply x stLoadRefused d 0 0) := by
  have hgood : ¬ (cLen x.cmd < 64 ∨ cLen x.cmd ≠ 64 + 32 * itF b 4 4 ∨ itF b 0 2 ≠ 1) := by omega
  rw [exec_jobLoad, execJobLoad, hostRow_of_served h]
  dsimp only
  rw [hp, hb, if_neg (not_not.mpr hpart), if_neg hgood]
  obtain ⟨d, s1⟩ := (s.setJob p JobSt.none).loadItems p (piecesOf 32 (itF b 4 4) (b.drop 64))
  cases d with
  | zero =>
    generalize s1.tablesSeen p = s'
    simp only [Bool.and_eq_true, Bool.not_eq_true']
    split_ifs <;> rfl
  | succ d =>
    change HRes.out x (if s1.partState p = ptFenced then .no s1 stMemUe else .no s1 stLoadRefused (d + 1)) =
      .next (if s1.partState p = ptFenced then s1.reply x stMemUe 0 0 0 else s1.reply x stLoadRefused (d + 1) 0 0)
    split_ifs <;> rfl

/-- JOB_STOP of a job in a step is held. -/
theorem jobStop_of_step {x : Started} {s : State} (h : Served s x 0x0301) (hpart : s.partState (cPart x.cmd) = ptStarted)
    (hrest : s.atRest (cPart x.cmd) = false) (hnew : s.h.held.contains x.cmd = false) :
    exec (.jobStop x.cmd) s = .next { s with h := { s.h with held := s.h.held ++ [x.cmd] } } := by
  rw [exec_jobStop, execJobStop, boundaryRow_of_step h (if_pos hpart) hrest hnew]

/-- Commands on a job (17 R577, R580). -/
theorem jobLaw_holds : jobLaw := by
  intro x s
  extract_lets p b model t
  refine ⟨fun h hpart hlong hlen hver => jobLoad_of_served rfl rfl h hpart hlong hlen hver,
    fun h hpart => ⟨fun hrest => ?_, fun hrest hnew => ⟨_, jobStop_of_step h hpart hrest hnew, rfl, rfl⟩⟩,
    fun h hpart hstop hcause => ?_, fun h hpart => ?_⟩
  · rw [exec_jobStop, execJobStop, boundaryRow_of_rest h (if_pos hpart) hrest (by simp [State.waitsTable, h.2.2.1])]
    rfl
  · rw [exec_jobResume, execJobResume, hostRow_of_served h, if_pos ⟨hpart, hstop, hcause⟩]
    rfl
  · rw [exec_stepRun, execStepRun, hostRow_of_served h]
    dsimp only
    rw [if_neg (not_not.mpr hpart)]
    simp only [HRes.out_ok, Bool.not_eq_true']
    rfl

end Sys2Proof.Machine
end

section
/-! The bins of DEGREE_BIN (06 R222), and the host's commands on memory, batches, the ledger and tables (17 R577, 14 R492, 10 R368, R375). -/

namespace Sys2Proof.Machine

/-! ### Rows by bin -/

/-- The rows of a list by the bins below `n`, each bin in the list's order. -/
def binned (n : Nat) (l : List (Nat × Nat)) : List (Nat × Nat) :=
  (List.range n).flatMap (fun b => l.filter (fun e => degreeBinOf e.2 == b))

theorem binned_succ (n : Nat) (l : List (Nat × Nat)) :
    binned (n + 1) l = binned n l ++ l.filter (fun e => degreeBinOf e.2 == n) := by
  simp [binned, List.range_succ]

theorem degreeBinOf_lt {n : Nat} (h : n < 2 ^ 32) : degreeBinOf n < 33 := by
  unfold degreeBinOf bitLen
  split
  · omega
  · next h0 => exact Nat.succ_lt_succ ((Nat.log2_lt h0).2 h)

/-- The rows of the bins below `n` are those of the list. -/
theorem binned_perm (n : Nat) (l : List (Nat × Nat)) : (binned n l).Perm (l.filter (fun e => decide (degreeBinOf e.2 < n))) := by
  induction n with
  | zero => simp [binned]
  | succ n ih =>
    have hlow : (l.filter (fun e => decide (degreeBinOf e.2 < n + 1))).filter (fun e => decide (degreeBinOf e.2 < n)) =
        l.filter (fun e => decide (degreeBinOf e.2 < n)) := by
      rw [List.filter_filter]
      exact List.filter_congr fun e _ => by grind
    have htop : (l.filter (fun e => decide (degreeBinOf e.2 < n + 1))).filter (fun e => !decide (degreeBinOf e.2 < n)) =
        l.filter (fun e => degreeBinOf e.2 == n) := by
      rw [List.filter_filter]
      exact List.filter_congr fun e _ => by grind
    rw [binned_succ]
    refine (ih.append_right _).trans ?_
    rw [← hlow, ← htop]
    exact List.filter_append_perm _ _

/-- A row of a lower bin stands before one of a higher. -/
theorem binned_pairwise (n : Nat) (l : List (Nat × Nat)) : (binned n l).Pairwise (fun a b => degreeBinOf a.2 ≤ degreeBinOf b.2) := by
  have hmem {b : Nat} {e : Nat × Nat} (h : e ∈ l.filter (fun e => degreeBinOf e.2 == b)) : degreeBinOf e.2 = b := by
    simpa using (List.mem_filter.1 h).2
  rw [binned, List.pairwise_flatMap]
  refine ⟨fun b _ => List.pairwise_of_forall_mem_list fun e he f hf => ?_,
    List.pairwise_lt_range.imp fun {b c} hbc e he f hf => ?_⟩
  · rw [hmem he, hmem hf]
  · rw [hmem he, hmem hf]
    exact hbc.le

/-- The rows of a bin keep their order. -/
theorem filter_binned (n b : Nat) (l : List (Nat × Nat)) : (binned n l).filter (fun e => degreeBinOf e.2 == b) =
    if b < n then l.filter (fun e => degreeBinOf e.2 == b) else [] := by
  induction n with
  | zero => simp [binned]
  | succ n ih =>
    have hsame : (l.filter (fun e => degreeBinOf e.2 == n)).filter (fun e => degreeBinOf e.2 == b) =
        if b = n then l.filter (fun e => degreeBinOf e.2 == b) else [] := by
      rw [List.filter_filter]
      split
      · next h => exact List.filter_congr fun e _ => by simp [h]
      · next h => exact List.filter_eq_nil_iff.2 fun e _ => by grind
    rw [binned_succ, List.filter_append, ih, hsame]
    rcases lt_trichotomy b n with h | rfl | h
    · simp [h, h.ne, Nat.lt_succ_of_lt h]
    · simp
    · simp [h.ne', not_lt.2 h.le, not_lt.2 (Nat.succ_le_of_lt h)]

/-- Numbers written little-endian one after the other are read back. -/
theorem numsOf_flatMap_leBytes {l : List Nat} (h : ∀ v ∈ l, v < 256 ^ 8) : numsOf 8 l.length (l.flatMap (leBytes 8)) = l := by
  induction l with
  | nil => rfl
  | cons v l ih =>
    have hlen : (leBytes 8 v).length = 8 := length_leBytes ..
    rw [List.flatMap_cons, List.length_cons, numsOf, List.take_left' hlen, List.drop_left' hlen, leNat_leBytes,
      Nat.mod_eq_of_lt (h v (by simp)), ih fun w hw => h w (by simp [hw])]

/-- The rows of DEGREE_BIN (06 R222, R223). -/
theorem binRows_sorts {l : List (Nat × Nat)} (h : ∀ e ∈ l, e.1 < 2 ^ 64 ∧ e.2 < 2 ^ 32) : ∃ m : List (Nat × Nat), m.Perm l
    ∧ m.Pairwise (fun a b => degreeBinOf a.2 ≤ degreeBinOf b.2)
    ∧ (∀ b, m.filter (fun e => degreeBinOf e.2 == b) = l.filter (fun e => degreeBinOf e.2 == b))
    ∧ numsOf 8 l.length (binRows l).1 = m.map Prod.fst := by
  have hbin : ∀ e ∈ l, degreeBinOf e.2 < 33 := fun e he => degreeBinOf_lt (h e he).2
  have hperm : (binned 33 l).Perm l := by
    simpa only [List.filter_eq_self.2 fun e he => decide_eq_true (hbin e he)] using binned_perm 33 l
  refine ⟨binned 33 l, hperm, binned_pairwise 33 l, fun b => ?_, ?_⟩
  · rw [filter_binned]
    split
    · rfl
    · next hb => exact (List.filter_eq_nil_iff.2 fun e he => by have := hbin e he; grind).symm
  · have hids : (binRows l).1 = ((binned 33 l).map Prod.fst).flatMap (leBytes 8) := by
      rw [List.flatMap_map]
      rfl
    have hlen : l.length = ((binned 33 l).map Prod.fst).length := by rw [List.length_map, hperm.length_eq]
    rw [hids, hlen, numsOf_flatMap_leBytes]
    rintro v hv
    obtain ⟨e, he, rfl⟩ := List.mem_map.1 hv
    exact (h e (hperm.mem_iff.1 he)).1

/-! ### Commands on memory -/

/-- DEGREE_BIN of three ranges that are mapped. -/
theorem degreeBin_of_served {x : Started} {s : State} {p n : Nat} (hp : cPart x.cmd = p) (hn : cP x.cmd 1 = n) (h : Served s x 0x0205)
    (hpart : s.partState p ≠ ptFree) (ha : cP x.cmd 0 % 16 = 0) (ho : cP x.cmd 2 % 8 = 0) (hf : cP x.cmd 3 % 4 = 0) (h0 : n ≠ 0)
    (hlt : n < 2 ^ 32) (hrows : s.firstBad p false (cP x.cmd 0) (16 * n) = none) (hids : s.firstBad p true (cP x.cmd 2) (8 * n) = none)
    (hoffs : s.firstBad p true (cP x.cmd 3) 136 = none) : exec (.degreeBin x.cmd) s = .next (
      match s.hubRead 7 p (cP x.cmd 0) (16 * n) with
      | (none, s1) => s1.reply x stMemUe 0 0 0
      | (some b, s1) =>
        let w := numsOf 8 (2 * n) b
        let l := (List.range n).map (fun i => (w.getD (2 * i) 0, w.getD (2 * i + 1) 0))
        if l.any (fun e => e.2 / 2 ^ 32 != 0) then s1.reply x stReserved 0 0 0
        else match s1.hubWrite 7 p (cP x.cmd 2) (binRows l).1 with
          | (false, s2) => s2.reply x stMemUe 0 0 0
          | (true, s2) => match s2.hubWrite 7 p (cP x.cmd 3) (binRows l).2 with
            | (false, s3) => s3.reply x stMemUe 0 0 0
            | (true, s3) => s3.reply x stOk 0 n 0) := by
  rw [exec_degreeBin, execDegreeBin, hostRow_of_served h]
  dsimp only
  rw [hp, hn, if_neg hpart, if_neg (by omega), if_neg (by omega), hrows, hids, hoffs]
  dsimp only
  obtain ⟨_ | b, s1⟩ := s.hubRead 7 p (cP x.cmd 0) (16 * n)
  · rfl
  · dsimp only
    generalize (List.range n).map (fun i => ((numsOf 8 (2 * n) b).getD (2 * i) 0, (numsOf 8 (2 * n) b).getD (2 * i + 1) 0)) = l
    by_cases hl : (l.any fun e => e.2 / 2 ^ 32 != 0) = true
    · rw [if_pos hl, if_pos hl]
      rfl
    · rw [if_neg hl, if_neg hl]
      obtain ⟨_ | _, s2⟩ := s1.hubWrite 7 p (cP x.cmd 2) (binRows l).1
      · rfl
      · dsimp only
        obtain ⟨_ | _, s3⟩ := s2.hubWrite 7 p (cP x.cmd 3) (binRows l).2 <;> rfl

/-- The host's commands on page tables, the aperture and bins (01 R49, 06 R222, R223). -/
theorem memoryCommandsLaw_holds : memoryCommandsLaw := by
  refine ⟨fun x s => ?_, fun l => binRows_sorts⟩
  intro p hpart
  refine ⟨fun h hpage hlow hrest => ?_, fun h hpage hlow => ?_,
    fun h ha ho hf h0 hlt hrows hids hoffs => degreeBin_of_served rfl rfl h hpart ha ho hf h0 hlt hrows hids hoffs⟩
  · have hcheck : (if s.partState p = ptFree then some (HRes.badState s p)
        else if cP x.cmd 0 % 4096 ≠ 0 ∨ 2 ^ 40 ≤ cP x.cmd 0 then some (.no s stBadAddress) else none) = none := by
      rw [if_neg hpart, if_neg (by omega)]
    rw [exec_ptSet, execPtSet, boundaryRow_of_rest h hcheck hrest (by simp [State.waitsTable, h.2.2.1])]
    simp only [State.applyCmd, h.2.2.1]
    rfl
  · rw [exec_apertureSet, execApertureSet, hostRow_of_served h]
    rw [if_neg hpart, if_neg (by omega)]
    rfl

/-! ### Batches, the ledger and tables -/

theorem job_pin_serving (s : State) (p reader : Nat) : ((s.pin p reader).job p).serving = (s.job p).serving := by
  rw [State.pin, job_modJob]

/-- A batch begins where its request is there and the ledger has room (14 R493, R494). -/
theorem serveStart_of_room {s : State} {p : Nat} {c : HostCmd} (hreq : s.firstBad p false (cP c 0) (cP c 1) = none)
    (hroom : s.ledgerRoom p = true) : ∃ u, s.serveStart p c = .stay u ∧ (u.job p).serving = some c.packet := by
  rw [State.serveStart, hreq]
  dsimp only
  rw [if_pos hroom]
  exact ⟨_, rfl, by rw [job_pin_serving, job_modJob]⟩

/-- Batches, the ledger, tables and hot rows (10 R368, R375, 14 R492 to R494). -/
theorem serveAndTablesLaw_holds : serveAndTablesLaw := by
  intro x s p
  refine ⟨fun h hpart hserve => ?_, fun h hpart => ?_, fun h hpart hrest => ?_, fun h hpart hrest hwaits => ?_⟩
  · have hturn : ¬ (s.partState p ≠ ptStarted ∨ (!s.on (STEP_CFG_SERVE p)) = true) := by simp [hpart, hserve]
    refine ⟨fun hnone hrun hhot hreq hroom => ?_, fun hnone hrun hhot => ?_, fun hmine hended => ?_⟩
    · obtain ⟨u, hu, hserving⟩ := serveStart_of_room hreq hroom
      refine ⟨u, ?_, hserving⟩
      rw [exec_serveBatch, execServeBatch, hostRow_of_served h]
      dsimp only
      rw [if_neg hturn, hnone]
      dsimp only
      rw [if_neg hrun, hhot, hu]
      rfl
    · rw [exec_serveBatch, execServeBatch, hostRow_of_served h]
      dsimp only
      rw [if_neg hturn, hnone]
      dsimp only
      rw [if_neg hrun, if_pos (by simpa using hhot)]
      rfl
    · have hfault : ¬ ((s.job p).running.any fun c => s.taskState c == tkFaulted || s.taskState c == tkHalted) = true := by
        simp only [List.any_eq_true, not_exists, not_and]
        intro c hc
        rw [hended c hc]
        decide
      have hall : ((s.job p).running.all fun c => s.taskState c == tkEnded) = true := by simpa using hended
      rw [exec_serveBatch, execServeBatch, hostRow_of_served h]
      dsimp only
      rw [if_neg hturn, hmine]
      dsimp only
      rw [if_neg (by simp), if_neg hfault, if_pos hall]
      cases s.serveEnd p x.cmd <;> rfl
  · rw [exec_ledgerRead, execLedgerRead, hostRow_of_served h]
    dsimp only
    rw [if_neg hpart]
    rfl
  · have hcheck : (if s.partState p = ptFree then some (HRes.badState s p) else none) = none := if_neg hpart
    rw [exec_tableReplace, execTableReplace, boundaryRow_of_rest h hcheck hrest (by simp [State.waitsTable, h.2.2.1])]
    simp only [State.applyCmd, h.2.2.1]
    rfl
  · rw [exec_hotRefresh, execHotRefresh, boundaryRow_of_rest h (if_pos hpart) hrest hwaits]
    simp only [State.applyCmd, h.2.2.1, Bool.not_eq_true']
    rfl

end Sys2Proof.Machine
end

section
/-! Transfers between host memory and stack memory (17 R577, R579). -/

namespace Sys2Proof.Machine

/-! ### A whole burst written -/

theorem burstOf_seqKeys {k x : Nat} (hk : k % 64 = 0) (hx : x ∈ seqKeys k 64) : burstOf x = burstOf k := by
  obtain ⟨i, hi, rfl⟩ := List.mem_map.1 hx
  have := List.mem_range.1 hi
  unfold burstOf
  omega

/-- No codeword of a whole burst is read before it is written (08 R281). -/
theorem filter_burstsOf_seqKeys {k : Nat} (hk : k % 64 = 0) :
    (burstsOf (seqKeys k 64)).filter (fun b => keysIn (seqKeys k 64) b < 64) = [] := by
  refine List.filter_eq_nil_iff.2 fun b hb => ?_
  simp only [burstsOf, List.mem_eraseDups, List.mem_map, List.mem_filter] at hb
  obtain ⟨x, ⟨hx, -⟩, rfl⟩ := hb
  have hall : (seqKeys k 64).filter (fun y => burstOf y == burstOf x) = seqKeys k 64 :=
    List.filter_eq_self.2 fun y hy => by simp [burstOf_seqKeys hk hy, burstOf_seqKeys hk hx]
  simp [keysIn, hall, length_seqKeys]

/-- The hub's write of a whole burst changes its bytes alone. -/
theorem mem_putUnit {s : State} {k : Nat} {b : List Byte} (hk : k % 64 = 0) (hb : b.length = 64) :
    (s.putUnit k b).m.mem = s.m.mem.wrBytes k b := by
  have hfst : ((seqKeys k b.length).zip b).map Prod.fst = seqKeys k 64 := by
    rw [List.map_fst_zip (by rw [length_seqKeys]), hb]
  have hcells (u : State) : (u.wrCells ((seqKeys k b.length).zip b)).m.mem = u.m.mem.wrBytes k b := by
    rw [wrCells_seqKeys]
    rfl
  have hcode (l : List Nat) (u : State) : (l.foldl (fun s b => s.setSymbols b 0) u).m.mem = u.m.mem :=
    foldl_rel (fun a b => a.m.mem = b.m.mem) l (fun s b => s.setSymbols b 0) u (fun _ => rfl) (fun _ _ _ h k => h.trans k)
      (fun _ _ _ e => e ▸ rfl)
  rw [State.putUnit, State.writeKeys', State.writeNow]
  simp only [hfst, filter_burstsOf_seqKeys hk, State.mergeBursts]
  rw [show ∀ (u : State) ks, (u.ask 7 0 .unit true ks).m.mem = u.m.mem from fun u ks => by simp, hcells, hcode]

/-! ### A transfer of one unit -/

section
variable {x : Started} {s : State} {p va k : Nat}

/-- A unit that the host writes where stores are taken and nothing waits. -/
theorem units_one_of_write {f : Nat → Nat → State → Option State × State} {u v : State} (hmap : s.hubTranslate p va = some (k, true))
    (hopen : (s.walkSeen 7 p va 64).partState p ≠ ptFenced) (hf : f va k (s.walkSeen 7 p va 64) = (some u, v)) :
    State.units p true f 1 va s = (.done, u) := by
  rw [State.units, if_neg hopen, hmap]
  dsimp only
  rw [if_neg (by decide), hf]
  rfl

/-- Where a transfer has written one burst, the burst holds the bytes, and no other byte of the device has changed. -/
theorem rdB_reply_putUnit {t u : State} {b : List Byte} {st d r0 r1 : Nat} (ht : t.m.mem = s.m.mem) (hk : k % 64 = 0)
    (hhi : k + 64 ≤ 2 ^ 64) (hb : b.length = 64) (hu : u = (t.putUnit k b).reply x st d r0 r1) :
    (∀ off n, off + n ≤ 64 → u.rdB (k + off) n = ((s.m.mem.wrBytes k b).rdBytes (k + off) n))
    ∧ ∀ a, a < 2 ^ 64 → (a < k ∨ k + 64 ≤ a) → u.m.mem.rd a = s.m.mem.rd a := by
  have hrd (a : Nat) (ha : a < 2 ^ 64) : u.m.mem.rd a = (s.m.mem.wrBytes k b).rd a := by
    rw [hu, rd_reply _ _ _ _ _ _ ha, mem_putUnit hk hb, ht]
  exact ⟨fun off n hn => Mem.rdBytes_congr _ _ _ _ fun a _ ha => hrd a (by omega),
    fun a ha hout => by rw [hrd a ha, Mem.rd_wrBytes_out _ _ _ _ (by omega)]⟩

theorem mem_walkSeen (s : State) (who p va n : Nat) : (s.walkSeen who p va n).m.mem = s.m.mem := by simp

theorem transferred_eq_out (x : Started) (n : Nat) (r : MRes × State) : (unitReply n r).out x = .next (transferred x n r) := by
  obtain ⟨_ | va | _, u⟩ := r <;> rfl

theorem memWrite_of_served (h : Served s x 0x0200) (hpart : s.partState (cPart x.cmd) ≠ ptFree) (hva : cP x.cmd 0 % 64 = 0)
    (hlen : cLen x.cmd % 64 = 0) : exec (.memWrite x.cmd) s = .next (transferred x (cLen x.cmd)
      (State.units (cPart x.cmd) true (memWriteUnit x.cmd (cPart x.cmd)) (cLen x.cmd / 64) (cP x.cmd 0) s)) := by
  rw [exec_memWrite, execMemWrite, hostRow_of_served h]
  dsimp only
  rw [if_neg hpart, if_neg (not_not.2 hva), if_neg (not_not.2 hlen), transferred_eq_out]

theorem memRead_of_served (h : Served s x 0x0201) (hpart : s.partState (cPart x.cmd) ≠ ptFree) (hva : cP x.cmd 0 % 64 = 0)
    (hlen : cLen x.cmd % 64 = 0) : exec (.memRead x.cmd) s = .next (transferred x (cLen x.cmd)
      (State.units (cPart x.cmd) false (memReadUnit x.cmd) (cLen x.cmd / 64) (cP x.cmd 0) s)) := by
  rw [exec_memRead, execMemRead, hostRow_of_served h]
  dsimp only
  rw [if_neg hpart, if_neg (not_not.2 hva), if_neg (not_not.2 hlen), transferred_eq_out]

theorem memFill_of_served (h : Served s x 0x0202) (hpart : s.partState (cPart x.cmd) ≠ ptFree) (hva : cP x.cmd 0 % 64 = 0)
    (hlen : cP x.cmd 1 % 64 = 0) : exec (.memFill x.cmd) s = .next (transferred x (cP x.cmd 1)
      (State.units (cPart x.cmd) true (memFillUnit x.cmd (cPart x.cmd)) (cP x.cmd 1 / 64) (cP x.cmd 0) s)) := by
  rw [exec_memFill, execMemFill, hostRow_of_served h]
  dsimp only
  rw [if_neg hpart, if_neg (not_not.2 hva), if_neg (not_not.2 hlen), transferred_eq_out]

theorem hostUnit_of_open {t : State} {a : Nat} {b : List Byte} (h : t.tableWaits p a = false) :
    t.hostUnit p a k b = t.putUnit k b := if_neg (by simp [h])

end

theorem cP_lt (c : HostCmd) (i : Nat) : cP c i < 2 ^ 64 := bits_lt_two_pow ..

/-- The eight words of a filled unit. -/
def fillBytes (v : Nat) : List Byte := (List.replicate 8 (leBytes 8 v)).flatten

theorem fillBytes_eq (v : Nat) : fillBytes v = (List.replicate 8 v).flatMap (leBytes 8) := by
  rw [fillBytes, List.flatMap_def, List.map_replicate]

theorem length_fillBytes (v : Nat) : (fillBytes v).length = 64 := by
  simp [fillBytes, length_leBytes]

theorem rdLE_fillBytes (m : Mem) (k : Nat) {v i : Nat} (hv : v < 2 ^ 64) (hi : i < 8) :
    (m.wrBytes k (fillBytes v)).rdLE (k + 8 * i) 8 = v := by
  have hword : (List.replicate 8 v)[i]? = some v := List.getElem?_replicate_of_lt hi
  rw [fillBytes_eq, Nat.mul_comm 8 i, Mem.rdLE_wrBytes_flatMap m k 8 hword, Nat.mod_eq_of_lt (by omega)]

/-- Transfers between host memory and stack memory (17 R577, R579). -/
theorem transfersLaw_holds : transfersLaw := by
  intro x s p va hpart hva
  refine ⟨fun h hlen => memWrite_of_served h hpart hva hlen, fun h hlen => memRead_of_served h hpart hva hlen,
    fun h hlen => memFill_of_served h hpart hva hlen, fun k hmap hopen hwaits hk hhi => ⟨fun h hlen => ?_, fun h hlen => ?_⟩⟩
  · have hb : (s.rdB (keyHost (cData x.cmd)) 64).length = 64 := length_rdBytes ..
    have hunit : memWriteUnit x.cmd p va k (s.walkSeen 7 p va 64) =
        (some ((s.walkSeen 7 p va 64).putUnit k (s.rdB (keyHost (cData x.cmd)) 64)), s.walkSeen 7 p va 64) := by
      rw [memWriteUnit, hostUnit_of_open hwaits, Nat.sub_self, Nat.add_zero, State.rdB, mem_walkSeen, State.rdB]
    have hunits : State.units (cPart x.cmd) true (memWriteUnit x.cmd (cPart x.cmd)) 1 (cP x.cmd 0) s = (.done, _) :=
      units_one_of_write hmap hopen hunit
    obtain ⟨hbytes, hrest⟩ := rdB_reply_putUnit (x := x) (st := stOk) (d := 0) (r0 := 64) (r1 := 0) (mem_walkSeen s 7 p va 64) hk hhi hb rfl
    refine ⟨_, ?_, ?_, hrest⟩
    · rw [memWrite_of_served h hpart hva (by omega), hlen, hunits]
      rfl
    · have hwritten := Mem.rdBytes_wrBytes s.m.mem k (s.rdB (keyHost (cData x.cmd)) 64)
      rw [hb] at hwritten
      exact (hbytes 0 64 le_rfl).trans hwritten
  · have hunit : memFillUnit x.cmd p va k (s.walkSeen 7 p va 64) =
        (some ((s.walkSeen 7 p va 64).putUnit k (fillBytes (cP x.cmd 2))), s.walkSeen 7 p va 64) := by
      rw [memFillUnit, hostUnit_of_open hwaits, fillBytes]
    have hunits : State.units (cPart x.cmd) true (memFillUnit x.cmd (cPart x.cmd)) 1 (cP x.cmd 0) s = (.done, _) :=
      units_one_of_write hmap hopen hunit
    obtain ⟨hbytes, hrest⟩ := rdB_reply_putUnit (x := x) (st := stOk) (d := 0) (r0 := 64) (r1 := 0) (mem_walkSeen s 7 p va 64) hk hhi
      (length_fillBytes (cP x.cmd 2)) rfl
    refine ⟨_, ?_, fun i hi => ?_, hrest⟩
    · rw [memFill_of_served h hpart hva (by omega), hlen, hunits]
      rfl
    · exact (congrArg leNat (hbytes (8 * i) 8 (by omega))).trans (rdLE_fillBytes s.m.mem k (cP_lt x.cmd 2) hi)

end Sys2Proof.Machine
end

section
open Sys2Proof Sys2Proof.Machine

/-- Settles O49: the transfers, the memory commands, BAR2, and the commands on batches and tables. -/
theorem hostMemory : Obligations.HostMemory :=
  ⟨transfersLaw_holds, memoryCommandsLaw_holds, apertureLaw_holds, serveAndTablesLaw_holds⟩
end

section
/-! Host commands that save and restore (15 R500, R503, R512, R513, R516). -/

namespace Sys2Proof.Machine

theorem exec_ckptBuffers (c : HostCmd) (s : State) : exec (.ckptBuffers c) s = execCkptBuffers c s := rfl
theorem exec_ckptRestore (c : HostCmd) (s : State) : exec (.ckptRestore c) s = execCkptRestore c s := rfl
theorem exec_drain (c : HostCmd) (s : State) : exec (.drain c) s = execDrain c s := rfl
theorem exec_redistribute (c : HostCmd) (s : State) : exec (.redistribute c) s = execRedistribute c s := rfl

section
variable {x : Started} {s : State} {p : Nat}

/-- A trusted CKPT_RESTORE begins the restore with the parts that it opens (15 R516). -/
theorem ckptRestore_of_trusted (hp : cPart x.cmd = p) (h : Served s x 0x0601) (hpart : s.partState p = ptStarted)
    (hrest : s.atRest p = true) (hnone : (s.job p).restore = none) (hlen : cLen x.cmd % 16 = 0) (hclean : (s.job p).rejected = none)
    (htrust : bit (cP x.cmd 1) 0 = true) (hcfg : s.on (STEP_CKPT_CFG_TRUST_OK p) = true) :
    exec (.ckptRestore x.cmd) s = .next
      (match s.openAll p (cP x.cmd 0) ((s.job p).hosted s.me) (s.getBufs (s.bufsOf x.cmd)) with
        | some (l, h, body) =>
          let drained := (s.rdB (keyHost (cData x.cmd)) (cLen x.cmd)).drop (16 * (s.bufsOf x.cmd).length)
          ((s.loadAll p (cP x.cmd 0) l body (s.annexOf p drained (ptHead h))).beginRestore p ⟨cP x.cmd 0, true, false, none⟩).restoreOn p
        | none => ((s.setFld (STEP_RESTORE_STATE p) 5).setFld (STEP_RESTORE_RESULT p) 5).reply x stRestore 5 0 0) := by
  rw [exec_ckptRestore, execCkptRestore, hostRow_of_served h]
  dsimp only
  rw [hp, hnone, if_neg (by simp), if_neg (by simp [hpart, hrest]), if_neg (by omega), hclean, if_neg (by simp),
    if_neg (by simp [hcfg]), htrust]
  obtain _ | ⟨l, hd, body⟩ := s.openAll p (cP x.cmd 0) ((s.job p).hosted s.me) (s.getBufs (s.bufsOf x.cmd))
  · rfl
  · exact congrArg (HRes.out x) (if_pos rfl)

/-- REDISTRIBUTE from snapshots remaps the slots and hands the parts over (15 R512 to R514). -/
theorem redistribute_of_snapshots {l : List Nat} (hp : cPart x.cmd = p)
    (hl : numsOf 2 (cLen x.cmd / 2) (s.rdB (keyHost (cData x.cmd)) (cLen x.cmd)) = l) (h : Served s x 0x0603)
    (hpart : s.partState p = ptStarted) (hnone : (s.job p).restore = none) (hlen : cLen x.cmd % 2 = 0) (hstop : s.jstate p = jsStopped)
    (hcause : s.fld (STEP_STATUS_CAUSE p) = jcLost) (hsrc : bits (cP x.cmd 0) 0 1 = 0) (hgood : s.redistBad p 0 (cP x.cmd 1) l = none)
    (hroom : Config.noRoom ((s.job p).newMap l) = false) :
    exec (.redistribute x.cmd) s = .next (((l.foldl (fun s d => s.handOver p d)
      ((s.remap p ((s.job p).newMap l)).beginRestore p ⟨cP x.cmd 1, false, true, none⟩)).absorbAll p l).restoreOn p) := by
  have hno : s.redistNo p 0 (cP x.cmd 1) l = none := by
    rw [State.redistNo, if_neg (by simp [hstop, hcause]), hgood]
    dsimp only
    rw [if_neg (by simp), if_neg (by simp [hroom])]
  rw [exec_redistribute, execRedistribute, hostRow_of_served h]
  dsimp only
  rw [hp, hl, hsrc, hnone, if_neg (by simp), if_neg (by simp [hpart]), if_neg (by omega), hno]
  rfl

end

/-- Commands that save and restore (15 R500, R503, R512, R513, R516). -/
theorem checkpointLaw_holds : checkpointLaw := by
  intro x s p
  refine ⟨fun h hpart hlen huse hdue => ?_,
    fun h hpart hrest hnone hlen hclean htrust hcfg => ckptRestore_of_trusted rfl h hpart hrest hnone hlen hclean htrust hcfg,
    fun h => ⟨fun hdone => ?_, fun hdone => ?_⟩,
    fun h hpart hnone hlen hstop hcause hsrc hgood hroom =>
      redistribute_of_snapshots rfl rfl h hpart hnone hlen hstop hcause hsrc hgood hroom⟩
  · intro u
    rw [exec_ckptBuffers, execCkptBuffers, hostRow_of_served h]
    dsimp only
    rw [if_neg (not_not.2 hpart), if_neg (by omega), if_neg (by simp [huse]), if_pos hdue]
    rfl
  · rw [exec_drain, execDrain, hostRow_of_served h]
    exact congrArg (HRes.out x) (if_pos hdone)
  · rw [exec_drain, execDrain, hostRow_of_served h]
    exact congrArg (HRes.out x) (if_neg (by simp [hdone]))

end Sys2Proof.Machine
end

section
open Sys2Proof Sys2Proof.Machine

/-- Settles O50: the commands that save and restore, those on a job, on batches and tables, and on memory. -/
theorem jobCommands : Obligations.JobCommands :=
  ⟨checkpointLaw_holds, jobLaw_holds, serveAndTablesLaw_holds, memoryCommandsLaw_holds⟩
end

section
/-! Losses, the risk score, drains and snapshots (15 R496, R502 to R511): where the statement fails. -/

namespace Sys2Proof.Machine

/-- Partition 0 runs, its job has device 3, and the device holds an unfinished snapshot of it before one of device 5; the burst with the
partition's first page table cannot be corrected. -/
def snapAtBadRoot : State :=
  let s : State := { State.reset with pm := { PmSt.reset with dies := true } }
  let s := (((s.setFld FAB_POS_VALID 1).setFld (PART_STATUS_STATE 0) ptStarted).setFld (PART_CFG_SECTIONS 0) 1).setFld (PART_PT_ROOT_ROOT 0) 1
  let s := s.setJob 0 { JobSt.none with
    slots := [0, 3], snaps := [⟨3, 0, [(0, [1])], false, false⟩, ⟨5, 0, [(0, [2])], false, false⟩] }
  s.setSymbols (burstOf (keyStack 0 0x1000)) 3

/-- The devices that a command leaves lost to the job of partition 0. -/
def lostAfter : Out → List Nat
  | .next u => (u.job 0).lost
  | _ => []

/-- What is kept of the snapshots moves up in the reserve as the unfinished one goes; the walk for that write meets the bad burst, which
fences the partition, and a FENCED partition's job loses no device. -/
theorem lostAfter_unreachable : lostAfter (exec (.unreachable 3) snapAtBadRoot) = [] := by decide +kernel

theorem snapAtBadRoot_reaches : snapAtBadRoot.dieUp = true ∧ snapAtBadRoot.on FAB_POS_VALID = true ∧ 3 ≠ snapAtBadRoot.me
    ∧ snapAtBadRoot.routeOf 3 = none ∧ snapAtBadRoot.partState 0 = ptStarted ∧ (snapAtBadRoot.job 0).slots.contains 3 = true := by
  decide +kernel

/-- UNREACHABLE does not make the device lost to every job that has it: it first discards the device's unfinished snapshots, and that
can fence the partition. -/
theorem not_failuresLaw : ¬ failuresLaw := by
  rintro ⟨hunreachable, -⟩
  obtain ⟨hup, hpos, hother, hroute, hpart, hslots⟩ := snapAtBadRoot_reaches
  obtain ⟨u, hu, hlost⟩ := hunreachable 3 snapAtBadRoot hup hpos (by decide) hother hroute
  have hnone := lostAfter_unreachable
  rw [hu] at hnone
  have hmem := hlost 0 (by decide) hpart hslots
  rw [show (u.job 0).lost = [] from hnone] at hmem
  cases hmem

end Sys2Proof.Machine
end

section
open Sys2Proof Sys2Proof.Machine

/-- Refutes O46: a destination without a route is not lost to a job whose partition the discarding of its unfinished snapshot fences,
because the write of what is left meets an uncorrectable error (`snapAtBadRoot`). -/
theorem not_failures : ¬ Obligations.Failures := fun h => not_failuresLaw h.1
end

section
/-! The end of a step: APPLIED, COMMIT in the order of R477, ROLLBACK and ABORT (14 R473 to R482). -/

namespace Sys2Proof.Machine

/-! ### STEP_STATUS -/

section
variable (s : State) (p : Nat) {st cause : Nat}

theorem jstate_setJstate (h : st < 16) : (s.setJstate p st cause).jstate p = st := by
  rw [State.jstate, State.setJstate, State.fld_setFld_ne, State.fld_setFld]
  · exact Nat.mod_eq_of_lt h
  · simp only [STEP_STATUS_STATE, STEP_STATUS_CAUSE, Fld.at_key]
    omega

theorem fld_cause_setJstate (h : cause < 256) : (s.setJstate p st cause).fld (STEP_STATUS_CAUSE p) = cause := by
  rw [State.setJstate, State.fld_setFld]
  exact Nat.mod_eq_of_lt h

end

/-! ### A stop that has been requested stays requested up to the boundary (17 R577) -/

/-- A stop requested of the job of a partition is requested still. -/
structure StopStays (p : Nat) (s u : State) : Prop where
  stays : (s.job p).stopReq = true → (u.job p).stopReq = true

section
variable {p : Nat}

theorem StopStays.refl (s : State) : StopStays p s s := ⟨id⟩

theorem StopStays.trans {s u v : State} (h : StopStays p s u) (k : StopStays p u v) : StopStays p s v := ⟨fun hs => k.stays (h.stays hs)⟩

theorem stopStays_of_j {s u : State} (h : u.j = s.j) : StopStays p s u := ⟨fun hs => by rwa [job_of_j h]⟩

theorem stopStays_modJob (s : State) {f : JobSt → JobSt} (hf : (f (s.job p)).stopReq = (s.job p).stopReq) :
    StopStays p s (s.modJob p f) := ⟨fun hs => by rwa [job_modJob, hf]⟩

theorem stopStays_foldl {α : Type} (l : List α) (f : State → α → State) (h : ∀ s x, StopStays p s (f s x)) (s : State) :
    StopStays p s (l.foldl f s) :=
  foldl_rel (fun u v => StopStays p v u) l f s .refl (fun _ _ _ hab hbc => hbc.trans hab) (fun s x _ e => e ▸ h s x)

theorem stopStays_readLoads (s : State) : StopStays p s (s.readLoads p) := by
  unfold State.readLoads
  extract_lets u r
  have hread : u.j = s.j := foldl_rel (fun a b => a.j = b.j) _ _ s (fun _ => rfl) (fun _ _ _ h k => h.trans k) (fun _ _ _ e => e ▸ by simp)
  have hpick (l : List (List Byte)) (a : List (Nat × Nat) × State) :
      (l.foldl (fun a d =>
        let e := a.2.pickRows p d
        (a.1 ++ e.1.map (fun r => (tblId d, r)), e.2)) a).2.j = a.2.j := by
    induction l generalizing a with
    | nil => rfl
    | cons d l ih => exact (ih _).trans (by simp)
  exact (stopStays_of_j ((hpick _ _).trans hread)).trans (stopStays_modJob _ rfl)

theorem stopStays_dropPieces (s : State) (kind tid row : Nat) : StopStays p s (s.dropPieces p kind tid row) :=
  stopStays_modJob s rfl

theorem j_of_readKeys {s u : State} {who : Nat} {ks : List Nat} {d : Option (List Byte)} (h : s.readKeys who ks = (d, u)) :
    u.j = s.j := by
  have hj : (s.readKeys who ks).2.j = s.j := by simp
  rwa [h] at hj

theorem stopStays_putHot (s : State) (tid row : Nat) (vec : List Byte) : StopStays p s (s.putHot p tid row vec) :=
  stopStays_of_j (by simp)

theorem stopStays_refreshRow (s : State) (tid row : Nat) : StopStays p s (s.refreshRow p tid row) := by
  unfold State.refreshRow
  split
  · exact .refl s
  · dsimp only
    split
    · split
      · exact .refl s
      · split
        · exact .refl s
        · split <;> rename_i u hread
          · exact stopStays_of_j (j_of_readKeys hread)
          · have hu : StopStays p s u := stopStays_of_j (j_of_readKeys hread)
            exact (hu.trans (stopStays_putHot ..)).trans (stopStays_foldl _ _ (fun _ _ => stopStays_of_j (by simp)) _)
    · split
      · exact (stopStays_dropPieces ..).trans (stopStays_putHot ..)
      · exact stopStays_modJob s rfl

theorem stopStays_hotRefresh (s : State) (step tid : Nat) (rows : List Nat) : StopStays p s (s.hotRefresh p step tid rows) := by
  have hheld : StopStays p s (s.hotHeld p tid).2 := stopStays_of_j (by simp)
  have hset (u : State) : StopStays p u (u.setHot p step tid rows) := stopStays_modJob u rfl
  unfold State.hotRefresh
  exact ((((hheld.trans (hset _)).trans
    (stopStays_foldl _ _ (fun u _ => stopStays_foldl _ _ (fun _ _ => stopStays_of_j (by simp)) u) _)).trans
    (stopStays_foldl _ _ (fun _ _ => stopStays_of_j (by simp)) _))).trans (stopStays_foldl _ _ (fun u _ => stopStays_refreshRow u _ _) _)

theorem stopStays_replaceTable (s : State) (tid addr : Nat) : StopStays p s (s.replaceTable p tid addr).1 := by
  unfold State.replaceTable
  extract_lets cls u
  have htables : u.j = s.j := foldl_rel (fun a b => a.j = b.j) _ _ s (fun _ => rfl) (fun _ _ _ h k => h.trans k) (fun _ _ _ e => e ▸ by simp)
  split
  · exact .refl s
  · split
    · exact .refl s
    · split
      · exact .refl s
      · dsimp only
        exact (stopStays_of_j htables).trans (stopStays_modJob _ rfl)

theorem stopStays_endedBy (s : State) {r : State × Nat × Nat} (h : StopStays p s r.1) : StopStays p s (s.endedBy p r).1 := by
  unfold State.endedBy
  split <;> exact h

theorem stopStays_applyCmd (s : State) (c : HostCmd) : StopStays p s (s.applyCmd c p).1 := by
  unfold State.applyCmd
  split
  · exact stopStays_of_j (by simp)
  · exact ⟨fun _ => by rw [job_modJob]⟩
  · exact stopStays_endedBy s (stopStays_replaceTable ..)
  · refine stopStays_endedBy s ?_
    have hseen : StopStays p s (s.hubSeen 7 p (cP c 1) (8 * cP c 2)) := stopStays_of_j (by simp)
    dsimp only
    split
    · exact hseen
    · split
      · exact hseen
      · split
        · exact hseen
        · exact hseen.trans (stopStays_hotRefresh ..)
  · exact .refl s

theorem stopStays_reply (s : State) (x : Started) (st d r0 r1 : Nat) : StopStays p s (s.reply x st d r0 r1) :=
  stopStays_of_j (by simp)

theorem stopStays_clearLoads (s : State) (q : Nat) : StopStays p s (s.clearLoads q) := stopStays_of_j (by simp)

theorem stopStays_applyOne (s : State) (c : HostCmd) : StopStays p s (s.applyOne p c) := by
  unfold State.applyOne
  extract_lets r v h u
  have hr : StopStays p s r.1 := by
    unfold r
    split
    · exact .refl s
    · exact stopStays_applyCmd s c
  have hu : StopStays p s u := hr.trans (stopStays_of_j (s := r.1) (u := u) rfl)
  split
  · exact hu
  · exact hu.trans (stopStays_reply ..)

theorem stopStays_applyHeld (s : State) : StopStays p s (s.applyHeld p) := by
  unfold State.applyHeld
  refine stopStays_foldl _ _ (fun u c => ?_) s
  split
  · exact .refl u
  · exact stopStays_applyOne u c

/-- The actions of a boundary up to the question whether the job stops (14 R477). -/
def State.heldApplied (s : State) (p : Nat) : State :=
  (((s.modJob p (fun j => { j with installed := [] })).readLoads p).clearLoads p).applyHeld p

theorem stopStays_heldApplied (s : State) : StopStays p s (s.heldApplied p) :=
  (((stopStays_modJob s rfl).trans (stopStays_readLoads _)).trans (stopStays_clearLoads ..)).trans (stopStays_applyHeld _)

end

/-- What follows on a boundary: the writes held, the checkpoint, the pounds. -/
def State.settled (s : State) (p : Nat) : State :=
  ((((s.modJob p (fun j => { j with stopReq := false })).applyHeldFlds p).applyHeldMem p).tryCheckpoint p).settlePounds p

theorem boundary_eq (s : State) (p cause : Nat) : s.boundary p cause =
    let u := (s.heldApplied p).settled p
    let stop := if ((s.heldApplied p).job p).stopReq then jcHost else cause
    if u.partState p = ptFenced then u
    else if stop = jcHost then (u.signHead p).setJstate p jsStopped jcHost
    else if stop ≠ 0 then u.setJstate p jsStopped stop
    else u.proceed p := rfl

/-- A boundary at which the host has asked for a stop stops the job with cause HOST, unless its partition is fenced. -/
theorem boundary_of_stopReq {s : State} {p : Nat} (cause : Nat) (h : (s.job p).stopReq = true)
    (hopen : (s.boundary p cause).partState p ≠ ptFenced) :
    (s.boundary p cause).jstate p = jsStopped ∧ (s.boundary p cause).fld (STEP_STATUS_CAUSE p) = jcHost := by
  have hreq : ((s.heldApplied p).job p).stopReq = true := (stopStays_heldApplied s).stays h
  have hb := boundary_eq s p cause
  dsimp only at hb
  rw [hreq, if_pos rfl, if_pos rfl] at hb
  split at hb
  · next hf => exact absurd (hb ▸ hf) hopen
  · rw [hb]
    exact ⟨jstate_setJstate _ p (by decide), fld_cause_setJstate _ p (by decide)⟩

end Sys2Proof.Machine
end

section
/-! The commands of a step's end (14 R473 to R482). -/

namespace Sys2Proof.Machine

/-! ### COMMIT in the order of R477 -/

/-- A step that is committed ends with its boundary, after the record, the loss scale, and moves and images (14 R477). -/
theorem commitStep_eq (s : State) (p : Nat) (pay : List Byte) : s.commitStep p pay =
    let r := scaledStep (recorded s p pay) p pay
    (stepOver (installed r.1 p pay) p (s.stepNum p)).boundary p r.2 := by
  unfold State.commitStep recorded scaledStep installed stepOver
  dsimp only

theorem commitOrderLaw_holds : commitOrderLaw := by
  intro s p pay
  dsimp only
  rw [commitStep_eq s p pay]
  exact ⟨rfl, boundary_of_stopReq _⟩

/-! ### APPLIED_SEND -/

theorem job_setJstate (s : State) (p q st cause : Nat) : (s.setJstate p st cause).job q = s.job q := job_of_j (by simp) q

section
variable {p : Fin 8} {s : State}

theorem partState_of_stepping (h : s.stepping p = true) : s.partState p = ptStarted := by
  simp only [State.stepping, Bool.and_eq_true, beq_iff_eq] at h
  exact h.1

theorem appliedSend_of_ready (hclk : Clocked s) (hstep : s.stepping p = true) (hwhy : s.abortWhy p = 0) (hready : s.appliedReady p = true)
    (hdeltas : s.deltas p = []) (hmoves : s.movesSettled p = true) : Gives (exec (.appliedSend p) s) (fun u =>
      (u.job p).appliedSent = true ∧ (u.job p).phase = .committing ∧ u.jstate p = jsApplied) := by
  have hopen : s.partState p ≠ ptFenced := by
    rw [partState_of_stepping hstep]
    decide
  change Gives (execAppliedSend p s) _
  rw [execAppliedSend, unlessStopped_off hclk]
  dsimp only
  rw [if_neg hopen, if_neg (by simp [hwhy]), if_neg (by simp [hdeltas]), if_pos (by simp [hready, hmoves])]
  refine ⟨_, rfl, ?_, ?_, jstate_setJstate _ p (by decide)⟩
  · rw [job_setJstate, job_modJob]
  · rw [job_setJstate, job_modJob]

theorem appliedSend_of_why (hclk : Clocked s) (hstep : s.stepping p = true) (hwhy : s.abortWhy p ≠ 0)
    (hfirst : (s.job p).abortCause = 0) : exec (.appliedSend p) s = .next
      ((s.sendMsg p (s.job p).coord (msgHead (s.stepNum p) 0 false 0 4 false 0 ++ leBytes 8 (s.abortWhy p))).modJob p
        (fun j => { j with abortCause := s.abortWhy p })) := by
  have hopen : s.partState p ≠ ptFenced := by
    rw [partState_of_stepping hstep]
    decide
  refine (unlessStopped_off hclk).trans ?_
  dsimp only
  rw [if_neg hopen, if_pos (by simp [hstep, hwhy]), if_neg (by simp [hfirst])]

theorem appliedSend_of_fenced (hclk : Clocked s) (hpart : s.partState p = ptFenced) (hmine : (s.job p).slots.contains s.me = true)
    (honce : (s.job p).abortCause ≠ jcFenced) : exec (.appliedSend p) s = .next (s.tellFenced p) := by
  refine (unlessStopped_off hclk).trans ?_
  dsimp only
  rw [if_pos hpart, State.tellOnce, if_pos (by rw [hmine, bne_iff_ne.2 honce]; rfl)]

end

/-! ### The messages -/

section
variable {s s1 : State} {via : Via} {p src : Nat} {d : List Byte}

theorem applied_of_taken (h : MsgTaken s via .applied p src d s1) (hnow : s1.nowStep p d = true)
    (hhost : (s1.job p).groupHost (mSlot d) = s1.me) (hnone : (s1.job p).appAt 0 (mSlot d) = none) :
    Gives (exec (.applied via) s) (fun u => (u.job p).apps = (s1.job p).apps ++ [(0, mSlot d, d)]) := by
  change Gives (execApplied via s) _
  rw [execApplied, msgRow_of_taken h]
  refine ⟨_, rfl, ?_⟩
  dsimp only
  rw [if_neg (by simp [hnow, hhost, hnone])]
  split
  · rw [job_sendMsg, job_modJob]
  · rw [job_modJob]

theorem groupApplied_of_taken (h : MsgTaken s via .groupApplied p src d s1) (hnow : s1.nowStep p d = true) (hcoord : (s1.job p).coord = s1.me)
    (hfirst : mSlot d % 128 = 0) (hnone : (s1.job p).appAt 1 (mSlot d) = none) :
    Gives (exec (.groupApplied via) s) (fun u => (u.job p).apps = (s1.job p).apps ++ [(1, mSlot d, d)]) := by
  change Gives (execGroupApplied via s) _
  rw [execGroupApplied, msgRow_of_taken h]
  refine ⟨_, rfl, ?_⟩
  dsimp only
  rw [if_neg (by simp [hnow, hcoord, hfirst, hnone])]
  split
  · rw [job_toHosts, job_modJob]
  · rw [job_modJob]

theorem job_relayCommit (s : State) (p q : Nat) (d : List Byte) : (s.relayCommit p d).job q = s.job q := job_of_j (by simp) q

theorem commit_of_taken (h : MsgTaken s via .commit p src d s1) (hopen : s1.openStep p d = true) (hsent : (s1.job p).appliedSent = true)
    (hnone : (s1.job p).restore = none) : exec (.commit via) s = .next ((s1.relayCommit p d).commitStep p (d.drop 16)) := by
  change execCommit via s = _
  rw [execCommit, msgRow_of_taken h]
  dsimp only
  rw [if_neg (by simp [hopen, hsent]), job_relayCommit, hnone]

theorem rollback_of_taken (h : MsgTaken s via .rollback p src d s1) (hopen : s1.openStep p d = true) :
    Gives (exec (.rollback via) s) (fun u =>
      let cause := bits (wordAt d 0x10) 0 8
      u.jstate p = jsStopped ∧ u.fld (STEP_STATUS_CAUSE p) =
        (if (s1.job p).slots.any (s1.job p).lost.contains || cause == 0 then jcLost else cause)) := by
  have hcause : bits (wordAt d 0x10) 0 8 < 256 := bits_lt_two_pow ..
  change Gives (execRollback via s) _
  rw [execRollback, msgRow_of_taken h]
  refine ⟨_, rfl, ?_⟩
  dsimp only
  rw [if_neg (by simp [hopen]), job_relayCommit]
  refine ⟨jstate_setJstate _ p (by decide), fld_cause_setJstate _ p ?_⟩
  split
  · decide
  · exact hcause

theorem abort_of_taken (h : MsgTaken s via .abort p src d s1) (hnow : s1.nowStep p d = true) (hcoord : (s1.job p).coord = s1.me)
    (hcause : bits (wordAt d 0x10) 0 8 ≠ jcFenced) : exec (.abort via) s = .next
      (s1.toHosts p (msgHead (s1.stepNum p) 0 false 0 3 false 0 ++ leBytes 8 (bits (wordAt d 0x10) 0 8))) := by
  change execAbort via s = _
  rw [execAbort, msgRow_of_taken h]
  dsimp only
  rw [if_neg hcause, if_pos (by simp [hnow, hcoord])]

/-- A device that is lost already is not lost again. -/
theorem loseDevice_of_lost {dst : Nat} (h : (s.job p).lost.contains dst = true) : s.loseDevice p dst = s :=
  if_neg (by simp only [h]; simp)

theorem abort_of_fenced (h : MsgTaken s via .abort p src d s1) (hnow : s1.nowStep p d = true) (hcoord : (s1.job p).coord = s1.me)
    (hcause : bits (wordAt d 0x10) 0 8 = jcFenced) (hlost : (s1.job p).lost.contains src = true) (hsent : bit (wordAt d 0x10) 8 = false) :
    exec (.abort via) s = .next ((s1.job p).survivors.foldl (fun s dev => s.sendMsg p dev
      (msgHead (s1.stepNum p) 0 false 0 3 false 0 ++ leBytes 8 (bits (wordAt d 0x10) 0 8))) s1) := by
  change execAbort via s = _
  rw [execAbort, msgRow_of_taken h]
  dsimp only
  rw [if_pos hcause, loseDevice_of_lost hlost, if_pos (by simp [hnow, hcoord, hsent])]

end

/-- The end of a step (14 R473 to R482). -/
theorem stepEndLaw_holds : stepEndLaw :=
  ⟨commitOrderLaw_holds,
    fun _ _ hclk => ⟨appliedSend_of_ready hclk, appliedSend_of_why hclk, appliedSend_of_fenced hclk⟩,
    fun _ _ _ _ _ _ => ⟨applied_of_taken, groupApplied_of_taken, commit_of_taken, fun h _ => rollback_of_taken h,
      fun h hnow hcoord => ⟨abort_of_taken h hnow hcoord, abort_of_fenced h hnow hcoord⟩⟩⟩

end Sys2Proof.Machine
end

section
open Sys2Proof Sys2Proof.Machine

/-- Settles O44: the end of a step, its phases and its vote, and the commands on a job. -/
theorem stepEnd : Obligations.StepEnd := ⟨stepEndLaw_holds, phasesVotes, jobLaw_holds⟩

/-- Settles O45: HOLD and resolution, and the end of a step. -/
theorem holdAndResolve : Obligations.HoldAndResolve := ⟨holdResolve, stepEndLaw_holds⟩
end

section
/-! The life of a partition (16 R519 to R525). -/

namespace Sys2Proof.Machine

theorem exec_partCreate (c : HostCmd) (s : State) : exec (.partCreate c) s = execPartCreate c s := rfl
theorem exec_partFence (c : HostCmd) (s : State) : exec (.partFence c) s = execPartFence c s := rfl
theorem exec_partTeardown (c : HostCmd) (s : State) : exec (.partTeardown c) s = execPartTeardown c s := rfl
theorem exec_partQuery (c : HostCmd) (s : State) : exec (.partQuery c) s = execPartQuery c s := rfl
theorem exec_debugFence (a : DebugAct) (s : State) : exec (.debugFence a) s = execDebugFence a s := rfl

/-! ### PART_CREATE -/

/-- A register other than the counts of debug records. -/
def OffDbg (r : Nat) : Prop := r % 0x100000 ≠ 0x28

theorem fldsKept_chainRecord (s : State) (p : Nat) (r : List Byte) : FldsKept OffDbg s (s.chainRecord p r) := by
  have hcount (u : State) (v : Nat) : FldsKept OffDbg u (u.setFld (PART_DBG_COUNT p) v) :=
    fldsKept_setFld u v (by simp only [OffDbg, PART_DBG_COUNT, Fld.at_reg]; omega)
  unfold State.chainRecord
  exact FldsKept.trans (fldsKept_of_regs rfl) (hcount _ _)

/-- A partition with its sections and OPVIS, before it is BUILDING. -/
def State.laidOut (s : State) (p mask : Nat) (opvis : Bool) : State :=
  let (key, s) := s.free 512
  let (kem, s) := s.free 512
  let s := s.resetBlock p
  let s := { s with sec := { s.sec with
    memKeys := Tab.put s.sec.memKeys [] (2 * p) (leBytes 64 key)
    kem := Tab.put s.sec.kem ([], []) p (kemPair kem)
    dbgHead := s.sec.dbgHead.del p } }
  let s := ((s.zeroStacks mask).clearSections mask).dropHeldWords p mask
  (s.setFld (PART_CFG_SECTIONS p) mask).setFld (PART_CFG_OPVIS p) (b2n opvis)

/-- The records of the tokens in the chain of a new partition. -/
def State.chained (s : State) (p : Nat) : State :=
  s.sec.tokens.foldl (fun s t => s.chainRecord p (debugRecord s.timeUs t.1 t.2.1 2 t.2.2)) s

theorem create_eq (s : State) (p mask : Nat) (opvis : Bool) :
    s.create p mask opvis = ((s.laidOut p mask opvis).chained p).setFld (PART_STATUS_STATE p) ptBuilding := rfl

theorem fldsKept_chained (s : State) (p : Nat) : FldsKept OffDbg s (s.chained p) :=
  fldsKept_foldl (fun s _ => fldsKept_chainRecord s p _) _ s

section
variable (s : State) (p mask : Nat) (opvis : Bool)

theorem laidOut_eq : ∃ t : State, s.laidOut p mask opvis = (t.setFld (PART_CFG_SECTIONS p) mask).setFld (PART_CFG_OPVIS p) (b2n opvis) :=
  ⟨_, rfl⟩

theorem fld_create {g : Fld} (hne : (PART_STATUS_STATE p).key ≠ g.key) (hg : OffDbg g.reg) :
    (s.create p mask opvis).fld g = (s.laidOut p mask opvis).fld g := by
  rw [create_eq, State.fld_setFld_ne _ _ hne, fldsKept_chained _ p g hg]

theorem partState_create : (s.create p mask opvis).partState p = ptBuilding := by
  rw [create_eq, State.partState, State.fld_setFld]
  rfl

theorem sections_create : (s.create p mask opvis).sections p = mask % 2 ^ 8 := by
  obtain ⟨t, ht⟩ := laidOut_eq s p mask opvis
  rw [State.sections, fld_create _ _ _ _ _ _, ht, State.fld_setFld_ne, State.fld_setFld]
  · rfl
  · simp only [PART_CFG_SECTIONS, PART_CFG_OPVIS, Fld.at_key]
    omega
  · simp only [PART_CFG_SECTIONS, PART_STATUS_STATE, Fld.at_key]
    omega
  · simp only [OffDbg, PART_CFG_SECTIONS, Fld.at_reg]
    omega

theorem on_opvis_create : (s.create p mask opvis).on (PART_CFG_OPVIS p) = opvis := by
  obtain ⟨t, ht⟩ := laidOut_eq s p mask opvis
  rw [on_eq, fld_create _ _ _ _ _ _, ht, State.fld_setFld]
  · cases opvis <;> rfl
  · simp only [PART_CFG_OPVIS, PART_STATUS_STATE, Fld.at_key]
    omega
  · simp only [OffDbg, PART_CFG_OPVIS, Fld.at_reg]
    omega

end

section
variable {x : Started} {s : State} {p mask : Nat}

theorem partCreate_of_free {opvis : Bool} (hp : cPart x.cmd = p) (hmask : bits (cP x.cmd 0) 0 8 = mask) (hopvis : bit (cP x.cmd 0) 8 = opvis)
    (h : Served s x 0x0100) (hfree : s.partState p = ptFree) (hsome : mask ≠ 0) (hunowned : ∀ i ∈ secsOf mask, s.secPart i = none)
    (hset : opvis = true → bit s.settingsWord 4 = true) (hident : s.on SEC_BOOT_IDENT_EXHAUSTED = false) :
    exec (.partCreate x.cmd) s = .next ((s.create p mask opvis).reply x stOk 0 0 0) := by
  have hnone : ((secsOf mask).any fun i => (s.secPart i).isSome) = false := by
    simp only [List.any_eq_false]
    intro i hi
    simp [hunowned i hi]
  rw [exec_partCreate, execPartCreate, hostRow_of_served h]
  dsimp only
  rw [hp, hmask, hopvis, if_neg (by simp [hfree, hsome, hnone]), if_neg (by rintro ⟨ho, hb⟩; simp [hset ho] at hb),
    if_neg (by simp [hident])]
  rfl

/-! ### PART_FENCE, PART_TEARDOWN, PART_QUERY -/

theorem partFence_of_owned (hp : cPart x.cmd = p) (h : Served s x 0x0101) (hpart : s.partState p ≠ ptFree) : exec (.partFence x.cmd) s =
    .next ((((s.fencePart p (if x.cmd.fn.val = 0 then 2 else 4)).dropHeld p).signHead p).reply x stOk 0 0 0) := by
  rw [exec_partFence, execPartFence, hostRow_of_served h, hp, if_neg hpart]
  rfl

theorem fenced_by {c : Nat} (hc : c = 2 ∨ c = 4) (h : s.partState p = ptBuilding ∨ s.partState p = ptStarted) :
    (s.fencePart p c).partState p = ptFenced ∧ (s.fencePart p c).fld (PART_STATUS_CAUSE p) = c := by
  refine ⟨partState_fencePart_same s p c h, (fld_cause_fencePart s p c h).trans ?_⟩
  rcases hc with rfl | rfl <;> rfl

theorem partTeardown_of_owned (hp : cPart x.cmd = p) (h : Served s x 0x0102) (hpart : s.partState p ≠ ptFree) :
    exec (.partTeardown x.cmd) s = .next ((s.teardown p).reply x stOk 0 0 0) := by
  rw [exec_partTeardown, execPartTeardown, hostRow_of_served h, hp]
  exact congrArg (HRes.out x) (if_neg hpart)

/-- What a torn-down partition's registers say. -/
theorem fldsKept_showSnap (s : State) : FldsKept (fun r => r ≠ 0x38) s s.showSnap := by
  have hset (u : State) {f : Fld} (v : Nat) (hf : f.reg = 0x38) : FldsKept (fun r => r ≠ 0x38) u (u.setFld f v) :=
    fldsKept_setFld u v (by simp [hf])
  unfold State.showSnap
  split
  · exact (hset _ _ rfl).trans (hset _ _ rfl)
  · exact ((hset _ _ rfl).trans (hset _ _ rfl)).trans (hset _ _ rfl)

end

/-- A partition's state before its registers say that it is FREE: its keys and its frames are gone. -/
theorem teardown_eq (s : State) (p : Nat) : ∃ t : State, s.teardown p =
      (((t.setFld (PART_CFG_SECTIONS p) 0).setFld (PART_STATUS_STATE p) ptFree).setFld (PART_STATUS_CAUSE p) 0).showSnap
    ∧ Tab.get t.sec.fabKey [] p = [] ∧ Tab.get t.sec.memKeys [] (2 * p) = [] ∧ Tab.get t.sec.memKeys [] (2 * p + 1) = [] := by
  unfold State.teardown
  extract_lets a b mask _ unkeyed c _ d _ _ t
  have hsec : t.sec = unkeyed.sec := rfl
  refine ⟨t, rfl, ?_, ?_, ?_⟩
  · rw [hsec, Tab.get_del, if_pos rfl]
  · rw [hsec, Tab.get_del, if_neg (by omega), Tab.get_del, if_pos rfl]
  · rw [hsec, Tab.get_del, if_pos rfl]

theorem torn_down (s : State) (p : Nat) : (s.teardown p).partState p = ptFree ∧ (s.teardown p).sections p = 0
    ∧ Tab.get (s.teardown p).sec.fabKey [] p = [] ∧ Tab.get (s.teardown p).sec.memKeys [] (2 * p) = []
    ∧ Tab.get (s.teardown p).sec.memKeys [] (2 * p + 1) = [] := by
  obtain ⟨t, ht, hfab, heven, hodd⟩ := teardown_eq s p
  have hsec : (s.teardown p).sec = t.sec := by rw [ht]; simp
  rw [hsec]
  refine ⟨?_, ?_, hfab, heven, hodd⟩
  · rw [ht, State.partState, fldsKept_showSnap _ (PART_STATUS_STATE p) (by simp only [PART_STATUS_STATE, Fld.at_reg]; omega),
      State.fld_setFld_ne, State.fld_setFld]
    · rfl
    · simp only [PART_STATUS_STATE, PART_STATUS_CAUSE, Fld.at_key]
      omega
  · rw [ht, State.sections, fldsKept_showSnap _ (PART_CFG_SECTIONS p) (by simp only [PART_CFG_SECTIONS, Fld.at_reg]; omega),
      State.fld_setFld_ne, State.fld_setFld_ne, State.fld_setFld]
    · rfl
    · simp only [PART_STATUS_STATE, PART_CFG_SECTIONS, Fld.at_key]
      omega
    · simp only [PART_STATUS_CAUSE, PART_CFG_SECTIONS, Fld.at_key]
      omega

/-! ### PART_START -/

section
variable {s : State} {p : Fin 8} {q : Requester}

theorem start_leaves (s : State) (p : Nat) : (s.start p).partState p = ptStarted
    ∧ (s.start p).fld (NUM_LS_STATE_E p) = s.fld (NUM_LS_CTRL_INIT_E p) % 256 ∧ (s.start p).fld (NUM_LS_STATE_COUNT p) = 0 := by
  unfold State.start
  refine ⟨?_, ?_, ?_⟩
  · rw [State.partState, State.fld_setFld_ne, State.fld_setFld_ne, State.fld_setFld_ne, State.fld_setFld]
    · rfl
    all_goals simp only [PART_STATUS_STATE, NUM_LS_STATE_E, NUM_LS_STATE_COUNT, NUM_LS_STATE_FLOOR_RUN, Fld.at_key]; omega
  · rw [State.fld_setFld_ne, State.fld_setFld_ne, State.fld_setFld]
    · rfl
    all_goals simp only [NUM_LS_STATE_E, NUM_LS_STATE_COUNT, NUM_LS_STATE_FLOOR_RUN, Fld.at_key]; omega
  · rw [State.fld_setFld_ne, State.fld_setFld]
    · rfl
    · simp only [NUM_LS_STATE_COUNT, NUM_LS_STATE_FLOOR_RUN, Fld.at_key]
      omega

theorem exec_partStart_up (hup : s.hubUp = true) (hstand : s.standing = false) : exec (.partStart q p) s =
    if reaches q p && !s.fnShut q && s.startOk p then .next (s.asked.start p) else .next s.asked := by
  have hstand' : ¬ s.asked.standing = true := by simpa using (show s.asked.standing = false from hstand)
  have hup' : s.asked.hubUp = true := hup
  refine (if_neg hstand').trans ?_
  rw [hup', Bool.true_and]
  rfl

theorem partStart_of_ok (hup : s.hubUp = true) (hstand : s.standing = false) (hreach : reaches q p = true) (hshut : s.fnShut q = false)
    (hok : s.startOk p = true) : Gives (exec (.partStart q p) s) (fun u =>
      u.partState p = ptStarted ∧ u.fld (NUM_LS_STATE_E p) = s.fld (NUM_LS_CTRL_INIT_E p) % 256
      ∧ u.fld (NUM_LS_STATE_COUNT p) = 0 ∧ u.m = s.m) := by
  obtain ⟨hstate, he, hcount⟩ := start_leaves s.asked p
  exact ⟨_, (exec_partStart_up hup hstand).trans (if_pos (by simp [hreach, hshut, hok])), hstate, he, hcount, rfl⟩

theorem partStart_of_not (hup : s.hubUp = true) (hstand : s.standing = false)
    (h : reaches q p = false ∨ s.fnShut q = true ∨ s.startOk p = false) : exec (.partStart q p) s = .next s.asked := by
  refine (exec_partStart_up hup hstand).trans (if_neg ?_)
  rcases h with h | h | h <;> simp [h]

end

end Sys2Proof.Machine
end

section
/-! Debug under a token (16 R553), and the life of a partition as a whole. -/

namespace Sys2Proof.Machine

/-! ### What a resumed task's waits leave of the task states -/

/-- The registers of task states. -/
def TaskReg (r : Nat) : Prop := r % 0x4000 = 0

theorem taskReg_taskState (c : Nat) : TaskReg (CL_TASK_STATE_STATE (clusterOf c) (subOf c)).reg :=
  (taskState_reg _ _ (Nat.mod_lt _ (by decide))).2

theorem not_taskReg_count (c : Nat) {ch : Nat} (hch : ch < 64) : ¬ TaskReg (CL_TOK_CNT_COUNT (clusterOf c) (subOf c) ch).reg := by
  simp only [TaskReg, CL_TOK_CNT_COUNT, Fld.at_reg]
  omega

theorem taskKept_sendTok (s : State) (tok : Word) : FldsKept TaskReg s (s.sendTok tok) := fun g hg => by
  have hreg : g.reg ≠ 0x3000008 := by
    unfold TaskReg at hg
    omega
  exact State.fld_sendTok (key_ne_of_reg hreg) (key_ne_of_reg hreg)

theorem taskKept_serveCounter (c : Nat) {ch : Nat} (hch : ch < 64) (l : List (Nat × Nat × Nat)) (s : State) :
    FldsKept TaskReg s (s.serveCounter c ch l) := by
  induction l generalizing s with
  | nil => exact fldsKept_refl s
  | cons e l ih =>
    obtain ⟨k, need, dst⟩ := e
    have hcount (u : State) (v : Nat) : FldsKept TaskReg u (u.setCounter c ch v) := fldsKept_setFld u v (not_taskReg_count c hch)
    unfold State.serveCounter
    dsimp only
    split
    · exact ((hcount s (s.counter c ch - need)).regs (by simp)).trans (ih _)
    · exact fldsKept_refl s

theorem taskKept_wakeStores (s : State) (c t : Nat) : FldsKept TaskReg s (s.wakeStores c t) := by
  have hlast : FldsKept TaskReg s (s.sendLastSigs c t) := fun g hg => by
    have hsend (l : List (Nat × Word)) (u : State) : FldsKept TaskReg u (l.foldl (fun s e => s.sendTok e.2) u) :=
      fldsKept_foldl (f := fun s (e : Nat × Word) => s.sendTok e.2) (fun u e => taskKept_sendTok u e.2) l u
    rw [State.sendLastSigs]
    refine (hsend _ _ g hg).trans ?_
    rfl
  have hresume (u : State) : FldsKept TaskReg u (u.resume c t) := fldsKept_of_regs rfl
  rw [State.wakeStores]
  by_cases hout : s.storesOut c t = true
  · rw [if_pos hout]
    exact fldsKept_refl s
  · rw [if_neg hout]
    generalize s.sendLastSigs c t = u at hlast
    dsimp only
    cases u.stat c t with
    | waiting w =>
      cases w with
      | release tok => exact (hlast.trans (taskKept_sendTok u tok)).trans (hresume (u.sendTok tok))
      | fence => exact hlast.trans (hresume u)
      | _ => exact hlast
    | _ => exact hlast

theorem taskKept_serveWaits (s : State) (c : Nat) : FldsKept TaskReg s (s.serveWaits c) := by
  have hcounters (u : State) : FldsKept TaskReg u ((List.range 64).foldl (fun s ch =>
      (s.serveCounter c ch (s.counterQueue c ch)).serveBarrier c ch) u) :=
    fldsKept_foldl_mem (fun u ch hch => (taskKept_serveCounter c (List.mem_range.1 hch) (u.counterQueue c ch) u).regs (by simp)) u
  have hstores (u : State) : FldsKept TaskReg u ((List.range 16).foldl (fun s t => s.wakeStores c t) u) :=
    fldsKept_foldl (fun u t => taskKept_wakeStores u c t) _ u
  have htakes (u : State) : FldsKept TaskReg u ((List.range 2).foldl (fun s k => s.serveTake (20 * clusterOf c + k)) u) :=
    fldsKept_foldl (fun u k => fldsKept_of_regs (by simp)) _ u
  unfold State.serveWaits
  exact ((hcounters s).trans (hstores _)).trans (htakes _)

/-! ### HALT and RESUME -/

section
variable {s : State} {c : Nat}

/-- A task halted under debug: HALTED, its threads kept as they stood. -/
theorem debugHalt_of_runs (hrun : s.taskRuns c = true) : s.debugHalt c =
    let u := s.haltCore c
    { u with core := { u.core with debugStop := Tab.put u.core.debugStop [] c ((List.range 16).map (fun t => (t, s.stat c t))) } } :=
  if_pos hrun

theorem taskState_haltCore (hrun : s.taskRuns c = true) (hfree : s.engineFaults c = []) : (s.haltCore c).taskState c = tkHalted := by
  rw [State.haltCore_halt hrun hfree, State.haltLeft]
  exact State.taskState_setTaskState ..

theorem pm_haltCore (hrun : s.taskRuns c = true) (hfree : s.engineFaults c = []) : (s.haltCore c).pm = s.pm := by
  rw [State.haltCore_halt hrun hfree, State.haltLeft]
  simp [State.setTaskState]

/-- What decides whether a debugger may act on a core. -/
theorem corePart_of_fldsKept {u : State} (h : FldsKept OffCore s u) : u.corePart c = s.corePart c := by
  have hp (p : Nat) : u.partState p = s.partState p ∧ u.sections p = s.sections p :=
    ⟨h _ (by simp only [OffCore, PART_STATUS_STATE, Fld.at_reg]; omega), h _ (by simp only [OffCore, PART_CFG_SECTIONS, Fld.at_reg]; omega)⟩
  simp only [State.corePart, State.secPart, hp]

theorem dieUp_of_fldsKept {u : State} (h : FldsKept OffCore s u) (hpm : u.pm = s.pm) : u.dieUp = s.dieUp := by
  have hstate : u.fld PM_CTRL_STATE = s.fld PM_CTRL_STATE := h _ (by unfold OffCore; decide)
  have hfail : u.fld ERR_FAILSAFE_ACTIVE = s.fld ERR_FAILSAFE_ACTIVE := h _ (by unfold OffCore; decide)
  rw [State.dieUp, State.dieUp, hubUp_congr hpm hfail hstate, hpm, hstate]

/-- A task that debug has halted runs again. -/
theorem taskState_debugResume (hup : s.dieUp = true) (hhalt : s.taskState c = tkHalted) (hstop : Tab.get s.core.debugStop [] c ≠ []) :
    (s.debugResume c).taskState c = tkRunning := by
  have hgo : (s.dieUp && s.taskState c == tkHalted && !(Tab.get s.core.debugStop [] c).isEmpty) = true := by
    simp [hup, hhalt, hstop]
  unfold State.debugResume
  extract_lets ts u waits _ v
  rw [if_pos hgo]
  have hu : u.taskState c = tkRunning := State.taskState_setTaskState ..
  exact (taskKept_serveWaits v c _ (taskReg_taskState c)).trans hu

end

section
variable {s : State} {c : Fin 800}

theorem exec_halt (hup : s.hubUp = true) : exec (.debugFence (.halt c)) s =
    .next (if (s.corePart c).any (s.debugs 3) then s.debugHalt c else s) := if_neg (by simp [hup])

theorem exec_resume (hup : s.hubUp = true) : exec (.debugFence (.resume c)) s =
    .next (if (s.corePart c).any (s.debugs 3) then s.debugResume c else s) := if_neg (by simp [hup])

theorem hubUp_of_dieUp (h : s.dieUp = true) : s.hubUp = true := by
  simp only [State.dieUp, Bool.and_eq_true] at h
  exact h.1.1

/-- A task halted under a token, and resumed. -/
theorem halt_of_token {p : Nat} (hpart : s.corePart c = some p) (hmay : s.debugs 3 p = true) (hup : s.dieUp = true)
    (hrun : s.taskRuns c = true) (hfree : s.engineFaults c = []) :
    Gives (exec (.debugFence (.halt c)) s) (fun u => u.taskState c = tkHalted ∧ u.m.mem = s.m.mem
      ∧ Gives (exec (.debugFence (.resume c)) u) (fun v => v.taskState c = tkRunning)) := by
  have hkept : FldsKept OffCore s (s.debugHalt c) := by
    rw [debugHalt_of_runs hrun]
    exact (fldsKept_haltCore s c).regs rfl
  have hpm : (s.debugHalt c).pm = s.pm := by
    rw [debugHalt_of_runs hrun]
    exact pm_haltCore hrun hfree
  have hdie : (s.debugHalt c).dieUp = true := (dieUp_of_fldsKept hkept hpm).trans hup
  have htok : (s.debugHalt c).debugs 3 p = true := by
    rw [debugHalt_of_runs hrun]
    simpa [State.debugs] using hmay
  have hhalt : (s.debugHalt c).taskState c = tkHalted := by
    rw [debugHalt_of_runs hrun]
    exact taskState_haltCore hrun hfree
  have hstop : Tab.get (s.debugHalt c).core.debugStop [] c ≠ [] := by
    rw [debugHalt_of_runs hrun, Tab.get_put_same]
    simp
  have hmem : (s.debugHalt c).m.mem = s.m.mem := by
    rw [debugHalt_of_runs hrun]
    simp
  refine ⟨s.debugHalt c, (exec_halt (hubUp_of_dieUp hup)).trans (by rw [hpart, Option.any_some, if_pos hmay]), hhalt, hmem,
    (s.debugHalt c).debugResume c, ?_, taskState_debugResume hdie hhalt hstop⟩
  rw [exec_resume (hubUp_of_dieUp hdie), corePart_of_fldsKept hkept, hpart, Option.any_some, if_pos htok]

/-- Without a token nothing is halted or resumed. -/
theorem debug_of_no_token (hup : s.hubUp = true) (h : ∀ p, s.corePart c = some p → s.debugs 3 p = false) :
    exec (.debugFence (.halt c)) s = .next s ∧ exec (.debugFence (.resume c)) s = .next s := by
  have hnot : ¬ (s.corePart c).any (s.debugs 3) = true := by
    cases hc : s.corePart c with
    | none => simp
    | some p => simp [h p hc]
  exact ⟨(exec_halt hup).trans (by rw [if_neg hnot]), (exec_resume hup).trans (by rw [if_neg hnot])⟩

end

theorem debugLaw_of_up {s : State} (hup : s.hubUp = true) : debugLaw s := by
  have hup' : ¬ (!s.hubUp) = true := by simp [hup]
  exact fun c => ⟨debug_of_no_token hup, fun _ => halt_of_token, fun _ _ => if_neg hup', fun _ => if_neg hup', fun _ _ => if_neg hup'⟩

/-- The life of a partition (16 R519 to R525). -/
theorem partitionsLaw_holds : partitionsLaw := by
  refine ⟨fun x s => ?_, fun p s hup => ⟨fun q hstand => ⟨partStart_of_ok hup hstand, partStart_of_not hup hstand⟩,
    debugLaw_of_up hup, fun hmay => ?_⟩⟩
  · intro p
    refine ⟨fun h hfree hsome hunowned hset hident => ⟨partCreate_of_free rfl rfl rfl h hfree hsome hunowned hset hident,
      partState_create .., (sections_create ..).trans (Nat.mod_eq_of_lt (bits_lt_two_pow ..)), on_opvis_create ..⟩,
      fun h hpart => ⟨partFence_of_owned rfl h hpart, fenced_by (by split <;> simp)⟩,
      fun h hpart => ⟨partTeardown_of_owned rfl h hpart, torn_down s p⟩, fun h => ?_⟩
    rw [exec_partQuery, execPartQuery, hostRow_of_served h]
    rfl
  · exact (if_neg (by simp [hup])).trans (congrArg Host.Outcome.next (if_pos hmay))

end Sys2Proof.Machine
end

section
/-! Keys of a partition (16 R528, R547 to R551). -/

namespace Sys2Proof.Machine

theorem exec_keyRotate (c : HostCmd) (s : State) : exec (.keyRotate c) s = execKeyRotate c s := rfl
theorem exec_kemRead (c : HostCmd) (s : State) : exec (.kemRead c) s = execKemRead c s := rfl
theorem exec_kemRefresh (c : HostCmd) (s : State) : exec (.kemRefresh c) s = execKemRefresh c s := rfl
theorem exec_keyOpen (c : HostCmd) (s : State) : exec (.keyOpen c) s = execKeyOpen c s := rfl
theorem exec_keyInstall (c : HostCmd) (s : State) : exec (.keyInstall c) s = execKeyInstall c s := rfl
theorem exec_ideKmPf0 (c : HostCmd) (s : State) : exec (.ideKmPf0 c) s = execIdeKmPf0 c s := rfl

/-! ### KEY_ROTATE -/

/-- A partition with a new key in its other slot, before its registers say so. -/
def State.rekeyed (s : State) (p : Nat) : State :=
  { (s.free 512).2 with sec := { s.sec with
    memKeys := Tab.put s.sec.memKeys [] (2 * p + (1 - s.fld (PART_KEY_CUR p))) (leBytes 64 (s.free 512).1) } }

/-- The partition under its new key, the sweep begun. -/
def State.rotated (s : State) (p : Nat) : State :=
  ((((s.rekeyed p).setFld (PART_KEY_CUR p) (1 - s.fld (PART_KEY_CUR p))).setFld (PART_KEY_EPOCH p) (s.fld (PART_KEY_EPOCH p) + 1))).setFld
    (PART_KEY_SWEEP p) 1

section
variable (s : State) (p : Nat)

theorem fld_epoch_rotated : (s.rotated p).fld (PART_KEY_EPOCH p) = (s.fld (PART_KEY_EPOCH p) + 1) % 2 ^ 32 := by
  rw [State.rotated, State.fld_setFld_ne, State.fld_setFld]
  · rfl
  · simp only [PART_KEY_EPOCH, PART_KEY_SWEEP, Fld.at_key]
    omega

theorem fld_cur_rotated : (s.rotated p).fld (PART_KEY_CUR p) = 1 - s.fld (PART_KEY_CUR p) := by
  rw [State.rotated, State.fld_setFld_ne, State.fld_setFld_ne, State.fld_setFld]
  · exact Nat.mod_eq_of_lt (show 1 - s.fld (PART_KEY_CUR p) < 2 by omega)
  · simp only [PART_KEY_CUR, PART_KEY_EPOCH, Fld.at_key]
    omega
  · simp only [PART_KEY_CUR, PART_KEY_SWEEP, Fld.at_key]
    omega

theorem on_sweep_rotated : (s.rotated p).on (PART_KEY_SWEEP p) = true := on_setFld_one (f := PART_KEY_SWEEP p) _ rfl

/-- The key in force before a rotation stays where it was. -/
theorem memKeys_rotated : Tab.get (s.rotated p).sec.memKeys [] (2 * p + s.fld (PART_KEY_CUR p)) =
    Tab.get s.sec.memKeys [] (2 * p + s.fld (PART_KEY_CUR p)) := by
  have hother : 2 * p + s.fld (PART_KEY_CUR p) ≠ 2 * p + (1 - s.fld (PART_KEY_CUR p)) := by omega
  exact Tab.get_put_ne s.sec.memKeys [] [] (2 * p + (1 - s.fld (PART_KEY_CUR p))) (2 * p + s.fld (PART_KEY_CUR p)) (leBytes 64 (s.free 512).1) hother

end

section
variable {x : Started} {s : State} {p : Nat}

theorem keyRotate_of_started (hp : cPart x.cmd = p) (h : Served s x 0x0705) (hpart : s.partState p = ptStarted)
    (hsweep : s.on (PART_KEY_SWEEP p) = false) :
    exec (.keyRotate x.cmd) s = .next ((s.rotated p).reply x stOk 0 ((s.fld (PART_KEY_EPOCH p) + 1) % 2 ^ 32) 0) := by
  rw [← fld_epoch_rotated, exec_keyRotate, execKeyRotate, hostRow_of_served h]
  rw [hp, if_neg (not_not.2 hpart), if_neg (by simp [hsweep])]
  rfl

/-! ### Transport keys -/

theorem kemRead_of_owned (hp : cPart x.cmd = p) (h : Served s x 0x0701) (hpart : s.partState p ≠ ptFree) (hlen : 1568 ≤ cLen x.cmd) :
    exec (.kemRead x.cmd) s = .next ((s.wrB (keyHost (cData x.cmd)) (s.kemPub p)).reply x stOk 0 0 0) := by
  rw [exec_kemRead, execKemRead, hostRow_of_served h, hp, if_neg hpart, if_neg (by omega)]
  rfl

/-- A partition with a new encapsulation pair. -/
def State.kemDrawn (s : State) (p : Nat) : State :=
  { (s.free 512).2 with sec := { s.sec with kem := Tab.put s.sec.kem ([], []) p (kemPair (s.free 512).1) } }

theorem kemPub_kemDrawn (s : State) (p : Nat) : (s.kemDrawn p).kemPub p = (kemPair (s.free 512).1).1 := by
  rw [State.kemPub, State.kemDrawn]
  dsimp only
  rw [Tab.get_put_same]

theorem kemRefresh_of_owned (hp : cPart x.cmd = p) (h : Served s x 0x0702) (hpart : s.partState p ≠ ptFree) :
    exec (.kemRefresh x.cmd) s = .next ((s.kemDrawn p).reply x stOk 0 0 0) := by
  rw [exec_kemRefresh, execKemRefresh, hostRow_of_served h, hp, if_neg hpart]
  rfl

/-- The transport key that a ciphertext gives a partition (R548). -/
def State.transportKey (s : State) (p : Nat) (c : List Byte) : List Byte :=
  ofNats (hkdf256 (sha256 (toNats c)) (kemDecaps (toNats (Tab.get s.sec.kem ([], []) p).2) (toNats c)) (p :: toNats (s.kemDigest p)) 32)

def State.keyOpened (s : State) (p : Nat) (c : List Byte) : State :=
  { s with sec := { s.sec with tk := Tab.put s.sec.tk [] p (s.transportKey p c), tkSeq := s.sec.tkSeq.del p } }

theorem keyOpen_of_owned (hp : cPart x.cmd = p) (h : Served s x 0x0703) (hpart : s.partState p ≠ ptFree) (hlen : cLen x.cmd = 1568) :
    exec (.keyOpen x.cmd) s = .next ((s.keyOpened p (s.rdB (keyHost (cData x.cmd)) 1568)).reply x stOk 0 0 0) := by
  rw [exec_keyOpen, execKeyOpen, hostRow_of_served h, hp, if_neg hpart, if_neg (not_not.2 hlen)]
  rfl

/-- KEY_INSTALL of a key of the fabric or of checkpoints, opened under the transport key (R549 to R551). -/
theorem keyInstall_of_blob {b : List Byte} {kind n q : Nat} (hp : cPart x.cmd = p) (hb : s.rdB (keyHost (cData x.cmd)) (cLen x.cmd) = b)
    (hkind : leNat (b.take 1) = kind) (hn : leNat ((b.drop 2).take 2) = n) (hq : leNat ((b.drop 4).take 4) = q)
    (h : Served s x 0x0704) (hpart : s.partState p ≠ ptFree) (hlen : cLen x.cmd = n + 24) (hkeys : kind = 1 ∨ kind = 2)
    (hzero : leNat ((b.drop 1).take 1) = 0) (hbuild : s.partState p = ptBuilding) (htk : Tab.get s.sec.tk [] p ≠ []) (hn32 : n = 32)
    (hseq : Tab.get s.sec.tkSeq 0 p < q) :
    exec (.keyInstall x.cmd) s = .next (match gcmOpen (toNats (Tab.get s.sec.tk [] p))
        (toNats ((b.drop 4).take 4) ++ List.replicate 8 0) (toNats (b.take 8)) (toNats ((b.drop 8).take n)) (toNats (b.drop (8 + n))) with
      | none => s.reply x stKeyBad 0 0 0
      | some k => State.reply { s with sec := { s.sec with
          tkSeq := Tab.put s.sec.tkSeq 0 p q
          fabKey := if kind = 1 then Tab.put s.sec.fabKey [] p (ofNats k) else s.sec.fabKey
          ckKey := if kind = 2 then Tab.put s.sec.ckKey [] p (ofNats k) else s.sec.ckKey } } x stOk 0 0 0) := by
  have htake (i k : Nat) (hik : i + k ≤ 8) : ((b.take 8).drop i).take k = (b.drop i).take k := by
    rw [List.drop_take, List.take_take, Nat.min_eq_left (by omega)]
  have htake0 : (b.take 8).take 1 = b.take 1 := by rw [List.take_take, Nat.min_eq_left (by omega)]
  rw [exec_keyInstall, execKeyInstall, hostRow_of_served h]
  dsimp only
  rw [hp, hb, htake 1 1 (by omega), htake 2 2 (by omega), htake 4 4 (by omega), htake0, hkind, hn, hq, if_neg hpart, if_neg (by omega),
    if_neg (by omega), if_neg (by simp [hbuild]), if_neg (by simp [htk, hn32]; omega)]
  generalize gcmOpen _ _ _ _ _ = r
  cases r with
  | none => rfl
  | some k => rcases hkeys with hk | hk <;> rw [hk] <;> rfl

theorem ideKmPf0_of_served (h : Served s x 0x070B) {r : List Byte × List Byte}
    (hr : Config.ideRequest (s.rdB (keyHost (cData x.cmd)) (cLen x.cmd)) = r) :
    exec (.ideKmPf0 x.cmd) s = .next (if sigOk s.opkHash r.1 r.2 then
        State.reply { s with sec := { s.sec with ide := Tab.put s.sec.ide [] 0 r.1 } } x stOk 0 0 0
      else s.reply x stSignature 0 0 0) := by
  rw [exec_ideKmPf0, execIdeKmPf0, hostRow_of_served h, hr]
  dsimp only
  split <;> rfl

end

/-- Keys (16 R528, R547 to R551). -/
theorem keysLaw_holds : keysLaw := by
  intro x s p
  refine ⟨fun h hpart hsweep => ⟨_, keyRotate_of_started rfl h hpart hsweep, s.rotated p, rfl, on_sweep_rotated s p, fld_cur_rotated s p, rfl,
      memKeys_rotated s p⟩,
    fun hpart => ⟨fun h hlen => kemRead_of_owned rfl h hpart hlen,
      fun h => ⟨_, kemRefresh_of_owned rfl h hpart, s.kemDrawn p, rfl, ?_, rfl, rfl⟩,
      fun h hlen => ⟨_, keyOpen_of_owned rfl h hpart hlen, s.keyOpened p _, rfl, ?_, ?_, rfl, rfl⟩,
      fun h hlen hkind hzero hbuild htk hn hseq => keyInstall_of_blob rfl rfl rfl rfl rfl h hpart hlen hkind hzero hbuild htk hn hseq⟩,
    fun h => ideKmPf0_of_served h rfl⟩
  · exact kemPub_kemDrawn s p
  · exact Tab.get_put_same ..
  · exact (Tab.get_del ..).trans (if_pos rfl)

end Sys2Proof.Machine
end

section
open Sys2Proof Sys2Proof.Machine

/-- Settles O51: the life of a partition, its keys, and the aperture. -/
theorem partitions : Obligations.Partitions := ⟨partitionsLaw_holds, keysLaw_holds, apertureLaw_holds⟩
end

section
/-! The bits of the OTP: a burnt bit stays (16 R535 to R540). -/

namespace Sys2Proof.Machine

/-! ### The bits of a little-endian number are those of its bytes -/

theorem testBit_leNat (l : List Byte) (k : Nat) {i : Nat} (hi : i < 8) :
    (leNat l).testBit (8 * k + i) = (l.getD k 0).toNat.testBit i := by
  induction l generalizing k with
  | nil => simp [leNat]
  | cons b r ih =>
    have hcut : leNat (b :: r) = 2 ^ 8 * leNat r + b.toNat := Nat.add_comm ..
    rw [hcut, Nat.testBit_two_pow_mul_add _ b.isLt]
    cases k with
    | zero => simp [hi]
    | succ k =>
      have hrest : 8 * (k + 1) + i - 8 = 8 * k + i := by omega
      rw [if_neg (by omega), hrest, ih]
      rfl

theorem testBit_rdLE (m : Mem) (a : Nat) {n k i : Nat} (hk : k < n) (hi : i < 8) :
    (m.rdLE a n).testBit (8 * k + i) = (m.rd (a + k)).toNat.testBit i := by
  rw [Mem.rdLE, testBit_leNat _ _ hi, Mem.rdBytes_eq_map]
  simp [List.getD, hk]

theorem testBit_rd_wrLE (m : Mem) (a v : Nat) {n k i : Nat} (hk : k < n) (hi : i < 8) :
    ((m.wrLE a n v).rd (a + k)).toNat.testBit i = v.testBit (8 * k + i) := by
  have hpow : 256 ^ n = 2 ^ (8 * n) := (Nat.pow_mul 2 8 n).symm
  have hin : 8 * k + i < 8 * n := by omega
  rw [← testBit_rdLE _ _ hk hi, Mem.rdLE_wrLE, hpow, Nat.testBit_mod_two_pow]
  simp [hin]

/-! ### Burning -/

section
variable (s : State) (off v : Nat) {n k i a : Nat}

theorem testBit_burn (hk : k < n) (hi : i < 8) : ((s.burn off n v).sec.otp.rd (off + k)).toNat.testBit i =
    ((s.sec.otp.rd (off + k)).toNat.testBit i || v.testBit (8 * k + i)) := by
  rw [State.burn, testBit_rd_wrLE _ _ _ hk hi, Nat.testBit_or, testBit_rdLE _ _ hk hi]

theorem rd_burn_out (ha : a < off ∨ off + n ≤ a) : (s.burn off n v).sec.otp.rd a = s.sec.otp.rd a :=
  Mem.rd_wrBytes_out _ _ _ _ (by rwa [length_leBytes])

/-- A burnt bit stays. -/
theorem testBit_burn_of_burnt (n : Nat) (h : (s.sec.otp.rd a).toNat.testBit i = true) :
    ((s.burn off n v).sec.otp.rd a).toNat.testBit i = true := by
  by_cases hin : off ≤ a ∧ a < off + n
  · obtain ⟨k, rfl⟩ := Nat.exists_eq_add_of_le hin.1
    have hi : i < 8 := by
      by_contra hge
      have hzero : (s.sec.otp.rd (off + k)).toNat.testBit i = false :=
        Nat.testBit_lt_two_pow (Nat.lt_of_lt_of_le (s.sec.otp.rd (off + k)).isLt (Nat.pow_le_pow_right (by decide) (by omega)))
      simp [hzero] at h
    rw [testBit_burn s off v (by omega) hi, h, Bool.true_or]
  · rw [rd_burn_out s off v (by omega), h]

/-- A burn sets the bits that it names. -/
theorem testBit_burn_of_set (hk : k < n) (hi : i < 8) (h : v.testBit (8 * k + i) = true) :
    ((s.burn off n v).sec.otp.rd (off + k)).toNat.testBit i = true := by
  rw [testBit_burn s off v hk hi, h, Bool.or_true]

end

end Sys2Proof.Machine
end

section
/-! Boot, the firmware and the working tree (16 R533 to R545, 17 R561, R562). -/

namespace Sys2Proof.Machine

theorem exec_bootWindowWrite (off : Nat) (data : List Byte) (s : State) :
    exec (.bootWindowWrite off data) s = execBootWindowWrite off data s := rfl
theorem exec_bootGo (v : Word) (s : State) : exec (.bootGo v) s = execBootGo v s := rfl
theorem exec_firmwareReady (s : State) : exec .firmwareReady s = execFirmwareReady s := rfl
theorem exec_workingTreeBuild (s : State) : exec .workingTreeBuild s = execWorkingTreeBuild s := rfl

/-! ### The boot window and GO -/

section
variable {s : State}

theorem hubUp_asked (h : s.hubUp = true) : s.asked.hubUp = true := h

theorem bootWindowWrite_of_waiting (off : Nat) (data : List Byte) (hup : s.hubUp = true)
    (h : s.fld SEC_BOOT_STATE = 0 ∨ s.fld SEC_BOOT_STATE = 3) :
    exec (.bootWindowWrite off data) s = .next (s.asked.wrB (keyBoot off) (data.take (bootBytes - off))) := by
  rw [exec_bootWindowWrite, execBootWindowWrite, if_neg (by simp [hubUp_asked hup])]
  exact if_pos h

theorem bootWindowWrite_of_busy (off : Nat) (data : List Byte) (hup : s.hubUp = true)
    (h : s.fld SEC_BOOT_STATE = 1 ∨ s.fld SEC_BOOT_STATE = 2) :
    exec (.bootWindowWrite off data) s = .next (s.asked.bump HUB_FW_STATUS_WIN_DISCARD 1) := by
  rw [exec_bootWindowWrite, execBootWindowWrite, if_neg (by simp [hubUp_asked hup])]
  exact if_neg (fun (hwait : s.fld SEC_BOOT_STATE = 0 ∨ s.fld SEC_BOOT_STATE = 3) => by omega)

theorem bootGo_of_waiting (v : Word) (hup : s.hubUp = true) (hgo : bit v.toNat 0 = true)
    (h : s.fld SEC_BOOT_STATE = 0 ∨ s.fld SEC_BOOT_STATE = 3) :
    exec (.bootGo v) s = .next ((s.asked.setFld SEC_BOOT_STATE 1).setFld SEC_BOOT_CTRL_LENGTH (bits v.toNat 32 32)) := by
  have hst : (s.asked.fld SEC_BOOT_STATE == 0 || s.asked.fld SEC_BOOT_STATE == 3) = true := by
    simpa using (show s.asked.fld SEC_BOOT_STATE = 0 ∨ s.asked.fld SEC_BOOT_STATE = 3 from h)
  rw [exec_bootGo, execBootGo, if_neg (by simp [hubUp_asked hup, hgo, hst])]

theorem bootGo_of_busy (v : Word) (h : s.fld SEC_BOOT_STATE = 1 ∨ s.fld SEC_BOOT_STATE = 2) : exec (.bootGo v) s = .next s.asked := by
  have hst : (s.asked.fld SEC_BOOT_STATE == 0 || s.asked.fld SEC_BOOT_STATE == 3) = false := by
    have hasked : s.asked.fld SEC_BOOT_STATE = s.fld SEC_BOOT_STATE := rfl
    obtain h | h := h <;> simp [hasked, h]
  rw [exec_bootGo, execBootGo, if_pos (by simp [hst])]

theorem bootGo_starts (v : Word) (hup : s.hubUp = true) (hgo : bit v.toNat 0 = true)
    (h : s.fld SEC_BOOT_STATE = 0 ∨ s.fld SEC_BOOT_STATE = 3) :
    Gives (exec (.bootGo v) s) (fun u => u.fld SEC_BOOT_STATE = 1 ∧ u.fld SEC_BOOT_CTRL_LENGTH = bits v.toNat 32 32 ∧
      u.sec = s.sec ∧ u.m = s.m) := by
  refine ⟨_, bootGo_of_waiting v hup hgo h, ?_, ?_, rfl, rfl⟩
  · rw [State.fld_setFld_ne _ _ (by decide), State.fld_setFld]
    rfl
  · rw [State.fld_setFld]
    exact Nat.mod_eq_of_lt (bits_lt_two_pow _ 32 32)

/-! ### The verification -/

theorem imageReason_le (s : State) (len : Nat) : s.imageReason len ≤ 5 := by
  unfold State.imageReason
  split_ifs <;> decide

theorem imageReason_free (s : State) (w len : Nat) : (s.free w).2.imageReason len = s.imageReason len := rfl

theorem tickBoot_of_verifying (hup : s.hubUp = true) (h : s.fld SEC_BOOT_STATE = 1) :
    s.tickBoot = if Config.freeValue s.freeCtr % 2 = 1 then (s.free 1).2.verified else (s.free 1).2 := by
  rw [State.tickBoot, if_pos (by simp [hup, h])]
  rfl

theorem fld_state_setBoot (s : State) {st : Nat} (r : Nat) (hst : st < 16) : (s.setBoot st r).fld SEC_BOOT_STATE = st := by
  have hregs : (s.setBoot st r).regs = ((s.setFld SEC_BOOT_STATE st).setFld SEC_BOOT_REASON r).regs := by simp [State.setBoot]
  rw [State.fld, hregs, ← State.fld, State.fld_setFld_ne _ _ (by decide), State.fld_setFld]
  exact Nat.mod_eq_of_lt hst

theorem fld_reason_setBoot (s : State) (st : Nat) {r : Nat} (hr : r < 256) : (s.setBoot st r).fld SEC_BOOT_REASON = r := by
  have hregs : (s.setBoot st r).regs = ((s.setFld SEC_BOOT_STATE st).setFld SEC_BOOT_REASON r).regs := by simp [State.setBoot]
  rw [State.fld, hregs, ← State.fld, State.fld_setFld]
  exact Nat.mod_eq_of_lt hr

/-- The firmware's measurement, taken as the image begins to run (R533). -/
def State.imageMeasured (s : State) : State :=
  { s with sec := { s.sec with
    fwDigest := shaBytes (s.rdB (keyBoot 0) (128 + s.imgBody)), fwSvn := s.img 8 4, fabBuild := s.img 2 2 } }

theorem verified_of_sound (h : s.imageReason (s.fld SEC_BOOT_CTRL_LENGTH) = 0) : s.verified = s.imageMeasured.setBoot 2 0 := by
  rw [State.verified, if_neg (not_not.2 h)]
  rfl

theorem verified_of_failed (h : s.imageReason (s.fld SEC_BOOT_CTRL_LENGTH) ≠ 0) :
    s.verified = s.setBoot 3 (s.imageReason (s.fld SEC_BOOT_CTRL_LENGTH)) := by
  rw [State.verified, if_pos h]

theorem verified_fields (s : State) {r : Nat} (hr : s.imageReason (s.fld SEC_BOOT_CTRL_LENGTH) = r) :
    s.verified.fld SEC_BOOT_STATE = (if r = 0 then 2 else 3) ∧ s.verified.fld SEC_BOOT_REASON = r ∧
      (r = 0 → s.verified.sec.fwSvn = s.img 8 4 ∧ s.verified.sec.fwDigest = shaBytes (s.rdB (keyBoot 0) (128 + s.imgBody))) ∧
      s.verified.m = s.m := by
  have hm : s.verified.m = s.m := by simp
  by_cases h0 : r = 0
  · have hsec : (s.imageMeasured.setBoot 2 0).sec = s.imageMeasured.sec := by simp
    rw [if_pos h0, h0]
    rw [h0] at hr
    refine ⟨?_, ?_, fun _ => ?_, hm⟩
    · rw [verified_of_sound hr, fld_state_setBoot _ _ (by decide)]
    · rw [verified_of_sound hr, fld_reason_setBoot _ _ (by decide)]
    · rw [verified_of_sound hr, hsec]
      exact ⟨rfl, rfl⟩
  · have hbound : r < 256 := by
      have := imageReason_le s (s.fld SEC_BOOT_CTRL_LENGTH)
      omega
    have hv : s.verified = s.setBoot 3 r := by rw [verified_of_failed (by omega), hr]
    rw [if_neg h0]
    refine ⟨?_, ?_, fun h => absurd h h0, hm⟩
    · rw [hv, fld_state_setBoot _ _ (by decide)]
    · rw [hv, fld_reason_setBoot _ _ hbound]

theorem tickBoot_kept (hup : s.hubUp = true) (h : s.fld SEC_BOOT_STATE = 1) (hfree : Config.freeValue s.freeCtr % 2 = 0) :
    s.tickBoot = (s.free 1).2 := by
  rw [tickBoot_of_verifying hup h, if_neg (by omega)]

theorem tickBoot_ends (hup : s.hubUp = true) (h : s.fld SEC_BOOT_STATE = 1) (hfree : Config.freeValue s.freeCtr % 2 = 1) :
    s.tickBoot = (s.free 1).2.verified := by
  rw [tickBoot_of_verifying hup h, if_pos hfree]

/-! ### FIRMWARE_READY -/

/-- The device once its firmware has powered the dies, before READY. -/
def State.powered (s : State) : State :=
  let (o, s) := s.free 8
  let (g, s) := s.free 8
  { s with
    fab := { s.fab with enA := true, enB := true }
    pm := { s.pm with dies := true, selfRef := false, gpioOut := BitVec.ofNat 8 o, gpio := BitVec.ofNat 8 g } }

theorem firmwareReady_of_running (hup : s.hubUp = true) (h : s.fld SEC_BOOT_STATE = 2) (hready : s.on HUB_FW_STATUS_READY = false) :
    exec .firmwareReady s = .next ((s.powered.setFld HUB_FW_STATUS_READY 1).fire 0 0) := by
  rw [exec_firmwareReady, execFirmwareReady, if_pos (by simp [hup, h, hready])]
  rfl

theorem firmwareReady_powers (hup : s.hubUp = true) (h : s.fld SEC_BOOT_STATE = 2) (hready : s.on HUB_FW_STATUS_READY = false) :
    Gives (exec .firmwareReady s) (fun u => u.on HUB_FW_STATUS_READY = true ∧ u.pm.dies = true ∧ u.fab.enA = true ∧
      u.fab.enB = true ∧ u.m = s.m) := by
  refine ⟨_, firmwareReady_of_running hup h hready, ?_⟩
  have hset := on_setFld_one (f := HUB_FW_STATUS_READY) s.powered rfl
  generalize hu : s.powered.setFld HUB_FW_STATUS_READY 1 = u at hset
  have hpm : u.pm = s.powered.pm := by rw [← hu]; rfl
  have hfab : u.fab = s.powered.fab := by rw [← hu]; rfl
  have hm : u.m = s.m := by rw [← hu]; rfl
  have hregs : (u.fire 0 0).regs = u.regs := by simp
  refine ⟨(on_of_regs hregs _).trans hset, ?_⟩
  simp [hpm, hfab, hm, State.powered]

/-! ### The working tree -/

/-- A new working tree under leaf `q` of the top tree, the leaf burnt. -/
def State.treeDrawn (s : State) (q : Nat) : State :=
  let s := s.burn (0x400 + q / 8) 1 (2 ^ (q % 8))
  let (tree, s) := s.free 640
  { s with sec := { s.sec with work := some tree, workLeaf := 0, topLeaf := q } }

/-- The identity READY, with `n` leaves burnt; after the last leaf it is EXHAUSTED. -/
def State.identReady (s : State) (n : Nat) : State :=
  let s := (s.setFld SEC_OTP_GEN_LEAVES n).setFld SEC_BOOT_IDENT_READY 1
  if n = 32768 then s.setFld SEC_BOOT_IDENT_EXHAUSTED 1 else s

theorem workingTreeBuild_of_ready {q : Nat} (hup : s.hubUp = true) (h : s.fld SEC_BOOT_STATE = 2) (hwork : s.sec.work = none)
    (hleaf : s.nextLeaf = some q) : exec .workingTreeBuild s =
      .next (let u := (s.treeDrawn q).identReady (s.fld SEC_OTP_GEN_LEAVES + 1)
        u.sec.sigs.foldl State.serveSig { u with sec := { u.sec with sigs := [] } }) := by
  rw [exec_workingTreeBuild, execWorkingTreeBuild, if_neg (by simp [hup, h, hwork]), hleaf]
  rfl

theorem sec_identReady (s : State) (n : Nat) : (s.identReady n).sec = s.sec := by
  unfold State.identReady
  split_ifs <;> rfl

theorem on_ready_identReady (s : State) (n : Nat) : (s.identReady n).on SEC_BOOT_IDENT_READY = true := by
  have hready (u : State) : (u.setFld SEC_BOOT_IDENT_READY 1).on SEC_BOOT_IDENT_READY = true := on_setFld_one u rfl
  unfold State.identReady
  dsimp only
  split_ifs
  · rw [on_eq, State.fld_setFld_ne _ _ (by decide), ← on_eq, hready]
  · exact hready _

theorem leaf_treeDrawn (s : State) (q : Nat) : ((s.treeDrawn q).sec.otp.rd (0x400 + q / 8)).toNat.testBit (q % 8) = true :=
  testBit_burn_of_set s (0x400 + q / 8) (2 ^ (q % 8)) (n := 1) (k := 0) (by decide) (Nat.mod_lt _ (by decide))
    (by rw [Nat.mul_zero, Nat.zero_add, Nat.testBit_two_pow_self])

theorem workingTreeBuild_builds {q : Nat} (hup : s.hubUp = true) (h : s.fld SEC_BOOT_STATE = 2) (hwork : s.sec.work = none)
    (hleaf : s.nextLeaf = some q) (hsigs : s.sec.sigs = []) :
    Gives (exec .workingTreeBuild s) (fun u => u.on SEC_BOOT_IDENT_READY = true ∧ u.sec.topLeaf = q ∧ u.sec.workLeaf = 0 ∧
      (∃ n, u.sec.work = some n) ∧ (u.sec.otp.rd (0x400 + q / 8)).toNat.testBit (q % 8) = true) := by
  refine ⟨_, workingTreeBuild_of_ready hup h hwork hleaf, ?_⟩
  have hready := on_ready_identReady (s.treeDrawn q) (s.fld SEC_OTP_GEN_LEAVES + 1)
  have hsec := sec_identReady (s.treeDrawn q) (s.fld SEC_OTP_GEN_LEAVES + 1)
  generalize (s.treeDrawn q).identReady (s.fld SEC_OTP_GEN_LEAVES + 1) = u at hready hsec
  have hnone : u.sec.sigs = [] := by rw [hsec]; exact hsigs
  dsimp only
  rw [hnone, List.foldl_nil]
  refine ⟨(on_of_regs rfl _).trans hready, ?_⟩
  dsimp only
  rw [hsec]
  exact ⟨rfl, rfl, ⟨_, rfl⟩, leaf_treeDrawn s q⟩

end

end Sys2Proof.Machine
end

section
/-! The security commands on OTP, identity and debug tokens (16 R535 to R554). -/

namespace Sys2Proof.Machine

theorem exec_quote (c : HostCmd) (s : State) : exec (.quote c) s = execQuote c s := rfl
theorem exec_identRead (c : HostCmd) (s : State) : exec (.identRead c) s = execIdentRead c s := rfl
theorem exec_svnCommit (c : HostCmd) (s : State) : exec (.svnCommit c) s = execSvnCommit c s := rfl
theorem exec_otpProgram (c : HostCmd) (s : State) : exec (.otpProgram c) s = execOtpProgram c s := rfl
theorem exec_debugAttach (c : HostCmd) (s : State) : exec (.debugAttach c) s = execDebugAttach c s := rfl
theorem exec_debugDetach (c : HostCmd) (s : State) : exec (.debugDetach c) s = execDebugDetach c s := rfl

section
variable {x : Started} {s : State} {p : Nat}

/-! ### QUOTE and IDENT_READ -/

theorem quote_of_owned (hp : cPart x.cmd = p) (h : Served s x 0x0700) (hlen : 5876 ≤ cLen x.cmd) (hpart : s.partState p ≠ ptFree) :
    exec (.quote x.cmd) s = HRes.out x (if s.signable then .ok (s.quoteNow x p) else if s.signFails then .no s stExhausted
      else .stay (s.signReq (.quote x.cmd))) := by
  rw [exec_quote, execQuote, hostRow_of_served h, hp, if_neg (by omega), if_neg hpart]

theorem quoteNow_of_index (h : s.nextIdx p ≠ 0) : s.quoteNow x p =
    (let nonce := (List.range 4).flatMap (fun k => leBytes 8 (cP x.cmd (k + 1)))
     let body := s.quoteBody p nonce (s.nextIdx p - 1)
     ((s.sign body).2).wrB (keyHost (cData x.cmd)) (body ++ (s.sign body).1)) := by
  rw [State.quoteNow, if_neg h]

theorem identRead_of_served (h : Served s x 0x0706) : exec (.identRead x.cmd) s = .next (
    let pub := s.topPublic
    let b := pub ++ Config.vendorCert pub
    if cLen x.cmd < b.length then s.reply x stBadLength 0 0 0
    else (s.wrB (keyHost (cData x.cmd)) b).reply x stOk 0 0 b.length) := by
  rw [exec_identRead, execIdentRead, hostRow_of_served h]
  dsimp only
  split <;> rfl

/-! ### SVN_COMMIT and OTP_PROGRAM -/

/-- A firmware's security version in force: one burnt bit for each version (R535). -/
def State.svnCommitted (s : State) : State := (s.burn 0x240 8 (2 ^ s.sec.fwSvn - 1)).setFld SEC_OTP_GEN_SVN s.sec.fwSvn

theorem svnCommit_of_newer (h : Served s x 0x0707) (hnew : s.fld SEC_OTP_GEN_SVN < s.sec.fwSvn) :
    exec (.svnCommit x.cmd) s = .next (s.svnCommitted.reply x stOk 0 s.sec.fwSvn 0) := by
  rw [exec_svnCommit, execSvnCommit, hostRow_of_served h, if_neg (by omega)]
  rfl

theorem fld_svn_svnCommitted (hle : s.sec.fwSvn ≤ 64) : s.svnCommitted.fld SEC_OTP_GEN_SVN = s.sec.fwSvn := by
  rw [State.svnCommitted, State.fld_setFld]
  exact Nat.mod_eq_of_lt (show s.sec.fwSvn < 2 ^ 7 by omega)

theorem svnBits_svnCommitted (hle : s.sec.fwSvn ≤ 64) {i : Nat} (hi : i < s.sec.fwSvn) :
    (s.svnCommitted.sec.otp.rd (0x240 + i / 8)).toNat.testBit (i % 8) = true :=
  testBit_burn_of_set s 0x240 (2 ^ s.sec.fwSvn - 1) (n := 8) (by omega) (Nat.mod_lt i (by decide))
    (by rw [Nat.div_add_mod, Nat.testBit_two_pow_sub_one, decide_eq_true hi])

theorem otpProgram_of_served {r : Nat × List Byte × List Byte × List Byte} {o : OtpItem} {v key : List Byte}
    (hr : Config.otpRequest (s.rdB (keyHost (cData x.cmd)) (cLen x.cmd)) = r) (ho : otpItem r.1 = o) (hv : fitB o.size r.2.1 = v)
    (hkey : (if r.1 % 3 = 0 ∨ (r.1 % 3 = 1 ∧ s.fld SEC_OTP_GEN_OPK = 7) then s.rootHash else s.opkHash) = key)
    (h : Served s x 0x0708) : exec (.otpProgram x.cmd) s = .next (
      if !sigOk key r.2.2.1 r.2.2.2 then s.reply x stSignature 0 0 0
      else if r.1 % 3 = 2 ∧ badSettings v then s.reply x stReserved 0 0 0
      else if 4 ≤ s.nextGen o then s.reply x stOtpFull 0 0 0
      else (((s.burn (o.base + o.size * s.nextGen o) o.size (leNat v)).burn 0xA0 4 (2 ^ (o.mark + s.nextGen o))).setFld o.fld
        (s.nextGen o)).reply x stOk 0 0 0) := by
  rw [exec_otpProgram, execOtpProgram, hostRow_of_served h, hr]
  obtain ⟨it, value, msg, sig⟩ := r
  subst ho hv hkey
  dsimp only
  split_ifs <;> rfl

/-! ### Debug tokens -/

/-- The tokens gone, with a record of each. -/
def State.detached (s : State) : State :=
  let s := s.sec.tokens.foldl (fun s t => s.chainAll (debugRecord s.timeUs t.1 t.2.1 1 t.2.2)) s
  { s with sec := { s.sec with tokens := [] } }

theorem debugDetach_of_served (h : Served s x 0x070A) : exec (.debugDetach x.cmd) s = .next (s.detached.reply x stOk 0 0 0) := by
  rw [exec_debugDetach, execDebugDetach, hostRow_of_served h]
  rfl

theorem fldsKept_chainAll (s : State) (r : List Byte) : FldsKept OffDbg s (s.chainAll r) :=
  fldsKept_foldl (f := fun s p => s.chainRecord p r) (fun s p => fldsKept_chainRecord s p r) _ s

theorem fldsKept_detached (s : State) : FldsKept OffDbg s s.detached :=
  (fldsKept_foldl (f := fun s (t : Nat × Nat × List Byte) => s.chainAll (debugRecord s.timeUs t.1 t.2.1 1 t.2.2))
    (fun s _ => fldsKept_chainAll s _) s.sec.tokens s).trans (fldsKept_of_regs rfl)

theorem partState_detached (s : State) (q : Nat) : s.detached.partState q = s.partState q :=
  fldsKept_detached s (PART_STATUS_STATE q) (by simp only [OffDbg, PART_STATUS_STATE, Fld.at_reg]; omega)

/-- Records of debug tokens change no memory. -/
theorem m_chainTokens (l : List (Nat × Nat × List Byte)) (s : State) :
    (l.foldl (fun s t => s.chainAll (debugRecord s.timeUs t.1 t.2.1 1 t.2.2)) s).m = s.m := by
  induction l generalizing s with
  | nil => rfl
  | cons t l ih => rw [List.foldl_cons, ih, (State.chainAll_frame s _).2.2.2.2.2.1]

theorem m_detached (s : State) : s.detached.m = s.m := m_chainTokens s.sec.tokens s

/-- DEBUG_ATTACH of a token of the right shape, for this device's key and boot: the signature and the device decide. -/
theorem debugAttach_of_shape {b t dg : List Byte} {f : Nat → Nat → Nat} (hb : s.rdB (keyHost (cData x.cmd)) (cLen x.cmd) = b)
    (ht : b.take 64 = t) (hf : (fun o n => leNat ((t.drop o).take n)) = f) (hdg : (shaBytes t).take 16 = dg)
    (h : Served s x 0x0709) (hlen : 64 < cLen x.cmd) (hver : f 0 2 = 1) (hcaps : f 2 1 < 32) (hkey : f 4 4 < 8)
    (hzero : f 0x20 0x20 = 0) (hgen : f 4 4 = s.fld SEC_OTP_GEN_OPK) (hnonce : f 0x18 8 = s.fld SEC_BOOT_NONCE_NONCE) :
    exec (.debugAttach x.cmd) s = .next (
      if !sigOk s.opkHash t (b.drop 64) then s.reply x stSignature 0 0 0
      else if (t.drop 8).take 16 ≠ s.topTree.1 then s.reply x stToken 0 0 0
      else (State.chainAll { s with sec := { s.sec with tokens := s.sec.tokens ++ [(f 2 1, f 3 1, dg)] } }
        (debugRecord s.timeUs (f 2 1) (f 3 1) 0 dg)).reply x stOk 0 0 0) := by
  have happ (o n : Nat) : leNat ((t.drop o).take n) = f o n := congrFun (congrFun hf o) n
  have hshape : (f 0 2 != 1 || 32 ≤ f 2 1 || 8 ≤ f 4 4 || f 0x20 0x20 != 0) = false := by
    simp [hver, hzero, hcaps, hkey]
  have hdevice : (f 4 4 != s.fld SEC_OTP_GEN_OPK || (t.drop 8).take 16 != s.topTree.1 || f 0x18 8 != s.fld SEC_BOOT_NONCE_NONCE) =
      ((t.drop 8).take 16 != s.topTree.1) := by
    simp [hgen, hnonce]
  rw [exec_debugAttach, execDebugAttach, hostRow_of_served h, hb]
  dsimp only
  simp only [ht, happ, hdg]
  rw [if_neg (by omega), hshape, hdevice]
  cases sigOk s.opkHash t (b.drop 64) with
  | false => rfl
  | true =>
    by_cases htree : (t.drop 8).take 16 = s.topTree.1
    · simp [htree]
    · simp [htree]

end

/-- Boot, OTP and identity (16 R533 to R545, 17 R561, R562). -/
theorem bootAndIdentityLaw_holds : bootAndIdentityLaw := by
  refine ⟨fun off data s hup => ⟨bootWindowWrite_of_waiting off data hup, bootWindowWrite_of_busy off data hup⟩,
    fun v s hup hgo => ⟨bootGo_starts v hup hgo, bootGo_of_busy v⟩,
    fun s hup h => ⟨fun hfree => ?_, fun hfree => ?_⟩,
    fun s hup h => ⟨firmwareReady_powers hup h, fun q hwork hleaf hsigs => workingTreeBuild_builds hup h hwork hleaf hsigs⟩,
    fun off n v a i s hbit => testBit_burn_of_burnt s off v n hbit,
    fun x s => ⟨fun h hlen hpart hidx => ⟨fun hsign => ?_, fun hsign hfails => ?_⟩, identRead_of_served, fun h hnew hle => ?_,
      otpProgram_of_served rfl rfl rfl rfl, fun h => ?_, debugAttach_of_shape rfl rfl rfl rfl⟩⟩
  · rw [tickBoot_kept hup h hfree]
    exact ⟨rfl, rfl⟩
  · rw [tickBoot_ends hup h hfree]
    exact verified_fields (s.free 1).2 rfl
  · rw [quote_of_owned rfl h hlen hpart, if_pos hsign, quoteNow_of_index hidx]
    rfl
  · rw [quote_of_owned rfl h hlen hpart, if_neg (by simp [hsign]), if_neg (by simp [hfails])]
    rfl
  · exact ⟨_, svnCommit_of_newer h hnew, s.svnCommitted, rfl, fld_svn_svnCommitted hle, rfl, fun i hi => svnBits_svnCommitted hle hi⟩
  · exact ⟨_, debugDetach_of_served h, s.detached, rfl, rfl, m_detached s, partState_detached s⟩

end Sys2Proof.Machine
end

section
open Sys2Proof Sys2Proof.Machine

/-- Settles O52: keys of a partition, boot, OTP and identity. -/
theorem keys : Obligations.Keys := ⟨keysLaw_holds, bootAndIdentityLaw_holds⟩

/-- Settles O53: boot, OTP, identity and the life of a partition. -/
theorem bootAndIdentity : Obligations.BootAndIdentity := ⟨bootAndIdentityLaw_holds, partitionsLaw_holds⟩
end
